-- ==== Sys2Proof/Word.lean ====
section
/-! DEFINITION. The plain word types of the manual: bytes, register words, telegram and timebase quantities.
Field extraction, sign extension and byte order live in Sys2Proof/Machine/Bits.lean. -/

namespace Sys2Proof

/-- One byte (R415). -/
abbrev Byte := BitVec 8
/-- Sixteen bits: CRC-16 values, link fields, path elements (R78, R92). -/
abbrev Half := BitVec 16
/-- One register word (R5). -/
abbrev Word := BitVec 32
/-- Sixty-four bits: identities, digests, cell state words (R54, R75, R153). -/
abbrev Dword := BitVec 64

end Sys2Proof
end

