-- ==== Sys2Proof/Syntax.lean ====
section
/-! DEFINITION. The commands of the block, one constructor of `Instr` per row of spec/opcode_table.json, and the operands they carry.
An operand is what comes from outside the state: the agent concerned, an address and a value, received bytes, a measured
quantity, or the timebase instant `t` in nanoseconds at which a timed event falls. -/

namespace Sys2Proof

/-- The three compute lanes (Hierarchy; R14). -/
inductive LaneId where
  | a | b | c
  deriving DecidableEq, Repr

/-- Who makes a bus access: a lane's core pair, the hub, or host software on BAR0 (Address Map). -/
inductive Master where
  | lane (l : LaneId) | hub | host
  deriving DecidableEq, Repr

/-- Access widths of R5, R388 and R427. -/
inductive Width where
  | byte | half | word
  deriving DecidableEq, Repr

/-- The direction of an access; a write carries its value in the low bits. -/
inductive Access where
  | read | write (v : Word)
  deriving DecidableEq, Repr

/-- What starts an access of a lane's cores: lane firmware, the code of a program task, or the debug port (R196, R212). -/
inductive AccessSrc where
  | firmware | task (n : Nat) | debug
  deriving DecidableEq, Repr

/-- What comes with an access beside its address: its source, the bits in error in the memory word it reads (R82, R417), and the RW1C bits that
hardware sets in the same clock (R7). -/
structure AccessEnv where
  src  : AccessSrc
  nerr : Nat
  hw   : Word
  deriving DecidableEq, Repr

/-- An access of firmware to a word without error. -/
def AccessEnv.plain : AccessEnv := { src := .firmware, nerr := 0, hw := 0 }

/-- A die with a reset controller of its own (R489). -/
inductive Die where
  | lane (l : LaneId) | hub | field
  deriving DecidableEq, Repr

/-- One consensus entry (R54). -/
structure ConsEntry where
  conn   : Dword
  seq    : Word
  digest : Word
  deriving DecidableEq, Repr

/-- The field image of a consensus frame (R260). -/
structure FieldImg where
  inp    : Dword
  qst    : Dword
  intest : Word
  enc0   : BitVec 48
  enc1   : BitVec 48
  deriving DecidableEq, Repr

/-- A consensus frame (R53). -/
structure ConsFrame where
  stroke   : Word
  tn       : Nat
  sendTime : Nat
  holdover : Bool
  inVote   : Bool
  img      : FieldImg
  entries  : List ConsEntry
  deriving DecidableEq, Repr

/-- What the code of a task asks of the runtime in one cycle, in issue order: timers started, each with its expiry (R215); route requests of
four words, word i in bits 32i + 31 to 32i (R51, R62); channels whose `QLAT` it asks to clear (R255). -/
structure TaskAsks where
  timers : List (Nat × Nat)
  routes : List (BitVec 128)
  clear  : BitVec 16
  deriving DecidableEq, Repr

/-- The values two lanes compare before they pair or readmit (R46, R210, R455). -/
structure PairValues where
  content  : Dword
  votegen  : Word
  station  : Word
  settings : Word
  prgid    : Dword
  deriving DecidableEq, Repr

/-- A verdict frame (R158): bit 0 lane A, bit 1 lane B, bit 2 lane C in `voters`; dissent counts A, B, C. -/
structure Verdict where
  voters   : BitVec 3
  cntA     : Nat
  cntB     : Nat
  cntC     : Nat
  shadowOk : Bool
  deriving DecidableEq, Repr

/-- One retired instruction as the signature checker sees it (Signature windows): a store folds address and data as well. -/
structure Retired where
  pc    : Word
  word  : Word
  store : Option (Word × Word)
  deriving DecidableEq, Repr

/-- One encoder front end's measurement at a sample instant (R257, R258): position, (sin² + cos²) / nominal in thousandths, signal frequency or
count rate in Hz, quadrant of the sin and cos samples, states of the pair A, B since the last sample, longest time in ns a differential pair stood
below 0.2 V, last count negative, an index pulse. -/
structure EncMeas where
  pos    : Word
  ratio  : Nat
  rate   : Nat
  quad   : Nat
  states : List Nat
  lowNs  : Nat
  dirNeg : Bool
  index  : Bool
  deriving DecidableEq, Repr

/-- What the FIELD die measures at a sample instant: sink currents of the inputs in µA, terminal readback, encoders, `VFIELD` (R235, R236, R241). -/
structure FieldMeas where
  sink : List Nat
  qrb  : Word
  enc0 : EncMeas
  enc1 : EncMeas
  vfs  : Half
  deriving DecidableEq, Repr

/-- What the die saw of one checked input over a test-pulse period (R244). -/
structure PulseObs where
  sourceFault : Bool
  offWhole    : Bool
  foreignGap  : Bool
  gapMissing  : Bool
  deriving DecidableEq, Repr

/-- The reference of a host command's row to the active command it carries out: queue and slot (R379). -/
structure CmdRef where
  q    : Nat
  slot : Nat
  deriving DecidableEq, Repr

/-- A retain copy as a lane lists it (R222, R223): stroke number and CRC. -/
structure RetainItem where
  stroke : Word
  crc    : Word
  deriving DecidableEq, Repr

/-- The commands of the IRV3: the operations and events of spec/opcode_table.json, in its order. -/
inductive Instr where
  -- accesses and the timebase
  /-- REGISTER_WRITE (R6, R9, R10): an aligned word access of the address maps. The direction is an operand, because no row reads. -/
  | registerWrite (m : Master) (addr : Word) (acc : Access) (env : AccessEnv)
  /-- BAD_WIDTH_ACCESS (R5). -/
  | badWidthAccess (m : Master) (addr : Word) (w : Width) (acc : Access) (env : AccessEnv)
  /-- UNMAPPED_ACCESS (R568). -/
  | unmappedAccess (m : Master) (addr : Word) (acc : Access)
  /-- TICK_FRAME (R34): the follower's own extrapolated value and the frame's value and CRC; no frame is a missing tick. -/
  | tickFrame (l : LaneId) (own : Nat) (frame : Option (Dword × Half))
  /-- RATE_CHECK_WINDOW (R35): the crystal cycles counted over the window. -/
  | rateCheckWindow (l : LaneId) (xcount : Nat)
  /-- HOLDOVER_ENTRY (R36). -/
  | holdoverEntry (l : LaneId)
  /-- HOLDOVER_EXIT (R38). -/
  | holdoverExit (l : LaneId)
  /-- TIMEBASE_RESTART (R38): the time passed since the lanes published theirs. -/
  | timebaseRestart (since : Nat)
  -- the stroke
  /-- CATCH (R51): a task's catch instant in one lane; task 0 is the stroke. -/
  | catchInputs (l : LaneId) (task : Nat) (tn : Nat)
  /-- CONSENSUS_FRAME (R53): the peer's frame for a task, and the follower time of its arrival. -/
  | consensusFrame (dst src : LaneId) (task : Nat) (frame : List Byte) (t : Nat)
  /-- TELEGRAM_FETCH (R56). -/
  | telegramFetch (dst src : LaneId) (task : Nat) (tlg : List Byte)
  /-- CONSENSUS_DEADLINE (R60). -/
  | consensusDeadline (l : LaneId) (task : Nat) (t : Nat)
  /-- VOTE_INSTANT (R71): whether the task's compute has finished, how long it took from the catch, in µs, and what its code
  asked for. -/
  | voteInstant (l : LaneId) (task : Nat) (done : Bool) (us : Nat) (asks : TaskAsks) (t : Nat)
  /-- FINISH (R68). -/
  | finish (l : LaneId) (task : Nat) (t : Nat)
  /-- IDLE_EXIT (R43). -/
  | idleExit (l : LaneId) (t : Nat)
  /-- ARM (R45). -/
  | arm (l : LaneId)
  /-- CMAX_CLR (R73). -/
  | cmaxClr (l : LaneId)
  /-- TMR_STROKE_WRITE (R74). -/
  | tmrStrokeWrite (l : LaneId) (v : Word)
  /-- PAIRING (R46): the values an armed peer sends. -/
  | pairing (dst src : LaneId) (v : PairValues) (t : Nat)
  /-- START_TIMEOUT (R49). -/
  | startTimeout (t : Nat)
  /-- EVENT_TASK_RELEASE (R65). -/
  | eventTaskRelease (l : LaneId) (task : Nat) (t : Nat)
  /-- PROGRAM_TIMER_EXPIRY (R215). -/
  | programTimerExpiry (l : LaneId) (timer : Nat) (t : Nat)
  -- the route logic engine
  /-- CELL_WINDOW_WRITE (R79): a core access of the cell or ARD window, the route status table, the path store or the
  tables; bits in error in the word read (R82). -/
  | cellWindowWrite (l : LaneId) (addr : Word) (acc : Access) (nerr : Nat)
  /-- RLE_CHECK (R96): the words the engine reads with errors, and how many bits of each (R82). -/
  | rleCheck (l : LaneId) (ecc : List (Word × Nat))
  /-- RLE_CHECK_DONE (R96). -/
  | rleCheckDone (l : LaneId)
  /-- RLE_LOCK (R99). -/
  | rleLock (l : LaneId)
  /-- RLE_STROKE (R105): the words the engine reads with errors, and how many bits of each (R82). -/
  | rleStroke (l : LaneId) (ecc : List (Word × Nat))
  /-- RLE_STROKE_DONE (R105): the time the command took, in µs. -/
  | rleStrokeDone (l : LaneId) (us : Nat)
  /-- APPROACH_TIMER_EXPIRY (R134), of one route. -/
  | approachTimerExpiry (l : LaneId) (ard : Nat)
  /-- OVERLAP_TIMER_EXPIRY (R140), of one OVERLAP cell. -/
  | overlapTimerExpiry (l : LaneId) (cell : Nat)
  /-- TIMED_SECTION_RELEASE (R137), of one SECTION cell. -/
  | timedSectionRelease (l : LaneId) (cell : Nat)
  /-- MOVE_TIMEOUT (R131), of one cell. -/
  | moveTimeout (l : LaneId) (cell : Nat)
  /-- CROSSING_CLOSE_TIMEOUT (R135), of one LEVEL_CROSSING cell. -/
  | crossingCloseTimeout (l : LaneId) (cell : Nat)
  /-- RLE_NREQ_WRITE (R101). -/
  | rleNreqWrite (l : LaneId) (v : Word)
  /-- VMAX_CLR (R104). -/
  | vmaxClr (l : LaneId)
  /-- RLE_BASE_WRITE (R149): `RLE_OUTBASE` when `out`, else `RLE_INBASE`. -/
  | rleBaseWrite (l : LaneId) (out : Bool) (v : Word)
  /-- RETAINED_STATE_DIGEST (R146). -/
  | retainedStateDigest (dst src : LaneId) (crc : Word)
  -- the vote
  /-- LEVEL1_FRAME (R154). -/
  | level1Frame (dst src : LaneId) (ctx : Nat) (digests : List Dword) (t : Nat)
  /-- LEVEL1_DEADLINE (R156). -/
  | level1Deadline (l : LaneId) (ctx : Nat) (t : Nat)
  /-- SEGMENT_HASH_EXCHANGE (R154). -/
  | segmentHashExchange (dst src : LaneId) (ctx block : Nat) (hashes : List Dword) (t : Nat)
  /-- SEGMENT_FETCH (R154). -/
  | segmentFetch (dst src : LaneId) (ctx seg : Nat) (bytes : List Byte) (t : Nat)
  /-- ANSWER_DEADLINE (R156). -/
  | answerDeadline (l : LaneId) (ctx : Nat) (t : Nat)
  /-- VERDICT_FRAME (R158). -/
  | verdictFrame (dst src : LaneId) (ctx : Nat) (v : Verdict) (t : Nat)
  /-- VERDICT_DEADLINE (R158). -/
  | verdictDeadline (l : LaneId) (ctx : Nat) (t : Nat)
  /-- LEAVE_RESET_ASSERT (R492). -/
  | leaveResetAssert (l : LaneId) (t : Nat)
  /-- LEAVE_NOTICE (R165): the reason and context code of the leaving peer. -/
  | leaveNotice (dst src : LaneId) (reason : Byte)
  /-- EASY_ALL_NOTICE (R178). -/
  | easyAllNotice (dst src : LaneId) (cause : Byte)
  /-- HUB_EASY_ALL_NOTICE (R178). -/
  | hubEasyAllNotice (src : LaneId) (t : Nat)
  /-- RESTRICTIVE_FINISH (R180). -/
  | restrictiveFinish (l : LaneId) (t : Nat)
  /-- VOTE_CMD_EASY (R177). -/
  | voteCmdEasy (l : LaneId)
  /-- VOTE_CMD_READMIT (R167). -/
  | voteCmdReadmit (l : LaneId)
  /-- VOTE_CMD_LEAVE (R163). -/
  | voteCmdLeave (l : LaneId)
  /-- READMIT_REQUEST (R167): at an in-vote lane, the values the requesting lane sends. -/
  | readmitRequest (dst src : LaneId) (v : PairValues)
  /-- READMIT_PAGE (R168): page index, the context that wrote it, its bytes and CRC-32C; `again` for a retransmission. -/
  | readmitPage (dst src : LaneId) (page ctx : Nat) (bytes : List Byte) (crc : Word) (again : Bool) (t : Nat)
  /-- READMIT_FULL_PASS_DONE (R169). -/
  | readmitFullPassDone (l : LaneId)
  /-- READMIT_RETRY_HOLDOFF (R171). -/
  | readmitRetryHoldoff (l : LaneId)
  /-- VOTE_CFG_WRITE (R182): the register's offset in the VOTE block. -/
  | voteCfgWrite (l : LaneId) (off : Nat) (v : Word)
  -- cross-lane links: link 0 or 1 of a lane
  /-- XL_IDLE_SEND (R160). -/
  | xlIdleSend (l : LaneId) (link : Nat) (t : Nat)
  /-- XL_FRAME (R160): sequence, body bytes and CRC-32C as received; `again` for a retransmitted frame. -/
  | xlFrame (l : LaneId) (link : Nat) (seq : Word) (body : List Byte) (crc : Word) (again : Bool) (t : Nat)
  /-- XL_LINK_TIMEOUT (R160). -/
  | xlLinkTimeout (l : LaneId) (link : Nat) (t : Nat)
  /-- XL_RETRAIN_TIMER (R160). -/
  | xlRetrainTimer (l : LaneId) (link : Nat) (t : Nat)
  /-- XL_LINK_UP (R160). -/
  | xlLinkUp (l : LaneId) (link : Nat)
  /-- XL_RETRAIN (R183). -/
  | xlRetrain (l : LaneId) (link : Nat)
  /-- XL_ERR_CLEAR (R183). -/
  | xlErrClear (l : LaneId) (link : Nat)
  -- lane processors: core 0 or 1
  /-- TRAP (R188). -/
  | trap (l : LaneId) (core : Nat) (code : Nat) (tval : Word)
  /-- TRAP_RETURN (R188). -/
  | trapReturn (l : LaneId) (core : Nat)
  /-- INTERRUPT_ENTRY (R185). -/
  | interruptEntry (l : LaneId)
  /-- SYSREG_WRITE (R188): number, direction, the general register a read goes to, the instruction word. -/
  | sysregWrite (l : LaneId) (core : Nat) (num : Nat) (acc : Access) (rd : Nat) (insn : Word)
  /-- SWI_SET (R189). -/
  | swiSet (l : LaneId)
  /-- SIGNATURE_WINDOW_CLOSE (R190): what each core retired since the window opened. -/
  | signatureWindowClose (l : LaneId) (r0 r1 : List Retired) (t : Nat)
  /-- INJECTION_TEST_START (R193). -/
  | injectionTestStart (l : LaneId)
  /-- DEBUG_HALT (R197). -/
  | debugHalt (l : LaneId)
  /-- DEBUG_RESET_REQUEST (R490): a lane, or the hub. -/
  | debugResetRequest (d : Die)
  /-- BENCH_GRANT (R199). -/
  | benchGrant (l : LaneId)
  /-- CORE1_START (R201). -/
  | core1Start (l : LaneId) (v : Word)
  /-- WDT_KICK (R202). -/
  | wdtKick (l : LaneId) (v : Word) (t : Nat)
  /-- WDT_WARNING (R202). -/
  | wdtWarning (l : LaneId) (t : Nat)
  /-- WDT_EXPIRY (R202). -/
  | wdtExpiry (l : LaneId) (t : Nat)
  /-- WDT_CFG_WRITE (R203). -/
  | wdtCfgWrite (l : LaneId) (v : Word)
  /-- LOCKUP (R204): by an exception during trap entry, or 100 µs without retirement. -/
  | lockup (l : LaneId) (inTrap : Bool) (t : Nat)
  /-- EXCLUSIVE_LOAD (R403). -/
  | exclusiveLoad (l : LaneId) (addr : Word) (t : Nat)
  /-- EXCLUSIVE_STORE (R403). -/
  | exclusiveStore (l : LaneId) (addr v : Word) (t : Nat)
  -- programs
  /-- TASK_EXCEPTION (R216). -/
  | taskException (l : LaneId) (task : Nat) (pc : Word) (code : Byte)
  /-- PROGRAM_BREAKPOINT (R220). -/
  | programBreakpoint (l : LaneId) (task : Nat) (pc : Word)
  /-- RETAIN_LIST (R223). -/
  | retainList (dst src : LaneId) (items : List RetainItem)
  /-- CARRY_MAP_DIGEST (R225): the peer's carry-map digest and result code. -/
  | carryMapDigest (dst src : LaneId) (digest : Word) (result : Nat)
  /-- PREPARE_READBACK (R225): the journal entry's 32 bytes as the lane reads them. -/
  | prepareReadback (l : LaneId) (entry : List Byte)
  /-- READY_NOTICE (R225). -/
  | readyNotice (dst src : LaneId)
  /-- ONLINE_CHANGE_SWITCH (R226). -/
  | onlineChangeSwitch (l : LaneId) (t : Nat)
  /-- COMMIT_READBACK (R225): the journal entry's 32 bytes as the lane reads them. -/
  | commitReadback (l : LaneId) (entry : List Byte)
  /-- COMMIT_TIMEOUT (R229). -/
  | commitTimeout
  -- the FIELD die and the field ports
  /-- FIELD_SAMPLE (R235). -/
  | fieldSample (m : FieldMeas) (t : Nat)
  /-- FIELD_FRAME (R237): the 64 bytes and the follower time of the last bit. -/
  | fieldFrame (l : LaneId) (bytes : List Byte) (t : Nat)
  /-- FIELD_RATE_WINDOW (R238), at a multiple of 10 ms of follower time. -/
  | fieldRateWindow (l : LaneId) (t : Nat)
  /-- FIELD_CONFIG_SEND (R239). -/
  | fieldConfigSend (l : LaneId) (t : Nat)
  /-- FIELD_CONFIG_FRAME (R239): the port and the 51 configuration words that reach the die. -/
  | fieldConfigFrame (port : LaneId) (words : List Word) (t : Nat)
  /-- COMPARATOR_DEBOUNCE (R240): input, comparator B or A, new stable value. -/
  | comparatorDebounce (k : Nat) (cmpB : Bool) (on : Bool) (t : Nat)
  /-- TEST_PULSE_GAP (R243). -/
  | testPulseGap (k : Nat) (t : Nat)
  /-- TEST_PULSE_PERIOD_END (R244): input and what the die saw of it. -/
  | testPulsePeriodEnd (k : Nat) (o : PulseObs)
  /-- CAL_REQUEST (R245): the value written to `FLDP_CAL`. -/
  | calRequest (l : LaneId) (v : Word) (t : Nat)
  /-- CALIBRATION_START (R245). -/
  | calibrationStart (ch : Nat) (t : Nat)
  /-- CALIBRATION_END (R248): whether both offsets are within ±0.5 V after trimming. -/
  | calibrationEnd (ok : Bool) (t : Nat)
  /-- OUTPUT_OFF_TEST (R252): channel; the low side of a pair when `low`. -/
  | outputOffTest (k : Nat) (low : Bool) (t : Nat)
  /-- OPEN_LOAD (R253). -/
  | openLoad (k : Nat)
  /-- OVERLOAD (R253). -/
  | overload (k : Nat)
  /-- SHORT_VF (R253). -/
  | shortVf (k : Nat)
  /-- OFF_TEST_END (R253): channel, readback ON at the end, channels whose readback dropped, low side conducted. -/
  | offTestEnd (k : Nat) (rbOn : Bool) (dropped : List Nat) (lsOn : Bool) (t : Nat)
  /-- FIELD_IMAGE_BLOCK (R466). -/
  | fieldImageBlock (port : LaneId) (idx : Nat) (bytes : List Byte)
  /-- FLDP_CFG_WRITE (R261). -/
  | fldpCfgWrite (l : LaneId) (off : Nat) (v : Word)
  /-- FIELD_UNDERVOLTAGE (R574). -/
  | fieldUndervoltage
  /-- FIELD_BROWN_OUT (R574). -/
  | fieldBrownOut
  /-- FIELD_POWER_ON (R574). -/
  | fieldPowerOn (t : Nat)
  /-- FIELD_OVERTEMP (R541). -/
  | fieldOvertemp
  /-- FIELD_SLEEP (R513). -/
  | fieldSleep (t : Nat)
  /-- DISCREPANCY_TIMEOUT (R268): a library block of the lane's program. -/
  | discrepancyTimeout (l : LaneId) (blk : Nat) (tn : Nat)
  -- rings
  /-- CYCLE_START (R294). -/
  | cycleStart (k : Nat) (t : Nat)
  /-- CYCLE_START_FRAME (R302): ring, whether at the east port, the frame's bytes between its delimiters. -/
  | cycleStartFrame (k : Nat) (east : Bool) (frame : List Byte) (t : Nat)
  /-- DOWNLINK_SLOT (R299). -/
  | downlinkSlot (k slot : Nat) (t : Nat)
  /-- UPLINK_FRAME (R299): ring, whether at the east port, its start after the cycle-start frame's arrival in 8 ns units, its bytes. -/
  | uplinkFrame (k : Nat) (east : Bool) (pos : Nat) (frame : List Byte) (t : Nat)
  /-- DELAY_MEASUREMENT (R287): round trip in ns. -/
  | delayMeasurement (k : Nat) (east : Bool) (roundTrip : Nat)
  /-- NODE_ABSENT (R298). -/
  | nodeAbsent (k node : Nat)
  /-- RING_LISTEN_TIMEOUT (R301). -/
  | ringListenTimeout (k : Nat) (t : Nat)
  /-- RING_ENABLE (R315): the value written to `RING_CTRLk`. -/
  | ringEnable (k : Nat) (v : Word) (t : Nat)
  /-- RATING_CHECK (R293). -/
  | ratingCheck
  /-- RATING_CHECK_DONE (R293). -/
  | ratingCheckDone
  /-- RING_CMD_ANNOUNCE (R306). -/
  | ringCmdAnnounce (k rating : Nat)
  /-- RING_CMD_CANCEL (R309). -/
  | ringCmdCancel (k : Nat)
  /-- RING_CMD_RESTART (R304). -/
  | ringCmdRestart (k : Nat) (t : Nat)
  /-- ANNOUNCE_TARGET (R307). -/
  | announceTarget (k : Nat)
  /-- LOSS_OF_SIGNAL (R310). -/
  | lossOfSignal (k : Nat) (east : Bool)
  /-- REMOTE_FAULT (R310). -/
  | remoteFault (k : Nat) (east : Bool)
  /-- RING_WRAP (R311). -/
  | ringWrap (k : Nat) (east : Bool)
  /-- UNWRAP_ANNOUNCE (R313). -/
  | unwrapAnnounce (k : Nat)
  /-- RING_ERR_CLEAR (R6). -/
  | ringErrClear (k : Nat) (v : Word)
  -- Eweax Safe Transport: connection index
  /-- SUPERVISION_TIMEOUT (R337). -/
  | supervisionTimeout (l : LaneId) (conn : Nat) (tn : Nat)
  /-- CORRUPTION_CLOSE (R338). -/
  | corruptionClose (l : LaneId) (conn : Nat) (tn : Nat)
  /-- CORRUPTION_DECAY (R338). -/
  | corruptionDecay (l : LaneId) (conn : Nat) (tn : Nat)
  /-- HOLDOFF_EXPIRY (R330). -/
  | holdoffExpiry (l : LaneId) (conn : Nat) (tn : Nat)
  /-- RESPONDED_TIMEOUT (R333). -/
  | respondedTimeout (l : LaneId) (conn : Nat) (tn : Nat)
  /-- SIGN_ENGINE_CHECK (R325). -/
  | signEngineCheck (l : LaneId) (conn : Nat) (tlg : List Byte)
  /-- TELEGRAM_ASSEMBLY (R175). -/
  | telegramAssembly (t : Nat)
  /-- ETHERNET_FRAME (R329). -/
  | ethernetFrame (port : Nat) (bytes : List Byte) (t : Nat)
  -- partner links
  /-- HEARTBEAT_SEND (R342). -/
  | heartbeatSend (t : Nat)
  /-- HEARTBEAT (R343): link, the frame's bytes; what the far module's values of R363 and its partner protocol version are. -/
  | heartbeat (link : Nat) (frame : List Byte) (vals : PairValues) (ver : Nat) (t : Nat)
  /-- YIELD (R353). -/
  | yieldFrame (link : Nat) (frame : List Byte) (t : Nat)
  /-- FWD_LIST (R347). -/
  | fwdList (link : Nat) (frame : List Byte) (t : Nat)
  /-- FWD_TLG (R347). -/
  | fwdTlg (link : Nat) (frame : List Byte) (t : Nat)
  /-- PARTNER_EST (R342). -/
  | partnerEst (link : Nat) (frame : List Byte) (t : Nat)
  /-- PAGE (R364). -/
  | page (link : Nat) (frame : List Byte)
  /-- FWD_IMG (R458). -/
  | fwdImg (link : Nat) (frame : List Byte)
  /-- FWD_ACK (R458). -/
  | fwdAck (link : Nat) (frame : List Byte)
  /-- PAIR_START_TIMEOUT (R344). -/
  | pairStartTimeout (t : Nat)
  /-- HEARTBEAT_LOSS (R353). -/
  | heartbeatLoss (t : Nat)
  /-- TAKEOVER (R353). -/
  | takeover (t : Nat)
  /-- PTNR_CNT_CLEAR (R6). -/
  | ptnrCntClear (v : Word)
  -- the host interface
  /-- SQ_DOORBELL (R377): queue and the value written. -/
  | sqDoorbell (q slot : Nat) (t : Nat)
  /-- CQ_HEAD_WRITE (R374). -/
  | cqHeadWrite (q : Nat) (v : Word)
  /-- COMMAND_DISPATCH (R379). -/
  | commandDispatch (t : Nat)
  /-- COMMAND_COMPLETION (R374). -/
  | commandCompletion (r : CmdRef)
  /-- HUB_RETRY_EXHAUSTED (R385). -/
  | hubRetryExhausted (r : CmdRef) (t : Nat)
  /-- HOST_INTERFACE_RESET (R367). -/
  | hostInterfaceReset
  /-- SPI_TRANSACTION (R368): the bytes between the edges of `HSPI_CS_N`. -/
  | spiTransaction (bytes : List Byte)
  /-- HOST_WINDOW_ACCESS (R369): BAR2 offset; `clash` as for MAILBOX_ACCESS, with the access of port 0 (R430). -/
  | hostWindowAccess (off : Nat) (w : Width) (acc : Access) (clash : Option (Bool × Access)) (t : Nat)
  /-- HCMD_DEVRST (R387): the value written to `HCMD_CTRL`. -/
  | hcmdDevrst (v : Word)
  /-- HCMD_PWRCYC (R387): the value written to `HCMD_CTRL`. -/
  | hcmdPwrcyc (v : Word) (t : Nat)
  -- host commands: the active command and its parameters in the order of R383
  /-- IDENTIFY (R383). -/
  | identify (r : CmdRef)
  /-- STATUS (R383). -/
  | status (r : CmdRef)
  /-- RESUME_TARGET (R381). -/
  | resumeTarget (r : CmdRef)
  /-- BENCH_AUTH (R199): lane mask and token. -/
  | benchAuth (r : CmdRef) (mask : BitVec 3) (token : List Byte)
  /-- START (R48). -/
  | start (r : CmdRef)
  /-- LANE_STATUS (R383). -/
  | laneStatus (r : CmdRef) (l : LaneId)
  /-- LANE_RESET (R383). -/
  | laneReset (r : CmdRef) (l : LaneId)
  /-- SETTINGS_READ (R383): section as an offset of the area in force, offset. -/
  | settingsRead (r : CmdRef) (sect off : Nat)
  /-- SETTINGS_WRITE (R470). -/
  | settingsWrite (r : CmdRef) (sect off : Nat) (bytes : List Byte)
  /-- SETTINGS_COMMIT (R470). -/
  | settingsCommit (r : CmdRef) (crc : Word)
  /-- KEY_SWITCH (R326). -/
  | keySwitch (r : CmdRef) (conn slot : Nat)
  /-- STATION_INFO (R383). -/
  | stationInfo (r : CmdRef)
  /-- KEY_LOAD (R326). -/
  | keyLoad (r : CmdRef) (conn : Nat)
  /-- TLG_SUBMIT (R365). -/
  | tlgSubmit (r : CmdRef) (conn : Nat) (tlg : List Byte) (t : Nat)
  /-- TLG_RECEIVE (R383). -/
  | tlgReceive (r : CmdRef) (conn : Nat)
  /-- CONN_CLOSE (R334). -/
  | connClose (r : CmdRef) (conn : Nat)
  /-- CONN_STATUS (R383). -/
  | connStatus (r : CmdRef) (conn : Nat)
  /-- PRG_START (R218). -/
  | prgStart (r : CmdRef)
  /-- PRG_STOP (R218). -/
  | prgStop (r : CmdRef)
  /-- PRG_CONTINUE (R220). -/
  | prgContinue (r : CmdRef)
  /-- PRG_CHANGE (R225): section bytes and signature block. -/
  | prgChange (r : CmdRef) (section_ sig : List Byte)
  /-- FORCE_SET (R231). -/
  | forceSet (r : CmdRef) (vid : Word) (val : List Byte)
  /-- FORCE_CLEAR (R231). -/
  | forceClear (r : CmdRef) (vid : Word)
  /-- COMMISSION_SET (R233). -/
  | commissionSet (r : CmdRef) (mask : Half) (conns : List Nat)
  /-- BREAK_SET (R220). -/
  | breakSet (r : CmdRef) (task : Nat) (addr : Word)
  /-- BREAK_CLEAR (R220). -/
  | breakClear (r : CmdRef) (task : Nat)
  /-- PRG_STATUS (R383). -/
  | prgStatus (r : CmdRef)
  /-- REC_READ (R444). -/
  | recRead (r : CmdRef) (first : Word) (count : Nat)
  /-- REC_HEAD (R383). -/
  | recHead (r : CmdRef)
  /-- UPD_BEGIN (R456): slot, length, block 0 (its header). -/
  | updBegin (r : CmdRef) (slot len : Nat) (block : List Byte)
  /-- UPD_BLOCK (R456). -/
  | updBlock (r : CmdRef) (idx : Nat) (block : List Byte)
  /-- UPD_VERIFY (R459). -/
  | updVerify (r : CmdRef) (slot : Nat)
  /-- UPD_ACTIVATE (R465). -/
  | updActivate (r : CmdRef) (slot : Nat)
  /-- UPD_CONFIRM (R468). -/
  | updConfirm (r : CmdRef)
  /-- UPD_STATUS (R457). -/
  | updStatus (r : CmdRef) (slot : Nat)
  /-- UPD_FORWARD (R458). -/
  | updForward (r : CmdRef) (link : Nat)
  /-- RING_ANNOUNCE (R306). -/
  | ringAnnounce (r : CmdRef) (k rating : Nat)
  /-- RING_CANCEL (R309). -/
  | ringCancel (r : CmdRef) (k : Nat)
  /-- RING_RESTART (R304). -/
  | ringRestart (r : CmdRef) (k : Nat) (t : Nat)
  /-- RING_STATUS (R383). -/
  | ringStatus (r : CmdRef) (k : Nat)
  /-- PAIR_YIELD (R351). -/
  | pairYield (r : CmdRef)
  /-- PAIR_STATUS (R383). -/
  | pairStatus (r : CmdRef)
  /-- FIELD_CAL (R245). -/
  | fieldCal (r : CmdRef) (ch : Nat)
  /-- FIELD_SNAPSHOT (R383). -/
  | fieldSnapshot (r : CmdRef)
  /-- EASY_ALL (R178). -/
  | easyAll (r : CmdRef)
  /-- MODULE_RESET (R383). -/
  | moduleReset (r : CmdRef) (kind : Nat)
  /-- MODULE_RESET_ASSERT (R383). -/
  | moduleResetAssert (t : Nat)
  /-- HIBERNATE (R512). -/
  | hibernate (r : CmdRef) (mask : Byte) (t : Nat)
  /-- FUNC_REINIT (R386). -/
  | funcReinit (r : CmdRef) (block : Byte) (t : Nat)
  /-- BIST_RESULTS (R523). -/
  | bistResults (r : CmdRef)
  /-- BIST_FULL_NEXT (R522). -/
  | bistFullNext (r : CmdRef)
  -- lane bridges
  /-- BRIDGE_READ (R390). -/
  | bridgeRead (l : LaneId) (addr : Word) (w : Width) (t : Nat)
  /-- BRIDGE_READ_RESPONSE (R390): tag, error code 0 or of R399, corrected or uncorrectable data told by the code. -/
  | bridgeReadResponse (l : LaneId) (tag : Nat) (err : Nat) (t : Nat)
  /-- BRIDGE_READ_TIMEOUT (R391). -/
  | bridgeReadTimeout (l : LaneId) (tag : Nat) (t : Nat)
  /-- BRIDGE_READ_BUDGET (R391). -/
  | bridgeReadBudget (l : LaneId) (tag : Nat) (t : Nat)
  /-- TAG_QUARANTINE_END (R392). -/
  | tagQuarantineEnd (l : LaneId) (tag : Nat) (t : Nat)
  /-- BRIDGE_WRITE (R396). -/
  | bridgeWrite (l : LaneId) (addr : Word) (w : Width) (v : Word) (t : Nat)
  /-- BRIDGE_WRITE_ACK (R396): the oldest unacknowledged write of a window; error code 0 for an acknowledgement. -/
  | bridgeWriteAck (l : LaneId) (win : Nat) (err : Nat)
  /-- BRIDGE_WRITE_TIMEOUT (R396). -/
  | bridgeWriteTimeout (l : LaneId) (win : Nat) (t : Nat)
  /-- HUB_EXPORT_READ (R389). -/
  | hubExportRead (l : LaneId) (addr : Word)
  /-- HUB_LANE_WRITE (R389). -/
  | hubLaneWrite (l : LaneId) (addr v : Word)
  /-- BRG_RESUME (R398): the written value and the streams that fail in the same clock. -/
  | brgResume (l : LaneId) (v : Word) (failing : BitVec 8)
  /-- BRG_EQ_POP (R399). -/
  | brgEqPop (l : LaneId)
  /-- BRG_MSG (R401). -/
  | brgMsg (l : LaneId) (v : Word)
  /-- LANE_MESSAGE_DELIVERY (R401). -/
  | laneMessageDelivery (l : LaneId)
  /-- HUB_MESSAGE (R400). -/
  | hubMessage (l : LaneId) (v : Word)
  /-- BRG_HMSG_POP (R400). -/
  | brgHmsgPop (l : LaneId)
  /-- SEM_TAKE (R402): by the lane, by the hub. -/
  | semTake (l : LaneId) (n : Nat) (byLane byHub : Bool)
  /-- SEM_GIVE (R402): by the hub, or by the lane. -/
  | semGive (l : LaneId) (n : Nat) (byHub : Bool)
  /-- BRG_CFG_WRITE (R405). -/
  | brgCfgWrite (l : LaneId) (off : Nat) (v : Word)
  /-- BRG_CNT_CLEAR (R6). -/
  | brgCntClear (l : LaneId) (v : Word)
  -- the signal gateway
  /-- SGW_LOAD (R412). -/
  | sgwLoad
  /-- CAN_FRAME (R413). -/
  | canFrame (port : Nat) (ide : Bool) (id : Word) (remote : Bool) (data : List Byte) (err : Bool)
  /-- SGW_DESTINATION_SEND (R413). -/
  | sgwDestinationSend (d : Nat) (t : Nat)
  /-- SGW_SILENCE_TIMEOUT (R413). -/
  | sgwSilenceTimeout (d : Nat) (t : Nat)
  /-- BUS_OFF_RECOVERY (R407). -/
  | busOffRecovery (port : Nat)
  /-- SGW_CANCNT_CLEAR (R6). -/
  | sgwCancntClear (port : Nat) (v : Word)
  -- memories, recorder, check values
  /-- SCRUB_READ (R419): lane SRAM or hub SRAM; bits in error at the word read. -/
  | scrubRead (m : Master) (nerr : Nat)
  /-- MAILBOX_ACCESS (R427): the mailbox, by its lane or the hub; `clash` when the other port's access overlaps and began earlier
  (`some false`) or later (`some true`), with the other port's access; bits in error in the word read. -/
  | mailboxAccess (mbx : LaneId) (byHub : Bool) (off : Nat) (w : Width) (acc : Access) (clash : Option (Bool × Access)) (nerr : Nat)
  /-- RECORD_SUBMISSION (R437). -/
  | recordSubmission
  /-- GAP_DROPPED (R437). -/
  | gapDropped (t : Nat)
  /-- CRC_START (R447): the unit by master (`host` stands for the hub's second unit), requester, the value written to `CRC_CTRL`. -/
  | crcStart (m : Master) (req : Nat) (v : Word)
  /-- CRC_DATA_WRITE (R446). -/
  | crcDataWrite (m : Master) (req : Nat) (w : Width) (v : Word)
  /-- LOADER_FRAME (R473): by UART or Ethernet; command tag, fragment index and count, bytes, CRC. -/
  | loaderFrame (uart : Bool) (tag : Half) (idx cnt : Nat) (bytes : List Byte) (crc : Word)
  /-- ROLLING_STEP (R466). -/
  | rollingStep (t : Nat)
  /-- ROLLING_STEP_TIMEOUT (R467). -/
  | rollingStepTimeout
  /-- HUB_READY_TIMEOUT (R467). -/
  | hubReadyTimeout (t : Nat)
  /-- HOLD_SENSE_SAMPLE (R476): ADC code. -/
  | holdSenseSample (code : Nat) (t : Nat)
  /-- DROOP_CHECK (R477): the rise time in µs. -/
  | droopCheck (us : Nat)
  /-- GATED_WRITE_RETRY (R479). -/
  | gatedWriteRetry (t : Nat)
  -- clocks, resets and power
  /-- CLOCK_MONITOR_WINDOW (R485): die and counts of its own reference and, in the hub, of XT. -/
  | clockMonitorWindow (m : Master) (cnt xt : Nat) (t : Nat)
  /-- CRYSTAL_STOP (R485): die; XT when `xt`. -/
  | crystalStop (m : Master) (xt : Bool) (t : Nat)
  /-- PLL_UNLOCK (R496): die; XT SerDes PLL when `sd`; whether within the 1,024 cycles after release. -/
  | pllUnlock (m : Master) (sd : Bool) (early : Bool) (t : Nat)
  /-- XT_RECOVERY (R487): the time loaded. -/
  | xtRecovery (t : Nat)
  /-- AON_CLOCK_FAIL (R488). -/
  | aonClockFail
  /-- RESET_N_ASSERT (R491). -/
  | resetNAssert (t : Nat)
  /-- RESET_N_RELEASE (R491). -/
  | resetNRelease (t : Nat)
  /-- POWER_ON_RESET (R490): the die; `aon` when the AON domain powers on. -/
  | powerOnReset (d : Die) (aon : Bool) (t : Nat)
  /-- BROWN_OUT (R490): the die and the rail code of `BORRAIL`. -/
  | brownOut (d : Die) (rail : Nat) (t : Nat)
  /-- RSTC_SWR (R490): the value written in a lane or the hub. -/
  | rstcSwr (m : Master) (v : Word) (t : Nat)
  /-- TRIM_LOAD_DONE (R497). -/
  | trimLoadDone (d : Die) (ok : Bool)
  /-- RESET_RELEASE (R495): the die, straps sampled, PLL lock and reference count passed. -/
  | resetRelease (d : Die) (strap : Bool) (t : Nat)
  /-- BLOCK_RESET (R500): the code written to `RSTC_BRST`. -/
  | blockReset (v : Word) (t : Nat)
  /-- BLOCK_IDLE_ACK (R500). -/
  | blockIdleAck (t : Nat)
  /-- BLOCK_IDLE_TIMEOUT (R500). -/
  | blockIdleTimeout (t : Nat)
  /-- SUPPLY_OUT_OF_RANGE (R509): die and rail code: 0 core, 1 `VDDIO`, 2 `VDDA_PLL`, 3 `VDD_SD`. -/
  | supplyOutOfRange (m : Master) (rail : Nat) (t : Nat)
  /-- SUPPLY_SETTLED (R510). -/
  | supplySettled (l : LaneId) (t : Nat)
  /-- PMBUS_REQUEST (R507): regulator of a lane or the hub (`VDD_SD`). -/
  | pmbusRequest (m : Master) (t : Nat)
  /-- PMBUS_ACK (R507): power-good level and STATUS_WORD. -/
  | pmbusAck (m : Master) (pg : Bool) (statusWord : Half) (pec : Bool) (t : Nat)
  /-- PMBUS_ACK_TIMEOUT (R507). -/
  | pmbusAckTimeout (m : Master) (t : Nat)
  /-- PWRC_VSET_WRITE (R508). -/
  | pwrcVsetWrite (l : LaneId) (v : Word)
  /-- HIBERNATE_ENTRY_STEP (R513). -/
  | hibernateEntryStep (pg : BitVec 4) (t : Nat)
  /-- WAKE_EVENT (R514): the sources, coded as mask bits 0 to 3. -/
  | wakeEvent (src : BitVec 4) (t : Nat)
  /-- WAKE_SEQUENCE_STEP (R514). -/
  | wakeSequenceStep (t : Nat)
  /-- BIST_DONE (R522): a lane or the hub, the kind of result set, its records of 16 bytes, the coverage, logic and spare verdicts. -/
  | bistDone (m : Master) (kind : Nat) (records : List (List Byte)) (cov : Nat) (lfail unrep : Bool) (upset : List Host.Cell) (rtc : Nat)
  /-- HUB_TEMP_ALARM (R541): passing 120 °C, or falling below 110 °C. -/
  | hubTempAlarm (high : Bool)
  /-- FWD_ACK_SEND (R458). -/
  | fwdAckSend (t : Nat)
  /-- FIELD_UNDERVOLTAGE_END (R574). -/
  | fieldUndervoltageEnd
  /-- FIELD_OVERTEMP_END (R541). -/
  | fieldOvertempEnd
  /-- TEST_PULSE_GAP_END (R243). -/
  | testPulseGapEnd (k : Nat) (t : Nat)
  /-- OVERLOAD_RELEASE (R253). -/
  | overloadRelease (k : Nat) (t : Nat)
  /-- HBUSY_N_RELEASE (R430). -/
  | hbusyNRelease (t : Nat)
  /-- PWRCYC_PULSE_END (R387). -/
  | pwrcycPulseEnd (t : Nat)
  /-- HUB_WATCHDOG_EXPIRY (R490). -/
  | hubWatchdogExpiry
  /-- HUB_LOCKUP (R490). -/
  | hubLockup
  /-- REC_CHUNK_WRITTEN (R441). -/
  | recChunkWritten
  /-- CAN_FRAME_SENT (R414). -/
  | canFrameSent (port : Nat) (err : Bool)
  /-- HUB_VDDIO_RESTORED (R509). -/
  | hubVddioRestored
  /-- SIGNAL_RESTORED (R313). -/
  | signalRestored (k : Nat) (east : Bool)
  deriving DecidableEq, Repr

end Sys2Proof
end

