-- ==== Sys2Proof/Decode.lean ====
section
/-! DEFINITION. The command a word spells. spec/opcode_table.json gives no row any bits (its commands carry their operands apart from any
encoding), so no word spells one. -/

namespace Sys2Proof

/-- No row of the table has bits: every word is answered with none. -/
def decodeTableWord (_nbits _w : Nat) : Option Instr := none

end Sys2Proof
end

