-- ==== Sys2Proof/Machine/RegTypes.lean ====
section
/-! DEFINITION. The shapes the register tables and the sparse stores of the state are written in. -/

namespace Sys2Proof.Machine

/-- A field of a register: the register's address, its lowest bit, its width. -/
structure Fld where
  addr : Nat
  lo   : Nat
  w    : Nat
  deriving DecidableEq, Repr

/-- One register, or an array of `count` registers `stride` bytes apart (Address Map). `rw` and `w1c` mask the RW and RW1C fields
(R6), `reset` is the value after a cold reset (R8), `keep` masks the fields that keep their value through a warm reset. -/
structure RegDesc where
  name   : String
  base   : Nat
  stride : Nat
  count  : Nat
  rw     : Nat
  w1c    : Nat
  reset  : Nat
  keep   : Nat
  deriving DecidableEq, Repr

/-- A sparse store: keys strictly rising, no entry equal to what an unlisted key reads as. -/
abbrev Sparse (α : Type) := List (Nat × α)

/-- One cell of the RLE (R75): its 64-bit state word, 128-bit configuration word, and 64 link bits, port P0 lowest. -/
structure CellRec where
  st  : BitVec 64
  cfg : BitVec 128
  lnk : BitVec 64
  deriving DecidableEq, Repr

end Sys2Proof.Machine
end

