-- ==== Sys2Proof/Machine/Bits.lean ====
section
/-! DEFINITION. Fields of words, byte order, sign extension, saturating counts. -/

namespace Sys2Proof.Machine

/-- The `w`-bit field of `x` whose lowest bit is `lo` (Numbers and units). -/
def getField (x lo w : Nat) : Nat := (x >>> lo) % 2 ^ w

/-- `x` with its `w`-bit field at `lo` replaced by the low `w` bits of `v`. -/
def setField (x lo w v : Nat) : Nat :=
  (x >>> (lo + w)) <<< (lo + w) + (v % 2 ^ w) <<< lo + x % 2 ^ lo

/-- A field of a bit vector. -/
def bvField {n : Nat} (x : BitVec n) (lo w : Nat) : Nat := getField x.toNat lo w

/-- A bit vector with a field replaced. -/
def bvSet {n : Nat} (x : BitVec n) (lo w v : Nat) : BitVec n := BitVec.ofNat n (setField x.toNat lo w v)

/-- One bit of a word as a truth value. -/
def bitOf {n : Nat} (x : BitVec n) (k : Nat) : Bool := x.getLsbD k

/-- 1 for true. -/
def b2n (b : Bool) : Nat := if b then 1 else 0

/-- `x + 1`, stopping at `m` (the saturating counts of the register tables). -/
def satInc (m x : Nat) : Nat := if x < m then x + 1 else m

/-- `x + n`, stopping at `m`. -/
def satAdd (m x n : Nat) : Nat := if x + n < m then x + n else m

/-- Two's-complement value of the low `w` bits of `x`. -/
def signedOf (w x : Nat) : Int :=
  let y := x % 2 ^ w
  if y < 2 ^ (w - 1) then (y : Int) else (y : Int) - (2 ^ w : Nat)

/-- The low `w` bits of an integer. -/
def wrapInt (w : Nat) (i : Int) : Nat := (i % (2 ^ w : Nat)).toNat

/-- The signed 32-bit difference `a - b` modulo 2^32 (R259, R443). -/
def sdiff32 (a b : Nat) : Int := signedOf 32 (wrapInt 32 ((a : Int) - b))

/-- `n` bytes of `x`, least significant first (R5). -/
def leBytes : Nat → Nat → List Byte
  | 0, _ => []
  | n + 1, x => BitVec.ofNat 8 x :: leBytes n (x / 256)

/-- `n` bytes of `x`, most significant first (R11). -/
def beBytes (n x : Nat) : List Byte := (leBytes n x).reverse

/-- The number whose bytes, least significant first, are `bs`. -/
def ofLe : List Byte → Nat
  | [] => 0
  | b :: bs => b.toNat + 256 * ofLe bs

/-- The number whose bytes, most significant first, are `bs` (R11). -/
def ofBe (bs : List Byte) : Nat := ofLe bs.reverse

/-- `n` bytes of a list from offset `o`, big-endian. -/
def beAt (bs : List Byte) (o n : Nat) : Nat := ofBe ((bs.drop o).take n)

/-- `n` bytes of a list from offset `o`, little-endian. -/
def leAt (bs : List Byte) (o n : Nat) : Nat := ofLe ((bs.drop o).take n)

/-- `n` zero bytes. -/
def zeros (n : Nat) : List Byte := List.replicate n 0#8

/-- `bs` padded with zero bytes to `n` bytes, or cut to `n`. -/
def padTo (n : Nat) (bs : List Byte) : List Byte := bs.take n ++ zeros (n - bs.length)

/-- Replace element `k` of a list; a shorter list is left alone. -/
def listSet {α : Type} : List α → Nat → α → List α
  | [], _, _ => []
  | _ :: xs, 0, v => v :: xs
  | x :: xs, k + 1, v => x :: listSet xs k v

/-- Apply `f` to element `k` of a list. -/
def listMod {α : Type} : List α → Nat → (α → α) → List α
  | [], _, _ => []
  | x :: xs, 0, f => f x :: xs
  | x :: xs, k + 1, f => x :: listMod xs k f

/-- The numbers 0 to n - 1. -/
def upTo (n : Nat) : List Nat := List.range n

/-- Set intersection of lists without repeats. -/
def interL {α : Type} [DecidableEq α] (xs ys : List α) : List α := xs.filter fun x => ys.contains x

/-- Insert into a list without repeats. -/
def insertL {α : Type} [DecidableEq α] (x : α) (xs : List α) : List α := if xs.contains x then xs else xs ++ [x]

/-- Remove every occurrence. -/
def removeL {α : Type} [DecidableEq α] (x : α) (xs : List α) : List α := xs.filter fun y => y ≠ x

/-- Insertion into a list sorted by `le`, after equal elements. -/
def insertBy {α : Type} (le : α → α → Bool) (x : α) : List α → List α
  | [] => [x]
  | y :: ys => if le y x then y :: insertBy le x ys else x :: y :: ys

/-- Stable insertion sort. -/
def sortBy {α : Type} (le : α → α → Bool) (xs : List α) : List α := xs.foldl (fun acc x => insertBy le x acc) []

/-- Lowest number of a list, or 0 for none (R114). -/
def minOr0 : List Nat → Nat
  | [] => 0
  | x :: xs => xs.foldl Nat.min x

/-- All ones of width `w`. -/
def ones (w : Nat) : Nat := 2 ^ w - 1

end Sys2Proof.Machine
end

