-- ==== Sys2Proof/Machine/Crypto.lean ====
section
/-! DEFINITION. The standards the manual names and does not restate: AES-128 (FIPS 197) and CMAC (NIST SP 800-38B) for telegram tags and
self-test records (R323, R523), SHA-384 (FIPS 180-4) and the verification of ECDSA P-384 (FIPS 186-5) for images (R452 to R454). Their
contents are PRESUMED from the standards (Assumption 5). -/

namespace Sys2Proof.Machine

/-! ### AES-128 -/

/-- The substitution box, by high and low digit. -/
def aesBox : List (List Nat) :=
 [
  [0x63, 0x7C, 0x77, 0x7B, 0xF2, 0x6B, 0x6F, 0xC5, 0x30, 0x01, 0x67, 0x2B, 0xFE, 0xD7, 0xAB, 0x76],
  [0xCA, 0x82, 0xC9, 0x7D, 0xFA, 0x59, 0x47, 0xF0, 0xAD, 0xD4, 0xA2, 0xAF, 0x9C, 0xA4, 0x72, 0xC0],
  [0xB7, 0xFD, 0x93, 0x26, 0x36, 0x3F, 0xF7, 0xCC, 0x34, 0xA5, 0xE5, 0xF1, 0x71, 0xD8, 0x31, 0x15],
  [0x04, 0xC7, 0x23, 0xC3, 0x18, 0x96, 0x05, 0x9A, 0x07, 0x12, 0x80, 0xE2, 0xEB, 0x27, 0xB2, 0x75],
  [0x09, 0x83, 0x2C, 0x1A, 0x1B, 0x6E, 0x5A, 0xA0, 0x52, 0x3B, 0xD6, 0xB3, 0x29, 0xE3, 0x2F, 0x84],
  [0x53, 0xD1, 0x00, 0xED, 0x20, 0xFC, 0xB1, 0x5B, 0x6A, 0xCB, 0xBE, 0x39, 0x4A, 0x4C, 0x58, 0xCF],
  [0xD0, 0xEF, 0xAA, 0xFB, 0x43, 0x4D, 0x33, 0x85, 0x45, 0xF9, 0x02, 0x7F, 0x50, 0x3C, 0x9F, 0xA8],
  [0x51, 0xA3, 0x40, 0x8F, 0x92, 0x9D, 0x38, 0xF5, 0xBC, 0xB6, 0xDA, 0x21, 0x10, 0xFF, 0xF3, 0xD2],
  [0xCD, 0x0C, 0x13, 0xEC, 0x5F, 0x97, 0x44, 0x17, 0xC4, 0xA7, 0x7E, 0x3D, 0x64, 0x5D, 0x19, 0x73],
  [0x60, 0x81, 0x4F, 0xDC, 0x22, 0x2A, 0x90, 0x88, 0x46, 0xEE, 0xB8, 0x14, 0xDE, 0x5E, 0x0B, 0xDB],
  [0xE0, 0x32, 0x3A, 0x0A, 0x49, 0x06, 0x24, 0x5C, 0xC2, 0xD3, 0xAC, 0x62, 0x91, 0x95, 0xE4, 0x79],
  [0xE7, 0xC8, 0x37, 0x6D, 0x8D, 0xD5, 0x4E, 0xA9, 0x6C, 0x56, 0xF4, 0xEA, 0x65, 0x7A, 0xAE, 0x08],
  [0xBA, 0x78, 0x25, 0x2E, 0x1C, 0xA6, 0xB4, 0xC6, 0xE8, 0xDD, 0x74, 0x1F, 0x4B, 0xBD, 0x8B, 0x8A],
  [0x70, 0x3E, 0xB5, 0x66, 0x48, 0x03, 0xF6, 0x0E, 0x61, 0x35, 0x57, 0xB9, 0x86, 0xC1, 0x1D, 0x9E],
  [0xE1, 0xF8, 0x98, 0x11, 0x69, 0xD9, 0x8E, 0x94, 0x9B, 0x1E, 0x87, 0xE9, 0xCE, 0x55, 0x28, 0xDF],
  [0x8C, 0xA1, 0x89, 0x0D, 0xBF, 0xE6, 0x42, 0x68, 0x41, 0x99, 0x2D, 0x0F, 0xB0, 0x54, 0xBB, 0x16]]

/-- One byte substituted. -/
def aesSub (x : Nat) : Nat := (aesBox.getD (x / 16) []).getD (x % 16) 0

/-- A byte times x in the field of AES. -/
def aesTwice (x : Nat) : Nat := if x < 128 then 2 * x else (2 * x) ^^^ 0x11B

/-- One column mixed: byte `i` becomes 2·a(i) + 3·a(i+1) + a(i+2) + a(i+3). -/
def aesMix (c : List Nat) : List Nat :=
  let a := c.getD 0 0
  let b := c.getD 1 0
  let d := c.getD 2 0
  let e := c.getD 3 0
  let all := a ^^^ b ^^^ d ^^^ e
  [a ^^^ all ^^^ aesTwice (a ^^^ b), b ^^^ all ^^^ aesTwice (b ^^^ d), d ^^^ all ^^^ aesTwice (d ^^^ e), e ^^^ all ^^^ aesTwice (e ^^^ a)]

/-- Bytewise sum. -/
def xorNats (a b : List Nat) : List Nat := List.zipWith (· ^^^ ·) a b

/-- Bytes substituted and rows shifted, the state held column by column. -/
def aesShift (s : List Nat) : List Nat := (upTo 16).map fun i => aesSub (s.getD ((i + 4 * (i % 4)) % 16) 0)

/-- The four columns of a state mixed. -/
def aesMixAll (s : List Nat) : List Nat := (upTo 4).flatMap fun c => aesMix ((s.drop (4 * c)).take 4)

/-- The next round key from the one before and the round constant. -/
def aesNextKey (k : List Nat) (rc : Nat) : List Nat :=
  let last := k.drop 12
  let g := xorNats ((last.drop 1 ++ last.take 1).map aesSub) [rc, 0, 0, 0]
  let w0 := xorNats (k.take 4) g
  let w1 := xorNats ((k.drop 4).take 4) w0
  let w2 := xorNats ((k.drop 8).take 4) w1
  w0 ++ w1 ++ w2 ++ xorNats last w2

/-- The rounds still to run, with the round constant of the next key; the last round mixes no columns. -/
def aesRounds : Nat → List Nat → List Nat → Nat → List Nat
  | 0, s, _, _ => s
  | n + 1, s, k, rc =>
    let k' := aesNextKey k rc
    let t := aesShift s
    aesRounds n (xorNats (if n = 0 then t else aesMixAll t) k') k' (aesTwice rc)

/-- One block under a key. -/
def aesBlock (key block : List Nat) : List Nat := aesRounds 10 (xorNats block key) key 1

/-- A number as 16 bytes, the most significant first. -/
def bytes16 (x : Nat) : List Nat := (beBytes 16 x).map (·.toNat)

/-- The number 16 bytes spell. -/
def nat16 (bs : List Nat) : Nat := bs.foldl (fun n b => 256 * n + b) 0

/-- A CMAC subkey from the value before it. -/
def cmacTwice (x : Nat) : Nat := if x < 2 ^ 127 then 2 * x else ((2 * x) % 2 ^ 128) ^^^ 0x87

/-- The chaining of CMAC over full blocks, the last one masked by a subkey. -/
def cmacChain (key : List Nat) (k1 k2 : Nat) : Nat → List Nat → List Nat → List Nat
  | 0, x, _ => x
  | n + 1, x, m =>
    if n = 0 then
      let last := if m.length = 16 then xorNats m (bytes16 k1) else xorNats (m ++ 0x80 :: List.replicate (15 - m.length) 0) (bytes16 k2)
      aesBlock key (xorNats x last)
    else cmacChain key k1 k2 n (aesBlock key (xorNats x (m.take 16))) (m.drop 16)

/-- AES-128-CMAC of a message (R323). -/
def cmac (key : BitVec 128) (msg : List Byte) : BitVec 128 :=
  let k := bytes16 key.toNat
  let k1 := cmacTwice (nat16 (aesBlock k (List.replicate 16 0)))
  BitVec.ofNat 128 (nat16 (cmacChain k k1 (cmacTwice k1) (max 1 ((msg.length + 15) / 16)) (List.replicate 16 0) (msg.map (·.toNat))))

/-! ### SHA-384 -/

/-- Round constants. -/
def shaK : List Dword :=
  [0x428A2F98D728AE22, 0x7137449123EF65CD, 0xB5C0FBCFEC4D3B2F, 0xE9B5DBA58189DBBC,
   0x3956C25BF348B538, 0x59F111F1B605D019, 0x923F82A4AF194F9B, 0xAB1C5ED5DA6D8118,
   0xD807AA98A3030242, 0x12835B0145706FBE, 0x243185BE4EE4B28C, 0x550C7DC3D5FFB4E2,
   0x72BE5D74F27B896F, 0x80DEB1FE3B1696B1, 0x9BDC06A725C71235, 0xC19BF174CF692694,
   0xE49B69C19EF14AD2, 0xEFBE4786384F25E3, 0x0FC19DC68B8CD5B5, 0x240CA1CC77AC9C65,
   0x2DE92C6F592B0275, 0x4A7484AA6EA6E483, 0x5CB0A9DCBD41FBD4, 0x76F988DA831153B5,
   0x983E5152EE66DFAB, 0xA831C66D2DB43210, 0xB00327C898FB213F, 0xBF597FC7BEEF0EE4,
   0xC6E00BF33DA88FC2, 0xD5A79147930AA725, 0x06CA6351E003826F, 0x142929670A0E6E70,
   0x27B70A8546D22FFC, 0x2E1B21385C26C926, 0x4D2C6DFC5AC42AED, 0x53380D139D95B3DF,
   0x650A73548BAF63DE, 0x766A0ABB3C77B2A8, 0x81C2C92E47EDAEE6, 0x92722C851482353B,
   0xA2BFE8A14CF10364, 0xA81A664BBC423001, 0xC24B8B70D0F89791, 0xC76C51A30654BE30,
   0xD192E819D6EF5218, 0xD69906245565A910, 0xF40E35855771202A, 0x106AA07032BBD1B8,
   0x19A4C116B8D2D0C8, 0x1E376C085141AB53, 0x2748774CDF8EEB99, 0x34B0BCB5E19B48A8,
   0x391C0CB3C5C95A63, 0x4ED8AA4AE3418ACB, 0x5B9CCA4F7763E373, 0x682E6FF3D6B2B8A3,
   0x748F82EE5DEFB2FC, 0x78A5636F43172F60, 0x84C87814A1F0AB72, 0x8CC702081A6439EC,
   0x90BEFFFA23631E28, 0xA4506CEBDE82BDE9, 0xBEF9A3F7B2C67915, 0xC67178F2E372532B,
   0xCA273ECEEA26619C, 0xD186B8C721C0C207, 0xEADA7DD6CDE0EB1E, 0xF57D4F7FEE6ED178,
   0x06F067AA72176FBA, 0x0A637DC5A2C898A6, 0x113F9804BEF90DAE, 0x1B710B35131C471B,
   0x28DB77F523047D84, 0x32CAAB7B40C72493, 0x3C9EBE0A15C9BEBC, 0x431D67C49C100D4C,
   0x4CC5D4BECB3E42B6, 0x597F299CFC657E2A, 0x5FCB6FAB3AD6FAEC, 0x6C44198C4A475817]

/-- Initial hash value. -/
def shaInit : List Dword :=
  [0xCBBB9D5DC1059ED8, 0x629A292A367CD507, 0x9159015A3070DD17, 0x152FECD8F70E5939,
   0x67332667FFC00B31, 0x8EB44A8768581511, 0xDB0C2E0D64F98FA7, 0x47B5481DBEFA4FA4]

/-- The message schedule from its latest 16 words, newest first. -/
def shaExtend : Nat → List Dword → List Dword
  | 0, w => w
  | n + 1, w =>
    let x := w.getD 14 0
    let y := w.getD 1 0
    let s0 := x.rotateRight 1 ^^^ x.rotateRight 8 ^^^ (x >>> 7)
    let s1 := y.rotateRight 19 ^^^ y.rotateRight 61 ^^^ (y >>> 6)
    shaExtend n ((w.getD 15 0 + s0 + w.getD 6 0 + s1) :: w)

/-- One round on the working variables a to h. -/
def shaRound (v : List Dword) (kw : Dword × Dword) : List Dword :=
  match v with
  | [a, b, c, d, e, f, g, h] =>
    let t1 := h + (e.rotateRight 14 ^^^ e.rotateRight 18 ^^^ e.rotateRight 41) + ((e &&& f) ^^^ (~~~e &&& g)) + kw.1 + kw.2
    let t2 := (a.rotateRight 28 ^^^ a.rotateRight 34 ^^^ a.rotateRight 39) + ((a &&& b) ^^^ (a &&& c) ^^^ (b &&& c))
    [t1 + t2, a, b, c, d + t1, e, f, g]
  | _ => v

/-- One block of 128 bytes into the hash value. -/
def shaBlock (h : List Dword) (bs : List Byte) : List Dword :=
  let w := (upTo 16).map fun i => (BitVec.ofNat 64 (beAt bs (8 * i) 8) : Dword)
  let ws := (shaExtend 64 w.reverse).reverse
  List.zipWith (· + ·) h ((shaK.zip ws).foldl shaRound h)

/-- Blocks taken from the front of the message. -/
def shaBlocks : Nat → List Dword → List Byte → List Dword
  | 0, h, _ => h
  | n + 1, h, m => shaBlocks n (shaBlock h (m.take 128)) (m.drop 128)

/-- SHA-384 (R452, R453). -/
def sha384 (msg : List Byte) : List Byte :=
  let pad := 127 - (msg.length + 16) % 128
  let m := msg ++ 0x80#8 :: zeros pad ++ beBytes 16 (8 * msg.length)
  ((shaBlocks (m.length / 128) shaInit m).take 6).flatMap fun x => beBytes 8 x.toNat

/-! ### ECDSA P-384 -/

/-- The field prime, the order of the group, and the coefficient b of the curve y² = x³ − 3x + b. -/
def ecP : Nat := 2 ^ 384 - 2 ^ 128 - 2 ^ 96 + 2 ^ 32 - 1
/-- The order of the group. -/
def ecN : Nat := 0xFFFFFFFFFFFFFFFFFFFFFFFFFFFFFFFFFFFFFFFFFFFFFFFFC7634D81F4372DDF581A0DB248B0A77AECEC196ACCC52973
/-- The coefficient b. -/
def ecB : Nat := 0xB3312FA7E23EE7E4988E056BE3F82D19181D9C6EFE8141120314088F5013875AC656398D8A2ED19D2A85C8EDD3EC2AEF

/-- A point in Jacobian coordinates; third coordinate 0 at infinity. -/
structure EcPoint where
  x : Nat
  y : Nat
  z : Nat
  deriving DecidableEq, Repr

/-- The base point. -/
def ecBase : EcPoint :=
  { x := 0xAA87CA22BE8B05378EB1C71EF320AD746E1D3B628BA79B9859F741E082542A385502F25DBF55296C3A545E3872760AB7,
    y := 0x3617DE4A96262C6F5D9E98BF9292DC29F8F41DBD289A147CE9DA3113B5F0B8C00A60B1CE1D7E819D7A431D7C90EA0E5F, z := 1 }

/-- Difference in the field. -/
def ecSub (a b : Nat) : Nat := (a + ecP - b % ecP) % ecP

/-- Twice a point. -/
def ecDouble (p : EcPoint) : EcPoint :=
  let y2 := p.y * p.y % ecP
  let z2 := p.z * p.z % ecP
  let s := 4 * p.x * y2 % ecP
  let m := 3 * ecSub p.x z2 * (p.x + z2) % ecP
  let x := ecSub (m * m) (2 * s)
  { x := x, y := ecSub (m * ecSub s x) (8 * y2 * y2), z := 2 * p.y * p.z % ecP }

/-- The sum of two points. -/
def ecAdd (p q : EcPoint) : EcPoint :=
  if p.z = 0 then q
  else if q.z = 0 then p
  else
    let pz2 := p.z * p.z % ecP
    let qz2 := q.z * q.z % ecP
    let u1 := p.x * qz2 % ecP
    let u2 := q.x * pz2 % ecP
    let s1 := p.y * qz2 * q.z % ecP
    let s2 := q.y * pz2 * p.z % ecP
    if u1 = u2 then (if s1 = s2 then ecDouble p else { x := 1, y := 1, z := 0 })
    else
      let h := ecSub u2 u1
      let r := ecSub s2 s1
      let h2 := h * h % ecP
      let h3 := h2 * h % ecP
      let v := u1 * h2 % ecP
      let x := ecSub (r * r) (h3 + 2 * v)
      { x := x, y := ecSub (r * ecSub v x) (s1 * h3), z := h * p.z * q.z % ecP }

/-- The bits of a scalar, most significant first. -/
def scalarBits (k : Nat) : List Bool := ((upTo 384).map k.testBit).reverse

/-- A multiple of a point. -/
def ecTimes (k : Nat) (p : EcPoint) : EcPoint :=
  (scalarBits k).foldl (fun acc b => let d := ecDouble acc; if b then ecAdd d p else d) { x := 1, y := 1, z := 0 }

/-- The inverse modulo the order of the group: the power `ecN` − 2. -/
def ecInverse (a : Nat) : Nat :=
  (scalarBits (ecN - 2)).foldl (fun acc b => let q := acc * acc % ecN; if b then q * a % ecN else q) 1

/-- A public key's point lies on the curve. -/
def ecOnCurve (p : EcPoint) : Bool :=
  decide (p.x < ecP) && decide (p.y < ecP) && decide (p.y * p.y % ecP = (p.x * p.x * p.x + (ecP - 3) * p.x + ecB) % ecP)

/-- ECDSA P-384 over the SHA-384 of a message (R453): public key as x then y, message, signature as r then s. -/
def ecdsaHolds (pub msg sig : List Byte) : Bool :=
  let q : EcPoint := { x := beAt pub 0 48, y := beAt pub 48 48, z := 1 }
  let r := beAt sig 0 48
  let s := beAt sig 48 48
  let w := ecInverse s
  let p := ecAdd (ecTimes (ofBe (sha384 msg) * w % ecN) ecBase) (ecTimes (r * w % ecN) q)
  let z2 := p.z * p.z % ecP
  ecOnCurve q && decide (0 < r) && decide (r < ecN) && decide (0 < s) && decide (s < ecN) && decide (p.z ≠ 0) &&
    (decide (p.x % ecP = r * z2 % ecP) || (decide (r + ecN < ecP) && decide (p.x % ecP = (r + ecN) * z2 % ecP)))

end Sys2Proof.Machine
end

