-- ==== Sys2Proof/Machine/Crc.lean ====
section
/-! DEFINITION. The check values of the manual: CRC-32, CRC-32C, CRC-16/CCITT, CRC-24 and CRC-64/ECMA (R94, R153, R237, R445), each
as a register that bytes are fed into, so that a unit can be fed in pieces; and the signature register of the checker. -/

namespace Sys2Proof.Machine

/-- One bit of a reflected CRC: the register of an algorithm whose reflected polynomial is `p`. -/
def crcBitR (p r : Nat) : Nat := if r % 2 = 1 then (r / 2) ^^^ p else r / 2

/-- Eight times in a row. -/
def eightTimes (f : Nat → Nat) (x : Nat) : Nat := f (f (f (f (f (f (f (f x)))))))

/-- One byte into a reflected register. -/
def crcByteR (p : Nat) (r : Nat) (b : Byte) : Nat := eightTimes (crcBitR p) (r ^^^ b.toNat)

/-- One bit of an unreflected CRC of width `w` and polynomial `p`. -/
def crcBitN (w p r : Nat) : Nat := if r / 2 ^ (w - 1) = 1 then ((2 * r) % 2 ^ w) ^^^ p else 2 * r

/-- One byte into an unreflected register of width `w`. -/
def crcByteN (w p : Nat) (r : Nat) (b : Byte) : Nat := eightTimes (crcBitN w p) (r ^^^ (b.toNat * 2 ^ (w - 8)))

/-- Reflected polynomial of CRC-32, 0x04C1_1DB7 (R173, R445). -/
def polyCrc32 : Nat := 0xEDB88320
/-- Reflected polynomial of CRC-32C, 0x1EDC_6F41 (R94, R445). -/
def polyCrc32c : Nat := 0x82F63B78

/-- CRC-32 of bytes from an initial register value in the algorithm's own bit order (R173). -/
def crc32Init (i : Nat) (bs : List Byte) : Nat := (bs.foldl (crcByteR polyCrc32) i) ^^^ 0xFFFFFFFF
/-- CRC-32 with the standard initial value (R445). -/
def crc32 (bs : List Byte) : Nat := crc32Init 0xFFFFFFFF bs
/-- CRC-32C from an initial register value (R321, R445). -/
def crc32cInit (i : Nat) (bs : List Byte) : Nat := (bs.foldl (crcByteR polyCrc32c) i) ^^^ 0xFFFFFFFF
/-- CRC-32C (R94). -/
def crc32c (bs : List Byte) : Nat := crc32cInit 0xFFFFFFFF bs
/-- CRC-16/CCITT (R237). -/
def crc16 (bs : List Byte) : Nat := bs.foldl (crcByteN 16 0x1021) 0xFFFF
/-- CRC-24 (R445). -/
def crc24 (bs : List Byte) : Nat := bs.foldl (crcByteN 24 0x864CFB) 0xB704CE
/-- CRC-64/ECMA (R153). -/
def crc64 (bs : List Byte) : Nat := bs.foldl (crcByteN 64 0x42F0E1EBA9EA3693) 0

/-- Whether `ALG` names an algorithm (R445). -/
def crcAlgOk (alg : Nat) : Bool := decide (alg ≤ 4)

/-- Standard initial register value of `ALG` (R445). -/
def crcStdInit (alg : Nat) : Nat :=
  if alg = 0 ∨ alg = 1 then 0xFFFFFFFF else if alg = 2 then 0xFFFF else if alg = 3 then 0xB704CE else 0

/-- Width of `ALG`. -/
def crcWidth (alg : Nat) : Nat := if alg ≤ 1 then 32 else if alg = 2 then 16 else if alg = 3 then 24 else 64

/-- One byte into the register of `ALG` (R445, R446). -/
def crcFeed (alg : Nat) (r : Nat) (b : Byte) : Nat :=
  if alg = 0 then crcByteR polyCrc32 r b else if alg = 1 then crcByteR polyCrc32c r b
  else if alg = 2 then crcByteN 16 0x1021 r b else if alg = 3 then crcByteN 24 0x864CFB r b
  else crcByteN 64 0x42F0E1EBA9EA3693 r b

/-- The result: final XOR applied, zero-extended (R445). -/
def crcResult (alg r : Nat) : Nat := if alg ≤ 1 then r ^^^ 0xFFFFFFFF else r

/-- One fold of the signature register: shifted left once under x^64 + x^4 + x^3 + x + 1, then the input added (Signature windows;
the shift direction is Assumption 10, DEDUCED). -/
def misrFold (m : Dword) (x : Dword) : Dword :=
  (if m.getLsbD 63 then (m <<< 1) ^^^ 0x1B#64 else m <<< 1) ^^^ x

/-- What one retired instruction folds in: `pc` XOR the instruction word, then, for a store, the address and the data. -/
def misrRetire (m : Dword) (r : Retired) : Dword :=
  let m1 := misrFold m ((r.pc ^^^ r.word).zeroExtend 64)
  match r.store with
  | none => m1
  | some (a, d) => misrFold (misrFold m1 (a.zeroExtend 64)) (d.zeroExtend 64)

/-- The value both registers hold when a window opens (R190). -/
def misrStart : Dword := 0xFFFFFFFFFFFFFFFF#64

end Sys2Proof.Machine
end

