-- ==== Sys2Proof/Machine/Sparse.lean ====
section
/-! DEFINITION. Sparse stores: reading, writing, and the canonical form (keys strictly rising, nothing listed that equals what an
unlisted key reads as). Memory is such a store of bytes (`Host.Cell`). -/

namespace Sys2Proof.Machine

/-- Read key `k`; an unlisted key reads as `d k`. -/
def sparseGet {α : Type} (d : Nat → α) : Sparse α → Nat → α
  | [], k => d k
  | (j, v) :: m, k => if j = k then v else sparseGet d m k

/-- Drop every entry of key `k`. -/
def sparseErase {α : Type} : Sparse α → Nat → Sparse α
  | [], _ => []
  | (j, v) :: m, k => if j = k then sparseErase m k else (j, v) :: sparseErase m k

/-- List key `k` with value `v`. -/
def sparsePut {α : Type} : Sparse α → Nat → α → Sparse α
  | [], k, v => [(k, v)]
  | (j, w) :: m, k, v => if j = k then (k, v) :: m else if k < j then (k, v) :: (j, w) :: m else (j, w) :: sparsePut m k v

/-- Write key `k`; writing what an unlisted key reads as removes the entry. -/
def sparseSet {α : Type} [DecidableEq α] (d : Nat → α) (m : Sparse α) (k : Nat) (v : α) : Sparse α :=
  if v = d k then sparseErase m k else sparsePut m k v

/-- Keys strictly rising from above `lo`, and no entry equal to the default. -/
def sparseWfFrom {α : Type} [DecidableEq α] (d : Nat → α) : Nat → Sparse α → Bool
  | _, [] => true
  | lo, (j, v) :: m => decide (lo ≤ j) && decide (v ≠ d j) && sparseWfFrom d (j + 1) m

/-- The canonical form. -/
def sparseWf {α : Type} [DecidableEq α] (d : Nat → α) (m : Sparse α) : Bool := sparseWfFrom d 0 m

/-- Apply `f` to the value at `k`. -/
def sparseMod {α : Type} [DecidableEq α] (d : Nat → α) (m : Sparse α) (k : Nat) (f : α → α) : Sparse α :=
  sparseSet d m k (f (sparseGet d m k))

/-- Apply `f` to every listed entry and keep the canonical form: entries that become the default go. -/
def sparseMap {α : Type} [DecidableEq α] (d : Nat → α) (f : Nat → α → α) : Sparse α → Sparse α
  | [] => []
  | (j, v) :: m => sparseSet d (sparseMap d f m) j (f j v)

/-- The listed entries whose key satisfies `p`. -/
def sparseFilter {α : Type} (p : Nat → Bool) (m : Sparse α) : Sparse α := m.filter fun e => p e.1

/-- What RAM and mailboxes read as where nothing is listed: zero (R428, RAM after a cold reset; Assumption 2). -/
def ramDefault : Nat → Byte := fun _ => 0#8

/-- What erased flash reads as (Assumption 3). -/
def flashDefault : Nat → Byte := fun _ => 0xFF#8

/-- Read one byte of RAM. -/
def memByte (m : List Host.Cell) (a : Nat) : Byte := sparseGet ramDefault m a

/-- Write one byte of RAM. -/
def memPut (m : List Host.Cell) (a : Nat) (v : Byte) : List Host.Cell := sparseSet ramDefault m a v

/-- Write bytes at ascending addresses. -/
def memPutBytes (m : List Host.Cell) (a : Nat) : List Byte → List Host.Cell
  | [] => m
  | b :: bs => memPutBytes (memPut m a b) (a + 1) bs

/-- Read `n` bytes at ascending addresses. -/
def memBytes (m : List Host.Cell) (a n : Nat) : List Byte := (upTo n).map fun i => memByte m (a + i)

/-- A little-endian number of `n` bytes (R5). -/
def memNat (m : List Host.Cell) (a n : Nat) : Nat := ofLe (memBytes m a n)

/-- One little-endian word. -/
def memWord (m : List Host.Cell) (a : Nat) : Word := BitVec.ofNat 32 (memNat m a 4)

/-- Write the low `n` bytes of `v`, little-endian. -/
def memPutNat (m : List Host.Cell) (a n v : Nat) : List Host.Cell := memPutBytes m a (leBytes n v)

/-- Every byte of `[a, a + n)` at zero: the listed ones go. -/
def memClear (m : List Host.Cell) (a n : Nat) : List Host.Cell := sparseFilter (fun k => !(decide (a ≤ k) && decide (k < a + n))) m

/-- The canonical form of a RAM. -/
def Memory.wf (m : List Host.Cell) : Bool := sparseWf ramDefault m

/-- Read one byte of flash. -/
def flashByte (m : List Host.Cell) (a : Nat) : Byte := sparseGet flashDefault m a

/-- Write one byte of flash. -/
def flashPut (m : List Host.Cell) (a : Nat) (v : Byte) : List Host.Cell := sparseSet flashDefault m a v

/-- Write bytes of flash at ascending addresses. -/
def flashPutBytes (m : List Host.Cell) (a : Nat) : List Byte → List Host.Cell
  | [] => m
  | b :: bs => flashPutBytes (flashPut m a b) (a + 1) bs

/-- Read `n` bytes of flash. -/
def flashBytes (m : List Host.Cell) (a n : Nat) : List Byte := (upTo n).map fun i => flashByte m (a + i)

/-- Erase `[a, a + n)`: the listed bytes go. -/
def flashErase (m : List Host.Cell) (a n : Nat) : List Host.Cell := memClear m a n

end Sys2Proof.Machine
end

