-- ==== Sys2Proof/Config.lean ====
section
/-! DEFINITION. What one implementation fixes and what the manual leaves open: opaque constants without a body.
No proof can evaluate one, so a statement about them holds for every value. Each has a row of the assumption log. -/

namespace Sys2Proof

/-- Undefined read data of a mailbox or shared-bank collision (R429): a fresh value per draw, drawn with the plain counter
`State.draws`. Assumption 4. -/
opaque Config.freeWord : Nat → Word

/-- The key of a lane's BIST result sets, derived from its fuses (R523): lane. The manual does not give the derivation. Assumption 5. -/
opaque Config.fuseKey : Nat → BitVec 128

/-- The key section of the settings unwrapped under a lane's own sealing key and read (R326): lane, section bytes, connection, field; field
0 the lane's seed, 1 to 3 the seeds of codes A, B, C that the receive check uses, 4 the safety seed, 5 and 6 the CMAC keys, 0 for none.
The manual gives neither the sealing key nor the section's layout. Assumption 5. -/
opaque Config.keyField : Nat → List Byte → Nat → Nat → Nat

/-- Where an area of the settings holds connection descriptor `k`: its 32 bytes (R327). The manual lays out the descriptor and not the
area. Assumption 8. -/
opaque Config.connBytes : List Byte → Nat → List Byte

/-- The key section of an area (R326). Assumption 8. -/
opaque Config.keySection : List Byte → List Byte

/-- The gateway section of a settings area, which hub firmware loads into hub SRAM (R412). The manual gives the layout in SRAM and none in the
area. Assumption 8. -/
opaque Config.sgwSection : List Byte → List Byte

/-- The recorder's CODE of an event the manual asks to record without numbering it (R436). Assumption 6. -/
opaque Config.recCode : Nat → Half

/-- The die stepping of `LCTL_ID.STEP`, fixed per die: 0 lane A, 1 lane B, 2 lane C, 3 hub, 4 FIELD. Assumption 7. -/
opaque Config.dieStep : Nat → Byte

/-- What hub or lane firmware keeps in a settings area beyond the layouts the manual gives (R470): area bytes, setting number.
The manual gives the settings and no layout of the area. Assumption 8. -/
opaque Config.settingValue : List Byte → Nat → Nat

/-- What the compiled program asks the library for: which block, wired how (R208, R262 to R278), from the section bytes. The manual
gives the blocks and no coding of their instances. Assumption 9. -/
opaque Config.blockCode : List Byte → Nat → Nat

/-- Whether the code of a section's stroke task reads a field input or a variable that another task owns (R348): section bytes. The manual
gives no coding of task code. Assumption 71. -/
opaque Config.strokeTaskReads : List Byte → Bool

/-- Whether the token of BENCH_AUTH holds (R199): token bytes, OTP key hash bytes. The manual gives the token's signature and not its
layout. Assumption 5. -/
opaque Config.tokenHolds : List Byte → List Byte → Bool

/-- What a token names (R199): module serial number, lanes as a mask, and the RTC times in s between which it is valid. Assumption 5. -/
opaque Config.tokenSerial : List Byte → Dword
/-- The lanes it names. Assumption 5. -/
opaque Config.tokenLanes : List Byte → BitVec 3
/-- Its validity begins. Assumption 5. -/
opaque Config.tokenFrom : List Byte → Nat
/-- Its validity ends. Assumption 5. -/
opaque Config.tokenUntil : List Byte → Nat

/-- A conversion of one settings format into another (R471): area bytes, target format. Assumption 8. -/
opaque Config.migrate : List Byte → Nat → List Byte

/-- The vote context that owns a transfer page of the loaded image (R168): program identity, page. The manual leaves the assignment to the
image. Assumption 20. -/
opaque Config.pageOwner : Dword → Nat → Nat
/-- The lane address a transfer page above the cell window stands at (R168). Assumption 20. -/
opaque Config.pageBase : Dword → Nat → Nat

/-- How many pages of dynamic state beyond the cell window the loaded image's transfer set holds (R168): program identity. Assumption 20. -/
opaque Config.pageCount : Dword → Nat

/-- The contents of the boot ROM of a lane and of the hub's ROM (Address Map): 0 lane A, 1 lane B, 2 lane C, 3 hub; byte address. The manual
gives the size and not the contents. Assumption 24. -/
opaque Config.romByte : Nat → Nat → Byte

/-- Whether firmware that reads format `f` can read an area written in format `g` (R471, R472): `f`, `g`. Assumption 8. -/
opaque Config.canRead : Nat → Nat → Bool

/-- The MAC address of Ethernet port k, the source of its frames (R329). The manual names no setting for it. Assumption 109. -/
opaque Config.portMac : Nat → BitVec 48

end Sys2Proof
end

