-- ==== Sys2Proof/Machine/LaneState.lean ====
section
/-! DEFINITION. What a compute lane holds beside its registers: follower, start-up, vote, links, cores, checker, watchdog, route engine,
programs, field port. Times are timebase values in nanoseconds. -/

namespace Sys2Proof.Machine

/-- The timebase follower (R34 to R38). -/
structure Follower where
  /-- the follower's latest value -/
  time : Nat
  /-- consecutive missing or rejected ticks -/
  missRun : Nat
  /-- consecutive ticks that pass R34 during holdover -/
  goodRun : Nat
  /-- ticks missed in the running 1 ms window -/
  missWin : Nat
  /-- `TMR_TB_HI` and `TMR_CATCH_HI` as latched by the reads of their low words -/
  tbHi : Word
  catchHi : Word
  /-- T_n of the current stroke -/
  tn : Nat
  /-- when holdover began, and the offset from the reference then -/
  holdStart : Nat
  holdOff : Int
  /-- the follower's offset from the timebase, as its last tick showed it and slews moved it since; the last slew -/
  off : Int
  slewT : Nat
  /-- the peers' follower times against this one's as this stroke's frames show them -/
  peerOff : List (LaneId × Int)
  /-- consecutive passed rate checks, in ms (R45) -/
  ratePass : Nat
  deriving DecidableEq, Repr

/-- Start-up and pairing (R45 to R49, R146, R223). -/
structure StartInt where
  /-- reset release instant -/
  release : Nat
  /-- the active image and its program section verified (R45, R209, R454) -/
  imageOk : Bool
  /-- every bank within its spares (R422) -/
  memOk : Bool
  /-- valid FIELD frames received since the release -/
  fieldOk : Bool
  /-- the retained program data was decided (R223) and its copy held; the lists have been judged -/
  retainOk : Bool
  retDone : Bool
  /-- this lane's values to compare (R46, R210, R455) -/
  own : PairValues
  /-- what armed peers sent -/
  peers : List (LaneId × PairValues)
  /-- lanes this lane has paired with, itself included -/
  paired : List LaneId
  /-- first catch, once set -/
  firstCatch : Option Nat
  /-- digests of retained route state received from the peers (R146) -/
  digests : List (LaneId × Word)
  /-- retained route state is kept for this start (R146, R147) -/
  rleKept : Bool
  /-- retain copies listed by each lane (R223) -/
  retLists : List (LaneId × List RetainItem)
  /-- this start follows a cold reset -/
  cold : Bool
  deriving DecidableEq, Repr

/-- One telegram in an input image: connection index, bytes, instant of the hub's commit. -/
structure InTlg where
  conn  : Nat
  bytes : List Byte
  t     : Nat
  deriving DecidableEq, Repr

/-- A host command as its mailbox descriptor carries it to the lanes (R219, R382): opcode, command sequence and operands. -/
structure CmdDesc where
  opcode : Half
  seq    : Word
  args   : List Nat
  data   : List Byte
  t      : Nat
  deriving DecidableEq, Repr

/-- Modes of the program set (R217, R218). -/
inductive PrgMode where
  | run | stop | hold
  deriving DecidableEq, Repr

/-- A task between its catch and its finish (R51 to R66, R211 to R218). -/
structure TaskRun where
  tnum : Nat
  /-- between a catch and its finish -/
  active : Bool
  /-- catch instant of this cycle; instant of the previous catch, 0 for none -/
  tn : Nat
  prevTn : Nat
  /-- the lane's own consensus frame, and those of peers that came in time -/
  own : Option ConsFrame
  peers : List (LaneId × ConsFrame)
  /-- telegrams frozen at the catch that passed the lane's check, with the entry listed -/
  frozen : List (ConsEntry × InTlg)
  /-- telegrams admitted, in the order of R58 -/
  admitted : List ConsEntry
  /-- admitted telegrams still to be fetched from a peer -/
  toFetch : List ConsEntry
  /-- admission has been decided -/
  decided : Bool
  /-- the cycle ended by an exception, or at a breakpoint -/
  excepted : Bool
  broke : Bool
  /-- the mode of the program set at the task's catch (R218); its compute runs, or waits for tasks before it (R212) -/
  mode : PrgMode
  ready : Bool
  /-- the values of the variables the task owns, as of its last finish in RUN, and as committed at its latest finish: offset in instance
  data, bytes (R213, R216, R217) -/
  last : List (Nat × List Byte)
  comm : List (Nat × List Byte)
  /-- the copy of every other task's variables the task took at its catch (R213) -/
  view : List (Nat × List Byte)
  /-- the `SAFEIN` bytes of the 32 inputs and the `SAFEENC` structures of both encoders as presented at the catch (R264) -/
  safe : List Byte
  /-- its compute has run since the catch (R212) -/
  begun : Bool
  /-- triggers held and when the first of them was admitted; triggers served by this release, and the release instant (R65, R215) -/
  held : Nat
  trigT : Nat
  served : Nat
  relT : Nat
  /-- this cycle is one of a shadow stroke (R170) -/
  shadow : Bool
  deriving DecidableEq, Repr

/-- Steps of a vote (R156). -/
inductive VoteStage where
  | idle | level1 | answers | verdict | finish
  deriving DecidableEq, Repr

/-- A vote context (R150 to R159). -/
structure VoteCtx where
  stage : VoteStage
  task : Nat
  /-- catch and vote instant -/
  tn : Nat
  v : Nat
  /-- the lane's image, its segments in order, and the kind-0b00 address of each (none for engine segments) -/
  image : List (List Byte)
  /-- block digests: own, and those received, shadow lanes included -/
  dig : List Dword
  peerDig : List (LaneId × List Dword)
  voters : List LaneId
  /-- blocks under comparison at level 2, and segment hashes received: lane, block, hashes -/
  blocks : List Nat
  hashes : List (LaneId × Nat × List Dword)
  /-- segment contents fetched: lane, segment, bytes -/
  fetched : List (LaneId × Nat × List Byte)
  /-- segments this lane differs in, with the majority contents where fetched -/
  differs : List (Nat × Option (List Byte))
  /-- consecutive dissents of lanes A, B, C -/
  cntA : Nat
  cntB : Nat
  cntC : Nat
  /-- verdict frames received, and the lane's own -/
  verdicts : List (LaneId × Verdict)
  /-- this lane is a voter and agrees, or commits majority contents (R162) -/
  commit : Bool
  deriving DecidableEq, Repr

/-- Readmission at the lane that joins and at a donor (R167 to R171). -/
structure ReadmInt where
  /-- the lane asking, at an in-vote lane, or the lane itself -/
  who : Option LaneId
  /-- in-vote lanes that checked the four values -/
  agreed : List LaneId
  /-- the request was taken at a stroke catch; catches since the full pass began -/
  taken : Bool
  catches : Nat
  started : Bool
  /-- contexts whose delta arrived in time -/
  deltaDone : List Nat
  /-- pages received in this attempt, and pages of a bad CRC awaiting retransmission -/
  got : List Nat
  retry : List Nat
  /-- contexts of the shadow stroke whose votes carried `SHADOW_OK` from both lanes -/
  shadowOk : List Nat
  /-- the shadow stroke runs; it has passed and the lane becomes a voter at the next catch -/
  shadow : Bool
  passed : Bool
  /-- a vote of the shadow stroke lacked `SHADOW_OK` (R170) -/
  failed : Bool
  /-- deltas under way: context, the instant by which they must have arrived, pages still to come (R169) -/
  delta : List (Nat × Nat × List Nat)
  /-- stroke catches still to wait before the next request (R171) -/
  wait : Nat
  deriving DecidableEq, Repr

/-- A leave or easy-all notice as a lane puts it on a link (R164, R178): peer, whether it is an easy-all notice, reason or cause. -/
structure Notice where
  dst : LaneId
  easy : Bool
  code : Nat
  deriving DecidableEq, Repr

/-- A dynamic signal as it stands at the FIELD die (R172): period, high time, and rising edge after each multiple of the period on the lane's
follower, in ns. -/
structure DynSig where
  period : Nat
  high : Nat
  phase : Nat
  deriving DecidableEq, Repr

/-- One end of a cross-lane link (R160). -/
structure LinkEnd where
  lastValid : Nat
  lastSent : Nat
  lastTrain : Nat
  expSeq : Word
  txSeq : Word
  goodRun : Nat
  retryAsked : Bool
  /-- the link state as the last stroke catch or vote instant took it (R160) -/
  eff : Bool
  deriving DecidableEq, Repr

/-- One core's registers (Core registers, R188). -/
structure CoreRegs where
  g : List Word
  pc : Word
  status : Word
  tvec : Word
  epc : Word
  cause : Word
  tval : Word
  scratch : Word
  cycle : Dword
  cycleh : Word
  instret : Dword
  instreth : Word
  /-- `laneid`, `implid`, `coreid` -/
  laneid : Word
  implid : Word
  coreid : Word
  deriving DecidableEq, Repr

/-- Phases of the injection test (R193, R194). -/
inductive InjPhase where
  | none | waiting | k0 | k1 | k2 | k3
  deriving DecidableEq, Repr

/-- The signature checker (R190 to R195). -/
structure SigcInt where
  misr0 : Dword
  misr1 : Dword
  phase : InjPhase
  /-- windows of the running test that gave their expected result -/
  good : Bool
  /-- when the window opened; when the pair last retired an instruction (R190, R204) -/
  openT : Nat
  retT : Nat
  deriving DecidableEq, Repr

/-- The watchdog (R202, R203). -/
structure WdtInt where
  /-- the last kick, or the reset release -/
  last : Nat
  /-- the first key was the last write -/
  key1 : Bool
  deriving DecidableEq, Repr

/-- The route engine beside its windows (R96, R105, R113). -/
structure RleInt where
  /-- a `STROKE` command runs (else a `CHECK`), while `BUSY` -/
  strokeRun : Bool
  /-- cells stale in this stroke -/
  stale : List Nat
  /-- crossings with a standing close command; with a standing open command (R135) -/
  closeCmd : List Nat
  openCmd : List Nat
  /-- crossings whose standing close command is settled: proven in time, or recorded (R135) -/
  xrec : List Nat
  /-- crossings given an open command and not reported open to road since (R135) -/
  openWait : List Nat
  deriving DecidableEq, Repr

/-- A task descriptor (R207). -/
structure TaskDesc where
  tnum : Nat
  event : Bool
  prio : Nat
  ctx : Nat
  period : Nat
  trig : Nat
  tedge : Nat
  tsrc : Nat
  entry : Nat
  stack : Nat
  dvote : Nat
  deriving DecidableEq, Repr

/-- A variable directory entry (R208). -/
structure VarDesc where
  vid : Nat
  tcode : Nat
  vflags : Nat
  owner : Nat
  offset : Nat
  size : Nat
  thash : Nat
  omap : Nat
  deriving DecidableEq, Repr

/-- A verified program section (R206). -/
structure Program where
  prgid : Dword
  codesz : Nat
  datasz : Nat
  retsz : Nat
  tasks : List TaskDesc
  vars : List VarDesc
  codeAC : List Byte
  codeB : List Byte
  init : List Byte
  safe : List Byte
  /-- the section it came from -/
  bytes : List Byte
  deriving DecidableEq, Repr

/-- The blocks of the safety library. -/
inductive BlkKind where
  | estop | guard | ossd | sls | slp | sdi | resetEdge | startupTest
  deriving DecidableEq, Repr

/-- States of a dual-channel block (R267). -/
inductive DualState where
  | stopped | armed | run | fault
  deriving DecidableEq, Repr

/-- A library instance: wiring and parameters. Times in µs, channels and encoder by number, addresses in instance data. -/
structure BlkCfg where
  kind : BlkKind
  task : Nat
  s1 : Nat
  s2 : Nat
  /-- RESET_EDGE instances joined by AND; none reads FALSE -/
  rst : List Nat
  discT : Nat
  tcyc : Nat
  antiv : Bool
  auto : Bool
  startup : Bool
  enc : Nat
  /-- instance-data offsets of the BOOL inputs `ACTIVE` and `DIRP` -/
  active : Nat
  dirp : Nat
  vlim : Nat
  nwin : Nat
  pmin : Int
  pmax : Int
  dtol : Nat
  deriving DecidableEq, Repr

/-- A library instance's running state (R267 to R278). -/
structure BlkRun where
  st : DualState
  /-- discrepancy timer in µs and whether it runs; the instant of the last catch -/
  disc : Nat
  discRun : Bool
  lastT : Option Nat
  /-- some channel was unproven at every catch of the timer's run: for S1, for S2 -/
  unp1 : Bool
  unp2 : Bool
  faultUnp : Bool
  /-- the block has been in RUN since the restart, or since a reset given after a return to RUN (R267, R283) -/
  autoOk : Bool
  /-- start-up test passed; the catch at which both channels demanded -/
  passed : Bool
  openT : Option Nat
  /-- RESET_EDGE: the catch that first showed OFF, an unproven value since, the previous value (3 for none), last result -/
  offT : Option Nat
  offUnp : Bool
  prev : Nat
  reset : Bool
  /-- motion: `OK`, the latch of R278, samples of the valid run (instant µs, position), newest first, reference of SDI, speed -/
  ok : Bool
  latch : Bool
  hist : List (Nat × Nat)
  sref : Option Nat
  speed : Int
  diag : Nat
  /-- the program set returned to RUN since the last catch (R283) -/
  back : Bool
  deriving DecidableEq, Repr

/-- Stages of an online change (R225). -/
inductive ChgStage where
  | none | verify | carry | prepare | ready | switched
  deriving DecidableEq, Repr

/-- An online change under way (R225 to R230). -/
structure ChgInt where
  stage : ChgStage
  newProg : Option Program
  dropForces : Bool
  seq : Word
  /-- carry map: new variable, old variable (offsets and size), and its digest -/
  carry : List (Nat × Nat × Nat)
  digest : Word
  result : Nat
  /-- peers' digests and results; peers that sent READY; own READY sent -/
  peers : List (LaneId × Word × Nat)
  readyFrom : List LaneId
  ready : Bool
  /-- stroke catches since admission; agreed stroke reached -/
  catches : Nat
  agreedAt : Option Nat
  /-- the PREPARE record, and the COMMIT record, has been asked of the hub -/
  asked : Bool
  committed : Bool
  deriving DecidableEq, Repr

/-- The program set of a lane (R211 to R234). -/
structure ProgInt where
  prog : Option Program
  /-- active code area and data half: 1 when true -/
  code1 : Bool
  half1 : Bool
  mode : PrgMode
  /-- when the set last went to RUN (R65); the latest finish of any task -/
  runT : Nat
  lastFin : Nat
  /-- a change of mode due at the next stroke catch, with PRG_FAULT as its cause when `fault` -/
  modeNext : Option PrgMode
  fault : Bool
  /-- running program timers: number, expiry -/
  timers : List (Nat × Nat)
  /-- forced variables: identity, value -/
  forces : List (Word × List Byte)
  commOut : Half
  commConns : List Nat
  /-- strokes in which a forced value reached a named output: channel 0 to 15 or 0x100 plus connection, count (R233) -/
  commCnt : List (Nat × Nat)
  breaks : List (Nat × Word)
  blocks : List (BlkCfg × BlkRun)
  /-- the instances as of the last finish in RUN of their task (R216, R217) -/
  blocksLast : List (BlkCfg × BlkRun)
  chg : ChgInt
  /-- stroke-number of the newer retain copy, and which copy it is -/
  retNew : Bool
  /-- highest command sequence admitted (R57, R382) -/
  cmdSeq : Word
  /-- this lane leaves at the finish of this stroke for a rolling update (R466) -/
  laneStep : Bool
  /-- commands listed and not yet admitted, commands admitted and carried out with their results -/
  cmdPend : List CmdDesc
  cmdDone : List (Word × Nat × Nat)
  /-- results of the last stroke's requests beyond 64 (R63): connection, tag -/
  overflow : List (Nat × Nat)
  /-- local route requests issued since the last stroke catch, and those frozen at it (R51, R62) -/
  asks : List (BitVec 128)
  asked : List (BitVec 128)
  deriving DecidableEq, Repr

/-- The agreed field values of a catch (R59, R254, R259). Codes of two bits as in R260. -/
structure AgreedField where
  inp : Dword
  qrb : Word
  cls : Word
  intest : Word
  enc0 : BitVec 40
  enc1 : BitVec 40
  deriving DecidableEq, Repr

/-- An input held through its calibration (R247): the value, since when, and whether a frame has shown it in test. -/
structure CalHold where
  ch : Nat
  v : Nat
  t : Nat
  seen : Bool
  deriving DecidableEq, Repr

/-- The lane end of the field port (R237 to R250). -/
structure FieldPort where
  /-- lane value of each input, two bits as in R260, and consecutive frames with unequal comparators -/
  vals : List Nat
  disag : List Nat
  /-- when each input was last unproven in this lane -/
  lastUnp : List Nat
  lastSeq : Option Half
  lastValid : Option Nat
  /-- the latest valid frame's bytes -/
  frame : List Byte
  /-- frame starts in the running 10 ms window -/
  starts : Nat
  /-- the last configuration frame sent to the die and when (R239) -/
  lastCfg : Nat
  cfgOut : List Word
  agreed : AgreedField
  /-- agreed values of the previous catch, for edges (R215) -/
  prevInp : Dword
  /-- inputs in calibration and the value held (R247) -/
  calHold : List CalHold
  /-- input last asked to be calibrated -/
  calCh : Nat
  /-- `QON` as last committed, per channel; `QLAT` stands in `FLDP_QLATCH` -/
  qon : Half
  /-- channels whose dynamic signal runs -/
  dyn : Half
  /-- channels a program asked to clear `QLAT` of; channels whose latch the runtime sets in the next command block -/
  clrReq : Half
  qlatNext : Half
  deriving DecidableEq, Repr

end Sys2Proof.Machine
end

