-- ==== Sys2Proof/Machine/CommState.lean ====
section
/-! DEFINITION. What the communication units hold beside their registers: EST connections, lane bridges, rings, partner links, the host
command engine, the signal gateway. -/

namespace Sys2Proof.Machine

/-- Connection states (R330 to R334). -/
inductive ConnSt where
  | closed | requested | responded | opened
  deriving DecidableEq, Repr

/-- A connection descriptor (R327). -/
structure ConnDesc where
  connid  : Dword
  cls     : Nat
  cflags  : Nat
  carrier : Nat
  port    : Nat
  ctx     : Nat
  cthr    : Nat
  seqwin  : Nat
  maxage  : Nat
  tmo     : Nat
  holdoff : Nat
  vlan    : Nat
  peermac : Nat
  deriving DecidableEq, Repr

/-- A connection's running state in a lane (R330 to R339, R356). -/
structure Conn where
  st : ConnSt
  /-- last accepted sequence and timestamp -/
  rxSeq : Nat
  rxT : Nat
  /-- last sequence sent, or taken by a handshake -/
  txSeq : Nat
  /-- CONN_REQs sent (SEQ, TSTAMP), the newest first; the CONN_RESPs sent -/
  reqs : List (Nat × Nat)
  resps : List (Nat × Nat)
  /-- what the peer's last handshake telegram carried, to be echoed: SEQ, TSTAMP -/
  echo : Nat × Nat
  /-- the accepted CONN_RESP or CONN_ACK: SEQ and echo (R332) -/
  accepted : Option (Nat × Nat × Nat)
  /-- a CONN_ACK, or a CLOSE with its reason, is due at the next finish -/
  ackDue : Bool
  closeDue : Option Nat
  /-- first CONN_RESP, and the close, in ns -/
  respT : Nat
  closedT : Nat
  /-- the hold-off has expired -/
  holdDone : Bool
  corr : Nat
  lost : Nat
  late : Nat
  proto : Nat
  refused : Nat
  superseded : Nat
  /-- highest claim accepted (R356) -/
  claim : Nat
  /-- payload of the latest admitted DATA telegram and its timestamp (R107) -/
  payload : Option (List Byte × Nat)
  /-- sequences of the telegrams admitted since the last handshake began, newest first (R57); the catch at which C last fell (R338) -/
  admitted : List Nat
  decayT : Nat
  /-- keys: send slot (R326) -/
  sendSlot : Nat
  deriving DecidableEq, Repr

/-- A connection after a restart (R330). -/
def Conn.init : Conn :=
  { st := .closed, rxSeq := 0, rxT := 0, txSeq := 0, reqs := [], resps := [], echo := (0, 0), accepted := none, ackDue := false,
    closeDue := none, respT := 0, closedT := 0, holdDone := true, corr := 0, lost := 0, late := 0, proto := 0,
    refused := 0, superseded := 0, claim := 0, payload := none, admitted := [], decayT := 0, sendSlot := 0 }

/-- One connection's entry in a lane's key store (R173, R321, R326): the three lane seeds as far as this lane holds them, the safety
seed, and two CMAC key slots. -/
structure KeyEntry where
  seed : Word
  /-- seeds the receive check needs for the codes of a peer module's telegrams -/
  rxA : Word
  rxB : Word
  rxC : Word
  safety : Word
  key0 : Option (BitVec 128)
  key1 : Option (BitVec 128)
  deriving DecidableEq, Repr

/-- A connection without keys. -/
def KeyEntry.none : KeyEntry := { seed := 0, rxA := 0, rxB := 0, rxC := 0, safety := 0, key0 := Option.none, key1 := Option.none }

/-- No descriptor: `CONNID` 0 (R327). -/
def ConnDesc.none : ConnDesc :=
  { connid := 0, cls := 0, cflags := 0, carrier := 0, port := 0, ctx := 0, cthr := 0, seqwin := 0, maxage := 0, tmo := 0, holdoff := 0,
    vlan := 0, peermac := 0 }

/-- Anything a lane passes on at a finish for one connection (R174). -/
structure OutTlg where
  conn : Nat
  bytes : List Byte
  t : Nat
  deriving DecidableEq, Repr

/-- An outstanding or waiting lane read (R390 to R394). -/
structure BrgRead where
  tag : Nat
  addr : Word
  bytes : Nat
  /-- first issue, this attempt's issue -/
  t0 : Nat
  t : Nat
  attempts : Nat
  /-- code of its last failed attempt, 0 for none -/
  code : Nat
  deriving DecidableEq, Repr

/-- A posted write issued and not acknowledged (R396). -/
structure BrgWrite where
  win : Nat
  addr : Word
  bytes : Nat
  v : Word
  t : Nat
  deriving DecidableEq, Repr

/-- An error record of a bridge (R399). -/
structure BrgErr where
  win : Nat
  code : Nat
  write : Bool
  addr : Word
  ndisc : Nat
  /-- the record of a posted write that failed: later discarded writes count in it (R397) -/
  counts : Bool
  deriving DecidableEq, Repr

/-- A lane bridge (R388 to R404). -/
structure BrgInt where
  reads : List BrgRead
  waiting : List BrgRead
  /-- tags of abandoned attempts and the end of their quarantine (R392) -/
  quar : List (Nat × Nat)
  writes : List BrgWrite
  errs : List BrgErr
  /-- hub messages held for the lane; lane messages on their way to the hub, each with how many posted writes issued before it still
  await their acknowledgement -/
  hubMsgs : List Word
  laneMsgs : List (Word × Nat)
  /-- exclusive sequence under way: the semaphore taken (R403) -/
  excl : Option Nat
  deriving DecidableEq, Repr

/-- A ring's announcement under way (R306). -/
structure RingAnn where
  rating : Nat
  target : Nat
  unwrap : Bool
  deriving DecidableEq, Repr

/-- A ring (R284 to R314). -/
structure RingInt where
  /-- instant of the current cycle start; listening since; the cycle start due -/
  tstart : Nat
  listenT : Nat
  next : Nat
  ann : Option RingAnn
  /-- an unwrap waits for another announcement to end (R306) -/
  unwrapWait : Bool
  /-- a master in charge heard: claim and identity -/
  heard : Option (Word × Dword)
  masterId : Dword
  /-- cycles since node n's last valid uplink frame: listed nodes only -/
  lastSeen : List (Nat × Nat)
  /-- consecutive cycles in which both wrapping points reported RESTORED -/
  restored : Nat
  /-- nodes reporting LOS_UP, LOS_DN, WRAP, RESTORED in their last frames -/
  losUp : List Nat
  losDn : List Nat
  wrapN : List Nat
  restN : List Nat
  /-- a wrap of the master's own port takes effect at the next cycle: east, west -/
  wrapE : Bool
  wrapW : Bool
  /-- measured cable delay of each port, ns -/
  delayE : Nat
  delayW : Nat
  /-- the follower sits out this cycle; predicted arrival; the announcement the last frame followed carried -/
  satOut : Bool
  predict : Nat
  annHeard : Option RingAnn
  /-- frames sent this cycle, last first: slot, payload -/
  sent : List (Nat × List Byte)
  /-- the frame sent last from the east and from the west transmitter (R285, R288) -/
  outE : List Byte
  outW : List Byte
  deriving DecidableEq, Repr

/-- Partner links (R341 to R364). -/
structure PtnrInt where
  /-- the frames taken, newest first: `TYPE` and `PSEQ`; the `PSEQ` sent last -/
  seen : List (Nat × Word)
  txSeq : Word
  startT : Nat
  lastHb : Nat
  peerRole : Nat
  peerClaim : Word
  peerSerial : Dword
  peerStroke : Word
  /-- what R363 compares, as known of the far module: its values and its partner protocol version -/
  peerVals : Option PairValues
  peerVer : Nat
  hbMissRun : Nat
  /-- takeover decided at -/
  decided : Option Nat
  /-- the active's admitted list for the stroke, and its telegrams -/
  fwdStroke : Word
  fwdTn : Nat
  fwdList : Option (List ConsEntry)
  fwdTlgs : List (Nat × List Byte)
  /-- a standby that has to resynchronise once it hears an active -/
  yielded : Bool
  /-- the frames sent last: HEARTBEAT, YIELD, FWD_ACK, EST; FWD_LIST and FWD_TLG of the last stroke -/
  hbOut : List Byte
  yieldOut : List Byte
  ackOut : List Byte
  estOut : List Byte
  fwdFrames : List (List Byte)
  /-- pages sent at the last finish of an active whose standby is not READY; every page sent, with the CRC-32C of its bytes then (R364) -/
  pageOut : List Nat
  pageSent : List (Nat × Nat)
  /-- pages received, pages of a bad CRC -/
  got : List Nat
  retry : List Nat
  resync : Bool
  /-- telegrams received since the decision to take over, delivered at the takeover catch (R353) -/
  held : List InTlg
  /-- image blocks of a forwarded image: block, bytes -/
  fwdDest : Option Nat
  fwdBuild : Dword
  fwdHop : Nat
  fwdGot : List Nat
  fwdAckStatus : Nat
  /-- forwarding to a partner: link, slot sent, blocks acknowledged, blocks sent since the last acknowledgement -/
  fwdOut : Option Nat
  fwdSrc : Nat
  fwdAcked : List Nat
  fwdSent : List Nat
  deriving DecidableEq, Repr

/-- A slot of a host submission queue as the host writes it: the 32-byte header of R371. -/
structure CmdHeader where
  opcode  : Half
  tag     : Half
  flags   : Half
  plen    : Half
  htmo    : Half
  res10   : Half
  dinoff  : Word
  dinlen  : Word
  doutoff : Word
  doutlen : Word
  res28   : Word
  deriving DecidableEq, Repr

/-- A host command in a slot (R371 to R384). -/
structure HostCmd where
  q : Nat
  slot : Nat
  gen : Nat
  tag : Half
  hdr : CmdHeader
  /-- its target as copied with the slot: its class, or the class a RESUME_TARGET names (R377, R379, R381) -/
  target : Nat
  /-- order of the doorbells of a queue -/
  ord : Nat
  active : Bool
  /-- carried out, with its completion -/
  status : Option Half
  result : Dword
  detail : Half
  dout : List Byte
  /-- completed: entry written, and its index -/
  posted : Option Nat
  /-- instants of dispatch and of the deadline -/
  tDisp : Nat
  /-- command sequence given to the lanes, when path L -/
  seq : Option Word
  applied : Bool
  /-- bound by a retry (R384) -/
  retried : Bool
  dedup : Bool
  /-- the host has released its completion entry (R377) -/
  released : Bool
  /-- its host interface was reset after its dispatch: it is carried out and its completion is not posted (R367) -/
  ghost : Bool
  deriving DecidableEq, Repr

/-- The host command engine (R365 to R387). -/
structure HostInt where
  cmds : List HostCmd
  nextOrd : Nat
  lastQ : Nat
  /-- completion write index and phase per queue -/
  cqW : List Nat
  phase : List Bool
  /-- interrupt causes pending: vectors 0 to 3 and 4 -/
  irq : BitVec 5
  /-- MSI-X table and pending-bit array, BAR0 0x2000 to 0x21FF and 0x3000 (R367) -/
  msix : Sparse Word
  /-- host-carrier telegrams assembled since the last receive: connection, telegram -/
  rx : List (Nat × List Byte)
  /-- `HBUSY_N` low until -/
  busyUntil : Nat
  /-- the FUNC_REINIT commands that wait for the block reset that runs (R501) -/
  reinit : List CmdRef
  /-- MODULE_RESET to be asserted: cold, due -/
  mreset : Option (Bool × Nat)
  /-- bytes the SPI port answers with -/
  spiOut : List Byte
  /-- lanes that a verified token names and that have not yet taken their grant (R199) -/
  granted : List LaneId
  deriving DecidableEq, Repr

/-- One destination message of the gateway (R411 to R414). -/
structure SgwDest where
  /-- a value was taken since the last send; last send; last value taken -/
  fresh : Bool
  sentOnce : Bool
  lastSend : Nat
  lastVal : Nat
  silent : Bool
  /-- the transmit buffer: data bytes while a frame waits or is being sent -/
  buf : Option (List Byte)
  deriving DecidableEq, Repr

/-- The signal gateway (R406 to R414). -/
structure SgwInt where
  /-- the loaded map: entries of eight words and descriptors of four words -/
  entries : List (Nat × List Word)
  dests : List (Nat × List Word)
  /-- latest value of an entry, in its destination's width -/
  vals : Sparse Nat
  run : Sparse SgwDest
  deriving DecidableEq, Repr

end Sys2Proof.Machine
end

