-- ==== Sys2Proof/Machine/HubState.lean ====
section
/-! DEFINITION. What the hub, the FIELD die, the always-on domain and the pins hold beside the registers. -/

namespace Sys2Proof.Machine

/-- The latest assembled telegram of a connection (R299): its bytes, the instant from which ring slots carry it, what they carry until then. -/
structure AsmTlg where
  bytes : List Byte
  from_ : Nat
  prev : List Byte
  deriving DecidableEq, Repr

/-- Nothing assembled. -/
def AsmTlg.none : AsmTlg := { bytes := [], from_ := 0, prev := [] }

/-- A submission to the recorder (R437): instant, source, event of the submitter's rule, data bytes, bench mark. -/
structure RecSub where
  t : Nat
  source : Nat
  code : Half
  data : List Byte
  bench : Bool
  deriving DecidableEq, Repr

/-- The recorder (R436 to R444). -/
structure RecInt where
  queue : List RecSub
  /-- sequence of the next record; the newest record, while one has been written since the start -/
  next : Nat
  newest : Option (RecSub × Nat × Nat)
  /-- submissions lost and not yet recorded -/
  lost : Nat
  /-- closed chunks not yet in flash, oldest first: flash page, first and last sequence -/
  unflushed : List (Nat × Nat × Nat)
  /-- no chunk is open: the next record opens a fresh one; flash page of the open or next chunk, first sequence of the open chunk -/
  fresh : Bool
  page : Nat
  first : Nat
  deriving DecidableEq, Repr

/-- A CRC unit's running computation (R445 to R447). -/
structure CrcInt where
  alg : Nat
  reg : Nat
  deriving DecidableEq, Repr

/-- Boot pointer contents (R463). -/
structure BootPtr where
  rseq : Nat
  active : Nat
  trial : Nat
  parts : Nat
  tries : Nat
  tbuild : Dword
  deriving DecidableEq, Repr

/-- Kinds of gated writes waiting (R478, R479). -/
inductive GatedKind where
  | block | pointer | settings | prepare | claim
  deriving DecidableEq, Repr

/-- A gated write that waits (R479): kind, pages, the bytes and where they go, the command served, when it was first tried. -/
structure GatedWrite where
  kind : GatedKind
  pages : Nat
  addr : Nat
  bytes : List Byte
  cmd : Option CmdRef
  t0 : Nat
  deriving DecidableEq, Repr

/-- Update controller, settings and non-volatile writes (R449 to R480). -/
structure UpdInt where
  /-- a download into a slot runs; slots that passed verification since the last write -/
  downSlot : Option Nat
  verified : List Nat
  /-- rolling update: the running lane step's descriptor, and the T_n at which it was admitted -/
  stepSeq : Option Word
  stepT : Option Nat
  /-- the rolling update stopped after a step was reverted (R467) -/
  stopped : Bool
  /-- FIELD image blocks delivered in the running FIELD step -/
  fieldDone : List Nat
  /-- settings staged -/
  staged : Sparse Byte
  /-- the area in force for the running firmware, its length, settings sequence, digest, format -/
  setArea : Nat
  setLen : Nat
  setSeq : Nat
  setCrc : Word
  setFmt : Nat
  /-- journal: next entry offset in flash 1 and sequence -/
  jNext : Nat
  jSeq : Nat
  /-- gated writes waiting, and journal-allowance entries unwritten -/
  gated : List GatedWrite
  /-- samples of `HOLD_SENSE` over the last 20 ms, newest first; low samples in a row; frozen average; droop verdict run -/
  samples : List Nat
  lowRun : Nat
  vavg : Nat
  droopRun : Bool
  /-- recovery loader running, fragments received: tag, index, bytes; what it answers last -/
  loader : Bool
  frags : List (Nat × Nat × List Byte)
  loaderOut : List Byte
  /-- claim stored in the newest record -/
  claim : Word
  deriving DecidableEq, Repr

/-- The module settings the rules name (R40, R48, R218, R329, R341, R475, R507, R522): values as loaded. -/
structure Settings where
  period : Nat
  cdl : Nat
  autoStart : Bool
  bootStop : Bool
  pairEn : Bool
  estEtype : Nat
  autoFwd : Bool
  huC : Nat
  huVmin : Nat
  huDiv : Nat
  huIchg : Nat
  bistMaxAge : Nat
  hibRtc : Nat
  serial : Dword
  /-- `PMB_VEXP_x` and `PMB_ADDR_x` of lanes A, B, C and the hub (R507) -/
  pmbVexp : List Int
  pmbAddr : List Nat
  deriving DecidableEq, Repr

/-- A PMBus command (R507): VOUT_COMMAND carries mV in LINEAR16 of an exponent. -/
inductive PmbCmd where
  | clearFaults | vout (mv : Nat) (exp : Int) | operation (b : Byte)
  deriving DecidableEq, Repr

/-- A die's reset controller (R489 to R500). -/
structure RstInt where
  /-- held in reset; the kind being run is cold -/
  held : Bool
  cold : Bool
  /-- trim valid, failed loads since the POR, stuck in TRIMFAIL -/
  trimOk : Bool
  trimFails : Nat
  trimFail : Bool
  /-- asserted at; released at -/
  t : Nat
  relT : Nat
  /-- a reset requested for later: cold, cause bit, due -/
  due : Option (Bool × Nat × Nat)
  /-- consecutive good count windows of a failed reference; consecutive bad ones (own reference, XT) -/
  goodWin : Nat
  badWin : Nat
  badXt : Nat
  /-- when XT last failed or missed its count (R487) -/
  xtT : Nat
  /-- the crystal failed and holds the reset (R486); the supply holds it since (R510) -/
  clkHold : Bool
  supHold : Bool
  /-- when a supervised rail last left its window (R510) -/
  supT : Nat
  /-- PMBus: request running since, kind, retry used, set and previous target -/
  pmbT : Nat
  pmbRetry : Nat
  vTarget : Nat
  vPrev : Nat
  /-- the commands sent last, in order, with the regulator's address -/
  pmbOut : Option (Nat × List PmbCmd)
  deriving DecidableEq, Repr

/-- Steps of HIBERNATE (R513, R514). -/
inductive PwrState where
  | run | entry (step : Nat) | hibernate | wake (step : Nat) | failed
  deriving DecidableEq, Repr

/-- The always-on domain, pins and module-level power (R499, R504 to R517). -/
structure AonInt where
  pwr : PwrState
  entryT : Nat
  /-- lanes, and the hub, whose shutdown BIST the entry waits for; retained banks whose restore differed in it (R513, R520) -/
  bistLanes : List LaneId
  bistHub : Bool
  bistBad : BitVec 4
  wakeLatched : BitVec 4
  enLA : Bool
  enLB : Bool
  enLC : Bool
  enSD : Bool
  faultN : Bool
  /-- why `FAULT_N` is low: easy all, TRIMFAIL, `VDDIO`, wake failure, loader -/
  faultWhy : BitVec 5
  pwrcycUntil : Nat
  /-- a rolling update's hub step began at; the next hub start reverts the trial (R467) -/
  hubStep : Option Nat
  hubRevert : Bool
  resetNLow : Option Nat
  /-- the RTC in s as last taken, and the instant then; whether its clock runs -/
  rtc : Nat
  rtcAt : Nat
  rtcOk : Bool
  /-- the RTC time in s at which HIBERNATE's RTC wake falls (R512) -/
  rtcAlarm : Nat
  /-- BIST_FULL_NEXT given (R522) -/
  fullNext : Bool
  /-- straps: `BENCH`, `HOST_SEL` -/
  bench : Bool
  hostSel : Bool
  deriving DecidableEq, Repr

/-- Where the module stands between its restarts (R4, R46, R181): in *sit ready*, restarting (a module reset is asserted in part), after its
first catch, in *easy all*. -/
inductive ModPhase where
  | sitReady | restarting | running | easy
  deriving DecidableEq, Repr

/-- Fuses and OTP (R2, R14, R453): split-core fuse, key hashes, revocation fuses. -/
structure Fuses where
  split : Bool
  keyHash : List (List Byte)
  revoked : BitVec 4
  partNo : Dword
  deriving DecidableEq, Repr

/-- Calibration of a FIELD input (R245). -/
structure CalReq where
  port : LaneId
  ch : Nat
  t : Nat
  /-- the agreed value of the channel at the requesting catch (R246) -/
  v : Nat
  deriving DecidableEq, Repr

/-- One encoder front end (R257, R258): position counter, status hold counts, frames since enable. -/
structure EncInt where
  pos : Word
  amp : Byte
  /-- frames for which AMP, QERR, WIRE, OVR still hold -/
  hAmp : Nat
  hQerr : Nat
  hWire : Nat
  hOvr : Nat
  zref : Bool
  dir : Bool
  since : Nat
  /-- last state of the pair A, B -/
  ab : Nat
  deriving DecidableEq, Repr

/-- The FIELD die (R235 to R258, R574). -/
structure FieldDie where
  powered : Bool
  sleep : Bool
  uv : Bool
  ot : Bool
  /-- applied configuration words; latest frames per port -/
  cfg : List Word
  cfgDefault : Bool
  cfgSeen : List (LaneId × List Word)
  lastCmd : Nat
  cmpA : Word
  cmpB : Word
  seqA : Half
  seqB : Half
  seqC : Half
  tpst : Dword
  /-- periods in a row without fault, per input with a fault -/
  clean : List (Nat × Nat)
  /-- band of the last sample; inputs whose band and debouncers are held through a gap, with the band, and the end of the hold, 0 while the gap runs -/
  band : Dword
  bandHold : List (Nat × Nat × Nat)
  /-- outputs with OPEN_LOAD, SHORT_VF, GAP_MISSING standing (R253) -/
  openL : Half
  shortV : Half
  gapMiss : Half
  qrb : Word
  vfs : Half
  calReqs : List CalReq
  cal : Option (Nat × Nat)
  calFail : Bool
  /-- test-pulse outputs in their gap, and when each gap began -/
  gap : Byte
  gapT : List (Nat × Nat)
  /-- outputs under an OFF test (whether the low side) and when it began, off by overload, and low-side shorts -/
  offTest : List (Nat × Bool × Nat)
  ovOff : Half
  lsHold : Half
  /-- since when no two lanes drive an overloaded output -/
  ovSince : List (Nat × Nat)
  /-- channel under test whose OFF test set CROSS on another (R253): tested, dropped -/
  crossBy : List (Nat × Nat)
  enc0 : EncInt
  enc1 : EncInt
  /-- the last sample instant's frames as sent on ports A, B, C -/
  frameA : List Byte
  frameB : List Byte
  frameC : List Byte
  /-- image blocks delivered by ports; the spare bank, and whether a whole new image stands in it; the bank the die runs -/
  imgSeen : List (LaneId × Nat × List Byte)
  imgSpare : List (Nat × List Byte)
  imgNew : Bool
  imgRun : List (Nat × List Byte)
  periodT : Nat
  deriving DecidableEq, Repr

/-- An exchange mailbox (R427 to R431) with what its descriptors hold: telegrams for the lane, commands for the lane, and what the lane
put there for the hub. -/
structure Mailbox where
  mem : List Host.Cell
  inTlg : List InTlg
  cmds : List CmdDesc
  outTlg : List OutTlg
  /-- command results published: sequence, status, detail -/
  results : List (Word × Nat × Nat)
  /-- highest admitted command sequence published (R382), and published time (R38) -/
  admSeq : Word
  pubTime : Nat
  /-- words uncorrectable (R427) -/
  badWords : List Nat
  deriving DecidableEq, Repr

end Sys2Proof.Machine
end

