-- ==== Sys2Proof/Machine/RegMap.lean ====
section
/-! DEFINITION. The register tables of the manual: for each register its address, the masks of its RW and RW1C fields, its reset
value and the mask of the fields that keep their value through a warm reset (R6, R8); for each field its place. -/

namespace Sys2Proof.Machine


/-! TMR registers, lane (The Stroke). -/

/-- Address of `TMR_TB_LO`. -/
def TMR_TB_LO : Nat := 0x40004000

/-- Address of `TMR_TB_HI`. -/
def TMR_TB_HI : Nat := 0x40004004

/-- Address of `TMR_STROKE`. -/
def TMR_STROKE : Nat := 0x40004008

/-- `TMR_STROKE.CDL`. -/
def TMR_STROKE_CDL : Fld := ⟨TMR_STROKE, 16, 12⟩

/-- `TMR_STROKE.PERIOD`. -/
def TMR_STROKE_PERIOD : Fld := ⟨TMR_STROKE, 0, 10⟩

/-- Address of `TMR_STROKE_NO`. -/
def TMR_STROKE_NO : Nat := 0x4000400C

/-- Address of `TMR_CATCH_LO`. -/
def TMR_CATCH_LO : Nat := 0x40004010

/-- Address of `TMR_CATCH_HI`. -/
def TMR_CATCH_HI : Nat := 0x40004014

/-- Address of `TMR_TICK`. -/
def TMR_TICK : Nat := 0x40004018

/-- `TMR_TICK.MISS`. -/
def TMR_TICK_MISS : Fld := ⟨TMR_TICK, 16, 8⟩

/-- `TMR_TICK.XCOUNT`. -/
def TMR_TICK_XCOUNT : Fld := ⟨TMR_TICK, 0, 16⟩

/-- Address of `TMR_STAT`. -/
def TMR_STAT : Nat := 0x4000401C

/-- `TMR_STAT.ARM_REFUSED`. -/
def TMR_STAT_ARM_REFUSED : Fld := ⟨TMR_STAT, 8, 1⟩

/-- `TMR_STAT.TICK_CRC_ERR`. -/
def TMR_STAT_TICK_CRC_ERR : Fld := ⟨TMR_STAT, 7, 1⟩

/-- `TMR_STAT.CFG_ERR`. -/
def TMR_STAT_CFG_ERR : Fld := ⟨TMR_STAT, 6, 1⟩

/-- `TMR_STAT.CONS_LATE`. -/
def TMR_STAT_CONS_LATE : Fld := ⟨TMR_STAT, 5, 1⟩

/-- `TMR_STAT.OVERRUN`. -/
def TMR_STAT_OVERRUN : Fld := ⟨TMR_STAT, 4, 1⟩

/-- `TMR_STAT.RATE_ERR`. -/
def TMR_STAT_RATE_ERR : Fld := ⟨TMR_STAT, 3, 1⟩

/-- `TMR_STAT.HOLDOVER`. -/
def TMR_STAT_HOLDOVER : Fld := ⟨TMR_STAT, 2, 1⟩

/-- `TMR_STAT.RUNNING`. -/
def TMR_STAT_RUNNING : Fld := ⟨TMR_STAT, 1, 1⟩

/-- `TMR_STAT.ARMED`. -/
def TMR_STAT_ARMED : Fld := ⟨TMR_STAT, 0, 1⟩

/-- Address of `TMR_CTRL`. -/
def TMR_CTRL : Nat := 0x40004020

/-- `TMR_CTRL.CMAX_CLR`. -/
def TMR_CTRL_CMAX_CLR : Fld := ⟨TMR_CTRL, 1, 1⟩

/-- `TMR_CTRL.ARM`. -/
def TMR_CTRL_ARM : Fld := ⟨TMR_CTRL, 0, 1⟩

/-- Address of `TMR_CMAX`. -/
def TMR_CMAX : Nat := 0x40004024

/-- `TMR_CMAX.CMAX`. -/
def TMR_CMAX_CMAX : Fld := ⟨TMR_CMAX, 0, 20⟩

/-- Address of `TMR_CLAST`. -/
def TMR_CLAST : Nat := 0x40004028

/-- `TMR_CLAST.CLAST`. -/
def TMR_CLAST_CLAST : Fld := ⟨TMR_CLAST, 0, 20⟩


/-! RLE registers, lane (Route Logic Engine). -/

/-- Address of `RLE_CTRL`. -/
def RLE_CTRL : Nat := 0x10100000

/-- `RLE_CTRL.IE_ERR`. -/
def RLE_CTRL_IE_ERR : Fld := ⟨RLE_CTRL, 2, 1⟩

/-- `RLE_CTRL.IE_DONE`. -/
def RLE_CTRL_IE_DONE : Fld := ⟨RLE_CTRL, 1, 1⟩

/-- `RLE_CTRL.LOCK`. -/
def RLE_CTRL_LOCK : Fld := ⟨RLE_CTRL, 0, 1⟩

/-- Address of `RLE_STAT`. -/
def RLE_STAT : Nat := 0x10100004

/-- `RLE_STAT.NDONE`. -/
def RLE_STAT_NDONE : Fld := ⟨RLE_STAT, 24, 7⟩

/-- `RLE_STAT.SWEEPS`. -/
def RLE_STAT_SWEEPS : Fld := ⟨RLE_STAT, 20, 4⟩

/-- `RLE_STAT.FLK_LIM`. -/
def RLE_STAT_FLK_LIM : Fld := ⟨RLE_STAT, 9, 1⟩

/-- `RLE_STAT.FIX_LIM`. -/
def RLE_STAT_FIX_LIM : Fld := ⟨RLE_STAT, 8, 1⟩

/-- `RLE_STAT.VISIT_LIM`. -/
def RLE_STAT_VISIT_LIM : Fld := ⟨RLE_STAT, 7, 1⟩

/-- `RLE_STAT.WR_IGN`. -/
def RLE_STAT_WR_IGN : Fld := ⟨RLE_STAT, 6, 1⟩

/-- `RLE_STAT.BUS_ERR`. -/
def RLE_STAT_BUS_ERR : Fld := ⟨RLE_STAT, 5, 1⟩

/-- `RLE_STAT.CHK_ERR`. -/
def RLE_STAT_CHK_ERR : Fld := ⟨RLE_STAT, 4, 1⟩

/-- `RLE_STAT.CHK_OK`. -/
def RLE_STAT_CHK_OK : Fld := ⟨RLE_STAT, 3, 1⟩

/-- `RLE_STAT.DONE`. -/
def RLE_STAT_DONE : Fld := ⟨RLE_STAT, 2, 1⟩

/-- `RLE_STAT.BUSY`. -/
def RLE_STAT_BUSY : Fld := ⟨RLE_STAT, 1, 1⟩

/-- `RLE_STAT.LOCKED`. -/
def RLE_STAT_LOCKED : Fld := ⟨RLE_STAT, 0, 1⟩

/-- Address of `RLE_CMD`. -/
def RLE_CMD : Nat := 0x10100008

/-- `RLE_CMD.STROKE`. -/
def RLE_CMD_STROKE : Fld := ⟨RLE_CMD, 1, 1⟩

/-- `RLE_CMD.CHECK`. -/
def RLE_CMD_CHECK : Fld := ⟨RLE_CMD, 0, 1⟩

/-- Address of `RLE_NREQ`. -/
def RLE_NREQ : Nat := 0x1010000C

/-- `RLE_NREQ.NREQ`. -/
def RLE_NREQ_NREQ : Fld := ⟨RLE_NREQ, 0, 7⟩

/-- Address of `RLE_CELLS`. -/
def RLE_CELLS : Nat := 0x10100010

/-- `RLE_CELLS.NCELL`. -/
def RLE_CELLS_NCELL : Fld := ⟨RLE_CELLS, 0, 15⟩

/-- Address of `RLE_ARDN`. -/
def RLE_ARDN : Nat := 0x10100014

/-- `RLE_ARDN.NPAIR`. -/
def RLE_ARDN_NPAIR : Fld := ⟨RLE_ARDN, 16, 13⟩

/-- `RLE_ARDN.NARD`. -/
def RLE_ARDN_NARD : Fld := ⟨RLE_ARDN, 0, 13⟩

/-- Address of `RLE_ERRIDX`. -/
def RLE_ERRIDX : Nat := 0x10100018

/-- `RLE_ERRIDX.CODE`. -/
def RLE_ERRIDX_CODE : Fld := ⟨RLE_ERRIDX, 28, 4⟩

/-- `RLE_ERRIDX.KIND`. -/
def RLE_ERRIDX_KIND : Fld := ⟨RLE_ERRIDX, 26, 2⟩

/-- `RLE_ERRIDX.INDEX`. -/
def RLE_ERRIDX_INDEX : Fld := ⟨RLE_ERRIDX, 0, 16⟩

/-- Address of `RLE_DIGEST`. -/
def RLE_DIGEST : Nat := 0x1010001C

/-- Address of `RLE_VMAX`. -/
def RLE_VMAX : Nat := 0x10100020

/-- `RLE_VMAX.VMAX`. -/
def RLE_VMAX_VMAX : Fld := ⟨RLE_VMAX, 0, 12⟩

/-- Address of `RLE_TLAST`. -/
def RLE_TLAST : Nat := 0x10100024

/-- `RLE_TLAST.TLAST`. -/
def RLE_TLAST_TLAST : Fld := ⟨RLE_TLAST, 0, 16⟩

/-- Address of `RLE_CLR`. -/
def RLE_CLR : Nat := 0x10100028

/-- `RLE_CLR.VMAX_CLR`. -/
def RLE_CLR_VMAX_CLR : Fld := ⟨RLE_CLR, 0, 1⟩

/-- Address of `RLE_INBASE`. -/
def RLE_INBASE : Nat := 0x1010002C

/-- `RLE_INBASE.BASE`. -/
def RLE_INBASE_BASE : Fld := ⟨RLE_INBASE, 17, 15⟩

/-- Address of `RLE_OUTBASE`. -/
def RLE_OUTBASE : Nat := 0x10100030

/-- `RLE_OUTBASE.BASE`. -/
def RLE_OUTBASE_BASE : Fld := ⟨RLE_OUTBASE, 17, 15⟩


/-! VOTE registers, lane (Voting). -/

/-- Address of `VOTE_STAT`. -/
def VOTE_STAT : Nat := 0x40001000

/-- `VOTE_STAT.DISSENT`. -/
def VOTE_STAT_DISSENT : Fld := ⟨VOTE_STAT, 20, 1⟩

/-- `VOTE_STAT.LATE`. -/
def VOTE_STAT_LATE : Fld := ⟨VOTE_STAT, 19, 1⟩

/-- `VOTE_STAT.CFG_ERR`. -/
def VOTE_STAT_CFG_ERR : Fld := ⟨VOTE_STAT, 18, 1⟩

/-- `VOTE_STAT.BLK_LIM`. -/
def VOTE_STAT_BLK_LIM : Fld := ⟨VOTE_STAT, 17, 1⟩

/-- `VOTE_STAT.FETCH_LIM`. -/
def VOTE_STAT_FETCH_LIM : Fld := ⟨VOTE_STAT, 16, 1⟩

/-- `VOTE_STAT.INSET`. -/
def VOTE_STAT_INSET : Fld := ⟨VOTE_STAT, 8, 3⟩

/-- `VOTE_STAT.DYN_EN`. -/
def VOTE_STAT_DYN_EN : Fld := ⟨VOTE_STAT, 5, 1⟩

/-- `VOTE_STAT.SIGN_EN`. -/
def VOTE_STAT_SIGN_EN : Fld := ⟨VOTE_STAT, 4, 1⟩

/-- `VOTE_STAT.INVOTE`. -/
def VOTE_STAT_INVOTE : Fld := ⟨VOTE_STAT, 3, 1⟩

/-- `VOTE_STAT.MODE`. -/
def VOTE_STAT_MODE : Fld := ⟨VOTE_STAT, 0, 3⟩

/-- Address of `VOTE_EASY`. -/
def VOTE_EASY : Nat := 0x40001004

/-- `VOTE_EASY.PEER`. -/
def VOTE_EASY_PEER : Fld := ⟨VOTE_EASY, 8, 1⟩

/-- `VOTE_EASY.CAUSE`. -/
def VOTE_EASY_CAUSE : Fld := ⟨VOTE_EASY, 0, 8⟩

/-- Address of `VOTE_LEAVE`. -/
def VOTE_LEAVE : Nat := 0x40001008

/-- `VOTE_LEAVE.SEG`. -/
def VOTE_LEAVE_SEG : Fld := ⟨VOTE_LEAVE, 16, 14⟩

/-- `VOTE_LEAVE.CTX`. -/
def VOTE_LEAVE_CTX : Fld := ⟨VOTE_LEAVE, 8, 3⟩

/-- `VOTE_LEAVE.REASON`. -/
def VOTE_LEAVE_REASON : Fld := ⟨VOTE_LEAVE, 0, 8⟩

/-- Address of `VOTE_CNT`. -/
def VOTE_CNT : Nat := 0x4000100C

/-- `VOTE_CNT.NSTRAY`. -/
def VOTE_CNT_NSTRAY : Fld := ⟨VOTE_CNT, 24, 8⟩

/-- `VOTE_CNT.NEXCL`. -/
def VOTE_CNT_NEXCL : Fld := ⟨VOTE_CNT, 16, 8⟩

/-- `VOTE_CNT.NDISS`. -/
def VOTE_CNT_NDISS : Fld := ⟨VOTE_CNT, 0, 16⟩

/-- Address of `VOTE_CMD`. -/
def VOTE_CMD : Nat := 0x40001010

/-- `VOTE_CMD.EASY`. -/
def VOTE_CMD_EASY : Fld := ⟨VOTE_CMD, 2, 1⟩

/-- `VOTE_CMD.READMIT`. -/
def VOTE_CMD_READMIT : Fld := ⟨VOTE_CMD, 1, 1⟩

/-- `VOTE_CMD.LEAVE`. -/
def VOTE_CMD_LEAVE : Fld := ⟨VOTE_CMD, 0, 1⟩

/-- Address of `VOTE_READM`. -/
def VOTE_READM : Nat := 0x40001014

/-- `VOTE_READM.PAGES`. -/
def VOTE_READM_PAGES : Fld := ⟨VOTE_READM, 16, 16⟩

/-- `VOTE_READM.AREASON`. -/
def VOTE_READM_AREASON : Fld := ⟨VOTE_READM, 8, 8⟩

/-- `VOTE_READM.FAILED`. -/
def VOTE_READM_FAILED : Fld := ⟨VOTE_READM, 6, 1⟩

/-- `VOTE_READM.TRIES`. -/
def VOTE_READM_TRIES : Fld := ⟨VOTE_READM, 4, 2⟩

/-- `VOTE_READM.RSTEP`. -/
def VOTE_READM_RSTEP : Fld := ⟨VOTE_READM, 0, 3⟩

/-- Address of `VOTE_RBASE`. -/
def VOTE_RBASE : Nat := 0x40001018

/-- `VOTE_RBASE.BASE`. -/
def VOTE_RBASE_BASE : Fld := ⟨VOTE_RBASE, 17, 15⟩

/-- Address of `VOTE_CFG`. -/
def VOTE_CFG (i : Nat) : Nat := 0x40001100 + 4 * i

/-- `VOTE_CFG.NSEG`. -/
def VOTE_CFG_NSEG (i : Nat) : Fld := ⟨VOTE_CFG i, 16, 14⟩

/-- `VOTE_CFG.SAFE`. -/
def VOTE_CFG_SAFE (i : Nat) : Fld := ⟨VOTE_CFG i, 7, 1⟩

/-- `VOTE_CFG.NRGN`. -/
def VOTE_CFG_NRGN (i : Nat) : Fld := ⟨VOTE_CFG i, 4, 3⟩

/-- `VOTE_CFG.THR`. -/
def VOTE_CFG_THR (i : Nat) : Fld := ⟨VOTE_CFG i, 1, 2⟩

/-- `VOTE_CFG.EN`. -/
def VOTE_CFG_EN (i : Nat) : Fld := ⟨VOTE_CFG i, 0, 1⟩

/-- Address of `VOTE_RGN_BASE`. -/
def VOTE_RGN_BASE (i : Nat) : Nat := 0x40001200 + 8 * i

/-- `VOTE_RGN_BASE.BASE`. -/
def VOTE_RGN_BASE_BASE (i : Nat) : Fld := ⟨VOTE_RGN_BASE i, 6, 26⟩

/-- Address of `VOTE_RGN_DESC`. -/
def VOTE_RGN_DESC (i : Nat) : Nat := 0x40001204 + 8 * i

/-- `VOTE_RGN_DESC.KIND`. -/
def VOTE_RGN_DESC_KIND (i : Nat) : Fld := ⟨VOTE_RGN_DESC i, 30, 2⟩

/-- `VOTE_RGN_DESC.SAFE`. -/
def VOTE_RGN_DESC_SAFE (i : Nat) : Fld := ⟨VOTE_RGN_DESC i, 29, 1⟩

/-- `VOTE_RGN_DESC.FIELD`. -/
def VOTE_RGN_DESC_FIELD (i : Nat) : Fld := ⟨VOTE_RGN_DESC i, 28, 1⟩

/-- `VOTE_RGN_DESC.TLG`. -/
def VOTE_RGN_DESC_TLG (i : Nat) : Fld := ⟨VOTE_RGN_DESC i, 27, 1⟩

/-- `VOTE_RGN_DESC.NSEG`. -/
def VOTE_RGN_DESC_NSEG (i : Nat) : Fld := ⟨VOTE_RGN_DESC i, 0, 14⟩


/-! XL registers, lane (Voting). -/

/-- Address of `XL_STAT`. -/
def XL_STAT : Nat := 0x40002000

/-- `XL_STAT.PEER1`. -/
def XL_STAT_PEER1 : Fld := ⟨XL_STAT, 6, 2⟩

/-- `XL_STAT.PEER0`. -/
def XL_STAT_PEER0 : Fld := ⟨XL_STAT, 4, 2⟩

/-- `XL_STAT.DOWN1`. -/
def XL_STAT_DOWN1 : Fld := ⟨XL_STAT, 3, 1⟩

/-- `XL_STAT.DOWN0`. -/
def XL_STAT_DOWN0 : Fld := ⟨XL_STAT, 2, 1⟩

/-- `XL_STAT.UP1`. -/
def XL_STAT_UP1 : Fld := ⟨XL_STAT, 1, 1⟩

/-- `XL_STAT.UP0`. -/
def XL_STAT_UP0 : Fld := ⟨XL_STAT, 0, 1⟩

/-- Address of `XL_ERR0`. -/
def XL_ERR0 : Nat := 0x40002004

/-- `XL_ERR0.RETRY`. -/
def XL_ERR0_RETRY : Fld := ⟨XL_ERR0, 24, 8⟩

/-- `XL_ERR0.SEQERR`. -/
def XL_ERR0_SEQERR : Fld := ⟨XL_ERR0, 16, 8⟩

/-- `XL_ERR0.CRCERR`. -/
def XL_ERR0_CRCERR : Fld := ⟨XL_ERR0, 0, 16⟩

/-- Address of `XL_ERR1`. -/
def XL_ERR1 : Nat := 0x40002008

/-- `XL_ERR1.RETRY`. -/
def XL_ERR1_RETRY : Fld := ⟨XL_ERR1, 24, 8⟩

/-- `XL_ERR1.SEQERR`. -/
def XL_ERR1_SEQERR : Fld := ⟨XL_ERR1, 16, 8⟩

/-- `XL_ERR1.CRCERR`. -/
def XL_ERR1_CRCERR : Fld := ⟨XL_ERR1, 0, 16⟩

/-- Address of `XL_CTRL`. -/
def XL_CTRL : Nat := 0x4000200C

/-- `XL_CTRL.RETRAIN1`. -/
def XL_CTRL_RETRAIN1 : Fld := ⟨XL_CTRL, 3, 1⟩

/-- `XL_CTRL.RETRAIN0`. -/
def XL_CTRL_RETRAIN0 : Fld := ⟨XL_CTRL, 2, 1⟩

/-- `XL_CTRL.CLR1`. -/
def XL_CTRL_CLR1 : Fld := ⟨XL_CTRL, 1, 1⟩

/-- `XL_CTRL.CLR0`. -/
def XL_CTRL_CLR0 : Fld := ⟨XL_CTRL, 0, 1⟩


/-! LCTL registers, lane (Lane Processors, On-Chip Memory). -/

/-- Address of `LCTL_ID`. -/
def LCTL_ID : Nat := 0x40000000

/-- `LCTL_ID.STEP`. -/
def LCTL_ID_STEP : Fld := ⟨LCTL_ID, 8, 8⟩

/-- `LCTL_ID.LANE`. -/
def LCTL_ID_LANE : Fld := ⟨LCTL_ID, 0, 8⟩

/-- Address of `LCTL_STAT`. -/
def LCTL_STAT : Nat := 0x40000004

/-- `LCTL_STAT.SPLIT`. -/
def LCTL_STAT_SPLIT : Fld := ⟨LCTL_STAT, 3, 1⟩

/-- `LCTL_STAT.BENCH`. -/
def LCTL_STAT_BENCH : Fld := ⟨LCTL_STAT, 2, 1⟩

/-- `LCTL_STAT.AUTH`. -/
def LCTL_STAT_AUTH : Fld := ⟨LCTL_STAT, 1, 1⟩

/-- `LCTL_STAT.STRAP`. -/
def LCTL_STAT_STRAP : Fld := ⟨LCTL_STAT, 0, 1⟩

/-- Address of `LCTL_IRQ_PEND`. -/
def LCTL_IRQ_PEND : Nat := 0x40000008

/-- `LCTL_IRQ_PEND.PEND`. -/
def LCTL_IRQ_PEND_PEND : Fld := ⟨LCTL_IRQ_PEND, 0, 11⟩

/-- Address of `LCTL_IRQ_EN`. -/
def LCTL_IRQ_EN : Nat := 0x4000000C

/-- `LCTL_IRQ_EN.EN`. -/
def LCTL_IRQ_EN_EN : Fld := ⟨LCTL_IRQ_EN, 0, 11⟩

/-- Address of `LCTL_SWI`. -/
def LCTL_SWI : Nat := 0x40000010

/-- `LCTL_SWI.SET`. -/
def LCTL_SWI_SET : Fld := ⟨LCTL_SWI, 0, 1⟩

/-- Address of `LCTL_C1START`. -/
def LCTL_C1START : Nat := 0x40000014

/-- `LCTL_C1START.ADDR`. -/
def LCTL_C1START_ADDR : Fld := ⟨LCTL_C1START, 2, 30⟩


/-! SIGC registers, lane (Lane Processors). -/

/-- Address of `SIGC_CTRL`. -/
def SIGC_CTRL : Nat := 0x4000A000

/-- `SIGC_CTRL.INJ`. -/
def SIGC_CTRL_INJ : Fld := ⟨SIGC_CTRL, 0, 1⟩

/-- Address of `SIGC_STAT`. -/
def SIGC_STAT : Nat := 0x4000A004

/-- `SIGC_STAT.INJ_IGN`. -/
def SIGC_STAT_INJ_IGN : Fld := ⟨SIGC_STAT, 6, 1⟩

/-- `SIGC_STAT.INJ_RUN`. -/
def SIGC_STAT_INJ_RUN : Fld := ⟨SIGC_STAT, 5, 1⟩

/-- `SIGC_STAT.INJ_DONE`. -/
def SIGC_STAT_INJ_DONE : Fld := ⟨SIGC_STAT, 4, 1⟩

/-- `SIGC_STAT.INJ_FAIL`. -/
def SIGC_STAT_INJ_FAIL : Fld := ⟨SIGC_STAT, 3, 1⟩

/-- `SIGC_STAT.INJ_PASS`. -/
def SIGC_STAT_INJ_PASS : Fld := ⟨SIGC_STAT, 2, 1⟩

/-- `SIGC_STAT.MISMATCH`. -/
def SIGC_STAT_MISMATCH : Fld := ⟨SIGC_STAT, 1, 1⟩

/-- `SIGC_STAT.DBG_BROKE`. -/
def SIGC_STAT_DBG_BROKE : Fld := ⟨SIGC_STAT, 0, 1⟩

/-- Address of `SIGC_WCNT`. -/
def SIGC_WCNT : Nat := 0x4000A008

/-- Address of `SIGC_SIG0_LO`. -/
def SIGC_SIG0_LO : Nat := 0x4000A00C

/-- Address of `SIGC_SIG0_HI`. -/
def SIGC_SIG0_HI : Nat := 0x4000A010

/-- Address of `SIGC_SIG1_LO`. -/
def SIGC_SIG1_LO : Nat := 0x4000A014

/-- Address of `SIGC_SIG1_HI`. -/
def SIGC_SIG1_HI : Nat := 0x4000A018


/-! WDT registers, lane (Lane Processors). -/

/-- Address of `WDT_CFG`. -/
def WDT_CFG : Nat := 0x40005000

/-- `WDT_CFG.STOP`. -/
def WDT_CFG_STOP : Fld := ⟨WDT_CFG, 31, 1⟩

/-- `WDT_CFG.WARN`. -/
def WDT_CFG_WARN : Fld := ⟨WDT_CFG, 25, 6⟩

/-- `WDT_CFG.UNIT`. -/
def WDT_CFG_UNIT : Fld := ⟨WDT_CFG, 24, 1⟩

/-- `WDT_CFG.OPEN`. -/
def WDT_CFG_OPEN : Fld := ⟨WDT_CFG, 12, 12⟩

/-- `WDT_CFG.CLOSE`. -/
def WDT_CFG_CLOSE : Fld := ⟨WDT_CFG, 0, 12⟩

/-- Address of `WDT_KICK`. -/
def WDT_KICK : Nat := 0x40005004

/-- Address of `WDT_STAT`. -/
def WDT_STAT : Nat := 0x40005008

/-- `WDT_STAT.SINCE`. -/
def WDT_STAT_SINCE : Fld := ⟨WDT_STAT, 16, 16⟩

/-- `WDT_STAT.CFG_IGN`. -/
def WDT_STAT_CFG_IGN : Fld := ⟨WDT_STAT, 2, 1⟩

/-- `WDT_STAT.WARNED`. -/
def WDT_STAT_WARNED : Fld := ⟨WDT_STAT, 1, 1⟩

/-- `WDT_STAT.LOCKED`. -/
def WDT_STAT_LOCKED : Fld := ⟨WDT_STAT, 0, 1⟩


/-! FLDP registers, lane (Field Inputs). -/

/-- Address of `FLDP_STAT`. -/
def FLDP_STAT : Nat := 0x4000C000

/-- `FLDP_STAT.CAL_REF`. -/
def FLDP_STAT_CAL_REF : Fld := ⟨FLDP_STAT, 9, 1⟩

/-- `FLDP_STAT.UV`. -/
def FLDP_STAT_UV : Fld := ⟨FLDP_STAT, 8, 1⟩

/-- `FLDP_STAT.CAL_BUSY`. -/
def FLDP_STAT_CAL_BUSY : Fld := ⟨FLDP_STAT, 7, 1⟩

/-- `FLDP_STAT.CFG_MISM`. -/
def FLDP_STAT_CFG_MISM : Fld := ⟨FLDP_STAT, 6, 1⟩

/-- `FLDP_STAT.CFG_ERR`. -/
def FLDP_STAT_CFG_ERR : Fld := ⟨FLDP_STAT, 5, 1⟩

/-- `FLDP_STAT.SEQ_ERR`. -/
def FLDP_STAT_SEQ_ERR : Fld := ⟨FLDP_STAT, 4, 1⟩

/-- `FLDP_STAT.CRC_ERR`. -/
def FLDP_STAT_CRC_ERR : Fld := ⟨FLDP_STAT, 3, 1⟩

/-- `FLDP_STAT.PORT_ERR`. -/
def FLDP_STAT_PORT_ERR : Fld := ⟨FLDP_STAT, 2, 1⟩

/-- `FLDP_STAT.RATE_ERR`. -/
def FLDP_STAT_RATE_ERR : Fld := ⟨FLDP_STAT, 1, 1⟩

/-- `FLDP_STAT.LINK`. -/
def FLDP_STAT_LINK : Fld := ⟨FLDP_STAT, 0, 1⟩

/-- Address of `FLDP_CAL`. -/
def FLDP_CAL : Nat := 0x4000C004

/-- `FLDP_CAL.START`. -/
def FLDP_CAL_START : Fld := ⟨FLDP_CAL, 8, 1⟩

/-- `FLDP_CAL.CH`. -/
def FLDP_CAL_CH : Fld := ⟨FLDP_CAL, 0, 5⟩

/-- Address of `FLDP_FRCNT`. -/
def FLDP_FRCNT : Nat := 0x4000C008

/-- `FLDP_FRCNT.VALID`. -/
def FLDP_FRCNT_VALID : Fld := ⟨FLDP_FRCNT, 16, 16⟩

/-- `FLDP_FRCNT.CRCERR`. -/
def FLDP_FRCNT_CRCERR : Fld := ⟨FLDP_FRCNT, 8, 8⟩

/-- `FLDP_FRCNT.MISS`. -/
def FLDP_FRCNT_MISS : Fld := ⟨FLDP_FRCNT, 0, 8⟩

/-- Address of `FLDP_QCTX0`. -/
def FLDP_QCTX0 : Nat := 0x4000C00C

/-- Address of `FLDP_QCTX1`. -/
def FLDP_QCTX1 : Nat := 0x4000C010

/-- Address of `FLDP_QLATCH`. -/
def FLDP_QLATCH : Nat := 0x4000C014

/-- `FLDP_QLATCH.QLAT`. -/
def FLDP_QLATCH_QLAT : Fld := ⟨FLDP_QLATCH, 0, 16⟩

/-- Address of `FLDP_WB`. -/
def FLDP_WB : Nat := 0x4000C018

/-- Address of `FLDP_CALFAIL`. -/
def FLDP_CALFAIL : Nat := 0x4000C01C

/-- Address of `FLDP_ENCCFG0`. -/
def FLDP_ENCCFG0 : Nat := 0x4000C020

/-- `FLDP_ENCCFG0.TOL`. -/
def FLDP_ENCCFG0_TOL : Fld := ⟨FLDP_ENCCFG0, 16, 16⟩

/-- `FLDP_ENCCFG0.ZEN`. -/
def FLDP_ENCCFG0_ZEN : Fld := ⟨FLDP_ENCCFG0, 2, 1⟩

/-- `FLDP_ENCCFG0.MODE`. -/
def FLDP_ENCCFG0_MODE : Fld := ⟨FLDP_ENCCFG0, 1, 1⟩

/-- `FLDP_ENCCFG0.EN`. -/
def FLDP_ENCCFG0_EN : Fld := ⟨FLDP_ENCCFG0, 0, 1⟩

/-- Address of `FLDP_ENCCFG1`. -/
def FLDP_ENCCFG1 : Nat := 0x4000C024

/-- `FLDP_ENCCFG1.TOL`. -/
def FLDP_ENCCFG1_TOL : Fld := ⟨FLDP_ENCCFG1, 16, 16⟩

/-- `FLDP_ENCCFG1.ZEN`. -/
def FLDP_ENCCFG1_ZEN : Fld := ⟨FLDP_ENCCFG1, 2, 1⟩

/-- `FLDP_ENCCFG1.MODE`. -/
def FLDP_ENCCFG1_MODE : Fld := ⟨FLDP_ENCCFG1, 1, 1⟩

/-- `FLDP_ENCCFG1.EN`. -/
def FLDP_ENCCFG1_EN : Fld := ⟨FLDP_ENCCFG1, 0, 1⟩

/-- Address of `FLDP_TPCFG`. -/
def FLDP_TPCFG : Nat := 0x4000C028

/-- `FLDP_TPCFG.TPEN`. -/
def FLDP_TPCFG_TPEN : Fld := ⟨FLDP_TPCFG, 16, 8⟩

/-- `FLDP_TPCFG.TPP`. -/
def FLDP_TPCFG_TPP : Fld := ⟨FLDP_TPCFG, 8, 8⟩

/-- `FLDP_TPCFG.TPW`. -/
def FLDP_TPCFG_TPW : Fld := ⟨FLDP_TPCFG, 0, 3⟩

/-- Address of `FLDP_INCFG`. -/
def FLDP_INCFG (i : Nat) : Nat := 0x4000C100 + 4 * i

/-- `FLDP_INCFG.PAIRV`. -/
def FLDP_INCFG_PAIRV (i : Nat) : Fld := ⟨FLDP_INCFG i, 21, 1⟩

/-- `FLDP_INCFG.PAIR`. -/
def FLDP_INCFG_PAIR (i : Nat) : Fld := ⟨FLDP_INCFG i, 16, 5⟩

/-- `FLDP_INCFG.TPEN`. -/
def FLDP_INCFG_TPEN (i : Nat) : Fld := ⟨FLDP_INCFG i, 15, 1⟩

/-- `FLDP_INCFG.TPSRC`. -/
def FLDP_INCFG_TPSRC (i : Nat) : Fld := ⟨FLDP_INCFG i, 12, 3⟩

/-- `FLDP_INCFG.WBEN`. -/
def FLDP_INCFG_WBEN (i : Nat) : Fld := ⟨FLDP_INCFG i, 8, 1⟩

/-- `FLDP_INCFG.TYPE`. -/
def FLDP_INCFG_TYPE (i : Nat) : Fld := ⟨FLDP_INCFG i, 4, 1⟩

/-- `FLDP_INCFG.DEB`. -/
def FLDP_INCFG_DEB (i : Nat) : Fld := ⟨FLDP_INCFG i, 0, 4⟩

/-- Address of `FLDP_QCFG`. -/
def FLDP_QCFG (i : Nat) : Nat := 0x4000C200 + 4 * i

/-- `FLDP_QCFG.OTW`. -/
def FLDP_QCFG_OTW (i : Nat) : Fld := ⟨FLDP_QCFG i, 16, 3⟩

/-- `FLDP_QCFG.OTI`. -/
def FLDP_QCFG_OTI (i : Nat) : Fld := ⟨FLDP_QCFG i, 8, 8⟩

/-- `FLDP_QCFG.OTEN`. -/
def FLDP_QCFG_OTEN (i : Nat) : Fld := ⟨FLDP_QCFG i, 7, 1⟩

/-- `FLDP_QCFG.OLEN`. -/
def FLDP_QCFG_OLEN (i : Nat) : Fld := ⟨FLDP_QCFG i, 6, 1⟩

/-- `FLDP_QCFG.SLOPE`. -/
def FLDP_QCFG_SLOPE (i : Nat) : Fld := ⟨FLDP_QCFG i, 4, 2⟩

/-- `FLDP_QCFG.TWOP`. -/
def FLDP_QCFG_TWOP (i : Nat) : Fld := ⟨FLDP_QCFG i, 1, 1⟩

/-- Address of `FLDP_FRAME`. -/
def FLDP_FRAME (i : Nat) : Nat := 0x4000C400 + 4 * i


/-! RING registers, hub (Zewa Rings). -/

/-- Address of `RING_RTBASE`. -/
def RING_RTBASE : Nat := 0x40004000

/-- `RING_RTBASE.BASE`. -/
def RING_RTBASE_BASE : Fld := ⟨RING_RTBASE, 12, 20⟩

/-- Address of `RING_GSTAT`. -/
def RING_GSTAT : Nat := 0x40004004

/-- `RING_GSTAT.BUSY`. -/
def RING_GSTAT_BUSY : Fld := ⟨RING_GSTAT, 8, 1⟩

/-- `RING_GSTAT.RVALID`. -/
def RING_GSTAT_RVALID : Fld := ⟨RING_GSTAT, 0, 8⟩

/-- Address of `RING_GCTRL`. -/
def RING_GCTRL : Nat := 0x40004008

/-- `RING_GCTRL.CHECK`. -/
def RING_GCTRL_CHECK : Fld := ⟨RING_GCTRL, 0, 1⟩

/-- Address of `RING_CTRL`. -/
def RING_CTRL (i : Nat) : Nat := 0x40004100 + 0x100 * i

/-- `RING_CTRL.HOLDWRAP`. -/
def RING_CTRL_HOLDWRAP (i : Nat) : Fld := ⟨RING_CTRL i, 8, 1⟩

/-- `RING_CTRL.RSTART`. -/
def RING_CTRL_RSTART (i : Nat) : Fld := ⟨RING_CTRL i, 4, 3⟩

/-- `RING_CTRL.ROLE`. -/
def RING_CTRL_ROLE (i : Nat) : Fld := ⟨RING_CTRL i, 1, 2⟩

/-- `RING_CTRL.EN`. -/
def RING_CTRL_EN (i : Nat) : Fld := ⟨RING_CTRL i, 0, 1⟩

/-- Address of `RING_CMD`. -/
def RING_CMD (i : Nat) : Nat := 0x40004104 + 0x100 * i

/-- `RING_CMD.TRATING`. -/
def RING_CMD_TRATING (i : Nat) : Fld := ⟨RING_CMD i, 4, 3⟩

/-- `RING_CMD.CANCEL`. -/
def RING_CMD_CANCEL (i : Nat) : Fld := ⟨RING_CMD i, 2, 1⟩

/-- `RING_CMD.ANNOUNCE`. -/
def RING_CMD_ANNOUNCE (i : Nat) : Fld := ⟨RING_CMD i, 1, 1⟩

/-- `RING_CMD.RESTART`. -/
def RING_CMD_RESTART (i : Nat) : Fld := ⟨RING_CMD i, 0, 1⟩

/-- Address of `RING_STAT`. -/
def RING_STAT (i : Nat) : Nat := 0x40004108 + 0x100 * i

/-- `RING_STAT.ABN`. -/
def RING_STAT_ABN (i : Nat) : Fld := ⟨RING_STAT i, 17, 3⟩

/-- `RING_STAT.UNMANNED`. -/
def RING_STAT_UNMANNED (i : Nat) : Fld := ⟨RING_STAT i, 16, 1⟩

/-- `RING_STAT.MASTER_LOST`. -/
def RING_STAT_MASTER_LOST (i : Nat) : Fld := ⟨RING_STAT i, 15, 1⟩

/-- `RING_STAT.CHG_ABN`. -/
def RING_STAT_CHG_ABN (i : Nat) : Fld := ⟨RING_STAT i, 14, 1⟩

/-- `RING_STAT.CHG_DONE`. -/
def RING_STAT_CHG_DONE (i : Nat) : Fld := ⟨RING_STAT i, 13, 1⟩

/-- `RING_STAT.CHG_PEND`. -/
def RING_STAT_CHG_PEND (i : Nat) : Fld := ⟨RING_STAT i, 12, 1⟩

/-- `RING_STAT.LOSW`. -/
def RING_STAT_LOSW (i : Nat) : Fld := ⟨RING_STAT i, 11, 1⟩

/-- `RING_STAT.LOSE`. -/
def RING_STAT_LOSE (i : Nat) : Fld := ⟨RING_STAT i, 10, 1⟩

/-- `RING_STAT.SPLIT`. -/
def RING_STAT_SPLIT (i : Nat) : Fld := ⟨RING_STAT i, 9, 1⟩

/-- `RING_STAT.WRAP`. -/
def RING_STAT_WRAP (i : Nat) : Fld := ⟨RING_STAT i, 8, 1⟩

/-- `RING_STAT.RATING`. -/
def RING_STAT_RATING (i : Nat) : Fld := ⟨RING_STAT i, 4, 3⟩

/-- `RING_STAT.STATE`. -/
def RING_STAT_STATE (i : Nat) : Fld := ⟨RING_STAT i, 0, 3⟩

/-- Address of `RING_CYCLE`. -/
def RING_CYCLE (i : Nat) : Nat := 0x4000410C + 0x100 * i

/-- Address of `RING_CLAIM`. -/
def RING_CLAIM (i : Nat) : Nat := 0x40004110 + 0x100 * i

/-- Address of `RING_LOOP`. -/
def RING_LOOP (i : Nat) : Nat := 0x40004114 + 0x100 * i

/-- `RING_LOOP.LOOP`. -/
def RING_LOOP_LOOP (i : Nat) : Fld := ⟨RING_LOOP i, 0, 20⟩

/-- Address of `RING_BRK`. -/
def RING_BRK (i : Nat) : Nat := 0x40004118 + 0x100 * i

/-- `RING_BRK.V1`. -/
def RING_BRK_V1 (i : Nat) : Fld := ⟨RING_BRK i, 31, 1⟩

/-- `RING_BRK.V2`. -/
def RING_BRK_V2 (i : Nat) : Fld := ⟨RING_BRK i, 30, 1⟩

/-- `RING_BRK.HI2`. -/
def RING_BRK_HI2 (i : Nat) : Fld := ⟨RING_BRK i, 21, 7⟩

/-- `RING_BRK.LO2`. -/
def RING_BRK_LO2 (i : Nat) : Fld := ⟨RING_BRK i, 14, 7⟩

/-- `RING_BRK.HI1`. -/
def RING_BRK_HI1 (i : Nat) : Fld := ⟨RING_BRK i, 7, 7⟩

/-- `RING_BRK.LO1`. -/
def RING_BRK_LO1 (i : Nat) : Fld := ⟨RING_BRK i, 0, 7⟩

/-- Address of `RING_PRESLO`. -/
def RING_PRESLO (i : Nat) : Nat := 0x4000411C + 0x100 * i

/-- Address of `RING_PRESHI`. -/
def RING_PRESHI (i : Nat) : Nat := 0x40004120 + 0x100 * i

/-- Address of `RING_ACKLO`. -/
def RING_ACKLO (i : Nat) : Nat := 0x40004124 + 0x100 * i

/-- Address of `RING_ACKHI`. -/
def RING_ACKHI (i : Nat) : Nat := 0x40004128 + 0x100 * i

/-- Address of `RING_ERR`. -/
def RING_ERR (i : Nat) : Nat := 0x4000412C + 0x100 * i

/-- `RING_ERR.CRCERR`. -/
def RING_ERR_CRCERR (i : Nat) : Fld := ⟨RING_ERR i, 16, 16⟩

/-- `RING_ERR.CVERR`. -/
def RING_ERR_CVERR (i : Nat) : Fld := ⟨RING_ERR i, 8, 8⟩

/-- `RING_ERR.LOSCNT`. -/
def RING_ERR_LOSCNT (i : Nat) : Fld := ⟨RING_ERR i, 0, 8⟩


/-! PTNR registers, hub (Active and Standby). -/

/-- Address of `PTNR_STAT`. -/
def PTNR_STAT : Nat := 0x40005000

/-- `PTNR_STAT.CLAIM_LOST`. -/
def PTNR_STAT_CLAIM_LOST : Fld := ⟨PTNR_STAT, 9, 1⟩

/-- `PTNR_STAT.CLAIM_END`. -/
def PTNR_STAT_CLAIM_END : Fld := ⟨PTNR_STAT, 8, 1⟩

/-- `PTNR_STAT.CMP_ERR`. -/
def PTNR_STAT_CMP_ERR : Fld := ⟨PTNR_STAT, 7, 1⟩

/-- `PTNR_STAT.READY`. -/
def PTNR_STAT_READY : Fld := ⟨PTNR_STAT, 6, 1⟩

/-- `PTNR_STAT.PEER_READY`. -/
def PTNR_STAT_PEER_READY : Fld := ⟨PTNR_STAT, 5, 1⟩

/-- `PTNR_STAT.UP1`. -/
def PTNR_STAT_UP1 : Fld := ⟨PTNR_STAT, 4, 1⟩

/-- `PTNR_STAT.UP0`. -/
def PTNR_STAT_UP0 : Fld := ⟨PTNR_STAT, 3, 1⟩

/-- `PTNR_STAT.ROLE`. -/
def PTNR_STAT_ROLE : Fld := ⟨PTNR_STAT, 0, 3⟩

/-- Address of `PTNR_CLAIM`. -/
def PTNR_CLAIM : Nat := 0x40005004

/-- Address of `PTNR_CNT`. -/
def PTNR_CNT : Nat := 0x40005008

/-- `PTNR_CNT.TAKE`. -/
def PTNR_CNT_TAKE : Fld := ⟨PTNR_CNT, 24, 8⟩

/-- `PTNR_CNT.YIELD`. -/
def PTNR_CNT_YIELD : Fld := ⟨PTNR_CNT, 16, 8⟩

/-- `PTNR_CNT.HBMISS`. -/
def PTNR_CNT_HBMISS : Fld := ⟨PTNR_CNT, 8, 8⟩

/-- `PTNR_CNT.CMPFAIL`. -/
def PTNR_CNT_CMPFAIL : Fld := ⟨PTNR_CNT, 0, 8⟩

/-- Address of `PTNR_RESYNC`. -/
def PTNR_RESYNC : Nat := 0x4000500C

/-- `PTNR_RESYNC.PAGES`. -/
def PTNR_RESYNC_PAGES : Fld := ⟨PTNR_RESYNC, 16, 16⟩

/-- `PTNR_RESYNC.PASSES`. -/
def PTNR_RESYNC_PASSES : Fld := ⟨PTNR_RESYNC, 0, 8⟩


/-! HCMD registers, hub (Host Command Interface). -/

/-- Address of `HCMD_ID`. -/
def HCMD_ID : Nat := 0x40100000

/-- `HCMD_ID.VER`. -/
def HCMD_ID_VER : Fld := ⟨HCMD_ID, 16, 16⟩

/-- `HCMD_ID.VAR`. -/
def HCMD_ID_VAR : Fld := ⟨HCMD_ID, 0, 8⟩

/-- Address of `HCMD_STAT`. -/
def HCMD_STAT : Nat := 0x40100004

/-- `HCMD_STAT.EPOCH`. -/
def HCMD_STAT_EPOCH : Fld := ⟨HCMD_STAT, 16, 16⟩

/-- `HCMD_STAT.QFULL`. -/
def HCMD_STAT_QFULL : Fld := ⟨HCMD_STAT, 12, 4⟩

/-- `HCMD_STAT.SPI_ERR`. -/
def HCMD_STAT_SPI_ERR : Fld := ⟨HCMD_STAT, 7, 1⟩

/-- `HCMD_STAT.WIN_ERR`. -/
def HCMD_STAT_WIN_ERR : Fld := ⟨HCMD_STAT, 6, 1⟩

/-- `HCMD_STAT.DB_ERR`. -/
def HCMD_STAT_DB_ERR : Fld := ⟨HCMD_STAT, 5, 1⟩

/-- `HCMD_STAT.HOSTSPI`. -/
def HCMD_STAT_HOSTSPI : Fld := ⟨HCMD_STAT, 4, 1⟩

/-- `HCMD_STAT.FAULT`. -/
def HCMD_STAT_FAULT : Fld := ⟨HCMD_STAT, 1, 1⟩

/-- `HCMD_STAT.READY`. -/
def HCMD_STAT_READY : Fld := ⟨HCMD_STAT, 0, 1⟩

/-- Address of `HCMD_CTRL`. -/
def HCMD_CTRL : Nat := 0x40100008

/-- `HCMD_CTRL.KEY`. -/
def HCMD_CTRL_KEY : Fld := ⟨HCMD_CTRL, 16, 16⟩

/-- `HCMD_CTRL.IE_STAT`. -/
def HCMD_CTRL_IE_STAT : Fld := ⟨HCMD_CTRL, 7, 1⟩

/-- `HCMD_CTRL.PWRCYC`. -/
def HCMD_CTRL_PWRCYC : Fld := ⟨HCMD_CTRL, 1, 1⟩

/-- `HCMD_CTRL.DEVRST`. -/
def HCMD_CTRL_DEVRST : Fld := ⟨HCMD_CTRL, 0, 1⟩

/-- Address of `HCMD_POISON`. -/
def HCMD_POISON (i : Nat) : Nat := 0x40100010 + 4 * i

/-- `HCMD_POISON.PCLS`. -/
def HCMD_POISON_PCLS (i : Nat) : Fld := ⟨HCMD_POISON i, 1, 11⟩

/-- Address of `HCMD_QCNT`. -/
def HCMD_QCNT (i : Nat) : Nat := 0x40100020 + 4 * i

/-- `HCMD_QCNT.INFL`. -/
def HCMD_QCNT_INFL (i : Nat) : Fld := ⟨HCMD_QCNT i, 16, 9⟩

/-- `HCMD_QCNT.ACT`. -/
def HCMD_QCNT_ACT (i : Nat) : Fld := ⟨HCMD_QCNT i, 0, 7⟩

/-- Address of `HCMD_SEQ`. -/
def HCMD_SEQ : Nat := 0x40100030

/-- Address of `HCMD_SQDB`. -/
def HCMD_SQDB (i : Nat) : Nat := 0x40101000 + 8 * i

/-- `HCMD_SQDB.SLOT`. -/
def HCMD_SQDB_SLOT (i : Nat) : Fld := ⟨HCMD_SQDB i, 0, 8⟩

/-- Address of `HCMD_CQHD`. -/
def HCMD_CQHD (i : Nat) : Nat := 0x40101004 + 8 * i

/-- `HCMD_CQHD.HEAD`. -/
def HCMD_CQHD_HEAD (i : Nat) : Fld := ⟨HCMD_CQHD i, 0, 9⟩


/-! BRG registers, lane (Lane Bridges). -/

/-- Address of `BRG_CFG`. -/
def BRG_CFG : Nat := 0x4000B000

/-- `BRG_CFG.WTMO`. -/
def BRG_CFG_WTMO : Fld := ⟨BRG_CFG, 16, 8⟩

/-- `BRG_CFG.RTMO`. -/
def BRG_CFG_RTMO : Fld := ⟨BRG_CFG, 8, 8⟩

/-- `BRG_CFG.RTRY`. -/
def BRG_CFG_RTRY : Fld := ⟨BRG_CFG, 4, 2⟩

/-- `BRG_CFG.HELD`. -/
def BRG_CFG_HELD : Fld := ⟨BRG_CFG, 0, 1⟩

/-- Address of `BRG_STAT`. -/
def BRG_STAT : Nat := 0x4000B004

/-- `BRG_STAT.POISON`. -/
def BRG_STAT_POISON : Fld := ⟨BRG_STAT, 24, 8⟩

/-- `BRG_STAT.OUT`. -/
def BRG_STAT_OUT : Fld := ⟨BRG_STAT, 16, 7⟩

/-- `BRG_STAT.EQN`. -/
def BRG_STAT_EQN : Fld := ⟨BRG_STAT, 11, 5⟩

/-- `BRG_STAT.HUBRST`. -/
def BRG_STAT_HUBRST : Fld := ⟨BRG_STAT, 5, 1⟩

/-- `BRG_STAT.CFG_ERR`. -/
def BRG_STAT_CFG_ERR : Fld := ⟨BRG_STAT, 4, 1⟩

/-- `BRG_STAT.LATE`. -/
def BRG_STAT_LATE : Fld := ⟨BRG_STAT, 3, 1⟩

/-- `BRG_STAT.HMSG_OVF`. -/
def BRG_STAT_HMSG_OVF : Fld := ⟨BRG_STAT, 2, 1⟩

/-- `BRG_STAT.EQ_OVF`. -/
def BRG_STAT_EQ_OVF : Fld := ⟨BRG_STAT, 1, 1⟩

/-- `BRG_STAT.HUBUP`. -/
def BRG_STAT_HUBUP : Fld := ⟨BRG_STAT, 0, 1⟩

/-- Address of `BRG_RESUME`. -/
def BRG_RESUME : Nat := 0x4000B008

/-- `BRG_RESUME.WIN`. -/
def BRG_RESUME_WIN : Fld := ⟨BRG_RESUME, 0, 8⟩

/-- Address of `BRG_EQ_INFO`. -/
def BRG_EQ_INFO : Nat := 0x4000B00C

/-- `BRG_EQ_INFO.VALID`. -/
def BRG_EQ_INFO_VALID : Fld := ⟨BRG_EQ_INFO, 31, 1⟩

/-- `BRG_EQ_INFO.NDISC`. -/
def BRG_EQ_INFO_NDISC : Fld := ⟨BRG_EQ_INFO, 16, 8⟩

/-- `BRG_EQ_INFO.CODE`. -/
def BRG_EQ_INFO_CODE : Fld := ⟨BRG_EQ_INFO, 8, 4⟩

/-- `BRG_EQ_INFO.DIR`. -/
def BRG_EQ_INFO_DIR : Fld := ⟨BRG_EQ_INFO, 7, 1⟩

/-- `BRG_EQ_INFO.WIN`. -/
def BRG_EQ_INFO_WIN : Fld := ⟨BRG_EQ_INFO, 0, 3⟩

/-- Address of `BRG_EQ_ADDR`. -/
def BRG_EQ_ADDR : Nat := 0x4000B010

/-- Address of `BRG_EQ_POP`. -/
def BRG_EQ_POP : Nat := 0x4000B014

/-- `BRG_EQ_POP.POP`. -/
def BRG_EQ_POP_POP : Fld := ⟨BRG_EQ_POP, 0, 1⟩

/-- Address of `BRG_CNT`. -/
def BRG_CNT : Nat := 0x4000B018

/-- `BRG_CNT.XRETRY`. -/
def BRG_CNT_XRETRY : Fld := ⟨BRG_CNT, 24, 8⟩

/-- `BRG_CNT.LATEN`. -/
def BRG_CNT_LATEN : Fld := ⟨BRG_CNT, 16, 8⟩

/-- `BRG_CNT.RDERR`. -/
def BRG_CNT_RDERR : Fld := ⟨BRG_CNT, 0, 16⟩

/-- Address of `BRG_MSG`. -/
def BRG_MSG : Nat := 0x4000B01C

/-- `BRG_MSG.CODE`. -/
def BRG_MSG_CODE : Fld := ⟨BRG_MSG, 24, 8⟩

/-- `BRG_MSG.DATA`. -/
def BRG_MSG_DATA : Fld := ⟨BRG_MSG, 0, 24⟩

/-- Address of `BRG_HMSG`. -/
def BRG_HMSG : Nat := 0x4000B020

/-- `BRG_HMSG.CODE`. -/
def BRG_HMSG_CODE : Fld := ⟨BRG_HMSG, 24, 8⟩

/-- `BRG_HMSG.DATA`. -/
def BRG_HMSG_DATA : Fld := ⟨BRG_HMSG, 0, 24⟩

/-- Address of `BRG_HMSG_POP`. -/
def BRG_HMSG_POP : Nat := 0x4000B024

/-- `BRG_HMSG_POP.POP`. -/
def BRG_HMSG_POP_POP : Fld := ⟨BRG_HMSG_POP, 0, 1⟩

/-- Address of `BRG_HBASE`. -/
def BRG_HBASE : Nat := 0x4000B028

/-- `BRG_HBASE.BASE`. -/
def BRG_HBASE_BASE : Fld := ⟨BRG_HBASE, 18, 14⟩

/-- `BRG_HBASE.EN`. -/
def BRG_HBASE_EN : Fld := ⟨BRG_HBASE, 0, 1⟩

/-- Address of `BRG_MAP`. -/
def BRG_MAP (i : Nat) : Nat := 0x4000B040 + 4 * i

/-- `BRG_MAP.HADDR`. -/
def BRG_MAP_HADDR (i : Nat) : Fld := ⟨BRG_MAP i, 23, 9⟩

/-- `BRG_MAP.WEN`. -/
def BRG_MAP_WEN (i : Nat) : Fld := ⟨BRG_MAP i, 1, 1⟩

/-- `BRG_MAP.EN`. -/
def BRG_MAP_EN (i : Nat) : Fld := ⟨BRG_MAP i, 0, 1⟩

/-- Address of `BRG_SEM`. -/
def BRG_SEM (i : Nat) : Nat := 0x4000B100 + 4 * i

/-- `BRG_SEM.GIVE`. -/
def BRG_SEM_GIVE (i : Nat) : Fld := ⟨BRG_SEM i, 9, 1⟩

/-- `BRG_SEM.TAKE`. -/
def BRG_SEM_TAKE (i : Nat) : Fld := ⟨BRG_SEM i, 8, 1⟩

/-- `BRG_SEM.OWNER`. -/
def BRG_SEM_OWNER (i : Nat) : Fld := ⟨BRG_SEM i, 0, 2⟩


/-! SGW registers, hub (Signal Gateway). -/

/-- Address of `SGW_CTRL`. -/
def SGW_CTRL : Nat := 0x40007000

/-- `SGW_CTRL.LOAD`. -/
def SGW_CTRL_LOAD : Fld := ⟨SGW_CTRL, 1, 1⟩

/-- `SGW_CTRL.EN`. -/
def SGW_CTRL_EN : Fld := ⟨SGW_CTRL, 0, 1⟩

/-- Address of `SGW_STAT`. -/
def SGW_STAT : Nat := 0x40007004

/-- `SGW_STAT.LOADED`. -/
def SGW_STAT_LOADED : Fld := ⟨SGW_STAT, 31, 1⟩

/-- `SGW_STAT.LOAD_ERR`. -/
def SGW_STAT_LOAD_ERR : Fld := ⟨SGW_STAT, 30, 1⟩

/-- `SGW_STAT.IGN`. -/
def SGW_STAT_IGN : Fld := ⟨SGW_STAT, 29, 1⟩

/-- `SGW_STAT.ERRKIND`. -/
def SGW_STAT_ERRKIND : Fld := ⟨SGW_STAT, 24, 1⟩

/-- `SGW_STAT.ERRCODE`. -/
def SGW_STAT_ERRCODE : Fld := ⟨SGW_STAT, 16, 4⟩

/-- `SGW_STAT.ERRIDX`. -/
def SGW_STAT_ERRIDX : Fld := ⟨SGW_STAT, 0, 10⟩

/-- Address of `SGW_MBASE`. -/
def SGW_MBASE : Nat := 0x40007008

/-- `SGW_MBASE.BASE`. -/
def SGW_MBASE_BASE : Fld := ⟨SGW_MBASE, 12, 20⟩

/-- Address of `SGW_CANCFG`. -/
def SGW_CANCFG (i : Nat) : Nat := 0x40007100 + 0x20 * i

/-- `SGW_CANCFG.EN`. -/
def SGW_CANCFG_EN (i : Nat) : Fld := ⟨SGW_CANCFG i, 9, 1⟩

/-- `SGW_CANCFG.FDEN`. -/
def SGW_CANCFG_FDEN (i : Nat) : Fld := ⟨SGW_CANCFG i, 8, 1⟩

/-- `SGW_CANCFG.DBR`. -/
def SGW_CANCFG_DBR (i : Nat) : Fld := ⟨SGW_CANCFG i, 4, 2⟩

/-- `SGW_CANCFG.NBR`. -/
def SGW_CANCFG_NBR (i : Nat) : Fld := ⟨SGW_CANCFG i, 0, 2⟩

/-- Address of `SGW_CANSTAT`. -/
def SGW_CANSTAT (i : Nat) : Nat := 0x40007104 + 0x20 * i

/-- `SGW_CANSTAT.TEC`. -/
def SGW_CANSTAT_TEC (i : Nat) : Fld := ⟨SGW_CANSTAT i, 24, 8⟩

/-- `SGW_CANSTAT.REC`. -/
def SGW_CANSTAT_REC (i : Nat) : Fld := ⟨SGW_CANSTAT i, 16, 8⟩

/-- `SGW_CANSTAT.STATE`. -/
def SGW_CANSTAT_STATE (i : Nat) : Fld := ⟨SGW_CANSTAT i, 8, 2⟩

/-- `SGW_CANSTAT.BOFF`. -/
def SGW_CANSTAT_BOFF (i : Nat) : Fld := ⟨SGW_CANSTAT i, 0, 8⟩

/-- Address of `SGW_CANCNT`. -/
def SGW_CANCNT (i : Nat) : Nat := 0x40007108 + 0x20 * i

/-- `SGW_CANCNT.RXDROP`. -/
def SGW_CANCNT_RXDROP (i : Nat) : Fld := ⟨SGW_CANCNT i, 16, 16⟩

/-- `SGW_CANCNT.SAT`. -/
def SGW_CANCNT_SAT (i : Nat) : Fld := ⟨SGW_CANCNT i, 8, 8⟩

/-- `SGW_CANCNT.SHORT`. -/
def SGW_CANCNT_SHORT (i : Nat) : Fld := ⟨SGW_CANCNT i, 0, 8⟩


/-! LCTL registers, lane (Lane Processors, On-Chip Memory). -/

/-- Address of `LCTL_MEMSTAT`. -/
def LCTL_MEMSTAT : Nat := 0x40000020

/-- `LCTL_MEMSTAT.CECNT`. -/
def LCTL_MEMSTAT_CECNT : Fld := ⟨LCTL_MEMSTAT, 16, 16⟩

/-- `LCTL_MEMSTAT.MBXCOLL`. -/
def LCTL_MEMSTAT_MBXCOLL : Fld := ⟨LCTL_MEMSTAT, 8, 8⟩

/-- `LCTL_MEMSTAT.REP_FAIL`. -/
def LCTL_MEMSTAT_REP_FAIL : Fld := ⟨LCTL_MEMSTAT, 3, 1⟩

/-- `LCTL_MEMSTAT.UE`. -/
def LCTL_MEMSTAT_UE : Fld := ⟨LCTL_MEMSTAT, 2, 1⟩

/-- `LCTL_MEMSTAT.MBX_BUSY`. -/
def LCTL_MEMSTAT_MBX_BUSY : Fld := ⟨LCTL_MEMSTAT, 1, 1⟩

/-- `LCTL_MEMSTAT.CE`. -/
def LCTL_MEMSTAT_CE : Fld := ⟨LCTL_MEMSTAT, 0, 1⟩

/-- Address of `LCTL_ECCADDR`. -/
def LCTL_ECCADDR : Nat := 0x40000024

/-- `LCTL_ECCADDR.ADDR`. -/
def LCTL_ECCADDR_ADDR : Fld := ⟨LCTL_ECCADDR, 2, 30⟩

/-- `LCTL_ECCADDR.KIND`. -/
def LCTL_ECCADDR_KIND : Fld := ⟨LCTL_ECCADDR, 1, 1⟩

/-- Address of `LCTL_REPAIR`. -/
def LCTL_REPAIR : Nat := 0x40000028


/-! HSRAM registers, hub (On-Chip Memory). -/

/-- Address of `HSRAM_STAT`. -/
def HSRAM_STAT : Nat := 0x40000000

/-- `HSRAM_STAT.CECNT`. -/
def HSRAM_STAT_CECNT : Fld := ⟨HSRAM_STAT, 16, 16⟩

/-- `HSRAM_STAT.RFAIL`. -/
def HSRAM_STAT_RFAIL : Fld := ⟨HSRAM_STAT, 12, 4⟩

/-- `HSRAM_STAT.RVALID`. -/
def HSRAM_STAT_RVALID : Fld := ⟨HSRAM_STAT, 8, 4⟩

/-- `HSRAM_STAT.FROZEN`. -/
def HSRAM_STAT_FROZEN : Fld := ⟨HSRAM_STAT, 7, 1⟩

/-- `HSRAM_STAT.FRZ_DROP`. -/
def HSRAM_STAT_FRZ_DROP : Fld := ⟨HSRAM_STAT, 6, 1⟩

/-- `HSRAM_STAT.UNREP`. -/
def HSRAM_STAT_UNREP : Fld := ⟨HSRAM_STAT, 5, 1⟩

/-- `HSRAM_STAT.UE`. -/
def HSRAM_STAT_UE : Fld := ⟨HSRAM_STAT, 2, 1⟩

/-- `HSRAM_STAT.CE`. -/
def HSRAM_STAT_CE : Fld := ⟨HSRAM_STAT, 1, 1⟩

/-- Address of `HSRAM_ECCADDR`. -/
def HSRAM_ECCADDR : Nat := 0x40000004

/-- `HSRAM_ECCADDR.ADDR`. -/
def HSRAM_ECCADDR_ADDR : Fld := ⟨HSRAM_ECCADDR, 2, 30⟩

/-- `HSRAM_ECCADDR.KIND`. -/
def HSRAM_ECCADDR_KIND : Fld := ⟨HSRAM_ECCADDR, 1, 1⟩

/-- Address of `HSRAM_MBX`. -/
def HSRAM_MBX (i : Nat) : Nat := 0x40000010 + 4 * i

/-- `HSRAM_MBX.COLL`. -/
def HSRAM_MBX_COLL (i : Nat) : Fld := ⟨HSRAM_MBX i, 16, 16⟩

/-- `HSRAM_MBX.UECNT`. -/
def HSRAM_MBX_UECNT (i : Nat) : Fld := ⟨HSRAM_MBX i, 8, 8⟩

/-- `HSRAM_MBX.BUSY`. -/
def HSRAM_MBX_BUSY (i : Nat) : Fld := ⟨HSRAM_MBX i, 0, 1⟩

/-- Address of `HSRAM_HOST`. -/
def HSRAM_HOST : Nat := 0x4000001C

/-- `HSRAM_HOST.COLL`. -/
def HSRAM_HOST_COLL : Fld := ⟨HSRAM_HOST, 16, 16⟩

/-- `HSRAM_HOST.UECNT`. -/
def HSRAM_HOST_UECNT : Fld := ⟨HSRAM_HOST, 8, 8⟩

/-- `HSRAM_HOST.BUSY`. -/
def HSRAM_HOST_BUSY : Fld := ⟨HSRAM_HOST, 0, 1⟩

/-- Address of `HSRAM_RSEQ`. -/
def HSRAM_RSEQ : Nat := 0x40000020

/-- Address of `HSRAM_RSIG`. -/
def HSRAM_RSIG (i : Nat) : Nat := 0x40000030 + 4 * i


/-! REC registers, hub (Event Recorder). -/

/-- Address of `REC_HEAD`. -/
def REC_HEAD : Nat := 0x40001000

/-- Address of `REC_FLUSHED`. -/
def REC_FLUSHED : Nat := 0x40001004

/-- Address of `REC_STAT`. -/
def REC_STAT : Nat := 0x40001008

/-- `REC_STAT.DROPCNT`. -/
def REC_STAT_DROPCNT : Fld := ⟨REC_STAT, 16, 16⟩

/-- `REC_STAT.TAIL_FAIL`. -/
def REC_STAT_TAIL_FAIL : Fld := ⟨REC_STAT, 2, 1⟩

/-- `REC_STAT.THROTTLE`. -/
def REC_STAT_THROTTLE : Fld := ⟨REC_STAT, 1, 1⟩

/-- `REC_STAT.RUN`. -/
def REC_STAT_RUN : Fld := ⟨REC_STAT, 0, 1⟩


/-! CRC registers, lane (Check-Value Units). -/

/-- Address of `CRC_CTRL`. -/
def CRC_CTRL : Nat := 0x40003000

/-- `CRC_CTRL.START`. -/
def CRC_CTRL_START : Fld := ⟨CRC_CTRL, 8, 1⟩

/-- `CRC_CTRL.SEED`. -/
def CRC_CTRL_SEED : Fld := ⟨CRC_CTRL, 3, 1⟩

/-- `CRC_CTRL.ALG`. -/
def CRC_CTRL_ALG : Fld := ⟨CRC_CTRL, 0, 3⟩


/-! CRC registers, hub CRC unit u (Check-Value Units). -/

/-- Address of `HCRC_CTRL`. -/
def HCRC_CTRL (u : Nat) : Nat := 0x40002000 + 0x1000 * u

/-- `HCRC_CTRL.START`. -/
def HCRC_CTRL_START (u : Nat) : Fld := ⟨HCRC_CTRL u, 8, 1⟩

/-- `HCRC_CTRL.SEED`. -/
def HCRC_CTRL_SEED (u : Nat) : Fld := ⟨HCRC_CTRL u, 3, 1⟩

/-- `HCRC_CTRL.ALG`. -/
def HCRC_CTRL_ALG (u : Nat) : Fld := ⟨HCRC_CTRL u, 0, 3⟩


/-! CRC registers, lane (Check-Value Units). -/

/-- Address of `CRC_INIT_LO`. -/
def CRC_INIT_LO : Nat := 0x40003004


/-! CRC registers, hub CRC unit u (Check-Value Units). -/

/-- Address of `HCRC_INIT_LO`. -/
def HCRC_INIT_LO (u : Nat) : Nat := 0x40002004 + 0x1000 * u


/-! CRC registers, lane (Check-Value Units). -/

/-- Address of `CRC_INIT_HI`. -/
def CRC_INIT_HI : Nat := 0x40003008


/-! CRC registers, hub CRC unit u (Check-Value Units). -/

/-- Address of `HCRC_INIT_HI`. -/
def HCRC_INIT_HI (u : Nat) : Nat := 0x40002008 + 0x1000 * u


/-! CRC registers, lane (Check-Value Units). -/

/-- Address of `CRC_DATA`. -/
def CRC_DATA : Nat := 0x4000300C


/-! CRC registers, hub CRC unit u (Check-Value Units). -/

/-- Address of `HCRC_DATA`. -/
def HCRC_DATA (u : Nat) : Nat := 0x4000200C + 0x1000 * u


/-! CRC registers, lane (Check-Value Units). -/

/-- Address of `CRC_RES_LO`. -/
def CRC_RES_LO : Nat := 0x40003010


/-! CRC registers, hub CRC unit u (Check-Value Units). -/

/-- Address of `HCRC_RES_LO`. -/
def HCRC_RES_LO (u : Nat) : Nat := 0x40002010 + 0x1000 * u


/-! CRC registers, lane (Check-Value Units). -/

/-- Address of `CRC_RES_HI`. -/
def CRC_RES_HI : Nat := 0x40003014


/-! CRC registers, hub CRC unit u (Check-Value Units). -/

/-- Address of `HCRC_RES_HI`. -/
def HCRC_RES_HI (u : Nat) : Nat := 0x40002014 + 0x1000 * u


/-! CRC registers, lane (Check-Value Units). -/

/-- Address of `CRC_OWNER`. -/
def CRC_OWNER : Nat := 0x40003018

/-- `CRC_OWNER.VALID`. -/
def CRC_OWNER_VALID : Fld := ⟨CRC_OWNER, 31, 1⟩

/-- `CRC_OWNER.REQ`. -/
def CRC_OWNER_REQ : Fld := ⟨CRC_OWNER, 8, 1⟩

/-- `CRC_OWNER.TASK`. -/
def CRC_OWNER_TASK : Fld := ⟨CRC_OWNER, 0, 8⟩


/-! CRC registers, hub CRC unit u (Check-Value Units). -/

/-- Address of `HCRC_OWNER`. -/
def HCRC_OWNER (u : Nat) : Nat := 0x40002018 + 0x1000 * u

/-- `HCRC_OWNER.VALID`. -/
def HCRC_OWNER_VALID (u : Nat) : Fld := ⟨HCRC_OWNER u, 31, 1⟩

/-- `HCRC_OWNER.REQ`. -/
def HCRC_OWNER_REQ (u : Nat) : Fld := ⟨HCRC_OWNER u, 8, 1⟩

/-- `HCRC_OWNER.TASK`. -/
def HCRC_OWNER_TASK (u : Nat) : Fld := ⟨HCRC_OWNER u, 0, 8⟩


/-! CRC registers, lane (Check-Value Units). -/

/-- Address of `CRC_CUR`. -/
def CRC_CUR : Nat := 0x4000301C

/-- `CRC_CUR.TASK`. -/
def CRC_CUR_TASK : Fld := ⟨CRC_CUR, 0, 8⟩


/-! CRC registers, hub CRC unit u (Check-Value Units). -/

/-- Address of `HCRC_CUR`. -/
def HCRC_CUR (u r : Nat) : Nat := 0x4000201C + 0x1000 * u + 4 * r

/-- `HCRC_CUR.TASK`. -/
def HCRC_CUR_TASK (u r : Nat) : Fld := ⟨HCRC_CUR u r, 0, 8⟩


/-! CRC registers, lane (Check-Value Units). -/

/-- Address of `CRC_STAT`. -/
def CRC_STAT : Nat := 0x40003024

/-- `CRC_STAT.ALG_ERR`. -/
def CRC_STAT_ALG_ERR : Fld := ⟨CRC_STAT, 1, 1⟩

/-- `CRC_STAT.OWN_ERR`. -/
def CRC_STAT_OWN_ERR : Fld := ⟨CRC_STAT, 0, 1⟩


/-! CRC registers, hub CRC unit u (Check-Value Units). -/

/-- Address of `HCRC_STAT`. -/
def HCRC_STAT (u : Nat) : Nat := 0x40002024 + 0x1000 * u

/-- `HCRC_STAT.ALG_ERR`. -/
def HCRC_STAT_ALG_ERR (u : Nat) : Fld := ⟨HCRC_STAT u, 1, 1⟩

/-- `HCRC_STAT.OWN_ERR`. -/
def HCRC_STAT_OWN_ERR (u : Nat) : Fld := ⟨HCRC_STAT u, 0, 1⟩


/-! UPD registers, hub (Updates). -/

/-- Address of `UPD_STAT`. -/
def UPD_STAT : Nat := 0x40006000

/-- `UPD_STAT.SET_INCOMP`. -/
def UPD_STAT_SET_INCOMP : Fld := ⟨UPD_STAT, 18, 1⟩

/-- `UPD_STAT.REVERTED`. -/
def UPD_STAT_REVERTED : Fld := ⟨UPD_STAT, 17, 1⟩

/-- `UPD_STAT.PTR_LOST`. -/
def UPD_STAT_PTR_LOST : Fld := ⟨UPD_STAT, 16, 1⟩

/-- `UPD_STAT.STEP`. -/
def UPD_STAT_STEP : Fld := ⟨UPD_STAT, 13, 3⟩

/-- `UPD_STAT.PARTS`. -/
def UPD_STAT_PARTS : Fld := ⟨UPD_STAT, 8, 5⟩

/-- `UPD_STAT.TRIES`. -/
def UPD_STAT_TRIES : Fld := ⟨UPD_STAT, 6, 2⟩

/-- `UPD_STAT.TRIAL`. -/
def UPD_STAT_TRIAL : Fld := ⟨UPD_STAT, 2, 2⟩

/-- `UPD_STAT.ACTIVE`. -/
def UPD_STAT_ACTIVE : Fld := ⟨UPD_STAT, 0, 1⟩

/-- Address of `NVW_STAT`. -/
def NVW_STAT : Nat := 0x40006004

/-- `NVW_STAT.DEFCNT`. -/
def NVW_STAT_DEFCNT : Fld := ⟨NVW_STAT, 16, 16⟩

/-- `NVW_STAT.BUSY`. -/
def NVW_STAT_BUSY : Fld := ⟨NVW_STAT, 4, 1⟩

/-- `NVW_STAT.RES_LOW`. -/
def NVW_STAT_RES_LOW : Fld := ⟨NVW_STAT, 3, 1⟩

/-- `NVW_STAT.CVALID`. -/
def NVW_STAT_CVALID : Fld := ⟨NVW_STAT, 2, 1⟩

/-- `NVW_STAT.CFAIL`. -/
def NVW_STAT_CFAIL : Fld := ⟨NVW_STAT, 1, 1⟩

/-- `NVW_STAT.PF`. -/
def NVW_STAT_PF : Fld := ⟨NVW_STAT, 0, 1⟩

/-- Address of `NVW_ENERGY`. -/
def NVW_ENERGY : Nat := 0x40006008

/-- `NVW_ENERGY.CMEAS`. -/
def NVW_ENERGY_CMEAS : Fld := ⟨NVW_ENERGY, 16, 16⟩

/-- `NVW_ENERGY.EAVAIL`. -/
def NVW_ENERGY_EAVAIL : Fld := ⟨NVW_ENERGY, 0, 16⟩

/-- Address of `NVW_VSENSE`. -/
def NVW_VSENSE : Nat := 0x4000600C

/-- `NVW_VSENSE.VAVG`. -/
def NVW_VSENSE_VAVG : Fld := ⟨NVW_VSENSE, 16, 16⟩

/-- `NVW_VSENSE.CODE`. -/
def NVW_VSENSE_CODE : Fld := ⟨NVW_VSENSE, 0, 12⟩


/-! RSTC registers, lane (Clocks and Reset). -/

/-- Address of `RST_CAUSE`. -/
def RST_CAUSE : Nat := 0x40006000

/-- `RST_CAUSE.BORRAIL`. -/
def RST_CAUSE_BORRAIL : Fld := ⟨RST_CAUSE, 9, 3⟩

/-- `RST_CAUSE.WARM`. -/
def RST_CAUSE_WARM : Fld := ⟨RST_CAUSE, 8, 1⟩

/-- `RST_CAUSE.LOCKUP`. -/
def RST_CAUSE_LOCKUP : Fld := ⟨RST_CAUSE, 7, 1⟩

/-- `RST_CAUSE.CLKF`. -/
def RST_CAUSE_CLKF : Fld := ⟨RST_CAUSE, 6, 1⟩

/-- `RST_CAUSE.DBG`. -/
def RST_CAUSE_DBG : Fld := ⟨RST_CAUSE, 5, 1⟩

/-- `RST_CAUSE.SWR`. -/
def RST_CAUSE_SWR : Fld := ⟨RST_CAUSE, 4, 1⟩

/-- `RST_CAUSE.WDT`. -/
def RST_CAUSE_WDT : Fld := ⟨RST_CAUSE, 3, 1⟩

/-- `RST_CAUSE.PIN`. -/
def RST_CAUSE_PIN : Fld := ⟨RST_CAUSE, 2, 1⟩

/-- `RST_CAUSE.BOR`. -/
def RST_CAUSE_BOR : Fld := ⟨RST_CAUSE, 1, 1⟩

/-- `RST_CAUSE.POR`. -/
def RST_CAUSE_POR : Fld := ⟨RST_CAUSE, 0, 1⟩


/-! RSTC registers, hub (Clocks and Reset). -/

/-- Address of `HRST_CAUSE`. -/
def HRST_CAUSE : Nat := 0x40008000

/-- `HRST_CAUSE.AONPOR`. -/
def HRST_CAUSE_AONPOR : Fld := ⟨HRST_CAUSE, 12, 1⟩

/-- `HRST_CAUSE.BORRAIL`. -/
def HRST_CAUSE_BORRAIL : Fld := ⟨HRST_CAUSE, 9, 3⟩

/-- `HRST_CAUSE.WARM`. -/
def HRST_CAUSE_WARM : Fld := ⟨HRST_CAUSE, 8, 1⟩

/-- `HRST_CAUSE.LOCKUP`. -/
def HRST_CAUSE_LOCKUP : Fld := ⟨HRST_CAUSE, 7, 1⟩

/-- `HRST_CAUSE.CLKF`. -/
def HRST_CAUSE_CLKF : Fld := ⟨HRST_CAUSE, 6, 1⟩

/-- `HRST_CAUSE.DBG`. -/
def HRST_CAUSE_DBG : Fld := ⟨HRST_CAUSE, 5, 1⟩

/-- `HRST_CAUSE.SWR`. -/
def HRST_CAUSE_SWR : Fld := ⟨HRST_CAUSE, 4, 1⟩

/-- `HRST_CAUSE.WDT`. -/
def HRST_CAUSE_WDT : Fld := ⟨HRST_CAUSE, 3, 1⟩

/-- `HRST_CAUSE.PIN`. -/
def HRST_CAUSE_PIN : Fld := ⟨HRST_CAUSE, 2, 1⟩

/-- `HRST_CAUSE.BOR`. -/
def HRST_CAUSE_BOR : Fld := ⟨HRST_CAUSE, 1, 1⟩

/-- `HRST_CAUSE.POR`. -/
def HRST_CAUSE_POR : Fld := ⟨HRST_CAUSE, 0, 1⟩


/-! RSTC registers, lane (Clocks and Reset). -/

/-- Address of `RSTC_SWR`. -/
def RSTC_SWR : Nat := 0x40006004

/-- `RSTC_SWR.KEY`. -/
def RSTC_SWR_KEY : Fld := ⟨RSTC_SWR, 16, 16⟩

/-- `RSTC_SWR.SCOPE`. -/
def RSTC_SWR_SCOPE : Fld := ⟨RSTC_SWR, 2, 2⟩

/-- `RSTC_SWR.COLD`. -/
def RSTC_SWR_COLD : Fld := ⟨RSTC_SWR, 1, 1⟩

/-- `RSTC_SWR.REQ`. -/
def RSTC_SWR_REQ : Fld := ⟨RSTC_SWR, 0, 1⟩


/-! RSTC registers, hub (Clocks and Reset). -/

/-- Address of `HRSTC_SWR`. -/
def HRSTC_SWR : Nat := 0x40008004

/-- `HRSTC_SWR.KEY`. -/
def HRSTC_SWR_KEY : Fld := ⟨HRSTC_SWR, 16, 16⟩

/-- `HRSTC_SWR.SCOPE`. -/
def HRSTC_SWR_SCOPE : Fld := ⟨HRSTC_SWR, 2, 2⟩

/-- `HRSTC_SWR.COLD`. -/
def HRSTC_SWR_COLD : Fld := ⟨HRSTC_SWR, 1, 1⟩

/-- `HRSTC_SWR.REQ`. -/
def HRSTC_SWR_REQ : Fld := ⟨HRSTC_SWR, 0, 1⟩


/-! RSTC registers, lane (Clocks and Reset). -/

/-- Address of `RSTC_STAT`. -/
def RSTC_STAT : Nat := 0x40006008

/-- `RSTC_STAT.NRST`. -/
def RSTC_STAT_NRST : Fld := ⟨RSTC_STAT, 8, 8⟩

/-- `RSTC_STAT.TRIMERR`. -/
def RSTC_STAT_TRIMERR : Fld := ⟨RSTC_STAT, 1, 2⟩

/-- `RSTC_STAT.TRIMOK`. -/
def RSTC_STAT_TRIMOK : Fld := ⟨RSTC_STAT, 0, 1⟩


/-! RSTC registers, hub (Clocks and Reset). -/

/-- Address of `HRSTC_STAT`. -/
def HRSTC_STAT : Nat := 0x40008008

/-- `HRSTC_STAT.NRST`. -/
def HRSTC_STAT_NRST : Fld := ⟨HRSTC_STAT, 8, 8⟩

/-- `HRSTC_STAT.TRIMERR`. -/
def HRSTC_STAT_TRIMERR : Fld := ⟨HRSTC_STAT, 1, 2⟩

/-- `HRSTC_STAT.TRIMOK`. -/
def HRSTC_STAT_TRIMOK : Fld := ⟨HRSTC_STAT, 0, 1⟩

/-- Address of `RSTC_BRST`. -/
def RSTC_BRST : Nat := 0x4000800C

/-- `RSTC_BRST.BLOCK`. -/
def RSTC_BRST_BLOCK : Fld := ⟨RSTC_BRST, 0, 8⟩

/-- Address of `RSTC_BSTAT`. -/
def RSTC_BSTAT : Nat := 0x40008010

/-- `RSTC_BSTAT.FORCED`. -/
def RSTC_BSTAT_FORCED : Fld := ⟨RSTC_BSTAT, 9, 1⟩

/-- `RSTC_BSTAT.BUSY`. -/
def RSTC_BSTAT_BUSY : Fld := ⟨RSTC_BSTAT, 8, 1⟩

/-- `RSTC_BSTAT.LAST`. -/
def RSTC_BSTAT_LAST : Fld := ⟨RSTC_BSTAT, 0, 8⟩

/-- Address of `RSTC_TRIM`. -/
def RSTC_TRIM : Nat := 0x40008014

/-- `RSTC_TRIM.TRIMFAIL`. -/
def RSTC_TRIM_TRIMFAIL : Fld := ⟨RSTC_TRIM, 0, 5⟩


/-! CLKC registers, lane (Clocks and Reset). -/

/-- Address of `CLKC_CTRL`. -/
def CLKC_CTRL : Nat := 0x40007000

/-- `CLKC_CTRL.SSC_OFF`. -/
def CLKC_CTRL_SSC_OFF : Fld := ⟨CLKC_CTRL, 0, 1⟩


/-! CLKC registers, hub (Clocks and Reset). -/

/-- Address of `HCLKC_CTRL`. -/
def HCLKC_CTRL : Nat := 0x40009000

/-- `HCLKC_CTRL.SSC_OFF`. -/
def HCLKC_CTRL_SSC_OFF : Fld := ⟨HCLKC_CTRL, 0, 1⟩


/-! CLKC registers, lane (Clocks and Reset). -/

/-- Address of `CLKC_STAT`. -/
def CLKC_STAT : Nat := 0x40007004

/-- `CLKC_STAT.XCNT`. -/
def CLKC_STAT_XCNT : Fld := ⟨CLKC_STAT, 16, 10⟩

/-- `CLKC_STAT.UNLOCK`. -/
def CLKC_STAT_UNLOCK : Fld := ⟨CLKC_STAT, 5, 1⟩

/-- `CLKC_STAT.XFAIL`. -/
def CLKC_STAT_XFAIL : Fld := ⟨CLKC_STAT, 4, 1⟩

/-- `CLKC_STAT.SSC`. -/
def CLKC_STAT_SSC : Fld := ⟨CLKC_STAT, 3, 1⟩

/-- `CLKC_STAT.ONRC`. -/
def CLKC_STAT_ONRC : Fld := ⟨CLKC_STAT, 2, 1⟩

/-- `CLKC_STAT.LOCK`. -/
def CLKC_STAT_LOCK : Fld := ⟨CLKC_STAT, 1, 1⟩

/-- `CLKC_STAT.XOK`. -/
def CLKC_STAT_XOK : Fld := ⟨CLKC_STAT, 0, 1⟩


/-! CLKC registers, hub (Clocks and Reset). -/

/-- Address of `CLKC_HSTAT`. -/
def CLKC_HSTAT : Nat := 0x40009004

/-- `CLKC_HSTAT.AON_FAIL`. -/
def CLKC_HSTAT_AON_FAIL : Fld := ⟨CLKC_HSTAT, 10, 1⟩

/-- `CLKC_HSTAT.XT_FAIL`. -/
def CLKC_HSTAT_XT_FAIL : Fld := ⟨CLKC_HSTAT, 9, 1⟩

/-- `CLKC_HSTAT.XH_FAIL`. -/
def CLKC_HSTAT_XH_FAIL : Fld := ⟨CLKC_HSTAT, 8, 1⟩

/-- `CLKC_HSTAT.SSC`. -/
def CLKC_HSTAT_SSC : Fld := ⟨CLKC_HSTAT, 7, 1⟩

/-- `CLKC_HSTAT.ONRC`. -/
def CLKC_HSTAT_ONRC : Fld := ⟨CLKC_HSTAT, 6, 1⟩

/-- `CLKC_HSTAT.SDLOCK`. -/
def CLKC_HSTAT_SDLOCK : Fld := ⟨CLKC_HSTAT, 5, 1⟩

/-- `CLKC_HSTAT.LOCK`. -/
def CLKC_HSTAT_LOCK : Fld := ⟨CLKC_HSTAT, 4, 1⟩

/-- `CLKC_HSTAT.PREF_OK`. -/
def CLKC_HSTAT_PREF_OK : Fld := ⟨CLKC_HSTAT, 3, 1⟩

/-- `CLKC_HSTAT.AON_OK`. -/
def CLKC_HSTAT_AON_OK : Fld := ⟨CLKC_HSTAT, 2, 1⟩

/-- `CLKC_HSTAT.XT_OK`. -/
def CLKC_HSTAT_XT_OK : Fld := ⟨CLKC_HSTAT, 1, 1⟩

/-- `CLKC_HSTAT.XH_OK`. -/
def CLKC_HSTAT_XH_OK : Fld := ⟨CLKC_HSTAT, 0, 1⟩


/-! PWRC registers, lane (Power States). -/

/-- Address of `PWRC_VSET`. -/
def PWRC_VSET : Nat := 0x40008000

/-- `PWRC_VSET.MV`. -/
def PWRC_VSET_MV : Fld := ⟨PWRC_VSET, 0, 10⟩

/-- Address of `PWRC_STAT`. -/
def PWRC_STAT : Nat := 0x40008004

/-- `PWRC_STAT.PECERR`. -/
def PWRC_STAT_PECERR : Fld := ⟨PWRC_STAT, 16, 16⟩

/-- `PWRC_STAT.PMB_ERR`. -/
def PWRC_STAT_PMB_ERR : Fld := ⟨PWRC_STAT, 7, 1⟩

/-- `PWRC_STAT.BUSY`. -/
def PWRC_STAT_BUSY : Fld := ⟨PWRC_STAT, 6, 1⟩

/-- `PWRC_STAT.SUPLEAVE`. -/
def PWRC_STAT_SUPLEAVE : Fld := ⟨PWRC_STAT, 5, 1⟩

/-- `PWRC_STAT.SUP_PLL`. -/
def PWRC_STAT_SUP_PLL : Fld := ⟨PWRC_STAT, 4, 1⟩

/-- `PWRC_STAT.SUP_IO`. -/
def PWRC_STAT_SUP_IO : Fld := ⟨PWRC_STAT, 3, 1⟩

/-- `PWRC_STAT.SUP_LX`. -/
def PWRC_STAT_SUP_LX : Fld := ⟨PWRC_STAT, 2, 1⟩

/-- `PWRC_STAT.PG`. -/
def PWRC_STAT_PG : Fld := ⟨PWRC_STAT, 1, 1⟩

/-- `PWRC_STAT.ACK`. -/
def PWRC_STAT_ACK : Fld := ⟨PWRC_STAT, 0, 1⟩


/-! PWRC registers, hub (Power States). -/

/-- Address of `PWRC_HSTAT`. -/
def PWRC_HSTAT : Nat := 0x4000A000

/-- `PWRC_HSTAT.LANEOFF`. -/
def PWRC_HSTAT_LANEOFF : Fld := ⟨PWRC_HSTAT, 10, 3⟩

/-- `PWRC_HSTAT.FAILRAIL`. -/
def PWRC_HSTAT_FAILRAIL : Fld := ⟨PWRC_HSTAT, 7, 3⟩

/-- `PWRC_HSTAT.RETRY`. -/
def PWRC_HSTAT_RETRY : Fld := ⟨PWRC_HSTAT, 5, 2⟩

/-- `PWRC_HSTAT.WAKEFAIL`. -/
def PWRC_HSTAT_WAKEFAIL : Fld := ⟨PWRC_HSTAT, 4, 1⟩

/-- `PWRC_HSTAT.SUPRST`. -/
def PWRC_HSTAT_SUPRST : Fld := ⟨PWRC_HSTAT, 3, 1⟩

/-- `PWRC_HSTAT.PGSD`. -/
def PWRC_HSTAT_PGSD : Fld := ⟨PWRC_HSTAT, 2, 1⟩

/-- `PWRC_HSTAT.PGH`. -/
def PWRC_HSTAT_PGH : Fld := ⟨PWRC_HSTAT, 1, 1⟩

/-- Address of `PWRC_WAKE`. -/
def PWRC_WAKE : Nat := 0x4000A004

/-- `PWRC_WAKE.SRC`. -/
def PWRC_WAKE_SRC : Fld := ⟨PWRC_WAKE, 8, 4⟩

/-- `PWRC_WAKE.BIST`. -/
def PWRC_WAKE_BIST : Fld := ⟨PWRC_WAKE, 7, 1⟩

/-- `PWRC_WAKE.MASK`. -/
def PWRC_WAKE_MASK : Fld := ⟨PWRC_WAKE, 0, 4⟩


/-! BIST registers, lane (Power States). -/

/-- Address of `BIST_STAT`. -/
def BIST_STAT : Nat := 0x40009000

/-- `BIST_STAT.VALID`. -/
def BIST_STAT_VALID : Fld := ⟨BIST_STAT, 31, 1⟩

/-- `BIST_STAT.QUICK`. -/
def BIST_STAT_QUICK : Fld := ⟨BIST_STAT, 30, 1⟩

/-- `BIST_STAT.FULL`. -/
def BIST_STAT_FULL : Fld := ⟨BIST_STAT, 29, 1⟩

/-- `BIST_STAT.LFAIL`. -/
def BIST_STAT_LFAIL : Fld := ⟨BIST_STAT, 28, 1⟩

/-- `BIST_STAT.UNREP`. -/
def BIST_STAT_UNREP : Fld := ⟨BIST_STAT, 27, 1⟩

/-- `BIST_STAT.SKIPPED`. -/
def BIST_STAT_SKIPPED : Fld := ⟨BIST_STAT, 26, 1⟩

/-- `BIST_STAT.NMEM`. -/
def BIST_STAT_NMEM : Fld := ⟨BIST_STAT, 10, 16⟩

/-- `BIST_STAT.COV`. -/
def BIST_STAT_COV : Fld := ⟨BIST_STAT, 0, 10⟩

/-- The lane register block TMR. -/
def laneRegsTmr : List RegDesc :=
  [ { name := "TMR_TB_LO", base := 0x40004000, stride := 4, count := 1, rw := 0, w1c := 0, reset := 0, keep := 0 },
  { name := "TMR_TB_HI", base := 0x40004004, stride := 4, count := 1, rw := 0, w1c := 0, reset := 0, keep := 0 },
  { name := "TMR_STROKE", base := 0x40004008, stride := 4, count := 1, rw := 0xFFF03FF, w1c := 0, reset := 0xC80032, keep := 0xFFF03FF },
  { name := "TMR_STROKE_NO", base := 0x4000400C, stride := 4, count := 1, rw := 0, w1c := 0, reset := 0, keep := 0 },
  { name := "TMR_CATCH_LO", base := 0x40004010, stride := 4, count := 1, rw := 0, w1c := 0, reset := 0, keep := 0 },
  { name := "TMR_CATCH_HI", base := 0x40004014, stride := 4, count := 1, rw := 0, w1c := 0, reset := 0, keep := 0 },
  { name := "TMR_TICK", base := 0x40004018, stride := 4, count := 1, rw := 0, w1c := 0, reset := 0, keep := 0 },
  { name := "TMR_STAT", base := 0x4000401C, stride := 4, count := 1, rw := 0, w1c := 0x1F0, reset := 0, keep := 0 },
  { name := "TMR_CTRL", base := 0x40004020, stride := 4, count := 1, rw := 0, w1c := 0, reset := 0, keep := 0 },
  { name := "TMR_CMAX", base := 0x40004024, stride := 4, count := 1, rw := 0, w1c := 0, reset := 0, keep := 0 },
  { name := "TMR_CLAST", base := 0x40004028, stride := 4, count := 1, rw := 0, w1c := 0, reset := 0, keep := 0 } ]

/-- The lane register block RLE. -/
def laneRegsRle : List RegDesc :=
  [ { name := "RLE_CTRL", base := 0x10100000, stride := 4, count := 1, rw := 7, w1c := 0, reset := 0, keep := 0 },
  { name := "RLE_STAT", base := 0x10100004, stride := 4, count := 1, rw := 0, w1c := 0x3F4, reset := 0, keep := 0 },
  { name := "RLE_CMD", base := 0x10100008, stride := 4, count := 1, rw := 0, w1c := 0, reset := 0, keep := 0 },
  { name := "RLE_NREQ", base := 0x1010000C, stride := 4, count := 1, rw := 0x7F, w1c := 0, reset := 0, keep := 0 },
  { name := "RLE_CELLS", base := 0x10100010, stride := 4, count := 1, rw := 0, w1c := 0, reset := 0, keep := 0 },
  { name := "RLE_ARDN", base := 0x10100014, stride := 4, count := 1, rw := 0, w1c := 0, reset := 0, keep := 0 },
  { name := "RLE_ERRIDX", base := 0x10100018, stride := 4, count := 1, rw := 0, w1c := 0, reset := 0, keep := 0 },
  { name := "RLE_DIGEST", base := 0x1010001C, stride := 4, count := 1, rw := 0, w1c := 0, reset := 0, keep := 0 },
  { name := "RLE_VMAX", base := 0x10100020, stride := 4, count := 1, rw := 0, w1c := 0, reset := 0, keep := 0 },
  { name := "RLE_TLAST", base := 0x10100024, stride := 4, count := 1, rw := 0, w1c := 0, reset := 0, keep := 0 },
  { name := "RLE_CLR", base := 0x10100028, stride := 4, count := 1, rw := 0, w1c := 0, reset := 0, keep := 0 },
  { name := "RLE_INBASE", base := 0x1010002C, stride := 4, count := 1, rw := 0xFFFE0000, w1c := 0, reset := 0, keep := 0xFFFE0000 },
  { name := "RLE_OUTBASE", base := 0x10100030, stride := 4, count := 1, rw := 0xFFFE0000, w1c := 0, reset := 0, keep := 0xFFFE0000 } ]

/-- The lane register block VOTE. -/
def laneRegsVote : List RegDesc :=
  [ { name := "VOTE_STAT", base := 0x40001000, stride := 4, count := 1, rw := 0, w1c := 0x1F0000, reset := 0, keep := 0 },
  { name := "VOTE_EASY", base := 0x40001004, stride := 4, count := 1, rw := 0, w1c := 0, reset := 0, keep := 0 },
  { name := "VOTE_LEAVE", base := 0x40001008, stride := 4, count := 1, rw := 0, w1c := 0, reset := 0, keep := 0x3FFF07FF },
  { name := "VOTE_CNT", base := 0x4000100C, stride := 4, count := 1, rw := 0, w1c := 0, reset := 0, keep := 0xFFFFFF },
  { name := "VOTE_CMD", base := 0x40001010, stride := 4, count := 1, rw := 0, w1c := 0, reset := 0, keep := 0 },
  { name := "VOTE_READM", base := 0x40001014, stride := 4, count := 1, rw := 0, w1c := 0, reset := 0, keep := 0 },
  { name := "VOTE_RBASE", base := 0x40001018, stride := 4, count := 1, rw := 0xFFFE0000, w1c := 0, reset := 0, keep := 0xFFFE0000 },
  { name := "VOTE_CFG", base := 0x40001100, stride := 4, count := 8, rw := 0x77, w1c := 0, reset := 2, keep := 0 },
  { name := "VOTE_RGN_BASE", base := 0x40001200, stride := 8, count := 64, rw := 0xFFFFFFC0, w1c := 0, reset := 0, keep := 0 },
  { name := "VOTE_RGN_DESC", base := 0x40001204, stride := 8, count := 64, rw := 0xF8003FFF, w1c := 0, reset := 0, keep := 0 } ]

/-- The lane register block XL. -/
def laneRegsXl : List RegDesc :=
  [ { name := "XL_STAT", base := 0x40002000, stride := 4, count := 1, rw := 0, w1c := 0xC, reset := 0, keep := 0 },
  { name := "XL_ERR0", base := 0x40002004, stride := 4, count := 1, rw := 0, w1c := 0, reset := 0, keep := 0 },
  { name := "XL_ERR1", base := 0x40002008, stride := 4, count := 1, rw := 0, w1c := 0, reset := 0, keep := 0 },
  { name := "XL_CTRL", base := 0x4000200C, stride := 4, count := 1, rw := 0, w1c := 0, reset := 0, keep := 0 } ]

/-- The lane register block LCTL. -/
def laneRegsLctl : List RegDesc :=
  [ { name := "LCTL_ID", base := 0x40000000, stride := 4, count := 1, rw := 0, w1c := 0, reset := 0, keep := 0 },
  { name := "LCTL_STAT", base := 0x40000004, stride := 4, count := 1, rw := 0, w1c := 0, reset := 0, keep := 0 },
  { name := "LCTL_IRQ_PEND", base := 0x40000008, stride := 4, count := 1, rw := 0, w1c := 0x7FF, reset := 0, keep := 0 },
  { name := "LCTL_IRQ_EN", base := 0x4000000C, stride := 4, count := 1, rw := 0x7FF, w1c := 0, reset := 0, keep := 0 },
  { name := "LCTL_SWI", base := 0x40000010, stride := 4, count := 1, rw := 0, w1c := 0, reset := 0, keep := 0 },
  { name := "LCTL_C1START", base := 0x40000014, stride := 4, count := 1, rw := 0xFFFFFFFC, w1c := 0, reset := 0, keep := 0 },
  { name := "LCTL_MEMSTAT", base := 0x40000020, stride := 4, count := 1, rw := 0, w1c := 3, reset := 0, keep := 0xC },
  { name := "LCTL_ECCADDR", base := 0x40000024, stride := 4, count := 1, rw := 0, w1c := 0, reset := 0, keep := 0xFFFFFFFC },
  { name := "LCTL_REPAIR", base := 0x40000028, stride := 4, count := 1, rw := 0, w1c := 0, reset := 0, keep := 0 } ]

/-- The lane register block SIGC. -/
def laneRegsSigc : List RegDesc :=
  [ { name := "SIGC_CTRL", base := 0x4000A000, stride := 4, count := 1, rw := 0, w1c := 0, reset := 0, keep := 0 },
  { name := "SIGC_STAT", base := 0x4000A004, stride := 4, count := 1, rw := 0, w1c := 0x50, reset := 0, keep := 3 },
  { name := "SIGC_WCNT", base := 0x4000A008, stride := 4, count := 1, rw := 0, w1c := 0, reset := 0, keep := 0 },
  { name := "SIGC_SIG0_LO", base := 0x4000A00C, stride := 4, count := 1, rw := 0, w1c := 0, reset := 0, keep := 0xFFFFFFFF },
  { name := "SIGC_SIG0_HI", base := 0x4000A010, stride := 4, count := 1, rw := 0, w1c := 0, reset := 0, keep := 0xFFFFFFFF },
  { name := "SIGC_SIG1_LO", base := 0x4000A014, stride := 4, count := 1, rw := 0, w1c := 0, reset := 0, keep := 0xFFFFFFFF },
  { name := "SIGC_SIG1_HI", base := 0x4000A018, stride := 4, count := 1, rw := 0, w1c := 0, reset := 0, keep := 0xFFFFFFFF } ]

/-- The lane register block WDT. -/
def laneRegsWdt : List RegDesc :=
  [ { name := "WDT_CFG", base := 0x40005000, stride := 4, count := 1, rw := 0xFFFFFFFF, w1c := 0, reset := 0x14000FA0, keep := 0 },
  { name := "WDT_KICK", base := 0x40005004, stride := 4, count := 1, rw := 0, w1c := 0, reset := 0, keep := 0 },
  { name := "WDT_STAT", base := 0x40005008, stride := 4, count := 1, rw := 0, w1c := 6, reset := 0, keep := 0 } ]

/-- The lane register block FLDP. -/
def laneRegsFldp : List RegDesc :=
  [ { name := "FLDP_STAT", base := 0x4000C000, stride := 4, count := 1, rw := 0, w1c := 0x23C, reset := 0, keep := 0 },
  { name := "FLDP_CAL", base := 0x4000C004, stride := 4, count := 1, rw := 0x1F, w1c := 0, reset := 0, keep := 0 },
  { name := "FLDP_FRCNT", base := 0x4000C008, stride := 4, count := 1, rw := 0, w1c := 0, reset := 0, keep := 0 },
  { name := "FLDP_QCTX0", base := 0x4000C00C, stride := 4, count := 1, rw := 0x77777777, w1c := 0, reset := 0, keep := 0x77777777 },
  { name := "FLDP_QCTX1", base := 0x4000C010, stride := 4, count := 1, rw := 0x77777777, w1c := 0, reset := 0, keep := 0x77777777 },
  { name := "FLDP_QLATCH", base := 0x4000C014, stride := 4, count := 1, rw := 0, w1c := 0, reset := 0, keep := 0 },
  { name := "FLDP_WB", base := 0x4000C018, stride := 4, count := 1, rw := 0, w1c := 0xFFFFFFFF, reset := 0, keep := 0 },
  { name := "FLDP_CALFAIL", base := 0x4000C01C, stride := 4, count := 1, rw := 0, w1c := 0, reset := 0, keep := 0xFFFFFFFF },
  { name := "FLDP_ENCCFG0", base := 0x4000C020, stride := 4, count := 1, rw := 0xFFFF0007, w1c := 0, reset := 0, keep := 0xFFFF0007 },
  { name := "FLDP_ENCCFG1", base := 0x4000C024, stride := 4, count := 1, rw := 0xFFFF0007, w1c := 0, reset := 0, keep := 0xFFFF0007 },
  { name := "FLDP_TPCFG", base := 0x4000C028, stride := 4, count := 1, rw := 0xFFFF07, w1c := 0, reset := 0x1002, keep := 0xFFFF07 },
  { name := "FLDP_INCFG", base := 0x4000C100, stride := 4, count := 32, rw := 0x3FF11F, w1c := 0, reset := 9, keep := 0x3FF11F },
  { name := "FLDP_QCFG", base := 0x4000C200, stride := 4, count := 16, rw := 0x7FFF2, w1c := 0, reset := 0x20A90, keep := 0x7FFF2 },
  { name := "FLDP_FRAME", base := 0x4000C400, stride := 4, count := 16, rw := 0, w1c := 0, reset := 0, keep := 0 } ]

/-- The lane register block BRG. -/
def laneRegsBrg : List RegDesc :=
  [ { name := "BRG_CFG", base := 0x4000B000, stride := 4, count := 1, rw := 0xFFFF31, w1c := 0, reset := 0x321930, keep := 0xFFFF31 },
  { name := "BRG_STAT", base := 0x4000B004, stride := 4, count := 1, rw := 0, w1c := 0x3E, reset := 0, keep := 0 },
  { name := "BRG_RESUME", base := 0x4000B008, stride := 4, count := 1, rw := 0, w1c := 0, reset := 0, keep := 0 },
  { name := "BRG_EQ_INFO", base := 0x4000B00C, stride := 4, count := 1, rw := 0, w1c := 0, reset := 0, keep := 0 },
  { name := "BRG_EQ_ADDR", base := 0x4000B010, stride := 4, count := 1, rw := 0, w1c := 0, reset := 0, keep := 0 },
  { name := "BRG_EQ_POP", base := 0x4000B014, stride := 4, count := 1, rw := 0, w1c := 0, reset := 0, keep := 0 },
  { name := "BRG_CNT", base := 0x4000B018, stride := 4, count := 1, rw := 0, w1c := 0, reset := 0, keep := 0 },
  { name := "BRG_MSG", base := 0x4000B01C, stride := 4, count := 1, rw := 0, w1c := 0, reset := 0, keep := 0 },
  { name := "BRG_HMSG", base := 0x4000B020, stride := 4, count := 1, rw := 0, w1c := 0, reset := 0, keep := 0 },
  { name := "BRG_HMSG_POP", base := 0x4000B024, stride := 4, count := 1, rw := 0, w1c := 0, reset := 0, keep := 0 },
  { name := "BRG_HBASE", base := 0x4000B028, stride := 4, count := 1, rw := 0xFFFC0001, w1c := 0, reset := 0, keep := 0xFFFC0001 },
  { name := "BRG_MAP", base := 0x4000B040, stride := 4, count := 8, rw := 0xFF800003, w1c := 0, reset := 0, keep := 0xFF800003 },
  { name := "BRG_SEM", base := 0x4000B100, stride := 4, count := 32, rw := 0, w1c := 0, reset := 0, keep := 0 } ]

/-- The lane register block CRC. -/
def laneRegsCrc : List RegDesc :=
  [ { name := "CRC_CTRL", base := 0x40003000, stride := 4, count := 1, rw := 0xF, w1c := 0, reset := 1, keep := 0 },
  { name := "CRC_INIT_LO", base := 0x40003004, stride := 4, count := 1, rw := 0xFFFFFFFF, w1c := 0, reset := 0, keep := 0 },
  { name := "CRC_INIT_HI", base := 0x40003008, stride := 4, count := 1, rw := 0xFFFFFFFF, w1c := 0, reset := 0, keep := 0 },
  { name := "CRC_DATA", base := 0x4000300C, stride := 4, count := 1, rw := 0, w1c := 0, reset := 0, keep := 0 },
  { name := "CRC_RES_LO", base := 0x40003010, stride := 4, count := 1, rw := 0, w1c := 0, reset := 0, keep := 0 },
  { name := "CRC_RES_HI", base := 0x40003014, stride := 4, count := 1, rw := 0, w1c := 0, reset := 0, keep := 0 },
  { name := "CRC_OWNER", base := 0x40003018, stride := 4, count := 1, rw := 0, w1c := 0, reset := 0, keep := 0 },
  { name := "CRC_CUR", base := 0x4000301C, stride := 4, count := 1, rw := 0xFF, w1c := 0, reset := 0xFF, keep := 0 },
  { name := "CRC_STAT", base := 0x40003024, stride := 4, count := 1, rw := 0, w1c := 3, reset := 0, keep := 0 } ]

/-- The lane register block RSTC. -/
def laneRegsRstc : List RegDesc :=
  [ { name := "RST_CAUSE", base := 0x40006000, stride := 4, count := 1, rw := 0, w1c := 0xFF, reset := 0, keep := 0xEFF },
  { name := "RSTC_SWR", base := 0x40006004, stride := 4, count := 1, rw := 0, w1c := 0, reset := 0, keep := 0 },
  { name := "RSTC_STAT", base := 0x40006008, stride := 4, count := 1, rw := 0, w1c := 0, reset := 0, keep := 0xFF07 } ]

/-- The lane register block CLKC. -/
def laneRegsClkc : List RegDesc :=
  [ { name := "CLKC_CTRL", base := 0x40007000, stride := 4, count := 1, rw := 1, w1c := 0, reset := 0, keep := 1 },
  { name := "CLKC_STAT", base := 0x40007004, stride := 4, count := 1, rw := 0, w1c := 0x30, reset := 4, keep := 0 } ]

/-- The lane register block PWRC. -/
def laneRegsPwrc : List RegDesc :=
  [ { name := "PWRC_VSET", base := 0x40008000, stride := 4, count := 1, rw := 0x3FF, w1c := 0, reset := 0x384, keep := 0x3FF },
  { name := "PWRC_STAT", base := 0x40008004, stride := 4, count := 1, rw := 0, w1c := 0x80, reset := 0, keep := 0x20 } ]

/-- The lane register block BIST. -/
def laneRegsBist : List RegDesc :=
  [ { name := "BIST_STAT", base := 0x40009000, stride := 4, count := 1, rw := 0, w1c := 0, reset := 0, keep := 0x18000000 } ]

/-- Every register of the lane map (Address Map). -/
def laneRegs : List RegDesc :=
  laneRegsTmr ++
  laneRegsRle ++
  laneRegsVote ++
  laneRegsXl ++
  laneRegsLctl ++
  laneRegsSigc ++
  laneRegsWdt ++
  laneRegsFldp ++
  laneRegsBrg ++
  laneRegsCrc ++
  laneRegsRstc ++
  laneRegsClkc ++
  laneRegsPwrc ++
  laneRegsBist

/-- The hub register block RING. -/
def hubRegsRing : List RegDesc :=
  [ { name := "RING_RTBASE", base := 0x40004000, stride := 4, count := 1, rw := 0xFFFFF000, w1c := 0, reset := 0, keep := 0 },
  { name := "RING_GSTAT", base := 0x40004004, stride := 4, count := 1, rw := 0, w1c := 0, reset := 0, keep := 0 },
  { name := "RING_GCTRL", base := 0x40004008, stride := 4, count := 1, rw := 0, w1c := 0, reset := 0, keep := 0 },
  { name := "RING_CTRL", base := 0x40004100, stride := 0x100, count := 6, rw := 0x177, w1c := 0, reset := 4, keep := 0 },
  { name := "RING_CMD", base := 0x40004104, stride := 0x100, count := 6, rw := 0, w1c := 0, reset := 0, keep := 0 },
  { name := "RING_STAT", base := 0x40004108, stride := 0x100, count := 6, rw := 0, w1c := 0xE000, reset := 0, keep := 0 },
  { name := "RING_CYCLE", base := 0x4000410C, stride := 0x100, count := 6, rw := 0, w1c := 0, reset := 0, keep := 0 },
  { name := "RING_CLAIM", base := 0x40004110, stride := 0x100, count := 6, rw := 0, w1c := 0, reset := 0, keep := 0 },
  { name := "RING_LOOP", base := 0x40004114, stride := 0x100, count := 6, rw := 0, w1c := 0, reset := 0, keep := 0 },
  { name := "RING_BRK", base := 0x40004118, stride := 0x100, count := 6, rw := 0, w1c := 0, reset := 0, keep := 0 },
  { name := "RING_PRESLO", base := 0x4000411C, stride := 0x100, count := 6, rw := 0, w1c := 0, reset := 0, keep := 0 },
  { name := "RING_PRESHI", base := 0x40004120, stride := 0x100, count := 6, rw := 0, w1c := 0, reset := 0, keep := 0 },
  { name := "RING_ACKLO", base := 0x40004124, stride := 0x100, count := 6, rw := 0, w1c := 0, reset := 0, keep := 0 },
  { name := "RING_ACKHI", base := 0x40004128, stride := 0x100, count := 6, rw := 0, w1c := 0, reset := 0, keep := 0 },
  { name := "RING_ERR", base := 0x4000412C, stride := 0x100, count := 6, rw := 0, w1c := 0, reset := 0, keep := 0 } ]

/-- The hub register block PTNR. -/
def hubRegsPtnr : List RegDesc :=
  [ { name := "PTNR_STAT", base := 0x40005000, stride := 4, count := 1, rw := 0, w1c := 0x80, reset := 0, keep := 0 },
  { name := "PTNR_CLAIM", base := 0x40005004, stride := 4, count := 1, rw := 0, w1c := 0, reset := 0, keep := 0 },
  { name := "PTNR_CNT", base := 0x40005008, stride := 4, count := 1, rw := 0, w1c := 0, reset := 0, keep := 0 },
  { name := "PTNR_RESYNC", base := 0x4000500C, stride := 4, count := 1, rw := 0, w1c := 0, reset := 0, keep := 0 } ]

/-- The hub register block HCMD. -/
def hubRegsHcmd : List RegDesc :=
  [ { name := "HCMD_ID", base := 0x40100000, stride := 4, count := 1, rw := 0, w1c := 0, reset := 0x10000, keep := 0 },
  { name := "HCMD_STAT", base := 0x40100004, stride := 4, count := 1, rw := 0, w1c := 0xF0E0, reset := 0, keep := 0 },
  { name := "HCMD_CTRL", base := 0x40100008, stride := 4, count := 1, rw := 0x80, w1c := 0, reset := 0, keep := 0 },
  { name := "HCMD_POISON", base := 0x40100010, stride := 4, count := 4, rw := 0, w1c := 0, reset := 0, keep := 0 },
  { name := "HCMD_QCNT", base := 0x40100020, stride := 4, count := 4, rw := 0, w1c := 0, reset := 0, keep := 0 },
  { name := "HCMD_SEQ", base := 0x40100030, stride := 4, count := 1, rw := 0, w1c := 0, reset := 0, keep := 0 },
  { name := "HCMD_SQDB", base := 0x40101000, stride := 8, count := 4, rw := 0, w1c := 0, reset := 0, keep := 0 },
  { name := "HCMD_CQHD", base := 0x40101004, stride := 8, count := 4, rw := 0x1FF, w1c := 0, reset := 0, keep := 0 } ]

/-- The hub register block SGW. -/
def hubRegsSgw : List RegDesc :=
  [ { name := "SGW_CTRL", base := 0x40007000, stride := 4, count := 1, rw := 1, w1c := 0, reset := 0, keep := 0 },
  { name := "SGW_STAT", base := 0x40007004, stride := 4, count := 1, rw := 0, w1c := 0x60000000, reset := 0, keep := 0 },
  { name := "SGW_MBASE", base := 0x40007008, stride := 4, count := 1, rw := 0xFFFFF000, w1c := 0, reset := 0, keep := 0 },
  { name := "SGW_CANCFG", base := 0x40007100, stride := 0x20, count := 4, rw := 0x333, w1c := 0, reset := 2, keep := 0 },
  { name := "SGW_CANSTAT", base := 0x40007104, stride := 0x20, count := 4, rw := 0, w1c := 0, reset := 0, keep := 0 },
  { name := "SGW_CANCNT", base := 0x40007108, stride := 0x20, count := 4, rw := 0, w1c := 0, reset := 0, keep := 0 } ]

/-- The hub register block HSRAM. -/
def hubRegsHsram : List RegDesc :=
  [ { name := "HSRAM_STAT", base := 0x40000000, stride := 4, count := 1, rw := 0, w1c := 0x46, reset := 0, keep := 0x20 },
  { name := "HSRAM_ECCADDR", base := 0x40000004, stride := 4, count := 1, rw := 0, w1c := 0, reset := 0, keep := 0 },
  { name := "HSRAM_MBX", base := 0x40000010, stride := 4, count := 3, rw := 0, w1c := 1, reset := 0, keep := 0 },
  { name := "HSRAM_HOST", base := 0x4000001C, stride := 4, count := 1, rw := 0, w1c := 1, reset := 0, keep := 0 },
  { name := "HSRAM_RSEQ", base := 0x40000020, stride := 4, count := 1, rw := 0, w1c := 0, reset := 0, keep := 0xFFFFFFFF },
  { name := "HSRAM_RSIG", base := 0x40000030, stride := 4, count := 4, rw := 0, w1c := 0, reset := 0, keep := 0xFFFFFFFF } ]

/-- The hub register block REC. -/
def hubRegsRec : List RegDesc :=
  [ { name := "REC_HEAD", base := 0x40001000, stride := 4, count := 1, rw := 0, w1c := 0, reset := 0, keep := 0 },
  { name := "REC_FLUSHED", base := 0x40001004, stride := 4, count := 1, rw := 0, w1c := 0, reset := 0, keep := 0 },
  { name := "REC_STAT", base := 0x40001008, stride := 4, count := 1, rw := 0, w1c := 0, reset := 0, keep := 4 } ]

/-- The hub register block CRC. -/
def hubRegsCrc : List RegDesc :=
  [ { name := "HCRC_CTRL", base := 0x40002000, stride := 4, count := 1, rw := 0xF, w1c := 0, reset := 1, keep := 0 },
  { name := "HCRC_INIT_LO", base := 0x40002004, stride := 4, count := 1, rw := 0xFFFFFFFF, w1c := 0, reset := 0, keep := 0 },
  { name := "HCRC_INIT_HI", base := 0x40002008, stride := 4, count := 1, rw := 0xFFFFFFFF, w1c := 0, reset := 0, keep := 0 },
  { name := "HCRC_DATA", base := 0x4000200C, stride := 4, count := 1, rw := 0, w1c := 0, reset := 0, keep := 0 },
  { name := "HCRC_RES_LO", base := 0x40002010, stride := 4, count := 1, rw := 0, w1c := 0, reset := 0, keep := 0 },
  { name := "HCRC_RES_HI", base := 0x40002014, stride := 4, count := 1, rw := 0, w1c := 0, reset := 0, keep := 0 },
  { name := "HCRC_OWNER", base := 0x40002018, stride := 4, count := 1, rw := 0, w1c := 0, reset := 0, keep := 0 },
  { name := "HCRC_CUR", base := 0x4000201C, stride := 4, count := 2, rw := 0xFF, w1c := 0, reset := 0xFF, keep := 0 },
  { name := "HCRC_STAT", base := 0x40002024, stride := 4, count := 1, rw := 0, w1c := 3, reset := 0, keep := 0 } ]

/-- The hub register block CRC1. -/
def hubRegsCrc1 : List RegDesc :=
  [ { name := "HCRC_CTRL", base := 0x40003000, stride := 4, count := 1, rw := 0xF, w1c := 0, reset := 1, keep := 0 },
  { name := "HCRC_INIT_LO", base := 0x40003004, stride := 4, count := 1, rw := 0xFFFFFFFF, w1c := 0, reset := 0, keep := 0 },
  { name := "HCRC_INIT_HI", base := 0x40003008, stride := 4, count := 1, rw := 0xFFFFFFFF, w1c := 0, reset := 0, keep := 0 },
  { name := "HCRC_DATA", base := 0x4000300C, stride := 4, count := 1, rw := 0, w1c := 0, reset := 0, keep := 0 },
  { name := "HCRC_RES_LO", base := 0x40003010, stride := 4, count := 1, rw := 0, w1c := 0, reset := 0, keep := 0 },
  { name := "HCRC_RES_HI", base := 0x40003014, stride := 4, count := 1, rw := 0, w1c := 0, reset := 0, keep := 0 },
  { name := "HCRC_OWNER", base := 0x40003018, stride := 4, count := 1, rw := 0, w1c := 0, reset := 0, keep := 0 },
  { name := "HCRC_CUR", base := 0x4000301C, stride := 4, count := 2, rw := 0xFF, w1c := 0, reset := 0xFF, keep := 0 },
  { name := "HCRC_STAT", base := 0x40003024, stride := 4, count := 1, rw := 0, w1c := 3, reset := 0, keep := 0 } ]

/-- The hub register block UPD. -/
def hubRegsUpd : List RegDesc :=
  [ { name := "UPD_STAT", base := 0x40006000, stride := 4, count := 1, rw := 0, w1c := 0x20000, reset := 0xC, keep := 0 },
  { name := "NVW_STAT", base := 0x40006004, stride := 4, count := 1, rw := 0, w1c := 0, reset := 0, keep := 1 },
  { name := "NVW_ENERGY", base := 0x40006008, stride := 4, count := 1, rw := 0, w1c := 0, reset := 0, keep := 0 },
  { name := "NVW_VSENSE", base := 0x4000600C, stride := 4, count := 1, rw := 0, w1c := 0, reset := 0, keep := 0 } ]

/-- The hub register block RSTC. -/
def hubRegsRstc : List RegDesc :=
  [ { name := "HRST_CAUSE", base := 0x40008000, stride := 4, count := 1, rw := 0, w1c := 0x10FF, reset := 0, keep := 0x1EFF },
  { name := "HRSTC_SWR", base := 0x40008004, stride := 4, count := 1, rw := 0, w1c := 0, reset := 0, keep := 0 },
  { name := "HRSTC_STAT", base := 0x40008008, stride := 4, count := 1, rw := 0, w1c := 0, reset := 0, keep := 0xFF07 },
  { name := "RSTC_BRST", base := 0x4000800C, stride := 4, count := 1, rw := 0, w1c := 0, reset := 0, keep := 0 },
  { name := "RSTC_BSTAT", base := 0x40008010, stride := 4, count := 1, rw := 0, w1c := 0x200, reset := 0, keep := 0 },
  { name := "RSTC_TRIM", base := 0x40008014, stride := 4, count := 1, rw := 0, w1c := 0, reset := 0, keep := 0x1F } ]

/-- The hub register block CLKC. -/
def hubRegsClkc : List RegDesc :=
  [ { name := "HCLKC_CTRL", base := 0x40009000, stride := 4, count := 1, rw := 1, w1c := 0, reset := 0, keep := 1 },
  { name := "CLKC_HSTAT", base := 0x40009004, stride := 4, count := 1, rw := 0, w1c := 0x700, reset := 0x40, keep := 0 } ]

/-- The hub register block PWRC. -/
def hubRegsPwrc : List RegDesc :=
  [ { name := "PWRC_HSTAT", base := 0x4000A000, stride := 4, count := 1, rw := 0, w1c := 8, reset := 0, keep := 0x10 },
  { name := "PWRC_WAKE", base := 0x4000A004, stride := 4, count := 1, rw := 0, w1c := 0, reset := 0, keep := 0xF8F } ]

/-- Every register of the hub map (Address Map). -/
def hubRegs : List RegDesc :=
  hubRegsRing ++
  hubRegsPtnr ++
  hubRegsHcmd ++
  hubRegsSgw ++
  hubRegsHsram ++
  hubRegsRec ++
  hubRegsCrc ++
  hubRegsCrc1 ++
  hubRegsUpd ++
  hubRegsRstc ++
  hubRegsClkc ++
  hubRegsPwrc

end Sys2Proof.Machine
end

