-- ==== Sys2Proof/Machine/State.lean ====
section
/-! DEFINITION. The whole machine as plain data, why a step can stop, and the machine right after a power-on reset (R8, R489, R490). -/

namespace Sys2Proof.Machine

/-- What the last bus access of a command answered: nothing, read data, or a bus error response (R5). -/
inductive BusResp where
  | none | data (w : Word) | error
  /-- the sign engine's verdict: `SCRC` correct, tag correct, matching code slots A, B, C (R325) -/
  | verdict (scrc tag : Bool) (codes : BitVec 3)
  deriving DecidableEq, Repr

/-- A recorder submission as a lane forms it (R436, R437): block index, class, rule, and the items of `DATA` with their sizes. -/
structure RecNote where
  blk : Nat
  cls : Nat
  rule : Nat
  data : List (Nat × Nat)
  deriving DecidableEq, Repr

/-- A compute lane (The lanes). `reg` holds its memory-mapped registers by address (reset values unlisted); `sram` is keyed by lane
address; `cells`, `ard`, `rstat` and `pstore` are keyed by cell, window word, ARD index and path-store word. -/
structure Lane where
  id : LaneId
  reg : Sparse Word
  sram : List Host.Cell
  cells : Sparse CellRec
  ard : Sparse Word
  rstat : Sparse Word
  pstore : Sparse Word
  rle : RleInt
  fol : Follower
  start : StartInt
  tasks : List TaskRun
  ctxs : List VoteCtx
  /-- reasons for leaving that take effect at a task's vote instant: reason code, task (none for the next of any) -/
  due : List (Nat × Option Nat)
  /-- peers known to be out, with the reason of their leave (R165, R177) -/
  gone : List (LaneId × Nat)
  readm : ReadmInt
  xl0 : LinkEnd
  xl1 : LinkEnd
  core0 : CoreRegs
  core1 : CoreRegs
  sig : SigcInt
  wdt : WdtInt
  prog : ProgInt
  fld : FieldPort
  brg : BrgInt
  crc : CrcInt
  conns : Sparse Conn
  descs : Sparse ConnDesc
  keys : Sparse KeyEntry
  /-- the key section in force -/
  keySect : List Byte
  set : Settings
  /-- the claim the lane puts in its telegrams, whether the module is a standby, and whether it has yielded (R316, R346, R351) -/
  claim : Word
  standby : Bool
  yielded : Bool
  /-- a yield command was admitted at the running stroke's catch: nothing is signed from the next catch on (R351) -/
  yieldNext : Bool
  /-- notices the lane sent last on its links (R164, R178) -/
  sent : List Notice
  /-- the dynamic signal it supplies while enabled (R172) -/
  wave : DynSig
  /-- T_n of the last stroke whose finish the lane served in easy all (R180) -/
  restT : Option Nat
  /-- a surviving lane of easy all (R180), and the connections OPEN at its entry -/
  surviving : Bool
  openAtEntry : List Nat
  /-- compare digests of recent strokes: stroke, digest (R349) -/
  cmpOwn : List (Word × Dword)
  /-- compare digests that were equal in a row (R350), and whether the partner reported READY in its latest admitted peer telegram (R352) -/
  cmpRun : Nat
  peerReady : Bool
  /-- the lane is clock-gated in IDLE (R43, R504) -/
  idle : Bool
  rst : RstInt
  /-- SRAM banks beyond their spares: every access answers with a bus error (R422) -/
  badBanks : List Nat
  /-- recorder submissions the running command forms in the lane; the command hands them to the recorder at its end (R437) -/
  notes : List RecNote
  deriving DecidableEq, Repr

/-- The hub (The hub). `sram` is keyed by hub address. -/
structure Hub where
  reg : Sparse Word
  sram : List Host.Cell
  mbxA : Mailbox
  mbxB : Mailbox
  mbxC : Mailbox
  /-- the timebase counter as last read, and whether ticks are sent (R38, R487) -/
  tb : Nat
  ticks : Bool
  /-- rings, partner links and Ethernet are stopped for HIBERNATE (R513) -/
  portsOff : Bool
  /-- firmware runs -/
  up : Bool
  rings : List RingInt
  ptnr : PtnrInt
  host : HostInt
  sgw : SgwInt
  rcd : RecInt
  crc0 : CrcInt
  crc1 : CrcInt
  upd : UpdInt
  set : Settings
  /-- latest assembled telegram of a connection (R175, R299) and connection table as routed -/
  asm : Sparse AsmTlg
  /-- the Ethernet frame sent last from each port (R329) -/
  ethOut : Sparse (List Byte)
  descs : Sparse ConnDesc
  rst : RstInt
  /-- block-alone reset running: code, since (R500) -/
  brst : Option (Nat × Nat)
  /-- a hub high-temperature entry stands (R541) -/
  hot : Bool
  /-- scrub pointer; SRAM banks out of service (R422) -/
  scrub : Nat
  badBanks : List Nat
  deriving DecidableEq, Repr

/-- The module. -/
structure State where
  /-- the timebase instant of the latest timed command, in ns -/
  now : Nat
  /-- where the module stands since its last restart (R4, R181) -/
  phase : ModPhase
  la : Lane
  lb : Lane
  lc : Lane
  hub : Hub
  field : FieldDie
  fieldRst : RstInt
  aon : AonInt
  fuses : Fuses
  flash0 : List Host.Cell
  flash1 : List Host.Cell
  /-- scrub pointers of the lanes -/
  scrubA : Nat
  scrubB : Nat
  scrubC : Nat
  /-- the answer of the last bus access -/
  bus : BusResp
  /-- how many free values have been drawn: the model's own field (DESIGN CHOICE, Assumption 4) -/
  draws : Nat
  /-- commands waiting, first in, first out -/
  pending : List Instr
  deriving DecidableEq, Repr

/-- Why a step stops with a fault. -/
inductive Fault where
  /-- `REGISTER_WRITE` by the hub at hub block `index` 11 to 20: R572 keeps these registers to hub firmware and gives none of them
  (ground ii). Safe: the model stops where the device goes on. -/
  | hubFirmwareBlock (index : Nat)
  deriving DecidableEq, Repr

/-- Why a step is refused. -/
inductive Refusal where
  /-- The row has no meaning yet. Raised by `exec` alone. Safe. -/
  | notModelled (mnemonic : String)
  deriving DecidableEq, Repr

/-! ### Reset values of the parts -/

/-- The follower after a lane reset. -/
def folReset : Follower :=
  { time := 0, missRun := 0, goodRun := 0, missWin := 0, tbHi := 0, catchHi := 0, tn := 0, holdStart := 0, holdOff := 0,
    off := 0, slewT := 0, peerOff := [], ratePass := 0 }

/-- Pairing values before the image is read. -/
def pairZero : PairValues := { content := 0, votegen := 0, station := 0, settings := 0, prgid := 0 }

/-- Start-up state after a lane reset of the kind given. -/
def startReset (cold : Bool) : StartInt :=
  { release := 0, imageOk := false, memOk := true, fieldOk := false, retainOk := false, retDone := false, own := pairZero, peers := [], paired := [],
    firstCatch := none, digests := [], rleKept := false, retLists := [], cold := cold }

/-- An idle vote context. -/
def ctxReset : VoteCtx :=
  { stage := .idle, task := 0, tn := 0, v := 0, image := [], dig := [], peerDig := [], voters := [], blocks := [], hashes := [],
    fetched := [], differs := [], cntA := 0, cntB := 0, cntC := 0, verdicts := [], commit := false }

/-- No readmission. -/
def readmReset : ReadmInt :=
  { who := none, agreed := [], taken := false, catches := 0, started := false, deltaDone := [], got := [], retry := [], shadowOk := [],
    shadow := false, passed := false, failed := false, delta := [], wait := 0 }

/-- A link end after reset: down. -/
def linkReset : LinkEnd :=
  { lastValid := 0, lastSent := 0, lastTrain := 0, expSeq := 0, txSeq := 0, goodRun := 0, retryAsked := false, eff := false }

/-- A core of lane `l` after reset: at the boot ROM, supervisor level (Assumption 11); `coreid` reads 0 in lock-step (R185). -/
def coreReset (l : LaneId) : CoreRegs :=
  { g := List.replicate 32 0, pc := 0, status := 0x8, tvec := 0, epc := 0, cause := 0, tval := 0, scratch := 0, cycle := 0, cycleh := 0,
    instret := 0, instreth := 0, laneid := match l with | .a => 0xA | .b => 0xB | .c => 0xC,
    implid := match l with | .b => 0x201 | _ => 0x101, coreid := 0 }

/-- The checker after reset (R190, R192). -/
def sigReset : SigcInt := { misr0 := 0xFFFFFFFFFFFFFFFF, misr1 := 0xFFFFFFFFFFFFFFFF, phase := .none, good := true, openT := 0, retT := 0 }

/-- The route engine after reset. -/
def rleReset : RleInt :=
  { strokeRun := false, stale := [], closeCmd := [], openCmd := [], xrec := [], openWait := [] }

/-- No online change. -/
def chgReset : ChgInt :=
  { stage := .none, newProg := none, dropForces := false, seq := 0, carry := [], digest := 0, result := 0, peers := [], readyFrom := [],
    ready := false, catches := 0, agreedAt := none, asked := false, committed := false }

/-- The program set after reset: no program loaded. -/
def progReset : ProgInt :=
  { prog := none, code1 := false, half1 := false, mode := .run, runT := 0, lastFin := 0, modeNext := none, fault := false, timers := [],
    forces := [], commOut := 0, commConns := [], commCnt := [], breaks := [], blocks := [], blocksLast := [], chg := chgReset, retNew := false, cmdSeq := 0, laneStep := false, cmdPend := [],
    cmdDone := [], overflow := [], asks := [], asked := [] }

/-- No value agreed: every channel unproven, every class 0b11. -/
def agreedReset : AgreedField := { inp := 0, qrb := 0, cls := 0xFFFFFFFF, intest := 0, enc0 := 0, enc1 := 0 }

/-- The field port after reset. -/
def fldReset : FieldPort :=
  { vals := List.replicate 32 0, disag := List.replicate 32 0, lastUnp := List.replicate 32 0, lastSeq := none, lastValid := none, frame := [], starts := 0, lastCfg := 0, cfgOut := [],
    agreed := agreedReset, prevInp := 0, calHold := [], calCh := 0, qon := 0, dyn := 0, clrReq := 0, qlatNext := 0 }

/-- A bridge after reset. -/
def brgReset : BrgInt :=
  { reads := [], waiting := [], quar := [], writes := [], errs := [], hubMsgs := [], laneMsgs := [], excl := none }

/-- A CRC unit after reset. -/
def crcReset : CrcInt := { alg := 1, reg := 0 }

/-- The module settings with the defaults the manual gives; where it gives none, the values of Assumption 12. -/
def settingsReset : Settings :=
  { period := 50, cdl := 200, autoStart := true, bootStop := false, pairEn := false, estEtype := 0x88B5, autoFwd := false, huC := 0,
    huVmin := 0, huDiv := 1, huIchg := 0, bistMaxAge := 720, hibRtc := 1, serial := 0, pmbVexp := [-12, -12, -12, -12], pmbAddr := [0, 0, 0, 0] }

/-- A reset controller after a power-on reset: held, trim not yet loaded. -/
def rstReset : RstInt :=
  { held := true, cold := true, trimOk := false, trimFails := 0, trimFail := false, t := 0, relT := 0, due := none, goodWin := 0,
    badWin := 0, badXt := 0, xtT := 0, clkHold := false, supHold := false, supT := 0, pmbT := 0, pmbRetry := 0, vTarget := 900, vPrev := 900, pmbOut := none }

/-- The dynamic signal of a lane: 10 kHz, 50 % duty, rising edge at its lane-coded phase (R172). -/
def dynNominal (l : LaneId) : DynSig :=
  { period := 100000, high := 50000, phase := match l with | .a => 0 | .b => 33300 | .c => 66700 }

/-- A lane right after its power-on reset (R490): `RST_CAUSE.POR` set. -/
def laneReset (l : LaneId) : Lane :=
  { id := l, reg := [(RST_CAUSE, 0x1#32)], sram := [], cells := [], ard := [], rstat := [], pstore := [], rle := rleReset, fol := folReset,
    start := startReset true, tasks := [], ctxs := List.replicate 8 ctxReset, due := [], gone := [], readm := readmReset, xl0 := linkReset,
    xl1 := linkReset, core0 := coreReset l, core1 := coreReset l, sig := sigReset, wdt := { last := 0, key1 := false }, prog := progReset,
    fld := fldReset, brg := brgReset, crc := crcReset, conns := [], descs := [], keys := [], keySect := [], set := settingsReset,
    claim := 0, standby := false, yielded := false, yieldNext := false, sent := [], wave := dynNominal l, restT := none, surviving := false, openAtEntry := [], cmpOwn := [], cmpRun := 0, peerReady := false, idle := false,
    rst := rstReset, badBanks := [], notes := [] }

/-- An empty mailbox (R428). -/
def mbxReset : Mailbox :=
  { mem := [], inTlg := [], cmds := [], outTlg := [], results := [], admSeq := 0, pubTime := 0, badWords := [] }

/-- A ring after a hub reset. -/
def ringReset : RingInt :=
  { tstart := 0, listenT := 0, next := 0, ann := none, unwrapWait := false, heard := none, masterId := 0, lastSeen := [], restored := 0,
    losUp := [], losDn := [], wrapN := [], restN := [], wrapE := false, wrapW := false, delayE := 0, delayW := 0, satOut := false,
    predict := 0, annHeard := none, sent := [], outE := [], outW := [] }

/-- The partner unit after a hub reset. -/
def ptnrReset : PtnrInt :=
  { seen := [], txSeq := 0, startT := 0, lastHb := 0, peerRole := 0, peerClaim := 0, peerSerial := 0, peerStroke := 0, peerVals := none, peerVer := 0, hbMissRun := 0,
    decided := none, fwdStroke := 0, fwdTn := 0, fwdList := none, fwdTlgs := [], yielded := false, hbOut := [], yieldOut := [], ackOut := [], estOut := [],
    fwdFrames := [], pageOut := [], pageSent := [],
    got := [], retry := [], resync := false, held := [], fwdDest := none, fwdBuild := 0, fwdHop := 0, fwdGot := [], fwdAckStatus := 0,
    fwdOut := none, fwdSrc := 0, fwdAcked := [], fwdSent := [] }

/-- The host interface after its reset (R367): all queues empty. -/
def hostReset : HostInt :=
  { cmds := [], nextOrd := 0, lastQ := 3, cqW := [0, 0, 0, 0], phase := [true, true, true, true], irq := 0, msix := [], rx := [],
    busyUntil := 0, reinit := [], mreset := none, spiOut := [], granted := [] }

/-- The gateway after a hub reset: nothing loaded. -/
def sgwReset : SgwInt := { entries := [], dests := [], vals := [], run := [] }

/-- The recorder before its start (R443). -/
def recReset : RecInt := { queue := [], next := 0, newest := none, lost := 0, unflushed := [], fresh := true, page := 0, first := 0 }

/-- The update controller before the hub start. -/
def updReset : UpdInt :=
  { downSlot := none, verified := [], stepSeq := none, stepT := none, stopped := false, fieldDone := [], staged := [], setArea := 0, setLen := 0,
    setSeq := 0, setCrc := 0, setFmt := 0, jNext := 0x40000, jSeq := 0, gated := [], samples := [], lowRun := 0, vavg := 0,
    droopRun := false, loader := false, frags := [], loaderOut := [], claim := 0 }

/-- The hub right after an AON power-on reset: `POR` and `AONPOR` set. -/
def hubReset : Hub :=
  { reg := [(HRST_CAUSE, 0x1001#32)], sram := [], mbxA := mbxReset, mbxB := mbxReset, mbxC := mbxReset, tb := 0, ticks := false, portsOff := false,
    up := false, rings := List.replicate 6 ringReset, ptnr := ptnrReset, host := hostReset, sgw := sgwReset, rcd := recReset,
    crc0 := crcReset, crc1 := crcReset, upd := updReset, set := settingsReset, asm := [], ethOut := [], descs := [], rst := rstReset, brst := none,
    hot := false, scrub := 0, badBanks := [] }

/-- The 51 configuration words of the default configuration, in the order of R239. -/
def fieldCfgDefault : List Word :=
  [0x0#32, 0x0#32, 0x1002#32] ++ List.replicate 32 0x9#32 ++ List.replicate 16 0x20A90#32

/-- An encoder front end at rest. -/
def encReset : EncInt :=
  { pos := 0, amp := 0, hAmp := 0, hQerr := 0, hWire := 0, hOvr := 0, zref := false, dir := false, since := 0, ab := 0 }

/-- The FIELD die after its reset (R489): outputs off, default configuration. -/
def fieldReset : FieldDie :=
  { powered := false, sleep := false, uv := true, ot := false, cfg := fieldCfgDefault, cfgDefault := true, cfgSeen := [], lastCmd := 0,
    cmpA := 0, cmpB := 0, seqA := 0, seqB := 0, seqC := 0, tpst := 0, clean := [], band := 0, bandHold := [], openL := 0, shortV := 0, gapMiss := 0, qrb := 0, vfs := 0,
    calReqs := [], cal := none, calFail := false, gap := 0, gapT := [], offTest := [], ovOff := 0, lsHold := 0, ovSince := [], crossBy := [],
    enc0 := encReset, enc1 := encReset, frameA := [], frameB := [], frameC := [], imgSeen := [], imgSpare := [], imgNew := false, imgRun := [], periodT := 0 }

/-- AON after its power-on reset. -/
def aonReset : AonInt :=
  { pwr := .run, entryT := 0, bistLanes := [], bistHub := false, bistBad := 0, wakeLatched := 0, enLA := false, enLB := false, enLC := false, enSD := false, faultN := false, faultWhy := 0,
    pwrcycUntil := 0, hubStep := none, hubRevert := false, resetNLow := none, rtc := 0, rtcAt := 0, rtcOk := true, rtcAlarm := 0, fullNext := false, bench := false, hostSel := false }

/-- Fuses of an IRV3-S with no key hash programmed (Assumption 13). -/
def fusesReset : Fuses := { split := false, keyHash := [[], [], [], []], revoked := 0, partNo := 0 }

/-- The module right after power-on: every die held in its power-on reset, every register at the value of its table (R8, R490), nothing
listed in any memory, no command waiting. -/
def State.reset : State :=
  { now := 0, phase := .sitReady, la := laneReset .a, lb := laneReset .b, lc := laneReset .c, hub := hubReset, field := fieldReset, fieldRst := rstReset,
    aon := aonReset, fuses := fusesReset, flash0 := [], flash1 := [], scrubA := 0, scrubB := 0, scrubC := 0, bus := .none, draws := 0,
    pending := [] }

end Sys2Proof.Machine
end

