-- ==== Sys2Proof/Machine/Ops.lean ====
section
/-! DEFINITION. The named operations over registers, lanes, hub and module that the meanings share: reading and writing registers and
fields, raising interrupts, submitting recorder entries, leaving the vote and entering easy all. -/

namespace Sys2Proof

/-! ### Lane names -/

/-- Position of a lane in the order A, B, C. -/
def LaneId.idx : LaneId → Nat
  | .a => 0 | .b => 1 | .c => 2

/-- The lane code 0x0A, 0x0B or 0x0C (R53, R236). -/
def LaneId.code (l : LaneId) : Nat := 0xA + l.idx

/-- The next lane in the order A → B → C → A: the far end of link 0 (XL registers). -/
def LaneId.succ : LaneId → LaneId
  | .a => .b | .b => .c | .c => .a

/-- The previous lane: the far end of link 1. -/
def LaneId.pred : LaneId → LaneId
  | .a => .c | .b => .a | .c => .b

/-- The two peers of a lane. -/
def LaneId.peers (l : LaneId) : List LaneId := [l.succ, l.pred]

end Sys2Proof

namespace Sys2Proof.Machine

/-! ### Registers -/

/-- The descriptor of the register at address `a`, if one is there (Address Map, R10). -/
def descOf (ds : List RegDesc) (a : Nat) : Option RegDesc :=
  ds.find? fun d => decide (d.base ≤ a) && decide ((a - d.base) % d.stride = 0) && decide ((a - d.base) / d.stride < d.count)

/-- Reset value of the lane register at `a` (R8). -/
def laneRegDefault (a : Nat) : Word := match descOf laneRegs a with | some d => BitVec.ofNat 32 d.reset | none => 0

/-- Reset value of the hub register at `a` (R8). -/
def hubRegDefault (a : Nat) : Word := match descOf hubRegs a with | some d => BitVec.ofNat 32 d.reset | none => 0

/-- A lane register's stored value. -/
def Lane.rg (l : Lane) (a : Nat) : Word := sparseGet laneRegDefault l.reg a
/-- Store a lane register. -/
def Lane.setRg (l : Lane) (a : Nat) (v : Word) : Lane := { l with reg := sparseSet laneRegDefault l.reg a v }
/-- A field of a lane register. -/
def Lane.fget (l : Lane) (f : Fld) : Nat := bvField (l.rg f.addr) f.lo f.w
/-- Store a field of a lane register. -/
def Lane.fset (l : Lane) (f : Fld) (v : Nat) : Lane := l.setRg f.addr (bvSet (l.rg f.addr) f.lo f.w v)
/-- A one-bit field as a truth value. -/
def Lane.on (l : Lane) (f : Fld) : Bool := l.fget f == 1
/-- Count a field up by `n`, stopping at all ones. -/
def Lane.fsat (l : Lane) (f : Fld) (n : Nat) : Lane := l.fset f (satAdd (ones f.w) (l.fget f) n)

/-- A hub register's stored value. -/
def Hub.rg (h : Hub) (a : Nat) : Word := sparseGet hubRegDefault h.reg a
/-- Store a hub register. -/
def Hub.setRg (h : Hub) (a : Nat) (v : Word) : Hub := { h with reg := sparseSet hubRegDefault h.reg a v }
/-- A field of a hub register. -/
def Hub.fget (h : Hub) (f : Fld) : Nat := bvField (h.rg f.addr) f.lo f.w
/-- Store a field of a hub register. -/
def Hub.fset (h : Hub) (f : Fld) (v : Nat) : Hub := h.setRg f.addr (bvSet (h.rg f.addr) f.lo f.w v)
/-- A one-bit field as a truth value. -/
def Hub.on (h : Hub) (f : Fld) : Bool := h.fget f == 1
/-- Count a field up by `n`, stopping at all ones. -/
def Hub.fsat (h : Hub) (f : Fld) (n : Nat) : Hub := h.fset f (satAdd (ones f.w) (h.fget f) n)

/-- The value a register holds after a write of `v` to its RW and RW1C fields (R6). -/
def regWritten (d : RegDesc) (old v : Word) : Word :=
  let rw := BitVec.ofNat 32 d.rw
  let w1c := BitVec.ofNat 32 d.w1c
  ((old &&& ~~~rw) ||| (v &&& rw)) &&& ~~~(v &&& w1c)

/-- A write of the RW and RW1C fields of the lane register at `a`; elsewhere ignored (R6, R10). -/
def Lane.plainWrite (l : Lane) (a : Nat) (v : Word) : Lane :=
  match descOf laneRegs a with | some d => l.setRg a (regWritten d (l.rg a) v) | none => l

/-- A write of the RW and RW1C fields of the hub register at `a`; elsewhere ignored (R6, R10). -/
def Hub.plainWrite (h : Hub) (a : Nat) (v : Word) : Hub :=
  match descOf hubRegs a with | some d => h.setRg a (regWritten d (h.rg a) v) | none => h

/-- The value a register holds after a warm reset: kept fields, and the reset value elsewhere (R8). -/
def regWarm (d : RegDesc) (old : Word) : Word :=
  let k := BitVec.ofNat 32 d.keep
  (old &&& k) ||| (BitVec.ofNat 32 d.reset &&& ~~~k)

/-! ### Lanes, hub, module -/

/-- Lane `l` of the module. -/
def State.lane (s : State) : LaneId → Lane
  | .a => s.la | .b => s.lb | .c => s.lc

/-- Replace lane `l`. -/
def State.setLane (s : State) (l : LaneId) (x : Lane) : State :=
  match l with
  | .a => { s with la := x } | .b => { s with lb := x } | .c => { s with lc := x }

/-- Change lane `l`. -/
def State.modLane (s : State) (l : LaneId) (f : Lane → Lane) : State := s.setLane l (f (s.lane l))

/-- Change the hub. -/
def State.modHub (s : State) (f : Hub → Hub) : State := { s with hub := f s.hub }

/-- Change the FIELD die. -/
def State.modField (s : State) (f : FieldDie → FieldDie) : State := { s with field := f s.field }

/-- The three lanes in the order A, B, C. -/
def allLanes : List LaneId := [.a, .b, .c]

/-- Time passes to `t`; it never goes back. -/
def State.at (s : State) (t : Nat) : State := { s with now := max s.now t }

/-- A lane's follower reads `t`; it never steps backward (R38). -/
def Lane.at (l : Lane) (t : Nat) : Lane := { l with fol := { l.fol with time := max l.fol.time t } }

/-- A lane event at follower time `t`. -/
def State.laneAt (s : State) (l : LaneId) (t : Nat) : State := (s.at t).modLane l (·.at t)

/-- The last access answered with a bus error (R5). -/
def State.busErr (s : State) : State := { s with bus := .error }
/-- The last access answered with data. -/
def State.busData (s : State) (w : Word) : State := { s with bus := .data w }
/-- The last access was carried out and gives no data. -/
def State.busOk (s : State) : State := { s with bus := .none }

/-- Draw a free word: its value is open (R429; Assumption 4). -/
def State.draw (s : State) : Word × State := (Config.freeWord s.draws, { s with draws := s.draws + 1 })

/-! ### Modes -/

/-- `VOTE_STAT.MODE` codes. -/
def modeSitReady : Nat := 0
/-- 2oo3. -/
def mode2oo3 : Nat := 1
/-- 2oo2. -/
def mode2oo2 : Nat := 2
/-- Out of the vote. -/
def modeOut : Nat := 3
/-- Readmission transfer. -/
def modeTransfer : Nat := 4
/-- Shadow stroke. -/
def modeShadow : Nat := 5
/-- Easy all. -/
def modeEasy : Nat := 6

/-- `VOTE_STAT.MODE`. -/
def Lane.mode (l : Lane) : Nat := l.fget VOTE_STAT_MODE
/-- The lane is a voter. -/
def Lane.inVote (l : Lane) : Bool := l.on VOTE_STAT_INVOTE
/-- The lane has armed. -/
def Lane.armed (l : Lane) : Bool := l.on TMR_STAT_ARMED
/-- The module has left sit ready, as this lane sees it. -/
def Lane.running (l : Lane) : Bool := l.on TMR_STAT_RUNNING
/-- Sit ready (R4). -/
def Lane.sitReady (l : Lane) : Bool := l.mode == modeSitReady
/-- In sit ready and not armed (R4): the condition of the configuration writes. -/
def Lane.unarmed (l : Lane) : Bool := l.sitReady && !l.armed
/-- Released while the module runs and still to ask for readmission: its start-up checks and its set-up for them run out of the vote (R167,
R193; Assumption 70). -/
def Lane.joining (l : Lane) : Bool := l.mode == modeOut && !l.armed && !l.inVote && l.fget VOTE_READM_RSTEP == 0
/-- Easy all. -/
def Lane.easy (l : Lane) : Bool := l.mode == modeEasy
/-- Out of reset. -/
def Lane.up (l : Lane) : Bool := !l.rst.held
/-- The split-core fuse is blown (R2, R201). -/
def State.split (s : State) : Bool := s.fuses.split
/-- The stroke number. -/
def Lane.stroke (l : Lane) : Word := l.rg TMR_STROKE_NO

/-- Whether lane `p` stands in the voter set as lane `l` holds it (`VOTE_STAT.INSET`). -/
def Lane.holds (l : Lane) (p : LaneId) : Bool := (l.fget VOTE_STAT_INSET >>> p.idx) % 2 == 1
/-- The voter set as a list. -/
def Lane.inset (l : Lane) : List LaneId := allLanes.filter l.holds
/-- A set of lanes as three bits. -/
def laneMask (ls : List LaneId) : Nat :=
  b2n (ls.contains .a) + 2 * b2n (ls.contains .b) + 4 * b2n (ls.contains .c)
/-- Store the voter set. -/
def Lane.setInset (l : Lane) (ls : List LaneId) : Lane := l.fset VOTE_STAT_INSET (laneMask ls)
/-- Three bits as lanes. -/
def maskLanes (m : BitVec 3) : List LaneId := allLanes.filter fun l => m.getLsbD l.idx

/-- Lanes whose own `INVOTE` reads 1. -/
def State.voters (s : State) : List LaneId := allLanes.filter fun l => (s.lane l).inVote

/-- The module has not had its first catch (R4). -/
def State.modSitReady (s : State) : Bool := match s.phase with | .sitReady => true | .restarting => true | _ => false

/-! ### Interrupts -/

/-- A source raises line `n` (R189). -/
def Lane.raise (l : Lane) (n : Nat) : Lane := l.setRg LCTL_IRQ_PEND (l.rg LCTL_IRQ_PEND ||| BitVec.ofNat 32 (2 ^ n))

/-- Set a RW1C bit of `VOTE_STAT` and raise line 2 (Interrupt lines; which events raise lines 2 and 3 is Assumption 14). -/
def Lane.voteFlag (l : Lane) (f : Fld) : Lane := (l.fset f 1).raise 2

/-! ### Recorder submissions -/

/-- The `CODE` of an event: class of the subject in R383, and an event number the manual leaves open (R436; Assumption 6). -/
def recCode (cls rule : Nat) : Half := BitVec.ofNat 16 (cls * 256 + (Config.recCode rule).toNat % 256)

/-- `DATA`: the items in order, each big-endian, packed, padded with zeros to 8 bytes (R436). -/
def recData (items : List (Nat × Nat)) : List Byte := padTo 8 (items.flatMap fun i => beBytes i.1 i.2)

/-- A submission joins the input queue of 64; one that finds it full is dropped and counted (R437). The recorder takes none after a
power-fail (R442). -/
def Hub.submit (h : Hub) (x : RecSub) : Hub :=
  if h.on NVW_STAT_PF then h
  else if h.rcd.queue.length < 64 then { h with rcd := { h.rcd with queue := h.rcd.queue ++ [x] } }
  else { h.fsat REC_STAT_DROPCNT 1 with rcd := { h.rcd with lost := h.rcd.lost + 1 } }

/-- Submit for lane `l`: block index, class, rule, data. -/
def State.recLane (s : State) (l : LaneId) (blk cls rule : Nat) (data : List (Nat × Nat)) : State :=
  s.modHub (·.submit { t := s.now, source := (l.idx + 1) * 0x1000 + blk, code := recCode cls rule, data := recData data,
                       bench := (s.lane l).on LCTL_STAT_BENCH })

/-- Form a submission in the lane. -/
def Lane.note (l : Lane) (blk cls rule : Nat) (data : List (Nat × Nat)) : Lane :=
  { l with notes := l.notes ++ [{ blk := blk, cls := cls, rule := rule, data := data }] }

/-- Hand a lane's submissions to the recorder (R437). -/
def State.flushNotes (s : State) (l : LaneId) : State :=
  ((s.lane l).notes.foldl (fun (s : State) n => s.recLane l n.blk n.cls n.rule n.data) s).modLane l fun x => { x with notes := [] }

/-- Change lane `l` when it is out of reset, and hand on what it submits to the recorder; commands of a die held in reset do nothing
(Assumption 15). -/
def State.upLane (s : State) (l : LaneId) (f : Lane → Lane) : State :=
  if (s.lane l).rst.held then s else (s.modLane l f).flushNotes l

/-- Submit for the hub. -/
def State.recHub (s : State) (blk cls rule : Nat) (data : List (Nat × Nat)) : State :=
  s.modHub (·.submit { t := s.now, source := 0x4000 + blk, code := recCode cls rule, data := recData data, bench := false })

/-- Block index of firmware in `SOURCE` (R436). -/
def blkFirmware : Nat := 0xFFF

/-! ### Fault pin -/

/-- Reasons for which `FAULT_N` is low: bit 0 easy all, bit 1 TRIMFAIL, bit 2 `VDDIO`, bit 3 wake failure, bit 4 loader. -/
def State.faultPin (s : State) (k : Nat) (v : Bool) : State :=
  let w := if v then s.aon.faultWhy ||| BitVec.ofNat 5 (2 ^ k) else s.aon.faultWhy &&& ~~~(BitVec.ofNat 5 (2 ^ k))
  let n := decide (w ≠ 0)
  let h := if n != s.hub.on HCMD_STAT_FAULT && s.hub.on HCMD_CTRL_IE_STAT then
      { s.hub with host := { s.hub.host with irq := s.hub.host.irq ||| 0x10#5 } } else s.hub
  { s with aon := { s.aon with faultWhy := w, faultN := n }, hub := h.fset HCMD_STAT_FAULT (b2n n) }

/-! ### Leaving the vote -/

/-- Leave reasons (R163). -/
def leaveDissent : Nat := 0x01
/-- OVERRUN. -/
def leaveOverrun : Nat := 0x02
/-- CONS_LATE. -/
def leaveConsLate : Nat := 0x03
/-- VOTE_LATE. -/
def leaveVoteLate : Nat := 0x04
/-- FETCH_BAD. -/
def leaveFetchBad : Nat := 0x05
/-- RATE. -/
def leaveRate : Nat := 0x06
/-- SUPPLY. -/
def leaveSupply : Nat := 0x07
/-- CLOCK. -/
def leaveClock : Nat := 0x08
/-- LINK. -/
def leaveLink : Nat := 0x09
/-- LANE_FAULT. -/
def leaveLaneFault : Nat := 0x0A
/-- DEBUG. -/
def leaveDebug : Nat := 0x0B
/-- FIRMWARE. -/
def leaveFirmware : Nat := 0x0C

/-- Reasons that end a lane's standing as a survivor of easy all (R180). -/
def reasonEndsSurvival (r : Nat) : Bool := r == 0x06 || r == 0x07 || r == 0x08 || r == 0x0A || r == 0x0B

/-- Stop every dynamic signal of a lane (R164, R179). -/
def Lane.stopDyn (l : Lane) : Lane := { l.fset VOTE_STAT_DYN_EN 0 with fld := { l.fld with dyn := 0 } }

/-- Put a notice on both links (R164, R178). -/
def Lane.sendNotice (l : Lane) (easy : Bool) (code : Nat) : Lane :=
  { l with sent := l.id.peers.map fun p => { dst := p, easy := easy, code := code } }

/-- Steps 1 and 2 of R164 at the lane: enables cleared, leave notices on both links, `VOTE_LEAVE` written, the lane out, its exclusion
counted; a reset of the cause `cause` requested for `due`. A notice arrives as LEAVE_NOTICE. -/
def Lane.leaveNow (l : Lane) (reason ctx seg due cause : Nat) : Lane :=
  let l := ((l.stopDyn.fset VOTE_STAT_SIGN_EN 0).fset VOTE_STAT_INVOTE 0).sendNotice false reason
  let l := (l.fset VOTE_STAT_MODE modeOut).setInset (removeL l.id l.inset)
  let l := ((l.fset VOTE_LEAVE_REASON reason).fset VOTE_LEAVE_CTX ctx).fset VOTE_LEAVE_SEG seg
  let l := (l.fsat VOTE_CNT_NEXCL 1).raise 2
  let l := if reason = leaveSupply then l.fset PWRC_STAT_SUPLEAVE 1 else l
  { l with rst := { l.rst with due := some (false, cause, due) }, due := [],
           gone := (l.id, reason) :: l.gone.filter fun (g : LaneId × Nat) => g.1 != l.id }

/-- Cause bit of a software reset in `RST_CAUSE`. -/
def causeSwr : Nat := 4
/-- Cause bit of a watchdog reset. -/
def causeWdt : Nat := 3
/-- Cause bit of a debug reset. -/
def causeDbg : Nat := 5
/-- Cause bit of a clock failure. -/
def causeClkf : Nat := 6
/-- Cause bit of a lock-up. -/
def causeLockup : Nat := 7
/-- Cause bit of a pin reset. -/
def causePin : Nat := 2
/-- Cause bit of a brown-out. -/
def causeBor : Nat := 1
/-- Cause bit of a power-on reset. -/
def causePor : Nat := 0

/-- 10 µs: the delay from step 1 of R164 to a reset (R164, R492). -/
def tenMicros : Nat := 10000

/-! ### Easy all -/

/-- Causes (R177). -/
def easyFewLanes : Nat := 0x01
/-- DISSENT_2OO2. -/
def easyDissent : Nat := 0x02
/-- NO_MAJORITY. -/
def easyNoMajority : Nat := 0x03
/-- DEBUG_HALT. -/
def easyDebugHalt : Nat := 0x04
/-- SUPPLY_CLOCK. -/
def easySupplyClock : Nat := 0x05
/-- HOST_CMD. -/
def easyHostCmd : Nat := 0x06
/-- START_TIMEOUT. -/
def easyStartTimeout : Nat := 0x07
/-- FIRMWARE. -/
def easyFirmware : Nat := 0x08

/-- A readmission is abandoned with `AREASON` r (R171): idle or waiting, one more try, failed at three. -/
def Lane.abandonReadm (l : Lane) (r : Nat) : Lane :=
  if l.fget VOTE_READM_RSTEP = 0 ∨ l.fget VOTE_READM_RSTEP = 5 ∨ l.fget VOTE_READM_RSTEP = 6 then l
  else
    let n := satInc 3 (l.fget VOTE_READM_TRIES)
    let l := ((l.fset VOTE_READM_AREASON r).fset VOTE_READM_TRIES n).fset VOTE_READM_RSTEP 6
    let l := if n = 3 then l.fset VOTE_READM_FAILED 1 else l
    let l := if l.easy then l else l.fset VOTE_STAT_MODE modeOut
    { l with readm := { readmReset with wait := 16 } }

/-- A task leaves its cycle without a finish. -/
def TaskRun.ended (k : TaskRun) : TaskRun :=
  { k with active := false, own := none, peers := [], frozen := [], admitted := [], toFetch := [], decided := false, excepted := false,
           broke := false, ready := false, begun := false, shadow := false }

/-- What a lane does at its entry into easy all (R177 to R180): cause recorded, dynamics stopped, the vote, the tasks, the route engine and
readmission ended, connections that are not OPEN closed; a voter survives and may sign restrictive telegrams (R174). -/
def Lane.enterEasy (l : Lane) (split : Bool) (cause : Nat) (peer : Bool) : Lane :=
  if l.easy then l
  else
    let surv := l.inVote
    let served := if (l.tasks.any fun k => k.tnum == 0 && k.active) then none else some l.fol.tn
    let l := ((l.abandonReadm 0x06).stopDyn).sendNotice true cause
    let l := ((l.fset VOTE_STAT_MODE modeEasy).fset VOTE_STAT_INVOTE 0).fset VOTE_STAT_INSET 0
    let l := l.fset VOTE_STAT_SIGN_EN (b2n (surv && !split))
    let l := ((l.fset VOTE_EASY_CAUSE cause).fset VOTE_EASY_PEER (b2n peer)).raise 2
    let l := l.fset RLE_STAT_BUSY 0
    let openC := (l.conns.filter fun e => e.2.st == .opened).map (·.1)
    { l with
      surviving := surv, restT := served, yielded := l.yielded || (l.set.pairEn && !l.standby), openAtEntry := openC, due := [], ctxs := List.replicate 8 ctxReset, tasks := l.tasks.map TaskRun.ended,
      conns := sparseMap (fun _ => Conn.init) (fun _ c => if c.st == .opened then c else { c with st := .closed, ackDue := false, closeDue := none }) l.conns,
      prog := { l.prog with chg := chgReset } }

/-- The module stands in easy all until its restart (R181); while a module reset is under way it does not enter. -/
def State.markEasy (s : State) : State := { s with phase := match s.phase with | .restarting => .restarting | _ => .easy }

/-- Lane `l` enters easy all. -/
def State.enterEasy (s : State) (l : LaneId) (cause : Nat) (peer : Bool) : State :=
  if (s.lane l).up then (s.modLane l fun x => x.enterEasy s.split cause peer).markEasy else s

/-! ### Leaving in the module -/

/-- A lane that is out for reason RATE, SUPPLY or CLOCK, other than `l` (R177). -/
def State.outForSupply (s : State) (l : LaneId) : Bool :=
  allLanes.any fun y => y != l && !(s.lane y).inVote &&
    ((s.lane y).fget VOTE_LEAVE_REASON == leaveRate || (s.lane y).fget VOTE_LEAVE_REASON == leaveSupply ||
      (s.lane y).fget VOTE_LEAVE_REASON == leaveClock)

/-- The last voter has left: every lane out of reset enters easy all (R15, R31, R72, R166, R177). While a lane is still a voter it learns of
the leave by its notice. A debug halt outside bench mode gives its own cause (R197). -/
def State.noVoters (s : State) (l : LaneId) (reason : Nat) : State :=
  if allLanes.any fun y => (s.lane y).inVote then s
  else
    let cause := if (reason == leaveRate || reason == leaveSupply || reason == leaveClock) && s.outForSupply l then easySupplyClock
      else if reason == leaveDebug && !(s.lane l).on LCTL_STAT_BENCH then easyDebugHalt else easyFewLanes
    (allLanes.foldl (fun (s : State) y => s.enterEasy y cause false) s).markEasy

/-- A voter leaves (R163, R164): with the lane's own recorder entry naming lane, reason, context, stroke and first differing segment. A
surviving lane of easy all stops signing on the reasons of R180. A lane that is neither a voter nor a survivor makes no leave. -/
def State.leave (s : State) (l : LaneId) (reason ctx seg due cause : Nat) : State :=
  let x := s.lane l
  if x.easy then
    if x.surviving && reasonEndsSurvival reason then s.setLane l { x.fset VOTE_STAT_SIGN_EN 0 with surviving := false } else s
  else if x.inVote then
    let s := (s.setLane l (x.leaveNow reason ctx seg due cause)).recLane l 1 2 164
      [(1, l.code), (1, reason), (4, x.stroke.toNat), (2, ctx * 8192 + seg % 8192)]
    s.noVoters l reason
  else s

/-- A voter leaves at once; its reset follows 10 µs after step 1 (R164). -/
def State.leaveAtOnce (s : State) (l : LaneId) (reason : Nat) (cause : Nat) : State :=
  s.leave l reason 0 0 (s.now + tenMicros) cause


/-! ### Clocks of the hub's transmitters -/

/-- Ring, partner and SGMII transmitters are not at electrical idle: XT and its SerDes PLL run, and no HIBERNATE entry has stopped them (R487,
R513). -/
def Hub.xtRuns (h : Hub) : Bool := h.on CLKC_HSTAT_XT_OK && h.on CLKC_HSTAT_SDLOCK && !h.portsOff

/-! ### Traps (R188) -/

/-- `IE`. -/
def stIE : Nat := 0
/-- `PIE`. -/
def stPIE : Nat := 1
/-- `WAIT`. -/
def stWAIT : Nat := 2
/-- `SUP`. -/
def stSUP : Nat := 3
/-- `PSUP`. -/
def stPSUP : Nat := 4

/-- A bit of a core's `status`. -/
def CoreRegs.bit (c : CoreRegs) (k : Nat) : Bool := c.status.getLsbD k
/-- Store a bit of `status`. -/
def CoreRegs.setBit (c : CoreRegs) (k : Nat) (v : Bool) : CoreRegs := { c with status := bvSet c.status k 1 (b2n v) }

/-- Taking a trap: `epc`, `cause` and `tval` written, `IE` and `SUP` saved, interrupts off, supervisor level, on at `tvec`; a waiting core
wakes. -/
def CoreRegs.trap (c : CoreRegs) (cause tval : Word) : CoreRegs :=
  let s := ((c.setBit stPIE (c.bit stIE)).setBit stPSUP (c.bit stSUP)).setBit stIE false
  let s := (s.setBit stSUP true).setBit stWAIT false
  { s with epc := c.pc, cause := cause, tval := tval, pc := c.tvec &&& 0xFFFFFF00 }

/-- Load bus error. -/
def excLoad : Nat := 4
/-- Store bus error. -/
def excStore : Nat := 5

/-- A bus error response to an access at `a` raises a load or store bus error in the core pair (R188, R388); with `split` in core 0, where a lane's
accesses come from (Assumption 111). -/
def Lane.busTrap (l : Lane) (split write : Bool) (a : Word) : Lane :=
  let code := BitVec.ofNat 32 (if write then excStore else excLoad)
  let l := { l with core0 := l.core0.trap code a }
  if split then l else { l with core1 := l.core1.trap code a }

/-- An access of lane `l` at `a` was answered: a bus error is an exception of its cores. -/
def State.trapOnError (s : State) (l : LaneId) (a : Word) (write : Bool) : State :=
  if s.bus = .error ∧ (s.lane l).rst.held = false then s.modLane l (·.busTrap s.split write a) else s

/-! ### Errors of a lane's memories (R82, R417, R418) -/

/-- A corrected error in a lane: counted and recorded. -/
def Lane.corrected (l : Lane) (a : Nat) : Lane :=
  ((l.fsat LCTL_MEMSTAT_CECNT 1).fset LCTL_MEMSTAT_CE 1).setRg LCTL_ECCADDR (BitVec.ofNat 32 (a / 4 * 4))
/-- An uncorrectable error in a lane: recorded, and the lane leaves at once with LANE_FAULT. -/
def State.laneUncorrectable (s : State) (l : LaneId) (a : Nat) : State :=
  (s.modLane l fun x => (x.fset LCTL_MEMSTAT_UE 1).setRg LCTL_ECCADDR (BitVec.ofNat 32 (a / 4 * 4 + 2))).leaveAtOnce l leaveLaneFault causeSwr
/-- A read in a lane of the word at `a` that finds `nerr` bits in error: corrected data and a count for one, no data and LANE_FAULT for more; a
bus error where the address answers none. -/
def State.laneRead (s : State) (l : LaneId) (a nerr : Nat) (w : Option Word) : State :=
  match w with
  | none => s.busErr
  | some v =>
    if nerr = 0 then s.busData v
    else if nerr = 1 then (s.modLane l (·.corrected a)).busData v
    else (s.laneUncorrectable l a).busErr

/-! ### SRAM of a lane, links, tasks -/

/-- First address of lane SRAM (R415). -/
def sramBase : Nat := 0x08000000
/-- One past the last address of lane and hub SRAM. -/
def sramEnd : Nat := 0x09000000
/-- Whether `[a, a + n)` lies in lane or hub SRAM. -/
def inSram (a n : Nat) : Bool := decide (sramBase ≤ a) && decide (a + n ≤ sramEnd)

/-- The stroke period P in ns. -/
def Lane.period (l : Lane) : Nat := l.fget TMR_STROKE_PERIOD * 1000000
/-- The compute deadline D in ns. -/
def Lane.deadline (l : Lane) : Nat := l.fget TMR_STROKE_CDL * 100000

/-- The task entry of `tnum`. -/
def Lane.taskOf (l : Lane) (tnum : Nat) : Option TaskRun := l.tasks.find? fun k => k.tnum == tnum
/-- The descriptor of `tnum` in the loaded program. -/
def Lane.taskDesc (l : Lane) (tnum : Nat) : Option TaskDesc := l.prog.prog.bind fun p => p.tasks.find? fun d => d.tnum == tnum

/-- A task not yet released. -/
def taskNew (tnum : Nat) : TaskRun :=
  { tnum := tnum, active := false, tn := 0, prevTn := 0, own := none, peers := [], frozen := [], admitted := [], toFetch := [], decided := false,
    excepted := false, broke := false, mode := .run, ready := false, last := [], comm := [], view := [], safe := [], begun := false, held := 0, trigT := 0, served := 0, relT := 0,
    shadow := false }

/-- Change the entry of `tnum`, making one if there is none. -/
def Lane.modTask (l : Lane) (tnum : Nat) (f : TaskRun → TaskRun) : Lane :=
  if (l.taskOf tnum).isSome then { l with tasks := l.tasks.map fun k => if k.tnum = tnum then f k else k }
  else { l with tasks := l.tasks ++ [f (taskNew tnum)] }

/-- The vote context of a task: 0 for the stroke task (R150, R214). -/
def Lane.ctxOf (l : Lane) (tnum : Nat) : Nat := if tnum = 0 then 0 else match l.taskDesc tnum with | some d => d.ctx | none => 1

/-- d of a task in ns: D for the stroke task (R64). -/
def Lane.dOf (l : Lane) (tnum : Nat) : Nat := if tnum = 0 then l.deadline else match l.taskDesc tnum with | some d => d.dvote * 100000 | none => 0

/-- Length of the vote window: 0.4 ms for the stroke, 0.2 ms for a task (R64, R67). -/
def voteWindow (tnum : Nat) : Nat := if tnum = 0 then 400000 else 200000

/-- Context `c` of a lane. -/
def Lane.ctx (l : Lane) (c : Nat) : VoteCtx := l.ctxs.getD c ctxReset
/-- Change context `c`. -/
def Lane.modCtx (l : Lane) (c : Nat) (f : VoteCtx → VoteCtx) : Lane := { l with ctxs := listMod l.ctxs c f }

/-- The mailbox of a lane. -/
def Hub.mbx (h : Hub) : LaneId → Mailbox
  | .a => h.mbxA | .b => h.mbxB | .c => h.mbxC
/-- Change a mailbox. -/
def Hub.modMbx (h : Hub) (l : LaneId) (f : Mailbox → Mailbox) : Hub :=
  match l with
  | .a => { h with mbxA := f h.mbxA } | .b => { h with mbxB := f h.mbxB } | .c => { h with mbxC := f h.mbxC }

/-! ### Instance data (R205, R208) -/

/-- Data half 0 or 1. -/
def dataHalf (one : Bool) : Nat := if one then 0x08500000 else 0x08400000
/-- The active instance data. -/
def Lane.dataBase (l : Lane) : Nat := dataHalf l.prog.half1
/-- Write values into the active instance data: offset, bytes. -/
def Lane.putVars (l : Lane) (vs : List (Nat × List Byte)) : Lane :=
  { l with sram := vs.foldl (fun m v => memPutBytes m (l.dataBase + v.1) v.2) l.sram }
/-- The lane with every variable of other tasks that stand between catch and finish as last committed: their writes become visible only at
their own finish (R213). -/
def Lane.withCommitted (l : Lane) (task : Nat) : Lane :=
  (l.tasks.filter fun k => k.active && k.tnum != task).foldl (fun (x : Lane) k => x.putVars k.comm) l

/-! ### Pairing values (R46, R210, R261) -/

/-- The registers of R261 that take part in the settings digest, in ascending register offset order. -/
def Lane.fieldRegs (l : Lane) : List Word :=
  [l.rg FLDP_QCTX0, l.rg FLDP_QCTX1, l.rg FLDP_ENCCFG0, l.rg FLDP_ENCCFG1, l.rg FLDP_TPCFG] ++ (upTo 32).map (fun k => l.rg (FLDP_INCFG k)) ++
    (upTo 16).map (fun k => l.rg (FLDP_QCFG k))

/-- What a lane compares with its peers: the settings digest covers the settings in force and the field configuration (R46, R261; how it is formed is
Assumption 105). -/
def Lane.pairValues (l : Lane) : PairValues :=
  { l.start.own with
    settings := BitVec.ofNat 32 (crc32c (beBytes 4 l.start.own.settings.toNat ++ l.fieldRegs.flatMap fun w => beBytes 4 w.toNat)) }

/-- A lane's end of its link 0 or 1. -/
def Lane.link (l : Lane) (k : Nat) : LinkEnd := if k = 0 then l.xl0 else l.xl1
/-- Change a link end. -/
def Lane.modLink (l : Lane) (k : Nat) (f : LinkEnd → LinkEnd) : Lane :=
  if k = 0 then { l with xl0 := f l.xl0 } else { l with xl1 := f l.xl1 }

/-- The next multiple of `p` at or after `t`. -/
def ceilMult (p t : Nat) : Nat := if p = 0 then t else (t + p - 1) / p * p

/-- The outcome every completed command answers. -/
abbrev done (s : State) : Host.Outcome State Fault Refusal := .next s

end Sys2Proof.Machine
end

