-- ==== Sys2Proof/Machine/Operands.lean ====
section
/-! DEFINITION. The formats that commands and memories carry: EST telegrams, connection descriptors, consensus frames and entries,
command headers and completions, recorder records, the journal, boot pointers (R53, R54, R260, R316, R317, R327, R371, R374, R436). -/

namespace Sys2Proof.Machine

/-! ### EST telegrams (R316, R317) -/

/-- A telegram taken apart. -/
structure Tlg where
  tstamp  : Nat
  seq     : Nat
  claim   : Nat
  payload : List Byte
  codeA   : Nat
  codeB   : Nat
  codeC   : Nat
  tag     : Option Nat
  connid  : Dword
  type    : Nat
  flags   : Nat
  keyid   : Nat
  scrc    : Nat
  deriving DecidableEq, Repr

/-- DATA. -/
def tyData : Nat := 1
/-- CONN_REQ. -/
def tyReq : Nat := 2
/-- CONN_RESP. -/
def tyResp : Nat := 3
/-- CONN_ACK. -/
def tyAck : Nat := 4
/-- CLOSE. -/
def tyClose : Nat := 5

/-- `AUTH`. -/
def Tlg.auth (t : Tlg) : Bool := getField t.flags 0 1 == 1
/-- `DIRR`. -/
def Tlg.dirr (t : Tlg) : Bool := getField t.flags 1 1 == 1
/-- `COMM`. -/
def Tlg.comm (t : Tlg) : Bool := getField t.flags 2 1 == 1

/-- The 16 header bytes. -/
def Tlg.header (t : Tlg) : List Byte := beBytes 8 t.tstamp ++ beBytes 4 t.seq ++ beBytes 4 t.claim

/-- Trailer bytes 0 to 11. -/
def Tlg.trailer12 (t : Tlg) : List Byte :=
  beBytes 8 t.connid.toNat ++ [BitVec.ofNat 8 t.type, BitVec.ofNat 8 t.flags, BitVec.ofNat 8 t.payload.length, BitVec.ofNat 8 t.keyid]

/-- The telegram's bytes (R316). -/
def Tlg.bytes (t : Tlg) : List Byte :=
  t.header ++ t.payload ++ beBytes 4 t.codeA ++ beBytes 4 t.codeB ++ beBytes 4 t.codeC ++
    (match t.tag with | some g => beBytes 16 g | none => []) ++ t.trailer12 ++ beBytes 4 t.scrc

/-- The safety CRC from the safety seed (R321). -/
def Tlg.safetyCrc (t : Tlg) (seed : Word) : Nat := crc32Init seed.toNat (t.header ++ t.payload ++ t.trailer12)

/-- The code of a lane from its seed (R173, R322). -/
def Tlg.laneCode (t : Tlg) (seed : Word) : Nat := crc32Init seed.toNat (t.header ++ t.payload)

/-- The tag under a key (R323). -/
def Tlg.tagOf (t : Tlg) (key : BitVec 128) : Nat := (cmac key (t.header ++ t.payload ++ t.trailer12 ++ beBytes 4 t.scrc)).toNat

/-- Find the trailer from the length and take a telegram apart; none when the length does not agree with `LEN` and `AUTH`, or `LEN`
passes 196 (R316, R336 step 1). -/
def parseTlg (bs : List Byte) : Option Tlg :=
  let n := bs.length
  if n < 44 then none
  else
    let tr := n - 16
    let flags := beAt bs (tr + 9) 1
    let len := beAt bs (tr + 10) 1
    let au := getField flags 0 1 = 1
    if n ≠ 44 + len + (if au then 16 else 0) ∨ 196 < len then none
    else
      some { tstamp := beAt bs 0 8, seq := beAt bs 8 4, claim := beAt bs 12 4, payload := (bs.drop 16).take len,
             codeA := beAt bs (16 + len) 4, codeB := beAt bs (20 + len) 4, codeC := beAt bs (24 + len) 4,
             tag := if au then some (beAt bs (28 + len) 16) else none, connid := BitVec.ofNat 64 (beAt bs tr 8),
             type := beAt bs (tr + 8) 1, flags := flags, keyid := beAt bs (tr + 11) 1, scrc := beAt bs (tr + 12) 4 }

/-- The rest of step 1 of R336: `TYPE` defined, reserved bits 0, `KEYID` 0 without `AUTH`, and the fixed payloads of R317. -/
def Tlg.formOk (t : Tlg) : Bool :=
  let p := t.payload
  decide (1 ≤ t.type) && decide (t.type ≤ 5) && getField t.flags 4 4 == 0 && (t.auth || t.keyid == 0) &&
    (if t.type = tyReq then p == [0x00, 0x01, 0x00, 0x00]
     else if t.type = tyResp ∨ t.type = tyAck then p.length == 12
     else if t.type = tyClose then p.length == 4 && decide (1 ≤ beAt p 0 1) && decide (beAt p 0 1 ≤ 5) && beAt p 1 3 == 0
     else true)

/-- The echo a CONN_RESP or CONN_ACK carries: `SEQ` and `TSTAMP` (R317). -/
def Tlg.echo (t : Tlg) : Nat × Nat := (beAt t.payload 0 4, beAt t.payload 4 8)

/-! ### Connection descriptors (R327) -/

/-- A descriptor from its 32 bytes. -/
def connDescOf (bs : List Byte) : ConnDesc :=
  { connid := BitVec.ofNat 64 (beAt bs 0 8), cls := beAt bs 8 1, cflags := beAt bs 9 1, carrier := beAt bs 10 1, port := beAt bs 11 1,
    ctx := beAt bs 12 1, cthr := beAt bs 13 1, seqwin := beAt bs 14 2, maxage := beAt bs 16 2, tmo := beAt bs 18 2,
    holdoff := beAt bs 20 2, vlan := beAt bs 22 2, peermac := beAt bs 24 6 }

/-- `INIT`. -/
def ConnDesc.init (d : ConnDesc) : Bool := getField d.cflags 0 1 == 1
/-- `AUTH` required. -/
def ConnDesc.auth (d : ConnDesc) : Bool := getField d.cflags 1 1 == 1
/-- `COMMOK`. -/
def ConnDesc.commOk (d : ConnDesc) : Bool := getField d.cflags 2 1 == 1

/-- Element connection. -/
def clsElement : Nat := 1
/-- Request connection. -/
def clsRequest : Nat := 2
/-- Indication connection. -/
def clsIndication : Nat := 3
/-- Peer-module connection. -/
def clsPeer : Nat := 4

/-- The checks of R328 on one descriptor in use, seeds and repeats apart. -/
def ConnDesc.ok (d : ConnDesc) : Bool :=
  let top := if d.carrier = 1 then 5 else if d.carrier = 2 then 1 else if d.carrier = 3 then 3 else 0
  decide (1 ≤ d.cls) && decide (d.cls ≤ 4) && decide (d.cflags < 8) && decide (1 ≤ d.carrier) && decide (d.carrier ≤ 4) &&
    decide (d.port ≤ top) && decide (d.ctx ≤ 7) && decide (1 ≤ d.cthr) && decide (1 ≤ d.seqwin) && decide (d.seqwin ≤ 1024) &&
    decide (1 ≤ d.maxage) && decide (d.maxage ≤ 3000) && decide (2 ≤ d.tmo) && decide (d.tmo ≤ 10000) && decide (d.holdoff ≤ 60000) &&
    (d.carrier == 3 || (d.vlan == 0 && d.peermac == 0)) && getField d.vlan 12 3 == 0 && decide (d.maxage < d.tmo) &&
    (d.auth || (d.carrier != 3 && d.carrier != 4))

/-- The checks of R328 on the seeds of a connection. -/
def KeyEntry.seedsOk (k : KeyEntry) : Bool :=
  let ss := [k.rxA, k.rxB, k.rxC, k.safety]
  ss.all (fun x => decide (x ≠ 0)) && decide ss.Nodup

/-! ### Consensus entries and frames (R53, R54, R260) -/

/-- An entry's 16 bytes. -/
def entryBytes (e : ConsEntry) : List Byte := beBytes 8 e.conn.toNat ++ beBytes 4 e.seq.toNat ++ beBytes 4 e.digest.toNat

/-- The 32 bytes of a field image (R260). -/
def fieldImgBytes (f : FieldImg) : List Byte :=
  beBytes 8 f.inp.toNat ++ beBytes 8 f.qst.toNat ++ beBytes 4 f.intest.toNat ++ beBytes 6 f.enc0.toNat ++ beBytes 6 f.enc1.toNat

/-- A consensus frame's bytes (R53). -/
def consBytes (l : LaneId) (f : ConsFrame) : List Byte :=
  beBytes 4 f.stroke.toNat ++ beBytes 8 f.tn ++ beBytes 8 f.sendTime ++ [BitVec.ofNat 8 l.code] ++
    [BitVec.ofNat 8 (b2n f.holdover + 2 * b2n f.inVote)] ++ beBytes 2 f.entries.length ++ fieldImgBytes f.img ++ f.entries.flatMap entryBytes

/-- The entry at offset `o`. -/
def consEntryAt (c : List Byte) (o : Nat) : ConsEntry :=
  { conn := BitVec.ofNat 64 (beAt c o 8), seq := BitVec.ofNat 32 (beAt c (o + 8) 4), digest := BitVec.ofNat 32 (beAt c (o + 12) 4) }

/-- The field image at offset `o`. -/
def fieldImgAt (c : List Byte) (o : Nat) : FieldImg :=
  { inp := BitVec.ofNat 64 (beAt c o 8), qst := BitVec.ofNat 64 (beAt c (o + 8) 8), intest := BitVec.ofNat 32 (beAt c (o + 16) 4),
    enc0 := BitVec.ofNat 48 (beAt c (o + 20) 6), enc1 := BitVec.ofNat 48 (beAt c (o + 26) 6) }

/-- A consensus frame of lane `l` from its bytes: of the length that `COUNT` gives, and `LANE` names the sender (R53). -/
def consOf (l : LaneId) (bs : List Byte) : Option ConsFrame :=
  let n := beAt bs 22 2
  if bs.length = 56 + 16 * n ∧ n ≤ 1024 ∧ beAt bs 20 1 = l.code then
    some { stroke := BitVec.ofNat 32 (beAt bs 0 4), tn := beAt bs 4 8, sendTime := beAt bs 12 8, holdover := getField (beAt bs 21 1) 0 1 == 1,
           inVote := getField (beAt bs 21 1) 1 1 == 1, img := fieldImgAt bs 24, entries := (upTo n).map fun i => consEntryAt bs (56 + 16 * i) }
  else none

/-- The entry of a telegram: identity, sequence, and the CRC-32C of all its bytes (R54). -/
def entryOf (t : Tlg) (bs : List Byte) : ConsEntry :=
  { conn := t.connid, seq := BitVec.ofNat 32 t.seq, digest := BitVec.ofNat 32 (crc32c bs) }

/-- Order of entries: connection, then sequence (R54, R58). -/
def entryLe (a b : ConsEntry) : Bool :=
  decide (a.conn.toNat < b.conn.toNat) || (a.conn == b.conn && decide (a.seq.toNat ≤ b.seq.toNat))

end Sys2Proof.Machine
end

