-- ==== Sys2Proof/Machine/HostQ.lean ====
section
/-! DEFINITION. Host queues: slots, doorbells, dispatch, ordered streams, completions, retries, and the descriptors that carry L commands to
the lanes (R369 to R385). -/

namespace Sys2Proof.Machine

/-! ### Records -/

/-- Hub address of a submission slot (R369). -/
def slotAddr (q slot : Nat) : Nat := 0x08400000 + 0x10000 * q + 256 * slot
/-- Hub address of a completion entry (R369). -/
def cqAddr (q i : Nat) : Nat := 0x08440000 + 0x2000 * q + 16 * i
/-- The tag of a slot's position and a generation (R371). -/
def tagOf (q slot gen : Nat) : Half := BitVec.ofNat 16 (q * 0x4000 + slot * 64 + gen % 64)

/-- The header of R371 as bytes, little-endian (R370). -/
def headerOf (b : List Byte) : CmdHeader :=
  { opcode := BitVec.ofNat 16 (leAt b 0 2), tag := BitVec.ofNat 16 (leAt b 2 2), flags := BitVec.ofNat 16 (leAt b 4 2),
    plen := BitVec.ofNat 16 (leAt b 6 2), htmo := BitVec.ofNat 16 (leAt b 8 2), res10 := BitVec.ofNat 16 (leAt b 10 2),
    dinoff := BitVec.ofNat 32 (leAt b 12 4), dinlen := BitVec.ofNat 32 (leAt b 16 4), doutoff := BitVec.ofNat 32 (leAt b 20 4),
    doutlen := BitVec.ofNat 32 (leAt b 24 4), res28 := BitVec.ofNat 32 (leAt b 28 4) }

/-- The header in a slot of the shared window (R369, R377). -/
def Hub.headerAt (h : Hub) (q slot : Nat) : CmdHeader := headerOf (memBytes h.sram (slotAddr q slot) 32)

/-- The opcode. -/
def HostCmd.op (c : HostCmd) : Nat := c.hdr.opcode.toNat
/-- `FENCE`. -/
def HostCmd.fence (c : HostCmd) : Bool := c.hdr.flags.getLsbD 0
/-- `DROP_FORCES`. -/
def HostCmd.dropForces (c : HostCmd) : Bool := c.hdr.flags.getLsbD 2
/-- `NO_IRQ`. -/
def HostCmd.noIrq (c : HostCmd) : Bool := c.hdr.flags.getLsbD 3
/-- EASY_ALL, which counts against no limit (R379). -/
def HostCmd.isEasy (c : HostCmd) : Bool := c.op == 0x0A01
/-- In flight and not yet complete. -/
def HostCmd.running (c : HostCmd) : Bool := !c.released && c.posted.isNone

/-- The command of a slot. -/
def Hub.cmdAt (h : Hub) (q slot : Nat) : Option HostCmd := h.host.cmds.find? fun c => c.q == q && c.slot == slot && !c.ghost
/-- Store a slot's record. -/
def Hub.setCmd (h : Hub) (c : HostCmd) : Hub :=
  let rest := h.host.cmds.filter fun x => !(x.q == c.q && x.slot == c.slot && x.ghost == c.ghost)
  { h with host := { h.host with cmds := rest ++ [c] } }
/-- The active command of a slot that has no status yet: a dispatched command of the present queues, or one that outlived a reset of the
host interface (R367). -/
def Hub.openCmd (h : Hub) (q slot : Nat) : Option HostCmd :=
  h.host.cmds.find? fun c => c.q == q && c.slot == slot && c.active && c.status.isNone
/-- The target of the command in a slot: its class, or the class a RESUME_TARGET names in its first parameter byte (R379, R381). -/
def Hub.slotTarget (h : Hub) (q slot : Nat) : Nat :=
  if (h.headerAt q slot).opcode = 0x0103#16 then (memByte h.sram (slotAddr q slot + 32)).toNat else (h.headerAt q slot).opcode.toNat / 256

/-- Commands of queue `q` in flight, EASY_ALL apart. -/
def Hub.inFlight (h : Hub) (q : Nat) : Nat := (h.host.cmds.filter fun c => c.q == q && !c.ghost && !c.released && !c.isEasy).length
/-- Active commands of queue `q`, EASY_ALL apart. -/
def Hub.activeIn (h : Hub) (q : Nat) : Nat := (h.host.cmds.filter fun c => c.q == q && !c.ghost && c.active && !c.isEasy).length
/-- Active commands, EASY_ALL apart (R379). -/
def Hub.actives (h : Hub) : Nat := (h.host.cmds.filter fun c => c.active && !c.isEasy).length
/-- `HCMD_QCNTq` follow the queues. -/
def Hub.countQueues (h : Hub) : Hub :=
  (upTo 4).foldl (fun (x : Hub) q => (x.fset (HCMD_QCNT_INFL q) (h.inFlight q)).fset (HCMD_QCNT_ACT q) (h.activeIn q)) h

/-- Raise an interrupt vector of R376. -/
def Hub.vector (h : Hub) (k : Nat) : Hub := { h with host := { h.host with irq := h.host.irq ||| BitVec.ofNat 5 (2 ^ k) } }
/-- Set an RW1C bit of `HCMD_STAT`, with vector 4 while `IE_STAT` is set (R376). -/
def Hub.hostFlag (h : Hub) (f : Fld) (v : Nat) : Hub :=
  let h := h.fset f (h.fget f ||| v)
  if h.on HCMD_CTRL_IE_STAT then h.vector 4 else h
/-- `READY`. -/
def Hub.ready (h : Hub) : Bool := h.on HCMD_STAT_READY

/-! ### Statuses (R375) -/

/-- OK. -/
def stOk : Nat := 0
/-- BAD_OPCODE. -/
def stBadOpcode : Nat := 1
/-- BAD_HEADER. -/
def stBadHeader : Nat := 2
/-- BAD_PARAM. -/
def stBadParam : Nat := 3
/-- BAD_RANGE. -/
def stBadRange : Nat := 4
/-- ABORTED_PREDECESSOR. -/
def stAborted : Nat := 5
/-- NOT_PERMITTED. -/
def stNotPermitted : Nat := 6
/-- REFUSED. -/
def stRefused : Nat := 7
/-- NOT_READY. -/
def stNotReady : Nat := 8
/-- NVW_DEFERRED. -/
def stDeferred : Nat := 9
/-- TIMEOUT. -/
def stTimeout : Nat := 0xA
/-- BLOCK_RESET. -/
def stBlockReset : Nat := 0xB
/-- NO_AGREEMENT. -/
def stNoAgreement : Nat := 0xC
/-- WRONG_STATE. -/
def stWrongState : Nat := 0xD

/-- A status fails its stream. -/
def failsStream (st : Nat) : Bool := decide (1 ≤ st) && decide (st ≤ 0xD) && st != stAborted

/-- The opcodes of R383. -/
def opcodes : List Nat :=
  [0x0101, 0x0102, 0x0103, 0x0104, 0x0201, 0x0202, 0x0203, 0x0301, 0x0302, 0x0303, 0x0304, 0x0305, 0x0306, 0x0401, 0x0402, 0x0403] ++
  [0x0404, 0x0501, 0x0502, 0x0503, 0x0504, 0x0505, 0x0506, 0x0507, 0x0508, 0x0509, 0x050A, 0x0601, 0x0602, 0x0701, 0x0702, 0x0703] ++
  [0x0704, 0x0705, 0x0706, 0x0707, 0x0801, 0x0802, 0x0803, 0x0804, 0x0805, 0x0806, 0x0901, 0x0902, 0x0A01, 0x0A02, 0x0A03, 0x0A04] ++
  [0x0B01, 0x0B02]

/-- The L commands of R383. -/
def lOpcodes : List Nat :=
  [0x0201, 0x0304, 0x0306, 0x0403, 0x0501, 0x0502, 0x0503, 0x0504, 0x0505, 0x0506, 0x0507, 0x0508, 0x0509, 0x0805, 0x0901, 0x0A01]

/-- The checks of R372 on a header. -/
def HostCmd.headerBad (c : HostCmd) : Bool :=
  let h := c.hdr
  h.res10 != 0 || h.res28 != 0 || decide (16 ≤ h.flags.toNat) || decide (224 < h.plen.toNat) ||
    (decide (1 ≤ h.htmo.toNat) && decide (h.htmo.toNat ≤ 31)) || bvField h.tag 14 2 != c.q || bvField h.tag 6 8 != c.slot ||
    (c.dropForces && c.op != 0x0504)

/-- A data range lies aligned within the data area (R369, R372). -/
def dataRangeOk (off len : Word) : Bool :=
  len == 0 || (decide (off.toNat % 4 = 0) && decide (0x500000 ≤ off.toNat) && decide (off.toNat + len.toNat ≤ 0xE00000))

/-- The data ranges of a command are valid. -/
def HostCmd.rangeBad (c : HostCmd) : Bool := !dataRangeOk c.hdr.dinoff c.hdr.dinlen || !dataRangeOk c.hdr.doutoff c.hdr.doutlen

/-- A command's timeout in ms (R382). -/
def Hub.timeoutOf (h : Hub) (c : HostCmd) : Nat :=
  if c.hdr.htmo.toNat ≠ 0 then c.hdr.htmo.toNat
  else if c.op = 0x0504 then 66 * h.set.period + 1000
  else if lOpcodes.contains c.op then max 100 (2 * h.set.period + 20)
  else if c.op = 0x0703 ∨ c.op = 0x0704 ∨ c.op = 0x0303 then 10000
  else 100

/-- The hub's budget for repeating a step, in ns (R385). -/
def Hub.budgetOf (h : Hub) (c : HostCmd) : Nat := min 20000000 (h.timeoutOf c * 250000)

/-! ### Completions (R373, R374) -/

/-- The bytes of a completion entry. -/
def HostCmd.entry (c : HostCmd) (phase : Bool) : List Byte :=
  leBytes 2 c.tag.toNat ++ leBytes 2 ((c.status.getD 0).toNat) ++ leBytes 8 c.result.toNat ++ leBytes 2 c.detail.toNat ++
    [BitVec.ofNat 8 (b2n c.dedup + 2 * b2n (!c.dout.isEmpty) + 4 * b2n c.applied), BitVec.ofNat 8 (128 * b2n phase)]

/-- A class is poisoned in a queue (R380). -/
def Hub.poisoned (h : Hub) (q cls : Nat) : Bool := (h.rg (HCMD_POISON q)).getLsbD cls
/-- Set or clear a poison bit; `PCLS` has one for each of the classes 1 to 11. -/
def Hub.poison (h : Hub) (q cls : Nat) (v : Bool) : Hub :=
  if cls < 1 || 11 < cls then h
  else h.setRg (HCMD_POISON q) (bvSet (h.rg (HCMD_POISON q)) cls 1 (b2n v))

/-- Post a command's completion: data and entry written, stream poisoned by a failing status, interrupt raised; a full queue waits for the
host's release (R374, R376, R380). -/
def Hub.post (h : Hub) (c : HostCmd) : Hub :=
  let w := h.host.cqW.getD c.q 0
  let ph := h.host.phase.getD c.q true
  if c.ghost then { h with host := { h.host with cmds := h.host.cmds.filter fun x => !(x.q == c.q && x.slot == c.slot && x.ghost) } }
  else if (w + 1) % 512 = h.fget (HCMD_CQHD_HEAD c.q) then h
  else
    let data := c.dout.take c.hdr.doutlen.toNat
    let mem := if c.posted.isNone then memPutBytes h.sram (0x08000000 + c.hdr.doutoff.toNat) data else h.sram
    let mem := memPutBytes mem (cqAddr c.q w) (c.entry ph)
    let phs := if w = 511 then listSet h.host.phase c.q (!ph) else h.host.phase
    let h := { h with sram := mem, host := { h.host with cqW := listSet h.host.cqW c.q ((w + 1) % 512), phase := phs } }
    let h := if failsStream (c.status.getD 0).toNat && !c.dedup then h.poison c.q c.target true else h
    let h := h.setCmd { c with posted := some w, released := false, active := false }
    (if c.noIrq then h else h.vector c.q).countQueues

/-- A command ends with a status: its completion follows as COMMAND_COMPLETION. -/
def Hub.endCmd (h : Hub) (c : HostCmd) (st detail : Nat) (result : Dword) (dout : List Byte) : Hub :=
  (h.setCmd { c with status := some (BitVec.ofNat 16 st), detail := BitVec.ofNat 16 detail, result := result, dout := dout }).countQueues

/-- The active command that a row carries out, when it has that opcode and no status yet. -/
def State.activeCmd (s : State) (r : CmdRef) (op : Nat) : Option HostCmd :=
  match s.hub.openCmd r.q r.slot with
  | some c => if c.op == op && s.hub.ready then some c else none
  | none => none

/-- End the command of a reference, while it is active and has no status. -/
def State.endRef (s : State) (r : CmdRef) (st detail : Nat) (result : Dword) (dout : List Byte) : State :=
  match s.hub.openCmd r.q r.slot with
  | some c => s.modHub (·.endCmd c st detail result dout)
  | none => s

/-- End a command with a status alone. -/
def State.endWith (s : State) (r : CmdRef) (st detail : Nat) : State := s.endRef r st detail 0 []

/-- Carry out an H command: nothing when the reference names no active command of the opcode. -/
def State.hCmd (s : State) (r : CmdRef) (op : Nat) (f : State → State) : State := if (s.activeCmd r op).isSome then f s else s

/-! ### Doorbells and retries (R377, R378, R384) -/

/-- A fresh record of a doorbelled command. -/
def newCmd (q slot : Nat) (hdr : CmdHeader) (target ord : Nat) (t : Nat) : HostCmd :=
  let gen := bvField hdr.tag 0 6
  { q := q, slot := slot, gen := gen, tag := tagOf q slot gen, hdr := hdr, target := target, ord := ord, active := hdr.opcode == 0x0A01#16, status := none,
    result := 0, detail := 0, dout := [], posted := none, tDisp := t, seq := none, applied := false, retried := false, dedup := false,
    released := false, ghost := false }

/-- Accept a doorbell as a new command. -/
def Hub.accept (h : Hub) (q slot : Nat) (t : Nat) : Hub :=
  let h := { h with host := { h.host with nextOrd := h.host.nextOrd + 1 } }
  (h.setCmd (newCmd q slot (h.headerAt q slot) (h.slotTarget q slot) h.host.nextOrd t)).countQueues

/-- SQ_DOORBELL: the hub copies the slot (R377, R378, R384). -/
def Hub.doorbell (h : Hub) (q slot : Nat) (t : Nat) : Hub :=
  if !h.ready || decide (4 ≤ q) || decide (256 ≤ slot) then h
  else
    let hdr := h.headerAt q slot
    let gen := bvField hdr.tag 0 6
    let fresh := if hdr.opcode ≠ 0x0A01#16 ∧ 256 ≤ h.inFlight q then h.hostFlag HCMD_STAT_QFULL (2 ^ q) else h.accept q slot t
    match h.cmdAt q slot with
    | none => fresh
    | some c =>
      if hdr.flags.getLsbD 1 then
        if gen ≠ (c.gen + 1) % 64 ∨ (c.retried = true ∧ c.released = false) then h.hostFlag HCMD_STAT_DB_ERR 1
        else
          let c := { c with gen := gen, tag := tagOf q slot gen, retried := true }
          if c.posted.isSome then h.post { c with dedup := true } else (h.setCmd c).countQueues
      else if c.released then fresh
      else h.hostFlag HCMD_STAT_DB_ERR 1

/-- Queue `q` holds no unread completion: its cause of R376 no longer stands. -/
def Hub.quietQueue (h : Hub) (q : Nat) : Hub :=
  if h.fget (HCMD_CQHD_HEAD q) = h.host.cqW.getD q 0 then { h with host := { h.host with irq := h.host.irq &&& ~~~(BitVec.ofNat 5 (2 ^ q)) } }
  else h

/-- CQ_HEAD_WRITE (R374, R377): entries up to the new head are released; a head past the last written entry is ignored. -/
def Hub.headWrite (h : Hub) (q : Nat) (v : Nat) : Hub :=
  if 4 ≤ q then h
  else
    let head := h.fget (HCMD_CQHD_HEAD q)
    let w := h.host.cqW.getD q 0
    let dist (x : Nat) : Nat := (x + 512 - head) % 512
    if dist w < dist (v % 512) then h.hostFlag HCMD_STAT_DB_ERR 1
    else
      let free (c : HostCmd) : HostCmd :=
        match c.posted with
        | some i => if c.q == q && decide (dist i < dist (v % 512)) then { c with released := true } else c
        | none => c
      (({ h.fset (HCMD_CQHD_HEAD q) (v % 512) with host := { h.host with cmds := h.host.cmds.map free } }).quietQueue q).countQueues

/-! ### Dispatch (R379 to R381) -/

/-- A waiting command may start (R379). -/
def Hub.mayStart (h : Hub) (c : HostCmd) : Bool :=
  let before := h.host.cmds.filter fun x => x.q == c.q && !x.ghost && decide (x.ord < c.ord) && x.running
  !c.active && !c.ghost && c.status.isNone && c.running && !(before.any fun x => x.target == c.target) && (!c.fence || before.isEmpty)

/-- The oldest command of a queue that may start. -/
def Hub.oldest (h : Hub) (q : Nat) : Option HostCmd :=
  (h.host.cmds.filter fun c => c.q == q && h.mayStart c).foldl (fun (b : Option HostCmd) c =>
    match b with | none => some c | some x => if c.ord < x.ord then some c else b) none

/-- Take a command: aborted behind a failed stream, refused for its header, range or opcode, or active (R372, R380). -/
def Hub.take (h : Hub) (c : HostCmd) (t : Nat) : Hub :=
  let h := { h with host := { h.host with lastQ := c.q } }
  if h.poisoned c.q c.target && c.op != 0x0103 then h.endCmd c stAborted 0 0 []
  else if c.headerBad then h.endCmd c stBadHeader 0 0 []
  else if c.rangeBad then h.endCmd c stBadRange 0 0 []
  else if !opcodes.contains c.op then h.endCmd c stBadOpcode 0 0 []
  else (h.setCmd { c with active := true, tDisp := t }).countQueues

/-- COMMAND_DISPATCH: one command, from the queues in turn. -/
def Hub.dispatch (h : Hub) (t : Nat) : Hub :=
  if !h.ready || decide (64 ≤ h.actives) then h
  else
    match ((upTo 4).map fun i => h.oldest ((h.host.lastQ + 1 + i) % 4)).findSome? fun x => x with
    | some c => h.take c t
    | none => h

/-! ### L commands (R382) -/

/-- Some lane is in easy all. -/
def State.anyEasy (s : State) : Bool := allLanes.any fun l => (s.lane l).up && (s.lane l).easy
/-- The catch instant the module last ran. -/
def State.lastCatch (s : State) : Nat := (allLanes.map fun l => if (s.lane l).running then (s.lane l).fol.tn else 0).foldl max 0

/-- A descriptor is committed into all three mailboxes under the next command sequence, at most 16 per stroke. -/
def State.commitDesc (s : State) (op : Nat) (args : List Nat) (data : List Byte) : Option (Word × State) :=
  let n := (s.hub.mbxA.cmds.filter fun d => decide (s.lastCatch ≤ d.t)).length
  if 16 ≤ n then none
  else
    let seq := s.hub.rg HCMD_SEQ + 1
    let d : CmdDesc := { opcode := BitVec.ofNat 16 op, seq := seq, args := args, data := data, t := s.now }
    let put (h : Hub) (l : LaneId) : Hub := h.modMbx l fun m => { m with cmds := m.cmds ++ [d] }
    some (seq, s.modHub fun h => allLanes.foldl put (h.setRg HCMD_SEQ seq))

/-- Carry an L command to the lanes. -/
def State.toLanes (s : State) (r : CmdRef) (op : Nat) (args : List Nat) (data : List Byte) : State :=
  match s.activeCmd r op with
  | none => s
  | some c =>
    if c.seq.isSome then s
    else if s.anyEasy || s.modSitReady then s.endWith r stWrongState 0
    else
      match s.commitDesc op args data with
      | none => s
      | some (seq, s') => s'.modHub (·.setCmd { c with seq := some seq })

/-- `a` stands at or after `b` in the command sequence. -/
def seqReached (a b : Word) : Bool := decide (0 ≤ sdiff32 a.toNat b.toNat)

/-- At least two lanes have admitted a command. -/
def State.admittedByTwo (s : State) (seq : Word) : Bool :=
  decide (2 ≤ (allLanes.filter fun l => seqReached (s.hub.mbx l).admSeq seq).length)

/-- The result of a command from what the in-vote lanes report (R382): alike in two, or none left to report. -/
def State.laneResult (s : State) (seq : Word) : Option (Nat × Nat) :=
  let vs := s.voters
  let got := vs.filterMap fun l => ((s.hub.mbx l).results.find? fun e => e.1 == seq).map (·.2)
  match got.find? fun x => decide (2 ≤ (got.filter fun y => y == x).length) with
  | some x => some x
  | none => if got.length = vs.length ∧ 2 ≤ vs.length then some (stNoAgreement, 0) else none

/-- The hub takes the lanes' results of every command in hand. -/
def State.collectResults (s : State) : State :=
  if !s.hub.ready then s
  else
    s.hub.host.cmds.foldl (fun (s : State) c =>
      match c.seq with
      | some q =>
        if c.active && c.status.isNone then
          match s.laneResult q with
          | some (st, det) => s.modHub (·.endCmd { c with applied := s.admittedByTwo q } st det 0 [])
          | none => s
        else s
      | none => s) s

/-- COMMAND_COMPLETION: EASY_ALL once no lane reports being in the vote; an L command that easy all overtook with WRONG_STATE; then the
entry of a command that has its status. -/
def State.complete (s : State) (r : CmdRef) : State :=
  if !s.hub.ready then s
  else
    let s1 := match s.hub.openCmd r.q r.slot with
      | some c =>
          if c.isEasy then (if s.voters.isEmpty && c.seq.isSome then s.modHub (·.endCmd c stOk 0 0 []) else s)
          else match c.seq with
            | some q => if s.anyEasy && s.voters.isEmpty then s.modHub (·.endCmd { c with applied := s.admittedByTwo q } stWrongState 0 0 []) else s
            | none => s
      | none => s
    match s1.hub.host.cmds.find? fun c => c.q == r.q && c.slot == r.slot && c.status.isSome && c.posted.isNone with
    | some c => s1.modHub (·.post c)
    | none => s1

/-- HUB_RETRY_EXHAUSTED: the budget of an internal step ran out (R385). -/
def State.retryExhausted (s : State) (r : CmdRef) (t : Nat) : State :=
  match s.hub.openCmd r.q r.slot with
  | some c => if decide (c.tDisp + s.hub.budgetOf c ≤ t) then s.modHub (·.endCmd c stTimeout 0 0 []) else s
  | none => s

/-! ### Meanings -/

/-- SQ_DOORBELL (R377). -/
def execSqDoorbell (q slot : Nat) (t : Nat) (s : State) : Host.Outcome State Fault Refusal :=
  done ((s.at t).modHub (·.doorbell q slot t))
/-- CQ_HEAD_WRITE (R374). -/
def execCqHeadWrite (q : Nat) (v : Word) (s : State) : Host.Outcome State Fault Refusal := done (if s.hub.rst.held then s else s.modHub (·.headWrite q (v.toNat % 512)))
/-- COMMAND_DISPATCH (R379). -/
def execCommandDispatch (t : Nat) (s : State) : Host.Outcome State Fault Refusal := done ((s.at t).modHub (·.dispatch t))
/-- COMMAND_COMPLETION (R374). -/
def execCommandCompletion (r : CmdRef) (s : State) : Host.Outcome State Fault Refusal := done (s.complete r)
/-- HUB_RETRY_EXHAUSTED (R385). -/
def execHubRetryExhausted (r : CmdRef) (t : Nat) (s : State) : Host.Outcome State Fault Refusal := done ((s.at t).retryExhausted r t)

end Sys2Proof.Machine
end

