-- ==== Sys2Proof/Machine/Flash.lean ====
section
/-! DEFINITION. The flashes: image slots and their verification, claim record, boot pointer, journal, settings areas, and the hold-up gate
(R361, R362, R449 to R464, R470, R475 to R480). -/

namespace Sys2Proof.Machine

/-! ### Logs of 32-byte entries (R450) -/

/-- Entries of a sector that hold anything, by index. -/
def usedEntries (m : List Host.Cell) (base len : Nat) : List Nat :=
  ((m.filter fun e => decide (base ≤ e.1) && decide (e.1 < base + len)).map fun e => (e.1 - base) / 32).foldl (fun acc i =>
    match acc with | [] => [i] | j :: _ => if i = j then acc else i :: acc) []

/-- Entry `i` of a sector. -/
def entryAt (m : List Host.Cell) (base i : Nat) : List Byte := flashBytes m (base + 32 * i) 32

/-- The CRC-32C of an entry holds over its bytes 0 to 27. -/
def entryOk (e : List Byte) : Bool := beAt e 28 4 == crc32c (e.take 28)

/-- Close an entry with its CRC. -/
def closeEntry (bs : List Byte) : List Byte := let b := padTo 28 bs; b ++ beBytes 4 (crc32c b)

/-- The content of a copy: its newest entry whose CRC holds. -/
def copyNewest (m : List Host.Cell) (base : Nat) : Option (List Byte) :=
  ((usedEntries m base 0x10000).map (entryAt m base)).find? entryOk

/-- A record kept as two copies: their sectors and where an entry holds its record sequence. -/
structure TwoCopy where
  base0 : Nat
  base1 : Nat
  seqOff : Nat
  deriving DecidableEq, Repr

/-- The claim record (R361, R449): claim, serial number, record sequence; their order in the entry is Assumption 17. -/
def claimLog : TwoCopy := { base0 := 0, base1 := 0x10000, seqOff := 12 }
/-- The boot pointer (R463). -/
def pointerLog : TwoCopy := { base0 := 0x20000, base1 := 0x30000, seqOff := 0 }

/-- Record sequence of a copy, one up; 0 for none. -/
def TwoCopy.seqOf (g : TwoCopy) (e : Option (List Byte)) : Nat := match e with | some b => beAt b g.seqOff 4 + 1 | none => 0

/-- The valid copy with the higher record sequence. -/
def TwoCopy.read (g : TwoCopy) (m : List Host.Cell) : Option (List Byte) :=
  let a := copyNewest m g.base0
  let b := copyNewest m g.base1
  if g.seqOf a < g.seqOf b then b else a

/-- Append an entry to a sector, erasing it first when no erased entry is left. -/
def sectorAppend (m : List Host.Cell) (base : Nat) (e : List Byte) : List Host.Cell :=
  let n := match usedEntries m base 0x10000 with | i :: _ => i + 1 | [] => 0
  if n < 2048 then flashPutBytes m (base + 32 * n) e else flashPutBytes (flashErase m base 0x10000) base e

/-- Fewer than 16 erased entries are left (R450). -/
def nearlyFull (m : List Host.Cell) (base : Nat) : Bool :=
  match usedEntries m base 0x10000 with | i :: _ => decide (2048 < i + 1 + 16) | [] => false

/-- Write a record: the copy with the lower sequence is replaced, under the sequence + 1; the other sector is erased when nearly full. `mk`
forms the entry's first 28 bytes from the sequence. -/
def TwoCopy.write (g : TwoCopy) (m : List Host.Cell) (mk : Nat → List Byte) : List Host.Cell :=
  let sa := g.seqOf (copyNewest m g.base0)
  let sb := g.seqOf (copyNewest m g.base1)
  let to0 := decide (sa ≤ sb)
  let m := sectorAppend m (if to0 then g.base0 else g.base1) (closeEntry (mk (max sa sb % 2 ^ 32)))
  let other := if to0 then g.base1 else g.base0
  if nearlyFull m other then flashErase m other 0x10000 else m

/-! ### The claim record (R361) -/

/-- The stored claim; none when neither copy is valid. -/
def storedClaim (m : List Host.Cell) : Option Word := (claimLog.read m).map fun e => BitVec.ofNat 32 (beAt e 0 4)
/-- Write a claim. -/
def writeClaim (m : List Host.Cell) (claim : Word) (serial : Dword) : List Host.Cell :=
  claimLog.write m fun q => beBytes 4 claim.toNat ++ beBytes 8 serial.toNat ++ beBytes 4 q

/-! ### The boot pointer (R463) -/

/-- The pointer of an entry. -/
def pointerOf (e : List Byte) : BootPtr :=
  { rseq := beAt e 0 4, active := beAt e 4 1, trial := beAt e 5 1, parts := beAt e 6 1, tries := beAt e 7 1, tbuild := BitVec.ofNat 64 (beAt e 8 8) }
/-- Entry bytes after the record sequence. -/
def pointerTail (p : BootPtr) : List Byte :=
  [BitVec.ofNat 8 p.active, BitVec.ofNat 8 p.trial, BitVec.ofNat 8 p.parts, BitVec.ofNat 8 p.tries] ++ beBytes 8 p.tbuild.toNat
/-- The pointer as stored. -/
def storedPointer (m : List Host.Cell) : Option BootPtr := (pointerLog.read m).map pointerOf
/-- A pointer of slot 0 without a trial. -/
def pointerNone : BootPtr := { rseq := 0, active := 0, trial := 0xFF, parts := 0, tries := 0, tbuild := 0 }
/-- The pointer in force. -/
def State.pointer (s : State) : BootPtr := (storedPointer s.flash1).getD { pointerNone with active := s.hub.fget UPD_STAT_ACTIVE }
/-- `UPD_STAT` follows the pointer. -/
def Hub.showPointer (h : Hub) (p : BootPtr) : Hub :=
  (((h.fset UPD_STAT_ACTIVE p.active).fset UPD_STAT_TRIAL (if p.trial = 0xFF then 3 else p.trial)).fset UPD_STAT_PARTS p.parts).fset
    UPD_STAT_TRIES p.tries
/-- Write a pointer entry; none is written after a power-fail (R480). -/
def State.writePointer (s : State) (p : BootPtr) : State :=
  if s.hub.on NVW_STAT_PF then s
  else
  { s with flash1 := pointerLog.write s.flash1 fun q => beBytes 4 q ++ pointerTail p, hub := s.hub.showPointer p }

/-! ### The journal (R450) -/

/-- First and one past the last offset of the journal (R449). -/
def journalBase : Nat := 0x40000
/-- One past the journal's last offset. -/
def journalEnd : Nat := 0x400000

/-- PREPARE, COMMIT, ABORT, SETTINGS. -/
def jPrepare : Nat := 1
/-- COMMIT. -/
def jCommit : Nat := 2
/-- ABORT. -/
def jAbort : Nat := 3
/-- SETTINGS. -/
def jSettings : Nat := 4

/-- Type of an entry. -/
def jType (e : List Byte) : Nat := beAt e 0 1
/-- Sequence of an entry. -/
def jSeqOf (e : List Byte) : Nat := beAt e 4 4
/-- The 20 data bytes of an entry. -/
def jData (e : List Byte) : List Byte := (e.drop 8).take 20

/-- The valid entries of a part of the journal. -/
def jEntries (m : List Host.Cell) (base len : Nat) : List (List Byte) :=
  ((usedEntries m base len).map (entryAt m base)).filter fun e => entryOk e && decide (1 ≤ jType e) && decide (jType e ≤ 4)

/-- The newest of entries by `JSEQ`. -/
def jNewest (es : List (List Byte)) : Option (List Byte) :=
  es.foldl (fun (b : Option (List Byte)) e => match b with | none => some e | some x => if jSeqOf x < jSeqOf e then some e else b) none

/-- The newest entry of the journal that satisfies `p`. -/
def jFind (m : List Host.Cell) (p : List Byte → Bool) : Option (List Byte) :=
  jNewest ((jEntries m journalBase (journalEnd - journalBase)).filter p)

/-- `BUILDID` of a PREPARE or COMMIT record. -/
def jBuild (e : List Byte) : Nat := beAt e 16 8
/-- `SETFMT` of a SETTINGS record. -/
def jFmt (e : List Byte) : Nat := beAt e 10 2

/-- A record that still counts (R450). -/
def jCounts (m : List Host.Cell) (e : List Byte) : Bool :=
  if jType e = jSettings then jFind m (fun x => jType x == jSettings && jFmt x == jFmt e) == some e
  else if jType e = jPrepare ∨ jType e = jCommit then
    jFind m (fun x => (jType x == jPrepare || jType x == jCommit) && jBuild x == jBuild e) == some e
  else false

/-- The entry at `JNEXT` with the next sequence, which a copied record takes too (Assumption 112): the place moves on. -/
def State.jPut (s : State) (ty : Nat) (data : List Byte) : State :=
  let u := s.hub.upd
  let q := (u.jSeq + 1) % 2 ^ 32
  let e := closeEntry (beBytes 1 ty ++ zeros 3 ++ beBytes 4 q ++ padTo 20 data)
  let n := if u.jNext + 32 = journalEnd then journalBase else u.jNext + 32
  { s with flash1 := flashPutBytes s.flash1 u.jNext e, hub := { s.hub with upd := { u with jNext := n, jSeq := q } } }

/-- Append a journal entry (R450). On reaching a new sector, the records of the sector after it that still count are copied forward and that
sector is erased, so that erased space always lies ahead. Nothing is written after a power-fail (R480). -/
def State.jAppend (s : State) (ty : Nat) (data : List Byte) : State :=
  if s.hub.on NVW_STAT_PF then s
  else
  let s := s.jPut ty data
  let n := s.hub.upd.jNext
  if n % 0x10000 = 0 then
    let next := if n + 0x10000 = journalEnd then journalBase else n + 0x10000
    let keep := (jEntries s.flash1 next 0x10000).filter (jCounts s.flash1)
    let s := keep.foldl (fun (s : State) e => s.jPut (jType e) (jData e)) s
    { s with flash1 := flashErase s.flash1 next 0x10000 }
  else s

/-! ### Slots (R451 to R455) -/

/-- First offset of a slot in flash 0. -/
def slotBase (k : Nat) : Nat := 0x2000000 * k
/-- Block `i` of slot `k`. -/
def State.block (s : State) (k i : Nat) : List Byte := flashBytes s.flash0 (slotBase k + 0x10000 * i) 0x10000
/-- The payload of a block. -/
def blockPayload (b : List Byte) : List Byte := b.take 65528
/-- A block is valid as block `i` of a build (R451). -/
def blockValid (b : List Byte) (i build : Nat) : Bool :=
  b.length == 65536 && beAt b 65528 2 == i && beAt b 65530 2 == build % 65536 && beAt b 65532 4 == crc32c (b.take 65532)

/-- `BUILDID` of slot `k`'s header. -/
def State.slotBuild (s : State) (k : Nat) : Nat := beAt (flashBytes s.flash0 (slotBase k + 8) 8) 0 8
/-- The first 512 header bytes of slot `k`. -/
def State.slotHdr (s : State) (k : Nat) : List Byte := flashBytes s.flash0 (slotBase k) 512
/-- `NBLK`. -/
def hdrNblk (h : List Byte) : Nat := beAt h 6 2
/-- `BUILDID`. -/
def hdrBuild (h : List Byte) : Nat := beAt h 8 8
/-- `VOTEGEN`. -/
def hdrVotegen (h : List Byte) : Nat := beAt h 16 4
/-- `PTNRVER`. -/
def hdrPtnrver (h : List Byte) : Nat := beAt h 20 2
/-- `SETFMT`. -/
def hdrSetfmt (h : List Byte) : Nat := beAt h 22 2
/-- `CONTENT`. -/
def hdrContent (h : List Byte) : Nat := beAt h 24 8
/-- The section entries: type, first block, blocks, length. -/
def hdrSections (h : List Byte) : List (Nat × Nat × Nat × Nat) :=
  (upTo 8).map fun i => let e := (h.drop (32 + 16 * i)).take 16; (beAt e 0 1, beAt e 2 2, beAt e 4 2, beAt e 8 4)

/-- The rules of R452 on a header. -/
def hdrOk (h : List Byte) : Bool :=
  let n := hdrNblk h
  let used := (hdrSections h).filter fun e => e.1 != 0
  let apart (a b : Nat × Nat × Nat × Nat) : Bool := decide (a.2.1 + a.2.2.1 ≤ b.2.1) || decide (b.2.1 + b.2.2.1 ≤ a.2.1)
  beAt h 0 4 == 0x4F494631 && beAt h 4 2 == 1 && decide (2 ≤ n) && decide (n ≤ 320) && decide (beAt h 160 1 ≤ 3) && beAt h 161 3 == 0 &&
    (upTo 8).all (fun i => let e := (h.drop (32 + 16 * i)).take 16; beAt e 1 1 == 0 && beAt e 6 2 == 0) &&
    [1, 2, 3, 4, 5, 6].all (fun ty => decide ((used.filter fun e => e.1 == ty).length = 1)) && used.all (fun e => decide (e.1 ≤ 6)) &&
    used.all (fun e => decide (1 ≤ e.2.1) && decide (e.2.1 + e.2.2.1 ≤ n) && decide (e.2.2.2 ≤ e.2.2.1 * 65528)) &&
    used.all fun a => used.all fun b => a.1 == b.1 || apart a b

/-- The blocks of slot `k` that are valid (R457). -/
def State.validBlocks (s : State) (k : Nat) : List Nat :=
  let b := s.slotBuild k
  (upTo 512).filter fun i => blockValid (s.block k i) i b

/-- The 64-byte bitmap of R457: bit i of byte i ÷ 8. -/
def bitmapBytes (bs : List Nat) : List Byte :=
  (upTo 64).map fun j => BitVec.ofNat 8 (((upTo 8).map fun i => if bs.contains (8 * j + i) then 2 ^ i else 0).sum)

/-- A public key counts: its hash is the OTP hash of its index and that hash is not revoked (R453). -/
def State.keyCounts (s : State) (idx : Nat) (pub : List Byte) : Bool :=
  decide (idx ≤ 3) && !s.fuses.revoked.getLsbD idx && (s.fuses.keyHash.getD idx []) == sha384 pub && !(s.fuses.keyHash.getD idx []).isEmpty

/-- The signed message of slot `k` (R453). -/
def State.slotMessage (s : State) (k : Nat) : List Byte :=
  let p := blockPayload (s.block k 0)
  let p0 := p.take 260 ++ zeros 96 ++ p.drop 356
  p0 ++ (upTo (hdrNblk p - 1)).flatMap fun i => s.block k (i + 1)

/-- A slot passes the checks of UPD_VERIFY (R453, R459). -/
def State.slotVerifies (s : State) (k : Nat) : Bool :=
  let h := s.slotHdr k
  hdrOk h && (upTo (hdrNblk h)).all (fun i => blockValid (s.block k i) i (hdrBuild h)) &&
    s.keyCounts (beAt h 160 1) ((h.drop 164).take 96) && ecdsaHolds ((h.drop 164).take 96) (s.slotMessage k) ((h.drop 260).take 96)

/-- The payloads of consecutive blocks, cut to a length. -/
def State.blockSpan (s : State) (k first n len : Nat) : List Byte :=
  ((upTo n).flatMap fun i => blockPayload (s.block k (first + i))).take len

/-- Section `ty` of slot `k`. -/
def State.slotSection (s : State) (k ty : Nat) : List Byte :=
  match (hdrSections (s.slotHdr k)).find? fun e => e.1 == ty with
  | some e => s.blockSpan k e.2.1 e.2.2.1 e.2.2.2
  | none => []

/-- First block of spare program area `a` (R454). -/
def spareFirst (a : Nat) : Nat := if a = 0 then 320 else 416

/-- The newest COMMIT record that counts for slot `k` (R454). -/
def State.slotCommit (s : State) (k : Nat) : Option (List Byte) :=
  jFind s.flash1 fun e => jType e == jCommit && jBuild e == s.slotBuild k

/-- The spare area an online change of slot `k` writes: the one its newest COMMIT record does not name. -/
def State.spareArea (s : State) (k : Nat) : Nat := match s.slotCommit k with | some e => if beAt e 24 1 = 0 then 1 else 0 | none => 0

/-- Length of a program section: the end of its last area (R206). -/
def sectionLen (bs : List Byte) : Nat :=
  let nt := beAt bs 6 2
  let nv := beAt bs 28 2
  let cs := beAt bs 16 4
  let dsz := beAt bs 20 4
  [64, beAt bs 32 4 + 32 * nt, beAt bs 36 4 + 24 * nv, beAt bs 40 4 + cs, beAt bs 44 4 + cs, beAt bs 48 4 + dsz, beAt bs 52 4 + dsz].foldl max 0

/-- The program a lane loads from slot `k`: the one the newest counting COMMIT record names, or else the slot's own (R227, R454). -/
def State.slotProgram (s : State) (k : Nat) : List Byte :=
  match s.slotCommit k with
  | some e =>
    let bs := s.blockSpan k (spareFirst (beAt e 24 1)) 96 (96 * 65528)
    bs.take (sectionLen bs)
  | none => s.slotSection k 6

/-- The slot a part starts from: bit 0 FIELD, 1 hub, 2 lane A, 3 lane C, 4 lane B (R463, R464). -/
def BootPtr.slotFor (p : BootPtr) (bit : Nat) : Nat := if p.trial ≤ 1 ∧ getField p.parts bit 1 = 1 then p.trial else p.active

/-- The part bit of a lane. -/
def laneBit (l : LaneId) : Nat := match l with | .a => 2 | .b => 4 | .c => 3

/-- Write blocks in the format of R451. -/
def formBlocks (first build : Nat) (bytes : List Byte) (n : Nat) : List (Nat × List Byte) :=
  (upTo n).map fun i =>
    let p := padTo 65528 (bytes.drop (65528 * i)) ++ beBytes 2 (first + i) ++ beBytes 2 (build % 65536)
    (first + i, p ++ beBytes 4 (crc32c p))

/-- Erase and program blocks of slot `k`. -/
def programBlocks (m : List Host.Cell) (k : Nat) (bs : List (Nat × List Byte)) : List Host.Cell :=
  bs.foldl (fun m b => let a := slotBase k + 0x10000 * b.1; flashPutBytes (flashErase m a 0x10000) a b.2) m

/-! ### Settings areas (R449, R470) -/

/-- First offset of settings area `a` in flash 1. -/
def areaBase (a : Nat) : Nat := 0x400000 + 0x400000 * a
/-- `n` bytes of settings area `a`. -/
def State.areaBytes (s : State) (a n : Nat) : List Byte := flashBytes s.flash1 (areaBase a) (min n 0x400000)

/-- A SETTINGS record taken apart: area, format, length, CRC, sequence. -/
def setRec (e : List Byte) : Nat × Nat × Nat × Nat × Nat := (beAt e 8 1, beAt e 10 2, beAt e 12 4, beAt e 16 4, beAt e 20 4)

/-- A SETTINGS record is valid: its CRC over the area holds. -/
def State.setRecOk (s : State) (e : List Byte) : Bool :=
  let r := setRec e
  jType e == jSettings && decide (r.1 ≤ 1) && decide (r.2.2.1 ≤ 0x400000) && crc32c (s.areaBytes r.1 r.2.2.1) == r.2.2.2.1

/-- The newest of SETTINGS records of any format: by settings sequence, which a copy keeps (R470, R471). -/
def newestSettings (es : List (List Byte)) : Option (List Byte) :=
  es.foldl (fun (b : Option (List Byte)) e =>
    match b with | none => some e | some x => if (setRec x).2.2.2.2 < (setRec e).2.2.2.2 then some e else b) none

/-- The newest valid SETTINGS record of a format that firmware of format `fmt` can read (R471). -/
def State.settingsReadable (s : State) (fmt : Nat) : Option (List Byte) :=
  newestSettings ((jEntries s.flash1 journalBase (journalEnd - journalBase)).filter fun e => s.setRecOk e && Config.canRead fmt (jFmt e))

/-- The settings record in force for a format. -/
def State.settingsFor (s : State) (fmt : Nat) : Option (List Byte) := jFind s.flash1 fun e => s.setRecOk e && jFmt e == fmt

/-- A value within its range, or the default. -/
def inRange (lo hi d v : Nat) : Nat := if lo ≤ v ∧ v ≤ hi then v else d

/-- The module settings an area holds; a value outside its range counts as the default (Assumption 8). -/
def settingsOf (area : List Byte) : Settings :=
  let v (k : Nat) : Nat := Config.settingValue area k
  let p := inRange 10 1000 50 (v 0)
  { period := p, cdl := inRange 10 (4 * p) (4 * p) (v 1), autoStart := v 2 != 0, bootStop := v 3 == 1, pairEn := v 4 == 1,
    estEtype := v 5 % 65536, autoFwd := v 6 == 1, huC := v 7, huVmin := v 8, huDiv := inRange 1 64 1 (v 9), huIchg := v 10,
    bistMaxAge := inRange 1 8760 720 (v 11), hibRtc := inRange 1 0x7FFFFFFF 1 (v 12), serial := BitVec.ofNat 64 (v 13), 
    pmbVexp := (upTo 4).map fun k => ((v (16 + k) % 9 : Nat) : Int) - 16, pmbAddr := (upTo 4).map fun k => v (20 + k) % 128 }

/-! ### The hold-up gate (R475 to R479) -/

/-- V of an ADC code, in µV (R475): code × 1.8 V / 4,096 × `HU_DIV`. -/
def storeVolts (div code : Nat) : Nat := code * 1800000 * div / 4096

/-- C_eff in µF (R477). -/
def Hub.cEff (h : Hub) : Nat :=
  if h.on NVW_STAT_CVALID then min h.set.huC (h.fget NVW_ENERGY_CMEAS) else if h.on NVW_STAT_CFAIL then 0 else 7 * h.set.huC / 10

/-- E_avail in 10^-18 J: ½ · C_eff · ((0.95 · V_avg)² − `HU_VMIN`²), never below zero (R478). -/
def Hub.eAvail (h : Hub) : Nat :=
  let v := 95 * h.upd.vavg / 100
  let vm := h.set.huVmin * 1000
  h.cEff * (v * v - vm * vm) / 2

/-- The standing reserve, 0.18 J (R478). -/
def eRes : Nat := 180000000000000000
/-- E_write = 3.0 W × (0.2 ms × pages + 0.5 ms) (R478). -/
def eWrite (pages : Nat) : Nat := 600000000000000 * pages + 1500000000000000

/-- A gated write of so many pages may start (R478). -/
def Hub.gateOpen (h : Hub) (pages : Nat) : Bool := decide (eRes + eWrite pages ≤ h.eAvail)

/-- `RES_LOW` and `EAVAIL` in mJ follow the energy (R478). -/
def Hub.showEnergy (h : Hub) : Hub :=
  (h.fset NVW_STAT_RES_LOW (b2n (decide (h.eAvail < eRes)))).fset NVW_ENERGY_EAVAIL (min 65535 (h.eAvail / 1000000000000000))

/-- The area of a settings commit and its SETTINGS record (R470). -/
def State.commitArea (s : State) (area fmt : Nat) (bytes : List Byte) : State :=
  let m := flashPutBytes (flashErase s.flash1 (areaBase area) 0x400000) (areaBase area) bytes
  let crc := crc32c bytes
  let q := s.hub.upd.setSeq + 1
  let s := ({ s with flash1 := m }).jAppend jSettings (beBytes 1 area ++ zeros 1 ++ beBytes 2 fmt ++ beBytes 4 bytes.length ++ beBytes 4 crc ++ beBytes 4 q)
  s.modHub fun h => { h with upd := { h.upd with setSeq := q, setArea := area, setLen := bytes.length, setCrc := BitVec.ofNat 32 crc,
                                                 setFmt := fmt, staged := [] } }

end Sys2Proof.Machine
end

