-- ==== Sys2Proof/Machine/Frames.lean ====
section
/-! DEFINITION. Frames of the SerDes links: the link CRC (R288), and the frames of the partner links (R341, R342, R458). -/

namespace Sys2Proof.Machine

/-- A frame's bytes with their link CRC: CRC-32C over all bytes before it (R288). -/
def withLcrc (bs : List Byte) : List Byte := bs ++ beBytes 4 (crc32c bs)

/-- The link CRC of a received frame is right. -/
def lcrcOk (bs : List Byte) : Bool := decide (4 ≤ bs.length) && beAt bs (bs.length - 4) 4 == crc32c (bs.take (bs.length - 4))

/-- A partner frame: `TYPE`, `PSEQ`, content, link CRC (R341, R342). -/
def partnerFrame (ty : Nat) (pseq : Word) (content : List Byte) : List Byte := withLcrc (beBytes 1 ty ++ beBytes 4 pseq.toNat ++ content)

/-- `PSEQ` and content of a valid frame of `TYPE` `ty`. -/
def partnerContent (ty : Nat) (bs : List Byte) : Option (Word × List Byte) :=
  if lcrcOk bs ∧ 9 ≤ bs.length ∧ beAt bs 0 1 = ty then some (BitVec.ofNat 32 (beAt bs 1 4), (bs.drop 5).take (bs.length - 9)) else none

/-- The content of a HEARTBEAT (R342). -/
structure HeartbeatMsg where
  role   : Byte
  ready  : Byte
  claim  : Word
  serial : Dword
  stroke : Word
  tb     : Nat
  deriving DecidableEq, Repr

/-- Its bytes. -/
def HeartbeatMsg.bytes (m : HeartbeatMsg) : List Byte :=
  [m.role, m.ready] ++ beBytes 4 m.claim.toNat ++ beBytes 8 m.serial.toNat ++ beBytes 4 m.stroke.toNat ++ beBytes 8 m.tb

/-- A HEARTBEAT's content from its bytes. -/
def heartbeatOf (c : List Byte) : Option HeartbeatMsg :=
  if c.length = 26 then
    some { role := c.getD 0 0, ready := c.getD 1 0, claim := BitVec.ofNat 32 (beAt c 2 4), serial := BitVec.ofNat 64 (beAt c 6 8),
           stroke := BitVec.ofNat 32 (beAt c 14 4), tb := beAt c 18 8 }
  else none

/-- The content of a YIELD: reason, claim, stroke. -/
def yieldBytes (reason : Nat) (claim stroke : Word) : List Byte := beBytes 1 reason ++ beBytes 4 claim.toNat ++ beBytes 4 stroke.toNat

/-- The content of a FWD_LIST: stroke, catch, count, entries (R54). -/
def fwdListBytes (stroke : Word) (tn : Nat) (es : List ConsEntry) : List Byte :=
  beBytes 4 stroke.toNat ++ beBytes 8 tn ++ beBytes 2 es.length ++ es.flatMap entryBytes

/-- Stroke, catch and entries of a FWD_LIST. -/
def fwdListOf (c : List Byte) : Option (Word × Nat × List ConsEntry) :=
  let n := beAt c 12 2
  if c.length = 14 + 16 * n then some (BitVec.ofNat 32 (beAt c 0 4), beAt c 4 8, (upTo n).map fun i => consEntryAt c (14 + 16 * i)) else none

/-- The content of a FWD_TLG: stroke, index, telegram. -/
def fwdTlgBytes (stroke : Word) (i : Nat) (tlg : List Byte) : List Byte := beBytes 4 stroke.toNat ++ beBytes 2 i ++ tlg

/-- The content of a PAGE: page, its bytes, their CRC-32C. -/
def pageContent (i : Nat) (bytes : List Byte) : List Byte := beBytes 2 i ++ bytes ++ beBytes 4 (crc32c bytes)

/-- The content of a FWD_IMG: build, hop, block index, block (R458). -/
def imgContent (build : Dword) (hop i : Nat) (block : List Byte) : List Byte :=
  beBytes 8 build.toNat ++ beBytes 1 hop ++ beBytes 2 i ++ block

/-- The content of a FWD_ACK: build, status, bitmap (R458). -/
def ackContent (build : Dword) (status : Nat) (bitmap : List Byte) : List Byte := beBytes 8 build.toNat ++ beBytes 1 status ++ bitmap

/-! ### Sending -/

/-- A frame of `TYPE` `ty` as the hub sends it next, on both links (R342). -/
def Hub.nextFrame (h : Hub) (ty : Nat) (content : List Byte) : List Byte := partnerFrame ty (h.ptnr.txSeq + 1) content

/-- The hub sends a frame: `put` keeps its bytes where the unit shows what it sent. Nothing is sent while XT or its SerDes PLL has failed (R487). -/
def Hub.sendFrame (h : Hub) (ty : Nat) (content : List Byte) (put : List Byte → PtnrInt → PtnrInt) : Hub :=
  if !h.xtRuns then h
  else
  { h with ptnr := put (h.nextFrame ty content) { h.ptnr with txSeq := h.ptnr.txSeq + 1 } }

end Sys2Proof.Machine
end

