-- ==== Sys2Proof/Machine/Sgw.lean ====
section
/-! DEFINITION. The signal gateway: map entries, destination descriptors, their check and load, conversion of values, and the messages
(R406 to R414). -/

namespace Sys2Proof.Machine

/-! ### The map (R408, R411) -/

/-- Field of a word of an entry or descriptor. -/
def wf (ws : List Word) (k lo w : Nat) : Nat := bvField (ws.getD k 0) lo w

/-- `VALID` of an entry or descriptor. -/
def sgwValid (ws : List Word) : Bool := wf ws 0 31 1 == 1
/-- `SKIND`. -/
def seKind (e : List Word) : Nat := wf e 0 29 2
/-- `SPORT`. -/
def sePort (e : List Word) : Nat := wf e 0 27 2
/-- `SIDE`. -/
def seIde (e : List Word) : Bool := wf e 0 26 1 == 1
/-- `SID`. -/
def seId (e : List Word) : Nat := wf e 1 0 29
/-- `SLEN`. -/
def seLen (e : List Word) : Nat := wf e 2 15 6
/-- `DMSG`. -/
def seDmsg (e : List Word) : Nat := wf e 5 25 7
/-- `DOFF`. -/
def seDoff (e : List Word) : Nat := wf e 5 16 9
/-- `DLEN`. -/
def seDlen (e : List Word) : Nat := wf e 5 10 6
/-- `DORD` = 1. -/
def seDbig (e : List Word) : Bool := wf e 5 9 1 == 1
/-- `PORT` of a descriptor. -/
def sdPort (d : List Word) : Nat := wf d 0 26 2
/-- `LEN` of a descriptor. -/
def sdLen (d : List Word) : Nat := wf d 0 0 7
/-- `IDE` of a descriptor. -/
def sdIde (d : List Word) : Bool := wf d 0 30 1 == 1
/-- `ID` of a descriptor. -/
def sdId (d : List Word) : Nat := wf d 1 0 29

/-- Bits of a message that a signal takes, as byte × 8 + bit, least significant of the signal first (R409). -/
def signalBits (big : Bool) (off len : Nat) : List Nat :=
  (upTo len).map fun i =>
    if big then let p := off + (len - 1 - i); p / 8 * 8 + (7 - p % 8) else off + i

/-- The value of the bits named, least significant first. -/
def bitsValue (bs : List Byte) (ks : List Nat) : Nat :=
  ks.foldr (fun k acc => 2 * acc + getField (bs.getD (k / 8) 0).toNat (k % 8) 1) 0

/-- Set one bit of a message. -/
def msgSetBit (bs : List Byte) (k v : Nat) : List Byte := listMod bs (k / 8) fun b => bvSet b (k % 8) 1 v

/-- Write a value into the bits named, least significant first. -/
def msgPut (bs : List Byte) (ks : List Nat) (v : Nat) : List Byte :=
  ((upTo ks.length).zip ks).foldl (fun (bs : List Byte) ik => msgSetBit bs ik.2 (getField v ik.1 1)) bs

/-- R410: (`A` · x + `B`) ÷ 65,536 to the nearest integer, halves away from zero. -/
def roundDiv (n : Int) : Int :=
  if 0 ≤ n then (2 * n + 65536) / 131072 else -((2 * (-n) + 65536) / 131072)

/-- Saturation to `w` bits, signed or not; the stored bits, and whether it saturated (R410). -/
def saturate (w : Nat) (signed : Bool) (y : Int) : Nat × Bool :=
  let lo : Int := if signed then -((2 ^ (w - 1) : Nat) : Int) else 0
  let hi : Int := if signed then ((2 ^ (w - 1) : Nat) : Int) - 1 else ((2 ^ w : Nat) : Int) - 1
  if y < lo then (wrapInt w lo, true) else if hi < y then (wrapInt w hi, true) else (wrapInt w y, false)

/-- The destination value of an entry for a payload: none when the source is too short (R409, R410). -/
def entryValue (e : List Word) (payload : List Byte) : Option (Nat × Bool) :=
  let off := wf e 2 21 11
  if 8 * payload.length < off + seLen e then none
  else
    let raw := bitsValue payload (signalBits (wf e 2 14 1 == 1) off (seLen e))
    let x : Int := if wf e 2 13 1 = 1 then signedOf (seLen e) raw else (raw : Int)
    some (saturate (seDlen e) (wf e 5 8 1 == 1) (roundDiv (signedOf 32 (wf e 3 0 32) * x + signedOf 32 (wf e 4 0 32))))

/-! ### Check and load (R412) -/

/-- The data lengths of CAN FD. -/
def fdLens : List Nat := [0, 1, 2, 3, 4, 5, 6, 7, 8, 12, 16, 20, 24, 32, 48, 64]

/-- A destination descriptor's code of R412, 0 for none; `earlier` are the valid descriptors before it. -/
def descCode (d : List Word) (earlier : List (List Word)) : Nat :=
  let fdf := wf d 0 29 1
  if wf d 0 7 19 ≠ 0 ∨ wf d 1 29 3 ≠ 0 ∨ wf d 3 0 32 ≠ 0 ∨ (sdIde d = false ∧ 0x7FF < sdId d) ∨ wf d 2 16 16 = 0 ∨
      (wf d 2 0 16 ≠ 0 ∧ wf d 2 0 16 < wf d 2 16 16) then 1
  else if (fdf = 0 ∧ (8 < sdLen d ∨ wf d 0 28 1 = 1)) ∨ (fdf = 1 ∧ !fdLens.contains (sdLen d)) then 3
  else if earlier.any fun x => sdPort x == sdPort d && sdIde x == sdIde d && sdId x == sdId d then 5
  else 0

/-- A map entry's code of R412, 0 for none; `earlier` are the valid entries before it. -/
def entryCode (e : List Word) (dest : Nat → List Word) (earlier : List (List Word)) : Nat :=
  let d := dest (seDmsg e)
  let bits := signalBits (seDbig e) (seDoff e) (seDlen e)
  if wf e 0 0 26 ≠ 0 ∨ wf e 1 29 3 ≠ 0 ∨ wf e 2 0 13 ≠ 0 ∨ wf e 5 0 8 ≠ 0 ∨ wf e 6 0 32 ≠ 0 ∨ wf e 7 0 32 ≠ 0 ∨ seKind e = 3 ∨
      seLen e = 0 ∨ 32 < seLen e ∨ seDlen e = 0 ∨ 32 < seDlen e ∨ (seKind e ≠ 0 ∧ (sePort e ≠ 0 ∨ 511 < seId e)) ∨
      (seKind e = 0 ∧ seIde e = false ∧ 0x7FF < seId e) then 1
  else if sgwValid d ∧ 8 * sdLen d < seDoff e + seDlen e then 2
  else if earlier.any fun x => seDmsg x == seDmsg e && (signalBits (seDbig x) (seDoff x) (seDlen x)).any bits.contains then 4
  else if !sgwValid d then 6
  else 0

/-- The first failing element of a list of numbered elements, each judged against those before it: index and code. -/
def firstFail (code : List Word → List (List Word) → Nat) : List (List Word) → List (Nat × List Word) → Option (Nat × Nat)
  | _, [] => none
  | seen, (i, e) :: es => if code e seen = 0 then firstFail code (seen ++ [e]) es else some (i, code e seen)

/-- Check and load a map given as a reader of words by offset: entries in index order, then descriptors (R412). -/
def Hub.sgwLoad (h : Hub) (word : Nat → Word) : Hub :=
  let entry (i : Nat) : List Word := (upTo 8).map fun j => word (32 * i + 4 * j)
  let dest (d : Nat) : List Word := (upTo 4).map fun j => word (0x8000 + 16 * d + 4 * j)
  let es := ((upTo 1024).map fun i => (i, entry i)).filter fun e => sgwValid e.2
  let ds := ((upTo 128).map fun d => (d, dest d)).filter fun d => sgwValid d.2
  let fail (kind : Nat) (x : Nat × Nat) : Hub :=
    let h := ((h.fset SGW_STAT_LOADED 0).fset SGW_STAT_LOAD_ERR 1).fset SGW_STAT_ERRKIND kind
    { (h.fset SGW_STAT_ERRCODE x.2).fset SGW_STAT_ERRIDX x.1 with sgw := sgwReset }
  match firstFail (fun e seen => entryCode e dest seen) [] es with
  | some x => fail 0 x
  | none =>
    match firstFail descCode [] ds with
    | some x => fail 1 x
    | none => { h.fset SGW_STAT_LOADED 1 with sgw := { entries := es, dests := ds, vals := [], run := [] } }

/-- Address of the map. -/
def Hub.sgwBase (h : Hub) : Nat := h.fget SGW_MBASE_BASE * 4096

/-- SGW_LOAD: a write of `LOAD` while `EN` = 0 loads; any other is ignored (R412). -/
def Hub.sgwLoadWrite (h : Hub) : Hub :=
  if h.on SGW_CTRL_EN then h.fset SGW_STAT_IGN 1 else h.sgwLoad fun o => memWord h.sram (h.sgwBase + o)

/-- The load from the gateway section of the settings (R412). -/
def Hub.sgwLoadSection (h : Hub) (area : List Byte) : Hub :=
  let bs := Config.sgwSection area
  h.sgwLoad fun o => BitVec.ofNat 32 (leAt bs o 4)

/-! ### Values and messages (R413, R414) -/

/-- A destination that has sent nothing. -/
def destNew : SgwDest := { fresh := false, sentOnce := false, lastSend := 0, lastVal := 0, silent := false, buf := none }

/-- The gateway runs. -/
def Hub.sgwRuns (h : Hub) : Bool := h.up && h.on SGW_CTRL_EN && h.on SGW_STAT_LOADED

/-- Descriptor `d` of the loaded map. -/
def Hub.sgwDesc (h : Hub) (d : Nat) : Option (List Word) := (h.sgw.dests.find? fun x => x.1 == d).map (·.2)
/-- Running state of a destination. -/
def Hub.sgwDest (h : Hub) (d : Nat) : SgwDest := sparseGet (fun _ => destNew) h.sgw.run d
/-- Change a destination's running state. -/
def Hub.modDest (h : Hub) (d : Nat) (f : SgwDest → SgwDest) : Hub :=
  { h with sgw := { h.sgw with run := sparseMod (fun _ => destNew) h.sgw.run d f } }

/-- The message with the latest value of every entry; bits no entry covers are 0 (R413). -/
def Hub.sgwMessage (h : Hub) (d : Nat) (desc : List Word) : List Byte :=
  h.sgw.entries.foldl (fun (m : List Byte) e =>
    if seDmsg e.2 = d then msgPut m (signalBits (seDbig e.2) (seDoff e.2) (seDlen e.2)) (sparseGet (fun _ => 0) h.sgw.vals e.1) else m)
    (zeros (sdLen desc))

/-- An entry takes a new value; a frame still waiting in the transmit buffer takes it too (R413, R414). -/
def Hub.sgwTake (h : Hub) (i : Nat) (e : List Word) (payload : List Byte) (t : Nat) : Hub :=
  match h.sgwDesc (seDmsg e) with
  | none => h
  | some desc =>
    match entryValue e payload with
    | none => h.fsat (SGW_CANCNT_SHORT (sdPort desc)) 1
    | some (v, sat) =>
      let h := if sat then h.fsat (SGW_CANCNT_SAT (sdPort desc)) 1 else h
      let h := { h with sgw := { h.sgw with vals := sparseSet (fun _ => 0) h.sgw.vals i v } }
      let m := h.sgwMessage (seDmsg e) desc
      h.modDest (seDmsg e) fun (x : SgwDest) =>
        if x.buf.isSome then { x with buf := some m, lastVal := t, silent := false } else { x with fresh := true, lastVal := t, silent := false }

/-- A source delivers to every entry that names it. -/
def Hub.sgwSource (h : Hub) (names : List Word → Bool) (payload : List Byte) (t : Nat) : Hub :=
  if !h.sgwRuns then h
  else (h.sgw.entries.filter fun e => names e.2).foldl (fun (h : Hub) e => h.sgwTake e.1 e.2 payload t) h

/-- A telegram of a connection: kind 1 as assembled, kind 2 as received (R408, R413). -/
def Hub.sgwTelegram (h : Hub) (kind conn : Nat) (bytes : List Byte) (t : Nat) : Hub :=
  match parseTlg bytes with
  | some x => h.sgwSource (fun e => seKind e == kind && seId e == conn) x.payload t
  | none => h

/-- A port's state from its error counters: bus-off past 255 transmit errors, counted; passive from 128 of either (ISO 11898-1, Assumption 58). -/
def Hub.canState (h : Hub) (port tec rec : Nat) : Hub :=
  let h := (h.fset (SGW_CANSTAT_TEC port) (min 255 tec)).fset (SGW_CANSTAT_REC port) (min 255 rec)
  if 255 < tec then (h.fset (SGW_CANSTAT_STATE port) 2).fsat (SGW_CANSTAT_BOFF port) 1
  else h.fset (SGW_CANSTAT_STATE port) (if 128 ≤ tec ∨ 128 ≤ rec then 1 else 0)

/-- A frame on the bus counts in the receiver's error counter: up with an error, down without one (ISO 11898-1, Assumption 58). -/
def Hub.canHeard (h : Hub) (port : Nat) (err : Bool) : Hub :=
  let r := h.fget (SGW_CANSTAT_REC port)
  h.canState port (h.fget (SGW_CANSTAT_TEC port)) (if err then r + 1 else if 127 < r then 127 else r - 1)

/-- A frame sent counts in the transmitter's error counter (ISO 11898-1, Assumption 58). -/
def Hub.canTold (h : Hub) (port : Nat) (err : Bool) : Hub :=
  let n := h.fget (SGW_CANSTAT_TEC port)
  h.canState port (if err then n + 8 else n - 1) (h.fget (SGW_CANSTAT_REC port))

/-- CAN_FRAME (R407, R413): a frame with an error delivers nothing; a port that is off or bus-off hears none. -/
def Hub.canFrame (h : Hub) (port : Nat) (ide : Bool) (ident : Nat) (remote : Bool) (data : List Byte) (err : Bool) (t : Nat) : Hub :=
  let mapped (e : List Word) : Bool := seKind e == 0 && sePort e == port && seIde e == ide && seId e == ident
  if !h.on (SGW_CANCFG_EN port) || h.fget (SGW_CANSTAT_STATE port) == 2 then h
  else
  let h := h.canHeard port err
  if err || remote || (decide (8 < data.length) && !h.on (SGW_CANCFG_FDEN port)) then h
  else if h.sgw.entries.any fun e => mapped e.2 then h.sgwSource mapped data t
  else h.fsat (SGW_CANCNT_RXDROP port) 1

/-- A port's bus lets it send a descriptor's message: enabled, not bus-off, and a CAN FD frame only where `FDEN` permits it. -/
def Hub.canSends (h : Hub) (desc : List Word) : Bool :=
  let port := sdPort desc
  h.on (SGW_CANCFG_EN port) && h.fget (SGW_CANSTAT_STATE port) != 2 && (wf desc 0 29 1 == 0 || h.on (SGW_CANCFG_FDEN port))

/-- SGW_DESTINATION_SEND: a due message goes into its port's transmit buffer (R413). -/
def Hub.destSend (h : Hub) (d t : Nat) : Hub :=
  match h.sgwDesc d with
  | none => h
  | some desc =>
    let x := h.sgwDest d
    if h.sgwRuns && x.fresh && !x.silent && h.canSends desc && (!x.sentOnce || decide (x.lastSend + wf desc 2 16 16 * 1000000 ≤ t)) then
      let m := h.sgwMessage d desc
      h.modDest d fun (x : SgwDest) => { x with fresh := false, sentOnce := true, lastSend := t, buf := some m }
    else h

/-- SGW_SILENCE_TIMEOUT: without a new value for `TMO`, the message is not sent until one comes (R413). -/
def Hub.destSilent (h : Hub) (d t : Nat) : Hub :=
  match h.sgwDesc d with
  | none => h
  | some desc =>
    let tmo := wf desc 2 0 16
    if h.sgwRuns && tmo != 0 && decide ((h.sgwDest d).lastVal + tmo * 1000000 ≤ t) then
      h.modDest d fun (x : SgwDest) => { x with silent := true, fresh := false, buf := none }
    else h

/-- Arbitration rank of a descriptor's identifier: the lower goes first (ISO 11898-1). -/
def canRank (d : List Word) : Nat := if sdIde d then sdId d / 2 ^ 18 * 2 ^ 20 + 2 ^ 19 + sdId d % 2 ^ 18 else sdId d * 2 ^ 20

/-- CAN_FRAME_SENT: the port's waiting message of the lowest identifier has been sent; sent with an error it stays (R414). -/
def Hub.canSent (h : Hub) (port : Nat) (err : Bool) : Hub :=
  if !h.on (SGW_CANCFG_EN port) || h.fget (SGW_CANSTAT_STATE port) == 2 then h
  else
  let ws := h.sgw.dests.filter fun d => sdPort d.2 == port && (h.sgwDest d.1).buf.isSome
  match ws.foldl (fun (b : Option (Nat × List Word)) d =>
      match b with | none => some d | some x => if canRank d.2 < canRank x.2 then some d else b) none with
  | some d => if err then h.canTold port true else (h.canTold port false).modDest d.1 fun (x : SgwDest) => { x with buf := none }
  | none => h

/-- BUS_OFF_RECOVERY (R407): the port is error active again, its error counters at 0. -/
def Hub.busOffRecovery (h : Hub) (port : Nat) : Hub :=
  if h.fget (SGW_CANSTAT_STATE port) = 2 then
    ((h.fset (SGW_CANSTAT_STATE port) 0).fset (SGW_CANSTAT_TEC port) 0).fset (SGW_CANSTAT_REC port) 0
  else h

/-- A hub command acts while the hub is out of reset (Assumption 15). -/
def State.upHub (s : State) (f : Hub → Hub) : State := if s.hub.rst.held then s else s.modHub f

/-! ### Meanings -/

/-- SGW_LOAD (R412). -/
def execSgwLoad (s : State) : Host.Outcome State Fault Refusal := done (s.upHub (·.sgwLoadWrite))
/-- CAN_FRAME (R413). -/
def execCanFrame (port : Nat) (ide : Bool) (id : Word) (remote : Bool) (data : List Byte) (err : Bool) (s : State) : Host.Outcome State Fault Refusal :=
  done (s.upHub (·.canFrame port ide id.toNat remote data err s.now))
/-- SGW_DESTINATION_SEND (R413). -/
def execSgwDestinationSend (d t : Nat) (s : State) : Host.Outcome State Fault Refusal := done ((s.at t).upHub (·.destSend d t))
/-- SGW_SILENCE_TIMEOUT (R413). -/
def execSgwSilenceTimeout (d t : Nat) (s : State) : Host.Outcome State Fault Refusal := done ((s.at t).upHub (·.destSilent d t))
/-- BUS_OFF_RECOVERY (R407). -/
def execBusOffRecovery (port : Nat) (s : State) : Host.Outcome State Fault Refusal := done (s.upHub (·.busOffRecovery port))
/-- SGW_CANCNT_CLEAR (R6). -/
def execSgwCancntClear (port : Nat) (_v : Word) (s : State) : Host.Outcome State Fault Refusal :=
  done (s.upHub (·.setRg (SGW_CANCNT port) 0))
/-- CAN_FRAME_SENT (R414). -/
def execCanFrameSent (port : Nat) (err : Bool) (s : State) : Host.Outcome State Fault Refusal := done (s.upHub (·.canSent port err))

end Sys2Proof.Machine
end

