-- ==== Sys2Proof/Machine/Carrier.lean ====
section
/-! DEFINITION. The hub as carrier of EST telegrams: delivery of received telegrams into the mailboxes, assembly of outgoing ones from the
lanes' copies, Ethernet frames (R175, R299, R324, R329, R347). -/

namespace Sys2Proof.Machine

/-- A block-alone reset of block `code` runs: the block takes no new work (R500). -/
def Hub.blockOff (h : Hub) (code : Nat) : Bool := match h.brst with | some (c, _) => c == code | none => false

/-- Hub firmware runs and the EST framing engine works. -/
def Hub.carries (h : Hub) : Bool := h.up && !h.blockOff 0x72

/-! ### Delivery -/

/-- The module is a standby or resynchronises: its hub delivers no received telegram of its own (R347). -/
def Hub.isStandby (h : Hub) : Bool := h.fget PTNR_STAT_ROLE == 3 || h.fget PTNR_STAT_ROLE == 4

/-- A telegram is committed into all three mailboxes. -/
def Hub.intoMailboxes (h : Hub) (g : InTlg) : Hub :=
  allLanes.foldl (fun (h : Hub) l => h.modMbx l fun (m : Mailbox) => { m with inTlg := m.inTlg ++ [g] }) h

/-- A received telegram of connection `conn` reaches the lanes; a standby's hub drops it, or holds it once a takeover is decided (R347,
R353). -/
def Hub.deliver (h : Hub) (conn : Nat) (bytes : List Byte) (t : Nat) : Hub :=
  let g : InTlg := { conn := conn, bytes := bytes, t := t }
  if !h.carries then h
  else if h.isStandby then
    if h.ptnr.decided.isSome then { h with ptnr := { h.ptnr with held := h.ptnr.held ++ [g] } } else h
  else h.intoMailboxes g

/-- A received telegram: the gateway takes its signals, and it is delivered (R413). -/
def Hub.received (h : Hub) (conn : Nat) (bytes : List Byte) (t : Nat) : Hub := (h.sgwTelegram 2 conn bytes t).deliver conn bytes t

/-- The connection descriptor `conn` as the hub routes it. -/
def Hub.desc (h : Hub) (conn : Nat) : ConnDesc := sparseGet (fun _ => ConnDesc.none) h.descs conn

/-- The connection of a carrier with an identity. -/
def Hub.connOf (h : Hub) (carrier : Nat) (connid : Nat) : Option Nat :=
  (h.descs.find? fun e => e.2.carrier == carrier && e.2.connid.toNat == connid && e.2.connid != 0).map (·.1)

/-- `CONNID` of a telegram, from its trailer. -/
def tlgConnid (bs : List Byte) : Nat := beAt bs (bs.length - 16) 8

/-- Lanes in *sit ready* or in *easy all* discard the telegrams that their mailboxes receive (R44, R179). -/
def State.discardUnread (s : State) : State :=
  allLanes.foldl (fun (s : State) l =>
    if (s.lane l).sitReady || (s.lane l).easy then s.modHub (·.modMbx l fun (m : Mailbox) => { m with inTlg := [] }) else s) s

/-- A carrier event of the hub, and what the lanes discard of it. -/
def State.carry (s : State) (f : Hub → Hub) : State := if s.hub.rst.held then s else (s.modHub f).discardUnread

/-! ### Assembly (R175, R324) -/

/-- A lane's copy of a telegram. -/
structure TlgCopy where
  lane : LaneId
  tlg  : Tlg
  deriving DecidableEq, Repr

/-- The code a lane formed, in its own slot. -/
def TlgCopy.code (c : TlgCopy) : Nat := match c.lane with | .a => c.tlg.codeA | .b => c.tlg.codeB | .c => c.tlg.codeC

/-- Two copies have the same header and payload. -/
def TlgCopy.same (a b : TlgCopy) : Bool := a.tlg.header == b.tlg.header && a.tlg.payload == b.tlg.payload

/-- Tag and trailer of a copy. -/
def TlgCopy.tail (c : TlgCopy) : Option Nat × List Byte × Nat := (c.tlg.tag, c.tlg.trailer12, c.tlg.scrc)

/-- The largest group of like copies; of equal groups, the one with the earliest lane (R175). -/
def largestGroup (cs : List TlgCopy) : List TlgCopy :=
  cs.foldl (fun (best : List TlgCopy) c => let g := cs.filter c.same; if best.length < g.length then g else best) []

/-- The telegram a group makes: each member's code in its slot, tag and trailer of the first member that another one equals, or of the
first (R175, R324). -/
def assembleGroup (g : List TlgCopy) : Option Tlg :=
  match g with
  | [] => none
  | c :: _ =>
    let src := match g.find? fun x => decide (2 ≤ (g.filter fun y => y.tail == x.tail).length) with | some x => x | none => c
    let code (l : LaneId) : Nat := match g.find? fun x => x.lane == l with | some x => x.code | none => 0
    some { src.tlg with codeA := code .a, codeB := code .b, codeC := code .c }

/-- The lanes' copies of the telegram of a connection of the finish at `t`. -/
def Hub.copies (h : Hub) (conn t : Nat) : List TlgCopy :=
  allLanes.filterMap fun l =>
    match (h.mbx l).outTlg.find? fun o => o.conn == conn && o.t == t with
    | some o => (parseTlg o.bytes).map fun x => { lane := l, tlg := x }
    | none => none

/-- The latest telegram of a connection as a ring slot that starts at `t` carries it (R299). -/
def Hub.asmAt (h : Hub) (conn t : Nat) : List Byte :=
  let a := sparseGet (fun _ => AsmTlg.none) h.asm conn
  if a.from_ ≤ t then a.bytes else a.prev

/-- Bytes of an Ethernet frame after its addresses and its tag, FCS apart: EtherType, telegram length, telegram. -/
def ethernetBody (etype : Nat) (tlg : List Byte) : List Byte := beBytes 2 etype ++ beBytes 2 tlg.length ++ tlg

/-- The frame that carries a telegram, FCS apart (R329): destination, source, the tag of a tagged descriptor, then the body, padded to the 60
bytes of the minimum frame. -/
def ethernetFrameOf (d : ConnDesc) (etype : Nat) (tlg : List Byte) : List Byte :=
  let tag := if d.vlan.testBit 15 then beBytes 2 0x8100 ++ beBytes 2 (d.vlan % 4096) else []
  let f := beBytes 6 d.peermac ++ beBytes 6 (Config.portMac d.port).toNat ++ tag ++ ethernetBody etype tlg
  f ++ zeros (60 - f.length)

/-- An assembled telegram of the finish at `fin` goes to its carrier: ring slots take it from the store of latest telegrams, host software from its list;
in an EST frame over the partner links, or in an Ethernet frame, it leaves the module (R299, R329, R342). -/
def Hub.assembled (h : Hub) (conn : Nat) (bytes : List Byte) (fin t : Nat) : Hub :=
  let h := (h.sgwTelegram 1 conn bytes t)
  let a : AsmTlg := { bytes := bytes, from_ := fin + 60000, prev := h.asmAt conn fin }
  let h := { h with asm := sparseSet (fun _ => AsmTlg.none) h.asm conn a }
  let d := h.desc conn
  if d.carrier = 2 then h.sendFrame 0x25 bytes fun f p => { p with estOut := f }
  else if d.carrier = 3 ∧ h.xtRuns = true then { h with ethOut := sparseSet (fun _ => []) h.ethOut d.port (ethernetFrameOf d h.set.estEtype bytes) }
  else if d.carrier = 4 then { h with host := { h.host with rx := h.host.rx ++ [(conn, bytes)] } } else h

/-- The finishes whose copies are complete at `t`: connection and finish instant, each once. -/
def Hub.dueCopies (h : Hub) (t : Nat) : List (Nat × Nat) :=
  (allLanes.flatMap fun l => ((h.mbx l).outTlg.filter fun o => decide (o.t + 50000 ≤ t)).map fun o => (o.conn, o.t)).foldl
    (fun acc x => insertL x acc) []

/-- TELEGRAM_ASSEMBLY: the copies of finishes 50 µs past are grouped and assembled (R175). -/
def Hub.assemble (h : Hub) (t : Nat) : Hub :=
  if !h.carries then h
  else
    let due := h.dueCopies t
    let h := due.foldl (fun (h : Hub) x =>
      match assembleGroup (largestGroup (h.copies x.1 x.2)) with
      | some g => h.assembled x.1 g.bytes x.2 t
      | none => h) h
    allLanes.foldl (fun (h : Hub) l => h.modMbx l fun (m : Mailbox) =>
      { m with outTlg := m.outTlg.filter fun o => !due.contains (o.conn, o.t) }) h

/-! ### Ethernet (R329) -/

/-- The EST telegram a frame carries, FCS apart: none for another EtherType or a bad length. -/
def ethernetTlg (etype : Nat) (bs : List Byte) : Option (List Byte) :=
  let o := if beAt bs 12 2 = 0x8100 then 16 else 12
  let n := beAt bs (o + 2) 2
  let tl := (bs.drop (o + 4)).take n
  if beAt bs o 2 = etype ∧ 44 ≤ n ∧ tl.length = n then some tl else none

/-- ETHERNET_FRAME: routed by `CONNID` to a connection of the Ethernet carrier. -/
def Hub.ethernetFrame (h : Hub) (port : Nat) (bs : List Byte) (t : Nat) : Hub :=
  if h.blockOff (0x30 + port) then h
  else
    match ethernetTlg h.set.estEtype bs with
    | none => h
    | some tl => match h.connOf 3 (tlgConnid tl) with | some k => h.received k tl t | none => h

/-! ### Meanings -/

/-- TELEGRAM_ASSEMBLY (R175). -/
def execTelegramAssembly (t : Nat) (s : State) : Host.Outcome State Fault Refusal := done ((s.at t).upHub (·.assemble t))
/-- ETHERNET_FRAME (R329). -/
def execEthernetFrame (port : Nat) (bytes : List Byte) (t : Nat) (s : State) : Host.Outcome State Fault Refusal :=
  done ((s.at t).carry (·.ethernetFrame port bytes t))

end Sys2Proof.Machine
end

