-- ==== Sys2Proof/Machine/Ring.lean ====
section
/-! DEFINITION. The Zewa rings: ratings and their check, the cycle, presence, competing masters, announcements, breaks and unwraps
(R284 to R315). -/

namespace Sys2Proof.Machine

/-- A submission of the hub to the recorder at `t`: block, class, rule, data. -/
def Hub.recAt (h : Hub) (t blk cls rule : Nat) (data : List (Nat × Nat)) : Hub :=
  h.submit { t := t, source := 0x4000 + blk, code := recCode cls rule, data := recData data, bench := false }

/-- Block index of RING. -/
def blkRing : Nat := 4

/-- Ring `k`. -/
def Hub.ring (h : Hub) (k : Nat) : RingInt := h.rings.getD k ringReset
/-- Change ring `k`. -/
def Hub.modRing (h : Hub) (k : Nat) (f : RingInt → RingInt) : Hub := { h with rings := listMod h.rings k f }

/-! ### Frames (R288 to R291) -/

/-- A cycle-start frame (R289). -/
structure CycleMsg where
  ring    : Nat
  rating  : Nat
  wrapped : Bool
  ann     : Bool
  unwrap  : Bool
  claim   : Word
  master  : Dword
  cycle   : Word
  tstart  : Nat
  delay   : Word
  nrating : Nat
  target  : Word
  deriving DecidableEq, Repr

/-- Its 44 bytes on the wire. -/
def CycleMsg.bytes (f : CycleMsg) : List Byte :=
  withLcrc (beBytes 1 1 ++ beBytes 1 f.ring ++ beBytes 1 f.rating ++ beBytes 1 (b2n f.wrapped + 2 * b2n f.ann + 4 * b2n f.unwrap) ++
    beBytes 4 f.claim.toNat ++ beBytes 8 f.master.toNat ++ beBytes 4 f.cycle.toNat ++ beBytes 8 f.tstart ++ beBytes 4 f.delay.toNat ++
    beBytes 1 f.nrating ++ zeros 3 ++ beBytes 4 f.target.toNat)

/-- The cycle-start frame that received bytes hold; none where the link CRC fails or they are no such frame. -/
def parseCycle (bs : List Byte) : Option CycleMsg :=
  if lcrcOk bs ∧ bs.length = 44 ∧ beAt bs 0 1 = 1 then
    let bit (i : Nat) : Bool := (beAt bs 3 1).testBit i
    some { ring := beAt bs 1 1, rating := beAt bs 2 1, wrapped := bit 0, ann := bit 1, unwrap := bit 2,
           claim := BitVec.ofNat 32 (beAt bs 4 4), master := BitVec.ofNat 64 (beAt bs 8 8), cycle := BitVec.ofNat 32 (beAt bs 16 4),
           tstart := beAt bs 20 8, delay := BitVec.ofNat 32 (beAt bs 28 4), nrating := beAt bs 32 1,
           target := BitVec.ofNat 32 (beAt bs 36 4) }
  else none

/-- A cycle-start frame as it is forwarded (R291): `DELAY` grown by `add`, the link CRC anew; of a frame that failed its CRC, the one's
complement of the correct one. -/
def forwardCycle (bs : List Byte) (add : Nat) : List Byte :=
  let body := bs.take 28 ++ beBytes 4 (beAt bs 28 4 + add) ++ (bs.drop 32).take 8
  if lcrcOk bs then withLcrc body else body ++ beBytes 4 (0xFFFFFFFF - crc32c body)

/-- A slot frame (R290). -/
structure SlotMsg where
  up    : Bool
  ring  : Nat
  slot  : Nat
  node  : Nat
  cycle : Word
  nstat : Byte
  ackr  : Byte
  payload : List Byte
  deriving DecidableEq, Repr

/-- Its bytes on the wire. -/
def SlotMsg.bytes (m : SlotMsg) : List Byte :=
  withLcrc (beBytes 1 (if m.up then 3 else 2) ++ beBytes 1 m.ring ++ beBytes 1 m.slot ++ beBytes 1 m.node ++ beBytes 4 m.cycle.toNat ++
    [m.nstat, m.ackr] ++ beBytes 2 m.payload.length ++ m.payload)

/-- The slot frame that received bytes hold; none where the link CRC fails or they are no such frame. -/
def parseSlot (bs : List Byte) : Option SlotMsg :=
  let n := beAt bs 10 2
  if lcrcOk bs ∧ bs.length = 16 + n ∧ n ≤ 256 ∧ (beAt bs 0 1 = 2 ∨ beAt bs 0 1 = 3) then
    some { up := beAt bs 0 1 == 3, ring := beAt bs 1 1, slot := beAt bs 2 1, node := beAt bs 3 1, cycle := BitVec.ofNat 32 (beAt bs 4 4),
           nstat := bs.getD 8 0, ackr := bs.getD 9 0, payload := (bs.drop 12).take n }
  else none

/-- A frame leaves through the east or the west transmitter. -/
def RingInt.sendAt (r : RingInt) (east : Bool) (bs : List Byte) : RingInt := if east then { r with outE := bs } else { r with outW := bs }

/-- The master's own stream: out of the east transmitter, or of the west one while the east port is lost (R285, R311). -/
def RingInt.send (r : RingInt) (bs : List Byte) : RingInt := r.sendAt (!r.wrapE) bs

/-- The transmitter that forwards what arrives at a port: the other port's, or the same port's while the other is wrapped (R286, R311). -/
def RingInt.outOf (r : RingInt) (east : Bool) : Bool := if east then r.wrapW else !r.wrapE

/-- Primary frames arrive at the west port, or at the east one while the west port is wrapped (R285, R311). -/
def RingInt.reads (r : RingInt) (east : Bool) : Bool := east == r.wrapW

/-- What forwarding here adds to `DELAY` (R286, R291): the port's cable delay and 320 ns. -/
def RingInt.pathDelay (r : RingInt) (east : Bool) : Nat := (if east then r.delayE else r.delayW) + 320

/-! ### Ratings (R292, R293) -/

/-- A slot of a rating. -/
structure RingSlot where
  node  : Nat
  start : Nat
  conn  : Nat
  up    : Bool
  len   : Nat
  deriving DecidableEq, Repr

/-- A word of rating `r` in hub SRAM. -/
def Hub.ratingWord (h : Hub) (r o : Nat) : Word := memWord h.sram (h.fget RING_RTBASE_BASE * 4096 + 0x1000 * r + o)
/-- `VALID` of a rating. -/
def Hub.ratingUsed (h : Hub) (r : Nat) : Bool := bvField (h.ratingWord r 0) 31 1 == 1
/-- Cycle length in ns. -/
def Hub.ratingCycle (h : Hub) (r : Nat) : Nat := bvField (h.ratingWord r 0) 0 10 * 10000
/-- `NSLOT`. -/
def Hub.ratingNslot (h : Hub) (r : Nat) : Nat := bvField (h.ratingWord r 4) 0 9
/-- A slot entry from its two words. -/
def slotOf (w0 w1 : Word) : RingSlot :=
  { node := bvField w0 24 8, start := bvField w0 0 24, conn := bvField w1 16 10, up := bvField w1 15 1 == 1, len := bvField w1 0 9 }
/-- Slot `j` of rating `r`. -/
def Hub.ratingSlot (h : Hub) (r j : Nat) : RingSlot := slotOf (h.ratingWord r (16 + 8 * j)) (h.ratingWord r (20 + 8 * j))
/-- The slots of a rating. -/
def Hub.ratingSlots (h : Hub) (r : Nat) : List RingSlot := (upTo (min 256 (h.ratingNslot r))).map (h.ratingSlot r)

/-- Start of a slot after the cycle start, in ns. -/
def RingSlot.ns (x : RingSlot) : Nat := x.start * 8
/-- End of a slot on the wire: `LEN` + 18 bytes of 8 ns (R292). -/
def RingSlot.endNs (x : RingSlot) : Nat := x.ns + (x.len + 18) * 8

/-- Rule 2 of R293 from the end of the previous slot: ascending, 1 µs apart. -/
def slotsApart : Nat → List RingSlot → Bool
  | _, [] => true
  | from_, x :: xs => decide (from_ ≤ x.ns) && slotsApart (x.endNs + 1000) xs

/-- The nodes that own an uplink slot. -/
def uplinkNodes (xs : List RingSlot) : List Nat := (xs.filter (·.up)).foldl (fun acc x => insertL x.node acc) []

/-- The rules of R293. -/
def Hub.ratingOk (h : Hub) (r : Nat) : Bool :=
  let xs := h.ratingSlots r
  let cyc := bvField (h.ratingWord r 0) 0 10
  let n := h.ratingNslot r
  let others := (upTo 8).flatMap fun q => if h.ratingUsed q then uplinkNodes (h.ratingSlots q) else []
  let reserved := bvField (h.ratingWord r 0) 10 21 == 0 && bvField (h.ratingWord r 4) 9 23 == 0 && h.ratingWord r 8 == 0 &&
    h.ratingWord r 12 == 0 &&
    (upTo (min 256 n)).all fun j => bvField (h.ratingWord r (20 + 8 * j)) 26 6 == 0 && bvField (h.ratingWord r (20 + 8 * j)) 9 6 == 0
  let used (x : RingSlot) : Nat := (xs.filter fun y => y.conn == x.conn && y.up == x.up).length
  h.ratingUsed r && decide (25 ≤ cyc) && decide (cyc ≤ 1000) && decide (1 ≤ n) && decide (n ≤ 256) && reserved &&
    xs.all (fun x => decide (x.node ≤ 64) && decide (x.conn ≤ 511) && decide (x.len ≤ 256) && (x.up == decide (x.node ≠ 0))) &&
    slotsApart 1368 xs && xs.all (fun x => decide (x.endNs + 1000 ≤ cyc * 10000)) &&
    others.all (uplinkNodes xs).contains && xs.all fun x => decide (used x ≤ 2)

/-- `RVALID` bit of a rating. -/
def Hub.ratingValid (h : Hub) (r : Nat) : Bool := getField (h.fget RING_GSTAT_RVALID) r 1 == 1

/-- A rating is in use by an enabled ring. -/
def Hub.ratingInUse (h : Hub) (r : Nat) : Bool :=
  (upTo 6).any fun k => h.on (RING_CTRL_EN k) && (h.fget (RING_STAT_RATING k) == r || h.fget (RING_CTRL_RSTART k) == r)

/-- RATING_CHECK (R293). -/
def Hub.ratingCheck (h : Hub) : Hub := h.fset RING_GSTAT_BUSY 1
/-- RATING_CHECK_DONE: one bit per rating; a rating in use keeps its bit. -/
def Hub.ratingCheckDone (h : Hub) : Hub :=
  if h.on RING_GSTAT_BUSY then
    let v := (upTo 8).map fun r => if h.ratingOk r || (h.ratingValid r && h.ratingInUse r) then 2 ^ r else 0
    (h.fset RING_GSTAT_RVALID v.sum).fset RING_GSTAT_BUSY 0
  else h

/-! ### State of a ring -/

/-- `STATE` codes: off, listening, master, follower, stopped. -/
def rsListen : Nat := 1
/-- Master. -/
def rsMaster : Nat := 2
/-- Follower. -/
def rsFollow : Nat := 3
/-- Stopped on an equal claim. -/
def rsStop : Nat := 4

/-- `STATE` of ring `k`. -/
def Hub.rstate (h : Hub) (k : Nat) : Nat := h.fget (RING_STAT_STATE k)
/-- Set it. -/
def Hub.setRstate (h : Hub) (k v : Nat) : Hub := h.fset (RING_STAT_STATE k) v
/-- The rating in force. -/
def Hub.rating (h : Hub) (k : Nat) : Nat := h.fget (RING_STAT_RATING k)
/-- Length of a cycle of the rating in force. -/
def Hub.cycleNs (h : Hub) (k : Nat) : Nat := h.ratingCycle (h.rating k)
/-- The hub works ring `k`: firmware runs, the timebase ticks, no block reset of the ring. -/
def Hub.ringRuns (h : Hub) (k : Nat) : Bool := h.up && h.ticks && !h.blockOff (0x10 + k)
/-- The module may master rings: unpaired or active (R353). -/
def Hub.mayMaster (h : Hub) : Bool := h.fget PTNR_STAT_ROLE == 0 || h.fget PTNR_STAT_ROLE == 2
/-- The claim the ring's master compares: that of its frames, or the module's. -/
def Hub.ringClaim (h : Hub) (k : Nat) : Word := if h.rstate k = rsMaster then h.rg (RING_CLAIM k) else h.rg PTNR_CLAIM

/-- Bit of node `n` in a pair of registers, low nodes first. -/
def nodeBit (lo hi : Nat) (n : Nat) : Fld := if n ≤ 32 then ⟨lo, n - 1, 1⟩ else ⟨hi, n - 33, 1⟩
/-- Node `n` is present. -/
def Hub.present (h : Hub) (k n : Nat) : Bool := h.on (nodeBit (RING_PRESLO k) (RING_PRESHI k) n)
/-- Node `n` acknowledged. -/
def Hub.acked (h : Hub) (k n : Nat) : Bool := h.on (nodeBit (RING_ACKLO k) (RING_ACKHI k) n)
/-- Node addresses. -/
def allNodes : List Nat := (upTo 64).map (· + 1)

/-- A presence change writes a recorder entry (R298). -/
def Hub.setPresent (h : Hub) (k n : Nat) (v : Bool) (t : Nat) : Hub :=
  (h.fset (nodeBit (RING_PRESLO k) (RING_PRESHI k) n) (b2n v)).recAt t blkRing 8 298 []

/-! ### Announcements (R306 to R309, R313) -/

/-- Reasons of `ABN`. -/
def abnBadRating : Nat := 1
/-- BUSY. -/
def abnBusy : Nat := 2
/-- ACK_MISSING. -/
def abnAckMissing : Nat := 3
/-- RING_CHANGED. -/
def abnRingChanged : Nat := 4
/-- CANCELLED. -/
def abnCancelled : Nat := 5

/-- `CHG_ABN` with a reason. -/
def Hub.chgAbn (h : Hub) (k r : Nat) : Hub := (h.fset (RING_STAT_CHG_ABN k) 1).fset (RING_STAT_ABN k) r

/-- An announcement begins with the next cycle start; its target lies 16 cycles after that. -/
def Hub.annBegin (h : Hub) (k rating : Nat) (unwrap : Bool) : Hub :=
  let target := (h.rg (RING_CYCLE k) + 17).toNat
  let h := ((h.setRg (RING_ACKLO k) 0).setRg (RING_ACKHI k) 0).fset (RING_STAT_CHG_PEND k) 1
  h.modRing k fun (r : RingInt) => { r with ann := some { rating := rating, target := target, unwrap := unwrap } }

/-- Both wrapping points of the single break recorded have reported restoration: of the master's ports, its own view (R313). -/
def Hub.pointsRestored (h : Hub) (k : Nat) : Bool :=
  let r := h.ring k
  let lo := h.fget (RING_BRK_LO1 k)
  let hi := h.fget (RING_BRK_HI1 k)
  h.on (RING_BRK_V1 k) && !h.on (RING_BRK_V2 k) &&
    (if lo = 0 then r.wrapE && !h.on (RING_STAT_LOSE k) else r.restN.contains lo) &&
    (if hi = 0 then r.wrapW && !h.on (RING_STAT_LOSW k) else r.restN.contains hi)

/-- UNWRAP_ANNOUNCE: after 1,000 restored cycles; it waits while another announcement is pending (R306, R313). -/
def Hub.unwrapAnnounce (h : Hub) (k : Nat) : Hub :=
  let r := h.ring k
  if h.rstate k = rsMaster ∧ h.on (RING_STAT_WRAP k) ∧ h.on (RING_CTRL_HOLDWRAP k) = false ∧ 1000 ≤ r.restored then
    match r.ann with
    | some a => if a.unwrap then h else h.modRing k fun (r : RingInt) => { r with unwrapWait := true }
    | none => h.annBegin k (h.rating k) true
  else h

/-- A pending announcement has ended; an unwrap that waited begins. -/
def Hub.annEnd (h : Hub) (k : Nat) : Hub :=
  let wait := (h.ring k).unwrapWait
  let h := (h.fset (RING_STAT_CHG_PEND k) 0).modRing k fun (r : RingInt) => { r with ann := none, unwrapWait := false }
  if wait then h.unwrapAnnounce k else h

/-- A pending announcement is abandoned with a reason (R309). -/
def Hub.annAbandon (h : Hub) (k reason : Nat) : Hub := if (h.ring k).ann.isSome then (h.chgAbn k reason).annEnd k else h

/-- RING_CMD_ANNOUNCE (R306): begun, or refused with BAD_RATING or BUSY. -/
def Hub.ringAnnounce (h : Hub) (k rating : Nat) : Hub :=
  if h.rstate k ≠ rsMaster then h
  else if !h.ratingValid rating || rating == h.rating k then h.chgAbn k abnBadRating
  else if (h.ring k).ann.isSome then h.chgAbn k abnBusy
  else h.annBegin k rating false

/-- Normal forwarding again (R313). -/
def Hub.unwrapped (h : Hub) (k : Nat) : Hub :=
  let h := ((h.fset (RING_STAT_WRAP k) 0).fset (RING_STAT_SPLIT k) 0).setRg (RING_BRK k) 0
  h.modRing k fun (r : RingInt) => { r with wrapE := false, wrapW := false, restored := 0, wrapN := [], restN := [], losUp := [], losDn := [] }

/-- ANNOUNCE_TARGET: the decision at the start of the target cycle (R307). -/
def Hub.annDecide (h : Hub) (k : Nat) : Hub :=
  match (h.ring k).ann with
  | none => h
  | some a =>
    if h.rstate k = rsMaster ∧ (h.rg (RING_CYCLE k) + 1).toNat = a.target then
      if (allNodes.filter (h.present k)).all (h.acked k) then
        let h := h.fset (RING_STAT_CHG_DONE k) 1
        let h := if a.unwrap then h.unwrapped k else h.fset (RING_STAT_RATING k) a.rating
        h.annEnd k
      else h.annAbandon k abnAckMissing
    else h

/-! ### Breaks (R310 to R312) -/

/-- The node addresses in loop order. -/
def Hub.loopNodes (h : Hub) (k : Nat) : List Nat := allNodes.filter (uplinkNodes (h.ratingSlots (h.rating k))).contains

/-- The hops with a loss of signal as nodes and the master's own ports report it: lower and higher address beside it, 0 the master. -/
def Hub.lostHops (h : Hub) (k : Nat) : List (Nat × Nat) :=
  let ns := h.loopNodes k
  let next (n : Nat) : Nat := ((ns.filter fun m => decide (n < m)).head?).getD 0
  let prev (n : Nat) : Nat := ((ns.filter fun m => decide (m < n)).getLast?).getD 0
  let r := h.ring k
  (if h.on (RING_STAT_LOSE k) then [(0, next 0)] else []) ++ r.losDn.map (fun n => (n, next n)) ++ r.losUp.map (fun n => (prev n, n)) ++
    (if h.on (RING_STAT_LOSW k) then [(prev 65, 0)] else [])

/-- The breaks recorded. -/
def Hub.breaks (h : Hub) (k : Nat) : List (Nat × Nat) :=
  (if h.on (RING_BRK_V1 k) then [(h.fget (RING_BRK_LO1 k), h.fget (RING_BRK_HI1 k))] else []) ++
    (if h.on (RING_BRK_V2 k) then [(h.fget (RING_BRK_LO2 k), h.fget (RING_BRK_HI2 k))] else [])

/-- One more break: `WRAP`, its place, `SPLIT` for the second, a recorder entry; a pending announcement is abandoned (R309, R312). -/
def Hub.addBreak (h : Hub) (k : Nat) (e : Nat × Nat) (t : Nat) : Hub :=
  if (h.breaks k).contains e then h
  else
    let h := if h.on (RING_BRK_V1 k) then
        if h.on (RING_BRK_V2 k) then h
        else (((h.fset (RING_BRK_V2 k) 1).fset (RING_BRK_LO2 k) e.1).fset (RING_BRK_HI2 k) e.2).fset (RING_STAT_SPLIT k) 1
      else ((h.fset (RING_BRK_V1 k) 1).fset (RING_BRK_LO1 k) e.1).fset (RING_BRK_HI1 k) e.2
    ((h.fset (RING_STAT_WRAP k) 1).annAbandon k abnRingChanged).recAt t blkRing 8 312 []

/-- The master reports the breaks it knows of. -/
def Hub.reportBreaks (h : Hub) (k t : Nat) : Hub :=
  if h.rstate k = rsMaster then (h.lostHops k).foldl (fun (h : Hub) e => h.addBreak k e t) h else h

/-- Loss of signal of a port. -/
def losOf (k : Nat) (east : Bool) : Fld := if east then RING_STAT_LOSE k else RING_STAT_LOSW k

/-- LOSS_OF_SIGNAL, or a remote fault that counts as one (R310): counted; an unwrap under announcement is abandoned (R313). -/
def Hub.lossOfSignal (h : Hub) (k : Nat) (east : Bool) : Hub :=
  if h.on (losOf k east) then h
  else
    let h := (h.fset (losOf k east) 1).fsat (RING_ERR_LOSCNT k) 1
    match (h.ring k).ann with | some a => if a.unwrap then h.annAbandon k abnRingChanged else h | none => h

/-- RING_WRAP: a lost port wraps at the cycle boundary, and the master reports the break (R311, R312). -/
def Hub.ringWrap (h : Hub) (k : Nat) (east : Bool) (t : Nat) : Hub :=
  let r := h.ring k
  if h.on (losOf k east) && !(if east then r.wrapE else r.wrapW) then
    let h := h.modRing k fun (r : RingInt) => if east then { r with wrapE := true } else { r with wrapW := true }
    ((h.fset (RING_STAT_WRAP k) 1).annAbandon k abnRingChanged).reportBreaks k t
  else h

/-- SIGNAL_RESTORED: the port has signal again; it stays wrapped until the unwrap (R313). -/
def Hub.signalRestored (h : Hub) (k : Nat) (east : Bool) : Hub := h.fset (losOf k east) 0

/-! ### The cycle (R294, R301, R305) -/

/-- A port's transmitter sends remote-fault ordered sets while its receiver has lost its signal (R310). -/
def Hub.remoteFaultOut (h : Hub) (k : Nat) (east : Bool) : Bool := h.on (losOf k east)

/-- What arrives at a port is forwarded: by a follower, and by a ring that is off, from either port; by the master only the secondary
direction, from the east receiver; by a stopped master nothing (R285, R286, R304). -/
def Hub.forwards (h : Hub) (k : Nat) (east : Bool) : Bool :=
  let st := h.rstate k
  if st = rsStop then false else if st = rsMaster ∨ st = rsListen then east else true

/-- A frame goes on from port `east`: `bs` as it leaves. -/
def Hub.relay (h : Hub) (k : Nat) (east : Bool) (bs : List Byte) : Hub :=
  if h.forwards k east then h.modRing k fun (r : RingInt) => r.sendAt (r.outOf east) bs else h

/-- The cycle-start frame the master sends in the current cycle (R289). -/
def Hub.cycleMsg (h : Hub) (k : Nat) : CycleMsg :=
  let r := h.ring k
  let (ann, unwrap, nr, tg) : Bool × Bool × Nat × Nat :=
    match r.ann with | some a => (true, a.unwrap, a.rating, a.target) | none => (false, false, 0, 0)
  { ring := k, rating := h.rating k, wrapped := h.on (RING_STAT_WRAP k), ann := ann, unwrap := unwrap, claim := h.rg (RING_CLAIM k),
    master := h.set.serial, cycle := h.rg (RING_CYCLE k), tstart := r.tstart, delay := 0, nrating := nr, target := BitVec.ofNat 32 tg }

/-- CYCLE_START: the boundary due. A pending announcement is decided first; the first cycle has number 0; the frame is sent (R294). -/
def Hub.cycleStart (h : Hub) (k t : Nat) : Hub :=
  let r := h.ring k
  if !h.ringRuns k || h.rstate k != rsMaster || decide (t < r.next) then h
  else
    let h := h.annDecide k
    let rest := if h.pointsRestored k then (h.ring k).restored + 1 else 0
    let n : Word := if r.tstart = 0 then 0 else h.rg (RING_CYCLE k) + 1
    let h := h.setRg (RING_CYCLE k) n
    let h := if h.mayMaster then h.setRg (RING_CLAIM k) (h.rg PTNR_CLAIM) else h
    let cyc := h.cycleNs k
    let h := h.modRing k fun (x : RingInt) =>
      { x with tstart := r.next, next := r.next + cyc, sent := [], restored := rest, restN := [], masterId := h.set.serial,
               lastSeen := x.lastSeen.map fun (e : Nat × Nat) => (e.1, e.2 + 1) }
    h.modRing k fun (x : RingInt) => x.send (h.cycleMsg k).bytes

/-- A ring that begins anew: its links keep their delays and wraps. -/
def RingInt.anew (r : RingInt) (t : Nat) : RingInt :=
  { ringReset with listenT := t, delayE := r.delayE, delayW := r.delayW, wrapE := r.wrapE, wrapW := r.wrapW, outE := r.outE, outW := r.outW }

/-- Listening begins, for the starting rating (R301). -/
def Hub.ringListen (h : Hub) (k t : Nat) : Hub :=
  ((h.fset (RING_STAT_RATING k) (h.fget (RING_CTRL_RSTART k))).setRstate k rsListen).modRing k fun (r : RingInt) => r.anew t

/-- A ring that names this module as master starts as one, or follows while the module may not master (R301, R346, R353). -/
def Hub.ringStart (h : Hub) (k t : Nat) : Hub :=
  if h.fget (RING_CTRL_ROLE k) = 1 ∧ h.mayMaster then h.ringListen k t
  else ((h.fset (RING_STAT_RATING k) (h.fget (RING_CTRL_RSTART k))).setRstate k rsFollow).modRing k fun (r : RingInt) => r.anew t

/-- RING_ENABLE: writable only while the ring is disabled; enabled only with a valid starting rating (R315), and a defined role. -/
def Hub.ringEnable (h : Hub) (k : Nat) (v : Word) (t : Nat) : Hub :=
  if h.on (RING_CTRL_EN k) then h
  else
    let h := h.setRg (RING_CTRL k) (v &&& 0x176)
    let role := h.fget (RING_CTRL_ROLE k)
    if v.getLsbD 0 && h.ratingValid (h.fget (RING_CTRL_RSTART k)) && (role == 1 || role == 2) then
      (h.fset (RING_CTRL_EN k) 1).ringStart k t
    else h

/-- RING_LISTEN_TIMEOUT: three cycles without a master of a claim not below its own; the ring starts at the next multiple of 1 ms
(R301). -/
def Hub.listenTimeout (h : Hub) (k t : Nat) : Hub :=
  let r := h.ring k
  if h.ringRuns k && h.rstate k == rsListen && decide (r.listenT + 3 * h.ratingCycle (h.fget (RING_CTRL_RSTART k)) ≤ t) then
    let h := (h.setRstate k rsMaster).setRg (RING_CLAIM k) (h.rg PTNR_CLAIM)
    h.modRing k fun (x : RingInt) => { x with next := ceilMult 1000000 t, tstart := 0 }
  else h

/-- RING_CMD_RESTART of a ring stopped on an equal claim (R304). -/
def Hub.ringRestart (h : Hub) (k t : Nat) : Hub :=
  if h.on (RING_STAT_UNMANNED k) then (h.fset (RING_STAT_UNMANNED k) 0).ringStart k t else h

/-- The rings restart under R301 after XT has returned (R487). -/
def Hub.ringsRestart (h : Hub) (t : Nat) : Hub :=
  (upTo 6).foldl (fun (h : Hub) k =>
    if h.on (RING_CTRL_EN k) && h.rstate k != rsStop then (h.annAbandon k abnRingChanged).ringStart k t else h) h

/-- The module takes a ring over at the next boundary of the schedule it has tracked, with the number that boundary would have had; a ring
on which it has heard no master starts under R301 (R305, R353). -/
def Hub.ringTake (h : Hub) (k t : Nat) : Hub :=
  if h.on (RING_CTRL_EN k) && h.fget (RING_CTRL_ROLE k) == 1 && h.rstate k == rsFollow then
    let r := h.ring k
    let cyc := h.cycleNs k
    if r.heard.isSome && cyc != 0 then
      let n := (t - r.tstart + cyc - 1) / cyc
      let h := (h.setRstate k rsMaster).setRg (RING_CYCLE k) (h.rg (RING_CYCLE k) + BitVec.ofNat 32 n - 1)
      (h.setRg (RING_CLAIM k) (h.rg PTNR_CLAIM)).modRing k fun (x : RingInt) => { x with next := r.tstart + n * cyc, heard := none, annHeard := none }
    else h.ringListen k t
  else h

/-! ### Cycle-start frames received (R302, R303, R309) -/

/-- The difference between a cycle-start frame's arrival at `t` and the follower's prediction, in ns (R296). -/
def arrivalDev (predict cyc t : Nat) : Nat := let d := (t + cyc - predict) % cyc; min d (cyc - d)

/-- A follower that wrapped a port unwraps with the master: the target cycle of an unwrap has come and the ring is no longer wrapped
(R313). -/
def RingInt.unwraps (r : RingInt) (f : CycleMsg) : Bool :=
  match r.annHeard with | some a => a.unwrap && a.target == f.cycle.toNat && !f.ann && !f.wrapped | none => false

/-- The follower takes the frame of the master in charge: the highest claim of the last 8 cycles (R303). It sits out the cycle where the
frame came more than 400 ns from its prediction, and resynchronises on it (R296). -/
def Hub.follow (h : Hub) (k : Nat) (f : CycleMsg) (t : Nat) : Hub :=
  let r := h.ring k
  let old := h.cycleNs k
  let cyc := h.ratingCycle (f.rating % 8)
  let stale := decide (r.predict + 7 * old < t)
  let charge := match r.heard with | some x => decide (x.1.toNat ≤ f.claim.toNat) || stale | none => true
  if !charge then h
  else
    let h := ((h.setRg (RING_CYCLE k) f.cycle).setRg (RING_CLAIM k) f.claim).fset (RING_STAT_RATING k) f.rating
    let h := h.fset (RING_STAT_WRAP k) (b2n (f.wrapped || (!r.unwraps f && (r.wrapE || r.wrapW))))
    let ann := if f.ann then some { rating := f.nrating, target := f.target.toNat, unwrap := f.unwrap } else none
    h.modRing k fun (x : RingInt) =>
      { x with heard := some (f.claim, f.master), masterId := f.master, tstart := f.tstart, next := f.tstart + cyc, predict := t + cyc,
               annHeard := ann, satOut := r.heard.isNone || decide (400 < arrivalDev r.predict old t),
               wrapE := x.wrapE && !r.unwraps f, wrapW := x.wrapW && !r.unwraps f }

/-- A foreign frame at a master or at a ring that listens as one (R302): a lower claim is absorbed; a higher one makes it a follower,
which forwards the frame; an equal one stops it. -/
def Hub.rival (h : Hub) (k : Nat) (east : Bool) (f : CycleMsg) (out : List Byte) (t : Nat) : Hub :=
  let own := (h.ringClaim k).toNat
  let h1 := h.annAbandon k abnRingChanged
  if f.claim.toNat < own then h
  else if own < f.claim.toNat then
    let h := ((h1.setRstate k rsFollow).fset (RING_STAT_MASTER_LOST k) 1).modRing k fun (r : RingInt) => { r with heard := none }
    (h.relay k east out).follow k f t
  else
    ((h1.setRstate k rsStop).fset (RING_STAT_UNMANNED k) 1).recAt t blkRing 8 302
      [(8, h.set.serial.toNat), (8, f.master.toNat)]

/-- CYCLE_START_FRAME: a bad frame is counted, and forwarded as such; the own frame at the end of the primary direction closes the loop
(`LOOP`), and the secondary direction is sent on; a foreign one is compared or followed (R285, R291, R302). -/
def Hub.cycleFrame (h : Hub) (k : Nat) (east : Bool) (bs : List Byte) (t : Nat) : Hub :=
  if !h.ringRuns k then h
  else
    let r := h.ring k
    let st := h.rstate k
    let out := forwardCycle bs (r.pathDelay east)
    match (parseCycle bs).filter (fun f => f.ring == k) with
    | none =>
      let h := (h.relay k east out).fsat (RING_ERR_CRCERR k) 1
      h.modRing k fun (r : RingInt) => { r with satOut := true }
    | some f =>
      if f.master ≠ h.set.serial ∧ (st = rsMaster ∨ st = rsListen) then h.rival k east f out t
      else
        let h := h.relay k east out
        if f.master = h.set.serial then
          if st = rsMaster ∧ r.reads east then h.fset (RING_LOOP_LOOP k) (min 0xFFFFF f.delay.toNat) else h
        else if st = rsFollow ∧ r.reads east then h.follow k f t
        else h

/-! ### Slots (R299) -/

/-- DOWNLINK_SLOT: the frame with the latest telegram of the slot's connection, or with nothing (R290, R299). -/
def Hub.downlink (h : Hub) (k slot t : Nat) : Hub :=
  let r := h.ring k
  let x := h.ratingSlot (h.rating k) slot
  if h.ringRuns k && h.rstate k == rsMaster && r.tstart != 0 && decide (slot < h.ratingNslot (h.rating k)) && !x.up && decide (r.tstart + x.ns ≤ t) &&
      !r.sent.any (fun e => e.1 == slot) then
    let p := h.asmAt x.conn (r.tstart + x.ns)
    let p := if p.length ≤ x.len then p else []
    let m : SlotMsg := { up := false, ring := k, slot := slot, node := 0, cycle := h.rg (RING_CYCLE k), nstat := 0, ackr := 0, payload := p }
    h.modRing k fun (r : RingInt) => { r with sent := (slot, p) :: r.sent }.send m.bytes
  else h

/-- A list of nodes with `n` in or out. -/
def nodeIn (ns : List Nat) (n : Nat) (v : Bool) : List Nat := if v then insertL n ns else removeL n ns

/-- The acknowledgement of a frame counts up to two cycles before the target (R307). -/
def Hub.takeAck (h : Hub) (k : Nat) (m : SlotMsg) : Hub :=
  match (h.ring k).ann with
  | some a =>
    if m.nstat.getLsbD 0 && m.ackr.toNat == a.rating && decide (2 ≤ sdiff32 a.target m.cycle.toNat) then
      h.fset (nodeBit (RING_ACKLO k) (RING_ACKHI k) m.node) 1
    else h
  | none => h

/-- A valid uplink frame marks the node present, reports its status and acknowledgement, and its telegram goes into the mailboxes. -/
def Hub.uplinkTaken (h : Hub) (k : Nat) (m : SlotMsg) (conn t : Nat) : Hub :=
  let n := m.node
  let h := if h.present k n then h else h.setPresent k n true t
  let h := h.modRing k fun (r : RingInt) =>
    { r with lastSeen := (r.lastSeen.filter fun (e : Nat × Nat) => e.1 ≠ n) ++ [(n, 0)],
             losUp := nodeIn r.losUp n (m.nstat.getLsbD 2), losDn := nodeIn r.losDn n (m.nstat.getLsbD 3),
             wrapN := nodeIn r.wrapN n (m.nstat.getLsbD 4), restN := nodeIn r.restN n (m.nstat.getLsbD 5) }
  let h := if m.nstat.getLsbD 4 then h.fset (RING_STAT_WRAP k) 1 else h
  let h := (h.takeAck k m).reportBreaks k t
  if m.payload.isEmpty then h else h.received conn m.payload t

/-- A frame of `m`'s slot, `len` bytes long, lies within it (R291): `pos` after the cycle start, in bytes of 8 ns, with its delimiters. -/
def RingSlot.holds (x : RingSlot) (m : SlotMsg) (pos len : Nat) : Bool :=
  x.up && x.node == m.node && decide (m.payload.length ≤ x.len) && decide (x.start ≤ pos) && decide (pos + len + 2 ≤ x.start + x.len + 18)

/-- UPLINK_FRAME: forwarded unchanged where the ring forwards; where the master reads its primary direction, a bad frame is counted and a
valid one taken, and its own downlink frames end (R285, R291, R298, R299, R307, R312). -/
def Hub.uplink (h : Hub) (k : Nat) (east : Bool) (pos : Nat) (bs : List Byte) (t : Nat) : Hub :=
  if !h.ringRuns k then h
  else
    let h := h.relay k east bs
    if h.rstate k ≠ rsMaster ∨ (h.ring k).reads east = false then h
    else
      match (parseSlot bs).filter (fun m => m.ring == k) with
      | none => h.fsat (RING_ERR_CRCERR k) 1
      | some m =>
        let x := h.ratingSlot (h.rating k) m.slot
        if !m.up then h
        else if decide (m.slot < h.ratingNslot (h.rating k)) && x.holds m pos bs.length then h.uplinkTaken k m x.conn t
        else h.fsat (RING_ERR_CRCERR k) 1

/-- NODE_ABSENT: no valid uplink frame for three whole cycles (R298). -/
def Hub.nodeAbsent (h : Hub) (k n t : Nat) : Hub :=
  let gone := (h.ring k).lastSeen.any fun e => e.1 == n && decide (4 ≤ e.2)
  if h.rstate k == rsMaster && h.present k n && gone then
    (h.setPresent k n false t).modRing k fun (r : RingInt) =>
      { r with lastSeen := r.lastSeen.filter fun (e : Nat × Nat) => e.1 ≠ n, losUp := removeL n r.losUp, losDn := removeL n r.losDn,
               wrapN := removeL n r.wrapN, restN := removeL n r.restN }
  else h

/-- DELAY_MEASUREMENT: half of the round trip less 64 ns (R287). -/
def Hub.delayMeasure (h : Hub) (k : Nat) (east : Bool) (rt : Nat) : Hub :=
  h.modRing k fun (r : RingInt) => if east then { r with delayE := (rt - 64) / 2 } else { r with delayW := (rt - 64) / 2 }

/-! ### Meanings -/

/-- CYCLE_START (R294). -/
def execCycleStart (k t : Nat) (s : State) : Host.Outcome State Fault Refusal := done ((s.at t).upHub (·.cycleStart k t))
/-- CYCLE_START_FRAME (R302). -/
def execCycleStartFrame (k : Nat) (east : Bool) (frame : List Byte) (t : Nat) (s : State) : Host.Outcome State Fault Refusal :=
  done ((s.at t).upHub (·.cycleFrame k east frame t))
/-- DOWNLINK_SLOT (R299). -/
def execDownlinkSlot (k slot t : Nat) (s : State) : Host.Outcome State Fault Refusal := done ((s.at t).upHub (·.downlink k slot t))
/-- UPLINK_FRAME (R299). -/
def execUplinkFrame (k : Nat) (east : Bool) (pos : Nat) (frame : List Byte) (t : Nat) (s : State) : Host.Outcome State Fault Refusal :=
  done ((s.at t).carry (·.uplink k east pos frame t))
/-- DELAY_MEASUREMENT (R287). -/
def execDelayMeasurement (k : Nat) (east : Bool) (roundTrip : Nat) (s : State) : Host.Outcome State Fault Refusal :=
  done (s.upHub (·.delayMeasure k east roundTrip))
/-- NODE_ABSENT (R298). -/
def execNodeAbsent (k node : Nat) (s : State) : Host.Outcome State Fault Refusal := done (s.upHub (·.nodeAbsent k node s.now))
/-- RING_LISTEN_TIMEOUT (R301). -/
def execRingListenTimeout (k t : Nat) (s : State) : Host.Outcome State Fault Refusal := done ((s.at t).upHub (·.listenTimeout k t))
/-- RING_ENABLE (R315). -/
def execRingEnable (k : Nat) (v : Word) (t : Nat) (s : State) : Host.Outcome State Fault Refusal :=
  done ((s.at t).upHub (·.ringEnable k v t))
/-- RATING_CHECK (R293). -/
def execRatingCheck (s : State) : Host.Outcome State Fault Refusal := done (s.upHub (·.ratingCheck))
/-- RATING_CHECK_DONE (R293). -/
def execRatingCheckDone (s : State) : Host.Outcome State Fault Refusal := done (s.upHub (·.ratingCheckDone))
/-- RING_CMD_ANNOUNCE (R306). -/
def execRingCmdAnnounce (k rating : Nat) (s : State) : Host.Outcome State Fault Refusal := done (s.upHub (·.ringAnnounce k rating))
/-- RING_CMD_CANCEL (R309). -/
def execRingCmdCancel (k : Nat) (s : State) : Host.Outcome State Fault Refusal := done (s.upHub (·.annAbandon k abnCancelled))
/-- RING_CMD_RESTART (R304). -/
def execRingCmdRestart (k t : Nat) (s : State) : Host.Outcome State Fault Refusal := done ((s.at t).upHub (·.ringRestart k t))
/-- ANNOUNCE_TARGET (R307): at the boundary that begins the target cycle. -/
def execAnnounceTarget (k : Nat) (s : State) : Host.Outcome State Fault Refusal :=
  done (s.upHub fun h => if (h.ring k).next ≤ s.now then h.annDecide k else h)
/-- LOSS_OF_SIGNAL (R310). -/
def execLossOfSignal (k : Nat) (east : Bool) (s : State) : Host.Outcome State Fault Refusal := done (s.upHub (·.lossOfSignal k east))
/-- REMOTE_FAULT (R310): the port's own receiver counts as lost. -/
def execRemoteFault (k : Nat) (east : Bool) (s : State) : Host.Outcome State Fault Refusal := done (s.upHub fun h => h.lossOfSignal k east)
/-- RING_WRAP (R311). -/
def execRingWrap (k : Nat) (east : Bool) (s : State) : Host.Outcome State Fault Refusal := done (s.upHub (·.ringWrap k east s.now))
/-- UNWRAP_ANNOUNCE (R313). -/
def execUnwrapAnnounce (k : Nat) (s : State) : Host.Outcome State Fault Refusal := done (s.upHub (·.unwrapAnnounce k))
/-- RING_ERR_CLEAR (R6). -/
def execRingErrClear (k : Nat) (_v : Word) (s : State) : Host.Outcome State Fault Refusal := done (s.upHub (·.setRg (RING_ERR k) 0))
/-- SIGNAL_RESTORED (R313). -/
def execSignalRestored (k : Nat) (east : Bool) (s : State) : Host.Outcome State Fault Refusal := done (s.upHub (·.signalRestored k east))

end Sys2Proof.Machine
end

