-- ==== Sys2Proof/Machine/Gate.lean ====
section
/-! DEFINITION. Gated writes: carried out when the hold-up store allows, waiting and retried otherwise (R478 to R480). -/

namespace Sys2Proof.Machine

/-- A claim goes into the claim record (R361); none does after a power-fail (R480). -/
def State.writeClaimRec (s : State) (c : Word) : State :=
  if s.hub.on NVW_STAT_PF then s
  else
  { s with flash1 := writeClaim s.flash1 c s.hub.set.serial, hub := { s.hub with upd := { s.hub.upd with claim := c } } }

/-- Carry out a gated write, and end the command it serves (R456, R459, R465, R468, R470). A slot written loses its verification; a
commit loads the gateway's map (R412). -/
def State.performWrite (s : State) (g : GatedWrite) : State :=
  let fin (s : State) (st : Nat) : State := match g.cmd with | some r => s.endWith r st 0 | none => s
  match g.kind with
  | .block =>
    let s := { s with flash0 := flashPutBytes (flashErase s.flash0 g.addr 0x10000) g.addr g.bytes }
    let k := g.addr / 0x2000000
    let i := g.addr % 0x2000000 / 0x10000
    let s := s.modHub fun h => { h with upd := { h.upd with verified := h.upd.verified.filter fun x => x != k } }
    fin s (if blockValid (s.block k i) i (s.slotBuild k) then stOk else stRefused)
  | .pointer => fin (s.writePointer (pointerOf (zeros 4 ++ g.bytes))) stOk
  | .settings => fin ((s.commitArea g.addr s.hub.upd.setFmt g.bytes).modHub (·.sgwLoadSection g.bytes)) stOk
  | .prepare => s.jAppend jPrepare g.bytes
  | .claim => s.writeClaimRec (BitVec.ofNat 32 (beAt g.bytes 0 4))

/-- A gated write starts, or waits and counts as deferred (R478, R479); none starts after a power-fail (R480). -/
def State.gated (s : State) (g : GatedWrite) : State :=
  if s.hub.on NVW_STAT_PF then s
  else if s.hub.gateOpen g.pages then s.performWrite g
  else s.modHub fun h => { h.fsat NVW_STAT_DEFCNT 1 with upd := { h.upd with gated := h.upd.gated ++ [g] } }

/-- The PREPARE record that waits is tried again at a stroke catch (R479). -/
def State.retryPrepare (s : State) : State :=
  match s.hub.upd.gated.find? fun g => g.kind == .prepare with
  | some g =>
    if s.hub.up && !s.hub.on NVW_STAT_PF && s.hub.gateOpen g.pages then
      (s.modHub fun h => { h with upd := { h.upd with gated := h.upd.gated.filter fun g => g.kind != .prepare } }).performWrite g
    else s
  | none => s

/-- GATED_WRITE_RETRY: each waiting write but a PREPARE record is tried again; a host command past its budget ends NVW_DEFERRED (R479). -/
def State.gatedRetry (s : State) (t : Nat) : State :=
  if s.hub.on NVW_STAT_PF || !s.hub.up then s
  else
    let ws := s.hub.upd.gated
    let s := s.modHub fun h => { h.showEnergy with upd := { h.upd with gated := [] } }
    let late (s : State) (g : GatedWrite) : Bool :=
      match g.cmd with
      | some r => (match s.hub.cmdAt r.q r.slot with | some c => decide (g.t0 + s.hub.budgetOf c ≤ t) | none => true)
      | none => false
    ws.foldl (fun (s : State) g =>
      if g.kind != .prepare && s.hub.gateOpen g.pages then s.performWrite g
      else if late s g then (match g.cmd with | some r => s.endWith r stDeferred 0 | none => s)
      else s.modHub fun h => { h with upd := { h.upd with gated := h.upd.gated ++ [g] } }) s

end Sys2Proof.Machine
end

