-- ==== Sys2Proof/Machine/Field.lean ====
section
/-! DEFINITION. The FIELD die and the lanes' field ports: frames, configuration agreement, inputs, test pulses, calibration, outputs,
encoders and the field image (R22 to R27, R172, R235 to R261, R466, R513, R541, R574). -/

namespace Sys2Proof.Machine

/-! ### Configuration (R239) -/

/-- The 51 configuration words of a lane in the order of R239. -/
def Lane.fieldCfg (l : Lane) : List Word :=
  [l.rg FLDP_ENCCFG0, l.rg FLDP_ENCCFG1, l.rg FLDP_TPCFG] ++ (upTo 32).map (fun k => l.rg (FLDP_INCFG k)) ++
    (upTo 16).map (fun k => l.rg (FLDP_QCFG k))

/-- `CFGTAG` of a configuration: CRC-16 over its words, most significant byte first (R239). -/
def cfgTag (ws : List Word) : Nat := crc16 (ws.flatMap fun w => beBytes 4 w.toNat)

/-- A field of configuration word `i`. -/
def cfgFld (ws : List Word) (i lo w : Nat) : Nat := bvField (ws.getD i 0#32) lo w

/-- `FLDP_INCFGk` field of an applied configuration. -/
def FieldDie.inCfg (f : FieldDie) (k lo w : Nat) : Nat := cfgFld f.cfg (3 + k) lo w
/-- `FLDP_QCFGk` field of an applied configuration. -/
def FieldDie.qCfg (f : FieldDie) (k lo w : Nat) : Nat := cfgFld f.cfg (35 + k) lo w
/-- `FLDP_TPCFG` field of an applied configuration. -/
def FieldDie.tpCfg (f : FieldDie) (lo w : Nat) : Nat := cfgFld f.cfg 2 lo w
/-- Channel `k` is the low side of a two-pole pair (R251). -/
def FieldDie.isLow (f : FieldDie) (k : Nat) : Bool := k % 2 == 1 && f.qCfg (k - 1) 1 1 == 1
/-- The channel whose dynamics drive channel `k` (R251). -/
def FieldDie.owner (f : FieldDie) (k : Nat) : Nat := if f.isLow k then k - 1 else k
/-- The pair rule of R251: the odd word equals the even word except for `TWOP`. -/
def pairsOk (ws : List Word) : Bool :=
  (upTo 8).all fun j =>
    let e := ws.getD (35 + 2 * j) 0#32
    let o := ws.getD (36 + 2 * j) 0#32
    bvField e 1 1 == 0 || (e &&& ~~~2#32) == (o &&& ~~~2#32)

/-! ### The die -/

/-- The die runs: supplied above its brown-out level and out of reset (R27, R574). -/
def State.fieldUp (s : State) : Bool := s.field.powered && !s.fieldRst.held

/-- Change the die when it runs; otherwise nothing. -/
def State.upField (s : State) (f : FieldDie → FieldDie) : State := if s.fieldUp then s.modField f else s

/-- Outputs and test-pulse outputs may conduct (R27, R513, R541). -/
def FieldDie.alive (f : FieldDie) : Bool := !f.uv && !f.ot && !f.sleep

/-- The die would run the pumps of a lane's signal on channel `k`: supplied, period 95 to 105 µs, duty 40 to 60 % (R25, R26, R172). -/
def State.runs (s : State) (k : Nat) (l : LaneId) : Bool :=
  let x := s.lane l
  let w := x.wave
  x.fld.dyn.getLsbD k && x.up && !s.split && decide (95000 ≤ w.period) && decide (w.period ≤ 105000) && decide (40 * w.period ≤ 100 * w.high) &&
    decide (100 * w.high ≤ 60 * w.period)

/-- Rising edge of a lane's signal after a multiple of 100 µs of the timebase, in ns: its phase on the lane's follower. -/
def Lane.edgeAt (l : Lane) : Nat := (((l.wave.phase : Int) - l.fol.off) % 100000).toNat

/-- Two rising edges come less than 20 µs apart (R172). -/
def edgesMeet (a b : Nat) : Bool := decide ((a + 100000 - b) % 100000 < 20000) || decide ((b + 100000 - a) % 100000 < 20000)

/-- Whether lane `l` drives channel `k`: its signal runs, and no other running signal's edge comes within 20 µs of its own, which would stop the pumps
of both (R25, R172). -/
def State.drives (s : State) (k : Nat) (l : LaneId) : Bool :=
  s.runs k l && !(allLanes.any fun y => y != l && s.runs k y && edgesMeet (s.lane l).edgeAt (s.lane y).edgeAt)

/-- At least two lanes drive channel `k` ON (R24). -/
def State.driven (s : State) (k : Nat) : Bool := decide (2 ≤ (allLanes.filter (s.drives (s.field.owner k))).length)

/-- Whether the switch of output `k` conducts (R24, R27, R251 to R253): driven, the die alive, not off for its test, by overload, or, on a high side, by
a shorted low side. -/
def State.conducts (s : State) (k : Nat) : Bool :=
  let f := s.field
  decide (k < 16) && s.fieldUp && f.alive && s.driven k && !f.ovOff.getLsbD k && (f.isLow k || !f.lsHold.getLsbD k) &&
    !(f.offTest.any fun e => if e.2.1 then e.1 + 1 == k else e.1 == k)

/-- Whether test-pulse output `k` supplies 24 V (R27, R243). -/
def State.testOut (s : State) (k : Nat) : Bool :=
  decide (k < 8) && s.fieldUp && s.field.alive && getField (s.field.tpCfg 16 8) k 1 == 1 && !s.field.gap.getLsbD k

/-- The default configuration after a FIELD die reset (R239, R489): a whole new image in the spare bank is run from now on, the other bank being
spare then (R466, Assumption 113). -/
def FieldDie.resetTo (f : FieldDie) : FieldDie :=
  { fieldReset with powered := f.powered, uv := f.uv, ot := f.ot, imgSpare := if f.imgNew then f.imgRun else f.imgSpare,
                    imgRun := if f.imgNew then f.imgSpare else f.imgRun }

/-- Encoder status bits 1 to 4, held for 2 frames after their cause (R258). -/
def holdNext (cause : Bool) (h : Nat) : Nat := if cause then 2 else h - 1

/-- `MODE` of an encoder: A/B/Z when set (R257). -/
def abz (cfg : Word) : Bool := bitOf cfg 1
/-- The amplitude byte: 128 times (sin² + cos²) / nominal, at most 255; 0 in A/B/Z mode (R258). -/
def encAmpByte (m : EncMeas) (cfg : Word) : Byte := if abz cfg then 0 else BitVec.ofNat 8 (min 255 (m.ratio * 128 / 1000))
/-- Amplitude outside 0.7 to 1.3, in sin/cos mode (R257). -/
def encAmpBad (m : EncMeas) (cfg : Word) : Bool := !abz cfg && (decide (m.ratio < 700) || decide (1300 < m.ratio))
/-- Both signals of the pair change between two states. -/
def badSteps : List Nat → Bool
  | a :: b :: rest => (a % 4) ^^^ (b % 4) == 3 || badSteps (b :: rest)
  | _ => false
/-- A count that is not consistent with the quadrant of the samples, of 256 counts per period; in A/B/Z mode an illegal quadrature transition (R257). -/
def encQerr (m : EncMeas) (cfg : Word) (ab : Nat) : Bool := if abz cfg then badSteps (ab :: m.states) else m.pos.toNat / 64 % 4 != m.quad % 4
/-- A differential pair below 0.2 V for more than 2 µs, in A/B/Z mode (R257, R258). -/
def encWire (m : EncMeas) (cfg : Word) : Bool := abz cfg && decide (2000 < m.lowNs)
/-- Signal frequency above 200 kHz, or count rate above 500 kHz (R257). -/
def encOvr (m : EncMeas) (cfg : Word) : Bool := decide ((if abz cfg then 500000 else 200000) < m.rate)

/-- A front end after a sample under its configuration word (R257, R258). -/
def EncInt.sample (e : EncInt) (cfg : Word) (m : EncMeas) : EncInt :=
  let en := bitOf cfg 0
  { pos := m.pos, amp := encAmpByte m cfg, hAmp := holdNext (encAmpBad m cfg) e.hAmp, hQerr := holdNext (encQerr m cfg e.ab) e.hQerr,
    hWire := holdNext (encWire m cfg) e.hWire, hOvr := holdNext (encOvr m cfg) e.hOvr, ab := m.states.getLast?.getD e.ab, zref := en && (e.zref || (m.index && bitOf cfg 2)), dir := m.dirNeg,
    since := if en then satInc 2 e.since else 0 }

/-- The status byte of the sample taken now: front end before the sample, measurement, configuration (R258). -/
def encStatus (e : EncInt) (cfg : Word) (m : EncMeas) : Nat :=
  let amp := encAmpBad m cfg || decide (0 < e.hAmp)
  let q := encQerr m cfg e.ab || decide (0 < e.hQerr)
  let w := encWire m cfg || decide (0 < e.hWire)
  let o := encOvr m cfg || decide (0 < e.hOvr)
  let z := bitOf cfg 0 && (e.zref || (m.index && bitOf cfg 2))
  let ok := bitOf cfg 0 && decide (2 ≤ e.since) && !amp && !q && !w && !o
  b2n ok + 2 * b2n amp + 4 * b2n q + 8 * b2n w + 16 * b2n o + 32 * b2n z + 64 * b2n m.dirNeg

/-- The six bytes of an encoder sample (R258). -/
def encSampleBytes (e : EncInt) (cfg : Word) (m : EncMeas) : List Byte :=
  beBytes 4 m.pos.toNat ++ [BitVec.ofNat 8 (encStatus e cfg m), encAmpByte m cfg]

/-- Fault detail of an output (R253); where several stand, the one held longest by the table's rules. -/
def FieldDie.detail (f : FieldDie) (k : Nat) : Nat :=
  if f.lsHold.getLsbD k then 6
  else if f.gapMiss.getLsbD k then 4
  else if f.crossBy.any (fun e => e.1 == k) then 5
  else if f.ovOff.getLsbD k then 2
  else if f.shortV.getLsbD k then 3
  else if f.openL.getLsbD k then 1
  else 0

/-- Number with field `i` of width `w` at `w·i` (R236). -/
def packFields (w : Nat) (xs : List Nat) : Nat := (xs.zipIdx.map fun x => x.1 % 2 ^ w * 2 ^ (w * x.2)).sum

/-- `QDIAG` (R252, R253). -/
def FieldDie.qdiag (f : FieldDie) : Nat := packFields 4 ((upTo 16).map f.detail)

/-- Band of a sink current in µA (R241). -/
def bandOf (ua : Nat) : Nat := if ua < 100 then 0 else if 250 ≤ ua ∧ ua ≤ 1200 then 1 else if 1500 ≤ ua then 2 else 3

/-- The bands of the 32 inputs (R236, R241). -/
def measBand (m : FieldMeas) : Dword := BitVec.ofNat 64 (packFields 2 ((upTo 32).map fun k => bandOf (m.sink.getD k 0)))

/-- The bands reported: held through the gap of an input's source (R244). -/
def FieldDie.bands (f : FieldDie) (band : Dword) : Dword :=
  f.bandHold.foldl (fun b e => bvSet b (2 * e.1) 2 e.2.1) band

/-- `FSTAT` (R236). -/
def FieldDie.fstat (f : FieldDie) : Nat :=
  b2n f.uv + 2 * b2n f.ot + 4 * b2n f.cal.isSome + 8 * b2n f.calFail + 16 * b2n f.cfgDefault

/-- `INTEST` (R245). -/
def FieldDie.intest (f : FieldDie) : Nat := match f.cal with | some (k, _) => 2 ^ k | none => 0

/-- The frame sent on a lane's port (R236). -/
def fieldFrameBytes (f : FieldDie) (l : LaneId) (seq : Half) (m : FieldMeas) : List Byte :=
  let body := [0x5A#8, BitVec.ofNat 8 l.code] ++ beBytes 2 seq.toNat ++ beBytes 4 f.cmpA.toNat ++ beBytes 4 f.cmpB.toNat ++
    beBytes 8 (f.bands (measBand m)).toNat ++ beBytes 8 f.tpst.toNat ++ beBytes 4 f.intest ++ beBytes 4 m.qrb.toNat ++ beBytes 8 f.qdiag ++
    encSampleBytes f.enc0 (f.cfg.getD 0 0#32) m.enc0 ++ encSampleBytes f.enc1 (f.cfg.getD 1 0#32) m.enc1 ++ beBytes 2 m.vfs.toNat ++
    beBytes 2 (cfgTag f.cfg) ++ beBytes 2 f.fstat
  body ++ beBytes 2 (crc16 body)

/-- Channels whose readback is ON in `qrb`, and channels at least two lanes drive. -/
def State.drivenMask (s : State) : Half := BitVec.ofNat 16 (packFields 1 ((upTo 16).map fun k => b2n (s.driven k)))

/-- A sample instant (R235): OPEN_LOAD ends with the output OFF, SHORT_VF with the readback OFF or the channel driven (R253); then a frame on
each port. A band hold ends 50 µs after its gap (R244). -/
def State.fieldSample (s : State) (m : FieldMeas) (t : Nat) : State :=
  s.upField fun f =>
    let f := { f with bandHold := f.bandHold.filter fun e => e.2.2 == 0 || decide (t < e.2.2) }
    let drv := s.drivenMask
    let since (k : Nat) : Option (Nat × Nat) :=
      if f.ovOff.getLsbD k && !drv.getLsbD k then
        some (match f.ovSince.find? (fun (e : Nat × Nat) => e.1 == k) with | some e => e | none => (k, t))
      else none
    let sv := f.shortV &&& ~~~drv &&& BitVec.ofNat 16 m.qrb.toNat
    let f := { f with openL := f.openL &&& drv, shortV := sv, ovSince := (upTo 16).filterMap since }
    { f with frameA := fieldFrameBytes f .a f.seqA m, frameB := fieldFrameBytes f .b f.seqB m, frameC := fieldFrameBytes f .c f.seqC m,
             seqA := f.seqA + 1, seqB := f.seqB + 1, seqC := f.seqC + 1, band := measBand m, qrb := m.qrb, vfs := m.vfs,
             enc0 := f.enc0.sample (f.cfg.getD 0 0#32) m.enc0, enc1 := f.enc1.sample (f.cfg.getD 1 0#32) m.enc1 }

/-- A port's command frame reached the die (R513). -/
def FieldDie.heard (f : FieldDie) (t : Nat) : FieldDie := { f with lastCmd := max f.lastCmd t }

/-- Lanes out of reset set an RW1C bit of `FLDP_STAT` and raise line 5 (R261). -/
def Lane.fldFlag (l : Lane) (f : Fld) : Lane := (l.fset f 1).raise 5

/-- Change every lane that is out of reset. -/
def State.upAll (s : State) (f : Lane → Lane) : State := allLanes.foldl (fun s l => s.upLane l f) s

/-- A configuration frame of a port, as its lane sent it (R239, R251): applied once, when two ports delivered the same; a configuration that breaks
the pair rule is not applied, and the lanes set `CFG_ERR`. -/
def State.fieldConfigFrame (s : State) (port : LaneId) (ws : List Word) (t : Nat) : State :=
  if !s.fieldUp || ws.length != 51 || (s.lane port).fld.cfgOut != ws then s
  else
    let s := s.modField fun f => { f.heard t with cfgSeen := (port, ws) :: f.cfgSeen.filter fun e => e.1 != port }
    let agree := s.field.cfgSeen.any fun e => e.1 != port && e.2 == ws
    if !agree || !s.field.cfgDefault then s
    else if pairsOk ws then
      s.modField fun f => { f with cfg := ws, cfgDefault := false, periodT := t, tpst := 0, clean := [], gap := 0, gapT := [], bandHold := [], offTest := [],
                                   enc0 := { f.enc0 with since := 0, zref := false }, enc1 := { f.enc1 with since := 0, zref := false } }
    else s.upAll (·.fldFlag FLDP_STAT_CFG_ERR)

/-- A debounced comparator changes (R240); its debouncer ignores the gap of its source and 50 µs more (R244). -/
def FieldDie.debounced (f : FieldDie) (k : Nat) (cmpB on : Bool) (t : Nat) : FieldDie :=
  if 32 ≤ k ∨ (f.bandHold.any fun (e : Nat × Nat × Nat) => e.1 == k && (e.2.2 == 0 || decide (t < e.2.2))) = true then f
  else if cmpB then { f with cmpB := bvSet f.cmpB k 1 (b2n on) } else { f with cmpA := bvSet f.cmpA k 1 (b2n on) }

/-- Inputs checked against source `k` (R244). -/
def FieldDie.checkedBy (f : FieldDie) (k : Nat) : List Nat :=
  (upTo 32).filter fun i => f.inCfg i 15 1 == 1 && f.inCfg i 12 3 == k

/-- The gap of Tk begins k × `TPP` / 8 ms after the start of a period, counted from the instant the configuration was applied (R243, R244). The instants
of this row and of OUTPUT_OFF_TEST are read on the die's own clock (Assumption 106). -/
def FieldDie.gapBegin (f : FieldDie) (k t : Nat) : FieldDie :=
  let p := f.tpCfg 8 8 * 1000000
  if 8 ≤ k ∨ f.alive = false ∨ getField (f.tpCfg 16 8) k 1 = 0 ∨ t < f.periodT ∨ (t - f.periodT) % p ≠ k * p / 8 then f
  else
    { f with gap := bvSet f.gap k 1 1, gapT := (k, t) :: f.gapT.filter fun e => e.1 != k,
             bandHold := f.bandHold.filter (fun e => !(f.checkedBy k).contains e.1) ++
               (f.checkedBy k).map fun i => (i, bvField f.band (2 * i) 2, 0) }

/-- The gap of Tk ends, `TPW` × 100 µs after it began; the hold of its inputs goes on for 50 µs (R243, R244). -/
def FieldDie.gapFinish (f : FieldDie) (k t : Nat) : FieldDie :=
  if f.gapT.any (fun (e : Nat × Nat) => e.1 == k && t == e.2 + f.tpCfg 0 3 * 100000) then
    { f with gap := bvSet f.gap k 1 0, gapT := f.gapT.filter (fun e => e.1 != k),
             bandHold := f.bandHold.map fun e => if (f.checkedBy k).contains e.1 then (e.1, e.2.1, t + 50000) else e }
  else f

/-- The code of a period (R244). -/
def pulseCode (o : PulseObs) : Nat :=
  if o.sourceFault then 3 else if o.offWhole then 0 else if o.foreignGap then 2 else if o.gapMissing then 1 else 0

/-- A test-pulse period of input `k` ends (R244): a fault shows at once and holds until two periods in a row pass without fault. -/
def FieldDie.periodEnd (f : FieldDie) (k : Nat) (o : PulseObs) : FieldDie :=
  if 32 ≤ k ∨ f.inCfg k 15 1 = 0 then f
  else
    let c := pulseCode o
    let rest := f.clean.filter fun e => e.1 != k
    if c ≠ 0 then { f with tpst := bvSet f.tpst (2 * k) 2 c, clean := rest }
    else if bvField f.tpst (2 * k) 2 = 0 then f
    else
      let n := (match f.clean.find? (fun e => e.1 == k) with | some e => e.2 | none => 0) + 1
      if 2 ≤ n then { f with tpst := bvSet f.tpst (2 * k) 2 0, clean := rest } else { f with clean := (k, n) :: rest }

/-! ### Calibration (R245 to R248) -/

/-- Values of R260: unproven, OFF, ON. -/
def fUnproven : Nat := 0
/-- OFF. -/
def fOff : Nat := 1
/-- ON. -/
def fOn : Nat := 2

/-- A lane's own value of input `k`. -/
def Lane.inVal (l : Lane) (k : Nat) : Nat := l.fld.vals.getD k 0
/-- The agreed value of input `k` at the lane's latest catch. -/
def Lane.inAgreed (l : Lane) (k : Nat) : Nat := bvField l.fld.agreed.inp (2 * k) 2

/-- CAL_REQUEST: `FLDP_CAL` takes `CH`; with `START` the port sends a calibration request (R245). -/
def State.calRequest (s : State) (l : LaneId) (v : Word) (t : Nat) : State :=
  let x := s.lane l
  if x.rst.held then s
  else
    let ch := bvField v 0 5
    let s := s.setLane l ({ x with fld := { x.fld with calCh := ch } }.fset FLDP_CAL_CH ch)
    if bitOf v 8 then
      s.upField fun f => { f.heard t with calReqs := { port := l, ch := ch, t := t, v := x.inAgreed ch } :: f.calReqs.filter fun r => r.port != l || r.ch != ch }
    else s

/-- Whether the refusal rules of R246 hold for a request of `ch` at `t`, with the agreed values of the channel at the requesting catches. -/
def State.calRefused (s : State) (ch : Nat) (vs : List Nat) (t : Nat) : Bool :=
  let f := s.field
  let p := f.inCfg ch 16 5
  let lanes := allLanes.filter fun l => (s.lane l).up
  (match f.cal with | some (c, _) => c != ch | none => false) ||
    (if f.inCfg ch 21 1 = 1 then
       lanes.any fun l => (s.lane l).inVal p == fUnproven || decide (t < (s.lane l).fld.lastUnp.getD p 0 + 10000000)
     else vs.any fun v => v != fOff)

/-- Every lane out of reset holds input `ch` from the start of its calibration (R247). -/
def Lane.holdInput (l : Lane) (ch t : Nat) : Lane :=
  { l with fld := { l.fld with calHold := { ch := ch, v := l.inAgreed ch, t := t, seen := false } :: l.fld.calHold.filter fun h => h.ch != ch } }

/-- The value a catch at `tn` agrees on is the one held when the calibration began later (R247). -/
def Lane.agreeHolds (l : Lane) (tn : Nat) : Lane :=
  { l with fld := { l.fld with calHold := l.fld.calHold.map fun h => if tn ≤ h.t then { h with v := l.inAgreed h.ch } else h } }

/-- CALIBRATION_START: two ports requested the channel within 1 ms (R245); started, or refused with `CAL_REF` in the lanes (R246). A channel already
in calibration goes on with it. -/
def State.calStart (s : State) (ch t : Nat) : State :=
  let reqs := s.field.calReqs.filter fun r => r.ch == ch && decide (t ≤ r.t + 1000000) && decide (r.t ≤ t)
  if !s.fieldUp || decide (reqs.length < 2) || decide (32 ≤ ch) then s
  else
    let refused := s.calRefused ch (reqs.map (·.v)) t
    let s := s.modField fun f => { f with calReqs := f.calReqs.filter fun r => r.ch != ch }
    if refused then s.upAll (·.fldFlag FLDP_STAT_CAL_REF)
    else if s.field.cal.isSome then s
    else (s.modField fun f => { f with cal := some (ch, t) }).upAll (·.holdInput ch t)

/-- CALIBRATION_END: 5 ms later the marks clear; a failed trim sets `CAL_FAIL` and the lanes' `FLDP_CALFAIL`, a passed one clears them
(R245, R248). A hold that no frame has shown ends too. -/
def State.calEnd (s : State) (ok : Bool) (t : Nat) : State :=
  match s.field.cal with
  | some (ch, t0) =>
    if !s.fieldUp || decide (t < t0 + 5000000) then s
    else
      (s.modField fun f => { f with cal := none, calFail := !ok }).upAll fun l =>
        { l with fld := { l.fld with calHold := l.fld.calHold.filter fun h => h.seen } }.setRg FLDP_CALFAIL (bvSet (l.rg FLDP_CALFAIL) ch 1 (b2n !ok))
  | none => s

/-! ### Output tests and faults (R252, R253) -/

/-- OUTPUT_OFF_TEST: an ON output with `OTEN` opens for its test, k × `OTI` × 10 ms / 16 into an interval counted from the instant the configuration
was applied; in a two-pole pair the high side and the low side in turn, each in its own interval (R252; Assumption 106). -/
def State.offTestBegin (s : State) (k : Nat) (low : Bool) (t : Nat) : State :=
  let f := s.field
  let p := f.qCfg k 8 8 * 10000000
  let pair := f.qCfg k 1 1 == 1
  if s.driven k && f.alive && f.qCfg k 7 1 == 1 && decide (k < 16) && !f.isLow k && !f.ovOff.getLsbD k && decide (f.periodT ≤ t) &&
      (t - f.periodT) % p == k * p / 16 && low == (pair && (t - f.periodT) / p % 2 == 1) then
    s.upField fun f => { f with offTest := (k, low, t) :: f.offTest.filter fun e => e.1 != k }
  else s

/-- What the end of channel `k`'s test shows (R253): GAP_MISSING or its end, LS_SHORT of a pair, CROSS or its end. -/
def FieldDie.testResult (f : FieldDie) (k : Nat) (low rbOn : Bool) (dropped : List Nat) (lsOn : Bool) : FieldDie :=
  let f := if low then (if lsOn then { f with lsHold := bvSet (bvSet f.lsHold k 1 1) (k + 1) 1 1 } else f)
    else { f with gapMiss := bvSet f.gapMiss k 1 (b2n rbOn) }
  let others := dropped.filter fun x => x != k
  if others = [] then { f with crossBy := f.crossBy.filter fun e => e.2 != k }
  else { f with crossBy := (k :: others).foldl (fun m x => insertL (x, k) m) f.crossBy }

/-- OFF_TEST_END, `OTW` × 100 µs after the test began: a command to OFF during the test discards its result (R252, R253). -/
def State.offTestEnd (s : State) (k : Nat) (rbOn : Bool) (dropped : List Nat) (lsOn : Bool) (t : Nat) : State :=
  match s.field.offTest.find? (fun e => e.1 == k && t == e.2.2 + s.field.qCfg k 16 3 * 100000) with
  | none => s
  | some (_, low, _) =>
    let drv := s.driven k
    s.upField fun f =>
      let f := { f with offTest := f.offTest.filter fun e => e.1 != k }
      if drv && f.alive then f.testResult k low rbOn dropped lsOn else f

/-- OPEN_LOAD (R253). -/
def State.openLoad (s : State) (k : Nat) : State :=
  if k < 16 ∧ s.driven k = true ∧ s.field.alive = true ∧ s.field.qCfg k 6 1 = 1 ∧ s.field.ovOff.getLsbD k = false then
    s.upField fun f => { f with openL := bvSet f.openL k 1 1 }
  else s

/-- OVERLOAD: the die switches the output off (R253). -/
def State.overload (s : State) (k : Nat) : State :=
  if k < 16 ∧ s.driven k = true ∧ s.field.alive = true then
    s.upField fun f => { f with ovOff := bvSet f.ovOff k 1 1, ovSince := f.ovSince.filter fun e => e.1 != k }
  else s

/-- OVERLOAD_RELEASE: no two lanes have driven the channel for at least 1 ms (R253). -/
def State.overloadRelease (s : State) (k t : Nat) : State :=
  if k < 16 ∧ s.driven k = false ∧ s.field.ovSince.any (fun e => e.1 == k && decide (e.2 + 1000000 ≤ t)) = true then
    s.upField fun f => { f with ovOff := bvSet f.ovOff k 1 0, ovSince := f.ovSince.filter fun e => e.1 != k }
  else s

/-- SHORT_VF (R253). -/
def State.shortVf (s : State) (k : Nat) : State :=
  if k < 16 ∧ s.driven k = false ∧ s.field.crossBy.any (fun e => e.1 == k) = false then
    s.upField fun f => { f with shortV := bvSet f.shortV k 1 1 }
  else s

/-- FIELD_IMAGE_BLOCK: a block that two ports deliver alike goes into the spare bank (R466). -/
def FieldDie.imageBlock (f : FieldDie) (port : LaneId) (idx : Nat) (bytes : List Byte) : FieldDie :=
  let alike := f.imgSeen.any fun e => e.1 != port && e.2.1 == idx && e.2.2 == bytes
  let f := { f with imgSeen := (port, idx, bytes) :: f.imgSeen.filter fun e => e.1 != port || e.2.1 != idx }
  if alike then { f with imgNew := false, imgSpare := (idx, bytes) :: f.imgSpare.filter fun e => e.1 != idx } else f

/-- The update controller's FIELD step counts the blocks written (R466). -/
def State.imageBlock (s : State) (port : LaneId) (idx : Nat) (bytes : List Byte) : State :=
  let s := s.upField (·.imageBlock port idx bytes)
  if s.hub.fget UPD_STAT_STEP = 1 ∧ s.field.imgSpare.contains (idx, bytes) then
    s.modHub fun h => { h with upd := { h.upd with fieldDone := insertL idx h.upd.fieldDone } }
  else s

/-! ### The lane's field port -/

/-- Age of R51 and of `LINK`: 0.5 ms. -/
def halfMilli : Nat := 500000

/-- The lane value of input `k` by the rows of R242, on a frame with the comparators equal or not: none where they differ. -/
def inputRow (inCfg : Word) (cmpA cmpB : Bool) (band : Nat) : Option Nat :=
  if cmpA != cmpB then none
  else if bitOf inCfg 8 && band == 1 then some fOff
  else if bitOf inCfg 8 && (band == 0 || band == 3) then some fUnproven
  else if cmpA then some (if band = 2 then fOn else fUnproven)
  else some fOff

/-- What a valid frame makes of input `k`: value, run of disagreeing frames (R242, R247, R248). -/
def Lane.inputValue (l : Lane) (bytes : List Byte) (k : Nat) : Nat × Nat :=
  let prev := l.inVal k
  let run := l.fld.disag.getD k 0
  if getField (beAt bytes 28 4) k 1 = 1 then
    (match l.fld.calHold.find? (fun h => h.ch == k) with | some h => h.v | none => l.inAgreed k, 0)
  else if getField (beAt bytes 20 8) (2 * k) 2 ≠ 0 then (fUnproven, 0)
  else
    match inputRow (l.rg (FLDP_INCFG k)) (getField (beAt bytes 4 4) k 1 == 1) (getField (beAt bytes 8 4) k 1 == 1)
        (getField (beAt bytes 12 8) (2 * k) 2) with
    | some v => (v, 0)
    | none => if run < 2 then (prev, run + 1) else (fUnproven, run)

/-- `FLDP_WB` bits of a frame (R242): bands 0b00 and 0b11 on inputs with wire-break detection that reach that row. -/
def Lane.wireBreaks (l : Lane) (bytes : List Byte) : Nat :=
  packFields 1 ((upTo 32).map fun k =>
    let b := getField (beAt bytes 12 8) (2 * k) 2
    let eqc := getField (beAt bytes 4 4) k 1 == getField (beAt bytes 8 4) k 1
    b2n (bitOf (l.rg (FLDP_INCFG k)) 8 && eqc && (b == 0 || b == 3) && getField (beAt bytes 20 8) (2 * k) 2 == 0 &&
      getField (beAt bytes 28 4) k 1 == 0))

/-- Inputs in calibration as a frame shows them (R247): a hold ends with the first frame that no longer shows the input in test; one the lane has not
heard of begins. -/
def Lane.calHolds (l : Lane) (bytes : List Byte) (t : Nat) : List CalHold :=
  let on (k : Nat) : Bool := getField (beAt bytes 28 4) k 1 == 1
  let kept := (l.fld.calHold.filter fun h => on h.ch || !h.seen).map fun h => { h with seen := h.seen || on h.ch }
  kept ++ ((upTo 32).filter fun k => on k && !kept.any fun h => h.ch == k).map fun k => { ch := k, v := l.inAgreed k, t := t, seen := true }

/-- A valid frame is taken (R237, R239, R242). -/
def Lane.takeField (l : Lane) (bytes : List Byte) (t : Nat) : Lane :=
  let seq : Half := BitVec.ofNat 16 (beAt bytes 2 2)
  let missed := match l.fld.lastSeq with | some q => (seq - q - 1).toNat | none => 0
  let l := { l with fld := { l.fld with calHold := l.calHolds bytes t } }
  let rows := (upTo 32).map (l.inputValue bytes)
  let vals := rows.map Prod.fst
  let disag := rows.map Prod.snd
  let wb := l.wireBreaks bytes
  let unp := (upTo 32).map fun k => if vals.getD k 0 = fUnproven then t else l.fld.lastUnp.getD k 0
  let l := { l with fld := { l.fld with vals := vals, disag := disag, lastUnp := unp, lastSeq := some seq,
                                        lastValid := some t, frame := bytes },
                    start := { l.start with fieldOk := true } }
  let l := l.setRg FLDP_WB (l.rg FLDP_WB ||| BitVec.ofNat 32 wb)
  let l := l.fset FLDP_FRCNT_VALID (l.fget FLDP_FRCNT_VALID + 1)
  let l := if missed = 0 then l else (l.fsat FLDP_FRCNT_MISS missed).fldFlag FLDP_STAT_SEQ_ERR
  let st := beAt bytes 60 2
  let l := (l.fset FLDP_STAT_UV (getField st 0 1)).fset FLDP_STAT_CAL_BUSY (getField st 2 1)
  (l.fset FLDP_STAT_CFG_MISM (b2n (beAt bytes 58 2 != cfgTag l.fieldCfg))).fset FLDP_STAT_LINK 1

/-- FIELD_FRAME at the lane's port (R237, R238). -/
def Lane.fieldFrame (l : Lane) (bytes : List Byte) (t : Nat) : Lane :=
  if bytes.length ≠ 64 ∨ beAt bytes 0 1 ≠ 0x5A then l
  else
    let l := { l with fld := { l.fld with starts := l.fld.starts + 1 } }
    if beAt bytes 62 2 ≠ crc16 (bytes.take 62) then (l.fsat FLDP_FRCNT_CRCERR 1).fldFlag FLDP_STAT_CRC_ERR
    else if beAt bytes 1 1 ≠ l.id.code then l.fldFlag FLDP_STAT_PORT_ERR
    else l.takeField bytes t

/-- FIELD_RATE_WINDOW: at each multiple of 10 ms of follower time; a window that began before the lane's release is not judged (R238). -/
def Lane.fieldRate (l : Lane) (t : Nat) : Lane :=
  if t % 10000000 ≠ 0 then l
  else
    let n := l.fld.starts
    let x := { l with fld := { l.fld with starts := 0 } }
    if l.start.release + 10000000 ≤ t ∧ (n < 194 ∨ 206 < n) then x.fset FLDP_STAT_RATE_ERR 1 else x

/-- A valid frame no older than 0.5 ms at `t` (R51); its sample instant is 32 µs before its last bit. -/
def Lane.fieldFresh (l : Lane) (t : Nat) : Bool :=
  match l.fld.lastValid with | some v => decide (t + 32000 ≤ v + halfMilli) | none => false

/-- Class of a fault detail (R253); a reserved detail is taken as 0b11. -/
def classOf (d : Nat) : Nat := if d = 0 then 0 else if d = 1 then 1 else if d = 2 then 2 else 3

/-- A lane's readback and class of output `k` for its consensus frame (R254, R260): readback, class. -/
def Lane.outState (l : Lane) (fresh ok : Bool) (k : Nat) : Nat × Nat :=
  let b := l.fld.frame
  if !fresh || l.on FLDP_STAT_RATE_ERR then (fUnproven, 3)
  else
    let low := k % 2 == 1 && bitOf (l.rg (FLDP_QCFG (k - 1))) 1
    let rb := getField (beAt b 32 4) (if low then 16 + k / 2 else k) 1
    (if ok then (if rb = 1 then fOn else fOff) else fUnproven, classOf (getField (beAt b 36 8) (4 * k) 4))

/-- The field image of a lane at catch `t` (R51, R238, R239, R242, R248, R260). -/
def Lane.fieldImage (l : Lane) (t : Nat) : FieldImg :=
  let fresh := l.fieldFresh t
  let ok := fresh && !l.on FLDP_STAT_RATE_ERR && !l.on FLDP_STAT_CFG_MISM
  let b := l.fld.frame
  let outs := (upTo 16).map (l.outState fresh ok)
  let enc (o : Nat) : BitVec 48 := if ok then BitVec.ofNat 48 (beAt b o 6) else BitVec.ofNat 48 (beAt b o 6) &&& ~~~0x100#48
  { inp := BitVec.ofNat 64 (packFields 2 ((upTo 32).map fun k =>
      if ok && !bitOf (l.rg FLDP_CALFAIL) k then l.inVal k else fUnproven)),
    qst := BitVec.ofNat 64 (packFields 4 (outs.map fun x => x.1 + 4 * x.2)),
    intest := if fresh then BitVec.ofNat 32 (beAt b 28 4) else 0, enc0 := enc 44, enc1 := enc 50 }

/-- Inputs of an image that are unproven are remembered with the instant (R246). -/
def Lane.noteUnproven (l : Lane) (img : FieldImg) (t : Nat) : Lane :=
  let us := (upTo 32).map fun k => if bvField img.inp (2 * k) 2 = 0 then t else l.fld.lastUnp.getD k 0
  { l with fld := { l.fld with lastUnp := us } }

/-! ### Agreement (R59, R254, R259) -/

/-- The value of `vs` that at least two hold, by preference in the order given; else `d`. -/
def majority (cands vs : List Nat) (d : Nat) : Nat :=
  match cands.find? fun v => decide (2 ≤ (vs.filter fun x => x == v).length) with | some v => v | none => d

/-- Position of a sample. -/
def encPos (e : BitVec 48) : Nat := bvField e 16 32
/-- Status of a sample. -/
def encStat (e : BitVec 48) : Nat := bvField e 8 8
/-- `VALID` of a sample. -/
def encValid (e : BitVec 48) : Bool := getField (encStat e) 0 1 == 1

/-- `|a - b|` modulo 2^32. -/
def encDist (a b : Nat) : Nat := (sdiff32 a b).natAbs

/-- The median of three positions by signed difference: one that lies between the other two. -/
def encMedian (a b c : BitVec 48) : BitVec 48 :=
  let le (x y : BitVec 48) : Bool := decide (0 ≤ sdiff32 (encPos y) (encPos x))
  let between (m x y : BitVec 48) : Bool := (le x m && le m y) || (le y m && le m x)
  if between a b c then a else if between b a c then b else c

/-- The agreed encoder sample of candidates in lane order: position in bits 39:8, status in 7:0; 0 for unproven (R259). -/
def agreeEnc (tol : Nat) (es : List (BitVec 48)) : BitVec 40 :=
  let mk (p : Nat) (st : BitVec 48) : BitVec 40 := BitVec.ofNat 40 (p * 256 + 1 + getField (encStat st) 5 2 * 32)
  match es.filter encValid with
  | [a, b, c] =>
    let m := encMedian a b c
    let near := [a, b, c].filter fun x => decide (encDist (encPos x) (encPos m) ≤ tol)
    if 2 ≤ near.length then mk (encPos m) m else 0
  | [a, b] =>
    let d := sdiff32 (encPos b) (encPos a)
    if d.natAbs ≤ tol then mk (wrapInt 32 ((encPos a : Int) + d / 2)) a else 0
  | _ => 0

/-- The agreed field values of the in-vote lanes' images, in lane order (R59, R254, R259). -/
def agreeField (tol0 tol1 : Nat) (imgs : List FieldImg) : AgreedField :=
  { inp := BitVec.ofNat 64 (packFields 2 ((upTo 32).map fun k => majority [fOn, fOff] (imgs.map fun i => bvField i.inp (2 * k) 2) fUnproven)),
    qrb := BitVec.ofNat 32 (packFields 2 ((upTo 16).map fun k =>
      majority [fOn, fOff] (imgs.map fun i => bvField i.qst (4 * k) 2) fUnproven)),
    cls := BitVec.ofNat 32 (packFields 2 ((upTo 16).map fun k =>
      majority [0, 1, 2, 3] (imgs.map fun i => bvField i.qst (4 * k + 2) 2) 3)),
    intest := BitVec.ofNat 32 (packFields 1 ((upTo 32).map fun k => majority [1] (imgs.map fun i => bvField i.intest k 1) 0)),
    enc0 := agreeEnc tol0 (imgs.map (·.enc0)), enc1 := agreeEnc tol1 (imgs.map (·.enc1)) }

/-- Agreed class of output `k`. -/
def AgreedField.classAt (a : AgreedField) (k : Nat) : Nat := bvField a.cls (2 * k) 2
/-- Agreed readback of output `k`. -/
def AgreedField.readback (a : AgreedField) (k : Nat) : Nat := bvField a.qrb (2 * k) 2
/-- Agreed value of input `k`. -/
def AgreedField.input (a : AgreedField) (k : Nat) : Nat := bvField a.inp (2 * k) 2

/-! ### Outputs of a lane (R250, R251, R254, R255) -/

/-- Vote context owning channel `k`. -/
def Lane.qctx (l : Lane) (k : Nat) : Nat :=
  if k < 8 then bvField (l.rg FLDP_QCTX0) (4 * k) 3 else bvField (l.rg FLDP_QCTX1) (4 * (k - 8)) 3

/-- Channel `k` is the low side of a pair in this lane's configuration. -/
def Lane.qLow (l : Lane) (k : Nat) : Bool := k % 2 == 1 && bitOf (l.rg (FLDP_QCFG (k - 1))) 1
/-- Channel `k` is the high side of a pair. -/
def Lane.qPair (l : Lane) (k : Nat) : Bool := k % 2 == 0 && bitOf (l.rg (FLDP_QCFG k)) 1

/-- Channels commanded by context `c`. -/
def Lane.qOwned (l : Lane) (c : Nat) : List Nat := (upTo 16).filter fun k => l.qctx k == c && !l.qLow k

/-- Commit a context's field command block (R250): dynamics run while `QON` = 1 and `QLAT` = 0; with dynamics disabled, or in a module
without outputs (R26), they stay stopped. -/
def Lane.commitField (l : Lane) (split : Bool) (c qon qlat : Nat) : Lane :=
  (l.qOwned c).foldl (fun (l : Lane) k =>
    let on := getField qon k 1
    let lat := getField qlat k 1
    let l := l.fset FLDP_QLATCH_QLAT (setField (l.fget FLDP_QLATCH_QLAT) k 1 lat)
    { l with fld := { l.fld with qon := bvSet l.fld.qon k 1 on,
                                 dyn := bvSet l.fld.dyn k 1 (b2n (on == 1 && lat == 0 && l.on VOTE_STAT_DYN_EN && !split)) } }) l

/-- Channels whose class calls for the latch at a catch (R254). -/
def Lane.latchSet (l : Lane) (a : AgreedField) (k : Nat) : Bool :=
  decide (2 ≤ a.classAt k) || (l.qPair k && decide (2 ≤ a.classAt (k + 1)))

/-- The conditions of R255 on one channel. -/
def AgreedField.clearOk (a : AgreedField) (k : Nat) : Bool := decide (a.classAt k ≤ 1) && a.readback k == fOff

/-- `QLAT` bits of a context's channels for the next command block: set by class, cleared on request where R255 allows. -/
def Lane.nextQlat (l : Lane) (c : Nat) (a : AgreedField) : Half :=
  (l.qOwned c).foldl (fun (q : Half) k =>
    let was := q.getLsbD k
    let clr := l.fld.clrReq.getLsbD k && a.clearOk k && (!l.qPair k || a.clearOk (k + 1)) && !l.fld.qon.getLsbD k
    bvSet q k 1 (b2n (l.latchSet a k || (was && !clr)))) l.fld.qlatNext

/-- At a catch of context `c`: the latches follow the agreed classes, and the clear requests of its channels are spent (R254, R255). -/
def Lane.catchOutputs (l : Lane) (c : Nat) (a : AgreedField) : Lane :=
  let q := l.nextQlat c a
  let keep := (l.qOwned c).foldl (fun (r : Half) k => bvSet r k 1 0) l.fld.clrReq
  { l with fld := { l.fld with qlatNext := q, clrReq := keep } }

/-! ### FLDP configuration writes (R261) -/

/-- Lane address of an FLDP offset. -/
def fldpAddr (off : Nat) : Nat := 0x4000C000 + off

/-- A stated range of R261 is kept by a write of `v` at `off`; false outside the five register groups. -/
def fldpRangeOk (off : Nat) (v : Word) : Bool :=
  if off = 0x00C ∨ off = 0x010 ∨ off = 0x020 ∨ off = 0x024 then true
  else if off = 0x028 then decide (8 ≤ bvField v 8 8) && decide (1 ≤ bvField v 0 3) && decide (bvField v 0 3 ≤ 5)
  else if 0x100 ≤ off ∧ off < 0x180 then !(bitOf v 21 && bvField v 16 5 == (off - 0x100) / 4)
  else if 0x200 ≤ off ∧ off < 0x240 then
    decide (1 ≤ bvField v 16 3) && decide (bvField v 16 3 ≤ 5) && decide (1 ≤ bvField v 8 8) && decide (bvField v 8 8 ≤ 100) &&
      !(bitOf v 1 && (off - 0x200) / 4 % 2 == 1)
  else false

/-- The registers of R261. -/
def fldpCfgReg (off : Nat) : Bool :=
  decide (off % 4 = 0) && (off == 0x00C || off == 0x010 || off == 0x020 || off == 0x024 || off == 0x028 ||
    (decide (0x100 ≤ off) && decide (off < 0x180)) || (decide (0x200 ≤ off) && decide (off < 0x240)))

/-- FLDP_CFG_WRITE: only in sit ready before arming and within the stated ranges; otherwise ignored with `CFG_ERR` (R261). A lane that prepares to join a
running module stands as before arming (Assumption 70). -/
def Lane.fldpCfgWrite (l : Lane) (off : Nat) (v : Word) : Lane :=
  if fldpCfgReg off then
    (if (l.unarmed || l.joining) && fldpRangeOk off v then l.plainWrite (fldpAddr off) v else l.fldFlag FLDP_STAT_CFG_ERR)
  else l

/-- FIELD_CONFIG_SEND: after arming, every 10 ms, the lane's 51 words (R239). The frame reaches the die as FIELD_CONFIG_FRAME. -/
def Lane.configSend (l : Lane) (t : Nat) : Lane :=
  if l.armed && (l.fld.cfgOut.isEmpty || decide (l.fld.lastCfg + 10000000 ≤ t)) then
    { l with fld := { l.fld with lastCfg := t, cfgOut := l.fieldCfg } }
  else l

/-! ### Meanings -/

/-- FIELD_SAMPLE (R235). -/
def execFieldSample (m : FieldMeas) (t : Nat) (s : State) : Host.Outcome State Fault Refusal := done ((s.at t).fieldSample m t)
/-- FIELD_FRAME (R237). -/
def execFieldFrame (l : LaneId) (bytes : List Byte) (t : Nat) (s : State) : Host.Outcome State Fault Refusal :=
  done ((s.laneAt l t).upLane l (·.fieldFrame bytes t))
/-- FIELD_RATE_WINDOW (R238). -/
def execFieldRateWindow (l : LaneId) (t : Nat) (s : State) : Host.Outcome State Fault Refusal :=
  done ((s.laneAt l t).upLane l (·.fieldRate t))
/-- FIELD_CONFIG_SEND (R239). -/
def execFieldConfigSend (l : LaneId) (t : Nat) (s : State) : Host.Outcome State Fault Refusal :=
  done ((s.laneAt l t).upLane l (·.configSend t))
/-- FIELD_CONFIG_FRAME (R239). -/
def execFieldConfigFrame (port : LaneId) (ws : List Word) (t : Nat) (s : State) : Host.Outcome State Fault Refusal :=
  done ((s.at t).fieldConfigFrame port ws t)
/-- COMPARATOR_DEBOUNCE (R240). -/
def execComparatorDebounce (k : Nat) (cmpB on : Bool) (t : Nat) (s : State) : Host.Outcome State Fault Refusal :=
  done ((s.at t).upField (·.debounced k cmpB on t))
/-- TEST_PULSE_GAP (R243). -/
def execTestPulseGap (k t : Nat) (s : State) : Host.Outcome State Fault Refusal := done ((s.at t).upField (·.gapBegin k t))
/-- TEST_PULSE_GAP_END (R243). -/
def execTestPulseGapEnd (k t : Nat) (s : State) : Host.Outcome State Fault Refusal := done ((s.at t).upField (·.gapFinish k t))
/-- TEST_PULSE_PERIOD_END (R244). -/
def execTestPulsePeriodEnd (k : Nat) (o : PulseObs) (s : State) : Host.Outcome State Fault Refusal := done (s.upField (·.periodEnd k o))
/-- CAL_REQUEST (R245). -/
def execCalRequest (l : LaneId) (v : Word) (t : Nat) (s : State) : Host.Outcome State Fault Refusal := done ((s.at t).calRequest l v t)
/-- CALIBRATION_START (R245). -/
def execCalibrationStart (ch t : Nat) (s : State) : Host.Outcome State Fault Refusal := done ((s.at t).calStart ch t)
/-- CALIBRATION_END (R248). -/
def execCalibrationEnd (ok : Bool) (t : Nat) (s : State) : Host.Outcome State Fault Refusal := done ((s.at t).calEnd ok t)
/-- OUTPUT_OFF_TEST (R252). -/
def execOutputOffTest (k : Nat) (low : Bool) (t : Nat) (s : State) : Host.Outcome State Fault Refusal := done ((s.at t).offTestBegin k low t)
/-- OFF_TEST_END (R253). -/
def execOffTestEnd (k : Nat) (rbOn : Bool) (dropped : List Nat) (lsOn : Bool) (t : Nat) (s : State) : Host.Outcome State Fault Refusal :=
  done ((s.at t).offTestEnd k rbOn dropped lsOn t)
/-- OPEN_LOAD (R253). -/
def execOpenLoad (k : Nat) (s : State) : Host.Outcome State Fault Refusal := done (s.openLoad k)
/-- OVERLOAD (R253). -/
def execOverload (k : Nat) (s : State) : Host.Outcome State Fault Refusal := done (s.overload k)
/-- OVERLOAD_RELEASE (R253). -/
def execOverloadRelease (k t : Nat) (s : State) : Host.Outcome State Fault Refusal := done ((s.at t).overloadRelease k t)
/-- SHORT_VF (R253). -/
def execShortVf (k : Nat) (s : State) : Host.Outcome State Fault Refusal := done (s.shortVf k)
/-- FIELD_IMAGE_BLOCK (R466). -/
def execFieldImageBlock (port : LaneId) (idx : Nat) (bytes : List Byte) (s : State) : Host.Outcome State Fault Refusal :=
  done (s.imageBlock port idx bytes)
/-- FLDP_CFG_WRITE (R261). -/
def execFldpCfgWrite (l : LaneId) (off : Nat) (v : Word) (s : State) : Host.Outcome State Fault Refusal :=
  done (s.upLane l (·.fldpCfgWrite off v))
/-- FIELD_UNDERVOLTAGE (R574): every output and test-pulse output off. -/
def execFieldUndervoltage (s : State) : Host.Outcome State Fault Refusal := done (s.upField fun f => { f with uv := true, gap := 0, gapT := [], bandHold := [] })
/-- FIELD_UNDERVOLTAGE_END (R574). -/
def execFieldUndervoltageEnd (s : State) : Host.Outcome State Fault Refusal := done (s.upField fun f => { f with uv := false })
/-- FIELD_BROWN_OUT (R574): held in reset, no frames, every output off. -/
def execFieldBrownOut (s : State) : Host.Outcome State Fault Refusal :=
  done { s with field := { s.field.resetTo with powered := false, uv := true },
                fieldRst := { s.fieldRst with held := true, cold := true, trimOk := false, t := s.now } }
/-- FIELD_POWER_ON (R574): trim loaded, default configuration; `VFIELD` is still below 19.2 V, so `UV` stands until
FIELD_UNDERVOLTAGE_END. A die in TRIMFAIL stays in reset (R498). -/
def execFieldPowerOn (t : Nat) (s : State) : Host.Outcome State Fault Refusal :=
  let s := s.at t
  if s.field.powered then done s
  else
    done { s with field := { s.field.resetTo with powered := true, uv := true, periodT := t, lastCmd := t },
                  fieldRst := { s.fieldRst with held := s.fieldRst.trimFail, cold := true, trimOk := !s.fieldRst.trimFail, t := t, relT := t } }
/-- FIELD_OVERTEMP (R541). -/
def execFieldOvertemp (s : State) : Host.Outcome State Fault Refusal := done (s.upField fun f => { f with ot := true, gap := 0, gapT := [], bandHold := [] })
/-- FIELD_OVERTEMP_END (R541). -/
def execFieldOvertempEnd (s : State) : Host.Outcome State Fault Refusal := done (s.upField fun f => { f with ot := false })
/-- FIELD_SLEEP (R513): no port delivered a valid command frame for 30 ms. -/
def execFieldSleep (t : Nat) (s : State) : Host.Outcome State Fault Refusal :=
  let s := s.at t
  done (if s.field.lastCmd + 30000000 ≤ t then s.upField fun f => { f with sleep := true, gap := 0, gapT := [], bandHold := [] } else s)

end Sys2Proof.Machine
end

