-- ==== Sys2Proof/Machine/SafeLib.lean ====
section
/-! DEFINITION. The machine safety functions: the dual-channel blocks, RESET_EDGE, STARTUP_TEST and the motion functions, each stepped
once per catch of its task on agreed values (R262 to R278, R283). Times are in µs. -/

namespace Sys2Proof.Machine

/-- `DIAG` of an instance in its initial state: idle for RESET_EDGE, the start-up test pending, no speed for a motion block, else STOPPED
(R262, R266, R272). -/
def diagInit (c : BlkCfg) : Nat :=
  match c.kind with
  | .resetEdge => 0 | .startupTest => 0x03 | .sls => 0x20 | .slp => 0x20 | .sdi => 0x20
  | .guard => if c.startup then 0x03 else 0x01
  | .estop => 0x01
  | .ossd => 0x01

/-- An instance in its initial state (R262, R273): STOPPED, motion latched. -/
def blkReset (c : BlkCfg) : BlkRun :=
  { st := .stopped, disc := 0, discRun := false, lastT := none, unp1 := false, unp2 := false, faultUnp := false, autoOk := false,
    passed := false, openT := none, offT := none, offUnp := false, prev := 3, reset := false, ok := false, latch := true, hist := [],
    sref := none, speed := 0, diag := diagInit c, back := false }

/-- What a block reads at a catch: instant, channel values, marks in test, reset, encoder, `ACTIVE`, `DIRP`. -/
structure BlkIn where
  t : Nat
  v1 : Nat
  v2 : Nat
  tst : Bool
  rst : Bool
  enc : BitVec 40
  active : Bool
  dirp : Bool
  deriving DecidableEq, Repr

/-- A `SAFEIN` value: the reserved code counts as unproven (R260, R264). -/
def safeVal (v : Nat) : Nat := if v = 3 then fUnproven else v

/-- `S1` healthy (R267). -/
def BlkIn.h1 (i : BlkIn) : Bool := i.v1 == fOn
/-- `S2` healthy: OFF with `ANTIV` (R267); OSSD_PAIR has no `ANTIV`. -/
def BlkIn.h2 (i : BlkIn) (c : BlkCfg) : Bool := i.v2 == (if c.antiv ∧ c.kind ≠ .ossd then fOff else fOn)
/-- Demanding: neither healthy nor unproven. -/
def demanding (healthy : Bool) (v : Nat) : Bool := !healthy && v != fUnproven
/-- Both channels healthy. -/
def BlkIn.bothH (i : BlkIn) (c : BlkCfg) : Bool := i.h1 && i.h2 c
/-- Both channels demanding. -/
def BlkIn.bothD (i : BlkIn) (c : BlkCfg) : Bool := demanding i.h1 i.v1 && demanding (i.h2 c) i.v2
/-- Some channel unproven. -/
def BlkIn.someUnp (i : BlkIn) : Bool := i.v1 == fUnproven || i.v2 == fUnproven

/-- The open-close cycle of R274 against its limit; the time runs from the last catch with both channels demanding. -/
def BlkRun.openClose (r : BlkRun) (c : BlkCfg) (i : BlkIn) (limit : Nat) : BlkRun :=
  if r.passed then r
  else if i.tst || i.someUnp then { r with openT := none }
  else if i.bothD c then { r with openT := some i.t }
  else if i.bothH c then
    match r.openT with
    | some t0 => { r with passed := decide (i.t ≤ t0 + limit), openT := none }
    | none => r
  else r

/-- The discrepancy timer at a catch (R268, R271): it runs while the channels are neither both healthy nor both demanding, and holds while
either is in test. -/
def BlkRun.timer (r : BlkRun) (c : BlkCfg) (i : BlkIn) : BlkRun :=
  if i.bothH c || i.bothD c then { r with discRun := false, disc := 0, lastT := some i.t }
  else
    let u1 := i.v1 == fUnproven
    let u2 := i.v2 == fUnproven
    if r.discRun then
      { r with disc := if i.tst then r.disc else r.disc + (i.t - r.lastT.getD i.t), lastT := some i.t, unp1 := r.unp1 && u1, unp2 := r.unp2 && u2 }
    else { r with discRun := true, disc := 0, lastT := some i.t, unp1 := u1, unp2 := u2 }

/-- The timeout of R268 at this catch. -/
def BlkRun.timeout (r : BlkRun) (c : BlkCfg) (i : BlkIn) : Bool := r.discRun && !i.tst && decide (c.discT ≤ r.disc)

/-- `AUTO` applies to GUARD_2CH and OSSD_PAIR. -/
def BlkCfg.autoOn (c : BlkCfg) : Bool := c.auto && (c.kind == .guard || c.kind == .ossd)
/-- The start-up test applies to GUARD_2CH. -/
def BlkCfg.startupOn (c : BlkCfg) : Bool := c.startup && c.kind == .guard

/-- Entry into FAULT on a timeout (R266, R268, R269). -/
def BlkRun.toFault (r : BlkRun) : BlkRun := { r with st := .fault, faultUnp := r.unp1 || r.unp2, autoOk := false }

/-- The moves of R267 without the timeout; a reset counts only outside a test (R271). -/
def BlkRun.move (r : BlkRun) (c : BlkCfg) (i : BlkIn) : BlkRun :=
  match r.st with
  | .stopped => if i.bothH c && (!c.startupOn || r.passed) then { r with st := .armed } else r
  | .armed =>
    if !i.bothH c then { r with st := .stopped }
    else if (i.rst && !i.tst) || (c.autoOn && r.autoOk) then { r with st := .run, autoOk := true }
    else r
  | .run => if !i.bothH c then { r with st := .stopped } else r
  | .fault => if i.bothD c then { r with st := .stopped } else r

/-- `DIAG` of a dual-channel block (R266). -/
def BlkRun.dualDiag (r : BlkRun) (c : BlkCfg) (i : BlkIn) : Nat :=
  if r.st = .fault then (if r.faultUnp then 0x11 else 0x10)
  else if i.tst then 0x12
  else if c.startupOn ∧ r.passed = false then 0x03
  else match r.st with
    | .stopped => 0x01
    | .armed => 0x02
    | .run => 0x00
    | .fault => 0x10

/-- The return to RUN (R283): ARMED and RUN fall to STOPPED, the timer is cleared, `AUTO` waits for a reset. -/
def BlkRun.dualBack (r : BlkRun) : BlkRun :=
  { r with st := if r.st = .armed ∨ r.st = .run then .stopped else r.st, autoOk := false, discRun := false, disc := 0 }

/-- A dual-channel block at a catch of its task (R267 to R271, R283). -/
def BlkRun.dualStep (r : BlkRun) (c : BlkCfg) (i : BlkIn) : BlkRun :=
  let r := if r.back then r.dualBack else r
  let r := if c.startupOn then r.openClose c i (c.discT + c.tcyc) else r
  let r := r.timer c i
  let r := if r.timeout c i && r.st != .fault then r.toFault else if r.back then r else r.move c i
  { r with diag := r.dualDiag c i, back := false }

/-- RESET_EDGE at a catch (R272, R283). -/
def BlkRun.resetStep (r : BlkRun) (i : BlkIn) : BlkRun :=
  let r := if r.back then { r with prev := 3, offT := none, offUnp := false, back := false } else r
  let r := { r with reset := false }
  let v := i.v1
  if v = fOff then
    let r := if r.prev = fOn then { r with offT := some i.t, offUnp := false } else r
    let long := match r.offT with | some t0 => decide (t0 + 5000000 < i.t) | none => false
    { r with prev := v, diag := if long then 0x31 else r.diag }
  else if v = fOn then
    match r.offT with
    | none => { r with prev := v }
    | some t0 =>
      let bad := r.offUnp || r.prev != fOff
      let d := if bad then 0x32 else if i.t < t0 + 100000 then 0x30 else if t0 + 5000000 < i.t then 0x31 else 0
      { r with prev := v, offT := none, reset := d == 0, diag := d }
  else { r with prev := fUnproven, offUnp := r.offUnp || r.offT.isSome }

/-- STARTUP_TEST at a catch (R274, R283). -/
def BlkRun.startupStep (r : BlkRun) (c : BlkCfg) (i : BlkIn) : BlkRun :=
  let r := r.openClose c i c.tcyc
  { r with diag := if i.tst then 0x12 else if r.passed then 0 else 0x03, back := false }

/-- `VALID` of an agreed encoder sample. -/
def agreedValid (e : BitVec 40) : Bool := e.getLsbD 0
/-- `ZREF` of an agreed encoder sample. -/
def agreedZref (e : BitVec 40) : Bool := e.getLsbD 5
/-- Position of an agreed encoder sample. -/
def agreedPos (e : BitVec 40) : Nat := bvField e 8 32

/-- A DINT holds it, or the nearest end of the range. -/
def satDint (x : Int) : Int := if x < -(2 ^ 31) then -(2 ^ 31) else if 2 ^ 31 - 1 < x then 2 ^ 31 - 1 else x

/-- The speed of R275 from the samples of the valid run, newest first; none before two valid samples. -/
def speedOf (nwin : Nat) (hist : List (Nat × Nat)) : Option Int :=
  match hist with
  | [] => none
  | (t, p) :: rest =>
    let k := min nwin rest.length
    if rest = [] then none
    else match (hist.drop k).head? with
      | some (t0, p0) => some (satDint ((sdiff32 p p0 * 1000000).tdiv ((t : Int) - t0)))
      | none => none

/-- Travel in the forbidden direction from the reference (R277). -/
def forbidden (dirp : Bool) (sref pos : Nat) : Int := if dirp then sdiff32 sref pos else sdiff32 pos sref

/-- Whether a motion block's condition holds, with the code of the first row of R266 that applies when it does not. -/
def motionCond (c : BlkCfg) (i : BlkIn) (run : Nat) (speed : Option Int) (sref : Option Nat) : Bool × Nat :=
  let e := i.enc
  let slow : Nat := if run < 2 then 0x20 else 0  -- no speed is a demand of every motion block (R265, R278)
  match c.kind with
  | .sls => match speed with
    | none => (false, 0x20)
    | some v => (decide (v.natAbs ≤ c.vlim), if v.natAbs ≤ c.vlim then 0 else 0x21)
  | .slp =>
    let p := signedOf 32 (agreedPos e)
    let inside := decide (c.pmin ≤ p) && decide (p ≤ c.pmax)
    (slow == 0 && agreedValid e && agreedZref e && inside,
      if !agreedValid e then 0x20 else if slow ≠ 0 then slow else if !inside then 0x22 else if !agreedZref e then 0x23 else 0)
  | _ => match speed, sref with
    | some _, some q =>
      let ok := decide (forbidden i.dirp q (agreedPos e) ≤ (c.dtol : Int))
      (ok, if ok then 0 else 0x24)
    | _, _ => (false, 0x20)

/-- The reference of SDI at a catch (R277). -/
def sdiRef (i : BlkIn) (speed : Option Int) (sref : Option Nat) : Option Nat :=
  if !i.active then none
  else match sref, speed with
    | none, some _ => some (agreedPos i.enc)
    | none, none => none
    | some q, _ => if agreedValid i.enc && decide (forbidden i.dirp q (agreedPos i.enc) < 0) then some (agreedPos i.enc) else some q

/-- A motion block at a catch of its task (R275 to R278, R283). -/
def BlkRun.motionStep (r : BlkRun) (c : BlkCfg) (i : BlkIn) : BlkRun :=
  let hist := if r.back || !agreedValid i.enc then [] else ((i.t, agreedPos i.enc) :: r.hist).take 9
  let speed := speedOf c.nwin hist
  let sref := if c.kind = .sdi then sdiRef i speed r.sref else none
  let m := motionCond c i hist.length speed sref
  let latch := if r.back then true else if i.active then (if m.1 then r.latch && !i.rst else true) else r.latch
  { r with hist := hist, speed := speed.getD 0, sref := sref, latch := latch, ok := !i.active || !latch,
           diag := if !i.active then 0 else if m.2 ≠ 0 then m.2 else if latch then 0x02 else 0, back := false }

/-- One catch of an instance. -/
def BlkRun.catchStep (r : BlkRun) (c : BlkCfg) (i : BlkIn) : BlkRun :=
  match c.kind with
  | .estop => r.dualStep c i
  | .guard => r.dualStep c i
  | .ossd => r.dualStep c i
  | .resetEdge => r.resetStep i
  | .startupTest => r.startupStep c i
  | .sls => r.motionStep c i
  | .slp => r.motionStep c i
  | .sdi => r.motionStep c i

/-- `Q`, `OK`, `PASSED` or `RESET` of an instance: its enable output. -/
def BlkRun.enable (r : BlkRun) (c : BlkCfg) : Bool :=
  match c.kind with
  | .estop => r.st == .run
  | .guard => r.st == .run
  | .ossd => r.st == .run
  | .resetEdge => r.reset
  | .startupTest => r.passed
  | .sls => r.ok
  | .slp => r.ok
  | .sdi => r.ok

/-- `READY` of a dual-channel block (R267). -/
def BlkRun.ready (r : BlkRun) : Bool := r.st == .armed || r.st == .run

/-- `FAULT` of a dual-channel block (R267). -/
def BlkRun.faultOut (r : BlkRun) : Bool := r.st == .fault

/-! ### What programs are given at a catch (R213, R264) -/

/-- The `SAFEIN` byte of input `k`: the agreed value, `TST` in bit 2 (R264). -/
def AgreedField.safein (a : AgreedField) (k : Nat) : Byte := BitVec.ofNat 8 (safeVal (a.input k) + 4 * b2n (a.intest.getLsbD k))

/-- A `SAFEENC` structure: the position as a DINT, then the status byte (R264). -/
def safeenc (e : BitVec 40) : List Byte := leBytes 4 (agreedPos e) ++ [e.extractLsb' 0 8]

/-- Everything presented at a catch: 32 `SAFEIN` bytes, then the `SAFEENC` structures of encoders 0 and 1. -/
def AgreedField.present (a : AgreedField) : List Byte := (upTo 32).map a.safein ++ safeenc a.enc0 ++ safeenc a.enc1

/-- An encoder sample as a program reads it from its `SAFEENC` structure. -/
def encOf (b : List Byte) : BitVec 40 := BitVec.ofNat 40 (leAt b 0 4 * 256 + leAt b 4 1)

/-- The byte at offset `off` in a copy of variables. -/
def copyByte (vs : List (Nat × List Byte)) (off : Nat) : Option Byte :=
  (vs.find? fun v => decide (v.1 ≤ off) && decide (off < v.1 + v.2.length)).bind fun v => v.2[off - v.1]?

/-- A BOOL as a task reads it: from the copy it took at its catch, or of its own variables in the active instance data (R213). -/
def Lane.dataBool (l : Lane) (view : List (Nat × List Byte)) (off : Nat) : Bool :=
  ((copyByte view off).getD (memByte l.sram ((if l.prog.half1 then 0x08500000 else 0x08400000) + off))) != 0#8

/-- What instance `c` reads at a catch of task `k`, from the values presented there and the reset outputs (R264, R265, R273). -/
def Lane.blkIn (l : Lane) (c : BlkCfg) (resets : List Bool) (k : TaskRun) : BlkIn :=
  let one := c.kind == .resetEdge
  let b (n : Nat) : Byte := k.safe.getD n 0#8
  { t := k.tn / 1000, v1 := bvField (b c.s1) 0 2, v2 := bvField (b c.s2) 0 2,
    tst := (b c.s1).getLsbD 2 || (!one && (b c.s2).getLsbD 2),
    rst := !c.rst.isEmpty && c.rst.all (fun j => resets.getD j false), enc := encOf (k.safe.drop (32 + 5 * c.enc)),
    active := l.dataBool k.view c.active, dirp := l.dataBool k.view c.dirp }

/-- All instances of a task at its catch: RESET_EDGE first, so that the others take its output of this catch (R272, R273). -/
def Lane.runBlocks (l : Lane) (k : TaskRun) : Lane :=
  let step1 (b : BlkCfg × BlkRun) : BlkCfg × BlkRun :=
    if b.1.task = k.tnum ∧ b.1.kind = .resetEdge then (b.1, b.2.catchStep b.1 (l.blkIn b.1 [] k)) else b
  let bs := l.prog.blocks.map step1
  let resets := bs.map fun b => b.2.reset && b.1.kind == .resetEdge && b.1.task == k.tnum
  let step2 (b : BlkCfg × BlkRun) : BlkCfg × BlkRun :=
    if b.1.task = k.tnum ∧ b.1.kind ≠ .resetEdge then (b.1, b.2.catchStep b.1 (l.blkIn b.1 resets k)) else b
  { l with prog := { l.prog with blocks := bs.map step2 } }

/-- The program set returned to RUN (R283): the instances go on from the last finish in RUN of their task. -/
def ProgInt.blocksBack (p : ProgInt) : ProgInt :=
  { p with blocksLast := p.blocksLast.map fun b => (b.1, { b.2 with back := true }) }

/-- Instances of a task, or of several, as of its last finish in RUN (R216, R217). -/
def ProgInt.restoreBlocks (p : ProgInt) (f : Nat → Bool) : ProgInt :=
  { p with blocks := p.blocks.zipIdx.map fun e => if f e.1.1.task then p.blocksLast.getD e.2 e.1 else e.1 }

/-- The library instances of a task as of its finish in RUN. -/
def ProgInt.keepBlocks (p : ProgInt) (task : Nat) : ProgInt :=
  { p with blocksLast := p.blocks.zipIdx.map fun e => if e.1.1.task = task then e.1 else p.blocksLast.getD e.2 e.1 }

/-- Kinds with two channels and a discrepancy timer. -/
def BlkCfg.dual (c : BlkCfg) : Bool := c.kind == .estop || c.kind == .guard || c.kind == .ossd

/-- DISCREPANCY_TIMEOUT (R266, R268, R271): with the inputs of this catch the timer has reached `DISC_T`, the channels still differ and neither is
in test; the block enters FAULT from whichever state it is in. -/
def BlkRun.discTimeout (r : BlkRun) (c : BlkCfg) (i : BlkIn) : BlkRun :=
  let r' := r.timer c i
  if c.dual && r.st != .fault && r'.timeout c i then { r'.toFault with diag := r'.toFault.dualDiag c i } else r

/-- The catch `tn` of an instance's task, its cycle in RUN and not ended. -/
def Lane.blkCatch (l : Lane) (c : BlkCfg) (tn : Nat) : Option TaskRun :=
  (l.taskOf c.task).filter fun k => k.active && k.decided && k.tn == tn && k.mode == .run && !k.excepted && !k.broke && !l.easy

/-- DISCREPANCY_TIMEOUT (R268), at a catch `tn` of the task of instance `blk`, in a program set in RUN. -/
def Lane.discTimeout (l : Lane) (blk tn : Nat) : Lane :=
  let step (b : BlkCfg × BlkRun) : BlkCfg × BlkRun :=
    match l.blkCatch b.1 tn with
    | some k => (b.1, b.2.discTimeout b.1 (l.blkIn b.1 [] k))
    | none => b
  { l with prog := { l.prog with blocks := listMod l.prog.blocks blk step } }

/-- DISCREPANCY_TIMEOUT (R268). -/
def execDiscrepancyTimeout (l : LaneId) (blk tn : Nat) (s : State) : Host.Outcome State Fault Refusal :=
  done ((s.laneAt l tn).upLane l (·.discTimeout blk tn))

end Sys2Proof.Machine
end

