-- ==== Sys2Proof/Machine/Est.lean ====
section
/-! DEFINITION. Eweax Safe Transport in a lane: the receive checks, connection states, corruption and supervision, and the telegrams
formed at a finish (R173, R176, R321 to R339, R356). -/

namespace Sys2Proof.Machine

/-! ### Stores -/

/-- Descriptor of connection `k`. -/
def Lane.desc (l : Lane) (k : Nat) : ConnDesc := sparseGet (fun _ => ConnDesc.none) l.descs k
/-- State of connection `k`. -/
def Lane.conn (l : Lane) (k : Nat) : Conn := sparseGet (fun _ => Conn.init) l.conns k
/-- Store the state of connection `k`. -/
def Lane.setConn (l : Lane) (k : Nat) (c : Conn) : Lane := { l with conns := sparseSet (fun _ => Conn.init) l.conns k c }
/-- Change the state of connection `k`. -/
def Lane.modConn (l : Lane) (k : Nat) (f : Conn → Conn) : Lane := l.setConn k (f (l.conn k))
/-- Keys of connection `k`. -/
def Lane.key (l : Lane) (k : Nat) : KeyEntry := sparseGet (fun _ => KeyEntry.none) l.keys k
/-- The connection of an identity (R329, R336 step 2); identity 0 names none. -/
def Lane.connIdx (l : Lane) (id : Dword) : Option Nat := if id = 0 then none else (l.descs.find? fun e => e.2.connid == id).map (·.1)

/-- Connections with a descriptor, in index order. -/
def Lane.connsInUse (l : Lane) : List Nat := l.descs.map (·.1)

/-- OPEN and not about to close (R334). -/
def Conn.isOpen (c : Conn) : Bool := c.st == .opened && c.closeDue.isNone

/-- Milliseconds in ns. -/
def ms (n : Nat) : Nat := n * 1000000

/-! ### Check values -/

/-- The installed key of a slot. -/
def KeyEntry.keyAt (k : KeyEntry) (slot : Nat) : Option (BitVec 128) := if slot = 0 then k.key0 else if slot = 1 then k.key1 else Option.none

/-- Lane-code slots with what this lane expects in them (R176). -/
def Tlg.codes (t : Tlg) (k : KeyEntry) : List (Nat × Nat) :=
  [(t.codeA, t.laneCode k.rxA), (t.codeB, t.laneCode k.rxB), (t.codeC, t.laneCode k.rxC)]
/-- Slots that match. -/
def Tlg.matching (t : Tlg) (k : KeyEntry) : Nat := ((t.codes k).filter fun c => c.1 == c.2).length
/-- Non-zero slots that do not match. -/
def Tlg.mismatching (t : Tlg) (k : KeyEntry) : Nat := ((t.codes k).filter fun c => c.1 != c.2 && c.1 != 0).length
/-- Whether the tag is correct under its key slot (R323, R336 step 4). -/
def Tlg.tagOk (t : Tlg) (k : KeyEntry) : Bool :=
  match k.keyAt t.keyid, t.tag with
  | some key, some g => g == t.tagOf key
  | _, _ => false

/-! ### The checks of R336 -/

/-- Verdict of the receive checks. -/
inductive TlgVerdict where
  | ok | unattributed | corruption | commRefused | repeated | superseded | late | protocol
  deriving DecidableEq, Repr

/-- Age window of R337: -50 µs to `MAXAGE`. -/
def ageOk (now ts maxage : Nat) : Bool := decide (ts ≤ now + 50000) && decide (now ≤ ts + ms maxage)

/-- The round-trip rule of R331 steps 3 and 4. -/
def roundTripOk (now echoT ts maxage : Nat) : Bool :=
  decide (now ≤ echoT + ms maxage) && decide (echoT ≤ ts + 50000) && decide (ts ≤ now + 50000)

/-- A higher claim of another module replaces the sequence check and the rising timestamp (R356). -/
def newBaseline (d : ConnDesc) (c : Conn) (t : Tlg) : Bool := d.cls == clsPeer && decide (c.claim < t.claim)

/-- d of R337. -/
def seqDist (c : Conn) (t : Tlg) : Nat := (t.seq + 2 ^ 32 - c.rxSeq) % 2 ^ 32

/-- Step 7 of R336 (R57, R337, R356): none when it passes. -/
def checkSequence (d : ConnDesc) (c : Conn) (t : Tlg) : Option TlgVerdict :=
  if d.cls == clsPeer && decide (t.claim < c.claim) then some .superseded
  else if c.admitted.contains t.seq && !newBaseline d c t then some .repeated
  else if (t.type = tyData ∨ t.type = tyClose) ∧ c.isOpen = true ∧ newBaseline d c t = false then
    (if seqDist c t = 0 then some .repeated else if d.seqwin < seqDist c t then some .corruption else none)
  else none

/-- Step 8 of R336: age, or the round trip of a handshake answer that echoes what was sent. -/
def checkAge (d : ConnDesc) (c : Conn) (t : Tlg) (now : Nat) : Option TlgVerdict :=
  if t.type = tyResp then
    (if d.init ∧ c.st = .requested ∧ t.echo ∈ c.reqs ∧ roundTripOk now t.echo.2 t.tstamp d.maxage = false then some .late else none)
  else if t.type = tyAck then
    (if ¬ d.init ∧ c.st = .responded ∧ t.echo ∈ c.resps ∧ roundTripOk now t.echo.2 t.tstamp d.maxage = false then some .late else none)
  else if ageOk now t.tstamp d.maxage = false ∨ (newBaseline d c t = false ∧ t.tstamp ≤ c.rxT) then some .late
  else none

/-- Step 9 of R336 (R331, R332, R573): none when the type fits the state. -/
def checkState (d : ConnDesc) (c : Conn) (t : Tlg) : Option TlgVerdict :=
  let again := c.accepted == some (t.seq, t.echo.1, t.echo.2)
  if t.type = tyReq then (if d.init then some .protocol else none)
  else if t.type = tyResp then
    if !d.init then some .protocol
    else if c.isOpen then (if again then some .repeated else some .protocol)
    else if c.st = .requested ∧ t.echo ∈ c.reqs then none else some .protocol
  else if t.type = tyAck then
    if d.init then some .protocol
    else if c.isOpen then (if again then some .repeated else some .protocol)
    else if c.st = .responded ∧ t.echo ∈ c.resps then none else some .protocol
  else if !c.isOpen then some .protocol
  else if t.type = tyData ∧ d.cls = clsRequest ∧ t.payload.length ≠ 0 ∧ t.payload.length ≠ 16 then some .protocol
  else none

/-- Steps 2 to 9 of R336 on a telegram whose form passed step 1; the first failing check decides. -/
def Lane.checkSteps (l : Lane) (k : Nat) (t : Tlg) (now : Nat) : TlgVerdict :=
  let d := l.desc k
  let c := l.conn k
  let e := l.key k
  if t.dirr != d.init then .corruption
  else if t.scrc != t.safetyCrc e.safety then .corruption
  else if (d.auth && !t.auth) || (t.auth && !t.tagOk e) then .corruption
  else if t.matching e < 2 then .corruption
  else if t.comm && !d.commOk then .commRefused
  else match checkSequence d c t with
    | some v => v
    | none => match checkAge d c t now with
      | some v => v
      | none => match checkState d c t with
        | some v => v
        | none => .ok

/-- The check of a telegram's bytes (R336), with the connection it is counted on. -/
def Lane.checkTlg (l : Lane) (bs : List Byte) (now : Nat) : TlgVerdict × Option Nat :=
  let id : Dword := BitVec.ofNat 64 (beAt bs (bs.length - 16) 8)
  match (if 16 ≤ bs.length then l.connIdx id else none) with
  | none => (.unattributed, none)
  | some k =>
    match parseTlg bs with
    | none => (.corruption, some k)
    | some t => if t.formOk then (l.checkSteps k t now, some k) else (.corruption, some k)

/-- C of R338 rises, stopping at 255. -/
def Conn.corrupt (c : Conn) (n : Nat) : Conn := { c with corr := satAdd 255 c.corr n }

/-- What a discarded telegram counts (R332, R336, R337, R356). -/
def Conn.counted (c : Conn) (v : TlgVerdict) : Conn :=
  match v with
  | .ok => c
  | .unattributed => c
  | .corruption => c.corrupt 1
  | .commRefused => { c with refused := c.refused + 1 }
  | .repeated => c
  | .superseded => { c with superseded := c.superseded + 1 }
  | .late => { c with late := c.late + 1 }
  | .protocol => { c with proto := c.proto + 1 }

/-- Count a discarded telegram; a protocol event is recorded (R332). -/
def Lane.countTlg (l : Lane) (k : Nat) (v : TlgVerdict) : Lane :=
  let l' := l.modConn k (·.counted v)
  if v = .protocol then l'.note blkFirmware 4 332 [] else l'

/-! ### Closing (R334) -/

/-- Every input of a closing connection is missing. -/
def Conn.shut (c : Conn) (t : Nat) : Conn :=
  { c with st := .closed, payload := none, ackDue := false, closeDue := none, reqs := [], resps := [], accepted := none, respT := 0,
           closedT := t, holdDone := false }

/-- A close by this module: CLOSE goes out at the next finish, then CLOSED. -/
def Conn.closeWith (c : Conn) (reason t : Nat) : Conn :=
  if c.st = .closed then c else { c with payload := none, ackDue := false, closeDue := some reason, closedT := t }

/-! ### Accepting an admitted telegram (R331, R332, R335, R337) -/

/-- What a connection becomes by a telegram that passes every check. -/
def Conn.accept (d : ConnDesc) (c : Conn) (t : Tlg) (now : Nat) : Conn :=
  let lost := if (t.type = tyData ∨ t.type = tyClose) ∧ newBaseline d c t = false then seqDist c t - 1 else 0
  let c := { c with claim := max c.claim t.claim, lost := c.lost + lost }
  if t.type = tyReq then
    { c with st := .responded, echo := (t.seq, t.tstamp), resps := [], respT := 0, accepted := none, payload := none, closeDue := none,
             rxT := t.tstamp }
  else if t.type = tyResp then
    { c with st := .opened, rxSeq := t.seq, rxT := t.tstamp, echo := (t.seq, t.tstamp), ackDue := true, txSeq := (t.echo.1 + 1) % 2 ^ 32,
             accepted := some (t.seq, t.echo.1, t.echo.2), reqs := [] }
  else if t.type = tyAck then
    { c with st := .opened, rxSeq := t.seq, rxT := t.tstamp, txSeq := t.echo.1, accepted := some (t.seq, t.echo.1, t.echo.2), resps := [],
             respT := 0 }
  else if t.type = tyClose then { c with rxSeq := t.seq, rxT := t.tstamp }.shut now
  else { c with rxSeq := t.seq, rxT := t.tstamp, payload := some (t.payload, t.tstamp) }

/-- Sequences of admitted telegrams that a connection keeps: as many as its sequence window can name (R57, R327). -/
def admitKeep : Nat := 1024

/-- The sequence of an admitted telegram is recorded; a handshake that begins, or a new module's baseline, starts the record anew (R57). -/
def Conn.recordSeq (c : Conn) (t : Tlg) (anew : Bool) : Conn := { c with admitted := if anew then [t.seq] else (t.seq :: c.admitted).take admitKeep }

/-- An admitted telegram is processed: checked against the state it meets, then accepted with its mismatching slots counted (R176); its
sequence is recorded either way (R57). -/
def Lane.takeTlg (l : Lane) (k : Nat) (t : Tlg) (now : Nat) : Lane :=
  match l.checkSteps k t now with
  | .ok => l.modConn k fun c =>
    let anew := t.type == tyReq || t.type == tyResp || newBaseline (l.desc k) c t
    ((Conn.accept (l.desc k) c t now).corrupt (t.mismatching (l.key k))).recordSeq t anew
  | v => (l.countTlg k v).modConn k (·.recordSeq t false)

/-- Process the admitted telegrams of a catch in order; a close ends the processing of its connection (R335). -/
def Lane.takeAll (l : Lane) (now : Nat) : List Tlg → List Nat → Lane
  | [], _ => l
  | t :: ts, shut =>
    match l.connIdx t.connid with
    | none => l.takeAll now ts shut
    | some k =>
      if shut.contains k then l.takeAll now ts shut
      else
        let l' := l.takeTlg k t now
        let closed := (l.conn k).st != .closed && (l'.conn k).st == .closed
        l'.takeAll now ts (if closed then k :: shut else shut)

/-! ### Events at a catch of the connection's context -/

/-- `tn` is a catch of the context of connection `k` whose cycle has not finished; with `dec`, its admitted telegrams have been processed. -/
def Lane.catchOf (l : Lane) (k tn : Nat) (dec : Bool) : Option TaskRun :=
  l.tasks.find? fun r => r.active && r.tn == tn && l.ctxOf r.tnum == (l.desc k).ctx && (r.decided || !dec)

/-- At a catch, a CLOSED initiator whose hold-off is over starts its handshake (R330, R331). -/
def Conn.start (d : ConnDesc) (c : Conn) : Conn :=
  if d.init ∧ c.st = .closed ∧ c.holdDone = true then { c with st := .requested, reqs := [] } else c

/-- SUPERVISION_TIMEOUT (R337), at a catch of the connection's context. -/
def Lane.supervise (l : Lane) (k now : Nat) : Lane :=
  let c := l.conn k
  if (l.catchOf k now true).isSome && c.isOpen && decide (c.rxT + ms (l.desc k).tmo < now) then
    l.modConn k (·.closeWith 0x02 now)
  else l

/-- CORRUPTION_CLOSE (R335, R338): at `CTHR` the connection closes with CORRUPTION, also when supervision closes it at the same catch. -/
def Lane.corruptionClose (l : Lane) (k now : Nat) : Lane :=
  let c := l.conn k
  let d := l.desc k
  if (l.catchOf k now true).isSome && decide (1 ≤ d.cthr) && decide (d.cthr ≤ c.corr) then
    let c' := if c.closeDue = some 0x02 ∧ c.closedT = now then { c with closeDue := some 0x01 } else c.closeWith 0x01 now
    (l.setConn k { c' with corr := 0 }).note blkFirmware 4 338 []
  else l

/-- A whole second lies after the instant `a` and not after `b`. -/
def secondBetween (a b : Nat) : Bool := decide (a / 1000000000 < b / 1000000000)

/-- CORRUPTION_DECAY (R338): once at the first catch of the context at or after each whole second, after the comparison with `CTHR`. -/
def Lane.corruptionDecay (l : Lane) (k now : Nat) : Lane :=
  match l.catchOf k now true with
  | some r =>
    let c := l.conn k
    if secondBetween r.prevTn now && c.decayT != now && decide (c.corr < (l.desc k).cthr) then
      l.setConn k { c with corr := c.corr - 1, decayT := now }
    else l
  | none => l

/-- HOLDOFF_EXPIRY (R330). -/
def Lane.holdoffExpiry (l : Lane) (k now : Nat) : Lane :=
  let c := l.conn k
  let d := l.desc k
  if (l.catchOf k now false).isSome ∧ c.st = .closed ∧ d.connid ≠ 0 ∧ c.closedT + ms d.holdoff ≤ now then l.setConn k (Conn.start d { c with holdDone := true }) else l

/-- RESPONDED_TIMEOUT (R333): CLOSED without a CLOSE. -/
def Lane.respondedTimeout (l : Lane) (k now : Nat) : Lane :=
  let c := l.conn k
  if (l.catchOf k now true).isSome ∧ c.st = .responded ∧ c.respT ≠ 0 ∧ c.respT + ms (l.desc k).tmo < now then l.setConn k (c.shut now) else l

/-- The payload the RLE input slot of connection `k` takes at T_n: the latest admitted telegram within its age (R107). -/
def Lane.slotInput (l : Lane) (k now : Nat) : Option (List Byte) :=
  match (l.conn k).payload with
  | some (p, ts) => if (l.conn k).isOpen && ageOk now ts (l.desc k).maxage then some p else none
  | none => none

/-! ### Telegrams of a finish (R333, R339) -/

/-- Close, sign and tag a telegram for connection `k`: this lane's code in its own slot (R174), the tag where required, the safety CRC. -/
def Lane.signTlg (l : Lane) (k : Nat) (t : Tlg) : Tlg :=
  let e := l.key k
  let t := { t with scrc := t.safetyCrc e.safety }
  let code := t.laneCode e.seed
  let t := match l.id with
    | .a => { t with codeA := code }
    | .b => { t with codeB := code }
    | .c => { t with codeC := code }
  if t.auth then
    match e.keyAt t.keyid with
    | some key => { t with tag := some (t.tagOf key) }
    | none => { t with tag := some 0 }
  else t

/-- An unsigned telegram of connection `k`. -/
def Lane.blankTlg (l : Lane) (k ty seq : Nat) (payload : List Byte) (fin : Nat) (restr : Bool) : Tlg :=
  let d := l.desc k
  { tstamp := fin, seq := seq, claim := l.claim.toNat, payload := payload, codeA := 0, codeB := 0, codeC := 0, tag := none,
    connid := d.connid, type := ty,
    flags := b2n d.auth + 2 * b2n (!d.init) + 4 * b2n (l.prog.commConns.contains k) + 8 * b2n restr,
    keyid := if d.auth then (l.conn k).sendSlot else 0, scrc := 0 }

/-- The finish instant in µs, its low 32 bits (R331). -/
def finishSeq (fin : Nat) : Nat := (fin / 1000) % 2 ^ 32

/-- What connection `k` sends at a finish, and the connection after it (R331, R333, R334): CLOSE, CONN_ACK, CONN_RESP, CONN_REQ, DATA. -/
def Lane.sendConn (l : Lane) (k fin : Nat) (payload : Option (List Byte)) : Option Tlg × Conn :=
  let c := l.conn k
  let next := (c.txSeq + 1) % 2 ^ 32
  let mk (ty seq : Nat) (p : List Byte) : Option Tlg := some (l.blankTlg k ty seq p fin false)
  match c.closeDue with
  | some r => (mk tyClose next [BitVec.ofNat 8 r, 0, 0, 0], { c with txSeq := next }.shut fin)
  | none =>
    match c.st with
    | .closed => (none, c)
    | .requested =>
      (mk tyReq (finishSeq fin) [0, 1, 0, 0], { c with reqs := (finishSeq fin, fin) :: c.reqs, txSeq := finishSeq fin })
    | .responded =>
      let sb := match c.resps with | r :: _ => r.1 | [] => finishSeq fin
      (mk tyResp sb (beBytes 4 c.echo.1 ++ beBytes 8 c.echo.2),
       { c with resps := (sb, fin) :: c.resps, respT := if c.respT = 0 then fin else c.respT, txSeq := sb })
    | .opened =>
      if c.ackDue then (mk tyAck c.txSeq (beBytes 4 c.echo.1 ++ beBytes 8 c.echo.2), { c with ackDue := false })
      else (mk tyData next (payload.getD []), { c with txSeq := next })

/-- The connections whose telegrams go with the finishes of context `ctx`. -/
def Lane.connsOf (l : Lane) (ctx : Nat) : List Nat := l.connsInUse.filter fun k => (l.desc k).ctx == ctx

/-- The telegrams of a finish at `fin` for context `ctx`: every connection of the context advances; where the lane signs, `send` picks the
connections whose telegrams it places in its mailbox (R333, R346). -/
def Lane.sendAll (l : Lane) (ctx fin : Nat) (payload : Nat → Option (List Byte)) (send : Nat → Bool) : Lane × List OutTlg :=
  (l.connsOf ctx).foldl (fun (acc : Lane × List OutTlg) k =>
    let (t, c) := l.sendConn k fin (payload k)
    (acc.1.setConn k c,
     match t with
     | some t => if send k then acc.2 ++ [{ conn := k, bytes := (l.signTlg k t).bytes, t := fin }] else acc.2
     | none => acc.2)) (l, [])

/-! ### Meanings -/

/-- SUPERVISION_TIMEOUT (R337). -/
def execSupervisionTimeout (l : LaneId) (conn tn : Nat) (s : State) : Host.Outcome State Fault Refusal :=
  done ((s.at tn).upLane l (·.supervise conn tn))

/-- CORRUPTION_CLOSE (R338). -/
def execCorruptionClose (l : LaneId) (conn tn : Nat) (s : State) : Host.Outcome State Fault Refusal :=
  done ((s.at tn).upLane l (·.corruptionClose conn tn))

/-- CORRUPTION_DECAY (R338). -/
def execCorruptionDecay (l : LaneId) (conn tn : Nat) (s : State) : Host.Outcome State Fault Refusal :=
  done ((s.at tn).upLane l (·.corruptionDecay conn tn))

/-- HOLDOFF_EXPIRY (R330): no handshake starts in easy all, nor before the stroke runs. -/
def execHoldoffExpiry (l : LaneId) (conn tn : Nat) (s : State) : Host.Outcome State Fault Refusal :=
  done ((s.at tn).upLane l fun x => if x.easy || !x.running then x else x.holdoffExpiry conn tn)

/-- RESPONDED_TIMEOUT (R333). -/
def execRespondedTimeout (l : LaneId) (conn tn : Nat) (s : State) : Host.Outcome State Fault Refusal :=
  done ((s.at tn).upLane l (·.respondedTimeout conn tn))

/-- SIGN_ENGINE_CHECK (R325): the verdict word's content; the manual gives it no bit places. -/
def execSignEngineCheck (l : LaneId) (conn : Nat) (tlg : List Byte) (s : State) : Host.Outcome State Fault Refusal :=
  let x := s.lane l
  if x.rst.held then done s
  else
    let e := x.key conn
    match parseTlg tlg with
    | none => done { s with bus := .verdict false false 0 }
    | some t =>
      let m := (t.codes e).map fun c => c.1 == c.2
      let v : BitVec 3 := BitVec.ofNat 3 (b2n (m.getD 0 false) + 2 * b2n (m.getD 1 false) + 4 * b2n (m.getD 2 false))
      done { s with bus := .verdict (t.scrc == t.safetyCrc e.safety) (t.tagOk e) v }

end Sys2Proof.Machine
end

