-- ==== Sys2Proof/Machine/RleCells.lean ====
section
/-! DEFINITION. The stored form of the route logic engine: cells, links, ports, path elements, the directory tables of the ARD window,
route status words and the path store (R75 to R95, R111, R112, R115). -/

namespace Sys2Proof.Machine

/-! ### Cells -/

/-- A cell no word of which is set: what the window reads as after a cold reset (R80). -/
def cellZero : CellRec := { st := 0, cfg := 0, lnk := 0 }

/-- Cell `c` of the lane. -/
def Lane.cell (l : Lane) (c : Nat) : CellRec := sparseGet (fun _ => cellZero) l.cells c
/-- Store cell `c`. -/
def Lane.setCell (l : Lane) (c : Nat) (r : CellRec) : Lane := { l with cells := sparseSet (fun _ => cellZero) l.cells c r }

/-- A field of a state or configuration word: lowest bit and width. -/
abbrev CellFld := Nat × Nat

/-- A field of the state word. -/
def CellRec.s (r : CellRec) (f : CellFld) : Nat := bvField r.st f.1 f.2
/-- A field of the configuration word. -/
def CellRec.c (r : CellRec) (f : CellFld) : Nat := bvField r.cfg f.1 f.2
/-- Store a field of the state word. -/
def CellRec.put (r : CellRec) (f : CellFld) (v : Nat) : CellRec := { r with st := bvSet r.st f.1 f.2 v }
/-- Count a field of the state word up by one, stopping at its maximum (R106). -/
def CellRec.inc (r : CellRec) (f : CellFld) : CellRec := r.put f (satInc (ones f.2) (r.s f))

/-- State field of cell `c`. -/
def Lane.cs (l : Lane) (c : Nat) (f : CellFld) : Nat := (l.cell c).s f
/-- Configuration field of cell `c`. -/
def Lane.cc (l : Lane) (c : Nat) (f : CellFld) : Nat := (l.cell c).c f
/-- Store a state field of cell `c`. -/
def Lane.putC (l : Lane) (c : Nat) (f : CellFld) (v : Nat) : Lane := l.setCell c ((l.cell c).put f v)

/-! Common state fields. -/

/-- Corridor bit. -/
def fCOR : CellFld := (63, 1)
/-- Proven. -/
def fPRV : CellFld := (62, 1)
/-- Lock held: 0 none, 1 route, 2 overlap. -/
def fLKIND : CellFld := (60, 2)
/-- ARD index of the holder. -/
def fLRT : CellFld := (48, 12)
/-- Flank holders. -/
def fFLK : CellFld := (44, 4)

/-! Common configuration fields. -/

/-- Cell type code. -/
def fTYPE : CellFld := (124, 4)
/-- Object number. -/
def fOBJ : CellFld := (102, 14)
/-- Second cell of a pair. -/
def fPAIR : CellFld := (101, 1)
/-- Bound to a telegram. -/
def fBND : CellFld := (100, 1)
/-- Connection of the binding. -/
def fCONN : CellFld := (88, 9)
/-- Element record of the binding. -/
def fELEM : CellFld := (80, 8)

/-! State fields by type. -/

/-- SECTION occupancy: 0 disturbed, 1 clear, 2 occupied. -/
def fOCC : CellFld := (42, 2)
/-- SECTION preparatory reset. -/
def fPREP : CellFld := (41, 1)
/-- SECTION release sequence. -/
def fRSEQ : CellFld := (39, 2)
/-- SECTION timed-release count. -/
def fRTMR : CellFld := (24, 15)
/-- POINT, SLIP_HALF, DERAILER position. -/
def fPOS : CellFld := (42, 2)
/-- Last command. -/
def fCMD : CellFld := (40, 2)
/-- Required position. -/
def fREQ : CellFld := (38, 2)
/-- Command outstanding. -/
def fMOV : CellFld := (37, 1)
/-- Strokes since the last command. -/
def fMTMR : CellFld := (29, 8)
/-- Move failed. -/
def fMFAIL : CellFld := (28, 1)
/-- Held by a key release. -/
def fKEYL : CellFld := (27, 1)
/-- SIGNAL aspect commanded. -/
def fASP : CellFld := (40, 4)
/-- SIGNAL detected aspect valid. -/
def fDETV : CellFld := (39, 1)
/-- SIGNAL detected aspect. -/
def fDET : CellFld := (35, 4)
/-- SIGNAL lamp failure. -/
def fLAMP : CellFld := (34, 1)
/-- SIGNAL approach locked. -/
def fAPL : CellFld := (33, 1)
/-- SIGNAL approach-locking count. -/
def fATMR : CellFld := (17, 16)
/-- OVERLAP release running. -/
def fORUN : CellFld := (43, 1)
/-- OVERLAP release count. -/
def fOTMR : CellFld := (28, 15)
/-- LEVEL_CROSSING state. -/
def fLCS : CellFld := (41, 3)
/-- LEVEL_CROSSING closure proven. -/
def fCLP : CellFld := (40, 1)
/-- LEVEL_CROSSING count. -/
def fCTMR : CellFld := (24, 16)
/-- KEY_LOCK key. -/
def fKEY : CellFld := (42, 2)
/-- KEY_LOCK release granted. -/
def fRELG : CellFld := (41, 1)
/-- KEY_LOCK release requested. -/
def fRELQ : CellFld := (40, 1)
/-- BORDER neighbour. -/
def fNST : CellFld := (42, 2)
/-- BORDER locked by a route of this module. -/
def fOUTL : CellFld := (41, 1)
/-- BORDER locked by the neighbour. -/
def fINL : CellFld := (40, 1)
/-- DIAMOND leg. -/
def fLEG : CellFld := (42, 2)
/-- CONDITION value in use. -/
def fVAL : CellFld := (43, 1)
/-- CONDITION value written. -/
def fPVAL : CellFld := (42, 1)

/-! Configuration fields by type. -/

/-- SECTION: axle counter. -/
def gAXC : CellFld := (79, 1)
/-- SECTION: timed release permitted. -/
def gTRELEN : CellFld := (78, 1)
/-- SECTION: timed-release time. -/
def gTREL : CellFld := (63, 15)
/-- POINT, SLIP_HALF: flank link 0, normal. -/
def gFLN0 : CellFld := (64, 16)
/-- POINT: flank link 1, normal. -/
def gFLN1 : CellFld := (48, 16)
/-- POINT: flank link 0, reverse. -/
def gFLR0 : CellFld := (32, 16)
/-- POINT: flank link 1, reverse. -/
def gFLR1 : CellFld := (16, 16)
/-- SLIP_HALF: flank link, reverse. -/
def gSLR0 : CellFld := (48, 16)
/-- SLIP_HALF: the other half. -/
def gMATE : CellFld := (34, 14)
/-- Move timeout. -/
def gMTO : CellFld := (8, 8)
/-- SIGNAL: highest main aspect. -/
def gAMAIN : CellFld := (76, 4)
/-- SIGNAL: shunt aspect. -/
def gASHUNT : CellFld := (72, 4)
/-- SIGNAL: call-on aspect. -/
def gACALL : CellFld := (68, 4)
/-- SIGNAL: approach-locking time. -/
def gALT : CellFld := (52, 16)
/-- SIGNAL: approach section. -/
def gAPS : CellFld := (38, 14)
/-- OVERLAP: its exit signal. -/
def gSIG : CellFld := (66, 14)
/-- OVERLAP: release time. -/
def gOREL : CellFld := (51, 15)
/-- OVERLAP: list offset in the pool. -/
def gOPTR : CellFld := (35, 16)
/-- OVERLAP: list length. -/
def gOLEN : CellFld := (28, 7)
/-- OVERLAP: number for the signal. -/
def gOPRI : CellFld := (24, 4)
/-- LEVEL_CROSSING: closing time allowed. -/
def gCMAX : CellFld := (64, 16)
/-- LEVEL_CROSSING: least road-open time. -/
def gROMIN : CellFld := (48, 16)
/-- LEVEL_CROSSING: strike-in section. -/
def gSTRIKE : CellFld := (34, 14)
/-- KEY_LOCK: governed cell `k`. -/
def gGOV (k : Nat) : CellFld := (66 - 14 * k, 14)
/-- KEY_LOCK: governed cells in use. -/
def gNGOV : CellFld := (21, 3)
/-- BORDER: leaving permitted. -/
def gDIROUT : CellFld := (62, 1)

/-! Type codes (R84). -/

/-- UNUSED. -/
def tUNUSED : Nat := 0
/-- SECTION. -/
def tSECTION : Nat := 1
/-- POINT. -/
def tPOINT : Nat := 2
/-- SIGNAL. -/
def tSIGNAL : Nat := 3
/-- BUFFER_STOP. -/
def tBUFFER : Nat := 4
/-- OVERLAP. -/
def tOVERLAP : Nat := 5
/-- LEVEL_CROSSING. -/
def tCROSSING : Nat := 6
/-- DERAILER. -/
def tDERAILER : Nat := 7
/-- KEY_LOCK. -/
def tKEYLOCK : Nat := 8
/-- BORDER. -/
def tBORDER : Nat := 9
/-- DIAMOND. -/
def tDIAMOND : Nat := 10
/-- SLIP_HALF. -/
def tSLIP : Nat := 11
/-- CONDITION. -/
def tCONDITION : Nat := 12

/-- Type of a cell. -/
def CellRec.typ (r : CellRec) : Nat := r.c fTYPE
/-- Type of cell `c`. -/
def Lane.typ (l : Lane) (c : Nat) : Nat := (l.cell c).typ
/-- POINT, SLIP_HALF or DERAILER. -/
def isPsd (t : Nat) : Bool := t == tPOINT || t == tSLIP || t == tDERAILER
/-- The types bound to telegrams (R86). -/
def isBound (t : Nat) : Bool :=
  t == tSECTION || t == tPOINT || t == tSIGNAL || t == tCROSSING || t == tDERAILER || t == tKEYLOCK || t == tBORDER || t == tSLIP

/-! ### Links and ports -/

/-- What port `p` of a cell names: cell and port (R78). -/
def CellRec.link (r : CellRec) (p : Nat) : Nat × Nat :=
  let v := bvField r.lnk (16 * p) 16
  (v / 4, v % 4)

/-- The neighbour at port `p` of cell `c`, unless the port is open (R78). -/
def Lane.neighbour (l : Lane) (c p : Nat) : Option (Nat × Nat) :=
  let n := (l.cell c).link p
  if n = (c, p) then none else some n

/-- Ports of a type that are linked (R90). -/
def trackPorts (t : Nat) : List Nat :=
  if t == tSECTION || t == tSIGNAL || t == tCROSSING || t == tDERAILER then [0, 1]
  else if t == tPOINT || t == tSLIP then [0, 1, 2]
  else if t == tBUFFER || t == tBORDER then [0]
  else if t == tDIAMOND then [0, 1, 2, 3] else []

/-- The ways out of a cell entered at port `p`: port, and the requirement of the passage (R90, R92). -/
def passages (t p : Nat) : List (Nat × Nat) :=
  if t == tSECTION || t == tSIGNAL || t == tCROSSING then (if p = 0 then [(1, 0)] else if p = 1 then [(0, 0)] else [])
  else if t == tPOINT || t == tSLIP then
    (if p = 0 then [(1, 1), (2, 2)] else if p = 1 then [(0, 1)] else if p = 2 then [(0, 2)] else [])
  else if t == tDERAILER then (if p = 0 then [(1, 2)] else if p = 1 then [(0, 2)] else [])
  else if t == tDIAMOND then
    (if p = 0 then [(1, 1)] else if p = 1 then [(0, 1)] else if p = 2 then [(3, 2)] else [(2, 2)])
  else []

/-! ### Path elements, pool, directory, ARD (R92) -/

/-- A path or pool element: cell and requirement. -/
abbrev Elem := Nat × Nat

/-- Element of 16 bits. -/
def elemOf (v : Nat) : Elem := (v % 0x4000, v / 0x4000 % 4)
/-- Its 16 bits. -/
def elemBits (e : Elem) : Nat := e.2 * 0x4000 + e.1

/-- Word `k` of the ARD window. -/
def Lane.ardW (l : Lane) (k : Nat) : Nat := (sparseGet (fun _ => (0 : Word)) l.ard k).toNat

/-- Pool element `k`. -/
def Lane.pool (l : Lane) (k : Nat) : Elem := elemOf (getField (l.ardW (0x8000 + k / 2)) (16 * (k % 2)) 16)
/-- Elements `k` to `k + n - 1` of the pool. -/
def Lane.poolList (l : Lane) (k n : Nat) : List Elem := (upTo n).map fun i => l.pool (k + i)

/-- Field of word `w` of pair directory entry `j`. -/
def Lane.pairF (l : Lane) (j w lo wd : Nat) : Nat := getField (l.ardW (0x4000 + 4 * j + w)) lo wd
/-- `ENTRY` of pair `j`. -/
def Lane.pEntry (l : Lane) (j : Nat) : Nat := l.pairF j 0 18 14
/-- `EXIT` of pair `j`. -/
def Lane.pExit (l : Lane) (j : Nat) : Nat := l.pairF j 0 4 14
/-- `VALID` of pair `j`. -/
def Lane.pValid (l : Lane) (j : Nat) : Bool := l.pairF j 0 3 1 == 1
/-- Corridor list of pair `j`. -/
def Lane.corridor (l : Lane) (j : Nat) : List Elem := l.poolList (l.pairF j 1 16 16) (l.pairF j 1 5 11)
/-- ARD indices of pair `j`. -/
def Lane.variants (l : Lane) (j : Nat) : List Nat := (upTo (l.pairF j 2 14 6)).map fun k => l.pairF j 2 20 12 + k

/-- Field of word `w` of ARD entry `i`. -/
def Lane.ardF (l : Lane) (i w lo wd : Nat) : Nat := getField (l.ardW (4 * i + w)) lo wd
/-- `PHASH`. -/
def Lane.aHash (l : Lane) (i : Nat) : Nat := l.ardF i 0 0 32
/-- `VALID`. -/
def Lane.aValid (l : Lane) (i : Nat) : Bool := l.ardF i 1 31 1 == 1
/-- The class bit of `CLS` for class `k`. -/
def Lane.aCls (l : Lane) (i k : Nat) : Bool := l.ardF i 1 (28 + k) 1 == 1
/-- `RANK`. -/
def Lane.aRank (l : Lane) (i : Nat) : Nat := l.ardF i 1 23 5
/-- `PAIR`. -/
def Lane.aPair (l : Lane) (i : Nat) : Nat := l.ardF i 1 11 12
/-- `PLEN`. -/
def Lane.aLen (l : Lane) (i : Nat) : Nat := l.ardF i 1 3 8
/-- CONDITION cells in use. -/
def Lane.aConds (l : Lane) (i : Nat) : List Nat := [l.ardF i 2 18 14, l.ardF i 2 4 14].take (l.ardF i 2 2 2)
/-- `OVMASK`. -/
def Lane.aOvmask (l : Lane) (i : Nat) : Nat := l.ardF i 3 16 16
/-- `RID`. -/
def Lane.aRid (l : Lane) (i : Nat) : Nat := l.ardF i 3 0 16

/-- Path hash: CRC-32C over the elements, high byte first (R94). -/
def pathHash (es : List Elem) : Nat := crc32c (es.flatMap fun e => beBytes 2 (elemBits e))

/-! ### Route status and path store (R115) -/

/-- FREE. -/
def rsFree : Nat := 0
/-- CLAIMED. -/
def rsClaimed : Nat := 1
/-- CLEARED. -/
def rsCleared : Nat := 2
/-- HELD. -/
def rsHeld : Nat := 3
/-- CANCELLING. -/
def rsCancelling : Nat := 4
/-- RELEASING. -/
def rsReleasing : Nat := 5

/-- Status word of ARD index `i`. -/
def Lane.rw (l : Lane) (i : Nat) : Word := sparseGet (fun _ => (0 : Word)) l.rstat i
/-- Store a status word. -/
def Lane.setRw (l : Lane) (i : Nat) (w : Word) : Lane := { l with rstat := sparseSet (fun _ => (0 : Word)) l.rstat i w }
/-- `RSTATE`. -/
def Lane.rState (l : Lane) (i : Nat) : Nat := bvField (l.rw i) 29 3
/-- Store `RSTATE`. -/
def Lane.setRState (l : Lane) (i v : Nat) : Lane := l.setRw i (bvSet (l.rw i) 29 3 v)
/-- `RCLS`: 0 main, 1 shunt, 2 call-on. -/
def Lane.rCls (l : Lane) (i : Nat) : Nat := bvField (l.rw i) 27 2
/-- `OVV`. -/
def Lane.rOvv (l : Lane) (i : Nat) : Bool := bvField (l.rw i) 26 1 == 1
/-- `OVSEL`. -/
def Lane.rOvsel (l : Lane) (i : Nat) : Nat := bvField (l.rw i) 22 4
/-- `PSLOT`. -/
def Lane.rSlot (l : Lane) (i : Nat) : Nat := bvField (l.rw i) 10 10
/-- `RPOS`. -/
def Lane.rPos (l : Lane) (i : Nat) : Nat := bvField (l.rw i) 0 8

/-- ARD indices whose route is not FREE. -/
def Lane.routes (l : Lane) : List Nat := (l.rstat.map (·.1)).filter fun i => l.rState i != rsFree

/-- Element `k` of path slot `n`, packed as in R92. -/
def Lane.slotElem (l : Lane) (n k : Nat) : Elem :=
  elemOf (bvField (sparseGet (fun _ => (0 : Word)) l.pstore (64 * n + k / 2)) (16 * (k % 2)) 16)

/-- Write a path to slot `n`; unused elements are 0 (R115). -/
def Lane.writeSlot (l : Lane) (n : Nat) (es : List Elem) : Lane :=
  let w (j : Nat) : Word := BitVec.ofNat 32 (elemBits (es.getD (2 * j) (0, 0)) + 0x10000 * elemBits (es.getD (2 * j + 1) (0, 0)))
  { l with pstore := (upTo 64).foldl (fun m j => sparseSet (fun _ => (0 : Word)) m (64 * n + j) (w j)) l.pstore }

/-- The path of route `i`, entry first. -/
def Lane.pathOf (l : Lane) (i : Nat) : List Elem := (upTo (l.aLen i)).map fun k => l.slotElem (l.rSlot i) k
/-- Its entry SIGNAL. -/
def Lane.entryOf (l : Lane) (i : Nat) : Nat := ((l.pathOf i).headD (0, 0)).1
/-- Its exit cell. -/
def Lane.exitOf (l : Lane) (i : Nat) : Nat := ((l.pathOf i).getLastD (0, 0)).1
/-- The first SECTION after the entry. -/
def Lane.firstSection (l : Lane) (i : Nat) : Option Nat := (((l.pathOf i).drop 1).find? fun e => l.typ e.1 == tSECTION).map (·.1)

/-- The cells that route `i` holds, for route or overlap. -/
def Lane.heldBy (l : Lane) (i : Nat) : List Nat :=
  (l.cells.filter fun e => e.2.s fLKIND != 0 && e.2.s fLRT == i).map (·.1)

/-- The OVERLAP cell of signal `sig` with number `k` (R93). -/
def Lane.overlapOf (l : Lane) (sig k : Nat) : Option Nat :=
  (l.cells.find? fun e => e.2.typ == tOVERLAP && e.2.c gSIG == sig && e.2.c gOPRI == k).map (·.1)
/-- The element list of an OVERLAP cell. -/
def Lane.ovList (l : Lane) (o : Nat) : List Elem := l.poolList (l.cc o gOPTR) (l.cc o gOLEN)
/-- The OVERLAP cell locked with route `i`. -/
def Lane.routeOverlap (l : Lane) (i : Nat) : Option Nat := if l.rOvv i then l.overlapOf (l.exitOf i) (l.rOvsel i) else none

/-! ### Windows and tables (R79, R104, R115) -/

/-- Word `k` of cell `c` (The cell window). -/
def CellRec.word (r : CellRec) (k : Nat) : Word :=
  BitVec.ofNat 32 (if k < 2 then bvField r.st (32 * k) 32 else if k < 6 then bvField r.cfg (32 * (k - 2)) 32 else bvField r.lnk (32 * (k - 6)) 32)

/-- Store word `k` of a cell. -/
def CellRec.setWord (r : CellRec) (k : Nat) (v : Word) : CellRec :=
  if k < 2 then { r with st := bvSet r.st (32 * k) 32 v.toNat }
  else if k < 6 then { r with cfg := bvSet r.cfg (32 * (k - 2)) 32 v.toNat }
  else { r with lnk := bvSet r.lnk (32 * (k - 6)) 32 v.toNat }

/-- The areas a core reaches through CELL_WINDOW_WRITE. -/
inductive RleArea where
  | cell (c k : Nat) | ard (k : Nat) | status (i : Nat) | store (k : Nat) | request | result | none
  deriving DecidableEq, Repr

/-- Which area a lane address lies in (Address Map). -/
def rleArea (a : Nat) : RleArea :=
  if 0x10000000 ≤ a ∧ a < 0x10080000 then .cell ((a - 0x10000000) / 32) ((a - 0x10000000) / 4 % 8)
  else if 0x10200000 ≤ a ∧ a < 0x10240000 then .ard ((a - 0x10200000) / 4)
  else if 0x10110000 ≤ a ∧ a < 0x10114000 then .status ((a - 0x10110000) / 4)
  else if 0x10140000 ≤ a ∧ a < 0x10180000 then .store ((a - 0x10140000) / 4)
  else if 0x10100400 ≤ a ∧ a < 0x10100800 then .request
  else if 0x10100800 ≤ a ∧ a < 0x10100C00 then .result
  else .none

/-- The word at address `a` of the windows and tables, whatever locks it. -/
def Lane.areaWord (l : Lane) (a : Nat) : Word :=
  match rleArea a with
  | .cell c k => (l.cell c).word k
  | .ard k => BitVec.ofNat 32 (l.ardW k)
  | .status i => l.rw i
  | .store k => sparseGet (fun _ => (0 : Word)) l.pstore k
  | .request | .result => l.rg a
  | .none => 0

/-- Store the word at address `a` of the windows and tables. -/
def Lane.putAreaWord (l : Lane) (a : Nat) (v : Word) : Lane :=
  match rleArea a with
  | .cell c k => l.setCell c ((l.cell c).setWord k v)
  | .ard k => { l with ard := sparseSet (fun _ => (0 : Word)) l.ard k v }
  | .status i => l.setRw i v
  | .store k => { l with pstore := sparseSet (fun _ => (0 : Word)) l.pstore k v }
  | .request | .result => l.setRg a v
  | .none => l

/-! ### Flank links (R87, R120) -/

/-- The flank links a cell applies under a requirement: protecting cell and its requirement. -/
def Lane.flanks (l : Lane) (e : Elem) : List Elem :=
  let r := l.cell e.1
  let raw :=
    if r.typ == tPOINT then (if e.2 = 1 then [r.c gFLN0, r.c gFLN1] else if e.2 = 2 then [r.c gFLR0, r.c gFLR1] else [])
    else if r.typ == tSLIP then (if e.2 = 1 then [r.c gFLN0] else if e.2 = 2 then [r.c gSLR0] else [])
    else []
  (raw.filter fun v => v % 4 != 0).map fun v => (v / 4, v % 4)

/-- A cell is stale in this stroke (R108, R113). -/
def Lane.stale (l : Lane) (c : Nat) : Bool := l.rle.stale.contains c

/-- Every SECTION linked to a port of the cell is clear (R117). -/
def Lane.sectionsClear (l : Lane) (c : Nat) : Bool :=
  (upTo 4).all fun p => match l.neighbour c p with
    | none => true
    | some n => l.typ n.1 != tSECTION || l.cs n.1 fOCC == 1

/-! ### Requests and results (R111, R112) -/

/-- A request table entry. -/
structure RleReq where
  w0 : Nat
  w1 : Nat
  w2 : Nat
  w3 : Nat
  deriving DecidableEq, Repr

/-- `OP`. -/
def RleReq.op (q : RleReq) : Nat := getField q.w0 28 4
/-- `CLS`. -/
def RleReq.cls (q : RleReq) : Nat := getField q.w0 26 2
/-- `PRI`. -/
def RleReq.pri (q : RleReq) : Nat := getField q.w0 22 4
/-- `TGT`. -/
def RleReq.tgt (q : RleReq) : Nat := getField q.w0 0 14
/-- `EXIT`. -/
def RleReq.exit (q : RleReq) : Nat := getField q.w1 18 14
/-- `VIAV`. -/
def RleReq.viav (q : RleReq) : Bool := getField q.w1 17 1 == 1
/-- `VIA`. -/
def RleReq.via (q : RleReq) : Nat := getField q.w1 0 14
/-- `RTAG`. -/
def RleReq.rtag (q : RleReq) : Nat := getField q.w2 16 16
/-- `OVPV`. -/
def RleReq.ovpv (q : RleReq) : Bool := getField q.w2 4 1 == 1
/-- `OVPREF`. -/
def RleReq.ovpref (q : RleReq) : Nat := getField q.w2 0 4
/-- `SRCX`. -/
def RleReq.srcx (q : RleReq) : Nat := getField q.w3 0 10

/-- A result table entry before it is packed. -/
structure RleRes where
  reason : Nat
  ardi : Option Nat
  ov : Option Nat
  visits : Nat
  ncand : Nat
  bcell : Nat
  /-- run-time limits of R101 that the request met, one recorder entry each (R102) -/
  limits : Nat
  deriving DecidableEq, Repr

/-- The four words of a result (R112). -/
def Lane.resWords (l : Lane) (q : RleReq) (r : RleRes) : List Word :=
  [ BitVec.ofNat 32 (r.reason * 0x1000000 + r.ardi.getD 0),
    BitVec.ofNat 32 ((match r.ardi with | some i => l.aRid i | none => 0) * 0x10000 + r.ov.getD 0 * 0x1000 + r.visits),
    BitVec.ofNat 32 (q.rtag * 0x10000 + b2n r.ov.isSome * 0x8000 + r.ncand),
    BitVec.ofNat 32 r.bcell ]

/-- Address of request table entry `n` (from 0) and of result table entry `n` (R104). -/
def reqAddr (n : Nat) : Nat := 0x10100400 + 16 * n
/-- Address of result table entry `n`. -/
def resAddr (n : Nat) : Nat := 0x10100800 + 16 * n

/-- Request table entry `n`. -/
def Lane.request (l : Lane) (n : Nat) : RleReq :=
  { w0 := (l.rg (reqAddr n)).toNat, w1 := (l.rg (reqAddr n + 4)).toNat, w2 := (l.rg (reqAddr n + 8)).toNat, w3 := (l.rg (reqAddr n + 12)).toNat }

/-- Write words to successive register addresses. -/
def Lane.setRgs (l : Lane) (a : Nat) : List Word → Lane
  | [] => l
  | w :: ws => (l.setRg a w).setRgs (a + 4) ws

/-- Set an error or event bit of `RLE_STAT`, with the RLE interrupt where enabled (RLE control registers). -/
def Lane.rleFlag (l : Lane) (f : Fld) : Lane :=
  let l' := l.fset f 1
  if f = RLE_STAT_DONE then (if l.on RLE_CTRL_IE_DONE then l'.raise 4 else l')
  else if l.on RLE_CTRL_IE_ERR then l'.raise 4 else l'

end Sys2Proof.Machine
end

