-- ==== Sys2Proof/Machine/RleRoute.lean ====
section
/-! DEFINITION. Requests of the route logic engine: exploration, the four stages of selection, claim, cancellation, release, preparatory
reset and key requests (R114 to R126, R133, R139, R142, R143). -/

namespace Sys2Proof.Machine

/-! ### Release (R139) -/

/-- Lower `FLK` of a protecting cell; an unlocked point at 0 loses its requirement. -/
def Lane.dropFlank (l : Lane) (p : Nat) : Lane :=
  let r := l.cell p
  let n := r.s fFLK - 1
  let r := r.put fFLK n
  l.setCell p (if isPsd r.typ && n == 0 && r.s fLKIND == 0 then r.put fREQ 0 else r)

/-- Cell `c` releases: lock, release history, requirement, leg, and the flank links it applied. -/
def Lane.releaseCell (l : Lane) (c : Nat) : Lane :=
  let r := l.cell c
  if r.s fLKIND == 0 then l
  else
    let t := r.typ
    let fl := if isPsd t then l.flanks (c, r.s fREQ) else []
    let r := (r.put fLKIND 0).put fLRT 0
    let r :=
      if t == tSECTION then (r.put fRSEQ 0).put fRTMR 0
      else if isPsd t then (if r.s fFLK == 0 then r.put fREQ 0 else r)
      else if t == tDIAMOND then r.put fLEG 0
      else if t == tOVERLAP then (r.put fORUN 0).put fOTMR 0
      else r
    fl.foldl (fun l e => l.dropFlank e.1) (l.setCell c r)

/-- Cells of route `i` release; an exit BORDER is unlocked with the last of them. -/
def Lane.releaseCells (l : Lane) (i : Nat) (cs : List Nat) : Lane :=
  let l' := cs.foldl Lane.releaseCell l
  let x := l.exitOf i
  if !cs.isEmpty && l'.typ x == tBORDER && (l'.heldBy i).isEmpty then l'.putC x fOUTL 0 else l'

/-! ### Freeness (R117) -/

/-- The lock condition of R117: unlocked, or, for a path cell, held by an overlap whose route exits at the entry of this request. -/
def Lane.lockFree (l : Lane) (entry c req : Nat) (path : Bool) : Bool :=
  let r := l.cell c
  r.s fLKIND == 0 ||
    (path && r.s fLKIND == 2 && l.exitOf (r.s fLRT) == entry && (!isPsd r.typ || r.s fREQ == req))

/-- Where a cell stands in a path (R117): in its midst, as its first SECTION after the entry, or as its exit. -/
inductive PathPlace where
  | mid | first | exit
  deriving DecidableEq, Repr

/-- Whether cell `c` is free for a path of class `cls` under requirement `req`; `path` for a path cell, else an overlap element. -/
def Lane.isFree (l : Lane) (entry c req cls : Nat) (place : PathPlace) (path : Bool) : Bool :=
  let r := l.cell c
  let t := r.typ
  let lk := l.lockFree entry c req path
  !l.stale c &&
    (if place == .exit && t == tBORDER then r.s fNST == 1 && r.c gDIROUT == 1 && r.s fOUTL == 0 && r.s fINL == 0
     else if place == .exit then lk || (r.s fLKIND == 1 && l.entryOf (r.s fLRT) == c)
     else if t == tSECTION then
       lk && (if cls == 0 then r.s fOCC == 1 && r.s fPREP == 0 else r.s fOCC == 1 || (r.s fOCC == 2 && place != .first))
     else if isPsd t then
       lk && r.s fKEYL == 0 && r.s fPOS != 3 && (r.s fFLK == 0 || r.s fREQ == req) && (r.s fPOS == req || l.sectionsClear c)
     else if t == tDIAMOND || t == tSIGNAL then lk
     else if t == tCROSSING then lk && r.s fLCS != 5
     else false)

/-! ### Exploration (R117, R118) -/

/-- A partial path: its elements with the last first, the cell and port through which it goes on, whether a SECTION was passed. -/
abbrev Partial := List Elem × Nat × Nat × Bool

/-- What exploration has found: complete paths, refused cells, cell visits, whether a visit beyond the limit was needed, and whether a path
stood at 128 cells and was not extended (R101). -/
structure Found where
  paths   : List (List Elem)
  refused : List Nat
  visits  : Nat
  excess  : Bool
  long    : Bool
  deriving DecidableEq, Repr

/-- A cell is reached and refused. -/
def Found.refuse (f : Found) (c : Nat) : Found := { f with refused := c :: f.refused }

/-- A free cell is entered, unless the visits are used up or the path has its 128 cells (R98, R101, R118). -/
def Found.enter (f : Found) (rev : List Elem) (go : List Partial) (full : List (List Elem)) : List Partial × Found :=
  if 128 ≤ rev.length then ([], { f with long := true })
  else if 2048 ≤ f.visits then ([], { f with excess := true })
  else (go, { f with visits := f.visits + 1, paths := full ++ f.paths })

/-- Extend one partial path by one cell (R91, R117, R118): the further partial paths, and what is found. A POINT entered at its toe that is free
for one leg alone is entered: it is a visit and is not refused (Assumption 97). -/
def Lane.extend (l : Lane) (entry exit cls : Nat) (p : Partial) (f : Found) : List Partial × Found :=
  let (rev, c, port, sect) := p
  match l.neighbour c port with
  | none => ([], f)
  | some (d, q) =>
    if rev.any (fun e => e.1 == d) || l.cs d fCOR == 0 then ([], f)
    else if d = exit then
      if l.isFree entry d 0 cls .exit true then f.enter rev [] [((d, 0) :: rev).reverse] else ([], f.refuse d)
    else
      let t := l.typ d
      let place := if t == tSECTION && !sect then PathPlace.first else .mid
      let ways := passages t q
      let outs := ways.filter fun w => l.isFree entry d w.2 cls place true
      if ways.isEmpty then ([], f)
      else if outs.isEmpty then ([], f.refuse d)
      else f.enter rev (outs.map fun w => ((d, w.2) :: rev, d, w.1, sect || t == tSECTION)) []

/-- Explore until no partial path is left; each visit leaves at most two, so 8,192 rounds are enough. -/
def Lane.exploreLoop (l : Lane) (entry exit cls : Nat) : Nat → List Partial → Found → Found
  | 0, _, f => f
  | _ + 1, [], f => f
  | n + 1, p :: ps, f =>
    if f.excess then f
    else
      let (more, f') := l.extend entry exit cls p f
      l.exploreLoop entry exit cls n (more ++ ps) f'

/-- Exploration from the entry SIGNAL through P1; the root counts as one visit (R98). -/
def Lane.explore (l : Lane) (entry exit cls : Nat) : Found :=
  l.exploreLoop entry exit cls 8192 [([(entry, 0)], entry, 1, false)]
    { paths := [], refused := [], visits := 1, excess := false, long := false }

/-! ### Flank protection (R120) -/

/-- Whether a flank link is attainable for a request from `entry`. -/
def Lane.attainable (l : Lane) (entry : Nat) (e : Elem) : Bool :=
  let r := l.cell e.1
  if e.2 = 3 then !l.stale e.1 && e.1 != entry && (l.routes.all fun i => l.entryOf i != e.1)
  else r.s fREQ == e.2 ||
    (r.s fLKIND == 0 && r.s fFLK == 0 && r.s fKEYL == 0 && r.s fPOS != 3 && !l.stale e.1 && (r.s fPOS == e.2 || l.sectionsClear e.1))

/-- Protecting cells of these elements that are not attainable. -/
def Lane.unattainable (l : Lane) (entry : Nat) (es : List Elem) : List Nat :=
  ((es.flatMap l.flanks).filter fun e => !l.attainable entry e).map (·.1)

/-- The overlaps of an `OVMASK` for an exit: numbers with their OVERLAP cells. -/
def Lane.maskOverlaps (l : Lane) (exit mask : Nat) : List (Nat × Nat) :=
  (upTo 16).filterMap fun k => if getField mask k 1 = 1 then (l.overlapOf exit k).map fun o => (k, o) else none

/-- Cells that refuse overlap `o` in stage 4 (R114, R121): its own cell when locked, and list elements not free. -/
def Lane.overlapRefusals (l : Lane) (entry o : Nat) : List Nat :=
  (if l.cs o fLKIND == 0 then [] else [o]) ++
    ((l.ovList o).filter fun e => !l.isFree entry e.1 e.2 0 .mid false).map (·.1)

/-- Whether an overlap is eligible (R121). -/
def Lane.overlapEligible (l : Lane) (entry o : Nat) : Bool :=
  (l.overlapRefusals entry o).isEmpty && (l.unattainable entry (l.ovList o)).isEmpty

/-! ### Claiming (R124) -/

/-- A point takes a requirement, and a command where position and last command both differ (R124 step 2). -/
def CellRec.require (r : CellRec) (req : Nat) : CellRec :=
  let r := r.put fREQ req
  if r.s fPOS != req && r.s fCMD != req then (((r.put fCMD req).put fMOV 1).put fMTMR 0).put fMFAIL 0 else r

/-- A crossing just locked is commanded closed under the first two rows of R135 (R124 step 2): a close command that stands is kept, one that
is first given sets `CTMR` to 0, and a crossing open to road for less than `ROMIN` strokes has its open command withdrawn. -/
def Lane.closeCrossing (l : Lane) (c : Nat) : Lane :=
  let r := l.cell c
  let rest (xs : List Nat) : List Nat := xs.filter fun x => x != c
  if l.rle.closeCmd.contains c then l
  else if !l.stale c && r.s fLCS == 1 && decide (r.s fCTMR < r.c gROMIN) then { l with rle := { l.rle with openCmd := rest l.rle.openCmd } }
  else
    { l.setCell c (r.put fCTMR 0) with
      rle := { l.rle with closeCmd := c :: l.rle.closeCmd, openCmd := rest l.rle.openCmd, openWait := rest l.rle.openWait,
                          xrec := rest l.rle.xrec } }

/-- An element's cell takes its requirement: a point position, a crossing closure (R124 step 2). -/
def Lane.requireElem (l : Lane) (e : Elem) : Lane :=
  if isPsd (l.typ e.1) then l.setCell e.1 ((l.cell e.1).require e.2)
  else if l.typ e.1 == tCROSSING then l.closeCrossing e.1
  else l

/-- One applied flank link (R124 step 3). -/
def Lane.applyFlank (l : Lane) (e : Elem) : Lane :=
  (l.setCell e.1 ((l.cell e.1).put fFLK ((l.cell e.1).s fFLK + 1))).requireElem e

/-- Lock a cell for route `i` with the kind given. -/
def Lane.lockCell (l : Lane) (i kind c : Nat) : Lane := l.setCell c (((l.cell c).put fLKIND kind).put fLRT i)

/-- The flank links that the path of a claim applies: those of its cells that are not taken over from an overlap (R123, R124). -/
def Lane.pathFlanks (l : Lane) (path : List Elem) : List Elem := (path.dropLast.filter fun e => l.cs e.1 fLKIND != 2).flatMap l.flanks

/-- The flank links that its overlap applies. -/
def Lane.ovFlanks (l : Lane) (ov : Option Nat) : List Elem := match ov with | some o => (l.ovList o).flatMap l.flanks | none => []

/-- The lowest free path slot (R124 step 5). -/
def Lane.freeSlot (l : Lane) : Option Nat :=
  let used := l.routes.map l.rSlot
  (upTo 1024).find? fun n => !used.contains n

/-- The claim of variant `i`, in the order of R124. -/
def Lane.claimRoute (l : Lane) (i cls slot : Nat) (path : List Elem) (ov : Option (Nat × Nat)) : Lane :=
  let body := path.dropLast
  let exit := (path.getLastD (0, 0)).1
  let pathFl := l.pathFlanks path
  let ovFl := l.ovFlanks (ov.map (·.2))
  let l := body.foldl (fun l e => l.lockCell i 1 e.1) l
  let l := if l.typ exit == tBORDER then l.putC exit fOUTL 1 else l
  let l := body.foldl (fun l e => (if l.typ e.1 == tDIAMOND then l.putC e.1 fLEG e.2 else l).requireElem e) l
  let l := pathFl.foldl Lane.applyFlank l
  let l := match ov with
    | none => l
    | some (_, o) => (l.ovList o).foldl (fun l e => (l.lockCell i 2 e.1).requireElem e) (l.lockCell i 2 o)
  let l := ovFl.foldl Lane.applyFlank l
  let l := l.writeSlot slot path
  l.setRw i (BitVec.ofNat 32 (rsClaimed * 0x20000000 + cls * 0x8000000 + b2n ov.isSome * 0x4000000 +
    (match ov with | some (k, _) => k | none => 0) * 0x400000 + slot * 0x400))

/-! ### SET (R119 to R123) -/

/-- A candidate: its variant and its path. -/
abbrev Cand := Nat × List Elem

/-- A rejection with this reason and blocking cell. -/
def resNo (reason bcell visits ncand : Nat) : RleRes :=
  { reason := reason, ardi := none, ov := none, visits := visits, ncand := ncand, bcell := bcell, limits := 0 }

/-- Whether a candidate needs an overlap. -/
def Lane.needsOverlap (l : Lane) (cls : Nat) (c : Cand) : Bool := cls == 0 && l.aOvmask c.1 != 0
/-- The overlaps of a candidate. -/
def Lane.candOverlaps (l : Lane) (c : Cand) : List (Nat × Nat) := l.maskOverlaps ((c.2.getLastD (0, 0)).1) (l.aOvmask c.1)

/-- Protecting cells that make a candidate fail stage 3: those of its path, and, when no overlap has all its links attainable, those of
its overlaps. -/
def Lane.stage3Bad (l : Lane) (entry cls : Nat) (c : Cand) : List Nat :=
  let ovs := (l.candOverlaps c).map fun o => l.unattainable entry (l.ovList o.2)
  l.unattainable entry c.2.dropLast ++ (if l.needsOverlap cls c && (ovs.all fun b => !b.isEmpty) then ovs.flatten else [])

/-- Stage 3 of R119. -/
def Lane.stage3 (l : Lane) (entry cls : Nat) (c : Cand) : Bool :=
  (l.unattainable entry c.2.dropLast).isEmpty &&
    (!l.needsOverlap cls c || (l.candOverlaps c).any fun o => (l.unattainable entry (l.ovList o.2)).isEmpty)

/-- Stage 4 of R119. -/
def Lane.stage4 (l : Lane) (entry cls : Nat) (c : Cand) : Bool :=
  !l.needsOverlap cls c || (l.candOverlaps c).any fun o => l.overlapEligible entry o.2

/-- The overlap taken: the preferred one when eligible, else the lowest eligible (R121). -/
def Lane.pickOverlap (l : Lane) (entry cls : Nat) (q : RleReq) (c : Cand) : Option (Nat × Nat) :=
  if l.needsOverlap cls c then
    let el := (l.candOverlaps c).filter fun o => l.overlapEligible entry o.2
    match el.find? (fun o => q.ovpv && o.1 == q.ovpref) with
    | some o => some o
    | none => el.head?
  else none

/-- Protecting cells whose `FLK` the links would raise above 15 (R123). -/
def Lane.flankOver (l : Lane) (fl : List Elem) : List Nat :=
  (fl.map (·.1)).filter fun p => decide (15 < l.cs p fFLK + (fl.filter fun e => e.1 == p).length)

/-- Selection and claim once the corridor bits are set (R119 to R124). `VISIT_LIM` and `FLK_LIM` are set here. A claim that would pass 15 flank
holders names the cell also when no path slot is free (R114; Assumption 97). -/
def Lane.selectFrom (l : Lane) (q : RleReq) (j : Nat) (f : Found) : Lane × RleRes :=
  let entry := q.tgt
  let paths := f.paths
  let refused := f.refused
  let visits := f.visits
  if f.excess then (l.rleFlag RLE_STAT_VISIT_LIM, { resNo 0x0B 0 2048 0 with limits := 1 })
  else
    let vs := (l.variants j).filter fun i => l.aValid i && l.aCls i q.cls && l.rState i == rsFree
    let c1 : List Cand := paths.filterMap fun p =>
      if q.viav && !(p.any fun e => e.1 == q.via) then none
      else (vs.find? fun i => l.aHash i == pathHash p).map fun i => (i, p)
    let n := c1.length
    let c2 := c1.filter fun c => (l.aConds c.1).all fun k => l.cs k fVAL == 1
    let c3 := c2.filter (l.stage3 entry q.cls)
    let c4 := c3.filter (l.stage4 entry q.cls)
    if c1.isEmpty then (l, resNo 0x07 (minOr0 refused) visits n)
    else if c2.isEmpty then
      (l, resNo 0x08 (minOr0 (c1.flatMap fun c => (l.aConds c.1).filter fun k => l.cs k fVAL == 0)) visits n)
    else if c3.isEmpty then (l, resNo 0x09 (minOr0 (c2.flatMap (l.stage3Bad entry q.cls))) visits n)
    else if c4.isEmpty then
      (l, resNo 0x0A (minOr0 (c3.flatMap fun c => (l.candOverlaps c).flatMap fun o => l.overlapRefusals entry o.2)) visits n)
    else
      let best := c4.foldl (fun (b : Option Cand) c => match b with
        | none => some c
        | some d => if l.aRank c.1 < l.aRank d.1 then some c else some d) none
      match best with
      | none => (l, resNo 0x0A 0 visits n)
      | some c =>
        let ov := l.pickOverlap entry q.cls q c
        let bad := l.flankOver (l.pathFlanks c.2 ++ l.ovFlanks (ov.map (·.2)))
        if !bad.isEmpty then
          (l.rleFlag RLE_STAT_FLK_LIM, { resNo 0x0B (minOr0 bad) visits n with ardi := some c.1, limits := 1 })
        else
          match l.freeSlot with
          | none => (l, { resNo 0x0B 0 visits n with ardi := some c.1 })
          | some slot =>
            (l.claimRoute c.1 q.cls slot c.2 ov, { resNo 0x00 0 visits n with ardi := some c.1, ov := ov.map (·.1) })

/-- Exploration and selection; a path that stood at 128 cells and was not extended counts as a limit met (R101, R102). -/
def Lane.selectSet (l : Lane) (q : RleReq) (j : Nat) : Lane × RleRes :=
  let f := l.explore q.tgt q.exit q.cls
  let r := l.selectFrom q j f
  (r.1, { r.2 with limits := r.2.limits + b2n f.long })

/-- Set or clear `COR` in a corridor. -/
def Lane.markCorridor (l : Lane) (es : List Elem) (v : Nat) : Lane := es.foldl (fun l e => l.putC e.1 fCOR v) l

/-- A SET request whose fields are in order (R119). -/
def Lane.processSet (l : Lane) (q : RleReq) : Lane × RleRes :=
  match (upTo 4096).find? fun j => l.pValid j && l.pEntry j == q.tgt && l.pExit j == q.exit with
  | none => (l, resNo 0x03 0 0 0)
  | some j =>
    if (l.variants j).all (fun i => !(l.aValid i && l.aCls i q.cls)) || (q.cls == 2 && l.cc q.tgt gACALL == 0) then
      (l, resNo 0x04 q.tgt 0 0)
    else if q.viav && !((l.corridor j).any fun e => e.1 == q.via) then (l, resNo 0x05 q.via 0 0)
    else if l.cs q.tgt fLKIND != 0 then (l, resNo 0x06 q.tgt 0 0)
    else
      let (l', r) := (l.markCorridor (l.corridor j) 1).selectSet q j
      (l'.markCorridor (l.corridor j) 0, r)

/-! ### CANCEL, PREP_RESET, KEY_RELEASE, KEY_RESTORE -/

/-- The route a CANCEL of `tgt` names: the one that holds the entry SIGNAL, else one that still holds cells (R133; Assumption 73). -/
def Lane.routeFrom (l : Lane) (tgt : Nat) : Option Nat :=
  let from_ := l.routes.filter fun i => l.entryOf i == tgt
  ((from_.find? fun i => l.cs tgt fLKIND == 1 && l.cs tgt fLRT == i).or (from_.find? fun i => !(l.heldBy i).isEmpty)).or from_.head?

/-- A CANCEL request (R133). -/
def Lane.processCancel (l : Lane) (q : RleReq) : Lane × RleRes :=
  match l.routeFrom q.tgt with
  | none => (l, resNo 0x0C q.tgt 0 0)
  | some i =>
    let st := l.rState i
    let ok : RleRes := { resNo 0x00 0 0 0 with ardi := some i }
    if st == rsReleasing then (l, { resNo 0x0D q.tgt 0 0 with ardi := some i })
    else if st == rsCancelling then (l, ok)
    else if st == rsClaimed || l.cs q.tgt fAPL == 0 then
      let l := l.putC q.tgt fASP 0
      (l.releaseCells i (l.heldBy i), ok)
    else (((l.putC q.tgt fASP 0).putC q.tgt fATMR 0).setRState i rsCancelling, ok)

/-- A PREP_RESET request (R142). -/
def Lane.processPrep (l : Lane) (q : RleReq) : Lane × RleRes :=
  let r := l.cell q.tgt
  if r.c gAXC == 1 && r.s fOCC == 0 && r.s fLKIND == 0 && r.s fPREP == 0 && !l.stale q.tgt then
    (l.putC q.tgt fPREP 1, resNo 0x00 0 0 0)
  else (l, resNo 0x0E q.tgt 0 0)

/-- The governed cells of a KEY_LOCK in use (R88). -/
def Lane.governed (l : Lane) (c : Nat) : List Nat := (upTo (min 4 (l.cc c gNGOV))).map fun k => l.cc c (gGOV k)

/-- A KEY_RELEASE request (R143). -/
def Lane.processKeyRelease (l : Lane) (q : RleReq) : Lane × RleRes :=
  let r := l.cell q.tgt
  let gs := l.governed q.tgt
  let bad := gs.filter fun g => l.cs g fLKIND != 0 || l.cs g fFLK != 0
  if l.stale q.tgt || r.s fKEY != 1 || r.s fRELQ != 0 then (l, resNo 0x0F q.tgt 0 0)
  else if !bad.isEmpty then (l, resNo 0x0F (minOr0 bad) 0 0)
  else (gs.foldl (fun l g => l.putC g fKEYL 1) (l.putC q.tgt fRELQ 1), resNo 0x00 0 0 0)

/-- A KEY_RESTORE request (R143). -/
def Lane.processKeyRestore (l : Lane) (q : RleReq) : Lane × RleRes :=
  let r := l.cell q.tgt
  if l.stale q.tgt || r.s fRELQ != 1 || r.s fKEY != 1 then (l, resNo 0x0F q.tgt 0 0)
  else ((l.governed q.tgt).foldl (fun l g => l.putC g fKEYL 0) ((l.putC q.tgt fRELQ 0).putC q.tgt fRELG 0), resNo 0x00 0 0 0)

/-! ### One request -/

/-- Field errors of R114 (BAD_REQUEST). -/
def RleReq.bad (q : RleReq) : Bool :=
  let set := q.op == 1
  decide (q.op = 0) || decide (5 < q.op) || getField q.w0 14 8 != 0 || getField q.w1 14 3 != 0 || getField q.w2 5 11 != 0 ||
    getField q.w3 10 22 != 0 || (decide (512 ≤ q.srcx) && decide (q.srcx ≤ 0x3FE)) || (if set then q.cls == 3 else q.cls != 0) ||
    (!set && (q.exit != 0 || q.viav || q.via != 0)) || (!q.viav && q.via != 0) || (q.ovpv && !(set && q.cls == 0)) ||
    (!q.ovpv && q.ovpref != 0)

/-- Target cells of the wrong type (BAD_TARGET). -/
def Lane.badTargets (l : Lane) (q : RleReq) : List Nat :=
  let want := if q.op ≤ 2 then tSIGNAL else if q.op = 3 then tSECTION else tKEYLOCK
  (if l.typ q.tgt == want then [] else [q.tgt]) ++
    (if q.op = 1 && l.typ q.exit != tSIGNAL && l.typ q.exit != tBORDER then [q.exit] else [])

/-- Process one request (R111 to R143). -/
def Lane.processRequest (l : Lane) (q : RleReq) : Lane × RleRes :=
  if q.bad then (l, resNo 0x01 0 0 0)
  else if !(l.badTargets q).isEmpty then (l, resNo 0x02 (minOr0 (l.badTargets q)) 0 0)
  else if q.op = 1 then l.processSet q
  else if q.op = 2 then l.processCancel q
  else if q.op = 3 then l.processPrep q
  else if q.op = 4 then l.processKeyRelease q
  else l.processKeyRestore q

/-- Note for the recorder (R102): stroke number, request number, `RID`. -/
def Lane.noteLimit (l : Lane) (n : Nat) (r : RleRes) : Lane :=
  l.note 14 2 102 [(4, l.stroke.toNat), (2, n), (2, match r.ardi with | some i => l.aRid i | none => 0)]

/-- Request `n` (from 0): processed, its result written, `RLE_VMAX` raised, each run-time limit it met noted (R101, R102, R104). -/
def Lane.requestStep (l : Lane) (n : Nat) : Lane :=
  let q := l.request n
  let (l', r) := l.processRequest q
  let l' := l'.setRgs (resAddr n) (l'.resWords q r)
  let l' := l'.fset RLE_VMAX_VMAX (max (l'.fget RLE_VMAX_VMAX) r.visits)
  (upTo r.limits).foldl (fun (x : Lane) _ => x.noteLimit (n + 1) r) l'

end Sys2Proof.Machine
end

