-- ==== Sys2Proof/Machine/RleSweep.lean ====
section
/-! DEFINITION. The phases of a `STROKE` command: input, sweeps to a fixpoint, output (R77, R105 to R110, R113, R127 to R141, R318 to
R320, R575). -/

namespace Sys2Proof.Machine

/-! ### Input phase (R105 to R110) -/

/-- The crossing's standing command: 0 none, 1 close, 2 open (R135, R320). -/
def Lane.lcCmd (l : Lane) (c : Nat) : Nat := if l.rle.closeCmd.contains c then 1 else if l.rle.openCmd.contains c then 2 else 0

/-- Timers of one cell advance by at most one (R106); the section timer runs only as R137 says. -/
def Lane.advance (l : Lane) (c : Nat) (r : CellRec) : CellRec :=
  let t := r.typ
  if t == tSECTION then
    if r.s fLKIND == 1 && l.rState (r.s fLRT) == rsReleasing && !l.stale c && r.s fOCC == 1 && r.s fRSEQ == 0 then r.inc fRTMR
    else r.put fRTMR 0
  else if isPsd t then r.inc fMTMR
  else if t == tCROSSING then r.inc fCTMR
  else if t == tOVERLAP then (if r.s fORUN == 1 then r.inc fOTMR else r)
  else if t == tSIGNAL then
    (if r.s fLKIND == 1 && l.rState (r.s fLRT) == rsCancelling && l.entryOf (r.s fLRT) == c then r.inc fATMR else r)
  else r

/-- `PVAL` to `VAL` (R89); `PRV` to 0 (Proving and aspects). -/
def CellRec.startStroke (r : CellRec) : CellRec :=
  let r := if r.typ == tCONDITION then r.put fVAL (r.s fPVAL) else r
  r.put fPRV 0

/-- Word 0 of an area slot (R107). -/
def Lane.slotWord (l : Lane) (base conn : Nat) : Nat := memNat l.sram (base + 256 * conn) 4
/-- `SVALID` of an input slot. -/
def Lane.slotValid (l : Lane) (conn : Nat) : Bool := getField (l.slotWord (l.rg RLE_INBASE).toNat conn) 31 1 == 1

/-- The detected report of a bound cell whose slot is valid: byte 1 of the record, 0 when it is taken as `EV` = 0 (R108, R319), and
whether its type code differs. -/
def Lane.detected (l : Lane) (r : CellRec) : Option Nat × Bool :=
  let base := (l.rg RLE_INBASE).toNat
  let conn := r.c fCONN
  let e := r.c fELEM
  let len := l.slotWord base conn % 256
  if len < 4 * e + 4 then (none, false)
  else
    let b0 := (memByte l.sram (base + 256 * conn + 4 + 4 * e)).toNat
    let b1 := (memByte l.sram (base + 256 * conn + 5 + 4 * e)).toNat
    if b0 / 16 != r.typ then (none, true)
    else if getField b0 3 1 = 1 then (some b1, false) else (none, false)

/-- A SECTION's report (R110): `occ` 0 or 3 is disturbed. -/
def CellRec.takeOcc (r : CellRec) (occ : Nat) : CellRec :=
  if occ == 1 || occ == 2 then
    (if r.s fOCC != 0 || r.c gAXC == 0 || r.s fPREP == 1 then r.put fOCC occ else r)
  else (r.put fOCC 0).put fPREP 0

/-- A bound cell takes its report (R318, R319): `b` is byte 1, 0 for `EV` = 0; a code the field does not list is code 0. -/
def CellRec.takeReport (r : CellRec) (b : Nat) : CellRec :=
  let t := r.typ
  if t == tSECTION then r.takeOcc (b % 4)
  else if isPsd t then r.put fPOS (b % 4)
  else if t == tSIGNAL then ((r.put fDET (b % 16)).put fDETV (getField b 4 1)).put fLAMP (getField b 5 1)
  else if t == tCROSSING then r.put fLCS (if b % 8 ≤ 5 then b % 8 else 0)
  else if t == tKEYLOCK then r.put fKEY (b % 4)
  else if t == tBORDER then (r.put fNST (if b % 4 ≤ 2 then b % 4 else 0)).put fINL (getField b 2 1)
  else r

/-- One cell in the input phase; `stale` is this stroke's list. -/
def Lane.inputCell (l : Lane) (stale : List Nat) (c : Nat) (r0 : CellRec) : CellRec :=
  let r := (l.advance c r0).startStroke
  let st := stale.contains c
  let r := if r.c fBND == 1 && !st then r.takeReport ((l.detected r).1.getD 0) else r
  if r.typ == tSECTION then (if st || r.s fOCC != 1 then r.put fRTMR 0 else r)
  else if r.typ == tCROSSING then
    let r := if !st && r.s fLCS == 1 && l.rle.openWait.contains c then r.put fCTMR 0 else r
    r.put fCLP (b2n (!st && r.s fLCS == 3 && l.lcCmd c == 1))
  else r

/-- The input phase (R105): stale cells are those bound to a slot with `SVALID` = 0 (R108). -/
def Lane.inputPhase (l : Lane) : Lane :=
  let bound := l.cells.filter fun e => e.2.c fBND == 1
  let stale := (bound.filter fun e => !l.slotValid (e.2.c fCONN)).map (·.1)
  let odd := bound.filter fun e => !stale.contains e.1 && (l.detected e.2).2
  let l' := { l with cells := sparseMap (fun _ => cellZero) (l.inputCell stale) l.cells }
  let wait := l.rle.openWait.filter fun c => stale.contains c || l'.cs c fLCS != 1
  odd.foldl (fun m e => m.note 14 2 319 [(2, e.2.c fCONN), (1, e.2.c fELEM)])
    { l' with rle := { l.rle with stale := stale, openWait := wait } }

/-! ### Proof (R127) -/

/-- Whether a cell is proven, from the state at the start of the sweep. -/
def Lane.proven (l : Lane) (c : Nat) (r : CellRec) : Bool :=
  let t := r.typ
  if l.stale c then false
  else if t == tBORDER then r.s fOUTL == 1 && r.s fNST == 1 && r.s fINL == 0
  else if r.s fLKIND == 0 && r.s fFLK == 0 then false
  else if t == tSECTION then
    if r.s fLKIND == 1 && l.rCls (r.s fLRT) != 0 then
      r.s fOCC == 1 || (r.s fOCC == 2 && l.firstSection (r.s fLRT) != some c)
    else r.s fOCC == 1 && r.s fPREP == 0
  else if isPsd t then r.s fPOS == r.s fREQ
  else if t == tDIAMOND || t == tOVERLAP then true
  else if t == tCROSSING then r.s fLCS == 3 && r.s fCLP == 1
  else if t == tSIGNAL then
    if r.s fLKIND == 1 && l.entryOf (r.s fLRT) == c then r.s fDETV == 1 && r.s fLAMP == 0
    else r.s fASP == 0 && r.s fDETV == 1 && r.s fDET == 0
  else false

/-! ### Routes (R128 to R141) -/

/-- The protecting cells of the flank links route `i` applies. -/
def Lane.routeFlanks (l : Lane) (i : Nat) : List Nat :=
  (((l.heldBy i).flatMap fun c => if isPsd (l.typ c) then l.flanks (c, l.cs c fREQ) else []).map (·.1))

/-- R128 for route `i`, from the start of the sweep. Every element of the overlap's list must be proven, one that another route has taken over
(R126) among them (Assumption 98). -/
def Lane.clearable (l : Lane) (i : Nat) : Bool :=
  let body := (l.pathOf i).dropLast.map (·.1)
  let x := l.exitOf i
  let ovs := match l.routeOverlap i with | none => [] | some o => o :: (l.ovList o).map (·.1)
  (body ++ (if l.typ x == tBORDER then [x] else []) ++ ovs ++ l.routeFlanks i).all (fun c => l.cs c fPRV == 1) &&
    (l.aConds i).all (fun k => l.cs k fVAL == 1) && l.cs (l.entryOf i) fFLK == 0

/-- The target aspect (R129). -/
def Lane.targetAspect (l : Lane) (i : Nat) : Nat :=
  let e := l.entryOf i
  let x := l.exitOf i
  if l.rCls i == 1 then l.cc e gASHUNT else if l.rCls i == 2 then l.cc e gACALL
  else if l.typ x == tBORDER || l.cs x fASP != 0 then l.cc e gAMAIN else 1

/-- A SECTION is complete for release (R137). -/
def Lane.complete (l : Lane) (c : Nat) : Bool :=
  let r := l.cell c
  !l.stale c && r.s fOCC == 1 &&
    (r.s fRSEQ == 2 || (r.c gTRELEN == 1 && r.s fRSEQ == 0 && decide (r.c gTREL ≤ r.s fRTMR)))

/-- How many path cells of a RELEASING route have a governing SECTION that, with every SECTION before it, is complete or has released
(R138). `done` says so far; a cell waits for the first SECTION at or after it, and the last cells for the last SECTION. -/
def Lane.releasePrefix (l : Lane) (i : Nat) : Nat :=
  let body := ((l.pathOf i).dropLast).map (·.1)
  let ok (k c : Nat) : Bool := decide (k < l.rPos i) || l.complete c
  let secs := (body.zipIdx.filter fun x => l.typ x.1 == tSECTION)
  match (secs.find? fun x => !ok x.2 x.1) with
  | none => if secs.isEmpty then 0 else body.length
  | some x =>
    let before := (secs.filter fun y => y.2 < x.2).map (·.2)
    match before.getLast? with
    | none => 0
    | some k => k + 1

/-- The path cells of a RELEASING route that release in this sweep, and the new `RPOS` (R138). -/
def Lane.releasing (l : Lane) (i : Nat) : List Nat × Nat :=
  let body := ((l.pathOf i).dropLast).map (·.1)
  let n := max (l.rPos i) (l.releasePrefix i)
  (((body.take n).drop (l.rPos i)).filter fun c => l.cs c fLKIND == 1 && l.cs c fLRT == i, n)

/-- A cell is still held by the overlap of route `i`. -/
def Lane.ovHeld (l : Lane) (i c : Nat) : Bool := l.cs c fLKIND == 2 && l.cs c fLRT == i

/-- Every SECTION of an overlap's list is clear; a stale one counts as not clear (R140). -/
def Lane.ovClear (l : Lane) (o : Nat) : Bool :=
  (l.ovList o).all fun e => l.typ e.1 != tSECTION || (!l.stale e.1 && l.cs e.1 fOCC == 1)

/-- What the overlap of RELEASING route `i` releases in this sweep (R140). -/
def Lane.ovReleasing (l : Lane) (i : Nat) : List Nat :=
  match l.routeOverlap i with
  | none => []
  | some o =>
    if l.ovHeld i o && l.cs o fORUN == 1 && l.ovClear o && decide (l.cc o gOREL ≤ l.cs o fOTMR) then
      (o :: (l.ovList o).map (·.1)).filter (l.ovHeld i)
    else []

/-- Passage (R136). -/
def Lane.passage (l : Lane) (i : Nat) : Bool :=
  match l.firstSection i with
  | none => false
  | some c => !l.stale c && l.cs c fRSEQ != 0

/-- The new state of route `i` and the cells it releases in this sweep (R130, R134, R136, R138, R140). -/
def Lane.routeNext (l : Lane) (i : Nat) : Nat × List Nat :=
  let st := l.rState i
  if st == rsReleasing then (st, (l.releasing i).1 ++ l.ovReleasing i)
  else if l.passage i then (rsReleasing, [])
  else if st == rsCancelling then
    (st, if l.cc (l.entryOf i) gALT ≤ l.cs (l.entryOf i) fATMR then l.heldBy i else [])
  else if l.clearable i then (rsCleared, [])
  else if st == rsCleared then (rsHeld, [])
  else (st, [])

/-- Aspect and approach lock of a SIGNAL after a sweep (R128, R129, R132): only the entry of a route shows an aspect. -/
def Lane.signalNext (l : Lane) (c : Nat) (r : CellRec) : CellRec :=
  let i := r.s fLRT
  if r.s fLKIND == 1 && l.entryOf i == c && l.rState i != rsFree then
    let st := l.rState i
    let new := (l.routeNext i).1
    let asp := if new == rsCleared && (st == rsClaimed || st == rsCleared || st == rsHeld) then l.targetAspect i else 0
    let near := l.stale (r.c gAPS) || l.cs (r.c gAPS) fOCC != 1
    let keep := new == rsCleared || new == rsHeld || new == rsCancelling
    (r.put fASP asp).put fAPL (b2n (keep && (r.s fAPL == 1 || (r.s fASP != 0 && r.c gALT != 0 && near))))
  else (r.put fASP 0).put fAPL 0

/-! ### Cells in a sweep -/

/-- `RSEQ` and `PREP` of a SECTION (R137, R142). -/
def Lane.sectionNext (l : Lane) (c : Nat) (r : CellRec) : CellRec :=
  if l.stale c || r.s fOCC == 0 || !(r.s fLKIND == 1 || r.s fPREP == 1) then r
  else if r.s fOCC == 2 then r.put fRSEQ 1
  else if r.s fOCC == 1 && r.s fRSEQ == 1 then
    if r.s fPREP == 1 then (r.put fPREP 0).put fRSEQ (if r.s fLKIND == 1 then 2 else 0) else r.put fRSEQ 2
  else r

/-- The end of a move (R131). -/
def Lane.moveNext (l : Lane) (c : Nat) (r : CellRec) : CellRec :=
  if l.stale c || r.s fMOV == 0 then r
  else if r.s fPOS == r.s fCMD then (r.put fMOV 0).put fMFAIL 0
  else if r.c gMTO ≤ r.s fMTMR then (r.put fMFAIL 1).put fMOV 0
  else r

/-- The command of a crossing (R135): 0 none, 1 close, 2 open; the first row that applies decides. -/
def Lane.crossingNext (l : Lane) (c : Nat) (r : CellRec) : Nat :=
  let prev := l.lcCmd c
  let strike := r.c gSTRIKE
  let secs := (upTo 4).filterMap fun p => match l.neighbour c p with
    | none => none
    | some n => if l.typ n.1 == tSECTION then some n.1 else none
  if r.s fLKIND != 0 then
    (if prev != 1 && !l.stale c && r.s fLCS == 1 && decide (r.s fCTMR < r.c gROMIN) then 0 else 1)
  else if l.stale strike || l.cs strike fOCC != 1 then 1
  else if !l.stale c && (strike :: secs).all (fun x => l.cs x fOCC == 1 && !l.stale x) then 2
  else prev

/-- Whether a crossing meets its proof condition of R127: closed and `CLP`, whether it holds a lock or `STRIKE` closed it (Assumption 98). -/
def Lane.crossingProven (l : Lane) (c : Nat) : Bool := !l.stale c && l.cs c fLCS == 3 && l.cs c fCLP == 1

/-- `RELG` of a KEY_LOCK (R143). -/
def Lane.keyNext (l : Lane) (c : Nat) (r : CellRec) : CellRec :=
  if !l.stale c && r.s fRELQ == 1 && (l.governed c).all (fun g => !l.stale g && (l.cs g fPOS == 1 || l.cs g fPOS == 2)) then
    r.put fRELG 1
  else r

/-- `ORUN` and `OTMR` of an OVERLAP (R140). -/
def Lane.overlapNext (l : Lane) (c : Nat) (r : CellRec) : CellRec :=
  let i := r.s fLRT
  if r.s fLKIND == 2 && l.rState i == rsReleasing && l.routeOverlap i == some c then
    if r.s fORUN == 0 then
      match (((l.pathOf i).dropLast.filter fun e => l.typ e.1 == tSECTION).getLast?) with
      | none => r
      | some e => if l.cs e.1 fRSEQ != 0 || !(l.cs e.1 fLKIND == 1 && l.cs e.1 fLRT == i) then r.put fORUN 1 else r
    else if !l.ovClear c then r.put fOTMR 0
    else r
  else r

/-- One cell in a sweep, releases apart: a function of the state at the start of the sweep (R77). -/
def Lane.sweepCell (l : Lane) (c : Nat) (r : CellRec) : CellRec :=
  let t := r.typ
  let r' :=
    if t == tSECTION then l.sectionNext c r
    else if isPsd t then l.moveNext c r
    else if t == tSIGNAL then l.signalNext c r
    else if t == tKEYLOCK then l.keyNext c r
    else if t == tOVERLAP then l.overlapNext c r
    else if t == tCROSSING then (if l.crossingNext c r == 1 && l.lcCmd c != 1 then r.put fCTMR 0 else r)
    else r
  r'.put fPRV (b2n (l.proven c r))

/-- A crossing not proven within `CMAX` strokes of its close command, and not yet recorded for it (R135). -/
def Lane.crossingLate (l : Lane) (c : Nat) : Bool :=
  let r := l.cell c
  r.typ == tCROSSING && l.lcCmd c == 1 && !l.rle.xrec.contains c && !l.crossingProven c && decide (r.c gCMAX ≤ r.s fCTMR)

/-- The crossings to be recorded in a sweep. -/
def Lane.lateCrossings (l : Lane) : List Nat := (l.cells.map (·.1)).filter l.crossingLate

/-- The recorder entry of a crossing not closed in time (R135). -/
def Lane.noteCrossing (l : Lane) (c : Nat) : Lane := l.note 14 2 135 [(4, l.stroke.toNat), (2, c)]

/-- Crossing commands after a sweep (R135). -/
def Lane.sweepCrossings (l : Lane) : RleInt :=
  let lcs := l.cells.filter fun e => e.2.typ == tCROSSING
  let now := lcs.map fun e => (e.1, l.lcCmd e.1, l.crossingNext e.1 e.2)
  let late := l.lateCrossings
  let inTime := (now.filter fun x => x.2.1 == 1 && !l.rle.xrec.contains x.1 && l.crossingProven x.1).map (·.1)
  let settled := l.rle.xrec ++ late ++ inTime
  { l.rle with
    closeCmd := (now.filter fun x => x.2.2 == 1).map (·.1),
    openCmd := (now.filter fun x => x.2.2 == 2).map (·.1),
    xrec := (now.filter fun x => x.2.1 == 1 && settled.contains x.1).map (·.1),
    openWait := (now.filter fun x => x.2.2 != 1 && ((x.2.2 == 2 && x.2.1 != 2) || l.rle.openWait.contains x.1)).map (·.1) }

/-- A route whose locks are all gone returns to FREE and gives its path slot back (R141). -/
def Lane.freeRoute (l : Lane) (i : Nat) : Lane := (l.writeSlot (l.rSlot i) []).setRw i 0

/-- One sweep (R77): every cell and every route from the state at its start; then releases; then routes without a lock are freed. -/
def Lane.sweep (l : Lane) : Lane :=
  let rs := l.routes
  let gone := rs.filter fun i => (l.heldBy i).isEmpty
  let live := rs.filter fun i => !(l.heldBy i).isEmpty
  let l1 := { l with cells := sparseMap (fun _ => cellZero) l.sweepCell l.cells, rle := l.sweepCrossings }
  let l2 := live.foldl (fun (m : Lane) i =>
    let m := m.setRState i (l.routeNext i).1
    if l.rState i == rsReleasing then m.setRw i (bvSet (m.rw i) 0 8 (l.releasing i).2) else m) l1
  let l3 := live.foldl (fun (m : Lane) i => m.releaseCells i (l.routeNext i).2) l2
  l.lateCrossings.foldl Lane.noteCrossing (gone.foldl Lane.freeRoute l3)

/-- Whether a sweep changed the state (R101). -/
def Lane.sweepChanged (l l' : Lane) : Bool :=
  decide (l.cells ≠ l'.cells) || decide (l.rstat ≠ l'.rstat) || decide (l.rle.closeCmd ≠ l'.rle.closeCmd) ||
    decide (l.rle.openCmd ≠ l'.rle.openCmd)

/-- Sweeps to a fixpoint, at most `n`: the lane, the sweeps run, whether the last one still changed the state. -/
def Lane.sweeps : Nat → Nat → Lane → Lane × Nat × Bool
  | 0, k, l => (l, k, true)
  | n + 1, k, l =>
    let l' := l.sweep
    if l.sweepChanged l' then Lane.sweeps n (k + 1) l' else (l', k + 1, false)

/-- The result of sweep 8 judged against the start of the stroke `l0` (R101). A route that held no lock at the start of the stroke, and
so was claimed in it, stays CLAIMED. -/
def Lane.fixLimit (l0 l : Lane) : Lane :=
  let lower (c : Nat) (r : CellRec) : CellRec :=
    if r.typ == tSIGNAL && decide (l0.cs c fASP < r.s fASP) then r.put fASP (l0.cs c fASP) else r
  let l1 := { l with cells := sparseMap (fun _ => cellZero) lower l.cells }
  let l2 := l1.routes.foldl (fun (m : Lane) i =>
    if m.rState i == rsCleared && l0.rState i != rsCleared then
      m.setRState i (if l0.rState i == rsFree then rsClaimed else l0.rState i)
    else m) l1
  (l2.rleFlag RLE_STAT_FIX_LIM).note 14 2 102 [(4, l.stroke.toNat)]

/-! ### Output phase (R109, R320) -/

/-- Byte 1 of the command record of a bound cell: its full commanded state (R320). -/
def Lane.commandByte (l : Lane) (c : Nat) (r : CellRec) : Nat :=
  let t := r.typ
  if t == tSECTION then r.s fPREP
  else if isPsd t then r.s fCMD
  else if t == tSIGNAL then r.s fASP
  else if t == tCROSSING then l.lcCmd c
  else if t == tKEYLOCK then r.s fRELG
  else if t == tBORDER then r.s fOUTL
  else 0

/-- Byte 1 of the restrictive command of a cell type (R180). -/
def restrictiveByte (t : Nat) : Nat := if t == tCROSSING then 1 else if t == tBORDER then 1 else 0

/-- The payload of connection `k`'s slot from a byte per bound cell; nothing when the slot has no bound cell (R109). -/
def Lane.slotPayload (l : Lane) (byte : Nat → CellRec → Nat) (k : Nat) : Option (List Byte) :=
  let bound := l.cells.filter fun e => e.2.c fBND == 1 && e.2.c fCONN == k
  if bound.isEmpty then none
  else
    let top := (bound.map fun e => e.2.c fELEM).foldl max 0
    some ((upTo (top + 1)).flatMap fun e =>
      match bound.find? fun x => x.2.c fELEM == e with
      | none => zeros 4
      | some x => [BitVec.ofNat 8 (x.2.typ * 16 + 8), BitVec.ofNat 8 (byte x.1 x.2), 0, 0])

/-- Write slot `k` of an area at `base`. -/
def slotPut (m : List Host.Cell) (base k : Nat) (p : Option (List Byte)) : List Host.Cell :=
  match p with
  | none => memPutNat m (base + 256 * k) 4 0
  | some bs => memPutBytes (memPutNat m (base + 256 * k) 4 (0x80000000 + bs.length)) (base + 256 * k + 4) bs

/-- The output phase: the slot of each of the 512 connections (R109). -/
def Lane.outputPhase (l : Lane) : Lane :=
  let base := (l.rg RLE_OUTBASE).toNat
  { l with sram := (upTo 512).foldl (fun m k => slotPut m base k (l.slotPayload l.commandByte k)) l.sram }

/-! ### The command -/

/-- The four phases in order (R105). -/
def Lane.rleRun (l0 : Lane) : Lane :=
  let n := l0.fget RLE_NREQ_NREQ
  let l := l0.inputPhase
  let l := (upTo n).foldl Lane.requestStep l
  let (l, k, excess) := Lane.sweeps 8 0 l
  let l := if excess then l0.fixLimit l else l
  let l := l.outputPhase
  (l.fset RLE_STAT_NDONE n).fset RLE_STAT_SWEEPS k

end Sys2Proof.Machine
end

