-- ==== Sys2Proof/Machine/Xl.lean ====
section
/-! DEFINITION. The cross-lane links: frames, sequence, retransmission, link state and what a lost link does to the voters (R28, R29,
R160, R161, R183). -/

namespace Sys2Proof.Machine

/-- `UPk`. -/
def xlUp (k : Nat) : Fld := if k = 0 then XL_STAT_UP0 else XL_STAT_UP1
/-- `DOWNk`. -/
def xlDown (k : Nat) : Fld := if k = 0 then XL_STAT_DOWN0 else XL_STAT_DOWN1
/-- `XL_ERRk`. -/
def xlErr (k : Nat) : Nat := if k = 0 then XL_ERR0 else XL_ERR1
/-- `XL_ERRk.RETRY`. -/
def xlRetry (k : Nat) : Fld := if k = 0 then XL_ERR0_RETRY else XL_ERR1_RETRY
/-- `XL_ERRk.SEQERR`. -/
def xlSeqErr (k : Nat) : Fld := if k = 0 then XL_ERR0_SEQERR else XL_ERR1_SEQERR
/-- `XL_ERRk.CRCERR`. -/
def xlCrcErr (k : Nat) : Fld := if k = 0 then XL_ERR0_CRCERR else XL_ERR1_CRCERR

/-- The lane at the far end of link `k` (XL registers). -/
def Lane.farEnd (l : Lane) (k : Nat) : LaneId := if k = 0 then l.id.succ else l.id.pred
/-- The link of a lane that runs to peer `p`. -/
def Lane.linkTo (l : Lane) (p : LaneId) : Nat := if p = l.id.succ then 0 else 1
/-- Link `k` is up, as the register shows it. -/
def Lane.linkUp (l : Lane) (k : Nat) : Bool := l.on (xlUp k)

/-- A link goes down (R160); raising line 3 is Assumption 14. A readmission is abandoned (R171). -/
def Lane.takeLinkDown (l : Lane) (k : Nat) : Lane :=
  if l.linkUp k then
    let l := (((l.fset (xlUp k) 0).fset (xlDown k) 1).raise 3).abandonReadm 0x01
    l.modLink k fun e => { e with goodRun := 0, retryAsked := false }
  else l.modLink k fun e => { e with goodRun := 0, retryAsked := false }

/-- XL_IDLE_SEND: an idle frame every 2 µs when nothing else is sent (R160). -/
def Lane.idleSend (l : Lane) (k t : Nat) : Lane :=
  let e := l.link k
  if e.lastSent + 2000 ≤ t ∨ e.lastSent = 0 then l.modLink k fun e => { e with lastSent := t, txSeq := e.txSeq + 1 } else l

/-- What the CRC-32C of a frame covers: sequence number, then body (R28; the coverage is PRESUMED, Assumption 16). -/
def xlCrcOf (seq : Word) (body : List Byte) : Nat := crc32c (beBytes 4 seq.toNat ++ body)

/-- XL_FRAME (R160): a frame that fails its CRC-32C or its sequence is asked for once more; a second failure takes the link down. While the
link is down, valid frames in a row are counted; the first of a run sets the expected sequence. -/
def Lane.linkFrame (l : Lane) (k : Nat) (seq : Word) (body : List Byte) (crc : Word) (again : Bool) (t : Nat) : Lane :=
  let e := l.link k
  let crcOk := crc.toNat == xlCrcOf seq body
  let seqOk := seq == e.expSeq || (!l.linkUp k && e.goodRun == 0)
  if crcOk && seqOk then
    l.modLink k fun e => { e with lastValid := t, expSeq := seq + 1, goodRun := satInc 1000 e.goodRun, retryAsked := false }
  else
    let l := if crcOk then l.fsat (xlSeqErr k) 1 else l.fsat (xlCrcErr k) 1
    if !l.linkUp k then l.modLink k fun e => { e with goodRun := 0 }
    else if again then l.takeLinkDown k
    else (l.fsat (xlRetry k) 1).modLink k fun e => { e with retryAsked := true, goodRun := 0 }

/-- XL_LINK_TIMEOUT: no valid frame for 10 µs (R160). -/
def Lane.linkTimeout (l : Lane) (k t : Nat) : Lane :=
  if l.linkUp k && decide ((l.link k).lastValid + 10000 ≤ t) then l.takeLinkDown k else l

/-- XL_RETRAIN_TIMER: a down link retrains every 10 ms (R160). -/
def Lane.retrainTimer (l : Lane) (k t : Nat) : Lane :=
  let e := l.link k
  if !l.linkUp k && (e.lastTrain == 0 || decide (e.lastTrain + 10000000 ≤ t)) then
    l.modLink k fun e => { e with lastTrain := t, goodRun := 0 }
  else l

/-- XL_LINK_UP: after 1,000 valid frames in a row (R160). -/
def Lane.linkComesUp (l : Lane) (k : Nat) : Lane := if (l.link k).goodRun < 1000 then l else l.fset (xlUp k) 1

/-- A change of link state takes effect at a stroke catch or vote instant (R160). -/
def Lane.takeLinks (l : Lane) : Lane :=
  (l.modLink 0 fun e => { e with eff := l.linkUp 0 }).modLink 1 fun e => { e with eff := l.linkUp 1 }

/-- The link from `x` to the next lane is down at either end. -/
def State.linkDown (s : State) (x : LaneId) : Bool := !(s.lane x).linkUp 0 || !(s.lane x.succ).linkUp 1

/-- The links of the module that are down, each by the lane it runs from. -/
def State.downLinks (s : State) : List LaneId := allLanes.filter s.linkDown

/-- The lanes of a voter set that may stay (R161): of three lanes by the table; of two, both while their own link is up. -/
def State.linkStay (s : State) (set : List LaneId) : List LaneId :=
  match set with
  | [x, y] => if s.linkDown (if y = x.succ then x else y) then [] else [x, y]
  | [_, _, _] =>
    match s.downLinks with
    | [] => set
    | [x] => set.filter fun l => l != x.succ
    | [_, _] => set.filter fun l => !s.linkDown l || !s.linkDown l.pred
    | _ => []
  | _ => set

/-- A retrain written through `XL_CTRL` takes the link down first (R183). -/
def Lane.retrainNow (l : Lane) (k now : Nat) : Lane := (l.takeLinkDown k).modLink k fun (e : LinkEnd) => { e with lastTrain := now }

/-- A link that goes down abandons a readmission in every lane that has asked for one, whichever lanes it joins (R171). -/
def State.linksAfter (s s' : State) : State :=
  if s'.downLinks.all (fun x => s.downLinks.contains x) then s'
  else allLanes.foldl (fun (z : State) y => z.modLane y (·.abandonReadm 0x01)) s'

/-! ### Meanings -/

/-- XL_IDLE_SEND (R160). -/
def execXlIdleSend (l : LaneId) (link t : Nat) (s : State) : Host.Outcome State Fault Refusal :=
  done ((s.laneAt l t).upLane l (·.idleSend link t))
/-- XL_FRAME (R160). -/
def execXlFrame (l : LaneId) (link : Nat) (seq : Word) (body : List Byte) (crc : Word) (again : Bool) (t : Nat) (s : State) :
    Host.Outcome State Fault Refusal :=
  done (s.linksAfter ((s.laneAt l t).upLane l (·.linkFrame link seq body crc again t)))
/-- XL_LINK_TIMEOUT (R160). -/
def execXlLinkTimeout (l : LaneId) (link t : Nat) (s : State) : Host.Outcome State Fault Refusal :=
  done (s.linksAfter ((s.laneAt l t).upLane l (·.linkTimeout link t)))
/-- XL_RETRAIN_TIMER (R160). -/
def execXlRetrainTimer (l : LaneId) (link t : Nat) (s : State) : Host.Outcome State Fault Refusal :=
  done ((s.laneAt l t).upLane l (·.retrainTimer link t))
/-- XL_LINK_UP (R160). -/
def execXlLinkUp (l : LaneId) (link : Nat) (s : State) : Host.Outcome State Fault Refusal := done (s.upLane l (·.linkComesUp link))
/-- XL_RETRAIN (R183): the link goes down first. -/
def execXlRetrain (l : LaneId) (link : Nat) (s : State) : Host.Outcome State Fault Refusal :=
  done (s.linksAfter (s.upLane l (·.retrainNow link s.now)))
/-- XL_ERR_CLEAR (R183). -/
def execXlErrClear (l : LaneId) (link : Nat) (s : State) : Host.Outcome State Fault Refusal :=
  done (s.upLane l (·.setRg (xlErr link) 0))

end Sys2Proof.Machine
end

