-- ==== Sys2Proof/Machine/Vote.lean ====
section
/-! DEFINITION. The vote unit: contexts and images, the three levels, verdicts, leaving, easy all and restrictive telegrams (R150 to R159,
R162 to R166, R174, R177 to R182). -/

namespace Sys2Proof.Machine

/-! ### Contexts and images (R150 to R153) -/

/-- A region of a context (R151, R152). -/
structure Region where
  kind : Nat
  base : Nat
  nseg : Nat
  safe : Bool
  field : Bool
  tlg : Bool
  deriving DecidableEq, Repr

/-- Kind of region `m` of context `c`; the first two of context 0 are fixed. -/
def Lane.rgnKind (l : Lane) (c m : Nat) : Nat := if c = 0 ∧ m = 0 then 1 else if c = 0 ∧ m = 1 then 2 else l.fget (VOTE_RGN_DESC_KIND (8 * c + m))

/-- Region `m` of context `c` (R151, R152). -/
def Lane.region (l : Lane) (c m : Nat) : Region :=
  let i := 8 * c + m
  let k := l.rgnKind c m
  let f := l.on (VOTE_RGN_DESC_FIELD i)
  let g := l.on (VOTE_RGN_DESC_TLG i)
  { kind := k, base := l.fget (VOTE_RGN_BASE_BASE i) * 64, nseg := if k = 1 then 2048 else if k = 2 then 256 else l.fget (VOTE_RGN_DESC_NSEG i),
    safe := l.on (VOTE_RGN_DESC_SAFE i) || f || g || k == 1 || k == 2, field := f, tlg := g }

/-- Regions in use of a context; context 0 always has its two fixed ones. -/
def Lane.regions (l : Lane) (c : Nat) : List Region :=
  let n := l.fget (VOTE_CFG_NRGN c) + 1
  (upTo (if c = 0 then max 2 n else n)).map (l.region c)

/-- A context is enabled; context 0 always is. -/
def Lane.ctxEn (l : Lane) (c : Nat) : Bool := c == 0 || l.on (VOTE_CFG_EN c)

/-- Segments of a context. -/
def Lane.nseg (l : Lane) (c : Nat) : Nat := ((l.regions c).map (·.nseg)).sum

/-- Some region of a context is a safety region (R152, R159). -/
def Lane.ctxSafe (l : Lane) (c : Nat) : Bool := (l.regions c).any (·.safe)

/-- The 64 bytes of segment `s` of a region (R151). -/
def Lane.segBytes (l : Lane) (r : Region) (s : Nat) : List Byte :=
  if r.kind = 1 then (upTo 8).flatMap fun i => leBytes 8 (l.cell (8 * s + i)).st.toNat
  else if r.kind = 2 then (upTo 16).flatMap fun i => leBytes 4 (l.rw (16 * s + i)).toNat
  else memBytes l.sram (r.base + 64 * s) 64

/-- A context's output image, its segments in order (R150). -/
def Lane.image (l : Lane) (c : Nat) : List (List Byte) :=
  (l.regions c).flatMap fun r => (upTo r.nseg).map (l.segBytes r)

/-- The prefix of R153: catch instant, context, kind byte, number. -/
def hashPrefix (tn c kind n : Nat) : List Byte := beBytes 8 tn ++ [BitVec.ofNat 8 c, BitVec.ofNat 8 kind] ++ beBytes 2 n

/-- Hash of segment `s` (R153). -/
def segHash (tn c s : Nat) (bytes : List Byte) : Dword := BitVec.ofNat 64 (crc64 (hashPrefix tn c 0 s ++ bytes))

/-- Digest of block `b` from its segment hashes (R153). -/
def blockDigest (tn c b : Nat) (hs : List Dword) : Dword :=
  BitVec.ofNat 64 (crc64 (hashPrefix tn c 1 b ++ hs.flatMap fun h => beBytes 8 h.toNat))

/-- Blocks of a number of segments. -/
def blocksOf (nseg : Nat) : Nat := (nseg + 63) / 64

/-- Segment hashes of block `b` of an image (R153). -/
def blockHashes (tn c b : Nat) (img : List (List Byte)) : List Dword :=
  ((img.drop (64 * b)).take 64).zipIdx.map fun x => segHash tn c (64 * b + x.2) x.1

/-- Block digests of an image. -/
def imageDigests (tn c : Nat) (img : List (List Byte)) : List Dword :=
  (upTo (blocksOf img.length)).map fun b => blockDigest tn c b (blockHashes tn c b img)

/-- The dissent threshold of a context (R159, R166). -/
def Lane.threshold (l : Lane) (c : Nat) : Nat := if l.ctxSafe c ∨ l.mode = mode2oo2 then 1 else l.fget (VOTE_CFG_THR c)

/-! ### Deadlines (R156) -/

/-- Level-1 frames due. -/
def level1Due (c : Nat) : Nat := if c = 0 then 150000 else 60000
/-- Level-2 and level-3 answers due. -/
def answerDue (c : Nat) : Nat := if c = 0 then 280000 else 120000
/-- Verdict frames due. -/
def verdictDue (c : Nat) : Nat := if c = 0 then 330000 else 150000
/-- The finish. -/
def finishDue (c : Nat) : Nat := if c = 0 then 400000 else 200000

/-! ### Who votes -/

/-- The lane takes part in its own shadow stroke (R170). -/
def Lane.shadow (l : Lane) : Bool := l.mode == modeShadow

/-- Leave reasons RATE, SUPPLY and CLOCK (R177). -/
def supplyOrClock (r : Nat) : Bool := r == leaveRate || r == leaveSupply || r == leaveClock

/-- The voters without the lanes known to be out. -/
def Lane.staying (l : Lane) : List LaneId := l.inset.filter fun x => !(l.gone.any fun g => g.1 == x)

/-- `MODE` of a voter with the given set. -/
def Lane.setVoters (l : Lane) (set : List LaneId) : Lane :=
  (l.setInset set).fset VOTE_STAT_MODE (if set.length = 3 then mode2oo3 else mode2oo2)

/-- At a catch or vote instant, lanes that left go from the voter set (R165). -/
def Lane.dropGone (l : Lane) : Lane := if l.inVote && l.staying != l.inset then l.setVoters l.staying else l

/-- A peer frame counts as stray: its sender is out (R165). -/
def Lane.countStray (l : Lane) : Lane := l.fsat VOTE_CNT_NSTRAY 1

/-- Whether frames of `src` are taken by a voter: in its set, or the lane in shadow; and the link to it is up (R61, R161, R170). -/
def Lane.hears (l : Lane) (src : LaneId) : Bool :=
  (l.link (l.linkTo src)).eff && (l.inset.contains src || l.readm.who == some src || l.shadow)

/-! ### Level 1 -/

/-- A vote begins with the lane's own image, other running tasks' variables as committed (R154, R213). -/
def Lane.beginVote (l : Lane) (c task tn v : Nat) : Lane :=
  let img := (l.withCommitted task).image c
  l.modCtx c fun x =>
    { x with stage := .level1, task := task, tn := tn, v := v, image := img, dig := imageDigests tn c img, voters := [], blocks := [],
             hashes := [], fetched := [], differs := [], verdicts := [], commit := false }

/-- Some task of context `c` stands between its catch and its finish: its vote is still to come or runs. -/
def Lane.votesIn (l : Lane) (c : Nat) : Bool := l.tasks.any fun k => k.active && l.ctxOf k.tnum == c

/-- LEVEL1_FRAME: in time it is kept, also from a lane whose follower is a little ahead; late, or after the vote, it sets `LATE`; from a lane
that is out it is counted (R154, R156, R165). -/
def Lane.level1 (l : Lane) (src : LaneId) (c : Nat) (ds : List Dword) (t : Nat) : Lane :=
  let x := l.ctx c
  if l.easy || !(l.inVote || l.shadow) then l
  else if !(l.inset.contains src || l.readm.who == some src || l.shadow) then l.countStray
  else if !l.hears src then l
  else if (x.stage != .idle && decide (x.v + level1Due c < t)) || !l.votesIn c then l.voteFlag VOTE_STAT_LATE
  else if x.stage = .idle ∨ x.stage = .level1 then
    l.modCtx c fun x => { x with peerDig := (src, ds) :: x.peerDig.filter fun e => e.1 != src }
  else l

/-- The digests of voter `y` in a context of lane `self`. -/
def VoteCtx.digOf (x : VoteCtx) (self y : LaneId) : List Dword :=
  if y = self then x.dig else match x.peerDig.find? (fun e => e.1 == y) with | some e => e.2 | none => []

/-- Blocks whose digests are not equal in all of `vs`. -/
def VoteCtx.diffBlocks (x : VoteCtx) (self : LaneId) (vs : List LaneId) : List Nat :=
  let n := (vs.map fun y => (x.digOf self y).length).foldl max 0
  (upTo n).filter fun b => vs.any fun y => (x.digOf self y)[b]? != (x.digOf self self)[b]?

/-- Of three values, the one that differs where two are equal; none without a majority. -/
def oddOne {α : Type} [DecidableEq α] (vs : List (LaneId × α)) : Option (Option LaneId) :=
  match vs with
  | [a, b, c] =>
    if a.2 = b.2 ∧ b.2 = c.2 then some none
    else if a.2 = b.2 then some (some c.1)
    else if a.2 = c.2 then some (some b.1)
    else if b.2 = c.2 then some (some a.1)
    else none
  | [a, b] => if a.2 = b.2 then some none else none
  | _ => some none

/-- The odd lane of a block by digests (R155). -/
def VoteCtx.oddBlock (x : VoteCtx) (self : LaneId) (vs : List LaneId) (b : Nat) : Option (Option LaneId) :=
  oddOne (vs.map fun y => (y, (x.digOf self y)[b]?))

/-- Outcome of a step of the vote. -/
inductive VoteResult where
  | goes (l : Lane)
  | easyAll (l : Lane) (cause : Nat)
  deriving DecidableEq, Repr

/-- LEVEL1_DEADLINE (R154 to R157): voters fixed, blocks that differ found; two voters that differ end in easy all. -/
def Lane.level1Deadline (l : Lane) (c : Nat) : VoteResult :=
  let x := l.ctx c
  let got := l.inset.filter fun y => y == l.id || x.peerDig.any fun e => e.1 == y
  let late := l.inset.any fun y => !got.contains y && (l.link (l.linkTo y)).eff
  let l := if late then l.voteFlag VOTE_STAT_LATE else l
  let diff := x.diffBlocks l.id got
  let excess := diff.drop 16
  let l := l.modCtx c fun x => { x with stage := .answers, voters := got, blocks := diff.take 16 }
  if got.length < 2 then .easyAll l easyFewLanes
  else if got.length = 2 ∧ diff ≠ [] then .easyAll l easyDissent
  else if excess.any (fun b => x.oddBlock l.id got b == none) then .easyAll (l.voteFlag VOTE_STAT_BLK_LIM) easyNoMajority
  else if excess ≠ [] then .goes (l.voteFlag VOTE_STAT_BLK_LIM)
  else .goes l

/-! ### Levels 2 and 3 (R154, R155) -/

/-- SEGMENT_HASH_EXCHANGE: an answer after its deadline is late and counts for nothing (R156). -/
def Lane.takeHashes (l : Lane) (src : LaneId) (c b : Nat) (hs : List Dword) (t : Nat) : Lane :=
  let x := l.ctx c
  if x.v + answerDue c < t ∧ src ∈ x.voters then l.voteFlag VOTE_STAT_LATE
  else if x.stage = .answers ∧ src ∈ x.voters ∧ b ∈ x.blocks then
    l.modCtx c fun x => { x with hashes := (src, b, hs) :: x.hashes.filter fun e => !(e.1 == src && e.2.1 == b) }
  else l

/-- SEGMENT_FETCH, in time (R156). -/
def Lane.takeSegment (l : Lane) (src : LaneId) (c s : Nat) (bytes : List Byte) (t : Nat) : Lane :=
  let x := l.ctx c
  if x.v + answerDue c < t ∧ src ∈ x.voters then l.voteFlag VOTE_STAT_LATE
  else if x.stage = .answers ∧ src ∈ x.voters ∧ s / 64 ∈ x.blocks ∧ bytes.length = 64 then
    l.modCtx c fun x => { x with fetched := (src, s, bytes) :: x.fetched.filter fun e => !(e.1 == src && e.2.1 == s) }
  else l

/-- Segment hashes of voter `y` for block `b`; none where they did not come. -/
def VoteCtx.hashOf (x : VoteCtx) (self y : LaneId) (c b : Nat) : Option (List Dword) :=
  if y = self then some (blockHashes x.tn c b x.image)
  else (x.hashes.find? fun e => e.1 == y && e.2.1 == b).map fun e => e.2.2

/-- Hash of segment `s` of voter `y`. -/
def VoteCtx.segHashOf (x : VoteCtx) (self y : LaneId) (c s : Nat) : Option Dword :=
  (x.hashOf self y c (s / 64)).bind fun hs => hs[s % 64]?

/-- Segments of the exchanged blocks whose hashes are not equal in all of `vs`, in ascending order. -/
def VoteCtx.diffSegs (x : VoteCtx) (self : LaneId) (c : Nat) (vs : List LaneId) : List Nat :=
  (x.blocks.flatMap fun b => (upTo 64).map fun i => 64 * b + i).filter fun s =>
    decide (s < x.image.length) && vs.any fun y => x.segHashOf self y c s != x.segHashOf self self c s

/-- Content of segment `s` of voter `y`: its own where hashes are equal, else as fetched. -/
def VoteCtx.contentOf (x : VoteCtx) (self y : LaneId) (c s : Nat) : Option (List Byte) :=
  if x.segHashOf self y c s == x.segHashOf self self c s then x.image[s]?
  else (x.fetched.find? fun e => e.1 == y && e.2.1 == s).map fun e => e.2.2

/-- Voters that answered level 2 in every block, and level 3 in every fetched segment (R156). -/
def VoteCtx.answered (x : VoteCtx) (self : LaneId) (c : Nat) : List LaneId :=
  let v2 := x.voters.filter fun y => x.blocks.all fun b => (x.hashOf self y c b).isSome
  let segs := (x.diffSegs self c v2).take 256
  v2.filter fun y => segs.all fun s => (x.contentOf self y c s).isSome

/-- One differing segment's judgement: segment, the odd lane (none for no majority), majority contents where fetched. -/
structure SegJudge where
  seg : Nat
  odd : Option LaneId
  major : Option (List Byte)
  deriving DecidableEq, Repr

/-- A judgement from what the voters hold of a segment: none where all agree. -/
def judged {α : Type} [DecidableEq α] (seg : Nat) (cs : List (LaneId × α)) (major : LaneId → Option (List Byte)) : Option SegJudge :=
  match oddOne cs with
  | some none => none
  | some (some o) => some { seg := seg, odd := some o, major := major o }
  | none => some { seg := seg, odd := none, major := none }

/-- The judgement of every differing segment and further differing block (R154, R155): where contents were fetched they decide, so segments
whose contents are all equal count as equal; a block past the sixteenth counts by its first segment. -/
def VoteCtx.judge (x : VoteCtx) (self : LaneId) (c : Nat) (vs : List LaneId) : List SegJudge :=
  let segs := (x.diffSegs self c vs).zipIdx.filterMap fun e =>
    let s := e.1
    if e.2 < 256 then
      let cs := vs.map fun y => (y, x.contentOf self y c s)
      judged s cs fun o => (cs.find? fun y => y.1 != o).bind (·.2)
    else judged s (vs.map fun y => (y, x.segHashOf self y c s)) fun _ => none
  let blks := ((x.diffBlocks self vs).filter fun b => !x.blocks.contains b).filterMap fun b =>
    judged (64 * b) (vs.map fun y => (y, (x.digOf self y)[b]?)) fun _ => none
  segs ++ blks

/-- Count of lane `y`. -/
def VoteCtx.cnt (x : VoteCtx) : LaneId → Nat
  | .a => x.cntA | .b => x.cntB | .c => x.cntC
/-- Set the count of lane `y`. -/
def VoteCtx.setCnt (x : VoteCtx) (y : LaneId) (n : Nat) : VoteCtx :=
  match y with
  | .a => { x with cntA := n } | .b => { x with cntB := n } | .c => { x with cntC := n }

/-- The count of a voter after this vote (R159, R162). -/
def nextCount (js : List SegJudge) (thr old : Nat) (y : LaneId) : Nat :=
  let mine := js.filter fun j => j.odd == some y
  if mine = [] then 0 else if mine.any (fun j => j.major == none) then max thr (old + 1) else old + 1

/-- The shadow lane's digests equal the majority in every block (R170). -/
def VoteCtx.shadowMatches (x : VoteCtx) (self : LaneId) (vs : List LaneId) (y : LaneId) : Bool :=
  let d := x.digOf self y
  d.length == x.dig.length && (upTo x.dig.length).all fun b =>
    decide (2 ≤ (vs.filter fun v => (x.digOf self v)[b]? == d[b]?).length)

/-- The lane's own verdict frame (R158). -/
def Lane.ownVerdict (l : Lane) (c : Nat) : Verdict :=
  let x := l.ctx c
  { voters := BitVec.ofNat 3 (laneMask x.voters), cntA := x.cntA, cntB := x.cntB, cntC := x.cntC,
    shadowOk := match l.readm.who with | some y => y != l.id && x.shadowMatches l.id x.voters y | none => false }

/-- ANSWER_DEADLINE (R154 to R157, R159, R162): the vote is decided, counts move, the verdict is formed. -/
def Lane.answerDeadline (l : Lane) (c : Nat) : VoteResult :=
  let x := l.ctx c
  let vs := x.answered l.id c
  let l := if vs.length < x.voters.length then l.voteFlag VOTE_STAT_LATE else l
  let js := x.judge l.id c vs
  let l := if 256 < (x.diffSegs l.id c vs).length then l.voteFlag VOTE_STAT_FETCH_LIM else l
  if vs.length < 2 then .easyAll l easyFewLanes
  else if vs.length = 2 ∧ x.diffBlocks l.id vs ≠ [] then .easyAll l easyDissent
  else if js.any (fun j => j.odd == none) then .easyAll l easyNoMajority
  else
    let mine := js.filter fun j => j.odd == some l.id
    let thr := l.threshold c
    let l := if mine = [] then l else (l.voteFlag VOTE_STAT_DISSENT).fsat VOTE_CNT_NDISS 1
    let l := l.modCtx c fun x =>
      let x := vs.foldl (fun (x : VoteCtx) y => x.setCnt y (nextCount js thr (x.cnt y) y)) x
      { x with stage := .verdict, voters := vs, differs := mine.map fun j => (j.seg, j.major) }
    let v := l.ownVerdict c
    .goes (l.modCtx c fun x => { x with verdicts := (l.id, v) :: x.verdicts.filter fun e => e.1 != l.id })

/-! ### Verdict (R158, R159, R163) -/

/-- VERDICT_FRAME: late, it sets `LATE` and counts for nothing (R156). -/
def Lane.takeVerdict (l : Lane) (src : LaneId) (c : Nat) (v : Verdict) (t : Nat) : Lane :=
  if l.easy || !(l.inVote || l.shadow) then l
  else if !(l.inset.contains src || l.shadow) then l.countStray
  else if (l.ctx c).stage != .idle && decide ((l.ctx c).v + verdictDue c < t) then l.voteFlag VOTE_STAT_LATE
  else if !l.hears src || (l.ctx c).stage == .idle then l
  else l.modCtx c fun x => { x with verdicts := (src, v) :: x.verdicts.filter fun e => e.1 != src }

/-- Count of lane `y` in a verdict. -/
def Verdict.cnt (v : Verdict) : LaneId → Nat
  | .a => v.cntA | .b => v.cntB | .c => v.cntC

/-- The next voter set: the intersection of the sets received, less lanes at their threshold by the lane's own count (R158). -/
def VoteCtx.nextVoters (x : VoteCtx) (thr : Nat) : List LaneId :=
  (maskLanes (x.verdicts.foldl (fun m e => m &&& e.2.voters) 7#3)).filter fun y => decide (x.cnt y < thr)

/-- First segment in which the lane differs. -/
def VoteCtx.firstDiff (x : VoteCtx) : Nat := match x.differs with | d :: _ => d.1 | [] => 0

/-- The lane SRAM address of segment `s` of a context's image; none for the engine's regions. -/
def Lane.segAddr (l : Lane) (c s : Nat) : Option Nat :=
  ((l.regions c).foldl (fun (acc : Nat × Option Nat) r =>
    (acc.1 + r.nseg, if acc.1 ≤ s ∧ s < acc.1 + r.nseg ∧ r.kind = 0 then some (r.base + 64 * (s - acc.1)) else acc.2)) (0, none)).2

/-- The image to commit after a dissent below the threshold: the majority contents in every differing segment (R162). -/
def Lane.adopt (l : Lane) (c : Nat) : Lane :=
  l.modCtx c fun x => { x with image := x.differs.foldl (fun img d => match d.2 with | some b => listSet img d.1 b | none => img) x.image }

/-- At the finish the majority contents stand in lane SRAM too (R162). -/
def Lane.adoptMemory (l : Lane) (c : Nat) : Lane :=
  (l.ctx c).differs.foldl (fun (l : Lane) d =>
    match d.2, l.segAddr c d.1 with
    | some b, some a => { l with sram := memPutBytes l.sram a b }
    | _, _ => l) l

/-- A shadow vote at the lane in readmission (R170, R171): `SHADOW_OK` from every in-vote lane, or the attempt ends. -/
def Lane.shadowVerdict (l : Lane) (c : Nat) : Lane :=
  let vs := (l.ctx c).verdicts.filter fun e => e.1 != l.id
  if 2 ≤ vs.length ∧ vs.all (fun e => e.2.shadowOk) = true then
    { l with readm := { l.readm with shadowOk := insertL c l.readm.shadowOk } }
  else l.abandonReadm 0x04

/-- A voter's note of a vote of the shadow stroke: every one must carry `SHADOW_OK` (R170). -/
def Lane.shadowVote (l : Lane) (c : Nat) (passed : Bool) : Lane :=
  { l with readm := { l.readm with shadowOk := if passed then insertL c l.readm.shadowOk else l.readm.shadowOk,
                                   failed := l.readm.failed || !passed } }

/-- What VERDICT_DEADLINE makes of a voter's lane. -/
inductive VerdictEnd where
  | stays (l : Lane)
  | leaves (l : Lane) (reason seg : Nat)
  | easyAll (l : Lane)
  deriving DecidableEq, Repr

/-- VERDICT_DEADLINE at a voter: lanes outside the next voter set go from its own set at the next catch or vote instant (R158, R159, R162, R163,
R165, R166). -/
def Lane.verdictDeadline (l : Lane) (c : Nat) : VerdictEnd :=
  let x := l.ctx c
  let late := x.voters.any fun y => !(x.verdicts.any fun e => e.1 == y)
  let l := if late then l.voteFlag VOTE_STAT_LATE else l
  let thr := l.threshold c
  let next := x.nextVoters thr
  let l := l.modCtx c fun x => { x with stage := .finish }
  if !next.contains l.id then
    if thr ≤ x.cnt l.id then .leaves l leaveDissent x.firstDiff else .leaves l leaveVoteLate 0
  else if next.length < 2 then .easyAll l
  else
    let out := l.inset.filter fun y => !next.contains y && !(l.gone.any fun g => g.1 == y)
    let kept := l.gone
    let passed := decide (2 ≤ x.verdicts.length) && x.verdicts.all fun e => e.2.shadowOk
    let l := if l.readm.shadow then l.shadowVote c passed else l
    let l := { l with gone := out.map (fun y => (y, leaveDissent)) ++ kept }
    .stays ((if x.differs = [] then l else l.adopt c).modCtx c fun x => { x with commit := true })

/-! ### Commands of the vote -/

/-- Outcome of a vote step in the module. -/
def State.voteResult (s : State) (l : LaneId) (r : VoteResult) : State :=
  match r with
  | .goes x => s.setLane l x
  | .easyAll x cause => (s.setLane l x).enterEasy l cause false

/-- LEVEL1_DEADLINE, not before its instant (R156). -/
def State.level1Deadline (s : State) (l : LaneId) (c t : Nat) : State :=
  let x := s.lane l
  if x.rst.held || (x.ctx c).stage != .level1 || decide (t < (x.ctx c).v + level1Due c) then s
  else if x.shadow then s.modLane l fun x => x.modCtx c fun y => { y with stage := .answers }
  else if x.inVote then s.voteResult l (x.level1Deadline c) else s

/-- ANSWER_DEADLINE, not before its instant (R156). -/
def State.answerDeadline (s : State) (l : LaneId) (c t : Nat) : State :=
  let x := s.lane l
  if x.rst.held || (x.ctx c).stage != .answers || decide (t < (x.ctx c).v + answerDue c) then s
  else if x.shadow then s.modLane l fun x => x.modCtx c fun y => { y with stage := .verdict }
  else if x.inVote then s.voteResult l (x.answerDeadline c) else s

/-- VERDICT_DEADLINE, not before its instant: a lane outside the next voter set leaves, its reset due at the finish (R156, R158, R164). -/
def State.verdictDeadline (s : State) (l : LaneId) (c t : Nat) : State :=
  let x := s.lane l
  if x.rst.held || (x.ctx c).stage != .verdict || decide (t < (x.ctx c).v + verdictDue c) then s
  else if x.shadow then s.modLane l fun x => (x.shadowVerdict c).modCtx c fun y => { y with stage := .finish }
  else if x.inVote then
    match x.verdictDeadline c with
    | .stays y => s.setLane l y
    | .leaves y reason seg => (s.setLane l y).leave l reason c seg ((x.ctx c).v + finishDue c) causeSwr
    | .easyAll y => (s.setLane l y).enterEasy l easyFewLanes false
  else s

/-- LEAVE_NOTICE at a peer (R165, R166, R177). -/
def State.leaveNotice (s : State) (dst src : LaneId) (reason : Nat) : State :=
  let x := s.lane dst
  if x.rst.held || x.easy || dst == src then s
  else
    let second := supplyOrClock reason && x.gone.any fun (g : LaneId × Nat) => g.1 != src && supplyOrClock g.2
    let kept := x.gone.filter fun g => g.1 != src
    let x := { x with gone := (src, reason) :: kept }
    let s := s.setLane dst x
    if s.phase == .running && !(x.shadow || x.mode == modeTransfer) && decide (x.staying.length < 2) && (x.inVote || x.armed) then s.enterEasy dst (if second then easySupplyClock else easyFewLanes) false else s

/-- The restrictive payload of connection `k`: the command record of every bound cell (R180); none without bound cells. The area at
`VOTE_RBASE` holds the same bytes. -/
def Lane.restrictivePayload (l : Lane) (k : Nat) : Option (List Byte) := l.slotPayload (fun _ r => restrictiveByte r.typ) k

/-- The restrictive telegrams of a surviving lane (R180). -/
def Lane.restrictive (l : Lane) (t : Nat) : Lane × List OutTlg :=
  (l.openAtEntry.filter fun k => (l.restrictivePayload k).isSome).foldl (fun (acc : Lane × List OutTlg) k =>
    let c := acc.1.conn k
    let seq := (c.txSeq + 1) % 2 ^ 32
    let tl := acc.1.blankTlg k tyData seq ((acc.1.restrictivePayload k).getD []) t true
    (acc.1.setConn k { c with txSeq := seq }, acc.2 ++ [{ conn := k, bytes := (acc.1.signTlg k tl).bytes, t := t }])) (l, [])

/-- `t` is the instant of a stroke finish that the lane has not served since easy all was entered (R180). -/
def Lane.restrictiveDue (l : Lane) (t : Nat) : Bool :=
  let tn := t - l.deadline - 400000
  decide (l.deadline + 400000 ≤ t) && decide (0 < l.period) && decide (tn % l.period = 0) && decide (l.fol.tn ≤ tn) &&
    (match l.restT with | some r => decide (r < tn) | none => true)

/-- RESTRICTIVE_FINISH: only a surviving lane whose sign engine is enabled forms codes (R174, R180). -/
def State.restrictiveFinish (s : State) (l : LaneId) (t : Nat) : State :=
  let x := s.lane l
  if x.rst.held || !x.easy || !x.surviving || !x.on VOTE_STAT_SIGN_EN || !x.restrictiveDue t then s
  else
    let r := x.restrictive t
    (s.setLane l { r.1 with restT := some (t - x.deadline - 400000) }).modHub (·.modMbx l fun m => { m with outTlg := m.outTlg ++ r.2 })

/-! ### Configuration (R182) -/

/-- Lane address of a VOTE offset. -/
def voteAddr (off : Nat) : Nat := 0x40001000 + off

/-- The registers of R182. -/
def voteCfgReg (off : Nat) : Bool :=
  decide (off % 4 = 0) && (off == 0x018 || (decide (0x100 ≤ off) && decide (off < 0x120)) || (decide (0x200 ≤ off) && decide (off < 0x400)))

/-- The context a VOTE configuration offset belongs to. -/
def voteCtxOf (off : Nat) : Nat := if off < 0x120 then (off - 0x100) / 4 else (off - 0x200) / 0x40

/-- Most segments of a context (R151). -/
def ctxCap (c : Nat) : Nat := if c = 0 then 8192 else 1024

/-- A kind 0b00 region with segments lies in lane SRAM (R182). KIND 0b11, which the table of R151 does not give, is not judged (Assumption
94). -/
def Region.inside (r : Region) : Bool := r.kind != 0 || r.nseg == 0 || inSram r.base (64 * r.nseg)

/-- The base of a kind 0b00 region as written lies in lane SRAM (R182). -/
def Region.based (r : Region) : Bool := r.kind != 0 || inSram r.base 64

/-- A context's configuration keeps R151, R152 and R182; `FIELD` is counted in all eight descriptors. -/
def Lane.ctxCfgOk (l : Lane) (c : Nat) : Bool :=
  decide (1 ≤ l.fget (VOTE_CFG_THR c)) && decide (l.nseg c ≤ ctxCap c) &&
    decide (((upTo 8).filter fun m => (l.region c m).field).length ≤ 1) && (upTo 8).all fun m => (l.region c m).inside

/-- The region a descriptor offset names: context and index. -/
def voteRgnOf (off : Nat) : Nat × Nat := ((off - 0x200) / 0x40, (off - 0x200) % 0x40 / 8)

/-- A written descriptor places its region in lane SRAM (R182). -/
def Lane.rgnOk (l : Lane) (off : Nat) : Bool :=
  decide (off < 0x200) || (l.region (voteRgnOf off).1 (voteRgnOf off).2).based

/-- `NSEG` and `SAFE` of a context as its descriptors give them. -/
def Lane.ctxSummary (l : Lane) (c : Nat) : Lane := (l.fset (VOTE_CFG_NSEG c) (l.nseg c)).fset (VOTE_CFG_SAFE c) (b2n (l.ctxSafe c))

/-- VOTE_CFG_WRITE (R182). -/
def Lane.voteCfgWrite (l : Lane) (off : Nat) (v : Word) : Lane :=
  if !voteCfgReg off then l
  else if !(l.unarmed || l.joining) then l.voteFlag VOTE_STAT_CFG_ERR
  else
    let l' := l.plainWrite (voteAddr off) v
    if off = 0x018 then l'
    else if l'.ctxCfgOk (voteCtxOf off) && l'.rgnOk off then l'.ctxSummary (voteCtxOf off) else l.voteFlag VOTE_STAT_CFG_ERR

/-! ### Meanings -/

/-- LEVEL1_FRAME (R154). -/
def execLevel1Frame (dst src : LaneId) (ctx : Nat) (digests : List Dword) (t : Nat) (s : State) : Host.Outcome State Fault Refusal :=
  done ((s.laneAt dst t).upLane dst (·.level1 src ctx digests t))
/-- LEVEL1_DEADLINE (R156). -/
def execLevel1Deadline (l : LaneId) (ctx t : Nat) (s : State) : Host.Outcome State Fault Refusal := done ((s.laneAt l t).level1Deadline l ctx t)
/-- SEGMENT_HASH_EXCHANGE (R154). -/
def execSegmentHashExchange (dst src : LaneId) (ctx block : Nat) (hashes : List Dword) (t : Nat) (s : State) : Host.Outcome State Fault Refusal :=
  done ((s.laneAt dst t).upLane dst (·.takeHashes src ctx block hashes t))
/-- SEGMENT_FETCH (R154). -/
def execSegmentFetch (dst src : LaneId) (ctx seg : Nat) (bytes : List Byte) (t : Nat) (s : State) : Host.Outcome State Fault Refusal :=
  done ((s.laneAt dst t).upLane dst (·.takeSegment src ctx seg bytes t))
/-- ANSWER_DEADLINE (R156). -/
def execAnswerDeadline (l : LaneId) (ctx t : Nat) (s : State) : Host.Outcome State Fault Refusal := done ((s.laneAt l t).answerDeadline l ctx t)
/-- VERDICT_FRAME (R158). -/
def execVerdictFrame (dst src : LaneId) (ctx : Nat) (v : Verdict) (t : Nat) (s : State) : Host.Outcome State Fault Refusal :=
  done ((s.laneAt dst t).upLane dst (·.takeVerdict src ctx v t))
/-- VERDICT_DEADLINE (R158). -/
def execVerdictDeadline (l : LaneId) (ctx t : Nat) (s : State) : Host.Outcome State Fault Refusal := done ((s.laneAt l t).verdictDeadline l ctx t)
/-- LEAVE_NOTICE (R165). -/
def execLeaveNotice (dst src : LaneId) (reason : Byte) (s : State) : Host.Outcome State Fault Refusal :=
  done (s.leaveNotice dst src reason.toNat)
/-- RESTRICTIVE_FINISH (R180). -/
def execRestrictiveFinish (l : LaneId) (t : Nat) (s : State) : Host.Outcome State Fault Refusal :=
  done ((s.laneAt l t).restrictiveFinish l t)
/-- VOTE_CMD_EASY (R177). -/
def execVoteCmdEasy (l : LaneId) (s : State) : Host.Outcome State Fault Refusal := done (s.enterEasy l easyFirmware false)
/-- VOTE_CMD_LEAVE (R163). -/
def execVoteCmdLeave (l : LaneId) (s : State) : Host.Outcome State Fault Refusal :=
  done (if (s.lane l).rst.held then s else s.leaveAtOnce l leaveFirmware causeSwr)
/-- VOTE_CFG_WRITE (R182). -/
def execVoteCfgWrite (l : LaneId) (off : Nat) (v : Word) (s : State) : Host.Outcome State Fault Refusal :=
  done (s.upLane l (·.voteCfgWrite off v))

end Sys2Proof.Machine
end

