-- ==== Sys2Proof/Machine/Program.lean ====
section
/-! DEFINITION. Function-block programs: sections and their verification, loading, modes, exceptions and breakpoints, event tasks, retain
copies, forces and commissioning (R205 to R224, R231 to R234). What a task computes comes from outside as writes to lane SRAM. -/

namespace Sys2Proof.Machine

/-! ### Areas of lane SRAM (R205) -/

/-- Code area 0 or 1. -/
def codeArea (one : Bool) : Nat := if one then 0x08200000 else 0x08000000
/-- Retain copy 0 or 1. -/
def retainCopy (one : Bool) : Nat := if one then 0x08640000 else 0x08600000
/-! ### The program section (R206 to R208) -/

/-- The 32 bytes of a task descriptor (R207). -/
def taskDescOf (b : List Byte) : TaskDesc :=
  { tnum := beAt b 0 1, event := beAt b 1 1 == 1, prio := beAt b 2 1, ctx := beAt b 3 1, period := beAt b 4 4, trig := beAt b 10 1,
    tedge := beAt b 11 1, tsrc := beAt b 12 2, entry := beAt b 16 4, stack := beAt b 20 4, dvote := beAt b 24 4 }

/-- The 24 bytes of a variable directory entry (R208). -/
def varDescOf (b : List Byte) : VarDesc :=
  { vid := beAt b 0 4, tcode := beAt b 4 1, vflags := beAt b 5 1, owner := beAt b 6 1, offset := beAt b 8 4, size := beAt b 12 4,
    thash := beAt b 16 4, omap := beAt b 20 4 }

/-- `RETAIN`. -/
def VarDesc.retain (v : VarDesc) : Bool := getField v.vflags 0 1 == 1
/-- `OUT`. -/
def VarDesc.out (v : VarDesc) : Bool := getField v.vflags 1 1 == 1
/-- `SAFELIB`. -/
def VarDesc.safelib (v : VarDesc) : Bool := getField v.vflags 2 1 == 1
/-- The field output channel an output variable maps to. -/
def VarDesc.channel (v : VarDesc) : Option Nat := if getField v.omap 30 2 = 1 then some (getField v.omap 0 10) else none
/-- The EST connection an output variable maps to. -/
def VarDesc.connIdx (v : VarDesc) : Option Nat := if getField v.omap 30 2 = 2 then some (getField v.omap 0 10) else none
/-- Same type (R208). -/
def VarDesc.sameType (v w : VarDesc) : Bool := v.tcode == w.tcode && v.size == w.size && v.thash == w.thash

/-- `n` bytes of a section from offset `o`. -/
def sect (bs : List Byte) (o n : Nat) : List Byte := (bs.drop o).take n

/-- A section taken apart by its header (R206). -/
def programOf (bs : List Byte) : Program :=
  let nt := beAt bs 6 2
  let nv := beAt bs 28 2
  { prgid := BitVec.ofNat 64 (beAt bs 8 8), codesz := beAt bs 16 4, datasz := beAt bs 20 4, retsz := beAt bs 24 4,
    tasks := (upTo nt).map fun i => taskDescOf (sect bs (beAt bs 32 4 + 32 * i) 32),
    vars := (upTo nv).map fun i => varDescOf (sect bs (beAt bs 36 4 + 24 * i) 24),
    codeAC := sect bs (beAt bs 40 4) (beAt bs 16 4), codeB := sect bs (beAt bs 44 4) (beAt bs 16 4),
    init := sect bs (beAt bs 48 4) (beAt bs 20 4), safe := sect bs (beAt bs 52 4) (beAt bs 20 4), bytes := bs }

/-! ### Verification (R209) -/

/-- Rule 1: header ranges, reserved fields, and areas inside the section. -/
def headerOk (bs : List Byte) : Bool :=
  let n := bs.length
  let inside (o len : Nat) : Bool := decide (64 ≤ o) && decide (o + len ≤ n)
  let nt := beAt bs 6 2
  let nv := beAt bs 28 2
  let cs := beAt bs 16 4
  let dsz := beAt bs 20 4
  decide (64 ≤ n) && beAt bs 0 4 == 0x4F505247 && beAt bs 4 2 == 1 && decide (1 ≤ nt) && decide (nt ≤ 48) && decide (cs ≤ 0x200000) &&
    decide (dsz ≤ 0x100000) && decide (beAt bs 24 4 ≤ 0x20000) && decide (1 ≤ nv) && beAt bs 30 2 == 0 && beAt bs 56 8 == 0 &&
    inside (beAt bs 32 4) (32 * nt) && inside (beAt bs 36 4) (24 * nv) && inside (beAt bs 40 4) cs && inside (beAt bs 44 4) cs &&
    inside (beAt bs 48 4) dsz && inside (beAt bs 52 4) dsz

/-- Reserved fields of a task descriptor and of a variable entry (rule 1). -/
def reservedOk (bs : List Byte) : Bool :=
  ((upTo (beAt bs 6 2)).all fun i =>
    let b := sect bs (beAt bs 32 4 + 32 * i) 32
    beAt b 8 2 == 0 && beAt b 14 2 == 0 && beAt b 28 4 == 0 && decide (beAt b 1 1 ≤ 1)) &&
  (upTo (beAt bs 28 2)).all fun i =>
    let b := sect bs (beAt bs 36 4 + 24 * i) 24
    beAt b 7 1 == 0 && getField (beAt b 5 1) 3 5 == 0 && getField (beAt b 20 4) 10 20 == 0

/-- Ranges of a task's fields, and rules 2 to 4 for it (R207, R209). -/
def TaskDesc.ok (d : TaskDesc) : Bool :=
  let kindOk := if d.event then decide (32 ≤ d.tnum) && decide (d.tnum ≤ 47) else decide (d.tnum ≤ 31)
  if d.tnum = 0 then !d.event && d.prio == 8 && d.ctx == 0 && d.period == 0 && d.dvote == 0 && d.trig == 0 && d.tedge == 0
  else
    kindOk && decide (d.prio ≤ 15) && d.prio != 8 && decide (1 ≤ d.ctx) && decide (d.ctx ≤ 7) && decide (1 ≤ d.period) &&
      decide (d.period ≤ 10000) && decide (3 ≤ d.dvote) &&
      (if d.event then decide (d.dvote ≤ 99998) && decide (1 ≤ d.trig) && decide (d.trig ≤ 3) &&
          (d.trig == 1 || d.tedge == 0) && decide (d.tedge ≤ 3) &&
          decide (d.tsrc < if d.trig = 1 then 32 else if d.trig = 2 then 512 else 16)
       else decide (d.dvote + 2 ≤ 10 * d.period) && d.trig == 0 && d.tedge == 0)

/-- A task's vote window in 0.1 ms: its start after the catch, its length, the period of its catches (R64, R65). -/
def TaskDesc.window (d : TaskDesc) (p cdl : Nat) : Nat × Nat × Nat :=
  if d.tnum = 0 then (cdl, 4, 10 * p) else (d.dvote, 2, if d.event then 10 else 10 * d.period)

/-- Whether the start of window `a` can fall into window `b`. -/
def startsIn (a b : Nat × Nat × Nat) : Bool :=
  let g := Nat.gcd a.2.2 b.2.2
  decide ((((a.1 : Int) - b.1) % (g : Int)).toNat < b.2.1)

/-- Two windows can overlap. -/
def canOverlap (a b : Nat × Nat × Nat) : Bool := startsIn a b || startsIn b a

/-- No two elements, taken in order, satisfy `f`. -/
def noPair {α : Type} (f : α → α → Bool) : List α → Bool
  | [] => true
  | x :: xs => xs.all (fun y => !f x y) && noPair f xs

/-- The instants, in 0.1 ms modulo its period, at which a window is open. -/
def windowSlots (w : Nat × Nat × Nat) : List (Nat × Nat) := (upTo w.2.1).map fun i => ((w.1 + i) % w.2.2, w.2.2)

/-- Two such instants can be one. -/
def sameInstant (a b : Nat × Nat) : Bool := a.1 % Nat.gcd a.2 b.2 == b.1 % Nat.gcd a.2 b.2

/-- `n` more windows can all be open at one instant with those chosen: pairwise agreement modulo the common divisors is enough. -/
def canOpenAll : List (List (Nat × Nat)) → List (Nat × Nat) → Nat → Bool
  | _, _, 0 => true
  | [], _, _ + 1 => false
  | w :: ws, chosen, n + 1 => canOpenAll ws chosen (n + 1) || w.any fun r => chosen.all (sameInstant r) && canOpenAll ws (r :: chosen) n

/-- Rule 5: windows of one context, and more than eight of all contexts at one instant (R67). -/
def windowsOk (p cdl : Nat) (ts : List TaskDesc) : Bool :=
  noPair (fun a b => a.ctx == b.ctx && canOverlap (a.window p cdl) (b.window p cdl)) ts &&
    !(decide (8 < ts.length) && canOpenAll (ts.map fun a => windowSlots (a.window p cdl)) [] 9)

/-- Rules 6 to 8 on the variables. -/
def varsOk (p : Program) : Bool :=
  decide (p.vars.map (·.vid)).Nodup &&
    p.vars.all (fun v => decide (1 ≤ v.size) && decide (v.size ≤ 65536) && decide (v.offset + v.size ≤ p.datasz) &&
      !(v.retain && v.safelib) && (getField v.omap 30 2 == 0 || v.out)) &&
    decide (((p.vars.filter (·.retain)).map (·.size)).sum ≤ p.retsz)

/-- A lane's verification of a section under P and D (R209), and in a module with `PAIR_EN` what its stroke task may not read (R348). -/
def sectionOk (pair : Bool) (p cdl : Nat) (bs : List Byte) : Bool :=
  let g := programOf bs
  headerOk bs && reservedOk bs && decide ((g.tasks.filter fun d => d.tnum == 0).length = 1) && decide (g.tasks.map (·.tnum)).Nodup &&
    g.tasks.all (·.ok) && windowsOk p cdl g.tasks && varsOk g && !(pair && Config.strokeTaskReads bs)

/-! ### Library instances of a program (R208, R262; their coding is open, Assumption 9) -/

/-- The block kinds by number. -/
def blkKindOf (n : Nat) : BlkKind :=
  match n % 8 with
  | 0 => .estop | 1 => .guard | 2 => .ossd | 3 => .sls | 4 => .slp | 5 => .sdi | 6 => .resetEdge | _ => .startupTest

/-- The instance of a `SAFELIB` variable, as the section codes it. -/
def blkCfgOf (p : Program) (v : VarDesc) : BlkCfg :=
  let f (j : Nat) : Nat := Config.blockCode p.bytes (32 * v.vid + j)
  { kind := blkKindOf (f 0), task := v.owner, s1 := f 1 % 32, s2 := f 2 % 32, rst := (upTo (f 3 % 8)).map fun k => f (16 + k), discT := f 4,
    tcyc := f 5, antiv := f 6 % 2 == 1, auto := f 7 % 2 == 1, startup := f 8 % 2 == 1, enc := f 9 % 2, active := f 10, dirp := f 11,
    vlim := f 12, nwin := f 13, pmin := signedOf 32 (f 14), pmax := signedOf 32 (f 15), dtol := f 24 }

/-- Every library instance in its initial state (R262). -/
def blocksFor (p : Program) : List (BlkCfg × BlkRun) :=
  (p.vars.filter (·.safelib)).map fun v => (blkCfgOf p v, blkReset (blkCfgOf p v))

/-! ### Loading (R205, R221, R224) -/

/-- The variables of a program that `tnum` owns, with their values in an instance-data image (R206, R208). -/
def Program.initOf (p : Program) (tnum : Nat) : List (Nat × List Byte) :=
  (p.vars.filter fun v => v.owner == tnum).map fun v => (v.offset, sect p.init v.offset v.size)

/-- Load a verified program into code area 0 and data half 0 with initial values; the task table of its tasks starts afresh, in RUN or STOP by
the setting `PRG_BOOTMODE` (R218). -/
def Lane.loadProgram (l : Lane) (p : Program) : Lane :=
  let code := if l.id = .b then p.codeB else p.codeAC
  let mem := memPutBytes (memPutBytes l.sram (codeArea false) code) (dataHalf false) p.init
  let g := { progReset with prog := some p, blocks := blocksFor p, blocksLast := blocksFor p, mode := if l.set.bootStop then .stop else .run }
  { l with sram := mem, prog := g, tasks := p.tasks.map fun d => { taskNew d.tnum with last := p.initOf d.tnum, comm := p.initOf d.tnum } }

/-! ### Variables -/

/-- Variables of the loaded program. -/
def Lane.vars (l : Lane) : List VarDesc := match l.prog.prog with | some p => p.vars | none => []

/-- The safe value of a variable (R206). -/
def Lane.safeValue (l : Lane) (v : VarDesc) : List Byte := match l.prog.prog with | some p => sect p.safe v.offset v.size | none => []

/-- The variables of a task as they stand. -/
def Lane.ownedNow (l : Lane) (tnum : Nat) : List (Nat × List Byte) :=
  (l.vars.filter fun v => v.owner == tnum).map fun v => (v.offset, memBytes l.sram (l.dataBase + v.offset) v.size)

/-- Every task's variables stand as committed: after a load. -/
def Lane.keepOwned (l : Lane) : Lane :=
  { l with tasks := l.tasks.map fun k => { k with last := l.ownedNow k.tnum, comm := l.ownedNow k.tnum } }

/-- A variable as committed at its owner's latest finish (R213). -/
def Lane.committed (l : Lane) (v : VarDesc) : List Byte :=
  match (l.taskOf v.owner).bind fun k => k.comm.find? fun e => e.1 == v.offset with
  | some e => e.2
  | none => memBytes l.sram (l.dataBase + v.offset) v.size

/-- Forced values by offset (R231). -/
def Lane.forcedVals (l : Lane) : List (Nat × List Byte) :=
  l.prog.forces.filterMap fun f => (l.vars.find? fun v => v.vid == f.1.toNat).map fun v => (v.offset, f.2)

/-- A copy of variables with forced values in place (R231). -/
def Lane.overlayForces (l : Lane) (vs : List (Nat × List Byte)) : List (Nat × List Byte) :=
  vs.map fun v => (l.forcedVals.find? fun f => f.1 == v.1).getD v

/-- The copy a task takes at its catch of every variable another task owns (R213, R231). -/
def Lane.viewFor (l : Lane) (task : Nat) : List (Nat × List Byte) :=
  l.overlayForces ((l.vars.filter fun v => v.owner != task).map fun v => (v.offset, l.committed v))

/-- A new cycle in RUN starts from the variables and library instances of the task's last finish in RUN (R217, R220). -/
def Lane.restoreTask (l : Lane) (k : TaskRun) : Lane :=
  let l := l.putVars k.last
  { l with prog := l.prog.restoreBlocks (· == k.tnum) }

/-! ### Which task runs (R211, R212) -/

/-- Priority of a task: 8 for the stroke task. -/
def Lane.prioOf (l : Lane) (tnum : Nat) : Nat := if tnum = 0 then 8 else match l.taskDesc tnum with | some d => d.prio | none => 15

/-- Ready task `m` runs before ready task `k`: by priority; at equal priority one that has begun goes on, then the earlier catch, then the lower
`TNUM` (R212). -/
def Lane.precedes (l : Lane) (m k : TaskRun) : Bool :=
  if l.prioOf m.tnum ≠ l.prioOf k.tnum then decide (l.prioOf m.tnum < l.prioOf k.tnum)
  else if m.begun ≠ k.begun then m.begun
  else if m.tn ≠ k.tn then decide (m.tn < k.tn)
  else decide (m.tnum < k.tnum)

/-- Program code of task `tnum` does something: only while the task is ready, and then every task that runs before it has ended its compute, since
it would run otherwise (R211, R212; Assumption 101). -/
def Lane.taskRuns (l : Lane) (tnum : Nat) : Option Lane :=
  match l.taskOf tnum with
  | some k =>
    if k.active && k.ready then
      some { l with tasks := l.tasks.map fun m =>
        if m.tnum = tnum then { m with begun := true } else if m.ready && l.precedes m k then { m with ready := false } else m }
    else none
  | none => none

/-- Forced values reach their variables (R231). -/
def Lane.applyForces (l : Lane) : Lane := l.putVars l.forcedVals

/-- One entry of the force table: `VID`, length, value in eight bytes (Assumption 102). -/
def forceEntry (f : Word × List Byte) : List Byte := leBytes 4 f.1.toNat ++ leBytes 4 f.2.length ++ padTo 8 f.2

/-- The region that holds the force table: the first kind 0b00 region of context 0 with `SAFE` = 1 that has the table's 16 segments and is neither
`FIELD` nor `TLG` (R231; Assumption 102). -/
def Lane.forceRegion (l : Lane) : Option Region :=
  (l.regions 0).find? fun r => r.kind == 0 && r.safe && !r.field && !r.tlg && r.nseg == 16

/-- The force table in its region, so that every stroke votes it (R231). -/
def Lane.storeForces (l : Lane) : Lane :=
  match l.forceRegion with
  | some r => { l with sram := memPutBytes l.sram r.base (padTo 1024 ((l.prog.forces.take 64).flatMap forceEntry)) }
  | none => l

/-- The field command block of a context: the base of its `FIELD` region (R152, R250). -/
def Lane.fieldBlock (l : Lane) (c : Nat) : Option Nat := ((l.regions c).find? fun r => r.field && r.kind == 0).map (·.base)

/-- Clear `QON` of channels in a context's command block. -/
def Lane.clearQon (l : Lane) (c : Nat) (chs : List Nat) : Lane :=
  match l.fieldBlock c with
  | some a => { l with sram := memPutNat l.sram a 4 (chs.foldl (fun w k => setField w k 1 0) (memNat l.sram a 4)) }
  | none => l

/-- Write the runtime's `QLAT` bits of a context into its command block (R250, R254). -/
def Lane.writeQlat (l : Lane) (c : Nat) : Lane :=
  match l.fieldBlock c with
  | some a => { l with sram := memPutNat l.sram (a + 4) 4 ((l.qOwned c).foldl (fun w k => setField w k 1 (b2n (l.fld.qlatNext.getLsbD k))) 0) }
  | none => l

/-- A task's cycle ends by an exception or a breakpoint (R216, R220): its writes are discarded, library instances included, its `OUT` variables take
their safe values, the outputs they map to are commanded OFF. -/
def Lane.cutTask (l : Lane) (tnum : Nat) : Lane :=
  match l.taskOf tnum with
  | none => l
  | some k =>
    let outs := l.vars.filter fun v => v.owner == tnum && v.out
    let l := ((l.restoreTask k).putVars (outs.map fun v => (v.offset, l.safeValue v))).modTask tnum fun k => { k with ready := false }
    l.clearQon (l.ctxOf tnum) (outs.filterMap (·.channel))

/-- In STOP and HOLD a context's image holds the values of its tasks' last finish in RUN, the safe values of its `OUT` variables, and `QON` 0 in all
its channels (R217). -/
def Lane.stoppedImage (l : Lane) (c : Nat) : Lane :=
  let outs := l.vars.filter fun v => v.out && l.ctxOf v.owner == c
  let x := (l.tasks.filter fun k => l.ctxOf k.tnum == c).foldl (fun (x : Lane) k => x.restoreTask k) l
  (x.putVars (outs.map fun v => (v.offset, l.safeValue v))).clearQon c (l.qOwned c)

/-! ### Modes (R217, R218) -/

/-- A mode takes effect (R218): HOLD at once for every task, another one for every task caught from this stroke catch on; `fault` is the cause
PRG_FAULT of a STOP. Instances learn of a return to RUN (R283). -/
def Lane.setMode (l : Lane) (m : PrgMode) (fault : Bool) : Lane :=
  let back := m = .run ∧ l.prog.mode ≠ .run
  let p := { l.prog with mode := m, modeNext := none, fault := fault }
  { l with prog := if back then { p with runT := l.fol.tn }.blocksBack else p,
           tasks := l.tasks.map fun k =>
             if k.active = true ∧ (m = .hold ∨ k.tn = l.fol.tn) then { k with mode := m, ready := k.ready && m == .run } else k }

/-- The mode change due at a stroke catch. -/
def Lane.modeAtCatch (l : Lane) : Lane := match l.prog.modeNext with | some m => l.setMode m l.prog.fault | none => l

/-- TASK_EXCEPTION (R216): the program set enters STOP at the next stroke catch with cause PRG_FAULT; the entry names task, `pc` and code. -/
def Lane.taskException (l : Lane) (tnum : Nat) (pc : Word) (code : Byte) : Lane :=
  match l.taskRuns tnum with
  | some l =>
    let l := (l.cutTask tnum).modTask tnum fun k => { k with excepted := true }
    { l with prog := { l.prog with modeNext := some .stop, fault := true } }.note blkFirmware 5 216 [(1, tnum), (4, pc.toNat), (1, code.toNat)]
  | none => l

/-- PROGRAM_BREAKPOINT (R220): the cycle ends without the exception entry; HOLD takes effect at the finish. -/
def Lane.reachBreak (l : Lane) (tnum : Nat) (pc : Word) : Lane :=
  match l.taskRuns tnum with
  | some x => if (tnum, pc) ∈ l.prog.breaks then (x.cutTask tnum).modTask tnum fun k => { k with broke := true } else l
  | none => l

/-! ### Event tasks (R65, R215) -/

/-- A trigger is admitted at `t`: it is held until the task can be released. -/
def Lane.trigger (l : Lane) (t : Nat) (p : TaskDesc → Bool) : Lane :=
  match l.prog.prog with
  | some g => (g.tasks.filter fun d => d.event && p d).foldl (fun (l : Lane) d =>
      l.modTask d.tnum fun k => { k with held := k.held + 1, trigT := if k.held = 0 then t else k.trigT }) l
  | none => l

/-- A rising or falling edge between two agreed values (R215). A change through unproven makes none (DESIGN CHOICE, Assumption 103: the rule speaks
of the edge of the agreed value and of no unproven one). -/
def edgeBits (was now : Nat) : Nat := b2n (was == fOff && now == fOn) + 2 * b2n (was == fOn && now == fOff)

/-- Field edge triggers of a catch, admitted at `t`: the agreed values against those before. -/
def Lane.fieldTriggers (l : Lane) (t : Nat) : Lane :=
  l.trigger t fun d => d.trig == 1 &&
    decide (0 < (edgeBits (bvField l.fld.prevInp (2 * d.tsrc) 2) (bvField l.fld.agreed.inp (2 * d.tsrc) 2)) &&& d.tedge)

/-- The release instant of an event task that holds a trigger (R65, R215): the first 1 ms grid instant after the admission of its first held trigger
at which the task is past its finish, its interval has passed since its last catch, and the set runs. -/
def Lane.releaseDue (l : Lane) (d : TaskDesc) (k : TaskRun) : Nat :=
  let grid := ceilMult 1000000
  let fin := if k.prevTn = 0 then 0 else k.prevTn + l.dOf k.tnum + voteWindow k.tnum
  let gap := if k.prevTn = 0 then 0 else k.prevTn + ms d.period
  max (max ((k.trigT / 1000000 + 1) * 1000000) (grid gap)) (max (grid fin) (grid l.prog.runT))

/-- EVENT_TASK_RELEASE, at the release instant: all held triggers are served (R65, R215). -/
def Lane.releaseEvent (l : Lane) (tnum t : Nat) : Lane :=
  match l.taskDesc tnum, l.taskOf tnum with
  | some d, some k =>
    if d.event ∧ k.active = false ∧ 0 < k.held ∧ t = l.releaseDue d k ∧ l.prog.mode = .run ∧ l.running = true ∧ l.easy = false then
      l.modTask tnum fun k => { k with served := min 255 k.held, held := 0, relT := t }
    else l
  | _, _ => l

/-- A timer is started: a timer started again is restarted (R215). -/
def startTimer (ts : List (Nat × Nat)) (e : Nat × Nat) : List (Nat × Nat) := ts.filter (fun x => x.1 != e.1) ++ [e]

/-- What a completed cycle of a task asked for: timers, local route requests, latches to clear (R51, R215, R255). A cycle that an exception
or a breakpoint ended asks for nothing (R216; Assumption 64). -/
def Lane.takeAsks (l : Lane) (k : TaskRun) (a : TaskAsks) : Lane :=
  if k.mode = .run ∧ k.excepted = false ∧ k.broke = false then
    { l with prog := { l.prog with timers := a.timers.foldl startTimer l.prog.timers, asks := l.prog.asks ++ a.routes },
             fld := { l.fld with clrReq := l.fld.clrReq ||| a.clear } }
  else l

/-- PROGRAM_TIMER_EXPIRY: a running timer whose expiry has come ends and triggers the tasks that name it (R215). -/
def Lane.timerExpiry (l : Lane) (timer t : Nat) : Lane :=
  if l.prog.timers.any fun x => x.1 == timer && decide (x.2 ≤ t) then
    { l with prog := { l.prog with timers := l.prog.timers.filter fun x => x.1 != timer } }.trigger t fun d => d.trig == 3 && d.tsrc == timer
  else l

/-! ### Retained variables (R222, R223) -/

/-- The retained bytes at a stroke finish: the `RETAIN` variables in directory order, those of the stroke task as they stand, the others as
committed at the latest finish of their owner (R222). -/
def Lane.retainBytes (l : Lane) : List Byte :=
  (l.vars.filter (·.retain)).flatMap fun v => if v.owner = 0 then memBytes l.sram (l.dataBase + v.offset) v.size else l.committed v

/-- The first 20 bytes of a copy's header (R222): stroke number, `PRGID`, length, CRC-32C. -/
def retainHeader (stroke : Word) (prgid : Dword) (bs : List Byte) : List Byte :=
  leBytes 4 stroke.toNat ++ leBytes 8 prgid.toNat ++ leBytes 4 bs.length ++ leBytes 4 (crc32c bs)

/-- Identity of the loaded program. -/
def Lane.prgid (l : Lane) : Dword := match l.prog.prog with | some p => p.prgid | none => 0

/-- At each stroke finish the older copy takes the retained variables (R222). -/
def Lane.writeRetain (l : Lane) : Lane :=
  if l.prog.prog.isNone then l
  else
    let one := !l.prog.retNew
    let bs := l.retainBytes
    let h := padTo 64 (retainHeader l.stroke l.prgid bs)
    { l with sram := memPutBytes (memPutBytes l.sram (retainCopy one) h) (retainCopy one + 64) bs, prog := { l.prog with retNew := one } }

/-- A copy as a lane lists it: none when its CRC fails or its `PRGID` is another's (R222). -/
def Lane.retainItem (l : Lane) (one : Bool) : Option RetainItem :=
  let a := retainCopy one
  let n := memNat l.sram (a + 12) 4
  let crc := memNat l.sram (a + 16) 4
  if l.prog.prog.isSome ∧ memNat l.sram (a + 4) 8 = l.prgid.toNat ∧ n = ((l.vars.filter (·.retain)).map (·.size)).sum ∧
      crc32c (memBytes l.sram (a + 64) n) = crc then
    some { stroke := memWord l.sram a, crc := BitVec.ofNat 32 crc }
  else none

/-- The list a lane exchanges. -/
def Lane.retainItems (l : Lane) : List RetainItem := (l.retainItem false).toList ++ (l.retainItem true).toList

/-- Load the retained variables from a copy, which is the newer from then on. -/
def Lane.loadRetain (l : Lane) (one : Bool) : Lane :=
  let bs := memBytes l.sram (retainCopy one + 64) (memNat l.sram (retainCopy one + 12) 4)
  let step (acc : Nat × List (Nat × List Byte)) (v : VarDesc) : Nat × List (Nat × List Byte) :=
    (acc.1 + v.size, acc.2 ++ [(v.offset, sect bs acc.1 v.size)])
  let l := (l.putVars ((l.vars.filter (·.retain)).foldl step (0, [])).2).keepOwned
  { l with prog := { l.prog with retNew := one } }

/-- Pairs listed by at least two lanes, the one with the highest stroke number. -/
def retainChoice (lists : List (LaneId × List RetainItem)) : Option RetainItem :=
  let all := lists.flatMap (·.2)
  let cand := all.filter fun i => decide (2 ≤ (lists.filter fun e => e.2.contains i).length)
  cand.foldl (fun (best : Option RetainItem) i =>
    match best with | none => some i | some b => if b.stroke.toNat < i.stroke.toNat then some i else best) none

/-- Which copy of a lane is the item. -/
def Lane.copyOf (l : Lane) (i : RetainItem) : Option Bool :=
  if l.retainItem false = some i then some false else if l.retainItem true = some i then some true else none

/-- The decision is taken in a lane. -/
def Lane.retainDone (l : Lane) (ok : Bool) : Lane := { l with start := { l.start with retainOk := ok, retDone := true } }

/-- A lane that lacks the chosen copy takes it from the first holder in the order A, B, C and checks its CRC; when that fails it does not arm
(R223). -/
def State.copyRetain (s : State) (dst : LaneId) (lists : List (LaneId × List RetainItem)) (i : RetainItem) : State :=
  let x := s.lane dst
  let from_ := (allLanes.find? fun y => y != dst && lists.any fun e => e.1 == y && e.2.contains i).bind fun y => ((s.lane y).copyOf i).map fun one => (y, one)
  match from_ with
  | some (y, one) =>
    let a := retainCopy one
    let x' := { x with sram := memPutBytes x.sram a (memBytes (s.lane y).sram a (64 + memNat (s.lane y).sram (a + 12) 4)) }
    s.setLane dst (if x'.retainItem one = some i then (x'.loadRetain one).retainDone true else x'.retainDone false)
  | none => s.setLane dst (x.retainDone false)

/-- RETAIN_LIST (R223): once the lists of every lane out of reset are in, two at least, they decide, before the lane arms; with no pair listed
twice the initial values stand and RETAIN_LOST is recorded. -/
def State.retainList (s : State) (dst src : LaneId) (items : List RetainItem) : State :=
  let x := s.lane dst
  if x.rst.held || x.armed || !x.sitReady || dst == src || x.start.cold || x.start.retDone then s
  else
    let known := x.start.retLists.filter fun e => e.1 != src && e.1 != dst
    let lists := (dst, x.retainItems) :: (src, items) :: known
    let s := s.setLane dst { x with start := { x.start with retLists := lists } }
    let x := s.lane dst
    if !(allLanes.filter fun y => (s.lane y).up).all fun y => lists.any fun e => e.1 == y then s
    else
      match retainChoice lists with
      | none => (s.setLane dst ((x.retainDone true).note blkFirmware 5 223 [])).flushNotes dst
      | some i =>
        match x.copyOf i with
        | some one => s.setLane dst ((x.loadRetain one).retainDone true)
        | none => s.copyRetain dst lists i

/-! ### Forces and commissioning (R231 to R234) -/

/-- A force is allowed on a variable (R232): in bench mode on any, in commissioning mode on outputs of the set. -/
def Lane.forceAllowed (l : Lane) (v : VarDesc) : Bool :=
  l.on LCTL_STAT_BENCH ||
    (match v.channel with | some k => l.prog.commOut.getLsbD k | none => false) ||
    (match v.connIdx with | some k => l.prog.commConns.contains k | none => false)

/-- Set a force; none when R231 or R232 refuses it. -/
def Lane.setForce (l : Lane) (vid : Word) (val : List Byte) : Option Lane :=
  match l.vars.find? fun v => v.vid == vid.toNat with
  | some v =>
    let others := l.prog.forces.filter fun f => f.1 != vid
    if l.forceAllowed v && val.length == v.size && decide (others.length < 64) then
      some { l with prog := { l.prog with forces := others ++ [(vid, val)] } }
    else none
  | none => none

/-- Remove a force. -/
def Lane.clearForce (l : Lane) (vid : Word) : Lane := { l with prog := { l.prog with forces := l.prog.forces.filter fun f => f.1 != vid } }

/-- Names of the outputs of a commissioning set: channel 0 to 15, or 0x100 plus the connection. -/
def commNames (mask : Half) (conns : List Nat) : List Nat := ((upTo 16).filter fun k => mask.getLsbD k) ++ conns.map (0x100 + ·)

/-- The name under which a variable's output stands in a commissioning set. -/
def VarDesc.commName (v : VarDesc) : Option Nat :=
  match v.channel with | some k => some k | none => v.connIdx.map (0x100 + ·)

/-- Set the commissioning set (R233): a record lists it, an output that leaves it closes its summary of strokes with a forced value, and the forces
on its variables go at the same catch. -/
def Lane.setCommission (l : Lane) (mask : Half) (conns : List Nat) : Lane :=
  let new := commNames mask conns
  let gone := (commNames l.prog.commOut l.prog.commConns).filter fun n => !new.contains n
  let keep := l.prog.forces.filter fun f =>
    !((l.vars.find? fun v => v.vid == f.1.toNat).bind (·.commName)).any gone.contains
  let sums := l.prog.commCnt.filter fun e => gone.contains e.1
  let l := { l with prog := { l.prog with commOut := mask, commConns := conns, forces := keep,
                                          commCnt := l.prog.commCnt.filter fun e => !gone.contains e.1 } }
  (sums.foldl (fun (x : Lane) e => x.note blkFirmware 5 233 [(2, e.1), (4, e.2)]) l).note blkFirmware 5 233
    ([(2, mask.toNat)] ++ conns.map fun k => (2, k))

/-- A stroke in which forced values reach outputs of the commissioning set counts for each of them (R233). -/
def Lane.countForced (l : Lane) : Lane :=
  let set := commNames l.prog.commOut l.prog.commConns
  let hit := set.filter fun n => l.vars.any fun v => v.commName == some n && l.prog.forces.any fun f => f.1.toNat == v.vid
  let old (n : Nat) : Nat := match l.prog.commCnt.find? fun e => e.1 == n with | some e => e.2 | none => 0
  let new := hit.map fun n => (n, old n + 1)
  { l with prog := { l.prog with commCnt := new ++ l.prog.commCnt.filter fun e => !hit.contains e.1 } }

/-! ### Meanings -/

/-- TASK_EXCEPTION (R216). -/
def execTaskException (l : LaneId) (task : Nat) (pc : Word) (code : Byte) (s : State) : Host.Outcome State Fault Refusal :=
  done (s.upLane l (·.taskException task pc code))
/-- PROGRAM_BREAKPOINT (R220). -/
def execProgramBreakpoint (l : LaneId) (task : Nat) (pc : Word) (s : State) : Host.Outcome State Fault Refusal :=
  done (s.upLane l (·.reachBreak task pc))
/-- EVENT_TASK_RELEASE (R65). -/
def execEventTaskRelease (l : LaneId) (task t : Nat) (s : State) : Host.Outcome State Fault Refusal :=
  done ((s.laneAt l t).upLane l (·.releaseEvent task t))
/-- PROGRAM_TIMER_EXPIRY (R215). -/
def execProgramTimerExpiry (l : LaneId) (timer t : Nat) (s : State) : Host.Outcome State Fault Refusal :=
  done ((s.laneAt l t).upLane l (·.timerExpiry timer t))
/-- RETAIN_LIST (R223). -/
def execRetainList (dst src : LaneId) (items : List RetainItem) (s : State) : Host.Outcome State Fault Refusal :=
  done (s.retainList dst src items)

end Sys2Proof.Machine
end

