-- ==== Sys2Proof/Machine/Change.lean ====
section
/-! DEFINITION. Online changes: admission and verification, the carry map, PREPARE, the agreed stroke, the switch, COMMIT and the time
limit (R225 to R230, R234). -/

namespace Sys2Proof.Machine

/-- Result details of PRG_CHANGE (R230, R383). -/
def chgBadSignature : Nat := 1
/-- BAD_SECTION. -/
def chgBadSection : Nat := 2
/-- CARRY_TIME. -/
def chgCarryTime : Nat := 3
/-- FORCE_TYPE. -/
def chgForceType : Nat := 4
/-- CHANGE_BUSY. -/
def chgBusy : Nat := 5
/-- NOT_RUNNING. -/
def chgNotRunning : Nat := 6
/-- NVW_DEFERRED. -/
def chgDeferred : Nat := 7
/-- COMMIT_TIMEOUT. -/
def chgTimeout : Nat := 8

/-! ### Admission (R225 steps 1 and 2) -/

/-- A section and its 196-byte signature block: the signature counts and holds (R454). -/
def State.sectionSigned (s : State) (bytes sig : List Byte) : Bool :=
  sig.length == 196 && s.keyCounts (beAt sig 0 1) ((sig.drop 4).take 96) && ecdsaHolds ((sig.drop 4).take 96) bytes (sig.drop 100)

/-- The carry map: new offset, old offset, size of every new variable that an old one of the same `VID` and type carries into. -/
def carryMap (old new : Program) : List (Nat × Nat × Nat) :=
  new.vars.filterMap fun v => (old.vars.find? fun w => w.vid == v.vid && v.sameType w).map fun w => (v.offset, w.offset, v.size)

/-- The digest of a carry map: CRC-32C over its entries, each value big-endian in four bytes (Assumption 18). -/
def carryDigest (m : List (Nat × Nat × Nat)) : Word :=
  BitVec.ofNat 32 (crc32c (m.flatMap fun e => beBytes 4 e.1 ++ beBytes 4 e.2.1 ++ beBytes 4 e.2.2))

/-- What becomes of a force at a switch (R234): follows to the new variable, is dropped, or stands against the change. -/
def Lane.forceFate (l : Lane) (new : Program) (f : Word × List Byte) : Option Bool :=
  match new.vars.find? fun v => v.vid == f.1.toNat with
  | none => some false
  | some v =>
    let same := match l.vars.find? fun w => w.vid == f.1.toNat with | some w => v.sameType w | none => false
    if same && l.forceAllowed v then some true else if l.prog.chg.dropForces then some false else none

/-! ### The gap (R226) -/

/-- The next catch of any task at or after `t`: the stroke's, the cyclic tasks', and the event tasks' that are released or hold a trigger. -/
def Lane.nextCatch (l : Lane) (t : Nat) : Nat :=
  let ds : List TaskDesc := match l.prog.prog with | some g => g.tasks | none => []
  let cyc := (ds.filter fun d => !d.event && d.tnum != 0).map fun d => ceilMult (ms d.period) t
  let ev := (ds.filter (·.event)).filterMap fun d =>
    match l.taskOf d.tnum with
    | some k => if 0 < k.served ∧ t ≤ k.relT then some k.relT else if 0 < k.held then some (max t (l.releaseDue d k)) else none
    | none => none
  (cyc ++ ev).foldl min (ceilMult l.period t)

/-- The carry time of a number of bytes in ns: 20 µs plus the bytes at 400 bytes per µs. -/
def carryTime (m : List (Nat × Nat × Nat)) : Nat := 20000 + (m.map (·.2.2)).sum * 1000 / 400

/-- The earliest instant from `t` on at which the schedule has no cyclic task between its catch and its finish, looking past at most `n` finishes. -/
def Lane.quietAt (l : Lane) : Nat → Nat → Option Nat
  | 0, _ => none
  | n + 1, t =>
    let spans : List (Nat × Nat) := (l.period, l.deadline + 400000) ::
      (match l.prog.prog with
       | some g => (g.tasks.filter fun (d : TaskDesc) => !d.event && d.tnum != 0).map fun (d : TaskDesc) => (ms d.period, d.dvote * 100000 + 200000)
       | none => [])
    let ends := spans.filterMap fun e =>
      let ph := if e.1 = 0 then 0 else t % e.1
      if 0 < ph ∧ ph < e.2 then some (t - ph + e.2) else none
    if ends = [] then some t else l.quietAt n (ends.foldl max t)

/-- The carry time does not fit the gap of the stroke caught at `tn`: what step 2 of R225 judges; the agreed stroke's gap is judged at the switch
(DESIGN CHOICE, Assumption 104). -/
def Lane.carryLate (l : Lane) (m : List (Nat × Nat × Nat)) (tn : Nat) : Bool :=
  match l.quietAt 1000 (tn + l.deadline + 400000) with
  | some q => decide (l.nextCatch q < q + carryTime m)
  | none => true

/-- A lane's verdict on a section (R209, R225, R226, R234): 0 for none against. -/
def State.changeVerdict (s : State) (x : Lane) (bytes sig : List Byte) (drop : Bool) : Nat :=
  let g := programOf bytes
  let x := { x with prog := { x.prog with chg := { x.prog.chg with dropForces := drop } } }
  let m := match x.prog.prog with | some p => carryMap p g | none => []
  if !s.sectionSigned bytes sig then chgBadSignature
  else if !sectionOk x.set.pairEn (x.fget TMR_STROKE_PERIOD) (x.fget TMR_STROKE_CDL) bytes then chgBadSection
  else if x.prog.forces.any (fun f => (x.forceFate g f).isNone) then chgForceType
  else if x.carryLate m x.fol.tn then chgCarryTime
  else 0

/-- An online change is admitted: code into the idle area, verification, carry map. -/
def State.admitChange (s : State) (l : LaneId) (seq : Word) (drop : Bool) (bytes sig : List Byte) : State :=
  let x := s.lane l
  let g := programOf bytes
  let r := s.changeVerdict x bytes sig drop
  let m := match x.prog.prog with | some p => carryMap p g | none => []
  let code := if l = .b then g.codeB else g.codeAC
  let mem := memPutBytes x.sram (codeArea (!x.prog.code1)) code
  let c : ChgInt := { stage := .carry, newProg := some g, dropForces := drop, seq := seq, carry := m, digest := carryDigest m, result := r,
                      peers := [], readyFrom := [], ready := false, catches := 0, agreedAt := none, asked := false, committed := false }
  s.setLane l { x with sram := mem, prog := { x.prog with chg := c } }

/-- The change ends in a lane with a result for the host; the running program is untouched (R230). -/
def Lane.endChange (l : Lane) (status detail : Nat) : Lane :=
  { l with prog := { l.prog with cmdDone := l.prog.cmdDone ++ [(l.prog.chg.seq, status, detail)], chg := chgReset } }

/-- The lanes this lane counts as voters beside itself. -/
def Lane.others (l : Lane) : List LaneId := l.staying.filter fun y => y != l.id

/-! ### Agreement and PREPARE (R225 steps 2 and 3) -/

/-- The section with its signature block, stored in the spare area of the lanes' slot, and a PREPARE record, once every voter agrees and the hub
is up; asked of the hub once. A write into the slot ends its verification (R459). -/
def State.prepareChange (s : State) (l : LaneId) : State :=
  let x := s.lane l
  let vs := s.voters
  let all := vs.all fun y => (s.lane y).prog.chg.stage == .prepare
  let asked := vs.any fun y => (s.lane y).prog.chg.asked
  match all && !asked && s.hub.up && !s.hub.on NVW_STAT_PF, x.prog.chg.newProg with
  | true, some g =>
    let k := s.pointer.slotFor (laneBit l)
    let a := s.spareArea k
    let build := s.slotBuild k
    let s := { s with flash0 := programBlocks s.flash0 k (formBlocks (spareFirst a) build g.bytes ((g.bytes.length + 65527) / 65528)) }
    let s := s.modLane l fun x => { x with prog := { x.prog with chg := { x.prog.chg with asked := true } } }
    let s := s.modHub fun h => { h with upd := { h.upd with verified := h.upd.verified.filter fun x => x != k } }
    s.gated { kind := .prepare, pages := 1, addr := 0, cmd := none, t0 := s.now,
              bytes := beBytes 8 g.prgid.toNat ++ beBytes 8 build ++ beBytes 1 a ++ zeros 3 }
  | _, _ => s

/-- With the values of every other voter in, the lanes agree, or the one that differs dissents (R225, R157). -/
def State.judgeCarry (s : State) (dst : LaneId) : State :=
  let x := s.lane dst
  let c := x.prog.chg
  let mine := (c.digest, c.result)
  let vals : List (Word × Nat) := x.others.filterMap fun y => (c.peers.find? fun e => e.1 == y).map fun e => (e.2.1, e.2.2)
  if c.stage ≠ .carry ∨ vals.length < x.others.length then s
  else if vals.all (fun v => v == mine) then
    if c.result ≠ 0 then s.setLane dst (x.endChange stRefused c.result)
    else (s.setLane dst { x with prog := { x.prog with chg := { c with stage := .prepare } } }).prepareChange dst
  else if vals.length = 1 then s.enterEasy dst easyDissent false
  else match vals with
    | [a, b] =>
      if a = b then s.setLane dst { x with due := x.due ++ [(leaveDissent, Option.none)] }
      else if a = mine ∨ b = mine then s
      else s.enterEasy dst easyNoMajority false
    | _ => s

/-- CARRY_MAP_DIGEST: the digest of the carry map and the result of a peer (R225). -/
def State.carryDigest (s : State) (dst src : LaneId) (d : Word) (r : Nat) : State :=
  let x := s.lane dst
  if x.rst.held || !x.inVote || x.prog.chg.stage != .carry || !x.staying.contains src || dst == src then s
  else
    let c := x.prog.chg
    let ps := (src, d, r) :: c.peers.filter fun e => e.1 != src
    (s.setLane dst { x with prog := { x.prog with chg := { c with peers := ps } } }).judgeCarry dst

/-- A journal entry read back by a lane is the record it expects. -/
def recordFor (ty : Nat) (g : Program) (build : Nat) (e : List Byte) : Bool :=
  entryOk e && jType e == ty && beAt e 8 8 == g.prgid.toNat && jBuild e == build

/-- PREPARE_READBACK: the lane is READY (R225 steps 3 and 4). -/
def State.prepareReadback (s : State) (l : LaneId) (e : List Byte) : State :=
  let x := s.lane l
  match x.prog.chg.stage, x.prog.chg.newProg with
  | .prepare, some g =>
    if !x.rst.held && recordFor jPrepare g (s.slotBuild (s.pointer.slotFor (laneBit l))) e then
      s.setLane l { x with prog := { x.prog with chg := { x.prog.chg with stage := .ready, ready := true } } }
    else s
  | _, _ => s

/-- READY_NOTICE. -/
def Lane.takeReady (l : Lane) (src : LaneId) : Lane :=
  if l.prog.chg.stage = .none then l
  else { l with prog := { l.prog with chg := { l.prog.chg with readyFrom := insertL src l.prog.chg.readyFrom } } }

/-! ### The switch (R225 steps 5 and 6, R226, R234) -/

/-- Library instances under the new program: carried ones go on, others start afresh. -/
def carryBlocks (old new : Program) (bs : List (BlkCfg × BlkRun)) : List (BlkCfg × BlkRun) :=
  let was := (old.vars.filter (·.safelib)).zip bs
  (new.vars.filter (·.safelib)).map fun v =>
    match was.find? fun e => e.1.vid == v.vid && v.sameType e.1 with
    | some e => (blkCfgOf new v, e.2.2)
    | none => (blkCfgOf new v, blkReset (blkCfgOf new v))

/-- The switch in a lane: data carried into the idle half, code area and half swapped, forces by their variables, and the new `PRGID` for pairing and
readmission (R210). Running timers, held triggers and breakpoints stay as they stand, by number (DESIGN CHOICE, Assumption 100: R225 does not name
them). -/
def Lane.switchProgram (l : Lane) (g : Program) : Lane :=
  let c := l.prog.chg
  let half := dataHalf (!l.prog.half1)
  let mem := memPutBytes l.sram half g.init
  let mem := c.carry.foldl (fun m e => memPutBytes m (half + e.1) (memBytes l.sram (l.dataBase + e.2.1) e.2.2)) mem
  let fates := l.prog.forces.map fun f => (f, l.forceFate g f)
  let kept := (fates.filter fun e => e.2 == some true).map (·.1)
  let lost := (fates.filter fun e => e.2 != some true).map (·.1)
  let tasks := g.tasks.map fun d => (l.taskOf d.tnum).getD (taskNew d.tnum)
  let blocks := match l.prog.prog with | some old => carryBlocks old g l.prog.blocks | none => blocksFor g
  let p := { l.prog with prog := some g, code1 := !l.prog.code1, half1 := !l.prog.half1, forces := kept, blocks := blocks, blocksLast := blocks,
                         chg := { c with stage := .switched } }
  let start := { l.start with own := { l.start.own with prgid := g.prgid } }
  lost.foldl (fun (x : Lane) _ => x.note blkFirmware 5 234 []) { l with sram := mem, tasks := tasks, prog := p, start := start }.keepOwned

/-- Once every voter has switched, the hub writes the COMMIT record (R225 step 7), once. -/
def State.commitChange (s : State) (l : LaneId) : State :=
  let all := s.voters.all fun y => (s.lane y).prog.chg.stage == .switched
  let wrote := s.voters.any fun y => (s.lane y).prog.chg.committed
  match all && !wrote && s.hub.up && !s.hub.on NVW_STAT_PF, (s.lane l).prog.prog with
  | true, some g =>
    let k := s.pointer.slotFor (laneBit l)
    let s := s.modLane l fun x => { x with prog := { x.prog with chg := { x.prog.chg with committed := true } } }
    s.jAppend jCommit (beBytes 8 g.prgid.toNat ++ beBytes 8 (s.slotBuild k) ++ beBytes 1 (s.spareArea k) ++ zeros 3)
  | _, _ => s

/-- The switch is due in a lane: the agreed stroke has finished and no task is between its catch and its finish; S is the latest finish (R226). -/
def Lane.switchDue (l : Lane) : Bool :=
  match l.prog.chg.agreedAt with
  | some a => l.inVote && l.prog.chg.stage == .ready && decide (a + l.deadline + 400000 ≤ l.prog.lastFin) && !l.tasks.any (·.active)
  | none => false

/-- ONLINE_CHANGE_SWITCH at S: refused with CARRY_TIME when the carry time exceeds the gap to the next catch, with FORCE_TYPE when a force set since
the verification stands against the change (R226, R234). -/
def State.changeSwitch (s : State) (l : LaneId) (t : Nat) : State :=
  let x := s.lane l
  match x.prog.chg.newProg with
  | some g =>
    if x.rst.held || !x.switchDue || t != x.prog.lastFin then s
    else if x.prog.forces.any (fun f => (x.forceFate g f).isNone) then s.setLane l (x.endChange stRefused chgForceType)
    else if x.nextCatch t < t + carryTime x.prog.chg.carry then s.setLane l (x.endChange stRefused chgCarryTime)
    else ((s.setLane l (x.switchProgram g)).flushNotes l).commitChange l
  | none => s

/-- The stroke caught at `tn` is the agreed one: at its catch every voter holds READY of every other; the first voter to catch judges for all (R225
step 4). -/
def State.agreedNow (s : State) (l : LaneId) (tn : Nat) : Bool :=
  match s.voters.find? fun y => y != l && (s.lane y).fol.tn == tn with
  | some y => (s.lane y).prog.chg.agreedAt == some tn
  | none => s.voters.all fun y =>
      (s.lane y).prog.chg.stage == .ready && (s.voters.filter (· != y)).all fun z => (s.lane y).prog.chg.readyFrom.contains z

/-- A stroke catch during a change: it is counted; the agreed stroke is found; a step that waited only for a lane that has left, or for the hub, goes
on (R225, R228, R229). -/
def State.changeCatch (s : State) (l : LaneId) (tn : Nat) : State :=
  let c := (s.lane l).prog.chg
  if c.stage = .none then s
  else
    let at_ := if c.stage == .ready && c.agreedAt.isNone && s.agreedNow l tn then some tn else c.agreedAt
    let s := s.modLane l fun x => { x with prog := { x.prog with chg := { c with catches := c.catches + 1, agreedAt := at_ } } }
    match c.stage with
    | .carry => s.judgeCarry l
    | .prepare => (s.prepareChange l).retryPrepare
    | .switched => s.commitChange l
    | _ => s

/-- COMMIT_READBACK: the change is complete (R225 step 7). -/
def State.commitReadback (s : State) (l : LaneId) (e : List Byte) : State :=
  let x := s.lane l
  match x.prog.chg.stage, x.prog.chg.newProg with
  | .switched, some g =>
    if !x.rst.held && recordFor jCommit g (s.slotBuild (s.pointer.slotFor (laneBit l))) e then s.setLane l (x.endChange stOk 0) else s
  | _, _ => s

/-- COMMIT_TIMEOUT: a change that has not reached its switch by the 64th stroke catch after admission is abandoned, with an ABORT record; the
result is NVW_DEFERRED while the gate still holds the PREPARE record (R229, R479). -/
def State.commitTimeout (s : State) : State :=
  let late (l : LaneId) : Bool :=
    let c := (s.lane l).prog.chg
    (s.lane l).up && c.stage != .none && c.stage != .switched && decide (64 ≤ c.catches)
  match allLanes.filter late with
  | [] => s
  | l :: rest =>
    let waits := s.hub.upd.gated.any fun g => g.kind == .prepare
    let res := if waits then chgDeferred else chgTimeout
    let id := match (s.lane l).prog.chg.newProg with | some g => g.prgid.toNat | none => 0
    let s := (l :: rest).foldl (fun (s : State) y => s.modLane y fun x => x.endChange stRefused res) s
    let s := s.modHub fun h => { h with upd := { h.upd with gated := h.upd.gated.filter fun g => g.kind != .prepare } }
    if s.hub.up && !s.hub.on NVW_STAT_PF then s.jAppend jAbort (beBytes 8 id ++ zeros 12) else s

/-! ### Meanings -/

/-- CARRY_MAP_DIGEST (R225). -/
def execCarryMapDigest (dst src : LaneId) (digest : Word) (result : Nat) (s : State) : Host.Outcome State Fault Refusal :=
  done (s.carryDigest dst src digest result)
/-- PREPARE_READBACK (R225). -/
def execPrepareReadback (l : LaneId) (entry : List Byte) (s : State) : Host.Outcome State Fault Refusal := done (s.prepareReadback l entry)
/-- READY_NOTICE (R225). -/
def execReadyNotice (dst src : LaneId) (s : State) : Host.Outcome State Fault Refusal := done (s.upLane dst (·.takeReady src))
/-- ONLINE_CHANGE_SWITCH (R226). -/
def execOnlineChangeSwitch (l : LaneId) (t : Nat) (s : State) : Host.Outcome State Fault Refusal := done ((s.laneAt l t).changeSwitch l t)
/-- COMMIT_READBACK (R225). -/
def execCommitReadback (l : LaneId) (entry : List Byte) (s : State) : Host.Outcome State Fault Refusal := done (s.commitReadback l entry)
/-- COMMIT_TIMEOUT (R229). -/
def execCommitTimeout (s : State) : Host.Outcome State Fault Refusal := done s.commitTimeout

end Sys2Proof.Machine
end

