-- ==== Sys2Proof/Machine/LaneCmd.lean ====
section
/-! DEFINITION. L commands in the lanes: how a descriptor is listed and what an admitted one does (R218 to R220, R231 to R233, R245, R326,
R334, R351, R382, R383, R466). -/

namespace Sys2Proof.Machine

/-- Identity under which commands stand in consensus frames (R219). -/
def cmdConn : Dword := 0xFFFFFFFFFFFFFFFF#64

/-- A descriptor as bytes, for its digest and for a fetch (Assumption 19): opcode, sequence, operands of four bytes, data. -/
def cmdBytes (d : CmdDesc) : List Byte := beBytes 2 d.opcode.toNat ++ beBytes 4 d.seq.toNat ++ d.args.flatMap (beBytes 4) ++ d.data

/-- The consensus entry of a descriptor (R219). -/
def cmdEntry (d : CmdDesc) : ConsEntry := { conn := cmdConn, seq := d.seq, digest := BitVec.ofNat 32 (crc32c (cmdBytes d)) }

/-- Opcode of the descriptor that orders a lane step of a rolling update (R466; the number is Assumption 19). -/
def opLaneStep : Nat := 0x07FF

/-- What an admitted command answers: its state, and its result where it is known at once. -/
abbrev CmdResult := State × Option (Nat × Nat)

/-- A lane answers with a status. -/
def answers (s : State) (st : Nat) : CmdResult := (s, some (st, 0))

/-! ### Keys (R326) -/

/-- A key value of a section; zero is no key. -/
def keyOpt (n : Nat) : Option (BitVec 128) := if n = 0 then none else some (BitVec.ofNat 128 n)

/-- The key store entry of connection `k` as a lane unwraps it from a section. -/
def unwrapKey (l : LaneId) (sect : List Byte) (k : Nat) : KeyEntry :=
  let f (i : Nat) : Nat := Config.keyField l.idx sect k i
  { seed := BitVec.ofNat 32 (f 0), rxA := BitVec.ofNat 32 (f 1), rxB := BitVec.ofNat 32 (f 2), rxC := BitVec.ofNat 32 (f 3),
    safety := BitVec.ofNat 32 (f 4), key0 := keyOpt (f 5), key1 := keyOpt (f 6) }

/-- The two entries differ in the unused slot at most. -/
def onlyUnused (sendSlot : Nat) (a b : KeyEntry) : Bool :=
  a.seed == b.seed && a.rxA == b.rxA && a.rxB == b.rxB && a.rxC == b.rxC && a.safety == b.safety &&
    (if sendSlot = 0 then a.key0 == b.key0 else a.key1 == b.key1)

/-- KEY_LOAD in a lane: the committed section checked, compared, and its unused slots taken; `conn` 0xFFFF for every connection. -/
def State.keyLoad (s : State) (l : LaneId) (conn : Nat) : CmdResult :=
  let x := s.lane l
  let u := s.hub.upd
  let area := s.areaBytes u.setArea u.setLen
  let sect := Config.keySection area
  let ks := x.connsInUse
  let ok := crc32c area == u.setCrc.toNat && ks.all fun k => onlyUnused (x.conn k).sendSlot (x.key k) (unwrapKey l sect k)
  let named := if conn = 0xFFFF then ks else [conn]
  if !ok || (conn != 0xFFFF && !ks.contains conn) then answers s stRefused
  else
    let keys := named.foldl (fun m k => sparseSet (fun _ => KeyEntry.none) m k (unwrapKey l sect k)) x.keys
    answers (s.setLane l { x with keys := keys, keySect := sect, start := { x.start with own := { x.start.own with settings := u.setCrc } } }) stOk

/-- KEY_SWITCH: the send slot changes to an installed key. -/
def Lane.keySwitch (l : Lane) (k slot : Nat) : Option Lane :=
  if l.connsInUse.contains k && ((l.key k).keyAt slot).isSome then some (l.modConn k fun c => { c with sendSlot := slot }) else none

/-! ### Programs (R218, R220, R228, R231 to R233) -/

/-- A mode command: the mode changes at this catch from one of `from_`; refused during an online change. -/
def State.modeCmd (s : State) (l : LaneId) (from_ : List PrgMode) (to_ : PrgMode) (bad : Nat) : CmdResult :=
  let x := s.lane l
  if x.prog.chg.stage ≠ .none then answers s stRefused
  else if from_.contains x.prog.mode then answers (s.setLane l (x.setMode to_ false)) stOk
  else answers s bad

/-- A force request is refused, and the refusal recorded (R232). -/
def State.refuseForce (s : State) (l : LaneId) (st : Nat) : CmdResult := answers ((s.modLane l (·.note blkFirmware 5 232 [])).flushNotes l) st

/-- FORCE_SET. -/
def State.forceSetCmd (s : State) (l : LaneId) (vid : Word) (val : List Byte) : CmdResult :=
  let x := s.lane l
  match x.vars.find? fun v => v.vid == vid.toNat with
  | none => s.refuseForce l stBadParam
  | some v =>
    if val.length ≠ v.size ∨ 8 < val.length then s.refuseForce l stBadParam
    else
      match x.setForce vid val with
      | some y => answers (s.setLane l y) stOk
      | none => s.refuseForce l stNotPermitted

/-- FORCE_CLEAR: one, or all under 0. -/
def State.forceClearCmd (s : State) (l : LaneId) (vid : Word) : CmdResult :=
  let x := s.lane l
  if vid = 0 then answers (s.setLane l { x with prog := { x.prog with forces := [] } }) stOk
  else if x.prog.forces.any (fun f => f.1 == vid) then answers (s.setLane l (x.clearForce vid)) stOk
  else answers s stBadParam

/-- COMMISSION_SET. -/
def State.commissionCmd (s : State) (l : LaneId) (mask : Nat) (conns : List Nat) : CmdResult :=
  let x := s.lane l
  if mask < 65536 ∧ conns.length ≤ 64 ∧ conns.all (fun k => x.connsInUse.contains k) = true then
    answers ((s.setLane l (x.setCommission (BitVec.ofNat 16 mask) conns)).flushNotes l) stOk
  else answers s stBadParam

/-- BREAK_SET: bench mode only (R220). -/
def Lane.setBreak (l : Lane) (task : Nat) (addr : Word) : Lane :=
  { l with prog := { l.prog with breaks := (task, addr) :: l.prog.breaks.filter fun b => b.1 != task } }

/-! ### Applying a command (R382) -/

/-- The effect of a command admitted at catch `tn` in lane `l`, with its result; none while an online change runs. -/
def State.applyCmd (s : State) (l : LaneId) (d : CmdDesc) (tn : Nat) : CmdResult :=
  let x := s.lane l
  let a (i : Nat) : Nat := d.args.getD i 0
  let op := d.opcode.toNat
  if op = 0x0304 then
    (match x.keySwitch (a 0) (a 1) with | some y => answers (s.setLane l y) stOk | none => answers s stRefused)
  else if op = 0x0306 then s.keyLoad l (a 0)
  else if op = 0x0403 then
    if x.connsInUse.contains (a 0) then answers (s.setLane l (x.modConn (a 0) (·.closeWith 0x03 tn))) stOk else answers s stBadParam
  else if op = 0x0501 then s.modeCmd l [.stop] .run stRefused
  else if op = 0x0502 then s.modeCmd l [.run, .hold] .stop stRefused
  else if op = 0x0503 then s.modeCmd l [.hold] .run stNotPermitted
  else if op = 0x0504 then
    if x.prog.chg.stage ≠ .none then (s, some (stRefused, chgBusy))
    else (s.admitChange l d.seq (a 0 == 1) (d.data.take (a 1)) (d.data.drop (a 1)), none)
  else if op = 0x0505 then s.forceSetCmd l (BitVec.ofNat 32 (a 0)) d.data
  else if op = 0x0506 then s.forceClearCmd l (BitVec.ofNat 32 (a 0))
  else if op = 0x0507 then s.commissionCmd l (a 0) (d.args.drop 1)
  else if op = 0x0508 then
    if x.on LCTL_STAT_BENCH then answers (s.setLane l (x.setBreak (a 0) (BitVec.ofNat 32 (a 1)))) stOk else answers s stNotPermitted
  else if op = 0x0509 then answers (s.setLane l { x with prog := { x.prog with breaks := x.prog.breaks.filter fun b => b.1 != a 0 } }) stOk
  else if op = 0x0805 then
    if x.peerReady && !x.standby && !x.yielded then answers (s.setLane l { x with yieldNext := true }) stOk else answers s stNotReady
  else if op = 0x0901 then
    if 32 ≤ a 0 then answers s stRefused
    else
      let refused := s.calRefused (a 0) [x.inAgreed (a 0)] tn
      let s := s.calRequest l (BitVec.ofNat 32 (0x100 + a 0)) tn
      if refused then answers (s.upLane l (·.fldFlag FLDP_STAT_CAL_REF)) stRefused else answers s stOk
  else if op = opLaneStep then answers (if a 0 = l.idx then s.setLane l { x with prog := { x.prog with laneStep := true } } else s) stOk
  else answers s stBadOpcode

/-- A lane carries out an admitted command: its sequence is published, its result waits for the finish (R382). -/
def State.takeCmd (s : State) (l : LaneId) (d : CmdDesc) (tn : Nat) : State :=
  let r := s.applyCmd l d tn
  let done_ (p : ProgInt) : ProgInt :=
    match r.2 with | some x => { p with cmdDone := p.cmdDone ++ [(d.seq, x.1, x.2)] } | none => p
  let s := r.1.modLane l fun x =>
    { x with prog := { done_ x.prog with cmdSeq := d.seq } }
  s.modHub fun h =>
    let h := h.modMbx l fun m => { m with admSeq := d.seq, cmds := m.cmds.filter fun e => e.seq != d.seq }
    if h.upd.stepSeq == some d.seq && h.upd.stepT.isNone then { h with upd := { h.upd with stepT := some tn } } else h

end Sys2Proof.Machine
end

