-- ==== Sys2Proof/Machine/Readm.lean ====
section
/-! DEFINITION. Start-up checks and readmission: request, pages, deltas, shadow stroke, abandon (R45, R167 to R171, R199, R200, R210, R228). -/

namespace Sys2Proof.Machine

/-! ### Start-up checks (R45, R328, R422, R522) -/

/-- Descriptors and seeds keep R328. -/
def Lane.settingsOk (l : Lane) : Bool :=
  l.descs.all (fun e => e.2.ok && (l.key e.1).seedsOk) && decide (l.descs.map fun e => e.2.connid).Nodup

/-- The lane's injection test has passed in this start (R194). -/
def Lane.injPassed (l : Lane) : Bool := l.on SIGC_STAT_INJ_PASS

/-- Every start-up check but the injection test; the image verification needs the load check of the station data to have passed (R99). -/
def Lane.checksBut (l : Lane) : Bool :=
  l.on BIST_STAT_VALID && !l.on BIST_STAT_LFAIL && !l.on BIST_STAT_UNREP && !l.on LCTL_MEMSTAT_REP_FAIL && l.start.memOk &&
    l.start.imageOk && l.on RLE_STAT_CHK_OK && l.start.fieldOk && l.start.retainOk && decide (10 ≤ l.fol.ratePass) && l.settingsOk

/-- The start-up checks of R45; a split-core lane leaves the injection test out. -/
def Lane.startChecks (l : Lane) (split : Bool) : Bool := l.checksBut && (split || l.injPassed)

/-- The module runs 2oo2. -/
def State.runs2oo2 (s : State) : Bool := s.voters.length == 2 && s.voters.all fun y => (s.lane y).mode == mode2oo2

/-- Both links of a lane are up. -/
def Lane.linksUp (l : Lane) : Bool := l.linkUp 0 && l.linkUp 1

/-- VOTE_CMD_READMIT: ignored unless the lane is out and may request (R167, R171). -/
def State.readmit (s : State) (l : LaneId) : State :=
  let x := s.lane l
  if !x.rst.held && x.mode == modeOut && s.phase == .running && x.fget VOTE_READM_RSTEP == 0 && !x.on VOTE_READM_FAILED && s.runs2oo2 && x.linksUp &&
      x.startChecks s.split then
    s.setLane l { x.fset VOTE_READM_RSTEP 1 with readm := { readmReset with who := some l } }
  else s

/-- READMIT_REQUEST at an in-vote lane: equal values, `PRGID` among them, and no online change (R167, R210, R228); otherwise the request
is refused with `AREASON` 0x07, which is no abandon of R171: no try is counted and no wait begins (Assumption 115). -/
def State.readmRequest (s : State) (dst src : LaneId) (v : PairValues) : State :=
  let x := s.lane dst
  let y := s.lane src
  if x.rst.held || y.rst.held || !x.inVote || x.mode != mode2oo2 || y.fget VOTE_READM_RSTEP != 1 || dst == src then s
  else if v = x.pairValues ∧ x.prog.chg.stage = .none then
    let s := s.setLane dst { x with readm := { readmReset with who := some src } }
    s.modLane src fun z => { z with readm := { z.readm with agreed := insertL dst z.readm.agreed } }
  else
    s.setLane src { (y.fset VOTE_READM_AREASON 0x07).fset VOTE_READM_RSTEP 0 with readm := readmReset }

/-- The donor of a page: the first in-vote lane for even pages, the other for odd ones (R168). -/
def State.donorOf (s : State) (page : Nat) : Option LaneId :=
  match s.voters with
  | [x, y] => some (if page % 2 = 0 then x else y)
  | _ => none

/-- Pages of the transfer set (R168): the cell window's 128, and those of the image's dynamic state. -/
def pagesOf (prgid : Dword) : Nat := min 1152 (128 + Config.pageCount prgid)

/-- Bytes of a cell page: 32 bytes a cell, as the cell window shows them (R77). -/
def cellOfBytes (bs : List Byte) : CellRec :=
  { st := BitVec.ofNat 64 (leAt bs 0 8), cfg := BitVec.ofNat 128 (leAt bs 8 16), lnk := BitVec.ofNat 64 (leAt bs 24 8) }

/-- The bytes of a cell as its page carries them. -/
def cellBytes (r : CellRec) : List Byte := leBytes 8 r.st.toNat ++ leBytes 16 r.cfg.toNat ++ leBytes 8 r.lnk.toNat

/-- A page stored: pages 0 to 127 are the cell window, the others stand where the image puts them: in the route status table, the path store
or lane SRAM. -/
def Lane.putPage (l : Lane) (page : Nat) (bytes : List Byte) : Lane :=
  if page < 128 then
    (upTo 128).foldl (fun (x : Lane) i => x.setCell (128 * page + i) (cellOfBytes ((bytes.drop (32 * i)).take 32))) l
  else
    let a := Config.pageBase l.prgid page
    match rleArea a with
    | .none => { l with sram := memPutBytes l.sram a bytes }
    | _ => (upTo 1024).foldl (fun (x : Lane) i => x.putAreaWord (a + 4 * i) (BitVec.ofNat 32 (leAt bytes (4 * i) 4))) l

/-- The bytes of a page as a lane holds it. -/
def Lane.pageBytes (l : Lane) (page : Nat) : List Byte :=
  if page < 128 then (upTo 128).flatMap fun i => cellBytes (l.cell (128 * page + i))
  else
    let a := Config.pageBase l.prgid page
    match rleArea a with
    | .none => memBytes l.sram a 4096
    | _ => (upTo 1024).flatMap fun i => leBytes 4 (l.areaWord (a + 4 * i)).toNat
/-- The page is one a running delta waits for, and it comes in time (R169). -/
def ReadmInt.arrived (r : ReadmInt) (page t : Nat) : ReadmInt :=
  let d := r.delta.map fun (e : Nat × Nat × List Nat) => if t ≤ e.2.1 then (e.1, e.2.1, removeL page e.2.2) else e
  { r with delta := d, deltaDone := (d.filter fun e => e.2.2.isEmpty).foldl (fun acc e => insertL e.1 acc) r.deltaDone }

/-- READMIT_PAGE (R168, R171): a bad CRC asks for the page once more; a second one, or a page of another context than its owner, abandons. -/
def State.readmPage (s : State) (dst src : LaneId) (page ctx : Nat) (bytes : List Byte) (crc : Word) (again : Bool) (t : Nat) : State :=
  let x := s.lane dst
  let step := x.fget VOTE_READM_RSTEP
  if x.rst.held || (step != 2 && step != 3) || s.donorOf page != some src || decide (pagesOf x.prgid ≤ page) then s
  else if crc.toNat ≠ crc32c bytes ∨ bytes.length ≠ 4096 then
    if again then s.setLane dst (x.abandonReadm 0x02)
    else s.setLane dst { x with readm := { x.readm with retry := insertL page x.readm.retry } }
  else if ctx ≠ Config.pageOwner x.prgid page then s.setLane dst (x.abandonReadm 0x05)
  else
    let x := x.putPage page bytes
    let got := insertL page x.readm.got
    let r := { x.readm with got := got, retry := removeL page x.readm.retry }
    s.setLane dst { x.fset VOTE_READM_PAGES got.length with readm := if step = 3 then r.arrived page t else r }

/-- READMIT_FULL_PASS_DONE: the deltas begin once every page of the transfer set has come and none waits for its repetition (R169). -/
def Lane.fullPassDone (l : Lane) : Lane :=
  if l.fget VOTE_READM_RSTEP = 2 ∧ l.readm.retry = [] ∧ (upTo (pagesOf l.prgid)).all (fun p => l.readm.got.contains p) = true then
    l.fset VOTE_READM_RSTEP 3
  else l

/-- READMIT_RETRY_HOLDOFF: after 16 strokes the lane may request again, unless it failed (R171). -/
def Lane.readmHoldoff (l : Lane) : Lane :=
  if l.fget VOTE_READM_RSTEP = 6 ∧ l.readm.wait = 0 ∧ l.on VOTE_READM_FAILED = false then l.fset VOTE_READM_RSTEP 0 else l

/-! ### The transfer at a finish, the shadow stroke at a catch (R169, R170) -/

/-- The contexts of a program, the stroke's among them. -/
def Lane.readmCtxs (l : Lane) : List Nat :=
  match l.prog.prog with | some g => (g.tasks.map fun (d : TaskDesc) => d.ctx).foldl (fun acc c => insertL c acc) [0] | none => [0]

/-- Addresses outside the two code areas. -/
def outsideCode (a : Nat) : Bool := decide (0x08400000 ≤ a)

/-- Of two stores, the entries of the even pages of the one and of the odd pages of the other; `n` keys stand in a page (R168). -/
def pageMix {α : Type} (n : Nat) (even odd : List (Nat × α)) : List (Nat × α) :=
  sortBy (fun a b => decide (a.1 ≤ b.1)) ((even.filter fun e => e.1 / n % 2 == 0) ++ odd.filter fun e => e.1 / n % 2 == 1)

/-- Of two lists of like length, the even places of the one and the odd places of the other. -/
def placeMix {α : Type} (even odd : List α) : List α := even.zipIdx.map fun e => if e.2 % 2 = 0 then e.1 else odd.getD e.2 e.1

/-- The joining lane with the dynamic state of its donors, the even pages of the first and the odd pages of the second (R168): cells, route
status, path store, data, tasks and timers, connections, latches. -/
def Lane.takeState (l d e : Lane) : Lane :=
  let kept := sparseFilter (fun a => !outsideCode a) l.sram
  let data := pageMix 4096 (sparseFilter outsideCode d.sram) (sparseFilter outsideCode e.sram)
  let l := (l.setRg TMR_STROKE_NO (d.rg TMR_STROKE_NO)).setRg FLDP_QLATCH (d.rg FLDP_QLATCH)
  { l with cells := pageMix 128 d.cells e.cells, rstat := pageMix 1024 d.rstat e.rstat, pstore := pageMix 1024 d.pstore e.pstore,
           rle := d.rle, sram := kept ++ data, tasks := placeMix d.tasks e.tasks,
           prog := { d.prog with code1 := l.prog.code1, blocks := placeMix d.prog.blocks e.prog.blocks }, conns := pageMix 1 d.conns e.conns,
           fld := { l.fld with agreed := d.fld.agreed, prevInp := d.fld.prevInp, qon := d.fld.qon, clrReq := d.fld.clrReq, qlatNext := d.fld.qlatNext },
           claim := d.claim, standby := d.standby, yielded := d.yielded, cmpOwn := d.cmpOwn, cmpRun := d.cmpRun, peerReady := d.peerReady,
           fol := { l.fol with tn := d.fol.tn } }

/-- The pages of context `c` that a donor wrote since the joining lane got them (R169). -/
def State.dirtyPages (s : State) (src : LaneId) (c : Nat) : List Nat :=
  let y := s.lane src
  (upTo (pagesOf y.prgid)).filter fun p =>
    Config.pageOwner y.prgid p == c && (match s.donorOf p with | some d => (s.lane d).pageBytes p != y.pageBytes p | none => false)

/-- The end of the next consensus of a task whose cycle finished at `t`: its next catch, and 0.2 ms for the stroke or 0.1 ms for a task (R169). -/
def Lane.nextConsensus (l : Lane) (task t : Nat) : Nat :=
  if task = 0 then l.fol.tn + l.period + 200000
  else match l.taskDesc task with | some d => (if d.event then ceilMult 1000000 t else ceilMult (ms d.period) t) + 100000 | none => t

/-- At a donor's finish of context `c` (R169): the full pass of a taken request starts at the stroke finish; after it, the donors send the
context's dirty pages, which must arrive before the end of its next consensus, or the step repeats at the following finish. -/
def State.readmFinish (s : State) (l : LaneId) (task c t : Nat) : State :=
  let x := s.lane l
  match x.readm.who with
  | none => s
  | some src =>
    let y := s.lane src
    if x.readm.taken && !x.readm.started && c == 0 then
      let s := s.setLane l { x with readm := { x.readm with started := true } }
      if y.fget VOTE_READM_RSTEP = 1 then
        s.setLane src { (y.fset VOTE_READM_RSTEP 2).fset VOTE_STAT_MODE modeTransfer with readm := { y.readm with started := true, catches := 0 } }
      else s
    else if y.fget VOTE_READM_RSTEP = 3 ∧ s.donorOf 0 = some l then
      let ps := s.dirtyPages src c
      let others := y.readm.delta.filter fun (e : Nat × Nat × List Nat) => e.1 != c
      let done_ := if ps.isEmpty then insertL c y.readm.deltaDone else removeL c y.readm.deltaDone
      let d2 := match s.donorOf 1 with | some o => s.lane o | none => x
      s.setLane src { y.takeState x d2 with readm := { y.readm with delta := others ++ [(c, x.nextConsensus task t, ps)], deltaDone := done_ } }
    else s

/-- A context has its delta: its finish after the full pass came through in time, or its event task has not run since (R169). -/
def Lane.deltaHas (l : Lane) (c : Nat) : Bool :=
  l.readm.deltaDone.contains c ||
    (match l.prog.prog with
     | some g => c != 0 && (g.tasks.filter fun (d : TaskDesc) => d.ctx == c).all fun (d : TaskDesc) => d.event && !((l.taskOf d.tnum).any (·.active))
     | none => false)

/-- The joining lane at its stroke catch: the hold-off counts; a lane in transfer begins its shadow stroke once every context has its delta,
and abandons at the fourth catch; a lane whose shadow stroke passed becomes a voter. -/
def State.readmCatch (s : State) (l : LaneId) : State :=
  let x := s.lane l
  let step := x.fget VOTE_READM_RSTEP
  if step = 6 then s.setLane l { x with readm := { x.readm with wait := x.readm.wait - 1 } }
  else if step = 4 then
    if x.readm.shadowOk.contains 0 && !x.readm.failed then
      let y := ((x.fset VOTE_READM_RSTEP 5).fset VOTE_STAT_INVOTE 1).setVoters allLanes
      s.setLane l { y with readm := readmReset, gone := [], ctxs := List.replicate 8 ctxReset }
    else s.setLane l (x.abandonReadm 0x04)
  else if step = 2 ∨ step = 3 then
    let n := x.readm.catches + 1
    let x := { x with readm := { x.readm with catches := n } }
    if step = 3 ∧ x.readmCtxs.all x.deltaHas = true then
      let y := (x.fset VOTE_READM_RSTEP 4).fset VOTE_STAT_MODE modeShadow
      s.setLane l { y with readm := { y.readm with shadow := true, shadowOk := [], failed := false } }
    else if 4 ≤ n then s.setLane l (x.abandonReadm 0x03)
    else s.setLane l x
  else s

/-- An in-vote lane at its stroke catch (R167, R170): it takes a request both donors checked; the shadow stroke of the joining lane begins,
or has passed and makes it a voter; a readmission the joining lane abandoned is forgotten. -/
def State.donorCatch (s : State) (l : LaneId) : State :=
  let x := s.lane l
  match x.readm.who with
  | none => s
  | some src =>
    let y := s.lane src
    let ystep := y.fget VOTE_READM_RSTEP
    if y.rst.held || (x.readm.shadow && ystep != 4 && ystep != 5) then s.setLane l { x with readm := readmReset }
    else if x.readm.shadow then
      if x.readm.shadowOk.contains 0 && !x.readm.failed then
        let z := x.setVoters allLanes
        s.setLane l { z with readm := readmReset, gone := z.gone.filter fun g => g.1 != src,
                             ctxs := z.ctxs.map fun (k : VoteCtx) => { k with cntA := if src = .a then 0 else k.cntA, cntB := if src = .b then 0 else k.cntB, cntC := if src = .c then 0 else k.cntC } }
      else s.setLane l { x with readm := readmReset }
    else if ystep = 0 ∨ ystep = 6 ∨ y.rst.held = true then s.setLane l { x with readm := readmReset }
    else if !x.readm.taken then
      if s.voters.all (fun v => y.readm.agreed.contains v) then s.setLane l { x with readm := { x.readm with taken := true } } else s
    else if (ystep = 3 ∨ ystep = 4) ∧ x.readmCtxs.all y.deltaHas = true then
      s.setLane l { x with readm := { x.readm with shadow := true, shadowOk := [], failed := false } }
    else s

/-! ### Meanings -/

/-- VOTE_CMD_READMIT (R167). -/
def execVoteCmdReadmit (l : LaneId) (s : State) : Host.Outcome State Fault Refusal := done (s.readmit l)
/-- READMIT_REQUEST (R167). -/
def execReadmitRequest (dst src : LaneId) (v : PairValues) (s : State) : Host.Outcome State Fault Refusal := done (s.readmRequest dst src v)
/-- READMIT_PAGE (R168). -/
def execReadmitPage (dst src : LaneId) (page ctx : Nat) (bytes : List Byte) (crc : Word) (again : Bool) (t : Nat) (s : State) :
    Host.Outcome State Fault Refusal := done ((s.at t).readmPage dst src page ctx bytes crc again t)
/-- READMIT_FULL_PASS_DONE (R169). -/
def execReadmitFullPassDone (l : LaneId) (s : State) : Host.Outcome State Fault Refusal := done (s.upLane l (·.fullPassDone))
/-- READMIT_RETRY_HOLDOFF (R171). -/
def execReadmitRetryHoldoff (l : LaneId) (s : State) : Host.Outcome State Fault Refusal := done (s.upLane l (·.readmHoldoff))

end Sys2Proof.Machine
end

