-- ==== Sys2Proof/Machine/Stroke.lean ====
section
/-! DEFINITION. The stroke: catch, consensus, admission, request numbering, vote instant and finish, of the stroke task and every other task
(R33 to R73, R213 to R219, R254, R259, R346 to R351). -/

namespace Sys2Proof.Machine

/-! ### The input image (R51 to R54) -/

/-- Order of entries, the digest last. -/
def entryOrd (a b : ConsEntry) : Bool :=
  if a.conn = b.conn ∧ a.seq = b.seq then decide (a.digest.toNat ≤ b.digest.toNat) else entryLe a b

/-- Same connection and sequence. -/
def sameKey (a b : ConsEntry) : Bool := a.conn == b.conn && a.seq == b.seq

/-- What a catch makes of the telegrams before it: the lane with its counts, those that passed in mailbox order, those left for other
contexts. -/
structure Frozen where
  lane : Lane
  ok   : List (ConsEntry × InTlg)
  rest : List InTlg
  deriving DecidableEq, Repr

/-- Check one telegram of context `c` at `tn` (R336): passed, counted and discarded, or left alone; a second copy of a telegram is discarded
as a repeat (R57). -/
def Frozen.check (c tn : Nat) (a : Frozen) (g : InTlg) : Frozen :=
  match a.lane.checkTlg g.bytes tn with
  | (v, some k) =>
    if (a.lane.desc k).ctx ≠ c ∨ tn ≤ g.t then { a with rest := a.rest ++ [g] }
    else if v = .ok then
      match parseTlg g.bytes with
      | some t =>
        let e := entryOf t g.bytes
        if a.ok.any (fun x => sameKey x.1 e) then a else { a with ok := a.ok ++ [(e, g)], rest := a.rest ++ [g] }
      | none => a
    else { a with lane := a.lane.countTlg k v }
  | (_, none) => if c = 0 ∧ g.t < tn then a else { a with rest := a.rest ++ [g] }

/-- The entries listed: at most `n`, oldest first; no entry of a connection whose earlier sequence stays pending (R54, R58). -/
def listing (n : Nat) (ok : List (ConsEntry × InTlg)) : List (ConsEntry × InTlg) :=
  let excess := ok.drop n
  let first := (ok.take n).filter fun x => !(excess.any fun o => o.1.conn == x.1.conn && decide (o.1.seq.toNat < x.1.seq.toNat))
  sortBy (fun a b => entryOrd a.1 b.1) first

/-- Commands in the mailbox that the lane lists at a stroke catch (R219): committed before it, and not admitted yet. -/
def newCmds (cs : List CmdDesc) (last : Word) (tn : Nat) : List CmdDesc :=
  cs.filter fun d => decide (d.t < tn) && decide (0 < sdiff32 d.seq.toNat last.toNat)

/-! ### Admission (R55 to R58) -/

/-- State of the admission loop. -/
structure Admit where
  admitted : List ConsEntry
  fetches  : List (LaneId × Nat)
  blocked  : List Dword
  deriving DecidableEq, Repr

/-- One entry of the union. -/
def Admit.step (lists : List (LaneId × List ConsEntry)) (a : Admit) (e : ConsEntry) : Admit :=
  let lacking := (lists.filter fun x => !x.2.contains e).map (·.1)
  let count (y : LaneId) : Nat := match a.fetches.find? fun f => f.1 == y with | some f => f.2 | none => 0
  if lists.length < lacking.length + 2 ∨ a.blocked.contains e.conn = true then a
  else if lacking.any (fun y => count y == 64) then { a with blocked := insertL e.conn a.blocked }
  else
    let f := lacking.foldl (fun fs y => (y, count y + 1) :: fs.filter fun x => x.1 != y) a.fetches
    { a with admitted := a.admitted ++ [e], fetches := f }

/-- The union of the lists in order. -/
def unionOf (lists : List (LaneId × List ConsEntry)) : List ConsEntry :=
  sortBy entryOrd ((lists.flatMap (·.2)).foldl (fun acc e => if acc.contains e then acc else e :: acc) [])

/-- Entries whose connection and sequence stand with different digests (R55). -/
def conflicting (u : List ConsEntry) : List ConsEntry := u.filter fun e => u.any fun x => sameKey e x && x.digest != e.digest

/-- Admission over the lists of the in-vote lanes. -/
def admission (lists : List (LaneId × List ConsEntry)) : List ConsEntry × List ConsEntry :=
  let u := unionOf lists
  let bad := conflicting u
  (((u.filter fun e => !bad.contains e).foldl (Admit.step lists) { admitted := [], fetches := [], blocked := [] }).admitted, bad)

/-! ### Request numbering (R62, R63) -/

/-- A route request of an admitted telegram or of a program: key and words. -/
structure ReqIn where
  pri  : Nat
  conn : Nat
  seq  : Nat
  idx  : Nat
  ws   : List Word
  deriving DecidableEq, Repr

/-- Order of requests. -/
def ReqIn.le (a b : ReqIn) : Bool :=
  if a.pri = b.pri then (if a.conn = b.conn then decide (a.seq ≤ b.seq) else decide (a.conn ≤ b.conn)) else decide (a.pri ≤ b.pri)

/-- The request of a telegram of a request connection; `SRCX` is written by the stroke task. -/
def Lane.requestOf (l : Lane) (t : Tlg) : Option ReqIn :=
  match l.connIdx t.connid with
  | some k =>
    if (l.desc k).cls = clsRequest ∧ t.type = tyData ∧ t.payload.length = 16 then
      let w (i : Nat) : Word := BitVec.ofNat 32 (beAt t.payload (4 * i) 4)
      some { pri := bvField (w 0) 22 4, conn := t.connid.toNat, seq := t.seq, idx := k, ws := [w 0, w 1, w 2, bvSet (w 3) 0 10 k] }
    else none
  | none => none

/-- The local route requests frozen at the catch: sender identity 0, issue order as sequence, `SRCX` 0x3FF (R62, R111). -/
def Lane.localRequests (l : Lane) : List ReqIn :=
  l.prog.asked.zipIdx.map fun e =>
    let w (i : Nat) : Word := e.1.extractLsb' (32 * i) 32
    { pri := bvField (w 0) 22 4, conn := 0, seq := e.2, idx := 0x3FF, ws := [w 0, w 1, w 2, bvSet (w 3) 0 10 0x3FF] }

/-- The request table of a stroke: the first 64 in number order, `NREQ`, and those whose senders are answered with CAPACITY. Each request beyond
the 64th is an event of R101: a recorder entry names the stroke and the request's number; it has no `RID` (R102). -/
def Lane.writeRequests (l : Lane) (ts : List Tlg) : Lane :=
  let rs := sortBy ReqIn.le (ts.filterMap l.requestOf ++ l.localRequests)
  let l := (rs.take 64).zipIdx.foldl (fun (x : Lane) e => x.setRgs (reqAddr e.2) e.1.ws) l
  let excess := ((rs.drop 64).filter fun r => r.idx != 0x3FF).map fun r => (r.idx, bvField (r.ws.getD 2 0#32) 16 16)
  let l := { l.fset RLE_NREQ_NREQ (min 64 rs.length) with prog := { l.prog with overflow := excess } }
  (upTo (rs.length - 64)).foldl (fun (x : Lane) i => x.note 14 2 102 [(4, x.stroke.toNat), (2, 65 + i), (2, 0)]) l

/-- The input area: slot k takes connection k's payload (R107). -/
def Lane.writeSlots (l : Lane) (tn : Nat) : Lane :=
  let base := (l.rg RLE_INBASE).toNat
  { l with sram := (upTo 512).foldl (fun m k => slotPut m base k (l.slotInput k tn)) l.sram }

/-! ### The pair (R349 to R352, R360) -/

/-- The peer-module connection. -/
def Lane.peerConn (l : Lane) : Option Nat := (l.descs.find? fun e => e.2.cls == clsPeer).map (·.1)

/-- The lane's part of READY (R350): 16 equal digests in a row, the peer connection OPEN. -/
def Lane.pairReady (l : Lane) : Bool :=
  l.standby && decide (16 ≤ l.cmpRun) && (match l.peerConn with | some k => (l.conn k).isOpen | none => false)

/-- The peer telegrams among those of a stroke catch: payloads of DATA. -/
def Lane.peerPayloads (l : Lane) (ts : List Tlg) : List (List Byte) :=
  ts.filterMap fun t =>
    match l.connIdx t.connid with | some k => if (l.desc k).cls = clsPeer ∧ t.type = tyData then some t.payload else none | none => none

/-- The comparison of R349 in a standby lane: none where the stroke brought no digest, else whether it is equal. -/
def Lane.compareIn (l : Lane) (ts : List Tlg) : Option Bool :=
  match (l.peerPayloads ts).find? fun p => p.length == 12 with
  | some p =>
    (l.cmpOwn.find? fun e => e.1.toNat == beAt p 0 4).map fun e => e.2.toNat == beAt p 4 8
  | none => none

/-- The hub's view of READY. -/
def State.showReady (s : State) : State :=
  let n := (s.voters.filter fun y => (s.lane y).pairReady).length
  if s.hub.up then s.modHub (·.fset PTNR_STAT_READY (b2n (decide (2 ≤ n)))) else s

/-- The partner protocol version of the hub image that runs (R452, R464). -/
def State.ownPtnrver (s : State) : Nat :=
  let p := s.pointer
  hdrPtnrver (s.slotHdr (if p.trial ≠ 0xFF ∧ getField p.parts 1 1 = 1 then p.trial else p.active))

/-- Two partner protocol versions interoperate: N and N ± 1 (R363). -/
def ptnrverNear (a b : Nat) : Bool := decide (a ≤ b + 1) && decide (b ≤ a + 1)

/-- A standby may resynchronise: its voters' image slot, vote generation, station data digest, settings digest and `PRGID` equal the active's,
and the partner protocol versions interoperate (R363). -/
def State.resyncOk (s : State) : Bool :=
  ptnrverNear s.ownPtnrver s.hub.ptnr.peerVer &&
    (match s.hub.ptnr.peerVals with | some v => s.voters.all fun l => (s.lane l).pairValues == v | none => false)

/-- Resynchronisation starts, or is refused with a recorder entry; a standby that refuses stays not READY (R363, R364). -/
def State.startResync (s : State) : State :=
  if s.resyncOk then
    s.modHub fun h =>
      let h := ((h.fset PTNR_STAT_ROLE 4).fset PTNR_STAT_READY 0).fsat PTNR_RESYNC_PASSES 1
      { h with ptnr := { h.ptnr with resync := true, yielded := false, got := [], retry := [] } }.fset PTNR_RESYNC_PAGES 0
  else
    (s.recHub 5 8 363 []).modHub fun h =>
      let h := (h.fset PTNR_STAT_ROLE 3).fset PTNR_STAT_READY 0
      { h with ptnr := { h.ptnr with resync := false, yielded := false } }

/-- A comparison in lane `l` at a stroke catch of a standby; the first voter's is the one the hub counts. A differing digest starts
resynchronisation (R350, R364). -/
def State.compareCatch (s : State) (l : LaneId) (ts : List Tlg) : State :=
  let x := s.lane l
  if !x.standby || !x.set.pairEn then s
  else
    let r := x.compareIn ts
    let s := s.setLane l { x with cmpRun := if r = some true then satInc 255 x.cmpRun else 0 }
    let s :=
      if r = some true || s.voters.head? != some l || !s.hub.up then s
      else
        let s := s.modHub fun h => (h.fset PTNR_STAT_CMP_ERR 1).fsat PTNR_CNT_CMPFAIL 1
        if r = some false then
          (s.recHub 5 8 350 []).startResync
        else s
    s.showReady

/-- The hub of a yielding module runs as a standby that is not READY (R351). -/
def State.hubYields (s : State) : State :=
  if s.hub.up && s.hub.fget PTNR_STAT_ROLE == 2 then
    s.modHub fun h => { ((h.fset PTNR_STAT_ROLE 3).fset PTNR_STAT_READY 0).fsat PTNR_CNT_YIELD 1 with ptnr := { h.ptnr with yielded := true } }
  else s

/-- An active yields at the catch at which it admits a claim above its own, and at the catch after an admitted yield command (R351). -/
def State.yieldAt (s : State) (l : LaneId) (ts : List Tlg) : State :=
  let x := s.lane l
  if x.set.pairEn && !x.standby && ts.any (fun t => decide (x.claim.toNat < t.claim)) then
    (s.setLane l { x with standby := true, yielded := true, cmpRun := 0 }).hubYields
  else s

/-! ### Processing what was admitted -/

/-- Length of a task's consensus window: 0.2 ms for the stroke, 0.1 ms for a task, 2.0 ms for a standby's stroke (R60, R64, R347). -/
def Lane.consWindow (l : Lane) (task : Nat) : Nat := if task = 0 then (if l.standby && l.set.pairEn then 2000000 else 200000) else 100000

/-- The telegram bytes of admitted entries, in order. -/
def TaskRun.admittedTlgs (k : TaskRun) : List Tlg :=
  (k.admitted.filter fun e => e.conn != cmdConn).filterMap fun e => ((k.frozen.find? fun x => x.1 == e).map fun x => x.2.bytes).bind parseTlg

/-- Telegram triggers of the admitted telegrams (R215). -/
def Lane.tlgTriggers (l : Lane) (ts : List Tlg) (at_ : Nat) : Lane :=
  ts.foldl (fun (x : Lane) t => match x.connIdx t.connid with | some k => x.trigger at_ fun d => d.trig == 2 && d.tsrc == k | none => x) l

/-- The commands admitted, in sequence order. -/
def State.runCmds (s : State) (l : LaneId) (k : TaskRun) (tn : Nat) : State :=
  (k.admitted.filter fun e => e.conn == cmdConn).foldl (fun (s : State) e =>
    match (s.lane l).prog.cmdPend.find? fun d => cmdEntry d == e with | some d => s.takeCmd l d tn | none => s) s

/-- Forced values in the copies of a task, and of every task caught with a stroke whose commands have just been carried out (R231). -/
def Lane.forceViews (l : Lane) (task tn : Nat) : Lane :=
  { l with tasks := l.tasks.map fun k =>
      if k.tnum = task ∨ (task = 0 ∧ k.active = true ∧ k.tn = tn) then { k with view := l.overlayForces k.view } else k }

/-- The task is ready to run (R212): in RUN with its variables and instances of the last finish in RUN, the values of this catch presented and the
library stepped on them (R217, R264). -/
def Lane.beginCompute (l : Lane) (task : Nat) : Lane :=
  match l.taskOf task with
  | some k =>
    let k := { k with safe := l.fld.agreed.present, ready := k.mode == .run }
    let l := l.modTask task fun _ => k
    if k.mode = .run then ((l.restoreTask k).applyForces).runBlocks k else l
  | none => l

/-- What a task's consensus gives its lane: telegrams, commands, triggers, latches, requests, forces, library instances, all dated T_n. -/
def State.process (s : State) (l : LaneId) (task : Nat) : State :=
  match (s.lane l).taskOf task with
  | none => s
  | some k =>
    let tn := k.tn
    let ts := k.admittedTlgs
    let c := (s.lane l).ctxOf task
    let s := s.yieldAt l ts
    let s := s.modLane l fun x =>
      let x := ((x.takeAll tn ts []).tlgTriggers ts (tn + x.consWindow task)).fieldTriggers (tn + x.consWindow task)
      match (x.peerPayloads ts).find? fun p => p.length == 1 with
      | some p => { x with peerReady := p == [1#8] }
      | none => x
    let s := if task = 0 then (s.runCmds l k tn).compareCatch l ts else s
    (s.modLane l fun x =>
      let x := (x.catchOutputs c x.fld.agreed).writeQlat c
      let x := if task = 0 then (x.writeSlots tn).writeRequests ts else x
      let x := x.applyForces
      (x.forceViews task tn).beginCompute task).flushNotes l

/-! ### Deciding (R55 to R61, R170) -/

/-- The frames a lane decides on: its own as a voter, and those of the voters it hears. -/
def Lane.framesOf (l : Lane) (k : TaskRun) : List (LaneId × ConsFrame) :=
  let mine := match k.own with | some f => if l.inVote then [(l.id, f)] else [] | none => []
  let all := mine ++ k.peers.filter fun e => e.2.inVote && e.2.tn == k.tn && (l.shadow || l.inset.contains e.1)
  allLanes.filterMap fun y => all.find? fun e => e.1 == y

/-- The peers whose frames a lane waits for. -/
def Lane.awaits (l : Lane) (voters : List LaneId) : List LaneId :=
  (if l.shadow then voters else l.inset).filter fun y => y != l.id && (l.link (l.linkTo y)).eff

/-- The active's hub sends FWD_LIST and the FWD_TLG frames of the telegrams that its lanes admitted at a stroke catch, once, at its first
voter's decision (R347). -/
def State.forwardAdmitted (s : State) (l : LaneId) (tn : Nat) (es : List ConsEntry) : State :=
  if !s.hub.up || !s.hub.set.pairEn || s.hub.fget PTNR_STAT_ROLE != 2 || s.voters.head? != some l then s
  else
    let st := (s.lane l).stroke
    let es := es.filter fun e => e.conn != cmdConn
    let held := s.voters.flatMap fun y => match (s.lane y).taskOf 0 with | some k => k.frozen | none => []
    let tlgs := es.filterMap fun e => (held.find? fun z => z.1 == e).map fun z => z.2.bytes
    let put (f : List Byte) (p : PtnrInt) : PtnrInt := { p with fwdFrames := p.fwdFrames ++ [f] }
    s.modHub fun h =>
      let h := { h with ptnr := { h.ptnr with fwdFrames := [] } }.sendFrame 0x23 (fwdListBytes st tn es) put
      tlgs.zipIdx.foldl (fun (h : Hub) e => h.sendFrame 0x24 (fwdTlgBytes st e.2 e.1) put) h

/-- The lane decides its task's consensus. -/
def State.decideTask (s : State) (l : LaneId) (task : Nat) : State :=
  let x := s.lane l
  match x.taskOf task with
  | none => s
  | some k =>
    if !k.active || k.decided then s
    else
      let fs := x.framesOf k
      let r := admission (fs.map fun e => (e.1, e.2.entries))
      let own := k.frozen.map (·.1)
      let cmds := x.prog.cmdPend.map cmdEntry
      let lack := r.1.filter fun e => if e.conn == cmdConn then !cmds.contains e else !own.contains e
      let keys := r.2.foldl (fun (acc : List ConsEntry) e => if acc.any (sameKey e) then acc else acc ++ [e]) []
      let x := keys.foldl (fun (y : Lane) e =>
        match y.connIdx e.conn with
        | some i => (y.modConn i (·.corrupt 1)).note blkFirmware 4 55 []
        | none => y) x
      let a := agreeField (x.fget FLDP_ENCCFG0_TOL) (x.fget FLDP_ENCCFG1_TOL) (fs.map fun e => e.2.img)
      let x := ({ x with fld := { x.fld with prevInp := x.fld.agreed.inp, agreed := a } }).agreeHolds k.tn
      let x := x.modTask task fun k => { k with admitted := r.1, toFetch := lack, decided := true }
      let gone := (k.frozen.filter fun z => r.1.contains z.1 || r.2.contains z.1).map (·.2)
      let s := (s.setLane l x).flushNotes l
      let s := s.modHub (·.modMbx l fun m => { m with inTlg := m.inTlg.filter fun g => !gone.contains g })
      let s := if task = 0 then s.forwardAdmitted l k.tn r.1 else s
      if lack = [] then s.process l task else s

/-- Decide once every awaited frame is in. -/
def State.tryDecide (s : State) (l : LaneId) (task : Nat) : State :=
  let x := s.lane l
  match x.taskOf task with
  | some k =>
    if k.active && (x.awaits s.voters).all fun y => k.peers.any fun e => e.1 == y && e.2.tn == k.tn then s.decideTask l task else s
  | none => s

/-- The links at a catch or vote instant (R160, R161): a lane outside the set that stays leaves with LINK, or the module enters easy all. -/
def State.linkCatch (s : State) (l : LaneId) (due : Nat) : State :=
  let s := s.modLane l (·.takeLinks)
  let x := s.lane l
  if !x.inVote then s
  else
    let stay := s.linkStay x.staying
    if stay.length < 2 then s.enterEasy l easyFewLanes false
    else if !stay.contains l then s.leave l leaveLink 0 0 due causeSwr
    else
      let out := x.staying.filter fun y => !stay.contains y
      let kept := x.gone.filter fun (g : LaneId × Nat) => !out.contains g.1
      let all := out.map (fun y => (y, leaveLink)) ++ kept
      s.setLane l { x with gone := all }.dropGone

/-! ### Consensus frames and fetches (R36, R53 to R61) -/

/-- The consensus frame a lane sends to its peers for the running catch of a task (R53). -/
def Lane.sentFrame (l : Lane) (task : Nat) : Option (List Byte) := ((l.taskOf task).bind (·.own)).map (consBytes l.id)

/-- The reference of R36 against the lane's own time: the median of three, the mean of two. -/
def holdRef (offs : List Int) : Int :=
  match offs with
  | [p] => p / 2
  | [p, q] => max (min p q) (min 0 (max p q))
  | _ => 0

/-- The drift check and the slew in holdover, once every in-vote peer's time is known (R36): a slew of at most 0.1 % of the time since the last,
which never steps the follower back (R38). -/
def Lane.holdCheck (l : Lane) (src : LaneId) (f : ConsFrame) (t : Nat) : Lane :=
  if !l.on TMR_STAT_HOLDOVER then l
  else
    let offs := (src, (f.sendTime : Int) - t) :: l.fol.peerOff.filter fun e => e.1 != src
    let others := l.inset.filter fun y => y != l.id
    let l := { l with fol := { l.fol with peerOff := offs } }
    if !others.all (fun y => offs.any fun e => e.1 == y) then l
    else
      let ref := holdRef ((offs.filter fun e => others.contains e.1).map (·.2))
      let el : Int := (t : Int) - l.fol.holdStart
      let lim : Int := ((t : Int) - l.fol.slewT) / 1000
      let step : Int := max (-lim) (min lim ref)
      let l := { l with fol := { l.fol with time := max l.fol.time ((l.fol.time : Int) + step).toNat, off := l.fol.off + step, slewT := t,
                                            peerOff := [] } }
      if ((-ref - l.fol.holdOff).natAbs : Int) * 200 ≤ el then l
      else { l.fset TMR_STAT_RATE_ERR 1 with due := l.due ++ [(leaveRate, Option.none)] }

/-- CONSENSUS_FRAME. -/
def State.consFrame (s : State) (dst src : LaneId) (task : Nat) (f : ConsFrame) (t : Nat) : State :=
  let x := s.lane dst
  if x.rst.held || x.easy || dst == src || !(x.inVote || x.shadow) then s
  else if !(x.inset.contains src || x.shadow) then (if x.readm.who == some src then s else s.setLane dst x.countStray)
  else if !x.hears src then s
  else
    let x := x.holdCheck src f t
    let k := (x.taskOf task).getD (taskNew task)
    let late := k.active && f.tn == k.tn && (k.decided || decide (k.tn + x.consWindow task < t))
    if late || decide (f.tn < k.tn) then s.setLane dst x
    else
      let x := x.modTask task fun k => { k with peers := (src, f) :: k.peers.filter fun e => e.1 != src }
      (s.setLane dst x).tryDecide dst task

/-- CONSENSUS_DEADLINE: a voter whose frame has not come leaves at the vote instant; with fewer than two in time the module enters easy all
(R60). -/
def State.consDeadline (s : State) (l : LaneId) (task t : Nat) : State :=
  let x := s.lane l
  match x.taskOf task with
  | some k =>
    if x.rst.held || x.easy || !k.active || k.decided || decide (t < k.tn + x.consWindow task) then s
    else
      let missing := (x.awaits s.voters).filter fun y => !(k.peers.any fun e => e.1 == y && e.2.tn == k.tn)
      let s := missing.foldl (fun (s : State) y =>
        s.modLane y fun z => if z.inVote then { z with due := z.due ++ [(leaveConsLate, some task)] } else z) s
      if x.inVote && decide ((x.framesOf k).length < 2) then s.enterEasy l easyFewLanes false else s.decideTask l task
  | none => s

/-- A peer listed an entry in its consensus frame (R56). -/
def TaskRun.listedBy (k : TaskRun) (src : LaneId) (e : ConsEntry) : Bool := k.peers.any fun p => p.1 == src && p.2.entries.contains e

/-- TELEGRAM_FETCH, from a peer that listed the telegram: the lane checks the fetched copy itself; a copy that fails makes it leave with
FETCH_BAD at the vote instant (R56). -/
def State.fetchTlg (s : State) (dst src : LaneId) (task : Nat) (bs : List Byte) : State :=
  let x := s.lane dst
  match x.taskOf task with
  | some k =>
    if x.rst.held || x.easy || !k.active || !k.decided then s
    else
      match k.toFetch.find? fun e => e.conn == cmdConn && k.listedBy src e && (s.lane src).prog.cmdPend.any (fun d => cmdEntry d == e && cmdBytes d == bs) with
      | some e =>
        let ds := (s.lane src).prog.cmdPend.filter fun d => cmdEntry d == e
        let x := { x with prog := { x.prog with cmdPend := x.prog.cmdPend ++ ds } }
        let s := s.setLane dst (x.modTask task fun k => { k with toFetch := removeL e k.toFetch })
        if removeL e k.toFetch = [] then s.process dst task else s
      | none =>
        let id : Dword := BitVec.ofNat 64 (beAt bs (bs.length - 16) 8)
        match k.toFetch.find? fun e => e.conn == id && e.seq.toNat == beAt bs 8 4 && k.listedBy src e with
        | none => s
        | some e =>
          let good := decide (16 ≤ bs.length) && (x.checkTlg bs k.tn).1 == .ok && e.digest.toNat == crc32c bs
          let rest := removeL e k.toFetch
          let x := x.modTask task fun k =>
            { k with toFetch := rest, frozen := if good then k.frozen ++ [(e, { conn := 0, bytes := bs, t := k.tn })] else k.frozen }
          let x := if good then x else { x with due := x.due ++ [(leaveFetchBad, some task)] }
          let s := s.setLane dst x
          if rest = [] then s.process dst task else s
  | none => s

/-! ### Vote instant (R68, R71, R72, R161) -/

/-- The reason for leaving that is due at a task's vote instant: one noted before, telegrams never fetched, or an overrun (of several, the
first of these stands in `VOTE_LEAVE`; Assumption 93). -/
def Lane.dueReason (l : Lane) (k : TaskRun) (task : Nat) (finished : Bool) : Option Nat :=
  match l.due.find? fun d => d.2 == Option.none || d.2 == some task with
  | some d => some d.1
  | none => if k.toFetch ≠ [] then some leaveFetchBad else if finished then none else some leaveOverrun

/-- Flags of a reason for leaving; a lane whose fetched copy fails dissents (R56). -/
def Lane.reasonFlag (l : Lane) (r : Nat) : Lane :=
  if r = leaveConsLate then l.fset TMR_STAT_CONS_LATE 1 else if r = leaveFetchBad then l.voteFlag VOTE_STAT_DISSENT else l

/-- An overrun is flagged and recorded with task, lane, stroke and elapsed compute time in µs, which the record's two bytes hold up to 65,535
(R71; Assumption 93). -/
def Lane.noteOverrun (l : Lane) (task us : Nat) : Lane :=
  (l.fset TMR_STAT_OVERRUN 1).note 4 2 71 [(1, task), (1, l.id.code), (4, l.stroke.toNat), (2, min us 65535)]

/-- The image a task hands over: forced values, safe values where it was caught outside RUN, `QON` 0 for the interlocking of a standby
(R217, R218, R231, R346). -/
def Lane.readyImage (l : Lane) (k : TaskRun) (task c : Nat) : Lane :=
  let l := if k.mode = .run then l else l.stoppedImage c
  let l := l.applyForces
  let l := if task = 0 then l.storeForces else l
  if task = 0 ∧ (l.standby || l.yielded) = true then l.clearQon 0 (l.qOwned 0) else l

/-- The vote of a task begins with its image, where its context is enabled. -/
def Lane.handOver (l : Lane) (k : TaskRun) (task c t : Nat) (asks : TaskAsks) : Lane :=
  let l := l.takeAsks k asks
  if l.ctxEn c then (l.readyImage k task c).beginVote c task k.tn t else l

/-- The stroke's compute time in µs, from T_n (`TMR_CMAX`, `TMR_CLAST`). -/
def Lane.countCompute (l : Lane) (us : Nat) : Lane :=
  (l.fset TMR_CMAX_CMAX (max (l.fget TMR_CMAX_CMAX) (min us 0xFFFFF))).fset TMR_CLAST_CLAST (min us 0xFFFFF)

/-- VOTE_INSTANT. -/
def State.voteInstant (s : State) (l : LaneId) (task : Nat) (finished : Bool) (us : Nat) (asks : TaskAsks) (t : Nat) : State :=
  let x := s.lane l
  match x.taskOf task with
  | none => s
  | some k =>
    let c := x.ctxOf task
    if x.rst.held || x.easy || !k.active || !k.decided || t != k.tn + x.dOf task || (x.ctx c).stage != .idle || !(x.inVote || x.shadow) then s
    else
      let s := s.linkCatch l (t + finishDue c)
      let x := ((s.lane l).dropGone.modTask task fun k => { k with ready := false }).raise 1
      let x := if finished then (if task = 0 then x.countCompute us else x) else x.noteOverrun task us
      let s := (s.setLane l x).flushNotes l
      let x := s.lane l
      if x.shadow then (if finished then s.setLane l (x.handOver k task c t asks) else s)
      else if !x.inVote then s
      else
        match x.dueReason k task finished with
        | some r => (s.setLane l (x.reasonFlag r)).leave l r c 0 (t + finishDue c) causeSwr
        | none => s.setLane l (x.handOver k task c t asks)

/-! ### Finish (R68, R69, R174, R213 to R222, R346, R349) -/

/-- The compare digest of a stroke: CRC-64/ECMA over the 36 block digests of regions 0 and 1 of context 0 (R349). -/
def VoteCtx.compareDigest (x : VoteCtx) : Dword := BitVec.ofNat 64 (crc64 ((x.dig.take 36).flatMap fun d => beBytes 8 d.toNat))

/-- `n` bytes at `a` as the vote of context `c` decided them, and as they stand where no region of the context holds them (R68). -/
def Lane.voted (l : Lane) (c a n : Nat) : List Byte :=
  let loc := (l.regions c).foldl (fun (acc : Nat × Option Nat) r =>
    (acc.1 + r.nseg, if acc.2.isNone ∧ r.kind = 0 ∧ r.base ≤ a ∧ a + n ≤ r.base + 64 * r.nseg then some (64 * acc.1 + (a - r.base)) else acc.2)) (0, none)
  match loc.2 with
  | some o => (((((l.ctx c).image.drop (o / 64)).take ((o % 64 + n + 63) / 64)).flatten).drop (o % 64)).take n
  | none => memBytes l.sram a n

/-- Payload of a voted slot in the layout of R107, when `SVALID`. -/
def Lane.slotAt (l : Lane) (c a : Nat) : Option (List Byte) :=
  let w := leAt (l.voted c a 4) 0 4
  if getField w 31 1 = 1 then some (l.voted c (a + 4) (min 196 (getField w 0 8))) else none

/-- What an indication connection tells of the requests beyond the 64th: those of the sender it shares carrier, port and address with (Assumption
114). -/
def Lane.rejected (l : Lane) (k : Nat) : List (Nat × Nat) :=
  let d := l.desc k
  if d.cls = clsIndication then
    l.prog.overflow.filter fun r =>
      let q := l.desc r.1
      q.carrier == d.carrier && q.port == d.port && q.vlan == d.vlan && q.peermac == d.peermac
  else []

/-- A CAPACITY result in the layout of R112, as four big-endian words; the last names the request's connection (Assumption 114). -/
def capacityResult (r : Nat × Nat) : List Byte := beBytes 4 0x0B000000 ++ beBytes 4 0 ++ beBytes 4 (r.2 * 0x10000) ++ beBytes 4 r.1

/-- The payload with the CAPACITY results its 196 bytes have room for behind it (R63, Assumption 114). -/
def Lane.withRejected (l : Lane) (k : Nat) (p : Option (List Byte)) : Option (List Byte) :=
  match l.rejected k with
  | [] => p
  | rs => some (p.getD [] ++ (rs.take ((196 - (p.getD []).length) / 16)).flatMap capacityResult)

/-- The payload connection `k` sends at a finish of context `c`: the pair's (R349), the route engine's output slot (R109), or slot k of a
`TLG` region of the context (R152); a stroke's indication telegrams also tell its rejected requests (R63). -/
def Lane.sendPayload (l : Lane) (c k : Nat) : Option (List Byte) :=
  if (l.desc k).cls = clsPeer then
    some (if l.standby || l.yielded then [BitVec.ofNat 8 (b2n l.pairReady)]
          else beBytes 4 l.stroke.toNat ++ beBytes 8 (l.ctx 0).compareDigest.toNat)
  else
    let rs := (l.regions c).filter fun r => r.tlg && r.kind == 0 && decide (256 * k + 256 ≤ 64 * r.nseg)
    let own := match rs with | r :: _ => l.slotAt c (r.base + 256 * k) | [] => none
    let p := match (if c = 0 then l.slotAt 0 ((l.rg RLE_OUTBASE).toNat + 256 * k) else none) with
      | some p => some p
      | none => own
    if c = 0 then l.withRejected k p else p

/-- Connections a lane places telegrams for: all, or in a standby or after a yield only the peer module's (R346, R351). -/
def Lane.mayPlace (l : Lane) (k : Nat) : Bool := !(l.standby || l.yielded) || (l.desc k).cls == clsPeer

/-- Commit the voted image of a context: majority contents where the lane differed below its threshold (R162), enables, outputs, telegrams
(R68, R174, R250). The sign engine is enabled at a finish at which the lane agrees. -/
def Lane.commitImage (l : Lane) (split : Bool) (c t : Nat) : Lane × List OutTlg :=
  let l := l.adoptMemory c
  let l := if split then l else (l.fset VOTE_STAT_DYN_EN 1).fset VOTE_STAT_SIGN_EN (b2n (l.ctx c).differs.isEmpty)
  let l := match l.fieldBlock c with
    | some a => l.commitField split c (leAt (l.voted c a 4) 0 4) (leAt (l.voted c (a + 4) 4) 0 4)
    | none => l
  l.sendAll c t (l.sendPayload c) fun k => l.on VOTE_STAT_SIGN_EN && l.mayPlace k

/-- Pages of the transfer set of context 0 (R364). -/
def ptnrPages : Nat := 1152

/-- An active whose standby is not READY sends PAGE frames at the finish of its first voter: the full pass, and from then on the pages written
since they were sent (R364). -/
def State.sendPages (s : State) (l : LaneId) : State :=
  let p := s.hub.ptnr
  if !s.hub.up || s.hub.fget PTNR_STAT_ROLE != 2 || s.voters.head? != some l then s
  else if p.peerRole ≠ 2 ∨ s.hub.on PTNR_STAT_PEER_READY = true ∨ s.hub.xtRuns = false then
    s.modHub fun h => { h with ptnr := { h.ptnr with pageOut := [], pageSent := [] } }
  else
    let now := (upTo ptnrPages).map fun i => (i, crc32c ((s.lane l).pageBytes i))
    let out := (now.filter fun e => !p.pageSent.contains e).map (·.1)
    s.modHub fun h => { h with ptnr := { h.ptnr with pageOut := out, pageSent := now, txSeq := h.ptnr.txSeq + BitVec.ofNat 32 out.length } }

/-- The stroke's own events at its finish: retain copy, compare digest, command results, a lane step (R222, R349, R382, R466). -/
def State.strokeFinish (s : State) (l : LaneId) : State :=
  let x := s.lane l
  let cmp := (x.stroke, (x.ctx 0).compareDigest)
  let x := { x.writeRetain.countForced with cmpOwn := (cmp :: x.cmpOwn).take 4 }
  let out := x.prog.cmdDone
  let step := x.prog.laneStep
  let s := s.setLane l { x with prog := { x.prog with cmdDone := [], laneStep := false } }
  let s := s.modHub (·.modMbx l fun m => { m with results := (m.results ++ out).drop (m.results.length + out.length - 64), pubTime := x.fol.time })
  let s := if x.yieldNext && s.hub.up then
      s.modHub fun h => h.sendFrame 0x22 (yieldBytes 2 (h.rg PTNR_CLAIM) x.stroke) fun f p => { p with yieldOut := f }
    else s
  let s := s.sendPages l
  (if step then s.leaveAtOnce l leaveFirmware causeSwr else s).collectResults

/-- A task's cycle ends in the lane: its values as committed, HOLD after a breakpoint, IDLE when nothing runs (R43, R213, R217, R220). -/
def Lane.endTask (l : Lane) (task c t : Nat) : Lane :=
  let now := l.ownedNow task
  let ran := (l.taskOf task).any fun k => k.mode == .run && !k.excepted && !k.broke
  let broke := (l.taskOf task).any fun k => k.mode == .run && k.broke
  let l := l.modTask task fun k => { k.ended with prevTn := k.tn, served := 0, last := if ran then now else k.last, comm := now }
  let l := if ran then { l with prog := l.prog.keepBlocks task } else l
  let l := l.modCtx c fun x => { x with stage := .idle, peerDig := [], commit := false, differs := [] }
  let l := if broke then l.setMode .hold false else l
  { l with idle := !l.tasks.any (·.active), prog := { l.prog with lastFin := max l.prog.lastFin t } }

/-- FINISH. -/
def State.finishTask (s : State) (l : LaneId) (task t : Nat) : State :=
  let x := s.lane l
  match x.taskOf task with
  | none => s
  | some k =>
    let c := x.ctxOf task
    if x.rst.held || x.easy || !k.active || t != k.tn + x.dOf task + voteWindow task then s
    else
      let s :=
        if x.inVote && (x.ctx c).commit then
          let r := x.commitImage s.split c t
          (s.setLane l r.1).modHub (·.modMbx l fun m => { m with outTlg := m.outTlg ++ r.2 })
        else s
      let s := if x.inVote then s.readmFinish l task c t else s
      let s := if task = 0 ∧ (x.inVote || x.shadow) = true then s.strokeFinish l else s
      s.modLane l (·.endTask task c t)

/-! ### Catch -/

/-- A task's catch instant (R39, R64, R65): the stroke's on multiples of P after the last one, a cyclic task's on multiples of its period, an
event task's when it was released. -/
def Lane.catchDue (l : Lane) (task tn : Nat) : Bool :=
  if task = 0 then decide (tn % l.period = 0) && tn == l.fol.tn + l.period && !((l.taskOf 0).any (·.active))
  else
    match l.taskDesc task, l.taskOf task with
    | some d, some k =>
      !k.active && decide (k.tn < tn) && (if d.event then decide (0 < k.served) && k.relT == tn else decide (tn % ms d.period = 0))
    | _, _ => false

/-- The first catch (R46, R47): the paired lanes become voters and the others are out; telegrams received in sit ready are discarded (R44). -/
def State.firstCatch (s : State) (l : LaneId) : State :=
  let x := s.lane l
  let ps := x.start.paired
  let y := ((x.fset VOTE_STAT_INVOTE 1).fset TMR_STAT_RUNNING 1).setVoters (allLanes.filter ps.contains)
  let s := ({ s with phase := .running }.setLane l { y with gone := [] }).modHub (·.modMbx l fun m => { m with inTlg := [] })
  (x.id.peers.filter fun z => !ps.contains z).foldl (fun (s : State) z =>
    s.modLane z fun w => if w.up && w.sitReady then (w.fset VOTE_STAT_MODE modeOut).fset TMR_STAT_RUNNING 1 else w) s

/-- The task's own frame, and its entry into the cycle (R51 to R54, R260). -/
def State.freeze (s : State) (l : LaneId) (task tn : Nat) : State :=
  let x := s.lane l
  let c := x.ctxOf task
  let box := s.hub.mbx l
  let f := box.inTlg.foldl (Frozen.check c tn) { lane := x, ok := [], rest := [] }
  let cmds := if task = 0 then newCmds box.cmds x.prog.cmdSeq tn else []
  let chosen := listing (1024 - cmds.length) f.ok
  let x := f.lane
  let img := x.fieldImage tn
  let x := x.noteUnproven img tn
  let frame : ConsFrame :=
    { stroke := x.stroke, tn := tn, sendTime := x.fol.time, holdover := x.on TMR_STAT_HOLDOVER, inVote := x.inVote, img := img,
      entries := chosen.map (·.1) ++ sortBy entryOrd (cmds.map cmdEntry) }
  let x := (if task = 0 then { x with prog := { x.prog with cmdPend := cmds } } else x).raise 1
  let x := x.modTask task fun k =>
    { k with active := true, tn := tn, own := some frame, peers := k.peers.filter (fun e => e.2.tn == tn), frozen := chosen, admitted := [],
             toFetch := [], decided := false, excepted := false, broke := false, ready := false, begun := false, mode := x.prog.mode,
             view := x.viewFor task, shadow := x.shadow }
  ((s.setLane l x).flushNotes l).modHub (·.modMbx l fun m => { m with inTlg := f.rest, pubTime := x.fol.time })

/-- The stroke's own events at its catch: stroke number, local requests of the last stroke, readmission, mode change, online change, a yield (R42, R218, R225, R351). -/
def State.strokeCatch (s : State) (l : LaneId) (tn : Nat) : State :=
  let s := s.modLane l fun x =>
    let x := x.setRg TMR_STROKE_NO (x.stroke + 1)
    { x with fol := { x.fol with tn := tn, peerOff := [] }, prog := { x.prog with asks := [], asked := x.prog.asks } }
  let s := s.donorCatch l
  let s := (s.modLane l (·.modeAtCatch)).changeCatch l tn
  let x := s.lane l
  if x.yieldNext then (s.setLane l { x with yieldNext := false, standby := true, yielded := true, cmpRun := 0 }).hubYields else s

/-- Handshakes start at a catch of the connection's context (R330). -/
def Lane.startConns (l : Lane) (c : Nat) : Lane := (l.connsOf c).foldl (fun (x : Lane) k => x.modConn k fun cn => Conn.start (x.desc k) cn) l

/-- The finishes that fall on a catch instant are committed before the catch (R213). -/
def State.finishesAt (s : State) (l : LaneId) (tn : Nat) : State :=
  let x := s.lane l
  (x.tasks.filter fun k => k.active && k.tn + x.dOf k.tnum + voteWindow k.tnum == tn).foldl (fun (s : State) k => s.finishTask l k.tnum tn) s

/-- CATCH. -/
def State.catchTask (s : State) (l : LaneId) (task tn : Nat) : State :=
  let x := s.lane l
  if x.rst.held || x.easy then s
  else if x.sitReady then
    if task = 0 ∧ x.start.firstCatch = some tn then
      let s := (s.firstCatch l).linkCatch l (tn + tenMicros)
      if (s.lane l).inVote then
        (((s.strokeCatch l tn).modLane l (·.startConns 0)).freeze l 0 tn).tryDecide l 0
      else s
    else s
  else
    let s := s.finishesAt l tn
    let s := (s.changeSwitch l (s.lane l).prog.lastFin).modLane l fun y => { y with idle := false }
    let x := s.lane l
    let s := if task = 0 ∧ tn % x.period = 0 ∧ x.fol.tn < tn then s.readmCatch l else s
    let s := s.modLane l fun y => if y.inVote || y.shadow || task != 0 then y else { y with fol := { y.fol with tn := max y.fol.tn tn } }
    let x := s.lane l
    if !(x.inVote || x.shadow) || !x.catchDue task tn then s
    else
      let s := if task = 0 then s.linkCatch l (tn + tenMicros) else s.modLane l (·.dropGone)
      let x := s.lane l
      if !(x.inVote || x.shadow) then s
      else
        let s := if task = 0 then s.strokeCatch l tn else s
        (((s.modLane l (·.startConns (x.ctxOf task))).freeze l task tn)).tryDecide l task

/-! ### Meanings -/

/-- CATCH (R51). -/
def execCatchInputs (l : LaneId) (task tn : Nat) (s : State) : Host.Outcome State Fault Refusal := done ((s.laneAt l tn).catchTask l task tn)
/-- CONSENSUS_FRAME (R53): bytes that are no frame of the sender give nothing. -/
def execConsensusFrame (dst src : LaneId) (task : Nat) (frame : List Byte) (t : Nat) (s : State) : Host.Outcome State Fault Refusal :=
  done (match consOf src frame with | some f => (s.laneAt dst t).consFrame dst src task f t | none => s.laneAt dst t)
/-- TELEGRAM_FETCH (R56). -/
def execTelegramFetch (dst src : LaneId) (task : Nat) (tlg : List Byte) (s : State) : Host.Outcome State Fault Refusal :=
  done (s.fetchTlg dst src task tlg)
/-- CONSENSUS_DEADLINE (R60). -/
def execConsensusDeadline (l : LaneId) (task t : Nat) (s : State) : Host.Outcome State Fault Refusal :=
  done ((s.laneAt l t).consDeadline l task t)
/-- VOTE_INSTANT (R71). -/
def execVoteInstant (l : LaneId) (task : Nat) (done_ : Bool) (us : Nat) (asks : TaskAsks) (t : Nat) (s : State) : Host.Outcome State Fault Refusal :=
  done ((s.laneAt l t).voteInstant l task done_ us asks t)
/-- FINISH (R68). -/
def execFinish (l : LaneId) (task t : Nat) (s : State) : Host.Outcome State Fault Refusal := done ((s.laneAt l t).finishTask l task t)

end Sys2Proof.Machine
end

