-- ==== Sys2Proof/Machine/Sram.lean ====
section
/-! DEFINITION. Lane SRAM, hub SRAM and the exchange mailboxes: accesses, error correction, scrubbing, collisions, retention (R369, R415 to
R435). -/

namespace Sys2Proof.Machine

/-! ### Banks and accesses (R415, R416, R422, R425, R426) -/

/-- Bytes of an access. -/
def Width.bytes : Width → Nat
  | .byte => 1 | .half => 2 | .word => 4

/-- The bank of an SRAM address. -/
def bankOf (a : Nat) : Nat := (a - sramBase) / 0x80000
/-- Every byte of `[a, a + n)` lies in lane or hub SRAM, in banks in service. -/
def sramOk (bad : List Nat) (a n : Nat) : Bool := inSram a n && !(bad.contains (bankOf a)) && !(bad.contains (bankOf (a + n - 1)))
/-- First address of the retained region (R416). -/
def retainedBase : Nat := 0x08E00000

/-- A lane read of `n` bytes of its SRAM; none for a bus error. -/
def Lane.sramRead (l : Lane) (a n : Nat) : Option Word :=
  if sramOk l.badBanks a n then some (BitVec.ofNat 32 (memNat l.sram a n)) else none
/-- A lane write of the low `n` bytes of `v`; none for a bus error. -/
def Lane.sramWrite (l : Lane) (a n : Nat) (v : Word) : Option Lane :=
  if sramOk l.badBanks a n then some { l with sram := memPutNat l.sram a n v.toNat } else none
/-- A read of hub SRAM. -/
def Hub.sramRead (h : Hub) (a n : Nat) : Option Word :=
  if sramOk h.badBanks a n then some (BitVec.ofNat 32 (memNat h.sram a n)) else none
/-- Bytes stored in hub SRAM; while the retained banks are frozen a write to them is discarded (R433). -/
def Hub.putSram (h : Hub) (a : Nat) (bs : List Byte) : Hub :=
  if h.on HSRAM_STAT_FROZEN && decide (retainedBase < a + bs.length) then h.fset HSRAM_STAT_FRZ_DROP 1
  else { h with sram := memPutBytes h.sram a bs }
/-- A write of the low `n` bytes of `v` to hub SRAM. -/
def Hub.sramWrite (h : Hub) (a n : Nat) (v : Word) : Option Hub :=
  if sramOk h.badBanks a n then some (h.putSram a (leBytes n v.toNat)) else none

/-! ### Errors and scrubbing (R417 to R419) -/

/-- A corrected error in hub SRAM. -/
def Hub.corrected (h : Hub) (a : Nat) : Hub :=
  ((h.fsat HSRAM_STAT_CECNT 1).fset HSRAM_STAT_CE 1).setRg HSRAM_ECCADDR (BitVec.ofNat 32 (a / 4 * 4))
/-- An uncorrectable error in hub SRAM: the reader gets a bus error. -/
def Hub.uncorrectable (h : Hub) (a : Nat) : Hub :=
  (h.fset HSRAM_STAT_UE 1).setRg HSRAM_ECCADDR (BitVec.ofNat 32 (a / 4 * 4 + 2))

/-- A read of hub SRAM through port 0 that finds an uncorrectable error; in the banks with a second port it counts there (R416, R418). -/
def Hub.portUncorrectable (h : Hub) (a : Nat) : Hub :=
  let h := h.uncorrectable a
  if decide (0x08400000 ≤ a) && decide (a < 0x08E00000) then h.fsat HSRAM_HOST_UECNT 1 else h

/-- Words of a lane's or the hub's SRAM. -/
def sramWords : Nat := 0x400000
/-- The next scrub position. -/
def scrubNext (p : Nat) : Nat := (p + 1) % sramWords
/-- A store that reads its word first: narrower than a word, or split over two (R420, R425). -/
def readsFirst (a n : Nat) : Bool := decide (n < 4) || decide (a % 4 ≠ 0)

/-- An access of a lane's own SRAM with so many bits in error in a word it reads (R417, R418, R420). -/
def State.laneSram (s : State) (l : LaneId) (a n nerr : Nat) (acc : Access) : State :=
  match acc with
  | .read => s.laneRead l a nerr ((s.lane l).sramRead a n)
  | .write v =>
    match (s.lane l).sramWrite a n v with
    | none => s.busErr
    | some y =>
      if !readsFirst a n || nerr == 0 then (s.setLane l y).busOk
      else if nerr = 1 then (s.setLane l (y.corrected a)).busOk
      else (s.laneUncorrectable l a).busErr

/-- An access of hub SRAM through port 0 (R416 to R420). -/
def State.hubSram (s : State) (a n nerr : Nat) (acc : Access) : State :=
  match acc with
  | .read =>
    (match s.hub.sramRead a n with
     | none => s.busErr
     | some v => if nerr = 0 then s.busData v else if nerr = 1 then (s.modHub (·.corrected a)).busData v else (s.modHub (·.portUncorrectable a)).busErr)
  | .write v =>
    match s.hub.sramWrite a n v with
    | none => s.busErr
    | some h =>
      if !readsFirst a n || nerr == 0 then ({ s with hub := h }).busOk
      else if nerr = 1 then ({ s with hub := h.corrected a }).busOk
      else (s.modHub (·.portUncorrectable a)).busErr

/-- A lane's scrub pointer. -/
def State.scrubOf (s : State) : LaneId → Nat
  | .a => s.scrubA | .b => s.scrubB | .c => s.scrubC
/-- Move a lane's scrub pointer on. -/
def State.scrubStep (s : State) : LaneId → State
  | .a => { s with scrubA := scrubNext s.scrubA }
  | .b => { s with scrubB := scrubNext s.scrubB }
  | .c => { s with scrubC := scrubNext s.scrubC }

/-- SCRUB_READ: the word at the pointer is read, with so many bits in error. -/
def State.scrubRead (s : State) (m : Master) (nerr : Nat) : State :=
  match m with
  | .lane l =>
    let a := sramBase + 4 * s.scrubOf l
    let s' := s.scrubStep l
    if nerr = 0 then s' else if nerr = 1 then s'.modLane l (·.corrected a) else s'.laneUncorrectable l a
  | .hub =>
    let a := sramBase + 4 * s.hub.scrub
    s.modHub fun h =>
      let h := { h with scrub := scrubNext h.scrub }
      if nerr = 0 then h else if nerr = 1 then h.corrected a else h.uncorrectable a
  | .host => s

/-! ### Exchange mailboxes (R427 to R431) -/

/-- Bytes of a mailbox. -/
def mbxSize : Nat := 0x40000
/-- Store the low `n` bytes of a word in a mailbox. -/
def Mailbox.put (m : Mailbox) (off n : Nat) (v : Word) : Mailbox :=
  { m with mem := memPutNat m.mem off n v.toNat, badWords := if n = 4 then removeL (off / 4) m.badWords else m.badWords }
/-- The two accesses of an overlap are a read and a write: a collision (R429). -/
def collides (mine other : Access) : Bool :=
  match mine, other with
  | .read, .write _ => true
  | .write _, .read => true
  | _, _ => false
/-- A collision with the other port's access, and whether this port's began later and so receives BUSY (R429). -/
def clashOf (acc : Access) (clash : Option (Bool × Access)) : Bool × Bool :=
  match clash with
  | some (other, x) => (collides acc x, collides acc x && !other)
  | none => (false, false)

/-- A port counts a collision, and shows BUSY when it was the later one (R429, R430). -/
def State.countClash (s : State) (mbx : LaneId) (byHub : Bool) (hit busy : Bool) : State :=
  if !hit then s
  else if byHub then
    s.modHub fun h =>
      let h := h.fset (HSRAM_MBX_COLL mbx.idx) (h.fget (HSRAM_MBX_COLL mbx.idx) + 1)
      if busy then h.fset (HSRAM_MBX_BUSY mbx.idx) 1 else h
  else
    s.modLane mbx fun x =>
      let x := x.fset LCTL_MEMSTAT_MBXCOLL (x.fget LCTL_MEMSTAT_MBXCOLL + 1)
      if busy then x.fset LCTL_MEMSTAT_MBX_BUSY 1 else x

/-- MAILBOX_ACCESS by a lane or the hub. A collision leaves a read undefined: a free value (Assumption 4); an uncorrectable word answers
with a bus error and counts on the hub port, collisions apart; a narrow write reads its word first (R420, R427). -/
def State.mailboxAccess (s : State) (mbx : LaneId) (byHub : Bool) (off : Nat) (w : Width) (acc : Access)
    (clash : Option (Bool × Access)) (nerr : Nat) : State :=
  let off' := off % mbxSize
  let gone := if byHub then s.hub.rst.held else (s.lane mbx).rst.held
  if gone then s
  else if off' % Width.bytes w ≠ 0 ∨ mbxSize ≤ off then s.busErr
  else
    let c := clashOf acc clash
    let s := s.countClash mbx byHub c.1 c.2
    let m := s.hub.mbx mbx
    let bad := m.badWords.contains (off' / 4) || decide (2 ≤ nerr)
    let ue (s : State) : State :=
      let s := s.modHub (·.modMbx mbx fun m => { m with badWords := insertL (off' / 4) m.badWords })
      (if byHub then s.modHub (·.fsat (HSRAM_MBX_UECNT mbx.idx) 1) else s).busErr
    match acc with
    | .write v => if bad && w != .word then ue s else (s.modHub (·.modMbx mbx fun m => m.put off' (Width.bytes w) v)).busOk
    | .read =>
      if c.1 then let d := s.draw; d.2.busData d.1
      else if bad then ue s
      else s.busData (BitVec.ofNat 32 (memNat m.mem off' (Width.bytes w)))

/-! ### The shared window (R369, R430) -/

/-- The host may access this BAR2 range. -/
def inShared (off n : Nat) : Bool := decide (0x400000 ≤ off) && decide (off + n ≤ 0xE00000)
/-- The part of the shared range that reads 0. -/
def inReserved (off : Nat) : Bool := decide (0x448000 ≤ off) && decide (off < 0x500000)

/-- A collision of the host port with port 0: counted, `HBUSY_N` low for 10 µs, `BUSY` when the host port was later (R430). -/
def Hub.hostClash (h : Hub) (hit busy : Bool) (t : Nat) : Hub :=
  if !hit then h
  else
    let h := h.fset HSRAM_HOST_COLL (h.fget HSRAM_HOST_COLL + 1)
    let h := if busy then h.fset HSRAM_HOST_BUSY 1 else h
    { h with host := { h.host with busyUntil := max h.host.busyUntil (t + tenMicros) } }

/-- HOST_WINDOW_ACCESS: outside the shared range a read gives 0, a write is discarded, and `WIN_ERR` is set. -/
def State.hostWindow (s : State) (off : Nat) (w : Width) (acc : Access) (clash : Option (Bool × Access)) (t : Nat) : State :=
  let n := Width.bytes w
  if s.hub.rst.held then s.busErr
  else if !inShared off n then
    let s := s.modHub (·.hostFlag HCMD_STAT_WIN_ERR 1)
    match acc with | .read => s.busData 0 | .write _ => s.busOk
  else
    let c := clashOf acc clash
    let s := s.modHub (·.hostClash c.1 c.2 t)
    let a := sramBase + off
    match acc with
    | .write v => match s.hub.sramWrite a n v with | some h => { s with hub := h }.busOk | none => s.busErr
    | .read =>
      if c.1 then let d := s.draw; d.2.busData d.1
      else if inReserved off then s.busData 0
      else match s.hub.sramRead a n with | some v => s.busData v | none => s.busErr

/-- HBUSY_N_RELEASE: `HBUSY_N` goes high once its time has passed (R430). -/
def State.hbusyRelease (s : State) (t : Nat) : State :=
  if s.hub.host.busyUntil ≤ t then s.modHub fun h => { h with host := { h.host with busyUntil := 0 } } else s

/-! ### Retention (R432 to R435) -/

/-- First address of retained bank `n`. -/
def keptBank (n : Nat) : Nat := retainedBase + 0x80000 * n
/-- CRC-32C of a retained bank over offsets 0x4 to 0x7_FFF8 (R432). -/
def bankCrc (m : List Host.Cell) (n : Nat) : Nat := crc32c (memBytes m (keptBank n + 4) 0x7FFF8)

/-- First address of bank 27, the spare of the hub's self-test (R520). -/
def spareBank : Nat := retainedBase - 0x80000

/-- The self-test of one retained bank: its contents are copied to the spare bank, the bank is tested, and the contents copied back; `upset` names
the bytes the test left wrong. Where the CRC-32C of the two copies differ the bank is written to zero (R520). -/
def Hub.testBank (h : Hub) (upset : List Host.Cell) (n : Nat) : Hub × Bool :=
  let inside (c : Host.Cell) : Bool := decide (keptBank n ≤ c.1) && decide (c.1 < keptBank n + 0x80000)
  let copy := (h.sram.filter inside).foldl (fun m c => memPut m (c.1 - keptBank n + spareBank) c.2) (memClear h.sram spareBank 0x80000)
  let wrong := upset.filter inside
  let back := wrong.foldl (fun m c => memPut m c.1 c.2) copy
  if wrong.isEmpty || crc32c (memBytes back (keptBank n) 0x80000) == crc32c (memBytes back spareBank 0x80000) then ({ h with sram := back }, false)
  else ({ h with sram := memClear back (keptBank n) 0x80000 }, true)

/-- The self-test of the four retained banks in order; the banks whose restore differs are marked as failed by a wake check is (R434, R520). -/
def Hub.testRetained (h : Hub) (upset : List Host.Cell) : Hub × BitVec 4 :=
  (upTo 4).foldl (fun (x : Hub × BitVec 4) n =>
    let y := x.1.testBank upset n
    if y.2 then
      ((y.1.fset HSRAM_STAT_RVALID (setField (y.1.fget HSRAM_STAT_RVALID) n 1 0)).fset HSRAM_STAT_RFAIL (setField (y.1.fget HSRAM_STAT_RFAIL) n 1 1),
        bvSet x.2 n 1 1)
    else (y.1, x.2)) (h, 0)

/-- The retention sequence: `RSEQ` raised, banks frozen, canaries written, signatures stored (R432); a bank that its self-test lost gets neither, so
that its wake check fails (R520). -/
def Hub.retainEntry (h : Hub) (lost : BitVec 4) : Hub :=
  let q := h.rg HSRAM_RSEQ + 1
  let canary (m : List Host.Cell) (n : Nat) : List Host.Cell :=
    if lost.getLsbD n then m else memPutNat (memPutNat m (keptBank n) 4 q.toNat) (keptBank n + 0x7FFFC) 4 (~~~q).toNat
  let h := { h.setRg HSRAM_RSEQ q with sram := (upTo 4).foldl canary h.sram }
  (upTo 4).foldl (fun (x : Hub) n => if lost.getLsbD n then x else x.setRg (HSRAM_RSIG n) (BitVec.ofNat 32 (bankCrc x.sram n))) (h.fset HSRAM_STAT_FROZEN 1)

/-- A retained bank passes its wake check (R434). -/
def Hub.bankKept (h : Hub) (n : Nat) : Bool :=
  let q := h.rg HSRAM_RSEQ
  memWord h.sram (keptBank n) == q && memWord h.sram (keptBank n + 0x7FFFC) == ~~~q &&
    (h.rg (HSRAM_RSIG n)).toNat == bankCrc h.sram n

/-- The wake check of one bank: a failing bank is written to zero and marked. -/
def Hub.wakeBank (h : Hub) (n : Nat) : Hub :=
  let rv := h.fget HSRAM_STAT_RVALID
  let rf := h.fget HSRAM_STAT_RFAIL
  if h.bankKept n then (h.fset HSRAM_STAT_RVALID (setField rv n 1 1)).fset HSRAM_STAT_RFAIL (setField rf n 1 0)
  else
    { (h.fset HSRAM_STAT_RVALID (setField rv n 1 0)).fset HSRAM_STAT_RFAIL (setField rf n 1 1) with
      sram := memClear h.sram (keptBank n) 0x80000 }

/-- The wake check, after which the region is released; a recorder entry for each failing bank (R434). -/
def State.wakeCheck (s : State) : State :=
  let s := s.modHub fun h => ((upTo 4).foldl Hub.wakeBank h).fset HSRAM_STAT_FROZEN 0
  (upTo 4).foldl (fun (s : State) n =>
    if getField (s.hub.fget HSRAM_STAT_RFAIL) n 1 = 1 then s.recHub 0 0x0A 434 [] else s) s

/-! ### Meanings -/

/-- SCRUB_READ (R419). -/
def execScrubRead (m : Master) (nerr : Nat) (s : State) : Host.Outcome State Fault Refusal :=
  done (match m with | .lane l => if (s.lane l).rst.held then s else s.scrubRead m nerr | _ => if s.hub.rst.held then s else s.scrubRead m nerr)
/-- MAILBOX_ACCESS (R427). -/
def execMailboxAccess (mbx : LaneId) (byHub : Bool) (off : Nat) (w : Width) (acc : Access) (clash : Option (Bool × Access)) (nerr : Nat) (s : State) :
    Host.Outcome State Fault Refusal := done (s.mailboxAccess mbx byHub off w acc clash nerr)
/-- HOST_WINDOW_ACCESS (R369). -/
def execHostWindowAccess (off : Nat) (w : Width) (acc : Access) (clash : Option (Bool × Access)) (t : Nat) (s : State) :
    Host.Outcome State Fault Refusal := done ((s.at t).hostWindow off w acc clash t)
/-- HBUSY_N_RELEASE (R430). -/
def execHbusyNRelease (t : Nat) (s : State) : Host.Outcome State Fault Refusal := done ((s.at t).hbusyRelease t)

end Sys2Proof.Machine
end

