-- ==== Sys2Proof/Machine/Recorder.lean ====
section
/-! DEFINITION. The event recorder: records, merging, the retained ring, chunks and flash, the start, snapshots; and the CRC units
(R436 to R447). -/

namespace Sys2Proof.Machine

/-! ### Records (R436, R439) -/

/-- Slots of the ring. -/
def ringSlots : Nat := 32768
/-- Hub address of ring slot `i` (R439). -/
def recSlot (i : Nat) : Nat := 0x08000000 + 0x80000 * (29 + i / 16382) + 0x20 + 32 * (i % 16382)
/-- Hub address of the record with a sequence. -/
def recAddr (seq : Nat) : Nat := recSlot (seq % ringSlots)

/-- The bytes of a record. -/
def recBytes (x : RecSub) (gap : Bool) (seq rep ver : Nat) : List Byte :=
  let b := beBytes 4 seq ++ beBytes 8 x.t ++ beBytes 2 x.source ++ beBytes 2 x.code.toNat ++ padTo 8 x.data ++ beBytes 2 rep ++
    beBytes 2 (ver % 256 * 256 + b2n gap + 2 * b2n x.bench)
  b ++ beBytes 4 (crc32c b)

/-- A record whose CRC holds. -/
def recOk (b : List Byte) : Bool := b.length == 32 && beAt b 28 4 == crc32c (b.take 28)
/-- `SEQ` of a record. -/
def recSeq (b : List Byte) : Nat := beAt b 0 4

/-- Flash 1 offset of the recorder's region (R449) and of a page of 4 KiB in it. -/
def recPage (p : Nat) : Nat := 0x4000000 + 4096 * (p % 16384)
/-- Where a page holds a record. -/
def recFlash (p seq : Nat) : Nat := recPage p + 32 * (seq % 128)

/-- The recorder works: started, and its block is not being reset. -/
def Hub.records (h : Hub) : Bool := h.on REC_STAT_RUN && !h.on NVW_STAT_PF && !h.blockOff 0x70

/-- 16 chunks stand unflushed, the open one counted (R441). -/
def Hub.showThrottle (h : Hub) : Hub :=
  h.fset REC_STAT_THROTTLE (b2n (decide (16 ≤ h.rcd.unflushed.length + b2n (!h.rcd.fresh))))

/-- A new record with the next sequence: a chunk boundary closes the open chunk (R440). -/
def Hub.newRecord (h : Hub) (x : RecSub) (gap : Bool) : Hub :=
  let r := h.rcd
  let s := r.next
  let r : RecInt :=
    if r.fresh then { r with fresh := false, first := s }
    else if s % 128 = 0 then
      { r with unflushed := r.unflushed ++ [(r.page, r.first, (s + 2 ^ 32 - 1) % 2 ^ 32)], page := r.page + 1, first := s }
    else r
  let r := { r with next := (s + 1) % 2 ^ 32, newest := if gap then none else some (x, 1, 0) }
  (({ h with rcd := r }.putSram (recAddr s) (recBytes x gap s 1 0)).setRg REC_HEAD (BitVec.ofNat 32 s)).showThrottle

/-- A submission equal to the newest record raises its count and version (R438). -/
def Hub.takeRecord (h : Hub) (x : RecSub) : Hub :=
  match h.rcd.newest with
  | some (y, rep, ver) =>
    if y.source = x.source ∧ y.code = x.code ∧ y.data = x.data ∧ rep < 65535 then
      let s := (h.rcd.next + 2 ^ 32 - 1) % 2 ^ 32
      let v := (ver + 1) % 256
      let h := { h with rcd := { h.rcd with newest := some (y, rep + 1, v) } }
      h.putSram (recAddr s + 24) ((recBytes y false s (rep + 1) v).drop 24)
    else h.newRecord x false
  | none => h.newRecord x false

/-- RECORD_SUBMISSION: the oldest submission, while the recorder runs and does not throttle (R437, R441). -/
def Hub.recordNext (h : Hub) : Hub :=
  if !h.records || h.on REC_STAT_THROTTLE then h
  else
    match h.rcd.queue with
    | [] => h
    | x :: q => { h with rcd := { h.rcd with queue := q } }.takeRecord x

/-- A record of the recorder itself, event `n` of class 0. -/
def recOwn (n t : Nat) (data : List Byte) : RecSub :=
  { t := t, source := 0x4001, code := BitVec.ofNat 16 n, data := padTo 8 data, bench := false }

/-- GAP_DROPPED: once the queue has room again, the submissions lost (R437). -/
def Hub.gapDropped (h : Hub) (t : Nat) : Hub :=
  if !h.records || h.on REC_STAT_THROTTLE || h.rcd.lost == 0 || decide (64 ≤ h.rcd.queue.length) then h
  else
    let x := h.newRecord (recOwn 1 t (beBytes 8 h.rcd.lost)) true
    { x with rcd := { x.rcd with lost := 0 } }

/-! ### Flash (R440 to R442) -/

/-- The sequences from `a` to `b`, at most a chunk. -/
def seqSpan (a b : Nat) : List Nat := (upTo (min 128 ((b + 2 ^ 32 - a) % 2 ^ 32 + 1))).map fun i => (a + i) % 2 ^ 32

/-- A chunk's records are written into its page; a page that begins a sector has the sector erased first. -/
def State.writeChunk (s : State) (c : Nat × Nat × Nat) : State :=
  let m := if c.1 % 16 = 0 then flashErase s.flash1 (recPage c.1) 0x10000 else s.flash1
  let m := (seqSpan c.2.1 c.2.2).foldl (fun (m : List Host.Cell) q => flashPutBytes m (recFlash c.1 q) (memBytes s.hub.sram (recAddr q) 32)) m
  { s with flash1 := m }.modHub fun h => h.setRg REC_FLUSHED (BitVec.ofNat 32 c.2.2)

/-- REC_CHUNK_WRITTEN: the oldest closed chunk is in flash (R441). -/
def State.chunkWritten (s : State) : State :=
  match s.hub.rcd.unflushed with
  | [] => s
  | c :: cs =>
    if s.hub.rst.held || s.hub.blockOff 0x60 then s
    else (s.writeChunk c).modHub fun h => ({ h with rcd := { h.rcd with unflushed := cs } }).showThrottle

/-- Power-fail: every unflushed chunk, the open one too, is written (R442). -/
def State.recFlushAll (s : State) : State :=
  let r := s.hub.rcd
  let opened := if r.fresh then [] else [(r.page, r.first, (r.next + 2 ^ 32 - 1) % 2 ^ 32)]
  let s := (r.unflushed ++ opened).foldl State.writeChunk s
  s.modHub fun h => (({ h with rcd := { h.rcd with unflushed := [], fresh := true, page := r.page + b2n (!r.fresh) } }).showThrottle).fset REC_STAT_RUN 0

/-! ### The start (R443) -/

/-- The valid records in flash: page and sequence. -/
def State.flashRecs (s : State) : List (Nat × Nat) :=
  ((usedEntries s.flash1 0x4000000 0x4000000).filterMap fun i =>
    let b := flashBytes s.flash1 (0x4000000 + 32 * i) 32
    if recOk b then some (i / 128, recSeq b) else none)

/-- The valid records of the ring banks whose `RVALID` bit is set. -/
def Hub.ringRecs (h : Hub) : List Nat :=
  [1, 2, 3].flatMap fun n =>
    if getField (h.fget HSRAM_STAT_RVALID) n 1 = 1 then
      let base := 0x08000000 + 0x80000 * (28 + n) + 0x20
      (usedEntries h.sram base (32 * 16382)).filterMap fun i =>
        let b := memBytes h.sram (base + 32 * i) 32
        if recOk b then some (recSeq b) else none
    else []

/-- The highest of sequences by signed difference. -/
def seqMax (xs : List Nat) : Option Nat :=
  xs.foldl (fun (b : Option Nat) x => match b with | none => some x | some y => if 0 < sdiff32 x y then some x else b) none

/-- The lowest. -/
def seqMin (xs : List Nat) : Option Nat :=
  xs.foldl (fun (b : Option Nat) x => match b with | none => some x | some y => if sdiff32 x y < 0 then some x else b) none

/-- The bank of the ring, 29 to 31, that holds a sequence. -/
def seqBank (seq : Nat) : Nat := 29 + seq % ringSlots / 16382

/-- The sequences that a bank which failed its wake check held alone: above what flash has, up to the head taken up; at most the
16 chunks that may stand unflushed. -/
def Hub.lostInBanks (h : Hub) (flash head : Option Nat) : List Nat :=
  match head with
  | some q =>
    let f := flash.getD (if q < 2048 then 2 ^ 32 - 1 else q - 2048)
    ((upTo (min 2048 ((q + 2 ^ 32 - f) % 2 ^ 32))).map fun i => (f + 1 + i) % 2 ^ 32).filter fun x =>
      getField (h.fget HSRAM_STAT_RFAIL) (seqBank x - 28) 1 == 1
  | none => []

/-- The recorder's start: REC_START, then the gap records (R443). -/
def State.recStart (s : State) (t : Nat) : State :=
  let fr := s.flashRecs
  let rr := s.hub.ringRecs
  let fm := seqMax (fr.map (·.2))
  let head := seqMax (fr.map (·.2) ++ rr)
  let taken := head.getD 0xFFFFFFFF
  let page := match fr.foldl (fun (b : Option (Nat × Nat)) x =>
      match b with | none => some x | some y => if 0 < sdiff32 x.2 y.2 then some x else b) none with
    | some x => x.1 + 1
    | none => 0
  let missing := seqMin (rr.filter fun q => !(fr.any fun x => x.2 == q))
  let gone := s.hub.lostInBanks fm head
  s.modHub fun h =>
    let r : RecInt := { h.rcd with next := (taken + 1) % 2 ^ 32, newest := none, unflushed := [], fresh := true, page := page }
    let h := ({ h with rcd := r }.fset REC_STAT_RUN 1).setRg REC_FLUSHED (BitVec.ofNat 32 (fm.getD 0))
    let h := h.newRecord (recOwn 4 t (beBytes 4 taken)) false
    let h := match seqMin gone, seqMax gone with
      | some a, some b => h.newRecord (recOwn 2 t (beBytes 4 a ++ beBytes 4 b)) true
      | _, _ => h
    match missing with
    | some q => (h.newRecord (recOwn 3 t (beBytes 4 q)) true).fset REC_STAT_TAIL_FAIL 1
    | none => h

/-! ### Snapshots (R444) -/

/-- The record with a sequence: from the ring while it is still there, else from flash; none when absent. A record of a bad CRC in flash is
told. -/
def State.recFind (s : State) (seq : Nat) : Option (List Byte) × Bool :=
  let b := memBytes s.hub.sram (recAddr seq) 32
  let head := (s.hub.rg REC_HEAD).toNat
  if recOk b ∧ recSeq b = seq ∧ sdiff32 head seq < 32768 then (some b, false)
  else
    match (usedEntries s.flash1 0x4000000 0x4000000).findSome? fun i =>
      let e := flashBytes s.flash1 (0x4000000 + 32 * i) 32
      if recSeq e = seq ∧ i % 128 = seq % 128 then some e else none with
    | some e => if recOk e then (some e, false) else (none, true)
    | none => (none, false)

/-- The records of a range up to the head, and whether one of a bad CRC was skipped. -/
def State.recRange (s : State) (first count : Nat) : List Byte × Bool :=
  let head := (s.hub.rg REC_HEAD).toNat
  let n := if sdiff32 head first < 0 then 0 else min count ((head + 2 ^ 32 - first) % 2 ^ 32 + 1)
  let xs := (upTo n).map fun i => s.recFind ((first + i) % 2 ^ 32)
  (xs.flatMap (fun x => x.1.getD []), xs.any (·.2))

/-! ### CRC units (R445 to R447) -/

/-- `START` of a value with an algorithm: the unit loaded with `INIT` where `SEED` is set, cut to the algorithm's width, else with the standard
value (R445). -/
def crcLoaded (v : Word) (hi lo : Word) : CrcInt :=
  let alg := bvField v 0 3
  { alg := alg, reg := if v.getLsbD 3 then (hi.toNat * 2 ^ 32 + lo.toNat) % 2 ^ crcWidth alg else crcStdInit alg }

/-- `CRC_OWNER` after a `START`. -/
def crcOwner (req task : Nat) : Word := BitVec.ofNat 32 (2 ^ 31 + req % 2 * 256 + task % 256)

/-- A data write is the owner's: started, same requester, same current task (R447). -/
def ownsCrc (owner : Word) (req task : Nat) : Bool := owner == crcOwner req task

/-- The bytes a data write feeds: least significant first (R446). -/
def crcBytes (w : Width) (v : Word) : List Byte := leBytes (match w with | .byte => 1 | .half => 2 | .word => 4) v.toNat

/-- A unit fed with bytes. -/
def CrcInt.feed (u : CrcInt) (bs : List Byte) : CrcInt := { u with reg := bs.foldl (crcFeed u.alg) u.reg }

/-- `CRC_RES` show a lane's unit. -/
def Lane.showCrc (l : Lane) : Lane :=
  let r := crcResult l.crc.alg l.crc.reg
  (l.setRg CRC_RES_LO (BitVec.ofNat 32 r)).setRg CRC_RES_HI (BitVec.ofNat 32 (r / 2 ^ 32))

/-- A write of `CRC_CTRL` in a lane; its requester is 0. -/
def Lane.crcStart (l : Lane) (v : Word) : Lane :=
  let l := l.setRg CRC_CTRL (v &&& 0xF#32)
  if v.getLsbD 8 = false then l
  else if !crcAlgOk (bvField v 0 3) then l.fset CRC_STAT_ALG_ERR 1
  else
    ({ l with crc := crcLoaded v (l.rg CRC_INIT_HI) (l.rg CRC_INIT_LO) }.setRg CRC_OWNER (crcOwner 0 (bvField (l.rg CRC_CUR) 0 8))).showCrc

/-- A write of `CRC_DATA` in a lane; an owner fault raises line 7. -/
def Lane.crcData (l : Lane) (w : Width) (v : Word) : Lane :=
  if ownsCrc (l.rg CRC_OWNER) 0 (bvField (l.rg CRC_CUR) 0 8) then ({ l with crc := l.crc.feed (crcBytes w v) }).showCrc
  else (l.fset CRC_STAT_OWN_ERR 1).raise 7

/-- The hub's unit 0 or 1. -/
def Hub.crcUnit (h : Hub) (u : Nat) : CrcInt := if u = 0 then h.crc0 else h.crc1
/-- Replace it, and show its result. -/
def Hub.setCrc (h : Hub) (u : Nat) (c : CrcInt) : Hub :=
  let h := if u = 0 then { h with crc0 := c } else { h with crc1 := c }
  let r := crcResult c.alg c.reg
  (h.setRg (HCRC_RES_LO u) (BitVec.ofNat 32 r)).setRg (HCRC_RES_HI u) (BitVec.ofNat 32 (r / 2 ^ 32))

/-- A write of `CRC_CTRL` of hub unit `u` by core `req`. -/
def Hub.crcStart (h : Hub) (u req : Nat) (v : Word) : Hub :=
  let h := h.setRg (HCRC_CTRL u) (v &&& 0xF#32)
  if v.getLsbD 8 = false then h
  else if !crcAlgOk (bvField v 0 3) then h.fset (HCRC_STAT_ALG_ERR u) 1
  else
    (h.setRg (HCRC_OWNER u) (crcOwner req (bvField (h.rg (HCRC_CUR u (req % 2))) 0 8))).setCrc u
      (crcLoaded v (h.rg (HCRC_INIT_HI u)) (h.rg (HCRC_INIT_LO u)))

/-- A write of `CRC_DATA` of hub unit `u` by core `req`. -/
def Hub.crcData (h : Hub) (u req : Nat) (w : Width) (v : Word) : Hub :=
  if ownsCrc (h.rg (HCRC_OWNER u)) req (bvField (h.rg (HCRC_CUR u (req % 2))) 0 8) then h.setCrc u ((h.crcUnit u).feed (crcBytes w v))
  else h.fset (HCRC_STAT_OWN_ERR u) 1

/-- A write of a unit's control register: `hub` is its first unit, `host` its second. -/
def State.crcStart (s : State) (m : Master) (req : Nat) (v : Word) : State :=
  match m with
  | .lane l => s.upLane l (·.crcStart v)
  | .hub => s.upHub (·.crcStart 0 req v)
  | .host => s.upHub (·.crcStart 1 req v)

/-- A write of a unit's data register. -/
def State.crcData (s : State) (m : Master) (req : Nat) (w : Width) (v : Word) : State :=
  match m with
  | .lane l => s.upLane l (·.crcData w v)
  | .hub => s.upHub (·.crcData 0 req w v)
  | .host => s.upHub (·.crcData 1 req w v)

/-! ### Meanings -/

/-- RECORD_SUBMISSION (R437). -/
def execRecordSubmission (s : State) : Host.Outcome State Fault Refusal := done (s.upHub (·.recordNext))
/-- GAP_DROPPED (R437). -/
def execGapDropped (t : Nat) (s : State) : Host.Outcome State Fault Refusal := done ((s.at t).upHub (·.gapDropped t))
/-- REC_CHUNK_WRITTEN (R441). -/
def execRecChunkWritten (s : State) : Host.Outcome State Fault Refusal := done s.chunkWritten
/-- CRC_START (R447). -/
def execCrcStart (m : Master) (req : Nat) (v : Word) (s : State) : Host.Outcome State Fault Refusal := done (s.crcStart m req v)
/-- CRC_DATA_WRITE (R446). -/
def execCrcDataWrite (m : Master) (req : Nat) (w : Width) (v : Word) (s : State) : Host.Outcome State Fault Refusal :=
  done (s.crcData m req w v)

end Sys2Proof.Machine
end

