-- ==== Sys2Proof/Machine/Bridge.lean ====
section
/-! DEFINITION. Lane bridges: windows, split reads, posted writes and poisoned streams, messages, semaphores, exclusive sequences, and what
resets do to them (R388 to R405, R570, R571). -/

namespace Sys2Proof.Machine

/-! ### Error codes (R399) -/

/-- DECERR. -/
def brgDecErr : Nat := 1
/-- TGTERR. -/
def brgTgtErr : Nat := 2
/-- TIMEOUT. -/
def brgTimeout : Nat := 3
/-- DATA_ERR. -/
def brgDataErr : Nat := 4
/-- PERM. -/
def brgPerm : Nat := 5
/-- POISONED. -/
def brgPoisoned : Nat := 6
/-- HUB_RESET. -/
def brgHubReset : Nat := 7
/-- MSG_DROPPED. -/
def brgMsgDropped : Nat := 8

/-! ### Windows (R388) -/

/-- First address of the bridge window. -/
def brgBase : Nat := 0x21000000
/-- Whether an address lies in the bridge window. -/
def inBridge (a : Nat) : Bool := decide (brgBase ≤ a) && decide (a < brgBase + 0x4000000)
/-- The window of an address. -/
def brgWin (a : Nat) : Nat := (a - brgBase) / 0x800000 % 8
/-- The hub address behind a lane address. -/
def Lane.hubAddr (l : Lane) (a : Nat) : Nat := l.fget (BRG_MAP_HADDR (brgWin a)) * 0x800000 + (a - brgBase) % 0x800000
/-- A flash window of the hub. -/
def inFlashWin (a : Nat) : Bool := decide (0x30000000 ≤ a) && decide (a < 0x40000000)
/-- A flash window of the hub reads flash; a write is refused (R570). -/
def State.flashRead (s : State) (a n : Nat) : Word :=
  BitVec.ofNat 32 (ofLe (if a < 0x38000000 then flashBytes s.flash0 (a - 0x30000000) n else flashBytes s.flash1 (a - 0x38000000) n))

/-- What a hub address answers to a lane read: the code the hub gives, or DECERR where no target a lane reaches stands (R571). -/
def readAnswer (a err : Nat) : Nat := if inSram a 1 ∨ inFlashWin a then err else brgDecErr
/-- What a hub address answers to a lane write: a flash window an error (R570). -/
def writeAnswer (a err : Nat) : Nat := if inSram a 1 then err else if inFlashWin a then brgTgtErr else brgDecErr
/-- Window `w` is poisoned. -/
def Lane.poisonedWin (l : Lane) (w : Nat) : Bool := (l.rg BRG_STAT).getLsbD (24 + w)

/-! ### Status, error queue (R399) -/

/-- The registers and line 6 follow the queues; line 6 is a level. -/
def Lane.brgShow (l : Lane) : Lane :=
  let b := l.brg
  let l := (l.fset BRG_STAT_OUT b.reads.length).fset BRG_STAT_EQN b.errs.length
  let l := l.setRg LCTL_IRQ_PEND (bvSet (l.rg LCTL_IRQ_PEND) 6 1 (b2n (!b.errs.isEmpty)))
  let l := match b.hubMsgs with | v :: _ => l.setRg BRG_HMSG v | [] => l.setRg BRG_HMSG 0
  match b.errs with
  | e :: _ =>
    let i := 0x80000000 + e.ndisc * 0x10000 + e.code * 0x100 + b2n e.write * 0x80 + e.win
    (l.setRg BRG_EQ_INFO (BitVec.ofNat 32 i)).setRg BRG_EQ_ADDR e.addr
  | [] => (l.setRg BRG_EQ_INFO 0).setRg BRG_EQ_ADDR 0

/-- An error record joins the queue of 16, or is lost. -/
def Lane.brgErr (l : Lane) (e : BrgErr) : Lane :=
  (if l.brg.errs.length < 16 then { l with brg := { l.brg with errs := l.brg.errs ++ [e] } } else l.fset BRG_STAT_EQ_OVF 1).brgShow

/-- A record without discarded writes. -/
def errOf (win code : Nat) (write : Bool) (addr : Word) : BrgErr := { win := win, code := code, write := write, addr := addr, ndisc := 0, counts := false }

/-- `n` more discarded writes of a stream: counted in the record of its latest failure, until that is popped (R397). -/
def Lane.countDiscard (l : Lane) (w n : Nat) : Lane :=
  let hit (e : BrgErr) : Bool := e.win == w && e.counts
  let i := l.brg.errs.length - 1 - l.brg.errs.reverse.findIdx hit
  if l.brg.errs.any hit then
    ({ l with brg := { l.brg with errs := listMod l.brg.errs i fun e => { e with ndisc := satAdd 255 e.ndisc n } } }).brgShow
  else l

/-! ### Split reads (R390 to R395) -/

/-- Reads that may be outstanding at once (R390, R393). -/
def Lane.readLimit (l : Lane) : Nat := if l.on BRG_CFG_HELD then 1 else 64
/-- The lowest tag neither outstanding nor in quarantine. -/
def BrgInt.freeTag (b : BrgInt) : Option Nat := (upTo 64).find? fun k => !(b.reads.any fun r => r.tag == k) && !(b.quar.any fun q => q.1 == k)

/-- Issue a read under a free tag, or let it wait. -/
def Lane.issueRead (l : Lane) (r : BrgRead) (t : Nat) : Lane :=
  match l.brg.freeTag with
  | some k => { l with brg := { l.brg with reads := l.brg.reads ++ [{ r with tag := k, t := t }] } }
  | none => { l with brg := { l.brg with waiting := r :: l.brg.waiting } }

/-- Waiting reads are issued in order while a tag is free; the first issue starts the 2 ms of R391. -/
def Lane.issueWaiting (l : Lane) (t : Nat) : Nat → Lane
  | 0 => l.brgShow
  | n + 1 =>
    match l.brg.waiting with
    | r :: rest =>
      if l.brg.reads.length < l.readLimit ∧ l.brg.freeTag.isSome then
        (({ l with brg := { l.brg with waiting := rest } }).issueRead { r with t0 := if r.t0 = 0 then t else r.t0 } t).issueWaiting t n
      else l.brgShow
    | [] => l.brgShow

/-- Drop the outstanding read of a tag. -/
def Lane.dropRead (l : Lane) (k : Nat) : Lane := { l with brg := { l.brg with reads := l.brg.reads.filter fun r => r.tag != k } }
/-- An abandoned attempt's tag rests for 4 ms (R392). -/
def Lane.restTag (l : Lane) (k t : Nat) : Lane := { l with brg := { l.brg with quar := l.brg.quar ++ [(k, t + 4000000)] } }

/-- A read leaves the bridge, outstanding or waiting. -/
def Lane.forgetRead (l : Lane) (r : BrgRead) : Lane :=
  { l with brg := { l.brg with reads := l.brg.reads.filter (· != r), waiting := l.brg.waiting.filter (· != r) } }

/-- A read ends with a record, a bus error and the exception it raises (R388, R391). -/
def State.readFails (s : State) (l : LaneId) (r : BrgRead) (code t : Nat) : State :=
  ((s.modLane l fun x => ((x.forgetRead r).brgErr (errOf (brgWin r.addr.toNat) code false r.addr)).issueWaiting t 64).busErr).trapOnError l r.addr false

/-- An attempt failed: repeated with a fresh tag, another than its own, while attempts and the 2 ms last. -/
def State.attemptFails (s : State) (l : LaneId) (r : BrgRead) (code t : Nat) : State :=
  let n := r.attempts + 1
  if (s.lane l).fget BRG_CFG_RTRY + 1 ≤ n ∨ r.t0 + 2000000 ≤ t then s.readFails l r code t
  else s.modLane l fun x => ((x.issueRead { r with attempts := n, code := code } t).forgetRead r).brgShow

/-- An unaligned access through a window is refused with a code the manual does not give: a free value (Assumption 4). -/
def State.brgUnaligned (s : State) (l : LaneId) (a : Word) (write : Bool) : State :=
  let d := s.draw
  (d.2.modLane l (·.brgErr (errOf (brgWin a.toNat) (bvField d.1 0 4) write a))).busErr

/-- BRIDGE_READ: refused locally, or issued. -/
def State.brgReadStart (s : State) (l : LaneId) (a : Word) (w : Width) (t : Nat) : State :=
  let x := s.lane l
  let k := brgWin a.toNat
  if !inBridge a.toNat then s.busErr
  else if a.toNat % Width.bytes w ≠ 0 then s.brgUnaligned l a false
  else if !x.on (BRG_MAP_EN k) then (s.setLane l (x.brgErr (errOf k brgPerm false a))).busErr
  else if x.poisonedWin k then (s.setLane l (x.brgErr (errOf k brgPoisoned false a))).busErr
  else
    let r : BrgRead := { tag := 0, addr := a, bytes := Width.bytes w, t0 := 0, t := 0, attempts := 0, code := 0 }
    (s.setLane l (({ x with brg := { x.brg with waiting := x.brg.waiting ++ [r] } }).issueWaiting t 64)).busOk

/-- BRIDGE_READ: a bus error response raises the exception (R388). -/
def State.bridgeRead (s : State) (l : LaneId) (a : Word) (w : Width) (t : Nat) : State := (s.brgReadStart l a w t).trapOnError l a false

/-- The `n` bytes a read of a hub address gives: of hub SRAM, or of a flash window (R570, R571). -/
def State.hubBytesAt (s : State) (a n : Nat) : Word :=
  if inSram a 1 then (s.hub.sramRead a n).getD 0 else s.flashRead a n

/-- BRIDGE_READ_RESPONSE: the data the hub's memory holds then, an error, or late (R390 to R392, R418; Assumption 43). -/
def State.bridgeResponse (s : State) (l : LaneId) (tag err : Nat) (t : Nat) : State :=
  let x := s.lane l
  match x.brg.reads.find? fun r => r.tag == tag with
  | none => s.setLane l ((x.fsat BRG_CNT_LATEN 1).fset BRG_STAT_LATE 1)
  | some r =>
    let a := x.hubAddr r.addr.toNat
    let e := readAnswer a err
    let e := if e = 0 ∧ inSram a 1 ∧ s.hub.sramRead a r.bytes = none then brgTgtErr else e
    if e = 0 then
      (s.setLane l ((x.dropRead tag).issueWaiting t 64)).busData (s.hubBytesAt a r.bytes)
    else
      let s := if e = brgDataErr ∧ inSram a 1 then s.modHub (·.portUncorrectable a) else s
      s.attemptFails l r e t

/-- BRIDGE_READ_TIMEOUT: no response within `RTMO` × 10 µs (R391). -/
def State.bridgeTimeout (s : State) (l : LaneId) (tag t : Nat) : State :=
  match (s.lane l).brg.reads.find? fun r => r.tag == tag with
  | some r =>
    if r.t + (s.lane l).fget BRG_CFG_RTMO * tenMicros ≤ t then (s.modLane l (·.restTag tag t)).attemptFails l r brgTimeout t else s
  | none => s

/-- The code a read out of budget records: that of its last failed attempt; where none has failed, TIMEOUT (Assumption 43). -/
def BrgRead.lastCode (r : BrgRead) : Nat := if r.code = 0 then brgTimeout else r.code

/-- BRIDGE_READ_BUDGET: 2 ms have passed since the first issue, of an outstanding read or of one that waits for a tag to be repeated (R391). -/
def State.bridgeBudget (s : State) (l : LaneId) (tag t : Nat) : State :=
  let x := s.lane l
  let spent (r : BrgRead) : Bool := r.tag == tag && decide (r.t0 + 2000000 ≤ t)
  match x.brg.reads.find? spent with
  | some r => (s.modLane l (·.restTag tag t)).readFails l r r.lastCode t
  | none =>
    match x.brg.waiting.find? fun r => spent r && r.t0 != 0 with
    | some r => s.readFails l r r.lastCode t
    | none => s

/-- TAG_QUARANTINE_END (R392). -/
def Lane.quarEnd (l : Lane) (tag t : Nat) : Lane :=
  ({ l with brg := { l.brg with quar := l.brg.quar.filter fun q => !(q.1 == tag && decide (q.2 ≤ t)) } }).issueWaiting t 64

/-! ### Hub accesses to a lane (R389, R394) -/

/-- The hub may read this address of a lane. -/
def Lane.exported (l : Lane) (a : Nat) : Bool :=
  let b := l.fget BRG_HBASE_BASE * 0x40000
  l.on BRG_HBASE_EN && decide (b ≤ a) && decide (a + 4 ≤ b + 0x40000) && sramOk l.badBanks a 4 && a % 4 == 0

/-- In held mode the held read yields and is replayed with a fresh tag (R394). -/
def Lane.yieldHeld (l : Lane) (t : Nat) : Lane :=
  match l.brg.reads with
  | r :: _ =>
    if l.on BRG_CFG_HELD then (((l.dropRead r.tag).restTag r.tag t).issueRead r t).fsat BRG_CNT_XRETRY 1 |>.brgShow else l
  | [] => l

/-- HUB_EXPORT_READ. -/
def State.hubExportRead (s : State) (l : LaneId) (a : Word) : State :=
  let x := s.lane l
  if x.rst.held then s.busErr
  else if x.exported a.toNat then (s.setLane l (x.yieldHeld s.now)).busData (memWord x.sram a.toNat)
  else (s.setLane l (x.fsat BRG_CNT_RDERR 1)).busErr

/-! ### Posted writes (R396 to R398) -/

/-- Write number `i` of the issued writes ends: messages behind it wait for one less. -/
def Lane.dropWrite (l : Lane) (i : Nat) : Lane :=
  { l with brg := { l.brg with writes := l.brg.writes.eraseIdx i,
                               laneMsgs := l.brg.laneMsgs.map fun m => if i < m.2 then (m.1, m.2 - 1) else m } }

/-- Drop every issued write of a window. -/
def Lane.dropStream (l : Lane) (w : Nat) : Nat → Lane
  | 0 => l
  | n + 1 =>
    match l.brg.writes.findIdx? fun x => x.win == w with
    | some i => (l.dropWrite i).dropStream w n
    | none => l

/-- BRIDGE_WRITE: refused locally, discarded behind a failed write, or posted. -/
def State.brgWriteStart (s : State) (l : LaneId) (a : Word) (w : Width) (v : Word) (t : Nat) : State :=
  let x := s.lane l
  let k := brgWin a.toNat
  if !inBridge a.toNat then s.busErr
  else if a.toNat % Width.bytes w ≠ 0 then s.brgUnaligned l a true
  else if !x.on (BRG_MAP_EN k) || !x.on (BRG_MAP_WEN k) then (s.setLane l (x.brgErr (errOf k brgPerm true a))).busErr
  else if x.poisonedWin k then (s.setLane l (x.countDiscard k 1)).busOk
  else
    let p : BrgWrite := { win := k, addr := a, bytes := Width.bytes w, v := v, t := t }
    (s.setLane l { x with brg := { x.brg with writes := x.brg.writes ++ [p] } }).busOk

/-- BRIDGE_WRITE: a bus error response raises the exception (R388). -/
def State.bridgeWrite (s : State) (l : LaneId) (a : Word) (w : Width) (v : Word) (t : Nat) : State := (s.brgWriteStart l a w v t).trapOnError l a true

/-- A posted write failed: recorded, its stream poisoned, the later ones discarded and counted (R397). -/
def Lane.writeFails (l : Lane) (p : BrgWrite) (code : Nat) : Lane :=
  let n := (l.brg.writes.filter fun x => x.win == p.win).length - 1
  let l := l.dropStream p.win l.brg.writes.length
  let l := l.setRg BRG_STAT (bvSet (l.rg BRG_STAT) (24 + p.win) 1 1)
  l.brgErr { errOf p.win code true p.addr with ndisc := min 255 n, counts := true }

/-- BRIDGE_WRITE_ACK: the oldest unacknowledged write of a window reached its target, or was refused there (R396, R570, R571). -/
def State.bridgeAck (s : State) (l : LaneId) (win err : Nat) : State :=
  let x := s.lane l
  if s.hub.rst.held then s else
  match x.brg.writes.findIdx? fun p => p.win == win with
  | none => s
  | some i =>
    match x.brg.writes[i]? with
    | none => s
    | some p =>
      let a := x.hubAddr p.addr.toNat
      let e := writeAnswer a err
      if e ≠ 0 then s.setLane l (x.writeFails p e)
      else
        match s.hub.sramWrite a p.bytes p.v with
        | some h => ({ s with hub := h }).setLane l (x.dropWrite i)
        | none => s.setLane l (x.writeFails p brgTgtErr)

/-- BRIDGE_WRITE_TIMEOUT: no acknowledgement within `WTMO` × 10 µs (R396). -/
def Lane.writeTimeout (l : Lane) (win t : Nat) : Lane :=
  match l.brg.writes.find? fun p => p.win == win with
  | some p => if p.t + l.fget BRG_CFG_WTMO * tenMicros ≤ t then l.writeFails p brgTimeout else l
  | none => l

/-- BRG_RESUME: the named streams run again, but those that fail in the same clock (R398). -/
def Lane.brgResume (l : Lane) (v : Word) (failing : BitVec 8) : Lane :=
  let now := l.fget BRG_STAT_POISON
  l.fset BRG_STAT_POISON (now &&& (0xFF ^^^ (bvField v 0 8 &&& (0xFF ^^^ failing.toNat))))

/-! ### Messages (R400, R401) -/

/-- BRG_MSG: the message follows what was issued before it. -/
def Lane.brgMsg (l : Lane) (v : Word) : Lane := { l with brg := { l.brg with laneMsgs := l.brg.laneMsgs ++ [(v, l.brg.writes.length)] } }

/-- LANE_MESSAGE_DELIVERY: once the writes issued before it have ended, discarded where any stream is poisoned then; PUBLISHED lets the hub take the lanes' results. The record's window is not
given: a free value (Assumption 4). -/
def State.messageDelivery (s : State) (l : LaneId) : State :=
  let x := s.lane l
  match x.brg.laneMsgs with
  | [] => s
  | (v, n) :: rest =>
    let y := { x with brg := { x.brg with laneMsgs := rest } }
    if n ≠ 0 || !s.hub.up then s
    else if x.fget BRG_STAT_POISON ≠ 0 then
      let d := s.draw
      d.2.setLane l (y.brgErr (errOf (bvField d.1 0 3) brgMsgDropped true (BitVec.ofNat 32 BRG_MSG)))
    else
      let s := s.setLane l y
      if bvField v 24 8 = 1 then s.collectResults else s

/-- HUB_MESSAGE: code 0x00 is never sent; a full queue of 16 drops the message (R400). -/
def Lane.hubMessage (l : Lane) (v : Word) : Lane :=
  if bvField v 24 8 = 0 then l
  else if l.brg.hubMsgs.length < 16 then (({ l with brg := { l.brg with hubMsgs := l.brg.hubMsgs ++ [v] } }).raise 0).brgShow
  else l.fset BRG_STAT_HMSG_OVF 1

/-! ### Semaphores and exclusive sequences (R402, R403) -/

/-- Owner: free, the lane, the hub. -/
def semFree : Nat := 0
/-- Held by the lane. -/
def semLane : Nat := 1
/-- Held by the hub. -/
def semHub : Nat := 2
/-- SEM_TAKE: a free semaphore goes to the taker, to the hub when both take. -/
def Lane.semTake (l : Lane) (n : Nat) (byLane byHub : Bool) : Lane :=
  if l.fget (BRG_SEM_OWNER n) ≠ semFree then l
  else if byHub then l.fset (BRG_SEM_OWNER n) semHub
  else if byLane then l.fset (BRG_SEM_OWNER n) semLane
  else l
/-- SEM_GIVE: only the holder frees; a lane that frees the semaphore of its exclusive sequence ends the sequence. -/
def Lane.semGive (l : Lane) (n : Nat) (byHub : Bool) : Lane :=
  if l.fget (BRG_SEM_OWNER n) = (if byHub then semHub else semLane) then
    let l := l.fset (BRG_SEM_OWNER n) semFree
    if byHub || l.brg.excl != some n then l else { l with brg := { l.brg with excl := none } }
  else l

/-- The semaphore of an address: bits 10:6. -/
def exclSem (a : Word) : Nat := bvField a 6 5

/-- The semaphore part of an exclusive load: the sequence before ends, and a free semaphore is taken. -/
def Lane.exclTake (l : Lane) (k : Nat) : Lane :=
  let l := match l.brg.excl with | some j => l.semGive j false | none => l
  if l.fget (BRG_SEM_OWNER k) = semFree then { l.fset (BRG_SEM_OWNER k) semLane with brg := { l.brg with excl := some k } }
  else { l with brg := { l.brg with excl := none } }

/-- EXCLUSIVE_LOAD before its exception: unaligned, or outside the SRAM and the window, a bus error (R426); in lane SRAM it reads. -/
def State.exclLoadRead (s : State) (l : LaneId) (a : Word) (t : Nat) : State :=
  if a.toNat % 4 ≠ 0 then s.busErr
  else if inBridge a.toNat then (s.modLane l (·.exclTake (exclSem a))).brgReadStart l a .word t
  else match (s.lane l).sramRead a.toNat 4 with | some v => s.busData v | none => s.busErr

/-- EXCLUSIVE_LOAD (R403); a bus error raises the exception. -/
def State.exclusiveLoad (s : State) (l : LaneId) (a : Word) (t : Nat) : State := (s.exclLoadRead l a t).trapOnError l a false

/-- EXCLUSIVE_STORE before its exception: in the window it writes and frees the semaphore, answering 1, only while the lane holds the semaphore since the sequence's
load, and else answers 0 (Assumption 21). In lane SRAM the manual gives no rule for success: a free value decides (Assumption 4). -/
def State.exclStoreWrite (s : State) (l : LaneId) (a v : Word) (t : Nat) : State :=
  let x := s.lane l
  if a.toNat % 4 ≠ 0 then s.busErr
  else if inBridge a.toNat then
    let k := exclSem a
    if x.brg.excl == some k && x.fget (BRG_SEM_OWNER k) == semLane then
      let s := s.brgWriteStart l a .word v t
      let s := s.modLane l fun y => { y.semGive k false with brg := { y.brg with excl := none } }
      if s.bus = .error then s else s.busData 1
    else s.busData 0
  else
    match x.sramWrite a.toNat 4 v with
    | none => s.busErr
    | some y => let d := s.draw; if d.1.getLsbD 0 then (d.2.setLane l y).busData 1 else d.2.busData 0

/-- EXCLUSIVE_STORE (R403); a bus error raises the exception. -/
def State.exclusiveStore (s : State) (l : LaneId) (a v : Word) (t : Nat) : State := (s.exclStoreWrite l a v t).trapOnError l a true

/-! ### Resets (R404) -/

/-- What a lane reset leaves of the bridge: tags of its reads rest, semaphores of the hub stay held. -/
def Lane.brgAfterReset (old : Lane) (l : Lane) (t : Nat) : Lane :=
  let rest := old.brg.quar ++ old.brg.reads.map fun r => (r.tag, t + 4000000)
  let l := { l with brg := { brgReset with quar := rest } }
  (upTo 32).foldl (fun (x : Lane) n => x.fset (BRG_SEM_OWNER n) (if old.fget (BRG_SEM_OWNER n) = semHub then semHub else semFree)) l

/-- What a hub reset does to a lane: outstanding reads end with a bus error and HUB_RESET, streams with unacknowledged writes are poisoned, the hub's
semaphores are freed. -/
def Lane.hubReset (l : Lane) (split : Bool) (t : Nat) : Lane :=
  let rs := l.brg.reads ++ l.brg.waiting
  let wins := (upTo 8).filter fun w => l.brg.writes.any fun p => p.win == w
  let l := { l with brg := { l.brg with reads := [], waiting := [], writes := [],
                                        quar := l.brg.quar ++ l.brg.reads.map fun r => (r.tag, t + 4000000),
                                        laneMsgs := l.brg.laneMsgs.map fun m => (m.1, 0) } }
  let l := rs.foldl (fun (x : Lane) r => (x.brgErr (errOf (brgWin r.addr.toNat) brgHubReset false r.addr)).busTrap split false r.addr) l
  let l := wins.foldl (fun (x : Lane) w => x.setRg BRG_STAT (bvSet (x.rg BRG_STAT) (24 + w) 1 1)) l
  let l := (upTo 32).foldl (fun (x : Lane) n => x.semGive n true) l
  ((l.fset BRG_STAT_HUBRST 1).fset BRG_STAT_HUBUP 0).brgShow

/-! ### Configuration (R405) -/

/-- Registers BRG_CFG_WRITE writes: `BRG_CFG`, `BRG_HBASE`, `BRG_MAPw`. -/
def brgCfgReg (off : Nat) : Bool := off == 0 || off == 0x28 || (decide (0x40 ≤ off) && decide (off < 0x60) && off % 4 == 0)
/-- A `BRG_CFG` value keeps R391 and R405. -/
def brgCfgOk (v : Word) : Bool :=
  let w := bvField v 16 8
  let r := bvField v 8 8
  decide (1 ≤ w) && decide (w ≤ 200) && decide (1 ≤ r) && decide (r ≤ 200) && decide (r * (bvField v 4 2 + 1) ≤ 200)
/-- BRG_CFG_WRITE. -/
def Lane.brgCfgWrite (l : Lane) (off : Nat) (v : Word) : Lane :=
  if !brgCfgReg off then l
  else if l.armed || (off == 0 && !brgCfgOk v) then l.fset BRG_STAT_CFG_ERR 1
  else l.plainWrite (0x4000B000 + off) v

/-! ### Meanings: a lane held in reset does nothing (Assumption 15) -/

/-- Carry out a bridge command of a lane that is out of reset. -/
def State.ifUp (s : State) (l : LaneId) (f : State → State) : State := if (s.lane l).rst.held then s else f s

/-- BRIDGE_READ (R390). -/
def execBridgeRead (l : LaneId) (addr : Word) (w : Width) (t : Nat) (s : State) : Host.Outcome State Fault Refusal :=
  done ((s.at t).ifUp l (·.bridgeRead l addr w t))
/-- BRIDGE_READ_RESPONSE (R390). -/
def execBridgeReadResponse (l : LaneId) (tag err t : Nat) (s : State) : Host.Outcome State Fault Refusal :=
  done ((s.at t).ifUp l (·.bridgeResponse l tag err t))
/-- BRIDGE_READ_TIMEOUT (R391). -/
def execBridgeReadTimeout (l : LaneId) (tag t : Nat) (s : State) : Host.Outcome State Fault Refusal :=
  done ((s.at t).ifUp l (·.bridgeTimeout l tag t))
/-- BRIDGE_READ_BUDGET (R391). -/
def execBridgeReadBudget (l : LaneId) (tag t : Nat) (s : State) : Host.Outcome State Fault Refusal :=
  done ((s.at t).ifUp l (·.bridgeBudget l tag t))
/-- TAG_QUARANTINE_END (R392). -/
def execTagQuarantineEnd (l : LaneId) (tag t : Nat) (s : State) : Host.Outcome State Fault Refusal :=
  done ((s.at t).upLane l (·.quarEnd tag t))
/-- BRIDGE_WRITE (R396). -/
def execBridgeWrite (l : LaneId) (addr : Word) (w : Width) (v : Word) (t : Nat) (s : State) : Host.Outcome State Fault Refusal :=
  done ((s.at t).ifUp l (·.bridgeWrite l addr w v t))
/-- BRIDGE_WRITE_ACK (R396). -/
def execBridgeWriteAck (l : LaneId) (win err : Nat) (s : State) : Host.Outcome State Fault Refusal := done (s.ifUp l (·.bridgeAck l win err))
/-- BRIDGE_WRITE_TIMEOUT (R396). -/
def execBridgeWriteTimeout (l : LaneId) (win t : Nat) (s : State) : Host.Outcome State Fault Refusal :=
  done ((s.at t).upLane l (·.writeTimeout win t))
/-- HUB_EXPORT_READ (R389). -/
def execHubExportRead (l : LaneId) (addr : Word) (s : State) : Host.Outcome State Fault Refusal := done (s.hubExportRead l addr)
/-- HUB_LANE_WRITE (R389): the bridge answers every hub write with an error. -/
def execHubLaneWrite (l : LaneId) (_addr _v : Word) (s : State) : Host.Outcome State Fault Refusal :=
  done (s.upLane l (·.fsat BRG_CNT_RDERR 1)).busErr
/-- BRG_RESUME (R398). -/
def execBrgResume (l : LaneId) (v : Word) (failing : BitVec 8) (s : State) : Host.Outcome State Fault Refusal :=
  done (s.upLane l (·.brgResume v failing))
/-- BRG_EQ_POP (R399). -/
def execBrgEqPop (l : LaneId) (s : State) : Host.Outcome State Fault Refusal :=
  done (s.upLane l fun x => ({ x with brg := { x.brg with errs := x.brg.errs.drop 1 } }).brgShow)
/-- BRG_MSG (R401). -/
def execBrgMsg (l : LaneId) (v : Word) (s : State) : Host.Outcome State Fault Refusal := done (s.upLane l (·.brgMsg v))
/-- LANE_MESSAGE_DELIVERY (R401). -/
def execLaneMessageDelivery (l : LaneId) (s : State) : Host.Outcome State Fault Refusal := done (s.ifUp l (·.messageDelivery l))
/-- HUB_MESSAGE (R400). -/
def execHubMessage (l : LaneId) (v : Word) (s : State) : Host.Outcome State Fault Refusal := done (s.upLane l (·.hubMessage v))
/-- BRG_HMSG_POP (R400). -/
def execBrgHmsgPop (l : LaneId) (s : State) : Host.Outcome State Fault Refusal :=
  done (s.upLane l fun x => ({ x with brg := { x.brg with hubMsgs := x.brg.hubMsgs.drop 1 } }).brgShow)
/-- SEM_TAKE (R402). -/
def execSemTake (l : LaneId) (n : Nat) (byLane byHub : Bool) (s : State) : Host.Outcome State Fault Refusal :=
  done (s.upLane l (·.semTake n byLane byHub))
/-- SEM_GIVE (R402). -/
def execSemGive (l : LaneId) (n : Nat) (byHub : Bool) (s : State) : Host.Outcome State Fault Refusal := done (s.upLane l (·.semGive n byHub))
/-- BRG_CFG_WRITE (R405). -/
def execBrgCfgWrite (l : LaneId) (off : Nat) (v : Word) (s : State) : Host.Outcome State Fault Refusal :=
  done (s.upLane l (·.brgCfgWrite off v))
/-- BRG_CNT_CLEAR (R6): a write of any value sets all fields to 0. -/
def execBrgCntClear (l : LaneId) (_v : Word) (s : State) : Host.Outcome State Fault Refusal := done (s.upLane l (·.setRg BRG_CNT 0))
/-- EXCLUSIVE_LOAD (R403). -/
def execExclusiveLoad (l : LaneId) (addr : Word) (t : Nat) (s : State) : Host.Outcome State Fault Refusal :=
  done ((s.at t).ifUp l (·.exclusiveLoad l addr t))
/-- EXCLUSIVE_STORE (R403). -/
def execExclusiveStore (l : LaneId) (addr v : Word) (t : Nat) (s : State) : Host.Outcome State Fault Refusal :=
  done ((s.at t).ifUp l (·.exclusiveStore l addr v t))

end Sys2Proof.Machine
end

