-- ==== Sys2Proof/Machine/Reset.lean ====
section
/-! DEFINITION. Asserting resets: what each kind clears and keeps, how requests combine, and the leave before a reset (R8, R404, R428, R435,
R489 to R494). -/

namespace Sys2Proof.Machine

/-- A register after a warm reset (R8); the tables of the route engine are cleared. -/
def warmReg (ds : List RegDesc) (a : Nat) (v : Word) : Word := match descOf ds a with | some d => regWarm d v | none => 0

/-- Cause bits as a word. -/
def causeWord (cs : List Nat) : Word := cs.foldl (fun (w : Word) k => w ||| BitVec.ofNat 32 (2 ^ k)) 0

/-! ### Lanes -/

/-- What a cold reset of a lane keeps of a register: cause bits, the resets and failed trim loads since the POR (R489, RSTC registers). -/
def laneColdKeep (a : Nat) : Word := if a = RST_CAUSE then 0x1EFF else if a = RSTC_STAT then 0xFF06 else 0

/-- A lane register after a reset of a kind. -/
def laneRegAfter (cold : Bool) (a : Nat) (v : Word) : Word :=
  if cold then (v &&& laneColdKeep a) ||| (laneRegDefault a &&& ~~~(laneColdKeep a)) else warmReg laneRegs a v

/-- The causes are set, `WARM` tells the kind, and a reset that was not running before is counted (R493). -/
def Lane.markReset (l : Lane) (cold again : Bool) (causes : List Nat) : Lane :=
  let l := l.setRg RST_CAUSE (l.rg RST_CAUSE ||| causeWord causes)
  let l := l.fset RST_CAUSE_WARM (b2n (!cold))
  if again then l else l.fsat RSTC_STAT_NRST 1

/-- A lane after the assertion of a reset (R489): a warm reset keeps the SRAM, the engine's windows and the trim; a cold one writes the SRAM
to zero and reloads the trim. A request to a held lane combines with the reset that runs (R493). -/
def Lane.assertReset (l : Lane) (cold : Bool) (causes : List Nat) (t : Nat) : Lane :=
  let again := l.rst.held
  let c := cold || (again && l.rst.cold)
  let r := { l.rst with held := true, cold := c, t := t, due := none, trimOk := l.rst.trimOk && !cold,
                        pmbT := 0, vTarget := if c then 900 else l.rst.vTarget, vPrev := if c then 900 else l.rst.vPrev }
  let base := { laneReset l.id with reg := sparseMap laneRegDefault (laneRegAfter c) l.reg, start := startReset c, rst := r }
  let kept := if c then base else
    { base with sram := l.sram, cells := l.cells, ard := l.ard, rstat := l.rstat, pstore := l.pstore, badBanks := l.badBanks }
  (l.brgAfterReset kept t).markReset c again causes

/-- A lane right after its own power-on reset (R490, R497): a POR clears all causes, the counts, and TRIMFAIL. -/
def Lane.powerReset (l : Lane) (t : Nat) : Lane :=
  let x := laneReset l.id
  { x with rst := { x.rst with t := t } }

/-- Lane `l`'s reset is asserted. -/
def State.assertLane (s : State) (l : LaneId) (cold : Bool) (causes : List Nat) : State :=
  s.modLane l (·.assertReset cold causes s.now)

/-- A reset of a lane is requested (R490, R492): a voter first leaves, and its reset follows 10 µs after step 1 of R164; a lane that is no
voter is reset at once. -/
def State.requestReset (s : State) (l : LaneId) (reason cause : Nat) (cold : Bool) : State :=
  let x := s.lane l
  if x.rst.held then s.assertLane l cold [cause]
  else if x.inVote && !x.easy then
    (s.leaveAtOnce l reason cause).modLane l fun y => { y with rst := { y.rst with due := some (cold, cause, s.now + tenMicros) } }
  else
    let more := match x.rst.due with | some d => [d.2.1] | none => []
    (s.leave l reason 0 0 s.now cause).assertLane l cold (cause :: more)

/-- A module reset has reached every lane: the module stands before its first catch (R4, R181). -/
def State.settleRestart (s : State) : State :=
  match s.phase with
  | .restarting => if allLanes.any fun l => (s.lane l).rst.due.isSome then s else { s with phase := .sitReady }
  | _ => s

/-- LEAVE_RESET_ASSERT: the reset a lane's leave asked for, once it is due (R164, R492). -/
def State.leaveReset (s : State) (l : LaneId) (t : Nat) : State :=
  match (s.lane l).rst.due with
  | some (cold, cause, d) => if d ≤ t then (s.assertLane l cold [cause]).settleRestart else s
  | none => s

/-! ### The hub -/

/-- What a cold hub reset keeps of a register: causes, counts, and what AON holds (R489; "held in AON", "cleared by a POR"). -/
def hubColdKeep (a : Nat) : Word :=
  if a = HRST_CAUSE then 0x1EFF else if a = HRSTC_STAT then 0xFF06 else if a = RSTC_TRIM then 0x1F
  else if a = HSRAM_RSEQ ∨ (HSRAM_RSIG 0 ≤ a ∧ a < HSRAM_RSIG 4) then 0xFFFFFFFF
  else if a = PWRC_HSTAT then 0x10 else if a = PWRC_WAKE then 0xF8F else if a = NVW_STAT then 0x6 else if a = NVW_ENERGY then 0xFFFF0000
  else if a = HCMD_STAT then 0xFFFF0000 else 0

/-- What a warm hub reset keeps beyond the register tables: the marks of the retained region and the epoch (R387, R428; Assumption 22), and
the droop check's verdict held in AON (R477). -/
def hubWarmKeep (a : Nat) : Word :=
  if a = HSRAM_STAT then 0xFF00 else if a = HCMD_STAT then 0xFFFF0000 else if a = NVW_STAT then 0x6 else if a = NVW_ENERGY then 0xFFFF0000 else 0

/-- A hub register after a reset of a kind. -/
def hubRegAfter (cold : Bool) (a : Nat) (v : Word) : Word :=
  if cold then (v &&& hubColdKeep a) ||| (hubRegDefault a &&& ~~~(hubColdKeep a))
  else (v &&& hubWarmKeep a) ||| (warmReg hubRegs a v &&& ~~~(hubWarmKeep a))

/-- The causes of a hub reset are set. -/
def Hub.markReset (h : Hub) (cold again : Bool) (causes : List Nat) : Hub :=
  let h := h.setRg HRST_CAUSE (h.rg HRST_CAUSE ||| causeWord causes)
  let h := h.fset HRST_CAUSE_WARM (b2n (!cold))
  let h := if again then h else h.fsat HRSTC_STAT_NRST 1
  if again then h else h.fset HCMD_STAT_EPOCH (h.fget HCMD_STAT_EPOCH + 1)

/-- The hub after the assertion of a reset (R489): a warm reset keeps SRAM and mailboxes; a cold one writes banks 0 to 27 and the mailboxes to
zero. The host interface state goes with it (R367, R387). -/
def Hub.assertReset (h : Hub) (cold : Bool) (causes : List Nat) (t : Nat) : Hub :=
  let again := h.rst.held
  let c := cold || (again && h.rst.cold)
  let r := { h.rst with held := true, cold := c, t := t, due := none, trimOk := h.rst.trimOk && !cold, pmbT := 0 }
  let base := { hubReset with reg := sparseMap hubRegDefault (hubRegAfter c) h.reg, rst := r, tb := h.tb }
  let kept :=
    if c then { base with sram := sparseFilter (fun k => decide (retainedBase ≤ k)) h.sram }
    else { base with sram := h.sram, mbxA := h.mbxA, mbxB := h.mbxB, mbxC := h.mbxC, badBanks := h.badBanks }
  kept.markReset c again causes

/-- The hub's reset is asserted: the lanes' bridges end their transactions (R404), and `FAULT` goes on following the ball. -/
def State.assertHub (s : State) (cold : Bool) (causes : List Nat) : State :=
  let tell (s : State) (l : LaneId) : State := s.upLane l (·.hubReset s.split s.now)
  let s := if s.hub.rst.held then s else allLanes.foldl tell s
  s.modHub fun h => (h.assertReset cold causes s.now).fset HCMD_STAT_FAULT (b2n s.aon.faultN)

/-! ### FIELD and the module -/

/-- The FIELD die's reset is asserted: outputs off, trim reloaded, default configuration (R489). -/
def State.assertField (s : State) : State :=
  { s with field := s.field.resetTo, fieldRst := { s.fieldRst with held := true, cold := true, trimOk := false, t := s.now } }

/-- A module reset reaches every lane, the hub and the FIELD die (R489), and ends easy all (R181). -/
def State.assertModule (s : State) (cold : Bool) (causes : List Nat) : State :=
  (((allLanes.foldl (fun (s : State) l => s.assertLane l cold causes) { s with phase := .sitReady }).assertHub cold causes)).assertField

/-- A module reset that hub software requests: voters leave first (R492), the rest is reset at once. -/
def State.requestModule (s : State) (cold : Bool) : State :=
  let lanes := allLanes.foldl (fun (s : State) l => s.requestReset l leaveFirmware causeSwr cold) { s with phase := .restarting }
  ((lanes.settleRestart).assertHub cold [causeSwr]).assertField

/-- AON power-on: the whole module is as right after power-on; flash, fuses and straps stay (R489, R435). -/
def State.aonPowerOn (s : State) (t : Nat) : State :=
  let x := (State.reset).at t
  { x with fuses := s.fuses, flash0 := s.flash0, flash1 := s.flash1, draws := s.draws, pending := s.pending, now := s.now,
           aon := { x.aon with bench := s.aon.bench, hostSel := s.aon.hostSel, rtcAt := t } }

/-- POWER_ON_RESET (R490, R497). The die's TRIMFAIL ends. -/
def State.powerOn (s : State) (d : Die) (aon : Bool) (t : Nat) : State :=
  if aon then s.aonPowerOn t
  else
    match d with
    | .lane l => (s.modLane l (·.powerReset t)).modHub fun h => h.fset RSTC_TRIM_TRIMFAIL (setField (h.fget RSTC_TRIM_TRIMFAIL) l.idx 1 0)
    | .hub =>
      let s := s.assertHub true []
      let s := s.modHub fun h =>
        let h := ((h.setRg HRST_CAUSE 1).setRg HRSTC_STAT 0).fset RSTC_TRIM_TRIMFAIL (setField (h.fget RSTC_TRIM_TRIMFAIL) 4 1 0)
        { h.fset HCMD_STAT_EPOCH 0 with rst := { rstReset with t := t } }
      s.faultPin 1 false
    | .field =>
      let s := s.modHub fun h => h.fset RSTC_TRIM_TRIMFAIL (setField (h.fget RSTC_TRIM_TRIMFAIL) 3 1 0)
      { s with field := { s.field.resetTo with powered := true, uv := true, periodT := t, lastCmd := t }, fieldRst := { rstReset with t := t } }

/-- BROWN_OUT: cold, at once, with the rail in `BORRAIL` (R490, R492). -/
def State.brownOut (s : State) (d : Die) (rail : Nat) : State :=
  match d with
  | .lane l => (s.assertLane l true [causeBor]).modLane l (·.fset RST_CAUSE_BORRAIL rail)
  | .hub => (s.assertHub true [causeBor]).modHub (·.fset HRST_CAUSE_BORRAIL rail)
  | .field =>
    { s with field := { s.field.resetTo with powered := false, uv := true },
             fieldRst := { s.fieldRst with held := true, cold := true, trimOk := false, t := s.now } }

/-- The key without which a write of `RSTC_SWR` does not act. -/
def swrKey : Nat := 0xA55A

/-- RSTC_SWR in a lane or the hub (R490). -/
def State.swr (s : State) (m : Master) (v : Word) : State :=
  let cold := v.getLsbD 1
  if bvField v 16 16 ≠ swrKey ∨ v.getLsbD 0 = false then s
  else
    match m with
    | .lane l => if (s.lane l).rst.held then s else s.requestReset l leaveFirmware causeSwr cold
    | .hub =>
      if s.hub.rst.held then s
      else if bvField v 2 2 = 0 then s.assertHub cold [causeSwr]
      else if bvField v 2 2 = 1 then s.requestModule cold
      else s
    | .host => s

/-! ### Meanings -/

/-- LEAVE_RESET_ASSERT (R492). -/
def execLeaveResetAssert (l : LaneId) (t : Nat) (s : State) : Host.Outcome State Fault Refusal := done ((s.at t).leaveReset l t)
/-- POWER_ON_RESET (R490). -/
def execPowerOnReset (d : Die) (aon : Bool) (t : Nat) (s : State) : Host.Outcome State Fault Refusal := done ((s.at t).powerOn d aon t)
/-- BROWN_OUT (R490). -/
def execBrownOut (d : Die) (rail t : Nat) (s : State) : Host.Outcome State Fault Refusal := done ((s.at t).brownOut d rail)
/-- RSTC_SWR (R490). -/
def execRstcSwr (m : Master) (v : Word) (t : Nat) (s : State) : Host.Outcome State Fault Refusal := done ((s.at t).swr m v)
/-- DEBUG_RESET_REQUEST (R490): a lane with reason DEBUG, or the hub. The FIELD die has no JTAG reset request. -/
def execDebugResetRequest (d : Die) (s : State) : Host.Outcome State Fault Refusal :=
  done (match d with
    | .lane l => s.requestReset l leaveDebug causeDbg false
    | .hub => s.assertHub false [causeDbg]
    | .field => s)
/-- HUB_WATCHDOG_EXPIRY (R490). -/
def execHubWatchdogExpiry (s : State) : Host.Outcome State Fault Refusal := done (s.assertHub false [causeWdt])
/-- HUB_LOCKUP (R490). -/
def execHubLockup (s : State) : Host.Outcome State Fault Refusal := done (s.assertHub false [causeLockup])

end Sys2Proof.Machine
end

