-- ==== Sys2Proof/Machine/Update.lean ====
section
/-! DEFINITION. Updates and settings: downloads, verification, activation, rolling steps, confirmation, settings commands, the recovery
loader, and the hold-up store's measurement (R449 to R480). -/

namespace Sys2Proof.Machine

/-! ### Downloads (R456, R457) -/

/-- The slot is the `ACTIVE` or `TRIAL` slot of the boot pointer. -/
def State.protectedSlot (s : State) (k : Nat) : Bool :=
  let p := s.pointer
  p.active == k || (p.trial != 0xFF && p.trial == k)

/-- Blocks 0 to `NBLK` − 1 of a slot are valid. -/
def State.slotWhole (s : State) (k : Nat) : Bool :=
  let b := s.slotBuild k
  hdrOk (s.slotHdr k) && (upTo (hdrNblk (s.slotHdr k))).all fun i => blockValid (s.block k i) i b

/-- A download or a forwarding into the slot is in progress: begun, and blocks missing. -/
def State.downloading (s : State) (k : Nat) : Bool :=
  (s.hub.upd.downSlot == some k || s.hub.ptnr.fwdDest == some k) && !s.slotWhole k

/-- The identity of the program a lane runs. -/
def State.runningPrgid (s : State) : Option Dword :=
  ([LaneId.a, .b, .c].filterMap fun l => if (s.lane l).up then (s.lane l).prog.prog.map (·.prgid) else none).head?

/-- A COMMIT of the slot names the running program. -/
def State.commitRuns (s : State) (k : Nat) : Bool :=
  match s.slotCommit k, s.runningPrgid with
  | some e, some p => beAt e 8 8 == p.toNat
  | _, _ => false

/-- UPD_BEGIN is accepted for a slot and its block 0 (R452, R456). -/
def State.beginOk (s : State) (k : Nat) (block : List Byte) : Bool :=
  !s.protectedSlot k && !s.commitRuns k && !s.downloading k && hdrOk (block.take 512)

/-- The loader's rule on a slot (R474). -/
def State.loaderSlotOk (s : State) (k : Nat) (block : List Byte) : Bool :=
  k == 0 || (k == 1 && hdrOk (s.slotHdr 0) && s.slotBuild 0 != hdrBuild block)

/-- The slot a download goes into: the one begun, else, after a restart, one that is neither `ACTIVE` nor `TRIAL` (R469). -/
def State.downloadSlot (s : State) : Option Nat :=
  match s.hub.upd.downSlot with
  | some k => if s.protectedSlot k then none else some k
  | none => [0, 1].find? fun k => !s.protectedSlot k

/-- A download into slot `k` begins. -/
def State.setDownload (s : State) (k : Nat) : State := s.modHub fun h => { h with upd := { h.upd with downSlot := some k } }

/-- Program block `i` of slot `k`. -/
def blockWrite (k i : Nat) (block : List Byte) (cmd : Option CmdRef) (t : Nat) : GatedWrite :=
  { kind := .block, pages := 256, addr := slotBase k + 0x10000 * i, bytes := block, cmd := cmd, t0 := t }

/-- UPD_BEGIN. -/
def State.updBegin (s : State) (r : CmdRef) (k len : Nat) (block : List Byte) : State :=
  if 2 ≤ k ∨ 0x2000000 < len then s.endWith r stBadParam 0
  else if !s.beginOk k block || block.length != 65536 then s.endWith r stRefused 0
  else (s.setDownload k).gated (blockWrite k 0 block (some r) s.now)

/-- UPD_BLOCK: a block already valid with the same content is not written again. -/
def State.updBlock (s : State) (r : CmdRef) (i : Nat) (block : List Byte) : State :=
  match s.downloadSlot with
  | none => s.endWith r stRefused 0
  | some k =>
    if 512 ≤ i ∨ block.length ≠ 65536 then s.endWith r stRefused 0
    else if blockValid (s.block k i) i (s.slotBuild k) && s.block k i == block then s.endWith r stOk 0
    else s.gated (blockWrite k i block (some r) s.now)

/-- A slot passes UPD_VERIFY, or not (R459). -/
def State.verifySlot (s : State) (k : Nat) : Bool × State :=
  if decide (k < 2) && s.slotVerifies k then
    (true, s.modHub fun h => { h with upd := { h.upd with verified := insertL k h.upd.verified } })
  else (false, s)

/-- UPD_VERIFY. -/
def State.updVerify (s : State) (r : CmdRef) (k : Nat) : State :=
  let x := s.verifySlot k
  if x.1 then x.2.endWith r stOk 0 else s.endWith r stRefused 0

/-- UPD_STATUS: the bitmap of a slot. -/
def State.updStatus (s : State) (r : CmdRef) (k : Nat) : State :=
  if 2 ≤ k then s.endWith r stBadParam 0 else s.endRef r stOk 0 0 (bitmapBytes (s.validBlocks k))

/-! ### Activation and confirmation (R460 to R465, R468) -/

/-- `PTNR_STAT.ROLE` is active. -/
def Hub.isActive (h : Hub) : Bool := h.fget PTNR_STAT_ROLE == 2

/-- The update to a slot is a rolling one (R460): in a pair, `PTNRVER` lies within one of the partner's. -/
def State.rolling (s : State) (k : Nat) : Bool :=
  let old := s.slotHdr s.pointer.active
  let new := s.slotHdr k
  let peer := s.hub.ptnr.peerVer
  let near := decide (hdrPtnrver new ≤ peer + 1) && decide (peer ≤ hdrPtnrver new + 1)
  hdrContent new == hdrContent old && hdrVotegen new == hdrVotegen old && hdrSetfmt new == hdrSetfmt old &&
    s.runningPrgid == some (programOf (s.slotSection k 6)).prgid && (s.hub.fget PTNR_STAT_ROLE == 0 || near)

/-- A gated pointer entry. -/
def pointerWrite (p : BootPtr) (cmd : Option CmdRef) (t : Nat) : GatedWrite :=
  { kind := .pointer, pages := 1, addr := 0, bytes := pointerTail p, cmd := cmd, t0 := t }

/-- UPD_ACTIVATE (R462, R465). -/
def State.updActivate (s : State) (r : CmdRef) (k : Nat) : State :=
  if s.hub.isActive || !s.hub.upd.verified.contains k then s.endWith r stRefused 0
  else
    let p := { s.pointer with trial := k, parts := if s.rolling k then 0 else 0x1F, tries := 0, tbuild := BitVec.ofNat 64 (s.slotBuild k) }
    (s.modHub fun h => { h with upd := { h.upd with stopped := false } }).gated (pointerWrite p (some r) s.now)

/-- UPD_CONFIRM (R468). -/
def State.updConfirm (s : State) (r : CmdRef) : State :=
  let p := s.pointer
  if p.trial ≠ 0xFF ∧ p.parts = 0x1F ∧ 2 ≤ s.voters.length ∧ s.hub.on UPD_STAT_SET_INCOMP = false then
    s.gated (pointerWrite { p with active := p.trial, trial := 0xFF, parts := 0, tries := 0 } (some r) s.now)
  else s.endWith r stRefused 0

/-! ### Rolling steps (R466, R467) -/

/-- The lane of a lane step: steps 3, 4, 5 are lanes A, C, B. -/
def stepLane (n : Nat) : Option LaneId := if n = 3 then some .a else if n = 4 then some .c else if n = 5 then some .b else none

/-- The running step has ended: all image blocks written; the lane a voter again after its reset. -/
def State.stepDone (s : State) : Bool :=
  let n := s.hub.fget UPD_STAT_STEP
  if n = 1 then
    match (hdrSections (s.slotHdr s.pointer.trial)).find? fun e => e.1 == 4 with
    | some e => (upTo e.2.2.1).all s.hub.upd.fieldDone.contains
    | none => true
  else
    match stepLane n, s.hub.upd.stepT with
    | some l, some tn => (s.lane l).inVote && decide (tn < (s.lane l).rst.relT)
    | _, _ => false

/-- The next part not yet started from the trial slot, as its bit of `PARTS`. -/
def BootPtr.nextPart (p : BootPtr) : Option Nat := (upTo 5).find? fun i => getField p.parts i 1 == 0

/-- A step may start: every step but the first outside easy all and with three voters; no hub step in an active module (R460, R466). -/
def State.stepMay (s : State) (i : Nat) : Bool :=
  i == 0 || (!s.anyEasy && s.voters.length == 3 && !(i == 1 && s.hub.isActive))

/-- Step of part `i` after its bit has been written. -/
def State.stepAct (s : State) (i t : Nat) : State :=
  let mark (s : State) : State := s.modHub (·.fset UPD_STAT_STEP (i + 1))
  if i = 0 then (mark s).modHub fun h => { h with upd := { h.upd with fieldDone := [] } }
  else if i = 1 then { (mark s).assertHub false [causeSwr] with aon := { s.aon with hubStep := some t } }
  else
    match stepLane (i + 1) with
    | none => s
    | some l =>
      match s.commitDesc opLaneStep [l.idx] [] with
      | none => s
      | some (q, s') => (mark s').modHub fun h => { h with upd := { h.upd with stepSeq := some q, stepT := none } }

/-- A running step is over; the FIELD die has its new image whole. -/
def State.endStep (s : State) : State :=
  let s := if s.hub.fget UPD_STAT_STEP = 1 then { s with field := { s.field with imgNew := true } } else s
  s.modHub (·.fset UPD_STAT_STEP 0)

/-- ROLLING_STEP: a step that has ended is over; the next one starts once its pointer entry may be written. -/
def State.rollingStep (s : State) (t : Nat) : State :=
  if !s.hub.ready || s.hub.upd.stopped || s.hub.blockOff 0x71 then s
  else
    let s := if s.stepDone then s.endStep else s
    let p := s.pointer
    if s.hub.fget UPD_STAT_STEP ≠ 0 ∨ p.trial = 0xFF ∨ s.hub.on NVW_STAT_PF = true then s
    else
      match p.nextPart with
      | none => s
      | some i =>
        if !s.stepMay i then s
        else if !s.hub.gateOpen 1 then s.modHub (·.fsat NVW_STAT_DEFCNT 1)
        else if decide (2 ≤ i) && (s.commitDesc opLaneStep [] []).isNone then s
        else (s.writePointer { p with parts := setField p.parts i 1 1 }).stepAct i t

/-- A recorder entry of the update controller. -/
def State.recUpd (s : State) (rule : Nat) : State := s.recHub 6 0x07 rule []

/-- ROLLING_STEP_TIMEOUT: at the 64th catch after admission, or when readmission failed, the lane goes back to its old build and the update
stops (R467). -/
def State.stepTimeout (s : State) : State :=
  let n := s.hub.fget UPD_STAT_STEP
  match stepLane n, s.hub.upd.stepT with
  | some l, some tn =>
    let late := decide (tn + 64 * s.hub.set.period * 1000000 ≤ s.lastCatch) || (s.lane l).on VOTE_READM_FAILED
    if !late || s.stepDone then s
    else
      let p := s.pointer
      let s := s.writePointer { p with parts := setField p.parts (n - 1) 1 0 }
      let s := (s.requestReset l leaveFirmware causeSwr false).recUpd 467
      s.modHub fun h => { (h.fset UPD_STAT_REVERTED 1).fset UPD_STAT_STEP 0 with upd := { h.upd with stopped := true } }
  | _, _ => s

/-- HUB_READY_TIMEOUT: the AON domain restarts the hub, which reverts the trial (R467). -/
def State.hubReadyTimeout (s : State) (t : Nat) : State :=
  match s.aon.hubStep with
  | some t0 =>
    if t0 + 2000000000 ≤ t ∧ s.hub.ready = false then
      { s.assertHub false [] with aon := { s.aon with hubStep := none, hubRevert := true } }
    else s
  | none => s

/-! ### Settings commands (R470) -/

/-- Length of the settings as staged over the area in force. -/
def UpdInt.stagedLen (u : UpdInt) : Nat := u.staged.foldl (fun n e => max n (e.1 + 1)) u.setLen

/-- The staged settings: the area in force with the staged bytes in place. -/
def State.stagedBytes (s : State) : List Byte :=
  let u := s.hub.upd
  let area := s.areaBytes u.setArea u.setLen
  (upTo u.stagedLen).map fun i => match u.staged.find? fun e => e.1 == i with | some e => e.2 | none => area.getD i 0

/-- SETTINGS_READ. -/
def State.settingsRead (s : State) (r : CmdRef) (sect_ off : Nat) : State :=
  let u := s.hub.upd
  let area := s.areaBytes u.setArea u.setLen
  if u.setLen ≤ sect_ + off then s.endWith r stBadParam 0 else s.endRef r stOk 0 0 (area.drop (sect_ + off))

/-- Stage bytes. -/
def stageBytes (m : Sparse Byte) (a : Nat) : List Byte → Sparse Byte
  | [] => m
  | b :: bs => stageBytes (sparsePut m a b) (a + 1) bs

/-- SETTINGS_WRITE. -/
def State.settingsWrite (s : State) (r : CmdRef) (sect_ off : Nat) (bytes : List Byte) : State :=
  if 0x400000 < sect_ + off + bytes.length then s.endWith r stBadParam 0
  else (s.modHub fun h => { h with upd := { h.upd with staged := stageBytes h.upd.staged (sect_ + off) bytes } }).endWith r stOk 0

/-- SETTINGS_COMMIT: refused while a trial is pending or when the CRC differs. -/
def State.settingsCommit (s : State) (r : CmdRef) (crc : Word) : State :=
  let bs := s.stagedBytes
  if s.pointer.trial ≠ 0xFF ∨ crc32c bs ≠ crc.toNat then s.endWith r stRefused 0
  else
    s.gated { kind := .settings, pages := (bs.length + 255) / 256 + 1, addr := if s.hub.upd.setArea = 0 then 1 else 0, bytes := bs,
              cmd := some r, t0 := s.now }

/-! ### Forwarding, the sender (R458) -/

/-- The slot UPD_FORWARD sends: the one verified last, else the active one. -/
def State.forwardSlot (s : State) : Nat := match s.hub.upd.verified.getLast? with | some k => k | none => s.pointer.active

/-- Forwarding of slot `k` starts over a link: every block is to be sent. -/
def State.startForward (s : State) (link k hop : Nat) : State :=
  s.modHub fun h =>
    { h with ptnr := { h.ptnr with fwdOut := some link, fwdSrc := k, fwdHop := hop, fwdAcked := [], fwdSent := upTo (hdrNblk (s.slotHdr k)) } }

/-- The module may send and take forwarding over a partner link: it is not in resynchronisation. -/
def State.linkOpen (s : State) (link : Nat) : Bool :=
  decide (link < 2) && s.hub.fget PTNR_STAT_ROLE != 4 && !s.hub.ptnr.resync && !s.hub.blockOff 0x20

/-- UPD_FORWARD. -/
def State.updForward (s : State) (r : CmdRef) (link : Nat) : State :=
  if !s.linkOpen link then s.endWith r stNotReady 0 else (s.startForward link s.forwardSlot 0).endWith r stOk 0

/-! ### The recovery loader (R473, R474) -/

/-- What a frame's CRC covers: tag, index, count, bytes. -/
def loaderContent (tag idx cnt : Nat) (bytes : List Byte) : List Byte := beBytes 2 tag ++ beBytes 2 idx ++ beBytes 2 cnt ++ bytes

/-- The loader writes a block of slot `k` and reads it back. -/
def State.loaderWrite (s : State) (k i : Nat) (block : List Byte) : Nat × State :=
  let s := s.performWrite (blockWrite k i block none s.now)
  (if blockValid (s.block k i) i (s.slotBuild k) then stOk else stRefused, s)

/-- The loader carries out a command: status, output data, state. -/
def State.loaderRun (s : State) (op : Nat) (par data : List Byte) : Nat × List Byte × State :=
  let k := leAt par 0 1
  if op = 0x0701 then
    if 2 ≤ k then (stBadParam, [], s)
    else if !s.loaderSlotOk k data || s.downloading k || !hdrOk (data.take 512) || data.length != 65536 then (stRefused, [], s)
    else let x := (s.setDownload k).loaderWrite k 0 data; (x.1, [], x.2)
  else if op = 0x0702 then
    let i := leAt par 0 2
    match s.hub.upd.downSlot with
    | none => (stRefused, [], s)
    | some j =>
      if 512 ≤ i ∨ data.length ≠ 65536 then (stRefused, [], s)
      else if blockValid (s.block j i) i (s.slotBuild j) && s.block j i == data then (stOk, [], s)
      else let x := s.loaderWrite j i data; (x.1, [], x.2)
  else if op = 0x0703 then let x := s.verifySlot k; (if x.1 then stOk else stRefused, [], x.2)
  else if op = 0x0704 then
    if !s.hub.upd.verified.contains k then (stRefused, [], s)
    else (stOk, [], (s.writePointer { s.pointer with active := k, trial := 0xFF, parts := 0, tries := 0 }).requestModule false)
  else if op = 0x0706 then (if 2 ≤ k then (stBadParam, [], s) else (stOk, bitmapBytes (s.validBlocks k), s))
  else (stBadOpcode, [], s)

/-- A whole message: header, inline parameters, input data; answered with a completion. -/
def State.loaderMessage (s : State) (msg : List Byte) : State :=
  let h := headerOf msg
  let c := newCmd (bvField h.tag 14 2) (bvField h.tag 6 8) h (h.opcode.toNat / 256) 0 s.now
  let n := h.plen.toNat
  let r := if c.headerBad then (stBadHeader, [], s) else s.loaderRun c.op ((msg.drop 32).take n) ((msg.drop (32 + n)).take h.dinlen.toNat)
  let c := { c with status := some (BitVec.ofNat 16 r.1), dout := r.2.1 }
  r.2.2.modHub fun h => { h with upd := { h.upd with loaderOut := c.entry true ++ r.2.1 } }

/-- LOADER_FRAME: a frame of a correct CRC joins its command; the last one to come completes it. -/
def State.loaderFrame (s : State) (tag idx cnt : Nat) (bytes : List Byte) (crc : Word) : State :=
  if !s.hub.upd.loader || 1024 < bytes.length || cnt ≤ idx || crc32c (loaderContent tag idx cnt bytes) != crc.toNat then s
  else
    let fs := (tag, idx, bytes) :: s.hub.upd.frags.filter fun e => !(e.1 == tag && e.2.1 == idx)
    let part (i : Nat) : Option (List Byte) := (fs.find? fun e => e.1 == tag && e.2.1 == i).map (·.2.2)
    if (upTo cnt).all fun i => (part i).isSome then
      let s := s.modHub fun h => { h with upd := { h.upd with frags := fs.filter fun e => e.1 != tag } }
      s.loaderMessage ((upTo cnt).flatMap fun i => (part i).getD [])
    else s.modHub fun h => { h with upd := { h.upd with frags := fs } }

/-! ### The hold-up store (R475 to R477, R480) -/

/-- Mean of samples. -/
def meanOf (xs : List Nat) : Nat := if xs.isEmpty then 0 else xs.sum / xs.length

/-- HOLD_SENSE_SAMPLE: V_avg over the last 2,000 samples, one per 10 µs; three low ones in a row are a power failure: the recorder is flushed
and no write starts any more. -/
def State.holdSample (s : State) (code : Nat) : State :=
  let h := s.hub
  let v := storeVolts h.set.huDiv (code % 4096)
  if !h.up then s
  else if h.on NVW_STAT_PF then s.modHub (·.fset NVW_VSENSE_CODE code)
  else
    let xs := (v :: h.upd.samples).take 2000
    let avg := meanOf xs
    let low := decide (100 * v < 95 * avg) || decide (v < h.set.huVmin * 1000)
    let run := if low then h.upd.lowRun + 1 else 0
    let h := (h.fset NVW_VSENSE_CODE code).fset NVW_VSENSE_VAVG (min 65535 (avg / 10000))
    let h := { h with upd := { h.upd with samples := xs, vavg := avg, lowRun := run } }
    let h := h.fset NVW_STAT_RES_LOW (b2n (decide (h.eAvail < eRes)))
    let s := { s with hub := h }
    if 3 ≤ run then s.recFlushAll.modHub (·.fset NVW_STAT_PF 1) else s

/-- DROOP_CHECK: C_meas in µF from the rise time in µs, and its verdict, once per hub start (R477). -/
def Hub.droopCheck (h : Hub) (us : Nat) : Hub :=
  if !h.up || h.upd.droopRun then h
  else
    let c := h.set.huIchg * us / 2000
    let ok := decide (7 * h.set.huC ≤ 10 * c) && decide (10 * c ≤ 13 * h.set.huC)
    let h := ((h.fset NVW_ENERGY_CMEAS (min 65535 c)).fset NVW_STAT_CVALID (b2n ok)).fset NVW_STAT_CFAIL (b2n (!ok))
    { h with upd := { h.upd with droopRun := true } }

/-- Carry out an H command unless its write waits already (R479). -/
def State.writeCmd (s : State) (r : CmdRef) (op : Nat) (f : State → State) : State :=
  if s.hub.upd.gated.any fun g => g.cmd == some r then s else s.hCmd r op f

/-! ### Meanings -/

/-- LOADER_FRAME (R473): the same fields on either path. -/
def execLoaderFrame (_uart : Bool) (tag : Half) (idx cnt : Nat) (bytes : List Byte) (crc : Word) (s : State) :
    Host.Outcome State Fault Refusal := done (s.loaderFrame tag.toNat idx cnt bytes crc)
/-- ROLLING_STEP (R466). -/
def execRollingStep (t : Nat) (s : State) : Host.Outcome State Fault Refusal := done ((s.at t).rollingStep t)
/-- ROLLING_STEP_TIMEOUT (R467). -/
def execRollingStepTimeout (s : State) : Host.Outcome State Fault Refusal := done s.stepTimeout
/-- HUB_READY_TIMEOUT (R467). -/
def execHubReadyTimeout (t : Nat) (s : State) : Host.Outcome State Fault Refusal := done ((s.at t).hubReadyTimeout t)
/-- HOLD_SENSE_SAMPLE (R476). -/
def execHoldSenseSample (code t : Nat) (s : State) : Host.Outcome State Fault Refusal := done ((s.at t).holdSample code)
/-- DROOP_CHECK (R477). -/
def execDroopCheck (us : Nat) (s : State) : Host.Outcome State Fault Refusal := done (s.modHub (·.droopCheck us))
/-- UPD_BEGIN (R456). -/
def execUpdBegin (r : CmdRef) (k len : Nat) (block : List Byte) (s : State) : Host.Outcome State Fault Refusal :=
  done (s.writeCmd r 0x0701 (·.updBegin r k len block))
/-- UPD_BLOCK (R456). -/
def execUpdBlock (r : CmdRef) (i : Nat) (block : List Byte) (s : State) : Host.Outcome State Fault Refusal :=
  done (s.writeCmd r 0x0702 (·.updBlock r i block))
/-- UPD_VERIFY (R459). -/
def execUpdVerify (r : CmdRef) (k : Nat) (s : State) : Host.Outcome State Fault Refusal := done (s.hCmd r 0x0703 (·.updVerify r k))
/-- UPD_ACTIVATE (R465). -/
def execUpdActivate (r : CmdRef) (k : Nat) (s : State) : Host.Outcome State Fault Refusal := done (s.writeCmd r 0x0704 (·.updActivate r k))
/-- UPD_CONFIRM (R468). -/
def execUpdConfirm (r : CmdRef) (s : State) : Host.Outcome State Fault Refusal := done (s.writeCmd r 0x0705 (·.updConfirm r))
/-- UPD_STATUS (R457). -/
def execUpdStatus (r : CmdRef) (k : Nat) (s : State) : Host.Outcome State Fault Refusal := done (s.hCmd r 0x0706 (·.updStatus r k))
/-- UPD_FORWARD (R458). -/
def execUpdForward (r : CmdRef) (link : Nat) (s : State) : Host.Outcome State Fault Refusal := done (s.hCmd r 0x0707 (·.updForward r link))
/-- SETTINGS_READ (R383). -/
def execSettingsRead (r : CmdRef) (sect_ off : Nat) (s : State) : Host.Outcome State Fault Refusal :=
  done (s.hCmd r 0x0301 (·.settingsRead r sect_ off))
/-- SETTINGS_WRITE (R470). -/
def execSettingsWrite (r : CmdRef) (sect_ off : Nat) (bytes : List Byte) (s : State) : Host.Outcome State Fault Refusal :=
  done (s.hCmd r 0x0302 (·.settingsWrite r sect_ off bytes))
/-- SETTINGS_COMMIT (R470). -/
def execSettingsCommit (r : CmdRef) (crc : Word) (s : State) : Host.Outcome State Fault Refusal :=
  done (s.writeCmd r 0x0303 (·.settingsCommit r crc))

end Sys2Proof.Machine
end

