-- ==== Sys2Proof/Machine/Partner.lean ====
section
/-! DEFINITION. The pair of modules: heartbeats, roles, forwarded telegrams, yield and takeover, claims, resynchronisation, image forwarding
(R341 to R364, R458). -/

namespace Sys2Proof.Machine

/-! ### Roles -/

/-- `PTNR_STAT.ROLE`. -/
def Hub.role (h : Hub) : Nat := h.fget PTNR_STAT_ROLE
/-- Unpaired. -/
def rolUnpaired : Nat := 0
/-- Starting. -/
def rolStarting : Nat := 1
/-- Active. -/
def rolActive : Nat := 2
/-- Standby. -/
def rolStandby : Nat := 3
/-- Resynchronising. -/
def rolResync : Nat := 4

/-- Partner frames are sent and taken: hub firmware runs, the module is one of a pair, the block is not being reset. -/
def Hub.partners (h : Hub) : Bool := h.up && h.set.pairEn && !h.blockOff 0x20 && !h.portsOff

/-- A recorder entry of the partner unit. -/
def State.recPtnr (s : State) (rule : Nat) (data : List (Nat × Nat)) : State := s.recHub 5 0x08 rule data

/-- Every lane that is out of reset is told of the role and claim of its module. -/
def State.tellLanes (s : State) (f : Lane → Lane) : State := allLanes.foldl (fun (s : State) l => s.upLane l f) s

/-- Frames remembered to discard their second copies (R342). -/
def seenKeep : Nat := 1024

/-- `PTNR_STAT.UP` of a link. -/
def upOf (link : Nat) : Fld := if link = 0 then PTNR_STAT_UP0 else PTNR_STAT_UP1

/-- The first copy of a frame by `TYPE` and `PSEQ`; the state with it noted, and the link up (R342). -/
def State.firstCopy (s : State) (ty link : Nat) (pseq : Word) : Option State :=
  let h := s.hub.fset (upOf link) 1
  if s.hub.ptnr.seen.contains (ty, pseq) then none
  else some { s with hub := { h with ptnr := { h.ptnr with seen := ((ty, pseq) :: h.ptnr.seen).take seenKeep } } }

/-- A valid frame of the pair: nothing unless partner frames are taken; a second copy, and a frame whose link CRC fails, is discarded. -/
def State.frameIn (s : State) (ty link : Nat) (frame : List Byte) (f : List Byte → State → State) : State :=
  if !s.hub.partners || decide (2 ≤ link) then s
  else match partnerContent ty frame with
    | none => s
    | some (pseq, c) =>
      match s.firstCopy ty link pseq with
      | some s' => f c s'
      | none => s.modHub (·.fset (upOf link) 1)

/-- The module becomes active with a claim, written to the record first (R345, R362). -/
def State.becomeActive (s : State) (c : Word) : State :=
  let s := s.writeClaimRec c
  let s := s.modHub fun h =>
    { ((h.fset PTNR_STAT_ROLE rolActive).fset PTNR_STAT_READY 0).setRg PTNR_CLAIM c with
      ptnr := { h.ptnr with yielded := false, resync := false, decided := none } }
  s.tellLanes fun l => { l with claim := c, standby := false, yielded := l.easy && l.yielded, cmpRun := 0 }

/-- The module becomes a standby that resynchronises once it hears an active (R344). -/
def State.becomeStandby (s : State) : State :=
  let s := s.modHub fun h =>
    { (h.fset PTNR_STAT_ROLE rolStandby).fset PTNR_STAT_READY 0 with ptnr := { h.ptnr with yielded := true } }
  s.tellLanes fun l => { l with standby := true, cmpRun := 0 }

/-- A claim cannot pass 0xFFFF_FFFF (R354). -/
def State.claimEnd (s : State) : State :=
  (s.modHub fun h => { h.fset PTNR_STAT_CLAIM_END 1 with ptnr := { h.ptnr with decided := none } }).recPtnr 354 []

/-! ### Heartbeats (R342, R343, R353) -/

/-- Whole 1 ms windows that have passed without a HEARTBEAT, at `t`. -/
def PtnrInt.missed (p : PtnrInt) (t : Nat) : Nat := t / 1000000 - p.lastHb / 1000000 - 1

/-- Windows missed and not yet counted go into `HBMISS`. -/
def Hub.countMissed (h : Hub) (t : Nat) : Hub :=
  let n := h.ptnr.missed t
  { h.fsat PTNR_CNT_HBMISS (n - h.ptnr.hbMissRun) with ptnr := { h.ptnr with hbMissRun := max n h.ptnr.hbMissRun } }

/-- The stroke the lanes stand at. -/
def State.strokeNow (s : State) : Word := match s.voters with | l :: _ => (s.lane l).stroke | [] => 0

/-- `ROLE` as a heartbeat carries it. -/
def Hub.roleByte (h : Hub) : Byte := if h.role = rolActive then 1 else if h.role = rolStarting then 3 else 2

/-- HEARTBEAT_SEND: on both links, every 1 ms. -/
def State.hbSend (s : State) (t : Nat) : State :=
  if !s.hub.partners || t % 1000000 != 0 then s
  else
    let claim := if s.hub.role = rolStarting then s.hub.upd.claim else s.hub.rg PTNR_CLAIM
    let m : HeartbeatMsg := { role := s.hub.roleByte, ready := BitVec.ofNat 8 (b2n (s.hub.on PTNR_STAT_READY)), claim := claim,
                              serial := s.hub.set.serial, stroke := s.strokeNow, tb := t }
    s.modHub fun h => h.sendFrame 0x21 m.bytes fun f p => { p with hbOut := f }

/-- A standby that hears a new claim of the active writes it (R362). -/
def State.hearClaim (s : State) (c : Word) : State :=
  let waits := s.hub.upd.gated.any fun g => g.kind == .claim && g.bytes == beBytes 4 c.toNat
  let s := s.modHub (·.setRg PTNR_CLAIM c)
  if s.hub.upd.claim.toNat < c.toNat ∧ waits = false then
    s.gated { kind := .claim, pages := 1, addr := 0, bytes := beBytes 4 c.toNat, cmd := none, t0 := s.now }
  else s

/-- HEARTBEAT: what it tells is noted; a starting module that hears an active becomes its standby; a standby follows its timebase and claim,
and one that has to resynchronise begins, or refuses (R343, R344, R362, R363). -/
def State.heartbeat (s : State) (link : Nat) (frame : List Byte) (vals : PairValues) (ver t : Nat) : State :=
  s.frameIn 0x21 link frame fun c s =>
    match heartbeatOf c with
    | none => s
    | some m =>
      let s := s.modHub fun h =>
        let h := (h.countMissed t).fset PTNR_STAT_PEER_READY (b2n (m.ready == 1#8))
        { h with ptnr := { h.ptnr with lastHb := t, hbMissRun := 0, peerRole := m.role.toNat, peerClaim := m.claim, peerSerial := m.serial,
                                       peerStroke := m.stroke, peerVals := some vals, peerVer := ver } }
      if m.role ≠ 1#8 then s
      else
        let s := if s.hub.role = rolStarting then s.becomeStandby else s
        if s.hub.role = rolStandby ∨ s.hub.role = rolResync then
          let s := (s.modHub fun h => { h with tb := m.tb }).hearClaim m.claim
          if s.hub.ptnr.yielded && !s.anyEasy then
            s.startResync.tellLanes fun l => { l with yielded := false }
          else s
        else s

/-- A standby decides to take over; one that is not READY writes an entry and waits (R353). -/
def State.decideTakeover (s : State) (t : Nat) : State :=
  if s.hub.role ≠ rolStandby ∧ s.hub.role ≠ rolResync then s
  else if s.hub.ptnr.decided.isSome then s
  else if s.hub.on PTNR_STAT_READY && s.hub.role == rolStandby then
    s.modHub fun h => { h with ptnr := { h.ptnr with decided := some t } }
  else s.recPtnr 353 []

/-- YIELD: either reason alike (R353). -/
def State.yieldIn (s : State) (link : Nat) (frame : List Byte) (t : Nat) : State :=
  s.frameIn 0x22 link frame fun c s =>
    if c.length ≠ 9 ∨ (s.hub.role ≠ rolStandby ∧ s.hub.role ≠ rolResync) then s
    else
      let claim : Word := BitVec.ofNat 32 (beAt c 1 4)
      let s := s.modHub fun h => { h with ptnr := { h.ptnr with peerClaim := claim, peerStroke := BitVec.ofNat 32 (beAt c 5 4) } }
      (s.hearClaim claim).decideTakeover t

/-- HEARTBEAT_LOSS: three windows without a HEARTBEAT on either link. -/
def State.hbLoss (s : State) (t : Nat) : State :=
  if !s.hub.partners || decide (s.hub.ptnr.missed t < 3) then s
  else
    let s := s.modHub fun h => ((h.countMissed t).fset PTNR_STAT_UP0 0).fset PTNR_STAT_UP1 0
    s.decideTakeover t

/-- PAIR_START_TIMEOUT: two strokes after the start, a module that heard no active decides its role (R344). -/
def State.pairStart (s : State) (t : Nat) : State :=
  let p := s.hub.ptnr
  if !s.hub.partners || s.hub.role != rolStarting || decide (t < p.startT + 2 * s.hub.set.period * 1000000) then s
  else
    let own := s.hub.upd.claim.toNat
    let other := p.peerClaim.toNat
    let both := p.peerRole == 3
    if both && (decide (own < other) || (own == other && decide (p.peerSerial.toNat < s.hub.set.serial.toNat))) then s.becomeStandby
    else
      let c := (if p.peerRole = 0 then own else max own other) + 1
      if 2 ^ 32 ≤ c then s.claimEnd else s.becomeActive (BitVec.ofNat 32 c)

/-! ### Yield and takeover (R351 to R354) -/

/-- HUB_EASY_ALL_NOTICE: `FAULT_N`, and an active module yields (R178, R351). -/
def State.hubEasyNotice (s : State) (src : LaneId) : State :=
  if !s.hub.up then s
  else
    let s := s.faultPin 0 true
    if s.hub.partners && s.hub.role == rolActive then
      let c := yieldBytes 1 (s.hub.rg PTNR_CLAIM) (s.lane src).stroke
      s.hubYields.modHub fun h => h.sendFrame 0x22 c fun f p => { p with yieldOut := f }
    else s

/-- Approach locking of routes that stand cleared or held when a module takes over (R353). -/
def Lane.applyTakeover (l : Lane) : Lane :=
  (l.routes.filter fun i => l.rState i == rsCleared || l.rState i == rsHeld).foldl (fun (m : Lane) i =>
    let c := l.entryOf i
    if l.typ c = tSIGNAL then (m.putC c fAPL 1).putC c fATMR 0 else m) l

/-- TAKEOVER: at the first stroke catch at or after the decision + 1 ms, a standby that is READY takes over. -/
def State.takeover (s : State) (t : Nat) : State :=
  let p := s.hub.ptnr
  match p.decided with
  | none => s
  | some d =>
    if !s.hub.partners || s.hub.role != rolStandby || !s.hub.on PTNR_STAT_READY || decide (t < d + 1000000) ||
        t % (s.hub.set.period * 1000000) != 0 then s
    else if p.peerClaim = 0xFFFFFFFF#32 then s.claimEnd
    else
      let held := p.held
      let s := s.becomeActive (p.peerClaim + 1)
      let s := s.modHub fun h =>
        let h := (h.fsat PTNR_CNT_TAKE 1)
        let h := held.foldl Hub.intoMailboxes { h with ptnr := { h.ptnr with held := [] } }
        (upTo 6).foldl (fun (h : Hub) k => h.ringTake k t) h
      s.tellLanes (·.applyTakeover)

/-! ### Forwarded inputs (R347) -/

/-- One forwarded telegram of the stroke, as a lane of a standby takes it: checked by the lane, and listed when FWD_LIST names it. -/
def Lane.takeForwarded (list : List ConsEntry) (l : Lane) (bs : List Byte) : Lane :=
  match l.taskOf 0 with
  | none => l
  | some k =>
    if !k.active || k.decided then l
    else
      let f := Frozen.check 0 k.tn { lane := l, ok := k.frozen, rest := [] } { conn := 0, bytes := bs, t := k.tn - 1 }
      match f.ok.drop k.frozen.length with
      | [x] =>
        if list.contains x.1 then
          f.lane.modTask 0 fun k =>
            { k with frozen := f.ok, own := k.own.map fun (c : ConsFrame) => { c with entries := insertBy entryOrd x.1 c.entries } }
        else l
      | _ => f.lane

/-- The standby's lanes take the telegrams that have come for the stroke of the list. -/
def State.standbyTake (s : State) (tlgs : List (List Byte)) : State :=
  match s.hub.ptnr.fwdList with
  | none => s
  | some es =>
    s.tellLanes fun l =>
      if l.standby && (l.inVote || l.shadow) && (l.taskOf 0).any (fun k => k.tn == s.hub.ptnr.fwdTn) then
        tlgs.foldl (Lane.takeForwarded es) l
      else l

/-- A stroke begins for the forwarded inputs. -/
def PtnrInt.forStroke (p : PtnrInt) (stroke : Word) : PtnrInt :=
  if p.fwdStroke = stroke then p else { p with fwdStroke := stroke, fwdList := none, fwdTlgs := [] }

/-- FWD_LIST. -/
def State.fwdList (s : State) (link : Nat) (frame : List Byte) : State :=
  s.frameIn 0x23 link frame fun c s =>
    match fwdListOf c with
    | none => s
    | some (stroke, tn, es) =>
      if s.hub.role ≠ rolStandby then s
      else
        let p := { s.hub.ptnr.forStroke stroke with fwdList := some es, fwdTn := tn }
        (s.modHub fun h => { h with ptnr := p }).standbyTake (p.fwdTlgs.map (·.2))

/-- FWD_TLG. -/
def State.fwdTlg (s : State) (link : Nat) (frame : List Byte) : State :=
  s.frameIn 0x24 link frame fun c s =>
    if s.hub.role ≠ rolStandby ∨ c.length < 6 then s
    else
      let i := beAt c 4 2
      let bs := c.drop 6
      let p := s.hub.ptnr.forStroke (BitVec.ofNat 32 (beAt c 0 4))
      let p := { p with fwdTlgs := (p.fwdTlgs.filter fun e => e.1 != i) ++ [(i, bs)] }
      (s.modHub fun h => { h with ptnr := p }).standbyTake [bs]

/-- PARTNER_EST: a telegram of a peer-module connection, delivered in a standby too (R342, R346, R349). -/
def State.partnerEst (s : State) (link : Nat) (frame : List Byte) (t : Nat) : State :=
  s.frameIn 0x25 link frame fun bs s =>
    (s.modHub fun h =>
      match h.connOf 2 (tlgConnid bs) with
      | some k =>
        if h.carries && (h.desc k).cls == clsPeer then (h.sgwTelegram 2 k bs t).intoMailboxes { conn := k, bytes := bs, t := t }
        else h.received k bs t
      | none => h).discardUnread

/-! ### Resynchronisation pages (R364) -/

/-- PAGE: a page of context 0 goes into every lane of a standby that is not READY; one of a bad CRC is sent again, and a second failure
restarts the pass. With every page in, the standby computes. -/
def State.pageIn (s : State) (link : Nat) (frame : List Byte) : State :=
  s.frameIn 0x26 link frame fun c s =>
    let i := beAt c 0 2
    let bytes := (c.drop 2).take 4096
    if (s.hub.role ≠ rolResync ∧ s.hub.role ≠ rolStandby) ∨ s.hub.on PTNR_STAT_READY = true ∨ ptnrPages ≤ i then s
    else if c.length ≠ 4102 ∨ beAt c 4098 4 ≠ crc32c bytes then
      if s.hub.ptnr.retry.contains i then s.startResync
      else s.modHub fun h => { h with ptnr := { h.ptnr with retry := insertL i h.ptnr.retry } }
    else
      let s := s.tellLanes fun l => l.putPage i bytes
      let got := insertL i s.hub.ptnr.got
      s.modHub fun h =>
        let h := { h with ptnr := { h.ptnr with got := got, retry := removeL i h.ptnr.retry } }
        let h := h.fset PTNR_RESYNC_PAGES got.length
        if got.length = ptnrPages ∧ h.role = rolResync then
          { h.fset PTNR_STAT_ROLE rolStandby with ptnr := { h.ptnr with resync := false } }
        else h

/-! ### Image forwarding (R458) -/

/-- Forwarding frames are taken: hub firmware runs, no resynchronisation. They do not ask for a pair. -/
def State.forwards (s : State) (ty link : Nat) (frame : List Byte) (f : List Byte → State → State) : State :=
  if !s.hub.up || !s.linkOpen link then s
  else match partnerContent ty frame with
    | none => s
    | some (pseq, c) => match s.firstCopy ty link pseq with
      | some s' => f c s'
      | none => s

/-- A block for the slot being received is written under the rule of UPD_BLOCK. -/
def State.fwdWrite (s : State) (k i : Nat) (block : List Byte) : State :=
  if blockValid (s.block k i) i (s.slotBuild k) && s.block k i == block then s else s.gated (blockWrite k i block none s.now)

/-- With every block valid, a receiver that forwards verifies the slot, and an unpaired one passes it on over its other link (R458). -/
def State.fwdComplete (s : State) (link k hop : Nat) : State :=
  if s.hub.set.autoFwd && s.slotWhole k && !s.hub.upd.verified.contains k then
    let x := s.verifySlot k
    if x.1 && decide (hop < 15) && !s.hub.set.pairEn then x.2.startForward (1 - link) k (hop + 1) else x.2
  else s

/-- FWD_IMG: block 0 under the rules of UPD_BEGIN, every other under those of UPD_BLOCK. -/
def State.fwdImg (s : State) (link : Nat) (frame : List Byte) : State :=
  s.forwards 0x27 link frame fun c s =>
    let build : Dword := BitVec.ofNat 64 (beAt c 0 8)
    let hop := beAt c 8 1
    let i := beAt c 9 2
    let block := c.drop 11
    let p := s.hub.ptnr
    let set (f : PtnrInt → PtnrInt) (s : State) : State := s.modHub fun h => { h with ptnr := f h.ptnr }
    if block.length ≠ 65536 ∨ 512 ≤ i then s
    else match (if p.fwdBuild = build then p.fwdDest else none) with
      | some k =>
        if p.fwdAckStatus = 2 then s
        else (set (fun p => { p with fwdGot := insertL i p.fwdGot }) (s.fwdWrite k i block)).fwdComplete link k hop
      | none =>
        if i ≠ 0 then s
        else
          let build0 := BitVec.ofNat 64 (hdrBuild block)
          match [0, 1].find? fun k => !s.protectedSlot k with
          | some k =>
            if s.beginOk k block && build0 == build then
              set (fun p => { p with fwdDest := some k, fwdBuild := build, fwdHop := hop, fwdGot := [0], fwdAckStatus := 0 })
                (s.gated (blockWrite k 0 block none s.now))
            else set (fun p => { p with fwdDest := none, fwdBuild := build, fwdAckStatus := 2 }) s
          | none => set (fun p => { p with fwdDest := none, fwdBuild := build, fwdAckStatus := 2 }) s

/-- FWD_ACK: the sender repeats what the receiver lacks until it has verified the slot. -/
def State.fwdAck (s : State) (link : Nat) (frame : List Byte) : State :=
  s.forwards 0x28 link frame fun c s =>
    let p := s.hub.ptnr
    let build : Dword := BitVec.ofNat 64 (beAt c 0 8)
    let status := beAt c 8 1
    let bitmap := c.drop 9
    if c.length ≠ 73 ∨ p.fwdOut ≠ some link ∨ s.slotBuild p.fwdSrc ≠ build.toNat then s
    else
      let have_ := (upTo 512).filter fun i => (bitmap.getD (i / 8) 0).getLsbD (i % 8)
      let lack := (upTo (hdrNblk (s.slotHdr p.fwdSrc))).filter fun i => !have_.contains i
      s.modHub fun h =>
        { h with ptnr := { h.ptnr with fwdAcked := have_, fwdSent := if status = 1 then [] else lack,
                                       fwdOut := if status = 1 then none else h.ptnr.fwdOut } }

/-- FWD_ACK_SEND: every 100 ms while a receiver has a forwarding. -/
def State.fwdAckSend (s : State) : State :=
  let p := s.hub.ptnr
  if !s.hub.up || !s.linkOpen 0 then s
  else
    let send (st : Nat) (bm : List Byte) : State :=
      s.modHub fun h => h.sendFrame 0x28 (ackContent p.fwdBuild st bm) fun f p => { p with fwdAckStatus := st, ackOut := f }
    match p.fwdDest with
    | some k => send (if s.hub.upd.verified.contains k then 1 else 0) (bitmapBytes (s.validBlocks k))
    | none => if p.fwdAckStatus = 2 then send 2 (zeros 64) else s

/-! ### Meanings -/

/-- HUB_EASY_ALL_NOTICE (R178). -/
def execHubEasyAllNotice (src : LaneId) (t : Nat) (s : State) : Host.Outcome State Fault Refusal := done ((s.at t).hubEasyNotice src)
/-- HEARTBEAT_SEND (R342). -/
def execHeartbeatSend (t : Nat) (s : State) : Host.Outcome State Fault Refusal := done ((s.at t).hbSend t)
/-- HEARTBEAT (R343). -/
def execHeartbeat (link : Nat) (frame : List Byte) (vals : PairValues) (ver t : Nat) (s : State) : Host.Outcome State Fault Refusal :=
  done ((s.at t).heartbeat link frame vals ver t)
/-- YIELD (R353). -/
def execYieldFrame (link : Nat) (frame : List Byte) (t : Nat) (s : State) : Host.Outcome State Fault Refusal :=
  done ((s.at t).yieldIn link frame t)
/-- FWD_LIST (R347). -/
def execFwdList (link : Nat) (frame : List Byte) (t : Nat) (s : State) : Host.Outcome State Fault Refusal := done ((s.at t).fwdList link frame)
/-- FWD_TLG (R347). -/
def execFwdTlg (link : Nat) (frame : List Byte) (t : Nat) (s : State) : Host.Outcome State Fault Refusal := done ((s.at t).fwdTlg link frame)
/-- PARTNER_EST (R342). -/
def execPartnerEst (link : Nat) (frame : List Byte) (t : Nat) (s : State) : Host.Outcome State Fault Refusal :=
  done ((s.at t).partnerEst link frame t)
/-- PAGE (R364). -/
def execPage (link : Nat) (frame : List Byte) (s : State) : Host.Outcome State Fault Refusal := done (s.pageIn link frame)
/-- FWD_IMG (R458). -/
def execFwdImg (link : Nat) (frame : List Byte) (s : State) : Host.Outcome State Fault Refusal := done (s.fwdImg link frame)
/-- FWD_ACK (R458). -/
def execFwdAck (link : Nat) (frame : List Byte) (s : State) : Host.Outcome State Fault Refusal := done (s.fwdAck link frame)
/-- FWD_ACK_SEND (R458). -/
def execFwdAckSend (t : Nat) (s : State) : Host.Outcome State Fault Refusal := done ((s.at t).fwdAckSend)
/-- PAIR_START_TIMEOUT (R344). -/
def execPairStartTimeout (t : Nat) (s : State) : Host.Outcome State Fault Refusal := done ((s.at t).pairStart t)
/-- HEARTBEAT_LOSS (R353). -/
def execHeartbeatLoss (t : Nat) (s : State) : Host.Outcome State Fault Refusal := done ((s.at t).hbLoss t)
/-- TAKEOVER (R353). -/
def execTakeover (t : Nat) (s : State) : Host.Outcome State Fault Refusal := done ((s.at t).takeover t)
/-- PTNR_CNT_CLEAR (R6). -/
def execPtnrCntClear (_v : Word) (s : State) : Host.Outcome State Fault Refusal := done (s.upHub (·.setRg PTNR_CNT 0))

end Sys2Proof.Machine
end

