-- ==== Sys2Proof/Machine/Tmr.lean ====
section
/-! DEFINITION. The timebase follower, start-up and pairing, and the small commands of the TMR block (R34 to R50, R73, R74, R177, R178,
R199, R200). -/

namespace Sys2Proof.Machine

/-! ### The follower (R34 to R38) -/

/-- Whether a tick frame passes: CRC, and value within ±2 µs of the follower's own (R34). -/
def tickOk (own : Nat) (v : Dword) (crc : Half) : Bool :=
  crc.toNat == crc16 (beBytes 8 v.toNat) && decide (v.toNat ≤ own + 2000) && decide (own ≤ v.toNat + 2000)

/-- TICK_FRAME. In holdover ticks are only counted toward its end (R38). -/
def Lane.tick (l : Lane) (own : Nat) (frame : Option (Dword × Half)) : Lane :=
  let crcBad := match frame with | some (v, c) => c.toNat != crc16 (beBytes 8 v.toNat) | none => false
  let ok := match frame with | some (v, c) => tickOk own v c | none => false
  let l := if crcBad then l.fset TMR_STAT_TICK_CRC_ERR 1 else l
  let l := { l with fol := { l.fol with time := max l.fol.time own } }
  let l := match frame with
    | some (v, _) => if crcBad then l else { l with fol := { l.fol with off := (own : Int) - v.toNat } }
    | none => l
  if ok then
    let time := match frame with | some (v, _) => max l.fol.time v.toNat | none => l.fol.time
    if l.on TMR_STAT_HOLDOVER then { l with fol := { l.fol with goodRun := satInc 100 l.fol.goodRun } }
    else { l with fol := { l.fol with time := time, missRun := 0, off := 0 } }
  else { l with fol := { l.fol with missRun := satInc 100 l.fol.missRun, goodRun := 0, missWin := satInc 255 l.fol.missWin } }

/-- A RATE failure: the lane leaves at its next vote instant; a surviving lane of easy all stops signing at once (R35, R180). -/
def State.rateFails (s : State) (l : LaneId) : State :=
  let s := s.modLane l fun x => { x.fset TMR_STAT_RATE_ERR 1 with fol := { x.fol with ratePass := 0 } }
  if (s.lane l).easy then s.leave l leaveRate 0 0 s.now causeSwr
  else s.modLane l fun x => { x with due := x.due ++ [(leaveRate, none)] }

/-- RATE_CHECK_WINDOW: the window's counts are shown, and checked outside holdover (R35, R37). -/
def State.rateWindow (s : State) (l : LaneId) (n : Nat) : State :=
  let s := s.modLane l fun x =>
    { (x.fset TMR_TICK_XCOUNT (min 65535 n)).fset TMR_TICK_MISS x.fol.missWin with fol := { x.fol with missWin := 0 } }
  if (s.lane l).on TMR_STAT_HOLDOVER then s
  else if 24875 ≤ n ∧ n ≤ 25125 then s.modLane l fun x => { x with fol := { x.fol with ratePass := satInc 10 x.fol.ratePass } }
  else s.rateFails l

/-- HOLDOVER_ENTRY: the offset from the reference at the entry is what later growth counts against (R36). -/
def Lane.holdEntry (l : Lane) (off : Int) : Lane :=
  if l.on TMR_STAT_HOLDOVER || decide (l.fol.missRun < 100) then l
  else
    { l.fset TMR_STAT_HOLDOVER 1 with
      fol := { l.fol with holdStart := l.fol.time, holdOff := off, slewT := l.fol.time, goodRun := 0, peerOff := [] } }

/-- The middle of three offsets, the mean of two, the one of one (R36). -/
def holdMiddle : List Int → Int
  | [p] => p
  | [p, q] => (p + q) / 2
  | [p, q, r] => max (min p q) (min r (max p q))
  | _ => 0

/-- A lane's offset from the median of the in-vote lanes' follower times, or their mean for two (R36). -/
def State.holdOffset (s : State) (l : LaneId) : Int := (s.lane l).fol.off - holdMiddle (s.voters.map fun y => (s.lane y).fol.off)

/-- HOLDOVER_EXIT. -/
def Lane.holdExit (l : Lane) : Lane :=
  if l.on TMR_STAT_HOLDOVER && decide (100 ≤ l.fol.goodRun) then
    { l.fset TMR_STAT_HOLDOVER 0 with fol := { l.fol with missRun := 0, goodRun := 0, peerOff := [] } }
  else l

/-! ### Arming and pairing (R45 to R49) -/

/-- ARM: hardware refuses it without the injection test, split-core lanes apart; a lane with another check open does not arm. Bench mode is
fixed, and recorded, at arming (R199, R200). -/
def State.arm (s : State) (l : LaneId) : State :=
  let x := s.lane l
  if x.rst.held || !x.unarmed then s
  else if !s.split && !x.injPassed then s.setLane l (x.fset TMR_STAT_ARM_REFUSED 1)
  else if !x.checksBut then s
  else
    let bench := x.on LCTL_STAT_STRAP && x.on LCTL_STAT_AUTH
    let x := (x.fset TMR_STAT_ARMED 1).fset LCTL_STAT_BENCH (b2n bench)
    (s.setLane l (x.note 0 2 200 [(1, b2n bench)])).flushNotes l

/-- The first catch of pairing or START at `t`: the first multiple of P at least 10 ms later; a first catch already set by a lane of the pair
holds for all (R46, R48). -/
def State.firstCatchAt (s : State) (x : Lane) (t : Nat) : Nat :=
  match x.start.paired.findSome? fun y => (s.lane y).start.firstCatch with
  | some f => f
  | none => ceilMult x.period (t + 10000000)

/-- PAIRING: armed lanes with all values equal pair; differing values are recorded (R46, R47, R210, R455). -/
def State.pair (s : State) (dst src : LaneId) (v : PairValues) (t : Nat) : State :=
  let x := s.lane dst
  if x.rst.held || !x.armed || !x.sitReady || !s.modSitReady || dst == src || !(x.linkUp (x.linkTo src)) || x.start.firstCatch.any (fun f => decide (f ≤ t)) then s
  else
    let ps := (src, v) :: x.start.peers.filter fun e => e.1 != src
    let x := { x with start := { x.start with peers := ps } }
    if v = x.pairValues then
      let x := { x with start := { x.start with paired := insertL src (insertL dst x.start.paired) } }
      if x.set.autoStart && x.start.firstCatch.isNone then
        s.setLane dst { x with start := { x.start with firstCatch := some (s.firstCatchAt x t) } }
      else s.setLane dst x
    else (s.setLane dst (x.note 0 2 47 [(1, src.code)])).flushNotes dst

/-- START_TIMEOUT: 30 s after reset release with fewer than two lanes paired (R49). -/
def State.startTimeout (s : State) (t : Nat) : State :=
  let due (l : LaneId) : Bool := (s.lane l).up && (s.lane l).sitReady && decide ((s.lane l).start.release + 30000000000 ≤ t)
  if (allLanes.any fun l => (s.lane l).up && decide (2 ≤ (s.lane l).start.paired.length)) || !s.modSitReady then s
  else (allLanes.filter due).foldl (fun (s : State) l => s.enterEasy l easyStartTimeout false) s

/-- Paired lanes that wait for the start command leave sit ready at the catch it sets (R48). -/
def State.startLanes (s : State) (t : Nat) : State :=
  allLanes.foldl (fun (s : State) l =>
    let x := s.lane l
    if x.up && x.sitReady && x.armed && decide (2 ≤ x.start.paired.length) && x.start.firstCatch.isNone then
      s.setLane l { x with start := { x.start with firstCatch := some (s.firstCatchAt x t) } }
    else s) s

/-! ### Registers (R73, R74) -/

/-- TMR_STROKE_WRITE: in sit ready and not armed, both limits judged on the written values (R40, R74). -/
def Lane.strokeWrite (l : Lane) (v : Word) : Lane :=
  let p := bvField v 0 10
  let d := bvField v 16 12
  if !l.unarmed then l
  else if 10 ≤ p ∧ p ≤ 1000 ∧ 10 ≤ d ∧ d ≤ 4 * p then (l.fset TMR_STROKE_PERIOD p).fset TMR_STROKE_CDL d
  else l.fset TMR_STAT_CFG_ERR 1

/-! ### Meanings -/

/-- TICK_FRAME (R34). -/
def execTickFrame (l : LaneId) (own : Nat) (frame : Option (Dword × Half)) (s : State) : Host.Outcome State Fault Refusal :=
  done ((s.at own).upLane l (·.tick own frame))
/-- RATE_CHECK_WINDOW (R35). -/
def execRateCheckWindow (l : LaneId) (xcount : Nat) (s : State) : Host.Outcome State Fault Refusal :=
  done (if (s.lane l).rst.held then s else s.rateWindow l xcount)
/-- HOLDOVER_ENTRY (R36). -/
def execHoldoverEntry (l : LaneId) (s : State) : Host.Outcome State Fault Refusal := done (s.upLane l (·.holdEntry (s.holdOffset l)))
/-- HOLDOVER_EXIT (R38). -/
def execHoldoverExit (l : LaneId) (s : State) : Host.Outcome State Fault Refusal := done (s.upLane l Lane.holdExit)
/-- The timebase as the lanes publish it in their mailboxes: the latest (R38). -/
def Hub.published (h : Hub) : Nat := max h.mbxA.pubTime (max h.mbxB.pubTime h.mbxC.pubTime)

/-- TIMEBASE_RESTART (R38): hub firmware loads the counter from the published time and the time passed since; ticks need XT (R487). -/
def execTimebaseRestart (since : Nat) (s : State) : Host.Outcome State Fault Refusal :=
  let t := s.hub.published + since
  done (if s.hub.up && !s.hub.upd.loader && !s.hub.ticks && s.hub.on CLKC_HSTAT_XT_OK then (s.at t).modHub fun h => { h with tb := t, ticks := true } else s)
/-- IDLE_EXIT (R43). -/
def execIdleExit (l : LaneId) (t : Nat) (s : State) : Host.Outcome State Fault Refusal :=
  done ((s.laneAt l t).upLane l fun x => { x with idle := false })
/-- ARM (R45). -/
def execArm (l : LaneId) (s : State) : Host.Outcome State Fault Refusal := done (s.arm l)
/-- CMAX_CLR (R73). -/
def execCmaxClr (l : LaneId) (s : State) : Host.Outcome State Fault Refusal := done (s.upLane l (·.setRg TMR_CMAX 0))
/-- TMR_STROKE_WRITE (R74). -/
def execTmrStrokeWrite (l : LaneId) (v : Word) (s : State) : Host.Outcome State Fault Refusal := done (s.upLane l (·.strokeWrite v))
/-- PAIRING (R46). -/
def execPairing (dst src : LaneId) (v : PairValues) (t : Nat) (s : State) : Host.Outcome State Fault Refusal :=
  done ((s.laneAt dst t).pair dst src v t)
/-- START_TIMEOUT (R49). -/
def execStartTimeout (t : Nat) (s : State) : Host.Outcome State Fault Refusal := done ((s.at t).startTimeout t)
/-- EASY_ALL_NOTICE (R178): entered at once, with the cause the notice carries. -/
def execEasyAllNotice (dst src : LaneId) (cause : Byte) (s : State) : Host.Outcome State Fault Refusal :=
  done (if dst = src then s else s.enterEasy dst cause.toNat true)

end Sys2Proof.Machine
end

