-- ==== Sys2Proof/Machine/ClockReset.lean ====
section
/-! DEFINITION. Clock monitoring and failures, the reset ball, trim loads, and the status balls (R481, R485 to R488, R491, R496 to R499). -/

namespace Sys2Proof.Machine

/-! ### Clock failures -/

/-- A count window of a lane crystal or XH is good: 461 to 563 (R485). -/
def xtalGood (cnt : Nat) : Bool := decide (461 ≤ cnt) && decide (cnt ≤ 563)
/-- A count window of XT is good: 369 to 451. -/
def xtGood (cnt : Nat) : Bool := decide (369 ≤ cnt) && decide (cnt ≤ 451)

/-- A lane's crystal, or its main PLL, fails (R486): the clock tree on the RC, the leave with reason CLOCK, a warm reset with `CLKF` 10 µs
after, held until the crystal has passed two windows. A reset already due takes the cause as well (R493). -/
def State.laneClockFail (s : State) (l : LaneId) (pll : Bool) : State :=
  let x := s.lane l
  let hold (x : Lane) : Lane := { x with rst := { x.rst with clkHold := true, goodWin := 0 } }
  if x.rst.held then s.modLane l hold
  else
    let s := s.modLane l fun x =>
      let x := ((x.fset (if pll then CLKC_STAT_UNLOCK else CLKC_STAT_XFAIL) 1).fset CLKC_STAT_ONRC 1).fset CLKC_STAT_LOCK 0
      hold (if pll then x else x.fset CLKC_STAT_XOK 0)
    match x.rst.due with
    | some _ => s.modLane l fun x => x.setRg RST_CAUSE (x.rg RST_CAUSE ||| causeWord [causeClkf])
    | none =>
      (s.leaveAtOnce l leaveClock causeClkf).modLane l fun x =>
        { x with rst := { x.rst with due := some (false, causeClkf, s.now + tenMicros) } }

/-- XH or the hub's main PLL fails: a warm hub reset with `CLKF` (R487), held until XH has passed two windows (R495). -/
def State.hubClockFail (s : State) : State :=
  let s := if s.hub.rst.held then s else (s.modHub (·.fset CLKC_HSTAT_XH_FAIL 1)).assertHub false [causeClkf]
  s.modHub fun h => { h with rst := { h.rst with clkHold := true, goodWin := 0 } }

/-- XT, or its SerDes PLL, fails: ticks and transmitters stop, nothing is reset (R487). -/
def Hub.xtFail (h : Hub) (pll : Bool) (t : Nat) : Hub :=
  let h := { h with ticks := false, rst := { h.rst with badXt := 2, xtT := t } }
  if h.rst.held then h
  else (h.fset CLKC_HSTAT_XT_FAIL 1).fset (if pll then CLKC_HSTAT_SDLOCK else CLKC_HSTAT_XT_OK) 0

/-- A window of a lane crystal: the count is shown; two good windows in a row end a hold, two bad ones are a failure (R485, R486). -/
def State.laneWindow (s : State) (l : LaneId) (cnt : Nat) : State :=
  let good := xtalGood cnt
  let s := s.modLane l fun x =>
    let g := if good then satInc 2 x.rst.goodWin else 0
    let b := if good then 0 else satInc 2 x.rst.badWin
    let x := { x.fset CLKC_STAT_XCNT (min 1023 cnt) with
               rst := { x.rst with goodWin := g, badWin := b, clkHold := x.rst.clkHold && decide (g < 2) } }
    if g = 2 then x.fset CLKC_STAT_XOK 1 else x
  if (s.lane l).rst.badWin = 2 then s.laneClockFail l false else s

/-- A window of XH and XT. -/
def State.hubWindow (s : State) (cnt xt : Nat) : State :=
  let good := xtalGood cnt
  let goodT := xtGood xt
  let s := s.modHub fun h =>
    let r := { h.rst with goodWin := if good then satInc 2 h.rst.goodWin else 0, badWin := if good then 0 else satInc 2 h.rst.badWin,
                          badXt := if goodT then 0 else satInc 2 h.rst.badXt, xtT := if goodT then h.rst.xtT else s.now }
    let r := { r with clkHold := r.clkHold && decide (r.goodWin < 2) }
    let h := { h with rst := r }
    if good && r.goodWin == 2 then h.fset CLKC_HSTAT_XH_OK 1 else h
  let s := if s.hub.rst.badXt = 2 then s.modHub (·.xtFail false s.now) else s
  if s.hub.rst.badWin = 2 then s.hubClockFail else s

/-- A reference stops, or a PLL loses lock: `xt` is XT and its SerDes PLL in the hub, the cross-lane SerDes PLL in a lane (R485, R496). -/
def State.clockLost (s : State) (m : Master) (xt pll : Bool) : State :=
  match m with
  | .lane l =>
    if xt then (if pll then s.linksAfter (s.upLane l fun x => (x.takeLinkDown 0).takeLinkDown 1) else s) else s.laneClockFail l pll
  | .hub => if xt then s.modHub (·.xtFail pll s.now) else s.hubClockFail
  | .host => s

/-- XT_RECOVERY: once XT has passed its count check for 10 ms, the timebase is loaded, ticks resume, the rings restart (R487). -/
def Hub.xtRecover (h : Hub) (t : Nat) : Hub :=
  if h.up && !h.upd.loader && !h.ticks && h.rst.badXt == 0 && decide (h.rst.xtT + 10000000 ≤ t) then
    let h := { (h.fset CLKC_HSTAT_XT_OK 1).fset CLKC_HSTAT_SDLOCK 1 with ticks := true, tb := t }
    h.ringsRestart t
  else h

/-- RTC time in s: it stands still once its clock has failed (R488). -/
def State.rtcNow (s : State) : Nat := if s.aon.rtcOk then s.aon.rtc + (s.now - s.aon.rtcAt) / 1000000000 else s.aon.rtc

/-- AON_CLOCK_FAIL: the RTC stops; a recorder entry (R488). -/
def State.aonClockFail (s : State) : State :=
  let s := { s with aon := { s.aon with rtc := s.rtcNow, rtcAt := s.now, rtcOk := false } }
  (s.modHub fun h => (h.fset CLKC_HSTAT_AON_FAIL 1).fset CLKC_HSTAT_AON_OK 0).recHub 9 0x0A 488 []

/-! ### The reset ball (R491) -/

/-- RESET_N_ASSERT: a module reset at once; it ends the state of a failed wake (R516). -/
def State.resetNAssert (s : State) (t : Nat) : State :=
  if s.aon.resetNLow.isSome then s
  else
    let s := { s.assertModule false [causePin] with aon := { s.aon with resetNLow := some t } }
    if s.aon.pwr = .failed then ({ s with aon := { s.aon with pwr := .run } }).faultPin 3 false else s

/-- RESET_N_RELEASE: low for 100 ms or more makes the reset cold. -/
def State.resetNRelease (s : State) (t : Nat) : State :=
  match s.aon.resetNLow with
  | none => s
  | some t0 =>
    let s := { s with aon := { s.aon with resetNLow := none } }
    if t0 + 100000000 ≤ t then s.assertModule true [causePin] else s

/-! ### Trim (R497, R498) -/

/-- Bit of a die in `RSTC_TRIM`. -/
def trimBit (d : Die) : Nat := match d with | .lane l => l.idx | .field => 3 | .hub => 4

/-- A trim load ends in a reset controller. -/
def RstInt.trim (r : RstInt) (ok : Bool) : RstInt :=
  if ok then { r with trimOk := true }
  else { r with trimFails := satInc 3 r.trimFails, trimFail := decide (2 ≤ r.trimFails) }

/-- A trim load may end: the die is in reset, its trim not valid, and it is not in TRIMFAIL. -/
def RstInt.loading (r : RstInt) : Bool := r.held && !r.trimOk && !r.trimFail

/-- The third failure: the die's bit, and `FAULT_N` for the hub (R498). -/
def State.trimFailed (s : State) (d : Die) : State :=
  let s := s.modHub fun h => h.fset RSTC_TRIM_TRIMFAIL (setField (h.fget RSTC_TRIM_TRIMFAIL) (trimBit d) 1 1)
  match d with | .hub => s.faultPin 1 true | _ => s

/-- TRIM_LOAD_DONE. -/
def State.trimDone (s : State) (d : Die) (ok : Bool) : State :=
  match d with
  | .lane l =>
    if !(s.lane l).rst.loading then s
    else
      let s := s.modLane l fun x =>
        let r := x.rst.trim ok
        { (x.fset RSTC_STAT_TRIMOK (b2n ok)).fset RSTC_STAT_TRIMERR r.trimFails with rst := r }
      if (s.lane l).rst.trimFail then s.trimFailed d else s
  | .hub =>
    if !s.hub.rst.loading then s
    else
      let s := s.modHub fun x =>
        let r := x.rst.trim ok
        { (x.fset HRSTC_STAT_TRIMOK (b2n ok)).fset HRSTC_STAT_TRIMERR r.trimFails with rst := r }
      if s.hub.rst.trimFail then s.trimFailed d else s
  | .field =>
    if !s.fieldRst.loading then s
    else
      let s := { s with fieldRst := s.fieldRst.trim ok }
      if s.fieldRst.trimFail then s.trimFailed d else s

/-! ### Status balls (R499) -/

/-- `STAT[2:0]` while AON is powered. -/
def State.statBalls (s : State) : Nat :=
  let fails := s.hub.rst.trimFail || s.fieldRst.trimFail || allLanes.any fun l => (s.lane l).rst.trimFail
  let hib := match s.aon.pwr with | .hibernate => true | .entry _ => true | .failed => true | _ => false
  if fails then 7
  else if hib then 5
  else if s.hub.upd.loader then 6
  else if s.anyEasy then 4
  else if s.voters.length = 3 then 2
  else if s.voters.length = 2 then 3
  else 1

/-! ### Meanings -/

/-- CLOCK_MONITOR_WINDOW (R485). -/
def execClockMonitorWindow (m : Master) (cnt xt t : Nat) (s : State) : Host.Outcome State Fault Refusal :=
  done (match m with
    | .lane l => (s.at t).laneWindow l cnt
    | .hub => (s.at t).hubWindow cnt xt
    | .host => s.at t)
/-- CRYSTAL_STOP (R485). -/
def execCrystalStop (m : Master) (xt : Bool) (t : Nat) (s : State) : Host.Outcome State Fault Refusal := done ((s.at t).clockLost m xt false)
/-- PLL_UNLOCK (R496): within 1,024 reference cycles after release as later, the reset is the one of a clock failure. -/
def execPllUnlock (m : Master) (sd _early : Bool) (t : Nat) (s : State) : Host.Outcome State Fault Refusal :=
  done ((s.at t).clockLost m sd true)
/-- XT_RECOVERY (R487): hub firmware loads the counter from the published time and the time passed since, as in R38. -/
def execXtRecovery (since : Nat) (s : State) : Host.Outcome State Fault Refusal :=
  let t := s.hub.published + since
  done ((s.at t).modHub (·.xtRecover t))
/-- AON_CLOCK_FAIL (R488). -/
def execAonClockFail (s : State) : Host.Outcome State Fault Refusal := done s.aonClockFail
/-- RESET_N_ASSERT (R491). -/
def execResetNAssert (t : Nat) (s : State) : Host.Outcome State Fault Refusal := done ((s.at t).resetNAssert t)
/-- RESET_N_RELEASE (R491). -/
def execResetNRelease (t : Nat) (s : State) : Host.Outcome State Fault Refusal := done ((s.at t).resetNRelease t)
/-- TRIM_LOAD_DONE (R497). -/
def execTrimLoadDone (d : Die) (ok : Bool) (s : State) : Host.Outcome State Fault Refusal := done (s.trimDone d ok)

end Sys2Proof.Machine
end

