-- ==== Sys2Proof/Machine/Power.lean ====
section
/-! DEFINITION. Power states, regulator requests, supply supervisors and self-test results (R504 to R523, R541). -/

namespace Sys2Proof.Machine

/-- Block index of the hub's PWRC. -/
def blkPwrc : Nat := 10

/-! ### Supply supervisors (R509, R510) -/

/-- The in-window bit of a supervised lane rail: 0 core, 1 `VDDIO`, 2 `VDDA_PLL`. -/
def supBit (rail : Nat) : Fld := if rail = 0 then PWRC_STAT_SUP_LX else if rail = 1 then PWRC_STAT_SUP_IO else PWRC_STAT_SUP_PLL

/-- A lane rail leaves its window: the lane leaves with reason SUPPLY, its reset is held until the rails have settled. In a lane held already the
time of R510 runs afresh. -/
def State.laneSupply (s : State) (l : LaneId) (rail : Nat) : State :=
  if (s.lane l).rst.held then s.modLane l fun x => { x with rst := { x.rst with supT := s.now } }
  else
    let s := s.modLane l fun x => { x.fset (supBit rail) 0 with rst := { x.rst with supT := s.now } }
    let voter := (s.lane l).inVote && !(s.lane l).easy
    let s := s.leaveAtOnce l leaveSupply causeSwr
    if voter then s.modLane l fun x => { x with rst := { x.rst with supHold := true } } else s

/-- A hub rail leaves its window: a warm reset with `SUPRST`, or `FAULT_N` for `VDDIO`. -/
def State.hubSupply (s : State) (rail : Nat) : State :=
  if s.hub.rst.held then s
  else if rail = 1 then (s.recHub blkPwrc 0x0A 509 []).faultPin 2 true
  else (s.assertHub false [causeSwr]).modHub (·.fset PWRC_HSTAT_SUPRST 1)

/-- SUPPLY_SETTLED: the rails have been in their windows for 100 µs. -/
def Lane.supplySettled (l : Lane) (t : Nat) : Lane :=
  if t < l.rst.supT + 100000 then l
  else
  let l := ((l.fset PWRC_STAT_SUP_LX 1).fset PWRC_STAT_SUP_IO 1).fset PWRC_STAT_SUP_PLL 1
  { l with rst := { l.rst with supHold := false } }

/-! ### Regulator requests (R507, R508, R516) -/

/-- PWRC_VSET_WRITE: in sit ready before arming, 800 to 950 mV in steps of 5; any other write is ignored. -/
def Lane.vsetWrite (l : Lane) (v : Word) : Lane :=
  let mv := bvField v 0 10
  if l.unarmed && decide (800 ≤ mv) && decide (mv ≤ 950) && mv % 5 == 0 then l.fset PWRC_VSET_MV mv else l

/-- The PWRC of master `i` (0 to 2 lanes, 3 hub) sends commands to its regulator. -/
def RstInt.send (r : RstInt) (set : Settings) (i : Nat) (cs : List PmbCmd) : RstInt := { r with pmbOut := some (set.pmbAddr.getD i 0, cs) }
/-- VOUT_COMMAND for `mv` with the exponent of master `i`. -/
def Settings.vout (set : Settings) (i mv : Nat) : PmbCmd := .vout mv (set.pmbVexp.getD i (-12))

/-- PMBUS_REQUEST by a lane's PWRC for the set voltage: of a rail that has just been switched on the faults are cleared first and the operation
is set last; a rail that runs is only given its new voltage (R507, R508). -/
def Lane.pmbRequest (l : Lane) (t : Nat) : Lane :=
  let v := l.set.vout l.id.idx (l.fget PWRC_VSET_MV)
  let cs := if l.on PWRC_STAT_ACK then [v] else [.clearFaults, v, .operation 0x80]
  let l := (l.fset PWRC_STAT_BUSY 1).fset PWRC_STAT_ACK 0
  { l with rst := { (l.rst.send l.set l.id.idx cs) with pmbT := t + 1, vTarget := l.fget PWRC_VSET_MV } }

/-- PMBUS_REQUEST by the hub's PWRC for `VDD_SD`, 0.90 V. -/
def Hub.pmbRequest (h : Hub) (t : Nat) : Hub :=
  { h with rst := { (h.rst.send h.set 3 [.clearFaults, h.set.vout 3 900, .operation 0x80]) with pmbT := t + 1 } }

/-- Power good and a clean STATUS_WORD: bits 15, 11 and 6 are 0. -/
def pmbClean (pg : Bool) (sw : Half) : Bool := pg && !sw.getLsbD 15 && !sw.getLsbD 11 && !sw.getLsbD 6

/-- A request runs and its 5 ms have not passed. -/
def RstInt.pmbOpen (r : RstInt) (t : Nat) : Bool := r.pmbT != 0 && decide (t + 1 ≤ r.pmbT + 5000000)

/-- PMBUS_ACK in a lane: the supervisor's window moves to the new target (R508); a transaction with a PEC error is counted and tells nothing. -/
def Lane.pmbAck (l : Lane) (pg : Bool) (sw : Half) (pec : Bool) (t : Nat) : Lane :=
  let l := (l.fset PWRC_STAT_PG (b2n pg)).fsat PWRC_STAT_PECERR (b2n pec)
  if !pec && pmbClean pg sw && l.rst.pmbOpen t then
    let l := (l.fset PWRC_STAT_ACK 1).fset PWRC_STAT_BUSY 0
    { l with rst := { l.rst with pmbT := 0, vPrev := l.rst.vTarget } }
  else l

/-- PMBUS_ACK in the hub, for `VDD_SD`. -/
def Hub.pmbAck (h : Hub) (pg : Bool) (sw : Half) (pec : Bool) (t : Nat) : Hub :=
  let h := h.fset PWRC_HSTAT_PGSD (b2n pg)
  if !pec && pmbClean pg sw && h.rst.pmbOpen t then { h with rst := { h.rst with pmbT := 0 } } else h

/-- Code of a rail in `FAILRAIL`. -/
def failRail (m : Master) : Nat := match m with | .lane l => l.idx + 1 | _ => 4

/-- All enables AON drives are lowered. -/
def AonInt.disable (a : AonInt) : AonInt := { a with enLA := false, enLB := false, enLC := false, enSD := false }

/-- Hub logic is power-gated: the content of a cold reset, the retained banks apart. No cause is added (R514). -/
def State.gateHub (s : State) : State := s.assertHub true []

/-- A lane loses its rail: it comes back through its power-on reset. -/
def State.lanesOff (s : State) : State := allLanes.foldl (fun (s : State) l => s.modLane l (·.powerReset s.now)) s

/-- The recorder takes every submission that waits. -/
def Hub.recordAll (h : Hub) : Hub := (upTo h.rcd.queue.length).foldl (fun (h : Hub) _ => h.recordNext) h

/-- The wake has failed: the entry is written before the hub loses its power (R516). -/
def State.wakeFailed (s : State) : State :=
  let s := (s.recHub blkPwrc 0x0A 516 []).modHub (·.recordAll)
  let s := s.lanesOff
  let s := { s with aon := { s.aon.disable with pwr := .failed } }
  (s.gateHub.modHub (·.fset PWRC_HSTAT_WAKEFAIL 1)).faultPin 3 true

/-- The module wakes. -/
def State.waking (s : State) : Bool := match s.aon.pwr with | .wake _ => true | _ => false

/-- The settings a master's PWRC goes by. -/
def State.pmbSet (s : State) (m : Master) : Settings := match m with | .lane l => (s.lane l).set | _ => s.hub.set

/-- A retry at wake: CLEAR_FAULTS, the enable low for 1 ms, then a new window of 5 ms; after three retries the wake fails (R516). -/
def State.wakeRetry (s : State) (m : Master) (r : RstInt) (t : Nat) (put : State → RstInt → State) : State :=
  let s := s.modHub (·.fset PWRC_HSTAT_FAILRAIL (failRail m))
  if 3 ≤ r.pmbRetry then s.wakeFailed
  else (put s { (r.send (s.pmbSet m) (failRail m - 1) [.clearFaults]) with pmbRetry := r.pmbRetry + 1, pmbT := t + 1000001 }).modHub (·.fsat PWRC_HSTAT_RETRY 1)

/-- PMBUS_ACK_TIMEOUT: at wake a retry; else `PMB_ERR`, and the previous voltage is asked for again (R507, R508, R516). -/
def State.pmbTimeout (s : State) (m : Master) (t : Nat) : State :=
  match m with
  | .lane l =>
    let r := (s.lane l).rst
    if r.pmbT = 0 ∨ t + 1 < r.pmbT + 5000000 then s
    else
      let s := s.modLane l (·.fset PWRC_STAT_PMB_ERR 1)
      if s.waking then s.wakeRetry m r t fun s r => s.modLane l fun x => { x with rst := r }
      else s.modLane l fun x => 
        { x.fset PWRC_STAT_BUSY 0 with rst := { (x.rst.send x.set l.idx [x.set.vout l.idx x.rst.vPrev]) with pmbT := 0, vTarget := x.rst.vPrev } }
  | .hub =>
    let r := s.hub.rst
    if r.pmbT = 0 ∨ t + 1 < r.pmbT + 5000000 then s
    else if s.waking then s.wakeRetry m r t fun s r => s.modHub fun h => { h with rst := r }
    else s.modHub fun h => { h.fset PWRC_HSTAT_FAILRAIL 4 with rst := { h.rst with pmbT := 0 } }
  | .host => s

/-! ### HIBERNATE (R512 to R517) -/

/-- Step 1 of the entry: the mask is latched, each lane gets a hub message (its value is the firmware's: a free value), stops its tasks
and sends OPERATION 0x00; the RTC wake is set, and the shutdown BIST of mask bit 7 begins (R513, R518). -/
def State.enterHibernate (s : State) (mask : Byte) (t : Nat) : State :=
  let s := s.modHub fun h => (h.fset PWRC_WAKE_MASK (bvField mask 0 4)).fset PWRC_WAKE_BIST (bvField mask 7 1)
  let s := allLanes.foldl (fun (s : State) l =>
    let d := s.draw
    d.2.upLane l fun x =>
      let x := (x.hubMessage d.1).stopDyn
      { x with rst := x.rst.send x.set l.idx [.operation 0x00], tasks := x.tasks.map TaskRun.ended, ctxs := List.replicate 8 ctxReset }) s
  let tests := mask.getLsbD 7
  { s with aon := { s.aon with pwr := .entry 1, entryT := t, bistLanes := if tests then allLanes.filter (fun l => !(s.lane l).rst.held) else [],
                               bistHub := tests, bistBad := 0, wakeLatched := 0, rtcAlarm := s.rtcNow + s.hub.set.hibRtc } }

/-- HIBERNATE: only while no lane is in the vote; a mask without a wake source is no mask (R512). -/
def State.hibernate (s : State) (r : CmdRef) (mask : Byte) (t : Nat) : State :=
  s.hCmd r 0x0A03 fun s =>
    if !s.voters.isEmpty then s.endWith r stNotPermitted 0
    else if bvField mask 0 4 = 0 then s.endWith r stBadParam 0
    else (s.enterHibernate mask t).endWith r stOk 0

/-- A wake sequence starts: the source is latched, the hub powers up into a cold reset (R514). -/
def State.startWake (s : State) (src : BitVec 4) (t : Nat) : State :=
  let s := s.modHub fun h => { h.fset PWRC_WAKE_SRC src.toNat with rst := { h.rst with t := t, pmbRetry := 0 } }
  let s := allLanes.foldl (fun (s : State) l => s.modLane l fun x => { x with rst := { x.rst with pmbRetry := 0 } }) s
  { s with aon := { s.aon with pwr := .wake 0, entryT := t, wakeLatched := 0 } }

/-- The sources that count: those of the mask; the RTC's only once `HIB_RTC_S` have passed since the entry, and with its clock running (R488,
R512). -/
def State.wakeSrc (s : State) (src : BitVec 4) : BitVec 4 :=
  let m := src &&& BitVec.ofNat 4 (s.hub.fget PWRC_WAKE_MASK)
  if s.aon.rtcOk && decide (s.aon.rtcAlarm ≤ s.rtcNow) then m else m &&& 0b1101

/-- WAKE_EVENT: a source without its mask bit is ignored, one during entry is latched, one in HIBERNATE or after a failed wake starts a wake
(R514 to R516). -/
def State.wakeEvent (s : State) (src : BitVec 4) (t : Nat) : State :=
  let m := s.wakeSrc src
  if m = 0 then s
  else
    match s.aon.pwr with
    | .entry _ => { s with aon := { s.aon with wakeLatched := s.aon.wakeLatched ||| m } }
    | .hibernate => s.startWake m t
    | .failed => s.startWake m t
    | _ => s

/-- Rings, partner links and Ethernet stop; their transmitters are idle (R513). -/
def Hub.stopPorts (h : Hub) : Hub :=
  let h := { h with ticks := false, portsOff := true, rings := List.replicate 6 ringReset }
  (upTo 6).foldl (fun (h : Hub) k => (h.fset (RING_CTRL_EN k) 0).setRstate k 0) h

/-- HIBERNATE_ENTRY_STEP (R513): 1 ms the lanes' rails and the ports, 4 ms the flashes and
OPERATION 0x00 to `VDD_SD`, 5 ms `EN_SD` and the retention sequence, 12 ms the
gate, after which a latched wake event starts the wake. The lanes' steps wait for their BIST, the retention sequence for the hub's. `pg` names the
power-good balls (A, B, C, SD) that are still high at the end, each of which gives a recorder entry. -/
def State.entryStep (s : State) (pg : BitVec 4) (t : Nat) : State :=
  let due (ns : Nat) : Bool := decide (s.aon.entryT + ns ≤ t)
  match s.aon.pwr with
  | .entry 1 =>
    if due 1000000 && s.aon.bistLanes.isEmpty then
      let s := s.lanesOff.modHub (·.stopPorts)
      { s with aon := { s.aon with enLA := false, enLB := false, enLC := false, pwr := .entry 2 } }
    else s
  | .entry 2 =>
    if due 4000000 then
      { s.modHub (fun h => { h with rst := h.rst.send h.set 3 [.operation 0x00] }) with aon := { s.aon with pwr := .entry 3 } }
    else s
  | .entry 3 =>
    if due 5000000 && !s.aon.bistHub then
      let s := s.modHub (·.retainEntry s.aon.bistBad)
      { s with aon := { s.aon with enSD := false, pwr := .entry 4 } }
    else s
  | .entry _ =>
    if due 12000000 then
      let s := (upTo 4).foldl (fun (s : State) i => if pg.getLsbD i then s.recHub blkPwrc 0x0A 513 [(1, i)] else s) s
      let s := s.gateHub
      let s := { s with aon := { s.aon with pwr := .hibernate } }
      if s.aon.wakeLatched = 0 then s else s.startWake s.aon.wakeLatched t
    else s
  | _ => s

/-- The rail of a lane is acknowledged. -/
def Lane.railUp (l : Lane) : Bool := l.on PWRC_STAT_ACK

/-- The end of a wake: lanes that stay in reset are shown in `LANEOFF`; a wake that succeeded clears `WAKEFAIL` (R514, R517). -/
def State.wakeDone (s : State) : State :=
  let off := laneMask (allLanes.filter fun l => (s.lane l).rst.held)
  let s := s.modHub fun h => (h.fset PWRC_HSTAT_LANEOFF off).fset PWRC_HSTAT_WAKEFAIL 0
  ({ s with aon := { s.aon with pwr := .run } }).faultPin 3 false

/-- WAKE_SEQUENCE_STEP (R514): once the hub is released, `EN_SD`, and after its acknowledgement the lane
enables 1 ms apart; the wake ends when every raised rail is acknowledged and the lanes are released, or 28 ms have passed. The check itself is made at the release. -/
def State.wakeStep (s : State) (t : Nat) : State :=
  let at_ (k : Nat) (a : AonInt) : AonInt := { a with pwr := .wake k, entryT := t }
  let later : Bool := decide (s.aon.entryT + 1000000 ≤ t)
  match s.aon.pwr with
  | .wake 0 => if s.hub.up then { s with aon := at_ 1 s.aon } else s
  | .wake 1 => { s with aon := at_ 2 { s.aon with enSD := true } }
  | .wake 2 => if s.hub.on PWRC_HSTAT_PGSD && s.hub.rst.pmbT == 0 then { s with aon := at_ 3 { s.aon with enLA := true } } else s
  | .wake 3 => if later then { s with aon := at_ 4 { s.aon with enLB := true } } else s
  | .wake 4 => if later then { s with aon := at_ 5 { s.aon with enLC := true } } else s
  | .wake _ =>
    let released := !(allLanes.any fun l => (s.lane l).rst.held) || decide (s.aon.entryT + 17600000 ≤ t)
    if released && allLanes.all fun l => (s.lane l).railUp then s.wakeDone else s
  | _ => s

/-! ### Self-test results (R518 to R523) -/

/-- A result set's area in bank 28. -/
def bistArea (m : Master) : Nat := match m with | .lane l => retainedBase + 0x1000 + 0x2000 * l.idx | _ => retainedBase + 0x7000
/-- Origin code of a die. -/
def bistDie (m : Master) : Nat := match m with | .lane l => l.idx + 1 | _ => 4
/-- Shutdown, full start-up, skipped. -/
def bistShutdown : Nat := 1
/-- Full start-up. -/
def bistFull : Nat := 2
/-- Skipped. -/
def bistSkipped : Nat := 3

/-- The first 24 header bytes of a result set. -/
def bistHead (m : Master) (kind nrec rseq rtc : Nat) : List Byte :=
  beBytes 4 0x42495354 ++ beBytes 1 (bistDie m) ++ beBytes 1 kind ++ beBytes 2 nrec ++ beBytes 4 rseq ++ beBytes 8 rtc ++ zeros 4

/-- The check value of a set: a lane's CMAC, cut to 8 bytes, or the hub's CRC-32C. -/
def bistChk (m : Master) (head body : List Byte) : List Byte :=
  match m with
  | .lane l => (beBytes 16 (cmac (Config.fuseKey l.idx) (head ++ body)).toNat).take 8
  | _ => beBytes 4 (crc32c (head ++ body)) ++ zeros 4

/-- The bytes of a result set: header, check value, records of 16 bytes (R523). -/
def bistSet (m : Master) (kind : Nat) (records : List (List Byte)) (rseq rtc : Nat) : List Byte :=
  let rs := records.take 510
  let body := rs.flatMap (padTo 16)
  let head := bistHead m kind rs.length rseq rtc
  head ++ bistChk m head body ++ body

/-- `TYPE` 0x01 records. -/
def memRecords (records : List (List Byte)) : List (List Byte) := records.filter fun r => beAt r 0 1 == 1
/-- SRAM banks of records that report an unrepairable failure. -/
def lostBanks (records : List (List Byte)) : List Nat :=
  ((memRecords records).filter fun r => beAt r 9 1 == 2 && decide (beAt r 2 2 < 32)).map fun r => beAt r 2 2

/-- Hub banks go out of service until the next cold reset (R422). -/
def Hub.loseBanks (h : Hub) (bs : List Nat) : Hub :=
  if bs.isEmpty then h else { h.fset HSRAM_STAT_UNREP 1 with badBanks := bs ++ h.badBanks }

/-- What a result shows in `BIST_STAT`: of the full start-up BIST, or of one that was skipped. -/
def Lane.showBist (l : Lane) (kind : Nat) (records : List (List Byte)) (cov : Nat) (lfail unrep : Bool) : Lane :=
  if kind = bistSkipped then (l.fset BIST_STAT_SKIPPED 1).fset BIST_STAT_VALID 0
  else
    let l := ((l.fset BIST_STAT_VALID 1).fset BIST_STAT_SKIPPED 0).fset BIST_STAT_NMEM (memRecords records).length
    let l := if kind = bistFull then (l.fset BIST_STAT_FULL 1).fset BIST_STAT_QUICK 0 else (l.fset BIST_STAT_FULL 0).fset BIST_STAT_QUICK 1
    let l := if lfail then l.fset BIST_STAT_LFAIL 1 else l
    (if unrep then l.fset BIST_STAT_UNREP 1 else l).fset BIST_STAT_COV cov

/-- A die's shutdown BIST has ended: once the last lane's has, the times of the entry run from then (R513). -/
def AonInt.bistEnded (a : AonInt) (m : Master) (t : Nat) : AonInt :=
  match m with
  | .lane l =>
    let rest := removeL l a.bistLanes
    { a with bistLanes := rest, entryT := if rest.isEmpty && !a.bistLanes.isEmpty then t else a.entryT }
  | _ => { a with bistHub := false }

/-- The hub's self-test: the retained banks are restored or lost, a recorder entry for each lost one; then the set is written and banks beyond repair
go out of service (R520, R434). -/
def State.hubBist (s : State) (kind : Nat) (records : List (List Byte)) (upset : List Host.Cell) (put : State → State) (entry : Bool) : State :=
  let x := if kind = bistSkipped then (s.hub, 0) else s.hub.testRetained upset
  let s := { s with hub := x.1, aon := { s.aon with bistBad := if entry then x.2 else s.aon.bistBad } }
  let s := (upTo 4).foldl (fun (s : State) n => if x.2.getLsbD n then s.recHub 0 0x0A 434 [] else s) s
  (put s).modHub (·.loseBanks (lostBanks records))

/-- BIST_DONE: the set is written into bank 28; a shutdown BIST leaves the lane without keys (R521), a start-up BIST takes force for this
start, in a lane that has not armed. -/
def State.bistDone (s : State) (m : Master) (kind : Nat) (records : List (List Byte)) (cov : Nat) (lfail unrep : Bool) (upset : List Host.Cell)
    (rtc : Nat) : State :=
  let entry := match s.aon.pwr with | .entry _ => true | _ => false
  let s := { s with aon := { s.aon with rtc := rtc, rtcAt := s.now, fullNext := s.aon.fullNext && kind != bistFull } }
  let s := if entry then { s with aon := s.aon.bistEnded m s.now } else s
  let q := if kind = bistFull then 0 else s.hub.fget ⟨HSRAM_RSEQ, 0, 32⟩ + 1
  let put (s : State) : State :=
    if s.hub.rst.held then s
    else s.modHub fun h => h.putSram (bistArea m) (bistSet m kind records q rtc)
  match m with
  | .lane l =>
    let x := s.lane l
    if x.rst.held then s
    else if kind == bistShutdown || entry then
      if entry then (put s).modLane l fun x => if kind = bistSkipped then x else { x with keys := [], keySect := [] } else s
    else if x.unarmed || x.joining then
      (put s).modLane l fun x => { x.showBist kind records cov lfail unrep with badBanks := lostBanks records ++ x.badBanks }
    else s
  | .hub => if s.hub.rst.held then s else s.hubBist kind records upset put entry
  | .host => s

/-! ### Temperature (R541) -/

/-- HUB_TEMP_ALARM: an entry at 120 °C, and again once the die has fallen below 110 °C. -/
def State.hubTemp (s : State) (high : Bool) : State :=
  if s.hub.rst.held || s.hub.hot == high then s
  else (s.modHub fun h => { h with hot := high }).recHub blkFirmware 0x0A 541 []

/-! ### Meanings -/

/-- SUPPLY_OUT_OF_RANGE (R509). -/
def execSupplyOutOfRange (m : Master) (rail t : Nat) (s : State) : Host.Outcome State Fault Refusal :=
  done (match m with
    | .lane l => (s.at t).laneSupply l rail
    | .hub => (s.at t).hubSupply rail
    | .host => s.at t)
/-- SUPPLY_SETTLED (R510). -/
def execSupplySettled (l : LaneId) (t : Nat) (s : State) : Host.Outcome State Fault Refusal := done ((s.at t).modLane l (·.supplySettled t))
/-- PMBUS_REQUEST (R507). -/
def execPmbusRequest (m : Master) (t : Nat) (s : State) : Host.Outcome State Fault Refusal :=
  done (match m with
    | .lane l => (s.at t).modLane l (·.pmbRequest t)
    | .hub => (s.at t).upHub (·.pmbRequest t)
    | .host => s.at t)
/-- PMBUS_ACK (R507). -/
def execPmbusAck (m : Master) (pg : Bool) (statusWord : Half) (pec : Bool) (t : Nat) (s : State) : Host.Outcome State Fault Refusal :=
  done (match m with
    | .lane l => (s.at t).modLane l (·.pmbAck pg statusWord pec t)
    | .hub => (s.at t).upHub (·.pmbAck pg statusWord pec t)
    | .host => s.at t)
/-- PMBUS_ACK_TIMEOUT (R507). -/
def execPmbusAckTimeout (m : Master) (t : Nat) (s : State) : Host.Outcome State Fault Refusal := done ((s.at t).pmbTimeout m t)
/-- PWRC_VSET_WRITE (R508). -/
def execPwrcVsetWrite (l : LaneId) (v : Word) (s : State) : Host.Outcome State Fault Refusal := done (s.upLane l (·.vsetWrite v))
/-- HIBERNATE (R512). -/
def execHibernate (r : CmdRef) (mask : Byte) (t : Nat) (s : State) : Host.Outcome State Fault Refusal := done ((s.at t).hibernate r mask t)
/-- HIBERNATE_ENTRY_STEP (R513). -/
def execHibernateEntryStep (pg : BitVec 4) (t : Nat) (s : State) : Host.Outcome State Fault Refusal := done ((s.at t).entryStep pg t)
/-- WAKE_EVENT (R514). -/
def execWakeEvent (src : BitVec 4) (t : Nat) (s : State) : Host.Outcome State Fault Refusal := done ((s.at t).wakeEvent src t)
/-- WAKE_SEQUENCE_STEP (R514). -/
def execWakeSequenceStep (t : Nat) (s : State) : Host.Outcome State Fault Refusal := done ((s.at t).wakeStep t)
/-- BIST_DONE (R522). -/
def execBistDone (m : Master) (kind : Nat) (records : List (List Byte)) (cov : Nat) (lfail unrep : Bool)
    (upset : List Host.Cell) (rtc : Nat) (s : State) : Host.Outcome State Fault Refusal := done (s.bistDone m kind records cov lfail unrep upset rtc)
/-- HUB_TEMP_ALARM (R541). -/
def execHubTempAlarm (high : Bool) (s : State) : Host.Outcome State Fault Refusal := done (s.hubTemp high)
/-- HUB_VDDIO_RESTORED (R509). -/
def execHubVddioRestored (s : State) : Host.Outcome State Fault Refusal := done (s.faultPin 2 false)

end Sys2Proof.Machine
end

