-- ==== Sys2Proof/Machine/HostOps.lean ====
section
/-! DEFINITION. Host commands and the host interface's own events: identity and status, lane, telegram, program, recorder, ring, pair, field and
module commands, interface reset and power cycle (R367, R375 to R387). Results and output data whose layout the table leaves open stand in the
order the table names them (Assumption 23). -/

namespace Sys2Proof.Machine

/-! ### What the hub reads of the lanes -/

/-- The lane whose published values stand for the module: the first voter, else the first lane out of reset. -/
def State.speaker (s : State) : Option LaneId := match s.voters with | l :: _ => some l | [] => allLanes.find? fun l => (s.lane l).up

/-- A value of that lane. -/
def State.heard {α : Type} (s : State) (d : α) (f : Lane → α) : α := match s.speaker with | some l => f (s.lane l) | none => d

/-- A result of two words, the first in the low half. -/
def twoWords (a b : Word) : Dword := BitVec.ofNat 64 (a.toNat + b.toNat * 2 ^ 32)

/-! ### Class 0x01 -/

/-- The identity record of IDENTIFY: part number, five die steppings, active slot, vote generation, `PRGID`. -/
def State.identity (s : State) : List Byte :=
  padTo 64 (beBytes 8 s.fuses.partNo.toNat ++ (upTo 5).map Config.dieStep ++ beBytes 1 s.pointer.active ++
    beBytes 4 (hdrVotegen (s.slotHdr s.pointer.active)) ++ beBytes 8 ((s.runningPrgid.getD 0).toNat))

/-- The module mode, coded as `VOTE_STAT.MODE`: the mode that a lane in easy all or in the vote shows, else that of the speaker. -/
def State.moduleMode (s : State) : Nat := if s.anyEasy then modeEasy else s.heard modeSitReady (·.mode)

/-- `RESULT` of STATUS. -/
def State.statusWord (s : State) : Dword :=
  let cause := match allLanes.find? fun l => (s.lane l).up && (s.lane l).easy with | some l => (s.lane l).fget VOTE_EASY_CAUSE | none => 0
  BitVec.ofNat 64 (s.moduleMode + laneMask s.voters * 2 ^ 8 + cause * 2 ^ 16 + b2n s.aon.faultN * 2 ^ 24)

/-- RESUME_TARGET: the class it names is no longer poisoned in its queue (R381). -/
def State.resume (s : State) (r : CmdRef) : State :=
  match s.hub.openCmd r.q r.slot with
  | some c =>
    if c.target = 0 ∨ 11 < c.target then s.endWith r stBadParam 0 else (s.modHub (·.poison r.q c.target false)).endWith r stOk 0
  | none => s

/-- A token that holds under a key names this module, every lane of the mask, and a validity period that contains the RTC time (R199). -/
def State.tokenFits (s : State) (mask : BitVec 3) (token : List Byte) : Bool :=
  Config.tokenSerial token == s.hub.set.serial && (mask &&& ~~~(Config.tokenLanes token)) == 0 &&
    decide (Config.tokenFrom token ≤ s.rtcNow) && decide (s.rtcNow ≤ Config.tokenUntil token)

/-- BENCH_AUTH: a token that holds under a key hash of OTP whose fuse is intact, and that fits; refused when the 32.768 kHz clock has failed
(R199, R488). -/
def State.benchAuth (s : State) (r : CmdRef) (mask : BitVec 3) (token : List Byte) : State :=
  let key (i : Nat) : Bool :=
    !s.fuses.revoked.getLsbD i && !(s.fuses.keyHash.getD i []).isEmpty && Config.tokenHolds token (s.fuses.keyHash.getD i [])
  if !s.hub.on CLKC_HSTAT_AON_FAIL && (upTo 4).any key && s.tokenFits mask token then
    (s.modHub fun h => { h with host := { h.host with granted := maskLanes mask } }).endWith r stOk 0
  else s.endWith r stRefused 0

/-! ### Class 0x02 -/

/-- L commands taken directly from the mailboxes carry a command sequence too (R382). -/
def State.numberCmd (s : State) (r : CmdRef) (took : LaneId → Bool) : State :=
  match s.hub.openCmd r.q r.slot with
  | none => s
  | some c =>
    let q := s.hub.rg HCMD_SEQ + 1
    let s := s.modHub fun h => (h.setRg HCMD_SEQ q).setCmd { c with seq := some q, applied := decide (2 ≤ (allLanes.filter took).length) }
    (allLanes.filter took).foldl (fun (s : State) l =>
      (s.modLane l fun x => { x with prog := { x.prog with cmdSeq := q } }).modHub (·.modMbx l fun m => { m with admSeq := q })) s

/-- START: taken in sit ready alone, with `AUTO_START` 0 (R48, R382). -/
def State.startCmd (s : State) (r : CmdRef) : State :=
  if !s.modSitReady || s.anyEasy || s.hub.set.autoStart then s.endWith r stWrongState 0
  else
    let s' := s.startLanes s.now
    let took (l : LaneId) : Bool := (s.lane l).start.firstCatch.isNone && (s'.lane l).start.firstCatch.isSome
    if 2 ≤ (allLanes.filter took).length then (s'.numberCmd r took).endWith r stOk 0 else s.endWith r stNoAgreement 0

/-- LANE_STATUS. -/
def State.laneStatus (s : State) (r : CmdRef) (l : LaneId) : State :=
  let x := s.lane l
  if x.rst.held then s.endWith r stNotReady 0 else s.endRef r stOk 0 (twoWords (x.rg VOTE_STAT) (x.rg VOTE_LEAVE)) []

/-- LANE_RESET: a lane that is out of the vote. -/
def State.laneResetCmd (s : State) (r : CmdRef) (l : LaneId) : State :=
  if (s.lane l).inVote then s.endWith r stNotPermitted 0
  else (s.requestReset l leaveFirmware causeSwr false).endWith r stOk 0

/-! ### Classes 0x03 and 0x04 -/

/-- STATION_INFO: `RLE_DIGEST` and the active slot. -/
def State.stationInfo (s : State) (r : CmdRef) : State :=
  s.endRef r stOk 0 (twoWords (s.heard 0 (·.rg RLE_DIGEST)) (BitVec.ofNat 32 s.pointer.active)) []

/-- TLG_SUBMIT: into all three mailboxes, for a connection of the host carrier. -/
def State.tlgSubmit (s : State) (r : CmdRef) (conn : Nat) (tlg : List Byte) : State :=
  if (s.hub.desc conn).carrier ≠ 4 then s.endWith r stBadParam 0 else (s.carry (·.received conn tlg s.now)).endWith r stOk 0

/-- Whole telegrams that fit into an output buffer, and the rest. -/
def fitTlgs (room : Nat) : List (Nat × List Byte) → List (Nat × List Byte) × List (Nat × List Byte)
  | [] => ([], [])
  | x :: xs => if x.2.length ≤ room then let y := fitTlgs (room - x.2.length) xs; (x :: y.1, y.2) else ([], x :: xs)

/-- TLG_RECEIVE: assembled telegrams since the last receive, of one connection or all; what does not fit stays. -/
def State.tlgReceive (s : State) (r : CmdRef) (conn : Nat) : State :=
  match s.hub.openCmd r.q r.slot with
  | none => s
  | some c =>
    let mine := s.hub.host.rx.filter fun e => conn == 0xFFFF || e.1 == conn
    let f := fitTlgs c.hdr.doutlen.toNat mine
    let rest := s.hub.host.rx.filter fun e => !(conn == 0xFFFF || e.1 == conn)
    (s.modHub fun h => { h with host := { h.host with rx := f.2 ++ rest } }).endRef r stOk 0 (BitVec.ofNat 64 f.1.length) (f.1.flatMap (·.2))

/-- Code of a connection state: CLOSED, REQUESTED, RESPONDED, OPEN. -/
def ConnSt.code (x : ConnSt) : Nat := match x with | .closed => 0 | .requested => 1 | .responded => 2 | .opened => 3

/-- CONN_STATUS: state and corruption count in `RESULT`, the counters in the output data. -/
def State.connStatus (s : State) (r : CmdRef) (conn : Nat) : State :=
  if (s.hub.desc conn).connid = 0 then s.endWith r stBadParam 0
  else
    let c := s.heard Conn.init (·.conn conn)
    s.endRef r stOk 0 (BitVec.ofNat 64 (c.st.code + 256 * c.corr)) ([c.lost, c.late, c.proto, c.refused, c.superseded].flatMap (beBytes 4))

/-! ### Classes 0x05 to 0x08 -/

/-- Code of the program set's mode. -/
def PrgMode.code (m : PrgMode) : Nat := match m with | .run => 0 | .stop => 1 | .hold => 2

/-- PRG_STATUS: `PRGID` in `RESULT`, the mode in the output data. -/
def State.prgStatus (s : State) (r : CmdRef) : State :=
  s.endRef r stOk 0 ((s.heard none (fun (l : Lane) => l.prog.prog.map (·.prgid))).getD 0) [BitVec.ofNat 8 (s.heard 0 (·.prog.mode.code))]

/-- PRG_CHANGE: refused by the hub while a trial is pending (R465), and as NOT_RUNNING in *sit ready* and in *easy all* (R230), else carried to
the lanes. -/
def State.prgChange (s : State) (r : CmdRef) (bytes sig : List Byte) : State :=
  match s.activeCmd r 0x0504 with
  | none => s
  | some c =>
    if s.pointer.trial ≠ 0xFF then s.endWith r stRefused chgBusy
    else if c.seq.isNone && (s.anyEasy || s.modSitReady) then s.endWith r stRefused chgNotRunning
    else s.toLanes r 0x0504 [b2n c.dropForces, bytes.length] (bytes ++ sig)

/-- FORCE_SET: carried to the lanes; one that the hub refuses because no stroke runs is recorded (R232, R382). -/
def State.forceSetHub (s : State) (r : CmdRef) (vid : Word) (val : List Byte) : State :=
  let s' := s.toLanes r 0x0505 [vid.toNat] val
  match s.activeCmd r 0x0505 with
  | some c => if c.seq.isNone && (s.anyEasy || s.modSitReady) then s'.recHub blkFirmware 5 232 [(4, vid.toNat)] else s'
  | none => s' 

/-- REC_READ: `DETAIL` bit 0 tells of a record of a bad CRC. -/
def State.recRead (s : State) (r : CmdRef) (first : Word) (count : Nat) : State :=
  if count = 0 ∨ 32768 < count then s.endWith r stBadParam 0
  else
    let x := s.recRange first.toNat count
    s.endRef r stOk (b2n x.2) (BitVec.ofNat 64 (x.1.length / 32)) x.1

/-- RING_ANNOUNCE: begun, or refused with the `ABN` code. -/
def State.ringAnnounceCmd (s : State) (r : CmdRef) (k rating : Nat) : State :=
  if 6 ≤ k then s.endWith r stBadParam 0
  else
    let h := s.hub
    let abn := if !h.ratingValid rating || rating == h.rating k then abnBadRating else if (h.ring k).ann.isSome then abnBusy else 0
    let s := s.modHub (·.ringAnnounce k rating)
    if h.rstate k ≠ rsMaster ∨ abn ≠ 0 then s.endWith r stRefused (if h.rstate k = rsMaster then abn else 0) else s.endWith r stOk 0

/-- A ring command that is carried out at once. -/
def State.ringCmd (s : State) (r : CmdRef) (k : Nat) (f : Hub → Hub) : State :=
  if 6 ≤ k then s.endWith r stBadParam 0 else (s.modHub f).endWith r stOk 0

/-- RING_STATUS: `RING_STAT` and `RING_CLAIM`; presence, acknowledgement and break registers. -/
def State.ringStatus (s : State) (r : CmdRef) (k : Nat) : State :=
  if 6 ≤ k then s.endWith r stBadParam 0
  else
    let g (a : Nat) : List Byte := leBytes 4 (s.hub.rg a).toNat
    s.endRef r stOk 0 (twoWords (s.hub.rg (RING_STAT k)) (s.hub.rg (RING_CLAIM k)))
      (g (RING_PRESLO k) ++ g (RING_PRESHI k) ++ g (RING_ACKLO k) ++ g (RING_ACKHI k) ++ g (RING_BRK k))

/-! ### Classes 0x09 to 0x0B -/

/-- FIELD_SNAPSHOT: the latest valid frame each lane publishes, in the order A, B, C. -/
def State.snapshot (s : State) : List Byte := allLanes.flatMap fun l => padTo 64 (if (s.lane l).up then (s.lane l).fld.frame else [])

/-- EASY_ALL: the descriptor is committed, and every lane enters at once (R177, R178); it completes once no lane is in the vote. -/
def State.easyCmd (s : State) (r : CmdRef) : State :=
  match s.activeCmd r 0x0A01 with
  | none => s
  | some c =>
    if c.headerBad then s.endWith r stBadHeader 0
    else if c.rangeBad then s.endWith r stBadRange 0
    else if c.seq.isSome then s
    else allLanes.foldl (fun (s : State) l => s.enterEasy l easyHostCmd false) (s.numberCmd r fun l => (s.lane l).up)

/-- MODULE_RESET: it completes, and the reset follows 1 ms later. -/
def State.moduleReset (s : State) (r : CmdRef) (kind : Nat) : State :=
  if 1 < kind then s.endWith r stBadParam 0
  else (s.modHub fun h => { h with host := { h.host with mreset := some (kind == 1, s.now + 1000000) } }).endWith r stOk 0

/-- MODULE_RESET_ASSERT. -/
def State.moduleResetAssert (s : State) (t : Nat) : State :=
  match s.hub.host.mreset with
  | some (cold, d) => if d ≤ t ∧ s.hub.rst.held = false then s.requestModule cold else s
  | none => s

/-- The stored set of a die: header and records, when its magic stands. -/
def Hub.storedSet (h : Hub) (m : Master) : List Byte :=
  let a := bistArea m
  let b := memBytes h.sram a 32
  if beAt b 0 4 = 0x42495354 then memBytes h.sram a (32 + 16 * min 510 (beAt b 6 2)) else []

/-- BIST_RESULTS: the sets of lanes A, B, C and the hub. -/
def State.bistResults (s : State) (r : CmdRef) : State :=
  s.endRef r stOk 0 0 ([Master.lane .a, .lane .b, .lane .c, .hub].flatMap s.hub.storedSet)

/-! ### The interface itself (R367, R368, R387) -/

/-- A reset of the host interface state: dispatched commands run on without a completion, the rest is dropped (R367). -/
def Hub.ifReset (h : Hub) : Hub :=
  let keep := (h.host.cmds.filter fun c => c.active && c.status.isNone).map fun c => { c with ghost := true }
  let h := { h with host := { h.host with cmds := keep, lastQ := 3, cqW := [0, 0, 0, 0], phase := [true, true, true, true], irq := 0,
                                          msix := [], spiOut := [] } }
  let zero (h : Hub) (q : Nat) : Hub := ((h.setRg (HCMD_POISON q) 0).setRg (HCMD_CQHD q) 0)
  let h := ((upTo 4).foldl zero h).setRg HCMD_CTRL 0
  let h := (((h.fset HCMD_STAT_QFULL 0).fset HCMD_STAT_SPI_ERR 0).fset HCMD_STAT_WIN_ERR 0).fset HCMD_STAT_DB_ERR 0
  (h.fset HCMD_STAT_EPOCH (h.fget HCMD_STAT_EPOCH + 1)).countQueues

/-- HOST_INTERFACE_RESET: an event of the PCI Express endpoint, which is idle in SPI attachment (R366, R367). -/
def State.hostIfReset (s : State) : State :=
  if s.hub.rst.held || s.hub.on HCMD_STAT_HOSTSPI then s else (s.modHub (·.ifReset)).recHub blkFirmware 0x01 367 []

/-- A write of `HCMD_CTRL`: `IE_STAT` always; with the key, `DEVRST` before `PWRCYC` (R387). -/
def State.hcmdCtrl (s : State) (v : Word) (t : Nat) : State :=
  let s := s.modHub (·.fset HCMD_CTRL_IE_STAT (bvField v 7 1))
  if bvField v 16 16 ≠ swrKey then s
  else if v.getLsbD 0 then s.assertHub false [causeSwr]
  else if v.getLsbD 1 then { s with aon := { s.aon with pwrcycUntil := t + 20000000 } }
  else s

/-- PWRCYC_PULSE_END: `PWRCYC_N` goes high after its 20 ms. -/
def State.pwrcycEnd (s : State) (t : Nat) : State :=
  if s.aon.pwrcycUntil ≤ t then { s with aon := { s.aon with pwrcycUntil := 0 } } else s

/-! ### Meanings -/

/-- HOST_INTERFACE_RESET (R367). -/
def execHostInterfaceReset (s : State) : Host.Outcome State Fault Refusal := done s.hostIfReset
/-- HCMD_DEVRST (R387). -/
def execHcmdDevrst (v : Word) (s : State) : Host.Outcome State Fault Refusal := done (if s.hub.rst.held then s else s.hcmdCtrl v s.now)
/-- HCMD_PWRCYC (R387). -/
def execHcmdPwrcyc (v : Word) (t : Nat) (s : State) : Host.Outcome State Fault Refusal :=
  done (if s.hub.rst.held then s.at t else (s.at t).hcmdCtrl v t)
/-- PWRCYC_PULSE_END (R387). -/
def execPwrcycPulseEnd (t : Nat) (s : State) : Host.Outcome State Fault Refusal := done ((s.at t).pwrcycEnd t)
/-- IDENTIFY (R383). -/
def execIdentify (r : CmdRef) (s : State) : Host.Outcome State Fault Refusal :=
  done (s.hCmd r 0x0101 fun s => s.endRef r stOk 0 s.hub.set.serial s.identity)
/-- STATUS (R383). -/
def execStatus (r : CmdRef) (s : State) : Host.Outcome State Fault Refusal := done (s.hCmd r 0x0102 fun s => s.endRef r stOk 0 s.statusWord [])
/-- RESUME_TARGET (R381). -/
def execResumeTarget (r : CmdRef) (s : State) : Host.Outcome State Fault Refusal := done (s.hCmd r 0x0103 (·.resume r))
/-- BENCH_AUTH (R199). -/
def execBenchAuth (r : CmdRef) (mask : BitVec 3) (token : List Byte) (s : State) : Host.Outcome State Fault Refusal :=
  done (s.hCmd r 0x0104 (·.benchAuth r mask token))
/-- START (R48). -/
def execStart (r : CmdRef) (s : State) : Host.Outcome State Fault Refusal := done (s.hCmd r 0x0201 (·.startCmd r))
/-- LANE_STATUS (R383). -/
def execLaneStatus (r : CmdRef) (l : LaneId) (s : State) : Host.Outcome State Fault Refusal := done (s.hCmd r 0x0202 (·.laneStatus r l))
/-- LANE_RESET (R383). -/
def execLaneReset (r : CmdRef) (l : LaneId) (s : State) : Host.Outcome State Fault Refusal := done (s.hCmd r 0x0203 (·.laneResetCmd r l))
/-- KEY_SWITCH (R326). -/
def execKeySwitch (r : CmdRef) (conn slot : Nat) (s : State) : Host.Outcome State Fault Refusal := done (s.toLanes r 0x0304 [conn, slot] [])
/-- STATION_INFO (R383). -/
def execStationInfo (r : CmdRef) (s : State) : Host.Outcome State Fault Refusal := done (s.hCmd r 0x0305 (·.stationInfo r))
/-- KEY_LOAD (R326). -/
def execKeyLoad (r : CmdRef) (conn : Nat) (s : State) : Host.Outcome State Fault Refusal := done (s.toLanes r 0x0306 [conn] [])
/-- TLG_SUBMIT (R365). -/
def execTlgSubmit (r : CmdRef) (conn : Nat) (tlg : List Byte) (t : Nat) (s : State) : Host.Outcome State Fault Refusal :=
  done ((s.at t).hCmd r 0x0401 (·.tlgSubmit r conn tlg))
/-- TLG_RECEIVE (R383). -/
def execTlgReceive (r : CmdRef) (conn : Nat) (s : State) : Host.Outcome State Fault Refusal := done (s.hCmd r 0x0402 (·.tlgReceive r conn))
/-- CONN_CLOSE (R334). -/
def execConnClose (r : CmdRef) (conn : Nat) (s : State) : Host.Outcome State Fault Refusal := done (s.toLanes r 0x0403 [conn] [])
/-- CONN_STATUS (R383). -/
def execConnStatus (r : CmdRef) (conn : Nat) (s : State) : Host.Outcome State Fault Refusal := done (s.hCmd r 0x0404 (·.connStatus r conn))
/-- PRG_START (R218). -/
def execPrgStart (r : CmdRef) (s : State) : Host.Outcome State Fault Refusal := done (s.toLanes r 0x0501 [] [])
/-- PRG_STOP (R218). -/
def execPrgStop (r : CmdRef) (s : State) : Host.Outcome State Fault Refusal := done (s.toLanes r 0x0502 [] [])
/-- PRG_CONTINUE (R220). -/
def execPrgContinue (r : CmdRef) (s : State) : Host.Outcome State Fault Refusal := done (s.toLanes r 0x0503 [] [])
/-- PRG_CHANGE (R225). -/
def execPrgChange (r : CmdRef) (bytes sig : List Byte) (s : State) : Host.Outcome State Fault Refusal := done (s.prgChange r bytes sig)
/-- FORCE_SET (R231). -/
def execForceSet (r : CmdRef) (vid : Word) (val : List Byte) (s : State) : Host.Outcome State Fault Refusal :=
  done (s.forceSetHub r vid val)
/-- FORCE_CLEAR (R231). -/
def execForceClear (r : CmdRef) (vid : Word) (s : State) : Host.Outcome State Fault Refusal := done (s.toLanes r 0x0506 [vid.toNat] [])
/-- COMMISSION_SET (R233). -/
def execCommissionSet (r : CmdRef) (mask : Half) (conns : List Nat) (s : State) : Host.Outcome State Fault Refusal :=
  done (s.toLanes r 0x0507 (mask.toNat :: conns) [])
/-- BREAK_SET (R220). -/
def execBreakSet (r : CmdRef) (task : Nat) (addr : Word) (s : State) : Host.Outcome State Fault Refusal :=
  done (s.toLanes r 0x0508 [task, addr.toNat] [])
/-- BREAK_CLEAR (R220). -/
def execBreakClear (r : CmdRef) (task : Nat) (s : State) : Host.Outcome State Fault Refusal := done (s.toLanes r 0x0509 [task] [])
/-- PRG_STATUS (R383). -/
def execPrgStatus (r : CmdRef) (s : State) : Host.Outcome State Fault Refusal := done (s.hCmd r 0x050A (·.prgStatus r))
/-- REC_READ (R444). -/
def execRecRead (r : CmdRef) (first : Word) (count : Nat) (s : State) : Host.Outcome State Fault Refusal :=
  done (s.hCmd r 0x0601 (·.recRead r first count))
/-- REC_HEAD (R383). -/
def execRecHead (r : CmdRef) (s : State) : Host.Outcome State Fault Refusal :=
  done (s.hCmd r 0x0602 fun s => s.endRef r stOk 0 (twoWords (s.hub.rg REC_HEAD) 0) [])
/-- RING_ANNOUNCE (R306). -/
def execRingAnnounce (r : CmdRef) (k rating : Nat) (s : State) : Host.Outcome State Fault Refusal :=
  done (s.hCmd r 0x0801 (·.ringAnnounceCmd r k rating))
/-- RING_CANCEL (R309). -/
def execRingCancel (r : CmdRef) (k : Nat) (s : State) : Host.Outcome State Fault Refusal :=
  done (s.hCmd r 0x0802 (·.ringCmd r k (·.annAbandon k abnCancelled)))
/-- RING_RESTART (R304). -/
def execRingRestart (r : CmdRef) (k t : Nat) (s : State) : Host.Outcome State Fault Refusal :=
  done ((s.at t).hCmd r 0x0803 (·.ringCmd r k (·.ringRestart k t)))
/-- RING_STATUS (R383). -/
def execRingStatus (r : CmdRef) (k : Nat) (s : State) : Host.Outcome State Fault Refusal := done (s.hCmd r 0x0804 (·.ringStatus r k))
/-- PAIR_YIELD (R351). -/
def execPairYield (r : CmdRef) (s : State) : Host.Outcome State Fault Refusal := done (s.toLanes r 0x0805 [] [])
/-- PAIR_STATUS (R383). -/
def execPairStatus (r : CmdRef) (s : State) : Host.Outcome State Fault Refusal :=
  done (s.hCmd r 0x0806 fun s => s.endRef r stOk 0 (twoWords (s.hub.rg PTNR_STAT) (s.hub.rg PTNR_CLAIM)) [])
/-- FIELD_CAL (R245). -/
def execFieldCal (r : CmdRef) (ch : Nat) (s : State) : Host.Outcome State Fault Refusal := done (s.toLanes r 0x0901 [ch] [])
/-- FIELD_SNAPSHOT (R383). -/
def execFieldSnapshot (r : CmdRef) (s : State) : Host.Outcome State Fault Refusal :=
  done (s.hCmd r 0x0902 fun s => s.endRef r stOk 0 0 s.snapshot)
/-- EASY_ALL (R178). -/
def execEasyAll (r : CmdRef) (s : State) : Host.Outcome State Fault Refusal := done (s.easyCmd r)
/-- MODULE_RESET (R383). -/
def execModuleReset (r : CmdRef) (kind : Nat) (s : State) : Host.Outcome State Fault Refusal := done (s.hCmd r 0x0A02 (·.moduleReset r kind))
/-- MODULE_RESET_ASSERT (R383). -/
def execModuleResetAssert (t : Nat) (s : State) : Host.Outcome State Fault Refusal := done ((s.at t).moduleResetAssert t)
/-- BIST_RESULTS (R523). -/
def execBistResults (r : CmdRef) (s : State) : Host.Outcome State Fault Refusal := done (s.hCmd r 0x0B01 (·.bistResults r))
/-- BIST_FULL_NEXT (R522). -/
def execBistFullNext (r : CmdRef) (s : State) : Host.Outcome State Fault Refusal :=
  done (s.hCmd r 0x0B02 fun s => { s with aon := { s.aon with fullNext := true } }.endWith r stOk 0)

end Sys2Proof.Machine
end

