-- ==== Sys2Proof/Machine/RleCheck.lean ====
section
/-! DEFINITION. The load check of the route logic engine and its digest (R84 to R98). -/

namespace Sys2Proof.Machine

/-- Reserved bits of a configuration word by type, bits 79 to 0 (Type-specific fields). -/
def reservedCfg (t : Nat) (x : Nat) : Bool :=
  if t == tSECTION then getField x 0 63 != 0
  else if t == tPOINT then getField x 0 8 != 0
  else if t == tSLIP then getField x 16 18 != 0 || getField x 0 8 != 0
  else if t == tDERAILER then getField x 16 64 != 0 || getField x 0 8 != 0
  else if t == tSIGNAL then getField x 0 38 != 0
  else if t == tOVERLAP then getField x 0 24 != 0
  else if t == tCROSSING then getField x 0 34 != 0
  else if t == tKEYLOCK then getField x 0 21 != 0
  else if t == tBORDER then getField x 0 62 != 0
  else getField x 0 80 != 0

/-- How many low bits of a state word are reserved by type. -/
def reservedState (t : Nat) : Nat :=
  if t == tSECTION || t == tCROSSING then 24
  else if isPsd t then 27
  else if t == tSIGNAL then 17
  else if t == tOVERLAP then 28
  else if t == tKEYLOCK || t == tBORDER then 40
  else if t == tDIAMOND || t == tCONDITION then 42
  else 44

/-- Code 0x2 for a cell: ports open or linked against R90, or an asymmetric link. -/
def Lane.chkLinks (l : Lane) (c : Nat) : Bool :=
  let t := l.typ c
  (upTo 4).any fun p => match l.neighbour c p with
    | none => (trackPorts t).contains p
    | some n => !(trackPorts t).contains p || (l.cell n.1).link n.2 != (c, p)

/-- Code 0x3 for a cell: a reserved bit, or a field outside its range. A reserved code of a state field (`LKIND` or `OCC` 0b11, `LCS` above 5) is
none of the ranges the tables state, and is not counted (Assumption 95). -/
def Lane.chkCellRange (l : Lane) (c : Nat) : Bool :=
  let r := l.cell c
  let t := r.typ
  if t == tUNUSED then decide (r.st ≠ 0) || decide (r.cfg ≠ 0)
  else
    bvField r.cfg 97 3 != 0 || reservedCfg t r.cfg.toNat || bvField r.st 0 (reservedState t) != 0 || decide (48 < r.c fELEM) ||
      (isPsd t && r.c gMTO == 0) || (t == tSIGNAL && r.c gAMAIN == 0) ||
      (t == tOVERLAP && (r.c gOREL == 0 || r.c gOLEN == 0)) || (t == tCROSSING && r.c gCMAX == 0) ||
      (t == tKEYLOCK && (r.c gNGOV == 0 || decide (4 < r.c gNGOV))) ||
      (t == tSECTION && (if r.c gTRELEN == 1 then r.c gTREL == 0 else r.c gTREL != 0))

/-- Code 0x3 for a pair directory entry. -/
def Lane.chkPairRange (l : Lane) (j : Nat) : Bool :=
  l.pairF j 0 0 3 != 0 || l.pairF j 1 0 5 != 0 || l.pairF j 2 0 14 != 0 || l.pairF j 3 0 32 != 0 ||
    (l.pValid j && (l.pairF j 2 14 6 == 0 || decide (32 < l.pairF j 2 14 6)))

/-- Code 0x3 for an ARD entry. -/
def Lane.chkArdRange (l : Lane) (i : Nat) : Bool :=
  l.ardF i 1 0 3 != 0 || l.ardF i 2 0 2 != 0 ||
    (l.aValid i && (l.ardF i 2 2 2 == 3 || decide (l.aLen i < 2) || decide (128 < l.aLen i)))

/-- A flank link that breaks R87. -/
def Lane.badFlank (l : Lane) (v : Nat) : Bool :=
  if v % 4 = 0 then v != 0 else if v % 4 = 3 then l.typ (v / 4) != tSIGNAL else !isPsd (l.typ (v / 4))

/-- Code 0x4 for a cell: a reference of the wrong type, or a broken `MATE` pair. -/
def Lane.chkRefs (l : Lane) (c : Nat) : Bool :=
  let r := l.cell c
  let t := r.typ
  if t == tPOINT then [r.c gFLN0, r.c gFLN1, r.c gFLR0, r.c gFLR1].any l.badFlank
  else if t == tSLIP then
    [r.c gFLN0, r.c gSLR0].any l.badFlank || r.c gMATE == c || l.typ (r.c gMATE) != tSLIP || l.cc (r.c gMATE) gMATE != c
  else if t == tSIGNAL then l.typ (r.c gAPS) != tSECTION
  else if t == tCROSSING then l.typ (r.c gSTRIKE) != tSECTION
  else if t == tOVERLAP then l.typ (r.c gSIG) != tSIGNAL
  else if t == tKEYLOCK then
    (upTo 4).any fun k => if k < r.c gNGOV then !isPsd (l.typ (r.c (gGOV k))) else r.c (gGOV k) != 0
  else false

/-- Code 0x5 for a cell: binding, repeated binding, object pairs (R86). -/
def Lane.chkObject (l : Lane) (c : Nat) : Bool :=
  let r := l.cell c
  let t := r.typ
  if t == tUNUSED then false
  else
    let others := l.cells.filter fun e => e.1 != c && e.2.typ != tUNUSED
    let mates := others.filter fun e => e.2.c fOBJ == r.c fOBJ
    (r.c fBND == 1) != isBound t ||
      (r.c fBND == 1 && others.any fun e => e.2.c fBND == 1 && e.2.c fCONN == r.c fCONN && e.2.c fELEM == r.c fELEM) ||
      (match mates with
       | [] => r.c fPAIR != 0
       | [m] => m.2.typ != t || m.2.c fPAIR == r.c fPAIR
       | _ => true)

/-- Code 0x6 for a pair directory entry (rule 1 of R93). Where the valid entries leave a gap, the entry after the gap is in breach (Assumption
95). -/
def Lane.chkPair (l : Lane) (j : Nat) : Bool :=
  if l.pValid j then
    l.typ (l.pEntry j) != tSIGNAL || (l.typ (l.pExit j) != tSIGNAL && l.typ (l.pExit j) != tBORDER) ||
      (decide (0 < j) && (!l.pValid (j - 1) ||
        decide (l.pEntry j * 0x4000 + l.pExit j ≤ l.pEntry (j - 1) * 0x4000 + l.pExit (j - 1))))
  else (upTo 4).any fun w => l.ardW (0x4000 + 4 * j + w) != 0

/-- Code 0x7 for an ARD entry (rules 2, 3 and 5 of R93); `pairs` lists the valid pairs. Where the valid entries leave a gap, the entry after the
gap is in breach (Assumption 95). -/
def Lane.chkArd (l : Lane) (pairs : List Nat) (i : Nat) : Bool :=
  let owners := pairs.filter fun j => (l.variants j).contains i
  if l.aValid i then
    owners != [l.aPair i] || (decide (0 < i) && !l.aValid (i - 1)) ||
      (decide (0 < i) && l.aPair (i - 1) == l.aPair i && decide (l.aRank i ≤ l.aRank (i - 1))) ||
      ((l.variants (l.aPair i)).any fun k => decide (k < i) && l.aHash k == l.aHash i) ||
      ((l.aConds i).any fun k => l.typ k != tCONDITION) ||
      (decide (l.ardF i 2 2 2 < 1) && l.ardF i 2 18 14 != 0) || (decide (l.ardF i 2 2 2 < 2) && l.ardF i 2 4 14 != 0)
  else !owners.isEmpty || (upTo 4).any fun w => l.ardW (4 * i + w) != 0

/-- Code 0x7 for variants past the last ARD entry (rule 3 of R93): the first index that no entry has, 4,096, is the one in breach (Assumption 95). -/
def Lane.chkPast (l : Lane) (pairs : List Nat) : Option Nat :=
  if pairs.any fun j => (l.variants j).any fun i => decide (4096 ≤ i) then some 4096 else none

/-- Strictly rising. -/
def rising : List Nat → Bool
  | a :: b :: r => decide (a < b) && rising (b :: r)
  | _ => true

/-- Code 0x8 for a pair: corridor length, place, order or members. -/
def Lane.chkCorridor (l : Lane) (j : Nat) : Bool :=
  let p := l.pairF j 1 16 16
  let n := l.pairF j 1 5 11
  let ids := (l.corridor j).map (·.1)
  l.pValid j && (decide (n < 2) || decide (1024 < n) || decide (65536 < p + n) || !rising ids || !ids.contains (l.pEntry j) ||
    !ids.contains (l.pExit j))

/-- Code 0x8 for pool elements: corridor elements that carry a requirement. -/
def Lane.badElems (l : Lane) (pairs : List Nat) : List Nat :=
  pairs.flatMap fun j =>
    ((upTo (l.pairF j 1 5 11)).map fun k => l.pairF j 1 16 16 + k).filter fun k => (l.pool k).2 != 0

/-- The full exploration tree of a corridor (R98): false once it passes 2,048 visits or a path passes 128 cells. -/
def Lane.treeLoop (l : Lane) (ids : List Nat) (exit : Nat) : Nat → List (List Nat × Nat × Nat) → Nat → Bool
  | 0, _, _ => false
  | _ + 1, [], _ => true
  | n + 1, (rev, c, port) :: ps, visits =>
    match l.neighbour c port with
    | none => l.treeLoop ids exit n ps visits
    | some (d, q) =>
      if rev.contains d || !ids.contains d then l.treeLoop ids exit n ps visits
      else
        let ways := passages (l.typ d) q
        if d != exit && ways.isEmpty then l.treeLoop ids exit n ps visits
        else if decide (128 ≤ rev.length) || decide (2048 ≤ visits) then false
        else if d = exit then l.treeLoop ids exit n ps (visits + 1)
        else l.treeLoop ids exit n ((ways.map fun w => (d :: rev, d, w.1)) ++ ps) (visits + 1)

/-- Code 0x9 for a pair. -/
def Lane.chkTree (l : Lane) (j : Nat) : Bool :=
  l.pValid j && !(l.treeLoop ((l.corridor j).map (·.1)) (l.pExit j) 8192 [([l.pEntry j], l.pEntry j, 1)] 1)

/-- An overlap list walked from the cell at the signal's P1 outward (rule 7 of R93). -/
def Lane.ovWalk (l : Lane) : Option (Nat × Nat) → List Elem → Bool
  | _, [] => true
  | none, _ :: _ => false
  | some (d, q), e :: es =>
    let ways := passages (l.typ d) q
    d == e.1 && (match ways.find? fun w => w.2 == e.2 with
      | some w => l.ovWalk (l.neighbour d w.1) es
      | none => ways.isEmpty && e.2 == 0 && es.isEmpty)

/-- Code 0xA for an OVERLAP cell (rule 7 of R93). -/
def Lane.chkOverlap (l : Lane) (c : Nat) : Bool :=
  let r := l.cell c
  r.typ == tOVERLAP &&
    ((l.cells.any fun e => e.1 != c && e.2.typ == tOVERLAP && e.2.c gSIG == r.c gSIG && e.2.c gOPRI == r.c gOPRI) ||
      decide (65536 < r.c gOPTR + r.c gOLEN) || !l.ovWalk (l.neighbour (r.c gSIG) 1) (l.ovList c))

/-- Code 0xA for an ARD entry (rule 6 of R93). -/
def Lane.chkOvmask (l : Lane) (i : Nat) : Bool :=
  let x := l.pExit (l.aPair i)
  l.aValid i && (if l.typ x == tBORDER then l.aOvmask i != 0
    else (upTo 16).any fun k => getField (l.aOvmask i) k 1 == 1 && (l.overlapOf x k).isNone)

/-- The failure that is recorded: lowest code, then first index kind, then lowest index (R96); kinds 0 cell, 1 pair, 2 ARD entry, 3
pool element. -/
def Lane.loadError (l : Lane) : Option (Nat × Nat × Nat) :=
  let cells := upTo 16384
  let ents := upTo 4096
  let pairs := ents.filter l.pValid
  let hit (code kind : Nat) (i : Option Nat) : Option (Nat × Nat × Nat) := i.map fun i => (code, kind, i)
  let elems := l.badElems pairs
  [ hit 1 0 (cells.find? fun c => decide (12 < l.typ c)),
    hit 2 0 (cells.find? l.chkLinks),
    hit 3 0 (cells.find? l.chkCellRange),
    hit 3 1 (ents.find? l.chkPairRange),
    hit 3 2 (ents.find? l.chkArdRange),
    hit 4 0 (cells.find? l.chkRefs),
    hit 5 0 (cells.find? l.chkObject),
    hit 6 1 (ents.find? l.chkPair),
    hit 7 2 ((ents.find? (l.chkArd pairs)).or (l.chkPast pairs)),
    hit 8 1 (ents.find? l.chkCorridor),
    hit 8 3 (if elems.isEmpty then none else some (minOr0 elems)),
    hit 9 1 (ents.find? l.chkTree),
    hit 10 0 (cells.find? l.chkOverlap),
    hit 10 2 (ents.find? l.chkOvmask) ].findSome? fun x => x

/-- `RLE_DIGEST` (RLE control registers): CRC-32C over configuration and link words of every cell, then the ARD window. -/
def Lane.loadDigest (l : Lane) : Nat :=
  let cell (c : Nat) : List Byte := leBytes 16 (l.cell c).cfg.toNat ++ leBytes 8 (l.cell c).lnk.toNat
  let r := (upTo 16384).foldl (fun r c => (cell c).foldl (crcByteR polyCrc32c) r) 0xFFFFFFFF
  let r := (upTo 65536).foldl (fun r k => (leBytes 4 (l.ardW k)).foldl (crcByteR polyCrc32c) r) r
  r ^^^ 0xFFFFFFFF

/-- The CRC-32C a lane exchanges at a warm restart: state words, route status table, path store (R146). -/
def Lane.retainedCrc (l : Lane) : Nat :=
  let r := (upTo 16384).foldl (fun r c => (leBytes 8 (l.cell c).st.toNat).foldl (crcByteR polyCrc32c) r) 0xFFFFFFFF
  let r := (upTo 4096).foldl (fun r i => (leBytes 4 (l.rw i).toNat).foldl (crcByteR polyCrc32c) r) r
  let r := (upTo 65536).foldl (fun r k =>
    (leBytes 4 (sparseGet (fun _ => (0 : Word)) l.pstore k).toNat).foldl (crcByteR polyCrc32c) r) r
  r ^^^ 0xFFFFFFFF

end Sys2Proof.Machine
end

