-- ==== Sys2Proof/Machine/Rle.lean ====
section
/-! DEFINITION. What the commands of the route logic engine do (R79, R96 to R106, R131, R134, R135, R137, R140, R146, R147, R149). -/

namespace Sys2Proof.Machine

/-! ### Windows and tables (R79, R104, R115) -/

/-- A write of an area while `BUSY` = 0 (R79): accepted while unlocked; while locked ignored with `WR_IGN`, but for `PVAL` of a CONDITION
cell. The request table is written in either case and the result table ignores writes (R104). -/
def Lane.rleWrite (l : Lane) (a : Nat) (v : Word) : Lane :=
  match rleArea a with
  | .request => l.putAreaWord a v
  | .result | .none => l
  | .cell c k =>
    if !l.on RLE_STAT_LOCKED then l.putAreaWord a v
    else if k = 1 ∧ l.typ c = tCONDITION then l.putC c fPVAL (bvField v 10 1)
    else l.rleFlag RLE_STAT_WR_IGN
  | _ => if l.on RLE_STAT_LOCKED then l.rleFlag RLE_STAT_WR_IGN else l.putAreaWord a v

/-- Whether an area is stored with error correction: cells, ARD window, path store (R82, R116, R417). -/
def RleArea.ecc : RleArea → Bool
  | .cell _ _ => true
  | .ard _ => true
  | .store _ => true
  | _ => false

/-- An aligned word access of the RLE's windows and tables; `nerr` bits of the word read are in error (R82, R417, R418). -/
def opCellWindow (l : LaneId) (a : Nat) (acc : Access) (nerr : Nat) (s : State) : State :=
  let x := s.lane l
  if x.rst.held then s
  else if rleArea a = .none ∨ a % 4 ≠ 0 then s.busErr
  else if x.on RLE_STAT_BUSY then (s.upLane l (·.rleFlag RLE_STAT_BUS_ERR)).busErr
  else match acc with
    | .read =>
      if (rleArea a).ecc then s.laneRead l a nerr (some (x.areaWord a)) else s.busData (x.areaWord a)
    | .write v => (s.setLane l (x.rleWrite a v)).busOk

/-! ### Load check and lock -/

/-- Words that a command of the engine reads with errors, in order: address and bits in error (R82, R116, R417). -/
abbrev EccHits := List (Word × Nat)

/-- The errors a command of the engine meets: each one correctable is corrected and counted; at one that is not, the data is not delivered and
the lane leaves with LANE_FAULT (R417, R418). The state, and whether the command goes on. -/
def State.engineReads (l : LaneId) : EccHits → State → State × Bool
  | [], s => (s, true)
  | h :: hs, s =>
    if !(rleArea h.1.toNat).ecc || h.2 == 0 then s.engineReads l hs
    else if h.2 == 1 then (s.modLane l (·.corrected h.1.toNat)).engineReads l hs
    else (s.laneUncorrectable l h.1.toNat, false)

/-- A command of the engine runs in lane `l` with the errors it meets. -/
def State.engine (s : State) (l : LaneId) (ecc : EccHits) (f : Lane → Lane) : State :=
  let r := s.engineReads l ecc
  if r.2 then r.1.upLane l f else r.1

/-- `RLE_CMD.CHECK` (R96, R103): ignored while locked; while busy it sets `BUS_ERR`. A new check clears `CHK_OK`. -/
def Lane.startCheck (l : Lane) : Lane :=
  if l.on RLE_STAT_BUSY then l.rleFlag RLE_STAT_BUS_ERR
  else if l.on RLE_STAT_LOCKED then l
  else
    let l := (l.fset RLE_STAT_CHK_OK 0).fset RLE_STAT_BUSY 1
    { l with rle := { l.rle with strokeRun := false } }

/-- A check written now runs. -/
def Lane.checkRuns (l : Lane) : Bool := !l.rst.held && !l.on RLE_STAT_BUSY && !l.on RLE_STAT_LOCKED

/-- The end of a check (R96, R97): the verdict, the counts and the digest, which is the station data digest the lane compares (R46). -/
def Lane.endCheck (l : Lane) : Lane :=
  if l.on RLE_STAT_BUSY && !l.rle.strokeRun then
    let l := (l.fset RLE_STAT_BUSY 0).rleFlag RLE_STAT_DONE
    match l.loadError with
    | some (code, kind, i) =>
      (((l.fset RLE_ERRIDX_CODE code).fset RLE_ERRIDX_KIND kind).fset RLE_ERRIDX_INDEX i).rleFlag RLE_STAT_CHK_ERR
    | none =>
      let l := (l.fset RLE_STAT_CHK_OK 1).setRg RLE_ERRIDX 0
      let l := l.fset RLE_CELLS_NCELL (l.cells.filter fun e => e.2.typ != tUNUSED).length
      let l := l.fset RLE_ARDN_NPAIR ((upTo 4096).filter l.pValid).length
      let l := l.fset RLE_ARDN_NARD ((upTo 4096).filter l.aValid).length
      let d := BitVec.ofNat 32 l.loadDigest
      { l.setRg RLE_DIGEST d with start := { l.start with own := { l.start.own with station := d } } }
  else l

/-- Every state word, the route status table and the path store at zero: the cold start (R144, R146). -/
def Lane.rleCold (l : Lane) : Lane :=
  { l with cells := sparseMap (fun _ => cellZero) (fun _ r => { r with st := 0 }) l.cells, rstat := [], pstore := [] }

/-- `RLE_CTRL.LOCK` written 1 (R99): takes effect only while `CHK_OK` = 1. State kept through a warm restart that was not found equal
in all three lanes is at zero from then on (R146). -/
def Lane.lockStation (l : Lane) : Lane :=
  if l.on RLE_STAT_CHK_OK && !l.on RLE_STAT_LOCKED then
    let l := if l.start.cold || l.start.rleKept then l else l.rleCold
    (l.fset RLE_CTRL_LOCK 1).fset RLE_STAT_LOCKED 1
  else l

/-! ### STROKE -/

/-- An area base outside lane SRAM (R149). -/
def baseOutside (b : Nat) : Bool := !inSram b 0x20000

/-- `RLE_CMD.STROKE` (R100, R103, R105, R149): ignored with `BUS_ERR` while busy or with an area outside lane SRAM, ignored unless locked; the four phases run and `BUSY` stands until the command ends. -/
def Lane.startStroke (l : Lane) : Lane :=
  if l.on RLE_STAT_BUSY then l.rleFlag RLE_STAT_BUS_ERR
  else if baseOutside (l.rg RLE_INBASE).toNat || baseOutside (l.rg RLE_OUTBASE).toNat then l.rleFlag RLE_STAT_BUS_ERR
  else if !l.on RLE_STAT_LOCKED || l.easy then l
  else
    let l := l.rleRun.fset RLE_STAT_BUSY 1
    { l with rle := { l.rle with strokeRun := true } }

/-- A `STROKE` command written now runs. -/
def Lane.strokeRuns (l : Lane) : Bool :=
  !l.rst.held && !l.on RLE_STAT_BUSY && !(baseOutside (l.rg RLE_INBASE).toNat || baseOutside (l.rg RLE_OUTBASE).toNat) && l.on RLE_STAT_LOCKED && !l.easy

/-- The stroke task's fixed part outside RUN: `PVAL` 0 in every CONDITION cell, written after `DONE` of the stroke (R89, R217). -/
def Lane.clearConditions (l : Lane) : Lane :=
  { l with cells := sparseMap (fun _ => cellZero) (fun _ r => if r.typ == tCONDITION then r.put fPVAL 0 else r) l.cells }

/-- The stroke task runs a cycle that it caught in STOP or HOLD (R217). -/
def Lane.fixedPart (l : Lane) : Bool := (l.taskOf 0).any fun k => k.active && k.mode != .run

/-- The end of a `STROKE` command (R105): `DONE`, and the time it took; then the fixed part of a stroke task outside RUN (R217). -/
def Lane.endStroke (l : Lane) (us : Nat) : Lane :=
  if l.on RLE_STAT_BUSY && l.rle.strokeRun then
    let l := (((l.fset RLE_STAT_BUSY 0).fset RLE_TLAST_TLAST (min us 65535))).rleFlag RLE_STAT_DONE
    if l.fixedPart then l.clearConditions else l
  else l

/-! ### Timed events of a sweep -/

/-- The approach-locking time of a cancelled route ends (R134): passage takes precedence; else every cell it holds releases. -/
def Lane.approachExpiry (l : Lane) (i : Nat) : Lane :=
  if l.rState i = rsCancelling ∧ !l.easy then
    let n := l.routeNext i
    (l.setRState i n.1).releaseCells i n.2
  else l

/-- A timed overlap release (R140); in easy all the route engine stands (R179). -/
def Lane.overlapExpiry (l : Lane) (c : Nat) : Lane :=
  let i := l.cs c fLRT
  if !l.easy && l.typ c == tOVERLAP && l.ovHeld i c && l.rState i == rsReleasing && l.routeOverlap i == some c then
    l.releaseCells i (l.ovReleasing i)
  else l

/-- A section complete by its timer releases with the prefix of its route (R137, R138). -/
def Lane.sectionExpiry (l : Lane) (c : Nat) : Lane :=
  let i := l.cs c fLRT
  if !l.easy && l.typ c == tSECTION && l.cs c fLKIND == 1 && l.rState i == rsReleasing && l.complete c then
    let n := l.releasing i
    (l.setRw i (bvSet (l.rw i) 0 8 n.2)).releaseCells i n.1
  else l

/-- A move that has run out its time (R131). -/
def Lane.moveExpiry (l : Lane) (c : Nat) : Lane := if !l.easy && isPsd (l.typ c) then l.setCell c (l.moveNext c (l.cell c)) else l

/-- A crossing not proven in time is noted once per close command (R135). -/
def Lane.crossingExpiry (l : Lane) (c : Nat) : Lane :=
  if !l.easy && l.crossingLate c then
    { l.noteCrossing c with rle := { l.rle with xrec := sortBy (fun a b => decide (a ≤ b)) (c :: l.rle.xrec) } }
  else l

/-! ### Control registers -/

/-- `RLE_NREQ`: a value above 64 is ignored (R101). The value judged is bits 6:0 of the write, since writes of reserved bits are ignored
(R6; Assumption 96). -/
def Lane.writeNreq (l : Lane) (v : Word) : Lane :=
  if 64 < bvField v 0 7 then l.rleFlag RLE_STAT_WR_IGN else l.fset RLE_NREQ_NREQ (bvField v 0 7)

/-- `RLE_INBASE` or `RLE_OUTBASE` (R149). -/
def Lane.writeBase (l : Lane) (out : Bool) (v : Word) : Lane :=
  let b := bvField v 17 15
  let other := l.fget (if out then RLE_INBASE_BASE else RLE_OUTBASE_BASE)
  if l.on RLE_STAT_LOCKED || baseOutside (b * 0x20000) || b == other then l.rleFlag RLE_STAT_WR_IGN
  else l.fset (if out then RLE_OUTBASE_BASE else RLE_INBASE_BASE) b

/-! ### Warm restart (R146, R147) -/

/-- What is adjusted in kept route state before the lock; every bound cell is stale until its connection's first admitted telegram (R147). -/
def Lane.adjustKept (l : Lane) : Lane :=
  let entries := (l.routes.filter fun i => l.rState i == rsCleared).map l.entryOf
  let adj (c : Nat) (r : CellRec) : CellRec :=
    let r := (r.put fPRV 0).put fCOR 0
    let r := if r.typ == tSIGNAL then r.put fASP 0 else r
    let r := if isPsd r.typ && r.s fMOV == 1 then r.put fMTMR 0 else r
    if r.typ == tSIGNAL && entries.contains c then (r.put fAPL 1).put fATMR 0 else r
  let bound := (l.cells.filter fun e => e.2.c fBND == 1).map (·.1)
  let l' := (l.routes.filter fun i => l.rState i == rsCleared).foldl (fun (m : Lane) i => m.setRState i rsHeld) l
  { l' with cells := sparseMap (fun _ => cellZero) adj l'.cells, rle := { l'.rle with stale := bound } }

/-- A peer's digest of its retained route state arrives before the lane arms (R146): with both values in, the state is kept and adjusted
when all three are equal, and written to zero otherwise. -/
def Lane.takeDigest (l : Lane) (src : LaneId) (crc : Word) : Lane :=
  let all (ds : List (LaneId × Word)) : Bool := l.id.peers.all fun p => ds.any fun d => d.1 == p
  if l.start.cold || !l.unarmed || l.on RLE_STAT_LOCKED || all l.start.digests then l
  else
    let ds := (l.start.digests.filter fun d => d.1 ≠ src) ++ [(src, crc)]
    let l := { l with start := { l.start with digests := ds } }
    if all ds then
      (if ds.all fun d => d.2.toNat == l.retainedCrc then
        let l := l.adjustKept
        { l with start := { l.start with rleKept := true } }
       else l.rleCold)
    else l

/-! ### Meanings -/

/-- CELL_WINDOW_WRITE (R79). -/
def execCellWindowWrite (l : LaneId) (addr : Word) (acc : Access) (nerr : Nat) (s : State) : Host.Outcome State Fault Refusal :=
  done (opCellWindow l addr.toNat acc nerr s)

/-- RLE_CHECK (R96). -/
def execRleCheck (l : LaneId) (ecc : EccHits) (s : State) : Host.Outcome State Fault Refusal :=
  done (if (s.lane l).checkRuns then s.engine l ecc Lane.startCheck else s.upLane l Lane.startCheck)

/-- RLE_CHECK_DONE (R96). -/
def execRleCheckDone (l : LaneId) (s : State) : Host.Outcome State Fault Refusal := done (s.upLane l Lane.endCheck)

/-- RLE_LOCK (R99). -/
def execRleLock (l : LaneId) (s : State) : Host.Outcome State Fault Refusal := done (s.upLane l Lane.lockStation)

/-- RLE_STROKE (R105). -/
def execRleStroke (l : LaneId) (ecc : EccHits) (s : State) : Host.Outcome State Fault Refusal :=
  done (if (s.lane l).strokeRuns then s.engine l ecc Lane.startStroke else s.upLane l Lane.startStroke)

/-- RLE_STROKE_DONE (R105). -/
def execRleStrokeDone (l : LaneId) (us : Nat) (s : State) : Host.Outcome State Fault Refusal := done (s.upLane l (·.endStroke us))

/-- APPROACH_TIMER_EXPIRY (R134). -/
def execApproachTimerExpiry (l : LaneId) (ard : Nat) (s : State) : Host.Outcome State Fault Refusal := done (s.upLane l (·.approachExpiry ard))

/-- OVERLAP_TIMER_EXPIRY (R140). -/
def execOverlapTimerExpiry (l : LaneId) (cell : Nat) (s : State) : Host.Outcome State Fault Refusal := done (s.upLane l (·.overlapExpiry cell))

/-- TIMED_SECTION_RELEASE (R137). -/
def execTimedSectionRelease (l : LaneId) (cell : Nat) (s : State) : Host.Outcome State Fault Refusal :=
  done (s.upLane l (·.sectionExpiry cell))

/-- MOVE_TIMEOUT (R131). -/
def execMoveTimeout (l : LaneId) (cell : Nat) (s : State) : Host.Outcome State Fault Refusal := done (s.upLane l (·.moveExpiry cell))

/-- CROSSING_CLOSE_TIMEOUT (R135). -/
def execCrossingCloseTimeout (l : LaneId) (cell : Nat) (s : State) : Host.Outcome State Fault Refusal :=
  done (s.upLane l (·.crossingExpiry cell))

/-- RLE_NREQ_WRITE (R101). -/
def execRleNreqWrite (l : LaneId) (v : Word) (s : State) : Host.Outcome State Fault Refusal := done (s.upLane l (·.writeNreq v))

/-- VMAX_CLR (R104). -/
def execVmaxClr (l : LaneId) (s : State) : Host.Outcome State Fault Refusal := done (s.upLane l (·.setRg RLE_VMAX 0))

/-- RLE_BASE_WRITE (R149). -/
def execRleBaseWrite (l : LaneId) (out : Bool) (v : Word) (s : State) : Host.Outcome State Fault Refusal := done (s.upLane l (·.writeBase out v))

/-- RETAINED_STATE_DIGEST (R146). -/
def execRetainedStateDigest (dst src : LaneId) (crc : Word) (s : State) : Host.Outcome State Fault Refusal :=
  done (s.upLane dst (·.takeDigest src crc))

end Sys2Proof.Machine
end

