-- ==== Sys2Proof/Machine/Boot.lean ====
section
/-! DEFINITION. The release of a reset and the start that follows it, in a lane, the hub and the FIELD die; the reset of one hub block
alone (R45, R223, R361, R366, R386, R421, R443, R454, R455, R463, R464, R470 to R473, R495, R500, R501, R506, R522). -/

namespace Sys2Proof.Machine

/-! ### Conditions (R495, R498, R510) -/

/-- Zero-fill of a die in ns (R495). -/
def zeroFill (d : Die) : Nat := match d with | .lane .b => 327700 | .field => 0 | _ => 262100

/-- The shortest assertion of a die's reset in ns: 64 reference cycles of its crystal, of the RC in FIELD (R494, R495). -/
def shortestReset (d : Die) : Nat := match d with | .field => 4000 | _ => 2560

/-- Trim is valid, no clock failure or supply holds the reset, its shortest time is over, and a cold reset's zero-fill after it. -/
def RstInt.mayRelease (r : RstInt) (d : Die) (t : Nat) : Bool :=
  r.held && r.trimOk && !r.trimFail && !r.clkHold && !r.supHold && decide (r.t + shortestReset d + (if r.cold then zeroFill d else 0) ≤ t)

/-- Hub logic is powered. -/
def PwrState.hubPowered (p : PwrState) : Bool := match p with | .hibernate => false | .failed => false | _ => true

/-- AON drives the enable of a lane's regulator. -/
def AonInt.laneEn (a : AonInt) (l : LaneId) : Bool := match l with | .a => a.enLA | .b => a.enLB | .c => a.enLC

/-- Released. -/
def RstInt.release (r : RstInt) (t : Nat) : RstInt := { r with held := false, relT := t, due := none, goodWin := 0, badWin := 0 }

/-! ### BIST results at a start (R421, R422, R522) -/

/-- Records of a stored set. -/
def setRecords (b : List Byte) : List (List Byte) := (upTo (min 510 (beAt b 6 2))).map fun i => (b.drop (32 + 16 * i)).take 16

/-- The check value of a stored set is correct. -/
def setChecked (m : Master) (b : List Byte) : Bool :=
  !b.isEmpty && beAt b 4 1 == bistDie m && (b.drop 24).take 8 == bistChk m (b.take 24) (b.drop 32)

/-- The records of a die's latest set, while its check value holds. -/
def Hub.latestRecords (h : Hub) (m : Master) : List (List Byte) :=
  let b := h.storedSet m
  if setChecked m b then setRecords b else []

/-- Soft repairs: bank and column, each once. -/
def softRepairs (rs : List (List Byte)) : List (Nat × Nat) :=
  ((memRecords rs).filter fun r => beAt r 9 1 == 1 && decide (beAt r 2 2 < 32)).foldl (fun acc r => insertL (beAt r 2 2, beAt r 10 2) acc) []

/-- Banks that need more than their four spare columns. -/
def overRepaired (rs : List (List Byte)) : List Nat := (upTo 32).filter fun b => decide (4 < ((softRepairs rs).filter fun x => x.1 == b).length)

/-- A lane applies the soft repairs of its latest set (R421, R422). -/
def Lane.repair (l : Lane) (rs : List (List Byte)) (cold : Bool) : Lane :=
  let l := l.setRg LCTL_REPAIR (BitVec.ofNat 32 (((softRepairs rs).map (·.1)).foldl (fun w b => setField w b 1 1) 0))
  if !cold then l
  else
    let excess := overRepaired rs
    let l := if excess.isEmpty then l else l.fset LCTL_MEMSTAT_REP_FAIL 1
    { l with badBanks := excess ++ lostBanks rs }

/-- A shutdown set counts as the lane's BIST of this start (R522). -/
def State.setAccepted (s : State) (l : LaneId) (maxAge : Nat) : Bool :=
  let b := s.hub.storedSet (.lane l)
  let rs := setRecords b
  let bad (r : List Byte) : Bool := (beAt r 0 1 == 2 && beAt r 2 1 == 1) || (beAt r 0 1 == 1 && beAt r 9 1 == 2)
  setChecked (.lane l) b && beAt b 5 1 == bistShutdown && beAt b 8 4 == s.hub.fget ⟨HSRAM_RSEQ, 0, 32⟩ &&
    getField (s.hub.fget HSRAM_STAT_RVALID) 0 1 == 1 && decide (s.rtcNow ≤ beAt b 12 8 + 3600 * maxAge) && !s.aon.fullNext && !rs.any bad

/-- Coverage of a set's logic record. -/
def setCoverage (rs : List (List Byte)) : Nat := match rs.find? fun r => beAt r 0 1 == 2 with | some r => beAt r 4 2 | none => 0

/-! ### What a lane loads (R45, R205, R210, R326, R327, R454, R455, R470) -/

/-- The program a lane loads from slot `k` is signed: part of the signed image, or a section with its own signature block (R454). -/
def State.programSigned (s : State) (k : Nat) : Bool :=
  match s.slotCommit k with
  | some e =>
    let bs := s.blockSpan k (spareFirst (beAt e 24 1)) 96 (96 * 65528)
    let n := sectionLen bs
    s.sectionSigned (bs.take n) ((bs.drop n).take 196)
  | none => true

/-- Some SETTINGS record is valid. -/
def State.anySettings (s : State) : Bool := (jFind s.flash1 s.setRecOk).isSome

/-- The connection table of an area: entries in use (R327). -/
def areaDescs (area : List Byte) : Sparse ConnDesc :=
  (upTo 512).filterMap fun k => let d := connDescOf (Config.connBytes area k); if d.connid = 0 then none else some (k, d)

/-- The key store of a lane for the connections in use (R326). -/
def areaKeys (l : LaneId) (area : List Byte) (ds : Sparse ConnDesc) : Sparse KeyEntry :=
  ds.foldl (fun m e => sparseSet (fun _ => KeyEntry.none) m e.1 (unwrapKey l (Config.keySection area) e.1)) []

/-- A lane still has to load its image. -/
def Lane.toLoad (l : Lane) : Bool := l.up && !l.armed && !l.inVote && !l.start.imageOk && l.prog.prog.isNone && l.descs.isEmpty

/-- A lane reads its slot, settings, keys and program through its bridge, and the BIST set of the last shutdown. -/
def State.laneLoad (s : State) (l : LaneId) : State :=
  let x := s.lane l
  let k := s.pointer.slotFor (laneBit l)
  let hdr := s.slotHdr k
  let rec_ := s.settingsFor (hdrSetfmt hdr)
  let area := match rec_ with | some e => s.areaBytes (setRec e).1 (setRec e).2.2.1 | none => []
  let crc := match rec_ with | some e => (setRec e).2.2.2.1 | none => 0
  let set := match rec_ with | some _ => settingsOf area | none => settingsReset
  let descs := areaDescs area
  let bytes := s.slotProgram k
  let ok := s.slotVerifies k && s.programSigned k && sectionOk set.pairEn set.period set.cdl bytes && (rec_.isSome || !s.anySettings) &&
    !s.hub.on UPD_STAT_SET_INCOMP
  let g := programOf bytes
  let own : PairValues := { content := BitVec.ofNat 64 (hdrContent hdr), votegen := BitVec.ofNat 32 (hdrVotegen hdr),
                            station := x.rg RLE_DIGEST, settings := BitVec.ofNat 32 crc, prgid := g.prgid }
  let x := (x.fset TMR_STROKE_PERIOD set.period).fset TMR_STROKE_CDL set.cdl
  let x := { x with set := set, descs := descs, keySect := Config.keySection area, keys := areaKeys l area descs,
                    claim := s.hub.rg PTNR_CLAIM, standby := set.pairEn && s.hub.role != rolActive,
                    start := { x.start with imageOk := ok, own := own } }
  let x := if ok then x.loadProgram g else x
  let rs := setRecords (s.hub.storedSet (.lane l))
  let x := if s.setAccepted l set.bistMaxAge then x.showBist bistShutdown rs (setCoverage rs) false false else x
  s.setLane l x

/-- A lane's clocks and supplies at its release. -/
def Lane.liveRegs (l : Lane) : Lane :=
  let l := (((l.fset CLKC_STAT_XOK 1).fset CLKC_STAT_LOCK 1).fset CLKC_STAT_ONRC 0).fset CLKC_STAT_SSC (1 - l.fget CLKC_CTRL_SSC_OFF)
  (((l.fset RSTC_STAT_TRIMOK 1).fset PWRC_STAT_SUP_LX 1).fset PWRC_STAT_SUP_IO 1).fset PWRC_STAT_SUP_PLL 1

/-- Settings converted from another format wait for their write (R471). -/
def Hub.migrating (h : Hub) : Bool := h.upd.gated.any fun g => g.kind == .settings && g.cmd.isNone

/-- The hub serves the lanes: firmware runs, not the recovery loader, and the settings of its format are in flash. -/
def Hub.serves (h : Hub) : Bool := h.up && !h.upd.loader && !h.migrating

/-- `MODE` and `RUNNING` of a lane at its release (R4, R181): in sit ready before the module's first catch, out after it, in easy all while
the module stands there. -/
def Lane.placeIn (l : Lane) (p : ModPhase) : Lane :=
  match p with
  | .sitReady => l
  | .restarting => l
  | .running => (l.fset VOTE_STAT_MODE modeOut).fset TMR_STAT_RUNNING 1
  | .easy => (l.fset VOTE_STAT_MODE modeEasy).fset TMR_STAT_RUNNING 1

/-- A lane decides on retained data before it arms at a warm restart of the module (R223); at a cold one, or where it comes back to a running
module, there is nothing to decide. -/
def ModPhase.retainDecided (p : ModPhase) (cold : Bool) : Bool := cold || (match p with | .sitReady => false | .restarting => false | _ => true)

/-- A lane is released: the strap is sampled, repairs are applied, the start begins; the image is read as soon as the hub serves. -/
def State.releaseLane (s : State) (l : LaneId) (strap : Bool) (t : Nat) : State :=
  let x := s.lane l
  if !(x.rst.mayRelease (.lane l) t && s.aon.laneEn l && s.aon.pwr.hubPowered && s.aon.resetNLow.isNone && !s.hub.upd.loader) then s
  else
    let cold := x.rst.cold
    let x := (x.liveRegs.fset LCTL_STAT_STRAP (b2n strap)).fset LCTL_STAT_SPLIT (b2n s.split)
    let x := (x.fset BRG_STAT_HUBUP (b2n s.hub.up)).repair (if s.hub.serves then s.hub.latestRecords (.lane l) else []) cold
    let x := if s.split then { x with core1 := { x.core1 with coreid := 1, status := bvSet x.core1.status 2 1 1 } } else x
    let x := { x with rst := x.rst.release t, sig := { x.sig with openT := t, retT := t }, wdt := { last := t, key1 := false }, fol := { folReset with time := t },
                      start := { startReset cold with release := t, retainOk := s.phase.retainDecided cold, memOk := x.badBanks.isEmpty } }.placeIn s.phase
    let s := { s.setLane l x with aon := { s.aon with bench := strap } }
    if s.hub.serves then s.laneLoad l else s

/-! ### The hub's start (R361, R366, R443, R463, R464, R470 to R473) -/

/-- A pointer entry of a start, on the journal allowance; none is written after a power-fail (R464, R480). -/
def State.startPointer (s : State) (p : BootPtr) : State := if s.hub.on NVW_STAT_PF then s.modHub (·.showPointer p) else s.writePointer p

/-- The trial has ended: `TRIAL` 0xFF, `PARTS` 0, `TRIES` 0. -/
def BootPtr.reverted (p : BootPtr) : BootPtr := { p with trial := 0xFF, parts := 0, tries := 0 }

/-- The hub ROM's use of the boot pointer (R464, R467). -/
def State.startSlots (s : State) : State :=
  match storedPointer s.flash1 with
  | none =>
    let k := match [0, 1].find? s.slotVerifies with | some k => k | none => 0
    s.modHub fun h => (h.showPointer { pointerNone with active := k }).fset UPD_STAT_PTR_LOST 1
  | some p =>
    if p.trial ≤ 1 ∧ p.parts ≠ 0 ∧ s.slotBuild p.trial = p.tbuild.toNat then
      if 2 ≤ p.tries ∨ s.aon.hubRevert = true then ((s.startPointer p.reverted).modHub (·.fset UPD_STAT_REVERTED 1)).recUpd 464
      else s.startPointer { p with tries := p.tries + 1 }
    else s.modHub (·.showPointer p)

/-- The newest valid entry of the journal: its index and the entry. -/
def State.journalHead (s : State) : Option (Nat × List Byte) :=
  (usedEntries s.flash1 journalBase (journalEnd - journalBase)).foldl (fun (b : Option (Nat × List Byte)) i =>
    let e := entryAt s.flash1 journalBase i
    if entryOk e && decide (1 ≤ jType e) && decide (jType e ≤ 4) then
      match b with | none => some (i, e) | some x => if jSeqOf x.2 < jSeqOf e then some (i, e) else b
    else b) none

/-- The journal goes on behind its newest entry, past anything torn that stands in the same sector. -/
def State.startJournal (s : State) : State :=
  match s.journalHead with
  | none => s
  | some (i, e) =>
    let sec := journalBase + 0x10000 * (i / 2048)
    let last := (usedEntries s.flash1 sec 0x10000).foldl max (i % 2048)
    let n := sec + 32 * (last + 1)
    s.modHub fun h => { h with upd := { h.upd with jNext := if n = journalEnd then journalBase else n, jSeq := jSeqOf e } }

/-- The settings of an area are in force in the hub. -/
def Hub.takeSettings (h : Hub) (bytes : List Byte) (area crc seq fmt : Nat) : Hub :=
  { h with set := settingsOf bytes, descs := areaDescs bytes,
           upd := { h.upd with setArea := area, setLen := bytes.length, setSeq := seq, setCrc := BitVec.ofNat 32 crc, setFmt := fmt } }

/-- The settings of the starting firmware's format, converted from another where there are none, or declared incompatible (R470 to R472). -/
def State.startSettings (s : State) (fmt : Nat) : State :=
  match s.settingsFor fmt with
  | some e =>
    let r := setRec e
    s.modHub (·.takeSettings (s.areaBytes r.1 r.2.2.1) r.1 r.2.2.2.1 r.2.2.2.2 fmt)
  | none =>
    match s.settingsReadable fmt with
    | some e =>
      let r := setRec e
      let bytes := Config.migrate (s.areaBytes r.1 r.2.2.1) fmt
      let s := s.modHub (·.takeSettings bytes r.1 r.2.2.2.1 r.2.2.2.2 fmt)
      s.gated { kind := .settings, pages := (bytes.length + 255) / 256 + 1, addr := 1 - r.1, bytes := bytes, cmd := none, t0 := s.now }
    | none =>
      if s.anySettings then
        ((s.modHub (·.fset UPD_STAT_SET_INCOMP 1)).recUpd 472).startPointer { s.pointer with trial := 0xFF, parts := 0 }
      else s.modHub fun h => { h with set := settingsReset, upd := { h.upd with setFmt := fmt } }

/-- The stored claim (R361). -/
def State.startClaim (s : State) : State :=
  let c := storedClaim s.flash1
  s.modHub fun h =>
    let h := (h.fset PTNR_STAT_CLAIM_LOST (b2n c.isNone)).setRg PTNR_CLAIM (c.getD 0)
    { h with upd := { h.upd with claim := c.getD 0 } }

/-- A module of a pair starts as one (R344). -/
def Hub.startPair (h : Hub) (t : Nat) : Hub :=
  if h.set.pairEn then { h.fset PTNR_STAT_ROLE rolStarting with ptnr := { ptnrReset with startT := t, lastHb := t } } else h

/-- The highest command sequence the lanes have published (R382). -/
def Hub.topSeq (h : Hub) : Word :=
  [h.mbxB.admSeq, h.mbxC.admSeq].foldl (fun a b => if seqReached a b then a else b) h.mbxA.admSeq

/-- The hub's clocks and supplies at its release. -/
def Hub.liveRegs (h : Hub) (rtcOk pci : Bool) : Hub :=
  let xt := b2n (decide (h.rst.badXt < 2))
  let h := (((h.fset CLKC_HSTAT_XH_OK 1).fset CLKC_HSTAT_LOCK 1).fset CLKC_HSTAT_ONRC 0).fset CLKC_HSTAT_SSC (1 - h.fget ⟨HCLKC_CTRL, 0, 1⟩)
  let h := ((h.fset CLKC_HSTAT_XT_OK xt).fset CLKC_HSTAT_SDLOCK xt).fset CLKC_HSTAT_AON_OK (b2n rtcOk)
  ((h.fset CLKC_HSTAT_PREF_OK (b2n pci)).fset HRSTC_STAT_TRIMOK 1).fset PWRC_HSTAT_PGH 1

/-- The hub applies the soft repairs of its latest set (R421, R422). -/
def Hub.repair (h : Hub) : Hub := if h.rst.cold then h.loseBanks (overRepaired (h.latestRecords .hub) ++ lostBanks (h.latestRecords .hub)) else h

/-- A cold reset writes the mailboxes to zero before either port is released (R428); each lane then publishes its highest admitted command
sequence anew, from which the hub continues (R382, Assumption 54). -/
def State.clearMailboxes (s : State) : State :=
  allLanes.foldl (fun (s : State) l => s.modHub (·.modMbx l fun _ => { mbxReset with admSeq := (s.lane l).prog.cmdSeq })) s

/-- AON raises the regulator enables after the hub's release; at a wake the sequence does (R506, R514). -/
def State.raiseRails (s : State) : State :=
  match s.aon.pwr with
  | .run => { s with aon := { s.aon with enSD := true, enLA := true, enLB := true, enLC := true } }
  | _ => s

/-- The recovery loader runs: `FAULT_N`, lanes in reset stay there (R473). -/
def State.startLoader (s : State) : State := (s.modHub fun h => { h with up := true, upd := { h.upd with loader := true } }).faultPin 4 true

/-- Lanes that wait for the hub load their images once it serves. -/
def State.loadLanes (s : State) : State :=
  if s.hub.serves then allLanes.foldl (fun (s : State) l => if (s.lane l).toLoad then s.laneLoad l else s) s else s

/-- GATED_WRITE_RETRY, after which lanes load that waited for converted settings. -/
def State.gateAgain (s : State) (t : Nat) : State :=
  let x := s.gatedRetry t
  if s.hub.migrating then x.loadLanes else x

/-- Hub firmware starts from its slot: settings, claim, journal, recorder, gateway map; the command interface becomes ready, and lanes that
wait for the hub load their images. -/
def State.startFirmware (s : State) (t : Nat) : State :=
  let k := s.pointer.slotFor 1
  let s := ((s.startJournal.startSettings (hdrSetfmt (s.slotHdr k))).startClaim).recStart t
  let area := s.areaBytes s.hub.upd.setArea s.hub.upd.setLen
  let s := s.modHub fun h => (((h.sgwLoadSection area).startPair t).setRg HCMD_SEQ h.topSeq).fset HCMD_STAT_READY 1
  let s := { s with hub := { s.hub with up := true }, aon := { s.aon with hubStep := none, hubRevert := false } }
  (allLanes.foldl (fun (s : State) l => s.upLane l (·.fset BRG_STAT_HUBUP 1)) (s.faultPin 4 false)).loadLanes

/-- The hub is released: `HOST_SEL` is sampled; at a wake the retained region is checked (R434, R514); firmware starts, or the loader when no slot verifies. -/
def State.releaseHub (s : State) (strap : Bool) (t : Nat) : State :=
  if !(s.hub.rst.mayRelease .hub t && s.aon.pwr.hubPowered && s.aon.resetNLow.isNone) then s
  else
    let s := { s with aon := { s.aon with hostSel := strap } }
    let s := if s.hub.rst.cold then s.clearMailboxes else s
    let s := s.modHub fun h =>
      let h := ((h.liveRegs s.aon.rtcOk (!strap)).fset HCMD_STAT_HOSTSPI (b2n strap)).fset HCMD_ID_VAR (if s.split then 0x4E else 0x53)
      { h.repair with rst := h.rst.release t }
    let s := s.raiseRails
    let s := if s.waking then s.wakeCheck else s
    if [0, 1].any s.slotVerifies then (s.startSlots).startFirmware t else s.startLoader

/-- The FIELD die is released (R239, R489). -/
def State.releaseField (s : State) (t : Nat) : State :=
  if s.fieldRst.mayRelease .field t && s.field.powered && s.aon.resetNLow.isNone then
    { s with fieldRst := s.fieldRst.release t, field := { s.field with periodT := t, lastCmd := t } }
  else s

/-! ### Block-alone reset (R386, R500, R501) -/

/-- The codes of R386. -/
def blockCodes : List Nat :=
  (upTo 6).map (0x10 + ·) ++ [0x20] ++ (upTo 4).map (0x30 + ·) ++ (upTo 4).map (0x40 + ·) ++ [0x50] ++ (upTo 2).map (0x60 + ·) ++
    [0x70, 0x71, 0x72]

/-- The idle timeout of a block in ns (R500). -/
def Hub.idleTimeout (h : Hub) (c : Nat) : Nat :=
  if c / 16 = 1 then h.cycleNs (c % 16) + 1000000
  else if c / 16 = 4 then 2000000
  else if c / 16 = 6 then 3000000
  else if c = 0x70 then 5000000
  else if c = 0x71 then 10000000
  else 1000000

/-- A block is asked to go idle: one block at a time. -/
def Hub.blockAsk (h : Hub) (c t : Nat) : Hub :=
  if blockCodes.contains c && h.brst.isNone then { h.fset RSTC_BSTAT_BUSY 1 with brst := some (c, t) } else h

/-- Opcodes of the commands a block serves. -/
def blockOps (c : Nat) : List Nat :=
  if c / 16 = 1 then [0x0801, 0x0802, 0x0803, 0x0804]
  else if c = 0x20 then [0x0707, 0x0806]
  else if c = 0x70 then [0x0601, 0x0602]
  else if c = 0x71 then [0x0301, 0x0302, 0x0303, 0x0701, 0x0702, 0x0703, 0x0704, 0x0705, 0x0706]
  else if c = 0x72 then [0x0401, 0x0402, 0x0404]
  else []

/-- A command is being served by the block: a ring command names its ring in its first parameter byte. -/
def Hub.servedBy (h : Hub) (c : Nat) (x : HostCmd) : Bool :=
  x.active && x.status.isNone && (blockOps c).contains x.op &&
    (c / 16 != 1 || (memByte h.sram (slotAddr x.q x.slot + 32)).toNat == c % 16)

/-- The block's own state after its reset; its configuration is the one firmware reloads. -/
def State.blockClear (s : State) (c t : Nat) : State :=
  if c / 16 = 1 then
    let k := c % 16
    s.modHub fun h =>
      let regs := [RING_STAT k, RING_CYCLE k, RING_CLAIM k, RING_LOOP k, RING_BRK k, RING_PRESLO k, RING_PRESHI k, RING_ACKLO k, RING_ACKHI k, RING_ERR k]
      let unmanned := h.on (RING_STAT_UNMANNED k)
      let h := (regs.foldl (fun (h : Hub) a => h.setRg a 0) h).modRing k fun (_ : RingInt) => ringReset
      if unmanned then h.fset (RING_STAT_UNMANNED k) 1 else if h.on (RING_CTRL_EN k) then h.ringStart k t else h
  else if c = 0x20 then
    s.modHub fun h =>
      { (h.fset PTNR_STAT_UP0 0).fset PTNR_STAT_UP1 0 with
        ptnr := { h.ptnr with seen := [], fwdList := none, fwdTlgs := [], hbOut := [], yieldOut := [], ackOut := [], estOut := [], fwdFrames := [], fwdOut := none } }
  else if c / 16 = 4 then
    let k := c % 16
    s.modHub fun h =>
      let h := (h.setRg (SGW_CANSTAT k) 0).setRg (SGW_CANCNT k) 0
      (h.sgw.dests.filter fun d => sdPort d.2 == k).foldl (fun (h : Hub) d => h.modDest d.1 fun (x : SgwDest) => { x with buf := none }) h
  else if c = 0x50 then s.modHub fun h => { h with sgw := { h.sgw with vals := [], run := [] } }
  else if c = 0x70 then (s.modHub fun h => { (h.setRg REC_STAT (h.rg REC_STAT &&& 0xFFFF0004#32)).setRg REC_HEAD 0 with rcd := recReset }).recStart t
  else if c = 0x71 then s.modHub fun h => { h with upd := { h.upd with gated := h.upd.gated.filter fun g => g.cmd.isNone } }
  else if c = 0x72 then s.modHub fun h => { h with asm := [] }
  else s

/-- The block is isolated, reset and released: the commands it serves end BLOCK_RESET, those that asked for the reset end OK. -/
def State.blockFinish (s : State) (t : Nat) (forced : Bool) : State :=
  match s.hub.brst with
  | none => s
  | some (c, _) =>
    let asked := s.hub.host.reinit
    let lost := s.hub.host.cmds.filter (s.hub.servedBy c)
    let s := lost.foldl (fun (s : State) x => s.modHub (·.endCmd x stBlockReset 0 0 [])) s
    let s := s.modHub fun h =>
      let h := (h.fset RSTC_BSTAT_BUSY 0).fset RSTC_BSTAT_LAST c
      let h := if forced then h.fset RSTC_BSTAT_FORCED 1 else h
      { h with brst := none, host := { h.host with reinit := [] } }
    asked.foldl (fun (s : State) r => s.endWith r stOk 0) (s.blockClear c t)

/-- FUNC_REINIT: starts the reset of a block, or joins one that runs (R501). -/
def State.funcReinit (s : State) (r : CmdRef) (c t : Nat) : State :=
  let join (s : State) : State := s.modHub fun h => { h with host := { h.host with reinit := insertL r h.host.reinit } }
  if !blockCodes.contains c then s.endWith r stBadParam 0
  else
    match s.hub.brst with
    | none => join (s.modHub (·.blockAsk c t))
    | some (d, _) => if c = d then join s else s

/-- The idle timeout has run out. -/
def State.blockTimeout (s : State) (t : Nat) : State :=
  match s.hub.brst with
  | some (c, since) => if since + s.hub.idleTimeout c ≤ t then s.blockFinish t true else s
  | none => s

/-! ### Meanings -/

/-- RESET_RELEASE (R495). -/
def execResetRelease (d : Die) (strap : Bool) (t : Nat) (s : State) : Host.Outcome State Fault Refusal :=
  done (match d with
    | .lane l => (s.at t).releaseLane l strap t
    | .hub => (s.at t).releaseHub strap t
    | .field => (s.at t).releaseField t)
/-- GATED_WRITE_RETRY (R479). -/
def execGatedWriteRetry (t : Nat) (s : State) : Host.Outcome State Fault Refusal := done ((s.at t).gateAgain t)
/-- BLOCK_RESET (R500). -/
def execBlockReset (v : Word) (t : Nat) (s : State) : Host.Outcome State Fault Refusal :=
  done ((s.at t).upHub (·.blockAsk (bvField v 0 8) t))
/-- BLOCK_IDLE_ACK (R500). -/
def execBlockIdleAck (t : Nat) (s : State) : Host.Outcome State Fault Refusal := done ((s.at t).blockFinish t false)
/-- BLOCK_IDLE_TIMEOUT (R500). -/
def execBlockIdleTimeout (t : Nat) (s : State) : Host.Outcome State Fault Refusal := done ((s.at t).blockTimeout t)
/-- FUNC_REINIT (R386). -/
def execFuncReinit (r : CmdRef) (block : Byte) (t : Nat) (s : State) : Host.Outcome State Fault Refusal :=
  done ((s.at t).hCmd r 0x0A04 (·.funcReinit r block.toNat t))

end Sys2Proof.Machine
end

