-- ==== Sys2Proof/Machine/Cores.lean ====
section
/-! DEFINITION. Core registers and traps, interrupt lines, the signature checker, debug and bench mode, split-core mode, watchdog and lock-up
(R184 to R204). -/

namespace Sys2Proof.Machine

/-! ### Core registers and traps (R188) -/

/-- The trap-return instruction reverses the copies and goes on at `epc`. -/
def CoreRegs.trapReturn (c : CoreRegs) : CoreRegs :=
  let s := (c.setBit stIE (c.bit stPIE)).setBit stSUP (c.bit stPSUP)
  { s with pc := c.epc }

/-- Illegal instruction. -/
def excIllegal : Nat := 1

/-- The system registers software may write. -/
def sysWritable (num : Nat) : Bool := num == 0 || num == 1 || num == 2 || num == 5

/-- SYSREG_WRITE: at user level, and for a register that is read only or does not exist, an illegal instruction exception. -/
def CoreRegs.sysWrite (c : CoreRegs) (num : Nat) (v insn : Word) : CoreRegs :=
  if !c.bit stSUP || !sysWritable num then c.trap (BitVec.ofNat 32 excIllegal) insn
  else if num = 0 then { c with status := (v &&& 0x1B) ||| (c.status &&& 0x4) }
  else if num = 1 then { c with tvec := v &&& 0xFFFFFF00 }
  else if num = 2 then { c with epc := v }
  else { c with scratch := v }

/-- The system register `num` of a core as a read gives it; none where no register has the number (Core registers). -/
def CoreRegs.sysValue (c : CoreRegs) (num : Nat) : Option Word :=
  match num with
  | 0x000 => some c.status
  | 0x001 => some c.tvec
  | 0x002 => some c.epc
  | 0x003 => some c.cause
  | 0x004 => some c.tval
  | 0x005 => some c.scratch
  | 0x010 => some (c.cycle.setWidth 32)
  | 0x011 => some c.cycleh
  | 0x012 => some (c.instret.setWidth 32)
  | 0x013 => some c.instreth
  | 0x020 => some c.laneid
  | 0x021 => some c.implid
  | 0x022 => some c.coreid
  | _ => none

/-- Write general register `rd`: writes to g0 are discarded. -/
def CoreRegs.setG (c : CoreRegs) (rd : Nat) (v : Word) : CoreRegs := if rd = 0 then c else { c with g := c.g.set rd v }

/-- A read of a system register into `rd`: a read of `cycle` or `instret` latches the high word; a number that no register has is an illegal
instruction (Assumption 99). -/
def CoreRegs.sysRead (c : CoreRegs) (num rd : Nat) (insn : Word) : CoreRegs :=
  match c.sysValue num with
  | none => c.trap (BitVec.ofNat 32 excIllegal) insn
  | some v =>
    let c := if num = 0x010 then { c with cycleh := BitVec.ofNat 32 (c.cycle.toNat / 2 ^ 32) }
      else if num = 0x012 then { c with instreth := BitVec.ofNat 32 (c.instret.toNat / 2 ^ 32) } else c
    c.setG rd v

/-- Core cycles since the lane's reset release (`cycle`): 1 GHz in lanes A and C, 800 MHz in lane B (R14). -/
def Lane.cycles (l : Lane) (t : Nat) : Dword :=
  BitVec.ofNat 64 ((t - l.rst.relT) * (match l.id with | .b => 4 | _ => 5) / 5)

/-- `cycle` brought up to instant `t` in both cores. -/
def Lane.showCycles (l : Lane) (t : Nat) : Lane :=
  { l with core0 := { l.core0 with cycle := l.cycles t }, core1 := { l.core1 with cycle := l.cycles t } }

/-- A core of a lane. -/
def Lane.core (l : Lane) (n : Nat) : CoreRegs := if n = 0 then l.core0 else l.core1

/-- Apply an effect of the program to the core concerned: in lock-step both cores execute it (R184). -/
def Lane.onCores (l : Lane) (split : Bool) (n : Nat) (f : CoreRegs → CoreRegs) : Lane :=
  if split then (if n = 0 then { l with core0 := f l.core0 } else { l with core1 := f l.core1 })
  else { l with core0 := f l.core0, core1 := f l.core1 }

/-- Carry out a core's instruction in a lane that is out of reset. -/
def State.coreOp (s : State) (l : LaneId) (n : Nat) (f : CoreRegs → CoreRegs) : State :=
  s.upLane l fun x => x.onCores s.split n f

/-- The lowest line that is pending and enabled (Interrupt lines). -/
def Lane.takenLine (l : Lane) : Option Nat :=
  let p := l.rg LCTL_IRQ_PEND &&& l.rg LCTL_IRQ_EN
  (upTo 11).find? fun n => p.getLsbD n

/-- INTERRUPT_ENTRY: the lowest line is taken by every core whose `IE` is set; `tval` of an interrupt is not given: a free value
(Assumption 4). -/
def State.interruptEntry (s : State) (l : LaneId) : State :=
  let x := s.lane l
  match x.takenLine with
  | some n =>
    if x.rst.held || !(x.core0.bit stIE || x.core1.bit stIE) then s
    else
      let d := s.draw
      let take (c : CoreRegs) : CoreRegs := if c.bit stIE then c.trap (BitVec.ofNat 32 (0x80000000 + n)) d.1 else c
      d.2.modLane l fun y => { y with core0 := take y.core0, core1 := take y.core1 }
  | none => s

/-! ### Signature checker (R190 to R195) -/

/-- The signature of a window: what a core retired, the first fold inverted in bit 0 when the test injects there. -/
def windowSig (rs : List Retired) (inject : Bool) : Dword :=
  match rs, inject with
  | r :: rest, true => rest.foldl misrRetire (misrRetire misrStart { r with pc := r.pc ^^^ 1 })
  | rs, _ => rs.foldl misrRetire misrStart

/-- The next phase of the injection test at a window close. -/
def InjPhase.next : InjPhase → InjPhase
  | .none => .none | .waiting => .k0 | .k0 => .k1 | .k1 => .k2 | .k2 => .k3 | .k3 => .none

/-- A test window runs. -/
def InjPhase.testing : InjPhase → Bool
  | .none => false | .waiting => false | _ => true

/-- The close of test window k + 3 ends the test (R194). -/
def Lane.injEnd (l : Lane) (good : Bool) : Lane :=
  let l := if good then l.fset SIGC_STAT_INJ_PASS 1 else l.fset SIGC_STAT_INJ_FAIL 1
  ((l.fset SIGC_STAT_INJ_RUN 0).fset SIGC_STAT_INJ_DONE 1).raise 9

/-- Retired instructions are counted. -/
def Lane.countRetired (l : Lane) (n0 n1 : Nat) : Lane :=
  { l with core0 := { l.core0 with instret := l.core0.instret + BitVec.ofNat 64 n0 },
           core1 := { l.core1 with instret := l.core1.instret + BitVec.ofNat 64 n1 } }

/-- A window closes at `t` (R190): with 1,024 instructions retired, or 10 µs after it opened. -/
def Lane.windowDue (l : Lane) (n t : Nat) : Bool := n == 1024 || (decide (n < 1024) && decide (l.sig.openT + tenMicros ≤ t))

/-- SIGNATURE_WINDOW_CLOSE: outside the test a mismatch makes the lane leave with LANE_FAULT, or with DEBUG once lock-step is broken by debug (R191, R198);
a split-core lane compares nothing and fails every test (R201). -/
def State.windowClose (s : State) (l : LaneId) (r0 r1 : List Retired) (t : Nat) : State :=
  if !(s.lane l).windowDue r0.length t then s
  else
  let x := ((s.lane l).countRetired r0.length r1.length).showCycles t
  let ph := x.sig.phase
  let m0 := windowSig r0 (ph == .k0)
  let m1 := windowSig r1 (ph == .k2)
  let differ := !s.split && m0 != m1
  let x := x.setRg SIGC_WCNT (x.rg SIGC_WCNT + 1)
  let x := if differ then
      (((x.setRg SIGC_SIG0_LO (BitVec.ofNat 32 m0.toNat)).setRg SIGC_SIG0_HI (BitVec.ofNat 32 (m0.toNat / 2 ^ 32))).setRg
        SIGC_SIG1_LO (BitVec.ofNat 32 m1.toNat)).setRg SIGC_SIG1_HI (BitVec.ofNat 32 (m1.toNat / 2 ^ 32))
    else x
  let expected := (ph == .k0 || ph == .k2) == differ
  let good := if ph.testing then x.sig.good && expected else true
  let ret := if r0.isEmpty && r1.isEmpty then x.sig.retT else t
  let x := { x with sig := { misr0 := misrStart, misr1 := misrStart, phase := ph.next, good := good, openT := t, retT := ret } }
  let x := if ph = .k3 then x.injEnd (good && !s.split) else x
  if differ && !ph.testing then
    let s := s.setLane l (x.fset SIGC_STAT_MISMATCH 1)
    s.leaveAtOnce l (if x.on SIGC_STAT_DBG_BROKE then leaveDebug else leaveLaneFault) causeSwr
  else s.setLane l x

/-- INJECTION_TEST_START: before the lane has armed, and while no test runs (R193, R195). -/
def Lane.injStart (l : Lane) : Lane :=
  if (l.unarmed || l.joining) && !l.on SIGC_STAT_INJ_RUN then
    { (l.fset SIGC_STAT_INJ_RUN 1).fset SIGC_STAT_INJ_FAIL 0 with sig := { l.sig with phase := .waiting, good := true } }
  else l.fset SIGC_STAT_INJ_IGN 1

/-! ### Debug and bench mode (R196 to R200) -/

/-- DEBUG_HALT: lock-step is broken, the lane leaves with DEBUG, and outside bench mode the module enters easy all. -/
def State.debugHalt (s : State) (l : LaneId) : State :=
  let x := s.lane l
  if x.rst.held then s
  else
    let bench := x.on LCTL_STAT_BENCH
    let s := s.setLane l (x.fset SIGC_STAT_DBG_BROKE 1)
    let s := s.recLane l 10 2 197 []
    let s := s.leaveAtOnce l leaveDebug causeSwr
    if bench then s else s.enterEasy l easyDebugHalt false

/-! ### Split-core mode (R201) -/

/-- CORE1_START: ignored unless the lane is split; else core 1 leaves its wait at the address. -/
def Lane.core1Start (l : Lane) (split : Bool) (v : Word) : Lane :=
  if split then
    let a := v &&& 0xFFFFFFFC
    { l.setRg LCTL_C1START a with core1 := { l.core1.setBit stWAIT false with pc := a } }
  else l

/-! ### Watchdog and lock-up (R202 to R204) -/

/-- The watchdog's time unit in ns. -/
def Lane.wdtUnit (l : Lane) : Nat := if l.on WDT_CFG_UNIT then 1000000 else 10000
/-- The watchdog is stopped: in bench mode only. -/
def Lane.wdtStopped (l : Lane) : Bool := l.on WDT_CFG_STOP && l.on LCTL_STAT_BENCH
/-- `WDT_STAT.SINCE` at time `t`. -/
def Lane.wdtSince (l : Lane) (t : Nat) : Nat := min 65535 ((t - l.wdt.last) / l.wdtUnit)

/-- An expiry: leave with LANE_FAULT, reset with cause WDT. -/
def State.wdtExpire (s : State) (l : LaneId) : State := s.requestReset l leaveLaneFault causeWdt false

/-- WDT_KICK: the two keys as consecutive writes; a kick too early or too late, or a wrong second write, is an expiry; the first completed kick
locks `WDT_CFG` (R202, R203). -/
def State.wdtKick (s : State) (l : LaneId) (v : Word) (t : Nat) : State :=
  let x := s.lane l
  let u := x.wdtUnit
  if !x.wdt.key1 then s.setLane l { x with wdt := { x.wdt with key1 := v == 0xC35A#32 } }
  else
    let early := decide (t < x.wdt.last + x.fget WDT_CFG_OPEN * u)
    let late := decide (x.wdt.last + x.fget WDT_CFG_CLOSE * u < t)
    let bad := v != 0x3CA5#32 || early || late
    let y := { x with wdt := { x.wdt with key1 := false } }
    let y := if v = 0x3CA5#32 then y.fset WDT_STAT_LOCKED 1 else y
    let y := if v = 0x3CA5#32 ∧ (!bad || x.wdtStopped) = true then { y with wdt := { last := t, key1 := false } } else y
    if bad && !x.wdtStopped then (s.setLane l y).wdtExpire l else s.setLane l y

/-- WDT_WARNING: `WARN` units before `CLOSE`. -/
def Lane.wdtWarn (l : Lane) (t : Nat) : Lane :=
  let due := l.wdt.last + (l.fget WDT_CFG_CLOSE - l.fget WDT_CFG_WARN) * l.wdtUnit
  if l.wdtStopped || decide (t < due) then l else (l.fset WDT_STAT_WARNED 1).raise 8

/-- WDT_EXPIRY: no kick until `CLOSE`. -/
def State.wdtTimeout (s : State) (l : LaneId) (t : Nat) : State :=
  let x := s.lane l
  if x.wdtStopped || decide (t < x.wdt.last + x.fget WDT_CFG_CLOSE * x.wdtUnit) then s else s.wdtExpire l

/-- WDT_CFG_WRITE: until the first completed kick, and only with `OPEN` below `CLOSE` (R203). -/
def Lane.wdtCfgWrite (l : Lane) (v : Word) : Lane :=
  if l.on WDT_STAT_LOCKED || decide (bvField v 0 12 ≤ bvField v 12 12) then l.fset WDT_STAT_CFG_IGN 1 else l.setRg WDT_CFG v

/-- LOCKUP: during trap entry, or 100 µs without retirement while the core pair does not wait (R204). -/
def State.lockup (s : State) (l : LaneId) (inTrap : Bool) (t : Nat) : State :=
  let x := s.lane l
  if inTrap || (!x.core0.bit stWAIT && decide (x.sig.retT + 100000 ≤ t)) then s.requestReset l leaveLaneFault causeLockup false else s

/-- A bench grant reaches a lane: the hub gives it after a verified token, and none while the 32.768 kHz clock has failed (R199, R488). -/
def State.benchGrant (s : State) (l : LaneId) : State :=
  if s.hub.host.granted.contains l && !s.hub.on CLKC_HSTAT_AON_FAIL then
    (s.upLane l (·.fset LCTL_STAT_AUTH 1)).modHub fun h => { h with host := { h.host with granted := removeL l h.host.granted } }
  else s

/-! ### Meanings -/

/-- TRAP (R188). -/
def execTrap (l : LaneId) (core code : Nat) (tval : Word) (s : State) : Host.Outcome State Fault Refusal :=
  done (s.coreOp l core (·.trap (BitVec.ofNat 32 (code % 32)) tval))
/-- TRAP_RETURN (R188). -/
def execTrapReturn (l : LaneId) (core : Nat) (s : State) : Host.Outcome State Fault Refusal := done (s.coreOp l core (·.trapReturn))
/-- INTERRUPT_ENTRY (R185). -/
def execInterruptEntry (l : LaneId) (s : State) : Host.Outcome State Fault Refusal := done (s.interruptEntry l)
/-- SYSREG_WRITE (R188): a write of a system register, or a read of one into `rd`. -/
def execSysregWrite (l : LaneId) (core num : Nat) (acc : Access) (rd : Nat) (insn : Word) (s : State) : Host.Outcome State Fault Refusal :=
  done (match acc with
    | .write v => s.coreOp l core (·.sysWrite num v insn)
    | .read => (s.upLane l (·.showCycles s.now)).coreOp l core (·.sysRead num rd insn))
/-- SWI_SET (R189). -/
def execSwiSet (l : LaneId) (s : State) : Host.Outcome State Fault Refusal := done (s.upLane l (·.raise 10))
/-- SIGNATURE_WINDOW_CLOSE (R190). -/
def execSignatureWindowClose (l : LaneId) (r0 r1 : List Retired) (t : Nat) (s : State) : Host.Outcome State Fault Refusal :=
  done ((s.at t).ifUp l (·.windowClose l r0 r1 t))
/-- INJECTION_TEST_START (R193). -/
def execInjectionTestStart (l : LaneId) (s : State) : Host.Outcome State Fault Refusal := done (s.upLane l (·.injStart))
/-- DEBUG_HALT (R197). -/
def execDebugHalt (l : LaneId) (s : State) : Host.Outcome State Fault Refusal := done (s.debugHalt l)
/-- BENCH_GRANT (R199). -/
def execBenchGrant (l : LaneId) (s : State) : Host.Outcome State Fault Refusal := done (s.benchGrant l)
/-- CORE1_START (R201). -/
def execCore1Start (l : LaneId) (v : Word) (s : State) : Host.Outcome State Fault Refusal := done (s.upLane l (·.core1Start s.split v))
/-- WDT_KICK (R202). -/
def execWdtKick (l : LaneId) (v : Word) (t : Nat) (s : State) : Host.Outcome State Fault Refusal := done ((s.at t).ifUp l (·.wdtKick l v t))
/-- WDT_WARNING (R202). -/
def execWdtWarning (l : LaneId) (t : Nat) (s : State) : Host.Outcome State Fault Refusal := done ((s.at t).upLane l (·.wdtWarn t))
/-- WDT_EXPIRY (R202). -/
def execWdtExpiry (l : LaneId) (t : Nat) (s : State) : Host.Outcome State Fault Refusal := done ((s.at t).ifUp l (·.wdtTimeout l t))
/-- WDT_CFG_WRITE (R203). -/
def execWdtCfgWrite (l : LaneId) (v : Word) (s : State) : Host.Outcome State Fault Refusal := done (s.upLane l (·.wdtCfgWrite v))
/-- LOCKUP (R204). -/
def execLockup (l : LaneId) (inTrap : Bool) (t : Nat) (s : State) : Host.Outcome State Fault Refusal :=
  done ((s.at t).ifUp l (·.lockup l inTrap t))

end Sys2Proof.Machine
end

