-- ==== Sys2Proof/Machine/Flags.lean ====
section
/-! DEFINITION. Status words as a read shows them: fields that are fixed per die or follow the time, the reads that latch, and what a write
leaves of a status word (R6, R7, R9). -/

namespace Sys2Proof.Machine

/-- RW1C bits of a lane register that hardware sets in the clock of a write: a bit both set and cleared ends set (R7). -/
def Lane.hwSet (l : Lane) (a : Nat) (hw : Word) : Lane :=
  match descOf laneRegs a with
  | some d => if hw = 0 then l else l.setRg a (l.rg a ||| (hw &&& BitVec.ofNat 32 d.w1c))
  | none => l

/-- RW1C bits of a hub register that hardware sets in the clock of a write: a bit both set and cleared ends set (R7). -/
def Hub.hwSet (h : Hub) (a : Nat) (hw : Word) : Hub :=
  match descOf hubRegs a with
  | some d => if hw = 0 then h else h.setRg a (h.rg a ||| (hw &&& BitVec.ofNat 32 d.w1c))
  | none => h

/-- `LCTL_ID`: stepping and lane code, fixed per die. -/
def Lane.idWord (l : Lane) : Word := BitVec.ofNat 32 ((Config.dieStep l.id.idx).toNat * 256 + l.id.code)

/-- `XL_STAT` with the lanes at the far ends, fixed per die. -/
def Lane.xlStatWord (l : Lane) : Word := bvSet (bvSet (l.rg XL_STAT) 4 2 l.id.succ.idx) 6 2 l.id.pred.idx

/-- `FLDP_STAT`: `LINK` shows a valid frame within the last 0.5 ms. -/
def Lane.fldpStatWord (l : Lane) (now : Nat) : Word :=
  let link := match l.fld.lastValid with | some v => decide (now ≤ v + halfMilli) | none => false
  bvSet (l.rg FLDP_STAT) 0 1 (b2n link)

/-- `WDT_STAT` with the time since the last kick. -/
def Lane.wdtStatWord (l : Lane) (now : Nat) : Word := bvSet (l.rg WDT_STAT) 16 16 (l.wdtSince now)

/-- `FLDP_FRAME` word `i`: bytes 4i to 4i + 3 of the latest valid frame, the first in bits 31:24. -/
def Lane.frameWord (l : Lane) (i : Nat) : Word := BitVec.ofNat 32 (beAt (padTo 64 l.fld.frame) (4 * i) 4)

/-- A `VOTE_RGNn_m_DESC` word: context 0's first two regions read their fixed kind, size and `SAFE`, and a `FIELD` or `TLG` region reads `SAFE` 1
(R151, R152). -/
def Lane.descWord (l : Lane) (a : Nat) : Word :=
  let i := (a - 0x40001204) / 8
  let r := l.region (i / 8) (i % 8)
  let w := l.rg a
  let w := bvSet w (VOTE_RGN_DESC_SAFE i).lo (VOTE_RGN_DESC_SAFE i).w (b2n r.safe)
  if i < 2 then
    bvSet (bvSet w (VOTE_RGN_DESC_KIND i).lo (VOTE_RGN_DESC_KIND i).w r.kind) (VOTE_RGN_DESC_NSEG i).lo (VOTE_RGN_DESC_NSEG i).w r.nseg
  else w

/-- A lane register as a read shows it, timebase and catch registers included. -/
def Lane.shown (l : Lane) (now a : Nat) : Word :=
  if a = LCTL_ID then l.idWord
  else if a = XL_STAT then l.xlStatWord
  else if a = FLDP_STAT then l.fldpStatWord now
  else if a = WDT_STAT then l.wdtStatWord now
  else if 0x4000C400 ≤ a ∧ a < 0x4000C440 then l.frameWord ((a - 0x4000C400) / 4)
  else if 0x40001200 ≤ a ∧ a < 0x40001400 ∧ a % 8 = 4 then l.descWord a
  else if a = 0x40001100 then bvSet (l.rg a) (VOTE_CFG_EN 0).lo 1 1
  else if a = TMR_TB_LO then BitVec.ofNat 32 l.fol.time
  else if a = TMR_TB_HI then l.fol.tbHi
  else if a = TMR_CATCH_LO then BitVec.ofNat 32 l.fol.tn
  else if a = TMR_CATCH_HI then l.fol.catchHi
  else l.rg a

/-- What a read latches: `TMR_TB_LO` the upper timebase word, `TMR_CATCH_LO` that of T_n. -/
def Lane.latched (l : Lane) (a : Nat) : Lane :=
  if a = TMR_TB_LO then { l with fol := { l.fol with tbHi := BitVec.ofNat 32 (l.fol.time / 2 ^ 32) } }
  else if a = TMR_CATCH_LO then { l with fol := { l.fol with catchHi := BitVec.ofNat 32 (l.fol.tn / 2 ^ 32) } }
  else l

/-- A write of `HCMD_STAT`: RW1C bits clear, and with none left the status cause of R376 no longer stands. -/
def Hub.statWrite (h : Hub) (v : Word) : Hub :=
  let h := h.setRg HCMD_STAT (h.rg HCMD_STAT &&& ~~~(v &&& 0xF0E0#32))
  if (h.rg HCMD_STAT &&& 0xF0E0#32) = 0 then { h with host := { h.host with irq := h.host.irq &&& 0xF#5 } } else h

end Sys2Proof.Machine
end

