-- ==== Sys2Proof/Machine/Access.lean ====
section
/-! DEFINITION. Bus accesses by address: the lane map, the hub map, BAR0 and the SPI host port (R5, R6, R10, R368, R568 to R572, Address
Map). A write of a register that has a row of its own does what that row does. -/

namespace Sys2Proof.Machine

/-! ### Lane register writes -/

/-- A write in the timer block. -/
def State.tmrWrite (s : State) (l : LaneId) (a : Nat) (v : Word) : State :=
  if a = TMR_STROKE then s.upLane l (·.strokeWrite v)
  else if a = TMR_CTRL then
    let s := if v.getLsbD 1 then s.upLane l (·.setRg TMR_CMAX 0) else s
    if v.getLsbD 0 then s.arm l else s
  else s.upLane l (·.plainWrite a v)

/-- A write of a control register of the route engine (R99, R101, R103, R149). -/
def State.rleCtlWrite (s : State) (l : LaneId) (a : Nat) (v : Word) : State :=
  s.upLane l fun x =>
    if a = RLE_CTRL then
      let x := (x.fset RLE_CTRL_IE_ERR (bvField v 2 1)).fset RLE_CTRL_IE_DONE (bvField v 1 1)
      if v.getLsbD 0 then x.lockStation else x
    else if a = RLE_CMD then
      (if v.getLsbD 0 && v.getLsbD 1 then x.rleFlag RLE_STAT_BUS_ERR
       else if v.getLsbD 0 then x.startCheck
       else if v.getLsbD 1 then x.startStroke
       else if x.on RLE_STAT_BUSY then x.rleFlag RLE_STAT_BUS_ERR
       else x)
    else if a = RLE_NREQ then x.writeNreq v
    else if a = RLE_CLR then (if v.getLsbD 0 then x.setRg RLE_VMAX 0 else x)
    else if a = RLE_INBASE then x.writeBase false v
    else if a = RLE_OUTBASE then x.writeBase true v
    else x.plainWrite a v

/-- A write in the vote block: `EASY` before `LEAVE` before `READMIT` where one write asks for several. -/
def State.voteWrite (s : State) (l : LaneId) (a : Nat) (v : Word) : State :=
  if a = VOTE_CMD then
    (if v.getLsbD 2 then s.enterEasy l easyFirmware false
     else if v.getLsbD 0 then s.leaveAtOnce l leaveFirmware causeSwr
     else if v.getLsbD 1 then s.readmit l
     else s)
  else if voteCfgReg (a - 0x40001000) then s.upLane l (·.voteCfgWrite (a - 0x40001000) v)
  else s.upLane l (·.plainWrite a v)

/-- A write in the link block. -/
def State.xlWrite (s : State) (l : LaneId) (a : Nat) (v : Word) : State :=
  s.linksAfter <| s.upLane l fun x =>
    if a = XL_CTRL then
      let x := if v.getLsbD 0 then x.setRg XL_ERR0 0 else x
      let x := if v.getLsbD 1 then x.setRg XL_ERR1 0 else x
      let x := if v.getLsbD 2 then x.retrainNow 0 s.now else x
      if v.getLsbD 3 then x.retrainNow 1 s.now else x
    else x.plainWrite a v

/-- A write in the lane control block; line 6 is a level and stands again while the error queue holds a record (R399). -/
def State.lctlWrite (s : State) (l : LaneId) (a : Nat) (v : Word) : State :=
  s.upLane l fun x =>
    if a = LCTL_SWI then (if v.getLsbD 0 then x.raise 10 else x)
    else if a = LCTL_C1START then x.core1Start s.split v
    else if a = LCTL_IRQ_PEND then (x.plainWrite a v).brgShow
    else x.plainWrite a v

/-- A write in the CRC block. -/
def State.laneCrcWrite (s : State) (l : LaneId) (a : Nat) (v : Word) : State :=
  s.upLane l fun x =>
    if a = CRC_CTRL then x.crcStart v
    else if a = CRC_DATA then x.crcData .word v
    else x.plainWrite a v

/-- A write in the bridge block. -/
def State.brgRegWrite (s : State) (l : LaneId) (a : Nat) (v : Word) : State :=
  s.upLane l fun x =>
    if brgCfgReg (a - 0x4000B000) then x.brgCfgWrite (a - 0x4000B000) v
    else if a = BRG_RESUME then x.brgResume v 0
    else if a = BRG_EQ_POP then (if v.getLsbD 0 then ({ x with brg := { x.brg with errs := x.brg.errs.drop 1 } }).brgShow else x)
    else if a = BRG_HMSG_POP then (if v.getLsbD 0 then ({ x with brg := { x.brg with hubMsgs := x.brg.hubMsgs.drop 1 } }).brgShow else x)
    else if a = BRG_MSG then x.brgMsg v
    else if a = BRG_CNT then x.setRg BRG_CNT 0
    else if 0x4000B100 ≤ a ∧ a < 0x4000B180 then
      let n := (a - 0x4000B100) / 4
      let x := if v.getLsbD 9 then x.semGive n false else x
      if v.getLsbD 8 then x.semTake n true false else x
    else x.plainWrite a v

/-- A write in the field port block. -/
def State.fldpWrite (s : State) (l : LaneId) (a : Nat) (v : Word) : State :=
  if a = FLDP_CAL then s.calRequest l v s.now
  else if fldpCfgReg (a - 0x4000C000) then s.upLane l (·.fldpCfgWrite (a - 0x4000C000) v)
  else s.upLane l (·.plainWrite a v)

/-- `CLKC_CTRL` in a lane: only in sit ready before arming; the spread follows it (R482). -/
def Lane.spreadWrite (l : Lane) (v : Word) : Lane :=
  if l.unarmed then let x := l.plainWrite CLKC_CTRL v; x.fset CLKC_STAT_SSC (1 - x.fget CLKC_CTRL_SSC_OFF) else l

/-- `CLKC_CTRL` in the hub: only before the first ring is enabled. -/
def Hub.spreadWrite (h : Hub) (v : Word) : Hub :=
  if (upTo 6).any fun k => h.on (RING_CTRL_EN k) then h
  else let x := h.plainWrite HCLKC_CTRL v; x.fset CLKC_HSTAT_SSC (1 - x.fget HCLKC_CTRL_SSC_OFF)

/-- An aligned word write of a lane register, by block index (Address Map). -/
def State.laneRegWrite (s : State) (l : LaneId) (a : Nat) (v : Word) : State :=
  match (a - 0x40000000) / 0x1000 with
  | 0 => s.lctlWrite l a v
  | 1 => s.voteWrite l a v
  | 2 => s.xlWrite l a v
  | 3 => s.laneCrcWrite l a v
  | 4 => s.tmrWrite l a v
  | 5 => if a = WDT_CFG then s.upLane l (·.wdtCfgWrite v) else if a = WDT_KICK then s.wdtKick l v s.now else s.upLane l (·.plainWrite a v)
  | 6 => if a = RSTC_SWR then s.swr (.lane l) v else s.upLane l (·.plainWrite a v)
  | 7 => if a = CLKC_CTRL then s.upLane l (·.spreadWrite v) else s.upLane l (·.plainWrite a v)
  | 8 => if a = PWRC_VSET then s.upLane l (·.vsetWrite v) else s.upLane l (·.plainWrite a v)
  | 10 => if a = SIGC_CTRL then s.upLane l fun x => if v.getLsbD 0 then x.injStart else x else s.upLane l (·.plainWrite a v)
  | 11 => s.brgRegWrite l a v
  | 12 => s.fldpWrite l a v
  | _ => s.upLane l (·.plainWrite a v)

/-! ### The lane map -/

/-- `n` bytes of a die's ROM, its contents open (Assumption 24). -/
def romWord (die a n : Nat) : Word := BitVec.ofNat 32 (ofLe ((upTo n).map fun i => Config.romByte die (a + i)))

/-- A read that answers a value or a bus error. -/
def State.answer (s : State) : Option Word → State
  | some v => s.busData v
  | none => s.busErr

/-- An access goes to the data register of a CRC unit at `base`, which takes aligned bytes and halfwords too (R5, R446). -/
def inCrcData (base a : Nat) : Bool := decide (base ≤ a) && decide (a < base + 4)

/-- An access in a register block, aligned words apart from `CRC_DATA` (R5, R10, R569); hardware sets of the same clock stand after a write (R7). -/
def State.lanePeriph (s : State) (l : LaneId) (a : Nat) (w : Width) (acc : Access) (hw : Word) : State :=
  if a % Width.bytes w ≠ 0 ∨ (w ≠ .word ∧ inCrcData CRC_DATA a = false) then s.busErr
  else match acc with
    | .read => if w ≠ .word then s.busData 0 else
        let s := s.laneAt l s.now
        (s.modLane l (·.latched a)).busData ((s.lane l).shown s.now a)
    | .write v => (if w = .word then (s.laneRegWrite l a v).upLane l (·.hwSet a hw) else s.upLane l (·.crcData w v)).busOk

/-! ### Tasks' accesses to instance data (R213) -/

/-- Offset of an address in the active instance data. -/
def Lane.dataOff (l : Lane) (a : Nat) : Option Nat := if l.dataBase ≤ a ∧ a < l.dataBase + 0x100000 then some (a - l.dataBase) else none

/-- A byte as task `k` reads it: of another task's variable from the copy it took at its catch. -/
def Lane.taskByte (l : Lane) (k : TaskRun) (a : Nat) : Byte :=
  ((l.dataOff a).bind fun o => copyByte k.view o).getD (memByte l.sram a)

/-- A byte a task may not change: of a variable another task owns, or of a forced one (R213, R231). -/
def Lane.keeps (l : Lane) (tnum a : Nat) : Bool :=
  match l.dataOff a with
  | some o => l.vars.any fun v => decide (v.offset ≤ o) && decide (o < v.offset + v.size) &&
      (v.owner != tnum || l.prog.forces.any fun f => f.1.toNat == v.vid)
  | none => false

/-- An access of a running task to lane SRAM: reads of other tasks' variables take the copies, writes to them are discarded. -/
def State.taskSram (s : State) (l : LaneId) (k : TaskRun) (a n nerr : Nat) (acc : Access) : State :=
  let x := s.lane l
  match acc with
  | .read => s.laneRead l a nerr ((x.sramRead a n).map fun _ => BitVec.ofNat 32 (ofLe ((upTo n).map fun i => x.taskByte k (a + i))))
  | .write v =>
    let bs := (leBytes n v.toNat).zipIdx.map fun e => if x.keeps k.tnum (a + e.2) then memByte x.sram (a + e.2) else e.1
    s.laneSram l a n nerr (.write (BitVec.ofNat 32 (ofLe bs)))

/-- An access by a core of lane `l`: the rows of the lane view; an address that no row names answers with a bus error (R568). -/
def State.laneReach (s : State) (l : LaneId) (a : Nat) (w : Width) (acc : Access) (env : AccessEnv) : State :=
  let x := s.lane l
  let n := Width.bytes w
  if a + n ≤ 0x10000 then
    (match acc with | .read => if a % n = 0 then s.busData (romWord l.idx a n) else s.busErr | .write _ => s.busErr)
  else if inSram a 1 then
    (match env.src with
     | .task j => (match x.taskOf j with | some k => s.taskSram l k a n env.nerr acc | none => s)
     | _ => s.laneSram l a n env.nerr acc)
  else if rleArea a ≠ .none then (if w = .word then opCellWindow l a acc env.nerr s else s.busErr)
  else if 0x10100000 ≤ a ∧ a < 0x10180000 then
    (if w ≠ .word ∨ a % 4 ≠ 0 then s.busErr
     else match acc with
       | .read => s.busData (x.rg a)
       | .write v => ((s.rleCtlWrite l a v).upLane l (·.hwSet a env.hw)).busOk)
  else if 0x20000000 ≤ a ∧ a < 0x20040000 then s.mailboxAccess l false (a - 0x20000000) w acc none env.nerr
  else if inBridge a then
    (match acc with
     | .read => s.brgReadStart l (BitVec.ofNat 32 a) w s.now
     | .write v => s.brgWriteStart l (BitVec.ofNat 32 a) w v s.now)
  else if 0x40000000 ≤ a ∧ a < 0x4000E000 then s.lanePeriph l a w acc env.hw
  else s.busErr

/-- An access in lane `l` by its source, a bus error to a core being its exception (R188): of a task only while it runs (R212), of the debug port only in bench mode (R196; outside it the port refuses,
which the model answers with a bus error, Assumption 107). -/
def State.laneAccess (s : State) (l : LaneId) (a : Nat) (w : Width) (acc : Access) (env : AccessEnv) : State :=
  let write := match acc with | .read => false | .write _ => true
  let core (s : State) : State := (s.laneReach l a w acc env).trapOnError l (BitVec.ofNat 32 a) write
  if (s.lane l).rst.held then s
  else match env.src with
    | .firmware => core s
    | .task j => (match (s.lane l).taskRuns j with | some x => core (s.setLane l x) | none => s)
    | .debug => if (s.lane l).on LCTL_STAT_BENCH then s.laneReach l a w acc env else s.busErr

/-! ### Hub register writes -/

/-- A write in the ring block (R304 to R306, R315). -/
def Hub.ringRegWrite (h : Hub) (a : Nat) (v : Word) (t : Nat) : Hub :=
  let k := (a - 0x40004100) / 0x100
  if a = RING_RTBASE then (if (upTo 6).any fun k => h.on (RING_CTRL_EN k) then h else h.plainWrite a v)
  else if a = RING_GCTRL then (if v.getLsbD 0 then h.ratingCheck else h)
  else if a < 0x40004100 ∨ 6 ≤ k then h.plainWrite a v
  else if a = RING_CTRL k then h.ringEnable k v t
  else if a = RING_CMD k then
    let h := if v.getLsbD 0 then h.ringRestart k t else h
    let h := if v.getLsbD 2 then h.annAbandon k abnCancelled else h
    if v.getLsbD 1 then h.ringAnnounce k (bvField v 4 3) else h
  else if a = RING_ERR k then h.setRg a 0
  else h.plainWrite a v

/-- A write in the gateway block (R412): `SGW_MBASE` only while the gateway is off, `NBR` only while its port is (SGW registers). -/
def Hub.sgwRegWrite (h : Hub) (a : Nat) (v : Word) : Hub :=
  if a = SGW_CTRL then
    let h := if v.getLsbD 1 then h.sgwLoadWrite else h
    h.plainWrite a v
  else if a = SGW_MBASE then (if h.on SGW_CTRL_EN then h else h.plainWrite a v)
  else if let some k := (upTo 4).find? fun k => a == SGW_CANCFG k then
    (if h.on (SGW_CANCFG_EN k) then h.plainWrite a (bvSet v 0 2 (h.fget (SGW_CANCFG_NBR k))) else h.plainWrite a v)
  else if (upTo 4).any fun k => a == SGW_CANCNT k then h.setRg a 0
  else h.plainWrite a v

/-- A write in a CRC unit of the hub; the access comes from core 0 (CRC_START and CRC_DATA_WRITE name the requester). -/
def Hub.hubCrcWrite (h : Hub) (u a : Nat) (v : Word) : Hub :=
  if a = HCRC_CTRL u then h.crcStart u 0 v else if a = HCRC_DATA u then h.crcData u 0 .word v else h.plainWrite a v

/-- An aligned word write of a hub register in blocks 0 to 10. -/
def State.hubRegWrite (s : State) (a : Nat) (v : Word) : State :=
  match (a - 0x40000000) / 0x1000 with
  | 2 => s.upHub (·.hubCrcWrite 0 a v)
  | 3 => s.upHub (·.hubCrcWrite 1 a v)
  | 4 => s.upHub (·.ringRegWrite a v s.now)
  | 5 => s.upHub fun h => if a = PTNR_CNT then h.setRg a 0 else h.plainWrite a v
  | 7 => s.upHub (·.sgwRegWrite a v)
  | 8 => if a = HRSTC_SWR then s.swr .hub v else s.upHub fun h => if a = RSTC_BRST then h.blockAsk (bvField v 0 8) s.now else h.plainWrite a v
  | 9 => s.upHub fun h => if a = HCLKC_CTRL then h.spreadWrite v else h.plainWrite a v
  | _ => s.upHub (·.plainWrite a v)

/-! ### HCMD and BAR0 (R367, R374, R377, R387) -/

/-- A read at a BAR0 offset: registers, the MSI-X table, the pending bits of the vectors of R376. -/
def Hub.barRead (h : Hub) (off : Nat) : Word :=
  if 0x2000 ≤ off ∧ off < 0x2200 then sparseGet (fun _ => (0 : Word)) h.host.msix off
  else if off = 0x3000 then h.host.irq.setWidth 32
  else h.rg (0x40100000 + off)

/-- A write at a BAR0 offset. -/
def State.barWrite (s : State) (off : Nat) (v : Word) : State :=
  let a := 0x40100000 + off
  if s.hub.rst.held then s
  else if 0x2000 ≤ off ∧ off < 0x2200 then
    s.modHub fun h => { h with host := { h.host with msix := sparseSet (fun _ => (0 : Word)) h.host.msix off v } }
  else if off = 4 then s.modHub (·.statWrite v)
  else if a = HCMD_CTRL then s.hcmdCtrl v s.now
  else if 0x1000 ≤ off ∧ off < 0x1020 then
    let q := (off - 0x1000) / 8
    let slot := bvField v 0 8
    if off % 8 = 0 then s.modHub fun h => h.doorbell q slot s.now
    else s.modHub (·.headWrite q (bvField v 0 9))
  else s.modHub (·.plainWrite a v)

/-- A BAR0 access: aligned words only (R5, R10). -/
def State.barAccess (s : State) (off : Nat) (w : Width) (acc : Access) : State :=
  if s.hub.rst.held ∨ 0x10000 ≤ off ∨ w ≠ .word ∨ off % 4 ≠ 0 then s.busErr
  else match acc with
    | .read => s.busData (s.hub.barRead off)
    | .write v => (s.barWrite off v).busOk

/-! ### The hub map -/

/-- A mailbox of the hub view. -/
def mbxAt (a : Nat) : LaneId := match (a - 0x20000000) / 0x40000 with | 0 => .a | 1 => .b | _ => .c

/-- An access in a register block of the hub. -/
def State.hubPeriph (s : State) (a : Nat) (w : Width) (acc : Access) (hw : Word) : State :=
  let data := inCrcData (HCRC_DATA 0) a || inCrcData (HCRC_DATA 1) a
  if a % Width.bytes w ≠ 0 ∨ (w ≠ .word ∧ data = false) then s.busErr
  else match acc with
    | .read => if w ≠ .word then s.busData 0 else s.busData (s.hub.rg a)
    | .write v =>
      (if w = .word then (s.hubRegWrite a v).upHub (·.hwSet a hw)
       else s.upHub (·.crcData (if inCrcData (HCRC_DATA 0) a then 0 else 1) 0 w v)).busOk

/-- An access by a core of the hub: the rows of the hub view (R568). -/
def State.hubAccess (s : State) (a : Nat) (w : Width) (acc : Access) (env : AccessEnv) : State :=
  let n := Width.bytes w
  if s.hub.rst.held then s
  else if a + n ≤ 0x40000 then
    (match acc with | .read => if a % n = 0 then s.busData (romWord 3 a n) else s.busErr | .write _ => s.busErr)
  else if inSram a 1 then
    s.hubSram a n env.nerr acc
  else if 0x20000000 ≤ a ∧ a < 0x200C0000 then s.mailboxAccess (mbxAt a) true ((a - 0x20000000) % 0x40000) w acc none env.nerr
  else if inFlashWin a then
    (match acc with | .read => if a % n = 0 then s.busData (s.flashRead a n) else s.busErr | .write _ => s.busErr)
  else if 0x40000000 ≤ a ∧ a < 0x40016000 then s.hubPeriph a w acc env.hw
  else if 0x40100000 ≤ a ∧ a < 0x40110000 then s.barAccess (a - 0x40100000) w acc
  else s.busErr

/-- A bus access by a master; host software addresses BAR0 by offset. -/
def State.access (s : State) (m : Master) (a : Nat) (w : Width) (acc : Access) (env : AccessEnv) : State :=
  match m with
  | .lane l => s.laneAccess l a w acc env
  | .hub => s.hubAccess a w acc env
  | .host => s.barAccess a w acc

/-- The hub firmware block an access goes to, which the manual reserves without a register (R572). -/
def firmwareBlock (m : Master) (a : Nat) : Option Nat :=
  match m with
  | .hub => if 0x4000B000 ≤ a ∧ a < 0x40015000 then some ((a - 0x40000000) / 0x1000) else none
  | _ => none

/-! ### The SPI host port (R368) -/

/-- One word access of the port: the answer of a read. -/
def State.spiWord (s : State) (bar2 : Bool) (off : Nat) (acc : Access) : Word × State :=
  let s' := if bar2 then s.hostWindow off .word acc none s.now else if off < 0x10000 then s.barAccess off .word acc else s.busData 0
  match s'.bus with
  | .data w => (w, s')
  | _ => match acc with | .read => s'.draw | .write _ => (0, s')

/-- Words read in address order: their bytes. -/
def State.spiRead (s : State) (bar2 : Bool) (off : Nat) : Nat → List Byte × State
  | 0 => ([], s)
  | n + 1 =>
    let r := s.spiWord bar2 off .read
    let rest := r.2.spiRead bar2 (off + 4) n
    (leBytes 4 r.1.toNat ++ rest.1, rest.2)

/-- Words written in address order. -/
def State.spiWrite (s : State) (bar2 : Bool) (off : Nat) (bs : List Byte) : Nat → State
  | 0 => s
  | n + 1 => ((s.spiWord bar2 off (.write (BitVec.ofNat 32 (leAt bs 0 4)))).2).spiWrite bar2 (off + 4) (bs.drop 4) n

/-- The header names a defined space, a word address and 1 to 64 words. -/
def spiHeadOk (b : List Byte) : Bool :=
  decide (6 ≤ b.length) && (beAt b 1 1 == 0 || beAt b 1 1 == 2) && beAt b 2 3 % 4 == 0 && decide (1 ≤ beAt b 5 1) && decide (beAt b 5 1 ≤ 64)

/-- SPI_TRANSACTION: what the host clocked in within one frame of `HSPI_CS_N`; in PCI Express attachment the port is idle (R366). -/
def State.spiTransaction (s : State) (b : List Byte) : State :=
  let n := beAt b 5 1
  let off := beAt b 2 3
  let bar2 := beAt b 1 1 == 2
  if s.hub.rst.held || !s.hub.on HCMD_STAT_HOSTSPI then s
  else if b.isEmpty then s
  else if beAt b 0 1 = 0x0B then
    (if spiHeadOk b then
       let r := s.spiRead bar2 off n
       let out := r.1 ++ beBytes 2 (crc16 r.1)
       r.2.modHub fun h => { h with host := { h.host with spiOut := out.take (b.length - 14) } }
     else s)
  else if beAt b 0 1 = 0x02 && spiHeadOk b && decide (8 + 4 * n ≤ b.length) && beAt b (6 + 4 * n) 2 == crc16 (b.take (6 + 4 * n)) then
    s.spiWrite bar2 off (b.drop 6) n
  else s.modHub (·.hostFlag HCMD_STAT_SPI_ERR 1)

/-- An access with its outcome: an aligned word access of the hub to one of its firmware blocks stops (R572). -/
def accessOutcome (m : Master) (a : Nat) (w : Width) (acc : Access) (env : AccessEnv) (s : State) : Host.Outcome State Fault Refusal :=
  match firmwareBlock m a with
  | some i => if s.hub.rst.held || w != .word || decide (a % 4 ≠ 0) then done (s.access m a w acc env) else .fault (.hubFirmwareBlock i)
  | none => done (s.access m a w acc env)

/-! ### Meanings -/

/-- REGISTER_WRITE (R6, R10): an aligned word access. -/
def execRegisterWrite (m : Master) (addr : Word) (acc : Access) (env : AccessEnv) (s : State) : Host.Outcome State Fault Refusal :=
  accessOutcome m addr.toNat .word acc env s
/-- BAD_WIDTH_ACCESS (R5): an access of any width, refused in a register block unless it is an aligned word or feeds `CRC_DATA`. -/
def execBadWidthAccess (m : Master) (addr : Word) (w : Width) (acc : Access) (env : AccessEnv) (s : State) : Host.Outcome State Fault Refusal :=
  accessOutcome m addr.toNat w acc env s
/-- UNMAPPED_ACCESS (R568): an access at an address that no row names; at an address that a row names it is that access. -/
def execUnmappedAccess (m : Master) (addr : Word) (acc : Access) (s : State) : Host.Outcome State Fault Refusal :=
  accessOutcome m addr.toNat .word acc .plain s
/-- SPI_TRANSACTION (R368). -/
def execSpiTransaction (bytes : List Byte) (s : State) : Host.Outcome State Fault Refusal := done (s.spiTransaction bytes)

end Sys2Proof.Machine
end

