-- ==== Sys2Proof/Machine/Dispatch.lean ====
section
/-! DEFINITION. What each command does: one arm per row of spec/opcode_table.json, each a direct call of its meaning. -/

namespace Sys2Proof.Machine

def exec (i : Instr) (s : State) : Host.Outcome State Fault Refusal :=
  match i with
  | .registerWrite m addr acc env => Sys2Proof.Machine.execRegisterWrite m addr acc env s
  | .badWidthAccess m addr w acc env => Sys2Proof.Machine.execBadWidthAccess m addr w acc env s
  | .unmappedAccess m addr acc => Sys2Proof.Machine.execUnmappedAccess m addr acc s
  | .tickFrame l own frame => Sys2Proof.Machine.execTickFrame l own frame s
  | .rateCheckWindow l xcount => Sys2Proof.Machine.execRateCheckWindow l xcount s
  | .holdoverEntry l => Sys2Proof.Machine.execHoldoverEntry l s
  | .holdoverExit l => Sys2Proof.Machine.execHoldoverExit l s
  | .timebaseRestart since => Sys2Proof.Machine.execTimebaseRestart since s
  | .catchInputs l task tn => Sys2Proof.Machine.execCatchInputs l task tn s
  | .consensusFrame dst src task f t => Sys2Proof.Machine.execConsensusFrame dst src task f t s
  | .telegramFetch dst src task tlg => Sys2Proof.Machine.execTelegramFetch dst src task tlg s
  | .consensusDeadline l task t => Sys2Proof.Machine.execConsensusDeadline l task t s
  | .voteInstant l task done us asks t => Sys2Proof.Machine.execVoteInstant l task done us asks t s
  | .finish l task t => Sys2Proof.Machine.execFinish l task t s
  | .idleExit l t => Sys2Proof.Machine.execIdleExit l t s
  | .arm l => Sys2Proof.Machine.execArm l s
  | .cmaxClr l => Sys2Proof.Machine.execCmaxClr l s
  | .tmrStrokeWrite l v => Sys2Proof.Machine.execTmrStrokeWrite l v s
  | .pairing dst src v t => Sys2Proof.Machine.execPairing dst src v t s
  | .startTimeout t => Sys2Proof.Machine.execStartTimeout t s
  | .eventTaskRelease l task t => Sys2Proof.Machine.execEventTaskRelease l task t s
  | .programTimerExpiry l timer t => Sys2Proof.Machine.execProgramTimerExpiry l timer t s
  | .cellWindowWrite l addr acc nerr => Sys2Proof.Machine.execCellWindowWrite l addr acc nerr s
  | .rleCheck l ecc => Sys2Proof.Machine.execRleCheck l ecc s
  | .rleCheckDone l => Sys2Proof.Machine.execRleCheckDone l s
  | .rleLock l => Sys2Proof.Machine.execRleLock l s
  | .rleStroke l ecc => Sys2Proof.Machine.execRleStroke l ecc s
  | .rleStrokeDone l us => Sys2Proof.Machine.execRleStrokeDone l us s
  | .approachTimerExpiry l ard => Sys2Proof.Machine.execApproachTimerExpiry l ard s
  | .overlapTimerExpiry l cell => Sys2Proof.Machine.execOverlapTimerExpiry l cell s
  | .timedSectionRelease l cell => Sys2Proof.Machine.execTimedSectionRelease l cell s
  | .moveTimeout l cell => Sys2Proof.Machine.execMoveTimeout l cell s
  | .crossingCloseTimeout l cell => Sys2Proof.Machine.execCrossingCloseTimeout l cell s
  | .rleNreqWrite l v => Sys2Proof.Machine.execRleNreqWrite l v s
  | .vmaxClr l => Sys2Proof.Machine.execVmaxClr l s
  | .rleBaseWrite l out v => Sys2Proof.Machine.execRleBaseWrite l out v s
  | .retainedStateDigest dst src crc => Sys2Proof.Machine.execRetainedStateDigest dst src crc s
  | .level1Frame dst src ctx digests t => Sys2Proof.Machine.execLevel1Frame dst src ctx digests t s
  | .level1Deadline l ctx t => Sys2Proof.Machine.execLevel1Deadline l ctx t s
  | .segmentHashExchange dst src ctx block hashes t => Sys2Proof.Machine.execSegmentHashExchange dst src ctx block hashes t s
  | .segmentFetch dst src ctx seg bytes t => Sys2Proof.Machine.execSegmentFetch dst src ctx seg bytes t s
  | .answerDeadline l ctx t => Sys2Proof.Machine.execAnswerDeadline l ctx t s
  | .verdictFrame dst src ctx v t => Sys2Proof.Machine.execVerdictFrame dst src ctx v t s
  | .verdictDeadline l ctx t => Sys2Proof.Machine.execVerdictDeadline l ctx t s
  | .leaveResetAssert l t => Sys2Proof.Machine.execLeaveResetAssert l t s
  | .leaveNotice dst src reason => Sys2Proof.Machine.execLeaveNotice dst src reason s
  | .easyAllNotice dst src cause => Sys2Proof.Machine.execEasyAllNotice dst src cause s
  | .hubEasyAllNotice src t => Sys2Proof.Machine.execHubEasyAllNotice src t s
  | .restrictiveFinish l t => Sys2Proof.Machine.execRestrictiveFinish l t s
  | .voteCmdEasy l => Sys2Proof.Machine.execVoteCmdEasy l s
  | .voteCmdReadmit l => Sys2Proof.Machine.execVoteCmdReadmit l s
  | .voteCmdLeave l => Sys2Proof.Machine.execVoteCmdLeave l s
  | .readmitRequest dst src v => Sys2Proof.Machine.execReadmitRequest dst src v s
  | .readmitPage dst src page ctx bytes crc again t => Sys2Proof.Machine.execReadmitPage dst src page ctx bytes crc again t s
  | .readmitFullPassDone l => Sys2Proof.Machine.execReadmitFullPassDone l s
  | .readmitRetryHoldoff l => Sys2Proof.Machine.execReadmitRetryHoldoff l s
  | .voteCfgWrite l off v => Sys2Proof.Machine.execVoteCfgWrite l off v s
  | .xlIdleSend l link t => Sys2Proof.Machine.execXlIdleSend l link t s
  | .xlFrame l link seq body crc again t => Sys2Proof.Machine.execXlFrame l link seq body crc again t s
  | .xlLinkTimeout l link t => Sys2Proof.Machine.execXlLinkTimeout l link t s
  | .xlRetrainTimer l link t => Sys2Proof.Machine.execXlRetrainTimer l link t s
  | .xlLinkUp l link => Sys2Proof.Machine.execXlLinkUp l link s
  | .xlRetrain l link => Sys2Proof.Machine.execXlRetrain l link s
  | .xlErrClear l link => Sys2Proof.Machine.execXlErrClear l link s
  | .trap l core code tval => Sys2Proof.Machine.execTrap l core code tval s
  | .trapReturn l core => Sys2Proof.Machine.execTrapReturn l core s
  | .interruptEntry l => Sys2Proof.Machine.execInterruptEntry l s
  | .sysregWrite l core num acc rd insn => Sys2Proof.Machine.execSysregWrite l core num acc rd insn s
  | .swiSet l => Sys2Proof.Machine.execSwiSet l s
  | .signatureWindowClose l r0 r1 t => Sys2Proof.Machine.execSignatureWindowClose l r0 r1 t s
  | .injectionTestStart l => Sys2Proof.Machine.execInjectionTestStart l s
  | .debugHalt l => Sys2Proof.Machine.execDebugHalt l s
  | .debugResetRequest d => Sys2Proof.Machine.execDebugResetRequest d s
  | .benchGrant l => Sys2Proof.Machine.execBenchGrant l s
  | .core1Start l v => Sys2Proof.Machine.execCore1Start l v s
  | .wdtKick l v t => Sys2Proof.Machine.execWdtKick l v t s
  | .wdtWarning l t => Sys2Proof.Machine.execWdtWarning l t s
  | .wdtExpiry l t => Sys2Proof.Machine.execWdtExpiry l t s
  | .wdtCfgWrite l v => Sys2Proof.Machine.execWdtCfgWrite l v s
  | .lockup l inTrap t => Sys2Proof.Machine.execLockup l inTrap t s
  | .exclusiveLoad l addr t => Sys2Proof.Machine.execExclusiveLoad l addr t s
  | .exclusiveStore l addr v t => Sys2Proof.Machine.execExclusiveStore l addr v t s
  | .taskException l task pc code => Sys2Proof.Machine.execTaskException l task pc code s
  | .programBreakpoint l task pc => Sys2Proof.Machine.execProgramBreakpoint l task pc s
  | .retainList dst src items => Sys2Proof.Machine.execRetainList dst src items s
  | .carryMapDigest dst src digest result => Sys2Proof.Machine.execCarryMapDigest dst src digest result s
  | .prepareReadback l entry => Sys2Proof.Machine.execPrepareReadback l entry s
  | .readyNotice dst src => Sys2Proof.Machine.execReadyNotice dst src s
  | .onlineChangeSwitch l t => Sys2Proof.Machine.execOnlineChangeSwitch l t s
  | .commitReadback l entry => Sys2Proof.Machine.execCommitReadback l entry s
  | .commitTimeout => Sys2Proof.Machine.execCommitTimeout s
  | .fieldSample m t => Sys2Proof.Machine.execFieldSample m t s
  | .fieldFrame l bytes t => Sys2Proof.Machine.execFieldFrame l bytes t s
  | .fieldRateWindow l t => Sys2Proof.Machine.execFieldRateWindow l t s
  | .fieldConfigSend l t => Sys2Proof.Machine.execFieldConfigSend l t s
  | .fieldConfigFrame port words t => Sys2Proof.Machine.execFieldConfigFrame port words t s
  | .comparatorDebounce k cmpB on t => Sys2Proof.Machine.execComparatorDebounce k cmpB on t s
  | .testPulseGap k t => Sys2Proof.Machine.execTestPulseGap k t s
  | .testPulsePeriodEnd k o => Sys2Proof.Machine.execTestPulsePeriodEnd k o s
  | .calRequest l v t => Sys2Proof.Machine.execCalRequest l v t s
  | .calibrationStart ch t => Sys2Proof.Machine.execCalibrationStart ch t s
  | .calibrationEnd ok t => Sys2Proof.Machine.execCalibrationEnd ok t s
  | .outputOffTest k low t => Sys2Proof.Machine.execOutputOffTest k low t s
  | .openLoad k => Sys2Proof.Machine.execOpenLoad k s
  | .overload k => Sys2Proof.Machine.execOverload k s
  | .shortVf k => Sys2Proof.Machine.execShortVf k s
  | .offTestEnd k rbOn dropped lsOn t => Sys2Proof.Machine.execOffTestEnd k rbOn dropped lsOn t s
  | .fieldImageBlock port idx bytes => Sys2Proof.Machine.execFieldImageBlock port idx bytes s
  | .fldpCfgWrite l off v => Sys2Proof.Machine.execFldpCfgWrite l off v s
  | .fieldUndervoltage => Sys2Proof.Machine.execFieldUndervoltage s
  | .fieldBrownOut => Sys2Proof.Machine.execFieldBrownOut s
  | .fieldPowerOn t => Sys2Proof.Machine.execFieldPowerOn t s
  | .fieldOvertemp => Sys2Proof.Machine.execFieldOvertemp s
  | .fieldSleep t => Sys2Proof.Machine.execFieldSleep t s
  | .discrepancyTimeout l blk tn => Sys2Proof.Machine.execDiscrepancyTimeout l blk tn s
  | .cycleStart k t => Sys2Proof.Machine.execCycleStart k t s
  | .cycleStartFrame k east frame t => Sys2Proof.Machine.execCycleStartFrame k east frame t s
  | .downlinkSlot k slot t => Sys2Proof.Machine.execDownlinkSlot k slot t s
  | .uplinkFrame k east pos frame t => Sys2Proof.Machine.execUplinkFrame k east pos frame t s
  | .delayMeasurement k east roundTrip => Sys2Proof.Machine.execDelayMeasurement k east roundTrip s
  | .nodeAbsent k node => Sys2Proof.Machine.execNodeAbsent k node s
  | .ringListenTimeout k t => Sys2Proof.Machine.execRingListenTimeout k t s
  | .ringEnable k v t => Sys2Proof.Machine.execRingEnable k v t s
  | .ratingCheck => Sys2Proof.Machine.execRatingCheck s
  | .ratingCheckDone => Sys2Proof.Machine.execRatingCheckDone s
  | .ringCmdAnnounce k rating => Sys2Proof.Machine.execRingCmdAnnounce k rating s
  | .ringCmdCancel k => Sys2Proof.Machine.execRingCmdCancel k s
  | .ringCmdRestart k t => Sys2Proof.Machine.execRingCmdRestart k t s
  | .announceTarget k => Sys2Proof.Machine.execAnnounceTarget k s
  | .lossOfSignal k east => Sys2Proof.Machine.execLossOfSignal k east s
  | .remoteFault k east => Sys2Proof.Machine.execRemoteFault k east s
  | .ringWrap k east => Sys2Proof.Machine.execRingWrap k east s
  | .unwrapAnnounce k => Sys2Proof.Machine.execUnwrapAnnounce k s
  | .ringErrClear k v => Sys2Proof.Machine.execRingErrClear k v s
  | .supervisionTimeout l conn tn => Sys2Proof.Machine.execSupervisionTimeout l conn tn s
  | .corruptionClose l conn tn => Sys2Proof.Machine.execCorruptionClose l conn tn s
  | .corruptionDecay l conn tn => Sys2Proof.Machine.execCorruptionDecay l conn tn s
  | .holdoffExpiry l conn tn => Sys2Proof.Machine.execHoldoffExpiry l conn tn s
  | .respondedTimeout l conn tn => Sys2Proof.Machine.execRespondedTimeout l conn tn s
  | .signEngineCheck l conn tlg => Sys2Proof.Machine.execSignEngineCheck l conn tlg s
  | .telegramAssembly t => Sys2Proof.Machine.execTelegramAssembly t s
  | .ethernetFrame port bytes t => Sys2Proof.Machine.execEthernetFrame port bytes t s
  | .heartbeatSend t => Sys2Proof.Machine.execHeartbeatSend t s
  | .heartbeat link frame vals ver t => Sys2Proof.Machine.execHeartbeat link frame vals ver t s
  | .yieldFrame link frame t => Sys2Proof.Machine.execYieldFrame link frame t s
  | .fwdList link frame t => Sys2Proof.Machine.execFwdList link frame t s
  | .fwdTlg link frame t => Sys2Proof.Machine.execFwdTlg link frame t s
  | .partnerEst link frame t => Sys2Proof.Machine.execPartnerEst link frame t s
  | .page link frame => Sys2Proof.Machine.execPage link frame s
  | .fwdImg link frame => Sys2Proof.Machine.execFwdImg link frame s
  | .fwdAck link frame => Sys2Proof.Machine.execFwdAck link frame s
  | .pairStartTimeout t => Sys2Proof.Machine.execPairStartTimeout t s
  | .heartbeatLoss t => Sys2Proof.Machine.execHeartbeatLoss t s
  | .takeover t => Sys2Proof.Machine.execTakeover t s
  | .ptnrCntClear v => Sys2Proof.Machine.execPtnrCntClear v s
  | .sqDoorbell q slot t => Sys2Proof.Machine.execSqDoorbell q slot t s
  | .cqHeadWrite q v => Sys2Proof.Machine.execCqHeadWrite q v s
  | .commandDispatch t => Sys2Proof.Machine.execCommandDispatch t s
  | .commandCompletion r => Sys2Proof.Machine.execCommandCompletion r s
  | .hubRetryExhausted r t => Sys2Proof.Machine.execHubRetryExhausted r t s
  | .hostInterfaceReset => Sys2Proof.Machine.execHostInterfaceReset s
  | .spiTransaction bytes => Sys2Proof.Machine.execSpiTransaction bytes s
  | .hostWindowAccess off w acc clash t => Sys2Proof.Machine.execHostWindowAccess off w acc clash t s
  | .hcmdDevrst v => Sys2Proof.Machine.execHcmdDevrst v s
  | .hcmdPwrcyc v t => Sys2Proof.Machine.execHcmdPwrcyc v t s
  | .identify r => Sys2Proof.Machine.execIdentify r s
  | .status r => Sys2Proof.Machine.execStatus r s
  | .resumeTarget r => Sys2Proof.Machine.execResumeTarget r s
  | .benchAuth r mask token => Sys2Proof.Machine.execBenchAuth r mask token s
  | .start r => Sys2Proof.Machine.execStart r s
  | .laneStatus r l => Sys2Proof.Machine.execLaneStatus r l s
  | .laneReset r l => Sys2Proof.Machine.execLaneReset r l s
  | .settingsRead r sect off => Sys2Proof.Machine.execSettingsRead r sect off s
  | .settingsWrite r sect off bytes => Sys2Proof.Machine.execSettingsWrite r sect off bytes s
  | .settingsCommit r crc => Sys2Proof.Machine.execSettingsCommit r crc s
  | .keySwitch r conn slot => Sys2Proof.Machine.execKeySwitch r conn slot s
  | .stationInfo r => Sys2Proof.Machine.execStationInfo r s
  | .keyLoad r conn => Sys2Proof.Machine.execKeyLoad r conn s
  | .tlgSubmit r conn tlg t => Sys2Proof.Machine.execTlgSubmit r conn tlg t s
  | .tlgReceive r conn => Sys2Proof.Machine.execTlgReceive r conn s
  | .connClose r conn => Sys2Proof.Machine.execConnClose r conn s
  | .connStatus r conn => Sys2Proof.Machine.execConnStatus r conn s
  | .prgStart r => Sys2Proof.Machine.execPrgStart r s
  | .prgStop r => Sys2Proof.Machine.execPrgStop r s
  | .prgContinue r => Sys2Proof.Machine.execPrgContinue r s
  | .prgChange r section_ sig => Sys2Proof.Machine.execPrgChange r section_ sig s
  | .forceSet r vid val => Sys2Proof.Machine.execForceSet r vid val s
  | .forceClear r vid => Sys2Proof.Machine.execForceClear r vid s
  | .commissionSet r mask conns => Sys2Proof.Machine.execCommissionSet r mask conns s
  | .breakSet r task addr => Sys2Proof.Machine.execBreakSet r task addr s
  | .breakClear r task => Sys2Proof.Machine.execBreakClear r task s
  | .prgStatus r => Sys2Proof.Machine.execPrgStatus r s
  | .recRead r first count => Sys2Proof.Machine.execRecRead r first count s
  | .recHead r => Sys2Proof.Machine.execRecHead r s
  | .updBegin r slot len block => Sys2Proof.Machine.execUpdBegin r slot len block s
  | .updBlock r idx block => Sys2Proof.Machine.execUpdBlock r idx block s
  | .updVerify r slot => Sys2Proof.Machine.execUpdVerify r slot s
  | .updActivate r slot => Sys2Proof.Machine.execUpdActivate r slot s
  | .updConfirm r => Sys2Proof.Machine.execUpdConfirm r s
  | .updStatus r slot => Sys2Proof.Machine.execUpdStatus r slot s
  | .updForward r link => Sys2Proof.Machine.execUpdForward r link s
  | .ringAnnounce r k rating => Sys2Proof.Machine.execRingAnnounce r k rating s
  | .ringCancel r k => Sys2Proof.Machine.execRingCancel r k s
  | .ringRestart r k t => Sys2Proof.Machine.execRingRestart r k t s
  | .ringStatus r k => Sys2Proof.Machine.execRingStatus r k s
  | .pairYield r => Sys2Proof.Machine.execPairYield r s
  | .pairStatus r => Sys2Proof.Machine.execPairStatus r s
  | .fieldCal r ch => Sys2Proof.Machine.execFieldCal r ch s
  | .fieldSnapshot r => Sys2Proof.Machine.execFieldSnapshot r s
  | .easyAll r => Sys2Proof.Machine.execEasyAll r s
  | .moduleReset r kind => Sys2Proof.Machine.execModuleReset r kind s
  | .moduleResetAssert t => Sys2Proof.Machine.execModuleResetAssert t s
  | .hibernate r mask t => Sys2Proof.Machine.execHibernate r mask t s
  | .funcReinit r block t => Sys2Proof.Machine.execFuncReinit r block t s
  | .bistResults r => Sys2Proof.Machine.execBistResults r s
  | .bistFullNext r => Sys2Proof.Machine.execBistFullNext r s
  | .bridgeRead l addr w t => Sys2Proof.Machine.execBridgeRead l addr w t s
  | .bridgeReadResponse l tag err t => Sys2Proof.Machine.execBridgeReadResponse l tag err t s
  | .bridgeReadTimeout l tag t => Sys2Proof.Machine.execBridgeReadTimeout l tag t s
  | .bridgeReadBudget l tag t => Sys2Proof.Machine.execBridgeReadBudget l tag t s
  | .tagQuarantineEnd l tag t => Sys2Proof.Machine.execTagQuarantineEnd l tag t s
  | .bridgeWrite l addr w v t => Sys2Proof.Machine.execBridgeWrite l addr w v t s
  | .bridgeWriteAck l win err => Sys2Proof.Machine.execBridgeWriteAck l win err s
  | .bridgeWriteTimeout l win t => Sys2Proof.Machine.execBridgeWriteTimeout l win t s
  | .hubExportRead l addr => Sys2Proof.Machine.execHubExportRead l addr s
  | .hubLaneWrite l addr v => Sys2Proof.Machine.execHubLaneWrite l addr v s
  | .brgResume l v failing => Sys2Proof.Machine.execBrgResume l v failing s
  | .brgEqPop l => Sys2Proof.Machine.execBrgEqPop l s
  | .brgMsg l v => Sys2Proof.Machine.execBrgMsg l v s
  | .laneMessageDelivery l => Sys2Proof.Machine.execLaneMessageDelivery l s
  | .hubMessage l v => Sys2Proof.Machine.execHubMessage l v s
  | .brgHmsgPop l => Sys2Proof.Machine.execBrgHmsgPop l s
  | .semTake l n byLane byHub => Sys2Proof.Machine.execSemTake l n byLane byHub s
  | .semGive l n byHub => Sys2Proof.Machine.execSemGive l n byHub s
  | .brgCfgWrite l off v => Sys2Proof.Machine.execBrgCfgWrite l off v s
  | .brgCntClear l v => Sys2Proof.Machine.execBrgCntClear l v s
  | .sgwLoad => Sys2Proof.Machine.execSgwLoad s
  | .canFrame port ide id remote data err => Sys2Proof.Machine.execCanFrame port ide id remote data err s
  | .sgwDestinationSend d t => Sys2Proof.Machine.execSgwDestinationSend d t s
  | .sgwSilenceTimeout d t => Sys2Proof.Machine.execSgwSilenceTimeout d t s
  | .busOffRecovery port => Sys2Proof.Machine.execBusOffRecovery port s
  | .sgwCancntClear port v => Sys2Proof.Machine.execSgwCancntClear port v s
  | .scrubRead m nerr => Sys2Proof.Machine.execScrubRead m nerr s
  | .mailboxAccess mbx byHub off w acc clash nerr => Sys2Proof.Machine.execMailboxAccess mbx byHub off w acc clash nerr s
  | .recordSubmission => Sys2Proof.Machine.execRecordSubmission s
  | .gapDropped t => Sys2Proof.Machine.execGapDropped t s
  | .crcStart m req v => Sys2Proof.Machine.execCrcStart m req v s
  | .crcDataWrite m req w v => Sys2Proof.Machine.execCrcDataWrite m req w v s
  | .loaderFrame uart tag idx cnt bytes crc => Sys2Proof.Machine.execLoaderFrame uart tag idx cnt bytes crc s
  | .rollingStep t => Sys2Proof.Machine.execRollingStep t s
  | .rollingStepTimeout => Sys2Proof.Machine.execRollingStepTimeout s
  | .hubReadyTimeout t => Sys2Proof.Machine.execHubReadyTimeout t s
  | .holdSenseSample code t => Sys2Proof.Machine.execHoldSenseSample code t s
  | .droopCheck us => Sys2Proof.Machine.execDroopCheck us s
  | .gatedWriteRetry t => Sys2Proof.Machine.execGatedWriteRetry t s
  | .clockMonitorWindow m cnt xt t => Sys2Proof.Machine.execClockMonitorWindow m cnt xt t s
  | .crystalStop m xt t => Sys2Proof.Machine.execCrystalStop m xt t s
  | .pllUnlock m sd early t => Sys2Proof.Machine.execPllUnlock m sd early t s
  | .xtRecovery t => Sys2Proof.Machine.execXtRecovery t s
  | .aonClockFail => Sys2Proof.Machine.execAonClockFail s
  | .resetNAssert t => Sys2Proof.Machine.execResetNAssert t s
  | .resetNRelease t => Sys2Proof.Machine.execResetNRelease t s
  | .powerOnReset d aon t => Sys2Proof.Machine.execPowerOnReset d aon t s
  | .brownOut d rail t => Sys2Proof.Machine.execBrownOut d rail t s
  | .rstcSwr m v t => Sys2Proof.Machine.execRstcSwr m v t s
  | .trimLoadDone d ok => Sys2Proof.Machine.execTrimLoadDone d ok s
  | .resetRelease d strap t => Sys2Proof.Machine.execResetRelease d strap t s
  | .blockReset v t => Sys2Proof.Machine.execBlockReset v t s
  | .blockIdleAck t => Sys2Proof.Machine.execBlockIdleAck t s
  | .blockIdleTimeout t => Sys2Proof.Machine.execBlockIdleTimeout t s
  | .supplyOutOfRange m rail t => Sys2Proof.Machine.execSupplyOutOfRange m rail t s
  | .supplySettled l t => Sys2Proof.Machine.execSupplySettled l t s
  | .pmbusRequest m t => Sys2Proof.Machine.execPmbusRequest m t s
  | .pmbusAck m pg statusWord pec t => Sys2Proof.Machine.execPmbusAck m pg statusWord pec t s
  | .pmbusAckTimeout m t => Sys2Proof.Machine.execPmbusAckTimeout m t s
  | .pwrcVsetWrite l v => Sys2Proof.Machine.execPwrcVsetWrite l v s
  | .hibernateEntryStep pg t => Sys2Proof.Machine.execHibernateEntryStep pg t s
  | .wakeEvent src t => Sys2Proof.Machine.execWakeEvent src t s
  | .wakeSequenceStep t => Sys2Proof.Machine.execWakeSequenceStep t s
  | .bistDone m kind records cov lfail unrep upset rtc => Sys2Proof.Machine.execBistDone m kind records cov lfail unrep upset rtc s
  | .hubTempAlarm high => Sys2Proof.Machine.execHubTempAlarm high s
  | .fwdAckSend t => Sys2Proof.Machine.execFwdAckSend t s
  | .fieldUndervoltageEnd => Sys2Proof.Machine.execFieldUndervoltageEnd s
  | .fieldOvertempEnd => Sys2Proof.Machine.execFieldOvertempEnd s
  | .testPulseGapEnd k t => Sys2Proof.Machine.execTestPulseGapEnd k t s
  | .overloadRelease k t => Sys2Proof.Machine.execOverloadRelease k t s
  | .hbusyNRelease t => Sys2Proof.Machine.execHbusyNRelease t s
  | .pwrcycPulseEnd t => Sys2Proof.Machine.execPwrcycPulseEnd t s
  | .hubWatchdogExpiry => Sys2Proof.Machine.execHubWatchdogExpiry s
  | .hubLockup => Sys2Proof.Machine.execHubLockup s
  | .recChunkWritten => Sys2Proof.Machine.execRecChunkWritten s
  | .canFrameSent port err => Sys2Proof.Machine.execCanFrameSent port err s
  | .hubVddioRestored => Sys2Proof.Machine.execHubVddioRestored s
  | .signalRestored k east => Sys2Proof.Machine.execSignalRestored k east s

end Sys2Proof.Machine
end

