-- ==== Sys2Proof/Machine/Pins.lean ====
section
/-! DEFINITION. The levels of the module's logic output balls, as the state gives them: while their die runs, through a warm reset, from a
cold reset until firmware enables them, and in HIBERNATE (R502, R503, R528). Field outputs stand in the FIELD die. -/

namespace Sys2Proof.Machine

/-- An output ball or a group of balls of one row of R528. -/
inductive Ball where
  | enable (l : LaneId) | enableSd | pmbus (m : Master) | transmitter | canTx | uartTx | xspiCs | xspiClk | xspiDq | hirqN | hbusyN | faultN
  | stat (n : Nat) | pwrcycN | gpio
  deriving DecidableEq, Repr

/-- What a ball shows: driven high or low, high-impedance, electrical idle, the level held from before, or what the unit or firmware behind it
drives. -/
inductive Level where
  | high | low | z | idle | held | driven
  deriving DecidableEq, Repr

/-- High or low. -/
def Level.of (b : Bool) : Level := if b then .high else .low
/-- An open-drain ball: low or released. -/
def Level.openDrain (low : Bool) : Level := if low then .low else .z

/-- The hub's balls wait to be enabled: a cold reset of the hub is held, or its firmware has not yet started after one (R503). -/
def Hub.ballsOff (h : Hub) : Bool := h.rst.cold && (h.rst.held || !h.up)

/-- A logic output of the hub: high-impedance from a cold reset on and in HIBERNATE, `reset` through a warm reset, else driven (R502, R503,
R528). -/
def State.hubBall (s : State) (reset : Level) : Level :=
  if !s.aon.pwr.hubPowered || s.hub.ballsOff then .z else if s.hub.rst.held then reset else .driven

/-- The level of a ball. An enable is low for the 1 ms of a retry at wake, before the new window of its request (R516). -/
def State.level (s : State) (b : Ball) : Level :=
  match b with
  | .enable l => .of (s.aon.laneEn l && decide ((s.lane l).rst.pmbT ≤ s.now + 1))
  | .enableSd => .of (s.aon.enSD && decide (s.hub.rst.pmbT ≤ s.now + 1))
  | .pmbus m =>
    let r := match m with | .lane l => (s.lane l).rst | _ => s.hub.rst
    if r.held || !s.aon.pwr.hubPowered || r.pmbT == 0 then .z else .driven
  | .transmitter =>
    if !s.aon.pwr.hubPowered then .z
    else if s.hub.rst.held || !s.hub.xtRuns then .idle else .driven
  | .canTx => s.hubBall .high
  | .uartTx => s.hubBall .high
  | .xspiCs => s.hubBall .high
  | .xspiClk => s.hubBall .low
  | .xspiDq => s.hubBall .z
  | .hirqN => .openDrain (!s.hub.rst.held && s.aon.pwr.hubPowered && s.aon.hostSel && s.hub.host.irq != 0)
  | .hbusyN => .openDrain (!s.hub.rst.held && s.aon.pwr.hubPowered && s.hub.host.busyUntil != 0)
  | .faultN => .of (!s.aon.faultN)
  | .stat n => .of (s.statBalls / 2 ^ n % 2 == 1)
  | .pwrcycN => .openDrain (s.aon.pwrcycUntil != 0)
  | .gpio => if !s.aon.pwr.hubPowered then .held else if s.hub.ballsOff then .z else if s.hub.rst.held then .held else .driven

end Sys2Proof.Machine
end

