-- ==== Sys2Proof/Safety.lean ====
section
/-! DEFINITION. The terms the statements use: what counts as safe, what a command leaves as it was, and the canonical form of every
store. -/

namespace Sys2Proof.Machine

/-! ### Safe -/

/-- A lane whose dynamic signals and sign engine are both disabled holds no output on and forms no code (R25, R174). -/
def Lane.silent (l : Lane) : Bool := !l.on VOTE_STAT_DYN_EN && !l.on VOTE_STAT_SIGN_EN && decide (l.fld.dyn = 0)

/-- How many lanes drive output `k` (R24). -/
def State.drivers (s : State) (k : Nat) : Nat :=
  b2n (s.la.fld.dyn.getLsbD k) + b2n (s.lb.fld.dyn.getLsbD k) + b2n (s.lc.fld.dyn.getLsbD k)

/-- The safety invariant of a module: a dynamic signal runs only while the lane's dynamics are enabled (R172, R250); a lane in easy all
runs none (R179); a lane whose split-core fuse is blown neither drives an output nor signs (R2, R45). -/
def State.OutputsGuarded (s : State) : Prop :=
  ∀ l : LaneId,
    ((s.lane l).fld.dyn ≠ 0 → (s.lane l).on VOTE_STAT_DYN_EN = true) ∧
    ((s.lane l).easy = true → (s.lane l).on VOTE_STAT_DYN_EN = false ∧ (s.lane l).fld.dyn = 0) ∧
    (s.fuses.split = true → (s.lane l).silent = true)

/-! ### Frames -/

/-- Every register but those listed reads as before. -/
def Lane.RegsKept (x y : Lane) (as : List Nat) : Prop := ∀ a, a ∉ as → y.rg a = x.rg a

/-- Every register but those listed reads as before. -/
def Hub.RegsKept (h k : Hub) (as : List Nat) : Prop := ∀ a, a ∉ as → k.rg a = h.rg a

/-- The hub is as before but for what a submission to the recorder changes: the recorder's queue and `REC_STAT` (R437). -/
def Hub.SameButRec (h k : Hub) : Prop := k = { h with reg := k.reg, rcd := k.rcd } ∧ h.RegsKept k [REC_STAT]

/-- Nothing outside lane `l` has changed but the time and the recorder's queue. -/
def State.OnlyLane (s t : State) (l : LaneId) : Prop :=
  (∀ k, k ≠ l → t.lane k = s.lane k) ∧ s.hub.SameButRec t.hub ∧
    t = { s with now := t.now, la := t.la, lb := t.lb, lc := t.lc, hub := t.hub }

/-- As `OnlyLane`, in a module that stands in easy all from now on (R181). -/
def State.OnlyLaneInEasy (s t : State) (l : LaneId) : Prop := s.markEasy.OnlyLane t l

/-- As `OnlyLane`, but that another lane's readmission may have been abandoned for a link that went down (R171). -/
def State.LinkStep (s t : State) (l : LaneId) : Prop :=
  (∀ k, k ≠ l → t.lane k = s.lane k ∨ t.lane k = (s.lane k).abandonReadm 0x01) ∧ s.hub.SameButRec t.hub ∧
    t = { s with now := t.now, la := t.la, lb := t.lb, lc := t.lc, hub := t.hub }

/-- Nothing outside lane `l`, its mailbox and the recorder's queue has changed but the time; the mailbox's bytes are as before. -/
def State.OnlyLaneAndMbx (s t : State) (l : LaneId) : Prop :=
  (∀ k, k ≠ l → t.lane k = s.lane k ∧ t.hub.mbx k = s.hub.mbx k) ∧ (t.hub.mbx l).mem = (s.hub.mbx l).mem ∧
    t.hub = { s.hub with reg := t.hub.reg, rcd := t.hub.rcd, mbxA := t.hub.mbxA, mbxB := t.hub.mbxB, mbxC := t.hub.mbxC } ∧
    s.hub.RegsKept t.hub [REC_STAT] ∧ t = { s with now := t.now, la := t.la, lb := t.lb, lc := t.lc, hub := t.hub }

/-- Nothing outside the hub has changed but the time. -/
def State.OnlyHub (s t : State) : Prop := t = { s with now := t.now, hub := t.hub }

/-- Nothing outside the FIELD die has changed but the time. -/
def State.OnlyField (s t : State) : Prop := t = { s with now := t.now, field := t.field }

/-- In lane `x` only registers of the list, and the recorder submissions handed on, have changed. -/
def Lane.OnlyRegs (x y : Lane) (as : List Nat) : Prop := y = { x with reg := y.reg, notes := y.notes } ∧ x.RegsKept y as

/-- In the hub only registers of the list, and the recorder's queue, have changed. -/
def Hub.OnlyRegs (h k : Hub) (as : List Nat) : Prop := k = { h with reg := k.reg, rcd := k.rcd } ∧ h.RegsKept k as

/-! ### Host commands -/

/-- In the hub only the records of host commands and the queues' counts have changed. -/
def Hub.OnlyCmds (h k : Hub) : Prop :=
  k = { h with reg := k.reg, host := { h.host with cmds := k.host.cmds } } ∧
    h.RegsKept k [HCMD_QCNT 0, HCMD_QCNT 1, HCMD_QCNT 2, HCMD_QCNT 3]

/-- The record of command `c` stands with this status, detail, result and output data, and otherwise as it was. -/
def Hub.Ended (h : Hub) (c : HostCmd) (st detail : Nat) (result : Dword) (dout : List Byte) : Prop :=
  { c with status := some (BitVec.ofNat 16 st), detail := BitVec.ofNat 16 detail, result := result, dout := dout } ∈ h.host.cmds

/-- Command `c` has ended so and nothing else has changed but the time and the queues' counts. -/
def State.Ends (s t : State) (c : HostCmd) (st detail : Nat) (result : Dword) (dout : List Byte) : Prop :=
  s.OnlyHub t ∧ s.hub.OnlyCmds t.hub ∧ t.hub.Ended c st detail result dout ∧
    ∀ x ∈ s.hub.host.cmds, (x.q, x.slot) ≠ (c.q, c.slot) → x ∈ t.hub.host.cmds

/-- A descriptor with this opcode, these parameters and these data stands last in all three mailboxes, under the next command sequence. -/
def State.Committed (s t : State) (op : Nat) (args : List Nat) (data : List Byte) : Prop :=
  t.hub.rg HCMD_SEQ = s.hub.rg HCMD_SEQ + 1 ∧
    ∀ l, t.hub.mbx l = { s.hub.mbx l with
      cmds := (s.hub.mbx l).cmds ++ [{ opcode := BitVec.ofNat 16 op, seq := s.hub.rg HCMD_SEQ + 1, args := args, data := data, t := s.now }] }

/-- An L command that asks no lane yet (R382): in sit ready and in easy all it ends WRONG_STATE; behind 16 of the stroke it waits; else its descriptor is
committed and the command remembers its sequence. -/
def State.Carried (s t : State) (c : HostCmd) (op : Nat) (args : List Nat) (data : List Byte) : Prop :=
  ((s.anyEasy = true ∨ s.modSitReady = true) → s.Ends t c 0xD 0 0 []) ∧
    (s.anyEasy = false → s.modSitReady = false →
      (16 ≤ (s.hub.mbxA.cmds.filter fun d => decide (s.lastCatch ≤ d.t)).length → t = s) ∧
      ((s.hub.mbxA.cmds.filter fun d => decide (s.lastCatch ≤ d.t)).length < 16 →
        s.OnlyHub t ∧ s.hub.RegsKept t.hub [HCMD_SEQ] ∧ s.Committed t op args data ∧
          { c with seq := some (s.hub.rg HCMD_SEQ + 1) } ∈ t.hub.host.cmds))

/-! ### Canonical form -/

/-- The registers, the SRAM and the route engine's windows of a lane are in canonical form. -/
def Lane.canon (l : Lane) : Bool :=
  sparseWf laneRegDefault l.reg && Memory.wf l.sram && sparseWf (fun _ => cellZero) l.cells && sparseWf (fun _ => (0 : Word)) l.ard &&
    sparseWf (fun _ => (0 : Word)) l.rstat && sparseWf (fun _ => (0 : Word)) l.pstore

/-- Every store of the hub is in canonical form. -/
def Hub.canon (h : Hub) : Bool :=
  sparseWf hubRegDefault h.reg && Memory.wf h.sram && Memory.wf h.mbxA.mem && Memory.wf h.mbxB.mem && Memory.wf h.mbxC.mem

/-- The registers, the memories, the mailboxes and both flash devices are in canonical form. -/
def State.canon (s : State) : Bool :=
  s.la.canon && s.lb.canon && s.lc.canon && s.hub.canon && sparseWf flashDefault s.flash0 && sparseWf flashDefault s.flash1

end Sys2Proof.Machine
end

