-- ==== Sys2Proof/WellFormed.lean ====
section
/-! DEFINITION. Which commands are well formed: the ranges the manual gives an operand (ring, lane link, connection, queue, slot, task,
cell, channel and so on). Everything else a command carries is data, of any value. -/

namespace Sys2Proof

/-- A word-aligned address (R5, R568). -/
def aligned4 (a : Word) : Bool := a.toNat % 4 == 0

/-- A reference to an active command: queue 0 to 3, slot 0 to 255 (R369, R371). -/
def refOk (r : CmdRef) : Bool := decide (r.q < 4) && decide (r.slot < 256)

/-- Timers are numbered 0 to 15 and expire on the 1 ms grid (R207, R215). -/
def TaskAsks.wf (a : TaskAsks) : Bool := a.timers.all fun e => decide (e.1 < 16) && decide (e.2 % 1000000 = 0)

/-- A word of memory stands with 7 check bits in 39 bits, so at most 39 are in error (R82, R417). -/
def eccOk (ecc : List (Word × Nat)) : Bool := ecc.all fun e => aligned4 e.1 && decide (e.2 ≤ 39)

/-- An access names a task from 0 to 47 and at most 39 bits in error (R207, R417). -/
def AccessEnv.wf (e : AccessEnv) : Bool :=
  decide (e.nerr ≤ 39) && (match e.src with | .task n => decide (n < 48) | .firmware => true | .debug => true)

/-- Every operand within the range the manual gives it. -/
def Instr.wf : Instr → Bool
  | .registerWrite _ addr _ env => aligned4 addr && env.wf
  | .badWidthAccess _ _ _ _ env => env.wf
  | .unmappedAccess _ addr _ => aligned4 addr
  | .tickFrame _ _ _ => true
  | .rateCheckWindow _ _ => true
  | .holdoverEntry _ => true
  | .holdoverExit _ => true
  | .timebaseRestart _ => true
  | .catchInputs _ task _ => decide (task < 48)
  | .consensusFrame _ _ task _ _ => decide (task < 48)
  | .telegramFetch _ _ task tlg => decide (task < 48) && decide (tlg.length ≤ 256)
  | .consensusDeadline _ task _ => decide (task < 48)
  | .voteInstant _ task _ _ asks _ => decide (task < 48) && asks.wf
  | .finish _ task _ => decide (task < 48)
  | .idleExit _ _ => true
  | .arm _ => true
  | .cmaxClr _ => true
  | .tmrStrokeWrite _ _ => true
  | .pairing _ _ _ _ => true
  | .startTimeout _ => true
  | .eventTaskRelease _ task _ => decide (task < 48)
  | .programTimerExpiry _ timer _ => decide (timer < 16)
  | .cellWindowWrite _ addr _ nerr => aligned4 addr && decide (nerr ≤ 39)
  | .rleCheck _ ecc => eccOk ecc
  | .rleCheckDone _ => true
  | .rleLock _ => true
  | .rleStroke _ ecc => eccOk ecc
  | .rleStrokeDone _ _ => true
  | .approachTimerExpiry _ ard => decide (ard < 4096)
  | .overlapTimerExpiry _ cell => decide (cell < 16384)
  | .timedSectionRelease _ cell => decide (cell < 16384)
  | .moveTimeout _ cell => decide (cell < 16384)
  | .crossingCloseTimeout _ cell => decide (cell < 16384)
  | .rleNreqWrite _ _ => true
  | .vmaxClr _ => true
  | .rleBaseWrite _ _ _ => true
  | .retainedStateDigest _ _ _ => true
  | .level1Frame _ _ ctx _ _ => decide (ctx < 8)
  | .level1Deadline _ ctx _ => decide (ctx < 8)
  | .segmentHashExchange _ _ ctx block _ _ => decide (ctx < 8) && decide (block < 128)
  | .segmentFetch _ _ ctx seg bytes _ => decide (ctx < 8) && decide (seg < 8192) && decide (bytes.length = 64)
  | .answerDeadline _ ctx _ => decide (ctx < 8)
  | .verdictFrame _ _ ctx _ _ => decide (ctx < 8)
  | .verdictDeadline _ ctx _ => decide (ctx < 8)
  | .leaveResetAssert _ _ => true
  | .leaveNotice _ _ _ => true
  | .easyAllNotice _ _ _ => true
  | .hubEasyAllNotice _ _ => true
  | .restrictiveFinish _ _ => true
  | .voteCmdEasy _ => true
  | .voteCmdReadmit _ => true
  | .voteCmdLeave _ => true
  | .readmitRequest _ _ _ => true
  | .readmitPage _ _ pg ctx bytes _ _ _ => decide (pg < 1152) && decide (ctx < 8) && decide (bytes.length = 4096)
  | .readmitFullPassDone _ => true
  | .readmitRetryHoldoff _ => true
  | .voteCfgWrite _ _ _ => true
  | .xlIdleSend _ link _ => decide (link < 2)
  | .xlFrame _ link _ _ _ _ _ => decide (link < 2)
  | .xlLinkTimeout _ link _ => decide (link < 2)
  | .xlRetrainTimer _ link _ => decide (link < 2)
  | .xlLinkUp _ link => decide (link < 2)
  | .xlRetrain _ link => decide (link < 2)
  | .xlErrClear _ link => decide (link < 2)
  | .trap _ core code _ => decide (core < 2) && decide (code < 8)
  | .trapReturn _ core => decide (core < 2)
  | .interruptEntry _ => true
  | .sysregWrite _ core _ _ rd _ => decide (core < 2) && decide (rd < 32)
  | .swiSet _ => true
  | .signatureWindowClose _ _ _ _ => true
  | .injectionTestStart _ => true
  | .debugHalt _ => true
  | .debugResetRequest _ => true
  | .benchGrant _ => true
  | .core1Start _ _ => true
  | .wdtKick _ _ _ => true
  | .wdtWarning _ _ => true
  | .wdtExpiry _ _ => true
  | .wdtCfgWrite _ _ => true
  | .lockup _ _ _ => true
  | .exclusiveLoad _ _ _ => true
  | .exclusiveStore _ _ _ _ => true
  | .taskException _ task _ _ => decide (task < 48)
  | .programBreakpoint _ task _ => decide (task < 48)
  | .retainList _ _ _ => true
  | .carryMapDigest _ _ _ _ => true
  | .prepareReadback _ _ => true
  | .readyNotice _ _ => true
  | .onlineChangeSwitch _ _ => true
  | .commitReadback _ _ => true
  | .commitTimeout => true
  | .fieldSample m _ => decide (m.sink.length = 32)
  | .fieldFrame _ bytes _ => decide (bytes.length = 64)
  | .fieldRateWindow _ _ => true
  | .fieldConfigSend _ _ => true
  | .fieldConfigFrame _ words _ => decide (words.length = 51)
  | .comparatorDebounce k _ _ _ => decide (k < 32)
  | .testPulseGap k _ => decide (k < 8)
  | .testPulsePeriodEnd k _ => decide (k < 32)
  | .calRequest _ _ _ => true
  | .calibrationStart ch _ => decide (ch < 32)
  | .calibrationEnd _ _ => true
  | .outputOffTest k _ _ => decide (k < 16)
  | .openLoad k => decide (k < 16)
  | .overload k => decide (k < 16)
  | .shortVf k => decide (k < 16)
  | .offTestEnd k _ _ _ _ => decide (k < 16)
  | .fieldImageBlock _ _ _ => true
  | .fldpCfgWrite _ _ _ => true
  | .fieldUndervoltage => true
  | .fieldBrownOut => true
  | .fieldPowerOn _ => true
  | .fieldOvertemp => true
  | .fieldSleep _ => true
  | .discrepancyTimeout _ _ _ => true
  | .cycleStart k _ => decide (k < 6)
  | .cycleStartFrame k _ _ _ => decide (k < 6)
  | .downlinkSlot k slot _ => decide (k < 6) && decide (slot < 256)
  | .uplinkFrame k _ _ _ _ => decide (k < 6)
  | .delayMeasurement k _ _ => decide (k < 6)
  | .nodeAbsent k node => decide (k < 6) && (decide (0 < node) && decide (node ≤ 64))
  | .ringListenTimeout k _ => decide (k < 6)
  | .ringEnable k _ _ => decide (k < 6)
  | .ratingCheck => true
  | .ratingCheckDone => true
  | .ringCmdAnnounce k rating => decide (k < 6) && decide (rating < 8)
  | .ringCmdCancel k => decide (k < 6)
  | .ringCmdRestart k _ => decide (k < 6)
  | .announceTarget k => decide (k < 6)
  | .lossOfSignal k _ => decide (k < 6)
  | .remoteFault k _ => decide (k < 6)
  | .ringWrap k _ => decide (k < 6)
  | .unwrapAnnounce k => decide (k < 6)
  | .ringErrClear k _ => decide (k < 6)
  | .supervisionTimeout _ conn _ => decide (conn < 512)
  | .corruptionClose _ conn _ => decide (conn < 512)
  | .corruptionDecay _ conn _ => decide (conn < 512)
  | .holdoffExpiry _ conn _ => decide (conn < 512)
  | .respondedTimeout _ conn _ => decide (conn < 512)
  | .signEngineCheck _ conn tlg => decide (conn < 512) && decide (tlg.length ≤ 256)
  | .telegramAssembly _ => true
  | .ethernetFrame port _ _ => decide (port < 4)
  | .heartbeatSend _ => true
  | .heartbeat link _ _ _ _ => decide (link < 2)
  | .yieldFrame link _ _ => decide (link < 2)
  | .fwdList link _ _ => decide (link < 2)
  | .fwdTlg link _ _ => decide (link < 2)
  | .partnerEst link _ _ => decide (link < 2)
  | .page link _ => decide (link < 2)
  | .fwdImg link _ => decide (link < 2)
  | .fwdAck link _ => decide (link < 2)
  | .pairStartTimeout _ => true
  | .heartbeatLoss _ => true
  | .takeover _ => true
  | .ptnrCntClear _ => true
  | .sqDoorbell q slot _ => decide (q < 4) && decide (slot < 256)
  | .cqHeadWrite q _ => decide (q < 4)
  | .commandDispatch _ => true
  | .commandCompletion r => refOk r
  | .hubRetryExhausted r _ => refOk r
  | .hostInterfaceReset => true
  | .spiTransaction _ => true
  | .hostWindowAccess _ _ _ _ _ => true
  | .hcmdDevrst _ => true
  | .hcmdPwrcyc _ _ => true
  | .identify r => refOk r
  | .status r => refOk r
  | .resumeTarget r => refOk r
  | .benchAuth r _ _ => refOk r
  | .start r => refOk r
  | .laneStatus r _ => refOk r
  | .laneReset r _ => refOk r
  | .settingsRead r _ _ => refOk r
  | .settingsWrite r _ _ _ => refOk r
  | .settingsCommit r _ => refOk r
  | .keySwitch r conn slot => refOk r && decide (conn < 512) && decide (slot < 2)
  | .stationInfo r => refOk r
  | .keyLoad r conn => refOk r && (decide (conn < 512) || conn == 0xFFFF)
  | .tlgSubmit r conn tlg _ => refOk r && decide (conn < 512) && decide (tlg.length ≤ 256)
  | .tlgReceive r conn => refOk r && (decide (conn < 512) || conn == 0xFFFF)
  | .connClose r conn => refOk r && decide (conn < 512)
  | .connStatus r conn => refOk r && decide (conn < 512)
  | .prgStart r => refOk r
  | .prgStop r => refOk r
  | .prgContinue r => refOk r
  | .prgChange r _ _ => refOk r
  | .forceSet r _ _ => refOk r
  | .forceClear r _ => refOk r
  | .commissionSet r _ _ => refOk r
  | .breakSet r task _ => refOk r && decide (task < 48)
  | .breakClear r task => refOk r && decide (task < 48)
  | .prgStatus r => refOk r
  | .recRead r _ _ => refOk r
  | .recHead r => refOk r
  | .updBegin r slot _ _ => refOk r && decide (slot < 2)
  | .updBlock r idx _ => refOk r && decide (idx < 512)
  | .updVerify r slot => refOk r && decide (slot < 2)
  | .updActivate r slot => refOk r && decide (slot < 2)
  | .updConfirm r => refOk r
  | .updStatus r slot => refOk r && decide (slot < 2)
  | .updForward r link => refOk r && decide (link < 2)
  | .ringAnnounce r k rating => refOk r && decide (k < 6) && decide (rating < 8)
  | .ringCancel r k => refOk r && decide (k < 6)
  | .ringRestart r k _ => refOk r && decide (k < 6)
  | .ringStatus r k => refOk r && decide (k < 6)
  | .pairYield r => refOk r
  | .pairStatus r => refOk r
  | .fieldCal r ch => refOk r && decide (ch < 32)
  | .fieldSnapshot r => refOk r
  | .easyAll r => refOk r
  | .moduleReset r _ => refOk r
  | .moduleResetAssert _ => true
  | .hibernate r _ _ => refOk r
  | .funcReinit r _ _ => refOk r
  | .bistResults r => refOk r
  | .bistFullNext r => refOk r
  | .bridgeRead _ _ _ _ => true
  | .bridgeReadResponse _ tag _ _ => decide (tag < 64)
  | .bridgeReadTimeout _ tag _ => decide (tag < 64)
  | .bridgeReadBudget _ tag _ => decide (tag < 64)
  | .tagQuarantineEnd _ tag _ => decide (tag < 64)
  | .bridgeWrite _ _ _ _ _ => true
  | .bridgeWriteAck _ win _ => decide (win < 8)
  | .bridgeWriteTimeout _ win _ => decide (win < 8)
  | .hubExportRead _ addr => aligned4 addr
  | .hubLaneWrite _ addr _ => aligned4 addr
  | .brgResume _ _ _ => true
  | .brgEqPop _ => true
  | .brgMsg _ _ => true
  | .laneMessageDelivery _ => true
  | .hubMessage _ _ => true
  | .brgHmsgPop _ => true
  | .semTake _ n _ _ => decide (n < 32)
  | .semGive _ n _ => decide (n < 32)
  | .brgCfgWrite _ _ _ => true
  | .brgCntClear _ _ => true
  | .sgwLoad => true
  | .canFrame port _ _ _ _ _ => decide (port < 4)
  | .sgwDestinationSend d _ => decide (d < 128)
  | .sgwSilenceTimeout d _ => decide (d < 128)
  | .busOffRecovery port => decide (port < 4)
  | .sgwCancntClear port _ => decide (port < 4)
  | .scrubRead _ _ => true
  | .mailboxAccess _ _ off _ _ _ nerr => decide (off < 0x40000) && decide (nerr ≤ 39)
  | .recordSubmission => true
  | .gapDropped _ => true
  | .crcStart _ _ _ => true
  | .crcDataWrite _ _ _ _ => true
  | .loaderFrame _ _ _ _ _ _ => true
  | .rollingStep _ => true
  | .rollingStepTimeout => true
  | .hubReadyTimeout _ => true
  | .holdSenseSample code _ => decide (code < 4096)
  | .droopCheck _ => true
  | .gatedWriteRetry _ => true
  | .clockMonitorWindow _ _ _ _ => true
  | .crystalStop _ _ _ => true
  | .pllUnlock _ _ _ _ => true
  | .xtRecovery _ => true
  | .aonClockFail => true
  | .resetNAssert _ => true
  | .resetNRelease _ => true
  | .powerOnReset _ _ _ => true
  | .brownOut _ rail _ => decide (rail < 8)
  | .rstcSwr _ _ _ => true
  | .trimLoadDone _ _ => true
  | .resetRelease _ _ _ => true
  | .blockReset _ _ => true
  | .blockIdleAck _ => true
  | .blockIdleTimeout _ => true
  | .supplyOutOfRange _ rail _ => decide (rail < 4)
  | .supplySettled _ _ => true
  | .pmbusRequest _ _ => true
  | .pmbusAck _ _ _ _ _ => true
  | .pmbusAckTimeout _ _ => true
  | .pwrcVsetWrite _ _ => true
  | .hibernateEntryStep _ _ => true
  | .wakeEvent _ _ => true
  | .wakeSequenceStep _ => true
  | .bistDone _ _ _ _ _ _ _ _ => true
  | .hubTempAlarm _ => true
  | .fwdAckSend _ => true
  | .fieldUndervoltageEnd => true
  | .fieldOvertempEnd => true
  | .testPulseGapEnd k _ => decide (k < 8)
  | .overloadRelease k _ => decide (k < 16)
  | .hbusyNRelease _ => true
  | .pwrcycPulseEnd _ => true
  | .hubWatchdogExpiry => true
  | .hubLockup => true
  | .recChunkWritten => true
  | .canFrameSent port _ => decide (port < 4)
  | .hubVddioRestored => true
  | .signalRestored k _ => decide (k < 6)

end Sys2Proof
end

