-- ==== Sys2Proof/Certificates/Slice0/Obligations.lean ====
section
/-! DEFINITION. The statements about this model, from the numbered rules of the manual. In each, `exec` answers a next state `t`; what `t`
holds and what it leaves as it was is said in the terms of Sys2Proof/Safety.lean. -/

open Sys2Proof Sys2Proof.Machine

/-- A step is the command at the front of the queue, run on the state with the rest of the queue; the block's counterpart of fetching and executing one
instruction. On an empty queue the block idles: the next state is the state (the model's choice, Assumption 1). Every command, in every form and
every state, answers a next state, but for an access of the hub to one of its firmware blocks, whose registers R572 keeps to firmware. -/
def Obligations.StepRunsTheFrontCommand : Prop :=
  (∀ (s : State) (c : Instr) (rest : List Instr), s.pending = c :: rest → step s = exec c { s with pending := rest }) ∧
  (∀ s : State, s.pending = [] → step s = .next s) ∧
  (∀ (c : Instr) (s : State),
     (∀ m addr w acc env, (c = .registerWrite m addr acc env ∨ c = .badWidthAccess m addr w acc env ∨ c = .unmappedAccess m addr acc) →
       firmwareBlock m addr.toNat = none) →
     ∃ t, exec c s = .next t)

/-- Reset lists nothing that equals what an unlisted place reads as. At reset no lane drives or signs. Right after the AON power-on every die is held
with its cause, `POR` in the lanes, `POR` and `AONPOR` in the hub, and nothing waits. -/
def Obligations.ResetIsCanonicalAndGuarded : Prop :=
  (State.reset.canon = true) ∧
  (State.reset.OutputsGuarded ∧ ∀ l, (State.reset.lane l).silent = true) ∧
  (State.reset.hub.rg HRST_CAUSE = 0x1001#32 ∧ State.reset.hub.rst.held = true ∧ State.reset.fieldRst.held = true ∧ State.reset.pending = [] ∧
     State.reset.hub.fget HCMD_STAT_EPOCH = 0 ∧ State.reset.hub.sram = [] ∧
     ∀ l, (State.reset.lane l).rg RST_CAUSE = 1#32 ∧ (State.reset.lane l).rst.held = true ∧ (State.reset.lane l).sram = [] ∧
       (State.reset.lane l).fget VOTE_STAT_MODE = 0 ∧ (State.reset.lane l).fld.dyn = 0)

/-- Every step keeps every register store, SRAM, mailbox and flash in canonical form, so that equal memories are equal data. -/
def Obligations.EveryStepKeepsStoresCanonical : Prop :=
  ∀ s t : State, s.canon = true → step s = .next t → t.canon = true

/-- No command changes the fuses (the OTP is written in manufacture), reorders or adds to the queue, or takes the time back (R38). -/
def Obligations.EveryStepKeepsFusesAndNeverTurnsTimeBack : Prop :=
  ∀ s t : State, step s = .next t → t.fuses = s.fuses ∧ t.pending = s.pending.tail ∧ s.now ≤ t.now

/-- Every step keeps the outputs guarded, whatever the command: a dynamic signal runs only while the lane's dynamics are enabled, none runs in easy all,
and a split-core module neither drives nor signs. -/
def Obligations.EveryStepKeepsOutputsGuarded : Prop :=
  ∀ s t : State, s.OutputsGuarded → step s = .next t → t.OutputsGuarded

/-- TICK_FRAME: a frame with a correct CRC within ±2 µs is accepted and ends the run of missing ticks; any other counts as missing. A wrong CRC sets
`TICK_CRC_ERR`. Frame: the follower and `TMR_STAT` only. RATE_CHECK_WINDOW, HOLDOVER_ENTRY, HOLDOVER_EXIT, TIMEBASE_RESTART and IDLE_EXIT: a count
outside 24,875 to 25,125 sets `RATE_ERR` and makes a voter's leave due; 100 missing ticks enter holdover; only 100 passed ticks leave it; ticks
start again from the time the lanes last published and the time passed since. -/
def Obligations.FollowersTakeGoodTicksAndTheirRates : Prop :=
  (∀ (s : State) (l : LaneId) (own : Nat) (frame : Option (Dword × Half)), (s.lane l).rst.held = false →
     ∃ t, exec (.tickFrame l own frame) s = .next t ∧ s.OnlyLane t l ∧
       t.lane l = { s.lane l with reg := (t.lane l).reg, fol := (t.lane l).fol, notes := [] } ∧
       (s.lane l).RegsKept (t.lane l) [TMR_STAT] ∧
       (∀ v crc, frame = some (v, crc) → crc.toNat = crc16 (beBytes 8 v.toNat) → v.toNat ≤ own + 2000 → own ≤ v.toNat + 2000 →
         (s.lane l).on TMR_STAT_HOLDOVER = false →
           (t.lane l).fol.missRun = 0 ∧ (t.lane l).fol.time = max (max (s.lane l).fol.time own) v.toNat) ∧
       (∀ v crc, frame = some (v, crc) → crc.toNat ≠ crc16 (beBytes 8 v.toNat) →
         (t.lane l).on TMR_STAT_TICK_CRC_ERR = true ∧ (t.lane l).fol.missRun = satInc 100 (s.lane l).fol.missRun) ∧
       (∀ v crc, frame = some (v, crc) → (own + 2000 < v.toNat ∨ v.toNat + 2000 < own) →
         (t.lane l).fol.missRun = satInc 100 (s.lane l).fol.missRun) ∧
       (frame = none → (t.lane l).fol.missRun = satInc 100 (s.lane l).fol.missRun)) ∧
  ((∀ (s : State) (l : LaneId) (n : Nat), (s.lane l).rst.held = false → (s.lane l).on TMR_STAT_HOLDOVER = false → (s.lane l).easy = false →
     ∃ t, exec (.rateCheckWindow l n) s = .next t ∧ s.OnlyLane t l ∧ (s.lane l).RegsKept (t.lane l) [TMR_TICK, TMR_STAT] ∧
       (t.lane l).fget TMR_TICK_XCOUNT = min 65535 n ∧
       (24875 ≤ n ∧ n ≤ 25125 → (t.lane l).rg TMR_STAT = (s.lane l).rg TMR_STAT ∧ (t.lane l).due = (s.lane l).due) ∧
       (n < 24875 ∨ 25125 < n → (t.lane l).on TMR_STAT_RATE_ERR = true ∧ (t.lane l).due = (s.lane l).due ++ [(0x06, none)])) ∧
   (∀ (s : State) (l : LaneId), (s.lane l).rst.held = false → (s.lane l).on TMR_STAT_HOLDOVER = false → 100 ≤ (s.lane l).fol.missRun →
     ∃ t, exec (.holdoverEntry l) s = .next t ∧ s.OnlyLane t l ∧ (s.lane l).RegsKept (t.lane l) [TMR_STAT] ∧
       t.lane l = { s.lane l with reg := (t.lane l).reg, fol := (t.lane l).fol, notes := [] } ∧
       (t.lane l).on TMR_STAT_HOLDOVER = true ∧ (t.lane l).fol.time = (s.lane l).fol.time) ∧
   (∀ (s : State) (l : LaneId), (s.lane l).rst.held = false → (s.lane l).on TMR_STAT_HOLDOVER = true →
     ∃ t, exec (.holdoverExit l) s = .next t ∧ s.OnlyLane t l ∧ (s.lane l).RegsKept (t.lane l) [TMR_STAT] ∧
       t.lane l = { s.lane l with reg := (t.lane l).reg, fol := (t.lane l).fol, notes := [] } ∧
       (t.lane l).on TMR_STAT_HOLDOVER = decide ((s.lane l).fol.goodRun < 100)) ∧
   (∀ (s : State) (since : Nat), s.hub.up = true → s.hub.upd.loader = false → s.hub.ticks = false → s.hub.on CLKC_HSTAT_XT_OK = true →
     ∃ t, exec (.timebaseRestart since) s = .next t ∧
       let tb := max s.hub.mbxA.pubTime (max s.hub.mbxB.pubTime s.hub.mbxC.pubTime) + since
       t = { s with now := max s.now tb, hub := { s.hub with tb := tb, ticks := true } }) ∧
   (∀ (s : State) (l : LaneId) (tm : Nat), (s.lane l).rst.held = false →
     ∃ t, exec (.idleExit l tm) s = .next t ∧ s.OnlyLane t l ∧
       t.lane l = { s.lane l with idle := false, fol := { (s.lane l).fol with time := max (s.lane l).fol.time tm }, notes := [] }))

/-- TMR_STROKE_WRITE (R74): in sit ready and not armed a write within the limits sets both fields; one outside them changes neither and sets `CFG_ERR`;
at any other time a write is ignored. Frame: `TMR_STROKE` and `TMR_STAT` only. -/
def Obligations.StrokeSettingsWritableOnlyBeforeArming : Prop :=
  ∀ (s : State) (l : LaneId) (v : Word), (s.lane l).rst.held = false →
    ∃ t, exec (.tmrStrokeWrite l v) s = .next t ∧ s.OnlyLane t l ∧ (s.lane l).OnlyRegs (t.lane l) [TMR_STROKE, TMR_STAT] ∧
      let p := bvField v 0 10
      let d := bvField v 16 12
      let free := (s.lane l).sitReady = true ∧ (s.lane l).armed = false
      let fits := 10 ≤ p ∧ p ≤ 1000 ∧ 10 ≤ d ∧ d ≤ 4 * p
      (free ∧ fits →
        (t.lane l).fget TMR_STROKE_PERIOD = p ∧ (t.lane l).fget TMR_STROKE_CDL = d ∧ (t.lane l).rg TMR_STAT = (s.lane l).rg TMR_STAT) ∧
      (free ∧ ¬ fits → (t.lane l).rg TMR_STROKE = (s.lane l).rg TMR_STROKE ∧ (t.lane l).on TMR_STAT_CFG_ERR = true) ∧
      (¬ free → (t.lane l).reg = (s.lane l).reg)

/-- ARM and CMAX_CLR: a lane arms when every start-up check has passed; without the injection test, in a lane that is not split-core, the arm is refused
with `ARM_REFUSED` (R45, R73). PAIRING: armed lanes of a module in sit ready, over a link that is up, pair when the values are equal, and the first
pairing of a lane with `AUTO_START` sets its first catch on a multiple of P at least 10 ms later (R46, R47). -/
def Obligations.ArmedLanesPairByEqualValues : Prop :=
  ((∀ (s : State) (l : LaneId), (s.lane l).rst.held = false → (s.lane l).sitReady = true → (s.lane l).armed = false →
     ∃ t, exec (.arm l) s = .next t ∧ s.OnlyLane t l ∧ (s.lane l).OnlyRegs (t.lane l) [TMR_STAT, LCTL_STAT] ∧
       (s.split = false ∧ (s.lane l).injPassed = false → (t.lane l).on TMR_STAT_ARM_REFUSED = true ∧ (t.lane l).armed = false) ∧
       ((s.split = true ∨ (s.lane l).injPassed = true) ∧ (s.lane l).checksBut = true →
         (t.lane l).armed = true ∧ (t.lane l).on LCTL_STAT_BENCH = ((s.lane l).on LCTL_STAT_STRAP && (s.lane l).on LCTL_STAT_AUTH)) ∧
       ((s.lane l).checksBut = false → (t.lane l).armed = false)) ∧
   (∀ (s : State) (l : LaneId), (s.lane l).rst.held = false →
     ∃ t, exec (.cmaxClr l) s = .next t ∧ s.OnlyLane t l ∧ (s.lane l).OnlyRegs (t.lane l) [TMR_CMAX] ∧ (t.lane l).rg TMR_CMAX = 0)) ∧
  (∀ (s : State) (dst src : LaneId) (v : PairValues) (tm : Nat),
     (s.lane dst).rst.held = false → (s.lane dst).armed = true → (s.lane dst).sitReady = true → s.modSitReady = true → dst ≠ src →
     (s.lane dst).linkUp ((s.lane dst).linkTo src) = true → (s.lane dst).start.firstCatch = none →
     ∃ t, exec (.pairing dst src v tm) s = .next t ∧ s.OnlyLane t dst ∧ (t.lane dst).reg = (s.lane dst).reg ∧
       (v = (s.lane dst).pairValues →
         src ∈ (t.lane dst).start.paired ∧ dst ∈ (t.lane dst).start.paired ∧
         ((s.lane dst).set.autoStart = true → 0 < (s.lane dst).period →
           (∀ y ∈ insertL src (insertL dst (s.lane dst).start.paired), (s.lane y).start.firstCatch = none) →
           ∃ f, (t.lane dst).start.firstCatch = some f ∧ tm + 10000000 ≤ f ∧ f < tm + 10000000 + (s.lane dst).period ∧
             f % (s.lane dst).period = 0)) ∧
       (v ≠ (s.lane dst).pairValues → (t.lane dst).start.paired = (s.lane dst).start.paired ∧ (t.lane dst).start.firstCatch = none))

/-- START_TIMEOUT: 30 s after reset release with fewer than two lanes paired, every lane in sit ready enters easy all with the cause START_TIMEOUT
(R49). -/
def Obligations.StartTimeoutEntersEasyAll : Prop :=
  ∀ (s : State) (tm : Nat), s.modSitReady = true → (∀ l, (s.lane l).start.paired.length < 2) →
    (∀ l, (s.lane l).start.release + 30000000000 ≤ tm) →
    ∃ t, exec (.startTimeout tm) s = .next t ∧ t.hub = s.hub ∧ t.field = s.field ∧
      ∀ l, ((s.lane l).rst.held = false → (s.lane l).sitReady = true →
          (t.lane l).easy = true ∧ (t.lane l).fget VOTE_EASY_CAUSE = 0x07 ∧ (t.lane l).on VOTE_STAT_DYN_EN = false ∧ (t.lane l).fld.dyn = 0) ∧
        ((s.lane l).rst.held = true → t.lane l = s.lane l)

/-- CATCH. At a multiple of P one period after the last catch a voter numbers the stroke, freezes its image and forms its consensus frame; with a
voter's frame still to come nothing is decided (R39, R42, R51, R53). At its due instant another task is caught in the same way, without a new stroke
(R64, R65). The first catch makes a paired lane a voter, with every paired lane in its set, and takes the module into running (R46, R47). At an
instant that is no catch of the task a voter changes nothing but its time, and in sit ready only the first catch does anything. -/
def Obligations.CatchNumbersTheStrokeAndFormsTheFrame : Prop :=
  (∀ (s : State) (l y : LaneId) (tn : Nat),
    (s.lane l).id = l → (s.lane l).rst.held = false → (s.lane l).easy = false → (s.lane l).sitReady = false → (s.lane l).inVote = true →
    (s.lane l).shadow = false →
    (s.lane l).fget VOTE_READM_RSTEP = 0 → (s.lane l).readm.who = none → (s.lane l).gone = [] →
    (s.lane l).prog.modeNext = none → (s.lane l).prog.chg.stage = .none → (s.lane l).yieldNext = false →
    (∀ k, (s.lane k).linkUp 0 = true ∧ (s.lane k).linkUp 1 = true) →
    l ∈ (s.lane l).inset → y ∈ (s.lane l).inset → y ≠ l → (∀ k, (s.lane l).taskOf 0 = some k → ∀ e ∈ k.peers, e.1 = y → e.2.tn ≠ tn) →
    (∀ k ∈ (s.lane l).tasks, k.active = true → k.tnum ≠ 0 ∧ k.tn + (s.lane l).dOf k.tnum + voteWindow k.tnum ≠ tn) →
    0 < (s.lane l).period → tn % (s.lane l).period = 0 → tn = (s.lane l).fol.tn + (s.lane l).period →
    ∃ t k f, exec (.catchInputs l 0 tn) s = .next t ∧ s.OnlyLaneAndMbx t l ∧
      (t.lane l).stroke = (s.lane l).stroke + 1 ∧ (t.lane l).fol.tn = tn ∧ (t.lane l).inVote = true ∧
      (t.lane l).prog.asked = (s.lane l).prog.asks ∧ (t.lane l).prog.asks = [] ∧ (t.lane l).prog.timers = (s.lane l).prog.timers ∧
      (t.lane l).rg VOTE_STAT = (s.lane l).rg VOTE_STAT ∧ (t.lane l).fld.dyn = (s.lane l).fld.dyn ∧
      (t.lane l).taskOf 0 = some k ∧ k.active = true ∧ k.tn = tn ∧ k.decided = false ∧ k.own = some f ∧
      f.stroke = (s.lane l).stroke + 1 ∧ f.tn = tn ∧ f.inVote = true ∧ f.holdover = (s.lane l).on TMR_STAT_HOLDOVER) ∧
  (∀ (s : State) (l y : LaneId) (task tn : Nat) (k : TaskRun),
    (s.lane l).id = l → (s.lane l).rst.held = false → (s.lane l).easy = false → (s.lane l).sitReady = false → (s.lane l).inVote = true →
    (s.lane l).shadow = false → (s.lane l).gone = [] → (s.lane l).prog.chg.stage = .none → task ≠ 0 →
    y ∈ (s.lane l).inset → y ≠ l → ((s.lane l).link ((s.lane l).linkTo y)).eff = true →
    (s.lane l).taskOf task = some k → (∀ e ∈ k.peers, e.1 = y → e.2.tn ≠ tn) → (s.lane l).catchDue task tn = true →
    (∀ j ∈ (s.lane l).tasks, j.active = true → j.tn + (s.lane l).dOf j.tnum + voteWindow j.tnum ≠ tn) →
    ∃ t k' f, exec (.catchInputs l task tn) s = .next t ∧ s.OnlyLaneAndMbx t l ∧
      (t.lane l).stroke = (s.lane l).stroke ∧ (t.lane l).fol.tn = (s.lane l).fol.tn ∧ (t.lane l).rg VOTE_STAT = (s.lane l).rg VOTE_STAT ∧
      (t.lane l).fld.dyn = (s.lane l).fld.dyn ∧ (t.lane l).taskOf task = some k' ∧ k'.active = true ∧ k'.tn = tn ∧ k'.decided = false ∧
      k'.mode = (s.lane l).prog.mode ∧ k'.own = some f ∧ f.stroke = (s.lane l).stroke ∧ f.tn = tn ∧ f.inVote = true) ∧
  (∀ (s : State) (l y : LaneId) (tn : Nat),
    (s.lane l).id = l → (s.lane l).rst.held = false → (s.lane l).sitReady = true → (s.lane l).start.firstCatch = some tn →
    l ∈ (s.lane l).start.paired → y ∈ (s.lane l).start.paired → y ≠ l → (s.lane l).tasks = [] → (s.lane l).readm.who = none →
    (s.lane l).prog.modeNext = none → (s.lane l).prog.chg.stage = .none → (s.lane l).yieldNext = false →
    (∀ k, (s.lane k).linkUp 0 = true ∧ (s.lane k).linkUp 1 = true) →
    ∃ t, exec (.catchInputs l 0 tn) s = .next t ∧ t.phase = .running ∧ t.field = s.field ∧
      (t.lane l).inVote = true ∧ (t.lane l).inset = allLanes.filter (s.lane l).start.paired.contains ∧
      (t.lane l).mode = (if (t.lane l).inset.length = 3 then 1 else 2) ∧ (t.lane l).on TMR_STAT_RUNNING = true ∧
      (t.lane l).stroke = (s.lane l).stroke + 1 ∧ (t.lane l).fol.tn = tn ∧ (t.hub.mbx l).inTlg = [] ∧
      ∀ z, z ≠ l → (z ∈ (s.lane l).start.paired → t.lane z = s.lane z) ∧
        (z ∉ (s.lane l).start.paired → (s.lane z).rst.held = false → (s.lane z).sitReady = true → (t.lane z).mode = 3)) ∧
  (∀ (s : State) (l : LaneId) (tn : Nat),
    (s.lane l).rst.held = false → (s.lane l).sitReady = true → (s.lane l).start.firstCatch ≠ some tn →
    ∃ t, exec (.catchInputs l 0 tn) s = .next t ∧ s.OnlyLane t l ∧ (t.lane l).reg = (s.lane l).reg ∧ (t.lane l).tasks = (s.lane l).tasks) ∧
  (∀ (s : State) (l : LaneId) (task tn : Nat),
    (s.lane l).rst.held = false → (s.lane l).easy = false → (s.lane l).sitReady = false → (s.lane l).inVote = true →
    (s.lane l).fget VOTE_READM_RSTEP = 0 → (s.lane l).prog.chg.stage = .none → (s.lane l).catchDue task tn = false →
    (∀ k ∈ (s.lane l).tasks, k.active = true → k.tn + (s.lane l).dOf k.tnum + voteWindow k.tnum ≠ tn) →
    ∃ t, exec (.catchInputs l task tn) s = .next t ∧
      t = (s.laneAt l tn).modLane l fun x => { x with idle := false })

/-- Admission (R55, R58): an admitted entry stands, equal in all three fields, in at least two of the lists; an entry that another list contradicts in
its digest alone is not admitted; and no lane lacks more than 64 admitted entries. -/
def Obligations.AdmissionNeedsTwoEqualEntries : Prop :=
  ∀ (lists : List (LaneId × List ConsEntry)), (lists.map (·.1)).Nodup →
    (∀ e ∈ (admission lists).1, 2 ≤ (lists.filter fun x => x.2.contains e).length) ∧
    (∀ e ∈ (admission lists).1, ∀ x ∈ lists, ∀ g ∈ x.2, g.conn = e.conn → g.seq = e.seq → g.digest = e.digest) ∧
    (∀ x ∈ lists, ((admission lists).1.filter fun e => !x.2.contains e).length ≤ 64) ∧
    (admission lists).1.Nodup

/-- CONSENSUS_FRAME: a voter takes the frame of a voter it hears for the running catch, and with another voter's frame still to come decides nothing; a
frame of a lane outside its set counts as stray; in easy all frames are ignored, as are bytes that are no frame of the sender (R53, R60, R61, R165). -/
def Obligations.ConsensusFramesAreTakenFromVotersOnly : Prop :=
  (∀ (s : State) (dst src y : LaneId) (task : Nat) (k : TaskRun) (frame : List Byte) (f : ConsFrame) (tm : Nat), consOf src frame = some f →
    (s.lane dst).rst.held = false → (s.lane dst).easy = false → (s.lane dst).inVote = true → dst ≠ src → src ∈ (s.lane dst).staying →
    ((s.lane dst).link ((s.lane dst).linkTo src)).eff = true → (s.lane dst).on TMR_STAT_HOLDOVER = false → (s.lane dst).shadow = false →
    (s.lane dst).taskOf task = some k → k.active = true → k.decided = false → f.tn = k.tn → tm ≤ k.tn + (s.lane dst).consWindow task →
    y ∈ (s.lane dst).staying → y ≠ (s.lane dst).id → y ≠ src → ((s.lane dst).link ((s.lane dst).linkTo y)).eff = true →
    (∀ e ∈ k.peers, e.1 = y → e.2.tn ≠ k.tn) →
    ∃ t k', exec (.consensusFrame dst src task frame tm) s = .next t ∧ s.OnlyLane t dst ∧ (t.lane dst).reg = (s.lane dst).reg ∧
      (t.lane dst).sram = (s.lane dst).sram ∧ (t.lane dst).taskOf task = some k' ∧ (src, f) ∈ k'.peers ∧ k'.decided = false) ∧
  (∀ (s : State) (dst src : LaneId) (task : Nat) (frame : List Byte) (f : ConsFrame) (tm : Nat), consOf src frame = some f →
    (s.lane dst).rst.held = false → (s.lane dst).easy = false → (s.lane dst).inVote = true → (s.lane dst).shadow = false → dst ≠ src →
    src ∉ (s.lane dst).inset → (s.lane dst).readm.who ≠ some src →
    ∃ t, exec (.consensusFrame dst src task frame tm) s = .next t ∧ s.OnlyLane t dst ∧ (t.lane dst).tasks = (s.lane dst).tasks ∧
      (s.lane dst).RegsKept (t.lane dst) [VOTE_CNT] ∧
      (t.lane dst).fget VOTE_CNT_NSTRAY = min 0xFF ((s.lane dst).fget VOTE_CNT_NSTRAY + 1)) ∧
  (∀ (s : State) (dst src : LaneId) (task : Nat) (frame : List Byte) (tm : Nat),
    ((s.lane dst).easy = true ∨ consOf src frame = none) →
    ∃ t, exec (.consensusFrame dst src task frame tm) s = .next t ∧ t = s.laneAt dst tm)

/-- TELEGRAM_FETCH (R56): a fetched copy that the lane's own check passes, with the listed digest, joins the frozen telegrams; one that fails makes the
lane's leave with FETCH_BAD due at the vote instant. -/
def Obligations.FetchedCopiesAreCheckedByTheLane : Prop :=
  ∀ (s : State) (dst src : LaneId) (task : Nat) (k : TaskRun) (e : ConsEntry) (bs : List Byte),
    (s.lane dst).rst.held = false → (s.lane dst).easy = false → (s.lane dst).taskOf task = some k → k.active = true → k.decided = true →
    (∀ x ∈ k.toFetch, x.conn ≠ cmdConn) → e ∈ k.toFetch → k.listedBy src e = true → (∀ x ∈ k.toFetch, x.conn = e.conn → x.seq = e.seq → x = e) →
    e.conn = BitVec.ofNat 64 (beAt bs (bs.length - 16) 8) → e.seq.toNat = beAt bs 8 4 → removeL e k.toFetch ≠ [] →
    ∃ t k', exec (.telegramFetch dst src task bs) s = .next t ∧ s.OnlyLane t dst ∧ (t.lane dst).reg = (s.lane dst).reg ∧
      (t.lane dst).sram = (s.lane dst).sram ∧ (t.lane dst).taskOf task = some k' ∧ k'.toFetch = removeL e k.toFetch ∧
      let good := 16 ≤ bs.length ∧ ((s.lane dst).checkTlg bs k.tn).1 = .ok ∧ e.digest.toNat = crc32c bs
      (good → k'.frozen = k.frozen ++ [(e, { conn := 0, bytes := bs, t := k.tn })] ∧ (t.lane dst).due = (s.lane dst).due) ∧
      (¬ good → k'.frozen = k.frozen ∧ (t.lane dst).due = (s.lane dst).due ++ [(0x05, some task)])

/-- CONSENSUS_DEADLINE (R60): a voter that has its own frame only enters easy all; otherwise each voter whose frame is missing is due to leave with
CONS_LATE at the vote instant. VOTE_INSTANT: a voter that has not finished its compute leaves at once with OVERRUN (R71); one that has hands its
image to the vote context, whose digests go out (R150, R154), and what the code of its cycle asked for is taken (R51, R215, R255). -/
def Obligations.LateFramesAndOverrunsLeaveTheVote : Prop :=
  ((∀ (s : State) (l : LaneId) (task tm : Nat) (k : TaskRun),
     (s.lane l).rst.held = false → (s.lane l).easy = false → (s.lane l).inVote = true → (s.lane l).taskOf task = some k → k.active = true →
     k.decided = false → k.tn + (s.lane l).consWindow task ≤ tm → ((s.lane l).framesOf k).length < 2 →
     ∃ t, exec (.consensusDeadline l task tm) s = .next t ∧ t.hub = s.hub ∧ t.field = s.field ∧
       (t.lane l).easy = true ∧ (t.lane l).fget VOTE_EASY_CAUSE = 0x01 ∧ (t.lane l).inVote = false ∧
       (t.lane l).on VOTE_STAT_DYN_EN = false ∧ (t.lane l).fld.dyn = 0) ∧
   (∀ (s : State) (l y : LaneId) (task tm : Nat) (k : TaskRun),
     (s.lane l).rst.held = false → (s.lane l).easy = false → (s.lane l).inVote = true → (s.lane l).id = l →
     (s.lane l).taskOf task = some k → k.active = true → k.decided = false → k.tn + (s.lane l).consWindow task ≤ tm →
     2 ≤ ((s.lane l).framesOf k).length → y ∈ (s.lane l).awaits s.voters → (∀ e ∈ k.peers, e.1 = y → e.2.tn ≠ k.tn) →
     (s.lane y).inVote = true →
     ∃ t, exec (.consensusDeadline l task tm) s = .next t ∧ (t.lane y).due = (s.lane y).due ++ [(0x03, some task)] ∧
       (t.lane y).reg = (s.lane y).reg)) ∧
  ((∀ (s : State) (l y : LaneId) (task us tm : Nat) (asks : TaskAsks) (k : TaskRun),
     (s.lane l).rst.held = false → (s.lane l).easy = false → (s.lane l).inVote = true → (s.lane l).shadow = false → (s.lane l).gone = [] →
     (s.lane l).due = [] → l ∈ (s.lane l).inset → 2 ≤ (s.lane l).inset.length → (∀ y, (s.lane y).linkUp 0 = true ∧ (s.lane y).linkUp 1 = true) →
     (s.lane l).taskOf task = some k → k.active = true → k.decided = true → k.toFetch = [] → tm = k.tn + (s.lane l).dOf task →
     ((s.lane l).ctx ((s.lane l).ctxOf task)).stage = .idle → y ≠ l → (s.lane y).inVote = true →
     ∃ t, exec (.voteInstant l task false us asks tm) s = .next t ∧ s.OnlyLane t l ∧
       (t.lane l).inVote = false ∧ (t.lane l).on TMR_STAT_OVERRUN = true ∧ (t.lane l).fget VOTE_LEAVE_REASON = 0x02 ∧
       (t.lane l).silent = true ∧ (t.lane l).rst.due = some (false, 4, tm + finishDue ((s.lane l).ctxOf task))) ∧
   (∀ (s : State) (l : LaneId) (task us tm : Nat) (asks : TaskAsks) (k : TaskRun),
     (s.lane l).rst.held = false → (s.lane l).easy = false → (s.lane l).inVote = true → (s.lane l).shadow = false → (s.lane l).gone = [] →
     (s.lane l).due = [] → l ∈ (s.lane l).inset → 2 ≤ (s.lane l).inset.length → (∀ y, (s.lane y).linkUp 0 = true ∧ (s.lane y).linkUp 1 = true) →
     (s.lane l).taskOf task = some k → k.active = true → k.decided = true → k.toFetch = [] → tm = k.tn + (s.lane l).dOf task →
     (s.lane l).ctxOf task < (s.lane l).ctxs.length → (s.lane l).ctxEn ((s.lane l).ctxOf task) = true →
     ((s.lane l).ctx ((s.lane l).ctxOf task)).stage = .idle →
     ∃ t, exec (.voteInstant l task true us asks tm) s = .next t ∧ s.OnlyLane t l ∧
       (s.lane l).RegsKept (t.lane l) [TMR_CMAX, TMR_CLAST, LCTL_IRQ_PEND] ∧
       let c := (s.lane l).ctxOf task
       ((t.lane l).ctx c).stage = .level1 ∧ ((t.lane l).ctx c).v = tm ∧ ((t.lane l).ctx c).tn = k.tn ∧
       ((t.lane l).ctx c).image = ((t.lane l).withCommitted task).image c ∧
       ((t.lane l).ctx c).dig = imageDigests k.tn c ((t.lane l).ctx c).image ∧
       (k.mode = .run → k.excepted = false → k.broke = false →
         (t.lane l).prog.asks = (s.lane l).prog.asks ++ asks.routes ∧ (t.lane l).fld.clrReq = (s.lane l).fld.clrReq ||| asks.clear ∧
         (t.lane l).prog.timers = asks.timers.foldl startTimer (s.lane l).prog.timers) ∧
       (k.mode ≠ .run ∨ k.excepted = true ∨ k.broke = true →
         (t.lane l).prog = (s.lane l).prog ∧ (t.lane l).fld.clrReq = (s.lane l).fld.clrReq)))

/-- FINISH: a voter that committed enables its dynamics, its sign engine where it agreed, unless split-core, and its task's cycle ends; the stroke's
finish also publishes the time for the hub; a lane that is not in the vote changes neither and places no telegram; at another instant nothing
changes (R38, R68, R69, R172, R174). -/
def Obligations.FinishEnablesOnlyVotersThatAgree : Prop :=
  (∀ (s : State) (l : LaneId) (task tm : Nat) (k : TaskRun),
    (s.lane l).rst.held = false → (s.lane l).easy = false → (s.lane l).inVote = true → s.split = false → task ≠ 0 →
    (s.lane l).readm.who = none → (s.lane l).taskOf task = some k → k.active = true →
    tm = k.tn + (s.lane l).dOf task + voteWindow task → ((s.lane l).ctx ((s.lane l).ctxOf task)).commit = true →
    ∃ t k', exec (.finish l task tm) s = .next t ∧ s.OnlyLaneAndMbx t l ∧ (t.lane l).on VOTE_STAT_DYN_EN = true ∧
      (t.lane l).on VOTE_STAT_SIGN_EN = ((s.lane l).ctx ((s.lane l).ctxOf task)).differs.isEmpty ∧
      (t.lane l).inVote = true ∧ (t.lane l).taskOf task = some k' ∧ k'.active = false ∧
      (s.lane l).RegsKept (t.lane l) [VOTE_STAT, FLDP_QLATCH]) ∧
  (∀ (s : State) (l : LaneId) (tm : Nat) (k : TaskRun),
    (s.lane l).id = l → (s.lane l).rst.held = false → (s.lane l).easy = false → (s.lane l).inVote = true → s.split = false →
    (s.lane l).readm.who = none → (s.lane l).taskOf 0 = some k → k.active = true → (s.lane l).prog.laneStep = false →
    tm = k.tn + (s.lane l).dOf 0 + voteWindow 0 → ((s.lane l).ctx ((s.lane l).ctxOf 0)).commit = true →
    ∃ t k', exec (.finish l 0 tm) s = .next t ∧ (∀ y, y ≠ l → t.lane y = s.lane y) ∧ t.field = s.field ∧
      (t.lane l).on VOTE_STAT_DYN_EN = true ∧
      (t.lane l).on VOTE_STAT_SIGN_EN = ((s.lane l).ctx ((s.lane l).ctxOf 0)).differs.isEmpty ∧
      (t.lane l).inVote = true ∧ (t.lane l).taskOf 0 = some k' ∧ k'.active = false ∧ (t.lane l).prog.cmdDone = [] ∧
      (t.hub.mbx l).pubTime = (t.lane l).fol.time ∧ (s.lane l).RegsKept (t.lane l) [VOTE_STAT, FLDP_QLATCH]) ∧
  (∀ (s : State) (l : LaneId) (task tm : Nat) (k : TaskRun),
    (s.lane l).rst.held = false → (s.lane l).easy = false → (s.lane l).inVote = false → (s.lane l).shadow = false →
    (s.lane l).taskOf task = some k → k.active = true → tm = k.tn + (s.lane l).dOf task + voteWindow task →
    ∃ t, exec (.finish l task tm) s = .next t ∧ s.OnlyLane t l ∧ (t.lane l).reg = (s.lane l).reg ∧
      (t.lane l).fld = (s.lane l).fld ∧ (t.hub.mbx l).outTlg = (s.hub.mbx l).outTlg) ∧
  (∀ (s : State) (l : LaneId) (task tm : Nat) (k : TaskRun),
    (s.lane l).taskOf task = some k → (k.active = false ∨ tm ≠ k.tn + (s.lane l).dOf task + voteWindow task) →
    ∃ t, exec (.finish l task tm) s = .next t ∧ t = s.laneAt l tm)

/-- LEVEL1_FRAME, SEGMENT_HASH_EXCHANGE, SEGMENT_FETCH and VERDICT_FRAME: a voter keeps what a voter sends for the step that runs, and changes nothing
else; one after its deadline sets `LATE` and is not kept (R154, R156, R158, R165). -/
def Obligations.VoteFramesAreKeptForTheRunningStep : Prop :=
  (∀ (s : State) (dst src : LaneId) (c : Nat) (ds : List Dword) (tm : Nat),
    (s.lane dst).rst.held = false → (s.lane dst).easy = false → (s.lane dst).inVote = true → src ∈ (s.lane dst).inset →
    (s.lane dst).votesIn c = true →
    ((s.lane dst).link ((s.lane dst).linkTo src)).eff = true → c < (s.lane dst).ctxs.length → ((s.lane dst).ctx c).stage = .level1 →
    ∃ t, exec (.level1Frame dst src c ds tm) s = .next t ∧ s.OnlyLane t dst ∧
      (tm ≤ ((s.lane dst).ctx c).v + level1Due c → (t.lane dst).reg = (s.lane dst).reg ∧ (src, ds) ∈ ((t.lane dst).ctx c).peerDig) ∧
      (((s.lane dst).ctx c).v + level1Due c < tm →
        (t.lane dst).ctxs = (s.lane dst).ctxs ∧ (t.lane dst).on VOTE_STAT_LATE = true ∧
        (s.lane dst).RegsKept (t.lane dst) [VOTE_STAT, LCTL_IRQ_PEND])) ∧
  (∀ (s : State) (dst src : LaneId) (c b : Nat) (hs : List Dword) (tm : Nat), (s.lane dst).rst.held = false → c < (s.lane dst).ctxs.length →
    ((s.lane dst).ctx c).stage = .answers → src ∈ ((s.lane dst).ctx c).voters → b ∈ ((s.lane dst).ctx c).blocks →
    ∃ t, exec (.segmentHashExchange dst src c b hs tm) s = .next t ∧ s.OnlyLane t dst ∧
      (tm ≤ ((s.lane dst).ctx c).v + answerDue c →
        t.lane dst = { s.lane dst with ctxs := (t.lane dst).ctxs, fol := (t.lane dst).fol, notes := [] } ∧
        (src, b, hs) ∈ ((t.lane dst).ctx c).hashes ∧ ∀ c', c' ≠ c → (t.lane dst).ctx c' = (s.lane dst).ctx c') ∧
      (((s.lane dst).ctx c).v + answerDue c < tm →
        (t.lane dst).ctxs = (s.lane dst).ctxs ∧ (t.lane dst).on VOTE_STAT_LATE = true ∧
        (s.lane dst).RegsKept (t.lane dst) [VOTE_STAT, LCTL_IRQ_PEND])) ∧
  (∀ (s : State) (dst src : LaneId) (c g : Nat) (bs : List Byte) (tm : Nat), (s.lane dst).rst.held = false → c < (s.lane dst).ctxs.length →
    ((s.lane dst).ctx c).stage = .answers → src ∈ ((s.lane dst).ctx c).voters → g / 64 ∈ ((s.lane dst).ctx c).blocks → bs.length = 64 →
    ∃ t, exec (.segmentFetch dst src c g bs tm) s = .next t ∧ s.OnlyLane t dst ∧
      (tm ≤ ((s.lane dst).ctx c).v + answerDue c →
        t.lane dst = { s.lane dst with ctxs := (t.lane dst).ctxs, fol := (t.lane dst).fol, notes := [] } ∧
        (src, g, bs) ∈ ((t.lane dst).ctx c).fetched ∧ ∀ c', c' ≠ c → (t.lane dst).ctx c' = (s.lane dst).ctx c') ∧
      (((s.lane dst).ctx c).v + answerDue c < tm →
        (t.lane dst).ctxs = (s.lane dst).ctxs ∧ (t.lane dst).on VOTE_STAT_LATE = true ∧
        (s.lane dst).RegsKept (t.lane dst) [VOTE_STAT, LCTL_IRQ_PEND])) ∧
  (∀ (s : State) (dst src : LaneId) (c : Nat) (v : Verdict) (tm : Nat), (s.lane dst).rst.held = false → (s.lane dst).easy = false →
    (s.lane dst).inVote = true → src ∈ (s.lane dst).inset → ((s.lane dst).link ((s.lane dst).linkTo src)).eff = true →
    c < (s.lane dst).ctxs.length → ((s.lane dst).ctx c).stage ≠ .idle →
    ∃ t, exec (.verdictFrame dst src c v tm) s = .next t ∧ s.OnlyLane t dst ∧
      (tm ≤ ((s.lane dst).ctx c).v + verdictDue c →
        t.lane dst = { s.lane dst with ctxs := (t.lane dst).ctxs, fol := (t.lane dst).fol, notes := [] } ∧
        (src, v) ∈ ((t.lane dst).ctx c).verdicts ∧ ∀ c', c' ≠ c → (t.lane dst).ctx c' = (s.lane dst).ctx c') ∧
      (((s.lane dst).ctx c).v + verdictDue c < tm →
        (t.lane dst).ctxs = (s.lane dst).ctxs ∧ (t.lane dst).on VOTE_STAT_LATE = true ∧
        (s.lane dst).RegsKept (t.lane dst) [VOTE_STAT, LCTL_IRQ_PEND]))

/-- LEVEL1_DEADLINE and ANSWER_DEADLINE, at or after their instants: a lane left with fewer than two voters' frames enters easy all; two voters whose
blocks differ enter easy all with DISSENT_2OO2; equal digests go on to the answers, and from there to a verdict without dissent. Before its instant
neither does anything (R154 to R157, R166). VERDICT_DEADLINE: a voter outside the next voter set leaves, with DISSENT at its threshold and with
VOTE_LATE below it, while another voter stays; one inside it with another commits; one alone enters easy all (R158, R159, R163). -/
def Obligations.VoteDeadlinesAndVerdictsDecide : Prop :=
  ((∀ (s : State) (l : LaneId) (c tm : Nat), (s.lane l).rst.held = false → (s.lane l).easy = false → (s.lane l).inVote = true →
     (s.lane l).shadow = false → ((s.lane l).ctx c).stage = .level1 → c < (s.lane l).ctxs.length → ((s.lane l).ctx c).v + level1Due c ≤ tm →
     ∃ t, exec (.level1Deadline l c tm) s = .next t ∧
       let x := (s.lane l).ctx c
       let got := (s.lane l).inset.filter fun y => y == (s.lane l).id || x.peerDig.any fun e => e.1 == y
       (got.length < 2 → s.OnlyLaneInEasy t l ∧ (t.lane l).easy = true ∧ (t.lane l).fget VOTE_EASY_CAUSE = 0x01) ∧
       (got.length = 2 → x.diffBlocks (s.lane l).id got ≠ [] →
         s.OnlyLaneInEasy t l ∧ (t.lane l).easy = true ∧ (t.lane l).fget VOTE_EASY_CAUSE = 0x02) ∧
       (2 ≤ got.length → x.diffBlocks (s.lane l).id got = [] →
         s.OnlyLane t l ∧ (t.lane l).easy = false ∧ ((t.lane l).ctx c).stage = .answers ∧ ((t.lane l).ctx c).voters = got ∧
         ((t.lane l).ctx c).blocks = [])) ∧
   (∀ (s : State) (l : LaneId) (c tm : Nat), (s.lane l).rst.held = false → (s.lane l).easy = false → (s.lane l).inVote = true →
     (s.lane l).shadow = false → ((s.lane l).ctx c).stage = .answers → c < (s.lane l).ctxs.length →
     2 ≤ ((s.lane l).ctx c).voters.length → ((s.lane l).ctx c).blocks = [] →
     ((s.lane l).ctx c).diffBlocks (s.lane l).id ((s.lane l).ctx c).voters = [] → ((s.lane l).ctx c).v + answerDue c ≤ tm →
     ∃ t, exec (.answerDeadline l c tm) s = .next t ∧ s.OnlyLane t l ∧ (t.lane l).reg = (s.lane l).reg ∧
       ((t.lane l).ctx c).stage = .verdict ∧ ((t.lane l).ctx c).voters = ((s.lane l).ctx c).voters ∧ ((t.lane l).ctx c).differs = [] ∧
       (∀ y ∈ ((s.lane l).ctx c).voters, ((t.lane l).ctx c).cnt y = 0) ∧
       ∃ v, ((s.lane l).id, v) ∈ ((t.lane l).ctx c).verdicts ∧ v.voters = BitVec.ofNat 3 (laneMask ((s.lane l).ctx c).voters)) ∧
   (∀ (s : State) (l : LaneId) (c tm : Nat), tm < ((s.lane l).ctx c).v + level1Due c →
     ∃ t u w, exec (.level1Deadline l c tm) s = .next t ∧ exec (.answerDeadline l c tm) s = .next u ∧ exec (.verdictDeadline l c tm) s = .next w ∧
       t = s.laneAt l tm ∧ u = s.laneAt l tm ∧ w = s.laneAt l tm)) ∧
  (∀ (s : State) (l : LaneId) (c tm : Nat), (s.lane l).id = l → (s.lane l).rst.held = false → (s.lane l).easy = false →
     (s.lane l).inVote = true → (s.lane l).shadow = false → c < (s.lane l).ctxs.length → ((s.lane l).ctx c).stage = .verdict →
     ((s.lane l).ctx c).v + verdictDue c ≤ tm →
     ∃ t, exec (.verdictDeadline l c tm) s = .next t ∧
       let thr := (s.lane l).threshold c
       let next := ((s.lane l).ctx c).nextVoters thr
       (l ∈ next → 2 ≤ next.length →
         s.OnlyLane t l ∧ ((t.lane l).ctx c).commit = true ∧ (t.lane l).staying = (s.lane l).staying.filter next.contains ∧
         (t.lane l).inset = (s.lane l).inset ∧ (t.lane l).inVote = true) ∧
       (l ∈ next → next.length < 2 → s.OnlyLaneInEasy t l ∧ (t.lane l).easy = true ∧ (t.lane l).fget VOTE_EASY_CAUSE = 0x01) ∧
       (l ∉ next → ∀ y, y ≠ l → (s.lane y).inVote = true →
         s.OnlyLane t l ∧ (t.lane l).inVote = false ∧ (t.lane l).silent = true ∧ (t.lane l).fget VOTE_STAT_MODE = 3 ∧
         (t.lane l).fget VOTE_LEAVE_REASON = (if thr ≤ ((s.lane l).ctx c).cnt l then 0x01 else 0x04) ∧
         (t.lane l).rst.due = some (false, 4, ((s.lane l).ctx c).v + finishDue c)))

/-- A leave is final and quiet: LEAVE_NOTICE at a voter marks the peer gone, and in a running module enters easy all when fewer than two stay;
VOTE_CMD_LEAVE takes the lane out at once with FIRMWARE, its reset due 10 µs later, which LEAVE_RESET_ASSERT asserts; when the last voter leaves,
every lane out of reset enters easy all (R163 to R166, R177). -/
def Obligations.LeavingStopsDrivingAndSigning : Prop :=
  (∀ (s : State) (dst src : LaneId) (r : Byte), (s.lane dst).rst.held = false → (s.lane dst).easy = false → (s.lane dst).inVote = true →
    (s.lane dst).shadow = false → (s.lane dst).mode ≠ modeTransfer → s.phase = .running → dst ≠ src →
    ∃ t, exec (.leaveNotice dst src r) s = .next t ∧
      let rest := (s.lane dst).staying.filter fun y => y != src
      (2 ≤ rest.length →
        s.OnlyLane t dst ∧ (t.lane dst).reg = (s.lane dst).reg ∧ (t.lane dst).staying = rest ∧ (src, r.toNat) ∈ (t.lane dst).gone) ∧
      (rest.length < 2 → s.OnlyLaneInEasy t dst ∧ (t.lane dst).easy = true ∧
        ((t.lane dst).fget VOTE_EASY_CAUSE = 0x01 ∨ (t.lane dst).fget VOTE_EASY_CAUSE = 0x05) ∧
        (t.lane dst).on VOTE_STAT_DYN_EN = false ∧ (t.lane dst).fld.dyn = 0)) ∧
  (∀ (s : State) (l y : LaneId), (s.lane l).rst.held = false → (s.lane l).easy = false → (s.lane l).inVote = true → y ≠ l →
    (s.lane y).inVote = true →
    ∃ t, exec (.voteCmdLeave l) s = .next t ∧ s.OnlyLane t l ∧ (t.lane l).inVote = false ∧ (t.lane l).silent = true ∧
      (t.lane l).fget VOTE_LEAVE_REASON = 0x0C ∧ (t.lane l).rst.due = some (false, 4, s.now + 10000)) ∧
  (∀ (s : State) (l : LaneId), (s.lane l).rst.held = false → (s.lane l).easy = false → (s.lane l).inVote = true →
    (∀ y, y ≠ l → (s.lane y).inVote = false) →
    ∃ t, exec (.voteCmdLeave l) s = .next t ∧ t.field = s.field ∧
      ∀ y, (s.lane y).rst.held = false → (s.lane y).easy = false →
        (t.lane y).easy = true ∧ (t.lane y).on VOTE_STAT_DYN_EN = false ∧ (t.lane y).fld.dyn = 0) ∧
  (∀ (s : State) (l : LaneId) (tm d cause : Nat) (cold : Bool), (s.lane l).rst.due = some (cold, cause, d) → cause < 8 → d ≤ tm →
    ∃ t, exec (.leaveResetAssert l tm) s = .next t ∧ ({ s with phase := t.phase }).OnlyLane t l ∧
      t.phase = (if s.phase = .restarting ∧ (allLanes.all fun y => y == l || (s.lane y).rst.due.isNone) = true then .sitReady else s.phase) ∧
      (t.lane l).rst.held = true ∧ (t.lane l).silent = true ∧
      (t.lane l).rst.due = none ∧ ((t.lane l).rg RST_CAUSE).getLsbD cause = true ∧
      (cold = false → (s.lane l).rst.held = false → (t.lane l).sram = (s.lane l).sram ∧ (t.lane l).cells = (s.lane l).cells) ∧
      (cold = true → (t.lane l).sram = []))

/-- Easy all (R177 to R180): VOTE_CMD_EASY and EASY_ALL_NOTICE enter it in any lane out of reset with the cause given; no dynamic signal runs in it;
only a surviving voter of a module without the split-core fuse keeps its sign engine, and RESTRICTIVE_FINISH of any other lane, or at another
instant than that of a stroke finish, places nothing. -/
def Obligations.EasyAllStopsEveryDynamicSignal : Prop :=
  (∀ (s : State) (l : LaneId), (s.lane l).rst.held = false → (s.lane l).easy = false →
    ∃ t, exec (.voteCmdEasy l) s = .next t ∧ s.OnlyLaneInEasy t l ∧ (t.lane l).easy = true ∧ (t.lane l).fget VOTE_EASY_CAUSE = 0x08 ∧
      (t.lane l).on VOTE_EASY_PEER = false ∧ (t.lane l).inVote = false ∧ (t.lane l).on VOTE_STAT_DYN_EN = false ∧ (t.lane l).fld.dyn = 0 ∧
      (t.lane l).on VOTE_STAT_SIGN_EN = ((s.lane l).inVote && !s.split) ∧
      (∀ k, ((t.lane l).conn k).st = .opened ∨ ((t.lane l).conn k).st = .closed)) ∧
  (∀ (s : State) (dst src : LaneId) (cause : Byte), (s.lane dst).rst.held = false → (s.lane dst).easy = false → dst ≠ src →
    ∃ t, exec (.easyAllNotice dst src cause) s = .next t ∧ s.OnlyLaneInEasy t dst ∧ (t.lane dst).easy = true ∧
      (t.lane dst).fget VOTE_EASY_CAUSE = cause.toNat ∧ (t.lane dst).on VOTE_EASY_PEER = true ∧ (t.lane dst).inVote = false ∧
      (t.lane dst).on VOTE_STAT_DYN_EN = false ∧ (t.lane dst).fld.dyn = 0) ∧
  (∀ (s : State) (l : LaneId) (tm : Nat), (s.lane l).rst.held = false → (s.lane l).easy = true → (s.lane l).surviving = true →
    (s.lane l).on VOTE_STAT_SIGN_EN = true → (s.lane l).restrictiveDue tm = true →
    ∃ t out, exec (.restrictiveFinish l tm) s = .next t ∧ s.OnlyLaneAndMbx t l ∧ (t.lane l).reg = (s.lane l).reg ∧
      (t.hub.mbx l).outTlg = (s.hub.mbx l).outTlg ++ out ∧
      out.map (·.conn) = (s.lane l).openAtEntry.filter fun k => ((s.lane l).restrictivePayload k).isSome) ∧
  (∀ (s : State) (l : LaneId) (tm : Nat), ((s.lane l).easy = false ∨ (s.lane l).surviving = false ∨ (s.lane l).on VOTE_STAT_SIGN_EN = false ∨
      (s.lane l).restrictiveDue tm = false) →
    ∃ t, exec (.restrictiveFinish l tm) s = .next t ∧ t = s.laneAt l tm)

/-- VOTE_CFG_WRITE: in a lane that may not be configured, because it is armed or in the vote, a write of the vote configuration is ignored and sets
`CFG_ERR`; in an unarmed lane in sit ready, and in one released into a running module that has not asked for readmission yet, a write of
`VOTE_RBASE` takes its address, and a write of a context that keeps the limits takes effect and updates its `NSEG` and `SAFE`, while one that does
not is ignored and sets `CFG_ERR` (R182). FLDP_CFG_WRITE (R261): in sit ready before arming, or in a released lane before it asks to join, and
within the stated ranges it is a write of the register; otherwise it is ignored and sets `CFG_ERR`. -/
def Obligations.VoteAndFieldConfigurationFixedOnceArmed : Prop :=
  ((∀ (s : State) (l : LaneId) (off : Nat) (v : Word), (s.lane l).rst.held = false → (s.lane l).unarmed = false → (s.lane l).joining = false →
     voteCfgReg off = true →
     ∃ t, exec (.voteCfgWrite l off v) s = .next t ∧ s.OnlyLane t l ∧ (s.lane l).OnlyRegs (t.lane l) [VOTE_STAT, LCTL_IRQ_PEND] ∧
       (t.lane l).on VOTE_STAT_CFG_ERR = true) ∧
   (∀ (s : State) (l : LaneId) (v : Word), (s.lane l).rst.held = false → ((s.lane l).unarmed = true ∨ (s.lane l).joining = true) →
     ∃ t, exec (.voteCfgWrite l 0x018 v) s = .next t ∧ s.OnlyLane t l ∧ (s.lane l).OnlyRegs (t.lane l) [VOTE_RBASE] ∧
       (t.lane l).fget VOTE_RBASE_BASE = bvField v 17 15) ∧
   (∀ (s : State) (l : LaneId) (off : Nat) (v : Word), (s.lane l).rst.held = false → ((s.lane l).unarmed = true ∨ (s.lane l).joining = true) →
     voteCfgReg off = true → off ≠ 0x018 →
     ∃ t, exec (.voteCfgWrite l off v) s = .next t ∧ s.OnlyLane t l ∧
       let c := voteCtxOf off
       let x := (s.lane l).plainWrite (0x40001000 + off) v
       (x.ctxCfgOk c = true → x.rgnOk off = true →
         (s.lane l).OnlyRegs (t.lane l) [0x40001000 + off, 0x40001100 + 4 * c] ∧ (t.lane l).fget (VOTE_CFG_NSEG c) = (t.lane l).nseg c ∧
         (off ≠ 0x100 + 4 * c → (t.lane l).rg (0x40001000 + off) = x.rg (0x40001000 + off))) ∧
       (x.ctxCfgOk c = false ∨ x.rgnOk off = false →
         (s.lane l).OnlyRegs (t.lane l) [VOTE_STAT, LCTL_IRQ_PEND] ∧ (t.lane l).on VOTE_STAT_CFG_ERR = true))) ∧
  (∀ (s : State) (l : LaneId) (off : Nat) (v : Word), (s.lane l).rst.held = false → fldpCfgReg off = true →
     ∃ t, exec (.fldpCfgWrite l off v) s = .next t ∧ s.OnlyLane t l ∧
       ((s.lane l).unarmed = true ∨ (s.lane l).joining = true → fldpRangeOk off v = true →
         ∃ d, descOf laneRegs (0x4000C000 + off) = some d ∧ (s.lane l).OnlyRegs (t.lane l) [0x4000C000 + off] ∧
           (t.lane l).rg (0x4000C000 + off) = regWritten d ((s.lane l).rg (0x4000C000 + off)) v) ∧
       ((((s.lane l).unarmed = false ∧ (s.lane l).joining = false) ∨ fldpRangeOk off v = false) →
         (s.lane l).OnlyRegs (t.lane l) [FLDP_STAT, LCTL_IRQ_PEND] ∧ (t.lane l).on FLDP_STAT_CFG_ERR = true))

/-- Readmission (R167 to R171): VOTE_CMD_READMIT asks only of a module that runs 2oo2 with both links up and every check passed; equal values are
agreed, others refused with `AREASON` 0x07; a page of a good CRC from the page's donor is stored at its place and nowhere else, a bad one asked for
once and then ends the attempt, as a page of another owner does; the full pass ends with its last page, the hold-off after its strokes. -/
def Obligations.ReadmissionFollowsItsSteps : Prop :=
  (∀ (s : State) (l : LaneId), (s.lane l).rst.held = false → (s.lane l).mode = 3 → (s.lane l).fget VOTE_READM_RSTEP = 0 →
    (s.lane l).on VOTE_READM_FAILED = false → s.phase = .running →
    ∃ t, exec (.voteCmdReadmit l) s = .next t ∧ s.OnlyLane t l ∧
      (s.runs2oo2 = true ∧ (s.lane l).linkUp 0 = true ∧ (s.lane l).linkUp 1 = true ∧ (s.lane l).startChecks s.split = true →
        (t.lane l).fget VOTE_READM_RSTEP = 1 ∧ (t.lane l).readm.who = some l ∧ (t.lane l).mode = 3) ∧
      (s.runs2oo2 = false ∨ (s.lane l).linkUp 0 = false ∨ (s.lane l).linkUp 1 = false ∨ (s.lane l).startChecks s.split = false → t = s)) ∧
  (∀ (s : State) (dst src : LaneId) (v : PairValues), (s.lane dst).rst.held = false → (s.lane src).rst.held = false → dst ≠ src →
    (s.lane dst).inVote = true → (s.lane dst).mode = 2 → (s.lane src).fget VOTE_READM_RSTEP = 1 →
    ∃ t, exec (.readmitRequest dst src v) s = .next t ∧ t.hub = s.hub ∧ t.field = s.field ∧
      (∀ k, k ≠ dst → k ≠ src → t.lane k = s.lane k) ∧
      (v = (s.lane dst).pairValues ∧ (s.lane dst).prog.chg.stage = .none →
        (t.lane dst).readm.who = some src ∧ dst ∈ (t.lane src).readm.agreed ∧ (t.lane src).reg = (s.lane src).reg) ∧
      (¬ (v = (s.lane dst).pairValues ∧ (s.lane dst).prog.chg.stage = .none) →
        t.lane dst = s.lane dst ∧ (t.lane src).fget VOTE_READM_AREASON = 0x07 ∧ (t.lane src).fget VOTE_READM_RSTEP = 0)) ∧
  (∀ (s : State) (dst src : LaneId) (page ctx tm : Nat) (bs : List Byte) (crc : Word) (again : Bool), (s.lane dst).rst.held = false →
    (s.lane dst).fget VOTE_READM_RSTEP = 2 → (s.lane dst).easy = false → s.donorOf page = some src →
    page < pagesOf (s.lane dst).prgid →
    ∃ t, exec (.readmitPage dst src page ctx bs crc again tm) s = .next t ∧ s.OnlyLane t dst ∧
      (crc.toNat = crc32c bs → bs.length = 4096 → ctx = Config.pageOwner (s.lane dst).prgid page →
        page ∈ (t.lane dst).readm.got ∧ (t.lane dst).fget VOTE_READM_RSTEP = 2 ∧
        t.lane dst = { (s.lane dst).putPage page bs with reg := (t.lane dst).reg, readm := (t.lane dst).readm, fol := (t.lane dst).fol,
                                                          notes := [] } ∧
        (page < 128 → ∀ i, i < 128 → (t.lane dst).cell (128 * page + i) = cellOfBytes ((bs.drop (32 * i)).take 32)) ∧
        (page < 128 → ∀ c, c / 128 ≠ page → (t.lane dst).cell c = (s.lane dst).cell c)) ∧
      (crc.toNat = crc32c bs → bs.length = 4096 → ctx ≠ Config.pageOwner (s.lane dst).prgid page →
        (t.lane dst).fget VOTE_READM_AREASON = 0x05 ∧ (t.lane dst).fget VOTE_READM_RSTEP = 6 ∧ (t.lane dst).sram = (s.lane dst).sram) ∧
      (crc.toNat ≠ crc32c bs → again = false →
        page ∈ (t.lane dst).readm.retry ∧ (t.lane dst).reg = (s.lane dst).reg ∧ (t.lane dst).sram = (s.lane dst).sram) ∧
      (crc.toNat ≠ crc32c bs → again = true →
        (t.lane dst).fget VOTE_READM_AREASON = 0x02 ∧ (t.lane dst).fget VOTE_READM_RSTEP = 6 ∧ (t.lane dst).mode = 3 ∧
        (t.lane dst).sram = (s.lane dst).sram)) ∧
  (∀ (s : State) (l : LaneId), (s.lane l).rst.held = false → (s.lane l).fget VOTE_READM_RSTEP = 2 →
    ∃ t, exec (.readmitFullPassDone l) s = .next t ∧ s.OnlyLane t l ∧ (s.lane l).OnlyRegs (t.lane l) [VOTE_READM] ∧
      ((s.lane l).readm.retry = [] → (∀ p, p < pagesOf (s.lane l).prgid → p ∈ (s.lane l).readm.got) → (t.lane l).fget VOTE_READM_RSTEP = 3) ∧
      ((s.lane l).readm.retry ≠ [] → (t.lane l).fget VOTE_READM_RSTEP = 2) ∧
      (∀ p, p < pagesOf (s.lane l).prgid → p ∉ (s.lane l).readm.got → (t.lane l).fget VOTE_READM_RSTEP = 2)) ∧
  (∀ (s : State) (l : LaneId), (s.lane l).rst.held = false → (s.lane l).fget VOTE_READM_RSTEP = 6 →
    ∃ t, exec (.readmitRetryHoldoff l) s = .next t ∧ s.OnlyLane t l ∧ (s.lane l).OnlyRegs (t.lane l) [VOTE_READM] ∧
      (t.lane l).fget VOTE_READM_RSTEP = if (s.lane l).readm.wait = 0 ∧ (s.lane l).on VOTE_READM_FAILED = false then 0 else 6)

/-- XL_FRAME on a link that is up (R160): a good frame moves the expected sequence on; a bad one is counted and asked for once more; bad again, it takes
the link down with `DOWNk` set. Other lanes change only by the abandon of a readmission (R171). The timed rows and the commands of a link (R160,
R183): 10 µs without a valid frame take it down, it comes up after 1,000 valid frames only, a down link retrains every 10 ms, XL_RETRAIN takes it
down at once, XL_ERR_CLEAR clears its three counts, an idle frame is sent every 2 µs. -/
def Obligations.LinksGoDownAndComeUpByTheirRules : Prop :=
  (∀ (s : State) (l : LaneId) (k : Nat) (seq : Word) (body : List Byte) (crc : Word) (again : Bool) (tm : Nat),
     (s.lane l).rst.held = false → k < 2 → (s.lane l).linkUp k = true →
     ∃ t, exec (.xlFrame l k seq body crc again tm) s = .next t ∧ s.LinkStep t l ∧
       let crcOk := crc.toNat = crc32c (beBytes 4 seq.toNat ++ body)
       (crcOk ∧ seq = ((s.lane l).link k).expSeq →
         (t.lane l).reg = (s.lane l).reg ∧ ((t.lane l).link k).expSeq = seq + 1 ∧ ((t.lane l).link k).lastValid = tm) ∧
       (¬ crcOk → (t.lane l).fget (xlCrcErr k) = satAdd (ones (xlCrcErr k).w) ((s.lane l).fget (xlCrcErr k)) 1) ∧
       (crcOk ∧ seq ≠ ((s.lane l).link k).expSeq →
         (t.lane l).fget (xlSeqErr k) = satAdd (ones (xlSeqErr k).w) ((s.lane l).fget (xlSeqErr k)) 1) ∧
       (¬ (crcOk ∧ seq = ((s.lane l).link k).expSeq) → again = false →
         (t.lane l).linkUp k = true ∧ ((t.lane l).link k).retryAsked = true ∧
         (t.lane l).fget (xlRetry k) = satAdd (ones (xlRetry k).w) ((s.lane l).fget (xlRetry k)) 1) ∧
       (¬ (crcOk ∧ seq = ((s.lane l).link k).expSeq) → again = true → (t.lane l).linkUp k = false ∧ (t.lane l).on (xlDown k) = true)) ∧
  ((∀ (s : State) (l : LaneId) (k tm : Nat), (s.lane l).rst.held = false → k < 2 → (s.lane l).linkUp k = true →
     ∃ t, exec (.xlLinkTimeout l k tm) s = .next t ∧ s.LinkStep t l ∧
       (t.lane l).linkUp k = decide (tm < ((s.lane l).link k).lastValid + 10000) ∧
       (tm < ((s.lane l).link k).lastValid + 10000 → (t.lane l).reg = (s.lane l).reg)) ∧
   (∀ (s : State) (l : LaneId) (k : Nat), (s.lane l).rst.held = false → k < 2 → (s.lane l).linkUp k = false →
     ∃ t, exec (.xlLinkUp l k) s = .next t ∧ s.OnlyLane t l ∧ (s.lane l).OnlyRegs (t.lane l) [XL_STAT] ∧
       (t.lane l).linkUp k = decide (1000 ≤ ((s.lane l).link k).goodRun)) ∧
   (∀ (s : State) (l : LaneId) (k tm : Nat), (s.lane l).rst.held = false → k < 2 → (s.lane l).linkUp k = false →
     ((s.lane l).link k).lastTrain ≠ 0 →
     ∃ t, exec (.xlRetrainTimer l k tm) s = .next t ∧ s.OnlyLane t l ∧ (t.lane l).reg = (s.lane l).reg ∧
       ((t.lane l).link k).lastTrain = if ((s.lane l).link k).lastTrain + 10000000 ≤ tm then tm else ((s.lane l).link k).lastTrain) ∧
   (∀ (s : State) (l : LaneId) (k : Nat), (s.lane l).rst.held = false → k < 2 → (s.lane l).linkUp k = true →
     ∃ t, exec (.xlRetrain l k) s = .next t ∧ s.LinkStep t l ∧ (t.lane l).linkUp k = false ∧ (t.lane l).on (xlDown k) = true ∧
       ((t.lane l).link k).lastTrain = s.now ∧ (s.lane l).RegsKept (t.lane l) [XL_STAT, LCTL_IRQ_PEND, VOTE_READM, VOTE_STAT]) ∧
   (∀ (s : State) (l : LaneId) (k : Nat), (s.lane l).rst.held = false → k < 2 →
     ∃ t, exec (.xlErrClear l k) s = .next t ∧ s.OnlyLane t l ∧ (s.lane l).OnlyRegs (t.lane l) [xlErr k] ∧ (t.lane l).rg (xlErr k) = 0) ∧
   (∀ (s : State) (l : LaneId) (k tm : Nat), (s.lane l).rst.held = false → k < 2 → ((s.lane l).link k).lastSent ≠ 0 →
     ∃ t, exec (.xlIdleSend l k tm) s = .next t ∧ s.OnlyLane t l ∧ (t.lane l).reg = (s.lane l).reg ∧
       ((t.lane l).link k).lastSent = if ((s.lane l).link k).lastSent + 2000 ≤ tm then tm else ((s.lane l).link k).lastSent))

/-- CELL_WINDOW_WRITE while unlocked and not busy (R79): an aligned word written to a cell, the ARD window, the route status or the path store reads
back as written; every other word of those areas reads as before. One bit in error in the word read is corrected and counted; more leave no data,
and the lane leaves the vote with LANE_FAULT (R82, R417, R418); only stored words with error correction can have one. While locked, writes of the
station data are ignored with `WR_IGN`, but for `PVAL` of a CONDITION cell; while busy, and outside the aligned areas, an access answers with a bus
error and changes no cell (R79). RLE_CHECK, RLE_CHECK_DONE and RLE_LOCK (R96, R99): a check clears `CHK_OK`; its verdict stands in `CHK_OK` or
`CHK_ERR` with the lowest failure in `RLE_ERRIDX`; a lock takes effect only while `CHK_OK` = 1. -/
def Obligations.StationDataIsWrittenUnlockedAndFixedLocked : Prop :=
  ((∀ (s : State) (l : LaneId) (a v : Word) (n : Nat), (s.lane l).rst.held = false → (s.lane l).on RLE_STAT_BUSY = false →
     (s.lane l).on RLE_STAT_LOCKED = false → a.toNat % 4 = 0 →
     rleArea a.toNat ≠ .none → rleArea a.toNat ≠ .request → rleArea a.toNat ≠ .result →
     ∃ t u, exec (.cellWindowWrite l a (.write v) n) s = .next t ∧ exec (.cellWindowWrite l a .read 0) t = .next u ∧
       t.bus = .none ∧ u.bus = .data v ∧ (∀ k, k ≠ l → t.lane k = s.lane k) ∧ t.hub = s.hub ∧ (t.lane l).reg = (s.lane l).reg ∧
       (t.lane l).sram = (s.lane l).sram ∧
       ∀ b : Nat, b % 4 = 0 → b ≠ a.toNat → (t.lane l).areaWord b = (s.lane l).areaWord b) ∧
   (∀ (s : State) (l : LaneId) (a : Word) (n : Nat), (s.lane l).rst.held = false → (s.lane l).on RLE_STAT_BUSY = false →
     a.toNat % 4 = 0 → rleArea a.toNat ≠ .none →
     ∃ t, exec (.cellWindowWrite l a .read n) s = .next t ∧ (t.lane l).cells = (s.lane l).cells ∧
       (n = 0 ∨ (rleArea a.toNat).ecc = false → t = { s with bus := .data ((s.lane l).areaWord a.toNat) }) ∧
       (n = 1 ∧ (rleArea a.toNat).ecc = true → t.bus = .data ((s.lane l).areaWord a.toNat) ∧
         (s.lane l).OnlyRegs (t.lane l) [LCTL_MEMSTAT, LCTL_ECCADDR] ∧ (t.lane l).on LCTL_MEMSTAT_CE = true ∧
         (t.lane l).fget LCTL_MEMSTAT_CECNT = satAdd (ones LCTL_MEMSTAT_CECNT.w) ((s.lane l).fget LCTL_MEMSTAT_CECNT) 1 ∧
         (t.lane l).rg LCTL_ECCADDR = a) ∧
       (1 < n ∧ (rleArea a.toNat).ecc = true → t.bus = .error ∧ ((s.lane l).easy = false → (t.lane l).inVote = false) ∧
         ((s.lane l).easy = false → (s.lane l).inVote = true → (t.lane l).fget VOTE_LEAVE_REASON = leaveLaneFault)))) ∧
  ((∀ (s : State) (l : LaneId) (a v : Word) (n : Nat), (s.lane l).rst.held = false → (s.lane l).on RLE_STAT_BUSY = false →
     (s.lane l).on RLE_STAT_LOCKED = true → a.toNat % 4 = 0 →
     rleArea a.toNat ≠ .none → rleArea a.toNat ≠ .request → rleArea a.toNat ≠ .result →
     (∀ c, rleArea a.toNat = .cell c 1 → (s.lane l).typ c ≠ tCONDITION) →
     ∃ t, exec (.cellWindowWrite l a (.write v) n) s = .next t ∧ t.bus = .none ∧
       (s.lane l).OnlyRegs (t.lane l) [RLE_STAT, LCTL_IRQ_PEND] ∧ (t.lane l).on RLE_STAT_WR_IGN = true) ∧
   (∀ (s : State) (l : LaneId) (a v : Word) (c n : Nat), (s.lane l).rst.held = false → (s.lane l).on RLE_STAT_BUSY = false →
     (s.lane l).on RLE_STAT_LOCKED = true → a.toNat % 4 = 0 → rleArea a.toNat = .cell c 1 → (s.lane l).typ c = tCONDITION →
     ∃ t, exec (.cellWindowWrite l a (.write v) n) s = .next t ∧ t.bus = .none ∧ (t.lane l).reg = (s.lane l).reg ∧
       (t.lane l).cs c fPVAL = bvField v 10 1 ∧ ((t.lane l).cell c).cfg = ((s.lane l).cell c).cfg ∧
       ∀ d, d ≠ c → (t.lane l).cell d = (s.lane l).cell d) ∧
   (∀ (s : State) (l : LaneId) (a : Word) (acc : Access) (n : Nat), (s.lane l).rst.held = false →
     (a.toNat % 4 ≠ 0 ∨ (s.lane l).on RLE_STAT_BUSY = true) →
     ∃ t, exec (.cellWindowWrite l a acc n) s = .next t ∧ t.bus = .error ∧ (s.lane l).OnlyRegs (t.lane l) [RLE_STAT, LCTL_IRQ_PEND])) ∧
  ((∀ (s : State) (l : LaneId) (ecc : EccHits), (s.lane l).rst.held = false → (s.lane l).on RLE_STAT_BUSY = false →
     (s.lane l).on RLE_STAT_LOCKED = false → (∀ h ∈ ecc, (rleArea (BitVec.toNat h.1)).ecc = true → h.2 ≤ 1) →
     ∃ t, exec (.rleCheck l ecc) s = .next t ∧ s.OnlyLane t l ∧
       (s.lane l).RegsKept (t.lane l) [RLE_STAT, LCTL_MEMSTAT, LCTL_ECCADDR] ∧
       ((∀ h ∈ ecc, (rleArea (BitVec.toNat h.1)).ecc = true → h.2 = 0) → (s.lane l).RegsKept (t.lane l) [RLE_STAT]) ∧
       (t.lane l).on RLE_STAT_BUSY = true ∧ (t.lane l).on RLE_STAT_CHK_OK = false ∧ (t.lane l).cells = (s.lane l).cells) ∧
   (∀ (s : State) (l : LaneId), (s.lane l).rst.held = false → (s.lane l).on RLE_STAT_BUSY = true → (s.lane l).rle.strokeRun = false →
     ∃ t, exec (.rleCheckDone l) s = .next t ∧ s.OnlyLane t l ∧ (t.lane l).cells = (s.lane l).cells ∧ (t.lane l).ard = (s.lane l).ard ∧
       (t.lane l).on RLE_STAT_BUSY = false ∧ (t.lane l).on RLE_STAT_DONE = true ∧
       (t.lane l).on RLE_STAT_CHK_OK = ((s.lane l).loadError.isNone || (s.lane l).on RLE_STAT_CHK_OK) ∧
       (t.lane l).rg RLE_DIGEST = (if (s.lane l).loadError.isNone then BitVec.ofNat 32 (s.lane l).loadDigest else (s.lane l).rg RLE_DIGEST) ∧
       (t.lane l).start.own.station = (if (s.lane l).loadError.isNone then (t.lane l).rg RLE_DIGEST else (s.lane l).start.own.station) ∧
       (∀ code kind i, (s.lane l).loadError = some (code, kind, i) →
         (t.lane l).on RLE_STAT_CHK_ERR = true ∧ (t.lane l).rg RLE_DIGEST = (s.lane l).rg RLE_DIGEST ∧
         (t.lane l).fget RLE_ERRIDX_CODE = code % 16 ∧ (t.lane l).fget RLE_ERRIDX_KIND = kind % 4 ∧
         (t.lane l).fget RLE_ERRIDX_INDEX = i % 65536)) ∧
   (∀ (s : State) (l : LaneId), (s.lane l).rst.held = false → (s.lane l).on RLE_STAT_LOCKED = false →
     ∃ t, exec (.rleLock l) s = .next t ∧ s.OnlyLane t l ∧
       (t.lane l).on RLE_STAT_LOCKED = (s.lane l).on RLE_STAT_CHK_OK ∧
       ((s.lane l).on RLE_STAT_CHK_OK = false → (t.lane l).reg = (s.lane l).reg ∧ (t.lane l).cells = (s.lane l).cells) ∧
       ((s.lane l).on RLE_STAT_CHK_OK = true → (t.lane l).on RLE_CTRL_LOCK = true ∧
         ∀ c, ((t.lane l).cell c).cfg = ((s.lane l).cell c).cfg ∧ ((t.lane l).cell c).lnk = ((s.lane l).cell c).lnk)))

/-- R149: `RLE_INBASE` and `RLE_OUTBASE` take no base while locked, outside lane SRAM, or on the other area; a `STROKE` command while either area lies
outside lane SRAM is ignored with `BUS_ERR`. -/
def Obligations.AreaBasesStayInsideLaneSramAndApart : Prop :=
  (∀ (s : State) (l : LaneId) (out : Bool) (v : Word), (s.lane l).rst.held = false →
    ∃ t, exec (.rleBaseWrite l out v) s = .next t ∧ s.OnlyLane t l ∧
      let f := if out then RLE_OUTBASE_BASE else RLE_INBASE_BASE
      let other := (s.lane l).fget (if out then RLE_INBASE_BASE else RLE_OUTBASE_BASE)
      let b := bvField v 17 15
      let refused := (s.lane l).on RLE_STAT_LOCKED = true ∨ b * 0x20000 < 0x08000000 ∨ 0x09000000 < b * 0x20000 + 0x20000 ∨ b = other
      (s.lane l).OnlyRegs (t.lane l) [f.addr, RLE_STAT, LCTL_IRQ_PEND] ∧
      (refused → (t.lane l).rg f.addr = (s.lane l).rg f.addr ∧ (t.lane l).on RLE_STAT_WR_IGN = true) ∧
      (¬ refused → (t.lane l).fget f = b ∧ (t.lane l).rg RLE_STAT = (s.lane l).rg RLE_STAT)) ∧
  (∀ (s : State) (l : LaneId) (ecc : EccHits), (s.lane l).rst.held = false →
    (baseOutside ((s.lane l).rg RLE_INBASE).toNat = true ∨ baseOutside ((s.lane l).rg RLE_OUTBASE).toNat = true) →
    ∃ t, exec (.rleStroke l ecc) s = .next t ∧ s.OnlyLane t l ∧ (s.lane l).OnlyRegs (t.lane l) [RLE_STAT, LCTL_IRQ_PEND] ∧
      (t.lane l).on RLE_STAT_BUS_ERR = true ∧ (t.lane l).on RLE_STAT_BUSY = (s.lane l).on RLE_STAT_BUSY)

/-- RLE_NREQ_WRITE, VMAX_CLR and RETAINED_STATE_DIGEST: a request count above 64 is ignored with `WR_IGN` (R101); the visit maximum is cleared; retained
state is kept only when both peers' digests equal the lane's own, and is at zero otherwise (R146). The timed rows of the engine: the end of a move
(R131), approach locking (R134), overlaps (R140), timed sections (R137, R138) and crossings (R135): each takes effect exactly when its count has run
out, and otherwise leaves every cell as it is; in easy all none changes a cell (R179). RLE_STROKE and RLE_STROKE_DONE (R100, R104, R105): a locked
engine processes every request in its table within 8 sweeps, stays busy until its end, and changes neither a configuration or link word, nor the ARD
window, nor memory outside the output area; unlocked or in easy all it ignores the command. Errors of one bit in what it reads are corrected; at
more the command does not run and the lane leaves (R82, R418). -/
def Obligations.RouteEngineCommandsAndTimersKeepStationData : Prop :=
  ((∀ (s : State) (l : LaneId) (v : Word), (s.lane l).rst.held = false →
     ∃ t, exec (.rleNreqWrite l v) s = .next t ∧ s.OnlyLane t l ∧
       (s.lane l).OnlyRegs (t.lane l) [RLE_NREQ, RLE_STAT, LCTL_IRQ_PEND] ∧
       (bvField v 0 7 ≤ 64 → (t.lane l).fget RLE_NREQ_NREQ = bvField v 0 7 ∧ (t.lane l).rg RLE_STAT = (s.lane l).rg RLE_STAT) ∧
       (64 < bvField v 0 7 → (t.lane l).rg RLE_NREQ = (s.lane l).rg RLE_NREQ ∧ (t.lane l).on RLE_STAT_WR_IGN = true)) ∧
   (∀ (s : State) (l : LaneId), (s.lane l).rst.held = false →
     ∃ t, exec (.vmaxClr l) s = .next t ∧ s.OnlyLane t l ∧ (s.lane l).OnlyRegs (t.lane l) [RLE_VMAX] ∧ (t.lane l).rg RLE_VMAX = 0) ∧
   (∀ (s : State) (dst src : LaneId) (crc : Word) (d : Word), (s.lane dst).rst.held = false → (s.lane dst).id = dst → src ≠ dst →
     (s.lane dst).start.cold = false → (s.lane dst).sitReady = true → (s.lane dst).armed = false → (s.lane dst).on RLE_STAT_LOCKED = false →
     (∃ p, p ≠ dst ∧ p ≠ src ∧ (s.lane dst).start.digests = [(p, d)]) →
     (let same : Bool := crc.toNat == (s.lane dst).retainedCrc && d.toNat == (s.lane dst).retainedCrc
      ∃ t, exec (.retainedStateDigest dst src crc) s = .next t ∧ s.OnlyLane t dst ∧ (t.lane dst).reg = (s.lane dst).reg ∧
        (t.lane dst).start.rleKept = (same || (s.lane dst).start.rleKept) ∧
        (crc ≠ d → (∀ c, ((t.lane dst).cell c).st = 0) ∧ (t.lane dst).rstat = [] ∧ (t.lane dst).pstore = []) ∧
        (same = false → (∀ c, ((t.lane dst).cell c).st = 0) ∧ (t.lane dst).rstat = [] ∧ (t.lane dst).pstore = [])))) ∧
  ((∀ (s : State) (l : LaneId) (c : Nat), (s.lane l).rst.held = false → isPsd ((s.lane l).typ c) = true → (s.lane l).stale c = false →
     (s.lane l).cs c fMOV = 1 → (s.lane l).easy = false →
     ∃ t, exec (.moveTimeout l c) s = .next t ∧ s.OnlyLane t l ∧ (t.lane l).reg = (s.lane l).reg ∧
       (∀ d, d ≠ c → (t.lane l).cell d = (s.lane l).cell d) ∧ (t.lane l).cs c fPOS = (s.lane l).cs c fPOS ∧
       ((s.lane l).cs c fPOS = (s.lane l).cs c fCMD → (t.lane l).cs c fMOV = 0 ∧ (t.lane l).cs c fMFAIL = 0) ∧
       ((s.lane l).cs c fPOS ≠ (s.lane l).cs c fCMD → (s.lane l).cc c gMTO ≤ (s.lane l).cs c fMTMR →
         (t.lane l).cs c fMOV = 0 ∧ (t.lane l).cs c fMFAIL = 1) ∧
       ((s.lane l).cs c fPOS ≠ (s.lane l).cs c fCMD → (s.lane l).cs c fMTMR < (s.lane l).cc c gMTO → (t.lane l).cell c = (s.lane l).cell c)) ∧
   (∀ (s : State) (l : LaneId) (i : Nat), (s.lane l).rst.held = false → (s.lane l).rState i = rsCancelling → (s.lane l).easy = false →
     ∃ t, exec (.approachTimerExpiry l i) s = .next t ∧ s.OnlyLane t l ∧ (t.lane l).reg = (s.lane l).reg ∧
       let e := (s.lane l).entryOf i
       ((s.lane l).passage i = true → (t.lane l).rState i = rsReleasing ∧ ∀ c, (t.lane l).cell c = (s.lane l).cell c) ∧
       ((s.lane l).passage i = false → (s.lane l).cc e gALT ≤ (s.lane l).cs e fATMR →
         ∀ c ∈ (s.lane l).heldBy i, (t.lane l).cs c fLKIND = 0) ∧
       ((s.lane l).passage i = false → (s.lane l).cs e fATMR < (s.lane l).cc e gALT →
         (t.lane l).rState i = rsCancelling ∧ ∀ c, (t.lane l).cell c = (s.lane l).cell c)) ∧
   (∀ (s : State) (l : LaneId) (c : Nat), (s.lane l).rst.held = false → (s.lane l).typ c = tOVERLAP → (s.lane l).cs c fLKIND = 2 →
     (s.lane l).rState ((s.lane l).cs c fLRT) = rsReleasing → (s.lane l).routeOverlap ((s.lane l).cs c fLRT) = some c →
     (s.lane l).easy = false →
     ∃ t, exec (.overlapTimerExpiry l c) s = .next t ∧ s.OnlyLane t l ∧ (t.lane l).reg = (s.lane l).reg ∧
       let out := (s.lane l).cs c fORUN = 1 ∧ (s.lane l).cc c gOREL ≤ (s.lane l).cs c fOTMR ∧ (s.lane l).ovClear c = true
       (out → (t.lane l).cs c fLKIND = 0 ∧ (t.lane l).cs c fORUN = 0 ∧ (t.lane l).cs c fOTMR = 0) ∧
       (¬ out → ∀ d, (t.lane l).cell d = (s.lane l).cell d)) ∧
   (∀ (s : State) (l : LaneId) (c : Nat), (s.lane l).rst.held = false → (s.lane l).typ c = tSECTION → (s.lane l).cs c fLKIND = 1 →
     (s.lane l).rState ((s.lane l).cs c fLRT) = rsReleasing → (s.lane l).easy = false →
     ∃ t, exec (.timedSectionRelease l c) s = .next t ∧ s.OnlyLane t l ∧ (t.lane l).reg = (s.lane l).reg ∧
       let i := (s.lane l).cs c fLRT
       ((s.lane l).complete c = true →
         (t.lane l).rPos i = ((s.lane l).releasing i).2 % 256 ∧ ∀ d ∈ ((s.lane l).releasing i).1, (t.lane l).cs d fLKIND = 0) ∧
       ((s.lane l).complete c = false → (t.lane l).rstat = (s.lane l).rstat ∧ ∀ d, (t.lane l).cell d = (s.lane l).cell d)) ∧
   (∀ (s : State) (l : LaneId) (c : Nat), (s.lane l).rst.held = false →
     ∃ t, exec (.crossingCloseTimeout l c) s = .next t ∧ s.OnlyLane t l ∧ (t.lane l).reg = (s.lane l).reg ∧
       (t.lane l).cells = (s.lane l).cells ∧
       ((s.lane l).crossingLate c = true → (s.lane l).easy = false → c ∈ (t.lane l).rle.xrec) ∧
       ((s.lane l).crossingLate c = false ∨ (s.lane l).easy = true → (t.lane l).rle = (s.lane l).rle)) ∧
   (∀ (s : State) (l : LaneId) (c : Nat), (s.lane l).rst.held = false → (s.lane l).easy = true →
     (∃ t, exec (.moveTimeout l c) s = .next t ∧ s.OnlyLane t l ∧ (s.lane l).OnlyRegs (t.lane l) []) ∧
     (∃ t, exec (.approachTimerExpiry l c) s = .next t ∧ s.OnlyLane t l ∧ (s.lane l).OnlyRegs (t.lane l) []) ∧
     (∃ t, exec (.overlapTimerExpiry l c) s = .next t ∧ s.OnlyLane t l ∧ (s.lane l).OnlyRegs (t.lane l) []) ∧
     (∃ t, exec (.timedSectionRelease l c) s = .next t ∧ s.OnlyLane t l ∧ (s.lane l).OnlyRegs (t.lane l) []) ∧
     (∃ t, exec (.crossingCloseTimeout l c) s = .next t ∧ s.OnlyLane t l ∧ (s.lane l).OnlyRegs (t.lane l) []))) ∧
  ((∀ (s : State) (l : LaneId) (ecc : EccHits), (s.lane l).rst.held = false → (s.lane l).on RLE_STAT_BUSY = false →
     (s.lane l).on RLE_STAT_LOCKED = true → (∀ h ∈ ecc, (rleArea (BitVec.toNat h.1)).ecc = true → h.2 ≤ 1) → (s.lane l).easy = false → baseOutside ((s.lane l).rg RLE_INBASE).toNat = false → baseOutside ((s.lane l).rg RLE_OUTBASE).toNat = false →
     ∃ t, exec (.rleStroke l ecc) s = .next t ∧ s.OnlyLane t l ∧ (t.lane l).on RLE_STAT_BUSY = true ∧
       (t.lane l).fget RLE_STAT_NDONE = (s.lane l).fget RLE_NREQ_NREQ ∧
       1 ≤ (t.lane l).fget RLE_STAT_SWEEPS ∧ (t.lane l).fget RLE_STAT_SWEEPS ≤ 8 ∧
       (∀ c, ((t.lane l).cell c).cfg = ((s.lane l).cell c).cfg ∧ ((t.lane l).cell c).lnk = ((s.lane l).cell c).lnk) ∧
       (t.lane l).ard = (s.lane l).ard ∧
       (∀ a, a < ((s.lane l).rg RLE_OUTBASE).toNat ∨ ((s.lane l).rg RLE_OUTBASE).toNat + 0x20400 ≤ a →
         memByte (t.lane l).sram a = memByte (s.lane l).sram a)) ∧
   (∀ (s : State) (l : LaneId) (ecc : EccHits), (s.lane l).rst.held = false → (s.lane l).on RLE_STAT_BUSY = false →
     (s.lane l).on RLE_STAT_LOCKED = true → (s.lane l).easy = false → (s.lane l).inVote = true →
     baseOutside ((s.lane l).rg RLE_INBASE).toNat = false → baseOutside ((s.lane l).rg RLE_OUTBASE).toNat = false →
     (∃ h ∈ ecc, (rleArea (BitVec.toNat h.1)).ecc = true ∧ 1 < h.2) →
     ∃ t, exec (.rleStroke l ecc) s = .next t ∧ (t.lane l).on RLE_STAT_BUSY = false ∧ (t.lane l).cells = (s.lane l).cells ∧
       (t.lane l).sram = (s.lane l).sram ∧ (t.lane l).inVote = false ∧ (t.lane l).fget VOTE_LEAVE_REASON = leaveLaneFault) ∧
   (∀ (s : State) (l : LaneId) (ecc : EccHits), (s.lane l).rst.held = false → (s.lane l).on RLE_STAT_BUSY = false →
     ((s.lane l).on RLE_STAT_LOCKED = false ∨ (s.lane l).easy = true) →
     baseOutside ((s.lane l).rg RLE_INBASE).toNat = false → baseOutside ((s.lane l).rg RLE_OUTBASE).toNat = false →
     ∃ t, exec (.rleStroke l ecc) s = .next t ∧ s.OnlyLane t l ∧ (s.lane l).OnlyRegs (t.lane l) []) ∧
   (∀ (s : State) (l : LaneId) (us : Nat), (s.lane l).rst.held = false → (s.lane l).on RLE_STAT_BUSY = true → (s.lane l).rle.strokeRun = true →
     ∃ t, exec (.rleStrokeDone l us) s = .next t ∧ s.OnlyLane t l ∧ (s.lane l).OnlyRegs (t.lane l) [RLE_STAT, RLE_TLAST, LCTL_IRQ_PEND] ∧
       (t.lane l).on RLE_STAT_BUSY = false ∧ (t.lane l).on RLE_STAT_DONE = true ∧ (t.lane l).fget RLE_TLAST_TLAST = min us 65535))

/-- R188: what a trap, a trap return and a system register write do to a core; in lock-step to both cores, in split-core mode to the one named. Nothing
else in the lane changes. -/
def Obligations.TrapsSaveAndRestoreTheCoreLevel : Prop :=
  (∀ (s : State) (l : LaneId) (n code : Nat) (tval : Word), (s.lane l).rst.held = false → n < 2 →
    ∃ t, exec (.trap l n code tval) s = .next t ∧ s.OnlyLane t l ∧
      t.lane l = { s.lane l with core0 := (t.lane l).core0, core1 := (t.lane l).core1, notes := [] } ∧
      (s.split = true → (t.lane l).core (1 - n) = (s.lane l).core (1 - n)) ∧
      ∀ k, k < 2 → (s.split = false ∨ k = n) →
        let c := (s.lane l).core k
        let d := (t.lane l).core k
        d.epc = c.pc ∧ d.cause = BitVec.ofNat 32 (code % 32) ∧ d.tval = tval ∧ d.bit stPIE = c.bit stIE ∧ d.bit stPSUP = c.bit stSUP ∧
        d.bit stIE = false ∧ d.bit stSUP = true ∧ d.pc = c.tvec &&& 0xFFFFFF00 ∧ d.tvec = c.tvec ∧ d.g = c.g ∧ d.scratch = c.scratch) ∧
  (∀ (s : State) (l : LaneId) (n : Nat), (s.lane l).rst.held = false → n < 2 →
    ∃ t, exec (.trapReturn l n) s = .next t ∧ s.OnlyLane t l ∧
      t.lane l = { s.lane l with core0 := (t.lane l).core0, core1 := (t.lane l).core1, notes := [] } ∧
      ∀ k, k < 2 → (s.split = false ∨ k = n) →
        let c := (s.lane l).core k
        let d := (t.lane l).core k
        d.bit stIE = c.bit stPIE ∧ d.bit stSUP = c.bit stPSUP ∧ d.pc = c.epc ∧ d.g = c.g ∧ d.epc = c.epc ∧ d.cause = c.cause) ∧
  (∀ (s : State) (l : LaneId) (n num rd : Nat) (v insn : Word), (s.lane l).rst.held = false → n < 2 →
    ∃ t, exec (.sysregWrite l n num (.write v) rd insn) s = .next t ∧ s.OnlyLane t l ∧
      t.lane l = { s.lane l with core0 := (t.lane l).core0, core1 := (t.lane l).core1, notes := [] } ∧
      ∀ k, k < 2 → (s.split = false ∨ k = n) →
        let c := (s.lane l).core k
        let d := (t.lane l).core k
        (c.bit stSUP = true → num = 1 → d.tvec = v &&& 0xFFFFFF00 ∧ d = { c with tvec := d.tvec }) ∧
        (c.bit stSUP = true → num = 2 → d = { c with epc := v }) ∧
        (c.bit stSUP = true → num = 5 → d = { c with scratch := v }) ∧
        (c.bit stSUP = true → num = 0 → d = { c with status := (v &&& 0x1B) ||| (c.status &&& 0x4) }) ∧
        (c.bit stSUP = false ∨ (num ≠ 0 ∧ num ≠ 1 ∧ num ≠ 2 ∧ num ≠ 5) →
          d.cause = 1 ∧ d.tval = insn ∧ d.epc = c.pc ∧ d.pc = c.tvec &&& 0xFFFFFF00 ∧ d.bit stSUP = true ∧ d.bit stIE = false)) ∧
  (∀ (s : State) (l : LaneId) (n num rd : Nat) (insn : Word), (s.lane l).rst.held = false → n < 2 →
    ∃ t, exec (.sysregWrite l n num .read rd insn) s = .next t ∧ s.OnlyLane t l ∧
      t.lane l = { s.lane l with core0 := (t.lane l).core0, core1 := (t.lane l).core1, notes := [] } ∧
      ∀ k, k < 2 → (s.split = false ∨ k = n) →
        let c := ((s.lane l).showCycles s.now).core k
        let d := (t.lane l).core k
        (∀ w, c.sysValue num = some w → d.g = (c.setG rd w).g ∧ d.pc = c.pc ∧ d.status = c.status ∧ d.cycle = c.cycle ∧
          (num = 0x10 → d.cycleh.toNat = c.cycle.toNat / 2 ^ 32) ∧ (num = 0x12 → d.instreth.toNat = c.instret.toNat / 2 ^ 32)) ∧
        (c.sysValue num = none →
          d.cause = 1 ∧ d.tval = insn ∧ d.epc = c.pc ∧ d.pc = c.tvec &&& 0xFFFFFF00 ∧ d.bit stSUP = true ∧ d.bit stIE = false))

/-- INTERRUPT_ENTRY and SWI_SET: the lowest line pending and enabled is taken by each core with `IE` set, with the cause that names it; its `tval` is a
free value (Assumption 4). SWI_SET sets line 10 pending and nothing else (R188, R189). -/
def Obligations.LowestEnabledLineIsTaken : Prop :=
  (∀ (s : State) (l : LaneId) (n : Nat), (s.lane l).rst.held = false → n < 11 →
    ((s.lane l).rg LCTL_IRQ_PEND &&& (s.lane l).rg LCTL_IRQ_EN).getLsbD n = true →
    (∀ m, m < n → ((s.lane l).rg LCTL_IRQ_PEND &&& (s.lane l).rg LCTL_IRQ_EN).getLsbD m = false) →
    (s.lane l).core0.bit stIE = true →
    ∃ t, exec (.interruptEntry l) s = .next t ∧ (∀ k, k ≠ l → t.lane k = s.lane k) ∧ t.hub = s.hub ∧
      t.lane l = { s.lane l with core0 := (t.lane l).core0, core1 := (t.lane l).core1 } ∧
      (t.lane l).core0.cause = BitVec.ofNat 32 (0x80000000 + n) ∧ (t.lane l).core0.epc = (s.lane l).core0.pc ∧
      (t.lane l).core0.pc = (s.lane l).core0.tvec &&& 0xFFFFFF00 ∧ (t.lane l).core0.bit stIE = false ∧ (t.lane l).core0.bit stPIE = true) ∧
  (∀ (s : State) (l : LaneId), (s.lane l).rst.held = false →
    ∃ t, exec (.swiSet l) s = .next t ∧ s.OnlyLane t l ∧ (s.lane l).OnlyRegs (t.lane l) [LCTL_IRQ_PEND] ∧
      (t.lane l).rg LCTL_IRQ_PEND = (s.lane l).rg LCTL_IRQ_PEND ||| 0x400)

/-- SIGNATURE_WINDOW_CLOSE, INJECTION_TEST_START: a window closes with 1,024 instructions or 10 µs after it opened; outside a test, signatures that
differ make a voter of an IRV3-S leave with LANE_FAULT, or with DEBUG once lock-step is broken; equal ones count the window. The test starts only
before the lane arms, or before a released lane asks to be readmitted (R190 to R195, R198). DEBUG_HALT, BENCH_GRANT, CORE1_START: a debug halt
breaks lock-step, takes a voter out with DEBUG and, outside bench mode, enters easy all with cause DEBUG_HALT; in bench mode the lane is out, and
easy all comes only if it was the last voter; a grant reaches a lane that holds one; core 1 starts only in a split lane (R197, R199, R201). -/
def Obligations.MismatchesAndDebugHaltsEndTheLanesVote : Prop :=
  ((∀ (s : State) (l : LaneId) (r0 r1 : List Retired) (tm : Nat), (s.lane l).rst.held = false → s.split = false →
     (s.lane l).sig.phase = .none → (r0.length = 1024 ∨ (r0.length < 1024 ∧ (s.lane l).sig.openT + 10000 ≤ tm)) →
     ∃ t, exec (.signatureWindowClose l r0 r1 tm) s = .next t ∧
       ((∃ y, y ≠ l ∧ (s.lane y).inVote = true) → s.OnlyLane t l) ∧
       (r0.foldl misrRetire misrStart ≠ r1.foldl misrRetire misrStart → (t.lane l).on SIGC_STAT_MISMATCH = true) ∧
       (∀ y, r0.foldl misrRetire misrStart ≠ r1.foldl misrRetire misrStart → (s.lane l).easy = false → (s.lane l).inVote = true →
         y ≠ l → (s.lane y).inVote = true →
         (t.lane l).inVote = false ∧ (t.lane l).silent = true ∧
         (t.lane l).fget VOTE_LEAVE_REASON = if (s.lane l).on SIGC_STAT_DBG_BROKE = true then 0x0B else 0x0A) ∧
       (r0.foldl misrRetire misrStart = r1.foldl misrRetire misrStart → s.OnlyLane t l ∧
         (s.lane l).RegsKept (t.lane l) [SIGC_WCNT] ∧ (t.lane l).rg SIGC_WCNT = (s.lane l).rg SIGC_WCNT + 1)) ∧
   (∀ (s : State) (l : LaneId) (r0 r1 : List Retired) (tm : Nat), (s.lane l).rst.held = false →
     (1024 < r0.length ∨ (r0.length < 1024 ∧ tm < (s.lane l).sig.openT + 10000)) →
     ∃ t, exec (.signatureWindowClose l r0 r1 tm) s = .next t ∧ t = { s with now := max s.now tm }) ∧
   (∀ (s : State) (l : LaneId), (s.lane l).rst.held = false →
     ∃ t, exec (.injectionTestStart l) s = .next t ∧ s.OnlyLane t l ∧ (s.lane l).RegsKept (t.lane l) [SIGC_STAT] ∧
       let may := ((s.lane l).unarmed = true ∨ (s.lane l).joining = true) ∧ (s.lane l).on SIGC_STAT_INJ_RUN = false
       (may → (t.lane l).on SIGC_STAT_INJ_RUN = true ∧ (t.lane l).sig.phase = .waiting) ∧
       (¬ may → (t.lane l).on SIGC_STAT_INJ_IGN = true ∧ (t.lane l).sig = (s.lane l).sig))) ∧
  ((∀ (s : State) (l : LaneId), (s.lane l).rst.held = false → (s.lane l).easy = false →
     ∃ t, exec (.debugHalt l) s = .next t ∧ (t.lane l).on SIGC_STAT_DBG_BROKE = true ∧ (t.lane l).inVote = false ∧
       ((s.lane l).inVote = true → (t.lane l).fget VOTE_LEAVE_REASON = 0x0B) ∧
       ((s.lane l).on LCTL_STAT_BENCH = false → (t.lane l).easy = true ∧ (t.lane l).fget VOTE_EASY_CAUSE = 0x04 ∧
         (t.lane l).on VOTE_STAT_DYN_EN = false ∧ (t.lane l).on VOTE_STAT_SIGN_EN = false ∧
         (∀ y, y ≠ l → (s.lane y).inVote = true → s.OnlyLaneInEasy t l)) ∧
       ((s.lane l).on LCTL_STAT_BENCH = true → (t.lane l).easy = false ∧ s.OnlyLane t l ∨
         (s.lane l).inVote = true ∧ (∀ y, y ≠ l → (s.lane y).inVote = false) ∧ (t.lane l).fget VOTE_EASY_CAUSE = 0x01)) ∧
   (∀ (s : State) (l : LaneId), (s.lane l).rst.held = false → s.hub.host.granted.contains l = true → s.hub.on CLKC_HSTAT_AON_FAIL = false →
     ∃ t, exec (.benchGrant l) s = .next t ∧ (∀ k, k ≠ l → t.lane k = s.lane k) ∧ (s.lane l).OnlyRegs (t.lane l) [LCTL_STAT] ∧
       (t.lane l).on LCTL_STAT_AUTH = true ∧ t.hub.host.granted.contains l = false) ∧
   (∀ (s : State) (l : LaneId) (v : Word), (s.lane l).rst.held = false →
     ∃ t, exec (.core1Start l v) s = .next t ∧ s.OnlyLane t l ∧ (t.lane l).core0 = (s.lane l).core0 ∧
       (s.split = true → (t.lane l).core1.pc = v &&& 0xFFFFFFFC ∧ (t.lane l).core1.bit stWAIT = false ∧
         (s.lane l).RegsKept (t.lane l) [LCTL_C1START] ∧ (t.lane l).rg LCTL_C1START = v &&& 0xFFFFFFFC) ∧
       (s.split = false → (t.lane l).reg = (s.lane l).reg ∧ (t.lane l).core1 = (s.lane l).core1)))

/-- The watchdog (R202, R203): a kick is two key writes inside the window; any other second write expires it; an expiry takes a voter out with
LANE_FAULT and a reset with cause WDT due 10 µs later; `WDT_CFG` is writable until the first completed kick. A lock-up, in a trap entry or after 100
µs without retirement while the core pair does not wait, does so with cause LOCKUP (R204). -/
def Obligations.WatchdogKicksMustFallInTheWindow : Prop :=
  (∀ (s : State) (l : LaneId) (v : Word) (tm : Nat), (s.lane l).rst.held = false → (s.lane l).wdt.key1 = false →
    ∃ t, exec (.wdtKick l v tm) s = .next t ∧ s.OnlyLane t l ∧
      t.lane l = { s.lane l with wdt := { (s.lane l).wdt with key1 := v == 0xC35A#32 } }) ∧
  (∀ (s : State) (l : LaneId) (tm : Nat), (s.lane l).rst.held = false → (s.lane l).wdt.key1 = true →
    (s.lane l).wdt.last + (s.lane l).fget WDT_CFG_OPEN * (s.lane l).wdtUnit ≤ tm →
    tm ≤ (s.lane l).wdt.last + (s.lane l).fget WDT_CFG_CLOSE * (s.lane l).wdtUnit →
    ∃ t, exec (.wdtKick l 0x3CA5 tm) s = .next t ∧ s.OnlyLane t l ∧ (s.lane l).RegsKept (t.lane l) [WDT_STAT] ∧
      (t.lane l).wdt = { last := tm, key1 := false } ∧ (t.lane l).on WDT_STAT_LOCKED = true) ∧
  (∀ (s : State) (l : LaneId) (v : Word) (tm : Nat), (s.lane l).rst.held = false → (s.lane l).easy = false → (s.lane l).inVote = true →
    (∃ y, y ≠ l ∧ (s.lane y).inVote = true) → (s.lane l).wdt.key1 = true → (s.lane l).wdtStopped = false →
    (v ≠ 0x3CA5 ∨ tm < (s.lane l).wdt.last + (s.lane l).fget WDT_CFG_OPEN * (s.lane l).wdtUnit ∨
      (s.lane l).wdt.last + (s.lane l).fget WDT_CFG_CLOSE * (s.lane l).wdtUnit < tm) →
    ∃ t, exec (.wdtKick l v tm) s = .next t ∧ s.OnlyLane t l ∧ (t.lane l).inVote = false ∧ (t.lane l).silent = true ∧
      (t.lane l).fget VOTE_LEAVE_REASON = 0x0A ∧ (t.lane l).rst.due = some (false, 3, max s.now tm + 10000)) ∧
  (∀ (s : State) (l : LaneId) (tm : Nat), (s.lane l).rst.held = false → (s.lane l).wdtStopped = false →
    (s.lane l).wdt.last + ((s.lane l).fget WDT_CFG_CLOSE - (s.lane l).fget WDT_CFG_WARN) * (s.lane l).wdtUnit ≤ tm →
    ∃ t, exec (.wdtWarning l tm) s = .next t ∧ s.OnlyLane t l ∧ (s.lane l).OnlyRegs (t.lane l) [WDT_STAT, LCTL_IRQ_PEND] ∧
      (t.lane l).on WDT_STAT_WARNED = true ∧ ((t.lane l).rg LCTL_IRQ_PEND).getLsbD 8 = true) ∧
  (∀ (s : State) (l : LaneId) (tm : Nat), (s.lane l).rst.held = false → (s.lane l).easy = false → (s.lane l).inVote = true →
    (∃ y, y ≠ l ∧ (s.lane y).inVote = true) → (s.lane l).wdtStopped = false → (s.lane l).wdt.last + (s.lane l).fget WDT_CFG_CLOSE * (s.lane l).wdtUnit ≤ tm →
    ∃ t, exec (.wdtExpiry l tm) s = .next t ∧ s.OnlyLane t l ∧ (t.lane l).inVote = false ∧ (t.lane l).silent = true ∧
      (t.lane l).fget VOTE_LEAVE_REASON = 0x0A ∧ (t.lane l).rst.due = some (false, 3, max s.now tm + 10000)) ∧
  (∀ (s : State) (l : LaneId) (v : Word), (s.lane l).rst.held = false →
    ∃ t, exec (.wdtCfgWrite l v) s = .next t ∧ s.OnlyLane t l ∧ (s.lane l).OnlyRegs (t.lane l) [WDT_CFG, WDT_STAT] ∧
      ((s.lane l).on WDT_STAT_LOCKED = true → (t.lane l).rg WDT_CFG = (s.lane l).rg WDT_CFG ∧ (t.lane l).on WDT_STAT_CFG_IGN = true) ∧
      ((s.lane l).on WDT_STAT_LOCKED = false → bvField v 12 12 < bvField v 0 12 → (t.lane l).rg WDT_CFG = v)) ∧
  (∀ (s : State) (l : LaneId) (inTrap : Bool) (tm : Nat), (s.lane l).rst.held = false → (s.lane l).easy = false → (s.lane l).inVote = true →
    (∃ y, y ≠ l ∧ (s.lane y).inVote = true) →
    (inTrap = true ∨ ((s.lane l).core0.bit stWAIT = false ∧ (s.lane l).sig.retT + 100000 ≤ tm)) →
    ∃ t, exec (.lockup l inTrap tm) s = .next t ∧ s.OnlyLane t l ∧ (t.lane l).inVote = false ∧ (t.lane l).silent = true ∧
      (t.lane l).fget VOTE_LEAVE_REASON = 0x0A ∧ (t.lane l).rst.due = some (false, 7, max s.now tm + 10000)) ∧
  (∀ (s : State) (l : LaneId) (tm : Nat), (s.lane l).rst.held = false →
    ((s.lane l).core0.bit stWAIT = true ∨ tm < (s.lane l).sig.retT + 100000) →
    ∃ t, exec (.lockup l false tm) s = .next t ∧ t = { s with now := max s.now tm })

/-- UNMAPPED_ACCESS and BAD_WIDTH_ACCESS (R5, R568): at an address that no row of the lane, hub or host map names, and for an unaligned or narrow access
in a register block, the access completes with a bus error and changes no register, no memory and no pin; in a lane's core it is a load or store bus
error exception (R188). `CRC_DATA` also takes aligned bytes and halfwords. REGISTER_WRITE: a register without a row of its own takes what is written
to its RW fields and loses the RW1C bits written with 1, but for those hardware sets in the same clock, all other fields kept (R6, R7); a write
where no register stands is ignored (R10); registers read as they stand; a lane's SRAM word reads back; an aligned word access of the hub to one of
its firmware blocks stops, since their registers are not part of the manual (R572). SPI_TRANSACTION (R368): a write of one word with a correct CRC
is the access of BAR0 it names; one with a wrong CRC is discarded and sets `SPI_ERR`; a read answers the data and its CRC. -/
def Obligations.AccessesFollowTheMapAndTheFieldTypes : Prop :=
  ((∀ (s : State) (l : LaneId) (addr : Word) (acc : Access), (s.lane l).rst.held = false →
     (let a := addr.toNat
      (0x10000 ≤ a ∧ a < 0x8000000) ∨ (0x9000000 ≤ a ∧ a < 0x10000000) ∨ (0x10080000 ≤ a ∧ a < 0x10100000) ∨
        (0x10180000 ≤ a ∧ a < 0x10200000) ∨ (0x10240000 ≤ a ∧ a < 0x20000000) ∨ (0x20040000 ≤ a ∧ a < 0x21000000) ∨
        (0x25000000 ≤ a ∧ a < 0x40000000) ∨ 0x4000E000 ≤ a) →
     ∃ t, exec (.unmappedAccess (.lane l) addr acc) s = .next t ∧ t.bus = .error ∧
       t = { ({ s with bus := .error }).modLane l fun x => x.busTrap s.split (decide (acc ≠ Access.read)) addr with bus := .error } ∧
       (t.lane l).core0.tval = addr ∧ (t.lane l).core0.epc = (s.lane l).core0.pc ∧
       (t.lane l).core0.cause = (if acc = Access.read then 4 else 5)) ∧
   (∀ (s : State) (addr : Word) (acc : Access), s.hub.rst.held = false →
     (let a := addr.toNat
      (0x40000 ≤ a ∧ a < 0x8000000) ∨ (0x9000000 ≤ a ∧ a < 0x20000000) ∨ (0x200C0000 ≤ a ∧ a < 0x30000000) ∨
        (0x40016000 ≤ a ∧ a < 0x40100000) ∨ 0x40110000 ≤ a) →
     ∃ t, exec (.unmappedAccess .hub addr acc) s = .next t ∧ t = { s with bus := .error }) ∧
   (∀ (s : State) (addr : Word) (acc : Access), 0x10000 ≤ addr.toNat →
     ∃ t, exec (.unmappedAccess .host addr acc) s = .next t ∧ t = { s with bus := .error }) ∧
   (∀ (s : State) (l : LaneId) (addr : Word) (w : Width) (acc : Access) (env : AccessEnv), (s.lane l).rst.held = false →
     0x40000000 ≤ addr.toNat → addr.toNat < 0x4000E000 → (addr.toNat < CRC_DATA ∨ CRC_DATA + 4 ≤ addr.toNat) →
     (w ≠ .word ∨ addr.toNat % 4 ≠ 0) →
     ∃ t, exec (.badWidthAccess (.lane l) addr w acc env) s = .next t ∧
       (env.src = .firmware →
         t = { ({ s with bus := .error }).modLane l fun x => x.busTrap s.split (decide (acc ≠ Access.read)) addr with bus := .error }) ∧
       (env.src = .debug → t = { s with bus := .error }) ∧
       (∀ j, env.src = .task j → (s.lane l).taskRuns j = none → t = s)) ∧
   (∀ (s : State) (l : LaneId) (addr : Word) (w : Width) (acc : Access) (env : AccessEnv) (j : Nat) (x : Lane),
     (s.lane l).rst.held = false → 0x40000000 ≤ addr.toNat → addr.toNat < 0x4000E000 →
     (addr.toNat < CRC_DATA ∨ CRC_DATA + 4 ≤ addr.toNat) → (w ≠ .word ∨ addr.toNat % 4 ≠ 0) → env.src = .task j →
     (s.lane l).taskRuns j = some x →
     ∃ t, exec (.badWidthAccess (.lane l) addr w acc env) s = .next t ∧ t.bus = .error ∧ t.hub = s.hub ∧
       t.lane l = x.busTrap s.split (decide (acc ≠ Access.read)) addr) ∧
   (∀ (s : State) (addr : Word) (w : Width) (acc : Access) (env : AccessEnv), s.hub.rst.held = false →
     0x40000000 ≤ addr.toNat → addr.toNat < 0x40016000 → (addr.toNat < HCRC_DATA 0 ∨ HCRC_DATA 0 + 4 ≤ addr.toNat) →
     (addr.toNat < HCRC_DATA 1 ∨ HCRC_DATA 1 + 4 ≤ addr.toNat) → (w ≠ .word ∨ addr.toNat % 4 ≠ 0) →
     ∃ t, exec (.badWidthAccess .hub addr w acc env) s = .next t ∧ t = { s with bus := .error }) ∧
   (∀ (s : State) (addr : Word) (w : Width) (acc : Access) (env : AccessEnv), (w ≠ .word ∨ addr.toNat % 4 ≠ 0) →
     ∃ t, exec (.badWidthAccess .host addr w acc env) s = .next t ∧ t = { s with bus := .error }) ∧
   (∀ (s : State) (l : LaneId) (addr v : Word) (w : Width) (env : AccessEnv), (s.lane l).rst.held = false →
     CRC_DATA ≤ addr.toNat → addr.toNat < CRC_DATA + 4 → w ≠ .word → addr.toNat % Width.bytes w = 0 → env.src = .firmware →
     (s.lane l).notes = [] →
     ∃ t, exec (.badWidthAccess (.lane l) addr w (.write v) env) s = .next t ∧
       t = { s.modLane l (·.crcData w v) with bus := .none })) ∧
  ((∀ (s : State) (l : LaneId) (v : Word) (env : AccessEnv), (s.lane l).rst.held = false → env.src = .firmware →
     ∃ t d, exec (.registerWrite (.lane l) (BitVec.ofNat 32 TMR_STAT) (.write v) env) s = .next t ∧ t.bus = .none ∧
       descOf laneRegs TMR_STAT = some d ∧ (s.lane l).OnlyRegs (t.lane l) [TMR_STAT] ∧
       (t.lane l).rg TMR_STAT = ((s.lane l).rg TMR_STAT &&& ~~~(v &&& BitVec.ofNat 32 d.w1c)) ||| (env.hw &&& BitVec.ofNat 32 d.w1c)) ∧
   (∀ (s : State) (l : LaneId) (addr v : Word) (env : AccessEnv), (s.lane l).rst.held = false → env.src = .firmware →
     0x40009000 < addr.toNat → addr.toNat < 0x4000A000 → addr.toNat % 4 = 0 →
     ∃ t, exec (.registerWrite (.lane l) addr (.write v) env) s = .next t ∧ t.bus = .none ∧
       s.OnlyLane { t with bus := s.bus } l ∧ (t.lane l) = { s.lane l with notes := [] }) ∧
   (∀ (s : State) (l : LaneId) (addr : Word) (env : AccessEnv), (s.lane l).rst.held = false → env.src = .firmware →
     0x40000000 ≤ addr.toNat → addr.toNat < 0x4000E000 → addr.toNat % 4 = 0 →
     ∃ t, exec (.registerWrite (.lane l) addr .read env) s = .next t ∧ t.hub = s.hub ∧ (t.lane l).reg = (s.lane l).reg ∧
       t.bus = .data (((s.laneAt l s.now).lane l).shown s.now addr.toNat)) ∧
   (∀ (s : State) (l : LaneId) (addr v : Word), (s.lane l).rst.held = false → sramOk (s.lane l).badBanks addr.toNat 4 = true →
     ∃ t u, exec (.registerWrite (.lane l) addr (.write v) .plain) s = .next t ∧
       exec (.registerWrite (.lane l) addr .read .plain) t = .next u ∧
       t.bus = .none ∧ u.bus = .data v ∧ (t.lane l).reg = (s.lane l).reg ∧
       ∀ b : Nat, (b < addr.toNat ∨ addr.toNat + 4 ≤ b) → memByte (t.lane l).sram b = memByte (s.lane l).sram b) ∧
   (∀ (s : State) (addr v : Word) (env : AccessEnv) (d : RegDesc), s.hub.rst.held = false → 0x40000000 ≤ addr.toNat →
     addr.toNat < 0x40002000 → addr.toNat % 4 = 0 → descOf hubRegs addr.toNat = some d →
     ∃ t u, exec (.registerWrite .hub addr (.write v) env) s = .next t ∧ exec (.registerWrite .hub addr .read env) t = .next u ∧
       s.OnlyHub { t with bus := s.bus } ∧ t.bus = .none ∧ s.hub.OnlyRegs t.hub [addr.toNat] ∧
       t.hub.rg addr.toNat = regWritten d (s.hub.rg addr.toNat) v ||| (env.hw &&& BitVec.ofNat 32 d.w1c) ∧
       u = { t with bus := .data (t.hub.rg addr.toNat) }) ∧
   (∀ (s : State) (addr : Word) (env : AccessEnv), s.hub.rst.held = false → addr.toNat < 0x10000 → addr.toNat % 4 = 0 →
     ∃ t, exec (.registerWrite .host addr .read env) s = .next t ∧ t = { s with bus := .data (s.hub.barRead addr.toNat) }) ∧
   (∀ (s : State) (addr : Word) (acc : Access) (env : AccessEnv), s.hub.rst.held = false → 0x4000B000 ≤ addr.toNat →
     addr.toNat < 0x40015000 → addr.toNat % 4 = 0 →
     exec (.registerWrite .hub addr acc env) s = .fault (.hubFirmwareBlock ((addr.toNat - 0x40000000) / 0x1000)))) ∧
  ((∀ (s : State) (off : Nat) (v : Word), s.hub.rst.held = false → s.hub.on HCMD_STAT_HOSTSPI = true → off < 0x10000 → off % 4 = 0 →
     (let f : List Byte := [0x02#8, 0x00#8] ++ beBytes 3 off ++ [0x01#8] ++ leBytes 4 v.toNat
      exec (.spiTransaction (f ++ beBytes 2 (crc16 f))) s = exec (.registerWrite .host (BitVec.ofNat 32 off) (.write v) .plain) s ∧
      ∀ crc : Nat, crc < 65536 → crc ≠ crc16 f →
        ∃ t, exec (.spiTransaction (f ++ beBytes 2 crc)) s = .next t ∧ s.OnlyHub t ∧ (s.hub).RegsKept t.hub [HCMD_STAT] ∧
          t.hub.on HCMD_STAT_SPI_ERR = true ∧ t.hub.sram = s.hub.sram)) ∧
   (∀ (s : State) (off : Nat), s.hub.rst.held = false → s.hub.on HCMD_STAT_HOSTSPI = true → off < 0x10000 → off % 4 = 0 →
     ∃ t, exec (.spiTransaction ([0x0B#8, 0x00#8] ++ beBytes 3 off ++ [0x01#8] ++ zeros 14)) s = .next t ∧ t.hub.reg = s.hub.reg ∧
       t.hub.host.spiOut = leBytes 4 (s.hub.barRead off).toNat ++ beBytes 2 (crc16 (leBytes 4 (s.hub.barRead off).toNat))))

/-- A write of both bits of `RLE_CMD`, or any write of it while busy, is ignored and sets `BUS_ERR` (R103). -/
def Obligations.CommandWritesWhileBusySetBusErr : Prop :=
  ∀ (s : State) (l : LaneId) (v : Word) (env : AccessEnv), (s.lane l).rst.held = false → env.src = .firmware →
    ((s.lane l).on RLE_STAT_BUSY = true ∨ (v.getLsbD 0 = true ∧ v.getLsbD 1 = true)) →
    ∃ t, exec (.registerWrite (.lane l) (BitVec.ofNat 32 RLE_CMD) (.write v) env) s = .next t ∧ s.OnlyLane { t with bus := s.bus } l ∧
      t.bus = .none ∧ (s.lane l).OnlyRegs (t.lane l) [RLE_STAT, LCTL_IRQ_PEND] ∧ (t.lane l).on RLE_STAT_BUS_ERR = true ∧
      (t.lane l).on RLE_STAT_BUSY = (s.lane l).on RLE_STAT_BUSY ∧ (∀ k, k ≠ l → t.lane k = s.lane k)

/-- BRIDGE_READ, BRIDGE_READ_RESPONSE, BRIDGE_READ_TIMEOUT, BRIDGE_READ_BUDGET and TAG_QUARANTINE_END (R388, R390 to R392): an aligned read of an
enabled window that is not poisoned is issued under a free tag; the hub memory's data completes it; a bus error is a load exception; a response for
no outstanding read is discarded and counted; an attempt out of time rests its tag for 4 ms and is repeated, or ends with a bus error; a tag is free
again after its rest. BRIDGE_WRITE, BRIDGE_WRITE_ACK, BRIDGE_WRITE_TIMEOUT and BRG_RESUME (R388, R396 to R398): a write of an enabled, writable,
healthy window is posted; its acknowledgement stores it in hub SRAM and nowhere else; one out of time poisons its window; writes of a poisoned
window are discarded; a resume clears the poisoning but where the same clock fails. -/
def Obligations.SplitReadsAndPostedWritesEndOrPoison : Prop :=
  ((∀ (s : State) (l : LaneId) (a : Word) (w : Width) (tm : Nat), (s.lane l).rst.held = false → inBridge a.toNat = true →
     a.toNat % Width.bytes w = 0 → (s.lane l).on (BRG_MAP_EN (brgWin a.toNat)) = true → (s.lane l).poisonedWin (brgWin a.toNat) = false →
     (s.lane l).brg.waiting = [] → (s.lane l).brg.reads = [] → (s.lane l).brg.quar = [] → 0 < tm →
     ∃ t, exec (.bridgeRead l a w tm) s = .next t ∧ s.OnlyLane { t with bus := s.bus } l ∧ t.bus = .none ∧
       (t.lane l).brg.reads = [{ tag := 0, addr := a, bytes := Width.bytes w, t0 := tm, t := tm, attempts := 0, code := 0 }] ∧
       (t.lane l).brg.waiting = [] ∧ (t.lane l).sram = (s.lane l).sram ∧ (t.lane l).fget BRG_STAT_OUT = 1) ∧
   (∀ (s : State) (l : LaneId) (a : Word) (w : Width) (tm : Nat), (s.lane l).rst.held = false → inBridge a.toNat = true →
     a.toNat % Width.bytes w = 0 → (s.lane l).brg.errs = [] →
     ((s.lane l).on (BRG_MAP_EN (brgWin a.toNat)) = false ∨ (s.lane l).poisonedWin (brgWin a.toNat) = true) →
     ∃ t, exec (.bridgeRead l a w tm) s = .next t ∧ t.bus = .error ∧ (t.lane l).brg.reads = (s.lane l).brg.reads ∧
       (t.lane l).core0.cause = 4 ∧ (t.lane l).core0.tval = a ∧ (t.lane l).core0.epc = (s.lane l).core0.pc ∧
       (t.lane l).brg.errs = [{ win := brgWin a.toNat, write := false, addr := a, ndisc := 0, counts := false,
                                code := if (s.lane l).on (BRG_MAP_EN (brgWin a.toNat)) = true then 6 else 5 }]) ∧
   (∀ (s : State) (l : LaneId) (tag : Nat) (r : BrgRead) (tm : Nat), (s.lane l).rst.held = false →
     (s.lane l).brg.reads.find? (fun x => x.tag == tag) = some r → sramOk s.hub.badBanks ((s.lane l).hubAddr r.addr.toNat) r.bytes = true →
     0 < r.bytes →
     ∃ t, exec (.bridgeReadResponse l tag 0 tm) s = .next t ∧ s.OnlyLane { t with bus := s.bus } l ∧
       t.bus = .data (BitVec.ofNat 32 (memNat s.hub.sram ((s.lane l).hubAddr r.addr.toNat) r.bytes))) ∧
   (∀ (s : State) (l : LaneId) (tag err : Nat) (tm : Nat), (s.lane l).rst.held = false →
     (s.lane l).brg.reads.find? (fun x => x.tag == tag) = none →
     ∃ t, exec (.bridgeReadResponse l tag err tm) s = .next t ∧ s.OnlyLane t l ∧ (s.lane l).OnlyRegs (t.lane l) [BRG_CNT, BRG_STAT] ∧
       (t.lane l).on BRG_STAT_LATE = true ∧ (t.lane l).fget BRG_CNT_LATEN = satInc 255 ((s.lane l).fget BRG_CNT_LATEN)) ∧
   (∀ (s : State) (l : LaneId) (tag : Nat) (r : BrgRead) (tm : Nat), (s.lane l).rst.held = false →
     (s.lane l).brg.reads.find? (fun x => x.tag == tag) = some r → r.t0 + 2000000 ≤ tm →
     ∃ t, exec (.bridgeReadBudget l tag tm) s = .next t ∧ t.bus = .error ∧ (tag, tm + 4000000) ∈ (t.lane l).brg.quar ∧
       (t.lane l).core0.cause = 4 ∧ (t.lane l).core0.tval = r.addr ∧
       ((s.lane l).brg.errs = [] → (t.lane l).brg.errs.map (·.code) = [if r.code = 0 then 3 else r.code])) ∧
   (∀ (s : State) (l : LaneId) (tag : Nat) (r : BrgRead) (tm : Nat), (s.lane l).rst.held = false →
     (s.lane l).brg.reads.find? (fun x => x.tag == tag) = some r → r.t + (s.lane l).fget BRG_CFG_RTMO * 10000 ≤ tm →
     ∃ t, exec (.bridgeReadTimeout l tag tm) s = .next t ∧ (tag, tm + 4000000) ∈ (t.lane l).brg.quar ∧
       ((s.lane l).fget BRG_CFG_RTRY + 1 ≤ r.attempts + 1 ∨ r.t0 + 2000000 ≤ tm → t.bus = .error) ∧
       (r.attempts + 1 < (s.lane l).fget BRG_CFG_RTRY + 1 → tm < r.t0 + 2000000 → t.bus = s.bus)) ∧
   (∀ (s : State) (l : LaneId) (tag tm : Nat), (s.lane l).rst.held = false → (s.lane l).brg.waiting = [] →
     ∃ t, exec (.tagQuarantineEnd l tag tm) s = .next t ∧ s.OnlyLane t l ∧
       (t.lane l).brg.quar = (s.lane l).brg.quar.filter fun q => !(q.1 == tag && decide (q.2 ≤ tm)))) ∧
  ((∀ (s : State) (l : LaneId) (a v : Word) (w : Width) (tm : Nat), (s.lane l).rst.held = false → inBridge a.toNat = true →
     a.toNat % Width.bytes w = 0 → (s.lane l).on (BRG_MAP_EN (brgWin a.toNat)) = true → (s.lane l).on (BRG_MAP_WEN (brgWin a.toNat)) = true →
     ∃ t, exec (.bridgeWrite l a w v tm) s = .next t ∧ s.OnlyLane { t with bus := s.bus } l ∧ t.bus = .none ∧
       ((s.lane l).poisonedWin (brgWin a.toNat) = false → (t.lane l).reg = (s.lane l).reg ∧
         (t.lane l).brg.writes = (s.lane l).brg.writes ++
           [{ win := brgWin a.toNat, addr := a, bytes := Width.bytes w, v := v, t := tm }]) ∧
       ((s.lane l).poisonedWin (brgWin a.toNat) = true → (t.lane l).brg.writes = (s.lane l).brg.writes)) ∧
   (∀ (s : State) (l : LaneId) (a v : Word) (w : Width) (tm : Nat), (s.lane l).rst.held = false → inBridge a.toNat = true →
     a.toNat % Width.bytes w = 0 → ((s.lane l).on (BRG_MAP_EN (brgWin a.toNat)) = false ∨ (s.lane l).on (BRG_MAP_WEN (brgWin a.toNat)) = false) →
     ∃ t, exec (.bridgeWrite l a w v tm) s = .next t ∧ t.bus = .error ∧ (t.lane l).brg.writes = (s.lane l).brg.writes ∧ t.hub = s.hub ∧
       (t.lane l).core0.cause = 5 ∧ (t.lane l).core0.tval = a) ∧
   (∀ (s : State) (l : LaneId) (p : BrgWrite) (rest : List BrgWrite), (s.lane l).rst.held = false → s.hub.rst.held = false →
     (s.lane l).brg.writes = p :: rest → 0 < p.bytes →
     sramOk s.hub.badBanks ((s.lane l).hubAddr p.addr.toNat) p.bytes = true → s.hub.on HSRAM_STAT_FROZEN = false →
     ∃ t, exec (.bridgeWriteAck l p.win 0) s = .next t ∧ t.hub.reg = s.hub.reg ∧ (t.lane l).brg.writes = rest ∧
       (t.lane l).reg = (s.lane l).reg ∧ memBytes t.hub.sram ((s.lane l).hubAddr p.addr.toNat) p.bytes = leBytes p.bytes p.v.toNat ∧
       ∀ b : Nat, (b < (s.lane l).hubAddr p.addr.toNat ∨ (s.lane l).hubAddr p.addr.toNat + p.bytes ≤ b) →
         memByte t.hub.sram b = memByte s.hub.sram b) ∧
   (∀ (s : State) (l : LaneId) (w : Nat) (p : BrgWrite) (tm : Nat), (s.lane l).rst.held = false → w < 8 → p.win = w →
     (s.lane l).brg.writes.find? (fun x => x.win == w) = some p → p.t + (s.lane l).fget BRG_CFG_WTMO * 10000 ≤ tm →
     ∃ t, exec (.bridgeWriteTimeout l w tm) s = .next t ∧ s.OnlyLane t l ∧ (t.lane l).poisonedWin w = true ∧
       (∀ k, k < 8 → k ≠ w → (t.lane l).poisonedWin k = (s.lane l).poisonedWin k) ∧ ∀ x ∈ (t.lane l).brg.writes, x.win ≠ w) ∧
   (∀ (s : State) (l : LaneId) (v : Word) (failing : BitVec 8), (s.lane l).rst.held = false →
     ∃ t, exec (.brgResume l v failing) s = .next t ∧ s.OnlyLane t l ∧ (s.lane l).OnlyRegs (t.lane l) [BRG_STAT] ∧
       ∀ w, w < 8 → (t.lane l).poisonedWin w = ((s.lane l).poisonedWin w && !(v.getLsbD w && !failing.getLsbD w))))

/-- HUB_EXPORT_READ and HUB_LANE_WRITE (R389): the hub reads only the export area of a lane; every other read and every write is answered with an error
and counted, and changes nothing in the lane. BRG_EQ_POP, BRG_HMSG_POP, BRG_MSG, HUB_MESSAGE and LANE_MESSAGE_DELIVERY (R399 to R401): both queues
give their oldest entry up; a hub message joins a queue of 16 with line 0, or is dropped with `HMSG_OVF`; a lane message behind no unacknowledged
write is taken, or discarded with a record while a stream is poisoned. BRG_CFG_WRITE and BRG_CNT_CLEAR (R405): the configuration is fixed once
armed; a count write clears every count. -/
def Obligations.BridgeQueuesAndTheExportArea : Prop :=
  ((∀ (s : State) (l : LaneId) (a : Word), (s.lane l).rst.held = false →
     ((s.lane l).exported a.toNat = false →
       ∃ t, exec (.hubExportRead l a) s = .next t ∧ t.bus = .error ∧ (s.lane l).OnlyRegs (t.lane l) [BRG_CNT] ∧
         (t.lane l).fget BRG_CNT_RDERR = satInc 65535 ((s.lane l).fget BRG_CNT_RDERR) ∧ t.hub = s.hub ∧ ∀ k, k ≠ l → t.lane k = s.lane k) ∧
     ((s.lane l).exported a.toNat = true →
       ∃ t, exec (.hubExportRead l a) s = .next t ∧ t.bus = .data (memWord (s.lane l).sram a.toNat) ∧ t.hub = s.hub ∧
         (s.lane l).RegsKept (t.lane l) [BRG_CNT, BRG_STAT, BRG_EQ_INFO, BRG_EQ_ADDR, BRG_HMSG, LCTL_IRQ_PEND] ∧
         (t.lane l).sram = (s.lane l).sram)) ∧
   (∀ (s : State) (l : LaneId) (a v : Word), (s.lane l).rst.held = false →
     ∃ t, exec (.hubLaneWrite l a v) s = .next t ∧ t.bus = .error ∧ (s.lane l).OnlyRegs (t.lane l) [BRG_CNT] ∧
       (t.lane l).fget BRG_CNT_RDERR = satInc 65535 ((s.lane l).fget BRG_CNT_RDERR))) ∧
  ((∀ (s : State) (l : LaneId), (s.lane l).rst.held = false →
     (∃ t, exec (.brgEqPop l) s = .next t ∧ s.OnlyLane t l ∧ (t.lane l).brg = { (s.lane l).brg with errs := (s.lane l).brg.errs.drop 1 } ∧
       ((s.lane l).brg.errs.length ≤ 1 → (t.lane l).rg BRG_EQ_INFO = 0 ∧ (t.lane l).rg BRG_EQ_ADDR = 0 ∧
         (t.lane l).rg LCTL_IRQ_PEND = bvSet ((s.lane l).rg LCTL_IRQ_PEND) 6 1 0)) ∧
     (∃ t, exec (.brgHmsgPop l) s = .next t ∧ s.OnlyLane t l ∧
       (t.lane l).brg = { (s.lane l).brg with hubMsgs := (s.lane l).brg.hubMsgs.drop 1 } ∧
       (t.lane l).rg BRG_HMSG = ((s.lane l).brg.hubMsgs.drop 1).headD 0) ∧
     (∀ v : Word, ∃ t, exec (.brgMsg l v) s = .next t ∧ s.OnlyLane t l ∧ (t.lane l).reg = (s.lane l).reg ∧
       (t.lane l).brg.laneMsgs = (s.lane l).brg.laneMsgs ++ [(v, (s.lane l).brg.writes.length)])) ∧
   (∀ (s : State) (l : LaneId) (v : Word), (s.lane l).rst.held = false → bvField v 24 8 ≠ 0 →
     ∃ t, exec (.hubMessage l v) s = .next t ∧ s.OnlyLane t l ∧
       ((s.lane l).brg.hubMsgs.length < 16 →
         (t.lane l).brg.hubMsgs = (s.lane l).brg.hubMsgs ++ [v] ∧ ((t.lane l).rg LCTL_IRQ_PEND).getLsbD 0 = true) ∧
       (16 ≤ (s.lane l).brg.hubMsgs.length →
         (t.lane l).brg = (s.lane l).brg ∧ (t.lane l).on BRG_STAT_HMSG_OVF = true ∧ (s.lane l).OnlyRegs (t.lane l) [BRG_STAT])) ∧
   (∀ (s : State) (l : LaneId) (v : Word) (n : Nat) (rest : List (Word × Nat)), (s.lane l).rst.held = false →
     (s.lane l).brg.laneMsgs = (v, n) :: rest → bvField v 24 8 ≠ 1 →
     ∃ t, exec (.laneMessageDelivery l) s = .next t ∧ t.hub = s.hub ∧ (∀ k, k ≠ l → t.lane k = s.lane k) ∧
       ((s.lane l).fget BRG_STAT_POISON ≠ 0 → n = 0 → s.hub.up = true → (t.lane l).brg.laneMsgs = rest ∧
         ((s.lane l).brg.errs.length < 16 → (t.lane l).brg.errs.length = (s.lane l).brg.errs.length + 1)) ∧
       ((s.lane l).fget BRG_STAT_POISON = 0 → n = 0 → s.hub.up = true →
         t.lane l = { s.lane l with brg := { (s.lane l).brg with laneMsgs := rest } }) ∧
       (n ≠ 0 ∨ s.hub.up = false → t = s)) ∧
   (∀ (s : State) (l : LaneId) (off : Nat) (v : Word), (s.lane l).rst.held = false → brgCfgReg off = true → (s.lane l).armed = true →
     ∃ t, exec (.brgCfgWrite l off v) s = .next t ∧ s.OnlyLane t l ∧ (s.lane l).OnlyRegs (t.lane l) [BRG_STAT] ∧
       (t.lane l).on BRG_STAT_CFG_ERR = true) ∧
   (∀ (s : State) (l : LaneId) (v : Word), (s.lane l).rst.held = false → (s.lane l).armed = false → brgCfgOk v = true →
     ∃ t, exec (.brgCfgWrite l 0 v) s = .next t ∧ s.OnlyLane t l ∧ (s.lane l).OnlyRegs (t.lane l) [BRG_CFG] ∧
       (t.lane l).fget BRG_CFG_RTMO = bvField v 8 8 ∧ (t.lane l).fget BRG_CFG_WTMO = bvField v 16 8 ∧
       (t.lane l).fget BRG_CFG_RTRY = bvField v 4 2) ∧
   (∀ (s : State) (l : LaneId) (v : Word), (s.lane l).rst.held = false →
     ∃ t, exec (.brgCntClear l v) s = .next t ∧ s.OnlyLane t l ∧ (s.lane l).OnlyRegs (t.lane l) [BRG_CNT] ∧ (t.lane l).rg BRG_CNT = 0))

/-- SEM_TAKE and SEM_GIVE (R402): a free semaphore goes to the taker's side, to the hub when both take; taking a held one has no effect; only its holder
frees one. EXCLUSIVE_LOAD and EXCLUSIVE_STORE (R403): a load through an enabled, healthy window takes a free semaphore; a store without the
semaphore of this sequence writes nothing and reports failure. -/
def Obligations.SemaphoresHaveOneHolder : Prop :=
  (∀ (s : State) (l : LaneId) (n : Nat) (byLane byHub : Bool), (s.lane l).rst.held = false → n < 32 →
    ∃ t, exec (.semTake l n byLane byHub) s = .next t ∧ s.OnlyLane t l ∧ (s.lane l).OnlyRegs (t.lane l) [BRG_SEM n] ∧
      (t.lane l).fget (BRG_SEM_OWNER n) =
        if (s.lane l).fget (BRG_SEM_OWNER n) ≠ 0 then (s.lane l).fget (BRG_SEM_OWNER n)
        else if byHub then 2 else if byLane then 1 else 0) ∧
  (∀ (s : State) (l : LaneId) (n : Nat) (byHub : Bool), (s.lane l).rst.held = false → n < 32 →
    ∃ t, exec (.semGive l n byHub) s = .next t ∧ s.OnlyLane t l ∧ (s.lane l).OnlyRegs { t.lane l with brg := (s.lane l).brg } [BRG_SEM n] ∧
      (t.lane l).brg = { (s.lane l).brg with excl := if byHub = false ∧ (s.lane l).fget (BRG_SEM_OWNER n) = 1 ∧ (s.lane l).brg.excl = some n then
        none else (s.lane l).brg.excl } ∧
      (t.lane l).fget (BRG_SEM_OWNER n) =
        if (s.lane l).fget (BRG_SEM_OWNER n) = (if byHub then 2 else 1) then 0 else (s.lane l).fget (BRG_SEM_OWNER n)) ∧
  (∀ (s : State) (l : LaneId) (a : Word) (tm : Nat), (s.lane l).rst.held = false → inBridge a.toNat = true → a.toNat % 4 = 0 →
    (s.lane l).on (BRG_MAP_EN (brgWin a.toNat)) = true → (s.lane l).poisonedWin (brgWin a.toNat) = false → (s.lane l).brg.excl = none →
    ∃ t, exec (.exclusiveLoad l a tm) s = .next t ∧ s.OnlyLane { t with bus := s.bus } l ∧ t.bus = .none ∧
      ((s.lane l).fget (BRG_SEM_OWNER (exclSem a)) = 0 →
        (t.lane l).fget (BRG_SEM_OWNER (exclSem a)) = 1 ∧ (t.lane l).brg.excl = some (exclSem a)) ∧
      ((s.lane l).fget (BRG_SEM_OWNER (exclSem a)) = 2 →
        (t.lane l).fget (BRG_SEM_OWNER (exclSem a)) = 2 ∧ (t.lane l).brg.excl = none)) ∧
  (∀ (s : State) (l : LaneId) (a v : Word) (tm : Nat), (s.lane l).rst.held = false → inBridge a.toNat = true → a.toNat % 4 = 0 →
    ((s.lane l).brg.excl ≠ some (exclSem a) ∨ (s.lane l).fget (BRG_SEM_OWNER (exclSem a)) ≠ 1) →
    exec (.exclusiveStore l a v tm) s = .next { s with now := max s.now tm, bus := .data 0 }) ∧
  (∀ (s : State) (l : LaneId) (a v : Word) (tm : Nat), (s.lane l).rst.held = false → inBridge a.toNat = true → a.toNat % 4 = 0 →
    (s.lane l).on (BRG_MAP_EN (brgWin a.toNat)) = true → (s.lane l).on (BRG_MAP_WEN (brgWin a.toNat)) = true →
    (s.lane l).poisonedWin (brgWin a.toNat) = false →
    (s.lane l).brg.excl = some (exclSem a) → (s.lane l).fget (BRG_SEM_OWNER (exclSem a)) = 1 →
    ∃ t, exec (.exclusiveStore l a v tm) s = .next t ∧ t.bus = .data 1 ∧ (t.lane l).fget (BRG_SEM_OWNER (exclSem a)) = 0 ∧
      (t.lane l).brg.excl = none ∧
      (t.lane l).brg.writes = (s.lane l).brg.writes ++ [{ win := brgWin a.toNat, addr := a, bytes := 4, v := v, t := tm }])

/-- SCRUB_READ (R417 to R419): the next word is read in turn; one bit in error is corrected and counted; two or more make a voter leave with LANE_FAULT,
while in the hub they only set `UE`. MAILBOX_ACCESS, HOST_WINDOW_ACCESS and HBUSY_N_RELEASE (R369, R427 to R430): a mailbox word written by one side
reads back at the other, every other byte kept; a read that collides with a write answers a free value, one of an uncorrectable word a bus error,
counted (R427); the host reaches only the shared range of hub SRAM; the port that began later sees BUSY. -/
def Obligations.ScrubbingAndMailboxesKeepTheOtherWords : Prop :=
  ((∀ (s : State) (l : LaneId), (s.lane l).rst.held = false →
     (∃ t, exec (.scrubRead (.lane l) 0) s = .next t ∧ (∀ k, t.lane k = s.lane k) ∧ t.hub = s.hub ∧
       t.scrubOf l = (s.scrubOf l + 1) % 0x400000) ∧
     (∃ t, exec (.scrubRead (.lane l) 1) s = .next t ∧ (s.lane l).OnlyRegs (t.lane l) [LCTL_MEMSTAT, LCTL_ECCADDR] ∧ t.hub = s.hub ∧
       (t.lane l).on LCTL_MEMSTAT_CE = true ∧
       (t.lane l).rg LCTL_ECCADDR = BitVec.ofNat 32 (0x08000000 + 4 * s.scrubOf l)) ∧
     (∀ n, 2 ≤ n → (s.lane l).inVote = true → (s.lane l).easy = false →
       ∃ t, exec (.scrubRead (.lane l) n) s = .next t ∧ (t.lane l).on LCTL_MEMSTAT_UE = true ∧ (t.lane l).inVote = false ∧
         (t.lane l).fget VOTE_LEAVE_REASON = 0x0A ∧ (t.lane l).fld.dyn = 0 ∧ (t.lane l).rst.due = some (false, 4, s.now + 10000))) ∧
   (∀ (s : State) (n : Nat), s.hub.rst.held = false → 2 ≤ n →
     ∃ t, exec (.scrubRead .hub n) s = .next t ∧ s.OnlyHub t ∧ s.hub.RegsKept t.hub [HSRAM_STAT, HSRAM_ECCADDR] ∧
       t.hub.on HSRAM_STAT_UE = true ∧ t.hub.sram = s.hub.sram)) ∧
  ((∀ (s : State) (l : LaneId) (byHub rdHub : Bool) (off n : Nat) (v : Word), (s.lane l).rst.held = false → s.hub.rst.held = false →
     off % 4 = 0 → off < 0x40000 →
     ∃ t u, exec (.mailboxAccess l byHub off .word (.write v) none n) s = .next t ∧
       exec (.mailboxAccess l rdHub off .word .read none 0) t = .next u ∧
       t.bus = .none ∧ u.bus = .data v ∧ (∀ k, t.lane k = s.lane k) ∧ t.hub.reg = s.hub.reg ∧ t.hub.sram = s.hub.sram ∧
       (∀ k, k ≠ l → t.hub.mbx k = s.hub.mbx k) ∧
       ∀ b : Nat, (b < off ∨ off + 4 ≤ b) → memByte (t.hub.mbx l).mem b = memByte (s.hub.mbx l).mem b) ∧
   (∀ (s : State) (l : LaneId) (off n : Nat) (v : Word) (later : Bool), (s.lane l).rst.held = false → off % 4 = 0 → off < 0x40000 →
     ∃ t, exec (.mailboxAccess l false off .word .read (some (later, .write v)) n) s = .next t ∧ t.bus = .data (Config.freeWord s.draws) ∧
       (t.lane l).fget LCTL_MEMSTAT_MBXCOLL = ((s.lane l).fget LCTL_MEMSTAT_MBXCOLL + 1) % 2 ^ LCTL_MEMSTAT_MBXCOLL.w ∧
       (later = false → (t.lane l).on LCTL_MEMSTAT_MBX_BUSY = true)) ∧
   (∀ (s : State) (l : LaneId) (off n : Nat), s.hub.rst.held = false → off % 4 = 0 → off < 0x40000 → 2 ≤ n →
     ∃ t, exec (.mailboxAccess l true off .word .read none n) s = .next t ∧ t.bus = .error ∧ (∀ k, t.lane k = s.lane k) ∧
       t.hub.fget (HSRAM_MBX_UECNT l.idx) = satAdd (ones (HSRAM_MBX_UECNT l.idx).w) (s.hub.fget (HSRAM_MBX_UECNT l.idx)) 1 ∧
       (t.hub.mbx l).mem = (s.hub.mbx l).mem) ∧
   (∀ (s : State) (off : Nat) (w : Width) (acc : Access) (tm : Nat), s.hub.rst.held = false → inShared off (Width.bytes w) = false →
     ∃ t, exec (.hostWindowAccess off w acc none tm) s = .next t ∧ t.hub.on HCMD_STAT_WIN_ERR = true ∧ t.hub.sram = s.hub.sram ∧
       t.bus = (match acc with | .read => .data 0 | .write _ => .none)) ∧
   (∀ (s : State) (off : Nat) (v : Word) (tm : Nat), s.hub.rst.held = false → s.hub.badBanks = [] → inShared off 4 = true → inReserved off = false →
     ∃ t u, exec (.hostWindowAccess off .word (.write v) none tm) s = .next t ∧ exec (.hostWindowAccess off .word .read none tm) t = .next u ∧
       t.bus = .none ∧ u.bus = .data v ∧ t.hub.reg = s.hub.reg ∧
       ∀ b : Nat, (b < 0x08000000 + off ∨ 0x08000000 + off + 4 ≤ b) → memByte t.hub.sram b = memByte s.hub.sram b) ∧
   (∀ (s : State) (tm : Nat), s.hub.host.busyUntil ≤ tm →
     ∃ t, exec (.hbusyNRelease tm) s = .next t ∧ s.OnlyHub t ∧ t.hub.host.busyUntil = 0 ∧ t.hub.reg = s.hub.reg))

/-- TASK_EXCEPTION and PROGRAM_BREAKPOINT (R216, R220): an exception of a ready task ends its cycle and its compute and puts the program set into STOP
with cause PRG_FAULT at the next stroke catch; a set breakpoint ends the cycle without that; a task that may not run does neither (R211, R212).
EVENT_TASK_RELEASE and PROGRAM_TIMER_EXPIRY (R65, R215): the release instant serves every held trigger; an expiry removes its timer and is held as a
trigger of the tasks that name it. A running task reads other tasks' variables from the copies of its catch and changes none of them, nor a forced
one (R213, R231). RETAIN_LIST (R223): at a warm start, before arming, a lane takes down the list of a peer; once those of every lane out of reset
are in, a copy listed by no two lanes leaves the initial values and one it holds itself and another lists is loaded; the decision is taken once. -/
def Obligations.TaskCyclesAndRetainedDataFollowTheirRules : Prop :=
  ((∀ (s : State) (l : LaneId) (n : Nat) (pc : Word) (code : Byte) (k : TaskRun), (s.lane l).rst.held = false →
     (s.lane l).taskOf n = some k → k.active = true → k.ready = true →
     ∃ t, exec (.taskException l n pc code) s = .next t ∧ s.OnlyLane t l ∧ (t.lane l).reg = (s.lane l).reg ∧
       (t.lane l).prog.modeNext = some .stop ∧ (t.lane l).prog.fault = true ∧ (t.lane l).prog.mode = (s.lane l).prog.mode ∧
       (t.lane l).sram = ((s.lane l).cutTask n).sram ∧
       ((t.lane l).taskOf n).map (fun j => (j.active, j.ready, j.excepted, j.broke)) = some (true, false, true, k.broke) ∧
       ∀ m, m ≠ n → ((t.lane l).taskOf m).map (·.excepted) = ((s.lane l).taskOf m).map (·.excepted)) ∧
   (∀ (s : State) (l : LaneId) (n : Nat) (pc : Word) (k : TaskRun), (s.lane l).rst.held = false →
     (s.lane l).taskOf n = some k → k.active = true → k.ready = true → (n, pc) ∈ (s.lane l).prog.breaks →
     ∃ t, exec (.programBreakpoint l n pc) s = .next t ∧ s.OnlyLane t l ∧ (t.lane l).reg = (s.lane l).reg ∧
       (t.lane l).prog.modeNext = (s.lane l).prog.modeNext ∧ (t.lane l).prog.mode = (s.lane l).prog.mode ∧
       (t.lane l).sram = ((s.lane l).cutTask n).sram ∧
       ((t.lane l).taskOf n).map (fun j => (j.active, j.ready, j.excepted, j.broke)) = some (true, false, k.excepted, true)) ∧
   (∀ (s : State) (l : LaneId) (n : Nat) (pc : Word) (code : Byte), (s.lane l).rst.held = false → (s.lane l).taskRuns n = none →
     (∃ t, exec (.taskException l n pc code) s = .next t ∧ s.OnlyLane t l ∧ (s.lane l).OnlyRegs (t.lane l) []) ∧
     (∃ t, exec (.programBreakpoint l n pc) s = .next t ∧ s.OnlyLane t l ∧ (s.lane l).OnlyRegs (t.lane l) [])) ∧
   (∀ (s : State) (l : LaneId) (n tm : Nat) (d : TaskDesc) (k : TaskRun), (s.lane l).rst.held = false →
     (s.lane l).taskDesc n = some d → (s.lane l).taskOf n = some k → d.event = true → k.active = false → 0 < k.held →
     tm = (s.lane l).releaseDue d k → (s.lane l).prog.mode = .run → (s.lane l).running = true → (s.lane l).easy = false →
     ∃ t, exec (.eventTaskRelease l n tm) s = .next t ∧ s.OnlyLane t l ∧ (t.lane l).reg = (s.lane l).reg ∧
       (t.lane l).sram = (s.lane l).sram ∧ tm % 1000000 = 0 ∧ k.trigT < tm ∧ (k.prevTn ≠ 0 → k.prevTn + d.period * 1000000 ≤ tm) ∧
       (t.lane l).tasks =
         (s.lane l).tasks.map (fun j => if j.tnum = n then { j with served := min 255 j.held, held := 0, relT := tm } else j)) ∧
   (∀ (s : State) (l : LaneId) (n tm : Nat) (d : TaskDesc) (k : TaskRun), (s.lane l).rst.held = false →
     (s.lane l).taskDesc n = some d → (s.lane l).taskOf n = some k → tm ≠ (s.lane l).releaseDue d k →
     ∃ t, exec (.eventTaskRelease l n tm) s = .next t ∧ s.OnlyLane t l ∧ (t.lane l).tasks = (s.lane l).tasks ∧
       (t.lane l).reg = (s.lane l).reg) ∧
   (∀ (s : State) (l : LaneId) (n tm : Nat), (s.lane l).rst.held = false → (∀ e ∈ (s.lane l).prog.timers, e.1 = n → tm < e.2) →
     ∃ t, exec (.programTimerExpiry l n tm) s = .next t ∧ s.OnlyLane t l ∧ (t.lane l).reg = (s.lane l).reg ∧
       (t.lane l).prog = (s.lane l).prog ∧ (t.lane l).tasks = (s.lane l).tasks) ∧
   (∀ (s : State) (l : LaneId) (n e tm : Nat), (s.lane l).rst.held = false → (n, e) ∈ (s.lane l).prog.timers → e ≤ tm →
     ∃ t, exec (.programTimerExpiry l n tm) s = .next t ∧ s.OnlyLane t l ∧ (t.lane l).reg = (s.lane l).reg ∧
       (t.lane l).sram = (s.lane l).sram ∧
       (t.lane l).prog = { (s.lane l).prog with timers := (s.lane l).prog.timers.filter fun x => x.1 != n } ∧
       (∀ (g : Program) (d : TaskDesc) (k : TaskRun), (s.lane l).prog.prog = some g → g.tasks = [d] → (s.lane l).tasks = [k] → d.tnum = k.tnum →
         (t.lane l).tasks =
           [if (d.event && d.trig == 3 && d.tsrc == n) = true then
             { k with held := k.held + 1, trigT := if k.held = 0 then tm else k.trigT } else k])) ∧
   (∀ (s : State) (l : LaneId) (n : Nat) (x : Lane) (k : TaskRun) (addr : Word), (s.lane l).rst.held = false →
     (s.lane l).taskRuns n = some x → x.taskOf n = some k → sramOk (s.lane l).badBanks addr.toNat 4 = true →
     ∃ t, exec (.registerWrite (.lane l) addr .read { src := .task n, nerr := 0, hw := 0 }) s = .next t ∧ t.hub = s.hub ∧
       (t.lane l).sram = (s.lane l).sram ∧
       t.bus = .data (BitVec.ofNat 32 (ofLe ((upTo 4).map fun i => x.taskByte k (addr.toNat + i))))) ∧
   (∀ (s : State) (l : LaneId) (n : Nat) (x : Lane) (k : TaskRun) (addr v : Word), (s.lane l).rst.held = false →
     (s.lane l).taskRuns n = some x → x.taskOf n = some k → k.tnum = n → sramOk (s.lane l).badBanks addr.toNat 4 = true →
     ∃ t, exec (.registerWrite (.lane l) addr (.write v) { src := .task n, nerr := 0, hw := 0 }) s = .next t ∧ t.bus = .none ∧
       t.hub = s.hub ∧ (t.lane l).reg = (s.lane l).reg ∧
       (∀ b : Nat, (b < addr.toNat ∨ addr.toNat + 4 ≤ b ∨ (s.lane l).keeps n b = true) →
         memByte (t.lane l).sram b = memByte (s.lane l).sram b) ∧
       (∀ i : Nat, i < 4 → (s.lane l).keeps n (addr.toNat + i) = false →
         memByte (t.lane l).sram (addr.toNat + i) = BitVec.ofNat 8 (v.toNat / 2 ^ (8 * i))))) ∧
  ((∀ (s : State) (dst src z : LaneId) (items : List RetainItem), (s.lane dst).rst.held = false → (s.lane dst).armed = false →
     (s.lane dst).sitReady = true → dst ≠ src → dst ≠ z → src ≠ z → (s.lane z).up = true → (s.lane dst).start.cold = false →
     (s.lane dst).start.retDone = false → (s.lane dst).start.retLists = [] →
     ∃ t, exec (.retainList dst src items) s = .next t ∧ s.OnlyLane t dst ∧ (t.lane dst).reg = (s.lane dst).reg ∧
       (t.lane dst).sram = (s.lane dst).sram ∧ (t.lane dst).start.retLists = [(dst, (s.lane dst).retainItems), (src, items)] ∧
       (t.lane dst).start.retDone = false) ∧
   (∀ (s : State) (dst src z : LaneId) (items : List RetainItem), (s.lane dst).rst.held = false → (s.lane dst).armed = false →
     (s.lane dst).sitReady = true → dst ≠ src → dst ≠ z → src ≠ z → (s.lane z).up = false → (s.lane dst).start.cold = false →
     (s.lane dst).start.retDone = false → (s.lane dst).start.retLists = [] → (∀ i ∈ (s.lane dst).retainItems, i ∉ items) →
     ∃ t, exec (.retainList dst src items) s = .next t ∧ s.OnlyLane t dst ∧ (t.lane dst).reg = (s.lane dst).reg ∧
       (t.lane dst).sram = (s.lane dst).sram ∧ (t.lane dst).start.retDone = true ∧ (t.lane dst).start.retainOk = true) ∧
   (∀ (s : State) (dst src z : LaneId) (i : RetainItem), (s.lane dst).rst.held = false → (s.lane dst).armed = false →
     (s.lane dst).sitReady = true → dst ≠ src → dst ≠ z → src ≠ z → (s.lane z).up = false → (s.lane dst).start.cold = false →
     (s.lane dst).start.retDone = false → (s.lane dst).start.retLists = [] → (s.lane dst).retainItem false = some i →
     (s.lane dst).retainItem true = none →
     ∃ t, exec (.retainList dst src [i]) s = .next t ∧ s.OnlyLane t dst ∧ (t.lane dst).reg = (s.lane dst).reg ∧
       (t.lane dst).sram = ((s.lane dst).loadRetain false).sram ∧ (t.lane dst).start.retDone = true ∧
       (t.lane dst).start.retainOk = true ∧ (t.lane dst).prog.retNew = false) ∧
   (∀ (s : State) (dst src : LaneId) (items : List RetainItem),
     ((s.lane dst).start.retDone = true ∨ (s.lane dst).armed = true ∨ (s.lane dst).start.cold = true) →
     ∃ t, exec (.retainList dst src items) s = .next t ∧ t = s))

/-- CARRY_MAP_DIGEST, PREPARE_READBACK and READY_NOTICE (R225): a voter whose result and digest equal every other voter's goes on to PREPARE, or ends
the change with its result when the result is a refusal; a voter alone with another value leaves at the vote; two voters that differ enter easy all.
ONLINE_CHANGE_SWITCH, COMMIT_READBACK and COMMIT_TIMEOUT (R225, R226, R229, R234): at the latest finish at or after that of the agreed stroke,
outside every task, a voter switches, or refuses a carry that does not fit before the next catch or a force that stands against it; the COMMIT
record read back completes the change; a change not switched at the 64th catch after its admission ends with COMMIT_TIMEOUT, or NVW_DEFERRED while
its record waits. -/
def Obligations.OnlineChangesNeedAgreementAndSwitchBetweenTasks : Prop :=
  ((∀ (s : State) (dst src : LaneId) (d : Word) (r : Nat), (s.lane dst).rst.held = false → (s.lane dst).inVote = true →
     (s.lane dst).up = true → (s.lane dst).easy = false →
     (s.lane dst).prog.chg.stage = .carry → dst ≠ src → (s.lane dst).others = [src] → src ∈ (s.lane dst).staying →
     ∃ t, exec (.carryMapDigest dst src d r) s = .next t ∧ (∀ k, k ≠ dst → t.lane k = s.lane k) ∧
       (d = (s.lane dst).prog.chg.digest → r = (s.lane dst).prog.chg.result → r ≠ 0 →
         (t.lane dst).prog.chg.stage = .none ∧ (t.lane dst).prog.prog = (s.lane dst).prog.prog ∧ (t.lane dst).sram = (s.lane dst).sram ∧
         (t.lane dst).prog.cmdDone = (s.lane dst).prog.cmdDone ++ [((s.lane dst).prog.chg.seq, 7, r)]) ∧
       (d = (s.lane dst).prog.chg.digest → r = (s.lane dst).prog.chg.result → r = 0 →
         (t.lane dst).prog.chg.stage = .prepare ∧ (t.lane dst).sram = (s.lane dst).sram) ∧
       ((d ≠ (s.lane dst).prog.chg.digest ∨ r ≠ (s.lane dst).prog.chg.result) →
         (t.lane dst).easy = true ∧ (t.lane dst).fget VOTE_EASY_CAUSE = 0x02)) ∧
   (∀ (s : State) (dst y z : LaneId) (d e : Word) (q r : Nat), (s.lane dst).rst.held = false → (s.lane dst).inVote = true →
     (s.lane dst).prog.chg.stage = .carry → dst ≠ y → dst ≠ z → y ≠ z → y ∈ (s.lane dst).staying → (s.lane dst).others = [y, z] →
     (s.lane dst).prog.chg.peers = [(z, e, q)] → ((d, r) ≠ ((s.lane dst).prog.chg.digest, (s.lane dst).prog.chg.result)) →
     ∃ t, exec (.carryMapDigest dst y d r) s = .next t ∧ (∀ k, k ≠ dst → t.lane k = s.lane k) ∧ t.hub = s.hub ∧
       ((d, r) = (e, q) → (t.lane dst).due = (s.lane dst).due ++ [(0x01, none)] ∧ (t.lane dst).reg = (s.lane dst).reg) ∧
       ((e, q) = ((s.lane dst).prog.chg.digest, (s.lane dst).prog.chg.result) →
         (t.lane dst).due = (s.lane dst).due ∧ (t.lane dst).reg = (s.lane dst).reg)) ∧
   (∀ (s : State) (l : LaneId) (g : Program) (entry : List Byte), (s.lane l).rst.held = false → (s.lane l).prog.chg.stage = .prepare →
     (s.lane l).prog.chg.newProg = some g → recordFor jPrepare g (s.slotBuild (s.pointer.slotFor (laneBit l))) entry = true →
     ∃ t, exec (.prepareReadback l entry) s = .next t ∧ s.OnlyLane t l ∧
       (t.lane l).prog.chg = { (s.lane l).prog.chg with stage := .ready, ready := true }) ∧
   (∀ (s : State) (dst src : LaneId), (s.lane dst).rst.held = false → (s.lane dst).prog.chg.stage ≠ .none →
     ∃ t, exec (.readyNotice dst src) s = .next t ∧ s.OnlyLane t dst ∧ src ∈ (t.lane dst).prog.chg.readyFrom ∧
       (t.lane dst).reg = (s.lane dst).reg ∧ (t.lane dst).sram = (s.lane dst).sram)) ∧
  ((∀ (s : State) (l : LaneId) (g : Program) (from_ tm : Nat), (s.lane l).rst.held = false → (s.lane l).inVote = true →
     (s.lane l).prog.chg.stage = .ready → (s.lane l).prog.chg.newProg = some g → (s.lane l).prog.chg.agreedAt = some from_ →
     from_ + (s.lane l).deadline + 400000 ≤ tm → tm = (s.lane l).prog.lastFin → (s.lane l).tasks.all (fun k => !k.active) = true →
     ∃ t, exec (.onlineChangeSwitch l tm) s = .next t ∧ (∀ k, k ≠ l → t.lane k = s.lane k) ∧
       ((s.lane l).prog.forces.any (fun f => ((s.lane l).forceFate g f).isNone) = true →
         (t.lane l).prog.prog = (s.lane l).prog.prog ∧ (t.lane l).prog.chg.stage = .none ∧ (t.lane l).sram = (s.lane l).sram ∧
         (t.lane l).prog.cmdDone = (s.lane l).prog.cmdDone ++ [((s.lane l).prog.chg.seq, 7, 4)]) ∧
       ((s.lane l).prog.forces.any (fun f => ((s.lane l).forceFate g f).isNone) = false →
         (s.lane l).nextCatch tm < tm + carryTime (s.lane l).prog.chg.carry →
         (t.lane l).prog.prog = (s.lane l).prog.prog ∧ (t.lane l).prog.chg.stage = .none ∧ (t.lane l).sram = (s.lane l).sram ∧
         (t.lane l).prog.cmdDone = (s.lane l).prog.cmdDone ++ [((s.lane l).prog.chg.seq, 7, 3)]) ∧
       ((s.lane l).prog.forces.any (fun f => ((s.lane l).forceFate g f).isNone) = false →
         tm + carryTime (s.lane l).prog.chg.carry ≤ (s.lane l).nextCatch tm →
         (t.lane l).prog.prog = some g ∧ (t.lane l).prog.code1 = !(s.lane l).prog.code1 ∧ (t.lane l).prog.half1 = !(s.lane l).prog.half1 ∧
         (t.lane l).prog.chg.stage = .switched ∧ (t.lane l).prog.mode = (s.lane l).prog.mode ∧ (t.lane l).prgid = g.prgid ∧
         (t.lane l).start.own.prgid = g.prgid)) ∧
   (∀ (s : State) (l : LaneId) (tm : Nat), (s.lane l).rst.held = false →
     ((s.lane l).prog.chg.stage ≠ .ready ∨ (s.lane l).prog.chg.agreedAt = none ∨ tm ≠ (s.lane l).prog.lastFin ∨
       (s.lane l).tasks.any (fun k => k.active) = true) →
     ∃ t, exec (.onlineChangeSwitch l tm) s = .next t ∧ s.OnlyLane t l ∧ (t.lane l).prog = (s.lane l).prog ∧
       (t.lane l).sram = (s.lane l).sram ∧ (t.lane l).reg = (s.lane l).reg) ∧
   (∀ (s : State) (l : LaneId) (g : Program) (entry : List Byte), (s.lane l).rst.held = false → (s.lane l).prog.chg.stage = .switched →
     (s.lane l).prog.chg.newProg = some g → recordFor jCommit g (s.slotBuild (s.pointer.slotFor (laneBit l))) entry = true →
     ∃ t, exec (.commitReadback l entry) s = .next t ∧ s.OnlyLane t l ∧ (t.lane l).prog.chg = chgReset ∧
       (t.lane l).prog.cmdDone = (s.lane l).prog.cmdDone ++ [((s.lane l).prog.chg.seq, 0, 0)]) ∧
   (∀ s : State, ∃ t, exec (.commitTimeout) s = .next t ∧ t.field = s.field ∧
     ∀ l, ((s.lane l).rst.held = false → (s.lane l).prog.chg.stage ≠ .none → (s.lane l).prog.chg.stage ≠ .switched →
           64 ≤ (s.lane l).prog.chg.catches →
           (t.lane l).prog.chg = chgReset ∧ (t.lane l).prog.prog = (s.lane l).prog.prog ∧ (t.lane l).sram = (s.lane l).sram ∧
           (t.lane l).reg = (s.lane l).reg ∧
           ((s.hub.upd.gated.any fun w => w.kind == .prepare) = false →
             (t.lane l).prog.cmdDone = (s.lane l).prog.cmdDone ++ [((s.lane l).prog.chg.seq, 7, 8)]) ∧
           ((s.hub.upd.gated.any fun w => w.kind == .prepare) = true →
             (t.lane l).prog.cmdDone = (s.lane l).prog.cmdDone ++ [((s.lane l).prog.chg.seq, 7, 7)])) ∧
       ((s.lane l).prog.chg.catches < 64 → t.lane l = s.lane l) ∧
       ((s.lane l).prog.chg.stage = .none → t.lane l = s.lane l)))

/-- FIELD_FRAME (R237, R238, R242): a frame with a wrong CRC or for another port changes no input; a valid one is taken, with an input under a test-
pulse fault unproven and the plain ON and OFF rows as R242 gives them. FIELD_RATE_WINDOW, FIELD_CONFIG_SEND and CAL_REQUEST (R238, R239, R245). -/
def Obligations.OnlyValidFieldFramesChangeInputs : Prop :=
  (∀ (s : State) (l : LaneId) (f : List Byte) (tm : Nat), (s.lane l).rst.held = false → f.length = 64 → beAt f 0 1 = 0x5A →
    ∃ t, exec (.fieldFrame l f tm) s = .next t ∧ s.OnlyLane t l ∧
      (s.lane l).RegsKept (t.lane l) [FLDP_STAT, FLDP_FRCNT, FLDP_WB, LCTL_IRQ_PEND] ∧
      (t.lane l).fld.starts = (s.lane l).fld.starts + 1 ∧
      (beAt f 62 2 ≠ crc16 (f.take 62) → (t.lane l).on FLDP_STAT_CRC_ERR = true ∧ (t.lane l).fld.vals = (s.lane l).fld.vals ∧
        (t.lane l).fld.lastValid = (s.lane l).fld.lastValid) ∧
      (beAt f 62 2 = crc16 (f.take 62) → beAt f 1 1 ≠ (s.lane l).id.code →
        (t.lane l).on FLDP_STAT_PORT_ERR = true ∧ (t.lane l).fld.vals = (s.lane l).fld.vals ∧
        (t.lane l).fld.lastValid = (s.lane l).fld.lastValid) ∧
      (beAt f 62 2 = crc16 (f.take 62) → beAt f 1 1 = (s.lane l).id.code →
        (t.lane l).fld.lastValid = some tm ∧ (t.lane l).fld.frame = f ∧ (t.lane l).on FLDP_STAT_LINK = true ∧
        ∀ k, k < 32 → getField (beAt f 28 4) k 1 = 0 →
          (getField (beAt f 20 8) (2 * k) 2 ≠ 0 → (t.lane l).inVal k = 0) ∧
          (getField (beAt f 20 8) (2 * k) 2 = 0 → bitOf ((s.lane l).rg (FLDP_INCFG k)) 8 = false →
            (getField (beAt f 4 4) k 1 = 0 → getField (beAt f 8 4) k 1 = 0 → (t.lane l).inVal k = 1) ∧
            (getField (beAt f 4 4) k 1 = 1 → getField (beAt f 8 4) k 1 = 1 → getField (beAt f 12 8) (2 * k) 2 = 2 → (t.lane l).inVal k = 2)))) ∧
  (∀ (s : State) (l : LaneId) (tm : Nat), (s.lane l).rst.held = false →
    ∃ t, exec (.fieldRateWindow l tm) s = .next t ∧ s.OnlyLane t l ∧ (s.lane l).RegsKept (t.lane l) [FLDP_STAT] ∧
      (tm % 10000000 = 0 → (t.lane l).fld.starts = 0) ∧
      (tm % 10000000 = 0 → (s.lane l).start.release + 10000000 ≤ tm → ((s.lane l).fld.starts < 194 ∨ 206 < (s.lane l).fld.starts) →
        (t.lane l).on FLDP_STAT_RATE_ERR = true) ∧
      (tm % 10000000 ≠ 0 ∨ tm < (s.lane l).start.release + 10000000 ∨ (194 ≤ (s.lane l).fld.starts ∧ (s.lane l).fld.starts ≤ 206) →
        (t.lane l).reg = (s.lane l).reg)) ∧
  (∀ (s : State) (l : LaneId) (tm : Nat), (s.lane l).rst.held = false → (s.lane l).armed = true →
    ((s.lane l).fld.cfgOut = [] ∨ (s.lane l).fld.lastCfg + 10000000 ≤ tm) →
    ∃ t, exec (.fieldConfigSend l tm) s = .next t ∧ s.OnlyLane t l ∧ (t.lane l).reg = (s.lane l).reg ∧
      (t.lane l).fld = { (s.lane l).fld with lastCfg := tm, cfgOut := (s.lane l).fieldCfg }) ∧
  (∀ (s : State) (l : LaneId) (tm : Nat), (s.lane l).rst.held = false → (s.lane l).armed = false →
    ∃ t, exec (.fieldConfigSend l tm) s = .next t ∧ s.OnlyLane t l ∧ (t.lane l).fld = (s.lane l).fld) ∧
  (∀ (s : State) (l : LaneId) (v : Word) (tm : Nat), (s.lane l).rst.held = false →
    ∃ t, exec (.calRequest l v tm) s = .next t ∧ (∀ k, k ≠ l → t.lane k = s.lane k) ∧ t.hub = s.hub ∧
      (s.lane l).RegsKept (t.lane l) [FLDP_CAL] ∧ (t.lane l).fget FLDP_CAL_CH = bvField v 0 5 ∧
      (bitOf v 8 = false → t.field = s.field) ∧
      (bitOf v 8 = true → s.fieldUp = true →
        { port := l, ch := bvField v 0 5, t := tm, v := (s.lane l).inAgreed (bvField v 0 5) } ∈ t.field.calReqs))

/-- FIELD_CONFIG_FRAME and FIELD_IMAGE_BLOCK (R239, R251, R466): a configuration its lane sent, or an image block, counts once two ports have delivered
the same; a configuration that breaks the pair rule is not applied. CALIBRATION_START and CALIBRATION_END (R245, R246, R248). FIELD_UNDERVOLTAGE,
FIELD_UNDERVOLTAGE_END, FIELD_OVERTEMP, FIELD_OVERTEMP_END, FIELD_SLEEP, FIELD_BROWN_OUT and FIELD_POWER_ON (R513, R541, R574): the first, third and
fifth switch every output and test-pulse output off; a brown-out holds the die in reset and power brings it back with the default configuration. -/
def Obligations.TheDieActsOnWhatTwoPortsAskAndSwitchesOff : Prop :=
  ((∀ (s : State) (p : LaneId) (ws : List Word) (tm : Nat), s.fieldUp = true → ws.length = 51 → (s.lane p).fld.cfgOut = ws →
     ∃ t, exec (.fieldConfigFrame p ws tm) s = .next t ∧
       ((∀ e ∈ s.field.cfgSeen, e.1 ≠ p → e.2 ≠ ws) ∨ s.field.cfgDefault = false → s.OnlyField t ∧ t.field.cfg = s.field.cfg) ∧
       ((∃ e ∈ s.field.cfgSeen, e.1 ≠ p ∧ e.2 = ws) → s.field.cfgDefault = true → pairsOk ws = true →
         s.OnlyField t ∧ t.field.cfg = ws ∧ t.field.cfgDefault = false ∧ t.field.periodT = tm) ∧
       ((∃ e ∈ s.field.cfgSeen, e.1 ≠ p ∧ e.2 = ws) → s.field.cfgDefault = true → pairsOk ws = false →
         t.field.cfg = s.field.cfg ∧ ∀ l, (s.lane l).rst.held = false → (t.lane l).on FLDP_STAT_CFG_ERR = true)) ∧
   (∀ (s : State) (p : LaneId) (ws : List Word) (tm : Nat), ((s.lane p).fld.cfgOut ≠ ws ∨ s.fieldUp = false) →
     ∃ t, exec (.fieldConfigFrame p ws tm) s = .next t ∧ t = { s with now := max s.now tm }) ∧
   (∀ (s : State) (p : LaneId) (i : Nat) (bs : List Byte), s.fieldUp = true →
     ∃ t, exec (.fieldImageBlock p i bs) s = .next t ∧ (∀ l, t.lane l = s.lane l) ∧
       ((∃ e ∈ s.field.imgSeen, e.1 ≠ p ∧ e.2 = (i, bs)) → (i, bs) ∈ t.field.imgSpare) ∧
       ((∀ e ∈ s.field.imgSeen, e.1 ≠ p → e.2 ≠ (i, bs)) → t.field.imgSpare = s.field.imgSpare)) ∧
   (∀ (s : State) (x y : LaneId) (ch tx ty vx vy tm : Nat), x ≠ y → s.fieldUp = true → ch < 32 → tx ≤ tm → tm ≤ tx + 1000000 → ty ≤ tm →
     tm ≤ ty + 1000000 → s.field.calReqs = [{ port := x, ch := ch, t := tx, v := vx }, { port := y, ch := ch, t := ty, v := vy }] →
     ∃ t, exec (.calibrationStart ch tm) s = .next t ∧ t.field.calReqs = [] ∧
       (s.calRefused ch [vx, vy] tm = false → t.field.cal = (if s.field.cal.isSome then s.field.cal else some (ch, tm)) ∧
         ∀ l, (t.lane l).reg = (s.lane l).reg) ∧
       (s.calRefused ch [vx, vy] tm = true → t.field.cal = s.field.cal ∧
         ∀ l, (s.lane l).rst.held = false → (t.lane l).on FLDP_STAT_CAL_REF = true)) ∧
   (∀ (s : State) (ok : Bool) (ch from_ tm : Nat), s.fieldUp = true → s.field.cal = some (ch, from_) → ch < 32 → from_ + 5000000 ≤ tm →
     ∃ t, exec (.calibrationEnd ok tm) s = .next t ∧ t.field = { s.field with cal := none, calFail := !ok } ∧
       ∀ l, (s.lane l).rst.held = false → ((t.lane l).rg FLDP_CALFAIL).getLsbD ch = !ok ∧
         ∀ k, k < 32 → k ≠ ch → ((t.lane l).rg FLDP_CALFAIL).getLsbD k = ((s.lane l).rg FLDP_CALFAIL).getLsbD k)) ∧
  ((∀ (s : State), s.fieldUp = true →
     (∃ t, exec (.fieldUndervoltage) s = .next t ∧
       t = { s with field := { s.field with uv := true, gap := 0, gapT := [], bandHold := [] } } ∧ t.field.alive = false) ∧
     (∃ t, exec (.fieldUndervoltageEnd) s = .next t ∧ t = { s with field := { s.field with uv := false } }) ∧
     (∃ t, exec (.fieldOvertemp) s = .next t ∧
       t = { s with field := { s.field with ot := true, gap := 0, gapT := [], bandHold := [] } } ∧ t.field.alive = false) ∧
     (∃ t, exec (.fieldOvertempEnd) s = .next t ∧ t = { s with field := { s.field with ot := false } }) ∧
     (∀ tm : Nat, s.field.lastCmd + 30000000 ≤ tm →
       ∃ t, exec (.fieldSleep tm) s = .next t ∧ s.OnlyField t ∧
         t.field = { s.field with sleep := true, gap := 0, gapT := [], bandHold := [] } ∧ t.field.alive = false) ∧
     (∀ tm : Nat, tm < s.field.lastCmd + 30000000 → ∃ t, exec (.fieldSleep tm) s = .next t ∧ t = { s with now := max s.now tm })) ∧
   (∀ (s : State) (k : Nat), s.field.alive = false → s.conducts k = false ∧ s.testOut k = false) ∧
   (∀ (s : State) (tm : Nat), ∃ t u, exec (.fieldBrownOut) s = .next t ∧ exec (.fieldPowerOn tm) t = .next u ∧
     (∀ l, u.lane l = s.lane l) ∧ u.hub = s.hub ∧ t.fieldUp = false ∧ t.field.alive = false ∧ t.field.frameA = [] ∧ u.field.powered = true ∧
     u.field.cfg = fieldCfgDefault ∧ u.field.cfgDefault = true ∧ u.field.uv = true ∧ u.fieldUp = !s.fieldRst.trimFail) ∧
   (∀ (s : State) (tm : Nat), s.field.powered = false →
     ∃ t, exec (.fieldPowerOn tm) s = .next t ∧ t.field.powered = true ∧ t.field.uv = true ∧ t.field.cfgDefault = true ∧
       t.fieldUp = !s.fieldRst.trimFail ∧ (∀ l, t.lane l = s.lane l) ∧ t.hub = s.hub))

/-- FIELD_SAMPLE (R235 to R237): the die sends each lane a frame of 64 bytes that the lane's check passes. COMPARATOR_DEBOUNCE, TEST_PULSE_GAP,
TEST_PULSE_GAP_END and TEST_PULSE_PERIOD_END (R240, R243, R244): a gap begins and ends at its instants only. Frame: the die alone. OUTPUT_OFF_TEST,
OFF_TEST_END, OPEN_LOAD, OVERLOAD, OVERLOAD_RELEASE and SHORT_VF (R252, R253): an output opens for its test at its instants; each fault of a driven
or undriven output stands in the die's diagnosis of that output alone; an overload switches the output off and ends only when no two lanes have
driven the output for 1 ms. -/
def Obligations.SamplesTestsAndOutputFaultsStayInTheDie : Prop :=
  ((∀ (s : State) (m : FieldMeas) (tm : Nat), s.fieldUp = true →
     ∃ t, exec (.fieldSample m tm) s = .next t ∧ s.OnlyField t ∧ t.field.seqA = s.field.seqA + 1 ∧ t.field.seqB = s.field.seqB + 1 ∧
       t.field.seqC = s.field.seqC + 1 ∧
       (∀ e ∈ [(t.field.frameA, 0x0A), (t.field.frameB, 0x0B), (t.field.frameC, 0x0C)],
         e.1.length = 64 ∧ beAt e.1 0 1 = 0x5A ∧ beAt e.1 1 1 = e.2 ∧ beAt e.1 62 2 = crc16 (e.1.take 62)) ∧
       beAt t.field.frameA 2 2 = s.field.seqA.toNat ∧ beAt t.field.frameA 4 4 = s.field.cmpA.toNat ∧ beAt t.field.frameA 8 4 = s.field.cmpB.toNat) ∧
   (∀ (s : State) (k tm : Nat) (on : Bool), s.fieldUp = true → k < 32 →
     (∀ e ∈ s.field.bandHold, e.1 = k → e.2.2 ≠ 0 ∧ e.2.2 ≤ tm) →
     ∃ t u, exec (.comparatorDebounce k false on tm) s = .next t ∧ exec (.comparatorDebounce k true on tm) s = .next u ∧
       t = { s with now := max s.now tm, field := { s.field with cmpA := t.field.cmpA } } ∧
       u = { s with now := max s.now tm, field := { s.field with cmpB := u.field.cmpB } } ∧
       ∀ j, j < 32 → t.field.cmpA.getLsbD j = (if j = k then on else s.field.cmpA.getLsbD j) ∧
         u.field.cmpB.getLsbD j = (if j = k then on else s.field.cmpB.getLsbD j)) ∧
   (∀ (s : State) (k tm : Nat), s.fieldUp = true → k < 8 → s.field.alive = true → getField (s.field.tpCfg 16 8) k 1 = 1 →
     s.field.periodT ≤ tm → (tm - s.field.periodT) % (s.field.tpCfg 8 8 * 1000000) = k * (s.field.tpCfg 8 8 * 1000000) / 8 →
     ∃ t u, exec (.testPulseGap k tm) s = .next t ∧ exec (.testPulseGapEnd k (tm + s.field.tpCfg 0 3 * 100000)) t = .next u ∧
       s.OnlyField t ∧ s.OnlyField u ∧ t.field.gap.getLsbD k = true ∧ t.testOut k = false ∧ u.field.gap.getLsbD k = false ∧ u.testOut k = true ∧
       u.field.cmpA = s.field.cmpA ∧ u.field.cmpB = s.field.cmpB ∧
       ∀ j, j < 8 → j ≠ k → t.field.gap.getLsbD j = s.field.gap.getLsbD j ∧ u.field.gap.getLsbD j = s.field.gap.getLsbD j) ∧
   (∀ (s : State) (k tm : Nat), (s.field.alive = false ∨ getField (s.field.tpCfg 16 8) k 1 = 0 ∨ tm < s.field.periodT ∨
       (tm - s.field.periodT) % (s.field.tpCfg 8 8 * 1000000) ≠ k * (s.field.tpCfg 8 8 * 1000000) / 8) →
     ∃ t, exec (.testPulseGap k tm) s = .next t ∧ t = { s with now := max s.now tm }) ∧
   (∀ (s : State) (k : Nat) (o : PulseObs), s.fieldUp = true → k < 32 → s.field.inCfg k 15 1 = 1 →
     ∃ t, exec (.testPulsePeriodEnd k o) s = .next t ∧ t = { s with field := { s.field with tpst := t.field.tpst, clean := t.field.clean } } ∧
       (pulseCode o ≠ 0 → bvField t.field.tpst (2 * k) 2 = pulseCode o) ∧
       (pulseCode o = 0 → (k, 1) ∈ s.field.clean → (∀ e ∈ s.field.clean, e.1 = k → e.2 = 1) → bvField t.field.tpst (2 * k) 2 = 0) ∧
       ∀ j, j < 32 → j ≠ k → bvField t.field.tpst (2 * j) 2 = bvField s.field.tpst (2 * j) 2) ∧
   (∀ (s : State) (k t0 : Nat), s.fieldUp = true → k < 8 → (k, t0) ∈ s.field.gapT →
     ∃ t, exec (.testPulseGapEnd k (t0 + s.field.tpCfg 0 3 * 100000)) s = .next t ∧ s.OnlyField t ∧
       t = { s with now := max s.now (t0 + s.field.tpCfg 0 3 * 100000),
                    field := { s.field with gap := t.field.gap, gapT := t.field.gapT, bandHold := t.field.bandHold } } ∧
       t.field.gap.getLsbD k = false ∧ (∀ j, j < 8 → j ≠ k → t.field.gap.getLsbD j = s.field.gap.getLsbD j) ∧
       ∀ e ∈ t.field.bandHold, ((s.field.checkedBy k).contains e.1 = true ∧ e.2.2 = t0 + s.field.tpCfg 0 3 * 100000 + 50000) ∨ e ∈ s.field.bandHold)) ∧
  ((∀ (s : State) (k tm : Nat) (low : Bool), s.fieldUp = true → s.field.alive = true → k < 16 → s.driven k = true →
     s.field.qCfg k 7 1 = 1 → s.field.isLow k = false → s.field.ovOff.getLsbD k = false → s.field.periodT ≤ tm →
     (tm - s.field.periodT) % (s.field.qCfg k 8 8 * 10000000) = k * (s.field.qCfg k 8 8 * 10000000) / 16 →
     low = (s.field.qCfg k 1 1 == 1 && (tm - s.field.periodT) / (s.field.qCfg k 8 8 * 10000000) % 2 == 1) →
     ∃ t, exec (.outputOffTest k low tm) s = .next t ∧ s.OnlyField t ∧ (k, low, tm) ∈ t.field.offTest ∧
       (low = false → t.conducts k = false) ∧ (low = true → t.conducts (k + 1) = false)) ∧
   (∀ (s : State) (k from_ : Nat) (rbOn : Bool), s.fieldUp = true → s.field.alive = true → k < 16 → s.driven k = true →
     s.field.offTest = [(k, false, from_)] →
     ∃ t, exec (.offTestEnd k rbOn [] false (from_ + s.field.qCfg k 16 3 * 100000)) s = .next t ∧ s.OnlyField t ∧ t.field.offTest = [] ∧
       ∀ j, j < 16 → t.field.gapMiss.getLsbD j = if j = k then rbOn else s.field.gapMiss.getLsbD j) ∧
   (∀ (s : State) (k : Nat), s.fieldUp = true → s.field.alive = true → k < 16 → s.driven k = true →
     (s.field.qCfg k 6 1 = 1 → s.field.ovOff.getLsbD k = false →
       ∃ t, exec (.openLoad k) s = .next t ∧ t = { s with field := { s.field with openL := t.field.openL } } ∧
         ∀ j, j < 16 → t.field.openL.getLsbD j = (decide (j = k) || s.field.openL.getLsbD j)) ∧
     (∃ t, exec (.overload k) s = .next t ∧ s.OnlyField t ∧ t.conducts k = false ∧
         ∀ j, j < 16 → t.field.ovOff.getLsbD j = (decide (j = k) || s.field.ovOff.getLsbD j)) ∧
     (∀ tm : Nat, ∃ t, exec (.overloadRelease k tm) s = .next t ∧ t.field = s.field)) ∧
   (∀ (s : State) (k : Nat), s.fieldUp = true → k < 16 → s.driven k = false →
     ((∀ e ∈ s.field.crossBy, e.1 ≠ k) →
       ∃ t, exec (.shortVf k) s = .next t ∧ t = { s with field := { s.field with shortV := t.field.shortV } } ∧
         ∀ j, j < 16 → t.field.shortV.getLsbD j = (decide (j = k) || s.field.shortV.getLsbD j)) ∧
     (∀ tm : Nat, (∃ e ∈ s.field.ovSince, e.1 = k ∧ e.2 + 1000000 ≤ tm) →
       ∃ t, exec (.overloadRelease k tm) s = .next t ∧ s.OnlyField t ∧
         ∀ j, j < 16 → t.field.ovOff.getLsbD j = (!decide (j = k) && s.field.ovOff.getLsbD j)) ∧
     (∀ tm : Nat, (∀ e ∈ s.field.ovSince, e.1 = k → tm < e.2 + 1000000) →
       ∃ t, exec (.overloadRelease k tm) s = .next t ∧ t.field = s.field)))

/-- DISCREPANCY_TIMEOUT (R266, R268, R271): at a catch of its task at which the timer has reached `DISC_T` outside a test, a dual-channel block enters
FAULT, with UNPROVEN_LONG when a channel was unproven throughout. At every catch: the enable output of a dual-channel block needs both channels
healthy (R267); a reset needs an OFF of 100 ms to 5 s (R272); SLS enables only within its limit (R275), SLP only inside its range. -/
def Obligations.EnableOutputsNeedTheirConditions : Prop :=
  (∀ (s : State) (l : LaneId) (b tn : Nat) (c : BlkCfg) (r : BlkRun) (k : TaskRun), (s.lane l).rst.held = false →
    (s.lane l).prog.blocks[b]? = some (c, r) → (c.kind = .estop ∨ c.kind = .guard ∨ c.kind = .ossd) → r.st ≠ .fault →
    (s.lane l).blkCatch c tn = some k →
    (r.timer c ((s.lane l).blkIn c [] k)).timeout c ((s.lane l).blkIn c [] k) = true →
    ∃ t r', exec (.discrepancyTimeout l b tn) s = .next t ∧ s.OnlyLane t l ∧ (t.lane l).reg = (s.lane l).reg ∧
      (t.lane l).prog.blocks = (s.lane l).prog.blocks.set b (c, r') ∧ r'.st = .fault ∧ r'.enable c = false ∧ r'.faultOut = true ∧
      r'.diag = if (r.timer c ((s.lane l).blkIn c [] k)).unp1 || (r.timer c ((s.lane l).blkIn c [] k)).unp2 then 0x11 else 0x10) ∧
  (∀ (s : State) (l : LaneId) (b tn : Nat) (c : BlkCfg) (r : BlkRun), (s.lane l).rst.held = false →
    (s.lane l).prog.blocks[b]? = some (c, r) → ((s.lane l).blkCatch c tn = none ∨ r.st = .fault) →
    ∃ t, exec (.discrepancyTimeout l b tn) s = .next t ∧ s.OnlyLane t l ∧ (t.lane l).prog = (s.lane l).prog ∧
      (t.lane l).reg = (s.lane l).reg) ∧
  (∀ (r : BlkRun) (c : BlkCfg) (i : BlkIn), (c.kind = .estop ∨ c.kind = .guard ∨ c.kind = .ossd) →
    (r.catchStep c i).enable c = true → i.bothH c = true ∧ r.back = false) ∧
  (∀ (r : BlkRun) (c : BlkCfg) (i : BlkIn), c.kind = .resetEdge → (r.catchStep c i).enable c = true →
    r.back = false ∧ i.v1 = fOn ∧ r.prev = fOff ∧ ∃ from_, r.offT = some from_ ∧ from_ + 100000 ≤ i.t ∧ i.t ≤ from_ + 5000000) ∧
  (∀ (r : BlkRun) (c : BlkCfg) (i : BlkIn), c.kind = .sls → i.active = true → (r.catchStep c i).enable c = true →
    agreedValid i.enc = true ∧ (r.catchStep c i).speed.natAbs ≤ c.vlim ∧ r.back = false) ∧
  (∀ (r : BlkRun) (c : BlkCfg) (i : BlkIn), c.kind = .slp → i.active = true → (r.catchStep c i).enable c = true →
    agreedValid i.enc = true ∧ agreedZref i.enc = true ∧ c.pmin ≤ signedOf 32 (agreedPos i.enc) ∧ signedOf 32 (agreedPos i.enc) ≤ c.pmax ∧
      r.back = false ∧ 2 ≤ (r.catchStep c i).hist.length)

/-- RING_ENABLE, RING_LISTEN_TIMEOUT and CYCLE_START (R294, R301, R315): a ring is enabled once, with a valid starting rating and a defined role; after
three silent cycles it masters from the next multiple of 1 ms; at each boundary the cycle number counts and the next boundary lies one cycle of the
rating on. CYCLE_START_FRAME, DOWNLINK_SLOT, UPLINK_FRAME, DELAY_MEASUREMENT and NODE_ABSENT (R285, R287 to R291, R298, R299, R302): a master yields
its ring to a higher claim, stops on an equal one and ignores a lower one; its own frame closes the loop, and goes on in the secondary direction; a
frame that fails its check is counted; a valid uplink frame marks its node present, and three silent cycles mark it absent. -/
def Obligations.RingMastersKeepTheCycleAndYieldToHigherClaims : Prop :=
  ((∀ (s : State) (k : Nat) (v : Word) (tm : Nat), k < 6 → s.hub.rst.held = false →
     ∃ t, exec (.ringEnable k v tm) s = .next t ∧ s.OnlyHub t ∧ s.hub.RegsKept t.hub [RING_CTRL k, RING_STAT k] ∧
       (s.hub.on (RING_CTRL_EN k) = true → t.hub = s.hub) ∧
       (s.hub.on (RING_CTRL_EN k) = false → v.getLsbD 0 = true → s.hub.ratingValid (bvField v 4 3) = true →
         (bvField v 1 2 = 1 ∨ bvField v 1 2 = 2) →
         t.hub.on (RING_CTRL_EN k) = true ∧ t.hub.rating k = bvField v 4 3 ∧
         t.hub.rstate k = if bvField v 1 2 = 1 ∧ s.hub.mayMaster = true then 1 else 3) ∧
       (s.hub.on (RING_CTRL_EN k) = false → s.hub.ratingValid (bvField v 4 3) = false → t.hub.on (RING_CTRL_EN k) = false)) ∧
   (∀ (s : State) (k tm : Nat), k < 6 → k < s.hub.rings.length → s.hub.rst.held = false → s.hub.ringRuns k = true → s.hub.rstate k = 1 →
     (s.hub.ring k).listenT + 3 * s.hub.ratingCycle (s.hub.fget (RING_CTRL_RSTART k)) ≤ tm →
     ∃ t, exec (.ringListenTimeout k tm) s = .next t ∧ s.OnlyHub t ∧ s.hub.RegsKept t.hub [RING_STAT k, RING_CLAIM k] ∧
       t.hub.rstate k = 2 ∧ t.hub.rg (RING_CLAIM k) = s.hub.rg PTNR_CLAIM ∧
       tm ≤ (t.hub.ring k).next ∧ (t.hub.ring k).next < tm + 1000000 ∧ (t.hub.ring k).next % 1000000 = 0) ∧
   (∀ (s : State) (k tm : Nat), k < 6 → k < s.hub.rings.length → s.hub.rst.held = false → s.hub.ringRuns k = true → s.hub.rstate k = 2 →
     (s.hub.ring k).ann = none → (s.hub.ring k).next ≤ tm →
     ∃ t, exec (.cycleStart k tm) s = .next t ∧ s.OnlyHub t ∧ s.hub.RegsKept t.hub [RING_CYCLE k, RING_CLAIM k] ∧
       t.hub.rg (RING_CYCLE k) = (if (s.hub.ring k).tstart = 0 then 0 else s.hub.rg (RING_CYCLE k) + 1) ∧
       (t.hub.ring k).tstart = (s.hub.ring k).next ∧ (t.hub.ring k).next = (s.hub.ring k).next + s.hub.cycleNs k ∧
       (s.hub.mayMaster = true → t.hub.rg (RING_CLAIM k) = s.hub.rg PTNR_CLAIM) ∧
       ∀ j, j ≠ k → t.hub.ring j = s.hub.ring j)) ∧
  ((∀ (s : State) (k : Nat) (east : Bool) (frame : List Byte) (tm : Nat), k < 6 → s.hub.rst.held = false → s.hub.ringRuns k = true →
     s.hub.rstate k = 2 → parseCycle frame = none →
     ∃ t, exec (.cycleStartFrame k east frame tm) s = .next t ∧ s.OnlyHub t ∧ s.hub.RegsKept t.hub [RING_ERR k] ∧
       t.hub.fget (RING_ERR_CRCERR k) = satInc 65535 (s.hub.fget (RING_ERR_CRCERR k))) ∧
   (∀ (s : State) (k : Nat) (east : Bool) (frame : List Byte) (f : CycleMsg) (tm : Nat), k < 6 → k < s.hub.rings.length → s.hub.rst.held = false →
     s.hub.ringRuns k = true → s.hub.rstate k = 2 → parseCycle frame = some f → f.ring = k →
     ∃ t, exec (.cycleStartFrame k east frame tm) s = .next t ∧ s.OnlyHub t ∧
       (f.master = s.hub.set.serial → s.hub.RegsKept t.hub [RING_LOOP k] ∧
         ((s.hub.ring k).reads east = true → t.hub.fget (RING_LOOP_LOOP k) = min 0xFFFFF f.delay.toNat) ∧
         (east = true → (s.hub.ring k).wrapW = false →
           (t.hub.ring k).outW = forwardCycle frame ((s.hub.ring k).delayE + 320) ∧ (t.hub.ring k).outE = (s.hub.ring k).outE) ∧
         (east = false → t.hub.rings = s.hub.rings)) ∧
       (f.master ≠ s.hub.set.serial →
         (f.claim.toNat < (s.hub.rg (RING_CLAIM k)).toNat → t.hub = s.hub) ∧
         ((s.hub.rg (RING_CLAIM k)).toNat < f.claim.toNat → t.hub.rstate k = 3 ∧ t.hub.on (RING_STAT_MASTER_LOST k) = true ∧
           t.hub.rg (RING_CLAIM k) = f.claim ∧ t.hub.rg (RING_CYCLE k) = f.cycle) ∧
         (f.claim = s.hub.rg (RING_CLAIM k) → t.hub.rstate k = 4 ∧ t.hub.on (RING_STAT_UNMANNED k) = true))) ∧
   (∀ (s : State) (k slot tm : Nat), k < 6 → k < s.hub.rings.length → s.hub.rst.held = false → s.hub.ringRuns k = true → s.hub.rstate k = 2 →
     (s.hub.ring k).tstart ≠ 0 → slot < s.hub.ratingNslot (s.hub.rating k) → (s.hub.ratingSlot (s.hub.rating k) slot).up = false →
     (s.hub.ring k).tstart + (s.hub.ratingSlot (s.hub.rating k) slot).ns ≤ tm → (∀ e ∈ (s.hub.ring k).sent, e.1 ≠ slot) →
     ∃ t p, exec (.downlinkSlot k slot tm) s = .next t ∧ s.OnlyHub t ∧ t.hub.reg = s.hub.reg ∧
       (t.hub.ring k).sent = (slot, p) :: (s.hub.ring k).sent ∧ p.length ≤ (s.hub.ratingSlot (s.hub.rating k) slot).len ∧
       ((s.hub.ring k).wrapE = false →
         (t.hub.ring k).outE = SlotMsg.bytes { up := false, ring := k, slot := slot, node := 0, cycle := s.hub.rg (RING_CYCLE k), nstat := 0, ackr := 0, payload := p })) ∧
   (∀ (s : State) (k : Nat) (east : Bool) (pos : Nat) (frame : List Byte) (tm : Nat), k < 6 → s.hub.rst.held = false → s.hub.ringRuns k = true →
     s.hub.rstate k = 2 → (s.hub.ring k).reads east = true → parseSlot frame = none →
     ∃ t, exec (.uplinkFrame k east pos frame tm) s = .next t ∧ s.hub.RegsKept t.hub [RING_ERR k] ∧ (∀ l, t.lane l = s.lane l) ∧
       t.hub.fget (RING_ERR_CRCERR k) = satInc 65535 (s.hub.fget (RING_ERR_CRCERR k)) ∧ ∀ n, t.hub.present k n = s.hub.present k n) ∧
   (∀ (s : State) (k : Nat) (east : Bool) (pos : Nat) (frame : List Byte) (m : SlotMsg) (tm : Nat), k < 6 → s.hub.rst.held = false →
     s.hub.ringRuns k = true → s.hub.rstate k = 2 → (s.hub.ring k).reads east = true → parseSlot frame = some m → m.ring = k → m.up = true →
     1 ≤ m.node → m.node ≤ 64 → m.slot < s.hub.ratingNslot (s.hub.rating k) →
     (s.hub.ratingSlot (s.hub.rating k) m.slot).holds m pos frame.length = true →
     ∃ t, exec (.uplinkFrame k east pos frame tm) s = .next t ∧ s.OnlyHub t ∧ t.hub.present k m.node = true ∧
       t.hub.rg (RING_ERR k) = s.hub.rg (RING_ERR k)) ∧
   (∀ (s : State) (k rt : Nat), k < s.hub.rings.length → s.hub.rst.held = false →
     ∃ t, exec (.delayMeasurement k true rt) s = .next t ∧ s.OnlyHub t ∧ t.hub.reg = s.hub.reg ∧ (t.hub.ring k).delayE = (rt - 64) / 2 ∧
       (t.hub.ring k).delayW = (s.hub.ring k).delayW) ∧
   (∀ (s : State) (k n c : Nat), k < 6 → s.hub.rst.held = false → s.hub.rstate k = 2 → 1 ≤ n → n ≤ 64 → s.hub.present k n = true →
     (n, c) ∈ (s.hub.ring k).lastSeen → 4 ≤ c →
     ∃ t, exec (.nodeAbsent k n) s = .next t ∧ s.OnlyHub t ∧ s.hub.RegsKept t.hub [RING_PRESLO k, RING_PRESHI k, REC_STAT] ∧
       t.hub.present k n = false ∧ ∀ j, 1 ≤ j → j ≤ 64 → j ≠ n → t.hub.present k j = s.hub.present k j))

/-- RATING_CHECK, RATING_CHECK_DONE, RING_CMD_ANNOUNCE, RING_CMD_CANCEL, RING_CMD_RESTART, ANNOUNCE_TARGET and RING_ERR_CLEAR (R293, R304, R306, R307,
R309): a rating is valid by the check or while in use; an announcement names a valid other rating and takes effect only when every present node has
acknowledged it. LOSS_OF_SIGNAL, REMOTE_FAULT, SIGNAL_RESTORED, RING_WRAP and UNWRAP_ANNOUNCE (R310 to R313): a lost port is marked and counted
once, wraps, and stays wrapped until an unwrap announced after 1,000 restored cycles. -/
def Obligations.RatingsAndWrapsChangeByAnnouncement : Prop :=
  ((∀ s : State, s.hub.rst.held = false →
     (∃ t, exec (.ratingCheck) s = .next t ∧ s.OnlyHub t ∧ s.hub.OnlyRegs t.hub [RING_GSTAT] ∧ t.hub.on RING_GSTAT_BUSY = true) ∧
     (s.hub.on RING_GSTAT_BUSY = true →
       ∃ t, exec (.ratingCheckDone) s = .next t ∧ s.OnlyHub t ∧ s.hub.OnlyRegs t.hub [RING_GSTAT] ∧ t.hub.on RING_GSTAT_BUSY = false ∧
         ∀ r, r < 8 → t.hub.ratingValid r = (s.hub.ratingOk r || (s.hub.ratingValid r && s.hub.ratingInUse r)))) ∧
   (∀ (s : State) (k rating : Nat), k < 6 → k < s.hub.rings.length → s.hub.rst.held = false → s.hub.rstate k = 2 →
     ∃ t, exec (.ringCmdAnnounce k rating) s = .next t ∧ s.OnlyHub t ∧
       s.hub.RegsKept t.hub [RING_STAT k, RING_ACKLO k, RING_ACKHI k] ∧ t.hub.rating k = s.hub.rating k ∧
       ((s.hub.ratingValid rating = false ∨ rating = s.hub.rating k) →
         t.hub.fget (RING_STAT_ABN k) = 1 ∧ t.hub.on (RING_STAT_CHG_ABN k) = true ∧ t.hub.rings = s.hub.rings) ∧
       (s.hub.ratingValid rating = true → rating ≠ s.hub.rating k → (s.hub.ring k).ann.isSome = true →
         t.hub.fget (RING_STAT_ABN k) = 2 ∧ t.hub.rings = s.hub.rings) ∧
       (s.hub.ratingValid rating = true → rating ≠ s.hub.rating k → (s.hub.ring k).ann = none →
         (t.hub.ring k).ann = some { rating := rating, target := (s.hub.rg (RING_CYCLE k) + 17).toNat, unwrap := false } ∧
         t.hub.on (RING_STAT_CHG_PEND k) = true)) ∧
   (∀ (s : State) (k : Nat) (a : RingAnn), k < 6 → k < s.hub.rings.length → s.hub.rst.held = false → (s.hub.ring k).ann = some a →
     (s.hub.ring k).unwrapWait = false →
     ∃ t, exec (.ringCmdCancel k) s = .next t ∧ s.OnlyHub t ∧ s.hub.RegsKept t.hub [RING_STAT k] ∧ (t.hub.ring k).ann = none ∧
       t.hub.fget (RING_STAT_ABN k) = 5 ∧ t.hub.on (RING_STAT_CHG_PEND k) = false ∧ t.hub.rating k = s.hub.rating k) ∧
   (∀ (s : State) (k tm : Nat), k < 6 → s.hub.rst.held = false →
     ∃ t, exec (.ringCmdRestart k tm) s = .next t ∧ s.OnlyHub t ∧ s.hub.RegsKept t.hub [RING_STAT k] ∧
       (s.hub.on (RING_STAT_UNMANNED k) = true → t.hub.on (RING_STAT_UNMANNED k) = false ∧
         t.hub.rstate k = if s.hub.fget (RING_CTRL_ROLE k) = 1 ∧ s.hub.mayMaster = true then 1 else 3) ∧
       (s.hub.on (RING_STAT_UNMANNED k) = false → t.hub = s.hub)) ∧
   (∀ (s : State) (k : Nat) (a : RingAnn), k < 6 → k < s.hub.rings.length → s.hub.rst.held = false → s.hub.rstate k = 2 →
     (s.hub.ring k).ann = some a → (s.hub.ring k).unwrapWait = false → (s.hub.ring k).next ≤ s.now → a.unwrap = false → a.rating < 8 →
     (s.hub.rg (RING_CYCLE k) + 1).toNat = a.target →
     ∃ t, exec (.announceTarget k) s = .next t ∧ s.OnlyHub t ∧ s.hub.RegsKept t.hub [RING_STAT k] ∧ (t.hub.ring k).ann = none ∧
       ((∀ n, 1 ≤ n → n ≤ 64 → s.hub.present k n = true → s.hub.acked k n = true) →
         t.hub.rating k = a.rating ∧ t.hub.on (RING_STAT_CHG_DONE k) = true) ∧
       ((∃ n, 1 ≤ n ∧ n ≤ 64 ∧ s.hub.present k n = true ∧ s.hub.acked k n = false) →
         t.hub.rating k = s.hub.rating k ∧ t.hub.fget (RING_STAT_ABN k) = 3)) ∧
   (∀ (s : State) (k : Nat) (v : Word), k < 6 → s.hub.rst.held = false →
     ∃ t, exec (.ringErrClear k v) s = .next t ∧ s.OnlyHub t ∧ s.hub.OnlyRegs t.hub [RING_ERR k] ∧ t.hub.rg (RING_ERR k) = 0)) ∧
  ((∀ (s : State) (k : Nat) (east : Bool), k < 6 → s.hub.rst.held = false → s.hub.on (losOf k east) = false → (s.hub.ring k).ann = none →
     ∃ t, exec (.lossOfSignal k east) s = .next t ∧ s.OnlyHub t ∧
       s.hub.OnlyRegs t.hub [RING_STAT k, RING_ERR k] ∧ t.hub.on (losOf k east) = true ∧
       t.hub.fget (RING_ERR_LOSCNT k) = satInc 255 (s.hub.fget (RING_ERR_LOSCNT k))) ∧
   (∀ (s : State) (k : Nat) (east : Bool), k < 6 → s.hub.rst.held = false → s.hub.on (losOf k east) = false → (s.hub.ring k).ann = none →
     ∃ t, exec (.remoteFault k east) s = .next t ∧ s.OnlyHub t ∧
       s.hub.OnlyRegs t.hub [RING_STAT k, RING_ERR k] ∧ t.hub.on (losOf k east) = true ∧
       t.hub.fget (RING_ERR_LOSCNT k) = satInc 255 (s.hub.fget (RING_ERR_LOSCNT k))) ∧
   (∀ (s : State) (k : Nat) (east : Bool), k < 6 → s.hub.rst.held = false →
     ∃ t, exec (.signalRestored k east) s = .next t ∧ s.OnlyHub t ∧ s.hub.OnlyRegs t.hub [RING_STAT k] ∧ t.hub.on (losOf k east) = false ∧
       t.hub.on (RING_STAT_WRAP k) = s.hub.on (RING_STAT_WRAP k)) ∧
   (∀ (s : State) (k : Nat), k < 6 → k < s.hub.rings.length → s.hub.rst.held = false → s.hub.on (RING_STAT_LOSE k) = true →
     (s.hub.ring k).wrapE = false →
     ∃ t, exec (.ringWrap k true) s = .next t ∧ s.OnlyHub t ∧ t.hub.on (RING_STAT_WRAP k) = true ∧ (t.hub.ring k).wrapE = true ∧
       (t.hub.ring k).wrapW = (s.hub.ring k).wrapW) ∧
   (∀ (s : State) (k : Nat), k < 6 → k < s.hub.rings.length → s.hub.rst.held = false → s.hub.rstate k = 2 →
     s.hub.on (RING_STAT_WRAP k) = true → s.hub.on (RING_CTRL_HOLDWRAP k) = false → 1000 ≤ (s.hub.ring k).restored → (s.hub.ring k).ann = none →
     ∃ t, exec (.unwrapAnnounce k) s = .next t ∧ s.OnlyHub t ∧ s.hub.RegsKept t.hub [RING_STAT k, RING_ACKLO k, RING_ACKHI k] ∧
       t.hub.on (RING_STAT_WRAP k) = true ∧
       (t.hub.ring k).ann = some { rating := s.hub.rating k, target := (s.hub.rg (RING_CYCLE k) + 17).toNat, unwrap := true }))

/-- A telegram that passes every receive check (R336, R337) carries the safety CRC, two matching lane codes, the tag where one is required and the right
direction; a DATA telegram besides stands within its sequence window and its age. -/
def Obligations.AcceptedTelegramsPassEveryCheck : Prop :=
  ∀ (l : Lane) (k : Nat) (g : Tlg) (now : Nat), l.checkSteps k g now = .ok →
    g.dirr = (l.desc k).init ∧ g.scrc = g.safetyCrc (l.key k).safety ∧ 2 ≤ g.matching (l.key k) ∧
    (g.auth = true → g.tagOk (l.key k) = true) ∧ ((l.desc k).auth = true → g.auth = true) ∧
    (g.comm = true → (l.desc k).commOk = true) ∧
    (g.type = 1 → (l.conn k).isOpen = true ∧ g.tstamp ≤ now + 50000 ∧ now ≤ g.tstamp + (l.desc k).maxage * 1000000 ∧
      (newBaseline (l.desc k) (l.conn k) g = false →
        (l.conn k).rxT < g.tstamp ∧ 1 ≤ seqDist (l.conn k) g ∧ seqDist (l.conn k) g ≤ (l.desc k).seqwin))

/-- SUPERVISION_TIMEOUT, CORRUPTION_CLOSE, CORRUPTION_DECAY, HOLDOFF_EXPIRY, RESPONDED_TIMEOUT and SIGN_ENGINE_CHECK (R325, R330, R333, R337, R338):
each changes its connection alone, at a catch of the connection's context, as its condition says; the engine's verdict changes nothing.
TELEGRAM_ASSEMBLY and ETHERNET_FRAME (R175, R329): copies 50 µs past their finish leave the mailboxes, and the telegram their largest group makes
becomes the connection's latest; a frame of the EST EtherType reaches the mailboxes under the connection its `CONNID` names, and a lane in sit ready
or in easy all discards it (R44, R179). -/
def Obligations.ConnectionsCloseByTimersAndTheHubOnlyCarries : Prop :=
  ((∀ (s : State) (l : LaneId) (k tn : Nat) (r : TaskRun), (s.lane l).rst.held = false → (s.lane l).catchOf k tn true = some r →
     (((s.lane l).conn k).isOpen = true → ((s.lane l).conn k).rxT + ((s.lane l).desc k).tmo * 1000000 < tn →
       ∃ t, exec (.supervisionTimeout l k tn) s = .next t ∧ s.OnlyLane t l ∧ (t.lane l).reg = (s.lane l).reg ∧
         ((t.lane l).conn k).closeDue = some 2 ∧ ((t.lane l).conn k).payload = none ∧
         ∀ j, j ≠ k → (t.lane l).conn j = (s.lane l).conn j) ∧
     (1 ≤ ((s.lane l).desc k).cthr → ((s.lane l).desc k).cthr ≤ ((s.lane l).conn k).corr → ((s.lane l).conn k).st ≠ .closed →
       ∃ t, exec (.corruptionClose l k tn) s = .next t ∧ s.OnlyLane t l ∧ (t.lane l).reg = (s.lane l).reg ∧
         ((t.lane l).conn k).closeDue = some 1 ∧ ((t.lane l).conn k).corr = 0 ∧ ∀ j, j ≠ k → (t.lane l).conn j = (s.lane l).conn j) ∧
     (secondBetween r.prevTn tn = true → ((s.lane l).conn k).decayT ≠ tn → ((s.lane l).conn k).corr < ((s.lane l).desc k).cthr →
       ∃ t, exec (.corruptionDecay l k tn) s = .next t ∧ s.OnlyLane t l ∧ (t.lane l).reg = (s.lane l).reg ∧
         (t.lane l).conn k = { (s.lane l).conn k with corr := ((s.lane l).conn k).corr - 1, decayT := tn } ∧
         ∀ j, j ≠ k → (t.lane l).conn j = (s.lane l).conn j) ∧
     (secondBetween r.prevTn tn = false →
       ∃ t, exec (.corruptionDecay l k tn) s = .next t ∧ ∀ j, (t.lane l).conn j = (s.lane l).conn j) ∧
     (((s.lane l).conn k).st = .responded → ((s.lane l).conn k).respT ≠ 0 →
       ((s.lane l).conn k).respT + ((s.lane l).desc k).tmo * 1000000 < tn →
       ∃ t, exec (.respondedTimeout l k tn) s = .next t ∧ s.OnlyLane t l ∧ ((t.lane l).conn k).st = .closed ∧
         ((t.lane l).conn k).closeDue = none ∧ ∀ j, j ≠ k → (t.lane l).conn j = (s.lane l).conn j)) ∧
   (∀ (s : State) (l : LaneId) (k tn : Nat), (s.lane l).rst.held = false → ((s.lane l).catchOf k tn false).isSome = true →
     (s.lane l).easy = false → (s.lane l).running = true → ((s.lane l).conn k).st = .closed → ((s.lane l).desc k).connid ≠ 0 →
     ((s.lane l).conn k).closedT + ((s.lane l).desc k).holdoff * 1000000 ≤ tn →
     ∃ t, exec (.holdoffExpiry l k tn) s = .next t ∧ s.OnlyLane t l ∧ ((t.lane l).conn k).holdDone = true ∧
       ((t.lane l).conn k).st = (if ((s.lane l).desc k).init = true then .requested else .closed) ∧
       ∀ j, j ≠ k → (t.lane l).conn j = (s.lane l).conn j) ∧
   (∀ (s : State) (l : LaneId) (k : Nat) (bs : List Byte) (g : Tlg), (s.lane l).rst.held = false → parseTlg bs = some g →
     ∃ codes : BitVec 3, exec (.signEngineCheck l k bs) s = .next { s with bus := .verdict (g.scrc == g.safetyCrc ((s.lane l).key k).safety) (g.tagOk ((s.lane l).key k)) codes } ∧
       (codes.getLsbD 0 = true ↔ g.codeA = g.laneCode ((s.lane l).key k).rxA) ∧
       (codes.getLsbD 1 = true ↔ g.codeB = g.laneCode ((s.lane l).key k).rxB) ∧
       (codes.getLsbD 2 = true ↔ g.codeC = g.laneCode ((s.lane l).key k).rxC))) ∧
  ((∀ (s : State) (tm : Nat), s.hub.rst.held = false → s.hub.carries = true →
     ∃ t, exec (.telegramAssembly tm) s = .next t ∧ s.OnlyHub t ∧
       (∀ l, (t.hub.mbx l).outTlg = (s.hub.mbx l).outTlg.filter (fun o => decide (tm < o.t + 50000)) ∧
         (t.hub.mbx l).mem = (s.hub.mbx l).mem) ∧
       ∀ (c x : Nat) (g : Tlg), s.hub.dueCopies tm = [(c, x)] → assembleGroup (largestGroup (s.hub.copies c x)) = some g →
         (sparseGet (fun _ => AsmTlg.none) t.hub.asm c).bytes = g.bytes ∧ (sparseGet (fun _ => AsmTlg.none) t.hub.asm c).from_ = x + 60000) ∧
   (∀ (s : State) (p k tm : Nat) (bs g : List Byte), s.hub.rst.held = false → s.hub.carries = true → s.hub.blockOff (0x30 + p) = false →
     s.hub.isStandby = false → ethernetTlg s.hub.set.estEtype bs = some g → s.hub.connOf 3 (tlgConnid g) = some k →
     ∃ t, exec (.ethernetFrame p bs tm) s = .next t ∧ s.OnlyHub t ∧
       ∀ l, (((s.lane l).sitReady = false ∧ (s.lane l).easy = false) → (t.hub.mbx l).inTlg = (s.hub.mbx l).inTlg ++ [{ conn := k, bytes := g, t := tm }]) ∧
         (((s.lane l).sitReady = true ∨ (s.lane l).easy = true) → (t.hub.mbx l).inTlg = [])))

/-- PAIR_START_TIMEOUT, HEARTBEAT_SEND, HEARTBEAT, HEARTBEAT_LOSS, YIELD, TAKEOVER, HUB_EASY_ALL_NOTICE and PTNR_CNT_CLEAR (R178, R342 to R344, R351 to
R354, R363): a lone starter becomes active with a claim one above its stored one; a starter that hears an active becomes its standby, which
resynchronises or refuses; a READY standby that hears nothing for three windows, or a yield, decides and takes over with a claim one above the
active's. FWD_LIST, FWD_TLG, PARTNER_EST and PAGE (R341, R342, R346, R347, R364): a standby holds the active's admitted list and telegrams of the
stroke; peer-module telegrams are delivered in a standby too; pages of a correct CRC count towards the pass of 1,152, and a second bad copy of one
restarts it; a frame whose link CRC fails, and a second copy, changes nothing but the link's state. FWD_IMG, FWD_ACK and FWD_ACK_SEND (R458). -/
def Obligations.OneModuleOfAPairActsAndStandbysFollow : Prop :=
  ((∀ (s : State) (tm : Nat), s.hub.partners = true → s.hub.role = 1 → s.hub.ptnr.startT + 2 * s.hub.set.period * 1000000 ≤ tm →
     s.hub.ptnr.peerRole = 0 → s.hub.upd.claim.toNat + 1 < 2 ^ 32 →
     ∃ t, exec (.pairStartTimeout tm) s = .next t ∧ t.field = s.field ∧ t.flash0 = s.flash0 ∧
       s.hub.RegsKept t.hub [PTNR_STAT, PTNR_CLAIM, REC_STAT] ∧
       t.hub.role = 2 ∧ t.hub.rg PTNR_CLAIM = s.hub.upd.claim + 1 ∧
       (s.hub.on NVW_STAT_PF = false → t.hub.upd.claim = s.hub.upd.claim + 1) ∧
       ∀ l, ((s.lane l).rst.held = false → (t.lane l).claim = s.hub.upd.claim + 1 ∧ (t.lane l).standby = false) ∧
         ((s.lane l).rst.held = true → t.lane l = s.lane l)) ∧
   (∀ (s : State) (tm : Nat), s.hub.partners = true → s.hub.xtRuns = true → tm % 1000000 = 0 →
     ∃ t m, exec (.heartbeatSend tm) s = .next t ∧ s.OnlyHub t ∧ t.hub.reg = s.hub.reg ∧
       t.hub.ptnr.hbOut = partnerFrame 0x21 (s.hub.ptnr.txSeq + 1) (HeartbeatMsg.bytes m) ∧ t.hub.ptnr.txSeq = s.hub.ptnr.txSeq + 1 ∧
       m.tb = tm ∧ m.serial = s.hub.set.serial ∧ m.ready = BitVec.ofNat 8 (b2n (s.hub.on PTNR_STAT_READY)) ∧
       (s.hub.role = 2 → m.role = 1 ∧ m.claim = s.hub.rg PTNR_CLAIM) ∧ (s.hub.role = 1 → m.role = 3)) ∧
   (∀ (s : State) (link : Nat) (frame c : List Byte) (q : Word) (m : HeartbeatMsg) (vals : PairValues) (ver tm : Nat), link < 2 →
     s.hub.partners = true → partnerContent 0x21 frame = some (q, c) → heartbeatOf c = some m → (0x21, q) ∉ s.hub.ptnr.seen →
     ∃ t, exec (.heartbeat link frame vals ver tm) s = .next t ∧ t.field = s.field ∧ t.hub.on (upOf link) = true ∧ t.hub.ptnr.lastHb = tm ∧
       t.hub.on PTNR_STAT_PEER_READY = (m.ready == 1) ∧ t.hub.ptnr.peerClaim = m.claim ∧
       (m.role ≠ 1 → t.hub.role = s.hub.role ∧ ∀ l, t.lane l = s.lane l) ∧
       (m.role = 1 → s.hub.role = 1 → s.anyEasy = false →
         t.hub.on PTNR_STAT_READY = false ∧ t.hub.rg PTNR_CLAIM = m.claim ∧
         (t.resyncOk = true → t.hub.role = 4) ∧ (t.resyncOk = false → t.hub.role = 3) ∧
         ∀ l, (s.lane l).rst.held = false → (t.lane l).standby = true)) ∧
   (∀ (s : State) (tm : Nat), s.hub.partners = true → 3 ≤ s.hub.ptnr.missed tm → s.hub.role = 3 → s.hub.on PTNR_STAT_READY = true →
     s.hub.ptnr.decided = none →
     ∃ t, exec (.heartbeatLoss tm) s = .next t ∧ s.OnlyHub t ∧ s.hub.RegsKept t.hub [PTNR_STAT, PTNR_CNT] ∧
       t.hub.on PTNR_STAT_UP0 = false ∧ t.hub.on PTNR_STAT_UP1 = false ∧ t.hub.ptnr.decided = some tm ∧ t.hub.role = 3) ∧
   (∀ (s : State) (link : Nat) (frame c : List Byte) (q : Word) (tm : Nat), link < 2 → s.hub.partners = true →
     partnerContent 0x22 frame = some (q, c) → c.length = 9 → (0x22, q) ∉ s.hub.ptnr.seen →
     s.hub.role = 3 → s.hub.on PTNR_STAT_READY = true → s.hub.ptnr.decided = none →
     ∃ t, exec (.yieldFrame link frame tm) s = .next t ∧ (∀ l, t.lane l = s.lane l) ∧ t.hub.ptnr.decided = some tm ∧
       t.hub.ptnr.peerClaim = BitVec.ofNat 32 (beAt c 1 4) ∧ t.hub.role = 3) ∧
   (∀ (s : State) (from_ tm : Nat), s.hub.partners = true → s.hub.ptnr.decided = some from_ → s.hub.role = 3 →
     s.hub.on PTNR_STAT_READY = true → from_ + 1000000 ≤ tm → tm % (s.hub.set.period * 1000000) = 0 → s.hub.ptnr.peerClaim ≠ 0xFFFFFFFF →
     ∃ t, exec (.takeover tm) s = .next t ∧ t.field = s.field ∧ t.hub.role = 2 ∧ t.hub.rg PTNR_CLAIM = s.hub.ptnr.peerClaim + 1 ∧
       t.hub.ptnr.decided = none ∧ t.hub.ptnr.held = [] ∧
       ∀ l, (s.lane l).rst.held = false → (t.lane l).claim = s.hub.ptnr.peerClaim + 1 ∧ (t.lane l).standby = false) ∧
   (∀ (s : State) (src : LaneId) (tm : Nat), s.hub.up = true →
     ∃ t, exec (.hubEasyAllNotice src tm) s = .next t ∧ (∀ l, t.lane l = s.lane l) ∧ t.aon.faultN = true ∧ t.hub.on HCMD_STAT_FAULT = true ∧
       (s.hub.partners = true → s.hub.role = 2 → t.hub.role = 3 ∧ t.hub.on PTNR_STAT_READY = false ∧
         (s.hub.xtRuns = true →
           t.hub.ptnr.yieldOut = partnerFrame 0x22 (s.hub.ptnr.txSeq + 1) (yieldBytes 1 (s.hub.rg PTNR_CLAIM) (s.lane src).stroke))) ∧
       (s.hub.role ≠ 2 → t.hub.role = s.hub.role)) ∧
   (∀ (s : State) (v : Word), s.hub.rst.held = false →
     ∃ t, exec (.ptnrCntClear v) s = .next t ∧ s.OnlyHub t ∧ s.hub.OnlyRegs t.hub [PTNR_CNT] ∧ t.hub.rg PTNR_CNT = 0)) ∧
  ((∀ (s : State) (link : Nat) (frame c : List Byte) (q stroke : Word) (tn tm : Nat) (es : List ConsEntry), link < 2 → s.hub.partners = true →
     partnerContent 0x23 frame = some (q, c) → fwdListOf c = some (stroke, tn, es) → (0x23, q) ∉ s.hub.ptnr.seen → s.hub.role = 3 →
     ∃ t, exec (.fwdList link frame tm) s = .next t ∧ t.field = s.field ∧ t.hub.ptnr.fwdList = some es ∧ t.hub.ptnr.fwdTn = tn ∧
       t.hub.ptnr.fwdStroke = stroke ∧ t.hub.role = 3) ∧
   (∀ (s : State) (link : Nat) (frame c : List Byte) (q : Word) (tm : Nat), link < 2 → s.hub.partners = true →
     partnerContent 0x24 frame = some (q, c) → 6 ≤ c.length → (0x24, q) ∉ s.hub.ptnr.seen → s.hub.role = 3 →
     ∃ t, exec (.fwdTlg link frame tm) s = .next t ∧ t.field = s.field ∧ (beAt c 4 2, c.drop 6) ∈ t.hub.ptnr.fwdTlgs ∧
       t.hub.ptnr.fwdStroke = BitVec.ofNat 32 (beAt c 0 4)) ∧
   (∀ (s : State) (link : Nat) (frame bs : List Byte) (q : Word) (k tm : Nat), link < 2 → s.hub.partners = true →
     partnerContent 0x25 frame = some (q, bs) → (0x25, q) ∉ s.hub.ptnr.seen → s.hub.carries = true →
     s.hub.connOf 2 (tlgConnid bs) = some k → (s.hub.desc k).cls = 4 →
     ∃ t, exec (.partnerEst link frame tm) s = .next t ∧ s.OnlyHub t ∧
       ∀ l, (((s.lane l).sitReady = false ∧ (s.lane l).easy = false) → (t.hub.mbx l).inTlg = (s.hub.mbx l).inTlg ++ [{ conn := k, bytes := bs, t := tm }]) ∧
         (((s.lane l).sitReady = true ∨ (s.lane l).easy = true) → (t.hub.mbx l).inTlg = [])) ∧
   (∀ (s : State) (link : Nat) (frame c : List Byte) (q : Word), link < 2 → s.hub.partners = true →
     partnerContent 0x26 frame = some (q, c) → (0x26, q) ∉ s.hub.ptnr.seen → s.hub.role = 4 → s.hub.on PTNR_STAT_READY = false →
     beAt c 0 2 < 1152 → c.length = 4102 →
     ∃ t, exec (.page link frame) s = .next t ∧ t.field = s.field ∧
       (beAt c 4098 4 = crc32c ((c.drop 2).take 4096) → beAt c 0 2 ∈ t.hub.ptnr.got ∧ beAt c 0 2 ∉ t.hub.ptnr.retry ∧
         (beAt c 0 2 ∉ s.hub.ptnr.got → s.hub.ptnr.got.length = 1151 → t.hub.role = 3)) ∧
       (beAt c 4098 4 ≠ crc32c ((c.drop 2).take 4096) → beAt c 0 2 ∉ s.hub.ptnr.retry →
         beAt c 0 2 ∈ t.hub.ptnr.retry ∧ t.hub.ptnr.got = s.hub.ptnr.got ∧ ∀ l, t.lane l = s.lane l) ∧
       (beAt c 4098 4 ≠ crc32c ((c.drop 2).take 4096) → beAt c 0 2 ∈ s.hub.ptnr.retry → s.resyncOk = true →
         t.hub.ptnr.got = [] ∧ t.hub.role = 4 ∧ ∀ l, t.lane l = s.lane l)) ∧
   (∀ (s : State) (frame : List Byte), lcrcOk frame = false →
     (∃ t, exec (.page 0 frame) s = .next t ∧ t = s) ∧ (∃ t, exec (.fwdImg 0 frame) s = .next t ∧ t = s) ∧
     (∃ t, exec (.fwdAck 0 frame) s = .next t ∧ t = s)) ∧
   (∀ (s : State) (link : Nat) (frame c : List Byte) (q : Word) (k : Nat), s.hub.up = true → s.linkOpen link = true →
     partnerContent 0x27 frame = some (q, c) → (0x27, q) ∉ s.hub.ptnr.seen → s.hub.ptnr.fwdDest = some k →
     s.hub.ptnr.fwdBuild = BitVec.ofNat 64 (beAt c 0 8) → s.hub.ptnr.fwdAckStatus ≠ 2 → beAt c 9 2 < 512 → (c.drop 11).length = 65536 →
     ∃ t, exec (.fwdImg link frame) s = .next t ∧ (∀ l, t.lane l = s.lane l) ∧ t.flash1 = s.flash1 ∧ beAt c 9 2 ∈ t.hub.ptnr.fwdGot) ∧
   (∀ (s : State) (link : Nat) (frame c : List Byte) (q : Word), s.hub.up = true → s.linkOpen link = true →
     partnerContent 0x28 frame = some (q, c) → (0x28, q) ∉ s.hub.ptnr.seen → c.length = 73 → beAt c 8 1 = 1 → s.hub.ptnr.fwdOut = some link →
     s.slotBuild s.hub.ptnr.fwdSrc = beAt c 0 8 →
     ∃ t, exec (.fwdAck link frame) s = .next t ∧ s.OnlyHub t ∧ t.hub.ptnr.fwdOut = none ∧ t.hub.ptnr.fwdSent = []) ∧
   (∀ (s : State) (k tm : Nat), s.hub.up = true → s.linkOpen 0 = true → s.hub.xtRuns = true → s.hub.ptnr.fwdDest = some k →
     ∃ t, exec (.fwdAckSend tm) s = .next t ∧ s.OnlyHub t ∧ t.hub.reg = s.hub.reg ∧
       t.hub.ptnr.ackOut = partnerFrame 0x28 (s.hub.ptnr.txSeq + 1)
         (ackContent s.hub.ptnr.fwdBuild (if s.hub.upd.verified.contains k then 1 else 0) (bitmapBytes (s.validBlocks k)))))

/-- SQ_DOORBELL and CQ_HEAD_WRITE (R374, R377, R384): a doorbell on a free slot becomes a new command; a full queue, a slot in use and a head past the
last entry are refused with their error bits; a retry binds its new tag; a head write releases the entries it passes. COMMAND_DISPATCH,
COMMAND_COMPLETION and HUB_RETRY_EXHAUSTED (R372, R374, R379, R380, R385): the queues are served in turn; a command behind a failed one of its class
is aborted, a malformed one ends with its own status; a completion is written where and as the queue stands; at most 64 commands are active. -/
def Obligations.HostCommandsQueueStartAndComplete : Prop :=
  ((∀ (s : State) (q slot tm : Nat), s.hub.ready = true → q < 4 → slot < 256 →
     (s.hub.cmdAt q slot = none → ((s.hub.headerAt q slot).opcode = 0x0A01#16 ∨ s.hub.inFlight q < 256) →
       ∃ t, exec (.sqDoorbell q slot tm) s = .next t ∧ s.OnlyHub t ∧
         s.hub.RegsKept t.hub [HCMD_QCNT 0, HCMD_QCNT 1, HCMD_QCNT 2, HCMD_QCNT 3] ∧ t.hub.host.irq = s.hub.host.irq ∧
         newCmd q slot (s.hub.headerAt q slot) (s.hub.slotTarget q slot) (s.hub.host.nextOrd + 1) tm ∈ t.hub.host.cmds ∧ ∀ c ∈ s.hub.host.cmds, c ∈ t.hub.host.cmds) ∧
     (s.hub.cmdAt q slot = none → (s.hub.headerAt q slot).opcode ≠ 0x0A01#16 → 256 ≤ s.hub.inFlight q →
       ∃ t, exec (.sqDoorbell q slot tm) s = .next t ∧ s.OnlyHub t ∧ s.hub.RegsKept t.hub [HCMD_STAT] ∧
         t.hub.host.cmds = s.hub.host.cmds ∧ t.hub.fget HCMD_STAT_QFULL = s.hub.fget HCMD_STAT_QFULL ||| 2 ^ q) ∧
     (∀ c, s.hub.cmdAt q slot = some c → (s.hub.headerAt q slot).flags.getLsbD 1 = false → c.released = false →
       ∃ t, exec (.sqDoorbell q slot tm) s = .next t ∧ s.OnlyHub t ∧ s.hub.RegsKept t.hub [HCMD_STAT] ∧
         t.hub.host.cmds = s.hub.host.cmds ∧ t.hub.on HCMD_STAT_DB_ERR = true) ∧
     (∀ c, s.hub.cmdAt q slot = some c → (s.hub.headerAt q slot).flags.getLsbD 1 = true → c.posted = none → c.retried = false →
       bvField (s.hub.headerAt q slot).tag 0 6 = (c.gen + 1) % 64 →
       ∃ t, exec (.sqDoorbell q slot tm) s = .next t ∧ s.OnlyHub t ∧ s.hub.OnlyCmds t.hub ∧
         { c with gen := (c.gen + 1) % 64, tag := tagOf q slot ((c.gen + 1) % 64), retried := true } ∈ t.hub.host.cmds)) ∧
   (∀ (s : State) (q : Nat) (v : Word), q < 4 → s.hub.rst.held = false →
     (let head := s.hub.fget (HCMD_CQHD_HEAD q)
      let dist (x : Nat) : Nat := (x + 512 - head) % 512
      let w := s.hub.host.cqW.getD q 0
      let n := v.toNat % 512
      ∃ t, exec (.cqHeadWrite q v) s = .next t ∧ s.OnlyHub t ∧
        (dist w < dist n → t.hub.on HCMD_STAT_DB_ERR = true ∧ t.hub.host.cmds = s.hub.host.cmds ∧ s.hub.RegsKept t.hub [HCMD_STAT]) ∧
        (dist n ≤ dist w → t.hub.fget (HCMD_CQHD_HEAD q) = n ∧ (∀ c ∈ s.hub.host.cmds, c.q ≠ q → c ∈ t.hub.host.cmds) ∧
          ∀ c ∈ s.hub.host.cmds, ∀ i, c.q = q → c.posted = some i →
            (if dist i < dist n then { c with released := true } else c) ∈ t.hub.host.cmds)))) ∧
  ((∀ (s : State) (tm : Nat), (s.hub.ready = false ∨ 64 ≤ s.hub.actives) →
     ∃ t, exec (.commandDispatch tm) s = .next t ∧ t.hub = s.hub) ∧
   (∀ (s : State) (tm i : Nat) (c : HostCmd), s.hub.ready = true → s.hub.actives < 64 → i < 4 →
     (∀ j, j < i → s.hub.oldest ((s.hub.host.lastQ + 1 + j) % 4) = none) → s.hub.oldest ((s.hub.host.lastQ + 1 + i) % 4) = some c →
     ∃ t, exec (.commandDispatch tm) s = .next t ∧ s.OnlyHub t ∧ t.hub.host.lastQ = c.q ∧
       s.hub.RegsKept t.hub [HCMD_QCNT 0, HCMD_QCNT 1, HCMD_QCNT 2, HCMD_QCNT 3] ∧
       (s.hub.poisoned c.q c.target = true → c.op ≠ 0x0103 → t.hub.Ended c 5 0 0 []) ∧
       ((s.hub.poisoned c.q c.target = false ∨ c.op = 0x0103) →
         (c.headerBad = true → t.hub.Ended c 2 0 0 []) ∧
         (c.headerBad = false → c.rangeBad = true → t.hub.Ended c 4 0 0 []) ∧
         (c.headerBad = false → c.rangeBad = false → c.op ∉ opcodes → t.hub.Ended c 1 0 0 []) ∧
         (c.headerBad = false → c.rangeBad = false → c.op ∈ opcodes → { c with active := true, tDisp := tm } ∈ t.hub.host.cmds))) ∧
   (∀ (s : State) (r : CmdRef) (c : HostCmd), s.hub.ready = true → s.hub.openCmd r.q r.slot = none →
     s.hub.host.cmds.find? (fun x => x.q == r.q && x.slot == r.slot && x.status.isSome && x.posted.isNone) = some c → c.ghost = false → c.q < 4 →
     (let w := s.hub.host.cqW.getD c.q 0
      ((w + 1) % 512 = s.hub.fget (HCMD_CQHD_HEAD c.q) → exec (.commandCompletion r) s = .next s) ∧
      ((w + 1) % 512 ≠ s.hub.fget (HCMD_CQHD_HEAD c.q) →
        ∃ t, exec (.commandCompletion r) s = .next t ∧ s.OnlyHub t ∧
          memBytes t.hub.sram (cqAddr c.q w) 16 = c.entry (s.hub.host.phase.getD c.q true) ∧
          { c with posted := some w, released := false, active := false } ∈ t.hub.host.cmds ∧
          (c.noIrq = false → t.hub.host.irq.getLsbD c.q = true) ∧
          (failsStream (c.status.getD 0).toNat = true → c.dedup = false → 1 ≤ c.target → c.target ≤ 11 →
            t.hub.poisoned c.q c.target = true)))) ∧
   (∀ (s : State) (r : CmdRef) (c : HostCmd) (tm : Nat), s.hub.openCmd r.q r.slot = some c →
     ∃ t, exec (.hubRetryExhausted r tm) s = .next t ∧
       (c.tDisp + s.hub.budgetOf c ≤ tm → s.Ends t c 0xA 0 0 []) ∧ (tm < c.tDisp + s.hub.budgetOf c → t.hub = s.hub)))

/-- IDENTIFY, STATUS, LANE_STATUS, STATION_INFO, CONN_STATUS, PRG_STATUS, REC_READ, REC_HEAD, UPD_STATUS, SETTINGS_READ, RING_STATUS, PAIR_STATUS,
FIELD_SNAPSHOT and BIST_RESULTS (R383): each answers what it asks for and changes nothing else; an index outside its range is BAD_PARAM, a lane in
reset NOT_READY. The layout of the results is the model's choice (Assumption 23). -/
def Obligations.QueriesAnswerAndChangeNothing : Prop :=
  ∀ (s : State) (r : CmdRef) (c : HostCmd),
    (s.activeCmd r 0x0101 = some c → ∃ t, exec (.identify r) s = .next t ∧ s.Ends t c 0 0 s.hub.set.serial s.identity) ∧
    (s.activeCmd r 0x0102 = some c → ∃ t, exec (.status r) s = .next t ∧ s.Ends t c 0 0 s.statusWord []) ∧
    (s.activeCmd r 0x0202 = some c → ∀ l, ∃ t, exec (.laneStatus r l) s = .next t ∧
      ((s.lane l).rst.held = true → s.Ends t c 8 0 0 []) ∧
      ((s.lane l).rst.held = false → s.Ends t c 0 0 (twoWords ((s.lane l).rg VOTE_STAT) ((s.lane l).rg VOTE_LEAVE)) [])) ∧
    (s.activeCmd r 0x0305 = some c → ∃ t, exec (.stationInfo r) s = .next t ∧
      s.Ends t c 0 0 (twoWords (s.heard 0 (·.rg RLE_DIGEST)) (BitVec.ofNat 32 s.pointer.active)) []) ∧
    (s.activeCmd r 0x0404 = some c → ∀ conn, ∃ t, exec (.connStatus r conn) s = .next t ∧
      ((s.hub.desc conn).connid = 0 → s.Ends t c 3 0 0 []) ∧
      ((s.hub.desc conn).connid ≠ 0 →
        (let x := s.heard Conn.init (·.conn conn)
         s.Ends t c 0 0 (BitVec.ofNat 64 (x.st.code + 256 * x.corr)) ([x.lost, x.late, x.proto, x.refused, x.superseded].flatMap (beBytes 4))))) ∧
    (s.activeCmd r 0x050A = some c → ∃ t, exec (.prgStatus r) s = .next t ∧
      s.Ends t c 0 0 ((s.heard none (fun l : Lane => l.prog.prog.map (·.prgid))).getD 0) [BitVec.ofNat 8 (s.heard 0 (·.prog.mode.code))]) ∧
    (s.activeCmd r 0x0601 = some c → ∀ (first : Word) (n : Nat), ∃ t, exec (.recRead r first n) s = .next t ∧
      ((n = 0 ∨ 32768 < n) → s.Ends t c 3 0 0 []) ∧
      (1 ≤ n → n ≤ 32768 → s.Ends t c 0 (b2n (s.recRange first.toNat n).2) (BitVec.ofNat 64 ((s.recRange first.toNat n).1.length / 32))
        (s.recRange first.toNat n).1)) ∧
    (s.activeCmd r 0x0602 = some c → ∃ t, exec (.recHead r) s = .next t ∧ s.Ends t c 0 0 (twoWords (s.hub.rg REC_HEAD) 0) []) ∧
    (s.activeCmd r 0x0706 = some c → ∀ k, ∃ t, exec (.updStatus r k) s = .next t ∧
      (2 ≤ k → s.Ends t c 3 0 0 []) ∧ (k < 2 → s.Ends t c 0 0 0 (bitmapBytes (s.validBlocks k)))) ∧
    (s.activeCmd r 0x0301 = some c → ∀ sect off, ∃ t, exec (.settingsRead r sect off) s = .next t ∧
      (s.hub.upd.setLen ≤ sect + off → s.Ends t c 3 0 0 []) ∧
      (sect + off < s.hub.upd.setLen →
        s.Ends t c 0 0 0 ((s.areaBytes s.hub.upd.setArea s.hub.upd.setLen).drop (sect + off)))) ∧
    (s.activeCmd r 0x0804 = some c → ∀ k, ∃ t, exec (.ringStatus r k) s = .next t ∧
      (6 ≤ k → s.Ends t c 3 0 0 []) ∧
      (k < 6 → s.Ends t c 0 0 (twoWords (s.hub.rg (RING_STAT k)) (s.hub.rg (RING_CLAIM k)))
        ([RING_PRESLO k, RING_PRESHI k, RING_ACKLO k, RING_ACKHI k, RING_BRK k].flatMap fun a => leBytes 4 (s.hub.rg a).toNat))) ∧
    (s.activeCmd r 0x0806 = some c → ∃ t, exec (.pairStatus r) s = .next t ∧ s.Ends t c 0 0 (twoWords (s.hub.rg PTNR_STAT) (s.hub.rg PTNR_CLAIM)) []) ∧
    (s.activeCmd r 0x0902 = some c → ∃ t, exec (.fieldSnapshot r) s = .next t ∧ s.Ends t c 0 0 0 s.snapshot) ∧
    (s.activeCmd r 0x0B01 = some c → ∃ t, exec (.bistResults r) s = .next t ∧
      s.Ends t c 0 0 0 ([Master.lane .a, .lane .b, .lane .c, .hub].flatMap s.hub.storedSet))

/-- The L commands KEY_SWITCH, KEY_LOAD, CONN_CLOSE, PRG_START, PRG_STOP, PRG_CONTINUE, PRG_CHANGE, FORCE_SET, FORCE_CLEAR, COMMISSION_SET, BREAK_SET,
BREAK_CLEAR, PAIR_YIELD and FIELD_CAL (R382): the descriptor goes into all three mailboxes under the next command sequence, at most 16 per stroke;
in sit ready and in easy all the command ends WRONG_STATE, PRG_CHANGE NOT_RUNNING (R230); PRG_CHANGE is refused while a trial is pending (R465). The
descriptor's coding is the model's (Assumption 19). -/
def Obligations.LaneCommandsReachAllThreeMailboxes : Prop :=
  (∀ (s : State) (r : CmdRef) (conn slot : Nat) (c : HostCmd), s.activeCmd r 0x0304 = some c → c.seq = none →
    ∃ t, exec (.keySwitch r conn slot) s = .next t ∧ s.Carried t c 0x0304 [conn, slot] []) ∧
  (∀ (s : State) (r : CmdRef) (conn : Nat) (c : HostCmd), s.activeCmd r 0x0306 = some c → c.seq = none →
    ∃ t, exec (.keyLoad r conn) s = .next t ∧ s.Carried t c 0x0306 [conn] []) ∧
  (∀ (s : State) (r : CmdRef) (conn : Nat) (c : HostCmd), s.activeCmd r 0x0403 = some c → c.seq = none →
    ∃ t, exec (.connClose r conn) s = .next t ∧ s.Carried t c 0x0403 [conn] []) ∧
  (∀ (s : State) (r : CmdRef) (c : HostCmd), s.activeCmd r 0x0501 = some c → c.seq = none →
    ∃ t, exec (.prgStart r) s = .next t ∧ s.Carried t c 0x0501 [] []) ∧
  (∀ (s : State) (r : CmdRef) (c : HostCmd), s.activeCmd r 0x0502 = some c → c.seq = none →
    ∃ t, exec (.prgStop r) s = .next t ∧ s.Carried t c 0x0502 [] []) ∧
  (∀ (s : State) (r : CmdRef) (c : HostCmd), s.activeCmd r 0x0503 = some c → c.seq = none →
    ∃ t, exec (.prgContinue r) s = .next t ∧ s.Carried t c 0x0503 [] []) ∧
  (∀ (s : State) (r : CmdRef) (vid : Word) (val : List Byte) (c : HostCmd), s.activeCmd r 0x0505 = some c → c.seq = none →
    ∃ t, exec (.forceSet r vid val) s = .next t ∧ s.OnlyHub t ∧
      ((s.anyEasy = true ∨ s.modSitReady = true) → t.hub.Ended c 0xD 0 0 []) ∧
      (s.anyEasy = false → s.modSitReady = false → s.Carried t c 0x0505 [vid.toNat] val)) ∧
  (∀ (s : State) (r : CmdRef) (vid : Word) (c : HostCmd), s.activeCmd r 0x0506 = some c → c.seq = none →
    ∃ t, exec (.forceClear r vid) s = .next t ∧ s.Carried t c 0x0506 [vid.toNat] []) ∧
  (∀ (s : State) (r : CmdRef) (mask : Half) (conns : List Nat) (c : HostCmd), s.activeCmd r 0x0507 = some c → c.seq = none →
    ∃ t, exec (.commissionSet r mask conns) s = .next t ∧ s.Carried t c 0x0507 (mask.toNat :: conns) []) ∧
  (∀ (s : State) (r : CmdRef) (task : Nat) (addr : Word) (c : HostCmd), s.activeCmd r 0x0508 = some c → c.seq = none →
    ∃ t, exec (.breakSet r task addr) s = .next t ∧ s.Carried t c 0x0508 [task, addr.toNat] []) ∧
  (∀ (s : State) (r : CmdRef) (task : Nat) (c : HostCmd), s.activeCmd r 0x0509 = some c → c.seq = none →
    ∃ t, exec (.breakClear r task) s = .next t ∧ s.Carried t c 0x0509 [task] []) ∧
  (∀ (s : State) (r : CmdRef) (c : HostCmd), s.activeCmd r 0x0805 = some c → c.seq = none →
    ∃ t, exec (.pairYield r) s = .next t ∧ s.Carried t c 0x0805 [] []) ∧
  (∀ (s : State) (r : CmdRef) (ch : Nat) (c : HostCmd), s.activeCmd r 0x0901 = some c → c.seq = none →
    ∃ t, exec (.fieldCal r ch) s = .next t ∧ s.Carried t c 0x0901 [ch] []) ∧
  (∀ (s : State) (r : CmdRef) (bytes sig : List Byte) (c : HostCmd), s.activeCmd r 0x0504 = some c → c.seq = none →
    (s.pointer.trial ≠ 0xFF → ∃ t, exec (.prgChange r bytes sig) s = .next t ∧ s.Ends t c 7 chgBusy 0 []) ∧
    (s.pointer.trial = 0xFF → (s.anyEasy = true ∨ s.modSitReady = true) →
      ∃ t, exec (.prgChange r bytes sig) s = .next t ∧ s.Ends t c 7 chgNotRunning 0 []) ∧
    (s.pointer.trial = 0xFF → s.anyEasy = false → s.modSitReady = false →
      (s.hub.mbxA.cmds.filter fun d => decide (s.lastCatch ≤ d.t)).length < 16 →
      ∃ t, exec (.prgChange r bytes sig) s = .next t ∧ s.OnlyHub t ∧ s.hub.RegsKept t.hub [HCMD_SEQ] ∧
        s.Committed t 0x0504 [b2n c.dropForces, bytes.length] (bytes ++ sig) ∧
        { c with seq := some (s.hub.rg HCMD_SEQ + 1) } ∈ t.hub.host.cmds))

/-- RESUME_TARGET, BENCH_AUTH, START, LANE_RESET, TLG_SUBMIT, TLG_RECEIVE, SETTINGS_WRITE, BIST_FULL_NEXT, RING_ANNOUNCE, RING_CANCEL, RING_RESTART and
EASY_ALL (R178, R199, R48, R365, R381, R383, R470, R522): what each does, and the status with which it is refused. -/
def Obligations.HubCommandsActOrAreRefused : Prop :=
  (∀ (s : State) (r : CmdRef) (c : HostCmd), s.activeCmd r 0x0103 = some c → r.q < 4 →
    ∃ t, exec (.resumeTarget r) s = .next t ∧
      ((c.target = 0 ∨ 11 < c.target) → s.Ends t c 3 0 0 []) ∧
      (1 ≤ c.target → c.target ≤ 11 → t.hub.Ended c 0 0 0 [] ∧ s.OnlyHub t ∧ t.hub.poisoned r.q c.target = false ∧
        s.hub.RegsKept t.hub [HCMD_POISON r.q, HCMD_QCNT 0, HCMD_QCNT 1, HCMD_QCNT 2, HCMD_QCNT 3] ∧
        ∀ k, k ≠ c.target → t.hub.poisoned r.q k = s.hub.poisoned r.q k)) ∧
  (∀ (s : State) (r : CmdRef) (mask : BitVec 3) (tok : List Byte) (c : HostCmd), s.activeCmd r 0x0104 = some c →
    (let ok : Bool := !s.hub.on CLKC_HSTAT_AON_FAIL && ((List.range 4).any fun i => !s.fuses.revoked.getLsbD i && s.fuses.keyHash.getD i [] != [] && Config.tokenHolds tok (s.fuses.keyHash.getD i [])) && s.tokenFits mask tok
     ∃ t, exec (.benchAuth r mask tok) s = .next t ∧ s.OnlyHub t ∧ t.hub.Ended c (if ok then 0 else 7) 0 0 [] ∧
       t.hub.host.granted = (if ok then maskLanes mask else s.hub.host.granted) ∧
       t.hub = { s.hub with reg := t.hub.reg, host := { s.hub.host with cmds := t.hub.host.cmds, granted := t.hub.host.granted } })) ∧
  (∀ (s : State) (r : CmdRef) (c : HostCmd), s.activeCmd r 0x0201 = some c →
    ((s.modSitReady = false ∨ s.anyEasy = true ∨ s.hub.set.autoStart = true) → ∃ t, exec (.start r) s = .next t ∧ s.Ends t c 0xD 0 0 []) ∧
    (s.modSitReady = true → s.anyEasy = false → s.hub.set.autoStart = false →
      ((∀ l, (s.lane l).up = true → (s.lane l).armed = false) → ∃ t, exec (.start r) s = .next t ∧ s.Ends t c 0xC 0 0 []) ∧
      ((∀ l, (s.lane l).up = true ∧ (s.lane l).sitReady = true ∧ (s.lane l).armed = true ∧ (s.lane l).start.paired = allLanes ∧
          (s.lane l).start.firstCatch = none ∧ (s.lane l).period = s.la.period) →
        ∃ t, exec (.start r) s = .next t ∧ t.hub.rg HCMD_SEQ = s.hub.rg HCMD_SEQ + 1 ∧
          (∃ x ∈ t.hub.host.cmds, x.q = c.q ∧ x.slot = c.slot ∧ x.status = some 0) ∧
          ∀ l, (t.lane l).start.firstCatch = some (ceilMult s.la.period (s.now + 10000000)) ∧ (t.lane l).reg = (s.lane l).reg))) ∧
  (∀ (s : State) (r : CmdRef) (l : LaneId) (c : HostCmd), s.activeCmd r 0x0203 = some c →
    ∃ t, exec (.laneReset r l) s = .next t ∧
      ((s.lane l).inVote = true → s.Ends t c 6 0 0 []) ∧
      ((s.lane l).inVote = false → t.hub.Ended c 0 0 0 [] ∧ (t.lane l).rst.held = true ∧ (t.lane l).on RST_CAUSE_SWR = true ∧
        ∀ k, k ≠ l → t.lane k = s.lane k)) ∧
  (∀ (s : State) (r : CmdRef) (conn tm : Nat) (tlg : List Byte) (c : HostCmd), s.activeCmd r 0x0401 = some c →
    ∃ t, exec (.tlgSubmit r conn tlg tm) s = .next t ∧
      ((s.hub.desc conn).carrier ≠ 4 → s.Ends t c 3 0 0 []) ∧
      ((s.hub.desc conn).carrier = 4 → s.hub.carries = true → s.hub.isStandby = false → s.hub.sgwRuns = false →
        t.hub.Ended c 0 0 0 [] ∧ s.OnlyHub t ∧
        ∀ l, ((s.lane l).sitReady = false → (s.lane l).easy = false →
            t.hub.mbx l = { s.hub.mbx l with inTlg := (s.hub.mbx l).inTlg ++ [{ conn := conn, bytes := tlg, t := max s.now tm }] }) ∧
          (((s.lane l).sitReady = true ∨ (s.lane l).easy = true) → (t.hub.mbx l).inTlg = []))) ∧
  (∀ (s : State) (r : CmdRef) (conn : Nat) (c : HostCmd), s.activeCmd r 0x0402 = some c →
    (let mine := s.hub.host.rx.filter fun e => conn == 0xFFFF || e.1 == conn
     let f := fitTlgs c.hdr.doutlen.toNat mine
     ∃ t, exec (.tlgReceive r conn) s = .next t ∧ s.OnlyHub t ∧ t.hub.Ended c 0 0 (BitVec.ofNat 64 f.1.length) (f.1.flatMap (·.2)) ∧
       ((f.1.map fun e => e.2.length).sum ≤ c.hdr.doutlen.toNat) ∧
       ∀ e ∈ s.hub.host.rx, e ∈ f.1 ∨ e ∈ t.hub.host.rx)) ∧
  (∀ (s : State) (r : CmdRef) (sect off : Nat) (bytes : List Byte) (c : HostCmd), s.activeCmd r 0x0302 = some c →
    ∃ t, exec (.settingsWrite r sect off bytes) s = .next t ∧
      (0x400000 < sect + off + bytes.length → s.Ends t c 3 0 0 []) ∧
      (sect + off + bytes.length ≤ 0x400000 → t.hub.Ended c 0 0 0 [] ∧ s.OnlyHub t ∧
        t.hub.upd = { s.hub.upd with staged := stageBytes s.hub.upd.staged (sect + off) bytes })) ∧
  (∀ (s : State) (r : CmdRef) (c : HostCmd), s.activeCmd r 0x0B02 = some c →
    ∃ t, exec (.bistFullNext r) s = .next t ∧ t.hub.Ended c 0 0 0 [] ∧ s.hub.OnlyCmds t.hub ∧
      t = { s with hub := t.hub, aon := { s.aon with fullNext := true } }) ∧
  (∀ (s : State) (r : CmdRef) (k rating : Nat) (c : HostCmd), s.activeCmd r 0x0801 = some c →
    ∃ t, exec (.ringAnnounce r k rating) s = .next t ∧
      (6 ≤ k → s.Ends t c 3 0 0 []) ∧
      (k < 6 → s.hub.rstate k ≠ 2 → s.Ends t c 7 0 0 []) ∧
      (k < 6 → s.hub.rstate k = 2 → (s.hub.ratingValid rating = false ∨ rating = s.hub.rating k) → t.hub.Ended c 7 1 0 []) ∧
      (k < 6 → k < s.hub.rings.length → s.hub.rstate k = 2 → s.hub.ratingValid rating = true → rating ≠ s.hub.rating k →
        (s.hub.ring k).ann = none →
        t.hub.Ended c 0 0 0 [] ∧
          (t.hub.ring k).ann = some { rating := rating, target := (s.hub.rg (RING_CYCLE k) + 17).toNat, unwrap := false })) ∧
  (∀ (s : State) (r : CmdRef) (k : Nat) (a : RingAnn) (c : HostCmd), s.activeCmd r 0x0802 = some c → k < 6 → k < s.hub.rings.length →
    (s.hub.ring k).ann = some a → (s.hub.ring k).unwrapWait = false →
    ∃ t, exec (.ringCancel r k) s = .next t ∧ t.hub.Ended c 0 0 0 [] ∧ (t.hub.ring k).ann = none ∧ t.hub.fget (RING_STAT_ABN k) = 5) ∧
  (∀ (s : State) (r : CmdRef) (k tm : Nat) (c : HostCmd), s.activeCmd r 0x0803 = some c → k < 6 →
    ∃ t, exec (.ringRestart r k tm) s = .next t ∧
      (s.hub.on (RING_STAT_UNMANNED k) = false → s.Ends t c 0 0 0 []) ∧
      (s.hub.on (RING_STAT_UNMANNED k) = true → t.hub.Ended c 0 0 0 [] ∧ t.hub.on (RING_STAT_UNMANNED k) = false ∧
        t.hub.rstate k = (if s.hub.fget (RING_CTRL_ROLE k) = 1 ∧ s.hub.mayMaster = true then 1 else 3))) ∧
  (∀ (s : State) (r : CmdRef) (c : HostCmd), s.activeCmd r 0x0A01 = some c → c.headerBad = false → c.rangeBad = false → c.seq = none →
    ∃ t, exec (.easyAll r) s = .next t ∧ t.hub.rg HCMD_SEQ = s.hub.rg HCMD_SEQ + 1 ∧
      ∀ l, ((s.lane l).up = true → (t.lane l).easy = true) ∧
        ((s.lane l).up = true → (s.lane l).easy = false →
          (t.lane l).fget VOTE_EASY_CAUSE = 6 ∧ (t.lane l).inVote = false ∧ (t.lane l).fld.dyn = 0) ∧
        ((s.lane l).up = false → t.lane l = s.lane l))

/-- HOST_INTERFACE_RESET, HCMD_DEVRST, HCMD_PWRCYC and PWRCYC_PULSE_END (R367, R368, R387): an interface reset empties the queues and counts the epoch;
dispatched commands run on unseen; `DEVRST` resets the hub and `PWRCYC` drives its ball low for 20 ms, each with the key alone. MODULE_RESET and
MODULE_RESET_ASSERT (R383): 1 ms after the completion the whole module is reset. BLOCK_RESET, FUNC_REINIT, BLOCK_IDLE_ACK and BLOCK_IDLE_TIMEOUT
(R386, R500, R501): one block at a time is asked to go idle; its answer, or the end of its timeout with `FORCED`, resets it; the commands it serves
end BLOCK_RESET. -/
def Obligations.InterfaceAndBlocksAreResetAlone : Prop :=
  ((∀ s : State, s.hub.rst.held = false → s.hub.on HCMD_STAT_HOSTSPI = true → ∃ t, exec (.hostInterfaceReset) s = .next t ∧ t = s) ∧
   (∀ s : State, s.hub.rst.held = false → s.hub.on HCMD_STAT_HOSTSPI = false →
     ∃ t, exec (.hostInterfaceReset) s = .next t ∧ s.OnlyHub t ∧ t.hub.sram = s.hub.sram ∧
       t.hub.fget HCMD_STAT_EPOCH = (s.hub.fget HCMD_STAT_EPOCH + 1) % 65536 ∧ t.hub.rg HCMD_CTRL = 0 ∧ t.hub.rg HCMD_SEQ = s.hub.rg HCMD_SEQ ∧
       (∀ q, q < 4 → t.hub.rg (HCMD_POISON q) = 0 ∧ t.hub.fget (HCMD_CQHD_HEAD q) = 0) ∧
       t.hub.host.cqW = [0, 0, 0, 0] ∧ t.hub.host.phase = [true, true, true, true] ∧
       t.hub.host.cmds = (s.hub.host.cmds.filter fun c => c.active && c.status.isNone).map fun c => { c with ghost := true }) ∧
   (∀ (s : State) (v : Word), s.hub.rst.held = false →
     ∃ t, exec (.hcmdDevrst v) s = .next t ∧
       (bvField v 16 16 ≠ 0xA55A → s.OnlyHub t ∧ s.hub.OnlyRegs t.hub [HCMD_CTRL] ∧ t.hub.fget HCMD_CTRL_IE_STAT = bvField v 7 1) ∧
       (bvField v 16 16 = 0xA55A → v.getLsbD 0 = true → t.hub.rst.held = true ∧ t.hub.on HRST_CAUSE_SWR = true ∧ t.hub.sram = s.hub.sram ∧
         t.hub.host.cmds = [] ∧ t.field = s.field)) ∧
   (∀ (s : State) (v : Word) (tm : Nat), s.hub.rst.held = false → bvField v 16 16 = 0xA55A → v.getLsbD 0 = false → v.getLsbD 1 = true →
     ∃ t, exec (.hcmdPwrcyc v tm) s = .next t ∧ s.hub.OnlyRegs t.hub [HCMD_CTRL] ∧
       t = { s with now := t.now, hub := t.hub, aon := { s.aon with pwrcycUntil := tm + 20000000 } }) ∧
   (∀ (s : State) (tm : Nat), ∃ t, exec (.pwrcycPulseEnd tm) s = .next t ∧
     t = { s with now := max s.now tm, aon := { s.aon with pwrcycUntil := if s.aon.pwrcycUntil ≤ tm then 0 else s.aon.pwrcycUntil } }) ∧
   (∀ (s : State) (r : CmdRef) (kind : Nat) (c : HostCmd), s.activeCmd r 0x0A02 = some c →
     ∃ t, exec (.moduleReset r kind) s = .next t ∧
       (1 < kind → s.Ends t c 3 0 0 []) ∧
       (kind ≤ 1 → t.hub.Ended c 0 0 0 [] ∧ s.OnlyHub t ∧ t.hub.host.mreset = some (kind == 1, s.now + 1000000))) ∧
   (∀ (s : State) (cold : Bool) (d tm : Nat), s.hub.host.mreset = some (cold, d) → s.hub.rst.held = false →
     ∃ t, exec (.moduleResetAssert tm) s = .next t ∧
       (tm < d → t = s.at tm) ∧
       (d ≤ tm → t.hub.rst.held = true ∧ t.hub.rst.cold = cold ∧ t.hub.on HRST_CAUSE_SWR = true ∧ t.fieldRst.held = true ∧
         ∀ l, ((s.lane l).inVote = false → (t.lane l).rst.held = true) ∧
           ((s.lane l).inVote = true → (s.lane l).easy = false → (s.lane l).rst.held = false →
             (t.lane l).inVote = false ∧ (t.lane l).fld.dyn = 0 ∧ (t.lane l).rst.due = some (cold, 4, max s.now tm + 10000))))) ∧
  ((∀ (s : State) (v : Word) (tm : Nat), s.hub.rst.held = false → bvField v 0 8 ∈ blockCodes →
     ∃ t, exec (.blockReset v tm) s = .next t ∧ s.OnlyHub t ∧
       (s.hub.brst = none → t.hub.brst = some (bvField v 0 8, tm) ∧ s.hub.RegsKept t.hub [RSTC_BSTAT] ∧ t.hub.on RSTC_BSTAT_BUSY = true) ∧
       (s.hub.brst.isSome = true → t.hub = s.hub)) ∧
   (∀ (s : State) (r : CmdRef) (b : Byte) (tm : Nat) (c : HostCmd), s.activeCmd r 0x0A04 = some c →
     ∃ t, exec (.funcReinit r b tm) s = .next t ∧
       (b.toNat ∉ blockCodes → s.Ends t c 3 0 0 []) ∧
       (b.toNat ∈ blockCodes → s.hub.brst = none → s.OnlyHub t ∧ t.hub.brst = some (b.toNat, tm) ∧ r ∈ t.hub.host.reinit ∧
         t.hub.host.cmds = s.hub.host.cmds ∧ t.hub.on RSTC_BSTAT_BUSY = true)) ∧
   (∀ (s : State) (code since tm : Nat), s.hub.brst = some (code, since) → code < 256 →
     (∃ t, exec (.blockIdleAck tm) s = .next t ∧
       t.hub.brst = none ∧ t.hub.on RSTC_BSTAT_BUSY = false ∧ t.hub.fget RSTC_BSTAT_LAST = code ∧ t.hub.host.reinit = [] ∧
         t.hub.on RSTC_BSTAT_FORCED = s.hub.on RSTC_BSTAT_FORCED ∧ t.flash0 = s.flash0 ∧ t.flash1 = s.flash1 ∧ (∀ l, t.lane l = s.lane l) ∧
         ∀ x ∈ s.hub.host.cmds, s.hub.servedBy code x = true →
           ∃ y ∈ t.hub.host.cmds, y.q = x.q ∧ y.slot = x.slot ∧ y.status = some 0xB) ∧
     (∃ t, exec (.blockIdleTimeout tm) s = .next t ∧ (∀ l, t.lane l = s.lane l) ∧
       (tm < since + s.hub.idleTimeout code → t.hub = s.hub) ∧
       (since + s.hub.idleTimeout code ≤ tm → t.hub.brst = none ∧ t.hub.on RSTC_BSTAT_BUSY = false ∧ t.hub.on RSTC_BSTAT_FORCED = true))))

/-- SGW_LOAD (R412): with `EN` set it is ignored; a load either takes the whole map with its values cleared, or leaves the gateway empty with
`LOAD_ERR`; a map without a valid element loads, one with a valid entry of length 0 or of a reserved source kind does not. CAN_FRAME,
SGW_DESTINATION_SEND, SGW_SILENCE_TIMEOUT, CAN_FRAME_SENT, BUS_OFF_RECOVERY and SGW_CANCNT_CLEAR (R407, R410, R413, R414): a frame no entry maps is
counted; a mapped one gives its converted value to the destination, which sends it when its interval has passed, keeps silent after its timeout, and
goes out in the order of identifiers. The count of receive errors follows ISO 11898-1, which the model presumes (Assumption 58). -/
def Obligations.GatewayMapsLoadWholeAndSignalsReachTheirDestinations : Prop :=
  ((∀ s : State, s.hub.rst.held = false → s.hub.on SGW_CTRL_EN = true →
     ∃ t, exec (.sgwLoad) s = .next t ∧ s.OnlyHub t ∧ s.hub.OnlyRegs t.hub [SGW_STAT] ∧ t.hub.on SGW_STAT_IGN = true ∧ t.hub.sgw = s.hub.sgw) ∧
   (∀ s : State, s.hub.rst.held = false → s.hub.on SGW_CTRL_EN = false →
     (let word (o : Nat) : Word := memWord s.hub.sram (s.hub.fget SGW_MBASE_BASE * 4096 + o)
      ∃ t, exec (.sgwLoad) s = .next t ∧ s.OnlyHub t ∧ s.hub.RegsKept t.hub [SGW_STAT] ∧ t.hub.sram = s.hub.sram ∧
       t.hub.sgw.vals = [] ∧ t.hub.sgw.run = [] ∧
       (t.hub.on SGW_STAT_LOADED = true ∨
         (t.hub.on SGW_STAT_LOADED = false ∧ t.hub.on SGW_STAT_LOAD_ERR = true ∧ t.hub.sgw = sgwReset)) ∧
       ((∀ o, o < 0x8800 → o % 4 = 0 → (word o).getLsbD 31 = false) → t.hub.on SGW_STAT_LOADED = true ∧ t.hub.sgw = sgwReset) ∧
       (∀ i, i < 1024 → (word (32 * i)).getLsbD 31 = true → (bvField (word (32 * i + 20)) 10 6 = 0 ∨ bvField (word (32 * i)) 29 2 = 3) →
         t.hub.on SGW_STAT_LOADED = false ∧ t.hub.on SGW_STAT_LOAD_ERR = true)))) ∧
  ((∀ (s : State) (port : Nat) (ide rem err : Bool) (ident : Word) (data : List Byte), s.hub.rst.held = false → port < 4 →
     ((s.hub.on (SGW_CANCFG_EN port) = false ∨ s.hub.fget (SGW_CANSTAT_STATE port) = 2) →
       ∃ t, exec (.canFrame port ide ident rem data err) s = .next t ∧ t = s) ∧
     (s.hub.on (SGW_CANCFG_EN port) = true → s.hub.fget (SGW_CANSTAT_STATE port) ≠ 2 → (rem = true ∨ err = true) →
       ∃ t, exec (.canFrame port ide ident rem data err) s = .next t ∧ s.OnlyHub t ∧ s.hub.OnlyRegs t.hub [SGW_CANSTAT port] ∧
         (err = true → t.hub.fget (SGW_CANSTAT_REC port) = min 255 (s.hub.fget (SGW_CANSTAT_REC port) + 1))) ∧
     (s.hub.on (SGW_CANCFG_EN port) = true → s.hub.fget (SGW_CANSTAT_STATE port) ≠ 2 → data.length ≤ 8 →
       (∀ e ∈ s.hub.sgw.entries, ¬ (seKind e.2 = 0 ∧ sePort e.2 = port ∧ seIde e.2 = ide ∧ seId e.2 = ident.toNat)) →
       ∃ t, exec (.canFrame port ide ident false data false) s = .next t ∧ s.OnlyHub t ∧
         s.hub.OnlyRegs t.hub [SGW_CANCNT port, SGW_CANSTAT port] ∧
         t.hub.fget (SGW_CANCNT_RXDROP port) = satInc 65535 (s.hub.fget (SGW_CANCNT_RXDROP port)))) ∧
   (∀ (s : State) (port : Nat) (ide : Bool) (ident : Word) (data : List Byte) (i : Nat) (e desc : List Word), s.hub.rst.held = false → port < 4 →
     s.hub.on (SGW_CANCFG_EN port) = true → s.hub.fget (SGW_CANSTAT_STATE port) ≠ 2 → data.length ≤ 8 → s.hub.sgw.entries = [(i, e)] →
     seKind e = 0 → sePort e = port → seIde e = ide → seId e = ident.toNat → s.hub.sgwRuns = true → s.hub.sgwDesc (seDmsg e) = some desc →
     sdPort desc < 4 → (s.hub.sgwDest (seDmsg e)).buf = none →
     ∃ t, exec (.canFrame port ide ident false data false) s = .next t ∧ s.OnlyHub t ∧
       s.hub.RegsKept t.hub [SGW_CANCNT (sdPort desc), SGW_CANSTAT port] ∧
       (entryValue e data = none → t.hub.sgw = s.hub.sgw ∧
         t.hub.fget (SGW_CANCNT_SHORT (sdPort desc)) = satInc 255 (s.hub.fget (SGW_CANCNT_SHORT (sdPort desc)))) ∧
       (∀ v sat, entryValue e data = some (v, sat) →
         sparseGet (fun _ => 0) t.hub.sgw.vals i = v ∧
         t.hub.sgwDest (seDmsg e) = { s.hub.sgwDest (seDmsg e) with fresh := true, lastVal := s.now, silent := false } ∧
         t.hub.fget (SGW_CANCNT_SAT (sdPort desc)) =
           (if sat = true then satInc 255 (s.hub.fget (SGW_CANCNT_SAT (sdPort desc))) else s.hub.fget (SGW_CANCNT_SAT (sdPort desc))))) ∧
   (∀ (s : State) (d tm : Nat) (desc : List Word), s.hub.rst.held = false → s.hub.sgwDesc d = some desc → s.hub.sgwRuns = true →
     (s.hub.canSends desc = true → (s.hub.sgwDest d).fresh = true → (s.hub.sgwDest d).silent = false →
       ((s.hub.sgwDest d).sentOnce = false ∨ (s.hub.sgwDest d).lastSend + bvField (desc.getD 2 0) 16 16 * 1000000 ≤ tm) →
       ∃ t, exec (.sgwDestinationSend d tm) s = .next t ∧ s.OnlyHub t ∧ t.hub.reg = s.hub.reg ∧
         t.hub.sgwDest d = { s.hub.sgwDest d with fresh := false, sentOnce := true, lastSend := tm, buf := some (s.hub.sgwMessage d desc) } ∧
         ∀ j, j ≠ d → t.hub.sgwDest j = s.hub.sgwDest j) ∧
     ((s.hub.sgwDest d).sentOnce = true → tm < (s.hub.sgwDest d).lastSend + bvField (desc.getD 2 0) 16 16 * 1000000 →
       ∃ t, exec (.sgwDestinationSend d tm) s = .next t ∧ t.hub = s.hub) ∧
     (bvField (desc.getD 2 0) 0 16 ≠ 0 → (s.hub.sgwDest d).lastVal + bvField (desc.getD 2 0) 0 16 * 1000000 ≤ tm →
       ∃ t, exec (.sgwSilenceTimeout d tm) s = .next t ∧ s.OnlyHub t ∧ t.hub.reg = s.hub.reg ∧
         t.hub.sgwDest d = { s.hub.sgwDest d with silent := true, fresh := false, buf := none })) ∧
   (∀ (s : State) (port d : Nat) (desc : List Word), s.hub.rst.held = false → port < 4 → s.hub.on (SGW_CANCFG_EN port) = true →
     s.hub.fget (SGW_CANSTAT_STATE port) ≠ 2 → (d, desc) ∈ s.hub.sgw.dests → sdPort desc = port →
     (s.hub.sgwDest d).buf.isSome = true →
     (∀ e ∈ s.hub.sgw.dests, sdPort e.2 = port → (s.hub.sgwDest e.1).buf.isSome = true → e = (d, desc) ∨ canRank desc < canRank e.2) →
     (∃ t, exec (.canFrameSent port false) s = .next t ∧ s.OnlyHub t ∧ s.hub.RegsKept t.hub [SGW_CANSTAT port] ∧ (t.hub.sgwDest d).buf = none ∧
       ∀ j, j ≠ d → t.hub.sgwDest j = s.hub.sgwDest j) ∧
     (∃ t, exec (.canFrameSent port true) s = .next t ∧ s.OnlyHub t ∧ s.hub.RegsKept t.hub [SGW_CANSTAT port] ∧ t.hub.sgw = s.hub.sgw)) ∧
   (∀ (s : State) (port : Nat), s.hub.rst.held = false → port < 4 →
     (∃ t, exec (.busOffRecovery port) s = .next t ∧ s.OnlyHub t ∧ s.hub.OnlyRegs t.hub [SGW_CANSTAT port] ∧
       (s.hub.fget (SGW_CANSTAT_STATE port) = 2 →
         t.hub.fget (SGW_CANSTAT_STATE port) = 0 ∧ t.hub.fget (SGW_CANSTAT_TEC port) = 0 ∧ t.hub.fget (SGW_CANSTAT_REC port) = 0) ∧
       (s.hub.fget (SGW_CANSTAT_STATE port) ≠ 2 → t = s)) ∧
     (∀ v, ∃ t, exec (.sgwCancntClear port v) s = .next t ∧ s.OnlyHub t ∧ s.hub.OnlyRegs t.hub [SGW_CANCNT port] ∧
       t.hub.rg (SGW_CANCNT port) = 0)))

/-- RECORD_SUBMISSION, GAP_DROPPED and REC_CHUNK_WRITTEN (R437 to R441): a submission becomes the record of the next sequence, or raises the count of
the newest record that equals it; what was lost is told in one gap record; a chunk written stands in its flash page as it stands in the ring.
CRC_START and CRC_DATA_WRITE (R445 to R447): a start loads the register and names its owner; data of the owner are taken in byte by byte and shown;
a start of an algorithm that does not exist, and data of anyone else, change nothing but their error bit. -/
def Obligations.RecordsAndCheckUnitsServeInOrder : Prop :=
  ((∀ (s : State) (x : RecSub) (q : List RecSub), s.hub.rst.held = false → s.hub.records = true → s.hub.on REC_STAT_THROTTLE = false →
     s.hub.rcd.queue = x :: q → s.hub.on HSRAM_STAT_FROZEN = false →
     (∀ (y : RecSub) (rep ver : Nat), s.hub.rcd.newest = some (y, rep, ver) → y.source = x.source → y.code = x.code → y.data = x.data → rep < 65535 →
       ∃ t, exec (.recordSubmission) s = .next t ∧ s.OnlyHub t ∧ t.hub.reg = s.hub.reg ∧
         t.hub.rcd = { s.hub.rcd with queue := q, newest := some (y, rep + 1, (ver + 1) % 256) }) ∧
     (s.hub.rcd.newest = none → s.hub.rcd.next < 2 ^ 32 →
       ∃ t, exec (.recordSubmission) s = .next t ∧ s.OnlyHub t ∧ s.hub.RegsKept t.hub [REC_HEAD, REC_STAT] ∧
         (t.hub.rg REC_HEAD).toNat = s.hub.rcd.next ∧ t.hub.rcd.next = (s.hub.rcd.next + 1) % 2 ^ 32 ∧ t.hub.rcd.queue = q ∧
         t.hub.rcd.newest = some (x, 1, 0) ∧ memBytes t.hub.sram (recAddr s.hub.rcd.next) 32 = recBytes x false s.hub.rcd.next 1 0)) ∧
   (∀ (s : State) (tm : Nat), s.hub.rst.held = false → s.hub.records = true → s.hub.on REC_STAT_THROTTLE = false → s.hub.rcd.lost ≠ 0 →
     s.hub.rcd.queue.length < 64 → s.hub.rcd.next < 2 ^ 32 →
     ∃ t, exec (.gapDropped tm) s = .next t ∧ s.OnlyHub t ∧ s.hub.RegsKept t.hub [REC_HEAD, REC_STAT, HSRAM_STAT] ∧ t.hub.rcd.lost = 0 ∧
       t.hub.rcd.newest = none ∧ t.hub.rcd.queue = s.hub.rcd.queue ∧ (t.hub.rg REC_HEAD).toNat = s.hub.rcd.next) ∧
   (∀ (s : State) (c : Nat × Nat × Nat) (cs : List (Nat × Nat × Nat)), s.hub.rst.held = false → s.hub.blockOff 0x60 = false →
     s.hub.rcd.unflushed = c :: cs →
     ∃ t, exec (.recChunkWritten) s = .next t ∧ s.hub.OnlyRegs t.hub [REC_FLUSHED, REC_STAT] ∧ t = { s with hub := t.hub, flash1 := t.flash1 } ∧
       t.hub.rcd = { s.hub.rcd with unflushed := cs } ∧ t.hub.rg REC_FLUSHED = BitVec.ofNat 32 c.2.2 ∧
       ∀ q ∈ seqSpan c.2.1 c.2.2, flashBytes t.flash1 (recFlash c.1 q) 32 = memBytes s.hub.sram (recAddr q) 32)) ∧
  ((∀ (s : State) (l : LaneId) (req : Nat) (v : Word), (s.lane l).rst.held = false → v.getLsbD 8 = true →
     ∃ t, exec (.crcStart (.lane l) req v) s = .next t ∧ s.OnlyLane t l ∧
       (s.lane l).RegsKept (t.lane l) [CRC_CTRL, CRC_OWNER, CRC_RES_LO, CRC_RES_HI, CRC_STAT] ∧
       (bvField v 0 3 ≤ 4 →
         (t.lane l).crc = crcLoaded v ((s.lane l).rg CRC_INIT_HI) ((s.lane l).rg CRC_INIT_LO) ∧
         (t.lane l).rg CRC_OWNER = crcOwner 0 (bvField ((s.lane l).rg CRC_CUR) 0 8)) ∧
       (4 < bvField v 0 3 → (t.lane l).crc = (s.lane l).crc ∧ (t.lane l).on CRC_STAT_ALG_ERR = true ∧
         (t.lane l).rg CRC_OWNER = (s.lane l).rg CRC_OWNER)) ∧
   (∀ (s : State) (l : LaneId) (req : Nat) (w : Width) (v : Word), (s.lane l).rst.held = false →
     ∃ t, exec (.crcDataWrite (.lane l) req w v) s = .next t ∧ s.OnlyLane t l ∧
       ((s.lane l).rg CRC_OWNER = crcOwner 0 (bvField ((s.lane l).rg CRC_CUR) 0 8) →
         (s.lane l).RegsKept (t.lane l) [CRC_RES_LO, CRC_RES_HI] ∧
         (t.lane l).crc = { (s.lane l).crc with reg := (leBytes (Width.bytes w) v.toNat).foldl (crcFeed (s.lane l).crc.alg) (s.lane l).crc.reg } ∧
         (t.lane l).rg CRC_RES_LO = BitVec.ofNat 32 (crcResult (t.lane l).crc.alg (t.lane l).crc.reg)) ∧
       ((s.lane l).rg CRC_OWNER ≠ crcOwner 0 (bvField ((s.lane l).rg CRC_CUR) 0 8) →
         (s.lane l).RegsKept (t.lane l) [CRC_STAT, LCTL_IRQ_PEND] ∧ (t.lane l).crc = (s.lane l).crc ∧ (t.lane l).on CRC_STAT_OWN_ERR = true ∧
         ((t.lane l).rg LCTL_IRQ_PEND).getLsbD 7 = true)) ∧
   (∀ (s : State) (m : Master) (u req : Nat) (w : Width) (v : Word), (m, u) ∈ [(Master.hub, 0), (.host, 1)] → s.hub.rst.held = false →
     (∃ t, exec (.crcDataWrite m req w v) s = .next t ∧ s.OnlyHub t ∧
       (s.hub.rg (HCRC_OWNER u) = crcOwner req (bvField (s.hub.rg (HCRC_CUR u (req % 2))) 0 8) →
         s.hub.RegsKept t.hub [HCRC_RES_LO u, HCRC_RES_HI u] ∧ t.hub.crcUnit u = (s.hub.crcUnit u).feed (leBytes (Width.bytes w) v.toNat)) ∧
       (s.hub.rg (HCRC_OWNER u) ≠ crcOwner req (bvField (s.hub.rg (HCRC_CUR u (req % 2))) 0 8) →
         s.hub.OnlyRegs t.hub [HCRC_STAT u] ∧ t.hub.on (HCRC_STAT_OWN_ERR u) = true)) ∧
     (v.getLsbD 8 = true → bvField v 0 3 ≤ 4 →
       ∃ t, exec (.crcStart m req v) s = .next t ∧ s.OnlyHub t ∧
         s.hub.RegsKept t.hub [HCRC_CTRL u, HCRC_OWNER u, HCRC_RES_LO u, HCRC_RES_HI u] ∧
         t.hub.crcUnit u = crcLoaded v (s.hub.rg (HCRC_INIT_HI u)) (s.hub.rg (HCRC_INIT_LO u)) ∧
         t.hub.rg (HCRC_OWNER u) = crcOwner req (bvField (s.hub.rg (HCRC_CUR u (req % 2))) 0 8))))

/-- UPD_BEGIN, UPD_BLOCK, UPD_VERIFY, UPD_FORWARD and SETTINGS_COMMIT (R456 to R459, R470): a block is written into a slot that may take it and stands
there as given; a block already there is not written again; what the checks or the pending trial forbid is REFUSED and changes nothing. -/
def Obligations.DownloadsWriteOnlyWhatTheyMay : Prop :=
  (∀ (s : State) (r : CmdRef) (k len : Nat) (block : List Byte) (c : HostCmd), s.activeCmd r 0x0701 = some c →
    (s.hub.upd.gated.any fun g => g.cmd == some r) = false →
    ∃ t, exec (.updBegin r k len block) s = .next t ∧
      ((2 ≤ k ∨ 0x2000000 < len) → s.Ends t c 3 0 0 []) ∧
      (k < 2 → len ≤ 0x2000000 → s.beginOk k block = false → s.Ends t c 7 0 0 []) ∧
      (k < 2 → len ≤ 0x2000000 → s.beginOk k block = true → block.length = 65536 → s.hub.on NVW_STAT_PF = false →
        (s.hub.gateOpen 256 = true → flashBytes t.flash0 (slotBase k) 65536 = block ∧ t.hub.upd.downSlot = some k ∧ t.flash1 = s.flash1 ∧
          (∀ o, (o < slotBase k ∨ slotBase k + 65536 ≤ o) → flashByte t.flash0 o = flashByte s.flash0 o) ∧
          t.hub.Ended c (if blockValid block 0 (hdrBuild block) = true then 0 else 7) 0 0 []) ∧
        (s.hub.gateOpen 256 = false → s.OnlyHub t ∧ t.hub.host = s.hub.host ∧
          t.hub.fget NVW_STAT_DEFCNT = satInc 65535 (s.hub.fget NVW_STAT_DEFCNT) ∧
          t.hub.upd.gated = s.hub.upd.gated ++ [{ kind := .block, pages := 256, addr := slotBase k, bytes := block, cmd := some r, t0 := s.now }]))) ∧
  (∀ (s : State) (r : CmdRef) (i k : Nat) (block : List Byte) (c : HostCmd), s.activeCmd r 0x0702 = some c →
    (s.hub.upd.gated.any fun g => g.cmd == some r) = false → s.downloadSlot = some k →
    ∃ t, exec (.updBlock r i block) s = .next t ∧
      ((512 ≤ i ∨ block.length ≠ 65536) → s.Ends t c 7 0 0 []) ∧
      (i < 512 → block.length = 65536 → s.hub.on NVW_STAT_PF = false → s.hub.gateOpen 256 = true →
        t.block k i = block ∧ t.flash1 = s.flash1 ∧
        (∀ o, (o < slotBase k + 65536 * i ∨ slotBase k + 65536 * i + 65536 ≤ o) → flashByte t.flash0 o = flashByte s.flash0 o) ∧
        t.hub.upd.verified =
          (if blockValid block i (s.slotBuild k) && s.block k i == block then s.hub.upd.verified else s.hub.upd.verified.filter fun x => x != k) ∧
        t.hub.Ended c (if blockValid block i (t.slotBuild k) = true then 0 else 7) 0 0 [])) ∧
  (∀ (s : State) (r : CmdRef) (k : Nat) (c : HostCmd), s.activeCmd r 0x0703 = some c →
    (let ok : Bool := decide (k < 2) && s.slotVerifies k
     ∃ t, exec (.updVerify r k) s = .next t ∧ s.OnlyHub t ∧
       t.hub = { s.hub with reg := t.hub.reg, host := { s.hub.host with cmds := t.hub.host.cmds }, upd := t.hub.upd } ∧
       s.hub.RegsKept t.hub [HCMD_QCNT 0, HCMD_QCNT 1, HCMD_QCNT 2, HCMD_QCNT 3] ∧ t.hub.Ended c (if ok then 0 else 7) 0 0 [] ∧
       t.hub.upd = { s.hub.upd with verified := if ok then insertL k s.hub.upd.verified else s.hub.upd.verified })) ∧
  (∀ (s : State) (r : CmdRef) (link : Nat) (c : HostCmd), s.activeCmd r 0x0707 = some c →
    ∃ t, exec (.updForward r link) s = .next t ∧
      (s.linkOpen link = false → s.Ends t c 8 0 0 []) ∧
      (s.linkOpen link = true → t.hub.Ended c 0 0 0 [] ∧ s.OnlyHub t ∧ t.hub.ptnr.fwdOut = some link ∧ t.hub.ptnr.fwdSrc = s.forwardSlot)) ∧
  (∀ (s : State) (r : CmdRef) (crc : Word) (c : HostCmd), s.activeCmd r 0x0303 = some c →
    (s.hub.upd.gated.any fun g => g.cmd == some r) = false →
    ∃ t, exec (.settingsCommit r crc) s = .next t ∧
      ((s.pointer.trial ≠ 0xFF ∨ crc32c s.stagedBytes ≠ crc.toNat) → s.Ends t c 7 0 0 []) ∧
      (s.pointer.trial = 0xFF → crc32c s.stagedBytes = crc.toNat → s.hub.on NVW_STAT_PF = false →
        s.hub.gateOpen ((s.stagedBytes.length + 255) / 256 + 1) = true →
        t.hub.Ended c 0 0 0 [] ∧ t.hub.upd.staged = [] ∧ t.hub.upd.setCrc = crc ∧ t.hub.upd.setLen = s.stagedBytes.length ∧
        t.hub.upd.setSeq = s.hub.upd.setSeq + 1 ∧ t.hub.upd.setArea = (if s.hub.upd.setArea = 0 then 1 else 0) ∧ t.flash0 = s.flash0))

/-- UPD_ACTIVATE, UPD_CONFIRM, ROLLING_STEP, ROLLING_STEP_TIMEOUT and HUB_READY_TIMEOUT (R460 to R468): a verified slot becomes the trial of a module
that is not active; a rolling update goes part by part, each part marked before it starts; a step that does not end in time is reverted; a trial
with all parts and two voters is confirmed. -/
def Obligations.TrialsGoPartByPartAndRevert : Prop :=
  (∀ (s : State) (r : CmdRef) (k : Nat) (c : HostCmd), s.activeCmd r 0x0704 = some c →
    (s.hub.upd.gated.any fun g => g.cmd == some r) = false →
    ∃ t, exec (.updActivate r k) s = .next t ∧
      ((s.hub.isActive = true ∨ k ∉ s.hub.upd.verified) → s.Ends t c 7 0 0 []) ∧
      (s.hub.isActive = false → k ∈ s.hub.upd.verified → k < 2 → s.hub.on NVW_STAT_PF = false → s.hub.gateOpen 1 = true →
        t.hub.Ended c 0 0 0 [] ∧ t.hub.fget UPD_STAT_TRIAL = k ∧ t.hub.fget UPD_STAT_PARTS = (if s.rolling k = true then 0 else 0x1F) ∧
        t.hub.fget UPD_STAT_TRIES = 0 ∧ t.flash0 = s.flash0)) ∧
  (∀ (s : State) (r : CmdRef) (c : HostCmd), s.activeCmd r 0x0705 = some c → (s.hub.upd.gated.any fun g => g.cmd == some r) = false →
    ∃ t, exec (.updConfirm r) s = .next t ∧
      ((s.pointer.trial = 0xFF ∨ s.pointer.parts ≠ 0x1F ∨ s.voters.length < 2 ∨ s.hub.on UPD_STAT_SET_INCOMP = true) → s.Ends t c 7 0 0 []) ∧
      (s.pointer.trial < 2 → s.pointer.parts = 0x1F → 2 ≤ s.voters.length → s.hub.on UPD_STAT_SET_INCOMP = false →
        s.hub.on NVW_STAT_PF = false → s.hub.gateOpen 1 = true →
        t.hub.Ended c 0 0 0 [] ∧ t.hub.fget UPD_STAT_ACTIVE = s.pointer.trial ∧ t.hub.fget UPD_STAT_TRIAL = 3 ∧
        t.hub.fget UPD_STAT_PARTS = 0 ∧ t.hub.fget UPD_STAT_TRIES = 0)) ∧
  (∀ (s : State) (tm : Nat), s.hub.ready = true → s.hub.upd.stopped = false → s.hub.blockOff 0x71 = false → s.hub.fget UPD_STAT_STEP = 0 →
    s.pointer.trial ≠ 0xFF → s.hub.on NVW_STAT_PF = false →
    ∃ t, exec (.rollingStep tm) s = .next t ∧
      (s.pointer.nextPart = none → t = s.at tm) ∧
      (s.pointer.nextPart = some 0 → s.hub.gateOpen 1 = true →
        t.hub.fget UPD_STAT_STEP = 1 ∧ getField (t.hub.fget UPD_STAT_PARTS) 0 1 = 1 ∧ t.hub.upd.fieldDone = [] ∧ ∀ l, t.lane l = s.lane l) ∧
      (∀ i, s.pointer.nextPart = some i → 1 ≤ i → (s.anyEasy = true ∨ s.voters.length ≠ 3) → t = s.at tm) ∧
      (s.pointer.nextPart = some 1 → s.anyEasy = false → s.voters.length = 3 → s.hub.isActive = false → s.hub.gateOpen 1 = true →
        t.hub.rst.held = true ∧ t.aon.hubStep = some tm) ∧
      (s.pointer.nextPart = some 1 → s.hub.isActive = true → t = s.at tm) ∧
      (∀ i l, s.pointer.nextPart = some i → stepLane (i + 1) = some l → s.anyEasy = false → s.voters.length = 3 → s.hub.gateOpen 1 = true →
        (s.hub.mbxA.cmds.filter fun d => decide (s.lastCatch ≤ d.t)).length < 16 →
        t.hub.fget UPD_STAT_STEP = i + 1 ∧ (s.at tm).Committed t 0x07FF [l.idx] [] ∧ ∀ k, t.lane k = s.lane k) ∧
      (∀ i, s.pointer.nextPart = some i → s.stepMay i = true → s.hub.gateOpen 1 = false → s.OnlyHub t ∧ s.hub.OnlyRegs t.hub [NVW_STAT] ∧
        t.hub.fget NVW_STAT_DEFCNT = satInc 65535 (s.hub.fget NVW_STAT_DEFCNT))) ∧
  (∀ (s : State) (l : LaneId) (tn : Nat), stepLane (s.hub.fget UPD_STAT_STEP) = some l → s.hub.upd.stepT = some tn → s.stepDone = false →
    ∃ t, exec (.rollingStepTimeout) s = .next t ∧
      (s.lastCatch < tn + 64 * s.hub.set.period * 1000000 → (s.lane l).on VOTE_READM_FAILED = false → t = s) ∧
      ((tn + 64 * s.hub.set.period * 1000000 ≤ s.lastCatch ∨ (s.lane l).on VOTE_READM_FAILED = true) →
        t.hub.on UPD_STAT_REVERTED = true ∧ t.hub.fget UPD_STAT_STEP = 0 ∧ t.hub.upd.stopped = true ∧
          ((∃ y, y ≠ l ∧ (s.lane y).inVote = true) → ∀ k, k ≠ l → t.lane k = s.lane k))) ∧
  (∀ (s : State) (t0 tm : Nat), s.aon.hubStep = some t0 →
    ∃ t, exec (.hubReadyTimeout tm) s = .next t ∧
      (tm < t0 + 2000000000 → t = s.at tm) ∧
      (t0 + 2000000000 ≤ tm → s.hub.ready = false → t.hub.rst.held = true ∧ t.aon = { s.aon with hubStep := none, hubRevert := true } ∧
        t.hub.rg HRST_CAUSE &&& 0xFF#32 = s.hub.rg HRST_CAUSE &&& 0xFF#32))

/-- HOLD_SENSE_SAMPLE, DROOP_CHECK and GATED_WRITE_RETRY (R476 to R480): three low samples in a row are a power failure, which ends recording; the droop
check gives its verdict once per hub start, from 70 % to 130 % of the configured capacitance; a deferred write stays until the store allows it or
its command's budget ends. LOADER_FRAME (R473): outside the loader and with a wrong check value it does nothing. -/
def Obligations.WritesWaitForTheHoldUpStore : Prop :=
  (∀ (s : State) (code tm : Nat), s.hub.up = true → s.hub.on NVW_STAT_PF = false →
    (let v := storeVolts s.hub.set.huDiv (code % 4096)
     let avg := meanOf ((v :: s.hub.upd.samples).take 2000)
     let low := 100 * v < 95 * avg ∨ v < s.hub.set.huVmin * 1000
     ∃ t, exec (.holdSenseSample code tm) s = .next t ∧ t.hub.fget NVW_VSENSE_CODE = code % 4096 ∧ t.hub.upd.vavg = avg ∧
       (∀ l, t.lane l = s.lane l) ∧ t.flash0 = s.flash0 ∧
       (¬ low → t.hub.upd.lowRun = 0 ∧ t.hub.on NVW_STAT_PF = false ∧ t.flash1 = s.flash1) ∧
       (low → s.hub.upd.lowRun < 2 → t.hub.upd.lowRun = s.hub.upd.lowRun + 1 ∧ t.hub.on NVW_STAT_PF = false ∧ t.flash1 = s.flash1) ∧
       (low → 2 ≤ s.hub.upd.lowRun → t.hub.on NVW_STAT_PF = true ∧ t.hub.on REC_STAT_RUN = false ∧ t.hub.rcd.unflushed = []))) ∧
  (∀ (s : State) (us : Nat), s.hub.up = true →
    ∃ t, exec (.droopCheck us) s = .next t ∧ s.OnlyHub t ∧ s.hub.RegsKept t.hub [NVW_ENERGY, NVW_STAT] ∧
      (s.hub.upd.droopRun = true → t.hub = s.hub) ∧
      (s.hub.upd.droopRun = false →
        (let c := s.hub.set.huIchg * us / 2000
         t.hub.upd = { s.hub.upd with droopRun := true } ∧ t.hub.fget NVW_ENERGY_CMEAS = min 65535 c ∧
         (t.hub.on NVW_STAT_CVALID = true ↔ 7 * s.hub.set.huC ≤ 10 * c ∧ 10 * c ≤ 13 * s.hub.set.huC) ∧
         t.hub.on NVW_STAT_CFAIL = !t.hub.on NVW_STAT_CVALID))) ∧
  (∀ (s : State) (tm : Nat) (g : GatedWrite) (r : CmdRef) (c : HostCmd), s.hub.up = true → s.hub.on NVW_STAT_PF = false →
    s.hub.upd.gated = [g] → g.cmd = some r → s.hub.cmdAt r.q r.slot = some c → s.hub.openCmd r.q r.slot = some c →
    ∃ t, exec (.gatedWriteRetry tm) s = .next t ∧
      (s.hub.gateOpen g.pages = false → t.flash0 = s.flash0 ∧ t.flash1 = s.flash1 ∧
        (tm < g.t0 + s.hub.budgetOf c → t.hub.upd.gated = [g] ∧ t.hub.host = s.hub.host) ∧
        (g.t0 + s.hub.budgetOf c ≤ tm → t.hub.upd.gated = [] ∧ t.hub.Ended c 9 0 0 [])) ∧
      (s.hub.gateOpen g.pages = true → g.kind = .block → g.bytes.length = 65536 →
        t.hub.upd.gated = [] ∧ flashBytes t.flash0 g.addr 65536 = g.bytes ∧ t.flash1 = s.flash1)) ∧
  (∀ (s : State) (uart : Bool) (tag : Half) (idx cnt : Nat) (bytes : List Byte) (crc : Word),
    ((s.hub.upd.loader = false ∨ 1024 < bytes.length ∨ cnt ≤ idx ∨ crc32c (loaderContent tag.toNat idx cnt bytes) ≠ crc.toNat) →
      exec (.loaderFrame uart tag idx cnt bytes crc) s = .next s) ∧
    (s.hub.upd.loader = true → bytes.length ≤ 1024 → idx < 2 → cnt = 2 → crc32c (loaderContent tag.toNat idx cnt bytes) = crc.toNat →
      s.hub.upd.frags = [] →
      ∃ t, exec (.loaderFrame uart tag idx cnt bytes crc) s = .next t ∧ s.OnlyHub t ∧ t.hub.reg = s.hub.reg ∧
        t.hub.upd = { s.hub.upd with frags := [(tag.toNat, idx, bytes)] }))

/-- CLOCK_MONITOR_WINDOW, CRYSTAL_STOP, PLL_UNLOCK, XT_RECOVERY and AON_CLOCK_FAIL (R485 to R488, R496): two bad windows in a row, a stopped crystal or
a lost lock makes a voter leave with reason CLOCK and its reset due 10 µs later, held until the crystal is good; XT stops the ticks and resets
nothing; the RTC stands still. -/
def Obligations.ClockFailuresStopTheirDieAlone : Prop :=
  (∀ (s : State) (l : LaneId) (cnt xt tm : Nat), (s.lane l).rst.held = false →
    ∃ t, exec (.clockMonitorWindow (.lane l) cnt xt tm) s = .next t ∧
      ((∃ y, y ≠ l ∧ (s.lane y).inVote = true) → ∀ k, k ≠ l → t.lane k = s.lane k) ∧
      (t.lane l).fget CLKC_STAT_XCNT = min 1023 cnt ∧
      (461 ≤ cnt → cnt ≤ 563 → t.hub = s.hub ∧ (s.lane l).RegsKept (t.lane l) [CLKC_STAT] ∧ (t.lane l).rst.badWin = 0) ∧
      ((cnt < 461 ∨ 563 < cnt) → (s.lane l).rst.badWin = 0 → t.hub = s.hub ∧ (s.lane l).RegsKept (t.lane l) [CLKC_STAT] ∧
        (t.lane l).rst.badWin = 1) ∧
      ((cnt < 461 ∨ 563 < cnt) → (s.lane l).rst.badWin = 1 → (s.lane l).rst.due = none → (s.lane l).inVote = true → (s.lane l).easy = false →
        (t.lane l).inVote = false ∧ (t.lane l).fget VOTE_LEAVE_REASON = 8 ∧ (t.lane l).on CLKC_STAT_XFAIL = true ∧
        (t.lane l).rst.clkHold = true ∧ (t.lane l).rst.due = some (false, 6, max s.now tm + 10000))) ∧
  (∀ (s : State) (l : LaneId) (pll : Bool) (tm : Nat), (s.lane l).rst.held = false → (s.lane l).rst.due = none → (s.lane l).inVote = true →
    (s.lane l).easy = false →
    (∃ t, exec (.crystalStop (.lane l) false tm) s = .next t ∧ ((∃ y, y ≠ l ∧ (s.lane y).inVote = true) → ∀ k, k ≠ l → t.lane k = s.lane k) ∧
      (t.lane l).inVote = false ∧ (t.lane l).fget VOTE_LEAVE_REASON = 8 ∧ (t.lane l).on CLKC_STAT_XOK = false ∧
      (t.lane l).rst.due = some (false, 6, max s.now tm + 10000)) ∧
    (∃ t, exec (.pllUnlock (.lane l) false pll tm) s = .next t ∧ ((∃ y, y ≠ l ∧ (s.lane y).inVote = true) → ∀ k, k ≠ l → t.lane k = s.lane k) ∧
      (t.lane l).inVote = false ∧ (t.lane l).fget VOTE_LEAVE_REASON = 8 ∧ (t.lane l).on CLKC_STAT_UNLOCK = true ∧
      (t.lane l).rst.due = some (false, 6, max s.now tm + 10000))) ∧
  (∀ (s : State) (early : Bool) (tm : Nat), s.hub.rst.held = false →
    (∃ t, exec (.crystalStop .hub true tm) s = .next t ∧ s.OnlyHub t ∧ s.hub.RegsKept t.hub [CLKC_HSTAT] ∧ t.hub.ticks = false ∧
      t.hub.rst = { s.hub.rst with badXt := 2, xtT := max s.now tm } ∧ t.hub.on CLKC_HSTAT_XT_OK = false) ∧
    (∃ t, exec (.pllUnlock .hub true early tm) s = .next t ∧ s.OnlyHub t ∧ s.hub.RegsKept t.hub [CLKC_HSTAT] ∧ t.hub.ticks = false ∧
      t.hub.rst = { s.hub.rst with badXt := 2, xtT := max s.now tm } ∧ t.hub.on CLKC_HSTAT_SDLOCK = false) ∧
    (∃ t, exec (.crystalStop .hub false tm) s = .next t ∧ t.hub.rst.held = true ∧ t.hub.rst.cold = false ∧
      t.hub.rst.clkHold = true ∧ t.hub.on HRST_CAUSE_CLKF = true ∧ t.hub.sram = s.hub.sram) ∧
    (∃ t, exec (.pllUnlock .hub false early tm) s = .next t ∧ t.hub.rst.held = true ∧ t.hub.rst.cold = false ∧
      t.hub.rst.clkHold = true ∧ t.hub.on HRST_CAUSE_CLKF = true ∧ t.hub.sram = s.hub.sram)) ∧
  (∀ (s : State) (since : Nat), s.hub.up = true → s.hub.upd.loader = false → s.hub.ticks = false → s.hub.rst.badXt = 0 →
    ∃ t, exec (.xtRecovery since) s = .next t ∧ s.OnlyHub t ∧
      (s.hub.rst.xtT + 10000000 ≤ s.hub.published + since → t.hub.ticks = true ∧ t.hub.tb = s.hub.published + since ∧ t.hub.rst = s.hub.rst ∧
        t.hub.on CLKC_HSTAT_XT_OK = true) ∧
      (s.hub.published + since < s.hub.rst.xtT + 10000000 → t.hub = s.hub)) ∧
  (∀ s : State, ∃ t, exec (.aonClockFail) s = .next t ∧ t.hub.on CLKC_HSTAT_AON_FAIL = true ∧ t.hub.on CLKC_HSTAT_AON_OK = false ∧
    t.rtcNow = s.rtcNow ∧ (∀ n, ({ t with now := n } : State).rtcNow = s.rtcNow) ∧ ∀ l, t.lane l = s.lane l)

/-- RESET_N_ASSERT, RESET_N_RELEASE, POWER_ON_RESET, BROWN_OUT, RSTC_SWR, DEBUG_RESET_REQUEST, HUB_WATCHDOG_EXPIRY and HUB_LOCKUP (R489 to R493, R497):
which dies each resets, warm or cold, the cause it leaves, and what survives; a voter whose reset firmware or a debugger asks for leaves first. -/
def Obligations.ResetsReachTheirDiesAndMarkTheirCause : Prop :=
  (∀ (s : State) (tm : Nat), s.aon.resetNLow = none →
    ∃ t, exec (.resetNAssert tm) s = .next t ∧ t.aon.resetNLow = some tm ∧ t.hub.rst.held = true ∧ t.hub.on HRST_CAUSE_PIN = true ∧
      t.fieldRst.held = true ∧ t.flash0 = s.flash0 ∧ t.flash1 = s.flash1 ∧
      ∀ l, (t.lane l).rst.held = true ∧ (t.lane l).on RST_CAUSE_PIN = true ∧ (t.lane l).fld.dyn = 0 ∧
        ((s.lane l).rst.held = false → (t.lane l).sram = (s.lane l).sram)) ∧
  (∀ (s : State) (t0 tm : Nat), s.aon.resetNLow = some t0 →
    ∃ t, exec (.resetNRelease tm) s = .next t ∧ t.aon = { s.aon with resetNLow := none } ∧
      (tm < t0 + 100000000 → ∀ l, t.lane l = s.lane l) ∧
      (t0 + 100000000 ≤ tm → t.hub.rst.cold = true ∧ ∀ l, (t.lane l).rst.cold = true ∧ (t.lane l).rst.held = true ∧ (t.lane l).sram = [] ∧
        (t.lane l).rst.trimOk = false)) ∧
  (∀ (s : State) (l : LaneId) (tm : Nat),
    ∃ t, exec (.powerOnReset (.lane l) false tm) s = .next t ∧ (∀ k, k ≠ l → t.lane k = s.lane k) ∧ (t.lane l).rst.held = true ∧
      (t.lane l).reg = [(RST_CAUSE, 1#32)] ∧ (t.lane l).sram = [] ∧ (t.lane l).rst.trimFail = false) ∧
  (∀ (s : State) (tm : Nat),
    ∃ t, exec (.powerOnReset .hub false tm) s = .next t ∧ t.hub.rst.held = true ∧ t.hub.rg HRST_CAUSE = 1#32 ∧
      t.hub.fget HCMD_STAT_EPOCH = 0 ∧ t.flash0 = s.flash0 ∧ t.flash1 = s.flash1) ∧
  (∀ (s : State) (d : Die) (tm : Nat),
    ∃ t, exec (.powerOnReset d true tm) s = .next t ∧ t.hub.rg HRST_CAUSE = 0x1001#32 ∧ t.hub.sram = [] ∧ t.fuses = s.fuses ∧
      t.flash0 = s.flash0 ∧ t.flash1 = s.flash1 ∧ (∀ l, t.lane l = laneReset l) ∧ t.pending = s.pending ∧ t.now = max s.now tm) ∧
  (∀ (s : State) (rail tm : Nat),
    (∀ l, ∃ t, exec (.brownOut (.lane l) rail tm) s = .next t ∧ (∀ k, k ≠ l → t.lane k = s.lane k) ∧ t.hub = s.hub ∧
      (t.lane l).rst.held = true ∧ (t.lane l).rst.cold = true ∧ (t.lane l).on RST_CAUSE_BOR = true ∧
      (t.lane l).fget RST_CAUSE_BORRAIL = rail % 8 ∧ (t.lane l).sram = [] ∧ (t.lane l).fld.dyn = 0) ∧
    (∃ t, exec (.brownOut .hub rail tm) s = .next t ∧ t.hub.rst.held = true ∧ t.hub.rst.cold = true ∧ t.hub.on HRST_CAUSE_BOR = true ∧
      t.hub.fget HRST_CAUSE_BORRAIL = rail % 8) ∧
    (∃ t, exec (.brownOut .field rail tm) s = .next t ∧ t.field.powered = false ∧ t.fieldRst.held = true ∧ t.hub = s.hub ∧
      ∀ l, t.lane l = s.lane l)) ∧
  (∀ (s : State) (l : LaneId) (v : Word) (tm : Nat), (s.lane l).rst.held = false →
    ∃ t, exec (.rstcSwr (.lane l) v tm) s = .next t ∧ ((∃ y, y ≠ l ∧ (s.lane y).inVote = true) → ∀ k, k ≠ l → t.lane k = s.lane k) ∧
      ((bvField v 16 16 ≠ 0xA55A ∨ v.getLsbD 0 = false) → t = s.at tm) ∧
      (bvField v 16 16 = 0xA55A → v.getLsbD 0 = true →
        ((s.lane l).inVote = false → (t.lane l).rst.held = true ∧ (t.lane l).rst.cold = v.getLsbD 1 ∧ (t.lane l).on RST_CAUSE_SWR = true) ∧
        ((s.lane l).inVote = true → (s.lane l).easy = false → (t.lane l).rst.held = false ∧ (t.lane l).inVote = false ∧
          (t.lane l).fget VOTE_LEAVE_REASON = 0xC ∧ (t.lane l).rst.due = some (v.getLsbD 1, 4, max s.now tm + 10000)))) ∧
  (∀ (s : State) (l : LaneId), (s.lane l).rst.held = false →
    ∃ t, exec (.debugResetRequest (.lane l)) s = .next t ∧ ((∃ y, y ≠ l ∧ (s.lane y).inVote = true) → ∀ k, k ≠ l → t.lane k = s.lane k) ∧
      ((s.lane l).inVote = false → (s.lane l).easy = false → (t.lane l).rst.held = true ∧ (t.lane l).on RST_CAUSE_DBG = true) ∧
      ((s.lane l).inVote = true → (s.lane l).easy = false → (t.lane l).fget VOTE_LEAVE_REASON = 0xB ∧
        (t.lane l).rst.due = some (false, 5, s.now + 10000))) ∧
  (∀ s : State, s.hub.rst.held = false →
    (∃ t, exec (.debugResetRequest .hub) s = .next t ∧ t.hub.rst.held = true ∧ t.hub.rst.cold = false ∧ t.hub.on HRST_CAUSE_DBG = true ∧ t.hub.sram = s.hub.sram ∧
      t.field = s.field ∧ t.flash0 = s.flash0 ∧ t.flash1 = s.flash1 ∧ t.aon = s.aon) ∧
    (∃ t, exec (.hubWatchdogExpiry) s = .next t ∧ t.hub.rst.held = true ∧ t.hub.rst.cold = false ∧ t.hub.on HRST_CAUSE_WDT = true ∧ t.hub.sram = s.hub.sram ∧
      t.field = s.field ∧ t.flash0 = s.flash0 ∧ t.flash1 = s.flash1 ∧ t.aon = s.aon) ∧
    (∃ t, exec (.hubLockup) s = .next t ∧ t.hub.rst.held = true ∧ t.hub.rst.cold = false ∧ t.hub.on HRST_CAUSE_LOCKUP = true ∧ t.hub.sram = s.hub.sram ∧
      t.field = s.field ∧ t.flash0 = s.flash0 ∧ t.flash1 = s.flash1 ∧ t.aon = s.aon))

/-- TRIM_LOAD_DONE and RESET_RELEASE (R495, R497, R498): a load ends in valid trim or counts; the third failure holds the die for good; a die is
released only with trim, supply, clock and zero-fill; the hub starts its firmware, or the recovery loader when no slot verifies. -/
def Obligations.DiesAreReleasedWithValidTrim : Prop :=
  (∀ (s : State) (l : LaneId) (ok : Bool), (s.lane l).rst.loading = true →
    ∃ t, exec (.trimLoadDone (.lane l) ok) s = .next t ∧ (∀ k, k ≠ l → t.lane k = s.lane k) ∧ (t.lane l).rst.trimOk = ok ∧
      (t.lane l).on RSTC_STAT_TRIMOK = ok ∧
      (ok = true → t.hub = s.hub) ∧
      (ok = false → (t.lane l).rst.trimFails = satInc 3 (s.lane l).rst.trimFails ∧
        (2 ≤ (s.lane l).rst.trimFails → (t.lane l).rst.trimFail = true ∧ getField (t.hub.fget RSTC_TRIM_TRIMFAIL) l.idx 1 = 1) ∧
        ((s.lane l).rst.trimFails < 2 → (t.lane l).rst.trimFail = false ∧ t.hub = s.hub))) ∧
  (∀ (s : State) (l : LaneId) (strap : Bool) (tm : Nat),
    ∃ t, exec (.resetRelease (.lane l) strap tm) s = .next t ∧ (∀ k, k ≠ l → t.lane k = s.lane k) ∧ t.hub = s.hub ∧
      (((s.lane l).rst.held = false ∨ (s.lane l).rst.trimOk = false ∨ (s.lane l).rst.trimFail = true ∨ (s.lane l).rst.clkHold = true ∨
          (s.lane l).rst.supHold = true ∨ s.aon.resetNLow.isSome = true ∨ s.aon.laneEn l = false) → t = s.at tm) ∧
      ((s.lane l).rst.mayRelease (.lane l) tm = true → s.aon.laneEn l = true → s.aon.pwr.hubPowered = true → s.aon.resetNLow = none →
        s.hub.upd.loader = false →
        (t.lane l).rst.held = false ∧ (t.lane l).rst.relT = tm ∧ (t.lane l).on LCTL_STAT_STRAP = strap ∧ t.aon.bench = strap ∧
        (t.lane l).rg RST_CAUSE = (s.lane l).rg RST_CAUSE)) ∧
  (∀ (s : State) (strap : Bool) (tm : Nat),
    ∃ t, exec (.resetRelease .hub strap tm) s = .next t ∧
      (s.hub.rst.mayRelease .hub tm = false → t = s.at tm) ∧
      (s.hub.rst.mayRelease .hub tm = true → s.aon.pwr.hubPowered = true → s.aon.resetNLow = none →
        t.hub.rst.held = false ∧ t.aon.hostSel = strap ∧ t.hub.up = true ∧
        t.hub.upd.loader = (s.hub.upd.loader || !(s.slotVerifies 0 || s.slotVerifies 1)) ∧
        t.hub.on HCMD_STAT_READY = (s.hub.on HCMD_STAT_READY || s.slotVerifies 0 || s.slotVerifies 1) ∧
        (s.slotVerifies 0 = false → s.slotVerifies 1 = false → t.aon.faultN = true ∧ ∀ l, t.lane l = s.lane l))) ∧
  (∀ (s : State) (strap : Bool) (tm : Nat), s.fieldRst.mayRelease .field tm = true → s.field.powered = true → s.aon.resetNLow = none →
    ∃ t, exec (.resetRelease .field strap tm) s = .next t ∧ t.fieldRst.held = false ∧ t.hub = s.hub ∧ ∀ l, t.lane l = s.lane l)

/-- SUPPLY_OUT_OF_RANGE, SUPPLY_SETTLED, HUB_VDDIO_RESTORED, PMBUS_REQUEST, PMBUS_ACK, PMBUS_ACK_TIMEOUT, PWRC_VSET_WRITE and HUB_TEMP_ALARM (R507 to
R510, R516, R541): a lane rail out of its window makes the voter leave with reason SUPPLY and holds its reset; a hub rail resets the hub, `VDDIO`
drives `FAULT_N`; a request is acknowledged only by power good and a clean status without a PEC error, and its timeout restores the previous voltage
or, at a wake, is tried again three times. HIBERNATE, HIBERNATE_ENTRY_STEP, WAKE_EVENT, WAKE_SEQUENCE_STEP and BIST_DONE (R512 to R517, R521 to
R523): only a module without voters and with a wake source enters; the rails, the ports and the hub go in order, a wake event in between is latched;
a wake raises the rails in order and ends with every rail; a self-test result takes force in a lane that has not armed and stands in the retained
region. -/
def Obligations.SuppliesAndHibernationGoInOrder : Prop :=
  ((∀ (s : State) (l : LaneId) (rail tm : Nat), (s.lane l).rst.held = false → (s.lane l).inVote = true → (s.lane l).easy = false →
     ∃ t, exec (.supplyOutOfRange (.lane l) rail tm) s = .next t ∧ ((∃ y, y ≠ l ∧ (s.lane y).inVote = true) → ∀ k, k ≠ l → t.lane k = s.lane k) ∧ (t.lane l).inVote = false ∧
       (t.lane l).fget VOTE_LEAVE_REASON = 7 ∧ (t.lane l).on PWRC_STAT_SUPLEAVE = true ∧ (t.lane l).on (supBit rail) = false ∧
       (t.lane l).rst.supHold = true ∧ (t.lane l).fld.dyn = 0) ∧
   (∀ (s : State) (rail tm : Nat), s.hub.rst.held = false →
     ∃ t, exec (.supplyOutOfRange .hub rail tm) s = .next t ∧
       (rail = 1 → t.aon.faultN = true ∧ t.hub.rst = s.hub.rst ∧ ∀ l, t.lane l = s.lane l) ∧
       (rail ≠ 1 → t.hub.rst.held = true ∧ t.hub.rst.cold = false ∧ t.hub.on PWRC_HSTAT_SUPRST = true)) ∧
   (∀ s : State, ∃ t, exec (.hubVddioRestored) s = .next t ∧ t.aon.faultWhy = s.aon.faultWhy &&& 0x1B#5 ∧ t.aon.faultN = decide (t.aon.faultWhy ≠ 0) ∧
     ∀ l, t.lane l = s.lane l) ∧
   (∀ (s : State) (l : LaneId) (tm : Nat),
     (∃ t, exec (.supplySettled l tm) s = .next t ∧ s.OnlyLane t l ∧ (s.lane l).RegsKept (t.lane l) [PWRC_STAT] ∧
       (tm < (s.lane l).rst.supT + 100000 → t.lane l = s.lane l) ∧
       ((s.lane l).rst.supT + 100000 ≤ tm →
         t.lane l = { s.lane l with reg := (t.lane l).reg, rst := { (s.lane l).rst with supHold := false } } ∧
           ∀ rail, rail < 3 → (t.lane l).on (supBit rail) = true)) ∧
     (∃ t, exec (.pmbusRequest (.lane l) tm) s = .next t ∧ s.OnlyLane t l ∧ (s.lane l).RegsKept (t.lane l) [PWRC_STAT] ∧
       (t.lane l).on PWRC_STAT_BUSY = true ∧ (t.lane l).on PWRC_STAT_ACK = false ∧ (t.lane l).rst.vTarget = (s.lane l).fget PWRC_VSET_MV ∧
       (t.lane l).rst.pmbOut = some ((s.lane l).set.pmbAddr.getD (s.lane l).id.idx 0,
         if (s.lane l).on PWRC_STAT_ACK then [(s.lane l).set.vout (s.lane l).id.idx ((s.lane l).fget PWRC_VSET_MV)]
         else [.clearFaults, (s.lane l).set.vout (s.lane l).id.idx ((s.lane l).fget PWRC_VSET_MV), .operation 0x80]) ∧
       (t.lane l).rst.pmbT = tm + 1) ∧
     (∀ (pg pec : Bool) (sw : Half), ∃ t, exec (.pmbusAck (.lane l) pg sw pec tm) s = .next t ∧ s.OnlyLane t l ∧
       (s.lane l).RegsKept (t.lane l) [PWRC_STAT] ∧ (t.lane l).on PWRC_STAT_PG = pg ∧
       ((pec = true ∨ pg = false ∨ sw.getLsbD 15 = true ∨ sw.getLsbD 11 = true ∨ sw.getLsbD 6 = true) → (t.lane l).rst = (s.lane l).rst ∧
         (t.lane l).on PWRC_STAT_ACK = (s.lane l).on PWRC_STAT_ACK) ∧
       (pec = false → pg = true → sw.getLsbD 15 = false → sw.getLsbD 11 = false → sw.getLsbD 6 = false → (s.lane l).rst.pmbT ≠ 0 →
         tm + 1 ≤ (s.lane l).rst.pmbT + 5000000 →
         (t.lane l).on PWRC_STAT_ACK = true ∧ (t.lane l).on PWRC_STAT_BUSY = false ∧ (t.lane l).rst.vPrev = (s.lane l).rst.vTarget ∧
         (t.lane l).rst.pmbT = 0))) ∧
   (∀ (s : State) (l : LaneId) (tm : Nat), (s.lane l).rst.pmbT ≠ 0 →
     ∃ t, exec (.pmbusAckTimeout (.lane l) tm) s = .next t ∧
       (tm + 1 < (s.lane l).rst.pmbT + 5000000 → t = s.at tm) ∧
       ((s.lane l).rst.pmbT + 5000000 ≤ tm + 1 →
         (s.waking = false → s.OnlyLane t l ∧ (t.lane l).on PWRC_STAT_PMB_ERR = true ∧ (t.lane l).on PWRC_STAT_BUSY = false ∧
           (t.lane l).rst.vTarget = (s.lane l).rst.vPrev ∧ (t.lane l).rst.pmbT = 0) ∧
         (s.waking = true → (s.lane l).rst.pmbRetry < 3 →
           (t.lane l).rst.pmbRetry = (s.lane l).rst.pmbRetry + 1 ∧ t.hub.fget PWRC_HSTAT_FAILRAIL = l.idx + 1 ∧ t.aon = s.aon) ∧
         (s.waking = true → 3 ≤ (s.lane l).rst.pmbRetry → t.aon.pwr = .failed ∧ t.aon.faultN = true ∧ t.aon.enLA = false ∧ t.aon.enLB = false ∧
           t.aon.enLC = false ∧ t.hub.on PWRC_HSTAT_WAKEFAIL = true ∧ ∀ k, (t.lane k).rst.held = true))) ∧
   (∀ (s : State) (l : LaneId) (v : Word), (s.lane l).rst.held = false →
     ∃ t, exec (.pwrcVsetWrite l v) s = .next t ∧ s.OnlyLane t l ∧ (s.lane l).OnlyRegs (t.lane l) [PWRC_VSET] ∧
       ((s.lane l).unarmed = true → 800 ≤ bvField v 0 10 → bvField v 0 10 ≤ 950 → bvField v 0 10 % 5 = 0 →
         (t.lane l).fget PWRC_VSET_MV = bvField v 0 10) ∧
       (((s.lane l).unarmed = false ∨ bvField v 0 10 < 800 ∨ 950 < bvField v 0 10 ∨ bvField v 0 10 % 5 ≠ 0) →
         (t.lane l).reg = (s.lane l).reg)) ∧
   (∀ (s : State) (high : Bool), s.hub.rst.held = false → s.hub.hot = !high →
     ∃ t, exec (.hubTempAlarm high) s = .next t ∧ s.OnlyHub t ∧ t.hub.hot = high ∧ s.hub.RegsKept t.hub [REC_STAT])) ∧
  ((∀ (s : State) (r : CmdRef) (mask : Byte) (tm : Nat) (c : HostCmd), s.activeCmd r 0x0A03 = some c →
     ∃ t, exec (.hibernate r mask tm) s = .next t ∧
       (s.voters ≠ [] → s.Ends t c 6 0 0 []) ∧
       (s.voters = [] → bvField mask 0 4 = 0 → s.Ends t c 3 0 0 []) ∧
       (s.voters = [] → bvField mask 0 4 ≠ 0 → t.hub.Ended c 0 0 0 [] ∧ t.hub.fget PWRC_WAKE_MASK = bvField mask 0 4 ∧
         t.aon = { s.aon with pwr := .entry 1, entryT := tm, wakeLatched := 0, rtcAlarm := (s.at tm).rtcNow + s.hub.set.hibRtc, bistBad := 0,
                              bistHub := mask.getLsbD 7, bistLanes := if mask.getLsbD 7 = true then allLanes.filter (fun l => (s.lane l).up) else [] } ∧
         ∀ l, (s.lane l).rst.held = false → (t.lane l).on VOTE_STAT_DYN_EN = false ∧ (t.lane l).fld.dyn = 0)) ∧
   (∀ (s : State) (pg : BitVec 4) (tm : Nat),
     ∃ t, exec (.hibernateEntryStep pg tm) s = .next t ∧
       (s.aon.pwr = .entry 1 → s.aon.bistLanes ≠ [] → t = s.at tm) ∧
       (s.aon.pwr = .entry 3 → s.aon.bistHub = true → t = s.at tm) ∧
       (s.aon.pwr = .entry 1 → s.aon.bistLanes = [] → s.aon.entryT + 1000000 ≤ tm →
         t.aon = { s.aon with enLA := false, enLB := false, enLC := false, pwr := .entry 2 } ∧ t.hub.ticks = false ∧
         (∀ k, k < 6 → t.hub.on (RING_CTRL_EN k) = false) ∧ ∀ l, (t.lane l).rst.held = true ∧ (t.lane l).sram = []) ∧
       (s.aon.pwr = .entry 2 → s.aon.entryT + 4000000 ≤ tm → t.aon = { s.aon with pwr := .entry 3 } ∧
         t.hub = { s.hub with rst := { s.hub.rst with pmbOut := some (s.hub.set.pmbAddr.getD 3 0, [.operation 0x00]) } }) ∧
       (s.aon.pwr = .entry 3 → s.aon.bistHub = false → s.aon.entryT + 5000000 ≤ tm → t.aon = { s.aon with enSD := false, pwr := .entry 4 } ∧
         t.hub.on HSRAM_STAT_FROZEN = true ∧ t.hub.rg HSRAM_RSEQ = s.hub.rg HSRAM_RSEQ + 1) ∧
       (s.aon.pwr = .entry 4 → s.aon.entryT + 12000000 ≤ tm → t.hub.rst.held = true ∧
         (∀ o, 0x08E00000 ≤ o → memByte t.hub.sram o = memByte s.hub.sram o) ∧
         (s.aon.wakeLatched = 0 → t.aon.pwr = .hibernate) ∧ (s.aon.wakeLatched ≠ 0 → t.aon.pwr = .wake 0)) ∧
       (s.aon.pwr = .entry 1 → tm < s.aon.entryT + 1000000 → t = s.at tm)) ∧
   (∀ (s : State) (src : BitVec 4) (tm : Nat),
     (let m := (s.at tm).wakeSrc src
      ∃ t, exec (.wakeEvent src tm) s = .next t ∧ (m = 0 → t = s.at tm) ∧
       (∀ k, s.aon.pwr = .entry k → t.aon = { s.aon with wakeLatched := s.aon.wakeLatched ||| m }) ∧
       (m ≠ 0 → (s.aon.pwr = .hibernate ∨ s.aon.pwr = .failed) → t.aon.pwr = .wake 0 ∧ t.hub.fget PWRC_WAKE_SRC = m.toNat) ∧
       (s.aon.pwr = .run → t = s.at tm))) ∧
   (∀ (s : State) (tm : Nat),
     ∃ t, exec (.wakeSequenceStep tm) s = .next t ∧
       (s.aon.pwr = .wake 0 → s.hub.up = true → t.aon.pwr = .wake 1 ∧ t.hub = s.hub) ∧
       (s.aon.pwr = .wake 0 → s.hub.up = false → t = s.at tm) ∧
       (s.aon.pwr = .wake 1 → t.aon.pwr = .wake 2 ∧ t.aon.enSD = true ∧ t.hub = s.hub) ∧
       (s.aon.pwr = .wake 3 → s.aon.entryT + 1000000 ≤ tm → t.aon.pwr = .wake 4 ∧ t.aon.enLB = true ∧ t.aon.enLC = s.aon.enLC) ∧
       (s.aon.pwr = .wake 3 → tm < s.aon.entryT + 1000000 → t = s.at tm) ∧
       (s.aon.pwr = .wake 5 → (∀ l, (s.lane l).rst.held = false ∧ (s.lane l).on PWRC_STAT_ACK = true) →
         t.aon.pwr = .run ∧ t.hub.fget PWRC_HSTAT_LANEOFF = 0 ∧ t.hub.on PWRC_HSTAT_WAKEFAIL = false)) ∧
   (∀ (s : State) (strap : Bool) (tm : Nat), s.waking = true → s.hub.rst.mayRelease .hub tm = true → s.aon.resetNLow = none →
     ∃ t, exec (.resetRelease .hub strap tm) s = .next t ∧ t.hub.rst.held = false ∧ t.hub.on HSRAM_STAT_FROZEN = false ∧
       ∀ n, n < 4 → getField (t.hub.fget HSRAM_STAT_RVALID) n 1 = b2n (s.hub.bankKept n)) ∧
   (∀ (s : State) (l : LaneId) (kind : Nat) (records : List (List Byte)) (cov : Nat) (lfail unrep : Bool) (upset : List Host.Cell) (rtc : Nat),
     (s.lane l).rst.held = false → s.aon.pwr = .run → kind ≠ 1 →
     ∃ t, exec (.bistDone (.lane l) kind records cov lfail unrep upset rtc) s = .next t ∧ (∀ k, k ≠ l → t.lane k = s.lane k) ∧ t.aon.rtc = rtc ∧
       ((s.lane l).unarmed = false → (s.lane l).joining = false → t.lane l = s.lane l ∧ t.hub = s.hub) ∧
       (((s.lane l).unarmed = true ∨ (s.lane l).joining = true) → kind = 2 → (t.lane l).on BIST_STAT_VALID = true ∧
         (t.lane l).on BIST_STAT_FULL = true ∧ (s.lane l).RegsKept (t.lane l) [BIST_STAT] ∧ (lfail = true → (t.lane l).on BIST_STAT_LFAIL = true)) ∧
       (((s.lane l).unarmed = true ∨ (s.lane l).joining = true) → kind = 3 →
         (t.lane l).on BIST_STAT_VALID = false ∧ (t.lane l).on BIST_STAT_SKIPPED = true)))
end

