-- ==== Sys2Proof/Laws/Bytes.lean ====
section
/-! SUPPORT. Big-endian numbers, the frames that carry a check value, and consensus frames: what a frame formed by the model reads back as. -/

namespace Sys2Proof.Machine

/-! ### Numbers in bytes -/

theorem leBytes_length (n x : Nat) : (leBytes n x).length = n := by
  induction n generalizing x with
  | zero => rfl
  | succ n ih => simp [leBytes, ih]

@[simp] theorem beBytes_length (n x : Nat) : (beBytes n x).length = n := by
  rw [beBytes, List.length_reverse, leBytes_length]

theorem ofLe_leBytes (n x : Nat) : ofLe (leBytes n x) = x % 256 ^ n := by
  induction n generalizing x with
  | zero => simp [leBytes, ofLe, Nat.mod_one]
  | succ n ih =>
    have h : x % 256 ^ (n + 1) = x % 256 + 256 * (x / 256 % 256 ^ n) := by rw [Nat.pow_succ', Nat.mod_mul]
    rw [leBytes, ofLe, ih, BitVec.toNat_ofNat, h]

theorem ofBe_beBytes (n x : Nat) : ofBe (beBytes n x) = x % 256 ^ n := by
  rw [ofBe, beBytes, List.reverse_reverse, ofLe_leBytes]

/-- A number stands where its bytes were put. -/
theorem beAt_append (a c : List Byte) (n x : Nat) (h : x < 256 ^ n) : beAt (a ++ beBytes n x ++ c) a.length n = x := by
  rw [beAt, List.append_assoc, List.drop_left, List.take_left' (beBytes_length n x), ofBe_beBytes, Nat.mod_eq_of_lt h]

/-! ### Check values -/

theorem crcBitR_lt (p r : Nat) (hp : p < 2 ^ 32) (hr : r < 2 ^ 32) : crcBitR p r < 2 ^ 32 := by
  unfold crcBitR; split
  · exact Nat.xor_lt_two_pow (by omega) hp
  · omega

/-- A CRC-32C is a word. -/
theorem crc32c_lt (bs : List Byte) : crc32c bs < 2 ^ 32 := by
  have h : ∀ (bs : List Byte) (r : Nat), r < 2 ^ 32 → bs.foldl (crcByteR polyCrc32c) r < 2 ^ 32 := by
    intro bs; induction bs with
    | nil => exact fun r h => h
    | cons b bs ih =>
      intro r hr
      have hp : polyCrc32c < 2 ^ 32 := by decide
      refine ih _ ?_
      have hb : r ^^^ b.toNat < 2 ^ 32 := Nat.xor_lt_two_pow hr (by have := b.isLt; omega)
      unfold crcByteR eightTimes
      iterate 8 refine crcBitR_lt _ _ hp ?_
      exact hb
  exact Nat.xor_lt_two_pow (h bs _ (by decide)) (by decide)

theorem crcWord_toNat (bs : List Byte) : (BitVec.ofNat 32 (crc32c bs)).toNat = crc32c bs := by
  rw [BitVec.toNat_ofNat, Nat.mod_eq_of_lt (crc32c_lt bs)]

/-- A frame with its link CRC appended passes the check of that CRC (R288). -/
theorem lcrcOk_withLcrc (bs : List Byte) : lcrcOk (withLcrc bs) = true := by
  have hl : (withLcrc bs).length - 4 = bs.length := by simp [withLcrc]
  have hc : beAt (withLcrc bs) bs.length 4 = crc32c bs := by
    have := beAt_append bs [] 4 (crc32c bs) (crc32c_lt bs)
    rwa [List.append_nil] at this
  have ht : (withLcrc bs).take bs.length = bs := by simp [withLcrc]
  rw [lcrcOk, hl, hc, ht]
  simp [withLcrc]

/-! ### Partner frames -/

/-- A partner frame formed by one module reads back as its sequence and content in the other (R341, R342). -/
theorem partnerContent_partnerFrame (ty : Nat) (q : Word) (c : List Byte) (h : ty < 256) : partnerContent ty (partnerFrame ty q c) = some (q, c) := by
  have hf : partnerFrame ty q c = [] ++ beBytes 1 ty ++ (beBytes 4 q.toNat ++ c ++ beBytes 4 (crc32c (beBytes 1 ty ++ beBytes 4 q.toNat ++ c))) := by
    simp [partnerFrame, withLcrc]
  have hg : partnerFrame ty q c = beBytes 1 ty ++ beBytes 4 q.toNat ++ (c ++ beBytes 4 (crc32c (beBytes 1 ty ++ beBytes 4 q.toNat ++ c))) := by
    simp [partnerFrame, withLcrc]
  have hlen : (partnerFrame ty q c).length = c.length + 9 := by simp [hg]; omega
  have h1 : beAt (partnerFrame ty q c) 0 1 = ty := by rw [hf]; exact beAt_append [] _ 1 ty h
  have h2 : beAt (partnerFrame ty q c) 1 4 = q.toNat := by
    rw [hg]; exact beAt_append (beBytes 1 ty) _ 4 q.toNat (by have := q.isLt; omega)
  have h3 : (partnerFrame ty q c).drop 5 = c ++ beBytes 4 (crc32c (beBytes 1 ty ++ beBytes 4 q.toNat ++ c)) := by
    rw [hg]; exact List.drop_left' (by simp)
  rw [partnerContent, if_pos ⟨lcrcOk_withLcrc _, by omega, h1⟩, h2, h3, hlen, Nat.add_sub_cancel, List.take_left, BitVec.ofNat_toNat,
    BitVec.setWidth_eq]

/-! ### Consensus frames -/

@[simp] theorem entryBytes_length (e : ConsEntry) : (entryBytes e).length = 16 := by simp [entryBytes]
@[simp] theorem fieldImgBytes_length (f : FieldImg) : (fieldImgBytes f).length = 32 := by simp [fieldImgBytes]

theorem beBytes_one (x : Nat) : beBytes 1 x = [BitVec.ofNat 8 x] := by simp [beBytes, leBytes]

/-- A number reads back where its bytes stand, whatever is before and behind. -/
theorem beAt_of_eq {bs a c : List Byte} {k n x : Nat} (h : bs = a ++ (beBytes n x ++ c)) (hk : a.length = k) (hx : x < 256 ^ n) : beAt bs k n = x := by
  subst h hk; rw [← List.append_assoc]; exact beAt_append a c n x hx

theorem consEntryAt_append (a c : List Byte) (e : ConsEntry) (k : Nat) (hk : a.length = k) : consEntryAt (a ++ (entryBytes e ++ c)) k = e := by
  have h1 : beAt (a ++ (entryBytes e ++ c)) k 8 = e.conn.toNat :=
    beAt_of_eq (c := beBytes 4 e.seq.toNat ++ (beBytes 4 e.digest.toNat ++ c)) (by simp [entryBytes]) hk e.conn.isLt
  have h2 : beAt (a ++ (entryBytes e ++ c)) (k + 8) 4 = e.seq.toNat :=
    beAt_of_eq (a := a ++ beBytes 8 e.conn.toNat) (c := beBytes 4 e.digest.toNat ++ c) (by simp [entryBytes]) (by simp [hk]) e.seq.isLt
  have h3 : beAt (a ++ (entryBytes e ++ c)) (k + 12) 4 = e.digest.toNat :=
    beAt_of_eq (a := a ++ (beBytes 8 e.conn.toNat ++ beBytes 4 e.seq.toNat)) (c := c) (by simp [entryBytes]) (by simp [hk]) e.digest.isLt
  simp [consEntryAt, h1, h2, h3]

theorem fieldImgAt_append (a c : List Byte) (f : FieldImg) (k : Nat) (hk : a.length = k) : fieldImgAt (a ++ (fieldImgBytes f ++ c)) k = f := by
  have h1 : beAt (a ++ (fieldImgBytes f ++ c)) k 8 = f.inp.toNat :=
    beAt_of_eq (c := beBytes 8 f.qst.toNat ++ (beBytes 4 f.intest.toNat ++ (beBytes 6 f.enc0.toNat ++ (beBytes 6 f.enc1.toNat ++ c))))
      (by simp [fieldImgBytes]) hk f.inp.isLt
  have h2 : beAt (a ++ (fieldImgBytes f ++ c)) (k + 8) 8 = f.qst.toNat :=
    beAt_of_eq (a := a ++ beBytes 8 f.inp.toNat) (c := beBytes 4 f.intest.toNat ++ (beBytes 6 f.enc0.toNat ++ (beBytes 6 f.enc1.toNat ++ c)))
      (by simp [fieldImgBytes]) (by simp [hk]) f.qst.isLt
  have h3 : beAt (a ++ (fieldImgBytes f ++ c)) (k + 16) 4 = f.intest.toNat :=
    beAt_of_eq (a := a ++ (beBytes 8 f.inp.toNat ++ beBytes 8 f.qst.toNat)) (c := beBytes 6 f.enc0.toNat ++ (beBytes 6 f.enc1.toNat ++ c))
      (by simp [fieldImgBytes]) (by simp [hk]) f.intest.isLt
  have h4 : beAt (a ++ (fieldImgBytes f ++ c)) (k + 20) 6 = f.enc0.toNat :=
    beAt_of_eq (a := a ++ (beBytes 8 f.inp.toNat ++ (beBytes 8 f.qst.toNat ++ beBytes 4 f.intest.toNat))) (c := beBytes 6 f.enc1.toNat ++ c)
      (by simp [fieldImgBytes]) (by simp [hk]) f.enc0.isLt
  have h5 : beAt (a ++ (fieldImgBytes f ++ c)) (k + 26) 6 = f.enc1.toNat :=
    beAt_of_eq (a := a ++ (beBytes 8 f.inp.toNat ++ (beBytes 8 f.qst.toNat ++ (beBytes 4 f.intest.toNat ++ beBytes 6 f.enc0.toNat)))) (c := c)
      (by simp [fieldImgBytes]) (by simp [hk]) f.enc1.isLt
  simp [fieldImgAt, h1, h2, h3, h4, h5]

theorem entries_length (es : List ConsEntry) : (es.flatMap entryBytes).length = 16 * es.length := by
  induction es with
  | nil => rfl
  | cons e es ih => rw [List.flatMap_cons, List.length_append, ih, entryBytes_length, List.length_cons]; omega

theorem consEntries_append (a : List Byte) (es : List ConsEntry) :
    (upTo es.length).map (fun i => consEntryAt (a ++ es.flatMap entryBytes) (a.length + 16 * i)) = es := by
  induction es generalizing a with
  | nil => rfl
  | cons e es ih =>
    have hs := ih (a ++ entryBytes e)
    rw [upTo, List.length_cons, List.range_succ_eq_map, List.map_cons, List.map_map]
    have h0 : consEntryAt (a ++ (e :: es).flatMap entryBytes) (a.length + 16 * 0) = e := by
      rw [List.flatMap_cons]; exact consEntryAt_append a _ e _ rfl
    rw [h0]
    refine congrArg (e :: ·) (Eq.trans (List.map_congr_left fun i _ => ?_) hs)
    simp [Function.comp, Nat.mul_succ, Nat.add_comm, Nat.add_assoc]

/-- A consensus frame formed by one lane reads back as it was in the others (R53, R54). -/
theorem consOf_consBytes (l : LaneId) (f : ConsFrame) (hn : f.entries.length ≤ 1024) (ht : f.tn < 2 ^ 64) (hs : f.sendTime < 2 ^ 64) :
    consOf l (consBytes l f) = some f := by
  obtain ⟨st, tn, snd, ho, iv, img, es⟩ := f
  simp only at hn ht hs
  have hc : l.code < 256 := by cases l <;> decide
  let tail := fieldImgBytes img ++ es.flatMap entryBytes
  let fl := b2n ho + 2 * b2n iv
  have hf : fl < 256 := by cases ho <;> cases iv <;> decide
  have hb : consBytes l ⟨st, tn, snd, ho, iv, img, es⟩ = beBytes 4 st.toNat ++ (beBytes 8 tn ++ (beBytes 8 snd ++ (beBytes 1 l.code ++
      (beBytes 1 fl ++ (beBytes 2 es.length ++ tail))))) := by
    simp [consBytes, beBytes_one, tail, fl]
  have hlen : (es.flatMap entryBytes).length = 16 * es.length := entries_length es
  rw [hb]
  generalize hB : beBytes 4 st.toNat ++ (beBytes 8 tn ++ (beBytes 8 snd ++ (beBytes 1 l.code ++ (beBytes 1 fl ++ (beBytes 2 es.length ++ tail))))) = B
  have h0 : beAt B 0 4 = st.toNat := beAt_of_eq (a := []) hB.symm rfl st.isLt
  have h1 : beAt B 4 8 = tn := beAt_of_eq (a := beBytes 4 st.toNat) hB.symm (by simp) ht
  have h2 : beAt B 12 8 = snd := beAt_of_eq (a := beBytes 4 st.toNat ++ beBytes 8 tn) (hB.symm.trans (by simp; rfl)) (by simp) hs
  have h3 : beAt B 20 1 = l.code :=
    beAt_of_eq (a := beBytes 4 st.toNat ++ (beBytes 8 tn ++ beBytes 8 snd)) (hB.symm.trans (by simp; rfl)) (by simp) hc
  have h4 : beAt B 21 1 = fl :=
    beAt_of_eq (a := beBytes 4 st.toNat ++ (beBytes 8 tn ++ (beBytes 8 snd ++ beBytes 1 l.code))) (hB.symm.trans (by simp; rfl)) (by simp) hf
  have h5 : beAt B 22 2 = es.length :=
    beAt_of_eq (a := beBytes 4 st.toNat ++ (beBytes 8 tn ++ (beBytes 8 snd ++ (beBytes 1 l.code ++ beBytes 1 fl)))) (hB.symm.trans (by simp; rfl))
      (by simp) (by omega)
  let hd := beBytes 4 st.toNat ++ (beBytes 8 tn ++ (beBytes 8 snd ++ (beBytes 1 l.code ++ (beBytes 1 fl ++ beBytes 2 es.length))))
  have hhd : hd.length = 24 := by simp [hd]
  have hB1 : B = hd ++ (fieldImgBytes img ++ es.flatMap entryBytes) := by rw [← hB]; simp [hd, tail]
  have h6 : fieldImgAt B 24 = img := by rw [hB1]; exact fieldImgAt_append _ _ _ _ hhd
  have h7 : (upTo es.length).map (fun i => consEntryAt B (56 + 16 * i)) = es := by
    have := consEntries_append (hd ++ fieldImgBytes img) es
    rw [List.length_append, hhd, fieldImgBytes_length, List.append_assoc, ← hB1] at this
    exact this
  have hl : B.length = 56 + 16 * es.length := by rw [hB1]; simp [hhd, hlen]; omega
  rw [consOf, h5, h3, if_pos ⟨hl, hn, rfl⟩, h0, h1, h2, h4, h6, h7]
  simp [fl, getField]
  cases ho <;> cases iv <;> decide

end Sys2Proof.Machine
end

