-- ==== Sys2Proof/Laws/Sparse.lean ====
section
/-! SUPPORT. Sparse stores and memories: what a read gives after each operation, and that each operation keeps the canonical form. -/

namespace Sys2Proof.Machine

variable {α : Type}

/-! ### What a read gives -/

@[simp] theorem sparseGet_nil (d : Nat → α) (k : Nat) : sparseGet d [] k = d k := rfl

@[simp] theorem sparseGet_erase_same (d : Nat → α) (m : Sparse α) (k : Nat) : sparseGet d (sparseErase m k) k = d k := by
  induction m with
  | nil => rfl
  | cons e m ih => by_cases h : e.1 = k <;> simp [sparseErase, sparseGet, h, ih]

theorem sparseGet_erase_ne (d : Nat → α) (m : Sparse α) {j k : Nat} (h : j ≠ k) :
    sparseGet d (sparseErase m k) j = sparseGet d m j := by
  induction m with
  | nil => rfl
  | cons e m ih =>
    by_cases hk : e.1 = k
    · simp [sparseErase, sparseGet, hk, ih, Ne.symm h]
    · by_cases hj : e.1 = j <;> simp [sparseErase, sparseGet, hk, hj, ih, h]

@[simp] theorem sparseGet_put_same (d : Nat → α) (m : Sparse α) (k : Nat) (v : α) : sparseGet d (sparsePut m k v) k = v := by
  induction m with
  | nil => simp [sparsePut, sparseGet]
  | cons e m ih =>
    by_cases h : e.1 = k
    · simp [sparsePut, sparseGet, h]
    · by_cases hl : k < e.1 <;> simp [sparsePut, sparseGet, h, hl, ih]

theorem sparseGet_put_ne (d : Nat → α) (m : Sparse α) {j k : Nat} (v : α) (h : j ≠ k) :
    sparseGet d (sparsePut m k v) j = sparseGet d m j := by
  induction m with
  | nil => simp [sparsePut, sparseGet, Ne.symm h]
  | cons e m ih =>
    by_cases hk : e.1 = k
    · simp [sparsePut, sparseGet, hk, Ne.symm h]
    · by_cases hl : k < e.1
      · simp [sparsePut, sparseGet, hk, hl, Ne.symm h]
      · by_cases hj : e.1 = j
        · subst hj; simp [sparsePut, sparseGet, hk, hl]
        · simp [sparsePut, sparseGet, hk, hl, hj, ih]

@[simp] theorem sparseGet_set_same [DecidableEq α] (d : Nat → α) (m : Sparse α) (k : Nat) (v : α) :
    sparseGet d (sparseSet d m k v) k = v := by
  unfold sparseSet
  split <;> simp_all

theorem sparseGet_set_ne [DecidableEq α] (d : Nat → α) (m : Sparse α) {j k : Nat} (v : α) (h : j ≠ k) :
    sparseGet d (sparseSet d m k v) j = sparseGet d m j := by
  unfold sparseSet
  split
  · exact sparseGet_erase_ne d m h
  · exact sparseGet_put_ne d m v h

theorem sparseGet_filter (d : Nat → α) (p : Nat → Bool) (m : Sparse α) (k : Nat) :
    sparseGet d (sparseFilter p m) k = if p k then sparseGet d m k else d k := by
  induction m with
  | nil => simp [sparseFilter]
  | cons e m ih =>
    by_cases hp : p e.1
    · by_cases hk : e.1 = k
      · subst hk; simp [sparseFilter, sparseGet, hp]
      · simp only [sparseFilter, List.filter, hp, sparseGet, hk, if_false] at ih ⊢; exact ih
    · by_cases hk : e.1 = k
      · subst hk; simp only [sparseFilter, List.filter, hp, sparseGet] at ih ⊢; simpa [hp] using ih
      · simp only [sparseFilter, List.filter, hp, sparseGet, hk, if_false] at ih ⊢; exact ih

/-- A map that leaves the default alone acts on every key. -/
theorem sparseGet_map [DecidableEq α] (d : Nat → α) (f : Nat → α → α) (m : Sparse α) (k : Nat) (h : f k (d k) = d k) :
    sparseGet d (sparseMap d f m) k = f k (sparseGet d m k) := by
  induction m with
  | nil => exact h.symm
  | cons e m ih =>
    by_cases hk : e.1 = k
    · subst hk; simp [sparseMap, sparseGet]
    · simp only [sparseMap, sparseGet, hk, if_false]
      rw [sparseGet_set_ne _ _ _ (Ne.symm hk)]; exact ih

/-! ### The canonical form -/

theorem sparseWfFrom_mono [DecidableEq α] {d : Nat → α} {m : Sparse α} {a b : Nat} (hab : a ≤ b) (h : sparseWfFrom d b m = true) :
    sparseWfFrom d a m = true := by
  cases m with
  | nil => rfl
  | cons e m => simp [sparseWfFrom] at h ⊢; exact ⟨⟨by omega, h.1.2⟩, h.2⟩

theorem sparseWfFrom_erase [DecidableEq α] {d : Nat → α} {m : Sparse α} {a : Nat} (k : Nat) (h : sparseWfFrom d a m = true) :
    sparseWfFrom d a (sparseErase m k) = true := by
  induction m generalizing a with
  | nil => rfl
  | cons e m ih =>
    simp [sparseWfFrom] at h
    by_cases hk : e.1 = k
    · simp [sparseErase, hk]; exact sparseWfFrom_mono (by omega) (ih h.2)
    · simp [sparseErase, hk, sparseWfFrom]; exact ⟨h.1, ih h.2⟩

theorem sparseWfFrom_put [DecidableEq α] {d : Nat → α} {m : Sparse α} {a k : Nat} {v : α} (hk : a ≤ k) (hv : v ≠ d k)
    (h : sparseWfFrom d a m = true) : sparseWfFrom d a (sparsePut m k v) = true := by
  induction m generalizing a with
  | nil => simp [sparsePut, sparseWfFrom, hk, hv]
  | cons e m ih =>
    simp [sparseWfFrom] at h
    by_cases he : e.1 = k
    · simp [sparsePut, he, sparseWfFrom, hk, hv]; rw [← he]; exact h.2
    · by_cases hl : k < e.1
      · have h1 : k + 1 ≤ e.1 := hl
        simp only [sparsePut, he, hl, if_false, if_true, sparseWfFrom, Bool.and_eq_true, decide_eq_true_eq]
        exact ⟨⟨hk, hv⟩, ⟨⟨h1, h.1.2⟩, h.2⟩⟩
      · simp only [sparsePut, he, hl, if_false, sparseWfFrom, Bool.and_eq_true, decide_eq_true_eq]
        exact ⟨h.1, ih (by omega) h.2⟩

theorem sparseWf_set [DecidableEq α] {d : Nat → α} {m : Sparse α} (k : Nat) (v : α) (h : sparseWf d m = true) :
    sparseWf d (sparseSet d m k v) = true := by
  unfold sparseSet sparseWf at *
  split
  · exact sparseWfFrom_erase k h
  · exact sparseWfFrom_put (Nat.zero_le k) ‹_› h

theorem sparseWf_mod [DecidableEq α] {d : Nat → α} {m : Sparse α} (k : Nat) (f : α → α) (h : sparseWf d m = true) :
    sparseWf d (sparseMod d m k f) = true := sparseWf_set k _ h

/-- Whatever it is applied to, the result of a map is in canonical form. -/
theorem sparseWf_map [DecidableEq α] (d : Nat → α) (f : Nat → α → α) (m : Sparse α) : sparseWf d (sparseMap d f m) = true := by
  induction m with
  | nil => rfl
  | cons e m ih => exact sparseWf_set _ _ ih

theorem sparseWfFrom_filter [DecidableEq α] {d : Nat → α} (p : Nat → Bool) {m : Sparse α} {a : Nat} (h : sparseWfFrom d a m = true) :
    sparseWfFrom d a (sparseFilter p m) = true := by
  induction m generalizing a with
  | nil => rfl
  | cons e m ih =>
    simp [sparseWfFrom] at h
    by_cases he : p e.1
    · have := ih h.2
      simp only [sparseFilter, List.filter, he, sparseWfFrom, Bool.and_eq_true, decide_eq_true_eq]
      exact ⟨h.1, this⟩
    · have := sparseWfFrom_mono (by omega : a ≤ e.1 + 1) (ih h.2)
      simpa [sparseFilter, he] using this

theorem sparseWf_filter [DecidableEq α] {d : Nat → α} (p : Nat → Bool) {m : Sparse α} (h : sparseWf d m = true) :
    sparseWf d (sparseFilter p m) = true := sparseWfFrom_filter p h

/-! ### Memories -/

@[simp] theorem memByte_put_same (m : List Host.Cell) (a : Nat) (v : Byte) : memByte (memPut m a v) a = v :=
  sparseGet_set_same _ _ _ _

theorem memByte_put_ne (m : List Host.Cell) {a b : Nat} (v : Byte) (h : b ≠ a) : memByte (memPut m a v) b = memByte m b :=
  sparseGet_set_ne _ _ _ h

theorem memByte_putBytes_outside (m : List Host.Cell) {a b : Nat} (bs : List Byte) (h : b < a ∨ a + bs.length ≤ b) :
    memByte (memPutBytes m a bs) b = memByte m b := by
  induction bs generalizing m a with
  | nil => rfl
  | cons x bs ih =>
    simp only [List.length_cons] at h
    rw [memPutBytes, ih _ (by omega), memByte_put_ne _ _ (by omega)]

theorem memByte_putBytes_at (m : List Host.Cell) (a i : Nat) (bs : List Byte) (h : i < bs.length) :
    memByte (memPutBytes m a bs) (a + i) = bs[i] := by
  induction bs generalizing m a i with
  | nil => simp at h
  | cons x bs ih =>
    cases i with
    | zero => rw [memPutBytes, memByte_putBytes_outside _ _ (by omega)]; simp
    | succ i =>
      rw [memPutBytes, show a + (i + 1) = a + 1 + i by omega, ih _ _ _ (by simpa using h)]
      rfl

theorem memByte_clear (m : List Host.Cell) (a n b : Nat) :
    memByte (memClear m a n) b = if a ≤ b ∧ b < a + n then 0#8 else memByte m b := by
  unfold memByte memClear
  rw [sparseGet_filter]
  by_cases h : a ≤ b ∧ b < a + n <;> simp [h, ramDefault]

theorem Memory.wf_put {m : List Host.Cell} (a : Nat) (v : Byte) (h : Memory.wf m = true) : Memory.wf (memPut m a v) = true :=
  sparseWf_set a v h

theorem Memory.wf_putBytes {m : List Host.Cell} (a : Nat) (bs : List Byte) (h : Memory.wf m = true) :
    Memory.wf (memPutBytes m a bs) = true := by
  induction bs generalizing m a with
  | nil => exact h
  | cons x bs ih => exact ih _ (Memory.wf_put a x h)

theorem Memory.wf_putNat {m : List Host.Cell} (a n v : Nat) (h : Memory.wf m = true) : Memory.wf (memPutNat m a n v) = true :=
  Memory.wf_putBytes a _ h

theorem Memory.wf_clear {m : List Host.Cell} (a n : Nat) (h : Memory.wf m = true) : Memory.wf (memClear m a n) = true :=
  sparseWf_filter _ h

/-! ### Flash -/

@[simp] theorem flashByte_put_same (m : List Host.Cell) (a : Nat) (v : Byte) : flashByte (flashPut m a v) a = v :=
  sparseGet_set_same _ _ _ _

theorem flashByte_put_ne (m : List Host.Cell) {a b : Nat} (v : Byte) (h : b ≠ a) : flashByte (flashPut m a v) b = flashByte m b :=
  sparseGet_set_ne _ _ _ h

theorem flashByte_putBytes_outside (m : List Host.Cell) {a b : Nat} (bs : List Byte) (h : b < a ∨ a + bs.length ≤ b) :
    flashByte (flashPutBytes m a bs) b = flashByte m b := by
  induction bs generalizing m a with
  | nil => rfl
  | cons x bs ih =>
    simp only [List.length_cons] at h
    rw [flashPutBytes, ih _ (by omega), flashByte_put_ne _ _ (by omega)]

theorem flashByte_putBytes_at (m : List Host.Cell) (a i : Nat) (bs : List Byte) (h : i < bs.length) :
    flashByte (flashPutBytes m a bs) (a + i) = bs[i] := by
  induction bs generalizing m a i with
  | nil => simp at h
  | cons x bs ih =>
    cases i with
    | zero => rw [flashPutBytes, flashByte_putBytes_outside _ _ (by omega)]; simp
    | succ i =>
      rw [flashPutBytes, show a + (i + 1) = a + 1 + i by omega, ih _ _ _ (by simpa using h)]
      rfl

theorem flashByte_erase (m : List Host.Cell) (a n b : Nat) :
    flashByte (flashErase m a n) b = if a ≤ b ∧ b < a + n then 0xFF#8 else flashByte m b := by
  unfold flashByte flashErase memClear
  rw [sparseGet_filter]
  by_cases h : a ≤ b ∧ b < a + n <;> simp [h, flashDefault]

theorem sparseWf_flashPut {m : List Host.Cell} (a : Nat) (v : Byte) (h : sparseWf flashDefault m = true) :
    sparseWf flashDefault (flashPut m a v) = true := sparseWf_set a v h

theorem sparseWf_flashPutBytes {m : List Host.Cell} (a : Nat) (bs : List Byte) (h : sparseWf flashDefault m = true) :
    sparseWf flashDefault (flashPutBytes m a bs) = true := by
  induction bs generalizing m a with
  | nil => exact h
  | cons x bs ih => exact ih _ (sparseWf_flashPut a x h)

theorem sparseWf_flashErase {m : List Host.Cell} (a n : Nat) (h : sparseWf flashDefault m = true) :
    sparseWf flashDefault (flashErase m a n) = true := by
  unfold flashErase memClear
  exact sparseWf_filter _ h

end Sys2Proof.Machine
end

