-- ==== Sys2Proof/Laws/State.lean ====
section
/-! SUPPORT. One lemma per field per named update of the module, a lane and the hub, each true by `rfl`, so that no proof unfolds a
record update. -/

namespace Sys2Proof.Machine

/-! ### The module -/

@[simp] theorem State.at_phase (s : State) (t : Nat) : (s.at t).phase = s.phase := rfl
@[simp] theorem State.at_la (s : State) (t : Nat) : (s.at t).la = s.la := rfl
@[simp] theorem State.at_lb (s : State) (t : Nat) : (s.at t).lb = s.lb := rfl
@[simp] theorem State.at_lc (s : State) (t : Nat) : (s.at t).lc = s.lc := rfl
@[simp] theorem State.at_hub (s : State) (t : Nat) : (s.at t).hub = s.hub := rfl
@[simp] theorem State.at_field (s : State) (t : Nat) : (s.at t).field = s.field := rfl
@[simp] theorem State.at_fieldRst (s : State) (t : Nat) : (s.at t).fieldRst = s.fieldRst := rfl
@[simp] theorem State.at_aon (s : State) (t : Nat) : (s.at t).aon = s.aon := rfl
@[simp] theorem State.at_fuses (s : State) (t : Nat) : (s.at t).fuses = s.fuses := rfl
@[simp] theorem State.at_flash0 (s : State) (t : Nat) : (s.at t).flash0 = s.flash0 := rfl
@[simp] theorem State.at_flash1 (s : State) (t : Nat) : (s.at t).flash1 = s.flash1 := rfl
@[simp] theorem State.at_scrubA (s : State) (t : Nat) : (s.at t).scrubA = s.scrubA := rfl
@[simp] theorem State.at_scrubB (s : State) (t : Nat) : (s.at t).scrubB = s.scrubB := rfl
@[simp] theorem State.at_scrubC (s : State) (t : Nat) : (s.at t).scrubC = s.scrubC := rfl
@[simp] theorem State.at_bus (s : State) (t : Nat) : (s.at t).bus = s.bus := rfl
@[simp] theorem State.at_draws (s : State) (t : Nat) : (s.at t).draws = s.draws := rfl
@[simp] theorem State.at_pending (s : State) (t : Nat) : (s.at t).pending = s.pending := rfl

@[simp] theorem State.at_now (s : State) (t : Nat) : (s.at t).now = max s.now t := rfl

@[simp] theorem State.busErr_now (s : State)  : (s.busErr).now = s.now := rfl
@[simp] theorem State.busErr_phase (s : State)  : (s.busErr).phase = s.phase := rfl
@[simp] theorem State.busErr_la (s : State)  : (s.busErr).la = s.la := rfl
@[simp] theorem State.busErr_lb (s : State)  : (s.busErr).lb = s.lb := rfl
@[simp] theorem State.busErr_lc (s : State)  : (s.busErr).lc = s.lc := rfl
@[simp] theorem State.busErr_hub (s : State)  : (s.busErr).hub = s.hub := rfl
@[simp] theorem State.busErr_field (s : State)  : (s.busErr).field = s.field := rfl
@[simp] theorem State.busErr_fieldRst (s : State)  : (s.busErr).fieldRst = s.fieldRst := rfl
@[simp] theorem State.busErr_aon (s : State)  : (s.busErr).aon = s.aon := rfl
@[simp] theorem State.busErr_fuses (s : State)  : (s.busErr).fuses = s.fuses := rfl
@[simp] theorem State.busErr_flash0 (s : State)  : (s.busErr).flash0 = s.flash0 := rfl
@[simp] theorem State.busErr_flash1 (s : State)  : (s.busErr).flash1 = s.flash1 := rfl
@[simp] theorem State.busErr_scrubA (s : State)  : (s.busErr).scrubA = s.scrubA := rfl
@[simp] theorem State.busErr_scrubB (s : State)  : (s.busErr).scrubB = s.scrubB := rfl
@[simp] theorem State.busErr_scrubC (s : State)  : (s.busErr).scrubC = s.scrubC := rfl
@[simp] theorem State.busErr_draws (s : State)  : (s.busErr).draws = s.draws := rfl
@[simp] theorem State.busErr_pending (s : State)  : (s.busErr).pending = s.pending := rfl

@[simp] theorem State.busErr_bus (s : State) : s.busErr.bus = .error := rfl

@[simp] theorem State.busOk_now (s : State)  : (s.busOk).now = s.now := rfl
@[simp] theorem State.busOk_phase (s : State)  : (s.busOk).phase = s.phase := rfl
@[simp] theorem State.busOk_la (s : State)  : (s.busOk).la = s.la := rfl
@[simp] theorem State.busOk_lb (s : State)  : (s.busOk).lb = s.lb := rfl
@[simp] theorem State.busOk_lc (s : State)  : (s.busOk).lc = s.lc := rfl
@[simp] theorem State.busOk_hub (s : State)  : (s.busOk).hub = s.hub := rfl
@[simp] theorem State.busOk_field (s : State)  : (s.busOk).field = s.field := rfl
@[simp] theorem State.busOk_fieldRst (s : State)  : (s.busOk).fieldRst = s.fieldRst := rfl
@[simp] theorem State.busOk_aon (s : State)  : (s.busOk).aon = s.aon := rfl
@[simp] theorem State.busOk_fuses (s : State)  : (s.busOk).fuses = s.fuses := rfl
@[simp] theorem State.busOk_flash0 (s : State)  : (s.busOk).flash0 = s.flash0 := rfl
@[simp] theorem State.busOk_flash1 (s : State)  : (s.busOk).flash1 = s.flash1 := rfl
@[simp] theorem State.busOk_scrubA (s : State)  : (s.busOk).scrubA = s.scrubA := rfl
@[simp] theorem State.busOk_scrubB (s : State)  : (s.busOk).scrubB = s.scrubB := rfl
@[simp] theorem State.busOk_scrubC (s : State)  : (s.busOk).scrubC = s.scrubC := rfl
@[simp] theorem State.busOk_draws (s : State)  : (s.busOk).draws = s.draws := rfl
@[simp] theorem State.busOk_pending (s : State)  : (s.busOk).pending = s.pending := rfl

@[simp] theorem State.busOk_bus (s : State) : s.busOk.bus = .none := rfl

@[simp] theorem State.busData_now (s : State) (w : Word) : (s.busData w).now = s.now := rfl
@[simp] theorem State.busData_phase (s : State) (w : Word) : (s.busData w).phase = s.phase := rfl
@[simp] theorem State.busData_la (s : State) (w : Word) : (s.busData w).la = s.la := rfl
@[simp] theorem State.busData_lb (s : State) (w : Word) : (s.busData w).lb = s.lb := rfl
@[simp] theorem State.busData_lc (s : State) (w : Word) : (s.busData w).lc = s.lc := rfl
@[simp] theorem State.busData_hub (s : State) (w : Word) : (s.busData w).hub = s.hub := rfl
@[simp] theorem State.busData_field (s : State) (w : Word) : (s.busData w).field = s.field := rfl
@[simp] theorem State.busData_fieldRst (s : State) (w : Word) : (s.busData w).fieldRst = s.fieldRst := rfl
@[simp] theorem State.busData_aon (s : State) (w : Word) : (s.busData w).aon = s.aon := rfl
@[simp] theorem State.busData_fuses (s : State) (w : Word) : (s.busData w).fuses = s.fuses := rfl
@[simp] theorem State.busData_flash0 (s : State) (w : Word) : (s.busData w).flash0 = s.flash0 := rfl
@[simp] theorem State.busData_flash1 (s : State) (w : Word) : (s.busData w).flash1 = s.flash1 := rfl
@[simp] theorem State.busData_scrubA (s : State) (w : Word) : (s.busData w).scrubA = s.scrubA := rfl
@[simp] theorem State.busData_scrubB (s : State) (w : Word) : (s.busData w).scrubB = s.scrubB := rfl
@[simp] theorem State.busData_scrubC (s : State) (w : Word) : (s.busData w).scrubC = s.scrubC := rfl
@[simp] theorem State.busData_draws (s : State) (w : Word) : (s.busData w).draws = s.draws := rfl
@[simp] theorem State.busData_pending (s : State) (w : Word) : (s.busData w).pending = s.pending := rfl

@[simp] theorem State.busData_bus (s : State) (w : Word) : (s.busData w).bus = .data w := rfl

@[simp] theorem State.modHub_now (s : State) (f : Hub → Hub) : (s.modHub f).now = s.now := rfl
@[simp] theorem State.modHub_phase (s : State) (f : Hub → Hub) : (s.modHub f).phase = s.phase := rfl
@[simp] theorem State.modHub_la (s : State) (f : Hub → Hub) : (s.modHub f).la = s.la := rfl
@[simp] theorem State.modHub_lb (s : State) (f : Hub → Hub) : (s.modHub f).lb = s.lb := rfl
@[simp] theorem State.modHub_lc (s : State) (f : Hub → Hub) : (s.modHub f).lc = s.lc := rfl
@[simp] theorem State.modHub_field (s : State) (f : Hub → Hub) : (s.modHub f).field = s.field := rfl
@[simp] theorem State.modHub_fieldRst (s : State) (f : Hub → Hub) : (s.modHub f).fieldRst = s.fieldRst := rfl
@[simp] theorem State.modHub_aon (s : State) (f : Hub → Hub) : (s.modHub f).aon = s.aon := rfl
@[simp] theorem State.modHub_fuses (s : State) (f : Hub → Hub) : (s.modHub f).fuses = s.fuses := rfl
@[simp] theorem State.modHub_flash0 (s : State) (f : Hub → Hub) : (s.modHub f).flash0 = s.flash0 := rfl
@[simp] theorem State.modHub_flash1 (s : State) (f : Hub → Hub) : (s.modHub f).flash1 = s.flash1 := rfl
@[simp] theorem State.modHub_scrubA (s : State) (f : Hub → Hub) : (s.modHub f).scrubA = s.scrubA := rfl
@[simp] theorem State.modHub_scrubB (s : State) (f : Hub → Hub) : (s.modHub f).scrubB = s.scrubB := rfl
@[simp] theorem State.modHub_scrubC (s : State) (f : Hub → Hub) : (s.modHub f).scrubC = s.scrubC := rfl
@[simp] theorem State.modHub_bus (s : State) (f : Hub → Hub) : (s.modHub f).bus = s.bus := rfl
@[simp] theorem State.modHub_draws (s : State) (f : Hub → Hub) : (s.modHub f).draws = s.draws := rfl
@[simp] theorem State.modHub_pending (s : State) (f : Hub → Hub) : (s.modHub f).pending = s.pending := rfl

@[simp] theorem State.modHub_hub (s : State) (f : Hub → Hub) : (s.modHub f).hub = f s.hub := rfl

@[simp] theorem State.modField_now (s : State) (f : FieldDie → FieldDie) : (s.modField f).now = s.now := rfl
@[simp] theorem State.modField_phase (s : State) (f : FieldDie → FieldDie) : (s.modField f).phase = s.phase := rfl
@[simp] theorem State.modField_la (s : State) (f : FieldDie → FieldDie) : (s.modField f).la = s.la := rfl
@[simp] theorem State.modField_lb (s : State) (f : FieldDie → FieldDie) : (s.modField f).lb = s.lb := rfl
@[simp] theorem State.modField_lc (s : State) (f : FieldDie → FieldDie) : (s.modField f).lc = s.lc := rfl
@[simp] theorem State.modField_hub (s : State) (f : FieldDie → FieldDie) : (s.modField f).hub = s.hub := rfl
@[simp] theorem State.modField_fieldRst (s : State) (f : FieldDie → FieldDie) : (s.modField f).fieldRst = s.fieldRst := rfl
@[simp] theorem State.modField_aon (s : State) (f : FieldDie → FieldDie) : (s.modField f).aon = s.aon := rfl
@[simp] theorem State.modField_fuses (s : State) (f : FieldDie → FieldDie) : (s.modField f).fuses = s.fuses := rfl
@[simp] theorem State.modField_flash0 (s : State) (f : FieldDie → FieldDie) : (s.modField f).flash0 = s.flash0 := rfl
@[simp] theorem State.modField_flash1 (s : State) (f : FieldDie → FieldDie) : (s.modField f).flash1 = s.flash1 := rfl
@[simp] theorem State.modField_scrubA (s : State) (f : FieldDie → FieldDie) : (s.modField f).scrubA = s.scrubA := rfl
@[simp] theorem State.modField_scrubB (s : State) (f : FieldDie → FieldDie) : (s.modField f).scrubB = s.scrubB := rfl
@[simp] theorem State.modField_scrubC (s : State) (f : FieldDie → FieldDie) : (s.modField f).scrubC = s.scrubC := rfl
@[simp] theorem State.modField_bus (s : State) (f : FieldDie → FieldDie) : (s.modField f).bus = s.bus := rfl
@[simp] theorem State.modField_draws (s : State) (f : FieldDie → FieldDie) : (s.modField f).draws = s.draws := rfl
@[simp] theorem State.modField_pending (s : State) (f : FieldDie → FieldDie) : (s.modField f).pending = s.pending := rfl

@[simp] theorem State.modField_field (s : State) (f : FieldDie → FieldDie) : (s.modField f).field = f s.field := rfl

@[simp] theorem State.draw_now (s : State)  : (s.draw.2).now = s.now := rfl
@[simp] theorem State.draw_phase (s : State)  : (s.draw.2).phase = s.phase := rfl
@[simp] theorem State.draw_la (s : State)  : (s.draw.2).la = s.la := rfl
@[simp] theorem State.draw_lb (s : State)  : (s.draw.2).lb = s.lb := rfl
@[simp] theorem State.draw_lc (s : State)  : (s.draw.2).lc = s.lc := rfl
@[simp] theorem State.draw_hub (s : State)  : (s.draw.2).hub = s.hub := rfl
@[simp] theorem State.draw_field (s : State)  : (s.draw.2).field = s.field := rfl
@[simp] theorem State.draw_fieldRst (s : State)  : (s.draw.2).fieldRst = s.fieldRst := rfl
@[simp] theorem State.draw_aon (s : State)  : (s.draw.2).aon = s.aon := rfl
@[simp] theorem State.draw_fuses (s : State)  : (s.draw.2).fuses = s.fuses := rfl
@[simp] theorem State.draw_flash0 (s : State)  : (s.draw.2).flash0 = s.flash0 := rfl
@[simp] theorem State.draw_flash1 (s : State)  : (s.draw.2).flash1 = s.flash1 := rfl
@[simp] theorem State.draw_scrubA (s : State)  : (s.draw.2).scrubA = s.scrubA := rfl
@[simp] theorem State.draw_scrubB (s : State)  : (s.draw.2).scrubB = s.scrubB := rfl
@[simp] theorem State.draw_scrubC (s : State)  : (s.draw.2).scrubC = s.scrubC := rfl
@[simp] theorem State.draw_bus (s : State)  : (s.draw.2).bus = s.bus := rfl
@[simp] theorem State.draw_pending (s : State)  : (s.draw.2).pending = s.pending := rfl

@[simp] theorem State.draw_draws (s : State) : s.draw.2.draws = s.draws + 1 := rfl

@[simp] theorem State.setLane_now (s : State) (l : LaneId) (x : Lane) : (s.setLane l x).now = s.now := by cases l <;> rfl
@[simp] theorem State.setLane_phase (s : State) (l : LaneId) (x : Lane) : (s.setLane l x).phase = s.phase := by cases l <;> rfl
@[simp] theorem State.setLane_hub (s : State) (l : LaneId) (x : Lane) : (s.setLane l x).hub = s.hub := by cases l <;> rfl
@[simp] theorem State.setLane_field (s : State) (l : LaneId) (x : Lane) : (s.setLane l x).field = s.field := by cases l <;> rfl
@[simp] theorem State.setLane_fieldRst (s : State) (l : LaneId) (x : Lane) : (s.setLane l x).fieldRst = s.fieldRst := by cases l <;> rfl
@[simp] theorem State.setLane_aon (s : State) (l : LaneId) (x : Lane) : (s.setLane l x).aon = s.aon := by cases l <;> rfl
@[simp] theorem State.setLane_fuses (s : State) (l : LaneId) (x : Lane) : (s.setLane l x).fuses = s.fuses := by cases l <;> rfl
@[simp] theorem State.setLane_flash0 (s : State) (l : LaneId) (x : Lane) : (s.setLane l x).flash0 = s.flash0 := by cases l <;> rfl
@[simp] theorem State.setLane_flash1 (s : State) (l : LaneId) (x : Lane) : (s.setLane l x).flash1 = s.flash1 := by cases l <;> rfl
@[simp] theorem State.setLane_scrubA (s : State) (l : LaneId) (x : Lane) : (s.setLane l x).scrubA = s.scrubA := by cases l <;> rfl
@[simp] theorem State.setLane_scrubB (s : State) (l : LaneId) (x : Lane) : (s.setLane l x).scrubB = s.scrubB := by cases l <;> rfl
@[simp] theorem State.setLane_scrubC (s : State) (l : LaneId) (x : Lane) : (s.setLane l x).scrubC = s.scrubC := by cases l <;> rfl
@[simp] theorem State.setLane_bus (s : State) (l : LaneId) (x : Lane) : (s.setLane l x).bus = s.bus := by cases l <;> rfl
@[simp] theorem State.setLane_draws (s : State) (l : LaneId) (x : Lane) : (s.setLane l x).draws = s.draws := by cases l <;> rfl
@[simp] theorem State.setLane_pending (s : State) (l : LaneId) (x : Lane) : (s.setLane l x).pending = s.pending := by cases l <;> rfl

@[simp] theorem State.modLane_now (s : State) (l : LaneId) (f : Lane → Lane) : (s.modLane l f).now = s.now := by cases l <;> rfl
@[simp] theorem State.modLane_phase (s : State) (l : LaneId) (f : Lane → Lane) : (s.modLane l f).phase = s.phase := by cases l <;> rfl
@[simp] theorem State.modLane_hub (s : State) (l : LaneId) (f : Lane → Lane) : (s.modLane l f).hub = s.hub := by cases l <;> rfl
@[simp] theorem State.modLane_field (s : State) (l : LaneId) (f : Lane → Lane) : (s.modLane l f).field = s.field := by cases l <;> rfl
@[simp] theorem State.modLane_fieldRst (s : State) (l : LaneId) (f : Lane → Lane) : (s.modLane l f).fieldRst = s.fieldRst := by cases l <;> rfl
@[simp] theorem State.modLane_aon (s : State) (l : LaneId) (f : Lane → Lane) : (s.modLane l f).aon = s.aon := by cases l <;> rfl
@[simp] theorem State.modLane_fuses (s : State) (l : LaneId) (f : Lane → Lane) : (s.modLane l f).fuses = s.fuses := by cases l <;> rfl
@[simp] theorem State.modLane_flash0 (s : State) (l : LaneId) (f : Lane → Lane) : (s.modLane l f).flash0 = s.flash0 := by cases l <;> rfl
@[simp] theorem State.modLane_flash1 (s : State) (l : LaneId) (f : Lane → Lane) : (s.modLane l f).flash1 = s.flash1 := by cases l <;> rfl
@[simp] theorem State.modLane_scrubA (s : State) (l : LaneId) (f : Lane → Lane) : (s.modLane l f).scrubA = s.scrubA := by cases l <;> rfl
@[simp] theorem State.modLane_scrubB (s : State) (l : LaneId) (f : Lane → Lane) : (s.modLane l f).scrubB = s.scrubB := by cases l <;> rfl
@[simp] theorem State.modLane_scrubC (s : State) (l : LaneId) (f : Lane → Lane) : (s.modLane l f).scrubC = s.scrubC := by cases l <;> rfl
@[simp] theorem State.modLane_bus (s : State) (l : LaneId) (f : Lane → Lane) : (s.modLane l f).bus = s.bus := by cases l <;> rfl
@[simp] theorem State.modLane_draws (s : State) (l : LaneId) (f : Lane → Lane) : (s.modLane l f).draws = s.draws := by cases l <;> rfl
@[simp] theorem State.modLane_pending (s : State) (l : LaneId) (f : Lane → Lane) : (s.modLane l f).pending = s.pending := by cases l <;> rfl

@[simp] theorem State.laneAt_phase (s : State) (l : LaneId) (t : Nat) : (s.laneAt l t).phase = s.phase := by cases l <;> rfl
@[simp] theorem State.laneAt_hub (s : State) (l : LaneId) (t : Nat) : (s.laneAt l t).hub = s.hub := by cases l <;> rfl
@[simp] theorem State.laneAt_field (s : State) (l : LaneId) (t : Nat) : (s.laneAt l t).field = s.field := by cases l <;> rfl
@[simp] theorem State.laneAt_fieldRst (s : State) (l : LaneId) (t : Nat) : (s.laneAt l t).fieldRst = s.fieldRst := by cases l <;> rfl
@[simp] theorem State.laneAt_aon (s : State) (l : LaneId) (t : Nat) : (s.laneAt l t).aon = s.aon := by cases l <;> rfl
@[simp] theorem State.laneAt_fuses (s : State) (l : LaneId) (t : Nat) : (s.laneAt l t).fuses = s.fuses := by cases l <;> rfl
@[simp] theorem State.laneAt_flash0 (s : State) (l : LaneId) (t : Nat) : (s.laneAt l t).flash0 = s.flash0 := by cases l <;> rfl
@[simp] theorem State.laneAt_flash1 (s : State) (l : LaneId) (t : Nat) : (s.laneAt l t).flash1 = s.flash1 := by cases l <;> rfl
@[simp] theorem State.laneAt_scrubA (s : State) (l : LaneId) (t : Nat) : (s.laneAt l t).scrubA = s.scrubA := by cases l <;> rfl
@[simp] theorem State.laneAt_scrubB (s : State) (l : LaneId) (t : Nat) : (s.laneAt l t).scrubB = s.scrubB := by cases l <;> rfl
@[simp] theorem State.laneAt_scrubC (s : State) (l : LaneId) (t : Nat) : (s.laneAt l t).scrubC = s.scrubC := by cases l <;> rfl
@[simp] theorem State.laneAt_bus (s : State) (l : LaneId) (t : Nat) : (s.laneAt l t).bus = s.bus := by cases l <;> rfl
@[simp] theorem State.laneAt_draws (s : State) (l : LaneId) (t : Nat) : (s.laneAt l t).draws = s.draws := by cases l <;> rfl
@[simp] theorem State.laneAt_pending (s : State) (l : LaneId) (t : Nat) : (s.laneAt l t).pending = s.pending := by cases l <;> rfl

@[simp] theorem State.laneAt_now (s : State) (l : LaneId) (t : Nat) : (s.laneAt l t).now = max s.now t := by cases l <;> rfl

/-! ### The lanes of the module -/

@[simp] theorem State.at_lane (s : State) (t : Nat) (l : LaneId) : (s.at t).lane l = s.lane l := by cases l <;> rfl
@[simp] theorem State.busErr_lane (s : State)  (l : LaneId) : (s.busErr).lane l = s.lane l := by cases l <;> rfl
@[simp] theorem State.busOk_lane (s : State)  (l : LaneId) : (s.busOk).lane l = s.lane l := by cases l <;> rfl
@[simp] theorem State.busData_lane (s : State) (w : Word) (l : LaneId) : (s.busData w).lane l = s.lane l := by cases l <;> rfl
@[simp] theorem State.modHub_lane (s : State) (f : Hub → Hub) (l : LaneId) : (s.modHub f).lane l = s.lane l := by cases l <;> rfl
@[simp] theorem State.modField_lane (s : State) (f : FieldDie → FieldDie) (l : LaneId) : (s.modField f).lane l = s.lane l := by cases l <;> rfl
@[simp] theorem State.draw_lane (s : State)  (l : LaneId) : (s.draw.2).lane l = s.lane l := by cases l <;> rfl

@[simp] theorem State.lane_setLane (s : State) (l : LaneId) (x : Lane) : (s.setLane l x).lane l = x := by cases l <;> rfl

theorem State.lane_setLane_ne (s : State) {l k : LaneId} (x : Lane) (h : k ≠ l) : (s.setLane l x).lane k = s.lane k := by
  cases l <;> cases k <;> first | rfl | exact absurd rfl h

@[simp] theorem State.lane_modLane (s : State) (l : LaneId) (f : Lane → Lane) : (s.modLane l f).lane l = f (s.lane l) := by cases l <;> rfl

theorem State.lane_modLane_ne (s : State) {l k : LaneId} (f : Lane → Lane) (h : k ≠ l) : (s.modLane l f).lane k = s.lane k :=
  s.lane_setLane_ne _ h

@[simp] theorem State.lane_laneAt (s : State) (l : LaneId) (t : Nat) : (s.laneAt l t).lane l = (s.lane l).at t := by cases l <;> rfl

theorem State.lane_laneAt_ne (s : State) {l k : LaneId} (t : Nat) (h : k ≠ l) : (s.laneAt l t).lane k = s.lane k := by
  cases l <;> cases k <;> first | rfl | exact absurd rfl h

/-! ### A lane -/

@[simp] theorem Lane.setRg_id (l : Lane) (a : Nat) (v : Word) : (l.setRg a v).id = l.id := rfl
@[simp] theorem Lane.setRg_sram (l : Lane) (a : Nat) (v : Word) : (l.setRg a v).sram = l.sram := rfl
@[simp] theorem Lane.setRg_cells (l : Lane) (a : Nat) (v : Word) : (l.setRg a v).cells = l.cells := rfl
@[simp] theorem Lane.setRg_ard (l : Lane) (a : Nat) (v : Word) : (l.setRg a v).ard = l.ard := rfl
@[simp] theorem Lane.setRg_rstat (l : Lane) (a : Nat) (v : Word) : (l.setRg a v).rstat = l.rstat := rfl
@[simp] theorem Lane.setRg_pstore (l : Lane) (a : Nat) (v : Word) : (l.setRg a v).pstore = l.pstore := rfl
@[simp] theorem Lane.setRg_rle (l : Lane) (a : Nat) (v : Word) : (l.setRg a v).rle = l.rle := rfl
@[simp] theorem Lane.setRg_fol (l : Lane) (a : Nat) (v : Word) : (l.setRg a v).fol = l.fol := rfl
@[simp] theorem Lane.setRg_start (l : Lane) (a : Nat) (v : Word) : (l.setRg a v).start = l.start := rfl
@[simp] theorem Lane.setRg_tasks (l : Lane) (a : Nat) (v : Word) : (l.setRg a v).tasks = l.tasks := rfl
@[simp] theorem Lane.setRg_ctxs (l : Lane) (a : Nat) (v : Word) : (l.setRg a v).ctxs = l.ctxs := rfl
@[simp] theorem Lane.setRg_due (l : Lane) (a : Nat) (v : Word) : (l.setRg a v).due = l.due := rfl
@[simp] theorem Lane.setRg_gone (l : Lane) (a : Nat) (v : Word) : (l.setRg a v).gone = l.gone := rfl
@[simp] theorem Lane.setRg_readm (l : Lane) (a : Nat) (v : Word) : (l.setRg a v).readm = l.readm := rfl
@[simp] theorem Lane.setRg_xl0 (l : Lane) (a : Nat) (v : Word) : (l.setRg a v).xl0 = l.xl0 := rfl
@[simp] theorem Lane.setRg_xl1 (l : Lane) (a : Nat) (v : Word) : (l.setRg a v).xl1 = l.xl1 := rfl
@[simp] theorem Lane.setRg_core0 (l : Lane) (a : Nat) (v : Word) : (l.setRg a v).core0 = l.core0 := rfl
@[simp] theorem Lane.setRg_core1 (l : Lane) (a : Nat) (v : Word) : (l.setRg a v).core1 = l.core1 := rfl
@[simp] theorem Lane.setRg_sig (l : Lane) (a : Nat) (v : Word) : (l.setRg a v).sig = l.sig := rfl
@[simp] theorem Lane.setRg_wdt (l : Lane) (a : Nat) (v : Word) : (l.setRg a v).wdt = l.wdt := rfl
@[simp] theorem Lane.setRg_prog (l : Lane) (a : Nat) (v : Word) : (l.setRg a v).prog = l.prog := rfl
@[simp] theorem Lane.setRg_fld (l : Lane) (a : Nat) (v : Word) : (l.setRg a v).fld = l.fld := rfl
@[simp] theorem Lane.setRg_brg (l : Lane) (a : Nat) (v : Word) : (l.setRg a v).brg = l.brg := rfl
@[simp] theorem Lane.setRg_crc (l : Lane) (a : Nat) (v : Word) : (l.setRg a v).crc = l.crc := rfl
@[simp] theorem Lane.setRg_conns (l : Lane) (a : Nat) (v : Word) : (l.setRg a v).conns = l.conns := rfl
@[simp] theorem Lane.setRg_descs (l : Lane) (a : Nat) (v : Word) : (l.setRg a v).descs = l.descs := rfl
@[simp] theorem Lane.setRg_keys (l : Lane) (a : Nat) (v : Word) : (l.setRg a v).keys = l.keys := rfl
@[simp] theorem Lane.setRg_keySect (l : Lane) (a : Nat) (v : Word) : (l.setRg a v).keySect = l.keySect := rfl
@[simp] theorem Lane.setRg_set (l : Lane) (a : Nat) (v : Word) : (l.setRg a v).set = l.set := rfl
@[simp] theorem Lane.setRg_claim (l : Lane) (a : Nat) (v : Word) : (l.setRg a v).claim = l.claim := rfl
@[simp] theorem Lane.setRg_standby (l : Lane) (a : Nat) (v : Word) : (l.setRg a v).standby = l.standby := rfl
@[simp] theorem Lane.setRg_yielded (l : Lane) (a : Nat) (v : Word) : (l.setRg a v).yielded = l.yielded := rfl
@[simp] theorem Lane.setRg_yieldNext (l : Lane) (a : Nat) (v : Word) : (l.setRg a v).yieldNext = l.yieldNext := rfl
@[simp] theorem Lane.setRg_sent (l : Lane) (a : Nat) (v : Word) : (l.setRg a v).sent = l.sent := rfl
@[simp] theorem Lane.setRg_wave (l : Lane) (a : Nat) (v : Word) : (l.setRg a v).wave = l.wave := rfl
@[simp] theorem Lane.setRg_restT (l : Lane) (a : Nat) (v : Word) : (l.setRg a v).restT = l.restT := rfl
@[simp] theorem Lane.setRg_surviving (l : Lane) (a : Nat) (v : Word) : (l.setRg a v).surviving = l.surviving := rfl
@[simp] theorem Lane.setRg_openAtEntry (l : Lane) (a : Nat) (v : Word) : (l.setRg a v).openAtEntry = l.openAtEntry := rfl
@[simp] theorem Lane.setRg_cmpOwn (l : Lane) (a : Nat) (v : Word) : (l.setRg a v).cmpOwn = l.cmpOwn := rfl
@[simp] theorem Lane.setRg_cmpRun (l : Lane) (a : Nat) (v : Word) : (l.setRg a v).cmpRun = l.cmpRun := rfl
@[simp] theorem Lane.setRg_peerReady (l : Lane) (a : Nat) (v : Word) : (l.setRg a v).peerReady = l.peerReady := rfl
@[simp] theorem Lane.setRg_idle (l : Lane) (a : Nat) (v : Word) : (l.setRg a v).idle = l.idle := rfl
@[simp] theorem Lane.setRg_rst (l : Lane) (a : Nat) (v : Word) : (l.setRg a v).rst = l.rst := rfl
@[simp] theorem Lane.setRg_badBanks (l : Lane) (a : Nat) (v : Word) : (l.setRg a v).badBanks = l.badBanks := rfl
@[simp] theorem Lane.setRg_notes (l : Lane) (a : Nat) (v : Word) : (l.setRg a v).notes = l.notes := rfl

@[simp] theorem Lane.fset_id (l : Lane) (f : Fld) (v : Nat) : (l.fset f v).id = l.id := rfl
@[simp] theorem Lane.fset_sram (l : Lane) (f : Fld) (v : Nat) : (l.fset f v).sram = l.sram := rfl
@[simp] theorem Lane.fset_cells (l : Lane) (f : Fld) (v : Nat) : (l.fset f v).cells = l.cells := rfl
@[simp] theorem Lane.fset_ard (l : Lane) (f : Fld) (v : Nat) : (l.fset f v).ard = l.ard := rfl
@[simp] theorem Lane.fset_rstat (l : Lane) (f : Fld) (v : Nat) : (l.fset f v).rstat = l.rstat := rfl
@[simp] theorem Lane.fset_pstore (l : Lane) (f : Fld) (v : Nat) : (l.fset f v).pstore = l.pstore := rfl
@[simp] theorem Lane.fset_rle (l : Lane) (f : Fld) (v : Nat) : (l.fset f v).rle = l.rle := rfl
@[simp] theorem Lane.fset_fol (l : Lane) (f : Fld) (v : Nat) : (l.fset f v).fol = l.fol := rfl
@[simp] theorem Lane.fset_start (l : Lane) (f : Fld) (v : Nat) : (l.fset f v).start = l.start := rfl
@[simp] theorem Lane.fset_tasks (l : Lane) (f : Fld) (v : Nat) : (l.fset f v).tasks = l.tasks := rfl
@[simp] theorem Lane.fset_ctxs (l : Lane) (f : Fld) (v : Nat) : (l.fset f v).ctxs = l.ctxs := rfl
@[simp] theorem Lane.fset_due (l : Lane) (f : Fld) (v : Nat) : (l.fset f v).due = l.due := rfl
@[simp] theorem Lane.fset_gone (l : Lane) (f : Fld) (v : Nat) : (l.fset f v).gone = l.gone := rfl
@[simp] theorem Lane.fset_readm (l : Lane) (f : Fld) (v : Nat) : (l.fset f v).readm = l.readm := rfl
@[simp] theorem Lane.fset_xl0 (l : Lane) (f : Fld) (v : Nat) : (l.fset f v).xl0 = l.xl0 := rfl
@[simp] theorem Lane.fset_xl1 (l : Lane) (f : Fld) (v : Nat) : (l.fset f v).xl1 = l.xl1 := rfl
@[simp] theorem Lane.fset_core0 (l : Lane) (f : Fld) (v : Nat) : (l.fset f v).core0 = l.core0 := rfl
@[simp] theorem Lane.fset_core1 (l : Lane) (f : Fld) (v : Nat) : (l.fset f v).core1 = l.core1 := rfl
@[simp] theorem Lane.fset_sig (l : Lane) (f : Fld) (v : Nat) : (l.fset f v).sig = l.sig := rfl
@[simp] theorem Lane.fset_wdt (l : Lane) (f : Fld) (v : Nat) : (l.fset f v).wdt = l.wdt := rfl
@[simp] theorem Lane.fset_prog (l : Lane) (f : Fld) (v : Nat) : (l.fset f v).prog = l.prog := rfl
@[simp] theorem Lane.fset_fld (l : Lane) (f : Fld) (v : Nat) : (l.fset f v).fld = l.fld := rfl
@[simp] theorem Lane.fset_brg (l : Lane) (f : Fld) (v : Nat) : (l.fset f v).brg = l.brg := rfl
@[simp] theorem Lane.fset_crc (l : Lane) (f : Fld) (v : Nat) : (l.fset f v).crc = l.crc := rfl
@[simp] theorem Lane.fset_conns (l : Lane) (f : Fld) (v : Nat) : (l.fset f v).conns = l.conns := rfl
@[simp] theorem Lane.fset_descs (l : Lane) (f : Fld) (v : Nat) : (l.fset f v).descs = l.descs := rfl
@[simp] theorem Lane.fset_keys (l : Lane) (f : Fld) (v : Nat) : (l.fset f v).keys = l.keys := rfl
@[simp] theorem Lane.fset_keySect (l : Lane) (f : Fld) (v : Nat) : (l.fset f v).keySect = l.keySect := rfl
@[simp] theorem Lane.fset_set (l : Lane) (f : Fld) (v : Nat) : (l.fset f v).set = l.set := rfl
@[simp] theorem Lane.fset_claim (l : Lane) (f : Fld) (v : Nat) : (l.fset f v).claim = l.claim := rfl
@[simp] theorem Lane.fset_standby (l : Lane) (f : Fld) (v : Nat) : (l.fset f v).standby = l.standby := rfl
@[simp] theorem Lane.fset_yielded (l : Lane) (f : Fld) (v : Nat) : (l.fset f v).yielded = l.yielded := rfl
@[simp] theorem Lane.fset_yieldNext (l : Lane) (f : Fld) (v : Nat) : (l.fset f v).yieldNext = l.yieldNext := rfl
@[simp] theorem Lane.fset_sent (l : Lane) (f : Fld) (v : Nat) : (l.fset f v).sent = l.sent := rfl
@[simp] theorem Lane.fset_wave (l : Lane) (f : Fld) (v : Nat) : (l.fset f v).wave = l.wave := rfl
@[simp] theorem Lane.fset_restT (l : Lane) (f : Fld) (v : Nat) : (l.fset f v).restT = l.restT := rfl
@[simp] theorem Lane.fset_surviving (l : Lane) (f : Fld) (v : Nat) : (l.fset f v).surviving = l.surviving := rfl
@[simp] theorem Lane.fset_openAtEntry (l : Lane) (f : Fld) (v : Nat) : (l.fset f v).openAtEntry = l.openAtEntry := rfl
@[simp] theorem Lane.fset_cmpOwn (l : Lane) (f : Fld) (v : Nat) : (l.fset f v).cmpOwn = l.cmpOwn := rfl
@[simp] theorem Lane.fset_cmpRun (l : Lane) (f : Fld) (v : Nat) : (l.fset f v).cmpRun = l.cmpRun := rfl
@[simp] theorem Lane.fset_peerReady (l : Lane) (f : Fld) (v : Nat) : (l.fset f v).peerReady = l.peerReady := rfl
@[simp] theorem Lane.fset_idle (l : Lane) (f : Fld) (v : Nat) : (l.fset f v).idle = l.idle := rfl
@[simp] theorem Lane.fset_rst (l : Lane) (f : Fld) (v : Nat) : (l.fset f v).rst = l.rst := rfl
@[simp] theorem Lane.fset_badBanks (l : Lane) (f : Fld) (v : Nat) : (l.fset f v).badBanks = l.badBanks := rfl
@[simp] theorem Lane.fset_notes (l : Lane) (f : Fld) (v : Nat) : (l.fset f v).notes = l.notes := rfl

@[simp] theorem Lane.fsat_id (l : Lane) (f : Fld) (n : Nat) : (l.fsat f n).id = l.id := rfl
@[simp] theorem Lane.fsat_sram (l : Lane) (f : Fld) (n : Nat) : (l.fsat f n).sram = l.sram := rfl
@[simp] theorem Lane.fsat_cells (l : Lane) (f : Fld) (n : Nat) : (l.fsat f n).cells = l.cells := rfl
@[simp] theorem Lane.fsat_ard (l : Lane) (f : Fld) (n : Nat) : (l.fsat f n).ard = l.ard := rfl
@[simp] theorem Lane.fsat_rstat (l : Lane) (f : Fld) (n : Nat) : (l.fsat f n).rstat = l.rstat := rfl
@[simp] theorem Lane.fsat_pstore (l : Lane) (f : Fld) (n : Nat) : (l.fsat f n).pstore = l.pstore := rfl
@[simp] theorem Lane.fsat_rle (l : Lane) (f : Fld) (n : Nat) : (l.fsat f n).rle = l.rle := rfl
@[simp] theorem Lane.fsat_fol (l : Lane) (f : Fld) (n : Nat) : (l.fsat f n).fol = l.fol := rfl
@[simp] theorem Lane.fsat_start (l : Lane) (f : Fld) (n : Nat) : (l.fsat f n).start = l.start := rfl
@[simp] theorem Lane.fsat_tasks (l : Lane) (f : Fld) (n : Nat) : (l.fsat f n).tasks = l.tasks := rfl
@[simp] theorem Lane.fsat_ctxs (l : Lane) (f : Fld) (n : Nat) : (l.fsat f n).ctxs = l.ctxs := rfl
@[simp] theorem Lane.fsat_due (l : Lane) (f : Fld) (n : Nat) : (l.fsat f n).due = l.due := rfl
@[simp] theorem Lane.fsat_gone (l : Lane) (f : Fld) (n : Nat) : (l.fsat f n).gone = l.gone := rfl
@[simp] theorem Lane.fsat_readm (l : Lane) (f : Fld) (n : Nat) : (l.fsat f n).readm = l.readm := rfl
@[simp] theorem Lane.fsat_xl0 (l : Lane) (f : Fld) (n : Nat) : (l.fsat f n).xl0 = l.xl0 := rfl
@[simp] theorem Lane.fsat_xl1 (l : Lane) (f : Fld) (n : Nat) : (l.fsat f n).xl1 = l.xl1 := rfl
@[simp] theorem Lane.fsat_core0 (l : Lane) (f : Fld) (n : Nat) : (l.fsat f n).core0 = l.core0 := rfl
@[simp] theorem Lane.fsat_core1 (l : Lane) (f : Fld) (n : Nat) : (l.fsat f n).core1 = l.core1 := rfl
@[simp] theorem Lane.fsat_sig (l : Lane) (f : Fld) (n : Nat) : (l.fsat f n).sig = l.sig := rfl
@[simp] theorem Lane.fsat_wdt (l : Lane) (f : Fld) (n : Nat) : (l.fsat f n).wdt = l.wdt := rfl
@[simp] theorem Lane.fsat_prog (l : Lane) (f : Fld) (n : Nat) : (l.fsat f n).prog = l.prog := rfl
@[simp] theorem Lane.fsat_fld (l : Lane) (f : Fld) (n : Nat) : (l.fsat f n).fld = l.fld := rfl
@[simp] theorem Lane.fsat_brg (l : Lane) (f : Fld) (n : Nat) : (l.fsat f n).brg = l.brg := rfl
@[simp] theorem Lane.fsat_crc (l : Lane) (f : Fld) (n : Nat) : (l.fsat f n).crc = l.crc := rfl
@[simp] theorem Lane.fsat_conns (l : Lane) (f : Fld) (n : Nat) : (l.fsat f n).conns = l.conns := rfl
@[simp] theorem Lane.fsat_descs (l : Lane) (f : Fld) (n : Nat) : (l.fsat f n).descs = l.descs := rfl
@[simp] theorem Lane.fsat_keys (l : Lane) (f : Fld) (n : Nat) : (l.fsat f n).keys = l.keys := rfl
@[simp] theorem Lane.fsat_keySect (l : Lane) (f : Fld) (n : Nat) : (l.fsat f n).keySect = l.keySect := rfl
@[simp] theorem Lane.fsat_set (l : Lane) (f : Fld) (n : Nat) : (l.fsat f n).set = l.set := rfl
@[simp] theorem Lane.fsat_claim (l : Lane) (f : Fld) (n : Nat) : (l.fsat f n).claim = l.claim := rfl
@[simp] theorem Lane.fsat_standby (l : Lane) (f : Fld) (n : Nat) : (l.fsat f n).standby = l.standby := rfl
@[simp] theorem Lane.fsat_yielded (l : Lane) (f : Fld) (n : Nat) : (l.fsat f n).yielded = l.yielded := rfl
@[simp] theorem Lane.fsat_yieldNext (l : Lane) (f : Fld) (n : Nat) : (l.fsat f n).yieldNext = l.yieldNext := rfl
@[simp] theorem Lane.fsat_sent (l : Lane) (f : Fld) (n : Nat) : (l.fsat f n).sent = l.sent := rfl
@[simp] theorem Lane.fsat_wave (l : Lane) (f : Fld) (n : Nat) : (l.fsat f n).wave = l.wave := rfl
@[simp] theorem Lane.fsat_restT (l : Lane) (f : Fld) (n : Nat) : (l.fsat f n).restT = l.restT := rfl
@[simp] theorem Lane.fsat_surviving (l : Lane) (f : Fld) (n : Nat) : (l.fsat f n).surviving = l.surviving := rfl
@[simp] theorem Lane.fsat_openAtEntry (l : Lane) (f : Fld) (n : Nat) : (l.fsat f n).openAtEntry = l.openAtEntry := rfl
@[simp] theorem Lane.fsat_cmpOwn (l : Lane) (f : Fld) (n : Nat) : (l.fsat f n).cmpOwn = l.cmpOwn := rfl
@[simp] theorem Lane.fsat_cmpRun (l : Lane) (f : Fld) (n : Nat) : (l.fsat f n).cmpRun = l.cmpRun := rfl
@[simp] theorem Lane.fsat_peerReady (l : Lane) (f : Fld) (n : Nat) : (l.fsat f n).peerReady = l.peerReady := rfl
@[simp] theorem Lane.fsat_idle (l : Lane) (f : Fld) (n : Nat) : (l.fsat f n).idle = l.idle := rfl
@[simp] theorem Lane.fsat_rst (l : Lane) (f : Fld) (n : Nat) : (l.fsat f n).rst = l.rst := rfl
@[simp] theorem Lane.fsat_badBanks (l : Lane) (f : Fld) (n : Nat) : (l.fsat f n).badBanks = l.badBanks := rfl
@[simp] theorem Lane.fsat_notes (l : Lane) (f : Fld) (n : Nat) : (l.fsat f n).notes = l.notes := rfl

@[simp] theorem Lane.raise_id (l : Lane) (n : Nat) : (l.raise n).id = l.id := rfl
@[simp] theorem Lane.raise_sram (l : Lane) (n : Nat) : (l.raise n).sram = l.sram := rfl
@[simp] theorem Lane.raise_cells (l : Lane) (n : Nat) : (l.raise n).cells = l.cells := rfl
@[simp] theorem Lane.raise_ard (l : Lane) (n : Nat) : (l.raise n).ard = l.ard := rfl
@[simp] theorem Lane.raise_rstat (l : Lane) (n : Nat) : (l.raise n).rstat = l.rstat := rfl
@[simp] theorem Lane.raise_pstore (l : Lane) (n : Nat) : (l.raise n).pstore = l.pstore := rfl
@[simp] theorem Lane.raise_rle (l : Lane) (n : Nat) : (l.raise n).rle = l.rle := rfl
@[simp] theorem Lane.raise_fol (l : Lane) (n : Nat) : (l.raise n).fol = l.fol := rfl
@[simp] theorem Lane.raise_start (l : Lane) (n : Nat) : (l.raise n).start = l.start := rfl
@[simp] theorem Lane.raise_tasks (l : Lane) (n : Nat) : (l.raise n).tasks = l.tasks := rfl
@[simp] theorem Lane.raise_ctxs (l : Lane) (n : Nat) : (l.raise n).ctxs = l.ctxs := rfl
@[simp] theorem Lane.raise_due (l : Lane) (n : Nat) : (l.raise n).due = l.due := rfl
@[simp] theorem Lane.raise_gone (l : Lane) (n : Nat) : (l.raise n).gone = l.gone := rfl
@[simp] theorem Lane.raise_readm (l : Lane) (n : Nat) : (l.raise n).readm = l.readm := rfl
@[simp] theorem Lane.raise_xl0 (l : Lane) (n : Nat) : (l.raise n).xl0 = l.xl0 := rfl
@[simp] theorem Lane.raise_xl1 (l : Lane) (n : Nat) : (l.raise n).xl1 = l.xl1 := rfl
@[simp] theorem Lane.raise_core0 (l : Lane) (n : Nat) : (l.raise n).core0 = l.core0 := rfl
@[simp] theorem Lane.raise_core1 (l : Lane) (n : Nat) : (l.raise n).core1 = l.core1 := rfl
@[simp] theorem Lane.raise_sig (l : Lane) (n : Nat) : (l.raise n).sig = l.sig := rfl
@[simp] theorem Lane.raise_wdt (l : Lane) (n : Nat) : (l.raise n).wdt = l.wdt := rfl
@[simp] theorem Lane.raise_prog (l : Lane) (n : Nat) : (l.raise n).prog = l.prog := rfl
@[simp] theorem Lane.raise_fld (l : Lane) (n : Nat) : (l.raise n).fld = l.fld := rfl
@[simp] theorem Lane.raise_brg (l : Lane) (n : Nat) : (l.raise n).brg = l.brg := rfl
@[simp] theorem Lane.raise_crc (l : Lane) (n : Nat) : (l.raise n).crc = l.crc := rfl
@[simp] theorem Lane.raise_conns (l : Lane) (n : Nat) : (l.raise n).conns = l.conns := rfl
@[simp] theorem Lane.raise_descs (l : Lane) (n : Nat) : (l.raise n).descs = l.descs := rfl
@[simp] theorem Lane.raise_keys (l : Lane) (n : Nat) : (l.raise n).keys = l.keys := rfl
@[simp] theorem Lane.raise_keySect (l : Lane) (n : Nat) : (l.raise n).keySect = l.keySect := rfl
@[simp] theorem Lane.raise_set (l : Lane) (n : Nat) : (l.raise n).set = l.set := rfl
@[simp] theorem Lane.raise_claim (l : Lane) (n : Nat) : (l.raise n).claim = l.claim := rfl
@[simp] theorem Lane.raise_standby (l : Lane) (n : Nat) : (l.raise n).standby = l.standby := rfl
@[simp] theorem Lane.raise_yielded (l : Lane) (n : Nat) : (l.raise n).yielded = l.yielded := rfl
@[simp] theorem Lane.raise_yieldNext (l : Lane) (n : Nat) : (l.raise n).yieldNext = l.yieldNext := rfl
@[simp] theorem Lane.raise_sent (l : Lane) (n : Nat) : (l.raise n).sent = l.sent := rfl
@[simp] theorem Lane.raise_wave (l : Lane) (n : Nat) : (l.raise n).wave = l.wave := rfl
@[simp] theorem Lane.raise_restT (l : Lane) (n : Nat) : (l.raise n).restT = l.restT := rfl
@[simp] theorem Lane.raise_surviving (l : Lane) (n : Nat) : (l.raise n).surviving = l.surviving := rfl
@[simp] theorem Lane.raise_openAtEntry (l : Lane) (n : Nat) : (l.raise n).openAtEntry = l.openAtEntry := rfl
@[simp] theorem Lane.raise_cmpOwn (l : Lane) (n : Nat) : (l.raise n).cmpOwn = l.cmpOwn := rfl
@[simp] theorem Lane.raise_cmpRun (l : Lane) (n : Nat) : (l.raise n).cmpRun = l.cmpRun := rfl
@[simp] theorem Lane.raise_peerReady (l : Lane) (n : Nat) : (l.raise n).peerReady = l.peerReady := rfl
@[simp] theorem Lane.raise_idle (l : Lane) (n : Nat) : (l.raise n).idle = l.idle := rfl
@[simp] theorem Lane.raise_rst (l : Lane) (n : Nat) : (l.raise n).rst = l.rst := rfl
@[simp] theorem Lane.raise_badBanks (l : Lane) (n : Nat) : (l.raise n).badBanks = l.badBanks := rfl
@[simp] theorem Lane.raise_notes (l : Lane) (n : Nat) : (l.raise n).notes = l.notes := rfl

@[simp] theorem Lane.at_id (l : Lane) (t : Nat) : (l.at t).id = l.id := rfl
@[simp] theorem Lane.at_reg (l : Lane) (t : Nat) : (l.at t).reg = l.reg := rfl
@[simp] theorem Lane.at_sram (l : Lane) (t : Nat) : (l.at t).sram = l.sram := rfl
@[simp] theorem Lane.at_cells (l : Lane) (t : Nat) : (l.at t).cells = l.cells := rfl
@[simp] theorem Lane.at_ard (l : Lane) (t : Nat) : (l.at t).ard = l.ard := rfl
@[simp] theorem Lane.at_rstat (l : Lane) (t : Nat) : (l.at t).rstat = l.rstat := rfl
@[simp] theorem Lane.at_pstore (l : Lane) (t : Nat) : (l.at t).pstore = l.pstore := rfl
@[simp] theorem Lane.at_rle (l : Lane) (t : Nat) : (l.at t).rle = l.rle := rfl
@[simp] theorem Lane.at_start (l : Lane) (t : Nat) : (l.at t).start = l.start := rfl
@[simp] theorem Lane.at_tasks (l : Lane) (t : Nat) : (l.at t).tasks = l.tasks := rfl
@[simp] theorem Lane.at_ctxs (l : Lane) (t : Nat) : (l.at t).ctxs = l.ctxs := rfl
@[simp] theorem Lane.at_due (l : Lane) (t : Nat) : (l.at t).due = l.due := rfl
@[simp] theorem Lane.at_gone (l : Lane) (t : Nat) : (l.at t).gone = l.gone := rfl
@[simp] theorem Lane.at_readm (l : Lane) (t : Nat) : (l.at t).readm = l.readm := rfl
@[simp] theorem Lane.at_xl0 (l : Lane) (t : Nat) : (l.at t).xl0 = l.xl0 := rfl
@[simp] theorem Lane.at_xl1 (l : Lane) (t : Nat) : (l.at t).xl1 = l.xl1 := rfl
@[simp] theorem Lane.at_core0 (l : Lane) (t : Nat) : (l.at t).core0 = l.core0 := rfl
@[simp] theorem Lane.at_core1 (l : Lane) (t : Nat) : (l.at t).core1 = l.core1 := rfl
@[simp] theorem Lane.at_sig (l : Lane) (t : Nat) : (l.at t).sig = l.sig := rfl
@[simp] theorem Lane.at_wdt (l : Lane) (t : Nat) : (l.at t).wdt = l.wdt := rfl
@[simp] theorem Lane.at_prog (l : Lane) (t : Nat) : (l.at t).prog = l.prog := rfl
@[simp] theorem Lane.at_fld (l : Lane) (t : Nat) : (l.at t).fld = l.fld := rfl
@[simp] theorem Lane.at_brg (l : Lane) (t : Nat) : (l.at t).brg = l.brg := rfl
@[simp] theorem Lane.at_crc (l : Lane) (t : Nat) : (l.at t).crc = l.crc := rfl
@[simp] theorem Lane.at_conns (l : Lane) (t : Nat) : (l.at t).conns = l.conns := rfl
@[simp] theorem Lane.at_descs (l : Lane) (t : Nat) : (l.at t).descs = l.descs := rfl
@[simp] theorem Lane.at_keys (l : Lane) (t : Nat) : (l.at t).keys = l.keys := rfl
@[simp] theorem Lane.at_keySect (l : Lane) (t : Nat) : (l.at t).keySect = l.keySect := rfl
@[simp] theorem Lane.at_set (l : Lane) (t : Nat) : (l.at t).set = l.set := rfl
@[simp] theorem Lane.at_claim (l : Lane) (t : Nat) : (l.at t).claim = l.claim := rfl
@[simp] theorem Lane.at_standby (l : Lane) (t : Nat) : (l.at t).standby = l.standby := rfl
@[simp] theorem Lane.at_yielded (l : Lane) (t : Nat) : (l.at t).yielded = l.yielded := rfl
@[simp] theorem Lane.at_yieldNext (l : Lane) (t : Nat) : (l.at t).yieldNext = l.yieldNext := rfl
@[simp] theorem Lane.at_sent (l : Lane) (t : Nat) : (l.at t).sent = l.sent := rfl
@[simp] theorem Lane.at_wave (l : Lane) (t : Nat) : (l.at t).wave = l.wave := rfl
@[simp] theorem Lane.at_restT (l : Lane) (t : Nat) : (l.at t).restT = l.restT := rfl
@[simp] theorem Lane.at_surviving (l : Lane) (t : Nat) : (l.at t).surviving = l.surviving := rfl
@[simp] theorem Lane.at_openAtEntry (l : Lane) (t : Nat) : (l.at t).openAtEntry = l.openAtEntry := rfl
@[simp] theorem Lane.at_cmpOwn (l : Lane) (t : Nat) : (l.at t).cmpOwn = l.cmpOwn := rfl
@[simp] theorem Lane.at_cmpRun (l : Lane) (t : Nat) : (l.at t).cmpRun = l.cmpRun := rfl
@[simp] theorem Lane.at_peerReady (l : Lane) (t : Nat) : (l.at t).peerReady = l.peerReady := rfl
@[simp] theorem Lane.at_idle (l : Lane) (t : Nat) : (l.at t).idle = l.idle := rfl
@[simp] theorem Lane.at_rst (l : Lane) (t : Nat) : (l.at t).rst = l.rst := rfl
@[simp] theorem Lane.at_badBanks (l : Lane) (t : Nat) : (l.at t).badBanks = l.badBanks := rfl
@[simp] theorem Lane.at_notes (l : Lane) (t : Nat) : (l.at t).notes = l.notes := rfl

@[simp] theorem Lane.at_fol (l : Lane) (t : Nat) : (l.at t).fol = { l.fol with time := max l.fol.time t } := rfl

@[simp] theorem Lane.note_id (l : Lane) (blk cls rule : Nat) (data : List (Nat × Nat)) : (l.note blk cls rule data).id = l.id := rfl
@[simp] theorem Lane.note_reg (l : Lane) (blk cls rule : Nat) (data : List (Nat × Nat)) : (l.note blk cls rule data).reg = l.reg := rfl
@[simp] theorem Lane.note_sram (l : Lane) (blk cls rule : Nat) (data : List (Nat × Nat)) : (l.note blk cls rule data).sram = l.sram := rfl
@[simp] theorem Lane.note_cells (l : Lane) (blk cls rule : Nat) (data : List (Nat × Nat)) : (l.note blk cls rule data).cells = l.cells := rfl
@[simp] theorem Lane.note_ard (l : Lane) (blk cls rule : Nat) (data : List (Nat × Nat)) : (l.note blk cls rule data).ard = l.ard := rfl
@[simp] theorem Lane.note_rstat (l : Lane) (blk cls rule : Nat) (data : List (Nat × Nat)) : (l.note blk cls rule data).rstat = l.rstat := rfl
@[simp] theorem Lane.note_pstore (l : Lane) (blk cls rule : Nat) (data : List (Nat × Nat)) : (l.note blk cls rule data).pstore = l.pstore := rfl
@[simp] theorem Lane.note_rle (l : Lane) (blk cls rule : Nat) (data : List (Nat × Nat)) : (l.note blk cls rule data).rle = l.rle := rfl
@[simp] theorem Lane.note_fol (l : Lane) (blk cls rule : Nat) (data : List (Nat × Nat)) : (l.note blk cls rule data).fol = l.fol := rfl
@[simp] theorem Lane.note_start (l : Lane) (blk cls rule : Nat) (data : List (Nat × Nat)) : (l.note blk cls rule data).start = l.start := rfl
@[simp] theorem Lane.note_tasks (l : Lane) (blk cls rule : Nat) (data : List (Nat × Nat)) : (l.note blk cls rule data).tasks = l.tasks := rfl
@[simp] theorem Lane.note_ctxs (l : Lane) (blk cls rule : Nat) (data : List (Nat × Nat)) : (l.note blk cls rule data).ctxs = l.ctxs := rfl
@[simp] theorem Lane.note_due (l : Lane) (blk cls rule : Nat) (data : List (Nat × Nat)) : (l.note blk cls rule data).due = l.due := rfl
@[simp] theorem Lane.note_gone (l : Lane) (blk cls rule : Nat) (data : List (Nat × Nat)) : (l.note blk cls rule data).gone = l.gone := rfl
@[simp] theorem Lane.note_readm (l : Lane) (blk cls rule : Nat) (data : List (Nat × Nat)) : (l.note blk cls rule data).readm = l.readm := rfl
@[simp] theorem Lane.note_xl0 (l : Lane) (blk cls rule : Nat) (data : List (Nat × Nat)) : (l.note blk cls rule data).xl0 = l.xl0 := rfl
@[simp] theorem Lane.note_xl1 (l : Lane) (blk cls rule : Nat) (data : List (Nat × Nat)) : (l.note blk cls rule data).xl1 = l.xl1 := rfl
@[simp] theorem Lane.note_core0 (l : Lane) (blk cls rule : Nat) (data : List (Nat × Nat)) : (l.note blk cls rule data).core0 = l.core0 := rfl
@[simp] theorem Lane.note_core1 (l : Lane) (blk cls rule : Nat) (data : List (Nat × Nat)) : (l.note blk cls rule data).core1 = l.core1 := rfl
@[simp] theorem Lane.note_sig (l : Lane) (blk cls rule : Nat) (data : List (Nat × Nat)) : (l.note blk cls rule data).sig = l.sig := rfl
@[simp] theorem Lane.note_wdt (l : Lane) (blk cls rule : Nat) (data : List (Nat × Nat)) : (l.note blk cls rule data).wdt = l.wdt := rfl
@[simp] theorem Lane.note_prog (l : Lane) (blk cls rule : Nat) (data : List (Nat × Nat)) : (l.note blk cls rule data).prog = l.prog := rfl
@[simp] theorem Lane.note_fld (l : Lane) (blk cls rule : Nat) (data : List (Nat × Nat)) : (l.note blk cls rule data).fld = l.fld := rfl
@[simp] theorem Lane.note_brg (l : Lane) (blk cls rule : Nat) (data : List (Nat × Nat)) : (l.note blk cls rule data).brg = l.brg := rfl
@[simp] theorem Lane.note_crc (l : Lane) (blk cls rule : Nat) (data : List (Nat × Nat)) : (l.note blk cls rule data).crc = l.crc := rfl
@[simp] theorem Lane.note_conns (l : Lane) (blk cls rule : Nat) (data : List (Nat × Nat)) : (l.note blk cls rule data).conns = l.conns := rfl
@[simp] theorem Lane.note_descs (l : Lane) (blk cls rule : Nat) (data : List (Nat × Nat)) : (l.note blk cls rule data).descs = l.descs := rfl
@[simp] theorem Lane.note_keys (l : Lane) (blk cls rule : Nat) (data : List (Nat × Nat)) : (l.note blk cls rule data).keys = l.keys := rfl
@[simp] theorem Lane.note_keySect (l : Lane) (blk cls rule : Nat) (data : List (Nat × Nat)) : (l.note blk cls rule data).keySect = l.keySect := rfl
@[simp] theorem Lane.note_set (l : Lane) (blk cls rule : Nat) (data : List (Nat × Nat)) : (l.note blk cls rule data).set = l.set := rfl
@[simp] theorem Lane.note_claim (l : Lane) (blk cls rule : Nat) (data : List (Nat × Nat)) : (l.note blk cls rule data).claim = l.claim := rfl
@[simp] theorem Lane.note_standby (l : Lane) (blk cls rule : Nat) (data : List (Nat × Nat)) : (l.note blk cls rule data).standby = l.standby := rfl
@[simp] theorem Lane.note_yielded (l : Lane) (blk cls rule : Nat) (data : List (Nat × Nat)) : (l.note blk cls rule data).yielded = l.yielded := rfl
@[simp] theorem Lane.note_yieldNext (l : Lane) (blk cls rule : Nat) (data : List (Nat × Nat)) : (l.note blk cls rule data).yieldNext = l.yieldNext := rfl
@[simp] theorem Lane.note_sent (l : Lane) (blk cls rule : Nat) (data : List (Nat × Nat)) : (l.note blk cls rule data).sent = l.sent := rfl
@[simp] theorem Lane.note_wave (l : Lane) (blk cls rule : Nat) (data : List (Nat × Nat)) : (l.note blk cls rule data).wave = l.wave := rfl
@[simp] theorem Lane.note_restT (l : Lane) (blk cls rule : Nat) (data : List (Nat × Nat)) : (l.note blk cls rule data).restT = l.restT := rfl
@[simp] theorem Lane.note_surviving (l : Lane) (blk cls rule : Nat) (data : List (Nat × Nat)) : (l.note blk cls rule data).surviving = l.surviving := rfl
@[simp] theorem Lane.note_openAtEntry (l : Lane) (blk cls rule : Nat) (data : List (Nat × Nat)) : (l.note blk cls rule data).openAtEntry = l.openAtEntry := rfl
@[simp] theorem Lane.note_cmpOwn (l : Lane) (blk cls rule : Nat) (data : List (Nat × Nat)) : (l.note blk cls rule data).cmpOwn = l.cmpOwn := rfl
@[simp] theorem Lane.note_cmpRun (l : Lane) (blk cls rule : Nat) (data : List (Nat × Nat)) : (l.note blk cls rule data).cmpRun = l.cmpRun := rfl
@[simp] theorem Lane.note_peerReady (l : Lane) (blk cls rule : Nat) (data : List (Nat × Nat)) : (l.note blk cls rule data).peerReady = l.peerReady := rfl
@[simp] theorem Lane.note_idle (l : Lane) (blk cls rule : Nat) (data : List (Nat × Nat)) : (l.note blk cls rule data).idle = l.idle := rfl
@[simp] theorem Lane.note_rst (l : Lane) (blk cls rule : Nat) (data : List (Nat × Nat)) : (l.note blk cls rule data).rst = l.rst := rfl
@[simp] theorem Lane.note_badBanks (l : Lane) (blk cls rule : Nat) (data : List (Nat × Nat)) : (l.note blk cls rule data).badBanks = l.badBanks := rfl

@[simp] theorem Lane.modCtx_id (l : Lane) (c : Nat) (f : VoteCtx → VoteCtx) : (l.modCtx c f).id = l.id := rfl
@[simp] theorem Lane.modCtx_reg (l : Lane) (c : Nat) (f : VoteCtx → VoteCtx) : (l.modCtx c f).reg = l.reg := rfl
@[simp] theorem Lane.modCtx_sram (l : Lane) (c : Nat) (f : VoteCtx → VoteCtx) : (l.modCtx c f).sram = l.sram := rfl
@[simp] theorem Lane.modCtx_cells (l : Lane) (c : Nat) (f : VoteCtx → VoteCtx) : (l.modCtx c f).cells = l.cells := rfl
@[simp] theorem Lane.modCtx_ard (l : Lane) (c : Nat) (f : VoteCtx → VoteCtx) : (l.modCtx c f).ard = l.ard := rfl
@[simp] theorem Lane.modCtx_rstat (l : Lane) (c : Nat) (f : VoteCtx → VoteCtx) : (l.modCtx c f).rstat = l.rstat := rfl
@[simp] theorem Lane.modCtx_pstore (l : Lane) (c : Nat) (f : VoteCtx → VoteCtx) : (l.modCtx c f).pstore = l.pstore := rfl
@[simp] theorem Lane.modCtx_rle (l : Lane) (c : Nat) (f : VoteCtx → VoteCtx) : (l.modCtx c f).rle = l.rle := rfl
@[simp] theorem Lane.modCtx_fol (l : Lane) (c : Nat) (f : VoteCtx → VoteCtx) : (l.modCtx c f).fol = l.fol := rfl
@[simp] theorem Lane.modCtx_start (l : Lane) (c : Nat) (f : VoteCtx → VoteCtx) : (l.modCtx c f).start = l.start := rfl
@[simp] theorem Lane.modCtx_tasks (l : Lane) (c : Nat) (f : VoteCtx → VoteCtx) : (l.modCtx c f).tasks = l.tasks := rfl
@[simp] theorem Lane.modCtx_due (l : Lane) (c : Nat) (f : VoteCtx → VoteCtx) : (l.modCtx c f).due = l.due := rfl
@[simp] theorem Lane.modCtx_gone (l : Lane) (c : Nat) (f : VoteCtx → VoteCtx) : (l.modCtx c f).gone = l.gone := rfl
@[simp] theorem Lane.modCtx_readm (l : Lane) (c : Nat) (f : VoteCtx → VoteCtx) : (l.modCtx c f).readm = l.readm := rfl
@[simp] theorem Lane.modCtx_xl0 (l : Lane) (c : Nat) (f : VoteCtx → VoteCtx) : (l.modCtx c f).xl0 = l.xl0 := rfl
@[simp] theorem Lane.modCtx_xl1 (l : Lane) (c : Nat) (f : VoteCtx → VoteCtx) : (l.modCtx c f).xl1 = l.xl1 := rfl
@[simp] theorem Lane.modCtx_core0 (l : Lane) (c : Nat) (f : VoteCtx → VoteCtx) : (l.modCtx c f).core0 = l.core0 := rfl
@[simp] theorem Lane.modCtx_core1 (l : Lane) (c : Nat) (f : VoteCtx → VoteCtx) : (l.modCtx c f).core1 = l.core1 := rfl
@[simp] theorem Lane.modCtx_sig (l : Lane) (c : Nat) (f : VoteCtx → VoteCtx) : (l.modCtx c f).sig = l.sig := rfl
@[simp] theorem Lane.modCtx_wdt (l : Lane) (c : Nat) (f : VoteCtx → VoteCtx) : (l.modCtx c f).wdt = l.wdt := rfl
@[simp] theorem Lane.modCtx_prog (l : Lane) (c : Nat) (f : VoteCtx → VoteCtx) : (l.modCtx c f).prog = l.prog := rfl
@[simp] theorem Lane.modCtx_fld (l : Lane) (c : Nat) (f : VoteCtx → VoteCtx) : (l.modCtx c f).fld = l.fld := rfl
@[simp] theorem Lane.modCtx_brg (l : Lane) (c : Nat) (f : VoteCtx → VoteCtx) : (l.modCtx c f).brg = l.brg := rfl
@[simp] theorem Lane.modCtx_crc (l : Lane) (c : Nat) (f : VoteCtx → VoteCtx) : (l.modCtx c f).crc = l.crc := rfl
@[simp] theorem Lane.modCtx_conns (l : Lane) (c : Nat) (f : VoteCtx → VoteCtx) : (l.modCtx c f).conns = l.conns := rfl
@[simp] theorem Lane.modCtx_descs (l : Lane) (c : Nat) (f : VoteCtx → VoteCtx) : (l.modCtx c f).descs = l.descs := rfl
@[simp] theorem Lane.modCtx_keys (l : Lane) (c : Nat) (f : VoteCtx → VoteCtx) : (l.modCtx c f).keys = l.keys := rfl
@[simp] theorem Lane.modCtx_keySect (l : Lane) (c : Nat) (f : VoteCtx → VoteCtx) : (l.modCtx c f).keySect = l.keySect := rfl
@[simp] theorem Lane.modCtx_set (l : Lane) (c : Nat) (f : VoteCtx → VoteCtx) : (l.modCtx c f).set = l.set := rfl
@[simp] theorem Lane.modCtx_claim (l : Lane) (c : Nat) (f : VoteCtx → VoteCtx) : (l.modCtx c f).claim = l.claim := rfl
@[simp] theorem Lane.modCtx_standby (l : Lane) (c : Nat) (f : VoteCtx → VoteCtx) : (l.modCtx c f).standby = l.standby := rfl
@[simp] theorem Lane.modCtx_yielded (l : Lane) (c : Nat) (f : VoteCtx → VoteCtx) : (l.modCtx c f).yielded = l.yielded := rfl
@[simp] theorem Lane.modCtx_yieldNext (l : Lane) (c : Nat) (f : VoteCtx → VoteCtx) : (l.modCtx c f).yieldNext = l.yieldNext := rfl
@[simp] theorem Lane.modCtx_sent (l : Lane) (c : Nat) (f : VoteCtx → VoteCtx) : (l.modCtx c f).sent = l.sent := rfl
@[simp] theorem Lane.modCtx_wave (l : Lane) (c : Nat) (f : VoteCtx → VoteCtx) : (l.modCtx c f).wave = l.wave := rfl
@[simp] theorem Lane.modCtx_restT (l : Lane) (c : Nat) (f : VoteCtx → VoteCtx) : (l.modCtx c f).restT = l.restT := rfl
@[simp] theorem Lane.modCtx_surviving (l : Lane) (c : Nat) (f : VoteCtx → VoteCtx) : (l.modCtx c f).surviving = l.surviving := rfl
@[simp] theorem Lane.modCtx_openAtEntry (l : Lane) (c : Nat) (f : VoteCtx → VoteCtx) : (l.modCtx c f).openAtEntry = l.openAtEntry := rfl
@[simp] theorem Lane.modCtx_cmpOwn (l : Lane) (c : Nat) (f : VoteCtx → VoteCtx) : (l.modCtx c f).cmpOwn = l.cmpOwn := rfl
@[simp] theorem Lane.modCtx_cmpRun (l : Lane) (c : Nat) (f : VoteCtx → VoteCtx) : (l.modCtx c f).cmpRun = l.cmpRun := rfl
@[simp] theorem Lane.modCtx_peerReady (l : Lane) (c : Nat) (f : VoteCtx → VoteCtx) : (l.modCtx c f).peerReady = l.peerReady := rfl
@[simp] theorem Lane.modCtx_idle (l : Lane) (c : Nat) (f : VoteCtx → VoteCtx) : (l.modCtx c f).idle = l.idle := rfl
@[simp] theorem Lane.modCtx_rst (l : Lane) (c : Nat) (f : VoteCtx → VoteCtx) : (l.modCtx c f).rst = l.rst := rfl
@[simp] theorem Lane.modCtx_badBanks (l : Lane) (c : Nat) (f : VoteCtx → VoteCtx) : (l.modCtx c f).badBanks = l.badBanks := rfl
@[simp] theorem Lane.modCtx_notes (l : Lane) (c : Nat) (f : VoteCtx → VoteCtx) : (l.modCtx c f).notes = l.notes := rfl

/-! ### The hub -/

@[simp] theorem Hub.setRg_sram (h : Hub) (a : Nat) (v : Word) : (h.setRg a v).sram = h.sram := rfl
@[simp] theorem Hub.setRg_mbxA (h : Hub) (a : Nat) (v : Word) : (h.setRg a v).mbxA = h.mbxA := rfl
@[simp] theorem Hub.setRg_mbxB (h : Hub) (a : Nat) (v : Word) : (h.setRg a v).mbxB = h.mbxB := rfl
@[simp] theorem Hub.setRg_mbxC (h : Hub) (a : Nat) (v : Word) : (h.setRg a v).mbxC = h.mbxC := rfl
@[simp] theorem Hub.setRg_tb (h : Hub) (a : Nat) (v : Word) : (h.setRg a v).tb = h.tb := rfl
@[simp] theorem Hub.setRg_ticks (h : Hub) (a : Nat) (v : Word) : (h.setRg a v).ticks = h.ticks := rfl
@[simp] theorem Hub.setRg_portsOff (h : Hub) (a : Nat) (v : Word) : (h.setRg a v).portsOff = h.portsOff := rfl
@[simp] theorem Hub.setRg_up (h : Hub) (a : Nat) (v : Word) : (h.setRg a v).up = h.up := rfl
@[simp] theorem Hub.setRg_rings (h : Hub) (a : Nat) (v : Word) : (h.setRg a v).rings = h.rings := rfl
@[simp] theorem Hub.setRg_ptnr (h : Hub) (a : Nat) (v : Word) : (h.setRg a v).ptnr = h.ptnr := rfl
@[simp] theorem Hub.setRg_host (h : Hub) (a : Nat) (v : Word) : (h.setRg a v).host = h.host := rfl
@[simp] theorem Hub.setRg_sgw (h : Hub) (a : Nat) (v : Word) : (h.setRg a v).sgw = h.sgw := rfl
@[simp] theorem Hub.setRg_rcd (h : Hub) (a : Nat) (v : Word) : (h.setRg a v).rcd = h.rcd := rfl
@[simp] theorem Hub.setRg_crc0 (h : Hub) (a : Nat) (v : Word) : (h.setRg a v).crc0 = h.crc0 := rfl
@[simp] theorem Hub.setRg_crc1 (h : Hub) (a : Nat) (v : Word) : (h.setRg a v).crc1 = h.crc1 := rfl
@[simp] theorem Hub.setRg_upd (h : Hub) (a : Nat) (v : Word) : (h.setRg a v).upd = h.upd := rfl
@[simp] theorem Hub.setRg_set (h : Hub) (a : Nat) (v : Word) : (h.setRg a v).set = h.set := rfl
@[simp] theorem Hub.setRg_asm (h : Hub) (a : Nat) (v : Word) : (h.setRg a v).asm = h.asm := rfl
@[simp] theorem Hub.setRg_ethOut (h : Hub) (a : Nat) (v : Word) : (h.setRg a v).ethOut = h.ethOut := rfl
@[simp] theorem Hub.setRg_descs (h : Hub) (a : Nat) (v : Word) : (h.setRg a v).descs = h.descs := rfl
@[simp] theorem Hub.setRg_rst (h : Hub) (a : Nat) (v : Word) : (h.setRg a v).rst = h.rst := rfl
@[simp] theorem Hub.setRg_brst (h : Hub) (a : Nat) (v : Word) : (h.setRg a v).brst = h.brst := rfl
@[simp] theorem Hub.setRg_hot (h : Hub) (a : Nat) (v : Word) : (h.setRg a v).hot = h.hot := rfl
@[simp] theorem Hub.setRg_scrub (h : Hub) (a : Nat) (v : Word) : (h.setRg a v).scrub = h.scrub := rfl
@[simp] theorem Hub.setRg_badBanks (h : Hub) (a : Nat) (v : Word) : (h.setRg a v).badBanks = h.badBanks := rfl

@[simp] theorem Hub.fset_sram (h : Hub) (f : Fld) (v : Nat) : (h.fset f v).sram = h.sram := rfl
@[simp] theorem Hub.fset_mbxA (h : Hub) (f : Fld) (v : Nat) : (h.fset f v).mbxA = h.mbxA := rfl
@[simp] theorem Hub.fset_mbxB (h : Hub) (f : Fld) (v : Nat) : (h.fset f v).mbxB = h.mbxB := rfl
@[simp] theorem Hub.fset_mbxC (h : Hub) (f : Fld) (v : Nat) : (h.fset f v).mbxC = h.mbxC := rfl
@[simp] theorem Hub.fset_tb (h : Hub) (f : Fld) (v : Nat) : (h.fset f v).tb = h.tb := rfl
@[simp] theorem Hub.fset_ticks (h : Hub) (f : Fld) (v : Nat) : (h.fset f v).ticks = h.ticks := rfl
@[simp] theorem Hub.fset_portsOff (h : Hub) (f : Fld) (v : Nat) : (h.fset f v).portsOff = h.portsOff := rfl
@[simp] theorem Hub.fset_up (h : Hub) (f : Fld) (v : Nat) : (h.fset f v).up = h.up := rfl
@[simp] theorem Hub.fset_rings (h : Hub) (f : Fld) (v : Nat) : (h.fset f v).rings = h.rings := rfl
@[simp] theorem Hub.fset_ptnr (h : Hub) (f : Fld) (v : Nat) : (h.fset f v).ptnr = h.ptnr := rfl
@[simp] theorem Hub.fset_host (h : Hub) (f : Fld) (v : Nat) : (h.fset f v).host = h.host := rfl
@[simp] theorem Hub.fset_sgw (h : Hub) (f : Fld) (v : Nat) : (h.fset f v).sgw = h.sgw := rfl
@[simp] theorem Hub.fset_rcd (h : Hub) (f : Fld) (v : Nat) : (h.fset f v).rcd = h.rcd := rfl
@[simp] theorem Hub.fset_crc0 (h : Hub) (f : Fld) (v : Nat) : (h.fset f v).crc0 = h.crc0 := rfl
@[simp] theorem Hub.fset_crc1 (h : Hub) (f : Fld) (v : Nat) : (h.fset f v).crc1 = h.crc1 := rfl
@[simp] theorem Hub.fset_upd (h : Hub) (f : Fld) (v : Nat) : (h.fset f v).upd = h.upd := rfl
@[simp] theorem Hub.fset_set (h : Hub) (f : Fld) (v : Nat) : (h.fset f v).set = h.set := rfl
@[simp] theorem Hub.fset_asm (h : Hub) (f : Fld) (v : Nat) : (h.fset f v).asm = h.asm := rfl
@[simp] theorem Hub.fset_ethOut (h : Hub) (f : Fld) (v : Nat) : (h.fset f v).ethOut = h.ethOut := rfl
@[simp] theorem Hub.fset_descs (h : Hub) (f : Fld) (v : Nat) : (h.fset f v).descs = h.descs := rfl
@[simp] theorem Hub.fset_rst (h : Hub) (f : Fld) (v : Nat) : (h.fset f v).rst = h.rst := rfl
@[simp] theorem Hub.fset_brst (h : Hub) (f : Fld) (v : Nat) : (h.fset f v).brst = h.brst := rfl
@[simp] theorem Hub.fset_hot (h : Hub) (f : Fld) (v : Nat) : (h.fset f v).hot = h.hot := rfl
@[simp] theorem Hub.fset_scrub (h : Hub) (f : Fld) (v : Nat) : (h.fset f v).scrub = h.scrub := rfl
@[simp] theorem Hub.fset_badBanks (h : Hub) (f : Fld) (v : Nat) : (h.fset f v).badBanks = h.badBanks := rfl

@[simp] theorem Hub.fsat_sram (h : Hub) (f : Fld) (n : Nat) : (h.fsat f n).sram = h.sram := rfl
@[simp] theorem Hub.fsat_mbxA (h : Hub) (f : Fld) (n : Nat) : (h.fsat f n).mbxA = h.mbxA := rfl
@[simp] theorem Hub.fsat_mbxB (h : Hub) (f : Fld) (n : Nat) : (h.fsat f n).mbxB = h.mbxB := rfl
@[simp] theorem Hub.fsat_mbxC (h : Hub) (f : Fld) (n : Nat) : (h.fsat f n).mbxC = h.mbxC := rfl
@[simp] theorem Hub.fsat_tb (h : Hub) (f : Fld) (n : Nat) : (h.fsat f n).tb = h.tb := rfl
@[simp] theorem Hub.fsat_ticks (h : Hub) (f : Fld) (n : Nat) : (h.fsat f n).ticks = h.ticks := rfl
@[simp] theorem Hub.fsat_portsOff (h : Hub) (f : Fld) (n : Nat) : (h.fsat f n).portsOff = h.portsOff := rfl
@[simp] theorem Hub.fsat_up (h : Hub) (f : Fld) (n : Nat) : (h.fsat f n).up = h.up := rfl
@[simp] theorem Hub.fsat_rings (h : Hub) (f : Fld) (n : Nat) : (h.fsat f n).rings = h.rings := rfl
@[simp] theorem Hub.fsat_ptnr (h : Hub) (f : Fld) (n : Nat) : (h.fsat f n).ptnr = h.ptnr := rfl
@[simp] theorem Hub.fsat_host (h : Hub) (f : Fld) (n : Nat) : (h.fsat f n).host = h.host := rfl
@[simp] theorem Hub.fsat_sgw (h : Hub) (f : Fld) (n : Nat) : (h.fsat f n).sgw = h.sgw := rfl
@[simp] theorem Hub.fsat_rcd (h : Hub) (f : Fld) (n : Nat) : (h.fsat f n).rcd = h.rcd := rfl
@[simp] theorem Hub.fsat_crc0 (h : Hub) (f : Fld) (n : Nat) : (h.fsat f n).crc0 = h.crc0 := rfl
@[simp] theorem Hub.fsat_crc1 (h : Hub) (f : Fld) (n : Nat) : (h.fsat f n).crc1 = h.crc1 := rfl
@[simp] theorem Hub.fsat_upd (h : Hub) (f : Fld) (n : Nat) : (h.fsat f n).upd = h.upd := rfl
@[simp] theorem Hub.fsat_set (h : Hub) (f : Fld) (n : Nat) : (h.fsat f n).set = h.set := rfl
@[simp] theorem Hub.fsat_asm (h : Hub) (f : Fld) (n : Nat) : (h.fsat f n).asm = h.asm := rfl
@[simp] theorem Hub.fsat_ethOut (h : Hub) (f : Fld) (n : Nat) : (h.fsat f n).ethOut = h.ethOut := rfl
@[simp] theorem Hub.fsat_descs (h : Hub) (f : Fld) (n : Nat) : (h.fsat f n).descs = h.descs := rfl
@[simp] theorem Hub.fsat_rst (h : Hub) (f : Fld) (n : Nat) : (h.fsat f n).rst = h.rst := rfl
@[simp] theorem Hub.fsat_brst (h : Hub) (f : Fld) (n : Nat) : (h.fsat f n).brst = h.brst := rfl
@[simp] theorem Hub.fsat_hot (h : Hub) (f : Fld) (n : Nat) : (h.fsat f n).hot = h.hot := rfl
@[simp] theorem Hub.fsat_scrub (h : Hub) (f : Fld) (n : Nat) : (h.fsat f n).scrub = h.scrub := rfl
@[simp] theorem Hub.fsat_badBanks (h : Hub) (f : Fld) (n : Nat) : (h.fsat f n).badBanks = h.badBanks := rfl

@[simp] theorem Hub.modMbx_reg (h : Hub) (l : LaneId) (f : Mailbox → Mailbox) : (h.modMbx l f).reg = h.reg := by cases l <;> rfl
@[simp] theorem Hub.modMbx_sram (h : Hub) (l : LaneId) (f : Mailbox → Mailbox) : (h.modMbx l f).sram = h.sram := by cases l <;> rfl
@[simp] theorem Hub.modMbx_tb (h : Hub) (l : LaneId) (f : Mailbox → Mailbox) : (h.modMbx l f).tb = h.tb := by cases l <;> rfl
@[simp] theorem Hub.modMbx_ticks (h : Hub) (l : LaneId) (f : Mailbox → Mailbox) : (h.modMbx l f).ticks = h.ticks := by cases l <;> rfl
@[simp] theorem Hub.modMbx_portsOff (h : Hub) (l : LaneId) (f : Mailbox → Mailbox) : (h.modMbx l f).portsOff = h.portsOff := by cases l <;> rfl
@[simp] theorem Hub.modMbx_up (h : Hub) (l : LaneId) (f : Mailbox → Mailbox) : (h.modMbx l f).up = h.up := by cases l <;> rfl
@[simp] theorem Hub.modMbx_rings (h : Hub) (l : LaneId) (f : Mailbox → Mailbox) : (h.modMbx l f).rings = h.rings := by cases l <;> rfl
@[simp] theorem Hub.modMbx_ptnr (h : Hub) (l : LaneId) (f : Mailbox → Mailbox) : (h.modMbx l f).ptnr = h.ptnr := by cases l <;> rfl
@[simp] theorem Hub.modMbx_host (h : Hub) (l : LaneId) (f : Mailbox → Mailbox) : (h.modMbx l f).host = h.host := by cases l <;> rfl
@[simp] theorem Hub.modMbx_sgw (h : Hub) (l : LaneId) (f : Mailbox → Mailbox) : (h.modMbx l f).sgw = h.sgw := by cases l <;> rfl
@[simp] theorem Hub.modMbx_rcd (h : Hub) (l : LaneId) (f : Mailbox → Mailbox) : (h.modMbx l f).rcd = h.rcd := by cases l <;> rfl
@[simp] theorem Hub.modMbx_crc0 (h : Hub) (l : LaneId) (f : Mailbox → Mailbox) : (h.modMbx l f).crc0 = h.crc0 := by cases l <;> rfl
@[simp] theorem Hub.modMbx_crc1 (h : Hub) (l : LaneId) (f : Mailbox → Mailbox) : (h.modMbx l f).crc1 = h.crc1 := by cases l <;> rfl
@[simp] theorem Hub.modMbx_upd (h : Hub) (l : LaneId) (f : Mailbox → Mailbox) : (h.modMbx l f).upd = h.upd := by cases l <;> rfl
@[simp] theorem Hub.modMbx_set (h : Hub) (l : LaneId) (f : Mailbox → Mailbox) : (h.modMbx l f).set = h.set := by cases l <;> rfl
@[simp] theorem Hub.modMbx_asm (h : Hub) (l : LaneId) (f : Mailbox → Mailbox) : (h.modMbx l f).asm = h.asm := by cases l <;> rfl
@[simp] theorem Hub.modMbx_ethOut (h : Hub) (l : LaneId) (f : Mailbox → Mailbox) : (h.modMbx l f).ethOut = h.ethOut := by cases l <;> rfl
@[simp] theorem Hub.modMbx_descs (h : Hub) (l : LaneId) (f : Mailbox → Mailbox) : (h.modMbx l f).descs = h.descs := by cases l <;> rfl
@[simp] theorem Hub.modMbx_rst (h : Hub) (l : LaneId) (f : Mailbox → Mailbox) : (h.modMbx l f).rst = h.rst := by cases l <;> rfl
@[simp] theorem Hub.modMbx_brst (h : Hub) (l : LaneId) (f : Mailbox → Mailbox) : (h.modMbx l f).brst = h.brst := by cases l <;> rfl
@[simp] theorem Hub.modMbx_hot (h : Hub) (l : LaneId) (f : Mailbox → Mailbox) : (h.modMbx l f).hot = h.hot := by cases l <;> rfl
@[simp] theorem Hub.modMbx_scrub (h : Hub) (l : LaneId) (f : Mailbox → Mailbox) : (h.modMbx l f).scrub = h.scrub := by cases l <;> rfl
@[simp] theorem Hub.modMbx_badBanks (h : Hub) (l : LaneId) (f : Mailbox → Mailbox) : (h.modMbx l f).badBanks = h.badBanks := by cases l <;> rfl

@[simp] theorem Hub.mbx_modMbx (h : Hub) (l : LaneId) (f : Mailbox → Mailbox) : (h.modMbx l f).mbx l = f (h.mbx l) := by cases l <;> rfl

theorem Hub.mbx_modMbx_ne (h : Hub) {l k : LaneId} (f : Mailbox → Mailbox) (hk : k ≠ l) : (h.modMbx l f).mbx k = h.mbx k := by
  cases l <;> cases k <;> first | rfl | exact absurd rfl hk

end Sys2Proof.Machine
end

