-- ==== Sys2Proof/Laws/Regs.lean ====
section
/-! SUPPORT. Registers and fields: what each read gives after each write. A write of a field reads back its low bits; it leaves every
other register, and every field of the same register that shares no bit with it. -/

namespace Sys2Proof.Machine

/-! ### Fields of words -/

theorem setField_testBit (x lo w v i : Nat) :
    (setField x lo w v).testBit i = if i < lo then x.testBit i else if i < lo + w then v.testBit (i - lo) else x.testBit i := by
  have hlow : x % 2 ^ lo < 2 ^ lo := Nat.mod_lt _ (Nat.two_pow_pos _)
  have hmid : (v % 2 ^ w) <<< lo + x % 2 ^ lo < 2 ^ (lo + w) := by
    have := Nat.mod_lt v (Nat.two_pow_pos w)
    rw [Nat.shiftLeft_eq, Nat.pow_add]
    nlinarith [Nat.two_pow_pos lo, Nat.two_pow_pos w]
  unfold setField
  rw [Nat.add_assoc, Nat.shiftLeft_eq _ (lo + w), Nat.mul_comm _ (2 ^ (lo + w)), Nat.testBit_two_pow_mul_add _ hmid,
    Nat.shiftLeft_eq _ lo, Nat.mul_comm _ (2 ^ lo), Nat.testBit_two_pow_mul_add _ hlow]
  simp only [Nat.testBit_mod_two_pow, Nat.testBit_shiftRight]
  by_cases h1 : i < lo
  · have : i < lo + w := by omega
    simp [h1, this]
  · by_cases h2 : i < lo + w
    · have : i - lo < w := by omega
      simp [h1, h2, this]
    · have : lo + w + (i - (lo + w)) = i := by omega
      simp [h1, h2, this]

theorem getField_testBit (x lo w i : Nat) : (getField x lo w).testBit i = (decide (i < w) && x.testBit (lo + i)) := by
  unfold getField
  rw [Nat.testBit_mod_two_pow, Nat.testBit_shiftRight]

theorem getField_setField_same (x lo w v : Nat) : getField (setField x lo w v) lo w = v % 2 ^ w := by
  apply Nat.eq_of_testBit_eq
  intro i
  rw [getField_testBit, setField_testBit, Nat.testBit_mod_two_pow]
  by_cases h : i < w <;> simp [h]

theorem getField_setField_ne (x lo w v lo' w' : Nat) (h : lo' + w' ≤ lo ∨ lo + w ≤ lo') :
    getField (setField x lo w v) lo' w' = getField x lo' w' := by
  apply Nat.eq_of_testBit_eq
  intro i
  rw [getField_testBit, getField_testBit, setField_testBit]
  by_cases hi : i < w'
  · by_cases h1 : lo' + i < lo
    · simp [hi, h1]
    · have : ¬ lo' + i < lo + w := by omega
      simp [hi, h1, this]
  · simp [hi]

theorem getField_mod (x n lo w : Nat) (h : lo + w ≤ n) : getField (x % 2 ^ n) lo w = getField x lo w := by
  apply Nat.eq_of_testBit_eq
  intro i
  rw [getField_testBit, getField_testBit, Nat.testBit_mod_two_pow]
  by_cases hi : i < w
  · have : lo + i < n := by omega
    simp [hi, this]
  · simp [hi]

theorem getField_lt (x lo w : Nat) : getField x lo w < 2 ^ w := Nat.mod_lt _ (Nat.two_pow_pos _)

theorem bvField_bvSet_same {n : Nat} (x : BitVec n) (lo w v : Nat) (h : lo + w ≤ n) : bvField (bvSet x lo w v) lo w = v % 2 ^ w := by
  unfold bvField bvSet
  rw [BitVec.toNat_ofNat, getField_mod _ _ _ _ h, getField_setField_same]

theorem bvField_bvSet_ne {n : Nat} (x : BitVec n) (lo w v lo' w' : Nat) (hn : lo' + w' ≤ n) (h : lo' + w' ≤ lo ∨ lo + w ≤ lo') :
    bvField (bvSet x lo w v) lo' w' = bvField x lo' w' := by
  unfold bvField bvSet
  rw [BitVec.toNat_ofNat, getField_mod _ _ _ _ hn, getField_setField_ne _ _ _ _ _ _ h]

/-! ### Lane registers -/

@[simp] theorem Lane.rg_setRg_same (l : Lane) (a : Nat) (v : Word) : (l.setRg a v).rg a = v := sparseGet_set_same _ _ _ _

theorem Lane.rg_setRg_ne (l : Lane) {a b : Nat} (v : Word) (h : b ≠ a) : (l.setRg a v).rg b = l.rg b := sparseGet_set_ne _ _ _ h

theorem Lane.fget_fset_same (l : Lane) (f : Fld) (v : Nat) (h : f.lo + f.w ≤ 32) : (l.fset f v).fget f = v % 2 ^ f.w := by
  simp [Lane.fget, Lane.fset, bvField_bvSet_same _ _ _ _ h]

theorem Lane.fget_fset_addr (l : Lane) {f g : Fld} (v : Nat) (h : g.addr ≠ f.addr) : (l.fset f v).fget g = l.fget g := by
  simp [Lane.fget, Lane.fset, Lane.rg_setRg_ne _ _ h]

theorem Lane.fget_fset_bits (l : Lane) {f g : Fld} (v : Nat) (ha : g.addr = f.addr) (hg : g.lo + g.w ≤ 32)
    (h : g.lo + g.w ≤ f.lo ∨ f.lo + f.w ≤ g.lo) : (l.fset f v).fget g = l.fget g := by
  simp [Lane.fget, Lane.fset, ha, bvField_bvSet_ne _ _ _ _ _ _ hg h]

theorem Lane.rg_fset_ne (l : Lane) {f : Fld} {a : Nat} (v : Nat) (h : a ≠ f.addr) : (l.fset f v).rg a = l.rg a :=
  Lane.rg_setRg_ne _ _ h

theorem Lane.fget_setRg_ne (l : Lane) {f : Fld} {a : Nat} (v : Word) (h : f.addr ≠ a) : (l.setRg a v).fget f = l.fget f := by
  simp [Lane.fget, Lane.rg_setRg_ne _ _ h]

theorem Lane.rg_raise_ne (l : Lane) {a : Nat} (n : Nat) (h : a ≠ LCTL_IRQ_PEND) : (l.raise n).rg a = l.rg a := Lane.rg_setRg_ne _ _ h

theorem Lane.fget_raise_ne (l : Lane) {f : Fld} (n : Nat) (h : f.addr ≠ LCTL_IRQ_PEND) : (l.raise n).fget f = l.fget f :=
  Lane.fget_setRg_ne _ _ h

@[simp] theorem Lane.rg_raise_same (l : Lane) (n : Nat) :
    (l.raise n).rg LCTL_IRQ_PEND = l.rg LCTL_IRQ_PEND ||| BitVec.ofNat 32 (2 ^ n) := Lane.rg_setRg_same _ _ _

@[simp] theorem Lane.rg_at (l : Lane) (t a : Nat) : (l.at t).rg a = l.rg a := rfl
@[simp] theorem Lane.fget_at (l : Lane) (t : Nat) (f : Fld) : (l.at t).fget f = l.fget f := rfl
@[simp] theorem Lane.on_at (l : Lane) (t : Nat) (f : Fld) : (l.at t).on f = l.on f := rfl
@[simp] theorem Lane.rg_note (l : Lane) (b c r : Nat) (d : List (Nat × Nat)) (a : Nat) : (l.note b c r d).rg a = l.rg a := rfl
@[simp] theorem Lane.fget_note (l : Lane) (b c r : Nat) (d : List (Nat × Nat)) (f : Fld) : (l.note b c r d).fget f = l.fget f := rfl
@[simp] theorem Lane.rg_modCtx (l : Lane) (c a : Nat) (f : VoteCtx → VoteCtx) : (l.modCtx c f).rg a = l.rg a := rfl
@[simp] theorem Lane.fget_modCtx (l : Lane) (c : Nat) (f : VoteCtx → VoteCtx) (g : Fld) : (l.modCtx c f).fget g = l.fget g := rfl

/-! ### Hub registers -/

@[simp] theorem Hub.rg_setRg_same (h : Hub) (a : Nat) (v : Word) : (h.setRg a v).rg a = v := sparseGet_set_same _ _ _ _

theorem Hub.rg_setRg_ne (h : Hub) {a b : Nat} (v : Word) (hb : b ≠ a) : (h.setRg a v).rg b = h.rg b := sparseGet_set_ne _ _ _ hb

theorem Hub.fget_fset_same (h : Hub) (f : Fld) (v : Nat) (hf : f.lo + f.w ≤ 32) : (h.fset f v).fget f = v % 2 ^ f.w := by
  simp [Hub.fget, Hub.fset, bvField_bvSet_same _ _ _ _ hf]

theorem Hub.fget_fset_addr (h : Hub) {f g : Fld} (v : Nat) (hg : g.addr ≠ f.addr) : (h.fset f v).fget g = h.fget g := by
  simp [Hub.fget, Hub.fset, Hub.rg_setRg_ne _ _ hg]

theorem Hub.fget_fset_bits (h : Hub) {f g : Fld} (v : Nat) (ha : g.addr = f.addr) (hg : g.lo + g.w ≤ 32)
    (hd : g.lo + g.w ≤ f.lo ∨ f.lo + f.w ≤ g.lo) : (h.fset f v).fget g = h.fget g := by
  simp [Hub.fget, Hub.fset, ha, bvField_bvSet_ne _ _ _ _ _ _ hg hd]

theorem Hub.rg_fset_ne (h : Hub) {f : Fld} {a : Nat} (v : Nat) (ha : a ≠ f.addr) : (h.fset f v).rg a = h.rg a :=
  Hub.rg_setRg_ne _ _ ha

theorem Hub.fget_setRg_ne (h : Hub) {f : Fld} {a : Nat} (v : Word) (hf : f.addr ≠ a) : (h.setRg a v).fget f = h.fget f := by
  simp [Hub.fget, Hub.rg_setRg_ne _ _ hf]

end Sys2Proof.Machine
end

