-- ==== Sys2Proof/Laws/Ops.lean ====
section
/-! SUPPORT. What each shared operation can do, said once: recorder submissions, the change of one lane, the leave and easy all. -/

namespace Sys2Proof.Machine

/-! ### The recorder's queue -/

theorem Hub.SameButRec.refl (h : Hub) : h.SameButRec h := ⟨rfl, fun _ _ => rfl⟩

theorem Hub.SameButRec.trans {h k m : Hub} (a : h.SameButRec k) (b : k.SameButRec m) : h.SameButRec m := by
  refine ⟨?_, fun x hx => (b.2 x hx).trans (a.2 x hx)⟩
  have := b.1; rw [a.1] at this; exact this

/-- A submission changes the recorder's queue and `REC_STAT` at most. -/
theorem Hub.submit_same (h : Hub) (x : RecSub) : h.SameButRec (h.submit x) := by
  unfold Hub.submit
  split
  · exact .refl h
  · split
    · exact ⟨rfl, fun _ _ => rfl⟩
    · refine ⟨rfl, fun a ha => ?_⟩
      exact Hub.rg_fset_ne h _ fun e => ha (List.mem_singleton.2 e)

theorem State.OnlyLane.refl (s : State) (l : LaneId) : s.OnlyLane s l := ⟨fun _ _ => rfl, .refl _, rfl⟩

theorem State.OnlyLane.trans {s t u : State} {l : LaneId} (a : s.OnlyLane t l) (b : t.OnlyLane u l) : s.OnlyLane u l := by
  refine ⟨fun k hk => (b.1 k hk).trans (a.1 k hk), a.2.1.trans b.2.1, ?_⟩
  have := b.2.2; rw [a.2.2] at this; exact this

theorem State.onlyLane_modLane (s : State) (l : LaneId) (f : Lane → Lane) : s.OnlyLane (s.modLane l f) l :=
  ⟨fun _ hk => s.lane_modLane_ne f hk, by rw [State.modLane_hub]; exact .refl _, by cases l <;> rfl⟩

theorem State.onlyLane_setLane (s : State) (l : LaneId) (x : Lane) : s.OnlyLane (s.setLane l x) l :=
  ⟨fun _ hk => s.lane_setLane_ne x hk, by rw [State.setLane_hub]; exact .refl _, by cases l <;> rfl⟩

theorem State.onlyLane_at (s : State) (t : Nat) (l : LaneId) : s.OnlyLane (s.at t) l :=
  ⟨fun k _ => s.at_lane t k, .refl _, rfl⟩

theorem State.onlyLane_laneAt (s : State) (l : LaneId) (t : Nat) : s.OnlyLane (s.laneAt l t) l :=
  (s.onlyLane_at t l).trans ((s.at t).onlyLane_modLane l _)

theorem State.onlyLane_recLane (s : State) (l : LaneId) (b c r : Nat) (d : List (Nat × Nat)) : s.OnlyLane (s.recLane l b c r d) l :=
  ⟨fun k _ => s.modHub_lane _ k, Hub.submit_same _ _, rfl⟩

@[simp] theorem State.recLane_lane (s : State) (l k : LaneId) (b c r : Nat) (d : List (Nat × Nat)) :
    (s.recLane l b c r d).lane k = s.lane k := s.modHub_lane _ k

theorem State.onlyLane_foldl_recLane (l : LaneId) (ns : List RecNote) (s : State) :
    s.OnlyLane (ns.foldl (fun (s : State) n => s.recLane l n.blk n.cls n.rule n.data) s) l ∧
      ∀ k, (ns.foldl (fun (s : State) n => s.recLane l n.blk n.cls n.rule n.data) s).lane k = s.lane k := by
  induction ns generalizing s with
  | nil => exact ⟨.refl s l, fun _ => rfl⟩
  | cons n ns ih =>
    have h := ih (s.recLane l n.blk n.cls n.rule n.data)
    exact ⟨(s.onlyLane_recLane l _ _ _ _).trans h.1, fun k => (h.2 k).trans (s.recLane_lane l k _ _ _ _)⟩

/-- Handing on a lane's submissions changes that lane's list of them and the recorder's queue. -/
theorem State.onlyLane_flushNotes (s : State) (l : LaneId) : s.OnlyLane (s.flushNotes l) l :=
  (s.onlyLane_foldl_recLane l _).1.trans (State.onlyLane_modLane _ l _)

@[simp] theorem State.flushNotes_lane (s : State) (l : LaneId) : (s.flushNotes l).lane l = { s.lane l with notes := [] } := by
  unfold State.flushNotes
  rw [State.lane_modLane, (s.onlyLane_foldl_recLane l _).2 l]

/-- All that a change of one lane does: the change itself, its submissions handed on, and nothing else. -/
theorem State.upLane_next (s : State) (l : LaneId) (f : Lane → Lane) (h : (s.lane l).rst.held = false) :
    s.OnlyLane (s.upLane l f) l ∧ (s.upLane l f).lane l = { f (s.lane l) with notes := [] } := by
  unfold State.upLane
  simp only [h, Bool.false_eq_true, if_false]
  exact ⟨(s.onlyLane_modLane l f).trans (State.onlyLane_flushNotes _ l), by rw [State.flushNotes_lane, State.lane_modLane]⟩

/-- A lane held in reset takes no command. -/
theorem State.upLane_held (s : State) (l : LaneId) (f : Lane → Lane) (h : (s.lane l).rst.held = true) : s.upLane l f = s := by
  unfold State.upLane; simp [h]

/-- The change of one lane at a time of its follower. -/
theorem State.upLane_laneAt_next (s : State) (l : LaneId) (t : Nat) (f : Lane → Lane) (h : (s.lane l).rst.held = false) :
    s.OnlyLane ((s.laneAt l t).upLane l f) l ∧ ((s.laneAt l t).upLane l f).lane l = { f ((s.lane l).at t) with notes := [] } := by
  have h' : ((s.laneAt l t).lane l).rst.held = false := by rw [State.lane_laneAt]; exact h
  have := (s.laneAt l t).upLane_next l f h'
  exact ⟨(s.onlyLane_laneAt l t).trans this.1, by rw [this.2, State.lane_laneAt]⟩

end Sys2Proof.Machine
end

