-- ==== Sys2Proof/Tests/Slice0.lean ====
section
/-! SUPPORT. Tests. First a well-formedness smoke test (an ill-formed command for every check); then the worked cases and check values
of the manual; then, for every statement with hypotheses, one theorem whose conjuncts are states and operands that meet the
hypotheses of each of its clauses (the clauses whose witness needs more than evaluation have a theorem of their own). -/

namespace Sys2Proof.Tests

open Sys2Proof Sys2Proof.Machine

set_option maxRecDepth 20000
set_option Elab.async false

/-! ### Small states -/

/-- The next state of an outcome, the reset state where there is none. -/
def nx (o : Host.Outcome State Fault Refusal) : State := match o with | .next t => t | _ => State.reset
/-- A reset controller that has released its die. -/
def rel : RstInt := { rstReset with held := false, cold := false, trimOk := true }
/-- A lane out of reset, in sit ready. -/
def upL (l : LaneId) : Lane := { laneReset l with reg := [], rst := rel }
/-- The hub out of reset, its firmware running and its command interface ready. -/
def hub0 : Hub := { (({ hubReset with reg := [], rst := rel, up := true }.fset HCMD_STAT_READY 1).fset CLKC_HSTAT_XT_OK 1).fset CLKC_HSTAT_SDLOCK 1 with ticks := true }
/-- A module out of reset, in sit ready. -/
def m0 : State := { State.reset with la := upL .a, lb := upL .b, lc := upL .c, hub := hub0, aon := { aonReset with enLA := true, enLB := true, enLC := true, enSD := true } }
/-- Both links of a lane up. -/
def linked (x : Lane) : Lane :=
  let x := (x.fset XL_STAT_UP0 1).fset XL_STAT_UP1 1
  { x with xl0 := { x.xl0 with eff := true }, xl1 := { x.xl1 with eff := true } }
/-- A voter of a module that runs 2oo3, in the stroke task's cycle caught at 50 ms. -/
def voter (l : LaneId) : Lane :=
  let x := ((linked (upL l)).fset VOTE_STAT_MODE 1).fset VOTE_STAT_INVOTE 1
  let x := ((x.fset VOTE_STAT_INSET 7).fset VOTE_STAT_DYN_EN 1).fset VOTE_STAT_SIGN_EN 1
  let x := (x.fset TMR_STAT_RUNNING 1).fset TMR_STAT_ARMED 1
  { x with fol := { x.fol with tn := 50000000, time := 50000000 }, tasks := [{ taskNew 0 with active := true, tn := 50000000 }] }
/-- A module of three voters. -/
def m3 : State := { m0 with la := voter .a, lb := voter .b, lc := voter .c, now := 50000000, phase := .running }
/-- The stroke task in its cycle. -/
def k0 : TaskRun := { taskNew 0 with active := true, tn := 50000000 }
/-- The same, its consensus decided, in RUN. -/
def kDec : TaskRun := { k0 with decided := true, mode := .run }
/-- A consensus frame of that stroke. -/
def frame0 : ConsFrame :=
  { stroke := 1, tn := 50000000, sendTime := 50000000, holdover := false, inVote := true,
    img := { inp := 0, qst := 0, intest := 0, enc0 := 0, enc1 := 0 }, entries := [] }
/-- Change every lane. -/
def eachLane (s : State) (f : Lane → Lane) : State := ((s.modLane .a f).modLane .b f).modLane .c f
/-- An OPEN connection. -/
def conn0 : Conn := { Conn.init with st := .opened }
/-- Its descriptor: this module initiates, no tag, context 0. -/
def desc0 : ConnDesc := { ConnDesc.none with connid := 0x1234, cls := 1, cflags := 1, seqwin := 16, maxage := 1000, tmo := 1000, holdoff := 100 }
/-- A DATA telegram for it, with two lane codes. -/
def tlg1 : Tlg :=
  let t : Tlg := { tstamp := 49000000, seq := 1, claim := 0, payload := [], codeA := 0, codeB := 0, codeC := 0, tag := none, connid := 0x1234, type := tyData, flags := 2, keyid := 0, scrc := 0 }
  let t := { t with scrc := t.safetyCrc 0 }
  { t with codeA := t.laneCode 0, codeB := t.laneCode 0 }
/-- The same, of a commissioned connection. -/
def tlg2 : Tlg :=
  let t := { tlg1 with flags := 6 }
  let t := { t with scrc := t.safetyCrc 0 }
  { t with codeA := t.laneCode 0, codeB := t.laneCode 0 }
/-- The first one's bytes. -/
def tlg0 : List Byte := tlg1.bytes
/-- Its consensus entry. -/
def entry0 : ConsEntry := { conn := 0x1234, seq := 1, digest := BitVec.ofNat 32 (crc32c tlg0) }
/-- The stroke task, its consensus decided, with that telegram and another to fetch. -/
def kFetch : TaskRun := { k0 with decided := true, toFetch := [entry0, { entry0 with conn := 0x5678 }], peers := [(.b, { frame0 with entries := [entry0] })] }
/-- A lane whose start-up checks have passed. -/
def checked (x : Lane) : Lane :=
  { ((x.fset SIGC_STAT_INJ_PASS 1).fset BIST_STAT_VALID 1).fset RLE_STAT_CHK_OK 1 with start := { x.start with imageOk := true, fieldOk := true, retainOk := true }, fol := { x.fol with ratePass := 10 } }
/-- Lanes A and B run 2oo2; lane C is out, in the readmission step given. -/
def readmMod (step : Nat) : State :=
  let s := (m3.modLane .a fun x => x.setVoters [.a, .b]).modLane .b fun x => x.setVoters [.a, .b]
  s.modLane .c fun x => checked (((x.fset VOTE_STAT_INVOTE 0).fset VOTE_STAT_MODE (if step = 2 ∨ step = 3 then modeTransfer else modeOut)).fset VOTE_READM_RSTEP step)
/-- A cell of the given configuration and state fields. -/
def rcell (cfg st : List (CellFld × Nat)) : CellRec :=
  { st := st.foldl (fun w f => bvSet w f.1.1 f.1.2 f.2) 0, cfg := cfg.foldl (fun w f => bvSet w f.1.1 f.1.2 f.2) 0, lnk := 0 }
/-- A lane with route 1 over cells 1 to 3 in the status word given. -/
def rlane (w : Word) (cells : List (Nat × CellRec)) : Lane :=
  let x := (upL .a).writeSlot 0 [(1, 0), (2, 0), (3, 0)]
  { x with cells := cells, ard := [(5, 24)], rstat := [(1, w)] }
/-- A module with that lane A. -/
def rmod (w : Word) (cells : List (Nat × CellRec)) : State := { m0 with la := rlane w cells }
/-- Lane A locked. -/
def rlocked (cells : List (Nat × CellRec)) : State :=
  let x := ((upL .a).fset RLE_STAT_CHK_OK 1).fset RLE_STAT_LOCKED 1
  { m0 with la := { (x.setRg RLE_INBASE 0x08E00000).setRg RLE_OUTBASE 0x08E20000 with cells := cells } }
/-- A module whose cores run at supervisor level with interrupts enabled. -/
def mCore : State :=
  eachLane m3 fun x => { x with core0 := { x.core0 with pc := 0x100, tvec := 0x2000, status := 9, epc := 0x44 }, core1 := { x.core1 with pc := 0x100, tvec := 0x2000, status := 9, epc := 0x44 } }
/-- The same, split-core. -/
def mSplit : State := { mCore with fuses := { mCore.fuses with split := true } }
/-- Lane A's window 0 enabled for reads and writes, onto the start of hub SRAM. -/
def mBrg : State := m0.modLane .a fun x => ((x.fset (BRG_MAP_EN 0) 1).fset (BRG_MAP_WEN 0) 1).fset (BRG_MAP_HADDR 0) 16
/-- A read that window issued at 10 ms under tag 0. -/
def read0 : BrgRead := { tag := 0, addr := 0x21000040, bytes := 2, t0 := 10000000, t := 10000000, attempts := 0, code := 0 }
/-- A write posted at 10 ms. -/
def write0 : BrgWrite := { win := 0, addr := 0x21000040, bytes := 4, v := 0x11223344, t := 10000000 }
/-- The bridge of lane A changed. -/
def mBrgWith (f : BrgInt → BrgInt) : State := mBrg.modLane .a fun x => { x with brg := f x.brg }
/-- An event task, released every 2 ms at most, triggered by program timer 4. -/
def task0 : TaskDesc := { tnum := 1, event := true, prio := 1, ctx := 1, period := 2, trig := 3, tedge := 0, tsrc := 4, entry := 0, stack := 0, dvote := 5 }
/-- A program of identity 9 with that task and one retained variable. -/
def prog0 : Program :=
  { prgid := 9, codesz := 0, datasz := 16, retsz := 2,
    tasks := [task0],
    vars := [{ vid := 1, tcode := 2, vflags := 1, owner := 1, offset := 0, size := 2, thash := 0, omap := 0 }],
    codeAC := [], codeB := [], init := [0, 0], safe := [0, 0], bytes := [] }
/-- A lane with that program, and a task run of its task. -/
def withProg (x : Lane) (k : TaskRun) : Lane := { x with tasks := [k], prog := { x.prog with prog := some prog0, mode := .run, breaks := [(1, 0x40)], timers := [(4, 7)] } }
/-- A lane that holds a retain copy of stroke 5 with the bytes 1, 2. -/
def withRetain (x : Lane) : Lane :=
  let x := withProg x (taskNew 1)
  { x with start := { x.start with cold := false }, sram := memPutBytes (memPutBytes [] 0x08600000 (leBytes 4 5 ++ leBytes 8 9 ++ leBytes 4 2 ++ leBytes 4 (crc32c [1, 2]))) 0x08600040 [1, 2] }
/-- A lane in an online change to that program, at the stage given. -/
def changing (x : Lane) (st : ChgStage) : Lane :=
  { x with tasks := [], prog := { x.prog with prog := some prog0, lastFin := 50400000 + x.deadline, chg := { chgReset with stage := st, newProg := some prog0, digest := 0x55, seq := 3, agreedAt := some 50000000, catches := 64 } } }
/-- A journal record of the type given for that program. -/
def record0 (ty : Nat) : List Byte := closeEntry (beBytes 1 ty ++ zeros 7 ++ beBytes 8 9 ++ List.replicate 8 0xFF)
/-- The module of three voters with its FIELD die running. -/
def mFld : State := { m3 with field := { m3.field with powered := true, uv := false, cmpA := 2, cmpB := 2 }, fieldRst := rel }
/-- The die with its applied configuration word `i` set. -/
def mFldCfg (i : Nat) (v : Word) : State := { mFld with field := { mFld.field with cfg := mFld.field.cfg.set i v } }
/-- The same, lanes A and B driving channel 0. -/
def mDriven (i : Nat) (v : Word) : State :=
  ((mFldCfg i v).modLane .a fun x => { x with fld := { x.fld with dyn := 1 } }).modLane .b fun x => { x with fld := { x.fld with dyn := 1 } }
/-- An encoder at rest. -/
def encMeas0 : EncMeas := { pos := 0, ratio := 1000, rate := 0, quad := 0, states := [], lowNs := 0, dirNeg := false, index := false }
/-- A measurement with 1 mA into input 1 and nothing into the others. -/
def meas0 : FieldMeas := { sink := (List.replicate 32 0).set 1 1000, qrb := 0, enc0 := encMeas0, enc1 := encMeas0, vfs := 0 }
/-- The frame the die sends lane A. -/
def fieldFrameA : List Byte := (nx (exec (.fieldSample meas0 50000000) mFld)).field.frameA
/-- A library block of the kind given. -/
def blk0 (k : BlkKind) : BlkCfg :=
  { kind := k, task := 0, s1 := 0, s2 := 2, rst := [], discT := 500, tcyc := 0, antiv := false, auto := true, startup := false, enc := 0, active := 0, dirp := 0, vlim := 100, nwin := 1, pmin := 0, pmax := 0, dtol := 0 }
/-- A run of task 0 at a catch of 60 ms with input 0 OFF and input 2 ON. -/
def discRun0 : TaskRun := { taskNew 0 with active := true, decided := true, tn := 60000000, safe := (List.replicate 42 0#8).set 0 1 |>.set 2 2 }
/-- Lane A in that run with one library block. -/
def mDisc (r : BlkRun) : State := m3.modLane .a fun x => { x with tasks := [discRun0], prog := { x.prog with mode := .run, blocks := [(blk0 .guard, r)] } }
/-- Two lanes have sent that configuration, which the die has seen on port B. -/
def mSent (ws : List Word) : State :=
  let s := eachLane mFld fun x => { x with fld := { x.fld with cfgOut := ws } }
  { s with field := { s.field with cfgSeen := [(.b, ws)] } }
/-- What a block reads. -/
def blkIn0 : BlkIn := { t := 2000000, v1 := 2, v2 := 2, tst := false, rst := false, enc := 0, active := false, dirp := false }
/-- The die with input 3 under test pulses, a fault of it standing for one clean period. -/
def mFldT : State :=
  let s := mFldCfg 6 0x8009
  { s with field := { s.field with tpst := 0x40, clean := [(3, 1)] } }
/-- Every lane's agreed image shows input 4 OFF. -/
def mFldOff : State := eachLane mFld fun x => { x with fld := { x.fld with agreed := { x.fld.agreed with inp := 0x100 } } }
/-- Ring 0 enabled in the state given, ratings 0 and 1 valid: rating 0 with a cycle of 1 ms, a downlink slot and an uplink slot of node 7. -/
def mRing (st : Nat) : State :=
  let h := (((m0.hub.fset (RING_CTRL_EN 0) 1).fset (RING_STAT_STATE 0) st).fset RING_GSTAT_RVALID 3).fset RING_RTBASE_BASE 0x8500
  let w : List Nat := [0x80000064, 2, 0, 0, 200, 0x00050040, 0x07000000 + 1000, 0x00068040]
  let h := { h with sram := memPutBytes [] 0x08500000 (w.flatMap fun x => leBytes 4 x), set := { h.set with serial := 0x99 } }
  { m0 with hub := h.modRing 0 fun r => { r with tstart := 50000000, next := 51000000, lastSeen := [(7, 4)] }, now := 51000000 }
/-- The ring of that module changed. -/
def mRingWith (st : Nat) (f : RingInt → RingInt) : State := { mRing st with hub := (mRing st).hub.modRing 0 f }
/-- A cycle-start frame of another master. -/
def cycle0 : CycleMsg :=
  { ring := 0, rating := 0, wrapped := false, ann := false, unwrap := false, claim := 5, master := 0x77, cycle := 3, tstart := 50000000, delay := 0, nrating := 0,
    target := 0 }
/-- An uplink frame of node 7 in slot 1, with no telegram. -/
def slot0 : SlotMsg := { up := true, ring := 0, slot := 1, node := 7, cycle := 0, nstat := 0, ackr := 0, payload := [] }
/-- A page of resynchronisation, and one whose CRC fails. -/
def page0 : List Byte := pageContent 130 (List.replicate 4096 5)
/-- That page with other bytes under the same CRC. -/
def page0Bad : List Byte :=
  beBytes 2 130 ++ List.replicate 4096 5 ++ beBytes 4 (BitVec.ofNat 32 (crc32c (List.replicate 4096 5) + 1)).toNat
/-- A module of a pair in the role given. -/
def mPair (role : Nat) : State :=
  let h := ((m3.hub.fset PTNR_STAT_ROLE role).fset PTNR_STAT_READY 1).setRg PTNR_CLAIM 7
  { m3 with hub := { h with set := { h.set with pairEn := true, period := 50 }, upd := { h.upd with claim := 6 } } }
/-- A heartbeat of an active partner. -/
def heart0 : HeartbeatMsg := { role := 2, ready := 1, claim := 9, serial := 0x88, stroke := 3, tb := 60000000 }
/-- The partner unit of that module changed. -/
def mPairWith (role : Nat) (f : PtnrInt → PtnrInt) : State := { mPair role with hub := { (mPair role).hub with ptnr := f (mPair role).hub.ptnr } }
/-- The first telegram with a tag. -/
def tlgA : Tlg :=
  let t := { tlg1 with flags := 3 }
  let t := { t with scrc := t.safetyCrc 0 }
  let t := { t with codeA := t.laneCode 0, codeB := t.laneCode 0 }
  { t with tag := some (t.tagOf 0) }
/-- A lane whose connection 0 requires that tag. -/
def laneAuth : Lane := { (upL .a) with conns := [(0, conn0)], descs := [(0, { desc0 with cflags := 3 })], keys := [(0, { KeyEntry.none with key0 := some 0 })] }
/-- A slot's header: opcode, position, generation 1, the flags given. -/
def hdr0 (op q slot flags : Nat) : CmdHeader :=
  { opcode := BitVec.ofNat 16 op, tag := tagOf q slot 1, flags := BitVec.ofNat 16 flags, plen := 0, htmo := 0, res10 := 0, dinoff := 0,
    dinlen := 0, doutoff := 0x500000, doutlen := 0x1000, res28 := 0 }
/-- A header's bytes (R370). -/
def hdrBytes (h : CmdHeader) : List Byte :=
  leBytes 2 h.opcode.toNat ++ leBytes 2 h.tag.toNat ++ leBytes 2 h.flags.toNat ++ leBytes 2 h.plen.toNat ++ leBytes 2 h.htmo.toNat ++ leBytes 2 h.res10.toNat ++
    leBytes 4 h.dinoff.toNat ++ leBytes 4 h.dinlen.toNat ++ leBytes 4 h.doutoff.toNat ++ leBytes 4 h.doutlen.toNat ++ leBytes 4 h.res28.toNat
/-- A header in a slot. -/
def withHdr (s : State) (q slot : Nat) (h : CmdHeader) : State :=
  { s with hub := { s.hub with sram := memPutBytes s.hub.sram (slotAddr q slot) (hdrBytes h) } }
/-- The command of slot 1 of queue 0, doorbelled. -/
def cmdW (op : Nat) : HostCmd := { newCmd 0 1 (hdr0 op 0 1 0) (op / 256) 5 0 with active := false }
/-- The same, dispatched at 50 ms. -/
def cmdA (op : Nat) : HostCmd := { cmdW op with active := true, tDisp := 50000000 }
/-- Its reference. -/
def ref0 : CmdRef := { q := 0, slot := 1 }
/-- A module whose queues hold the commands given. -/
def withCmds (s : State) (cs : List HostCmd) : State := { s with hub := { s.hub with host := { s.hub.host with cmds := cs } } }
/-- The module of three voters with an active command of the opcode. -/
def mCmd (op : Nat) : State := withCmds m3 [cmdA op]
/-- The same, in sit ready. -/
def mSit (op : Nat) : State := withCmds m0 [cmdA op]
/-- A boot pointer in force with slot 1 on trial in every part. -/
def ptr1 : BootPtr := { rseq := 0, active := 0, trial := 1, parts := 0x1F, tries := 1, tbuild := 5 }
/-- Such a pointer stored. -/
def onTrial (s : State) : State := s.writePointer ptr1
/-- A map entry: standard identifier 0x123 of port 0, 16 bits, into the 8 bits of descriptor 0. -/
def sgwE : List Word := [0x80000000, 0x123, 0x80000, 0x100000, 0, 0x2000, 0, 0]
/-- Its descriptor: 8 bytes on port 1 at least 10 ms apart, timeout 100 ms. -/
def sgwD : List Word := [0x84000008, 0x200, 0x000A0064, 0]
/-- The gateway running that map. -/
def mSgw : State :=
  let h := (((m3.hub.fset (SGW_CANCFG_EN 0) 1).fset (SGW_CANCFG_EN 1) 1).fset SGW_CTRL_EN 1).fset SGW_STAT_LOADED 1
  { m3 with hub := { h with sgw := { sgwReset with entries := [(0, sgwE)], dests := [(0, sgwD)] } } }
/-- The same, the destination's running state given. -/
def mSgwWith (x : SgwDest) : State := { mSgw with hub := { mSgw.hub with sgw := { mSgw.hub.sgw with run := [(0, x)] } } }
/-- A destination with a value to send. -/
def dest0 : SgwDest := { destNew with fresh := true, sentOnce := true, lastVal := 50000000, lastSend := 50000000 }
/-- The hub of the module of three voters changed. -/
def mHub (f : Hub → Hub) : State := { m3 with hub := f m3.hub }
/-- The recorder running, changed. -/
def mRec (f : RecInt → RecInt) : State := mHub fun h => let h := h.fset REC_STAT_RUN 1; { h with rcd := f h.rcd }
/-- A submission. -/
def sub0 : RecSub := { t := 1, source := 2, code := 0x0201, data := [1, 2], bench := false }
/-- The first 512 bytes of an image of seven blocks. -/
def img0 (build : Nat) : List Byte :=
  let sect_ (ty : Nat) : List Byte := [BitVec.ofNat 8 ty, 0] ++ beBytes 2 ty ++ beBytes 2 1 ++ zeros 2 ++ beBytes 4 16 ++ zeros 4
  padTo 512 (beBytes 4 0x4F494631 ++ beBytes 2 1 ++ beBytes 2 7 ++ beBytes 8 build ++ zeros 16 ++ [1, 2, 3, 4, 5, 6].flatMap sect_)
/-- Its block 0, the rest of it erased. -/
def blk00 (build : Nat) : List Byte := img0 build ++ List.replicate 65024 0xFF#8
/-- An erased block. -/
def blkFF : List Byte := List.replicate 65536 0xFF#8
/-- The hold-up store charged: 4,700 µF at 24 V. -/
def charged (s : State) : State :=
  { s with hub := { s.hub with set := { s.hub.set with huC := 4700, huVmin := 9000, huDiv := 16, huIchg := 400, period := 50 }, upd := { s.hub.upd with vavg := 24000000 } } }
/-- A trial of slot 1 whose parts are those given. -/
def onParts (parts : Nat) (s : State) : State := s.writePointer { ptr1 with parts := parts }
/-- The update controller of the hub changed. -/
def withUpd (s : State) (f : UpdInt → UpdInt) : State := { s with hub := { s.hub with upd := f s.hub.upd } }
/-- A die's reset controller with the die held and ready to be released. -/
def ready0 : RstInt := { rstReset with cold := false, trimOk := true }
/-- A module in the power state given, entered at 50 ms, without voters. -/
def mPwr (p : PwrState) : State := { m0 with aon := { m0.aon with pwr := p, entryT := 50000000 } }
/-- The reset controller of lane A changed. -/
def withRst (s : State) (f : RstInt → RstInt) : State := s.modLane .a fun x => { x with rst := f x.rst }

/-! ### Kessel Junction -/

/-- The link word of two ports, the others open. -/
def lnkOf (c : Nat) (ps : List (Nat × Nat × Nat)) : BitVec 64 :=
  let open_ := bvSet (bvSet (bvSet (bvSet (0 : BitVec 64) 0 16 (4 * c)) 16 16 (4 * c + 1)) 32 16 (4 * c + 2)) 48 16 (4 * c + 3)
  ps.foldl (fun w p => bvSet w (16 * p.1) 16 (4 * p.2.1 + p.2.2)) open_
/-- A cell of Kessel Junction: identity, type, links, further configuration and state. -/
def kjc (c ty : Nat) (ps : List (Nat × Nat × Nat)) (cfg st : List (CellFld × Nat)) : Nat × CellRec :=
  (c, { rcell ((fTYPE, ty) :: cfg) st with lnk := lnkOf c ps })
/-- The cells of the worked case. -/
def kjCells : List (Nat × CellRec) :=
  [kjc 0x40E 1 [(1, 0x410, 0)] [] [(fOCC, 1)],
   kjc 0x410 3 [(0, 0x40E, 1), (1, 0x411, 0)] [(gAMAIN, 4), (gALT, 40), (gAPS, 0x40E)] [],
   kjc 0x411 1 [(0, 0x410, 1), (1, 0x412, 0)] [] [(fOCC, 1)],
   kjc 0x412 2 [(0, 0x411, 1), (1, 0x413, 0), (2, 0x414, 0)] [(gFLN0, 0x1059), (gMTO, 160)] [(fPOS, 1)],
   kjc 0x413 1 [(0, 0x412, 1), (1, 0x415, 1)] [] [(fOCC, 1)],
   kjc 0x414 1 [(0, 0x412, 2), (1, 0x415, 2)] [] [(fOCC, 1)],
   kjc 0x415 2 [(0, 0x480, 0), (1, 0x413, 1), (2, 0x414, 1)] [(gFLN0, 0x1097), (gMTO, 160)] [(fPOS, 2)],
   kjc 0x416 2 [] [(gMTO, 160)] [(fPOS, 1)],
   kjc 0x425 3 [] [(gAMAIN, 1)] [],
   kjc 0x480 1 [(0, 0x415, 0), (1, 0x481, 0)] [] [(fOCC, 1)],
   kjc 0x481 3 [(0, 0x480, 1), (1, 0x482, 0)] [(gAMAIN, 4)] [],
   kjc 0x482 1 [(0, 0x481, 1)] [] [(fOCC, 1)],
   kjc 0x490 5 [] [(gSIG, 0x481), (gOREL, 600), (gOPTR, 0x1C48), (gOLEN, 1)] []]
/-- Path bytes of variant 1. -/
def kjPath1 : List Byte := [0x04, 0x10, 0x04, 0x11, 0x44, 0x12, 0x04, 0x13, 0x44, 0x15, 0x04, 0x80, 0x04, 0x81]
/-- Path bytes of variant 2. -/
def kjPath2 : List Byte := [0x04, 0x10, 0x04, 0x11, 0x84, 0x12, 0x04, 0x14, 0x84, 0x15, 0x04, 0x80, 0x04, 0x81]
/-- The ARD window of the worked case. -/
def kjArd : List (Nat × Word) :=
  [(4 * 946, BitVec.ofNat 32 (crc32c kjPath1)), (4 * 946 + 1, 0xB0153838), (4 * 946 + 3, 0x00010070),
   (4 * 947, BitVec.ofNat 32 (crc32c kjPath2)), (4 * 947 + 1, 0x90953838), (4 * 947 + 3, 0x00000071),
   (0x4000 + 4 * 679, 0x10404818), (0x4000 + 4 * 679 + 1, 0x1C400100), (0x4000 + 4 * 679 + 2, 0x3B208000),
   (0x8000 + 0xE20, 0x04110410), (0x8000 + 0xE21, 0x04130412), (0x8000 + 0xE22, 0x04150414), (0x8000 + 0xE23, 0x04810480),
   (0x8000 + 0xE24, 0x00000482)]
/-- Lane A locked on that station data, the request of the worked case in its request table. -/
def kjLane : Lane :=
  let x := ((upL .a).fset RLE_STAT_CHK_OK 1).fset RLE_STAT_LOCKED 1
  let x := ((x.setRg RLE_INBASE 0x08E00000).setRg RLE_OUTBASE 0x08E20000).fset RLE_NREQ_NREQ 1
  { x.setRgs (reqAddr 0) [0x10800410, 0x12040000, 0x5A010000, 0x00000011] with cells := kjCells, ard := kjArd }
/-- The same, the corridor of its request marked. -/
def kjMarked : Lane := kjLane.markCorridor (kjLane.corridor 679) 1

/-! ### Well-formedness: what each check refuses -/

theorem test_ill_formed_1 :
    ([.registerWrite .hub 2 .read .plain, .registerWrite .hub 0 .read ⟨.task 48, 0, 0⟩, .registerWrite .hub 0 .read ⟨.firmware, 40, 0⟩,
        .badWidthAccess .hub 0 .byte .read ⟨.task 48, 0, 0⟩, .badWidthAccess .hub 0 .byte .read ⟨.firmware, 40, 0⟩, .unmappedAccess .hub 2
        .read, .catchInputs .a 48 0, .consensusFrame .a .a 48 [] 0, .telegramFetch .a .a 48 [], .telegramFetch .a .a 0 (zeros 257),
        .consensusDeadline .a 48 0, .voteInstant .a 48 true 0 ⟨[], [], 0⟩ 0, .voteInstant .a 0 true 0 ⟨[(16, 0)], [], 0⟩ 0, .voteInstant .a
        0 true 0 ⟨[(0, 1)], [], 0⟩ 0, .finish .a 48 0, .eventTaskRelease .a 48 0, .programTimerExpiry .a 16 0, .cellWindowWrite .a 2 .read
        0, .cellWindowWrite .a 0 .read 40, .rleCheck .a [(2, 1)], .rleCheck .a [(0, 40)], .rleStroke .a [(2, 1)], .rleStroke .a [(0, 40)],
        .approachTimerExpiry .a 4096, .overlapTimerExpiry .a 16384, .timedSectionRelease .a 16384, .moveTimeout .a 16384,
        .crossingCloseTimeout .a 16384, .level1Frame .a .a 8 [] 0, .level1Deadline .a 8 0, .segmentHashExchange .a .a 8 0 [] 0,
        .segmentHashExchange .a .a 0 128 [] 0, .segmentFetch .a .a 8 0 (zeros 64) 0, .segmentFetch .a .a 0 8192 (zeros 64) 0, .segmentFetch
        .a .a 0 0 [] 0] : List Instr).all (fun i => !i.wf) = true := by decide +kernel

theorem test_ill_formed_2 :
    ([.answerDeadline .a 8 0, .verdictFrame .a .a 8 ⟨0, 0, 0, 0, true⟩ 0, .verdictDeadline .a 8 0, .readmitPage .a .a 1152 0 (zeros 4096) 0
        true 0, .readmitPage .a .a 0 8 (zeros 4096) 0 true 0, .readmitPage .a .a 0 0 [] 0 true 0, .xlIdleSend .a 2 0, .xlFrame .a 2 0 [] 0
        true 0, .xlLinkTimeout .a 2 0, .xlRetrainTimer .a 2 0, .xlLinkUp .a 2, .xlRetrain .a 2, .xlErrClear .a 2, .trap .a 2 0 0, .trap .a 0
        8 0, .trapReturn .a 2, .sysregWrite .a 2 0 .read 0 0, .sysregWrite .a 0 0 .read 32 0, .taskException .a 48 0 0, .programBreakpoint
        .a 48 0, .fieldSample { meas0 with sink := [] } 0, .fieldFrame .a [] 0, .fieldConfigFrame .a [] 0, .comparatorDebounce 32 true true
        0, .testPulseGap 8 0, .testPulsePeriodEnd 32 ⟨false, false, false, false⟩, .calibrationStart 32 0, .outputOffTest 16 true 0,
        .openLoad 16, .overload 16, .shortVf 16, .offTestEnd 16 true [] true 0, .cycleStart 6 0, .cycleStartFrame 6 true [] 0, .downlinkSlot
        6 0 0] : List Instr).all (fun i => !i.wf) = true := by decide +kernel

theorem test_ill_formed_3 :
    ([.downlinkSlot 0 256 0, .uplinkFrame 6 true 0 [] 0, .delayMeasurement 6 true 0, .nodeAbsent 6 1, .nodeAbsent 0 65, .nodeAbsent 0 0,
        .ringListenTimeout 6 0, .ringEnable 6 0 0, .ringCmdAnnounce 6 0, .ringCmdAnnounce 0 8, .ringCmdCancel 6, .ringCmdRestart 6 0,
        .announceTarget 6, .lossOfSignal 6 true, .remoteFault 6 true, .ringWrap 6 true, .unwrapAnnounce 6, .ringErrClear 6 0,
        .supervisionTimeout .a 512 0, .corruptionClose .a 512 0, .corruptionDecay .a 512 0, .holdoffExpiry .a 512 0, .respondedTimeout .a
        512 0, .signEngineCheck .a 512 [], .signEngineCheck .a 0 (zeros 257), .ethernetFrame 4 [] 0, .heartbeat 2 [] pairZero 0 0,
        .yieldFrame 2 [] 0, .fwdList 2 [] 0, .fwdTlg 2 [] 0, .partnerEst 2 [] 0, .page 2 [], .fwdImg 2 [], .fwdAck 2 [], .sqDoorbell 4 0 0] : List Instr).all (fun i => !i.wf) = true := by decide +kernel

theorem test_ill_formed_4 :
    ([.sqDoorbell 0 256 0, .cqHeadWrite 4 0, .commandCompletion ⟨4, 0⟩, .commandCompletion ⟨0, 256⟩, .hubRetryExhausted ⟨4, 0⟩ 0,
        .hubRetryExhausted ⟨0, 256⟩ 0, .identify ⟨4, 0⟩, .identify ⟨0, 256⟩, .status ⟨4, 0⟩, .status ⟨0, 256⟩, .resumeTarget ⟨4, 0⟩,
        .resumeTarget ⟨0, 256⟩, .benchAuth ⟨4, 0⟩ 0 [], .benchAuth ⟨0, 256⟩ 0 [], .start ⟨4, 0⟩, .start ⟨0, 256⟩, .laneStatus ⟨4, 0⟩ .a,
        .laneStatus ⟨0, 256⟩ .a, .laneReset ⟨4, 0⟩ .a, .laneReset ⟨0, 256⟩ .a, .settingsRead ⟨4, 0⟩ 0 0, .settingsRead ⟨0, 256⟩ 0 0,
        .settingsWrite ⟨4, 0⟩ 0 0 [], .settingsWrite ⟨0, 256⟩ 0 0 [], .settingsCommit ⟨4, 0⟩ 0, .settingsCommit ⟨0, 256⟩ 0, .keySwitch ⟨4,
        0⟩ 0 0, .keySwitch ⟨0, 256⟩ 0 0, .keySwitch ref0 512 0, .keySwitch ref0 0 2, .stationInfo ⟨4, 0⟩, .stationInfo ⟨0, 256⟩, .keyLoad
        ⟨4, 0⟩ 0, .keyLoad ⟨0, 256⟩ 0, .keyLoad ref0 512] : List Instr).all (fun i => !i.wf) = true := by decide +kernel

theorem test_ill_formed_5 :
    ([.tlgSubmit ⟨4, 0⟩ 0 [] 0, .tlgSubmit ⟨0, 256⟩ 0 [] 0, .tlgSubmit ref0 512 [] 0, .tlgSubmit ref0 0 (zeros 257) 0, .tlgReceive ⟨4, 0⟩ 0,
        .tlgReceive ⟨0, 256⟩ 0, .tlgReceive ref0 512, .connClose ⟨4, 0⟩ 0, .connClose ⟨0, 256⟩ 0, .connClose ref0 512, .connStatus ⟨4, 0⟩ 0,
        .connStatus ⟨0, 256⟩ 0, .connStatus ref0 512, .prgStart ⟨4, 0⟩, .prgStart ⟨0, 256⟩, .prgStop ⟨4, 0⟩, .prgStop ⟨0, 256⟩, .prgContinue
        ⟨4, 0⟩, .prgContinue ⟨0, 256⟩, .prgChange ⟨4, 0⟩ [] [], .prgChange ⟨0, 256⟩ [] [], .forceSet ⟨4, 0⟩ 0 [], .forceSet ⟨0, 256⟩ 0 [],
        .forceClear ⟨4, 0⟩ 0, .forceClear ⟨0, 256⟩ 0, .commissionSet ⟨4, 0⟩ 0 [], .commissionSet ⟨0, 256⟩ 0 [], .breakSet ⟨4, 0⟩ 0 0,
        .breakSet ⟨0, 256⟩ 0 0, .breakSet ref0 48 0, .breakClear ⟨4, 0⟩ 0, .breakClear ⟨0, 256⟩ 0, .breakClear ref0 48, .prgStatus ⟨4, 0⟩,
        .prgStatus ⟨0, 256⟩] : List Instr).all (fun i => !i.wf) = true := by decide +kernel

theorem test_ill_formed_6 :
    ([.recRead ⟨4, 0⟩ 0 0, .recRead ⟨0, 256⟩ 0 0, .recHead ⟨4, 0⟩, .recHead ⟨0, 256⟩, .updBegin ⟨4, 0⟩ 0 0 [], .updBegin ⟨0, 256⟩ 0 0 [],
        .updBegin ref0 2 0 [], .updBlock ⟨4, 0⟩ 0 [], .updBlock ⟨0, 256⟩ 0 [], .updBlock ref0 512 [], .updVerify ⟨4, 0⟩ 0, .updVerify ⟨0,
        256⟩ 0, .updVerify ref0 2, .updActivate ⟨4, 0⟩ 0, .updActivate ⟨0, 256⟩ 0, .updActivate ref0 2, .updConfirm ⟨4, 0⟩, .updConfirm ⟨0,
        256⟩, .updStatus ⟨4, 0⟩ 0, .updStatus ⟨0, 256⟩ 0, .updStatus ref0 2, .updForward ⟨4, 0⟩ 0, .updForward ⟨0, 256⟩ 0, .updForward ref0
        2, .ringAnnounce ⟨4, 0⟩ 0 0, .ringAnnounce ⟨0, 256⟩ 0 0, .ringAnnounce ref0 6 0, .ringAnnounce ref0 0 8, .ringCancel ⟨4, 0⟩ 0,
        .ringCancel ⟨0, 256⟩ 0, .ringCancel ref0 6, .ringRestart ⟨4, 0⟩ 0 0, .ringRestart ⟨0, 256⟩ 0 0, .ringRestart ref0 6 0, .ringStatus
        ⟨4, 0⟩ 0] : List Instr).all (fun i => !i.wf) = true := by decide +kernel

theorem test_ill_formed_7 :
    ([.ringStatus ⟨0, 256⟩ 0, .ringStatus ref0 6, .pairYield ⟨4, 0⟩, .pairYield ⟨0, 256⟩, .pairStatus ⟨4, 0⟩, .pairStatus ⟨0, 256⟩,
        .fieldCal ⟨4, 0⟩ 0, .fieldCal ⟨0, 256⟩ 0, .fieldCal ref0 32, .fieldSnapshot ⟨4, 0⟩, .fieldSnapshot ⟨0, 256⟩, .easyAll ⟨4, 0⟩,
        .easyAll ⟨0, 256⟩, .moduleReset ⟨4, 0⟩ 0, .moduleReset ⟨0, 256⟩ 0, .hibernate ⟨4, 0⟩ 0 0, .hibernate ⟨0, 256⟩ 0 0, .funcReinit ⟨4,
        0⟩ 0 0, .funcReinit ⟨0, 256⟩ 0 0, .bistResults ⟨4, 0⟩, .bistResults ⟨0, 256⟩, .bistFullNext ⟨4, 0⟩, .bistFullNext ⟨0, 256⟩,
        .bridgeReadResponse .a 64 0 0, .bridgeReadTimeout .a 64 0, .bridgeReadBudget .a 64 0, .tagQuarantineEnd .a 64 0, .bridgeWriteAck .a
        8 0, .bridgeWriteTimeout .a 8 0, .hubExportRead .a 2, .hubLaneWrite .a 2 0, .semTake .a 32 true true, .semGive .a 32 true, .canFrame
        4 true 0 true [] true, .sgwDestinationSend 128 0] : List Instr).all (fun i => !i.wf) = true := by decide +kernel

theorem test_ill_formed_8 :
    ([.sgwSilenceTimeout 128 0, .busOffRecovery 4, .sgwCancntClear 4 0, .mailboxAccess .a true 0x40000 .byte .read none 0, .mailboxAccess .a
        true 0 .byte .read none 40, .holdSenseSample 4096 0, .brownOut .hub 8 0, .supplyOutOfRange .hub 4 0, .testPulseGapEnd 8 0,
        .overloadRelease 16 0, .canFrameSent 4 true, .signalRestored 6 true] : List Instr).all (fun i => !i.wf) = true := by decide +kernel

/-- Commands whose operands are in range pass. -/
theorem test_well_formed :
    ([.catchInputs .a 47 0, .xlLinkUp .a 1, .moveTimeout .b 16383, .sqDoorbell 3 255 0, .keyLoad ref0 0xFFFF,
      .nodeAbsent 5 64, .cellWindowWrite .a 0x10000004 .read 39,
      .registerWrite (.lane .a) 0x10000004 .read ⟨.task 47, 39, 0⟩] : List Instr).all (fun i => i.wf) = true := by decide +kernel

/-! ### Worked cases and check values of the manual -/

/-- The string the check values are given over. -/
def digits : List Byte := [0x31, 0x32, 0x33, 0x34, 0x35, 0x36, 0x37, 0x38, 0x39]

/-- R94, R445: CRC-32C over the string. -/
theorem test_crc32c : crc32c digits = 0xE3069283 := by decide +kernel
/-- R445: CRC-32 over the string. -/
theorem test_crc32 : crc32 digits = 0xCBF43926 := by decide +kernel
/-- R237: the field frame CRC over the string. -/
theorem test_crc16 : crc16 digits = 0x29B1 := by decide +kernel
/-- R153: the segment hash CRC over the string. -/
theorem test_crc64 : crc64 digits = 0x6C40DF5F0B497347 := by decide +kernel

/-- Worked case of R95: the two path hashes are those of the path bytes given. -/
theorem test_path_bytes :
    pathHash [(0x410, 0), (0x411, 0), (0x412, 1), (0x413, 0), (0x415, 1), (0x480, 0), (0x481, 0)] = crc32c kjPath1 ∧
      pathHash [(0x410, 0), (0x411, 0), (0x412, 2), (0x414, 0), (0x415, 2), (0x480, 0), (0x481, 0)] = crc32c kjPath2 := by decide +kernel
/-- Worked case of R95: ARD words 0xB015_3838 and 0x9095_3838, and the words of pair 679. -/
theorem test_ard_words :
    (kjLane.aValid 946, kjLane.aCls 946 0, kjLane.aCls 946 1, kjLane.aRank 946, kjLane.aPair 946, kjLane.aLen 946) = (true, true, true, 0, 0x2A7, 7) ∧
      (kjLane.aCls 947 0, kjLane.aCls 947 1, kjLane.aRank 947, kjLane.aPair 947, kjLane.aLen 947) = (true, false, 1, 0x2A7, 7) ∧
      (kjLane.pEntry 679, kjLane.pExit 679, kjLane.pValid 679, kjLane.variants 679) = (0x410, 0x481, true, [0x3B2, 0x3B3]) ∧
      kjLane.corridor 679 = [(0x410, 0), (0x411, 0), (0x412, 0), (0x413, 0), (0x414, 0), (0x415, 0), (0x480, 0), (0x481, 0)] := by
  decide +kernel
/-- Worked case of R95: 11 visits of the corridor's cells find both variants. -/
theorem test_exploration :
    let f := kjMarked.explore 0x410 0x481 0
    f.visits = 11 ∧ f.paths.length = 2 ∧ f.paths.all (fun p => pathHash p == crc32c kjPath1 || pathHash p == crc32c kjPath2) = true := by decide +kernel
/-- Worked case "a main route from K12 to K20": the result words, and the locked cells. -/
theorem test_route_result :
    let r := kjMarked.selectSet (kjLane.request 0) 679
    r.1.resWords (kjLane.request 0) r.2 = [0x000003B2, 0x0070000B, 0x5A018002, 0] ∧
      [0x410, 0x411, 0x412, 0x413, 0x415, 0x480].all (fun c => r.1.cs c fLKIND == 1 && r.1.cs c fLRT == 0x3B2) = true ∧
      (r.1.cs 0x415 fCMD, r.1.cs 0x415 fMOV, r.1.cs 0x416 fFLK, r.1.cs 0x416 fREQ, r.1.cs 0x425 fFLK) = (1, 1, 1, 1, 1) ∧
      (r.1.cs 0x490 fLKIND, r.1.cs 0x482 fLKIND, r.1.cs 0x410 fASP, r.1.rState 946) = (2, 2, 0, rsClaimed) := by decide +kernel

/-- Worked case of EST: the finish instant 86,400,020,400 µs gives `SEQ` 0x1DD7_AFB0. -/
theorem test_finish_seq : finishSeq 86400020400000 = 0x1DD7AFB0 := by decide +kernel

/-- Worked case of the gateway: x = 1,234 gives 123, and x = 3,000 saturates to 255. -/
theorem test_gateway_value :
    let e : List Word := [0xA0000000, 0x000000D2, 0x08084000, 0x0000199A, 0, 0x0A002000]
    (seKind e, seId e, seLen e, seDmsg e, seDoff e, seDlen e) = (1, 210, 16, 5, 0, 8) ∧
      entryValue e [0, 0, 0, 0, 0, 0, 0, 0, 0x04, 0xD2] = some (123, false) ∧
      entryValue e [0, 0, 0, 0, 0, 0, 0, 0, 0x0B, 0xB8] = some (255, true) := by decide +kernel
/-- The same worked case: the words of entry 1 and of descriptor 5. -/
theorem test_gateway_words :
    let e : List Word := [0x80000000, 0x000001A4, 0x00008000, 0x00010000, 0, 0x0A080400]
    let d : List Word := [0x84000002, 0x00000321, 0x001400C8]
    (seKind e, sePort e, seId e, seLen e, seDmsg e, seDoff e, seDlen e) = (0, 0, 0x1A4, 1, 5, 8, 1) ∧
      (sdPort d, sdId d, sdLen d) = (1, 0x321, 2) := by decide +kernel

/-- The hub of the worked case of the hold-up store. -/
def holdHub (vavg : Nat) : Hub :=
  { m3.hub with set := { m3.hub.set with huC := 4700, huVmin := 14000, huDiv := 16, huIchg := 200 }, upd := { m3.hub.upd with vavg := vavg } }
/-- Worked case of the hold-up store: 0.566 J at 22.0 V, enough for a block program. -/
theorem test_store_energy :
    let h := (holdHub 22000000).droopCheck 49000
    565500000000000000 ≤ h.eAvail ∧ h.eAvail < 566500000000000000 ∧ h.gateOpen 256 = true := by decide +kernel
/-- The same: 0.152 J at 17.0 V, below the reserve. -/
theorem test_store_low :
    let h := (holdHub 17000000).droopCheck 49000
    151500000000000000 ≤ h.eAvail ∧ h.eAvail < 152500000000000000 ∧ h.showEnergy.on NVW_STAT_RES_LOW = true ∧ h.gateOpen 256 = false := by
  decide +kernel
/-- The same: 2 V in 49.0 ms at 200 mA measure 4,900 µF, within the limits of a 4,700 µF store. -/
theorem test_store_measured :
    ((holdHub 16000000).droopCheck 49000).fget NVW_ENERGY_CMEAS = 4900 ∧ ((holdHub 16000000).droopCheck 49000).on NVW_STAT_CVALID = true := by
  decide +kernel

/-- Worked case of the lane view: map 3 at 0x078 takes lane address 0x2281_2340 to hub address 0x3C01_2340. -/
theorem test_bridge_address : ((laneReset .c).fset (BRG_MAP_HADDR 3) 0x078).hubAddr 0x22812340 = 0x3C012340 := by decide +kernel

/-- Worked case of the host commands: slot 4 of queue 1 in generation 12 carries tag 0x410C. -/
theorem test_command_tag : tagOf 1 4 12 = 0x410C := by decide +kernel

/-- FIPS 197, appendix C.1. -/
theorem test_aes :
    nat16 (aesBlock (bytes16 0x000102030405060708090A0B0C0D0E0F) (bytes16 0x00112233445566778899AABBCCDDEEFF)) =
      0x69C4E0D86A7B0430D8CDB78070B4C55A := by decide +kernel
/-- NIST SP 800-38B, appendix D.1: the empty message, and 40 bytes. -/
theorem test_cmac :
    cmac 0x2B7E151628AED2A6ABF7158809CF4F3C [] = 0xBB1D6929E95937287FA37D129B756746 ∧
      cmac 0x2B7E151628AED2A6ABF7158809CF4F3C (beBytes 40 0x6BC1BEE22E409F96E93D7E117393172AAE2D8A571E03AC9C9EB76FAC45AF8E5130C81C46A35CE411) =
        0xDFA66747DE9AE63030CA32611497C827 := by decide +kernel
/-- SHA-384 of "abc". -/
theorem test_sha384 :
    sha384 [0x61, 0x62, 0x63] =
      beBytes 48 0xCB00753F45A35E8BB5A03D699AC65007272C32AB0EDED1631A8B605A43FF5BED8086072BA1E7CC2358BAECA134C825A7 := by decide +kernel

/-- R215: a timer started again before its expiry is restarted. -/
theorem test_timer_restarted : startTimer [(4, 7000000), (5, 8000000)] (4, 9000000) = [(5, 8000000), (4, 9000000)] := by decide

/-- R62 and the request layout of R111: a local request of priority 3 stands first among requests of a higher value and carries `SRCX` 0x3FF. -/
theorem test_local_request :
    let x := (m0.lane .a)
    let l := { x with prog := { x.prog with asked := [0x00C00005#128] } }.writeRequests []
    l.fget RLE_NREQ_NREQ = 1 ∧ l.rg (reqAddr 0) = 0x00C00005 ∧ l.rg (reqAddr 0 + 12) = 0x3FF ∧ l.prog.overflow = [] := by decide +kernel

/-- R503, R528: right after the power-on reset the logic outputs are high-impedance and the regulator enables low; through a warm hub reset a GPIO
holds its level and the transmitters are idle. -/
theorem test_balls :
    State.reset.level .gpio = .z ∧ State.reset.level .canTx = .z ∧ State.reset.level (.enable .b) = .low ∧
    (m0.modHub fun h => { h with rst := { h.rst with held := true, cold := false } }).level .gpio = .held ∧
    (m0.modHub fun h => { h with rst := { h.rst with held := true, cold := false } }).level .transmitter = .idle := by decide +kernel

/-! ### Small facts about check values and erased blocks -/

/-- One more than the check value, so another value. -/
def otherCrc (bs : List Byte) : Word := BitVec.ofNat 32 (crc32c bs + 1)
theorem otherCrc_ne (bs : List Byte) : (otherCrc bs).toNat ≠ crc32c bs := by
  have := crc32c_lt bs
  simp only [otherCrc, BitVec.toNat_ofNat]; omega
/-- Length, check value and body of a page. -/
theorem page_parts (p w : Nat) (bs : List Byte) (h : bs.length = 4096) (hw : w < 256 ^ 4) :
    (beBytes 2 p ++ bs ++ beBytes 4 w).length = 4102 ∧ beAt (beBytes 2 p ++ bs ++ beBytes 4 w) 4098 4 = w ∧
      ((beBytes 2 p ++ bs ++ beBytes 4 w).drop 2).take 4096 = bs := by
  have hl : (beBytes 2 p ++ bs).length = 4098 := by simp [h]
  have hc := beAt_append (beBytes 2 p ++ bs) [] 4 w hw
  rw [List.append_nil, hl] at hc
  refine ⟨by simp [h], hc, ?_⟩
  rw [List.append_assoc, List.drop_left' (beBytes_length 2 p), List.take_left' h]
theorem page0_parts : page0.length = 4102 ∧ beAt page0 4098 4 = crc32c (List.replicate 4096 5) ∧ (page0.drop 2).take 4096 = List.replicate 4096 5 :=
  page_parts 130 (crc32c (List.replicate 4096 5)) (List.replicate 4096 5) List.length_replicate (crc32c_lt _)
theorem page0_good : beAt page0 4098 4 = crc32c ((page0.drop 2).take 4096) :=
  page0_parts.2.1.trans (congrArg crc32c page0_parts.2.2.symm)
theorem page0Bad_parts : page0Bad.length = 4102 ∧ beAt page0Bad 4098 4 = (otherCrc (List.replicate 4096 5)).toNat ∧
    (page0Bad.drop 2).take 4096 = List.replicate 4096 5 :=
  page_parts 130 (otherCrc (List.replicate 4096 5)).toNat (List.replicate 4096 5) List.length_replicate (otherCrc _).isLt
theorem page0Bad_bad : beAt page0Bad 4098 4 ≠ crc32c ((page0Bad.drop 2).take 4096) := fun e =>
  otherCrc_ne (List.replicate 4096 5) (page0Bad_parts.2.1.symm.trans (e.trans (congrArg crc32c page0Bad_parts.2.2)))
theorem img_block (b : Dword) (hop i : Nat) (bs : List Byte) : ((imgContent b hop i bs).drop 11).length = bs.length := by
  simp [imgContent]; omega
theorem blk00_length : (blk00 5).length = 65536 := by
  have h : (img0 5).length = 512 := by decide +kernel
  rw [blk00, List.length_append, h, List.length_replicate]
theorem blkFF_length : blkFF.length = 65536 := List.length_replicate
theorem two_values (x : Nat) : (1 == x && 0 == x) = false := by
  cases x with
  | zero => rfl
  | succ n => exact Bool.and_false _
theorem memWord_nil (a : Nat) : memWord [] a = 0 := by rfl

/-! ### Witnesses of the statements' hypotheses -/

theorem witness_StepRunsTheFrontCommand :
    (let s : State := { m0 with pending := [.cmaxClr .a, .aonClockFail] }
     let c : Instr := .cmaxClr .a
     let rest : List Instr := [.aonClockFail]
     s.pending = c :: rest) ∧
    (let s : State := m0
     s.pending = []) := by
  and_intros <;> decide +kernel

theorem witness_StepRunsTheFrontCommand_2 :
    (let c : Instr := Instr.holdoverEntry .a
     ((∀ m addr w acc env, (c = .registerWrite m addr acc env ∨ c = .badWidthAccess m addr w acc env ∨ c = .unmappedAccess m addr acc → firmwareBlock m addr.toNat = none)))) := by
  exact fun m addr w acc _ h => by rcases h with h | h | h <;> exact Instr.noConfusion h

theorem witness_EveryStepKeepsStoresCanonical_0 :
    (let s : State := { m0 with pending := [.cmaxClr .a] }
     let t : State := nx (step s)
     s.canon = true ∧ step s = .next t) := by
  and_intros <;> first
    | exact (rfl : step _ = _)
    | decide +kernel

theorem witness_EveryStepKeepsFusesAndNeverTurnsTimeBack_0 :
    (let s : State := { m0 with pending := [.cmaxClr .a] }
     let t : State := nx (step s)
     step s = .next t) := by
  exact rfl

theorem witness_EveryStepKeepsOutputsGuarded_0 :
    (let s : State := { m0 with pending := [.cmaxClr .a] }
     let t : State := nx (step s)
     s.OutputsGuarded ∧ step s = .next t) := by
  exact ⟨fun l => by cases l <;> decide +kernel, rfl⟩

theorem witness_FollowersTakeGoodTicksAndTheirRates :
    (let s : State := m0
     let l : LaneId := .a
     let own : Nat := 12000
     let frame : Option (Dword × Half) := some (10000, BitVec.ofNat 16 (crc16 (beBytes 8 10000)))
     let v := (10000 : Dword)
     let crc := BitVec.ofNat 16 (crc16 (beBytes 8 10000))
     (s.lane l).rst.held = false ∧ frame = some (v, crc) ∧ crc.toNat = crc16 (beBytes 8 v.toNat) ∧ v.toNat ≤ own + 2000 ∧
     own ≤ v.toNat + 2000 ∧ (s.lane l).on TMR_STAT_HOLDOVER = false) ∧
    (let s : State := m0
     let l : LaneId := .a
     let frame : Option (Dword × Half) := some (10000, 0)
     let v := (10000 : Dword)
     let crc := 0
     (s.lane l).rst.held = false ∧ frame = some (v, crc) ∧ crc.toNat ≠ crc16 (beBytes 8 v.toNat)) ∧
    (let s : State := m0
     let l : LaneId := .a
     let own : Nat := 12001
     let frame : Option (Dword × Half) := some (10000, BitVec.ofNat 16 (crc16 (beBytes 8 10000)))
     let v := (10000 : Dword)
     let crc := BitVec.ofNat 16 (crc16 (beBytes 8 10000))
     (s.lane l).rst.held = false ∧ frame = some (v, crc) ∧ (own + 2000 < v.toNat ∨ v.toNat + 2000 < own)) ∧
    (let s : State := m0
     let l : LaneId := .a
     let frame : Option (Dword × Half) := none
     (s.lane l).rst.held = false ∧ frame = none) ∧
    (let s : State := m3
     let l : LaneId := .b
     let n : Nat := 24875
     (s.lane l).rst.held = false ∧ (s.lane l).on TMR_STAT_HOLDOVER = false ∧ (s.lane l).easy = false ∧ (((24875 ≤ n) ∧ (n ≤ 25125)))) ∧
    (let s : State := m3
     let l : LaneId := .b
     let n : Nat := 24874
     (s.lane l).rst.held = false ∧ (s.lane l).on TMR_STAT_HOLDOVER = false ∧ (s.lane l).easy = false ∧ (n < 24875 ∨ 25125 < n)) ∧
    (let s : State := m0.modLane .b fun x => { x with fol := { x.fol with missRun := 100 } }
     let l : LaneId := .b
     (s.lane l).rst.held = false ∧ (s.lane l).on TMR_STAT_HOLDOVER = false ∧ 100 ≤ (s.lane l).fol.missRun) ∧
    (let s : State := m0.modLane .b fun x => { x.fset TMR_STAT_HOLDOVER 1 with fol := { x.fol with goodRun := 100 } }
     let l : LaneId := .b
     (s.lane l).rst.held = false ∧ (s.lane l).on TMR_STAT_HOLDOVER = true) ∧
    (let s : State := { m0 with hub := { hub0 with ticks := false }.fset CLKC_HSTAT_XT_OK 1 }
     s.hub.up = true ∧ s.hub.upd.loader = false ∧ s.hub.ticks = false ∧ s.hub.on CLKC_HSTAT_XT_OK = true) ∧
    (let s : State := m0.modLane .c fun x => { x with idle := true }
     let l : LaneId := .c
     (s.lane l).rst.held = false) := by
  and_intros <;> decide +kernel

theorem witness_StrokeSettingsWritableOnlyBeforeArming :
    (let s : State := m0
     let l : LaneId := .b
     let v : Word := 0x003200C8
     let p := bvField v 0 10
     let d := bvField v 16 12
     let free := (s.lane l).sitReady = true ∧ (s.lane l).armed = false
     let fits := 10 ≤ p ∧ p ≤ 1000 ∧ 10 ≤ d ∧ d ≤ 4 * p
     (s.lane l).rst.held = false ∧ (((free) ∧ (fits)))) ∧
    (let s : State := m0
     let l : LaneId := .b
     let v : Word := 0x00090009
     let p := bvField v 0 10
     let d := bvField v 16 12
     let free := (s.lane l).sitReady = true ∧ (s.lane l).armed = false
     let fits := 10 ≤ p ∧ p ≤ 1000 ∧ 10 ≤ d ∧ d ≤ 4 * p
     (s.lane l).rst.held = false ∧ (((free) ∧ (¬ fits)))) ∧
    (let s : State := m3
     let l : LaneId := .b
     let free := (s.lane l).sitReady = true ∧ (s.lane l).armed = false
     (s.lane l).rst.held = false ∧ (¬ free)) := by
  and_intros <;> decide +kernel

theorem witness_ArmedLanesPairByEqualValues :
    (let s : State := m0
     let l : LaneId := .a
     (s.lane l).rst.held = false ∧ (s.lane l).sitReady = true ∧ (s.lane l).armed = false ∧
     (((s.split = false) ∧ ((s.lane l).injPassed = false))) ∧ (s.lane l).checksBut = false) ∧
    (let s : State := m0.modLane .a fun x => { ((x.fset SIGC_STAT_INJ_PASS 1).fset BIST_STAT_VALID 1).fset RLE_STAT_CHK_OK 1 with start := { x.start with imageOk := true, fieldOk := true, retainOk := true }, fol := { x.fol with ratePass := 10 } }
     let l : LaneId := .a
     (s.lane l).rst.held = false ∧ (s.lane l).sitReady = true ∧ (s.lane l).armed = false ∧
     (((s.split = true ∨ (s.lane l).injPassed = true) ∧ ((s.lane l).checksBut = true)))) ∧
    (let s : State := m0.modLane .a fun x => x.fset TMR_CMAX_CMAX 77
     let l : LaneId := .a
     (s.lane l).rst.held = false) ∧
    (let s : State := eachLane m0 fun x => { (linked x).fset TMR_STAT_ARMED 1 with set := { x.set with autoStart := true } }
     let dst : LaneId := .a
     let src : LaneId := .c
     let v : PairValues := (eachLane m0 linked).la.pairValues
     (s.lane dst).rst.held = false ∧ (s.lane dst).armed = true ∧ (s.lane dst).sitReady = true ∧ s.modSitReady = true ∧ dst ≠ src ∧
     (s.lane dst).linkUp ((s.lane dst).linkTo src) = true ∧ (s.lane dst).start.firstCatch = none ∧ v = (s.lane dst).pairValues ∧
     (s.lane dst).set.autoStart = true ∧ 0 < (s.lane dst).period ∧
     ((∀ y ∈ insertL src (insertL dst (s.lane dst).start.paired), (s.lane y).start.firstCatch = none))) ∧
    (let s : State := eachLane m0 fun x => { (linked x).fset TMR_STAT_ARMED 1 with set := { x.set with autoStart := true } }
     let dst : LaneId := .a
     let src : LaneId := .c
     let v : PairValues := pairZero
     (s.lane dst).rst.held = false ∧ (s.lane dst).armed = true ∧ (s.lane dst).sitReady = true ∧ s.modSitReady = true ∧ dst ≠ src ∧
     (s.lane dst).linkUp ((s.lane dst).linkTo src) = true ∧ (s.lane dst).start.firstCatch = none ∧ v ≠ (s.lane dst).pairValues) := by
  and_intros <;> decide +kernel

theorem witness_StartTimeoutEntersEasyAll_0 :
    (let s : State := m0
     let tm : Nat := 30000000000
     let l := .b
     s.modSitReady = true ∧ ((∀ l, (s.lane l).start.paired.length < 2)) ∧ ((∀ l, (s.lane l).start.release + 30000000000 ≤ tm)) ∧
     (s.lane l).rst.held = false ∧ (s.lane l).sitReady = true) := by
  and_intros <;> first
    | (intro k; cases k <;> decide +kernel)
    | decide +kernel

theorem witness_StartTimeoutEntersEasyAll_1 :
    (let s : State := m0.modLane .b fun x => { x with rst := { x.rst with held := true } }
     let tm : Nat := 30000000000
     let l := .b
     s.modSitReady = true ∧ ((∀ l, (s.lane l).start.paired.length < 2)) ∧ ((∀ l, (s.lane l).start.release + 30000000000 ≤ tm)) ∧
     (s.lane l).rst.held = true) := by
  and_intros <;> first
    | (intro k; cases k <;> decide +kernel)
    | decide +kernel

theorem witness_CatchNumbersTheStrokeAndFormsTheFrame :
    (let s : State := m3.modLane .a fun x => { withProg x (taskNew 1) with tasks := [{ taskNew 1 with relT := 60000000, served := 1 }] }
     let l : LaneId := .a
     let y : LaneId := .b
     let task : Nat := 1
     let tn : Nat := 60000000
     let k : TaskRun := { taskNew 1 with relT := 60000000, served := 1 }
     (s.lane l).id = l ∧ (s.lane l).rst.held = false ∧ (s.lane l).easy = false ∧ (s.lane l).sitReady = false ∧ (s.lane l).inVote = true ∧
     (s.lane l).shadow = false ∧ (s.lane l).gone = [] ∧ (s.lane l).prog.chg.stage = .none ∧ task ≠ 0 ∧ y ∈ (s.lane l).inset ∧ y ≠ l ∧
     ((s.lane l).link ((s.lane l).linkTo y)).eff = true ∧ (s.lane l).taskOf task = some k ∧ ((∀ e ∈ k.peers, (e.1 = y → e.2.tn ≠ tn))) ∧
     (s.lane l).catchDue task tn = true ∧
     ((∀ j ∈ (s.lane l).tasks, (j.active = true → j.tn + (s.lane l).dOf j.tnum + voteWindow j.tnum ≠ tn)))) ∧
    (let s : State := m0
     let l : LaneId := .a
     let tn : Nat := 50000000
     (s.lane l).rst.held = false ∧ (s.lane l).sitReady = true ∧ (s.lane l).start.firstCatch ≠ some tn) ∧
    (let s : State := m3
     let l : LaneId := .a
     let task : Nat := 0
     let tn : Nat := 70000000
     (s.lane l).rst.held = false ∧ (s.lane l).easy = false ∧ (s.lane l).sitReady = false ∧ (s.lane l).inVote = true ∧
     (s.lane l).fget VOTE_READM_RSTEP = 0 ∧ (s.lane l).prog.chg.stage = .none ∧ (s.lane l).catchDue task tn = false ∧
     ((∀ k ∈ (s.lane l).tasks, (k.active = true → k.tn + (s.lane l).dOf k.tnum + voteWindow k.tnum ≠ tn)))) := by
  and_intros <;> decide +kernel

theorem witness_CatchNumbersTheStrokeAndFormsTheFrame_0 :
    (let s : State := (eachLane m3 linked).modLane .a fun x => { x with tasks := [] }
     let l : LaneId := .a
     let y : LaneId := .b
     let tn : Nat := 100000000
     (s.lane l).id = l ∧ (s.lane l).rst.held = false ∧ (s.lane l).easy = false ∧ (s.lane l).sitReady = false ∧ (s.lane l).inVote = true ∧
     (s.lane l).shadow = false ∧ (s.lane l).fget VOTE_READM_RSTEP = 0 ∧ (s.lane l).readm.who = none ∧ (s.lane l).gone = [] ∧
     (s.lane l).prog.modeNext = none ∧ (s.lane l).prog.chg.stage = .none ∧ (s.lane l).yieldNext = false ∧
     ((∀ k, (((s.lane k).linkUp 0 = true) ∧ ((s.lane k).linkUp 1 = true)))) ∧ l ∈ (s.lane l).inset ∧ y ∈ (s.lane l).inset ∧ y ≠ l ∧
     ((∀ k, ((s.lane l).taskOf 0 = some k → (∀ e ∈ k.peers, (e.1 = y → e.2.tn ≠ tn))))) ∧
     ((∀ k ∈ (s.lane l).tasks, (k.active = true → ((k.tnum ≠ 0) ∧ (k.tn + (s.lane l).dOf k.tnum + voteWindow k.tnum ≠ tn))))) ∧
     0 < (s.lane l).period ∧ tn % (s.lane l).period = 0 ∧ tn = (s.lane l).fol.tn + (s.lane l).period) := by
  and_intros <;> first
    | (intro k; cases k <;> decide +kernel)
    | (intro k h; cases h)
    | decide +kernel

theorem witness_CatchNumbersTheStrokeAndFormsTheFrame_2 :
    (let s : State := (eachLane m0 linked).modLane .a fun x => { x with start := { x.start with firstCatch := some 50000000, paired := [.a, .b] } }
     let l : LaneId := .a
     let y : LaneId := .b
     let tn : Nat := 50000000
     let z := .b
     (s.lane l).id = l ∧ (s.lane l).rst.held = false ∧ (s.lane l).sitReady = true ∧ (s.lane l).start.firstCatch = some tn ∧
     l ∈ (s.lane l).start.paired ∧ y ∈ (s.lane l).start.paired ∧ y ≠ l ∧ (s.lane l).tasks = [] ∧ (s.lane l).readm.who = none ∧
     (s.lane l).prog.modeNext = none ∧ (s.lane l).prog.chg.stage = .none ∧ (s.lane l).yieldNext = false ∧
     ((∀ k, (((s.lane k).linkUp 0 = true) ∧ ((s.lane k).linkUp 1 = true)))) ∧ z ≠ l ∧ z ∈ (s.lane l).start.paired) := by
  and_intros <;> first
    | (intro k; cases k <;> decide +kernel)
    | decide +kernel

theorem witness_CatchNumbersTheStrokeAndFormsTheFrame_3 :
    (let s : State := (eachLane m0 linked).modLane .a fun x => { x with start := { x.start with firstCatch := some 50000000, paired := [.a, .b] } }
     let l : LaneId := .a
     let y : LaneId := .b
     let tn : Nat := 50000000
     let z := .c
     (s.lane l).id = l ∧ (s.lane l).rst.held = false ∧ (s.lane l).sitReady = true ∧ (s.lane l).start.firstCatch = some tn ∧
     l ∈ (s.lane l).start.paired ∧ y ∈ (s.lane l).start.paired ∧ y ≠ l ∧ (s.lane l).tasks = [] ∧ (s.lane l).readm.who = none ∧
     (s.lane l).prog.modeNext = none ∧ (s.lane l).prog.chg.stage = .none ∧ (s.lane l).yieldNext = false ∧
     ((∀ k, (((s.lane k).linkUp 0 = true) ∧ ((s.lane k).linkUp 1 = true)))) ∧ z ≠ l ∧ z ∉ (s.lane l).start.paired ∧
     (s.lane z).rst.held = false ∧ (s.lane z).sitReady = true) := by
  and_intros <;> first
    | (intro k; cases k <;> decide +kernel)
    | decide +kernel

theorem witness_AdmissionNeedsTwoEqualEntries :
    (let lists : List (LaneId × List ConsEntry) := [(.a, [entry0]), (.b, [entry0]), (.c, [])]
     let e := entry0
     let x := (LaneId.b, [entry0])
     let g := entry0
     (lists.map (·.1)).Nodup ∧ e ∈ (admission lists).1 ∧ x ∈ lists ∧ g ∈ x.2 ∧ g.conn = e.conn ∧ g.seq = e.seq) := by
  and_intros <;> decide +kernel

theorem witness_ConsensusFramesAreTakenFromVotersOnly :
    (let s : State := m3
     let dst : LaneId := .a
     let src : LaneId := .b
     let y : LaneId := .c
     let task : Nat := 0
     let k : TaskRun := k0
     let frame : List Byte := consBytes .b frame0
     let f : ConsFrame := frame0
     let tm : Nat := 50100000
     consOf src frame = some f ∧ (s.lane dst).rst.held = false ∧ (s.lane dst).easy = false ∧ (s.lane dst).inVote = true ∧ dst ≠ src ∧
     src ∈ (s.lane dst).staying ∧ ((s.lane dst).link ((s.lane dst).linkTo src)).eff = true ∧ (s.lane dst).on TMR_STAT_HOLDOVER = false ∧
     (s.lane dst).shadow = false ∧ (s.lane dst).taskOf task = some k ∧ k.active = true ∧ k.decided = false ∧ f.tn = k.tn ∧
     tm ≤ k.tn + (s.lane dst).consWindow task ∧ y ∈ (s.lane dst).staying ∧ y ≠ (s.lane dst).id ∧ y ≠ src ∧
     ((s.lane dst).link ((s.lane dst).linkTo y)).eff = true ∧ ((∀ e ∈ k.peers, (e.1 = y → e.2.tn ≠ k.tn)))) ∧
    (let s : State := m3.modLane .a fun x => x.setVoters [.a, .b]
     let dst : LaneId := .a
     let src : LaneId := .c
     let frame : List Byte := consBytes .c frame0
     let f : ConsFrame := frame0
     consOf src frame = some f ∧ (s.lane dst).rst.held = false ∧ (s.lane dst).easy = false ∧ (s.lane dst).inVote = true ∧
     (s.lane dst).shadow = false ∧ dst ≠ src ∧ src ∉ (s.lane dst).inset ∧ (s.lane dst).readm.who ≠ some src) ∧
    (let s : State := m0.modLane .a fun x => x.fset VOTE_STAT_MODE modeEasy
     let dst : LaneId := .a
     let src : LaneId := .c
     let frame : List Byte := consBytes .c frame0
     ((s.lane dst).easy = true ∨ consOf src frame = none)) := by
  and_intros <;> decide +kernel

theorem witness_FetchedCopiesAreCheckedByTheLane :
    (let s : State := m3.modLane .a fun x => { x with tasks := [kFetch], conns := [(0, conn0)], descs := [(0, desc0)] }
     let dst : LaneId := .a
     let src : LaneId := .b
     let task : Nat := 0
     let k : TaskRun := kFetch
     let e : ConsEntry := entry0
     let bs : List Byte := tlg0
     let good := 16 ≤ bs.length ∧ ((s.lane dst).checkTlg bs k.tn).1 = .ok ∧ e.digest.toNat = crc32c bs
     (s.lane dst).rst.held = false ∧ (s.lane dst).easy = false ∧ (s.lane dst).taskOf task = some k ∧ k.active = true ∧ k.decided = true ∧
     ((∀ x ∈ k.toFetch, x.conn ≠ cmdConn)) ∧ e ∈ k.toFetch ∧ k.listedBy src e = true ∧
     ((∀ x ∈ k.toFetch, (x.conn = e.conn → (x.seq = e.seq → x = e)))) ∧ e.conn = BitVec.ofNat 64 (beAt bs (bs.length - 16) 8) ∧
     e.seq.toNat = beAt bs 8 4 ∧ removeL e k.toFetch ≠ [] ∧ good) ∧
    (let s : State := m3.modLane .a fun x => { x with tasks := [kFetch] }
     let dst : LaneId := .a
     let src : LaneId := .b
     let task : Nat := 0
     let k : TaskRun := kFetch
     let e : ConsEntry := entry0
     let bs : List Byte := tlg0
     let good := 16 ≤ bs.length ∧ ((s.lane dst).checkTlg bs k.tn).1 = .ok ∧ e.digest.toNat = crc32c bs
     (s.lane dst).rst.held = false ∧ (s.lane dst).easy = false ∧ (s.lane dst).taskOf task = some k ∧ k.active = true ∧ k.decided = true ∧
     ((∀ x ∈ k.toFetch, x.conn ≠ cmdConn)) ∧ e ∈ k.toFetch ∧ k.listedBy src e = true ∧
     ((∀ x ∈ k.toFetch, (x.conn = e.conn → (x.seq = e.seq → x = e)))) ∧ e.conn = BitVec.ofNat 64 (beAt bs (bs.length - 16) 8) ∧
     e.seq.toNat = beAt bs 8 4 ∧ removeL e k.toFetch ≠ [] ∧ (¬ good)) := by
  and_intros <;> decide +kernel

theorem witness_LateFramesAndOverrunsLeaveTheVote :
    (let s : State := m3.modLane .a fun x => { x with tasks := [{ k0 with own := some frame0 }] }
     let l : LaneId := .a
     let task : Nat := 0
     let tm : Nat := 50200000
     let k : TaskRun := { k0 with own := some frame0 }
     (s.lane l).rst.held = false ∧ (s.lane l).easy = false ∧ (s.lane l).inVote = true ∧ (s.lane l).taskOf task = some k ∧
     k.active = true ∧ k.decided = false ∧ k.tn + (s.lane l).consWindow task ≤ tm ∧ ((s.lane l).framesOf k).length < 2) ∧
    (let s : State := m3.modLane .a fun x => { x with tasks := [{ k0 with own := some frame0, peers := [(.b, frame0)] }] }
     let l : LaneId := .a
     let y : LaneId := .c
     let task : Nat := 0
     let tm : Nat := 50200000
     let k : TaskRun := { k0 with own := some frame0, peers := [(.b, frame0)] }
     (s.lane l).rst.held = false ∧ (s.lane l).easy = false ∧ (s.lane l).inVote = true ∧ (s.lane l).id = l ∧
     (s.lane l).taskOf task = some k ∧ k.active = true ∧ k.decided = false ∧ k.tn + (s.lane l).consWindow task ≤ tm ∧
     2 ≤ ((s.lane l).framesOf k).length ∧ y ∈ (s.lane l).awaits s.voters ∧ ((∀ e ∈ k.peers, (e.1 = y → e.2.tn ≠ k.tn))) ∧
     (s.lane y).inVote = true) := by
  and_intros <;> decide +kernel

theorem witness_LateFramesAndOverrunsLeaveTheVote_2 :
    (let s : State := m3.modLane .b fun x => { x with tasks := [kDec] }
     let l : LaneId := .b
     let y : LaneId := .a
     let task : Nat := 0
     let tm : Nat := 50000000 + (m3.lane .b).deadline
     let k : TaskRun := kDec
     (s.lane l).rst.held = false ∧ (s.lane l).easy = false ∧ (s.lane l).inVote = true ∧ (s.lane l).shadow = false ∧ (s.lane l).gone = [] ∧
     (s.lane l).due = [] ∧ l ∈ (s.lane l).inset ∧ 2 ≤ (s.lane l).inset.length ∧
     ((∀ y, (((s.lane y).linkUp 0 = true) ∧ ((s.lane y).linkUp 1 = true)))) ∧ (s.lane l).taskOf task = some k ∧ k.active = true ∧
     k.decided = true ∧ k.toFetch = [] ∧ tm = k.tn + (s.lane l).dOf task ∧ ((s.lane l).ctx ((s.lane l).ctxOf task)).stage = .idle ∧
     y ≠ l ∧ (s.lane y).inVote = true) := by
  and_intros <;> first
    | (intro k; cases k <;> decide +kernel)
    | decide +kernel

theorem witness_LateFramesAndOverrunsLeaveTheVote_3 :
    (let s : State := m3.modLane .b fun x => { x with tasks := [kDec] }
     let l : LaneId := .b
     let task : Nat := 0
     let tm : Nat := 50000000 + (m3.lane .b).deadline
     let k : TaskRun := kDec
     (s.lane l).rst.held = false ∧ (s.lane l).easy = false ∧ (s.lane l).inVote = true ∧ (s.lane l).shadow = false ∧ (s.lane l).gone = [] ∧
     (s.lane l).due = [] ∧ l ∈ (s.lane l).inset ∧ 2 ≤ (s.lane l).inset.length ∧
     ((∀ y, (((s.lane y).linkUp 0 = true) ∧ ((s.lane y).linkUp 1 = true)))) ∧ (s.lane l).taskOf task = some k ∧ k.active = true ∧
     k.decided = true ∧ k.toFetch = [] ∧ tm = k.tn + (s.lane l).dOf task ∧ (s.lane l).ctxOf task < (s.lane l).ctxs.length ∧
     (s.lane l).ctxEn ((s.lane l).ctxOf task) = true ∧ ((s.lane l).ctx ((s.lane l).ctxOf task)).stage = .idle ∧ k.mode = .run ∧
     k.excepted = false ∧ k.broke = false) := by
  and_intros <;> first
    | (intro k; cases k <;> decide +kernel)
    | decide +kernel

theorem witness_LateFramesAndOverrunsLeaveTheVote_4 :
    (let s : State := m3.modLane .b fun x => { x with tasks := [{ kDec with mode := .stop }] }
     let l : LaneId := .b
     let task : Nat := 0
     let tm : Nat := 50000000 + (m3.lane .b).deadline
     let k : TaskRun := { kDec with mode := .stop }
     (s.lane l).rst.held = false ∧ (s.lane l).easy = false ∧ (s.lane l).inVote = true ∧ (s.lane l).shadow = false ∧ (s.lane l).gone = [] ∧
     (s.lane l).due = [] ∧ l ∈ (s.lane l).inset ∧ 2 ≤ (s.lane l).inset.length ∧
     ((∀ y, (((s.lane y).linkUp 0 = true) ∧ ((s.lane y).linkUp 1 = true)))) ∧ (s.lane l).taskOf task = some k ∧ k.active = true ∧
     k.decided = true ∧ k.toFetch = [] ∧ tm = k.tn + (s.lane l).dOf task ∧ (s.lane l).ctxOf task < (s.lane l).ctxs.length ∧
     (s.lane l).ctxEn ((s.lane l).ctxOf task) = true ∧ ((s.lane l).ctx ((s.lane l).ctxOf task)).stage = .idle ∧
     (k.mode ≠ .run ∨ k.excepted = true ∨ k.broke = true)) := by
  and_intros <;> first
    | (intro k; cases k <;> decide +kernel)
    | decide +kernel

theorem witness_FinishEnablesOnlyVotersThatAgree :
    (let s : State := m3.modLane .b fun x => (({ x with tasks := [k0, { taskNew 1 with active := true, tn := 50000000 }] }).fset VOTE_STAT_DYN_EN 0).modCtx 1 fun c => { c with commit := true }
     let l : LaneId := .b
     let task : Nat := 1
     let tm : Nat := 50200000
     let k : TaskRun := { taskNew 1 with active := true, tn := 50000000 }
     (s.lane l).rst.held = false ∧ (s.lane l).easy = false ∧ (s.lane l).inVote = true ∧ s.split = false ∧ task ≠ 0 ∧
     (s.lane l).readm.who = none ∧ (s.lane l).taskOf task = some k ∧ k.active = true ∧ tm = k.tn + (s.lane l).dOf task + voteWindow task ∧
     ((s.lane l).ctx ((s.lane l).ctxOf task)).commit = true) ∧
    (let s : State := m3.modLane .b fun x => (x.fset VOTE_STAT_DYN_EN 0).modCtx 0 fun c => { c with commit := true }
     let l : LaneId := .b
     let tm : Nat := 50000000 + (m3.lane .b).dOf 0 + voteWindow 0
     let k : TaskRun := k0
     let y := .a
     (s.lane l).id = l ∧ (s.lane l).rst.held = false ∧ (s.lane l).easy = false ∧ (s.lane l).inVote = true ∧ s.split = false ∧
     (s.lane l).readm.who = none ∧ (s.lane l).taskOf 0 = some k ∧ k.active = true ∧ (s.lane l).prog.laneStep = false ∧
     tm = k.tn + (s.lane l).dOf 0 + voteWindow 0 ∧ ((s.lane l).ctx ((s.lane l).ctxOf 0)).commit = true ∧ y ≠ l) ∧
    (let s : State := m3.modLane .b fun x => (x.fset VOTE_STAT_INVOTE 0).fset VOTE_STAT_MODE modeOut
     let l : LaneId := .b
     let task : Nat := 0
     let tm : Nat := 50000000 + (m3.lane .b).deadline + 400000
     let k : TaskRun := k0
     (s.lane l).rst.held = false ∧ (s.lane l).easy = false ∧ (s.lane l).inVote = false ∧ (s.lane l).shadow = false ∧
     (s.lane l).taskOf task = some k ∧ k.active = true ∧ tm = k.tn + (s.lane l).dOf task + voteWindow task) ∧
    (let s : State := m3
     let l : LaneId := .b
     let task : Nat := 0
     let tm : Nat := 50000001
     let k : TaskRun := k0
     (s.lane l).taskOf task = some k ∧ (k.active = false ∨ tm ≠ k.tn + (s.lane l).dOf task + voteWindow task)) := by
  and_intros <;> decide +kernel

theorem witness_VoteFramesAreKeptForTheRunningStep :
    (let s : State := m3.modLane .a fun x => x.modCtx 0 fun c => { c with stage := .level1, v := 70000000 }
     let dst : LaneId := .a
     let src : LaneId := .b
     let c : Nat := 0
     let tm : Nat := 70000000
     (s.lane dst).rst.held = false ∧ (s.lane dst).easy = false ∧ (s.lane dst).inVote = true ∧ src ∈ (s.lane dst).inset ∧
     (s.lane dst).votesIn c = true ∧ ((s.lane dst).link ((s.lane dst).linkTo src)).eff = true ∧ c < (s.lane dst).ctxs.length ∧
     ((s.lane dst).ctx c).stage = .level1 ∧ tm ≤ ((s.lane dst).ctx c).v + level1Due c) ∧
    (let s : State := m3.modLane .a fun x => x.modCtx 0 fun c => { c with stage := .level1, v := 70000000 }
     let dst : LaneId := .a
     let src : LaneId := .b
     let c : Nat := 0
     let tm : Nat := 71000000
     (s.lane dst).rst.held = false ∧ (s.lane dst).easy = false ∧ (s.lane dst).inVote = true ∧ src ∈ (s.lane dst).inset ∧
     (s.lane dst).votesIn c = true ∧ ((s.lane dst).link ((s.lane dst).linkTo src)).eff = true ∧ c < (s.lane dst).ctxs.length ∧
     ((s.lane dst).ctx c).stage = .level1 ∧ ((s.lane dst).ctx c).v + level1Due c < tm) ∧
    (let s : State := m3.modLane .a fun x => x.modCtx 0 fun c => { c with stage := .answers, voters := [.a, .b], blocks := [1], v := 50000000 }
     let dst : LaneId := .a
     let src : LaneId := .b
     let c : Nat := 0
     let b : Nat := 1
     let tm : Nat := 50000000
     let c' := 1
     (s.lane dst).rst.held = false ∧ c < (s.lane dst).ctxs.length ∧ ((s.lane dst).ctx c).stage = .answers ∧
     src ∈ ((s.lane dst).ctx c).voters ∧ b ∈ ((s.lane dst).ctx c).blocks ∧ tm ≤ ((s.lane dst).ctx c).v + answerDue c ∧ c' ≠ c) ∧
    (let s : State := m3.modLane .a fun x => x.modCtx 0 fun c => { c with stage := .answers, voters := [.a, .b], blocks := [1], v := 50000000 }
     let dst : LaneId := .a
     let src : LaneId := .b
     let c : Nat := 0
     let b : Nat := 1
     let tm : Nat := 60000000
     (s.lane dst).rst.held = false ∧ c < (s.lane dst).ctxs.length ∧ ((s.lane dst).ctx c).stage = .answers ∧
     src ∈ ((s.lane dst).ctx c).voters ∧ b ∈ ((s.lane dst).ctx c).blocks ∧ ((s.lane dst).ctx c).v + answerDue c < tm) ∧
    (let s : State := m3.modLane .a fun x => x.modCtx 0 fun c => { c with stage := .answers, voters := [.a, .b], blocks := [1], v := 50000000 }
     let dst : LaneId := .a
     let src : LaneId := .b
     let c : Nat := 0
     let g : Nat := 64
     let bs : List Byte := List.replicate 64 3
     let tm : Nat := 50000000
     let c' := 1
     (s.lane dst).rst.held = false ∧ c < (s.lane dst).ctxs.length ∧ ((s.lane dst).ctx c).stage = .answers ∧
     src ∈ ((s.lane dst).ctx c).voters ∧ g / 64 ∈ ((s.lane dst).ctx c).blocks ∧ bs.length = 64 ∧
     tm ≤ ((s.lane dst).ctx c).v + answerDue c ∧ c' ≠ c) ∧
    (let s : State := m3.modLane .a fun x => x.modCtx 0 fun c => { c with stage := .answers, voters := [.a, .b], blocks := [1], v := 50000000 }
     let dst : LaneId := .a
     let src : LaneId := .b
     let c : Nat := 0
     let g : Nat := 64
     let bs : List Byte := List.replicate 64 3
     let tm : Nat := 60000000
     (s.lane dst).rst.held = false ∧ c < (s.lane dst).ctxs.length ∧ ((s.lane dst).ctx c).stage = .answers ∧
     src ∈ ((s.lane dst).ctx c).voters ∧ g / 64 ∈ ((s.lane dst).ctx c).blocks ∧ bs.length = 64 ∧ ((s.lane dst).ctx c).v + answerDue c < tm) ∧
    (let s : State := m3.modLane .a fun x => x.modCtx 0 fun c => { c with stage := .verdict, v := 50000000 }
     let dst : LaneId := .a
     let src : LaneId := .b
     let c : Nat := 0
     let tm : Nat := 50000000
     let c' := 1
     (s.lane dst).rst.held = false ∧ (s.lane dst).easy = false ∧ (s.lane dst).inVote = true ∧ src ∈ (s.lane dst).inset ∧
     ((s.lane dst).link ((s.lane dst).linkTo src)).eff = true ∧ c < (s.lane dst).ctxs.length ∧ ((s.lane dst).ctx c).stage ≠ .idle ∧
     tm ≤ ((s.lane dst).ctx c).v + verdictDue c ∧ c' ≠ c) ∧
    (let s : State := m3.modLane .a fun x => x.modCtx 0 fun c => { c with stage := .verdict, v := 50000000 }
     let dst : LaneId := .a
     let src : LaneId := .b
     let c : Nat := 0
     let tm : Nat := 50400000
     (s.lane dst).rst.held = false ∧ (s.lane dst).easy = false ∧ (s.lane dst).inVote = true ∧ src ∈ (s.lane dst).inset ∧
     ((s.lane dst).link ((s.lane dst).linkTo src)).eff = true ∧ c < (s.lane dst).ctxs.length ∧ ((s.lane dst).ctx c).stage ≠ .idle ∧
     ((s.lane dst).ctx c).v + verdictDue c < tm) := by
  and_intros <;> decide +kernel

theorem witness_VoteDeadlinesAndVerdictsDecide :
    (let s : State := m3.modLane .a fun x => x.modCtx 0 fun c => { c with stage := .level1, dig := [9], peerDig := [(.b, [9]), (.c, [9])], v := 70000000 }
     let l : LaneId := .a
     let c : Nat := 0
     let tm : Nat := 70400000
     let x := (s.lane l).ctx c
     let got := (s.lane l).inset.filter fun y => y == (s.lane l).id || x.peerDig.any fun e => e.1 == y
     (s.lane l).rst.held = false ∧ (s.lane l).easy = false ∧ (s.lane l).inVote = true ∧ (s.lane l).shadow = false ∧
     ((s.lane l).ctx c).stage = .level1 ∧ c < (s.lane l).ctxs.length ∧ ((s.lane l).ctx c).v + level1Due c ≤ tm ∧ 2 ≤ got.length ∧
     x.diffBlocks (s.lane l).id got = []) ∧
    (let s : State := m3.modLane .a fun x => x.modCtx 0 fun c => { c with stage := .level1, dig := [9], peerDig := [(.b, [8])] }
     let l : LaneId := .a
     let c : Nat := 0
     let tm : Nat := 70400000
     let x := (s.lane l).ctx c
     let got := (s.lane l).inset.filter fun y => y == (s.lane l).id || x.peerDig.any fun e => e.1 == y
     (s.lane l).rst.held = false ∧ (s.lane l).easy = false ∧ (s.lane l).inVote = true ∧ (s.lane l).shadow = false ∧
     ((s.lane l).ctx c).stage = .level1 ∧ c < (s.lane l).ctxs.length ∧ ((s.lane l).ctx c).v + level1Due c ≤ tm ∧ got.length = 2 ∧
     x.diffBlocks (s.lane l).id got ≠ []) ∧
    (let s : State := m3.modLane .a fun x => x.modCtx 0 fun c => { c with stage := .level1, dig := [9] }
     let l : LaneId := .a
     let c : Nat := 0
     let tm : Nat := 70400000
     let x := (s.lane l).ctx c
     let got := (s.lane l).inset.filter fun y => y == (s.lane l).id || x.peerDig.any fun e => e.1 == y
     (s.lane l).rst.held = false ∧ (s.lane l).easy = false ∧ (s.lane l).inVote = true ∧ (s.lane l).shadow = false ∧
     ((s.lane l).ctx c).stage = .level1 ∧ c < (s.lane l).ctxs.length ∧ ((s.lane l).ctx c).v + level1Due c ≤ tm ∧ got.length < 2) ∧
    (let s : State := m3.modLane .a fun x => x.modCtx 0 fun c => { c with stage := .answers, dig := [9], peerDig := [(.b, [9]), (.c, [9])], voters := [.a, .b, .c], cntB := 2 }
     let l : LaneId := .a
     let c : Nat := 0
     let tm : Nat := 70400000
     (s.lane l).rst.held = false ∧ (s.lane l).easy = false ∧ (s.lane l).inVote = true ∧ (s.lane l).shadow = false ∧
     ((s.lane l).ctx c).stage = .answers ∧ c < (s.lane l).ctxs.length ∧ 2 ≤ ((s.lane l).ctx c).voters.length ∧
     ((s.lane l).ctx c).blocks = [] ∧ ((s.lane l).ctx c).diffBlocks (s.lane l).id ((s.lane l).ctx c).voters = [] ∧
     ((s.lane l).ctx c).v + answerDue c ≤ tm) ∧
    (let s : State := m3.modLane .a fun x => x.modCtx 0 fun c => { c with stage := .level1, v := 70000000 }
     let l : LaneId := .a
     let c : Nat := 0
     let tm : Nat := 70000001
     tm < ((s.lane l).ctx c).v + level1Due c) ∧
    (let s : State := m3.modLane .a fun x => x.modCtx 0 fun c => { c with stage := .verdict, verdicts := [(.b, { voters := 7, cntA := 0, cntB := 0, cntC := 0, shadowOk := false })] }
     let l : LaneId := .a
     let c : Nat := 0
     let tm : Nat := 70400000
     let thr := (s.lane l).threshold c
     let next := ((s.lane l).ctx c).nextVoters thr
     (s.lane l).id = l ∧ (s.lane l).rst.held = false ∧ (s.lane l).easy = false ∧ (s.lane l).inVote = true ∧ (s.lane l).shadow = false ∧
     c < (s.lane l).ctxs.length ∧ ((s.lane l).ctx c).stage = .verdict ∧ ((s.lane l).ctx c).v + verdictDue c ≤ tm ∧ l ∈ next ∧
     2 ≤ next.length) ∧
    (let s : State := m3.modLane .a fun x => x.modCtx 0 fun c => { c with stage := .verdict, verdicts := [(.b, { voters := 6, cntA := 0, cntB := 0, cntC := 0, shadowOk := false })] }
     let l : LaneId := .a
     let c : Nat := 0
     let tm : Nat := 70400000
     let y := .b
     let thr := (s.lane l).threshold c
     let next := ((s.lane l).ctx c).nextVoters thr
     (s.lane l).id = l ∧ (s.lane l).rst.held = false ∧ (s.lane l).easy = false ∧ (s.lane l).inVote = true ∧ (s.lane l).shadow = false ∧
     c < (s.lane l).ctxs.length ∧ ((s.lane l).ctx c).stage = .verdict ∧ ((s.lane l).ctx c).v + verdictDue c ≤ tm ∧ l ∉ next ∧ y ≠ l ∧
     (s.lane y).inVote = true) ∧
    (let s : State := m3.modLane .a fun x => x.modCtx 0 fun c => { c with stage := .verdict, verdicts := [(.b, { voters := 1, cntA := 0, cntB := 0, cntC := 0, shadowOk := false })] }
     let l : LaneId := .a
     let c : Nat := 0
     let tm : Nat := 70400000
     let thr := (s.lane l).threshold c
     let next := ((s.lane l).ctx c).nextVoters thr
     (s.lane l).id = l ∧ (s.lane l).rst.held = false ∧ (s.lane l).easy = false ∧ (s.lane l).inVote = true ∧ (s.lane l).shadow = false ∧
     c < (s.lane l).ctxs.length ∧ ((s.lane l).ctx c).stage = .verdict ∧ ((s.lane l).ctx c).v + verdictDue c ≤ tm ∧ l ∈ next ∧
     next.length < 2) := by
  and_intros <;> decide +kernel

theorem witness_LeavingStopsDrivingAndSigning :
    (let s : State := m3
     let dst : LaneId := .a
     let src : LaneId := .c
     let rest := (s.lane dst).staying.filter fun y => y != src
     (s.lane dst).rst.held = false ∧ (s.lane dst).easy = false ∧ (s.lane dst).inVote = true ∧ (s.lane dst).shadow = false ∧
     (s.lane dst).mode ≠ modeTransfer ∧ s.phase = .running ∧ dst ≠ src ∧ 2 ≤ rest.length) ∧
    (let s : State := m3.modLane .a fun x => x.setVoters [.a, .c]
     let dst : LaneId := .a
     let src : LaneId := .c
     let rest := (s.lane dst).staying.filter fun y => y != src
     (s.lane dst).rst.held = false ∧ (s.lane dst).easy = false ∧ (s.lane dst).inVote = true ∧ (s.lane dst).shadow = false ∧
     (s.lane dst).mode ≠ modeTransfer ∧ s.phase = .running ∧ dst ≠ src ∧ rest.length < 2) ∧
    (let s : State := m3
     let l : LaneId := .c
     let y : LaneId := .a
     (s.lane l).rst.held = false ∧ (s.lane l).easy = false ∧ (s.lane l).inVote = true ∧ y ≠ l ∧ (s.lane y).inVote = true) ∧
    (let s : State := m3.modLane .a fun x => { x with rst := { x.rst with due := some (false, 4, 60000000) } }
     let l : LaneId := .a
     let tm : Nat := 60000000
     let d : Nat := 60000000
     let cause : Nat := 4
     let cold : Bool := false
     (s.lane l).rst.due = some (cold, cause, d) ∧ cause < 8 ∧ d ≤ tm ∧ cold = false ∧ (s.lane l).rst.held = false) ∧
    (let s : State := m3.modLane .a fun x => { x with rst := { x.rst with due := some (true, 2, 60000000) } }
     let l : LaneId := .a
     let tm : Nat := 60000000
     let d : Nat := 60000000
     let cause : Nat := 2
     let cold : Bool := true
     (s.lane l).rst.due = some (cold, cause, d) ∧ cause < 8 ∧ d ≤ tm ∧ cold = true) := by
  and_intros <;> decide +kernel

theorem witness_LeavingStopsDrivingAndSigning_3 :
    (let s : State := { m0 with phase := .running, lc := voter .c }
     let l : LaneId := .c
     let y := .a
     (s.lane l).rst.held = false ∧ (s.lane l).easy = false ∧ (s.lane l).inVote = true ∧ ((∀ y, (y ≠ l → (s.lane y).inVote = false))) ∧
     (s.lane y).rst.held = false ∧ (s.lane y).easy = false) := by
  and_intros <;> first
    | (intro k; cases k <;> decide +kernel)
    | decide +kernel

theorem witness_EasyAllStopsEveryDynamicSignal :
    (let s : State := m3
     let l : LaneId := .b
     (s.lane l).rst.held = false ∧ (s.lane l).easy = false) ∧
    (let s : State := m3
     let dst : LaneId := .b
     let src : LaneId := .a
     (s.lane dst).rst.held = false ∧ (s.lane dst).easy = false ∧ dst ≠ src) ∧
    (let s : State := nx (exec (.voteCmdEasy .b) (m3.modLane .b fun x => { x with conns := [(0, conn0)], descs := [(0, desc0)] }))
     let l : LaneId := .b
     let tm : Nat := 50000000 + (m3.lane .b).period + (m3.lane .b).deadline + 400000
     (s.lane l).rst.held = false ∧ (s.lane l).easy = true ∧ (s.lane l).surviving = true ∧ (s.lane l).on VOTE_STAT_SIGN_EN = true ∧
     (s.lane l).restrictiveDue tm = true) ∧
    (let s : State := m0
     let l : LaneId := .b
     let tm : Nat := 5
     ((s.lane l).easy = false ∨ (s.lane l).surviving = false ∨ (s.lane l).on VOTE_STAT_SIGN_EN = false ∨ (s.lane l).restrictiveDue tm = false)) := by
  and_intros <;> decide +kernel

theorem witness_VoteAndFieldConfigurationFixedOnceArmed :
    (let s : State := m3
     let l : LaneId := .a
     let off : Nat := 0x018
     (s.lane l).rst.held = false ∧ (s.lane l).unarmed = false ∧ (s.lane l).joining = false ∧ voteCfgReg off = true) ∧
    (let s : State := m0
     let l : LaneId := .a
     (s.lane l).rst.held = false ∧ ((s.lane l).unarmed = true ∨ (s.lane l).joining = true)) ∧
    (let s : State := m0
     let l : LaneId := .a
     let off : Nat := 0x200
     let v : Word := 0x08800000
     let c := voteCtxOf off
     let x := (s.lane l).plainWrite (0x40001000 + off) v
     (s.lane l).rst.held = false ∧ ((s.lane l).unarmed = true ∨ (s.lane l).joining = true) ∧ voteCfgReg off = true ∧ off ≠ 0x018 ∧
     x.ctxCfgOk c = true ∧ x.rgnOk off = true ∧ off ≠ 0x100 + 4 * c) ∧
    (let s : State := m0
     let l : LaneId := .a
     let off : Nat := 0x100
     let v : Word := 0
     let c := voteCtxOf off
     let x := (s.lane l).plainWrite (0x40001000 + off) v
     (s.lane l).rst.held = false ∧ ((s.lane l).unarmed = true ∨ (s.lane l).joining = true) ∧ voteCfgReg off = true ∧ off ≠ 0x018 ∧
     (x.ctxCfgOk c = false ∨ x.rgnOk off = false)) ∧
    (let s : State := m0
     let l : LaneId := .a
     let off : Nat := 0x104
     let v : Word := 0x00208109
     (s.lane l).rst.held = false ∧ fldpCfgReg off = true ∧ ((s.lane l).unarmed = true ∨ (s.lane l).joining = true) ∧
     fldpRangeOk off v = true) ∧
    (let s : State := m0
     let l : LaneId := .a
     let off : Nat := 0x104
     let v : Word := 0x00210000
     (s.lane l).rst.held = false ∧ fldpCfgReg off = true ∧
     (((s.lane l).unarmed = false ∧ (s.lane l).joining = false) ∨ fldpRangeOk off v = false)) := by
  and_intros <;> decide +kernel

theorem witness_ReadmissionFollowsItsSteps :
    (let s : State := readmMod 0
     let l : LaneId := .c
     (s.lane l).rst.held = false ∧ (s.lane l).mode = 3 ∧ (s.lane l).fget VOTE_READM_RSTEP = 0 ∧ (s.lane l).on VOTE_READM_FAILED = false ∧
     s.phase = .running ∧
     (((s.runs2oo2 = true) ∧ ((s.lane l).linkUp 0 = true) ∧ ((s.lane l).linkUp 1 = true) ∧ ((s.lane l).startChecks s.split = true)))) ∧
    (let s : State := (readmMod 0).modLane .b fun x => x.fset VOTE_STAT_INVOTE 0
     let l : LaneId := .c
     (s.lane l).rst.held = false ∧ (s.lane l).mode = 3 ∧ (s.lane l).fget VOTE_READM_RSTEP = 0 ∧ (s.lane l).on VOTE_READM_FAILED = false ∧
     s.phase = .running ∧
     (s.runs2oo2 = false ∨ (s.lane l).linkUp 0 = false ∨ (s.lane l).linkUp 1 = false ∨ (s.lane l).startChecks s.split = false)) ∧
    (let s : State := readmMod 1
     let dst : LaneId := .a
     let src : LaneId := .c
     let v : PairValues := ((readmMod 1).lane .a).pairValues
     let k := .b
     (s.lane dst).rst.held = false ∧ (s.lane src).rst.held = false ∧ dst ≠ src ∧ (s.lane dst).inVote = true ∧ (s.lane dst).mode = 2 ∧
     (s.lane src).fget VOTE_READM_RSTEP = 1 ∧ k ≠ dst ∧ k ≠ src ∧
     (((v = (s.lane dst).pairValues) ∧ ((s.lane dst).prog.chg.stage = .none)))) ∧
    (let s : State := readmMod 1
     let dst : LaneId := .a
     let src : LaneId := .c
     let v : PairValues := { pairZero with station := 3 }
     (s.lane dst).rst.held = false ∧ (s.lane src).rst.held = false ∧ dst ≠ src ∧ (s.lane dst).inVote = true ∧ (s.lane dst).mode = 2 ∧
     (s.lane src).fget VOTE_READM_RSTEP = 1 ∧ (¬ (v = (s.lane dst).pairValues ∧ (s.lane dst).prog.chg.stage = .none))) ∧
    (let s : State := readmMod 6
     let l : LaneId := .c
     (s.lane l).rst.held = false ∧ (s.lane l).fget VOTE_READM_RSTEP = 6) := by
  and_intros <;> decide +kernel

theorem witness_ReadmissionFollowsItsSteps_4 :
    (let s : State := readmMod 2
     let dst : LaneId := .c
     let src : LaneId := .b
     let page : Nat := 1
     let ctx : Nat := Config.pageOwner ((readmMod 2).lane .c).prgid 1
     let bs : List Byte := List.replicate 4096 5
     let crc : Word := BitVec.ofNat 32 (crc32c (List.replicate 4096 5))
     let i := 3
     let c := 127
     (s.lane dst).rst.held = false ∧ (s.lane dst).fget VOTE_READM_RSTEP = 2 ∧ (s.lane dst).easy = false ∧ s.donorOf page = some src ∧
     page < pagesOf (s.lane dst).prgid ∧ crc.toNat = crc32c bs ∧ bs.length = 4096 ∧ ctx = Config.pageOwner (s.lane dst).prgid page ∧
     page < 128 ∧ i < 128 ∧ c / 128 ≠ page) := by
  and_intros <;> first
    | with_reducible exact crcWord_toNat _
    | with_reducible exact List.length_replicate
    | with_reducible rfl
    | (show _ < min 1152 (128 + _); omega)
    | decide +kernel

theorem witness_ReadmissionFollowsItsSteps_5 :
    (let s : State := readmMod 2
     let dst : LaneId := .c
     let src : LaneId := .b
     let page : Nat := 1
     let ctx : Nat := Config.pageOwner ((readmMod 2).lane .c).prgid 1 + 1
     let bs : List Byte := List.replicate 4096 5
     let crc : Word := BitVec.ofNat 32 (crc32c (List.replicate 4096 5))
     (s.lane dst).rst.held = false ∧ (s.lane dst).fget VOTE_READM_RSTEP = 2 ∧ (s.lane dst).easy = false ∧ s.donorOf page = some src ∧
     page < pagesOf (s.lane dst).prgid ∧ crc.toNat = crc32c bs ∧ bs.length = 4096 ∧ ctx ≠ Config.pageOwner (s.lane dst).prgid page) := by
  and_intros <;> first
    | with_reducible exact crcWord_toNat _
    | with_reducible exact List.length_replicate
    | exact Nat.succ_ne_self _
    | (show _ < min 1152 (128 + _); omega)
    | decide +kernel

theorem witness_ReadmissionFollowsItsSteps_6 :
    (let s : State := readmMod 2
     let dst : LaneId := .c
     let src : LaneId := .b
     let page : Nat := 1
     let bs : List Byte := [5]
     let crc : Word := 0
     let again : Bool := false
     (s.lane dst).rst.held = false ∧ (s.lane dst).fget VOTE_READM_RSTEP = 2 ∧ (s.lane dst).easy = false ∧ s.donorOf page = some src ∧
     page < pagesOf (s.lane dst).prgid ∧ crc.toNat ≠ crc32c bs ∧ again = false) := by
  and_intros <;> first
    | (show _ < min 1152 (128 + _); omega)
    | decide +kernel

theorem witness_ReadmissionFollowsItsSteps_7 :
    (let s : State := readmMod 2
     let dst : LaneId := .c
     let src : LaneId := .b
     let page : Nat := 1
     let bs : List Byte := [5]
     let crc : Word := 0
     let again : Bool := true
     (s.lane dst).rst.held = false ∧ (s.lane dst).fget VOTE_READM_RSTEP = 2 ∧ (s.lane dst).easy = false ∧ s.donorOf page = some src ∧
     page < pagesOf (s.lane dst).prgid ∧ crc.toNat ≠ crc32c bs ∧ again = true) := by
  and_intros <;> first
    | (show _ < min 1152 (128 + _); omega)
    | decide +kernel

theorem witness_ReadmissionFollowsItsSteps_8 :
    (let s : State := (readmMod 2).modLane .c fun x => { x with readm := { x.readm with got := upTo 1152 } }
     let l : LaneId := .c
     (s.lane l).rst.held = false ∧ (s.lane l).fget VOTE_READM_RSTEP = 2 ∧ (s.lane l).readm.retry = [] ∧
     ((∀ p, (p < pagesOf (s.lane l).prgid → p ∈ (s.lane l).readm.got)))) := by
  and_intros <;> first
    | exact fun p h => List.mem_range.2 (Nat.lt_of_lt_of_le h (Nat.min_le_left 1152 _))
    | decide +kernel

theorem witness_ReadmissionFollowsItsSteps_9 :
    (let s : State := (readmMod 2).modLane .c fun x => { x with readm := { x.readm with retry := [130] } }
     let l : LaneId := .c
     let p := 0
     (s.lane l).rst.held = false ∧ (s.lane l).fget VOTE_READM_RSTEP = 2 ∧ (s.lane l).readm.retry ≠ [] ∧ p < pagesOf (s.lane l).prgid ∧
     p ∉ (s.lane l).readm.got) := by
  and_intros <;> first
    | (show _ < min 1152 (128 + _); omega)
    | decide +kernel

theorem witness_LinksGoDownAndComeUpByTheirRules :
    (let s : State := m3
     let l : LaneId := .a
     let k : Nat := 1
     let seq : Word := 0
     let body : List Byte := [1, 2]
     let crc : Word := BitVec.ofNat 32 (crc32c [0, 0, 0, 0, 1, 2])
     let crcOk := crc.toNat = crc32c (beBytes 4 seq.toNat ++ body)
     (s.lane l).rst.held = false ∧ k < 2 ∧ (s.lane l).linkUp k = true ∧ (((crcOk) ∧ (seq = ((s.lane l).link k).expSeq)))) ∧
    (let s : State := m3
     let l : LaneId := .a
     let k : Nat := 1
     let seq : Word := 0
     let body : List Byte := [1, 2]
     let crc : Word := 0
     let again : Bool := false
     let crcOk := crc.toNat = crc32c (beBytes 4 seq.toNat ++ body)
     (s.lane l).rst.held = false ∧ k < 2 ∧ (s.lane l).linkUp k = true ∧ (¬ crcOk) ∧ (¬ (crcOk ∧ seq = ((s.lane l).link k).expSeq)) ∧
     again = false) ∧
    (let s : State := m3
     let l : LaneId := .a
     let k : Nat := 1
     let seq : Word := 1
     let body : List Byte := [1, 2]
     let crc : Word := BitVec.ofNat 32 (crc32c [0, 0, 0, 1, 1, 2])
     let again : Bool := true
     let crcOk := crc.toNat = crc32c (beBytes 4 seq.toNat ++ body)
     (s.lane l).rst.held = false ∧ k < 2 ∧ (s.lane l).linkUp k = true ∧ (((crcOk) ∧ (seq ≠ ((s.lane l).link k).expSeq))) ∧
     (¬ (crcOk ∧ seq = ((s.lane l).link k).expSeq)) ∧ again = true) ∧
    (let s : State := m3
     let l : LaneId := .a
     let k : Nat := 0
     let tm : Nat := 9999
     (s.lane l).rst.held = false ∧ k < 2 ∧ (s.lane l).linkUp k = true ∧ tm < ((s.lane l).link k).lastValid + 10000) ∧
    (let s : State := m0.modLane .a fun x => { x with xl0 := { x.xl0 with goodRun := 1000 } }
     let l : LaneId := .a
     let k : Nat := 0
     (s.lane l).rst.held = false ∧ k < 2 ∧ (s.lane l).linkUp k = false) ∧
    (let s : State := m0.modLane .a fun x => { x with xl0 := { x.xl0 with lastTrain := 5 } }
     let l : LaneId := .a
     let k : Nat := 0
     (s.lane l).rst.held = false ∧ k < 2 ∧ (s.lane l).linkUp k = false ∧ ((s.lane l).link k).lastTrain ≠ 0) ∧
    (let s : State := m3
     let l : LaneId := .a
     let k : Nat := 0
     (s.lane l).rst.held = false ∧ k < 2 ∧ (s.lane l).linkUp k = true) ∧
    (let s : State := m3
     let l : LaneId := .a
     let k : Nat := 0
     (s.lane l).rst.held = false ∧ k < 2) ∧
    (let s : State := m0.modLane .a fun x => { x with xl0 := { x.xl0 with lastSent := 5 } }
     let l : LaneId := .a
     let k : Nat := 0
     (s.lane l).rst.held = false ∧ k < 2 ∧ ((s.lane l).link k).lastSent ≠ 0) := by
  and_intros <;> decide +kernel

theorem witness_StationDataIsWrittenUnlockedAndFixedLocked :
    (let s : State := m0
     let l : LaneId := .b
     let a : Word := 0x10000024
     let k := .a
     let b : Nat := 0x10000020
     (s.lane l).rst.held = false ∧ (s.lane l).on RLE_STAT_BUSY = false ∧ (s.lane l).on RLE_STAT_LOCKED = false ∧ a.toNat % 4 = 0 ∧
     rleArea a.toNat ≠ .none ∧ rleArea a.toNat ≠ .request ∧ rleArea a.toNat ≠ .result ∧ k ≠ l ∧ b % 4 = 0 ∧ b ≠ a.toNat) ∧
    (let s : State := m0
     let l : LaneId := .b
     let a : Word := 0x10000024
     let n : Nat := 0
     (s.lane l).rst.held = false ∧ (s.lane l).on RLE_STAT_BUSY = false ∧ a.toNat % 4 = 0 ∧ rleArea a.toNat ≠ .none ∧
     (n = 0 ∨ (rleArea a.toNat).ecc = false)) ∧
    (let s : State := m0
     let l : LaneId := .b
     let a : Word := 0x10000024
     let n : Nat := 1
     (s.lane l).rst.held = false ∧ (s.lane l).on RLE_STAT_BUSY = false ∧ a.toNat % 4 = 0 ∧ rleArea a.toNat ≠ .none ∧
     (((n = 1) ∧ ((rleArea a.toNat).ecc = true)))) ∧
    (let s : State := m0.modLane .b fun x => x.fset VOTE_STAT_INVOTE 1
     let l : LaneId := .b
     let a : Word := 0x10000024
     let n : Nat := 2
     (s.lane l).rst.held = false ∧ (s.lane l).on RLE_STAT_BUSY = false ∧ a.toNat % 4 = 0 ∧ rleArea a.toNat ≠ .none ∧
     (((1 < n) ∧ ((rleArea a.toNat).ecc = true))) ∧ (s.lane l).easy = false ∧ (s.lane l).inVote = true) ∧
    (let s : State := rlocked [(1, rcell [(fTYPE, tCONDITION)] [])]
     let l : LaneId := .a
     let a : Word := 0x10000024
     let c : Nat := 1
     let d := 2
     (s.lane l).rst.held = false ∧ (s.lane l).on RLE_STAT_BUSY = false ∧ (s.lane l).on RLE_STAT_LOCKED = true ∧ a.toNat % 4 = 0 ∧
     rleArea a.toNat = .cell c 1 ∧ (s.lane l).typ c = tCONDITION ∧ d ≠ c) ∧
    (let s : State := m0
     let l : LaneId := .a
     let a : Word := 0x10000021
     (s.lane l).rst.held = false ∧ (a.toNat % 4 ≠ 0 ∨ (s.lane l).on RLE_STAT_BUSY = true)) ∧
    (let s : State := m0
     let l : LaneId := .a
     let ecc : EccHits := []
     (s.lane l).rst.held = false ∧ (s.lane l).on RLE_STAT_BUSY = false ∧ (s.lane l).on RLE_STAT_LOCKED = false ∧
     ((∀ h ∈ ecc, ((rleArea (BitVec.toNat h.1)).ecc = true → h.2 ≤ 1))) ∧
     ((∀ h ∈ ecc, ((rleArea (BitVec.toNat h.1)).ecc = true → h.2 = 0)))) ∧
    (let s : State := m0.modLane .a fun x => { x.fset RLE_STAT_BUSY 1 with cells := [(7, rcell [(fTYPE, 13)] [])] }
     let l : LaneId := .a
     let code := 1
     let kind := 0
     let i := 7
     (s.lane l).rst.held = false ∧ (s.lane l).on RLE_STAT_BUSY = true ∧ (s.lane l).rle.strokeRun = false ∧
     (s.lane l).loadError = some (code, kind, i)) ∧
    (let s : State := m0
     let l : LaneId := .a
     (s.lane l).rst.held = false ∧ (s.lane l).on RLE_STAT_LOCKED = false ∧ (s.lane l).on RLE_STAT_CHK_OK = false) ∧
    (let s : State := m0.modLane .a fun x => x.fset RLE_STAT_CHK_OK 1
     let l : LaneId := .a
     (s.lane l).rst.held = false ∧ (s.lane l).on RLE_STAT_LOCKED = false ∧ (s.lane l).on RLE_STAT_CHK_OK = true) := by
  and_intros <;> decide +kernel

theorem witness_StationDataIsWrittenUnlockedAndFixedLocked_4 :
    (let s : State := rlocked []
     let l : LaneId := .a
     let a : Word := 0x10000024
     (s.lane l).rst.held = false ∧ (s.lane l).on RLE_STAT_BUSY = false ∧ (s.lane l).on RLE_STAT_LOCKED = true ∧ a.toNat % 4 = 0 ∧
     rleArea a.toNat ≠ .none ∧ rleArea a.toNat ≠ .request ∧ rleArea a.toNat ≠ .result ∧
     ((∀ c, (rleArea a.toNat = .cell c 1 → (s.lane l).typ c ≠ tCONDITION)))) := by
  and_intros <;> first
    | exact fun c h => by
          have e : 1 = c := by simpa [rleArea] using h
          subst e
          decide +kernel
    | decide +kernel

theorem witness_AreaBasesStayInsideLaneSramAndApart :
    (let s : State := m0
     let l : LaneId := .a
     let out : Bool := true
     let v : Word := 0x08E20000
     let other := (s.lane l).fget (if out then RLE_INBASE_BASE else RLE_OUTBASE_BASE)
     let b := bvField v 17 15
     let refused := (s.lane l).on RLE_STAT_LOCKED = true ∨ b * 0x20000 < 0x08000000 ∨ 0x09000000 < b * 0x20000 + 0x20000 ∨ b = other
     (s.lane l).rst.held = false ∧ (¬ refused)) ∧
    (let s : State := m0
     let l : LaneId := .a
     let out : Bool := false
     let v : Word := 0x09000000
     let other := (s.lane l).fget (if out then RLE_INBASE_BASE else RLE_OUTBASE_BASE)
     let b := bvField v 17 15
     let refused := (s.lane l).on RLE_STAT_LOCKED = true ∨ b * 0x20000 < 0x08000000 ∨ 0x09000000 < b * 0x20000 + 0x20000 ∨ b = other
     (s.lane l).rst.held = false ∧ refused) ∧
    (let s : State := m0
     let l : LaneId := .a
     (s.lane l).rst.held = false ∧
     (baseOutside ((s.lane l).rg RLE_INBASE).toNat = true ∨ baseOutside ((s.lane l).rg RLE_OUTBASE).toNat = true)) := by
  and_intros <;> decide +kernel

theorem witness_RouteEngineCommandsAndTimersKeepStationData :
    (let s : State := m0
     let l : LaneId := .a
     let v : Word := 64
     (s.lane l).rst.held = false ∧ bvField v 0 7 ≤ 64) ∧
    (let s : State := m0
     let l : LaneId := .a
     let v : Word := 65
     (s.lane l).rst.held = false ∧ 64 < bvField v 0 7) ∧
    (let s : State := m0
     let l : LaneId := .a
     (s.lane l).rst.held = false) ∧
    (let s : State := rmod 0 [(5, rcell [(fTYPE, tPOINT), (gMTO, 3)] [(fMOV, 1), (fPOS, 1), (fCMD, 1), (fMTMR, 2)])]
     let l : LaneId := .a
     let c : Nat := 5
     let d := 6
     (s.lane l).rst.held = false ∧ isPsd ((s.lane l).typ c) = true ∧ (s.lane l).stale c = false ∧ (s.lane l).cs c fMOV = 1 ∧
     (s.lane l).easy = false ∧ d ≠ c ∧ (s.lane l).cs c fPOS = (s.lane l).cs c fCMD) ∧
    (let s : State := rmod 0 [(5, rcell [(fTYPE, tPOINT), (gMTO, 3)] [(fMOV, 1), (fPOS, 2), (fCMD, 1), (fMTMR, 2)])]
     let l : LaneId := .a
     let c : Nat := 5
     (s.lane l).rst.held = false ∧ isPsd ((s.lane l).typ c) = true ∧ (s.lane l).stale c = false ∧ (s.lane l).cs c fMOV = 1 ∧
     (s.lane l).easy = false ∧ (s.lane l).cs c fPOS ≠ (s.lane l).cs c fCMD ∧ (s.lane l).cs c fMTMR < (s.lane l).cc c gMTO) ∧
    (let s : State := rmod 0 [(5, rcell [(fTYPE, tPOINT), (gMTO, 3)] [(fMOV, 1), (fPOS, 2), (fCMD, 1), (fMTMR, 3)])]
     let l : LaneId := .a
     let c : Nat := 5
     (s.lane l).rst.held = false ∧ isPsd ((s.lane l).typ c) = true ∧ (s.lane l).stale c = false ∧ (s.lane l).cs c fMOV = 1 ∧
     (s.lane l).easy = false ∧ (s.lane l).cs c fPOS ≠ (s.lane l).cs c fCMD ∧ (s.lane l).cc c gMTO ≤ (s.lane l).cs c fMTMR) ∧
    (let s : State := rmod 0x80000000 [(1, rcell [(fTYPE, tSIGNAL), (gALT, 5)] [(fATMR, 5), (fLKIND, 1), (fLRT, 1)]), (2, rcell [(fTYPE, tSECTION)] [(fLKIND, 1), (fLRT, 1)])]
     let l : LaneId := .a
     let i : Nat := 1
     let e := (s.lane l).entryOf i
     (s.lane l).rst.held = false ∧ (s.lane l).rState i = rsCancelling ∧ (s.lane l).easy = false ∧ (s.lane l).passage i = false ∧
     (s.lane l).cc e gALT ≤ (s.lane l).cs e fATMR) ∧
    (let s : State := rmod 0x80000000 [(1, rcell [(fTYPE, tSIGNAL), (gALT, 5)] [(fATMR, 4), (fLKIND, 1), (fLRT, 1)]), (2, rcell [(fTYPE, tSECTION)] [(fLKIND, 1), (fLRT, 1)])]
     let l : LaneId := .a
     let i : Nat := 1
     let e := (s.lane l).entryOf i
     (s.lane l).rst.held = false ∧ (s.lane l).rState i = rsCancelling ∧ (s.lane l).easy = false ∧ (s.lane l).passage i = false ∧
     (s.lane l).cs e fATMR < (s.lane l).cc e gALT) ∧
    (let s : State := rmod 0x80000000 [(1, rcell [(fTYPE, tSIGNAL), (gALT, 5)] [(fATMR, 5), (fLKIND, 1), (fLRT, 1)]), (2, rcell [(fTYPE, tSECTION)] [(fLKIND, 1), (fLRT, 1), (fRSEQ, 1)])]
     let l : LaneId := .a
     let i : Nat := 1
     (s.lane l).rst.held = false ∧ (s.lane l).rState i = rsCancelling ∧ (s.lane l).easy = false ∧ (s.lane l).passage i = true) ∧
    (let s : State := rmod 0xA4000000 [(3, rcell [(fTYPE, tSIGNAL)] []), (4, rcell [(fTYPE, tOVERLAP), (gSIG, 3), (gOREL, 9)] [(fLKIND, 2), (fLRT, 1), (fORUN, 1), (fOTMR, 9)])]
     let l : LaneId := .a
     let c : Nat := 4
     let out := (s.lane l).cs c fORUN = 1 ∧ (s.lane l).cc c gOREL ≤ (s.lane l).cs c fOTMR ∧ (s.lane l).ovClear c = true
     (s.lane l).rst.held = false ∧ (s.lane l).typ c = tOVERLAP ∧ (s.lane l).cs c fLKIND = 2 ∧
     (s.lane l).rState ((s.lane l).cs c fLRT) = rsReleasing ∧ (s.lane l).routeOverlap ((s.lane l).cs c fLRT) = some c ∧
     (s.lane l).easy = false ∧ out) ∧
    (let s : State := rmod 0xA4000000 [(3, rcell [(fTYPE, tSIGNAL)] []), (4, rcell [(fTYPE, tOVERLAP), (gSIG, 3), (gOREL, 9)] [(fLKIND, 2), (fLRT, 1), (fORUN, 1), (fOTMR, 8)])]
     let l : LaneId := .a
     let c : Nat := 4
     let out := (s.lane l).cs c fORUN = 1 ∧ (s.lane l).cc c gOREL ≤ (s.lane l).cs c fOTMR ∧ (s.lane l).ovClear c = true
     (s.lane l).rst.held = false ∧ (s.lane l).typ c = tOVERLAP ∧ (s.lane l).cs c fLKIND = 2 ∧
     (s.lane l).rState ((s.lane l).cs c fLRT) = rsReleasing ∧ (s.lane l).routeOverlap ((s.lane l).cs c fLRT) = some c ∧
     (s.lane l).easy = false ∧ (¬ out)) ∧
    (let s : State := rmod 0xA0000000 [(2, rcell [(fTYPE, tSECTION)] [(fLKIND, 1), (fLRT, 1), (fOCC, 1), (fRSEQ, 2)])]
     let l : LaneId := .a
     let c : Nat := 2
     (s.lane l).rst.held = false ∧ (s.lane l).typ c = tSECTION ∧ (s.lane l).cs c fLKIND = 1 ∧
     (s.lane l).rState ((s.lane l).cs c fLRT) = rsReleasing ∧ (s.lane l).easy = false ∧ (s.lane l).complete c = true) ∧
    (let s : State := rmod 0xA0000000 [(2, rcell [(fTYPE, tSECTION)] [(fLKIND, 1), (fLRT, 1), (fOCC, 1), (fRSEQ, 1)])]
     let l : LaneId := .a
     let c : Nat := 2
     (s.lane l).rst.held = false ∧ (s.lane l).typ c = tSECTION ∧ (s.lane l).cs c fLKIND = 1 ∧
     (s.lane l).rState ((s.lane l).cs c fLRT) = rsReleasing ∧ (s.lane l).easy = false ∧ (s.lane l).complete c = false) ∧
    (let s : State := (rmod 0 [(5, rcell [(fTYPE, tCROSSING), (gCMAX, 7)] [(fCTMR, 7)])]).modLane .a fun x => { x with rle := { x.rle with closeCmd := [5] } }
     let l : LaneId := .a
     let c : Nat := 5
     (s.lane l).rst.held = false ∧ (s.lane l).crossingLate c = true ∧ (s.lane l).easy = false) ∧
    (let s : State := rmod 0 [(5, rcell [(fTYPE, tCROSSING), (gCMAX, 7)] [(fCTMR, 7)])]
     let l : LaneId := .a
     let c : Nat := 5
     (s.lane l).rst.held = false ∧ ((s.lane l).crossingLate c = false ∨ (s.lane l).easy = true)) ∧
    (let s : State := (rmod 0xA0000000 [(2, rcell [(fTYPE, tSECTION)] [(fLKIND, 1), (fLRT, 1), (fOCC, 1), (fRSEQ, 2)])]).modLane .a fun x => x.fset VOTE_STAT_MODE modeEasy
     let l : LaneId := .a
     (s.lane l).rst.held = false ∧ (s.lane l).easy = true) ∧
    (let s : State := rlocked [(1, rcell [(fTYPE, tSECTION)] [])]
     let l : LaneId := .a
     let ecc : EccHits := []
     let a := 0x08E40400
     (s.lane l).rst.held = false ∧ (s.lane l).on RLE_STAT_BUSY = false ∧ (s.lane l).on RLE_STAT_LOCKED = true ∧
     ((∀ h ∈ ecc, ((rleArea (BitVec.toNat h.1)).ecc = true → h.2 ≤ 1))) ∧ (s.lane l).easy = false ∧
     baseOutside ((s.lane l).rg RLE_INBASE).toNat = false ∧ baseOutside ((s.lane l).rg RLE_OUTBASE).toNat = false ∧
     (a < ((s.lane l).rg RLE_OUTBASE).toNat ∨ ((s.lane l).rg RLE_OUTBASE).toNat + 0x20400 ≤ a)) ∧
    (let s : State := (rlocked [(1, rcell [(fTYPE, tSECTION)] [])]).modLane .a fun x => x.fset VOTE_STAT_INVOTE 1
     let l : LaneId := .a
     let ecc : EccHits := [(0x10000024, 1), (0x10000020, 2)]
     (s.lane l).rst.held = false ∧ (s.lane l).on RLE_STAT_BUSY = false ∧ (s.lane l).on RLE_STAT_LOCKED = true ∧ (s.lane l).easy = false ∧
     (s.lane l).inVote = true ∧ baseOutside ((s.lane l).rg RLE_INBASE).toNat = false ∧
     baseOutside ((s.lane l).rg RLE_OUTBASE).toNat = false ∧ ((∃ h ∈ ecc, (((rleArea (BitVec.toNat h.1)).ecc = true) ∧ (1 < h.2))))) ∧
    (let s : State := m0.modLane .a fun x => (x.setRg RLE_INBASE 0x08E00000).setRg RLE_OUTBASE 0x08E20000
     let l : LaneId := .a
     (s.lane l).rst.held = false ∧ (s.lane l).on RLE_STAT_BUSY = false ∧
     ((s.lane l).on RLE_STAT_LOCKED = false ∨ (s.lane l).easy = true) ∧ baseOutside ((s.lane l).rg RLE_INBASE).toNat = false ∧
     baseOutside ((s.lane l).rg RLE_OUTBASE).toNat = false) ∧
    (let s : State := m0.modLane .a fun x => { x.fset RLE_STAT_BUSY 1 with rle := { x.rle with strokeRun := true } }
     let l : LaneId := .a
     (s.lane l).rst.held = false ∧ (s.lane l).on RLE_STAT_BUSY = true ∧ (s.lane l).rle.strokeRun = true) := by
  and_intros <;> decide +kernel

theorem witness_RouteEngineCommandsAndTimersKeepStationData_3 :
    (let s : State := m0.modLane .a fun x => { x with start := { x.start with cold := false, digests := [(.b, 0)] } }
     let dst : LaneId := .a
     let src : LaneId := .c
     let crc : Word := 1
     let d : Word := 0
     let same : Bool := crc.toNat == (s.lane dst).retainedCrc && d.toNat == (s.lane dst).retainedCrc
     (s.lane dst).rst.held = false ∧ (s.lane dst).id = dst ∧ src ≠ dst ∧ (s.lane dst).start.cold = false ∧ (s.lane dst).sitReady = true ∧
     (s.lane dst).armed = false ∧ (s.lane dst).on RLE_STAT_LOCKED = false ∧
     ((∃ p, ((p ≠ dst) ∧ (p ≠ src) ∧ ((s.lane dst).start.digests = [(p, d)])))) ∧ crc ≠ d ∧ same = false) := by
  and_intros <;> first
    | exact ⟨.b, by decide, by decide, rfl⟩
    | exact two_values _
    | decide +kernel

theorem witness_TrapsSaveAndRestoreTheCoreLevel :
    (let s : State := mSplit
     let l : LaneId := .a
     let n : Nat := 1
     let k := 1
     (s.lane l).rst.held = false ∧ n < 2 ∧ s.split = true ∧ k < 2 ∧ (s.split = false ∨ k = n)) ∧
    (let s : State := mCore
     let l : LaneId := .a
     let n : Nat := 0
     let k := 1
     (s.lane l).rst.held = false ∧ n < 2 ∧ k < 2 ∧ (s.split = false ∨ k = n)) ∧
    (let s : State := mCore
     let l : LaneId := .a
     let n : Nat := 0
     let num : Nat := 1
     let k := 1
     let c := (s.lane l).core k
     (s.lane l).rst.held = false ∧ n < 2 ∧ k < 2 ∧ (s.split = false ∨ k = n) ∧ c.bit stSUP = true ∧ num = 1) ∧
    (let s : State := mCore
     let l : LaneId := .a
     let n : Nat := 0
     let num : Nat := 2
     let k := 1
     let c := (s.lane l).core k
     (s.lane l).rst.held = false ∧ n < 2 ∧ k < 2 ∧ (s.split = false ∨ k = n) ∧ c.bit stSUP = true ∧ num = 2) ∧
    (let s : State := mCore
     let l : LaneId := .a
     let n : Nat := 0
     let num : Nat := 5
     let k := 1
     let c := (s.lane l).core k
     (s.lane l).rst.held = false ∧ n < 2 ∧ k < 2 ∧ (s.split = false ∨ k = n) ∧ c.bit stSUP = true ∧ num = 5) ∧
    (let s : State := mCore
     let l : LaneId := .a
     let n : Nat := 0
     let num : Nat := 0
     let k := 1
     let c := (s.lane l).core k
     (s.lane l).rst.held = false ∧ n < 2 ∧ k < 2 ∧ (s.split = false ∨ k = n) ∧ c.bit stSUP = true ∧ num = 0) ∧
    (let s : State := mCore
     let l : LaneId := .a
     let n : Nat := 0
     let num : Nat := 3
     let k := 1
     let c := (s.lane l).core k
     (s.lane l).rst.held = false ∧ n < 2 ∧ k < 2 ∧ (s.split = false ∨ k = n) ∧
     (c.bit stSUP = false ∨ (num ≠ 0 ∧ num ≠ 1 ∧ num ≠ 2 ∧ num ≠ 5))) ∧
    (let s : State := mCore
     let l : LaneId := .a
     let n : Nat := 0
     let num : Nat := 0x10
     let k := 1
     let w := (((mCore.lane .a).showCycles mCore.now).core 1).cycle.setWidth 32
     let c := ((s.lane l).showCycles s.now).core k
     (s.lane l).rst.held = false ∧ n < 2 ∧ k < 2 ∧ (s.split = false ∨ k = n) ∧ c.sysValue num = some w ∧ num = 0x10) ∧
    (let s : State := mCore
     let l : LaneId := .a
     let n : Nat := 0
     let num : Nat := 0x30
     let k := 1
     let c := ((s.lane l).showCycles s.now).core k
     (s.lane l).rst.held = false ∧ n < 2 ∧ k < 2 ∧ (s.split = false ∨ k = n) ∧ c.sysValue num = none) ∧
    (let s : State := mCore
     let l : LaneId := .a
     let n : Nat := 0
     let num : Nat := 0x12
     let k := 1
     let w := 0
     let c := ((s.lane l).showCycles s.now).core k
     (s.lane l).rst.held = false ∧ n < 2 ∧ k < 2 ∧ (s.split = false ∨ k = n) ∧ c.sysValue num = some w ∧ num = 0x12) := by
  and_intros <;> decide +kernel

theorem witness_LowestEnabledLineIsTaken :
    (let s : State := m3
     let l : LaneId := .b
     (s.lane l).rst.held = false) := by
  decide +kernel

theorem witness_LowestEnabledLineIsTaken_0 :
    (let s : State := mCore.modLane .a fun x => (x.setRg LCTL_IRQ_EN 0x7FF).setRg LCTL_IRQ_PEND 0x408
     let l : LaneId := .a
     let n : Nat := 3
     let k := .b
     (s.lane l).rst.held = false ∧ n < 11 ∧ ((s.lane l).rg LCTL_IRQ_PEND &&& (s.lane l).rg LCTL_IRQ_EN).getLsbD n = true ∧
     ((∀ m, (m < n → ((s.lane l).rg LCTL_IRQ_PEND &&& (s.lane l).rg LCTL_IRQ_EN).getLsbD m = false))) ∧ (s.lane l).core0.bit stIE = true ∧
     k ≠ l) := by
  and_intros <;> first
    | (intro k; cases k <;> decide +kernel)
    | decide +kernel

theorem witness_MismatchesAndDebugHaltsEndTheLanesVote :
    (let s : State := m3
     let l : LaneId := .b
     let r0 : List Retired := [{ pc := 4, word := 5, store := none }]
     let r1 : List Retired := [{ pc := 4, word := 5, store := none }]
     let tm : Nat := 60000000
     (s.lane l).rst.held = false ∧ s.split = false ∧ (s.lane l).sig.phase = .none ∧
     (r0.length = 1024 ∨ (r0.length < 1024 ∧ (s.lane l).sig.openT + 10000 ≤ tm)) ∧
     r0.foldl misrRetire misrStart = r1.foldl misrRetire misrStart) ∧
    (let s : State := m3.modLane .b fun x => { x with sig := { x.sig with openT := 59999999 } }
     let l : LaneId := .b
     let r0 : List Retired := []
     let tm : Nat := 60000000
     (s.lane l).rst.held = false ∧ (1024 < r0.length ∨ (r0.length < 1024 ∧ tm < (s.lane l).sig.openT + 10000))) ∧
    (let s : State := m0
     let l : LaneId := .b
     let may := ((s.lane l).unarmed = true ∨ (s.lane l).joining = true) ∧ (s.lane l).on SIGC_STAT_INJ_RUN = false
     (s.lane l).rst.held = false ∧ may) ∧
    (let s : State := m3
     let l : LaneId := .b
     let may := ((s.lane l).unarmed = true ∨ (s.lane l).joining = true) ∧ (s.lane l).on SIGC_STAT_INJ_RUN = false
     (s.lane l).rst.held = false ∧ (¬ may)) ∧
    (let s : State := m3
     let l : LaneId := .b
     let y := .a
     (s.lane l).rst.held = false ∧ (s.lane l).easy = false ∧ (s.lane l).inVote = true ∧ (s.lane l).on LCTL_STAT_BENCH = false ∧ y ≠ l ∧
     (s.lane y).inVote = true) ∧
    (let s : State := m3.modLane .b fun x => x.fset LCTL_STAT_BENCH 1
     let l : LaneId := .b
     (s.lane l).rst.held = false ∧ (s.lane l).easy = false ∧ (s.lane l).on LCTL_STAT_BENCH = true) ∧
    (let s : State := { m3 with hub := { m3.hub with host := { m3.hub.host with granted := [.b] } } }
     let l : LaneId := .b
     let k := .a
     (s.lane l).rst.held = false ∧ s.hub.host.granted.contains l = true ∧ s.hub.on CLKC_HSTAT_AON_FAIL = false ∧ k ≠ l) ∧
    (let s : State := m3
     let l : LaneId := .b
     (s.lane l).rst.held = false ∧ s.split = false) ∧
    (let s : State := mSplit
     let l : LaneId := .b
     (s.lane l).rst.held = false ∧ s.split = true) := by
  and_intros <;> decide +kernel

theorem witness_MismatchesAndDebugHaltsEndTheLanesVote_1 :
    (let s : State := m3
     let l : LaneId := .b
     let r0 : List Retired := [{ pc := 4, word := 5, store := none }]
     let r1 : List Retired := []
     let tm : Nat := 60000000
     let y := .a
     (s.lane l).rst.held = false ∧ s.split = false ∧ (s.lane l).sig.phase = .none ∧
     (r0.length = 1024 ∨ (r0.length < 1024 ∧ (s.lane l).sig.openT + 10000 ≤ tm)) ∧ ((∃ y, ((y ≠ l) ∧ ((s.lane y).inVote = true)))) ∧
     r0.foldl misrRetire misrStart ≠ r1.foldl misrRetire misrStart ∧ (s.lane l).easy = false ∧ (s.lane l).inVote = true ∧ y ≠ l ∧
     (s.lane y).inVote = true) := by
  and_intros <;> first
    | exact ⟨.a, by decide +kernel⟩
    | decide +kernel

theorem witness_WatchdogKicksMustFallInTheWindow :
    (let s : State := m3
     let l : LaneId := .b
     (s.lane l).rst.held = false ∧ (s.lane l).wdt.key1 = false) ∧
    (let s : State := m3.modLane .b fun x => { x with wdt := { last := 50000000, key1 := true } }
     let l : LaneId := .b
     let tm : Nat := 50000000 + ((m3.lane .b).fget WDT_CFG_CLOSE) * (m3.lane .b).wdtUnit
     (s.lane l).rst.held = false ∧ (s.lane l).wdt.key1 = true ∧
     (s.lane l).wdt.last + (s.lane l).fget WDT_CFG_OPEN * (s.lane l).wdtUnit ≤ tm ∧
     tm ≤ (s.lane l).wdt.last + (s.lane l).fget WDT_CFG_CLOSE * (s.lane l).wdtUnit) ∧
    (let s : State := m3
     let l : LaneId := .b
     let tm : Nat := 9000000000
     (s.lane l).rst.held = false ∧ (s.lane l).wdtStopped = false ∧
     (s.lane l).wdt.last + ((s.lane l).fget WDT_CFG_CLOSE - (s.lane l).fget WDT_CFG_WARN) * (s.lane l).wdtUnit ≤ tm) ∧
    (let s : State := m3
     let l : LaneId := .b
     let v : Word := 0x20100
     (s.lane l).rst.held = false ∧ (s.lane l).on WDT_STAT_LOCKED = false ∧ bvField v 12 12 < bvField v 0 12) ∧
    (let s : State := m3.modLane .b fun x => x.fset WDT_STAT_LOCKED 1
     let l : LaneId := .b
     (s.lane l).rst.held = false ∧ (s.lane l).on WDT_STAT_LOCKED = true) ∧
    (let s : State := m3
     let l : LaneId := .b
     let tm : Nat := 5
     (s.lane l).rst.held = false ∧ ((s.lane l).core0.bit stWAIT = true ∨ tm < (s.lane l).sig.retT + 100000)) := by
  and_intros <;> decide +kernel

theorem witness_WatchdogKicksMustFallInTheWindow_2 :
    (let s : State := m3.modLane .b fun x => { x with wdt := { last := 50000000, key1 := true } }
     let l : LaneId := .b
     let v : Word := 0x3CA5
     let tm : Nat := 50000001 + ((m3.lane .b).fget WDT_CFG_CLOSE) * (m3.lane .b).wdtUnit
     (s.lane l).rst.held = false ∧ (s.lane l).easy = false ∧ (s.lane l).inVote = true ∧ ((∃ y, ((y ≠ l) ∧ ((s.lane y).inVote = true)))) ∧
     (s.lane l).wdt.key1 = true ∧ (s.lane l).wdtStopped = false ∧
     (v ≠ 0x3CA5 ∨ tm < (s.lane l).wdt.last + (s.lane l).fget WDT_CFG_OPEN * (s.lane l).wdtUnit ∨ (s.lane l).wdt.last + (s.lane l).fget WDT_CFG_CLOSE * (s.lane l).wdtUnit < tm)) := by
  and_intros <;> first
    | exact ⟨.a, by decide +kernel⟩
    | decide +kernel

theorem witness_WatchdogKicksMustFallInTheWindow_4 :
    (let s : State := m3
     let l : LaneId := .b
     let tm : Nat := 9000000000
     (s.lane l).rst.held = false ∧ (s.lane l).easy = false ∧ (s.lane l).inVote = true ∧ ((∃ y, ((y ≠ l) ∧ ((s.lane y).inVote = true)))) ∧
     (s.lane l).wdtStopped = false ∧ (s.lane l).wdt.last + (s.lane l).fget WDT_CFG_CLOSE * (s.lane l).wdtUnit ≤ tm) := by
  and_intros <;> first
    | exact ⟨.a, by decide +kernel⟩
    | decide +kernel

theorem witness_WatchdogKicksMustFallInTheWindow_7 :
    (let s : State := m3
     let l : LaneId := .b
     let inTrap : Bool := false
     let tm : Nat := 51000000
     (s.lane l).rst.held = false ∧ (s.lane l).easy = false ∧ (s.lane l).inVote = true ∧ ((∃ y, ((y ≠ l) ∧ ((s.lane y).inVote = true)))) ∧
     (inTrap = true ∨ ((s.lane l).core0.bit stWAIT = false ∧ (s.lane l).sig.retT + 100000 ≤ tm))) := by
  and_intros <;> first
    | exact ⟨.a, by decide +kernel⟩
    | decide +kernel

theorem witness_AccessesFollowTheMapAndTheFieldTypes :
    (let s : State := m0
     let l : LaneId := .a
     let addr : Word := 0x00010000
     (s.lane l).rst.held = false ∧
     ((let a := addr.toNat
 (0x10000 ≤ a ∧ a < 0x8000000) ∨ (0x9000000 ≤ a ∧ a < 0x10000000) ∨ (0x10080000 ≤ a ∧ a < 0x10100000) ∨ (0x10180000 ≤ a ∧ a < 0x10200000) ∨ (0x10240000 ≤ a ∧ a < 0x20000000) ∨ (0x20040000 ≤ a ∧ a < 0x21000000) ∨ (0x25000000 ≤ a ∧ a < 0x40000000) ∨ 0x4000E000 ≤ a))) ∧
    (let s : State := m0
     let addr : Word := 0x00040000
     s.hub.rst.held = false ∧
     ((let a := addr.toNat
 (0x40000 ≤ a ∧ a < 0x8000000) ∨ (0x9000000 ≤ a ∧ a < 0x20000000) ∨ (0x200C0000 ≤ a ∧ a < 0x30000000) ∨ (0x40016000 ≤ a ∧ a < 0x40100000) ∨ 0x40110000 ≤ a))) ∧
    (let addr : Word := 0x00010000
     0x10000 ≤ addr.toNat) ∧
    (let s : State := m0
     let l : LaneId := .a
     let addr : Word := 0x40000001
     let w : Width := .byte
     let env : AccessEnv := .plain
     (s.lane l).rst.held = false ∧ 0x40000000 ≤ addr.toNat ∧ addr.toNat < 0x4000E000 ∧
     (addr.toNat < CRC_DATA ∨ CRC_DATA + 4 ≤ addr.toNat) ∧ (w ≠ .word ∨ addr.toNat % 4 ≠ 0) ∧ env.src = .firmware) ∧
    (let s : State := m0
     let l : LaneId := .a
     let addr : Word := 0x4000DFFE
     let w : Width := .word
     let env : AccessEnv := { AccessEnv.plain with src := .debug }
     (s.lane l).rst.held = false ∧ 0x40000000 ≤ addr.toNat ∧ addr.toNat < 0x4000E000 ∧
     (addr.toNat < CRC_DATA ∨ CRC_DATA + 4 ≤ addr.toNat) ∧ (w ≠ .word ∨ addr.toNat % 4 ≠ 0) ∧ env.src = .debug) ∧
    (let s : State := m3
     let l : LaneId := .b
     let addr : Word := 0x4000DFFE
     let w : Width := .word
     let env : AccessEnv := { AccessEnv.plain with src := .task 5 }
     let j := 5
     (s.lane l).rst.held = false ∧ 0x40000000 ≤ addr.toNat ∧ addr.toNat < 0x4000E000 ∧
     (addr.toNat < CRC_DATA ∨ CRC_DATA + 4 ≤ addr.toNat) ∧ (w ≠ .word ∨ addr.toNat % 4 ≠ 0) ∧ env.src = .task j ∧
     (s.lane l).taskRuns j = none) ∧
    (let s : State := m3.modLane .b fun x => { x with tasks := [{ taskNew 5 with active := true, ready := true }] }
     let l : LaneId := .b
     let addr : Word := 0x40000001
     let w : Width := .byte
     let env : AccessEnv := { AccessEnv.plain with src := .task 5 }
     let j : Nat := 5
     let x : Lane := { m3.lane .b with tasks := [{ taskNew 5 with active := true, ready := true, begun := true }] }
     (s.lane l).rst.held = false ∧ 0x40000000 ≤ addr.toNat ∧ addr.toNat < 0x4000E000 ∧
     (addr.toNat < CRC_DATA ∨ CRC_DATA + 4 ≤ addr.toNat) ∧ (w ≠ .word ∨ addr.toNat % 4 ≠ 0) ∧ env.src = .task j ∧
     (s.lane l).taskRuns j = some x) ∧
    (let s : State := m0
     let addr : Word := 0x40000002
     let w : Width := .half
     s.hub.rst.held = false ∧ 0x40000000 ≤ addr.toNat ∧ addr.toNat < 0x40016000 ∧
     (addr.toNat < HCRC_DATA 0 ∨ HCRC_DATA 0 + 4 ≤ addr.toNat) ∧ (addr.toNat < HCRC_DATA 1 ∨ HCRC_DATA 1 + 4 ≤ addr.toNat) ∧
     (w ≠ .word ∨ addr.toNat % 4 ≠ 0)) ∧
    (let addr : Word := 2
     let w : Width := .half
     (w ≠ .word ∨ addr.toNat % 4 ≠ 0)) ∧
    (let s : State := m0
     let l : LaneId := .a
     let addr : Word := BitVec.ofNat 32 (CRC_DATA + 2)
     let w : Width := .half
     let env : AccessEnv := .plain
     (s.lane l).rst.held = false ∧ CRC_DATA ≤ addr.toNat ∧ addr.toNat < CRC_DATA + 4 ∧ w ≠ .word ∧ addr.toNat % Width.bytes w = 0 ∧
     env.src = .firmware ∧ (s.lane l).notes = []) ∧
    (let s : State := m0.modLane .a fun x => x.setRg TMR_STAT 0xFFFFFFFF
     let l : LaneId := .a
     let env : AccessEnv := { src := .firmware, nerr := 0, hw := 0xFFFFFFFF }
     (s.lane l).rst.held = false ∧ env.src = .firmware) ∧
    (let s : State := m0
     let l : LaneId := .a
     let addr : Word := 0x40009004
     let env : AccessEnv := .plain
     (s.lane l).rst.held = false ∧ env.src = .firmware ∧ 0x40009000 < addr.toNat ∧ addr.toNat < 0x4000A000 ∧ addr.toNat % 4 = 0) ∧
    (let s : State := m0
     let l : LaneId := .a
     let addr : Word := 0x40004000
     let env : AccessEnv := .plain
     (s.lane l).rst.held = false ∧ env.src = .firmware ∧ 0x40000000 ≤ addr.toNat ∧ addr.toNat < 0x4000E000 ∧ addr.toNat % 4 = 0) ∧
    (let s : State := m0
     let l : LaneId := .a
     let addr : Word := 0x08FFFFFC
     let b : Nat := 0x08FFFFFB
     (s.lane l).rst.held = false ∧ sramOk (s.lane l).badBanks addr.toNat 4 = true ∧ (b < addr.toNat ∨ addr.toNat + 4 ≤ b)) ∧
    (let s : State := m0
     let addr : Word := 0x40000000
     let d : RegDesc := (descOf hubRegs 0x40000000).getD { name := "", base := 0, stride := 0, count := 0, rw := 0, w1c := 0, reset := 0, keep := 0 }
     s.hub.rst.held = false ∧ 0x40000000 ≤ addr.toNat ∧ addr.toNat < 0x40002000 ∧ addr.toNat % 4 = 0 ∧ descOf hubRegs addr.toNat = some d) ∧
    (let s : State := m0
     let addr : Word := 0xFFFC
     s.hub.rst.held = false ∧ addr.toNat < 0x10000 ∧ addr.toNat % 4 = 0) ∧
    (let s : State := m0
     let addr : Word := 0x4000B000
     s.hub.rst.held = false ∧ 0x4000B000 ≤ addr.toNat ∧ addr.toNat < 0x40015000 ∧ addr.toNat % 4 = 0) ∧
    (let s : State := { m0 with hub := m0.hub.fset HCMD_STAT_HOSTSPI 1 }
     let off : Nat := 0x1000
     let v : Word := 1
     let crc : Nat := 0
     let f : List Byte := [0x02#8, 0x00#8] ++ beBytes 3 off ++ [0x01#8] ++ leBytes 4 v.toNat
     s.hub.rst.held = false ∧ s.hub.on HCMD_STAT_HOSTSPI = true ∧ off < 0x10000 ∧ off % 4 = 0 ∧ crc < 65536 ∧ crc ≠ crc16 f) ∧
    (let s : State := { m0 with hub := m0.hub.fset HCMD_STAT_HOSTSPI 1 }
     let off : Nat := 0x0000
     s.hub.rst.held = false ∧ s.hub.on HCMD_STAT_HOSTSPI = true ∧ off < 0x10000 ∧ off % 4 = 0) := by
  and_intros <;> decide +kernel

theorem witness_CommandWritesWhileBusySetBusErr :
    (let s : State := m0
     let l : LaneId := .a
     let v : Word := 3
     let env : AccessEnv := .plain
     let k := .b
     (s.lane l).rst.held = false ∧ env.src = .firmware ∧
     ((s.lane l).on RLE_STAT_BUSY = true ∨ (v.getLsbD 0 = true ∧ v.getLsbD 1 = true)) ∧ k ≠ l) := by
  and_intros <;> decide +kernel

theorem witness_SplitReadsAndPostedWritesEndOrPoison :
    (let s : State := mBrg
     let l : LaneId := .a
     let a : Word := 0x21000040
     let w : Width := .half
     let tm : Nat := 10000000
     (s.lane l).rst.held = false ∧ inBridge a.toNat = true ∧ a.toNat % Width.bytes w = 0 ∧
     (s.lane l).on (BRG_MAP_EN (brgWin a.toNat)) = true ∧ (s.lane l).poisonedWin (brgWin a.toNat) = false ∧ (s.lane l).brg.waiting = [] ∧
     (s.lane l).brg.reads = [] ∧ (s.lane l).brg.quar = [] ∧ 0 < tm) ∧
    (let s : State := mBrg
     let l : LaneId := .a
     let a : Word := 0x21800040
     let w : Width := .word
     (s.lane l).rst.held = false ∧ inBridge a.toNat = true ∧ a.toNat % Width.bytes w = 0 ∧ (s.lane l).brg.errs = [] ∧
     ((s.lane l).on (BRG_MAP_EN (brgWin a.toNat)) = false ∨ (s.lane l).poisonedWin (brgWin a.toNat) = true)) ∧
    (let s : State := mBrgWith fun b => { b with reads := [read0] }
     let l : LaneId := .a
     let tag : Nat := 0
     let r : BrgRead := read0
     (s.lane l).rst.held = false ∧ ((s.lane l).brg.reads.find? (fun x => x.tag == tag) = some r) ∧
     sramOk s.hub.badBanks ((s.lane l).hubAddr r.addr.toNat) r.bytes = true ∧ 0 < r.bytes) ∧
    (let s : State := mBrgWith fun b => { b with reads := [read0] }
     let l : LaneId := .a
     let tag : Nat := 1
     (s.lane l).rst.held = false ∧ ((s.lane l).brg.reads.find? (fun x => x.tag == tag) = none)) ∧
    (let s : State := mBrgWith fun b => { b with reads := [read0] }
     let l : LaneId := .a
     let tag : Nat := 0
     let r : BrgRead := read0
     let tm : Nat := 12000000
     (s.lane l).rst.held = false ∧ ((s.lane l).brg.reads.find? (fun x => x.tag == tag) = some r) ∧ r.t0 + 2000000 ≤ tm ∧
     (s.lane l).brg.errs = []) ∧
    (let s : State := (mBrgWith fun b => { b with reads := [read0] }).modLane .a fun x => (x.fset BRG_CFG_RTRY 1).fset BRG_CFG_RTMO 10
     let l : LaneId := .a
     let tag : Nat := 0
     let r : BrgRead := read0
     let tm : Nat := 10100000
     (s.lane l).rst.held = false ∧ ((s.lane l).brg.reads.find? (fun x => x.tag == tag) = some r) ∧
     r.t + (s.lane l).fget BRG_CFG_RTMO * 10000 ≤ tm ∧ r.attempts + 1 < (s.lane l).fget BRG_CFG_RTRY + 1 ∧ tm < r.t0 + 2000000) ∧
    (let s : State := (mBrgWith fun b => { b with reads := [read0] }).modLane .a fun x => (x.fset BRG_CFG_RTRY 0).fset BRG_CFG_RTMO 10
     let l : LaneId := .a
     let tag : Nat := 0
     let r : BrgRead := read0
     let tm : Nat := 10100000
     (s.lane l).rst.held = false ∧ ((s.lane l).brg.reads.find? (fun x => x.tag == tag) = some r) ∧
     r.t + (s.lane l).fget BRG_CFG_RTMO * 10000 ≤ tm ∧ ((s.lane l).fget BRG_CFG_RTRY + 1 ≤ r.attempts + 1 ∨ r.t0 + 2000000 ≤ tm)) ∧
    (let s : State := mBrgWith fun b => { b with quar := [(0, 14000000), (1, 15000000)] }
     let l : LaneId := .a
     (s.lane l).rst.held = false ∧ (s.lane l).brg.waiting = []) ∧
    (let s : State := mBrg
     let l : LaneId := .a
     let a : Word := 0x21000040
     let w : Width := .word
     (s.lane l).rst.held = false ∧ inBridge a.toNat = true ∧ a.toNat % Width.bytes w = 0 ∧
     (s.lane l).on (BRG_MAP_EN (brgWin a.toNat)) = true ∧ (s.lane l).on (BRG_MAP_WEN (brgWin a.toNat)) = true ∧
     (s.lane l).poisonedWin (brgWin a.toNat) = false) ∧
    (let s : State := mBrg.modLane .a fun x => x.setRg BRG_STAT 0x01000000
     let l : LaneId := .a
     let a : Word := 0x21000040
     let w : Width := .word
     (s.lane l).rst.held = false ∧ inBridge a.toNat = true ∧ a.toNat % Width.bytes w = 0 ∧
     (s.lane l).on (BRG_MAP_EN (brgWin a.toNat)) = true ∧ (s.lane l).on (BRG_MAP_WEN (brgWin a.toNat)) = true ∧
     (s.lane l).poisonedWin (brgWin a.toNat) = true) ∧
    (let s : State := mBrg
     let l : LaneId := .a
     let a : Word := 0x21800040
     let w : Width := .word
     (s.lane l).rst.held = false ∧ inBridge a.toNat = true ∧ a.toNat % Width.bytes w = 0 ∧
     ((s.lane l).on (BRG_MAP_EN (brgWin a.toNat)) = false ∨ (s.lane l).on (BRG_MAP_WEN (brgWin a.toNat)) = false)) ∧
    (let s : State := mBrgWith fun b => { b with writes := [write0] }
     let l : LaneId := .a
     let p : BrgWrite := write0
     let rest : List BrgWrite := []
     let b : Nat := 0x08000044
     (s.lane l).rst.held = false ∧ s.hub.rst.held = false ∧ (s.lane l).brg.writes = p :: rest ∧ 0 < p.bytes ∧
     sramOk s.hub.badBanks ((s.lane l).hubAddr p.addr.toNat) p.bytes = true ∧ s.hub.on HSRAM_STAT_FROZEN = false ∧
     (b < (s.lane l).hubAddr p.addr.toNat ∨ (s.lane l).hubAddr p.addr.toNat + p.bytes ≤ b)) ∧
    (let s : State := mBrgWith fun b => { b with writes := [write0] }
     let l : LaneId := .a
     let w : Nat := 0
     let p : BrgWrite := write0
     let tm : Nat := 20000000
     let k := 7
     (s.lane l).rst.held = false ∧ w < 8 ∧ p.win = w ∧ ((s.lane l).brg.writes.find? (fun x => x.win == w) = some p) ∧
     p.t + (s.lane l).fget BRG_CFG_WTMO * 10000 ≤ tm ∧ k < 8 ∧ k ≠ w) ∧
    (let s : State := mBrg.modLane .a fun x => x.setRg BRG_STAT 0xFF000000
     let l : LaneId := .a
     let w := 7
     (s.lane l).rst.held = false ∧ w < 8) := by
  and_intros <;> decide +kernel

theorem witness_BridgeQueuesAndTheExportArea :
    (let s : State := m0
     let l : LaneId := .a
     let a : Word := 0x08000000
     let k := .b
     (s.lane l).rst.held = false ∧ (s.lane l).exported a.toNat = false ∧ k ≠ l) ∧
    (let s : State := m0.modLane .a fun x => (x.fset BRG_HBASE_EN 1).fset BRG_HBASE_BASE 0x200
     let l : LaneId := .a
     let a : Word := 0x08000000
     (s.lane l).rst.held = false ∧ (s.lane l).exported a.toNat = true) ∧
    (let s : State := m0
     let l : LaneId := .a
     (s.lane l).rst.held = false) ∧
    (let s : State := mBrgWith fun b => { b with errs := [errOf 0 6 false 4], hubMsgs := [5, 6] }
     let l : LaneId := .a
     (s.lane l).rst.held = false ∧ (s.lane l).brg.errs.length ≤ 1) ∧
    (let s : State := m0
     let l : LaneId := .a
     let v : Word := 0x05000000
     (s.lane l).rst.held = false ∧ bvField v 24 8 ≠ 0 ∧ (s.lane l).brg.hubMsgs.length < 16) ∧
    (let s : State := mBrgWith fun b => { b with hubMsgs := List.replicate 16 5 }
     let l : LaneId := .a
     let v : Word := 0x05000000
     (s.lane l).rst.held = false ∧ bvField v 24 8 ≠ 0 ∧ 16 ≤ (s.lane l).brg.hubMsgs.length) ∧
    (let s : State := mBrgWith fun b => { b with laneMsgs := [(0x05000000, 0)] }
     let l : LaneId := .a
     let v : Word := 0x05000000
     let n : Nat := 0
     let rest : List (Word × Nat) := []
     let k := .b
     (s.lane l).rst.held = false ∧ (s.lane l).brg.laneMsgs = (v, n) :: rest ∧ bvField v 24 8 ≠ 1 ∧ k ≠ l ∧
     (s.lane l).fget BRG_STAT_POISON = 0 ∧ n = 0 ∧ s.hub.up = true) ∧
    (let s : State := (mBrgWith fun b => { b with laneMsgs := [(0x05000000, 0)] }).modLane .a fun x => x.setRg BRG_STAT 0x01000000
     let l : LaneId := .a
     let v : Word := 0x05000000
     let n : Nat := 0
     let rest : List (Word × Nat) := []
     (s.lane l).rst.held = false ∧ (s.lane l).brg.laneMsgs = (v, n) :: rest ∧ bvField v 24 8 ≠ 1 ∧ (s.lane l).fget BRG_STAT_POISON ≠ 0 ∧
     n = 0 ∧ s.hub.up = true ∧ (s.lane l).brg.errs.length < 16) ∧
    (let s : State := mBrgWith fun b => { b with laneMsgs := [(0x05000000, 1)], writes := [write0] }
     let l : LaneId := .a
     let v : Word := 0x05000000
     let n : Nat := 1
     let rest : List (Word × Nat) := []
     (s.lane l).rst.held = false ∧ (s.lane l).brg.laneMsgs = (v, n) :: rest ∧ bvField v 24 8 ≠ 1 ∧ (n ≠ 0 ∨ s.hub.up = false)) ∧
    (let s : State := m3
     let l : LaneId := .a
     let off : Nat := 0x28
     (s.lane l).rst.held = false ∧ brgCfgReg off = true ∧ (s.lane l).armed = true) ∧
    (let s : State := m0
     let l : LaneId := .a
     let v : Word := 0x00140810
     (s.lane l).rst.held = false ∧ (s.lane l).armed = false ∧ brgCfgOk v = true) ∧
    (let s : State := m0.modLane .a fun x => x.setRg BRG_CNT 0x00FF1234
     let l : LaneId := .a
     (s.lane l).rst.held = false) := by
  and_intros <;> decide +kernel

theorem witness_SemaphoresHaveOneHolder :
    (let s : State := m0
     let l : LaneId := .a
     let n : Nat := 31
     (s.lane l).rst.held = false ∧ n < 32) ∧
    (let s : State := m0.modLane .a fun x => x.fset (BRG_SEM_OWNER 31) 2
     let l : LaneId := .a
     let n : Nat := 31
     (s.lane l).rst.held = false ∧ n < 32) ∧
    (let s : State := mBrg
     let l : LaneId := .a
     let a : Word := 0x21000040
     (s.lane l).rst.held = false ∧ inBridge a.toNat = true ∧ a.toNat % 4 = 0 ∧ (s.lane l).on (BRG_MAP_EN (brgWin a.toNat)) = true ∧
     (s.lane l).poisonedWin (brgWin a.toNat) = false ∧ (s.lane l).brg.excl = none ∧ (s.lane l).fget (BRG_SEM_OWNER (exclSem a)) = 0) ∧
    (let s : State := mBrg.modLane .a fun x => x.fset (BRG_SEM_OWNER 1) 2
     let l : LaneId := .a
     let a : Word := 0x21000040
     (s.lane l).rst.held = false ∧ inBridge a.toNat = true ∧ a.toNat % 4 = 0 ∧ (s.lane l).on (BRG_MAP_EN (brgWin a.toNat)) = true ∧
     (s.lane l).poisonedWin (brgWin a.toNat) = false ∧ (s.lane l).brg.excl = none ∧ (s.lane l).fget (BRG_SEM_OWNER (exclSem a)) = 2) ∧
    (let s : State := mBrg
     let l : LaneId := .a
     let a : Word := 0x21000040
     (s.lane l).rst.held = false ∧ inBridge a.toNat = true ∧ a.toNat % 4 = 0 ∧
     ((s.lane l).brg.excl ≠ some (exclSem a) ∨ (s.lane l).fget (BRG_SEM_OWNER (exclSem a)) ≠ 1)) ∧
    (let s : State := (mBrgWith fun b => { b with excl := some 1 }).modLane .a fun x => x.fset (BRG_SEM_OWNER 1) 1
     let l : LaneId := .a
     let a : Word := 0x21000040
     (s.lane l).rst.held = false ∧ inBridge a.toNat = true ∧ a.toNat % 4 = 0 ∧ (s.lane l).on (BRG_MAP_EN (brgWin a.toNat)) = true ∧
     (s.lane l).on (BRG_MAP_WEN (brgWin a.toNat)) = true ∧ (s.lane l).poisonedWin (brgWin a.toNat) = false ∧
     (s.lane l).brg.excl = some (exclSem a) ∧ (s.lane l).fget (BRG_SEM_OWNER (exclSem a)) = 1) := by
  and_intros <;> decide +kernel

theorem witness_ScrubbingAndMailboxesKeepTheOtherWords :
    (let s : State := m3
     let l : LaneId := .b
     let n := 2
     (s.lane l).rst.held = false ∧ 2 ≤ n ∧ (s.lane l).inVote = true ∧ (s.lane l).easy = false) ∧
    (let s : State := m3
     let n : Nat := 2
     s.hub.rst.held = false ∧ 2 ≤ n) ∧
    (let s : State := m0
     let l : LaneId := .b
     let off : Nat := 0x3FFFC
     let k := .a
     let b : Nat := 0x3FFFB
     (s.lane l).rst.held = false ∧ s.hub.rst.held = false ∧ off % 4 = 0 ∧ off < 0x40000 ∧ k ≠ l ∧ (b < off ∨ off + 4 ≤ b)) ∧
    (let s : State := m0
     let l : LaneId := .b
     let off : Nat := 0x3FFFC
     let later : Bool := false
     (s.lane l).rst.held = false ∧ off % 4 = 0 ∧ off < 0x40000 ∧ later = false) ∧
    (let s : State := m0
     let off : Nat := 0x3FFFC
     let n : Nat := 2
     s.hub.rst.held = false ∧ off % 4 = 0 ∧ off < 0x40000 ∧ 2 ≤ n) ∧
    (let s : State := m0
     let off : Nat := 0x3FFFFC
     let w : Width := .word
     s.hub.rst.held = false ∧ inShared off (Width.bytes w) = false) ∧
    (let s : State := m0
     let off : Nat := 0x400000
     let b : Nat := 0x08400004
     s.hub.rst.held = false ∧ s.hub.badBanks = [] ∧ inShared off 4 = true ∧ inReserved off = false ∧
     (b < 0x08000000 + off ∨ 0x08000000 + off + 4 ≤ b)) ∧
    (let s : State := m0
     let tm : Nat := 0
     s.hub.host.busyUntil ≤ tm) := by
  and_intros <;> decide +kernel

theorem witness_TaskCyclesAndRetainedDataFollowTheirRules :
    (let s : State := m3.modLane .a fun x => withProg x { taskNew 1 with active := true, ready := true }
     let l : LaneId := .a
     let n : Nat := 1
     let k : TaskRun := { taskNew 1 with active := true, ready := true }
     let m := 2
     (s.lane l).rst.held = false ∧ (s.lane l).taskOf n = some k ∧ k.active = true ∧ k.ready = true ∧ m ≠ n) ∧
    (let s : State := m3.modLane .a fun x => withProg x { taskNew 1 with active := true, ready := true }
     let l : LaneId := .a
     let n : Nat := 1
     let pc : Word := 0x40
     let k : TaskRun := { taskNew 1 with active := true, ready := true }
     (s.lane l).rst.held = false ∧ (s.lane l).taskOf n = some k ∧ k.active = true ∧ k.ready = true ∧ (n, pc) ∈ (s.lane l).prog.breaks) ∧
    (let s : State := m3.modLane .a fun x => withProg x { taskNew 1 with active := true }
     let l : LaneId := .a
     let n : Nat := 1
     (s.lane l).rst.held = false ∧ (s.lane l).taskRuns n = none) ∧
    (let s : State := m3.modLane .a fun x => withProg x { taskNew 1 with held := 300, prevTn := 50000000, trigT := 50500000 }
     let l : LaneId := .a
     let n : Nat := 1
     let tm : Nat := 52000000
     let d : TaskDesc := task0
     let k : TaskRun := { taskNew 1 with held := 300, prevTn := 50000000, trigT := 50500000 }
     (s.lane l).rst.held = false ∧ (s.lane l).taskDesc n = some d ∧ (s.lane l).taskOf n = some k ∧ d.event = true ∧ k.active = false ∧
     0 < k.held ∧ tm = (s.lane l).releaseDue d k ∧ (s.lane l).prog.mode = .run ∧ (s.lane l).running = true ∧ (s.lane l).easy = false ∧
     k.prevTn ≠ 0) ∧
    (let s : State := m3.modLane .a fun x => withProg x { taskNew 1 with held := 3, trigT := 50000000 }
     let l : LaneId := .a
     let n : Nat := 1
     let tm : Nat := 52000000
     let d : TaskDesc := task0
     let k : TaskRun := { taskNew 1 with held := 3, trigT := 50000000 }
     (s.lane l).rst.held = false ∧ (s.lane l).taskDesc n = some d ∧ (s.lane l).taskOf n = some k ∧ tm ≠ (s.lane l).releaseDue d k) ∧
    (let s : State := m3.modLane .a fun x => withProg x (taskNew 1)
     let l : LaneId := .a
     let n : Nat := 4
     let tm : Nat := 6
     (s.lane l).rst.held = false ∧ ((∀ e ∈ (s.lane l).prog.timers, (e.1 = n → tm < e.2)))) ∧
    (let s : State := m3.modLane .a fun x => withProg x (taskNew 1)
     let l : LaneId := .a
     let n : Nat := 4
     let e : Nat := 7
     let tm : Nat := 60000000
     let g : Program := prog0
     let d : TaskDesc := task0
     let k : TaskRun := taskNew 1
     (s.lane l).rst.held = false ∧ (n, e) ∈ (s.lane l).prog.timers ∧ e ≤ tm ∧ (s.lane l).prog.prog = some g ∧ g.tasks = [d] ∧
     (s.lane l).tasks = [k] ∧ d.tnum = k.tnum) ∧
    (let s : State := m3.modLane .a fun x => withProg x { taskNew 2 with active := true, ready := true, view := [(0, [7, 8])] }
     let l : LaneId := .a
     let n : Nat := 2
     let x : Lane := withProg (m3.lane .a) { taskNew 2 with active := true, ready := true, begun := true, view := [(0, [7, 8])] }
     let k : TaskRun := { taskNew 2 with active := true, ready := true, begun := true, view := [(0, [7, 8])] }
     let addr : Word := 0x08400000
     (s.lane l).rst.held = false ∧ (s.lane l).taskRuns n = some x ∧ x.taskOf n = some k ∧ sramOk (s.lane l).badBanks addr.toNat 4 = true) ∧
    (let s : State := m3.modLane .a fun x => withProg x { taskNew 2 with active := true, ready := true }
     let l : LaneId := .a
     let n : Nat := 2
     let x : Lane := withProg (m3.lane .a) { taskNew 2 with active := true, ready := true, begun := true }
     let k : TaskRun := { taskNew 2 with active := true, ready := true, begun := true }
     let addr : Word := 0x08400000
     let b : Nat := 0x08400001
     let i : Nat := 3
     (s.lane l).rst.held = false ∧ (s.lane l).taskRuns n = some x ∧ x.taskOf n = some k ∧ k.tnum = n ∧
     sramOk (s.lane l).badBanks addr.toNat 4 = true ∧ (b < addr.toNat ∨ addr.toNat + 4 ≤ b ∨ (s.lane l).keeps n b = true) ∧ i < 4 ∧
     (s.lane l).keeps n (addr.toNat + i) = false) ∧
    (let s : State := m0.modLane .a withRetain
     let dst : LaneId := .a
     let src : LaneId := .b
     let z : LaneId := .c
     (s.lane dst).rst.held = false ∧ (s.lane dst).armed = false ∧ (s.lane dst).sitReady = true ∧ dst ≠ src ∧ dst ≠ z ∧ src ≠ z ∧
     (s.lane z).up = true ∧ (s.lane dst).start.cold = false ∧ (s.lane dst).start.retDone = false ∧ (s.lane dst).start.retLists = []) ∧
    (let s : State := (m0.modLane .a withRetain).modLane .c fun x => { x with rst := { x.rst with held := true } }
     let dst : LaneId := .a
     let src : LaneId := .b
     let z : LaneId := .c
     let items : List RetainItem := [{ stroke := 6, crc := 1 }, { stroke := 6, crc := 1 }]
     (s.lane dst).rst.held = false ∧ (s.lane dst).armed = false ∧ (s.lane dst).sitReady = true ∧ dst ≠ src ∧ dst ≠ z ∧ src ≠ z ∧
     (s.lane z).up = false ∧ (s.lane dst).start.cold = false ∧ (s.lane dst).start.retDone = false ∧ (s.lane dst).start.retLists = [] ∧
     ((∀ i ∈ (s.lane dst).retainItems, i ∉ items))) ∧
    (let s : State := (m0.modLane .a withRetain).modLane .c fun x => { x with rst := { x.rst with held := true } }
     let dst : LaneId := .a
     let src : LaneId := .b
     let z : LaneId := .c
     let i : RetainItem := { stroke := 5, crc := BitVec.ofNat 32 (crc32c [1, 2]) }
     (s.lane dst).rst.held = false ∧ (s.lane dst).armed = false ∧ (s.lane dst).sitReady = true ∧ dst ≠ src ∧ dst ≠ z ∧ src ≠ z ∧
     (s.lane z).up = false ∧ (s.lane dst).start.cold = false ∧ (s.lane dst).start.retDone = false ∧ (s.lane dst).start.retLists = [] ∧
     (s.lane dst).retainItem false = some i ∧ (s.lane dst).retainItem true = none) ∧
    (let s : State := m0
     let dst : LaneId := .a
     ((s.lane dst).start.retDone = true ∨ (s.lane dst).armed = true ∨ (s.lane dst).start.cold = true)) := by
  and_intros <;> decide +kernel

theorem witness_OnlineChangesNeedAgreementAndSwitchBetweenTasks :
    (let s : State := m3.modLane .a fun x => changing (x.setVoters [.a, .c]) .carry
     let dst : LaneId := .a
     let src : LaneId := .c
     let d : Word := 0x55
     let r : Nat := 0
     let k := .b
     (s.lane dst).rst.held = false ∧ (s.lane dst).inVote = true ∧ (s.lane dst).up = true ∧ (s.lane dst).easy = false ∧
     (s.lane dst).prog.chg.stage = .carry ∧ dst ≠ src ∧ (s.lane dst).others = [src] ∧ src ∈ (s.lane dst).staying ∧ k ≠ dst ∧
     d = (s.lane dst).prog.chg.digest ∧ r = (s.lane dst).prog.chg.result ∧ r = 0) ∧
    (let s : State := m3.modLane .a fun x => changing (x.setVoters [.a, .c]) .carry
     let dst : LaneId := .a
     let src : LaneId := .c
     let d : Word := 0x56
     let r : Nat := 0
     (s.lane dst).rst.held = false ∧ (s.lane dst).inVote = true ∧ (s.lane dst).up = true ∧ (s.lane dst).easy = false ∧
     (s.lane dst).prog.chg.stage = .carry ∧ dst ≠ src ∧ (s.lane dst).others = [src] ∧ src ∈ (s.lane dst).staying ∧
     (d ≠ (s.lane dst).prog.chg.digest ∨ r ≠ (s.lane dst).prog.chg.result)) ∧
    (let s : State := m3.modLane .a fun x => let y := changing (x.setVoters [.a, .c]) .carry
     { y with prog := { y.prog with chg := { y.prog.chg with result := 2 } } }; let dst : LaneId := .a; let src : LaneId := .c; let d : Word := 0x55; let r : Nat := 2; (s.lane dst).rst.held = false ∧
     (s.lane dst).inVote = true ∧ (s.lane dst).up = true ∧ (s.lane dst).easy = false ∧ (s.lane dst).prog.chg.stage = .carry ∧ dst ≠ src ∧
     (s.lane dst).others = [src] ∧ src ∈ (s.lane dst).staying ∧ d = (s.lane dst).prog.chg.digest ∧ r = (s.lane dst).prog.chg.result ∧
     r ≠ 0) ∧
    (let dst : LaneId := .a
     let y : LaneId := .b
     let s : State := m3.modLane .a fun x => let y := changing x .carry
     { y with prog := { y.prog with chg := { y.prog.chg with peers := [(.c, 0x77, 1)] } } }; let z : LaneId := .c; let d : Word := 0x77; let e : Word := 0x77; let q : Nat := 1; let r : Nat := 1; let k := .b; (s.lane dst).rst.held = false ∧
     (s.lane dst).inVote = true ∧ (s.lane dst).prog.chg.stage = .carry ∧ dst ≠ y ∧ dst ≠ z ∧ y ≠ z ∧ y ∈ (s.lane dst).staying ∧
     (s.lane dst).others = [y, z] ∧ (s.lane dst).prog.chg.peers = [(z, e, q)] ∧
     (d, r) ≠ ((s.lane dst).prog.chg.digest, (s.lane dst).prog.chg.result) ∧ k ≠ dst ∧ (d, r) = (e, q)) ∧
    (let dst : LaneId := .a
     let y : LaneId := .b
     let s : State := m3.modLane .a fun x => let y := changing x .carry
     { y with prog := { y.prog with chg := { y.prog.chg with peers := [(.c, 0x55, 0)] } } }; let z : LaneId := .c; let d : Word := 0x77; let e : Word := 0x55; let q : Nat := 0; let r : Nat := 1; (s.lane dst).rst.held = false ∧
     (s.lane dst).inVote = true ∧ (s.lane dst).prog.chg.stage = .carry ∧ dst ≠ y ∧ dst ≠ z ∧ y ≠ z ∧ y ∈ (s.lane dst).staying ∧
     (s.lane dst).others = [y, z] ∧ (s.lane dst).prog.chg.peers = [(z, e, q)] ∧
     (d, r) ≠ ((s.lane dst).prog.chg.digest, (s.lane dst).prog.chg.result) ∧
     (e, q) = ((s.lane dst).prog.chg.digest, (s.lane dst).prog.chg.result)) ∧
    (let s : State := m3.modLane .a fun x => changing x .prepare
     let l : LaneId := .a
     let g : Program := prog0
     let entry : List Byte := record0 1
     (s.lane l).rst.held = false ∧ (s.lane l).prog.chg.stage = .prepare ∧ (s.lane l).prog.chg.newProg = some g ∧
     recordFor jPrepare g (s.slotBuild (s.pointer.slotFor (laneBit l))) entry = true) ∧
    (let s : State := m3.modLane .a fun x => changing x .prepare
     let dst : LaneId := .a
     (s.lane dst).rst.held = false ∧ (s.lane dst).prog.chg.stage ≠ .none) ∧
    (let s : State := m3.modLane .a fun x => changing x .ready
     let l : LaneId := .a
     let g : Program := prog0
     let from_ : Nat := 50000000
     let tm : Nat := 50400000 + (m3.lane .a).deadline
     let k := .b
     (s.lane l).rst.held = false ∧ (s.lane l).inVote = true ∧ (s.lane l).prog.chg.stage = .ready ∧ (s.lane l).prog.chg.newProg = some g ∧
     (s.lane l).prog.chg.agreedAt = some from_ ∧ from_ + (s.lane l).deadline + 400000 ≤ tm ∧ tm = (s.lane l).prog.lastFin ∧
     ((s.lane l).tasks.all (fun k => !k.active) = true) ∧ k ≠ l ∧
     ((s.lane l).prog.forces.any (fun f => ((s.lane l).forceFate g f).isNone) = false) ∧
     tm + carryTime (s.lane l).prog.chg.carry ≤ (s.lane l).nextCatch tm) ∧
    (let s : State := m3.modLane .a fun x => let y := changing x .ready
     { y with prog := { y.prog with lastFin := 99999999 } }; let l : LaneId := .a; let g : Program := prog0; let from_ : Nat := 50000000; let tm : Nat := 99999999; (s.lane l).rst.held = false ∧
     (s.lane l).inVote = true ∧ (s.lane l).prog.chg.stage = .ready ∧ (s.lane l).prog.chg.newProg = some g ∧
     (s.lane l).prog.chg.agreedAt = some from_ ∧ from_ + (s.lane l).deadline + 400000 ≤ tm ∧ tm = (s.lane l).prog.lastFin ∧
     ((s.lane l).tasks.all (fun k => !k.active) = true) ∧
     ((s.lane l).prog.forces.any (fun f => ((s.lane l).forceFate g f).isNone) = false) ∧
     (s.lane l).nextCatch tm < tm + carryTime (s.lane l).prog.chg.carry) ∧
    (let s : State := m3.modLane .a fun x => let y := changing x .ready
     { y with prog := { y.prog with lastFin := 99999999, forces := [(1, [0, 0])] } }; let l : LaneId := .a; let g : Program := prog0; let from_ : Nat := 50000000; let tm : Nat := 99999999; (s.lane l).rst.held = false ∧
     (s.lane l).inVote = true ∧ (s.lane l).prog.chg.stage = .ready ∧ (s.lane l).prog.chg.newProg = some g ∧
     (s.lane l).prog.chg.agreedAt = some from_ ∧ from_ + (s.lane l).deadline + 400000 ≤ tm ∧ tm = (s.lane l).prog.lastFin ∧
     ((s.lane l).tasks.all (fun k => !k.active) = true) ∧ ((s.lane l).prog.forces.any (fun f => ((s.lane l).forceFate g f).isNone) = true)) ∧
    (let s : State := m3
     let l : LaneId := .a
     let tm : Nat := 60000000
     (s.lane l).rst.held = false ∧
     ((s.lane l).prog.chg.stage ≠ .ready ∨ (s.lane l).prog.chg.agreedAt = none ∨ tm ≠ (s.lane l).prog.lastFin ∨ (s.lane l).tasks.any (fun k => k.active) = true)) ∧
    (let s : State := m3.modLane .a fun x => changing x .switched
     let l : LaneId := .a
     let g : Program := prog0
     let entry : List Byte := record0 2
     (s.lane l).rst.held = false ∧ (s.lane l).prog.chg.stage = .switched ∧ (s.lane l).prog.chg.newProg = some g ∧
     recordFor jCommit g (s.slotBuild (s.pointer.slotFor (laneBit l))) entry = true) ∧
    (let s : State := m3.modLane .a fun x => changing x .ready
     let l := .a
     (s.lane l).rst.held = false ∧ (s.lane l).prog.chg.stage ≠ .none ∧ (s.lane l).prog.chg.stage ≠ .switched ∧
     64 ≤ (s.lane l).prog.chg.catches ∧ ((s.hub.upd.gated.any fun w => w.kind == .prepare) = false)) ∧
    (let s : State := m3.modLane .a fun x => changing x .ready
     let l := .b
     (s.lane l).prog.chg.catches < 64 ∧ (s.lane l).prog.chg.stage = .none) ∧
    (let s : State := { (m3.modLane .a fun x => changing x .ready) with hub := { m3.hub with upd := { m3.hub.upd with gated := [{ kind := .prepare, pages := 1, addr := 0, cmd := none, t0 := 0, bytes := [] }] } } }
     let l := .a
     (s.lane l).rst.held = false ∧ (s.lane l).prog.chg.stage ≠ .none ∧ (s.lane l).prog.chg.stage ≠ .switched ∧
     64 ≤ (s.lane l).prog.chg.catches ∧ ((s.hub.upd.gated.any fun w => w.kind == .prepare) = true)) := by
  and_intros <;> decide +kernel

theorem witness_OnlyValidFieldFramesChangeInputs :
    (let s : State := mFld
     let l : LaneId := .a
     let f : List Byte := fieldFrameA
     let k := 0
     (s.lane l).rst.held = false ∧ f.length = 64 ∧ beAt f 0 1 = 0x5A ∧ beAt f 62 2 = crc16 (f.take 62) ∧ beAt f 1 1 = (s.lane l).id.code ∧
     k < 32 ∧ getField (beAt f 28 4) k 1 = 0 ∧ getField (beAt f 20 8) (2 * k) 2 = 0 ∧ bitOf ((s.lane l).rg (FLDP_INCFG k)) 8 = false ∧
     getField (beAt f 4 4) k 1 = 0 ∧ getField (beAt f 8 4) k 1 = 0) ∧
    (let s : State := mFld
     let l : LaneId := .a
     let f : List Byte := fieldFrameA.set 63 (fieldFrameA.getD 63 0 + 1)
     (s.lane l).rst.held = false ∧ f.length = 64 ∧ beAt f 0 1 = 0x5A ∧ beAt f 62 2 ≠ crc16 (f.take 62)) ∧
    (let s : State := mFld
     let l : LaneId := .b
     let f : List Byte := fieldFrameA
     (s.lane l).rst.held = false ∧ f.length = 64 ∧ beAt f 0 1 = 0x5A ∧ beAt f 62 2 = crc16 (f.take 62) ∧ beAt f 1 1 ≠ (s.lane l).id.code) ∧
    (let s : State := mFldT
     let l : LaneId := .a
     let f : List Byte := (nx (exec (.fieldSample meas0 50000000) mFldT)).field.frameA
     let k := 3
     (s.lane l).rst.held = false ∧ f.length = 64 ∧ beAt f 0 1 = 0x5A ∧ beAt f 62 2 = crc16 (f.take 62) ∧ beAt f 1 1 = (s.lane l).id.code ∧
     k < 32 ∧ getField (beAt f 28 4) k 1 = 0 ∧ getField (beAt f 20 8) (2 * k) 2 ≠ 0) ∧
    (let s : State := mFld
     let l : LaneId := .a
     let f : List Byte := (nx (exec (.fieldSample { meas0 with sink := (List.replicate 32 0).set 1 1600 } 50000000) mFld)).field.frameA
     let k := 1
     (s.lane l).rst.held = false ∧ f.length = 64 ∧ beAt f 0 1 = 0x5A ∧ beAt f 62 2 = crc16 (f.take 62) ∧ beAt f 1 1 = (s.lane l).id.code ∧
     k < 32 ∧ getField (beAt f 28 4) k 1 = 0 ∧ getField (beAt f 20 8) (2 * k) 2 = 0 ∧ bitOf ((s.lane l).rg (FLDP_INCFG k)) 8 = false ∧
     getField (beAt f 4 4) k 1 = 1 ∧ getField (beAt f 8 4) k 1 = 1 ∧ getField (beAt f 12 8) (2 * k) 2 = 2) ∧
    (let s : State := mFld.modLane .a fun x => { x with fld := { x.fld with starts := 194 } }
     let l : LaneId := .a
     let tm : Nat := 60000000
     (s.lane l).rst.held = false ∧
     (tm % 10000000 ≠ 0 ∨ tm < (s.lane l).start.release + 10000000 ∨ (194 ≤ (s.lane l).fld.starts ∧ (s.lane l).fld.starts ≤ 206))) ∧
    (let s : State := mFld.modLane .a fun x => { x with fld := { x.fld with starts := 193 } }
     let l : LaneId := .a
     let tm : Nat := 60000000
     (s.lane l).rst.held = false ∧ tm % 10000000 = 0 ∧ (s.lane l).start.release + 10000000 ≤ tm ∧
     ((s.lane l).fld.starts < 194 ∨ 206 < (s.lane l).fld.starts)) ∧
    (let s : State := mFld
     let l : LaneId := .a
     let tm : Nat := 60000000
     (s.lane l).rst.held = false ∧ (s.lane l).armed = true ∧ ((s.lane l).fld.cfgOut = [] ∨ (s.lane l).fld.lastCfg + 10000000 ≤ tm)) ∧
    (let s : State := m0
     let l : LaneId := .a
     (s.lane l).rst.held = false ∧ (s.lane l).armed = false) ∧
    (let s : State := mFld
     let l : LaneId := .a
     let v : Word := 0x105
     let k := .b
     (s.lane l).rst.held = false ∧ k ≠ l ∧ bitOf v 8 = true ∧ s.fieldUp = true) ∧
    (let s : State := mFld
     let l : LaneId := .a
     let v : Word := 5
     (s.lane l).rst.held = false ∧ bitOf v 8 = false) := by
  and_intros <;> decide +kernel

theorem witness_TheDieActsOnWhatTwoPortsAskAndSwitchesOff :
    (let s : State := mSent (mFld.field.cfg.set 0 7)
     let p : LaneId := .a
     let ws : List Word := mFld.field.cfg.set 0 7
     s.fieldUp = true ∧ ws.length = 51 ∧ (s.lane p).fld.cfgOut = ws ∧ ((∃ e ∈ s.field.cfgSeen, ((e.1 ≠ p) ∧ (e.2 = ws)))) ∧
     s.field.cfgDefault = true ∧ pairsOk ws = true) ∧
    (let s : State := mSent (mFld.field.cfg.set 0 7)
     let p : LaneId := .b
     let ws : List Word := mFld.field.cfg.set 0 7
     s.fieldUp = true ∧ ws.length = 51 ∧ (s.lane p).fld.cfgOut = ws ∧
     ((∀ e ∈ s.field.cfgSeen, e.1 ≠ p → e.2 ≠ ws) ∨ s.field.cfgDefault = false)) ∧
    (let s : State := mSent (mFld.field.cfg.set 35 0x20B92)
     let p : LaneId := .a
     let ws : List Word := mFld.field.cfg.set 35 0x20B92
     let l := .a
     s.fieldUp = true ∧ ws.length = 51 ∧ (s.lane p).fld.cfgOut = ws ∧ ((∃ e ∈ s.field.cfgSeen, ((e.1 ≠ p) ∧ (e.2 = ws)))) ∧
     s.field.cfgDefault = true ∧ pairsOk ws = false ∧ (s.lane l).rst.held = false) ∧
    (let s : State := mSent (mFld.field.cfg.set 0 7)
     let p : LaneId := .a
     let ws : List Word := mFld.field.cfg.set 0 8
     ((s.lane p).fld.cfgOut ≠ ws ∨ s.fieldUp = false)) ∧
    (let s : State := { mFld with field := { mFld.field with imgSeen := [(.b, 3, [1])] } }
     let p : LaneId := .a
     let i : Nat := 3
     let bs : List Byte := [1]
     s.fieldUp = true ∧ ((∃ e ∈ s.field.imgSeen, ((e.1 ≠ p) ∧ (e.2 = (i, bs)))))) ∧
    (let s : State := { mFld with field := { mFld.field with imgSeen := [(.b, 3, [1])] } }
     let p : LaneId := .a
     let i : Nat := 3
     let bs : List Byte := [2]
     s.fieldUp = true ∧ ((∀ e ∈ s.field.imgSeen, (e.1 ≠ p → e.2 ≠ (i, bs))))) ∧
    (let x : LaneId := .a
     let y : LaneId := .b
     let ch : Nat := 4
     let s : State := { mFld with field := { mFld.field with calReqs := [{ port := .a, ch := 4, t := 59000000, v := 1 }, { port := .b, ch := 4, t := 60000000, v := 1 }] } }
     let tx : Nat := 59000000
     let ty : Nat := 60000000
     let vx : Nat := 1
     let vy : Nat := 1
     let tm : Nat := 60000000
     x ≠ y ∧ s.fieldUp = true ∧ ch < 32 ∧ tx ≤ tm ∧ tm ≤ tx + 1000000 ∧ ty ≤ tm ∧ tm ≤ ty + 1000000 ∧
     s.field.calReqs = [{ port := x, ch := ch, t := tx, v := vx }, { port := y, ch := ch, t := ty, v := vy }] ∧
     s.calRefused ch [vx, vy] tm = false) ∧
    (let x : LaneId := .a
     let y : LaneId := .b
     let ch : Nat := 4
     let s : State := { mFld with field := { mFld.field with calReqs := [{ port := .a, ch := 4, t := 59000000, v := 2 }, { port := .b, ch := 4, t := 60000000, v := 1 }] } }
     let tx : Nat := 59000000
     let ty : Nat := 60000000
     let vx : Nat := 2
     let vy : Nat := 1
     let tm : Nat := 60000000
     let l := .a
     x ≠ y ∧ s.fieldUp = true ∧ ch < 32 ∧ tx ≤ tm ∧ tm ≤ tx + 1000000 ∧ ty ≤ tm ∧ tm ≤ ty + 1000000 ∧
     s.field.calReqs = [{ port := x, ch := ch, t := tx, v := vx }, { port := y, ch := ch, t := ty, v := vy }] ∧
     s.calRefused ch [vx, vy] tm = true ∧ (s.lane l).rst.held = false) ∧
    (let s : State := { mFld with field := { mFld.field with cal := some (4, 60000000) } }
     let ch : Nat := 4
     let from_ : Nat := 60000000
     let tm : Nat := 65000000
     let l := .a
     let k := 5
     s.fieldUp = true ∧ s.field.cal = some (ch, from_) ∧ ch < 32 ∧ from_ + 5000000 ≤ tm ∧ (s.lane l).rst.held = false ∧ k < 32 ∧ k ≠ ch) ∧
    (let s : State := mFld
     let tm : Nat := 60000000
     s.fieldUp = true ∧ s.field.lastCmd + 30000000 ≤ tm) ∧
    (let s : State := mFld
     let tm : Nat := 6
     s.fieldUp = true ∧ tm < s.field.lastCmd + 30000000) ∧
    (let s : State := m0
     s.field.alive = false) ∧
    (let s : State := m0
     s.field.powered = false) := by
  and_intros <;> decide +kernel

theorem witness_SamplesTestsAndOutputFaultsStayInTheDie :
    (let s : State := mFld
     s.fieldUp = true) ∧
    (let s : State := { mFld with field := { mFld.field with bandHold := [(31, 0, 60000000), (30, 0, 0)] } }
     let k : Nat := 31
     let tm : Nat := 60000000
     let j := 1
     s.fieldUp = true ∧ k < 32 ∧ ((∀ e ∈ s.field.bandHold, (e.1 = k → ((e.2.2 ≠ 0) ∧ (e.2.2 ≤ tm))))) ∧ j < 32) ∧
    (let s : State := mFldCfg 2 0x00FF1401
     let k : Nat := 7
     let tm : Nat := 77500000
     let j := 0
     s.fieldUp = true ∧ k < 8 ∧ s.field.alive = true ∧ getField (s.field.tpCfg 16 8) k 1 = 1 ∧ s.field.periodT ≤ tm ∧
     (tm - s.field.periodT) % (s.field.tpCfg 8 8 * 1000000) = k * (s.field.tpCfg 8 8 * 1000000) / 8 ∧ j < 8 ∧ j ≠ k) ∧
    (let s : State := mFldCfg 2 0x00FF1401
     let k : Nat := 7
     let tm : Nat := 77400000
     (s.field.alive = false ∨ getField (s.field.tpCfg 16 8) k 1 = 0 ∨ tm < s.field.periodT ∨ (tm - s.field.periodT) % (s.field.tpCfg 8 8 * 1000000) ≠ k * (s.field.tpCfg 8 8 * 1000000) / 8)) ∧
    (let s : State := mFldT
     let k : Nat := 3
     let o : PulseObs := { sourceFault := false, offWhole := false, foreignGap := true, gapMissing := true }
     let j := 4
     s.fieldUp = true ∧ k < 32 ∧ s.field.inCfg k 15 1 = 1 ∧ pulseCode o ≠ 0 ∧ j < 32 ∧ j ≠ k) ∧
    (let s : State := mFldT
     let k : Nat := 3
     let o : PulseObs := { sourceFault := false, offWhole := false, foreignGap := false, gapMissing := false }
     s.fieldUp = true ∧ k < 32 ∧ s.field.inCfg k 15 1 = 1 ∧ pulseCode o = 0 ∧ (k, 1) ∈ s.field.clean ∧
     ((∀ e ∈ s.field.clean, (e.1 = k → e.2 = 1)))) ∧
    (let s : State := { (mFldCfg 2 0x00FF1401) with field := { (mFldCfg 2 0x00FF1401).field with gapT := [(7, 77500000)], gap := 0x80, bandHold := [(2, 1, 0), (9, 0, 0)] } }
     let k : Nat := 7
     let t0 : Nat := 77500000
     let j := 0
     s.fieldUp = true ∧ k < 8 ∧ (k, t0) ∈ s.field.gapT ∧ j < 8 ∧ j ≠ k) ∧
    (let s : State := mDriven 35 0x20AD0
     let k : Nat := 0
     let tm : Nat := 100000000
     let low : Bool := false
     s.fieldUp = true ∧ s.field.alive = true ∧ k < 16 ∧ s.driven k = true ∧ s.field.qCfg k 7 1 = 1 ∧ s.field.isLow k = false ∧
     s.field.ovOff.getLsbD k = false ∧ s.field.periodT ≤ tm ∧
     (tm - s.field.periodT) % (s.field.qCfg k 8 8 * 10000000) = k * (s.field.qCfg k 8 8 * 10000000) / 16 ∧
     low = (s.field.qCfg k 1 1 == 1 && (tm - s.field.periodT) / (s.field.qCfg k 8 8 * 10000000) % 2 == 1) ∧ low = false) ∧
    (let s : State := mDriven 35 0x20AD2
     let k : Nat := 0
     let tm : Nat := 100000000
     let low : Bool := true
     s.fieldUp = true ∧ s.field.alive = true ∧ k < 16 ∧ s.driven k = true ∧ s.field.qCfg k 7 1 = 1 ∧ s.field.isLow k = false ∧
     s.field.ovOff.getLsbD k = false ∧ s.field.periodT ≤ tm ∧
     (tm - s.field.periodT) % (s.field.qCfg k 8 8 * 10000000) = k * (s.field.qCfg k 8 8 * 10000000) / 16 ∧
     low = (s.field.qCfg k 1 1 == 1 && (tm - s.field.periodT) / (s.field.qCfg k 8 8 * 10000000) % 2 == 1) ∧ low = true) ∧
    (let s : State := { (mDriven 35 0x20AD0) with field := { (mDriven 35 0x20AD0).field with offTest := [(0, false, 60000000)] } }
     let k : Nat := 0
     let from_ : Nat := 60000000
     let j := 5
     s.fieldUp = true ∧ s.field.alive = true ∧ k < 16 ∧ s.driven k = true ∧ s.field.offTest = [(k, false, from_)] ∧ j < 16) ∧
    (let s : State := mDriven 35 0x20AD0
     let k : Nat := 0
     let j := 5
     s.fieldUp = true ∧ s.field.alive = true ∧ k < 16 ∧ s.driven k = true ∧ s.field.qCfg k 6 1 = 1 ∧ s.field.ovOff.getLsbD k = false ∧
     j < 16) ∧
    (let s : State := { mFld with field := { mFld.field with ovSince := [(15, 59000000)], ovOff := 0x8000 } }
     let k : Nat := 15
     let j := 5
     let tm : Nat := 60000000
     s.fieldUp = true ∧ k < 16 ∧ s.driven k = false ∧ ((∀ e ∈ s.field.crossBy, e.1 ≠ k)) ∧ j < 16 ∧
     ((∃ e ∈ s.field.ovSince, ((e.1 = k) ∧ (e.2 + 1000000 ≤ tm))))) ∧
    (let s : State := { mFld with field := { mFld.field with ovSince := [(15, 59000000)], ovOff := 0x8000 } }
     let k : Nat := 15
     let tm : Nat := 59999999
     s.fieldUp = true ∧ k < 16 ∧ s.driven k = false ∧ ((∀ e ∈ s.field.ovSince, (e.1 = k → tm < e.2 + 1000000)))) := by
  and_intros <;> decide +kernel

theorem witness_EnableOutputsNeedTheirConditions :
    (let s : State := mDisc { blkReset (blk0 .guard) with discRun := true, disc := 400, lastT := some 59900 }
     let l : LaneId := .a
     let b : Nat := 0
     let tn : Nat := 60000000
     let c : BlkCfg := blk0 .guard
     let r : BlkRun := { blkReset (blk0 .guard) with discRun := true, disc := 400, lastT := some 59900 }
     let k : TaskRun := discRun0
     (s.lane l).rst.held = false ∧ (s.lane l).prog.blocks[b]? = some (c, r) ∧ (c.kind = .estop ∨ c.kind = .guard ∨ c.kind = .ossd) ∧
     r.st ≠ .fault ∧ (s.lane l).blkCatch c tn = some k ∧ (r.timer c ((s.lane l).blkIn c [] k)).timeout c ((s.lane l).blkIn c [] k) = true) ∧
    (let s : State := mDisc { blkReset (blk0 .guard) with st := .fault }
     let l : LaneId := .a
     let b : Nat := 0
     let tn : Nat := 60000000
     let c : BlkCfg := blk0 .guard
     let r : BlkRun := { blkReset (blk0 .guard) with st := .fault }
     (s.lane l).rst.held = false ∧ (s.lane l).prog.blocks[b]? = some (c, r) ∧ ((s.lane l).blkCatch c tn = none ∨ r.st = .fault)) ∧
    (let r : BlkRun := { blkReset (blk0 .estop) with st := .run, lastT := some 1990000 }
     let c : BlkCfg := blk0 .estop
     let i : BlkIn := blkIn0
     (c.kind = .estop ∨ c.kind = .guard ∨ c.kind = .ossd) ∧ (r.catchStep c i).enable c = true) ∧
    (let r : BlkRun := { blkReset (blk0 .resetEdge) with prev := 1, offT := some 1900000 }
     let c : BlkCfg := blk0 .resetEdge
     let i : BlkIn := blkIn0
     c.kind = .resetEdge ∧ (r.catchStep c i).enable c = true) ∧
    (let r : BlkRun := { blkReset (blk0 .sls) with hist := [(1990000, 0), (1980000, 0), (1970000, 0)], latch := false, ok := true }
     let c : BlkCfg := blk0 .sls
     let i : BlkIn := { blkIn0 with active := true, enc := 1 }
     c.kind = .sls ∧ i.active = true ∧ (r.catchStep c i).enable c = true) ∧
    (let r : BlkRun := { blkReset (blk0 .slp) with hist := [(1990000, 0), (1980000, 0), (1970000, 0)], latch := false, ok := true }
     let c : BlkCfg := blk0 .slp
     let i : BlkIn := { blkIn0 with active := true, enc := 0x21 }
     c.kind = .slp ∧ i.active = true ∧ (r.catchStep c i).enable c = true) := by
  and_intros <;> decide +kernel

theorem witness_RingMastersKeepTheCycleAndYieldToHigherClaims :
    (let s : State := { mRing 0 with hub := (mRing 0).hub.fset (RING_CTRL_EN 0) 0 }
     let k : Nat := 0
     let v : Word := 0x13
     k < 6 ∧ s.hub.rst.held = false ∧ s.hub.on (RING_CTRL_EN k) = false ∧ v.getLsbD 0 = true ∧ s.hub.ratingValid (bvField v 4 3) = true ∧
     (bvField v 1 2 = 1 ∨ bvField v 1 2 = 2)) ∧
    (let s : State := { mRing 0 with hub := (mRing 0).hub.fset (RING_CTRL_EN 0) 0 }
     let k : Nat := 0
     let v : Word := 0x73
     k < 6 ∧ s.hub.rst.held = false ∧ s.hub.on (RING_CTRL_EN k) = false ∧ s.hub.ratingValid (bvField v 4 3) = false) ∧
    (let s : State := mRing 2
     let k : Nat := 0
     k < 6 ∧ s.hub.rst.held = false ∧ s.hub.on (RING_CTRL_EN k) = true) ∧
    (let s : State := mRingWith 1 fun r => { r with listenT := 48000000 }
     let k : Nat := 0
     let tm : Nat := 51000000
     k < 6 ∧ k < s.hub.rings.length ∧ s.hub.rst.held = false ∧ s.hub.ringRuns k = true ∧ s.hub.rstate k = 1 ∧
     (s.hub.ring k).listenT + 3 * s.hub.ratingCycle (s.hub.fget (RING_CTRL_RSTART k)) ≤ tm) ∧
    (let s : State := mRing 2
     let k : Nat := 0
     let tm : Nat := 51000000
     let j := 1
     k < 6 ∧ k < s.hub.rings.length ∧ s.hub.rst.held = false ∧ s.hub.ringRuns k = true ∧ s.hub.rstate k = 2 ∧ (s.hub.ring k).ann = none ∧
     (s.hub.ring k).next ≤ tm ∧ s.hub.mayMaster = true ∧ j ≠ k) ∧
    (let s : State := mRing 2
     let k : Nat := 0
     let frame : List Byte := [1, 2]
     k < 6 ∧ s.hub.rst.held = false ∧ s.hub.ringRuns k = true ∧ s.hub.rstate k = 2 ∧ parseCycle frame = none) ∧
    (let s : State := mRing 2
     let k : Nat := 0
     let east : Bool := true
     let frame : List Byte := { cycle0 with master := 0x99, delay := 12 }.bytes
     let f : CycleMsg := { cycle0 with master := 0x99, delay := 12 }
     k < 6 ∧ k < s.hub.rings.length ∧ s.hub.rst.held = false ∧ s.hub.ringRuns k = true ∧ s.hub.rstate k = 2 ∧ parseCycle frame = some f ∧
     f.ring = k ∧ f.master = s.hub.set.serial ∧ east = true ∧ (s.hub.ring k).wrapW = false) ∧
    (let s : State := mRing 2
     let k : Nat := 0
     let east : Bool := false
     let frame : List Byte := { cycle0 with master := 0x99, delay := 12 }.bytes
     let f : CycleMsg := { cycle0 with master := 0x99, delay := 12 }
     k < 6 ∧ k < s.hub.rings.length ∧ s.hub.rst.held = false ∧ s.hub.ringRuns k = true ∧ s.hub.rstate k = 2 ∧ parseCycle frame = some f ∧
     f.ring = k ∧ f.master = s.hub.set.serial ∧ (s.hub.ring k).reads east = true ∧ east = false) ∧
    (let s : State := { mRing 2 with hub := (mRing 2).hub.setRg (RING_CLAIM 0) 1 }
     let k : Nat := 0
     let frame : List Byte := { cycle0 with claim := 0 }.bytes
     let f : CycleMsg := { cycle0 with claim := 0 }
     k < 6 ∧ k < s.hub.rings.length ∧ s.hub.rst.held = false ∧ s.hub.ringRuns k = true ∧ s.hub.rstate k = 2 ∧ parseCycle frame = some f ∧
     f.ring = k ∧ f.master ≠ s.hub.set.serial ∧ f.claim.toNat < (s.hub.rg (RING_CLAIM k)).toNat) ∧
    (let s : State := { mRing 2 with hub := (mRing 2).hub.setRg (RING_CLAIM 0) 4 }
     let k : Nat := 0
     let frame : List Byte := cycle0.bytes
     let f : CycleMsg := cycle0
     k < 6 ∧ k < s.hub.rings.length ∧ s.hub.rst.held = false ∧ s.hub.ringRuns k = true ∧ s.hub.rstate k = 2 ∧ parseCycle frame = some f ∧
     f.ring = k ∧ f.master ≠ s.hub.set.serial ∧ (s.hub.rg (RING_CLAIM k)).toNat < f.claim.toNat) ∧
    (let s : State := { mRing 2 with hub := (mRing 2).hub.setRg (RING_CLAIM 0) 5 }
     let k : Nat := 0
     let frame : List Byte := cycle0.bytes
     let f : CycleMsg := cycle0
     k < 6 ∧ k < s.hub.rings.length ∧ s.hub.rst.held = false ∧ s.hub.ringRuns k = true ∧ s.hub.rstate k = 2 ∧ parseCycle frame = some f ∧
     f.ring = k ∧ f.master ≠ s.hub.set.serial ∧ f.claim = s.hub.rg (RING_CLAIM k)) ∧
    (let s : State := mRing 2
     let k : Nat := 0
     let slot : Nat := 0
     let tm : Nat := 51000000
     k < 6 ∧ k < s.hub.rings.length ∧ s.hub.rst.held = false ∧ s.hub.ringRuns k = true ∧ s.hub.rstate k = 2 ∧ (s.hub.ring k).tstart ≠ 0 ∧
     slot < s.hub.ratingNslot (s.hub.rating k) ∧ (s.hub.ratingSlot (s.hub.rating k) slot).up = false ∧
     (s.hub.ring k).tstart + (s.hub.ratingSlot (s.hub.rating k) slot).ns ≤ tm ∧ ((∀ e ∈ (s.hub.ring k).sent, e.1 ≠ slot)) ∧
     (s.hub.ring k).wrapE = false) ∧
    (let s : State := mRing 2
     let k : Nat := 0
     let east : Bool := false
     let frame : List Byte := [3, 0]
     k < 6 ∧ s.hub.rst.held = false ∧ s.hub.ringRuns k = true ∧ s.hub.rstate k = 2 ∧ (s.hub.ring k).reads east = true ∧
     parseSlot frame = none) ∧
    (let s : State := mRing 2
     let k : Nat := 0
     let east : Bool := false
     let pos : Nat := 1000
     let frame : List Byte := slot0.bytes
     let m : SlotMsg := slot0
     k < 6 ∧ s.hub.rst.held = false ∧ s.hub.ringRuns k = true ∧ s.hub.rstate k = 2 ∧ (s.hub.ring k).reads east = true ∧
     parseSlot frame = some m ∧ m.ring = k ∧ m.up = true ∧ 1 ≤ m.node ∧ m.node ≤ 64 ∧ m.slot < s.hub.ratingNslot (s.hub.rating k) ∧
     (s.hub.ratingSlot (s.hub.rating k) m.slot).holds m pos frame.length = true) ∧
    (let s : State := mRing 2
     let k : Nat := 0
     k < s.hub.rings.length ∧ s.hub.rst.held = false) ∧
    (let s : State := { mRingWith 2 (fun r => { r with lastSeen := [(7, 4)] }) with hub := (mRing 2).hub.fset (nodeBit (RING_PRESLO 0) (RING_PRESHI 0) 7) 1 }
     let k : Nat := 0
     let n : Nat := 7
     let c : Nat := 4
     let j := 8
     k < 6 ∧ s.hub.rst.held = false ∧ s.hub.rstate k = 2 ∧ 1 ≤ n ∧ n ≤ 64 ∧ s.hub.present k n = true ∧ (n, c) ∈ (s.hub.ring k).lastSeen ∧
     4 ≤ c ∧ 1 ≤ j ∧ j ≤ 64 ∧ j ≠ n) := by
  and_intros <;> decide +kernel

theorem witness_RatingsAndWrapsChangeByAnnouncement :
    (let s : State := { mRing 2 with hub := (mRing 2).hub.fset RING_GSTAT_BUSY 1 }
     let r := 0
     s.hub.rst.held = false ∧ s.hub.on RING_GSTAT_BUSY = true ∧ r < 8) ∧
    (let s : State := mRing 2
     let k : Nat := 0
     let rating : Nat := 1
     k < 6 ∧ k < s.hub.rings.length ∧ s.hub.rst.held = false ∧ s.hub.rstate k = 2 ∧ s.hub.ratingValid rating = true ∧
     rating ≠ s.hub.rating k ∧ (s.hub.ring k).ann = none) ∧
    (let s : State := mRing 2
     let k : Nat := 0
     let rating : Nat := 0
     k < 6 ∧ k < s.hub.rings.length ∧ s.hub.rst.held = false ∧ s.hub.rstate k = 2 ∧
     (s.hub.ratingValid rating = false ∨ rating = s.hub.rating k)) ∧
    (let k : Nat := 0
     let rating : Nat := 1
     let s : State := mRingWith 2 fun r => { r with ann := some { rating := 1, target := 1, unwrap := false } }
     k < 6 ∧ k < s.hub.rings.length ∧ s.hub.rst.held = false ∧ s.hub.rstate k = 2 ∧ s.hub.ratingValid rating = true ∧
     rating ≠ s.hub.rating k ∧ (s.hub.ring k).ann.isSome = true) ∧
    (let s : State := mRingWith 2 fun r => { r with ann := some { rating := 1, target := 1, unwrap := false } }
     let k : Nat := 0
     let a : RingAnn := { rating := 1, target := 1, unwrap := false }
     k < 6 ∧ k < s.hub.rings.length ∧ s.hub.rst.held = false ∧ (s.hub.ring k).ann = some a ∧ (s.hub.ring k).unwrapWait = false) ∧
    (let s : State := mRing 2
     let k : Nat := 0
     k < 6 ∧ s.hub.rst.held = false ∧ s.hub.on (RING_STAT_UNMANNED k) = false) ∧
    (let s : State := { mRing 4 with hub := (mRing 4).hub.fset (RING_STAT_UNMANNED 0) 1 }
     let k : Nat := 0
     k < 6 ∧ s.hub.rst.held = false ∧ s.hub.on (RING_STAT_UNMANNED k) = true) ∧
    (let s : State := { mRing 2 with hub := (mRing 2).hub.setRg (RING_ERR 0) 0x12345678 }
     let k : Nat := 0
     k < 6 ∧ s.hub.rst.held = false) ∧
    (let s : State := mRing 2
     let k : Nat := 0
     let east : Bool := true
     k < 6 ∧ s.hub.rst.held = false ∧ s.hub.on (losOf k east) = false ∧ (s.hub.ring k).ann = none) ∧
    (let s : State := mRing 2
     let k : Nat := 0
     let east : Bool := true
     k < 6 ∧ s.hub.rst.held = false ∧ s.hub.on (losOf k east) = false ∧ (s.hub.ring k).ann = none) ∧
    (let s : State := { mRing 2 with hub := ((mRing 2).hub.fset (RING_STAT_LOSW 0) 1).fset (RING_STAT_WRAP 0) 1 }
     let k : Nat := 0
     k < 6 ∧ s.hub.rst.held = false) ∧
    (let s : State := { mRing 2 with hub := (mRing 2).hub.fset (RING_STAT_LOSE 0) 1 }
     let k : Nat := 0
     k < 6 ∧ k < s.hub.rings.length ∧ s.hub.rst.held = false ∧ s.hub.on (RING_STAT_LOSE k) = true ∧ (s.hub.ring k).wrapE = false) ∧
    (let s : State := { mRing 2 with hub := ((mRing 2).hub.fset (RING_STAT_WRAP 0) 1).modRing 0 fun r => { r with restored := 1000 } }
     let k : Nat := 0
     k < 6 ∧ k < s.hub.rings.length ∧ s.hub.rst.held = false ∧ s.hub.rstate k = 2 ∧ s.hub.on (RING_STAT_WRAP k) = true ∧
     s.hub.on (RING_CTRL_HOLDWRAP k) = false ∧ 1000 ≤ (s.hub.ring k).restored ∧ (s.hub.ring k).ann = none) := by
  and_intros <;> decide +kernel

theorem witness_RatingsAndWrapsChangeByAnnouncement_7 :
    (let s : State := mRingWith 2 fun r => { r with ann := some { rating := 1, target := 1, unwrap := false } }
     let k : Nat := 0
     let a : RingAnn := { rating := 1, target := 1, unwrap := false }
     k < 6 ∧ k < s.hub.rings.length ∧ s.hub.rst.held = false ∧ s.hub.rstate k = 2 ∧ (s.hub.ring k).ann = some a ∧
     (s.hub.ring k).unwrapWait = false ∧ (s.hub.ring k).next ≤ s.now ∧ a.unwrap = false ∧ a.rating < 8 ∧
     (s.hub.rg (RING_CYCLE k) + 1).toNat = a.target ∧ ((∀ n, (1 ≤ n → (n ≤ 64 → (s.hub.present k n = true → s.hub.acked k n = true)))))) := by
  and_intros <;> first
    | exact fun n h1 h2 => (by decide +kernel : ∀ n ∈ List.range 65, (mRing 2).hub.present 0 n = true → (mRing 2).hub.acked 0 n = true) n
          (List.mem_range.2 (Nat.lt_succ_of_le h2))
    | decide +kernel

theorem witness_RatingsAndWrapsChangeByAnnouncement_8 :
    (let s : State := { (mRingWith 2 fun r => { r with ann := some { rating := 1, target := 1, unwrap := false } }) with hub := (mRingWith 2 fun r => { r with ann := some { rating := 1, target := 1, unwrap := false } }).hub.fset (nodeBit (RING_PRESLO 0) (RING_PRESHI 0) 7) 1 }
     let k : Nat := 0
     let a : RingAnn := { rating := 1, target := 1, unwrap := false }
     k < 6 ∧ k < s.hub.rings.length ∧ s.hub.rst.held = false ∧ s.hub.rstate k = 2 ∧ (s.hub.ring k).ann = some a ∧
     (s.hub.ring k).unwrapWait = false ∧ (s.hub.ring k).next ≤ s.now ∧ a.unwrap = false ∧ a.rating < 8 ∧
     (s.hub.rg (RING_CYCLE k) + 1).toNat = a.target ∧
     ((∃ n, ((1 ≤ n) ∧ (n ≤ 64) ∧ (s.hub.present k n = true) ∧ (s.hub.acked k n = false))))) := by
  and_intros <;> first
    | exact ⟨7, by decide +kernel⟩
    | decide +kernel

theorem witness_AcceptedTelegramsPassEveryCheck :
    (let l : Lane := { (upL .a) with conns := [(0, conn0)], descs := [(0, { desc0 with cflags := 5 })] }
     let k : Nat := 0
     let g : Tlg := tlg2
     let now : Nat := 50000000
     l.checkSteps k g now = .ok ∧ g.comm = true) ∧
    (let l : Lane := laneAuth
     let k : Nat := 0
     let g : Tlg := tlgA
     let now : Nat := 50000000
     l.checkSteps k g now = .ok ∧ g.auth = true ∧ (l.desc k).auth = true ∧ g.type = 1 ∧ newBaseline (l.desc k) (l.conn k) g = false) := by
  and_intros <;> decide +kernel

theorem witness_ConnectionsCloseByTimersAndTheHubOnlyCarries :
    (let s : State := m3.modLane .a fun x => { x with tasks := [kDec], conns := [(0, { conn0 with corr := 3 })], descs := [(0, { desc0 with cthr := 3, tmo := 40 })] }
     let l : LaneId := .a
     let k : Nat := 0
     let tn : Nat := 50000000
     let r : TaskRun := kDec
     let j := 1
     (s.lane l).rst.held = false ∧ (s.lane l).catchOf k tn true = some r ∧ ((s.lane l).conn k).isOpen = true ∧
     ((s.lane l).conn k).rxT + ((s.lane l).desc k).tmo * 1000000 < tn ∧ j ≠ k ∧ 1 ≤ ((s.lane l).desc k).cthr ∧
     ((s.lane l).desc k).cthr ≤ ((s.lane l).conn k).corr ∧ ((s.lane l).conn k).st ≠ .closed ∧ secondBetween r.prevTn tn = false) ∧
    (let l : LaneId := .a
     let k : Nat := 0
     let tn : Nat := 1000000000
     let s : State := m3.modLane .a fun x => { x with tasks := [{ kDec with tn := 1000000000, prevTn := 950000000 }], conns := [(0, { conn0 with corr := 2 })], descs := [(0, { desc0 with cthr := 3, tmo := 40 })] }
     let r : TaskRun := { kDec with tn := 1000000000, prevTn := 950000000 }
     let j := 1
     (s.lane l).rst.held = false ∧ (s.lane l).catchOf k tn true = some r ∧ secondBetween r.prevTn tn = true ∧
     ((s.lane l).conn k).decayT ≠ tn ∧ ((s.lane l).conn k).corr < ((s.lane l).desc k).cthr ∧ j ≠ k) ∧
    (let l : LaneId := .a
     let k : Nat := 0
     let tn : Nat := 2000000000
     let s : State := m3.modLane .a fun x => { x with tasks := [{ kDec with tn := 2000000000 }], conns := [(0, { conn0 with st := .responded, respT := 5 })], descs := [(0, desc0)] }
     let r : TaskRun := { kDec with tn := 2000000000 }
     let j := 1
     (s.lane l).rst.held = false ∧ (s.lane l).catchOf k tn true = some r ∧ ((s.lane l).conn k).st = .responded ∧
     ((s.lane l).conn k).respT ≠ 0 ∧ ((s.lane l).conn k).respT + ((s.lane l).desc k).tmo * 1000000 < tn ∧ j ≠ k) ∧
    (let l : LaneId := .a
     let k : Nat := 0
     let tn : Nat := 100000000
     let s : State := m3.modLane .a fun x => { x with tasks := [{ k0 with tn := 100000000 }], descs := [(0, desc0)] }
     let j := 1
     (s.lane l).rst.held = false ∧ ((s.lane l).catchOf k tn false).isSome = true ∧ (s.lane l).easy = false ∧ (s.lane l).running = true ∧
     ((s.lane l).conn k).st = .closed ∧ ((s.lane l).desc k).connid ≠ 0 ∧
     ((s.lane l).conn k).closedT + ((s.lane l).desc k).holdoff * 1000000 ≤ tn ∧ j ≠ k) ∧
    (let s : State := m3
     let l : LaneId := .a
     let bs : List Byte := tlg0
     let g : Tlg := tlg1
     (s.lane l).rst.held = false ∧ parseTlg bs = some g) ∧
    (let s : State := { m3 with hub := { m3.hub with mbxA := { m3.hub.mbxA with outTlg := [{ conn := 0, bytes := tlg0, t := 60000000 }] }, mbxB := { m3.hub.mbxB with outTlg := [{ conn := 0, bytes := tlg0, t := 60000000 }] } } }
     let tm : Nat := 60050000
     let c : Nat := 0
     let x : Nat := 60000000
     let g : Tlg := (assembleGroup (largestGroup ({ m3.hub with mbxA := { m3.hub.mbxA with outTlg := [{ conn := 0, bytes := tlg0, t := 60000000 }] }, mbxB := { m3.hub.mbxB with outTlg := [{ conn := 0, bytes := tlg0, t := 60000000 }] } }.copies 0 60000000))).getD tlg1
     s.hub.rst.held = false ∧ s.hub.carries = true ∧ s.hub.dueCopies tm = [(c, x)] ∧
     assembleGroup (largestGroup (s.hub.copies c x)) = some g) ∧
    (let s : State := { m3 with hub := { m3.hub with descs := [(5, { desc0 with carrier := 3 })], set := { m3.hub.set with estEtype := 0x88B5 } } }
     let p : Nat := 0
     let k : Nat := 5
     let bs : List Byte := zeros 12 ++ beBytes 2 0x88B5 ++ beBytes 2 tlg0.length ++ tlg0
     let g : List Byte := tlg0
     let l := .a
     s.hub.rst.held = false ∧ s.hub.carries = true ∧ s.hub.blockOff (0x30 + p) = false ∧ s.hub.isStandby = false ∧
     ethernetTlg s.hub.set.estEtype bs = some g ∧ s.hub.connOf 3 (tlgConnid g) = some k ∧
     ((((s.lane l).sitReady = false) ∧ ((s.lane l).easy = false)))) ∧
    (let s : State := { m3 with la := upL .a, hub := { m3.hub with descs := [(5, { desc0 with carrier := 3 })], set := { m3.hub.set with estEtype := 0x88B5 } } }
     let p : Nat := 0
     let k : Nat := 5
     let bs : List Byte := zeros 12 ++ beBytes 2 0x88B5 ++ beBytes 2 tlg0.length ++ tlg0
     let g : List Byte := tlg0
     let l := .a
     s.hub.rst.held = false ∧ s.hub.carries = true ∧ s.hub.blockOff (0x30 + p) = false ∧ s.hub.isStandby = false ∧
     ethernetTlg s.hub.set.estEtype bs = some g ∧ s.hub.connOf 3 (tlgConnid g) = some k ∧
     ((s.lane l).sitReady = true ∨ (s.lane l).easy = true)) := by
  and_intros <;> decide +kernel

theorem witness_OneModuleOfAPairActsAndStandbysFollow :
    (let s : State := mPair 1
     let tm : Nat := 100000000
     let l := .a
     s.hub.partners = true ∧ s.hub.role = 1 ∧ s.hub.ptnr.startT + 2 * s.hub.set.period * 1000000 ≤ tm ∧ s.hub.ptnr.peerRole = 0 ∧
     s.hub.upd.claim.toNat + 1 < 2 ^ 32 ∧ s.hub.on NVW_STAT_PF = false ∧ (s.lane l).rst.held = false) ∧
    (let s : State := (mPair 1).modLane .a fun x => { x with rst := rstReset }
     let tm : Nat := 100000000
     let l := .a
     s.hub.partners = true ∧ s.hub.role = 1 ∧ s.hub.ptnr.startT + 2 * s.hub.set.period * 1000000 ≤ tm ∧ s.hub.ptnr.peerRole = 0 ∧
     s.hub.upd.claim.toNat + 1 < 2 ^ 32 ∧ (s.lane l).rst.held = true) ∧
    (let s : State := mPair 2
     let tm : Nat := 60000000
     s.hub.partners = true ∧ s.hub.xtRuns = true ∧ tm % 1000000 = 0 ∧ s.hub.role = 2) ∧
    (let s : State := mPair 1
     let tm : Nat := 60000000
     s.hub.partners = true ∧ s.hub.xtRuns = true ∧ tm % 1000000 = 0 ∧ s.hub.role = 1) ∧
    (let s : State := mPair 1
     let link : Nat := 0
     let frame : List Byte := partnerFrame 0x21 7 heart0.bytes
     let c : List Byte := heart0.bytes
     let q : Word := 7
     let m : HeartbeatMsg := heart0
     link < 2 ∧ s.hub.partners = true ∧ partnerContent 0x21 frame = some (q, c) ∧ heartbeatOf c = some m ∧ (0x21, q) ∉ s.hub.ptnr.seen ∧
     m.role ≠ 1) ∧
    (let s : State := mPair 1
     let link : Nat := 0
     let frame : List Byte := partnerFrame 0x21 7 { heart0 with role := 1 }.bytes
     let c : List Byte := { heart0 with role := 1 }.bytes
     let q : Word := 7
     let m : HeartbeatMsg := { heart0 with role := 1 }
     let l := .a
     link < 2 ∧ s.hub.partners = true ∧ partnerContent 0x21 frame = some (q, c) ∧ heartbeatOf c = some m ∧ (0x21, q) ∉ s.hub.ptnr.seen ∧
     m.role = 1 ∧ s.hub.role = 1 ∧ s.anyEasy = false ∧ (s.lane l).rst.held = false) ∧
    (let s : State := mPair 3
     let tm : Nat := 4000000
     s.hub.partners = true ∧ 3 ≤ s.hub.ptnr.missed tm ∧ s.hub.role = 3 ∧ s.hub.on PTNR_STAT_READY = true ∧ s.hub.ptnr.decided = none) ∧
    (let s : State := mPair 3
     let link : Nat := 1
     let frame : List Byte := partnerFrame 0x22 1 (yieldBytes 1 9 5)
     let c : List Byte := yieldBytes 1 9 5
     let q : Word := 1
     link < 2 ∧ s.hub.partners = true ∧ partnerContent 0x22 frame = some (q, c) ∧ c.length = 9 ∧ (0x22, q) ∉ s.hub.ptnr.seen ∧
     s.hub.role = 3 ∧ s.hub.on PTNR_STAT_READY = true ∧ s.hub.ptnr.decided = none) ∧
    (let s : State := mPairWith 3 fun p => { p with decided := some 49000000, peerClaim := 9 }
     let from_ : Nat := 49000000
     let tm : Nat := 50000000
     let l := .a
     s.hub.partners = true ∧ s.hub.ptnr.decided = some from_ ∧ s.hub.role = 3 ∧ s.hub.on PTNR_STAT_READY = true ∧ from_ + 1000000 ≤ tm ∧
     tm % (s.hub.set.period * 1000000) = 0 ∧ s.hub.ptnr.peerClaim ≠ 0xFFFFFFFF ∧ (s.lane l).rst.held = false) ∧
    (let s : State := mPair 2
     s.hub.up = true ∧ s.hub.partners = true ∧ s.hub.role = 2 ∧ s.hub.xtRuns = true) ∧
    (let s : State := mPair 3
     s.hub.up = true ∧ s.hub.role ≠ 2) ∧
    (let s : State := { m3 with hub := m3.hub.setRg PTNR_CNT 0x55 }
     s.hub.rst.held = false) ∧
    (let s : State := mPair 3
     let link : Nat := 0
     let frame : List Byte := partnerFrame 0x23 1 (fwdListBytes 5 60000000 [entry0])
     let c : List Byte := fwdListBytes 5 60000000 [entry0]
     let q : Word := 1
     let stroke : Word := 5
     let tn : Nat := 60000000
     let es : List ConsEntry := [entry0]
     link < 2 ∧ s.hub.partners = true ∧ partnerContent 0x23 frame = some (q, c) ∧ fwdListOf c = some (stroke, tn, es) ∧
     (0x23, q) ∉ s.hub.ptnr.seen ∧ s.hub.role = 3) ∧
    (let s : State := mPair 3
     let link : Nat := 0
     let frame : List Byte := partnerFrame 0x24 1 (fwdTlgBytes 5 2 tlg0)
     let c : List Byte := fwdTlgBytes 5 2 tlg0
     let q : Word := 1
     link < 2 ∧ s.hub.partners = true ∧ partnerContent 0x24 frame = some (q, c) ∧ 6 ≤ c.length ∧ (0x24, q) ∉ s.hub.ptnr.seen ∧
     s.hub.role = 3) ∧
    (let s : State := { mPair 3 with hub := { (mPair 3).hub with descs := [(5, { desc0 with carrier := 2, cls := 4 })] } }
     let link : Nat := 0
     let frame : List Byte := partnerFrame 0x25 1 tlg0
     let bs : List Byte := tlg0
     let q : Word := 1
     let k : Nat := 5
     let l := .a
     link < 2 ∧ s.hub.partners = true ∧ partnerContent 0x25 frame = some (q, bs) ∧ (0x25, q) ∉ s.hub.ptnr.seen ∧ s.hub.carries = true ∧
     s.hub.connOf 2 (tlgConnid bs) = some k ∧ (s.hub.desc k).cls = 4 ∧ ((((s.lane l).sitReady = false) ∧ ((s.lane l).easy = false)))) ∧
    (let frame : List Byte := [1, 2, 3]
     lcrcOk frame = false) ∧
    (let s : State := mPairWith 2 fun p => { p with fwdDest := some 1, fwdBuild := 77 }
     let k : Nat := 1
     s.hub.up = true ∧ s.linkOpen 0 = true ∧ s.hub.xtRuns = true ∧ s.hub.ptnr.fwdDest = some k) := by
  and_intros <;> decide +kernel

theorem witness_OneModuleOfAPairActsAndStandbysFollow_15 :
    (let s : State := { mPair 3 with la := upL .a, hub := { (mPair 3).hub with descs := [(5, { desc0 with carrier := 2, cls := 4 })] } }
     let link : Nat := 0
     let frame : List Byte := partnerFrame 0x25 1 tlg0
     let bs : List Byte := tlg0
     let q : Word := 1
     let k : Nat := 5
     let l := .a
     link < 2 ∧ s.hub.partners = true ∧ partnerContent 0x25 frame = some (q, bs) ∧ (0x25, q) ∉ s.hub.ptnr.seen ∧ s.hub.carries = true ∧
     s.hub.connOf 2 (tlgConnid bs) = some k ∧ (s.hub.desc k).cls = 4 ∧ ((s.lane l).sitReady = true ∨ (s.lane l).easy = true)) := by
  and_intros <;> first
    | with_reducible exact partnerContent_partnerFrame _ _ _ (by decide)
    | decide +kernel

theorem witness_OneModuleOfAPairActsAndStandbysFollow_16 :
    (let s : State := { mPair 4 with hub := (mPair 4).hub.fset PTNR_STAT_READY 0 }
     let link : Nat := 0
     let frame : List Byte := partnerFrame 0x26 1 page0Bad
     let c : List Byte := page0Bad
     let q : Word := 1
     link < 2 ∧ s.hub.partners = true ∧ partnerContent 0x26 frame = some (q, c) ∧ (0x26, q) ∉ s.hub.ptnr.seen ∧ s.hub.role = 4 ∧
     s.hub.on PTNR_STAT_READY = false ∧ beAt c 0 2 < 1152 ∧ c.length = 4102 ∧ beAt c 4098 4 ≠ crc32c ((c.drop 2).take 4096) ∧
     beAt c 0 2 ∉ s.hub.ptnr.retry) := by
  and_intros <;> first
    | with_reducible exact partnerContent_partnerFrame _ _ _ (by decide)
    | with_reducible exact page0Bad_parts.1
    | with_reducible exact page0Bad_bad
    | decide +kernel

theorem witness_OneModuleOfAPairActsAndStandbysFollow_17 :
    (let s : State := { (mPairWith 4 fun p => { p with retry := [130], peerVals := some (m3.lane .a).pairValues, peerVer := (mPair 4).ownPtnrver }) with hub := (mPairWith 4 fun p => { p with retry := [130], peerVals := some (m3.lane .a).pairValues, peerVer := (mPair 4).ownPtnrver }).hub.fset PTNR_STAT_READY 0 }
     let link : Nat := 0
     let frame : List Byte := partnerFrame 0x26 1 page0Bad
     let c : List Byte := page0Bad
     let q : Word := 1
     link < 2 ∧ s.hub.partners = true ∧ partnerContent 0x26 frame = some (q, c) ∧ (0x26, q) ∉ s.hub.ptnr.seen ∧ s.hub.role = 4 ∧
     s.hub.on PTNR_STAT_READY = false ∧ beAt c 0 2 < 1152 ∧ c.length = 4102 ∧ beAt c 4098 4 ≠ crc32c ((c.drop 2).take 4096) ∧
     beAt c 0 2 ∈ s.hub.ptnr.retry ∧ s.resyncOk = true) := by
  and_intros <;> first
    | with_reducible exact partnerContent_partnerFrame _ _ _ (by decide)
    | with_reducible exact page0Bad_parts.1
    | with_reducible exact page0Bad_bad
    | decide +kernel

theorem witness_OneModuleOfAPairActsAndStandbysFollow_18 :
    (let s : State := { (mPairWith 4 fun p => { p with got := (upTo 1152).filter (· ≠ 130) }) with hub := (mPairWith 4 fun p => { p with got := (upTo 1152).filter (· ≠ 130) }).hub.fset PTNR_STAT_READY 0 }
     let link : Nat := 0
     let frame : List Byte := partnerFrame 0x26 1 page0
     let c : List Byte := page0
     let q : Word := 1
     link < 2 ∧ s.hub.partners = true ∧ partnerContent 0x26 frame = some (q, c) ∧ (0x26, q) ∉ s.hub.ptnr.seen ∧ s.hub.role = 4 ∧
     s.hub.on PTNR_STAT_READY = false ∧ beAt c 0 2 < 1152 ∧ c.length = 4102 ∧ beAt c 4098 4 = crc32c ((c.drop 2).take 4096) ∧
     beAt c 0 2 ∉ s.hub.ptnr.got ∧ s.hub.ptnr.got.length = 1151) := by
  and_intros <;> first
    | with_reducible exact partnerContent_partnerFrame _ _ _ (by decide)
    | with_reducible exact page0_parts.1
    | with_reducible exact page0_good
    | decide +kernel

theorem witness_OneModuleOfAPairActsAndStandbysFollow_20 :
    (let s : State := mPairWith 2 fun p => { p with fwdDest := some 1, fwdBuild := 77 }
     let link : Nat := 0
     let frame : List Byte := partnerFrame 0x27 1 (imgContent 77 0 3 (List.replicate 65536 4))
     let c : List Byte := imgContent 77 0 3 (List.replicate 65536 4)
     let q : Word := 1
     let k : Nat := 1
     s.hub.up = true ∧ s.linkOpen link = true ∧ partnerContent 0x27 frame = some (q, c) ∧ (0x27, q) ∉ s.hub.ptnr.seen ∧
     s.hub.ptnr.fwdDest = some k ∧ s.hub.ptnr.fwdBuild = BitVec.ofNat 64 (beAt c 0 8) ∧ s.hub.ptnr.fwdAckStatus ≠ 2 ∧ beAt c 9 2 < 512 ∧
     (c.drop 11).length = 65536) := by
  and_intros <;> first
    | with_reducible exact partnerContent_partnerFrame _ _ _ (by decide)
    | with_reducible exact (img_block _ _ _ _).trans List.length_replicate
    | decide +kernel

theorem witness_OneModuleOfAPairActsAndStandbysFollow_21 :
    (let s : State := mPairWith 2 fun p => { p with fwdOut := some 0 }
     let link : Nat := 0
     let frame : List Byte := partnerFrame 0x28 1 (ackContent 0xFFFFFFFFFFFFFFFF 1 (zeros 64))
     let c : List Byte := ackContent 0xFFFFFFFFFFFFFFFF 1 (zeros 64)
     let q : Word := 1
     s.hub.up = true ∧ s.linkOpen link = true ∧ partnerContent 0x28 frame = some (q, c) ∧ (0x28, q) ∉ s.hub.ptnr.seen ∧ c.length = 73 ∧
     beAt c 8 1 = 1 ∧ s.hub.ptnr.fwdOut = some link ∧ s.slotBuild s.hub.ptnr.fwdSrc = beAt c 0 8) := by
  and_intros <;> first
    | with_reducible exact partnerContent_partnerFrame _ _ _ (by decide)
    | decide +kernel

theorem witness_HostCommandsQueueStartAndComplete :
    (let s : State := withHdr m3 0 1 (hdr0 0x0101 0 1 0)
     let q : Nat := 0
     let slot : Nat := 1
     s.hub.ready = true ∧ q < 4 ∧ slot < 256 ∧ s.hub.cmdAt q slot = none ∧
     ((s.hub.headerAt q slot).opcode = 0x0A01#16 ∨ s.hub.inFlight q < 256)) ∧
    (let q : Nat := 0
     let slot : Nat := 1
     let s : State := withHdr (withCmds m3 ((List.range 256).map fun i => { cmdW 0x0101 with slot := i + 2 })) 0 1 (hdr0 0x0101 0 1 0)
     s.hub.ready = true ∧ q < 4 ∧ slot < 256 ∧ s.hub.cmdAt q slot = none ∧ (s.hub.headerAt q slot).opcode ≠ 0x0A01#16 ∧
     256 ≤ s.hub.inFlight q) ∧
    (let s : State := withHdr (mCmd 0x0101) 0 1 (hdr0 0x0101 0 1 0)
     let q : Nat := 0
     let slot : Nat := 1
     let c := cmdA 0x0101
     s.hub.ready = true ∧ q < 4 ∧ slot < 256 ∧ s.hub.cmdAt q slot = some c ∧ (s.hub.headerAt q slot).flags.getLsbD 1 = false ∧
     c.released = false) ∧
    (let s : State := withHdr (mCmd 0x0101) 0 1 { hdr0 0x0101 0 1 2 with tag := tagOf 0 1 2 }
     let q : Nat := 0
     let slot : Nat := 1
     let c := cmdA 0x0101
     s.hub.ready = true ∧ q < 4 ∧ slot < 256 ∧ s.hub.cmdAt q slot = some c ∧ (s.hub.headerAt q slot).flags.getLsbD 1 = true ∧
     c.posted = none ∧ c.retried = false ∧ bvField (s.hub.headerAt q slot).tag 0 6 = (c.gen + 1) % 64) ∧
    (let q : Nat := 0
     let s : State := withCmds m3 [{ cmdA 0x0101 with posted := some 0, status := some 0 }, { cmdA 0x0102 with q := 1, posted := some 0 }]
     let v : Word := 5
     let head := s.hub.fget (HCMD_CQHD_HEAD q)
     let dist (x : Nat) : Nat := (x + 512 - head) % 512
     let w := s.hub.host.cqW.getD q 0
     let n := v.toNat % 512
     q < 4 ∧ s.hub.rst.held = false ∧ dist w < dist n) ∧
    (let q : Nat := 0
     let s : State := withCmds m3 [{ cmdA 0x0101 with posted := some 0, status := some 0 }, { cmdA 0x0102 with q := 1, posted := some 0 }]
     let v : Word := 0
     let c := { cmdA 0x0101 with posted := some 0, status := some 0 }
     let i := 0
     let head := s.hub.fget (HCMD_CQHD_HEAD q)
     let dist (x : Nat) : Nat := (x + 512 - head) % 512
     let w := s.hub.host.cqW.getD q 0
     let n := v.toNat % 512
     q < 4 ∧ s.hub.rst.held = false ∧ dist n ≤ dist w ∧ c ∈ s.hub.host.cmds ∧ c.q = q ∧ c.posted = some i) ∧
    (let q : Nat := 0
     let s : State := { (withCmds m3 [{ cmdA 0x0101 with posted := some 0, status := some 0 }, { cmdA 0x0102 with q := 1, posted := some 0 }]) with hub := { (withCmds m3 [{ cmdA 0x0101 with posted := some 0, status := some 0 }, { cmdA 0x0102 with q := 1, posted := some 0 }]).hub with host := { (withCmds m3 [{ cmdA 0x0101 with posted := some 0, status := some 0 }, { cmdA 0x0102 with q := 1, posted := some 0 }]).hub.host with cqW := [1, 0, 0, 0] } } }
     let v : Word := 1
     let c := { cmdA 0x0102 with q := 1, posted := some 0 }
     let head := s.hub.fget (HCMD_CQHD_HEAD q)
     let dist (x : Nat) : Nat := (x + 512 - head) % 512
     let w := s.hub.host.cqW.getD q 0
     let n := v.toNat % 512
     q < 4 ∧ s.hub.rst.held = false ∧ dist n ≤ dist w ∧ c ∈ s.hub.host.cmds ∧ c.q ≠ q) ∧
    (let s : State := withCmds m3 ((List.range 64).map fun i => { cmdA 0x0101 with slot := i })
     (s.hub.ready = false ∨ 64 ≤ s.hub.actives)) ∧
    (let s : State := withCmds m3 [{ cmdA 0x0202 with status := some 8 }]
     let r : CmdRef := ref0
     let c : HostCmd := { cmdA 0x0202 with status := some 8 }
     let w := s.hub.host.cqW.getD c.q 0
     s.hub.ready = true ∧ s.hub.openCmd r.q r.slot = none ∧
     (s.hub.host.cmds.find? (fun x => x.q == r.q && x.slot == r.slot && x.status.isSome && x.posted.isNone) = some c) ∧ c.ghost = false ∧
     c.q < 4 ∧ (w + 1) % 512 ≠ s.hub.fget (HCMD_CQHD_HEAD c.q) ∧ c.noIrq = false ∧ failsStream (c.status.getD 0).toNat = true ∧
     c.dedup = false ∧ 1 ≤ c.target ∧ c.target ≤ 11) ∧
    (let s : State := { (withCmds m3 [{ cmdA 0x0202 with status := some 8 }]) with hub := (withCmds m3 [{ cmdA 0x0202 with status := some 8 }]).hub.fset (HCMD_CQHD_HEAD 0) 1 }
     let r : CmdRef := ref0
     let c : HostCmd := { cmdA 0x0202 with status := some 8 }
     let w := s.hub.host.cqW.getD c.q 0
     s.hub.ready = true ∧ s.hub.openCmd r.q r.slot = none ∧
     (s.hub.host.cmds.find? (fun x => x.q == r.q && x.slot == r.slot && x.status.isSome && x.posted.isNone) = some c) ∧ c.ghost = false ∧
     c.q < 4 ∧ (w + 1) % 512 = s.hub.fget (HCMD_CQHD_HEAD c.q)) ∧
    (let s : State := mCmd 0x0101
     let r : CmdRef := ref0
     let c : HostCmd := cmdA 0x0101
     let tm : Nat := 50000001
     s.hub.openCmd r.q r.slot = some c ∧ tm < c.tDisp + s.hub.budgetOf c) ∧
    (let s : State := mCmd 0x0101
     let r : CmdRef := ref0
     let c : HostCmd := cmdA 0x0101
     let tm : Nat := 80000000
     s.hub.openCmd r.q r.slot = some c ∧ c.tDisp + s.hub.budgetOf c ≤ tm) := by
  and_intros <;> decide +kernel

theorem witness_HostCommandsQueueStartAndComplete_8 :
    (let s : State := withCmds m3 [cmdW 0x0101]
     let i : Nat := 0
     let c : HostCmd := cmdW 0x0101
     s.hub.ready = true ∧ s.hub.actives < 64 ∧ i < 4 ∧ ((∀ j, (j < i → s.hub.oldest ((s.hub.host.lastQ + 1 + j) % 4) = none))) ∧
     s.hub.oldest ((s.hub.host.lastQ + 1 + i) % 4) = some c ∧ (s.hub.poisoned c.q c.target = false ∨ c.op = 0x0103) ∧
     c.headerBad = false ∧ c.rangeBad = false ∧ c.op ∈ opcodes) := by
  and_intros <;> first
    | (intro k; cases k <;> decide +kernel)
    | decide +kernel

theorem witness_HostCommandsQueueStartAndComplete_9 :
    (let s : State := { (withCmds m3 [cmdW 0x0101]) with hub := (withCmds m3 [cmdW 0x0101]).hub.poison 0 1 true }
     let i : Nat := 0
     let c : HostCmd := cmdW 0x0101
     s.hub.ready = true ∧ s.hub.actives < 64 ∧ i < 4 ∧ ((∀ j, (j < i → s.hub.oldest ((s.hub.host.lastQ + 1 + j) % 4) = none))) ∧
     s.hub.oldest ((s.hub.host.lastQ + 1 + i) % 4) = some c ∧ s.hub.poisoned c.q c.target = true ∧ c.op ≠ 0x0103) := by
  and_intros <;> first
    | (intro k; cases k <;> decide +kernel)
    | decide +kernel

theorem witness_HostCommandsQueueStartAndComplete_10 :
    (let s : State := withCmds m3 [{ cmdW 0x0101 with hdr := { hdr0 0x0101 0 1 0 with plen := 225 } }]
     let i : Nat := 0
     let c : HostCmd := { cmdW 0x0101 with hdr := { hdr0 0x0101 0 1 0 with plen := 225 } }
     s.hub.ready = true ∧ s.hub.actives < 64 ∧ i < 4 ∧ ((∀ j, (j < i → s.hub.oldest ((s.hub.host.lastQ + 1 + j) % 4) = none))) ∧
     s.hub.oldest ((s.hub.host.lastQ + 1 + i) % 4) = some c ∧ (s.hub.poisoned c.q c.target = false ∨ c.op = 0x0103) ∧ c.headerBad = true) := by
  and_intros <;> first
    | (intro k; cases k <;> decide +kernel)
    | decide +kernel

theorem witness_HostCommandsQueueStartAndComplete_11 :
    (let s : State := withCmds m3 [{ cmdW 0x0101 with hdr := { hdr0 0x0101 0 1 0 with dinlen := 4, dinoff := 2 } }]
     let i : Nat := 0
     let c : HostCmd := { cmdW 0x0101 with hdr := { hdr0 0x0101 0 1 0 with dinlen := 4, dinoff := 2 } }
     s.hub.ready = true ∧ s.hub.actives < 64 ∧ i < 4 ∧ ((∀ j, (j < i → s.hub.oldest ((s.hub.host.lastQ + 1 + j) % 4) = none))) ∧
     s.hub.oldest ((s.hub.host.lastQ + 1 + i) % 4) = some c ∧ (s.hub.poisoned c.q c.target = false ∨ c.op = 0x0103) ∧
     c.headerBad = false ∧ c.rangeBad = true) := by
  and_intros <;> first
    | (intro k; cases k <;> decide +kernel)
    | decide +kernel

theorem witness_HostCommandsQueueStartAndComplete_12 :
    (let s : State := withCmds m3 [cmdW 0x0199]
     let i : Nat := 0
     let c : HostCmd := cmdW 0x0199
     s.hub.ready = true ∧ s.hub.actives < 64 ∧ i < 4 ∧ ((∀ j, (j < i → s.hub.oldest ((s.hub.host.lastQ + 1 + j) % 4) = none))) ∧
     s.hub.oldest ((s.hub.host.lastQ + 1 + i) % 4) = some c ∧ (s.hub.poisoned c.q c.target = false ∨ c.op = 0x0103) ∧
     c.headerBad = false ∧ c.rangeBad = false ∧ c.op ∉ opcodes) := by
  and_intros <;> first
    | (intro k; cases k <;> decide +kernel)
    | decide +kernel

theorem witness_QueriesAnswerAndChangeNothing :
    (let s : State := mCmd 0x0101
     let r : CmdRef := ref0
     let c : HostCmd := cmdA 0x0101
     s.activeCmd r 0x0101 = some c) ∧
    (let s : State := mCmd 0x0102
     let r : CmdRef := ref0
     let c : HostCmd := cmdA 0x0102
     s.activeCmd r 0x0102 = some c) ∧
    (let s : State := mCmd 0x0202
     let r : CmdRef := ref0
     let c : HostCmd := cmdA 0x0202
     let l := .a
     s.activeCmd r 0x0202 = some c ∧ (s.lane l).rst.held = false) ∧
    (let s : State := (mCmd 0x0202).modLane .a fun x => { x with rst := rstReset }
     let r : CmdRef := ref0
     let c : HostCmd := cmdA 0x0202
     let l := .a
     s.activeCmd r 0x0202 = some c ∧ (s.lane l).rst.held = true) ∧
    (let s : State := mCmd 0x0305
     let r : CmdRef := ref0
     let c : HostCmd := cmdA 0x0305
     s.activeCmd r 0x0305 = some c) ∧
    (let s : State := mCmd 0x0404
     let r : CmdRef := ref0
     let c : HostCmd := cmdA 0x0404
     let conn := 5
     s.activeCmd r 0x0404 = some c ∧ (s.hub.desc conn).connid = 0) ∧
    (let s : State := { mCmd 0x0404 with hub := { (mCmd 0x0404).hub with descs := [(5, desc0)] } }
     let r : CmdRef := ref0
     let c : HostCmd := cmdA 0x0404
     let conn := 5
     s.activeCmd r 0x0404 = some c ∧ (s.hub.desc conn).connid ≠ 0) ∧
    (let s : State := mCmd 0x050A
     let r : CmdRef := ref0
     let c : HostCmd := cmdA 0x050A
     s.activeCmd r 0x050A = some c) ∧
    (let s : State := mCmd 0x0601
     let r : CmdRef := ref0
     let c : HostCmd := cmdA 0x0601
     let n : Nat := 0
     s.activeCmd r 0x0601 = some c ∧ (n = 0 ∨ 32768 < n)) ∧
    (let s : State := mCmd 0x0601
     let r : CmdRef := ref0
     let c : HostCmd := cmdA 0x0601
     let n : Nat := 2
     s.activeCmd r 0x0601 = some c ∧ 1 ≤ n ∧ n ≤ 32768) ∧
    (let s : State := mCmd 0x0602
     let r : CmdRef := ref0
     let c : HostCmd := cmdA 0x0602
     s.activeCmd r 0x0602 = some c) ∧
    (let s : State := mCmd 0x0706
     let r : CmdRef := ref0
     let c : HostCmd := cmdA 0x0706
     let k := 2
     s.activeCmd r 0x0706 = some c ∧ 2 ≤ k) ∧
    (let s : State := mCmd 0x0706
     let r : CmdRef := ref0
     let c : HostCmd := cmdA 0x0706
     let k := 1
     s.activeCmd r 0x0706 = some c ∧ k < 2) ∧
    (let s : State := mCmd 0x0301
     let r : CmdRef := ref0
     let c : HostCmd := cmdA 0x0301
     let sect := 0
     let off := 0
     s.activeCmd r 0x0301 = some c ∧ s.hub.upd.setLen ≤ sect + off) ∧
    (let s : State := { mCmd 0x0301 with hub := { (mCmd 0x0301).hub with upd := { (mCmd 0x0301).hub.upd with setLen := 4 } } }
     let r : CmdRef := ref0
     let c : HostCmd := cmdA 0x0301
     let sect := 0
     let off := 0
     s.activeCmd r 0x0301 = some c ∧ sect + off < s.hub.upd.setLen) ∧
    (let s : State := mCmd 0x0804
     let r : CmdRef := ref0
     let c : HostCmd := cmdA 0x0804
     let k := 6
     s.activeCmd r 0x0804 = some c ∧ 6 ≤ k) ∧
    (let s : State := mCmd 0x0804
     let r : CmdRef := ref0
     let c : HostCmd := cmdA 0x0804
     let k := 5
     s.activeCmd r 0x0804 = some c ∧ k < 6) ∧
    (let s : State := mCmd 0x0806
     let r : CmdRef := ref0
     let c : HostCmd := cmdA 0x0806
     s.activeCmd r 0x0806 = some c) ∧
    (let s : State := mCmd 0x0902
     let r : CmdRef := ref0
     let c : HostCmd := cmdA 0x0902
     s.activeCmd r 0x0902 = some c) ∧
    (let s : State := mCmd 0x0B01
     let r : CmdRef := ref0
     let c : HostCmd := cmdA 0x0B01
     s.activeCmd r 0x0B01 = some c) := by
  and_intros <;> decide +kernel

theorem witness_LaneCommandsReachAllThreeMailboxes :
    (let s : State := mCmd 0x0304
     let r : CmdRef := ref0
     let c : HostCmd := cmdA 0x0304
     s.activeCmd r 0x0304 = some c ∧ c.seq = none) ∧
    (let s : State := mCmd 0x0306
     let r : CmdRef := ref0
     let c : HostCmd := cmdA 0x0306
     s.activeCmd r 0x0306 = some c ∧ c.seq = none) ∧
    (let s : State := mCmd 0x0403
     let r : CmdRef := ref0
     let c : HostCmd := cmdA 0x0403
     s.activeCmd r 0x0403 = some c ∧ c.seq = none) ∧
    (let s : State := mCmd 0x0501
     let r : CmdRef := ref0
     let c : HostCmd := cmdA 0x0501
     s.activeCmd r 0x0501 = some c ∧ c.seq = none) ∧
    (let s : State := mCmd 0x0502
     let r : CmdRef := ref0
     let c : HostCmd := cmdA 0x0502
     s.activeCmd r 0x0502 = some c ∧ c.seq = none) ∧
    (let s : State := mCmd 0x0503
     let r : CmdRef := ref0
     let c : HostCmd := cmdA 0x0503
     s.activeCmd r 0x0503 = some c ∧ c.seq = none) ∧
    (let s : State := mCmd 0x0505
     let r : CmdRef := ref0
     let c : HostCmd := cmdA 0x0505
     s.activeCmd r 0x0505 = some c ∧ c.seq = none ∧ s.anyEasy = false ∧ s.modSitReady = false) ∧
    (let s : State := mSit 0x0505
     let r : CmdRef := ref0
     let c : HostCmd := cmdA 0x0505
     s.activeCmd r 0x0505 = some c ∧ c.seq = none ∧ (s.anyEasy = true ∨ s.modSitReady = true)) ∧
    (let s : State := mCmd 0x0506
     let r : CmdRef := ref0
     let c : HostCmd := cmdA 0x0506
     s.activeCmd r 0x0506 = some c ∧ c.seq = none) ∧
    (let s : State := mCmd 0x0507
     let r : CmdRef := ref0
     let c : HostCmd := cmdA 0x0507
     s.activeCmd r 0x0507 = some c ∧ c.seq = none) ∧
    (let s : State := mCmd 0x0508
     let r : CmdRef := ref0
     let c : HostCmd := cmdA 0x0508
     s.activeCmd r 0x0508 = some c ∧ c.seq = none) ∧
    (let s : State := mCmd 0x0509
     let r : CmdRef := ref0
     let c : HostCmd := cmdA 0x0509
     s.activeCmd r 0x0509 = some c ∧ c.seq = none) ∧
    (let s : State := mCmd 0x0805
     let r : CmdRef := ref0
     let c : HostCmd := cmdA 0x0805
     s.activeCmd r 0x0805 = some c ∧ c.seq = none) ∧
    (let s : State := mCmd 0x0901
     let r : CmdRef := ref0
     let c : HostCmd := cmdA 0x0901
     s.activeCmd r 0x0901 = some c ∧ c.seq = none) ∧
    (let s : State := mCmd 0x0504
     let r : CmdRef := ref0
     let c : HostCmd := cmdA 0x0504
     s.activeCmd r 0x0504 = some c ∧ c.seq = none ∧ s.pointer.trial = 0xFF ∧ s.anyEasy = false ∧ s.modSitReady = false ∧
     ((s.hub.mbxA.cmds.filter fun d => decide (s.lastCatch ≤ d.t)).length < 16)) ∧
    (let s : State := onTrial (mCmd 0x0504)
     let r : CmdRef := ref0
     let c : HostCmd := cmdA 0x0504
     s.activeCmd r 0x0504 = some c ∧ c.seq = none ∧ s.pointer.trial ≠ 0xFF) ∧
    (let s : State := mSit 0x0504
     let r : CmdRef := ref0
     let c : HostCmd := cmdA 0x0504
     s.activeCmd r 0x0504 = some c ∧ c.seq = none ∧ s.pointer.trial = 0xFF ∧ (s.anyEasy = true ∨ s.modSitReady = true)) := by
  and_intros <;> decide +kernel

theorem witness_HubCommandsActOrAreRefused :
    (let s : State := withCmds m3 [{ cmdA 0x0103 with target := 0 }]
     let r : CmdRef := ref0
     let c : HostCmd := { cmdA 0x0103 with target := 0 }
     s.activeCmd r 0x0103 = some c ∧ r.q < 4 ∧ (c.target = 0 ∨ 11 < c.target)) ∧
    (let s : State := withCmds m3 [{ cmdA 0x0103 with target := 1 }]
     let r : CmdRef := ref0
     let c : HostCmd := { cmdA 0x0103 with target := 1 }
     let k := 2
     s.activeCmd r 0x0103 = some c ∧ r.q < 4 ∧ 1 ≤ c.target ∧ c.target ≤ 11 ∧ k ≠ c.target) ∧
    (let s : State := mCmd 0x0104
     let r : CmdRef := ref0
     let c : HostCmd := cmdA 0x0104
     s.activeCmd r 0x0104 = some c) ∧
    (let s : State := mCmd 0x0201
     let r : CmdRef := ref0
     let c : HostCmd := cmdA 0x0201
     s.activeCmd r 0x0201 = some c ∧ (s.modSitReady = false ∨ s.anyEasy = true ∨ s.hub.set.autoStart = true)) ∧
    (let s : State := mCmd 0x0203
     let r : CmdRef := ref0
     let l : LaneId := .b
     let c : HostCmd := cmdA 0x0203
     s.activeCmd r 0x0203 = some c ∧ (s.lane l).inVote = true) ∧
    (let s : State := mSit 0x0203
     let r : CmdRef := ref0
     let l : LaneId := .b
     let c : HostCmd := cmdA 0x0203
     let k := .a
     s.activeCmd r 0x0203 = some c ∧ (s.lane l).inVote = false ∧ k ≠ l) ∧
    (let s : State := mCmd 0x0401
     let r : CmdRef := ref0
     let conn : Nat := 5
     let c : HostCmd := cmdA 0x0401
     s.activeCmd r 0x0401 = some c ∧ (s.hub.desc conn).carrier ≠ 4) ∧
    (let s : State := { mCmd 0x0401 with hub := { (mCmd 0x0401).hub with descs := [(5, { desc0 with carrier := 4 })] } }
     let r : CmdRef := ref0
     let conn : Nat := 5
     let c : HostCmd := cmdA 0x0401
     let l := .a
     s.activeCmd r 0x0401 = some c ∧ (s.hub.desc conn).carrier = 4 ∧ s.hub.carries = true ∧ s.hub.isStandby = false ∧
     s.hub.sgwRuns = false ∧ (s.lane l).sitReady = false ∧ (s.lane l).easy = false) ∧
    (let s : State := { mCmd 0x0401 with la := upL .a, hub := { (mCmd 0x0401).hub with descs := [(5, { desc0 with carrier := 4 })] } }
     let r : CmdRef := ref0
     let conn : Nat := 5
     let c : HostCmd := cmdA 0x0401
     let l := .a
     s.activeCmd r 0x0401 = some c ∧ (s.hub.desc conn).carrier = 4 ∧ s.hub.carries = true ∧ s.hub.isStandby = false ∧
     s.hub.sgwRuns = false ∧ ((s.lane l).sitReady = true ∨ (s.lane l).easy = true)) ∧
    (let s : State := { mCmd 0x0402 with hub := { (mCmd 0x0402).hub with host := { (mCmd 0x0402).hub.host with rx := [(5, [1, 2]), (6, [3]), (5, zeros 5000), (5, [4])] } } }
     let r : CmdRef := ref0
     let c : HostCmd := cmdA 0x0402
     s.activeCmd r 0x0402 = some c) ∧
    (let s : State := mCmd 0x0302
     let r : CmdRef := ref0
     let sect : Nat := 0x400000
     let off : Nat := 0
     let bytes : List Byte := [1]
     let c : HostCmd := cmdA 0x0302
     s.activeCmd r 0x0302 = some c ∧ 0x400000 < sect + off + bytes.length) ∧
    (let s : State := mCmd 0x0302
     let r : CmdRef := ref0
     let sect : Nat := 0x3FFFFF
     let off : Nat := 0
     let bytes : List Byte := [1]
     let c : HostCmd := cmdA 0x0302
     s.activeCmd r 0x0302 = some c ∧ sect + off + bytes.length ≤ 0x400000) ∧
    (let s : State := mCmd 0x0B02
     let r : CmdRef := ref0
     let c : HostCmd := cmdA 0x0B02
     s.activeCmd r 0x0B02 = some c) ∧
    (let s : State := withCmds (mRing 2) [cmdA 0x0801]
     let r : CmdRef := ref0
     let k : Nat := 6
     let c : HostCmd := cmdA 0x0801
     s.activeCmd r 0x0801 = some c ∧ 6 ≤ k) ∧
    (let s : State := withCmds (mRing 2) [cmdA 0x0801]
     let r : CmdRef := ref0
     let k : Nat := 0
     let rating : Nat := 1
     let c : HostCmd := cmdA 0x0801
     s.activeCmd r 0x0801 = some c ∧ k < 6 ∧ k < s.hub.rings.length ∧ s.hub.rstate k = 2 ∧ s.hub.ratingValid rating = true ∧
     rating ≠ s.hub.rating k ∧ (s.hub.ring k).ann = none) ∧
    (let s : State := withCmds (mRing 2) [cmdA 0x0801]
     let r : CmdRef := ref0
     let k : Nat := 0
     let rating : Nat := 0
     let c : HostCmd := cmdA 0x0801
     s.activeCmd r 0x0801 = some c ∧ k < 6 ∧ s.hub.rstate k = 2 ∧ (s.hub.ratingValid rating = false ∨ rating = s.hub.rating k)) ∧
    (let s : State := withCmds (mRing 1) [cmdA 0x0801]
     let r : CmdRef := ref0
     let k : Nat := 0
     let c : HostCmd := cmdA 0x0801
     s.activeCmd r 0x0801 = some c ∧ k < 6 ∧ s.hub.rstate k ≠ 2) ∧
    (let s : State := withCmds (mRingWith 2 fun r => { r with ann := some { rating := 1, target := 1, unwrap := false } }) [cmdA 0x0802]
     let r : CmdRef := ref0
     let k : Nat := 0
     let a : RingAnn := { rating := 1, target := 1, unwrap := false }
     let c : HostCmd := cmdA 0x0802
     s.activeCmd r 0x0802 = some c ∧ k < 6 ∧ k < s.hub.rings.length ∧ (s.hub.ring k).ann = some a ∧ (s.hub.ring k).unwrapWait = false) ∧
    (let s : State := withCmds (mRing 2) [cmdA 0x0803]
     let r : CmdRef := ref0
     let k : Nat := 0
     let c : HostCmd := cmdA 0x0803
     s.activeCmd r 0x0803 = some c ∧ k < 6 ∧ s.hub.on (RING_STAT_UNMANNED k) = false) ∧
    (let s : State := (let x := withCmds (mRing 4) [cmdA 0x0803]; { x with hub := x.hub.fset (RING_STAT_UNMANNED 0) 1 })
     let r : CmdRef := ref0
     let k : Nat := 0
     let c : HostCmd := cmdA 0x0803
     s.activeCmd r 0x0803 = some c ∧ k < 6 ∧ s.hub.on (RING_STAT_UNMANNED k) = true) ∧
    (let s : State := mCmd 0x0A01
     let r : CmdRef := ref0
     let c : HostCmd := cmdA 0x0A01
     let l := .a
     s.activeCmd r 0x0A01 = some c ∧ c.headerBad = false ∧ c.rangeBad = false ∧ c.seq = none ∧ (s.lane l).up = true ∧
     (s.lane l).easy = false) ∧
    (let s : State := (mCmd 0x0A01).modLane .a fun x => { x with rst := rstReset }
     let r : CmdRef := ref0
     let c : HostCmd := cmdA 0x0A01
     let l := .a
     s.activeCmd r 0x0A01 = some c ∧ c.headerBad = false ∧ c.rangeBad = false ∧ c.seq = none ∧ (s.lane l).up = false) := by
  and_intros <;> decide +kernel

theorem witness_HubCommandsActOrAreRefused_4 :
    (let s : State := (let x := mSit 0x0201; { x with hub := { x.hub with set := { x.hub.set with autoStart := false } } })
     let r : CmdRef := ref0
     let c : HostCmd := cmdA 0x0201
     s.activeCmd r 0x0201 = some c ∧ s.modSitReady = true ∧ s.anyEasy = false ∧ s.hub.set.autoStart = false ∧
     ((∀ l, ((s.lane l).up = true → (s.lane l).armed = false)))) := by
  and_intros <;> first
    | (intro k; cases k <;> decide +kernel)
    | decide +kernel

theorem witness_HubCommandsActOrAreRefused_5 :
    (let s : State := (let y := mSit 0x0201; eachLane { y with hub := { y.hub with set := { y.hub.set with autoStart := false } } } fun x => { (x.fset TMR_STAT_ARMED 1) with start := { x.start with paired := allLanes } })
     let r : CmdRef := ref0
     let c : HostCmd := cmdA 0x0201
     s.activeCmd r 0x0201 = some c ∧ s.modSitReady = true ∧ s.anyEasy = false ∧ s.hub.set.autoStart = false ∧
     ((∀ l, (((s.lane l).up = true) ∧ ((s.lane l).sitReady = true) ∧ ((s.lane l).armed = true) ∧ ((s.lane l).start.paired = allLanes) ∧ ((s.lane l).start.firstCatch = none) ∧ ((s.lane l).period = s.la.period))))) := by
  and_intros <;> first
    | (intro k; cases k <;> decide +kernel)
    | decide +kernel

theorem witness_InterfaceAndBlocksAreResetAlone :
    (let s : State := { m3 with hub := m3.hub.fset HCMD_STAT_HOSTSPI 1 }
     s.hub.rst.held = false ∧ s.hub.on HCMD_STAT_HOSTSPI = true) ∧
    (let s : State := withCmds m3 [cmdA 0x0101, { cmdW 0x0102 with slot := 4 }]
     let q := 0
     s.hub.rst.held = false ∧ s.hub.on HCMD_STAT_HOSTSPI = false ∧ q < 4) ∧
    (let s : State := mCmd 0x0101
     let v : Word := 0x5A5A0081
     s.hub.rst.held = false ∧ bvField v 16 16 ≠ 0xA55A) ∧
    (let s : State := mCmd 0x0101
     let v : Word := 0xA55A0003
     s.hub.rst.held = false ∧ bvField v 16 16 = 0xA55A ∧ v.getLsbD 0 = true) ∧
    (let s : State := mCmd 0x0101
     let v : Word := 0xA55A0082
     s.hub.rst.held = false ∧ bvField v 16 16 = 0xA55A ∧ v.getLsbD 0 = false ∧ v.getLsbD 1 = true) ∧
    (let s : State := mCmd 0x0A02
     let r : CmdRef := ref0
     let kind : Nat := 2
     let c : HostCmd := cmdA 0x0A02
     s.activeCmd r 0x0A02 = some c ∧ 1 < kind) ∧
    (let s : State := mCmd 0x0A02
     let r : CmdRef := ref0
     let kind : Nat := 1
     let c : HostCmd := cmdA 0x0A02
     s.activeCmd r 0x0A02 = some c ∧ kind ≤ 1) ∧
    (let s : State := mHub fun h => { h with host := { h.host with mreset := some (true, 60000000) } }
     let cold : Bool := true
     let d : Nat := 60000000
     let tm : Nat := 59999999
     s.hub.host.mreset = some (cold, d) ∧ s.hub.rst.held = false ∧ tm < d) ∧
    (let s : State := mHub fun h => { h with host := { h.host with mreset := some (true, 60000000) } }
     let cold : Bool := true
     let d : Nat := 60000000
     let tm : Nat := 60000000
     let l := .a
     s.hub.host.mreset = some (cold, d) ∧ s.hub.rst.held = false ∧ d ≤ tm ∧ (s.lane l).inVote = true ∧ (s.lane l).easy = false ∧
     (s.lane l).rst.held = false) ∧
    (let s : State := { m0 with hub := { m0.hub with host := { m0.hub.host with mreset := some (false, 60000000) } } }
     let cold : Bool := false
     let d : Nat := 60000000
     let tm : Nat := 60000000
     let l := .a
     s.hub.host.mreset = some (cold, d) ∧ s.hub.rst.held = false ∧ d ≤ tm ∧ (s.lane l).inVote = false) ∧
    (let s : State := m3
     let v : Word := 0x15
     s.hub.rst.held = false ∧ bvField v 0 8 ∈ blockCodes ∧ s.hub.brst = none) ∧
    (let s : State := mHub fun h => { h with brst := some (0x10, 0) }
     let v : Word := 0x72
     s.hub.rst.held = false ∧ bvField v 0 8 ∈ blockCodes ∧ s.hub.brst.isSome = true) ∧
    (let s : State := mCmd 0x0A04
     let r : CmdRef := ref0
     let b : Byte := 0x16
     let c : HostCmd := cmdA 0x0A04
     s.activeCmd r 0x0A04 = some c ∧ b.toNat ∉ blockCodes) ∧
    (let s : State := mCmd 0x0A04
     let r : CmdRef := ref0
     let b : Byte := 0x70
     let c : HostCmd := cmdA 0x0A04
     s.activeCmd r 0x0A04 = some c ∧ b.toNat ∈ blockCodes ∧ s.hub.brst = none) ∧
    (let code : Nat := 0x71
     let since : Nat := 50000000
     let tm : Nat := 59999999
     let x := cmdA 0x0703
     let s : State := (let x := withCmds m3 [cmdA 0x0703, { cmdA 0x0601 with slot := 2 }]; { x with hub := { x.hub with brst := some (0x71, 50000000) } })
     s.hub.brst = some (code, since) ∧ code < 256 ∧ x ∈ s.hub.host.cmds ∧ s.hub.servedBy code x = true ∧
     tm < since + s.hub.idleTimeout code) ∧
    (let s : State := (let x := withCmds m3 [cmdA 0x0703, { cmdA 0x0601 with slot := 2 }]; { x with hub := { x.hub with brst := some (0x71, 50000000) } })
     let code : Nat := 0x71
     let since : Nat := 50000000
     let tm : Nat := 60000000
     s.hub.brst = some (code, since) ∧ code < 256 ∧ since + s.hub.idleTimeout code ≤ tm) := by
  and_intros <;> decide +kernel

theorem witness_GatewayMapsLoadWholeAndSignalsReachTheirDestinations :
    (let s : State := mSgw
     s.hub.rst.held = false ∧ s.hub.on SGW_CTRL_EN = true) ∧
    (let s : State := mHub fun h => { (h.fset SGW_MBASE_BASE 0x8100) with sram := memPutBytes [] 0x08100000 (leBytes 4 0xE0000000 ++ zeros 16 ++ leBytes 4 0x2000) }
     let i := 0
     let word (o : Nat) : Word := memWord s.hub.sram (s.hub.fget SGW_MBASE_BASE * 4096 + o)
     s.hub.rst.held = false ∧ s.hub.on SGW_CTRL_EN = false ∧ i < 1024 ∧ (word (32 * i)).getLsbD 31 = true ∧
     (bvField (word (32 * i + 20)) 10 6 = 0 ∨ bvField (word (32 * i)) 29 2 = 3)) ∧
    (let s : State := mSgw
     let port : Nat := 0
     let ide : Bool := false
     let rem : Bool := true
     let err : Bool := true
     let ident : Word := 0x124
     let data : List Byte := [1, 2]
     s.hub.rst.held = false ∧ port < 4 ∧ s.hub.on (SGW_CANCFG_EN port) = true ∧ s.hub.fget (SGW_CANSTAT_STATE port) ≠ 2 ∧
     (rem = true ∨ err = true) ∧ err = true ∧ data.length ≤ 8 ∧
     ((∀ e ∈ s.hub.sgw.entries, ¬ (seKind e.2 = 0 ∧ sePort e.2 = port ∧ seIde e.2 = ide ∧ seId e.2 = ident.toNat)))) ∧
    (let s : State := m3
     let port : Nat := 0
     s.hub.rst.held = false ∧ port < 4 ∧ (s.hub.on (SGW_CANCFG_EN port) = false ∨ s.hub.fget (SGW_CANSTAT_STATE port) = 2)) ∧
    (let s : State := mSgw
     let port : Nat := 0
     let ide : Bool := false
     let ident : Word := 0x123
     let data : List Byte := [1, 2]
     let i : Nat := 0
     let e : List Word := sgwE
     let desc : List Word := sgwD
     let v := (match entryValue sgwE [1, 2] with | some x => x.1 | _ => 0)
     let sat := (match entryValue sgwE [1, 2] with | some x => x.2 | _ => false)
     s.hub.rst.held = false ∧ port < 4 ∧ s.hub.on (SGW_CANCFG_EN port) = true ∧ s.hub.fget (SGW_CANSTAT_STATE port) ≠ 2 ∧
     data.length ≤ 8 ∧ s.hub.sgw.entries = [(i, e)] ∧ seKind e = 0 ∧ sePort e = port ∧ seIde e = ide ∧ seId e = ident.toNat ∧
     s.hub.sgwRuns = true ∧ s.hub.sgwDesc (seDmsg e) = some desc ∧ sdPort desc < 4 ∧ (s.hub.sgwDest (seDmsg e)).buf = none ∧
     entryValue e data = some (v, sat)) ∧
    (let s : State := mSgw
     let port : Nat := 0
     let ide : Bool := false
     let ident : Word := 0x123
     let data : List Byte := [1]
     let i : Nat := 0
     let e : List Word := sgwE
     let desc : List Word := sgwD
     s.hub.rst.held = false ∧ port < 4 ∧ s.hub.on (SGW_CANCFG_EN port) = true ∧ s.hub.fget (SGW_CANSTAT_STATE port) ≠ 2 ∧
     data.length ≤ 8 ∧ s.hub.sgw.entries = [(i, e)] ∧ seKind e = 0 ∧ sePort e = port ∧ seIde e = ide ∧ seId e = ident.toNat ∧
     s.hub.sgwRuns = true ∧ s.hub.sgwDesc (seDmsg e) = some desc ∧ sdPort desc < 4 ∧ (s.hub.sgwDest (seDmsg e)).buf = none ∧
     entryValue e data = none) ∧
    (let s : State := mSgwWith dest0
     let d : Nat := 0
     let tm : Nat := 59999999
     let desc : List Word := sgwD
     s.hub.rst.held = false ∧ s.hub.sgwDesc d = some desc ∧ s.hub.sgwRuns = true ∧ (s.hub.sgwDest d).sentOnce = true ∧
     tm < (s.hub.sgwDest d).lastSend + bvField (desc.getD 2 0) 16 16 * 1000000) ∧
    (let s : State := mSgwWith dest0
     let d : Nat := 0
     let tm : Nat := 150000000
     let desc : List Word := sgwD
     let j := 1
     s.hub.rst.held = false ∧ s.hub.sgwDesc d = some desc ∧ s.hub.sgwRuns = true ∧ s.hub.canSends desc = true ∧
     (s.hub.sgwDest d).fresh = true ∧ (s.hub.sgwDest d).silent = false ∧
     ((s.hub.sgwDest d).sentOnce = false ∨ (s.hub.sgwDest d).lastSend + bvField (desc.getD 2 0) 16 16 * 1000000 ≤ tm) ∧ j ≠ d ∧
     bvField (desc.getD 2 0) 0 16 ≠ 0 ∧ (s.hub.sgwDest d).lastVal + bvField (desc.getD 2 0) 0 16 * 1000000 ≤ tm) ∧
    (let s : State := mSgwWith { dest0 with buf := some [1] }
     let port : Nat := 1
     let d : Nat := 0
     let desc : List Word := sgwD
     let j := 1
     s.hub.rst.held = false ∧ port < 4 ∧ s.hub.on (SGW_CANCFG_EN port) = true ∧ s.hub.fget (SGW_CANSTAT_STATE port) ≠ 2 ∧
     (d, desc) ∈ s.hub.sgw.dests ∧ sdPort desc = port ∧ (s.hub.sgwDest d).buf.isSome = true ∧
     ((∀ e ∈ s.hub.sgw.dests, (sdPort e.2 = port → ((s.hub.sgwDest e.1).buf.isSome = true → e = (d, desc) ∨ canRank desc < canRank e.2)))) ∧
     j ≠ d) ∧
    (let s : State := mSgw
     let port : Nat := 0
     s.hub.rst.held = false ∧ port < 4 ∧ s.hub.fget (SGW_CANSTAT_STATE port) ≠ 2) ∧
    (let s : State := { mSgw with hub := (mSgw.hub.fset (SGW_CANSTAT_STATE 0) 2).fset (SGW_CANSTAT_TEC 0) 255 }
     let port : Nat := 0
     s.hub.rst.held = false ∧ port < 4 ∧ s.hub.fget (SGW_CANSTAT_STATE port) = 2) := by
  and_intros <;> decide +kernel

theorem witness_GatewayMapsLoadWholeAndSignalsReachTheirDestinations_1 :
    (let s : State := m3
     let word (o : Nat) : Word := memWord s.hub.sram (s.hub.fget SGW_MBASE_BASE * 4096 + o)
     s.hub.rst.held = false ∧ s.hub.on SGW_CTRL_EN = false ∧ ((∀ o, (o < 0x8800 → (o % 4 = 0 → (word o).getLsbD 31 = false))))) := by
  and_intros <;> first
    | exact fun o _ _ => by show (memWord [] _).getLsbD 31 = false; rw [memWord_nil]; rfl
    | decide +kernel

theorem witness_RecordsAndCheckUnitsServeInOrder :
    (let s : State := mRec fun r => { r with queue := [sub0], newest := none, next := 5 }
     let x : RecSub := sub0
     let q : List RecSub := []
     s.hub.rst.held = false ∧ s.hub.records = true ∧ s.hub.on REC_STAT_THROTTLE = false ∧ s.hub.rcd.queue = x :: q ∧
     s.hub.on HSRAM_STAT_FROZEN = false ∧ s.hub.rcd.newest = none ∧ s.hub.rcd.next < 2 ^ 32) ∧
    (let s : State := mRec fun r => { r with queue := [sub0], newest := some ({ sub0 with t := 9 }, 4, 255), next := 5 }
     let x : RecSub := sub0
     let q : List RecSub := []
     let y : RecSub := { sub0 with t := 9 }
     let rep : Nat := 4
     let ver : Nat := 255
     s.hub.rst.held = false ∧ s.hub.records = true ∧ s.hub.on REC_STAT_THROTTLE = false ∧ s.hub.rcd.queue = x :: q ∧
     s.hub.on HSRAM_STAT_FROZEN = false ∧ s.hub.rcd.newest = some (y, rep, ver) ∧ y.source = x.source ∧ y.code = x.code ∧
     y.data = x.data ∧ rep < 65535) ∧
    (let s : State := mRec fun r => { r with lost := 3, next := 5 }
     s.hub.rst.held = false ∧ s.hub.records = true ∧ s.hub.on REC_STAT_THROTTLE = false ∧ s.hub.rcd.lost ≠ 0 ∧
     s.hub.rcd.queue.length < 64 ∧ s.hub.rcd.next < 2 ^ 32) ∧
    (let s : State := mRec fun r => { r with unflushed := [(0, 100, 127)] }
     let c : Nat × Nat × Nat := (0, 100, 127)
     let cs : List (Nat × Nat × Nat) := []
     s.hub.rst.held = false ∧ s.hub.blockOff 0x60 = false ∧ s.hub.rcd.unflushed = c :: cs) ∧
    (let s : State := m3
     let l : LaneId := .a
     let v : Word := 0x101
     (s.lane l).rst.held = false ∧ v.getLsbD 8 = true ∧ bvField v 0 3 ≤ 4) ∧
    (let s : State := m3
     let l : LaneId := .a
     let v : Word := 0x105
     (s.lane l).rst.held = false ∧ v.getLsbD 8 = true ∧ 4 < bvField v 0 3) ∧
    (let s : State := m3
     let l : LaneId := .a
     (s.lane l).rst.held = false ∧ (s.lane l).rg CRC_OWNER ≠ crcOwner 0 (bvField ((s.lane l).rg CRC_CUR) 0 8)) ∧
    (let s : State := nx (execCrcStart (.lane .a) 0 0x101 m3)
     let l : LaneId := .a
     (s.lane l).rst.held = false ∧ (s.lane l).rg CRC_OWNER = crcOwner 0 (bvField ((s.lane l).rg CRC_CUR) 0 8)) ∧
    (let s : State := m3
     let m : Master := .host
     let u : Nat := 1
     let req : Nat := 0
     let v : Word := 0x101
     (m, u) ∈ [(Master.hub, 0), (.host, 1)] ∧ s.hub.rst.held = false ∧
     s.hub.rg (HCRC_OWNER u) ≠ crcOwner req (bvField (s.hub.rg (HCRC_CUR u (req % 2))) 0 8) ∧ v.getLsbD 8 = true ∧ bvField v 0 3 ≤ 4) ∧
    (let s : State := nx (execCrcStart .hub 1 0x101 m3)
     let m : Master := .hub
     let u : Nat := 0
     let req : Nat := 1
     (m, u) ∈ [(Master.hub, 0), (.host, 1)] ∧ s.hub.rst.held = false ∧
     s.hub.rg (HCRC_OWNER u) = crcOwner req (bvField (s.hub.rg (HCRC_CUR u (req % 2))) 0 8)) := by
  and_intros <;> decide +kernel

theorem witness_DownloadsWriteOnlyWhatTheyMay :
    (let s : State := mCmd 0x0701
     let r : CmdRef := ref0
     let k : Nat := 2
     let len : Nat := 0x10000
     let c : HostCmd := cmdA 0x0701
     s.activeCmd r 0x0701 = some c ∧ ((s.hub.upd.gated.any fun g => g.cmd == some r) = false) ∧ (2 ≤ k ∨ 0x2000000 < len)) ∧
    (let s : State := mCmd 0x0701
     let r : CmdRef := ref0
     let k : Nat := 1
     let len : Nat := 0x10000
     let block : List Byte := blkFF
     let c : HostCmd := cmdA 0x0701
     s.activeCmd r 0x0701 = some c ∧ ((s.hub.upd.gated.any fun g => g.cmd == some r) = false) ∧ k < 2 ∧ len ≤ 0x2000000 ∧
     s.beginOk k block = false) ∧
    (let s : State := withUpd (charged (mCmd 0x0702)) fun u => { u with verified := [1] }
     let r : CmdRef := ref0
     let i : Nat := 512
     let k : Nat := 1
     let block : List Byte := img0 5 ++ List.replicate 65024 0xFF#8
     let c : HostCmd := cmdA 0x0702
     s.activeCmd r 0x0702 = some c ∧ ((s.hub.upd.gated.any fun g => g.cmd == some r) = false) ∧ s.downloadSlot = some k ∧
     (512 ≤ i ∨ block.length ≠ 65536)) ∧
    (let s : State := mCmd 0x0703
     let r : CmdRef := ref0
     let c : HostCmd := cmdA 0x0703
     s.activeCmd r 0x0703 = some c) ∧
    (let s : State := mCmd 0x0707
     let r : CmdRef := ref0
     let link : Nat := 1
     let c : HostCmd := cmdA 0x0707
     s.activeCmd r 0x0707 = some c ∧ s.linkOpen link = true) ∧
    (let s : State := mCmd 0x0707
     let r : CmdRef := ref0
     let link : Nat := 2
     let c : HostCmd := cmdA 0x0707
     s.activeCmd r 0x0707 = some c ∧ s.linkOpen link = false) ∧
    (let s : State := withUpd (charged (mCmd 0x0303)) fun u => { u with staged := [(0, 7)] }
     let r : CmdRef := ref0
     let crc : Word := BitVec.ofNat 32 (crc32c [7])
     let c : HostCmd := cmdA 0x0303
     s.activeCmd r 0x0303 = some c ∧ ((s.hub.upd.gated.any fun g => g.cmd == some r) = false) ∧ s.pointer.trial = 0xFF ∧
     crc32c s.stagedBytes = crc.toNat ∧ s.hub.on NVW_STAT_PF = false ∧ s.hub.gateOpen ((s.stagedBytes.length + 255) / 256 + 1) = true) ∧
    (let s : State := withUpd (charged (mCmd 0x0303)) fun u => { u with staged := [(0, 7)] }
     let r : CmdRef := ref0
     let crc : Word := 1
     let c : HostCmd := cmdA 0x0303
     s.activeCmd r 0x0303 = some c ∧ ((s.hub.upd.gated.any fun g => g.cmd == some r) = false) ∧
     (s.pointer.trial ≠ 0xFF ∨ crc32c s.stagedBytes ≠ crc.toNat)) := by
  and_intros <;> decide +kernel

theorem witness_DownloadsWriteOnlyWhatTheyMay_0 :
    (let s : State := charged (mCmd 0x0701)
     let r : CmdRef := ref0
     let k : Nat := 1
     let len : Nat := 0x10000
     let block : List Byte := blk00 5
     let c : HostCmd := cmdA 0x0701
     let o := 0
     s.activeCmd r 0x0701 = some c ∧ ((s.hub.upd.gated.any fun g => g.cmd == some r) = false) ∧ k < 2 ∧ len ≤ 0x2000000 ∧
     s.beginOk k block = true ∧ block.length = 65536 ∧ s.hub.on NVW_STAT_PF = false ∧ s.hub.gateOpen 256 = true ∧
     (o < slotBase k ∨ slotBase k + 65536 ≤ o)) := by
  and_intros <;> first
    | with_reducible exact blk00_length
    | decide +kernel

theorem witness_DownloadsWriteOnlyWhatTheyMay_1 :
    (let s : State := mCmd 0x0701
     let r : CmdRef := ref0
     let k : Nat := 1
     let len : Nat := 0x10000
     let block : List Byte := blk00 5
     let c : HostCmd := cmdA 0x0701
     s.activeCmd r 0x0701 = some c ∧ ((s.hub.upd.gated.any fun g => g.cmd == some r) = false) ∧ k < 2 ∧ len ≤ 0x2000000 ∧
     s.beginOk k block = true ∧ block.length = 65536 ∧ s.hub.on NVW_STAT_PF = false ∧ s.hub.gateOpen 256 = false) := by
  and_intros <;> first
    | with_reducible exact blk00_length
    | decide +kernel

theorem witness_DownloadsWriteOnlyWhatTheyMay_4 :
    (let s : State := charged (mCmd 0x0702)
     let r : CmdRef := ref0
     let i : Nat := 3
     let k : Nat := 1
     let block : List Byte := blkFF
     let c : HostCmd := cmdA 0x0702
     let o := 0
     s.activeCmd r 0x0702 = some c ∧ ((s.hub.upd.gated.any fun g => g.cmd == some r) = false) ∧ s.downloadSlot = some k ∧ i < 512 ∧
     block.length = 65536 ∧ s.hub.on NVW_STAT_PF = false ∧ s.hub.gateOpen 256 = true ∧
     (o < slotBase k + 65536 * i ∨ slotBase k + 65536 * i + 65536 ≤ o)) := by
  and_intros <;> first
    | with_reducible exact blkFF_length
    | decide +kernel

theorem witness_TrialsGoPartByPartAndRevert :
    (let s : State := withUpd (charged (mCmd 0x0704)) fun u => { u with verified := [1] }
     let r : CmdRef := ref0
     let k : Nat := 1
     let c : HostCmd := cmdA 0x0704
     s.activeCmd r 0x0704 = some c ∧ ((s.hub.upd.gated.any fun g => g.cmd == some r) = false) ∧ s.hub.isActive = false ∧
     k ∈ s.hub.upd.verified ∧ k < 2 ∧ s.hub.on NVW_STAT_PF = false ∧ s.hub.gateOpen 1 = true) ∧
    (let s : State := withUpd (charged (mCmd 0x0704)) fun u => { u with verified := [1] }
     let r : CmdRef := ref0
     let k : Nat := 0
     let c : HostCmd := cmdA 0x0704
     s.activeCmd r 0x0704 = some c ∧ ((s.hub.upd.gated.any fun g => g.cmd == some r) = false) ∧
     (s.hub.isActive = true ∨ k ∉ s.hub.upd.verified)) ∧
    (let s : State := onTrial (charged (mCmd 0x0705))
     let r : CmdRef := ref0
     let c : HostCmd := cmdA 0x0705
     s.activeCmd r 0x0705 = some c ∧ ((s.hub.upd.gated.any fun g => g.cmd == some r) = false) ∧ s.pointer.trial < 2 ∧
     s.pointer.parts = 0x1F ∧ 2 ≤ s.voters.length ∧ s.hub.on UPD_STAT_SET_INCOMP = false ∧ s.hub.on NVW_STAT_PF = false ∧
     s.hub.gateOpen 1 = true) ∧
    (let s : State := charged (mCmd 0x0705)
     let r : CmdRef := ref0
     let c : HostCmd := cmdA 0x0705
     s.activeCmd r 0x0705 = some c ∧ ((s.hub.upd.gated.any fun g => g.cmd == some r) = false) ∧
     (s.pointer.trial = 0xFF ∨ s.pointer.parts ≠ 0x1F ∨ s.voters.length < 2 ∨ s.hub.on UPD_STAT_SET_INCOMP = true)) ∧
    (let s : State := onParts 0x1F (charged m3)
     s.hub.ready = true ∧ s.hub.upd.stopped = false ∧ s.hub.blockOff 0x71 = false ∧ s.hub.fget UPD_STAT_STEP = 0 ∧
     s.pointer.trial ≠ 0xFF ∧ s.hub.on NVW_STAT_PF = false ∧ s.pointer.nextPart = none) ∧
    (let s : State := onParts 0 (charged m3)
     s.hub.ready = true ∧ s.hub.upd.stopped = false ∧ s.hub.blockOff 0x71 = false ∧ s.hub.fget UPD_STAT_STEP = 0 ∧
     s.pointer.trial ≠ 0xFF ∧ s.hub.on NVW_STAT_PF = false ∧ s.pointer.nextPart = some 0 ∧ s.hub.gateOpen 1 = true) ∧
    (let s : State := onParts 1 (charged m3)
     s.hub.ready = true ∧ s.hub.upd.stopped = false ∧ s.hub.blockOff 0x71 = false ∧ s.hub.fget UPD_STAT_STEP = 0 ∧
     s.pointer.trial ≠ 0xFF ∧ s.hub.on NVW_STAT_PF = false ∧ s.pointer.nextPart = some 1 ∧ s.anyEasy = false ∧ s.voters.length = 3 ∧
     s.hub.isActive = false ∧ s.hub.gateOpen 1 = true) ∧
    (let s : State := onParts 3 (charged m3)
     let i := 2
     let l := .a
     s.hub.ready = true ∧ s.hub.upd.stopped = false ∧ s.hub.blockOff 0x71 = false ∧ s.hub.fget UPD_STAT_STEP = 0 ∧
     s.pointer.trial ≠ 0xFF ∧ s.hub.on NVW_STAT_PF = false ∧ s.pointer.nextPart = some i ∧ stepLane (i + 1) = some l ∧ s.anyEasy = false ∧
     s.voters.length = 3 ∧ s.hub.gateOpen 1 = true ∧ ((s.hub.mbxA.cmds.filter fun d => decide (s.lastCatch ≤ d.t)).length < 16)) ∧
    (let s : State := onParts 3 (charged m0)
     let i := 2
     s.hub.ready = true ∧ s.hub.upd.stopped = false ∧ s.hub.blockOff 0x71 = false ∧ s.hub.fget UPD_STAT_STEP = 0 ∧
     s.pointer.trial ≠ 0xFF ∧ s.hub.on NVW_STAT_PF = false ∧ s.pointer.nextPart = some i ∧ 1 ≤ i ∧
     (s.anyEasy = true ∨ s.voters.length ≠ 3)) ∧
    (let s : State := onParts 3 m3
     let i := 2
     s.hub.ready = true ∧ s.hub.upd.stopped = false ∧ s.hub.blockOff 0x71 = false ∧ s.hub.fget UPD_STAT_STEP = 0 ∧
     s.pointer.trial ≠ 0xFF ∧ s.hub.on NVW_STAT_PF = false ∧ s.pointer.nextPart = some i ∧ s.stepMay i = true ∧ s.hub.gateOpen 1 = false) ∧
    (let s : State := (let x := onParts 1 (charged m3); { x with hub := x.hub.fset PTNR_STAT_ROLE 2 })
     s.hub.ready = true ∧ s.hub.upd.stopped = false ∧ s.hub.blockOff 0x71 = false ∧ s.hub.fget UPD_STAT_STEP = 0 ∧
     s.pointer.trial ≠ 0xFF ∧ s.hub.on NVW_STAT_PF = false ∧ s.pointer.nextPart = some 1 ∧ s.hub.isActive = true) ∧
    (let s : State := withUpd (let x := onParts 7 (charged m3); { x with hub := x.hub.fset UPD_STAT_STEP 3 }) fun u => { u with stepT := some 50000000 }
     let l : LaneId := .a
     let tn : Nat := 50000000
     stepLane (s.hub.fget UPD_STAT_STEP) = some l ∧ s.hub.upd.stepT = some tn ∧ s.stepDone = false ∧
     s.lastCatch < tn + 64 * s.hub.set.period * 1000000 ∧ (s.lane l).on VOTE_READM_FAILED = false) ∧
    (let s : State := { m3 with aon := { m3.aon with hubStep := some 50000000 }, hub := m3.hub.fset HCMD_STAT_READY 0 }
     let t0 : Nat := 50000000
     let tm : Nat := 2050000000
     s.aon.hubStep = some t0 ∧ t0 + 2000000000 ≤ tm ∧ s.hub.ready = false) ∧
    (let s : State := { m3 with aon := { m3.aon with hubStep := some 50000000 }, hub := m3.hub.fset HCMD_STAT_READY 0 }
     let t0 : Nat := 50000000
     let tm : Nat := 2049999999
     s.aon.hubStep = some t0 ∧ tm < t0 + 2000000000) := by
  and_intros <;> decide +kernel

theorem witness_TrialsGoPartByPartAndRevert_12 :
    (let l : LaneId := .a
     let tn : Nat := 50000000
     let s : State := eachLane (withUpd (let x := onParts 7 (charged m3); { x with hub := x.hub.fset UPD_STAT_STEP 3 }) fun u => { u with stepT := some 50000000 }) fun x => { x with fol := { x.fol with tn := 3250000000 } }
     let k := .b
     stepLane (s.hub.fget UPD_STAT_STEP) = some l ∧ s.hub.upd.stepT = some tn ∧ s.stepDone = false ∧
     (tn + 64 * s.hub.set.period * 1000000 ≤ s.lastCatch ∨ (s.lane l).on VOTE_READM_FAILED = true) ∧
     ((∃ y, ((y ≠ l) ∧ ((s.lane y).inVote = true)))) ∧ k ≠ l) := by
  and_intros <;> first
    | exact ⟨.b, by decide +kernel⟩
    | decide +kernel

theorem witness_WritesWaitForTheHoldUpStore :
    (let s : State := withUpd (charged m3) fun u => { u with samples := [24000000] }
     let code : Nat := 3500
     let v := storeVolts s.hub.set.huDiv (code % 4096)
     let avg := meanOf ((v :: s.hub.upd.samples).take 2000)
     let low := 100 * v < 95 * avg ∨ v < s.hub.set.huVmin * 1000
     s.hub.up = true ∧ s.hub.on NVW_STAT_PF = false ∧ (¬ low)) ∧
    (let s : State := withUpd (charged m3) fun u => { u with samples := [24000000] }
     let code : Nat := 100
     let v := storeVolts s.hub.set.huDiv (code % 4096)
     let avg := meanOf ((v :: s.hub.upd.samples).take 2000)
     let low := 100 * v < 95 * avg ∨ v < s.hub.set.huVmin * 1000
     s.hub.up = true ∧ s.hub.on NVW_STAT_PF = false ∧ low ∧ s.hub.upd.lowRun < 2) ∧
    (let s : State := withUpd (charged m3) fun u => { u with samples := [24000000], lowRun := 2 }
     let code : Nat := 100
     let v := storeVolts s.hub.set.huDiv (code % 4096)
     let avg := meanOf ((v :: s.hub.upd.samples).take 2000)
     let low := 100 * v < 95 * avg ∨ v < s.hub.set.huVmin * 1000
     s.hub.up = true ∧ s.hub.on NVW_STAT_PF = false ∧ low ∧ 2 ≤ s.hub.upd.lowRun) ∧
    (let s : State := charged m3
     s.hub.up = true ∧ s.hub.upd.droopRun = false) ∧
    (let s : State := withUpd (charged m3) fun u => { u with droopRun := true }
     s.hub.up = true ∧ s.hub.upd.droopRun = true) ∧
    (let s : State := withUpd (mCmd 0x0702) fun u => { u with gated := [{ kind := .block, pages := 256, addr := 0x2000000, bytes := [], cmd := some ref0, t0 := 50000000 }] }
     let tm : Nat := 50000001
     let g : GatedWrite := { kind := .block, pages := 256, addr := 0x2000000, bytes := [], cmd := some ref0, t0 := 50000000 }
     let r : CmdRef := ref0
     let c : HostCmd := cmdA 0x0702
     s.hub.up = true ∧ s.hub.on NVW_STAT_PF = false ∧ s.hub.upd.gated = [g] ∧ g.cmd = some r ∧ s.hub.cmdAt r.q r.slot = some c ∧
     s.hub.openCmd r.q r.slot = some c ∧ s.hub.gateOpen g.pages = false ∧ tm < g.t0 + s.hub.budgetOf c) ∧
    (let s : State := withUpd (mCmd 0x0702) fun u => { u with gated := [{ kind := .block, pages := 256, addr := 0x2000000, bytes := [], cmd := some ref0, t0 := 50000000 }] }
     let tm : Nat := 80000000
     let g : GatedWrite := { kind := .block, pages := 256, addr := 0x2000000, bytes := [], cmd := some ref0, t0 := 50000000 }
     let r : CmdRef := ref0
     let c : HostCmd := cmdA 0x0702
     s.hub.up = true ∧ s.hub.on NVW_STAT_PF = false ∧ s.hub.upd.gated = [g] ∧ g.cmd = some r ∧ s.hub.cmdAt r.q r.slot = some c ∧
     s.hub.openCmd r.q r.slot = some c ∧ s.hub.gateOpen g.pages = false ∧ g.t0 + s.hub.budgetOf c ≤ tm) ∧
    (let s : State := m3
     let tag : Half := 3
     let idx : Nat := 0
     let cnt : Nat := 2
     let bytes : List Byte := [1, 2]
     let crc : Word := BitVec.ofNat 32 (crc32c (loaderContent 3 0 2 [1, 2]))
     (s.hub.upd.loader = false ∨ 1024 < bytes.length ∨ cnt ≤ idx ∨ crc32c (loaderContent tag.toNat idx cnt bytes) ≠ crc.toNat)) ∧
    (let s : State := withUpd m3 fun u => { u with loader := true }
     let tag : Half := 3
     let idx : Nat := 0
     let cnt : Nat := 2
     let bytes : List Byte := [1, 2]
     let crc : Word := BitVec.ofNat 32 (crc32c (loaderContent 3 0 2 [1, 2]))
     s.hub.upd.loader = true ∧ bytes.length ≤ 1024 ∧ idx < 2 ∧ cnt = 2 ∧ crc32c (loaderContent tag.toNat idx cnt bytes) = crc.toNat ∧
     s.hub.upd.frags = []) := by
  and_intros <;> decide +kernel

theorem witness_WritesWaitForTheHoldUpStore_7 :
    (let s : State := withUpd (charged (mCmd 0x0702)) fun u => { u with gated := [{ kind := .block, pages := 256, addr := 0x2000000, bytes := blkFF, cmd := some ref0, t0 := 50000000 }] }
     let g : GatedWrite := { kind := .block, pages := 256, addr := 0x2000000, bytes := blkFF, cmd := some ref0, t0 := 50000000 }
     let r : CmdRef := ref0
     let c : HostCmd := cmdA 0x0702
     s.hub.up = true ∧ s.hub.on NVW_STAT_PF = false ∧ s.hub.upd.gated = [g] ∧ g.cmd = some r ∧ s.hub.cmdAt r.q r.slot = some c ∧
     s.hub.openCmd r.q r.slot = some c ∧ s.hub.gateOpen g.pages = true ∧ g.kind = .block ∧ g.bytes.length = 65536) := by
  and_intros <;> first
    | with_reducible exact blkFF_length
    | exact (rfl : _ = [_])
    | decide +kernel

theorem witness_ClockFailuresStopTheirDieAlone :
    (let s : State := m3
     let l : LaneId := .a
     let cnt : Nat := 564
     (s.lane l).rst.held = false ∧ (cnt < 461 ∨ 563 < cnt) ∧ (s.lane l).rst.badWin = 0) ∧
    (let s : State := m3.modLane .a fun x => { x with rst := { x.rst with badWin := 1 } }
     let l : LaneId := .a
     let cnt : Nat := 460
     (s.lane l).rst.held = false ∧ (cnt < 461 ∨ 563 < cnt) ∧ (s.lane l).rst.badWin = 1 ∧ (s.lane l).rst.due = none ∧
     (s.lane l).inVote = true ∧ (s.lane l).easy = false) ∧
    (let s : State := m3
     s.hub.rst.held = false) ∧
    (let s : State := { m3 with hub := { m3.hub with ticks := false, mbxA := { m3.hub.mbxA with pubTime := 50000000 } } }
     let since : Nat := 20000000
     s.hub.up = true ∧ s.hub.upd.loader = false ∧ s.hub.ticks = false ∧ s.hub.rst.badXt = 0 ∧
     s.hub.rst.xtT + 10000000 ≤ s.hub.published + since) ∧
    (let s : State := { m3 with hub := { m3.hub with ticks := false, rst := { m3.hub.rst with xtT := 90000000 } } }
     let since : Nat := 0
     s.hub.up = true ∧ s.hub.upd.loader = false ∧ s.hub.ticks = false ∧ s.hub.rst.badXt = 0 ∧
     s.hub.published + since < s.hub.rst.xtT + 10000000) := by
  and_intros <;> decide +kernel

theorem witness_ClockFailuresStopTheirDieAlone_0 :
    (let s : State := m3
     let l : LaneId := .a
     let cnt : Nat := 461
     let k := .b
     (s.lane l).rst.held = false ∧ ((∃ y, ((y ≠ l) ∧ ((s.lane y).inVote = true)))) ∧ k ≠ l ∧ 461 ≤ cnt ∧ cnt ≤ 563) := by
  and_intros <;> first
    | exact ⟨.b, by decide +kernel⟩
    | decide +kernel

theorem witness_ClockFailuresStopTheirDieAlone_3 :
    (let s : State := m3
     let l : LaneId := .a
     let k := .b
     (s.lane l).rst.held = false ∧ (s.lane l).rst.due = none ∧ (s.lane l).inVote = true ∧ (s.lane l).easy = false ∧
     ((∃ y, ((y ≠ l) ∧ ((s.lane y).inVote = true)))) ∧ k ≠ l) := by
  and_intros <;> first
    | exact ⟨.b, by decide +kernel⟩
    | decide +kernel

theorem witness_ResetsReachTheirDiesAndMarkTheirCause :
    (let s : State := m3
     let l := .a
     s.aon.resetNLow = none ∧ (s.lane l).rst.held = false) ∧
    (let s : State := { m3 with aon := { m3.aon with resetNLow := some 0 } }
     let t0 : Nat := 0
     let tm : Nat := 99999999
     s.aon.resetNLow = some t0 ∧ tm < t0 + 100000000) ∧
    (let s : State := { m3 with aon := { m3.aon with resetNLow := some 0 } }
     let t0 : Nat := 0
     let tm : Nat := 100000000
     s.aon.resetNLow = some t0 ∧ t0 + 100000000 ≤ tm) ∧
    (let l : LaneId := .a
     let k := .b
     k ≠ l) ∧
    (let l := LaneId.a
     let k := LaneId.b
     k ≠ l) ∧
    (let s : State := m0
     let l : LaneId := .a
     let v : Word := 0xA55A0003
     (s.lane l).rst.held = false ∧ bvField v 16 16 = 0xA55A ∧ v.getLsbD 0 = true ∧ (s.lane l).inVote = false) ∧
    (let s : State := m0
     let l : LaneId := .a
     let v : Word := 0xA55A0002
     (s.lane l).rst.held = false ∧ (bvField v 16 16 ≠ 0xA55A ∨ v.getLsbD 0 = false)) ∧
    (let s : State := m0
     let l : LaneId := .a
     (s.lane l).rst.held = false ∧ (s.lane l).inVote = false ∧ (s.lane l).easy = false) ∧
    (let s : State := m3
     s.hub.rst.held = false) := by
  and_intros <;> decide +kernel

theorem witness_ResetsReachTheirDiesAndMarkTheirCause_5 :
    (let s : State := m3
     let l : LaneId := .a
     let v : Word := 0xA55A0003
     let k := .b
     (s.lane l).rst.held = false ∧ ((∃ y, ((y ≠ l) ∧ ((s.lane y).inVote = true)))) ∧ k ≠ l ∧ bvField v 16 16 = 0xA55A ∧
     v.getLsbD 0 = true ∧ (s.lane l).inVote = true ∧ (s.lane l).easy = false) := by
  and_intros <;> first
    | exact ⟨.b, by decide +kernel⟩
    | decide +kernel

theorem witness_ResetsReachTheirDiesAndMarkTheirCause_8 :
    (let s : State := m3
     let l : LaneId := .a
     let k := .b
     (s.lane l).rst.held = false ∧ ((∃ y, ((y ≠ l) ∧ ((s.lane y).inVote = true)))) ∧ k ≠ l ∧ (s.lane l).inVote = true ∧
     (s.lane l).easy = false) := by
  and_intros <;> first
    | exact ⟨.b, by decide +kernel⟩
    | decide +kernel

theorem witness_DiesAreReleasedWithValidTrim :
    (let s : State := m0.modLane .a fun x => { x with rst := rstReset }
     let l : LaneId := .a
     let ok : Bool := true
     let k := .b
     (s.lane l).rst.loading = true ∧ k ≠ l ∧ ok = true) ∧
    (let s : State := m0.modLane .a fun x => { x with rst := rstReset }
     let l : LaneId := .a
     let ok : Bool := false
     (s.lane l).rst.loading = true ∧ ok = false ∧ (s.lane l).rst.trimFails < 2) ∧
    (let s : State := m0.modLane .a fun x => { x with rst := { rstReset with trimFails := 2 } }
     let l : LaneId := .a
     let ok : Bool := false
     (s.lane l).rst.loading = true ∧ ok = false ∧ 2 ≤ (s.lane l).rst.trimFails) ∧
    (let s : State := m0
     let l : LaneId := .a
     let k := .b
     k ≠ l ∧
     ((s.lane l).rst.held = false ∨ (s.lane l).rst.trimOk = false ∨ (s.lane l).rst.trimFail = true ∨ (s.lane l).rst.clkHold = true ∨ (s.lane l).rst.supHold = true ∨ s.aon.resetNLow.isSome = true ∨ s.aon.laneEn l = false)) ∧
    (let s : State := m0.modLane .a fun x => { x with rst := ready0 }
     let l : LaneId := .a
     let tm : Nat := 60000000
     (s.lane l).rst.mayRelease (.lane l) tm = true ∧ s.aon.laneEn l = true ∧ s.aon.pwr.hubPowered = true ∧ s.aon.resetNLow = none ∧
     s.hub.upd.loader = false) ∧
    (let s : State := m0
     let tm : Nat := 60000000
     s.hub.rst.mayRelease .hub tm = false) ∧
    (let s : State := { m0 with hub := { m0.hub with rst := ready0 } }
     let tm : Nat := 60000000
     s.hub.rst.mayRelease .hub tm = true ∧ s.aon.pwr.hubPowered = true ∧ s.aon.resetNLow = none ∧ s.slotVerifies 0 = false ∧
     s.slotVerifies 1 = false) ∧
    (let s : State := { mFld with fieldRst := ready0 }
     let tm : Nat := 60000000
     s.fieldRst.mayRelease .field tm = true ∧ s.field.powered = true ∧ s.aon.resetNLow = none) := by
  and_intros <;> decide +kernel

theorem witness_SuppliesAndHibernationGoInOrder :
    (let s : State := m3
     let rail : Nat := 1
     s.hub.rst.held = false ∧ rail = 1) ∧
    (let s : State := m3
     let rail : Nat := 0
     s.hub.rst.held = false ∧ rail ≠ 1) ∧
    (let s : State := m3
     let l : LaneId := .a
     let tm : Nat := 60000000
     let rail := 0
     let pg : Bool := true
     let pec : Bool := false
     let sw : Half := 0x40
     (s.lane l).rst.supT + 100000 ≤ tm ∧ rail < 3 ∧
     (pec = true ∨ pg = false ∨ sw.getLsbD 15 = true ∨ sw.getLsbD 11 = true ∨ sw.getLsbD 6 = true)) ∧
    (let s : State := withRst m3 fun r => { r with supT := 59900001 }
     let l : LaneId := .a
     let tm : Nat := 60000000
     tm < (s.lane l).rst.supT + 100000) ∧
    (let s : State := withRst m3 fun r => { r with pmbT := 55000001, vTarget := 850 }
     let l : LaneId := .a
     let tm : Nat := 60000000
     let pg : Bool := true
     let pec : Bool := false
     let sw : Half := 0
     pec = false ∧ pg = true ∧ sw.getLsbD 15 = false ∧ sw.getLsbD 11 = false ∧ sw.getLsbD 6 = false ∧ (s.lane l).rst.pmbT ≠ 0 ∧
     tm + 1 ≤ (s.lane l).rst.pmbT + 5000000) ∧
    (let s : State := withRst m3 fun r => { r with pmbT := 55000001, vTarget := 850 }
     let l : LaneId := .a
     let tm : Nat := 59999999
     (s.lane l).rst.pmbT ≠ 0 ∧ tm + 1 < (s.lane l).rst.pmbT + 5000000) ∧
    (let s : State := withRst m3 fun r => { r with pmbT := 55000001, vTarget := 850 }
     let l : LaneId := .a
     let tm : Nat := 60000000
     (s.lane l).rst.pmbT ≠ 0 ∧ (s.lane l).rst.pmbT + 5000000 ≤ tm + 1 ∧ s.waking = false) ∧
    (let s : State := withRst (mPwr (.wake 4)) fun r => { r with pmbT := 55000001, vTarget := 850 }
     let l : LaneId := .a
     let tm : Nat := 60000000
     (s.lane l).rst.pmbT ≠ 0 ∧ (s.lane l).rst.pmbT + 5000000 ≤ tm + 1 ∧ s.waking = true ∧ (s.lane l).rst.pmbRetry < 3) ∧
    (let s : State := withRst (mPwr (.wake 4)) fun r => { r with pmbT := 55000001, pmbRetry := 3 }
     let l : LaneId := .a
     let tm : Nat := 60000000
     (s.lane l).rst.pmbT ≠ 0 ∧ (s.lane l).rst.pmbT + 5000000 ≤ tm + 1 ∧ s.waking = true ∧ 3 ≤ (s.lane l).rst.pmbRetry) ∧
    (let s : State := m0
     let l : LaneId := .a
     let v : Word := 800
     (s.lane l).rst.held = false ∧ (s.lane l).unarmed = true ∧ 800 ≤ bvField v 0 10 ∧ bvField v 0 10 ≤ 950 ∧ bvField v 0 10 % 5 = 0) ∧
    (let s : State := m0
     let l : LaneId := .a
     let v : Word := 955
     (s.lane l).rst.held = false ∧ ((s.lane l).unarmed = false ∨ bvField v 0 10 < 800 ∨ 950 < bvField v 0 10 ∨ bvField v 0 10 % 5 ≠ 0)) ∧
    (let s : State := m3
     let high : Bool := true
     s.hub.rst.held = false ∧ s.hub.hot = !high) ∧
    (let s : State := mCmd 0x0A03
     let r : CmdRef := ref0
     let c : HostCmd := cmdA 0x0A03
     s.activeCmd r 0x0A03 = some c ∧ s.voters ≠ []) ∧
    (let s : State := mSit 0x0A03
     let r : CmdRef := ref0
     let mask : Byte := 0x81
     let c : HostCmd := cmdA 0x0A03
     let l := .a
     s.activeCmd r 0x0A03 = some c ∧ s.voters = [] ∧ bvField mask 0 4 ≠ 0 ∧ (s.lane l).rst.held = false) ∧
    (let s : State := mSit 0x0A03
     let r : CmdRef := ref0
     let mask : Byte := 0x80
     let c : HostCmd := cmdA 0x0A03
     s.activeCmd r 0x0A03 = some c ∧ s.voters = [] ∧ bvField mask 0 4 = 0) ∧
    (let s : State := mPwr (.entry 1)
     let tm : Nat := 51000000
     let k := 0
     s.aon.pwr = .entry 1 ∧ s.aon.bistLanes = [] ∧ s.aon.entryT + 1000000 ≤ tm ∧ k < 6) ∧
    (let s : State := mPwr (.entry 1)
     let tm : Nat := 50999999
     s.aon.pwr = .entry 1 ∧ tm < s.aon.entryT + 1000000) ∧
    (let s : State := mPwr (.entry 2)
     let tm : Nat := 54000000
     s.aon.pwr = .entry 2 ∧ s.aon.entryT + 4000000 ≤ tm) ∧
    (let s : State := mPwr (.entry 3)
     let tm : Nat := 55000000
     s.aon.pwr = .entry 3 ∧ s.aon.bistHub = false ∧ s.aon.entryT + 5000000 ≤ tm) ∧
    (let s : State := mPwr (.entry 4)
     let tm : Nat := 62000000
     let o := 0x08E00000
     s.aon.pwr = .entry 4 ∧ s.aon.entryT + 12000000 ≤ tm ∧ 0x08E00000 ≤ o ∧ s.aon.wakeLatched = 0) ∧
    (let s : State := { mPwr (.entry 4) with aon := { (mPwr (.entry 4)).aon with wakeLatched := 1 } }
     let tm : Nat := 62000000
     s.aon.pwr = .entry 4 ∧ s.aon.entryT + 12000000 ≤ tm ∧ s.aon.wakeLatched ≠ 0) ∧
    (let s : State := { mPwr (.entry 1) with aon := { (mPwr (.entry 1)).aon with bistLanes := [.b] } }
     s.aon.pwr = .entry 1 ∧ s.aon.bistLanes ≠ []) ∧
    (let s : State := { mPwr (.entry 3) with aon := { (mPwr (.entry 3)).aon with bistHub := true } }
     s.aon.pwr = .entry 3 ∧ s.aon.bistHub = true) ∧
    (let s : State := { mPwr .hibernate with hub := m0.hub.fset PWRC_WAKE_MASK 5 }
     let src : BitVec 4 := 3
     let tm : Nat := 60000000
     let m := (s.at tm).wakeSrc src
     m ≠ 0 ∧ (s.aon.pwr = .hibernate ∨ s.aon.pwr = .failed)) ∧
    (let s : State := { mPwr .hibernate with hub := m0.hub.fset PWRC_WAKE_MASK 5 }
     let src : BitVec 4 := 2
     let tm : Nat := 60000000
     let m := (s.at tm).wakeSrc src
     m = 0) ∧
    (let s : State := { mPwr (.entry 3) with hub := m0.hub.fset PWRC_WAKE_MASK 5 }
     let k := 3
     s.aon.pwr = .entry k) ∧
    (let s : State := { mPwr .run with hub := m0.hub.fset PWRC_WAKE_MASK 5 }
     s.aon.pwr = .run) ∧
    (let s : State := mPwr (.wake 0)
     s.aon.pwr = .wake 0 ∧ s.hub.up = true) ∧
    (let s : State := { mPwr (.wake 0) with hub := { (mPwr (.wake 0)).hub with up := false } }
     s.aon.pwr = .wake 0 ∧ s.hub.up = false) ∧
    (let s : State := mPwr (.wake 1)
     s.aon.pwr = .wake 1) ∧
    (let s : State := mPwr (.wake 3)
     let tm : Nat := 60000000
     s.aon.pwr = .wake 3 ∧ s.aon.entryT + 1000000 ≤ tm) ∧
    (let s : State := mPwr (.wake 3)
     let tm : Nat := 50999999
     s.aon.pwr = .wake 3 ∧ tm < s.aon.entryT + 1000000) ∧
    (let s : State := { mPwr (.wake 0) with hub := { (hubReset.fset HSRAM_STAT_FROZEN 1) with rst := ready0 } }
     let tm : Nat := 60000000
     let n := 0
     s.waking = true ∧ s.hub.rst.mayRelease .hub tm = true ∧ s.aon.resetNLow = none ∧ n < 4) ∧
    (let s : State := m0
     let l : LaneId := .a
     let kind : Nat := 2
     let lfail : Bool := true
     let k := .b
     (s.lane l).rst.held = false ∧ s.aon.pwr = .run ∧ kind ≠ 1 ∧ k ≠ l ∧ ((s.lane l).unarmed = true ∨ (s.lane l).joining = true) ∧
     kind = 2 ∧ lfail = true) ∧
    (let s : State := m0
     let l : LaneId := .a
     let kind : Nat := 3
     (s.lane l).rst.held = false ∧ s.aon.pwr = .run ∧ kind ≠ 1 ∧ ((s.lane l).unarmed = true ∨ (s.lane l).joining = true) ∧ kind = 3) ∧
    (let s : State := m3
     let l : LaneId := .a
     let kind : Nat := 3
     (s.lane l).rst.held = false ∧ s.aon.pwr = .run ∧ kind ≠ 1 ∧ (s.lane l).unarmed = false ∧ (s.lane l).joining = false) := by
  and_intros <;> decide +kernel

theorem witness_SuppliesAndHibernationGoInOrder_0 :
    (let s : State := m3
     let l : LaneId := .a
     let k := .b
     (s.lane l).rst.held = false ∧ (s.lane l).inVote = true ∧ (s.lane l).easy = false ∧ ((∃ y, ((y ≠ l) ∧ ((s.lane y).inVote = true)))) ∧
     k ≠ l) := by
  and_intros <;> first
    | exact ⟨.b, by decide +kernel⟩
    | decide +kernel

theorem witness_SuppliesAndHibernationGoInOrder_33 :
    (let s : State := eachLane (mPwr (.wake 5)) fun x => x.fset PWRC_STAT_ACK 1
     s.aon.pwr = .wake 5 ∧ ((∀ l, (((s.lane l).rst.held = false) ∧ ((s.lane l).on PWRC_STAT_ACK = true))))) := by
  and_intros <;> first
    | (intro k; cases k <;> decide +kernel)
    | decide +kernel

end Sys2Proof.Tests
end

section
/-! PROOFS. The statements of the stroke cycle on TMR_STROKE_WRITE (R74) and START_TIMEOUT (R49), after the rules they need: frames of
register writes in a lane, and what easy all does to a lane and to a module. -/

namespace Sys2Proof.Machine

/-! ### Frames of register writes -/

theorem Lane.OnlyRegs.refl (x : Lane) (as : List Nat) : x.OnlyRegs x as := ⟨rfl, fun _ _ => rfl⟩

theorem Lane.OnlyRegs.trans {x y z : Lane} {as : List Nat} (hxy : x.OnlyRegs y as) (hyz : y.OnlyRegs z as) : x.OnlyRegs z as := by
  obtain ⟨exy, kxy⟩ := hxy
  obtain ⟨eyz, kyz⟩ := hyz
  refine ⟨?_, fun a ha => (kyz a ha).trans (kxy a ha)⟩
  rw [exy] at eyz
  exact eyz

/-- A write of a field changes its register only. -/
theorem Lane.onlyRegs_fset (x : Lane) {f : Fld} {as : List Nat} (v : Nat) (hf : f.addr ∈ as) : x.OnlyRegs (x.fset f v) as :=
  ⟨rfl, fun _ ha => x.rg_fset_ne v fun e => ha (e ▸ hf)⟩

/-- Handing on a lane's submissions is within every frame of registers. -/
theorem Lane.OnlyRegs.notes {x y : Lane} {as : List Nat} (h : x.OnlyRegs y as) (ns : List RecNote) : x.OnlyRegs { y with notes := ns } as :=
  h.trans ⟨rfl, fun _ _ => rfl⟩

/-- What a field reads depends on the registers alone. -/
theorem Lane.fget_of_reg_eq {x y : Lane} (h : x.reg = y.reg) (f : Fld) : x.fget f = y.fget f := by
  simp only [Lane.fget, Lane.rg, h]

/-! ### The write of TMR_STROKE (R40, R74) -/

theorem Lane.unarmed_iff (x : Lane) : x.unarmed = true ↔ x.sitReady = true ∧ x.armed = false := by
  simp [Lane.unarmed]

/-- The limits of R40 on the two fields of a value for `TMR_STROKE`. -/
def strokeFits (v : Word) : Prop :=
  10 ≤ bvField v 0 10 ∧ bvField v 0 10 ≤ 1000 ∧ 10 ≤ bvField v 16 12 ∧ bvField v 16 12 ≤ 4 * bvField v 0 10

theorem Lane.strokeWrite_of_not_unarmed {x : Lane} (v : Word) (h : ¬ x.unarmed = true) : x.strokeWrite v = x := by
  simp [Lane.strokeWrite, h]

theorem Lane.strokeWrite_of_fits {x : Lane} {v : Word} (h : x.unarmed = true) (hv : strokeFits v) :
    x.strokeWrite v = (x.fset TMR_STROKE_PERIOD (bvField v 0 10)).fset TMR_STROKE_CDL (bvField v 16 12) := by
  rw [strokeFits] at hv
  simp only [Lane.strokeWrite, h, hv, Bool.not_true, Bool.false_eq_true, and_self, if_true, if_false]

theorem Lane.strokeWrite_of_not_fits {x : Lane} {v : Word} (h : x.unarmed = true) (hv : ¬ strokeFits v) :
    x.strokeWrite v = x.fset TMR_STAT_CFG_ERR 1 := by
  rw [strokeFits] at hv
  simp only [Lane.strokeWrite, h, hv, Bool.not_true, Bool.false_eq_true, if_false]

theorem Lane.strokeWrite_onlyRegs (x : Lane) (v : Word) : x.OnlyRegs (x.strokeWrite v) [TMR_STROKE, TMR_STAT] := by
  by_cases h : x.unarmed = true
  · by_cases hv : strokeFits v
    · rw [Lane.strokeWrite_of_fits h hv]
      exact (x.onlyRegs_fset _ (by simp [TMR_STROKE_PERIOD])).trans (Lane.onlyRegs_fset _ _ (by simp [TMR_STROKE_CDL]))
    · rw [Lane.strokeWrite_of_not_fits h hv]
      exact x.onlyRegs_fset _ (by simp [TMR_STAT_CFG_ERR])
  · rw [Lane.strokeWrite_of_not_unarmed v h]
    exact .refl x _

/-- A write within the limits sets both fields: neither loses bits to its width, and the second leaves the first. -/
theorem Lane.strokeWrite_sets {x : Lane} {v : Word} (h : x.unarmed = true) (hv : strokeFits v) :
    (x.strokeWrite v).fget TMR_STROKE_PERIOD = bvField v 0 10 ∧ (x.strokeWrite v).fget TMR_STROKE_CDL = bvField v 16 12 ∧
      (x.strokeWrite v).rg TMR_STAT = x.rg TMR_STAT := by
  have hp : bvField v 0 10 < 2 ^ 10 := getField_lt _ _ _
  have hd : bvField v 16 12 < 2 ^ 12 := getField_lt _ _ _
  rw [Lane.strokeWrite_of_fits h hv]
  refine ⟨?_, ?_, ?_⟩
  · rw [Lane.fget_fset_bits _ _ (by decide) (by decide) (by decide), Lane.fget_fset_same _ _ _ (by decide)]
    exact Nat.mod_eq_of_lt hp
  · rw [Lane.fget_fset_same _ _ _ (by decide)]
    exact Nat.mod_eq_of_lt hd
  · rw [Lane.rg_fset_ne _ _ (by decide), Lane.rg_fset_ne _ _ (by decide)]

theorem Lane.strokeWrite_refuses {x : Lane} {v : Word} (h : x.unarmed = true) (hv : ¬ strokeFits v) :
    (x.strokeWrite v).rg TMR_STROKE = x.rg TMR_STROKE ∧ (x.strokeWrite v).on TMR_STAT_CFG_ERR = true := by
  rw [Lane.strokeWrite_of_not_fits h hv]
  refine ⟨x.rg_fset_ne _ (by decide), ?_⟩
  rw [Lane.on, Lane.fget_fset_same _ _ _ (by decide)]
  rfl

/-! ### Easy all in a lane (R177 to R180) -/

theorem Lane.easy_eq_false_of_sitReady {x : Lane} (h : x.sitReady = true) : x.easy = false := by
  simp_all [Lane.sitReady, Lane.easy, modeSitReady, modeEasy]

/-- The register writes of the entry into easy all, after those of the readmission: `sign` is the sign enable that remains (R174, R177 to
R179). -/
def Lane.easyRegs (x : Lane) (sign cause : Nat) (peer : Bool) : Lane :=
  ((((((((x.fset VOTE_STAT_DYN_EN 0).fset VOTE_STAT_MODE modeEasy).fset VOTE_STAT_INVOTE 0).fset VOTE_STAT_INSET 0).fset
    VOTE_STAT_SIGN_EN sign).fset VOTE_EASY_CAUSE cause).fset VOTE_EASY_PEER (b2n peer)).raise 2).fset RLE_STAT_BUSY 0

theorem Lane.easyRegs_fget_mode (x : Lane) (sign cause : Nat) (peer : Bool) : (x.easyRegs sign cause peer).fget VOTE_STAT_MODE = modeEasy := by
  simp (disch := decide) only [Lane.easyRegs, Lane.fget_fset_addr, Lane.fget_fset_bits, Lane.fget_raise_ne, Lane.fget_fset_same]
  rfl

theorem Lane.easyRegs_fget_dynEn (x : Lane) (sign cause : Nat) (peer : Bool) : (x.easyRegs sign cause peer).fget VOTE_STAT_DYN_EN = 0 := by
  simp (disch := decide) only [Lane.easyRegs, Lane.fget_fset_addr, Lane.fget_fset_bits, Lane.fget_raise_ne, Lane.fget_fset_same]
  rfl

theorem Lane.easyRegs_fget_cause (x : Lane) (sign cause : Nat) (peer : Bool) :
    (x.easyRegs sign cause peer).fget VOTE_EASY_CAUSE = cause % 2 ^ 8 := by
  simp (disch := decide) only [Lane.easyRegs, Lane.fget_fset_addr, Lane.fget_fset_bits, Lane.fget_raise_ne, Lane.fget_fset_same]
  rfl

section Entry

variable {x : Lane} (split : Bool) (cause : Nat) (peer : Bool) (h : x.easy = false)

include h

theorem Lane.enterEasy_reg :
    (x.enterEasy split cause peer).reg = ((x.abandonReadm 0x06).easyRegs (b2n (x.inVote && !split)) cause peer).reg := by
  simp only [Lane.enterEasy, h, Bool.false_eq_true, if_false]
  generalize x.abandonReadm 0x06 = z
  simp only [Lane.easyRegs, Lane.stopDyn, Lane.sendNotice, Lane.raise, Lane.fset, Lane.setRg, Lane.rg]

theorem Lane.enterEasy_fget (f : Fld) :
    (x.enterEasy split cause peer).fget f = ((x.abandonReadm 0x06).easyRegs (b2n (x.inVote && !split)) cause peer).fget f :=
  Lane.fget_of_reg_eq (Lane.enterEasy_reg split cause peer h) f

theorem Lane.enterEasy_easy : (x.enterEasy split cause peer).easy = true := by
  rw [Lane.easy, Lane.mode, Lane.enterEasy_fget split cause peer h, Lane.easyRegs_fget_mode]
  rfl

theorem Lane.enterEasy_fget_cause : (x.enterEasy split cause peer).fget VOTE_EASY_CAUSE = cause % 2 ^ 8 := by
  rw [Lane.enterEasy_fget split cause peer h, Lane.easyRegs_fget_cause]

theorem Lane.enterEasy_dynEn : (x.enterEasy split cause peer).on VOTE_STAT_DYN_EN = false := by
  rw [Lane.on, Lane.enterEasy_fget split cause peer h, Lane.easyRegs_fget_dynEn]
  rfl

theorem Lane.enterEasy_dyn : (x.enterEasy split cause peer).fld.dyn = 0 := by
  simp only [Lane.enterEasy, h, Bool.false_eq_true, if_false]
  generalize x.abandonReadm 0x06 = z
  simp only [Lane.stopDyn, Lane.sendNotice, Lane.raise, Lane.fset, Lane.setRg]

end Entry

/-! ### Easy all in a module -/

theorem State.up_of_not_held {s : State} {l : LaneId} (h : (s.lane l).rst.held = false) : (s.lane l).up = true := by
  simp [Lane.up, h]

theorem State.enterEasy_hub (s : State) (l : LaneId) (cause : Nat) (peer : Bool) : (s.enterEasy l cause peer).hub = s.hub := by
  unfold State.enterEasy
  split
  · exact s.modLane_hub l _
  · rfl

theorem State.enterEasy_field (s : State) (l : LaneId) (cause : Nat) (peer : Bool) : (s.enterEasy l cause peer).field = s.field := by
  unfold State.enterEasy
  split
  · exact s.modLane_field l _
  · rfl

theorem State.enterEasy_split (s : State) (l : LaneId) (cause : Nat) (peer : Bool) : (s.enterEasy l cause peer).split = s.split := by
  unfold State.enterEasy
  split
  · exact congrArg Fuses.split (s.modLane_fuses l _)
  · rfl

@[simp] theorem State.markEasy_lane (s : State) (l : LaneId) : s.markEasy.lane l = s.lane l := by cases l <;> rfl

theorem State.enterEasy_lane_same (s : State) (l : LaneId) (cause : Nat) (peer : Bool) :
    (s.enterEasy l cause peer).lane l = if (s.lane l).up then (s.lane l).enterEasy s.split cause peer else s.lane l := by
  unfold State.enterEasy
  split
  · rw [State.markEasy_lane, State.lane_modLane]
  · rfl

theorem State.enterEasy_lane_ne (s : State) {l k : LaneId} (cause : Nat) (peer : Bool) (h : k ≠ l) :
    (s.enterEasy l cause peer).lane k = s.lane k := by
  unfold State.enterEasy
  split
  · rw [State.markEasy_lane, s.lane_modLane_ne _ h]
  · rfl

/-- The lanes of a list enter easy all one after another, with one cause. -/
def State.enterEasyAll (s : State) (ls : List LaneId) (cause : Nat) : State :=
  ls.foldl (fun (s : State) l => s.enterEasy l cause false) s

theorem State.enterEasyAll_hub (ls : List LaneId) (cause : Nat) (s : State) : (s.enterEasyAll ls cause).hub = s.hub := by
  induction ls generalizing s with
  | nil => rfl
  | cons l ls ih => exact (ih _).trans (s.enterEasy_hub l cause false)

theorem State.enterEasyAll_field (ls : List LaneId) (cause : Nat) (s : State) : (s.enterEasyAll ls cause).field = s.field := by
  induction ls generalizing s with
  | nil => rfl
  | cons l ls ih => exact (ih _).trans (s.enterEasy_field l cause false)

theorem State.enterEasyAll_lane_of_not_mem {l : LaneId} (ls : List LaneId) (cause : Nat) (s : State) (h : l ∉ ls) :
    (s.enterEasyAll ls cause).lane l = s.lane l := by
  induction ls generalizing s with
  | nil => rfl
  | cons k ls ih =>
    obtain ⟨hk, hls⟩ := List.ne_and_not_mem_of_not_mem_cons h
    exact (ih _ hls).trans (s.enterEasy_lane_ne cause false hk)

/-- Each lane of the list enters from the state it was in: the entries before its own leave it, and those after leave it again. -/
theorem State.enterEasyAll_lane_of_mem {l : LaneId} (ls : List LaneId) (cause : Nat) (s : State) (hn : ls.Nodup) (hl : l ∈ ls)
    (hup : (s.lane l).up = true) : (s.enterEasyAll ls cause).lane l = (s.lane l).enterEasy s.split cause false := by
  induction ls generalizing s with
  | nil => exact absurd hl List.not_mem_nil
  | cons k ls ih =>
    obtain ⟨hk, hn'⟩ := List.nodup_cons.1 hn
    rw [show s.enterEasyAll (k :: ls) cause = (s.enterEasy k cause false).enterEasyAll ls cause from rfl]
    by_cases e : l = k
    · subst e
      rw [State.enterEasyAll_lane_of_not_mem ls cause _ hk, s.enterEasy_lane_same, if_pos hup]
    · have hlane : (s.enterEasy k cause false).lane l = s.lane l := s.enterEasy_lane_ne cause false e
      rw [ih _ hn' ((List.mem_cons.1 hl).resolve_left e) (by rw [hlane]; exact hup), hlane, s.enterEasy_split]

/-! ### The start timeout (R49) -/

/-- A lane that the start timeout at `tm` takes: out of reset, in sit ready, released 30 s before. -/
def State.startDue (s : State) (tm : Nat) (l : LaneId) : Bool :=
  (s.lane l).up && (s.lane l).sitReady && decide ((s.lane l).start.release + 30000000000 ≤ tm)

theorem State.startDue_iff (s : State) (tm : Nat) (l : LaneId) :
    s.startDue tm l = true ↔ (s.lane l).rst.held = false ∧ (s.lane l).sitReady = true ∧ (s.lane l).start.release + 30000000000 ≤ tm := by
  simp [State.startDue, Lane.up, and_assoc]

/-- In sit ready, with fewer than two lanes paired, the start timeout takes the module's due lanes into easy all. -/
theorem State.startTimeout_of_unpaired {s : State} (tm : Nat) (hs : s.modSitReady = true) (hp : ∀ l, (s.lane l).start.paired.length < 2) :
    s.startTimeout tm = s.enterEasyAll (allLanes.filter (s.startDue tm)) easyStartTimeout := by
  have hpair : (allLanes.any fun l => (s.lane l).up && decide (2 ≤ (s.lane l).start.paired.length)) = false := by
    simp [List.any_eq_false, hp]
  unfold State.startTimeout
  simp only [hpair, hs, Bool.not_true, Bool.or_false, Bool.false_eq_true, if_false]
  rfl

theorem mem_filter_allLanes (p : LaneId → Bool) (l : LaneId) : l ∈ allLanes.filter p ↔ p l = true := by
  have : l ∈ allLanes := by cases l <;> decide
  simp [List.mem_filter, this]

theorem nodup_filter_allLanes (p : LaneId → Bool) : (allLanes.filter p).Nodup := List.Nodup.filter p (by decide)

/-- What the start timeout leaves of a lane that stands in sit ready: easy all with its cause, every dynamic signal stopped. -/
theorem State.startTimeout_lane_of_due {s : State} {tm : Nat} {l : LaneId} (hs : s.modSitReady = true)
    (hp : ∀ l, (s.lane l).start.paired.length < 2) (hd : s.startDue tm l = true) :
    (s.startTimeout tm).lane l = (s.lane l).enterEasy s.split easyStartTimeout false := by
  rw [State.startTimeout_of_unpaired tm hs hp]
  exact State.enterEasyAll_lane_of_mem _ _ s (nodup_filter_allLanes _) ((mem_filter_allLanes _ l).2 hd)
    (State.up_of_not_held ((s.startDue_iff tm l).1 hd).1)

theorem State.startTimeout_lane_of_held {s : State} (tm : Nat) {l : LaneId} (hs : s.modSitReady = true)
    (hp : ∀ l, (s.lane l).start.paired.length < 2) (hl : (s.lane l).rst.held = true) : (s.startTimeout tm).lane l = s.lane l := by
  rw [State.startTimeout_of_unpaired tm hs hp]
  refine State.enterEasyAll_lane_of_not_mem _ _ s fun hm => ?_
  have hup := ((s.startDue_iff tm l).1 ((mem_filter_allLanes _ l).1 hm)).1
  rw [hl] at hup
  cases hup

theorem exec_tmrStrokeWrite (l : LaneId) (v : Word) (s : State) : exec (.tmrStrokeWrite l v) s = .next (s.upLane l (·.strokeWrite v)) := rfl

theorem exec_startTimeout (tm : Nat) (s : State) : exec (.startTimeout tm) s = .next ((s.at tm).startTimeout tm) := rfl

/-! ### The statements -/

/-- Settles O7: the change of the lane is `Lane.strokeWrite`, whose three cases are those of R74. -/
theorem strokeSettingsWritableOnlyBeforeArming : Obligations.StrokeSettingsWritableOnlyBeforeArming := by
  intro s l v hup
  obtain ⟨honly, hlane⟩ := s.upLane_next l (·.strokeWrite v) hup
  refine ⟨_, exec_tmrStrokeWrite l v s, honly, ?_⟩
  rw [hlane]
  refine ⟨((s.lane l).strokeWrite_onlyRegs v).notes [], ?_, ?_, ?_⟩
  · rintro ⟨hfree, hfits⟩
    exact Lane.strokeWrite_sets ((Lane.unarmed_iff _).2 hfree) hfits
  · rintro ⟨hfree, hfits⟩
    exact Lane.strokeWrite_refuses ((Lane.unarmed_iff _).2 hfree) hfits
  · intro hfree
    rw [Lane.strokeWrite_of_not_unarmed v (mt (Lane.unarmed_iff _).1 hfree)]

/-- Settles O9: a lane in sit ready is due 30 s after its release, and enters easy all from the state it was in; one held in reset is never
due. -/
theorem startTimeoutEntersEasyAll : Obligations.StartTimeoutEntersEasyAll := by
  intro s tm hs hpair hrel
  have hs' : (s.at tm).modSitReady = true := hs
  have hpair' : ∀ l, ((s.at tm).lane l).start.paired.length < 2 := fun l => by rw [s.at_lane]; exact hpair l
  refine ⟨_, exec_startTimeout tm s, ?_, ?_, fun l => ⟨fun hup hsit => ?_, fun hheld => ?_⟩⟩
  · rw [State.startTimeout_of_unpaired tm hs' hpair', State.enterEasyAll_hub, State.at_hub]
  · rw [State.startTimeout_of_unpaired tm hs' hpair', State.enterEasyAll_field, State.at_field]
  · have hdue : (s.at tm).startDue tm l = true := by
      rw [State.startDue_iff, s.at_lane]
      exact ⟨hup, hsit, hrel l⟩
    have hne := Lane.easy_eq_false_of_sitReady hsit
    rw [State.startTimeout_lane_of_due hs' hpair' hdue, s.at_lane]
    exact ⟨Lane.enterEasy_easy _ _ _ hne, Lane.enterEasy_fget_cause _ _ _ hne, Lane.enterEasy_dynEn _ _ _ hne,
      Lane.enterEasy_dyn _ _ _ hne⟩
  · rw [State.startTimeout_lane_of_held tm hs' hpair' (by rw [s.at_lane]; exact hheld), s.at_lane]

end Sys2Proof.Machine
end

section
/-! PROOFS. The writes of `RLE_CMD` that the route engine refuses (R103), after the rules they need: what setting a flag of `RLE_STAT` does to
a lane, when hardware sets nothing in the clock of a write, and how a firmware access reaches the control registers of the engine. -/

namespace Sys2Proof.Machine

/-! ### Flags of the route engine -/

theorem Lane.onlyRegs_setRg (x : Lane) {a : Nat} {as : List Nat} (v : Word) (ha : a ∈ as) : x.OnlyRegs (x.setRg a v) as :=
  ⟨rfl, fun _ hb => x.rg_setRg_ne v fun e => hb (e ▸ ha)⟩

/-- A flag sets its bit, and raises the RLE interrupt where that is enabled. -/
theorem Lane.rleFlag_cases (x : Lane) (f : Fld) : x.rleFlag f = x.fset f 1 ∨ x.rleFlag f = (x.fset f 1).raise 4 := by
  unfold Lane.rleFlag
  split <;> split
  · exact .inr rfl
  · exact .inl rfl
  · exact .inr rfl
  · exact .inl rfl

theorem Lane.rleFlag_onlyRegs (x : Lane) {f : Fld} (hf : f.addr = RLE_STAT) : x.OnlyRegs (x.rleFlag f) [RLE_STAT, LCTL_IRQ_PEND] := by
  have hset : x.OnlyRegs (x.fset f 1) [RLE_STAT, LCTL_IRQ_PEND] := x.onlyRegs_fset 1 (by simp [hf])
  rcases x.rleFlag_cases f with h | h <;> rw [h]
  · exact hset
  · exact hset.trans (Lane.onlyRegs_setRg _ _ (by simp))

/-- Outside the interrupt register, a flag shows as the write of its bit alone. -/
theorem Lane.fget_rleFlag (x : Lane) {f g : Fld} (hg : g.addr ≠ LCTL_IRQ_PEND) : (x.rleFlag f).fget g = (x.fset f 1).fget g := by
  rcases x.rleFlag_cases f with h | h <;> rw [h]
  exact Lane.fget_raise_ne _ _ hg

theorem Lane.on_rleFlag_busErr (x : Lane) : (x.rleFlag RLE_STAT_BUS_ERR).on RLE_STAT_BUS_ERR = true := by
  rw [Lane.on, Lane.fget_rleFlag _ (by decide), Lane.fget_fset_same _ _ _ (by decide)]
  rfl

theorem Lane.busy_rleFlag_busErr (x : Lane) : (x.rleFlag RLE_STAT_BUS_ERR).on RLE_STAT_BUSY = x.on RLE_STAT_BUSY := by
  rw [Lane.on, Lane.fget_rleFlag _ (by decide), Lane.fget_fset_bits _ _ (by decide) (by decide) (by decide), Lane.on]

/-! ### Hardware sets in the clock of a write (R7) -/

/-- In a register without a RW1C bit hardware sets nothing. -/
theorem Lane.hwSet_onlyRegs_of_no_w1c (x : Lane) {a : Nat} (hw : Word) (h : (descOf laneRegs a).all (·.w1c == 0) = true) :
    x.OnlyRegs (x.hwSet a hw) [] := by
  unfold Lane.hwSet
  split
  next d hd =>
    have hd0 : d.w1c = 0 := by simpa [hd] using h
    split
    · exact .refl x []
    · refine ⟨rfl, fun b _ => ?_⟩
      by_cases hb : b = a
      · subst hb
        simp [hd0]
      · exact x.rg_setRg_ne _ hb
  next => exact .refl x []

theorem Lane.OnlyRegs.mono {x y : Lane} {as bs : List Nat} (h : x.OnlyRegs y as) (hs : as ⊆ bs) : x.OnlyRegs y bs :=
  ⟨h.1, fun a ha => h.2 a fun hm => ha (hs hm)⟩

theorem Lane.OnlyRegs.on_of_nil {x y : Lane} (h : x.OnlyRegs y []) (f : Fld) : y.on f = x.on f := by
  rw [Lane.on, Lane.fget, h.2 _ List.not_mem_nil, Lane.on, Lane.fget]

/-- A change of a lane, then hardware's sets in a register without a RW1C bit: every register reads as after the change alone. -/
theorem State.upLane_hwSet_of_no_w1c {s : State} {l : LaneId} {f : Lane → Lane} {a : Nat} (hw : Word)
    (ha : (descOf laneRegs a).all (·.w1c == 0) = true) (hup : (s.lane l).rst.held = false) (hf : (f (s.lane l)).rst.held = false) :
    s.OnlyLane ((s.upLane l f).upLane l (·.hwSet a hw)) l ∧
      (f (s.lane l)).OnlyRegs (((s.upLane l f).upLane l (·.hwSet a hw)).lane l) [] := by
  obtain ⟨hchange, hlane⟩ := s.upLane_next l f hup
  have hup' : ((s.upLane l f).lane l).rst.held = false := by rw [hlane]; exact hf
  obtain ⟨hsets, hlane'⟩ := (s.upLane l f).upLane_next l (·.hwSet a hw) hup'
  refine ⟨hchange.trans hsets, ?_⟩
  rw [hlane', hlane]
  exact ((Lane.OnlyRegs.refl _ _).notes []).trans ((Lane.hwSet_onlyRegs_of_no_w1c _ hw ha).notes [])

theorem rleCmd_no_w1c : (descOf laneRegs RLE_CMD).all (·.w1c == 0) = true := by decide

/-! ### Firmware's accesses to the control registers of the route engine -/

theorem State.trapOnError_of_no_error {s : State} (l : LaneId) (a : Word) (write : Bool) (h : s.bus ≠ .error) :
    s.trapOnError l a write = s := by
  simp [State.trapOnError, h]

theorem exec_registerWrite_lane (l : LaneId) (addr : Word) (acc : Access) (env : AccessEnv) (s : State) :
    exec (.registerWrite (.lane l) addr acc env) s = .next (s.laneAccess l addr.toNat .word acc env) := rfl

theorem State.laneAccess_firmware {s : State} {l : LaneId} (a : Nat) (w : Width) (acc : Access) {env : AccessEnv}
    (hup : (s.lane l).rst.held = false) (hsrc : env.src = .firmware) (hbus : (s.laneReach l a w acc env).bus ≠ .error) :
    s.laneAccess l a w acc env = s.laneReach l a w acc env := by
  simp only [State.laneAccess, hup, hsrc, Bool.false_eq_true, if_false]
  exact State.trapOnError_of_no_error l _ _ hbus

theorem State.laneReach_rleCmd_write (s : State) (l : LaneId) (v : Word) (env : AccessEnv) :
    s.laneReach l RLE_CMD .word (.write v) env = ((s.rleCtlWrite l RLE_CMD v).upLane l (·.hwSet RLE_CMD env.hw)).busOk := rfl

/-- The answer of an access is on the bus alone. -/
theorem State.OnlyLane.busOk {s u : State} {l : LaneId} (h : s.OnlyLane u l) : s.OnlyLane { u.busOk with bus := s.bus } l := by
  obtain ⟨hlanes, hhub, hrest⟩ := h
  refine ⟨fun k hk => ?_, hhub, ?_⟩
  · cases k <;> exact hlanes _ hk
  · rw [hrest]
    rfl

/-! ### The refused command (R103) -/

theorem Lane.startCheck_of_busy {x : Lane} (h : x.on RLE_STAT_BUSY = true) : x.startCheck = x.rleFlag RLE_STAT_BUS_ERR := by
  simp [Lane.startCheck, h]

theorem Lane.startStroke_of_busy {x : Lane} (h : x.on RLE_STAT_BUSY = true) : x.startStroke = x.rleFlag RLE_STAT_BUS_ERR := by
  simp [Lane.startStroke, h]

theorem State.upLane_congr {s : State} {l : LaneId} {f g : Lane → Lane} (h : f (s.lane l) = g (s.lane l)) : s.upLane l f = s.upLane l g := by
  simp only [State.upLane, State.modLane, h]

/-- Whichever bits a refused write sets, all that it does is to set `BUS_ERR`. -/
theorem State.rleCtlWrite_cmd_of_refused {s : State} {l : LaneId} {v : Word}
    (h : (s.lane l).on RLE_STAT_BUSY = true ∨ (v.getLsbD 0 = true ∧ v.getLsbD 1 = true)) :
    s.rleCtlWrite l RLE_CMD v = s.upLane l (·.rleFlag RLE_STAT_BUS_ERR) := by
  have hctrl : RLE_CMD ≠ RLE_CTRL := by decide
  refine State.upLane_congr ?_
  simp only [if_neg hctrl, if_true]
  rcases h with hbusy | ⟨hcheck, hstroke⟩
  · rw [Lane.startCheck_of_busy hbusy, Lane.startStroke_of_busy hbusy, hbusy]
    simp only [if_true, ite_self]
  · simp only [hcheck, hstroke, Bool.and_self, if_true]

/-- Settles O31: a refused write only sets `BUS_ERR`, and `RLE_CMD` has no bit for hardware to set in the same clock. -/
theorem commandWritesWhileBusySetBusErr : Obligations.CommandWritesWhileBusySetBusErr := by
  intro s l v env hup hsrc hrefused
  have hflag := (s.lane l).rleFlag_onlyRegs (f := RLE_STAT_BUS_ERR) rfl
  have hup' : ((s.lane l).rleFlag RLE_STAT_BUS_ERR).rst.held = false := by rw [hflag.1]; exact hup
  obtain ⟨honly, hlane⟩ := State.upLane_hwSet_of_no_w1c (f := (·.rleFlag RLE_STAT_BUS_ERR)) env.hw rleCmd_no_w1c hup hup'
  have hreach := s.laneReach_rleCmd_write l v env
  rw [State.rleCtlWrite_cmd_of_refused hrefused] at hreach
  have hbus : (s.laneReach l RLE_CMD .word (.write v) env).bus ≠ .error := by rw [hreach]; simp
  refine ⟨_, exec_registerWrite_lane l _ _ env s, ?_⟩
  rw [show (BitVec.ofNat 32 RLE_CMD).toNat = RLE_CMD from rfl, State.laneAccess_firmware _ _ _ hup hsrc hbus, hreach]
  simp only [State.busOk_lane, State.busOk_bus, true_and]
  refine ⟨honly.busOk, hflag.trans (hlane.mono (List.nil_subset _)), ?_, ?_, honly.1⟩
  · rw [hlane.on_of_nil]
    exact (s.lane l).on_rleFlag_busErr
  · rw [hlane.on_of_nil]
    exact (s.lane l).busy_rleFlag_busErr

end Sys2Proof.Machine
end

section
/-! PROOFS. The area bases of the route engine (R149), after the rules they need: what the two base registers have in common, and when a base
is refused. -/

namespace Sys2Proof.Machine

/-! ### Flags of the route engine -/

/-- A one-bit flag reads 1 once it is set. -/
theorem Lane.on_rleFlag_same (x : Lane) {f : Fld} (haddr : f.addr ≠ LCTL_IRQ_PEND) (hw : f.w = 1) (hlo : f.lo + f.w ≤ 32) :
    (x.rleFlag f).on f = true := by
  rw [Lane.on, Lane.fget_rleFlag _ haddr, Lane.fget_fset_same _ _ _ hlo, hw]
  rfl

/-! ### The base registers -/

/-- The base field of the output area when `out`, else of the input area. -/
def baseField (out : Bool) : Fld := if out then RLE_OUTBASE_BASE else RLE_INBASE_BASE

theorem baseField_w (out : Bool) : (baseField out).w = 15 := by cases out <;> rfl

theorem baseField_in_word (out : Bool) : (baseField out).lo + (baseField out).w ≤ 32 := by cases out <;> decide

theorem baseField_addr_ne_stat (out : Bool) : (baseField out).addr ≠ RLE_STAT := by cases out <;> decide

theorem baseField_addr_ne_irqPend (out : Bool) : (baseField out).addr ≠ LCTL_IRQ_PEND := by cases out <;> decide

/-- An area of 128 KiB lies outside lane SRAM when it begins below the first byte or ends above the last (R149, R415). -/
theorem baseOutside_iff (b : Nat) : baseOutside b = true ↔ b < 0x08000000 ∨ 0x09000000 < b + 0x20000 := by
  rw [baseOutside, inSram, Bool.not_eq_true', Bool.and_eq_false_iff, decide_eq_false_iff_not, decide_eq_false_iff_not, not_le, not_le]
  rfl

/-! ### The write of a base (R149) -/

/-- R149 refuses the base in `v`: the engine is locked, the area would leave lane SRAM, or it would be the other area. Bases are multiples
of the areas' size, so two areas overlap only where their bases are equal. -/
def Lane.BaseRefused (x : Lane) (out : Bool) (v : Word) : Prop :=
  x.on RLE_STAT_LOCKED = true ∨ bvField v 17 15 * 0x20000 < 0x08000000 ∨ 0x09000000 < bvField v 17 15 * 0x20000 + 0x20000 ∨
    bvField v 17 15 = x.fget (if out then RLE_INBASE_BASE else RLE_OUTBASE_BASE)

/-- The model's test of a base is the condition of R149. -/
theorem Lane.baseRefused_iff (x : Lane) (out : Bool) (v : Word) :
    (x.on RLE_STAT_LOCKED || baseOutside (bvField v 17 15 * 0x20000) ||
      bvField v 17 15 == x.fget (if out then RLE_INBASE_BASE else RLE_OUTBASE_BASE)) = true ↔ x.BaseRefused out v := by
  rw [Bool.or_eq_true, Bool.or_eq_true, baseOutside_iff, beq_iff_eq, Lane.BaseRefused, or_assoc, or_assoc]

theorem Lane.writeBase_of_refused {x : Lane} {out : Bool} {v : Word} (h : x.BaseRefused out v) :
    x.writeBase out v = x.rleFlag RLE_STAT_WR_IGN :=
  if_pos ((x.baseRefused_iff out v).2 h)

theorem Lane.writeBase_of_not_refused {x : Lane} {out : Bool} {v : Word} (h : ¬ x.BaseRefused out v) :
    x.writeBase out v = x.fset (baseField out) (bvField v 17 15) :=
  if_neg (mt (x.baseRefused_iff out v).1 h)

theorem Lane.writeBase_onlyRegs (x : Lane) (out : Bool) (v : Word) :
    x.OnlyRegs (x.writeBase out v) [(baseField out).addr, RLE_STAT, LCTL_IRQ_PEND] := by
  by_cases h : x.BaseRefused out v
  · rw [Lane.writeBase_of_refused h]
    exact (x.rleFlag_onlyRegs rfl).mono (List.subset_cons_self _ _)
  · rw [Lane.writeBase_of_not_refused h]
    exact x.onlyRegs_fset _ List.mem_cons_self

/-- A refused base leaves its register, which is neither `RLE_STAT` nor the interrupt register, and sets `WR_IGN`. -/
theorem Lane.writeBase_refuses {x : Lane} {out : Bool} {v : Word} (h : x.BaseRefused out v) :
    (x.writeBase out v).rg (baseField out).addr = x.rg (baseField out).addr ∧ (x.writeBase out v).on RLE_STAT_WR_IGN = true := by
  rw [Lane.writeBase_of_refused h]
  refine ⟨(x.rleFlag_onlyRegs rfl).2 _ ?_, x.on_rleFlag_same (by decide) rfl (by decide)⟩
  simp [baseField_addr_ne_stat, baseField_addr_ne_irqPend]

/-- A base that is taken fits its field, and `RLE_STAT` stays. -/
theorem Lane.writeBase_sets {x : Lane} {out : Bool} {v : Word} (h : ¬ x.BaseRefused out v) :
    (x.writeBase out v).fget (baseField out) = bvField v 17 15 ∧ (x.writeBase out v).rg RLE_STAT = x.rg RLE_STAT := by
  have hfits : bvField v 17 15 < 2 ^ 15 := getField_lt _ _ _
  rw [Lane.writeBase_of_not_refused h]
  refine ⟨?_, x.rg_fset_ne _ (baseField_addr_ne_stat out).symm⟩
  rw [Lane.fget_fset_same _ _ _ (baseField_in_word out), baseField_w]
  exact Nat.mod_eq_of_lt hfits

theorem exec_rleBaseWrite (l : LaneId) (out : Bool) (v : Word) (s : State) :
    exec (.rleBaseWrite l out v) s = .next (s.upLane l (·.writeBase out v)) := rfl

/-! ### A stroke with an area outside lane SRAM (R149) -/

/-- An area of the lane's route engine lies outside lane SRAM. -/
def Lane.AreaOutside (x : Lane) : Prop :=
  baseOutside (x.rg RLE_INBASE).toNat = true ∨ baseOutside (x.rg RLE_OUTBASE).toNat = true

theorem Lane.strokeRuns_of_areaOutside {x : Lane} (h : x.AreaOutside) : x.strokeRuns = false := by
  have hany : (baseOutside (x.rg RLE_INBASE).toNat || baseOutside (x.rg RLE_OUTBASE).toNat) = true := (Bool.or_eq_true _ _).mpr h
  simp only [Lane.strokeRuns, hany, Bool.not_true, Bool.and_false, Bool.false_and]

/-- Whether it is busy or not, the engine only sets `BUS_ERR`. -/
theorem Lane.startStroke_of_areaOutside {x : Lane} (h : x.AreaOutside) : x.startStroke = x.rleFlag RLE_STAT_BUS_ERR := by
  by_cases hbusy : x.on RLE_STAT_BUSY = true
  · exact Lane.startStroke_of_busy hbusy
  · rw [Lane.startStroke, if_neg hbusy, if_pos ((Bool.or_eq_true _ _).mpr h)]

/-- A stroke that does not run meets no error of memory. -/
theorem exec_rleStroke_of_not_runs {s : State} {l : LaneId} (ecc : EccHits) (h : (s.lane l).strokeRuns = false) :
    exec (.rleStroke l ecc) s = .next (s.upLane l Lane.startStroke) := by
  rw [show exec (.rleStroke l ecc) s = execRleStroke l ecc s from rfl, execRleStroke, h]
  rfl

/-! ### The statement -/

/-- Settles O24: the write of a base is `Lane.writeBase`, whose two cases are those of R149; a stroke with an area outside lane SRAM does not
run, and only sets `BUS_ERR`. -/
theorem areaBasesStayInsideLaneSramAndApart : Obligations.AreaBasesStayInsideLaneSramAndApart := by
  refine ⟨fun s l out v hup => ?_, fun s l ecc hup (hout : (s.lane l).AreaOutside) => ?_⟩
  · obtain ⟨honly, hlane⟩ := s.upLane_next l (·.writeBase out v) hup
    refine ⟨_, exec_rleBaseWrite l out v s, honly, ?_⟩
    rw [hlane]
    exact ⟨((s.lane l).writeBase_onlyRegs out v).notes [], Lane.writeBase_refuses, Lane.writeBase_sets⟩
  · obtain ⟨honly, hlane⟩ := s.upLane_next l Lane.startStroke hup
    rw [Lane.startStroke_of_areaOutside hout] at hlane
    refine ⟨_, exec_rleStroke_of_not_runs ecc (Lane.strokeRuns_of_areaOutside hout), honly, ?_⟩
    rw [hlane]
    exact ⟨((s.lane l).rleFlag_onlyRegs rfl).notes [], (s.lane l).on_rleFlag_busErr, (s.lane l).busy_rleFlag_busErr⟩

end Sys2Proof.Machine
end

section
/-! PROOFS. Traps, trap returns and system register accesses of a lane's cores (R188), after the rules they need: the bits of a core's `status`,
what each of the three does to one core, and which cores of a lane an instruction reaches (R184, R201). That each comes as a command, which in
lock-step acts on both cores, and that an access of a number R188 does not list is an illegal instruction, are the model's choice (Assumptions 85
and 99). -/

namespace Sys2Proof.Machine

/-! ### Bits of `status` -/

theorem CoreRegs.bit_setBit (c : CoreRegs) (k : Nat) (v : Bool) {j : Nat} (hj : j < 32) :
    (c.setBit k v).bit j = if j = k then v else c.bit j := by
  have hread : (c.setBit k v).bit j = (setField c.status.toNat k 1 (b2n v)).testBit j := by
    rw [CoreRegs.bit, CoreRegs.setBit, bvSet, BitVec.getLsbD_ofNat, decide_eq_true hj, Bool.true_and]
  rw [hread, setField_testBit]
  rcases Nat.lt_trichotomy j k with hlt | rfl | hgt
  · rw [if_pos hlt, if_neg (Nat.ne_of_lt hlt), CoreRegs.bit, BitVec.testBit_toNat]
  · rw [if_neg (Nat.lt_irrefl j), if_pos (Nat.lt_succ_self j), if_pos rfl, Nat.sub_self]
    cases v <;> rfl
  · rw [if_neg (Nat.lt_asymm hgt), if_neg (Nat.not_lt.2 hgt), if_neg (Nat.ne_of_gt hgt), CoreRegs.bit, BitVec.testBit_toNat]

theorem CoreRegs.bit_setBit_same (c : CoreRegs) {k : Nat} (v : Bool) (hk : k < 32) : (c.setBit k v).bit k = v := by
  rw [c.bit_setBit k v hk, if_pos rfl]

theorem CoreRegs.bit_setBit_ne (c : CoreRegs) {j k : Nat} (v : Bool) (hj : j < 32) (h : j ≠ k) : (c.setBit k v).bit j = c.bit j := by
  rw [c.bit_setBit k v hj, if_neg h]

/-- A bit of `status` depends on `status` alone. -/
theorem CoreRegs.bit_of_status_eq {c d : CoreRegs} (h : c.status = d.status) (k : Nat) : c.bit k = d.bit k := by
  rw [CoreRegs.bit, CoreRegs.bit, h]

/-! ### A trap and its return in one core (R188) -/

/-- `status` as a trap leaves it: the level saved, interrupts off, supervisor level, and a waiting core awake. -/
theorem CoreRegs.trap_status (c : CoreRegs) (cause tval : Word) :
    (c.trap cause tval).status =
      (((((c.setBit stPIE (c.bit stIE)).setBit stPSUP (c.bit stSUP)).setBit stIE false).setBit stSUP true).setBit stWAIT false).status := rfl

theorem CoreRegs.trap_saves (c : CoreRegs) (cause tval : Word) :
    (c.trap cause tval).bit stPIE = c.bit stIE ∧ (c.trap cause tval).bit stPSUP = c.bit stSUP := by
  simp (disch := decide) only [CoreRegs.bit_of_status_eq (c.trap_status cause tval), CoreRegs.bit_setBit_same, CoreRegs.bit_setBit_ne, and_self]

theorem CoreRegs.trap_level (c : CoreRegs) (cause tval : Word) :
    (c.trap cause tval).bit stIE = false ∧ (c.trap cause tval).bit stSUP = true := by
  simp (disch := decide) only [CoreRegs.bit_of_status_eq (c.trap_status cause tval), CoreRegs.bit_setBit_same, CoreRegs.bit_setBit_ne, and_self]

theorem CoreRegs.trapReturn_status (c : CoreRegs) :
    c.trapReturn.status = ((c.setBit stIE (c.bit stPIE)).setBit stSUP (c.bit stPSUP)).status := rfl

theorem CoreRegs.trapReturn_restores (c : CoreRegs) : c.trapReturn.bit stIE = c.bit stPIE ∧ c.trapReturn.bit stSUP = c.bit stPSUP := by
  simp (disch := decide) only [CoreRegs.bit_of_status_eq c.trapReturn_status, CoreRegs.bit_setBit_same, CoreRegs.bit_setBit_ne, and_self]

/-- The illegal instruction exception in a core `c`, which `d` has taken. -/
def CoreRegs.TookIllegal (c d : CoreRegs) (insn : Word) : Prop :=
  d.cause = 1 ∧ d.tval = insn ∧ d.epc = c.pc ∧ d.pc = c.tvec &&& 0xFFFFFF00 ∧ d.bit stSUP = true ∧ d.bit stIE = false

theorem CoreRegs.trap_tookIllegal (c : CoreRegs) (insn : Word) : c.TookIllegal (c.trap (BitVec.ofNat 32 excIllegal) insn) insn := by
  obtain ⟨hIE, hSUP⟩ := c.trap_level (BitVec.ofNat 32 excIllegal) insn
  exact ⟨rfl, rfl, rfl, rfl, hSUP, hIE⟩

/-! ### System register accesses in one core (R188) -/

/-- A write at user level, or of a register that software may not write, is an illegal instruction. -/
theorem CoreRegs.sysWrite_illegal {c : CoreRegs} {num : Nat} (v insn : Word)
    (h : c.bit stSUP = false ∨ (num ≠ 0 ∧ num ≠ 1 ∧ num ≠ 2 ∧ num ≠ 5)) :
    c.sysWrite num v insn = c.trap (BitVec.ofNat 32 excIllegal) insn := by
  refine if_pos ?_
  rcases h with huser | ⟨h0, h1, h2, h5⟩
  · rw [huser, Bool.not_false, Bool.true_or]
  · simp only [sysWritable, beq_eq_false_iff_ne.2, h0, h1, h2, h5, ne_eq, not_false_eq_true, Bool.or_false, Bool.not_false, Bool.or_true]

section Supervisor

variable {c : CoreRegs} (v insn : Word) (h : c.bit stSUP = true)

include h

theorem CoreRegs.sysWrite_status : c.sysWrite 0 v insn = { c with status := (v &&& 0x1B) ||| (c.status &&& 0x4) } := by
  simp [CoreRegs.sysWrite, sysWritable, h]

theorem CoreRegs.sysWrite_tvec : c.sysWrite 1 v insn = { c with tvec := v &&& 0xFFFFFF00 } := by
  simp [CoreRegs.sysWrite, sysWritable, h]

theorem CoreRegs.sysWrite_epc : c.sysWrite 2 v insn = { c with epc := v } := by
  simp [CoreRegs.sysWrite, sysWritable, h]

theorem CoreRegs.sysWrite_scratch : c.sysWrite 5 v insn = { c with scratch := v } := by
  simp [CoreRegs.sysWrite, sysWritable, h]

end Supervisor

theorem CoreRegs.sysRead_of_none {c : CoreRegs} {num : Nat} (rd : Nat) (insn : Word) (h : c.sysValue num = none) :
    c.sysRead num rd insn = c.trap (BitVec.ofNat 32 excIllegal) insn := by
  rw [CoreRegs.sysRead, h]

/-- A read of `cycle` or `instret` latches the high word of the count. -/
def CoreRegs.latchHigh (c : CoreRegs) (num : Nat) : CoreRegs :=
  if num = 0x010 then { c with cycleh := BitVec.ofNat 32 (c.cycle.toNat / 2 ^ 32) }
  else if num = 0x012 then { c with instreth := BitVec.ofNat 32 (c.instret.toNat / 2 ^ 32) } else c

theorem CoreRegs.sysRead_of_some {c : CoreRegs} {num : Nat} (rd : Nat) (insn : Word) {w : Word} (h : c.sysValue num = some w) :
    c.sysRead num rd insn = (c.latchHigh num).setG rd w := by
  rw [CoreRegs.sysRead, h]
  rfl

/-- A latch changes the two high words at most. -/
theorem CoreRegs.latchHigh_frame (c : CoreRegs) (num : Nat) :
    c.latchHigh num = { c with cycleh := (c.latchHigh num).cycleh, instreth := (c.latchHigh num).instreth } := by
  unfold CoreRegs.latchHigh
  split
  · rfl
  · split <;> rfl

/-- A write of a general register changes the general registers at most, and what it leaves there depends on them alone. -/
theorem CoreRegs.setG_frame (c : CoreRegs) (rd : Nat) (w : Word) : c.setG rd w = { c with g := (c.setG rd w).g } := by
  unfold CoreRegs.setG
  split <;> rfl

theorem CoreRegs.setG_g_of_g_eq {c d : CoreRegs} (h : c.g = d.g) (rd : Nat) (w : Word) : (c.setG rd w).g = (d.setG rd w).g := by
  unfold CoreRegs.setG
  split
  · exact h
  · exact congrArg (·.set rd w) h

theorem toNat_high_word (x : Dword) : (BitVec.ofNat 32 (x.toNat / 2 ^ 32)).toNat = x.toNat / 2 ^ 32 := by
  rw [BitVec.toNat_ofNat]
  exact Nat.mod_eq_of_lt (Nat.div_lt_of_lt_mul x.isLt)

theorem CoreRegs.latchHigh_cycleh (c : CoreRegs) : (c.latchHigh 0x010).cycleh.toNat = c.cycle.toNat / 2 ^ 32 := toNat_high_word c.cycle

theorem CoreRegs.latchHigh_instreth (c : CoreRegs) : (c.latchHigh 0x012).instreth.toNat = c.instret.toNat / 2 ^ 32 := toNat_high_word c.instret

/-- A read of a register that exists: the value goes to `rd`, the level and the place of the program stay, and a count's high word is latched. -/
theorem CoreRegs.sysRead_reads {c : CoreRegs} {num : Nat} (rd : Nat) (insn : Word) {w : Word} (h : c.sysValue num = some w) :
    (c.sysRead num rd insn).g = (c.setG rd w).g ∧ (c.sysRead num rd insn).pc = c.pc ∧ (c.sysRead num rd insn).status = c.status ∧
      (c.sysRead num rd insn).cycle = c.cycle ∧ (num = 0x10 → (c.sysRead num rd insn).cycleh.toNat = c.cycle.toNat / 2 ^ 32) ∧
      (num = 0x12 → (c.sysRead num rd insn).instreth.toNat = c.instret.toNat / 2 ^ 32) := by
  have hlatch := c.latchHigh_frame num
  have hg : ((c.latchHigh num).setG rd w).g = (c.setG rd w).g := CoreRegs.setG_g_of_g_eq (by rw [hlatch]) rd w
  rw [CoreRegs.sysRead_of_some rd insn h]
  refine ⟨hg, ?_⟩
  rw [CoreRegs.setG_frame]
  refine ⟨?_, ?_, ?_, ?_, ?_⟩
  · rw [hlatch]
  · rw [hlatch]
  · rw [hlatch]
  · rintro rfl
    exact c.latchHigh_cycleh
  · rintro rfl
    exact c.latchHigh_instreth

/-! ### The cores an instruction reaches (R184, R201) -/

/-- Lane `y` is lane `x` but for its cores, what it had for the recorder handed on. -/
def Lane.SameButCores (x y : Lane) : Prop := y = { x with core0 := y.core0, core1 := y.core1, notes := [] }

theorem Lane.SameButCores.trans {x y z : Lane} (hxy : x.SameButCores y) (hyz : y.SameButCores z) : x.SameButCores z := by
  rw [Lane.SameButCores] at *
  rw [hxy] at hyz
  exact hyz

theorem Lane.onCores_sameButCores (x : Lane) (split : Bool) (n : Nat) (f : CoreRegs → CoreRegs) :
    x.SameButCores { x.onCores split n f with notes := [] } := by
  unfold Lane.onCores
  split
  · split <;> rfl
  · rfl

/-- In lock-step both cores carry out an instruction; in split-core mode the one named does. -/
theorem Lane.core_onCores_reached (x : Lane) {split : Bool} {n k : Nat} (f : CoreRegs → CoreRegs) (h : split = false ∨ k = n) :
    (x.onCores split n f).core k = f (x.core k) := by
  unfold Lane.onCores Lane.core
  cases split with
  | false =>
    rw [if_neg Bool.false_ne_true]
    split <;> rfl
  | true =>
    obtain rfl : k = n := h.resolve_left Bool.noConfusion
    rw [if_pos rfl]
    by_cases hk : k = 0
    · simp only [if_pos hk]
    · simp only [if_neg hk]

/-- In split-core mode the other core stays as it is. -/
theorem Lane.core_onCores_other (x : Lane) {n : Nat} (f : CoreRegs → CoreRegs) (hn : n < 2) :
    (x.onCores true n f).core (1 - n) = x.core (1 - n) := by
  unfold Lane.onCores Lane.core
  obtain rfl | rfl : n = 0 ∨ n = 1 := by omega
  · rfl
  · rfl

theorem State.OnlyLane.split {s t : State} {l : LaneId} (h : s.OnlyLane t l) : t.split = s.split := by
  obtain ⟨-, -, hrest⟩ := h
  rw [hrest]
  rfl

/-- What an instruction of a core does to the module: nothing outside its lane's cores, and in those it reaches what it does to one core. -/
theorem State.coreOp_next {s : State} {l : LaneId} (n : Nat) (f : CoreRegs → CoreRegs) (hup : (s.lane l).rst.held = false) :
    s.OnlyLane (s.coreOp l n f) l ∧ (s.lane l).SameButCores ((s.coreOp l n f).lane l) ∧
      ∀ k, (s.split = false ∨ k = n) → ((s.coreOp l n f).lane l).core k = f ((s.lane l).core k) := by
  obtain ⟨honly, hlane⟩ := s.upLane_next l (·.onCores s.split n f) hup
  rw [State.coreOp, hlane]
  exact ⟨honly, (s.lane l).onCores_sameButCores s.split n f, fun k hk => (s.lane l).core_onCores_reached f hk⟩

theorem State.coreOp_other {s : State} {l : LaneId} {n : Nat} (f : CoreRegs → CoreRegs) (hup : (s.lane l).rst.held = false) (hn : n < 2)
    (hsplit : s.split = true) : ((s.coreOp l n f).lane l).core (1 - n) = (s.lane l).core (1 - n) := by
  obtain ⟨-, hlane⟩ := s.upLane_next l (·.onCores s.split n f) hup
  rw [State.coreOp, hlane, hsplit]
  exact (s.lane l).core_onCores_other f hn

/-- An instruction that sees the cycle count: it starts from the count as it stands at this instant. -/
theorem State.coreOp_showCycles_next {s : State} {l : LaneId} (n : Nat) (f : CoreRegs → CoreRegs) (hup : (s.lane l).rst.held = false) :
    s.OnlyLane ((s.upLane l (·.showCycles s.now)).coreOp l n f) l ∧
      (s.lane l).SameButCores (((s.upLane l (·.showCycles s.now)).coreOp l n f).lane l) ∧
      ∀ k, (s.split = false ∨ k = n) →
        (((s.upLane l (·.showCycles s.now)).coreOp l n f).lane l).core k = f (((s.lane l).showCycles s.now).core k) := by
  obtain ⟨hshow, hlane⟩ := s.upLane_next l (·.showCycles s.now) hup
  have hup' : ((s.upLane l (·.showCycles s.now)).lane l).rst.held = false := by rw [hlane]; exact hup
  have hcounts : (s.lane l).SameButCores ((s.upLane l (·.showCycles s.now)).lane l) := by rw [hlane]; rfl
  obtain ⟨honly, hsame, hcores⟩ := State.coreOp_next n f hup'
  refine ⟨hshow.trans honly, hcounts.trans hsame, fun k hk => ?_⟩
  rw [hcores k (by rwa [hshow.split]), hlane]
  rfl

/-! ### The statement -/

theorem exec_trap (l : LaneId) (n code : Nat) (tval : Word) (s : State) :
    exec (.trap l n code tval) s = .next (s.coreOp l n (·.trap (BitVec.ofNat 32 (code % 32)) tval)) := rfl

theorem exec_trapReturn (l : LaneId) (n : Nat) (s : State) : exec (.trapReturn l n) s = .next (s.coreOp l n (·.trapReturn)) := rfl

theorem exec_sysregWrite_write (l : LaneId) (n num rd : Nat) (v insn : Word) (s : State) :
    exec (.sysregWrite l n num (.write v) rd insn) s = .next (s.coreOp l n (·.sysWrite num v insn)) := rfl

theorem exec_sysregWrite_read (l : LaneId) (n num rd : Nat) (insn : Word) (s : State) :
    exec (.sysregWrite l n num .read rd insn) s = .next ((s.upLane l (·.showCycles s.now)).coreOp l n (·.sysRead num rd insn)) := rfl

/-- Settles O26: each of the four is an instruction of a core, which changes nothing but the cores it reaches, and in those does what the rules
above say of one core. -/
theorem trapsSaveAndRestoreTheCoreLevel : Obligations.TrapsSaveAndRestoreTheCoreLevel := by
  refine ⟨fun s l n code tval hup hn => ?trap, fun s l n hup _ => ?trapReturn, fun s l n num rd v insn hup _ => ?write,
    fun s l n num rd insn hup _ => ?read⟩
  case trap =>
    obtain ⟨honly, hsame, hcores⟩ := State.coreOp_next n (·.trap (BitVec.ofNat 32 (code % 32)) tval) hup
    refine ⟨_, exec_trap l n code tval s, honly, hsame, State.coreOp_other _ hup hn, fun k _ hk => ?_⟩
    rw [hcores k hk]
    obtain ⟨hPIE, hPSUP⟩ := ((s.lane l).core k).trap_saves (BitVec.ofNat 32 (code % 32)) tval
    obtain ⟨hIE, hSUP⟩ := ((s.lane l).core k).trap_level (BitVec.ofNat 32 (code % 32)) tval
    exact ⟨rfl, rfl, rfl, hPIE, hPSUP, hIE, hSUP, rfl, rfl, rfl, rfl⟩
  case trapReturn =>
    obtain ⟨honly, hsame, hcores⟩ := State.coreOp_next n (·.trapReturn) hup
    refine ⟨_, exec_trapReturn l n s, honly, hsame, fun k _ hk => ?_⟩
    rw [hcores k hk]
    obtain ⟨hIE, hSUP⟩ := ((s.lane l).core k).trapReturn_restores
    exact ⟨hIE, hSUP, rfl, rfl, rfl, rfl⟩
  case write =>
    obtain ⟨honly, hsame, hcores⟩ := State.coreOp_next n (·.sysWrite num v insn) hup
    refine ⟨_, exec_sysregWrite_write l n num rd v insn s, honly, hsame, fun k _ hk => ?_⟩
    rw [hcores k hk]
    refine ⟨?_, ?_, ?_, ?_, fun hill => ?_⟩
    · rintro hsup rfl
      rw [CoreRegs.sysWrite_tvec v insn hsup]
      exact ⟨rfl, rfl⟩
    · rintro hsup rfl
      exact CoreRegs.sysWrite_epc v insn hsup
    · rintro hsup rfl
      exact CoreRegs.sysWrite_scratch v insn hsup
    · rintro hsup rfl
      exact CoreRegs.sysWrite_status v insn hsup
    · rw [CoreRegs.sysWrite_illegal v insn hill]
      exact CoreRegs.trap_tookIllegal _ insn
  case read =>
    obtain ⟨honly, hsame, hcores⟩ := State.coreOp_showCycles_next n (·.sysRead num rd insn) hup
    refine ⟨_, exec_sysregWrite_read l n num rd insn s, honly, hsame, fun k _ hk => ?_⟩
    rw [hcores k hk]
    refine ⟨fun w hw => CoreRegs.sysRead_reads rd insn hw, fun hnone => ?_⟩
    rw [CoreRegs.sysRead_of_none rd insn hnone]
    exact CoreRegs.trap_tookIllegal _ insn

end Sys2Proof.Machine
end

section
/-! PROOFS. The statement on guarded outputs, refuted: the release of a lane writes its `MODE` and leaves its dynamics enable, so a lane held in
reset that reads as enabled outside easy all comes out enabled in easy all. No reset leaves a lane so; the statement speaks of every guarded
state. -/

namespace Sys2Proof.Machine

/-- A module in easy all in which lane A, held in reset and otherwise ready to be released, reads its dynamics as enabled outside easy all; its
release waits. -/
noncomputable def heldWithDynamics : State :=
  { State.reset with
    phase := .easy, aon := { aonReset with enLA := true },
    la := { laneReset .a with reg := [(VOTE_STAT, 0x20#32)], rst := { rstReset with cold := false, trimOk := true } },
    pending := [.resetRelease (.lane .a) false 2560] }

theorem heldWithDynamics_guarded : heldWithDynamics.OutputsGuarded := by
  intro l
  cases l <;> exact ⟨by decide, by decide, by decide⟩

/-- The module as the release leaves it. -/
noncomputable def releasedWithDynamics : State := (({ heldWithDynamics with pending := [] } : State).at 2560).releaseLane .a false 2560

theorem step_heldWithDynamics : step heldWithDynamics = .next releasedWithDynamics := rfl

/-- The release puts the lane into easy all (R181), and the enable stays. -/
theorem releasedWithDynamics_easy : releasedWithDynamics.la.easy = true ∧ releasedWithDynamics.la.on VOTE_STAT_DYN_EN = true := by
  decide +kernel

/-- Refutes O5: a release takes a lane that is held with its dynamics enabled into easy all with its dynamics enabled. -/
theorem not_everyStepKeepsOutputsGuarded : ¬ Obligations.EveryStepKeepsOutputsGuarded := by
  intro h
  obtain ⟨heasy, hdyn⟩ := releasedWithDynamics_easy
  have hoff := ((h _ _ heldWithDynamics_guarded step_heldWithDynamics .a).2.1 heasy).1
  exact absurd (hoff.symm.trans hdyn) (by decide)

end Sys2Proof.Machine
end

section
/-! PROOFS. The statements on admission (R55, R58), on the enable outputs of library blocks (R266 to R278) and on the receive checks of a telegram
(R336, R337). Each follows the fold or the chain of branches that its definition is. -/

namespace Sys2Proof.Machine

/-! ### Lists the model sorts and changes in place -/

theorem insertBy_perm {α : Type} (le : α → α → Bool) (x : α) (ys : List α) : (insertBy le x ys).Perm (x :: ys) := by
  induction ys with
  | nil => exact .refl _
  | cons y ys ih =>
    rw [insertBy]
    split
    · exact (ih.cons y).trans (.swap x y ys)
    · exact .refl _

theorem sortBy_perm {α : Type} (le : α → α → Bool) (xs : List α) : (sortBy le xs).Perm xs := by
  have h : ∀ (xs acc : List α), (xs.foldl (fun acc x => insertBy le x acc) acc).Perm (acc ++ xs) := by
    intro xs
    induction xs with
    | nil => intro acc; simp
    | cons x xs ih => exact fun acc => (ih _).trans (((insertBy_perm le x acc).append_right xs).trans List.perm_middle.symm)
  exact h xs []

theorem listMod_of_getElem? {α : Type} {xs : List α} {k : Nat} {x : α} (f : α → α) (h : xs[k]? = some x) : listMod xs k f = xs.set k (f x) := by
  induction xs generalizing k with
  | nil => simp at h
  | cons y ys ih =>
    cases k with
    | zero => rw [List.getElem?_cons_zero, Option.some.injEq] at h; rw [h]; rfl
    | succ k => exact congrArg (y :: ·) (ih h)

/-! ### Admission (R55, R58) -/

/-- The entries of all lists, each once. -/
theorem mem_foldl_collect (es acc : List ConsEntry) (e : ConsEntry) :
    e ∈ es.foldl (fun acc e => if acc.contains e then acc else e :: acc) acc ↔ e ∈ acc ∨ e ∈ es := by
  induction es generalizing acc with
  | nil => simp
  | cons x es ih =>
    rw [List.foldl_cons, ih]
    split
    next h => rw [List.contains_iff_mem] at h; rw [List.mem_cons]; exact ⟨fun g => g.imp_right .inr, fun g => by
      rcases g with g | rfl | g
      exacts [.inl g, .inl h, .inr g]⟩
    next h => simp only [List.mem_cons, or_assoc, or_left_comm]

theorem nodup_foldl_collect (es acc : List ConsEntry) (h : acc.Nodup) :
    (es.foldl (fun acc e => if acc.contains e then acc else e :: acc) acc).Nodup := by
  induction es generalizing acc with
  | nil => exact h
  | cons x es ih =>
    refine ih _ ?_
    dsimp only
    split
    · exact h
    next hx => exact List.nodup_cons.2 ⟨fun hm => hx (List.contains_iff_mem.2 hm), h⟩

theorem mem_unionOf {lists : List (LaneId × List ConsEntry)} {e : ConsEntry} : e ∈ unionOf lists ↔ ∃ x ∈ lists, e ∈ x.2 := by
  rw [unionOf, (sortBy_perm _ _).mem_iff, mem_foldl_collect]
  simp

theorem nodup_unionOf (lists : List (LaneId × List ConsEntry)) : (unionOf lists).Nodup :=
  (sortBy_perm _ _).nodup_iff.2 (nodup_foldl_collect _ _ .nil)

/-- The count that stands for lane `y` among fetches. -/
def fetchesOf (fs : List (LaneId × Nat)) (y : LaneId) : Nat := match fs.find? fun f => f.1 == y with | some f => f.2 | none => 0

/-- The fetches counted for lane `y`. -/
def Admit.count (a : Admit) (y : LaneId) : Nat := fetchesOf a.fetches y

/-- The lanes whose list lacks `e`. -/
def lackers (lists : List (LaneId × List ConsEntry)) (e : ConsEntry) : List LaneId := (lists.filter fun x => !x.2.contains e).map (·.1)

/-- The fetches with one more for each lane of `ys`. -/
def moreFetches (count : LaneId → Nat) (ys : List LaneId) (fs : List (LaneId × Nat)) : List (LaneId × Nat) :=
  ys.foldl (fun fs y => (y, count y + 1) :: fs.filter fun x => x.1 != y) fs

/-- What one entry does: it is passed over, its connection is blocked, or it is admitted and fetched by every lane that lacks it. -/
theorem Admit.step_cases (lists : List (LaneId × List ConsEntry)) (a : Admit) (e : ConsEntry) :
    (Admit.step lists a e).admitted = a.admitted ∧ (Admit.step lists a e).fetches = a.fetches ∨
    (lackers lists e).length + 2 ≤ lists.length ∧ (∀ y ∈ lackers lists e, a.count y ≠ 64) ∧
      Admit.step lists a e = { a with admitted := a.admitted ++ [e], fetches := moreFetches a.count (lackers lists e) a.fetches } := by
  unfold Admit.step
  extract_lets lacking count f
  split
  · exact .inl ⟨rfl, rfl⟩
  next hfew =>
    split
    · exact .inl ⟨rfl, rfl⟩
    next hfull =>
      refine .inr ⟨show lacking.length + 2 ≤ lists.length by omega, fun y hy h64 => hfull ?_, rfl⟩
      exact List.any_eq_true.2 ⟨y, hy, beq_iff_eq.2 h64⟩

theorem fetchesOf_cons (fs : List (LaneId × Nat)) (y z : LaneId) (n : Nat) :
    fetchesOf ((y, n) :: fs.filter fun x => x.1 != y) z = if z = y then n else fetchesOf fs z := by
  by_cases h : z = y
  · simp [fetchesOf, h]
  · have hf : (fs.filter fun x => x.1 != y).find? (fun f => f.1 == z) = fs.find? fun f => f.1 == z := by
      rw [List.find?_filter]
      refine congrArg (fun p => fs.find? p) (funext fun x => ?_)
      by_cases hx : x.1 = z <;> simp [hx, h]
    simp [fetchesOf, Ne.symm h, h, hf]

theorem fetchesOf_moreFetches (count : LaneId → Nat) (ys : List LaneId) (fs : List (LaneId × Nat)) (z : LaneId) :
    fetchesOf (moreFetches count ys fs) z = if z ∈ ys then count z + 1 else fetchesOf fs z := by
  induction ys generalizing fs with
  | nil => simp [moreFetches]
  | cons y ys ih =>
    rw [moreFetches, List.foldl_cons]
    refine (ih _).trans ?_
    rw [fetchesOf_cons]
    by_cases hy : z = y <;> by_cases hz : z ∈ ys <;> simp [hy, hz]

/-- What the admission loop keeps: each admitted entry stands in two lists, and each lane's count is that of the admitted entries it lacks, at most
64. -/
structure Admit.Sound (lists : List (LaneId × List ConsEntry)) (a : Admit) : Prop where
  two : ∀ e ∈ a.admitted, 2 ≤ (lists.filter fun x => x.2.contains e).length
  counted : ∀ x ∈ lists, a.count x.1 = (a.admitted.filter fun e => !x.2.contains e).length
  bounded : ∀ x ∈ lists, a.count x.1 ≤ 64

/-- A lane is among those that lack an entry exactly when its own list lacks it, as each lane has one list. -/
theorem mem_lackers {lists : List (LaneId × List ConsEntry)} (hn : (lists.map (·.1)).Nodup) {x : LaneId × List ConsEntry} (hx : x ∈ lists)
    (e : ConsEntry) : x.1 ∈ lackers lists e ↔ x.2.contains e = false := by
  rw [lackers, List.mem_map]
  constructor
  · rintro ⟨y, hy, hyx⟩
    obtain ⟨hy, hc⟩ := List.mem_filter.1 hy
    rw [← List.inj_on_of_nodup_map hn hy hx hyx]
    simpa using hc
  · exact fun hc => ⟨x, List.mem_filter.2 ⟨hx, by rw [hc]; rfl⟩, rfl⟩

theorem Admit.Sound.step {lists : List (LaneId × List ConsEntry)} (hn : (lists.map (·.1)).Nodup) {a : Admit} (h : a.Sound lists) (e : ConsEntry) :
    (Admit.step lists a e).Sound lists := by
  obtain ⟨htwo, hcount, hbound⟩ := h
  obtain ⟨hadm, hfet⟩ | ⟨hlen, hroom, heq⟩ := Admit.step_cases lists a e
  · refine ⟨by rwa [hadm], fun x hx => ?_, fun x hx => ?_⟩
    · rw [Admit.count, hfet, hadm]; exact hcount x hx
    · rw [Admit.count, hfet]; exact hbound x hx
  · have hnew : ∀ x ∈ lists, (Admit.step lists a e).count x.1 = if x.2.contains e = false then a.count x.1 + 1 else a.count x.1 := fun x hx => by
      rw [heq]
      exact (fetchesOf_moreFetches _ _ _ _).trans (if_congr (mem_lackers hn hx e) rfl rfl)
    refine ⟨fun g hg => ?_, fun x hx => ?_, fun x hx => ?_⟩
    · rw [heq] at hg
      rcases List.mem_append.1 hg with hg | hg
      · exact htwo g hg
      · rw [List.mem_singleton.1 hg]
        have hsum := List.length_eq_length_filter_add (l := lists) (fun x => x.2.contains e)
        have hl : (lackers lists e).length = (lists.filter fun x => !x.2.contains e).length := List.length_map _
        omega
    · rw [hnew x hx, heq, hcount x hx]
      rw [List.filter_append, List.length_append]
      cases hc : x.2.contains e with
      | true => rw [List.filter_singleton, hc]; rfl
      | false => rw [List.filter_singleton, hc]; rfl
    · rw [hnew x hx]
      split
      next hc =>
        have := hroom x.1 ((mem_lackers hn hx e).2 hc)
        have := hbound x hx
        omega
      next => exact hbound x hx

/-- The loop admits in order, from what it is given. -/
theorem admitted_foldl_sublist (lists : List (LaneId × List ConsEntry)) (es : List ConsEntry) (a : Admit) :
    ∃ sel, (es.foldl (Admit.step lists) a).admitted = a.admitted ++ sel ∧ sel.Sublist es := by
  induction es generalizing a with
  | nil => exact ⟨[], by simp, .refl _⟩
  | cons e es ih =>
    obtain ⟨sel, hsel, hsub⟩ := ih (Admit.step lists a e)
    obtain ⟨hadm, -⟩ | ⟨-, -, heq⟩ := Admit.step_cases lists a e
    · exact ⟨sel, by rw [List.foldl_cons, hsel, hadm], hsub.cons e⟩
    · exact ⟨e :: sel, by rw [List.foldl_cons, hsel, heq, List.append_assoc]; rfl, hsub.cons_cons e⟩

theorem admission_sublist (lists : List (LaneId × List ConsEntry)) :
    (admission lists).1.Sublist ((unionOf lists).filter fun e => !(conflicting (unionOf lists)).contains e) := by
  obtain ⟨sel, hsel, hsub⟩ := admitted_foldl_sublist lists ((unionOf lists).filter fun e => !(conflicting (unionOf lists)).contains e) ⟨[], [], []⟩
  rwa [show (admission lists).1 = sel from hsel]

theorem admission_sound {lists : List (LaneId × List ConsEntry)} (hn : (lists.map (·.1)).Nodup) :
    ∃ a : Admit, a.admitted = (admission lists).1 ∧ a.Sound lists := by
  refine ⟨_, rfl, ?_⟩
  generalize (unionOf lists).filter _ = es
  have h : ∀ (es : List ConsEntry) (a : Admit), a.Sound lists → (es.foldl (Admit.step lists) a).Sound lists := by
    intro es
    induction es with
    | nil => exact fun _ h => h
    | cons e es ih => exact fun a h => ih _ (h.step hn e)
  exact h es _ ⟨fun _ h => absurd h List.not_mem_nil, fun _ _ => rfl, fun _ _ => Nat.zero_le _⟩

/-- No list contradicts an admitted entry. -/
theorem not_contradicted_of_admitted {lists : List (LaneId × List ConsEntry)} {e g : ConsEntry} {x : LaneId × List ConsEntry}
    (he : e ∈ (admission lists).1) (hx : x ∈ lists) (hg : g ∈ x.2) (hc : g.conn = e.conn) (hs : g.seq = e.seq) : g.digest = e.digest := by
  obtain ⟨hu, hbad⟩ := List.mem_filter.1 ((admission_sublist lists).subset he)
  by_contra hd
  have : e ∈ conflicting (unionOf lists) :=
    List.mem_filter.2 ⟨hu, List.any_eq_true.2 ⟨g, mem_unionOf.2 ⟨x, hx, hg⟩, by simp [sameKey, hc, hs, hd]⟩⟩
  rw [List.contains_iff_mem.2 this] at hbad
  exact absurd hbad Bool.false_ne_true

/-- Settles O11: the loop's invariant gives the two lists and the 64 fetches, the conflicting entries are left out before it, and it admits in the
order of the union, which holds each entry once. -/
theorem admissionNeedsTwoEqualEntries : Obligations.AdmissionNeedsTwoEqualEntries := by
  intro lists hn
  obtain ⟨a, ha, htwo, hcount, hbound⟩ := admission_sound hn
  refine ⟨ha ▸ htwo, fun e he x hx g hg => not_contradicted_of_admitted he hx hg, fun x hx => ?_, ?_⟩
  · rw [← ha, ← hcount x hx]
    exact hbound x hx
  · exact (admission_sublist lists).nodup ((nodup_unionOf lists).filter _)

/-! ### The enable outputs of library blocks (R266 to R278) -/

/-- The timeout of an instance at a catch of its task. -/
theorem BlkRun.discTimeout_of_timeout {r : BlkRun} {c : BlkCfg} {i : BlkIn} (hc : c.dual = true) (hr : r.st ≠ .fault)
    (ht : (r.timer c i).timeout c i = true) :
    r.discTimeout c i = { (r.timer c i).toFault with diag := (r.timer c i).toFault.dualDiag c i } := by
  simp [BlkRun.discTimeout, hc, hr, ht]

theorem BlkRun.discTimeout_of_fault {r : BlkRun} (c : BlkCfg) (i : BlkIn) (hr : r.st = .fault) : r.discTimeout c i = r := by
  simp [BlkRun.discTimeout, hr]

theorem BlkCfg.dual_iff (c : BlkCfg) : c.dual = true ↔ c.kind = .estop ∨ c.kind = .guard ∨ c.kind = .ossd := by
  simp [BlkCfg.dual, or_assoc]

theorem BlkRun.enable_of_dual {c : BlkCfg} (h : c.kind = .estop ∨ c.kind = .guard ∨ c.kind = .ossd) (r : BlkRun) :
    r.enable c = (r.st == .run) := by
  unfold BlkRun.enable
  rcases h with h | h | h <;> rw [h]

theorem BlkRun.catchStep_of_dual {c : BlkCfg} (h : c.kind = .estop ∨ c.kind = .guard ∨ c.kind = .ossd) (r : BlkRun) (i : BlkIn) :
    r.catchStep c i = r.dualStep c i := by
  unfold BlkRun.catchStep
  rcases h with h | h | h <;> rw [h]

/-- What a discrepancy timeout at `tn` makes of one instance. -/
def Lane.discInstance (x : Lane) (tn : Nat) (b : BlkCfg × BlkRun) : BlkCfg × BlkRun :=
  match x.blkCatch b.1 tn with
  | some k => (b.1, b.2.discTimeout b.1 (x.blkIn b.1 [] k))
  | none => b

/-- The instance `b` after a discrepancy timeout, and that no other instance changes. -/
theorem Lane.discTimeout_blocks (x : Lane) {b tn : Nat} {e : BlkCfg × BlkRun} (hb : x.prog.blocks[b]? = some e) :
    x.discTimeout b tn = { x with prog := { x.prog with blocks := x.prog.blocks.set b (x.discInstance tn e) } } :=
  congrArg (fun bs => { x with prog := { x.prog with blocks := bs } }) (listMod_of_getElem? (x.discInstance tn) hb)

theorem Lane.discInstance_of_catch {x : Lane} {tn : Nat} {c : BlkCfg} {k : TaskRun} (h : x.blkCatch c tn = some k) (r : BlkRun) :
    x.discInstance tn (c, r) = (c, r.discTimeout c (x.blkIn c [] k)) := by
  simp only [Lane.discInstance, h]

/-- Without a catch of its task, and in FAULT, an instance stays as it is. -/
theorem Lane.discInstance_of_none_or_fault {x : Lane} {tn : Nat} {c : BlkCfg} {r : BlkRun} (h : x.blkCatch c tn = none ∨ r.st = .fault) :
    x.discInstance tn (c, r) = (c, r) := by
  unfold Lane.discInstance
  split
  next k hk =>
    obtain hn | hf := h
    · exact absurd (hn.symm.trans hk) (by simp)
    · rw [BlkRun.discTimeout_of_fault _ _ hf]
  · rfl

theorem execDiscrepancyTimeout_next (s : State) (l : LaneId) (b tn : Nat) (hl : (s.lane l).rst.held = false) :
    ∃ t, exec (.discrepancyTimeout l b tn) s = .next t ∧ s.OnlyLane t l ∧
      t.lane l = { ((s.lane l).at tn).discTimeout b tn with notes := [] } := by
  obtain ⟨honly, hlane⟩ := s.upLane_laneAt_next l tn (·.discTimeout b tn) hl
  exact ⟨_, rfl, honly, hlane⟩

/-- What the moves of R267 leave in RUN has both channels healthy. -/
theorem BlkRun.bothH_of_move_run {r : BlkRun} {c : BlkCfg} {i : BlkIn} (h : (r.move c i).st = .run) : i.bothH c = true := by
  unfold BlkRun.move at h
  by_contra hn
  rw [Bool.not_eq_true] at hn
  cases hst : r.st <;> simp [hst, hn] at h
  split at h <;> simp_all

@[simp] theorem BlkRun.timer_st (r : BlkRun) (c : BlkCfg) (i : BlkIn) : (r.timer c i).st = r.st := by
  unfold BlkRun.timer
  split
  · rfl
  · dsimp only; split <;> rfl

@[simp] theorem BlkRun.timer_back (r : BlkRun) (c : BlkCfg) (i : BlkIn) : (r.timer c i).back = r.back := by
  unfold BlkRun.timer
  split
  · rfl
  · dsimp only; split <;> rfl

theorem BlkRun.openClose_st_back (r : BlkRun) (c : BlkCfg) (i : BlkIn) (n : Nat) :
    (r.openClose c i n).st = r.st ∧ (r.openClose c i n).back = r.back := by
  unfold BlkRun.openClose
  repeat' split
  all_goals exact ⟨rfl, rfl⟩

theorem BlkRun.dualBack_st_ne_run (r : BlkRun) : r.dualBack.st ≠ .run := by
  rw [BlkRun.dualBack]
  dsimp only
  split
  · decide
  next h => exact fun hr => h (.inr hr)

/-- The end of a dual block's catch: its output needs both channels healthy, and no return to RUN since the last one. -/
theorem BlkRun.healthy_of_dualEnd {r : BlkRun} {c : BlkCfg} {i : BlkIn} (hback : r.back = true → r.st ≠ .run)
    (h : (if r.timeout c i && r.st != .fault then r.toFault else if r.back then r else r.move c i).st = .run) :
    i.bothH c = true ∧ r.back = false := by
  split at h
  · exact absurd h (by simp [BlkRun.toFault])
  · split at h
    next hb => exact absurd h (hback hb)
    next hb => exact ⟨BlkRun.bothH_of_move_run h, by simpa using hb⟩

theorem BlkRun.dualStep_run {r : BlkRun} {c : BlkCfg} {i : BlkIn} (h : (r.dualStep c i).st = .run) : i.bothH c = true ∧ r.back = false := by
  unfold BlkRun.dualStep at h
  extract_lets r₁ r₂ r₃ r₄ at h
  have h₁ : r₁.back = r.back ∧ (r.back = true → r₁.st ≠ .run) := by
    by_cases hb : r.back = true
    · rw [show r₁ = r.dualBack from if_pos hb]
      exact ⟨rfl, fun _ => r.dualBack_st_ne_run⟩
    · rw [show r₁ = r from if_neg hb]
      exact ⟨rfl, fun h => absurd h hb⟩
  have h₂ : r₂.back = r₁.back ∧ r₂.st = r₁.st := by
    by_cases hs : c.startupOn = true
    · rw [show r₂ = r₁.openClose c i _ from if_pos hs]
      exact (BlkRun.openClose_st_back _ _ _ _).symm
    · rw [show r₂ = r₁ from if_neg hs]
      exact ⟨rfl, rfl⟩
  have hback : r₃.back = r.back := by rw [show r₃ = r₂.timer c i from rfl, BlkRun.timer_back, h₂.1, h₁.1]
  have hst : r₃.st = r₁.st := by rw [show r₃ = r₂.timer c i from rfl, BlkRun.timer_st, h₂.2]
  obtain ⟨hh, hb⟩ := BlkRun.healthy_of_dualEnd (r := r₃) (fun hb => hst ▸ h₁.2 (hback ▸ hb)) h
  exact ⟨hh, hback ▸ hb⟩

/-- The reset output of RESET_EDGE (R272). -/
theorem BlkRun.resetStep_reset {r : BlkRun} {i : BlkIn} (h : (r.resetStep i).reset = true) :
    r.back = false ∧ i.v1 = fOn ∧ r.prev = fOff ∧ ∃ t0, r.offT = some t0 ∧ t0 + 100000 ≤ i.t ∧ i.t ≤ t0 + 5000000 := by
  unfold BlkRun.resetStep at h
  extract_lets r₁ r₂ v r₃ long bad at h
  split at h
  · exact absurd h (by simp only [r₃]; split <;> simp [r₂])
  · split at h
    next hv =>
      split at h
      · exact absurd h (by simp [r₂])
      next t0 hoff =>
        by_cases hb : r.back = true
        · rw [show r₂.offT = none by simp [r₂, r₁, hb]] at hoff
          exact absurd hoff (by simp)
        · have hr : r₂ = { r with reset := false } := by simp [r₂, r₁, hb]
          rw [hr] at h hoff
          simp only [beq_iff_eq] at h
          split at h
          · exact absurd h (by decide)
          next hbad =>
            split at h
            · exact absurd h (by decide)
            · split at h
              · exact absurd h (by decide)
              · exact ⟨by simpa using hb, hv, by by_contra hp; exact hbad (by simp [bad, hr, hp]), t0, hoff, by omega, by omega⟩
    next => exact absurd h (by simp [r₂])

/-- The enable output of an active motion block: its condition holds at this catch, and no return to RUN waits. -/
theorem BlkRun.motionStep_ok {r : BlkRun} {c : BlkCfg} {i : BlkIn} (ha : i.active = true) (h : (r.motionStep c i).ok = true) :
    r.back = false ∧
      (motionCond c i (r.motionStep c i).hist.length (speedOf c.nwin (r.motionStep c i).hist)
        (if c.kind = .sdi then sdiRef i (speedOf c.nwin (r.motionStep c i).hist) r.sref else none)).1 = true := by
  generalize hm : (motionCond c i (r.motionStep c i).hist.length (speedOf c.nwin (r.motionStep c i).hist)
        (if c.kind = .sdi then sdiRef i (speedOf c.nwin (r.motionStep c i).hist) r.sref else none)).1 = m
  have hl : (!i.active || !(if r.back then true else if i.active then (if m then r.latch && !i.rst else true) else r.latch)) = true := by
    rw [← hm]; exact h
  rw [if_pos ha, ha, Bool.not_true, Bool.false_or, Bool.not_eq_true'] at hl
  split at hl
  · exact absurd hl (by decide)
  next hb =>
    split at hl
    next hm => exact ⟨by simpa using hb, hm⟩
    next => exact absurd hl (by decide)

/-- A valid sample stands first among the samples of a run that has any. -/
theorem BlkRun.valid_of_hist {r : BlkRun} {c : BlkCfg} {i : BlkIn} (h : (r.motionStep c i).hist ≠ []) : agreedValid i.enc = true := by
  by_contra hv
  rw [Bool.not_eq_true] at hv
  refine h ?_
  change (if r.back || !agreedValid i.enc then [] else _) = []
  rw [hv, Bool.not_false, Bool.or_true, if_pos rfl]

/-- SLS within its limit (R275). -/
theorem BlkRun.sls_ok {r : BlkRun} {c : BlkCfg} {i : BlkIn} (hk : c.kind = .sls) (ha : i.active = true) (h : (r.motionStep c i).ok = true) :
    agreedValid i.enc = true ∧ (r.motionStep c i).speed.natAbs ≤ c.vlim ∧ r.back = false := by
  obtain ⟨hb, hm⟩ := BlkRun.motionStep_ok ha h
  have hsp : (r.motionStep c i).speed = (speedOf c.nwin (r.motionStep c i).hist).getD 0 := rfl
  unfold motionCond at hm
  rw [hk] at hm
  dsimp only at hm
  split at hm
  · exact absurd hm (by decide)
  next v hv =>
    refine ⟨BlkRun.valid_of_hist (r := r) (c := c) fun hn => ?_, ?_, hb⟩
    · rw [hn] at hv
      exact absurd hv (by simp [speedOf])
    · rw [hsp, hv]
      exact of_decide_eq_true hm

/-- SLP inside its range (R276). -/
theorem BlkRun.slp_ok {r : BlkRun} {c : BlkCfg} {i : BlkIn} (hk : c.kind = .slp) (ha : i.active = true) (h : (r.motionStep c i).ok = true) :
    agreedValid i.enc = true ∧ agreedZref i.enc = true ∧ c.pmin ≤ signedOf 32 (agreedPos i.enc) ∧ signedOf 32 (agreedPos i.enc) ≤ c.pmax ∧
      r.back = false ∧ 2 ≤ (r.motionStep c i).hist.length := by
  obtain ⟨hb, hm⟩ := BlkRun.motionStep_ok ha h
  unfold motionCond at hm
  rw [hk] at hm
  simp only [Bool.and_eq_true, beq_iff_eq, decide_eq_true_eq] at hm
  obtain ⟨⟨⟨hslow, hvalid⟩, hzref⟩, hmin, hmax⟩ := hm
  refine ⟨hvalid, hzref, hmin, hmax, hb, ?_⟩
  by_contra hn
  rw [if_pos (by omega)] at hslow
  exact absurd hslow (by decide)

/-- Settles O41: the timeout replaces one instance; the outputs are followed back through the catch of their kind. -/
theorem enableOutputsNeedTheirConditions : Obligations.EnableOutputsNeedTheirConditions := by
  refine ⟨?timeout, ?noTimeout, ?dual, ?reset, ?sls, ?slp⟩
  case timeout =>
    intro s l b tn c r k hl hb hk hr hcatch ht
    obtain ⟨t, hx, honly, hlane⟩ := execDiscrepancyTimeout_next s l b tn hl
    have hd := ((s.lane l).at tn).discTimeout_blocks (tn := tn) hb
    rw [Lane.discInstance_of_catch (x := (s.lane l).at tn) hcatch] at hd
    refine ⟨t, r.discTimeout c ((s.lane l).blkIn c [] k), hx, honly, by rw [hlane, hd]; rfl, by rw [hlane, hd]; rfl, ?_⟩
    rw [BlkRun.discTimeout_of_timeout ((BlkCfg.dual_iff c).2 hk) hr ht]
    exact ⟨rfl, BlkRun.enable_of_dual hk _, rfl, rfl⟩
  case noTimeout =>
    intro s l b tn c r hl hb hn
    obtain ⟨t, hx, honly, hlane⟩ := execDiscrepancyTimeout_next s l b tn hl
    have hd := ((s.lane l).at tn).discTimeout_blocks (tn := tn) hb
    have hset : (s.lane l).prog.blocks.set b (c, r) = (s.lane l).prog.blocks := by
      obtain ⟨hlt, hget⟩ := List.getElem?_eq_some_iff.1 hb
      rw [← hget, List.set_getElem_self]
    rw [Lane.discInstance_of_none_or_fault (x := (s.lane l).at tn) hn, show ((s.lane l).at tn).prog.blocks = (s.lane l).prog.blocks from rfl,
      hset] at hd
    exact ⟨t, hx, honly, by rw [hlane, hd]; rfl, by rw [hlane, hd]; rfl⟩
  case dual =>
    intro r c i hk h
    rw [BlkRun.enable_of_dual hk, BlkRun.catchStep_of_dual hk] at h
    exact BlkRun.dualStep_run (beq_iff_eq.1 h)
  case reset =>
    intro r c i hk h
    simp only [BlkRun.enable, BlkRun.catchStep, hk] at h
    exact BlkRun.resetStep_reset h
  case sls =>
    intro r c i hk ha h
    simp only [BlkRun.enable, BlkRun.catchStep, hk] at h ⊢
    exact BlkRun.sls_ok hk ha h
  case slp =>
    intro r c i hk ha h
    simp only [BlkRun.enable, BlkRun.catchStep, hk] at h ⊢
    exact BlkRun.slp_ok hk ha h

/-! ### The receive checks (R336, R337) -/

/-- What step 7 lets pass (R337): DATA on an open connection without a new baseline stands within the window. -/
theorem checkSequence_none {d : ConnDesc} {c : Conn} {g : Tlg} (h : checkSequence d c g = none) (ht : g.type = tyData) (ho : c.isOpen = true)
    (hn : newBaseline d c g = false) : 1 ≤ seqDist c g ∧ seqDist c g ≤ d.seqwin := by
  unfold checkSequence at h
  split at h
  · exact absurd h (by simp)
  split at h
  · exact absurd h (by simp)
  rw [if_pos ⟨.inl ht, ho, hn⟩] at h
  split at h
  · exact absurd h (by simp)
  split at h
  · exact absurd h (by simp)
  omega

/-- What step 8 lets pass (R337): DATA within its age, and risen without a new baseline. -/
theorem checkAge_none {d : ConnDesc} {c : Conn} {g : Tlg} {now : Nat} (h : checkAge d c g now = none) (ht : g.type = tyData) :
    ageOk now g.tstamp d.maxage = true ∧ (newBaseline d c g = false → c.rxT < g.tstamp) := by
  unfold checkAge at h
  rw [ht, if_neg (by decide), if_neg (by decide)] at h
  split at h
  · exact absurd h (by simp)
  next hn =>
    obtain ⟨hage, hrise⟩ := not_or.1 hn
    exact ⟨by simpa using hage, fun hb => Nat.lt_of_not_le fun hle => hrise ⟨hb, hle⟩⟩

/-- What step 9 lets pass (R332): DATA in an open connection. -/
theorem checkState_none {d : ConnDesc} {c : Conn} {g : Tlg} (h : checkState d c g = none) (ht : g.type = tyData) : c.isOpen = true := by
  unfold checkState at h
  extract_lets again at h
  rw [ht, if_neg (by decide), if_neg (by decide), if_neg (by decide)] at h
  by_contra ho
  rw [Bool.not_eq_true] at ho
  rw [ho] at h
  exact absurd h (by simp)

theorem checkSequence_ne_ok (d : ConnDesc) (c : Conn) (g : Tlg) : checkSequence d c g ≠ some .ok := by
  unfold checkSequence
  split_ifs <;> simp

theorem checkAge_ne_ok (d : ConnDesc) (c : Conn) (g : Tlg) (now : Nat) : checkAge d c g now ≠ some .ok := by
  unfold checkAge
  split_ifs <;> simp

theorem checkState_ne_ok (d : ConnDesc) (c : Conn) (g : Tlg) : checkState d c g ≠ some .ok := by
  unfold checkState
  extract_lets again
  split_ifs <;> simp

/-- Settles O44: each branch of the checks that is not the last one gives another verdict. -/
theorem acceptedTelegramsPassEveryCheck : Obligations.AcceptedTelegramsPassEveryCheck := by
  intro l k g now h
  unfold Lane.checkSteps at h
  extract_lets d c e at h
  split at h
  · exact absurd h (by decide)
  next hdir =>
  split at h
  · exact absurd h (by decide)
  next hcrc =>
  split at h
  · exact absurd h (by decide)
  next htag =>
  split at h
  · exact absurd h (by decide)
  next hcodes =>
  split at h
  · exact absurd h (by decide)
  next hcomm =>
  have hauth : (g.auth = true → g.tagOk e = true) ∧ (d.auth = true → g.auth = true) := by
    constructor <;> intro ha <;> by_contra hn <;> exact htag (by simp_all)
  refine ⟨by simpa using hdir, by simpa using hcrc, Nat.le_of_not_lt hcodes, hauth.1, hauth.2, fun hg => ?_, fun ht => ?_⟩
  · by_contra hn
    exact hcomm (by simp_all [d])
  · split at h
    next v hv =>
      cases h
      exact absurd hv (checkSequence_ne_ok d c g)
    next hseq =>
    split at h
    next v hv =>
      cases h
      exact absurd hv (checkAge_ne_ok d c g now)
    next hage =>
    split at h
    next v hv =>
      cases h
      exact absurd hv (checkState_ne_ok d c g)
    next hstate =>
    have hopen := checkState_none hstate ht
    obtain ⟨hok, hrise⟩ := checkAge_none hage ht
    obtain ⟨hlo, hhi⟩ := Bool.and_eq_true_iff.1 hok
    exact ⟨hopen, of_decide_eq_true hlo, of_decide_eq_true hhi, fun hn => ⟨hrise hn, checkSequence_none hseq ht hopen hn⟩⟩

end Sys2Proof.Machine
end

section
/-! PROOFS. The statements on a step and on the state at reset. -/

namespace Sys2Proof.Machine

/-! ### Every command answers -/

/-- An access that is not one of the hub to its firmware blocks is made. -/
theorem accessOutcome_of_no_block {m : Master} {a : Nat} (h : firmwareBlock m a = none) (w : Width) (acc : Access) (env : AccessEnv) (s : State) :
    accessOutcome m a w acc env s = .next (s.access m a w acc env) := by
  rw [accessOutcome, h]

theorem execFieldPowerOn_answers (tm : Nat) (s : State) : ∃ t, execFieldPowerOn tm s = .next t := by
  unfold execFieldPowerOn
  extract_lets s'
  split <;> exact ⟨_, rfl⟩

theorem execSignEngineCheck_answers (l : LaneId) (k : Nat) (g : List Byte) (s : State) : ∃ t, execSignEngineCheck l k g s = .next t := by
  unfold execSignEngineCheck
  extract_lets x e
  split
  · exact ⟨_, rfl⟩
  · split <;> exact ⟨_, rfl⟩

/-- Settles O1: all commands but the three forms of an access, the power-on of the FIELD die and the check of a telegram are one next state by
their definition. -/
theorem stepRunsTheFrontCommand : Obligations.StepRunsTheFrontCommand := by
  refine ⟨fun s c rest h => by rw [step, h], fun s h => by rw [step, h], fun c s hc => ?_⟩
  cases c
  case registerWrite m a acc env => exact ⟨_, accessOutcome_of_no_block (hc m a .word acc env (.inl rfl)) _ _ _ _⟩
  case badWidthAccess m a w acc env => exact ⟨_, accessOutcome_of_no_block (hc m a w acc env (.inr (.inl rfl))) _ _ _ _⟩
  case unmappedAccess m a acc => exact ⟨_, accessOutcome_of_no_block (hc m a .word acc .plain (.inr (.inr rfl))) _ _ _ _⟩
  case fieldPowerOn tm => exact execFieldPowerOn_answers tm s
  case signEngineCheck l k g => exact execSignEngineCheck_answers l k g s
  all_goals exact ⟨_, rfl⟩

/-! ### Reset -/

theorem laneReset_canon (l : LaneId) : (laneReset l).canon = true := by
  cases l <;> decide +kernel

theorem lane_reset (l : LaneId) : State.reset.lane l = laneReset l := by
  cases l <;> rfl

theorem reset_canon : State.reset.canon = true := by
  have hhub : State.reset.hub.canon = true := by decide +kernel
  simp only [State.canon, show State.reset.la = laneReset .a from rfl, show State.reset.lb = laneReset .b from rfl,
    show State.reset.lc = laneReset .c from rfl, laneReset_canon, hhub, Bool.true_and]
  rfl

theorem laneReset_silent (l : LaneId) : (laneReset l).silent = true := by
  cases l <;> decide +kernel

theorem laneReset_held (l : LaneId) :
    (laneReset l).rg RST_CAUSE = 1#32 ∧ (laneReset l).rst.held = true ∧ (laneReset l).sram = [] ∧ (laneReset l).fget VOTE_STAT_MODE = 0 ∧
      (laneReset l).fld.dyn = 0 := by
  cases l <;> exact ⟨by decide +kernel, rfl, rfl, by decide +kernel, rfl⟩

/-- Settles O2: the values of the power-on state, read off it. -/
theorem resetIsCanonicalAndGuarded : Obligations.ResetIsCanonicalAndGuarded := by
  have hsilent : ∀ l, (State.reset.lane l).silent = true := fun l => lane_reset l ▸ laneReset_silent l
  have heasy : ∀ l, (State.reset.lane l).easy = false := fun l => by
    obtain ⟨-, -, -, hmode, -⟩ := laneReset_held l
    rw [lane_reset, Lane.easy, Lane.mode, hmode]
    rfl
  refine ⟨reset_canon, ⟨fun l => ⟨fun h => ?_, fun h => ?_, fun _ => hsilent l⟩, hsilent⟩, ?_, rfl, rfl, rfl, ?_, rfl, fun l => ?_⟩
  · obtain ⟨-, -, -, -, hdyn⟩ := laneReset_held l
    rw [lane_reset] at h
    exact absurd hdyn h
  · rw [heasy l] at h
    exact absurd h Bool.false_ne_true
  · decide +kernel
  · decide +kernel
  · rw [lane_reset]
    exact laneReset_held l

end Sys2Proof.Machine
end

section
/-! PROOFS. The statements on the follower of the timebase (R34 to R38, R43) and on arming and pairing (R45 to R47, R73). -/

namespace Sys2Proof.Machine

/-! ### Registers a lane keeps -/

theorem Lane.RegsKept.refl (x : Lane) (as : List Nat) : x.RegsKept x as := fun _ _ => rfl

theorem Lane.RegsKept.trans {x y z : Lane} {as : List Nat} (hxy : x.RegsKept y as) (hyz : y.RegsKept z as) : x.RegsKept z as :=
  fun a ha => (hyz a ha).trans (hxy a ha)

theorem Lane.regsKept_of_reg_eq {x y : Lane} (h : y.reg = x.reg) (as : List Nat) : x.RegsKept y as := fun a _ => by
  rw [Lane.rg, Lane.rg, h]

theorem Lane.regsKept_fset (x : Lane) {f : Fld} {as : List Nat} (v : Nat) (hf : f.addr ∈ as) : x.RegsKept (x.fset f v) as :=
  fun _ ha => x.rg_fset_ne v fun e => ha (e ▸ hf)

theorem Lane.on_of_reg_eq {x y : Lane} (h : x.reg = y.reg) (f : Fld) : x.on f = y.on f := by
  rw [Lane.on, Lane.on, Lane.fget_of_reg_eq h]

theorem Lane.on_fset_one (x : Lane) (f : Fld) (h : f.lo + 1 ≤ 32) (hw : f.w = 1) : (x.fset f 1).on f = true := by
  rw [Lane.on, Lane.fget_fset_same x f 1 (by omega), hw]
  rfl

theorem Lane.on_fset_zero (x : Lane) (f : Fld) (h : f.lo + f.w ≤ 32) : (x.fset f 0).on f = false := by
  rw [Lane.on, Lane.fget_fset_same x f 0 h, Nat.zero_mod]
  rfl

/-- A lane that has the registers of a lane in which a flag was set reads it as set. -/
theorem Lane.on_of_reg_fset_one {x y : Lane} {f : Fld} (h : y.reg = (x.fset f 1).reg) (hf : f.lo + 1 ≤ 32) (hw : f.w = 1) : y.on f = true := by
  rw [Lane.on_of_reg_eq h, x.on_fset_one f hf hw]

theorem Lane.on_of_reg_fset_zero {x y : Lane} {f : Fld} (h : y.reg = (x.fset f 0).reg) (hf : f.lo + f.w ≤ 32) : y.on f = false := by
  rw [Lane.on_of_reg_eq h, x.on_fset_zero f hf]

theorem Lane.on_fset_addr (x : Lane) {f g : Fld} (v : Nat) (h : g.addr ≠ f.addr) : (x.fset f v).on g = x.on g := by
  rw [Lane.on, x.fget_fset_addr v h, Lane.on]

theorem Lane.on_fset_bits (x : Lane) {f g : Fld} (v : Nat) (ha : g.addr = f.addr) (hg : g.lo + g.w ≤ 32)
    (h : g.lo + g.w ≤ f.lo ∨ f.lo + f.w ≤ g.lo) : (x.fset f v).on g = x.on g := by
  rw [Lane.on, x.fget_fset_bits v ha hg h, Lane.on]

/-! ### Ticks (R34) -/

/-- A tick that is missing or rejected: one more of its run. -/
def Follower.missTick (f : Follower) : Follower := { f with missRun := satInc 100 f.missRun, goodRun := 0, missWin := satInc 255 f.missWin }

/-- The follower at its own time of a tick, with the offset the frame shows. -/
def Follower.atTick (f : Follower) (own : Nat) (off : Int) : Follower := { f with time := max f.time own, off := off }

theorem Lane.tick_none (x : Lane) (own : Nat) : x.tick own none = { x with fol := (x.fol.atTick own x.fol.off).missTick } := rfl

theorem Lane.tick_crcBad (x : Lane) (own : Nat) {v : Dword} {c : Half} (h : c.toNat ≠ crc16 (beBytes 8 v.toNat)) :
    x.tick own (some (v, c)) = { x.fset TMR_STAT_TICK_CRC_ERR 1 with fol := (x.fol.atTick own x.fol.off).missTick } := by
  simp [Lane.tick, tickOk, h, Follower.missTick, Follower.atTick, Lane.fset, Lane.setRg]

theorem Lane.tick_far (x : Lane) (own : Nat) {v : Dword} {c : Half} (hc : c.toNat = crc16 (beBytes 8 v.toNat))
    (h : own + 2000 < v.toNat ∨ v.toNat + 2000 < own) :
    x.tick own (some (v, c)) = { x with fol := (x.fol.atTick own ((own : Int) - v.toNat)).missTick } := by
  have hok : tickOk own v c = false := by
    rw [tickOk, Bool.and_assoc, Bool.and_eq_false_iff, Bool.and_eq_false_iff]
    exact .inr (h.imp (fun h => decide_eq_false (by omega)) fun h => decide_eq_false (by omega))
  simp [Lane.tick, hok, hc, Follower.missTick, Follower.atTick]

theorem tickOk_of_near {own : Nat} {v : Dword} {c : Half} (hc : c.toNat = crc16 (beBytes 8 v.toNat)) (hlo : v.toNat ≤ own + 2000)
    (hhi : own ≤ v.toNat + 2000) : tickOk own v c = true := by
  simp [tickOk, hc, hlo, hhi]

theorem Lane.tick_counted (x : Lane) (own : Nat) {v : Dword} {c : Half} (hc : c.toNat = crc16 (beBytes 8 v.toNat)) (hlo : v.toNat ≤ own + 2000)
    (hhi : own ≤ v.toNat + 2000) (hh : x.on TMR_STAT_HOLDOVER = true) :
    x.tick own (some (v, c)) =
      { x with fol := { x.fol.atTick own ((own : Int) - v.toNat) with goodRun := satInc 100 x.fol.goodRun } } := by
  have hh' (f : Follower) : ({ x with fol := f } : Lane).on TMR_STAT_HOLDOVER = true := hh
  simp [Lane.tick, tickOk_of_near hc hlo hhi, hc, hh', Follower.atTick]

theorem Lane.tick_taken (x : Lane) (own : Nat) {v : Dword} {c : Half} (hc : c.toNat = crc16 (beBytes 8 v.toNat)) (hlo : v.toNat ≤ own + 2000)
    (hhi : own ≤ v.toNat + 2000) (hh : x.on TMR_STAT_HOLDOVER = false) :
    x.tick own (some (v, c)) = { x with fol := { x.fol with time := max (max x.fol.time own) v.toNat, missRun := 0, off := 0 } } := by
  have hh' (f : Follower) : ({ x with fol := f } : Lane).on TMR_STAT_HOLDOVER = false := hh
  simp [Lane.tick, tickOk_of_near hc hlo hhi, hc, hh']

/-- A tick changes the follower, and of the registers the mark of a wrong CRC alone. -/
theorem Lane.tick_frame (x : Lane) (own : Nat) (frame : Option (Dword × Half)) :
    x.tick own frame = { x with reg := (x.tick own frame).reg, fol := (x.tick own frame).fol } ∧ x.RegsKept (x.tick own frame) [TMR_STAT] := by
  rcases frame with _ | ⟨v, c⟩
  · rw [Lane.tick_none]
    exact ⟨rfl, .refl x _⟩
  by_cases hc : c.toNat = crc16 (beBytes 8 v.toNat)
  · by_cases hfar : own + 2000 < v.toNat ∨ v.toNat + 2000 < own
    · rw [x.tick_far own hc hfar]
      exact ⟨rfl, .refl x _⟩
    · cases hh : x.on TMR_STAT_HOLDOVER with
      | true => rw [x.tick_counted own hc (by omega) (by omega) hh]; exact ⟨rfl, .refl x _⟩
      | false => rw [x.tick_taken own hc (by omega) (by omega) hh]; exact ⟨rfl, .refl x _⟩
  · rw [x.tick_crcBad own hc]
    exact ⟨rfl, x.regsKept_fset _ (by decide)⟩

/-! ### The rate check (R35) -/

/-- The counts of the window as they are shown. -/
def Lane.showWindow (x : Lane) (n : Nat) : Lane :=
  { (x.fset TMR_TICK_XCOUNT (min 65535 n)).fset TMR_TICK_MISS x.fol.missWin with fol := { x.fol with missWin := 0 } }

theorem Lane.showWindow_reg (x : Lane) (n : Nat) :
    (x.showWindow n).reg = ((x.fset TMR_TICK_XCOUNT (min 65535 n)).fset TMR_TICK_MISS x.fol.missWin).reg := rfl

theorem Lane.showWindow_regsKept (x : Lane) (n : Nat) : x.RegsKept (x.showWindow n) [TMR_TICK] :=
  ((x.regsKept_fset (f := TMR_TICK_XCOUNT) _ (List.mem_singleton.2 rfl)).trans
    (Lane.regsKept_fset _ (f := TMR_TICK_MISS) _ (List.mem_singleton.2 rfl))).trans (Lane.regsKept_of_reg_eq (x.showWindow_reg n) _)

theorem Lane.showWindow_xcount (x : Lane) (n : Nat) : (x.showWindow n).fget TMR_TICK_XCOUNT = min 65535 n := by
  rw [Lane.fget_of_reg_eq (x.showWindow_reg n), Lane.fget_fset_bits _ _ (by decide) (by decide) (by decide), Lane.fget_fset_same _ _ _ (by decide)]
  exact Nat.mod_eq_of_lt (by rw [show (2 : Nat) ^ TMR_TICK_XCOUNT.w = 65536 from rfl]; omega)

theorem Lane.showWindow_fget (x : Lane) (n : Nat) {f : Fld} (hf : f.addr ≠ TMR_TICK) : (x.showWindow n).fget f = x.fget f := by
  rw [Lane.fget_of_reg_eq (x.showWindow_reg n), Lane.fget_fset_addr _ _ hf, Lane.fget_fset_addr _ _ hf]

/-- A window that passes. -/
def Lane.passWindow (x : Lane) : Lane := { x with fol := { x.fol with ratePass := satInc 10 x.fol.ratePass } }

/-- A window that fails: marked (R35). -/
def Lane.failWindow (x : Lane) : Lane := { x.fset TMR_STAT_RATE_ERR 1 with fol := { x.fol with ratePass := 0 } }

theorem Lane.failWindow_reg (x : Lane) : x.failWindow.reg = (x.fset TMR_STAT_RATE_ERR 1).reg := rfl

theorem Lane.failWindow_easy (x : Lane) : x.failWindow.easy = x.easy := by
  rw [Lane.easy, Lane.mode, Lane.fget_of_reg_eq x.failWindow_reg, x.fget_fset_addr _ (by decide), Lane.easy, Lane.mode]

/-- The leave for a failed rate check is due. -/
def Lane.rateDue (x : Lane) : Lane := { x with due := x.due ++ [(leaveRate, none)] }

theorem Lane.rateDue_reg (x : Lane) : x.rateDue.reg = x.reg := rfl

section Window

variable {s : State} {l : LaneId} {n : Nat} (hh : (s.lane l).on TMR_STAT_HOLDOVER = false)

include hh

theorem State.showWindow_holdover : ((s.modLane l (·.showWindow n)).lane l).on TMR_STAT_HOLDOVER = false := by
  rw [State.lane_modLane, Lane.on, Lane.showWindow_fget _ _ (by decide)]
  exact hh

theorem State.rateWindow_of_pass (hn : 24875 ≤ n ∧ n ≤ 25125) :
    s.rateWindow l n = (s.modLane l (·.showWindow n)).modLane l Lane.passWindow := by
  have h := State.showWindow_holdover (n := n) hh
  unfold State.rateWindow
  extract_lets s'
  rw [if_neg (by rw [show s'.lane l = (s.modLane l (·.showWindow n)).lane l from rfl, h]; decide), if_pos hn]
  rfl

theorem State.rateWindow_of_fail (he : (s.lane l).easy = false) (hn : n < 24875 ∨ 25125 < n) :
    s.rateWindow l n = ((s.modLane l (·.showWindow n)).modLane l Lane.failWindow).modLane l Lane.rateDue := by
  have h := State.showWindow_holdover (n := n) hh
  have he' : (((s.modLane l (·.showWindow n)).modLane l Lane.failWindow).lane l).easy = false := by
    rw [State.lane_modLane, State.lane_modLane, Lane.failWindow_easy, Lane.easy, Lane.mode, Lane.showWindow_fget _ _ (by decide)]
    exact he
  unfold State.rateWindow
  extract_lets s'
  rw [if_neg (by rw [show s'.lane l = (s.modLane l (·.showWindow n)).lane l from rfl, h]; decide), if_neg (by omega)]
  unfold State.rateFails
  extract_lets s₂
  rw [if_neg (by rw [show s₂.lane l = ((s.modLane l (·.showWindow n)).modLane l Lane.failWindow).lane l from rfl, he']; decide)]
  rfl

end Window

/-! ### Holdover (R36, R38) -/

theorem Lane.holdEntry_of_missed {x : Lane} (hh : x.on TMR_STAT_HOLDOVER = false) (hm : 100 ≤ x.fol.missRun) (off : Int) :
    x.holdEntry off = { x.fset TMR_STAT_HOLDOVER 1 with
      fol := { x.fol with holdStart := x.fol.time, holdOff := off, slewT := x.fol.time, goodRun := 0, peerOff := [] } } := by
  simp [Lane.holdEntry, hh, Nat.not_lt.2 hm]

theorem Lane.holdExit_of_passed {x : Lane} (hh : x.on TMR_STAT_HOLDOVER = true) (hg : 100 ≤ x.fol.goodRun) :
    x.holdExit = { x.fset TMR_STAT_HOLDOVER 0 with fol := { x.fol with missRun := 0, goodRun := 0, peerOff := [] } } := by
  simp [Lane.holdExit, hh, hg]

theorem Lane.holdExit_of_not_passed {x : Lane} (hg : x.fol.goodRun < 100) : x.holdExit = x := by
  simp [Lane.holdExit, Nat.not_le.2 hg]

/-- Settles O6: each command is a change of one lane, whose cases are the forms of the frame, of the window and of the holdover. -/
theorem followersTakeGoodTicksAndTheirRates : Obligations.FollowersTakeGoodTicksAndTheirRates := by
  refine ⟨fun s l own frame hl => ?tick, fun s l n hl hh he => ?rate, fun s l hl hh hm => ?entry, fun s l hl hh => ?exit,
    fun s since hup hload ht hx => ?restart, fun s l tm hl => ?idle⟩
  case tick =>
    obtain ⟨honly, hlane⟩ := (s.at own).upLane_next l (·.tick own frame) (by rwa [State.at_lane])
    rw [State.at_lane] at hlane
    obtain ⟨hframe, hkept⟩ := (s.lane l).tick_frame own frame
    refine ⟨_, rfl, (s.onlyLane_at own l).trans honly, ?_, ?_, ?_, ?_, ?_, ?_⟩ <;> rw [hlane]
    · exact congrArg (fun y : Lane => { y with notes := [] }) hframe
    · exact hkept
    · rintro v c rfl hc hlo hhi hh
      rw [Lane.tick_taken _ own hc hlo hhi hh]
      exact ⟨rfl, rfl⟩
    · rintro v c rfl hc
      rw [Lane.tick_crcBad _ own hc]
      exact ⟨Lane.on_of_reg_fset_one (x := s.lane l) rfl (by decide) rfl, rfl⟩
    · rintro v c rfl hfar
      by_cases hc : c.toNat = crc16 (beBytes 8 v.toNat)
      · rw [Lane.tick_far _ own hc hfar]; rfl
      · rw [Lane.tick_crcBad _ own hc]; rfl
    · rintro rfl
      rfl
  case rate =>
    have hexec : exec (.rateCheckWindow l n) s = .next (s.rateWindow l n) :=
      congrArg Host.Outcome.next (if_neg (by rw [hl]; decide))
    have hkept := (s.lane l).showWindow_regsKept n
    have hwide : (s.lane l).RegsKept ((s.lane l).showWindow n) [TMR_TICK, TMR_STAT] := fun a ha =>
      hkept a fun h => ha (List.mem_cons.2 (.inl (List.mem_singleton.1 h)))
    by_cases hn : 24875 ≤ n ∧ n ≤ 25125
    · have hlane : ((s.modLane l (·.showWindow n)).modLane l Lane.passWindow).lane l = ((s.lane l).showWindow n).passWindow := by
        rw [State.lane_modLane, State.lane_modLane]
      refine ⟨_, hexec.trans (congrArg _ (State.rateWindow_of_pass hh hn)), (s.onlyLane_modLane l _).trans (State.onlyLane_modLane _ l _), ?_⟩
      rw [hlane]
      exact ⟨hwide, (s.lane l).showWindow_xcount n, fun _ => ⟨hkept _ (by decide), rfl⟩, fun h => absurd hn (by omega)⟩
    · have hlane : (((s.modLane l (·.showWindow n)).modLane l Lane.failWindow).modLane l Lane.rateDue).lane l =
          ((s.lane l).showWindow n).failWindow.rateDue := by
        rw [State.lane_modLane, State.lane_modLane, State.lane_modLane]
      have hreg : ((s.lane l).showWindow n).failWindow.rateDue.reg = (((s.lane l).showWindow n).fset TMR_STAT_RATE_ERR 1).reg := rfl
      refine ⟨_, hexec.trans (congrArg _ (State.rateWindow_of_fail hh he (by omega))),
        ((s.onlyLane_modLane l _).trans (State.onlyLane_modLane _ l _)).trans (State.onlyLane_modLane _ l _), ?_⟩
      rw [hlane]
      refine ⟨(hwide.trans (Lane.regsKept_fset _ (f := TMR_STAT_RATE_ERR) 1 (by decide))).trans (Lane.regsKept_of_reg_eq hreg _), ?_,
        fun h => absurd h hn, fun _ => ⟨?_, rfl⟩⟩
      · rw [Lane.fget_of_reg_eq hreg, Lane.fget_fset_addr _ _ (by decide), Lane.showWindow_xcount]
      · rw [Lane.on_of_reg_eq hreg, Lane.on_fset_one _ _ (by decide) rfl]
  case entry =>
    obtain ⟨honly, hlane⟩ := s.upLane_next l (·.holdEntry (s.holdOffset l)) hl
    rw [Lane.holdEntry_of_missed hh hm] at hlane
    refine ⟨_, rfl, honly, ?_⟩
    rw [hlane]
    exact ⟨(s.lane l).regsKept_fset _ (by decide), rfl, Lane.on_of_reg_fset_one (x := s.lane l) rfl (by decide) rfl, rfl⟩
  case exit =>
    obtain ⟨honly, hlane⟩ := s.upLane_next l Lane.holdExit hl
    refine ⟨_, rfl, honly, ?_⟩
    rw [hlane]
    by_cases hg : 100 ≤ (s.lane l).fol.goodRun
    · rw [Lane.holdExit_of_passed hh hg, decide_eq_false (by omega)]
      exact ⟨(s.lane l).regsKept_fset _ (by decide), rfl, Lane.on_of_reg_fset_zero (x := s.lane l) rfl (by decide)⟩
    · rw [Lane.holdExit_of_not_passed (by omega), decide_eq_true (by omega)]
      exact ⟨.refl _ _, rfl, hh⟩
  case restart =>
    refine ⟨_, rfl, ?_⟩
    intro tb
    have hg : (s.hub.up && !s.hub.upd.loader && !s.hub.ticks && s.hub.on CLKC_HSTAT_XT_OK) = true := by rw [hup, hload, ht, hx]; rfl
    exact if_pos hg
  case idle =>
    obtain ⟨honly, hlane⟩ := s.upLane_laneAt_next l tm (fun x => { x with idle := false }) hl
    exact ⟨_, rfl, honly, hlane⟩

/-! ### Arming (R45, R73) -/

/-- The registers of an arming: armed, with bench mode fixed (R199). -/
def Lane.armRegs (x : Lane) : Lane :=
  (x.fset TMR_STAT_ARMED 1).fset LCTL_STAT_BENCH (b2n (x.on LCTL_STAT_STRAP && x.on LCTL_STAT_AUTH))

theorem Lane.armRegs_armed (x : Lane) : x.armRegs.armed = true := by
  rw [Lane.armed, Lane.armRegs, Lane.on_fset_addr _ _ (by decide), Lane.on_fset_one _ _ (by decide) rfl]

theorem Lane.armRegs_bench (x : Lane) : x.armRegs.on LCTL_STAT_BENCH = (x.on LCTL_STAT_STRAP && x.on LCTL_STAT_AUTH) := by
  rw [Lane.on, Lane.armRegs, Lane.fget_fset_same _ _ _ (by decide)]
  cases x.on LCTL_STAT_STRAP && x.on LCTL_STAT_AUTH <;> rfl

theorem Lane.armRegs_onlyRegs (x : Lane) : x.OnlyRegs x.armRegs [TMR_STAT, LCTL_STAT] :=
  (x.onlyRegs_fset (f := TMR_STAT_ARMED) _ (by decide)).trans (Lane.onlyRegs_fset _ (f := LCTL_STAT_BENCH) _ (by decide))

section Arm

variable {s : State} {l : LaneId} (hl : (s.lane l).rst.held = false) (hu : (s.lane l).unarmed = true)

include hl hu

theorem State.arm_guard : ((s.lane l).rst.held || !(s.lane l).unarmed) = false := by
  rw [hl, hu]
  rfl

theorem State.arm_of_untested (ht : s.split = false ∧ (s.lane l).injPassed = false) :
    s.arm l = s.setLane l ((s.lane l).fset TMR_STAT_ARM_REFUSED 1) := by
  unfold State.arm
  simp only [State.arm_guard hl hu, ht, Bool.not_false, Bool.and_self, Bool.false_eq_true, if_true, if_false]

theorem State.arm_of_unchecked (ht : ¬ (s.split = false ∧ (s.lane l).injPassed = false)) (hc : (s.lane l).checksBut = false) :
    s.arm l = s := by
  have ht' : (!s.split && !(s.lane l).injPassed) = false := by simpa using ht
  unfold State.arm
  simp only [State.arm_guard hl hu, ht', hc, Bool.not_false, Bool.false_eq_true, if_true, if_false]

theorem State.arm_of_checked (ht : ¬ (s.split = false ∧ (s.lane l).injPassed = false)) (hc : (s.lane l).checksBut = true) :
    s.arm l = (s.setLane l ((s.lane l).armRegs.note 0 2 200
      [(1, b2n ((s.lane l).on LCTL_STAT_STRAP && (s.lane l).on LCTL_STAT_AUTH))])).flushNotes l := by
  have ht' : (!s.split && !(s.lane l).injPassed) = false := by simpa using ht
  unfold State.arm
  simp only [State.arm_guard hl hu, ht', hc, Bool.not_true, Bool.false_eq_true, if_false]
  rfl

end Arm

/-! ### Pairing (R46, R47) -/

theorem mem_insertL {α : Type} [DecidableEq α] (x y : α) (xs : List α) : y ∈ insertL x xs ↔ y = x ∨ y ∈ xs := by
  unfold insertL
  split
  next h =>
    rw [List.contains_iff_mem] at h
    exact ⟨.inr, fun hy => hy.elim (fun e => e ▸ h) id⟩
  next => rw [List.mem_append, List.mem_singleton, or_comm]

/-- The first multiple of `p` from `t` on. -/
theorem ceilMult_spec {p : Nat} (hp : 0 < p) (t : Nat) : t ≤ ceilMult p t ∧ ceilMult p t < t + p ∧ ceilMult p t % p = 0 := by
  rw [ceilMult, if_neg (by omega)]
  have h := Nat.div_add_mod (t + p - 1) p
  have hm := Nat.mod_lt (t + p - 1) hp
  rw [Nat.mul_comm] at h
  exact ⟨by omega, by omega, Nat.mul_mod_left _ _⟩

/-- The lane that has taken the values of `src`. -/
def Lane.tookValues (x : Lane) (src : LaneId) (v : PairValues) : Lane :=
  { x with start := { x.start with peers := (src, v) :: x.start.peers.filter fun e => e.1 != src } }

/-- The lane that has paired with `src`. -/
def Lane.pairedWith (x : Lane) (dst src : LaneId) : Lane :=
  { x with start := { x.start with paired := insertL src (insertL dst x.start.paired) } }

section Pair

variable {s : State} {dst src : LaneId} {v : PairValues} {tm : Nat} (hl : (s.lane dst).rst.held = false) (ha : (s.lane dst).armed = true)
  (hr : (s.lane dst).sitReady = true) (hm : s.modSitReady = true) (hne : dst ≠ src) (hup : (s.lane dst).linkUp ((s.lane dst).linkTo src) = true)
  (hf : (s.lane dst).start.firstCatch = none)

include hl ha hr hm hne hup hf

theorem State.pair_guard : ((s.lane dst).rst.held || !(s.lane dst).armed || !(s.lane dst).sitReady || !s.modSitReady || dst == src ||
    !((s.lane dst).linkUp ((s.lane dst).linkTo src)) || (s.lane dst).start.firstCatch.any (fun f => decide (f ≤ tm))) = false := by
  simp [hl, ha, hr, hm, hne, hup, hf]

theorem State.pair_of_ne (hv : v ≠ (s.lane dst).pairValues) :
    s.pair dst src v tm = (s.setLane dst (((s.lane dst).tookValues src v).note 0 2 47 [(1, src.code)])).flushNotes dst := by
  unfold State.pair
  extract_lets x ps y z
  exact (if_neg (by rw [State.pair_guard hl ha hr hm hne hup hf]; decide)).trans (if_neg hv)

theorem State.pair_of_eq (hv : v = (s.lane dst).pairValues) :
    s.pair dst src v tm =
      if (s.lane dst).set.autoStart then
        s.setLane dst { ((s.lane dst).tookValues src v).pairedWith dst src with
          start := { (((s.lane dst).tookValues src v).pairedWith dst src).start with
            firstCatch := some (s.firstCatchAt (((s.lane dst).tookValues src v).pairedWith dst src) tm) } }
      else s.setLane dst (((s.lane dst).tookValues src v).pairedWith dst src) := by
  have hauto : ((((s.lane dst).tookValues src v).pairedWith dst src).set.autoStart &&
      (((s.lane dst).tookValues src v).pairedWith dst src).start.firstCatch.isNone) = (s.lane dst).set.autoStart := by
    rw [show (((s.lane dst).tookValues src v).pairedWith dst src).start.firstCatch = none from hf, Option.isNone_none, Bool.and_true]
    rfl
  rw [← hauto]
  unfold State.pair
  extract_lets x ps y z
  exact (if_neg (by rw [State.pair_guard hl ha hr hm hne hup hf]; decide)).trans (if_pos hv)

end Pair

/-- With no first catch set in the pair, the first catch is the first multiple of the period 10 ms later (R47). -/
theorem State.firstCatchAt_of_none {s : State} {x : Lane} (h : ∀ y ∈ x.start.paired, (s.lane y).start.firstCatch = none) (tm : Nat) :
    s.firstCatchAt x tm = ceilMult x.period (tm + 10000000) := by
  rw [State.firstCatchAt, List.findSome?_eq_none_iff.2 h]

@[simp] theorem State.laneAt_start (s : State) (l k : LaneId) (tm : Nat) : ((s.laneAt l tm).lane k).start = (s.lane k).start := by
  by_cases h : k = l
  · rw [h, State.lane_laneAt]; rfl
  · rw [s.lane_laneAt_ne tm h]

@[simp] theorem State.laneAt_modSitReady (s : State) (l : LaneId) (tm : Nat) : (s.laneAt l tm).modSitReady = s.modSitReady := by
  rw [State.modSitReady, State.laneAt_phase, State.modSitReady]

/-- Settles O8: the cases of ARM are those of its checks, the cases of PAIRING whether the values are equal. -/
theorem armedLanesPairByEqualValues : Obligations.ArmedLanesPairByEqualValues := by
  refine ⟨⟨fun s l hl hr ha => ?arm, fun s l hl => ?cmax⟩, fun s dst src v tm hl ha hr hm hne hup hf => ?pair⟩
  case arm =>
    have hu : (s.lane l).unarmed = true := (Lane.unarmed_iff _).2 ⟨hr, ha⟩
    by_cases ht : s.split = false ∧ (s.lane l).injPassed = false
    · have hlane : (s.arm l).lane l = (s.lane l).fset TMR_STAT_ARM_REFUSED 1 := by rw [State.arm_of_untested hl hu ht, State.lane_setLane]
      have harm : ((s.lane l).fset TMR_STAT_ARM_REFUSED 1).armed = false := by
        rw [Lane.armed, Lane.on_fset_bits _ _ (by decide) (by decide) (by decide)]
        exact ha
      refine ⟨_, rfl, by rw [State.arm_of_untested hl hu ht]; exact s.onlyLane_setLane l _, ?_⟩
      rw [hlane]
      exact ⟨(s.lane l).onlyRegs_fset _ (by decide), fun _ => ⟨Lane.on_fset_one _ _ (by decide) rfl, harm⟩,
        fun h => absurd ht (by simp_all), fun _ => harm⟩
    · cases hc : (s.lane l).checksBut with
      | false =>
        refine ⟨_, rfl, by rw [State.arm_of_unchecked hl hu ht hc]; exact .refl s l, ?_⟩
        rw [State.arm_of_unchecked hl hu ht hc]
        exact ⟨.refl _ _, fun h => absurd h ht, fun h => absurd h.2 (by decide), fun _ => ha⟩
      | true =>
        have hs := State.arm_of_checked hl hu ht hc
        have hlane : (s.arm l).lane l = { (s.lane l).armRegs with notes := [] } := by
          rw [hs, State.flushNotes_lane, State.lane_setLane]
          rfl
        refine ⟨_, rfl, by rw [hs]; exact (s.onlyLane_setLane l _).trans (State.onlyLane_flushNotes _ l), ?_⟩
        rw [hlane]
        exact ⟨(s.lane l).armRegs_onlyRegs.notes _, fun h => absurd h ht,
          fun _ => ⟨(s.lane l).armRegs_armed, (s.lane l).armRegs_bench⟩, fun h => absurd h (by decide)⟩
  case cmax =>
    obtain ⟨honly, hlane⟩ := s.upLane_next l (·.setRg TMR_CMAX 0) hl
    refine ⟨_, rfl, honly, ?_⟩
    rw [hlane]
    have hset : (s.lane l).OnlyRegs ((s.lane l).setRg TMR_CMAX 0) [TMR_CMAX] :=
      ⟨rfl, fun a ha => Lane.rg_setRg_ne _ _ fun e => ha (List.mem_singleton.2 e)⟩
    exact ⟨hset.notes _, (s.lane l).rg_setRg_same TMR_CMAX 0⟩
  case pair =>
    have hat : (s.laneAt dst tm).lane dst = (s.lane dst).at tm := s.lane_laneAt dst tm
    have hl' : ((s.laneAt dst tm).lane dst).rst.held = false := by rw [hat]; exact hl
    have ha' : ((s.laneAt dst tm).lane dst).armed = true := by rw [hat]; exact ha
    have hr' : ((s.laneAt dst tm).lane dst).sitReady = true := by rw [hat]; exact hr
    have hm' : (s.laneAt dst tm).modSitReady = true := by rw [State.laneAt_modSitReady]; exact hm
    have hup' : ((s.laneAt dst tm).lane dst).linkUp (((s.laneAt dst tm).lane dst).linkTo src) = true := by rw [hat]; exact hup
    have hf' : ((s.laneAt dst tm).lane dst).start.firstCatch = none := by rw [State.laneAt_start]; exact hf
    have hv' : ((s.laneAt dst tm).lane dst).pairValues = (s.lane dst).pairValues := by rw [hat]; rfl
    have honly := s.onlyLane_laneAt dst tm
    by_cases hv : v = (s.lane dst).pairValues
    · have hpair := State.pair_of_eq (v := v) (tm := tm) hl' ha' hr' hm' hne hup' hf' (hv.trans hv'.symm)
      rw [hat] at hpair
      have hmem : src ∈ insertL src (insertL dst (s.lane dst).start.paired) ∧ dst ∈ insertL src (insertL dst (s.lane dst).start.paired) := by
        simp only [mem_insertL, true_or, or_true, and_self]
      cases hauto : (s.lane dst).set.autoStart with
      | true =>
        rw [if_pos (show ((s.lane dst).at tm).set.autoStart = true from hauto)] at hpair
        refine ⟨_, rfl, by rw [hpair]; exact honly.trans (State.onlyLane_setLane _ dst _), ?_⟩
        rw [hpair, State.lane_setLane]
        refine ⟨rfl, fun _ => ⟨hmem.1, hmem.2, fun _ hp hnone => ?_⟩, fun h => absurd hv h⟩
        have hfirst := State.firstCatchAt_of_none (s := s.laneAt dst tm) (x := (((s.lane dst).at tm).tookValues src v).pairedWith dst src)
          (fun y hy => by rw [State.laneAt_start]; exact hnone y hy) tm
        exact ⟨_, congrArg some hfirst, ceilMult_spec hp _⟩
      | false =>
        rw [if_neg (show ¬ ((s.lane dst).at tm).set.autoStart = true by rw [show ((s.lane dst).at tm).set.autoStart = false from hauto]; decide)] at hpair
        refine ⟨_, rfl, by rw [hpair]; exact honly.trans (State.onlyLane_setLane _ dst _), ?_⟩
        rw [hpair, State.lane_setLane]
        exact ⟨rfl, fun _ => ⟨hmem.1, hmem.2, fun h => absurd h (by decide)⟩, fun h => absurd hv h⟩
    · have hpair := State.pair_of_ne (v := v) (tm := tm) hl' ha' hr' hm' hne hup' hf' (fun h => hv (h.trans hv'))
      refine ⟨_, rfl, by rw [hpair]; exact (honly.trans (State.onlyLane_setLane _ dst _)).trans (State.onlyLane_flushNotes _ dst), ?_⟩
      rw [hpair, State.flushNotes_lane, State.lane_setLane, hat]
      exact ⟨rfl, fun h => absurd h hv, fun _ => ⟨rfl, hf⟩⟩

end Sys2Proof.Machine
end

section
/-! PROOFS. The rules of a lane's tasks, contexts and flags, and the statements on consensus frames and fetched telegrams (R53 to R61) and on the
frames of the vote (R154 to R158, R165). -/

namespace Sys2Proof.Machine

/-! ### Tasks of a lane -/

/-- A change of a task that keeps its number is what the lane reads of it. -/
theorem Lane.taskOf_modTask {x : Lane} {n : Nat} {k : TaskRun} (f : TaskRun → TaskRun) (h : x.taskOf n = some k) (hf : (f k).tnum = k.tnum) :
    (x.modTask n f).taskOf n = some (f k) := by
  have hsome : (x.taskOf n).isSome = true := by rw [h]; rfl
  rw [Lane.modTask, if_pos hsome]
  show (x.tasks.map fun k => if k.tnum = n then f k else k).find? (fun k => k.tnum == n) = some (f k)
  have h' : x.tasks.find? (fun k => k.tnum == n) = some k := h
  have hk : k.tnum = n := by simpa using List.find?_some h'
  generalize x.tasks = ks at h'
  induction ks with
  | nil => exact absurd h' (by simp)
  | cons j ks ih =>
    rw [List.find?_cons] at h'
    rw [List.map_cons, List.find?_cons]
    by_cases hj : j.tnum = n
    · rw [beq_iff_eq.2 hj] at h'
      obtain rfl : j = k := Option.some.inj h'
      rw [if_pos hk, hf, beq_iff_eq.2 hk]
    · rw [beq_eq_false_iff_ne.2 hj] at h'
      rw [if_neg hj, beq_eq_false_iff_ne.2 hj]
      exact ih h'

/-- A change of a task changes the list of tasks alone. -/
theorem Lane.modTask_frame (x : Lane) (n : Nat) (f : TaskRun → TaskRun) : x.modTask n f = { x with tasks := (x.modTask n f).tasks } := by
  unfold Lane.modTask
  split <;> rfl

@[simp] theorem Lane.modTask_reg (x : Lane) (n : Nat) (f : TaskRun → TaskRun) : (x.modTask n f).reg = x.reg := by rw [x.modTask_frame n f]
@[simp] theorem Lane.modTask_sram (x : Lane) (n : Nat) (f : TaskRun → TaskRun) : (x.modTask n f).sram = x.sram := by rw [x.modTask_frame n f]
@[simp] theorem Lane.modTask_due (x : Lane) (n : Nat) (f : TaskRun → TaskRun) : (x.modTask n f).due = x.due := by rw [x.modTask_frame n f]

/-! ### Contexts of a lane -/

theorem getD_listMod_same {α : Type} {xs : List α} {c : Nat} (h : c < xs.length) (f : α → α) (d : α) :
    (listMod xs c f).getD c d = f (xs.getD c d) := by
  induction xs generalizing c with
  | nil => exact absurd h (Nat.not_lt_zero _)
  | cons y ys ih =>
    cases c with
    | zero => rfl
    | succ c => exact ih (Nat.lt_of_succ_lt_succ h)

theorem getD_listMod_ne {α : Type} (xs : List α) {c j : Nat} (h : j ≠ c) (f : α → α) (d : α) : (listMod xs c f).getD j d = xs.getD j d := by
  induction xs generalizing c j with
  | nil => rfl
  | cons y ys ih =>
    cases c with
    | zero =>
      cases j with
      | zero => exact absurd rfl h
      | succ j => rfl
    | succ c =>
      cases j with
      | zero => rfl
      | succ j => exact ih (fun e => h (congrArg _ e))

theorem length_listMod {α : Type} (xs : List α) (c : Nat) (f : α → α) : (listMod xs c f).length = xs.length := by
  induction xs generalizing c with
  | nil => rfl
  | cons y ys ih =>
    cases c with
    | zero => rfl
    | succ c => exact congrArg (· + 1) (ih c)

theorem Lane.ctx_modCtx_same {x : Lane} {c : Nat} (h : c < x.ctxs.length) (f : VoteCtx → VoteCtx) : (x.modCtx c f).ctx c = f (x.ctx c) :=
  getD_listMod_same h f _

theorem Lane.ctx_modCtx_ne (x : Lane) {c j : Nat} (h : j ≠ c) (f : VoteCtx → VoteCtx) : (x.modCtx c f).ctx j = x.ctx j :=
  getD_listMod_ne _ h f _

theorem Lane.ctxs_length_modCtx (x : Lane) (c : Nat) (f : VoteCtx → VoteCtx) : (x.modCtx c f).ctxs.length = x.ctxs.length :=
  length_listMod _ _ _

/-! ### Flags and counts of the vote -/

/-- A flag of the vote is set, with interrupt line 2; nothing else changes. -/
theorem Lane.voteFlag_onlyRegs (x : Lane) {f : Fld} {as : List Nat} (hf : f.addr ∈ as) (hi : LCTL_IRQ_PEND ∈ as) : x.OnlyRegs (x.voteFlag f) as :=
  (x.onlyRegs_fset 1 hf).trans ⟨rfl, fun _ ha => Lane.rg_raise_ne _ _ fun e => ha (e ▸ hi)⟩

theorem Lane.on_voteFlag_same (x : Lane) {f : Fld} (h : f.lo + 1 ≤ 32) (hw : f.w = 1) (hi : f.addr ≠ LCTL_IRQ_PEND) : (x.voteFlag f).on f = true := by
  rw [Lane.on, Lane.voteFlag, Lane.fget_raise_ne _ _ hi]
  exact x.on_fset_one f h hw

theorem Lane.fget_voteFlag (x : Lane) {f g : Fld} (ha : g.addr = f.addr) (hi : g.addr ≠ LCTL_IRQ_PEND) (hg : g.lo + g.w ≤ 32)
    (h : g.lo + g.w ≤ f.lo ∨ f.lo + f.w ≤ g.lo) : (x.voteFlag f).fget g = x.fget g := by
  rw [Lane.voteFlag, Lane.fget_raise_ne _ _ hi, Lane.fget_fset_bits _ _ ha hg h]

theorem Lane.fget_voteFlag_addr (x : Lane) {f g : Fld} (ha : g.addr ≠ f.addr) (hi : g.addr ≠ LCTL_IRQ_PEND) : (x.voteFlag f).fget g = x.fget g := by
  rw [Lane.voteFlag, Lane.fget_raise_ne _ _ hi, Lane.fget_fset_addr _ _ ha]

theorem satAdd_le (m x n : Nat) : satAdd m x n ≤ m := by
  unfold satAdd
  split <;> omega

theorem satAdd_eq_min (m x n : Nat) : satAdd m x n = min m (x + n) := by
  unfold satAdd
  split <;> omega

/-- A saturating count reads as the sum, or as the field's largest value. -/
theorem Lane.fget_fsat_same (x : Lane) (f : Fld) (n : Nat) (h : f.lo + f.w ≤ 32) : (x.fsat f n).fget f = min (ones f.w) (x.fget f + n) := by
  rw [Lane.fsat, x.fget_fset_same f _ h, satAdd_eq_min, Nat.mod_eq_of_lt]
  have : 0 < 2 ^ f.w := Nat.two_pow_pos _
  exact Nat.lt_of_le_of_lt (Nat.min_le_left _ _) (by rw [ones]; omega)

/-! ### Peers of a lane -/

theorem Lane.mem_staying {x : Lane} {y : LaneId} (h : y ∈ x.staying) : y ∈ x.inset := List.mem_of_mem_filter h

/-- A voter that another lane's voter is still to hear from decides nothing. -/
theorem State.tryDecide_of_awaited {s : State} {l y : LaneId} {task : Nat} {k : TaskRun} (hk : (s.lane l).taskOf task = some k)
    (hy : y ∈ (s.lane l).awaits s.voters) (hn : ∀ e ∈ k.peers, e.1 = y → e.2.tn ≠ k.tn) : s.tryDecide l task = s := by
  have hmiss : ((s.lane l).awaits s.voters).all (fun y => k.peers.any fun e => e.1 == y && e.2.tn == k.tn) = false := by
    refine List.all_eq_false.2 ⟨y, hy, fun hany => ?_⟩
    obtain ⟨e, he, hey⟩ := List.any_eq_true.1 hany
    simp only [Bool.and_eq_true, beq_iff_eq] at hey
    exact hn e he hey.1 hey.2
  unfold State.tryDecide
  simp only [hk, hmiss, Bool.and_false, Bool.false_eq_true, if_false]

theorem Lane.mem_awaits_of_voter {x : Lane} (vs : List LaneId) {y : LaneId} (hs : x.shadow = false) (hy : y ∈ x.inset) (hne : y ≠ x.id)
    (hup : (x.link (x.linkTo y)).eff = true) : y ∈ x.awaits vs := by
  simp [Lane.awaits, hs, hy, hne, hup]

theorem Lane.holdCheck_of_follows {x : Lane} (h : x.on TMR_STAT_HOLDOVER = false) (src : LaneId) (f : ConsFrame) (tm : Nat) :
    x.holdCheck src f tm = x := by
  rw [Lane.holdCheck, h]
  rfl

/-! ### Consensus frames (R53, R60, R61, R165) -/

/-- The frame of `src` among a task's peers. -/
def TaskRun.withPeer (k : TaskRun) (src : LaneId) (f : ConsFrame) : TaskRun := { k with peers := (src, f) :: k.peers.filter fun e => e.1 != src }

/-- A voter's frame for the running catch, in time. -/
theorem State.consFrame_of_voter {s : State} {dst src : LaneId} {task tm : Nat} {k : TaskRun} {f : ConsFrame}
    (hl : (s.lane dst).rst.held = false) (he : (s.lane dst).easy = false) (hv : (s.lane dst).inVote = true) (hne : dst ≠ src)
    (hsrc : src ∈ (s.lane dst).inset) (hup : ((s.lane dst).link ((s.lane dst).linkTo src)).eff = true)
    (hh : (s.lane dst).on TMR_STAT_HOLDOVER = false) (hk : (s.lane dst).taskOf task = some k) (hd : k.decided = false) (ht : f.tn = k.tn)
    (hw : tm ≤ k.tn + (s.lane dst).consWindow task) :
    s.consFrame dst src task f tm = (s.setLane dst ((s.lane dst).modTask task (·.withPeer src f))).tryDecide dst task := by
  have hears : (s.lane dst).hears src = true := by simp [Lane.hears, hup, hsrc]
  unfold State.consFrame
  simp only [hl, he, hv, hears, Lane.holdCheck_of_follows hh, hk, hd, ht, beq_eq_false_iff_ne.2 hne, List.contains_iff_mem.2 hsrc,
    decide_eq_false (Nat.not_lt.2 hw), Bool.true_or, Bool.not_true, Option.getD_some, beq_self_eq_true, Bool.and_false,
    Bool.and_true, Bool.or_self, Nat.lt_irrefl, decide_false, Bool.false_eq_true, if_false]
  rfl

/-- A frame of a lane outside the voter set. -/
theorem State.consFrame_of_stray {s : State} {dst src : LaneId} (task tm : Nat) (f : ConsFrame)
    (hl : (s.lane dst).rst.held = false) (he : (s.lane dst).easy = false) (hv : (s.lane dst).inVote = true)
    (hs : (s.lane dst).shadow = false) (hne : dst ≠ src) (hsrc : src ∉ (s.lane dst).inset) (hr : (s.lane dst).readm.who ≠ some src) :
    s.consFrame dst src task f tm = s.setLane dst (s.lane dst).countStray := by
  have hc : (s.lane dst).inset.contains src = false := by simpa using hsrc
  unfold State.consFrame
  simp only [hl, he, hv, hs, hc, beq_eq_false_iff_ne.2 hne, beq_eq_false_iff_ne.2 hr, Bool.true_or, Bool.not_true, Bool.not_false,
    Bool.or_self, Bool.false_eq_true, if_false, if_true]

theorem State.consFrame_of_easy {s : State} {dst : LaneId} (src : LaneId) (task tm : Nat) (f : ConsFrame) (he : (s.lane dst).easy = true) :
    s.consFrame dst src task f tm = s := by
  unfold State.consFrame
  simp only [he, Bool.or_true, Bool.true_or, if_true]

theorem execConsensusFrame_some {dst src : LaneId} {frame : List Byte} {f : ConsFrame} (h : consOf src frame = some f) (task tm : Nat) (s : State) :
    exec (.consensusFrame dst src task frame tm) s = .next ((s.laneAt dst tm).consFrame dst src task f tm) := by
  show execConsensusFrame dst src task frame tm s = _
  rw [execConsensusFrame, h]

theorem execConsensusFrame_none {dst src : LaneId} {frame : List Byte} (h : consOf src frame = none) (task tm : Nat) (s : State) :
    exec (.consensusFrame dst src task frame tm) s = .next (s.laneAt dst tm) := by
  show execConsensusFrame dst src task frame tm s = _
  rw [execConsensusFrame, h]

/-- Settles O12: a voter's frame joins its peers and another voter is still awaited; a stray one is counted; the others give nothing. -/
theorem consensusFramesAreTakenFromVotersOnly : Obligations.ConsensusFramesAreTakenFromVotersOnly := by
  refine ⟨?voter, ?stray, ?ignored⟩
  case voter =>
    intro s dst src y task k frame f tm hf hl he hv hne hsrc hup hh hs hk _ hd ht hw hy hyid hysrc hyup hyn
    have hat : (s.laneAt dst tm).lane dst = (s.lane dst).at tm := s.lane_laneAt dst tm
    have hframe : (s.laneAt dst tm).consFrame dst src task f tm =
        ((s.laneAt dst tm).setLane dst (((s.lane dst).at tm).modTask task (·.withPeer src f))).tryDecide dst task := by
      rw [← hat]
      apply State.consFrame_of_voter (k := k) (hne := hne) (hd := hd) (ht := ht)
      all_goals rw [hat]
      · exact hl
      · exact he
      · exact hv
      · exact Lane.mem_staying hsrc
      · exact hup
      · exact hh
      · exact hk
      · exact hw
    have htask : (((s.lane dst).at tm).modTask task (·.withPeer src f)).taskOf task = some (k.withPeer src f) :=
      Lane.taskOf_modTask (x := (s.lane dst).at tm) (·.withPeer src f) hk rfl
    rw [State.tryDecide_of_awaited (y := y) (k := k.withPeer src f)] at hframe
    rotate_left
    · rw [State.lane_setLane]; exact htask
    · rw [State.lane_setLane, Lane.modTask_frame]
      exact Lane.mem_awaits_of_voter (x := s.lane dst) _ hs (Lane.mem_staying hy) hyid hyup
    · intro e he' hey
      rcases List.mem_cons.1 he' with rfl | he'
      · exact absurd hey.symm hysrc
      · exact hyn e (List.mem_of_mem_filter he') hey
    refine ⟨_, k.withPeer src f, (execConsensusFrame_some hf task tm s).trans (congrArg _ hframe),
      (s.onlyLane_laneAt dst tm).trans (State.onlyLane_setLane _ dst _), ?_⟩
    rw [State.lane_setLane]
    exact ⟨Lane.modTask_reg _ _ _, Lane.modTask_sram _ _ _, htask, List.mem_cons_self, hd⟩
  case stray =>
    intro s dst src task frame f tm hf hl he hv hs hne hsrc hr
    have hat : (s.laneAt dst tm).lane dst = (s.lane dst).at tm := s.lane_laneAt dst tm
    have hframe : (s.laneAt dst tm).consFrame dst src task f tm = (s.laneAt dst tm).setLane dst ((s.lane dst).at tm).countStray := by
      rw [← hat]
      apply State.consFrame_of_stray (hne := hne)
      all_goals rw [hat]
      · exact hl
      · exact he
      · exact hv
      · exact hs
      · exact hsrc
      · exact hr
    refine ⟨_, (execConsensusFrame_some hf task tm s).trans (congrArg _ hframe),
      (s.onlyLane_laneAt dst tm).trans (State.onlyLane_setLane _ dst _), ?_⟩
    rw [State.lane_setLane]
    exact ⟨rfl, Lane.regsKept_fset ((s.lane dst).at tm) (f := VOTE_CNT_NSTRAY) _ (by decide),
      Lane.fget_fsat_same ((s.lane dst).at tm) VOTE_CNT_NSTRAY 1 (by decide)⟩
  case ignored =>
    intro s dst src task frame tm h
    refine ⟨_, rfl, ?_⟩
    cases hf : consOf src frame with
    | none => rfl
    | some f =>
      obtain he | hn := h
      · exact State.consFrame_of_easy src task tm f (by rw [State.lane_laneAt]; exact he)
      · exact absurd (hn.symm.trans hf) (by simp)

/-! ### Fetched telegrams (R56) -/

/-- The task after a fetch of entry `e`: no longer to be fetched, and frozen with the others where the copy passed. -/
def TaskRun.fetched (k : TaskRun) (e : ConsEntry) (bs : List Byte) (rest : List ConsEntry) (good : Bool) : TaskRun :=
  { k with toFetch := rest, frozen := if good then k.frozen ++ [(e, { conn := 0, bytes := bs, t := k.tn })] else k.frozen }

/-- The lane's own check of a fetched copy of `e`. -/
def Lane.fetchGood (x : Lane) (e : ConsEntry) (bs : List Byte) (tn : Nat) : Bool :=
  decide (16 ≤ bs.length) && (x.checkTlg bs tn).1 == .ok && e.digest.toNat == crc32c bs

theorem Lane.fetchGood_iff (x : Lane) (e : ConsEntry) (bs : List Byte) (tn : Nat) :
    x.fetchGood e bs tn = true ↔ 16 ≤ bs.length ∧ (x.checkTlg bs tn).1 = .ok ∧ e.digest.toNat = crc32c bs := by
  simp [Lane.fetchGood, and_assoc]

/-- The lane after a fetch: a copy that fails makes its leave due. -/
def Lane.tookFetch (x : Lane) (task : Nat) (e : ConsEntry) (bs : List Byte) (rest : List ConsEntry) (good : Bool) : Lane :=
  let y := x.modTask task fun k => k.fetched e bs rest good
  if good then y else { y with due := y.due ++ [(leaveFetchBad, some task)] }

/-- A fetch of an entry of a connection, with others still to come. -/
theorem State.fetchTlg_of_listed {s : State} {dst src : LaneId} {task : Nat} {k : TaskRun} {e : ConsEntry} {bs : List Byte}
    (hl : (s.lane dst).rst.held = false) (he : (s.lane dst).easy = false) (hk : (s.lane dst).taskOf task = some k) (ha : k.active = true)
    (hd : k.decided = true) (hc : ∀ x ∈ k.toFetch, x.conn ≠ cmdConn)
    (hfind : (k.toFetch.find? fun e => e.conn == BitVec.ofNat 64 (beAt bs (bs.length - 16) 8) && e.seq.toNat == beAt bs 8 4 && k.listedBy src e) =
      some e)
    (hr : removeL e k.toFetch ≠ []) :
    s.fetchTlg dst src task bs = s.setLane dst ((s.lane dst).tookFetch task e bs (removeL e k.toFetch) ((s.lane dst).fetchGood e bs k.tn)) := by
  have hcmd : (k.toFetch.find? fun e => e.conn == cmdConn && k.listedBy src e &&
      (s.lane src).prog.cmdPend.any (fun d => cmdEntry d == e && cmdBytes d == bs)) = none := by
    refine List.find?_eq_none.2 fun x hx => ?_
    rw [beq_eq_false_iff_ne.2 (hc x hx), Bool.false_and, Bool.false_and]
    exact Bool.false_ne_true
  unfold State.fetchTlg
  simp only [hk, hl, he, ha, hd, Bool.not_true, Bool.or_self, Bool.false_eq_true, if_false, hcmd, hfind, hr]
  rfl

/-- Settles O13: no command is to be fetched, so the copy is that of the one entry it names; what the lane's check says decides. -/
theorem fetchedCopiesAreCheckedByTheLane : Obligations.FetchedCopiesAreCheckedByTheLane := by
  intro s dst src task k e bs hl he hk ha hd hc hmem hlist huniq hconn hseq hr
  have hfind : (k.toFetch.find? fun e => e.conn == BitVec.ofNat 64 (beAt bs (bs.length - 16) 8) && e.seq.toNat == beAt bs 8 4 && k.listedBy src e) =
      some e := by
    have hp : (e.conn == BitVec.ofNat 64 (beAt bs (bs.length - 16) 8) && e.seq.toNat == beAt bs 8 4 && k.listedBy src e) = true := by
      simp [hconn, hseq, hlist]
    have hsome := List.find?_isSome (p := fun e : ConsEntry =>
      e.conn == BitVec.ofNat 64 (beAt bs (bs.length - 16) 8) && e.seq.toNat == beAt bs 8 4 && k.listedBy src e) |>.2 ⟨e, hmem, hp⟩
    obtain ⟨x, hx⟩ := Option.isSome_iff_exists.1 hsome
    have hxp := List.find?_some hx
    simp only [Bool.and_eq_true, beq_iff_eq] at hxp
    obtain ⟨⟨hxc, hxs⟩, -⟩ := hxp
    rw [hx, huniq x (List.mem_of_find?_eq_some hx) (hxc.trans hconn.symm) (BitVec.eq_of_toNat_eq (hxs.trans hseq.symm))]
  have hfetch := State.fetchTlg_of_listed hl he hk ha hd hc hfind hr
  have htask : ∀ good, ((s.lane dst).tookFetch task e bs (removeL e k.toFetch) good).taskOf task =
      some (k.fetched e bs (removeL e k.toFetch) good) := fun good => by
    have := Lane.taskOf_modTask (fun k' => k'.fetched e bs (removeL e k.toFetch) good) hk rfl
    cases good <;> exact this
  refine ⟨_, k.fetched e bs (removeL e k.toFetch) ((s.lane dst).fetchGood e bs k.tn), congrArg Host.Outcome.next hfetch,
    s.onlyLane_setLane dst _, ?_⟩
  rw [State.lane_setLane]
  refine ⟨?_, ?_, htask _, rfl, ?_⟩
  · rw [Lane.tookFetch]
    split <;> exact Lane.modTask_reg _ _ _
  · rw [Lane.tookFetch]
    split <;> exact Lane.modTask_sram _ _ _
  · intro good
    have hgood : (s.lane dst).fetchGood e bs k.tn = true ↔ good := (s.lane dst).fetchGood_iff e bs k.tn
    refine ⟨fun h => ?_, fun h => ?_⟩
    · rw [hgood.2 h]
      exact ⟨rfl, by rw [Lane.tookFetch, if_pos rfl, Lane.modTask_due]⟩
    · rw [Bool.eq_false_iff.2 fun hn => h (hgood.1 hn)]
      exact ⟨rfl, congrArg (· ++ [(leaveFetchBad, some task)]) ((s.lane dst).modTask_due task _)⟩

/-! ### Frames of the vote (R154 to R158) -/

theorem Lane.hears_of_voter {x : Lane} {src : LaneId} (hsrc : src ∈ x.inset) (hup : (x.link (x.linkTo src)).eff = true) : x.hears src = true := by
  simp [Lane.hears, hup, hsrc]

/-- What of a lane a late frame leaves: its contexts, and every register but the flag and the interrupt lines. -/
theorem Lane.late_frame (x : Lane) (notes : List RecNote) :
    ({ x.voteFlag VOTE_STAT_LATE with notes := notes } : Lane).ctxs = x.ctxs ∧
      ({ x.voteFlag VOTE_STAT_LATE with notes := notes } : Lane).on VOTE_STAT_LATE = true ∧
      x.RegsKept { x.voteFlag VOTE_STAT_LATE with notes := notes } [VOTE_STAT, LCTL_IRQ_PEND] := by
  have hreg : ({ x.voteFlag VOTE_STAT_LATE with notes := notes } : Lane).reg = (x.voteFlag VOTE_STAT_LATE).reg := rfl
  obtain ⟨-, hkept⟩ := x.voteFlag_onlyRegs (f := VOTE_STAT_LATE) (as := [VOTE_STAT, LCTL_IRQ_PEND]) (by decide) (by decide)
  refine ⟨rfl, ?_, hkept.trans (Lane.regsKept_of_reg_eq hreg _)⟩
  rw [Lane.on_of_reg_eq hreg, x.on_voteFlag_same (by decide) rfl (by decide)]

section Level1

variable {x : Lane} {src : LaneId} {c tm : Nat} (ds : List Dword) (he : x.easy = false) (hv : x.inVote = true) (hsrc : src ∈ x.inset)
  (hup : (x.link (x.linkTo src)).eff = true) (hin : x.votesIn c = true) (hst : (x.ctx c).stage = .level1)

include he hv hsrc hup hin hst

theorem Lane.level1_of_in_time (ht : tm ≤ (x.ctx c).v + level1Due c) :
    x.level1 src c ds tm = x.modCtx c fun y => { y with peerDig := (src, ds) :: y.peerDig.filter fun e => e.1 != src } := by
  unfold Lane.level1
  simp only [he, hv, hin, hst, Lane.hears_of_voter hsrc hup, List.contains_iff_mem.2 hsrc, decide_eq_false (Nat.not_lt.2 ht), Bool.true_or,
    Bool.not_true, Bool.or_self, Bool.and_false, or_true, Bool.false_eq_true, if_false, if_true]

omit hin in
theorem Lane.level1_of_late (ht : (x.ctx c).v + level1Due c < tm) : x.level1 src c ds tm = x.voteFlag VOTE_STAT_LATE := by
  have hs : ((x.ctx c).stage != .idle) = true := by rw [hst]; decide
  unfold Lane.level1
  simp only [he, hv, hs, Lane.hears_of_voter hsrc hup, List.contains_iff_mem.2 hsrc, decide_eq_true ht, Bool.true_or, Bool.not_true, Bool.or_self,
    Bool.and_self, Bool.false_eq_true, if_false, if_true]

end Level1

section Answers

variable {x : Lane} {src : LaneId} {c tm : Nat} (hst : (x.ctx c).stage = .answers) (hv : src ∈ (x.ctx c).voters)

include hv

theorem Lane.takeHashes_of_late (b : Nat) (hs : List Dword) (ht : (x.ctx c).v + answerDue c < tm) :
    x.takeHashes src c b hs tm = x.voteFlag VOTE_STAT_LATE := by
  rw [Lane.takeHashes]
  exact if_pos ⟨ht, hv⟩

theorem Lane.takeSegment_of_late (g : Nat) (bs : List Byte) (ht : (x.ctx c).v + answerDue c < tm) :
    x.takeSegment src c g bs tm = x.voteFlag VOTE_STAT_LATE := by
  rw [Lane.takeSegment]
  exact if_pos ⟨ht, hv⟩

include hst

theorem Lane.takeHashes_of_in_time {b : Nat} (hs : List Dword) (hb : b ∈ (x.ctx c).blocks) (ht : tm ≤ (x.ctx c).v + answerDue c) :
    x.takeHashes src c b hs tm = x.modCtx c fun y => { y with hashes := (src, b, hs) :: y.hashes.filter fun e => !(e.1 == src && e.2.1 == b) } := by
  rw [Lane.takeHashes]
  exact (if_neg fun h => absurd h.1 (Nat.not_lt.2 ht)).trans (if_pos ⟨hst, hv, hb⟩)

theorem Lane.takeSegment_of_in_time {g : Nat} {bs : List Byte} (hb : g / 64 ∈ (x.ctx c).blocks) (hlen : bs.length = 64)
    (ht : tm ≤ (x.ctx c).v + answerDue c) :
    x.takeSegment src c g bs tm = x.modCtx c fun y => { y with fetched := (src, g, bs) :: y.fetched.filter fun e => !(e.1 == src && e.2.1 == g) } := by
  rw [Lane.takeSegment]
  exact (if_neg fun h => absurd h.1 (Nat.not_lt.2 ht)).trans (if_pos ⟨hst, hv, hb, hlen⟩)

end Answers

section Verdict

variable {x : Lane} {src : LaneId} {c tm : Nat} (v : Verdict) (he : x.easy = false) (hv : x.inVote = true) (hsrc : src ∈ x.inset)
  (hup : (x.link (x.linkTo src)).eff = true) (hst : (x.ctx c).stage ≠ .idle)

include he hv hsrc hup hst

theorem Lane.takeVerdict_of_in_time (ht : tm ≤ (x.ctx c).v + verdictDue c) :
    x.takeVerdict src c v tm = x.modCtx c fun y => { y with verdicts := (src, v) :: y.verdicts.filter fun e => e.1 != src } := by
  unfold Lane.takeVerdict
  simp only [he, hv, Lane.hears_of_voter hsrc hup, List.contains_iff_mem.2 hsrc, decide_eq_false (Nat.not_lt.2 ht), beq_eq_false_iff_ne.2 hst,
    Bool.true_or, Bool.not_true, Bool.or_self, Bool.and_false, Bool.false_eq_true, if_false]

omit hup in
theorem Lane.takeVerdict_of_late (ht : (x.ctx c).v + verdictDue c < tm) : x.takeVerdict src c v tm = x.voteFlag VOTE_STAT_LATE := by
  unfold Lane.takeVerdict
  simp only [he, hv, List.contains_iff_mem.2 hsrc, decide_eq_true ht, bne_iff_ne.2 hst, Bool.true_or, Bool.not_true, Bool.or_self,
    Bool.and_self, Bool.false_eq_true, if_false, if_true]

end Verdict

/-- A frame kept in one context: of the lane nothing but its contexts and the follower's time changes, and of those the one context. -/
theorem Lane.modCtx_at_frame (x : Lane) (c tm : Nat) (f : VoteCtx → VoteCtx) :
    ({ (x.at tm).modCtx c f with notes := [] } : Lane) =
        { x with ctxs := ((x.at tm).modCtx c f).ctxs, fol := ((x.at tm).modCtx c f).fol, notes := [] } ∧
      ∀ j, j ≠ c → ({ (x.at tm).modCtx c f with notes := [] } : Lane).ctx j = x.ctx j :=
  ⟨rfl, fun _ hj => (x.at tm).ctx_modCtx_ne hj f⟩

/-- Settles O16: in time the frame stands first in its list of the one context; late it is marked alone. -/
theorem voteFramesAreKeptForTheRunningStep : Obligations.VoteFramesAreKeptForTheRunningStep := by
  refine ⟨?level1, ?hashes, ?segment, ?verdict⟩
  case level1 =>
    intro s dst src c ds tm hl he hv hsrc hin hup hc hst
    obtain ⟨honly, hlane⟩ := s.upLane_laneAt_next dst tm (·.level1 src c ds tm) hl
    refine ⟨_, rfl, honly, fun ht => ?_, fun ht => ?_⟩ <;> rw [hlane]
    · rw [Lane.level1_of_in_time (x := (s.lane dst).at tm) ds he hv hsrc hup hin hst ht]
      refine ⟨rfl, ?_⟩
      have hctx := Lane.ctx_modCtx_same (x := (s.lane dst).at tm) hc fun y => { y with peerDig := (src, ds) :: y.peerDig.filter fun e => e.1 != src }
      exact (congrArg VoteCtx.peerDig hctx) ▸ List.mem_cons_self
    · rw [Lane.level1_of_late (x := (s.lane dst).at tm) ds he hv hsrc hup hst ht]
      exact ((s.lane dst).at tm).late_frame []
  case hashes =>
    intro s dst src c b hs tm hl hc hst hv hb
    obtain ⟨honly, hlane⟩ := s.upLane_laneAt_next dst tm (·.takeHashes src c b hs tm) hl
    refine ⟨_, rfl, honly, fun ht => ?_, fun ht => ?_⟩ <;> rw [hlane]
    · rw [Lane.takeHashes_of_in_time (x := (s.lane dst).at tm) hst hv hs hb ht]
      obtain ⟨hframe, hother⟩ := (s.lane dst).modCtx_at_frame c tm fun y =>
        { y with hashes := (src, b, hs) :: y.hashes.filter fun e => !(e.1 == src && e.2.1 == b) }
      have hctx := Lane.ctx_modCtx_same (x := (s.lane dst).at tm) hc fun y =>
        { y with hashes := (src, b, hs) :: y.hashes.filter fun e => !(e.1 == src && e.2.1 == b) }
      exact ⟨hframe, (congrArg VoteCtx.hashes hctx) ▸ List.mem_cons_self, hother⟩
    · rw [Lane.takeHashes_of_late (x := (s.lane dst).at tm) hv b hs ht]
      exact ((s.lane dst).at tm).late_frame []
  case segment =>
    intro s dst src c g bs tm hl hc hst hv hb hlen
    obtain ⟨honly, hlane⟩ := s.upLane_laneAt_next dst tm (·.takeSegment src c g bs tm) hl
    refine ⟨_, rfl, honly, fun ht => ?_, fun ht => ?_⟩ <;> rw [hlane]
    · rw [Lane.takeSegment_of_in_time (x := (s.lane dst).at tm) hst hv hb hlen ht]
      obtain ⟨hframe, hother⟩ := (s.lane dst).modCtx_at_frame c tm fun y =>
        { y with fetched := (src, g, bs) :: y.fetched.filter fun e => !(e.1 == src && e.2.1 == g) }
      have hctx := Lane.ctx_modCtx_same (x := (s.lane dst).at tm) hc fun y =>
        { y with fetched := (src, g, bs) :: y.fetched.filter fun e => !(e.1 == src && e.2.1 == g) }
      exact ⟨hframe, (congrArg VoteCtx.fetched hctx) ▸ List.mem_cons_self, hother⟩
    · rw [Lane.takeSegment_of_late (x := (s.lane dst).at tm) hv g bs ht]
      exact ((s.lane dst).at tm).late_frame []
  case verdict =>
    intro s dst src c v tm hl he hv hsrc hup hc hst
    obtain ⟨honly, hlane⟩ := s.upLane_laneAt_next dst tm (·.takeVerdict src c v tm) hl
    refine ⟨_, rfl, honly, fun ht => ?_, fun ht => ?_⟩ <;> rw [hlane]
    · rw [Lane.takeVerdict_of_in_time (x := (s.lane dst).at tm) v he hv hsrc hup hst ht]
      obtain ⟨hframe, hother⟩ := (s.lane dst).modCtx_at_frame c tm fun y =>
        { y with verdicts := (src, v) :: y.verdicts.filter fun e => e.1 != src }
      have hctx := Lane.ctx_modCtx_same (x := (s.lane dst).at tm) hc fun y =>
        { y with verdicts := (src, v) :: y.verdicts.filter fun e => e.1 != src }
      exact ⟨hframe, (congrArg VoteCtx.verdicts hctx) ▸ List.mem_cons_self, hother⟩
    · rw [Lane.takeVerdict_of_late (x := (s.lane dst).at tm) v he hv hsrc hst ht]
      exact ((s.lane dst).at tm).late_frame []

end Sys2Proof.Machine
end

section
/-! PROOFS. What a leave and an entry into easy all do to a lane and to the module (R163 to R166, R177 to R181), and the statements on them, on the
vote's deadlines (R154 to R159) and on the reset of a lane that left (R489 to R493). -/

namespace Sys2Proof.Machine

/-! ### A flag that is set on a condition -/

/-- The flag `f` of the vote is set where `b` holds. -/
def Lane.flagIf (x : Lane) (b : Bool) (f : Fld) : Lane := if b then x.voteFlag f else x

theorem Lane.flagIf_frame (x : Lane) (b : Bool) (f : Fld) : x.flagIf b f = { x with reg := (x.flagIf b f).reg } := by
  cases b <;> rfl

theorem Lane.flagIf_id (x : Lane) (b : Bool) (f : Fld) : (x.flagIf b f).id = x.id := by
  cases b <;> rfl

/-- A flag leaves every other field of the vote's status. -/
theorem Lane.fget_flagIf (x : Lane) (b : Bool) {f g : Fld} (ha : g.addr = f.addr) (hi : g.addr ≠ LCTL_IRQ_PEND) (hg : g.lo + g.w ≤ 32)
    (h : g.lo + g.w ≤ f.lo ∨ f.lo + f.w ≤ g.lo) : (x.flagIf b f).fget g = x.fget g := by
  cases b
  · rfl
  · exact x.fget_voteFlag ha hi hg h

theorem Lane.fget_flagIf_addr (x : Lane) (b : Bool) {f g : Fld} (ha : g.addr ≠ f.addr) (hi : g.addr ≠ LCTL_IRQ_PEND) :
    (x.flagIf b f).fget g = x.fget g := by
  cases b
  · rfl
  · exact x.fget_voteFlag_addr ha hi

/-- What a lane's place in the vote is read from: its mode and sets, whatever its flags. -/
structure Lane.SameVote (x y : Lane) : Prop where
  mode : y.mode = x.mode
  inVote : y.inVote = x.inVote
  inset : y.inset = x.inset
  id : y.id = x.id

theorem Lane.SameVote.easy {x y : Lane} (h : x.SameVote y) : y.easy = x.easy := by rw [Lane.easy, h.mode, Lane.easy]

/-- A lane with the same status register, or one that only a flag above the mode and the sets tells apart, stands alike in the vote. -/
theorem Lane.sameVote_of_fget {x y : Lane} (hm : y.fget VOTE_STAT_MODE = x.fget VOTE_STAT_MODE) (hv : y.fget VOTE_STAT_INVOTE = x.fget VOTE_STAT_INVOTE)
    (hs : y.fget VOTE_STAT_INSET = x.fget VOTE_STAT_INSET) (hid : y.id = x.id) : x.SameVote y where
  mode := hm
  inVote := by rw [Lane.inVote, Lane.on, hv, Lane.inVote, Lane.on]
  inset := by
    rw [Lane.inset, Lane.inset]
    exact congrArg (allLanes.filter ·) (funext fun p => by rw [Lane.holds, hs, Lane.holds])
  id := hid

/-- The marks of the vote that stand above its mode and sets. -/
def voteMarks : List Fld := [VOTE_STAT_DISSENT, VOTE_STAT_LATE, VOTE_STAT_CFG_ERR, VOTE_STAT_BLK_LIM, VOTE_STAT_FETCH_LIM]

theorem Lane.flagIf_sameVote (x : Lane) (b : Bool) {f : Fld} (hf : f ∈ voteMarks) : x.SameVote (x.flagIf b f) := by
  have hb : f.addr = VOTE_STAT ∧ 11 ≤ f.lo := by
    have : ∀ g ∈ voteMarks, g.addr = VOTE_STAT ∧ 11 ≤ g.lo := by decide
    exact this f hf
  obtain ⟨ha, hlo⟩ := hb
  refine Lane.sameVote_of_fget ?_ ?_ ?_ (by rw [Lane.flagIf_frame])
  · exact x.fget_flagIf b (ha.symm ▸ rfl) (by decide) (by decide) (.inl (Nat.le_trans (by decide) hlo))
  · exact x.fget_flagIf b (ha.symm ▸ rfl) (by decide) (by decide) (.inl (Nat.le_trans (by decide) hlo))
  · exact x.fget_flagIf b (ha.symm ▸ rfl) (by decide) (by decide) (.inl (Nat.le_trans (by decide) hlo))

theorem Lane.sameVote_of_reg {x y : Lane} (h : y.reg = x.reg) (hid : y.id = x.id) : x.SameVote y :=
  Lane.sameVote_of_fget (Lane.fget_of_reg_eq h _) (Lane.fget_of_reg_eq h _) (Lane.fget_of_reg_eq h _) hid

theorem Lane.SameVote.trans {x y z : Lane} (a : x.SameVote y) (b : y.SameVote z) : x.SameVote z :=
  ⟨b.mode.trans a.mode, b.inVote.trans a.inVote, b.inset.trans a.inset, b.id.trans a.id⟩

/-! ### A leave (R164) -/

/-- The register writes of a leave, `mask` the voter set without the lane. -/
def Lane.leaveRegs (x : Lane) (mask reason ctx seg : Nat) : Lane :=
  ((((((((((x.fset VOTE_STAT_DYN_EN 0).fset VOTE_STAT_SIGN_EN 0).fset VOTE_STAT_INVOTE 0).fset VOTE_STAT_MODE modeOut).fset VOTE_STAT_INSET
    mask).fset VOTE_LEAVE_REASON reason).fset VOTE_LEAVE_CTX ctx).fset VOTE_LEAVE_SEG seg).fsat VOTE_CNT_NEXCL 1).raise 2)

theorem Lane.leaveNow_fget (x : Lane) (reason ctx seg due cause : Nat) :
    ∃ mask, ∀ f, f.addr ≠ PWRC_STAT → (x.leaveNow reason ctx seg due cause).fget f = (x.leaveRegs mask reason ctx seg).fget f := by
  refine ⟨laneMask (removeL (((x.stopDyn.fset VOTE_STAT_SIGN_EN 0).fset VOTE_STAT_INVOTE 0).sendNotice false reason).id
    (((x.stopDyn.fset VOTE_STAT_SIGN_EN 0).fset VOTE_STAT_INVOTE 0).sendNotice false reason).inset), fun f hf => ?_⟩
  have hreg (y z : Lane) (h : y.reg = z.reg) (b : Bool) :
      (if b then y.fset PWRC_STAT_SUPLEAVE 1 else y).fget f = z.fget f := by
    cases b
    · exact Lane.fget_of_reg_eq h f
    · exact (y.fget_fset_addr 1 hf).trans (Lane.fget_of_reg_eq h f)
  rw [← hreg _ (x.leaveRegs _ reason ctx seg) rfl (decide (reason = leaveSupply))]
  simp only [Lane.leaveNow, Lane.leaveRegs, Lane.stopDyn, Lane.sendNotice, Lane.setInset, Lane.fsat, Lane.raise, Lane.fset, Lane.setRg, Lane.rg,
    Lane.fget, decide_eq_true_eq]
  split <;> rfl

section Leave

variable (x : Lane) (reason ctx seg due cause : Nat)

theorem Lane.leaveNow_inVote : (x.leaveNow reason ctx seg due cause).inVote = false := by
  obtain ⟨mask, h⟩ := x.leaveNow_fget reason ctx seg due cause
  rw [Lane.inVote, Lane.on, h _ (by decide)]
  simp (disch := decide) only [Lane.leaveRegs, Lane.fsat, Lane.fget_fset_addr, Lane.fget_fset_bits, Lane.fget_raise_ne, Lane.fget_fset_same]
  rfl

theorem Lane.leaveNow_mode : (x.leaveNow reason ctx seg due cause).fget VOTE_STAT_MODE = modeOut := by
  obtain ⟨mask, h⟩ := x.leaveNow_fget reason ctx seg due cause
  rw [h _ (by decide)]
  simp (disch := decide) only [Lane.leaveRegs, Lane.fsat, Lane.fget_fset_addr, Lane.fget_fset_bits, Lane.fget_raise_ne, Lane.fget_fset_same]
  rfl

theorem Lane.leaveNow_dynEn : (x.leaveNow reason ctx seg due cause).on VOTE_STAT_DYN_EN = false := by
  obtain ⟨mask, h⟩ := x.leaveNow_fget reason ctx seg due cause
  rw [Lane.on, h _ (by decide)]
  simp (disch := decide) only [Lane.leaveRegs, Lane.fsat, Lane.fget_fset_addr, Lane.fget_fset_bits, Lane.fget_raise_ne, Lane.fget_fset_same]
  rfl

theorem Lane.leaveNow_signEn : (x.leaveNow reason ctx seg due cause).on VOTE_STAT_SIGN_EN = false := by
  obtain ⟨mask, h⟩ := x.leaveNow_fget reason ctx seg due cause
  rw [Lane.on, h _ (by decide)]
  simp (disch := decide) only [Lane.leaveRegs, Lane.fsat, Lane.fget_fset_addr, Lane.fget_fset_bits, Lane.fget_raise_ne, Lane.fget_fset_same]
  rfl

theorem Lane.leaveNow_reason : (x.leaveNow reason ctx seg due cause).fget VOTE_LEAVE_REASON = reason % 2 ^ 8 := by
  obtain ⟨mask, h⟩ := x.leaveNow_fget reason ctx seg due cause
  rw [h _ (by decide)]
  simp (disch := decide) only [Lane.leaveRegs, Lane.fsat, Lane.fget_fset_addr, Lane.fget_fset_bits, Lane.fget_raise_ne, Lane.fget_fset_same]
  rfl

theorem Lane.leaveNow_rest :
    (x.leaveNow reason ctx seg due cause).fld.dyn = 0 ∧ (x.leaveNow reason ctx seg due cause).rst.held = x.rst.held ∧
      (x.leaveNow reason ctx seg due cause).rst.due = some (false, cause, due) := by
  unfold Lane.leaveNow
  simp only [Lane.stopDyn, Lane.setInset, Lane.sendNotice]
  split <;> simp

theorem Lane.leaveNow_silent : (x.leaveNow reason ctx seg due cause).silent = true := by
  rw [Lane.silent, Lane.leaveNow_dynEn, Lane.leaveNow_signEn, (x.leaveNow_rest reason ctx seg due cause).1]
  rfl

end Leave

/-- A voter leaves while another stays: its own registers and its notice to the recorder, and nothing else. -/
theorem State.leave_of_voter {s : State} {l y : LaneId} (he : (s.lane l).easy = false) (hv : (s.lane l).inVote = true) (hy : y ≠ l)
    (hyv : (s.lane y).inVote = true) (reason ctx seg due cause : Nat) :
    s.OnlyLane (s.leave l reason ctx seg due cause) l ∧ (s.leave l reason ctx seg due cause).lane l = (s.lane l).leaveNow reason ctx seg due cause := by
  have hstay (b c r : Nat) (d : List (Nat × Nat)) : (allLanes.any fun z =>
      (((s.setLane l ((s.lane l).leaveNow reason ctx seg due cause)).recLane l b c r d).lane z).inVote) = true := by
    refine List.any_eq_true.2 ⟨y, by cases y <;> decide, ?_⟩
    rw [State.recLane_lane, s.lane_setLane_ne _ hy]
    exact hyv
  have hleave : s.leave l reason ctx seg due cause = (s.setLane l ((s.lane l).leaveNow reason ctx seg due cause)).recLane l 1 2 164
      [(1, l.code), (1, reason), (4, (s.lane l).stroke.toNat), (2, ctx * 8192 + seg % 8192)] := by
    unfold State.leave
    extract_lets x s'
    rw [if_neg (by rw [show x.easy = false from he]; decide), if_pos hv]
    exact if_pos (hstay _ _ _ _)
  rw [hleave]
  exact ⟨(s.onlyLane_setLane l _).trans (State.onlyLane_recLane _ l _ _ _ _), by rw [State.recLane_lane, State.lane_setLane]⟩

/-- The last voter leaves: the module enters easy all (R166). -/
theorem State.leave_of_last {s : State} {l : LaneId} (he : (s.lane l).easy = false) (hv : (s.lane l).inVote = true)
    (ho : ∀ y, y ≠ l → (s.lane y).inVote = false) (reason ctx seg due cause : Nat) :
    ∃ c, s.leave l reason ctx seg due cause = (((s.setLane l ((s.lane l).leaveNow reason ctx seg due cause)).recLane l 1 2 164
      [(1, l.code), (1, reason), (4, (s.lane l).stroke.toNat), (2, ctx * 8192 + seg % 8192)]).enterEasyAll allLanes c).markEasy := by
  have hnone (b c r : Nat) (d : List (Nat × Nat)) : (allLanes.any fun z =>
      (((s.setLane l ((s.lane l).leaveNow reason ctx seg due cause)).recLane l b c r d).lane z).inVote) = false := by
    refine List.any_eq_false.2 fun z _ => ?_
    rw [State.recLane_lane]
    by_cases hz : z = l
    · rw [hz, State.lane_setLane, Lane.leaveNow_inVote]
      decide
    · rw [s.lane_setLane_ne _ hz, ho z hz]
      decide
  unfold State.leave
  extract_lets x y s'
  rw [if_neg (by rw [show x.easy = false from he]; decide), if_pos hv]
  unfold State.noVoters
  rw [if_neg (by rw [show (allLanes.any fun z => (s'.lane z).inVote) = false from hnone _ _ _ _]; decide)]
  exact ⟨_, rfl⟩

/-! ### Easy all (R177 to R181) -/

theorem State.OnlyLane.markEasy {s t : State} {l : LaneId} (h : s.OnlyLane t l) : s.markEasy.OnlyLane t.markEasy l := by
  obtain ⟨hlanes, hhub, heq⟩ := h
  refine ⟨fun k hk => by rw [State.markEasy_lane, State.markEasy_lane, hlanes k hk], hhub, ?_⟩
  have hphase : t.phase = s.phase := by rw [heq]
  have hrest : t.markEasy = { t with phase := s.markEasy.phase } := by rw [State.markEasy, hphase]; rfl
  rw [hrest]
  conv_lhs => rw [heq]
  rfl

theorem State.onlyLaneInEasy_enterEasy {s s' : State} {l : LaneId} (h : s.OnlyLane s' l) (hup : (s'.lane l).up = true) (cause : Nat) (peer : Bool) :
    s.OnlyLaneInEasy (s'.enterEasy l cause peer) l := by
  rw [State.enterEasy, if_pos hup]
  exact (h.trans (s'.onlyLane_modLane l _)).markEasy

/-- A connection after the entry into easy all: OPEN as before, or closed. -/
def Conn.inEasy (c : Conn) : Conn := if c.st == .opened then c else { c with st := .closed, ackDue := false, closeDue := none }

theorem Conn.inEasy_st (c : Conn) : c.inEasy.st = .opened ∨ c.inEasy.st = .closed := by
  unfold Conn.inEasy
  split
  next ho => exact .inl (beq_iff_eq.1 ho)
  next => exact .inr rfl

section Entry

variable {x : Lane} (split : Bool) (cause : Nat) (peer : Bool) (h : x.easy = false)

include h

theorem Lane.enterEasy_inVote : (x.enterEasy split cause peer).inVote = false := by
  rw [Lane.inVote, Lane.on, Lane.enterEasy_fget split cause peer h]
  simp (disch := decide) only [Lane.easyRegs, Lane.fget_fset_addr, Lane.fget_fset_bits, Lane.fget_raise_ne, Lane.fget_fset_same]
  rfl

theorem Lane.enterEasy_signEn : (x.enterEasy split cause peer).on VOTE_STAT_SIGN_EN = (x.inVote && !split) := by
  rw [Lane.on, Lane.enterEasy_fget split cause peer h]
  simp (disch := decide) only [Lane.easyRegs, Lane.fget_fset_addr, Lane.fget_raise_ne, Lane.fget_fset_same]
  cases x.inVote && !split <;> rfl

theorem Lane.enterEasy_peer : (x.enterEasy split cause peer).on VOTE_EASY_PEER = peer := by
  rw [Lane.on, Lane.enterEasy_fget split cause peer h]
  simp (disch := decide) only [Lane.easyRegs, Lane.fget_fset_addr, Lane.fget_raise_ne, Lane.fget_fset_same]
  cases peer <;> rfl

theorem Lane.enterEasy_conn (k : Nat) : (x.enterEasy split cause peer).conn k =
    (sparseGet (fun _ => Conn.init) ((x.abandonReadm 0x06).conns) k).inEasy := by
  rw [Lane.conn, ← sparseGet_map (fun _ => Conn.init) (fun _ => Conn.inEasy) _ _ rfl]
  refine congrArg (fun m => sparseGet (fun _ => Conn.init) m k) ?_
  simp only [Lane.enterEasy, h, Bool.false_eq_true, if_false]
  generalize x.abandonReadm 0x06 = z
  simp only [Lane.stopDyn, Lane.sendNotice, Lane.raise, Lane.fset, Lane.setRg]
  rfl

end Entry

/-- What entering easy all from a change of one lane gives: the module marked, the lane in easy all with its cause and silent outputs. -/
theorem State.enterEasy_of_up {s s' : State} {l : LaneId} (honly : s.OnlyLane s' l) (hup : (s'.lane l).rst.held = false)
    (he : (s'.lane l).easy = false) (cause : Nat) (peer : Bool) :
    s.OnlyLaneInEasy (s'.enterEasy l cause peer) l ∧ (s'.enterEasy l cause peer).lane l = (s'.lane l).enterEasy s'.split cause peer ∧
      ((s'.enterEasy l cause peer).lane l).easy = true ∧ ((s'.enterEasy l cause peer).lane l).fget VOTE_EASY_CAUSE = cause % 2 ^ 8 ∧
      ((s'.enterEasy l cause peer).lane l).inVote = false ∧
      ((s'.enterEasy l cause peer).lane l).on VOTE_STAT_DYN_EN = false ∧ ((s'.enterEasy l cause peer).lane l).fld.dyn = 0 := by
  have hup' := State.up_of_not_held hup
  have hlane : (s'.enterEasy l cause peer).lane l = (s'.lane l).enterEasy s'.split cause peer := by
    rw [State.enterEasy_lane_same, if_pos hup']
  refine ⟨State.onlyLaneInEasy_enterEasy honly hup' cause peer, hlane, ?_⟩
  rw [hlane]
  exact ⟨Lane.enterEasy_easy _ _ _ he, Lane.enterEasy_fget_cause _ _ _ he, Lane.enterEasy_inVote _ _ _ he, Lane.enterEasy_dynEn _ _ _ he,
    Lane.enterEasy_dyn _ _ _ he⟩

/-! ### LEVEL1_DEADLINE (R154 to R157) -/

/-- The voters whose digests a lane holds for context `c`, itself among them. -/
def Lane.heardIn (x : Lane) (c : Nat) : List LaneId := x.inset.filter fun y => y == x.id || (x.ctx c).peerDig.any fun e => e.1 == y

/-- The lane at the level-1 deadline: a missing voter marked, the blocks that differ fixed. -/
def Lane.level1End (x : Lane) (c : Nat) : Lane :=
  (x.flagIf (x.inset.any fun y => !(x.heardIn c).contains y && (x.link (x.linkTo y)).eff) VOTE_STAT_LATE).modCtx c fun y =>
    { y with stage := .answers, voters := x.heardIn c, blocks := ((x.ctx c).diffBlocks x.id (x.heardIn c)).take 16 }

theorem Lane.level1End_sameVote (x : Lane) (c : Nat) : x.SameVote (x.level1End c) :=
  (x.flagIf_sameVote _ (by decide)).trans (Lane.sameVote_of_reg rfl rfl)

theorem Lane.level1End_rst (x : Lane) (c : Nat) : (x.level1End c).rst = x.rst := by
  rw [Lane.level1End, Lane.flagIf_frame]
  rfl

theorem Lane.level1End_ctx (x : Lane) {c : Nat} (hc : c < x.ctxs.length) :
    (x.level1End c).ctx c =
      { x.ctx c with stage := .answers, voters := x.heardIn c, blocks := ((x.ctx c).diffBlocks x.id (x.heardIn c)).take 16 } := by
  have hl : c < (x.flagIf (x.inset.any fun y => !(x.heardIn c).contains y && (x.link (x.linkTo y)).eff) VOTE_STAT_LATE).ctxs.length := by
    rw [Lane.flagIf_frame]
    exact hc
  refine (Lane.ctx_modCtx_same hl _).trans ?_
  rw [Lane.flagIf_frame]
  rfl

theorem Lane.level1Deadline_of_few {x : Lane} {c : Nat} (h : (x.heardIn c).length < 2) : x.level1Deadline c = .easyAll (x.level1End c) easyFewLanes := by
  unfold Lane.level1Deadline
  extract_lets y got late l₁ diff excess l₂
  rw [if_pos (show got.length < 2 from h)]
  have hid : l₁.id = x.id := x.flagIf_id late VOTE_STAT_LATE
  exact congrArg (VoteResult.easyAll · easyFewLanes) (show l₂ = x.level1End c by simp only [l₂, diff, hid]; rfl)

theorem Lane.level1Deadline_of_differing {x : Lane} {c : Nat} (h : (x.heardIn c).length = 2)
    (hd : (x.ctx c).diffBlocks x.id (x.heardIn c) ≠ []) : x.level1Deadline c = .easyAll (x.level1End c) easyDissent := by
  unfold Lane.level1Deadline
  extract_lets y got late l₁ diff excess l₂
  have hid : l₁.id = x.id := x.flagIf_id late VOTE_STAT_LATE
  have hg : got.length = 2 := h
  have hdiff : diff ≠ [] := by simp only [diff, hid]; exact hd
  rw [if_neg (by omega), if_pos ⟨hg, hdiff⟩]
  exact congrArg (VoteResult.easyAll · easyDissent) (show l₂ = x.level1End c by simp only [l₂, diff, hid]; rfl)

theorem Lane.level1Deadline_of_equal {x : Lane} {c : Nat} (h : 2 ≤ (x.heardIn c).length)
    (hd : (x.ctx c).diffBlocks x.id (x.heardIn c) = []) : x.level1Deadline c = .goes (x.level1End c) := by
  unfold Lane.level1Deadline
  extract_lets y got late l₁ diff excess l₂
  have hid : l₁.id = x.id := x.flagIf_id late VOTE_STAT_LATE
  have hg : 2 ≤ got.length := h
  have hdiff : diff = [] := by simp only [diff, hid]; exact hd
  have hex : excess = [] := by simp only [excess, hdiff, List.drop_nil]
  rw [if_neg (by omega), if_neg (fun hn => hn.2 hdiff), if_neg (by rw [hex, List.any_nil]; decide), if_neg (fun hn => hn hex)]
  exact congrArg VoteResult.goes (show l₂ = x.level1End c by simp only [l₂, diff, hid]; rfl)

/-- At its instant the deadline is the lane's own, in a voter. -/
theorem State.level1Deadline_of_due {s : State} {l : LaneId} {c tm : Nat} (hl : (s.lane l).rst.held = false) (hv : (s.lane l).inVote = true)
    (hs : (s.lane l).shadow = false) (hst : ((s.lane l).ctx c).stage = .level1) (ht : ((s.lane l).ctx c).v + level1Due c ≤ tm) :
    s.level1Deadline l c tm = s.voteResult l ((s.lane l).level1Deadline c) := by
  unfold State.level1Deadline
  simp only [hl, hv, hs, hst, decide_eq_false (Nat.not_lt.2 ht), bne_self_eq_false, Bool.or_self, Bool.false_eq_true, if_false, if_true]

theorem State.level1Deadline_of_early {s : State} {l : LaneId} {c tm : Nat} (ht : tm < ((s.lane l).ctx c).v + level1Due c) :
    s.level1Deadline l c tm = s := by
  unfold State.level1Deadline
  simp only [decide_eq_true ht, Bool.or_true, if_true]

/-! ### ANSWER_DEADLINE (R154 to R157, R159, R162) -/

/-- Without exchanged blocks every voter has answered, and no segment differs. -/
theorem VoteCtx.diffSegs_of_no_blocks {x : VoteCtx} (h : x.blocks = []) (self : LaneId) (c : Nat) (vs : List LaneId) : x.diffSegs self c vs = [] := by
  simp [VoteCtx.diffSegs, h]

theorem VoteCtx.answered_of_no_blocks {x : VoteCtx} (h : x.blocks = []) (self : LaneId) (c : Nat) : x.answered self c = x.voters := by
  simp [VoteCtx.answered, VoteCtx.diffSegs_of_no_blocks h, h]

theorem VoteCtx.judge_of_equal {x : VoteCtx} {self : LaneId} {vs : List LaneId} (h : x.blocks = []) (hd : x.diffBlocks self vs = []) (c : Nat) :
    x.judge self c vs = [] := by
  simp [VoteCtx.judge, VoteCtx.diffSegs_of_no_blocks h, hd]

/-- The counts of the voters after a vote without a dissent: none. -/
def VoteCtx.clearCounts (x : VoteCtx) (thr : Nat) (vs : List LaneId) : VoteCtx :=
  vs.foldl (fun (x : VoteCtx) y => x.setCnt y (nextCount [] thr (x.cnt y) y)) x

theorem VoteCtx.cnt_setCnt (x : VoteCtx) (y z : LaneId) (n : Nat) : (x.setCnt y n).cnt z = if z = y then n else x.cnt z := by
  cases y <;> cases z <;> rfl

theorem VoteCtx.cnt_clearCounts (x : VoteCtx) (thr : Nat) (vs : List LaneId) {z : LaneId} (h : z ∈ vs ∨ x.cnt z = 0) : (x.clearCounts thr vs).cnt z = 0 := by
  induction vs generalizing x with
  | nil => exact h.resolve_left List.not_mem_nil
  | cons y vs ih =>
    refine ih _ ?_
    rw [VoteCtx.cnt_setCnt]
    by_cases hz : z = y
    · exact .inr (if_pos hz)
    · rw [if_neg hz]
      exact h.imp_left fun hm => (List.mem_cons.1 hm).resolve_left hz

/-- The lane after a vote in which all digests are equal. -/
def Lane.agreed (x : Lane) (c : Nat) : Lane :=
  x.modCtx c fun y => { y.clearCounts (x.threshold c) (x.ctx c).voters with stage := .verdict, voters := (x.ctx c).voters, differs := [] }

theorem Lane.answerDeadline_of_equal {x : Lane} {c : Nat} (hv : 2 ≤ (x.ctx c).voters.length) (hb : (x.ctx c).blocks = [])
    (hd : (x.ctx c).diffBlocks x.id (x.ctx c).voters = []) :
    x.answerDeadline c = .goes ((x.agreed c).modCtx c fun y =>
      { y with verdicts := (x.id, (x.agreed c).ownVerdict c) :: y.verdicts.filter fun e => e.1 != x.id }) := by
  unfold Lane.answerDeadline
  simp only [VoteCtx.answered_of_no_blocks hb, Nat.lt_irrefl, if_false, VoteCtx.diffSegs_of_no_blocks hb, VoteCtx.judge_of_equal hb hd, List.length_nil,
    Nat.not_lt_zero, Nat.not_lt.2 hv, hd, ne_eq, not_true_eq_false, and_false, List.any_nil, Bool.false_eq_true, List.filter_nil, List.map_nil, if_true]
  rfl

theorem State.answerDeadline_of_due {s : State} {l : LaneId} {c tm : Nat} (hl : (s.lane l).rst.held = false) (hv : (s.lane l).inVote = true)
    (hs : (s.lane l).shadow = false) (hst : ((s.lane l).ctx c).stage = .answers) (ht : ((s.lane l).ctx c).v + answerDue c ≤ tm) :
    s.answerDeadline l c tm = s.voteResult l ((s.lane l).answerDeadline c) := by
  unfold State.answerDeadline
  simp only [hl, hv, hs, hst, decide_eq_false (Nat.not_lt.2 ht), bne_self_eq_false, Bool.or_self, Bool.false_eq_true, if_false, if_true]

theorem State.answerDeadline_of_early {s : State} {l : LaneId} {c tm : Nat} (ht : tm < ((s.lane l).ctx c).v + answerDue c) :
    s.answerDeadline l c tm = s := by
  unfold State.answerDeadline
  simp only [decide_eq_true ht, Bool.or_true, if_true]

/-! ### VERDICT_DEADLINE (R158, R159, R163) -/

theorem Lane.RegsKept.fget {x y : Lane} {as : List Nat} (h : x.RegsKept y as) {f : Fld} (hf : f.addr ∉ as) : y.fget f = x.fget f := by
  rw [Lane.fget, h _ hf, Lane.fget]

theorem Lane.RegsKept.on {x y : Lane} {as : List Nat} (h : x.RegsKept y as) {f : Fld} (hf : f.addr ∉ as) : y.on f = x.on f := by
  rw [Lane.on, h.fget hf, Lane.on]

theorem Lane.flagIf_regsKept (x : Lane) (b : Bool) (f : Fld) : x.RegsKept (x.flagIf b f) [f.addr, LCTL_IRQ_PEND] := by
  cases b
  · exact .refl x _
  · exact (x.voteFlag_onlyRegs (List.mem_cons_self) (List.mem_cons_of_mem _ List.mem_cons_self)).2

/-- The registers of a context's configuration are none of those a flag changes. -/
theorem VOTE_CFG_not_mem (c : Nat) : VOTE_CFG c ∉ [VOTE_STAT, LCTL_IRQ_PEND] := by
  simp only [VOTE_CFG, VOTE_STAT, LCTL_IRQ_PEND, List.mem_cons, List.not_mem_nil, or_false, not_or]
  omega

theorem VOTE_RGN_not_mem (i : Nat) : VOTE_RGN_BASE i ∉ [VOTE_STAT, LCTL_IRQ_PEND] ∧ VOTE_RGN_DESC i ∉ [VOTE_STAT, LCTL_IRQ_PEND] := by
  simp only [VOTE_RGN_BASE, VOTE_RGN_DESC, VOTE_STAT, LCTL_IRQ_PEND, List.mem_cons, List.not_mem_nil, or_false, not_or]
  omega

/-- The regions of a context and its threshold are read from registers that no flag changes. -/
theorem Lane.regions_of_kept {x y : Lane} (h : x.RegsKept y [VOTE_STAT, LCTL_IRQ_PEND]) (c : Nat) : y.regions c = x.regions c := by
  have hreg : y.region c = x.region c := by
    funext m
    have hb := (VOTE_RGN_not_mem (8 * c + m)).1
    have hd := (VOTE_RGN_not_mem (8 * c + m)).2
    have hk : y.rgnKind c m = x.rgnKind c m := by
      rw [Lane.rgnKind, h.fget (f := VOTE_RGN_DESC_KIND _) hd, Lane.rgnKind]
    simp only [Lane.region, hk, h.on (f := VOTE_RGN_DESC_FIELD _) hd, h.on (f := VOTE_RGN_DESC_TLG _) hd, h.on (f := VOTE_RGN_DESC_SAFE _) hd,
      h.fget (f := VOTE_RGN_BASE_BASE _) hb, h.fget (f := VOTE_RGN_DESC_NSEG _) hd]
  rw [Lane.regions, h.fget (f := VOTE_CFG_NRGN c) (VOTE_CFG_not_mem c), hreg, Lane.regions]

theorem Lane.threshold_of_kept {x y : Lane} (h : x.RegsKept y [VOTE_STAT, LCTL_IRQ_PEND]) (hm : y.mode = x.mode) (c : Nat) :
    y.threshold c = x.threshold c := by
  rw [Lane.threshold, Lane.ctxSafe, Lane.regions_of_kept h, hm, h.fget (f := VOTE_CFG_THR c) (VOTE_CFG_not_mem c), Lane.threshold, Lane.ctxSafe]

/-- The lane at the verdict deadline: a missing verdict marked, the context on its way to the finish. -/
def Lane.verdictMarked (x : Lane) (c : Nat) : Lane :=
  (x.flagIf ((x.ctx c).voters.any fun y => !((x.ctx c).verdicts.any fun e => e.1 == y)) VOTE_STAT_LATE).modCtx c fun y => { y with stage := .finish }

theorem Lane.verdictMarked_sameVote (x : Lane) (c : Nat) : x.SameVote (x.verdictMarked c) :=
  (x.flagIf_sameVote _ (by decide)).trans (Lane.sameVote_of_reg rfl rfl)

theorem Lane.verdictMarked_rest (x : Lane) (c : Nat) :
    (x.verdictMarked c).rst = x.rst ∧ (x.verdictMarked c).gone = x.gone ∧ (x.verdictMarked c).ctxs.length = x.ctxs.length := by
  rw [Lane.verdictMarked, Lane.ctxs_length_modCtx, Lane.flagIf_frame]
  exact ⟨rfl, rfl, rfl⟩

/-- The next voter set as the lane finds it. -/
def Lane.nextSet (x : Lane) (c : Nat) : List LaneId := (x.ctx c).nextVoters (x.threshold c)

/-- The shadow stroke's part of a verdict. -/
def Lane.verdictShadow (x : Lane) (c : Nat) : Lane :=
  if (x.verdictMarked c).readm.shadow then
    (x.verdictMarked c).shadowVote c (decide (2 ≤ (x.ctx c).verdicts.length) && (x.ctx c).verdicts.all fun e => e.2.shadowOk)
  else x.verdictMarked c

/-- The lane that stays, with the lanes outside the next voter set noted as gone. -/
def Lane.verdictGone (x : Lane) (c : Nat) : Lane :=
  { x.verdictShadow c with
    gone := (((x.verdictMarked c).inset.filter fun z => !(x.nextSet c).contains z && !((x.verdictMarked c).gone.any fun g => g.1 == z)).map
      fun z => (z, leaveDissent)) ++ (x.verdictMarked c).gone }

/-- The lane that stays, with its image to commit. -/
def Lane.verdictStays (x : Lane) (c : Nat) : Lane :=
  (if (x.ctx c).differs = [] then x.verdictGone c else (x.verdictGone c).adopt c).modCtx c fun z => { z with commit := true }

theorem Lane.verdictDeadline_eq (x : Lane) (c : Nat) :
    x.verdictDeadline c =
      if !(x.nextSet c).contains x.id then
        (if x.threshold c ≤ (x.ctx c).cnt x.id then .leaves (x.verdictMarked c) leaveDissent (x.ctx c).firstDiff
         else .leaves (x.verdictMarked c) leaveVoteLate 0)
      else if (x.nextSet c).length < 2 then .easyAll (x.verdictMarked c)
      else .stays (x.verdictStays c) := by
  unfold Lane.verdictDeadline
  extract_lets y late l₁ thr next l₂ out kept passed l₃ l₄
  have hthr : thr = x.threshold c :=
    Lane.threshold_of_kept (x.flagIf_regsKept late VOTE_STAT_LATE) (x.flagIf_sameVote late (f := VOTE_STAT_LATE) (by decide)).mode c
  have hid : l₂.id = x.id := (x.verdictMarked_sameVote c).id
  have hnext : next = x.nextSet c := congrArg (x.ctx c).nextVoters hthr
  rw [hid, hnext, hthr]
  have hstay : (if y.differs = [] then l₄ else l₄.adopt c).modCtx c (fun x => { x with commit := true }) = x.verdictStays c := by
    simp only [l₄, l₃, out, hnext]
    rfl
  rw [hstay]
  rfl

theorem State.verdictDeadline_of_early {s : State} {l : LaneId} {c tm : Nat} (ht : tm < ((s.lane l).ctx c).v + verdictDue c) :
    s.verdictDeadline l c tm = s := by
  unfold State.verdictDeadline
  simp only [decide_eq_true ht, Bool.or_true, if_true]

section Verdict

variable {s : State} {l : LaneId} {c tm : Nat} (hid : (s.lane l).id = l) (hl : (s.lane l).rst.held = false) (hv : (s.lane l).inVote = true)
  (hs : (s.lane l).shadow = false) (hst : ((s.lane l).ctx c).stage = .verdict) (ht : ((s.lane l).ctx c).v + verdictDue c ≤ tm)

include hid hl hv hs hst ht

theorem State.verdictDeadline_of_inside (hn : l ∈ (s.lane l).nextSet c) (h2 : 2 ≤ ((s.lane l).nextSet c).length) :
    s.verdictDeadline l c tm = s.setLane l ((s.lane l).verdictStays c) := by
  have heq : (s.lane l).verdictDeadline c = .stays ((s.lane l).verdictStays c) := by
    rw [Lane.verdictDeadline_eq, hid, List.contains_iff_mem.2 hn, if_neg (by decide), if_neg (by omega)]
  unfold State.verdictDeadline
  simp only [hl, hv, hs, hst, decide_eq_false (Nat.not_lt.2 ht), bne_self_eq_false, Bool.or_self, Bool.false_eq_true, if_false, if_true, heq]

theorem State.verdictDeadline_of_alone (hn : l ∈ (s.lane l).nextSet c) (h2 : ((s.lane l).nextSet c).length < 2) :
    s.verdictDeadline l c tm = (s.setLane l ((s.lane l).verdictMarked c)).enterEasy l easyFewLanes false := by
  have heq : (s.lane l).verdictDeadline c = .easyAll ((s.lane l).verdictMarked c) := by
    rw [Lane.verdictDeadline_eq, hid, List.contains_iff_mem.2 hn, if_neg (by decide), if_pos h2]
  unfold State.verdictDeadline
  simp only [hl, hv, hs, hst, decide_eq_false (Nat.not_lt.2 ht), bne_self_eq_false, Bool.or_self, Bool.false_eq_true, if_false, if_true, heq]

theorem State.verdictDeadline_of_outside (hn : l ∉ (s.lane l).nextSet c) :
    ∃ seg, s.verdictDeadline l c tm = (s.setLane l ((s.lane l).verdictMarked c)).leave l
      (if (s.lane l).threshold c ≤ ((s.lane l).ctx c).cnt l then leaveDissent else leaveVoteLate) c seg (((s.lane l).ctx c).v + finishDue c)
      causeSwr := by
  have hc : ((s.lane l).nextSet c).contains l = false := by simpa using hn
  have heq := (s.lane l).verdictDeadline_eq c
  rw [hid, hc, Bool.not_false, if_pos rfl] at heq
  by_cases hthr : (s.lane l).threshold c ≤ ((s.lane l).ctx c).cnt l
  · rw [if_pos hthr] at heq ⊢
    refine ⟨((s.lane l).ctx c).firstDiff, ?_⟩
    unfold State.verdictDeadline
    simp only [hl, hv, hs, hst, decide_eq_false (Nat.not_lt.2 ht), bne_self_eq_false, Bool.or_self, Bool.false_eq_true, if_false, if_true, heq]
  · rw [if_neg hthr] at heq ⊢
    refine ⟨0, ?_⟩
    unfold State.verdictDeadline
    simp only [hl, hv, hs, hst, decide_eq_false (Nat.not_lt.2 ht), bne_self_eq_false, Bool.or_self, Bool.false_eq_true, if_false, if_true, heq]

end Verdict

theorem Lane.verdictShadow_frame (x : Lane) (c : Nat) : x.verdictShadow c = { x.verdictMarked c with readm := (x.verdictShadow c).readm } := by
  unfold Lane.verdictShadow
  split <;> rfl

/-- Of a lane that stays, its registers and the lanes it knows to be gone. -/
theorem Lane.verdictStays_rest (x : Lane) (c : Nat) :
    (x.verdictStays c).reg = (x.verdictMarked c).reg ∧ (x.verdictStays c).id = (x.verdictMarked c).id ∧
      (x.verdictStays c).gone = (x.verdictGone c).gone ∧ (x.verdictStays c).ctxs.length = x.ctxs.length := by
  have hg : (x.verdictGone c).reg = (x.verdictMarked c).reg ∧ (x.verdictGone c).id = (x.verdictMarked c).id ∧
      (x.verdictGone c).ctxs.length = x.ctxs.length := by
    unfold Lane.verdictGone
    rw [Lane.verdictShadow_frame]
    exact ⟨rfl, rfl, (x.verdictMarked_rest c).2.2⟩
  obtain ⟨hreg, hid, hlen⟩ := hg
  unfold Lane.verdictStays
  split
  · exact ⟨hreg, hid, rfl, (Lane.ctxs_length_modCtx _ _ _).trans hlen⟩
  · exact ⟨hreg, hid, rfl, (Lane.ctxs_length_modCtx _ _ _).trans ((Lane.ctxs_length_modCtx _ _ _).trans hlen)⟩

theorem Lane.verdictStays_sameVote (x : Lane) (c : Nat) : x.SameVote (x.verdictStays c) := by
  obtain ⟨hreg, hid, -, -⟩ := x.verdictStays_rest c
  exact (x.verdictMarked_sameVote c).trans (Lane.sameVote_of_reg hreg hid)

theorem Lane.verdictStays_commit {x : Lane} {c : Nat} (hc : c < x.ctxs.length) : ((x.verdictStays c).ctx c).commit = true := by
  have hlen := (x.verdictStays_rest c).2.2.2
  rw [Lane.verdictStays, Lane.ctxs_length_modCtx] at hlen
  rw [Lane.verdictStays, Lane.ctx_modCtx_same (by rw [hlen]; exact hc)]

/-- The voters that stay are those of the next voter set. -/
theorem Lane.verdictStays_staying (x : Lane) (c : Nat) : (x.verdictStays c).staying = x.staying.filter (x.nextSet c).contains := by
  rw [Lane.staying, (x.verdictStays_rest c).2.2.1, (x.verdictStays_sameVote c).inset, Lane.staying, List.filter_filter, Lane.verdictGone,
    (x.verdictMarked_sameVote c).inset, (x.verdictMarked_rest c).2.1]
  refine List.filter_congr fun y hy => ?_
  have hout : ((x.inset.filter fun z => !(x.nextSet c).contains z && !(x.gone.any fun g => g.1 == z)).map fun z => (z, leaveDissent)).any
      (fun g => g.1 == y) = (!(x.nextSet c).contains y && !(x.gone.any fun g => g.1 == y)) := by
    rw [List.any_map, Bool.eq_iff_iff, List.any_eq_true]
    refine ⟨fun ⟨z, hz, he⟩ => ?_, fun h => ⟨y, List.mem_filter.2 ⟨hy, h⟩, beq_self_eq_true y⟩⟩
    obtain rfl : z = y := by simpa using he
    exact (List.mem_filter.1 hz).2
  rw [List.any_append, hout]
  cases (x.nextSet c).contains y <;> cases x.gone.any fun g => g.1 == y <;> rfl

/-- Settles O17: at its instant each deadline is the lane's own step; whether the module enters easy all, goes on or loses the lane is the case the
step is in. -/
theorem voteDeadlinesAndVerdictsDecide : Obligations.VoteDeadlinesAndVerdictsDecide := by
  refine ⟨⟨?level1, ?answer, ?early⟩, ?verdict⟩
  case level1 =>
    intro s l c tm hl he hv hs hst hc ht
    have hat : (s.laneAt l tm).lane l = (s.lane l).at tm := s.lane_laneAt l tm
    have hdue : (s.laneAt l tm).level1Deadline l c tm = (s.laneAt l tm).voteResult l (((s.lane l).at tm).level1Deadline c) := by
      rw [← hat]
      apply State.level1Deadline_of_due <;> rw [hat]
      · exact hl
      · exact hv
      · exact hs
      · exact hst
      · exact ht
    have honly := (s.onlyLane_laneAt l tm).trans (State.onlyLane_setLane _ l (((s.lane l).at tm).level1End c))
    have hlane : ((s.laneAt l tm).setLane l (((s.lane l).at tm).level1End c)).lane l = ((s.lane l).at tm).level1End c := State.lane_setLane _ _ _
    have hup : (((s.laneAt l tm).setLane l (((s.lane l).at tm).level1End c)).lane l).rst.held = false := by
      rw [hlane, Lane.level1End_rst]
      exact hl
    have heasy : (((s.laneAt l tm).setLane l (((s.lane l).at tm).level1End c)).lane l).easy = false := by
      rw [hlane, (Lane.level1End_sameVote _ c).easy]
      exact he
    refine ⟨_, rfl, fun hgot => ?_, fun hgot hdiff => ?_, fun hgot hdiff => ?_⟩
    · rw [hdue, Lane.level1Deadline_of_few (x := (s.lane l).at tm) hgot]
      obtain ⟨hin, -, hen, hcause, -⟩ := State.enterEasy_of_up honly hup heasy easyFewLanes false
      exact ⟨hin, hen, hcause⟩
    · rw [hdue, Lane.level1Deadline_of_differing (x := (s.lane l).at tm) hgot hdiff]
      obtain ⟨hin, -, hen, hcause, -⟩ := State.enterEasy_of_up honly hup heasy easyDissent false
      exact ⟨hin, hen, hcause⟩
    · rw [hdue, Lane.level1Deadline_of_equal (x := (s.lane l).at tm) hgot hdiff]
      have hctx := Lane.level1End_ctx ((s.lane l).at tm) hc
      refine ⟨honly, heasy, ?_⟩
      show (((s.laneAt l tm).setLane l (((s.lane l).at tm).level1End c)).lane l |>.ctx c).stage = _ ∧ _
      rw [State.voteResult, hlane, hctx]
      refine ⟨rfl, rfl, ?_⟩
      show (((s.lane l).ctx c).diffBlocks (s.lane l).id _).take 16 = []
      rw [show ((s.lane l).ctx c).diffBlocks (s.lane l).id (((s.lane l).at tm).heardIn c) = [] from hdiff]
      rfl
  case answer =>
    intro s l c tm hl he hv hs hst hc h2 hb hd ht
    have hat : (s.laneAt l tm).lane l = (s.lane l).at tm := s.lane_laneAt l tm
    have hdue : (s.laneAt l tm).answerDeadline l c tm = (s.laneAt l tm).voteResult l (((s.lane l).at tm).answerDeadline c) := by
      rw [← hat]
      apply State.answerDeadline_of_due <;> rw [hat]
      · exact hl
      · exact hv
      · exact hs
      · exact hst
      · exact ht
    rw [Lane.answerDeadline_of_equal (x := (s.lane l).at tm) h2 hb hd] at hdue
    refine ⟨_, congrArg Host.Outcome.next hdue, (s.onlyLane_laneAt l tm).trans (State.onlyLane_setLane _ l _), ?_⟩
    rw [State.voteResult, State.lane_setLane]
    have hlen : c < (((s.lane l).at tm).agreed c).ctxs.length := by
      rw [Lane.agreed, Lane.ctxs_length_modCtx]
      exact hc
    have hctx : (((s.lane l).at tm).agreed c).ctx c = _ := Lane.ctx_modCtx_same (x := (s.lane l).at tm) hc _
    rw [Lane.ctx_modCtx_same hlen]
    refine ⟨rfl, by rw [hctx], by rw [hctx]; rfl, by rw [hctx], fun y hy => ?_, _, List.mem_cons_self, ?_⟩
    · rw [hctx]
      exact VoteCtx.cnt_clearCounts _ _ _ (.inl hy)
    · rw [Lane.ownVerdict, hctx]
      rfl
  case early =>
    intro s l c tm ht
    have hat : (s.laneAt l tm).lane l = (s.lane l).at tm := s.lane_laneAt l tm
    have h1 : tm < (((s.laneAt l tm).lane l).ctx c).v + level1Due c := by rw [hat]; exact ht
    have h2 : level1Due c < answerDue c := by unfold level1Due answerDue; split <;> decide
    have h3 : level1Due c + 1 ≤ verdictDue c := by unfold level1Due verdictDue; split <;> decide
    exact ⟨_, _, _, rfl, rfl, rfl, State.level1Deadline_of_early h1, State.answerDeadline_of_early (by omega), State.verdictDeadline_of_early (by omega)⟩
  case verdict =>
    intro s l c tm hid hl he hv hs hc hst ht
    have hat : (s.laneAt l tm).lane l = (s.lane l).at tm := s.lane_laneAt l tm
    have hid' : ((s.laneAt l tm).lane l).id = l := by rw [hat]; exact hid
    have hl' : ((s.laneAt l tm).lane l).rst.held = false := by rw [hat]; exact hl
    have hv' : ((s.laneAt l tm).lane l).inVote = true := by rw [hat]; exact hv
    have hs' : ((s.laneAt l tm).lane l).shadow = false := by rw [hat]; exact hs
    have hst' : (((s.laneAt l tm).lane l).ctx c).stage = .verdict := by rw [hat]; exact hst
    have ht' : (((s.laneAt l tm).lane l).ctx c).v + verdictDue c ≤ tm := by rw [hat]; exact ht
    have hnext : ((s.laneAt l tm).lane l).nextSet c = (s.lane l).nextSet c := by rw [hat]; rfl
    have honly := (s.onlyLane_laneAt l tm).trans (State.onlyLane_setLane _ l (((s.lane l).at tm).verdictMarked c))
    have hlane : ((s.laneAt l tm).setLane l (((s.lane l).at tm).verdictMarked c)).lane l = ((s.lane l).at tm).verdictMarked c :=
      State.lane_setLane _ _ _
    have hsame := ((s.lane l).at tm).verdictMarked_sameVote c
    have heasy : (((s.laneAt l tm).setLane l (((s.lane l).at tm).verdictMarked c)).lane l).easy = false := by
      rw [hlane, hsame.easy]
      exact he
    have hup : (((s.laneAt l tm).setLane l (((s.lane l).at tm).verdictMarked c)).lane l).rst.held = false := by
      rw [hlane, (((s.lane l).at tm).verdictMarked_rest c).1]
      exact hl
    refine ⟨_, rfl, fun hn h2 => ?_, fun hn h2 => ?_, fun hn y hy hyv => ?_⟩
    · rw [State.verdictDeadline_of_inside hid' hl' hv' hs' hst' ht' (hnext.symm ▸ hn) (hnext.symm ▸ h2), hat, State.lane_setLane]
      have hstay := ((s.lane l).at tm).verdictStays_sameVote c
      exact ⟨(s.onlyLane_laneAt l tm).trans (State.onlyLane_setLane _ l _), Lane.verdictStays_commit (x := (s.lane l).at tm) hc,
        ((s.lane l).at tm).verdictStays_staying c, hstay.inset, hstay.inVote.trans hv⟩
    · rw [State.verdictDeadline_of_alone hid' hl' hv' hs' hst' ht' (hnext.symm ▸ hn) (hnext.symm ▸ h2), hat]
      obtain ⟨hin, -, hen, hcause, -⟩ := State.enterEasy_of_up honly hup heasy easyFewLanes false
      exact ⟨hin, hen, hcause⟩
    · obtain ⟨seg, hleave⟩ := State.verdictDeadline_of_outside hid' hl' hv' hs' hst' ht' (hnext.symm ▸ hn)
      rw [hleave, hat]
      have hvm : (((s.laneAt l tm).setLane l (((s.lane l).at tm).verdictMarked c)).lane l).inVote = true := by
        rw [hlane, hsame.inVote]
        exact hv
      have hyv' : (((s.laneAt l tm).setLane l (((s.lane l).at tm).verdictMarked c)).lane y).inVote = true := by
        rw [State.lane_setLane_ne _ _ hy, s.lane_laneAt_ne tm hy]
        exact hyv
      obtain ⟨hlo, hll⟩ := State.leave_of_voter heasy hvm hy hyv'
        (if ((s.lane l).at tm).threshold c ≤ (((s.lane l).at tm).ctx c).cnt l then leaveDissent else leaveVoteLate) c seg
        ((((s.lane l).at tm).ctx c).v + finishDue c) causeSwr
      rw [hll]
      refine ⟨honly.trans hlo, Lane.leaveNow_inVote _ _ _ _ _ _, Lane.leaveNow_silent _ _ _ _ _ _, Lane.leaveNow_mode _ _ _ _ _ _, ?_,
        (Lane.leaveNow_rest _ _ _ _ _ _).2.2⟩
      rw [Lane.leaveNow_reason]
      show (if (s.lane l).threshold c ≤ ((s.lane l).ctx c).cnt l then leaveDissent else leaveVoteLate) % 2 ^ 8 = _
      split <;> rfl

end Sys2Proof.Machine
end

section
/-! PROOFS. The statements on leaving (R163 to R166, R177, R489 to R493) and on easy all (R174, R177 to R180). -/

namespace Sys2Proof.Machine

/-! ### LEAVE_NOTICE (R165, R166, R177) -/

/-- The lane that knows `src` to be gone. -/
def Lane.knowsGone (x : Lane) (src : LaneId) (reason : Nat) : Lane := { x with gone := (src, reason) :: x.gone.filter fun g => g.1 != src }

theorem Lane.knowsGone_staying (x : Lane) (src : LaneId) (reason : Nat) : (x.knowsGone src reason).staying = x.staying.filter fun y => y != src := by
  rw [Lane.staying, Lane.staying, List.filter_filter]
  refine List.filter_congr fun y _ => ?_
  show (!((src, reason) :: x.gone.filter fun g => g.1 != src).any fun g => g.1 == y) = _
  rw [List.any_cons, List.any_filter]
  by_cases hy : y = src
  · subst hy
    simp
  · have : (x.gone.any fun g => g.1 != src && g.1 == y) = x.gone.any fun g => g.1 == y := by
      refine congrArg x.gone.any (funext fun g => ?_)
      by_cases hg : g.1 = y
      · simp [hg, hy]
      · simp [hg]
    rw [this, beq_eq_false_iff_ne.2 (Ne.symm hy), Bool.false_or, bne_iff_ne.2 hy, Bool.and_comm, Bool.and_true]

section Notice

variable {s : State} {dst src : LaneId} {reason : Nat} (hl : (s.lane dst).rst.held = false) (he : (s.lane dst).easy = false)
  (hv : (s.lane dst).inVote = true) (hs : (s.lane dst).shadow = false) (hm : (s.lane dst).mode ≠ modeTransfer) (hp : s.phase = .running)
  (hne : dst ≠ src)

include hl he hp hne

theorem State.leaveNotice_of_enough (h : 2 ≤ ((s.lane dst).knowsGone src reason).staying.length) :
    s.leaveNotice dst src reason = s.setLane dst ((s.lane dst).knowsGone src reason) := by
  have hphase : (s.setLane dst ((s.lane dst).knowsGone src reason)).phase = .running := (s.setLane_phase dst _).trans hp
  unfold State.leaveNotice
  extract_lets x second kept x' s'
  rw [if_neg (by simp [x, hl, he, hne]), if_neg]
  · rfl
  · rw [decide_eq_false (show ¬ x'.staying.length < 2 from Nat.not_lt.2 h), Bool.and_false, Bool.false_and]
    exact Bool.false_ne_true

include hv hs hm in
theorem State.leaveNotice_of_few (h : ((s.lane dst).knowsGone src reason).staying.length < 2) :
    ∃ c, (c = 0x01 ∨ c = 0x05) ∧
      s.leaveNotice dst src reason = (s.setLane dst ((s.lane dst).knowsGone src reason)).enterEasy dst c false := by
  have hphase : (s.setLane dst ((s.lane dst).knowsGone src reason)).phase = .running := (s.setLane_phase dst _).trans hp
  unfold State.leaveNotice
  extract_lets x second kept x' s'
  refine ⟨if second then easySupplyClock else easyFewLanes, by split <;> decide, ?_⟩
  rw [if_neg (by simp [x, hl, he, hne]), if_pos]
  · rfl
  · rw [decide_eq_true (show x'.staying.length < 2 from h), show s'.phase = .running from hphase, show x'.shadow = false from hs,
      show x'.inVote = true from hv, show (x'.mode == modeTransfer) = false from beq_eq_false_iff_ne.2 hm]
    rfl

end Notice

/-! ### The reset of a lane that left (R489 to R493) -/

theorem BRG_SEM_ne {a : Nat} (h : a < 0x4000B100) (n : Nat) : (BRG_SEM_OWNER n).addr ≠ a := by
  show 0x4000B100 + 4 * n ≠ a
  omega

/-- The bridge after a reset of the lane writes the semaphores' registers alone. -/
theorem Lane.brgAfterReset_rg (old x : Lane) (tm : Nat) {a : Nat} (ha : a < 0x4000B100) : (old.brgAfterReset x tm).rg a = x.rg a := by
  unfold Lane.brgAfterReset
  extract_lets rest b y
  have h : ∀ (ns : List Nat) (z : Lane), z.rg a = x.rg a →
      (ns.foldl (fun (x : Lane) n => x.fset (BRG_SEM_OWNER n) (if old.fget (BRG_SEM_OWNER n) = semHub then semHub else semFree)) z).rg a = x.rg a := by
    intro ns
    induction ns with
    | nil => exact fun _ h => h
    | cons n ns ih => exact fun z hz => ih _ ((z.rg_fset_ne _ (BRG_SEM_ne ha n).symm).trans hz)
  exact h _ _ rfl

theorem Lane.brgAfterReset_frame (old x : Lane) (tm : Nat) :
    old.brgAfterReset x tm = { x with reg := (old.brgAfterReset x tm).reg, brg := (old.brgAfterReset x tm).brg } := by
  unfold Lane.brgAfterReset
  extract_lets rest y
  have h : ∀ (ns : List Nat) (z : Lane),
      ns.foldl (fun (x : Lane) n => x.fset (BRG_SEM_OWNER n) (if old.fget (BRG_SEM_OWNER n) = semHub then semHub else semFree)) z =
        { z with reg := (ns.foldl (fun (x : Lane) n =>
          x.fset (BRG_SEM_OWNER n) (if old.fget (BRG_SEM_OWNER n) = semHub then semHub else semFree)) z).reg } := by
    intro ns
    induction ns with
    | nil => exact fun _ => rfl
    | cons n ns ih => exact fun z => ih _
  rw [h]

theorem Lane.markReset_frame (x : Lane) (cold again : Bool) (causes : List Nat) :
    x.markReset cold again causes = { x with reg := (x.markReset cold again causes).reg } := by
  unfold Lane.markReset
  extract_lets y z
  split <;> rfl

theorem Lane.markReset_rg (x : Lane) (cold again : Bool) (causes : List Nat) {a : Nat} (hc : a ≠ RST_CAUSE) (hs : a ≠ RSTC_STAT) :
    (x.markReset cold again causes).rg a = x.rg a := by
  unfold Lane.markReset
  extract_lets y z
  have hz : z.rg a = x.rg a := (Lane.rg_fset_ne _ (f := RST_CAUSE_WARM) _ hc).trans (Lane.rg_setRg_ne _ _ hc)
  split
  · exact hz
  · exact (Lane.rg_fset_ne _ (f := RSTC_STAT_NRST) _ hs).trans hz

/-- What the assertion of a reset makes of a lane before the bridge and the cause bits: `c` whether it is cold now, `cold` whether it was asked for so. -/
def Lane.resetKept (x : Lane) (c cold : Bool) (tm : Nat) : Lane :=
  let r := { x.rst with held := true, cold := c, t := tm, due := none, trimOk := x.rst.trimOk && !cold, pmbT := 0,
                        vTarget := if c then 900 else x.rst.vTarget, vPrev := if c then 900 else x.rst.vPrev }
  let base := { laneReset x.id with reg := sparseMap laneRegDefault (laneRegAfter c) x.reg, start := startReset c, rst := r }
  if c then base else
    { base with sram := x.sram, cells := x.cells, ard := x.ard, rstat := x.rstat, pstore := x.pstore, badBanks := x.badBanks }

/-- The reset is cold when it is asked for so, and when it meets a cold one that runs (R493). -/
def Lane.coldNow (x : Lane) (cold : Bool) : Bool := cold || (x.rst.held && x.rst.cold)

theorem Lane.assertReset_eq (x : Lane) (cold : Bool) (causes : List Nat) (tm : Nat) :
    x.assertReset cold causes tm =
      (x.brgAfterReset (x.resetKept (x.coldNow cold) cold tm) tm).markReset (x.coldNow cold) x.rst.held causes := rfl

theorem Lane.resetKept_rest (x : Lane) (c cold : Bool) (tm : Nat) :
    (x.resetKept c cold tm).reg = sparseMap laneRegDefault (laneRegAfter c) x.reg ∧ (x.resetKept c cold tm).rst.held = true ∧
      (x.resetKept c cold tm).rst.due = none ∧ (x.resetKept c cold tm).fld.dyn = 0 ∧
      (c = false → (x.resetKept c cold tm).sram = x.sram ∧ (x.resetKept c cold tm).cells = x.cells) ∧
      (c = true → (x.resetKept c cold tm).sram = []) := by
  cases c
  · exact ⟨rfl, rfl, rfl, rfl, fun _ => ⟨rfl, rfl⟩, fun h => absurd h (by decide)⟩
  · exact ⟨rfl, rfl, rfl, rfl, fun h => absurd h (by decide), fun _ => rfl⟩

/-- What of a lane the bridge and the cause bits leave after a reset. -/
theorem Lane.assertReset_frame (x : Lane) (cold : Bool) (causes : List Nat) (tm : Nat) :
    x.assertReset cold causes tm = { x.resetKept (x.coldNow cold) cold tm with
      reg := (x.assertReset cold causes tm).reg, brg := (x.assertReset cold causes tm).brg } := by
  rw [Lane.assertReset_eq, Lane.markReset_frame, Lane.brgAfterReset_frame]

/-- A field of a register that a reset of either kind sets to its default. -/
theorem Lane.assertReset_fget (x : Lane) (cold : Bool) (causes : List Nat) (tm : Nat) {f : Fld} (hb : f.addr < 0x4000B100) (hc : f.addr ≠ RST_CAUSE)
    (hs : f.addr ≠ RSTC_STAT) (hd : ∀ c v, laneRegAfter c f.addr v = laneRegDefault f.addr) :
    (x.assertReset cold causes tm).fget f = bvField (laneRegDefault f.addr) f.lo f.w := by
  rw [Lane.assertReset_eq, Lane.fget, Lane.markReset_rg _ _ _ _ hc hs, Lane.brgAfterReset_rg _ _ _ hb, Lane.rg, (x.resetKept_rest _ _ _).1,
    sparseGet_map _ _ _ _ (hd _ _), hd]

theorem keep_none (v d : Word) : (v &&& 0) ||| (d &&& ~~~0) = d := by
  show (v &&& 0#32) ||| (d &&& BitVec.allOnes 32) = d
  rw [BitVec.and_zero, BitVec.zero_or, BitVec.and_allOnes]

/-- `VOTE_STAT` keeps nothing through a reset. -/
theorem laneRegAfter_voteStat (c : Bool) (v : Word) : laneRegAfter c VOTE_STAT v = laneRegDefault VOTE_STAT := by
  have hwarm : ∃ d, descOf laneRegs VOTE_STAT = some d ∧ d.keep = 0 ∧ BitVec.ofNat 32 d.reset = laneRegDefault VOTE_STAT := by
    refine ⟨_, rfl, ?_, ?_⟩ <;> rfl
  obtain ⟨d, hd, hk, hr⟩ := hwarm
  cases c
  · simp only [laneRegAfter, Bool.false_eq_true, if_false, warmReg, hd, regWarm, hk, hr]
    exact keep_none _ _
  · have : laneColdKeep VOTE_STAT = 0 := by decide
    simp only [laneRegAfter, if_true, this]
    exact keep_none _ _

theorem Lane.assertReset_silent (x : Lane) (cold : Bool) (causes : List Nat) (tm : Nat) : (x.assertReset cold causes tm).silent = true := by
  have hdyn : (x.assertReset cold causes tm).on VOTE_STAT_DYN_EN = false := by
    rw [Lane.on, x.assertReset_fget cold causes tm (f := VOTE_STAT_DYN_EN) (by decide) (by decide) (by decide) laneRegAfter_voteStat]
    decide
  have hsign : (x.assertReset cold causes tm).on VOTE_STAT_SIGN_EN = false := by
    rw [Lane.on, x.assertReset_fget cold causes tm (f := VOTE_STAT_SIGN_EN) (by decide) (by decide) (by decide) laneRegAfter_voteStat]
    decide
  have hd : (x.assertReset cold causes tm).fld.dyn = 0 := by
    obtain ⟨-, -, -, hdyn, -⟩ := x.resetKept_rest (x.coldNow cold) cold tm
    exact (congrArg (fun y : Lane => y.fld.dyn) (x.assertReset_frame cold causes tm)).trans hdyn
  rw [Lane.silent, hdyn, hsign, hd]
  rfl

theorem getLsbD_foldl_causes (cs : List Nat) (w : Word) {n : Nat} (hn : n < 32) (h : w.getLsbD n = true ∨ n ∈ cs) :
    (cs.foldl (fun (w : Word) k => w ||| BitVec.ofNat 32 (2 ^ k)) w).getLsbD n = true := by
  induction cs generalizing w with
  | nil => exact h.elim id fun h => absurd h List.not_mem_nil
  | cons k cs ih =>
    refine ih _ ?_
    rw [BitVec.getLsbD_or]
    rcases h with h | h
    · exact Or.inl (by rw [h]; rfl)
    · rcases List.mem_cons.mp h with rfl | h
      · left
        rw [BitVec.getLsbD_ofNat, Nat.testBit_two_pow_self]
        simp [hn]
      · exact Or.inr h

/-- The causes of a reset stand in `RST_CAUSE`. -/
theorem Lane.assertReset_causes (x : Lane) (cold : Bool) {cause : Nat} {causes : List Nat} (hc : cause < 8) (hm : cause ∈ causes) (tm : Nat) :
    ((x.assertReset cold causes tm).rg RST_CAUSE).getLsbD cause = true := by
  rw [Lane.assertReset_eq]
  generalize x.brgAfterReset _ tm = y
  unfold Lane.markReset
  extract_lets y₁ y₂
  have h₁ : (y₁.rg RST_CAUSE).getLsbD cause = true := by
    rw [show y₁.rg RST_CAUSE = y.rg RST_CAUSE ||| causeWord causes from Lane.rg_setRg_same _ _ _, BitVec.getLsbD_or]
    have : (causeWord causes).getLsbD cause = true := getLsbD_foldl_causes causes 0 (by omega) (Or.inr hm)
    rw [this, Bool.or_true]
  have h₂ : (y₂.rg RST_CAUSE).getLsbD cause = true := by
    have hset : y₂.rg RST_CAUSE = bvSet (y₁.rg RST_CAUSE) 8 1 (b2n (!(x.coldNow cold))) := Lane.rg_setRg_same _ _ _
    rw [hset, bvSet, BitVec.getLsbD_ofNat, setField_testBit, if_pos hc, BitVec.testBit_toNat, h₁, decide_eq_true (by omega)]
    rfl
  split
  · exact h₂
  · rw [Lane.fsat, Lane.rg_fset_ne _ (f := RSTC_STAT_NRST) _ (by decide)]
    exact h₂

/-- The cause of a reset stands in `RST_CAUSE`. -/
theorem Lane.assertReset_cause (x : Lane) (cold : Bool) {cause : Nat} (hc : cause < 8) (tm : Nat) :
    ((x.assertReset cold [cause] tm).rg RST_CAUSE).getLsbD cause = true := x.assertReset_causes cold hc (List.mem_singleton_self _) tm

/-- A reset that is due is asserted; with the last one of a module reset the module stands before its first catch (R4, R181). -/
theorem State.leaveReset_of_due {s : State} {l : LaneId} {tm d cause : Nat} {cold : Bool} (h : (s.lane l).rst.due = some (cold, cause, d))
    (ht : d ≤ tm) : s.leaveReset l tm = (s.modLane l (·.assertReset cold [cause] s.now)).settleRestart := by
  unfold State.leaveReset
  simp only [h, ht, if_true]
  rfl

theorem State.settleRestart_frame (s : State) : s.settleRestart = { s with phase := s.settleRestart.phase } := by
  unfold State.settleRestart
  split
  · split <;> rfl
  · rfl

theorem State.settleRestart_phase (s : State) :
    s.settleRestart.phase = if s.phase = .restarting ∧ (allLanes.all fun y => (s.lane y).rst.due.isNone) = true then .sitReady else s.phase := by
  have hany : (allLanes.any fun y => (s.lane y).rst.due.isSome) = !(allLanes.all fun y => (s.lane y).rst.due.isNone) := by
    rw [List.not_all_eq_any_not]
    exact congrArg (allLanes.any ·) (funext fun y => by cases (s.lane y).rst.due <;> rfl)
  unfold State.settleRestart
  split
  next hp =>
    rw [hany, hp]
    cases allLanes.all fun y => (s.lane y).rst.due.isNone
    · exact hp
    · rfl
  next hp => rw [if_neg fun h => hp h.1]

@[simp] theorem State.settleRestart_lane (s : State) (l : LaneId) : s.settleRestart.lane l = s.lane l := by
  rw [State.settleRestart_frame]
  cases l <;> rfl

/-- Handing the module on to sit ready is no change of a lane. -/
theorem State.OnlyLane.settleRestart {s t : State} {l : LaneId} (h : s.OnlyLane t l) :
    ({ s with phase := t.settleRestart.phase } : State).OnlyLane t.settleRestart l := by
  obtain ⟨hlanes, hhub, heq⟩ := h
  refine ⟨fun k hk => ?_, ?_, ?_⟩
  · rw [State.settleRestart_lane, hlanes k hk]
    cases k <;> rfl
  · rw [State.settleRestart_frame]
    exact hhub
  · have hframe := State.settleRestart_frame t
    generalize t.settleRestart.phase = p at hframe ⊢
    rw [hframe]
    exact congrArg (fun u : State => { u with phase := p }) heq

/-- Settles O18: a notice adds the peer to those known gone; a leave is the lane's own while a voter stays and takes every lane into easy all when
none does; its reset clears what a reset clears. -/
theorem leavingStopsDrivingAndSigning : Obligations.LeavingStopsDrivingAndSigning := by
  refine ⟨?notice, ?leave, ?last, ?reset⟩
  case notice =>
    intro s dst src r hl he hv hs hm hp hne
    have hstay := (s.lane dst).knowsGone_staying src r.toNat
    refine ⟨_, rfl, fun h2 => ?_, fun h2 => ?_⟩
    · rw [State.leaveNotice_of_enough hl he hp hne (by rw [hstay]; exact h2), State.lane_setLane]
      exact ⟨s.onlyLane_setLane dst _, rfl, hstay, List.mem_cons_self⟩
    · obtain ⟨c, hc, heq⟩ := State.leaveNotice_of_few hl he hv hs hm hp hne (by rw [hstay]; exact h2)
      rw [heq]
      have hlane : (s.setLane dst ((s.lane dst).knowsGone src r.toNat)).lane dst = (s.lane dst).knowsGone src r.toNat := State.lane_setLane _ _ _
      obtain ⟨hin, -, hen, hcause, -, hdyn, hoff⟩ := State.enterEasy_of_up (s.onlyLane_setLane dst ((s.lane dst).knowsGone src r.toNat))
        (by rw [hlane]; exact hl) (by rw [hlane]; exact he) c false
      refine ⟨hin, hen, ?_, hdyn, hoff⟩
      rw [hcause]
      rcases hc with rfl | rfl
      · exact .inl rfl
      · exact .inr rfl
  case leave =>
    intro s l y hl he hv hy hyv
    obtain ⟨honly, hlane⟩ := State.leave_of_voter he hv hy hyv leaveFirmware 0 0 (s.now + tenMicros) causeSwr
    refine ⟨s.leaveAtOnce l leaveFirmware causeSwr, congrArg Host.Outcome.next (if_neg (by rw [hl]; decide)), honly, ?_⟩
    rw [State.leaveAtOnce, hlane]
    exact ⟨Lane.leaveNow_inVote _ _ _ _ _ _, Lane.leaveNow_silent _ _ _ _ _ _, Lane.leaveNow_reason _ _ _ _ _ _,
      (Lane.leaveNow_rest _ _ _ _ _ _).2.2⟩
  case last =>
    intro s l hl he hv ho
    obtain ⟨c, heq⟩ := State.leave_of_last he hv ho leaveFirmware 0 0 (s.now + tenMicros) causeSwr
    refine ⟨s.leaveAtOnce l leaveFirmware causeSwr, congrArg Host.Outcome.next (if_neg (by rw [hl]; decide)), ?_, fun y hyl hye => ?_⟩
    · rw [State.leaveAtOnce, heq]
      exact (State.enterEasyAll_field allLanes c _).trans (s.setLane_field l _)
    · rw [State.leaveAtOnce, heq, State.markEasy_lane]
      generalize hz : (s.setLane l ((s.lane l).leaveNow leaveFirmware 0 0 (s.now + tenMicros) causeSwr)).recLane l 1 2 164 _ = z
      have hlane : (z.lane y).rst.held = false ∧ (z.lane y).easy = false := by
        rw [← hz, State.recLane_lane]
        by_cases h : y = l
        · rw [h, State.lane_setLane]
          refine ⟨(Lane.leaveNow_rest _ _ _ _ _ _).2.1.trans hl, ?_⟩
          rw [Lane.easy, Lane.mode, Lane.leaveNow_mode]
          rfl
        · rw [s.lane_setLane_ne _ h]
          exact ⟨hyl, hye⟩
      rw [State.enterEasyAll_lane_of_mem allLanes c z (by decide) (by cases y <;> decide) (State.up_of_not_held hlane.1)]
      exact ⟨Lane.enterEasy_easy _ _ _ hlane.2, Lane.enterEasy_dynEn _ _ _ hlane.2, Lane.enterEasy_dyn _ _ _ hlane.2⟩
  case reset =>
    intro s l tm d cause cold hdue hc ht
    have hdue' : ((s.at tm).lane l).rst.due = some (cold, cause, d) := by rw [State.at_lane]; exact hdue
    have heq := State.leaveReset_of_due hdue' ht
    generalize hz : (s.at tm).modLane l (·.assertReset cold [cause] (s.at tm).now) = z at heq
    have honly : s.OnlyLane z l := hz ▸ (s.onlyLane_at tm l).trans ((s.at tm).onlyLane_modLane l _)
    have hzl : z.lane l = (s.lane l).assertReset cold [cause] (s.at tm).now := by rw [← hz, State.lane_modLane, State.at_lane]
    have hzo (y : LaneId) (hy : y ≠ l) : z.lane y = s.lane y := by rw [← hz, State.lane_modLane_ne _ _ hy, State.at_lane]
    have hphase : z.phase = s.phase := by rw [honly.2.2]
    obtain ⟨-, hheld, hnone, -, hwarm, hcold⟩ := (s.lane l).resetKept_rest ((s.lane l).coldNow cold) cold (s.at tm).now
    have hframe := (s.lane l).assertReset_frame cold [cause] (s.at tm).now
    have hrst : ((s.lane l).assertReset cold [cause] (s.at tm).now).rst = ((s.lane l).resetKept ((s.lane l).coldNow cold) cold (s.at tm).now).rst :=
      (congrArg Lane.rst hframe).trans rfl
    have hall : (allLanes.all fun y => (z.lane y).rst.due.isNone) = allLanes.all fun y => y == l || (s.lane y).rst.due.isNone := by
      refine congrArg (allLanes.all ·) (funext fun y => ?_)
      by_cases hy : y = l
      · rw [hy, hzl, hrst, hnone, beq_self_eq_true]
        rfl
      · rw [hzo y hy, beq_eq_false_iff_ne.2 hy, Bool.false_or]
    refine ⟨_, congrArg Host.Outcome.next heq, honly.settleRestart, ?_, ?_⟩
    · rw [State.settleRestart_phase, hphase, hall]
    · rw [State.settleRestart_lane, hzl]
      refine ⟨hrst ▸ hheld, Lane.assertReset_silent _ _ _ _, hrst ▸ hnone, Lane.assertReset_cause _ _ hc _, fun hw hh => ?_, fun hcd => ?_⟩
      · obtain ⟨hsram, hcells⟩ := hwarm (by rw [Lane.coldNow, hw, hh]; rfl)
        exact ⟨(congrArg Lane.sram hframe).trans hsram, (congrArg Lane.cells hframe).trans hcells⟩
      · exact (congrArg Lane.sram hframe).trans (hcold (by rw [Lane.coldNow, hcd]; rfl))

/-! ### Easy all (R173 to R180) -/

/-- The connections a surviving lane signs a restrictive telegram for (R180). -/
def Lane.restrictiveConns (x : Lane) : List Nat := x.openAtEntry.filter fun k => (x.restrictivePayload k).isSome

/-- One restrictive telegram: its connection's sequence moves on, its bytes join those placed. -/
def Lane.placeRestrictive (t : Nat) (acc : Lane × List OutTlg) (k : Nat) : Lane × List OutTlg :=
  let c := acc.1.conn k
  let seq := (c.txSeq + 1) % 2 ^ 32
  let tl := acc.1.blankTlg k tyData seq ((acc.1.restrictivePayload k).getD []) t true
  (acc.1.setConn k { c with txSeq := seq }, acc.2 ++ [{ conn := k, bytes := (acc.1.signTlg k tl).bytes, t := t }])

theorem Lane.restrictive_eq (x : Lane) (t : Nat) : x.restrictive t = x.restrictiveConns.foldl (Lane.placeRestrictive t) (x, []) := rfl

theorem Lane.foldl_placeRestrictive_reg (t : Nat) (ks : List Nat) (acc : Lane × List OutTlg) :
    (ks.foldl (Lane.placeRestrictive t) acc).1.reg = acc.1.reg := by
  induction ks generalizing acc with
  | nil => rfl
  | cons k ks ih => exact ih _

theorem Lane.foldl_placeRestrictive_conn (t : Nat) (ks : List Nat) (acc : Lane × List OutTlg) :
    (ks.foldl (Lane.placeRestrictive t) acc).2.map (·.conn) = acc.2.map (·.conn) ++ ks := by
  induction ks generalizing acc with
  | nil => exact (List.append_nil _).symm
  | cons k ks ih =>
    rw [List.foldl_cons, ih, Lane.placeRestrictive, List.map_append, List.append_assoc]
    rfl

/-- What a lane's step and a change of its own mailbox that keeps the bytes change. -/
theorem State.OnlyLane.boxed {s t : State} {l : LaneId} (h : s.OnlyLane t l) {f : Mailbox → Mailbox} (hf : ∀ m, (f m).mem = m.mem) :
    s.OnlyLaneAndMbx (t.modHub (·.modMbx l f)) l := by
  obtain ⟨hlanes, ⟨hhub, hregs⟩, heq⟩ := h
  have hmbx (k : LaneId) : t.hub.mbx k = s.hub.mbx k := by rw [hhub]; cases k <;> rfl
  refine ⟨fun k hk => ⟨(State.modHub_lane _ _ k).trans (hlanes k hk), ?_⟩, ?_, ?_, fun a ha => ?_, ?_⟩
  · rw [State.modHub_hub, Hub.mbx_modMbx_ne _ _ hk, hmbx]
  · rw [State.modHub_hub, Hub.mbx_modMbx, hf, hmbx]
  · rw [State.modHub_hub]
    generalize hk : t.hub = k at hhub ⊢
    cases l <;> rw [hhub] <;> rfl
  · refine Eq.trans ?_ (hregs a ha)
    cases l <;> rfl
  · generalize hk : t.hub = k at heq ⊢
    rw [State.modHub, hk, heq]

/-- Settles O19: the entry silences the lane and closes what is not OPEN; a surviving lane's restrictive telegrams are those of the
connections it serves, and no other lane forms any. -/
theorem easyAllStopsEveryDynamicSignal : Obligations.EasyAllStopsEveryDynamicSignal := by
  refine ⟨fun s l hl he => ?_, fun s dst src cause hl he hne => ?_, fun s l tm hl he hsurv hsign hdue => ?_, fun s l tm h => ?_⟩
  · obtain ⟨honly, hlane, heasy, hcause, hvote, hdyn, hd⟩ := State.enterEasy_of_up (State.OnlyLane.refl s l) hl he easyFirmware false
    refine ⟨_, rfl, honly, heasy, hcause, ?_, hvote, hdyn, hd, ?_, fun k => ?_⟩
    · rw [hlane, Lane.enterEasy_peer _ _ _ he]
    · rw [hlane, Lane.enterEasy_signEn _ _ _ he]
    · rw [hlane, Lane.enterEasy_conn _ _ _ he, Conn.inEasy]
      split
      · next ho => exact .inl (eq_of_beq ho)
      · exact .inr rfl
  · obtain ⟨honly, hlane, heasy, hcause, hvote, hdyn, hd⟩ := State.enterEasy_of_up (State.OnlyLane.refl s dst) hl he cause.toNat true
    refine ⟨_, congrArg Host.Outcome.next (if_neg hne), honly, heasy, ?_, ?_, hvote, hdyn, hd⟩
    · rw [hcause, Nat.mod_eq_of_lt cause.isLt]
    · rw [hlane, Lane.enterEasy_peer _ _ _ he]
  · have hlane : (s.laneAt l tm).lane l = (s.lane l).at tm := s.lane_laneAt l tm
    have hguard : (((s.lane l).at tm).rst.held || !((s.lane l).at tm).easy || !((s.lane l).at tm).surviving ||
        !((s.lane l).at tm).on VOTE_STAT_SIGN_EN || !((s.lane l).at tm).restrictiveDue tm) = false := by
      rw [show ((s.lane l).at tm).rst = (s.lane l).rst from rfl, show ((s.lane l).at tm).easy = (s.lane l).easy from rfl,
        show ((s.lane l).at tm).surviving = (s.lane l).surviving from rfl, Lane.on_at,
        show ((s.lane l).at tm).restrictiveDue tm = (s.lane l).restrictiveDue tm from rfl, hl, he, hsurv, hsign, hdue]
      rfl
    have heq : (s.laneAt l tm).restrictiveFinish l tm = ((s.laneAt l tm).setLane l { (((s.lane l).at tm).restrictive tm).1 with
        restT := some (tm - ((s.lane l).at tm).deadline - 400000) }).modHub
        (·.modMbx l fun m => { m with outTlg := m.outTlg ++ (((s.lane l).at tm).restrictive tm).2 }) := by
      unfold State.restrictiveFinish
      simp only [hlane, hguard, Bool.false_eq_true, if_false]
    refine ⟨_, (((s.lane l).at tm).restrictive tm).2, congrArg Host.Outcome.next heq,
      ((s.onlyLane_laneAt l tm).trans (State.onlyLane_setLane _ l _)).boxed fun _ => rfl, ?_, ?_, ?_⟩
    · rw [State.modHub_lane, State.lane_setLane]
      exact Lane.foldl_placeRestrictive_reg _ _ _
    · rw [State.modHub_hub, Hub.mbx_modMbx, State.setLane_hub]
      cases l <;> rfl
    · exact Lane.foldl_placeRestrictive_conn _ _ _
  · refine ⟨_, congrArg Host.Outcome.next ?_, rfl⟩
    unfold State.restrictiveFinish
    rw [State.lane_laneAt]
    refine if_pos ?_
    rw [show ((s.lane l).at tm).easy = (s.lane l).easy from rfl,
      show ((s.lane l).at tm).surviving = (s.lane l).surviving from rfl, Lane.on_at,
      show ((s.lane l).at tm).restrictiveDue tm = (s.lane l).restrictiveDue tm from rfl]
    obtain h | h | h | h := h <;> simp [h]

end Sys2Proof.Machine
end

section
/-! PROOFS. The statement on the vote instant, refuted: the image handed over outside RUN restores the library instances of the task, which
are a part of what the statement keeps. -/

namespace Sys2Proof.Machine

/-- A library instance of the stroke task. -/
def strokeBlock : BlkCfg :=
  { kind := .resetEdge, task := 0, s1 := 0, s2 := 0, rst := [], discT := 0, tcyc := 0, antiv := false, auto := false, startup := false,
    enc := 0, active := 0, dirp := 0, vlim := 0, nwin := 0, pmin := 0, pmax := 0, dtol := 0 }

/-- The stroke task caught in STOP, its consensus decided. -/
def stoppedCycle : TaskRun := { taskNew 0 with active := true, decided := true, mode := .stop }

/-- Lane A votes with lane B, its stroke task caught in STOP after a cycle that an exception ended: the reset edge found in that cycle is not
that of the last finish in RUN. -/
noncomputable def afterException : State :=
  { State.reset with
    phase := .running,
    la := { laneReset .a with
      reg := [(VOTE_STAT, 0x30A#32), (XL_STAT, 0x3#32)], rst := { rstReset with held := false }, tasks := [stoppedCycle],
      prog := { progReset with blocks := [(strokeBlock, { blkReset strokeBlock with reset := true })],
                               blocksLast := [(strokeBlock, blkReset strokeBlock)] } },
    lb := { laneReset .b with reg := [(XL_STAT, 0x3#32)] }, lc := { laneReset .c with reg := [(XL_STAT, 0x3#32)] } }

/-- The vote instant of that cycle. -/
noncomputable def afterExceptionVote : Nat := afterException.la.dOf 0

/-- The lane is a voter of two, and its links are up. -/
theorem afterException_voter : afterException.la.inVote = true ∧ afterException.la.shadow = false ∧ afterException.la.easy = false ∧
    .a ∈ afterException.la.inset ∧ 2 ≤ afterException.la.inset.length := by
  decide +kernel

theorem afterException_links (y : LaneId) : (afterException.lane y).linkUp 0 = true ∧ (afterException.lane y).linkUp 1 = true := by
  cases y <;> decide +kernel

/-- The module after the vote instant. -/
noncomputable def afterExceptionVoted : State :=
  (afterException.laneAt .a afterExceptionVote).voteInstant .a 0 true 0 ⟨[], [], 0⟩ afterExceptionVote

/-- The instance is again that of the last finish in RUN (R217). -/
theorem afterExceptionVoted_blocks : (afterExceptionVoted.la.prog.blocks.map fun b => b.2.reset) = [false] := by
  decide +kernel

/-- Refutes O14: the vote instant of a task caught outside RUN restores its library instances, which the statement has the lane keep. -/
theorem not_lateFramesAndOverrunsLeaveTheVote : ¬ Obligations.LateFramesAndOverrunsLeaveTheVote := by
  intro h
  obtain ⟨hvote, hshadow, heasy, hmem, hlen⟩ := afterException_voter
  obtain ⟨t, ht, -, -, -, -, -, -, -, -, hkept⟩ := h.2.2 afterException .a 0 0 afterExceptionVote ⟨[], [], 0⟩ stoppedCycle rfl heasy hvote
    hshadow rfl rfl hmem hlen afterException_links rfl rfl rfl rfl (Nat.zero_add _).symm (by decide) (by decide +kernel) rfl
  obtain rfl : afterExceptionVoted = t := by injection ht
  have hblocks := congrArg (fun p : ProgInt => p.blocks.map fun b => b.2.reset) (hkept (.inl (by decide))).1
  exact absurd (afterExceptionVoted_blocks.symm.trans hblocks) (by decide)

end Sys2Proof.Machine
end

section
/-! PROOFS. The finish of a task: what a commit changes in a lane, what ends a cycle, what the stroke's own events at its finish leave alone
(R68, R69, R172, R174, R213), and the statement on the finish. -/

namespace Sys2Proof.Machine

/-! ### The commit of an image -/

theorem Lane.adoptMemory_frame (x : Lane) (c : Nat) : x.adoptMemory c = { x with sram := (x.adoptMemory c).sram } := by
  unfold Lane.adoptMemory
  generalize (x.ctx c).differs = ds
  induction ds generalizing x with
  | nil => rfl
  | cons d ds ih =>
    rw [List.foldl_cons]
    split
    · exact (ih _).trans rfl
    · exact ih x

/-- One output channel of a commit (R250, R254). -/
def Lane.commitOutput (split : Bool) (qon qlat : Nat) (x : Lane) (k : Nat) : Lane :=
  let y := x.fset FLDP_QLATCH_QLAT (setField (x.fget FLDP_QLATCH_QLAT) k 1 (getField qlat k 1))
  { y with fld := { y.fld with qon := bvSet y.fld.qon k 1 (getField qon k 1),
                               dyn := bvSet y.fld.dyn k 1 (b2n (getField qon k 1 == 1 && getField qlat k 1 == 0 && y.on VOTE_STAT_DYN_EN && !split)) } }

/-- What a commit may change of a lane: `VOTE_STAT` and the latches, memory, outputs and connections. -/
def Lane.Commits (x y : Lane) : Prop :=
  y = { x with reg := y.reg, sram := y.sram, fld := y.fld, conns := y.conns } ∧ x.RegsKept y [VOTE_STAT, FLDP_QLATCH]

theorem Lane.Commits.refl (x : Lane) : x.Commits x := ⟨rfl, .refl x _⟩

theorem Lane.Commits.trans {x y z : Lane} (a : x.Commits y) (b : y.Commits z) : x.Commits z := by
  obtain ⟨hx, hrx⟩ := a
  obtain ⟨hy, hry⟩ := b
  refine ⟨hy.trans ?_, hrx.trans hry⟩
  generalize hr : z.reg = r
  generalize z.sram = m
  generalize z.fld = f
  generalize z.conns = cs
  rw [hx]

theorem Lane.commits_commitField (x : Lane) (split : Bool) (c qon qlat : Nat) :
    x.Commits (x.commitField split c qon qlat) ∧ ∀ f : Fld, f.addr ≠ FLDP_QLATCH → (x.commitField split c qon qlat).fget f = x.fget f := by
  show x.Commits ((x.qOwned c).foldl (Lane.commitOutput split qon qlat) x) ∧
    ∀ f : Fld, f.addr ≠ FLDP_QLATCH → ((x.qOwned c).foldl (Lane.commitOutput split qon qlat) x).fget f = x.fget f
  generalize x.qOwned c = ks
  induction ks generalizing x with
  | nil => exact ⟨.refl x, fun _ _ => rfl⟩
  | cons k ks ih =>
    obtain ⟨hc, hf⟩ := ih (Lane.commitOutput split qon qlat x k)
    have hreg : (Lane.commitOutput split qon qlat x k).reg =
      (x.fset FLDP_QLATCH_QLAT (setField (x.fget FLDP_QLATCH_QLAT) k 1 (getField qlat k 1))).reg := rfl
    refine ⟨Lane.Commits.trans ⟨rfl, (x.regsKept_fset (f := FLDP_QLATCH_QLAT) _ (by decide)).trans (Lane.regsKept_of_reg_eq hreg _)⟩ hc, fun f h => ?_⟩
    rw [List.foldl_cons, hf f h, Lane.fget_of_reg_eq hreg, Lane.fget_fset_addr (f := FLDP_QLATCH_QLAT) _ _ h]

/-- A fold each step of which changes the connections alone changes the connections alone. -/
theorem Lane.foldl_conns {β γ : Type} (f : Lane × β → γ → Lane × β) (hf : ∀ a k, ∃ cs, (f a k).1 = { a.1 with conns := cs }) (ks : List γ)
    (acc : Lane × β) : ∃ cs, (ks.foldl f acc).1 = { acc.1 with conns := cs } := by
  induction ks generalizing acc with
  | nil => exact ⟨acc.1.conns, rfl⟩
  | cons k ks ih =>
    obtain ⟨cs, h⟩ := hf acc k
    obtain ⟨cs', h'⟩ := ih (f acc k)
    exact ⟨cs', by rw [List.foldl_cons, h', h]⟩

theorem Lane.sendAll_frame (x : Lane) (c t : Nat) (p : Nat → Option (List Byte)) (send : Nat → Bool) :
    ∃ cs, (x.sendAll c t p send).1 = { x with conns := cs } := by
  refine Lane.foldl_conns _ ?_ _ (x, [])
  exact fun _ _ => ⟨_, rfl⟩

/-- The lane with its enables as a finish at which it committed sets them (R172, R174). -/
def Lane.enabledAt (x : Lane) (c : Nat) : Lane :=
  ((x.adoptMemory c).fset VOTE_STAT_DYN_EN 1).fset VOTE_STAT_SIGN_EN (b2n ((x.adoptMemory c).ctx c).differs.isEmpty)

/-- The lane with the outputs of its voted image. -/
def Lane.outputsAt (x : Lane) (c : Nat) : Lane :=
  match (x.enabledAt c).fieldBlock c with
  | some a => (x.enabledAt c).commitField false c (leAt ((x.enabledAt c).voted c a 4) 0 4) (leAt ((x.enabledAt c).voted c (a + 4) 4) 0 4)
  | none => x.enabledAt c

theorem Lane.commitImage_eq (x : Lane) (c t : Nat) : x.commitImage false c t =
    (x.outputsAt c).sendAll c t ((x.outputsAt c).sendPayload c) fun k => (x.outputsAt c).on VOTE_STAT_SIGN_EN && (x.outputsAt c).mayPlace k := rfl

theorem Lane.commits_enabledAt (x : Lane) (c : Nat) : x.Commits (x.enabledAt c) := by
  have h := x.adoptMemory_frame c
  refine ⟨?_, ?_⟩
  · unfold Lane.enabledAt
    generalize b2n ((x.adoptMemory c).ctx c).differs.isEmpty = n
    rw [h]
    rfl
  · exact ((Lane.regsKept_of_reg_eq (by rw [h]) _).trans (Lane.regsKept_fset _ (f := VOTE_STAT_DYN_EN) _ (by decide))).trans
      (Lane.regsKept_fset _ (f := VOTE_STAT_SIGN_EN) _ (by decide))

theorem Lane.outputsAt_of_enabled (x : Lane) (c : Nat) :
    x.Commits (x.outputsAt c) ∧ ∀ f : Fld, f.addr ≠ FLDP_QLATCH → (x.outputsAt c).fget f = (x.enabledAt c).fget f := by
  unfold Lane.outputsAt
  split
  · next a _ =>
    obtain ⟨hc, hf⟩ := (x.enabledAt c).commits_commitField false c (leAt ((x.enabledAt c).voted c a 4) 0 4)
      (leAt ((x.enabledAt c).voted c (a + 4) 4) 0 4)
    exact ⟨(x.commits_enabledAt c).trans hc, hf⟩
  · exact ⟨x.commits_enabledAt c, fun _ _ => rfl⟩

/-- A commit of a lane that is not split-core enables its dynamics, and its sign engine where it agreed (R172, R174). -/
theorem Lane.commitImage_spec (x : Lane) (c t : Nat) :
    x.Commits (x.commitImage false c t).1 ∧ (x.commitImage false c t).1.on VOTE_STAT_DYN_EN = true ∧
      (x.commitImage false c t).1.on VOTE_STAT_SIGN_EN = (x.ctx c).differs.isEmpty ∧ (x.commitImage false c t).1.inVote = x.inVote := by
  obtain ⟨hc, hf⟩ := x.outputsAt_of_enabled c
  obtain ⟨cs, hsend⟩ := (x.outputsAt c).sendAll_frame c t ((x.outputsAt c).sendPayload c) fun k =>
    (x.outputsAt c).on VOTE_STAT_SIGN_EN && (x.outputsAt c).mayPlace k
  rw [← Lane.commitImage_eq] at hsend
  have hreg : (x.commitImage false c t).1.reg = (x.outputsAt c).reg := (congrArg Lane.reg hsend :)
  have hfget (f : Fld) (h : f.addr ≠ FLDP_QLATCH) : (x.commitImage false c t).1.fget f = (x.enabledAt c).fget f := by
    rw [Lane.fget_of_reg_eq hreg, hf f h]
  have hadopt := x.adoptMemory_frame c
  have hctx : (x.adoptMemory c).ctx c = x.ctx c := (congrArg (fun y : Lane => y.ctx c) hadopt :)
  have hstat (f : Fld) : (x.adoptMemory c).fget f = x.fget f := Lane.fget_of_reg_eq (by rw [hadopt]) f
  refine ⟨hc.trans ⟨by rw [hsend], Lane.regsKept_of_reg_eq hreg _⟩, ?_, ?_, ?_⟩
  · rw [Lane.on, hfget VOTE_STAT_DYN_EN (by decide), Lane.enabledAt, Lane.fget_fset_bits _ _ (by decide) (by decide) (by decide),
      Lane.fget_fset_same _ _ _ (by decide)]
    decide
  · rw [Lane.on, hfget VOTE_STAT_SIGN_EN (by decide), Lane.enabledAt, Lane.fget_fset_same _ _ _ (by decide), hctx]
    cases (x.ctx c).differs.isEmpty <;> rfl
  · rw [Lane.inVote, Lane.on, hfget VOTE_STAT_INVOTE (by decide), Lane.enabledAt, Lane.fget_fset_bits _ _ (by decide) (by decide) (by decide),
      Lane.fget_fset_bits _ _ (by decide) (by decide) (by decide), hstat, Lane.inVote, Lane.on]

/-! ### The end of a cycle -/

/-- What the end of a cycle leaves of a lane: registers, outputs, its time and the results it has. -/
structure Lane.CycleKept (x y : Lane) : Prop where
  reg : y.reg = x.reg
  fld : y.fld = x.fld
  fol : y.fol = x.fol
  cmdDone : y.prog.cmdDone = x.prog.cmdDone

theorem Lane.CycleKept.trans {x y z : Lane} (a : x.CycleKept y) (b : y.CycleKept z) : x.CycleKept z :=
  ⟨b.reg.trans a.reg, b.fld.trans a.fld, b.fol.trans a.fol, b.cmdDone.trans a.cmdDone⟩

theorem Lane.cycleKept_modTask (x : Lane) (n : Nat) (f : TaskRun → TaskRun) : x.CycleKept (x.modTask n f) := by
  unfold Lane.modTask
  split <;> exact ⟨rfl, rfl, rfl, rfl⟩

theorem Lane.cycleKept_setMode (x : Lane) (m : PrgMode) (fault : Bool) : x.CycleKept (x.setMode m fault) := by
  refine ⟨rfl, rfl, rfl, ?_⟩
  dsimp only [Lane.setMode]
  split <;> rfl

theorem Lane.cycleKept_endTask (x : Lane) (task c t : Nat) : x.CycleKept (x.endTask task c t) := by
  unfold Lane.endTask
  extract_lets now ran broke y z w v
  have hy : x.CycleKept y := x.cycleKept_modTask _ _
  have hz : y.CycleKept z := by
    show y.CycleKept (if ran = true then { y with prog := y.prog.keepBlocks task } else y)
    split <;> exact ⟨rfl, rfl, rfl, rfl⟩
  have hw : z.CycleKept w := ⟨rfl, rfl, rfl, rfl⟩
  have hv : w.CycleKept v := by
    show w.CycleKept (if broke = true then w.setMode .hold false else w)
    split
    · exact w.cycleKept_setMode _ _
    · exact ⟨rfl, rfl, rfl, rfl⟩
  exact (((hy.trans hz).trans hw).trans hv).trans ⟨rfl, rfl, rfl, rfl⟩

/-- A mode set for a task that does not run leaves it as it is. -/
theorem Lane.taskOf_setMode {x : Lane} {n : Nat} {k : TaskRun} (h : x.taskOf n = some k) (ha : k.active = false) (m : PrgMode) (fault : Bool) :
    (x.setMode m fault).taskOf n = some k := by
  show (x.tasks.map fun k => if k.active = true ∧ (m = .hold ∨ k.tn = x.fol.tn) then { k with mode := m, ready := k.ready && m == .run } else k).find?
    (fun k => k.tnum == n) = some k
  rw [List.find?_map, show ((fun k : TaskRun => k.tnum == n) ∘ fun k => if k.active = true ∧ (m = .hold ∨ k.tn = x.fol.tn) then
    { k with mode := m, ready := k.ready && m == .run } else k) = fun k => k.tnum == n from funext fun k => by dsimp only [Function.comp]; split <;> rfl,
    show x.tasks.find? (fun k => k.tnum == n) = some k from h, Option.map_some, if_neg (by rw [ha]; simp)]

theorem Lane.endTask_taskOf {x : Lane} {task : Nat} {k : TaskRun} (h : x.taskOf task = some k) (c t : Nat) :
    ∃ k', (x.endTask task c t).taskOf task = some k' ∧ k'.active = false := by
  have hmod : ∃ k', (x.modTask task fun k => { k.ended with
      prevTn := k.tn, served := 0, comm := x.ownedNow task,
      last := if (x.taskOf task).any (fun k => k.mode == .run && !k.excepted && !k.broke) then x.ownedNow task else k.last }).taskOf task = some k' ∧
      k'.active = false := ⟨_, Lane.taskOf_modTask _ h rfl, rfl⟩
  unfold Lane.endTask
  extract_lets now ran broke y z w v
  obtain ⟨k', hk, ha⟩ := hmod
  have hz : w.taskOf task = some k' := by
    show z.taskOf task = some k'
    have : z.tasks = y.tasks := by
      show (if ran = true then ({ y with prog := y.prog.keepBlocks task } : Lane) else y).tasks = y.tasks
      split <;> rfl
    rw [Lane.taskOf, this]
    exact hk
  refine ⟨k', ?_, ha⟩
  show v.taskOf task = some k'
  show (if broke = true then w.setMode .hold false else w).taskOf task = some k'
  split
  · exact Lane.taskOf_setMode hz ha _ _
  · exact hz

/-! ### The stroke's own events -/

/-- The lane after the stroke's own events at its finish: the retain copy, the compare digest, its results handed out (R222, R349, R382). -/
def Lane.strokeDone (x : Lane) : Lane :=
  let y := { x.writeRetain.countForced with cmpOwn := ((x.stroke, (x.ctx 0).compareDigest) :: x.cmpOwn).take 4 }
  { y with prog := { y.prog with cmdDone := [], laneStep := false } }

theorem Lane.writeRetain_frame (x : Lane) : ∃ m one, x.writeRetain = { x with sram := m, prog := { x.prog with retNew := one } } := by
  unfold Lane.writeRetain
  split
  · exact ⟨_, _, rfl⟩
  · exact ⟨_, _, rfl⟩

/-- What the stroke's own events change of a lane: its memory, its program state and the digests it compares. -/
theorem Lane.strokeDone_frame (x : Lane) :
    ∃ m p cs, x.strokeDone = { x with sram := m, prog := p, cmpOwn := cs } ∧ p.cmdDone = [] ∧ p.laneStep = false := by
  obtain ⟨m, one, h⟩ := x.writeRetain_frame
  unfold Lane.strokeDone
  rw [h]
  exact ⟨_, _, _, rfl, rfl, rfl⟩

theorem Hub.countQueues_mbx (h : Hub) (l : LaneId) : h.countQueues.mbx l = h.mbx l := by
  unfold Hub.countQueues
  suffices ∀ (qs : List Nat) (x : Hub), (qs.foldl (fun (x : Hub) q => (x.fset (HCMD_QCNT_INFL q) (h.inFlight q)).fset (HCMD_QCNT_ACT q) (h.activeIn q)) x).mbx l =
      x.mbx l from this _ _
  intro qs x
  induction qs generalizing x with
  | nil => rfl
  | cons q qs ih =>
    rw [List.foldl_cons, ih]
    cases l <;> rfl

theorem Hub.endCmd_mbx (h : Hub) (c : HostCmd) (st detail : Nat) (result : Dword) (dout : List Byte) (l : LaneId) :
    (h.endCmd c st detail result dout).mbx l = h.mbx l := by
  rw [Hub.endCmd, Hub.countQueues_mbx]
  cases l <;> rfl

/-- A change of the hub that leaves the mailboxes. -/
def State.HubOnly (s t : State) : Prop := (∃ h, t = { s with hub := h }) ∧ ∀ l, t.hub.mbx l = s.hub.mbx l

theorem State.HubOnly.refl (s : State) : s.HubOnly s := ⟨⟨s.hub, rfl⟩, fun _ => rfl⟩

theorem State.HubOnly.trans {s t u : State} (a : s.HubOnly t) (b : t.HubOnly u) : s.HubOnly u := by
  obtain ⟨⟨h, ht⟩, hm⟩ := a
  obtain ⟨⟨h', hu⟩, hm'⟩ := b
  exact ⟨⟨h', by rw [hu, ht]⟩, fun l => (hm' l).trans (hm l)⟩

theorem State.HubOnly.lane {s t : State} (a : s.HubOnly t) (l : LaneId) : t.lane l = s.lane l := by
  obtain ⟨⟨h, ht⟩, -⟩ := a
  rw [ht]
  cases l <;> rfl

theorem State.hubOnly_modHub (s : State) {f : Hub → Hub} (hf : ∀ l, (f s.hub).mbx l = s.hub.mbx l) : s.HubOnly (s.modHub f) := ⟨⟨_, rfl⟩, hf⟩

theorem State.hubOnly_collectResults (s : State) : s.HubOnly s.collectResults := by
  unfold State.collectResults
  split
  · exact .refl s
  · next hready =>
    clear hready
    generalize s.hub.host.cmds = cs
    induction cs generalizing s with
    | nil => exact .refl s
    | cons c cs ih =>
      rw [List.foldl_cons]
      refine .trans ?_ (ih _)
      split
      · split
        · split
          · exact s.hubOnly_modHub fun l => Hub.endCmd_mbx _ _ _ _ _ _ l
          · exact .refl s
        · exact .refl s
      · exact .refl s

theorem State.hubOnly_sendPages (s : State) (l : LaneId) : s.HubOnly (s.sendPages l) := by
  unfold State.sendPages
  extract_lets p now out
  clear_value now out
  split
  · exact .refl s
  · split
    · exact s.hubOnly_modHub fun l => by cases l <;> rfl
    · exact s.hubOnly_modHub fun l => by cases l <;> rfl

theorem Hub.sendFrame_mbx (h : Hub) (ty : Nat) (bs : List Byte) (put : List Byte → PtnrInt → PtnrInt) (l : LaneId) :
    (h.sendFrame ty bs put).mbx l = h.mbx l := by
  unfold Hub.sendFrame
  split
  · rfl
  · cases l <;> rfl

/-- A finish of the stroke at which the lane does not leave: the lane's own events, its results and its time in its mailbox. -/
theorem State.strokeFinish_of_stay {s : State} {l : LaneId} (h : (s.lane l).prog.laneStep = false) :
    ∃ f : Mailbox → Mailbox, ((s.setLane l (s.lane l).strokeDone).modHub (·.modMbx l f)).HubOnly (s.strokeFinish l) ∧
      ∀ m, (f m).pubTime = (s.lane l).strokeDone.fol.time ∧ (f m).outTlg = m.outTlg ∧ (f m).mem = m.mem := by
  unfold State.strokeFinish
  extract_lets x cmp z y out step p s₁ s₂ s₃ s₄
  have hstep : step = false := by
    obtain ⟨m, one, hr⟩ := (s.lane l).writeRetain_frame
    show (s.lane l).writeRetain.countForced.prog.laneStep = false
    rw [hr]
    exact h
  refine ⟨fun m => { m with results := (m.results ++ out).drop (m.results.length + out.length - 64), pubTime := y.fol.time }, ?_,
    fun m => ⟨rfl, rfl, rfl⟩⟩
  have h₂ : ((s.setLane l (s.lane l).strokeDone).modHub (·.modMbx l fun m =>
      { m with results := (m.results ++ out).drop (m.results.length + out.length - 64), pubTime := y.fol.time })).HubOnly s₂ := .refl _
  have h₃ : s₂.HubOnly s₃ := by
    show s₂.HubOnly (if y.yieldNext && s₂.hub.up then _ else s₂)
    split
    · exact s₂.hubOnly_modHub fun _ => Hub.sendFrame_mbx _ _ _ _ _
    · exact .refl _
  rw [hstep]
  exact ((h₂.trans h₃).trans (s₃.hubOnly_sendPages l)).trans (State.hubOnly_collectResults _)

/-! ### FINISH -/

theorem State.modHub_modLane (s : State) (f : Hub → Hub) (l : LaneId) (g : Lane → Lane) :
    (s.modHub f).modLane l g = (s.modLane l g).modHub f := by
  cases l <;> rfl

/-- The state with the voted image of a context committed and its telegrams placed. -/
def State.commitAt (s : State) (l : LaneId) (c t : Nat) : State :=
  (s.setLane l ((s.lane l).commitImage false c t).1).modHub (·.modMbx l fun m => { m with outTlg := m.outTlg ++ ((s.lane l).commitImage false c t).2 })

theorem State.commitAt_lane (s : State) (l : LaneId) (c t : Nat) : (s.commitAt l c t).lane l = ((s.lane l).commitImage false c t).1 := by
  rw [State.commitAt, State.modHub_lane, State.lane_setLane]

theorem State.commitAt_lane_ne (s : State) {l y : LaneId} (hy : y ≠ l) (c t : Nat) : (s.commitAt l c t).lane y = s.lane y := by
  rw [State.commitAt, State.modHub_lane, s.lane_setLane_ne _ hy]

section Finish
variable {s : State} {l : LaneId} {task t : Nat} {k : TaskRun} (hk : (s.lane l).taskOf task = some k) (hl : (s.lane l).rst.held = false)
  (he : (s.lane l).easy = false) (ha : k.active = true) (ht : t = k.tn + (s.lane l).dOf task + voteWindow task)
include hk hl he ha ht

theorem State.finishTask_of_voter (hv : (s.lane l).inVote = true) (hs : s.split = false) (hw : (s.lane l).readm.who = none)
    (hc : ((s.lane l).ctx ((s.lane l).ctxOf task)).commit = true) :
    s.finishTask l task t = (if task = 0 then (s.commitAt l ((s.lane l).ctxOf task) t).strokeFinish l
      else s.commitAt l ((s.lane l).ctxOf task) t).modLane l (·.endTask task ((s.lane l).ctxOf task) t) := by
  have hreadm : (s.commitAt l ((s.lane l).ctxOf task) t).readmFinish l task ((s.lane l).ctxOf task) t =
      s.commitAt l ((s.lane l).ctxOf task) t := by
    have hwho : ((s.commitAt l ((s.lane l).ctxOf task) t).lane l).readm.who = none := by
      obtain ⟨⟨hframe, -⟩, -⟩ := (s.lane l).commitImage_spec ((s.lane l).ctxOf task) t
      rw [State.commitAt_lane, hframe]
      exact hw
    unfold State.readmFinish
    simp only [hwho]
  have hguard : ((s.lane l).rst.held || (s.lane l).easy || !k.active || t != k.tn + (s.lane l).dOf task + voteWindow task) = false := by
    rw [hl, he, ha, ht, bne_self_eq_false]
    rfl
  unfold State.finishTask
  simp only [hk, hguard, hv, hc, hs, Bool.and_self, Bool.true_or, and_true, Bool.false_eq_true, if_true, if_false]
  exact congrArg (fun u : State => (if task = 0 then u.strokeFinish l else u).modLane l (·.endTask task ((s.lane l).ctxOf task) t)) hreadm

theorem State.finishTask_of_outside (hv : (s.lane l).inVote = false) (hs : (s.lane l).shadow = false) :
    s.finishTask l task t = s.modLane l (·.endTask task ((s.lane l).ctxOf task) t) := by
  have hguard : ((s.lane l).rst.held || (s.lane l).easy || !k.active || t != k.tn + (s.lane l).dOf task + voteWindow task) = false := by
    rw [hl, he, ha, ht, bne_self_eq_false]
    rfl
  unfold State.finishTask
  simp only [hk, hguard, hv, hs, Bool.false_and, Bool.or_self, and_false, Bool.false_eq_true, if_false]

end Finish

theorem State.finishTask_of_other {s : State} {l : LaneId} {task t : Nat} {k : TaskRun} (hk : (s.lane l).taskOf task = some k)
    (h : k.active = false ∨ t ≠ k.tn + (s.lane l).dOf task + voteWindow task) : s.finishTask l task t = s := by
  unfold State.finishTask
  simp only [hk]
  refine if_pos ?_
  obtain h | h := h
  · simp [h]
  · simp [h]

/-- What a lane has after the finish of a cycle it committed. -/
theorem Lane.finished_of_reg {x y : Lane} {c t : Nat} (h : y.reg = (x.commitImage false c t).1.reg) :
    y.on VOTE_STAT_DYN_EN = true ∧ y.on VOTE_STAT_SIGN_EN = (x.ctx c).differs.isEmpty ∧ y.inVote = x.inVote ∧ x.RegsKept y [VOTE_STAT, FLDP_QLATCH] := by
  obtain ⟨⟨-, hregs⟩, hdyn, hsign, hvote⟩ := x.commitImage_spec c t
  refine ⟨?_, ?_, ?_, hregs.trans (Lane.regsKept_of_reg_eq h _)⟩
  · rw [Lane.on_of_reg_eq h, hdyn]
  · rw [Lane.on_of_reg_eq h, hsign]
  · rw [Lane.inVote, Lane.on_of_reg_eq h]
    exact hvote

/-- Settles O15: a commit sets the enables and nothing of the end of a cycle touches them; the stroke's own events go on in the lane's memory,
its mailbox and the hub. -/
theorem finishEnablesOnlyVotersThatAgree : Obligations.FinishEnablesOnlyVotersThatAgree := by
  refine ⟨?task, ?stroke, ?outside, ?other⟩
  case task =>
    intro s l task tm k hl he hv hs h0 hw hk ha ht hc
    have hlane : (s.laneAt l tm).lane l = (s.lane l).at tm := s.lane_laneAt l tm
    have heq := State.finishTask_of_voter (s := s.laneAt l tm) (task := task) (t := tm) (k := k) (by rw [hlane]; exact hk) (by rw [hlane]; exact hl)
      (by rw [hlane]; exact he) ha (by rw [hlane]; exact ht) (by rw [hlane]; exact hv) (by rw [State.split, State.laneAt_fuses]; exact hs)
      (by rw [hlane]; exact hw) (by rw [hlane]; exact hc)
    rw [if_neg h0, hlane] at heq
    obtain ⟨k', hk', ha'⟩ := Lane.endTask_taskOf (x := (((s.lane l).at tm).commitImage false (((s.lane l).at tm).ctxOf task) tm).1) (task := task) (k := k)
      (by rw [((s.lane l).at tm).commitImage_spec _ _ |>.1.1]; exact hk) (((s.lane l).at tm).ctxOf task) tm
    obtain ⟨hdyn, hsign, hvote, hregs⟩ := Lane.finished_of_reg
      ((((s.lane l).at tm).commitImage false (((s.lane l).at tm).ctxOf task) tm).1.cycleKept_endTask task (((s.lane l).at tm).ctxOf task) tm).reg
    refine ⟨_, k', congrArg Host.Outcome.next heq, ?_, ?_⟩
    · rw [State.commitAt, State.modHub_modLane]
      exact (((s.onlyLane_laneAt l tm).trans (State.onlyLane_setLane _ l _)).trans (State.onlyLane_modLane _ l _)).boxed fun _ => rfl
    · rw [State.lane_modLane, State.commitAt_lane, hlane]
      exact ⟨hdyn, hsign, hvote.trans hv, hk', ha', hregs⟩
  case stroke =>
    intro s l tm k hid hl he hv hs hw hk ha hstep ht hc
    have hlane : (s.laneAt l tm).lane l = (s.lane l).at tm := s.lane_laneAt l tm
    have heq := State.finishTask_of_voter (s := s.laneAt l tm) (task := 0) (t := tm) (k := k) (by rw [hlane]; exact hk) (by rw [hlane]; exact hl)
      (by rw [hlane]; exact he) ha (by rw [hlane]; exact ht) (by rw [hlane]; exact hv) (by rw [State.split, State.laneAt_fuses]; exact hs)
      (by rw [hlane]; exact hw) (by rw [hlane]; exact hc)
    rw [if_pos rfl, hlane, show ((s.lane l).at tm).ctxOf 0 = 0 from rfl] at heq
    have hx : ((s.laneAt l tm).commitAt l 0 tm).lane l = (((s.lane l).at tm).commitImage false 0 tm).1 := by rw [State.commitAt_lane, hlane]
    obtain ⟨⟨hframe, -⟩, -⟩ := ((s.lane l).at tm).commitImage_spec 0 tm
    generalize hy : (((s.lane l).at tm).commitImage false 0 tm).1 = y at hframe hx
    obtain ⟨f, hhub, hf⟩ := State.strokeFinish_of_stay (s := (s.laneAt l tm).commitAt l 0 tm) (l := l) (by rw [hx, hframe]; exact hstep)
    rw [hx] at hhub hf
    obtain ⟨m, p, cs, hdone, hnone, -⟩ := y.strokeDone_frame
    obtain ⟨k', hk', ha'⟩ := Lane.endTask_taskOf (x := y.strokeDone) (task := 0) (k := k) (by rw [hdone, hframe]; exact hk) 0 tm
    have hend := y.strokeDone.cycleKept_endTask 0 0 tm
    have hlane' : ((s.laneAt l tm).finishTask l 0 tm).lane l = y.strokeDone.endTask 0 0 tm := by
      rw [heq, State.lane_modLane, hhub.lane, State.modHub_lane, State.lane_setLane]
    obtain ⟨hdyn, hsign, hvote, hregs⟩ := Lane.finished_of_reg (x := (s.lane l).at tm) (c := 0) (t := tm)
      (hend.reg.trans (show y.strokeDone.reg = _ by rw [hdone, hy]))
    refine ⟨_, k', rfl, fun z hz => ?_, ?_, ?_⟩
    · rw [heq, State.lane_modLane_ne _ _ hz, hhub.lane, State.modHub_lane, State.lane_setLane_ne _ _ hz, State.commitAt_lane_ne _ hz,
        s.lane_laneAt_ne tm hz]
    · obtain ⟨⟨h, hh⟩, -⟩ := hhub
      rw [heq, State.modLane_field, hh]
      show (((s.laneAt l tm).commitAt l 0 tm).setLane l y.strokeDone).field = s.field
      rw [State.setLane_field]
      show ((s.laneAt l tm).setLane l _).field = s.field
      rw [State.setLane_field, State.laneAt_field]
    · rw [hlane']
      refine ⟨hdyn, hsign, hvote.trans hv, hk', ha', hend.cmdDone.trans (by rw [hdone]; exact hnone), ?_, hregs⟩
      rw [heq, State.modLane_hub, hhub.2 l, State.modHub_hub, Hub.mbx_modMbx, (hf _).1]
      exact congrArg Follower.time hend.fol.symm
  case outside =>
    intro s l task tm k hl he hv hs hk ha ht
    have hlane : (s.laneAt l tm).lane l = (s.lane l).at tm := s.lane_laneAt l tm
    have heq := State.finishTask_of_outside (s := s.laneAt l tm) (task := task) (t := tm) (k := k) (by rw [hlane]; exact hk)
      (by rw [hlane]; exact hl) (by rw [hlane]; exact he) ha (by rw [hlane]; exact ht) (by rw [hlane]; exact hv) (by rw [hlane]; exact hs)
    rw [hlane] at heq
    have hend := ((s.lane l).at tm).cycleKept_endTask task (((s.lane l).at tm).ctxOf task) tm
    refine ⟨_, congrArg Host.Outcome.next heq, (s.onlyLane_laneAt l tm).trans (State.onlyLane_modLane _ l _), ?_, ?_, ?_⟩
    · rw [State.lane_modLane, hlane]
      exact hend.reg
    · rw [State.lane_modLane, hlane]
      exact hend.fld
    · rw [State.modLane_hub, State.laneAt_hub]
  case other =>
    intro s l task tm k hk h
    have hlane : (s.laneAt l tm).lane l = (s.lane l).at tm := s.lane_laneAt l tm
    exact ⟨_, congrArg Host.Outcome.next (State.finishTask_of_other (by rw [hlane]; exact hk) (by rw [hlane]; exact h)), rfl⟩

end Sys2Proof.Machine
end

section
/-! PROOFS. The catch: the links taken over, the stroke numbered, the frame formed (R39, R42, R47, R51 to R53, R160), and the statement on the
catch. -/

namespace Sys2Proof.Machine

/-! ### Changes of one lane in sequence -/

theorem State.setLane_self (s : State) (l : LaneId) : s.setLane l (s.lane l) = s := by cases l <;> rfl

theorem State.setLane_setLane (s : State) (l : LaneId) (x y : Lane) : (s.setLane l x).setLane l y = s.setLane l y := by cases l <;> rfl

theorem State.modLane_of_eq {s : State} {l : LaneId} {f : Lane → Lane} (h : f (s.lane l) = s.lane l) : s.modLane l f = s := by
  rw [State.modLane, h, State.setLane_self]

theorem State.modLane_setLane (s : State) (l : LaneId) (x : Lane) (f : Lane → Lane) : (s.setLane l x).modLane l f = s.setLane l (f x) := by
  rw [State.modLane, State.lane_setLane, State.setLane_setLane]

theorem Lane.taskOf_modTask_getD (x : Lane) (n : Nat) (f : TaskRun → TaskRun) (hf : ∀ k, (f k).tnum = k.tnum) :
    (x.modTask n f).taskOf n = some (f ((x.taskOf n).getD (taskNew n))) := by
  cases h : x.taskOf n with
  | some k => exact Lane.taskOf_modTask f h (hf k)
  | none =>
    have h' : x.tasks.find? (fun k => k.tnum == n) = none := h
    rw [Lane.modTask, h, if_neg (by decide)]
    show (x.tasks ++ [f (taskNew n)]).find? (fun k => k.tnum == n) = _
    rw [List.find?_append, h', Option.none_or, List.find?_singleton, show ((f (taskNew n)).tnum == n) = true from beq_iff_eq.2 (hf _)]
    rfl

theorem two_le_length_of_mem {α : Type} {xs : List α} {x y : α} (hx : x ∈ xs) (hy : y ∈ xs) (hne : y ≠ x) : 2 ≤ xs.length := by
  match xs with
  | [] => exact absurd hx (by simp)
  | [z] => exact absurd ((List.mem_singleton.1 hy).trans (List.mem_singleton.1 hx).symm) hne
  | _ :: _ :: _ => exact Nat.le_add_left _ _

/-! ### The links at a catch (R160, R161) -/

section Links
variable {s : State} (hup : ∀ k, (s.lane k).linkUp 0 = true ∧ (s.lane k).linkUp 1 = true)
include hup

theorem State.linkDown_of_up (x : LaneId) : s.linkDown x = false := by
  rw [State.linkDown, (hup x).1, (hup x.succ).2]
  rfl

theorem State.linkStay_of_up (set : List LaneId) : s.linkStay set = set := by
  have hdown : s.downLinks = [] := List.filter_eq_nil_iff.2 fun x _ => by rw [State.linkDown_of_up hup]; decide
  unfold State.linkStay
  split
  · rw [State.linkDown_of_up hup, if_neg (by decide)]
  · rw [hdown]
  · rfl

end Links

theorem Lane.taskOf_congr {x y : Lane} (h : x.tasks = y.tasks) (n : Nat) : x.taskOf n = y.taskOf n := by rw [Lane.taskOf, h, Lane.taskOf]

theorem Lane.link_eff {x : Lane} (h0 : x.xl0.eff = true) (h1 : x.xl1.eff = true) (k : Nat) : (x.link k).eff = true := by
  unfold Lane.link
  split
  · exact h0
  · exact h1

theorem Lane.takeLinks_eq (x : Lane) :
    x.takeLinks = { x with xl0 := { x.xl0 with eff := x.linkUp 0 }, xl1 := { x.xl1 with eff := x.linkUp 1 } } := rfl

/-- The lane with the states of its links taken over; it knows of no lane gone. -/
def Lane.linksTaken (x : Lane) : Lane := { x.takeLinks with gone := [] }

theorem Lane.staying_of_none_gone {x : Lane} (h : x.gone = []) : x.staying = x.inset := by
  rw [Lane.staying, h]
  exact List.filter_eq_self.2 fun _ _ => rfl

/-- With every link up a voter of two takes its links over and stays. -/
theorem State.linkCatch_of_up {s : State} {l y : LaneId} (hup : ∀ k, (s.lane k).linkUp 0 = true ∧ (s.lane k).linkUp 1 = true)
    (hv : (s.lane l).inVote = true) (hg : (s.lane l).gone = []) (hl : l ∈ (s.lane l).inset) (hy : y ∈ (s.lane l).inset) (hne : y ≠ l) (due : Nat) :
    s.linkCatch l due = s.setLane l (s.lane l).linksTaken := by
  have hlane : (s.modLane l (·.takeLinks)).lane l = (s.lane l).takeLinks := s.lane_modLane l _
  have hstay : ((s.lane l).takeLinks).staying = (s.lane l).inset := Lane.staying_of_none_gone (x := (s.lane l).takeLinks) hg
  have hups : ∀ k, ((s.modLane l (·.takeLinks)).lane k).linkUp 0 = true ∧ ((s.modLane l (·.takeLinks)).lane k).linkUp 1 = true := by
    intro k
    by_cases hk : k = l
    · rw [hk, hlane]; exact hup l
    · rw [s.lane_modLane_ne _ hk]; exact hup k
  have hlen : ¬ (s.lane l).inset.length < 2 := Nat.not_lt.2 (two_le_length_of_mem hl hy hne)
  have hin : (s.lane l).inset.contains l = true := List.contains_iff_mem.2 hl
  have hout : ((s.lane l).inset.filter fun y => !(s.lane l).inset.contains y) = [] :=
    List.filter_eq_nil_iff.2 fun y hy => by simp [hy]
  unfold State.linkCatch
  extract_lets u x stay out kept all
  have hx : x = (s.lane l).takeLinks := hlane
  have hstays : stay = (s.lane l).inset := by
    show u.linkStay x.staying = _
    rw [State.linkStay_of_up hups, hx, hstay]
  have hall : all = [] := by
    show (x.staying.filter fun y => !stay.contains y).map (fun y => (y, leaveLink)) ++ x.gone.filter _ = []
    rw [hstays, hx, hstay, hout, show ((s.lane l).takeLinks).gone = [] from hg]
    rfl
  rw [if_neg (by rw [hx, show ((s.lane l).takeLinks).inVote = true from hv]; decide), if_neg (by rw [hstays]; exact hlen),
    if_neg (by rw [hstays, hin]; decide), hall, hx]
  show (s.modLane l (·.takeLinks)).setLane l (s.lane l).linksTaken.dropGone = _
  rw [State.modLane, State.setLane_setLane, Lane.dropGone, if_neg]
  rw [Lane.staying_of_none_gone (x := (s.lane l).linksTaken) rfl, bne_self_eq_false, Bool.and_false]
  decide

/-! ### The stroke's own events (R42, R51) -/

/-- The lane at a stroke catch: the stroke numbered, the requests of the last stroke frozen. -/
def Lane.numbered (x : Lane) (tn : Nat) : Lane :=
  let y := x.setRg TMR_STROKE_NO (x.stroke + 1)
  { y with fol := { y.fol with tn := tn, peerOff := [] }, prog := { y.prog with asks := [], asked := y.prog.asks } }

theorem State.strokeCatch_of_plain {s : State} {l : LaneId} (hw : (s.lane l).readm.who = none) (hm : (s.lane l).prog.modeNext = none)
    (hc : (s.lane l).prog.chg.stage = .none) (hy : (s.lane l).yieldNext = false) (tn : Nat) :
    s.strokeCatch l tn = s.setLane l ((s.lane l).numbered tn) := by
  have hdonor : (s.setLane l ((s.lane l).numbered tn)).donorCatch l = s.setLane l ((s.lane l).numbered tn) := by
    unfold State.donorCatch
    rw [State.lane_setLane]
    simp only [show ((s.lane l).numbered tn).readm.who = none from hw]
  have hmode : (s.setLane l ((s.lane l).numbered tn)).modLane l (·.modeAtCatch) = s.setLane l ((s.lane l).numbered tn) := by
    refine State.modLane_of_eq ?_
    rw [State.lane_setLane, Lane.modeAtCatch]
    simp only [show ((s.lane l).numbered tn).prog.modeNext = none from hm]
  have hchange : (s.setLane l ((s.lane l).numbered tn)).changeCatch l tn = s.setLane l ((s.lane l).numbered tn) := by
    unfold State.changeCatch
    rw [State.lane_setLane]
    exact if_pos hc
  show (let u := ((((s.setLane l ((s.lane l).numbered tn)).donorCatch l).modLane l (·.modeAtCatch)).changeCatch l tn)
    if (u.lane l).yieldNext then (u.setLane l { u.lane l with yieldNext := false, standby := true, yielded := true, cmpRun := 0 }).hubYields else u) = _
  rw [hdonor, hmode, hchange]
  refine if_neg ?_
  rw [State.lane_setLane, show ((s.lane l).numbered tn).yieldNext = false from hy]
  decide

theorem Lane.startConns_frame (x : Lane) (c : Nat) : ∃ cs, x.startConns c = { x with conns := cs } := by
  unfold Lane.startConns
  generalize x.connsOf c = ks
  induction ks generalizing x with
  | nil => exact ⟨x.conns, rfl⟩
  | cons k ks ih =>
    obtain ⟨cs, h⟩ := ih (x.modConn k fun cn => Conn.start (x.desc k) cn)
    exact ⟨cs, by rw [List.foldl_cons, h]; rfl⟩

/-! ### The frame of a catch (R51 to R54) -/

/-- What a lane makes of the telegrams before a catch. -/
def Lane.frozenBox (x : Lane) (task tn : Nat) (box : Mailbox) : Frozen :=
  box.inTlg.foldl (Frozen.check (x.ctxOf task) tn) { lane := x, ok := [], rest := [] }

/-- The commands a lane lists at a catch of the stroke. -/
def Lane.listedCmds (x : Lane) (task tn : Nat) (box : Mailbox) : List CmdDesc := if task = 0 then newCmds box.cmds x.prog.cmdSeq tn else []

/-- The telegrams a lane lists. -/
def Lane.listedTlgs (x : Lane) (task tn : Nat) (box : Mailbox) : List (ConsEntry × InTlg) :=
  listing (1024 - (x.listedCmds task tn box).length) (x.frozenBox task tn box).ok

/-- The lane with its inputs noted, and its consensus frame. -/
def Lane.inputsNoted (x : Lane) (task tn : Nat) (box : Mailbox) : Lane :=
  (x.frozenBox task tn box).lane.noteUnproven ((x.frozenBox task tn box).lane.fieldImage tn) tn

def Lane.catchFrame (x : Lane) (task tn : Nat) (box : Mailbox) : ConsFrame :=
  let y := x.inputsNoted task tn box
  { stroke := y.stroke, tn := tn, sendTime := y.fol.time, holdover := y.on TMR_STAT_HOLDOVER, inVote := y.inVote,
    img := (x.frozenBox task tn box).lane.fieldImage tn,
    entries := (x.listedTlgs task tn box).map (·.1) ++ sortBy entryOrd ((x.listedCmds task tn box).map cmdEntry) }

/-- The lane with its commands listed and its compute called for. -/
def Lane.called (x : Lane) (task tn : Nat) (box : Mailbox) : Lane :=
  let y := x.inputsNoted task tn box
  (if task = 0 then { y with prog := { y.prog with cmdPend := x.listedCmds task tn box } } else y).raise 1

/-- The cycle of a task as its catch begins it. -/
def Lane.caughtTask (x : Lane) (task tn : Nat) (box : Mailbox) (k : TaskRun) : TaskRun :=
  { k with active := true, tn := tn, own := some (x.catchFrame task tn box), peers := k.peers.filter (fun e => e.2.tn == tn),
           frozen := x.listedTlgs task tn box, admitted := [], toFetch := [], decided := false, excepted := false, broke := false, ready := false,
           begun := false, mode := (x.called task tn box).prog.mode, view := (x.called task tn box).viewFor task,
           shadow := (x.called task tn box).shadow }

def Lane.caught (x : Lane) (task tn : Nat) (box : Mailbox) : Lane := (x.called task tn box).modTask task (x.caughtTask task tn box)

theorem State.freeze_eq (s : State) (l : LaneId) (task tn : Nat) : s.freeze l task tn =
    ((s.setLane l ((s.lane l).caught task tn (s.hub.mbx l))).flushNotes l).modHub (·.modMbx l fun m =>
      { m with inTlg := ((s.lane l).frozenBox task tn (s.hub.mbx l)).rest, pubTime := ((s.lane l).caught task tn (s.hub.mbx l)).fol.time }) := rfl

/-- Telegrams checked at a catch change the counts of their connections and what the lane hands to the recorder. -/
theorem Frozen.check_frame (c tn : Nat) (a : Frozen) (g : InTlg) : ∃ cs ns, (a.check c tn g).lane = { a.lane with conns := cs, notes := ns } := by
  have hcount (k : Nat) (v : TlgVerdict) : ∃ cs ns, a.lane.countTlg k v = { a.lane with conns := cs, notes := ns } := by
    unfold Lane.countTlg
    extract_lets y
    split
    · exact ⟨_, _, rfl⟩
    · exact ⟨_, _, rfl⟩
  unfold Frozen.check
  split
  · split
    · exact ⟨_, _, rfl⟩
    · split
      · split
        · extract_lets e
          split <;> exact ⟨_, _, rfl⟩
        · exact ⟨_, _, rfl⟩
      · exact hcount _ _
  · split <;> exact ⟨_, _, rfl⟩

theorem Lane.frozenBox_frame (x : Lane) (task tn : Nat) (box : Mailbox) :
    ∃ cs ns, (x.frozenBox task tn box).lane = { x with conns := cs, notes := ns } := by
  suffices h : ∀ (gs : List InTlg) (a : Frozen), ∃ cs ns, (gs.foldl (Frozen.check (x.ctxOf task) tn) a).lane = { a.lane with conns := cs, notes := ns } from
    h _ _
  intro gs a
  induction gs generalizing a with
  | nil => exact ⟨_, _, rfl⟩
  | cons g gs ih =>
    obtain ⟨cs, ns, h⟩ := Frozen.check_frame (x.ctxOf task) tn a g
    obtain ⟨cs', ns', h'⟩ := ih (a.check (x.ctxOf task) tn g)
    exact ⟨cs', ns', by rw [List.foldl_cons, h', h]⟩

theorem Lane.inputsNoted_frame (x : Lane) (task tn : Nat) (box : Mailbox) :
    ∃ cs ns us, x.inputsNoted task tn box = { x with conns := cs, notes := ns, fld := { x.fld with lastUnp := us } } := by
  obtain ⟨cs, ns, h⟩ := x.frozenBox_frame task tn box
  unfold Lane.inputsNoted
  generalize (x.frozenBox task tn box).lane.fieldImage tn = img
  rw [h]
  exact ⟨cs, ns, _, rfl⟩

theorem Lane.called_frame (x : Lane) (task tn : Nat) (box : Mailbox) :
    ∃ cs ns us cmds, x.called task tn box =
      { x.raise 1 with conns := cs, notes := ns, fld := { x.fld with lastUnp := us }, prog := { x.prog with cmdPend := cmds } } := by
  obtain ⟨cs, ns, us, h⟩ := x.inputsNoted_frame task tn box
  unfold Lane.called
  rw [h]
  dsimp only
  split
  · exact ⟨cs, ns, us, _, rfl⟩
  · exact ⟨cs, ns, us, x.prog.cmdPend, rfl⟩

/-- What a catch changes of a lane besides the task's cycle. -/
theorem Lane.caught_frame (x : Lane) (task tn : Nat) (box : Mailbox) :
    ∃ cs ns us cmds ks, x.caught task tn box =
      { x.raise 1 with conns := cs, notes := ns, fld := { x.fld with lastUnp := us }, prog := { x.prog with cmdPend := cmds }, tasks := ks } := by
  obtain ⟨cs, ns, us, cmds, h⟩ := x.called_frame task tn box
  unfold Lane.caught
  rw [Lane.modTask_frame, h]
  exact ⟨cs, ns, us, cmds, _, rfl⟩

theorem Lane.catchFrame_spec (x : Lane) (task tn : Nat) (box : Mailbox) :
    (x.catchFrame task tn box).stroke = x.stroke ∧ (x.catchFrame task tn box).tn = tn ∧ (x.catchFrame task tn box).inVote = x.inVote ∧
      (x.catchFrame task tn box).holdover = x.on TMR_STAT_HOLDOVER := by
  obtain ⟨cs, ns, us, h⟩ := x.inputsNoted_frame task tn box
  have hreg : (x.inputsNoted task tn box).reg = x.reg := by rw [h]
  refine ⟨?_, rfl, ?_, ?_⟩
  · show (x.inputsNoted task tn box).stroke = x.stroke
    rw [Lane.stroke, Lane.rg, hreg]
    rfl
  · show (x.inputsNoted task tn box).inVote = x.inVote
    rw [Lane.inVote, Lane.on_of_reg_eq hreg, Lane.inVote]
  · exact Lane.on_of_reg_eq hreg _

/-- The lane as a catch leaves it, its submissions handed on. -/
def Lane.caughtOn (x : Lane) (task tn : Nat) (box : Mailbox) : Lane := { x.caught task tn box with notes := [] }

theorem State.freeze_lane (s : State) (l : LaneId) (task tn : Nat) : (s.freeze l task tn).lane l = (s.lane l).caughtOn task tn (s.hub.mbx l) := by
  rw [State.freeze_eq, State.modHub_lane, State.flushNotes_lane, State.lane_setLane]
  rfl

theorem State.freeze_lane_ne (s : State) {l z : LaneId} (h : z ≠ l) (task tn : Nat) : (s.freeze l task tn).lane z = s.lane z := by
  rw [State.freeze_eq, State.modHub_lane, (State.onlyLane_flushNotes _ l).1 z h, State.lane_setLane_ne _ _ h]

theorem State.OnlyLane.freeze {s t : State} {l : LaneId} (h : s.OnlyLane t l) (task tn : Nat) : s.OnlyLaneAndMbx (t.freeze l task tn) l := by
  rw [State.freeze_eq]
  exact ((h.trans (State.onlyLane_setLane _ l _)).trans (State.onlyLane_flushNotes _ l)).boxed fun _ => rfl

section Caught
variable (x : Lane) (task tn : Nat) (box : Mailbox)

theorem Lane.caughtOn_frame : ∃ cs us cmds ks, x.caughtOn task tn box =
    { x.raise 1 with conns := cs, notes := [], fld := { x.fld with lastUnp := us }, prog := { x.prog with cmdPend := cmds }, tasks := ks } := by
  obtain ⟨cs, ns, us, cmds, ks, h⟩ := x.caught_frame task tn box
  exact ⟨cs, us, cmds, ks, by rw [Lane.caughtOn, h]⟩

theorem Lane.caughtOn_rg {a : Nat} (h : a ≠ LCTL_IRQ_PEND) : (x.caughtOn task tn box).rg a = x.rg a := by
  obtain ⟨cs, us, cmds, ks, hf⟩ := x.caughtOn_frame task tn box
  have hreg : (x.caughtOn task tn box).reg = (x.raise 1).reg := by rw [hf]
  rw [Lane.rg, hreg]
  exact Lane.rg_setRg_ne _ _ h

theorem Lane.caughtOn_fget {f : Fld} (h : f.addr ≠ LCTL_IRQ_PEND) : (x.caughtOn task tn box).fget f = x.fget f := by
  rw [Lane.fget, x.caughtOn_rg task tn box h, Lane.fget]

theorem Lane.caughtOn_taskOf : (x.caughtOn task tn box).taskOf task = some (x.caughtTask task tn box ((x.taskOf task).getD (taskNew task))) := by
  obtain ⟨cs, ns, us, cmds, h⟩ := x.called_frame task tn box
  have htasks : (x.called task tn box).taskOf task = x.taskOf task := by rw [h]; rfl
  show ((x.called task tn box).modTask task (x.caughtTask task tn box)).taskOf task = _
  rw [Lane.taskOf_modTask_getD _ _ (x.caughtTask task tn box) fun _ => rfl, htasks]

end Caught

/-- With a voter's frame still to come a catch decides nothing. -/
theorem State.tryDecide_freeze {s : State} {l y : LaneId} {task tn : Nat} (hid : (s.lane l).id = l) (hs : (s.lane l).shadow = false)
    (hy : y ∈ (s.lane l).inset) (hne : y ≠ l) (hup : ((s.lane l).link ((s.lane l).linkTo y)).eff = true)
    (hn : ∀ k, (s.lane l).taskOf task = some k → ∀ e ∈ k.peers, e.1 = y → e.2.tn ≠ tn) :
    (s.freeze l task tn).tryDecide l task = s.freeze l task tn := by
  have hframe := (s.lane l).caughtOn_frame task tn (s.hub.mbx l)
  have hset : ((s.lane l).caughtOn task tn (s.hub.mbx l)).fget VOTE_STAT_INSET = (s.lane l).fget VOTE_STAT_INSET := Lane.caughtOn_fget _ _ _ _ (by decide)
  have hmode : ((s.lane l).caughtOn task tn (s.hub.mbx l)).fget VOTE_STAT_MODE = (s.lane l).fget VOTE_STAT_MODE := Lane.caughtOn_fget _ _ _ _ (by decide)
  have hlane := s.freeze_lane l task tn
  have htask := (s.lane l).caughtOn_taskOf task tn (s.hub.mbx l)
  generalize (s.lane l).caughtOn task tn (s.hub.mbx l) = z at hframe hset hmode hlane htask
  obtain ⟨cs, us, cmds, ks, hz⟩ := hframe
  refine State.tryDecide_of_awaited (y := y) (by rw [hlane]; exact htask) ?_ fun e he hey => ?_
  · rw [hlane]
    refine Lane.mem_awaits_of_voter _ ?_ ?_ ?_ ?_
    · rw [Lane.shadow, Lane.mode, hmode]
      exact hs
    · rw [Lane.inset, show z.holds = (s.lane l).holds from funext fun p => by rw [Lane.holds, hset, Lane.holds]]
      exact hy
    · rw [hz]
      exact hid.symm ▸ hne
    · rw [hz]
      exact hup
  · have he' := List.mem_filter.1 (show e ∈ ((((s.lane l).taskOf task).getD (taskNew task)).peers.filter fun e => e.2.tn == tn) from he)
    cases hk : (s.lane l).taskOf task with
    | none =>
      rw [hk] at he'
      exact absurd he'.1 (by simp [taskNew])
    | some k =>
      rw [hk] at he'
      exact absurd (eq_of_beq he'.2) (hn k hk e he'.1 hey)

/-- With nothing to finish at an instant nothing is finished (R213). -/
theorem State.finishesAt_of_none {s : State} {l : LaneId} {tn : Nat}
    (h : ∀ k ∈ (s.lane l).tasks, k.active = true → k.tn + (s.lane l).dOf k.tnum + voteWindow k.tnum ≠ tn) : s.finishesAt l tn = s := by
  have hnone : ((s.lane l).tasks.filter fun k => k.active && k.tn + (s.lane l).dOf k.tnum + voteWindow k.tnum == tn) = [] :=
    List.filter_eq_nil_iff.2 fun k hk hc => by
      obtain ⟨ha, ht⟩ := Bool.and_eq_true_iff.1 hc
      exact h k hk ha (eq_of_beq ht)
  unfold State.finishesAt
  simp only [hnone, List.foldl_nil]

theorem State.changeSwitch_of_none {s : State} {l : LaneId} (h : (s.lane l).prog.chg.stage = .none) (t : Nat) : s.changeSwitch l t = s := by
  have hdue : (s.lane l).switchDue = false := by
    unfold Lane.switchDue
    split
    · rw [h]; simp
    · rfl
  unfold State.changeSwitch
  dsimp only
  split
  · rw [if_pos (by rw [hdue]; simp)]
  · rfl

theorem State.readmCatch_of_none {s : State} {l : LaneId} (h : (s.lane l).fget VOTE_READM_RSTEP = 0) : s.readmCatch l = s := by
  unfold State.readmCatch
  simp [h]

/-- The lane before a catch that nothing goes before: its time moved on. -/
def Lane.waked (x : Lane) (tn : Nat) : Lane := { x.at tn with idle := false }

/-- What a catch of a voter comes to before its own events, when no finish, switch or readmission goes before it. -/
theorem State.catchTask_of_voter {s : State} {l : LaneId} {task tn : Nat} (hl : (s.lane l).rst.held = false) (he : (s.lane l).easy = false)
    (hr : (s.lane l).sitReady = false) (hv : (s.lane l).inVote = true) (hc : (s.lane l).prog.chg.stage = .none)
    (hfin : ∀ k ∈ (s.lane l).tasks, k.active = true → k.tn + (s.lane l).dOf k.tnum + voteWindow k.tnum ≠ tn)
    (hstep : task = 0 → (s.lane l).fget VOTE_READM_RSTEP = 0) :
    (s.laneAt l tn).catchTask l task tn =
      (let u := (s.laneAt l tn).setLane l ((s.lane l).waked tn)
       if !(s.lane l).catchDue task tn then u
       else
         let v := if task = 0 then u.linkCatch l (tn + tenMicros) else u.modLane l (·.dropGone)
         if !((v.lane l).inVote || (v.lane l).shadow) then v
         else
           (((if task = 0 then v.strokeCatch l tn else v).modLane l (·.startConns ((v.lane l).ctxOf task))).freeze l task tn).tryDecide l task) := by
  have hlane : (s.laneAt l tn).lane l = (s.lane l).at tn := s.lane_laneAt l tn
  have h1 : (s.laneAt l tn).finishesAt l tn = s.laneAt l tn := State.finishesAt_of_none (by rw [hlane]; exact hfin)
  have h2 (t : Nat) : (s.laneAt l tn).changeSwitch l t = s.laneAt l tn := State.changeSwitch_of_none (by rw [hlane]; exact hc) t
  have h3 : (s.laneAt l tn).modLane l (fun y => { y with idle := false }) = (s.laneAt l tn).setLane l ((s.lane l).waked tn) := by
    rw [State.modLane, hlane]
    rfl
  generalize hu : (s.laneAt l tn).setLane l ((s.lane l).waked tn) = u at h3
  have hul : u.lane l = (s.lane l).waked tn := by rw [← hu, State.lane_setLane]
  have h4 : (if task = 0 ∧ tn % (u.lane l).period = 0 ∧ (u.lane l).fol.tn < tn then u.readmCatch l else u) = u := by
    split
    · next h => exact State.readmCatch_of_none (by rw [hul]; exact hstep h.1)
    · rfl
  have h5 : (u.modLane l fun y => if y.inVote || y.shadow || task != 0 then y else { y with fol := { y.fol with tn := max y.fol.tn tn } }) = u := by
    refine State.modLane_of_eq ?_
    rw [hul, if_pos]
    rw [show ((s.lane l).waked tn).inVote = true from hv]
    rfl
  unfold State.catchTask
  dsimp only
  rw [if_neg (by rw [hlane, show ((s.lane l).at tn).rst.held = false from hl, show ((s.lane l).at tn).easy = false from he]; decide),
    if_neg (by rw [hlane, show ((s.lane l).at tn).sitReady = false from hr]; decide), h1, h2, h3, h4, h5, hul,
    show ((s.lane l).waked tn).catchDue task tn = (s.lane l).catchDue task tn from rfl, show ((s.lane l).waked tn).inVote = true from hv,
    Bool.true_or, Bool.not_true, Bool.false_or]

@[simp] theorem Lane.waked_reg (x : Lane) (tn : Nat) : (x.waked tn).reg = x.reg := rfl

theorem Lane.linksTaken_reg (x : Lane) : x.linksTaken.reg = x.reg := by rw [Lane.linksTaken, Lane.takeLinks_eq]

theorem Lane.inVote_of_reg_eq {x y : Lane} (h : x.reg = y.reg) : x.inVote = y.inVote := Lane.on_of_reg_eq h _

/-- The lane before its frame at a stroke catch. -/
def Lane.strokeBegun (x : Lane) (tn : Nat) : Lane := ((x.linksTaken).numbered tn).startConns 0

theorem Lane.strokeBegun_frame (x : Lane) (tn : Nat) : ∃ cs, x.strokeBegun tn =
    { x.setRg TMR_STROKE_NO (x.stroke + 1) with
      xl0 := { x.xl0 with eff := x.linkUp 0 }, xl1 := { x.xl1 with eff := x.linkUp 1 }, gone := [], fol := { x.fol with tn := tn, peerOff := [] },
      prog := { x.prog with asks := [], asked := x.prog.asks }, conns := cs } := by
  obtain ⟨cs, h⟩ := ((x.linksTaken).numbered tn).startConns_frame 0
  refine ⟨cs, h.trans ?_⟩
  rw [Lane.linksTaken, Lane.takeLinks_eq]
  rfl

theorem Lane.strokeBegun_reg (x : Lane) (tn : Nat) : (x.strokeBegun tn).reg = (x.setRg TMR_STROKE_NO (x.stroke + 1)).reg := by
  obtain ⟨cs, h⟩ := x.strokeBegun_frame tn
  rw [h]

theorem Lane.strokeBegun_rg (x : Lane) (tn : Nat) {a : Nat} (ha : a ≠ TMR_STROKE_NO) : (x.strokeBegun tn).rg a = x.rg a := by
  rw [Lane.rg, x.strokeBegun_reg tn]
  exact Lane.rg_setRg_ne _ _ ha

theorem Lane.strokeBegun_fget (x : Lane) (tn : Nat) {f : Fld} (h : f.addr ≠ TMR_STROKE_NO) : (x.strokeBegun tn).fget f = x.fget f := by
  rw [Lane.fget, x.strokeBegun_rg tn h, Lane.fget]

theorem Lane.strokeBegun_stroke (x : Lane) (tn : Nat) : (x.strokeBegun tn).stroke = x.stroke + 1 := by
  rw [Lane.stroke, Lane.rg, x.strokeBegun_reg tn]
  exact Lane.rg_setRg_same _ _ _

/-- A stroke catch of a voter of two whose links are up: its own events, and its frame. -/
theorem State.caughtStroke {s : State} {l y : LaneId} (hid : (s.lane l).id = l) (hv : (s.lane l).inVote = true) (hs : (s.lane l).shadow = false)
    (hw : (s.lane l).readm.who = none) (hg : (s.lane l).gone = []) (hm : (s.lane l).prog.modeNext = none) (hc : (s.lane l).prog.chg.stage = .none)
    (hyn : (s.lane l).yieldNext = false) (hup : ∀ k, (s.lane k).linkUp 0 = true ∧ (s.lane k).linkUp 1 = true) (hl : l ∈ (s.lane l).inset)
    (hy : y ∈ (s.lane l).inset) (hne : y ≠ l) {tn : Nat} (hpeers : ∀ k, (s.lane l).taskOf 0 = some k → ∀ e ∈ k.peers, e.1 = y → e.2.tn ≠ tn)
    (due : Nat) :
    s.linkCatch l due = s.setLane l (s.lane l).linksTaken ∧
      ((((s.setLane l (s.lane l).linksTaken).strokeCatch l tn).modLane l (·.startConns 0)).freeze l 0 tn).tryDecide l 0 =
        (s.setLane l ((s.lane l).strokeBegun tn)).freeze l 0 tn := by
  refine ⟨State.linkCatch_of_up hup hv hg hl hy hne due, ?_⟩
  have hstroke : (s.setLane l (s.lane l).linksTaken).strokeCatch l tn = s.setLane l (((s.lane l).linksTaken).numbered tn) := by
    rw [State.strokeCatch_of_plain (by rw [State.lane_setLane]; exact hw) (by rw [State.lane_setLane]; exact hm)
      (by rw [State.lane_setLane]; exact hc) (by rw [State.lane_setLane]; exact hyn), State.lane_setLane, State.setLane_setLane]
  rw [hstroke, State.modLane_setLane]
  obtain ⟨cs, hframe⟩ := (s.lane l).strokeBegun_frame tn
  have hset : ((s.lane l).strokeBegun tn).fget VOTE_STAT_INSET = (s.lane l).fget VOTE_STAT_INSET := Lane.strokeBegun_fget _ _ (by decide)
  have hmode : ((s.lane l).strokeBegun tn).fget VOTE_STAT_MODE = (s.lane l).fget VOTE_STAT_MODE := Lane.strokeBegun_fget _ _ (by decide)
  show ((s.setLane l ((s.lane l).strokeBegun tn)).freeze l 0 tn).tryDecide l 0 = _
  generalize (s.lane l).strokeBegun tn = z at hframe hset hmode ⊢
  refine State.tryDecide_freeze (y := y) ?_ ?_ ?_ hne ?_ ?_
  all_goals rw [State.lane_setLane]
  · rw [hframe]
    exact hid
  · rw [Lane.shadow, Lane.mode, hmode]
    exact hs
  · rw [Lane.inset, show z.holds = (s.lane l).holds from funext fun p => by rw [Lane.holds, hset, Lane.holds]]
    exact hy
  · have h0 : z.xl0.eff = true := by rw [hframe]; exact (hup l).1
    have h1 : z.xl1.eff = true := by rw [hframe]; exact (hup l).2
    exact Lane.link_eff h0 h1 _
  · rw [show z.taskOf 0 = (s.lane l).taskOf 0 from Lane.taskOf_congr (by rw [hframe]; rfl) 0]
    exact hpeers

/-! ### The first catch (R46, R47) -/

theorem Lane.inset_of_mask {x : Lane} {f : LaneId → Bool} (h : x.fget VOTE_STAT_INSET = laneMask (allLanes.filter f)) :
    x.inset = allLanes.filter f := by
  have hbits : ∀ a b c : Bool, ∀ p : LaneId, ((laneMask ((if a then [LaneId.a] else []) ++ (if b then [LaneId.b] else []) ++
      (if c then [LaneId.c] else [])) >>> p.idx) % 2 == 1) = match p with | .a => a | .b => b | .c => c := by
    intro a b c p
    revert a b c
    cases p <;> decide
  have hlist : allLanes.filter f = (if f .a then [LaneId.a] else []) ++ (if f .b then [LaneId.b] else []) ++ (if f .c then [LaneId.c] else []) := by
    simp only [allLanes, List.filter_cons, List.filter_nil]
    split <;> split <;> split <;> rfl
  refine List.filter_congr fun p _ => ?_
  rw [Lane.holds, h, hlist, hbits]
  cases p <;> rfl

/-- The registers of a lane that joins a set at the first catch. -/
def Lane.joined (x : Lane) (set : List LaneId) : Lane :=
  (((x.fset VOTE_STAT_INVOTE 1).fset TMR_STAT_RUNNING 1).fset VOTE_STAT_INSET (laneMask set)).fset VOTE_STAT_MODE
    (if set.length = 3 then mode2oo3 else mode2oo2)

/-- The lane as the first catch makes it a voter with the lanes it has paired with. -/
def Lane.firstVoter (x : Lane) (set : List LaneId) : Lane := { x.joined set with gone := [] }

theorem Lane.firstVoter_reg (x : Lane) (set : List LaneId) : (x.firstVoter set).reg = (x.joined set).reg := by
  dsimp only [Lane.firstVoter]

/-- A lane that was not paired at the first catch (R47). -/
def Lane.leftOut (x : Lane) : Lane := if x.up && x.sitReady then (x.fset VOTE_STAT_MODE modeOut).fset TMR_STAT_RUNNING 1 else x

section FirstVoter
variable (x : Lane) (f : LaneId → Bool)

theorem Lane.firstVoter_regsKept (set : List LaneId) : x.RegsKept (x.firstVoter set) [VOTE_STAT, TMR_STAT] :=
  Lane.RegsKept.trans ((((x.regsKept_fset (f := VOTE_STAT_INVOTE) 1 (by decide)).trans (Lane.regsKept_fset _ (f := TMR_STAT_RUNNING) 1 (by decide))).trans
    (Lane.regsKept_fset _ (f := VOTE_STAT_INSET) (laneMask set) (by decide))).trans
    (Lane.regsKept_fset _ (f := VOTE_STAT_MODE) (if set.length = 3 then mode2oo3 else mode2oo2) (by decide)))
    (Lane.regsKept_of_reg_eq (x := x.joined set) (x.firstVoter_reg set) _)

theorem Lane.firstVoter_inVote (set : List LaneId) : (x.firstVoter set).inVote = true := by
  rw [Lane.inVote, Lane.on, Lane.fget_of_reg_eq (x.firstVoter_reg set), Lane.joined, Lane.fget_fset_bits _ _ (by decide) (by decide) (by decide),
    Lane.fget_fset_bits _ _ (by decide) (by decide) (by decide), Lane.fget_fset_addr _ _ (by decide), Lane.fget_fset_same _ _ _ (by decide)]
  rfl

theorem Lane.firstVoter_running (set : List LaneId) : (x.firstVoter set).on TMR_STAT_RUNNING = true := by
  rw [Lane.on, Lane.fget_of_reg_eq (x.firstVoter_reg set), Lane.joined, Lane.fget_fset_addr _ _ (by decide), Lane.fget_fset_addr _ _ (by decide),
    Lane.fget_fset_same _ _ _ (by decide)]
  rfl

theorem Lane.firstVoter_mode (set : List LaneId) : (x.firstVoter set).mode = if set.length = 3 then mode2oo3 else mode2oo2 := by
  rw [Lane.mode, Lane.fget_of_reg_eq (x.firstVoter_reg set), Lane.joined, Lane.fget_fset_same _ _ _ (by decide)]
  split <;> rfl

theorem laneMask_lt (set : List LaneId) : laneMask set < 8 := by
  have hb (b : Bool) : b2n b ≤ 1 := by cases b <;> decide
  have ha := hb (set.contains .a)
  have hb' := hb (set.contains .b)
  have hc := hb (set.contains .c)
  rw [laneMask]
  omega

theorem Lane.firstVoter_mask (set : List LaneId) : (x.firstVoter set).fget VOTE_STAT_INSET = laneMask set := by
  rw [Lane.fget_of_reg_eq (x.firstVoter_reg _), Lane.joined, Lane.fget_fset_bits _ _ (by decide) (by decide) (by decide),
    Lane.fget_fset_same _ _ _ (by decide)]
  exact Nat.mod_eq_of_lt (laneMask_lt _)

theorem Lane.firstVoter_inset : (x.firstVoter (allLanes.filter f)).inset = allLanes.filter f := Lane.inset_of_mask (x.firstVoter_mask _)

end FirstVoter

theorem Lane.leftOut_regsKept (x : Lane) : x.RegsKept x.leftOut [VOTE_STAT, TMR_STAT] := by
  unfold Lane.leftOut
  split
  · exact (x.regsKept_fset (f := VOTE_STAT_MODE) _ (by decide)).trans (Lane.regsKept_fset _ (f := TMR_STAT_RUNNING) 1 (by decide))
  · exact .refl x _

theorem Lane.leftOut_mode {x : Lane} (hl : x.rst.held = false) (hr : x.sitReady = true) : x.leftOut.mode = 3 := by
  rw [Lane.leftOut, if_pos (by rw [Lane.up, hl, hr]; rfl), Lane.mode, Lane.fget_fset_addr _ _ (by decide),
    Lane.fget_fset_same _ _ _ (by decide)]
  rfl

theorem State.firstCatch_eq (s : State) (l : LaneId) : s.firstCatch l =
    ((s.lane l).id.peers.filter fun z => !(s.lane l).start.paired.contains z).foldl (fun (s : State) z => s.modLane z (·.leftOut))
      ((({ s with phase := .running } : State).setLane l ((s.lane l).firstVoter (allLanes.filter (s.lane l).start.paired.contains))).modHub
        (·.modMbx l fun m => { m with inTlg := [] })) := rfl

/-- Lanes changed one after another by one function. -/
theorem State.foldl_modLane (f : Lane → Lane) (zs : List LaneId) (hn : zs.Nodup) (s : State) :
    (∀ y, (zs.foldl (fun (s : State) z => s.modLane z f) s).lane y = if y ∈ zs then f (s.lane y) else s.lane y) ∧
      (zs.foldl (fun (s : State) z => s.modLane z f) s).hub = s.hub ∧ (zs.foldl (fun (s : State) z => s.modLane z f) s).field = s.field ∧
      (zs.foldl (fun (s : State) z => s.modLane z f) s).phase = s.phase := by
  induction zs generalizing s with
  | nil => exact ⟨fun y => (if_neg List.not_mem_nil).symm, rfl, rfl, rfl⟩
  | cons z zs ih =>
    obtain ⟨hz, hzs⟩ := List.nodup_cons.1 hn
    obtain ⟨hlane, hhub, hfield, hphase⟩ := ih hzs (s.modLane z f)
    refine ⟨fun y => ?_, hhub.trans (s.modLane_hub z f), hfield.trans (s.modLane_field z f), hphase.trans (s.modLane_phase z f)⟩
    rw [List.foldl_cons, hlane]
    by_cases hy : y = z
    · rw [hy, if_neg hz, if_pos List.mem_cons_self, State.lane_modLane]
    · simp only [List.mem_cons, hy, false_or, s.lane_modLane_ne f hy]

/-- The lanes after the first catch of lane `l`. -/
theorem State.firstCatch_spec {s : State} {l : LaneId} (hid : (s.lane l).id = l) :
    (s.firstCatch l).lane l = (s.lane l).firstVoter (allLanes.filter (s.lane l).start.paired.contains) ∧
      (∀ z, z ≠ l → (s.firstCatch l).lane z = if z ∈ (s.lane l).start.paired then s.lane z else (s.lane z).leftOut) ∧
      (s.firstCatch l).phase = .running ∧ (s.firstCatch l).field = s.field ∧ ((s.firstCatch l).hub.mbx l).inTlg = [] := by
  have hpeers : l.peers.Nodup ∧ l ∉ l.peers ∧ ∀ z, z ≠ l → z ∈ l.peers :=
    ⟨by cases l <;> decide, by cases l <;> decide, fun z hz => by cases l <;> cases z <;> revert hz <;> decide⟩
  obtain ⟨hnodup, hnot, hall⟩ := hpeers
  rw [State.firstCatch_eq, hid]
  obtain ⟨hlane, hhub, hfield, hphase⟩ := State.foldl_modLane Lane.leftOut (l.peers.filter fun z => !(s.lane l).start.paired.contains z)
    (hnodup.filter _) ((({ s with phase := .running } : State).setLane l ((s.lane l).firstVoter (allLanes.filter (s.lane l).start.paired.contains))).modHub
        (·.modMbx l fun m => { m with inTlg := [] }))
  refine ⟨?_, fun z hz => ?_, ?_, ?_, ?_⟩
  · rw [hlane, if_neg fun h => hnot (List.mem_filter.1 h).1, State.modHub_lane, State.lane_setLane]
  · rw [hlane, State.modHub_lane, State.lane_setLane_ne _ _ hz]
    have hs : ({ s with phase := .running } : State).lane z = s.lane z := by cases z <;> rfl
    rw [hs]
    by_cases hp : z ∈ (s.lane l).start.paired
    · rw [if_pos hp, if_neg fun h => by simp [hp] at h]
    · rw [if_neg hp, if_pos (List.mem_filter.2 ⟨hall z hz, by simp [hp]⟩)]
  · rw [hphase, State.modHub_phase, State.setLane_phase]
  · rw [hfield, State.modHub_field, State.setLane_field]
  · rw [hhub, State.modHub_hub, Hub.mbx_modMbx]

theorem Lane.linkUp_of_kept {x y : Lane} (h : x.RegsKept y [VOTE_STAT, TMR_STAT]) (k : Nat) : y.linkUp k = x.linkUp k := by
  have hx : (xlUp k).addr = XL_STAT := by rw [xlUp]; split <;> rfl
  exact h.on (by rw [hx]; decide)

/-- What a lane has after a stroke catch. -/
theorem Lane.strokeCaught_spec (x : Lane) (tn : Nat) (box : Mailbox) :
    let z := (x.strokeBegun tn).caughtOn 0 tn box
    z.stroke = x.stroke + 1 ∧ z.fol.tn = tn ∧ (∀ f : Fld, f.addr ≠ LCTL_IRQ_PEND → f.addr ≠ TMR_STROKE_NO → z.fget f = x.fget f) ∧
      z.rg VOTE_STAT = x.rg VOTE_STAT ∧ z.prog.asked = x.prog.asks ∧ z.prog.asks = [] ∧ z.prog.timers = x.prog.timers ∧ z.fld.dyn = x.fld.dyn ∧
      ∃ k f, z.taskOf 0 = some k ∧ k.active = true ∧ k.tn = tn ∧ k.decided = false ∧ k.own = some f ∧
        f.stroke = x.stroke + 1 ∧ f.tn = tn ∧ f.inVote = x.inVote ∧ f.holdover = x.on TMR_STAT_HOLDOVER := by
  obtain ⟨cs, hb⟩ := x.strokeBegun_frame tn
  have hstroke := x.strokeBegun_stroke tn
  have hrg (a : Nat) (h : a ≠ TMR_STROKE_NO) := x.strokeBegun_rg tn h
  have hget (f : Fld) (h : f.addr ≠ TMR_STROKE_NO) := x.strokeBegun_fget tn h
  have htn : (x.strokeBegun tn).fol.tn = tn := by rw [hb]
  have hasked : (x.strokeBegun tn).prog.asked = x.prog.asks := by rw [hb]
  have hasks : (x.strokeBegun tn).prog.asks = [] := by rw [hb]
  have htimers : (x.strokeBegun tn).prog.timers = x.prog.timers := by rw [hb]
  have hdyn : (x.strokeBegun tn).fld.dyn = x.fld.dyn := by rw [hb]; rfl
  generalize x.strokeBegun tn = y at *
  obtain ⟨cs', us, cmds, ks, hc⟩ := y.caughtOn_frame 0 tn box
  obtain ⟨hfs, hft, hfv, hfh⟩ := y.catchFrame_spec 0 tn box
  refine ⟨?_, ?_, fun f h h' => ?_, ?_, ?_, ?_, ?_, ?_, _, _, y.caughtOn_taskOf 0 tn box, rfl, rfl, rfl, rfl, ?_, hft, ?_, ?_⟩
  · rw [Lane.stroke, y.caughtOn_rg 0 tn box (by decide)]
    exact hstroke
  · rw [hc]
    exact htn
  · rw [y.caughtOn_fget 0 tn box h, hget f h']
  · rw [y.caughtOn_rg 0 tn box (by decide), hrg _ (by decide)]
  · rw [hc]
    exact hasked
  · rw [hc]
    exact hasks
  · rw [hc]
    exact htimers
  · rw [hc]
    exact hdyn
  · rw [hfs, hstroke]
  · rw [hfv, Lane.inVote, Lane.on, hget _ (by decide), Lane.inVote, Lane.on]
  · rw [hfh, Lane.on, hget _ (by decide), Lane.on]

/-- A stroke's catch of a voter of two (R39, R42, R51, R53). -/
theorem State.exec_catch_stroke {s : State} {l y : LaneId} {tn : Nat} (hid : (s.lane l).id = l) (hl : (s.lane l).rst.held = false)
    (he : (s.lane l).easy = false) (hr : (s.lane l).sitReady = false) (hv : (s.lane l).inVote = true) (hs : (s.lane l).shadow = false)
    (hstep : (s.lane l).fget VOTE_READM_RSTEP = 0) (hw : (s.lane l).readm.who = none) (hg : (s.lane l).gone = [])
    (hm : (s.lane l).prog.modeNext = none) (hc : (s.lane l).prog.chg.stage = .none) (hyn : (s.lane l).yieldNext = false)
    (hup : ∀ k, (s.lane k).linkUp 0 = true ∧ (s.lane k).linkUp 1 = true) (hin : l ∈ (s.lane l).inset) (hy : y ∈ (s.lane l).inset) (hne : y ≠ l)
    (hpeers : ∀ k, (s.lane l).taskOf 0 = some k → ∀ e ∈ k.peers, e.1 = y → e.2.tn ≠ tn)
    (hfin : ∀ k ∈ (s.lane l).tasks, k.active = true → k.tnum ≠ 0 ∧ k.tn + (s.lane l).dOf k.tnum + voteWindow k.tnum ≠ tn)
    (htn : tn % (s.lane l).period = 0) (hnext : tn = (s.lane l).fol.tn + (s.lane l).period) :
    ∃ box, exec (.catchInputs l 0 tn) s = .next (((s.laneAt l tn).setLane l (((s.lane l).waked tn).strokeBegun tn)).freeze l 0 tn) ∧
      (((s.laneAt l tn).setLane l (((s.lane l).waked tn).strokeBegun tn)).freeze l 0 tn).lane l = (((s.lane l).waked tn).strokeBegun tn).caughtOn 0 tn box := by
  have hdue : (s.lane l).catchDue 0 tn = true := by
    have hidle : ((s.lane l).taskOf 0).any (·.active) = false := by
      cases hk : (s.lane l).taskOf 0 with
      | none => rfl
      | some k =>
        have hmem : k ∈ (s.lane l).tasks := List.mem_of_find?_eq_some hk
        have h0 : k.tnum = 0 := by simpa using List.find?_some hk
        exact Bool.eq_false_iff.2 fun ha => (hfin k hmem ha).1 h0
    rw [Lane.catchDue, if_pos rfl, htn, hidle, hnext]
    simp
  obtain ⟨hlink, hrest⟩ := State.caughtStroke (s := (s.laneAt l tn).setLane l ((s.lane l).waked tn)) (l := l) (y := y) (tn := tn)
    (by rw [State.lane_setLane]; exact hid) (by rw [State.lane_setLane]; exact hv) (by rw [State.lane_setLane]; exact hs)
    (by rw [State.lane_setLane]; exact hw) (by rw [State.lane_setLane]; exact hg) (by rw [State.lane_setLane]; exact hm)
    (by rw [State.lane_setLane]; exact hc) (by rw [State.lane_setLane]; exact hyn)
    (fun k => by
      by_cases hk : k = l
      · rw [hk, State.lane_setLane]; exact hup l
      · rw [State.lane_setLane_ne _ _ hk, s.lane_laneAt_ne tn hk]; exact hup k)
    (by rw [State.lane_setLane]; exact hin) (by rw [State.lane_setLane]; exact hy) hne (by rw [State.lane_setLane]; exact hpeers) (tn + tenMicros)
  rw [State.lane_setLane, State.setLane_setLane] at hlink hrest
  rw [State.setLane_setLane] at hrest
  have heq := State.catchTask_of_voter (s := s) (l := l) (task := 0) hl he hr hv hc (fun k hk ha => (hfin k hk ha).2) fun _ => hstep
  dsimp only at heq
  have hvote : ((((s.laneAt l tn).setLane l ((s.lane l).waked tn).linksTaken).lane l).inVote ||
      (((s.laneAt l tn).setLane l ((s.lane l).waked tn).linksTaken).lane l).shadow) = true := by
    rw [State.lane_setLane, Lane.inVote_of_reg_eq (((s.lane l).waked tn).linksTaken_reg), Lane.inVote_of_reg_eq (Lane.waked_reg _ _), hv]
    rfl
  rw [hdue, if_neg (by decide), if_pos rfl, hlink, if_neg (by rw [hvote]; decide), if_pos rfl, State.lane_setLane] at heq
  have hlane := ((s.laneAt l tn).setLane l (((s.lane l).waked tn).strokeBegun tn)).freeze_lane l 0 tn
  rw [State.lane_setLane] at hlane
  exact ⟨_, congrArg Host.Outcome.next (heq.trans hrest), hlane⟩

/-- A task's catch of a voter with no lane gone (R64, R65). -/
theorem State.exec_catch_task {s : State} {l y : LaneId} {task tn : Nat} (hid : (s.lane l).id = l) (hl : (s.lane l).rst.held = false)
    (he : (s.lane l).easy = false) (hr : (s.lane l).sitReady = false) (hv : (s.lane l).inVote = true) (hs : (s.lane l).shadow = false)
    (hg : (s.lane l).gone = []) (hc : (s.lane l).prog.chg.stage = .none) (h0 : task ≠ 0) (hy : y ∈ (s.lane l).inset) (hne : y ≠ l)
    (heff : ((s.lane l).link ((s.lane l).linkTo y)).eff = true)
    (hpeers : ∀ k, (s.lane l).taskOf task = some k → ∀ e ∈ k.peers, e.1 = y → e.2.tn ≠ tn) (hdue : (s.lane l).catchDue task tn = true)
    (hfin : ∀ k ∈ (s.lane l).tasks, k.active = true → k.tn + (s.lane l).dOf k.tnum + voteWindow k.tnum ≠ tn) :
    ∃ cs, exec (.catchInputs l task tn) s = .next (((s.laneAt l tn).setLane l { (s.lane l).waked tn with conns := cs }).freeze l task tn) := by
  have heq := State.catchTask_of_voter (s := s) (l := l) (task := task) hl he hr hv hc hfin fun h => absurd h h0
  obtain ⟨cs, hstart⟩ := ((s.lane l).waked tn).startConns_frame (((s.lane l).waked tn).ctxOf task)
  have hdrop : ((s.lane l).waked tn).dropGone = (s.lane l).waked tn := by
    rw [Lane.dropGone, if_neg]
    rw [Lane.staying_of_none_gone (x := (s.lane l).waked tn) hg, bne_self_eq_false, Bool.and_false]
    decide
  have hmod : ((s.laneAt l tn).setLane l ((s.lane l).waked tn)).modLane l (·.dropGone) = (s.laneAt l tn).setLane l ((s.lane l).waked tn) := by
    rw [State.modLane_setLane, hdrop]
  have hvote : ((((s.laneAt l tn).setLane l ((s.lane l).waked tn)).lane l).inVote ||
      (((s.laneAt l tn).setLane l ((s.lane l).waked tn)).lane l).shadow) = true := by
    rw [State.lane_setLane, Lane.inVote_of_reg_eq (Lane.waked_reg _ _), hv]
    rfl
  dsimp only at heq
  rw [hdue, if_neg (by decide), if_neg h0, hmod, if_neg (by rw [hvote]; decide), if_neg h0, State.modLane_setLane, State.lane_setLane, hstart] at heq
  refine ⟨cs, congrArg Host.Outcome.next (heq.trans (State.tryDecide_freeze (y := y) ?_ ?_ ?_ hne ?_ ?_))⟩
  all_goals rw [State.lane_setLane]
  · exact hid
  · exact hs
  · exact hy
  · exact heff
  · exact hpeers

/-- What a lane has after a catch of its own. -/
theorem Lane.taskCaught_spec (x : Lane) (task tn : Nat) (box : Mailbox) :
    let z := x.caughtOn task tn box
    z.stroke = x.stroke ∧ z.fol.tn = x.fol.tn ∧ z.rg VOTE_STAT = x.rg VOTE_STAT ∧ z.fld.dyn = x.fld.dyn ∧
      ∃ k f, z.taskOf task = some k ∧ k.active = true ∧ k.tn = tn ∧ k.decided = false ∧ k.mode = x.prog.mode ∧ k.own = some f ∧
        f.stroke = x.stroke ∧ f.tn = tn ∧ f.inVote = x.inVote := by
  obtain ⟨cs, us, cmds, ks, hc⟩ := x.caughtOn_frame task tn box
  obtain ⟨hfs, hft, hfv, -⟩ := x.catchFrame_spec task tn box
  obtain ⟨cs', ns, us', cmds', hcall⟩ := x.called_frame task tn box
  refine ⟨?_, ?_, ?_, ?_, _, _, x.caughtOn_taskOf task tn box, rfl, rfl, rfl, ?_, rfl, hfs, hft, hfv⟩
  · rw [Lane.stroke, x.caughtOn_rg task tn box (by decide), Lane.stroke]
  · rw [hc]
    rfl
  · rw [x.caughtOn_rg task tn box (by decide)]
  · rw [hc]
  · show (x.called task tn box).prog.mode = x.prog.mode
    rw [hcall]

/-- The first catch leaves the links of every lane. -/
theorem State.firstCatch_linkUp {s : State} {l : LaneId} (hid : (s.lane l).id = l) (z : LaneId) (k : Nat) :
    ((s.firstCatch l).lane z).linkUp k = (s.lane z).linkUp k := by
  obtain ⟨hlane, hrest, -⟩ := State.firstCatch_spec hid
  refine Lane.linkUp_of_kept ?_ k
  by_cases hz : z = l
  · rw [hz, hlane]
    exact Lane.firstVoter_regsKept _ _
  · rw [hrest z hz]
    split
    · exact .refl _ _
    · exact Lane.leftOut_regsKept _

theorem Lane.firstVoter_stroke (x : Lane) (set : List LaneId) : (x.firstVoter set).stroke = x.stroke := by
  rw [Lane.stroke, x.firstVoter_regsKept set _ (by decide), Lane.stroke]

theorem Lane.firstVoter_shadow (x : Lane) (set : List LaneId) : (x.firstVoter set).shadow = false := by
  rw [Lane.shadow, Lane.firstVoter_mode]
  split <;> rfl

theorem Lane.joined_frame (x : Lane) (set : List LaneId) : ∃ r, x.joined set = { x with reg := r } := by
  dsimp only [Lane.joined, Lane.fset, Lane.setRg]
  exact ⟨_, rfl⟩

theorem Lane.firstVoter_frame (x : Lane) (set : List LaneId) : ∃ r, x.firstVoter set = { x with reg := r, gone := [] } := by
  obtain ⟨r, h⟩ := x.joined_frame set
  exact ⟨r, by rw [Lane.firstVoter, h]⟩

/-- The first catch of a paired lane (R46, R47). -/
theorem State.exec_catch_first {s : State} {l y : LaneId} {tn : Nat} (hid : (s.lane l).id = l) (hl : (s.lane l).rst.held = false)
    (hr : (s.lane l).sitReady = true) (hfirst : (s.lane l).start.firstCatch = some tn) (hlp : l ∈ (s.lane l).start.paired)
    (hyp : y ∈ (s.lane l).start.paired) (hne : y ≠ l) (htasks : (s.lane l).tasks = []) (hw : (s.lane l).readm.who = none)
    (hm : (s.lane l).prog.modeNext = none) (hc : (s.lane l).prog.chg.stage = .none) (hyn : (s.lane l).yieldNext = false)
    (hup : ∀ k, (s.lane k).linkUp 0 = true ∧ (s.lane k).linkUp 1 = true) :
    exec (.catchInputs l 0 tn) s = .next ((((s.laneAt l tn).firstCatch l).setLane l ((((s.laneAt l tn).firstCatch l).lane l).strokeBegun tn)).freeze l 0 tn) := by
  have hat : (s.laneAt l tn).lane l = (s.lane l).at tn := s.lane_laneAt l tn
  have hothers (z : LaneId) : ((s.laneAt l tn).lane z).linkUp 0 = true ∧ ((s.laneAt l tn).lane z).linkUp 1 = true := by
    by_cases hz : z = l
    · rw [hz, hat]; exact hup l
    · rw [s.lane_laneAt_ne tn hz]; exact hup z
  obtain ⟨hlane, -⟩ := State.firstCatch_spec (s := s.laneAt l tn) (l := l) (by rw [hat]; exact hid)
  have hmem (z : LaneId) (hz : z ∈ (s.lane l).start.paired) : z ∈ allLanes.filter (s.lane l).start.paired.contains :=
    List.mem_filter.2 ⟨by cases z <;> decide, List.contains_iff_mem.2 hz⟩
  have hups (z : LaneId) : (((s.laneAt l tn).firstCatch l).lane z).linkUp 0 = true ∧ (((s.laneAt l tn).firstCatch l).lane z).linkUp 1 = true := by
    rw [State.firstCatch_linkUp (by rw [hat]; exact hid), State.firstCatch_linkUp (by rw [hat]; exact hid)]
    exact hothers z
  have heasy : (s.lane l).easy = false := by
    rw [Lane.easy, eq_of_beq (show ((s.lane l).mode == modeSitReady) = true from hr)]
    rfl
  rw [hat, show ((s.lane l).at tn).start = (s.lane l).start from rfl] at hlane
  have hset := ((s.lane l).at tn).firstVoter_inset (s.lane l).start.paired.contains
  have hvote := ((s.lane l).at tn).firstVoter_inVote (allLanes.filter (s.lane l).start.paired.contains)
  have hshadow := ((s.lane l).at tn).firstVoter_shadow (allLanes.filter (s.lane l).start.paired.contains)
  obtain ⟨r, hframe⟩ := ((s.lane l).at tn).firstVoter_frame (allLanes.filter (s.lane l).start.paired.contains)
  rw [← hlane] at hset hvote hshadow hframe
  obtain ⟨hlink, hdecide⟩ := State.caughtStroke (s := (s.laneAt l tn).firstCatch l) (l := l) (y := y) (tn := tn) (by rw [hframe]; exact hid) hvote hshadow
    (by rw [hframe]; exact hw) (by rw [hframe]) (by rw [hframe]; exact hm) (by rw [hframe]; exact hc) (by rw [hframe]; exact hyn) hups
    (by rw [hset]; exact hmem l hlp) (by rw [hset]; exact hmem y hyp) hne
    (by rw [Lane.taskOf_congr (y := { s.lane l with tasks := [] }) (by rw [hframe]; exact htasks)]; exact fun _ h => absurd h (by simp [Lane.taskOf]))
    (tn + tenMicros)
  refine congrArg Host.Outcome.next (Eq.trans ?_ hdecide)
  have hguard : ((((s.lane l).at tn).rst.held || ((s.lane l).at tn).easy)) = false := by
    rw [show ((s.lane l).at tn).rst.held = false from hl, show ((s.lane l).at tn).easy = false from heasy]
    rfl
  unfold State.catchTask
  simp only [hat, hguard, show ((s.lane l).at tn).sitReady = true from hr, show ((s.lane l).at tn).start.firstCatch = some tn from hfirst, hlink,
    State.lane_setLane, Lane.inVote_of_reg_eq (Lane.linksTaken_reg _), hvote, Bool.false_eq_true, if_false, if_true, and_self]

/-- Settles O10: with nothing before it a catch is the links taken over, the stroke's own events and the frame; with a frame awaited it ends
there. -/
theorem catchNumbersTheStrokeAndFormsTheFrame : Obligations.CatchNumbersTheStrokeAndFormsTheFrame := by
  refine ⟨?stroke, ?task, ?first, ?sitReady, ?none⟩
  case stroke =>
    intro s l y tn hid hl he hr hv hs hstep hw hg hm hc hyn hup hin hy hne hpeers hfin _ htn hnext
    obtain ⟨box, hnext, hlane⟩ := State.exec_catch_stroke hid hl he hr hv hs hstep hw hg hm hc hyn hup hin hy hne hpeers hfin htn hnext
    obtain ⟨hstroke, htn', hget, hstat, hasked, hasks, htimers, hdyn, k, f, hk, ha, hkt, hd, hown, hfs, hft, hfv, hfh⟩ :=
      ((s.lane l).waked tn).strokeCaught_spec tn box
    rw [← hlane] at hstroke htn' hget hstat hasked hasks htimers hdyn hk
    refine ⟨_, k, f, hnext, ((s.onlyLane_laneAt l tn).trans (State.onlyLane_setLane _ l _)).freeze 0 tn, ?_⟩
    exact ⟨hstroke, htn', (by rw [Lane.inVote, Lane.on, hget _ (by decide) (by decide)]; exact hv), hasked, hasks, htimers, hstat, hdyn, hk, ha, hkt, hd,
      hown, hfs, hft, hfv.trans hv, hfh⟩
  case task =>
    intro s l y task tn k hid hl he hr hv hs hg hc h0 hy hne heff hk hpeers hdue hfin
    obtain ⟨cs, hnext⟩ := State.exec_catch_task hid hl he hr hv hs hg hc h0 hy hne heff
      (fun j hj => Option.some.inj (hk.symm.trans hj) ▸ hpeers) hdue hfin
    have hlane := ((s.laneAt l tn).setLane l { (s.lane l).waked tn with conns := cs }).freeze_lane l task tn
    rw [State.lane_setLane] at hlane
    obtain ⟨hstroke, htn, hstat, hdyn, k', f, hk', ha, hkt, hd, hmode, hown, hfs, hft, hfv⟩ :=
      Lane.taskCaught_spec { (s.lane l).waked tn with conns := cs } task tn
        (((s.laneAt l tn).setLane l { (s.lane l).waked tn with conns := cs }).hub.mbx l)
    refine ⟨_, k', f, hnext, ((s.onlyLane_laneAt l tn).trans (State.onlyLane_setLane _ l _)).freeze task tn, ?_⟩
    rw [hlane]
    exact ⟨hstroke, htn, hstat, hdyn, hk', ha, hkt, hd, hmode, hown, hfs, hft, hfv.trans hv⟩
  case first =>
    intro s l y tn hid hl hr hfirst hlp hyp hne htasks hw hm hc hyn hup
    have hat : (s.laneAt l tn).lane l = (s.lane l).at tn := s.lane_laneAt l tn
    have hexec := State.exec_catch_first hid hl hr hfirst hlp hyp hne htasks hw hm hc hyn hup
    obtain ⟨hlane, hrest, hphase, hfield, hbox⟩ := State.firstCatch_spec (s := s.laneAt l tn) (l := l) (by rw [hat]; exact hid)
    rw [hat, show ((s.lane l).at tn).start = (s.lane l).start from rfl] at hlane
    generalize hu : (s.laneAt l tn).firstCatch l = u at *
    obtain ⟨hothers, hmem, hhub, -, hframe⟩ := ((u.onlyLane_setLane l ((u.lane l).strokeBegun tn)).freeze 0 tn)
    have hlast := (u.setLane l ((u.lane l).strokeBegun tn)).freeze_lane l 0 tn
    rw [State.lane_setLane, State.setLane_hub] at hlast
    obtain ⟨hstroke, htn, hget, -⟩ := (u.lane l).strokeCaught_spec tn (u.hub.mbx l)
    rw [← hlast] at hstroke htn hget
    have hstat (f : Fld) (h : f.addr = VOTE_STAT) : (((u.setLane l ((u.lane l).strokeBegun tn)).freeze l 0 tn).lane l).fget f =
        (((s.lane l).at tn).firstVoter (allLanes.filter (s.lane l).start.paired.contains)).fget f := by
      rw [hget f (by rw [h]; decide) (by rw [h]; decide), hlane]
    have hset : (((u.setLane l ((u.lane l).strokeBegun tn)).freeze l 0 tn).lane l).inset = allLanes.filter (s.lane l).start.paired.contains := by
      exact Lane.inset_of_mask ((hstat _ rfl).trans (Lane.firstVoter_mask _ _))
    refine ⟨_, hexec, ?_, ?_, ?_, hset, ?_, ?_, ?_, htn, ?_, fun z hz => ⟨fun hzp => ?_, fun hzp hzl hzr => ?_⟩⟩
    · rw [hframe]
      exact hphase
    · rw [hframe]
      exact hfield.trans (s.laneAt_field l tn)
    · rw [Lane.inVote, Lane.on, hstat _ rfl]
      exact Lane.firstVoter_inVote _ _
    · rw [hset, Lane.mode, hstat _ rfl]
      exact Lane.firstVoter_mode _ _
    · rw [Lane.on, hget _ (by decide) (by decide), hlane]
      exact Lane.firstVoter_running _ _
    · rw [hstroke, hlane, Lane.firstVoter_stroke]
      rfl
    · rw [State.freeze_eq, State.modHub_hub, Hub.mbx_modMbx, State.lane_setLane, State.setLane_hub]
      show (((u.lane l).strokeBegun tn).frozenBox 0 tn (u.hub.mbx l)).rest = []
      rw [Lane.frozenBox, hbox]
      rfl
    · rw [(hothers z hz).1, hrest z hz, hat, if_pos (show z ∈ ((s.lane l).at tn).start.paired from hzp), s.lane_laneAt_ne tn hz]
    · rw [(hothers z hz).1, hrest z hz, hat, if_neg (show z ∉ ((s.lane l).at tn).start.paired from hzp), s.lane_laneAt_ne tn hz]
      exact Lane.leftOut_mode hzl hzr
  case sitReady =>
    intro s l tn hl hr hfirst
    have hat : (s.laneAt l tn).lane l = (s.lane l).at tn := s.lane_laneAt l tn
    refine ⟨s.laneAt l tn, congrArg Host.Outcome.next ?_, s.onlyLane_laneAt l tn, by rw [hat]; rfl, by rw [hat]; rfl⟩
    unfold State.catchTask
    simp only [hat, show ((s.lane l).at tn).sitReady = true from hr, if_true]
    split
    · rfl
    · exact if_neg fun h => hfirst h.2
  case none =>
    intro s l task tn hl he hr hv hstep hc hdue hfin
    have heq := State.catchTask_of_voter (s := s) (l := l) (task := task) hl he hr hv hc hfin fun _ => hstep
    dsimp only at heq
    rw [hdue, if_pos (by decide)] at heq
    refine ⟨_, congrArg Host.Outcome.next heq, ?_⟩
    rw [State.modLane, s.lane_laneAt]
    rfl

end Sys2Proof.Machine
end

section
/-! PROOFS. Writes of the configuration of the vote and of the field port (R182, R261), and the statement on them. -/

namespace Sys2Proof.Machine

theorem Lane.plainWrite_onlyRegs (x : Lane) (a : Nat) (v : Word) : x.OnlyRegs (x.plainWrite a v) [a] := by
  unfold Lane.plainWrite
  split
  · exact x.onlyRegs_setRg _ (List.mem_singleton.2 rfl)
  · exact .refl x _

theorem Lane.plainWrite_rg {a : Nat} {d : RegDesc} (h : descOf laneRegs a = some d) (x : Lane) (v : Word) :
    (x.plainWrite a v).rg a = regWritten d (x.rg a) v := by
  unfold Lane.plainWrite
  rw [h]
  exact Lane.rg_setRg_same _ _ _

theorem bvField_congr {x y : Word} {lo w : Nat} (h : ∀ i, i < w → x.getLsbD (lo + i) = y.getLsbD (lo + i)) : bvField x lo w = bvField y lo w := by
  refine Nat.eq_of_testBit_eq fun i => ?_
  rw [bvField, bvField, getField_testBit, getField_testBit]
  by_cases hi : i < w
  · have hb := h i hi
    rw [← BitVec.testBit_toNat, ← BitVec.testBit_toNat] at hb
    rw [hb]
  · rw [decide_eq_false hi, Bool.false_and, Bool.false_and]

/-- A field whose bits are all writable reads as written. -/
theorem bvField_regWritten {d : RegDesc} {lo w : Nat} (hw : lo + w ≤ 32) (hrw : ∀ i, i < w → d.rw.testBit (lo + i) = true) (h1 : d.w1c = 0)
    (old v : Word) : bvField (regWritten d old v) lo w = bvField v lo w := by
  refine bvField_congr fun i hi => ?_
  have hlt : lo + i < 32 := by omega
  have hbit : (BitVec.ofNat 32 d.rw).getLsbD (lo + i) = true := by rw [BitVec.getLsbD_ofNat, hrw i hi, decide_eq_true hlt]; rfl
  rw [regWritten, h1]
  simp only [BitVec.getLsbD_and, BitVec.getLsbD_or, BitVec.getLsbD_not, hbit, BitVec.getLsbD_ofNat, Nat.zero_testBit, hlt, decide_true]
  simp

theorem Lane.on_noted (x : Lane) (ns : List RecNote) (f : Fld) : ({ x with notes := ns } : Lane).on f = x.on f := rfl

theorem Lane.fget_noted (x : Lane) (ns : List RecNote) (f : Fld) : ({ x with notes := ns } : Lane).fget f = x.fget f := rfl

theorem Lane.rg_noted (x : Lane) (ns : List RecNote) (a : Nat) : ({ x with notes := ns } : Lane).rg a = x.rg a := rfl

theorem Lane.fldFlag_onlyRegs (x : Lane) {f : Fld} {as : List Nat} (hf : f.addr ∈ as) (hi : LCTL_IRQ_PEND ∈ as) : x.OnlyRegs (x.fldFlag f) as :=
  (x.onlyRegs_fset 1 hf).trans ⟨rfl, fun _ ha => Lane.rg_raise_ne _ _ fun e => ha (e ▸ hi)⟩

theorem Lane.on_fldFlag_same (x : Lane) {f : Fld} (h : f.lo + 1 ≤ 32) (hw : f.w = 1) (hi : f.addr ≠ LCTL_IRQ_PEND) : (x.fldFlag f).on f = true := by
  rw [Lane.on, Lane.fldFlag, Lane.fget_raise_ne _ _ hi]
  exact x.on_fset_one f h hw

/-! ### The vote's configuration (R182) -/

/-- The context a configuration register belongs to is one of eight. -/
theorem voteCtxOf_lt {off : Nat} (h : voteCfgReg off = true) : voteCtxOf off < 8 := by
  simp only [voteCfgReg, Bool.and_eq_true, Bool.or_eq_true, decide_eq_true_eq, beq_iff_eq] at h
  unfold voteCtxOf
  split <;> omega

/-- The regions of a context are read from its number of regions and the registers of its regions. -/
theorem Lane.regions_congr {x y : Lane} {c : Nat} (hn : y.fget (VOTE_CFG_NRGN c) = x.fget (VOTE_CFG_NRGN c))
    (hb : ∀ i, y.rg (VOTE_RGN_BASE i) = x.rg (VOTE_RGN_BASE i)) (hd : ∀ i, y.rg (VOTE_RGN_DESC i) = x.rg (VOTE_RGN_DESC i)) :
    y.regions c = x.regions c := by
  have hbase (f : Fld) (i : Nat) (h : f.addr = VOTE_RGN_BASE i) : y.fget f = x.fget f := by rw [Lane.fget, h, hb, Lane.fget, h]
  have hdesc (f : Fld) (i : Nat) (h : f.addr = VOTE_RGN_DESC i) : y.fget f = x.fget f := by rw [Lane.fget, h, hd, Lane.fget, h]
  have hreg : y.region c = x.region c := by
    funext m
    have hk : y.rgnKind c m = x.rgnKind c m := by
      rw [Lane.rgnKind, hdesc (VOTE_RGN_DESC_KIND (8 * c + m)) _ rfl, Lane.rgnKind]
    simp only [Lane.region, hk, Lane.on, hdesc (VOTE_RGN_DESC_FIELD (8 * c + m)) _ rfl, hdesc (VOTE_RGN_DESC_TLG (8 * c + m)) _ rfl,
      hdesc (VOTE_RGN_DESC_SAFE (8 * c + m)) _ rfl, hdesc (VOTE_RGN_DESC_NSEG (8 * c + m)) _ rfl, hbase (VOTE_RGN_BASE_BASE (8 * c + m)) _ rfl]
  rw [Lane.regions, hn, hreg, Lane.regions]

theorem Lane.ctxSummary_onlyRegs (x : Lane) (c : Nat) : x.OnlyRegs (x.ctxSummary c) [VOTE_CFG c] :=
  (x.onlyRegs_fset (f := VOTE_CFG_NSEG c) _ (List.mem_singleton.2 rfl)).trans (Lane.onlyRegs_fset _ (f := VOTE_CFG_SAFE c) _ (List.mem_singleton.2 rfl))

theorem Lane.ctxSummary_nseg (x : Lane) {c : Nat} (hc : c < 8) : (x.ctxSummary c).nseg c = x.nseg c := by
  obtain ⟨-, hkept⟩ := x.ctxSummary_onlyRegs c
  have hne (i : Nat) : VOTE_RGN_BASE i ∉ [VOTE_CFG c] ∧ VOTE_RGN_DESC i ∉ [VOTE_CFG c] := by
    simp only [VOTE_RGN_BASE, VOTE_RGN_DESC, VOTE_CFG, List.mem_singleton]
    omega
  have hn : (x.ctxSummary c).fget (VOTE_CFG_NRGN c) = x.fget (VOTE_CFG_NRGN c) := by
    rw [Lane.ctxSummary, Lane.fget_fset_bits (f := VOTE_CFG_SAFE c) (g := VOTE_CFG_NRGN c) _ _ rfl (by simp [VOTE_CFG_NRGN]) (.inl (by simp [VOTE_CFG_NRGN, VOTE_CFG_SAFE])),
      Lane.fget_fset_bits (f := VOTE_CFG_NSEG c) (g := VOTE_CFG_NRGN c) _ _ rfl (by simp [VOTE_CFG_NRGN]) (.inl (by simp [VOTE_CFG_NRGN, VOTE_CFG_NSEG]))]
  rw [Lane.nseg, Lane.regions_congr hn (fun i => hkept _ (hne i).1) (fun i => hkept _ (hne i).2), Lane.nseg]

theorem Lane.ctxSummary_fget_nseg (x : Lane) {c : Nat} (h : x.nseg c ≤ ctxCap c) : (x.ctxSummary c).fget (VOTE_CFG_NSEG c) = x.nseg c := by
  have hcap : ctxCap c ≤ 8192 := by unfold ctxCap; split <;> omega
  rw [Lane.ctxSummary, Lane.fget_fset_bits (f := VOTE_CFG_SAFE c) (g := VOTE_CFG_NSEG c) _ _ rfl (by simp [VOTE_CFG_NSEG]) (.inr (by simp [VOTE_CFG_NSEG, VOTE_CFG_SAFE])),
    Lane.fget_fset_same _ _ _ (by simp [VOTE_CFG_NSEG])]
  exact Nat.mod_eq_of_lt (by simp only [VOTE_CFG_NSEG]; omega)

theorem Lane.nseg_of_ctxCfgOk {x : Lane} {c : Nat} (h : x.ctxCfgOk c = true) : x.nseg c ≤ ctxCap c := by
  simp only [Lane.ctxCfgOk, Bool.and_eq_true, decide_eq_true_eq] at h
  exact h.1.1.2

section VoteCfg
variable {x : Lane} {off : Nat} (v : Word) (h : voteCfgReg off = true)
include h

theorem Lane.voteCfgWrite_of_fixed (hu : x.unarmed = false) (hj : x.joining = false) : x.voteCfgWrite off v = x.voteFlag VOTE_STAT_CFG_ERR := by
  rw [Lane.voteCfgWrite, h, hu, hj]
  rfl

theorem Lane.voteCfgWrite_of_free (hf : x.unarmed = true ∨ x.joining = true) (ho : off ≠ 0x018) :
    x.voteCfgWrite off v = if (x.plainWrite (0x40001000 + off) v).ctxCfgOk (voteCtxOf off) && (x.plainWrite (0x40001000 + off) v).rgnOk off then
      (x.plainWrite (0x40001000 + off) v).ctxSummary (voteCtxOf off) else x.voteFlag VOTE_STAT_CFG_ERR := by
  rw [Lane.voteCfgWrite, h, show (x.unarmed || x.joining) = true from by obtain h | h := hf <;> simp [h]]
  exact if_neg ho

end VoteCfg

theorem Lane.voteFlag_noted (x : Lane) (ns : List RecNote) {f : Fld} (hf : f = VOTE_STAT_CFG_ERR) :
    x.OnlyRegs { x.voteFlag f with notes := ns } [VOTE_STAT, LCTL_IRQ_PEND] ∧ ({ x.voteFlag f with notes := ns } : Lane).on f = true := by
  subst hf
  rw [Lane.on_noted]
  exact ⟨(Lane.voteFlag_onlyRegs _ (by decide) (by decide)).notes _, Lane.on_voteFlag_same _ (by decide) rfl (by decide)⟩

/-! ### The field port's configuration (R261) -/

theorem fldpCfgReg_desc {off : Nat} (h : fldpCfgReg off = true) : ∃ d, descOf laneRegs (0x4000C000 + off) = some d := by
  have hlt : off < 0x240 := by
    simp only [fldpCfgReg, Bool.and_eq_true, Bool.or_eq_true, decide_eq_true_eq, beq_iff_eq] at h
    omega
  have hall : ∀ o, o < 0x240 → fldpCfgReg o = true → (descOf laneRegs (0x4000C000 + o)).isSome = true := by decide +kernel
  exact Option.isSome_iff_exists.1 (hall off hlt h)

/-- Settles O20: a configuration write is the plain write of its register, the summary of its context, or the error flag. -/
theorem voteAndFieldConfigurationFixedOnceArmed : Obligations.VoteAndFieldConfigurationFixedOnceArmed := by
  refine ⟨⟨fun s l off v hl hu hj h => ?fixed, fun s l v hl hf => ?base, fun s l off v hl hf h ho => ?context⟩, fun s l off v hl h => ?field⟩
  case fixed =>
    obtain ⟨honly, hlane⟩ := s.upLane_next l (·.voteCfgWrite off v) hl
    rw [Lane.voteCfgWrite_of_fixed v h hu hj] at hlane
    refine ⟨_, rfl, honly, ?_⟩
    rw [hlane]
    exact Lane.voteFlag_noted _ [] rfl
  case base =>
    obtain ⟨honly, hlane⟩ := s.upLane_next l (·.voteCfgWrite 0x018 v) hl
    have hwrite : (s.lane l).voteCfgWrite 0x018 v = (s.lane l).plainWrite VOTE_RBASE v := by
      rw [Lane.voteCfgWrite, show ((s.lane l).unarmed || (s.lane l).joining) = true from by obtain h | h := hf <;> simp [h]]
      rfl
    rw [hwrite] at hlane
    refine ⟨_, rfl, honly, ?_⟩
    rw [hlane]
    refine ⟨(Lane.plainWrite_onlyRegs _ _ _).notes _, ?_⟩
    obtain ⟨d, hd, hrw, hw1c⟩ : ∃ d, descOf laneRegs VOTE_RBASE = some d ∧ d.rw = 0xFFFE0000 ∧ d.w1c = 0 := ⟨_, rfl, rfl, rfl⟩
    rw [Lane.fget_noted, Lane.fget, show VOTE_RBASE_BASE.addr = VOTE_RBASE from rfl, Lane.plainWrite_rg hd]
    exact bvField_regWritten (by decide) (by rw [hrw]; decide) hw1c _ _
  case context =>
    obtain ⟨honly, hlane⟩ := s.upLane_next l (·.voteCfgWrite off v) hl
    rw [Lane.voteCfgWrite_of_free v h hf ho] at hlane
    refine ⟨_, rfl, honly, fun hctx hrgn => ?_, fun hbad => ?_⟩
    · rw [if_pos (by rw [hctx, hrgn]; rfl)] at hlane
      rw [hlane]
      have hsum := ((s.lane l).plainWrite (0x40001000 + off) v).ctxSummary_onlyRegs (voteCtxOf off)
      refine ⟨(((Lane.plainWrite_onlyRegs _ _ _).mono ?_).trans (hsum.mono ?_)).notes _, ?_, fun hne => ?_⟩
      · simp
      · simp [VOTE_CFG]
      · show (((s.lane l).plainWrite (0x40001000 + off) v).ctxSummary (voteCtxOf off)).fget _ = (((s.lane l).plainWrite (0x40001000 + off) v).ctxSummary (voteCtxOf off)).nseg _
        rw [Lane.ctxSummary_fget_nseg _ (Lane.nseg_of_ctxCfgOk hctx), Lane.ctxSummary_nseg _ (voteCtxOf_lt h)]
      · refine hsum.2 _ ?_
        simp only [VOTE_CFG, List.mem_singleton]
        omega
    · rw [if_neg (by obtain h | h := hbad <;> simp [h])] at hlane
      rw [hlane]
      exact Lane.voteFlag_noted _ [] rfl
  case field =>
    obtain ⟨honly, hlane⟩ := s.upLane_next l (·.fldpCfgWrite off v) hl
    refine ⟨_, rfl, honly, fun hf hr => ?_, fun hbad => ?_⟩
    · obtain ⟨d, hd⟩ := fldpCfgReg_desc h
      rw [Lane.fldpCfgWrite, h, if_pos rfl, hr, show ((s.lane l).unarmed || (s.lane l).joining) = true from by obtain h | h := hf <;> simp [h]] at hlane
      rw [hlane]
      exact ⟨d, hd, (Lane.plainWrite_onlyRegs _ _ _).notes _, Lane.plainWrite_rg hd _ _⟩
    · rw [Lane.fldpCfgWrite, h, if_pos rfl, if_neg (by obtain ⟨hu, hj⟩ | hr := hbad <;> simp [*])] at hlane
      rw [hlane, Lane.on_noted]
      exact ⟨(Lane.fldFlag_onlyRegs _ (by decide) (by decide)).notes _, Lane.on_fldFlag_same _ (by decide) rfl (by decide)⟩

end Sys2Proof.Machine
end

section
/-! PROOFS. The statement on readmission, refuted: a page stored leaves what the lane has still to hand to the recorder, which the statement has
empty. -/

namespace Sys2Proof.Machine

theorem Lane.abandonReadm_notes (x : Lane) (r : Nat) : (x.abandonReadm r).notes = x.notes := by
  unfold Lane.abandonReadm
  split
  · rfl
  · dsimp only
    split <;> split <;> simp only [Lane.fset_notes]

theorem Lane.putPage_notes (x : Lane) (page : Nat) (bs : List Byte) : (x.putPage page bs).notes = x.notes := by
  have hfold (f : Lane → Nat → Lane) (hf : ∀ y i, (f y i).notes = y.notes) (ks : List Nat) (y : Lane) : (ks.foldl f y).notes = y.notes := by
    induction ks generalizing y with
    | nil => rfl
    | cons k ks ih => rw [List.foldl_cons, ih, hf]
  have harea (y : Lane) (a : Nat) (v : Word) : (y.putAreaWord a v).notes = y.notes := by
    unfold Lane.putAreaWord
    split <;> rfl
  unfold Lane.putPage
  split
  · exact hfold (fun (x : Lane) i => x.setCell (128 * page + i) (cellOfBytes ((bs.drop (32 * i)).take 32))) (fun y i => by dsimp only [Lane.setCell]) _ _
  · extract_lets a
    split
    · rfl
    · exact hfold _ (fun _ _ => harea _ _ _) _ _

/-- A page leaves a lane's list of what it has to hand to the recorder. -/
theorem State.readmPage_notes (s : State) (dst src : LaneId) (page ctx : Nat) (bs : List Byte) (crc : Word) (again : Bool) (t : Nat) :
    ((s.readmPage dst src page ctx bs crc again t).lane dst).notes = (s.lane dst).notes := by
  unfold State.readmPage
  extract_lets x step y got r
  split
  · rfl
  · split
    · split
      · rw [State.lane_setLane, Lane.abandonReadm_notes]
      · rw [State.lane_setLane]
    · split
      · rw [State.lane_setLane, Lane.abandonReadm_notes]
      · rw [State.lane_setLane]
        exact x.putPage_notes page bs

/-- Lane A takes the full pass from lanes B and C, and has an event to hand to the recorder. -/
noncomputable def transferring : State :=
  { State.reset with
    phase := .running,
    la := { laneReset .a with
      reg := [(VOTE_READM, 0x2#32)], rst := { rstReset with held := false }, notes := [{ blk := 0, cls := 0, rule := 0, data := [] }] },
    lb := { laneReset .b with reg := [(VOTE_STAT, 0xE0A#32)] }, lc := { laneReset .c with reg := [(VOTE_STAT, 0xE0A#32)] } }

theorem transferring_step : transferring.la.fget VOTE_READM_RSTEP = 2 ∧ transferring.la.easy = false ∧ transferring.donorOf 0 = some .b := by
  decide +kernel

/-- Refutes O21: a page stored with an event still to be handed on. -/
theorem not_readmissionFollowsItsSteps : ¬ Obligations.ReadmissionFollowsItsSteps := by
  rintro ⟨-, -, hpage, -⟩
  obtain ⟨hstep, heasy, hdonor⟩ := transferring_step
  obtain ⟨bs, hbs⟩ : ∃ bs : List Byte, bs.length = 4096 := ⟨List.replicate 4096 0, List.length_replicate⟩
  obtain ⟨t, ht, -, hgood, -⟩ := hpage transferring .a .b 0 (Config.pageOwner transferring.la.prgid 0) 0 bs (BitVec.ofNat 32 (crc32c bs)) false rfl hstep
    heasy hdonor (by unfold pagesOf; omega)
  obtain ⟨-, -, hlane, -⟩ := hgood (by rw [BitVec.toNat_ofNat, Nat.mod_eq_of_lt (crc32c_lt _)]) hbs rfl
  have ht' : (transferring.at 0).readmPage .a .b 0 (Config.pageOwner transferring.la.prgid 0) bs (BitVec.ofNat 32 (crc32c bs)) false 0 = t :=
    Host.Outcome.next.inj ht
  have hkept : (t.lane .a).notes = [{ blk := 0, cls := 0, rule := 0, data := [] }] := by rw [← ht', State.readmPage_notes]; rfl
  exact absurd (hkept.symm.trans (congrArg Lane.notes hlane)) (by simp)

end Sys2Proof.Machine
end

section
/-! PROOFS. The cross-lane links: what a frame, a timer and a command do to a link, what a lost link does to a readmission (R160, R171, R183), and
the statement on them. -/

namespace Sys2Proof.Machine

/-! ### A readmission abandoned (R171) -/

/-- The registers of an abandoned readmission. -/
def Lane.abandonRegs (x : Lane) (r : Nat) : Lane :=
  let y := ((x.fset VOTE_READM_AREASON r).fset VOTE_READM_TRIES (satInc 3 (x.fget VOTE_READM_TRIES))).fset VOTE_READM_RSTEP 6
  let y := if satInc 3 (x.fget VOTE_READM_TRIES) = 3 then y.fset VOTE_READM_FAILED 1 else y
  if y.easy then y else y.fset VOTE_STAT_MODE modeOut

theorem Lane.abandonReadm_eq (x : Lane) (r : Nat) : x.abandonReadm r =
    if x.fget VOTE_READM_RSTEP = 0 ∨ x.fget VOTE_READM_RSTEP = 5 ∨ x.fget VOTE_READM_RSTEP = 6 then x
    else { x.abandonRegs r with readm := { readmReset with wait := 16 } } := rfl

theorem Lane.abandonRegs_onlyRegs (x : Lane) (r : Nat) : x.OnlyRegs (x.abandonRegs r) [VOTE_READM, VOTE_STAT] := by
  have hbase : x.OnlyRegs (((x.fset VOTE_READM_AREASON r).fset VOTE_READM_TRIES (satInc 3 (x.fget VOTE_READM_TRIES))).fset VOTE_READM_RSTEP 6)
      [VOTE_READM, VOTE_STAT] :=
    ((x.onlyRegs_fset (f := VOTE_READM_AREASON) _ (by decide)).trans (Lane.onlyRegs_fset _ (f := VOTE_READM_TRIES) _ (by decide))).trans
      (Lane.onlyRegs_fset _ (f := VOTE_READM_RSTEP) _ (by decide))
  unfold Lane.abandonRegs
  extract_lets y z
  have hz : x.OnlyRegs z [VOTE_READM, VOTE_STAT] := by
    show x.OnlyRegs (if _ then y.fset VOTE_READM_FAILED 1 else y) _
    split
    · exact hbase.trans (Lane.onlyRegs_fset _ (f := VOTE_READM_FAILED) _ (by decide))
    · exact hbase
  split
  · exact hz
  · exact hz.trans (Lane.onlyRegs_fset _ (f := VOTE_STAT_MODE) _ (by decide))

theorem Lane.abandonReadm_regsKept (x : Lane) (r : Nat) : x.RegsKept (x.abandonReadm r) [VOTE_READM, VOTE_STAT] := by
  rw [Lane.abandonReadm_eq]
  split
  · exact .refl x _
  · exact fun a ha => (x.abandonRegs_onlyRegs r).2 a ha

/-- An abandoned readmission leaves the links' sequence and timers. -/
theorem Lane.abandonReadm_link (x : Lane) (r k : Nat) : (x.abandonReadm r).link k = x.link k := by
  rw [Lane.abandonReadm_eq]
  split
  · rfl
  · obtain ⟨h, -⟩ := x.abandonRegs_onlyRegs r
    rw [Lane.link, h, Lane.link]

/-! ### What a link shows -/

/-- The registers a link shows are no others'. -/
theorem xl_addr (k : Nat) : (xlUp k).addr = XL_STAT ∧ (xlDown k).addr = XL_STAT ∧ (xlCrcErr k).addr = xlErr k ∧ (xlSeqErr k).addr = xlErr k ∧
    (xlRetry k).addr = xlErr k ∧ xlErr k ≠ XL_STAT ∧ xlErr k ∉ [XL_STAT, LCTL_IRQ_PEND, VOTE_READM, VOTE_STAT] := by
  simp only [xlUp, xlDown, xlCrcErr, xlSeqErr, xlRetry, xlErr]
  split <;> decide

theorem xl_fields (k : Nat) : (xlUp k).w = 1 ∧ (xlUp k).lo + 1 ≤ 32 ∧ (xlDown k).w = 1 ∧ (xlDown k).lo + 1 ≤ 32 ∧
    ((xlUp k).lo + 1 ≤ (xlDown k).lo) ∧ (xlCrcErr k).lo + (xlCrcErr k).w ≤ 32 ∧ (xlSeqErr k).lo + (xlSeqErr k).w ≤ 32 ∧
    (xlRetry k).lo + (xlRetry k).w ≤ 32 := by
  simp only [xlUp, xlDown, xlCrcErr, xlSeqErr, xlRetry]
  split <;> decide

theorem Lane.link_modLink_same (x : Lane) (k : Nat) (f : LinkEnd → LinkEnd) : (x.modLink k f).link k = f (x.link k) := by
  unfold Lane.modLink Lane.link
  split <;> rfl

@[simp] theorem Lane.modLink_reg (x : Lane) (k : Nat) (f : LinkEnd → LinkEnd) : (x.modLink k f).reg = x.reg := by
  unfold Lane.modLink
  split <;> rfl

theorem Lane.linkUp_congr {x y : Lane} (h : x.rg XL_STAT = y.rg XL_STAT) (k : Nat) : x.linkUp k = y.linkUp k := by
  rw [Lane.linkUp, Lane.on, Lane.fget, (xl_addr k).1, h, Lane.linkUp, Lane.on, Lane.fget, (xl_addr k).1]

/-! ### A link taken down (R160) -/

/-- The registers of a link that goes down. -/
def Lane.downRegs (x : Lane) (k : Nat) : Lane := ((x.fset (xlUp k) 0).fset (xlDown k) 1).raise 3

theorem Lane.takeLinkDown_of_up {x : Lane} {k : Nat} (h : x.linkUp k = true) :
    x.takeLinkDown k = ((x.downRegs k).abandonReadm 0x01).modLink k fun e => { e with goodRun := 0, retryAsked := false } := by
  rw [Lane.takeLinkDown, if_pos h]
  rfl

theorem Lane.downRegs_spec (x : Lane) (k : Nat) :
    x.OnlyRegs (x.downRegs k) [XL_STAT, LCTL_IRQ_PEND] ∧ (x.downRegs k).linkUp k = false ∧ (x.downRegs k).on (xlDown k) = true := by
  obtain ⟨hup, hdown, -⟩ := xl_addr k
  obtain ⟨hwu, hlu, hwd, hld, hlt, -⟩ := xl_fields k
  have hregs : x.OnlyRegs (x.downRegs k) [XL_STAT, LCTL_IRQ_PEND] :=
    ((x.onlyRegs_fset (f := xlUp k) 0 (by rw [hup]; decide)).trans (Lane.onlyRegs_fset _ (f := xlDown k) 1 (by rw [hdown]; decide))).trans
      ⟨rfl, fun a ha => Lane.rg_raise_ne _ _ fun e => absurd (e ▸ ha : LCTL_IRQ_PEND ∉ _) (by decide)⟩
  refine ⟨hregs, ?_, ?_⟩
  · rw [Lane.linkUp, Lane.on, Lane.downRegs, Lane.fget_raise_ne _ _ (by rw [hup]; decide), Lane.fget_fset_bits _ _ (by rw [hup, hdown]) (by omega) (.inl (by omega)),
      Lane.fget_fset_same _ _ _ (by omega)]
    rw [Nat.zero_mod]
    rfl
  · rw [Lane.on, Lane.downRegs, Lane.fget_raise_ne _ _ (by rw [hdown]; decide), Lane.fget_fset_same _ _ _ (by omega), hwd]
    rfl

theorem Lane.takeLinkDown_spec {x : Lane} {k : Nat} (h : x.linkUp k = true) :
    x.RegsKept (x.takeLinkDown k) [XL_STAT, LCTL_IRQ_PEND, VOTE_READM, VOTE_STAT] ∧ (x.takeLinkDown k).linkUp k = false ∧
      (x.takeLinkDown k).on (xlDown k) = true := by
  obtain ⟨⟨-, hregs⟩, hdown, hset⟩ := x.downRegs_spec k
  have hkept := (x.downRegs k).abandonReadm_regsKept 0x01
  have hstat : (x.takeLinkDown k).rg XL_STAT = (x.downRegs k).rg XL_STAT := by
    rw [Lane.takeLinkDown_of_up h, Lane.rg, Lane.modLink_reg]
    exact hkept _ (by decide)
  refine ⟨fun a ha => ?_, ?_, ?_⟩
  · have hmem : a ∉ [XL_STAT, LCTL_IRQ_PEND] ∧ a ∉ [VOTE_READM, VOTE_STAT] := by
      simp only [List.mem_cons, List.not_mem_nil, or_false, not_or] at ha ⊢
      exact ⟨⟨ha.1, ha.2.1⟩, ha.2.2.1, ha.2.2.2⟩
    rw [Lane.takeLinkDown_of_up h, Lane.rg, Lane.modLink_reg]
    exact (hkept a hmem.2).trans (hregs a hmem.1)
  · rw [Lane.linkUp_congr hstat]
    exact hdown
  · rw [Lane.on, Lane.fget, (xl_addr k).2.1, hstat, ← (xl_addr k).2.1]
    exact hset

/-! ### What a lost link does to the lanes (R171) -/

/-- The state with any readmission abandoned. -/
def State.abandonAll (s : State) : State := allLanes.foldl (fun (z : State) y => z.modLane y (·.abandonReadm 0x01)) s

theorem State.abandonAll_lane (s : State) (y : LaneId) : s.abandonAll.lane y = (s.lane y).abandonReadm 0x01 := by
  obtain ⟨h, -⟩ := State.foldl_modLane (·.abandonReadm 0x01) allLanes (by decide) s
  exact (h y).trans (if_pos (by cases y <;> decide))

theorem State.linksAfter_eq (s s' : State) : s.linksAfter s' = s' ∨ s.linksAfter s' = s'.abandonAll := by
  unfold State.linksAfter
  split
  · exact .inl rfl
  · exact .inr rfl

theorem State.linksAfter_of_kept {s s' : State} (h : ∀ y, (s'.lane y).rg XL_STAT = (s.lane y).rg XL_STAT) : s.linksAfter s' = s' := by
  have hdown : s'.downLinks = s.downLinks :=
    List.filter_congr fun y _ => by rw [State.linkDown, State.linkDown, Lane.linkUp_congr (h y), Lane.linkUp_congr (h y.succ)]
  unfold State.linksAfter
  refine if_pos ?_
  rw [hdown]
  exact List.all_eq_true.2 fun y hy => List.contains_iff_mem.2 hy

theorem State.OnlyLane.linksAfter {s s' : State} {l : LaneId} (h : s.OnlyLane s' l) : s.LinkStep (s.linksAfter s') l := by
  obtain ⟨hlanes, hhub, heq⟩ := h
  obtain hl | hl := s.linksAfter_eq s'
  · rw [hl]
    exact ⟨fun k hk => .inl (hlanes k hk), hhub, heq⟩
  · rw [hl]
    refine ⟨fun k hk => .inr ?_, hhub, ?_⟩
    · rw [State.abandonAll_lane, hlanes k hk]
    · exact congrArg (fun t : State => { t with la := s'.la.abandonReadm 0x01, lb := s'.lb.abandonReadm 0x01, lc := s'.lc.abandonReadm 0x01 }) heq

/-- What `linksAfter` leaves of a lane: every register but those of a readmission, and the links. -/
theorem State.linksAfter_lane (s s' : State) (y : LaneId) :
    (s'.lane y).RegsKept ((s.linksAfter s').lane y) [VOTE_READM, VOTE_STAT] ∧ ∀ k, ((s.linksAfter s').lane y).link k = (s'.lane y).link k := by
  obtain hl | hl := s.linksAfter_eq s'
  · rw [hl]
    exact ⟨.refl _ _, fun _ => rfl⟩
  · rw [hl, State.abandonAll_lane]
    exact ⟨Lane.abandonReadm_regsKept _ _, Lane.abandonReadm_link _ _⟩

/-! ### A frame on a link that is up (R160) -/

/-- The frame passes: its check value and its sequence. -/
def Lane.frameGood (x : Lane) (k : Nat) (seq : Word) (body : List Byte) (crc : Word) : Prop :=
  crc.toNat = crc32c (beBytes 4 seq.toNat ++ body) ∧ seq = (x.link k).expSeq

/-- The lane with a frame that did not pass counted. -/
def Lane.frameCounted (x : Lane) (k : Nat) (seq : Word) (body : List Byte) (crc : Word) : Lane :=
  if crc.toNat = crc32c (beBytes 4 seq.toNat ++ body) then x.fsat (xlSeqErr k) 1 else x.fsat (xlCrcErr k) 1

section Frame
variable {x : Lane} {k : Nat} (seq : Word) (body : List Byte) (crc : Word) (again : Bool) (tm : Nat)

theorem Lane.linkFrame_good (h : x.frameGood k seq body crc) : x.linkFrame k seq body crc again tm =
    x.modLink k fun e => { e with lastValid := tm, expSeq := seq + 1, goodRun := satInc 1000 e.goodRun, retryAsked := false } := by
  obtain ⟨hcrc, hseq⟩ := h
  have hok : (crc.toNat == xlCrcOf seq body && (seq == (x.link k).expSeq || (!x.linkUp k && (x.link k).goodRun == 0))) = true := by
    rw [beq_iff_eq.2 (show crc.toNat = xlCrcOf seq body from hcrc), beq_iff_eq.2 hseq]
    rfl
  unfold Lane.linkFrame
  simp only [hok, if_true]

theorem Lane.linkFrame_bad (hup : x.linkUp k = true) (h : ¬ x.frameGood k seq body crc) : x.linkFrame k seq body crc again tm =
    if again then (x.frameCounted k seq body crc).takeLinkDown k
    else ((x.frameCounted k seq body crc).fsat (xlRetry k) 1).modLink k fun e => { e with retryAsked := true, goodRun := 0 } := by
  have hbad : (crc.toNat == xlCrcOf seq body && (seq == (x.link k).expSeq || (!x.linkUp k && (x.link k).goodRun == 0))) = false := by
    rw [hup, Bool.not_true, Bool.false_and, Bool.or_false]
    refine Bool.eq_false_iff.2 fun hand => h ?_
    obtain ⟨hc, hs⟩ := Bool.and_eq_true_iff.1 hand
    exact ⟨eq_of_beq hc, eq_of_beq hs⟩
  have hcount : (if (crc.toNat == xlCrcOf seq body) = true then x.fsat (xlSeqErr k) 1 else x.fsat (xlCrcErr k) 1) = x.frameCounted k seq body crc :=
    if_congr beq_iff_eq rfl rfl
  have hstill : (x.frameCounted k seq body crc).linkUp k = true := by
    rw [← hup]
    refine Lane.linkUp_congr ?_ k
    unfold Lane.frameCounted
    split
    · exact x.rg_fset_ne _ (by rw [(xl_addr k).2.2.2.1]; exact (xl_addr k).2.2.2.2.2.1.symm)
    · exact x.rg_fset_ne _ (by rw [(xl_addr k).2.2.1]; exact (xl_addr k).2.2.2.2.2.1.symm)
  unfold Lane.linkFrame
  simp only [hbad, hcount, hstill, Bool.not_true, Bool.false_eq_true, if_false]

end Frame

/-- The counts of a link are fields of one register that do not overlap. -/
theorem Lane.frameCounted_counts (x : Lane) (k : Nat) (seq : Word) (body : List Byte) (crc : Word) :
    x.OnlyRegs (x.frameCounted k seq body crc) [xlErr k] ∧
      (crc.toNat ≠ crc32c (beBytes 4 seq.toNat ++ body) →
        (x.frameCounted k seq body crc).fget (xlCrcErr k) = satAdd (ones (xlCrcErr k).w) (x.fget (xlCrcErr k)) 1) ∧
      (crc.toNat = crc32c (beBytes 4 seq.toNat ++ body) →
        (x.frameCounted k seq body crc).fget (xlSeqErr k) = satAdd (ones (xlSeqErr k).w) (x.fget (xlSeqErr k)) 1) ∧
      (x.frameCounted k seq body crc).fget (xlRetry k) = x.fget (xlRetry k) := by
  obtain ⟨-, -, hcrc, hseq, hretry, -⟩ := xl_addr k
  obtain ⟨-, -, -, -, -, hcw, hsw, -⟩ := xl_fields k
  have hdis : (xlRetry k).lo + (xlRetry k).w ≤ 32 ∧ (xlSeqErr k).lo + (xlSeqErr k).w ≤ (xlRetry k).lo ∧ (xlCrcErr k).lo + (xlCrcErr k).w ≤ (xlRetry k).lo := by
    simp only [xlRetry, xlSeqErr, xlCrcErr]
    split <;> decide
  unfold Lane.frameCounted
  split
  · next h =>
    refine ⟨x.onlyRegs_fset (f := xlSeqErr k) _ (by rw [hseq]; exact List.mem_singleton.2 rfl), fun hn => absurd h hn, fun _ => ?_, ?_⟩
    · rw [satAdd_eq_min]
      exact x.fget_fsat_same _ _ hsw
    · exact Lane.fget_fset_bits (f := xlSeqErr k) _ _ (by rw [hretry, hseq]) hdis.1 (.inr hdis.2.1)
  · next h =>
    refine ⟨x.onlyRegs_fset (f := xlCrcErr k) _ (by rw [hcrc]; exact List.mem_singleton.2 rfl), fun _ => ?_, fun hc => absurd hc h, ?_⟩
    · rw [satAdd_eq_min]
      exact x.fget_fsat_same _ _ hcw
    · exact Lane.fget_fset_bits (f := xlCrcErr k) _ _ (by rw [hretry, hcrc]) hdis.1 (.inr hdis.2.2)

theorem Lane.linkFrame_bad_again {x : Lane} {k : Nat} (seq : Word) (body : List Byte) (crc : Word) (tm : Nat) (hup : x.linkUp k = true)
    (h : ¬ x.frameGood k seq body crc) :
    let y := x.linkFrame k seq body crc true tm
    (x.frameCounted k seq body crc).RegsKept y [XL_STAT, LCTL_IRQ_PEND, VOTE_READM, VOTE_STAT] ∧ y.linkUp k = false ∧ y.on (xlDown k) = true := by
  obtain ⟨⟨-, hregs⟩, -⟩ := x.frameCounted_counts k seq body crc
  dsimp only
  rw [Lane.linkFrame_bad seq body crc true tm hup h, if_pos rfl]
  refine Lane.takeLinkDown_spec ?_
  rw [← hup]
  exact Lane.linkUp_congr (hregs _ (by simpa using (xl_addr k).2.2.2.2.2.1.symm)) k

theorem Lane.linkFrame_bad_first {x : Lane} {k : Nat} (seq : Word) (body : List Byte) (crc : Word) (tm : Nat) (hup : x.linkUp k = true)
    (h : ¬ x.frameGood k seq body crc) :
    let y := x.linkFrame k seq body crc false tm
    y.reg = ((x.frameCounted k seq body crc).fsat (xlRetry k) 1).reg ∧ (y.link k).retryAsked = true := by
  dsimp only
  rw [Lane.linkFrame_bad seq body crc false tm hup h, if_neg (by decide), Lane.modLink_reg, Lane.link_modLink_same]
  exact ⟨rfl, rfl⟩

/-- A change of one lane that leaves what its links show abandons nothing. -/
theorem State.OnlyLane.linksAfter_eq {s s' : State} {l : LaneId} (h : s.OnlyLane s' l) (hx : (s'.lane l).rg XL_STAT = (s.lane l).rg XL_STAT) :
    s.linksAfter s' = s' :=
  State.linksAfter_of_kept fun y => by
    by_cases hy : y = l
    · rw [hy, hx]
    · rw [h.1 y hy]

theorem Lane.link_at (x : Lane) (t k : Nat) : (x.at t).link k = x.link k := rfl

theorem Lane.link_noted (x : Lane) (ns : List RecNote) (k : Nat) : ({ x with notes := ns } : Lane).link k = x.link k := rfl

theorem xlErr_not_mem (k : Nat) : xlErr k ∉ [VOTE_READM, VOTE_STAT] ∧ xlErr k ∉ [XL_STAT, LCTL_IRQ_PEND, VOTE_READM, VOTE_STAT] := by
  unfold xlErr
  split <;> decide

/-- Settles O22: each row changes its own link; a link that goes down abandons the readmissions and nothing else of another lane. -/
theorem linksGoDownAndComeUpByTheirRules : Obligations.LinksGoDownAndComeUpByTheirRules := by
  refine ⟨?frame, ?timeout, ?comesUp, ?retrain, ?command, ?clear, ?idle⟩
  case frame =>
    intro s l k seq body crc again tm hl hk hup
    obtain ⟨honly, hlane⟩ := s.upLane_laneAt_next l tm (·.linkFrame k seq body crc again tm) hl
    refine ⟨_, rfl, honly.linksAfter, ?_⟩
    obtain ⟨hkept, hlink⟩ := s.linksAfter_lane ((s.laneAt l tm).upLane l (·.linkFrame k seq body crc again tm)) l
    rw [hlane] at hkept hlink
    have hat : ((s.lane l).at tm).linkUp k = true := hup
    obtain ⟨⟨-, hcount⟩, hcrc, hseq, hretry⟩ := ((s.lane l).at tm).frameCounted_counts k seq body crc
    have herr := xlErr_not_mem k
    obtain ⟨hau, had, hac, has, har, -⟩ := xl_addr k
    have hbad (h : ¬ ((s.lane l).at tm).frameGood k seq body crc) (f : Fld) (hf : f.addr = xlErr k) :
        (((s.lane l).at tm).linkFrame k seq body crc again tm).fget f = if again then (((s.lane l).at tm).frameCounted k seq body crc).fget f
          else ((((s.lane l).at tm).frameCounted k seq body crc).fsat (xlRetry k) 1).fget f := by
      cases again with
      | true => exact (Lane.linkFrame_bad_again seq body crc tm hat h).1.fget (by rw [hf]; exact herr.2)
      | false => exact Lane.fget_of_reg_eq (Lane.linkFrame_bad_first seq body crc tm hat h).1 f
    have hdis : (xlCrcErr k).lo + (xlCrcErr k).w ≤ (xlRetry k).lo ∧ (xlSeqErr k).lo + (xlSeqErr k).w ≤ (xlRetry k).lo := by
      simp only [xlCrcErr, xlSeqErr, xlRetry]
      split <;> decide
    obtain ⟨-, -, -, -, -, hcw, hsw, hrw⟩ := xl_fields k
    refine ⟨?good, ?crc, ?seq, ?first, ?again⟩
    case good =>
      intro hg
      have hf := Lane.linkFrame_good seq body crc again tm (x := (s.lane l).at tm) hg
      rw [hf] at hlane
      rw [honly.linksAfter_eq (by rw [hlane, Lane.rg_noted, Lane.rg, Lane.modLink_reg]; rfl), hlane, Lane.link_noted, Lane.link_modLink_same]
      exact ⟨(Lane.modLink_reg _ _ _), rfl, rfl⟩
    case crc =>
      intro hn
      rw [hkept.fget (by rw [hac]; exact herr.1), Lane.fget_noted, hbad (fun h => hn h.1) _ hac]
      refine Eq.trans ?_ (hcrc hn)
      split
      · rfl
      · exact Lane.fget_fset_bits _ _ (by rw [hac, har]) hcw (.inl hdis.1)
    case seq =>
      rintro ⟨hc, hs⟩
      rw [hkept.fget (by rw [has]; exact herr.1), Lane.fget_noted, hbad (fun h => hs h.2) _ has]
      refine Eq.trans ?_ (hseq hc)
      split
      · rfl
      · exact Lane.fget_fset_bits _ _ (by rw [has, har]) hsw (.inl hdis.2)
    case first =>
      rintro hn rfl
      obtain ⟨hreg, hasked⟩ := Lane.linkFrame_bad_first seq body crc tm hat hn
      refine ⟨?_, ?_, ?_⟩
      · rw [← hup]
        refine Lane.linkUp_congr ((hkept _ (by decide)).trans ?_) k
        rw [Lane.rg_noted, Lane.rg, hreg]
        exact (Lane.rg_fset_ne _ _ (by rw [har]; exact (xl_addr k).2.2.2.2.2.1.symm)).trans (hcount _ (by simpa using (xl_addr k).2.2.2.2.2.1.symm))
      · rw [hlink, Lane.link_noted]
        exact hasked
      · rw [hkept.fget (by rw [har]; exact herr.1), Lane.fget_noted, Lane.fget_of_reg_eq hreg, Lane.fget_fsat_same _ _ _ hrw, hretry, satAdd_eq_min]
        rfl
    case again =>
      rintro hn rfl
      obtain ⟨-, hdown, hset⟩ := Lane.linkFrame_bad_again seq body crc tm hat hn
      refine ⟨?_, ?_⟩
      · rw [Lane.linkUp, hkept.on (by rw [hau]; decide), Lane.on_noted]
        exact hdown
      · rw [hkept.on (by rw [had]; decide), Lane.on_noted]
        exact hset
  case timeout =>
    intro s l k tm hl hk hup
    obtain ⟨honly, hlane⟩ := s.upLane_laneAt_next l tm (·.linkTimeout k tm) hl
    refine ⟨_, rfl, honly.linksAfter, ?_⟩
    have hat : ((s.lane l).at tm).linkUp k = true := hup
    by_cases ht : tm < ((s.lane l).link k).lastValid + 10000
    · have hstay : ((s.lane l).at tm).linkTimeout k tm = (s.lane l).at tm := by
        rw [Lane.linkTimeout, if_neg]
        rw [Lane.link_at, decide_eq_false (Nat.not_le.2 ht), Bool.and_false]
        decide
      rw [hstay] at hlane
      rw [honly.linksAfter_eq (by rw [hlane]; rfl), hlane, decide_eq_true ht]
      exact ⟨hup, fun _ => rfl⟩
    · have hdown : ((s.lane l).at tm).linkTimeout k tm = ((s.lane l).at tm).takeLinkDown k := by
        rw [Lane.linkTimeout, if_pos]
        rw [hat, Lane.link_at, decide_eq_true (Nat.not_lt.1 ht)]
        rfl
      obtain ⟨hkept, -⟩ := s.linksAfter_lane ((s.laneAt l tm).upLane l (·.linkTimeout k tm)) l
      rw [hlane, hdown] at hkept
      refine ⟨?_, fun h => absurd h ht⟩
      rw [Lane.linkUp, hkept.on (by rw [(xl_addr k).1]; decide), Lane.on_noted, decide_eq_false ht]
      exact (Lane.takeLinkDown_spec hat).2.1
  case comesUp =>
    intro s l k hl hk hup
    obtain ⟨honly, hlane⟩ := s.upLane_next l (·.linkComesUp k) hl
    refine ⟨_, rfl, honly, ?_⟩
    obtain ⟨hwu, hlu, -⟩ := xl_fields k
    by_cases hrun : ((s.lane l).link k).goodRun < 1000
    · rw [Lane.linkComesUp, if_pos hrun] at hlane
      rw [hlane, decide_eq_false (Nat.not_le.2 hrun)]
      exact ⟨(Lane.OnlyRegs.refl _ _).notes _, hup⟩
    · rw [Lane.linkComesUp, if_neg hrun] at hlane
      rw [hlane, decide_eq_true (Nat.not_lt.1 hrun), Lane.linkUp, Lane.on_noted]
      exact ⟨(Lane.onlyRegs_fset _ _ (by rw [(xl_addr k).1]; exact List.mem_singleton.2 rfl)).notes _, Lane.on_fset_one _ _ hlu hwu⟩
  case retrain =>
    intro s l k tm hl hk hup htrain
    obtain ⟨honly, hlane⟩ := s.upLane_laneAt_next l tm (·.retrainTimer k tm) hl
    refine ⟨_, rfl, honly, ?_⟩
    have hguard : (!((s.lane l).at tm).linkUp k && ((((s.lane l).at tm).link k).lastTrain == 0 ||
        decide ((((s.lane l).at tm).link k).lastTrain + 10000000 ≤ tm))) = decide (((s.lane l).link k).lastTrain + 10000000 ≤ tm) := by
      rw [show ((s.lane l).at tm).linkUp k = false from hup, Lane.link_at, beq_eq_false_iff_ne.2 htrain, Bool.not_false, Bool.true_and, Bool.false_or]
    have htimer : ((s.lane l).at tm).retrainTimer k tm = if decide (((s.lane l).link k).lastTrain + 10000000 ≤ tm) = true then
        ((s.lane l).at tm).modLink k fun e => { e with lastTrain := tm, goodRun := 0 } else (s.lane l).at tm := by
      rw [← hguard]
      rfl
    rw [hlane, htimer]
    split
    · next h =>
      rw [if_pos (of_decide_eq_true h), Lane.link_noted, Lane.link_modLink_same]
      exact ⟨Lane.modLink_reg _ _ _, rfl⟩
    · next h =>
      rw [if_neg (fun hle => h (decide_eq_true hle))]
      exact ⟨rfl, rfl⟩
  case command =>
    intro s l k hl hk hup
    obtain ⟨honly, hlane⟩ := s.upLane_next l (·.retrainNow k s.now) hl
    obtain ⟨hkept, hlink⟩ := s.linksAfter_lane (s.upLane l (·.retrainNow k s.now)) l
    obtain ⟨hregs, hdown, hset⟩ := Lane.takeLinkDown_spec hup
    have hreg : ((s.lane l).retrainNow k s.now).reg = ((s.lane l).takeLinkDown k).reg := Lane.modLink_reg _ _ _
    rw [hlane] at hkept hlink
    refine ⟨_, rfl, honly.linksAfter, ?_, ?_, ?_, fun a ha => ?_⟩
    · rw [Lane.linkUp, hkept.on (by rw [(xl_addr k).1]; decide), Lane.on_noted, Lane.on_of_reg_eq hreg]
      exact hdown
    · rw [hkept.on (by rw [(xl_addr k).2.1]; decide), Lane.on_noted, Lane.on_of_reg_eq hreg]
      exact hset
    · rw [hlink, Lane.link_noted, Lane.retrainNow, Lane.link_modLink_same]
    · have ha' : a ∉ [VOTE_READM, VOTE_STAT] := by
        simp only [List.mem_cons, List.not_mem_nil, or_false, not_or] at ha ⊢
        exact ha.2.2
      rw [hkept a ha', Lane.rg_noted, Lane.rg, hreg]
      exact hregs a ha
  case clear =>
    intro s l k hl hk
    obtain ⟨honly, hlane⟩ := s.upLane_next l (·.setRg (xlErr k) 0) hl
    refine ⟨_, rfl, honly, ?_⟩
    rw [hlane, Lane.rg_noted]
    exact ⟨(Lane.onlyRegs_setRg _ _ (List.mem_singleton.2 rfl)).notes _, Lane.rg_setRg_same _ _ _⟩
  case idle =>
    intro s l k tm hl hk hsent
    obtain ⟨honly, hlane⟩ := s.upLane_laneAt_next l tm (·.idleSend k tm) hl
    refine ⟨_, rfl, honly, ?_⟩
    have hsend : ((s.lane l).at tm).idleSend k tm = if ((s.lane l).link k).lastSent + 2000 ≤ tm ∨ ((s.lane l).link k).lastSent = 0 then
        ((s.lane l).at tm).modLink k fun e => { e with lastSent := tm, txSeq := e.txSeq + 1 } else (s.lane l).at tm := by
      rw [← (s.lane l).link_at tm]
      rfl
    rw [hlane, hsend]
    split
    · next h =>
      rw [if_pos (h.resolve_right hsent), Lane.link_noted, Lane.link_modLink_same]
      exact ⟨Lane.modLink_reg _ _ _, rfl⟩
    · next h =>
      rw [if_neg (fun hle => h (.inl hle))]
      exact ⟨rfl, rfl⟩

end Sys2Proof.Machine
end

section
/-! PROOFS. The windows of the route engine, its load check and its lock (R79, R82, R96, R99): what a word written reads back as, what an error of the
word read does to the lane, what a check and a lock leave as it was. -/

namespace Sys2Proof.Machine

/-! ### The leave of a voter, whoever stays (R164, R166) -/

/-- What a voter out of reset is after its leave: as the leave takes it out, or in easy all from there when it was the last. -/
def Lane.LeftAs (x y : Lane) (reason ctx seg due cause : Nat) : Prop :=
  y = x.leaveNow reason ctx seg due cause ∨ ∃ split c, y = (x.leaveNow reason ctx seg due cause).enterEasy split c false

theorem State.leave_lane {s : State} {l : LaneId} (hl : (s.lane l).rst.held = false) (he : (s.lane l).easy = false) (hv : (s.lane l).inVote = true)
    (reason ctx seg due cause : Nat) : (s.lane l).LeftAs ((s.leave l reason ctx seg due cause).lane l) reason ctx seg due cause := by
  by_cases ho : ∃ y, y ≠ l ∧ (s.lane y).inVote = true
  · obtain ⟨y, hy, hyv⟩ := ho
    exact .inl (State.leave_of_voter he hv hy hyv reason ctx seg due cause).2
  · obtain ⟨c, hc⟩ := State.leave_of_last he hv (fun y hy => Bool.eq_false_iff.2 fun h => ho ⟨y, hy, h⟩) reason ctx seg due cause
    rw [hc, State.markEasy_lane]
    generalize hz : (s.setLane l ((s.lane l).leaveNow reason ctx seg due cause)).recLane l 1 2 164
      [(1, l.code), (1, reason), (4, (s.lane l).stroke.toNat), (2, ctx * 8192 + seg % 8192)] = z
    have hlane : z.lane l = (s.lane l).leaveNow reason ctx seg due cause := by rw [← hz, State.recLane_lane, State.lane_setLane]
    have hup : (z.lane l).up = true :=
      State.up_of_not_held (by rw [hlane, ((s.lane l).leaveNow_rest reason ctx seg due cause).2.1]; exact hl)
    exact .inr ⟨z.split, c, by rw [State.enterEasyAll_lane_of_mem allLanes c z (by decide) (by cases l <;> decide) hup, hlane]⟩

theorem Lane.leaveNow_cells (x : Lane) (reason ctx seg due cause : Nat) : (x.leaveNow reason ctx seg due cause).cells = x.cells := by
  unfold Lane.leaveNow
  simp only [Lane.stopDyn, Lane.setInset, Lane.sendNotice, Lane.fsat]
  split <;> simp only [Lane.fset, Lane.setRg, Lane.raise]

theorem Lane.abandonReadm_cells (x : Lane) (r : Nat) : (x.abandonReadm r).cells = x.cells := by
  rw [Lane.abandonReadm_eq]
  split
  · rfl
  · obtain ⟨h, -⟩ := x.abandonRegs_onlyRegs r
    exact (congrArg Lane.cells h :)

theorem Lane.enterEasy_cells (x : Lane) (split : Bool) (cause : Nat) (peer : Bool) : (x.enterEasy split cause peer).cells = x.cells := by
  unfold Lane.enterEasy
  split
  · rfl
  · rw [← x.abandonReadm_cells 0x06]
    generalize x.abandonReadm 0x06 = z
    simp only [Lane.stopDyn, Lane.sendNotice, Lane.raise, Lane.fset, Lane.setRg]

theorem Lane.leaveNow_easy (x : Lane) (reason ctx seg due cause : Nat) : (x.leaveNow reason ctx seg due cause).easy = false := by
  rw [Lane.easy, Lane.mode, Lane.leaveNow_mode]
  rfl

theorem Lane.enterEasy_leaveReason {x : Lane} (h : x.easy = false) (split : Bool) (cause : Nat) (peer : Bool) :
    (x.enterEasy split cause peer).fget VOTE_LEAVE_REASON = x.fget VOTE_LEAVE_REASON := by
  rw [Lane.enterEasy_fget split cause peer h]
  simp (disch := decide) only [Lane.easyRegs, Lane.fget_fset_addr, Lane.fget_raise_ne]
  exact (x.abandonReadm_regsKept 0x06).fget (by decide)

theorem Lane.LeftAs.cells {x y : Lane} {reason ctx seg due cause : Nat} (h : x.LeftAs y reason ctx seg due cause) : y.cells = x.cells := by
  obtain rfl | ⟨split, c, rfl⟩ := h
  · exact x.leaveNow_cells _ _ _ _ _
  · rw [Lane.enterEasy_cells, Lane.leaveNow_cells]

theorem Lane.LeftAs.inVote {x y : Lane} {reason ctx seg due cause : Nat} (h : x.LeftAs y reason ctx seg due cause) : y.inVote = false := by
  obtain rfl | ⟨split, c, rfl⟩ := h
  · exact x.leaveNow_inVote _ _ _ _ _
  · exact Lane.enterEasy_inVote _ _ _ (x.leaveNow_easy _ _ _ _ _)

theorem Lane.LeftAs.reason {x y : Lane} {reason ctx seg due cause : Nat} (h : x.LeftAs y reason ctx seg due cause) :
    y.fget VOTE_LEAVE_REASON = reason % 2 ^ 8 := by
  obtain rfl | ⟨split, c, rfl⟩ := h
  · exact x.leaveNow_reason _ _ _ _ _
  · rw [Lane.enterEasy_leaveReason (x.leaveNow_easy _ _ _ _ _), Lane.leaveNow_reason]

/-! ### The words of the windows (R79) -/

/-- An area that takes a word written to it unlocked: a cell, the ARD window, the route status, the path store. -/
def RleArea.holds (r : RleArea) : Prop := r ≠ .none ∧ r ≠ .request ∧ r ≠ .result

/-- The address of a word of the windows. -/
def RleArea.addr : RleArea → Nat
  | .cell c k => 0x10000000 + 32 * c + 4 * k
  | .ard k => 0x10200000 + 4 * k
  | .status i => 0x10110000 + 4 * i
  | .store k => 0x10140000 + 4 * k
  | _ => 0

theorem rleArea_addr {a : Nat} (ha : a % 4 = 0) (h : (rleArea a).holds) : (rleArea a).addr = a := by
  obtain ⟨hnone, hreq, hres⟩ := h
  unfold rleArea at hnone hreq hres ⊢
  by_cases h1 : 0x10000000 ≤ a ∧ a < 0x10080000
  · rw [if_pos h1]
    show 0x10000000 + 32 * ((a - 0x10000000) / 32) + 4 * ((a - 0x10000000) / 4 % 8) = a
    omega
  rw [if_neg h1] at hnone hreq hres ⊢
  by_cases h2 : 0x10200000 ≤ a ∧ a < 0x10240000
  · rw [if_pos h2]
    show 0x10200000 + 4 * ((a - 0x10200000) / 4) = a
    omega
  rw [if_neg h2] at hnone hreq hres ⊢
  by_cases h3 : 0x10110000 ≤ a ∧ a < 0x10114000
  · rw [if_pos h3]
    show 0x10110000 + 4 * ((a - 0x10110000) / 4) = a
    omega
  rw [if_neg h3] at hnone hreq hres ⊢
  by_cases h4 : 0x10140000 ≤ a ∧ a < 0x10180000
  · rw [if_pos h4]
    show 0x10140000 + 4 * ((a - 0x10140000) / 4) = a
    omega
  rw [if_neg h4] at hnone hreq hres
  by_cases h5 : 0x10100400 ≤ a ∧ a < 0x10100800
  · rw [if_pos h5] at hreq
    exact absurd rfl hreq
  rw [if_neg h5] at hnone hres
  by_cases h6 : 0x10100800 ≤ a ∧ a < 0x10100C00
  · rw [if_pos h6] at hres
    exact absurd rfl hres
  rw [if_neg h6] at hnone
  exact absurd rfl hnone

/-- Aligned words of the windows stand at addresses of their own. -/
theorem rleArea_inj {a b : Nat} (ha : a % 4 = 0) (hb : b % 4 = 0) (h : (rleArea a).holds) (he : rleArea b = rleArea a) : b = a := by
  rw [← rleArea_addr hb (he ▸ h), he, rleArea_addr ha h]

theorem rleArea_cell_lt {a c k : Nat} (h : rleArea a = .cell c k) : k < 8 := by
  unfold rleArea at h
  split_ifs at h
  injection h with _ hk
  omega

theorem CellRec.word_setWord_same (r : CellRec) {k : Nat} (hk : k < 8) (v : Word) : (r.setWord k v).word k = v := by
  unfold CellRec.setWord CellRec.word
  refine BitVec.eq_of_toNat_eq ?_
  have hv : v.toNat % 2 ^ 32 = v.toNat := Nat.mod_eq_of_lt v.isLt
  split
  · next h => rw [bvField_bvSet_same _ _ _ _ (by omega), BitVec.toNat_ofNat, hv, hv]
  · split
    · next h => rw [bvField_bvSet_same _ _ _ _ (by omega), BitVec.toNat_ofNat, hv, hv]
    · next h => rw [bvField_bvSet_same _ _ _ _ (by omega), BitVec.toNat_ofNat, hv, hv]

theorem CellRec.word_setWord_ne (r : CellRec) {j k : Nat} (hj : j < 8) (h : j ≠ k) (v : Word) : (r.setWord k v).word j = r.word j := by
  unfold CellRec.setWord CellRec.word
  split_ifs with hk hj2 hj6 hk6 hj2 hj6 hj2 hj6
  all_goals first | rfl | rw [bvField_bvSet_ne _ _ _ _ _ _ (by omega) (by omega)]

theorem Lane.cell_setCell_same (x : Lane) (c : Nat) (r : CellRec) : (x.setCell c r).cell c = r := sparseGet_set_same _ _ _ _

theorem Lane.cell_setCell_ne (x : Lane) {c d : Nat} (r : CellRec) (h : d ≠ c) : (x.setCell c r).cell d = x.cell d := sparseGet_set_ne _ _ _ h

theorem Lane.areaWord_putAreaWord_same (x : Lane) {a : Nat} (h : (rleArea a).holds) (v : Word) : (x.putAreaWord a v).areaWord a = v := by
  obtain ⟨hnone, hreq, hres⟩ := h
  unfold Lane.putAreaWord Lane.areaWord
  cases hr : rleArea a with
  | cell c k =>
    dsimp only
    rw [Lane.cell_setCell_same, CellRec.word_setWord_same _ (rleArea_cell_lt hr)]
  | ard k =>
    dsimp only [Lane.ardW]
    rw [sparseGet_set_same, BitVec.ofNat_toNat, BitVec.setWidth_eq]
  | status i => exact sparseGet_set_same _ _ _ _
  | store k => exact sparseGet_set_same _ _ _ _
  | request => exact absurd hr hreq
  | result => exact absurd hr hres
  | none => exact absurd hr hnone

theorem Lane.areaWord_putAreaWord_ne (x : Lane) {a b : Nat} (ha : a % 4 = 0) (hb : b % 4 = 0) (h : (rleArea a).holds) (hne : b ≠ a) (v : Word) :
    (x.putAreaWord a v).areaWord b = x.areaWord b := by
  have hdiff : rleArea b ≠ rleArea a := fun he => hne (rleArea_inj ha hb h he)
  obtain ⟨hnone, hreq, hres⟩ := h
  unfold Lane.putAreaWord Lane.areaWord
  cases hr : rleArea a with
  | cell c k =>
    cases hs : rleArea b with
    | cell d j =>
      dsimp only
      by_cases hd : d = c
      · have hj : j ≠ k := fun e => hdiff (by rw [hr, hs, hd, e])
        rw [hd, Lane.cell_setCell_same, CellRec.word_setWord_ne _ (rleArea_cell_lt hs) hj]
      · rw [Lane.cell_setCell_ne _ _ hd]
    | _ => rfl
  | ard k =>
    cases hs : rleArea b with
    | ard j =>
      dsimp only [Lane.ardW]
      rw [sparseGet_set_ne _ _ _ fun e => hdiff (by rw [hr, hs, e])]
    | _ => rfl
  | status i =>
    cases hs : rleArea b with
    | status j => exact sparseGet_set_ne _ _ _ fun e => hdiff (by rw [hr, hs, e])
    | _ => rfl
  | store k =>
    cases hs : rleArea b with
    | store j => exact sparseGet_set_ne _ _ _ fun e => hdiff (by rw [hr, hs, e])
    | _ => rfl
  | request => exact absurd hr hreq
  | result => exact absurd hr hres
  | none => exact absurd hr hnone

theorem Lane.putAreaWord_rest (x : Lane) {a : Nat} (h : (rleArea a).holds) (v : Word) :
    (x.putAreaWord a v).reg = x.reg ∧ (x.putAreaWord a v).sram = x.sram ∧ (x.putAreaWord a v).rst = x.rst := by
  obtain ⟨hnone, hreq, hres⟩ := h
  unfold Lane.putAreaWord
  cases hr : rleArea a with
  | request => exact absurd hr hreq
  | result => exact absurd hr hres
  | none => exact absurd hr hnone
  | _ => exact ⟨rfl, rfl, rfl⟩

theorem Lane.rleWrite_of_unlocked {x : Lane} (hu : x.on RLE_STAT_LOCKED = false) {a : Nat} (h : (rleArea a).holds) (v : Word) :
    x.rleWrite a v = x.putAreaWord a v := by
  obtain ⟨hnone, hreq, hres⟩ := h
  unfold Lane.rleWrite
  split
  next hr => rfl
  next hr => exact absurd hr hres
  next hr => exact absurd hr hnone
  next hr => rw [hu]; rfl
  next => rw [hu]; rfl

/-- While locked a write of the station data sets `WR_IGN`. -/
theorem Lane.rleWrite_of_locked {x : Lane} (hk : x.on RLE_STAT_LOCKED = true) {a : Nat} (h : (rleArea a).holds)
    (hc : ∀ c, rleArea a = .cell c 1 → x.typ c ≠ tCONDITION) (v : Word) : x.rleWrite a v = x.rleFlag RLE_STAT_WR_IGN := by
  obtain ⟨hnone, hreq, hres⟩ := h
  unfold Lane.rleWrite
  split
  next hr => exact absurd hr hreq
  next hr => exact absurd hr hres
  next hr => exact absurd hr hnone
  next c k hr =>
    rw [hk, if_neg (by decide), if_neg]
    rintro ⟨rfl, ht⟩
    exact hc c hr ht
  next => rw [hk]; rfl

/-- While locked `PVAL` of a CONDITION cell takes a write. -/
theorem Lane.rleWrite_condition {x : Lane} (hk : x.on RLE_STAT_LOCKED = true) {a c : Nat} (hr : rleArea a = .cell c 1)
    (ht : x.typ c = tCONDITION) (v : Word) : x.rleWrite a v = x.putC c fPVAL (bvField v 10 1) := by
  unfold Lane.rleWrite
  rw [hr]
  dsimp only
  rw [hk, if_neg (by decide), if_pos ⟨rfl, ht⟩]

/-! ### Errors of the words read (R417, R418) -/

theorem Lane.RegsKept.easy {x y : Lane} {as : List Nat} (h : x.RegsKept y as) (ha : VOTE_STAT ∉ as) : y.easy = x.easy :=
  by rw [Lane.easy, Lane.mode, h.fget (f := VOTE_STAT_MODE) ha, Lane.easy, Lane.mode]

theorem Lane.RegsKept.inVote {x y : Lane} {as : List Nat} (h : x.RegsKept y as) (ha : VOTE_STAT ∉ as) : y.inVote = x.inVote :=
  h.on (f := VOTE_STAT_INVOTE) ha

/-- A lane with a recorded error that no code corrects (R418). -/
def Lane.uncorrected (x : Lane) (a : Nat) : Lane := (x.fset LCTL_MEMSTAT_UE 1).setRg LCTL_ECCADDR (BitVec.ofNat 32 (a / 4 * 4 + 2))

theorem Lane.uncorrected_onlyRegs (x : Lane) (a : Nat) : x.OnlyRegs (x.uncorrected a) [LCTL_MEMSTAT, LCTL_ECCADDR] :=
  (x.onlyRegs_fset (f := LCTL_MEMSTAT_UE) 1 (by decide)).trans (Lane.onlyRegs_setRg _ _ (by decide))

theorem Lane.corrected_onlyRegs (x : Lane) (a : Nat) : x.OnlyRegs (x.corrected a) [LCTL_MEMSTAT, LCTL_ECCADDR] :=
  ((x.onlyRegs_fset (f := LCTL_MEMSTAT_CECNT) _ (by decide)).trans (Lane.onlyRegs_fset _ (f := LCTL_MEMSTAT_CE) 1 (by decide))).trans
    (Lane.onlyRegs_setRg _ _ (by decide))

theorem Lane.corrected_spec (x : Lane) {a : Word} (ha : a.toNat % 4 = 0) :
    (x.corrected a.toNat).on LCTL_MEMSTAT_CE = true ∧
      (x.corrected a.toNat).fget LCTL_MEMSTAT_CECNT = satAdd (ones LCTL_MEMSTAT_CECNT.w) (x.fget LCTL_MEMSTAT_CECNT) 1 ∧
      (x.corrected a.toNat).rg LCTL_ECCADDR = a := by
  unfold Lane.corrected
  refine ⟨?_, ?_, ?_⟩
  · rw [Lane.on, Lane.fget_setRg_ne _ _ (by decide)]
    exact Lane.on_fset_one _ _ (by decide) rfl
  · rw [Lane.fget_setRg_ne _ _ (by decide), Lane.fget_fset_bits _ (f := LCTL_MEMSTAT_CE) (g := LCTL_MEMSTAT_CECNT) 1 rfl (by decide) (by decide), Lane.fsat, Lane.fget_fset_same _ _ _ (by decide)]
    exact Nat.mod_eq_of_lt (Nat.lt_of_le_of_lt (satAdd_le _ _ _) (by decide))
  · rw [Lane.rg_setRg_same, Nat.div_mul_cancel (Nat.dvd_of_mod_eq_zero ha), BitVec.ofNat_toNat, BitVec.setWidth_eq]

theorem State.laneUncorrectable_eq (s : State) (l : LaneId) (a : Nat) :
    s.laneUncorrectable l a = (s.modLane l (·.uncorrected a)).leaveAtOnce l leaveLaneFault causeSwr := rfl

/-- An error that no code corrects leaves the cells, and takes a lane outside easy all out of the vote with LANE_FAULT (R418). -/
theorem State.laneUncorrectable_lane {s : State} {l : LaneId} (hl : (s.lane l).rst.held = false) (a : Nat) :
    ((s.laneUncorrectable l a).lane l).cells = (s.lane l).cells ∧
      ((s.lane l).easy = false → ((s.laneUncorrectable l a).lane l).inVote = false) ∧
      ((s.lane l).easy = false → (s.lane l).inVote = true → ((s.laneUncorrectable l a).lane l).fget VOTE_LEAVE_REASON = leaveLaneFault) := by
  rw [State.laneUncorrectable_eq]
  generalize hz : s.modLane l (·.uncorrected a) = z
  have hlane : z.lane l = (s.lane l).uncorrected a := by rw [← hz, State.lane_modLane]
  obtain ⟨hframe, hkept⟩ := (s.lane l).uncorrected_onlyRegs a
  have heasy : (z.lane l).easy = (s.lane l).easy := by rw [hlane]; exact hkept.easy (by decide)
  have hvote : (z.lane l).inVote = (s.lane l).inVote := by rw [hlane]; exact hkept.inVote (by decide)
  have hup : (z.lane l).rst.held = false := by rw [hlane, hframe]; exact hl
  have hcells : (z.lane l).cells = (s.lane l).cells := by rw [hlane, hframe]
  unfold State.leaveAtOnce
  cases he : (s.lane l).easy with
  | true =>
    refine ⟨?_, nofun, nofun⟩
    rw [he] at heasy
    unfold State.leave
    dsimp only
    rw [if_pos heasy]
    split
    · rw [State.lane_setLane]
      exact hcells
    · exact hcells
  | false =>
    rw [he] at heasy
    cases hv : (s.lane l).inVote with
    | true =>
      rw [hv] at hvote
      have h := State.leave_lane hup heasy hvote leaveLaneFault 0 0 (z.now + tenMicros) causeSwr
      exact ⟨h.cells.trans hcells, fun _ => h.inVote, fun _ _ => h.reason⟩
    | false =>
      rw [hv] at hvote
      have hstay : z.leave l leaveLaneFault 0 0 (z.now + tenMicros) causeSwr = z := by
        unfold State.leave
        dsimp only
        rw [if_neg (by rw [heasy]; decide), if_neg (by rw [hvote]; decide)]
      rw [hstay]
      exact ⟨hcells, fun _ => hvote, nofun⟩

/-! ### CELL_WINDOW_WRITE -/

section Window

variable {s : State} {l : LaneId} {a : Word} (hl : (s.lane l).rst.held = false)

include hl

theorem exec_cellWindowWrite (hb : (s.lane l).on RLE_STAT_BUSY = false) (ha : a.toNat % 4 = 0) (hr : rleArea a.toNat ≠ .none) (v : Word) (n : Nat) :
    exec (.cellWindowWrite l a (.write v) n) s = .next (s.setLane l ((s.lane l).rleWrite a.toNat v)).busOk := by
  show done _ = _
  unfold opCellWindow
  dsimp only
  rw [hl, if_neg (by decide), if_neg (by simp [hr, ha]), hb, if_neg (by decide)]

theorem exec_cellWindowRead (hb : (s.lane l).on RLE_STAT_BUSY = false) (ha : a.toNat % 4 = 0) (hr : rleArea a.toNat ≠ .none) (n : Nat) :
    exec (.cellWindowWrite l a .read n) s = .next (if (rleArea a.toNat).ecc then s.laneRead l a.toNat n (some ((s.lane l).areaWord a.toNat))
      else s.busData ((s.lane l).areaWord a.toNat)) := by
  show done _ = _
  unfold opCellWindow
  dsimp only
  rw [hl, if_neg (by decide), if_neg (by simp [hr, ha]), hb, if_neg (by decide)]

/-- Outside the aligned areas, and while busy, an access answers with a bus error; while busy it sets `BUS_ERR` too. -/
theorem exec_cellWindow_refused (h : a.toNat % 4 ≠ 0 ∨ (s.lane l).on RLE_STAT_BUSY = true) (acc : Access) (n : Nat) :
    exec (.cellWindowWrite l a acc n) s = .next s.busErr ∨
      exec (.cellWindowWrite l a acc n) s = .next (s.upLane l (·.rleFlag RLE_STAT_BUS_ERR)).busErr := by
  show done _ = _ ∨ done _ = _
  unfold opCellWindow
  dsimp only
  rw [hl, if_neg (by decide)]
  by_cases ha : rleArea a.toNat = .none ∨ a.toNat % 4 ≠ 0
  · rw [if_pos ha]
    exact .inl rfl
  · rw [if_neg ha, if_pos (h.resolve_left fun h' => ha (.inr h'))]
    exact .inr rfl

end Window

/-! ### What the load check reads: cells, ARD window and pool, no register -/

theorem Lane.treeLoop_congr {x y : Lane} (hn : y.neighbour = x.neighbour) (ht : y.typ = x.typ) (ids : List Nat) (exit n : Nat)
    (ps : List (List Nat × Nat × Nat)) (visits : Nat) : y.treeLoop ids exit n ps visits = x.treeLoop ids exit n ps visits := by
  induction n generalizing ps visits with
  | zero => rfl
  | succ n ih =>
    cases ps with
    | nil => rfl
    | cons p ps => simp only [Lane.treeLoop, hn, ht, ih]

theorem Lane.ovWalk_congr {x y : Lane} (hn : y.neighbour = x.neighbour) (ht : y.typ = x.typ) (p : Option (Nat × Nat)) (es : List Elem) :
    y.ovWalk p es = x.ovWalk p es := by
  induction es generalizing p with
  | nil => cases p <;> rfl
  | cons e es ih =>
    cases p with
    | none => rfl
    | some p => simp only [Lane.ovWalk, hn, ht, ih]

section Read

variable (x : Lane) (r : Sparse Word) (ns : List RecNote)

theorem Lane.chkTree_reg : ({ x with reg := r, notes := ns } : Lane).chkTree = x.chkTree :=
  funext fun j => by
    unfold Lane.chkTree
    rw [Lane.treeLoop_congr (x := x) (y := { x with reg := r, notes := ns }) rfl rfl]
    rfl

theorem Lane.chkOverlap_reg : ({ x with reg := r, notes := ns } : Lane).chkOverlap = x.chkOverlap :=
  funext fun c => by
    unfold Lane.chkOverlap
    dsimp only
    rw [Lane.ovWalk_congr (x := x) (y := { x with reg := r, notes := ns }) rfl rfl]
    rfl

/-- The load check reads no register. -/
theorem Lane.loadError_reg : ({ x with reg := r, notes := ns } : Lane).loadError = x.loadError := by
  unfold Lane.loadError
  rw [x.chkTree_reg, x.chkOverlap_reg]
  generalize upTo 16384 = cells
  generalize upTo 4096 = ents
  rfl

theorem Lane.loadDigest_reg : ({ x with reg := r, notes := ns } : Lane).loadDigest = x.loadDigest := rfl

end Read

theorem Lane.OnlyRegs.loadError {x y : Lane} {as : List Nat} (h : x.OnlyRegs y as) : y.loadError = x.loadError := by
  rw [h.1, Lane.loadError_reg]

theorem Lane.OnlyRegs.loadDigest {x y : Lane} {as : List Nat} (h : x.OnlyRegs y as) : y.loadDigest = x.loadDigest := by
  rw [h.1, Lane.loadDigest_reg]

/-! ### RLE_CHECK: the errors met, and the start (R82, R96) -/

/-- Errors that the code corrects are counted, and the command goes on. -/
theorem State.engineReads_corrected {l : LaneId} (ecc : EccHits) (hecc : ∀ h ∈ ecc, (rleArea (BitVec.toNat h.1)).ecc = true → h.2 ≤ 1) (s : State) :
    ∃ u, s.engineReads l ecc = (u, true) ∧ s.OnlyLane u l ∧ (s.lane l).OnlyRegs (u.lane l) [LCTL_MEMSTAT, LCTL_ECCADDR] ∧
      ((∀ h ∈ ecc, (rleArea (BitVec.toNat h.1)).ecc = true → h.2 = 0) → u = s) := by
  induction ecc generalizing s with
  | nil => exact ⟨s, rfl, .refl s l, .refl _ _, fun _ => rfl⟩
  | cons h hs ih =>
    have htail : ∀ g ∈ hs, (rleArea (BitVec.toNat g.1)).ecc = true → g.2 ≤ 1 := fun g hg => hecc g (List.mem_cons_of_mem _ hg)
    unfold State.engineReads
    by_cases hskip : (!(rleArea h.1.toNat).ecc || h.2 == 0) = true
    · rw [if_pos hskip]
      obtain ⟨u, hu, honly, hregs, hall⟩ := ih htail s
      exact ⟨u, hu, honly, hregs, fun hz => hall fun g hg => hz g (List.mem_cons_of_mem _ hg)⟩
    · have hstored : (rleArea h.1.toNat).ecc = true ∧ h.2 ≠ 0 := by simpa using hskip
      have hone : h.2 = 1 := by have := hecc h List.mem_cons_self hstored.1; omega
      rw [if_neg hskip, if_pos (by rw [hone]; rfl)]
      obtain ⟨u, hu, honly, hregs, -⟩ := ih htail (s.modLane l (·.corrected h.1.toNat))
      rw [State.lane_modLane] at hregs
      exact ⟨u, hu, (s.onlyLane_modLane l _).trans honly, ((s.lane l).corrected_onlyRegs _).trans hregs,
        fun hz => absurd (hz h List.mem_cons_self hstored.1) hstored.2⟩

theorem Lane.startCheck_spec {x : Lane} (hb : x.on RLE_STAT_BUSY = false) (hk : x.on RLE_STAT_LOCKED = false) :
    x.RegsKept x.startCheck [RLE_STAT] ∧ x.startCheck.on RLE_STAT_BUSY = true ∧ x.startCheck.on RLE_STAT_CHK_OK = false ∧
      x.startCheck.cells = x.cells := by
  have heq : x.startCheck = { (x.fset RLE_STAT_CHK_OK 0).fset RLE_STAT_BUSY 1 with rle := { x.rle with strokeRun := false } } := by
    unfold Lane.startCheck
    rw [if_neg (by rw [hb]; decide), if_neg (by rw [hk]; decide)]
    rfl
  have hreg : x.startCheck.reg = ((x.fset RLE_STAT_CHK_OK 0).fset RLE_STAT_BUSY 1).reg := by rw [heq]
  refine ⟨?_, ?_, ?_, by rw [heq]; rfl⟩
  · exact ((x.regsKept_fset (f := RLE_STAT_CHK_OK) 0 (by decide)).trans (Lane.regsKept_fset _ (f := RLE_STAT_BUSY) 1 (by decide))).trans
      (Lane.regsKept_of_reg_eq hreg _)
  · exact Lane.on_of_reg_fset_one hreg (by decide) rfl
  · rw [Lane.on_of_reg_eq hreg, Lane.on_fset_bits _ (f := RLE_STAT_BUSY) (g := RLE_STAT_CHK_OK) 1 rfl (by decide) (by decide)]
    exact Lane.on_fset_zero _ _ (by decide)

/-! ### RLE_CHECK_DONE: the outcome (R96, R97) -/

/-- What every check that ends does first. -/
def Lane.checkEnded (x : Lane) : Lane := (x.fset RLE_STAT_BUSY 0).rleFlag RLE_STAT_DONE

theorem Lane.checkEnded_onlyRegs (x : Lane) : x.OnlyRegs x.checkEnded [RLE_STAT, LCTL_IRQ_PEND] :=
  (x.onlyRegs_fset (f := RLE_STAT_BUSY) 0 (by decide)).trans (Lane.rleFlag_onlyRegs _ rfl)

theorem Lane.checkEnded_on (x : Lane) :
    x.checkEnded.on RLE_STAT_BUSY = false ∧ x.checkEnded.on RLE_STAT_DONE = true ∧ x.checkEnded.on RLE_STAT_CHK_OK = x.on RLE_STAT_CHK_OK := by
  unfold Lane.checkEnded Lane.on
  simp (disch := decide) only [Lane.fget_rleFlag, Lane.fget_fset_bits, Lane.fget_fset_same]
  decide

/-- A check that found a failure. -/
def Lane.checkFailed (x : Lane) (code kind i : Nat) : Lane :=
  (((x.fset RLE_ERRIDX_CODE code).fset RLE_ERRIDX_KIND kind).fset RLE_ERRIDX_INDEX i).rleFlag RLE_STAT_CHK_ERR

theorem Lane.checkFailed_onlyRegs (x : Lane) (code kind i : Nat) : x.OnlyRegs (x.checkFailed code kind i) [RLE_STAT, LCTL_IRQ_PEND, RLE_ERRIDX] :=
  (((x.onlyRegs_fset (f := RLE_ERRIDX_CODE) code (by decide)).trans (Lane.onlyRegs_fset _ (f := RLE_ERRIDX_KIND) kind (by decide))).trans
    (Lane.onlyRegs_fset _ (f := RLE_ERRIDX_INDEX) i (by decide))).trans ((Lane.rleFlag_onlyRegs _ rfl).mono (by decide))

theorem Lane.checkFailed_shows (x : Lane) (code kind i : Nat) :
    (x.checkFailed code kind i).on RLE_STAT_CHK_ERR = true ∧ (x.checkFailed code kind i).fget RLE_ERRIDX_CODE = code % 16 ∧
      (x.checkFailed code kind i).fget RLE_ERRIDX_KIND = kind % 4 ∧ (x.checkFailed code kind i).fget RLE_ERRIDX_INDEX = i % 65536 := by
  unfold Lane.checkFailed Lane.on
  simp (disch := decide) only [Lane.fget_rleFlag, Lane.fget_fset_bits, Lane.fget_fset_same, Lane.fget_fset_addr]
  exact ⟨rfl, rfl, rfl, rfl⟩

theorem Lane.checkFailed_on (x : Lane) (code kind i : Nat) {f : Fld} (ha : f.addr = RLE_STAT) (hf : f.lo + f.w ≤ 32)
    (hd : f.lo + f.w ≤ RLE_STAT_CHK_ERR.lo ∨ RLE_STAT_CHK_ERR.lo + RLE_STAT_CHK_ERR.w ≤ f.lo) : (x.checkFailed code kind i).on f = x.on f := by
  have h (g : Fld) (hg : g.addr = RLE_ERRIDX) : f.addr ≠ g.addr := by rw [ha, hg]; decide
  unfold Lane.checkFailed Lane.on
  rw [Lane.fget_rleFlag _ (by rw [ha]; decide), Lane.fget_fset_bits _ _ ha hf hd, Lane.fget_fset_addr _ _ (h _ rfl), Lane.fget_fset_addr _ _ (h _ rfl),
    Lane.fget_fset_addr _ _ (h _ rfl)]

/-- A check that found none: the counts of the station data. -/
def Lane.checkCounts (x : Lane) : Lane :=
  let l := (x.fset RLE_STAT_CHK_OK 1).setRg RLE_ERRIDX 0
  let l := l.fset RLE_CELLS_NCELL (l.cells.filter fun e => e.2.typ != tUNUSED).length
  let l := l.fset RLE_ARDN_NPAIR ((upTo 4096).filter l.pValid).length
  l.fset RLE_ARDN_NARD ((upTo 4096).filter l.aValid).length

theorem Lane.checkCounts_onlyRegs (x : Lane) : x.OnlyRegs x.checkCounts [RLE_STAT, RLE_ERRIDX, RLE_CELLS, RLE_ARDN] :=
  ((((x.onlyRegs_fset (f := RLE_STAT_CHK_OK) 1 (by decide)).trans (Lane.onlyRegs_setRg _ 0 (by decide))).trans
    (Lane.onlyRegs_fset _ (f := RLE_CELLS_NCELL) _ (by decide))).trans (Lane.onlyRegs_fset _ (f := RLE_ARDN_NPAIR) _ (by decide))).trans
      (Lane.onlyRegs_fset _ (f := RLE_ARDN_NARD) _ (by decide))

theorem Lane.checkCounts_fget (x : Lane) {f : Fld} (ha : f.addr = RLE_STAT) : x.checkCounts.fget f = (x.fset RLE_STAT_CHK_OK 1).fget f := by
  have h (g : Fld) (hg : g.addr ≠ RLE_STAT) : f.addr ≠ g.addr := by rw [ha]; exact Ne.symm hg
  unfold Lane.checkCounts
  dsimp only
  rw [Lane.fget_fset_addr _ _ (h _ (by decide)), Lane.fget_fset_addr _ _ (h _ (by decide)), Lane.fget_fset_addr _ _ (h _ (by decide)),
    Lane.fget_setRg_ne _ _ (by rw [ha]; decide)]

/-- A check that found none: the digest, which is the station data digest the lane compares (R46). -/
def Lane.checkPassed (x : Lane) (d : Word) : Lane :=
  { x.setRg RLE_DIGEST d with start := { x.start with own := { x.start.own with station := d } } }

theorem Lane.checkPassed_rest (x : Lane) (d : Word) :
    (x.checkPassed d).cells = x.cells ∧ (x.checkPassed d).ard = x.ard ∧ (x.checkPassed d).reg = (x.setRg RLE_DIGEST d).reg ∧
      (x.checkPassed d).start.own.station = d := ⟨rfl, rfl, rfl, rfl⟩

section End

variable {x : Lane} (hb : x.on RLE_STAT_BUSY = true) (hs : x.rle.strokeRun = false)

include hb hs

theorem Lane.endCheck_of_failure {code kind i : Nat} (h : x.loadError = some (code, kind, i)) :
    x.endCheck = x.checkEnded.checkFailed code kind i := by
  unfold Lane.endCheck
  rw [if_pos (by rw [hb, hs]; rfl)]
  extract_lets y
  have hy : y.loadError = some (code, kind, i) := x.checkEnded_onlyRegs.loadError.trans h
  rw [hy]
  rfl

theorem Lane.endCheck_of_pass (h : x.loadError = none) :
    x.endCheck = x.checkEnded.checkCounts.checkPassed (BitVec.ofNat 32 x.loadDigest) := by
  have hdigest : x.checkEnded.checkCounts.loadDigest = x.loadDigest := by
    rw [x.checkEnded.checkCounts_onlyRegs.loadDigest, x.checkEnded_onlyRegs.loadDigest]
  unfold Lane.endCheck
  rw [if_pos (by rw [hb, hs]; rfl)]
  extract_lets y
  have hy : y.loadError = none := x.checkEnded_onlyRegs.loadError.trans h
  rw [hy, ← hdigest]
  rfl

end End

/-- The outcome of a check (R96). -/
theorem Lane.endCheck_spec {x : Lane} (hb : x.on RLE_STAT_BUSY = true) (hs : x.rle.strokeRun = false) :
    x.endCheck.cells = x.cells ∧ x.endCheck.ard = x.ard ∧ x.endCheck.on RLE_STAT_BUSY = false ∧ x.endCheck.on RLE_STAT_DONE = true ∧
      x.endCheck.on RLE_STAT_CHK_OK = (x.loadError.isNone || x.on RLE_STAT_CHK_OK) ∧
      x.endCheck.rg RLE_DIGEST = (if x.loadError.isNone then BitVec.ofNat 32 x.loadDigest else x.rg RLE_DIGEST) ∧
      x.endCheck.start.own.station = (if x.loadError.isNone then x.endCheck.rg RLE_DIGEST else x.start.own.station) ∧
      (∀ code kind i, x.loadError = some (code, kind, i) →
        x.endCheck.on RLE_STAT_CHK_ERR = true ∧ x.endCheck.rg RLE_DIGEST = x.rg RLE_DIGEST ∧ x.endCheck.fget RLE_ERRIDX_CODE = code % 16 ∧
          x.endCheck.fget RLE_ERRIDX_KIND = kind % 4 ∧ x.endCheck.fget RLE_ERRIDX_INDEX = i % 65536) := by
  obtain ⟨hframe, hkept⟩ := x.checkEnded_onlyRegs
  obtain ⟨hbusy, hdone, hok⟩ := x.checkEnded_on
  cases h : x.loadError with
  | some f =>
    obtain ⟨code, kind, i⟩ := f
    rw [Lane.endCheck_of_failure hb hs h]
    obtain ⟨hframe', hkept'⟩ := x.checkEnded.checkFailed_onlyRegs code kind i
    have hdigest : (x.checkEnded.checkFailed code kind i).rg RLE_DIGEST = x.rg RLE_DIGEST := (hkept' _ (by decide)).trans (hkept _ (by decide))
    obtain ⟨herr, hcode, hkind, hindex⟩ := x.checkEnded.checkFailed_shows code kind i
    refine ⟨by rw [hframe', hframe], by rw [hframe', hframe], ?_, ?_, ?_, hdigest, by rw [hframe', hframe]; rfl, fun code' kind' i' he => ?_⟩
    · rw [Lane.checkFailed_on _ _ _ _ rfl (by decide) (by decide), hbusy]
    · rw [Lane.checkFailed_on _ _ _ _ rfl (by decide) (by decide), hdone]
    · rw [Lane.checkFailed_on _ _ _ _ rfl (by decide) (by decide), hok]
      rfl
    · obtain ⟨rfl, rfl, rfl⟩ : code = code' ∧ kind = kind' ∧ i = i' := by simpa using he
      exact ⟨herr, hdigest, hcode, hkind, hindex⟩
  | none =>
    rw [Lane.endCheck_of_pass hb hs h]
    obtain ⟨hframe', -⟩ := x.checkEnded.checkCounts_onlyRegs
    generalize BitVec.ofNat 32 x.loadDigest = d
    obtain ⟨hcells, hard, hreg, hstation⟩ := x.checkEnded.checkCounts.checkPassed_rest d
    have hdigest : (x.checkEnded.checkCounts.checkPassed d).rg RLE_DIGEST = d := by
      rw [Lane.rg, hreg]
      exact Lane.rg_setRg_same _ _ _
    have hstat {f : Fld} (hf : f.addr = RLE_STAT) :
        (x.checkEnded.checkCounts.checkPassed d).fget f = (x.checkEnded.fset RLE_STAT_CHK_OK 1).fget f := by
      rw [Lane.fget_of_reg_eq hreg, Lane.fget_setRg_ne _ d (by rw [hf]; decide), x.checkEnded.checkCounts_fget hf]
    refine ⟨?_, ?_, ?_, ?_, ?_, by rw [hdigest]; rfl, by rw [hdigest, hstation]; rfl, nofun⟩
    · rw [hcells, hframe', hframe]
    · rw [hard, hframe', hframe]
    · rw [Lane.on, hstat rfl, Lane.fget_fset_bits _ 1 (by rfl) (by decide) (by decide)]
      exact hbusy
    · rw [Lane.on, hstat rfl, Lane.fget_fset_bits _ 1 (by rfl) (by decide) (by decide)]
      exact hdone
    · rw [Lane.on, hstat rfl, Lane.fget_fset_same _ _ _ (by decide)]
      rfl

/-! ### RLE_LOCK (R99, R146) -/

theorem Lane.cell_rleCold (x : Lane) (c : Nat) : x.rleCold.cell c = { x.cell c with st := 0 } :=
  sparseGet_map (fun _ => cellZero) (fun _ r => { r with st := 0 }) x.cells c rfl

theorem Lane.lockStation_of_unchecked {x : Lane} (h : x.on RLE_STAT_CHK_OK = false) : x.lockStation = x := by
  unfold Lane.lockStation
  rw [h, Bool.false_and, if_neg (by decide)]

/-- A lock after a passed check. -/
theorem Lane.lockStation_of_checked {x : Lane} (h : x.on RLE_STAT_CHK_OK = true) (hk : x.on RLE_STAT_LOCKED = false) :
    x.lockStation.on RLE_STAT_LOCKED = true ∧ x.lockStation.on RLE_CTRL_LOCK = true ∧
      ∀ c, (x.lockStation.cell c).cfg = (x.cell c).cfg ∧ (x.lockStation.cell c).lnk = (x.cell c).lnk := by
  unfold Lane.lockStation
  rw [if_pos (by rw [h, hk]; rfl)]
  extract_lets y
  have hy (c : Nat) : (y.cell c).cfg = (x.cell c).cfg ∧ (y.cell c).lnk = (x.cell c).lnk := by
    unfold y
    split
    · exact ⟨rfl, rfl⟩
    · rw [Lane.cell_rleCold]
      exact ⟨rfl, rfl⟩
  refine ⟨Lane.on_fset_one _ _ (by decide) rfl, ?_, hy⟩
  rw [Lane.on_fset_addr _ _ (by decide)]
  exact Lane.on_fset_one _ _ (by decide) rfl

/-! ### The statement -/

/-- Settles O23: a window word is stored by `putAreaWord`, which reads back; a check meets the errors the code corrects and starts; its end and the
lock are said case by case. -/
theorem stationDataIsWrittenUnlockedAndFixedLocked : Obligations.StationDataIsWrittenUnlockedAndFixedLocked := by
  refine ⟨⟨fun s l a v n hl hb hk ha hnone hreq hres => ?_, fun s l a n hl hb ha hnone => ?_⟩,
    ⟨fun s l a v n hl hb hk ha hnone hreq hres hc => ?_, fun s l a v c n hl hb hk ha hr ht => ?_, fun s l a acc n hl h => ?_⟩,
    fun s l ecc hl hb hk hecc => ?_, fun s l hl hb hs => ?_, fun s l hl hk => ?_⟩
  · have hh : (rleArea a.toNat).holds := ⟨hnone, hreq, hres⟩
    obtain ⟨hreg, hsram, hrst⟩ := (s.lane l).putAreaWord_rest hh v
    have hexec := exec_cellWindowWrite hl hb ha hnone v n
    rw [Lane.rleWrite_of_unlocked hk hh] at hexec
    generalize ht : (s.setLane l ((s.lane l).putAreaWord a.toNat v)).busOk = t at hexec
    have hlane : t.lane l = (s.lane l).putAreaWord a.toNat v := by rw [← ht, State.busOk_lane, State.lane_setLane]
    have hread := exec_cellWindowRead (s := t) (l := l) (a := a) (by rw [hlane, hrst]; exact hl) (by rw [hlane, Lane.on_of_reg_eq hreg]; exact hb) ha hnone 0
    refine ⟨t, _, hexec, hread, by rw [← ht]; rfl, ?_, fun k hne => ?_, ?_, by rw [hlane, hreg], by rw [hlane, hsram], fun b hb4 hne => ?_⟩
    · rw [hlane, Lane.areaWord_putAreaWord_same _ hh]
      split <;> rfl
    · rw [← ht, State.busOk_lane, State.lane_setLane_ne _ _ hne]
    · rw [← ht, State.busOk_hub, State.setLane_hub]
    · rw [hlane, Lane.areaWord_putAreaWord_ne _ ha hb4 hh hne]
  · refine ⟨_, exec_cellWindowRead hl hb ha hnone n, ?_, ?_, ?_, ?_⟩
    · split
      · show ((if n = 0 then _ else if n = 1 then _ else _ : State).lane l).cells = _
        split
        · rw [State.busData_lane]
        · split
          · rw [State.busData_lane, State.lane_modLane, ((s.lane l).corrected_onlyRegs _).1]
          · rw [State.busErr_lane]
            exact (State.laneUncorrectable_lane hl _).1
      · rw [State.busData_lane]
    · rintro (rfl | hecc)
      · split <;> rfl
      · rw [hecc]
        rfl
    · rintro ⟨rfl, hecc⟩
      rw [hecc]
      have hlane : ((s.laneRead l a.toNat 1 (some ((s.lane l).areaWord a.toNat))).lane l) = (s.lane l).corrected a.toNat :=
        (State.busData_lane _ _ _).trans (State.lane_modLane _ _ _)
      refine ⟨rfl, ?_⟩
      rw [if_pos rfl, hlane]
      exact ⟨(s.lane l).corrected_onlyRegs _, (s.lane l).corrected_spec ha⟩
    · rintro ⟨hn, hecc⟩
      rw [hecc, if_pos rfl]
      have hread : s.laneRead l a.toNat n (some ((s.lane l).areaWord a.toNat)) = (s.laneUncorrectable l a.toNat).busErr := by
        show (if n = 0 then _ else if n = 1 then _ else _ : State) = _
        rw [if_neg (by omega), if_neg (by omega)]
      rw [hread, State.busErr_lane]
      obtain ⟨-, hvote, hreason⟩ := State.laneUncorrectable_lane hl a.toNat
      exact ⟨rfl, hvote, hreason⟩
  · have hh : (rleArea a.toNat).holds := ⟨hnone, hreq, hres⟩
    refine ⟨_, exec_cellWindowWrite hl hb ha hnone v n, rfl, ?_⟩
    rw [Lane.rleWrite_of_locked hk hh hc, State.busOk_lane, State.lane_setLane]
    exact ⟨(s.lane l).rleFlag_onlyRegs rfl, (s.lane l).on_rleFlag_same (by decide) rfl (by decide)⟩
  · refine ⟨_, exec_cellWindowWrite hl hb ha (by rw [hr]; nofun) v n, rfl, ?_⟩
    rw [Lane.rleWrite_condition hk hr ht, State.busOk_lane, State.lane_setLane]
    unfold Lane.putC
    refine ⟨rfl, ?_, ?_, fun d hd => Lane.cell_setCell_ne _ _ hd⟩
    · rw [Lane.cs, Lane.cell_setCell_same]
      exact (bvField_bvSet_same _ _ _ _ (by decide)).trans (Nat.mod_eq_of_lt (Nat.mod_lt _ (by decide)))
    · rw [Lane.cell_setCell_same]
      rfl
  · obtain hx | hx := exec_cellWindow_refused hl h acc n
    · exact ⟨_, hx, rfl, by rw [State.busErr_lane]; exact .refl _ _⟩
    · refine ⟨_, hx, rfl, ?_⟩
      rw [State.busErr_lane, (s.upLane_next l _ hl).2]
      exact ((s.lane l).rleFlag_onlyRegs rfl).notes []
  · obtain ⟨u, hu, honly, hregs, hclean⟩ := State.engineReads_corrected ecc hecc s
    have hexec : exec (.rleCheck l ecc) s = .next (u.upLane l Lane.startCheck) := by
      show done _ = _
      rw [if_pos (by rw [Lane.checkRuns, hl, hb, hk]; rfl), State.engine, hu]
      rfl
    have hup : (u.lane l).rst.held = false := by rw [hregs.1]; exact hl
    obtain ⟨honly', hlane⟩ := u.upLane_next l Lane.startCheck hup
    obtain ⟨hkept, hbusy, hchk, hcells⟩ := Lane.startCheck_spec (x := u.lane l) ((Lane.RegsKept.on hregs.2 (by decide)).trans hb)
      ((Lane.RegsKept.on hregs.2 (by decide)).trans hk)
    refine ⟨_, hexec, honly.trans honly', ?_, fun hz => ?_, ?_, ?_, ?_⟩
    · rw [hlane]
      exact fun b hb' => (hkept b fun hm => hb' (List.mem_cons.2 (.inl (List.mem_singleton.1 hm)))).trans
        (hregs.2 b fun hm => hb' (List.mem_cons_of_mem _ hm))
    · rw [hlane]
      rw [hclean hz] at hkept ⊢
      exact hkept
    · rw [hlane]; exact hbusy
    · rw [hlane]; exact hchk
    · rw [hlane]
      refine hcells.trans ?_
      rw [hregs.1]
  · obtain ⟨honly, hlane⟩ := s.upLane_next l Lane.endCheck hl
    have hspec := Lane.endCheck_spec hb hs
    refine ⟨s.upLane l Lane.endCheck, rfl, honly, ?_⟩
    rw [hlane]
    exact hspec
  · obtain ⟨honly, hlane⟩ := s.upLane_next l Lane.lockStation hl
    refine ⟨s.upLane l Lane.lockStation, rfl, honly, ?_⟩
    rw [hlane]
    cases h : (s.lane l).on RLE_STAT_CHK_OK with
    | false =>
      rw [Lane.lockStation_of_unchecked h]
      exact ⟨hk, fun _ => ⟨rfl, rfl⟩, nofun⟩
    | true =>
      obtain ⟨hlocked, hctrl, hcell⟩ := Lane.lockStation_of_checked h hk
      exact ⟨hlocked, nofun, fun _ => ⟨hctrl, hcell⟩⟩

end Sys2Proof.Machine
end

section
/-! PROOFS. Interrupts and the watchdog (R185, R188, R189, R202 to R204), after what they need: the registers a leave keeps, and what asking for a
voter's reset does. -/

namespace Sys2Proof.Machine

/-! ### What a leave keeps (R164, R166, R177) -/

/-- The registers a leave writes, whether it ends in easy all or not. -/
def leaveWrites : List Nat := [VOTE_STAT, VOTE_LEAVE, VOTE_CNT, LCTL_IRQ_PEND, PWRC_STAT, VOTE_EASY, VOTE_READM, RLE_STAT]

theorem Lane.leaveNow_fget_kept (x : Lane) (reason ctx seg due cause : Nat) {f : Fld} (h : f.addr ∉ leaveWrites) :
    (x.leaveNow reason ctx seg due cause).fget f = x.fget f := by
  have hne {a : Nat} (ha : a ∈ leaveWrites) : f.addr ≠ a := fun e => h (e ▸ ha)
  obtain ⟨mask, hfget⟩ := x.leaveNow_fget reason ctx seg due cause
  rw [hfget f (hne (by decide))]
  unfold Lane.leaveRegs Lane.fsat
  rw [Lane.fget_raise_ne _ _ (hne (by decide))]
  iterate 9 rw [Lane.fget_fset_addr _ _ (hne (by decide))]

theorem Lane.enterEasy_fget_kept (x : Lane) (split : Bool) (cause : Nat) (peer : Bool) {f : Fld} (h : f.addr ∉ leaveWrites) :
    (x.enterEasy split cause peer).fget f = x.fget f := by
  have hne {a : Nat} (ha : a ∈ leaveWrites) : f.addr ≠ a := fun e => h (e ▸ ha)
  cases he : x.easy with
  | true => rw [Lane.enterEasy, if_pos he]
  | false =>
    rw [Lane.enterEasy_fget split cause peer he]
    unfold Lane.easyRegs
    rw [Lane.fget_fset_addr _ _ (hne (by decide)), Lane.fget_raise_ne _ _ (hne (by decide))]
    iterate 7 rw [Lane.fget_fset_addr _ _ (hne (by decide))]
    exact (x.abandonReadm_regsKept 0x06).fget fun hm => h (by
      rcases List.mem_cons.1 hm with e | e
      · rw [e]; decide
      · rw [List.mem_singleton.1 e]; decide)

theorem Lane.LeftAs.fget_kept {x y : Lane} {reason ctx seg due cause : Nat} (h : x.LeftAs y reason ctx seg due cause) {f : Fld}
    (hf : f.addr ∉ leaveWrites) : y.fget f = x.fget f := by
  obtain rfl | ⟨split, c, rfl⟩ := h
  · exact x.leaveNow_fget_kept _ _ _ _ _ hf
  · rw [Lane.enterEasy_fget_kept _ _ _ _ hf, Lane.leaveNow_fget_kept _ _ _ _ _ _ hf]

/-- A lane outside the vote and outside easy all does not leave. -/
theorem State.leave_of_outside {s : State} {l : LaneId} (he : (s.lane l).easy = false) (hv : (s.lane l).inVote = false)
    (reason ctx seg due cause : Nat) : s.leave l reason ctx seg due cause = s := by
  unfold State.leave
  dsimp only
  rw [if_neg (by rw [he]; decide), if_neg (by rw [hv]; decide)]

/-! ### A reset asked for while others vote (R490) -/

/-- What asking for the reset of a voter does while another stays: the lane leaves and its reset is due 10 µs later. -/
theorem State.requestReset_of_voter {s : State} {l y : LaneId} (hl : (s.lane l).rst.held = false) (he : (s.lane l).easy = false)
    (hv : (s.lane l).inVote = true) (hy : y ≠ l) (hyv : (s.lane y).inVote = true) (reason cause : Nat) (cold : Bool) :
    s.OnlyLane (s.requestReset l reason cause cold) l ∧ ((s.requestReset l reason cause cold).lane l).inVote = false ∧
      ((s.requestReset l reason cause cold).lane l).silent = true ∧
      ((s.requestReset l reason cause cold).lane l).fget VOTE_LEAVE_REASON = reason % 2 ^ 8 ∧
      ((s.requestReset l reason cause cold).lane l).rst.due = some (cold, cause, s.now + 10000) := by
  obtain ⟨honly, hlane⟩ := State.leave_of_voter he hv hy hyv reason 0 0 (s.now + tenMicros) cause
  have heq : s.requestReset l reason cause cold = (s.leave l reason 0 0 (s.now + tenMicros) cause).modLane l fun y =>
      { y with rst := { y.rst with due := some (cold, cause, s.now + tenMicros) } } := by
    unfold State.requestReset
    dsimp only
    rw [if_neg (by rw [hl]; decide), if_pos (by rw [he, hv]; rfl)]
    rfl
  rw [heq, State.lane_modLane, hlane]
  have hreg : ({ (s.lane l).leaveNow reason 0 0 (s.now + tenMicros) cause with
      rst := { ((s.lane l).leaveNow reason 0 0 (s.now + tenMicros) cause).rst with due := some (cold, cause, s.now + tenMicros) } } : Lane).reg =
    ((s.lane l).leaveNow reason 0 0 (s.now + tenMicros) cause).reg := rfl
  refine ⟨honly.trans (State.onlyLane_modLane _ l _), ?_, ?_, ?_, rfl⟩
  · rw [Lane.inVote, Lane.on_of_reg_eq hreg]
    exact Lane.leaveNow_inVote _ _ _ _ _ _
  · rw [Lane.silent, Lane.on_of_reg_eq hreg, Lane.on_of_reg_eq hreg]
    exact Lane.leaveNow_silent _ _ _ _ _ _
  · rw [Lane.fget_of_reg_eq hreg]
    exact Lane.leaveNow_reason _ _ _ _ _ _

/-! ### INTERRUPT_ENTRY and SWI_SET -/

theorem Lane.takenLine_of_lowest {x : Lane} {n : Nat} (hn : n < 11) (hp : (x.rg LCTL_IRQ_PEND &&& x.rg LCTL_IRQ_EN).getLsbD n = true)
    (hlow : ∀ m, m < n → (x.rg LCTL_IRQ_PEND &&& x.rg LCTL_IRQ_EN).getLsbD m = false) : x.takenLine = some n :=
  List.find?_range_eq_some.2 ⟨hp, List.mem_range.2 hn, fun m hm => by rw [hlow m hm]; rfl⟩

/-- Settles O27: the line found is the lowest, and a core that takes it takes a trap. -/
theorem lowestEnabledLineIsTaken : Obligations.LowestEnabledLineIsTaken := by
  refine ⟨fun s l n hl hn hp hlow hie => ?_, fun s l hl => ?_⟩
  · have hline := Lane.takenLine_of_lowest hn hp hlow
    have heq : s.interruptEntry l = s.draw.2.modLane l fun y =>
        { y with core0 := if y.core0.bit stIE then y.core0.trap (BitVec.ofNat 32 (0x80000000 + n)) s.draw.1 else y.core0,
                 core1 := if y.core1.bit stIE then y.core1.trap (BitVec.ofNat 32 (0x80000000 + n)) s.draw.1 else y.core1 } := by
      unfold State.interruptEntry
      dsimp only
      rw [hline]
      dsimp only
      rw [if_neg (by rw [hl, hie, Bool.true_or]; decide)]
    have hdraw (k : LaneId) : s.draw.2.lane k = s.lane k := by cases k <;> rfl
    obtain ⟨hie', hsup⟩ := (s.lane l).core0.trap_level (BitVec.ofNat 32 (0x80000000 + n)) s.draw.1
    obtain ⟨hpie, -⟩ := (s.lane l).core0.trap_saves (BitVec.ofNat 32 (0x80000000 + n)) s.draw.1
    refine ⟨s.interruptEntry l, rfl, fun k hk => ?_, ?_, ?_⟩
    · rw [heq, State.lane_modLane_ne _ _ hk, hdraw]
    · rw [heq, State.modLane_hub]
      rfl
    · rw [heq, State.lane_modLane, hdraw]
      dsimp only
      rw [if_pos hie]
      exact ⟨rfl, rfl, rfl, rfl, hie', hpie.trans hie⟩
  · obtain ⟨honly, hlane⟩ := s.upLane_next l (·.raise 10) hl
    refine ⟨s.upLane l (·.raise 10), rfl, honly, ?_⟩
    rw [hlane]
    exact ⟨((s.lane l).onlyRegs_setRg _ (by decide)).notes [], Lane.rg_raise_same _ _⟩

/-! ### The watchdog (R202, R203) -/

section Watchdog

variable {s : State} {l : LaneId}

theorem State.wdtKick_first (h : (s.lane l).wdt.key1 = false) (v : Word) (tm : Nat) :
    s.wdtKick l v tm = s.setLane l { s.lane l with wdt := { (s.lane l).wdt with key1 := v == 0xC35A#32 } } := by
  unfold State.wdtKick
  dsimp only
  rw [if_pos (by rw [h]; rfl)]

/-- A lane whose second key was written: the kick is over, and with the right key its window is fixed (R203). -/
def Lane.wdtSecond (x : Lane) (v : Word) (bad : Bool) (tm : Nat) : Lane :=
  let y := { x with wdt := { x.wdt with key1 := false } }
  let y := if v = 0x3CA5#32 then y.fset WDT_STAT_LOCKED 1 else y
  if v = 0x3CA5#32 ∧ (!bad || x.wdtStopped) = true then { y with wdt := { last := tm, key1 := false } } else y

theorem Lane.wdtSecond_rest (x : Lane) (v : Word) (bad : Bool) (tm : Nat) :
    x.RegsKept (x.wdtSecond v bad tm) [WDT_STAT] ∧ (x.wdtSecond v bad tm).rst = x.rst := by
  unfold Lane.wdtSecond
  extract_lets w y z
  have hz : x.RegsKept z [WDT_STAT] ∧ z.rst = x.rst := by
    unfold z
    split
    · exact ⟨(Lane.regsKept_of_reg_eq (x := x) (y := y) rfl _).trans (y.regsKept_fset (f := WDT_STAT_LOCKED) 1 (by decide)), rfl⟩
    · exact ⟨Lane.regsKept_of_reg_eq rfl _, rfl⟩
  split
  · obtain ⟨hkept, hrst⟩ := hz
    exact ⟨hkept, hrst⟩
  · exact hz

/-- A second write outside the window, or with another key. -/
def Lane.wdtBad (x : Lane) (v : Word) (tm : Nat) : Bool :=
  v != 0x3CA5#32 || decide (tm < x.wdt.last + x.fget WDT_CFG_OPEN * x.wdtUnit) || decide (x.wdt.last + x.fget WDT_CFG_CLOSE * x.wdtUnit < tm)

theorem State.wdtKick_second (h : (s.lane l).wdt.key1 = true) (v : Word) (tm : Nat) :
    s.wdtKick l v tm = (if (s.lane l).wdtBad v tm && !(s.lane l).wdtStopped
      then (s.setLane l ((s.lane l).wdtSecond v ((s.lane l).wdtBad v tm) tm)).wdtExpire l
      else s.setLane l ((s.lane l).wdtSecond v ((s.lane l).wdtBad v tm) tm)) := by
  unfold State.wdtKick
  dsimp only
  rw [if_neg (by rw [h]; decide)]
  rfl

end Watchdog

theorem State.setLane_at_self (s : State) (l : LaneId) (tm : Nat) : (s.at tm).setLane l (s.lane l) = s.at tm := by
  rw [← s.at_lane tm l]
  exact State.setLane_self _ l

/-- An expiry or a lock-up of a voter at its instant, while another stays. -/
theorem State.requestReset_at_of_voter {s : State} {l y : LaneId} {x : Lane} (hl : (s.lane l).rst.held = false) (he : (s.lane l).easy = false)
    (hv : (s.lane l).inVote = true) (hy : y ≠ l) (hyv : (s.lane y).inVote = true) (hx : (s.lane l).RegsKept x [WDT_STAT])
    (hrst : x.rst = (s.lane l).rst) (tm reason cause : Nat) :
    s.OnlyLane (((s.at tm).setLane l x).requestReset l reason cause false) l ∧
      ((((s.at tm).setLane l x).requestReset l reason cause false).lane l).inVote = false ∧
      ((((s.at tm).setLane l x).requestReset l reason cause false).lane l).silent = true ∧
      ((((s.at tm).setLane l x).requestReset l reason cause false).lane l).fget VOTE_LEAVE_REASON = reason % 2 ^ 8 ∧
      ((((s.at tm).setLane l x).requestReset l reason cause false).lane l).rst.due = some (false, cause, max s.now tm + 10000) := by
  have hlane : ((s.at tm).setLane l x).lane l = x := State.lane_setLane _ _ _
  have hnow : ((s.at tm).setLane l x).now = max s.now tm := by cases l <;> rfl
  obtain ⟨honly, hrest⟩ := State.requestReset_of_voter (s := (s.at tm).setLane l x) (l := l) (y := y) (by rw [hlane, hrst]; exact hl)
    (by rw [hlane, hx.easy (by decide)]; exact he) (by rw [hlane, hx.inVote (by decide)]; exact hv) hy
    (by rw [State.lane_setLane_ne _ _ hy, State.at_lane]; exact hyv) reason cause false
  rw [hnow] at hrest
  exact ⟨((s.onlyLane_at tm l).trans (State.onlyLane_setLane _ l x)).trans honly, hrest⟩

theorem Lane.wdtWarn_of_due {x : Lane} (hstop : x.wdtStopped = false) {tm : Nat}
    (hdue : x.wdt.last + (x.fget WDT_CFG_CLOSE - x.fget WDT_CFG_WARN) * x.wdtUnit ≤ tm) : x.wdtWarn tm = (x.fset WDT_STAT_WARNED 1).raise 8 := by
  unfold Lane.wdtWarn
  dsimp only
  rw [hstop, decide_eq_false (Nat.not_lt.2 hdue), if_neg (by decide)]

theorem Lane.wdtWarned_spec (x : Lane) : x.OnlyRegs ((x.fset WDT_STAT_WARNED 1).raise 8) [WDT_STAT, LCTL_IRQ_PEND] ∧
    ((x.fset WDT_STAT_WARNED 1).raise 8).on WDT_STAT_WARNED = true ∧ (((x.fset WDT_STAT_WARNED 1).raise 8).rg LCTL_IRQ_PEND).getLsbD 8 = true := by
  refine ⟨(x.onlyRegs_fset (f := WDT_STAT_WARNED) 1 (by decide)).trans (Lane.onlyRegs_setRg _ _ (by decide)), ?_, ?_⟩
  · rw [Lane.on, Lane.fget_raise_ne _ _ (by decide)]
    exact Lane.on_fset_one _ _ (by decide) rfl
  · rw [Lane.rg_raise_same, BitVec.getLsbD_or, Bool.or_eq_true]
    exact .inr (by decide)

theorem Lane.wdtCfgWrite_spec (x : Lane) (v : Word) : x.OnlyRegs (x.wdtCfgWrite v) [WDT_CFG, WDT_STAT] ∧
    (x.on WDT_STAT_LOCKED = true → (x.wdtCfgWrite v).rg WDT_CFG = x.rg WDT_CFG ∧ (x.wdtCfgWrite v).on WDT_STAT_CFG_IGN = true) ∧
    (x.on WDT_STAT_LOCKED = false → bvField v 12 12 < bvField v 0 12 → (x.wdtCfgWrite v).rg WDT_CFG = v) := by
  unfold Lane.wdtCfgWrite
  by_cases h : (x.on WDT_STAT_LOCKED || decide (bvField v 0 12 ≤ bvField v 12 12)) = true
  · rw [if_pos h]
    refine ⟨x.onlyRegs_fset (f := WDT_STAT_CFG_IGN) 1 (by decide),
      fun _ => ⟨Lane.rg_fset_ne _ _ (by decide), Lane.on_fset_one _ _ (by decide) rfl⟩, fun hunlocked hfits => ?_⟩
    rw [hunlocked, Bool.false_or, decide_eq_true_eq] at h
    exact absurd hfits (Nat.not_lt.2 h)
  · rw [if_neg h]
    exact ⟨x.onlyRegs_setRg v (by decide), fun hlocked => absurd (by rw [hlocked]; rfl) h, fun _ _ => Lane.rg_setRg_same _ _ _⟩

theorem State.wdtTimeout_of_due {s : State} {l : LaneId} {tm : Nat} (hstop : (s.lane l).wdtStopped = false)
    (hdue : (s.lane l).wdt.last + (s.lane l).fget WDT_CFG_CLOSE * (s.lane l).wdtUnit ≤ tm) :
    s.wdtTimeout l tm = s.requestReset l leaveLaneFault causeWdt false := by
  unfold State.wdtTimeout
  dsimp only
  rw [hstop, decide_eq_false (Nat.not_lt.2 hdue), if_neg (by decide)]
  rfl

theorem State.lockup_eq (s : State) (l : LaneId) (inTrap : Bool) (tm : Nat) :
    s.lockup l inTrap tm = if inTrap = true ∨ ((s.lane l).core0.bit stWAIT = false ∧ (s.lane l).sig.retT + 100000 ≤ tm)
      then s.requestReset l leaveLaneFault causeLockup false else s := by
  have hcond : (inTrap || (!(s.lane l).core0.bit stWAIT && decide ((s.lane l).sig.retT + 100000 ≤ tm))) = true ↔
      inTrap = true ∨ ((s.lane l).core0.bit stWAIT = false ∧ (s.lane l).sig.retT + 100000 ≤ tm) := by simp
  unfold State.lockup
  dsimp only
  split
  next h => rw [if_pos (hcond.1 h)]
  next h => rw [if_neg fun h' => h (hcond.2 h')]

/-- Settles O29: each row of the watchdog by its condition; an expiry and a lock-up ask for the reset of a voter. -/
theorem watchdogKicksMustFallInTheWindow : Obligations.WatchdogKicksMustFallInTheWindow := by
  refine ⟨fun s l v tm hl hk => ?_, fun s l tm hl hk hopen hclose => ?_, fun s l v tm hl he hv ⟨y, hy, hyv⟩ hk hstop hbad => ?_, fun s l tm hl hstop hdue => ?_,
    fun s l tm hl he hv ⟨y, hy, hyv⟩ hstop hdue => ?_, fun s l v hl => ?_, fun s l inTrap tm hl he hv ⟨y, hy, hyv⟩ hdue => ?_, fun s l tm hl h => ?_⟩
  · have hlane := s.at_lane tm l
    refine ⟨(s.at tm).wdtKick l v tm, congrArg Host.Outcome.next (if_neg (by rw [hlane, hl]; decide)), ?_⟩
    rw [State.wdtKick_first (by rw [hlane]; exact hk), State.lane_setLane, hlane]
    exact ⟨(s.onlyLane_at tm l).trans (State.onlyLane_setLane _ l _), rfl⟩
  · have hlane := s.at_lane tm l
    refine ⟨(s.at tm).wdtKick l 0x3CA5 tm, congrArg Host.Outcome.next (if_neg (by rw [hlane, hl]; decide)), ?_⟩
    have hgood : (s.lane l).wdtBad 0x3CA5 tm = false := by
      unfold Lane.wdtBad
      rw [decide_eq_false (Nat.not_lt.2 hopen), decide_eq_false (Nat.not_lt.2 hclose)]
      rfl
    rw [State.wdtKick_second (by rw [hlane]; exact hk), hlane, hgood, Bool.false_and, if_neg (by decide), State.lane_setLane]
    refine ⟨(s.onlyLane_at tm l).trans (State.onlyLane_setLane _ l _), ((s.lane l).wdtSecond_rest _ _ _).1, ?_⟩
    unfold Lane.wdtSecond
    rw [if_pos ⟨rfl, rfl⟩]
    refine ⟨rfl, ?_⟩
    exact Lane.on_of_reg_fset_one (x := { s.lane l with wdt := { (s.lane l).wdt with key1 := false } }) rfl (by decide) rfl
  · have hlane := s.at_lane tm l
    refine ⟨(s.at tm).wdtKick l v tm, congrArg Host.Outcome.next (if_neg (by rw [hlane, hl]; decide)), ?_⟩
    have hbad' : (s.lane l).wdtBad v tm = true := by
      unfold Lane.wdtBad
      simpa [or_assoc] using hbad
    rw [State.wdtKick_second (by rw [hlane]; exact hk), hlane, hbad', hstop, if_pos (by rfl)]
    obtain ⟨hkept, hrst⟩ := (s.lane l).wdtSecond_rest v true tm
    exact State.requestReset_at_of_voter hl he hv hy hyv hkept hrst tm leaveLaneFault causeWdt
  · have hlane := s.at_lane tm l
    obtain ⟨honly, hnext⟩ := (s.at tm).upLane_next l (·.wdtWarn tm) (by rw [hlane]; exact hl)
    refine ⟨(s.at tm).upLane l (·.wdtWarn tm), rfl, (s.onlyLane_at tm l).trans honly, ?_⟩
    rw [hnext, hlane, Lane.wdtWarn_of_due hstop hdue]
    obtain ⟨hregs, hwarned, hline⟩ := (s.lane l).wdtWarned_spec
    exact ⟨hregs.notes [], hwarned, hline⟩
  · have hlane := s.at_lane tm l
    refine ⟨(s.at tm).wdtTimeout l tm, congrArg Host.Outcome.next (if_neg (by rw [hlane, hl]; decide)), ?_⟩
    rw [State.wdtTimeout_of_due (by rw [hlane]; exact hstop) (by rw [hlane]; exact hdue), ← s.setLane_at_self l tm]
    exact State.requestReset_at_of_voter hl he hv hy hyv (.refl _ _) rfl tm leaveLaneFault causeWdt
  · obtain ⟨honly, hlane⟩ := s.upLane_next l (·.wdtCfgWrite v) hl
    refine ⟨s.upLane l (·.wdtCfgWrite v), rfl, honly, ?_⟩
    rw [hlane]
    obtain ⟨hregs, hlocked, hopen⟩ := (s.lane l).wdtCfgWrite_spec v
    exact ⟨hregs.notes [], hlocked, hopen⟩
  · have hlane := s.at_lane tm l
    refine ⟨(s.at tm).lockup l inTrap tm, congrArg Host.Outcome.next (if_neg (by rw [hlane, hl]; decide)), ?_⟩
    rw [State.lockup_eq, hlane, if_pos hdue, ← s.setLane_at_self l tm]
    exact State.requestReset_at_of_voter hl he hv hy hyv (.refl _ _) rfl tm leaveLaneFault causeLockup
  · have hlane := s.at_lane tm l
    refine ⟨(s.at tm).lockup l false tm, congrArg Host.Outcome.next (if_neg (by rw [hlane, hl]; decide)), ?_⟩
    rw [State.lockup_eq, hlane, if_neg]
    · rfl
    · rintro (h' | ⟨hw, ht⟩)
      · exact absurd h' (by decide)
      · rcases h with hw' | ht'
        · rw [hw'] at hw
          exact absurd hw (by decide)
        · exact absurd ht (Nat.not_le.2 ht')

end Sys2Proof.Machine
end

section
/-! PROOFS. The signature checker, debug and bench mode, and core 1 (R190 to R195, R197 to R201). -/

namespace Sys2Proof.Machine

/-! ### A leave, in every case (R164, R166) -/

/-- While another lane votes, a leave is the lane's own. -/
theorem State.leave_onlyLane {s : State} {l y : LaneId} (hy : y ≠ l) (hyv : (s.lane y).inVote = true) (reason ctx seg due cause : Nat) :
    s.OnlyLane (s.leave l reason ctx seg due cause) l := by
  cases he : (s.lane l).easy with
  | true =>
    unfold State.leave
    dsimp only
    rw [if_pos he]
    split
    · exact State.onlyLane_setLane _ l _
    · exact .refl s l
  | false =>
    cases hv : (s.lane l).inVote with
    | true => exact (State.leave_of_voter he hv hy hyv reason ctx seg due cause).1
    | false =>
      rw [State.leave_of_outside he hv]
      exact .refl s l

/-- A leave keeps the registers it does not write. -/
theorem State.leave_fget_kept {s : State} {l : LaneId} (hl : (s.lane l).rst.held = false) (reason ctx seg due cause : Nat) {f : Fld}
    (hf : f.addr ∉ leaveWrites) : ((s.leave l reason ctx seg due cause).lane l).fget f = (s.lane l).fget f := by
  cases he : (s.lane l).easy with
  | true =>
    unfold State.leave
    dsimp only
    rw [if_pos he]
    split
    · rw [State.lane_setLane]
      exact (Lane.fget_of_reg_eq (y := (s.lane l).fset VOTE_STAT_SIGN_EN 0) rfl f).trans
        (Lane.fget_fset_addr _ _ fun e => hf (by rw [e]; decide))
    · rfl
  | false =>
    cases hv : (s.lane l).inVote with
    | true => exact (State.leave_lane hl he hv reason ctx seg due cause).fget_kept hf
    | false => rw [State.leave_of_outside he hv]

/-- The cause of easy all when the last voter leaves with DEBUG (R166, R197). -/
def Lane.debugCause (x : Lane) : Nat := if x.on LCTL_STAT_BENCH then easyFewLanes else easyDebugHalt

theorem State.leave_of_inVote {s : State} {l : LaneId} (he : (s.lane l).easy = false) (hv : (s.lane l).inVote = true)
    (reason ctx seg due cause : Nat) :
    s.leave l reason ctx seg due cause = ((s.setLane l ((s.lane l).leaveNow reason ctx seg due cause)).recLane l 1 2 164
      [(1, l.code), (1, reason), (4, (s.lane l).stroke.toNat), (2, ctx * 8192 + seg % 8192)]).noVoters l reason := by
  unfold State.leave
  dsimp only
  rw [if_neg (by rw [he]; decide), if_pos hv]

theorem State.noVoters_debug {z : State} {l : LaneId} (hnone : ∀ y, (z.lane y).inVote = false) :
    z.noVoters l leaveDebug = (z.enterEasyAll allLanes (z.lane l).debugCause).markEasy := by
  have hany : (allLanes.any fun y => (z.lane y).inVote) = false := List.any_eq_false.2 fun y _ => by rw [hnone y]; decide
  unfold State.noVoters Lane.debugCause
  rw [hany, if_neg (by decide)]
  cases (z.lane l).on LCTL_STAT_BENCH <;> rfl

/-- The last voter leaves with DEBUG: every lane out of reset enters easy all, with the cause of a debug halt outside bench mode. -/
theorem State.leaveDebug_of_last {s : State} {l : LaneId} (hl : (s.lane l).rst.held = false) (he : (s.lane l).easy = false)
    (hv : (s.lane l).inVote = true) (ho : ∀ y, y ≠ l → (s.lane y).inVote = false) (ctx seg due cause : Nat) :
    ∃ split, (s.leave l leaveDebug ctx seg due cause).lane l =
      ((s.lane l).leaveNow leaveDebug ctx seg due cause).enterEasy split (s.lane l).debugCause false := by
  rw [State.leave_of_inVote he hv]
  generalize hz : (s.setLane l ((s.lane l).leaveNow leaveDebug ctx seg due cause)).recLane l 1 2 164
    [(1, l.code), (1, leaveDebug), (4, (s.lane l).stroke.toNat), (2, ctx * 8192 + seg % 8192)] = z
  have hlane : z.lane l = (s.lane l).leaveNow leaveDebug ctx seg due cause := by rw [← hz, State.recLane_lane, State.lane_setLane]
  have hnone (y : LaneId) : (z.lane y).inVote = false := by
    by_cases hy : y = l
    · rw [hy, hlane, Lane.leaveNow_inVote]
    · rw [← hz, State.recLane_lane, s.lane_setLane_ne _ hy, ho y hy]
  have hcause : (z.lane l).debugCause = (s.lane l).debugCause := by
    rw [Lane.debugCause, hlane, Lane.on, Lane.leaveNow_fget_kept _ _ _ _ _ _ (by decide)]
    rfl
  have hup : (z.lane l).up = true :=
    State.up_of_not_held (by rw [hlane, ((s.lane l).leaveNow_rest leaveDebug ctx seg due cause).2.1]; exact hl)
  rw [State.noVoters_debug hnone, State.markEasy_lane, State.enterEasyAll_lane_of_mem allLanes _ z (by decide) (by cases l <;> decide) hup, hcause, hlane]
  exact ⟨_, rfl⟩

/-! ### SIGNATURE_WINDOW_CLOSE (R190, R191) -/

/-- A lane with a window counted (R190). -/
def Lane.windowCounted (x : Lane) (n0 n1 tm : Nat) : Lane := ((x.countRetired n0 n1).showCycles tm).setRg SIGC_WCNT (x.rg SIGC_WCNT + 1)

theorem Lane.windowCounted_reg (x : Lane) (n0 n1 tm : Nat) : (x.windowCounted n0 n1 tm).reg = (x.setRg SIGC_WCNT (x.rg SIGC_WCNT + 1)).reg := rfl

theorem Lane.windowCounted_rst (x : Lane) (n0 n1 tm : Nat) : (x.windowCounted n0 n1 tm).rst = x.rst := rfl

/-- A lane with a new window open outside a test. -/
def Lane.windowOpened (x : Lane) (idle : Bool) (tm : Nat) : Lane :=
  { x with sig := { misr0 := misrStart, misr1 := misrStart, phase := .none, good := true, openT := tm,
                    retT := if idle then x.sig.retT else tm } }

/-- A lane with the two signatures of a window shown. -/
def Lane.sigsShown (x : Lane) (m0 m1 : Dword) : Lane :=
  (((x.setRg SIGC_SIG0_LO (BitVec.ofNat 32 m0.toNat)).setRg SIGC_SIG0_HI (BitVec.ofNat 32 (m0.toNat / 2 ^ 32))).setRg
    SIGC_SIG1_LO (BitVec.ofNat 32 m1.toNat)).setRg SIGC_SIG1_HI (BitVec.ofNat 32 (m1.toNat / 2 ^ 32))

/-- A lane of an IRV3-S whose signatures differ at the close of a window. -/
def Lane.windowDiffers (x : Lane) (r0 r1 : List Retired) (tm : Nat) : Lane :=
  ((x.windowCounted r0.length r1.length tm).sigsShown (r0.foldl misrRetire misrStart) (r1.foldl misrRetire misrStart)).windowOpened
    (r0.isEmpty && r1.isEmpty) tm

theorem Lane.regsKept_setRg (x : Lane) {a : Nat} {as : List Nat} (v : Word) (ha : a ∈ as) : x.RegsKept (x.setRg a v) as :=
  (x.onlyRegs_setRg v ha).2

theorem Lane.windowDiffers_regsKept (x : Lane) (r0 r1 : List Retired) (tm : Nat) :
    x.RegsKept (x.windowDiffers r0 r1 tm) [SIGC_WCNT, SIGC_SIG0_LO, SIGC_SIG0_HI, SIGC_SIG1_LO, SIGC_SIG1_HI] := by
  have hcounted : x.RegsKept (x.windowCounted r0.length r1.length tm) [SIGC_WCNT, SIGC_SIG0_LO, SIGC_SIG0_HI, SIGC_SIG1_LO, SIGC_SIG1_HI] :=
    (x.regsKept_setRg _ (by decide)).trans (Lane.regsKept_of_reg_eq (x.windowCounted_reg _ _ _) _)
  have hshown : (x.windowCounted r0.length r1.length tm).RegsKept ((x.windowCounted r0.length r1.length tm).sigsShown
      (r0.foldl misrRetire misrStart) (r1.foldl misrRetire misrStart)) [SIGC_WCNT, SIGC_SIG0_LO, SIGC_SIG0_HI, SIGC_SIG1_LO, SIGC_SIG1_HI] :=
    (((Lane.regsKept_setRg _ _ (by decide)).trans (Lane.regsKept_setRg _ _ (by decide))).trans (Lane.regsKept_setRg _ _ (by decide))).trans
      (Lane.regsKept_setRg _ _ (by decide))
  exact (hcounted.trans hshown).trans (Lane.regsKept_of_reg_eq rfl _)

theorem Lane.windowDiffers_rst (x : Lane) (r0 r1 : List Retired) (tm : Nat) : (x.windowDiffers r0 r1 tm).rst = x.rst := rfl

theorem windowSig_plain (rs : List Retired) : windowSig rs false = rs.foldl misrRetire misrStart := by cases rs <;> rfl

theorem Lane.windowDue_iff (x : Lane) (n tm : Nat) : x.windowDue n tm = true ↔ n = 1024 ∨ (n < 1024 ∧ x.sig.openT + 10000 ≤ tm) := by
  unfold Lane.windowDue
  rw [Bool.or_eq_true, Bool.and_eq_true, beq_iff_eq, decide_eq_true_eq, decide_eq_true_eq]
  rfl

section Close

variable {s : State} {l : LaneId} {r0 r1 : List Retired} {tm : Nat}

theorem State.windowClose_of_early (h : (s.lane l).windowDue r0.length tm = false) : s.windowClose l r0 r1 tm = s := by
  unfold State.windowClose
  rw [h, if_pos (by decide)]

variable (hd : (s.lane l).windowDue r0.length tm = true) (hs : s.split = false) (hp : (s.lane l).sig.phase = .none)

include hd hs hp

theorem State.windowClose_of_equal (h : r0.foldl misrRetire misrStart = r1.foldl misrRetire misrStart) :
    s.windowClose l r0 r1 tm = s.setLane l (((s.lane l).windowCounted r0.length r1.length tm).windowOpened (r0.isEmpty && r1.isEmpty) tm) := by
  unfold State.windowClose
  rw [hd, if_neg (by decide)]
  simp only [Lane.countRetired, Lane.showCycles, hp, hs, show (InjPhase.none == InjPhase.k0) = false from rfl,
    show (InjPhase.none == InjPhase.k2) = false from rfl, windowSig_plain, h, bne_self_eq_false, Bool.and_false, Bool.false_eq_true, if_false,
    InjPhase.testing, InjPhase.next, reduceCtorEq, Bool.false_and]
  rfl

theorem State.windowClose_of_differing (h : r0.foldl misrRetire misrStart ≠ r1.foldl misrRetire misrStart) :
    s.windowClose l r0 r1 tm = (s.setLane l (((s.lane l).windowDiffers r0 r1 tm).fset SIGC_STAT_MISMATCH 1)).leaveAtOnce l
      (if (s.lane l).on SIGC_STAT_DBG_BROKE then leaveDebug else leaveLaneFault) causeSwr := by
  have hbroke : ((s.lane l).windowDiffers r0 r1 tm).on SIGC_STAT_DBG_BROKE = (s.lane l).on SIGC_STAT_DBG_BROKE :=
    ((s.lane l).windowDiffers_regsKept r0 r1 tm).on (by decide)
  have hne : (r0.foldl misrRetire misrStart != r1.foldl misrRetire misrStart) = true := bne_iff_ne.2 h
  unfold State.windowClose
  rw [hd, if_neg (by decide), ← hbroke]
  simp only [Lane.countRetired, Lane.showCycles, hp, hs, show (InjPhase.none == InjPhase.k0) = false from rfl,
    show (InjPhase.none == InjPhase.k2) = false from rfl, windowSig_plain, hne, Bool.not_false, Bool.and_self, if_true, Bool.false_eq_true, if_false,
    InjPhase.testing, InjPhase.next, reduceCtorEq]
  rfl

end Close

/-- What a window of equal signatures changes. -/
theorem State.windowShut_spec (s : State) (l : LaneId) (r0 r1 : List Retired) (tm : Nat) :
    s.OnlyLane ((s.at tm).setLane l (((s.lane l).windowCounted r0.length r1.length tm).windowOpened (r0.isEmpty && r1.isEmpty) tm)) l ∧
      (s.lane l).RegsKept (((s.at tm).setLane l (((s.lane l).windowCounted r0.length r1.length tm).windowOpened (r0.isEmpty && r1.isEmpty) tm)).lane l)
        [SIGC_WCNT] ∧
      (((s.at tm).setLane l (((s.lane l).windowCounted r0.length r1.length tm).windowOpened (r0.isEmpty && r1.isEmpty) tm)).lane l).rg SIGC_WCNT =
        (s.lane l).rg SIGC_WCNT + 1 := by
  have hreg : (((s.lane l).windowCounted r0.length r1.length tm).windowOpened (r0.isEmpty && r1.isEmpty) tm).reg =
    ((s.lane l).setRg SIGC_WCNT ((s.lane l).rg SIGC_WCNT + 1)).reg := rfl
  generalize ((s.lane l).windowCounted r0.length r1.length tm).windowOpened (r0.isEmpty && r1.isEmpty) tm = x at hreg ⊢
  rw [State.lane_setLane]
  refine ⟨(s.onlyLane_at tm l).trans (State.onlyLane_setLane _ l _), ?_, ?_⟩
  · exact ((s.lane l).regsKept_setRg _ (by decide)).trans (Lane.regsKept_of_reg_eq hreg _)
  · rw [Lane.rg, hreg]
    exact Lane.rg_setRg_same _ _ _

/-- What a window of differing signatures does: the mismatch shown, and a voter outside easy all leaves. -/
theorem State.windowDiffers_spec {s : State} {l : LaneId} (r0 r1 : List Retired) (tm : Nat) (hl : (s.lane l).rst.held = false) :
    let t := ((s.at tm).setLane l (((s.lane l).windowDiffers r0 r1 tm).fset SIGC_STAT_MISMATCH 1)).leaveAtOnce l
      (if (s.lane l).on SIGC_STAT_DBG_BROKE then leaveDebug else leaveLaneFault) causeSwr
    ((∃ y, y ≠ l ∧ (s.lane y).inVote = true) → s.OnlyLane t l) ∧ (t.lane l).on SIGC_STAT_MISMATCH = true ∧
      ∀ y, (s.lane l).easy = false → (s.lane l).inVote = true → y ≠ l → (s.lane y).inVote = true →
        (t.lane l).inVote = false ∧ (t.lane l).silent = true ∧
          (t.lane l).fget VOTE_LEAVE_REASON = if (s.lane l).on SIGC_STAT_DBG_BROKE = true then 0x0B else 0x0A := by
  intro t
  unfold t State.leaveAtOnce
  have hkept := ((s.lane l).windowDiffers_regsKept r0 r1 tm).easy (by decide)
  have hvote := ((s.lane l).windowDiffers_regsKept r0 r1 tm).inVote (by decide)
  have hrst := (s.lane l).windowDiffers_rst r0 r1 tm
  generalize (s.lane l).windowDiffers r0 r1 tm = x at hkept hvote hrst ⊢
  have hflag := x.regsKept_fset (f := SIGC_STAT_MISMATCH) (as := [SIGC_STAT]) 1 (by decide)
  generalize hz : (s.at tm).setLane l (x.fset SIGC_STAT_MISMATCH 1) = z
  have hzl : z.lane l = x.fset SIGC_STAT_MISMATCH 1 := by rw [← hz, State.lane_setLane]
  have hzo {y : LaneId} (hy : y ≠ l) : z.lane y = s.lane y := by rw [← hz, State.lane_setLane_ne _ _ hy, State.at_lane]
  have honly : s.OnlyLane z l := hz ▸ (s.onlyLane_at tm l).trans (State.onlyLane_setLane _ l _)
  have hup : (z.lane l).rst.held = false := by rw [hzl, Lane.fset_rst, hrst]; exact hl
  refine ⟨fun ⟨y, hy, hyv⟩ => honly.trans (State.leave_onlyLane hy (by rw [hzo hy]; exact hyv) _ _ _ _ _), ?_, fun y he hv hy hyv => ?_⟩
  · rw [Lane.on, State.leave_fget_kept hup _ _ _ _ _ (by decide), hzl]
    exact Lane.on_fset_one _ _ (by decide) rfl
  · have hze : (z.lane l).easy = false := by rw [hzl, hflag.easy (by decide), hkept]; exact he
    have hzv : (z.lane l).inVote = true := by rw [hzl, hflag.inVote (by decide), hvote]; exact hv
    rw [(State.leave_of_voter hze hzv hy (by rw [hzo hy]; exact hyv) _ _ _ _ _).2]
    refine ⟨Lane.leaveNow_inVote _ _ _ _ _ _, Lane.leaveNow_silent _ _ _ _ _ _, ?_⟩
    rw [Lane.leaveNow_reason]
    split <;> rfl

/-! ### INJECTION_TEST_START (R193, R195) -/

theorem Lane.injStart_spec (x : Lane) : x.RegsKept x.injStart [SIGC_STAT] ∧
    (((x.unarmed = true ∨ x.joining = true) ∧ x.on SIGC_STAT_INJ_RUN = false) → x.injStart.on SIGC_STAT_INJ_RUN = true ∧ x.injStart.sig.phase = .waiting) ∧
    (¬ ((x.unarmed = true ∨ x.joining = true) ∧ x.on SIGC_STAT_INJ_RUN = false) → x.injStart.on SIGC_STAT_INJ_IGN = true ∧ x.injStart.sig = x.sig) := by
  have hmay : ((x.unarmed || x.joining) && !x.on SIGC_STAT_INJ_RUN) = true ↔
      (x.unarmed = true ∨ x.joining = true) ∧ x.on SIGC_STAT_INJ_RUN = false := by simp
  unfold Lane.injStart
  split
  next h =>
    refine ⟨?_, fun _ => ⟨?_, rfl⟩, fun hn => absurd (hmay.1 h) hn⟩
    · exact ((x.regsKept_fset (f := SIGC_STAT_INJ_RUN) 1 (by decide)).trans (Lane.regsKept_fset _ (f := SIGC_STAT_INJ_FAIL) 0 (by decide))).trans
        (Lane.regsKept_of_reg_eq rfl _)
    · refine (Lane.on_of_reg_eq (y := (x.fset SIGC_STAT_INJ_RUN 1).fset SIGC_STAT_INJ_FAIL 0) rfl _).trans ?_
      rw [Lane.on_fset_bits _ (f := SIGC_STAT_INJ_FAIL) (g := SIGC_STAT_INJ_RUN) 0 rfl (by decide) (by decide)]
      exact Lane.on_fset_one _ _ (by decide) rfl
  next h =>
    exact ⟨x.regsKept_fset (f := SIGC_STAT_INJ_IGN) 1 (by decide), fun hy => absurd (hmay.2 hy) h, fun _ => ⟨Lane.on_fset_one _ _ (by decide) rfl, rfl⟩⟩

/-! ### DEBUG_HALT (R197) -/

/-- What a debug halt has done before easy all: lock-step broken, a record, and the lane's leave. -/
def State.haltLeave (s : State) (l : LaneId) : State :=
  ((s.setLane l ((s.lane l).fset SIGC_STAT_DBG_BROKE 1)).recLane l 10 2 197 []).leaveAtOnce l leaveDebug causeSwr

theorem State.debugHalt_eq {s : State} {l : LaneId} (hl : (s.lane l).rst.held = false) :
    s.debugHalt l = if (s.lane l).on LCTL_STAT_BENCH then s.haltLeave l else (s.haltLeave l).enterEasy l easyDebugHalt false := by
  unfold State.debugHalt
  dsimp only
  rw [hl, if_neg (by decide)]
  rfl

/-- What the leave of a debug halt leaves of the lane. -/
theorem State.haltLeave_spec {s : State} {l : LaneId} (hl : (s.lane l).rst.held = false) (he : (s.lane l).easy = false) :
    ((s.haltLeave l).lane l).on SIGC_STAT_DBG_BROKE = true ∧ ((s.haltLeave l).lane l).inVote = false ∧
      ((s.lane l).inVote = true → ((s.haltLeave l).lane l).fget VOTE_LEAVE_REASON = 0x0B) ∧
      ((∃ y, y ≠ l ∧ (s.lane y).inVote = true) ∨ (s.lane l).inVote = false →
        s.OnlyLane (s.haltLeave l) l ∧ ((s.haltLeave l).lane l).easy = false ∧ ((s.haltLeave l).lane l).rst.held = false) ∧
      ((s.lane l).inVote = true → (∀ y, y ≠ l → (s.lane y).inVote = false) →
        ∃ (x : Lane) (split : Bool), x.easy = false ∧ x.inVote = false ∧ (s.haltLeave l).lane l = x.enterEasy split (s.lane l).debugCause false) := by
  unfold State.haltLeave State.leaveAtOnce
  generalize hz : (s.setLane l ((s.lane l).fset SIGC_STAT_DBG_BROKE 1)).recLane l 10 2 197 [] = z
  have hlane : z.lane l = (s.lane l).fset SIGC_STAT_DBG_BROKE 1 := by rw [← hz, State.recLane_lane, State.lane_setLane]
  have hother {y : LaneId} (hy : y ≠ l) : z.lane y = s.lane y := by rw [← hz, State.recLane_lane, State.lane_setLane_ne _ _ hy]
  have honly : s.OnlyLane z l := hz ▸ (s.onlyLane_setLane l _).trans (State.onlyLane_recLane _ l _ _ _ _)
  have hkept := (s.lane l).regsKept_fset (f := SIGC_STAT_DBG_BROKE) (as := [SIGC_STAT]) 1 (by decide)
  have hup : (z.lane l).rst.held = false := by rw [hlane]; exact hl
  have heasy : (z.lane l).easy = false := by rw [hlane, hkept.easy (by decide)]; exact he
  have hvote : (z.lane l).inVote = (s.lane l).inVote := by rw [hlane, hkept.inVote (by decide)]
  have hcause : (z.lane l).debugCause = (s.lane l).debugCause := by rw [Lane.debugCause, hlane, hkept.on (by decide), Lane.debugCause]
  have hbroke : ((z.leave l leaveDebug 0 0 (z.now + tenMicros) causeSwr).lane l).on SIGC_STAT_DBG_BROKE = true := by
    rw [Lane.on, State.leave_fget_kept hup _ _ _ _ _ (by decide), hlane]
    exact Lane.on_fset_one _ _ (by decide) rfl
  cases hv : (s.lane l).inVote with
  | false =>
    rw [hv] at hvote
    rw [State.leave_of_outside heasy hvote] at hbroke ⊢
    exact ⟨hbroke, hvote, nofun, fun _ => ⟨honly, heasy, hup⟩, nofun⟩
  | true =>
    rw [hv] at hvote
    have hleft := State.leave_lane hup heasy hvote leaveDebug 0 0 (z.now + tenMicros) causeSwr
    refine ⟨hbroke, hleft.inVote, fun _ => hleft.reason, fun h => ?_, fun _ ho => ?_⟩
    · obtain ⟨y, hy, hyv⟩ := h.resolve_right (by decide)
      obtain ⟨honly', hlane'⟩ := State.leave_of_voter heasy hvote hy (by rw [hother hy]; exact hyv) leaveDebug 0 0 (z.now + tenMicros) causeSwr
      refine ⟨honly.trans honly', ?_, ?_⟩
      · rw [hlane']; exact Lane.leaveNow_easy _ _ _ _ _ _
      · rw [hlane', (Lane.leaveNow_rest _ _ _ _ _ _).2.1]; exact hup
    · obtain ⟨split, hlane'⟩ := State.leaveDebug_of_last hup heasy hvote (fun y hy => by rw [hother hy]; exact ho y hy) 0 0 (z.now + tenMicros) causeSwr
      exact ⟨_, split, Lane.leaveNow_easy _ _ _ _ _ _, Lane.leaveNow_inVote _ _ _ _ _ _, by rw [hlane', hcause]⟩

/-- What a debug halt leaves of the lane outside bench mode: easy all, with its cause and silent outputs. -/
theorem State.debugHalt_lane {s : State} {l : LaneId} (hl : (s.lane l).rst.held = false) (he : (s.lane l).easy = false)
    (hb : (s.lane l).on LCTL_STAT_BENCH = false) :
    ∃ (x : Lane) (split : Bool), x.easy = false ∧ x.inVote = false ∧ (s.debugHalt l).lane l = x.enterEasy split easyDebugHalt false ∧
      (∀ f, f.addr ∉ leaveWrites → ((s.debugHalt l).lane l).fget f = ((s.haltLeave l).lane l).fget f) ∧
      ((s.debugHalt l).lane l).fget VOTE_LEAVE_REASON = ((s.haltLeave l).lane l).fget VOTE_LEAVE_REASON ∧
      (∀ y, y ≠ l → (s.lane y).inVote = true → s.OnlyLaneInEasy (s.debugHalt l) l) := by
  obtain ⟨-, hvote, -, hstay, hlast⟩ := State.haltLeave_spec hl he
  rw [State.debugHalt_eq hl, hb, if_neg (by decide)]
  by_cases ho : (∃ y, y ≠ l ∧ (s.lane y).inVote = true) ∨ (s.lane l).inVote = false
  · obtain ⟨honly, heasy, hup⟩ := hstay ho
    obtain ⟨hin, hlane, -⟩ := State.enterEasy_of_up honly hup heasy easyDebugHalt false
    refine ⟨_, _, heasy, hvote, hlane, fun f hf => ?_, ?_, fun _ _ _ => hin⟩
    · rw [hlane, Lane.enterEasy_fget_kept _ _ _ _ hf]
    · rw [hlane, Lane.enterEasy_leaveReason heasy]
  · obtain ⟨hnone, hv⟩ := not_or.1 ho
    have hnone' (y : LaneId) (hy : y ≠ l) : (s.lane y).inVote = false := Bool.eq_false_iff.2 fun h => hnone ⟨y, hy, h⟩
    obtain ⟨x, split, hx, hxv, hlane⟩ := hlast (by simpa using hv) hnone'
    rw [Lane.debugCause, hb, if_neg (by decide)] at hlane
    have hsame : ((s.haltLeave l).enterEasy l easyDebugHalt false).lane l = (s.haltLeave l).lane l := by
      rw [State.enterEasy_lane_same]
      split
      · rw [Lane.enterEasy, if_pos]
        rw [hlane]
        exact Lane.enterEasy_easy _ _ _ hx
      · rfl
    refine ⟨x, split, hx, hxv, hsame.trans hlane, fun f _ => by rw [hsame], by rw [hsame], fun y hy hyv => ?_⟩
    rw [hnone' y hy] at hyv
    exact absurd hyv (by decide)

/-- What a debug halt does in bench mode: the lane leaves, and easy all comes only if it was the last voter (R197). -/
theorem State.debugHalt_bench {s : State} {l : LaneId} (hl : (s.lane l).rst.held = false) (he : (s.lane l).easy = false)
    (hb : (s.lane l).on LCTL_STAT_BENCH = true) :
    s.debugHalt l = s.haltLeave l ∧ (((s.haltLeave l).lane l).easy = false ∧ s.OnlyLane (s.haltLeave l) l ∨
      (s.lane l).inVote = true ∧ (∀ y, y ≠ l → (s.lane y).inVote = false) ∧ ((s.haltLeave l).lane l).fget VOTE_EASY_CAUSE = 0x01) := by
  obtain ⟨-, -, -, hstay, hlast⟩ := State.haltLeave_spec hl he
  refine ⟨by rw [State.debugHalt_eq hl, hb, if_pos rfl], ?_⟩
  by_cases ho : (∃ y, y ≠ l ∧ (s.lane y).inVote = true) ∨ (s.lane l).inVote = false
  · obtain ⟨honly, heasy, -⟩ := hstay ho
    exact .inl ⟨heasy, honly⟩
  · obtain ⟨hnone, hv⟩ := not_or.1 ho
    have hv' : (s.lane l).inVote = true := by simpa using hv
    have hnone' (y : LaneId) (hy : y ≠ l) : (s.lane y).inVote = false := Bool.eq_false_iff.2 fun h => hnone ⟨y, hy, h⟩
    obtain ⟨x, split, hx, -, hlane⟩ := hlast hv' hnone'
    refine .inr ⟨hv', hnone', ?_⟩
    rw [hlane, Lane.enterEasy_fget_cause _ _ _ hx, Lane.debugCause, hb]
    rfl

/-! ### BENCH_GRANT and CORE1_START (R199, R201) -/

theorem mem_removeL {α : Type} [DecidableEq α] (x y : α) (xs : List α) : y ∈ removeL x xs ↔ y ∈ xs ∧ y ≠ x := by
  rw [removeL, List.mem_filter, decide_eq_true_eq]

theorem State.benchGrant_of_granted {s : State} {l : LaneId} (hg : s.hub.host.granted.contains l = true) (ha : s.hub.on CLKC_HSTAT_AON_FAIL = false) :
    s.benchGrant l = (s.upLane l (·.fset LCTL_STAT_AUTH 1)).modHub fun h => { h with host := { h.host with granted := removeL l h.host.granted } } := by
  unfold State.benchGrant
  rw [hg, ha, if_pos (by rfl)]

/-- A grant reaches the lane it was given for, and is used up. -/
theorem State.benchGrant_spec {s : State} {l : LaneId} (hl : (s.lane l).rst.held = false) (hg : s.hub.host.granted.contains l = true)
    (ha : s.hub.on CLKC_HSTAT_AON_FAIL = false) :
    (∀ k, k ≠ l → (s.benchGrant l).lane k = s.lane k) ∧ (s.lane l).OnlyRegs ((s.benchGrant l).lane l) [LCTL_STAT] ∧
      ((s.benchGrant l).lane l).on LCTL_STAT_AUTH = true ∧ (s.benchGrant l).hub.host.granted.contains l = false := by
  obtain ⟨honly, hlane⟩ := s.upLane_next l (·.fset LCTL_STAT_AUTH 1) hl
  rw [State.benchGrant_of_granted hg ha]
  generalize s.upLane l (·.fset LCTL_STAT_AUTH 1) = u at honly hlane ⊢
  have hregs : (s.lane l).OnlyRegs (u.lane l) [LCTL_STAT] := by
    rw [hlane]
    exact ((s.lane l).onlyRegs_fset (f := LCTL_STAT_AUTH) 1 (by decide)).notes []
  have hauth : (u.lane l).on LCTL_STAT_AUTH = true := by
    rw [hlane, Lane.on_noted]
    exact Lane.on_fset_one _ _ (by decide) rfl
  refine ⟨fun k hk => ?_, ?_, ?_, ?_⟩
  · rw [State.modHub_lane]
    exact honly.1 k hk
  · rw [State.modHub_lane]
    exact hregs
  · rw [State.modHub_lane]
    exact hauth
  · rw [Bool.eq_false_iff, ne_eq, List.contains_iff_mem]
    exact fun h => ((mem_removeL l l _).1 h).2 rfl

/-- Settles O28: each row by its condition. -/
theorem mismatchesAndDebugHaltsEndTheLanesVote : Obligations.MismatchesAndDebugHaltsEndTheLanesVote := by
  refine ⟨⟨fun s l r0 r1 tm hl hs hp hr => ?_, fun s l r0 r1 tm hl hr => ?_, fun s l hl => ?_⟩,
    fun s l hl he => ?_, fun s l hl hg ha => ?_, fun s l v hl => ?_⟩
  · have hlane := s.at_lane tm l
    refine ⟨(s.at tm).windowClose l r0 r1 tm, congrArg Host.Outcome.next (if_neg (by rw [hlane, hl]; decide)), ?_⟩
    have hdue : ((s.at tm).lane l).windowDue r0.length tm = true := by rw [hlane]; exact (Lane.windowDue_iff _ _ _).2 hr
    have hphase : ((s.at tm).lane l).sig.phase = .none := by rw [hlane]; exact hp
    by_cases hsame : r0.foldl misrRetire misrStart = r1.foldl misrRetire misrStart
    · rw [State.windowClose_of_equal hdue hs hphase hsame, hlane]
      obtain ⟨honly, hrest⟩ := State.windowShut_spec s l r0 r1 tm
      exact ⟨fun _ => honly, fun h => absurd hsame h, fun _ h => absurd hsame h, fun _ => ⟨honly, hrest⟩⟩
    · rw [State.windowClose_of_differing hdue hs hphase hsame, hlane]
      obtain ⟨honly, hflag, hleft⟩ := State.windowDiffers_spec r0 r1 tm hl
      exact ⟨honly, fun _ => hflag, fun y _ => hleft y, fun h => absurd h hsame⟩
  · have hlane := s.at_lane tm l
    refine ⟨(s.at tm).windowClose l r0 r1 tm, congrArg Host.Outcome.next (if_neg (by rw [hlane, hl]; decide)), ?_⟩
    rw [State.windowClose_of_early]
    · rfl
    · rw [hlane, Bool.eq_false_iff, ne_eq, Lane.windowDue_iff]
      omega
  · obtain ⟨honly, hlane⟩ := s.upLane_next l Lane.injStart hl
    obtain ⟨hkept, hstart, hign⟩ := (s.lane l).injStart_spec
    refine ⟨s.upLane l Lane.injStart, rfl, honly, ?_⟩
    rw [hlane]
    exact ⟨hkept, hstart, hign⟩
  · obtain ⟨hbroke, hvote, hreason, -, -⟩ := State.haltLeave_spec hl he
    refine ⟨s.debugHalt l, rfl, ?_⟩
    cases hb : (s.lane l).on LCTL_STAT_BENCH with
    | true =>
      obtain ⟨heq, hend⟩ := State.debugHalt_bench hl he hb
      rw [heq]
      exact ⟨hbroke, hvote, hreason, nofun, fun _ => hend⟩
    | false =>
      obtain ⟨x, split, hx, hxv, hlane, hkept, hleave, hin⟩ := State.debugHalt_lane hl he hb
      refine ⟨?_, ?_, fun hv => ?_, fun _ => ⟨?_, ?_, ?_, ?_, hin⟩, nofun⟩
      · rw [Lane.on, hkept _ (by decide)]
        exact hbroke
      · rw [hlane]
        exact Lane.enterEasy_inVote _ _ _ hx
      · rw [hleave]
        exact hreason hv
      · rw [hlane]
        exact Lane.enterEasy_easy _ _ _ hx
      · rw [hlane]
        exact Lane.enterEasy_fget_cause _ _ _ hx
      · rw [hlane]
        exact Lane.enterEasy_dynEn _ _ _ hx
      · rw [hlane, Lane.enterEasy_signEn _ _ _ hx, hxv]
        rfl
  · exact ⟨s.benchGrant l, rfl, State.benchGrant_spec hl hg ha⟩
  · obtain ⟨honly, hlane⟩ := s.upLane_next l (·.core1Start s.split v) hl
    refine ⟨s.upLane l (·.core1Start s.split v), rfl, honly, ?_⟩
    rw [hlane]
    unfold Lane.core1Start
    cases hs : s.split with
    | false => exact ⟨rfl, nofun, fun _ => ⟨rfl, rfl⟩⟩
    | true =>
      refine ⟨rfl, fun _ => ⟨rfl, ?_, (s.lane l).regsKept_setRg _ (by decide), Lane.rg_setRg_same _ _ _⟩, nofun⟩
      exact (s.lane l).core1.bit_setBit_same false (by decide)

end Sys2Proof.Machine
end

section
/-! PROOFS. Bus accesses by address (R5, R6, R10, R368, R568, R572): where the three maps name nothing, what a register takes from a write, what lane
SRAM reads back, and the frames of the SPI host port. -/

namespace Sys2Proof.Machine

/-! ### Where the maps name no row (R568) -/

/-- No row of the lane view names the address. -/
def laneUnmapped (a : Nat) : Prop :=
  (0x10000 ≤ a ∧ a < 0x8000000) ∨ (0x9000000 ≤ a ∧ a < 0x10000000) ∨ (0x10080000 ≤ a ∧ a < 0x10100000) ∨ (0x10180000 ≤ a ∧ a < 0x10200000) ∨
    (0x10240000 ≤ a ∧ a < 0x20000000) ∨ (0x20040000 ≤ a ∧ a < 0x21000000) ∨ (0x25000000 ≤ a ∧ a < 0x40000000) ∨ 0x4000E000 ≤ a

/-- The address lies in no row of the lane view but, at most, a register block. -/
def lanePlain (a : Nat) : Prop :=
  0x10000 ≤ a ∧ ¬ (0x8000000 ≤ a ∧ a < 0x9000000) ∧ ¬ (0x10000000 ≤ a ∧ a < 0x10080000) ∧ ¬ (0x10100000 ≤ a ∧ a < 0x10180000) ∧
    ¬ (0x10200000 ≤ a ∧ a < 0x10240000) ∧ ¬ (0x20000000 ≤ a ∧ a < 0x20040000) ∧ ¬ (0x21000000 ≤ a ∧ a < 0x25000000)

theorem width_pos (w : Width) : 0 < Width.bytes w ∧ Width.bytes w ≤ 4 := by cases w <;> decide

theorem rleArea_of_plain {a : Nat} (h : lanePlain a) : rleArea a = .none := by
  obtain ⟨-, -, h1, h2, h3, -, -⟩ := h
  unfold rleArea
  rw [if_neg h1, if_neg h3, if_neg (by omega), if_neg (by omega), if_neg (by omega), if_neg (by omega)]

theorem inSram_eq_false {a : Nat} (h : ¬ (0x8000000 ≤ a ∧ a < 0x9000000)) : inSram a 1 = false := by
  unfold inSram sramBase sramEnd
  rw [Bool.and_eq_false_iff, decide_eq_false_iff_not, decide_eq_false_iff_not]
  omega

theorem inBridge_eq_false {a : Nat} (h : ¬ (0x21000000 ≤ a ∧ a < 0x25000000)) : inBridge a = false := by
  unfold inBridge brgBase
  rw [Bool.and_eq_false_iff, decide_eq_false_iff_not, decide_eq_false_iff_not]
  omega

theorem State.laneReach_of_plain (s : State) (l : LaneId) {a : Nat} (h : lanePlain a) (w : Width) (acc : Access) (env : AccessEnv) :
    s.laneReach l a w acc env = if 0x40000000 ≤ a ∧ a < 0x4000E000 then s.lanePeriph l a w acc env.hw else s.busErr := by
  obtain ⟨hn, -⟩ := width_pos w
  have hrle := rleArea_of_plain h
  obtain ⟨h0, h1, -, h2, -, h3, h4⟩ := h
  unfold State.laneReach
  dsimp only
  rw [if_neg (by omega), inSram_eq_false h1, if_neg (by decide), hrle, if_neg (by decide), if_neg h2, if_neg h3, inBridge_eq_false h4, if_neg (by decide)]

theorem State.laneReach_of_unmapped (s : State) (l : LaneId) {a : Nat} (h : laneUnmapped a) (w : Width) (acc : Access) (env : AccessEnv) :
    s.laneReach l a w acc env = s.busErr := by
  have hplain : lanePlain a := by unfold laneUnmapped at h; unfold lanePlain; omega
  rw [s.laneReach_of_plain l hplain, if_neg (by unfold laneUnmapped at h; omega)]

theorem State.laneReach_of_periph (s : State) (l : LaneId) {a : Nat} (h : 0x40000000 ≤ a ∧ a < 0x4000E000) (w : Width) (acc : Access) (env : AccessEnv) :
    s.laneReach l a w acc env = s.lanePeriph l a w acc env.hw := by
  rw [s.laneReach_of_plain l (by unfold lanePlain; omega), if_pos h]

/-- An access of a width or alignment that a register block does not take (R5). -/
theorem State.lanePeriph_refused (s : State) (l : LaneId) {a : Nat} (hd : a < CRC_DATA ∨ CRC_DATA + 4 ≤ a) {w : Width} (hw : w ≠ .word ∨ a % 4 ≠ 0)
    (acc : Access) (hs : Word) : s.lanePeriph l a w acc hs = s.busErr := by
  have hdata : inCrcData CRC_DATA a = false := by
    unfold inCrcData
    rw [Bool.and_eq_false_iff, decide_eq_false_iff_not, decide_eq_false_iff_not]
    omega
  refine if_pos ?_
  by_cases h : w = .word
  · exact .inl (by rw [h]; exact hw.resolve_left (not_not_intro h))
  · exact .inr ⟨h, hdata⟩

theorem exec_badWidthAccess_lane (l : LaneId) (addr : Word) (w : Width) (acc : Access) (env : AccessEnv) (s : State) :
    exec (.badWidthAccess (.lane l) addr w acc env) s = .next (s.laneAccess l addr.toNat w acc env) := rfl

theorem exec_unmappedAccess_lane (l : LaneId) (addr : Word) (acc : Access) (s : State) :
    exec (.unmappedAccess (.lane l) addr acc) s = .next (s.laneAccess l addr.toNat .word acc .plain) := rfl

/-- What a firmware access that ends in a bus error does: the exception of the core, and nothing else (R188). -/
theorem State.laneAccess_error {s : State} {l : LaneId} (hl : (s.lane l).rst.held = false) {addr : Word} {w : Width} {acc : Access} {env : AccessEnv}
    (hsrc : env.src = .firmware) (h : s.laneReach l addr.toNat w acc env = s.busErr) :
    s.laneAccess l addr.toNat w acc env =
      { ({ s with bus := .error } : State).modLane l fun x => x.busTrap s.split (decide (acc ≠ Access.read)) addr with bus := .error } := by
  have haddr : BitVec.ofNat 32 addr.toNat = addr := by rw [BitVec.ofNat_toNat, BitVec.setWidth_eq]
  unfold State.laneAccess
  dsimp only
  rw [hl, if_neg (by decide), hsrc]
  dsimp only
  rw [h, haddr, State.trapOnError, if_pos ⟨rfl, by rw [State.busErr_lane]; exact hl⟩]
  cases acc <;> cases l <;> rfl

theorem Lane.busTrap_core0 (x : Lane) (split write : Bool) (a : Word) :
    (x.busTrap split write a).core0.tval = a ∧ (x.busTrap split write a).core0.epc = x.core0.pc ∧
      (x.busTrap split write a).core0.cause = BitVec.ofNat 32 (if write then excStore else excLoad) := by
  unfold Lane.busTrap
  cases split <;> exact ⟨rfl, rfl, rfl⟩

/-! ### CRC units and plain registers (R5 to R7) -/

theorem Lane.crcData_notes (x : Lane) (w : Width) (v : Word) : (x.crcData w v).notes = x.notes := by
  unfold Lane.crcData Lane.showCrc
  split <;> rfl

theorem Lane.crcData_held (x : Lane) (w : Width) (v : Word) : (x.crcData w v).rst = x.rst := by
  unfold Lane.crcData Lane.showCrc
  split <;> rfl

/-- A change of a lane that has nothing to hand to the recorder, and gives it nothing, is that change alone. -/
theorem State.upLane_of_no_notes {s : State} {l : LaneId} (hl : (s.lane l).rst.held = false) {f : Lane → Lane} (hf : (f (s.lane l)).notes = []) :
    s.upLane l f = s.modLane l f := by
  unfold State.upLane
  rw [hl, if_neg (by decide)]
  unfold State.flushNotes
  rw [State.lane_modLane, hf]
  refine State.modLane_of_eq (s := s.modLane l f) ?_
  rw [State.lane_modLane, ← hf]

/-- A register without a RW field only loses the RW1C bits written with 1 (R6). -/
theorem regWritten_of_no_rw {d : RegDesc} (h : d.rw = 0) (old v : Word) : regWritten d old v = old &&& ~~~(v &&& BitVec.ofNat 32 d.w1c) := by
  unfold regWritten
  dsimp only
  rw [h, show ~~~(BitVec.ofNat 32 0) = BitVec.allOnes 32 from rfl, show BitVec.ofNat 32 0 = 0#32 from rfl, BitVec.and_allOnes, BitVec.and_zero, BitVec.or_zero]

theorem descOf_tmrStat : descOf laneRegs TMR_STAT = some { name := "TMR_STAT", base := 0x4000401C, stride := 4, count := 1, rw := 0, w1c := 0x1F0, reset := 0, keep := 0 } := by
  decide

/-- Beyond `BIST_STAT` the self-test block holds no register. -/
theorem descOf_bist_none {a : Nat} (h1 : 0x40009000 < a) (h2 : a < 0x4000A000) (h4 : a % 4 = 0) : descOf laneRegs a = none := by
  have hall : ∀ d ∈ laneRegs, 0 < d.stride ∧ (d.base + d.stride * d.count ≤ 0x40009004 ∨ 0x4000A000 ≤ d.base) := by decide
  refine List.find?_eq_none.2 fun d hd => ?_
  obtain ⟨hpos, hend⟩ := hall d hd
  simp only [Bool.and_eq_true, decide_eq_true_eq, not_and]
  intro ⟨hbase, _⟩ hcount
  have hlt := (Nat.div_lt_iff_lt_mul hpos).1 hcount
  rw [Nat.mul_comm] at hlt
  omega

theorem Lane.hwSet_of_none {a : Nat} (h : descOf laneRegs a = none) (x : Lane) (hw : Word) : x.hwSet a hw = x := by
  unfold Lane.hwSet
  rw [h]

theorem Lane.plainWrite_of_none {a : Nat} (h : descOf laneRegs a = none) (x : Lane) (v : Word) : x.plainWrite a v = x := by
  unfold Lane.plainWrite
  rw [h]

theorem Lane.hwSet_rg {a : Nat} {d : RegDesc} (h : descOf laneRegs a = some d) (x : Lane) (hw : Word) :
    (x.hwSet a hw).rg a = x.rg a ||| (hw &&& BitVec.ofNat 32 d.w1c) := by
  unfold Lane.hwSet
  rw [h]
  dsimp only
  split
  next h0 => rw [h0, show (0 : Word) &&& BitVec.ofNat 32 d.w1c = 0#32 from BitVec.zero_and, BitVec.or_zero]
  next => exact Lane.rg_setRg_same _ _ _

theorem Lane.hwSet_onlyRegs (x : Lane) (a : Nat) (hw : Word) : x.OnlyRegs (x.hwSet a hw) [a] := by
  unfold Lane.hwSet
  split
  · split
    · exact .refl x _
    · exact x.onlyRegs_setRg _ (by simp)
  · exact .refl x _

theorem Lane.hwSet_held (x : Lane) (a : Nat) (hw : Word) : (x.hwSet a hw).rst = x.rst := by rw [(x.hwSet_onlyRegs a hw).1]

/-- An aligned word write in a register block of a lane. -/
theorem State.laneAccess_write {s : State} {l : LaneId} (hl : (s.lane l).rst.held = false) {a : Nat} (ha : 0x40000000 ≤ a ∧ a < 0x4000E000)
    (h4 : a % 4 = 0) (v : Word) {env : AccessEnv} (hsrc : env.src = .firmware) :
    s.laneAccess l a .word (.write v) env = ((s.laneRegWrite l a v).upLane l (·.hwSet a env.hw)).busOk := by
  have hreach : s.laneReach l a .word (.write v) env = ((s.laneRegWrite l a v).upLane l (·.hwSet a env.hw)).busOk := by
    rw [s.laneReach_of_periph l ha]
    unfold State.lanePeriph
    rw [if_neg (by simp [Width.bytes, h4])]
    rfl
  rw [State.laneAccess_firmware a .word (.write v) hl hsrc (by rw [hreach]; nofun), hreach]

/-- A register without a row of its own: a plain write, then what hardware sets in the same clock. -/
theorem State.plainAccess_spec {s : State} {l : LaneId} (hl : (s.lane l).rst.held = false) (a : Nat) (v hw : Word) :
    s.OnlyLane { ((s.upLane l (·.plainWrite a v)).upLane l (·.hwSet a hw)).busOk with bus := s.bus } l ∧
      ((s.upLane l (·.plainWrite a v)).upLane l (·.hwSet a hw)).busOk.lane l = { ((s.lane l).plainWrite a v).hwSet a hw with notes := [] } := by
  obtain ⟨honly, hlane⟩ := s.upLane_next l (·.plainWrite a v) hl
  have hup : ((s.upLane l (·.plainWrite a v)).lane l).rst.held = false := by
    rw [hlane]
    show ((s.lane l).plainWrite a v).rst.held = false
    rw [((s.lane l).plainWrite_onlyRegs a v).1]
    exact hl
  obtain ⟨honly', hlane'⟩ := (s.upLane l (·.plainWrite a v)).upLane_next l (·.hwSet a hw) hup
  refine ⟨(honly.trans honly').busOk, ?_⟩
  rw [State.busOk_lane, hlane', hlane]
  unfold Lane.hwSet
  split
  · split <;> rfl
  · rfl

/-! ### Words of SRAM (R415) -/

theorem memBytes_putBytes (m : List Host.Cell) (a : Nat) (bs : List Byte) : memBytes (memPutBytes m a bs) a bs.length = bs := by
  unfold memBytes upTo
  refine List.ext_getElem (by simp) fun i _ h => ?_
  rw [List.getElem_map, List.getElem_range]
  exact memByte_putBytes_at m a i bs h

theorem memNat_putNat (m : List Host.Cell) (a n v : Nat) : memNat (memPutNat m a n v) a n = v % 256 ^ n := by
  have h := memBytes_putBytes m a (leBytes n v)
  rw [leBytes_length] at h
  rw [memNat, memPutNat, h, ofLe_leBytes]

theorem inSram_one_of_sramOk {bad : List Nat} {a n : Nat} (h : sramOk bad a n = true) (hn : 0 < n) : inSram a 1 = true ∧ 0x8000000 ≤ a := by
  obtain ⟨hlow, hhigh⟩ : 0x08000000 ≤ a ∧ a + n ≤ 0x09000000 := by
    unfold sramOk inSram sramBase sramEnd at h
    rw [Bool.and_eq_true, Bool.and_eq_true, Bool.and_eq_true, decide_eq_true_eq, decide_eq_true_eq] at h
    exact h.1.1
  unfold inSram sramBase sramEnd
  rw [Bool.and_eq_true, decide_eq_true_eq, decide_eq_true_eq]
  omega

theorem State.laneReach_of_sram {s : State} {l : LaneId} {a : Nat} (h : sramOk (s.lane l).badBanks a 4 = true) (acc : Access) :
    s.laneReach l a .word acc .plain = s.laneSram l a 4 0 acc := by
  obtain ⟨hin, hlow⟩ := inSram_one_of_sramOk h (by decide)
  unfold State.laneReach
  dsimp only
  rw [if_neg (by simp only [Width.bytes]; omega), hin, if_pos rfl]
  rfl

theorem State.laneSram_write {s : State} {l : LaneId} {a : Nat} (h : sramOk (s.lane l).badBanks a 4 = true) (v : Word) :
    s.laneSram l a 4 0 (.write v) = (s.setLane l { s.lane l with sram := memPutNat (s.lane l).sram a 4 v.toNat }).busOk := by
  unfold State.laneSram Lane.sramWrite
  dsimp only
  rw [h, if_pos rfl]
  dsimp only
  rw [show (0 == 0) = true from rfl, Bool.or_true, if_pos rfl]

theorem State.laneSram_read {s : State} {l : LaneId} {a : Nat} (h : sramOk (s.lane l).badBanks a 4 = true) :
    s.laneSram l a 4 0 .read = s.busData (BitVec.ofNat 32 (memNat (s.lane l).sram a 4)) := by
  unfold State.laneSram Lane.sramRead
  dsimp only
  rw [h, if_pos rfl]
  rfl

/-! ### Register accesses of the hub -/

theorem Hub.plainWrite_spec {a : Nat} {d : RegDesc} (h : descOf hubRegs a = some d) (x : Hub) (v hw : Word) :
    x.OnlyRegs ((x.plainWrite a v).hwSet a hw) [a] ∧
      ((x.plainWrite a v).hwSet a hw).rg a = regWritten d (x.rg a) v ||| (hw &&& BitVec.ofNat 32 d.w1c) := by
  unfold Hub.plainWrite Hub.hwSet
  rw [h]
  dsimp only
  split
  next h0 =>
    rw [h0, show (0 : Word) &&& BitVec.ofNat 32 d.w1c = 0#32 from BitVec.zero_and, BitVec.or_zero, Hub.rg_setRg_same]
    exact ⟨⟨rfl, fun b hb => Hub.rg_setRg_ne _ _ fun e => hb (List.mem_singleton.2 e)⟩, rfl⟩
  next =>
    rw [Hub.rg_setRg_same, Hub.rg_setRg_same]
    refine ⟨⟨rfl, fun b hb => ?_⟩, rfl⟩
    have hne : b ≠ a := fun e => hb (List.mem_singleton.2 e)
    rw [Hub.rg_setRg_ne _ _ hne, Hub.rg_setRg_ne _ _ hne]

theorem State.hubAccess_of_periph {s : State} (hh : s.hub.rst.held = false) {a : Nat} (ha : 0x40000000 ≤ a ∧ a < 0x40016000) (w : Width) (acc : Access)
    (env : AccessEnv) : s.hubAccess a w acc env = s.hubPeriph a w acc env.hw := by
  obtain ⟨hn, -⟩ := width_pos w
  have hsram : inSram a 1 = false := inSram_eq_false (by omega)
  have hflash : inFlashWin a = false := by
    unfold inFlashWin
    rw [Bool.and_eq_false_iff, decide_eq_false_iff_not, decide_eq_false_iff_not]
    omega
  unfold State.hubAccess
  dsimp only
  rw [hh, if_neg (by decide), if_neg (by omega), hsram, if_neg (by decide), if_neg (by omega), hflash, if_neg (by decide), if_pos ha]

theorem State.hubAccess_of_unmapped {s : State} (hh : s.hub.rst.held = false) {a : Nat}
    (ha : (0x40000 ≤ a ∧ a < 0x8000000) ∨ (0x9000000 ≤ a ∧ a < 0x20000000) ∨ (0x200C0000 ≤ a ∧ a < 0x30000000) ∨ (0x40016000 ≤ a ∧ a < 0x40100000) ∨
      0x40110000 ≤ a) (w : Width) (acc : Access) (env : AccessEnv) : s.hubAccess a w acc env = s.busErr := by
  obtain ⟨hn, -⟩ := width_pos w
  have hsram : inSram a 1 = false := inSram_eq_false (by omega)
  have hflash : inFlashWin a = false := by
    unfold inFlashWin
    rw [Bool.and_eq_false_iff, decide_eq_false_iff_not, decide_eq_false_iff_not]
    omega
  unfold State.hubAccess
  dsimp only
  rw [hh, if_neg (by decide), if_neg (by omega), hsram, if_neg (by decide), if_neg (by omega), hflash, if_neg (by decide), if_neg (by omega), if_neg (by omega)]

theorem State.hubPeriph_refused (s : State) {a : Nat} (h0 : a < HCRC_DATA 0 ∨ HCRC_DATA 0 + 4 ≤ a) (h1 : a < HCRC_DATA 1 ∨ HCRC_DATA 1 + 4 ≤ a) {w : Width}
    (hw : w ≠ .word ∨ a % 4 ≠ 0) (acc : Access) (hs : Word) : s.hubPeriph a w acc hs = s.busErr := by
  have hdata (u : Nat) (h : a < HCRC_DATA u ∨ HCRC_DATA u + 4 ≤ a) : inCrcData (HCRC_DATA u) a = false := by
    unfold inCrcData
    rw [Bool.and_eq_false_iff, decide_eq_false_iff_not, decide_eq_false_iff_not]
    omega
  unfold State.hubPeriph
  dsimp only
  rw [hdata 0 h0, hdata 1 h1]
  refine if_pos ?_
  by_cases h : w = .word
  · exact .inl (by rw [h]; exact hw.resolve_left (not_not_intro h))
  · exact .inr ⟨h, rfl⟩

/-- An access that is no aligned word access of a firmware block is carried out. -/
theorem accessOutcome_hub {a : Nat} {w : Width} (h : ¬ (0x4000B000 ≤ a ∧ a < 0x40015000) ∨ w ≠ .word ∨ a % 4 ≠ 0) (acc : Access) (env : AccessEnv) (s : State) :
    accessOutcome .hub a w acc env s = .next (s.hubAccess a w acc env) := by
  by_cases hb : 0x4000B000 ≤ a ∧ a < 0x40015000
  · have hw := h.resolve_left (not_not_intro hb)
    unfold accessOutcome firmwareBlock
    dsimp only
    rw [if_pos hb]
    dsimp only
    rw [if_pos (by simpa [or_assoc] using .inr hw)]
    rfl
  · exact accessOutcome_of_no_block (m := .hub) (by unfold firmwareBlock; exact if_neg hb) w acc env s

theorem State.barAccess_refused {s : State} {off : Nat} {w : Width} (h : 0x10000 ≤ off ∨ w ≠ .word ∨ off % 4 ≠ 0) (acc : Access) :
    s.barAccess off w acc = s.busErr := if_pos (.inr h)

theorem State.barAccess_taken {s : State} {off : Nat} (hh : s.hub.rst.held = false) (h1 : off < 0x10000) (h2 : off % 4 = 0) :
    s.barAccess off .word .read = s.busData (s.hub.barRead off) ∧ ∀ v, s.barAccess off .word (.write v) = (s.barWrite off v).busOk := by
  have hno : ¬ (s.hub.rst.held = true ∨ 0x10000 ≤ off ∨ Width.word ≠ .word ∨ off % 4 ≠ 0) := by
    rw [hh]
    simp only [Bool.false_eq_true, ne_eq, not_true_eq_false, false_or]
    omega
  unfold State.barAccess
  exact ⟨by rw [if_neg hno], fun v => by rw [if_neg hno]⟩

/-! ### Frames of the SPI host port (R368) -/

theorem crcBitN16_lt {r : Nat} (hr : r < 2 ^ 16) : crcBitN 16 0x1021 r < 2 ^ 16 := by
  unfold crcBitN
  split
  · exact Nat.xor_lt_two_pow (Nat.mod_lt _ (by decide)) (by decide)
  · omega

/-- A CRC-16 is a half word. -/
theorem crc16_lt (bs : List Byte) : crc16 bs < 65536 := by
  have h : ∀ (bs : List Byte) (r : Nat), r < 2 ^ 16 → bs.foldl (crcByteN 16 0x1021) r < 2 ^ 16 := by
    intro bs
    induction bs with
    | nil => exact fun r h => h
    | cons b bs ih =>
      intro r hr
      refine ih _ ?_
      have hb : r ^^^ (b.toNat * 2 ^ (16 - 8)) < 2 ^ 16 := Nat.xor_lt_two_pow hr (by have := b.isLt; omega)
      unfold crcByteN eightTimes
      iterate 8 refine crcBitN16_lt ?_
      exact hb
  exact h bs _ (by decide)

/-- The header and data of a frame that writes one word of BAR0. -/
def spiWriteHead (off : Nat) (v : Word) : List Byte := [0x02#8, 0x00#8] ++ beBytes 3 off ++ [0x01#8] ++ leBytes 4 v.toNat

/-- The fields of a frame that begins with a header of one word, and what is behind it. -/
theorem spiHead_fields {b rest : List Byte} {op : Byte} {off : Nat} (h : b = [op, 0x00#8] ++ beBytes 3 off ++ [0x01#8] ++ rest) (hoff : off < 0x10000) :
    beAt b 0 1 = op.toNat ∧ beAt b 1 1 = 0 ∧ beAt b 2 3 = off ∧ beAt b 5 1 = 1 ∧ b.length = 6 + rest.length ∧ b.drop 6 = rest := by
  have hop : beBytes 1 op.toNat = [op] := by rw [beBytes_one, BitVec.ofNat_toNat, BitVec.setWidth_eq]
  refine ⟨?_, ?_, ?_, ?_, ?_, ?_⟩
  · exact beAt_of_eq (a := []) (c := [0x00#8] ++ beBytes 3 off ++ [0x01#8] ++ rest) (by rw [h, hop]; simp) rfl op.isLt
  · exact beAt_of_eq (a := [op]) (c := beBytes 3 off ++ [0x01#8] ++ rest) (by rw [h, beBytes_one]; simp) rfl (by decide)
  · exact beAt_of_eq (a := [op, 0x00#8]) (c := [0x01#8] ++ rest) (by rw [h]; simp) rfl (by omega)
  · exact beAt_of_eq (a := [op, 0x00#8] ++ beBytes 3 off) (c := rest) (by rw [h, beBytes_one]; simp) (by simp) (by decide)
  · rw [h]
    simp only [List.length_append, beBytes_length, List.length_cons, List.length_nil]
  · rw [h]
    exact List.drop_left' (by simp)

theorem spiWriteFrame_fields (off : Nat) (v : Word) (crc : Nat) (hoff : off < 0x10000) (hcrc : crc < 65536) :
    beAt (spiWriteHead off v ++ beBytes 2 crc) 0 1 = 2 ∧ beAt (spiWriteHead off v ++ beBytes 2 crc) 1 1 = 0 ∧
      beAt (spiWriteHead off v ++ beBytes 2 crc) 2 3 = off ∧ beAt (spiWriteHead off v ++ beBytes 2 crc) 5 1 = 1 ∧
      (spiWriteHead off v ++ beBytes 2 crc).length = 12 ∧ beAt (spiWriteHead off v ++ beBytes 2 crc) 10 2 = crc ∧
      (spiWriteHead off v ++ beBytes 2 crc).take 10 = spiWriteHead off v ∧
      leAt ((spiWriteHead off v ++ beBytes 2 crc).drop 6) 0 4 = v.toNat := by
  have hb : spiWriteHead off v ++ beBytes 2 crc = [0x02#8, 0x00#8] ++ beBytes 3 off ++ [0x01#8] ++ (leBytes 4 v.toNat ++ beBytes 2 crc) := by
    rw [spiWriteHead, List.append_assoc]
  obtain ⟨h0, h1, h2, h5, hlen, hdrop⟩ := spiHead_fields hb hoff
  have hhead : (spiWriteHead off v).length = 10 := by simp [spiWriteHead, leBytes_length]
  refine ⟨h0, h1, h2, h5, ?_, ?_, List.take_left' hhead, ?_⟩
  · rw [hlen, List.length_append, leBytes_length, beBytes_length]
  · exact beAt_of_eq (a := spiWriteHead off v) (c := []) (by simp) hhead hcrc
  · rw [hdrop, leAt, List.drop_zero, List.take_left' (leBytes_length 4 _), ofLe_leBytes]
    exact Nat.mod_eq_of_lt v.isLt

theorem State.spiWord_write (s : State) {off : Nat} (hoff : off < 0x10000) (v : Word) :
    (s.spiWord false off (.write v)).2 = s.barAccess off .word (.write v) := by
  unfold State.spiWord
  dsimp only
  rw [if_neg (by decide), if_pos hoff]
  split <;> rfl

theorem State.spiWord_read {s : State} {off : Nat} (hh : s.hub.rst.held = false) (h1 : off < 0x10000) (h2 : off % 4 = 0) :
    s.spiWord false off .read = (s.hub.barRead off, s.busData (s.hub.barRead off)) := by
  unfold State.spiWord
  dsimp only
  rw [if_neg (by decide), if_pos h1, (State.barAccess_taken hh h1 h2).1]
  rfl

section Spi

variable {s : State} {off : Nat} (hh : s.hub.rst.held = false) (hspi : s.hub.on HCMD_STAT_HOSTSPI = true) (h1 : off < 0x10000) (h2 : off % 4 = 0)

include hh hspi h1 h2

/-- A frame that writes one word: its access where its CRC is right, and an error where it is not. -/
theorem State.spiTransaction_write (v : Word) {crc : Nat} (hcrc : crc < 65536) :
    s.spiTransaction (spiWriteHead off v ++ beBytes 2 crc) =
      if crc = crc16 (spiWriteHead off v) then s.barAccess off .word (.write v) else s.modHub (·.hostFlag HCMD_STAT_SPI_ERR 1) := by
  obtain ⟨hf0, hf1, hf2, hf5, hlen, hfcrc, htake, hdata⟩ := spiWriteFrame_fields off v crc h1 hcrc
  generalize spiWriteHead off v ++ beBytes 2 crc = b at hf0 hf1 hf2 hf5 hlen hfcrc htake hdata ⊢
  have hhead : spiHeadOk b = true := by
    unfold spiHeadOk
    rw [hf1, hf2, hf5, hlen, h2]
    rfl
  have hne : b.isEmpty = false := by
    cases b with
    | nil => exact absurd hlen (by decide)
    | cons x xs => rfl
  have hdata' : BitVec.ofNat 32 (leAt (b.drop 6) 0 4) = v := by rw [hdata, BitVec.ofNat_toNat, BitVec.setWidth_eq]
  unfold State.spiTransaction
  dsimp only
  rw [hh, hspi, if_neg (by decide), hne, if_neg (by decide), hf0, if_neg (by decide), hf5, hf1, hf2, hhead, hlen, htake, hfcrc]
  by_cases h : crc = crc16 (spiWriteHead off v)
  · rw [if_pos h, if_pos (by rw [h, beq_self_eq_true]; rfl)]
    unfold State.spiWrite State.spiWrite
    rw [hdata']
    exact s.spiWord_write h1 v
  · rw [if_neg h, if_neg]
    rw [beq_eq_false_iff_ne.2 h, Bool.and_false]
    decide

/-- A frame that reads one word: the data and its CRC go out. -/
theorem State.spiTransaction_read :
    s.spiTransaction ([0x0B#8, 0x00#8] ++ beBytes 3 off ++ [0x01#8] ++ zeros 14) =
      (s.busData (s.hub.barRead off)).modHub fun h => { h with host := { h.host with
        spiOut := leBytes 4 (s.hub.barRead off).toNat ++ beBytes 2 (crc16 (leBytes 4 (s.hub.barRead off).toNat)) } } := by
  obtain ⟨hf0, hf1, hf2, hf5, hlen, -⟩ := spiHead_fields (b := [0x0B#8, 0x00#8] ++ beBytes 3 off ++ [0x01#8] ++ zeros 14) rfl h1
  rw [show (zeros 14).length = 14 from List.length_replicate] at hlen
  generalize [0x0B#8, 0x00#8] ++ beBytes 3 off ++ [0x01#8] ++ zeros 14 = b at hf0 hf1 hf2 hf5 hlen ⊢
  have hhead : spiHeadOk b = true := by
    unfold spiHeadOk
    rw [hf1, hf2, hf5, hlen, h2]
    rfl
  have hne : b.isEmpty = false := by
    cases b with
    | nil => exact absurd hlen (by simp)
    | cons x xs => rfl
  unfold State.spiTransaction
  dsimp only
  rw [hh, hspi, if_neg (by decide), hne, if_neg (by decide), hf0, if_pos (by rfl), hhead, if_pos rfl, hf5, hf1, hf2, hlen]
  unfold State.spiRead State.spiRead
  dsimp only
  rw [show (0 == 2) = false from rfl, State.spiWord_read hh h1 h2]
  dsimp only
  rw [List.append_nil, List.take_of_length_le (by rw [List.length_append, leBytes_length, beBytes_length])]

end Spi

theorem Hub.hostFlag_spec (x : Hub) : x.RegsKept (x.hostFlag HCMD_STAT_SPI_ERR 1) [HCMD_STAT] ∧ (x.hostFlag HCMD_STAT_SPI_ERR 1).on HCMD_STAT_SPI_ERR = true ∧
    (x.hostFlag HCMD_STAT_SPI_ERR 1).sram = x.sram := by
  have hreg : (x.hostFlag HCMD_STAT_SPI_ERR 1).reg = (x.fset HCMD_STAT_SPI_ERR (x.fget HCMD_STAT_SPI_ERR ||| 1)).reg := by
    unfold Hub.hostFlag
    dsimp only
    split <;> rfl
  refine ⟨fun a ha => ?_, ?_, ?_⟩
  · rw [Hub.rg, hreg]
    exact Hub.rg_fset_ne _ _ fun e => ha (List.mem_singleton.2 e)
  · have hbit : x.fget HCMD_STAT_SPI_ERR = 0 ∨ x.fget HCMD_STAT_SPI_ERR = 1 := by
      have : x.fget HCMD_STAT_SPI_ERR < 2 := getField_lt _ _ _
      omega
    have hfget : (x.hostFlag HCMD_STAT_SPI_ERR 1).fget HCMD_STAT_SPI_ERR = (x.fset HCMD_STAT_SPI_ERR (x.fget HCMD_STAT_SPI_ERR ||| 1)).fget HCMD_STAT_SPI_ERR := by
      rw [Hub.fget, Hub.rg, hreg]
      rfl
    rw [Hub.on, hfget, Hub.fget_fset_same _ _ _ (by decide)]
    rcases hbit with e | e <;> rw [e] <;> rfl
  · unfold Hub.hostFlag
    dsimp only
    split <;> rfl

/-! ### The statement -/

theorem accesses_outside_the_maps (s : State) :
    (∀ (l : LaneId) (addr : Word) (acc : Access), (s.lane l).rst.held = false → laneUnmapped addr.toNat →
      ∃ t, exec (.unmappedAccess (.lane l) addr acc) s = .next t ∧ t.bus = .error ∧
        t = { ({ s with bus := .error } : State).modLane l fun x => x.busTrap s.split (decide (acc ≠ Access.read)) addr with bus := .error } ∧
        (t.lane l).core0.tval = addr ∧ (t.lane l).core0.epc = (s.lane l).core0.pc ∧ (t.lane l).core0.cause = (if acc = Access.read then 4 else 5)) ∧
    (∀ (l : LaneId) (addr : Word) (w : Width) (acc : Access) (env : AccessEnv), (s.lane l).rst.held = false →
      0x40000000 ≤ addr.toNat → addr.toNat < 0x4000E000 → (addr.toNat < CRC_DATA ∨ CRC_DATA + 4 ≤ addr.toNat) → (w ≠ .word ∨ addr.toNat % 4 ≠ 0) →
      ∃ t, exec (.badWidthAccess (.lane l) addr w acc env) s = .next t ∧
        (env.src = .firmware →
          t = { ({ s with bus := .error } : State).modLane l fun x => x.busTrap s.split (decide (acc ≠ Access.read)) addr with bus := .error }) ∧
        (env.src = .debug → t = { s with bus := .error }) ∧ (∀ j, env.src = .task j → (s.lane l).taskRuns j = none → t = s)) := by
  refine ⟨fun l addr acc hl h => ?_, fun l addr w acc env hl hlo hhi hd hw => ?_⟩
  · have herr := State.laneAccess_error hl (w := .word) (acc := acc) (env := .plain) rfl (s.laneReach_of_unmapped l h .word acc .plain)
    refine ⟨_, exec_unmappedAccess_lane l addr acc s, ?_⟩
    rw [herr]
    generalize hz : ({ s with bus := .error } : State).modLane l (fun x => x.busTrap s.split (decide (acc ≠ Access.read)) addr) = z
    have hlane : ({ z with bus := .error } : State).lane l = (s.lane l).busTrap s.split (decide (acc ≠ Access.read)) addr := by
      rw [← hz]
      cases l <;> rfl
    obtain ⟨htval, hepc, hcause⟩ := (s.lane l).busTrap_core0 s.split (decide (acc ≠ Access.read)) addr
    refine ⟨rfl, rfl, ?_⟩
    rw [hlane]
    refine ⟨htval, hepc, hcause.trans ?_⟩
    cases acc <;> rfl
  · have hreach : ∀ x : State, x.laneReach l addr.toNat w acc env = x.busErr := fun x => by
      rw [x.laneReach_of_periph l ⟨hlo, hhi⟩, x.lanePeriph_refused l hd hw]
    refine ⟨_, exec_badWidthAccess_lane l addr w acc env s, fun hsrc => State.laneAccess_error hl hsrc (hreach s), fun hsrc => ?_, fun j hsrc hj => ?_⟩
    · unfold State.laneAccess
      rw [hl, if_neg (by decide), hsrc]
      dsimp only
      rw [hreach]
      split <;> rfl
    · unfold State.laneAccess
      rw [hl, if_neg (by decide), hsrc]
      dsimp only
      rw [hj]

theorem Lane.taskRuns_rst {x y : Lane} {j : Nat} (h : x.taskRuns j = some y) : y.rst = x.rst := by
  unfold Lane.taskRuns at h
  split at h
  · split at h
    · rw [← Option.some.inj h]
    · exact absurd h (by simp)
  · exact absurd h (by simp)

theorem bad_width_of_task {s : State} {l : LaneId} {addr : Word} {w : Width} {env : AccessEnv} {j : Nat} {x : Lane} (acc : Access)
    (hl : (s.lane l).rst.held = false) (hlo : 0x40000000 ≤ addr.toNat) (hhi : addr.toNat < 0x4000E000)
    (hd : addr.toNat < CRC_DATA ∨ CRC_DATA + 4 ≤ addr.toNat) (hw : w ≠ .word ∨ addr.toNat % 4 ≠ 0) (hsrc : env.src = .task j)
    (hx : (s.lane l).taskRuns j = some x) :
    ∃ t, exec (.badWidthAccess (.lane l) addr w acc env) s = .next t ∧ t.bus = .error ∧ t.hub = s.hub ∧
      t.lane l = x.busTrap s.split (decide (acc ≠ Access.read)) addr := by
  have haddr : BitVec.ofNat 32 addr.toNat = addr := by rw [BitVec.ofNat_toNat, BitVec.setWidth_eq]
  have hlane : ((s.setLane l x).busErr).lane l = x := by rw [State.busErr_lane, State.lane_setLane]
  have heq : s.laneAccess l addr.toNat w acc env = (s.setLane l x).busErr.modLane l (·.busTrap s.split (decide (acc ≠ Access.read)) addr) := by
    unfold State.laneAccess
    rw [hl, if_neg (by decide), hsrc]
    dsimp only
    rw [hx]
    dsimp only
    rw [(s.setLane l x).laneReach_of_periph l ⟨hlo, hhi⟩, (s.setLane l x).lanePeriph_refused l hd hw, haddr, State.trapOnError,
      if_pos ⟨rfl, by rw [hlane, Lane.taskRuns_rst hx]; exact hl⟩]
    cases acc <;> cases l <;> rfl
  refine ⟨_, exec_badWidthAccess_lane l addr w acc env s, ?_⟩
  rw [heq, State.lane_modLane, hlane]
  cases l <;> exact ⟨rfl, rfl, rfl⟩

theorem crcData_of_narrow {s : State} {l : LaneId} {addr v : Word} {w : Width} {env : AccessEnv} (hl : (s.lane l).rst.held = false)
    (hlo : CRC_DATA ≤ addr.toNat) (hhi : addr.toNat < CRC_DATA + 4) (hw : w ≠ .word) (ha : addr.toNat % Width.bytes w = 0) (hsrc : env.src = .firmware)
    (hn : (s.lane l).notes = []) :
    ∃ t, exec (.badWidthAccess (.lane l) addr w (.write v) env) s = .next t ∧ t = { s.modLane l (·.crcData w v) with bus := .none } := by
  have hin : inCrcData CRC_DATA addr.toNat = true := by
    unfold inCrcData
    rw [decide_eq_true hlo, decide_eq_true hhi]
    rfl
  have hreach : s.laneReach l addr.toNat w (.write v) env = (s.modLane l (·.crcData w v)).busOk := by
    rw [s.laneReach_of_periph l ⟨by unfold CRC_DATA at hlo; omega, by unfold CRC_DATA at hhi; omega⟩]
    unfold State.lanePeriph
    rw [if_neg (by rw [hin, ha]; simp)]
    dsimp only
    rw [if_neg hw, State.upLane_of_no_notes hl (by rw [Lane.crcData_notes]; exact hn)]
  refine ⟨_, exec_badWidthAccess_lane l addr w (.write v) env s, ?_⟩
  rw [State.laneAccess_firmware _ w (.write v) hl hsrc (by rw [hreach]; nofun), hreach]
  rfl

/-- Settles O30: outside the rows of the maps an access ends in a bus error; inside it takes the branch of its block. -/
theorem accessesFollowTheMapAndTheFieldTypes : Obligations.AccessesFollowTheMapAndTheFieldTypes := by
  refine ⟨⟨fun s => (accesses_outside_the_maps s).1, fun s addr acc hh ha => ?_, fun s addr acc ha => ?_, fun s => (accesses_outside_the_maps s).2,
    fun s l addr w acc env j x hl hlo hhi hd hw hsrc hx => bad_width_of_task acc hl hlo hhi hd hw hsrc hx,
    fun s addr w acc env hh hlo hhi h0 h1 hw => ?_, fun s addr w acc env hw => ?_,
    fun s l addr v w env hl hlo hhi hw ha hsrc hn => crcData_of_narrow hl hlo hhi hw ha hsrc hn⟩,
    ⟨fun s l v env hl hsrc => ?_, fun s l addr v env hl hsrc hlo hhi h4 => ?_, fun s l addr env hl hsrc hlo hhi h4 => ?_, fun s l addr v hl hok => ?_,
      fun s addr v env d hh hlo hhi h4 hd => ?_, fun s addr env hh hlt h4 => ?_, fun s addr acc env hh hlo hhi h4 => ?_⟩,
    fun s off v hh hspi h1 h2 => ?_, fun s off hh hspi h1 h2 => ?_⟩
  · refine ⟨_, accessOutcome_hub (.inl (by dsimp only at ha; omega)) acc .plain s, ?_⟩
    rw [State.hubAccess_of_unmapped hh ha]
    rfl
  · exact ⟨_, accessOutcome_of_no_block (m := .host) rfl .word acc .plain s, State.barAccess_refused (.inl ha) acc⟩
  · refine ⟨_, accessOutcome_hub (.inr hw) acc env s, ?_⟩
    rw [State.hubAccess_of_periph hh ⟨hlo, hhi⟩, s.hubPeriph_refused h0 h1 hw]
    rfl
  · exact ⟨_, accessOutcome_of_no_block (m := .host) rfl w acc env s, State.barAccess_refused (.inr hw) acc⟩
  · obtain ⟨honly, hlane⟩ := s.plainAccess_spec hl TMR_STAT v env.hw
    refine ⟨_, { name := "TMR_STAT", base := 0x4000401C, stride := 4, count := 1, rw := 0, w1c := 0x1F0, reset := 0, keep := 0 },
      exec_registerWrite_lane l _ (.write v) env s, ?_⟩
    rw [show (BitVec.ofNat 32 TMR_STAT).toNat = TMR_STAT from rfl, State.laneAccess_write hl (by decide) (by decide) v hsrc,
      show s.laneRegWrite l TMR_STAT v = s.upLane l (·.plainWrite TMR_STAT v) from rfl, hlane]
    refine ⟨rfl, descOf_tmrStat, (((s.lane l).plainWrite_onlyRegs TMR_STAT v).trans (Lane.hwSet_onlyRegs _ TMR_STAT env.hw)).notes [], ?_⟩
    rw [Lane.rg_noted, Lane.hwSet_rg descOf_tmrStat, Lane.plainWrite_rg descOf_tmrStat]
    rw [regWritten_of_no_rw rfl]
  · obtain ⟨honly, hlane⟩ := s.plainAccess_spec hl addr.toNat v env.hw
    have hnone := descOf_bist_none hlo hhi h4
    have hblock : s.laneRegWrite l addr.toNat v = s.upLane l (·.plainWrite addr.toNat v) := by
      unfold State.laneRegWrite
      rw [show (addr.toNat - 0x40000000) / 0x1000 = 9 by omega]
      rfl
    refine ⟨_, exec_registerWrite_lane l _ (.write v) env s, ?_⟩
    rw [State.laneAccess_write hl ⟨by omega, by omega⟩ h4 v hsrc, hblock, hlane]
    refine ⟨rfl, honly, ?_⟩
    rw [Lane.plainWrite_of_none hnone, Lane.hwSet_of_none hnone]
  · have hreach : s.laneReach l addr.toNat .word .read env =
        ((s.laneAt l s.now).modLane l (·.latched addr.toNat)).busData (((s.laneAt l s.now).lane l).shown (s.laneAt l s.now).now addr.toNat) := by
      rw [s.laneReach_of_periph l ⟨hlo, hhi⟩]
      unfold State.lanePeriph
      rw [if_neg (by simp [Width.bytes, h4])]
      rfl
    have hnow : (s.laneAt l s.now).now = s.now := by cases l <;> exact Nat.max_self _
    refine ⟨_, exec_registerWrite_lane l _ .read env s, ?_⟩
    rw [State.laneAccess_firmware _ .word .read hl hsrc (by rw [hreach]; nofun), hreach, hnow]
    refine ⟨?_, ?_, rfl⟩
    · cases l <;> rfl
    · rw [State.busData_lane, State.lane_modLane, State.lane_laneAt]
      unfold Lane.latched
      split
      · rfl
      · split <;> rfl
  · have hwrite : s.laneAccess l addr.toNat .word (.write v) .plain = (s.setLane l { s.lane l with sram := memPutNat (s.lane l).sram addr.toNat 4 v.toNat }).busOk := by
      rw [State.laneAccess_firmware _ .word (.write v) hl rfl (by rw [State.laneReach_of_sram hok, State.laneSram_write hok]; nofun),
        State.laneReach_of_sram hok, State.laneSram_write hok]
    generalize ht : (s.setLane l { s.lane l with sram := memPutNat (s.lane l).sram addr.toNat 4 v.toNat }).busOk = t at hwrite
    have hlane : t.lane l = { s.lane l with sram := memPutNat (s.lane l).sram addr.toNat 4 v.toNat } := by rw [← ht, State.busOk_lane, State.lane_setLane]
    have hok' : sramOk (t.lane l).badBanks addr.toNat 4 = true := by rw [hlane]; exact hok
    have hread : t.laneAccess l addr.toNat .word .read .plain = t.busData (BitVec.ofNat 32 (memNat (t.lane l).sram addr.toNat 4)) := by
      rw [State.laneAccess_firmware _ .word .read (by rw [hlane]; exact hl) rfl (by rw [State.laneReach_of_sram hok', State.laneSram_read hok']; nofun),
        State.laneReach_of_sram hok', State.laneSram_read hok']
    refine ⟨t, _, (exec_registerWrite_lane l addr (.write v) .plain s).trans (congrArg _ hwrite), exec_registerWrite_lane l addr .read .plain t, ?_⟩
    rw [hread, hlane]
    refine ⟨by rw [← ht]; rfl, ?_, rfl, fun b hb => ?_⟩
    · refine congrArg BusResp.data ?_
      rw [memNat_putNat, Nat.mod_eq_of_lt (show v.toNat < 256 ^ 4 from v.isLt), BitVec.ofNat_toNat, BitVec.setWidth_eq]
    · exact memByte_putBytes_outside _ _ (by rw [leBytes_length]; exact hb)
  · obtain ⟨hregs, hrg⟩ := s.hub.plainWrite_spec hd v env.hw
    have hblock : s.hubRegWrite addr.toNat v = s.upHub (·.plainWrite addr.toNat v) := by
      have hidx : (addr.toNat - 0x40000000) / 0x1000 = 0 ∨ (addr.toNat - 0x40000000) / 0x1000 = 1 := by omega
      unfold State.hubRegWrite
      rcases hidx with h | h
      · rw [h]
        rfl
      · rw [h]
        rfl
    have hwrite : s.hubAccess addr.toNat .word (.write v) env = ({ s with hub := (s.hub.plainWrite addr.toNat v).hwSet addr.toNat env.hw } : State).busOk := by
      have hup : (s.hub.plainWrite addr.toNat v).rst.held = false := by
        unfold Hub.plainWrite
        rw [hd]
        exact hh
      rw [State.hubAccess_of_periph hh ⟨hlo, by omega⟩]
      unfold State.hubPeriph
      dsimp only
      rw [if_neg (by simp [Width.bytes, h4]), if_pos rfl, hblock]
      have hup1 : s.upHub (·.plainWrite addr.toNat v) = s.modHub (·.plainWrite addr.toNat v) := if_neg (by rw [hh]; decide)
      have hup2 : (s.modHub (·.plainWrite addr.toNat v)).upHub (·.hwSet addr.toNat env.hw) =
          (s.modHub (·.plainWrite addr.toNat v)).modHub (·.hwSet addr.toNat env.hw) := if_neg (by rw [State.modHub_hub, hup]; decide)
      rw [hup1, hup2]
      rfl
    generalize ht : ({ s with hub := (s.hub.plainWrite addr.toNat v).hwSet addr.toNat env.hw } : State).busOk = t at hwrite
    have hhub : t.hub = (s.hub.plainWrite addr.toNat v).hwSet addr.toNat env.hw := by rw [← ht]; rfl
    have hup : t.hub.rst.held = false := by rw [hhub, hregs.1]; exact hh
    have hread : t.hubAccess addr.toNat .word .read env = t.busData (t.hub.rg addr.toNat) := by
      rw [State.hubAccess_of_periph hup ⟨hlo, by omega⟩]
      unfold State.hubPeriph
      dsimp only
      rw [if_neg (by simp [Width.bytes, h4]), if_neg (by simp)]
    refine ⟨t, _, (accessOutcome_hub (.inl (by omega)) (.write v) env s).trans (congrArg _ hwrite), accessOutcome_hub (.inl (by omega)) .read env t, ?_⟩
    rw [hread]
    refine ⟨?_, by rw [← ht]; rfl, by rw [hhub]; exact hregs, by rw [hhub]; exact hrg, rfl⟩
    rw [← ht]
    rfl
  · exact ⟨_, accessOutcome_of_no_block (m := .host) rfl .word .read env s, (State.barAccess_taken hh hlt h4).1⟩
  · show accessOutcome .hub addr.toNat .word acc env s = _
    unfold accessOutcome firmwareBlock
    dsimp only
    rw [if_pos ⟨hlo, hhi⟩]
    dsimp only
    rw [if_neg (by rw [hh, h4]; decide)]
  · have hoff : (BitVec.ofNat 32 off).toNat = off := by
      rw [BitVec.toNat_ofNat]
      exact Nat.mod_eq_of_lt (by omega)
    refine ⟨?_, fun crc hcrc hne => ?_⟩
    · have hbytes := State.spiTransaction_write hh hspi h1 h2 v (crc16_lt (spiWriteHead off v))
      rw [if_pos rfl] at hbytes
      refine (congrArg Host.Outcome.next hbytes).trans ?_
      show _ = accessOutcome .host (BitVec.ofNat 32 off).toNat .word (.write v) .plain s
      rw [hoff]
      rfl
    · have hbytes := State.spiTransaction_write hh hspi h1 h2 v hcrc
      rw [if_neg (show crc ≠ crc16 (spiWriteHead off v) from hne)] at hbytes
      obtain ⟨hkept, hflag, hsram⟩ := s.hub.hostFlag_spec
      exact ⟨_, congrArg Host.Outcome.next hbytes, rfl, hkept, hflag, hsram⟩
  · exact ⟨_, congrArg Host.Outcome.next (State.spiTransaction_read hh hspi h1 h2), rfl, rfl⟩

end Sys2Proof.Machine
end

section
/-! PROOFS. Bridges, their rules once (R388 to R403): what the shown status changes, what issuing waiting reads leaves as it was, and the semaphores
with the exclusive sequences. -/

namespace Sys2Proof.Machine

/-- The two differ in registers alone. -/
def Lane.RegOnly (x y : Lane) : Prop := y = { x with reg := y.reg }

theorem Lane.RegOnly.trans {x y z : Lane} (hxy : x.RegOnly y) (hyz : y.RegOnly z) : x.RegOnly z := by
  unfold Lane.RegOnly at hxy hyz ⊢
  rw [hyz, hxy]

theorem Lane.regOnly_setRg (x : Lane) (a : Nat) (v : Word) : x.RegOnly (x.setRg a v) := rfl

theorem Lane.regOnly_fset (x : Lane) (f : Fld) (v : Nat) : x.RegOnly (x.fset f v) := rfl

/-! ### What the queues show (R399) -/

/-- The registers that follow the bridge's queues. -/
def brgShown : List Nat := [BRG_STAT, BRG_HMSG, BRG_EQ_INFO, BRG_EQ_ADDR, LCTL_IRQ_PEND]

/-- A field of `BRG_STAT` outside the counts of outstanding reads and of errors. -/
def brgStatic (f : Fld) : Prop := f.addr = BRG_STAT ∧ f.lo + f.w ≤ 32 ∧ (f.lo + f.w ≤ 11 ∨ (16 ≤ f.lo ∧ f.lo + f.w ≤ 16) ∨ 23 ≤ f.lo)

/-- The counts and line 6 shown, before the heads of the queues. -/
def Lane.brgCounts (l : Lane) : Lane :=
  let x := (l.fset BRG_STAT_OUT l.brg.reads.length).fset BRG_STAT_EQN l.brg.errs.length
  x.setRg LCTL_IRQ_PEND (bvSet (x.rg LCTL_IRQ_PEND) 6 1 (b2n (!l.brg.errs.isEmpty)))

/-- What the error queue's registers show of its head. -/
def BrgInt.errHead (b : BrgInt) : Word × Word :=
  match b.errs with
  | e :: _ => (BitVec.ofNat 32 (0x80000000 + e.ndisc * 0x10000 + e.code * 0x100 + b2n e.write * 0x80 + e.win), e.addr)
  | [] => (0, 0)

theorem Lane.brgShow_eq (l : Lane) :
    l.brgShow = ((l.brgCounts.setRg BRG_HMSG (l.brg.hubMsgs.headD 0)).setRg BRG_EQ_INFO l.brg.errHead.1).setRg BRG_EQ_ADDR l.brg.errHead.2 := by
  unfold Lane.brgShow Lane.brgCounts BrgInt.errHead
  dsimp only
  cases l.brg.hubMsgs <;> cases l.brg.errs <;> rfl

theorem Lane.brgCounts_regOnly (l : Lane) : l.RegOnly l.brgCounts :=
  ((l.regOnly_fset BRG_STAT_OUT l.brg.reads.length).trans (Lane.regOnly_fset _ BRG_STAT_EQN l.brg.errs.length)).trans (Lane.regOnly_setRg _ _ _)

theorem Lane.brgShow_frame (l : Lane) : l.brgShow = { l with reg := l.brgShow.reg } := by
  have h : l.RegOnly l.brgShow := by
    rw [l.brgShow_eq]
    exact ((l.brgCounts_regOnly.trans (Lane.regOnly_setRg _ _ _)).trans (Lane.regOnly_setRg _ _ _)).trans (Lane.regOnly_setRg _ _ _)
  exact h

@[simp] theorem Lane.brgShow_brg (l : Lane) : l.brgShow.brg = l.brg := by rw [l.brgShow_frame]

theorem Lane.brgCounts_regsKept (l : Lane) : l.RegsKept l.brgCounts brgShown := by
  have hcounts := (l.regsKept_fset (f := BRG_STAT_OUT) (as := brgShown) l.brg.reads.length (by decide)).trans
    (Lane.regsKept_fset _ (f := BRG_STAT_EQN) l.brg.errs.length (by decide))
  exact hcounts.trans (Lane.regsKept_setRg _ (a := LCTL_IRQ_PEND) _ (by decide))

theorem Lane.brgShow_regsKept (l : Lane) : l.RegsKept l.brgShow brgShown := by
  rw [l.brgShow_eq]
  exact ((l.brgCounts_regsKept.trans (Lane.regsKept_setRg _ _ (by decide))).trans (Lane.regsKept_setRg _ _ (by decide))).trans
    (Lane.regsKept_setRg _ _ (by decide))

/-- The heads shown leave the counts. -/
theorem Lane.brgShow_fget_stat (l : Lane) {f : Fld} (hf : f.addr = BRG_STAT) : l.brgShow.fget f = l.brgCounts.fget f := by
  rw [l.brgShow_eq, Lane.fget_setRg_ne _ _ (by rw [hf]; decide), Lane.fget_setRg_ne _ _ (by rw [hf]; decide),
    Lane.fget_setRg_ne _ _ (by rw [hf]; decide)]

theorem Lane.brgCounts_fget_stat (l : Lane) {f : Fld} (hf : f.addr = BRG_STAT) :
    l.brgCounts.fget f = ((l.fset BRG_STAT_OUT l.brg.reads.length).fset BRG_STAT_EQN l.brg.errs.length).fget f :=
  Lane.fget_setRg_ne _ _ (by rw [hf]; decide)

theorem Lane.brgShow_fget_static (l : Lane) {f : Fld} (hf : brgStatic f) : l.brgShow.fget f = l.fget f := by
  obtain ⟨haddr, hword, hbits⟩ := hf
  have hn : BRG_STAT_EQN.lo = 11 ∧ BRG_STAT_EQN.w = 5 ∧ BRG_STAT_OUT.lo = 16 ∧ BRG_STAT_OUT.w = 7 := by decide
  obtain ⟨h1, h2, h3, h4⟩ := hn
  rw [l.brgShow_fget_stat haddr, l.brgCounts_fget_stat haddr, Lane.fget_fset_bits _ (f := BRG_STAT_EQN) (g := f) _ haddr hword (by omega),
    Lane.fget_fset_bits _ (f := BRG_STAT_OUT) (g := f) _ haddr hword (by omega)]

theorem Lane.brgShow_fget_out (l : Lane) : l.brgShow.fget BRG_STAT_OUT = l.brg.reads.length % 2 ^ 7 := by
  rw [l.brgShow_fget_stat rfl, l.brgCounts_fget_stat rfl,
    Lane.fget_fset_bits _ (f := BRG_STAT_EQN) (g := BRG_STAT_OUT) _ (by rfl) (by decide) (by decide), Lane.fget_fset_same _ _ _ (by decide)]
  rfl

theorem Lane.brgShow_hmsg (l : Lane) : l.brgShow.rg BRG_HMSG = l.brg.hubMsgs.headD 0 := by
  rw [l.brgShow_eq, Lane.rg_setRg_ne _ _ (by decide), Lane.rg_setRg_ne _ _ (by decide), Lane.rg_setRg_same]

theorem Lane.brgShow_errHead (l : Lane) : l.brgShow.rg BRG_EQ_INFO = l.brg.errHead.1 ∧ l.brgShow.rg BRG_EQ_ADDR = l.brg.errHead.2 := by
  rw [l.brgShow_eq]
  exact ⟨by rw [Lane.rg_setRg_ne _ _ (by decide), Lane.rg_setRg_same], by rw [Lane.rg_setRg_same]⟩

theorem Lane.brgShow_irq (l : Lane) :
    l.brgShow.rg LCTL_IRQ_PEND = bvSet (l.rg LCTL_IRQ_PEND) 6 1 (b2n (!l.brg.errs.isEmpty)) := by
  rw [l.brgShow_eq, Lane.rg_setRg_ne _ _ (by decide), Lane.rg_setRg_ne _ _ (by decide), Lane.rg_setRg_ne _ _ (by decide)]
  unfold Lane.brgCounts
  dsimp only
  rw [Lane.rg_setRg_same, Lane.rg_fset_ne _ _ (by decide), Lane.rg_fset_ne _ _ (by decide)]

/-- A window is poisoned as its bit of `POISON` says. -/
theorem Lane.poisonedWin_eq (l : Lane) {w : Nat} (hw : w < 8) : l.poisonedWin w = (l.fget BRG_STAT_POISON).testBit w := by
  have hread : l.fget BRG_STAT_POISON = getField (l.rg BRG_STAT).toNat 24 8 := rfl
  rw [hread, getField_testBit]
  unfold Lane.poisonedWin
  rw [BitVec.getLsbD]
  simp [hw]

theorem Lane.poisonedWin_of_fget {x y : Lane} (h : y.fget BRG_STAT_POISON = x.fget BRG_STAT_POISON) {w : Nat} (hw : w < 8) :
    y.poisonedWin w = x.poisonedWin w := by
  rw [y.poisonedWin_eq hw, x.poisonedWin_eq hw, h]

theorem brgWin_lt (a : Nat) : brgWin a < 8 := Nat.mod_lt _ (by decide)

theorem brgStatic_poison : brgStatic BRG_STAT_POISON := by unfold brgStatic; decide

/-! ### Issuing reads (R390, R393) -/

/-- Only the reads outstanding and waiting, and what the queues show, differ. -/
def Lane.ReadsMoved (x y : Lane) : Prop :=
  y = { x with reg := y.reg, brg := { x.brg with reads := y.brg.reads, waiting := y.brg.waiting } } ∧
    x.RegsKept y brgShown ∧ ∀ f, brgStatic f → y.fget f = x.fget f

theorem Lane.ReadsMoved.trans {x y z : Lane} (hxy : x.ReadsMoved y) (hyz : y.ReadsMoved z) : x.ReadsMoved z := by
  obtain ⟨hy, hyk, hyf⟩ := hxy
  obtain ⟨hz, hzk, hzf⟩ := hyz
  refine ⟨?_, hyk.trans hzk, fun f hf => (hzf f hf).trans (hyf f hf)⟩
  rw [hz, hy]

theorem Lane.readsMoved_of_reads (x : Lane) (rs ws : List BrgRead) :
    x.ReadsMoved { x with brg := { x.brg with reads := rs, waiting := ws } } :=
  ⟨rfl, Lane.regsKept_of_reg_eq rfl _, fun f _ => Lane.fget_of_reg_eq rfl f⟩

theorem Lane.readsMoved_brgShow (x : Lane) : x.ReadsMoved x.brgShow := by
  refine ⟨?_, x.brgShow_regsKept, fun f hf => x.brgShow_fget_static hf⟩
  rw [x.brgShow_frame]

theorem Lane.readsMoved_issueRead (x : Lane) (r : BrgRead) (t : Nat) : x.ReadsMoved (x.issueRead r t) := by
  unfold Lane.issueRead
  cases x.brg.freeTag with
  | none => exact x.readsMoved_of_reads _ _
  | some k => exact x.readsMoved_of_reads _ _

theorem Lane.readsMoved_issueWaiting (x : Lane) (t n : Nat) : x.ReadsMoved (x.issueWaiting t n) := by
  induction n generalizing x with
  | zero => exact x.readsMoved_brgShow
  | succ n ih =>
    unfold Lane.issueWaiting
    split
    · next r rest hw =>
      split
      · exact ((x.readsMoved_of_reads x.brg.reads rest).trans (Lane.readsMoved_issueRead _ _ _)).trans (ih _)
      · exact x.readsMoved_brgShow
    · exact x.readsMoved_brgShow

theorem Lane.issueWaiting_of_none {x : Lane} (h : x.brg.waiting = []) (t n : Nat) : x.issueWaiting t n = x.brgShow := by
  cases n with
  | zero => rfl
  | succ n => rw [Lane.issueWaiting, h]

/-! ### Semaphores (R402) -/

theorem semOwner_word (n : Nat) : (BRG_SEM_OWNER n).lo + (BRG_SEM_OWNER n).w ≤ 32 := by show 0 + 2 ≤ 32; decide

theorem Lane.semOwner_fset (x : Lane) (n : Nat) {v : Nat} (hv : v < 4) : (x.fset (BRG_SEM_OWNER n) v).fget (BRG_SEM_OWNER n) = v := by
  rw [Lane.fget_fset_same _ _ _ (semOwner_word n)]
  exact Nat.mod_eq_of_lt hv

theorem Lane.semTake_spec (x : Lane) (n : Nat) (byLane byHub : Bool) :
    x.OnlyRegs (x.semTake n byLane byHub) [BRG_SEM n] ∧
      (x.semTake n byLane byHub).fget (BRG_SEM_OWNER n) =
        if x.fget (BRG_SEM_OWNER n) ≠ 0 then x.fget (BRG_SEM_OWNER n) else if byHub then 2 else if byLane then 1 else 0 := by
  have hset : ∀ v, x.OnlyRegs (x.fset (BRG_SEM_OWNER n) v) [BRG_SEM n] := fun v => x.onlyRegs_fset v (List.mem_singleton.mpr rfl)
  unfold Lane.semTake semFree semHub semLane
  by_cases hfree : x.fget (BRG_SEM_OWNER n) ≠ 0
  · rw [if_pos hfree, if_pos hfree]
    exact ⟨Lane.OnlyRegs.refl _ _, rfl⟩
  · rw [if_neg hfree, if_neg hfree]
    cases byHub with
    | true => exact ⟨hset 2, x.semOwner_fset n (by decide)⟩
    | false =>
      cases byLane with
      | true => exact ⟨hset 1, x.semOwner_fset n (by decide)⟩
      | false => exact ⟨Lane.OnlyRegs.refl _ _, Decidable.not_not.mp hfree⟩

theorem Lane.semGive_of_holder {x : Lane} {n : Nat} {byHub : Bool} (h : x.fget (BRG_SEM_OWNER n) = if byHub then 2 else 1) :
    x.semGive n byHub = { x.fset (BRG_SEM_OWNER n) 0 with
      brg := { x.brg with excl := if byHub = false ∧ x.brg.excl = some n then none else x.brg.excl } } := by
  unfold Lane.semGive semHub semLane semFree
  rw [if_pos h]
  cases byHub with
  | true => rfl
  | false =>
    by_cases he : x.brg.excl = some n
    · simp [Lane.fset, he]
    · simp [Lane.fset, he]; rfl

theorem Lane.semGive_of_other {x : Lane} {n : Nat} {byHub : Bool} (h : x.fget (BRG_SEM_OWNER n) ≠ if byHub then 2 else 1) :
    x.semGive n byHub = x := if_neg h

theorem Lane.semGive_spec (x : Lane) (n : Nat) (byHub : Bool) :
    x.OnlyRegs { x.semGive n byHub with brg := x.brg } [BRG_SEM n] ∧
      (x.semGive n byHub).brg = { x.brg with excl := if byHub = false ∧ x.fget (BRG_SEM_OWNER n) = 1 ∧ x.brg.excl = some n then none
        else x.brg.excl } ∧
      (x.semGive n byHub).fget (BRG_SEM_OWNER n) =
        if x.fget (BRG_SEM_OWNER n) = (if byHub then 2 else 1) then 0 else x.fget (BRG_SEM_OWNER n) := by
  by_cases h : x.fget (BRG_SEM_OWNER n) = if byHub then 2 else 1
  · rw [Lane.semGive_of_holder h, if_pos h]
    refine ⟨x.onlyRegs_fset 0 (List.mem_singleton.mpr rfl), ?_, ?_⟩
    · cases byHub with
      | true => rfl
      | false => simp [show x.fget (BRG_SEM_OWNER n) = 1 from h]
    · exact (Lane.fget_of_reg_eq rfl _).trans (x.semOwner_fset n (by decide))
  · rw [Lane.semGive_of_other h, if_neg h]
    refine ⟨Lane.OnlyRegs.refl _ _, ?_, rfl⟩
    cases byHub with
    | true => rfl
    | false => simp [show x.fget (BRG_SEM_OWNER n) ≠ 1 from h]

/-! ### Reads and writes that the bridge takes (R388, R390, R396) -/

theorem State.ifUp_of_up {s : State} {l : LaneId} (h : (s.lane l).rst.held = false) (f : State → State) : s.ifUp l f = f s := by
  unfold State.ifUp
  rw [h]
  rfl

/-- A fresh read of a bridge access. -/
def freshRead (a : Word) (w : Width) : BrgRead := { tag := 0, addr := a, bytes := Width.bytes w, t0 := 0, t := 0, attempts := 0, code := 0 }

/-- The lane after a read has been taken. -/
def Lane.readTaken (x : Lane) (a : Word) (w : Width) (t : Nat) : Lane :=
  ({ x with brg := { x.brg with waiting := x.brg.waiting ++ [freshRead a w] } } : Lane).issueWaiting t 64

theorem Lane.readsMoved_readTaken (x : Lane) (a : Word) (w : Width) (t : Nat) : x.ReadsMoved (x.readTaken a w t) :=
  (x.readsMoved_of_reads x.brg.reads _).trans (Lane.readsMoved_issueWaiting _ _ _)

theorem State.brgReadStart_taken {s : State} {l : LaneId} {a : Word} {w : Width} (hin : inBridge a.toNat = true) (hal : a.toNat % Width.bytes w = 0)
    (hen : (s.lane l).on (BRG_MAP_EN (brgWin a.toNat)) = true) (hp : (s.lane l).poisonedWin (brgWin a.toNat) = false) (t : Nat) :
    s.brgReadStart l a w t = (s.setLane l ((s.lane l).readTaken a w t)).busOk := by
  unfold State.brgReadStart
  simp [hin, hal, hen, hp]
  rfl

/-- The lane after a write has been posted. -/
def Lane.writePosted (x : Lane) (a : Word) (w : Width) (v : Word) (t : Nat) : Lane :=
  { x with brg := { x.brg with writes := x.brg.writes ++ [{ win := brgWin a.toNat, addr := a, bytes := Width.bytes w, v := v, t := t }] } }

theorem State.brgWriteStart_posted {s : State} {l : LaneId} {a : Word} {w : Width} (hin : inBridge a.toNat = true) (hal : a.toNat % Width.bytes w = 0)
    (hen : (s.lane l).on (BRG_MAP_EN (brgWin a.toNat)) = true) (hwen : (s.lane l).on (BRG_MAP_WEN (brgWin a.toNat)) = true)
    (hp : (s.lane l).poisonedWin (brgWin a.toNat) = false) (v : Word) (t : Nat) :
    s.brgWriteStart l a w v t = (s.setLane l ((s.lane l).writePosted a w v t)).busOk := by
  unfold State.brgWriteStart
  simp [hin, hal, hen, hwen, hp]
  rfl

/-! ### Exclusive sequences (R403) -/

theorem exclSem_lt (a : Word) : exclSem a < 32 := getField_lt _ _ _

theorem Lane.exclTake_of_none {x : Lane} (h : x.brg.excl = none) (k : Nat) :
    x.exclTake k = if x.fget (BRG_SEM_OWNER k) = 0 then { x.fset (BRG_SEM_OWNER k) 1 with brg := { x.brg with excl := some k } } else x := by
  unfold Lane.exclTake
  rw [h]
  dsimp only
  unfold semFree semLane
  by_cases hk : x.fget (BRG_SEM_OWNER k) = 0
  · rw [if_pos hk, if_pos hk]
  · rw [if_neg hk, if_neg hk, ← h]

/-- Taking a semaphore for an exclusive sequence changes no register but that semaphore's, and no queue. -/
theorem Lane.exclTake_kept {x : Lane} (h : x.brg.excl = none) (k : Nat) :
    x.RegsKept (x.exclTake k) [BRG_SEM k] ∧ (x.exclTake k).rst = x.rst := by
  rw [Lane.exclTake_of_none h]
  split
  · exact ⟨(x.regsKept_fset (f := BRG_SEM_OWNER k) (as := [BRG_SEM k]) 1 (List.mem_singleton.mpr rfl)).trans (Lane.regsKept_of_reg_eq rfl _), rfl⟩
  · exact ⟨Lane.RegsKept.refl _ _, rfl⟩

theorem Lane.RegsKept.poisonedWin {x y : Lane} {as : List Nat} (h : x.RegsKept y as) (hf : BRG_STAT ∉ as) (w : Nat) :
    y.poisonedWin w = x.poisonedWin w := by
  unfold Lane.poisonedWin
  rw [h _ hf]

theorem brgMap_ne_sem {w n : Nat} (hw : w < 8) : BRG_MAP w ≠ BRG_SEM n := by unfold BRG_MAP BRG_SEM; omega

theorem brgSem_ne_shown {n : Nat} (hn : n < 32) : BRG_SEM n ∉ brgShown := by
  have h : ∀ a ∈ brgShown, a < 0x4000B100 ∨ 0x4000B180 ≤ a := by decide
  intro hmem
  have := h _ hmem
  unfold BRG_SEM at this
  omega

theorem brgSem_ne_stat (n : Nat) : BRG_STAT ∉ [BRG_SEM n] := by
  rw [List.mem_singleton]
  unfold BRG_STAT BRG_SEM
  omega

theorem Lane.readTaken_sem (x : Lane) (a : Word) (w : Width) (t : Nat) {n : Nat} (hn : n < 32) :
    (x.readTaken a w t).fget (BRG_SEM_OWNER n) = x.fget (BRG_SEM_OWNER n) ∧ (x.readTaken a w t).brg.excl = x.brg.excl := by
  obtain ⟨hframe, hkept, -⟩ := x.readsMoved_readTaken a w t
  refine ⟨?_, by rw [hframe]⟩
  have hrg : (x.readTaken a w t).rg (BRG_SEM n) = x.rg (BRG_SEM n) := hkept _ (brgSem_ne_shown hn)
  exact congrArg (fun v => bvField v (BRG_SEM_OWNER n).lo (BRG_SEM_OWNER n).w) hrg

/-- An exclusive load through a window in order: the semaphore's part, and then a plain read. -/
theorem State.exclusiveLoad_taken {s : State} {l : LaneId} {a : Word} (tm : Nat) (hin : inBridge a.toNat = true) (hal : a.toNat % 4 = 0)
    (hen : (s.lane l).on (BRG_MAP_EN (brgWin a.toNat)) = true) (hp : (s.lane l).poisonedWin (brgWin a.toNat) = false)
    (hx : (s.lane l).brg.excl = none) :
    s.exclusiveLoad l a tm = (s.setLane l (((s.lane l).exclTake (exclSem a)).readTaken a .word tm)).busOk := by
  obtain ⟨hkept, -⟩ := Lane.exclTake_kept hx (exclSem a)
  have hmap : (BRG_MAP_EN (brgWin a.toNat)).addr ∉ [BRG_SEM (exclSem a)] := by
    rw [List.mem_singleton]
    exact brgMap_ne_sem (brgWin_lt _)
  have hread : (s.modLane l (·.exclTake (exclSem a))).brgReadStart l a .word tm =
      (s.setLane l (((s.lane l).exclTake (exclSem a)).readTaken a .word tm)).busOk := by
    rw [State.brgReadStart_taken (l := l) (w := .word) (s := s.modLane l (·.exclTake (exclSem a))) hin hal
      (by rw [State.lane_modLane, hkept.on hmap, hen])
      (by rw [State.lane_modLane, hkept.poisonedWin (brgSem_ne_stat _), hp]), State.lane_modLane]
    cases l <;> rfl
  unfold State.exclusiveLoad State.exclLoadRead
  rw [if_neg (by omega), if_pos hin, hread, State.trapOnError_of_no_error]
  rw [State.busOk_bus]
  decide

/-- A store of the sequence that holds its semaphore: posted, the semaphore freed and the sequence over. -/
theorem State.exclusiveStore_posted {s : State} {l : LaneId} {a : Word} (v : Word) (tm : Nat) (hin : inBridge a.toNat = true) (hal : a.toNat % 4 = 0)
    (hen : (s.lane l).on (BRG_MAP_EN (brgWin a.toNat)) = true) (hwen : (s.lane l).on (BRG_MAP_WEN (brgWin a.toNat)) = true)
    (hp : (s.lane l).poisonedWin (brgWin a.toNat) = false) (hx : (s.lane l).brg.excl = some (exclSem a))
    (ho : (s.lane l).fget (BRG_SEM_OWNER (exclSem a)) = 1) :
    let y := (s.lane l).writePosted a .word v tm
    s.exclusiveStore l a v tm =
      (s.setLane l { y.semGive (exclSem a) false with brg := { y.brg with excl := none } }).busData 1 := by
  intro y
  have hstart : s.brgWriteStart l a .word v tm = (s.setLane l y).busOk := State.brgWriteStart_posted (w := .word) hin hal hen hwen hp v tm
  have hwrite : s.exclStoreWrite l a v tm = (s.setLane l { y.semGive (exclSem a) false with brg := { y.brg with excl := none } }).busData 1 := by
    unfold State.exclStoreWrite
    dsimp only
    rw [if_neg (by omega), if_pos hin, if_pos (by simp [hx, ho, semLane]), hstart, if_neg (by rw [State.modLane_bus, State.busOk_bus]; decide)]
    cases l <;> rfl
  unfold State.exclusiveStore
  rw [hwrite, State.trapOnError_of_no_error]
  rw [State.busData_bus]
  exact nofun

theorem State.exclusiveStore_refused {s : State} {l : LaneId} {a : Word} (v : Word) (tm : Nat) (hin : inBridge a.toNat = true) (hal : a.toNat % 4 = 0)
    (h : (s.lane l).brg.excl ≠ some (exclSem a) ∨ (s.lane l).fget (BRG_SEM_OWNER (exclSem a)) ≠ 1) :
    s.exclusiveStore l a v tm = s.busData 0 := by
  have hwrite : s.exclStoreWrite l a v tm = s.busData 0 := by
    unfold State.exclStoreWrite
    dsimp only
    rw [if_neg (by omega), if_pos hin, if_neg ?_]
    rw [Bool.and_eq_true, beq_iff_eq, beq_iff_eq]
    exact fun hand => h.elim (fun hn => hn hand.1) (fun hn => hn hand.2)
  unfold State.exclusiveStore
  rw [hwrite, State.trapOnError_of_no_error]
  rw [State.busData_bus]
  exact nofun

theorem State.OnlyLane.withBus {s u : State} {l : LaneId} (h : s.OnlyLane u l) (b : BusResp) : s.OnlyLane { { u with bus := b } with bus := s.bus } l := by
  obtain ⟨hne, hhub, heq⟩ := h
  exact ⟨fun k hk => (hne k hk ▸ by cases k <;> rfl), hhub, congrArg (fun z : State => { z with bus := s.bus }) heq⟩

/-- Settles O34: a semaphore goes to its first taker and back from its holder alone; an exclusive load takes a free one and a store needs that of its
sequence. -/
theorem semaphoresHaveOneHolder : Obligations.SemaphoresHaveOneHolder := by
  unfold Obligations.SemaphoresHaveOneHolder
  refine ⟨fun s l n byLane byHub hl _ => ?_, fun s l n byHub hl _ => ?_, fun s l a tm hl hin hal hen hp hx => ?_, fun s l a v tm hl hin hal h => ?_,
    fun s l a v tm hl hin hal hen hwen hp hx ho => ?_⟩
  · obtain ⟨honly, hlane⟩ := State.upLane_next s l (·.semTake n byLane byHub) hl
    obtain ⟨hregs, hown⟩ := (s.lane l).semTake_spec n byLane byHub
    exact ⟨_, rfl, honly, by rw [hlane]; exact hregs.notes [], by rw [hlane]; exact (Lane.fget_of_reg_eq rfl _).trans hown⟩
  · obtain ⟨honly, hlane⟩ := State.upLane_next s l (·.semGive n byHub) hl
    obtain ⟨hregs, hbrg, hown⟩ := (s.lane l).semGive_spec n byHub
    exact ⟨_, rfl, honly, by rw [hlane]; exact hregs.notes [], by rw [hlane]; exact hbrg, by rw [hlane]; exact (Lane.fget_of_reg_eq rfl _).trans hown⟩
  · have hlane : (s.at tm).lane l = s.lane l := by cases l <;> rfl
    have hrun : exec (.exclusiveLoad l a tm) s =
        .next ((s.at tm).setLane l (((s.lane l).exclTake (exclSem a)).readTaken a .word tm)).busOk := by
      show Host.Outcome.next ((s.at tm).ifUp l (·.exclusiveLoad l a tm)) = _
      rw [State.ifUp_of_up (hlane ▸ hl), State.exclusiveLoad_taken tm hin hal (hlane ▸ hen) (hlane ▸ hp) (hlane ▸ hx), hlane]
    obtain ⟨hsem, hexcl⟩ := ((s.lane l).exclTake (exclSem a)).readTaken_sem a .word tm (exclSem_lt a)
    have hafter : ((((s.at tm).setLane l (((s.lane l).exclTake (exclSem a)).readTaken a .word tm)).busOk).lane l) =
        ((s.lane l).exclTake (exclSem a)).readTaken a .word tm := by cases l <;> rfl
    refine ⟨_, hrun, ((State.onlyLane_at s tm l).trans (State.onlyLane_setLane _ l _)).withBus .none, rfl, fun h0 => ?_, fun h2 => ?_⟩
    · rw [hafter, hsem, hexcl, Lane.exclTake_of_none hx, if_pos h0]
      exact ⟨(Lane.fget_of_reg_eq rfl _).trans ((s.lane l).semOwner_fset _ (by decide)), rfl⟩
    · rw [hafter, hsem, hexcl, Lane.exclTake_of_none hx, if_neg (by rw [h2]; decide)]
      exact ⟨h2, hx⟩
  · have hlane : (s.at tm).lane l = s.lane l := by cases l <;> rfl
    show Host.Outcome.next ((s.at tm).ifUp l (·.exclusiveStore l a v tm)) = _
    rw [State.ifUp_of_up (hlane ▸ hl), State.exclusiveStore_refused v tm hin hal (hlane ▸ h)]
    rfl
  · have hlane : (s.at tm).lane l = s.lane l := by cases l <;> rfl
    have hrun := State.exclusiveStore_posted (s := s.at tm) (l := l) v tm hin hal (hlane ▸ hen) (hlane ▸ hwen) (hlane ▸ hp) (hlane ▸ hx) (hlane ▸ ho)
    refine ⟨_, (congrArg Host.Outcome.next ((State.ifUp_of_up (hlane ▸ hl) _).trans hrun)), rfl, ?_⟩
    rw [hlane]
    generalize hy : (s.lane l).writePosted a .word v tm = y
    have howner : y.fget (BRG_SEM_OWNER (exclSem a)) = 1 := by rw [← hy]; exact (Lane.fget_of_reg_eq rfl _).trans ho
    have hz : ((((s.at tm).setLane l { y.semGive (exclSem a) false with brg := { y.brg with excl := none } }).busData 1).lane l) =
        { y.semGive (exclSem a) false with brg := { y.brg with excl := none } } := by cases l <;> rfl
    rw [hz]
    obtain ⟨-, -, hfree⟩ := y.semGive_spec (exclSem a) false
    rw [if_pos (by rw [howner]; rfl)] at hfree
    refine ⟨(Lane.fget_of_reg_eq rfl _).trans hfree, rfl, ?_⟩
    rw [← hy]
    rfl

end Sys2Proof.Machine
end

section
/-! PROOFS. Bridge queues, messages and the export area (R389, R394, R399 to R401, R405), and the statement on them. -/

namespace Sys2Proof.Machine

theorem satInc_eq_min (m x : Nat) : satInc m x = min m (x + 1) := by
  unfold satInc
  split <;> omega

theorem Lane.RegsKept.mono {x y : Lane} {as bs : List Nat} (h : x.RegsKept y as) (hs : as ⊆ bs) : x.RegsKept y bs := fun a ha => h a fun hm => ha (hs hm)

theorem Lane.onlyRegs_fsat (x : Lane) {f : Fld} {as : List Nat} (n : Nat) (hf : f.addr ∈ as) : x.OnlyRegs (x.fsat f n) as := x.onlyRegs_fset _ hf

theorem Lane.fget_readErrs (x : Lane) : (x.fsat BRG_CNT_RDERR 1).fget BRG_CNT_RDERR = satInc 65535 (x.fget BRG_CNT_RDERR) := by
  rw [Lane.fget_fsat_same _ _ _ (by decide), satInc_eq_min]
  rfl

/-! ### Hub accesses to a lane (R389, R394) -/

theorem Lane.yieldHeld_spec (x : Lane) (t : Nat) :
    x.RegsKept (x.yieldHeld t) [BRG_CNT, BRG_STAT, BRG_EQ_INFO, BRG_EQ_ADDR, BRG_HMSG, LCTL_IRQ_PEND] ∧ (x.yieldHeld t).sram = x.sram := by
  unfold Lane.yieldHeld
  split
  · next r rs _ =>
    split
    · obtain ⟨hframe, hkept, -⟩ := ((x.dropRead r.tag).restTag r.tag t).readsMoved_issueRead r t
      generalize hy : ((x.dropRead r.tag).restTag r.tag t).issueRead r t = y at hframe hkept
      have hreg : x.RegsKept y brgShown := (Lane.regsKept_of_reg_eq (x := x) (y := (x.dropRead r.tag).restTag r.tag t) rfl brgShown).trans hkept
      have hcount : y.RegsKept (y.fsat BRG_CNT_XRETRY 1) [BRG_CNT] := (y.onlyRegs_fsat (f := BRG_CNT_XRETRY) 1 (by decide)).2
      refine ⟨((hreg.mono (by decide)).trans (hcount.mono (by decide))).trans ((Lane.brgShow_regsKept _).mono (by decide)), ?_⟩
      rw [Lane.brgShow_frame]
      show (y.fsat BRG_CNT_XRETRY 1).sram = x.sram
      rw [Lane.fsat_sram, hframe]
      rfl
    · exact ⟨Lane.RegsKept.refl _ _, rfl⟩
  · exact ⟨Lane.RegsKept.refl _ _, rfl⟩

/-! ### The queues (R399 to R401) -/

/-- What a change of the queues and the registers they show leaves: all else of the lane, and every other register. -/
theorem Lane.queueShown_regsKept (x : Lane) (b : BrgInt) : x.RegsKept ({ x with brg := b } : Lane).brgShow brgShown :=
  (Lane.regsKept_of_reg_eq rfl _).trans (Lane.brgShow_regsKept _)

theorem Lane.errPop_shown {x : Lane} (b : BrgInt) (h : b.errs = []) :
    ({ x with brg := b } : Lane).brgShow.rg BRG_EQ_INFO = 0 ∧ ({ x with brg := b } : Lane).brgShow.rg BRG_EQ_ADDR = 0 ∧
      ({ x with brg := b } : Lane).brgShow.rg LCTL_IRQ_PEND = bvSet (x.rg LCTL_IRQ_PEND) 6 1 0 := by
  obtain ⟨hinfo, haddr⟩ := ({ x with brg := b } : Lane).brgShow_errHead
  have hhead : b.errHead = (0, 0) := by unfold BrgInt.errHead; rw [h]
  refine ⟨hinfo.trans ?_, haddr.trans ?_, ?_⟩
  · show b.errHead.1 = 0
    rw [hhead]
  · show b.errHead.2 = 0
    rw [hhead]
  · rw [Lane.brgShow_irq]
    show bvSet (x.rg LCTL_IRQ_PEND) 6 1 (b2n (!b.errs.isEmpty)) = _
    rw [h]
    rfl

theorem getLsbD_bvSet_below (v : Word) {lo w k i : Nat} (h : i < lo) (hi : i < 32) : (bvSet v lo w k).getLsbD i = v.getLsbD i := by
  unfold bvSet
  rw [BitVec.getLsbD_ofNat, setField_testBit, if_pos h, decide_eq_true hi, Bool.true_and, BitVec.testBit_toNat]

theorem Lane.hubMessage_taken {x : Lane} {v : Word} (hv : bvField v 24 8 ≠ 0) (hroom : x.brg.hubMsgs.length < 16) :
    (x.hubMessage v).brg.hubMsgs = x.brg.hubMsgs ++ [v] ∧ ((x.hubMessage v).rg LCTL_IRQ_PEND).getLsbD 0 = true := by
  unfold Lane.hubMessage
  rw [if_neg hv, if_pos hroom]
  refine ⟨by rw [Lane.brgShow_brg]; rfl, ?_⟩
  rw [Lane.brgShow_irq, getLsbD_bvSet_below _ (by decide) (by decide), Lane.rg_raise_same, BitVec.getLsbD_or]
  exact Bool.or_true _

theorem Lane.hubMessage_dropped {x : Lane} {v : Word} (hv : bvField v 24 8 ≠ 0) (hfull : 16 ≤ x.brg.hubMsgs.length) :
    x.hubMessage v = x.fset BRG_STAT_HMSG_OVF 1 := by
  unfold Lane.hubMessage
  rw [if_neg hv, if_neg (by omega)]

theorem Lane.brgErr_of_room {x : Lane} {e : BrgErr} (h : x.brg.errs.length < 16) :
    x.brgErr e = ({ x with brg := { x.brg with errs := x.brg.errs ++ [e] } } : Lane).brgShow := by
  unfold Lane.brgErr
  rw [if_pos h]

theorem Lane.brgErr_frame (x : Lane) (e : BrgErr) :
    x.brgErr e = { x with reg := (x.brgErr e).reg, brg := { x.brg with errs := (x.brgErr e).brg.errs } } := by
  unfold Lane.brgErr
  split
  · rw [Lane.brgShow_frame]
  · rw [Lane.brgShow_frame]; rfl

/-! ### Delivery of a lane's message (R401) -/

section
variable {s : State} {l : LaneId} {v : Word} {n : Nat} {rest : List (Word × Nat)} (hmsgs : (s.lane l).brg.laneMsgs = (v, n) :: rest)
include hmsgs

theorem State.messageDelivery_waits (h : n ≠ 0 ∨ s.hub.up = false) : s.messageDelivery l = s := by
  unfold State.messageDelivery
  dsimp only
  rw [hmsgs]
  dsimp only
  rw [if_pos]
  rcases h with h | h
  · simp [h]
  · simp [h]

/-- The lane once its oldest message has left the queue. -/
def Lane.msgTaken (x : Lane) (rest : List (Word × Nat)) : Lane := { x with brg := { x.brg with laneMsgs := rest } }

theorem State.messageDelivery_taken (hn : n = 0) (hup : s.hub.up = true) (hp : (s.lane l).fget BRG_STAT_POISON = 0) (hv : bvField v 24 8 ≠ 1) :
    s.messageDelivery l = s.setLane l ((s.lane l).msgTaken rest) := by
  unfold State.messageDelivery
  dsimp only
  rw [hmsgs]
  dsimp only
  rw [if_neg (by rw [hn, hup]; decide), if_neg (not_not.mpr hp), if_neg hv]
  rfl

theorem State.messageDelivery_discarded (hn : n = 0) (hup : s.hub.up = true) (hp : (s.lane l).fget BRG_STAT_POISON ≠ 0) :
    ∃ e, s.messageDelivery l = s.draw.2.setLane l (((s.lane l).msgTaken rest).brgErr e) := by
  unfold State.messageDelivery
  dsimp only
  rw [hmsgs]
  dsimp only
  rw [if_neg (by rw [hn, hup]; decide), if_pos hp]
  exact ⟨_, rfl⟩

theorem State.messageDelivery_spec (hv : bvField v 24 8 ≠ 1) :
    (s.messageDelivery l).hub = s.hub ∧ (∀ k, k ≠ l → (s.messageDelivery l).lane k = s.lane k) ∧
      ((s.lane l).fget BRG_STAT_POISON ≠ 0 → n = 0 → s.hub.up = true → ((s.messageDelivery l).lane l).brg.laneMsgs = rest ∧
        ((s.lane l).brg.errs.length < 16 → ((s.messageDelivery l).lane l).brg.errs.length = (s.lane l).brg.errs.length + 1)) ∧
      ((s.lane l).fget BRG_STAT_POISON = 0 → n = 0 → s.hub.up = true → (s.messageDelivery l).lane l = (s.lane l).msgTaken rest) ∧
      (n ≠ 0 ∨ s.hub.up = false → s.messageDelivery l = s) := by
  by_cases hwait : n ≠ 0 ∨ s.hub.up = false
  · have hno : n = 0 → s.hub.up = true → False := fun h0 hup => hwait.elim (fun h => h h0) (fun h => by rw [hup] at h; exact Bool.noConfusion h)
    rw [State.messageDelivery_waits hmsgs hwait]
    exact ⟨rfl, fun _ _ => rfl, fun _ h0 hup => (hno h0 hup).elim, fun _ h0 hup => (hno h0 hup).elim, fun _ => rfl⟩
  · obtain ⟨hn, hup⟩ := not_or.mp hwait
    have hn : n = 0 := Decidable.not_not.mp hn
    have hup : s.hub.up = true := Bool.of_not_eq_false hup
    by_cases hp : (s.lane l).fget BRG_STAT_POISON = 0
    · rw [State.messageDelivery_taken hmsgs hn hup hp hv]
      exact ⟨State.setLane_hub _ _ _, fun k hk => State.lane_setLane_ne _ _ hk, fun h => absurd hp h, fun _ _ _ => State.lane_setLane _ _ _,
        fun h => absurd h hwait⟩
    · obtain ⟨e, hrun⟩ := State.messageDelivery_discarded hmsgs hn hup hp
      rw [hrun]
      refine ⟨State.setLane_hub _ _ _, fun k hk => (State.lane_setLane_ne _ _ hk).trans (by cases k <;> rfl), fun _ _ _ => ?_, fun h => absurd h hp,
        fun h => absurd h hwait⟩
      rw [State.lane_setLane]
      refine ⟨by rw [Lane.brgErr_frame]; rfl, fun hroom => ?_⟩
      rw [Lane.brgErr_of_room (x := (s.lane l).msgTaken rest) hroom, Lane.brgShow_brg]
      exact List.length_append.trans rfl

end

/-! ### Configuration (R405) -/

theorem descOf_brgCfg : descOf laneRegs BRG_CFG =
    some { name := "BRG_CFG", base := 0x4000B000, stride := 4, count := 1, rw := 0xFFFF31, w1c := 0, reset := 0x321930, keep := 0xFFFF31 } := by
  decide

theorem Lane.brgCfgWrite_of_armed {x : Lane} {off : Nat} (hoff : brgCfgReg off = true) (ha : x.armed = true) (v : Word) :
    x.brgCfgWrite off v = x.fset BRG_STAT_CFG_ERR 1 := by
  unfold Lane.brgCfgWrite
  rw [hoff, ha]
  rfl

theorem Lane.brgCfgWrite_of_ok {x : Lane} {v : Word} (ha : x.armed = false) (hv : brgCfgOk v = true) : x.brgCfgWrite 0 v = x.plainWrite BRG_CFG v := by
  unfold Lane.brgCfgWrite
  rw [ha, hv]
  rfl

theorem Lane.brgCfg_written (x : Lane) (v : Word) :
    (x.plainWrite BRG_CFG v).fget BRG_CFG_RTMO = bvField v 8 8 ∧ (x.plainWrite BRG_CFG v).fget BRG_CFG_WTMO = bvField v 16 8 ∧
      (x.plainWrite BRG_CFG v).fget BRG_CFG_RTRY = bvField v 4 2 := by
  have hrg := x.plainWrite_rg descOf_brgCfg v
  refine ⟨(congrArg (fun w => bvField w 8 8) hrg).trans ?_, (congrArg (fun w => bvField w 16 8) hrg).trans ?_,
    (congrArg (fun w => bvField w 4 2) hrg).trans ?_⟩
  · exact bvField_regWritten (by decide) (by decide) rfl _ _
  · exact bvField_regWritten (by decide) (by decide) rfl _ _
  · exact bvField_regWritten (by decide) (by decide) rfl _ _

/-! ### The statement -/

theorem hubExportRead_spec {s : State} {l : LaneId} (a : Word) (hl : (s.lane l).rst.held = false) :
    ((s.lane l).exported a.toNat = false →
       ∃ t, exec (.hubExportRead l a) s = .next t ∧ t.bus = .error ∧ (s.lane l).OnlyRegs (t.lane l) [BRG_CNT] ∧
         (t.lane l).fget BRG_CNT_RDERR = satInc 65535 ((s.lane l).fget BRG_CNT_RDERR) ∧ t.hub = s.hub ∧ ∀ k, k ≠ l → t.lane k = s.lane k) ∧
     ((s.lane l).exported a.toNat = true →
       ∃ t, exec (.hubExportRead l a) s = .next t ∧ t.bus = .data (memWord (s.lane l).sram a.toNat) ∧ t.hub = s.hub ∧
         (s.lane l).RegsKept (t.lane l) [BRG_CNT, BRG_STAT, BRG_EQ_INFO, BRG_EQ_ADDR, BRG_HMSG, LCTL_IRQ_PEND] ∧
         (t.lane l).sram = (s.lane l).sram) := by
  have hrun : exec (.hubExportRead l a) s = .next (s.hubExportRead l a) := rfl
  rw [hrun]
  unfold State.hubExportRead
  dsimp only
  rw [hl, if_neg (by decide)]
  constructor
  · intro hx
    rw [hx, if_neg (by decide)]
    have hlane : (s.setLane l ((s.lane l).fsat BRG_CNT_RDERR 1)).busErr.lane l = (s.lane l).fsat BRG_CNT_RDERR 1 := by cases l <;> rfl
    refine ⟨_, rfl, rfl, ?_, ?_, State.setLane_hub _ _ _, fun k hk => (State.busErr_lane _ k).trans (State.lane_setLane_ne _ _ hk)⟩
    · rw [hlane]
      exact (s.lane l).onlyRegs_fsat 1 (by decide)
    · rw [hlane]
      exact (s.lane l).fget_readErrs
  · intro hx
    rw [hx, if_pos rfl]
    have hlane : ((s.setLane l ((s.lane l).yieldHeld s.now)).busData (memWord (s.lane l).sram a.toNat)).lane l = (s.lane l).yieldHeld s.now := by
      cases l <;> rfl
    obtain ⟨hkept, hsram⟩ := (s.lane l).yieldHeld_spec s.now
    exact ⟨_, rfl, rfl, State.setLane_hub _ _ _, by rw [hlane]; exact hkept, by rw [hlane]; exact hsram⟩

/-- Settles O33: the hub sees the export area alone, the queues keep their order, and the configuration stands once the lane is armed. -/
theorem bridgeQueuesAndTheExportArea : Obligations.BridgeQueuesAndTheExportArea := by
  unfold Obligations.BridgeQueuesAndTheExportArea
  refine ⟨⟨fun s l a hl => hubExportRead_spec a hl, fun s l a v hl => ?_⟩, fun s l hl => ⟨?_, ?_, fun v => ?_⟩, fun s l v hl hv => ?_,
    fun s l v n rest hl hmsgs hv => ?_, fun s l off v hl hoff ha => ?_, fun s l v hl ha hv => ?_, fun s l v hl => ?_⟩
  · obtain ⟨-, hlane⟩ := State.upLane_next s l (·.fsat BRG_CNT_RDERR 1) hl
    refine ⟨_, rfl, rfl, ?_, ?_⟩
    · rw [State.busErr_lane, hlane]
      exact ((s.lane l).onlyRegs_fsat (f := BRG_CNT_RDERR) 1 (by decide)).notes []
    · rw [State.busErr_lane, hlane, Lane.fget_noted]
      exact (s.lane l).fget_readErrs
  · obtain ⟨honly, hlane⟩ := State.upLane_next s l (fun x => ({ x with brg := { x.brg with errs := x.brg.errs.drop 1 } } : Lane).brgShow) hl
    refine ⟨_, rfl, honly, by rw [hlane]; exact Lane.brgShow_brg _, fun hlen => ?_⟩
    have hnil : (s.lane l).brg.errs.drop 1 = [] := List.drop_eq_nil_of_le hlen
    rw [hlane, Lane.rg_noted, Lane.rg_noted, Lane.rg_noted]
    exact Lane.errPop_shown { (s.lane l).brg with errs := (s.lane l).brg.errs.drop 1 } hnil
  · obtain ⟨honly, hlane⟩ := State.upLane_next s l (fun x => ({ x with brg := { x.brg with hubMsgs := x.brg.hubMsgs.drop 1 } } : Lane).brgShow) hl
    refine ⟨_, rfl, honly, by rw [hlane]; exact Lane.brgShow_brg _, ?_⟩
    rw [hlane, Lane.rg_noted, Lane.brgShow_hmsg]
  · obtain ⟨honly, hlane⟩ := State.upLane_next s l (·.brgMsg v) hl
    exact ⟨_, rfl, honly, by rw [hlane]; rfl, by rw [hlane]; rfl⟩
  · obtain ⟨honly, hlane⟩ := State.upLane_next s l (·.hubMessage v) hl
    refine ⟨_, rfl, honly, fun hroom => ?_, fun hfull => ?_⟩
    · rw [hlane]
      exact Lane.hubMessage_taken hv hroom
    · rw [hlane, Lane.hubMessage_dropped hv hfull, Lane.on_noted]
      exact ⟨rfl, (s.lane l).on_fset_one _ (by decide) rfl, ((s.lane l).onlyRegs_fset (f := BRG_STAT_HMSG_OVF) 1 (by decide)).notes []⟩
  · have hrun : exec (.laneMessageDelivery l) s = .next (s.messageDelivery l) := congrArg Host.Outcome.next (State.ifUp_of_up hl _)
    exact ⟨_, hrun, State.messageDelivery_spec hmsgs hv⟩
  · obtain ⟨honly, hlane⟩ := State.upLane_next s l (·.brgCfgWrite off v) hl
    rw [Lane.brgCfgWrite_of_armed hoff ha] at hlane
    refine ⟨_, rfl, honly, ?_, ?_⟩
    · rw [hlane]
      exact ((s.lane l).onlyRegs_fset (f := BRG_STAT_CFG_ERR) 1 (by decide)).notes []
    · rw [hlane, Lane.on_noted]
      exact (s.lane l).on_fset_one _ (by decide) rfl
  · obtain ⟨honly, hlane⟩ := State.upLane_next s l (·.brgCfgWrite 0 v) hl
    rw [Lane.brgCfgWrite_of_ok ha hv] at hlane
    refine ⟨_, rfl, honly, ?_, ?_⟩
    · rw [hlane]
      exact ((s.lane l).plainWrite_onlyRegs BRG_CFG v).notes []
    · rw [hlane, Lane.fget_noted, Lane.fget_noted, Lane.fget_noted]
      exact (s.lane l).brgCfg_written v
  · obtain ⟨honly, hlane⟩ := State.upLane_next s l (·.setRg BRG_CNT 0) hl
    refine ⟨_, rfl, honly, ?_, ?_⟩
    · rw [hlane]
      exact ((s.lane l).onlyRegs_setRg (a := BRG_CNT) 0 (by decide)).notes []
    · rw [hlane, Lane.rg_noted, Lane.rg_setRg_same]

end Sys2Proof.Machine
end

section
/-! PROOFS. Split reads and posted writes of the bridge (R388, R390 to R392, R396 to R398), and the statement on them. -/

namespace Sys2Proof.Machine

@[simp] theorem State.lane_at (s : State) (t : Nat) (l : LaneId) : (s.at t).lane l = s.lane l := by cases l <;> rfl

/-! ### The exception of a bus error (R388) -/

theorem Lane.busTrap_frame (x : Lane) (split write : Bool) (a : Word) :
    x.busTrap split write a = { x with core0 := (x.busTrap split write a).core0, core1 := (x.busTrap split write a).core1 } := by
  cases split <;> rfl

theorem State.trapOnError_of_error {z : State} {l : LaneId} (hb : z.bus = .error) (hl : (z.lane l).rst.held = false) (a : Word) (write : Bool) :
    z.trapOnError l a write = z.modLane l (·.busTrap z.split write a) := if_pos ⟨hb, hl⟩

/-- What a bus error leaves in the lane that made the access: the answer, the exception, and all else as it stood. -/
theorem State.trapOnError_busErr {z : State} {l : LaneId} {x : Lane} (hx : z.lane l = x) (hl : x.rst.held = false) (a : Word) (write : Bool) :
    let t := z.busErr.trapOnError l a write
    t.bus = .error ∧ t.hub = z.hub ∧ (t.lane l).brg = x.brg ∧ (t.lane l).reg = x.reg ∧ (t.lane l).core0.tval = a ∧
      (t.lane l).core0.epc = x.core0.pc ∧ (t.lane l).core0.cause = BitVec.ofNat 32 (if write then excStore else excLoad) := by
  intro t
  have hlane : z.busErr.lane l = x := (State.busErr_lane z l).trans hx
  have ht : t = z.busErr.modLane l (·.busTrap z.split write a) := State.trapOnError_of_error rfl (by rw [hlane]; exact hl) a write
  have htl : t.lane l = x.busTrap z.split write a := by rw [ht, State.lane_modLane, hlane]
  obtain ⟨htval, hepc, hcause⟩ := x.busTrap_core0 z.split write a
  rw [htl]
  refine ⟨by rw [ht, State.modLane_bus]; rfl, by rw [ht, State.modLane_hub, State.busErr_hub], ?_, ?_, htval, hepc, hcause⟩
  · rw [Lane.busTrap_frame]
  · rw [Lane.busTrap_frame]

/-! ### Records of errors (R399) -/

theorem Lane.brgErr_of_none {x : Lane} (h : x.brg.errs = []) (e : BrgErr) : (x.brgErr e).brg = { x.brg with errs := [e] } := by
  rw [Lane.brgErr_of_room (by rw [h]; decide), Lane.brgShow_brg, h]
  rfl

theorem Lane.brgErr_fget_static (x : Lane) (e : BrgErr) {f : Fld} (hf : brgStatic f) (hovf : 2 ≤ f.lo) : (x.brgErr e).fget f = x.fget f := by
  unfold Lane.brgErr
  rw [Lane.brgShow_fget_static _ hf]
  split
  · rfl
  · exact x.fget_fset_bits (f := BRG_STAT_EQ_OVF) (g := f) 1 hf.1 hf.2.1 (Or.inr hovf)

theorem Lane.brgErr_poisonedWin (x : Lane) (e : BrgErr) {w : Nat} (hw : w < 8) : (x.brgErr e).poisonedWin w = x.poisonedWin w :=
  Lane.poisonedWin_of_fget (x.brgErr_fget_static e brgStatic_poison (by decide)) hw

/-! ### Reads (R390 to R392) -/

theorem BrgInt.freeTag_of_idle {b : BrgInt} (hr : b.reads = []) (hq : b.quar = []) : b.freeTag = some 0 := by
  unfold BrgInt.freeTag
  rw [hr, hq]
  rfl

theorem Lane.readLimit_pos (x : Lane) : 0 < x.readLimit := by
  unfold Lane.readLimit
  split <;> decide

/-- The first read of an idle bridge goes out under tag 0. -/
theorem Lane.readTaken_of_idle {x : Lane} (hw : x.brg.waiting = []) (hr : x.brg.reads = []) (hq : x.brg.quar = []) (a : Word) (w : Width) (t : Nat) :
    x.readTaken a w t = ({ x with brg := { x.brg with
      reads := [{ tag := 0, addr := a, bytes := Width.bytes w, t0 := t, t := t, attempts := 0, code := 0 }], waiting := [] } } : Lane).brgShow := by
  have hwait : ({ x with brg := { x.brg with waiting := x.brg.waiting ++ [freshRead a w] } } : Lane).brg.waiting = [freshRead a w] := by
    show x.brg.waiting ++ [freshRead a w] = _
    rw [hw]
    rfl
  have hissue : ({ x with brg := { x.brg with waiting := [] } } : Lane).issueRead { freshRead a w with t0 := t } t =
      { x with brg := { x.brg with
        reads := [{ tag := 0, addr := a, bytes := Width.bytes w, t0 := t, t := t, attempts := 0, code := 0 }], waiting := [] } } := by
    unfold Lane.issueRead
    rw [BrgInt.freeTag_of_idle (b := ({ x with brg := { x.brg with waiting := [] } } : Lane).brg) hr hq]
    show ({ x with brg := { x.brg with waiting := [], reads := x.brg.reads ++ _ } } : Lane) = _
    rw [hr]
    rfl
  unfold Lane.readTaken
  rw [Lane.issueWaiting, hwait]
  dsimp only
  rw [if_pos ⟨by rw [hr]; exact Lane.readLimit_pos _, by
    rw [BrgInt.freeTag_of_idle (b := { x.brg with waiting := x.brg.waiting ++ [freshRead a w] }) hr hq]; rfl⟩]
  rw [show (if (freshRead a w).t0 = 0 then t else (freshRead a w).t0) = t from rfl, hissue, Lane.issueWaiting_of_none rfl]

/-- A read that ends with a bus error: recorded and out of the bridge. -/
def Lane.readEnded (x : Lane) (r : BrgRead) (code t : Nat) : Lane :=
  ((x.forgetRead r).brgErr (errOf (brgWin r.addr.toNat) code false r.addr)).issueWaiting t 64

theorem Lane.readEnded_frame (x : Lane) (r : BrgRead) (code t : Nat) :
    (x.readEnded r code t).rst = x.rst ∧ (x.readEnded r code t).brg.quar = x.brg.quar ∧
      (x.brg.errs = [] → (x.readEnded r code t).brg.errs.map (·.code) = [code]) := by
  obtain ⟨hframe, -, -⟩ := ((x.forgetRead r).brgErr (errOf (brgWin r.addr.toNat) code false r.addr)).readsMoved_issueWaiting t 64
  unfold Lane.readEnded
  rw [hframe]
  refine ⟨?_, ?_, fun h => ?_⟩
  · show ((x.forgetRead r).brgErr (errOf (brgWin r.addr.toNat) code false r.addr)).rst = x.rst
    rw [Lane.brgErr_frame]
    rfl
  · show ((x.forgetRead r).brgErr (errOf (brgWin r.addr.toNat) code false r.addr)).brg.quar = x.brg.quar
    rw [Lane.brgErr_frame]
    rfl
  · show List.map (·.code) ((x.forgetRead r).brgErr (errOf (brgWin r.addr.toNat) code false r.addr)).brg.errs = _
    rw [Lane.brgErr_of_none (x := x.forgetRead r) h]
    rfl

theorem State.readFails_spec {z : State} {l : LaneId} {x : Lane} (hx : z.lane l = x) (hl : x.rst.held = false) (r : BrgRead) (code t : Nat) :
    (z.readFails l r code t).bus = .error ∧ ((z.readFails l r code t).lane l).brg.quar = x.brg.quar ∧
      ((z.readFails l r code t).lane l).core0.cause = 4 ∧ ((z.readFails l r code t).lane l).core0.tval = r.addr ∧
      (x.brg.errs = [] → ((z.readFails l r code t).lane l).brg.errs.map (·.code) = [code]) := by
  have hrun : z.readFails l r code t = (z.modLane l fun x => x.readEnded r code t).busErr.trapOnError l r.addr false := rfl
  obtain ⟨hrst, hquar, herrs⟩ := x.readEnded_frame r code t
  obtain ⟨hbus, -, hbrg, -, htval, -, hcause⟩ := State.trapOnError_busErr (z := z.modLane l fun x => x.readEnded r code t) (l := l)
    (x := x.readEnded r code t) (by rw [State.lane_modLane, hx]) (by rw [hrst]; exact hl) r.addr false
  rw [hrun, hbrg]
  exact ⟨hbus, hquar, hcause, htval, herrs⟩

/-- A spent read is found where its tag is: tags are looked up in order. -/
theorem find?_and_of_find? {α : Type} {p q : α → Bool} {xs : List α} {r : α} (h : xs.find? p = some r) (hq : q r = true) :
    xs.find? (fun x => p x && q x) = some r := by
  induction xs with
  | nil => exact absurd h nofun
  | cons x xs ih =>
    rw [List.find?_cons] at h ⊢
    cases hp : p x with
    | true =>
      rw [hp] at h
      have hxr : x = r := Option.some.inj h
      rw [hxr, hq]
      rfl
    | false =>
      rw [hp] at h
      exact ih h

/-! ### Posted writes (R396 to R398) -/

theorem Lane.countDiscard_frame (x : Lane) (w n : Nat) :
    (x.countDiscard w n).brg.writes = x.brg.writes := by
  unfold Lane.countDiscard
  dsimp only
  split
  · rw [Lane.brgShow_brg]
  · rfl

theorem Lane.dropStream_frame (x : Lane) (w n : Nat) :
    x.dropStream w n = { x with brg := { x.brg with writes := (x.dropStream w n).brg.writes, laneMsgs := (x.dropStream w n).brg.laneMsgs } } := by
  induction n generalizing x with
  | zero => rfl
  | succ n ih =>
    unfold Lane.dropStream
    split
    · next i _ =>
      rw [ih (x.dropWrite i)]
      rfl
    · rfl

/-- Dropping a stream as often as writes are issued leaves none of its writes. -/
theorem Lane.dropStream_writes (x : Lane) (w : Nat) : ∀ n, x.brg.writes.length ≤ n → ∀ p ∈ (x.dropStream w n).brg.writes, p.win ≠ w := by
  intro n
  induction n generalizing x with
  | zero =>
    intro hlen p hp
    have hnil : x.brg.writes = [] := List.eq_nil_of_length_eq_zero (Nat.le_zero.mp hlen)
    have hp' : p ∈ x.brg.writes := hp
    rw [hnil] at hp'
    exact absurd hp' List.not_mem_nil
  | succ n ih =>
    intro hlen
    unfold Lane.dropStream
    split
    · next i hi =>
      have hlt : i < x.brg.writes.length := (List.findIdx?_eq_some_iff_getElem.mp hi).choose
      have hshort : (x.dropWrite i).brg.writes.length ≤ n := by
        show (x.brg.writes.eraseIdx i).length ≤ n
        rw [List.length_eraseIdx_of_lt hlt]
        omega
      exact ih (x.dropWrite i) hshort
    · next hnone =>
      intro p hp
      have := List.findIdx?_eq_none_iff.mp hnone p hp
      simpa using this

theorem bvSet_one_getLsbD (v : Word) {k i : Nat} (hi : i < 32) : (bvSet v k 1 1).getLsbD i = (decide (i = k) || v.getLsbD i) := by
  unfold bvSet
  rw [BitVec.getLsbD_ofNat, setField_testBit, decide_eq_true hi, Bool.true_and]
  rcases Nat.lt_trichotomy i k with h | h | h
  · rw [if_pos h, decide_eq_false (by omega), BitVec.testBit_toNat, Bool.false_or]
  · rw [if_neg (by omega), if_pos (by omega), decide_eq_true h, h, Nat.sub_self]
    rfl
  · rw [if_neg (by omega), if_neg (by omega), decide_eq_false (by omega), BitVec.testBit_toNat, Bool.false_or]

theorem Lane.writeFails_spec (x : Lane) (p : BrgWrite) (code : Nat) (hp : p.win < 8) :
    (x.writeFails p code).poisonedWin p.win = true ∧
      (∀ k, k < 8 → k ≠ p.win → (x.writeFails p code).poisonedWin k = x.poisonedWin k) ∧ ∀ q ∈ (x.writeFails p code).brg.writes, q.win ≠ p.win := by
  have hdrop := x.dropStream_writes p.win _ (Nat.le_refl _)
  have hframe := x.dropStream_frame p.win x.brg.writes.length
  unfold Lane.writeFails
  dsimp only
  generalize hy : x.dropStream p.win x.brg.writes.length = y at hdrop hframe
  have hyk : ∀ k, y.poisonedWin k = x.poisonedWin k := fun k => by rw [hframe]; rfl
  have hset : ∀ k, k < 8 → (y.setRg BRG_STAT (bvSet (y.rg BRG_STAT) (24 + p.win) 1 1)).poisonedWin k = (decide (k = p.win) || y.poisonedWin k) := by
    intro k hk
    unfold Lane.poisonedWin
    rw [Lane.rg_setRg_same, bvSet_one_getLsbD _ (by omega)]
    congr 1
    exact decide_eq_decide.mpr (by omega)
  refine ⟨?_, fun k hk hne => ?_, fun q hq => ?_⟩
  · rw [Lane.brgErr_poisonedWin _ _ hp, hset _ hp, decide_eq_true rfl]
    rfl
  · rw [Lane.brgErr_poisonedWin _ _ hk, hset _ hk, decide_eq_false hne, hyk]
    rfl
  · rw [Lane.brgErr_frame] at hq
    exact hdrop q hq

theorem Lane.brgResume_poisonedWin (x : Lane) (v : Word) (failing : BitVec 8) {w : Nat} (hw : w < 8) :
    (x.brgResume v failing).poisonedWin w = (x.poisonedWin w && !(v.getLsbD w && !failing.getLsbD w)) := by
  have hff : (0xFF : Nat).testBit w = true := by
    rw [show (0xFF : Nat) = 2 ^ 8 - 1 from rfl, Nat.testBit_two_pow_sub_one, decide_eq_true hw]
  have hv : (bvField v 0 8).testBit w = v.getLsbD w := by
    rw [bvField, getField_testBit, decide_eq_true hw, Bool.true_and, Nat.zero_add, BitVec.testBit_toNat]
  rw [Lane.poisonedWin_eq _ hw, x.poisonedWin_eq hw]
  unfold Lane.brgResume
  dsimp only
  rw [Lane.fget_fset_same _ _ _ (by decide), show BRG_STAT_POISON.w = 8 from rfl, Nat.testBit_mod_two_pow, decide_eq_true hw, Bool.true_and,
    Nat.testBit_and, Nat.testBit_xor, Nat.testBit_and, Nat.testBit_xor, hff, hv, BitVec.testBit_toNat]
  simp

/-! ### The bridge commands -/

section
variable {s : State} {l : LaneId}

theorem bridgeRead_issued {a : Word} {w : Width} {tm : Nat} (hl : (s.lane l).rst.held = false) (hin : inBridge a.toNat = true)
    (hal : a.toNat % Width.bytes w = 0) (hen : (s.lane l).on (BRG_MAP_EN (brgWin a.toNat)) = true)
    (hp : (s.lane l).poisonedWin (brgWin a.toNat) = false) (hw : (s.lane l).brg.waiting = []) (hr : (s.lane l).brg.reads = [])
    (hq : (s.lane l).brg.quar = []) :
    ∃ t, exec (.bridgeRead l a w tm) s = .next t ∧ s.OnlyLane { t with bus := s.bus } l ∧ t.bus = .none ∧
       (t.lane l).brg.reads = [{ tag := 0, addr := a, bytes := Width.bytes w, t0 := tm, t := tm, attempts := 0, code := 0 }] ∧
       (t.lane l).brg.waiting = [] ∧ (t.lane l).sram = (s.lane l).sram ∧ (t.lane l).fget BRG_STAT_OUT = 1 := by
  have hrun : (s.at tm).bridgeRead l a w tm = ((s.at tm).setLane l ((s.lane l).readTaken a w tm)).busOk := by
    unfold State.bridgeRead
    rw [State.brgReadStart_taken hin hal (by rw [State.lane_at, hen]) (by rw [State.lane_at, hp]), State.lane_at, State.trapOnError_of_no_error]
    rw [State.busOk_bus]
    decide
  have hlane : (((s.at tm).setLane l ((s.lane l).readTaken a w tm)).busOk).lane l = (s.lane l).readTaken a w tm := by
    rw [State.busOk_lane, State.lane_setLane]
  refine ⟨_, congrArg Host.Outcome.next ((State.ifUp_of_up (by rw [State.lane_at, hl]) _).trans hrun),
    ((State.onlyLane_at s tm l).trans (State.onlyLane_setLane _ l _)).withBus .none, rfl, ?_⟩
  rw [hlane, Lane.readTaken_of_idle hw hr hq, Lane.brgShow_brg, Lane.brgShow_fget_out]
  refine ⟨rfl, rfl, ?_, rfl⟩
  rw [Lane.brgShow_frame]

theorem bridgeRead_refused {a : Word} {w : Width} (tm : Nat) (hl : (s.lane l).rst.held = false) (hin : inBridge a.toNat = true)
    (hal : a.toNat % Width.bytes w = 0) (herrs : (s.lane l).brg.errs = [])
    (h : (s.lane l).on (BRG_MAP_EN (brgWin a.toNat)) = false ∨ (s.lane l).poisonedWin (brgWin a.toNat) = true) :
    ∃ t, exec (.bridgeRead l a w tm) s = .next t ∧ t.bus = .error ∧ (t.lane l).brg.reads = (s.lane l).brg.reads ∧
       (t.lane l).core0.cause = 4 ∧ (t.lane l).core0.tval = a ∧ (t.lane l).core0.epc = (s.lane l).core0.pc ∧
       (t.lane l).brg.errs = [{ win := brgWin a.toNat, write := false, addr := a, ndisc := 0, counts := false,
                                code := if (s.lane l).on (BRG_MAP_EN (brgWin a.toNat)) = true then 6 else 5 }] := by
  generalize hcode : (if (s.lane l).on (BRG_MAP_EN (brgWin a.toNat)) = true then 6 else 5 : Nat) = code
  generalize hx : (s.lane l).brgErr (errOf (brgWin a.toNat) code false a) = x
  have hrun : (s.at tm).bridgeRead l a w tm = ((s.at tm).setLane l x).busErr.trapOnError l a false := by
    unfold State.bridgeRead State.brgReadStart
    dsimp only
    rw [State.lane_at, hin, if_neg (by decide), if_neg (not_not.mpr hal), ← hx, ← hcode]
    cases hen : (s.lane l).on (BRG_MAP_EN (brgWin a.toNat)) with
    | false => rfl
    | true =>
      have hpw : (s.lane l).poisonedWin (brgWin a.toNat) = true := h.resolve_left (by rw [hen]; decide)
      rw [hpw]
      rfl
  have hframe := (s.lane l).brgErr_frame (errOf (brgWin a.toNat) code false a)
  have hbrg := Lane.brgErr_of_none herrs (errOf (brgWin a.toNat) code false a)
  rw [hx] at hframe hbrg
  obtain ⟨hbus, -, hb, -, htval, hepc, hcause⟩ := State.trapOnError_busErr (z := (s.at tm).setLane l x) (l := l) (x := x) (State.lane_setLane _ _ _)
    (by rw [hframe]; exact hl) a false
  refine ⟨_, congrArg Host.Outcome.next ((State.ifUp_of_up (by rw [State.lane_at, hl]) _).trans hrun), hbus, ?_, hcause, htval, ?_, ?_⟩
  · rw [hb, hbrg]
  · rw [hepc, hframe]
  · rw [hb, hbrg]
    rfl

theorem bridgeReadResponse_data {tag : Nat} {r : BrgRead} (tm : Nat) (hl : (s.lane l).rst.held = false)
    (hfind : (s.lane l).brg.reads.find? (fun x => x.tag == tag) = some r)
    (hok : sramOk s.hub.badBanks ((s.lane l).hubAddr r.addr.toNat) r.bytes = true) (hn : 0 < r.bytes) :
    ∃ t, exec (.bridgeReadResponse l tag 0 tm) s = .next t ∧ s.OnlyLane { t with bus := s.bus } l ∧
       t.bus = .data (BitVec.ofNat 32 (memNat s.hub.sram ((s.lane l).hubAddr r.addr.toNat) r.bytes)) := by
  obtain ⟨hin, -⟩ := inSram_one_of_sramOk hok hn
  have hread : s.hub.sramRead ((s.lane l).hubAddr r.addr.toNat) r.bytes =
      some (BitVec.ofNat 32 (memNat s.hub.sram ((s.lane l).hubAddr r.addr.toNat) r.bytes)) := if_pos hok
  have hbytes : (s.at tm).hubBytesAt ((s.lane l).hubAddr r.addr.toNat) r.bytes =
      BitVec.ofNat 32 (memNat s.hub.sram ((s.lane l).hubAddr r.addr.toNat) r.bytes) := by
    unfold State.hubBytesAt
    rw [State.at_hub, if_pos hin, hread]
    rfl
  have hrun : (s.at tm).bridgeResponse l tag 0 tm = ((s.at tm).setLane l (((s.lane l).dropRead tag).issueWaiting tm 64)).busData
      (BitVec.ofNat 32 (memNat s.hub.sram ((s.lane l).hubAddr r.addr.toNat) r.bytes)) := by
    unfold State.bridgeResponse
    dsimp only
    have hans : readAnswer ((s.lane l).hubAddr r.addr.toNat) 0 = 0 := if_pos (Or.inl hin)
    rw [State.lane_at, hfind]
    dsimp only
    have hno : ¬ ((0 : Nat) = 0 ∧ inSram ((s.lane l).hubAddr r.addr.toNat) 1 = true ∧
        some (BitVec.ofNat 32 (memNat s.hub.sram ((s.lane l).hubAddr r.addr.toNat) r.bytes)) = none) := fun h => Option.some_ne_none _ h.2.2
    rw [State.at_hub, hread, hans, if_neg hno, if_pos rfl, hbytes]
  exact ⟨_, congrArg Host.Outcome.next ((State.ifUp_of_up (by rw [State.lane_at, hl]) _).trans hrun),
    ((State.onlyLane_at s tm l).trans (State.onlyLane_setLane _ l _)).withBus _, rfl⟩

theorem bridgeReadResponse_late {tag : Nat} (err tm : Nat) (hl : (s.lane l).rst.held = false)
    (hfind : (s.lane l).brg.reads.find? (fun x => x.tag == tag) = none) :
    ∃ t, exec (.bridgeReadResponse l tag err tm) s = .next t ∧ s.OnlyLane t l ∧ (s.lane l).OnlyRegs (t.lane l) [BRG_CNT, BRG_STAT] ∧
       (t.lane l).on BRG_STAT_LATE = true ∧ (t.lane l).fget BRG_CNT_LATEN = satInc 255 ((s.lane l).fget BRG_CNT_LATEN) := by
  have hrun : (s.at tm).bridgeResponse l tag err tm = (s.at tm).setLane l (((s.lane l).fsat BRG_CNT_LATEN 1).fset BRG_STAT_LATE 1) := by
    unfold State.bridgeResponse
    dsimp only
    rw [State.lane_at, hfind]
  refine ⟨_, congrArg Host.Outcome.next ((State.ifUp_of_up (by rw [State.lane_at, hl]) _).trans hrun),
    (State.onlyLane_at s tm l).trans (State.onlyLane_setLane _ l _), ?_⟩
  rw [State.lane_setLane]
  refine ⟨((s.lane l).onlyRegs_fsat (f := BRG_CNT_LATEN) 1 (by decide)).trans (Lane.onlyRegs_fset _ (f := BRG_STAT_LATE) 1 (by decide)),
    Lane.on_fset_one _ _ (by decide) rfl, ?_⟩
  rw [Lane.fget_fset_addr _ (f := BRG_STAT_LATE) (g := BRG_CNT_LATEN) 1 (by decide), Lane.fget_fsat_same _ _ _ (by decide), satInc_eq_min]
  rfl

theorem bridgeReadBudget_ends {tag : Nat} {r : BrgRead} {tm : Nat} (hl : (s.lane l).rst.held = false)
    (hfind : (s.lane l).brg.reads.find? (fun x => x.tag == tag) = some r) (ht : r.t0 + 2000000 ≤ tm) :
    ∃ t, exec (.bridgeReadBudget l tag tm) s = .next t ∧ t.bus = .error ∧ (tag, tm + 4000000) ∈ (t.lane l).brg.quar ∧
       (t.lane l).core0.cause = 4 ∧ (t.lane l).core0.tval = r.addr ∧
       ((s.lane l).brg.errs = [] → (t.lane l).brg.errs.map (·.code) = [if r.code = 0 then 3 else r.code]) := by
  have hspent := find?_and_of_find? (q := fun r : BrgRead => decide (r.t0 + 2000000 ≤ tm)) hfind (decide_eq_true ht)
  have hrun : (s.at tm).bridgeBudget l tag tm = ((s.at tm).modLane l (·.restTag tag tm)).readFails l r r.lastCode tm := by
    unfold State.bridgeBudget
    dsimp only
    rw [State.lane_at, hspent]
  obtain ⟨hbus, hquar, hcause, htval, herrs⟩ := State.readFails_spec (z := (s.at tm).modLane l (·.restTag tag tm)) (l := l)
    (x := (s.lane l).restTag tag tm) (by rw [State.lane_modLane, State.lane_at]) hl r r.lastCode tm
  refine ⟨_, congrArg Host.Outcome.next ((State.ifUp_of_up (by rw [State.lane_at, hl]) _).trans hrun), hbus, ?_, hcause, htval, herrs⟩
  rw [hquar]
  exact List.mem_append_right _ (List.mem_singleton.mpr rfl)

theorem bridgeReadTimeout_ends {tag : Nat} {r : BrgRead} {tm : Nat} (hl : (s.lane l).rst.held = false)
    (hfind : (s.lane l).brg.reads.find? (fun x => x.tag == tag) = some r) (ht : r.t + (s.lane l).fget BRG_CFG_RTMO * 10000 ≤ tm) :
    ∃ t, exec (.bridgeReadTimeout l tag tm) s = .next t ∧ (tag, tm + 4000000) ∈ (t.lane l).brg.quar ∧
       ((s.lane l).fget BRG_CFG_RTRY + 1 ≤ r.attempts + 1 ∨ r.t0 + 2000000 ≤ tm → t.bus = .error) ∧
       (r.attempts + 1 < (s.lane l).fget BRG_CFG_RTRY + 1 → tm < r.t0 + 2000000 → t.bus = s.bus) := by
  generalize hz : (s.at tm).modLane l (·.restTag tag tm) = z
  have hzl : z.lane l = (s.lane l).restTag tag tm := by rw [← hz, State.lane_modLane, State.lane_at]
  have hcfg : (z.lane l).fget BRG_CFG_RTRY = (s.lane l).fget BRG_CFG_RTRY := by rw [hzl]; exact Lane.fget_of_reg_eq rfl _
  have hrest : (tag, tm + 4000000) ∈ (z.lane l).brg.quar := by
    rw [hzl]
    exact List.mem_append_right _ (List.mem_singleton.mpr rfl)
  have hrun : (s.at tm).bridgeTimeout l tag tm = z.attemptFails l r brgTimeout tm := by
    unfold State.bridgeTimeout
    rw [State.lane_at, hfind]
    have hdue : r.t + (s.lane l).fget BRG_CFG_RTMO * tenMicros ≤ tm := ht
    dsimp only
    rw [if_pos hdue, hz]
  refine ⟨_, congrArg Host.Outcome.next ((State.ifUp_of_up (by rw [State.lane_at, hl]) _).trans hrun), ?_⟩
  unfold State.attemptFails
  dsimp only
  rw [hcfg]
  by_cases hend : (s.lane l).fget BRG_CFG_RTRY + 1 ≤ r.attempts + 1 ∨ r.t0 + 2000000 ≤ tm
  · rw [if_pos hend]
    obtain ⟨hbus, hquar, -⟩ := State.readFails_spec (z := z) (l := l) rfl (by rw [hzl]; exact hl) r brgTimeout tm
    exact ⟨by rw [hquar]; exact hrest, fun _ => hbus, fun h1 h2 => absurd hend (by omega)⟩
  · rw [if_neg hend]
    refine ⟨?_, fun h => absurd h hend, fun _ _ => ?_⟩
    · rw [State.lane_modLane, Lane.brgShow_brg]
      obtain ⟨hframe, -, -⟩ := (z.lane l).readsMoved_issueRead { r with attempts := r.attempts + 1, code := brgTimeout } tm
      rw [hframe]
      exact hrest
    · rw [State.modLane_bus, ← hz, State.modLane_bus, State.at_bus]

theorem tagQuarantineEnd_frees (tag tm : Nat) (hl : (s.lane l).rst.held = false) :
    ∃ t, exec (.tagQuarantineEnd l tag tm) s = .next t ∧ s.OnlyLane t l ∧
       (t.lane l).brg.quar = (s.lane l).brg.quar.filter fun q => !(q.1 == tag && decide (q.2 ≤ tm)) := by
  obtain ⟨honly, hlane⟩ := State.upLane_next (s.at tm) l (·.quarEnd tag tm) (by rw [State.lane_at, hl])
  refine ⟨_, rfl, (State.onlyLane_at s tm l).trans honly, ?_⟩
  rw [hlane, State.lane_at]
  show ((s.lane l).quarEnd tag tm).brg.quar = _
  unfold Lane.quarEnd
  rw [(Lane.readsMoved_issueWaiting _ tm 64).1]

theorem bridgeWrite_taken {a : Word} {w : Width} (v : Word) (tm : Nat) (hl : (s.lane l).rst.held = false) (hin : inBridge a.toNat = true)
    (hal : a.toNat % Width.bytes w = 0) (hen : (s.lane l).on (BRG_MAP_EN (brgWin a.toNat)) = true)
    (hwen : (s.lane l).on (BRG_MAP_WEN (brgWin a.toNat)) = true) :
    ∃ t, exec (.bridgeWrite l a w v tm) s = .next t ∧ s.OnlyLane { t with bus := s.bus } l ∧ t.bus = .none ∧
       ((s.lane l).poisonedWin (brgWin a.toNat) = false → (t.lane l).reg = (s.lane l).reg ∧
         (t.lane l).brg.writes = (s.lane l).brg.writes ++
           [{ win := brgWin a.toNat, addr := a, bytes := Width.bytes w, v := v, t := tm }]) ∧
       ((s.lane l).poisonedWin (brgWin a.toNat) = true → (t.lane l).brg.writes = (s.lane l).brg.writes) := by
  have hrun : (s.at tm).bridgeWrite l a w v tm = ((s.at tm).setLane l (if (s.lane l).poisonedWin (brgWin a.toNat) then
      (s.lane l).countDiscard (brgWin a.toNat) 1 else (s.lane l).writePosted a w v tm)).busOk := by
    unfold State.bridgeWrite
    rw [State.trapOnError_of_no_error]
    · unfold State.brgWriteStart
      dsimp only
      rw [State.lane_at, hin, if_neg (by decide), if_neg (not_not.mpr hal), hen, hwen, if_neg (by decide)]
      split <;> rfl
    · unfold State.brgWriteStart
      dsimp only
      rw [State.lane_at, hin, if_neg (by decide), if_neg (not_not.mpr hal), hen, hwen, if_neg (by decide)]
      split
      · rw [State.busOk_bus]; decide
      · rw [State.busOk_bus]; decide
  refine ⟨_, congrArg Host.Outcome.next ((State.ifUp_of_up (by rw [State.lane_at, hl]) _).trans hrun),
    ((State.onlyLane_at s tm l).trans (State.onlyLane_setLane _ l _)).withBus .none, rfl, fun hp => ?_, fun hp => ?_⟩
  · rw [State.busOk_lane, State.lane_setLane, hp, if_neg (by decide)]
    exact ⟨rfl, rfl⟩
  · rw [State.busOk_lane, State.lane_setLane, hp, if_pos rfl]
    exact Lane.countDiscard_frame _ _ _

theorem bridgeWrite_refused {a : Word} {w : Width} (v : Word) (tm : Nat) (hl : (s.lane l).rst.held = false) (hin : inBridge a.toNat = true)
    (hal : a.toNat % Width.bytes w = 0)
    (h : (s.lane l).on (BRG_MAP_EN (brgWin a.toNat)) = false ∨ (s.lane l).on (BRG_MAP_WEN (brgWin a.toNat)) = false) :
    ∃ t, exec (.bridgeWrite l a w v tm) s = .next t ∧ t.bus = .error ∧ (t.lane l).brg.writes = (s.lane l).brg.writes ∧ t.hub = s.hub ∧
       (t.lane l).core0.cause = 5 ∧ (t.lane l).core0.tval = a := by
  have hoff : (!(s.lane l).on (BRG_MAP_EN (brgWin a.toNat)) || !(s.lane l).on (BRG_MAP_WEN (brgWin a.toNat))) = true := by
    rcases h with h | h
    · rw [h]; rfl
    · rw [h, Bool.not_false, Bool.or_true]
  have hframe := (s.lane l).brgErr_frame (errOf (brgWin a.toNat) brgPerm true a)
  generalize hx : (s.lane l).brgErr (errOf (brgWin a.toNat) brgPerm true a) = x at hframe
  have hrun : (s.at tm).bridgeWrite l a w v tm = ((s.at tm).setLane l x).busErr.trapOnError l a true := by
    unfold State.bridgeWrite State.brgWriteStart
    dsimp only
    rw [State.lane_at, hin, if_neg (by decide), if_neg (not_not.mpr hal), if_pos hoff, hx]
  obtain ⟨hbus, hhub, hb, -, htval, -, hcause⟩ := State.trapOnError_busErr (z := (s.at tm).setLane l x) (l := l) (x := x) (State.lane_setLane _ _ _)
    (by rw [hframe]; exact hl) a true
  refine ⟨_, congrArg Host.Outcome.next ((State.ifUp_of_up (by rw [State.lane_at, hl]) _).trans hrun), hbus, ?_, ?_, hcause, htval⟩
  · rw [hb, hframe]
  · rw [hhub, State.setLane_hub, State.at_hub]

theorem bridgeWriteAck_lands {p : BrgWrite} {rest : List BrgWrite} (hl : (s.lane l).rst.held = false) (hh : s.hub.rst.held = false)
    (hw : (s.lane l).brg.writes = p :: rest) (hn : 0 < p.bytes)
    (hok : sramOk s.hub.badBanks ((s.lane l).hubAddr p.addr.toNat) p.bytes = true) (hf : s.hub.on HSRAM_STAT_FROZEN = false) :
    ∃ t, exec (.bridgeWriteAck l p.win 0) s = .next t ∧ t.hub.reg = s.hub.reg ∧ (t.lane l).brg.writes = rest ∧
       (t.lane l).reg = (s.lane l).reg ∧ memBytes t.hub.sram ((s.lane l).hubAddr p.addr.toNat) p.bytes = leBytes p.bytes p.v.toNat ∧
       ∀ b : Nat, (b < (s.lane l).hubAddr p.addr.toNat ∨ (s.lane l).hubAddr p.addr.toNat + p.bytes ≤ b) →
         memByte t.hub.sram b = memByte s.hub.sram b := by
  obtain ⟨hin, -⟩ := inSram_one_of_sramOk hok hn
  generalize ha : (s.lane l).hubAddr p.addr.toNat = a at hok hin
  have hstore : s.hub.sramWrite a p.bytes p.v = some { s.hub with sram := memPutBytes s.hub.sram a (leBytes p.bytes p.v.toNat) } := by
    unfold Hub.sramWrite Hub.putSram
    rw [if_pos hok, hf, Bool.false_and, if_neg (by decide)]
  have hrun : s.bridgeAck l p.win 0 =
      ({ s with hub := { s.hub with sram := memPutBytes s.hub.sram a (leBytes p.bytes p.v.toNat) } } : State).setLane l ((s.lane l).dropWrite 0) := by
    have hfirst : (s.lane l).brg.writes.findIdx? (fun q => q.win == p.win) = some 0 := by
      rw [hw, List.findIdx?_cons, beq_self_eq_true, if_pos rfl]
    have hget : (s.lane l).brg.writes[0]? = some p := by rw [hw]; rfl
    have hans : writeAnswer a 0 = 0 := if_pos hin
    unfold State.bridgeAck
    dsimp only
    rw [hh, if_neg (by decide), hfirst]
    dsimp only
    rw [hget]
    dsimp only
    rw [ha, hans, if_neg (by decide), hstore]
  refine ⟨_, congrArg Host.Outcome.next ((State.ifUp_of_up hl _).trans hrun), ?_⟩
  rw [State.lane_setLane, State.setLane_hub]
  refine ⟨rfl, ?_, rfl, ?_, fun b hb => ?_⟩
  · show (s.lane l).brg.writes.eraseIdx 0 = rest
    rw [hw]
    rfl
  · have := memBytes_putBytes s.hub.sram a (leBytes p.bytes p.v.toNat)
    rwa [leBytes_length] at this
  · exact memByte_putBytes_outside _ _ (by rwa [leBytes_length])

theorem bridgeWriteTimeout_poisons {w : Nat} {p : BrgWrite} {tm : Nat} (hl : (s.lane l).rst.held = false) (hw : w < 8) (hp : p.win = w)
    (hfind : (s.lane l).brg.writes.find? (fun x => x.win == w) = some p) (ht : p.t + (s.lane l).fget BRG_CFG_WTMO * 10000 ≤ tm) :
    ∃ t, exec (.bridgeWriteTimeout l w tm) s = .next t ∧ s.OnlyLane t l ∧ (t.lane l).poisonedWin w = true ∧
       (∀ k, k < 8 → k ≠ w → (t.lane l).poisonedWin k = (s.lane l).poisonedWin k) ∧ ∀ x ∈ (t.lane l).brg.writes, x.win ≠ w := by
  obtain ⟨honly, hlane⟩ := State.upLane_next (s.at tm) l (·.writeTimeout w tm) (by rw [State.lane_at, hl])
  have hrun : (s.lane l).writeTimeout w tm = (s.lane l).writeFails p brgTimeout := by
    unfold Lane.writeTimeout
    rw [hfind]
    exact if_pos ht
  refine ⟨_, rfl, (State.onlyLane_at s tm l).trans honly, ?_⟩
  rw [hlane, State.lane_at, hrun, ← hp]
  exact (s.lane l).writeFails_spec p brgTimeout (hp ▸ hw)

theorem brgResume_clears (v : Word) (failing : BitVec 8) (hl : (s.lane l).rst.held = false) :
    ∃ t, exec (.brgResume l v failing) s = .next t ∧ s.OnlyLane t l ∧ (s.lane l).OnlyRegs (t.lane l) [BRG_STAT] ∧
       ∀ w, w < 8 → (t.lane l).poisonedWin w = ((s.lane l).poisonedWin w && !(v.getLsbD w && !failing.getLsbD w)) := by
  obtain ⟨honly, hlane⟩ := State.upLane_next s l (·.brgResume v failing) hl
  refine ⟨_, rfl, honly, ?_, fun w hw => ?_⟩
  · rw [hlane]
    exact ((s.lane l).onlyRegs_fset (f := BRG_STAT_POISON) _ (by decide)).notes []
  · rw [hlane]
    exact (s.lane l).brgResume_poisonedWin v failing hw

end

/-- Settles O32: a split read ends with data or a bus error, a posted write lands or poisons its stream. -/
theorem splitReadsAndPostedWritesEndOrPoison : Obligations.SplitReadsAndPostedWritesEndOrPoison := by
  unfold Obligations.SplitReadsAndPostedWritesEndOrPoison
  refine ⟨⟨?_, ?_, ?_, ?_, ?_, ?_, ?_⟩, ?_, ?_, ?_, ?_, ?_⟩
  · exact fun s l a w tm hl hin hal hen hp hw hr hq _ => bridgeRead_issued hl hin hal hen hp hw hr hq
  · exact fun s l a w tm hl hin hal herrs h => bridgeRead_refused tm hl hin hal herrs h
  · exact fun s l tag r tm hl hfind hok hn => bridgeReadResponse_data tm hl hfind hok hn
  · exact fun s l tag err tm hl hfind => bridgeReadResponse_late err tm hl hfind
  · exact fun s l tag r tm hl hfind ht => bridgeReadBudget_ends hl hfind ht
  · exact fun s l tag r tm hl hfind ht => bridgeReadTimeout_ends hl hfind ht
  · exact fun s l tag tm hl _ => tagQuarantineEnd_frees tag tm hl
  · exact fun s l a v w tm hl hin hal hen hwen => bridgeWrite_taken v tm hl hin hal hen hwen
  · exact fun s l a v w tm hl hin hal h => bridgeWrite_refused v tm hl hin hal h
  · exact fun s l p rest hl hh hw hn hok hf => bridgeWriteAck_lands hl hh hw hn hok hf
  · exact fun s l w p tm hl hw hp hfind ht => bridgeWriteTimeout_poisons hl hw hp hfind ht
  · exact fun s l v failing hl => brgResume_clears v failing hl

end Sys2Proof.Machine
end

section
/-! PROOFS. Scrubbing, exchange mailboxes and the shared window (R369, R417 to R419, R427 to R430), and the statement on them. -/

namespace Sys2Proof.Machine

/-! ### What a leave keeps of the lane's reset (R164) -/

theorem Lane.abandonReadm_rst (x : Lane) (r : Nat) : (x.abandonReadm r).rst = x.rst := by
  rw [Lane.abandonReadm_eq]
  split
  · rfl
  · obtain ⟨h, -⟩ := x.abandonRegs_onlyRegs r
    exact (congrArg Lane.rst h :)

theorem Lane.enterEasy_rst (x : Lane) (split : Bool) (cause : Nat) (peer : Bool) : (x.enterEasy split cause peer).rst = x.rst := by
  unfold Lane.enterEasy
  split
  · rfl
  · rw [← x.abandonReadm_rst 0x06]
    generalize x.abandonReadm 0x06 = z
    simp only [Lane.stopDyn, Lane.sendNotice, Lane.raise, Lane.fset, Lane.setRg]

theorem Lane.LeftAs.due {x y : Lane} {reason ctx seg due cause : Nat} (h : x.LeftAs y reason ctx seg due cause) :
    y.rst.due = some (false, cause, due) ∧ y.fld.dyn = 0 := by
  obtain ⟨hdyn, -, hdue⟩ := x.leaveNow_rest reason ctx seg due cause
  obtain rfl | ⟨split, c, rfl⟩ := h
  · exact ⟨hdue, hdyn⟩
  · exact ⟨by rw [Lane.enterEasy_rst, hdue], Lane.enterEasy_dyn _ _ _ (x.leaveNow_easy _ _ _ _ _)⟩

/-- An uncorrectable error takes a voter out with LANE_FAULT, its reset due 10 µs later (R418). -/
theorem State.laneUncorrectable_leaves {s : State} {l : LaneId} (hl : (s.lane l).rst.held = false) (he : (s.lane l).easy = false)
    (hv : (s.lane l).inVote = true) (a : Nat) :
    ((s.lane l).uncorrected a).LeftAs ((s.laneUncorrectable l a).lane l) leaveLaneFault 0 0 (s.now + tenMicros) causeSwr := by
  have hlane : (s.modLane l (·.uncorrected a)).lane l = (s.lane l).uncorrected a := State.lane_modLane _ _ _
  obtain ⟨hframe, hkept⟩ := (s.lane l).uncorrected_onlyRegs a
  have hleft := State.leave_lane (s := s.modLane l (·.uncorrected a)) (l := l) (by rw [hlane, hframe]; exact hl)
    (by rw [hlane]; exact (Lane.RegsKept.easy hkept (by decide)).trans he) (by rw [hlane]; exact (Lane.RegsKept.inVote hkept (by decide)).trans hv)
    leaveLaneFault 0 0 (s.now + tenMicros) causeSwr
  rw [hlane] at hleft
  rw [State.laneUncorrectable_eq]
  unfold State.leaveAtOnce
  rw [State.modLane_now]
  exact hleft

/-! ### Scrubbing (R419) -/

theorem State.scrubStep_spec (s : State) (l : LaneId) :
    (∀ k, (s.scrubStep l).lane k = s.lane k) ∧ (s.scrubStep l).hub = s.hub ∧ (s.scrubStep l).now = s.now ∧
      (s.scrubStep l).scrubOf l = (s.scrubOf l + 1) % 0x400000 := by
  cases l
  · exact ⟨fun k => by cases k <;> rfl, rfl, rfl, rfl⟩
  · exact ⟨fun k => by cases k <;> rfl, rfl, rfl, rfl⟩
  · exact ⟨fun k => by cases k <;> rfl, rfl, rfl, rfl⟩

theorem exec_scrubRead_lane {s : State} {l : LaneId} (hl : (s.lane l).rst.held = false) (n : Nat) :
    exec (.scrubRead (.lane l) n) s = .next (s.scrubRead (.lane l) n) := by
  show Host.Outcome.next (if (s.lane l).rst.held then s else s.scrubRead (.lane l) n) = _
  rw [hl]
  rfl

theorem scrubRead_lane {s : State} {l : LaneId} (hl : (s.lane l).rst.held = false) :
    (∃ t, exec (.scrubRead (.lane l) 0) s = .next t ∧ (∀ k, t.lane k = s.lane k) ∧ t.hub = s.hub ∧
       t.scrubOf l = (s.scrubOf l + 1) % 0x400000) ∧
     (∃ t, exec (.scrubRead (.lane l) 1) s = .next t ∧ (s.lane l).OnlyRegs (t.lane l) [LCTL_MEMSTAT, LCTL_ECCADDR] ∧ t.hub = s.hub ∧
       (t.lane l).on LCTL_MEMSTAT_CE = true ∧
       (t.lane l).rg LCTL_ECCADDR = BitVec.ofNat 32 (0x08000000 + 4 * s.scrubOf l)) ∧
     (∀ n, 2 ≤ n → (s.lane l).inVote = true → (s.lane l).easy = false →
       ∃ t, exec (.scrubRead (.lane l) n) s = .next t ∧ (t.lane l).on LCTL_MEMSTAT_UE = true ∧ (t.lane l).inVote = false ∧
         (t.lane l).fget VOTE_LEAVE_REASON = 0x0A ∧ (t.lane l).fld.dyn = 0 ∧ (t.lane l).rst.due = some (false, 4, s.now + 10000)) := by
  obtain ⟨hlanes, hhub, hnow, hnext⟩ := s.scrubStep_spec l
  refine ⟨⟨_, exec_scrubRead_lane hl 0, hlanes, hhub, hnext⟩, ⟨_, exec_scrubRead_lane hl 1, ?_⟩, fun n hn hv he => ⟨_, exec_scrubRead_lane hl n, ?_⟩⟩
  · have hrun : s.scrubRead (.lane l) 1 = (s.scrubStep l).modLane l (·.corrected (sramBase + 4 * s.scrubOf l)) := rfl
    rw [hrun, State.lane_modLane, hlanes, State.modLane_hub]
    refine ⟨(s.lane l).corrected_onlyRegs _, hhub, ?_, ?_⟩
    · unfold Lane.corrected
      rw [Lane.on, Lane.fget_setRg_ne _ _ (by decide)]
      exact Lane.on_fset_one _ _ (by decide) rfl
    · unfold Lane.corrected sramBase
      rw [Lane.rg_setRg_same]
      congr 1
      omega
  · have hrun : s.scrubRead (.lane l) n = (s.scrubStep l).laneUncorrectable l (sramBase + 4 * s.scrubOf l) := by
      unfold State.scrubRead
      dsimp only
      rw [if_neg (by omega), if_neg (by omega)]
    have hleft := State.laneUncorrectable_leaves (s := s.scrubStep l) (l := l) (by rw [hlanes]; exact hl) (by rw [hlanes]; exact he)
      (by rw [hlanes]; exact hv) (sramBase + 4 * s.scrubOf l)
    rw [hlanes, hnow] at hleft
    rw [hrun]
    refine ⟨?_, hleft.inVote, hleft.reason, hleft.due.2, hleft.due.1⟩
    rw [Lane.on, hleft.fget_kept (by decide)]
    unfold Lane.uncorrected
    rw [Lane.fget_setRg_ne _ _ (by decide)]
    exact (s.lane l).on_fset_one _ (by decide) rfl

theorem Hub.uncorrectable_spec (h : Hub) (a : Nat) :
    h.RegsKept (h.uncorrectable a) [HSRAM_STAT, HSRAM_ECCADDR] ∧ (h.uncorrectable a).on HSRAM_STAT_UE = true ∧ (h.uncorrectable a).sram = h.sram := by
  unfold Hub.uncorrectable
  refine ⟨fun b hb => ?_, ?_, rfl⟩
  · rw [Hub.rg_setRg_ne _ _ fun e => hb (by rw [e]; decide), Hub.rg_fset_ne _ _ fun e => hb (by rw [e]; decide)]
  · rw [Hub.on, Hub.fget_setRg_ne _ _ (by decide), Hub.fget_fset_same _ _ _ (by decide)]
    rfl

theorem scrubRead_hub {s : State} {n : Nat} (hh : s.hub.rst.held = false) (hn : 2 ≤ n) :
    ∃ t, exec (.scrubRead .hub n) s = .next t ∧ s.OnlyHub t ∧ s.hub.RegsKept t.hub [HSRAM_STAT, HSRAM_ECCADDR] ∧
       t.hub.on HSRAM_STAT_UE = true ∧ t.hub.sram = s.hub.sram := by
  have hrun : exec (.scrubRead .hub n) s = .next (s.modHub fun h =>
      ({ h with scrub := scrubNext h.scrub } : Hub).uncorrectable (sramBase + 4 * s.hub.scrub)) := by
    show Host.Outcome.next (if s.hub.rst.held then s else s.scrubRead .hub n) = _
    rw [hh, if_neg (by decide)]
    unfold State.scrubRead State.modHub
    dsimp only
    rw [if_neg (by omega), if_neg (by omega)]
  refine ⟨_, hrun, rfl, ?_⟩
  exact ({ s.hub with scrub := scrubNext s.hub.scrub } : Hub).uncorrectable_spec _

/-! ### Exchange mailboxes (R427 to R430) -/

section
variable {s : State} {l : LaneId} {off : Nat} (h4 : off % 4 = 0) (hoff : off < 0x40000)
include h4 hoff

/-- An aligned word access of a mailbox that nothing overlaps, at the port of a die out of reset. -/
theorem State.mailboxAccess_alone {byHub : Bool} (hport : (if byHub then s.hub.rst.held else (s.lane l).rst.held) = false) (acc : Access) (n : Nat) :
    s.mailboxAccess l byHub off .word acc none n =
      let bad := (s.hub.mbx l).badWords.contains (off / 4) || decide (2 ≤ n)
      match acc with
      | .write v => (s.modHub (·.modMbx l fun m => m.put off 4 v)).busOk
      | .read =>
        if bad then
          let t := s.modHub (·.modMbx l fun m => { m with badWords := insertL (off / 4) m.badWords })
          (if byHub then t.modHub (·.fsat (HSRAM_MBX_UECNT l.idx) 1) else t).busErr
        else s.busData (BitVec.ofNat 32 (memNat (s.hub.mbx l).mem off 4)) := by
  have hmod : off % mbxSize = off := Nat.mod_eq_of_lt hoff
  have hok : ¬ (off % Width.bytes .word ≠ 0 ∨ mbxSize ≤ off) := fun h => h.elim (fun h => h h4) (fun h => absurd hoff (Nat.not_lt.mpr h))
  unfold State.mailboxAccess
  dsimp only
  rw [hport, if_neg (by decide), hmod, if_neg hok]
  cases acc with
  | read => rfl
  | write v =>
    dsimp only
    rw [if_neg (by simp)]
    rfl

theorem mailbox_write_reads_back {byHub rdHub : Bool} (hl : (s.lane l).rst.held = false) (hh : s.hub.rst.held = false) (v : Word) (n : Nat) :
     ∃ t u, exec (.mailboxAccess l byHub off .word (.write v) none n) s = .next t ∧
       exec (.mailboxAccess l rdHub off .word .read none 0) t = .next u ∧
       t.bus = .none ∧ u.bus = .data v ∧ (∀ k, t.lane k = s.lane k) ∧ t.hub.reg = s.hub.reg ∧ t.hub.sram = s.hub.sram ∧
       (∀ k, k ≠ l → t.hub.mbx k = s.hub.mbx k) ∧
       ∀ b : Nat, (b < off ∨ off + 4 ≤ b) → memByte (t.hub.mbx l).mem b = memByte (s.hub.mbx l).mem b := by
  have hport : ∀ b : Bool, (if b then s.hub.rst.held else (s.lane l).rst.held) = false := fun b => by cases b <;> [exact hl; exact hh]
  have hwrite := State.mailboxAccess_alone h4 hoff (hport byHub) (.write v) n
  dsimp only at hwrite
  generalize ht : (s.modHub (·.modMbx l fun m => m.put off 4 v)).busOk = t at hwrite
  have hlane : ∀ k, t.lane k = s.lane k := fun k => by rw [← ht]; cases k <;> rfl
  have hhub : t.hub = s.hub.modMbx l fun m => m.put off 4 v := by rw [← ht]; rfl
  have hmbx : t.hub.mbx l = (s.hub.mbx l).put off 4 v := by rw [hhub, Hub.mbx_modMbx]
  have hportt : (if rdHub then t.hub.rst.held else (t.lane l).rst.held) = false := by
    rw [hhub, hlane, Hub.modMbx_rst]
    exact hport rdHub
  have hread := State.mailboxAccess_alone (s := t) h4 hoff hportt .read 0
  dsimp only at hread
  have hgood : ((t.hub.mbx l).badWords.contains (off / 4) || decide (2 ≤ 0)) = false := by
    rw [hmbx]
    show ((removeL (off / 4) (s.hub.mbx l).badWords).contains (off / 4) || false) = false
    rw [Bool.or_false, List.contains_eq_mem, decide_eq_false]
    rw [mem_removeL]
    exact fun h => h.2 rfl
  rw [hgood, if_neg (by decide)] at hread
  refine ⟨t, _, congrArg Host.Outcome.next hwrite, congrArg Host.Outcome.next hread, by rw [← ht]; rfl, ?_, hlane, ?_, ?_, fun k hk => ?_, fun b hb => ?_⟩
  · rw [State.busData_bus, hmbx]
    show BusResp.data (BitVec.ofNat 32 (memNat (memPutNat (s.hub.mbx l).mem off 4 v.toNat) off 4)) = _
    rw [memNat_putNat, show 256 ^ 4 = 2 ^ 32 from rfl, Nat.mod_eq_of_lt v.isLt, BitVec.ofNat_toNat, BitVec.setWidth_eq]
  · rw [hhub, Hub.modMbx_reg]
  · rw [hhub, Hub.modMbx_sram]
  · rw [hhub, Hub.mbx_modMbx_ne _ _ hk]
  · rw [hmbx]
    exact memByte_putBytes_outside _ _ (by rwa [leBytes_length])

theorem mailbox_collision_reads_free (hl : (s.lane l).rst.held = false) (v : Word) (later : Bool) (n : Nat) :
     ∃ t, exec (.mailboxAccess l false off .word .read (some (later, .write v)) n) s = .next t ∧ t.bus = .data (Config.freeWord s.draws) ∧
       (t.lane l).fget LCTL_MEMSTAT_MBXCOLL = ((s.lane l).fget LCTL_MEMSTAT_MBXCOLL + 1) % 2 ^ LCTL_MEMSTAT_MBXCOLL.w ∧
       (later = false → (t.lane l).on LCTL_MEMSTAT_MBX_BUSY = true) := by
  have hok : ¬ (off % Width.bytes .word ≠ 0 ∨ mbxSize ≤ off) := fun h => h.elim (fun h => h h4) (fun h => absurd hoff (Nat.not_lt.mpr h))
  have hcoll : ((s.lane l).fset LCTL_MEMSTAT_MBXCOLL ((s.lane l).fget LCTL_MEMSTAT_MBXCOLL + 1)).fget LCTL_MEMSTAT_MBXCOLL =
      ((s.lane l).fget LCTL_MEMSTAT_MBXCOLL + 1) % 2 ^ LCTL_MEMSTAT_MBXCOLL.w := Lane.fget_fset_same _ _ _ (by decide)
  generalize hx : (s.lane l).fset LCTL_MEMSTAT_MBXCOLL ((s.lane l).fget LCTL_MEMSTAT_MBXCOLL + 1) = x at hcoll
  have hrun : s.mailboxAccess l false off .word .read (some (later, .write v)) n =
      (s.setLane l (if !later then x.fset LCTL_MEMSTAT_MBX_BUSY 1 else x)).draw.2.busData (Config.freeWord s.draws) := by
    unfold State.mailboxAccess
    dsimp only
    rw [if_neg (by rw [if_neg (by decide), hl]; decide), Nat.mod_eq_of_lt (show off < mbxSize from hoff), if_neg hok, ← hx]
    cases l <;> cases later <;> rfl
  refine ⟨_, congrArg Host.Outcome.next hrun, rfl, ?_⟩
  have hlane : ((s.setLane l (if !later then x.fset LCTL_MEMSTAT_MBX_BUSY 1 else x)).draw.2.busData (Config.freeWord s.draws)).lane l =
      if !later then x.fset LCTL_MEMSTAT_MBX_BUSY 1 else x := by cases l <;> rfl
  rw [hlane]
  cases later with
  | true => exact ⟨hcoll, fun h => Bool.noConfusion h⟩
  | false =>
    refine ⟨?_, fun _ => x.on_fset_one _ (by decide) rfl⟩
    rw [if_pos (by decide), Lane.fget_fset_bits _ (f := LCTL_MEMSTAT_MBX_BUSY) (g := LCTL_MEMSTAT_MBXCOLL) 1 (by rfl) (by decide) (by decide), hcoll]

theorem mailbox_uncorrectable_errs (hh : s.hub.rst.held = false) {n : Nat} (hn : 2 ≤ n) :
     ∃ t, exec (.mailboxAccess l true off .word .read none n) s = .next t ∧ t.bus = .error ∧ (∀ k, t.lane k = s.lane k) ∧
       t.hub.fget (HSRAM_MBX_UECNT l.idx) = satAdd (ones (HSRAM_MBX_UECNT l.idx).w) (s.hub.fget (HSRAM_MBX_UECNT l.idx)) 1 ∧
       (t.hub.mbx l).mem = (s.hub.mbx l).mem := by
  have hrun := State.mailboxAccess_alone (s := s) (l := l) (byHub := true) h4 hoff (if_pos rfl ▸ hh) .read n
  dsimp only at hrun
  rw [decide_eq_true hn, Bool.or_true, if_pos rfl, if_pos rfl] at hrun
  have hmem : ((s.hub.modMbx l fun m => { m with badWords := insertL (off / 4) m.badWords }).fsat (HSRAM_MBX_UECNT l.idx) 1).mbx l =
      { s.hub.mbx l with badWords := insertL (off / 4) (s.hub.mbx l).badWords } := by cases l <;> rfl
  refine ⟨_, congrArg Host.Outcome.next hrun, rfl, fun k => by cases k <;> rfl, ?_, ?_⟩
  · rw [State.busErr_hub, State.modHub_hub, Hub.fsat, Hub.fget_fset_same _ _ _ (by cases l <;> decide), Nat.mod_eq_of_lt]
    · exact congrArg (fun x => satAdd (ones (HSRAM_MBX_UECNT l.idx).w) x 1) (by cases l <;> rfl)
    · refine Nat.lt_of_le_of_lt (satAdd_le _ _ _) ?_
      cases l <;> decide
  · rw [State.busErr_hub, State.modHub_hub, State.modHub_hub, hmem]

end

/-! ### The shared window (R369, R430) -/

theorem Hub.hostFlag_one (h : Hub) {f : Fld} (hw : f.w = 1) (hlo : f.lo + f.w ≤ 32) : (h.hostFlag f 1).on f = true ∧ (h.hostFlag f 1).sram = h.sram := by
  have hreg : (h.hostFlag f 1).reg = (h.fset f (h.fget f ||| 1)).reg := by
    unfold Hub.hostFlag
    dsimp only
    split <;> rfl
  have hfget : (h.hostFlag f 1).fget f = (h.fset f (h.fget f ||| 1)).fget f := by rw [Hub.fget, Hub.rg, hreg]; rfl
  have hbit : h.fget f = 0 ∨ h.fget f = 1 := by
    have : h.fget f < 2 ^ f.w := getField_lt _ _ _
    rw [hw] at this
    omega
  refine ⟨?_, ?_⟩
  · rw [Hub.on, hfget, Hub.fget_fset_same _ _ _ hlo, hw]
    rcases hbit with h | h <;> rw [h] <;> rfl
  · unfold Hub.hostFlag
    dsimp only
    split <;> rfl

theorem hostWindow_outside {s : State} {off : Nat} {w : Width} (acc : Access) (tm : Nat) (hh : s.hub.rst.held = false)
    (h : inShared off (Width.bytes w) = false) :
    ∃ t, exec (.hostWindowAccess off w acc none tm) s = .next t ∧ t.hub.on HCMD_STAT_WIN_ERR = true ∧ t.hub.sram = s.hub.sram ∧
       t.bus = (match acc with | .read => .data 0 | .write _ => .none) := by
  obtain ⟨hon, hsram⟩ := s.hub.hostFlag_one (f := HCMD_STAT_WIN_ERR) (by decide) (by decide)
  have hrun : (s.at tm).hostWindow off w acc none tm = match acc with
      | .read => ((s.at tm).modHub (·.hostFlag HCMD_STAT_WIN_ERR 1)).busData 0
      | .write _ => ((s.at tm).modHub (·.hostFlag HCMD_STAT_WIN_ERR 1)).busOk := by
    unfold State.hostWindow
    dsimp only
    rw [State.at_hub, hh, if_neg (by decide), h]
    rfl
  cases acc with
  | read => exact ⟨_, congrArg Host.Outcome.next hrun, hon, hsram, rfl⟩
  | write v => exact ⟨_, congrArg Host.Outcome.next hrun, hon, hsram, rfl⟩

/-- The shared range lies in hub SRAM, below the retained region. -/
theorem shared_in_sram {off : Nat} (h : inShared off 4 = true) :
    sramOk [] (sramBase + off) 4 = true ∧ decide (retainedBase < sramBase + off + 4) = false := by
  unfold inShared at h
  rw [Bool.and_eq_true, decide_eq_true_eq, decide_eq_true_eq] at h
  obtain ⟨hlo, hhi⟩ := h
  unfold sramOk inSram sramBase sramEnd retainedBase
  refine ⟨?_, decide_eq_false (by omega)⟩
  rw [decide_eq_true (by omega), decide_eq_true (by omega)]
  rfl

theorem hostWindow_write_reads_back {s : State} {off : Nat} (v : Word) (tm : Nat) (hh : s.hub.rst.held = false) (hbad : s.hub.badBanks = [])
    (hin : inShared off 4 = true) (hres : inReserved off = false) :
     ∃ t u, exec (.hostWindowAccess off .word (.write v) none tm) s = .next t ∧ exec (.hostWindowAccess off .word .read none tm) t = .next u ∧
       t.bus = .none ∧ u.bus = .data v ∧ t.hub.reg = s.hub.reg ∧
       ∀ b : Nat, (b < 0x08000000 + off ∨ 0x08000000 + off + 4 ≤ b) → memByte t.hub.sram b = memByte s.hub.sram b := by
  obtain ⟨hok, hkept⟩ := shared_in_sram hin
  generalize ha : sramBase + off = a at hok hkept
  have hstore : s.hub.sramWrite a 4 v = some { s.hub with sram := memPutNat s.hub.sram a 4 v.toNat } := by
    unfold Hub.sramWrite Hub.putSram
    rw [if_pos (by rw [hbad]; exact hok), leBytes_length, hkept, Bool.and_false, if_neg (by decide)]
    rfl
  have hwrite : (s.at tm).hostWindow off .word (.write v) none tm =
      ({ s.at tm with hub := { s.hub with sram := memPutNat s.hub.sram a 4 v.toNat } } : State).busOk := by
    unfold State.hostWindow
    dsimp only
    rw [State.at_hub, hh, if_neg (by decide), show Width.bytes .word = 4 from rfl, hin, if_neg (by decide), ha]
    show (match s.hub.sramWrite a 4 v with | some h => ({ s.at tm with hub := h } : State).busOk | none => _) = _
    rw [hstore]
  generalize ht : ({ s.at tm with hub := { s.hub with sram := memPutNat s.hub.sram a 4 v.toNat } } : State).busOk = t at hwrite
  have hhub : t.hub = { s.hub with sram := memPutNat s.hub.sram a 4 v.toNat } := by rw [← ht]; rfl
  have hload : t.hub.sramRead a 4 = some v := by
    unfold Hub.sramRead
    rw [hhub]
    show (if sramOk s.hub.badBanks a 4 = true then some (BitVec.ofNat 32 (memNat (memPutNat s.hub.sram a 4 v.toNat) a 4)) else none) = _
    rw [if_pos (by rw [hbad]; exact hok), memNat_putNat, show 256 ^ 4 = 2 ^ 32 from rfl, Nat.mod_eq_of_lt v.isLt, BitVec.ofNat_toNat, BitVec.setWidth_eq]
  have hread : (t.at tm).hostWindow off .word .read none tm = (t.at tm).busData v := by
    have hup : t.hub.rst.held = false := by rw [hhub]; exact hh
    unfold State.hostWindow
    dsimp only
    rw [State.at_hub, hup, if_neg (by decide), show Width.bytes .word = 4 from rfl, hin, if_neg (by decide), ha, hres]
    show (match t.hub.sramRead a 4 with | some v => (t.at tm).busData v | none => _) = _
    rw [hload]
  refine ⟨t, _, congrArg Host.Outcome.next hwrite, congrArg Host.Outcome.next hread, by rw [← ht]; rfl, rfl, by rw [hhub], fun b hb => ?_⟩
  rw [hhub]
  refine memByte_putBytes_outside _ _ ?_
  rw [leBytes_length, ← ha]
  exact hb

/-- Settles O35: scrubbing counts what it corrects, and the mailboxes and the shared window read back what was written. -/
theorem scrubbingAndMailboxesKeepTheOtherWords : Obligations.ScrubbingAndMailboxesKeepTheOtherWords := by
  unfold Obligations.ScrubbingAndMailboxesKeepTheOtherWords
  refine ⟨⟨fun s l hl => scrubRead_lane hl, fun s n hh hn => scrubRead_hub hh hn⟩, ?_, ?_, ?_, ?_, ?_, ?_⟩
  · exact fun s l byHub rdHub off n v hl hh h4 hoff => mailbox_write_reads_back h4 hoff hl hh v n
  · exact fun s l off n v later hl h4 hoff => mailbox_collision_reads_free h4 hoff hl v later n
  · exact fun s l off n hh h4 hoff hn => mailbox_uncorrectable_errs h4 hoff hh hn
  · exact fun s off w acc tm hh h => hostWindow_outside acc tm hh h
  · exact fun s off v tm hh hbad hin hres => hostWindow_write_reads_back v tm hh hbad hin hres
  · intro s tm h
    have hrun : (s.at tm).hbusyRelease tm = (s.at tm).modHub fun h => { h with host := { h.host with busyUntil := 0 } } := if_pos h
    exact ⟨_, congrArg Host.Outcome.next hrun, rfl, rfl, rfl⟩

end Sys2Proof.Machine
end

section
/-! PROOFS. Ends of task cycles, releases of event tasks, what a running task may access, and retained data (R65, R211 to R216, R220, R223, R231), and
the statement on them. -/

namespace Sys2Proof.Machine

/-! ### The task table -/

theorem Lane.taskOf_of_tasks {x y : Lane} (h : y.tasks = x.tasks) (m : Nat) : y.taskOf m = x.taskOf m := by unfold Lane.taskOf; rw [h]

/-- A change of entries that keeps their numbers, seen in one of them. -/
theorem find?_map_tnum (g : TaskRun → TaskRun) (hg : ∀ j, (g j).tnum = j.tnum) (n : Nat) (xs : List TaskRun) :
    (xs.map g).find? (fun k => k.tnum == n) = (xs.find? fun k => k.tnum == n).map g := by
  rw [List.find?_map]
  congr 2
  funext k
  exact congrArg (· == n) (hg k)

theorem Lane.modTask_tasks {x : Lane} {n : Nat} {k : TaskRun} (h : x.taskOf n = some k) (f : TaskRun → TaskRun) :
    (x.modTask n f).tasks = x.tasks.map fun j => if j.tnum = n then f j else j := by
  unfold Lane.modTask
  rw [h]
  rfl

theorem Lane.taskOf_tnum {x : Lane} {n : Nat} {k : TaskRun} (h : x.taskOf n = some k) : k.tnum = n := by
  have := List.find?_some h
  simpa using this

/-- A running task has begun, and tasks that would run before it have ended their compute. -/
def Lane.runsNow (x : Lane) (k : TaskRun) (m : TaskRun) : TaskRun :=
  if m.tnum = k.tnum then { m with begun := true } else if m.ready && x.precedes m k then { m with ready := false } else m

theorem Lane.runsNow_tnum (x : Lane) (k m : TaskRun) : (x.runsNow k m).tnum = m.tnum := by
  unfold Lane.runsNow
  split
  · rfl
  · split <;> rfl

theorem Lane.runsNow_excepted (x : Lane) (k m : TaskRun) : (x.runsNow k m).excepted = m.excepted := by
  unfold Lane.runsNow
  split
  · rfl
  · split <;> rfl

theorem Lane.runsNow_self (x : Lane) (k : TaskRun) : x.runsNow k k = { k with begun := true } := if_pos rfl

theorem Lane.taskRuns_of_ready {x : Lane} {n : Nat} {k : TaskRun} (hk : x.taskOf n = some k) (ha : k.active = true) (hr : k.ready = true) :
    x.taskRuns n = some { x with tasks := x.tasks.map (x.runsNow k) } := by
  have hn := Lane.taskOf_tnum hk
  unfold Lane.taskRuns
  rw [hk]
  dsimp only
  rw [ha, hr, if_pos (by decide)]
  refine congrArg some (congrArg (fun ts => { x with tasks := ts }) (List.map_congr_left fun m _ => ?_))
  unfold Lane.runsNow
  rw [hn]

theorem Lane.taskRuns_frame {x y : Lane} {n : Nat} (h : x.taskRuns n = some y) : y = { x with tasks := y.tasks } := by
  unfold Lane.taskRuns at h
  split at h
  · split at h
    · rw [← Option.some.inj h]
    · exact absurd h nofun
  · exact absurd h nofun

/-! ### A cycle cut short (R216, R220) -/

theorem Lane.fieldBlock_of_reg {x y : Lane} (h : y.reg = x.reg) (c : Nat) : y.fieldBlock c = x.fieldBlock c := by
  have hregions : y.regions c = x.regions c := Lane.regions_congr (Lane.fget_of_reg_eq h _) (fun i => by rw [Lane.rg, h]; rfl) (fun i => by rw [Lane.rg, h]; rfl)
  unfold Lane.fieldBlock
  rw [hregions]

theorem Lane.clearQon_frame (x : Lane) (c : Nat) (chs : List Nat) : x.clearQon c chs = { x with sram := (x.clearQon c chs).sram } := by
  unfold Lane.clearQon
  split <;> rfl

theorem Lane.clearQon_sram {x y : Lane} (hreg : y.reg = x.reg) (hsram : y.sram = x.sram) (c : Nat) (chs : List Nat) :
    (y.clearQon c chs).sram = (x.clearQon c chs).sram := by
  unfold Lane.clearQon
  rw [Lane.fieldBlock_of_reg hreg]
  cases x.fieldBlock c with
  | none => exact hsram
  | some a => show memPutNat y.sram a 4 _ = memPutNat x.sram a 4 _; rw [hsram]

/-- The lane before the outputs of a cut cycle are commanded OFF: its variables restored, its outputs safe. -/
def Lane.cutVars (x : Lane) (n : Nat) (last : List (Nat × List Byte)) : Lane :=
  (({ x.putVars last with prog := x.prog.restoreBlocks (· == n) } : Lane)).putVars
    ((x.vars.filter fun v => v.owner == n && v.out).map fun v => (v.offset, x.safeValue v))

/-- The outputs a task's variables map to. -/
def Lane.taskOuts (x : Lane) (n : Nat) : List Nat := (x.vars.filter fun v => v.owner == n && v.out).filterMap (·.channel)

theorem Lane.ctxOf_of_prog {x y : Lane} (h : y.prog.prog = x.prog.prog) (n : Nat) : y.ctxOf n = x.ctxOf n := by
  unfold Lane.ctxOf Lane.taskDesc
  rw [h]

theorem Lane.cutTask_eq {x : Lane} {n : Nat} {k : TaskRun} (h : x.taskOf n = some k) :
    x.cutTask n = ((x.cutVars n k.last).modTask n fun k => { k with ready := false }).clearQon (x.ctxOf n) (x.taskOuts n) := by
  have hn := Lane.taskOf_tnum h
  unfold Lane.cutTask
  rw [h]
  dsimp only
  unfold Lane.restoreTask
  rw [hn]
  have hctx : ((x.cutVars n k.last).modTask n fun k => { k with ready := false }).ctxOf n = x.ctxOf n := Lane.ctxOf_of_prog (by rw [Lane.modTask_frame]; rfl) n
  rw [← hctx]
  rfl

theorem Lane.cutTask_spec {x : Lane} {n : Nat} {k : TaskRun} (h : x.taskOf n = some k) :
    (x.cutTask n).reg = x.reg ∧ (x.cutTask n).prog = x.prog.restoreBlocks (· == n) ∧
      (x.cutTask n).tasks = x.tasks.map fun j => if j.tnum = n then { j with ready := false } else j := by
  have hk : (x.cutVars n k.last).taskOf n = some k := h
  rw [Lane.cutTask_eq h, Lane.clearQon_frame]
  refine ⟨?_, ?_, ?_⟩
  · show ((x.cutVars n k.last).modTask n _).reg = _
    rw [Lane.modTask_reg]
    rfl
  · show ((x.cutVars n k.last).modTask n _).prog = _
    rw [Lane.modTask_frame]
    rfl
  · show ((x.cutVars n k.last).modTask n _).tasks = _
    rw [Lane.modTask_tasks hk]
    rfl

/-- What a cut cycle stores depends on the task's own entry only, and there on its values of the last finish in RUN. -/
theorem Lane.cutTask_sram_tasks {x : Lane} {n : Nat} {k k' : TaskRun} (h : x.taskOf n = some k) (ts : List TaskRun)
    (h' : ({ x with tasks := ts } : Lane).taskOf n = some k') (hl : k'.last = k.last) :
    (({ x with tasks := ts } : Lane).cutTask n).sram = (x.cutTask n).sram := by
  rw [Lane.cutTask_eq h, Lane.cutTask_eq h', hl]
  refine Lane.clearQon_sram ?_ ?_ _ _
  · rw [Lane.modTask_reg, Lane.modTask_reg]
    rfl
  · rw [Lane.modTask_sram, Lane.modTask_sram]
    rfl

section
variable {x : Lane} {n : Nat} {k : TaskRun} (hk : x.taskOf n = some k) (ha : k.active = true) (hr : k.ready = true)
include hk ha hr

/-- The lane that has cut the cycle of a running task and marked its entry. -/
theorem Lane.cut_running_spec (mark : TaskRun → TaskRun) (hm : ∀ j, (mark j).tnum = j.tnum) :
    ∃ y, x.taskRuns n = some y ∧
      let z := (y.cutTask n).modTask n mark
      z.reg = x.reg ∧ z.prog = x.prog.restoreBlocks (· == n) ∧ z.sram = (x.cutTask n).sram ∧
        z.taskOf n = some (mark { k with begun := true, ready := false }) ∧
        ∀ m, m ≠ n → (z.taskOf m).map (·.excepted) = (x.taskOf m).map (·.excepted) := by
  have hn := Lane.taskOf_tnum hk
  refine ⟨_, Lane.taskRuns_of_ready hk ha hr, ?_⟩
  have hfind : ∀ m, (x.tasks.map (x.runsNow k)).find? (fun j => j.tnum == m) = (x.taskOf m).map (x.runsNow k) :=
    fun m => find?_map_tnum _ (x.runsNow_tnum k) m x.tasks
  have hy : ({ x with tasks := x.tasks.map (x.runsNow k) } : Lane).taskOf n = some { k with begun := true } := by
    show (x.tasks.map (x.runsNow k)).find? (fun j => j.tnum == n) = _
    rw [hfind, hk, Option.map_some, x.runsNow_self]
  obtain ⟨hreg, hprog, htasks⟩ := Lane.cutTask_spec hy
  have hsram := Lane.cutTask_sram_tasks hk _ hy rfl
  generalize hz : ({ x with tasks := x.tasks.map (x.runsNow k) } : Lane).cutTask n = z at hreg hprog htasks hsram
  have hcut : ∀ m, z.taskOf m = ((x.taskOf m).map (x.runsNow k)).map fun j => if j.tnum = n then { j with ready := false } else j := by
    intro m
    unfold Lane.taskOf at hfind ⊢
    rw [htasks, find?_map_tnum _ (fun j => by split <;> rfl), hfind]
  have hzn : z.taskOf n = some { k with begun := true, ready := false } := by
    rw [hcut, hk, Option.map_some, Option.map_some, x.runsNow_self]
    show some (if k.tnum = n then _ else _) = _
    rw [if_pos hn]
  refine ⟨by rw [Lane.modTask_reg, hreg], by rw [Lane.modTask_frame]; exact hprog, by rw [Lane.modTask_sram, hsram], ?_, fun m hne => ?_⟩
  · exact Lane.taskOf_modTask mark hzn (hm _)
  · have hmark : (z.modTask n mark).taskOf m = (z.taskOf m).map fun j => if j.tnum = n then mark j else j := by
      unfold Lane.taskOf
      rw [Lane.modTask_tasks hzn, find?_map_tnum _ (fun j => by split <;> simp [hm])]
    rw [hmark, hcut]
    cases hxm : x.taskOf m with
    | none => rfl
    | some j =>
      have hjn : j.tnum ≠ n := by rw [Lane.taskOf_tnum hxm]; exact hne
      simp only [Option.map_some, x.runsNow_tnum, if_neg hjn, x.runsNow_excepted]

end

/-! ### Event tasks and timers (R65, R215) -/

theorem max_mod_eq_zero {a b p : Nat} (ha : a % p = 0) (hb : b % p = 0) : max a b % p = 0 := by
  rcases Nat.le_total a b with h | h
  · rwa [Nat.max_eq_right h]
  · rwa [Nat.max_eq_left h]

/-- The release instant: on the 1 ms grid, after the first held trigger, and no earlier than the interval allows. -/
theorem Lane.releaseDue_spec (x : Lane) (d : TaskDesc) (k : TaskRun) :
    x.releaseDue d k % 1000000 = 0 ∧ k.trigT < x.releaseDue d k ∧ (k.prevTn ≠ 0 → k.prevTn + d.period * 1000000 ≤ x.releaseDue d k) := by
  have hgrid := fun t => ceilMult_spec (p := 1000000) (by decide) t
  unfold Lane.releaseDue
  dsimp only
  refine ⟨max_mod_eq_zero (max_mod_eq_zero (Nat.mul_mod_left _ _) (hgrid _).2.2) (max_mod_eq_zero (hgrid _).2.2 (hgrid _).2.2), ?_, fun hp => ?_⟩
  · refine Nat.lt_of_lt_of_le ?_ ((Nat.le_max_left _ _).trans (Nat.le_max_left _ _))
    omega
  · refine Nat.le_trans ?_ ((Nat.le_max_right _ _).trans (Nat.le_max_left _ _))
    rw [if_neg hp]
    exact (hgrid _).1

theorem Lane.releaseEvent_of_due {x : Lane} {n tm : Nat} {d : TaskDesc} {k : TaskRun} (hd : x.taskDesc n = some d) (hk : x.taskOf n = some k)
    (h : d.event = true ∧ k.active = false ∧ 0 < k.held ∧ tm = x.releaseDue d k ∧ x.prog.mode = .run ∧ x.running = true ∧ x.easy = false) :
    x.releaseEvent n tm = x.modTask n fun k => { k with served := min 255 k.held, held := 0, relT := tm } := by
  unfold Lane.releaseEvent
  rw [hd, hk]
  exact if_pos h

theorem Lane.releaseEvent_of_not_due {x : Lane} {n tm : Nat} {d : TaskDesc} {k : TaskRun} (hd : x.taskDesc n = some d) (hk : x.taskOf n = some k)
    (h : tm ≠ x.releaseDue d k) : x.releaseEvent n tm = x := by
  unfold Lane.releaseEvent
  rw [hd, hk]
  exact if_neg fun hand => h hand.2.2.2.1

theorem Lane.timerExpiry_of_early {x : Lane} {n tm : Nat} (h : ∀ e ∈ x.prog.timers, e.1 = n → tm < e.2) : x.timerExpiry n tm = x := by
  unfold Lane.timerExpiry
  rw [if_neg]
  rw [List.any_eq_true]
  rintro ⟨e, he, hand⟩
  rw [Bool.and_eq_true, beq_iff_eq, decide_eq_true_eq] at hand
  exact absurd (h e he hand.1) (Nat.not_lt.mpr hand.2)

/-- The lane whose timer has ended. -/
def Lane.timerEnded (x : Lane) (n : Nat) : Lane := { x with prog := { x.prog with timers := x.prog.timers.filter fun e => e.1 != n } }

theorem Lane.timerExpiry_of_due {x : Lane} {n e tm : Nat} (h : (n, e) ∈ x.prog.timers) (he : e ≤ tm) :
    x.timerExpiry n tm = (x.timerEnded n).trigger tm fun d => d.trig == 3 && d.tsrc == n := by
  unfold Lane.timerExpiry
  rw [if_pos]
  · rfl
  · rw [List.any_eq_true]
    exact ⟨(n, e), h, by rw [Bool.and_eq_true, beq_self_eq_true]; exact ⟨rfl, decide_eq_true he⟩⟩

theorem Lane.trigger_frame (x : Lane) (tm : Nat) (p : TaskDesc → Bool) : x.trigger tm p = { x with tasks := (x.trigger tm p).tasks } := by
  unfold Lane.trigger
  cases x.prog.prog with
  | none => rfl
  | some g =>
    dsimp only
    generalize g.tasks.filter (fun d => d.event && p d) = ds
    induction ds generalizing x with
    | nil => rfl
    | cons d ds ih =>
      rw [List.foldl_cons, ih (x.modTask d.tnum fun k => { k with held := k.held + 1, trigT := if k.held = 0 then tm else k.trigT })]
      rw [Lane.modTask_frame]

theorem Lane.trigger_single {x : Lane} {g : Program} {d : TaskDesc} {k : TaskRun} (hg : x.prog.prog = some g) (hd : g.tasks = [d])
    (hk : x.tasks = [k]) (hn : d.tnum = k.tnum) (tm : Nat) (p : TaskDesc → Bool) :
    (x.trigger tm p).tasks =
      [if (d.event && p d) = true then { k with held := k.held + 1, trigT := if k.held = 0 then tm else k.trigT } else k] := by
  unfold Lane.trigger
  rw [hg]
  dsimp only
  rw [hd]
  by_cases h : (d.event && p d) = true
  · have hof : x.taskOf d.tnum = some k := by unfold Lane.taskOf; rw [hk, hn, List.find?_cons, beq_self_eq_true]
    rw [List.filter_cons_of_pos (p := fun d => d.event && p d) h, List.filter_nil, List.foldl_cons, List.foldl_nil, Lane.modTask_tasks hof, hk, List.map_cons, List.map_nil,
      if_pos hn.symm, if_pos h]
  · rw [List.filter_cons_of_neg (p := fun d => d.event && p d) h, List.filter_nil, List.foldl_nil, hk, if_neg h]

/-! ### What a running task reads and writes (R213, R231) -/

theorem ofLe_lt (bs : List Byte) : ofLe bs < 256 ^ bs.length := by
  induction bs with
  | nil => decide
  | cons b bs ih =>
    have hb : b.toNat < 256 := b.isLt
    rw [ofLe, List.length_cons, Nat.pow_succ]
    omega

theorem leBytes_ofLe (bs : List Byte) : leBytes bs.length (ofLe bs) = bs := by
  induction bs with
  | nil => rfl
  | cons b bs ih =>
    have hb : b.toNat < 256 := b.isLt
    rw [List.length_cons, leBytes, ofLe, show (b.toNat + 256 * ofLe bs) / 256 = ofLe bs by omega, ih]
    congr 1
    apply BitVec.eq_of_toNat_eq
    rw [BitVec.toNat_ofNat]
    omega

theorem leBytes_four (v i : Nat) (hi : i < (leBytes 4 v).length) : (leBytes 4 v)[i] = BitVec.ofNat 8 (v / 2 ^ (8 * i)) := by
  have h4 : i < 4 := by rwa [leBytes_length] at hi
  match i, h4 with
  | 0, _ => simp [leBytes]
  | 1, _ => simp [leBytes]
  | 2, _ => simp [leBytes, Nat.div_div_eq_div_mul]
  | 3, _ => simp [leBytes, Nat.div_div_eq_div_mul]

/-- The bytes a task's store leaves: those it may not change as they stood. -/
def Lane.taskBytes (x : Lane) (n : Nat) (a : Nat) (v : Word) : List Byte :=
  (leBytes 4 v.toNat).zipIdx.map fun e => if x.keeps n (a + e.2) then memByte x.sram (a + e.2) else e.1

theorem Lane.taskBytes_length (x : Lane) (n a : Nat) (v : Word) : (x.taskBytes n a v).length = 4 := by
  unfold Lane.taskBytes
  rw [List.length_map, List.length_zipIdx, leBytes_length]

theorem Lane.taskBytes_at (x : Lane) (n a : Nat) (v : Word) {i : Nat} (hi : i < (x.taskBytes n a v).length) :
    (x.taskBytes n a v)[i] = if x.keeps n (a + i) then memByte x.sram (a + i) else BitVec.ofNat 8 (v.toNat / 2 ^ (8 * i)) := by
  have hlen : i < (leBytes 4 v.toNat).length := by rw [leBytes_length]; rwa [Lane.taskBytes_length] at hi
  simp only [Lane.taskBytes, List.getElem_map, List.getElem_zipIdx, Nat.zero_add]
  rw [leBytes_four v.toNat i hlen]

theorem Lane.taskBytes_word (x : Lane) (n a : Nat) (v : Word) (m : List Host.Cell) :
    memPutNat m a 4 (BitVec.ofNat 32 (ofLe (x.taskBytes n a v))).toNat = memPutBytes m a (x.taskBytes n a v) := by
  have hlt := ofLe_lt (x.taskBytes n a v)
  have hle := leBytes_ofLe (x.taskBytes n a v)
  rw [Lane.taskBytes_length] at hlt hle
  unfold memPutNat
  rw [BitVec.toNat_ofNat, Nat.mod_eq_of_lt (show ofLe (x.taskBytes n a v) < 2 ^ 32 from hlt), hle]

section
variable {s : State} {l : LaneId} {n : Nat} {x : Lane} {k : TaskRun} {addr : Word} (hl : (s.lane l).rst.held = false)
    (hruns : (s.lane l).taskRuns n = some x) (hk : x.taskOf n = some k) (hok : sramOk (s.lane l).badBanks addr.toNat 4 = true)
include hl hruns hk hok

theorem State.laneAccess_task (acc : Access) (hbus : ((s.setLane l x).taskSram l k addr.toNat 4 0 acc).bus ≠ .error) :
    s.laneAccess l addr.toNat .word acc { src := .task n, nerr := 0, hw := 0 } = (s.setLane l x).taskSram l k addr.toNat 4 0 acc := by
  obtain ⟨hin, hlow⟩ := inSram_one_of_sramOk hok (by decide)
  have hreach : (s.setLane l x).laneReach l addr.toNat .word acc { src := .task n, nerr := 0, hw := 0 } =
      (s.setLane l x).taskSram l k addr.toNat 4 0 acc := by
    unfold State.laneReach
    dsimp only
    rw [if_neg (by simp only [Width.bytes]; omega), hin, if_pos rfl, State.lane_setLane, hk]
    rfl
  unfold State.laneAccess
  dsimp only
  rw [hl, if_neg (by decide), hruns]
  dsimp only
  rw [hreach, State.trapOnError_of_no_error _ _ _ hbus]

theorem task_reads_copies :
    ∃ t, exec (.registerWrite (.lane l) addr .read { src := .task n, nerr := 0, hw := 0 }) s = .next t ∧ t.hub = s.hub ∧
       (t.lane l).sram = (s.lane l).sram ∧
       t.bus = .data (BitVec.ofNat 32 (ofLe ((upTo 4).map fun i => x.taskByte k (addr.toNat + i)))) := by
  have hframe := Lane.taskRuns_frame hruns
  have hread : (s.setLane l x).taskSram l k addr.toNat 4 0 .read =
      (s.setLane l x).busData (BitVec.ofNat 32 (ofLe ((upTo 4).map fun i => x.taskByte k (addr.toNat + i)))) := by
    unfold State.taskSram Lane.sramRead
    dsimp only
    rw [State.lane_setLane, if_pos (by rw [hframe]; exact hok)]
    rfl
  have hrun := State.laneAccess_task hl hruns hk hok .read (by rw [hread]; exact nofun)
  refine ⟨_, (exec_registerWrite_lane l addr _ _ s).trans (congrArg Host.Outcome.next (hrun.trans hread)), State.setLane_hub _ _ _, ?_, rfl⟩
  rw [State.busData_lane, State.lane_setLane, hframe]

theorem task_writes_own (v : Word) (hn : k.tnum = n) :
    ∃ t, exec (.registerWrite (.lane l) addr (.write v) { src := .task n, nerr := 0, hw := 0 }) s = .next t ∧ t.bus = .none ∧
       t.hub = s.hub ∧ (t.lane l).reg = (s.lane l).reg ∧
       (∀ b : Nat, (b < addr.toNat ∨ addr.toNat + 4 ≤ b ∨ (s.lane l).keeps n b = true) →
         memByte (t.lane l).sram b = memByte (s.lane l).sram b) ∧
       (∀ i : Nat, i < 4 → (s.lane l).keeps n (addr.toNat + i) = false →
         memByte (t.lane l).sram (addr.toNat + i) = BitVec.ofNat 8 (v.toNat / 2 ^ (8 * i))) := by
  have hframe := Lane.taskRuns_frame hruns
  have hbytes : x.taskBytes n addr.toNat v = (s.lane l).taskBytes n addr.toNat v := by rw [hframe]; rfl
  have hwrite : (s.setLane l x).taskSram l k addr.toNat 4 0 (.write v) =
      ((s.setLane l x).setLane l { x with sram := memPutBytes (s.lane l).sram addr.toNat ((s.lane l).taskBytes n addr.toNat v) }).busOk := by
    have hstore := State.laneSram_write (s := s.setLane l x) (l := l) (a := addr.toNat) (by rw [State.lane_setLane, hframe]; exact hok)
      (BitVec.ofNat 32 (ofLe (x.taskBytes n addr.toNat v)))
    rw [State.lane_setLane, Lane.taskBytes_word, hbytes] at hstore
    unfold State.taskSram
    dsimp only
    rw [State.lane_setLane, hn]
    refine Eq.trans ?_ (hstore.trans ?_)
    · rw [← hbytes]
      rfl
    · rw [show x.sram = (s.lane l).sram by rw [hframe]]
  have hrun := State.laneAccess_task hl hruns hk hok (.write v) (by rw [hwrite, State.busOk_bus]; decide)
  have hlane : ((((s.setLane l x).setLane l { x with sram := memPutBytes (s.lane l).sram addr.toNat ((s.lane l).taskBytes n addr.toNat v) }).busOk).lane l) =
      { x with sram := memPutBytes (s.lane l).sram addr.toNat ((s.lane l).taskBytes n addr.toNat v) } := by rw [State.busOk_lane, State.lane_setLane]
  have hat : ∀ i, i < 4 → memByte (memPutBytes (s.lane l).sram addr.toNat ((s.lane l).taskBytes n addr.toNat v)) (addr.toNat + i) =
      if (s.lane l).keeps n (addr.toNat + i) then memByte (s.lane l).sram (addr.toNat + i) else BitVec.ofNat 8 (v.toNat / 2 ^ (8 * i)) := fun i hi => by
    rw [memByte_putBytes_at _ _ _ _ (by rw [Lane.taskBytes_length]; exact hi), Lane.taskBytes_at]
  refine ⟨_, (exec_registerWrite_lane l addr _ _ s).trans (congrArg Host.Outcome.next (hrun.trans hwrite)), rfl, ?_, ?_, fun b hb => ?_, fun i hi hkeeps => ?_⟩
  · rw [State.busOk_hub, State.setLane_hub, State.setLane_hub]
  · rw [hlane, hframe]
  · rw [hlane]
    by_cases hin : addr.toNat ≤ b ∧ b < addr.toNat + 4
    · have hkeeps : (s.lane l).keeps n b = true := by
        rcases hb with h | h | h
        · omega
        · omega
        · exact h
      have := hat (b - addr.toNat) (by omega)
      rw [Nat.add_sub_cancel' hin.1, if_pos hkeeps] at this
      exact this
    · exact memByte_putBytes_outside _ _ (by rw [Lane.taskBytes_length]; omega)
  · rw [hlane]
    exact (hat i hi).trans (if_neg (by rw [hkeeps]; decide))

end

/-! ### Retained data (R223) -/

/-- The lane that has taken down lists of retained copies. -/
def Lane.listsTaken (x : Lane) (lists : List (LaneId × List RetainItem)) : Lane := { x with start := { x.start with retLists := lists } }

theorem Lane.listsTaken_copyOf (x : Lane) (lists : List (LaneId × List RetainItem)) (i : RetainItem) : (x.listsTaken lists).copyOf i = x.copyOf i := rfl

theorem Lane.listsTaken_loadRetain (x : Lane) (lists : List (LaneId × List RetainItem)) (one : Bool) :
    (x.listsTaken lists).loadRetain one = (x.loadRetain one).listsTaken lists := rfl

theorem lane_eq_of_ne {p q r y : LaneId} (hpq : p ≠ q) (hpr : p ≠ r) (hqr : q ≠ r) : y = p ∨ y = q ∨ y = r := by
  cases p <;> cases q <;> cases r <;> cases y <;> simp_all

/-- The lists of every lane out of reset are in. -/
def State.listsIn (s : State) (lists : List (LaneId × List RetainItem)) : Bool :=
  (allLanes.filter fun y => (s.lane y).up).all fun y => lists.any fun e => e.1 == y

theorem State.listsIn_iff (s : State) (p q : LaneId) (ps qs : List RetainItem) :
    s.listsIn [(p, ps), (q, qs)] = true ↔ ∀ y, (s.lane y).up = true → y = p ∨ y = q := by
  have hmem : ∀ y : LaneId, y ∈ allLanes := fun y => by cases y <;> decide
  have hany : ∀ y, ([(p, ps), (q, qs)].any fun e : LaneId × List RetainItem => e.1 == y) = true ↔ y = p ∨ y = q := fun y => by
    rw [List.any_cons, List.any_cons, List.any_nil, Bool.or_false, Bool.or_eq_true, beq_iff_eq, beq_iff_eq, eq_comm, @eq_comm _ q]
  unfold State.listsIn
  rw [List.all_eq_true]
  constructor
  · exact fun h y hy => (hany y).mp (h y (List.mem_filter.mpr ⟨hmem y, hy⟩))
  · exact fun h y hy => (hany y).mpr (h y (List.mem_filter.mp hy).2)

theorem State.up_listsTaken (s : State) (dst : LaneId) (lists : List (LaneId × List RetainItem)) (y : LaneId) :
    ((s.setLane dst ((s.lane dst).listsTaken lists)).lane y).up = (s.lane y).up := by
  by_cases hy : y = dst
  · rw [hy, State.lane_setLane]
    rfl
  · rw [State.lane_setLane_ne _ _ hy]

/-- With the third lane in reset the lists of the two others decide. -/
theorem State.listsIn_of_down {s : State} {dst src z : LaneId} (hds : dst ≠ src) (hdz : dst ≠ z) (hsz : src ≠ z) (hz : (s.lane z).up = false)
    (ds ss : List RetainItem) : (s.setLane dst ((s.lane dst).listsTaken [(dst, ds), (src, ss)])).listsIn [(dst, ds), (src, ss)] = true := by
  refine (State.listsIn_iff _ _ _ _ _).mpr fun y hy => ?_
  rw [State.up_listsTaken] at hy
  rcases lane_eq_of_ne (y := y) hds hdz hsz with h | h | h
  · exact Or.inl h
  · exact Or.inr h
  · rw [h, hz] at hy
    exact absurd hy (by decide)

/-- With no copy listed twice the initial values stand. -/
theorem retainChoice_of_disjoint {xs ys : List RetainItem} (h : ∀ i ∈ xs, i ∉ ys) (p q : LaneId) : retainChoice [(p, xs), (q, ys)] = none := by
  have hcount : ∀ i, ([(p, xs), (q, ys)].filter fun e : LaneId × List RetainItem => e.2.contains i).length < 2 := by
    intro i
    by_cases hx : i ∈ xs
    · have hy := h i hx
      simp [hx, hy]
    · by_cases hy : i ∈ ys <;> simp [hx, hy]
  have hcand : ([(p, xs), (q, ys)].flatMap (·.2)).filter
      (fun i => decide (2 ≤ ([(p, xs), (q, ys)].filter fun e : LaneId × List RetainItem => e.2.contains i).length)) = [] := by
    refine List.filter_eq_nil_iff.mpr fun i _ => ?_
    rw [decide_eq_true_eq]
    exact Nat.not_le.mpr (hcount i)
  unfold retainChoice
  dsimp only
  rw [hcand]
  rfl

section
variable {s : State} {dst src z : LaneId} (hl : (s.lane dst).rst.held = false) (ha : (s.lane dst).armed = false) (hr : (s.lane dst).sitReady = true)
    (hds : dst ≠ src) (hc : (s.lane dst).start.cold = false) (hd : (s.lane dst).start.retDone = false) (hnone : (s.lane dst).start.retLists = [])
include hl ha hr hds hc hd hnone

/-- The state with the first list taken down, beside the lane's own. -/
theorem State.retainList_guard :
    ((s.lane dst).rst.held || (s.lane dst).armed || !(s.lane dst).sitReady || dst == src || (s.lane dst).start.cold || (s.lane dst).start.retDone) =
      false ∧ ((s.lane dst).start.retLists.filter fun e => e.1 != src && e.1 != dst) = [] := by
  rw [hl, ha, hr, beq_eq_false_iff_ne.mpr hds, hc, hd, hnone]
  exact ⟨rfl, rfl⟩

section
variable {items : List RetainItem} {lists : List (LaneId × List RetainItem)} (hlists : lists = [(dst, (s.lane dst).retainItems), (src, items)])
include hlists

theorem State.retainList_of_missing (hin : (s.setLane dst ((s.lane dst).listsTaken lists)).listsIn lists = false) :
    s.retainList dst src items = s.setLane dst ((s.lane dst).listsTaken lists) := by
  obtain ⟨hguard, hknown⟩ := State.retainList_guard hl ha hr hds hc hd hnone
  unfold State.retainList
  dsimp only
  rw [hguard, if_neg (by decide), hknown, ← hlists]
  exact if_pos (by rw [Bool.not_eq_true']; exact hin)

variable (hin : (s.setLane dst ((s.lane dst).listsTaken lists)).listsIn lists = true)
include hin

theorem State.retainList_of_none (hchoice : retainChoice lists = none) :
    s.retainList dst src items = ((s.setLane dst ((s.lane dst).listsTaken lists)).setLane dst
      ((((s.lane dst).listsTaken lists).retainDone true).note blkFirmware 5 223 [])).flushNotes dst := by
  obtain ⟨hguard, hknown⟩ := State.retainList_guard hl ha hr hds hc hd hnone
  unfold State.retainList
  dsimp only
  rw [hguard, if_neg (by decide), hknown, ← hlists]
  refine (if_neg (by rw [Bool.not_eq_true']; exact fun h => Bool.noConfusion (h.symm.trans hin))).trans ?_
  rw [hchoice]
  dsimp only
  rw [State.lane_setLane]
  rfl

theorem State.retainList_of_held {i : RetainItem} {one : Bool} (hchoice : retainChoice lists = some i) (hcopy : (s.lane dst).copyOf i = some one) :
    s.retainList dst src items = (s.setLane dst ((s.lane dst).listsTaken lists)).setLane dst
      ((((s.lane dst).listsTaken lists).loadRetain one).retainDone true) := by
  obtain ⟨hguard, hknown⟩ := State.retainList_guard hl ha hr hds hc hd hnone
  have hcopy' : ((s.lane dst).listsTaken lists).copyOf i = some one := hcopy
  unfold State.retainList
  dsimp only
  rw [hguard, if_neg (by decide), hknown, ← hlists]
  refine (if_neg (by rw [Bool.not_eq_true']; exact fun h => Bool.noConfusion (h.symm.trans hin))).trans ?_
  rw [hchoice, State.lane_setLane]
  dsimp only
  rw [show ({ s.lane dst with start := { (s.lane dst).start with retLists := lists } } : Lane) = (s.lane dst).listsTaken lists from rfl, hcopy']

end

theorem retainList_waits (hdz : dst ≠ z) (hsz : src ≠ z) (hz : (s.lane z).up = true) (items : List RetainItem) :
    ∃ t, exec (.retainList dst src items) s = .next t ∧ s.OnlyLane t dst ∧ (t.lane dst).reg = (s.lane dst).reg ∧
       (t.lane dst).sram = (s.lane dst).sram ∧ (t.lane dst).start.retLists = [(dst, (s.lane dst).retainItems), (src, items)] ∧
       (t.lane dst).start.retDone = false := by
  have hin : (s.setLane dst ((s.lane dst).listsTaken [(dst, (s.lane dst).retainItems), (src, items)])).listsIn
      [(dst, (s.lane dst).retainItems), (src, items)] = false := by
    rw [Bool.eq_false_iff]
    intro h
    rcases (State.listsIn_iff _ _ _ _ _).mp h z ((State.up_listsTaken s dst _ z).trans hz) with h | h
    · exact hdz h.symm
    · exact hsz h.symm
  have hrun := State.retainList_of_missing hl ha hr hds hc hd hnone rfl hin
  refine ⟨_, congrArg Host.Outcome.next hrun, State.onlyLane_setLane _ _ _, ?_⟩
  rw [State.lane_setLane]
  exact ⟨rfl, rfl, rfl, hd⟩

variable (hdz : dst ≠ z) (hsz : src ≠ z) (hz : (s.lane z).up = false)
include hdz hsz hz

theorem retainList_lost (items : List RetainItem) (hdis : ∀ i ∈ (s.lane dst).retainItems, i ∉ items) :
    ∃ t, exec (.retainList dst src items) s = .next t ∧ s.OnlyLane t dst ∧ (t.lane dst).reg = (s.lane dst).reg ∧
       (t.lane dst).sram = (s.lane dst).sram ∧ (t.lane dst).start.retDone = true ∧ (t.lane dst).start.retainOk = true := by
  have hrun := State.retainList_of_none hl ha hr hds hc hd hnone rfl (State.listsIn_of_down hds hdz hsz hz _ _)
    (retainChoice_of_disjoint hdis dst src)
  refine ⟨_, congrArg Host.Outcome.next hrun,
    ((State.onlyLane_setLane _ _ _).trans (State.onlyLane_setLane _ _ _)).trans (State.onlyLane_flushNotes _ _), ?_⟩
  rw [State.flushNotes_lane, State.lane_setLane]
  exact ⟨rfl, rfl, rfl, rfl⟩

theorem retainList_loads {i : RetainItem} (hi : (s.lane dst).retainItem false = some i) (hi1 : (s.lane dst).retainItem true = none) :
    ∃ t, exec (.retainList dst src [i]) s = .next t ∧ s.OnlyLane t dst ∧ (t.lane dst).reg = (s.lane dst).reg ∧
       (t.lane dst).sram = ((s.lane dst).loadRetain false).sram ∧ (t.lane dst).start.retDone = true ∧
       (t.lane dst).start.retainOk = true ∧ (t.lane dst).prog.retNew = false := by
  have hitems : (s.lane dst).retainItems = [i] := by unfold Lane.retainItems; rw [hi, hi1]; rfl
  have hchoice : retainChoice [(dst, [i]), (src, [i])] = some i := by
    unfold retainChoice
    simp
  have hcopy : (s.lane dst).copyOf i = some false := if_pos hi
  have hrun := State.retainList_of_held hl ha hr hds hc hd hnone rfl (State.listsIn_of_down hds hdz hsz hz _ _)
    (by rw [hitems]; exact hchoice) hcopy
  refine ⟨_, congrArg Host.Outcome.next hrun, (State.onlyLane_setLane _ _ _).trans (State.onlyLane_setLane _ _ _), ?_⟩
  rw [State.lane_setLane]
  exact ⟨rfl, rfl, rfl, rfl, rfl⟩

end

theorem retainList_once {s : State} {dst : LaneId} (src : LaneId) (items : List RetainItem)
    (h : (s.lane dst).start.retDone = true ∨ (s.lane dst).armed = true ∨ (s.lane dst).start.cold = true) :
    s.retainList dst src items = s := by
  unfold State.retainList
  dsimp only
  rw [if_pos]
  rcases h with h | h | h
  · rw [h, Bool.or_true]
  · rw [h]
    simp
  · rw [h]
    simp

/-! ### The statement -/

theorem taskException_cuts {s : State} {l : LaneId} {n : Nat} (pc : Word) (code : Byte) {k : TaskRun} (hl : (s.lane l).rst.held = false)
    (hk : (s.lane l).taskOf n = some k) (ha : k.active = true) (hr : k.ready = true) :
     ∃ t, exec (.taskException l n pc code) s = .next t ∧ s.OnlyLane t l ∧ (t.lane l).reg = (s.lane l).reg ∧
       (t.lane l).prog.modeNext = some .stop ∧ (t.lane l).prog.fault = true ∧ (t.lane l).prog.mode = (s.lane l).prog.mode ∧
       (t.lane l).sram = ((s.lane l).cutTask n).sram ∧
       ((t.lane l).taskOf n).map (fun j => (j.active, j.ready, j.excepted, j.broke)) = some (true, false, true, k.broke) ∧
       ∀ m, m ≠ n → ((t.lane l).taskOf m).map (·.excepted) = ((s.lane l).taskOf m).map (·.excepted) := by
  obtain ⟨y, hy, hreg, hprog, hsram, hof, hothers⟩ := Lane.cut_running_spec hk ha hr (fun k => { k with excepted := true }) (fun _ => rfl)
  obtain ⟨honly, hlane⟩ := State.upLane_next s l (·.taskException n pc code) hl
  have hrun : (s.lane l).taskException n pc code =
      ({ (y.cutTask n).modTask n (fun k => { k with excepted := true }) with
        prog := { ((y.cutTask n).modTask n fun k => { k with excepted := true }).prog with modeNext := some .stop, fault := true } } : Lane).note
          blkFirmware 5 216 [(1, n), (4, pc.toNat), (1, code.toNat)] := by
    unfold Lane.taskException
    rw [hy]
  rw [hrun] at hlane
  generalize hz : (y.cutTask n).modTask n (fun k => { k with excepted := true }) = z at hreg hprog hsram hof hothers hlane
  have htasks : (((s.upLane l (·.taskException n pc code))).lane l).tasks = z.tasks := by rw [hlane]; rfl
  refine ⟨_, rfl, honly, ?_, ?_, ?_, ?_, ?_, ?_, fun m hm => ?_⟩
  · rw [hlane]
    exact hreg
  · rw [hlane]
    rfl
  · rw [hlane]
    rfl
  · rw [hlane]
    show z.prog.mode = _
    rw [hprog]
    rfl
  · rw [hlane]
    exact hsram
  · rw [Lane.taskOf_of_tasks htasks, hof]
    show some (k.active, false, true, k.broke) = _
    rw [ha]
  · rw [Lane.taskOf_of_tasks htasks, hothers m hm]

theorem programBreakpoint_cuts {s : State} {l : LaneId} {n : Nat} {pc : Word} {k : TaskRun} (hl : (s.lane l).rst.held = false)
    (hk : (s.lane l).taskOf n = some k) (ha : k.active = true) (hr : k.ready = true) (hb : (n, pc) ∈ (s.lane l).prog.breaks) :
     ∃ t, exec (.programBreakpoint l n pc) s = .next t ∧ s.OnlyLane t l ∧ (t.lane l).reg = (s.lane l).reg ∧
       (t.lane l).prog.modeNext = (s.lane l).prog.modeNext ∧ (t.lane l).prog.mode = (s.lane l).prog.mode ∧
       (t.lane l).sram = ((s.lane l).cutTask n).sram ∧
       ((t.lane l).taskOf n).map (fun j => (j.active, j.ready, j.excepted, j.broke)) = some (true, false, k.excepted, true) := by
  obtain ⟨y, hy, hreg, hprog, hsram, hof, -⟩ := Lane.cut_running_spec hk ha hr (fun k => { k with broke := true }) (fun _ => rfl)
  obtain ⟨honly, hlane⟩ := State.upLane_next s l (·.reachBreak n pc) hl
  have hrun : (s.lane l).reachBreak n pc = (y.cutTask n).modTask n fun k => { k with broke := true } := by
    unfold Lane.reachBreak
    rw [hy]
    exact if_pos hb
  rw [hrun] at hlane
  generalize hz : (y.cutTask n).modTask n (fun k => { k with broke := true }) = z at hreg hprog hsram hof hlane
  have htasks : (((s.upLane l (·.reachBreak n pc))).lane l).tasks = z.tasks := by rw [hlane]
  refine ⟨_, rfl, honly, by rw [hlane]; exact hreg, ?_, ?_, by rw [hlane]; exact hsram, ?_⟩
  · rw [hlane]
    show z.prog.modeNext = _
    rw [hprog]
    rfl
  · rw [hlane]
    show z.prog.mode = _
    rw [hprog]
    rfl
  · rw [Lane.taskOf_of_tasks htasks, hof]
    show some (k.active, false, k.excepted, true) = _
    rw [ha]

theorem stopped_task_does_nothing {s : State} {l : LaneId} {n : Nat} (pc : Word) (code : Byte) (hl : (s.lane l).rst.held = false)
    (h : (s.lane l).taskRuns n = none) :
     (∃ t, exec (.taskException l n pc code) s = .next t ∧ s.OnlyLane t l ∧ (s.lane l).OnlyRegs (t.lane l) []) ∧
     (∃ t, exec (.programBreakpoint l n pc) s = .next t ∧ s.OnlyLane t l ∧ (s.lane l).OnlyRegs (t.lane l) []) := by
  obtain ⟨honly, hlane⟩ := State.upLane_next s l (·.taskException n pc code) hl
  obtain ⟨honly', hlane'⟩ := State.upLane_next s l (·.reachBreak n pc) hl
  have hrun : (s.lane l).taskException n pc code = s.lane l := by unfold Lane.taskException; rw [h]
  have hrun' : (s.lane l).reachBreak n pc = s.lane l := by unfold Lane.reachBreak; rw [h]
  rw [hrun] at hlane
  rw [hrun'] at hlane'
  exact ⟨⟨_, rfl, honly, by rw [hlane]; exact (Lane.OnlyRegs.refl _ _).notes []⟩, _, rfl, honly', by rw [hlane']; exact (Lane.OnlyRegs.refl _ _).notes []⟩

/-- Settles O36: cycles end and event tasks are released by their rules, a task changes its own variables alone, and retained data needs two listings. -/
theorem taskCyclesAndRetainedDataFollowTheirRules : Obligations.TaskCyclesAndRetainedDataFollowTheirRules := by
  unfold Obligations.TaskCyclesAndRetainedDataFollowTheirRules
  refine ⟨⟨?_, ?_, ?_, ?_, ?_, ?_, ?_, ?_, ?_⟩, ?_, ?_, ?_, ?_⟩
  · exact fun s l n pc code k hl hk ha hr => taskException_cuts pc code hl hk ha hr
  · exact fun s l n pc k hl hk ha hr hb => programBreakpoint_cuts hl hk ha hr hb
  · exact fun s l n pc code hl h => stopped_task_does_nothing pc code hl h
  · intro s l n tm d k hl hd hk hev hact hheld htm hmode hrunning heasy
    obtain ⟨honly, hlane⟩ := State.upLane_laneAt_next s l tm (·.releaseEvent n tm) hl
    obtain ⟨hgrid, hafter, hgap⟩ := (s.lane l).releaseDue_spec d k
    rw [Lane.releaseEvent_of_due (x := (s.lane l).at tm) hd hk ⟨hev, hact, hheld, htm, hmode, hrunning, heasy⟩] at hlane
    rw [← htm] at hgrid hafter hgap
    refine ⟨_, rfl, honly, ?_, ?_, hgrid, hafter, hgap, ?_⟩
    · rw [hlane]
      exact Lane.modTask_reg _ _ _
    · rw [hlane]
      exact Lane.modTask_sram _ _ _
    · rw [hlane]
      exact Lane.modTask_tasks (x := (s.lane l).at tm) hk _
  · intro s l n tm d k hl hd hk htm
    obtain ⟨honly, hlane⟩ := State.upLane_laneAt_next s l tm (·.releaseEvent n tm) hl
    rw [Lane.releaseEvent_of_not_due (x := (s.lane l).at tm) hd hk htm] at hlane
    exact ⟨_, rfl, honly, by rw [hlane]; rfl, by rw [hlane]; rfl⟩
  · intro s l n tm hl h
    obtain ⟨honly, hlane⟩ := State.upLane_laneAt_next s l tm (·.timerExpiry n tm) hl
    rw [Lane.timerExpiry_of_early (x := (s.lane l).at tm) h] at hlane
    exact ⟨_, rfl, honly, by rw [hlane]; rfl, by rw [hlane]; rfl, by rw [hlane]; rfl⟩
  · intro s l n e tm hl h he
    obtain ⟨honly, hlane⟩ := State.upLane_laneAt_next s l tm (·.timerExpiry n tm) hl
    rw [Lane.timerExpiry_of_due (x := (s.lane l).at tm) h he] at hlane
    have hframe := (((s.lane l).at tm).timerEnded n).trigger_frame tm fun d => d.trig == 3 && d.tsrc == n
    refine ⟨_, rfl, honly, ?_, ?_, ?_, fun g d k hg hd hk hn => ?_⟩
    · rw [hlane, hframe]
      rfl
    · rw [hlane, hframe]
      rfl
    · rw [hlane, hframe]
      rfl
    · rw [hlane, Bool.and_assoc]
      exact Lane.trigger_single (x := ((s.lane l).at tm).timerEnded n) hg hd hk hn tm _
  · exact fun s l n x k addr hl hruns hk hok => task_reads_copies hl hruns hk hok
  · exact fun s l n x k addr v hl hruns hk hn hok => task_writes_own hl hruns hk hok v hn
  · exact fun s dst src z items hl ha hr hds hdz hsz hz hc hd hnone => retainList_waits hl ha hr hds hc hd hnone hdz hsz hz items
  · exact fun s dst src z items hl ha hr hds hdz hsz hz hc hd hnone hdis => retainList_lost hl ha hr hds hc hd hnone hdz hsz hz items hdis
  · exact fun s dst src z i hl ha hr hds hdz hsz hz hc hd hnone hi hi1 => retainList_loads hl ha hr hds hc hd hnone hdz hsz hz hi hi1
  · exact fun s dst src items h => ⟨_, congrArg Host.Outcome.next (retainList_once src items h), rfl⟩

end Sys2Proof.Machine
end

section
/-! PROOFS. Online changes (R225 to R230, R234): agreement of the voters, the switch, COMMIT and its time limit, and the statement on them. -/

namespace Sys2Proof.Machine

/-! ### What the journal and the gate leave alone (R461, R479) -/

theorem State.jPut_lane (s : State) (ty : Nat) (data : List Byte) (k : LaneId) : (s.jPut ty data).lane k = s.lane k := by cases k <;> rfl

theorem State.jPut_field (s : State) (ty : Nat) (data : List Byte) : (s.jPut ty data).field = s.field := rfl

theorem State.foldl_jPut_kept (es : List (List Byte)) (s : State) :
    (∀ k, (es.foldl (fun (s : State) e => s.jPut (jType e) (jData e)) s).lane k = s.lane k) ∧
      (es.foldl (fun (s : State) e => s.jPut (jType e) (jData e)) s).field = s.field := by
  induction es generalizing s with
  | nil => exact ⟨fun _ => rfl, rfl⟩
  | cons e es ih =>
    obtain ⟨hlane, hfield⟩ := ih (s.jPut (jType e) (jData e))
    exact ⟨fun k => (hlane k).trans (s.jPut_lane _ _ k), hfield.trans (s.jPut_field _ _)⟩

/-- A journal record changes no lane and not the FIELD die. -/
theorem State.jAppend_kept (s : State) (ty : Nat) (data : List Byte) :
    (∀ k, (s.jAppend ty data).lane k = s.lane k) ∧ (s.jAppend ty data).field = s.field := by
  unfold State.jAppend
  split
  · exact ⟨fun _ => rfl, rfl⟩
  · dsimp only
    split
    · generalize (jEntries (s.jPut ty data).flash1 _ 0x10000).filter (jCounts (s.jPut ty data).flash1) = es
      obtain ⟨hlane, hfield⟩ := State.foldl_jPut_kept es (s.jPut ty data)
      exact ⟨fun k => Eq.trans (by cases k <;> rfl) ((hlane k).trans (s.jPut_lane _ _ k)), hfield.trans (s.jPut_field _ _)⟩
    · exact ⟨fun k => s.jPut_lane _ _ k, s.jPut_field _ _⟩

/-- A PREPARE record, written or deferred, changes no lane. -/
theorem State.gated_prepare_lane (s : State) {g : GatedWrite} (hg : g.kind = .prepare) (k : LaneId) : (s.gated g).lane k = s.lane k := by
  unfold State.gated
  split
  · rfl
  · split
    · unfold State.performWrite
      rw [hg]
      exact (s.jAppend_kept jPrepare g.bytes).1 k
    · cases k <;> rfl

/-! ### PREPARE and COMMIT (R225 steps 3 and 7) -/

/-- The lane with its change altered. -/
def Lane.modChg (x : Lane) (f : ChgInt → ChgInt) : Lane := { x with prog := { x.prog with chg := f x.prog.chg } }

theorem State.prepareChange_kept (s : State) (l : LaneId) :
    (∀ k, k ≠ l → (s.prepareChange l).lane k = s.lane k) ∧
      ((s.prepareChange l).lane l = s.lane l ∨ (s.prepareChange l).lane l = (s.lane l).modChg fun c => { c with asked := true }) := by
  unfold State.prepareChange
  dsimp only
  split
  · constructor
    · intro k hk
      rw [State.gated_prepare_lane _ rfl]
      refine Eq.trans (State.modHub_lane _ _ k) ?_
      exact (State.lane_modLane_ne _ _ hk).trans (by cases k <;> rfl)
    · right
      rw [State.gated_prepare_lane _ rfl]
      refine Eq.trans (State.modHub_lane _ _ l) ?_
      rw [State.lane_modLane]
      cases l <;> rfl
  · exact ⟨fun _ _ => rfl, Or.inl rfl⟩

theorem State.commitChange_kept (s : State) (l : LaneId) :
    (∀ k, k ≠ l → (s.commitChange l).lane k = s.lane k) ∧
      ((s.commitChange l).lane l = s.lane l ∨ (s.commitChange l).lane l = (s.lane l).modChg fun c => { c with committed := true }) := by
  unfold State.commitChange
  dsimp only
  split
  · constructor
    · intro k hk
      rw [(State.jAppend_kept _ _ _).1]
      exact State.lane_modLane_ne _ _ hk
    · right
      rw [(State.jAppend_kept _ _ _).1, State.lane_modLane]
      rfl
  · exact ⟨fun _ _ => rfl, Or.inl rfl⟩

/-! ### Agreement (R225 step 2, R157) -/

/-- The lane that holds a peer's digest and result. -/
def Lane.tookDigest (x : Lane) (src : LaneId) (d : Word) (r : Nat) : Lane :=
  x.modChg fun c => { c with peers := (src, d, r) :: c.peers.filter fun e => e.1 != src }

theorem State.carryDigest_taken {s : State} {dst src : LaneId} (d : Word) (r : Nat) (hl : (s.lane dst).rst.held = false)
    (hv : (s.lane dst).inVote = true) (hst : (s.lane dst).prog.chg.stage = .carry) (hsrc : src ∈ (s.lane dst).staying) (hne : dst ≠ src) :
    s.carryDigest dst src d r = (s.setLane dst ((s.lane dst).tookDigest src d r)).judgeCarry dst := by
  have hguard : ((s.lane dst).rst.held || !(s.lane dst).inVote || (s.lane dst).prog.chg.stage != .carry || !(s.lane dst).staying.contains src ||
      dst == src) = false := by
    rw [hl, hv, hst, beq_eq_false_iff_ne.mpr hne, List.contains_eq_mem, decide_eq_true hsrc]
    rfl
  unfold State.carryDigest
  dsimp only
  rw [hguard, if_neg (by decide)]
  rfl

/-- What this lane holds of the others: their digests and results. -/
def Lane.carryVals (x : Lane) : List (Word × Nat) :=
  x.others.filterMap fun y => (x.prog.chg.peers.find? fun e => e.1 == y).map fun e => (e.2.1, e.2.2)

section
variable {s : State} {dst : LaneId} {x : Lane} (hx : s.lane dst = x) (hst : x.prog.chg.stage = .carry) {vals : List (Word × Nat)}
    (hvals : x.carryVals = vals) (hlen : vals.length = x.others.length)
include hx hst hvals hlen

theorem State.judgeCarry_guard :
    ¬ ((s.lane dst).prog.chg.stage ≠ .carry ∨ (s.lane dst).carryVals.length < (s.lane dst).others.length) := by
  rw [hx, hst, hvals, hlen]
  exact fun h => h.elim (fun h => h rfl) (fun h => Nat.lt_irrefl _ h)

theorem State.judgeCarry_refused (hall : vals.all (fun v => v == (x.prog.chg.digest, x.prog.chg.result)) = true) (hr : x.prog.chg.result ≠ 0) :
    s.judgeCarry dst = s.setLane dst (x.endChange stRefused x.prog.chg.result) := by
  have hguard := State.judgeCarry_guard hx hst hvals hlen
  unfold Lane.carryVals at hvals hguard
  unfold State.judgeCarry
  dsimp only
  rw [if_neg hguard, hx, hvals, if_pos hall, if_pos hr]

theorem State.judgeCarry_prepares (hall : vals.all (fun v => v == (x.prog.chg.digest, x.prog.chg.result)) = true) (hr : x.prog.chg.result = 0) :
    s.judgeCarry dst = (s.setLane dst (x.modChg fun c => { c with stage := .prepare })).prepareChange dst := by
  have hguard := State.judgeCarry_guard hx hst hvals hlen
  unfold Lane.carryVals at hvals hguard
  unfold State.judgeCarry
  dsimp only
  rw [if_neg hguard, hx, hvals, if_pos hall, if_neg (not_not.mpr hr)]
  rfl

theorem State.judgeCarry_dissents (hall : vals.all (fun v => v == (x.prog.chg.digest, x.prog.chg.result)) = false) (h1 : vals.length = 1) :
    s.judgeCarry dst = s.enterEasy dst easyDissent false := by
  have hguard := State.judgeCarry_guard hx hst hvals hlen
  unfold Lane.carryVals at hvals hguard
  unfold State.judgeCarry
  dsimp only
  rw [if_neg hguard, hx, hvals, hall, if_neg (by decide), if_pos h1]

end

/-- Two others have spoken and one of them differs from this lane: it leaves when they agree, stays with the one it agrees with, and all enter easy all
when none agrees. -/
theorem State.judgeCarry_of_three {s : State} {dst : LaneId} {x : Lane} (hx : s.lane dst = x) (hst : x.prog.chg.stage = .carry)
    {v w : Word × Nat} (hvals : x.carryVals = [v, w]) (hlen : x.others.length = 2) (hne : v ≠ (x.prog.chg.digest, x.prog.chg.result)) :
    s.judgeCarry dst = if v = w then s.setLane dst { x with due := x.due ++ [(leaveDissent, none)] }
      else if w = (x.prog.chg.digest, x.prog.chg.result) then s else s.enterEasy dst easyNoMajority false := by
  have hguard := State.judgeCarry_guard hx hst hvals hlen.symm
  have hall : [v, w].all (fun v => v == (x.prog.chg.digest, x.prog.chg.result)) = false := by
    rw [List.all_cons, beq_eq_false_iff_ne.mpr hne, Bool.false_and]
  unfold Lane.carryVals at hvals hguard
  unfold State.judgeCarry
  dsimp only
  rw [if_neg hguard, hx, hvals, hall, if_neg (by decide), if_neg (show ¬ [v, w].length = 1 from (by decide : ¬ (2 : Nat) = 1))]
  dsimp only
  by_cases hvw : v = w
  · rw [if_pos hvw, if_pos hvw]
  · rw [if_neg hvw, if_neg hvw]
    by_cases hw : w = (x.prog.chg.digest, x.prog.chg.result)
    · rw [if_pos (Or.inr hw), if_pos hw]
    · rw [if_neg (fun h => h.elim hne hw), if_neg hw]

theorem State.OnlyLane.others_kept {s t : State} {l : LaneId} (h : s.OnlyLane t l) : ∀ k, k ≠ l → t.lane k = s.lane k := h.1

theorem carryMapDigest_of_two {s : State} {dst src : LaneId} (d : Word) (r : Nat) (hl : (s.lane dst).rst.held = false)
    (hv : (s.lane dst).inVote = true) (hup : (s.lane dst).up = true) (he : (s.lane dst).easy = false)
    (hst : (s.lane dst).prog.chg.stage = .carry) (hne : dst ≠ src) (ho : (s.lane dst).others = [src]) (hsrc : src ∈ (s.lane dst).staying) :
     ∃ t, exec (.carryMapDigest dst src d r) s = .next t ∧ (∀ k, k ≠ dst → t.lane k = s.lane k) ∧
       (d = (s.lane dst).prog.chg.digest → r = (s.lane dst).prog.chg.result → r ≠ 0 →
         (t.lane dst).prog.chg.stage = .none ∧ (t.lane dst).prog.prog = (s.lane dst).prog.prog ∧ (t.lane dst).sram = (s.lane dst).sram ∧
         (t.lane dst).prog.cmdDone = (s.lane dst).prog.cmdDone ++ [((s.lane dst).prog.chg.seq, 7, r)]) ∧
       (d = (s.lane dst).prog.chg.digest → r = (s.lane dst).prog.chg.result → r = 0 →
         (t.lane dst).prog.chg.stage = .prepare ∧ (t.lane dst).sram = (s.lane dst).sram) ∧
       ((d ≠ (s.lane dst).prog.chg.digest ∨ r ≠ (s.lane dst).prog.chg.result) →
         (t.lane dst).easy = true ∧ (t.lane dst).fget VOTE_EASY_CAUSE = 0x02) := by
  have hrun := State.carryDigest_taken d r hl hv hst hsrc hne
  generalize hx : (s.lane dst).tookDigest src d r = x at hrun
  have hvals : x.carryVals = [(d, r)] := by
    rw [← hx]
    show (s.lane dst).others.filterMap _ = _
    rw [ho]
    simp [Lane.tookDigest, Lane.modChg]
  have hlen : [(d, r)].length = x.others.length := by
    rw [← hx]
    exact (congrArg List.length ho).symm
  have hstx : x.prog.chg.stage = .carry := by rw [← hx]; exact hst
  have hdig : x.prog.chg.digest = (s.lane dst).prog.chg.digest := by rw [← hx]; rfl
  have hres : x.prog.chg.result = (s.lane dst).prog.chg.result := by rw [← hx]; rfl
  have hlane := State.lane_setLane s dst x
  have hkeep : ∀ k, k ≠ dst → (s.setLane dst x).lane k = s.lane k := fun k hk => State.lane_setLane_ne _ _ hk
  refine ⟨_, congrArg Host.Outcome.next hrun, ?_⟩
  by_cases heq : d = (s.lane dst).prog.chg.digest ∧ r = (s.lane dst).prog.chg.result
  · have hall : [(d, r)].all (fun v => v == (x.prog.chg.digest, x.prog.chg.result)) = true := by
      rw [hdig, hres, heq.1, heq.2]
      simp
    have hno : ¬ (d ≠ (s.lane dst).prog.chg.digest ∨ r ≠ (s.lane dst).prog.chg.result) := fun h => h.elim (fun h => h heq.1) (fun h => h heq.2)
    by_cases hr : r = 0
    · have hj := State.judgeCarry_prepares hlane hstx hvals hlen hall (by rw [hres, ← heq.2, hr])
      obtain ⟨hothers, hself⟩ := ((s.setLane dst x).setLane dst (x.modChg fun c => { c with stage := .prepare })).prepareChange_kept dst
      rw [hj]
      refine ⟨fun k hk => (hothers k hk).trans ((State.lane_setLane_ne _ _ hk).trans (hkeep k hk)), fun _ _ h => absurd hr h, fun _ _ _ => ?_,
        fun h => absurd h hno⟩
      rw [State.lane_setLane] at hself
      rcases hself with h | h
      · rw [h, ← hx]; exact ⟨rfl, rfl⟩
      · rw [h, ← hx]; exact ⟨rfl, rfl⟩
    · have hj := State.judgeCarry_refused hlane hstx hvals hlen hall (by rw [hres, ← heq.2]; exact hr)
      rw [hj]
      refine ⟨fun k hk => (State.lane_setLane_ne _ _ hk).trans (hkeep k hk), fun _ _ _ => ?_, fun _ _ h => absurd h hr, fun h => absurd h hno⟩
      rw [State.lane_setLane, hres, ← heq.2, ← hx]
      exact ⟨rfl, rfl, rfl, rfl⟩
  · have hall : [(d, r)].all (fun v => v == (x.prog.chg.digest, x.prog.chg.result)) = false := by
      rw [hdig, hres, List.all_cons, List.all_nil, Bool.and_true, beq_eq_false_iff_ne]
      exact fun h => heq ⟨congrArg Prod.fst h, congrArg Prod.snd h⟩
    have hj := State.judgeCarry_dissents hlane hstx hvals hlen hall rfl
    rw [hj]
    refine ⟨fun k hk => (State.enterEasy_lane_ne _ _ _ hk).trans (hkeep k hk), fun h1 h2 => absurd ⟨h1, h2⟩ heq, fun h1 h2 => absurd ⟨h1, h2⟩ heq,
      fun _ => ?_⟩
    have hux : x.up = true := by rw [← hx]; exact hup
    have hex : x.easy = false := by rw [← hx]; exact he
    rw [State.enterEasy_lane_same, State.lane_setLane, if_pos hux]
    refine ⟨Lane.enterEasy_easy _ _ _ hex, ?_⟩
    rw [Lane.enterEasy_fget_cause _ _ _ hex]
    rfl

theorem carryMapDigest_of_three {s : State} {dst y z : LaneId} {d e : Word} {q r : Nat} (hl : (s.lane dst).rst.held = false)
    (hv : (s.lane dst).inVote = true) (hst : (s.lane dst).prog.chg.stage = .carry) (hy : dst ≠ y) (hyz : y ≠ z)
    (hsrc : y ∈ (s.lane dst).staying) (ho : (s.lane dst).others = [y, z]) (hp : (s.lane dst).prog.chg.peers = [(z, e, q)])
    (hdiff : (d, r) ≠ ((s.lane dst).prog.chg.digest, (s.lane dst).prog.chg.result)) :
     ∃ t, exec (.carryMapDigest dst y d r) s = .next t ∧ (∀ k, k ≠ dst → t.lane k = s.lane k) ∧ t.hub = s.hub ∧
       ((d, r) = (e, q) → (t.lane dst).due = (s.lane dst).due ++ [(0x01, none)] ∧ (t.lane dst).reg = (s.lane dst).reg) ∧
       ((e, q) = ((s.lane dst).prog.chg.digest, (s.lane dst).prog.chg.result) →
         (t.lane dst).due = (s.lane dst).due ∧ (t.lane dst).reg = (s.lane dst).reg) := by
  have hrun := State.carryDigest_taken d r hl hv hst hsrc hy
  have hzy : (z == y) = false := beq_eq_false_iff_ne.mpr hyz.symm
  have hyz' : (y == z) = false := beq_eq_false_iff_ne.mpr hyz
  generalize hx : (s.lane dst).tookDigest y d r = x at hrun
  have hvals : x.carryVals = [(d, r), (e, q)] := by
    rw [← hx]
    show (s.lane dst).others.filterMap _ = _
    rw [ho]
    simp [Lane.tookDigest, Lane.modChg, hp, hyz.symm, hyz']
  have hlen : x.others.length = 2 := by
    rw [← hx]
    exact congrArg List.length ho
  have hstx : x.prog.chg.stage = .carry := by rw [← hx]; exact hst
  have hmine : (x.prog.chg.digest, x.prog.chg.result) = ((s.lane dst).prog.chg.digest, (s.lane dst).prog.chg.result) := by rw [← hx]; rfl
  have hj := State.judgeCarry_of_three (State.lane_setLane s dst x) hstx hvals hlen (by rw [hmine]; exact hdiff)
  rw [hmine] at hj
  refine ⟨_, congrArg Host.Outcome.next hrun, ?_⟩
  rw [hj]
  have hkeep : ∀ k, k ≠ dst → (s.setLane dst x).lane k = s.lane k := fun k hk => State.lane_setLane_ne _ _ hk
  by_cases hsame : (d, r) = (e, q)
  · rw [if_pos hsame]
    refine ⟨fun k hk => (State.lane_setLane_ne _ _ hk).trans (hkeep k hk), by rw [State.setLane_hub, State.setLane_hub], fun _ => ?_,
      fun h => absurd (hsame.trans h) hdiff⟩
    rw [State.lane_setLane, ← hx]
    exact ⟨rfl, rfl⟩
  · rw [if_neg hsame]
    by_cases hwith : (e, q) = ((s.lane dst).prog.chg.digest, (s.lane dst).prog.chg.result)
    · rw [if_pos hwith]
      refine ⟨hkeep, State.setLane_hub _ _ _, fun h => absurd h hsame, fun _ => ?_⟩
      rw [State.lane_setLane, ← hx]
      exact ⟨rfl, rfl⟩
    · rw [if_neg hwith]
      exact ⟨fun k hk => (State.enterEasy_lane_ne _ _ _ hk).trans (hkeep k hk), by rw [State.enterEasy_hub, State.setLane_hub],
        fun h => absurd h hsame, fun h => absurd h hwith⟩

/-! ### The switch (R225 steps 5 and 6, R226, R234) -/

theorem Lane.foldl_note_frame {α : Type} (es : List α) (x : Lane) :
    (es.foldl (fun (x : Lane) _ => x.note blkFirmware 5 234 []) x) =
      { x with notes := (es.foldl (fun (x : Lane) _ => x.note blkFirmware 5 234 []) x).notes } := by
  induction es generalizing x with
  | nil => rfl
  | cons e es ih =>
    rw [List.foldl_cons, ih]
    rfl

theorem Lane.switchProgram_spec (x : Lane) (g : Program) :
    (x.switchProgram g).prog.prog = some g ∧ (x.switchProgram g).prog.code1 = (!x.prog.code1) ∧ (x.switchProgram g).prog.half1 = (!x.prog.half1) ∧
      (x.switchProgram g).prog.chg.stage = .switched ∧ (x.switchProgram g).prog.mode = x.prog.mode ∧ (x.switchProgram g).start.own.prgid = g.prgid := by
  unfold Lane.switchProgram
  dsimp only
  rw [Lane.foldl_note_frame]
  exact ⟨rfl, rfl, rfl, rfl, rfl, rfl⟩

theorem Lane.switchDue_iff {x : Lane} {a : Nat} (ha : x.prog.chg.agreedAt = some a) :
    x.switchDue = true ↔ x.inVote = true ∧ x.prog.chg.stage = .ready ∧ a + x.deadline + 400000 ≤ x.prog.lastFin ∧ x.tasks.any (·.active) = false := by
  unfold Lane.switchDue
  rw [ha]
  simp only [Bool.and_eq_true, beq_iff_eq, decide_eq_true_eq, Bool.not_eq_true', and_assoc]

theorem State.changeSwitch_of_not_due {s : State} {l : LaneId} {tm : Nat} (h : (s.lane l).switchDue = false ∨ tm ≠ (s.lane l).prog.lastFin) :
    s.changeSwitch l tm = s := by
  unfold State.changeSwitch
  dsimp only
  split
  · rw [if_pos]
    rcases h with h | h
    · rw [h]; simp
    · rw [bne_iff_ne.mpr h, Bool.or_true]
  · rfl

/-- Where the switch comes out: refused for a force, refused for the carry time, or done. -/
theorem State.changeSwitch_of_due {s : State} {l : LaneId} {tm : Nat} {g : Program} (hl : (s.lane l).rst.held = false)
    (hg : (s.lane l).prog.chg.newProg = some g) (hdue : (s.lane l).switchDue = true) (htm : tm = (s.lane l).prog.lastFin) :
    s.changeSwitch l tm =
      if (s.lane l).prog.forces.any (fun f => ((s.lane l).forceFate g f).isNone) then s.setLane l ((s.lane l).endChange stRefused chgForceType)
      else if (s.lane l).nextCatch tm < tm + carryTime (s.lane l).prog.chg.carry then s.setLane l ((s.lane l).endChange stRefused chgCarryTime)
      else ((s.setLane l ((s.lane l).switchProgram g)).flushNotes l).commitChange l := by
  unfold State.changeSwitch
  dsimp only
  rw [hg]
  dsimp only
  have hguard : ((s.lane l).rst.held || !(s.lane l).switchDue || tm != (s.lane l).prog.lastFin) = false := by
    rw [hl, hdue, ← htm, bne_self_eq_false]
    rfl
  rw [hguard, if_neg (by decide)]

theorem onlineChangeSwitch_due {s : State} {l : LaneId} {g : Program} {from_ tm : Nat} (hl : (s.lane l).rst.held = false)
    (hv : (s.lane l).inVote = true) (hst : (s.lane l).prog.chg.stage = .ready) (hg : (s.lane l).prog.chg.newProg = some g)
    (ha : (s.lane l).prog.chg.agreedAt = some from_) (hfrom : from_ + (s.lane l).deadline + 400000 ≤ tm) (htm : tm = (s.lane l).prog.lastFin)
    (hidle : (s.lane l).tasks.all (fun k => !k.active) = true) :
     ∃ t, exec (.onlineChangeSwitch l tm) s = .next t ∧ (∀ k, k ≠ l → t.lane k = s.lane k) ∧
       ((s.lane l).prog.forces.any (fun f => ((s.lane l).forceFate g f).isNone) = true →
         (t.lane l).prog.prog = (s.lane l).prog.prog ∧ (t.lane l).prog.chg.stage = .none ∧ (t.lane l).sram = (s.lane l).sram ∧
         (t.lane l).prog.cmdDone = (s.lane l).prog.cmdDone ++ [((s.lane l).prog.chg.seq, 7, 4)]) ∧
       ((s.lane l).prog.forces.any (fun f => ((s.lane l).forceFate g f).isNone) = false →
         (s.lane l).nextCatch tm < tm + carryTime (s.lane l).prog.chg.carry →
         (t.lane l).prog.prog = (s.lane l).prog.prog ∧ (t.lane l).prog.chg.stage = .none ∧ (t.lane l).sram = (s.lane l).sram ∧
         (t.lane l).prog.cmdDone = (s.lane l).prog.cmdDone ++ [((s.lane l).prog.chg.seq, 7, 3)]) ∧
       ((s.lane l).prog.forces.any (fun f => ((s.lane l).forceFate g f).isNone) = false →
         tm + carryTime (s.lane l).prog.chg.carry ≤ (s.lane l).nextCatch tm →
         (t.lane l).prog.prog = some g ∧ (t.lane l).prog.code1 = !(s.lane l).prog.code1 ∧ (t.lane l).prog.half1 = !(s.lane l).prog.half1 ∧
         (t.lane l).prog.chg.stage = .switched ∧ (t.lane l).prog.mode = (s.lane l).prog.mode ∧ (t.lane l).prgid = g.prgid ∧
         (t.lane l).start.own.prgid = g.prgid) := by
  have hany : (s.lane l).tasks.any (·.active) = false := by
    rw [List.any_eq_false]
    intro k hk
    simpa using List.all_eq_true.mp hidle k hk
  have hlane : (s.laneAt l tm).lane l = (s.lane l).at tm := State.lane_laneAt s l tm
  have hkeep := (State.onlyLane_laneAt s l tm).others_kept
  have hrun := State.changeSwitch_of_due (s := s.laneAt l tm) (l := l) (tm := tm) (g := g) (by rw [hlane]; exact hl) (by rw [hlane]; exact hg)
    (by rw [hlane]; exact (Lane.switchDue_iff (x := (s.lane l).at tm) ha).mpr ⟨hv, hst, by rw [htm] at hfrom; exact hfrom, hany⟩)
    (by rw [hlane]; exact htm)
  rw [hlane] at hrun
  refine ⟨_, congrArg Host.Outcome.next hrun, ?_⟩
  have hforce : ((s.lane l).at tm).prog.forces.any (fun f => (((s.lane l).at tm).forceFate g f).isNone) =
      (s.lane l).prog.forces.any (fun f => ((s.lane l).forceFate g f).isNone) := rfl
  have hnext : ((s.lane l).at tm).nextCatch tm = (s.lane l).nextCatch tm := rfl
  rw [hforce, hnext]
  cases hf : (s.lane l).prog.forces.any (fun f => ((s.lane l).forceFate g f).isNone) with
  | true =>
    rw [if_pos rfl, State.lane_setLane]
    exact ⟨fun k hk => (State.lane_setLane_ne _ _ hk).trans (hkeep k hk), fun _ => ⟨rfl, rfl, rfl, rfl⟩, fun h => Bool.noConfusion h,
      fun h => Bool.noConfusion h⟩
  | false =>
    rw [if_neg (by decide)]
    by_cases hc : (s.lane l).nextCatch tm < tm + carryTime (s.lane l).prog.chg.carry
    · rw [if_pos (show (s.lane l).nextCatch tm < tm + carryTime ((s.lane l).at tm).prog.chg.carry from hc), State.lane_setLane]
      exact ⟨fun k hk => (State.lane_setLane_ne _ _ hk).trans (hkeep k hk), fun h => Bool.noConfusion h, fun _ _ => ⟨rfl, rfl, rfl, rfl⟩,
        fun _ h => absurd hc (Nat.not_lt.mpr h)⟩
    · rw [if_neg (show ¬ (s.lane l).nextCatch tm < tm + carryTime ((s.lane l).at tm).prog.chg.carry from hc)]
      generalize hz : (((s.laneAt l tm).setLane l (((s.lane l).at tm).switchProgram g)).flushNotes l) = z
      have hzl : z.lane l = { ((s.lane l).at tm).switchProgram g with notes := [] } := by rw [← hz, State.flushNotes_lane, State.lane_setLane]
      have hzk : ∀ k, k ≠ l → z.lane k = s.lane k := fun k hk => by
        rw [← hz, (State.onlyLane_flushNotes _ _).1 k hk, State.lane_setLane_ne _ _ hk]
        exact hkeep k hk
      obtain ⟨hothers, hself⟩ := z.commitChange_kept l
      obtain ⟨hprog, hcode, hhalf, hstage, hmode, hown⟩ := ((s.lane l).at tm).switchProgram_spec g
      refine ⟨fun k hk => (hothers k hk).trans (hzk k hk), fun h => Bool.noConfusion h, fun _ h => absurd h hc, fun _ _ => ?_⟩
      have hprgid : (((s.lane l).at tm).switchProgram g).prgid = g.prgid := by unfold Lane.prgid; rw [hprog]
      rcases hself with h | h
      · rw [h, hzl]
        exact ⟨hprog, hcode, hhalf, hstage, hmode, hprgid, hown⟩
      · rw [h, hzl]
        exact ⟨hprog, hcode, hhalf, hstage, hmode, hprgid, hown⟩

theorem onlineChangeSwitch_not_due {s : State} {l : LaneId} (tm : Nat)
    (h : (s.lane l).prog.chg.stage ≠ .ready ∨ (s.lane l).prog.chg.agreedAt = none ∨ tm ≠ (s.lane l).prog.lastFin ∨
       (s.lane l).tasks.any (fun k => k.active) = true) :
     ∃ t, exec (.onlineChangeSwitch l tm) s = .next t ∧ s.OnlyLane t l ∧ (t.lane l).prog = (s.lane l).prog ∧
       (t.lane l).sram = (s.lane l).sram ∧ (t.lane l).reg = (s.lane l).reg := by
  have hlane : (s.laneAt l tm).lane l = (s.lane l).at tm := State.lane_laneAt s l tm
  have hnot : ((s.lane l).at tm).switchDue = false ∨ tm ≠ ((s.lane l).at tm).prog.lastFin := by
    cases ha : (s.lane l).prog.chg.agreedAt with
    | none =>
      left
      unfold Lane.switchDue
      rw [show ((s.lane l).at tm).prog.chg.agreedAt = none from ha]
    | some a =>
      rcases h with h | h | h | h
      · refine Or.inl (Bool.eq_false_iff.mpr fun hd => h ((Lane.switchDue_iff (x := (s.lane l).at tm) ha).mp hd).2.1)
      · rw [ha] at h
        exact absurd h nofun
      · exact Or.inr h
      · refine Or.inl (Bool.eq_false_iff.mpr fun hd => ?_)
        have := ((Lane.switchDue_iff (x := (s.lane l).at tm) ha).mp hd).2.2.2
        exact Bool.noConfusion (h.symm.trans this)
  have hrun := State.changeSwitch_of_not_due (s := s.laneAt l tm) (l := l) (tm := tm) (by rw [hlane]; exact hnot)
  refine ⟨_, congrArg Host.Outcome.next hrun, State.onlyLane_laneAt s l tm, ?_⟩
  rw [hlane]
  exact ⟨rfl, rfl, rfl⟩

/-! ### COMMIT and its time limit (R225 step 7, R229, R479) -/

/-- Changes that have come too late in a lane. -/
def State.changeLate (s : State) (l : LaneId) : Bool :=
  (s.lane l).up && (s.lane l).prog.chg.stage != .none && (s.lane l).prog.chg.stage != .switched && decide (64 ≤ (s.lane l).prog.chg.catches)

/-- Ending the change in lanes, one after the other, each on its own. -/
theorem State.foldl_endChange (st res : Nat) (ls : List LaneId) (hn : ls.Nodup) (s : State) :
    (∀ k, (ls.foldl (fun (s : State) y => s.modLane y fun x => x.endChange st res) s).lane k =
      if k ∈ ls then (s.lane k).endChange st res else s.lane k) ∧
      (ls.foldl (fun (s : State) y => s.modLane y fun x => x.endChange st res) s).field = s.field := by
  induction ls generalizing s with
  | nil => exact ⟨fun k => (if_neg List.not_mem_nil).symm, rfl⟩
  | cons y ys ih =>
    obtain ⟨hlane, hfield⟩ := ih hn.of_cons (s.modLane y fun x => x.endChange st res)
    refine ⟨fun k => ?_, by rw [List.foldl_cons, hfield, State.modLane_field]⟩
    rw [List.foldl_cons, hlane]
    by_cases hk : k = y
    · have hnot : k ∉ ys := by rw [hk]; exact (List.nodup_cons.mp hn).1
      rw [if_neg hnot, if_pos (by rw [hk]; exact List.mem_cons_self), hk, State.lane_modLane]
    · rw [State.lane_modLane_ne _ _ hk]
      by_cases hm : k ∈ ys
      · rw [if_pos hm, if_pos (List.mem_cons_of_mem _ hm)]
      · rw [if_neg hm, if_neg (fun h => (List.mem_cons.mp h).elim hk hm)]

/-- The result of a change that came too late. -/
def State.lateResult (s : State) : Nat := if s.hub.upd.gated.any (fun g => g.kind == .prepare) then chgDeferred else chgTimeout

theorem State.commitTimeout_spec (s : State) :
    s.commitTimeout.field = s.field ∧
      ∀ l, s.commitTimeout.lane l = if s.changeLate l then (s.lane l).endChange stRefused s.lateResult else s.lane l := by
  have hmem : ∀ l, l ∈ allLanes.filter s.changeLate ↔ s.changeLate l = true := mem_filter_allLanes _
  have hnodup : (allLanes.filter s.changeLate).Nodup := nodup_filter_allLanes _
  unfold State.commitTimeout
  dsimp only
  rw [show (fun l => (s.lane l).up && (s.lane l).prog.chg.stage != .none && (s.lane l).prog.chg.stage != .switched &&
    decide (64 ≤ (s.lane l).prog.chg.catches)) = s.changeLate from rfl]
  generalize hls : allLanes.filter s.changeLate = ls at hmem hnodup
  cases ls with
  | nil =>
    refine ⟨rfl, fun l => ?_⟩
    have hno : s.changeLate l ≠ true := fun h => List.not_mem_nil ((hmem l).mpr h)
    exact (if_neg hno).symm
  | cons y ys =>
    obtain ⟨hlane, hfield⟩ := State.foldl_endChange stRefused s.lateResult (y :: ys) hnodup s
    have hres : (if (s.hub.upd.gated.any fun g => g.kind == .prepare) = true then chgDeferred else chgTimeout) = s.lateResult := rfl
    dsimp only
    rw [hres]
    generalize hz : (y :: ys).foldl (fun (t : State) y => t.modLane y fun x => x.endChange stRefused s.lateResult) s = z at hlane hfield
    have hzl : ∀ l, z.lane l = if s.changeLate l then (s.lane l).endChange stRefused s.lateResult else s.lane l := fun l => by
      rw [hlane]
      by_cases h : s.changeLate l = true
      · rw [if_pos h, if_pos ((hmem l).mpr h)]
      · rw [if_neg h, if_neg (fun hm => h ((hmem l).mp hm))]
    split
    · rw [(State.jAppend_kept _ _ _).2]
      refine ⟨hfield, fun l => ?_⟩
      rw [(State.jAppend_kept _ _ _).1]
      exact (State.modHub_lane _ _ l).trans (hzl l)
    · exact ⟨hfield, fun l => (State.modHub_lane _ _ l).trans (hzl l)⟩

/-- Settles O37: a change goes on as the voters agree, switches between tasks, and ends with COMMIT or at its time limit. -/
theorem onlineChangesNeedAgreementAndSwitchBetweenTasks : Obligations.OnlineChangesNeedAgreementAndSwitchBetweenTasks := by
  unfold Obligations.OnlineChangesNeedAgreementAndSwitchBetweenTasks
  refine ⟨⟨?_, ?_, ?_, ?_⟩, ?_, ?_, ?_, ?_⟩
  · exact fun s dst src d r hl hv hup he hst hne ho hsrc => carryMapDigest_of_two d r hl hv hup he hst hne ho hsrc
  · exact fun s dst y z d e q r hl hv hst hy _ hyz hsrc ho hp hdiff => carryMapDigest_of_three hl hv hst hy hyz hsrc ho hp hdiff
  · intro s l g entry hl hst hg hrec
    have hok : (!(s.lane l).rst.held && recordFor jPrepare g (s.slotBuild (s.pointer.slotFor (laneBit l))) entry) = true := by rw [hl, hrec]; rfl
    have hrun : s.prepareReadback l entry = s.setLane l ((s.lane l).modChg fun c => { c with stage := .ready, ready := true }) := by
      unfold State.prepareReadback Lane.modChg
      dsimp only
      rw [hst, hg]
      exact if_pos hok
    exact ⟨_, congrArg Host.Outcome.next hrun, State.onlyLane_setLane _ _ _, by rw [State.lane_setLane]; rfl⟩
  · intro s dst src hl hst
    obtain ⟨honly, hlane⟩ := State.upLane_next s dst (·.takeReady src) hl
    have hrun : (s.lane dst).takeReady src = (s.lane dst).modChg fun c => { c with readyFrom := insertL src c.readyFrom } := if_neg hst
    rw [hrun] at hlane
    exact ⟨_, rfl, honly, by rw [hlane]; exact (mem_insertL _ _ _).mpr (Or.inl rfl), by rw [hlane]; rfl, by rw [hlane]; rfl⟩
  · exact fun s l g from_ tm hl hv hst hg ha hfrom htm hidle => onlineChangeSwitch_due hl hv hst hg ha hfrom htm hidle
  · exact fun s l tm _ h => onlineChangeSwitch_not_due tm h
  · intro s l g entry hl hst hg hrec
    have hok : (!(s.lane l).rst.held && recordFor jCommit g (s.slotBuild (s.pointer.slotFor (laneBit l))) entry) = true := by rw [hl, hrec]; rfl
    have hrun : s.commitReadback l entry = s.setLane l ((s.lane l).endChange stOk 0) := by
      unfold State.commitReadback
      dsimp only
      rw [hst, hg]
      exact if_pos hok
    exact ⟨_, congrArg Host.Outcome.next hrun, State.onlyLane_setLane _ _ _, by rw [State.lane_setLane]; exact ⟨rfl, rfl⟩⟩
  · intro s
    obtain ⟨hfield, hlanes⟩ := s.commitTimeout_spec
    refine ⟨_, rfl, hfield, fun l => ⟨fun hl hst hsw hc => ?_, fun hc => ?_, fun hst => ?_⟩⟩
    · have hlate : s.changeLate l = true := by
        unfold State.changeLate
        rw [State.up_of_not_held hl, bne_iff_ne.mpr hst, bne_iff_ne.mpr hsw, decide_eq_true hc]
        rfl
      rw [hlanes, if_pos hlate]
      refine ⟨rfl, rfl, rfl, rfl, fun hg => ?_, fun hg => ?_⟩
      · unfold State.lateResult
        rw [hg]
        rfl
      · unfold State.lateResult
        rw [hg]
        rfl
    · rw [hlanes, if_neg]
      unfold State.changeLate
      rw [decide_eq_false (by omega), Bool.and_false]
      decide
    · rw [hlanes, if_neg]
      unfold State.changeLate
      rw [hst]
      simp

end Sys2Proof.Machine
end
section
/-! PROOFS. The lane's field port: frames, the rate window, configuration sending and calibration requests. -/

namespace Sys2Proof.Machine

/-! ### A field frame at the lane's port (R237, R242) -/

/-- The value and run of every input after a valid frame. -/
def Lane.fieldRows (l : Lane) (bytes : List Byte) : List (Nat × Nat) := (upTo 32).map (l.inputValue bytes)

/-- The lane with the holds of a frame's inputs in calibration. -/
def Lane.holdsTaken (l : Lane) (bytes : List Byte) (t : Nat) : Lane :=
  { l with fld := { l.fld with calHold := l.calHolds bytes t } }

/-- What a valid frame leaves in the port's own store. -/
def Lane.fieldTaken (l : Lane) (bytes : List Byte) (t : Nat) : Lane :=
  let x := l.holdsTaken bytes t
  let vals := (x.fieldRows bytes).map Prod.fst
  { x with
    fld := { x.fld with
      vals := vals, disag := (x.fieldRows bytes).map Prod.snd,
      lastUnp := (upTo 32).map fun k => if vals.getD k 0 = fUnproven then t else x.fld.lastUnp.getD k 0,
      lastSeq := some (BitVec.ofNat 16 (beAt bytes 2 2)), lastValid := some t, frame := bytes },
    start := { x.start with fieldOk := true } }

/-- A frame's wire breaks and its count. -/
def Lane.fieldCounted (l : Lane) (wb : Nat) : Lane :=
  let x := l.setRg FLDP_WB (l.rg FLDP_WB ||| BitVec.ofNat 32 wb)
  x.fset FLDP_FRCNT_VALID (x.fget FLDP_FRCNT_VALID + 1)

/-- Frames missed before this one. -/
def Lane.fieldMissed (l : Lane) (missed : Nat) : Lane :=
  if missed = 0 then l else (l.fsat FLDP_FRCNT_MISS missed).fldFlag FLDP_STAT_SEQ_ERR

/-- The status a frame shows. -/
def Lane.fieldShown (l : Lane) (bytes : List Byte) : Lane :=
  let st := beAt bytes 60 2
  let x := (l.fset FLDP_STAT_UV (getField st 0 1)).fset FLDP_STAT_CAL_BUSY (getField st 2 1)
  (x.fset FLDP_STAT_CFG_MISM (b2n (beAt bytes 58 2 != cfgTag x.fieldCfg))).fset FLDP_STAT_LINK 1

/-- Frames missed between the last sequence number and a frame's. -/
def Lane.framesMissed (l : Lane) (bytes : List Byte) : Nat :=
  match l.fld.lastSeq with
  | some q => (BitVec.ofNat 16 (beAt bytes 2 2) - q - 1).toNat
  | none => 0

theorem Lane.takeField_eq (l : Lane) (bytes : List Byte) (t : Nat) :
    l.takeField bytes t =
      (((l.fieldTaken bytes t).fieldCounted (l.wireBreaks bytes)).fieldMissed (l.framesMissed bytes)).fieldShown bytes := by
  rfl

/-- The registers of a field frame. -/
def portRegs : List Nat := [FLDP_STAT, FLDP_FRCNT, FLDP_WB, LCTL_IRQ_PEND]

theorem Lane.fieldCounted_onlyRegs (l : Lane) (wb : Nat) : l.OnlyRegs (l.fieldCounted wb) portRegs :=
  (l.onlyRegs_setRg _ (by decide)).trans (Lane.onlyRegs_fset _ _ (by decide))

theorem Lane.fieldMissed_onlyRegs (l : Lane) (missed : Nat) : l.OnlyRegs (l.fieldMissed missed) portRegs := by
  unfold Lane.fieldMissed
  split
  · exact .refl _ _
  · exact (l.onlyRegs_fsat _ (by decide)).trans (Lane.fldFlag_onlyRegs _ (by decide) (by decide))

theorem Lane.fieldShown_onlyRegs (l : Lane) (bytes : List Byte) : l.OnlyRegs (l.fieldShown bytes) portRegs :=
  (((l.onlyRegs_fset _ (by decide)).trans (Lane.onlyRegs_fset _ _ (by decide))).trans
    (Lane.onlyRegs_fset _ _ (by decide))).trans (Lane.onlyRegs_fset _ _ (by decide))

theorem Lane.fieldShown_link (l : Lane) (bytes : List Byte) : (l.fieldShown bytes).on FLDP_STAT_LINK = true :=
  Lane.on_fset_one _ _ (by decide) (by decide)

theorem Lane.takeField_onlyRegs (l : Lane) (bytes : List Byte) (t : Nat) :
    (l.fieldTaken bytes t).OnlyRegs (l.takeField bytes t) portRegs := by
  rw [Lane.takeField_eq]
  exact ((Lane.fieldCounted_onlyRegs _ _).trans (Lane.fieldMissed_onlyRegs _ _)).trans (Lane.fieldShown_onlyRegs _ _)

theorem Lane.takeField_fld (l : Lane) (bytes : List Byte) (t : Nat) :
    (l.takeField bytes t).fld = (l.fieldTaken bytes t).fld := by
  rw [(l.takeField_onlyRegs bytes t).1]

theorem Lane.takeField_link (l : Lane) (bytes : List Byte) (t : Nat) :
    (l.takeField bytes t).on FLDP_STAT_LINK = true := by
  rw [Lane.takeField_eq]
  exact Lane.fieldShown_link _ _

theorem Lane.takeField_inVal (l : Lane) (bytes : List Byte) (t : Nat) {k : Nat} (hk : k < 32) :
    (l.takeField bytes t).inVal k = ((l.holdsTaken bytes t).inputValue bytes k).1 := by
  rw [Lane.inVal, Lane.takeField_fld]
  show ((((upTo 32).map ((l.holdsTaken bytes t).inputValue bytes)).map Prod.fst).getD k 0) = _
  simp [upTo, List.getD, hk]

/-- Rows of R242 for an input that the frame does not show in test. -/
theorem Lane.inputValue_of_no_test (l : Lane) {bytes : List Byte} {k : Nat} (ht : getField (beAt bytes 28 4) k 1 = 0) :
    (getField (beAt bytes 20 8) (2 * k) 2 ≠ 0 → (l.inputValue bytes k).1 = 0) ∧
    (getField (beAt bytes 20 8) (2 * k) 2 = 0 → bitOf (l.rg (FLDP_INCFG k)) 8 = false →
      (getField (beAt bytes 4 4) k 1 = 0 → getField (beAt bytes 8 4) k 1 = 0 → (l.inputValue bytes k).1 = 1) ∧
      (getField (beAt bytes 4 4) k 1 = 1 → getField (beAt bytes 8 4) k 1 = 1 → getField (beAt bytes 12 8) (2 * k) 2 = 2 →
        (l.inputValue bytes k).1 = 2)) := by
  have hnt : ¬ getField (beAt bytes 28 4) k 1 = 1 := by omega
  refine ⟨fun hf => ?_, fun hf hw => ⟨fun ha hb => ?_, fun ha hb hband => ?_⟩⟩
  · simp only [Lane.inputValue, if_neg hnt, if_pos hf, fUnproven]
  · simp [Lane.inputValue, hnt, hf, inputRow, hw, ha, hb, fOff]
  · simp [Lane.inputValue, hnt, hf, inputRow, hw, ha, hb, hband, fOn]

/-- The lane that counts a frame's start. -/
def Lane.frameStarted (l : Lane) : Lane := { l with fld := { l.fld with starts := l.fld.starts + 1 } }

section
variable {l : Lane} {f : List Byte} (hlen : f.length = 64) (hsync : beAt f 0 1 = 0x5A)
include hlen hsync

theorem Lane.fieldFrame_eq (t : Nat) :
    l.fieldFrame f t =
      if beAt f 62 2 ≠ crc16 (f.take 62) then (l.frameStarted.fsat FLDP_FRCNT_CRCERR 1).fldFlag FLDP_STAT_CRC_ERR
      else if beAt f 1 1 ≠ l.id.code then l.frameStarted.fldFlag FLDP_STAT_PORT_ERR
      else l.frameStarted.takeField f t := by
  rw [Lane.fieldFrame, if_neg (by simp [hlen, hsync])]
  rfl

theorem Lane.fieldFrame_badCrc (hc : beAt f 62 2 ≠ crc16 (f.take 62)) (t : Nat) :
    l.fieldFrame f t = (l.frameStarted.fsat FLDP_FRCNT_CRCERR 1).fldFlag FLDP_STAT_CRC_ERR := by
  rw [Lane.fieldFrame_eq hlen hsync, if_pos hc]

theorem Lane.fieldFrame_otherPort (hc : beAt f 62 2 = crc16 (f.take 62)) (hp : beAt f 1 1 ≠ l.id.code) (t : Nat) :
    l.fieldFrame f t = l.frameStarted.fldFlag FLDP_STAT_PORT_ERR := by
  rw [Lane.fieldFrame_eq hlen hsync, if_neg (by simp [hc]), if_pos hp]

theorem Lane.fieldFrame_valid (hc : beAt f 62 2 = crc16 (f.take 62)) (hp : beAt f 1 1 = l.id.code) (t : Nat) :
    l.fieldFrame f t = l.frameStarted.takeField f t := by
  rw [Lane.fieldFrame_eq hlen hsync, if_neg (by simp [hc]), if_neg (by simp [hp])]
end

theorem Lane.fldFlag_fld (l : Lane) (f : Fld) : (l.fldFlag f).fld = l.fld := rfl

theorem Lane.badCrc_onlyRegs (l : Lane) :
    l.OnlyRegs ((l.fsat FLDP_FRCNT_CRCERR 1).fldFlag FLDP_STAT_CRC_ERR) portRegs :=
  (l.onlyRegs_fsat _ (by decide)).trans (Lane.fldFlag_onlyRegs _ (by decide) (by decide))

theorem Lane.fieldFrame_kept {l : Lane} {f : List Byte} (hlen : f.length = 64) (hsync : beAt f 0 1 = 0x5A) (t : Nat) :
    l.RegsKept (l.fieldFrame f t) portRegs ∧ (l.fieldFrame f t).fld.starts = l.fld.starts + 1 := by
  by_cases hc : beAt f 62 2 = crc16 (f.take 62)
  · by_cases hp : beAt f 1 1 = l.id.code
    · rw [Lane.fieldFrame_valid hlen hsync hc hp, Lane.takeField_fld]
      exact ⟨fun a ha => (Lane.takeField_onlyRegs _ _ _).2 a ha, rfl⟩
    · rw [Lane.fieldFrame_otherPort hlen hsync hc hp]
      exact ⟨fun a ha => (l.frameStarted.fldFlag_onlyRegs (by decide) (by decide)).2 a ha, rfl⟩
  · rw [Lane.fieldFrame_badCrc hlen hsync hc]
    exact ⟨fun a ha => l.frameStarted.badCrc_onlyRegs.2 a ha, rfl⟩

/-! ### The rate window and the port's sending (R238, R239) -/

/-- The lane with its count of frames begun anew. -/
def Lane.rateAnew (l : Lane) : Lane := { l with fld := { l.fld with starts := 0 } }

theorem Lane.fieldRate_of_no_window {l : Lane} {t : Nat} (h : t % 10000000 ≠ 0) : l.fieldRate t = l := if_pos h

theorem Lane.fieldRate_bad {l : Lane} {t : Nat} (h : t % 10000000 = 0)
    (hb : l.start.release + 10000000 ≤ t ∧ (l.fld.starts < 194 ∨ 206 < l.fld.starts)) :
    l.fieldRate t = l.rateAnew.fset FLDP_STAT_RATE_ERR 1 := by
  rw [Lane.fieldRate, if_neg (by simp [h])]
  exact if_pos hb

theorem Lane.fieldRate_good {l : Lane} {t : Nat} (h : t % 10000000 = 0)
    (hb : ¬ (l.start.release + 10000000 ≤ t ∧ (l.fld.starts < 194 ∨ 206 < l.fld.starts))) :
    l.fieldRate t = l.rateAnew := by
  rw [Lane.fieldRate, if_neg (by simp [h])]
  exact if_neg hb

theorem Lane.fieldRate_starts {l : Lane} {t : Nat} (h : t % 10000000 = 0) : (l.fieldRate t).fld.starts = 0 := by
  by_cases hb : l.start.release + 10000000 ≤ t ∧ (l.fld.starts < 194 ∨ 206 < l.fld.starts)
  · rw [Lane.fieldRate_bad h hb, Lane.fset_fld]; rfl
  · rw [Lane.fieldRate_good h hb]; rfl

theorem Lane.fieldRate_reg {l : Lane} {t : Nat}
    (h : t % 10000000 ≠ 0 ∨ t < l.start.release + 10000000 ∨ (194 ≤ l.fld.starts ∧ l.fld.starts ≤ 206)) :
    (l.fieldRate t).reg = l.reg := by
  by_cases hw : t % 10000000 = 0
  · rw [Lane.fieldRate_good hw (by omega)]; rfl
  · rw [Lane.fieldRate_of_no_window hw]

theorem Lane.fieldRate_regsKept (l : Lane) (t : Nat) : l.RegsKept (l.fieldRate t) [FLDP_STAT] := by
  by_cases hw : t % 10000000 = 0
  · by_cases hb : l.start.release + 10000000 ≤ t ∧ (l.fld.starts < 194 ∨ 206 < l.fld.starts)
    · rw [Lane.fieldRate_bad hw hb]
      exact fun a ha => l.rateAnew.regsKept_fset 1 (f := FLDP_STAT_RATE_ERR) (by decide) a ha
    · rw [Lane.fieldRate_good hw hb]
      exact fun a _ => rfl
  · rw [Lane.fieldRate_of_no_window hw]
    exact .refl _ _

theorem Lane.configSend_of_due {l : Lane} {t : Nat} (ha : l.armed = true)
    (h : l.fld.cfgOut = [] ∨ l.fld.lastCfg + 10000000 ≤ t) :
    l.configSend t = { l with fld := { l.fld with lastCfg := t, cfgOut := l.fieldCfg } } :=
  if_pos (by simp [ha, List.isEmpty_iff, h])

theorem Lane.configSend_of_unarmed {l : Lane} {t : Nat} (ha : l.armed = false) : l.configSend t = l :=
  if_neg (by simp [ha])

/-! ### Calibration requests (R245) -/

/-- The lane that asks for a channel's calibration. -/
def Lane.calAsked (x : Lane) (ch : Nat) : Lane := { x with fld := { x.fld with calCh := ch } }.fset FLDP_CAL_CH ch

/-- A die that heard a lane's request. -/
def FieldDie.calHeard (f : FieldDie) (r : CalReq) : FieldDie :=
  { f.heard r.t with calReqs := r :: f.calReqs.filter fun q => q.port != r.port || q.ch != r.ch }

/-- The request a lane sends. -/
def Lane.calReqOf (x : Lane) (l : LaneId) (v : Word) (t : Nat) : CalReq :=
  { port := l, ch := bvField v 0 5, t := t, v := x.inAgreed (bvField v 0 5) }

section
variable {s : State} {l : LaneId} (hl : (s.lane l).rst.held = false) (v : Word) (t : Nat)
include hl

theorem State.calRequest_of_start (hb : bitOf v 8 = true) :
    s.calRequest l v t =
      (s.setLane l ((s.lane l).calAsked (bvField v 0 5))).upField (·.calHeard ((s.lane l).calReqOf l v t)) := by
  rw [State.calRequest]
  dsimp only
  rw [if_neg (by simp [hl]), if_pos hb]
  rfl

theorem State.calRequest_of_no_start (hb : bitOf v 8 = false) :
    s.calRequest l v t = s.setLane l ((s.lane l).calAsked (bvField v 0 5)) := by
  rw [State.calRequest]
  dsimp only
  rw [if_neg (by simp [hl]), if_neg (by simp [hb])]
  rfl
end

@[simp] theorem State.upField_lane (s : State) (f : FieldDie → FieldDie) (l : LaneId) :
    (s.upField f).lane l = s.lane l := by
  unfold State.upField
  split
  · cases l <;> rfl
  · rfl

@[simp] theorem State.upField_hub (s : State) (f : FieldDie → FieldDie) : (s.upField f).hub = s.hub := by
  unfold State.upField
  split <;> rfl

theorem State.upField_of_up {s : State} (h : s.fieldUp = true) (f : FieldDie → FieldDie) : s.upField f = s.modField f :=
  if_pos h

theorem State.setLane_fieldUp (s : State) (l : LaneId) (x : Lane) : (s.setLane l x).fieldUp = s.fieldUp := by
  unfold State.fieldUp
  rw [State.setLane_field, State.setLane_fieldRst]

theorem Lane.calAsked_ch (x : Lane) (v : Word) : (x.calAsked (bvField v 0 5)).fget FLDP_CAL_CH = bvField v 0 5 := by
  rw [Lane.calAsked, Lane.fget_fset_same _ _ _ (by decide)]
  exact Nat.mod_eq_of_lt (getField_lt _ _ _)

theorem Lane.calAsked_regsKept (x : Lane) (ch : Nat) : x.RegsKept (x.calAsked ch) [FLDP_CAL] := fun a ha =>
  Lane.regsKept_fset { x with fld := { x.fld with calCh := ch } } (f := FLDP_CAL_CH) ch (by decide) a ha

theorem State.calRequest_lane {s : State} {l : LaneId} (hl : (s.lane l).rst.held = false) (v : Word) (t : Nat) :
    (∀ k, k ≠ l → (s.calRequest l v t).lane k = s.lane k) ∧ (s.calRequest l v t).hub = s.hub ∧
      (s.calRequest l v t).lane l = (s.lane l).calAsked (bvField v 0 5) := by
  cases hb : bitOf v 8
  · rw [State.calRequest_of_no_start hl v t hb]
    exact ⟨fun k hk => State.lane_setLane_ne _ _ hk, State.setLane_hub .., State.lane_setLane ..⟩
  · rw [State.calRequest_of_start hl v t hb]
    simp only [State.upField_lane, State.upField_hub]
    exact ⟨fun k hk => State.lane_setLane_ne _ _ hk, State.setLane_hub .., State.lane_setLane ..⟩

theorem State.calRequest_field {s : State} {l : LaneId} (hl : (s.lane l).rst.held = false) (v : Word) (t : Nat)
    (hb : bitOf v 8 = true) (hup : s.fieldUp = true) :
    (s.calRequest l v t).field = s.field.calHeard ((s.lane l).calReqOf l v t) := by
  rw [State.calRequest_of_start hl v t hb,
    State.upField_of_up (f := fun f => f.calHeard ((s.lane l).calReqOf l v t)) ((State.setLane_fieldUp ..).trans hup),
    State.modField_field, State.setLane_field]

/-! ### The obligation -/

/-- A valid frame is kept with its instant, and gives each input its row's value. -/
theorem Lane.fieldFrame_takes {x : Lane} {f : List Byte} (hlen : f.length = 64) (hsync : beAt f 0 1 = 0x5A)
    (hc : beAt f 62 2 = crc16 (f.take 62)) (hp : beAt f 1 1 = x.id.code) (tm : Nat) :
    (x.fieldFrame f tm).fld.lastValid = some tm ∧ (x.fieldFrame f tm).fld.frame = f ∧
      (x.fieldFrame f tm).on FLDP_STAT_LINK = true ∧
      ∀ k, k < 32 → (x.fieldFrame f tm).inVal k = ((x.frameStarted.holdsTaken f tm).inputValue f k).1 := by
  rw [Lane.fieldFrame_valid hlen hsync hc hp]
  refine ⟨?_, ?_, Lane.takeField_link _ _ _, fun k hk => Lane.takeField_inVal _ _ _ hk⟩
  · rw [Lane.takeField_fld]; rfl
  · rw [Lane.takeField_fld]; rfl

/-- Settles O38: a frame's check decides whether the port takes it; a frame it does not take leaves the inputs. -/
theorem onlyValidFieldFramesChangeInputs : Obligations.OnlyValidFieldFramesChangeInputs := by
  unfold Obligations.OnlyValidFieldFramesChangeInputs
  refine ⟨?frame, ?rate, ?send, ?unsent, ?request⟩
  case frame =>
    intro s l f tm hl hlen hsync
    obtain ⟨ho, hlane⟩ := s.upLane_laneAt_next l tm (·.fieldFrame f tm) hl
    obtain ⟨hk, hst⟩ := Lane.fieldFrame_kept (l := (s.lane l).at tm) hlen hsync tm
    refine ⟨_, rfl, ho, ?_⟩
    rw [hlane]
    refine ⟨fun a ha => hk a ha, hst, fun hc => ?_, fun hc hp => ?_, fun hc hp => ?_⟩
    · rw [Lane.on_noted, Lane.fieldFrame_badCrc (l := (s.lane l).at tm) hlen hsync hc]
      exact ⟨Lane.on_fldFlag_same _ (by decide) (by decide) (by decide), rfl, rfl⟩
    · rw [Lane.on_noted, Lane.fieldFrame_otherPort (l := (s.lane l).at tm) hlen hsync hc hp]
      exact ⟨Lane.on_fldFlag_same _ (by decide) (by decide) (by decide), rfl, rfl⟩
    · obtain ⟨hv, hf, hlink, hin⟩ := Lane.fieldFrame_takes (x := (s.lane l).at tm) hlen hsync hc hp tm
      refine ⟨hv, hf, hlink, fun k hk ht => ?_⟩
      have hrow := (((s.lane l).at tm).frameStarted.holdsTaken f tm).inputValue_of_no_test ht
      rw [← hin k hk] at hrow
      exact hrow
  case rate =>
    intro s l tm hl
    obtain ⟨ho, hlane⟩ := s.upLane_laneAt_next l tm (·.fieldRate tm) hl
    refine ⟨_, rfl, ho, ?_⟩
    rw [hlane]
    refine ⟨fun a ha => Lane.fieldRate_regsKept _ _ a ha, fun hw => Lane.fieldRate_starts hw, fun hw hr hn => ?_, fun h => ?_⟩
    · rw [Lane.on_noted, Lane.fieldRate_bad (l := (s.lane l).at tm) hw ⟨hr, hn⟩]
      exact Lane.on_fset_one _ _ (by decide) (by decide)
    · exact Lane.fieldRate_reg (l := (s.lane l).at tm) h
  case send =>
    intro s l tm hl ha hdue
    obtain ⟨ho, hlane⟩ := s.upLane_laneAt_next l tm (·.configSend tm) hl
    refine ⟨_, rfl, ho, ?_⟩
    rw [hlane, Lane.configSend_of_due (l := (s.lane l).at tm) ha hdue]
    exact ⟨rfl, rfl⟩
  case unsent =>
    intro s l tm hl ha
    obtain ⟨ho, hlane⟩ := s.upLane_laneAt_next l tm (·.configSend tm) hl
    refine ⟨_, rfl, ho, ?_⟩
    rw [hlane, Lane.configSend_of_unarmed (l := (s.lane l).at tm) ha]
    rfl
  case request =>
    intro s l v tm hl
    have hl' : ((s.at tm).lane l).rst.held = false := by rw [State.lane_at]; exact hl
    obtain ⟨hne, hhub, hlane⟩ := State.calRequest_lane hl' v tm
    refine ⟨_, rfl, fun k hk => ?_, hhub, ?_, ?_, fun hb => ?_, fun hb hup => ?_⟩
    · rw [hne k hk, State.lane_at]
    · rw [hlane, State.lane_at]; exact Lane.calAsked_regsKept _ _
    · rw [hlane, Lane.calAsked_ch]
    · rw [State.calRequest_of_no_start hl' v tm hb, State.setLane_field]
      rfl
    · rw [State.calRequest_field hl' v tm hb hup, State.lane_at]
      exact List.mem_cons_self

end Sys2Proof.Machine
end
section
/-! PROOFS. The FIELD die: configurations, image blocks, calibration, supply and sleep (R245, R251, R466, R513, R541, R574). -/

namespace Sys2Proof.Machine

/-! ### Changing every lane that is out of reset -/

/-- A lane after a change that reaches it out of reset. -/
def Lane.upped (x : Lane) (f : Lane → Lane) : Lane := if x.rst.held then x else { f x with notes := [] }

theorem State.upLane_lane_same (s : State) (l : LaneId) (f : Lane → Lane) : (s.upLane l f).lane l = (s.lane l).upped f := by
  unfold Lane.upped
  cases hl : (s.lane l).rst.held
  · exact (s.upLane_next l f hl).2
  · rw [State.upLane_held s l f hl]; rfl

theorem State.upLane_onlyLane (s : State) (l : LaneId) (f : Lane → Lane) : s.OnlyLane (s.upLane l f) l := by
  cases hl : (s.lane l).rst.held
  · exact (s.upLane_next l f hl).1
  · rw [State.upLane_held s l f hl]; exact State.OnlyLane.refl s l

theorem State.OnlyLane.field_eq {s t : State} {l : LaneId} (h : s.OnlyLane t l) : t.field = s.field := by
  obtain ⟨-, -, ht⟩ := h
  rw [ht]

theorem State.foldl_upLane (f : Lane → Lane) (ls : List LaneId) (hn : ls.Nodup) (s : State) :
    (∀ k, (ls.foldl (fun s l => s.upLane l f) s).lane k = if k ∈ ls then (s.lane k).upped f else s.lane k) ∧
      (ls.foldl (fun s l => s.upLane l f) s).field = s.field := by
  induction ls generalizing s with
  | nil => exact ⟨fun _ => rfl, rfl⟩
  | cons l ls ih =>
    obtain ⟨hl, hn'⟩ := List.nodup_cons.mp hn
    obtain ⟨hlane, hfield⟩ := ih hn' (s.upLane l f)
    have ho := s.upLane_onlyLane l f
    refine ⟨fun k => ?_, hfield.trans ho.field_eq⟩
    rw [List.foldl_cons, hlane k]
    by_cases hk : k = l
    · subst hk
      rw [if_neg hl, if_pos List.mem_cons_self, State.upLane_lane_same]
    · rw [ho.others_kept k hk]
      simp [hk]

theorem State.upAll_lane (s : State) (f : Lane → Lane) (k : LaneId) : (s.upAll f).lane k = (s.lane k).upped f := by
  rw [State.upAll, ((State.foldl_upLane f allLanes (by decide) s).1 k), if_pos (by cases k <;> decide)]

theorem State.upAll_field (s : State) (f : Lane → Lane) : (s.upAll f).field = s.field :=
  (State.foldl_upLane f allLanes (by decide) s).2

theorem Lane.upped_of_up {x : Lane} (h : x.rst.held = false) (f : Lane → Lane) : x.upped f = { f x with notes := [] } :=
  if_neg (by simp [h])

theorem Lane.upped_reg {x : Lane} {f : Lane → Lane} (h : (f x).reg = x.reg) : (x.upped f).reg = x.reg := by
  unfold Lane.upped
  split
  · rfl
  · exact h

theorem State.upAll_flagged {s : State} {l : LaneId} (h : (s.lane l).rst.held = false) {f : Fld} (hlo : f.lo + 1 ≤ 32)
    (hw : f.w = 1) (hi : f.addr ≠ LCTL_IRQ_PEND) : ((s.upAll (·.fldFlag f)).lane l).on f = true := by
  rw [State.upAll_lane, Lane.upped_of_up h, Lane.on_noted]
  exact Lane.on_fldFlag_same _ hlo hw hi

/-! ### Configurations (R239, R251) -/

/-- The die after a port delivered a configuration. -/
def FieldDie.cfgHeard (f : FieldDie) (p : LaneId) (ws : List Word) (t : Nat) : FieldDie :=
  { f.heard t with cfgSeen := (p, ws) :: f.cfgSeen.filter fun e => e.1 != p }

/-- The die that runs a configuration from `t` on. -/
def FieldDie.configured (f : FieldDie) (ws : List Word) (t : Nat) : FieldDie :=
  { f with cfg := ws, cfgDefault := false, periodT := t, tpst := 0, clean := [], gap := 0, gapT := [], bandHold := [], offTest := [],
           enc0 := { f.enc0 with since := 0, zref := false }, enc1 := { f.enc1 with since := 0, zref := false } }

/-- Another port than `p` has delivered `ws`. -/
def FieldDie.alikeElsewhere (f : FieldDie) (p : LaneId) (ws : List Word) : Bool := f.cfgSeen.any fun e => e.1 != p && e.2 == ws

theorem FieldDie.alikeElsewhere_iff (f : FieldDie) (p : LaneId) (ws : List Word) :
    f.alikeElsewhere p ws = true ↔ ∃ e ∈ f.cfgSeen, e.1 ≠ p ∧ e.2 = ws := by
  simp [FieldDie.alikeElsewhere]

theorem FieldDie.cfgHeard_alike (f : FieldDie) (p : LaneId) (ws : List Word) (t : Nat) :
    (f.cfgHeard p ws t).alikeElsewhere p ws = f.alikeElsewhere p ws := by
  rw [Bool.eq_iff_iff, FieldDie.alikeElsewhere_iff, FieldDie.alikeElsewhere_iff]
  simp only [FieldDie.cfgHeard, List.mem_cons, List.mem_filter]
  constructor
  · rintro ⟨e, rfl | ⟨he, -⟩, hp, hw⟩
    · exact absurd rfl hp
    · exact ⟨e, he, hp, hw⟩
  · rintro ⟨e, he, hp, hw⟩
    exact ⟨e, .inr ⟨he, by simpa using hp⟩, hp, hw⟩

theorem State.fieldConfigFrame_ignored {s : State} {p : LaneId} {ws : List Word} (h : (s.lane p).fld.cfgOut ≠ ws ∨ s.fieldUp = false)
    (t : Nat) : s.fieldConfigFrame p ws t = s := by
  rw [State.fieldConfigFrame, if_pos]
  rcases h with h | h <;> simp [h]

section
variable {s : State} {p : LaneId} {ws : List Word} (hup : s.fieldUp = true) (hlen : ws.length = 51)
  (hsent : (s.lane p).fld.cfgOut = ws) (t : Nat)
include hup hlen hsent

theorem State.fieldConfigFrame_eq :
    s.fieldConfigFrame p ws t =
      if !s.field.alikeElsewhere p ws || !s.field.cfgDefault then s.modField (·.cfgHeard p ws t)
      else if pairsOk ws then (s.modField (·.cfgHeard p ws t)).modField (·.configured ws t)
      else (s.modField (·.cfgHeard p ws t)).upAll (·.fldFlag FLDP_STAT_CFG_ERR) := by
  rw [← FieldDie.cfgHeard_alike _ p ws t, State.fieldConfigFrame, if_neg (by simp [hup, hlen, hsent])]
  rfl

theorem State.fieldConfigFrame_alone (h : (∀ e ∈ s.field.cfgSeen, e.1 ≠ p → e.2 ≠ ws) ∨ s.field.cfgDefault = false) :
    s.fieldConfigFrame p ws t = s.modField (·.cfgHeard p ws t) := by
  have halike : (!s.field.alikeElsewhere p ws || !s.field.cfgDefault) = true := by
    rcases h with h | h
    · have : s.field.alikeElsewhere p ws = false := by
        rw [Bool.eq_false_iff, ne_eq, FieldDie.alikeElsewhere_iff]
        rintro ⟨e, he, hp, hw⟩
        exact h e he hp hw
      rw [this]; rfl
    · simp [h]
  rw [State.fieldConfigFrame_eq hup hlen hsent, if_pos halike]

variable (halike : ∃ e ∈ s.field.cfgSeen, e.1 ≠ p ∧ e.2 = ws) (hdef : s.field.cfgDefault = true)
include halike hdef

theorem State.fieldConfigFrame_agreed :
    s.fieldConfigFrame p ws t =
      if pairsOk ws then (s.modField (·.cfgHeard p ws t)).modField (·.configured ws t)
      else (s.modField (·.cfgHeard p ws t)).upAll (·.fldFlag FLDP_STAT_CFG_ERR) := by
  rw [State.fieldConfigFrame_eq hup hlen hsent,
    if_neg (by rw [(s.field.alikeElsewhere_iff p ws).mpr halike, hdef]; decide)]
end

/-! ### Image blocks (R466) -/

theorem FieldDie.imageBlock_alike {f : FieldDie} {p : LaneId} {i : Nat} {bs : List Byte}
    (h : ∃ e ∈ f.imgSeen, e.1 ≠ p ∧ e.2 = (i, bs)) : (i, bs) ∈ (f.imageBlock p i bs).imgSpare := by
  have ha : (f.imgSeen.any fun e => e.1 != p && e.2.1 == i && e.2.2 == bs) = true := by
    obtain ⟨e, he, hp, hb⟩ := h
    exact List.any_eq_true.mpr ⟨e, he, by simp [hp, hb]⟩
  unfold FieldDie.imageBlock
  dsimp only
  rw [if_pos ha]
  exact List.mem_cons_self

theorem FieldDie.imageBlock_alone {f : FieldDie} {p : LaneId} {i : Nat} {bs : List Byte}
    (h : ∀ e ∈ f.imgSeen, e.1 ≠ p → e.2 ≠ (i, bs)) : (f.imageBlock p i bs).imgSpare = f.imgSpare := by
  have ha : ¬ (f.imgSeen.any fun e => e.1 != p && e.2.1 == i && e.2.2 == bs) = true := by
    intro ha
    obtain ⟨⟨q, j, cs⟩, he, hb⟩ := List.any_eq_true.mp ha
    simp only [Bool.and_eq_true, bne_iff_ne, beq_iff_eq] at hb
    exact h _ he hb.1.1 (by simp [hb.1.2, hb.2])
  unfold FieldDie.imageBlock
  dsimp only
  rw [if_neg ha]

/-- The update controller's count of a block changes no lane and nothing of the die. -/
theorem State.imageBlock_spec {s : State} (hup : s.fieldUp = true) (p : LaneId) (i : Nat) (bs : List Byte) :
    (∀ l, (s.imageBlock p i bs).lane l = s.lane l) ∧ (s.imageBlock p i bs).field = s.field.imageBlock p i bs := by
  unfold State.imageBlock
  rw [State.upField_of_up hup]
  dsimp only
  split
  · exact ⟨fun l => (State.modHub_lane ..).trans (by cases l <;> rfl), rfl⟩
  · exact ⟨fun l => by cases l <;> rfl, rfl⟩

/-! ### Calibration (R245, R246, R248) -/

/-- The die without the requests for a channel. -/
def FieldDie.calTaken (f : FieldDie) (ch : Nat) : FieldDie := { f with calReqs := f.calReqs.filter fun r => r.ch != ch }

/-- The requests for a channel within a millisecond before `t`. -/
def FieldDie.calAsks (f : FieldDie) (ch t : Nat) : List CalReq :=
  f.calReqs.filter fun r => r.ch == ch && decide (t ≤ r.t + 1000000) && decide (r.t ≤ t)

theorem State.calStart_eq {s : State} {ch t : Nat} (hup : s.fieldUp = true) (hch : ch < 32)
    (htwo : 2 ≤ (s.field.calAsks ch t).length) :
    s.calStart ch t =
      if s.calRefused ch ((s.field.calAsks ch t).map (·.v)) t then
        (s.modField (·.calTaken ch)).upAll (·.fldFlag FLDP_STAT_CAL_REF)
      else if s.field.cal.isSome then s.modField (·.calTaken ch)
      else ((s.modField (·.calTaken ch)).modField fun f => { f with cal := some (ch, t) }).upAll (·.holdInput ch t) := by
  have hguard : ¬ (!s.fieldUp || decide ((s.field.calAsks ch t).length < 2) || decide (32 ≤ ch)) = true := by
    simp [hup]; omega
  unfold State.calStart
  dsimp only
  rw [if_neg (by exact hguard)]
  rfl

theorem Lane.holdInput_reg (l : Lane) (ch t : Nat) : (l.holdInput ch t).reg = l.reg := rfl

/-- A calibration that starts: the die runs it unless one runs, and no register of a lane changes. -/
theorem State.calStart_taken {s : State} {ch t : Nat} (hup : s.fieldUp = true) (hch : ch < 32)
    (htwo : 2 ≤ (s.field.calAsks ch t).length) (hr : s.calRefused ch ((s.field.calAsks ch t).map (·.v)) t = false) :
    (s.calStart ch t).field.calReqs = (s.field.calTaken ch).calReqs ∧
      (s.calStart ch t).field.cal = (if s.field.cal.isSome then s.field.cal else some (ch, t)) ∧
      ∀ l, ((s.calStart ch t).lane l).reg = (s.lane l).reg := by
  rw [State.calStart_eq hup hch htwo, if_neg (by simp [hr])]
  by_cases hc : s.field.cal.isSome = true
  · rw [if_pos hc, if_pos hc]
    exact ⟨rfl, rfl, fun l => by cases l <;> rfl⟩
  · rw [if_neg hc, if_neg hc]
    refine ⟨?_, ?_, fun l => ?_⟩
    · rw [State.upAll_field]; rfl
    · rw [State.upAll_field]; rfl
    · rw [State.upAll_lane]
      refine (Lane.upped_reg (Lane.holdInput_reg _ ch t)).trans ?_
      cases l <;> rfl

theorem State.calStart_refused {s : State} {ch t : Nat} (hup : s.fieldUp = true) (hch : ch < 32)
    (htwo : 2 ≤ (s.field.calAsks ch t).length) (hr : s.calRefused ch ((s.field.calAsks ch t).map (·.v)) t = true) :
    (s.calStart ch t).field = s.field.calTaken ch ∧
      ∀ l, (s.lane l).rst.held = false → ((s.calStart ch t).lane l).on FLDP_STAT_CAL_REF = true := by
  rw [State.calStart_eq hup hch htwo, if_pos hr]
  refine ⟨State.upAll_field _ _, fun l hl => State.upAll_flagged ?_ (by decide) (by decide) (by decide)⟩
  cases l <;> exact hl

/-- A lane at the end of a channel's calibration. -/
def Lane.calEnded (l : Lane) (ch : Nat) (ok : Bool) : Lane :=
  { l with fld := { l.fld with calHold := l.fld.calHold.filter fun h => h.seen } }.setRg FLDP_CALFAIL (bvSet (l.rg FLDP_CALFAIL) ch 1 (b2n !ok))

theorem State.calEnd_of_due {s : State} {ch from_ t : Nat} (hup : s.fieldUp = true) (hcal : s.field.cal = some (ch, from_))
    (hdue : from_ + 5000000 ≤ t) (ok : Bool) :
    s.calEnd ok t = (s.modField fun f => { f with cal := none, calFail := !ok }).upAll (·.calEnded ch ok) := by
  unfold State.calEnd
  rw [hcal]
  dsimp only
  rw [if_neg (by simp [hup]; omega)]
  rfl

theorem getLsbD_bvSet_bit {n : Nat} (v : BitVec n) (b : Bool) {k i : Nat} (hi : i < n) :
    (bvSet v k 1 (b2n b)).getLsbD i = if i = k then b else v.getLsbD i := by
  unfold bvSet
  rw [BitVec.getLsbD_ofNat, setField_testBit, BitVec.getLsbD, decide_eq_true hi, Bool.true_and]
  by_cases hk : i = k
  · subst hk
    rw [if_neg (by omega), if_pos (by omega), if_pos rfl, Nat.sub_self]
    cases b <;> rfl
  · rw [if_neg hk]
    by_cases hlt : i < k
    · rw [if_pos hlt]
    · rw [if_neg hlt, if_neg (by omega)]

theorem Lane.calEnded_fail (l : Lane) {ch k : Nat} (ok : Bool) (hk : k < 32) :
    ((l.calEnded ch ok).rg FLDP_CALFAIL).getLsbD k = if k = ch then !ok else (l.rg FLDP_CALFAIL).getLsbD k := by
  unfold Lane.calEnded
  rw [Lane.rg_setRg_same]
  exact getLsbD_bvSet_bit _ _ hk

/-! ### Supply, temperature and sleep (R513, R541, R574) -/

theorem State.conducts_of_not_alive {s : State} (h : s.field.alive = false) (k : Nat) : s.conducts k = false := by
  simp [State.conducts, h]

theorem State.testOut_of_not_alive {s : State} (h : s.field.alive = false) (k : Nat) : s.testOut k = false := by
  simp [State.testOut, h]

/-- A die that loses its supply and takes it back runs on the default configuration, below its undervoltage level still. -/
theorem exec_fieldPowerOn_of_off {s : State} (h : s.field.powered = false) (tm : Nat) :
    exec (.fieldPowerOn tm) s =
      .next { s with
        now := max s.now tm,
        field := { s.field.resetTo with powered := true, uv := true, periodT := tm, lastCmd := tm },
        fieldRst := { s.fieldRst with held := s.fieldRst.trimFail, cold := true, trimOk := !s.fieldRst.trimFail, t := tm, relT := tm } } := by
  show execFieldPowerOn tm s = _
  unfold execFieldPowerOn
  dsimp only
  rw [if_neg (by simp [h])]
  rfl

/-! ### The obligation -/

theorem configurationsNeedTwoPorts (s : State) (p : LaneId) (ws : List Word) (tm : Nat) (hup : s.fieldUp = true)
    (hlen : ws.length = 51) (hsent : (s.lane p).fld.cfgOut = ws) :
    ((∀ e ∈ s.field.cfgSeen, e.1 ≠ p → e.2 ≠ ws) ∨ s.field.cfgDefault = false →
        s.OnlyField ((s.at tm).fieldConfigFrame p ws tm) ∧ ((s.at tm).fieldConfigFrame p ws tm).field.cfg = s.field.cfg) ∧
      ((∃ e ∈ s.field.cfgSeen, e.1 ≠ p ∧ e.2 = ws) → s.field.cfgDefault = true → pairsOk ws = true →
        s.OnlyField ((s.at tm).fieldConfigFrame p ws tm) ∧ ((s.at tm).fieldConfigFrame p ws tm).field.cfg = ws ∧
          ((s.at tm).fieldConfigFrame p ws tm).field.cfgDefault = false ∧ ((s.at tm).fieldConfigFrame p ws tm).field.periodT = tm) ∧
      ((∃ e ∈ s.field.cfgSeen, e.1 ≠ p ∧ e.2 = ws) → s.field.cfgDefault = true → pairsOk ws = false →
        ((s.at tm).fieldConfigFrame p ws tm).field.cfg = s.field.cfg ∧
          ∀ l, (s.lane l).rst.held = false → (((s.at tm).fieldConfigFrame p ws tm).lane l).on FLDP_STAT_CFG_ERR = true) := by
  have hsent' : ((s.at tm).lane p).fld.cfgOut = ws := by rw [State.lane_at]; exact hsent
  refine ⟨fun h => ?_, fun ha hd hok => ?_, fun ha hd hok => ?_⟩
  · rw [State.fieldConfigFrame_alone (s := s.at tm) hup hlen hsent' tm h]
    exact ⟨rfl, rfl⟩
  · rw [State.fieldConfigFrame_agreed (s := s.at tm) hup hlen hsent' tm ha hd, if_pos hok]
    exact ⟨rfl, rfl, rfl, rfl⟩
  · rw [State.fieldConfigFrame_agreed (s := s.at tm) hup hlen hsent' tm ha hd, if_neg (by simp [hok]), State.upAll_field]
    refine ⟨rfl, fun l hl => State.upAll_flagged ?_ (by decide) (by decide) (by decide)⟩
    cases l <;> exact hl

/-- Two requests for a channel within their millisecond are the channel's requests. -/
theorem FieldDie.calAsks_two {f : FieldDie} {x y : LaneId} {ch tx ty vx vy tm : Nat} (hx : tx ≤ tm) (hx' : tm ≤ tx + 1000000)
    (hy : ty ≤ tm) (hy' : tm ≤ ty + 1000000)
    (h : f.calReqs = [{ port := x, ch := ch, t := tx, v := vx }, { port := y, ch := ch, t := ty, v := vy }]) :
    f.calAsks ch tm = f.calReqs ∧ (f.calTaken ch).calReqs = [] := by
  unfold FieldDie.calAsks FieldDie.calTaken
  rw [h]
  simp [hx, hx', hy, hy']

theorem dieSwitchesOff (s : State) (hup : s.fieldUp = true) :
    (∃ t, exec (.fieldUndervoltage) s = .next t ∧
       t = { s with field := { s.field with uv := true, gap := 0, gapT := [], bandHold := [] } } ∧ t.field.alive = false) ∧
     (∃ t, exec (.fieldUndervoltageEnd) s = .next t ∧ t = { s with field := { s.field with uv := false } }) ∧
     (∃ t, exec (.fieldOvertemp) s = .next t ∧
       t = { s with field := { s.field with ot := true, gap := 0, gapT := [], bandHold := [] } } ∧ t.field.alive = false) ∧
     (∃ t, exec (.fieldOvertempEnd) s = .next t ∧ t = { s with field := { s.field with ot := false } }) := by
  refine ⟨⟨_, rfl, State.upField_of_up hup _, ?_⟩, ⟨_, rfl, State.upField_of_up hup _⟩, ⟨_, rfl, State.upField_of_up hup _, ?_⟩,
    ⟨_, rfl, State.upField_of_up hup _⟩⟩
  · rw [State.upField_of_up hup]; rfl
  · rw [State.upField_of_up hup, State.modField_field]
    unfold FieldDie.alive
    cases s.field.uv <;> rfl

theorem exec_fieldSleep_due {s : State} {tm : Nat} (hup : s.fieldUp = true) (h : s.field.lastCmd + 30000000 ≤ tm) :
    exec (.fieldSleep tm) s = .next ((s.at tm).modField fun f => { f with sleep := true, gap := 0, gapT := [], bandHold := [] }) := by
  show execFieldSleep tm s = _
  unfold execFieldSleep
  dsimp only
  rw [State.at_field, if_pos h, State.upField_of_up (by exact hup)]

theorem exec_fieldSleep_early {s : State} {tm : Nat} (h : tm < s.field.lastCmd + 30000000) :
    exec (.fieldSleep tm) s = .next (s.at tm) := by
  show execFieldSleep tm s = _
  unfold execFieldSleep
  dsimp only
  rw [State.at_field, if_neg (by omega)]

/-- Settles O39: a configuration or block counts once another port has delivered it; the supply's faults clear what the die may drive. -/
theorem theDieActsOnWhatTwoPortsAskAndSwitchesOff : Obligations.TheDieActsOnWhatTwoPortsAskAndSwitchesOff := by
  unfold Obligations.TheDieActsOnWhatTwoPortsAskAndSwitchesOff
  refine ⟨⟨?config, ?ignored, ?image, ?calStart, ?calEnd⟩, ?off, ?quiet, ?brownOut, ?powerOn⟩
  case config =>
    intro s p ws tm hup hlen hsent
    exact ⟨_, rfl, configurationsNeedTwoPorts s p ws tm hup hlen hsent⟩
  case ignored =>
    intro s p ws tm h
    refine ⟨_, rfl, State.fieldConfigFrame_ignored (s := s.at tm) ?_ tm⟩
    rw [State.lane_at]
    exact h
  case image =>
    intro s p i bs hup
    obtain ⟨hlane, hfield⟩ := State.imageBlock_spec hup p i bs
    refine ⟨_, rfl, hlane, fun h => ?_, fun h => ?_⟩
    · rw [hfield]; exact FieldDie.imageBlock_alike h
    · rw [hfield]; exact FieldDie.imageBlock_alone h
  case calStart =>
    intro s x y ch tx ty vx vy tm _ hup hch hx hx' hy hy' hreq
    obtain ⟨hasks, hnone⟩ := FieldDie.calAsks_two hx hx' hy hy' hreq
    have hvs : ((s.at tm).field.calAsks ch tm).map (·.v) = [vx, vy] := by rw [State.at_field, hasks, hreq]; rfl
    have htwo : 2 ≤ ((s.at tm).field.calAsks ch tm).length := by rw [State.at_field, hasks, hreq]; exact Nat.le_refl 2
    have hreq' : (s.at tm).calRefused ch [vx, vy] tm = s.calRefused ch [vx, vy] tm := rfl
    refine ⟨_, rfl, ?_⟩
    cases hr : s.calRefused ch [vx, vy] tm
    · obtain ⟨hreqs, hcal, hreg⟩ := State.calStart_taken (s := s.at tm) hup hch htwo (by rw [hvs, hreq', hr])
      refine ⟨hreqs.trans hnone, fun _ => ⟨hcal, fun l => (hreg l).trans (by rw [State.lane_at])⟩, fun h => absurd h (by decide)⟩
    · obtain ⟨hfield, hflag⟩ := State.calStart_refused (s := s.at tm) hup hch htwo (by rw [hvs, hreq', hr])
      refine ⟨?_, fun h => absurd h (by decide), fun _ => ⟨?_, fun l hl => hflag l (by rw [State.lane_at]; exact hl)⟩⟩
      · rw [hfield]; exact hnone
      · rw [hfield]; rfl
  case calEnd =>
    intro s ok ch from_ tm hup hcal hch hdue
    have he := State.calEnd_of_due (s := s.at tm) hup hcal hdue ok
    refine ⟨_, rfl, ?_, fun l hl => ?_⟩
    · rw [he, State.upAll_field]; rfl
    · have hl' : (((s.at tm).modField fun f => { f with cal := none, calFail := !ok }).lane l) = s.lane l := by cases l <;> rfl
      rw [he, State.upAll_lane, hl', Lane.upped_of_up hl, Lane.rg_noted]
      refine ⟨?_, fun k hk hne => ?_⟩
      · rw [Lane.calEnded_fail _ ok hch, if_pos rfl]
      · rw [Lane.calEnded_fail _ ok hk, if_neg hne]
  case off =>
    intro s hup
    obtain ⟨huv, huvEnd, hot, hotEnd⟩ := dieSwitchesOff s hup
    refine ⟨huv, huvEnd, hot, hotEnd, fun tm h => ⟨_, exec_fieldSleep_due hup h, rfl, rfl, ?_⟩, fun tm h => ⟨_, exec_fieldSleep_early h, rfl⟩⟩
    rw [State.modField_field]
    unfold FieldDie.alive
    exact Bool.and_false _
  case quiet =>
    exact fun s k h => ⟨State.conducts_of_not_alive h k, State.testOut_of_not_alive h k⟩
  case brownOut =>
    intro s tm
    refine ⟨_, _, rfl, exec_fieldPowerOn_of_off rfl tm, fun l => by cases l <;> rfl, rfl, rfl, rfl, rfl, rfl, rfl, rfl, rfl, rfl⟩
  case powerOn =>
    intro s tm h
    exact ⟨_, exec_fieldPowerOn_of_off h tm, rfl, rfl, rfl, rfl, fun l => by cases l <;> rfl, rfl⟩

end Sys2Proof.Machine
end
section
/-! PROOFS. The FIELD die's samples, test pulses, output tests and faults (R235, R240, R243, R244, R252, R253). -/

namespace Sys2Proof.Machine

theorem done_of_eq {x y : State} (h : x = y) : (done x : Host.Outcome State Fault Refusal) = .next y := congrArg _ h

theorem getLsbD_bvSet_one {n : Nat} (v : BitVec n) {k i : Nat} (hi : i < n) :
    (bvSet v k 1 1).getLsbD i = (decide (i = k) || v.getLsbD i) := by
  refine (getLsbD_bvSet_bit v true hi).trans ?_
  by_cases h : i = k <;> simp [h]

theorem getLsbD_bvSet_zero {n : Nat} (v : BitVec n) {k i : Nat} (hi : i < n) :
    (bvSet v k 1 0).getLsbD i = (!decide (i = k) && v.getLsbD i) := by
  refine (getLsbD_bvSet_bit v false hi).trans ?_
  by_cases h : i = k <;> simp [h]

/-! ### Frames of a sample instant (R236) -/

/-- The bytes of a frame from the bands to the status. -/
def fieldFrameRest (f : FieldDie) (m : FieldMeas) : List Byte :=
  beBytes 8 (f.bands (measBand m)).toNat ++ beBytes 8 f.tpst.toNat ++ beBytes 4 f.intest ++ beBytes 4 m.qrb.toNat ++ beBytes 8 f.qdiag ++
    encSampleBytes f.enc0 (f.cfg.getD 0 0#32) m.enc0 ++ encSampleBytes f.enc1 (f.cfg.getD 1 0#32) m.enc1 ++ beBytes 2 m.vfs.toNat ++
    beBytes 2 (cfgTag f.cfg) ++ beBytes 2 f.fstat

/-- A frame but for its check value. -/
def fieldFrameBody (f : FieldDie) (l : LaneId) (seq : Half) (m : FieldMeas) : List Byte :=
  0x5A#8 :: BitVec.ofNat 8 l.code :: (beBytes 2 seq.toNat ++ (beBytes 4 f.cmpA.toNat ++ (beBytes 4 f.cmpB.toNat ++ fieldFrameRest f m)))

theorem fieldFrameBytes_eq (f : FieldDie) (l : LaneId) (seq : Half) (m : FieldMeas) :
    fieldFrameBytes f l seq m = fieldFrameBody f l seq m ++ beBytes 2 (crc16 (fieldFrameBody f l seq m)) := by
  simp only [fieldFrameBytes, fieldFrameBody, fieldFrameRest, List.append_assoc, List.cons_append, List.nil_append]

theorem encSampleBytes_length (e : EncInt) (cfg : Word) (m : EncMeas) : (encSampleBytes e cfg m).length = 6 := by
  simp [encSampleBytes]

theorem fieldFrameBody_length (f : FieldDie) (l : LaneId) (seq : Half) (m : FieldMeas) : (fieldFrameBody f l seq m).length = 62 := by
  simp only [fieldFrameBody, fieldFrameRest, List.length_cons, List.length_append, beBytes_length, encSampleBytes_length]

section
variable (f : FieldDie) (l : LaneId) (seq : Half) (m : FieldMeas)

theorem fieldFrameBytes_length : (fieldFrameBytes f l seq m).length = 64 := by
  rw [fieldFrameBytes_eq, List.length_append, fieldFrameBody_length, beBytes_length]

theorem fieldFrameBytes_crc : beAt (fieldFrameBytes f l seq m) 62 2 = crc16 ((fieldFrameBytes f l seq m).take 62) := by
  have htake : (fieldFrameBytes f l seq m).take 62 = fieldFrameBody f l seq m := by
    rw [fieldFrameBytes_eq]
    exact List.take_left' (fieldFrameBody_length f l seq m)
  rw [htake]
  exact beAt_of_eq (c := []) (by rw [fieldFrameBytes_eq, List.append_nil]) (fieldFrameBody_length f l seq m) (crc16_lt _)

theorem fieldFrameBytes_sync : beAt (fieldFrameBytes f l seq m) 0 1 = 0x5A := by
  rw [fieldFrameBytes_eq]
  rfl

theorem fieldFrameBytes_port : beAt (fieldFrameBytes f l seq m) 1 1 = l.code := by
  rw [fieldFrameBytes_eq]
  have hcode : l.code < 256 ^ 1 := by cases l <;> decide
  rw [fieldFrameBody]
  simp only [List.cons_append, List.append_assoc]
  exact beAt_of_eq (a := [0x5A#8]) (n := 1) (by rw [beBytes_one]; rfl) rfl hcode

theorem fieldFrameBytes_seq : beAt (fieldFrameBytes f l seq m) 2 2 = seq.toNat := by
  rw [fieldFrameBytes_eq, fieldFrameBody]
  simp only [List.cons_append, List.append_assoc]
  exact beAt_of_eq (a := [0x5A#8, BitVec.ofNat 8 l.code]) (by rfl) rfl seq.isLt

theorem fieldFrameBytes_cmpA : beAt (fieldFrameBytes f l seq m) 4 4 = f.cmpA.toNat := by
  rw [fieldFrameBytes_eq, fieldFrameBody]
  simp only [List.cons_append, List.append_assoc]
  exact beAt_of_eq (a := 0x5A#8 :: BitVec.ofNat 8 l.code :: beBytes 2 seq.toNat) rfl rfl f.cmpA.isLt

theorem fieldFrameBytes_cmpB : beAt (fieldFrameBytes f l seq m) 8 4 = f.cmpB.toNat := by
  have h : fieldFrameBytes f l seq m =
      (0x5A#8 :: BitVec.ofNat 8 l.code :: (beBytes 2 seq.toNat ++ beBytes 4 f.cmpA.toNat)) ++
        (beBytes 4 f.cmpB.toNat ++ (fieldFrameRest f m ++ beBytes 2 (crc16 (fieldFrameBody f l seq m)))) := by
    simp only [fieldFrameBytes_eq, fieldFrameBody, List.cons_append, List.append_assoc]
  exact beAt_of_eq h rfl f.cmpB.isLt
end

/-- At a sample instant each port's frame is formed on the die with its sequence number, and the numbers move on. -/
theorem State.fieldSample_spec {s : State} (hup : s.fieldUp = true) (m : FieldMeas) (t : Nat) :
    s.OnlyField (s.fieldSample m t) ∧ (s.fieldSample m t).field.seqA = s.field.seqA + 1 ∧
      (s.fieldSample m t).field.seqB = s.field.seqB + 1 ∧ (s.fieldSample m t).field.seqC = s.field.seqC + 1 ∧
      ∃ g : FieldDie, (s.fieldSample m t).field.frameA = fieldFrameBytes g .a s.field.seqA m ∧
        (s.fieldSample m t).field.frameB = fieldFrameBytes g .b s.field.seqB m ∧
        (s.fieldSample m t).field.frameC = fieldFrameBytes g .c s.field.seqC m ∧ g.cmpA = s.field.cmpA ∧ g.cmpB = s.field.cmpB := by
  unfold State.fieldSample
  rw [State.upField_of_up hup]
  exact ⟨rfl, rfl, rfl, rfl, _, rfl, rfl, rfl, rfl, rfl⟩

/-! ### Comparators (R240) -/

theorem FieldDie.debounced_free {f : FieldDie} {k t : Nat} (hk : k < 32) (h : ∀ e ∈ f.bandHold, e.1 = k → e.2.2 ≠ 0 ∧ e.2.2 ≤ t)
    (cmpB on : Bool) :
    f.debounced k cmpB on t =
      if cmpB then { f with cmpB := bvSet f.cmpB k 1 (b2n on) } else { f with cmpA := bvSet f.cmpA k 1 (b2n on) } := by
  refine if_neg ?_
  rintro (h32 | hheld)
  · omega
  · obtain ⟨e, he, hek⟩ := List.any_eq_true.mp hheld
    simp only [Bool.and_eq_true, Bool.or_eq_true, beq_iff_eq, decide_eq_true_eq] at hek
    obtain ⟨h0, hle⟩ := h e he hek.1
    omega

/-! ### Test pulses (R243, R244) -/

/-- The die with the gap of source `k` begun at `t`. -/
def FieldDie.gapBegun (f : FieldDie) (k t : Nat) : FieldDie :=
  { f with gap := bvSet f.gap k 1 1, gapT := (k, t) :: f.gapT.filter fun e => e.1 != k,
           bandHold := f.bandHold.filter (fun e => !(f.checkedBy k).contains e.1) ++
             (f.checkedBy k).map fun i => (i, bvField f.band (2 * i) 2, 0) }

/-- A hold of source `k`'s inputs goes on for 50 µs. -/
def FieldDie.holdEnded (f : FieldDie) (k t : Nat) (e : Nat × Nat × Nat) : Nat × Nat × Nat :=
  if (f.checkedBy k).contains e.1 then (e.1, e.2.1, t + 50000) else e

/-- The die with the gap of source `k` ended at `t`. -/
def FieldDie.gapEnded (f : FieldDie) (k t : Nat) : FieldDie :=
  { f with gap := bvSet f.gap k 1 0, gapT := f.gapT.filter (fun e => e.1 != k), bandHold := f.bandHold.map (f.holdEnded k t) }

/-- The instants at which the gap of source `k` begins. -/
def FieldDie.gapDue (f : FieldDie) (k t : Nat) : Prop :=
  f.periodT ≤ t ∧ (t - f.periodT) % (f.tpCfg 8 8 * 1000000) = k * (f.tpCfg 8 8 * 1000000) / 8

theorem FieldDie.gapBegin_of_due {f : FieldDie} {k t : Nat} (hk : k < 8) (ha : f.alive = true) (hen : getField (f.tpCfg 16 8) k 1 = 1)
    (hdue : f.gapDue k t) : f.gapBegin k t = f.gapBegun k t := by
  obtain ⟨hle, hmod⟩ := hdue
  refine if_neg ?_
  rintro (h | h | h | h | h)
  · omega
  · rw [ha] at h; exact absurd h (by decide)
  · omega
  · omega
  · exact h hmod

theorem FieldDie.gapBegin_of_not_due {f : FieldDie} {k t : Nat}
    (h : f.alive = false ∨ getField (f.tpCfg 16 8) k 1 = 0 ∨ t < f.periodT ∨
      (t - f.periodT) % (f.tpCfg 8 8 * 1000000) ≠ k * (f.tpCfg 8 8 * 1000000) / 8) : f.gapBegin k t = f := if_pos (.inr h)

theorem FieldDie.gapFinish_of_begun {f : FieldDie} {k t0 : Nat} (h : (k, t0) ∈ f.gapT) :
    f.gapFinish k (t0 + f.tpCfg 0 3 * 100000) = f.gapEnded k (t0 + f.tpCfg 0 3 * 100000) :=
  if_pos (List.any_eq_true.mpr ⟨_, h, by simp⟩)

theorem FieldDie.gapEnded_gap (f : FieldDie) (k t : Nat) {j : Nat} (hj : j < 8) :
    (f.gapEnded k t).gap.getLsbD j = (!decide (j = k) && f.gap.getLsbD j) := getLsbD_bvSet_zero f.gap hj

theorem FieldDie.gapBegun_gap (f : FieldDie) (k t : Nat) {j : Nat} (hj : j < 8) :
    (f.gapBegun k t).gap.getLsbD j = (decide (j = k) || f.gap.getLsbD j) := getLsbD_bvSet_one f.gap hj

theorem FieldDie.holdEnded_cases (f : FieldDie) (k t : Nat) (e : Nat × Nat × Nat) :
    (f.checkedBy k).contains (f.holdEnded k t e).1 = true ∧ (f.holdEnded k t e).2.2 = t + 50000 ∨ f.holdEnded k t e = e := by
  unfold FieldDie.holdEnded
  split
  · next h => exact .inl ⟨h, rfl⟩
  · exact .inr rfl

/-- Periods in a row that input `k` has passed. -/
def FieldDie.passes (f : FieldDie) (k : Nat) : Nat := match f.clean.find? (fun e => e.1 == k) with | some e => e.2 | none => 0

/-- The die after input `k` passed a period with a fault standing. -/
def FieldDie.passed (f : FieldDie) (k : Nat) : FieldDie :=
  if 2 ≤ f.passes k + 1 then { f with tpst := bvSet f.tpst (2 * k) 2 0, clean := f.clean.filter fun e => e.1 != k }
  else { f with clean := (k, f.passes k + 1) :: f.clean.filter fun e => e.1 != k }

theorem FieldDie.periodEnd_eq (f : FieldDie) (k : Nat) (o : PulseObs) :
    f.periodEnd k o =
      if 32 ≤ k ∨ f.inCfg k 15 1 = 0 then f
      else if pulseCode o ≠ 0 then { f with tpst := bvSet f.tpst (2 * k) 2 (pulseCode o), clean := f.clean.filter fun e => e.1 != k }
      else if bvField f.tpst (2 * k) 2 = 0 then f
      else f.passed k := rfl

section
variable {f : FieldDie} {k : Nat} (hk : k < 32) (hen : f.inCfg k 15 1 = 1) {o : PulseObs}
include hk hen

theorem FieldDie.periodEnd_of_fault (hc : pulseCode o ≠ 0) :
    f.periodEnd k o = { f with tpst := bvSet f.tpst (2 * k) 2 (pulseCode o), clean := f.clean.filter fun e => e.1 != k } := by
  rw [FieldDie.periodEnd_eq, if_neg (by omega), if_pos hc]

theorem FieldDie.periodEnd_of_no_fault (hc : pulseCode o = 0) (h : bvField f.tpst (2 * k) 2 = 0) : f.periodEnd k o = f := by
  rw [FieldDie.periodEnd_eq, if_neg (by omega), if_neg (by omega), if_pos h]

theorem FieldDie.periodEnd_of_pass (hc : pulseCode o = 0) (h : bvField f.tpst (2 * k) 2 ≠ 0) : f.periodEnd k o = f.passed k := by
  rw [FieldDie.periodEnd_eq, if_neg (by omega), if_neg (by omega), if_neg h]

/-- A period's end shows in the input's own code alone. -/
theorem FieldDie.periodEnd_kept :
    f.periodEnd k o = { f with tpst := (f.periodEnd k o).tpst, clean := (f.periodEnd k o).clean } ∧
      ∀ j, j < 32 → j ≠ k → bvField (f.periodEnd k o).tpst (2 * j) 2 = bvField f.tpst (2 * j) 2 := by
  have hother : ∀ v j, j < 32 → j ≠ k → bvField (bvSet f.tpst (2 * k) 2 v) (2 * j) 2 = bvField f.tpst (2 * j) 2 := fun v j hj hne =>
    bvField_bvSet_ne _ _ _ _ _ _ (by omega) (by omega)
  by_cases hc : pulseCode o = 0
  · by_cases h : bvField f.tpst (2 * k) 2 = 0
    · rw [FieldDie.periodEnd_of_no_fault hk hen hc h]
      exact ⟨rfl, fun _ _ _ => rfl⟩
    · rw [FieldDie.periodEnd_of_pass hk hen hc h, FieldDie.passed]
      split
      · exact ⟨rfl, hother _⟩
      · exact ⟨rfl, fun _ _ _ => rfl⟩
  · rw [FieldDie.periodEnd_of_fault hk hen hc]
    exact ⟨rfl, hother _⟩

theorem FieldDie.periodEnd_second_pass (hc : pulseCode o = 0) (hone : (k, 1) ∈ f.clean) (hall : ∀ e ∈ f.clean, e.1 = k → e.2 = 1) :
    bvField (f.periodEnd k o).tpst (2 * k) 2 = 0 := by
  by_cases h : bvField f.tpst (2 * k) 2 = 0
  · rw [FieldDie.periodEnd_of_no_fault hk hen hc h, h]
  · have hpasses : f.passes k = 1 := by
      obtain ⟨e, he⟩ := Option.isSome_iff_exists.mp ((List.find?_isSome (p := fun e => e.1 == k)).mpr ⟨_, hone, by simp⟩)
      have hek : e.1 = k := by simpa using List.find?_some he
      rw [FieldDie.passes, he]
      exact hall e (List.mem_of_find?_eq_some he) hek
    rw [FieldDie.periodEnd_of_pass hk hen hc h, FieldDie.passed, hpasses, if_pos (by decide)]
    exact bvField_bvSet_same _ _ _ _ (by omega)
end

theorem pulseCode_lt (o : PulseObs) : pulseCode o < 4 := by
  unfold pulseCode
  repeat' split
  all_goals decide

/-! ### Output tests and faults (R252, R253) -/

/-- The die with a test of output `k` begun. -/
def FieldDie.offTestBegun (f : FieldDie) (k : Nat) (low : Bool) (t : Nat) : FieldDie :=
  { f with offTest := (k, low, t) :: f.offTest.filter fun e => e.1 != k }

theorem State.offTestBegin_of_due {s : State} {k t : Nat} {low : Bool} (hup : s.fieldUp = true) (ha : s.field.alive = true) (hk : k < 16)
    (hd : s.driven k = true) (hen : s.field.qCfg k 7 1 = 1) (hl : s.field.isLow k = false) (hov : s.field.ovOff.getLsbD k = false)
    (hle : s.field.periodT ≤ t)
    (hmod : (t - s.field.periodT) % (s.field.qCfg k 8 8 * 10000000) = k * (s.field.qCfg k 8 8 * 10000000) / 16)
    (hlow : low = (s.field.qCfg k 1 1 == 1 && (t - s.field.periodT) / (s.field.qCfg k 8 8 * 10000000) % 2 == 1)) :
    s.offTestBegin k low t = s.modField (·.offTestBegun k low t) := by
  refine (if_pos ?_).trans (State.upField_of_up hup _)
  simp only [hd, ha, hen, hk, hl, hov, hle, hmod, ← hlow, beq_self_eq_true, decide_true, Bool.not_false, Bool.and_true]

theorem State.conducts_of_tested {s : State} {k j t : Nat} {low : Bool} (hj : j = if low then k + 1 else k) :
    (s.modField (·.offTestBegun k low t)).conducts j = false := by
  have hany : ((s.modField (·.offTestBegun k low t)).field.offTest.any fun e => if e.2.1 then e.1 + 1 == j else e.1 == j) = true := by
    refine List.any_eq_true.mpr ⟨_, List.mem_cons_self, ?_⟩
    subst hj
    cases low <;> simp
  unfold State.conducts
  dsimp only
  rw [hany]
  exact Bool.and_false _

theorem State.offTestEnd_of_begun {s : State} {k from_ : Nat} (hup : s.fieldUp = true) (ha : s.field.alive = true)
    (hd : s.driven k = true) (h : s.field.offTest = [(k, false, from_)]) (rbOn : Bool) :
    s.offTestEnd k rbOn [] false (from_ + s.field.qCfg k 16 3 * 100000) =
      s.modField fun f => { f with offTest := f.offTest.filter fun e => e.1 != k, gapMiss := bvSet f.gapMiss k 1 (b2n rbOn),
                                   crossBy := f.crossBy.filter fun e => e.2 != k } := by
  have hfind : s.field.offTest.find? (fun e => e.1 == k && from_ + s.field.qCfg k 16 3 * 100000 == e.2.2 + s.field.qCfg k 16 3 * 100000) =
      some (k, false, from_) := by
    rw [h, List.find?_cons_of_pos (by simp)]
  unfold State.offTestEnd
  rw [hfind]
  dsimp only
  rw [State.upField_of_up hup, hd]
  refine congrArg (fun f => { s with field := f }) (if_pos ?_)
  exact ha

theorem State.openLoad_of_on {s : State} {k : Nat} (hup : s.fieldUp = true) (ha : s.field.alive = true) (hk : k < 16)
    (hd : s.driven k = true) (hen : s.field.qCfg k 6 1 = 1) (hov : s.field.ovOff.getLsbD k = false) :
    s.openLoad k = s.modField fun f => { f with openL := bvSet f.openL k 1 1 } :=
  (if_pos ⟨hk, hd, ha, hen, hov⟩).trans (State.upField_of_up hup _)

theorem State.overload_of_on {s : State} {k : Nat} (hup : s.fieldUp = true) (ha : s.field.alive = true) (hk : k < 16)
    (hd : s.driven k = true) :
    s.overload k = s.modField fun f => { f with ovOff := bvSet f.ovOff k 1 1, ovSince := f.ovSince.filter fun e => e.1 != k } :=
  (if_pos ⟨hk, hd, ha⟩).trans (State.upField_of_up hup _)

theorem State.conducts_of_overload {s : State} {k : Nat} (h : s.field.ovOff.getLsbD k = true) : s.conducts k = false := by
  simp [State.conducts, h]

theorem State.overloadRelease_of_rested {s : State} {k t : Nat} (hup : s.fieldUp = true) (hk : k < 16) (hd : s.driven k = false)
    (h : ∃ e ∈ s.field.ovSince, e.1 = k ∧ e.2 + 1000000 ≤ t) :
    s.overloadRelease k t =
      s.modField fun f => { f with ovOff := bvSet f.ovOff k 1 0, ovSince := f.ovSince.filter fun e => e.1 != k } := by
  obtain ⟨e, he, hek, hle⟩ := h
  exact (if_pos ⟨hk, hd, List.any_eq_true.mpr ⟨e, he, by simp [hek, hle]⟩⟩).trans (State.upField_of_up hup _)

theorem State.overloadRelease_of_driven {s : State} {k : Nat} (hd : s.driven k = true) (t : Nat) : s.overloadRelease k t = s :=
  if_neg (by simp [hd])

theorem State.overloadRelease_early {s : State} {k t : Nat} (h : ∀ e ∈ s.field.ovSince, e.1 = k → t < e.2 + 1000000) :
    s.overloadRelease k t = s := by
  refine if_neg ?_
  rintro ⟨-, -, hany⟩
  obtain ⟨e, he, hek⟩ := List.any_eq_true.mp hany
  simp only [Bool.and_eq_true, beq_iff_eq, decide_eq_true_eq] at hek
  have := h e he hek.1
  omega

theorem State.shortVf_of_off {s : State} {k : Nat} (hup : s.fieldUp = true) (hk : k < 16) (hd : s.driven k = false)
    (h : ∀ e ∈ s.field.crossBy, e.1 ≠ k) : s.shortVf k = s.modField fun f => { f with shortV := bvSet f.shortV k 1 1 } := by
  have hany : s.field.crossBy.any (fun e => e.1 == k) = false := by
    rw [List.any_eq_false]
    exact fun e he => by simpa using h e he
  exact (if_pos ⟨hk, hd, hany⟩).trans (State.upField_of_up hup _)

/-! ### The obligation -/

theorem testPulseGaps {s : State} {k tm : Nat} (hup : s.fieldUp = true) (hk : k < 8) (ha : s.field.alive = true)
    (hen : getField (s.field.tpCfg 16 8) k 1 = 1) (hdue : s.field.gapDue k tm) :
    ∃ t u, exec (.testPulseGap k tm) s = .next t ∧ exec (.testPulseGapEnd k (tm + s.field.tpCfg 0 3 * 100000)) t = .next u ∧
      t = (s.at tm).modField (·.gapBegun k tm) ∧
      u = ((t.at (tm + s.field.tpCfg 0 3 * 100000)).modField (·.gapEnded k (tm + s.field.tpCfg 0 3 * 100000))) := by
  have hbegin : s.field.gapBegin k tm = s.field.gapBegun k tm := FieldDie.gapBegin_of_due hk ha hen hdue
  refine ⟨_, _, rfl, rfl, ?_, ?_⟩
  · rw [State.upField_of_up (by exact hup)]
    exact congrArg (fun f => { s.at tm with field := f }) hbegin
  · have hfirst : (s.at tm).upField (·.gapBegin k tm) = (s.at tm).modField (·.gapBegun k tm) := by
      rw [State.upField_of_up (by exact hup)]
      exact congrArg (fun f => { s.at tm with field := f }) hbegin
    rw [hfirst, State.upField_of_up (by exact hup)]
    exact congrArg (fun f => { ((s.at tm).modField (·.gapBegun k tm)).at (tm + s.field.tpCfg 0 3 * 100000) with field := f })
      (FieldDie.gapFinish_of_begun (f := s.field.gapBegun k tm) (t0 := tm) List.mem_cons_self)

/-- Settles O40: every row of the die is an update of the fields it names, at its instant and under its condition. -/
theorem samplesTestsAndOutputFaultsStayInTheDie : Obligations.SamplesTestsAndOutputFaultsStayInTheDie := by
  unfold Obligations.SamplesTestsAndOutputFaultsStayInTheDie
  refine ⟨⟨?sample, ?comparator, ?gap, ?noGap, ?period, ?gapEnd⟩, ?offTest, ?offTestEnd, ?driven, ?undriven⟩
  case sample =>
    intro s m tm hup
    obtain ⟨ho, ha, hb, hc, g, hfa, hfb, hfc, hA, hB⟩ := State.fieldSample_spec (s := s.at tm) hup m tm
    refine ⟨_, rfl, ho, ha, hb, hc, ?_, ?_, ?_, ?_⟩
    · rw [hfa, hfb, hfc]
      simp only [List.forall_mem_cons, fieldFrameBytes_length, fieldFrameBytes_sync, fieldFrameBytes_port, fieldFrameBytes_crc]
      simp [LaneId.code, LaneId.idx]
    · rw [hfa, fieldFrameBytes_seq]; rfl
    · rw [hfa, fieldFrameBytes_cmpA, hA]; rfl
    · rw [hfa, fieldFrameBytes_cmpB, hB]; rfl
  case comparator =>
    intro s k tm on hup hk hh
    have hfree := FieldDie.debounced_free (f := s.field) hk hh
    have hA : (s.at tm).upField (·.debounced k false on tm) = (s.at tm).modField fun f => { f with cmpA := bvSet f.cmpA k 1 (b2n on) } := by
      rw [State.upField_of_up (by exact hup)]
      exact congrArg (fun f => { s.at tm with field := f }) (hfree false on)
    have hB : (s.at tm).upField (·.debounced k true on tm) = (s.at tm).modField fun f => { f with cmpB := bvSet f.cmpB k 1 (b2n on) } := by
      rw [State.upField_of_up (by exact hup)]
      exact congrArg (fun f => { s.at tm with field := f }) (hfree true on)
    refine ⟨_, _, done_of_eq hA, done_of_eq hB, rfl, rfl, fun j hj => ⟨?_, ?_⟩⟩
    · exact getLsbD_bvSet_bit _ _ hj
    · exact getLsbD_bvSet_bit _ _ hj
  case gap =>
    intro s k tm hup hk ha hen hle hmod
    obtain ⟨t, u, ht, hu, htv, huv⟩ := testPulseGaps hup hk ha hen ⟨hle, hmod⟩
    have htg : ∀ j, j < 8 → t.field.gap.getLsbD j = (decide (j = k) || s.field.gap.getLsbD j) := fun j hj => by
      rw [htv]; exact FieldDie.gapBegun_gap _ _ _ hj
    have hug : ∀ j, j < 8 → u.field.gap.getLsbD j = (!decide (j = k) && t.field.gap.getLsbD j) := fun j hj => by
      rw [huv]; exact FieldDie.gapEnded_gap _ _ _ hj
    have htk : t.field.gap.getLsbD k = true := by rw [htg k hk]; simp
    have huk : u.field.gap.getLsbD k = false := by rw [hug k hk]; simp
    refine ⟨t, u, ht, hu, ?_, ?_, htk, ?_, huk, ?_, ?_, ?_, fun j hj hne => ⟨?_, ?_⟩⟩
    · rw [htv]; rfl
    · rw [huv, htv]; rfl
    · simp [State.testOut, htk]
    · have hup' : u.fieldUp = true := by rw [huv, htv]; exact hup
      have ha' : u.field.alive = true := by rw [huv, htv]; exact ha
      have hen' : getField (u.field.tpCfg 16 8) k 1 = 1 := by rw [huv, htv]; exact hen
      rw [State.testOut, hup', ha', hen', huk, decide_eq_true hk]
      rfl
    · rw [huv, htv]; rfl
    · rw [huv, htv]; rfl
    · rw [htg j hj]; simp [hne]
    · rw [hug j hj, htg j hj]; simp [hne]
  case noGap =>
    intro s k tm h
    refine ⟨_, rfl, ?_⟩
    unfold State.upField
    split
    · exact congrArg (fun f => { s.at tm with field := f }) (FieldDie.gapBegin_of_not_due (f := s.field) h)
    · rfl
  case period =>
    intro s k o hup hk hen
    obtain ⟨hform, hother⟩ := FieldDie.periodEnd_kept (f := s.field) (o := o) hk hen
    refine ⟨s.modField (·.periodEnd k o), done_of_eq (State.upField_of_up hup _), ?_, fun hc => ?_, fun hc hone hall => ?_, hother⟩
    · exact congrArg (fun f => { s with field := f }) hform
    · rw [State.modField_field, FieldDie.periodEnd_of_fault hk hen hc, bvField_bvSet_same _ _ _ _ (by omega)]
      exact Nat.mod_eq_of_lt (pulseCode_lt o)
    · exact FieldDie.periodEnd_second_pass hk hen hc hone hall
  case gapEnd =>
    intro s k t0 hup hk hin
    have hend := FieldDie.gapFinish_of_begun hin
    generalize t0 + s.field.tpCfg 0 3 * 100000 = tm at *
    have hrun : (s.at tm).upField (·.gapFinish k tm) = (s.at tm).modField (·.gapEnded k tm) := by
      rw [State.upField_of_up (by exact hup)]
      exact congrArg (fun f => { s.at tm with field := f }) hend
    refine ⟨_, done_of_eq hrun, rfl, rfl, ?_, fun j hj hne => ?_, fun e he => ?_⟩
    · exact (FieldDie.gapEnded_gap _ _ _ hk).trans (by simp)
    · exact (FieldDie.gapEnded_gap _ _ _ hj).trans (by simp [hne])
    · obtain ⟨e0, he0, rfl⟩ := List.mem_map.mp he
      rcases s.field.holdEnded_cases k tm e0 with h | h
      · exact .inl h
      · exact .inr (by rw [State.at_field, h]; exact he0)
  case offTest =>
    intro s k tm low hup ha hk hd hen hl hov hle hmod hlow
    have hrun := State.offTestBegin_of_due (s := s.at tm) hup ha hk hd hen hl hov hle hmod hlow
    refine ⟨_, done_of_eq hrun, rfl, List.mem_cons_self, ?_, ?_⟩
    · rintro rfl; exact State.conducts_of_tested rfl
    · rintro rfl; exact State.conducts_of_tested rfl
  case offTestEnd =>
    intro s k from_ rbOn hup ha hk hd ht
    have hrun := State.offTestEnd_of_begun (s := s.at (from_ + s.field.qCfg k 16 3 * 100000)) hup ha hd ht rbOn
    refine ⟨_, done_of_eq hrun, rfl, ?_, fun j hj => getLsbD_bvSet_bit _ _ hj⟩
    show s.field.offTest.filter _ = []
    rw [ht]
    simp
  case driven =>
    intro s k hup ha hk hd
    refine ⟨fun hen hov => ?_, ?_, fun tm => ?_⟩
    · exact ⟨_, done_of_eq (State.openLoad_of_on hup ha hk hd hen hov), rfl, fun j hj => getLsbD_bvSet_one _ hj⟩
    · refine ⟨_, done_of_eq (State.overload_of_on hup ha hk hd), rfl, State.conducts_of_overload ?_, fun j hj => getLsbD_bvSet_one _ hj⟩
      exact (getLsbD_bvSet_one _ hk).trans (by simp)
    · exact ⟨_, done_of_eq (State.overloadRelease_of_driven (s := s.at tm) hd tm), rfl⟩
  case undriven =>
    intro s k hup hk hd
    refine ⟨fun h => ?_, fun tm h => ?_, fun tm h => ?_⟩
    · exact ⟨_, done_of_eq (State.shortVf_of_off hup hk hd h), rfl, fun j hj => getLsbD_bvSet_one _ hj⟩
    · exact ⟨_, done_of_eq (State.overloadRelease_of_rested (s := s.at tm) hup hk hd h), rfl, fun j hj => getLsbD_bvSet_zero _ hj⟩
    · exact ⟨_, done_of_eq (State.overloadRelease_early (s := s.at tm) h), rfl⟩

end Sys2Proof.Machine
end
section
/-! PROOFS. The hub's registers, its rings' stores, and what recorder and gateway leave of them. -/

namespace Sys2Proof.Machine

/-! ### Registers of the hub that stand -/

theorem Hub.RegsKept.refl (h : Hub) (as : List Nat) : h.RegsKept h as := fun _ _ => rfl

theorem Hub.RegsKept.trans {h k m : Hub} {as : List Nat} (a : h.RegsKept k as) (b : k.RegsKept m as) : h.RegsKept m as :=
  fun x hx => (b x hx).trans (a x hx)

theorem Hub.RegsKept.mono {h k : Hub} {as bs : List Nat} (a : h.RegsKept k as) (hs : ∀ x ∈ as, x ∈ bs) : h.RegsKept k bs :=
  fun x hx => a x fun hm => hx (hs x hm)

theorem Hub.regsKept_of_reg_eq {h k : Hub} (e : k.reg = h.reg) (as : List Nat) : h.RegsKept k as := fun a _ => by
  unfold Hub.rg; rw [e]

theorem Hub.regsKept_setRg (h : Hub) {a : Nat} {as : List Nat} (v : Word) (ha : a ∈ as) : h.RegsKept (h.setRg a v) as :=
  fun _ hx => Hub.rg_setRg_ne h v fun e => hx (e ▸ ha)

theorem Hub.regsKept_fset (h : Hub) {f : Fld} {as : List Nat} (v : Nat) (ha : f.addr ∈ as) : h.RegsKept (h.fset f v) as :=
  h.regsKept_setRg _ ha

theorem Hub.regsKept_fsat (h : Hub) {f : Fld} {as : List Nat} (n : Nat) (ha : f.addr ∈ as) : h.RegsKept (h.fsat f n) as :=
  h.regsKept_fset _ ha

theorem Hub.RegsKept.fget {h k : Hub} {as : List Nat} (a : h.RegsKept k as) {f : Fld} (hf : f.addr ∉ as) : k.fget f = h.fget f := by
  unfold Hub.fget; rw [a _ hf]

theorem Hub.RegsKept.on {h k : Hub} {as : List Nat} (a : h.RegsKept k as) {f : Fld} (hf : f.addr ∉ as) : k.on f = h.on f := by
  unfold Hub.on; rw [a.fget hf]

theorem Hub.fget_of_reg_eq {h k : Hub} (e : k.reg = h.reg) (f : Fld) : k.fget f = h.fget f := by
  unfold Hub.fget Hub.rg; rw [e]

theorem Hub.on_of_reg_eq {h k : Hub} (e : k.reg = h.reg) (f : Fld) : k.on f = h.on f := by
  unfold Hub.on; rw [Hub.fget_of_reg_eq e]

theorem Hub.on_fset_one (h : Hub) (f : Fld) (hlo : f.lo + 1 ≤ 32) (hw : f.w = 1) : (h.fset f 1).on f = true := by
  unfold Hub.on; rw [Hub.fget_fset_same _ _ _ (by omega), hw]; rfl

theorem Hub.on_fset_zero (h : Hub) (f : Fld) (hlo : f.lo + f.w ≤ 32) : (h.fset f 0).on f = false := by
  unfold Hub.on; rw [Hub.fget_fset_same _ _ _ hlo, Nat.zero_mod]; rfl

theorem Hub.on_fset_bits (h : Hub) {f g : Fld} (v : Nat) (ha : g.addr = f.addr) (hg : g.lo + g.w ≤ 32)
    (hd : g.lo + g.w ≤ f.lo ∨ f.lo + f.w ≤ g.lo) : (h.fset f v).on g = h.on g := by
  unfold Hub.on; rw [Hub.fget_fset_bits _ _ ha hg hd]

theorem Hub.fget_fsat_same (h : Hub) (f : Fld) (hlo : f.lo + f.w ≤ 32) : (h.fsat f 1).fget f = satInc (ones f.w) (h.fget f) := by
  have hlt : h.fget f < 2 ^ f.w := getField_lt _ _ _
  have hones : ones f.w = 2 ^ f.w - 1 := rfl
  unfold Hub.fsat
  rw [Hub.fget_fset_same _ _ _ hlo, satAdd, satInc]
  split
  · rw [if_pos (by omega), Nat.mod_eq_of_lt (by omega)]
  · by_cases hf : h.fget f < ones f.w
    · rw [if_pos hf, Nat.mod_eq_of_lt (by omega)]; omega
    · rw [if_neg hf, Nat.mod_eq_of_lt (by omega)]

/-! ### Submissions (R437) -/

theorem Hub.submit_rings (h : Hub) (x : RecSub) : (h.submit x).rings = h.rings := by rw [(h.submit_same x).1]

theorem Hub.recAt_same (h : Hub) (t blk cls rule : Nat) (data : List (Nat × Nat)) : h.SameButRec (h.recAt t blk cls rule data) :=
  h.submit_same _

theorem Hub.recAt_regsKept (h : Hub) (t blk cls rule : Nat) (data : List (Nat × Nat)) {as : List Nat} (ha : REC_STAT ∈ as) :
    h.RegsKept (h.recAt t blk cls rule data) as :=
  (h.recAt_same t blk cls rule data).2.mono fun x hx => by rw [List.mem_singleton.mp hx]; exact ha

theorem Hub.recAt_rings (h : Hub) (t blk cls rule : Nat) (data : List (Nat × Nat)) : (h.recAt t blk cls rule data).rings = h.rings :=
  h.submit_rings _

/-! ### In the hub, registers and the recorder alone -/

theorem Hub.OnlyRegs.refl (h : Hub) (as : List Nat) : h.OnlyRegs h as := ⟨rfl, .refl h as⟩

theorem Hub.OnlyRegs.trans {h k m : Hub} {as : List Nat} (a : h.OnlyRegs k as) (b : k.OnlyRegs m as) : h.OnlyRegs m as := by
  obtain ⟨hk, hkept⟩ := a
  obtain ⟨km, mkept⟩ := b
  refine ⟨?_, hkept.trans mkept⟩
  rw [hk] at km
  exact km

theorem Hub.onlyRegs_setRg (h : Hub) {a : Nat} {as : List Nat} (v : Word) (ha : a ∈ as) : h.OnlyRegs (h.setRg a v) as :=
  ⟨rfl, h.regsKept_setRg v ha⟩

theorem Hub.onlyRegs_fset (h : Hub) {f : Fld} {as : List Nat} (v : Nat) (ha : f.addr ∈ as) : h.OnlyRegs (h.fset f v) as :=
  ⟨rfl, h.regsKept_fset v ha⟩

theorem Hub.onlyRegs_fsat (h : Hub) {f : Fld} {as : List Nat} (n : Nat) (ha : f.addr ∈ as) : h.OnlyRegs (h.fsat f n) as :=
  ⟨rfl, h.regsKept_fsat n ha⟩

/-! ### A ring's store -/

theorem Hub.ring_modRing_same (h : Hub) {k : Nat} (hk : k < h.rings.length) (f : RingInt → RingInt) :
    (h.modRing k f).ring k = f (h.ring k) := getD_listMod_same hk f ringReset

theorem Hub.ring_modRing_ne (h : Hub) {k j : Nat} (hj : j ≠ k) (f : RingInt → RingInt) : (h.modRing k f).ring j = h.ring j :=
  getD_listMod_ne _ hj f ringReset

theorem Hub.modRing_length (h : Hub) (k : Nat) (f : RingInt → RingInt) : (h.modRing k f).rings.length = h.rings.length :=
  length_listMod _ _ _

@[simp] theorem Hub.modRing_reg (h : Hub) (k : Nat) (f : RingInt → RingInt) : (h.modRing k f).reg = h.reg := rfl
@[simp] theorem Hub.modRing_rg (h : Hub) (k : Nat) (f : RingInt → RingInt) (a : Nat) : (h.modRing k f).rg a = h.rg a := rfl
@[simp] theorem Hub.modRing_fget (h : Hub) (k : Nat) (f : RingInt → RingInt) (g : Fld) : (h.modRing k f).fget g = h.fget g := rfl
@[simp] theorem Hub.modRing_on (h : Hub) (k : Nat) (f : RingInt → RingInt) (g : Fld) : (h.modRing k f).on g = h.on g := rfl

theorem Hub.ring_of_rings_eq {h k : Hub} (e : k.rings = h.rings) (j : Nat) : k.ring j = h.ring j := by
  unfold Hub.ring; rw [e]

@[simp] theorem Hub.fset_ring (h : Hub) (f : Fld) (v j : Nat) : (h.fset f v).ring j = h.ring j := rfl
@[simp] theorem Hub.setRg_ring (h : Hub) (a : Nat) (v : Word) (j : Nat) : (h.setRg a v).ring j = h.ring j := rfl
@[simp] theorem Hub.fsat_ring (h : Hub) (f : Fld) (n j : Nat) : (h.fsat f n).ring j = h.ring j := rfl

theorem State.upHub_of_up {s : State} (h : s.hub.rst.held = false) (f : Hub → Hub) : s.upHub f = s.modHub f :=
  if_neg (by simp [h])

/-! ### The gateway and delivery leave every register but a port's counts (R410, R413) -/

/-- Only the gateway's counts of its ports may have changed. -/
def Hub.CountsOnly (h k : Hub) : Prop := ∀ a, (∀ p, a ≠ SGW_CANCNT p) → k.rg a = h.rg a

theorem Hub.CountsOnly.trans {h k m : Hub} (a : h.CountsOnly k) (b : k.CountsOnly m) : h.CountsOnly m :=
  fun x hx => (b x hx).trans (a x hx)

theorem Hub.sgwTake_counts (h : Hub) (i : Nat) (e : List Word) (payload : List Byte) (t : Nat) : h.CountsOnly (h.sgwTake i e payload t) := by
  intro a ha
  unfold Hub.sgwTake
  split
  · rfl
  · split
    · exact Hub.rg_fset_ne _ _ (ha _)
    · dsimp only
      split
      · exact Hub.rg_fset_ne h (f := SGW_CANCNT_SAT _) _ (ha _)
      · rfl

theorem Hub.countsOnly_foldl {α : Type} (f : Hub → α → Hub) (hf : ∀ (h : Hub) x, h.CountsOnly (f h x)) (xs : List α) (h : Hub) :
    h.CountsOnly (xs.foldl f h) := by
  induction xs generalizing h with
  | nil => exact fun _ _ => rfl
  | cons x xs ih => exact (hf h x).trans (ih _)

theorem Hub.sgwTelegram_counts (h : Hub) (kind conn : Nat) (bytes : List Byte) (t : Nat) : h.CountsOnly (h.sgwTelegram kind conn bytes t) := by
  unfold Hub.sgwTelegram
  split
  · unfold Hub.sgwSource
    split
    · exact fun _ _ => rfl
    · exact Hub.countsOnly_foldl _ (fun h x => h.sgwTake_counts _ _ _ _) _ _
  · exact fun _ _ => rfl

theorem Hub.deliver_reg (h : Hub) (conn : Nat) (bytes : List Byte) (t : Nat) : (h.deliver conn bytes t).reg = h.reg := by
  unfold Hub.deliver
  dsimp only
  split
  · rfl
  · split
    · split <;> rfl
    · rfl

theorem Hub.received_counts (h : Hub) (conn : Nat) (bytes : List Byte) (t : Nat) : h.CountsOnly (h.received conn bytes t) :=
  (h.sgwTelegram_counts 2 conn bytes t).trans fun a _ => Hub.regsKept_of_reg_eq (Hub.deliver_reg _ _ _ _) [] a List.not_mem_nil

/-! ### Carrier events (R44, R179) -/

theorem State.discardUnread_frame (s : State) :
    s.OnlyHub s.discardUnread ∧ s.discardUnread.hub.reg = s.hub.reg ∧ (∀ l, s.discardUnread.lane l = s.lane l) := by
  have hstep : ∀ (ls : List LaneId) (u : State), s.OnlyHub u → u.hub.reg = s.hub.reg → (∀ l, u.lane l = s.lane l) →
      let v := ls.foldl (fun (s : State) l =>
        if (s.lane l).sitReady || (s.lane l).easy then s.modHub (·.modMbx l fun (m : Mailbox) => { m with inTlg := [] }) else s) u
      s.OnlyHub v ∧ v.hub.reg = s.hub.reg ∧ ∀ l, v.lane l = s.lane l := by
    intro ls
    induction ls with
    | nil => exact fun u ho hr hl => ⟨ho, hr, hl⟩
    | cons l ls ih =>
      intro u ho hr hl
      rw [List.foldl_cons]
      refine ih _ ?_ ?_ fun k => ?_
      · split
        · unfold State.OnlyHub at ho ⊢
          rw [ho]; rfl
        · exact ho
      · split
        · rw [State.modHub_hub, Hub.modMbx_reg, hr]
        · exact hr
      · split
        · rw [State.modHub_lane, hl]
        · exact hl k
  exact hstep allLanes s rfl rfl fun _ => rfl

end Sys2Proof.Machine
end
section
/-! PROOFS. Ring ratings, announcements, breaks and unwraps (R293, R301, R304 to R313). -/

namespace Sys2Proof.Machine

/-! ### Fields of a ring's registers -/

/-- Fields of one register that do not overlap; the conditions compute. -/
theorem Hub.fget_fset_apart (h : Hub) {f g : Fld} (v : Nat) (ha : g.addr = f.addr) (hg : Nat.ble (g.lo + g.w) 32 = true)
    (hd : (Nat.ble (g.lo + g.w) f.lo || Nat.ble (f.lo + f.w) g.lo) = true) : (h.fset f v).fget g = h.fget g := by
  rw [Bool.or_eq_true] at hd
  exact Hub.fget_fset_bits h v ha (Nat.le_of_ble_eq_true hg) (hd.imp Nat.le_of_ble_eq_true Nat.le_of_ble_eq_true)

theorem Hub.on_fset_apart (h : Hub) {f g : Fld} (v : Nat) (ha : g.addr = f.addr) (hg : Nat.ble (g.lo + g.w) 32 = true)
    (hd : (Nat.ble (g.lo + g.w) f.lo || Nat.ble (f.lo + f.w) g.lo) = true) : (h.fset f v).on g = h.on g := by
  unfold Hub.on; rw [Hub.fget_fset_apart h v ha hg hd]

theorem Hub.fget_fset_set (h : Hub) (f : Fld) (v : Nat) (hf : Nat.ble (f.lo + f.w) 32 = true) : (h.fset f v).fget f = v % 2 ^ f.w :=
  Hub.fget_fset_same h f v (Nat.le_of_ble_eq_true hf)

theorem Hub.on_fset_set (h : Hub) (f : Fld) (hf : Nat.ble (f.lo + 1) 32 = true) (hw : f.w = 1) : (h.fset f 1).on f = true :=
  h.on_fset_one f (Nat.le_of_ble_eq_true hf) hw

theorem Hub.on_fset_clear (h : Hub) (f : Fld) (hf : Nat.ble (f.lo + f.w) 32 = true) : (h.fset f 0).on f = false :=
  h.on_fset_zero f (Nat.le_of_ble_eq_true hf)

theorem Hub.fget_lt (h : Hub) (f : Fld) : h.fget f < 2 ^ f.w := getField_lt _ _ _

/-- What a store's change leaves of a part of it, it leaves in every ring. -/
theorem Hub.modRing_part {α : Type} (P : RingInt → α) (h : Hub) (k j : Nat) {f : RingInt → RingInt} (hf : ∀ r, P (f r) = P r) :
    P ((h.modRing k f).ring j) = P (h.ring j) := by
  by_cases hj : j = k
  · subst hj
    by_cases hl : j < h.rings.length
    · rw [Hub.ring_modRing_same h hl, hf]
    · have hnone : (h.modRing j f).ring j = h.ring j := by
        unfold Hub.ring
        rw [List.getD_eq_getElem?_getD, List.getD_eq_getElem?_getD, List.getElem?_eq_none (by rw [Hub.modRing_length]; omega),
          List.getElem?_eq_none (by omega)]
      rw [hnone]
  · rw [Hub.ring_modRing_ne h hj]

/-! ### Announcements leave the wraps -/

/-- The registers of a ring's announcements and breaks, and the recorder's. -/
def breakRegs (k : Nat) : List Nat := [RING_STAT k, RING_BRK k, RING_ACKLO k, RING_ACKHI k, REC_STAT]

/-- A step of a ring's announcements or breaks: no port's wrap changes, and a wrapped ring stays so. -/
structure Hub.AnnStep (k : Nat) (h u : Hub) : Prop where
  kept : h.RegsKept u (breakRegs k)
  length : u.rings.length = h.rings.length
  wrapE : ∀ j, (u.ring j).wrapE = (h.ring j).wrapE
  wrapW : ∀ j, (u.ring j).wrapW = (h.ring j).wrapW
  wrap : h.on (RING_STAT_WRAP k) = true → u.on (RING_STAT_WRAP k) = true

theorem Hub.AnnStep.refl (k : Nat) (h : Hub) : h.AnnStep k h := ⟨.refl _ _, rfl, fun _ => rfl, fun _ => rfl, id⟩

theorem Hub.AnnStep.trans {k : Nat} {h u v : Hub} (a : Hub.AnnStep k h u) (b : Hub.AnnStep k u v) : Hub.AnnStep k h v :=
  ⟨a.kept.trans b.kept, b.length.trans a.length, fun j => (b.wrapE j).trans (a.wrapE j), fun j => (b.wrapW j).trans (a.wrapW j),
    b.wrap ∘ a.wrap⟩

theorem Hub.annStep_modRing (h : Hub) (k : Nat) {f : RingInt → RingInt} (he : ∀ r, (f r).wrapE = r.wrapE) (hw : ∀ r, (f r).wrapW = r.wrapW) :
    h.AnnStep k (h.modRing k f) :=
  ⟨.refl _ _, h.modRing_length k f, fun j => h.modRing_part (·.wrapE) k j he, fun j => h.modRing_part (·.wrapW) k j hw, id⟩

theorem Hub.annStep_fset (h : Hub) {k : Nat} {f : Fld} (v : Nat) (ha : f.addr ∈ breakRegs k)
    (hw : (h.fset f v).on (RING_STAT_WRAP k) = h.on (RING_STAT_WRAP k)) : h.AnnStep k (h.fset f v) :=
  ⟨h.regsKept_fset v ha, rfl, fun _ => rfl, fun _ => rfl, fun hh => hw.trans hh⟩

theorem Hub.annStep_setRg (h : Hub) {k a : Nat} (v : Word) (ha : a ∈ breakRegs k) (hw : RING_STAT k ≠ a) : h.AnnStep k (h.setRg a v) :=
  ⟨h.regsKept_setRg v ha, rfl, fun _ => rfl, fun _ => rfl, fun hh => by
    unfold Hub.on at hh ⊢; rw [Hub.fget_setRg_ne h (f := RING_STAT_WRAP k) v hw]; exact hh⟩

/-- A flag of `RING_STAT` that is not `WRAP`. -/
theorem Hub.annStep_flag (h : Hub) {k : Nat} {f : Fld} (v : Nat) (ha : f.addr = RING_STAT k)
    (hd : (Nat.ble 9 f.lo || Nat.ble (f.lo + f.w) 8) = true) : h.AnnStep k (h.fset f v) :=
  h.annStep_fset v (by rw [ha]; exact List.mem_cons_self) (h.on_fset_apart v ha.symm rfl hd)

theorem Hub.annStep_wrapOn (h : Hub) (k : Nat) : h.AnnStep k (h.fset (RING_STAT_WRAP k) 1) :=
  ⟨h.regsKept_fset 1 (f := RING_STAT_WRAP k) List.mem_cons_self, rfl, fun _ => rfl, fun _ => rfl, fun _ => h.on_fset_set _ rfl rfl⟩

theorem Hub.annStep_brk (h : Hub) {k : Nat} {f : Fld} (v : Nat) (ha : f.addr = RING_BRK k) : h.AnnStep k (h.fset f v) :=
  h.annStep_setRg _ (by rw [ha]; exact List.mem_cons_of_mem _ List.mem_cons_self) (by rw [ha]; unfold RING_STAT RING_BRK; omega)

theorem Hub.annStep_recAt (h : Hub) {k : Nat} (hk : k < 6) (t blk cls rule : Nat) (data : List (Nat × Nat)) :
    h.AnnStep k (h.recAt t blk cls rule data) := by
  have hrings := h.recAt_rings t blk cls rule data
  refine ⟨h.recAt_regsKept t blk cls rule data (by unfold breakRegs; simp), by rw [hrings], fun j => ?_, fun j => ?_, fun hh => ?_⟩
  · rw [Hub.ring_of_rings_eq hrings]
  · rw [Hub.ring_of_rings_eq hrings]
  · rw [Hub.RegsKept.on (h.recAt_same t blk cls rule data).2 (f := RING_STAT_WRAP k)
      (by intro hm; have := List.mem_singleton.mp hm; revert this; show RING_STAT k ≠ REC_STAT; unfold RING_STAT REC_STAT; omega), hh]

theorem Hub.annBegin_annStep (h : Hub) (k rating : Nat) (unwrap : Bool) : h.AnnStep k (h.annBegin k rating unwrap) := by
  have hlo : h.AnnStep k (h.setRg (RING_ACKLO k) 0) := h.annStep_setRg 0 (by simp [breakRegs]) (by unfold RING_STAT RING_ACKLO; omega)
  have hhi := (h.setRg (RING_ACKLO k) 0).annStep_setRg (k := k) (a := RING_ACKHI k) 0 (by simp [breakRegs])
    (by unfold RING_STAT RING_ACKHI; omega)
  exact ((hlo.trans hhi).trans (Hub.annStep_flag _ (f := RING_STAT_CHG_PEND k) 1 rfl rfl)).trans
    (Hub.annStep_modRing _ k (fun _ => rfl) fun _ => rfl)

theorem Hub.chgAbn_annStep (h : Hub) (k r : Nat) : h.AnnStep k (h.chgAbn k r) :=
  (h.annStep_flag (f := RING_STAT_CHG_ABN k) 1 rfl rfl).trans (Hub.annStep_flag _ (f := RING_STAT_ABN k) r rfl rfl)

theorem Hub.unwrapAnnounce_annStep (h : Hub) (k : Nat) : h.AnnStep k (h.unwrapAnnounce k) := by
  unfold Hub.unwrapAnnounce
  dsimp only
  split
  · split
    · split
      · exact .refl _ _
      · exact h.annStep_modRing k (fun _ => rfl) fun _ => rfl
    · exact h.annBegin_annStep _ _ _
  · exact .refl _ _

/-- A ring whose announcement has ended. -/
def Hub.annOver (h : Hub) (k : Nat) : Hub :=
  (h.fset (RING_STAT_CHG_PEND k) 0).modRing k fun (r : RingInt) => { r with ann := none, unwrapWait := false }

theorem Hub.annOver_annStep (h : Hub) (k : Nat) : h.AnnStep k (h.annOver k) :=
  (h.annStep_flag (f := RING_STAT_CHG_PEND k) 0 rfl rfl).trans (Hub.annStep_modRing _ k (fun _ => rfl) fun _ => rfl)

theorem Hub.annEnd_eq (h : Hub) (k : Nat) : h.annEnd k = if (h.ring k).unwrapWait then (h.annOver k).unwrapAnnounce k else h.annOver k := rfl

theorem Hub.annEnd_annStep (h : Hub) (k : Nat) : h.AnnStep k (h.annEnd k) := by
  rw [Hub.annEnd_eq]
  split
  · exact (h.annOver_annStep k).trans (Hub.unwrapAnnounce_annStep _ k)
  · exact h.annOver_annStep k

theorem Hub.annAbandon_annStep (h : Hub) (k reason : Nat) : h.AnnStep k (h.annAbandon k reason) := by
  unfold Hub.annAbandon
  split
  · exact (h.chgAbn_annStep k reason).trans (Hub.annEnd_annStep _ k)
  · exact .refl _ _

/-- The place of one more break. -/
def Hub.breakPlaced (h : Hub) (k : Nat) (e : Nat × Nat) : Hub :=
  if h.on (RING_BRK_V1 k) then
    if h.on (RING_BRK_V2 k) then h
    else (((h.fset (RING_BRK_V2 k) 1).fset (RING_BRK_LO2 k) e.1).fset (RING_BRK_HI2 k) e.2).fset (RING_STAT_SPLIT k) 1
  else ((h.fset (RING_BRK_V1 k) 1).fset (RING_BRK_LO1 k) e.1).fset (RING_BRK_HI1 k) e.2

theorem Hub.breakPlaced_annStep (h : Hub) (k : Nat) (e : Nat × Nat) : h.AnnStep k (h.breakPlaced k e) := by
  unfold Hub.breakPlaced
  split
  · split
    · exact .refl _ _
    · exact (((h.annStep_brk (f := RING_BRK_V2 k) 1 rfl).trans (Hub.annStep_brk _ (f := RING_BRK_LO2 k) _ rfl)).trans
        (Hub.annStep_brk _ (f := RING_BRK_HI2 k) _ rfl)).trans (Hub.annStep_flag _ (f := RING_STAT_SPLIT k) 1 rfl rfl)
  · exact ((h.annStep_brk (f := RING_BRK_V1 k) 1 rfl).trans (Hub.annStep_brk _ (f := RING_BRK_LO1 k) _ rfl)).trans
      (Hub.annStep_brk _ (f := RING_BRK_HI1 k) _ rfl)

theorem Hub.addBreak_eq (h : Hub) (k : Nat) (e : Nat × Nat) (t : Nat) :
    h.addBreak k e t =
      if (h.breaks k).contains e then h
      else (((h.breakPlaced k e).fset (RING_STAT_WRAP k) 1).annAbandon k abnRingChanged).recAt t blkRing 8 312 [] := rfl

theorem Hub.addBreak_annStep (h : Hub) {k : Nat} (hk : k < 6) (e : Nat × Nat) (t : Nat) : h.AnnStep k (h.addBreak k e t) := by
  rw [Hub.addBreak_eq]
  split
  · exact .refl _ _
  · exact (((h.breakPlaced_annStep k e).trans (Hub.annStep_wrapOn _ k)).trans (Hub.annAbandon_annStep _ k _)).trans
      (Hub.annStep_recAt _ hk _ _ _ _ _)

theorem Hub.reportBreaks_annStep (h : Hub) {k : Nat} (hk : k < 6) (t : Nat) : h.AnnStep k (h.reportBreaks k t) := by
  have hfold : ∀ (es : List (Nat × Nat)) (u : Hub), u.AnnStep k (es.foldl (fun (h : Hub) e => h.addBreak k e t) u) := by
    intro es
    induction es with
    | nil => exact fun u => .refl k u
    | cons e es ih => exact fun u => (u.addBreak_annStep hk e t).trans (ih _)
  unfold Hub.reportBreaks
  split
  · exact hfold _ _
  · exact .refl _ _

/-! ### The rows of R293, R304 to R313 -/

/-- The sum of the powers named by a predicate has their bits. -/
theorem sum_powers_bit (p : Nat → Bool) (n r : Nat) :
    (((upTo n).map fun i => if p i then 2 ^ i else 0).sum).testBit r = (decide (r < n) && p r) ∧
      ((upTo n).map fun i => if p i then 2 ^ i else 0).sum < 2 ^ n := by
  induction n with
  | zero => simp [upTo]
  | succ n ih =>
    obtain ⟨hbit, hlt⟩ := ih
    unfold upTo at hbit hlt ⊢
    rw [List.range_succ, List.map_append, List.sum_append]
    generalize ((List.range n).map fun i => if p i then 2 ^ i else 0).sum = x at hbit hlt
    have hsum : (List.map (fun i => if p i then 2 ^ i else 0) [n]).sum = if p n then 2 ^ n else 0 := by simp
    have hpow : 2 ^ (n + 1) = 2 * 2 ^ n := by rw [Nat.pow_succ]; omega
    rw [hsum]
    cases hp : p n
    · refine ⟨?_, by simp; omega⟩
      simp only [Bool.false_eq_true, if_false, Nat.add_zero, hbit]
      by_cases hr : r = n
      · subst hr; simp [hp]
      · simp only [show (r < n + 1) = (r < n) from propext (by omega)]
    · refine ⟨?_, by simp; omega⟩
      simp only [if_true]
      rw [Nat.add_comm]
      rcases Nat.lt_trichotomy r n with hr | rfl | hr
      · rw [Nat.testBit_two_pow_add_gt hr, hbit, decide_eq_true hr, decide_eq_true (by omega)]
      · rw [Nat.testBit_two_pow_add_eq, hbit, hp]; simp
      · rw [Nat.testBit_lt_two_pow (lt_of_lt_of_le (by omega) (Nat.pow_le_pow_right (by decide) (show n + 1 ≤ r by omega))),
          decide_eq_false (by omega)]; rfl

theorem bitField_eq_testBit (x r : Nat) : (getField x r 1 == 1) = x.testBit r := by
  unfold getField
  rw [Nat.shiftRight_eq_div_pow, Nat.testBit_eq_decide_div_mod_eq, Nat.pow_one]
  rfl

/-- A rating that the check leaves valid (R293). -/
def Hub.ratingStays (h : Hub) (r : Nat) : Bool := h.ratingOk r || (h.ratingValid r && h.ratingInUse r)

theorem Hub.ratingCheckDone_eq {h : Hub} (hb : h.on RING_GSTAT_BUSY = true) :
    h.ratingCheckDone =
      (h.fset RING_GSTAT_RVALID ((upTo 8).map fun r => if h.ratingStays r then 2 ^ r else 0).sum).fset RING_GSTAT_BUSY 0 := if_pos hb

theorem Hub.ratingCheckDone_spec {h : Hub} (hb : h.on RING_GSTAT_BUSY = true) :
    h.OnlyRegs h.ratingCheckDone [RING_GSTAT] ∧ h.ratingCheckDone.on RING_GSTAT_BUSY = false ∧
      ∀ r, r < 8 → h.ratingCheckDone.ratingValid r = h.ratingStays r := by
  rw [Hub.ratingCheckDone_eq hb]
  obtain ⟨-, hlt⟩ := sum_powers_bit h.ratingStays 8 0
  refine ⟨(h.onlyRegs_fset _ (by decide)).trans (Hub.onlyRegs_fset _ _ (by decide)), Hub.on_fset_clear _ _ rfl, fun r hr => ?_⟩
  unfold Hub.ratingValid
  rw [Hub.fget_fset_apart _ _ (by rfl) (by rfl) (by rfl), Hub.fget_fset_set _ _ _ rfl, bitField_eq_testBit]
  rw [show RING_GSTAT_RVALID.w = 8 from rfl, Nat.mod_eq_of_lt hlt, (sum_powers_bit h.ratingStays 8 r).1, decide_eq_true hr,
    Bool.true_and]

/-! Announcements. -/

section
variable {h : Hub} {k rating : Nat} (hm : h.rstate k = 2)
include hm

theorem Hub.ringAnnounce_bad (hb : h.ratingValid rating = false ∨ rating = h.rating k) : h.ringAnnounce k rating = h.chgAbn k 1 := by
  have hbad : (!h.ratingValid rating || rating == h.rating k) = true := by rcases hb with hb | hb <;> simp [hb]
  rw [Hub.ringAnnounce, if_neg (by simp [hm, rsMaster]), if_pos hbad, abnBadRating]

variable (hv : h.ratingValid rating = true) (hne : rating ≠ h.rating k)
include hv hne

theorem Hub.ringAnnounce_busy (ha : (h.ring k).ann.isSome = true) : h.ringAnnounce k rating = h.chgAbn k 2 := by
  rw [Hub.ringAnnounce, if_neg (by simp [hm, rsMaster]), if_neg (by simp [hv, hne]), if_pos ha, abnBusy]

theorem Hub.ringAnnounce_begins (ha : (h.ring k).ann = none) : h.ringAnnounce k rating = h.annBegin k rating false := by
  rw [Hub.ringAnnounce, if_neg (by simp [hm, rsMaster]), if_neg (by simp [hv, hne]), if_neg (by simp [ha])]
end

theorem Hub.chgAbn_spec (h : Hub) (k : Nat) {r : Nat} (hr : r < 8) :
    h.RegsKept (h.chgAbn k r) [RING_STAT k] ∧ (h.chgAbn k r).rating k = h.rating k ∧ (h.chgAbn k r).fget (RING_STAT_ABN k) = r ∧
      (h.chgAbn k r).on (RING_STAT_CHG_ABN k) = true ∧ (h.chgAbn k r).rings = h.rings := by
  unfold Hub.chgAbn
  refine ⟨(h.regsKept_fset 1 (f := RING_STAT_CHG_ABN k) List.mem_cons_self).trans
    (Hub.regsKept_fset _ r (f := RING_STAT_ABN k) List.mem_cons_self), ?_, ?_, ?_, rfl⟩
  · unfold Hub.rating
    rw [Hub.fget_fset_apart _ _ (by rfl) (by rfl) (by rfl), Hub.fget_fset_apart _ _ (by rfl) (by rfl) (by rfl)]
  · rw [Hub.fget_fset_set _ _ _ rfl]
    exact Nat.mod_eq_of_lt hr
  · rw [Hub.on_fset_apart _ _ (by rfl) (by rfl) (by rfl)]
    exact Hub.on_fset_set _ _ rfl rfl

theorem Hub.annBegin_spec (h : Hub) {k : Nat} (hl : k < h.rings.length) (rating : Nat) (unwrap : Bool) :
    h.RegsKept (h.annBegin k rating unwrap) [RING_STAT k, RING_ACKLO k, RING_ACKHI k] ∧
      (h.annBegin k rating unwrap).rating k = h.rating k ∧
      ((h.annBegin k rating unwrap).ring k).ann =
        some { rating := rating, target := (h.rg (RING_CYCLE k) + 17).toNat, unwrap := unwrap } ∧
      (h.annBegin k rating unwrap).on (RING_STAT_CHG_PEND k) = true ∧
      (h.annBegin k rating unwrap).on (RING_STAT_WRAP k) = h.on (RING_STAT_WRAP k) := by
  have hlo : RING_STAT k ≠ RING_ACKLO k := by unfold RING_STAT RING_ACKLO; omega
  have hhi : RING_STAT k ≠ RING_ACKHI k := by unfold RING_STAT RING_ACKHI; omega
  have hstat : ∀ f : Fld, f.addr = RING_STAT k → ((h.setRg (RING_ACKLO k) 0).setRg (RING_ACKHI k) 0).fget f = h.fget f := fun f hf => by
    rw [Hub.fget_setRg_ne _ _ (by rw [hf]; exact hhi), Hub.fget_setRg_ne _ _ (by rw [hf]; exact hlo)]
  unfold Hub.annBegin
  dsimp only
  refine ⟨?_, ?_, ?_, ?_, ?_⟩
  · exact ((h.regsKept_setRg 0 (by simp)).trans (Hub.regsKept_setRg _ 0 (by simp))).trans
      (Hub.regsKept_fset _ 1 (f := RING_STAT_CHG_PEND k) List.mem_cons_self)
  · unfold Hub.rating
    rw [Hub.modRing_fget, Hub.fget_fset_apart _ _ (by rfl) (by rfl) (by rfl), hstat _ rfl]
  · exact congrArg RingInt.ann (Hub.ring_modRing_same _ (by exact hl) _)
  · rw [Hub.modRing_on]
    exact Hub.on_fset_set _ _ rfl rfl
  · unfold Hub.on
    rw [Hub.modRing_fget, Hub.fget_fset_apart _ _ (by rfl) (by rfl) (by rfl), hstat _ rfl]

/-- An announcement that ends with no unwrap waiting. -/
theorem Hub.annOver_spec (h : Hub) {k : Nat} (hl : k < h.rings.length) :
    h.RegsKept (h.annOver k) [RING_STAT k] ∧ ((h.annOver k).ring k).ann = none ∧ (h.annOver k).on (RING_STAT_CHG_PEND k) = false ∧
      ∀ f : Fld, f.addr = RING_STAT k → Nat.ble (f.lo + f.w) 32 = true → (Nat.ble (f.lo + f.w) 12 || Nat.ble 13 f.lo) = true →
        (h.annOver k).fget f = h.fget f := by
  refine ⟨h.regsKept_fset 0 (f := RING_STAT_CHG_PEND k) List.mem_cons_self, ?_, h.on_fset_clear (RING_STAT_CHG_PEND k) rfl, fun f hf hw hd => ?_⟩
  · exact congrArg RingInt.ann (Hub.ring_modRing_same _ (by exact hl) _)
  · exact h.fget_fset_apart (f := RING_STAT_CHG_PEND k) 0 hf hw hd

theorem Hub.annAbandon_of_plain {h : Hub} {k : Nat} {a : RingAnn} (ha : (h.ring k).ann = some a) (hu : (h.ring k).unwrapWait = false)
    (reason : Nat) : h.annAbandon k reason = (h.chgAbn k reason).annOver k := by
  have hw : ((h.chgAbn k reason).ring k).unwrapWait = false := hu
  rw [Hub.annAbandon, if_pos (by rw [ha]; rfl), Hub.annEnd_eq, if_neg (by rw [hw]; decide)]

theorem Hub.annAbandon_spec {h : Hub} {k : Nat} (hl : k < h.rings.length) {a : RingAnn} (ha : (h.ring k).ann = some a)
    (hu : (h.ring k).unwrapWait = false) {reason : Nat} (hr : reason < 8) :
    h.RegsKept (h.annAbandon k reason) [RING_STAT k] ∧ ((h.annAbandon k reason).ring k).ann = none ∧
      (h.annAbandon k reason).fget (RING_STAT_ABN k) = reason ∧ (h.annAbandon k reason).on (RING_STAT_CHG_PEND k) = false ∧
      (h.annAbandon k reason).rating k = h.rating k := by
  obtain ⟨hkept, hrating, habn, -, -⟩ := h.chgAbn_spec k hr
  obtain ⟨hkept', hnone, hpend, hstat⟩ := (h.chgAbn k reason).annOver_spec (k := k) hl
  rw [Hub.annAbandon_of_plain ha hu]
  refine ⟨hkept.trans hkept', hnone, ?_, hpend, ?_⟩
  · rw [hstat _ rfl rfl rfl, habn]
  · unfold Hub.rating at hrating ⊢
    rw [hstat _ rfl rfl rfl, hrating]

/-! The decision at a target. -/

theorem Hub.allAcked_iff (h : Hub) (k : Nat) :
    ((allNodes.filter (h.present k)).all (h.acked k)) = true ↔ ∀ n, 1 ≤ n → n ≤ 64 → h.present k n = true → h.acked k n = true := by
  simp only [List.all_eq_true, List.mem_filter, allNodes, upTo, List.mem_map, List.mem_range]
  constructor
  · exact fun hall n h1 h64 hp => hall n ⟨⟨n - 1, by omega, by omega⟩, hp⟩
  · rintro hall n ⟨⟨m, hm, rfl⟩, hp⟩
    exact hall _ (by omega) (by omega) hp

section
variable {h : Hub} {k : Nat} {a : RingAnn} (ha : (h.ring k).ann = some a) (hm : h.rstate k = 2)
  (ht : (h.rg (RING_CYCLE k) + 1).toNat = a.target)
include ha hm ht

theorem Hub.annDecide_acked (hall : (allNodes.filter (h.present k)).all (h.acked k) = true) (hw : a.unwrap = false) :
    h.annDecide k = ((h.fset (RING_STAT_CHG_DONE k) 1).fset (RING_STAT_RATING k) a.rating).annEnd k := by
  unfold Hub.annDecide
  rw [ha]
  dsimp only
  rw [if_pos ⟨hm, ht⟩, if_pos hall, if_neg (by simp [hw])]

theorem Hub.annDecide_missing (hall : ¬ (allNodes.filter (h.present k)).all (h.acked k) = true) :
    h.annDecide k = h.annAbandon k 3 := by
  unfold Hub.annDecide
  rw [ha]
  dsimp only
  rw [if_pos ⟨hm, ht⟩, if_neg hall, abnAckMissing]
end

/-- A rating change acknowledged by every present node takes force. -/
theorem Hub.ratingTaken_spec {h : Hub} {k : Nat} (hl : k < h.rings.length) (hu : (h.ring k).unwrapWait = false) {rating : Nat} (hr : rating < 8) :
    let u := ((h.fset (RING_STAT_CHG_DONE k) 1).fset (RING_STAT_RATING k) rating).annEnd k
    h.RegsKept u [RING_STAT k] ∧ (u.ring k).ann = none ∧ u.rating k = rating ∧ u.on (RING_STAT_CHG_DONE k) = true := by
  intro u
  have hu' : u = ((h.fset (RING_STAT_CHG_DONE k) 1).fset (RING_STAT_RATING k) rating).annOver k := by
    refine (Hub.annEnd_eq _ k).trans (if_neg ?_)
    rw [Hub.fset_ring, Hub.fset_ring, hu]; decide
  obtain ⟨hkept, hnone, -, hstat⟩ :=
    Hub.annOver_spec ((h.fset (RING_STAT_CHG_DONE k) 1).fset (RING_STAT_RATING k) rating) (k := k) hl
  rw [hu']
  refine ⟨((h.regsKept_fset 1 (f := RING_STAT_CHG_DONE k) List.mem_cons_self).trans
    (Hub.regsKept_fset _ rating (f := RING_STAT_RATING k) List.mem_cons_self)).trans hkept, hnone, ?_, ?_⟩
  · unfold Hub.rating
    rw [hstat _ rfl rfl rfl, Hub.fget_fset_set _ _ _ rfl]
    exact Nat.mod_eq_of_lt hr
  · unfold Hub.on
    rw [hstat _ rfl rfl rfl, Hub.fget_fset_apart _ _ (by rfl) (by rfl) (by rfl), Hub.fget_fset_set _ _ _ rfl]
    rfl

/-! A ring's start. -/

/-- A ring in `st` on its starting rating. -/
def Hub.ringBegun (h : Hub) (k st t : Nat) : Hub :=
  ((h.fset (RING_STAT_RATING k) (h.fget (RING_CTRL_RSTART k))).setRstate k st).modRing k fun (r : RingInt) => r.anew t

theorem Hub.ringStart_eq (h : Hub) (k t : Nat) :
    h.ringStart k t = h.ringBegun k (if h.fget (RING_CTRL_ROLE k) = 1 ∧ h.mayMaster = true then 1 else 3) t := by
  unfold Hub.ringStart
  split <;> rfl

theorem Hub.ringBegun_spec (h : Hub) (k : Nat) {st : Nat} (hst : st < 8) (t : Nat) :
    h.RegsKept (h.ringBegun k st t) [RING_STAT k] ∧ (h.ringBegun k st t).rating k = h.fget (RING_CTRL_RSTART k) ∧
      (h.ringBegun k st t).rstate k = st ∧ (h.ringBegun k st t).on (RING_STAT_UNMANNED k) = h.on (RING_STAT_UNMANNED k) := by
  unfold Hub.ringBegun Hub.setRstate
  refine ⟨(h.regsKept_fset _ (f := RING_STAT_RATING k) List.mem_cons_self).trans
    (Hub.regsKept_fset _ st (f := RING_STAT_STATE k) List.mem_cons_self), ?_, ?_, ?_⟩
  · unfold Hub.rating
    rw [Hub.modRing_fget, Hub.fget_fset_apart _ _ (by rfl) (by rfl) (by rfl), Hub.fget_fset_set _ _ _ rfl]
    exact Nat.mod_eq_of_lt (h.fget_lt _)
  · unfold Hub.rstate
    rw [Hub.modRing_fget, Hub.fget_fset_set _ _ _ rfl]
    exact Nat.mod_eq_of_lt hst
  · rw [Hub.modRing_on, Hub.on_fset_apart _ _ (by rfl) (by rfl) (by rfl), Hub.on_fset_apart _ _ (by rfl) (by rfl) (by rfl)]

/-! Losses of signal. -/

theorem losOf_field (k : Nat) (east : Bool) :
    (losOf k east).addr = RING_STAT k ∧ (losOf k east).w = 1 ∧ 10 ≤ (losOf k east).lo ∧ (losOf k east).lo ≤ 11 := by
  cases east <;> exact ⟨rfl, rfl, Nat.le_of_ble_eq_true rfl, Nat.le_of_ble_eq_true rfl⟩

theorem Hub.lossOfSignal_new {h : Hub} {k : Nat} {east : Bool} (hl : h.on (losOf k east) = false) (ha : (h.ring k).ann = none) :
    h.lossOfSignal k east = (h.fset (losOf k east) 1).fsat (RING_ERR_LOSCNT k) 1 := by
  have ha' : (((h.fset (losOf k east) 1).fsat (RING_ERR_LOSCNT k) 1).ring k).ann = none := ha
  unfold Hub.lossOfSignal
  rw [if_neg (by simp [hl])]
  dsimp only
  rw [ha']

theorem Hub.lossCounted_spec (h : Hub) (k : Nat) (east : Bool) :
    h.OnlyRegs ((h.fset (losOf k east) 1).fsat (RING_ERR_LOSCNT k) 1) [RING_STAT k, RING_ERR k] ∧
      ((h.fset (losOf k east) 1).fsat (RING_ERR_LOSCNT k) 1).on (losOf k east) = true ∧
      ((h.fset (losOf k east) 1).fsat (RING_ERR_LOSCNT k) 1).fget (RING_ERR_LOSCNT k) = satInc 255 (h.fget (RING_ERR_LOSCNT k)) := by
  obtain ⟨haddr, hw, -, hhi⟩ := losOf_field k east
  have hne : RING_STAT k ≠ RING_ERR k := by unfold RING_STAT RING_ERR; omega
  refine ⟨(h.onlyRegs_fset 1 (by rw [haddr]; exact List.mem_cons_self)).trans
    (Hub.onlyRegs_fsat _ 1 (f := RING_ERR_LOSCNT k) (List.mem_cons_of_mem _ List.mem_cons_self)), ?_, ?_⟩
  · unfold Hub.fsat Hub.on
    rw [Hub.fget_fset_addr _ _ (by rw [haddr]; exact hne)]
    exact h.on_fset_one _ (by omega) hw
  · rw [Hub.fget_fsat_same _ _ (Nat.le_of_ble_eq_true rfl), Hub.fget_fset_addr _ _ (by rw [haddr]; exact Ne.symm hne)]
    rfl

theorem Hub.signalRestored_spec (h : Hub) (k : Nat) (east : Bool) :
    h.OnlyRegs (h.signalRestored k east) [RING_STAT k] ∧ (h.signalRestored k east).on (losOf k east) = false ∧
      (h.signalRestored k east).on (RING_STAT_WRAP k) = h.on (RING_STAT_WRAP k) := by
  obtain ⟨haddr, hw, hlo, hhi⟩ := losOf_field k east
  refine ⟨h.onlyRegs_fset 0 (by rw [haddr]; exact List.mem_cons_self), h.on_fset_zero _ (by omega),
    h.on_fset_bits 0 haddr.symm (Nat.le_of_ble_eq_true rfl) (.inl ?_)⟩
  show 9 ≤ (losOf k east).lo
  omega

/-! Wraps. -/

/-- The ring with its east port wrapped. -/
def Hub.wrappedEast (h : Hub) (k : Nat) : Hub := (h.modRing k fun (r : RingInt) => { r with wrapE := true }).fset (RING_STAT_WRAP k) 1

theorem Hub.ringWrap_east {h : Hub} {k : Nat} (hlos : h.on (RING_STAT_LOSE k) = true) (hw : (h.ring k).wrapE = false) (t : Nat) :
    h.ringWrap k true t = ((h.wrappedEast k).annAbandon k abnRingChanged).reportBreaks k t := by
  have hcond : (h.on (losOf k true) && !(if true then (h.ring k).wrapE else (h.ring k).wrapW)) = true := by
    simp [losOf, hlos, hw]
  unfold Hub.ringWrap
  dsimp only
  rw [if_pos hcond]
  rfl

theorem Hub.ringWrap_spec {h : Hub} {k : Nat} (hk : k < 6) (hl : k < h.rings.length) (hlos : h.on (RING_STAT_LOSE k) = true)
    (hw : (h.ring k).wrapE = false) (t : Nat) :
    (h.ringWrap k true t).on (RING_STAT_WRAP k) = true ∧ ((h.ringWrap k true t).ring k).wrapE = true ∧
      ((h.ringWrap k true t).ring k).wrapW = (h.ring k).wrapW := by
  have hstep := ((h.wrappedEast k).annAbandon_annStep k abnRingChanged).trans (Hub.reportBreaks_annStep _ hk t)
  have hring : (h.wrappedEast k).ring k = { h.ring k with wrapE := true } := h.ring_modRing_same hl _
  rw [Hub.ringWrap_east hlos hw]
  exact ⟨hstep.wrap (Hub.on_fset_set _ _ rfl rfl), (hstep.wrapE k).trans (by rw [hring]), (hstep.wrapW k).trans (by rw [hring])⟩

theorem Hub.unwrapAnnounce_begins {h : Hub} {k : Nat} (hm : h.rstate k = 2) (hw : h.on (RING_STAT_WRAP k) = true)
    (hh : h.on (RING_CTRL_HOLDWRAP k) = false) (hr : 1000 ≤ (h.ring k).restored) (ha : (h.ring k).ann = none) :
    h.unwrapAnnounce k = h.annBegin k (h.rating k) true := by
  unfold Hub.unwrapAnnounce
  dsimp only
  rw [if_pos ⟨hm, hw, hh, hr⟩, ha]

/-! ### The obligation -/

/-- Settles O43: every row sets its own flags, and a change takes force only where the target's decision lets it. -/
theorem ratingsAndWrapsChangeByAnnouncement : Obligations.RatingsAndWrapsChangeByAnnouncement := by
  unfold Obligations.RatingsAndWrapsChangeByAnnouncement
  refine ⟨⟨?check, ?announce, ?cancel, ?restart, ?target, ?clear⟩, ?loss, ?fault, ?restored, ?wrap, ?unwrap⟩
  case check =>
    intro s hh
    refine ⟨⟨_, done_of_eq (State.upHub_of_up hh _), rfl, s.hub.onlyRegs_fset 1 (by decide), s.hub.on_fset_set _ rfl rfl⟩, fun hb => ?_⟩
    exact ⟨_, done_of_eq (State.upHub_of_up hh _), rfl, Hub.ratingCheckDone_spec hb⟩
  case announce =>
    intro s k rating hk hl hh hm
    have hmono : ∀ x ∈ [RING_STAT k], x ∈ [RING_STAT k, RING_ACKLO k, RING_ACKHI k] := fun x hx => by
      rw [List.mem_singleton.mp hx]; exact List.mem_cons_self
    refine ⟨_, done_of_eq (State.upHub_of_up hh _), rfl, ?_⟩
    rw [State.modHub_hub]
    by_cases hb : s.hub.ratingValid rating = false ∨ rating = s.hub.rating k
    · obtain ⟨hkept, hrating, habn, hflag, hrings⟩ := s.hub.chgAbn_spec k (r := 1) (by decide)
      rw [Hub.ringAnnounce_bad hm hb]
      refine ⟨hkept.mono hmono, hrating, fun _ => ⟨habn, hflag, hrings⟩, fun hv hne => ?_, fun hv hne => ?_⟩
      · exact absurd hb (by simp [hv, hne])
      · exact absurd hb (by simp [hv, hne])
    · obtain ⟨hv', hne⟩ := not_or.mp hb
      have hv : s.hub.ratingValid rating = true := by simpa using hv'
      cases ha : (s.hub.ring k).ann with
      | some a =>
        obtain ⟨hkept, hrating, habn, -, hrings⟩ := s.hub.chgAbn_spec k (r := 2) (by decide)
        rw [Hub.ringAnnounce_busy hm hv hne (by rw [ha]; rfl)]
        exact ⟨hkept.mono hmono, hrating, fun h => absurd h hb, fun _ _ _ => ⟨habn, hrings⟩, fun _ _ h => absurd h (by simp)⟩
      | none =>
        obtain ⟨hkept, hrating, hann, hpend, -⟩ := s.hub.annBegin_spec hl rating false
        rw [Hub.ringAnnounce_begins hm hv hne ha]
        exact ⟨hkept, hrating, fun h => absurd h hb, fun _ _ h => absurd h (by simp), fun _ _ _ => ⟨hann, hpend⟩⟩
  case cancel =>
    intro s k a hk hl hh ha hu
    obtain ⟨hkept, hnone, habn, hpend, hrating⟩ := Hub.annAbandon_spec hl ha hu (reason := 5) (by decide)
    exact ⟨_, done_of_eq (State.upHub_of_up hh _), rfl, hkept, hnone, habn, hpend, hrating⟩
  case restart =>
    intro s k tm hk hh
    refine ⟨_, done_of_eq (State.upHub_of_up (s := s.at tm) hh _), rfl, ?_⟩
    rw [State.modHub_hub, State.at_hub]
    by_cases hun : s.hub.on (RING_STAT_UNMANNED k) = true
    · have hrole : (s.hub.fset (RING_STAT_UNMANNED k) 0).fget (RING_CTRL_ROLE k) = s.hub.fget (RING_CTRL_ROLE k) :=
        Hub.fget_fset_addr _ _ (by show RING_CTRL k ≠ RING_STAT k; unfold RING_CTRL RING_STAT; omega)
      have hmay : (s.hub.fset (RING_STAT_UNMANNED k) 0).mayMaster = s.hub.mayMaster := by
        unfold Hub.mayMaster
        rw [Hub.fget_fset_addr _ _ (by show PTNR_STAT ≠ RING_STAT k; unfold PTNR_STAT RING_STAT; omega)]
      rw [Hub.ringRestart, if_pos hun, Hub.ringStart_eq, hrole, hmay]
      obtain ⟨hkept, -, hst, hun'⟩ := (s.hub.fset (RING_STAT_UNMANNED k) 0).ringBegun_spec k
        (st := if s.hub.fget (RING_CTRL_ROLE k) = 1 ∧ s.hub.mayMaster = true then 1 else 3) (by split <;> decide) tm
      refine ⟨(s.hub.regsKept_fset 0 (f := RING_STAT_UNMANNED k) List.mem_cons_self).trans hkept, fun _ => ⟨?_, hst⟩,
        fun h => absurd hun (by simp [h])⟩
      rw [hun']
      exact Hub.on_fset_clear _ _ rfl
    · rw [Hub.ringRestart, if_neg hun]
      exact ⟨.refl _ _, fun h => absurd h hun, fun _ => rfl⟩
  case target =>
    intro s k a hk hl hh hm ha hu hnext hw hr ht
    refine ⟨_, done_of_eq (State.upHub_of_up hh _), rfl, ?_⟩
    rw [State.modHub_hub, if_pos hnext]
    by_cases hall : (allNodes.filter (s.hub.present k)).all (s.hub.acked k) = true
    · obtain ⟨hkept, hnone, hrating, hdone⟩ := Hub.ratingTaken_spec hl hu hr
      rw [Hub.annDecide_acked ha hm ht hall hw]
      refine ⟨hkept, hnone, fun _ => ⟨hrating, hdone⟩, ?_⟩
      rintro ⟨n, h1, h64, hp, hna⟩
      exact absurd ((s.hub.allAcked_iff k).mp hall n h1 h64 hp) (by simp [hna])
    · obtain ⟨hkept, hnone, habn, -, hrating⟩ := Hub.annAbandon_spec hl ha hu (reason := 3) (by decide)
      rw [Hub.annDecide_missing ha hm ht hall]
      exact ⟨hkept, hnone, fun h => absurd ((s.hub.allAcked_iff k).mpr h) hall, fun _ => ⟨hrating, habn⟩⟩
  case clear =>
    intro s k v hk hh
    exact ⟨_, done_of_eq (State.upHub_of_up hh _), rfl, s.hub.onlyRegs_setRg 0 List.mem_cons_self, Hub.rg_setRg_same _ _ _⟩
  case loss =>
    intro s k east hk hh hlos ha
    refine ⟨_, done_of_eq (State.upHub_of_up hh _), rfl, ?_⟩
    rw [State.modHub_hub, Hub.lossOfSignal_new hlos ha]
    exact s.hub.lossCounted_spec k east
  case fault =>
    intro s k east hk hh hlos ha
    refine ⟨_, done_of_eq (State.upHub_of_up hh _), rfl, ?_⟩
    rw [State.modHub_hub, Hub.lossOfSignal_new hlos ha]
    exact s.hub.lossCounted_spec k east
  case restored =>
    intro s k east hk hh
    exact ⟨_, done_of_eq (State.upHub_of_up hh _), rfl, s.hub.signalRestored_spec k east⟩
  case wrap =>
    intro s k hk hl hh hlos hw
    exact ⟨_, done_of_eq (State.upHub_of_up hh _), rfl, Hub.ringWrap_spec hk hl hlos hw s.now⟩
  case unwrap =>
    intro s k hk hl hh hm hw hhold hr ha
    obtain ⟨hkept, -, hann, -, hwrap⟩ := s.hub.annBegin_spec hl (s.hub.rating k) true
    refine ⟨_, done_of_eq (State.upHub_of_up hh _), rfl, ?_⟩
    rw [State.modHub_hub, Hub.unwrapAnnounce_begins hm hw hhold hr ha]
    exact ⟨hkept, hwrap.trans hw, hann⟩

end Sys2Proof.Machine
end
section
/-! PROOFS. The rings' cycle, competing masters, slots and presence (R285, R287 to R291, R294, R298, R299, R301, R302, R315). -/

namespace Sys2Proof.Machine

/-! ### Enabling and listening (R301, R315) -/

/-- A ring's control as a write leaves it, not enabled yet. -/
def Hub.ctrlWritten (h : Hub) (k : Nat) (v : Word) : Hub := h.setRg (RING_CTRL k) (v &&& 0x176)

theorem ctrl_bits (v : Word) : bvField (v &&& 0x176) 1 2 = bvField v 1 2 ∧ bvField (v &&& 0x176) 4 3 = bvField v 4 3 ∧
    bvField (v &&& 0x176) 0 1 = 0 := by
  refine ⟨bvField_congr fun i hi => ?_, bvField_congr fun i hi => ?_, (bvField_congr (y := 0) fun i hi => ?_).trans rfl⟩
  · interval_cases i <;> simp
  · interval_cases i <;> simp
  · interval_cases i; simp

theorem Hub.ctrlWritten_spec (h : Hub) (k : Nat) (v : Word) :
    h.RegsKept (h.ctrlWritten k v) [RING_CTRL k, RING_STAT k] ∧ (h.ctrlWritten k v).fget (RING_CTRL_ROLE k) = bvField v 1 2 ∧
      (h.ctrlWritten k v).fget (RING_CTRL_RSTART k) = bvField v 4 3 ∧ (h.ctrlWritten k v).on (RING_CTRL_EN k) = false := by
  obtain ⟨hrole, hstart, hen⟩ := ctrl_bits v
  have hget : ∀ f : Fld, f.addr = RING_CTRL k → (h.ctrlWritten k v).fget f = bvField (v &&& 0x176) f.lo f.w := fun f hf => by
    unfold Hub.fget Hub.ctrlWritten
    rw [hf, Hub.rg_setRg_same]
  refine ⟨h.regsKept_setRg _ List.mem_cons_self, (hget _ rfl).trans hrole, (hget _ rfl).trans hstart, ?_⟩
  unfold Hub.on
  rw [hget _ rfl, show bvField (v &&& 0x176) (RING_CTRL_EN k).lo (RING_CTRL_EN k).w = 0 from hen]
  rfl

theorem Hub.ctrlWritten_ratingValid (h : Hub) (k : Nat) (v : Word) (r : Nat) : (h.ctrlWritten k v).ratingValid r = h.ratingValid r := by
  unfold Hub.ratingValid Hub.ctrlWritten
  rw [Hub.fget_setRg_ne _ _ (by show RING_GSTAT ≠ RING_CTRL k; unfold RING_GSTAT RING_CTRL; omega)]

theorem Hub.mayMaster_of_kept {h u : Hub} {as : List Nat} (hk : h.RegsKept u as) (hp : PTNR_STAT ∉ as) : u.mayMaster = h.mayMaster := by
  unfold Hub.mayMaster
  rw [hk.fget (f := PTNR_STAT_ROLE) hp]

theorem Hub.ringEnable_eq {h : Hub} {k : Nat} (he : h.on (RING_CTRL_EN k) = false) (v : Word) (t : Nat) :
    h.ringEnable k v t =
      if v.getLsbD 0 && h.ratingValid (bvField v 4 3) && (bvField v 1 2 == 1 || bvField v 1 2 == 2) then
        ((h.ctrlWritten k v).fset (RING_CTRL_EN k) 1).ringStart k t
      else h.ctrlWritten k v := by
  obtain ⟨-, hrole, hstart, -⟩ := h.ctrlWritten_spec k v
  rw [← hrole, ← hstart, ← h.ctrlWritten_ratingValid k v]
  exact if_neg (by simp [he])

theorem ringRegs_ne (k : Nat) : PTNR_STAT ∉ [RING_CTRL k, RING_STAT k] ∨ 6 ≤ k := by
  by_cases hk : k < 6
  · left
    unfold PTNR_STAT RING_CTRL RING_STAT
    simp only [List.mem_cons, List.not_mem_nil, or_false]
    omega
  · exact .inr (by omega)

/-- A ring enabled with a valid starting rating and a defined role. -/
theorem Hub.ringEnable_on {h : Hub} {k : Nat} (hk : k < 6) (he : h.on (RING_CTRL_EN k) = false) {v : Word} (hv : v.getLsbD 0 = true)
    (hr : h.ratingValid (bvField v 4 3) = true) (hrole : bvField v 1 2 = 1 ∨ bvField v 1 2 = 2) (t : Nat) :
    h.RegsKept (h.ringEnable k v t) [RING_CTRL k, RING_STAT k] ∧ (h.ringEnable k v t).on (RING_CTRL_EN k) = true ∧
      (h.ringEnable k v t).rating k = bvField v 4 3 ∧
      (h.ringEnable k v t).rstate k = if bvField v 1 2 = 1 ∧ h.mayMaster = true then 1 else 3 := by
  obtain ⟨hkept, hwrole, hwstart, -⟩ := h.ctrlWritten_spec k v
  have hkept' : h.RegsKept ((h.ctrlWritten k v).fset (RING_CTRL_EN k) 1) [RING_CTRL k, RING_STAT k] :=
    hkept.trans (Hub.regsKept_fset _ 1 (f := RING_CTRL_EN k) List.mem_cons_self)
  have hmay : ((h.ctrlWritten k v).fset (RING_CTRL_EN k) 1).mayMaster = h.mayMaster :=
    Hub.mayMaster_of_kept hkept' ((ringRegs_ne k).resolve_right (by omega))
  have hrole' : ((h.ctrlWritten k v).fset (RING_CTRL_EN k) 1).fget (RING_CTRL_ROLE k) = bvField v 1 2 := by
    rw [Hub.fget_fset_apart _ _ (by rfl) (by rfl) (by rfl), hwrole]
  have hstart' : ((h.ctrlWritten k v).fset (RING_CTRL_EN k) 1).fget (RING_CTRL_RSTART k) = bvField v 4 3 := by
    rw [Hub.fget_fset_apart _ _ (by rfl) (by rfl) (by rfl), hwstart]
  have hcond : (v.getLsbD 0 && h.ratingValid (bvField v 4 3) && (bvField v 1 2 == 1 || bvField v 1 2 == 2)) = true := by
    rw [hv, hr]
    rcases hrole with e | e <;> simp [e]
  rw [Hub.ringEnable_eq he, if_pos hcond, Hub.ringStart_eq, hrole', hmay]
  obtain ⟨hstat, hrating, hst, -⟩ := ((h.ctrlWritten k v).fset (RING_CTRL_EN k) 1).ringBegun_spec k
    (st := if bvField v 1 2 = 1 ∧ h.mayMaster = true then 1 else 3) (by split <;> decide) t
  refine ⟨hkept'.trans (hstat.mono fun x hx => ?_), ?_, hrating.trans hstart', hst⟩
  · rw [List.mem_singleton.mp hx]; exact List.mem_cons_of_mem _ List.mem_cons_self
  · rw [hstat.on (f := RING_CTRL_EN k) (by
      intro hm; exact absurd (List.mem_singleton.mp hm) (by show RING_CTRL k ≠ RING_STAT k; unfold RING_CTRL RING_STAT; omega))]
    exact Hub.on_fset_set _ _ rfl rfl

theorem Hub.ringEnable_spec (h : Hub) {k : Nat} (hk : k < 6) (v : Word) (t : Nat) :
    h.RegsKept (h.ringEnable k v t) [RING_CTRL k, RING_STAT k] ∧ (h.on (RING_CTRL_EN k) = true → h.ringEnable k v t = h) ∧
      (h.on (RING_CTRL_EN k) = false → h.ratingValid (bvField v 4 3) = false → (h.ringEnable k v t).on (RING_CTRL_EN k) = false) := by
  cases he : h.on (RING_CTRL_EN k) with
  | true =>
    have heq : h.ringEnable k v t = h := if_pos he
    rw [heq]
    exact ⟨.refl _ _, fun _ => rfl, fun hc => absurd hc (by decide)⟩
  | false =>
    refine ⟨?_, fun hc => absurd hc (by decide), fun _ hr => ?_⟩
    · by_cases hc : v.getLsbD 0 = true ∧ h.ratingValid (bvField v 4 3) = true ∧ (bvField v 1 2 = 1 ∨ bvField v 1 2 = 2)
      · obtain ⟨hv, hr, hrole⟩ := hc
        exact (Hub.ringEnable_on hk he hv hr hrole t).1
      · rw [Hub.ringEnable_eq he, if_neg (by simpa [and_assoc] using hc)]
        exact (h.ctrlWritten_spec k v).1
    · rw [Hub.ringEnable_eq he, if_neg (by simp [hr])]
      exact (h.ctrlWritten_spec k v).2.2.2

/-- A ring that masters from the next multiple of a millisecond. -/
def Hub.masterFrom (h : Hub) (k t : Nat) : Hub :=
  ((h.setRstate k rsMaster).setRg (RING_CLAIM k) (h.rg PTNR_CLAIM)).modRing k fun (x : RingInt) =>
    { x with next := ceilMult 1000000 t, tstart := 0 }

theorem Hub.listenTimeout_due {h : Hub} {k t : Nat} (hr : h.ringRuns k = true) (hs : h.rstate k = 1)
    (ht : (h.ring k).listenT + 3 * h.ratingCycle (h.fget (RING_CTRL_RSTART k)) ≤ t) : h.listenTimeout k t = h.masterFrom k t := by
  have hcond : (h.ringRuns k && h.rstate k == rsListen &&
      decide ((h.ring k).listenT + 3 * h.ratingCycle (h.fget (RING_CTRL_RSTART k)) ≤ t)) = true := by
    simp [hr, hs, rsListen, ht]
  unfold Hub.listenTimeout
  dsimp only
  rw [if_pos hcond]
  rfl

theorem Hub.masterFrom_spec (h : Hub) {k : Nat} (hl : k < h.rings.length) (t : Nat) :
    h.RegsKept (h.masterFrom k t) [RING_STAT k, RING_CLAIM k] ∧ (h.masterFrom k t).rstate k = 2 ∧
      (h.masterFrom k t).rg (RING_CLAIM k) = h.rg PTNR_CLAIM ∧ ((h.masterFrom k t).ring k).next = ceilMult 1000000 t := by
  have hne : RING_STAT k ≠ RING_CLAIM k := by unfold RING_STAT RING_CLAIM; omega
  refine ⟨(h.regsKept_fset rsMaster (f := RING_STAT_STATE k) List.mem_cons_self).trans
    (Hub.regsKept_setRg _ _ (List.mem_cons_of_mem _ List.mem_cons_self)), ?_, ?_, ?_⟩
  · unfold Hub.rstate Hub.masterFrom Hub.setRstate
    rw [Hub.modRing_fget, Hub.fget_setRg_ne _ _ (by exact hne), Hub.fget_fset_set _ _ _ rfl]
    rfl
  · exact Hub.rg_setRg_same _ _ _
  · exact congrArg RingInt.next (Hub.ring_modRing_same _ (by exact hl) _)

/-! ### The boundary of a cycle (R294) -/

theorem Hub.annDecide_none {h : Hub} {k : Nat} (ha : (h.ring k).ann = none) : h.annDecide k = h := by
  unfold Hub.annDecide
  rw [ha]

/-- The count of a new cycle. -/
def Hub.cycleCounted (h : Hub) (k : Nat) : Hub := h.setRg (RING_CYCLE k) (if (h.ring k).tstart = 0 then 0 else h.rg (RING_CYCLE k) + 1)

/-- A ring that takes the module's claim where the module may master. -/
def Hub.claimTaken (h : Hub) (k : Nat) : Hub := if h.mayMaster then h.setRg (RING_CLAIM k) (h.rg PTNR_CLAIM) else h

/-- The registers of a new cycle. -/
def Hub.cycleRegs (h : Hub) (k : Nat) : Hub := (h.cycleCounted k).claimTaken k

theorem Hub.claimTaken_kept (h : Hub) (k : Nat) : (h.claimTaken k).rings = h.rings ∧ (h.claimTaken k).sram = h.sram := by
  unfold Hub.claimTaken
  split <;> exact ⟨rfl, rfl⟩

/-- A ring's store at the boundary of a cycle of `cyc`. -/
def RingInt.boundary (x : RingInt) (next cyc rest : Nat) (serial : Dword) : RingInt :=
  { x with tstart := next, next := next + cyc, sent := [], restored := rest, restN := [], masterId := serial,
           lastSeen := x.lastSeen.map fun (e : Nat × Nat) => (e.1, e.2 + 1) }

theorem RingInt.send_kept (x : RingInt) (bs : List Byte) : (x.send bs).tstart = x.tstart ∧ (x.send bs).next = x.next ∧
    (x.send bs).sent = x.sent := by
  unfold RingInt.send RingInt.sendAt
  split <;> exact ⟨rfl, rfl, rfl⟩

theorem Hub.cycleStart_due {h : Hub} {k t : Nat} (hr : h.ringRuns k = true) (hs : h.rstate k = 2) (ha : (h.ring k).ann = none)
    (ht : (h.ring k).next ≤ t) :
    ∃ rest bs, h.cycleStart k t =
      ((h.cycleRegs k).modRing k fun (x : RingInt) => x.boundary (h.ring k).next ((h.cycleRegs k).cycleNs k) rest (h.cycleRegs k).set.serial).modRing k
        fun (x : RingInt) => x.send bs := by
  have hcond : ¬ (!h.ringRuns k || h.rstate k != rsMaster || decide (t < (h.ring k).next)) = true := by
    simp [hr, hs, rsMaster]; omega
  let rest := if h.pointsRestored k then (h.ring k).restored + 1 else 0
  let u := (h.cycleRegs k).modRing k fun (x : RingInt) => x.boundary (h.ring k).next ((h.cycleRegs k).cycleNs k) rest (h.cycleRegs k).set.serial
  refine ⟨rest, (u.cycleMsg k).bytes, ?_⟩
  unfold Hub.cycleStart
  dsimp only
  rw [if_neg hcond, Hub.annDecide_none ha]
  rfl

theorem Hub.cycleRegs_rings (h : Hub) (k : Nat) : (h.cycleRegs k).rings = h.rings := (Hub.claimTaken_kept _ k).1

theorem Hub.cycleRegs_spec (h : Hub) {k : Nat} (hk : k < 6) :
    h.RegsKept (h.cycleRegs k) [RING_CYCLE k, RING_CLAIM k] ∧
      (h.cycleRegs k).rg (RING_CYCLE k) = (if (h.ring k).tstart = 0 then 0 else h.rg (RING_CYCLE k) + 1) ∧
      (h.mayMaster = true → (h.cycleRegs k).rg (RING_CLAIM k) = h.rg PTNR_CLAIM) := by
  have hkept := h.regsKept_setRg (a := RING_CYCLE k) (as := [RING_CYCLE k, RING_CLAIM k])
    (if (h.ring k).tstart = 0 then 0 else h.rg (RING_CYCLE k) + 1) List.mem_cons_self
  have hptnr : ∀ a, 0x40005000 ≤ a → a ∉ [RING_CYCLE k, RING_CLAIM k] := fun a ha => by
    unfold RING_CYCLE RING_CLAIM
    simp only [List.mem_cons, List.not_mem_nil, or_false]
    omega
  have hmay := Hub.mayMaster_of_kept hkept (hptnr PTNR_STAT (by decide))
  unfold Hub.cycleRegs Hub.claimTaken Hub.cycleCounted
  rw [hmay]
  cases h.mayMaster with
  | true =>
    rw [if_pos rfl]
    refine ⟨hkept.trans (Hub.regsKept_setRg _ _ (List.mem_cons_of_mem _ List.mem_cons_self)), ?_, fun _ => ?_⟩
    · rw [Hub.rg_setRg_ne _ _ (by unfold RING_CYCLE RING_CLAIM; omega), Hub.rg_setRg_same]
    · rw [Hub.rg_setRg_same, hkept _ (hptnr PTNR_CLAIM (by decide))]
  | false =>
    rw [if_neg (by decide)]
    exact ⟨hkept, Hub.rg_setRg_same _ _ _, fun hc => absurd hc (by decide)⟩

theorem Hub.ratingWord_congr {h u : Hub} (hs : u.sram = h.sram) (hb : u.rg RING_RTBASE = h.rg RING_RTBASE) (r o : Nat) :
    u.ratingWord r o = h.ratingWord r o := by
  unfold Hub.ratingWord Hub.fget
  rw [hs, show RING_RTBASE_BASE.addr = RING_RTBASE from rfl, hb]

theorem Hub.cycleRegs_cycleNs (h : Hub) {k : Nat} (hk : k < 6) : (h.cycleRegs k).cycleNs k = h.cycleNs k := by
  obtain ⟨hkept, -, -⟩ := h.cycleRegs_spec hk
  have hsram : (h.cycleRegs k).sram = h.sram := (Hub.claimTaken_kept _ k).2
  unfold Hub.cycleNs Hub.ratingCycle Hub.rating
  rw [hkept.fget (f := RING_STAT_RATING k) (by
    show RING_STAT k ∉ _; unfold RING_STAT RING_CYCLE RING_CLAIM; simp only [List.mem_cons, List.not_mem_nil, or_false]; omega),
    Hub.ratingWord_congr hsram (hkept _ (by
      unfold RING_RTBASE RING_CYCLE RING_CLAIM; simp only [List.mem_cons, List.not_mem_nil, or_false]; omega))]

/-- At a boundary the cycle counts, its claim is the module's, and the next boundary lies a cycle on. -/
theorem Hub.cycleStart_spec {h : Hub} {k t : Nat} (hk : k < 6) (hl : k < h.rings.length) (hr : h.ringRuns k = true) (hs : h.rstate k = 2)
    (ha : (h.ring k).ann = none) (ht : (h.ring k).next ≤ t) :
    h.RegsKept (h.cycleStart k t) [RING_CYCLE k, RING_CLAIM k] ∧
      (h.cycleStart k t).rg (RING_CYCLE k) = (if (h.ring k).tstart = 0 then 0 else h.rg (RING_CYCLE k) + 1) ∧
      ((h.cycleStart k t).ring k).tstart = (h.ring k).next ∧ ((h.cycleStart k t).ring k).next = (h.ring k).next + h.cycleNs k ∧
      (h.mayMaster = true → (h.cycleStart k t).rg (RING_CLAIM k) = h.rg PTNR_CLAIM) ∧
      ∀ j, j ≠ k → (h.cycleStart k t).ring j = h.ring j := by
  obtain ⟨rest, bs, he⟩ := Hub.cycleStart_due hr hs ha ht
  obtain ⟨hkept, hcycle, hclaim⟩ := h.cycleRegs_spec hk
  have hl' : k < (h.cycleRegs k).rings.length := by rw [Hub.cycleRegs_rings]; exact hl
  rw [← Hub.cycleRegs_cycleNs h hk]
  rw [he]
  generalize hu : h.cycleRegs k = u at *
  have hring := fun f : RingInt → RingInt => Hub.ring_modRing_same u hl' f
  have hring' := fun (f g : RingInt → RingInt) => Hub.ring_modRing_same (u.modRing k g) (by rw [Hub.modRing_length]; exact hl') f
  refine ⟨fun a ha => hkept a ha, hcycle, ?_, ?_, hclaim, fun j hj => ?_⟩
  · rw [hring', (RingInt.send_kept _ _).1, hring]
    rfl
  · rw [hring', (RingInt.send_kept _ _).2.1, hring]
    rfl
  · rw [Hub.ring_modRing_ne _ hj, Hub.ring_modRing_ne _ hj, ← hu, Hub.ring_of_rings_eq (Hub.cycleRegs_rings _ _)]

/-! ### Cycle-start frames (R285, R291, R302) -/

theorem Hub.relay_reg (h : Hub) (k : Nat) (east : Bool) (bs : List Byte) : (h.relay k east bs).reg = h.reg := by
  unfold Hub.relay
  split <;> rfl

theorem Hub.relay_length (h : Hub) (k : Nat) (east : Bool) (bs : List Byte) : (h.relay k east bs).rings.length = h.rings.length := by
  unfold Hub.relay
  split
  · exact Hub.modRing_length _ _ _
  · rfl

theorem Hub.relay_part {α : Type} (P : RingInt → α) (hP : ∀ (r : RingInt) e bs, P (r.sendAt e bs) = P r) (h : Hub) (k : Nat) (east : Bool)
    (bs : List Byte) (j : Nat) : P ((h.relay k east bs).ring j) = P (h.ring j) := by
  unfold Hub.relay
  split
  · exact h.modRing_part P k j fun r => hP r _ _
  · rfl

theorem Hub.relay_other (h : Hub) (k : Nat) (east : Bool) (bs : List Byte) :
    h.relay k east bs = { h with rings := (h.relay k east bs).rings } := by
  unfold Hub.relay
  split <;> rfl

/-- A master sends on what comes from the east, and nothing from the west. -/
theorem Hub.relay_of_master {h : Hub} {k : Nat} (hs : h.rstate k = 2) (east : Bool) (bs : List Byte) :
    h.relay k east bs = if east then h.modRing k fun (r : RingInt) => r.sendAt r.wrapW bs else h := by
  have hf : h.forwards k east = east := by
    unfold Hub.forwards
    simp [hs, rsStop, rsMaster]
  unfold Hub.relay
  rw [hf]
  cases east <;> rfl

theorem Hub.cycleFrame_bad {h : Hub} {k : Nat} (hr : h.ringRuns k = true) {bs : List Byte} (hp : parseCycle bs = none) (east : Bool) (t : Nat) :
    h.cycleFrame k east bs t =
      ((h.relay k east (forwardCycle bs ((h.ring k).pathDelay east))).fsat (RING_ERR_CRCERR k) 1).modRing k fun (r : RingInt) =>
        { r with satOut := true } := by
  unfold Hub.cycleFrame
  dsimp only
  rw [if_neg (by simp [hr]), hp]
  rfl

section
variable {h : Hub} {k : Nat} (hr : h.ringRuns k = true) (hs : h.rstate k = 2) {bs : List Byte} {f : CycleMsg}
  (hp : parseCycle bs = some f) (hk : f.ring = k) (east : Bool) (t : Nat)
include hr hs hp hk

theorem Hub.cycleFrame_own (hm : f.master = h.set.serial) :
    h.cycleFrame k east bs t =
      if (h.ring k).reads east then
        (h.relay k east (forwardCycle bs ((h.ring k).pathDelay east))).fset (RING_LOOP_LOOP k) (min 0xFFFFF f.delay.toNat)
      else h.relay k east (forwardCycle bs ((h.ring k).pathDelay east)) := by
  have hset : (h.relay k east (forwardCycle bs ((h.ring k).pathDelay east))).set = h.set := by rw [Hub.relay_other]
  have hfilter : (some f).filter (fun f => f.ring == k) = some f := by simp [hk]
  unfold Hub.cycleFrame
  dsimp only
  rw [if_neg (by simp [hr]), hp, hfilter]
  dsimp only
  rw [if_neg (by simp [hm]), hset, if_pos hm, hs]
  cases (h.ring k).reads east <;> rfl

theorem Hub.cycleFrame_foreign (hm : f.master ≠ h.set.serial) :
    h.cycleFrame k east bs t = h.rival k east f (forwardCycle bs ((h.ring k).pathDelay east)) t := by
  have hfilter : (some f).filter (fun f => f.ring == k) = some f := by simp [hk]
  unfold Hub.cycleFrame
  dsimp only
  rw [if_neg (by simp [hr]), hp, hfilter]
  dsimp only
  rw [if_pos ⟨hm, .inl hs⟩]
end

theorem Hub.ringClaim_of_master {h : Hub} {k : Nat} (hs : h.rstate k = 2) : h.ringClaim k = h.rg (RING_CLAIM k) := if_pos hs

section
variable {h : Hub} {k : Nat} (hs : h.rstate k = 2) (east : Bool) (f : CycleMsg) (out : List Byte) (t : Nat)
include hs

theorem Hub.rival_lower (hc : f.claim.toNat < (h.rg (RING_CLAIM k)).toNat) : h.rival k east f out t = h := by
  unfold Hub.rival
  dsimp only
  rw [Hub.ringClaim_of_master hs, if_pos hc]

/-- The ring that has lost its mastership and follows. -/
def Hub.masterLost (h : Hub) (k : Nat) : Hub :=
  (((h.annAbandon k abnRingChanged).setRstate k rsFollow).fset (RING_STAT_MASTER_LOST k) 1).modRing k fun (r : RingInt) => { r with heard := none }

theorem Hub.rival_higher (hc : (h.rg (RING_CLAIM k)).toNat < f.claim.toNat) :
    h.rival k east f out t = ((h.masterLost k).relay k east out).follow k f t := by
  unfold Hub.rival
  dsimp only
  rw [Hub.ringClaim_of_master hs, if_neg (by omega), if_pos hc]
  rfl

/-- The ring that an equal claim has stopped. -/
def Hub.stoppedEqual (h : Hub) (k : Nat) (other : Dword) (t : Nat) : Hub :=
  (((h.annAbandon k abnRingChanged).setRstate k rsStop).fset (RING_STAT_UNMANNED k) 1).recAt t blkRing 8 302
    [(8, h.set.serial.toNat), (8, other.toNat)]

theorem Hub.rival_equal (hc : f.claim = h.rg (RING_CLAIM k)) : h.rival k east f out t = h.stoppedEqual k f.master t := by
  unfold Hub.rival
  dsimp only
  rw [Hub.ringClaim_of_master hs, hc, if_neg (by omega), if_neg (by omega)]
  rfl
end

theorem Hub.stoppedEqual_spec (h : Hub) {k : Nat} (hk : k < 6) (other : Dword) (t : Nat) :
    (h.stoppedEqual k other t).rstate k = 4 ∧ (h.stoppedEqual k other t).on (RING_STAT_UNMANNED k) = true := by
  have hrec := fun (u : Hub) data => (u.recAt_same t blkRing 8 302 data).2
  have hnot : RING_STAT k ∉ [REC_STAT] := by
    unfold RING_STAT REC_STAT
    simp only [List.mem_singleton]
    omega
  unfold Hub.stoppedEqual Hub.rstate
  refine ⟨?_, ?_⟩
  · rw [(hrec _ _).fget (f := RING_STAT_STATE k) hnot, Hub.fget_fset_apart _ _ (by rfl) (by rfl) (by rfl)]
    exact Hub.fget_fset_set _ _ _ rfl
  · rw [(hrec _ _).on (f := RING_STAT_UNMANNED k) hnot]
    exact Hub.on_fset_set _ _ rfl rfl

/-- The registers of a master in charge. -/
def Hub.followRegs (h : Hub) (k : Nat) (f : CycleMsg) (wrap : Nat) : Hub :=
  (((h.setRg (RING_CYCLE k) f.cycle).setRg (RING_CLAIM k) f.claim).fset (RING_STAT_RATING k) f.rating).fset (RING_STAT_WRAP k) wrap

theorem Hub.follow_reg {h : Hub} {k : Nat} (hh : (h.ring k).heard = none) (f : CycleMsg) (t : Nat) :
    ∃ w, (h.follow k f t).reg = (h.followRegs k f w).reg := by
  unfold Hub.follow
  dsimp only
  rw [hh]
  exact ⟨_, rfl⟩

theorem Hub.followRegs_spec (h : Hub) (k : Nat) (f : CycleMsg) (w : Nat) :
    (h.followRegs k f w).rstate k = h.rstate k ∧ (h.followRegs k f w).on (RING_STAT_MASTER_LOST k) = h.on (RING_STAT_MASTER_LOST k) ∧
      (h.followRegs k f w).rg (RING_CLAIM k) = f.claim ∧ (h.followRegs k f w).rg (RING_CYCLE k) = f.cycle := by
  have hsc : RING_STAT k ≠ RING_CLAIM k := by unfold RING_STAT RING_CLAIM; omega
  have hsy : RING_STAT k ≠ RING_CYCLE k := by unfold RING_STAT RING_CYCLE; omega
  have hcy : RING_CYCLE k ≠ RING_CLAIM k := by unfold RING_CYCLE RING_CLAIM; omega
  have hrg : ∀ a, a ≠ RING_STAT k → (h.followRegs k f w).rg a = ((h.setRg (RING_CYCLE k) f.cycle).setRg (RING_CLAIM k) f.claim).rg a :=
    fun a ha => (Hub.rg_fset_ne _ _ (by exact ha)).trans (Hub.rg_fset_ne _ _ (by exact ha))
  refine ⟨?_, ?_, ?_, ?_⟩
  · unfold Hub.rstate Hub.followRegs
    rw [Hub.fget_fset_apart _ _ (by rfl) (by rfl) (by rfl), Hub.fget_fset_apart _ _ (by rfl) (by rfl) (by rfl),
      Hub.fget_setRg_ne _ _ (by exact hsc), Hub.fget_setRg_ne _ _ (by exact hsy)]
  · unfold Hub.on Hub.followRegs
    rw [Hub.fget_fset_apart _ _ (by rfl) (by rfl) (by rfl), Hub.fget_fset_apart _ _ (by rfl) (by rfl) (by rfl),
      Hub.fget_setRg_ne _ _ (by exact hsc), Hub.fget_setRg_ne _ _ (by exact hsy)]
  · rw [hrg _ (Ne.symm hsc), Hub.rg_setRg_same]
  · rw [hrg _ (Ne.symm hsy), Hub.rg_setRg_ne _ _ hcy, Hub.rg_setRg_same]

theorem Hub.masterLost_spec (h : Hub) {k : Nat} (hl : k < h.rings.length) :
    (h.masterLost k).rstate k = 3 ∧ (h.masterLost k).on (RING_STAT_MASTER_LOST k) = true ∧ ((h.masterLost k).ring k).heard = none := by
  refine ⟨?_, ?_, ?_⟩
  · unfold Hub.rstate Hub.masterLost Hub.setRstate
    rw [Hub.modRing_fget, Hub.fget_fset_apart _ _ (by rfl) (by rfl) (by rfl), Hub.fget_fset_set _ _ _ rfl]
    rfl
  · exact Hub.on_fset_set _ _ rfl rfl
  · refine congrArg RingInt.heard (Hub.ring_modRing_same _ ?_ _)
    exact lt_of_lt_of_eq hl (h.annAbandon_annStep k abnRingChanged).length.symm

/-- A higher claim makes the master follow it. -/
theorem Hub.rival_higher_spec {h : Hub} {k : Nat} (hl : k < h.rings.length) (hs : h.rstate k = 2) (east : Bool) (f : CycleMsg)
    (out : List Byte) (t : Nat) (hc : (h.rg (RING_CLAIM k)).toNat < f.claim.toNat) :
    (h.rival k east f out t).rstate k = 3 ∧ (h.rival k east f out t).on (RING_STAT_MASTER_LOST k) = true ∧
      (h.rival k east f out t).rg (RING_CLAIM k) = f.claim ∧ (h.rival k east f out t).rg (RING_CYCLE k) = f.cycle := by
  obtain ⟨hst, hlost, hheard⟩ := h.masterLost_spec hl
  have hheard' : (((h.masterLost k).relay k east out).ring k).heard = none :=
    (Hub.relay_part (·.heard) (fun r e bs => by unfold RingInt.sendAt; split <;> rfl) _ _ _ _ _).trans hheard
  obtain ⟨w, hreg⟩ := Hub.follow_reg hheard' f t
  obtain ⟨hst', hlost', hclaim, hcycle⟩ := Hub.followRegs_spec ((h.masterLost k).relay k east out) k f w
  have hrelay := Hub.relay_reg (h.masterLost k) k east out
  rw [Hub.rival_higher hs east f out t hc]
  refine ⟨?_, ?_, ?_, ?_⟩
  · unfold Hub.rstate at hst hst' ⊢
    rw [Hub.fget_of_reg_eq hreg, hst', Hub.fget_of_reg_eq hrelay, hst]
  · rw [Hub.on_of_reg_eq hreg, hlost', Hub.on_of_reg_eq hrelay, hlost]
  · unfold Hub.rg at hclaim ⊢; rw [hreg]; exact hclaim
  · unfold Hub.rg at hcycle ⊢; rw [hreg]; exact hcycle

/-! ### Slots and presence (R298, R299, R307) -/

/-- The payload of a slot of the downlink. -/
def Hub.slotPayload (h : Hub) (k slot : Nat) : List Byte :=
  let x := h.ratingSlot (h.rating k) slot
  let p := h.asmAt x.conn ((h.ring k).tstart + x.ns)
  if p.length ≤ x.len then p else []

/-- The frame of a slot of the downlink. -/
def Hub.slotFrame (h : Hub) (k slot : Nat) (p : List Byte) : List Byte :=
  SlotMsg.bytes { up := false, ring := k, slot := slot, node := 0, cycle := h.rg (RING_CYCLE k), nstat := 0, ackr := 0, payload := p }

theorem Hub.slotPayload_length (h : Hub) (k slot : Nat) : (h.slotPayload k slot).length ≤ (h.ratingSlot (h.rating k) slot).len := by
  unfold Hub.slotPayload
  dsimp only
  split
  · assumption
  · exact Nat.zero_le _

theorem Hub.downlink_due {h : Hub} {k slot t : Nat} (hr : h.ringRuns k = true) (hs : h.rstate k = 2) (ht : (h.ring k).tstart ≠ 0)
    (hn : slot < h.ratingNslot (h.rating k)) (hup : (h.ratingSlot (h.rating k) slot).up = false)
    (hdue : (h.ring k).tstart + (h.ratingSlot (h.rating k) slot).ns ≤ t) (hsent : ∀ e ∈ (h.ring k).sent, e.1 ≠ slot) :
    h.downlink k slot t =
      h.modRing k fun (r : RingInt) =>
        { r with sent := (slot, h.slotPayload k slot) :: r.sent }.send (h.slotFrame k slot (h.slotPayload k slot)) := by
  have hany : (h.ring k).sent.any (fun e => e.1 == slot) = false := by
    rw [List.any_eq_false]
    exact fun e he => by simpa using hsent e he
  have hcond : (h.ringRuns k && h.rstate k == rsMaster && (h.ring k).tstart != 0 && decide (slot < h.ratingNslot (h.rating k)) &&
      !(h.ratingSlot (h.rating k) slot).up && decide ((h.ring k).tstart + (h.ratingSlot (h.rating k) slot).ns ≤ t) &&
      !(h.ring k).sent.any (fun e => e.1 == slot)) = true := by
    simp [hr, hs, rsMaster, ht, hn, hup, hdue, hany]
  unfold Hub.downlink
  dsimp only
  rw [if_pos hcond]
  rfl

/-- A node's bit of the presence registers. -/
theorem nodeBit_field (lo hi : Nat) {n : Nat} (h1 : 1 ≤ n) (h64 : n ≤ 64) :
    (nodeBit lo hi n).w = 1 ∧ (nodeBit lo hi n).lo + 1 ≤ 32 ∧ ((nodeBit lo hi n).addr = lo ∨ (nodeBit lo hi n).addr = hi) := by
  unfold nodeBit
  split
  · exact ⟨rfl, by show n - 1 + 1 ≤ 32; omega, .inl rfl⟩
  · exact ⟨rfl, by show n - 33 + 1 ≤ 32; omega, .inr rfl⟩

theorem Hub.on_nodeBit_other (h : Hub) {lo hi n j : Nat} (hne : lo ≠ hi) (h1 : 1 ≤ n) (h64 : n ≤ 64) (hj1 : 1 ≤ j) (hj64 : j ≤ 64)
    (hjn : j ≠ n) (v : Nat) : (h.fset (nodeBit lo hi n) v).on (nodeBit lo hi j) = h.on (nodeBit lo hi j) := by
  unfold nodeBit
  by_cases hn : n ≤ 32 <;> by_cases hj : j ≤ 32
  · rw [if_pos hn, if_pos hj]
    exact Hub.on_fset_bits _ _ rfl (by show j - 1 + 1 ≤ 32; omega) (by show j - 1 + 1 ≤ n - 1 ∨ n - 1 + 1 ≤ j - 1; omega)
  · rw [if_pos hn, if_neg hj]
    unfold Hub.on
    rw [Hub.fget_fset_addr _ _ (by exact hne.symm)]
  · rw [if_neg hn, if_pos hj]
    unfold Hub.on
    rw [Hub.fget_fset_addr _ _ (by exact hne)]
  · rw [if_neg hn, if_neg hj]
    exact Hub.on_fset_bits _ _ rfl (by show j - 33 + 1 ≤ 32; omega) (by show j - 33 + 1 ≤ n - 33 ∨ n - 33 + 1 ≤ j - 33; omega)

/-- The presence registers of a ring, and the recorder's. -/
def presRegs (k : Nat) : List Nat := [RING_PRESLO k, RING_PRESHI k, REC_STAT]

theorem nodeBit_pres_ne (k n : Nat) (hk : k < 6) : (nodeBit (RING_PRESLO k) (RING_PRESHI k) n).addr ∉ [REC_STAT] := by
  unfold nodeBit RING_PRESLO RING_PRESHI REC_STAT
  simp only [List.mem_singleton]
  split <;> (dsimp only; omega)

theorem Hub.setPresent_spec (h : Hub) {k n : Nat} (hk : k < 6) (h1 : 1 ≤ n) (h64 : n ≤ 64) (v : Bool) (t : Nat) :
    h.RegsKept (h.setPresent k n v t) (presRegs k) ∧ (h.setPresent k n v t).present k n = v ∧
      (∀ j, 1 ≤ j → j ≤ 64 → j ≠ n → (h.setPresent k n v t).present k j = h.present k j) ∧ (h.setPresent k n v t).rings = h.rings := by
  obtain ⟨hw, hlo, haddr⟩ := nodeBit_field (RING_PRESLO k) (RING_PRESHI k) h1 h64
  have hrec := (h.fset (nodeBit (RING_PRESLO k) (RING_PRESHI k) n) (b2n v)).recAt_same t blkRing 8 298 []
  have hne : RING_PRESLO k ≠ RING_PRESHI k := by unfold RING_PRESLO RING_PRESHI; omega
  refine ⟨?_, ?_, fun j hj1 hj64 hjn => ?_, Hub.recAt_rings _ _ _ _ _ _⟩
  · refine (h.regsKept_fset (b2n v) ?_).trans (Hub.recAt_regsKept _ _ _ _ _ _ (by simp [presRegs]))
    rcases haddr with e | e <;> simp [presRegs, e]
  · unfold Hub.present Hub.setPresent
    unfold Hub.recAt at hrec ⊢
    rw [hrec.2.on (nodeBit_pres_ne k n hk)]
    cases v
    · exact h.on_fset_zero _ (by omega)
    · exact h.on_fset_one _ hlo hw
  · unfold Hub.present Hub.setPresent
    unfold Hub.recAt at hrec ⊢
    rw [hrec.2.on (nodeBit_pres_ne k j hk)]
    exact h.on_nodeBit_other hne h1 h64 hj1 hj64 hjn _

theorem Hub.nodeAbsent_due {h : Hub} {k n c : Nat} (hs : h.rstate k = 2) (hp : h.present k n = true) (hc : (n, c) ∈ (h.ring k).lastSeen)
    (h4 : 4 ≤ c) (t : Nat) : ∃ f, h.nodeAbsent k n t = (h.setPresent k n false t).modRing k f := by
  have hgone : ((h.ring k).lastSeen.any fun e => e.1 == n && decide (4 ≤ e.2)) = true :=
    List.any_eq_true.mpr ⟨_, hc, by simp [h4]⟩
  unfold Hub.nodeAbsent
  dsimp only
  rw [hgone, if_pos (by simp [hs, rsMaster, hp])]
  exact ⟨_, rfl⟩

/-! Uplink frames. -/

theorem Hub.uplink_bad {h : Hub} {k : Nat} (hr : h.ringRuns k = true) (hs : h.rstate k = 2) {east : Bool} (hrd : (h.ring k).reads east = true)
    {bs : List Byte} (hp : parseSlot bs = none) (pos t : Nat) :
    h.uplink k east pos bs t = (h.relay k east bs).fsat (RING_ERR_CRCERR k) 1 := by
  have hst : (h.relay k east bs).rstate k = 2 := (Hub.fget_of_reg_eq (Hub.relay_reg ..) _).trans hs
  have hrd' : ((h.relay k east bs).ring k).reads east = true :=
    (Hub.relay_part (·.reads east) (fun r e bs => by unfold RingInt.reads RingInt.sendAt; split <;> rfl) _ _ _ _ _).trans hrd
  unfold Hub.uplink
  dsimp only
  rw [if_neg (by simp [hr]), if_neg (by simp [hst, hrd', rsMaster]), hp]
  rfl

/-- The ring that has taken a node's frame, before its acknowledgement. -/
def Hub.nodeSeen (h : Hub) (k : Nat) (m : SlotMsg) (t : Nat) : Hub :=
  let u := (if h.present k m.node then h else h.setPresent k m.node true t).modRing k fun (r : RingInt) =>
    { r with lastSeen := (r.lastSeen.filter fun (e : Nat × Nat) => e.1 ≠ m.node) ++ [(m.node, 0)],
             losUp := nodeIn r.losUp m.node (m.nstat.getLsbD 2), losDn := nodeIn r.losDn m.node (m.nstat.getLsbD 3),
             wrapN := nodeIn r.wrapN m.node (m.nstat.getLsbD 4), restN := nodeIn r.restN m.node (m.nstat.getLsbD 5) }
  if m.nstat.getLsbD 4 then u.fset (RING_STAT_WRAP k) 1 else u

theorem Hub.uplinkTaken_eq (h : Hub) (k : Nat) (m : SlotMsg) (conn t : Nat) :
    h.uplinkTaken k m conn t =
      if m.payload.isEmpty then ((h.nodeSeen k m t).takeAck k m).reportBreaks k t
      else (((h.nodeSeen k m t).takeAck k m).reportBreaks k t).received conn m.payload t := rfl

/-- Registers that a valid uplink frame leaves: all but the ring's own status, breaks, presence and acknowledgements, the recorder's and the gateway's
counts. -/
def uplinkRegs (k : Nat) : List Nat := [RING_STAT k, RING_BRK k, RING_ACKLO k, RING_ACKHI k, RING_PRESLO k, RING_PRESHI k, REC_STAT]

theorem Hub.takeAck_regsKept (h : Hub) {k : Nat} {m : SlotMsg} (h1 : 1 ≤ m.node) (h64 : m.node ≤ 64) : h.RegsKept (h.takeAck k m) (breakRegs k) := by
  obtain ⟨-, -, haddr⟩ := nodeBit_field (RING_ACKLO k) (RING_ACKHI k) h1 h64
  unfold Hub.takeAck
  split
  · split
    · exact h.regsKept_fset 1 (by rcases haddr with e | e <;> simp [breakRegs, e])
    · exact .refl _ _
  · exact .refl _ _

theorem Hub.nodeSeen_spec (h : Hub) {k : Nat} (hk : k < 6) {m : SlotMsg} (h1 : 1 ≤ m.node) (h64 : m.node ≤ 64) (t : Nat) :
    h.RegsKept (h.nodeSeen k m t) (uplinkRegs k) ∧ (h.nodeSeen k m t).present k m.node = true := by
  have hseen : h.RegsKept (if h.present k m.node then h else h.setPresent k m.node true t) (uplinkRegs k) ∧
      (if h.present k m.node then h else h.setPresent k m.node true t).present k m.node = true := by
    split
    · exact ⟨.refl _ _, by assumption⟩
    · obtain ⟨hkept, hp, -, -⟩ := h.setPresent_spec hk h1 h64 true t
      exact ⟨hkept.mono fun x hx => by unfold presRegs at hx; unfold uplinkRegs; simp only [List.mem_cons] at hx ⊢; tauto, hp⟩
  have hpres : ∀ u : Hub, (u.fset (RING_STAT_WRAP k) 1).present k m.node = u.present k m.node := fun u => by
    obtain ⟨-, -, haddr⟩ := nodeBit_field (RING_PRESLO k) (RING_PRESHI k) h1 h64
    unfold Hub.present Hub.on
    rw [Hub.fget_fset_addr _ _ ?_]
    show (nodeBit (RING_PRESLO k) (RING_PRESHI k) m.node).addr ≠ RING_STAT k
    rcases haddr with e | e
    · rw [e]; unfold RING_PRESLO RING_STAT; omega
    · rw [e]; unfold RING_PRESHI RING_STAT; omega
  unfold Hub.nodeSeen
  dsimp only
  split
  · refine ⟨?_, ?_⟩
    · exact hseen.1.trans (Hub.regsKept_fset _ 1 (f := RING_STAT_WRAP k) List.mem_cons_self)
    · rw [hpres]; exact hseen.2
  · exact hseen

/-- A valid uplink frame marks its node present; the error count stands. -/
theorem Hub.uplinkTaken_spec (h : Hub) {k : Nat} (hk : k < 6) {m : SlotMsg} (h1 : 1 ≤ m.node) (h64 : m.node ≤ 64) (conn t : Nat) :
    (h.uplinkTaken k m conn t).present k m.node = true ∧ (h.uplinkTaken k m conn t).rg (RING_ERR k) = h.rg (RING_ERR k) := by
  obtain ⟨hkept, hp⟩ := h.nodeSeen_spec hk h1 h64 t
  obtain ⟨-, -, haddr⟩ := nodeBit_field (RING_PRESLO k) (RING_PRESHI k) h1 h64
  have hmid : (h.nodeSeen k m t).RegsKept (((h.nodeSeen k m t).takeAck k m).reportBreaks k t) (breakRegs k) :=
    (Hub.takeAck_regsKept _ h1 h64).trans (Hub.reportBreaks_annStep _ hk t).kept
  have hpnot : (nodeBit (RING_PRESLO k) (RING_PRESHI k) m.node).addr ∉ breakRegs k := by
    unfold breakRegs
    simp only [List.mem_cons, List.not_mem_nil, or_false]
    generalize (nodeBit (RING_PRESLO k) (RING_PRESHI k) m.node).addr = a at haddr ⊢
    unfold RING_PRESLO RING_PRESHI at haddr
    unfold RING_STAT RING_BRK RING_ACKLO RING_ACKHI REC_STAT
    omega
  have henot : RING_ERR k ∉ breakRegs k ∧ RING_ERR k ∉ uplinkRegs k := by
    unfold breakRegs uplinkRegs
    simp only [List.mem_cons, List.not_mem_nil, or_false]
    unfold RING_ERR RING_STAT RING_BRK RING_ACKLO RING_ACKHI RING_PRESLO RING_PRESHI REC_STAT
    omega
  have hbase : (((h.nodeSeen k m t).takeAck k m).reportBreaks k t).present k m.node = true ∧
      (((h.nodeSeen k m t).takeAck k m).reportBreaks k t).rg (RING_ERR k) = h.rg (RING_ERR k) := by
    refine ⟨?_, ?_⟩
    · unfold Hub.present at hp ⊢
      rw [hmid.on hpnot, hp]
    · rw [hmid _ henot.1, hkept _ henot.2]
  have hcan : ∀ a, a = RING_PRESLO k ∨ a = RING_PRESHI k ∨ a = RING_ERR k → ∀ p, a ≠ SGW_CANCNT p := by
    intro a ha p
    unfold RING_PRESLO RING_PRESHI RING_ERR at ha
    unfold SGW_CANCNT
    omega
  rw [Hub.uplinkTaken_eq]
  split
  · exact hbase
  · have hrecv := Hub.received_counts (((h.nodeSeen k m t).takeAck k m).reportBreaks k t) conn m.payload t
    refine ⟨?_, (hrecv _ (hcan _ (.inr (.inr rfl)))).trans hbase.2⟩
    have hpa := hcan (nodeBit (RING_PRESLO k) (RING_PRESHI k) m.node).addr (haddr.imp id Or.inl)
    have hb := hbase.1
    unfold Hub.present Hub.on Hub.fget at hb ⊢
    rw [hrecv _ hpa]
    exact hb

theorem Hub.uplink_valid {h : Hub} {k : Nat} (hr : h.ringRuns k = true) (hs : h.rstate k = 2) {east : Bool} (hrd : (h.ring k).reads east = true)
    {bs : List Byte} {m : SlotMsg} (hp : parseSlot bs = some m) (hk : m.ring = k) (hup : m.up = true) {pos : Nat}
    (hn : m.slot < h.ratingNslot (h.rating k)) (hx : (h.ratingSlot (h.rating k) m.slot).holds m pos bs.length = true) (t : Nat) :
    h.uplink k east pos bs t = (h.relay k east bs).uplinkTaken k m (h.ratingSlot (h.rating k) m.slot).conn t := by
  have hreg := Hub.relay_reg h k east bs
  have hst : (h.relay k east bs).rstate k = 2 := (Hub.fget_of_reg_eq hreg _).trans hs
  have hrd' : ((h.relay k east bs).ring k).reads east = true :=
    (Hub.relay_part (·.reads east) (fun r e bs => by unfold RingInt.reads RingInt.sendAt; split <;> rfl) _ _ _ _ _).trans hrd
  have hsram : (h.relay k east bs).sram = h.sram := by rw [Hub.relay_other]
  have hword : ∀ r o, (h.relay k east bs).ratingWord r o = h.ratingWord r o :=
    Hub.ratingWord_congr hsram (Hub.regsKept_of_reg_eq hreg [] _ List.not_mem_nil)
  have hrating : (h.relay k east bs).rating k = h.rating k := Hub.fget_of_reg_eq hreg _
  have hslot : ∀ r j, (h.relay k east bs).ratingSlot r j = h.ratingSlot r j := fun r j => by unfold Hub.ratingSlot; rw [hword, hword]
  have hnslot : ∀ r, (h.relay k east bs).ratingNslot r = h.ratingNslot r := fun r => by unfold Hub.ratingNslot; rw [hword]
  have hfilter : (some m).filter (fun m => m.ring == k) = some m := by simp [hk]
  unfold Hub.uplink
  dsimp only
  rw [if_neg (by simp [hr]), if_neg (by simp [hst, hrd', rsMaster]), hp, hfilter]
  dsimp only
  rw [hrating, hslot, hnslot, if_neg (by simp [hup]), if_pos (by rw [hx, decide_eq_true hn]; rfl)]

/-- A carrier event in a hub that is out of reset. -/
theorem State.carry_spec {s : State} (hh : s.hub.rst.held = false) (f : Hub → Hub) :
    s.OnlyHub (s.carry f) ∧ (s.carry f).hub.reg = (f s.hub).reg ∧ ∀ l, (s.carry f).lane l = s.lane l := by
  have hc : s.carry f = (s.modHub f).discardUnread := if_neg (by simp [hh])
  obtain ⟨ho, hreg, hlane⟩ := (s.modHub f).discardUnread_frame
  rw [hc]
  refine ⟨?_, hreg, fun l => (hlane l).trans (State.modHub_lane ..)⟩
  unfold State.OnlyHub at ho ⊢
  rw [ho]
  rfl

/-! ### The obligation -/

/-- A master's own frame at the end of either direction. -/
theorem Hub.cycleFrame_own_spec {h : Hub} {k : Nat} (hl : k < h.rings.length) (hr : h.ringRuns k = true) (hs : h.rstate k = 2)
    {bs : List Byte} {f : CycleMsg} (hp : parseCycle bs = some f) (hk : f.ring = k) (hm : f.master = h.set.serial) (east : Bool) (t : Nat) :
    h.RegsKept (h.cycleFrame k east bs t) [RING_LOOP k] ∧
      ((h.ring k).reads east = true → (h.cycleFrame k east bs t).fget (RING_LOOP_LOOP k) = min 0xFFFFF f.delay.toNat) ∧
      (east = true → (h.ring k).wrapW = false →
        ((h.cycleFrame k east bs t).ring k).outW = forwardCycle bs ((h.ring k).delayE + 320) ∧
          ((h.cycleFrame k east bs t).ring k).outE = (h.ring k).outE) ∧
      (east = false → (h.cycleFrame k east bs t).rings = h.rings) := by
  have hrings : (h.cycleFrame k east bs t).rings = (h.relay k east (forwardCycle bs ((h.ring k).pathDelay east))).rings := by
    rw [Hub.cycleFrame_own hr hs hp hk east t hm]
    split <;> rfl
  refine ⟨?_, fun hrd => ?_, fun he hw => ?_, fun he => ?_⟩
  · rw [Hub.cycleFrame_own hr hs hp hk east t hm]
    have hrelay := Hub.regsKept_of_reg_eq (h.relay_reg k east (forwardCycle bs ((h.ring k).pathDelay east))) [RING_LOOP k]
    split
    · exact hrelay.trans (Hub.regsKept_fset _ _ (f := RING_LOOP_LOOP k) List.mem_cons_self)
    · exact hrelay
  · rw [Hub.cycleFrame_own hr hs hp hk east t hm, if_pos hrd, Hub.fget_fset_set _ _ _ rfl]
    exact Nat.mod_eq_of_lt (by show _ < 2 ^ 20; omega)
  · subst he
    rw [Hub.ring_of_rings_eq hrings, Hub.relay_of_master hs, if_pos rfl, Hub.ring_modRing_same h hl, hw]
    exact ⟨rfl, rfl⟩
  · subst he
    rw [hrings, Hub.relay_of_master hs, if_neg (by decide)]

/-- Settles O42: a ring's rows act on a running ring in its state; claims decide which master stands. -/
theorem ringMastersKeepTheCycleAndYieldToHigherClaims : Obligations.RingMastersKeepTheCycleAndYieldToHigherClaims := by
  unfold Obligations.RingMastersKeepTheCycleAndYieldToHigherClaims
  refine ⟨⟨?enable, ?listen, ?cycle⟩, ?badCycle, ?cycleFrame, ?slot, ?badUplink, ?uplink, ?delay, ?absent⟩
  case enable =>
    intro s k v tm hk hh
    obtain ⟨hkept, hen, hoff⟩ := s.hub.ringEnable_spec hk v tm
    refine ⟨_, done_of_eq (State.upHub_of_up (s := s.at tm) hh _), rfl, hkept, hen, fun he hv hr hrole => ?_, hoff⟩
    exact (Hub.ringEnable_on hk he hv hr hrole tm).2
  case listen =>
    intro s k tm hk hl hh hr hs hdue
    obtain ⟨hkept, hst, hclaim, hnext⟩ := s.hub.masterFrom_spec hl tm
    obtain ⟨hle, hlt, hmod⟩ := ceilMult_spec (p := 1000000) (by decide) tm
    refine ⟨_, done_of_eq (State.upHub_of_up (s := s.at tm) hh _), rfl, ?_⟩
    rw [State.modHub_hub, State.at_hub, Hub.listenTimeout_due hr hs hdue, hnext]
    exact ⟨hkept, hst, hclaim, hle, hlt, hmod⟩
  case cycle =>
    intro s k tm hk hl hh hr hs ha hdue
    exact ⟨_, done_of_eq (State.upHub_of_up (s := s.at tm) hh _), rfl, Hub.cycleStart_spec hk hl hr hs ha hdue⟩
  case badCycle =>
    intro s k east frame tm hk hh hr hs hp
    refine ⟨_, done_of_eq (State.upHub_of_up (s := s.at tm) hh _), rfl, ?_⟩
    rw [State.modHub_hub, State.at_hub, Hub.cycleFrame_bad hr hp]
    have hrelay := s.hub.relay_reg k east (forwardCycle frame ((s.hub.ring k).pathDelay east))
    refine ⟨(Hub.regsKept_of_reg_eq hrelay _).trans (Hub.regsKept_fsat _ 1 (f := RING_ERR_CRCERR k) List.mem_cons_self), ?_⟩
    rw [Hub.modRing_fget, Hub.fget_fsat_same _ _ (Nat.le_of_ble_eq_true rfl), Hub.fget_of_reg_eq hrelay]
    rfl
  case cycleFrame =>
    intro s k east frame f tm hk hl hh hr hs hp hf
    refine ⟨_, done_of_eq (State.upHub_of_up (s := s.at tm) hh _), rfl, fun hm => ?_, fun hm => ⟨fun hc => ?_, fun hc => ?_, fun hc => ?_⟩⟩
    · exact Hub.cycleFrame_own_spec hl hr hs hp hf hm east tm
    · rw [State.modHub_hub, State.at_hub, Hub.cycleFrame_foreign hr hs hp hf east tm hm, Hub.rival_lower hs _ _ _ _ hc]
    · rw [State.modHub_hub, State.at_hub, Hub.cycleFrame_foreign hr hs hp hf east tm hm]
      exact Hub.rival_higher_spec hl hs east f _ tm hc
    · rw [State.modHub_hub, State.at_hub, Hub.cycleFrame_foreign hr hs hp hf east tm hm, Hub.rival_equal hs _ _ _ _ hc]
      exact Hub.stoppedEqual_spec _ hk _ _
  case slot =>
    intro s k slot tm hk hl hh hr hs ht hn hup hdue hsent
    refine ⟨_, s.hub.slotPayload k slot, done_of_eq (State.upHub_of_up (s := s.at tm) hh _), rfl, ?_⟩
    rw [State.modHub_hub, State.at_hub, Hub.downlink_due hr hs ht hn hup hdue hsent]
    refine ⟨rfl, ?_, Hub.slotPayload_length _ _ _, fun hw => ?_⟩
    · rw [Hub.ring_modRing_same _ hl, (RingInt.send_kept _ _).2.2]
    · rw [Hub.ring_modRing_same _ hl]
      unfold RingInt.send
      dsimp only
      rw [hw]
      rfl
  case badUplink =>
    intro s k east pos frame tm hk hh hr hs hrd hp
    obtain ⟨-, hreg, hlane⟩ := (s.at tm).carry_spec (f := fun h => h.uplink k east pos frame tm) hh
    rw [State.at_hub, Hub.uplink_bad hr hs hrd hp] at hreg
    have hrelay := s.hub.relay_reg k east frame
    have hkept : s.hub.RegsKept ((s.at tm).carry fun h => h.uplink k east pos frame tm).hub [RING_ERR k] :=
      ((Hub.regsKept_of_reg_eq hrelay _).trans (Hub.regsKept_fsat _ 1 (f := RING_ERR_CRCERR k) List.mem_cons_self)).trans
        (Hub.regsKept_of_reg_eq hreg _)
    refine ⟨_, rfl, hkept, fun l => (hlane l).trans (State.lane_at ..), ?_, fun n => ?_⟩
    · rw [Hub.fget_of_reg_eq hreg, Hub.fget_fsat_same _ _ (Nat.le_of_ble_eq_true rfl), Hub.fget_of_reg_eq hrelay]
      rfl
    · unfold Hub.present
      refine hkept.on ?_
      unfold nodeBit RING_PRESLO RING_PRESHI RING_ERR
      simp only [List.mem_singleton]
      split <;> (dsimp only; omega)
  case uplink =>
    intro s k east pos frame m tm hk hh hr hs hrd hp hring hup h1 h64 hn hx
    obtain ⟨ho, hreg, -⟩ := (s.at tm).carry_spec (f := fun h => h.uplink k east pos frame tm) hh
    rw [State.at_hub, Hub.uplink_valid hr hs hrd hp hring hup hn hx] at hreg
    obtain ⟨hpres, herr⟩ := Hub.uplinkTaken_spec (s.hub.relay k east frame) hk h1 h64 (s.hub.ratingSlot (s.hub.rating k) m.slot).conn tm
    refine ⟨_, rfl, ho, ?_, ?_⟩
    · unfold Hub.present at hpres ⊢
      rw [Hub.on_of_reg_eq hreg, hpres]
    · rw [Hub.regsKept_of_reg_eq hreg [] _ List.not_mem_nil, herr, Hub.regsKept_of_reg_eq (Hub.relay_reg ..) [] _ List.not_mem_nil]
  case delay =>
    intro s k rt hl hh
    refine ⟨_, done_of_eq (State.upHub_of_up hh _), rfl, rfl, ?_, ?_⟩
    · exact (congrArg RingInt.delayE (Hub.ring_modRing_same _ hl _)).trans rfl
    · exact (congrArg RingInt.delayW (Hub.ring_modRing_same s.hub hl _)).trans rfl
  case absent =>
    intro s k n c hk hh hs h1 h64 hp hc h4
    obtain ⟨f, he⟩ := Hub.nodeAbsent_due hs hp hc h4 s.now
    obtain ⟨hkept, hpres, hother, -⟩ := s.hub.setPresent_spec hk h1 h64 false s.now
    refine ⟨_, done_of_eq (State.upHub_of_up hh _), rfl, ?_⟩
    rw [State.modHub_hub, he]
    exact ⟨hkept, hpres, hother⟩

end Sys2Proof.Machine
end
section
/-! PROOFS. Connections closed by their timers and counts (R330, R333, R337, R338), and the hub as their carrier (R175, R329). -/

namespace Sys2Proof.Machine

theorem State.upLane_at_next (s : State) (l : LaneId) (t : Nat) (f : Lane → Lane) (h : (s.lane l).rst.held = false) :
    s.OnlyLane ((s.at t).upLane l f) l ∧ ((s.at t).upLane l f).lane l = { f (s.lane l) with notes := [] } := by
  obtain ⟨ho, hl⟩ := (s.at t).upLane_next l f (by rw [State.lane_at]; exact h)
  rw [State.lane_at] at hl
  exact ⟨(s.onlyLane_at t l).trans ho, hl⟩

/-! ### Connections of a lane -/

theorem Lane.conn_setConn_same (x : Lane) (k : Nat) (c : Conn) : (x.setConn k c).conn k = c := sparseGet_set_same _ _ _ _

theorem Lane.conn_setConn_ne (x : Lane) {k j : Nat} (c : Conn) (h : j ≠ k) : (x.setConn k c).conn j = x.conn j := sparseGet_set_ne _ _ _ h

theorem Lane.conn_noted (x : Lane) (ns : List RecNote) (j : Nat) : ({ x with notes := ns }).conn j = x.conn j := rfl

section
variable {x : Lane} {k tn : Nat} {r : TaskRun}

theorem Lane.supervise_late (hc : x.catchOf k tn true = some r) (ho : (x.conn k).isOpen = true)
    (ht : (x.conn k).rxT + (x.desc k).tmo * 1000000 < tn) : x.supervise k tn = x.setConn k ((x.conn k).closeWith 2 tn) := by
  have hcond : ((x.catchOf k tn true).isSome && (x.conn k).isOpen && decide ((x.conn k).rxT + ms (x.desc k).tmo < tn)) = true := by
    rw [hc, ho, show ms (x.desc k).tmo = (x.desc k).tmo * 1000000 from rfl, decide_eq_true ht]; rfl
  unfold Lane.supervise
  dsimp only
  rw [if_pos hcond]
  rfl

theorem Conn.closeWith_spec {c : Conn} (h : c.st ≠ .closed) (reason t : Nat) :
    (c.closeWith reason t).closeDue = some reason ∧ (c.closeWith reason t).payload = none := by
  unfold Conn.closeWith
  rw [if_neg h]
  exact ⟨rfl, rfl⟩

theorem Conn.st_of_isOpen {c : Conn} (h : c.isOpen = true) : c.st ≠ .closed := by
  intro hs
  rw [Conn.isOpen, hs] at h
  exact absurd h (by simp)

/-- The connection that its count of corruptions closes at `now`. -/
def Conn.corruptClosed (c : Conn) (now : Nat) : Conn :=
  { (if c.closeDue = some 0x02 ∧ c.closedT = now then { c with closeDue := some 0x01 } else c.closeWith 0x01 now) with corr := 0 }

theorem Conn.corruptClosed_spec {c : Conn} (h : c.st ≠ .closed) (now : Nat) :
    (c.corruptClosed now).closeDue = some 1 ∧ (c.corruptClosed now).corr = 0 := by
  refine ⟨?_, rfl⟩
  unfold Conn.corruptClosed
  split
  · rfl
  · exact (Conn.closeWith_spec h 1 now).1

theorem Lane.corruptionClose_due (hc : x.catchOf k tn true = some r) (h1 : 1 ≤ (x.desc k).cthr) (h2 : (x.desc k).cthr ≤ (x.conn k).corr) :
    x.corruptionClose k tn = (x.setConn k ((x.conn k).corruptClosed tn)).note blkFirmware 4 338 [] := by
  unfold Lane.corruptionClose
  dsimp only
  rw [if_pos (by rw [hc, decide_eq_true h1, decide_eq_true h2]; rfl)]
  rfl

theorem Lane.corruptionDecay_due (hc : x.catchOf k tn true = some r) (hs : secondBetween r.prevTn tn = true) (hd : (x.conn k).decayT ≠ tn)
    (hlt : (x.conn k).corr < (x.desc k).cthr) :
    x.corruptionDecay k tn = x.setConn k { x.conn k with corr := (x.conn k).corr - 1, decayT := tn } := by
  unfold Lane.corruptionDecay
  rw [hc]
  dsimp only
  rw [if_pos (by simp [hs, hd, hlt])]

theorem Lane.corruptionDecay_not_due (hc : x.catchOf k tn true = some r) (hs : secondBetween r.prevTn tn = false) :
    x.corruptionDecay k tn = x := by
  unfold Lane.corruptionDecay
  rw [hc]
  dsimp only
  rw [if_neg (by simp [hs])]

theorem Lane.respondedTimeout_late (hc : x.catchOf k tn true = some r) (hs : (x.conn k).st = .responded) (h0 : (x.conn k).respT ≠ 0)
    (ht : (x.conn k).respT + (x.desc k).tmo * 1000000 < tn) : x.respondedTimeout k tn = x.setConn k ((x.conn k).shut tn) := by
  unfold Lane.respondedTimeout
  dsimp only
  rw [if_pos ⟨by rw [hc]; rfl, hs, h0, ht⟩]

theorem Lane.holdoffExpiry_over (hc : (x.catchOf k tn false).isSome = true) (hs : (x.conn k).st = .closed) (hi : (x.desc k).connid ≠ 0)
    (ht : (x.conn k).closedT + (x.desc k).holdoff * 1000000 ≤ tn) :
    x.holdoffExpiry k tn = x.setConn k (Conn.start (x.desc k) { x.conn k with holdDone := true }) := by
  unfold Lane.holdoffExpiry
  dsimp only
  rw [if_pos ⟨hc, hs, hi, ht⟩]
end

theorem Conn.start_of_over (d : ConnDesc) {c : Conn} (h : c.st = .closed) :
    (Conn.start d { c with holdDone := true }).holdDone = true ∧
      (Conn.start d { c with holdDone := true }).st = if d.init = true then .requested else .closed := by
  unfold Conn.start
  cases d.init with
  | true => rw [if_pos ⟨rfl, h, rfl⟩]; exact ⟨rfl, rfl⟩
  | false => rw [if_neg (by simp)]; exact ⟨rfl, h⟩

/-! ### The engine's verdict (R325) -/

/-- The three lane-code bits of a verdict. -/
theorem verdict_bits (a b c : Bool) :
    (BitVec.ofNat 3 (b2n a + 2 * b2n b + 4 * b2n c)).getLsbD 0 = a ∧ (BitVec.ofNat 3 (b2n a + 2 * b2n b + 4 * b2n c)).getLsbD 1 = b ∧
      (BitVec.ofNat 3 (b2n a + 2 * b2n b + 4 * b2n c)).getLsbD 2 = c := by
  cases a <;> cases b <;> cases c <;> decide

/-- The lane-code slots of `g` that match what a key expects. -/
def verdictCodes (e : KeyEntry) (g : Tlg) : BitVec 3 :=
  BitVec.ofNat 3 (b2n (g.codeA == g.laneCode e.rxA) + 2 * b2n (g.codeB == g.laneCode e.rxB) + 4 * b2n (g.codeC == g.laneCode e.rxC))

theorem verdictCodes_spec (e : KeyEntry) (g : Tlg) :
    ((verdictCodes e g).getLsbD 0 = true ↔ g.codeA = g.laneCode e.rxA) ∧ ((verdictCodes e g).getLsbD 1 = true ↔ g.codeB = g.laneCode e.rxB) ∧
      ((verdictCodes e g).getLsbD 2 = true ↔ g.codeC = g.laneCode e.rxC) := by
  obtain ⟨h0, h1, h2⟩ := verdict_bits (g.codeA == g.laneCode e.rxA) (g.codeB == g.laneCode e.rxB) (g.codeC == g.laneCode e.rxC)
  unfold verdictCodes
  rw [h0, h1, h2, beq_iff_eq, beq_iff_eq, beq_iff_eq]
  exact ⟨Iff.rfl, Iff.rfl, Iff.rfl⟩

theorem execSignEngineCheck_parsed {s : State} {l : LaneId} (hl : (s.lane l).rst.held = false) (k : Nat) {bs : List Byte} {g : Tlg}
    (hp : parseTlg bs = some g) :
    exec (.signEngineCheck l k bs) s =
      .next { s with bus := .verdict (g.scrc == g.safetyCrc ((s.lane l).key k).safety) (g.tagOk ((s.lane l).key k)) (verdictCodes ((s.lane l).key k) g) } := by
  show execSignEngineCheck l k bs s = _
  unfold execSignEngineCheck
  dsimp only
  rw [if_neg (by simp [hl]), hp]
  rfl

/-! ### What the hub's carrier keeps -/

/-- The gateway changes registers and its own store only. -/
def Hub.OnlySgw (h u : Hub) : Prop := u = { h with reg := u.reg, sgw := u.sgw }

theorem Hub.OnlySgw.trans {h u v : Hub} (a : h.OnlySgw u) (b : u.OnlySgw v) : h.OnlySgw v := by
  unfold Hub.OnlySgw at a b ⊢
  rw [a] at b
  exact b

theorem Hub.sgwTake_onlySgw (h : Hub) (i : Nat) (e : List Word) (payload : List Byte) (t : Nat) : h.OnlySgw (h.sgwTake i e payload t) := by
  unfold Hub.sgwTake
  split
  · rfl
  · split
    · rfl
    · dsimp only
      split <;> rfl

theorem Hub.onlySgw_foldl {α : Type} (f : Hub → α → Hub) (hf : ∀ (h : Hub) x, h.OnlySgw (f h x)) (xs : List α) (h : Hub) :
    h.OnlySgw (xs.foldl f h) := by
  induction xs generalizing h with
  | nil => exact rfl
  | cons x xs ih => exact (hf h x).trans (ih _)

theorem Hub.sgwTelegram_onlySgw (h : Hub) (kind conn : Nat) (bytes : List Byte) (t : Nat) : h.OnlySgw (h.sgwTelegram kind conn bytes t) := by
  unfold Hub.sgwTelegram
  split
  · unfold Hub.sgwSource
    split
    · exact rfl
    · exact Hub.onlySgw_foldl _ (fun h x => h.sgwTake_onlySgw _ _ _ _) _ _
  · exact rfl

theorem Hub.OnlySgw.mbx {h u : Hub} (a : h.OnlySgw u) (l : LaneId) : u.mbx l = h.mbx l := by
  rw [a]
  cases l <;> rfl

theorem Hub.foldl_modMbx (f : Mailbox → Mailbox) (ls : List LaneId) (hn : ls.Nodup) (h : Hub) :
    (∀ l, (ls.foldl (fun (h : Hub) l => h.modMbx l f) h).mbx l = if l ∈ ls then f (h.mbx l) else h.mbx l) ∧
      (ls.foldl (fun (h : Hub) l => h.modMbx l f) h).asm = h.asm := by
  induction ls generalizing h with
  | nil => exact ⟨fun _ => rfl, rfl⟩
  | cons k ls ih =>
    obtain ⟨hk, hn'⟩ := List.nodup_cons.mp hn
    obtain ⟨hm, ha⟩ := ih hn' (h.modMbx k f)
    refine ⟨fun l => ?_, ha.trans (Hub.modMbx_asm ..)⟩
    rw [List.foldl_cons, hm l]
    by_cases hl : l = k
    · subst hl
      rw [if_neg hk, if_pos List.mem_cons_self, Hub.mbx_modMbx]
    · rw [Hub.mbx_modMbx_ne _ _ hl]
      simp [hl]

theorem Hub.allMbx_spec (f : Mailbox → Mailbox) (h : Hub) (l : LaneId) : (allLanes.foldl (fun (h : Hub) l => h.modMbx l f) h).mbx l = f (h.mbx l) := by
  rw [(Hub.foldl_modMbx f allLanes (by decide) h).1 l, if_pos (by cases l <;> decide)]

/-! ### Assembly (R175) -/

/-- The hub after an assembled telegram has become its connection's latest. -/
def Hub.latestSet (h : Hub) (conn : Nat) (bytes : List Byte) (fin t : Nat) : Hub :=
  let u := h.sgwTelegram 1 conn bytes t
  { u with asm := sparseSet (fun _ => AsmTlg.none) u.asm conn { bytes := bytes, from_ := fin + 60000, prev := u.asmAt conn fin } }

/-- A telegram's way to its carrier changes neither the mailboxes nor the latest telegrams. -/
theorem Hub.assembled_spec (h : Hub) (conn : Nat) (bytes : List Byte) (fin t : Nat) :
    (∀ l, (h.assembled conn bytes fin t).mbx l = h.mbx l) ∧ (h.assembled conn bytes fin t).asm = (h.latestSet conn bytes fin t).asm := by
  have hlatest : ∀ l, (h.latestSet conn bytes fin t).mbx l = h.mbx l := fun l => by
    refine Eq.trans ?_ ((h.sgwTelegram_onlySgw 1 conn bytes t).mbx l)
    cases l <;> rfl
  have hsend : ∀ ty bs put, ((h.latestSet conn bytes fin t).sendFrame ty bs put).asm = (h.latestSet conn bytes fin t).asm := fun ty bs put => by
    unfold Hub.sendFrame
    split <;> rfl
  unfold Hub.assembled
  dsimp only
  split
  · exact ⟨fun l => (Hub.sendFrame_mbx _ _ _ _ l).trans (hlatest l), hsend _ _ _⟩
  · split
    · exact ⟨fun l => Eq.trans (by cases l <;> rfl) (hlatest l), rfl⟩
    · split
      · exact ⟨fun l => Eq.trans (by cases l <;> rfl) (hlatest l), rfl⟩
      · exact ⟨hlatest, rfl⟩

theorem Hub.latestSet_asm (h : Hub) (conn : Nat) (bytes : List Byte) (fin t : Nat) :
    (sparseGet (fun _ => AsmTlg.none) (h.latestSet conn bytes fin t).asm conn).bytes = bytes ∧
      (sparseGet (fun _ => AsmTlg.none) (h.latestSet conn bytes fin t).asm conn).from_ = fin + 60000 := by
  unfold Hub.latestSet
  dsimp only
  rw [sparseGet_set_same]
  exact ⟨rfl, rfl⟩

/-- The copies of one finish are assembled. -/
def Hub.assembleOne (h : Hub) (t : Nat) (x : Nat × Nat) : Hub :=
  match assembleGroup (largestGroup (h.copies x.1 x.2)) with
  | some g => h.assembled x.1 g.bytes x.2 t
  | none => h

theorem Hub.assembleOne_mbx (h : Hub) (t : Nat) (x : Nat × Nat) (l : LaneId) : (h.assembleOne t x).mbx l = h.mbx l := by
  unfold Hub.assembleOne
  split
  · exact (h.assembled_spec _ _ _ _).1 l
  · rfl

theorem Hub.assembleOne_of_group {h : Hub} {x : Nat × Nat} {g : Tlg} (hg : assembleGroup (largestGroup (h.copies x.1 x.2)) = some g) (t : Nat) :
    h.assembleOne t x = h.assembled x.1 g.bytes x.2 t := by
  unfold Hub.assembleOne
  rw [hg]

theorem Hub.foldl_assembleOne_mbx (t : Nat) (xs : List (Nat × Nat)) (h : Hub) (l : LaneId) :
    (xs.foldl (fun (h : Hub) x => h.assembleOne t x) h).mbx l = h.mbx l := by
  induction xs generalizing h with
  | nil => rfl
  | cons x xs ih => exact (ih _).trans (h.assembleOne_mbx t x l)

/-- A mailbox without the copies of the finishes named. -/
def Mailbox.without (m : Mailbox) (due : List (Nat × Nat)) : Mailbox := { m with outTlg := m.outTlg.filter fun o => !due.contains (o.conn, o.t) }

theorem Hub.assemble_eq {h : Hub} (hc : h.carries = true) (t : Nat) :
    h.assemble t = allLanes.foldl (fun (u : Hub) l => u.modMbx l fun (m : Mailbox) => m.without (h.dueCopies t))
      ((h.dueCopies t).foldl (fun (u : Hub) x => u.assembleOne t x) h) :=
  if_neg (by simp [hc])

theorem mem_foldl_insertL {α : Type} [DecidableEq α] (xs acc : List α) (y : α) :
    y ∈ xs.foldl (fun acc x => insertL x acc) acc ↔ y ∈ acc ∨ y ∈ xs := by
  induction xs generalizing acc with
  | nil => simp
  | cons x xs ih =>
    rw [List.foldl_cons, ih, mem_insertL, List.mem_cons]
    tauto

/-- The finishes due are those of copies 50 µs past. -/
theorem Hub.mem_dueCopies (h : Hub) (t : Nat) (e : Nat × Nat) :
    e ∈ h.dueCopies t ↔ ∃ l, ∃ o ∈ (h.mbx l).outTlg, o.t + 50000 ≤ t ∧ (o.conn, o.t) = e := by
  unfold Hub.dueCopies
  rw [mem_foldl_insertL]
  simp only [List.not_mem_nil, false_or, List.mem_flatMap, List.mem_map, List.mem_filter, decide_eq_true_eq]
  constructor
  · rintro ⟨l, -, o, ⟨ho, ht⟩, he⟩
    exact ⟨l, o, ho, ht, he⟩
  · rintro ⟨l, o, ho, ht, he⟩
    exact ⟨l, by cases l <;> decide, o, ⟨ho, ht⟩, he⟩

theorem Hub.outTlg_without (h : Hub) (t : Nat) (l : LaneId) :
    ((h.mbx l).without (h.dueCopies t)).outTlg = (h.mbx l).outTlg.filter fun o => decide (t < o.t + 50000) := by
  refine List.filter_congr fun o ho => ?_
  have hiff : (o.conn, o.t) ∈ h.dueCopies t ↔ o.t + 50000 ≤ t := by
    rw [Hub.mem_dueCopies]
    constructor
    · rintro ⟨l', o', -, ht, he⟩
      have : o'.t = o.t := (Prod.mk.inj he).2
      omega
    · exact fun ht => ⟨l, o, ho, ht, rfl⟩
  by_cases ht : o.t + 50000 ≤ t
  · rw [decide_eq_false (by omega), List.contains_iff_mem.mpr (hiff.mpr ht)]; rfl
  · have hno : (h.dueCopies t).contains (o.conn, o.t) = false := by
      rw [Bool.eq_false_iff, ne_eq, List.contains_iff_mem, hiff]; exact ht
    rw [decide_eq_true (by omega), hno]; rfl

theorem Hub.assemble_asm {h : Hub} (hc : h.carries = true) {t : Nat} {x : Nat × Nat} {g : Tlg} (hdue : h.dueCopies t = [x])
    (hg : assembleGroup (largestGroup (h.copies x.1 x.2)) = some g) : (h.assemble t).asm = (h.latestSet x.1 g.bytes x.2 t).asm := by
  have hone := Hub.assembleOne_of_group hg t
  rw [Hub.assemble_eq hc, (Hub.foldl_modMbx _ allLanes (by decide) _).2, hdue]
  exact (congrArg Hub.asm hone).trans (h.assembled_spec _ _ _ _).2

/-! ### Delivery (R329, R44) -/

theorem Hub.carries_of_sgw {h u : Hub} (a : h.OnlySgw u) : u.carries = h.carries := by
  rw [a]; rfl

theorem Hub.isStandby_of_counts {h u : Hub} (a : h.CountsOnly u) : u.isStandby = h.isStandby := by
  have hrole : u.fget PTNR_STAT_ROLE = h.fget PTNR_STAT_ROLE := by
    unfold Hub.fget
    rw [a _ (fun p => by show PTNR_STAT ≠ SGW_CANCNT p; unfold PTNR_STAT SGW_CANCNT; omega)]
  unfold Hub.isStandby
  rw [hrole]

/-- A telegram received in a hub that carries and is no standby reaches all three mailboxes. -/
theorem Hub.received_mbx {h : Hub} (hc : h.carries = true) (hs : h.isStandby = false) (conn : Nat) (bytes : List Byte) (t : Nat) (l : LaneId) :
    (h.received conn bytes t).mbx l = { h.mbx l with inTlg := (h.mbx l).inTlg ++ [{ conn := conn, bytes := bytes, t := t }] } := by
  have hsgw := h.sgwTelegram_onlySgw 2 conn bytes t
  have hc' : (h.sgwTelegram 2 conn bytes t).carries = true := (Hub.carries_of_sgw hsgw).trans hc
  have hs' : (h.sgwTelegram 2 conn bytes t).isStandby = false := (Hub.isStandby_of_counts (h.sgwTelegram_counts 2 conn bytes t)).trans hs
  unfold Hub.received Hub.deliver
  dsimp only
  rw [if_neg (by simp [hc']), if_neg (by simp [hs'])]
  unfold Hub.intoMailboxes
  rw [Hub.allMbx_spec, hsgw.mbx]

/-- What a lane in sit ready or in easy all leaves of its mailbox. -/
theorem State.discardUnread_mbx (s : State) (l : LaneId) :
    s.discardUnread.hub.mbx l = if (s.lane l).sitReady || (s.lane l).easy then { s.hub.mbx l with inTlg := [] } else s.hub.mbx l := by
  have hfold : ∀ (ls : List LaneId), ls.Nodup → ∀ u : State, (∀ k, u.lane k = s.lane k) →
      (ls.foldl (fun (s : State) l =>
        if (s.lane l).sitReady || (s.lane l).easy then s.modHub (·.modMbx l fun (m : Mailbox) => { m with inTlg := [] }) else s) u).hub.mbx l =
        if l ∈ ls ∧ ((s.lane l).sitReady || (s.lane l).easy) = true then { u.hub.mbx l with inTlg := [] } else u.hub.mbx l := by
    intro ls
    induction ls with
    | nil => exact fun _ u _ => by simp
    | cons k ls ih =>
      intro hn u hu
      obtain ⟨hk, hn'⟩ := List.nodup_cons.mp hn
      rw [List.foldl_cons, hu k]
      by_cases hd : ((s.lane k).sitReady || (s.lane k).easy) = true
      · rw [if_pos hd, ih hn' _ fun j => (State.modHub_lane ..).trans (hu j)]
        rw [State.modHub_hub]
        by_cases hl : l = k
        · subst hl
          rw [if_neg (by simp [hk]), if_pos ⟨List.mem_cons_self, hd⟩, Hub.mbx_modMbx]
        · rw [Hub.mbx_modMbx_ne _ _ hl]
          simp [hl]
      · rw [if_neg hd, ih hn' u hu]
        by_cases hl : l = k
        · subst hl
          rw [if_neg (by simp [hk]), if_neg (by simp [hd])]
        · simp [hl]
  have hall := hfold allLanes (by decide) s fun _ => rfl
  refine hall.trans ?_
  have hmem : l ∈ allLanes := by cases l <;> decide
  simp only [hmem, true_and]

theorem Hub.ethernetFrame_routed {h : Hub} {p k : Nat} (hb : h.blockOff (0x30 + p) = false) {bs g : List Byte}
    (hg : ethernetTlg h.set.estEtype bs = some g) (hk : h.connOf 3 (tlgConnid g) = some k) (t : Nat) :
    h.ethernetFrame p bs t = h.received k g t := by
  unfold Hub.ethernetFrame
  rw [if_neg (by simp [hb]), hg]
  dsimp only
  rw [hk]

theorem State.carry_hub {s : State} (hh : s.hub.rst.held = false) (f : Hub → Hub) : s.carry f = (s.modHub f).discardUnread :=
  if_neg (by simp [hh])

/-! ### The obligation -/

section
variable {s : State} {l : LaneId} {k tn : Nat} {r : TaskRun} (hl : (s.lane l).rst.held = false)
  (hc : (s.lane l).catchOf k tn true = some r)
include hl hc

theorem supervisionCloses (ho : ((s.lane l).conn k).isOpen = true) (ht : ((s.lane l).conn k).rxT + ((s.lane l).desc k).tmo * 1000000 < tn) :
    ∃ t, exec (.supervisionTimeout l k tn) s = .next t ∧ s.OnlyLane t l ∧ (t.lane l).reg = (s.lane l).reg ∧
      ((t.lane l).conn k).closeDue = some 2 ∧ ((t.lane l).conn k).payload = none ∧ ∀ j, j ≠ k → (t.lane l).conn j = (s.lane l).conn j := by
  obtain ⟨honly, hlane⟩ := s.upLane_at_next l tn (·.supervise k tn) hl
  obtain ⟨hdue, hpay⟩ := Conn.closeWith_spec (Conn.st_of_isOpen ho) 2 tn
  refine ⟨_, rfl, honly, ?_⟩
  rw [hlane, Lane.supervise_late hc ho ht]
  simp only [Lane.conn_noted, Lane.conn_setConn_same]
  exact ⟨rfl, hdue, hpay, fun j hj => Lane.conn_setConn_ne _ _ hj⟩

theorem corruptionCloses (h1 : 1 ≤ ((s.lane l).desc k).cthr) (h2 : ((s.lane l).desc k).cthr ≤ ((s.lane l).conn k).corr)
    (hst : ((s.lane l).conn k).st ≠ .closed) :
    ∃ t, exec (.corruptionClose l k tn) s = .next t ∧ s.OnlyLane t l ∧ (t.lane l).reg = (s.lane l).reg ∧
      ((t.lane l).conn k).closeDue = some 1 ∧ ((t.lane l).conn k).corr = 0 ∧ ∀ j, j ≠ k → (t.lane l).conn j = (s.lane l).conn j := by
  obtain ⟨honly, hlane⟩ := s.upLane_at_next l tn (·.corruptionClose k tn) hl
  obtain ⟨hdue, hcorr⟩ := Conn.corruptClosed_spec hst tn
  have hconn : ∀ j, (((s.lane l).setConn k (((s.lane l).conn k).corruptClosed tn)).note blkFirmware 4 338 []).conn j =
      ((s.lane l).setConn k (((s.lane l).conn k).corruptClosed tn)).conn j := fun _ => rfl
  refine ⟨_, rfl, honly, ?_⟩
  rw [hlane, Lane.corruptionClose_due hc h1 h2]
  simp only [Lane.conn_noted, hconn, Lane.conn_setConn_same]
  exact ⟨rfl, hdue, hcorr, fun j hj => Lane.conn_setConn_ne _ _ hj⟩

theorem corruptionDecays (hs : secondBetween r.prevTn tn = true) (hd : ((s.lane l).conn k).decayT ≠ tn)
    (hlt : ((s.lane l).conn k).corr < ((s.lane l).desc k).cthr) :
    ∃ t, exec (.corruptionDecay l k tn) s = .next t ∧ s.OnlyLane t l ∧ (t.lane l).reg = (s.lane l).reg ∧
      (t.lane l).conn k = { (s.lane l).conn k with corr := ((s.lane l).conn k).corr - 1, decayT := tn } ∧
      ∀ j, j ≠ k → (t.lane l).conn j = (s.lane l).conn j := by
  obtain ⟨honly, hlane⟩ := s.upLane_at_next l tn (·.corruptionDecay k tn) hl
  refine ⟨_, rfl, honly, ?_⟩
  rw [hlane, Lane.corruptionDecay_due hc hs hd hlt]
  simp only [Lane.conn_noted, Lane.conn_setConn_same]
  exact ⟨rfl, trivial, fun j hj => Lane.conn_setConn_ne _ _ hj⟩

theorem respondedShuts (hst : ((s.lane l).conn k).st = .responded) (h0 : ((s.lane l).conn k).respT ≠ 0)
    (ht : ((s.lane l).conn k).respT + ((s.lane l).desc k).tmo * 1000000 < tn) :
    ∃ t, exec (.respondedTimeout l k tn) s = .next t ∧ s.OnlyLane t l ∧ ((t.lane l).conn k).st = .closed ∧
      ((t.lane l).conn k).closeDue = none ∧ ∀ j, j ≠ k → (t.lane l).conn j = (s.lane l).conn j := by
  obtain ⟨honly, hlane⟩ := s.upLane_at_next l tn (·.respondedTimeout k tn) hl
  refine ⟨_, rfl, honly, ?_⟩
  rw [hlane, Lane.respondedTimeout_late hc hst h0 ht]
  simp only [Lane.conn_noted, Lane.conn_setConn_same]
  exact ⟨rfl, rfl, fun j hj => Lane.conn_setConn_ne _ _ hj⟩
end

/-- Settles O45: each event writes its own connection back; the hub's carrier writes the mailboxes and the latest telegrams. -/
theorem connectionsCloseByTimersAndTheHubOnlyCarries : Obligations.ConnectionsCloseByTimersAndTheHubOnlyCarries := by
  unfold Obligations.ConnectionsCloseByTimersAndTheHubOnlyCarries
  refine ⟨⟨?timers, ?holdoff, ?engine⟩, ?assembly, ?ethernet⟩
  case timers =>
    intro s l k tn r hl hc
    refine ⟨supervisionCloses hl hc, corruptionCloses hl hc, corruptionDecays hl hc, fun hs => ?_, respondedShuts hl hc⟩
    obtain ⟨-, hlane⟩ := s.upLane_at_next l tn (·.corruptionDecay k tn) hl
    refine ⟨_, rfl, fun j => ?_⟩
    rw [hlane, Lane.corruptionDecay_not_due hc hs]
    rfl
  case holdoff =>
    intro s l k tn hl hc he hr hst hi ht
    obtain ⟨honly, hlane⟩ := s.upLane_at_next l tn (fun x => if x.easy || !x.running then x else x.holdoffExpiry k tn) hl
    obtain ⟨hdone, hst'⟩ := Conn.start_of_over ((s.lane l).desc k) hst
    refine ⟨_, rfl, honly, ?_⟩
    rw [hlane, if_neg (by simp [he, hr]), Lane.holdoffExpiry_over hc hst hi ht]
    simp only [Lane.conn_noted, Lane.conn_setConn_same]
    exact ⟨hdone, hst', fun j hj => Lane.conn_setConn_ne _ _ hj⟩
  case engine =>
    intro s l k bs g hl hp
    exact ⟨_, execSignEngineCheck_parsed hl k hp, verdictCodes_spec _ g⟩
  case assembly =>
    intro s tm hh hc
    refine ⟨_, done_of_eq (State.upHub_of_up (s := s.at tm) hh _), rfl, ?_⟩
    rw [State.modHub_hub, State.at_hub, Hub.assemble_eq hc]
    refine ⟨fun l => ?_, fun c x g hdue hg => ?_⟩
    · rw [Hub.allMbx_spec, Hub.foldl_assembleOne_mbx]
      exact ⟨s.hub.outTlg_without tm l, rfl⟩
    · rw [← Hub.assemble_eq hc, Hub.assemble_asm hc hdue hg]
      exact Hub.latestSet_asm _ _ _ _ _
  case ethernet =>
    intro s p k tm bs g hh hc hb hs hg hk
    have hc' : (s.at tm).carry (·.ethernetFrame p bs tm) = ((s.at tm).modHub (·.ethernetFrame p bs tm)).discardUnread := State.carry_hub (s := s.at tm) hh _
    refine ⟨_, rfl, ((s.at tm).carry_spec hh _).1, fun l => ?_⟩
    have hmbx := State.discardUnread_mbx ((s.at tm).modHub (·.ethernetFrame p bs tm)) l
    rw [State.modHub_lane, State.lane_at, State.modHub_hub, State.at_hub, Hub.ethernetFrame_routed hb hg hk, Hub.received_mbx hc hs] at hmbx
    rw [hc', hmbx]
    refine ⟨fun hq => ?_, fun hq => ?_⟩
    · rw [if_neg (by simp [hq.1, hq.2])]
    · rw [if_pos (by simpa using hq)]

end Sys2Proof.Machine
end
section
/-! PROOFS. The pair of modules: roles, claims, forwarded inputs, pages and forwarded images (R341 to R364, R458). -/

namespace Sys2Proof.Machine

/-! ### Telling the lanes (R344) -/

/-- The lanes changed, and of the hub the recorder alone. -/
def State.LanesTold (s t : State) : Prop :=
  s.hub.SameButRec t.hub ∧ t = { s with now := t.now, la := t.la, lb := t.lb, lc := t.lc, hub := t.hub }

theorem State.LanesTold.refl (s : State) : s.LanesTold s := ⟨Hub.SameButRec.refl _, rfl⟩

theorem State.LanesTold.trans {s t u : State} (a : s.LanesTold t) (b : t.LanesTold u) : s.LanesTold u := by
  obtain ⟨ha, ht⟩ := a
  obtain ⟨hb, hu⟩ := b
  refine ⟨ha.trans hb, ?_⟩
  rw [ht] at hu
  exact hu

theorem State.tellLanes_told (s : State) (f : Lane → Lane) : s.LanesTold (s.tellLanes f) := by
  have hfold : ∀ (ls : List LaneId) (u : State), s.LanesTold u → s.LanesTold (ls.foldl (fun (s : State) l => s.upLane l f) u) := by
    intro ls
    induction ls with
    | nil => exact fun _ h => h
    | cons l ls ih =>
      intro u hu
      obtain ⟨-, hrec, ht⟩ := u.upLane_onlyLane l f
      exact ih _ (hu.trans ⟨hrec, ht⟩)
  exact hfold _ s (State.LanesTold.refl s)

theorem State.tellLanes_lane (s : State) (f : Lane → Lane) (l : LaneId) : (s.tellLanes f).lane l = (s.lane l).upped f :=
  s.upAll_lane f l

theorem Hub.SameButRec.ptnr_eq {h k : Hub} (a : h.SameButRec k) : k.ptnr = h.ptnr := by rw [a.1]
theorem Hub.SameButRec.upd_eq {h k : Hub} (a : h.SameButRec k) : k.upd = h.upd := by rw [a.1]
theorem Hub.SameButRec.regs {h k : Hub} (a : h.SameButRec k) {as : List Nat} (hm : REC_STAT ∈ as) : h.RegsKept k as :=
  Hub.RegsKept.mono a.2 fun x hx => by rw [List.mem_singleton.mp hx]; exact hm

theorem State.LanesTold.field_eq {s t : State} (a : s.LanesTold t) : t.field = s.field := by rw [a.2]
theorem State.LanesTold.flash0_eq {s t : State} (a : s.LanesTold t) : t.flash0 = s.flash0 := by rw [a.2]
theorem State.LanesTold.flash1_eq {s t : State} (a : s.LanesTold t) : t.flash1 = s.flash1 := by rw [a.2]
theorem State.LanesTold.ptnr_eq {s t : State} (a : s.LanesTold t) : t.hub.ptnr = s.hub.ptnr := a.1.ptnr_eq
theorem State.LanesTold.upd_eq {s t : State} (a : s.LanesTold t) : t.hub.upd = s.hub.upd := a.1.upd_eq

theorem State.LanesTold.rg_eq {s t : State} (a : s.LanesTold t) {r : Nat} (hr : r ≠ REC_STAT) : t.hub.rg r = s.hub.rg r :=
  a.1.2 r (by simpa using hr)
theorem State.LanesTold.fget_eq {s t : State} (a : s.LanesTold t) {f : Fld} (hf : f.addr ≠ REC_STAT) : t.hub.fget f = s.hub.fget f :=
  Hub.RegsKept.fget a.1.2 (by simpa using hf)
theorem State.LanesTold.on_eq {s t : State} (a : s.LanesTold t) {f : Fld} (hf : f.addr ≠ REC_STAT) : t.hub.on f = s.hub.on f :=
  Hub.RegsKept.on a.1.2 (by simpa using hf)

theorem Lane.upped_held {x : Lane} (h : x.rst.held = true) (f : Lane → Lane) : x.upped f = x := if_pos h

/-- What a lane has of `P` stands when neither the change nor the emptied notes touch it. -/
theorem Lane.upped_part {α : Type} (P : Lane → α) (x : Lane) {f : Lane → Lane} (hf : P { f x with notes := [] } = P x) :
    P (x.upped f) = P x := by
  unfold Lane.upped
  split
  · rfl
  · exact hf

/-! ### Frames of the pair (R342) -/

/-- The hub once the first copy of a frame is noted. -/
def Hub.heardFrame (h : Hub) (ty link : Nat) (q : Word) : Hub :=
  { h.fset (upOf link) 1 with ptnr := { h.ptnr with seen := ((ty, q) :: h.ptnr.seen).take seenKeep } }

theorem State.firstCopy_new {s : State} {ty link : Nat} {q : Word} (hs : (ty, q) ∉ s.hub.ptnr.seen) :
    s.firstCopy ty link q = some (s.modHub (·.heardFrame ty link q)) := by
  unfold State.firstCopy
  dsimp only
  rw [if_neg (by simpa using hs)]
  rfl

theorem State.frameIn_new {s : State} {ty link : Nat} {frame c : List Byte} {q : Word} (hl : link < 2) (hp : s.hub.partners = true)
    (hc : partnerContent ty frame = some (q, c)) (hs : (ty, q) ∉ s.hub.ptnr.seen) (f : List Byte → State → State) :
    s.frameIn ty link frame f = f c (s.modHub (·.heardFrame ty link q)) := by
  unfold State.frameIn
  rw [if_neg (by simp [hp, hl]), hc]
  dsimp only
  rw [State.firstCopy_new hs]

theorem State.forwards_new {s : State} {ty link : Nat} {frame c : List Byte} {q : Word} (hu : s.hub.up = true) (hl : s.linkOpen link = true)
    (hc : partnerContent ty frame = some (q, c)) (hs : (ty, q) ∉ s.hub.ptnr.seen) (f : List Byte → State → State) :
    s.forwards ty link frame f = f c (s.modHub (·.heardFrame ty link q)) := by
  unfold State.forwards
  rw [if_neg (by simp [hu, hl]), hc]
  dsimp only
  rw [State.firstCopy_new hs]

theorem partnerContent_of_bad {frame : List Byte} (h : lcrcOk frame = false) (ty : Nat) : partnerContent ty frame = none :=
  if_neg (by simp [h])

theorem State.frameIn_bad {frame : List Byte} (h : lcrcOk frame = false) (s : State) (ty link : Nat) (f : List Byte → State → State) :
    s.frameIn ty link frame f = s := by
  unfold State.frameIn
  rw [partnerContent_of_bad h]
  exact ite_self _

theorem State.forwards_bad {frame : List Byte} (h : lcrcOk frame = false) (s : State) (ty link : Nat) (f : List Byte → State → State) :
    s.forwards ty link frame f = s := by
  unfold State.forwards
  rw [partnerContent_of_bad h]
  exact ite_self _

theorem Hub.heardFrame_regs (h : Hub) (ty link : Nat) (q : Word) : h.RegsKept (h.heardFrame ty link q) [PTNR_STAT] := by
  have ha : (upOf link).addr = PTNR_STAT := by unfold upOf; split <;> rfl
  exact (h.regsKept_fset 1 (by rw [ha]; exact List.mem_singleton_self _)).trans (Hub.regsKept_of_reg_eq rfl _)

theorem Hub.heardFrame_fget (h : Hub) (ty link : Nat) (q : Word) {f : Fld} (ha : f.addr = PTNR_STAT)
    (hf : (Nat.ble (f.lo + f.w) 3 || (Nat.ble 5 f.lo && Nat.ble (f.lo + f.w) 32)) = true) :
    (h.heardFrame ty link q).fget f = h.fget f := by
  refine (Hub.fget_of_reg_eq (h := h.fset (upOf link) 1) rfl f).trans ?_
  simp only [Bool.or_eq_true, Bool.and_eq_true, Nat.ble_eq] at hf
  unfold upOf
  split
  · exact Hub.fget_fset_apart h 1 ha (by simp; omega) (by simp [PTNR_STAT_UP0]; omega)
  · exact Hub.fget_fset_apart h 1 ha (by simp; omega) (by simp [PTNR_STAT_UP1]; omega)

theorem Hub.heardFrame_role (h : Hub) (ty link : Nat) (q : Word) : (h.heardFrame ty link q).role = h.role :=
  h.heardFrame_fget ty link q rfl rfl

theorem Hub.heardFrame_on (h : Hub) (ty link : Nat) (q : Word) {f : Fld} (ha : f.addr = PTNR_STAT)
    (hf : (Nat.ble (f.lo + f.w) 3 || (Nat.ble 5 f.lo && Nat.ble (f.lo + f.w) 32)) = true) :
    (h.heardFrame ty link q).on f = h.on f := by
  unfold Hub.on; rw [h.heardFrame_fget ty link q ha hf]

theorem Hub.heardFrame_up (h : Hub) (ty link : Nat) (q : Word) : (h.heardFrame ty link q).on (upOf link) = true := by
  refine (Hub.on_of_reg_eq (h := h.fset (upOf link) 1) rfl _).trans ?_
  unfold upOf
  split
  · exact Hub.on_fset_set h _ rfl rfl
  · exact Hub.on_fset_set h _ rfl rfl

/-! ### Gated writes of a claim, and of an image block (R362, R443) -/

/-- A gated write touched the flash, the update unit and the count of deferrals, and nothing else. -/
structure State.Stored (s t : State) : Prop where
  frame : t = { s with flash0 := t.flash0, flash1 := t.flash1, hub := t.hub }
  hub : t.hub = { s.hub with reg := t.hub.reg, upd := t.hub.upd }
  regs : s.hub.RegsKept t.hub [NVW_STAT]

theorem State.Stored.refl (s : State) : s.Stored s := ⟨rfl, rfl, Hub.RegsKept.refl _ _⟩

theorem State.Stored.lane_eq {s t : State} (a : s.Stored t) (l : LaneId) : t.lane l = s.lane l := by rw [a.frame]; cases l <;> rfl
theorem State.Stored.field_eq {s t : State} (a : s.Stored t) : t.field = s.field := by rw [a.frame]
theorem State.Stored.ptnr_eq {s t : State} (a : s.Stored t) : t.hub.ptnr = s.hub.ptnr := by rw [a.hub]
theorem State.Stored.fget_eq {s t : State} (a : s.Stored t) {f : Fld} (hf : f.addr ≠ NVW_STAT) : t.hub.fget f = s.hub.fget f :=
  a.regs.fget (by simpa using hf)
theorem State.Stored.on_eq {s t : State} (a : s.Stored t) {f : Fld} (hf : f.addr ≠ NVW_STAT) : t.hub.on f = s.hub.on f :=
  a.regs.on (by simpa using hf)
theorem State.Stored.rg_eq {s t : State} (a : s.Stored t) {r : Nat} (hr : r ≠ NVW_STAT) : t.hub.rg r = s.hub.rg r :=
  a.regs r (by simpa using hr)

theorem State.writeClaimRec_stored (s : State) (c : Word) : s.Stored (s.writeClaimRec c) ∧ (s.writeClaimRec c).flash0 = s.flash0 ∧
    (s.writeClaimRec c).hub.reg = s.hub.reg ∧ (s.hub.on NVW_STAT_PF = false → (s.writeClaimRec c).hub.upd.claim = c) := by
  unfold State.writeClaimRec
  cases hp : s.hub.on NVW_STAT_PF
  · exact ⟨⟨rfl, rfl, Hub.regsKept_of_reg_eq rfl _⟩, rfl, rfl, fun _ => rfl⟩
  · exact ⟨State.Stored.refl s, rfl, rfl, fun h => absurd h (by simp)⟩

/-- A gated write is refused at a power failure, performed, or deferred (R443). -/
theorem State.gated_stored {s : State} {g : GatedWrite} (hperf : s.Stored (s.performWrite g)) : s.Stored (s.gated g) := by
  unfold State.gated
  split
  · exact State.Stored.refl s
  · split
    · exact hperf
    · exact ⟨rfl, rfl, (s.hub.regsKept_fsat (f := NVW_STAT_DEFCNT) 1 (List.mem_singleton_self _)).trans (Hub.regsKept_of_reg_eq rfl _)⟩

theorem State.performWrite_claim_stored (s : State) {g : GatedWrite} (hg : g.kind = .claim) : s.Stored (s.performWrite g) := by
  unfold State.performWrite
  rw [hg]
  exact (s.writeClaimRec_stored _).1

theorem State.performWrite_block_stored (s : State) {g : GatedWrite} (hg : g.kind = .block) (hc : g.cmd = none) :
    s.Stored (s.performWrite g) ∧ (s.performWrite g).flash1 = s.flash1 := by
  unfold State.performWrite
  rw [hg, hc]
  exact ⟨⟨rfl, rfl, Hub.regsKept_of_reg_eq rfl _⟩, rfl⟩

theorem State.gated_block_flash1 (s : State) {g : GatedWrite} (hg : g.kind = .block) (hc : g.cmd = none) : (s.gated g).flash1 = s.flash1 := by
  unfold State.gated
  split
  · rfl
  · split
    · exact (s.performWrite_block_stored hg hc).2
    · rfl

/-- A claim heard, and its record written or deferred (R362). -/
theorem State.hearClaim_spec (s : State) (c : Word) :
    (s.modHub (·.setRg PTNR_CLAIM c)).Stored (s.hearClaim c) := by
  unfold State.hearClaim
  dsimp only
  split
  · exact State.gated_stored (State.performWrite_claim_stored _ rfl)
  · exact State.Stored.refl _

/-! ### Roles (R344, R345, R354) -/

/-- The hub of a module that becomes active. -/
def Hub.activated (h : Hub) (c : Word) : Hub :=
  { ((h.fset PTNR_STAT_ROLE rolActive).fset PTNR_STAT_READY 0).setRg PTNR_CLAIM c with
    ptnr := { h.ptnr with yielded := false, resync := false, decided := none } }

/-- A lane told that its module is active. -/
def Lane.activated (l : Lane) (c : Word) : Lane := { l with claim := c, standby := false, yielded := l.easy && l.yielded, cmpRun := 0 }

theorem State.becomeActive_eq (s : State) (c : Word) :
    s.becomeActive c = ((s.writeClaimRec c).modHub (·.activated c)).tellLanes (·.activated c) := rfl

theorem Hub.activated_spec (h : Hub) (c : Word) : h.RegsKept (h.activated c) [PTNR_STAT, PTNR_CLAIM] ∧ (h.activated c).role = 2 ∧
    (h.activated c).on PTNR_STAT_READY = false ∧ (h.activated c).rg PTNR_CLAIM = c := by
  have hreg : (h.activated c).reg = (((h.fset PTNR_STAT_ROLE rolActive).fset PTNR_STAT_READY 0).setRg PTNR_CLAIM c).reg := rfl
  have hclaim : ((h.fset PTNR_STAT_ROLE rolActive).fset PTNR_STAT_READY 0).RegsKept (h.activated c) [PTNR_CLAIM] :=
    (Hub.regsKept_setRg _ c (List.mem_singleton_self _)).trans (Hub.regsKept_of_reg_eq hreg _)
  refine ⟨?_, ?_, ?_, ?_⟩
  · have hrole := h.regsKept_fset (f := PTNR_STAT_ROLE) (as := [PTNR_STAT, PTNR_CLAIM]) rolActive (by decide)
    have hready := (h.fset PTNR_STAT_ROLE rolActive).regsKept_fset (f := PTNR_STAT_READY) (as := [PTNR_STAT, PTNR_CLAIM]) 0 (by decide)
    exact (hrole.trans hready).trans (hclaim.mono fun x hx => List.mem_cons_of_mem _ hx)
  · refine (hclaim.fget (f := PTNR_STAT_ROLE) (by decide)).trans ?_
    rw [Hub.fget_fset_apart _ (f := PTNR_STAT_READY) (g := PTNR_STAT_ROLE) 0 rfl rfl rfl, Hub.fget_fset_set _ _ _ rfl]
    rfl
  · exact (hclaim.on (f := PTNR_STAT_READY) (by decide)).trans (Hub.on_fset_clear _ _ rfl)
  · exact (congrArg (fun r => sparseGet hubRegDefault r PTNR_CLAIM) hreg).trans (Hub.rg_setRg_same _ _ _)

/-- Becoming active: role and claim in the hub and in every lane out of reset, the record written unless the supply fails. -/
theorem State.becomeActive_spec (s : State) (c : Word) :
    (s.becomeActive c).field = s.field ∧ (s.becomeActive c).flash0 = s.flash0 ∧
      s.hub.RegsKept (s.becomeActive c).hub [PTNR_STAT, PTNR_CLAIM, REC_STAT] ∧ (s.becomeActive c).hub.role = 2 ∧
      (s.becomeActive c).hub.rg PTNR_CLAIM = c ∧ (s.hub.on NVW_STAT_PF = false → (s.becomeActive c).hub.upd.claim = c) ∧
      (s.becomeActive c).hub.ptnr = { s.hub.ptnr with yielded := false, resync := false, decided := none } ∧
      ∀ l, (s.becomeActive c).lane l = (s.lane l).upped (·.activated c) := by
  obtain ⟨hst, hf0, hreg, hclaim⟩ := s.writeClaimRec_stored c
  have htold := ((s.writeClaimRec c).modHub (·.activated c)).tellLanes_told (·.activated c)
  obtain ⟨hregs, hrole, -, hrg⟩ := (s.writeClaimRec c).hub.activated_spec c
  rw [State.becomeActive_eq]
  refine ⟨htold.field_eq.trans hst.field_eq, htold.flash0_eq.trans hf0, ?_, (htold.fget_eq (f := PTNR_STAT_ROLE) (by decide)).trans hrole,
    (htold.rg_eq (by decide)).trans hrg, fun hp => ?_, ?_, fun l => ?_⟩
  · refine (Hub.regsKept_of_reg_eq hreg _).trans ((hregs.mono ?_).trans (htold.1.regs (by decide)))
    intro x hx
    simp only [List.mem_cons, List.not_mem_nil, or_false] at hx ⊢
    omega
  · rw [htold.upd_eq]
    exact hclaim hp
  · rw [htold.ptnr_eq]
    refine Eq.trans (b := ({ (s.writeClaimRec c).hub.ptnr with yielded := false, resync := false, decided := none } : PtnrInt)) rfl ?_
    rw [hst.ptnr_eq]
  · rw [State.tellLanes_lane, State.modHub_lane, hst.lane_eq]

/-- The hub of a module that becomes a standby. -/
def Hub.stoodBy (h : Hub) : Hub :=
  { (h.fset PTNR_STAT_ROLE rolStandby).fset PTNR_STAT_READY 0 with ptnr := { h.ptnr with yielded := true } }

/-- A lane told that its module is a standby. -/
def Lane.stoodBy (l : Lane) : Lane := { l with standby := true, cmpRun := 0 }

theorem State.becomeStandby_eq (s : State) : s.becomeStandby = (s.modHub Hub.stoodBy).tellLanes Lane.stoodBy := rfl

theorem Hub.stoodBy_role (h : Hub) : h.stoodBy.role = 3 := by
  refine (Hub.fget_of_reg_eq (h := (h.fset PTNR_STAT_ROLE rolStandby).fset PTNR_STAT_READY 0) rfl PTNR_STAT_ROLE).trans ?_
  rw [Hub.fget_fset_apart _ (f := PTNR_STAT_READY) (g := PTNR_STAT_ROLE) 0 rfl rfl rfl, Hub.fget_fset_set _ _ _ rfl]
  rfl

theorem Hub.stoodBy_on (h : Hub) {f : Fld} (ha : f.addr = PTNR_STAT) (hlo : (Nat.ble 3 f.lo && Nat.ble (f.lo + f.w) 6) = true) :
    h.stoodBy.on f = h.on f := by
  simp only [Bool.and_eq_true, Nat.ble_eq] at hlo
  refine (Hub.on_of_reg_eq (h := (h.fset PTNR_STAT_ROLE rolStandby).fset PTNR_STAT_READY 0) rfl f).trans ?_
  rw [Hub.on_fset_apart _ (f := PTNR_STAT_READY) 0 ha (by simp; omega) (by simp [PTNR_STAT_READY]; omega),
    Hub.on_fset_apart _ (f := PTNR_STAT_ROLE) _ ha (by simp; omega) (by simp [PTNR_STAT_ROLE]; omega)]

theorem State.pairStart_alone {s : State} {t : Nat} (hp : s.hub.partners = true) (hr : s.hub.role = 1)
    (ht : s.hub.ptnr.startT + 2 * s.hub.set.period * 1000000 ≤ t) (h0 : s.hub.ptnr.peerRole = 0) (hc : s.hub.upd.claim.toNat + 1 < 2 ^ 32) :
    s.pairStart t = s.becomeActive (s.hub.upd.claim + 1) := by
  have hclaim : (BitVec.ofNat 32 (s.hub.upd.claim.toNat + 1) : Word) = s.hub.upd.claim + 1 := by
    apply BitVec.eq_of_toNat_eq
    simp [BitVec.toNat_add]
  unfold State.pairStart
  dsimp only
  rw [if_neg (by simp [hp, hr, rolStarting]; omega), if_neg (by simp [h0]), if_pos h0, if_neg (by omega), hclaim]

end Sys2Proof.Machine
end
section
/-! PROOFS. The pair of modules: the heartbeat and what a standby makes of it (R342 to R344, R362, R363). -/

namespace Sys2Proof.Machine

/-! ### What every answer to a heartbeat leaves (R343) -/

/-- The FIELD die, the claim and instant heard, and the flags of the far module stand. -/
structure State.HeardKept (s t : State) : Prop where
  field : t.field = s.field
  lastHb : t.hub.ptnr.lastHb = s.hub.ptnr.lastHb
  peerClaim : t.hub.ptnr.peerClaim = s.hub.ptnr.peerClaim
  up : ∀ link, t.hub.on (upOf link) = s.hub.on (upOf link)
  peerReady : t.hub.on PTNR_STAT_PEER_READY = s.hub.on PTNR_STAT_PEER_READY

theorem State.HeardKept.refl (s : State) : s.HeardKept s := ⟨rfl, rfl, rfl, fun _ => rfl, rfl⟩

theorem State.HeardKept.trans {s t u : State} (a : s.HeardKept t) (b : t.HeardKept u) : s.HeardKept u :=
  ⟨b.field.trans a.field, b.lastHb.trans a.lastHb, b.peerClaim.trans a.peerClaim, fun l => (b.up l).trans (a.up l), b.peerReady.trans a.peerReady⟩

theorem upOf_addr (link : Nat) : (upOf link).addr = PTNR_STAT := by
  unfold upOf; split <;> rfl

theorem upOf_bits (link : Nat) : 3 ≤ (upOf link).lo ∧ (upOf link).lo + (upOf link).w ≤ 5 := by
  unfold upOf; split <;> decide

theorem State.LanesTold.heardKept {s t : State} (a : s.LanesTold t) : s.HeardKept t where
  field := a.field_eq
  lastHb := by rw [a.ptnr_eq]
  peerClaim := by rw [a.ptnr_eq]
  up := fun link => a.on_eq (by rw [upOf_addr]; decide)
  peerReady := a.on_eq (by decide)

theorem State.Stored.heardKept {s t : State} (a : s.Stored t) : s.HeardKept t where
  field := a.field_eq
  lastHb := by rw [a.ptnr_eq]
  peerClaim := by rw [a.ptnr_eq]
  up := fun link => a.on_eq (by rw [upOf_addr]; decide)
  peerReady := a.on_eq (by decide)

theorem State.hearClaim_heardKept (s : State) (c : Word) : s.HeardKept (s.hearClaim c) := by
  have hkept := s.hub.regsKept_setRg (a := PTNR_CLAIM) (as := [PTNR_CLAIM]) c (List.mem_singleton_self _)
  have hset : s.HeardKept (s.modHub (·.setRg PTNR_CLAIM c)) :=
    ⟨rfl, rfl, rfl, fun link => hkept.on (by rw [upOf_addr]; decide), hkept.on (f := PTNR_STAT_PEER_READY) (by decide)⟩
  exact hset.trans (s.hearClaim_spec c).heardKept

theorem State.becomeStandby_heardKept (s : State) : s.HeardKept s.becomeStandby := by
  rw [State.becomeStandby_eq]
  have hset : s.HeardKept (s.modHub Hub.stoodBy) := by
    refine ⟨rfl, rfl, rfl, fun link => s.hub.stoodBy_on (upOf_addr link) ?_, s.hub.stoodBy_on (f := PTNR_STAT_PEER_READY) rfl rfl⟩
    have := upOf_bits link
    simp; omega
  exact hset.trans ((s.modHub Hub.stoodBy).tellLanes_told Lane.stoodBy).heardKept

/-! ### The start of a resynchronisation (R363, R364) -/

/-- The hub that begins a pass of pages. -/
def Hub.resyncBegun (h : Hub) : Hub :=
  let u := ((h.fset PTNR_STAT_ROLE 4).fset PTNR_STAT_READY 0).fsat PTNR_RESYNC_PASSES 1
  { u with ptnr := { u.ptnr with resync := true, yielded := false, got := [], retry := [] } }.fset PTNR_RESYNC_PAGES 0

/-- The hub that does not resynchronise, since the modules do not match. -/
def Hub.resyncRefused (h : Hub) : Hub :=
  let u := (h.fset PTNR_STAT_ROLE 3).fset PTNR_STAT_READY 0
  { u with ptnr := { u.ptnr with resync := false, yielded := false } }

theorem State.startResync_ok {s : State} (h : s.resyncOk = true) : s.startResync = s.modHub Hub.resyncBegun := if_pos h

theorem State.startResync_not {s : State} (h : s.resyncOk = false) : s.startResync = (s.recHub 5 8 363 []).modHub Hub.resyncRefused :=
  if_neg (by simp [h])

/-- The role after the begin of a pass, or of a refusal, and `READY` away. -/
theorem Hub.roleSet_spec (h : Hub) (v : Nat) :
    ((h.fset PTNR_STAT_ROLE v).fset PTNR_STAT_READY 0).fget PTNR_STAT_ROLE = v % 8 ∧
      ((h.fset PTNR_STAT_ROLE v).fset PTNR_STAT_READY 0).on PTNR_STAT_READY = false ∧
      ∀ f : Fld, f.addr = PTNR_STAT → 3 ≤ f.lo → f.lo + f.w ≤ 6 → ((h.fset PTNR_STAT_ROLE v).fset PTNR_STAT_READY 0).on f = h.on f := by
  refine ⟨?_, Hub.on_fset_clear _ _ rfl, fun f ha h1 h2 => ?_⟩
  · rw [Hub.fget_fset_apart _ (f := PTNR_STAT_READY) (g := PTNR_STAT_ROLE) 0 rfl rfl rfl, Hub.fget_fset_set _ _ _ rfl]
    rfl
  · rw [Hub.on_fset_apart _ (f := PTNR_STAT_READY) 0 ha (by simp; omega) (by simp [PTNR_STAT_READY]; omega),
      Hub.on_fset_apart _ (f := PTNR_STAT_ROLE) _ ha (by simp; omega) (by simp [PTNR_STAT_ROLE]; omega)]

theorem Hub.roleSet_kept (h : Hub) (v : Nat) : h.RegsKept ((h.fset PTNR_STAT_ROLE v).fset PTNR_STAT_READY 0) [PTNR_STAT] :=
  (h.regsKept_fset (f := PTNR_STAT_ROLE) v (List.mem_singleton_self _)).trans
    ((h.fset PTNR_STAT_ROLE v).regsKept_fset (f := PTNR_STAT_READY) 0 (List.mem_singleton_self _))

theorem Hub.resyncBegun_kept (h : Hub) : ((h.fset PTNR_STAT_ROLE 4).fset PTNR_STAT_READY 0).RegsKept h.resyncBegun [PTNR_RESYNC] := by
  have hpass := ((h.fset PTNR_STAT_ROLE 4).fset PTNR_STAT_READY 0).regsKept_fsat (f := PTNR_RESYNC_PASSES) (as := [PTNR_RESYNC]) 1
    (List.mem_singleton_self _)
  exact hpass.trans ((Hub.regsKept_of_reg_eq rfl _).trans (Hub.regsKept_fset _ (f := PTNR_RESYNC_PAGES) 0 (List.mem_singleton_self _)))

theorem Hub.resyncRefused_kept (h : Hub) (as : List Nat) :
    ((h.fset PTNR_STAT_ROLE 3).fset PTNR_STAT_READY 0).RegsKept h.resyncRefused as := Hub.regsKept_of_reg_eq rfl _

/-- A resynchronisation begins or is refused in the hub alone. -/
structure State.ResyncStarted (s t : State) : Prop where
  frame : t = { s with hub := t.hub }
  ready : t.hub.on PTNR_STAT_READY = false
  role : t.hub.role = if s.resyncOk then 4 else 3
  got : s.resyncOk = true → t.hub.ptnr.got = []
  regs : s.hub.RegsKept t.hub [PTNR_STAT, PTNR_RESYNC, REC_STAT]
  heard : s.HeardKept t
  peer : t.hub.ptnr.peerVer = s.hub.ptnr.peerVer ∧ t.hub.ptnr.peerVals = s.hub.ptnr.peerVals

theorem State.ResyncStarted.lane_eq {s t : State} (a : s.ResyncStarted t) (l : LaneId) : t.lane l = s.lane l := by
  rw [a.frame]; cases l <;> rfl
theorem State.ResyncStarted.flash0_eq {s t : State} (a : s.ResyncStarted t) : t.flash0 = s.flash0 := by rw [a.frame]
theorem State.ResyncStarted.flash1_eq {s t : State} (a : s.ResyncStarted t) : t.flash1 = s.flash1 := by rw [a.frame]

theorem State.startResync_started (s : State) : s.ResyncStarted s.startResync := by
  have hup : ∀ link, 3 ≤ (upOf link).lo ∧ (upOf link).lo + (upOf link).w ≤ 6 := fun link => by have := upOf_bits link; omega
  cases hok : s.resyncOk
  · rw [State.startResync_not hok]
    have hrec : s.hub.SameButRec (s.recHub 5 8 363 []).hub := s.hub.submit_same _
    obtain ⟨hrole, hready, hbits⟩ := (s.recHub 5 8 363 []).hub.roleSet_spec 3
    have hkept := (s.recHub 5 8 363 []).hub.resyncRefused_kept []
    have hon : ∀ f : Fld, f.addr = PTNR_STAT → 3 ≤ f.lo → f.lo + f.w ≤ 6 →
        ((s.recHub 5 8 363 []).hub.resyncRefused).on f = s.hub.on f := fun f ha h1 h2 =>
      ((hkept.on List.not_mem_nil).trans (hbits f ha h1 h2)).trans (Hub.RegsKept.on hrec.2 (by rw [ha]; decide))
    refine ⟨rfl, (hkept.on List.not_mem_nil).trans hready, ?_, fun h => absurd h (by simp [hok]), ?_, ?_, ?_⟩
    · rw [hok]
      exact (hkept.fget List.not_mem_nil).trans hrole
    · exact (hrec.regs (by decide)).trans (((Hub.roleSet_kept _ 3).mono (by decide)).trans (Hub.resyncRefused_kept _ _))
    · exact ⟨rfl, (congrArg PtnrInt.lastHb hrec.ptnr_eq :), (congrArg PtnrInt.peerClaim hrec.ptnr_eq :),
        fun link => hon _ (upOf_addr link) (hup link).1 (hup link).2, hon _ rfl (by decide) (by decide)⟩
    · exact ⟨(congrArg PtnrInt.peerVer hrec.ptnr_eq :), (congrArg PtnrInt.peerVals hrec.ptnr_eq :)⟩
  · rw [State.startResync_ok hok]
    obtain ⟨hrole, hready, hbits⟩ := s.hub.roleSet_spec 4
    have hkept := s.hub.resyncBegun_kept
    have hon : ∀ f : Fld, f.addr = PTNR_STAT → 3 ≤ f.lo → f.lo + f.w ≤ 6 → s.hub.resyncBegun.on f = s.hub.on f := fun f ha h1 h2 =>
      (hkept.on (by rw [ha]; decide)).trans (hbits f ha h1 h2)
    have hset := (s.hub.roleSet_kept 4).mono (bs := [PTNR_STAT, PTNR_RESYNC, REC_STAT]) (by decide)
    have hall := hset.trans (hkept.mono (bs := [PTNR_STAT, PTNR_RESYNC, REC_STAT]) (by decide))
    refine ⟨rfl, (hkept.on (by decide)).trans hready, ?_, fun _ => rfl, hall, ?_, ⟨rfl, rfl⟩⟩
    · rw [hok]
      exact (hkept.fget (f := PTNR_STAT_ROLE) (by decide)).trans hrole
    · exact ⟨s.modHub_field _, rfl, rfl, fun link => hon _ (upOf_addr link) (hup link).1 (hup link).2, hon _ rfl (by decide) (by decide)⟩

/-- Whether the modules match reads the boot pointer, the voters' values and what the far module told. -/
theorem State.resyncOk_congr {s t : State} (hf0 : t.flash0 = s.flash0) (hf1 : t.flash1 = s.flash1)
    (hact : t.hub.fget UPD_STAT_ACTIVE = s.hub.fget UPD_STAT_ACTIVE) (hver : t.hub.ptnr.peerVer = s.hub.ptnr.peerVer)
    (hvals : t.hub.ptnr.peerVals = s.hub.ptnr.peerVals) (hvote : ∀ l, (t.lane l).inVote = (s.lane l).inVote)
    (hpair : ∀ l, (t.lane l).pairValues = (s.lane l).pairValues) : t.resyncOk = s.resyncOk := by
  have hptr : t.pointer = s.pointer := by unfold State.pointer; rw [hf1, hact]
  have hown : t.ownPtnrver = s.ownPtnrver := by unfold State.ownPtnrver State.slotHdr; rw [hptr, hf0]
  have hvoters : t.voters = s.voters := by unfold State.voters; simp only [hvote]
  unfold State.resyncOk
  rw [hown, hver, hvals, hvoters]
  simp only [hpair]

/-! ### The heartbeat (R343) -/

/-- What a heartbeat tells, noted in the hub. -/
def Hub.hbNoted (h : Hub) (m : HeartbeatMsg) (vals : PairValues) (ver t : Nat) : Hub :=
  let u := (h.countMissed t).fset PTNR_STAT_PEER_READY (b2n (m.ready == 1#8))
  { u with ptnr := { u.ptnr with lastHb := t, hbMissRun := 0, peerRole := m.role.toNat, peerClaim := m.claim, peerSerial := m.serial,
                                 peerStroke := m.stroke, peerVals := some vals, peerVer := ver } }

/-- A lane of a standby told that its module need not wait any longer. -/
def Lane.unyielded (l : Lane) : Lane := { l with yielded := false }

/-- A standby that hears the active: its timebase and its claim, and a resynchronisation where one is owed. -/
def State.followActive (s : State) (m : HeartbeatMsg) : State :=
  let s := (s.modHub fun h => { h with tb := m.tb }).hearClaim m.claim
  if s.hub.ptnr.yielded && !s.anyEasy then s.startResync.tellLanes Lane.unyielded else s

/-- A starting module that hears an active is its standby. -/
def State.startHeard (s : State) : State := if s.hub.role = rolStarting then s.becomeStandby else s

/-- A module that hears an active. -/
def State.hearActive (s : State) (m : HeartbeatMsg) : State :=
  let s := s.startHeard
  if s.hub.role = rolStandby ∨ s.hub.role = rolResync then s.followActive m else s

/-- The state once a heartbeat is noted. -/
def State.hbHeard (s : State) (link : Nat) (q : Word) (m : HeartbeatMsg) (vals : PairValues) (ver t : Nat) : State :=
  s.modHub fun h => (h.heardFrame 0x21 link q).hbNoted m vals ver t

theorem State.heartbeat_eq {s : State} {link : Nat} {frame c : List Byte} {q : Word} {m : HeartbeatMsg} (hl : link < 2)
    (hp : s.hub.partners = true) (hc : partnerContent 0x21 frame = some (q, c)) (hm : heartbeatOf c = some m)
    (hs : (0x21, q) ∉ s.hub.ptnr.seen) (vals : PairValues) (ver t : Nat) :
    s.heartbeat link frame vals ver t =
      if m.role ≠ 1#8 then s.hbHeard link q m vals ver t else (s.hbHeard link q m vals ver t).hearActive m := by
  unfold State.heartbeat
  rw [State.frameIn_new hl hp hc hs]
  dsimp only
  rw [hm]
  rfl

theorem Hub.countMissed_kept (h : Hub) (t : Nat) : h.RegsKept (h.countMissed t) [PTNR_CNT] :=
  (h.regsKept_fsat (f := PTNR_CNT_HBMISS) _ (List.mem_singleton_self _)).trans (Hub.regsKept_of_reg_eq rfl _)

theorem Hub.hbNoted_on (h : Hub) (m : HeartbeatMsg) (vals : PairValues) (ver t : Nat) :
    (h.hbNoted m vals ver t).on PTNR_STAT_PEER_READY = (m.ready == 1#8) ∧
      ∀ f : Fld, f.addr = PTNR_STAT → f.lo + f.w ≤ 5 → (h.hbNoted m vals ver t).fget f = h.fget f := by
  have hreg : (h.hbNoted m vals ver t).reg = ((h.countMissed t).fset PTNR_STAT_PEER_READY (b2n (m.ready == 1#8))).reg := rfl
  refine ⟨(Hub.on_of_reg_eq hreg _).trans ?_, fun f ha hf => (Hub.fget_of_reg_eq hreg f).trans ?_⟩
  · cases m.ready == 1#8
    · exact Hub.on_fset_clear _ _ rfl
    · exact Hub.on_fset_set _ _ rfl rfl
  · rw [Hub.fget_fset_apart _ (f := PTNR_STAT_PEER_READY) _ ha (by simp; omega) (by simp [PTNR_STAT_PEER_READY]; omega)]
    exact (h.countMissed_kept t).fget (by rw [ha]; decide)

theorem State.hbHeard_spec (s : State) {link : Nat} (q : Word) (m : HeartbeatMsg) (vals : PairValues) (ver t : Nat) :
    (s.hbHeard link q m vals ver t).hub.on (upOf link) = true ∧
      (s.hbHeard link q m vals ver t).hub.on PTNR_STAT_PEER_READY = (m.ready == 1#8) ∧
      (s.hbHeard link q m vals ver t).hub.role = s.hub.role := by
  obtain ⟨hready, hbits⟩ := (s.hub.heardFrame 0x21 link q).hbNoted_on m vals ver t
  refine ⟨?_, hready, (hbits PTNR_STAT_ROLE rfl (by decide)).trans (s.hub.heardFrame_role 0x21 link q)⟩
  refine Eq.trans ?_ (s.hub.heardFrame_up 0x21 link q)
  exact congrArg (· == 1) (hbits (upOf link) (upOf_addr link) (upOf_bits link).2)

theorem State.followActive_heardKept (s : State) (m : HeartbeatMsg) : s.HeardKept (s.followActive m) := by
  have htb : s.HeardKept (s.modHub fun h => { h with tb := m.tb }) := ⟨rfl, rfl, rfl, fun _ => rfl, rfl⟩
  have hear := htb.trans ((s.modHub fun h => { h with tb := m.tb }).hearClaim_heardKept m.claim)
  unfold State.followActive
  dsimp only
  split
  · exact hear.trans ((State.startResync_started _).heard.trans (State.tellLanes_told _ _).heardKept)
  · exact hear

theorem State.hearActive_heardKept (s : State) (m : HeartbeatMsg) : s.HeardKept (s.hearActive m) := by
  have hstart : s.HeardKept s.startHeard := by
    unfold State.startHeard
    split
    · exact s.becomeStandby_heardKept
    · exact State.HeardKept.refl s
  unfold State.hearActive
  dsimp only
  split
  · exact hstart.trans (s.startHeard.followActive_heardKept m)
  · exact hstart

/-- A standby that owes a resynchronisation, and no lane of which is in easy all, begins or refuses it. -/
theorem State.followActive_owed {s : State} {m : HeartbeatMsg} (hy : s.hub.ptnr.yielded = true) (he : s.anyEasy = false) :
    (s.followActive m).hub.on PTNR_STAT_READY = false ∧ (s.followActive m).hub.rg PTNR_CLAIM = m.claim ∧
      ((s.followActive m).resyncOk = true → (s.followActive m).hub.role = 4) ∧
      ((s.followActive m).resyncOk = false → (s.followActive m).hub.role = 3) ∧
      ∀ l, (s.followActive m).lane l = (s.lane l).upped Lane.unyielded := by
  have hst := (s.modHub fun h => { h with tb := m.tb }).hearClaim_spec m.claim
  generalize hu : (s.modHub fun h => { h with tb := m.tb }).hearClaim m.claim = u at hst
  have hlane : ∀ l, u.lane l = s.lane l := fun l => by rw [hst.lane_eq]; cases l <;> rfl
  have hyu : u.hub.ptnr.yielded = true := (congrArg PtnrInt.yielded hst.ptnr_eq).trans hy
  have heu : u.anyEasy = false := by
    unfold State.anyEasy at he ⊢
    simp only [hlane]
    exact he
  have hclaim : u.hub.rg PTNR_CLAIM = m.claim := (hst.rg_eq (by decide)).trans (Hub.rg_setRg_same _ _ _)
  have heq : s.followActive m = u.startResync.tellLanes Lane.unyielded := by
    unfold State.followActive
    dsimp only
    rw [hu, if_pos (by simp [hyu, heu])]
  have hr := u.startResync_started
  have htold := u.startResync.tellLanes_told Lane.unyielded
  have hlaneR : ∀ l, (u.startResync.tellLanes Lane.unyielded).lane l = (u.lane l).upped Lane.unyielded := fun l => by
    rw [State.tellLanes_lane, hr.lane_eq]
  have hok : (u.startResync.tellLanes Lane.unyielded).resyncOk = u.resyncOk := by
    refine State.resyncOk_congr ?_ ?_ ?_ ?_ ?_ (fun l => ?_) (fun l => ?_)
    · exact htold.flash0_eq.trans hr.flash0_eq
    · exact htold.flash1_eq.trans hr.flash1_eq
    · exact (htold.fget_eq (by decide)).trans (hr.regs.fget (by decide))
    · rw [htold.ptnr_eq]; exact hr.peer.1
    · rw [htold.ptnr_eq]; exact hr.peer.2
    · rw [hlaneR]; exact Lane.upped_part Lane.inVote _ rfl
    · rw [hlaneR]; exact Lane.upped_part Lane.pairValues _ rfl
  rw [heq, hok]
  have hrole : (u.startResync.tellLanes Lane.unyielded).hub.role = if u.resyncOk then 4 else 3 :=
    (htold.fget_eq (f := PTNR_STAT_ROLE) (by decide)).trans hr.role
  refine ⟨(htold.on_eq (by decide)).trans hr.ready, ?_, fun h => ?_, fun h => ?_, fun l => ?_⟩
  · exact (htold.rg_eq (by decide)).trans ((hr.regs _ (by decide)).trans hclaim)
  · rw [hrole, h]; rfl
  · rw [hrole, h]; rfl
  · rw [hlaneR, hlane]

theorem State.hearActive_starting {s : State} (hr : s.hub.role = 1) (m : HeartbeatMsg) :
    s.hearActive m = s.becomeStandby.followActive m := by
  have hrole : s.becomeStandby.hub.role = 3 :=
    ((State.tellLanes_told _ _).fget_eq (f := PTNR_STAT_ROLE) (by decide)).trans s.hub.stoodBy_role
  have hstart : s.startHeard = s.becomeStandby := if_pos hr
  unfold State.hearActive
  dsimp only
  rw [hstart]
  exact if_pos (Or.inl hrole)

theorem State.becomeStandby_lane (s : State) (l : LaneId) : s.becomeStandby.lane l = (s.lane l).upped Lane.stoodBy := by
  rw [State.becomeStandby_eq, State.tellLanes_lane, State.modHub_lane]

theorem State.becomeStandby_yielded (s : State) : s.becomeStandby.hub.ptnr.yielded = true :=
  congrArg PtnrInt.yielded ((s.modHub Hub.stoodBy).tellLanes_told Lane.stoodBy).ptnr_eq

theorem State.becomeStandby_anyEasy (s : State) : s.becomeStandby.anyEasy = s.anyEasy := by
  unfold State.anyEasy
  have hpart : ∀ l, ((s.becomeStandby.lane l).up && (s.becomeStandby.lane l).easy) = ((s.lane l).up && (s.lane l).easy) := fun l => by
    rw [State.becomeStandby_lane]
    exact Lane.upped_part (fun x => x.up && x.easy) _ rfl
  simp only [hpart]

theorem Lane.upped_twice_standby {x : Lane} (h : x.rst.held = false) : ((x.upped Lane.stoodBy).upped Lane.unyielded).standby = true := by
  rw [Lane.upped_of_up h, Lane.upped_of_up (by exact h)]
  rfl

end Sys2Proof.Machine
end
section
/-! PROOFS. The pair of modules: loss of heartbeats, yield, takeover, forwarded inputs, pages and images (R347, R351 to R353, R364, R458). -/

namespace Sys2Proof.Machine

/-! ### Sending and losing heartbeats (R342, R353) -/

theorem Hub.sendFrame_of_runs {h : Hub} (hx : h.xtRuns = true) (ty : Nat) (content : List Byte) (put : List Byte → PtnrInt → PtnrInt) :
    h.sendFrame ty content put =
      { h with ptnr := put (partnerFrame ty (h.ptnr.txSeq + 1) content) { h.ptnr with txSeq := h.ptnr.txSeq + 1 } } :=
  if_neg (by simp [hx])

/-- The heartbeat a module sends. -/
def State.hbOwn (s : State) (t : Nat) : HeartbeatMsg :=
  { role := s.hub.roleByte, ready := BitVec.ofNat 8 (b2n (s.hub.on PTNR_STAT_READY)),
    claim := if s.hub.role = rolStarting then s.hub.upd.claim else s.hub.rg PTNR_CLAIM,
    serial := s.hub.set.serial, stroke := s.strokeNow, tb := t }

theorem State.hbSend_due {s : State} {t : Nat} (hp : s.hub.partners = true) (ht : t % 1000000 = 0) :
    s.hbSend t = s.modHub fun h => h.sendFrame 0x21 (HeartbeatMsg.bytes (s.hbOwn t)) fun f p => { p with hbOut := f } := by
  unfold State.hbSend
  exact if_neg (by simp [hp, ht])

/-- The hub that has lost its partner's heartbeats. -/
def Hub.lossNoted (h : Hub) (t : Nat) : Hub := ((h.countMissed t).fset PTNR_STAT_UP0 0).fset PTNR_STAT_UP1 0

theorem Hub.lossNoted_spec (h : Hub) (t : Nat) : h.RegsKept (h.lossNoted t) [PTNR_STAT, PTNR_CNT] ∧
    (h.lossNoted t).on PTNR_STAT_UP0 = false ∧ (h.lossNoted t).on PTNR_STAT_UP1 = false ∧
    ∀ f : Fld, f.addr = PTNR_STAT → (f.lo + f.w ≤ 3 ∨ 5 ≤ f.lo ∧ f.lo + f.w ≤ 32) → (h.lossNoted t).fget f = h.fget f := by
  have hcount := (h.countMissed_kept t).mono (bs := [PTNR_STAT, PTNR_CNT]) (by decide)
  have h0 := (h.countMissed t).regsKept_fset (f := PTNR_STAT_UP0) (as := [PTNR_STAT, PTNR_CNT]) 0 (by decide)
  have h1 := ((h.countMissed t).fset PTNR_STAT_UP0 0).regsKept_fset (f := PTNR_STAT_UP1) (as := [PTNR_STAT, PTNR_CNT]) 0 (by decide)
  refine ⟨hcount.trans (h0.trans h1), ?_, Hub.on_fset_clear _ _ rfl, fun f ha hf => ?_⟩
  · exact (Hub.on_fset_apart _ (f := PTNR_STAT_UP1) (g := PTNR_STAT_UP0) 0 rfl rfl rfl).trans (Hub.on_fset_clear _ _ rfl)
  · unfold Hub.lossNoted
    rw [Hub.fget_fset_apart _ (f := PTNR_STAT_UP1) 0 ha (by simp; omega) (by simp [PTNR_STAT_UP1]; omega),
      Hub.fget_fset_apart _ (f := PTNR_STAT_UP0) 0 ha (by simp; omega) (by simp [PTNR_STAT_UP0]; omega)]
    exact (h.countMissed_kept t).fget (by rw [ha]; decide)

/-- The decision of a READY standby, noted. -/
def Hub.decidedAt (h : Hub) (t : Nat) : Hub := { h with ptnr := { h.ptnr with decided := some t } }

theorem State.decideTakeover_ready {s : State} (hr : s.hub.role = 3) (hd : s.hub.ptnr.decided = none) (hon : s.hub.on PTNR_STAT_READY = true)
    (t : Nat) : s.decideTakeover t = s.modHub (·.decidedAt t) := by
  unfold State.decideTakeover
  rw [if_neg (by simp [hr, rolStandby]), if_neg (by simp [hd]), if_pos (by simp [hr, hon, rolStandby])]
  rfl

theorem State.hbLoss_due {s : State} {t : Nat} (hp : s.hub.partners = true) (hm : 3 ≤ s.hub.ptnr.missed t) (hr : s.hub.role = 3)
    (hon : s.hub.on PTNR_STAT_READY = true) (hd : s.hub.ptnr.decided = none) :
    s.hbLoss t = s.modHub fun h => (h.lossNoted t).decidedAt t := by
  obtain ⟨-, -, -, hbits⟩ := s.hub.lossNoted_spec t
  have hloss : s.hbLoss t = (s.modHub (·.lossNoted t)).decideTakeover t := if_neg (by simp [hp]; omega)
  have hr' : (s.modHub (·.lossNoted t)).hub.role = 3 := (hbits PTNR_STAT_ROLE rfl (Or.inl (by decide))).trans hr
  have hon' : (s.modHub (·.lossNoted t)).hub.on PTNR_STAT_READY = true :=
    (congrArg (· == 1) (hbits PTNR_STAT_READY rfl (Or.inr (by decide)))).trans hon
  rw [hloss, State.decideTakeover_ready hr' hd hon']
  rfl

/-! ### Yield (R353) -/

/-- The hub told of a yield. -/
def Hub.yieldHeard (h : Hub) (c : List Byte) : Hub :=
  { h with ptnr := { h.ptnr with peerClaim := BitVec.ofNat 32 (beAt c 1 4), peerStroke := BitVec.ofNat 32 (beAt c 5 4) } }

theorem State.yieldIn_spec {s : State} {link : Nat} {frame c : List Byte} {q : Word} (hl : link < 2) (hp : s.hub.partners = true)
    (hc : partnerContent 0x22 frame = some (q, c)) (hlen : c.length = 9) (hs : (0x22, q) ∉ s.hub.ptnr.seen) (hr : s.hub.role = 3)
    (hon : s.hub.on PTNR_STAT_READY = true) (hd : s.hub.ptnr.decided = none) (t : Nat) :
    (∀ l, (s.yieldIn link frame t).lane l = s.lane l) ∧ (s.yieldIn link frame t).hub.ptnr.decided = some t ∧
      (s.yieldIn link frame t).hub.ptnr.peerClaim = BitVec.ofNat 32 (beAt c 1 4) ∧ (s.yieldIn link frame t).hub.role = 3 := by
  let told : State := s.modHub fun h => (h.heardFrame 0x22 link q).yieldHeard c
  have hst := told.hearClaim_spec (BitVec.ofNat 32 (beAt c 1 4))
  have hrole0 : (s.hub.heardFrame 0x22 link q).role = 3 := (s.hub.heardFrame_role 0x22 link q).trans hr
  have hset := told.hub.regsKept_setRg (a := PTNR_CLAIM) (as := [PTNR_CLAIM]) (BitVec.ofNat 32 (beAt c 1 4)) (List.mem_singleton_self _)
  have heq : s.yieldIn link frame t = (told.hearClaim (BitVec.ofNat 32 (beAt c 1 4))).decideTakeover t := by
    unfold State.yieldIn
    rw [State.frameIn_new hl hp hc hs]
    exact if_neg (by simp [hlen, hrole0, rolStandby])
  have hrole : (told.hearClaim (BitVec.ofNat 32 (beAt c 1 4))).hub.role = 3 :=
    (hst.fget_eq (f := PTNR_STAT_ROLE) (by decide)).trans ((hset.fget (f := PTNR_STAT_ROLE) (by decide)).trans hrole0)
  have hready : (told.hearClaim (BitVec.ofNat 32 (beAt c 1 4))).hub.on PTNR_STAT_READY = true :=
    (hst.on_eq (f := PTNR_STAT_READY) (by decide)).trans ((hset.on (f := PTNR_STAT_READY) (by decide)).trans
      ((s.hub.heardFrame_on 0x22 link q (f := PTNR_STAT_READY) rfl rfl).trans hon))
  have hdec : (told.hearClaim (BitVec.ofNat 32 (beAt c 1 4))).hub.ptnr.decided = none := (congrArg PtnrInt.decided hst.ptnr_eq).trans hd
  rw [heq, State.decideTakeover_ready hrole hdec hready]
  refine ⟨fun l => ?_, rfl, congrArg PtnrInt.peerClaim hst.ptnr_eq, hrole⟩
  rw [State.modHub_lane, hst.lane_eq]
  exact (State.modHub_lane ..).trans (State.modHub_lane ..)

/-! ### Takeover (R353) -/

/-- The partner unit, and the role and claim shown, stand. -/
def Hub.PairKept (h u : Hub) : Prop := u.ptnr = h.ptnr ∧ u.rg PTNR_STAT = h.rg PTNR_STAT ∧ u.rg PTNR_CLAIM = h.rg PTNR_CLAIM

theorem Hub.PairKept.trans {h u v : Hub} (a : h.PairKept u) (b : u.PairKept v) : h.PairKept v :=
  ⟨b.1.trans a.1, b.2.1.trans a.2.1, b.2.2.trans a.2.2⟩

theorem Hub.pairKept_foldl {α : Type} (f : Hub → α → Hub) (xs : List α) (hf : ∀ (h : Hub), ∀ x ∈ xs, h.PairKept (f h x)) (h : Hub) :
    h.PairKept (xs.foldl f h) := by
  induction xs generalizing h with
  | nil => exact ⟨rfl, rfl, rfl⟩
  | cons x xs ih => exact (hf h x List.mem_cons_self).trans (ih (fun h y hy => hf h y (List.mem_cons_of_mem _ hy)) _)

theorem Hub.pairKept_of_regs {h u : Hub} {as : List Nat} (hp : u.ptnr = h.ptnr) (hk : h.RegsKept u as) (h1 : PTNR_STAT ∉ as)
    (h2 : PTNR_CLAIM ∉ as) : h.PairKept u := ⟨hp, hk _ h1, hk _ h2⟩

theorem Hub.intoMailboxes_pairKept (h : Hub) (g : InTlg) : h.PairKept (h.intoMailboxes g) := ⟨rfl, rfl, rfl⟩

/-- Registers of a ring that a takeover writes. -/
def takeRegs (k : Nat) : List Nat := [RING_STAT k, RING_CYCLE k, RING_CLAIM k]

theorem Hub.ringTake_pairKept (h : Hub) {k : Nat} (hk : k < 6) (t : Nat) : h.PairKept (h.ringTake k t) := by
  have hstat : PTNR_STAT ∉ takeRegs k := by
    simp only [takeRegs, PTNR_STAT, RING_STAT, RING_CYCLE, RING_CLAIM, List.mem_cons, List.not_mem_nil, or_false]; omega
  have hclaim : PTNR_CLAIM ∉ takeRegs k := by
    simp only [takeRegs, PTNR_CLAIM, RING_STAT, RING_CYCLE, RING_CLAIM, List.mem_cons, List.not_mem_nil, or_false]; omega
  unfold Hub.ringTake
  split
  · dsimp only
    split
    · refine Hub.pairKept_of_regs (as := takeRegs k) rfl ?_ hstat hclaim
      have h1 := h.regsKept_fset (f := RING_STAT_STATE k) (as := takeRegs k) rsMaster List.mem_cons_self
      refine h1.trans (Hub.RegsKept.trans (Hub.regsKept_setRg _ _ ?_) (Hub.RegsKept.trans (Hub.regsKept_setRg _ _ ?_) (Hub.regsKept_of_reg_eq rfl _)))
      · exact List.mem_cons_of_mem _ List.mem_cons_self
      · exact List.mem_cons_of_mem _ (List.mem_cons_of_mem _ List.mem_cons_self)
    · refine Hub.pairKept_of_regs (as := takeRegs k) rfl ?_ hstat hclaim
      unfold Hub.ringListen
      refine Hub.RegsKept.trans ?_ (Hub.regsKept_of_reg_eq rfl _)
      exact (h.regsKept_fset (f := RING_STAT_RATING k) (as := takeRegs k) _ List.mem_cons_self).trans
        (Hub.regsKept_fset _ (f := RING_STAT_STATE k) rsListen List.mem_cons_self)
  · exact ⟨rfl, rfl, rfl⟩

/-- The hub that has taken over: the telegrams held go out to the lanes, the rings are mastered. -/
def Hub.takenOver (h : Hub) (held : List InTlg) (t : Nat) : Hub :=
  let h := h.fsat PTNR_CNT_TAKE 1
  let h := held.foldl Hub.intoMailboxes { h with ptnr := { h.ptnr with held := [] } }
  (upTo 6).foldl (fun (h : Hub) k => h.ringTake k t) h

/-- The hub that has counted a takeover and given away the telegrams it held. -/
def Hub.takeCounted (h : Hub) : Hub :=
  { h.fsat PTNR_CNT_TAKE 1 with ptnr := { (h.fsat PTNR_CNT_TAKE 1).ptnr with held := [] } }

theorem Hub.takenOver_pairKept (h : Hub) (held : List InTlg) (t : Nat) : h.takeCounted.PairKept (h.takenOver held t) := by
  have hmail := Hub.pairKept_foldl Hub.intoMailboxes held (fun h g _ => h.intoMailboxes_pairKept g) h.takeCounted
  have hring := Hub.pairKept_foldl (fun (h : Hub) k => h.ringTake k t) (upTo 6)
    (fun h k hk => h.ringTake_pairKept (List.mem_range.mp hk) t) (held.foldl Hub.intoMailboxes h.takeCounted)
  exact hmail.trans hring

theorem Hub.takeCounted_regs (h : Hub) : h.RegsKept h.takeCounted [PTNR_CNT] :=
  (h.regsKept_fsat (f := PTNR_CNT_TAKE) 1 (List.mem_singleton_self _)).trans (Hub.regsKept_of_reg_eq rfl _)

theorem State.takeover_eq {s : State} {d t : Nat} (hd : s.hub.ptnr.decided = some d) (hp : s.hub.partners = true) (hr : s.hub.role = 3)
    (hon : s.hub.on PTNR_STAT_READY = true) (ht : d + 1000000 ≤ t) (hc : t % (s.hub.set.period * 1000000) = 0)
    (hm : s.hub.ptnr.peerClaim ≠ 0xFFFFFFFF) :
    s.takeover t = ((s.becomeActive (s.hub.ptnr.peerClaim + 1)).modHub (·.takenOver s.hub.ptnr.held t)).tellLanes Lane.applyTakeover := by
  unfold State.takeover
  dsimp only
  rw [hd]
  dsimp only
  rw [if_neg (by simp [hp, hr, hon, hc, rolStandby]; omega), if_neg (show ¬ s.hub.ptnr.peerClaim = 0xFFFFFFFF#32 from hm)]
  rfl

/-- The approach locking of one route of a lane that takes over. -/
def Lane.approachLocked (l m : Lane) (i : Nat) : Lane :=
  if l.typ (l.entryOf i) = tSIGNAL then (m.putC (l.entryOf i) fAPL 1).putC (l.entryOf i) fATMR 0 else m

theorem Lane.putC_pair (l : Lane) (c : Nat) (f : CellFld) (v : Nat) : (l.putC c f v).claim = l.claim ∧ (l.putC c f v).standby = l.standby :=
  ⟨rfl, rfl⟩

theorem Lane.approachLocked_kept (l m : Lane) (i : Nat) : (l.approachLocked m i).claim = m.claim ∧ (l.approachLocked m i).standby = m.standby := by
  unfold Lane.approachLocked
  split
  · obtain ⟨h1, h2⟩ := m.putC_pair (l.entryOf i) fAPL 1
    obtain ⟨h3, h4⟩ := (m.putC (l.entryOf i) fAPL 1).putC_pair (l.entryOf i) fATMR 0
    exact ⟨h3.trans h1, h4.trans h2⟩
  · exact ⟨rfl, rfl⟩

theorem Lane.foldl_approachLocked_kept (l : Lane) (is : List Nat) (m : Lane) :
    (is.foldl l.approachLocked m).claim = m.claim ∧ (is.foldl l.approachLocked m).standby = m.standby := by
  induction is generalizing m with
  | nil => exact ⟨rfl, rfl⟩
  | cons i is ih =>
    obtain ⟨h1, h2⟩ := l.approachLocked_kept m i
    obtain ⟨h3, h4⟩ := ih (l.approachLocked m i)
    exact ⟨h3.trans h1, h4.trans h2⟩

/-- A takeover locks approaches in the cells; role and claim of the lane stand. -/
theorem Lane.applyTakeover_kept (l : Lane) : l.applyTakeover.claim = l.claim ∧ l.applyTakeover.standby = l.standby := by
  have heq : l.applyTakeover = (l.routes.filter fun i => l.rState i == rsCleared || l.rState i == rsHeld).foldl l.approachLocked l := rfl
  rw [heq]
  exact l.foldl_approachLocked_kept _ l

/-- What a takeover leaves of a hub whose module has become active. -/
theorem Hub.takenOver_spec {h : Hub} (hr : h.role = 2) (held : List InTlg) (t : Nat) : (h.takenOver held t).role = 2 ∧
    (h.takenOver held t).rg PTNR_CLAIM = h.rg PTNR_CLAIM ∧ (h.takenOver held t).ptnr.decided = h.ptnr.decided ∧
    (h.takenOver held t).ptnr.held = [] := by
  obtain ⟨hkp, hks, hkc⟩ := h.takenOver_pairKept held t
  have hcount := h.takeCounted_regs
  refine ⟨?_, hkc.trans (hcount _ (by decide)), (congrArg PtnrInt.decided hkp :), (congrArg PtnrInt.held hkp :)⟩
  unfold Hub.role Hub.fget at hr ⊢
  rw [show PTNR_STAT_ROLE.addr = PTNR_STAT from rfl] at hr ⊢
  rw [hks, hcount _ (by decide)]
  exact hr

/-- A change of the hub, told to the lanes. -/
theorem State.modHub_tellLanes_spec (u : State) (f : Hub → Hub) (g : Lane → Lane) :
    ((u.modHub f).tellLanes g).field = u.field ∧ ((u.modHub f).tellLanes g).hub.role = (f u.hub).role ∧
      ((u.modHub f).tellLanes g).hub.rg PTNR_CLAIM = (f u.hub).rg PTNR_CLAIM ∧ ((u.modHub f).tellLanes g).hub.ptnr = (f u.hub).ptnr ∧
      ∀ l, ((u.modHub f).tellLanes g).lane l = (u.lane l).upped g := by
  have htold := (u.modHub f).tellLanes_told g
  exact ⟨htold.field_eq, htold.fget_eq (f := PTNR_STAT_ROLE) (by decide), htold.rg_eq (by decide), htold.ptnr_eq, fun l => by
    rw [State.tellLanes_lane, State.modHub_lane]⟩

theorem Lane.upped_takeover {x : Lane} (h : x.rst.held = false) (c : Word) :
    ((x.upped (·.activated c)).upped Lane.applyTakeover).claim = c ∧ ((x.upped (·.activated c)).upped Lane.applyTakeover).standby = false := by
  rw [Lane.upped_of_up h, Lane.upped_of_up (by exact h)]
  exact Lane.applyTakeover_kept { x.activated c with notes := [] }

theorem State.takeover_spec {s : State} {d t : Nat} (hd : s.hub.ptnr.decided = some d) (hp : s.hub.partners = true) (hr : s.hub.role = 3)
    (hon : s.hub.on PTNR_STAT_READY = true) (ht : d + 1000000 ≤ t) (hc : t % (s.hub.set.period * 1000000) = 0)
    (hm : s.hub.ptnr.peerClaim ≠ 0xFFFFFFFF) :
    (s.takeover t).field = s.field ∧ (s.takeover t).hub.role = 2 ∧ (s.takeover t).hub.rg PTNR_CLAIM = s.hub.ptnr.peerClaim + 1 ∧
      (s.takeover t).hub.ptnr.decided = none ∧ (s.takeover t).hub.ptnr.held = [] ∧
      ∀ l, (s.lane l).rst.held = false → ((s.takeover t).lane l).claim = s.hub.ptnr.peerClaim + 1 ∧ ((s.takeover t).lane l).standby = false := by
  obtain ⟨hfield, -, -, hrole, hclaim, -, hptnr, hlane⟩ := s.becomeActive_spec (s.hub.ptnr.peerClaim + 1)
  obtain ⟨hrole', hclaim', hdec, hheld⟩ := Hub.takenOver_spec hrole s.hub.ptnr.held t
  obtain ⟨hfieldT, hroleT, hclaimT, hptnrT, hlaneT⟩ :=
    (s.becomeActive (s.hub.ptnr.peerClaim + 1)).modHub_tellLanes_spec (·.takenOver s.hub.ptnr.held t) Lane.applyTakeover
  rw [State.takeover_eq hd hp hr hon ht hc hm, hfieldT, hroleT, hclaimT, hptnrT]
  refine ⟨hfield, hrole', hclaim'.trans hclaim, hdec.trans (congrArg PtnrInt.decided hptnr), hheld, fun l hl => ?_⟩
  rw [hlaneT, hlane]
  exact Lane.upped_takeover hl _

/-! ### The end of an active module (R178, R351) -/

/-- The pin driven by the hub's safe state. -/
theorem State.faultPin_set (s : State) (k : Nat) (hk : k < 5) : (s.faultPin k true).aon.faultN = true ∧
    (s.faultPin k true).hub.on HCMD_STAT_FAULT = true ∧ (s.faultPin k true).hub.ptnr = s.hub.ptnr ∧
    s.hub.RegsKept (s.faultPin k true).hub [HCMD_STAT] ∧ ∀ l, (s.faultPin k true).lane l = s.lane l := by
  have hw : s.aon.faultWhy ||| BitVec.ofNat 5 (2 ^ k) ≠ 0 := fun h => by
    have hbit := congrArg (·.getLsbD k) h
    have hpow : (BitVec.ofNat 5 (2 ^ k)).getLsbD k = true := by
      rw [BitVec.getLsbD_ofNat, Nat.testBit_two_pow_self]; simp [hk]
    simp only [BitVec.getLsbD_or, hpow, Bool.or_true] at hbit
    exact absurd hbit (by simp)
  have hn : decide (s.aon.faultWhy ||| BitVec.ofNat 5 (2 ^ k) ≠ 0) = true := decide_eq_true hw
  unfold State.faultPin
  dsimp only
  rw [if_pos rfl, hn]
  refine ⟨rfl, Hub.on_fset_set _ _ rfl rfl, ?_, ?_, fun l => by cases l <;> rfl⟩
  · split <;> rfl
  · refine Hub.RegsKept.trans ?_ (Hub.regsKept_fset _ (f := HCMD_STAT_FAULT) _ (List.mem_singleton_self _))
    split
    · exact Hub.regsKept_of_reg_eq rfl _
    · exact Hub.RegsKept.refl _ _

end Sys2Proof.Machine
end
section
/-! PROOFS. The pair of modules: safe state, forwarded inputs, pages, images, and the obligation (R178, R347, R351, R364, R458). -/

namespace Sys2Proof.Machine

/-! ### An active module whose hub enters the safe state (R178, R351) -/

/-- The hub that yields. -/
def Hub.yields (h : Hub) : Hub :=
  { ((h.fset PTNR_STAT_ROLE 3).fset PTNR_STAT_READY 0).fsat PTNR_CNT_YIELD 1 with ptnr := { h.ptnr with yielded := true } }

theorem State.hubYields_of_active {s : State} (hu : s.hub.up = true) (hr : s.hub.role = 2) : s.hubYields = s.modHub Hub.yields := by
  unfold State.hubYields
  exact if_pos (by rw [Hub.role] at hr; simp [hu, hr])

/-- The frame of a yield, sent where the clock of the links runs. -/
def Hub.yieldSent (h : Hub) (c : List Byte) : Hub := h.sendFrame 0x22 c fun f p => { p with yieldOut := f }

theorem Hub.yields_spec (h : Hub) : h.yields.role = 3 ∧ h.yields.on PTNR_STAT_READY = false ∧ h.yields.ptnr.txSeq = h.ptnr.txSeq ∧
    h.RegsKept h.yields [PTNR_STAT, PTNR_CNT] := by
  obtain ⟨hrole, hready, -⟩ := h.roleSet_spec 3
  have hcount := ((h.fset PTNR_STAT_ROLE 3).fset PTNR_STAT_READY 0).regsKept_fsat (f := PTNR_CNT_YIELD) (as := [PTNR_CNT]) 1 (List.mem_singleton_self _)
  have hkept : ((h.fset PTNR_STAT_ROLE 3).fset PTNR_STAT_READY 0).RegsKept h.yields [PTNR_CNT] :=
    hcount.trans (Hub.regsKept_of_reg_eq rfl _)
  refine ⟨(hkept.fget (f := PTNR_STAT_ROLE) (by decide)).trans hrole, (hkept.on (f := PTNR_STAT_READY) (by decide)).trans hready, rfl, ?_⟩
  exact ((h.roleSet_kept 3).mono (by decide)).trans (hkept.mono (by decide))

theorem Hub.yieldSent_reg (h : Hub) (c : List Byte) : (h.yieldSent c).reg = h.reg := by
  unfold Hub.yieldSent Hub.sendFrame
  split <;> rfl

theorem Hub.xtRuns_of_kept {h u : Hub} {as : List Nat} (hk : h.RegsKept u as) (h1 : CLKC_HSTAT ∉ as) (hp : u.portsOff = h.portsOff) :
    u.xtRuns = h.xtRuns := by
  unfold Hub.xtRuns
  rw [hk.on (f := CLKC_HSTAT_XT_OK) h1, hk.on (f := CLKC_HSTAT_SDLOCK) h1, hp]

/-- The interrupt the pin raises, and nothing else, before `FAULT` shows. -/
def State.faultRaised (s : State) (k : Nat) : Hub :=
  if decide (s.aon.faultWhy ||| BitVec.ofNat 5 (2 ^ k) ≠ 0) != s.hub.on HCMD_STAT_FAULT && s.hub.on HCMD_CTRL_IE_STAT then
    { s.hub with host := { s.hub.host with irq := s.hub.host.irq ||| 0x10#5 } } else s.hub

theorem State.faultPin_hub (s : State) (k : Nat) : (s.faultPin k true).hub =
    (s.faultRaised k).fset HCMD_STAT_FAULT (b2n (decide (s.aon.faultWhy ||| BitVec.ofNat 5 (2 ^ k) ≠ 0))) := rfl

theorem State.faultPin_partners (s : State) (k : Nat) : (s.faultPin k true).hub.partners = s.hub.partners ∧
    (s.faultPin k true).hub.up = s.hub.up ∧ (s.faultPin k true).hub.portsOff = s.hub.portsOff := by
  rw [State.faultPin_hub]
  unfold State.faultRaised
  split
  · exact ⟨rfl, rfl, rfl⟩
  · exact ⟨rfl, rfl, rfl⟩

/-- What the hub does once the pin is driven: an active module yields. -/
def State.yieldsNow (u : State) (src : LaneId) : State :=
  if u.hub.partners && u.hub.role == rolActive then
    u.hubYields.modHub (·.yieldSent (yieldBytes 1 (u.hub.rg PTNR_CLAIM) (u.lane src).stroke))
  else u

theorem State.hubEasyNotice_eq {s : State} (src : LaneId) (hu : s.hub.up = true) : s.hubEasyNotice src = (s.faultPin 0 true).yieldsNow src :=
  if_neg (by simp [hu])

theorem State.yieldsNow_other {u : State} (src : LaneId) (h : (u.hub.partners && u.hub.role == 2) = false) : u.yieldsNow src = u :=
  if_neg (ne_true_of_eq_false h)

/-- An active module's hub yields, in its role, its `READY` and a frame where the clock of the links runs. -/
theorem State.yieldsNow_active {u : State} (src : LaneId) (hu : u.hub.up = true) (hp : u.hub.partners = true) (hr : u.hub.role = 2) :
    (∀ l, (u.yieldsNow src).lane l = u.lane l) ∧ (u.yieldsNow src).aon = u.aon ∧ u.hub.RegsKept (u.yieldsNow src).hub [PTNR_STAT, PTNR_CNT] ∧
      (u.yieldsNow src).hub.role = 3 ∧ (u.yieldsNow src).hub.on PTNR_STAT_READY = false ∧
      (u.hub.xtRuns = true → (u.yieldsNow src).hub.ptnr.yieldOut =
        partnerFrame 0x22 (u.hub.ptnr.txSeq + 1) (yieldBytes 1 (u.hub.rg PTNR_CLAIM) (u.lane src).stroke)) := by
  have heq : u.yieldsNow src = (u.modHub Hub.yields).modHub (·.yieldSent (yieldBytes 1 (u.hub.rg PTNR_CLAIM) (u.lane src).stroke)) := by
    unfold State.yieldsNow
    rw [if_pos (by simp [hp, hr, rolActive]), State.hubYields_of_active hu hr]
  obtain ⟨hrole, hready, hseq, hregs⟩ := u.hub.yields_spec
  rw [heq]
  generalize yieldBytes 1 (u.hub.rg PTNR_CLAIM) (u.lane src).stroke = c
  have hports : u.hub.yields.portsOff = u.hub.portsOff := rfl
  simp only [State.modHub_lane, State.modHub_hub]
  generalize u.hub.yields = y at *
  have hreg := y.yieldSent_reg c
  refine ⟨fun _ => trivial, rfl, hregs.trans (Hub.regsKept_of_reg_eq hreg _), (Hub.fget_of_reg_eq hreg _).trans hrole,
    (Hub.on_of_reg_eq hreg _).trans hready, fun hx => ?_⟩
  rw [Hub.yieldSent, Hub.sendFrame_of_runs ((Hub.xtRuns_of_kept hregs (by decide) hports).trans hx), hseq]

theorem State.hubEasyNotice_spec {s : State} (src : LaneId) (hu : s.hub.up = true) :
    (∀ l, (s.hubEasyNotice src).lane l = s.lane l) ∧ (s.hubEasyNotice src).aon.faultN = true ∧
      (s.hubEasyNotice src).hub.on HCMD_STAT_FAULT = true ∧
      (s.hub.partners = true → s.hub.role = 2 → (s.hubEasyNotice src).hub.role = 3 ∧ (s.hubEasyNotice src).hub.on PTNR_STAT_READY = false ∧
        (s.hub.xtRuns = true →
          (s.hubEasyNotice src).hub.ptnr.yieldOut =
            partnerFrame 0x22 (s.hub.ptnr.txSeq + 1) (yieldBytes 1 (s.hub.rg PTNR_CLAIM) (s.lane src).stroke))) ∧
      (s.hub.role ≠ 2 → (s.hubEasyNotice src).hub.role = s.hub.role) := by
  obtain ⟨hn, hfault, hptnr, hkept, hlane⟩ := s.faultPin_set 0 (by decide)
  obtain ⟨hpart, hup, hports⟩ := s.faultPin_partners 0
  rw [State.hubEasyNotice_eq src hu]
  generalize s.faultPin 0 true = u at *
  have hrole : u.hub.role = s.hub.role := hkept.fget (f := PTNR_STAT_ROLE) (by decide)
  cases ha : u.hub.partners && u.hub.role == 2
  · rw [State.yieldsNow_other src ha]
    exact ⟨hlane, hn, hfault, fun hp hr => absurd ha (by simp [hpart, hrole, hp, hr]), fun _ => hrole⟩
  · obtain ⟨hp, hr⟩ := Bool.and_eq_true_iff.mp ha
    obtain ⟨hlaneY, haon, hregs, hroleY, hreadyY, hout⟩ := State.yieldsNow_active src (hup.trans hu) hp (by simpa using hr)
    refine ⟨fun l => (hlaneY l).trans (hlane l), by rw [haon]; exact hn, (hregs.on (f := HCMD_STAT_FAULT) (by decide)).trans hfault,
      fun _ _ => ⟨hroleY, hreadyY, fun hx => ?_⟩, fun h => absurd (by rw [← hrole]; simpa using hr) h⟩
    rw [hout ((Hub.xtRuns_of_kept hkept (by decide) hports).trans hx), hptnr, hlane, hkept PTNR_CLAIM (by decide)]

/-! ### Forwarded inputs (R347) -/

theorem State.standbyTake_told (s : State) (tlgs : List (List Byte)) : s.LanesTold (s.standbyTake tlgs) := by
  unfold State.standbyTake
  split
  · exact State.LanesTold.refl s
  · exact State.tellLanes_told _ _

/-- What a list of the active leaves in the partner unit. -/
def PtnrInt.listed (p : PtnrInt) (stroke : Word) (tn : Nat) (es : List ConsEntry) : PtnrInt :=
  { p.forStroke stroke with fwdList := some es, fwdTn := tn }

theorem PtnrInt.forStroke_stroke (p : PtnrInt) (stroke : Word) : (p.forStroke stroke).fwdStroke = stroke := by
  unfold PtnrInt.forStroke
  split
  · assumption
  · rfl

/-- The partner unit once it has a telegram of the active. -/
def PtnrInt.telegram (p : PtnrInt) (c : List Byte) : PtnrInt :=
  let u := p.forStroke (BitVec.ofNat 32 (beAt c 0 4))
  { u with fwdTlgs := (u.fwdTlgs.filter fun e => e.1 != beAt c 4 2) ++ [(beAt c 4 2, c.drop 6)] }

/-- A change of the partner unit. -/
def Hub.withPtnr (h : Hub) (p : PtnrInt) : Hub := { h with ptnr := p }

theorem State.fwdList_eq {s : State} {link tn : Nat} {frame c : List Byte} {q stroke : Word} {es : List ConsEntry} (hl : link < 2)
    (hp : s.hub.partners = true) (hc : partnerContent 0x23 frame = some (q, c)) (hf : fwdListOf c = some (stroke, tn, es))
    (hs : (0x23, q) ∉ s.hub.ptnr.seen) (hr : s.hub.role = 3) :
    ∃ tlgs, s.fwdList link frame =
      (s.modHub fun h => (h.heardFrame 0x23 link q).withPtnr ((h.heardFrame 0x23 link q).ptnr.listed stroke tn es)).standbyTake tlgs := by
  have hrole : (s.modHub (·.heardFrame 0x23 link q)).hub.role = 3 := (s.hub.heardFrame_role 0x23 link q).trans hr
  unfold State.fwdList
  rw [State.frameIn_new hl hp hc hs]
  dsimp only
  rw [hf]
  dsimp only
  rw [if_neg (show ¬ (s.modHub (·.heardFrame 0x23 link q)).hub.role ≠ rolStandby from fun h => h hrole)]
  exact ⟨_, rfl⟩

theorem State.fwdTlg_eq {s : State} {link : Nat} {frame c : List Byte} {q : Word} (hl : link < 2) (hp : s.hub.partners = true)
    (hc : partnerContent 0x24 frame = some (q, c)) (h6 : 6 ≤ c.length) (hs : (0x24, q) ∉ s.hub.ptnr.seen) (hr : s.hub.role = 3) :
    s.fwdTlg link frame =
      (s.modHub fun h => (h.heardFrame 0x24 link q).withPtnr ((h.heardFrame 0x24 link q).ptnr.telegram c)).standbyTake [c.drop 6] := by
  have hrole : (s.modHub (·.heardFrame 0x24 link q)).hub.role = 3 := (s.hub.heardFrame_role 0x24 link q).trans hr
  unfold State.fwdTlg
  rw [State.frameIn_new hl hp hc hs]
  exact if_neg fun h => h.elim (fun h => h hrole) (by omega)

/-! ### Telegrams of the far module (R342, R346, R349) -/

theorem State.partnerEst_spec {s : State} {link k t : Nat} {frame bs : List Byte} {q : Word} (hl : link < 2) (hp : s.hub.partners = true)
    (hc : partnerContent 0x25 frame = some (q, bs)) (hs : (0x25, q) ∉ s.hub.ptnr.seen) (hca : s.hub.carries = true)
    (hk : s.hub.connOf 2 (tlgConnid bs) = some k) (hcls : (s.hub.desc k).cls = 4) :
    s.OnlyHub (s.partnerEst link frame t) ∧ ∀ l, (s.partnerEst link frame t).hub.mbx l =
      if (s.lane l).sitReady || (s.lane l).easy then
        { s.hub.mbx l with inTlg := [] } else { s.hub.mbx l with inTlg := (s.hub.mbx l).inTlg ++ [{ conn := k, bytes := bs, t := t }] } := by
  let g : InTlg := { conn := k, bytes := bs, t := t }
  have heq : s.partnerEst link frame t =
      (s.modHub fun h => ((h.heardFrame 0x25 link q).sgwTelegram 2 k bs t).intoMailboxes g).discardUnread := by
    unfold State.partnerEst
    rw [State.frameIn_new hl hp hc hs]
    have hk' : (s.hub.heardFrame 0x25 link q).connOf 2 (tlgConnid bs) = some k := hk
    have hca' : (s.hub.heardFrame 0x25 link q).carries = true := hca
    have hcls' : ((s.hub.heardFrame 0x25 link q).desc k).cls == clsPeer := by
      rw [show ((s.hub.heardFrame 0x25 link q).desc k).cls = 4 from hcls]; rfl
    unfold State.modHub
    dsimp only
    rw [hk']
    dsimp only
    rw [if_pos (by simp only [hca', hcls', Bool.and_self])]
  have hframe := ((s.modHub fun h => ((h.heardFrame 0x25 link q).sgwTelegram 2 k bs t).intoMailboxes g)).discardUnread_frame.1
  have hmbx : ∀ l, (((s.hub.heardFrame 0x25 link q).sgwTelegram 2 k bs t).intoMailboxes g).mbx l =
      { s.hub.mbx l with inTlg := (s.hub.mbx l).inTlg ++ [g] } := fun l => by
    unfold Hub.intoMailboxes
    rw [Hub.allMbx_spec, ((s.hub.heardFrame 0x25 link q).sgwTelegram_onlySgw 2 k bs t).mbx]
    cases l <;> rfl
  rw [heq]
  refine ⟨?_, fun l => ?_⟩
  · unfold State.OnlyHub at hframe ⊢
    rw [hframe]
    rfl
  · rw [State.discardUnread_mbx, State.modHub_lane, State.modHub_hub, hmbx]

end Sys2Proof.Machine
end
section
/-! PROOFS. The pair of modules: pages, forwarded images, and the obligation (R364, R458). -/

namespace Sys2Proof.Machine

/-! ### Pages of a resynchronisation (R364) -/

/-- The hub that counts a page in, and the pass as over with the last one. -/
def Hub.pageCounted (h : Hub) (i : Nat) (got : List Nat) : Hub :=
  let h := { h with ptnr := { h.ptnr with got := got, retry := removeL i h.ptnr.retry } }
  let h := h.fset PTNR_RESYNC_PAGES got.length
  if got.length = ptnrPages ∧ h.role = rolResync then
    { h.fset PTNR_STAT_ROLE rolStandby with ptnr := { h.ptnr with resync := false } }
  else h

/-- The hub that asks for a page of a bad CRC once more. -/
def Hub.pageAgain (h : Hub) (i : Nat) : Hub := { h with ptnr := { h.ptnr with retry := insertL i h.ptnr.retry } }

theorem mem_insertL_self {α : Type} [DecidableEq α] (x : α) (xs : List α) : x ∈ insertL x xs := by
  unfold insertL
  split
  · rename_i h; simpa using h
  · exact List.mem_append_right _ (List.mem_singleton_self x)

theorem length_insertL_new {α : Type} [DecidableEq α] {x : α} {xs : List α} (h : x ∉ xs) : (insertL x xs).length = xs.length + 1 := by
  unfold insertL
  rw [if_neg (by simpa using h), List.length_append]
  rfl

theorem Hub.pageCounted_ptnr (h : Hub) (i : Nat) (got : List Nat) :
    (h.pageCounted i got).ptnr.got = got ∧ (h.pageCounted i got).ptnr.retry = removeL i h.ptnr.retry := by
  unfold Hub.pageCounted
  dsimp only
  split
  · exact ⟨rfl, rfl⟩
  · exact ⟨rfl, rfl⟩

/-- The last page of a pass makes the module a standby that computes. -/
theorem Hub.pageCounted_last {h : Hub} (hr : h.role = 4) (i : Nat) {got : List Nat} (hg : got.length = 1152) : (h.pageCounted i got).role = 3 := by
  let u : Hub := { h with ptnr := { h.ptnr with got := got, retry := removeL i h.ptnr.retry } }
  have hr' : (u.fset PTNR_RESYNC_PAGES got.length).role = 4 :=
    (Hub.fget_fset_addr u (f := PTNR_RESYNC_PAGES) (g := PTNR_STAT_ROLE) _ (by decide)).trans hr
  have heq : h.pageCounted i got =
      { (u.fset PTNR_RESYNC_PAGES got.length).fset PTNR_STAT_ROLE rolStandby with
        ptnr := { (u.fset PTNR_RESYNC_PAGES got.length).ptnr with resync := false } } := if_pos ⟨hg, hr'⟩
  rw [heq]
  exact Hub.fget_fset_set (u.fset PTNR_RESYNC_PAGES got.length) PTNR_STAT_ROLE rolStandby rfl

section
variable {s : State} {link : Nat} {frame c : List Byte} {q : Word} (hl : link < 2) (hp : s.hub.partners = true)
  (hc : partnerContent 0x26 frame = some (q, c)) (hs : (0x26, q) ∉ s.hub.ptnr.seen) (hr : s.hub.role = 4)
  (hn : s.hub.on PTNR_STAT_READY = false) (hi : beAt c 0 2 < 1152) (hlen : c.length = 4102)
include hl hp hc hs hr hn hi hlen

omit hlen in
theorem State.pageIn_bad (hcrc : beAt c 4098 4 ≠ crc32c ((c.drop 2).take 4096)) :
    s.pageIn link frame = if s.hub.ptnr.retry.contains (beAt c 0 2) then (s.modHub (·.heardFrame 0x26 link q)).startResync
      else s.modHub fun h => (h.heardFrame 0x26 link q).pageAgain (beAt c 0 2) := by
  have hrole : (s.modHub (·.heardFrame 0x26 link q)).hub.role = 4 := (s.hub.heardFrame_role 0x26 link q).trans hr
  have hready : (s.modHub (·.heardFrame 0x26 link q)).hub.on PTNR_STAT_READY = false :=
    (s.hub.heardFrame_on 0x26 link q (f := PTNR_STAT_READY) rfl rfl).trans hn
  unfold State.pageIn
  rw [State.frameIn_new hl hp hc hs]
  dsimp only
  rw [if_neg (by rw [hrole, hready]; simp [rolResync, ptnrPages]; omega), if_pos (Or.inr hcrc)]
  rfl

theorem State.pageIn_good (hcrc : beAt c 4098 4 = crc32c ((c.drop 2).take 4096)) :
    s.pageIn link frame =
      ((s.modHub (·.heardFrame 0x26 link q)).tellLanes fun l => l.putPage (beAt c 0 2) ((c.drop 2).take 4096)).modHub
        (·.pageCounted (beAt c 0 2) (insertL (beAt c 0 2)
          ((s.modHub (·.heardFrame 0x26 link q)).tellLanes fun l => l.putPage (beAt c 0 2) ((c.drop 2).take 4096)).hub.ptnr.got)) := by
  have hrole : (s.modHub (·.heardFrame 0x26 link q)).hub.role = 4 := (s.hub.heardFrame_role 0x26 link q).trans hr
  have hready : (s.modHub (·.heardFrame 0x26 link q)).hub.on PTNR_STAT_READY = false :=
    (s.hub.heardFrame_on 0x26 link q (f := PTNR_STAT_READY) rfl rfl).trans hn
  unfold State.pageIn
  rw [State.frameIn_new hl hp hc hs]
  dsimp only
  rw [if_neg (by rw [hrole, hready]; simp [rolResync, ptnrPages]; omega), if_neg (by simp [hlen, hcrc])]
  rfl

/-- A page of a correct CRC counts towards the pass, which ends with the last one. -/
theorem State.pageIn_counts (hcrc : beAt c 4098 4 = crc32c ((c.drop 2).take 4096)) :
    (s.pageIn link frame).field = s.field ∧ beAt c 0 2 ∈ (s.pageIn link frame).hub.ptnr.got ∧
      beAt c 0 2 ∉ (s.pageIn link frame).hub.ptnr.retry ∧
      (beAt c 0 2 ∉ s.hub.ptnr.got → s.hub.ptnr.got.length = 1151 → (s.pageIn link frame).hub.role = 3) := by
  have htold := (s.modHub (·.heardFrame 0x26 link q)).tellLanes_told fun l => l.putPage (beAt c 0 2) ((c.drop 2).take 4096)
  have hrole : (s.modHub (·.heardFrame 0x26 link q)).hub.role = 4 := (s.hub.heardFrame_role 0x26 link q).trans hr
  have hgot0 : (s.modHub (·.heardFrame 0x26 link q)).hub.ptnr.got = s.hub.ptnr.got := rfl
  rw [State.pageIn_good hl hp hc hs hr hn hi hlen hcrc]
  have hfield0 : (s.modHub (·.heardFrame 0x26 link q)).field = s.field := s.modHub_field _
  generalize s.modHub (·.heardFrame 0x26 link q) = u at *
  generalize (u.tellLanes fun l => l.putPage (beAt c 0 2) ((c.drop 2).take 4096)) = v at *
  obtain ⟨hgot, hretry⟩ := v.hub.pageCounted_ptnr (beAt c 0 2) (insertL (beAt c 0 2) v.hub.ptnr.got)
  rw [State.modHub_field, State.modHub_hub, hgot, hretry]
  refine ⟨htold.field_eq.trans hfield0, mem_insertL_self _ _, fun h => ?_, fun hnew h1151 => ?_⟩
  · simp [removeL] at h
  · refine Hub.pageCounted_last ((htold.fget_eq (f := PTNR_STAT_ROLE) (by decide)).trans hrole) _ ?_
    have hv : v.hub.ptnr.got = s.hub.ptnr.got := (congrArg PtnrInt.got htold.ptnr_eq).trans hgot0
    rw [hv, length_insertL_new hnew, h1151]
end

/-! ### Images (R458) -/

/-- A change of the partner unit alone. -/
theorem State.fwdWrite_stored (s : State) (k i : Nat) (block : List Byte) :
    s.Stored (s.fwdWrite k i block) ∧ (s.fwdWrite k i block).flash1 = s.flash1 := by
  unfold State.fwdWrite
  split
  · exact ⟨State.Stored.refl s, rfl⟩
  · exact ⟨State.gated_stored (State.performWrite_block_stored s rfl rfl).1, State.gated_block_flash1 s rfl rfl⟩

/-- With an image complete, the hub alone changes, and the blocks it has stand. -/
theorem State.fwdComplete_hub (s : State) (link k hop : Nat) : s.OnlyHub (s.fwdComplete link k hop) ∧
    (s.fwdComplete link k hop).hub.ptnr.fwdGot = s.hub.ptnr.fwdGot := by
  unfold State.fwdComplete State.verifySlot State.startForward
  split
  · dsimp only
    split
    · split
      · exact ⟨rfl, rfl⟩
      · exact ⟨rfl, rfl⟩
    · split
      · exact ⟨rfl, rfl⟩
      · exact ⟨rfl, rfl⟩
  · exact ⟨rfl, rfl⟩

/-- The hub that counts a block of an image in. -/
def Hub.blockIn (h : Hub) (i : Nat) : Hub := { h with ptnr := { h.ptnr with fwdGot := insertL i h.ptnr.fwdGot } }

theorem State.fwdImg_more {s : State} {link k : Nat} {frame c : List Byte} {q : Word} (hu : s.hub.up = true) (hl : s.linkOpen link = true)
    (hc : partnerContent 0x27 frame = some (q, c)) (hs : (0x27, q) ∉ s.hub.ptnr.seen) (hd : s.hub.ptnr.fwdDest = some k)
    (hb : s.hub.ptnr.fwdBuild = BitVec.ofNat 64 (beAt c 0 8)) (hst : s.hub.ptnr.fwdAckStatus ≠ 2) (hi : beAt c 9 2 < 512)
    (hlen : (c.drop 11).length = 65536) :
    s.fwdImg link frame = (((s.modHub (·.heardFrame 0x27 link q)).fwdWrite k (beAt c 9 2) (c.drop 11)).modHub (·.blockIn (beAt c 9 2))).fwdComplete
      link k (beAt c 8 1) := by
  have hd' : (if (s.modHub (·.heardFrame 0x27 link q)).hub.ptnr.fwdBuild = BitVec.ofNat 64 (beAt c 0 8) then
      (s.modHub (·.heardFrame 0x27 link q)).hub.ptnr.fwdDest else none) = some k := (if_pos hb).trans hd
  unfold State.fwdImg
  rw [State.forwards_new hu hl hc hs]
  dsimp only
  rw [if_neg (show ¬ ((c.drop 11).length ≠ 65536 ∨ 512 ≤ beAt c 9 2) by rw [hlen]; omega), hd']
  exact if_neg hst

theorem beAt_lt (bs : List Byte) (o n : Nat) : beAt bs o n < 256 ^ n := by
  unfold beAt ofBe
  refine (ofLe_lt _).trans_le (Nat.pow_le_pow_right (by decide) ?_)
  rw [List.length_reverse, List.length_take]
  exact Nat.min_le_left _ _

/-- The hub whose forwarding the far module has taken whole. -/
def Hub.ackTaken (h : Hub) (have_ : List Nat) : Hub := { h with ptnr := { h.ptnr with fwdAcked := have_, fwdSent := [], fwdOut := none } }

theorem State.fwdAck_done {s : State} {link : Nat} {frame c : List Byte} {q : Word} (hu : s.hub.up = true) (hl : s.linkOpen link = true)
    (hc : partnerContent 0x28 frame = some (q, c)) (hs : (0x28, q) ∉ s.hub.ptnr.seen) (hlen : c.length = 73) (h1 : beAt c 8 1 = 1)
    (ho : s.hub.ptnr.fwdOut = some link) (hb : s.slotBuild s.hub.ptnr.fwdSrc = beAt c 0 8) :
    ∃ have_, s.fwdAck link frame = s.modHub fun h => (h.heardFrame 0x28 link q).ackTaken have_ := by
  have hb' : s.slotBuild s.hub.ptnr.fwdSrc = (BitVec.ofNat 64 (beAt c 0 8) : Dword).toNat := by
    rw [hb, BitVec.toNat_ofNat, Nat.mod_eq_of_lt (show beAt c 0 8 < 2 ^ 64 from beAt_lt c 0 8)]
  unfold State.fwdAck
  rw [State.forwards_new hu hl hc hs]
  have hno : ¬ (c.length ≠ 73 ∨ (s.modHub (·.heardFrame 0x28 link q)).hub.ptnr.fwdOut ≠ some link ∨
      (s.modHub (·.heardFrame 0x28 link q)).slotBuild (s.modHub (·.heardFrame 0x28 link q)).hub.ptnr.fwdSrc ≠
        (BitVec.ofNat 64 (beAt c 0 8) : Dword).toNat) := by
    rintro (h | h | h)
    · exact h hlen
    · exact h ho
    · exact h hb'
  dsimp only
  rw [if_neg hno, h1]
  exact ⟨_, rfl⟩

/-- What the far module is answered while an image is received. -/
theorem State.fwdAckSend_to {s : State} {k : Nat} (hu : s.hub.up = true) (hl : s.linkOpen 0 = true) (hd : s.hub.ptnr.fwdDest = some k) :
    s.fwdAckSend = s.modHub fun h => h.sendFrame 0x28
      (ackContent s.hub.ptnr.fwdBuild (if s.hub.upd.verified.contains k then 1 else 0) (bitmapBytes (s.validBlocks k)))
      fun f p => { p with fwdAckStatus := if s.hub.upd.verified.contains k then 1 else 0, ackOut := f } := by
  unfold State.fwdAckSend
  dsimp only
  rw [if_neg (by simp [hu, hl]), hd]

/-! ### The obligation -/

theorem pairStartsAlone (s : State) (tm : Nat) (hp : s.hub.partners = true) (hr : s.hub.role = 1)
    (ht : s.hub.ptnr.startT + 2 * s.hub.set.period * 1000000 ≤ tm) (h0 : s.hub.ptnr.peerRole = 0) (hc : s.hub.upd.claim.toNat + 1 < 2 ^ 32) :
    ∃ t, exec (.pairStartTimeout tm) s = .next t ∧ t.field = s.field ∧ t.flash0 = s.flash0 ∧
      s.hub.RegsKept t.hub [PTNR_STAT, PTNR_CLAIM, REC_STAT] ∧ t.hub.role = 2 ∧ t.hub.rg PTNR_CLAIM = s.hub.upd.claim + 1 ∧
      (s.hub.on NVW_STAT_PF = false → t.hub.upd.claim = s.hub.upd.claim + 1) ∧
      ∀ l, ((s.lane l).rst.held = false → (t.lane l).claim = s.hub.upd.claim + 1 ∧ (t.lane l).standby = false) ∧
        ((s.lane l).rst.held = true → t.lane l = s.lane l) := by
  obtain ⟨hfield, hf0, hregs, hrole, hrg, hclaim, -, hlane⟩ := (s.at tm).becomeActive_spec (s.hub.upd.claim + 1)
  have heq : exec (.pairStartTimeout tm) s = .next ((s.at tm).becomeActive (s.hub.upd.claim + 1)) :=
    done_of_eq (State.pairStart_alone (s := s.at tm) hp hr ht h0 hc)
  refine ⟨_, heq, hfield, hf0, hregs, hrole, hrg, hclaim, fun l => ?_⟩
  rw [hlane, State.lane_at]
  refine ⟨fun h => ?_, fun h => Lane.upped_held h _⟩
  rw [Lane.upped_of_up h]
  exact ⟨rfl, rfl⟩

theorem heartbeatIsHeard (s : State) (link : Nat) (frame c : List Byte) (q : Word) (m : HeartbeatMsg) (vals : PairValues) (ver tm : Nat)
    (hl : link < 2) (hp : s.hub.partners = true) (hc : partnerContent 0x21 frame = some (q, c)) (hm : heartbeatOf c = some m)
    (hs : (0x21, q) ∉ s.hub.ptnr.seen) :
    ∃ t, exec (.heartbeat link frame vals ver tm) s = .next t ∧ t.field = s.field ∧ t.hub.on (upOf link) = true ∧ t.hub.ptnr.lastHb = tm ∧
      t.hub.on PTNR_STAT_PEER_READY = (m.ready == 1) ∧ t.hub.ptnr.peerClaim = m.claim ∧
      (m.role ≠ 1 → t.hub.role = s.hub.role ∧ ∀ l, t.lane l = s.lane l) ∧
      (m.role = 1 → s.hub.role = 1 → s.anyEasy = false →
        t.hub.on PTNR_STAT_READY = false ∧ t.hub.rg PTNR_CLAIM = m.claim ∧
        (t.resyncOk = true → t.hub.role = 4) ∧ (t.resyncOk = false → t.hub.role = 3) ∧
        ∀ l, (s.lane l).rst.held = false → (t.lane l).standby = true) := by
  have hrun : exec (.heartbeat link frame vals ver tm) s = .next (if m.role ≠ 1#8 then (s.at tm).hbHeard link q m vals ver tm
      else ((s.at tm).hbHeard link q m vals ver tm).hearActive m) := done_of_eq (State.heartbeat_eq (s := s.at tm) hl hp hc hm hs vals ver tm)
  obtain ⟨hup, hready, hrole⟩ := (s.at tm).hbHeard_spec (link := link) q m vals ver tm
  have hfield : ((s.at tm).hbHeard link q m vals ver tm).field = s.field := State.modHub_field _ _
  have hlane : ∀ l, ((s.at tm).hbHeard link q m vals ver tm).lane l = s.lane l := fun l => (State.modHub_lane _ _ _).trans (State.lane_at _ _ _)
  have hlast : ((s.at tm).hbHeard link q m vals ver tm).hub.ptnr.lastHb = tm := rfl
  have hclaim : ((s.at tm).hbHeard link q m vals ver tm).hub.ptnr.peerClaim = m.claim := rfl
  rw [State.at_hub] at hrole
  generalize (s.at tm).hbHeard link q m vals ver tm = u at *
  by_cases hone : m.role = 1#8
  · rw [if_neg (by simpa using hone)] at hrun
    have hk := u.hearActive_heardKept m
    refine ⟨_, hrun, hk.field.trans hfield, (hk.up link).trans hup, hk.lastHb.trans hlast, hk.peerReady.trans hready,
      hk.peerClaim.trans hclaim, fun h => absurd hone h, fun _ hr he => ?_⟩
    have heasy : u.anyEasy = false := by
      unfold State.anyEasy at he ⊢
      simp only [hlane]
      exact he
    obtain ⟨hr0, hcl, hok, hno, hlanes⟩ :=
      State.followActive_owed (m := m) u.becomeStandby_yielded (u.becomeStandby_anyEasy.trans heasy)
    rw [State.hearActive_starting (hrole.trans hr)]
    refine ⟨hr0, hcl, hok, hno, fun l hh => ?_⟩
    rw [hlanes, State.becomeStandby_lane, hlane]
    exact Lane.upped_twice_standby hh
  · rw [if_pos hone] at hrun
    exact ⟨u, hrun, hfield, hup, hlast, hready, hclaim, fun _ => ⟨hrole, hlane⟩, fun h => absurd h hone⟩

theorem pagesCountTowardsThePass (s : State) (link : Nat) (frame c : List Byte) (q : Word) (hl : link < 2) (hp : s.hub.partners = true)
    (hc : partnerContent 0x26 frame = some (q, c)) (hs : (0x26, q) ∉ s.hub.ptnr.seen) (hr : s.hub.role = 4)
    (hn : s.hub.on PTNR_STAT_READY = false) (hi : beAt c 0 2 < 1152) (hlen : c.length = 4102) :
    ∃ t, exec (.page link frame) s = .next t ∧ t.field = s.field ∧
      (beAt c 4098 4 = crc32c ((c.drop 2).take 4096) → beAt c 0 2 ∈ t.hub.ptnr.got ∧ beAt c 0 2 ∉ t.hub.ptnr.retry ∧
        (beAt c 0 2 ∉ s.hub.ptnr.got → s.hub.ptnr.got.length = 1151 → t.hub.role = 3)) ∧
      (beAt c 4098 4 ≠ crc32c ((c.drop 2).take 4096) → beAt c 0 2 ∉ s.hub.ptnr.retry →
        beAt c 0 2 ∈ t.hub.ptnr.retry ∧ t.hub.ptnr.got = s.hub.ptnr.got ∧ ∀ l, t.lane l = s.lane l) ∧
      (beAt c 4098 4 ≠ crc32c ((c.drop 2).take 4096) → beAt c 0 2 ∈ s.hub.ptnr.retry → s.resyncOk = true →
        t.hub.ptnr.got = [] ∧ t.hub.role = 4 ∧ ∀ l, t.lane l = s.lane l) := by
  refine ⟨_, rfl, ?_⟩
  by_cases hcrc : beAt c 4098 4 = crc32c ((c.drop 2).take 4096)
  · obtain ⟨hfield, hcount⟩ := State.pageIn_counts hl hp hc hs hr hn hi hlen hcrc
    exact ⟨hfield, fun _ => hcount, fun h => absurd hcrc h, fun h => absurd hcrc h⟩
  · have heq := State.pageIn_bad hl hp hc hs hr hn hi hcrc
    have hok : (s.modHub (·.heardFrame 0x26 link q)).resyncOk = s.resyncOk :=
      State.resyncOk_congr rfl rfl ((s.hub.heardFrame_regs 0x26 link q).fget (by decide)) rfl rfl (fun l => by rw [State.modHub_lane])
        (fun l => by rw [State.modHub_lane])
    have hstart := (s.modHub (·.heardFrame 0x26 link q)).startResync_started
    by_cases hret : beAt c 0 2 ∈ s.hub.ptnr.retry
    · rw [if_pos (by simpa using hret)] at heq
      rw [heq]
      refine ⟨hstart.heard.field.trans (s.modHub_field _), fun h => absurd h hcrc, fun _ h => absurd hret h, fun _ _ h => ⟨?_, ?_, fun l => ?_⟩⟩
      · exact hstart.got (hok.trans h)
      · rw [hstart.role, hok, h]; rfl
      · rw [hstart.lane_eq, State.modHub_lane]
    · rw [if_neg (by simpa using hret)] at heq
      rw [heq]
      exact ⟨s.modHub_field _, fun h => absurd h hcrc, fun _ _ => ⟨mem_insertL_self _ _, rfl, fun l => s.modHub_lane _ l⟩, fun _ h => absurd h hret⟩

theorem Hub.decidedAt_spec (h : Hub) (t : Nat) : (h.decidedAt t).reg = h.reg ∧ (h.decidedAt t).ptnr.decided = some t := ⟨rfl, rfl⟩

theorem PtnrInt.telegram_spec (p : PtnrInt) (c : List Byte) : (beAt c 4 2, c.drop 6) ∈ (p.telegram c).fwdTlgs ∧
    (p.telegram c).fwdStroke = BitVec.ofNat 32 (beAt c 0 4) :=
  ⟨List.mem_append_right _ (List.mem_singleton_self _), p.forStroke_stroke _⟩

theorem PtnrInt.listed_spec (p : PtnrInt) (stroke : Word) (tn : Nat) (es : List ConsEntry) :
    (p.listed stroke tn es).fwdList = some es ∧ (p.listed stroke tn es).fwdTn = tn ∧ (p.listed stroke tn es).fwdStroke = stroke :=
  ⟨rfl, rfl, p.forStroke_stroke _⟩

theorem listsAreHeld (s : State) (link : Nat) (frame c : List Byte) (q stroke : Word) (tn tm : Nat) (es : List ConsEntry) (hl : link < 2)
    (hp : s.hub.partners = true) (hc : partnerContent 0x23 frame = some (q, c)) (hf : fwdListOf c = some (stroke, tn, es))
    (hs : (0x23, q) ∉ s.hub.ptnr.seen) (hr : s.hub.role = 3) :
    ∃ t, exec (.fwdList link frame tm) s = .next t ∧ t.field = s.field ∧ t.hub.ptnr.fwdList = some es ∧ t.hub.ptnr.fwdTn = tn ∧
      t.hub.ptnr.fwdStroke = stroke ∧ t.hub.role = 3 := by
  obtain ⟨tlgs, heq⟩ := State.fwdList_eq (s := s.at tm) hl hp hc hf hs hr
  obtain ⟨hes, htn, hstroke⟩ := (s.hub.heardFrame 0x23 link q).ptnr.listed_spec stroke tn es
  have hrole : ((s.hub.heardFrame 0x23 link q).withPtnr ((s.hub.heardFrame 0x23 link q).ptnr.listed stroke tn es)).role = 3 :=
    (s.hub.heardFrame_role 0x23 link q).trans hr
  have hptnr : ((s.hub.heardFrame 0x23 link q).withPtnr ((s.hub.heardFrame 0x23 link q).ptnr.listed stroke tn es)).ptnr =
    (s.hub.heardFrame 0x23 link q).ptnr.listed stroke tn es := rfl
  have htold := State.standbyTake_told ((s.at tm).modHub fun h =>
    (h.heardFrame 0x23 link q).withPtnr ((h.heardFrame 0x23 link q).ptnr.listed stroke tn es)) tlgs
  refine ⟨_, done_of_eq heq, htold.field_eq.trans (State.modHub_field _ _), ?_⟩
  have hroleT := htold.fget_eq (f := PTNR_STAT_ROLE) (by decide)
  have hptnrT := htold.ptnr_eq
  rw [State.modHub_hub, State.at_hub] at hroleT hptnrT
  rw [hptnrT, hptnr]
  exact ⟨hes, htn, hstroke, hroleT.trans hrole⟩

theorem telegramsAreHeld (s : State) (link : Nat) (frame c : List Byte) (q : Word) (tm : Nat) (hl : link < 2) (hp : s.hub.partners = true)
    (hc : partnerContent 0x24 frame = some (q, c)) (h6 : 6 ≤ c.length) (hs : (0x24, q) ∉ s.hub.ptnr.seen) (hr : s.hub.role = 3) :
    ∃ t, exec (.fwdTlg link frame tm) s = .next t ∧ t.field = s.field ∧ (beAt c 4 2, c.drop 6) ∈ t.hub.ptnr.fwdTlgs ∧
      t.hub.ptnr.fwdStroke = BitVec.ofNat 32 (beAt c 0 4) := by
  have heq := State.fwdTlg_eq (s := s.at tm) hl hp hc h6 hs hr
  have hptnr : ((s.hub.heardFrame 0x24 link q).withPtnr ((s.hub.heardFrame 0x24 link q).ptnr.telegram c)).ptnr =
    (s.hub.heardFrame 0x24 link q).ptnr.telegram c := rfl
  have htold := State.standbyTake_told ((s.at tm).modHub fun h =>
    (h.heardFrame 0x24 link q).withPtnr ((h.heardFrame 0x24 link q).ptnr.telegram c)) [c.drop 6]
  refine ⟨_, done_of_eq heq, htold.field_eq.trans (State.modHub_field _ _), ?_⟩
  have hptnrT := htold.ptnr_eq
  rw [State.modHub_hub, State.at_hub] at hptnrT
  rw [hptnrT, hptnr]
  exact PtnrInt.telegram_spec _ c

theorem estTelegramsAreDelivered (s : State) (link : Nat) (frame bs : List Byte) (q : Word) (k tm : Nat) (hl : link < 2)
    (hp : s.hub.partners = true) (hc : partnerContent 0x25 frame = some (q, bs)) (hs : (0x25, q) ∉ s.hub.ptnr.seen)
    (hca : s.hub.carries = true) (hk : s.hub.connOf 2 (tlgConnid bs) = some k) (hcls : (s.hub.desc k).cls = 4) :
    ∃ t, exec (.partnerEst link frame tm) s = .next t ∧ s.OnlyHub t ∧
      ∀ l, (((s.lane l).sitReady = false ∧ (s.lane l).easy = false) → (t.hub.mbx l).inTlg = (s.hub.mbx l).inTlg ++ [{ conn := k, bytes := bs, t := tm }]) ∧
        (((s.lane l).sitReady = true ∨ (s.lane l).easy = true) → (t.hub.mbx l).inTlg = []) := by
  obtain ⟨honly, hmbx⟩ := State.partnerEst_spec (s := s.at tm) (t := tm) hl hp hc hs hca hk hcls
  refine ⟨_, rfl, honly, fun l => ⟨fun h => ?_, fun h => ?_⟩⟩
  · refine (congrArg Mailbox.inTlg (hmbx l)).trans ?_
    rw [State.lane_at, State.at_hub, if_neg (by simp [h.1, h.2])]
  · refine (congrArg Mailbox.inTlg (hmbx l)).trans ?_
    rw [State.lane_at, State.at_hub, if_pos (by simpa using h)]

theorem imageBlocksAreCounted (s : State) (link : Nat) (frame c : List Byte) (q : Word) (k : Nat) (hu : s.hub.up = true)
    (hl : s.linkOpen link = true) (hc : partnerContent 0x27 frame = some (q, c)) (hs : (0x27, q) ∉ s.hub.ptnr.seen)
    (hd : s.hub.ptnr.fwdDest = some k) (hb : s.hub.ptnr.fwdBuild = BitVec.ofNat 64 (beAt c 0 8)) (hst : s.hub.ptnr.fwdAckStatus ≠ 2)
    (hi : beAt c 9 2 < 512) (hlen : (c.drop 11).length = 65536) :
    ∃ t, exec (.fwdImg link frame) s = .next t ∧ (∀ l, t.lane l = s.lane l) ∧ t.flash1 = s.flash1 ∧ beAt c 9 2 ∈ t.hub.ptnr.fwdGot := by
  have heq := State.fwdImg_more hu hl hc hs hd hb hst hi hlen
  obtain ⟨hw, hf1⟩ := (s.modHub (·.heardFrame 0x27 link q)).fwdWrite_stored k (beAt c 9 2) (c.drop 11)
  have hlane : ∀ l, (s.modHub (·.heardFrame 0x27 link q)).lane l = s.lane l := fun l => s.modHub_lane _ l
  have hflash : (s.modHub (·.heardFrame 0x27 link q)).flash1 = s.flash1 := rfl
  generalize s.modHub (·.heardFrame 0x27 link q) = u at *
  generalize u.fwdWrite k (beAt c 9 2) (c.drop 11) = v at *
  obtain ⟨honly, hgot⟩ := (v.modHub (·.blockIn (beAt c 9 2))).fwdComplete_hub link k (beAt c 8 1)
  have hin : beAt c 9 2 ∈ (v.modHub (·.blockIn (beAt c 9 2))).hub.ptnr.fwdGot := mem_insertL_self _ _
  have hlaneV : ∀ l, (v.modHub (·.blockIn (beAt c 9 2))).lane l = s.lane l := fun l => by rw [State.modHub_lane, hw.lane_eq, hlane]
  have hflashV : (v.modHub (·.blockIn (beAt c 9 2))).flash1 = s.flash1 := hf1.trans hflash
  generalize v.modHub (·.blockIn (beAt c 9 2)) = w at *
  refine ⟨_, done_of_eq heq, fun l => ?_, ?_, by rw [hgot]; exact hin⟩
  · rw [← hlaneV, honly]; cases l <;> rfl
  · rw [← hflashV, honly]

/-- Settles O46: each event of the pair is its change of the hub, told to the lanes that are out of reset. -/
theorem oneModuleOfAPairActsAndStandbysFollow : Obligations.OneModuleOfAPairActsAndStandbysFollow := by
  unfold Obligations.OneModuleOfAPairActsAndStandbysFollow
  refine ⟨⟨pairStartsAlone, ?send, heartbeatIsHeard, ?loss, ?yield, ?take, ?easy, ?count⟩,
    listsAreHeld, telegramsAreHeld, estTelegramsAreDelivered, pagesCountTowardsThePass, ?bad, imageBlocksAreCounted, ?ack, ?acksend⟩
  case send =>
    intro s tm hp hx ht
    have hrun : exec (.heartbeatSend tm) s = .next ((s.at tm).modHub fun h => h.sendFrame 0x21 (HeartbeatMsg.bytes ((s.at tm).hbOwn tm))
        fun f p => { p with hbOut := f }) := done_of_eq (State.hbSend_due (s := s.at tm) hp ht)
    refine ⟨_, (s.at tm).hbOwn tm, hrun, rfl, ?_⟩
    rw [State.modHub_hub, State.at_hub, Hub.sendFrame_of_runs hx]
    refine ⟨rfl, rfl, rfl, rfl, rfl, rfl, fun h => ⟨?_, ?_⟩, fun h => ?_⟩
    · exact if_pos h
    · exact if_neg (show ¬ s.hub.role = rolStarting by rw [h]; decide)
    · exact (if_neg (show ¬ s.hub.role = rolActive by rw [h]; decide)).trans (if_pos h)
  case loss =>
    intro s tm hp hm hr hon hd
    obtain ⟨hregs, h0, h1, hbits⟩ := s.hub.lossNoted_spec tm
    have hrole := (hbits PTNR_STAT_ROLE rfl (Or.inl (by decide))).trans hr
    obtain ⟨hreg, hdec⟩ := (s.hub.lossNoted tm).decidedAt_spec tm
    refine ⟨_, done_of_eq (State.hbLoss_due (s := s.at tm) hp hm hr hon hd), rfl, ?_⟩
    rw [State.modHub_hub, State.at_hub]
    generalize s.hub.lossNoted tm = u at *
    exact ⟨hregs.trans (Hub.regsKept_of_reg_eq hreg _), (Hub.on_of_reg_eq hreg _).trans h0, (Hub.on_of_reg_eq hreg _).trans h1, hdec,
      (Hub.fget_of_reg_eq hreg _).trans hrole⟩
  case yield =>
    intro s link frame c q tm hl hp hc hlen hs hr hon hd
    obtain ⟨hlane, hrest⟩ := State.yieldIn_spec (s := s.at tm) hl hp hc hlen hs hr hon hd tm
    exact ⟨_, rfl, fun l => (hlane l).trans (State.lane_at _ _ _), hrest⟩
  case take =>
    intro s from_ tm hp hd hr hon ht hc hm
    obtain ⟨hfield, hrole, hrg, hdec, hheld, hlane⟩ := State.takeover_spec (s := s.at tm) hd hp hr hon ht hc hm
    exact ⟨_, rfl, hfield, hrole, hrg, hdec, hheld, fun l hl => hlane l (by rw [State.lane_at]; exact hl)⟩
  case easy =>
    intro s src tm hu
    obtain ⟨hlane, hn, hfault, hact, hoth⟩ := State.hubEasyNotice_spec (s := s.at tm) src hu
    simp only [State.lane_at] at hlane hact
    exact ⟨_, rfl, hlane, hn, hfault, hact, hoth⟩
  case count =>
    intro s v hh
    exact ⟨_, done_of_eq (State.upHub_of_up hh _), rfl, s.hub.onlyRegs_setRg 0 (List.mem_singleton_self _), Hub.rg_setRg_same _ _ _⟩
  case bad =>
    intro s frame h
    exact ⟨⟨_, rfl, State.frameIn_bad h ..⟩, ⟨_, rfl, State.forwards_bad h ..⟩, ⟨_, rfl, State.forwards_bad h ..⟩⟩
  case ack =>
    intro s link frame c q hu hl hc hs hlen h1 ho hb
    obtain ⟨have_, heq⟩ := State.fwdAck_done hu hl hc hs hlen h1 ho hb
    exact ⟨_, done_of_eq heq, rfl, rfl, rfl⟩
  case acksend =>
    intro s k tm hu hl hx hd
    refine ⟨_, done_of_eq (State.fwdAckSend_to (s := s.at tm) hu hl hd), rfl, ?_⟩
    rw [State.modHub_hub, State.at_hub, Hub.sendFrame_of_runs hx]
    exact ⟨rfl, rfl⟩

end Sys2Proof.Machine
end
section
/-! PROOFS. The host command engine: records, statuses, queries and commands for the lanes (R371 to R383). -/

namespace Sys2Proof.Machine

/-! ### Counts of the queues (R379) -/

/-- The counts that follow the queues. -/
def queueCounts : List Nat := [HCMD_QCNT 0, HCMD_QCNT 1, HCMD_QCNT 2, HCMD_QCNT 3]

/-- The counts of one queue, written. -/
def Hub.countQueue (h x : Hub) (q : Nat) : Hub := (x.fset (HCMD_QCNT_INFL q) (h.inFlight q)).fset (HCMD_QCNT_ACT q) (h.activeIn q)

/-- The registers `as` alone changed. -/
def Hub.OnlyReg (h k : Hub) (as : List Nat) : Prop := k = { h with reg := k.reg } ∧ h.RegsKept k as

theorem Hub.OnlyReg.trans {h k m : Hub} {as : List Nat} (a : h.OnlyReg k as) (b : k.OnlyReg m as) : h.OnlyReg m as := by
  refine ⟨?_, a.2.trans b.2⟩
  have hm := b.1
  rw [a.1] at hm
  exact hm

theorem Hub.onlyReg_fset (h : Hub) {f : Fld} {as : List Nat} (v : Nat) (ha : f.addr ∈ as) : h.OnlyReg (h.fset f v) as :=
  ⟨rfl, h.regsKept_fset v ha⟩

theorem Hub.onlyReg_setRg (h : Hub) {a : Nat} {as : List Nat} (v : Word) (ha : a ∈ as) : h.OnlyReg (h.setRg a v) as :=
  ⟨rfl, h.regsKept_setRg v ha⟩

theorem Hub.countQueue_onlyReg (h x : Hub) {q : Nat} (hq : q < 4) : x.OnlyReg (h.countQueue x q) queueCounts := by
  have hmem : HCMD_QCNT q ∈ queueCounts := by
    have hcases : q = 0 ∨ q = 1 ∨ q = 2 ∨ q = 3 := by omega
    rcases hcases with rfl | rfl | rfl | rfl <;> simp [queueCounts]
  exact (x.onlyReg_fset (f := HCMD_QCNT_INFL q) _ hmem).trans (Hub.onlyReg_fset _ (f := HCMD_QCNT_ACT q) _ hmem)

theorem Hub.countQueues_onlyReg (h : Hub) : h.OnlyReg h.countQueues queueCounts :=
  (h.countQueue_onlyReg h (by decide : 0 < 4)).trans ((h.countQueue_onlyReg _ (by decide : 1 < 4)).trans
    ((h.countQueue_onlyReg _ (by decide : 2 < 4)).trans (h.countQueue_onlyReg _ (by decide : 3 < 4))))

theorem Hub.countQueues_host (h : Hub) : h.countQueues.host = h.host := by rw [h.countQueues_onlyReg.1]
theorem Hub.countQueues_sram (h : Hub) : h.countQueues.sram = h.sram := by rw [h.countQueues_onlyReg.1]

/-! ### Records of commands (R371) -/

theorem Hub.mem_setCmd_self (h : Hub) (c : HostCmd) : c ∈ (h.setCmd c).host.cmds :=
  List.mem_append_right _ (List.mem_singleton_self c)

/-- Every other record stands. -/
theorem Hub.mem_setCmd_other (h : Hub) {c x : HostCmd} (hx : x ∈ h.host.cmds) (hne : ¬(x.q = c.q ∧ x.slot = c.slot ∧ x.ghost = c.ghost)) :
    x ∈ (h.setCmd c).host.cmds := by
  refine List.mem_append_left _ (List.mem_filter.mpr ⟨hx, ?_⟩)
  simp only [Bool.not_eq_true', Bool.and_eq_false_iff, beq_eq_false_iff_ne, ne_eq]
  by_cases hq : x.q = c.q
  · by_cases hs : x.slot = c.slot
    · exact Or.inr fun hg => hne ⟨hq, hs, hg⟩
    · exact Or.inl (Or.inr hs)
  · exact Or.inl (Or.inl hq)

theorem Hub.setCmd_frame (h : Hub) (c : HostCmd) : h.setCmd c = { h with host := { h.host with cmds := (h.setCmd c).host.cmds } } := rfl

theorem Hub.OnlyReg.onlyCmds {h k m : Hub} (hk : k = { h with host := { h.host with cmds := k.host.cmds } }) (hm : k.OnlyReg m queueCounts) :
    h.OnlyCmds m := by
  obtain ⟨hf, hr⟩ := hm
  have hreg : k.reg = h.reg := by rw [hk]
  have hhost : m.host = k.host := by rw [hf]
  refine ⟨?_, (Hub.regsKept_of_reg_eq hreg _).trans hr⟩
  rw [hhost]
  refine hf.trans ?_
  generalize m.reg = g
  rw [hk]

/-- A record stored, and the queues counted. -/
theorem Hub.setCmd_counted (h : Hub) (c : HostCmd) : h.OnlyCmds (h.setCmd c).countQueues ∧ c ∈ (h.setCmd c).countQueues.host.cmds ∧
    ∀ x ∈ h.host.cmds, ¬(x.q = c.q ∧ x.slot = c.slot ∧ x.ghost = c.ghost) → x ∈ (h.setCmd c).countQueues.host.cmds := by
  rw [Hub.countQueues_host]
  exact ⟨Hub.OnlyReg.onlyCmds (h.setCmd_frame c) (h.setCmd c).countQueues_onlyReg, h.mem_setCmd_self c, fun x hx hne => h.mem_setCmd_other hx hne⟩

theorem Hub.endCmd_spec (h : Hub) (c : HostCmd) (st detail : Nat) (result : Dword) (dout : List Byte) :
    h.OnlyCmds (h.endCmd c st detail result dout) ∧ (h.endCmd c st detail result dout).Ended c st detail result dout ∧
      ∀ x ∈ h.host.cmds, (x.q, x.slot) ≠ (c.q, c.slot) → x ∈ (h.endCmd c st detail result dout).host.cmds := by
  obtain ⟨honly, hmem, hother⟩ := h.setCmd_counted
    { c with status := some (BitVec.ofNat 16 st), detail := BitVec.ofNat 16 detail, result := result, dout := dout }
  exact ⟨honly, hmem, fun x hx hne => hother x hx fun h => hne (by rw [h.1, h.2.1])⟩

/-- The command of a reference that is active and has no status. -/
theorem Hub.openCmd_some {h : Hub} {q slot : Nat} {c : HostCmd} (ho : h.openCmd q slot = some c) :
    c ∈ h.host.cmds ∧ c.q = q ∧ c.slot = slot ∧ c.active = true ∧ c.status = none := by
  have hp := List.find?_some ho
  simp only [Bool.and_eq_true, beq_iff_eq, Option.isNone_iff_eq_none] at hp
  exact ⟨List.mem_of_find?_eq_some ho, hp.1.1.1, hp.1.1.2, hp.1.2, hp.2⟩

theorem Hub.openCmd_congr {h k : Hub} (e : k.host.cmds = h.host.cmds) (q slot : Nat) : k.openCmd q slot = h.openCmd q slot := by
  unfold Hub.openCmd
  rw [e]

theorem State.activeCmd_some {s : State} {r : CmdRef} {op : Nat} {c : HostCmd} (h : s.activeCmd r op = some c) :
    s.hub.openCmd r.q r.slot = some c ∧ c.op = op ∧ s.hub.ready = true := by
  unfold State.activeCmd at h
  split at h
  · split at h
    · rename_i x hx hc
      obtain rfl : x = c := by simpa using h
      obtain ⟨h1, h2⟩ := Bool.and_eq_true_iff.mp hc
      exact ⟨hx, by simpa using h1, h2⟩
    · exact absurd h (by simp)
  · exact absurd h (by simp)

theorem State.activeCmd_at (s : State) (t : Nat) (r : CmdRef) (op : Nat) : (s.at t).activeCmd r op = s.activeCmd r op := rfl

theorem State.hCmd_of_active {s : State} {r : CmdRef} {op : Nat} {c : HostCmd} (h : s.activeCmd r op = some c) (f : State → State) :
    s.hCmd r op f = f s := if_pos (by rw [h]; rfl)

theorem State.endRef_open {s : State} {r : CmdRef} {c : HostCmd} (h : s.hub.openCmd r.q r.slot = some c) (st detail : Nat) (result : Dword)
    (dout : List Byte) : s.endRef r st detail result dout = s.modHub (·.endCmd c st detail result dout) := by
  unfold State.endRef
  rw [h]

/-- A change of the hub that ends a command. -/
theorem State.ends_modHub {s : State} {f : Hub → Hub} {c : HostCmd} {st detail : Nat} {result : Dword} {dout : List Byte}
    (h : s.hub.OnlyCmds (f s.hub) ∧ (f s.hub).Ended c st detail result dout ∧
      ∀ x ∈ s.hub.host.cmds, (x.q, x.slot) ≠ (c.q, c.slot) → x ∈ (f s.hub).host.cmds) : s.Ends (s.modHub f) c st detail result dout :=
  ⟨rfl, h⟩

/-- An active command ended: its record, the counts, and nothing else. -/
theorem State.endRef_ends {s : State} {r : CmdRef} {c : HostCmd} (h : s.hub.openCmd r.q r.slot = some c) (st detail : Nat) (result : Dword)
    (dout : List Byte) : s.Ends (s.endRef r st detail result dout) c st detail result dout := by
  rw [State.endRef_open h]
  exact State.ends_modHub (s.hub.endCmd_spec c st detail result dout)

theorem State.endWith_ends {s : State} {r : CmdRef} {c : HostCmd} (h : s.hub.openCmd r.q r.slot = some c) (st detail : Nat) :
    s.Ends (s.endWith r st detail) c st detail 0 [] := State.endRef_ends h st detail 0 []

theorem State.Ends.ended {s t : State} {c : HostCmd} {st detail : Nat} {result : Dword} {dout : List Byte} (h : s.Ends t c st detail result dout) :
    t.hub.Ended c st detail result dout := h.2.2.1

/-- A command that ends so when `b`, and otherwise as `P` says. -/
theorem State.ends_ite {s : State} {r : CmdRef} {c : HostCmd} (h : s.hub.openCmd r.q r.slot = some c) {p : Prop} [Decidable p]
    {st detail st' detail' : Nat} {result' : Dword} {dout' : List Byte} :
    (p → s.Ends (if p then s.endWith r st detail else s.endRef r st' detail' result' dout') c st detail 0 []) ∧
      (¬p → s.Ends (if p then s.endWith r st detail else s.endRef r st' detail' result' dout') c st' detail' result' dout') :=
  ⟨fun hp => by rw [if_pos hp]; exact State.endWith_ends h _ _, fun hp => by rw [if_neg hp]; exact State.endRef_ends h _ _ _ _⟩

/-! ### Queries (R383) -/

/-- Settles O48: each query ends its command with what it asks for. -/
theorem queriesAnswerAndChangeNothing : Obligations.QueriesAnswerAndChangeNothing := by
  unfold Obligations.QueriesAnswerAndChangeNothing
  intro s r c
  refine ⟨fun h => ?identify, fun h => ?status, fun h l => ?lane, fun h => ?station, fun h conn => ?conn, fun h => ?prg, fun h first n => ?recs,
    fun h => ?recHead, fun h k => ?upd, fun h sect off => ?set, fun h k => ?ring, fun h => ?pair, fun h => ?field, fun h => ?bist⟩ <;>
  obtain ⟨ho, -, -⟩ := State.activeCmd_some h
  case identify => exact ⟨_, done_of_eq (State.hCmd_of_active h _), State.endRef_ends ho _ _ _ _⟩
  case status => exact ⟨_, done_of_eq (State.hCmd_of_active h _), State.endRef_ends ho _ _ _ _⟩
  case lane =>
    obtain ⟨hheld, hout⟩ := State.ends_ite ho (p := (s.lane l).rst.held = true) (st := stNotReady) (detail := 0) (st' := stOk) (detail' := 0)
      (result' := twoWords ((s.lane l).rg VOTE_STAT) ((s.lane l).rg VOTE_LEAVE)) (dout' := [])
    exact ⟨_, done_of_eq (State.hCmd_of_active h _), hheld, fun hf => hout (by simp [hf])⟩
  case station => exact ⟨_, done_of_eq (State.hCmd_of_active h _), State.endRef_ends ho _ _ _ _⟩
  case conn => exact ⟨_, done_of_eq (State.hCmd_of_active h _), State.ends_ite ho⟩
  case prg => exact ⟨_, done_of_eq (State.hCmd_of_active h _), State.endRef_ends ho _ _ _ _⟩
  case recs =>
    obtain ⟨hbad, hgood⟩ := State.ends_ite ho (p := n = 0 ∨ 32768 < n) (st := stBadParam) (detail := 0) (st' := stOk)
      (detail' := b2n (s.recRange first.toNat n).2) (result' := BitVec.ofNat 64 ((s.recRange first.toNat n).1.length / 32))
      (dout' := (s.recRange first.toNat n).1)
    exact ⟨_, done_of_eq (State.hCmd_of_active h _), hbad, fun h1 h2 => hgood (by omega)⟩
  case recHead => exact ⟨_, done_of_eq (State.hCmd_of_active h _), State.endRef_ends ho _ _ _ _⟩
  case upd =>
    obtain ⟨hbad, hgood⟩ := State.ends_ite ho (p := 2 ≤ k) (st := stBadParam) (detail := 0) (st' := stOk) (detail' := 0) (result' := 0)
      (dout' := bitmapBytes (s.validBlocks k))
    exact ⟨_, done_of_eq (State.hCmd_of_active h _), hbad, fun hk => hgood (by omega)⟩
  case set =>
    obtain ⟨hbad, hgood⟩ := State.ends_ite ho (p := s.hub.upd.setLen ≤ sect + off) (st := stBadParam) (detail := 0) (st' := stOk) (detail' := 0)
      (result' := 0) (dout' := (s.areaBytes s.hub.upd.setArea s.hub.upd.setLen).drop (sect + off))
    exact ⟨_, done_of_eq (State.hCmd_of_active h _), hbad, fun hk => hgood (by omega)⟩
  case ring =>
    obtain ⟨hbad, hgood⟩ := State.ends_ite ho (p := 6 ≤ k) (st := stBadParam) (detail := 0) (st' := stOk) (detail' := 0)
      (result' := twoWords (s.hub.rg (RING_STAT k)) (s.hub.rg (RING_CLAIM k)))
      (dout' := [RING_PRESLO k, RING_PRESHI k, RING_ACKLO k, RING_ACKHI k, RING_BRK k].flatMap fun a => leBytes 4 (s.hub.rg a).toNat)
    refine ⟨_, done_of_eq ((State.hCmd_of_active h _).trans ?_), hbad, fun hk => hgood (by omega)⟩
    unfold State.ringStatus
    simp only [List.flatMap_cons, List.flatMap_nil, List.append_nil, List.append_assoc]
  case pair => exact ⟨_, done_of_eq (State.hCmd_of_active h _), State.endRef_ends ho _ _ _ _⟩
  case field => exact ⟨_, done_of_eq (State.hCmd_of_active h _), State.endRef_ends ho _ _ _ _⟩
  case bist => exact ⟨_, done_of_eq (State.hCmd_of_active h _), State.endRef_ends ho _ _ _ _⟩

end Sys2Proof.Machine
end
section
/-! PROOFS. Commands carried to the lanes (R382). -/

namespace Sys2Proof.Machine

/-- The descriptors of the stroke that runs. -/
def State.descCount (s : State) : Nat := (s.hub.mbxA.cmds.filter fun d => decide (s.lastCatch ≤ d.t)).length

/-- The descriptor a command is carried with. -/
def State.descOf (s : State) (op : Nat) (args : List Nat) (data : List Byte) : CmdDesc :=
  { opcode := BitVec.ofNat 16 op, seq := s.hub.rg HCMD_SEQ + 1, args := args, data := data, t := s.now }

/-- A descriptor in all three mailboxes, under its command sequence. -/
def Hub.descPut (h : Hub) (d : CmdDesc) : Hub :=
  allLanes.foldl (fun (h : Hub) l => h.modMbx l fun (m : Mailbox) => { m with cmds := m.cmds ++ [d] }) (h.setRg HCMD_SEQ d.seq)

theorem State.commitDesc_full {s : State} (h : 16 ≤ s.descCount) (op : Nat) (args : List Nat) (data : List Byte) :
    s.commitDesc op args data = none := if_pos h

theorem State.commitDesc_room {s : State} (h : s.descCount < 16) (op : Nat) (args : List Nat) (data : List Byte) :
    s.commitDesc op args data = some (s.hub.rg HCMD_SEQ + 1, s.modHub (·.descPut (s.descOf op args data))) :=
  if_neg (Nat.not_le.mpr h)

theorem Hub.descPut_reg (h : Hub) (d : CmdDesc) : (h.descPut d).reg = (h.setRg HCMD_SEQ d.seq).reg := rfl

theorem Hub.descPut_mbx (h : Hub) (d : CmdDesc) (l : LaneId) :
    (h.descPut d).mbx l = { h.mbx l with cmds := (h.mbx l).cmds ++ [d] } :=
  (Hub.allMbx_spec _ _ l).trans (by cases l <;> rfl)

theorem Hub.mbx_setCmd (h : Hub) (c : HostCmd) (l : LaneId) : (h.setCmd c).mbx l = h.mbx l := by cases l <;> rfl

section
variable {s : State} {r : CmdRef} {op : Nat} {c : HostCmd} (h : s.activeCmd r op = some c) (hs : c.seq = none)
include h hs

theorem State.toLanes_refused (he : s.anyEasy = true ∨ s.modSitReady = true) (args : List Nat) (data : List Byte) :
    s.toLanes r op args data = s.endWith r stWrongState 0 := by
  unfold State.toLanes
  rw [h]
  dsimp only
  rw [if_neg (by simp [hs]), if_pos (by simpa using he)]

theorem State.toLanes_full (he : s.anyEasy = false) (hr : s.modSitReady = false) (hn : 16 ≤ s.descCount) (args : List Nat) (data : List Byte) :
    s.toLanes r op args data = s := by
  unfold State.toLanes
  rw [h]
  dsimp only
  rw [if_neg (by simp [hs]), if_neg (by simp [he, hr]), State.commitDesc_full hn]

theorem State.toLanes_room (he : s.anyEasy = false) (hr : s.modSitReady = false) (hn : s.descCount < 16) (args : List Nat) (data : List Byte) :
    s.toLanes r op args data =
      s.modHub fun u => (u.descPut (s.descOf op args data)).setCmd { c with seq := some (s.hub.rg HCMD_SEQ + 1) } := by
  unfold State.toLanes
  rw [h]
  dsimp only
  rw [if_neg (by simp [hs]), if_neg (by simp [he, hr]), State.commitDesc_room hn]
  rfl

/-- What a command that is carried leaves: its descriptor and its sequence. -/
theorem State.toLanes_committed (he : s.anyEasy = false) (hr : s.modSitReady = false) (hn : s.descCount < 16) (args : List Nat)
    (data : List Byte) : s.OnlyHub (s.toLanes r op args data) ∧ s.hub.RegsKept (s.toLanes r op args data).hub [HCMD_SEQ] ∧
      s.Committed (s.toLanes r op args data) op args data ∧
      { c with seq := some (s.hub.rg HCMD_SEQ + 1) } ∈ (s.toLanes r op args data).hub.host.cmds := by
  rw [State.toLanes_room h hs he hr hn]
  have hreg : ((s.hub.descPut (s.descOf op args data)).setCmd { c with seq := some (s.hub.rg HCMD_SEQ + 1) }).reg =
      (s.hub.setRg HCMD_SEQ (s.hub.rg HCMD_SEQ + 1)).reg := rfl
  unfold State.Committed
  rw [State.modHub_hub]
  refine ⟨rfl, ?_, ⟨?_, fun l => ?_⟩, Hub.mem_setCmd_self _ _⟩
  · exact (s.hub.regsKept_setRg _ (List.mem_singleton_self _)).trans (Hub.regsKept_of_reg_eq hreg _)
  · exact (congrArg (fun g => sparseGet hubRegDefault g HCMD_SEQ) hreg).trans (Hub.rg_setRg_same _ _ _)
  · rw [Hub.mbx_setCmd, Hub.descPut_mbx]
    rfl

theorem State.toLanes_carried (args : List Nat) (data : List Byte) : s.Carried (s.toLanes r op args data) c op args data := by
  obtain ⟨ho, -, -⟩ := State.activeCmd_some h
  refine ⟨fun he => ?_, fun he hr => ⟨fun hn => State.toLanes_full h hs he hr hn args data, fun hn => State.toLanes_committed h hs he hr hn args data⟩⟩
  rw [State.toLanes_refused h hs he]
  exact State.endWith_ends ho _ _
end

theorem State.prgChange_busy {s : State} {r : CmdRef} {c : HostCmd} (h : s.activeCmd r 0x0504 = some c) (ht : s.pointer.trial ≠ 0xFF)
    (bytes sig : List Byte) : s.prgChange r bytes sig = s.endWith r stRefused chgBusy := by
  unfold State.prgChange
  rw [h]
  exact if_pos ht

theorem State.prgChange_notRunning {s : State} {r : CmdRef} {c : HostCmd} (h : s.activeCmd r 0x0504 = some c) (hs : c.seq = none)
    (ht : s.pointer.trial = 0xFF) (he : s.anyEasy = true ∨ s.modSitReady = true) (bytes sig : List Byte) :
    s.prgChange r bytes sig = s.endWith r stRefused chgNotRunning := by
  unfold State.prgChange
  rw [h]
  exact (if_neg (by simp [ht])).trans (if_pos (by simpa [hs] using he))

theorem State.prgChange_carried {s : State} {r : CmdRef} {c : HostCmd} (h : s.activeCmd r 0x0504 = some c) (ht : s.pointer.trial = 0xFF)
    (he : s.anyEasy = false) (hr : s.modSitReady = false) (bytes sig : List Byte) :
    s.prgChange r bytes sig = s.toLanes r 0x0504 [b2n c.dropForces, bytes.length] (bytes ++ sig) := by
  unfold State.prgChange
  rw [h]
  exact (if_neg (by simp [ht])).trans (if_neg (by simp [he, hr]))

/-- FORCE_SET adds the record of a force refused while no stroke runs. -/
theorem State.forceSetHub_eq {s : State} {r : CmdRef} {c : HostCmd} (h : s.activeCmd r 0x0505 = some c) (hs : c.seq = none) (vid : Word)
    (val : List Byte) : s.forceSetHub r vid val =
      if s.anyEasy || s.modSitReady then (s.toLanes r 0x0505 [vid.toNat] val).recHub blkFirmware 5 232 [(4, vid.toNat)]
      else s.toLanes r 0x0505 [vid.toNat] val := by
  unfold State.forceSetHub
  dsimp only
  rw [h]
  simp [hs]

theorem State.recHub_ended {s t : State} {c : HostCmd} {st detail : Nat} {result : Dword} {dout : List Byte}
    (h : s.Ends t c st detail result dout) (blk cls rule : Nat) (data : List (Nat × Nat)) :
    s.OnlyHub (t.recHub blk cls rule data) ∧ (t.recHub blk cls rule data).hub.Ended c st detail result dout := by
  have hsame : t.hub.SameButRec (t.recHub blk cls rule data).hub := t.hub.submit_same _
  have hcmds : (t.recHub blk cls rule data).hub.host.cmds = t.hub.host.cmds := by rw [hsame.1]
  have honly := h.1
  refine ⟨?_, ?_⟩
  · unfold State.OnlyHub at honly
    rw [honly]
    rfl
  · unfold Hub.Ended
    rw [hcmds]
    exact h.ended

/-- Settles O49: a command for the lanes is refused, waits, or is committed under the next command sequence. -/
theorem laneCommandsReachAllThreeMailboxes : Obligations.LaneCommandsReachAllThreeMailboxes := by
  unfold Obligations.LaneCommandsReachAllThreeMailboxes
  refine ⟨fun s r conn slot c h hs => ⟨_, rfl, State.toLanes_carried h hs _ _⟩, fun s r conn c h hs => ⟨_, rfl, State.toLanes_carried h hs _ _⟩,
    fun s r conn c h hs => ⟨_, rfl, State.toLanes_carried h hs _ _⟩, fun s r c h hs => ⟨_, rfl, State.toLanes_carried h hs _ _⟩,
    fun s r c h hs => ⟨_, rfl, State.toLanes_carried h hs _ _⟩, fun s r c h hs => ⟨_, rfl, State.toLanes_carried h hs _ _⟩,
    ?force, fun s r vid c h hs => ⟨_, rfl, State.toLanes_carried h hs _ _⟩, fun s r mask conns c h hs => ⟨_, rfl, State.toLanes_carried h hs _ _⟩,
    fun s r task addr c h hs => ⟨_, rfl, State.toLanes_carried h hs _ _⟩, fun s r task c h hs => ⟨_, rfl, State.toLanes_carried h hs _ _⟩,
    fun s r c h hs => ⟨_, rfl, State.toLanes_carried h hs _ _⟩, fun s r ch c h hs => ⟨_, rfl, State.toLanes_carried h hs _ _⟩, ?change⟩
  case force =>
    intro s r vid val c h hs
    obtain ⟨ho, -, -⟩ := State.activeCmd_some h
    cases hq : s.anyEasy || s.modSitReady
    · obtain ⟨he, hr⟩ := Bool.or_eq_false_iff.mp hq
      have heq : s.forceSetHub r vid val = s.toLanes r 0x0505 [vid.toNat] val := (State.forceSetHub_eq h hs vid val).trans (if_neg (by simp [hq]))
      have hc := State.toLanes_carried h hs [vid.toNat] val
      refine ⟨_, done_of_eq heq, ?_, fun hn => absurd hn (by simp [he, hr]), fun _ _ => hc⟩
      by_cases hn : s.descCount < 16
      · exact ((hc.2 he hr).2 hn).1
      · rw [(hc.2 he hr).1 (Nat.not_lt.mp hn)]
        rfl
    · have heq : s.forceSetHub r vid val = (s.toLanes r 0x0505 [vid.toNat] val).recHub blkFirmware 5 232 [(4, vid.toNat)] :=
        (State.forceSetHub_eq h hs vid val).trans (if_pos hq)
      rw [State.toLanes_refused h hs (by simpa using hq)] at heq
      obtain ⟨honly, hended⟩ := State.recHub_ended (State.endWith_ends ho stWrongState 0) blkFirmware 5 232 [(4, vid.toNat)]
      exact ⟨_, done_of_eq heq, honly, fun _ => hended, fun he hr => absurd hq (by simp [he, hr])⟩
  case change =>
    intro s r bytes sig c h hs
    obtain ⟨ho, -, -⟩ := State.activeCmd_some h
    refine ⟨fun ht => ⟨_, done_of_eq (State.prgChange_busy h ht bytes sig), State.endWith_ends ho _ _⟩,
      fun ht he => ⟨_, done_of_eq (State.prgChange_notRunning h hs ht he bytes sig), State.endWith_ends ho _ _⟩, fun ht he hr hn => ?_⟩
    exact ⟨_, done_of_eq (State.prgChange_carried h ht he hr bytes sig), State.toLanes_committed h hs he hr hn _ _⟩

end Sys2Proof.Machine
end
section
/-! PROOFS. The host queues: doorbells, heads, dispatch and completions (R372 to R385). -/

namespace Sys2Proof.Machine

/-! ### Flags of the host interface (R376) -/

theorem Hub.vector_reg (h : Hub) (k : Nat) : (h.vector k).reg = h.reg := rfl

theorem Hub.hostFlag_kept (h : Hub) (f : Fld) (v : Nat) : h.RegsKept (h.hostFlag f v) [f.addr] ∧
    (h.hostFlag f v).host.cmds = h.host.cmds ∧ (h.hostFlag f v).fget f = (h.fset f (h.fget f ||| v)).fget f := by
  have hset := h.regsKept_fset (f := f) (as := [f.addr]) (h.fget f ||| v) (List.mem_singleton_self _)
  unfold Hub.hostFlag
  dsimp only
  split
  · exact ⟨hset.trans (Hub.regsKept_of_reg_eq (Hub.vector_reg _ _) _), rfl, Hub.fget_of_reg_eq (Hub.vector_reg _ _) _⟩
  · exact ⟨hset, rfl, rfl⟩

theorem Hub.hostFlag_full (h : Hub) {q : Nat} (hq : q < 4) :
    (h.hostFlag HCMD_STAT_QFULL (2 ^ q)).fget HCMD_STAT_QFULL = h.fget HCMD_STAT_QFULL ||| 2 ^ q := by
  rw [(h.hostFlag_kept HCMD_STAT_QFULL (2 ^ q)).2.2, Hub.fget_fset_set _ _ _ rfl]
  exact Nat.mod_eq_of_lt (Nat.or_lt_two_pow (h.fget_lt HCMD_STAT_QFULL) (Nat.pow_lt_pow_right (by decide) hq))

theorem Hub.hostFlag_doorbell (h : Hub) : (h.hostFlag HCMD_STAT_DB_ERR 1).on HCMD_STAT_DB_ERR = true :=
  (h.hostFlag_one (f := HCMD_STAT_DB_ERR) rfl (by decide)).1

/-! ### Doorbells (R377, R378, R384) -/

/-- The hub that has numbered one more doorbell. -/
def Hub.numbered (h : Hub) : Hub := { h with host := { h.host with nextOrd := h.host.nextOrd + 1 } }

theorem Hub.accept_eq (h : Hub) (q slot t : Nat) :
    h.accept q slot t = (h.numbered.setCmd (newCmd q slot (h.headerAt q slot) (h.slotTarget q slot) (h.host.nextOrd + 1) t)).countQueues := rfl

theorem Hub.accept_spec {h : Hub} {q slot : Nat} (hn : h.cmdAt q slot = none) (t : Nat) : h.RegsKept (h.accept q slot t) queueCounts ∧
    (h.accept q slot t).host.irq = h.host.irq ∧
    newCmd q slot (h.headerAt q slot) (h.slotTarget q slot) (h.host.nextOrd + 1) t ∈ (h.accept q slot t).host.cmds ∧
    ∀ c ∈ h.host.cmds, c ∈ (h.accept q slot t).host.cmds := by
  rw [Hub.accept_eq]
  obtain ⟨honly, hmem, hother⟩ := h.numbered.setCmd_counted (newCmd q slot (h.headerAt q slot) (h.slotTarget q slot) (h.host.nextOrd + 1) t)
  refine ⟨(Hub.regsKept_of_reg_eq rfl _).trans honly.2, by rw [honly.1]; rfl, hmem, fun c hc => hother c hc ?_⟩
  rintro ⟨h1, h2, h3⟩
  have hno := List.find?_eq_none.mp hn c hc
  have hq : c.q = q := h1
  have hsl : c.slot = slot := h2
  have hg : c.ghost = false := h3
  exact hno (by simp [hq, hsl, hg])

section
variable {h : Hub} {q slot : Nat} (hr : h.ready = true) (hq : q < 4) (hs : slot < 256)
include hr hq hs

theorem Hub.doorbell_new (hn : h.cmdAt q slot = none) (ho : (h.headerAt q slot).opcode = 0x0A01#16 ∨ h.inFlight q < 256) (t : Nat) :
    h.doorbell q slot t = h.accept q slot t := by
  have hguard : ¬ ((h.headerAt q slot).opcode ≠ 0x0A01#16 ∧ 256 ≤ h.inFlight q) := fun hc => ho.elim (fun e => hc.1 e) (by omega)
  unfold Hub.doorbell
  dsimp only
  rw [if_neg (by simp [hr]; omega), hn]
  exact if_neg hguard

theorem Hub.doorbell_full (hn : h.cmdAt q slot = none) (ho : (h.headerAt q slot).opcode ≠ 0x0A01#16) (hf : 256 ≤ h.inFlight q) (t : Nat) :
    h.doorbell q slot t = h.hostFlag HCMD_STAT_QFULL (2 ^ q) := by
  unfold Hub.doorbell
  dsimp only
  rw [if_neg (by simp [hr]; omega), hn]
  exact if_pos ⟨ho, hf⟩

theorem Hub.doorbell_inUse {c : HostCmd} (hc : h.cmdAt q slot = some c) (hf : (h.headerAt q slot).flags.getLsbD 1 = false)
    (hrel : c.released = false) (t : Nat) : h.doorbell q slot t = h.hostFlag HCMD_STAT_DB_ERR 1 := by
  unfold Hub.doorbell
  dsimp only
  rw [if_neg (by simp [hr]; omega), hc]
  exact (if_neg (by rw [hf]; decide)).trans (if_neg (by simp [hrel]))

theorem Hub.doorbell_retry {c : HostCmd} (hc : h.cmdAt q slot = some c) (hf : (h.headerAt q slot).flags.getLsbD 1 = true)
    (hp : c.posted = none) (hret : c.retried = false) (hg : bvField (h.headerAt q slot).tag 0 6 = (c.gen + 1) % 64) (t : Nat) :
    h.doorbell q slot t =
      (h.setCmd { c with gen := (c.gen + 1) % 64, tag := tagOf q slot ((c.gen + 1) % 64), retried := true }).countQueues := by
  unfold Hub.doorbell
  dsimp only
  rw [if_neg (by simp [hr]; omega), hc]
  dsimp only
  rw [if_pos hf, if_neg (by simp [hg, hret]), hg]
  exact if_neg (by simp [hp])
end

/-! ### Heads (R374, R377) -/

/-- How far an entry of a completion queue lies from the head. -/
def Hub.headDist (h : Hub) (q x : Nat) : Nat := (x + 512 - h.fget (HCMD_CQHD_HEAD q)) % 512

/-- A record whose entry the head has passed is released. -/
def HostCmd.freed (c : HostCmd) (q : Nat) (passed : Nat → Bool) : HostCmd :=
  match c.posted with
  | some i => if c.q == q && passed i then { c with released := true } else c
  | none => c

theorem HostCmd.freed_other {c : HostCmd} {q : Nat} (h : c.q ≠ q) (passed : Nat → Bool) : c.freed q passed = c := by
  unfold HostCmd.freed
  split
  · exact if_neg (by simp [h])
  · rfl

theorem HostCmd.freed_posted {c : HostCmd} {q i : Nat} (h : c.q = q) (hp : c.posted = some i) (passed : Nat → Bool) :
    c.freed q passed = if passed i then { c with released := true } else c := by
  unfold HostCmd.freed
  rw [hp]
  simp [h]

/-- The hub whose host has moved a head. -/
def Hub.headMoved (h : Hub) (q n : Nat) : Hub :=
  { h.fset (HCMD_CQHD_HEAD q) n with
    host := { h.host with cmds := h.host.cmds.map fun c => c.freed q fun i => decide (h.headDist q i < h.headDist q n) } }

theorem Hub.headWrite_past {h : Hub} {q n : Nat} (hq : q < 4) (hn : n < 512) (hd : h.headDist q (h.host.cqW.getD q 0) < h.headDist q n) :
    h.headWrite q n = h.hostFlag HCMD_STAT_DB_ERR 1 := by
  unfold Hub.headWrite
  dsimp only
  rw [if_neg (by omega), Nat.mod_eq_of_lt hn]
  exact if_pos hd

theorem Hub.headWrite_moves {h : Hub} {q n : Nat} (hq : q < 4) (hn : n < 512) (hd : h.headDist q n ≤ h.headDist q (h.host.cqW.getD q 0)) :
    h.headWrite q n = ((h.headMoved q n).quietQueue q).countQueues := by
  unfold Hub.headWrite
  dsimp only
  rw [if_neg (by omega), Nat.mod_eq_of_lt hn]
  exact if_neg (Nat.not_lt.mpr hd)

theorem Hub.quietQueue_kept (h : Hub) (q : Nat) : (h.quietQueue q).reg = h.reg ∧ (h.quietQueue q).host.cmds = h.host.cmds := by
  unfold Hub.quietQueue
  split
  · exact ⟨rfl, rfl⟩
  · exact ⟨rfl, rfl⟩

theorem headReg_not_count {q : Nat} : HCMD_CQHD q ∉ queueCounts := by
  simp only [queueCounts, HCMD_CQHD, HCMD_QCNT, List.mem_cons, List.not_mem_nil, or_false]
  omega

theorem Hub.headMoved_spec (h : Hub) {q n : Nat} (hn : n < 512) :
    (((h.headMoved q n).quietQueue q).countQueues).fget (HCMD_CQHD_HEAD q) = n ∧
      (((h.headMoved q n).quietQueue q).countQueues).host.cmds =
        h.host.cmds.map fun c => c.freed q fun i => decide (h.headDist q i < h.headDist q n) := by
  obtain ⟨hreg, hcmds⟩ := (h.headMoved q n).quietQueue_kept q
  refine ⟨?_, by rw [Hub.countQueues_host, hcmds]; rfl⟩
  rw [((h.headMoved q n).quietQueue q).countQueues_onlyReg.2.fget (f := HCMD_CQHD_HEAD q) headReg_not_count, Hub.fget_of_reg_eq hreg]
  exact (h.fget_fset_set (HCMD_CQHD_HEAD q) n rfl).trans (Nat.mod_eq_of_lt hn)

/-! ### Dispatch (R379 to R381) -/

theorem Hub.dispatch_idle {h : Hub} (hi : h.ready = false ∨ 64 ≤ h.actives) (t : Nat) : h.dispatch t = h :=
  if_pos (by simpa using hi)

/-- The first queue in turn that has a command gives it. -/
theorem findSome_turn {α : Type} (f : Nat → Option α) {i : Nat} {c : α} (hi : i < 4) (hb : ∀ j, j < i → f j = none) (hc : f i = some c) :
    (((upTo 4).map f).findSome? fun x => x) = some c := by
  have hlist : (upTo 4).map f = [f 0, f 1, f 2, f 3] := rfl
  rw [hlist]
  have hcases : i = 0 ∨ i = 1 ∨ i = 2 ∨ i = 3 := by omega
  rcases hcases with rfl | rfl | rfl | rfl
  · simp [hc]
  · simp [hb 0 (by decide), hc]
  · simp [hb 0 (by decide), hb 1 (by decide), hc]
  · simp [hb 0 (by decide), hb 1 (by decide), hb 2 (by decide), hc]

theorem Hub.dispatch_takes {h : Hub} (hr : h.ready = true) (ha : h.actives < 64) {i : Nat} {c : HostCmd} (hi : i < 4)
    (hb : ∀ j, j < i → h.oldest ((h.host.lastQ + 1 + j) % 4) = none) (hc : h.oldest ((h.host.lastQ + 1 + i) % 4) = some c) (t : Nat) :
    h.dispatch t = h.take c t := by
  unfold Hub.dispatch
  rw [if_neg (by simp [hr]; omega), findSome_turn (fun i => h.oldest ((h.host.lastQ + 1 + i) % 4)) hi hb hc]

/-- The hub that remembers the queue it served. -/
def Hub.served (h : Hub) (q : Nat) : Hub := { h with host := { h.host with lastQ := q } }

theorem Hub.take_aborted {h : Hub} {c : HostCmd} (hp : h.poisoned c.q c.target = true) (ho : c.op ≠ 0x0103) (t : Nat) :
    h.take c t = (h.served c.q).endCmd c 5 0 0 [] := by
  have hp' : (h.served c.q).poisoned c.q c.target = true := hp
  exact if_pos (by rw [Bool.and_eq_true]; exact ⟨hp', by simpa using ho⟩)

/-- Every command that is not aborted is judged by its header. -/
theorem Hub.take_judged {h : Hub} {c : HostCmd} (hp : h.poisoned c.q c.target = false ∨ c.op = 0x0103) (t : Nat) :
    h.take c t = if c.headerBad then (h.served c.q).endCmd c 2 0 0 [] else if c.rangeBad then (h.served c.q).endCmd c 4 0 0 []
      else if !opcodes.contains c.op then (h.served c.q).endCmd c 1 0 0 []
      else ((h.served c.q).setCmd { c with active := true, tDisp := t }).countQueues := by
  refine if_neg ?_
  rw [Bool.and_eq_true]
  rintro ⟨h1, h2⟩
  rcases hp with hp | hp
  · have hp' : (h.served c.q).poisoned c.q c.target = false := hp
    exact absurd (h1.symm.trans hp') (by decide)
  · rw [hp] at h2
    exact absurd h2 (by decide)

theorem Hub.served_ends {h u : Hub} {q : Nat} (ho : (h.served q).OnlyCmds u) : u.host.lastQ = q ∧ h.RegsKept u queueCounts :=
  ⟨by rw [ho.1]; rfl, (Hub.regsKept_of_reg_eq rfl _).trans ho.2⟩

theorem Hub.take_kept (h : Hub) (c : HostCmd) (t : Nat) : (h.take c t).host.lastQ = c.q ∧ h.RegsKept (h.take c t) queueCounts := by
  have hend : ∀ st, (h.served c.q).OnlyCmds ((h.served c.q).endCmd c st 0 0 []) := fun st => ((h.served c.q).endCmd_spec c st 0 0 []).1
  cases hp : h.poisoned c.q c.target && c.op != 0x0103
  · have hj : h.poisoned c.q c.target = false ∨ c.op = 0x0103 := (Bool.and_eq_false_iff.mp hp).imp id fun hop => by simpa using hop
    rw [Hub.take_judged hj]
    split
    · exact Hub.served_ends (hend 2)
    · split
      · exact Hub.served_ends (hend 4)
      · split
        · exact Hub.served_ends (hend 1)
        · exact Hub.served_ends ((h.served c.q).setCmd_counted _).1
  · obtain ⟨h1, h2⟩ := Bool.and_eq_true_iff.mp hp
    rw [Hub.take_aborted h1 (by simpa using h2)]
    exact Hub.served_ends (hend 5)

/-! ### Completions (R373, R374, R376, R380) -/

/-- A completion's data and entry, written. -/
def Hub.entryWritten (h : Hub) (c : HostCmd) : Hub :=
  let w := h.host.cqW.getD c.q 0
  let ph := h.host.phase.getD c.q true
  let mem := if c.posted.isNone then memPutBytes h.sram (0x08000000 + c.hdr.doutoff.toNat) (c.dout.take c.hdr.doutlen.toNat) else h.sram
  { h with sram := memPutBytes mem (cqAddr c.q w) (c.entry ph),
           host := { h.host with cqW := listSet h.host.cqW c.q ((w + 1) % 512),
                                 phase := if w = 511 then listSet h.host.phase c.q (!ph) else h.host.phase } }

/-- A failing status poisons its stream. -/
def Hub.streamJudged (h : Hub) (c : HostCmd) : Hub :=
  if failsStream (c.status.getD 0).toNat && !c.dedup then h.poison c.q c.target true else h

/-- The interrupt of a completion. -/
def Hub.completionRaised (h : Hub) (c : HostCmd) : Hub := if c.noIrq then h else h.vector c.q

theorem Hub.post_full {h : Hub} {c : HostCmd} (hg : c.ghost = false) (hw : (h.host.cqW.getD c.q 0 + 1) % 512 = h.fget (HCMD_CQHD_HEAD c.q)) :
    h.post c = h := by
  unfold Hub.post
  dsimp only
  rw [if_neg (by simp [hg]), if_pos hw]

theorem Hub.post_room {h : Hub} {c : HostCmd} (hg : c.ghost = false) (hw : (h.host.cqW.getD c.q 0 + 1) % 512 ≠ h.fget (HCMD_CQHD_HEAD c.q)) :
    h.post c = (Hub.completionRaised (((h.entryWritten c).streamJudged c).setCmd
      { c with posted := some (h.host.cqW.getD c.q 0), released := false, active := false }) c).countQueues := by
  unfold Hub.post
  dsimp only
  rw [if_neg (by simp [hg]), if_neg hw]
  rfl

theorem HostCmd.entry_length (c : HostCmd) (ph : Bool) : (c.entry ph).length = 16 := by
  simp [HostCmd.entry, leBytes_length]

theorem Hub.streamJudged_kept (h : Hub) (c : HostCmd) : (h.streamJudged c).sram = h.sram ∧ (h.streamJudged c).host = h.host := by
  unfold Hub.streamJudged Hub.poison
  split
  · split
    · exact ⟨rfl, rfl⟩
    · exact ⟨rfl, rfl⟩
  · exact ⟨rfl, rfl⟩

theorem Hub.poison_poisoned (h : Hub) (q : Nat) {cls : Nat} (h1 : 1 ≤ cls) (h11 : cls ≤ 11) (v : Bool) (k : Nat) :
    (h.poison q cls v).poisoned q k = if k = cls then v else h.poisoned q k := by
  have hset : h.poison q cls v = h.setRg (HCMD_POISON q) (bvSet (h.rg (HCMD_POISON q)) cls 1 (b2n v)) :=
    if_neg (by simp; omega)
  unfold Hub.poisoned
  rw [hset, Hub.rg_setRg_same]
  by_cases hk : k < 32
  · exact getLsbD_bvSet_bit _ v hk
  · rw [if_neg (by omega), BitVec.getLsbD_of_ge _ _ (by omega), BitVec.getLsbD_of_ge _ _ (by omega)]

theorem poisonReg_not_count {q : Nat} (hq : q < 4) : HCMD_POISON q ∉ queueCounts := by
  simp only [queueCounts, HCMD_POISON, HCMD_QCNT, List.mem_cons, List.not_mem_nil, or_false]
  omega

theorem Hub.completionRaised_kept (h : Hub) (c : HostCmd) : (h.completionRaised c).reg = h.reg ∧ (h.completionRaised c).sram = h.sram ∧
    (h.completionRaised c).host.cmds = h.host.cmds := by
  unfold Hub.completionRaised
  split
  · exact ⟨rfl, rfl, rfl⟩
  · exact ⟨rfl, rfl, rfl⟩

theorem Hub.vector_bit (h : Hub) {k : Nat} (hk : k < 5) : (h.vector k).host.irq.getLsbD k = true := by
  have hpow : (BitVec.ofNat 5 (2 ^ k)).getLsbD k = true := by
    rw [BitVec.getLsbD_ofNat, Nat.testBit_two_pow_self]; simp [hk]
  show (h.host.irq ||| BitVec.ofNat 5 (2 ^ k)).getLsbD k = true
  rw [BitVec.getLsbD_or, hpow, Bool.or_true]

/-- A completion: its entry, its record, its interrupt, and a stream its status fails. -/
theorem Hub.post_spec {h : Hub} {c : HostCmd} (hq : c.q < 4) (hg : c.ghost = false)
    (hw : (h.host.cqW.getD c.q 0 + 1) % 512 ≠ h.fget (HCMD_CQHD_HEAD c.q)) :
    memBytes (h.post c).sram (cqAddr c.q (h.host.cqW.getD c.q 0)) 16 = c.entry (h.host.phase.getD c.q true) ∧
      { c with posted := some (h.host.cqW.getD c.q 0), released := false, active := false } ∈ (h.post c).host.cmds ∧
      (c.noIrq = false → (h.post c).host.irq.getLsbD c.q = true) ∧
      (failsStream (c.status.getD 0).toNat = true → c.dedup = false → 1 ≤ c.target → c.target ≤ 11 → (h.post c).poisoned c.q c.target = true) := by
  rw [Hub.post_room hg hw]
  generalize hw' : h.host.cqW.getD c.q 0 = w
  generalize hph : h.host.phase.getD c.q true = ph
  obtain ⟨hsram, hhost⟩ := (h.entryWritten c).streamJudged_kept c
  generalize hset : ((h.entryWritten c).streamJudged c).setCmd { c with posted := some w, released := false, active := false } = u
  obtain ⟨hregR, hsramR, hcmdsR⟩ := u.completionRaised_kept c
  have hmem : (⟨c.q, c.slot, c.gen, c.tag, c.hdr, c.target, c.ord, false, c.status, c.result, c.detail, c.dout, some w, c.tDisp, c.seq, c.applied,
      c.retried, c.dedup, false, c.ghost⟩ : HostCmd) ∈ u.host.cmds := by rw [← hset]; exact Hub.mem_setCmd_self _ _
  rw [Hub.countQueues_sram, Hub.countQueues_host, hsramR]
  refine ⟨?_, by rw [hcmdsR]; exact hmem, fun hi => ?_, fun hf hd h1 h11 => ?_⟩
  · have hus : u.sram = (h.entryWritten c).sram := by rw [← hset]; exact hsram
    rw [hus, ← hw', ← hph, ← HostCmd.entry_length c (h.host.phase.getD c.q true)]
    exact memBytes_putBytes _ _ _
  · unfold Hub.completionRaised
    rw [if_neg (by simp [hi])]
    exact u.vector_bit (by omega)
  · have hreg : u.reg = ((h.entryWritten c).poison c.q c.target true).reg := by
      have hj : (h.entryWritten c).streamJudged c = (h.entryWritten c).poison c.q c.target true := if_pos (by rw [hf, hd]; rfl)
      rw [← hset, hj]
      rfl
    have hp := (h.entryWritten c).poison_poisoned c.q h1 h11 true c.target
    rw [if_pos rfl] at hp
    unfold Hub.poisoned at hp ⊢
    rw [(u.completionRaised c).countQueues_onlyReg.2 _ (poisonReg_not_count hq), Hub.regsKept_of_reg_eq hregR [] _ List.not_mem_nil,
      Hub.regsKept_of_reg_eq hreg [] _ List.not_mem_nil]
    exact hp

theorem State.complete_post {s : State} {r : CmdRef} {c : HostCmd} (hr : s.hub.ready = true) (ho : s.hub.openCmd r.q r.slot = none)
    (hc : s.hub.host.cmds.find? (fun x => x.q == r.q && x.slot == r.slot && x.status.isSome && x.posted.isNone) = some c) :
    s.complete r = s.modHub (·.post c) := by
  unfold State.complete
  dsimp only
  rw [if_neg (by simp [hr]), ho]
  dsimp only
  rw [hc]

/-! ### The obligation -/

/-- Settles O47: each event of the queues is its change of the records, the counts and the flags. -/
theorem hostCommandsQueueStartAndComplete : Obligations.HostCommandsQueueStartAndComplete := by
  unfold Obligations.HostCommandsQueueStartAndComplete
  refine ⟨⟨?doorbell, ?head⟩, ?idle, ?dispatch, ?completion, ?retry⟩
  case doorbell =>
    intro s q slot tm hr hq hs
    refine ⟨fun hn ho => ?_, fun hn ho hf => ?_, fun c hc hf hrel => ?_, fun c hc hf hp hret hg => ?_⟩
    · refine ⟨_, rfl, rfl, ?_⟩
      rw [State.modHub_hub, State.at_hub, Hub.doorbell_new hr hq hs hn ho]
      exact Hub.accept_spec hn tm
    · obtain ⟨hkept, hcmds, -⟩ := s.hub.hostFlag_kept HCMD_STAT_QFULL (2 ^ q)
      refine ⟨_, rfl, rfl, ?_⟩
      rw [State.modHub_hub, State.at_hub, Hub.doorbell_full hr hq hs hn ho hf]
      exact ⟨hkept, hcmds, s.hub.hostFlag_full hq⟩
    · obtain ⟨hkept, hcmds, -⟩ := s.hub.hostFlag_kept HCMD_STAT_DB_ERR 1
      refine ⟨_, rfl, rfl, ?_⟩
      rw [State.modHub_hub, State.at_hub, Hub.doorbell_inUse hr hq hs hc hf hrel]
      exact ⟨hkept, hcmds, s.hub.hostFlag_doorbell⟩
    · obtain ⟨honly, hmem, -⟩ := s.hub.setCmd_counted { c with gen := (c.gen + 1) % 64, tag := tagOf q slot ((c.gen + 1) % 64), retried := true }
      refine ⟨_, rfl, rfl, ?_⟩
      rw [State.modHub_hub, State.at_hub, Hub.doorbell_retry hr hq hs hc hf hp hret hg]
      exact ⟨honly, hmem⟩
  case head =>
    intro s q v hq hh head dist w n
    have hn : v.toNat % 512 < 512 := Nat.mod_lt _ (by decide)
    have hrun : exec (.cqHeadWrite q v) s = .next (s.modHub (·.headWrite q (v.toNat % 512))) := done_of_eq (if_neg (by simp [hh]))
    refine ⟨_, hrun, rfl, fun hd => ?_, fun hd => ?_⟩
    · obtain ⟨hkept, hcmds, -⟩ := s.hub.hostFlag_kept HCMD_STAT_DB_ERR 1
      rw [State.modHub_hub, Hub.headWrite_past hq hn hd]
      exact ⟨s.hub.hostFlag_doorbell, hcmds, hkept⟩
    · obtain ⟨hhead, hcmds⟩ := s.hub.headMoved_spec (q := q) hn
      rw [State.modHub_hub, Hub.headWrite_moves hq hn hd, hcmds]
      refine ⟨hhead, fun c hc hne => List.mem_map.mpr ⟨c, hc, HostCmd.freed_other hne _⟩, fun c hc i hcq hp => List.mem_map.mpr ⟨c, hc, ?_⟩⟩
      rw [HostCmd.freed_posted hcq hp]
      exact if_congr (by rw [decide_eq_true_iff]; exact Iff.rfl) rfl rfl
  case idle =>
    intro s tm hi
    exact ⟨_, rfl, Hub.dispatch_idle hi tm⟩
  case dispatch =>
    intro s tm i c hr ha hi hb hc
    obtain ⟨hlast, hkept⟩ := s.hub.take_kept c tm
    have hend : ∀ st, ((s.hub.served c.q).endCmd c st 0 0 []).Ended c st 0 0 [] := fun st => ((s.hub.served c.q).endCmd_spec c st 0 0 []).2.1
    refine ⟨_, rfl, rfl, ?_⟩
    rw [State.modHub_hub, State.at_hub, Hub.dispatch_takes hr ha hi hb hc]
    refine ⟨hlast, hkept, fun hp ho => ?_, fun hj => ⟨fun hh => ?_, fun hh hrg => ?_, fun hh hrg hop => ?_, fun hh hrg hop => ?_⟩⟩
    · rw [Hub.take_aborted hp ho]
      exact hend 5
    · rw [Hub.take_judged hj, if_pos hh]
      exact hend 2
    · rw [Hub.take_judged hj, if_neg (by simp [hh]), if_pos hrg]
      exact hend 4
    · rw [Hub.take_judged hj, if_neg (by simp [hh]), if_neg (by simp [hrg]), if_pos (by simpa using hop)]
      exact hend 1
    · rw [Hub.take_judged hj, if_neg (by simp [hh]), if_neg (by simp [hrg]), if_neg (by simpa using hop)]
      exact ((s.hub.served c.q).setCmd_counted { c with active := true, tDisp := tm }).2.1
  case completion =>
    intro s r c hr ho hc hg hq w
    have hrun := State.complete_post hr ho hc
    refine ⟨fun hw => ?_, fun hw => ?_⟩
    · exact done_of_eq (hrun.trans (congrArg (fun u => ({ s with hub := u } : State)) (Hub.post_full hg hw)))
    · exact ⟨_, done_of_eq hrun, rfl, Hub.post_spec hq hg hw⟩
  case retry =>
    intro s r c tm ho
    refine ⟨_, rfl, fun hle => ?_, fun hlt => ?_⟩
    · have heq : (s.at tm).retryExhausted r tm = (s.at tm).modHub (·.endCmd c stTimeout 0 0 []) := by
        unfold State.retryExhausted
        rw [show (s.at tm).hub.openCmd r.q r.slot = some c from ho]
        exact if_pos (decide_eq_true hle)
      rw [heq]
      exact State.ends_modHub (s := s.at tm) (s.hub.endCmd_spec c stTimeout 0 0 [])
    · unfold State.retryExhausted
      rw [show (s.at tm).hub.openCmd r.q r.slot = some c from ho]
      dsimp only
      have hearly : ¬ decide (c.tDisp + (s.at tm).hub.budgetOf c ≤ tm) = true := fun h => absurd (of_decide_eq_true h) (Nat.not_le.mpr hlt)
      rw [if_neg hearly, State.at_hub]

end Sys2Proof.Machine
end
section
/-! PROOFS. The statement on the commands of the hub, refuted: a telegram of the host is delivered only by a hub out of reset, and the statement
asks for a hub whose firmware runs, of which no state says that it is out of reset. -/

namespace Sys2Proof.Machine

theorem Hub.OnlyCmds.mbx_eq {h u : Hub} (a : h.OnlyCmds u) (l : LaneId) : u.mbx l = h.mbx l := by
  rw [a.1]; cases l <;> rfl

/-- A TLG_SUBMIT that waits in slot 0 of queue 0. -/
def submitCmd : HostCmd :=
  { newCmd 0 0 { opcode := 0x0401, tag := 0, flags := 0, plen := 0, htmo := 0, res10 := 0, dinoff := 0, dinlen := 0, doutoff := 0, doutlen := 0, res28 := 0 }
      4 0 0 with active := true }

/-- The hub, held in reset and with its firmware marked as running, has that command; connection 0 is of the host carrier, and lane A runs. -/
noncomputable def heldSubmitting : State :=
  { State.reset with
    phase := .running, la := { laneReset .a with reg := [(VOTE_STAT, 0x3#32)] },
    hub := { hubReset with
      reg := [(HCMD_STAT, 0x1#32)], up := true, host := { hostReset with cmds := [submitCmd] },
      descs := [(0, { ConnDesc.none with carrier := 4 })] } }

theorem heldSubmitting_active : heldSubmitting.activeCmd { q := 0, slot := 0 } 0x0401 = some submitCmd ∧
    (heldSubmitting.hub.desc 0).carrier = 4 ∧ heldSubmitting.hub.carries = true ∧ heldSubmitting.hub.isStandby = false ∧
    heldSubmitting.hub.sgwRuns = false ∧ heldSubmitting.la.sitReady = false ∧ heldSubmitting.la.easy = false ∧
    heldSubmitting.hub.rst.held = true := by
  decide +kernel

/-- A hub in reset delivers nothing, and the command ends all the same. -/
theorem State.tlgSubmit_of_held {s : State} (h : s.hub.rst.held = true) (r : CmdRef) (conn : Nat) (tlg : List Byte)
    (hc : (s.hub.desc conn).carrier = 4) : s.tlgSubmit r conn tlg = s.endWith r stOk 0 := by
  have hcarry : s.carry (·.received conn tlg s.now) = s := if_pos h
  unfold State.tlgSubmit
  rw [if_neg (by simp [hc]), hcarry]

/-- Refutes O50: a telegram submitted to a hub that is held in reset reaches no mailbox. -/
theorem not_hubCommandsActOrAreRefused : ¬ Obligations.HubCommandsActOrAreRefused := by
  rintro ⟨-, -, -, -, hsubmit, -⟩
  obtain ⟨hact, hdesc, hca, hst, hsg, hsit, heasy, hheld⟩ := heldSubmitting_active
  obtain ⟨ho, -, -⟩ := State.activeCmd_some hact
  obtain ⟨t, ht, -, hgood⟩ := hsubmit heldSubmitting { q := 0, slot := 0 } 0 0 [] submitCmd hact
  obtain ⟨-, -, hmbx⟩ := hgood hdesc hca hst hsg
  have hin := (hmbx .a).1 hsit heasy
  have hrun : exec (.tlgSubmit { q := 0, slot := 0 } 0 [] 0) heldSubmitting = .next ((heldSubmitting.at 0).endWith { q := 0, slot := 0 } stOk 0) :=
    done_of_eq ((State.hCmd_of_active (s := heldSubmitting.at 0) hact _).trans (State.tlgSubmit_of_held (s := heldSubmitting.at 0) hheld _ 0 [] hdesc))
  obtain ⟨-, hcmds, -⟩ := State.endWith_ends (s := heldSubmitting.at 0) ho stOk 0
  rw [← Host.Outcome.next.inj (hrun.symm.trans ht), hcmds.mbx_eq] at hin
  have hempty : (heldSubmitting.hub.mbx .a).inTlg = [] := rfl
  exact absurd (hempty.symm.trans (congrArg Mailbox.inTlg hin)) (by rw [hempty]; simp)

end Sys2Proof.Machine
end
section
/-! PROOFS. Resets of the hub, the lanes and the module (R164, R404, R489 to R493): what each reaches, keeps and marks. -/

namespace Sys2Proof.Machine

/-! ### The reset of the hub (R489, R493) -/

theorem Hub.markReset_frame (h : Hub) (cold again : Bool) (causes : List Nat) :
    h.markReset cold again causes = { h with reg := (h.markReset cold again causes).reg } := by
  cases again <;> rfl

/-- What the assertion of a reset makes of the hub before the cause bits: `c` whether it is cold now, `cold` whether it was asked for so. -/
def Hub.resetKept (h : Hub) (c cold : Bool) (tm : Nat) : Hub :=
  let r := { h.rst with held := true, cold := c, t := tm, due := none, trimOk := h.rst.trimOk && !cold, pmbT := 0 }
  let base := { hubReset with reg := sparseMap hubRegDefault (hubRegAfter c) h.reg, rst := r, tb := h.tb }
  if c then { base with sram := sparseFilter (fun k => decide (retainedBase ≤ k)) h.sram }
  else { base with sram := h.sram, mbxA := h.mbxA, mbxB := h.mbxB, mbxC := h.mbxC, badBanks := h.badBanks }

/-- A reset of the hub is cold when it is asked for so, or when it joins a cold one (R493). -/
def Hub.coldNow (h : Hub) (cold : Bool) : Bool := cold || (h.rst.held && h.rst.cold)

theorem Hub.assertReset_eq (h : Hub) (cold : Bool) (causes : List Nat) (tm : Nat) :
    h.assertReset cold causes tm = (h.resetKept (h.coldNow cold) cold tm).markReset (h.coldNow cold) h.rst.held causes := rfl

theorem Hub.resetKept_rest (h : Hub) (c cold : Bool) (tm : Nat) :
    (h.resetKept c cold tm).rst.held = true ∧ (h.resetKept c cold tm).rst.cold = c ∧ (h.resetKept c cold tm).host = hostReset ∧
      (c = false → (h.resetKept c cold tm).sram = h.sram) := by
  cases c
  · exact ⟨rfl, rfl, rfl, fun _ => rfl⟩
  · exact ⟨rfl, rfl, rfl, fun h => absurd h (by decide)⟩

/-- A bit of a register below a field is as before a write of the field. -/
theorem Hub.getLsbD_fset_below (h : Hub) {f : Fld} (v : Nat) {a i : Nat} (ha : f.addr = a) (hi : i < f.lo) (h32 : i < 32) :
    ((h.fset f v).rg a).getLsbD i = (h.rg a).getLsbD i := by
  subst ha
  rw [show (h.fset f v).rg f.addr = bvSet (h.rg f.addr) f.lo f.w v from Hub.rg_setRg_same _ _ _]
  exact getLsbD_bvSet_below _ hi h32

/-- Each cause of a hub reset stands in `HRST_CAUSE`. -/
theorem Hub.markReset_causes (h : Hub) (cold again : Bool) {cause : Nat} {causes : List Nat} (hc : cause < 8) (hm : cause ∈ causes) :
    ((h.markReset cold again causes).rg HRST_CAUSE).getLsbD cause = true := by
  unfold Hub.markReset
  extract_lets y₁ y₂ y₃
  have h₁ : (y₁.rg HRST_CAUSE).getLsbD cause = true := by
    rw [show y₁.rg HRST_CAUSE = h.rg HRST_CAUSE ||| causeWord causes from Hub.rg_setRg_same _ _ _, BitVec.getLsbD_or,
      show (causeWord causes).getLsbD cause = true from getLsbD_foldl_causes causes 0 (by omega) (Or.inr hm), Bool.or_true]
  have h₂ : (y₂.rg HRST_CAUSE).getLsbD cause = true :=
    (Hub.getLsbD_fset_below (f := HRST_CAUSE_WARM) _ _ rfl hc (by omega)).trans h₁
  have h₃ : (y₃.rg HRST_CAUSE).getLsbD cause = true := by
    show ((if again then y₂ else y₂.fsat HRSTC_STAT_NRST 1).rg HRST_CAUSE).getLsbD cause = true
    split
    · exact h₂
    · rw [Hub.fsat, Hub.rg_fset_ne _ (f := HRSTC_STAT_NRST) _ (by decide)]
      exact h₂
  split
  · exact h₃
  · rw [Hub.rg_fset_ne _ (f := HCMD_STAT_EPOCH) _ (by decide)]
    exact h₃

/-! ### What a lane keeps when the hub is reset (R404) -/

/-- Between `x` and `y` the bridge, the cores and the notes of a lane alone may change, and of the registers not `VOTE_STAT`. -/
def Lane.BridgeOnly (x y : Lane) : Prop :=
  y = { x with reg := y.reg, brg := y.brg, core0 := y.core0, core1 := y.core1, notes := y.notes } ∧ y.rg VOTE_STAT = x.rg VOTE_STAT

theorem Lane.BridgeOnly.refl (x : Lane) : x.BridgeOnly x := ⟨rfl, rfl⟩

theorem Lane.BridgeOnly.trans {x y z : Lane} (a : x.BridgeOnly y) (b : y.BridgeOnly z) : x.BridgeOnly z := by
  obtain ⟨ea, ra⟩ := a
  obtain ⟨eb, rb⟩ := b
  refine ⟨?_, rb.trans ra⟩
  rw [eb, ea]

theorem Lane.bridgeOnly_setRg (x : Lane) {a : Nat} (v : Word) (ha : VOTE_STAT ≠ a) : x.BridgeOnly (x.setRg a v) := ⟨rfl, x.rg_setRg_ne v ha⟩

theorem Lane.bridgeOnly_fset (x : Lane) {f : Fld} (v : Nat) (ha : VOTE_STAT ≠ f.addr) : x.BridgeOnly (x.fset f v) := ⟨rfl, x.rg_fset_ne v ha⟩

theorem Lane.bridgeOnly_brgShow (x : Lane) : x.BridgeOnly x.brgShow :=
  ⟨by rw [x.brgShow_frame], x.brgShow_regsKept _ (by decide)⟩

theorem Lane.bridgeOnly_brgErr (x : Lane) (e : BrgErr) : x.BridgeOnly (x.brgErr e) := by
  unfold Lane.brgErr
  split
  · exact Lane.BridgeOnly.trans ⟨rfl, rfl⟩ (Lane.bridgeOnly_brgShow _)
  · exact (x.bridgeOnly_fset _ (f := BRG_STAT_EQ_OVF) (by decide)).trans (Lane.bridgeOnly_brgShow _)

theorem Lane.bridgeOnly_busTrap (x : Lane) (split write : Bool) (a : Word) : x.BridgeOnly (x.busTrap split write a) := by
  cases split <;> exact ⟨rfl, rfl⟩

theorem Lane.bridgeOnly_semGive (x : Lane) (n : Nat) (byHub : Bool) : x.BridgeOnly (x.semGive n byHub) := by
  have hset := x.bridgeOnly_fset (f := BRG_SEM_OWNER n) semFree (BRG_SEM_ne (by decide) n).symm
  unfold Lane.semGive
  dsimp only
  by_cases hown : x.fget (BRG_SEM_OWNER n) = if byHub then semHub else semLane
  · rw [if_pos hown]
    split
    · exact hset
    · exact hset.trans ⟨rfl, rfl⟩
  · rw [if_neg hown]
    exact .refl x

theorem Lane.bridgeOnly_foldl {α : Type} {f : Lane → α → Lane} (hf : ∀ x a, Lane.BridgeOnly x (f x a)) (as : List α) (x : Lane) :
    x.BridgeOnly (as.foldl f x) := by
  induction as generalizing x with
  | nil => exact .refl x
  | cons a as ih => exact (hf x a).trans (ih _)

/-- The reset of the hub ends what the bridge of a lane carries, and changes nothing else of the lane. -/
theorem Lane.bridgeOnly_hubReset (x : Lane) (split : Bool) (t : Nat) : x.BridgeOnly (x.hubReset split t) := by
  unfold Lane.hubReset
  extract_lets rs wins b y₁ y₂ y₃ y₄
  have h₁ : x.BridgeOnly y₁ := ⟨rfl, rfl⟩
  have h₂ : y₁.BridgeOnly y₂ := Lane.bridgeOnly_foldl (fun z r => (z.bridgeOnly_brgErr _).trans (Lane.bridgeOnly_busTrap _ _ _ _)) rs y₁
  have h₃ : y₂.BridgeOnly y₃ := Lane.bridgeOnly_foldl (fun z w => z.bridgeOnly_setRg _ (by decide)) wins y₂
  have h₄ : y₃.BridgeOnly y₄ := Lane.bridgeOnly_foldl (fun z n => z.bridgeOnly_semGive n true) (upTo 32) y₃
  have h₅ : y₄.BridgeOnly (y₄.fset BRG_STAT_HUBRST 1) := y₄.bridgeOnly_fset _ (by decide)
  have h₆ : (y₄.fset BRG_STAT_HUBRST 1).BridgeOnly ((y₄.fset BRG_STAT_HUBRST 1).fset BRG_STAT_HUBUP 0) := Lane.bridgeOnly_fset _ _ (by decide)
  exact ((h₁.trans h₂).trans h₃).trans (h₄.trans (h₅.trans (h₆.trans (Lane.bridgeOnly_brgShow _))))

theorem Lane.BridgeOnly.rst_eq {x y : Lane} (h : x.BridgeOnly y) : y.rst = x.rst := by rw [h.1]
theorem Lane.BridgeOnly.fld_eq {x y : Lane} (h : x.BridgeOnly y) : y.fld = x.fld := by rw [h.1]
theorem Lane.BridgeOnly.sram_eq {x y : Lane} (h : x.BridgeOnly y) : y.sram = x.sram := by rw [h.1]
theorem Lane.BridgeOnly.inVote_eq {x y : Lane} (h : x.BridgeOnly y) : y.inVote = x.inVote := by
  unfold Lane.inVote Lane.on Lane.fget
  rw [show VOTE_STAT_INVOTE.addr = VOTE_STAT from rfl, h.2]

/-! ### The hub's reset in the whole state -/

/-- From `s` to `t` the lanes hear of the hub's reset: bridges end their transactions, a lane in reset hears nothing, and records are made. -/
def State.HubLost (s t : State) : Prop :=
  t = { s with la := t.la, lb := t.lb, lc := t.lc, hub := t.hub } ∧ s.hub.SameButRec t.hub ∧
    ∀ k, (s.lane k).BridgeOnly (t.lane k) ∧ ((s.lane k).rst.held = true → t.lane k = s.lane k)

theorem State.HubLost.refl (s : State) : s.HubLost s := ⟨rfl, .refl _, fun _ => ⟨.refl _, fun _ => rfl⟩⟩

theorem State.HubLost.trans {s t u : State} (a : s.HubLost t) (b : t.HubLost u) : s.HubLost u := by
  obtain ⟨ea, ha, la⟩ := a
  obtain ⟨eb, hb, lb⟩ := b
  refine ⟨by rw [eb, ea], ha.trans hb, fun k => ⟨(la k).1.trans (lb k).1, fun h => ?_⟩⟩
  rw [(lb k).2 (by rw [(la k).2 h]; exact h), (la k).2 h]

theorem State.setLane_frame (s : State) (l : LaneId) (x : Lane) :
    s.setLane l x = { s with la := (s.setLane l x).la, lb := (s.setLane l x).lb, lc := (s.setLane l x).lc } := by
  cases l <;> rfl

/-- A record of a lane is the hub's alone. -/
theorem State.flushNotes_frame (s : State) (l : LaneId) : s.flushNotes l =
    { s with la := (s.flushNotes l).la, lb := (s.flushNotes l).lb, lc := (s.flushNotes l).lc, hub := (s.flushNotes l).hub } := by
  have h (ns : List RecNote) (z : State) : ns.foldl (fun (s : State) n => s.recLane l n.blk n.cls n.rule n.data) z =
      { z with hub := (ns.foldl (fun (s : State) n => s.recLane l n.blk n.cls n.rule n.data) z).hub } := by
    induction ns generalizing z with
    | nil => rfl
    | cons n ns ih => exact ih _
  unfold State.flushNotes State.modLane
  rw [State.setLane_frame, h]

/-- A change of the bridge of lane `l`, not heard in reset, is such a change of the state. -/
theorem State.hubLost_upLane (s : State) (l : LaneId) {f : Lane → Lane} (hf : ∀ x, Lane.BridgeOnly x (f x)) : s.HubLost (s.upLane l f) := by
  by_cases hl : (s.lane l).rst.held = true
  · rw [s.upLane_held l f hl]
    exact .refl s
  · have hl' : (s.lane l).rst.held = false := by simpa using hl
    obtain ⟨⟨hother, hhub, -⟩, hlane⟩ := s.upLane_next l f hl'
    refine ⟨?_, hhub, fun k => ?_⟩
    · unfold State.upLane
      rw [if_neg hl, State.flushNotes_frame, State.modLane, State.setLane_frame]
    · by_cases hk : k = l
      · subst hk
        rw [hlane]
        exact ⟨(hf _).trans ⟨rfl, rfl⟩, fun h => absurd h hl⟩
      · rw [hother k hk]
        exact ⟨.refl _, fun _ => rfl⟩

/-- The lanes hear of the hub's reset, one after the other. -/
def State.tellHubReset (s : State) : State :=
  allLanes.foldl (fun (s : State) l => s.upLane l (·.hubReset s.split s.now)) s

theorem State.hubLost_tellHubReset (s : State) : s.HubLost s.tellHubReset := by
  have h (ls : List LaneId) (z : State) : z.HubLost (ls.foldl (fun (s : State) l => s.upLane l (·.hubReset s.split s.now)) z) := by
    induction ls generalizing z with
    | nil => exact .refl z
    | cons l ls ih => exact (z.hubLost_upLane l fun x => x.bridgeOnly_hubReset _ _).trans (ih _)
  exact h allLanes s

theorem State.assertHub_eq (s : State) (cold : Bool) (causes : List Nat) : s.assertHub cold causes =
    (if s.hub.rst.held then s else s.tellHubReset).modHub fun h => (h.assertReset cold causes s.now).fset HCMD_STAT_FAULT (b2n s.aon.faultN) := by
  unfold State.assertHub
  split
  · rfl
  · show s.tellHubReset.modHub (fun h => (h.assertReset cold causes s.tellHubReset.now).fset HCMD_STAT_FAULT (b2n s.tellHubReset.aon.faultN)) = _
    obtain ⟨he, -, -⟩ := s.hubLost_tellHubReset
    generalize s.tellHubReset = u at he ⊢
    have hnow : u.now = s.now := by rw [he]
    have haon : u.aon = s.aon := by rw [he]
    rw [hnow, haon]

/-- What the reset of the hub does and leaves. -/
theorem State.assertHub_spec (s : State) (cold : Bool) (causes : List Nat) :
    s.assertHub cold causes = { s with la := (s.assertHub cold causes).la, lb := (s.assertHub cold causes).lb,
                                       lc := (s.assertHub cold causes).lc, hub := (s.assertHub cold causes).hub } ∧
      (∀ k, (s.lane k).BridgeOnly ((s.assertHub cold causes).lane k) ∧
        ((s.lane k).rst.held = true → (s.assertHub cold causes).lane k = s.lane k)) ∧
      (s.assertHub cold causes).hub.rst.held = true ∧ (s.assertHub cold causes).hub.rst.cold = s.hub.coldNow cold ∧
      (s.assertHub cold causes).hub.host = hostReset ∧
      (s.hub.coldNow cold = false → (s.assertHub cold causes).hub.sram = s.hub.sram) ∧
      ∀ cause, cause < 8 → cause ∈ causes → ((s.assertHub cold causes).hub.rg HRST_CAUSE).getLsbD cause = true := by
  have hlost : s.HubLost (if s.hub.rst.held then s else s.tellHubReset) := by
    split
    · exact .refl s
    · exact s.hubLost_tellHubReset
  rw [s.assertHub_eq cold causes]
  generalize (if s.hub.rst.held then s else s.tellHubReset) = u at hlost ⊢
  obtain ⟨he, hsame, hlanes⟩ := hlost
  have hrst : u.hub.rst = s.hub.rst := by rw [hsame.1]
  have hsram : u.hub.sram = s.hub.sram := by rw [hsame.1]
  have hcold : u.hub.coldNow cold = s.hub.coldNow cold := by rw [Hub.coldNow, Hub.coldNow, hrst]
  have hheld : u.hub.rst.held = s.hub.rst.held := by rw [hrst]
  obtain ⟨kheld, kcold, khost, ksram⟩ := u.hub.resetKept_rest (u.hub.coldNow cold) cold s.now
  have hframe : ((u.hub.assertReset cold causes s.now).fset HCMD_STAT_FAULT (b2n s.aon.faultN)) =
      { u.hub.resetKept (u.hub.coldNow cold) cold s.now with
        reg := ((u.hub.assertReset cold causes s.now).fset HCMD_STAT_FAULT (b2n s.aon.faultN)).reg } := by
    rw [Hub.fset, Hub.setRg, Hub.assertReset_eq, Hub.markReset_frame]
  have hhub : (u.modHub fun h => (h.assertReset cold causes s.now).fset HCMD_STAT_FAULT (b2n s.aon.faultN)).hub =
    (u.hub.assertReset cold causes s.now).fset HCMD_STAT_FAULT (b2n s.aon.faultN) := State.modHub_hub _ _
  refine ⟨?_, hlanes, ?_, ?_, ?_, fun hc => ?_, fun cause hc hm => ?_⟩
  · rw [State.modHub, he]
  · rw [hhub, hframe]
    exact kheld
  · rw [hhub, hframe]
    exact kcold.trans hcold
  · rw [hhub, hframe]
    exact khost
  · rw [hhub, hframe]
    exact (ksram (hcold.trans hc)).trans hsram
  · rw [hhub, Hub.rg_fset_ne _ (f := HCMD_STAT_FAULT) _ (by decide), Hub.assertReset_eq]
    exact Hub.markReset_causes _ _ _ hc hm

/-! ### The reset of a lane (R489, R492, R493) -/

/-- What the assertion of a reset leaves of a lane. -/
theorem Lane.assertReset_rest (x : Lane) (cold : Bool) (causes : List Nat) (tm : Nat) :
    (x.assertReset cold causes tm).rst.held = true ∧ (x.assertReset cold causes tm).rst.cold = x.coldNow cold ∧
      (x.assertReset cold causes tm).rst.trimOk = (x.rst.trimOk && !cold) ∧ (x.assertReset cold causes tm).fld.dyn = 0 ∧
      (x.coldNow cold = false → (x.assertReset cold causes tm).sram = x.sram) ∧
      (x.coldNow cold = true → (x.assertReset cold causes tm).sram = []) := by
  rw [x.assertReset_frame cold causes tm]
  generalize x.coldNow cold = c
  cases c
  · exact ⟨rfl, rfl, rfl, rfl, fun _ => rfl, fun h => absurd h (by decide)⟩
  · exact ⟨rfl, rfl, rfl, rfl, fun h => absurd h (by decide), fun _ => rfl⟩

theorem State.assertLane_frame (s : State) (l : LaneId) (cold : Bool) (causes : List Nat) : s.assertLane l cold causes =
    { s with la := (s.assertLane l cold causes).la, lb := (s.assertLane l cold causes).lb, lc := (s.assertLane l cold causes).lc } :=
  s.setLane_frame l _

theorem State.assertLane_lane (s : State) (l : LaneId) (cold : Bool) (causes : List Nat) :
    (s.assertLane l cold causes).lane l = (s.lane l).assertReset cold causes s.now := s.lane_modLane l _

theorem State.assertLane_lane_ne (s : State) {l k : LaneId} (h : k ≠ l) (cold : Bool) (causes : List Nat) :
    (s.assertLane l cold causes).lane k = s.lane k := s.lane_modLane_ne _ h

/-! ### A leave, seen from another lane (R164, R178) -/

/-- From `s` to `t` the phase, the lanes and the records of the hub may change. -/
def State.LanesAndRec (s t : State) : Prop :=
  t = { s with phase := t.phase, la := t.la, lb := t.lb, lc := t.lc, hub := t.hub } ∧ s.hub.SameButRec t.hub

theorem State.LanesAndRec.refl (s : State) : s.LanesAndRec s := ⟨rfl, .refl _⟩

theorem State.LanesAndRec.trans {s t u : State} (a : s.LanesAndRec t) (b : t.LanesAndRec u) : s.LanesAndRec u :=
  ⟨by rw [b.1, a.1], a.2.trans b.2⟩

theorem State.lanesAndRec_setLane (s : State) (l : LaneId) (x : Lane) : s.LanesAndRec (s.setLane l x) := by
  refine ⟨?_, by rw [State.setLane_hub]; exact .refl _⟩
  cases l <;> rfl

theorem State.lanesAndRec_recLane (s : State) (l : LaneId) (b c r : Nat) (d : List (Nat × Nat)) : s.LanesAndRec (s.recLane l b c r d) :=
  ⟨rfl, (s.onlyLane_recLane l b c r d).2.1⟩

theorem State.enterEasy_frame (s : State) (l : LaneId) (cause : Nat) (peer : Bool) : s.LanesAndRec (s.enterEasy l cause peer) := by
  unfold State.enterEasy
  split
  · cases l <;> exact ⟨rfl, .refl _⟩
  · exact .refl s

theorem State.enterEasyAll_frame (ls : List LaneId) (cause : Nat) (s : State) : s.LanesAndRec (s.enterEasyAll ls cause) := by
  induction ls generalizing s with
  | nil => exact .refl s
  | cons l ls ih => exact (s.enterEasy_frame l cause false).trans (ih _)

/-- A lane that entered nothing, or that entered easy all. -/
def Lane.EasyOr (x y : Lane) : Prop := y = x ∨ ∃ split cause, y = x.enterEasy split cause false

theorem State.easyOr_enterEasyAll (ls : List LaneId) (hn : ls.Nodup) (cause : Nat) (s : State) (k : LaneId) :
    (s.lane k).EasyOr ((s.enterEasyAll ls cause).lane k) := by
  induction ls generalizing s with
  | nil => exact Or.inl rfl
  | cons l ls ih =>
    obtain ⟨hl, hls⟩ := List.nodup_cons.mp hn
    by_cases hk : k = l
    · subst hk
      show (s.lane k).EasyOr (((s.enterEasy k cause false).enterEasyAll ls cause).lane k)
      rw [State.enterEasyAll_lane_of_not_mem _ _ _ hl, State.enterEasy_lane_same]
      split
      · exact Or.inr ⟨_, _, rfl⟩
      · exact Or.inl rfl
    · have := ih hls (s.enterEasy l cause false)
      rwa [s.enterEasy_lane_ne cause false hk] at this

/-- While a voter is left nothing follows a leave; else every lane out of reset enters easy all. -/
theorem State.noVoters_spec (s : State) (l : LaneId) (reason : Nat) : s.LanesAndRec (s.noVoters l reason) ∧
    ∀ k, (s.noVoters l reason).lane k = s.lane k ∨ ((s.lane k).inVote = false ∧ (s.lane k).EasyOr ((s.noVoters l reason).lane k)) := by
  by_cases hany : (allLanes.any fun y => (s.lane y).inVote) = true
  · rw [show s.noVoters l reason = s from if_pos hany]
    exact ⟨.refl s, fun _ => Or.inl rfl⟩
  · have hnone (k : LaneId) : (s.lane k).inVote = false := by
      simpa using (List.any_eq_false.mp (by simpa using hany)) k (by cases k <;> decide)
    have heq : ∃ cause, s.noVoters l reason = (s.enterEasyAll allLanes cause).markEasy := by
      unfold State.noVoters
      rw [if_neg hany]
      exact ⟨_, rfl⟩
    obtain ⟨cause, heq⟩ := heq
    rw [heq]
    refine ⟨(s.enterEasyAll_frame allLanes cause).trans ⟨rfl, .refl _⟩, fun k => Or.inr ⟨hnone k, ?_⟩⟩
    rw [State.markEasy_lane]
    exact State.easyOr_enterEasyAll allLanes (by decide) cause s k

/-- A leave of lane `l` seen from another lane: it stays as it is, or, outside the vote, enters easy all. -/
theorem State.leave_others (s : State) (l : LaneId) (reason ctx seg due cause : Nat) :
    s.LanesAndRec (s.leave l reason ctx seg due cause) ∧ ∀ k, k ≠ l → (s.leave l reason ctx seg due cause).lane k = s.lane k ∨
      ((s.lane k).inVote = false ∧ (s.lane k).EasyOr ((s.leave l reason ctx seg due cause).lane k)) := by
  unfold State.leave
  dsimp only
  split
  · split
    · exact ⟨s.lanesAndRec_setLane l _, fun k hk => Or.inl (s.lane_setLane_ne _ hk)⟩
    · exact ⟨.refl s, fun _ _ => Or.inl rfl⟩
  · split
    · generalize hz : (s.setLane l ((s.lane l).leaveNow reason ctx seg due cause)).recLane l 1 2 164
        [(1, l.code), (1, reason), (4, (s.lane l).stroke.toNat), (2, ctx * 8192 + seg % 8192)] = z
      have hz₁ : s.LanesAndRec z := hz ▸ (s.lanesAndRec_setLane l _).trans (State.lanesAndRec_recLane _ _ _ _ _ _)
      have hzk (k : LaneId) (hk : k ≠ l) : z.lane k = s.lane k := by rw [← hz, State.recLane_lane, s.lane_setLane_ne _ hk]
      obtain ⟨hframe, hlanes⟩ := z.noVoters_spec l reason
      refine ⟨hz₁.trans hframe, fun k hk => ?_⟩
      have := hlanes k
      rwa [hzk k hk] at this
    · exact ⟨.refl s, fun _ _ => Or.inl rfl⟩

/-- A voter that leaves is out of the vote, and in easy all when no voter is left. -/
theorem State.leave_self {s : State} {l : LaneId} (he : (s.lane l).easy = false) (hv : (s.lane l).inVote = true) (reason ctx seg due cause : Nat) :
    ((s.lane l).leaveNow reason ctx seg due cause).EasyOr ((s.leave l reason ctx seg due cause).lane l) := by
  rw [State.leave_of_inVote he hv]
  generalize hz : (s.setLane l ((s.lane l).leaveNow reason ctx seg due cause)).recLane l 1 2 164
    [(1, l.code), (1, reason), (4, (s.lane l).stroke.toNat), (2, ctx * 8192 + seg % 8192)] = z
  have hzl : z.lane l = (s.lane l).leaveNow reason ctx seg due cause := by rw [← hz, State.recLane_lane, State.lane_setLane]
  rw [← hzl]
  rcases (z.noVoters_spec l reason).2 l with h | ⟨-, h⟩
  · exact Or.inl h
  · exact h

/-! ### A reset asked for (R490, R492) -/

/-- A lane that is no voter is reset at once by a request, with the cause of the request. -/
def Lane.ResetBy (x y : Lane) (cause : Nat) (cold : Bool) (tm : Nat) : Prop :=
  ∃ (causes : List Nat) (z : Lane), y = z.assertReset cold causes tm ∧ cause ∈ causes ∧ z.rst = x.rst ∧ z.sram = x.sram

theorem State.lane_requestReset_voter {s : State} {l : LaneId} (hl : (s.lane l).rst.held = false) (he : (s.lane l).easy = false)
    (hv : (s.lane l).inVote = true) (reason cause : Nat) (cold : Bool) :
    s.requestReset l reason cause cold = (s.leave l reason 0 0 (s.now + tenMicros) cause).modLane l fun y =>
      { y with rst := { y.rst with due := some (cold, cause, s.now + tenMicros) } } := by
  unfold State.requestReset
  dsimp only
  rw [if_neg (by rw [hl]; decide), if_pos (by rw [he, hv]; rfl)]
  rfl

/-- The leave of a lane outside the vote changes at most how it signs. -/
theorem State.leave_nonvoter (s : State) {l : LaneId} (h : ((s.lane l).inVote && !(s.lane l).easy) = false) (reason ctx seg due cause : Nat) :
    s.LanesAndRec (s.leave l reason ctx seg due cause) ∧ (∀ k, k ≠ l → (s.leave l reason ctx seg due cause).lane k = s.lane k) ∧
      ((s.leave l reason ctx seg due cause).lane l).rst = (s.lane l).rst ∧ ((s.leave l reason ctx seg due cause).lane l).sram = (s.lane l).sram := by
  unfold State.leave
  dsimp only
  split
  · split
    · exact ⟨s.lanesAndRec_setLane l _, fun k hk => s.lane_setLane_ne _ hk, by rw [State.lane_setLane]; rfl, by rw [State.lane_setLane]; rfl⟩
    · exact ⟨.refl s, fun _ _ => rfl, rfl, rfl⟩
  · rw [if_neg (by rintro hv; rw [hv] at h; simp_all)]
    exact ⟨.refl s, fun _ _ => rfl, rfl, rfl⟩

/-- A request to a lane that is no voter, or held, resets it and changes no other lane. -/
theorem State.requestReset_nonvoter (s : State) {l : LaneId} (h : (s.lane l).rst.held = true ∨ ((s.lane l).inVote && !(s.lane l).easy) = false)
    (reason cause : Nat) (cold : Bool) :
    s.LanesAndRec (s.requestReset l reason cause cold) ∧ (∀ k, k ≠ l → (s.requestReset l reason cause cold).lane k = s.lane k) ∧
      (s.lane l).ResetBy ((s.requestReset l reason cause cold).lane l) cause cold s.now := by
  have hassert (u : State) (causes : List Nat) : u.LanesAndRec (u.assertLane l cold causes) := u.lanesAndRec_setLane l _
  unfold State.requestReset
  dsimp only
  by_cases hl : (s.lane l).rst.held = true
  · rw [if_pos hl]
    exact ⟨hassert _ _, fun k hk => s.assertLane_lane_ne hk _ _, [cause], s.lane l, s.assertLane_lane l _ _, List.mem_singleton_self _, rfl, rfl⟩
  · have hout : ((s.lane l).inVote && !(s.lane l).easy) = false := h.resolve_left hl
    rw [if_neg hl, if_neg (by rw [hout]; decide)]
    obtain ⟨hframe, hother, hrst, hsram⟩ := s.leave_nonvoter hout reason 0 0 s.now cause
    have hnow : (s.leave l reason 0 0 s.now cause).now = s.now := by rw [hframe.1]
    generalize s.leave l reason 0 0 s.now cause = u at *
    exact ⟨hframe.trans (hassert _ _), fun k hk => (u.assertLane_lane_ne hk _ _).trans (hother k hk), _, u.lane l,
      (u.assertLane_lane l cold _).trans (by rw [hnow]), List.mem_cons_self, hrst, hsram⟩

theorem Lane.leaveNow_rst (x : Lane) (reason ctx seg due cause : Nat) :
    (x.leaveNow reason ctx seg due cause).rst = { x.rst with due := some (false, cause, due) } := by
  unfold Lane.leaveNow
  simp only [Lane.stopDyn, Lane.setInset, Lane.sendNotice]
  split <;> rfl

/-- The leave of a voter for its reset: out of the vote, no dynamic signal, its reason told, and its reset due. -/
def Lane.LeavesFor (x y : Lane) (reason cause : Nat) (cold : Bool) (d : Nat) : Prop :=
  y.inVote = false ∧ y.fld.dyn = 0 ∧ y.fget VOTE_LEAVE_REASON = reason % 2 ^ 8 ∧ y.rst = { x.rst with due := some (cold, cause, d) }

theorem Lane.leavesFor_easyOr {x y z : Lane} {reason cause d : Nat} {cold : Bool} (h : x.LeavesFor y reason cause cold d) (hz : y.EasyOr z) :
    x.LeavesFor z reason cause cold d := by
  obtain ⟨hv, hdyn, hreason, hrst⟩ := h
  rcases hz with rfl | ⟨split, c, rfl⟩
  · exact ⟨hv, hdyn, hreason, hrst⟩
  · refine ⟨?_, ?_, ?_, (y.enterEasy_rst split c false).trans hrst⟩
    · by_cases he : y.easy = true
      · rw [Lane.enterEasy, if_pos he]
        exact hv
      · exact Lane.enterEasy_inVote _ _ _ (by simpa using he)
    · by_cases he : y.easy = true
      · rw [Lane.enterEasy, if_pos he]
        exact hdyn
      · exact Lane.enterEasy_dyn _ _ _ (by simpa using he)
    · by_cases he : y.easy = true
      · rw [Lane.enterEasy, if_pos he]
        exact hreason
      · exact (Lane.enterEasy_leaveReason (by simpa using he) split c false).trans hreason

theorem State.requestReset_voter {s : State} {l : LaneId} (hl : (s.lane l).rst.held = false) (he : (s.lane l).easy = false)
    (hv : (s.lane l).inVote = true) (reason cause : Nat) (cold : Bool) :
    s.LanesAndRec (s.requestReset l reason cause cold) ∧
      (∀ k, k ≠ l → (s.requestReset l reason cause cold).lane k = s.lane k ∨
        ((s.lane k).inVote = false ∧ (s.lane k).EasyOr ((s.requestReset l reason cause cold).lane k))) ∧
      (s.lane l).LeavesFor ((s.requestReset l reason cause cold).lane l) reason cause cold (s.now + 10000) := by
  rw [State.lane_requestReset_voter hl he hv]
  obtain ⟨hframe, hother⟩ := s.leave_others l reason 0 0 (s.now + tenMicros) cause
  have hself := State.leave_self he hv reason 0 0 (s.now + tenMicros) cause
  generalize s.leave l reason 0 0 (s.now + tenMicros) cause = u at *
  refine ⟨hframe.trans (u.lanesAndRec_setLane l _), fun k hk => ?_, ?_⟩
  · rw [State.lane_modLane_ne _ _ hk]
    exact hother k hk
  · rw [State.lane_modLane]
    have hleft : (s.lane l).LeavesFor ((s.lane l).leaveNow reason 0 0 (s.now + tenMicros) cause) reason cause false (s.now + tenMicros) :=
      ⟨Lane.leaveNow_inVote _ _ _ _ _ _, (Lane.leaveNow_rest _ _ _ _ _ _).1, Lane.leaveNow_reason _ _ _ _ _ _, Lane.leaveNow_rst _ _ _ _ _ _⟩
    obtain ⟨hv', hdyn, hreason, hrst⟩ := Lane.leavesFor_easyOr hleft hself
    refine ⟨hv', hdyn, hreason, ?_⟩
    show ({ (u.lane l).rst with due := _ } : RstInt) = _
    rw [hrst]
    rfl

/-- A request seen from another lane: it stays as it is, or, outside the vote, enters easy all. -/
theorem State.requestReset_others (s : State) (l : LaneId) (reason cause : Nat) (cold : Bool) :
    s.LanesAndRec (s.requestReset l reason cause cold) ∧ ∀ k, k ≠ l → (s.requestReset l reason cause cold).lane k = s.lane k ∨
      ((s.lane k).inVote = false ∧ (s.lane k).EasyOr ((s.requestReset l reason cause cold).lane k)) := by
  by_cases hout : (s.lane l).rst.held = true ∨ ((s.lane l).inVote && !(s.lane l).easy) = false
  · obtain ⟨hframe, hother, -⟩ := s.requestReset_nonvoter hout reason cause cold
    exact ⟨hframe, fun k hk => Or.inl (hother k hk)⟩
  · simp only [not_or, Bool.not_eq_true, Bool.and_eq_false_iff, Bool.not_eq_eq_eq_not, Bool.not_false] at hout
    obtain ⟨hl, hv, he⟩ := hout
    obtain ⟨hframe, hother, -⟩ := State.requestReset_voter hl (by simpa using he) (by simpa using hv) reason cause cold
    exact ⟨hframe, hother⟩

/-! ### The reset of the module (R489, R181) -/

theorem State.foldl_assertLane (s : State) (cold : Bool) (causes : List Nat) (l : LaneId) :
    (allLanes.foldl (fun (s : State) l => s.assertLane l cold causes) s).lane l = (s.lane l).assertReset cold causes s.now := by
  have hnow (u : State) (k : LaneId) : (u.assertLane k cold causes).now = u.now := by rw [u.assertLane_frame]
  show (((s.assertLane .a cold causes).assertLane .b cold causes).assertLane .c cold causes).lane l = _
  cases l
  · rw [State.assertLane_lane_ne _ (by decide), State.assertLane_lane_ne _ (by decide), State.assertLane_lane]
  · rw [State.assertLane_lane_ne _ (by decide), State.assertLane_lane, State.assertLane_lane_ne _ (by decide), hnow]
  · rw [State.assertLane_lane, State.assertLane_lane_ne _ (by decide), State.assertLane_lane_ne _ (by decide), hnow, hnow]

theorem State.foldl_assertLane_frame (cold : Bool) (causes : List Nat) (ls : List LaneId) (s : State) :
    s.LanesAndRec (ls.foldl (fun (s : State) l => s.assertLane l cold causes) s) := by
  induction ls generalizing s with
  | nil => exact .refl s
  | cons l ls ih => exact (s.lanesAndRec_setLane l _).trans (ih _)

/-- A module reset reaches every lane, the hub and the FIELD die, and nothing else. -/
theorem State.assertModule_spec (s : State) (cold : Bool) (causes : List Nat) :
    s.assertModule cold causes = { s with
        phase := (s.assertModule cold causes).phase, la := (s.assertModule cold causes).la, lb := (s.assertModule cold causes).lb,
        lc := (s.assertModule cold causes).lc, hub := (s.assertModule cold causes).hub, field := (s.assertModule cold causes).field,
        fieldRst := (s.assertModule cold causes).fieldRst } ∧
      (∀ l, (s.assertModule cold causes).lane l = (s.lane l).assertReset cold causes s.now) ∧
      (s.assertModule cold causes).fieldRst.held = true ∧ (s.assertModule cold causes).hub.rst.held = true ∧
      (s.assertModule cold causes).hub.rst.cold = s.hub.coldNow cold ∧
      ∀ cause, cause < 8 → cause ∈ causes → ((s.assertModule cold causes).hub.rg HRST_CAUSE).getLsbD cause = true := by
  unfold State.assertModule
  have hframe := State.foldl_assertLane_frame cold causes allLanes { s with phase := .sitReady }
  have hlanes := ({ s with phase := .sitReady } : State).foldl_assertLane cold causes
  generalize allLanes.foldl (fun (s : State) l => s.assertLane l cold causes) ({ s with phase := .sitReady } : State) = u at *
  obtain ⟨he, hlane, hheld, hcold, -, -, hcauses⟩ := u.assertHub_spec cold causes
  have hrst : u.hub.coldNow cold = s.hub.coldNow cold := by
    rw [Hub.coldNow, show u.hub.rst = s.hub.rst by rw [hframe.2.1]]
    rfl
  have hlane' (l : LaneId) : (u.assertHub cold causes).lane l = (s.lane l).assertReset cold causes s.now := by
    have hl : u.lane l = (s.lane l).assertReset cold causes s.now := hlanes l
    rw [← hl]
    exact (hlane l).2 (by rw [hl]; exact ((s.lane l).assertReset_rest cold causes s.now).1)
  generalize u.assertHub cold causes = v at *
  refine ⟨?_, fun l => ?_, rfl, hheld, hcold.trans hrst, hcauses⟩
  · rw [State.assertField, he, hframe.1]
  · rw [← hlane' l]
    cases l <;> rfl

end Sys2Proof.Machine
end
section
/-! PROOFS. The statement on the resets: which dies each one reaches, warm or cold, and the cause it leaves (R489 to R493). -/

namespace Sys2Proof.Machine

/-! ### Cause bits as fields -/

theorem Lane.on_eq_getLsbD (x : Lane) {f : Fld} (hw : f.w = 1) : x.on f = (x.rg f.addr).getLsbD f.lo := by
  unfold Lane.on Lane.fget bvField
  rw [hw]
  exact bitField_eq_testBit _ _

theorem Hub.on_eq_getLsbD (h : Hub) {f : Fld} (hw : f.w = 1) : h.on f = (h.rg f.addr).getLsbD f.lo := by
  unfold Hub.on Hub.fget bvField
  rw [hw]
  exact bitField_eq_testBit _ _

/-- A lane reset on a request is held, marked with the cause, and warm or cold as asked. -/
theorem Lane.ResetBy.spec {x y : Lane} {cause tm : Nat} {cold : Bool} (h : x.ResetBy y cause cold tm) (hc : cause < 8) :
    y.rst.held = true ∧ y.rst.cold = x.coldNow cold ∧ (y.rg RST_CAUSE).getLsbD cause = true := by
  obtain ⟨causes, z, rfl, hm, hrst, -⟩ := h
  obtain ⟨hheld, hcold, -⟩ := z.assertReset_rest cold causes tm
  refine ⟨hheld, hcold.trans ?_, z.assertReset_causes cold hc hm tm⟩
  rw [Lane.coldNow, Lane.coldNow, hrst]

theorem Lane.coldNow_of_running {x : Lane} (h : x.rst.held = false) (cold : Bool) : x.coldNow cold = cold := by
  rw [Lane.coldNow, h, Bool.false_and, Bool.or_false]

theorem Hub.coldNow_of_running {h : Hub} (hr : h.rst.held = false) (cold : Bool) : h.coldNow cold = cold := by
  rw [Hub.coldNow, hr, Bool.false_and, Bool.or_false]

/-! ### RESET_N (R490) -/

/-- A reason of the `FAULT` ball changes that register field, the interrupt and AON alone. -/
theorem State.faultPin_rest (s : State) (k : Nat) (v : Bool) :
    (∀ l, (s.faultPin k v).lane l = s.lane l) ∧ (s.faultPin k v).hub.rst = s.hub.rst ∧
      (∃ b, (s.faultPin k v).hub.reg = (s.hub.fset HCMD_STAT_FAULT b).reg) ∧ (s.faultPin k v).fieldRst = s.fieldRst ∧
      (s.faultPin k v).field = s.field ∧ (s.faultPin k v).flash0 = s.flash0 ∧ (s.faultPin k v).flash1 = s.flash1 ∧
      (s.faultPin k v).aon.resetNLow = s.aon.resetNLow := by
  unfold State.faultPin
  extract_lets w n h₀ host h
  have hreg : h.reg = s.hub.reg ∧ h.rst = s.hub.rst := by
    unfold h
    split <;> exact ⟨rfl, rfl⟩
  refine ⟨fun l => by cases l <;> rfl, hreg.2, ⟨b2n n, ?_⟩, rfl, rfl, rfl, rfl, rfl⟩
  show sparseSet hubRegDefault h.reg _ (bvSet (h.rg HCMD_STAT_FAULT.addr) _ _ _) = _
  rw [Hub.rg, hreg.1]
  rfl

theorem State.faultPin_rg (s : State) (k : Nat) (v : Bool) {a : Nat} (ha : a ≠ HCMD_STAT) : (s.faultPin k v).hub.rg a = s.hub.rg a := by
  obtain ⟨-, -, ⟨b, hreg⟩, -⟩ := s.faultPin_rest k v
  rw [Hub.rg, hreg]
  exact Hub.rg_fset_ne _ (f := HCMD_STAT_FAULT) b ha

/-- The pulled reset ball resets the whole module, warm. -/
theorem resetNAssert_resets (s : State) (tm : Nat) (h : s.aon.resetNLow = none) :
    ∃ t, exec (.resetNAssert tm) s = .next t ∧ t.aon.resetNLow = some tm ∧ t.hub.rst.held = true ∧ t.hub.on HRST_CAUSE_PIN = true ∧
      t.fieldRst.held = true ∧ t.flash0 = s.flash0 ∧ t.flash1 = s.flash1 ∧
      ∀ l, (t.lane l).rst.held = true ∧ (t.lane l).on RST_CAUSE_PIN = true ∧ (t.lane l).fld.dyn = 0 ∧
        ((s.lane l).rst.held = false → (t.lane l).sram = (s.lane l).sram) := by
  refine ⟨(s.at tm).resetNAssert tm, rfl, ?_⟩
  unfold State.resetNAssert
  rw [if_neg (by show ¬ (s.aon.resetNLow.isSome = true); rw [h]; decide)]
  obtain ⟨he, hlanes, hfield, hheld, -, hcauses⟩ := (s.at tm).assertModule_spec false [causePin]
  generalize (s.at tm).assertModule false [causePin] = u at *
  have hmod (v : State) (hl : ∀ l, v.lane l = u.lane l) (hr : v.hub.rst = u.hub.rst) (hc : v.hub.rg HRST_CAUSE = u.hub.rg HRST_CAUSE)
      (hf : v.fieldRst = u.fieldRst) (h0 : v.flash0 = u.flash0) (h1 : v.flash1 = u.flash1) (ha : v.aon.resetNLow = some tm) :
      v.aon.resetNLow = some tm ∧ v.hub.rst.held = true ∧ v.hub.on HRST_CAUSE_PIN = true ∧
      v.fieldRst.held = true ∧ v.flash0 = s.flash0 ∧ v.flash1 = s.flash1 ∧
      ∀ l, (v.lane l).rst.held = true ∧ (v.lane l).on RST_CAUSE_PIN = true ∧ (v.lane l).fld.dyn = 0 ∧
        ((s.lane l).rst.held = false → (v.lane l).sram = (s.lane l).sram) := by
    refine ⟨ha, by rw [hr]; exact hheld, ?_, by rw [hf]; exact hfield, by rw [h0, he]; rfl, by rw [h1, he]; rfl, fun l => ?_⟩
    · rw [Hub.on_eq_getLsbD _ rfl, show HRST_CAUSE_PIN.addr = HRST_CAUSE from rfl, hc]
      exact hcauses causePin (by decide) (List.mem_singleton_self _)
    · obtain ⟨rheld, -, -, rdyn, rwarm, -⟩ := (s.lane l).assertReset_rest false [causePin] (s.at tm).now
      rw [hl l, hlanes l, State.at_lane]
      refine ⟨rheld, ?_, rdyn, fun hrun => rwarm (Lane.coldNow_of_running hrun false)⟩
      rw [Lane.on_eq_getLsbD _ rfl]
      exact (s.lane l).assertReset_cause false (cause := 2) (by decide) _
  dsimp only
  split
  · generalize hw : ({ u with aon := { (s.at tm).aon with resetNLow := some tm, pwr := .run } } : State) = w
    have hwl (l : LaneId) : w.lane l = u.lane l := by rw [← hw]; cases l <;> rfl
    obtain ⟨hl, hr, -, hf, -, h0, h1, ha⟩ := w.faultPin_rest 3 false
    refine hmod _ (fun l => (hl l).trans (hwl l)) (hr.trans (by rw [← hw])) ((w.faultPin_rg 3 false (by decide)).trans (by rw [← hw])) (hf.trans (by rw [← hw]))
      (h0.trans (by rw [← hw])) (h1.trans (by rw [← hw])) (ha.trans (by rw [← hw]))
  · exact hmod _ (fun l => by cases l <;> rfl) rfl rfl rfl rfl rfl rfl

/-- The released ball makes the reset cold when it was low for 100 ms. -/
theorem resetNRelease_colds (s : State) (t0 tm : Nat) (h : s.aon.resetNLow = some t0) :
    ∃ t, exec (.resetNRelease tm) s = .next t ∧ t.aon = { s.aon with resetNLow := none } ∧
      (tm < t0 + 100000000 → ∀ l, t.lane l = s.lane l) ∧
      (t0 + 100000000 ≤ tm → t.hub.rst.cold = true ∧ ∀ l, (t.lane l).rst.cold = true ∧ (t.lane l).rst.held = true ∧ (t.lane l).sram = [] ∧
        (t.lane l).rst.trimOk = false) := by
  refine ⟨(s.at tm).resetNRelease tm, rfl, ?_⟩
  unfold State.resetNRelease
  simp only [show (s.at tm).aon.resetNLow = some t0 from h]
  generalize hu : ({ s.at tm with aon := { (s.at tm).aon with resetNLow := none } } : State) = u
  have hul (l : LaneId) : u.lane l = s.lane l := by rw [← hu]; cases l <;> rfl
  have hua : u.aon = { s.aon with resetNLow := none } := by rw [← hu]; rfl
  by_cases ht : t0 + 100000000 ≤ tm
  · rw [if_pos ht]
    obtain ⟨he, hlanes, -, -, hcold, -⟩ := u.assertModule_spec true [causePin]
    refine ⟨by rw [he]; exact hua, fun hlt => absurd hlt (by omega), fun _ => ⟨hcold, fun l => ?_⟩⟩
    obtain ⟨rheld, rcold, rtrim, -, -, rsram⟩ := (u.lane l).assertReset_rest true [causePin] u.now
    rw [hlanes l]
    exact ⟨rcold, rheld, rsram rfl, rtrim.trans (Bool.and_false _)⟩
  · rw [if_neg ht]
    exact ⟨hua, fun _ => hul, fun hle => absurd hle ht⟩

/-! ### POWER_ON_RESET and BROWN_OUT (R490, R497) -/

theorem lanePowersOn (s : State) (l : LaneId) (tm : Nat) :
    ∃ t, exec (.powerOnReset (.lane l) false tm) s = .next t ∧ (∀ k, k ≠ l → t.lane k = s.lane k) ∧ (t.lane l).rst.held = true ∧
      (t.lane l).reg = [(RST_CAUSE, 1#32)] ∧ (t.lane l).sram = [] ∧ (t.lane l).rst.trimFail = false := by
  refine ⟨_, rfl, fun k hk => ?_, ?_⟩
  · exact (State.modHub_lane _ _ k).trans (State.lane_modLane_ne _ _ hk)
  · rw [show (((s.at tm).powerOn (.lane l) false tm).lane l) = (s.lane l).powerReset tm from
      (State.modHub_lane _ _ l).trans ((State.lane_modLane _ l _).trans (congrArg (·.powerReset tm) (s.at_lane tm l)))]
    exact ⟨rfl, rfl, rfl, rfl⟩

/-- The hub after its own power-on, before the `FAULT` ball is told. -/
def Hub.poweredOn (h : Hub) (tm : Nat) : Hub :=
  { (((h.setRg HRST_CAUSE 1).setRg HRSTC_STAT 0).fset RSTC_TRIM_TRIMFAIL
      (setField (h.fget RSTC_TRIM_TRIMFAIL) 4 1 0)).fset HCMD_STAT_EPOCH 0 with
    rst := { rstReset with t := tm } }

theorem State.powerOn_hub (s : State) (tm : Nat) :
    s.powerOn .hub false tm = ((s.assertHub true []).modHub (·.poweredOn tm)).faultPin 1 false := rfl

theorem Hub.poweredOn_spec (h : Hub) (tm : Nat) : (h.poweredOn tm).rst.held = true ∧ (h.poweredOn tm).rg HRST_CAUSE = 1#32 ∧
    (h.poweredOn tm).fget HCMD_STAT_EPOCH = 0 := by
  refine ⟨rfl, ?_, Hub.fget_fset_same _ HCMD_STAT_EPOCH 0 (by decide)⟩
  refine (Hub.rg_fset_ne _ (f := HCMD_STAT_EPOCH) _ (by decide)).trans ((Hub.rg_fset_ne _ (f := RSTC_TRIM_TRIMFAIL) _ (by decide)).trans ?_)
  rw [Hub.rg_setRg_ne _ _ (by decide), Hub.rg_setRg_same]
  rfl

theorem hubPowersOn (s : State) (tm : Nat) :
    ∃ t, exec (.powerOnReset .hub false tm) s = .next t ∧ t.hub.rst.held = true ∧ t.hub.rg HRST_CAUSE = 1#32 ∧
      t.hub.fget HCMD_STAT_EPOCH = 0 ∧ t.flash0 = s.flash0 ∧ t.flash1 = s.flash1 := by
  refine ⟨(s.at tm).powerOn .hub false tm, rfl, ?_⟩
  obtain ⟨he, -⟩ := (s.at tm).assertHub_spec true []
  have hf0 : ((s.at tm).assertHub true []).flash0 = s.flash0 := by rw [he]; rfl
  have hf1 : ((s.at tm).assertHub true []).flash1 = s.flash1 := by rw [he]; rfl
  generalize hu : ((s.at tm).assertHub true []).modHub (·.poweredOn tm) = u
  have hhub : u.hub = ((s.at tm).assertHub true []).hub.poweredOn tm := by rw [← hu, State.modHub_hub]
  obtain ⟨hheld, hcause, hepoch⟩ := ((s.at tm).assertHub true []).hub.poweredOn_spec tm
  obtain ⟨-, hr, ⟨b, hreg⟩, -, -, h0, h1, -⟩ := u.faultPin_rest 1 false
  rw [State.powerOn_hub, hu]
  refine ⟨by rw [hr, hhub]; exact hheld, ?_, ?_, by rw [h0, ← hu]; exact hf0, by rw [h1, ← hu]; exact hf1⟩
  · rw [u.faultPin_rg 1 false (by decide), hhub, hcause]
  · rw [Hub.fget_of_reg_eq hreg, Hub.fget_fset_bits _ _ (by rfl) (by decide) (by decide), hhub, hepoch]

theorem moduleAonPowersOn (s : State) (d : Die) (tm : Nat) :
    ∃ t, exec (.powerOnReset d true tm) s = .next t ∧ t.hub.rg HRST_CAUSE = 0x1001#32 ∧ t.hub.sram = [] ∧ t.fuses = s.fuses ∧
      t.flash0 = s.flash0 ∧ t.flash1 = s.flash1 ∧ (∀ l, t.lane l = laneReset l) ∧ t.pending = s.pending ∧ t.now = max s.now tm := by
  refine ⟨(s.at tm).aonPowerOn tm, rfl, rfl, rfl, rfl, rfl, rfl, fun l => ?_, rfl, rfl⟩
  cases l <;> rfl

/-- What a brown-out leaves. -/
theorem railsBrownOut (s : State) (rail tm : Nat) :
    (∀ l, ∃ t, exec (.brownOut (.lane l) rail tm) s = .next t ∧ (∀ k, k ≠ l → t.lane k = s.lane k) ∧ t.hub = s.hub ∧
      (t.lane l).rst.held = true ∧ (t.lane l).rst.cold = true ∧ (t.lane l).on RST_CAUSE_BOR = true ∧
      (t.lane l).fget RST_CAUSE_BORRAIL = rail % 8 ∧ (t.lane l).sram = [] ∧ (t.lane l).fld.dyn = 0) ∧
    (∃ t, exec (.brownOut .hub rail tm) s = .next t ∧ t.hub.rst.held = true ∧ t.hub.rst.cold = true ∧ t.hub.on HRST_CAUSE_BOR = true ∧
      t.hub.fget HRST_CAUSE_BORRAIL = rail % 8) ∧
    (∃ t, exec (.brownOut .field rail tm) s = .next t ∧ t.field.powered = false ∧ t.fieldRst.held = true ∧ t.hub = s.hub ∧
      ∀ l, t.lane l = s.lane l) := by
  refine ⟨fun l => ?_, ?_, ?_⟩
  · refine ⟨((s.at tm).assertLane l true [causeBor]).modLane l (·.fset RST_CAUSE_BORRAIL rail), rfl, fun k hk => ?_, ?_, ?_⟩
    · rw [State.lane_modLane_ne _ _ hk, State.assertLane_lane_ne _ hk, State.at_lane]
    · rw [State.modLane_hub, State.assertLane, State.modLane_hub]
      rfl
    · obtain ⟨rheld, rcold, -, rdyn, -, rsram⟩ := (s.lane l).assertReset_rest true [causeBor] (s.at tm).now
      have rcause := (s.lane l).assertReset_cause true (cause := causeBor) (by decide) (s.at tm).now
      rw [State.lane_modLane, State.assertLane_lane, State.at_lane]
      generalize (s.lane l).assertReset true [causeBor] (s.at tm).now = x at *
      refine ⟨rheld, rcold, ?_, Lane.fget_fset_same _ _ _ (by decide), rsram rfl, rdyn⟩
      rw [Lane.on, Lane.fget_fset_bits _ _ (by rfl) (by decide) (by decide)]
      exact (Lane.on_eq_getLsbD x (f := RST_CAUSE_BOR) rfl).trans rcause
  · obtain ⟨-, -, hheld, hcold, -, -, hcauses⟩ := (s.at tm).assertHub_spec true [causeBor]
    refine ⟨((s.at tm).assertHub true [causeBor]).modHub (·.fset HRST_CAUSE_BORRAIL rail), rfl, ?_⟩
    generalize (s.at tm).assertHub true [causeBor] = u at *
    rw [State.modHub_hub]
    refine ⟨hheld, hcold, ?_, Hub.fget_fset_same _ _ _ (by decide)⟩
    rw [Hub.on, Hub.fget_fset_bits _ _ (by rfl) (by decide) (by decide)]
    exact (Hub.on_eq_getLsbD u.hub (f := HRST_CAUSE_BOR) rfl).trans (hcauses causeBor (by decide) (List.mem_singleton_self _))
  · refine ⟨_, rfl, rfl, rfl, rfl, fun l => ?_⟩
    cases l <;> rfl

/-! ### RSTC_SWR, and the resets a debugger, the watchdog and a lock-up ask for (R490, R492) -/

/-- While another lane votes no lane but the one asked for changes. -/
theorem State.requestReset_alone {s : State} {l : LaneId} (hv : ∃ y, y ≠ l ∧ (s.lane y).inVote = true) (reason cause : Nat) (cold : Bool)
    (k : LaneId) (hk : k ≠ l) : (s.requestReset l reason cause cold).lane k = s.lane k := by
  obtain ⟨y, hy, hyv⟩ := hv
  by_cases hout : (s.lane l).rst.held = true ∨ ((s.lane l).inVote && !(s.lane l).easy) = false
  · exact (s.requestReset_nonvoter hout reason cause cold).2.1 k hk
  · simp only [not_or, Bool.not_eq_true, Bool.and_eq_false_iff, Bool.not_eq_eq_eq_not, Bool.not_false] at hout
    obtain ⟨hl, hlv, he⟩ := hout
    exact (State.requestReset_of_voter hl (by simpa using he) (by simpa using hlv) hy hyv reason cause cold).1.1 k hk

theorem laneResetsItself (s : State) (l : LaneId) (v : Word) (tm : Nat) (h : (s.lane l).rst.held = false) :
    ∃ t, exec (.rstcSwr (.lane l) v tm) s = .next t ∧ ((∃ y, y ≠ l ∧ (s.lane y).inVote = true) → ∀ k, k ≠ l → t.lane k = s.lane k) ∧
      ((bvField v 16 16 ≠ 0xA55A ∨ v.getLsbD 0 = false) → t = s.at tm) ∧
      (bvField v 16 16 = 0xA55A → v.getLsbD 0 = true →
        ((s.lane l).inVote = false → (t.lane l).rst.held = true ∧ (t.lane l).rst.cold = v.getLsbD 1 ∧ (t.lane l).on RST_CAUSE_SWR = true) ∧
        ((s.lane l).inVote = true → (s.lane l).easy = false → (t.lane l).rst.held = false ∧ (t.lane l).inVote = false ∧
          (t.lane l).fget VOTE_LEAVE_REASON = 0xC ∧ (t.lane l).rst.due = some (v.getLsbD 1, 4, max s.now tm + 10000))) := by
  refine ⟨(s.at tm).swr (.lane l) v, rfl, ?_⟩
  by_cases hkey : bvField v 16 16 ≠ 0xA55A ∨ v.getLsbD 0 = false
  · rw [show (s.at tm).swr (.lane l) v = s.at tm from if_pos hkey]
    refine ⟨fun _ k _ => s.at_lane tm k, fun _ => rfl, fun h1 h2 => ?_⟩
    rcases hkey with hk | hk
    · exact absurd h1 hk
    · exact absurd (h2.symm.trans hk) (by decide)
  · have hl : ((s.at tm).lane l).rst.held = false := by rw [State.at_lane]; exact h
    have heq : (s.at tm).swr (.lane l) v = (s.at tm).requestReset l leaveFirmware causeSwr (v.getLsbD 1) := by
      exact (if_neg hkey).trans (if_neg (by rw [hl]; decide))
    rw [heq]
    refine ⟨fun hv k hk => ?_, fun hn => absurd hn hkey, fun _ _ => ⟨fun hv => ?_, fun hv he => ?_⟩⟩
    · rw [State.requestReset_alone (by simpa only [State.at_lane] using hv) _ _ _ k hk, State.at_lane]
    · have hby := ((s.at tm).requestReset_nonvoter (l := l) (Or.inr (by rw [State.at_lane, hv]; rfl)) leaveFirmware causeSwr (v.getLsbD 1)).2.2
      obtain ⟨rheld, rcold, rcause⟩ := hby.spec (by decide)
      exact ⟨rheld, rcold.trans (Lane.coldNow_of_running hl _), (Lane.on_eq_getLsbD _ (f := RST_CAUSE_SWR) rfl).trans rcause⟩
    · obtain ⟨hout, -, hreason, hrst⟩ := (State.requestReset_voter hl (by rw [State.at_lane]; exact he) (by rw [State.at_lane]; exact hv)
        leaveFirmware causeSwr (v.getLsbD 1)).2.2
      rw [hrst]
      exact ⟨hl, hout, hreason, rfl⟩

theorem debuggerResetsLane (s : State) (l : LaneId) (h : (s.lane l).rst.held = false) :
    ∃ t, exec (.debugResetRequest (.lane l)) s = .next t ∧ ((∃ y, y ≠ l ∧ (s.lane y).inVote = true) → ∀ k, k ≠ l → t.lane k = s.lane k) ∧
      ((s.lane l).inVote = false → (s.lane l).easy = false → (t.lane l).rst.held = true ∧ (t.lane l).on RST_CAUSE_DBG = true) ∧
      ((s.lane l).inVote = true → (s.lane l).easy = false → (t.lane l).fget VOTE_LEAVE_REASON = 0xB ∧
        (t.lane l).rst.due = some (false, 5, s.now + 10000)) := by
  refine ⟨s.requestReset l leaveDebug causeDbg false, rfl, fun hv k hk => State.requestReset_alone hv _ _ _ k hk, fun hv _ => ?_, fun hv he => ?_⟩
  · obtain ⟨rheld, -, rcause⟩ := (s.requestReset_nonvoter (Or.inr (by rw [hv]; rfl)) leaveDebug causeDbg false).2.2.spec (by decide)
    exact ⟨rheld, (Lane.on_eq_getLsbD _ (f := RST_CAUSE_DBG) rfl).trans rcause⟩
  · obtain ⟨-, -, hreason, hrst⟩ := (State.requestReset_voter h he hv leaveDebug causeDbg false).2.2
    rw [hrst]
    exact ⟨hreason, rfl⟩

/-- A warm reset of a running hub alone: held, its cause told, its SRAM and everything outside the hub and the lanes kept. -/
theorem State.assertHub_warm {s : State} (h : s.hub.rst.held = false) {cause : Nat} (hc : cause < 8) {f : Fld} (hf : f = ⟨HRST_CAUSE, cause, 1⟩) :
    (s.assertHub false [cause]).hub.rst.held = true ∧ (s.assertHub false [cause]).hub.rst.cold = false ∧
      (s.assertHub false [cause]).hub.on f = true ∧ (s.assertHub false [cause]).hub.sram = s.hub.sram ∧
      (s.assertHub false [cause]).field = s.field ∧ (s.assertHub false [cause]).flash0 = s.flash0 ∧
      (s.assertHub false [cause]).flash1 = s.flash1 ∧ (s.assertHub false [cause]).aon = s.aon := by
  obtain ⟨he, -, hheld, hcold, -, hsram, hcauses⟩ := s.assertHub_spec false [cause]
  have hnow := Hub.coldNow_of_running h false
  subst hf
  refine ⟨hheld, hcold.trans hnow, ?_, hsram hnow, ?_⟩
  · exact (Hub.on_eq_getLsbD _ rfl).trans (hcauses cause hc (List.mem_singleton_self _))
  · generalize s.assertHub false [cause] = u at he
    rw [he]
    exact ⟨rfl, rfl, rfl, rfl⟩

/-- Settles O58: each reset through the one lemma about the reset of a lane, of the hub and of the module. -/
theorem resetsReachTheirDiesAndMarkTheirCause : Obligations.ResetsReachTheirDiesAndMarkTheirCause :=
  ⟨resetNAssert_resets, resetNRelease_colds, lanePowersOn, hubPowersOn, moduleAonPowersOn, railsBrownOut, laneResetsItself, debuggerResetsLane,
    fun s h => ⟨⟨s.assertHub false [causeDbg], rfl, State.assertHub_warm h (by decide) rfl⟩,
      ⟨s.assertHub false [causeWdt], rfl, State.assertHub_warm h (by decide) rfl⟩,
      ⟨s.assertHub false [causeLockup], rfl, State.assertHub_warm h (by decide) rfl⟩⟩⟩

end Sys2Proof.Machine
end
section
/-! PROOFS. The statement on the recorder and the check units (R436 to R447). -/

namespace Sys2Proof.Machine

/-! ### Records (R436 to R440) -/

theorem Hub.putSram_spec (h : Hub) (a : Nat) (bs : List Byte) :
    h.putSram a bs = { h with reg := (h.putSram a bs).reg, sram := (h.putSram a bs).sram } ∧ h.RegsKept (h.putSram a bs) [HSRAM_STAT] := by
  unfold Hub.putSram
  split
  · exact ⟨rfl, h.regsKept_fset _ (List.mem_singleton_self _)⟩
  · exact ⟨rfl, fun _ _ => rfl⟩

theorem Hub.putSram_of_thawed {h : Hub} (hf : h.on HSRAM_STAT_FROZEN = false) (a : Nat) (bs : List Byte) :
    h.putSram a bs = { h with sram := memPutBytes h.sram a bs } := by
  unfold Hub.putSram
  rw [if_neg (by rw [hf, Bool.false_and]; decide)]

/-- What the recorder keeps of itself when a record of sequence `next` is added: chunks and pages follow R440. -/
def RecInt.added (r : RecInt) (newest : Option (RecSub × Nat × Nat)) : RecInt :=
  let r' : RecInt :=
    if r.fresh then { r with fresh := false, first := r.next }
    else if r.next % 128 = 0 then
      { r with unflushed := r.unflushed ++ [(r.page, r.first, (r.next + 2 ^ 32 - 1) % 2 ^ 32)], page := r.page + 1, first := r.next }
    else r
  { r' with next := (r.next + 1) % 2 ^ 32, newest := newest }

theorem Hub.newRecord_eq (h : Hub) (x : RecSub) (gap : Bool) : h.newRecord x gap =
    (((({ h with rcd := h.rcd.added (if gap then none else some (x, 1, 0)) } : Hub).putSram (recAddr h.rcd.next)
      (recBytes x gap h.rcd.next 1 0)).setRg REC_HEAD (BitVec.ofNat 32 h.rcd.next)).showThrottle) := rfl

theorem RecInt.added_rest (r : RecInt) (n : Option (RecSub × Nat × Nat)) :
    (r.added n).next = (r.next + 1) % 2 ^ 32 ∧ (r.added n).newest = n ∧ (r.added n).queue = r.queue ∧ (r.added n).lost = r.lost := by
  unfold RecInt.added
  refine ⟨rfl, rfl, ?_, ?_⟩ <;> dsimp only <;> split
  · rfl
  · split <;> rfl
  · rfl
  · split <;> rfl

/-- What a new record changes: the ring in SRAM, the recorder, and the registers that show it. -/
theorem Hub.newRecord_spec (h : Hub) (x : RecSub) (gap : Bool) :
    h.newRecord x gap = { h with reg := (h.newRecord x gap).reg, sram := (h.newRecord x gap).sram,
                                 rcd := h.rcd.added (if gap then none else some (x, 1, 0)) } ∧
      h.RegsKept (h.newRecord x gap) [REC_HEAD, REC_STAT, HSRAM_STAT] ∧
      (h.newRecord x gap).rg REC_HEAD = BitVec.ofNat 32 h.rcd.next ∧
      (h.on HSRAM_STAT_FROZEN = false → h.RegsKept (h.newRecord x gap) [REC_HEAD, REC_STAT] ∧
        (h.newRecord x gap).sram = memPutBytes h.sram (recAddr h.rcd.next) (recBytes x gap h.rcd.next 1 0)) := by
  rw [h.newRecord_eq x gap]
  generalize hz : ({ h with rcd := h.rcd.added (if gap then none else some (x, 1, 0)) } : Hub) = z
  have hreg : z.reg = h.reg := by rw [← hz]
  have hkept : h.RegsKept z [] := Hub.regsKept_of_reg_eq hreg _
  obtain ⟨hput, hputKept⟩ := z.putSram_spec (recAddr h.rcd.next) (recBytes x gap h.rcd.next 1 0)
  have hshow (y : Hub) : (y.setRg REC_HEAD (BitVec.ofNat 32 h.rcd.next)).showThrottle =
      { y with reg := ((y.setRg REC_HEAD (BitVec.ofNat 32 h.rcd.next)).showThrottle).reg } := rfl
  have hshown (y : Hub) : y.RegsKept (y.setRg REC_HEAD (BitVec.ofNat 32 h.rcd.next)).showThrottle [REC_HEAD, REC_STAT] :=
    Hub.RegsKept.trans (y.regsKept_setRg _ (by simp)) (Hub.regsKept_fset _ (f := REC_STAT_THROTTLE) (as := [REC_HEAD, REC_STAT]) _ (by decide))
  refine ⟨?_, fun a ha => ?_, ?_, fun hf => ⟨fun a ha => ?_, ?_⟩⟩
  · rw [hshow, hput, ← hz]
  · simp only [List.mem_cons, List.not_mem_nil, or_false, not_or] at ha
    rw [hshown _ a (by simp [ha.1, ha.2.1]), hputKept a (by simp [ha.2.2]), hkept a (by simp)]
  · refine (Hub.rg_fset_ne _ (f := REC_STAT_THROTTLE) _ (by decide)).trans (Hub.rg_setRg_same _ _ _)
  · rw [hshown _ a ha, Hub.putSram_of_thawed (by rw [Hub.on, Hub.fget_of_reg_eq hreg]; exact hf)]
    exact hkept a (by simp)
  · rw [hshow, Hub.putSram_of_thawed (by rw [Hub.on, Hub.fget_of_reg_eq hreg]; exact hf), ← hz]

theorem recBytes_length (x : RecSub) (gap : Bool) (seq rep ver : Nat) : (recBytes x gap seq rep ver).length = 32 := by
  have hpad : (padTo 8 x.data).length = 8 := by
    unfold padTo zeros
    rw [List.length_append, List.length_take, List.length_replicate]
    omega
  simp only [recBytes, List.length_append, beBytes_length, hpad]

/-! ### RECORD_SUBMISSION and GAP_DROPPED (R437, R438) -/

theorem Hub.recordNext_running {h : Hub} {x : RecSub} {q : List RecSub} (hr : h.records = true) (ht : h.on REC_STAT_THROTTLE = false)
    (hq : h.rcd.queue = x :: q) : h.recordNext = ({ h with rcd := { h.rcd with queue := q } } : Hub).takeRecord x := by
  unfold Hub.recordNext
  rw [if_neg (by rw [hr, ht]; decide)]
  simp only [hq]

theorem submissionsAreRecorded (s : State) (x : RecSub) (q : List RecSub) (hup : s.hub.rst.held = false) (hr : s.hub.records = true)
    (ht : s.hub.on REC_STAT_THROTTLE = false) (hq : s.hub.rcd.queue = x :: q) (hf : s.hub.on HSRAM_STAT_FROZEN = false) :
     (∀ (y : RecSub) (rep ver : Nat), s.hub.rcd.newest = some (y, rep, ver) → y.source = x.source → y.code = x.code → y.data = x.data → rep < 65535 →
       ∃ t, exec (.recordSubmission) s = .next t ∧ s.OnlyHub t ∧ t.hub.reg = s.hub.reg ∧
         t.hub.rcd = { s.hub.rcd with queue := q, newest := some (y, rep + 1, (ver + 1) % 256) }) ∧
     (s.hub.rcd.newest = none → s.hub.rcd.next < 2 ^ 32 →
       ∃ t, exec (.recordSubmission) s = .next t ∧ s.OnlyHub t ∧ s.hub.RegsKept t.hub [REC_HEAD, REC_STAT] ∧
         (t.hub.rg REC_HEAD).toNat = s.hub.rcd.next ∧ t.hub.rcd.next = (s.hub.rcd.next + 1) % 2 ^ 32 ∧ t.hub.rcd.queue = q ∧
         t.hub.rcd.newest = some (x, 1, 0) ∧ memBytes t.hub.sram (recAddr s.hub.rcd.next) 32 = recBytes x false s.hub.rcd.next 1 0) := by
  have hrun : exec (.recordSubmission) s = .next (s.modHub (·.recordNext)) := done_of_eq (State.upHub_of_up hup _)
  have heq := Hub.recordNext_running hr ht hq
  constructor
  · intro y rep ver hn hs hc hd hrep
    refine ⟨_, hrun, rfl, ?_⟩
    rw [State.modHub_hub, heq]
    have hmerge : ({ s.hub with rcd := { s.hub.rcd with queue := q } } : Hub).takeRecord x =
        ({ s.hub with rcd := { s.hub.rcd with queue := q, newest := some (y, rep + 1, (ver + 1) % 256) } } : Hub).putSram
          (recAddr ((s.hub.rcd.next + 2 ^ 32 - 1) % 2 ^ 32) + 24)
          ((recBytes y false ((s.hub.rcd.next + 2 ^ 32 - 1) % 2 ^ 32) (rep + 1) ((ver + 1) % 256)).drop 24) := by
      unfold Hub.takeRecord
      simp only [hn]
      rw [if_pos ⟨hs, hc, hd, hrep⟩]
    rw [hmerge]
    generalize hz : ({ s.hub with rcd := { s.hub.rcd with queue := q, newest := some (y, rep + 1, (ver + 1) % 256) } } : Hub) = z
    have hreg : z.reg = s.hub.reg := by rw [← hz]
    rw [Hub.putSram_of_thawed (by rw [Hub.on, Hub.fget_of_reg_eq hreg]; exact hf), ← hz]
    exact ⟨rfl, rfl⟩
  · intro hn hlt
    refine ⟨_, hrun, rfl, ?_⟩
    rw [State.modHub_hub, heq]
    have hnew : ({ s.hub with rcd := { s.hub.rcd with queue := q } } : Hub).takeRecord x =
        ({ s.hub with rcd := { s.hub.rcd with queue := q } } : Hub).newRecord x false := by
      unfold Hub.takeRecord
      simp only [hn]
    rw [hnew]
    generalize hz : ({ s.hub with rcd := { s.hub.rcd with queue := q } } : Hub) = z
    have hreg : z.reg = s.hub.reg := by rw [← hz]
    have hrcd : z.rcd = { s.hub.rcd with queue := q } := by rw [← hz]
    obtain ⟨hframe, -, hhead, hthawed⟩ := z.newRecord_spec x false
    obtain ⟨hkept, hsram⟩ := hthawed (by rw [Hub.on, Hub.fget_of_reg_eq hreg]; exact hf)
    obtain ⟨anext, anewest, aqueue, -⟩ := z.rcd.added_rest (some (x, 1, 0))
    have hadd : (z.newRecord x false).rcd = z.rcd.added (some (x, 1, 0)) := by rw [hframe]; rfl
    have hnext : z.rcd.next = s.hub.rcd.next := by rw [hrcd]
    refine ⟨fun a ha => ?_, ?_, ?_, ?_, ?_, ?_⟩
    · rw [hkept a ha, Hub.rg, Hub.rg, hreg]
    · rw [hhead, hnext, BitVec.toNat_ofNat, Nat.mod_eq_of_lt hlt]
    · rw [hadd, anext, hnext]
    · rw [hadd, aqueue, hrcd]
    · rw [hadd, anewest]
    · rw [hsram, hnext]
      have := memBytes_putBytes z.sram (recAddr s.hub.rcd.next) (recBytes x false s.hub.rcd.next 1 0)
      rwa [recBytes_length] at this

theorem gapsAreRecorded (s : State) (tm : Nat) (hup : s.hub.rst.held = false) (hr : s.hub.records = true)
    (ht : s.hub.on REC_STAT_THROTTLE = false) (hl : s.hub.rcd.lost ≠ 0) (hq : s.hub.rcd.queue.length < 64) (hlt : s.hub.rcd.next < 2 ^ 32) :
     ∃ t, exec (.gapDropped tm) s = .next t ∧ s.OnlyHub t ∧ s.hub.RegsKept t.hub [REC_HEAD, REC_STAT, HSRAM_STAT] ∧ t.hub.rcd.lost = 0 ∧
       t.hub.rcd.newest = none ∧ t.hub.rcd.queue = s.hub.rcd.queue ∧ (t.hub.rg REC_HEAD).toNat = s.hub.rcd.next := by
  refine ⟨(s.at tm).modHub (·.gapDropped tm), done_of_eq (State.upHub_of_up (s := s.at tm) hup _), rfl, ?_⟩
  have heq : s.hub.gapDropped tm = { s.hub.newRecord (recOwn 1 tm (beBytes 8 s.hub.rcd.lost)) true with
      rcd := { (s.hub.newRecord (recOwn 1 tm (beBytes 8 s.hub.rcd.lost)) true).rcd with lost := 0 } } := by
    unfold Hub.gapDropped
    rw [if_neg (by simp [hr, ht, hl, hq])]
  rw [State.modHub_hub, State.at_hub, heq]
  obtain ⟨hframe, hkept, hhead, -⟩ := s.hub.newRecord_spec (recOwn 1 tm (beBytes 8 s.hub.rcd.lost)) true
  obtain ⟨-, anewest, aqueue, -⟩ := s.hub.rcd.added_rest none
  have hadd : (s.hub.newRecord (recOwn 1 tm (beBytes 8 s.hub.rcd.lost)) true).rcd = s.hub.rcd.added none := by rw [hframe]; rfl
  generalize s.hub.newRecord (recOwn 1 tm (beBytes 8 s.hub.rcd.lost)) true = z at *
  refine ⟨hkept, rfl, ?_, ?_, ?_⟩
  · show z.rcd.newest = none
    rw [hadd, anewest]
  · show z.rcd.queue = _
    rw [hadd, aqueue]
  · show (z.rg REC_HEAD).toNat = _
    rw [hhead, BitVec.toNat_ofNat, Nat.mod_eq_of_lt hlt]

/-! ### REC_CHUNK_WRITTEN (R440, R441) -/

theorem flashBytes_putBytes (m : List Host.Cell) (a : Nat) (bs : List Byte) : flashBytes (flashPutBytes m a bs) a bs.length = bs := by
  unfold flashBytes upTo
  refine List.ext_getElem (by simp) fun i _ h => ?_
  rw [List.getElem_map, List.getElem_range]
  exact flashByte_putBytes_at m a i bs h

theorem flashBytes_putBytes_apart (m : List Host.Cell) {a b n : Nat} (bs : List Byte) (h : b + n ≤ a ∨ a + bs.length ≤ b) :
    flashBytes (flashPutBytes m a bs) b n = flashBytes m b n := by
  unfold flashBytes upTo
  refine List.map_congr_left fun i hi => ?_
  have := List.mem_range.mp hi
  exact flashByte_putBytes_outside m bs (by omega)

theorem memBytes_length (m : List Host.Cell) (a n : Nat) : (memBytes m a n).length = n := by
  simp [memBytes, upTo]

/-- The flash with the records of the sequences `qs` in page `p`, as the ring holds them. -/
def chunkPut (sram : List Host.Cell) (p : Nat) (m : List Host.Cell) (qs : List Nat) : List Host.Cell :=
  qs.foldl (fun (m : List Host.Cell) q => flashPutBytes m (recFlash p q) (memBytes sram (recAddr q) 32)) m

/-- A record of another place in the page is not touched. -/
theorem flashBytes_chunkPut_apart (sram : List Host.Cell) (p q : Nat) (qs : List Nat) (m : List Host.Cell) (h : ∀ r ∈ qs, r % 128 ≠ q % 128) :
    flashBytes (chunkPut sram p m qs) (recFlash p q) 32 = flashBytes m (recFlash p q) 32 := by
  induction qs generalizing m with
  | nil => rfl
  | cons r qs ih =>
    have hr := h r List.mem_cons_self
    refine (ih _ fun x hx => h x (List.mem_cons_of_mem _ hx)).trans (flashBytes_putBytes_apart _ _ ?_)
    rw [memBytes_length]
    unfold recFlash
    omega

/-- Sequences of different places all stand as in the ring. -/
theorem flashBytes_chunkPut (sram : List Host.Cell) (p : Nat) (qs : List Nat) (m : List Host.Cell) (h : (qs.map (· % 128)).Nodup) {q : Nat}
    (hq : q ∈ qs) : flashBytes (chunkPut sram p m qs) (recFlash p q) 32 = memBytes sram (recAddr q) 32 := by
  induction qs generalizing m with
  | nil => exact absurd hq List.not_mem_nil
  | cons r qs ih =>
    obtain ⟨hr, hqs⟩ := List.nodup_cons.mp (by simpa using h : (r % 128 :: qs.map (· % 128)).Nodup)
    rcases List.mem_cons.mp hq with rfl | hq
    · refine (flashBytes_chunkPut_apart sram p q qs _ fun x hx e => hr (List.mem_map.mpr ⟨x, hx, e⟩)).trans ?_
      have := flashBytes_putBytes m (recFlash p q) (memBytes sram (recAddr q) 32)
      rwa [memBytes_length] at this
    · exact ih _ hqs hq

/-- The records of a chunk have places of their own in a page. -/
theorem seqSpan_nodup (a b : Nat) : ((seqSpan a b).map (· % 128)).Nodup := by
  unfold seqSpan upTo
  rw [List.map_map]
  refine List.Nodup.map_on ?_ List.nodup_range
  intro i hi j hj e
  have hi := List.mem_range.mp hi
  have hj := List.mem_range.mp hj
  simp only [Function.comp_apply] at e
  omega

theorem chunksAreWritten (s : State) (c : Nat × Nat × Nat) (cs : List (Nat × Nat × Nat)) (hup : s.hub.rst.held = false)
    (hb : s.hub.blockOff 0x60 = false) (hu : s.hub.rcd.unflushed = c :: cs) :
     ∃ t, exec (.recChunkWritten) s = .next t ∧ s.hub.OnlyRegs t.hub [REC_FLUSHED, REC_STAT] ∧ t = { s with hub := t.hub, flash1 := t.flash1 } ∧
       t.hub.rcd = { s.hub.rcd with unflushed := cs } ∧ t.hub.rg REC_FLUSHED = BitVec.ofNat 32 c.2.2 ∧
       ∀ q ∈ seqSpan c.2.1 c.2.2, flashBytes t.flash1 (recFlash c.1 q) 32 = memBytes s.hub.sram (recAddr q) 32 := by
  have heq : s.chunkWritten = (s.writeChunk c).modHub fun h => ({ h with rcd := { h.rcd with unflushed := cs } }).showThrottle := by
    unfold State.chunkWritten
    simp only [hu]
    rw [if_neg (by simp [hup, hb])]
  refine ⟨_, done_of_eq heq, ?_⟩
  have hflash : (s.writeChunk c).flash1 = chunkPut s.hub.sram c.1
    (if c.1 % 16 = 0 then flashErase s.flash1 (recPage c.1) 0x10000 else s.flash1) (seqSpan c.2.1 c.2.2) := rfl
  have hhub : (s.writeChunk c).hub = s.hub.setRg REC_FLUSHED (BitVec.ofNat 32 c.2.2) := rfl
  have hframe : s.writeChunk c = { s with hub := (s.writeChunk c).hub, flash1 := (s.writeChunk c).flash1 } := rfl
  generalize s.writeChunk c = u at *
  rw [State.modHub_hub, State.modHub_flash1, hhub, hflash]
  have hset : s.hub.RegsKept (s.hub.setRg REC_FLUSHED (BitVec.ofNat 32 c.2.2)) [REC_FLUSHED, REC_STAT] := s.hub.regsKept_setRg _ (by simp)
  generalize hz : s.hub.setRg REC_FLUSHED (BitVec.ofNat 32 c.2.2) = z at hset hhub
  have hzf : z = { s.hub with reg := z.reg } := by rw [← hz]; rfl
  have hzr : z.rg REC_FLUSHED = BitVec.ofNat 32 c.2.2 := by rw [← hz]; exact Hub.rg_setRg_same _ _ _
  refine ⟨⟨?_, fun a ha => ?_⟩, ?_, ?_, ?_, fun q hq => flashBytes_chunkPut _ _ _ _ (seqSpan_nodup _ _) hq⟩
  · rw [hzf]
    rfl
  · simp only [List.mem_cons, List.not_mem_nil, or_false, not_or] at ha
    exact (Hub.rg_fset_ne _ (f := REC_STAT_THROTTLE) _ ha.2).trans (hset a (by simp [ha.1, ha.2]))
  · rw [hframe]
    show State.modHub _ _ = _
    rw [← hhub, ← hflash]
    rfl
  · show ({ z.rcd with unflushed := cs } : RecInt) = _
    rw [hzf]
  · exact (Hub.rg_fset_ne _ (f := REC_STAT_THROTTLE) _ (by decide)).trans hzr

/-! ### The check units (R445 to R447) -/

theorem crcBytes_eq (w : Width) (v : Word) : crcBytes w v = leBytes (Width.bytes w) v.toNat := by cases w <;> rfl

theorem ownsCrc_iff (owner : Word) (req task : Nat) : ownsCrc owner req task = true ↔ owner = crcOwner req task := beq_iff_eq

theorem Lane.showCrc_spec (l : Lane) : l.OnlyRegs l.showCrc [CRC_RES_LO, CRC_RES_HI] ∧
    l.showCrc.rg CRC_RES_LO = BitVec.ofNat 32 (crcResult l.crc.alg l.crc.reg) := by
  unfold Lane.showCrc
  refine ⟨(l.onlyRegs_setRg _ (by decide)).trans (Lane.onlyRegs_setRg _ _ (by decide)), ?_⟩
  exact (Lane.rg_setRg_ne _ _ (by decide)).trans (Lane.rg_setRg_same _ _ _)

theorem Lane.showCrc_crc (l : Lane) : l.showCrc.crc = l.crc := rfl

/-- The unit of a lane started with an algorithm that exists. -/
theorem Lane.crcStart_known {l : Lane} {v : Word} (hs : v.getLsbD 8 = true) (ha : bvField v 0 3 ≤ 4) :
    l.RegsKept (l.crcStart v) [CRC_CTRL, CRC_OWNER, CRC_RES_LO, CRC_RES_HI, CRC_STAT] ∧
      (l.crcStart v).crc = crcLoaded v (l.rg CRC_INIT_HI) (l.rg CRC_INIT_LO) ∧
      (l.crcStart v).rg CRC_OWNER = crcOwner 0 (bvField (l.rg CRC_CUR) 0 8) := by
  have hset := l.regsKept_setRg (a := CRC_CTRL) (as := [CRC_CTRL, CRC_OWNER, CRC_RES_LO, CRC_RES_HI, CRC_STAT]) (v &&& 0xF#32) (by decide)
  unfold Lane.crcStart
  dsimp only
  rw [if_neg (by rw [hs]; decide), if_neg (by simp [crcAlgOk, ha]), hset CRC_INIT_HI (by decide), hset CRC_INIT_LO (by decide),
    hset CRC_CUR (by decide)]
  generalize l.setRg CRC_CTRL (v &&& 0xF#32) = x at *
  generalize hy : ({ x with crc := crcLoaded v (l.rg CRC_INIT_HI) (l.rg CRC_INIT_LO) } : Lane) = y
  have hxy : x.RegsKept y [CRC_CTRL, CRC_OWNER, CRC_RES_LO, CRC_RES_HI, CRC_STAT] := Lane.regsKept_of_reg_eq (by rw [← hy]) _
  have hown := y.regsKept_setRg (a := CRC_OWNER) (as := [CRC_CTRL, CRC_OWNER, CRC_RES_LO, CRC_RES_HI, CRC_STAT])
    (crcOwner 0 (bvField (l.rg CRC_CUR) 0 8)) (by decide)
  have hshow := ((y.setRg CRC_OWNER (crcOwner 0 (bvField (l.rg CRC_CUR) 0 8))).showCrc_spec).1.2
  refine ⟨((hset.trans hxy).trans hown).trans (hshow.mono (by decide)), ?_, (hshow _ (by decide)).trans (Lane.rg_setRg_same _ _ _)⟩
  rw [Lane.showCrc_crc, ← hy]
  rfl

/-- A start of an algorithm that does not exist is told in the error bit. -/
theorem Lane.crcStart_unknown {l : Lane} {v : Word} (hs : v.getLsbD 8 = true) (ha : 4 < bvField v 0 3) :
    l.RegsKept (l.crcStart v) [CRC_CTRL, CRC_OWNER, CRC_RES_LO, CRC_RES_HI, CRC_STAT] ∧ (l.crcStart v).crc = l.crc ∧
      (l.crcStart v).on CRC_STAT_ALG_ERR = true ∧ (l.crcStart v).rg CRC_OWNER = l.rg CRC_OWNER := by
  unfold Lane.crcStart
  dsimp only
  rw [if_neg (by rw [hs]; decide), if_pos (by simp [crcAlgOk]; omega)]
  refine ⟨Lane.RegsKept.trans (l.regsKept_setRg _ (by decide)) (Lane.regsKept_fset _ _ (by decide)), rfl, ?_, ?_⟩
  · exact beq_iff_eq.mpr (Lane.fget_fset_same _ _ _ (by decide))
  · exact (Lane.rg_fset_ne _ (f := CRC_STAT_ALG_ERR) _ (by decide)).trans (Lane.rg_setRg_ne _ _ (by decide))

theorem laneUnitsStart (s : State) (l : LaneId) (req : Nat) (v : Word) (hup : (s.lane l).rst.held = false) (hs : v.getLsbD 8 = true) :
     ∃ t, exec (.crcStart (.lane l) req v) s = .next t ∧ s.OnlyLane t l ∧
       (s.lane l).RegsKept (t.lane l) [CRC_CTRL, CRC_OWNER, CRC_RES_LO, CRC_RES_HI, CRC_STAT] ∧
       (bvField v 0 3 ≤ 4 →
         (t.lane l).crc = crcLoaded v ((s.lane l).rg CRC_INIT_HI) ((s.lane l).rg CRC_INIT_LO) ∧
         (t.lane l).rg CRC_OWNER = crcOwner 0 (bvField ((s.lane l).rg CRC_CUR) 0 8)) ∧
       (4 < bvField v 0 3 → (t.lane l).crc = (s.lane l).crc ∧ (t.lane l).on CRC_STAT_ALG_ERR = true ∧
         (t.lane l).rg CRC_OWNER = (s.lane l).rg CRC_OWNER) := by
  obtain ⟨honly, hlane⟩ := s.upLane_next l (·.crcStart v) hup
  refine ⟨_, rfl, honly, ?_, fun ha => ?_, fun ha => ?_⟩ <;> rw [show ((s.crcStart (.lane l) req v).lane l) = _ from hlane]
  · rcases Nat.lt_or_ge 4 (bvField v 0 3) with ha | ha
    · exact (Lane.crcStart_unknown hs ha).1
    · exact (Lane.crcStart_known hs ha).1
  · exact (Lane.crcStart_known hs ha).2
  · exact (Lane.crcStart_unknown hs ha).2

theorem laneUnitsTakeData (s : State) (l : LaneId) (req : Nat) (w : Width) (v : Word) (hup : (s.lane l).rst.held = false) :
     ∃ t, exec (.crcDataWrite (.lane l) req w v) s = .next t ∧ s.OnlyLane t l ∧
       ((s.lane l).rg CRC_OWNER = crcOwner 0 (bvField ((s.lane l).rg CRC_CUR) 0 8) →
         (s.lane l).RegsKept (t.lane l) [CRC_RES_LO, CRC_RES_HI] ∧
         (t.lane l).crc = { (s.lane l).crc with reg := (leBytes (Width.bytes w) v.toNat).foldl (crcFeed (s.lane l).crc.alg) (s.lane l).crc.reg } ∧
         (t.lane l).rg CRC_RES_LO = BitVec.ofNat 32 (crcResult (t.lane l).crc.alg (t.lane l).crc.reg)) ∧
       ((s.lane l).rg CRC_OWNER ≠ crcOwner 0 (bvField ((s.lane l).rg CRC_CUR) 0 8) →
         (s.lane l).RegsKept (t.lane l) [CRC_STAT, LCTL_IRQ_PEND] ∧ (t.lane l).crc = (s.lane l).crc ∧ (t.lane l).on CRC_STAT_OWN_ERR = true ∧
         ((t.lane l).rg LCTL_IRQ_PEND).getLsbD 7 = true) := by
  obtain ⟨honly, hlane⟩ := s.upLane_next l (·.crcData w v) hup
  refine ⟨s.upLane l (·.crcData w v), rfl, honly, fun ho => ?_, fun ho => ?_⟩ <;> rw [hlane] <;> generalize s.lane l = x at ho ⊢
  · have heq : x.crcData w v = ({ x with crc := x.crc.feed (crcBytes w v) } : Lane).showCrc := if_pos ((ownsCrc_iff _ _ _).mpr ho)
    obtain ⟨hregs, hshow⟩ := ({ x with crc := x.crc.feed (crcBytes w v) } : Lane).showCrc_spec
    rw [heq]
    refine ⟨fun a ha => hregs.2 a ha, ?_, hshow⟩
    show x.crc.feed (crcBytes w v) = _
    rw [crcBytes_eq]
    rfl
  · have heq : x.crcData w v = (x.fset CRC_STAT_OWN_ERR 1).raise 7 := if_neg fun h => ho ((ownsCrc_iff _ _ _).mp h)
    rw [heq]
    refine ⟨?_, rfl, ?_, ?_⟩
    · exact Lane.RegsKept.trans (x.regsKept_fset (f := CRC_STAT_OWN_ERR) _ (by decide)) (Lane.regsKept_setRg _ (a := LCTL_IRQ_PEND) _ (by decide))
    · refine beq_iff_eq.mpr ((Lane.fget_setRg_ne _ (a := LCTL_IRQ_PEND) _ (by decide)).trans (Lane.fget_fset_same _ _ _ (by decide)))
    · show (((x.fset CRC_STAT_OWN_ERR 1).raise 7).rg LCTL_IRQ_PEND).getLsbD 7 = true
      rw [Lane.rg_raise_same, BitVec.getLsbD_or]
      simp

/-- The unit of the hub that a core is given. -/
theorem Hub.setCrc_spec (h : Hub) {u : Nat} (hu : u = 0 ∨ u = 1) (c : CrcInt) :
    h.RegsKept (h.setCrc u c) [HCRC_RES_LO u, HCRC_RES_HI u] ∧ (h.setCrc u c).crcUnit u = c := by
  unfold Hub.setCrc
  dsimp only
  generalize hy : (if u = 0 then { h with crc0 := c } else { h with crc1 := c } : Hub) = y
  have hreg : y.reg = h.reg := by rw [← hy]; split <;> rfl
  have hunit : y.crcUnit u = c := by
    rw [← hy]
    rcases hu with rfl | rfl <;> rfl
  refine ⟨(Hub.regsKept_of_reg_eq hreg _).trans (Hub.RegsKept.trans (y.regsKept_setRg _ (by simp)) (Hub.regsKept_setRg _ _ (by simp))), ?_⟩
  rw [← hunit]
  rfl

theorem hubUnits (s : State) (m : Master) (u req : Nat) (w : Width) (v : Word) (hm : (m, u) ∈ [(Master.hub, 0), (.host, 1)])
    (hup : s.hub.rst.held = false) :
     (∃ t, exec (.crcDataWrite m req w v) s = .next t ∧ s.OnlyHub t ∧
       (s.hub.rg (HCRC_OWNER u) = crcOwner req (bvField (s.hub.rg (HCRC_CUR u (req % 2))) 0 8) →
         s.hub.RegsKept t.hub [HCRC_RES_LO u, HCRC_RES_HI u] ∧ t.hub.crcUnit u = (s.hub.crcUnit u).feed (leBytes (Width.bytes w) v.toNat)) ∧
       (s.hub.rg (HCRC_OWNER u) ≠ crcOwner req (bvField (s.hub.rg (HCRC_CUR u (req % 2))) 0 8) →
         s.hub.OnlyRegs t.hub [HCRC_STAT u] ∧ t.hub.on (HCRC_STAT_OWN_ERR u) = true)) ∧
     (v.getLsbD 8 = true → bvField v 0 3 ≤ 4 →
       ∃ t, exec (.crcStart m req v) s = .next t ∧ s.OnlyHub t ∧
         s.hub.RegsKept t.hub [HCRC_CTRL u, HCRC_OWNER u, HCRC_RES_LO u, HCRC_RES_HI u] ∧
         t.hub.crcUnit u = crcLoaded v (s.hub.rg (HCRC_INIT_HI u)) (s.hub.rg (HCRC_INIT_LO u)) ∧
         t.hub.rg (HCRC_OWNER u) = crcOwner req (bvField (s.hub.rg (HCRC_CUR u (req % 2))) 0 8)) := by
  have hu : u = 0 ∨ u = 1 := by
    simp only [List.mem_cons, Prod.mk.injEq, List.not_mem_nil, or_false] at hm
    exact hm.imp And.right And.right
  have hdata : exec (.crcDataWrite m req w v) s = .next (s.modHub (·.crcData u req w v)) := by
    simp only [List.mem_cons, Prod.mk.injEq, List.not_mem_nil, or_false] at hm
    rcases hm with ⟨rfl, rfl⟩ | ⟨rfl, rfl⟩ <;> exact done_of_eq (State.upHub_of_up hup _)
  have hstart : exec (.crcStart m req v) s = .next (s.modHub (·.crcStart u req v)) := by
    simp only [List.mem_cons, Prod.mk.injEq, List.not_mem_nil, or_false] at hm
    rcases hm with ⟨rfl, rfl⟩ | ⟨rfl, rfl⟩ <;> exact done_of_eq (State.upHub_of_up hup _)
  refine ⟨⟨_, hdata, rfl, fun ho => ?_, fun ho => ?_⟩, fun hs ha => ⟨_, hstart, rfl, ?_⟩⟩ <;> rw [State.modHub_hub]
  · have heq : s.hub.crcData u req w v = s.hub.setCrc u ((s.hub.crcUnit u).feed (crcBytes w v)) := if_pos ((ownsCrc_iff _ _ _).mpr ho)
    rw [heq, crcBytes_eq]
    exact s.hub.setCrc_spec hu _
  · have heq : s.hub.crcData u req w v = s.hub.fset (HCRC_STAT_OWN_ERR u) 1 := if_neg fun h => ho ((ownsCrc_iff _ _ _).mp h)
    rw [heq]
    refine ⟨⟨rfl, s.hub.regsKept_fset _ (List.mem_singleton_self _)⟩, ?_⟩
    exact beq_iff_eq.mpr (Hub.fget_fset_same _ _ _ (by show 0 + 1 ≤ 32; decide))
  · have hset := s.hub.regsKept_setRg (a := HCRC_CTRL u) (as := [HCRC_CTRL u, HCRC_OWNER u, HCRC_RES_LO u, HCRC_RES_HI u]) (v &&& 0xF#32) (by simp)
    have hinit : s.hub.crcStart u req v =
        ((s.hub.setRg (HCRC_CTRL u) (v &&& 0xF#32)).setRg (HCRC_OWNER u) (crcOwner req (bvField (s.hub.rg (HCRC_CUR u (req % 2))) 0 8))).setCrc u
          (crcLoaded v (s.hub.rg (HCRC_INIT_HI u)) (s.hub.rg (HCRC_INIT_LO u))) := by
      unfold Hub.crcStart
      dsimp only
      rw [if_neg (by rw [hs]; decide), if_neg (by simp [crcAlgOk, ha])]
      have hne (a : Nat) (h : a ≠ HCRC_CTRL u) : (s.hub.setRg (HCRC_CTRL u) (v &&& 0xF#32)).rg a = s.hub.rg a := s.hub.rg_setRg_ne _ h
      rw [hne (HCRC_INIT_HI u) (by unfold HCRC_INIT_HI HCRC_CTRL; omega), hne (HCRC_INIT_LO u) (by unfold HCRC_INIT_LO HCRC_CTRL; omega),
        hne (HCRC_CUR u (req % 2)) (by unfold HCRC_CUR HCRC_CTRL; omega)]
    rw [hinit]
    generalize s.hub.setRg (HCRC_CTRL u) (v &&& 0xF#32) = x at *
    have hown := x.regsKept_setRg (a := HCRC_OWNER u) (as := [HCRC_CTRL u, HCRC_OWNER u, HCRC_RES_LO u, HCRC_RES_HI u])
      (crcOwner req (bvField (s.hub.rg (HCRC_CUR u (req % 2))) 0 8)) (by simp)
    have howner := x.rg_setRg_same (HCRC_OWNER u) (crcOwner req (bvField (s.hub.rg (HCRC_CUR u (req % 2))) 0 8))
    generalize x.setRg (HCRC_OWNER u) (crcOwner req (bvField (s.hub.rg (HCRC_CUR u (req % 2))) 0 8)) = y at *
    obtain ⟨hkept, hunit⟩ := y.setCrc_spec hu (crcLoaded v (s.hub.rg (HCRC_INIT_HI u)) (s.hub.rg (HCRC_INIT_LO u)))
    refine ⟨(hset.trans hown).trans fun a ha => hkept a fun hm => ha ?_, hunit, (hkept _ ?_).trans howner⟩
    · simp only [List.mem_cons, List.not_mem_nil, or_false] at hm ⊢
      exact Or.inr (Or.inr hm)
    · simp only [List.mem_cons, List.not_mem_nil, or_false, HCRC_OWNER, HCRC_RES_LO, HCRC_RES_HI]
      omega

/-- Settles O53: the recorder through the one lemma about a new record, the check units through the one about their start and data. -/
theorem recordsAndCheckUnitsServeInOrder : Obligations.RecordsAndCheckUnitsServeInOrder :=
  ⟨⟨submissionsAreRecorded, gapsAreRecorded, chunksAreWritten⟩, laneUnitsStart, laneUnitsTakeData, hubUnits⟩

end Sys2Proof.Machine
end
section
/-! PROOFS. The statement on the host interface, the module and the single blocks reset alone (R366 to R368, R383, R386, R387, R500, R501). -/

namespace Sys2Proof.Machine

/-! ### HOST_INTERFACE_RESET (R366, R367) -/

/-- The registers an interface reset clears for queue `q`. -/
def Hub.ifZero (h : Hub) (q : Nat) : Hub := (h.setRg (HCMD_POISON q) 0).setRg (HCMD_CQHD q) 0

/-- The host interface's own state emptied. -/
def Hub.ifEmptied (h : Hub) : Hub :=
  { h with host := { h.host with
      cmds := (h.host.cmds.filter fun c => c.active && c.status.isNone).map fun c => { c with ghost := true },
      lastQ := 3, cqW := [0, 0, 0, 0], phase := [true, true, true, true], irq := 0, msix := [], spiOut := [] } }

/-- The registers of the interface cleared. -/
def Hub.ifCleared (h : Hub) : Hub := ((((h.ifZero 0).ifZero 1).ifZero 2).ifZero 3).setRg HCMD_CTRL 0

/-- The flags of the interface cleared. -/
def Hub.ifFlags (h : Hub) : Hub :=
  (((h.fset HCMD_STAT_QFULL 0).fset HCMD_STAT_SPI_ERR 0).fset HCMD_STAT_WIN_ERR 0).fset HCMD_STAT_DB_ERR 0

theorem Hub.ifReset_eq (h : Hub) : h.ifReset =
    (h.ifEmptied.ifCleared.ifFlags.fset HCMD_STAT_EPOCH (h.ifEmptied.ifCleared.ifFlags.fget HCMD_STAT_EPOCH + 1)).countQueues := rfl

theorem Hub.OnlyReg.mono {h k : Hub} {as bs : List Nat} (a : h.OnlyReg k as) (hs : as ⊆ bs) : h.OnlyReg k bs :=
  ⟨a.1, fun x hx => a.2 x fun hm => hx (hs hm)⟩

def ifRegs : List Nat :=
  [HCMD_POISON 0, HCMD_POISON 1, HCMD_POISON 2, HCMD_POISON 3, HCMD_CQHD 0, HCMD_CQHD 1, HCMD_CQHD 2, HCMD_CQHD 3, HCMD_CTRL]

theorem Hub.ifZero_regs (h : Hub) {q : Nat} (hp : HCMD_POISON q ∈ ifRegs) (hc : HCMD_CQHD q ∈ ifRegs) : h.OnlyReg (h.ifZero q) ifRegs :=
  (h.onlyReg_setRg _ hp).trans (Hub.onlyReg_setRg _ _ hc)

theorem Hub.ifCleared_regs (h : Hub) : h.OnlyReg h.ifCleared ifRegs :=
  ((((h.ifZero_regs (by decide) (by decide)).trans (Hub.ifZero_regs _ (by decide) (by decide))).trans
    (Hub.ifZero_regs _ (by decide) (by decide))).trans (Hub.ifZero_regs _ (by decide) (by decide))).trans (Hub.onlyReg_setRg _ _ (by decide))

theorem Hub.ifFlags_regs (h : Hub) : h.OnlyReg h.ifFlags [HCMD_STAT] :=
  (((h.onlyReg_fset _ (by decide)).trans (Hub.onlyReg_fset _ _ (by decide))).trans (Hub.onlyReg_fset _ _ (by decide))).trans
    (Hub.onlyReg_fset _ _ (by decide))

theorem Hub.ifFlags_epoch (h : Hub) : h.ifFlags.fget HCMD_STAT_EPOCH = h.fget HCMD_STAT_EPOCH := by
  unfold Hub.ifFlags
  rw [Hub.fget_fset_apart _ _ (by rfl) (by rfl) (by rfl), Hub.fget_fset_apart _ _ (by rfl) (by rfl) (by rfl),
    Hub.fget_fset_apart _ _ (by rfl) (by rfl) (by rfl), Hub.fget_fset_apart _ _ (by rfl) (by rfl) (by rfl)]

/-- A register that a later clear of another queue leaves zero. -/
theorem Hub.ifZero_zero {h : Hub} {a : Nat} (hz : h.rg a = 0) (q : Nat) : (h.ifZero q).rg a = 0 := by
  unfold Hub.ifZero
  by_cases hc : a = HCMD_CQHD q
  · rw [hc, Hub.rg_setRg_same]
  · rw [Hub.rg_setRg_ne _ _ hc]
    by_cases hp : a = HCMD_POISON q
    · rw [hp, Hub.rg_setRg_same]
    · rw [Hub.rg_setRg_ne _ _ hp, hz]

theorem Hub.ifZero_own (h : Hub) (q : Nat) : (h.ifZero q).rg (HCMD_CQHD q) = 0 ∧ (h.ifZero q).rg (HCMD_POISON q) = 0 := by
  refine ⟨Hub.rg_setRg_same _ _ _, (Hub.rg_setRg_ne _ _ ?_).trans (Hub.rg_setRg_same _ _ _)⟩
  unfold HCMD_CQHD HCMD_POISON
  omega

theorem Hub.ifCleared_zero (h : Hub) {q : Nat} (hq : q < 4) : h.ifCleared.rg (HCMD_CQHD q) = 0 ∧ h.ifCleared.rg (HCMD_POISON q) = 0 := by
  have hctrl {x : Hub} {a : Nat} (hz : x.rg a = 0) : (x.setRg HCMD_CTRL 0).rg a = 0 := by
    by_cases ha : a = HCMD_CTRL
    · rw [ha, Hub.rg_setRg_same]
    · rw [Hub.rg_setRg_ne _ _ ha, hz]
  have hcases : q = 0 ∨ q = 1 ∨ q = 2 ∨ q = 3 := by omega
  rcases hcases with rfl | rfl | rfl | rfl
  · obtain ⟨hc, hp⟩ := h.ifZero_own 0
    exact ⟨hctrl (Hub.ifZero_zero (Hub.ifZero_zero (Hub.ifZero_zero hc 1) 2) 3), hctrl (Hub.ifZero_zero (Hub.ifZero_zero (Hub.ifZero_zero hp 1) 2) 3)⟩
  · obtain ⟨hc, hp⟩ := (h.ifZero 0).ifZero_own 1
    exact ⟨hctrl (Hub.ifZero_zero (Hub.ifZero_zero hc 2) 3), hctrl (Hub.ifZero_zero (Hub.ifZero_zero hp 2) 3)⟩
  · obtain ⟨hc, hp⟩ := ((h.ifZero 0).ifZero 1).ifZero_own 2
    exact ⟨hctrl (Hub.ifZero_zero hc 3), hctrl (Hub.ifZero_zero hp 3)⟩
  · obtain ⟨hc, hp⟩ := (((h.ifZero 0).ifZero 1).ifZero 2).ifZero_own 3
    exact ⟨hctrl hc, hctrl hp⟩

/-- The registers an interface reset leaves to the last step, the counts of the queues. -/
theorem Hub.ifReset_rg (h : Hub) {a : Nat} (hq : a ∉ queueCounts) : h.ifReset.rg a =
    (h.ifEmptied.ifCleared.ifFlags.fset HCMD_STAT_EPOCH (h.ifEmptied.ifCleared.ifFlags.fget HCMD_STAT_EPOCH + 1)).rg a := by
  rw [Hub.ifReset_eq]
  exact (Hub.countQueues_onlyReg _).2 a hq

theorem Hub.ifReset_rg_flagless (h : Hub) {a : Nat} (hq : a ∉ queueCounts) (hs : a ≠ HCMD_STAT) : h.ifReset.rg a = h.ifEmptied.ifCleared.rg a := by
  rw [h.ifReset_rg hq, Hub.rg_fset_ne _ (f := HCMD_STAT_EPOCH) _ hs]
  exact (Hub.ifFlags_regs _).2 a (by simpa using hs)

theorem Hub.ifReset_spec (h : Hub) :
    h.ifReset = { h.ifEmptied with reg := h.ifReset.reg } ∧
      h.ifReset.fget HCMD_STAT_EPOCH = (h.fget HCMD_STAT_EPOCH + 1) % 65536 ∧ h.ifReset.rg HCMD_CTRL = 0 ∧ h.ifReset.rg HCMD_SEQ = h.rg HCMD_SEQ ∧
      ∀ q, q < 4 → h.ifReset.rg (HCMD_POISON q) = 0 ∧ h.ifReset.fget (HCMD_CQHD_HEAD q) = 0 := by
  have hregs := h.ifEmptied.ifCleared_regs
  have hepoch : h.ifEmptied.ifCleared.ifFlags.fget HCMD_STAT_EPOCH = h.fget HCMD_STAT_EPOCH := by
    rw [Hub.ifFlags_epoch]
    exact Hub.RegsKept.fget hregs.2 (by decide)
  refine ⟨?_, ?_, ?_, ?_, fun q hq => ?_⟩
  · have hcleared := hregs.mono (bs := ifRegs ++ HCMD_STAT :: queueCounts) (by simp)
    have hflags := h.ifEmptied.ifCleared.ifFlags_regs.mono (bs := ifRegs ++ HCMD_STAT :: queueCounts) (by simp)
    have hset := h.ifEmptied.ifCleared.ifFlags.onlyReg_fset (f := HCMD_STAT_EPOCH) (as := ifRegs ++ HCMD_STAT :: queueCounts)
      (h.ifEmptied.ifCleared.ifFlags.fget HCMD_STAT_EPOCH + 1) (by decide)
    rw [Hub.ifReset_eq]
    exact ((hcleared.trans hflags).trans (hset.trans ((Hub.countQueues_onlyReg _).mono (by simp)))).1
  · rw [Hub.fget, h.ifReset_rg (by decide), ← Hub.fget, Hub.fget_fset_set _ _ _ (by rfl), hepoch]
    rfl
  · rw [h.ifReset_rg_flagless (by decide) (by decide)]
    exact Hub.rg_setRg_same _ _ _
  · rw [h.ifReset_rg_flagless (by decide) (by decide), hregs.2 _ (by decide)]
    rfl
  · obtain ⟨hc, hp⟩ := h.ifEmptied.ifCleared_zero hq
    have hcq : HCMD_CQHD q ∉ queueCounts := by
      simp only [queueCounts, HCMD_CQHD, HCMD_QCNT, List.mem_cons, List.not_mem_nil, or_false]
      omega
    refine ⟨(h.ifReset_rg_flagless (poisonReg_not_count hq) (by unfold HCMD_POISON HCMD_STAT; omega)).trans hp, ?_⟩
    unfold Hub.fget
    rw [show (HCMD_CQHD_HEAD q).addr = HCMD_CQHD q from rfl, h.ifReset_rg_flagless hcq (by unfold HCMD_CQHD HCMD_STAT; omega), hc]
    rfl

theorem State.OnlyHub.trans {s t u : State} (a : s.OnlyHub t) (b : t.OnlyHub u) : s.OnlyHub u := by
  unfold State.OnlyHub at a b ⊢
  rw [a] at b
  exact b

theorem State.onlyHub_modHub (s : State) (f : Hub → Hub) : s.OnlyHub (s.modHub f) := rfl

theorem State.onlyHub_recHub (s : State) (blk cls rule : Nat) (data : List (Nat × Nat)) : s.OnlyHub (s.recHub blk cls rule data) :=
  s.onlyHub_modHub _

theorem State.recHub_same (s : State) (blk cls rule : Nat) (data : List (Nat × Nat)) : s.hub.SameButRec (s.recHub blk cls rule data).hub :=
  s.hub.submit_same _

theorem interfaceIsReset (s : State) (hup : s.hub.rst.held = false) (hspi : s.hub.on HCMD_STAT_HOSTSPI = false) :
     ∃ t, exec (.hostInterfaceReset) s = .next t ∧ s.OnlyHub t ∧ t.hub.sram = s.hub.sram ∧
       t.hub.fget HCMD_STAT_EPOCH = (s.hub.fget HCMD_STAT_EPOCH + 1) % 65536 ∧ t.hub.rg HCMD_CTRL = 0 ∧ t.hub.rg HCMD_SEQ = s.hub.rg HCMD_SEQ ∧
       (∀ q, q < 4 → t.hub.rg (HCMD_POISON q) = 0 ∧ t.hub.fget (HCMD_CQHD_HEAD q) = 0) ∧
       t.hub.host.cqW = [0, 0, 0, 0] ∧ t.hub.host.phase = [true, true, true, true] ∧
       t.hub.host.cmds = (s.hub.host.cmds.filter fun c => c.active && c.status.isNone).map fun c => { c with ghost := true } := by
  have heq : s.hostIfReset = (s.modHub (·.ifReset)).recHub blkFirmware 0x01 367 [] := if_neg (by simp [hup, hspi])
  refine ⟨_, done_of_eq heq, ?_⟩
  obtain ⟨hframe, hepoch, hctrl, hseq, hzero⟩ := s.hub.ifReset_spec
  have hhub : (s.modHub (·.ifReset)).hub = s.hub.ifReset := State.modHub_hub _ _
  have hsame := (s.modHub (·.ifReset)).recHub_same blkFirmware 0x01 367 []
  have honly := (s.onlyHub_modHub (·.ifReset)).trans ((s.modHub (·.ifReset)).onlyHub_recHub blkFirmware 0x01 367 [])
  rw [hhub] at hsame
  generalize (s.modHub (·.ifReset)).recHub blkFirmware 0x01 367 [] = u at *
  have hhost : u.hub.host = s.hub.ifEmptied.host := by rw [hsame.1, hframe]
  have hkept {a : Nat} (ha : a ≠ REC_STAT) : u.hub.rg a = s.hub.ifReset.rg a := hsame.2 a (by simpa using ha)
  refine ⟨honly, ?_, ?_, (hkept (by decide)).trans hctrl, (hkept (by decide)).trans hseq, fun q hq => ?_, ?_, ?_, ?_⟩
  · rw [hsame.1, hframe]
    rfl
  · exact (Hub.RegsKept.fget hsame.2 (by decide)).trans hepoch
  · obtain ⟨hp, hc⟩ := hzero q hq
    refine ⟨(hkept (by unfold HCMD_POISON REC_STAT; omega)).trans hp, (Hub.RegsKept.fget hsame.2 ?_).trans hc⟩
    simp only [HCMD_CQHD_HEAD, HCMD_CQHD, REC_STAT, List.mem_singleton]
    omega
  · rw [hhost]
    rfl
  · rw [hhost]
    rfl
  · rw [hhost]
    rfl

/-! ### HCMD_DEVRST, HCMD_PWRCYC and the end of its pulse (R387) -/

theorem State.hcmdCtrl_eq (s : State) (v : Word) (tm : Nat) : s.hcmdCtrl v tm =
    if bvField v 16 16 ≠ 0xA55A then s.modHub (·.fset HCMD_CTRL_IE_STAT (bvField v 7 1))
    else if v.getLsbD 0 then (s.modHub (·.fset HCMD_CTRL_IE_STAT (bvField v 7 1))).assertHub false [causeSwr]
    else if v.getLsbD 1 then { s.modHub (·.fset HCMD_CTRL_IE_STAT (bvField v 7 1)) with
      aon := { (s.modHub (·.fset HCMD_CTRL_IE_STAT (bvField v 7 1))).aon with pwrcycUntil := tm + 20000000 } }
    else s.modHub (·.fset HCMD_CTRL_IE_STAT (bvField v 7 1)) := rfl

theorem deviceIsReset (s : State) (v : Word) (hup : s.hub.rst.held = false) :
     ∃ t, exec (.hcmdDevrst v) s = .next t ∧
       (bvField v 16 16 ≠ 0xA55A → s.OnlyHub t ∧ s.hub.OnlyRegs t.hub [HCMD_CTRL] ∧ t.hub.fget HCMD_CTRL_IE_STAT = bvField v 7 1) ∧
       (bvField v 16 16 = 0xA55A → v.getLsbD 0 = true → t.hub.rst.held = true ∧ t.hub.on HRST_CAUSE_SWR = true ∧ t.hub.sram = s.hub.sram ∧
         t.hub.host.cmds = [] ∧ t.field = s.field) := by
  have hrun : exec (.hcmdDevrst v) s = .next (s.hcmdCtrl v s.now) := done_of_eq (if_neg (by simp [hup]))
  refine ⟨_, hrun, fun hkey => ?_, fun hkey hbit => ?_⟩ <;> rw [State.hcmdCtrl_eq]
  · rw [if_pos hkey, State.modHub_hub]
    refine ⟨rfl, ⟨rfl, s.hub.regsKept_fset _ (List.mem_singleton_self _)⟩, ?_⟩
    rw [Hub.fget_fset_set _ _ _ (by rfl)]
    exact Nat.mod_eq_of_lt (Nat.mod_lt _ (by decide))
  · rw [if_neg (by simp [hkey]), if_pos hbit]
    have hhub : (s.modHub (·.fset HCMD_CTRL_IE_STAT (bvField v 7 1))).hub = s.hub.fset HCMD_CTRL_IE_STAT (bvField v 7 1) := State.modHub_hub _ _
    have hfield : (s.modHub (·.fset HCMD_CTRL_IE_STAT (bvField v 7 1))).field = s.field := State.modHub_field _ _
    generalize s.modHub (·.fset HCMD_CTRL_IE_STAT (bvField v 7 1)) = u at *
    obtain ⟨he, -, hheld, -, hhost, hsram, hcauses⟩ := u.assertHub_spec false [causeSwr]
    have hcold : u.hub.coldNow false = false := by rw [hhub]; exact Hub.coldNow_of_running (h := s.hub) hup false
    refine ⟨hheld, (Hub.on_eq_getLsbD _ (f := HRST_CAUSE_SWR) rfl).trans (hcauses causeSwr (by decide) (List.mem_singleton_self _)), ?_, ?_, ?_⟩
    · rw [hsram hcold, hhub]
      rfl
    · rw [hhost]
      rfl
    · rw [he]
      exact hfield

theorem powerIsCycled (s : State) (v : Word) (tm : Nat) (hup : s.hub.rst.held = false) (hkey : bvField v 16 16 = 0xA55A)
    (h0 : v.getLsbD 0 = false) (h1 : v.getLsbD 1 = true) :
     ∃ t, exec (.hcmdPwrcyc v tm) s = .next t ∧ s.hub.OnlyRegs t.hub [HCMD_CTRL] ∧
       t = { s with now := t.now, hub := t.hub, aon := { s.aon with pwrcycUntil := tm + 20000000 } } := by
  have heq : (s.at tm).hcmdCtrl v tm = { (s.at tm).modHub (·.fset HCMD_CTRL_IE_STAT (bvField v 7 1)) with
      aon := { s.aon with pwrcycUntil := tm + 20000000 } } := by
    rw [State.hcmdCtrl_eq, if_neg (by simp [hkey]), if_neg (by rw [h0]; decide), if_pos h1]
    rfl
  have hrun : exec (.hcmdPwrcyc v tm) s = .next ((s.at tm).hcmdCtrl v tm) := done_of_eq (if_neg (by simp [hup]))
  rw [heq] at hrun
  exact ⟨_, hrun, ⟨rfl, s.hub.regsKept_fset _ (List.mem_singleton_self _)⟩, rfl⟩

theorem powerPulseEnds (s : State) (tm : Nat) : ∃ t, exec (.pwrcycPulseEnd tm) s = .next t ∧
     t = { s with now := max s.now tm, aon := { s.aon with pwrcycUntil := if s.aon.pwrcycUntil ≤ tm then 0 else s.aon.pwrcycUntil } } := by
  refine ⟨(s.at tm).pwrcycEnd tm, rfl, ?_⟩
  unfold State.pwrcycEnd
  rw [State.at_aon]
  by_cases h : s.aon.pwrcycUntil ≤ tm
  · rw [if_pos h, if_pos h]
    rfl
  · rw [if_neg h, if_neg h]
    rfl

/-! ### MODULE_RESET and MODULE_RESET_ASSERT (R383) -/

/-- A command that changes the hub, its records kept, and then ends. -/
theorem State.endWith_after {s : State} {f : Hub → Hub} {r : CmdRef} {c : HostCmd} (ho : s.hub.openCmd r.q r.slot = some c)
    (hc : (f s.hub).host.cmds = s.hub.host.cmds) (st detail : Nat) : (s.modHub f).Ends ((s.modHub f).endWith r st detail) c st detail 0 [] :=
  State.endWith_ends ((Hub.openCmd_congr (h := s.hub) (k := (s.modHub f).hub) hc r.q r.slot).trans ho) st detail

/-- The hub with the reset of the module due. -/
def Hub.resetAsked (h : Hub) (cold : Bool) (due : Nat) : Hub := { h with host := { h.host with mreset := some (cold, due) } }

theorem moduleResetIsAsked (s : State) (r : CmdRef) (kind : Nat) (c : HostCmd) (h : s.activeCmd r 0x0A02 = some c) :
     ∃ t, exec (.moduleReset r kind) s = .next t ∧
       (1 < kind → s.Ends t c 3 0 0 []) ∧
       (kind ≤ 1 → t.hub.Ended c 0 0 0 [] ∧ s.OnlyHub t ∧ t.hub.host.mreset = some (kind == 1, s.now + 1000000)) := by
  obtain ⟨ho, -, -⟩ := State.activeCmd_some h
  refine ⟨s.moduleReset r kind, done_of_eq (State.hCmd_of_active h _), fun hk => ?_, fun hk => ?_⟩
  · rw [State.moduleReset, if_pos hk]
    exact State.endWith_ends ho _ _
  · have heq : s.moduleReset r kind = (s.modHub (·.resetAsked (kind == 1) (s.now + 1000000))).endWith r stOk 0 := if_neg (by omega)
    rw [heq]
    obtain ⟨honly, hcmds, hended, -⟩ := State.endWith_after (f := (·.resetAsked (kind == 1) (s.now + 1000000))) ho rfl stOk 0
    have hm : (s.modHub (·.resetAsked (kind == 1) (s.now + 1000000))).hub.host.mreset = some (kind == 1, s.now + 1000000) := rfl
    have hs : s.OnlyHub (s.modHub (·.resetAsked (kind == 1) (s.now + 1000000))) := rfl
    generalize s.modHub (·.resetAsked (kind == 1) (s.now + 1000000)) = u at *
    refine ⟨hended, ?_, ?_⟩
    · rw [State.OnlyHub, honly, hs]
    · rw [hcmds.1]
      exact hm

/-! #### The lanes of a module whose reset is asked for -/

/-- The lanes `ls` asked for their reset, one after the other. -/
def State.resetLanes (s : State) (cold : Bool) (ls : List LaneId) : State :=
  ls.foldl (fun (s : State) l => s.requestReset l leaveFirmware causeSwr cold) s

theorem State.resetLanes_frame (cold : Bool) (ls : List LaneId) (s : State) : s.LanesAndRec (s.resetLanes cold ls) := by
  induction ls generalizing s with
  | nil => exact .refl s
  | cons l ls ih => exact (s.requestReset_others l leaveFirmware causeSwr cold).1.trans (ih _)

/-- What easy all keeps of a lane that is not asked, requests to other lanes keep. -/
theorem State.resetLanes_keep {P : Lane → Prop} (hP : ∀ x y, P x → x.EasyOr y → P y) (cold : Bool) (l : LaneId) (ls : List LaneId) (s : State)
    (hl : l ∉ ls) (h : P (s.lane l)) : P ((s.resetLanes cold ls).lane l) := by
  induction ls generalizing s with
  | nil => exact h
  | cons k ls ih =>
    simp only [List.mem_cons, not_or] at hl
    refine ih _ hl.2 ?_
    rcases (s.requestReset_others k leaveFirmware causeSwr cold).2 l hl.1 with e | ⟨-, e⟩
    · rw [e]
      exact h
    · exact hP _ _ h e

/-- Requests to other lanes leave a voter as it is. -/
theorem State.resetLanes_voter (cold : Bool) (l : LaneId) (ls : List LaneId) (s : State) (hl : l ∉ ls) (hv : (s.lane l).inVote = true) :
    (s.resetLanes cold ls).lane l = s.lane l := by
  induction ls generalizing s with
  | nil => rfl
  | cons k ls ih =>
    simp only [List.mem_cons, not_or] at hl
    have hk : (s.requestReset k leaveFirmware causeSwr cold).lane l = s.lane l := by
      rcases (s.requestReset_others k leaveFirmware causeSwr cold).2 l hl.1 with e | ⟨hn, -⟩
      · exact e
      · exact absurd (hv.symm.trans hn) (by decide)
    exact (ih _ hl.2 (by rw [hk]; exact hv)).trans hk

theorem allLanes_split (l : LaneId) : ∃ pre post, allLanes = pre ++ l :: post ∧ l ∉ pre ∧ l ∉ post := by
  cases l
  · exact ⟨[], [.b, .c], rfl, by decide, by decide⟩
  · exact ⟨[.a], [.c], rfl, by decide, by decide⟩
  · exact ⟨[.a, .b], [], rfl, by decide, by decide⟩

theorem Lane.EasyOr.inVote {x y : Lane} (h : x.inVote = false) (he : x.EasyOr y) : y.inVote = false := by
  rcases he with rfl | ⟨split, cause, rfl⟩
  · exact h
  · by_cases hx : x.easy = true
    · rw [Lane.enterEasy, if_pos hx]
      exact h
    · exact Lane.enterEasy_inVote _ _ _ (by simpa using hx)

theorem Lane.EasyOr.held {x y : Lane} (h : x.rst.held = true) (he : x.EasyOr y) : y.rst.held = true := by
  rcases he with rfl | ⟨split, cause, rfl⟩
  · exact h
  · rw [Lane.enterEasy_rst]
    exact h

/-- Asked for their reset, a lane outside the vote is held and a voter leaves. -/
theorem State.resetLanes_all (s : State) (cold : Bool) (l : LaneId) :
    ((s.lane l).inVote = false → ((s.resetLanes cold allLanes).lane l).rst.held = true) ∧
      ((s.lane l).inVote = true → (s.lane l).easy = false → (s.lane l).rst.held = false →
        (s.lane l).LeavesFor ((s.resetLanes cold allLanes).lane l) leaveFirmware causeSwr cold (s.now + 10000)) := by
  obtain ⟨pre, post, hall, hpre, hpost⟩ := allLanes_split l
  have heq : s.resetLanes cold allLanes = ((s.resetLanes cold pre).requestReset l leaveFirmware causeSwr cold).resetLanes cold post := by
    rw [hall]
    exact List.foldl_append ..
  have hframe := State.resetLanes_frame cold pre s
  rw [heq]
  refine ⟨fun hv => ?_, fun hv he hl => ?_⟩
  · have hout := State.resetLanes_keep (P := fun x => x.inVote = false) (fun _ _ => Lane.EasyOr.inVote) cold l pre s hpre hv
    have hby := ((s.resetLanes cold pre).requestReset_nonvoter (l := l) (Or.inr (by rw [hout]; rfl)) leaveFirmware causeSwr cold).2.2
    exact State.resetLanes_keep (P := fun x => x.rst.held = true) (fun _ _ => Lane.EasyOr.held) cold l post _ hpost (hby.spec (by decide)).1
  · have hsame := State.resetLanes_voter cold l pre s hpre hv
    have hnow : (s.resetLanes cold pre).now = s.now := by rw [hframe.1]
    generalize s.resetLanes cold pre = u at *
    have hleft := (State.requestReset_voter (s := u) (l := l) (by rw [hsame]; exact hl) (by rw [hsame]; exact he) (by rw [hsame]; exact hv)
      leaveFirmware causeSwr cold).2.2
    rw [hsame, hnow] at hleft
    exact State.resetLanes_keep (P := fun x => (s.lane l).LeavesFor x leaveFirmware causeSwr cold (s.now + 10000))
      (fun _ _ h => Lane.leavesFor_easyOr h) cold l post _ hpost hleft

theorem State.requestModule_eq (s : State) (cold : Bool) : s.requestModule cold =
    (((({ s with phase := .restarting } : State).resetLanes cold allLanes).settleRestart).assertHub cold [causeSwr]).assertField := rfl

/-- What the reset of the module that hub software asks for does. -/
theorem State.requestModule_spec (s : State) (cold : Bool) (hup : s.hub.rst.held = false) :
    (s.requestModule cold).hub.rst.held = true ∧ (s.requestModule cold).hub.rst.cold = cold ∧ (s.requestModule cold).hub.on HRST_CAUSE_SWR = true ∧
      (s.requestModule cold).fieldRst.held = true ∧
      ∀ l, ((s.lane l).inVote = false → ((s.requestModule cold).lane l).rst.held = true) ∧
        ((s.lane l).inVote = true → (s.lane l).easy = false → (s.lane l).rst.held = false →
          ((s.requestModule cold).lane l).inVote = false ∧ ((s.requestModule cold).lane l).fld.dyn = 0 ∧
            ((s.requestModule cold).lane l).rst.due = some (cold, 4, s.now + 10000)) := by
  rw [State.requestModule_eq]
  have hlanes := ({ s with phase := .restarting } : State).resetLanes_all cold
  have hframe := State.resetLanes_frame cold allLanes ({ s with phase := .restarting } : State)
  have hlane₀ (l : LaneId) : ({ s with phase := .restarting } : State).lane l = s.lane l := by cases l <;> rfl
  generalize ({ s with phase := .restarting } : State).resetLanes cold allLanes = u at *
  have hrst : u.settleRestart.hub.rst = s.hub.rst := by
    rw [u.settleRestart_frame]
    show u.hub.rst = _
    rw [hframe.2.1]
  have hsettled (l : LaneId) : u.settleRestart.lane l = u.lane l := by
    rw [u.settleRestart_frame]
    cases l <;> rfl
  generalize u.settleRestart = v at *
  obtain ⟨-, htold, hheld, hcold, -, -, hcauses⟩ := v.assertHub_spec cold [causeSwr]
  have hnow : v.hub.coldNow cold = cold := Hub.coldNow_of_running (by rw [hrst]; exact hup) cold
  have hfield (l : LaneId) : (v.assertHub cold [causeSwr]).assertField.lane l = (v.assertHub cold [causeSwr]).lane l := by cases l <;> rfl
  refine ⟨hheld, hcold.trans hnow, ?_, rfl, fun l => ?_⟩
  · exact (Hub.on_eq_getLsbD _ (f := HRST_CAUSE_SWR) rfl).trans (hcauses causeSwr (by decide) (List.mem_singleton_self _))
  · obtain ⟨hbridge, -⟩ := htold l
    obtain ⟨hn, hv⟩ := hlanes l
    rw [hsettled] at hbridge
    rw [hlane₀] at hn hv
    rw [hfield, hbridge.rst_eq, hbridge.inVote_eq, hbridge.fld_eq]
    refine ⟨hn, fun h1 h2 h3 => ?_⟩
    obtain ⟨hin, hdyn, -, hr⟩ := hv h1 h2 h3
    exact ⟨hin, hdyn, by rw [hr]; rfl⟩

theorem moduleResetIsAsserted (s : State) (cold : Bool) (d tm : Nat) (hm : s.hub.host.mreset = some (cold, d)) (hup : s.hub.rst.held = false) :
     ∃ t, exec (.moduleResetAssert tm) s = .next t ∧
       (tm < d → t = s.at tm) ∧
       (d ≤ tm → t.hub.rst.held = true ∧ t.hub.rst.cold = cold ∧ t.hub.on HRST_CAUSE_SWR = true ∧ t.fieldRst.held = true ∧
         ∀ l, ((s.lane l).inVote = false → (t.lane l).rst.held = true) ∧
           ((s.lane l).inVote = true → (s.lane l).easy = false → (s.lane l).rst.held = false →
             (t.lane l).inVote = false ∧ (t.lane l).fld.dyn = 0 ∧ (t.lane l).rst.due = some (cold, 4, max s.now tm + 10000))) := by
  have heq : (s.at tm).moduleResetAssert tm = if d ≤ tm ∧ s.hub.rst.held = false then (s.at tm).requestModule cold else s.at tm := by
    unfold State.moduleResetAssert
    simp only [State.at_hub, hm]
    rfl
  refine ⟨_, done_of_eq heq, fun hlt => if_neg (by omega), fun hle => ?_⟩
  rw [if_pos ⟨hle, hup⟩]
  obtain ⟨h1, h2, h3, h4, hl⟩ := (s.at tm).requestModule_spec cold hup
  refine ⟨h1, h2, h3, h4, fun l => ?_⟩
  have := hl l
  rwa [State.at_lane] at this

/-! ### BLOCK_RESET and FUNC_REINIT (R386, R500, R501) -/

theorem Hub.blockAsk_free {h : Hub} {c : Nat} (hc : c ∈ blockCodes) (hb : h.brst = none) (tm : Nat) :
    h.blockAsk c tm = { h.fset RSTC_BSTAT_BUSY 1 with brst := some (c, tm) } := by
  refine if_pos ?_
  rw [hb]
  simpa using hc

theorem blocksAreAsked (s : State) (v : Word) (tm : Nat) (hup : s.hub.rst.held = false) (hc : bvField v 0 8 ∈ blockCodes) :
     ∃ t, exec (.blockReset v tm) s = .next t ∧ s.OnlyHub t ∧
       (s.hub.brst = none → t.hub.brst = some (bvField v 0 8, tm) ∧ s.hub.RegsKept t.hub [RSTC_BSTAT] ∧ t.hub.on RSTC_BSTAT_BUSY = true) ∧
       (s.hub.brst.isSome = true → t.hub = s.hub) := by
  refine ⟨(s.at tm).modHub (·.blockAsk (bvField v 0 8) tm), done_of_eq (State.upHub_of_up (s := s.at tm) hup _), rfl, fun hb => ?_, fun hb => ?_⟩ <;>
    rw [State.modHub_hub, State.at_hub]
  · rw [Hub.blockAsk_free hc hb]
    exact ⟨rfl, s.hub.regsKept_fset (f := RSTC_BSTAT_BUSY) _ (List.mem_singleton_self _), s.hub.on_fset_set RSTC_BSTAT_BUSY rfl rfl⟩
  · refine if_neg ?_
    rw [Option.isNone_eq_false_iff.mpr hb, Bool.and_false]
    decide

theorem functionsAreReinitialised (s : State) (r : CmdRef) (b : Byte) (tm : Nat) (c : HostCmd) (h : s.activeCmd r 0x0A04 = some c) :
     ∃ t, exec (.funcReinit r b tm) s = .next t ∧
       (b.toNat ∉ blockCodes → s.Ends t c 3 0 0 []) ∧
       (b.toNat ∈ blockCodes → s.hub.brst = none → s.OnlyHub t ∧ t.hub.brst = some (b.toNat, tm) ∧ r ∈ t.hub.host.reinit ∧
         t.hub.host.cmds = s.hub.host.cmds ∧ t.hub.on RSTC_BSTAT_BUSY = true) := by
  have hat : (s.at tm).activeCmd r 0x0A04 = some c := (s.activeCmd_at tm r _).trans h
  obtain ⟨ho, -, -⟩ := State.activeCmd_some hat
  refine ⟨(s.at tm).funcReinit r b.toNat tm, done_of_eq (State.hCmd_of_active hat _), fun hb => ?_, fun hb hn => ?_⟩
  · have heq : (s.at tm).funcReinit r b.toNat tm = (s.at tm).endWith r stBadParam 0 := if_pos (by simpa using hb)
    rw [heq]
    exact State.endWith_ends ho _ _
  · have heq : (s.at tm).funcReinit r b.toNat tm = ((s.at tm).modHub (·.blockAsk b.toNat tm)).modHub fun u =>
        { u with host := { u.host with reinit := insertL r u.host.reinit } } := by
      unfold State.funcReinit
      rw [if_neg (by simpa using hb)]
      simp only [State.at_hub, hn]
    rw [heq, State.modHub_hub, State.modHub_hub, State.at_hub, Hub.blockAsk_free hb hn]
    exact ⟨rfl, rfl, mem_insertL_self _ _, rfl, s.hub.on_fset_set RSTC_BSTAT_BUSY rfl rfl⟩

/-! ### BLOCK_IDLE_ACK and BLOCK_IDLE_TIMEOUT (R500) -/

/-- Between `h` and `u` the register of the block resets, the host commands and the reset under way are the same. -/
def Hub.BlockKept (h u : Hub) : Prop := u.rg RSTC_BSTAT = h.rg RSTC_BSTAT ∧ u.host = h.host ∧ u.brst = h.brst

theorem Hub.BlockKept.refl (h : Hub) : h.BlockKept h := ⟨rfl, rfl, rfl⟩

theorem Hub.BlockKept.trans {h u v : Hub} (a : h.BlockKept u) (b : u.BlockKept v) : h.BlockKept v :=
  ⟨b.1.trans a.1, b.2.1.trans a.2.1, b.2.2.trans a.2.2⟩

theorem Hub.blockKept_setRg (h : Hub) {a : Nat} (v : Word) (ha : RSTC_BSTAT ≠ a) : h.BlockKept (h.setRg a v) := ⟨h.rg_setRg_ne v ha, rfl, rfl⟩

theorem Hub.blockKept_fset (h : Hub) {f : Fld} (v : Nat) (ha : RSTC_BSTAT ≠ f.addr) : h.BlockKept (h.fset f v) := ⟨h.rg_fset_ne v ha, rfl, rfl⟩

theorem Hub.blockKept_modRing (h : Hub) (k : Nat) (f : RingInt → RingInt) : h.BlockKept (h.modRing k f) := ⟨rfl, rfl, rfl⟩

theorem Hub.blockKept_modDest (h : Hub) (d : Nat) (f : SgwDest → SgwDest) : h.BlockKept (h.modDest d f) := ⟨rfl, rfl, rfl⟩

theorem Hub.blockKept_newRecord (h : Hub) (x : RecSub) (gap : Bool) : h.BlockKept (h.newRecord x gap) := by
  obtain ⟨hframe, hkept, -⟩ := h.newRecord_spec x gap
  exact ⟨hkept _ (by decide), by rw [hframe], by rw [hframe]⟩

theorem Hub.blockKept_foldl {α : Type} {f : Hub → α → Hub} {as : List α} (hf : ∀ x a, a ∈ as → Hub.BlockKept x (f x a)) (h : Hub) :
    h.BlockKept (as.foldl f h) := by
  induction as generalizing h with
  | nil => exact .refl h
  | cons a as ih => exact (hf h a List.mem_cons_self).trans (ih (fun x b hb => hf x b (List.mem_cons_of_mem _ hb)) _)

theorem Hub.blockKept_ringBegun (h : Hub) {k : Nat} (hk : k < 16) (st tm : Nat) : h.BlockKept (h.ringBegun k st tm) := by
  have hr : RSTC_BSTAT ≠ RING_STAT k := by unfold RSTC_BSTAT RING_STAT; omega
  exact ((h.blockKept_fset (f := RING_STAT_RATING k) _ hr).trans (Hub.blockKept_fset _ (f := RING_STAT_STATE k) _ hr)).trans ⟨rfl, rfl, rfl⟩

theorem State.recStart_kept (s : State) (tm : Nat) : s.OnlyHub (s.recStart tm) ∧ s.hub.BlockKept (s.recStart tm).hub := by
  unfold State.recStart
  extract_lets fr rr fm head taken page missing gone
  refine ⟨s.onlyHub_modHub _, ?_⟩
  rw [State.modHub_hub]
  extract_lets src r h₁ h₂ h₃
  have k₁ : s.hub.BlockKept h₁ := Hub.BlockKept.trans ⟨rfl, rfl, rfl⟩
    ((Hub.blockKept_fset { s.hub with rcd := r } (f := REC_STAT_RUN) 1 (by decide)).trans
      (Hub.blockKept_setRg _ (a := REC_FLUSHED) _ (by decide)))
  have k₂ : s.hub.BlockKept h₂ := k₁.trans (h₁.blockKept_newRecord _ _)
  have k₃ : s.hub.BlockKept h₃ := by
    unfold h₃
    split
    · exact k₂.trans (h₂.blockKept_newRecord _ _)
    · exact k₂
  clear_value missing h₃
  cases missing with
  | none => exact k₃
  | some q => exact k₃.trans ((h₃.blockKept_newRecord _ _).trans (Hub.blockKept_fset _ (f := REC_STAT_TAIL_FAIL) _ (by decide)))

/-- The registers of ring `k` that its reset clears. -/
def ringBlockRegs (k : Nat) : List Nat :=
  [RING_STAT k, RING_CYCLE k, RING_CLAIM k, RING_LOOP k, RING_BRK k, RING_PRESLO k, RING_PRESHI k, RING_ACKLO k, RING_ACKHI k, RING_ERR k]

theorem bstat_ne_ringReg {k a : Nat} (hk : k < 16) (ha : a ∈ ringBlockRegs k) : RSTC_BSTAT ≠ a := by
  simp only [ringBlockRegs, List.mem_cons, List.not_mem_nil, or_false, RING_STAT, RING_CYCLE, RING_CLAIM, RING_LOOP, RING_BRK, RING_PRESLO,
    RING_PRESHI, RING_ACKLO, RING_ACKHI, RING_ERR] at ha
  unfold RSTC_BSTAT
  omega

/-- The state of ring `k` after the reset of its block. -/
def Hub.ringBlockClear (h : Hub) (k tm : Nat) : Hub :=
  let u := ((ringBlockRegs k).foldl (fun (h : Hub) a => h.setRg a 0) h).modRing k fun (_ : RingInt) => ringReset
  if h.on (RING_STAT_UNMANNED k) then u.fset (RING_STAT_UNMANNED k) 1 else if u.on (RING_CTRL_EN k) then u.ringStart k tm else u

theorem Hub.blockKept_ringBlockClear (h : Hub) {k : Nat} (hk : k < 16) (tm : Nat) : h.BlockKept (h.ringBlockClear k tm) := by
  unfold Hub.ringBlockClear
  extract_lets u
  have hu : h.BlockKept u := (Hub.blockKept_foldl (fun x a ha => x.blockKept_setRg _ (bstat_ne_ringReg hk ha)) h).trans
    (Hub.blockKept_modRing _ _ _)
  split
  · exact hu.trans (u.blockKept_fset _ (bstat_ne_ringReg hk (a := RING_STAT k) List.mem_cons_self))
  · split
    · rw [Hub.ringStart_eq]
      exact hu.trans (u.blockKept_ringBegun hk _ _)
    · exact hu

/-- The state of CAN port `k` after the reset of its block. -/
def Hub.canBlockClear (h : Hub) (k : Nat) : Hub :=
  let u := (h.setRg (SGW_CANSTAT k) 0).setRg (SGW_CANCNT k) 0
  (u.sgw.dests.filter fun d => sdPort d.2 == k).foldl (fun (h : Hub) d => h.modDest d.1 fun (x : SgwDest) => { x with buf := none }) u

theorem Hub.blockKept_canBlockClear (h : Hub) {k : Nat} (hk : k < 16) : h.BlockKept (h.canBlockClear k) := by
  unfold Hub.canBlockClear
  extract_lets u
  have hu : h.BlockKept u := (h.blockKept_setRg _ (by unfold RSTC_BSTAT SGW_CANSTAT; omega)).trans
    (Hub.blockKept_setRg _ _ (by unfold RSTC_BSTAT SGW_CANCNT; omega))
  exact hu.trans (Hub.blockKept_foldl (fun x (d : Nat × List Word) _ => x.blockKept_modDest d.1 _) u)

/-- The reset of a block leaves the lanes, both flash devices and what the block reset itself stands in. -/
theorem State.blockClear_kept (s : State) (c tm : Nat) : s.OnlyHub (s.blockClear c tm) ∧ s.hub.BlockKept (s.blockClear c tm).hub := by
  have hk : c % 16 < 16 := Nat.mod_lt _ (by decide)
  have hmod {f : Hub → Hub} (h : s.hub.BlockKept (f s.hub)) : s.OnlyHub (s.modHub f) ∧ s.hub.BlockKept (s.modHub f).hub :=
    ⟨s.onlyHub_modHub f, by rw [State.modHub_hub]; exact h⟩
  unfold State.blockClear
  split
  · exact hmod (f := (·.ringBlockClear (c % 16) tm)) (s.hub.blockKept_ringBlockClear hk tm)
  · split
    · exact hmod (((s.hub.blockKept_fset (f := PTNR_STAT_UP0) 0 (by decide)).trans (Hub.blockKept_fset _ (f := PTNR_STAT_UP1) 0 (by decide))).trans
        ⟨rfl, rfl, rfl⟩)
    · split
      · exact hmod (f := (·.canBlockClear (c % 16))) (s.hub.blockKept_canBlockClear hk)
      · split
        · exact hmod ⟨rfl, rfl, rfl⟩
        · split
          · have hrec := ((s.hub.blockKept_setRg (s.hub.rg REC_STAT &&& 0xFFFF0004#32) (a := REC_STAT) (by decide)).trans
              (Hub.blockKept_setRg _ (a := REC_HEAD) 0 (by decide))).trans
              (v := { (s.hub.setRg REC_STAT (s.hub.rg REC_STAT &&& 0xFFFF0004#32)).setRg REC_HEAD 0 with rcd := recReset }) ⟨rfl, rfl, rfl⟩
            obtain ⟨honly, hkept⟩ := hmod (f := fun h => { (h.setRg REC_STAT (h.rg REC_STAT &&& 0xFFFF0004#32)).setRg REC_HEAD 0 with rcd := recReset }) hrec
            obtain ⟨honly', hkept'⟩ := State.recStart_kept
              (s.modHub fun h => { (h.setRg REC_STAT (h.rg REC_STAT &&& 0xFFFF0004#32)).setRg REC_HEAD 0 with rcd := recReset }) tm
            exact ⟨honly.trans honly', hkept.trans hkept'⟩
          · split
            · exact hmod ⟨rfl, rfl, rfl⟩
            · split
              · exact hmod ⟨rfl, rfl, rfl⟩
              · exact ⟨rfl, .refl _⟩

/-- The records of host commands under a key all stand with the status BLOCK_RESET, and one does. -/
def Hub.AllLost (h : Hub) (x : HostCmd) : Prop :=
  (∃ y ∈ h.host.cmds, y.q = x.q ∧ y.slot = x.slot ∧ y.ghost = x.ghost ∧ y.status = some 0xB) ∧
    ∀ y ∈ h.host.cmds, y.q = x.q → y.slot = x.slot → y.ghost = x.ghost → y.status = some 0xB

theorem Hub.mem_setCmd_iff {h : Hub} {c y : HostCmd} : y ∈ (h.setCmd c).host.cmds ↔
    (y ∈ h.host.cmds ∧ ¬(y.q = c.q ∧ y.slot = c.slot ∧ y.ghost = c.ghost)) ∨ y = c := by
  unfold Hub.setCmd
  rw [List.mem_append, List.mem_filter, List.mem_singleton]
  simp only [Bool.not_eq_true', Bool.and_eq_false_iff, beq_eq_false_iff_ne]
  tauto

theorem Hub.endCmd_cmds (h : Hub) (c : HostCmd) (st detail : Nat) (result : Dword) (dout : List Byte) :
    (h.endCmd c st detail result dout).host.cmds = (h.setCmd { c with
      status := some (BitVec.ofNat 16 st), detail := BitVec.ofNat 16 detail, result := result, dout := dout }).host.cmds := by
  unfold Hub.endCmd
  rw [Hub.countQueues_host]

/-- A command ended BLOCK_RESET leaves none of its key otherwise. -/
theorem Hub.allLost_endCmd (h : Hub) (x : HostCmd) : (h.endCmd x stBlockReset 0 0 []).AllLost x := by
  unfold Hub.AllLost
  rw [Hub.endCmd_cmds]
  refine ⟨⟨_, Hub.mem_setCmd_self _ _, rfl, rfl, rfl, rfl⟩, fun y hy hq hs hg => ?_⟩
  rcases Hub.mem_setCmd_iff.mp hy with ⟨-, hne⟩ | rfl
  · exact absurd ⟨hq, hs, hg⟩ hne
  · rfl

/-- Another command ended BLOCK_RESET, or one of another key with any status, keeps that. -/
theorem Hub.AllLost.endCmd {h : Hub} {x c : HostCmd} (a : h.AllLost x) (st detail : Nat) (result : Dword) (dout : List Byte)
    (hc : st = stBlockReset ∨ ¬(c.q = x.q ∧ c.slot = x.slot ∧ c.ghost = x.ghost)) : (h.endCmd c st detail result dout).AllLost x := by
  obtain ⟨⟨z, hz, zq, zs, zg, zst⟩, hall⟩ := a
  unfold Hub.AllLost
  rw [Hub.endCmd_cmds]
  by_cases hkey : c.q = x.q ∧ c.slot = x.slot ∧ c.ghost = x.ghost
  · have hst : st = stBlockReset := hc.resolve_right fun h => h hkey
    subst hst
    refine ⟨⟨_, Hub.mem_setCmd_self _ _, hkey.1, hkey.2.1, hkey.2.2, rfl⟩, fun y hy hq hs hg => ?_⟩
    rcases Hub.mem_setCmd_iff.mp hy with ⟨hy, -⟩ | rfl
    · exact hall y hy hq hs hg
    · rfl
  · refine ⟨⟨z, Hub.mem_setCmd_iff.mpr (Or.inl ⟨hz, fun h => hkey ⟨h.1.symm.trans zq, h.2.1.symm.trans zs, h.2.2.symm.trans zg⟩⟩), zq, zs, zg, zst⟩,
      fun y hy hq hs hg => ?_⟩
    rcases Hub.mem_setCmd_iff.mp hy with ⟨hy, -⟩ | rfl
    · exact hall y hy hq hs hg
    · exact absurd ⟨hq, hs, hg⟩ hkey

theorem Hub.AllLost.of_cmds {h u : Hub} {x : HostCmd} (a : h.AllLost x) (e : u.host.cmds = h.host.cmds) : u.AllLost x := by
  unfold Hub.AllLost
  rw [e]
  exact a

/-- What ending commands keeps: everything but their records and the counts of the queues. -/
theorem State.onlyCmds_trans {h u v : Hub} (a : h.OnlyCmds u) (b : u.OnlyCmds v) : h.OnlyCmds v := by
  refine ⟨?_, a.2.trans b.2⟩
  rw [b.1, a.1]

/-- The commands a block serves, ended BLOCK_RESET. -/
def State.endLost (s : State) (lost : List HostCmd) : State :=
  lost.foldl (fun (s : State) x => s.modHub (·.endCmd x stBlockReset 0 0 [])) s

theorem State.endLost_spec (lost : List HostCmd) (s : State) : s.OnlyHub (s.endLost lost) ∧ s.hub.OnlyCmds (s.endLost lost).hub ∧
    ∀ x, x ∈ lost ∨ s.hub.AllLost x → (s.endLost lost).hub.AllLost x := by
  induction lost generalizing s with
  | nil => exact ⟨rfl, ⟨rfl, fun _ _ => rfl⟩, fun x hx => hx.resolve_left List.not_mem_nil⟩
  | cons c lost ih =>
    have hstep : (s.modHub (·.endCmd c stBlockReset 0 0 [])).hub = s.hub.endCmd c stBlockReset 0 0 [] := State.modHub_hub _ _
    obtain ⟨honly, hcmds, hlost⟩ := ih (s.modHub (·.endCmd c stBlockReset 0 0 []))
    rw [hstep] at hcmds hlost
    rw [State.endLost, List.foldl_cons, ← State.endLost]
    generalize (s.modHub (·.endCmd c stBlockReset 0 0 [])).endLost lost = v at *
    refine ⟨(s.onlyHub_modHub _).trans honly, State.onlyCmds_trans (s.hub.endCmd_spec c stBlockReset 0 0 []).1 hcmds, fun x hx => hlost x ?_⟩
    rcases hx with hx | hx
    · rcases List.mem_cons.mp hx with rfl | hx
      · exact Or.inr (s.hub.allLost_endCmd x)
      · exact Or.inl hx
    · exact Or.inr (hx.endCmd _ _ _ _ (Or.inl rfl))

/-- The commands that asked for the reset, ended OK. -/
def State.endAsked (s : State) (asked : List CmdRef) : State := asked.foldl (fun (s : State) r => s.endWith r stOk 0) s

theorem State.endAsked_spec (asked : List CmdRef) (s : State) : s.OnlyHub (s.endAsked asked) ∧ s.hub.OnlyCmds (s.endAsked asked).hub ∧
    ∀ x, s.hub.AllLost x → (s.endAsked asked).hub.AllLost x := by
  induction asked generalizing s with
  | nil => exact ⟨rfl, ⟨rfl, fun _ _ => rfl⟩, fun _ hx => hx⟩
  | cons r asked ih =>
    obtain ⟨honly, hcmds, hlost⟩ := ih (s.endWith r stOk 0)
    rw [State.endAsked, List.foldl_cons, ← State.endAsked]
    generalize (s.endWith r stOk 0).endAsked asked = v at *
    cases ho : s.hub.openCmd r.q r.slot with
    | none =>
      have heq : s.endWith r stOk 0 = s := by
        unfold State.endWith State.endRef
        simp only [ho]
      rw [heq] at honly hcmds hlost
      exact ⟨honly, hcmds, hlost⟩
    | some c =>
      obtain ⟨hmem, -, -, -, hnone⟩ := Hub.openCmd_some ho
      have heq : s.endWith r stOk 0 = s.modHub (·.endCmd c stOk 0 0 []) := State.endRef_open ho _ _ _ _
      have hstep : (s.endWith r stOk 0).hub = s.hub.endCmd c stOk 0 0 [] := by rw [heq]; exact State.modHub_hub _ _
      rw [hstep] at hcmds hlost
      refine ⟨(show s.OnlyHub (s.endWith r stOk 0) by rw [heq]; exact s.onlyHub_modHub _).trans honly,
        State.onlyCmds_trans (s.hub.endCmd_spec c stOk 0 0 []).1 hcmds, fun x hx => hlost x (hx.endCmd _ _ _ _ (Or.inr fun hk => ?_))⟩
      have := hx.2 c hmem hk.1 hk.2.1 hk.2.2
      rw [hnone] at this
      exact absurd this (by decide)

/-- The register of the block resets after one ended. -/
def Hub.blockEnded (h : Hub) (c : Nat) (forced : Bool) : Hub :=
  let u := (h.fset RSTC_BSTAT_BUSY 0).fset RSTC_BSTAT_LAST c
  let u := if forced then u.fset RSTC_BSTAT_FORCED 1 else u
  { u with brst := none, host := { u.host with reinit := [] } }

theorem State.blockFinish_eq {s : State} {c since : Nat} (h : s.hub.brst = some (c, since)) (tm : Nat) (forced : Bool) :
    s.blockFinish tm forced = ((((s.endLost (s.hub.host.cmds.filter (s.hub.servedBy c))).modHub (·.blockEnded c forced)).blockClear c tm).endAsked
      s.hub.host.reinit) := by
  unfold State.blockFinish
  simp only [h]
  rfl

theorem Hub.blockEnded_spec (h : Hub) {c : Nat} (hc : c < 256) (forced : Bool) :
    (h.blockEnded c forced).host.cmds = h.host.cmds ∧ (h.blockEnded c forced).host.reinit = [] ∧ (h.blockEnded c forced).brst = none ∧
      (h.blockEnded c forced).on RSTC_BSTAT_BUSY = false ∧ (h.blockEnded c forced).fget RSTC_BSTAT_LAST = c ∧
      (h.blockEnded c forced).on RSTC_BSTAT_FORCED = (forced || h.on RSTC_BSTAT_FORCED) := by
  have hbusy : (((h.fset RSTC_BSTAT_BUSY 0).fset RSTC_BSTAT_LAST c)).on RSTC_BSTAT_BUSY = false := by
    rw [Hub.on, Hub.fget_fset_apart _ _ (by rfl) (by rfl) (by rfl), Hub.fget_fset_set _ _ _ (by rfl)]
    rfl
  have hlast : (((h.fset RSTC_BSTAT_BUSY 0).fset RSTC_BSTAT_LAST c)).fget RSTC_BSTAT_LAST = c := by
    rw [Hub.fget_fset_set _ _ _ (by rfl)]
    exact Nat.mod_eq_of_lt hc
  have hforced : (((h.fset RSTC_BSTAT_BUSY 0).fset RSTC_BSTAT_LAST c)).on RSTC_BSTAT_FORCED = h.on RSTC_BSTAT_FORCED := by
    rw [Hub.on, Hub.fget_fset_apart _ _ (by rfl) (by rfl) (by rfl), Hub.fget_fset_apart _ _ (by rfl) (by rfl) (by rfl), Hub.on]
  have hhost : (((h.fset RSTC_BSTAT_BUSY 0).fset RSTC_BSTAT_LAST c)).host = h.host := rfl
  unfold Hub.blockEnded
  generalize (h.fset RSTC_BSTAT_BUSY 0).fset RSTC_BSTAT_LAST c = u at *
  cases forced
  · exact ⟨congrArg (·.cmds) hhost, rfl, rfl, hbusy, hlast, hforced⟩
  · refine ⟨congrArg (·.cmds) hhost, rfl, rfl, ?_, ?_, u.on_fset_set RSTC_BSTAT_FORCED rfl rfl⟩
    · exact (congrArg (· == 1) (Hub.fget_fset_apart u (f := RSTC_BSTAT_FORCED) (g := RSTC_BSTAT_BUSY) 1 (by rfl) (by rfl) (by rfl))).trans hbusy
    · exact (Hub.fget_fset_apart u (f := RSTC_BSTAT_FORCED) (g := RSTC_BSTAT_LAST) 1 (by rfl) (by rfl) (by rfl)).trans hlast

theorem Hub.OnlyCmds.bstat {h u : Hub} (a : h.OnlyCmds u) {f : Fld} (hf : f.addr = RSTC_BSTAT) : u.fget f = h.fget f :=
  Hub.RegsKept.fget a.2 (by rw [hf]; decide)

theorem Hub.BlockKept.fget {h u : Hub} (a : h.BlockKept u) {f : Fld} (hf : f.addr = RSTC_BSTAT) : u.fget f = h.fget f := by
  rw [Hub.fget, hf, a.1, Hub.fget, hf]

/-- What the end of a block reset leaves. -/
theorem State.blockFinish_spec {s : State} {c since : Nat} (h : s.hub.brst = some (c, since)) (hc : c < 256) (tm : Nat) (forced : Bool) :
    s.OnlyHub (s.blockFinish tm forced) ∧ (s.blockFinish tm forced).hub.brst = none ∧ (s.blockFinish tm forced).hub.host.reinit = [] ∧
      (s.blockFinish tm forced).hub.on RSTC_BSTAT_BUSY = false ∧ (s.blockFinish tm forced).hub.fget RSTC_BSTAT_LAST = c ∧
      (s.blockFinish tm forced).hub.on RSTC_BSTAT_FORCED = (forced || s.hub.on RSTC_BSTAT_FORCED) ∧
      ∀ x ∈ s.hub.host.cmds, s.hub.servedBy c x = true → (s.blockFinish tm forced).hub.AllLost x := by
  rw [State.blockFinish_eq h]
  obtain ⟨ho₁, hc₁, hl₁⟩ := State.endLost_spec (s.hub.host.cmds.filter (s.hub.servedBy c)) s
  generalize s.endLost (s.hub.host.cmds.filter (s.hub.servedBy c)) = u₁ at *
  obtain ⟨ecmds, ereinit, ebrst, ebusy, elast, eforced⟩ := u₁.hub.blockEnded_spec hc forced
  have ho₂ := u₁.onlyHub_modHub (·.blockEnded c forced)
  have hh₂ : (u₁.modHub (·.blockEnded c forced)).hub = u₁.hub.blockEnded c forced := State.modHub_hub _ _
  generalize u₁.modHub (·.blockEnded c forced) = u₂ at *
  obtain ⟨ho₃, hk₃⟩ := u₂.blockClear_kept c tm
  generalize u₂.blockClear c tm = u₃ at *
  obtain ⟨ho₄, hc₄, hl₄⟩ := State.endAsked_spec s.hub.host.reinit u₃
  generalize u₃.endAsked s.hub.host.reinit = u₄ at *
  rw [← hh₂] at ecmds ereinit ebrst ebusy elast eforced
  have hget {f : Fld} (hf : f.addr = RSTC_BSTAT) : u₄.hub.fget f = u₂.hub.fget f := (hc₄.bstat hf).trans (hk₃.fget hf)
  have hon {f : Fld} (hf : f.addr = RSTC_BSTAT) : u₄.hub.on f = u₂.hub.on f := by rw [Hub.on, hget hf, Hub.on]
  refine ⟨((ho₁.trans ho₂).trans ho₃).trans ho₄, ?_, ?_, (hon rfl).trans ebusy, (hget rfl).trans elast, ?_, fun x hx hs => hl₄ x ?_⟩
  · rw [hc₄.1]
    exact hk₃.2.2.trans ebrst
  · rw [hc₄.1]
    exact (congrArg (·.reinit) hk₃.2.1).trans ereinit
  · rw [hon rfl, eforced, Hub.on, hc₁.bstat rfl, Hub.on]
  · have hx₁ : u₁.hub.AllLost x := hl₁ x (Or.inl (List.mem_filter.mpr ⟨hx, hs⟩))
    exact (hx₁.of_cmds ecmds).of_cmds (congrArg (·.cmds) hk₃.2.1)

theorem blocksGoIdle (s : State) (code since tm : Nat) (h : s.hub.brst = some (code, since)) (hc : code < 256) :
     (∃ t, exec (.blockIdleAck tm) s = .next t ∧
       t.hub.brst = none ∧ t.hub.on RSTC_BSTAT_BUSY = false ∧ t.hub.fget RSTC_BSTAT_LAST = code ∧ t.hub.host.reinit = [] ∧
         t.hub.on RSTC_BSTAT_FORCED = s.hub.on RSTC_BSTAT_FORCED ∧ t.flash0 = s.flash0 ∧ t.flash1 = s.flash1 ∧ (∀ l, t.lane l = s.lane l) ∧
         ∀ x ∈ s.hub.host.cmds, s.hub.servedBy code x = true →
           ∃ y ∈ t.hub.host.cmds, y.q = x.q ∧ y.slot = x.slot ∧ y.status = some 0xB) ∧
     (∃ t, exec (.blockIdleTimeout tm) s = .next t ∧ (∀ l, t.lane l = s.lane l) ∧
       (tm < since + s.hub.idleTimeout code → t.hub = s.hub) ∧
       (since + s.hub.idleTimeout code ≤ tm → t.hub.brst = none ∧ t.hub.on RSTC_BSTAT_BUSY = false ∧ t.hub.on RSTC_BSTAT_FORCED = true)) := by
  have hat : (s.at tm).hub.brst = some (code, since) := h
  have hlanes {t : State} (ho : (s.at tm).OnlyHub t) (l : LaneId) : t.lane l = s.lane l := by
    rw [ho]
    cases l <;> rfl
  constructor
  · obtain ⟨ho, hb, hr, hbusy, hlast, hforced, hlost⟩ := State.blockFinish_spec hat hc tm false
    refine ⟨(s.at tm).blockFinish tm false, rfl, hb, hbusy, hlast, hr, hforced, ?_, ?_, hlanes ho, fun x hx hs => ?_⟩
    · rw [ho]
      rfl
    · rw [ho]
      rfl
    · obtain ⟨⟨y, hy, hq, hsl, -, hst⟩, -⟩ := hlost x hx hs
      exact ⟨y, hy, hq, hsl, hst⟩
  · have heq : (s.at tm).blockTimeout tm = if since + s.hub.idleTimeout code ≤ tm then (s.at tm).blockFinish tm true else s.at tm := by
      unfold State.blockTimeout
      simp only [hat]
      rfl
    refine ⟨_, done_of_eq heq, fun l => ?_, fun ht => ?_, fun ht => ?_⟩
    · split
      · exact hlanes (State.blockFinish_spec hat hc tm true).1 l
      · exact s.at_lane tm l
    · rw [if_neg (by omega)]
      rfl
    · obtain ⟨-, hb, -, hbusy, -, hforced, -⟩ := State.blockFinish_spec hat hc tm true
      rw [if_pos ht]
      exact ⟨hb, hbusy, hforced⟩

/-- Settles O51: the interface, the module and the blocks, each through what its reset leaves. -/
theorem interfaceAndBlocksAreResetAlone : Obligations.InterfaceAndBlocksAreResetAlone :=
  ⟨⟨fun s _ hspi => ⟨s, done_of_eq (if_pos (by simp [hspi])), rfl⟩, interfaceIsReset, deviceIsReset, powerIsCycled, powerPulseEnds, moduleResetIsAsked,
    moduleResetIsAsserted⟩, blocksAreAsked, functionsAreReinitialised, blocksGoIdle⟩

end Sys2Proof.Machine
end
section
/-! PROOFS. The statement on clock failures (R485 to R488, R496). -/

namespace Sys2Proof.Machine

/-! ### A lane's clock (R485, R486) -/

/-- A lane held until its crystal is good. -/
def Lane.clkHeld (x : Lane) : Lane := { x with rst := { x.rst with clkHold := true, goodWin := 0 } }

theorem Lane.clkHeld_fget (x : Lane) (f : Fld) : x.clkHeld.fget f = x.fget f := rfl

/-- A lane with the failure of its crystal, or of its main PLL, told. -/
def Lane.clkTold (x : Lane) (pll : Bool) : Lane :=
  let y := ((x.fset (if pll then CLKC_STAT_UNLOCK else CLKC_STAT_XFAIL) 1).fset CLKC_STAT_ONRC 1).fset CLKC_STAT_LOCK 0
  if pll then y else y.fset CLKC_STAT_XOK 0

/-- A lane whose crystal, or whose main PLL, has failed. -/
def Lane.clkStopped (x : Lane) (pll : Bool) : Lane := (x.clkTold pll).clkHeld

theorem Lane.clkTold_pll (x : Lane) : x.clkTold true = ((x.fset CLKC_STAT_UNLOCK 1).fset CLKC_STAT_ONRC 1).fset CLKC_STAT_LOCK 0 := rfl

theorem Lane.clkTold_crystal (x : Lane) :
    x.clkTold false = (((x.fset CLKC_STAT_XFAIL 1).fset CLKC_STAT_ONRC 1).fset CLKC_STAT_LOCK 0).fset CLKC_STAT_XOK 0 := rfl

/-- A lane with its next reset due. -/
def Lane.dueFor (x : Lane) (cold : Bool) (cause d : Nat) : Lane := { x with rst := { x.rst with due := some (cold, cause, d) } }

theorem State.laneClockFail_none {s : State} {l : LaneId} (hl : (s.lane l).rst.held = false) (hd : (s.lane l).rst.due = none) (pll : Bool) :
    s.laneClockFail l pll = ((s.modLane l (·.clkStopped pll)).leaveAtOnce l leaveClock causeClkf).modLane l
      (·.dueFor false causeClkf ((s.modLane l (·.clkStopped pll)).now + tenMicros)) := by
  unfold State.laneClockFail
  dsimp only
  rw [if_neg (by rw [hl]; decide)]
  simp only [hd]
  rfl

theorem State.laneClockFail_due {s : State} {l : LaneId} (hl : (s.lane l).rst.held = false) {d : Bool × Nat × Nat} (hd : (s.lane l).rst.due = some d)
    (pll : Bool) : s.laneClockFail l pll = (s.modLane l (·.clkStopped pll)).modLane l fun x =>
      x.setRg RST_CAUSE (x.rg RST_CAUSE ||| causeWord [causeClkf]) := by
  unfold State.laneClockFail
  dsimp only
  rw [if_neg (by rw [hl]; decide)]
  simp only [hd]
  rfl

theorem Lane.clkStopped_regs (x : Lane) (pll : Bool) : x.RegsKept (x.clkStopped pll) [CLKC_STAT] := by
  have hheld : (x.clkTold pll).RegsKept (x.clkStopped pll) [CLKC_STAT] := Lane.regsKept_of_reg_eq rfl _
  refine Lane.RegsKept.trans ?_ hheld
  have hset (y : Lane) {f : Fld} (v : Nat) (hf : f.addr = CLKC_STAT) : y.RegsKept (y.fset f v) [CLKC_STAT] :=
    y.regsKept_fset v (by rw [hf]; exact List.mem_singleton_self _)
  cases pll
  · rw [Lane.clkTold_crystal]
    exact (((hset _ _ rfl).trans (hset _ _ rfl)).trans (hset _ _ rfl)).trans (hset _ _ rfl)
  · rw [Lane.clkTold_pll]
    exact ((hset _ _ rfl).trans (hset _ _ rfl)).trans (hset _ _ rfl)

theorem Lane.clkStopped_rst (x : Lane) (pll : Bool) : (x.clkStopped pll).rst = { x.rst with clkHold := true, goodWin := 0 } := by
  cases pll <;> rfl

theorem Lane.clkStopped_fget (x : Lane) (pll : Bool) {f : Fld} (ha : f.addr = CLKC_STAT) (h6 : 6 ≤ f.lo) (h32 : f.lo + f.w ≤ 32) :
    (x.clkStopped pll).fget f = x.fget f := by
  have h (y : Lane) {g : Fld} (v : Nat) (hg : g.addr = CLKC_STAT) (hw : g.lo + g.w ≤ 6) : (y.fset g v).fget f = y.fget f :=
    Lane.fget_fset_bits _ v (ha.trans hg.symm) h32 (Or.inr (by omega))
  rw [Lane.clkStopped, Lane.clkHeld_fget]
  cases pll
  · rw [Lane.clkTold_crystal, h _ _ rfl (by decide), h _ _ rfl (by decide), h _ _ rfl (by decide), h _ _ rfl (by decide)]
  · rw [Lane.clkTold_pll, h _ _ rfl (by decide), h _ _ rfl (by decide), h _ _ rfl (by decide)]

/-- What a stopped crystal or a lost lock shows. -/
theorem Lane.clkStopped_shown (x : Lane) :
    (x.clkStopped false).fget CLKC_STAT_XFAIL = 1 ∧ (x.clkStopped false).fget CLKC_STAT_XOK = 0 ∧ (x.clkStopped true).fget CLKC_STAT_UNLOCK = 1 := by
  refine ⟨?_, ?_, ?_⟩ <;> rw [Lane.clkStopped, Lane.clkHeld_fget]
  · rw [Lane.clkTold_crystal, Lane.fget_fset_bits _ _ (by rfl) (by decide) (by decide), Lane.fget_fset_bits _ _ (by rfl) (by decide) (by decide),
      Lane.fget_fset_bits _ _ (by rfl) (by decide) (by decide), Lane.fget_fset_same _ _ _ (by decide)]
    rfl
  · rw [Lane.clkTold_crystal, Lane.fget_fset_same _ _ _ (by decide)]
    rfl
  · rw [Lane.clkTold_pll, Lane.fget_fset_bits _ _ (by rfl) (by decide) (by decide), Lane.fget_fset_bits _ _ (by rfl) (by decide) (by decide),
      Lane.fget_fset_same _ _ _ (by decide)]
    rfl

/-- While another lane votes a clock failure of lane `l` changes no other lane. -/
theorem State.laneClockFail_alone {s : State} {l : LaneId} (hl : (s.lane l).rst.held = false) (pll : Bool)
    (hv : ∃ y, y ≠ l ∧ (s.lane y).inVote = true) (k : LaneId) (hk : k ≠ l) : (s.laneClockFail l pll).lane k = s.lane k := by
  cases hd : (s.lane l).rst.due with
  | some d => rw [State.laneClockFail_due hl hd, State.lane_modLane_ne _ _ hk, State.lane_modLane_ne _ _ hk]
  | none =>
    obtain ⟨y, hy, hyv⟩ := hv
    rw [State.laneClockFail_none hl hd, State.lane_modLane_ne _ _ hk]
    have honly := State.leave_onlyLane (s := s.modLane l (·.clkStopped pll)) hy (by rw [State.lane_modLane_ne _ _ hy]; exact hyv)
      leaveClock 0 0 ((s.modLane l (·.clkStopped pll)).now + tenMicros) causeClkf
    exact (honly.1 k hk).trans (State.lane_modLane_ne _ _ hk)

/-- A clock failure keeps the fields that neither it nor a leave writes. -/
theorem State.laneClockFail_fget {s : State} {l : LaneId} (hl : (s.lane l).rst.held = false) (pll : Bool) {f : Fld} (hf : f.addr ∉ leaveWrites)
    (hc : f.addr ≠ RST_CAUSE) : ((s.laneClockFail l pll).lane l).fget f = ((s.lane l).clkStopped pll).fget f := by
  have hlane : (s.modLane l (·.clkStopped pll)).lane l = (s.lane l).clkStopped pll := State.lane_modLane _ _ _
  cases hd : (s.lane l).rst.due with
  | some d =>
    rw [State.laneClockFail_due hl hd, State.lane_modLane, hlane]
    exact Lane.fget_setRg_ne _ _ hc
  | none =>
    rw [State.laneClockFail_none hl hd, State.lane_modLane]
    have hheld : ((s.modLane l (·.clkStopped pll)).lane l).rst.held = false := by rw [hlane, Lane.clkStopped_rst]; exact hl
    rw [← hlane]
    exact State.leave_fget_kept hheld leaveClock 0 0 ((s.modLane l (·.clkStopped pll)).now + tenMicros) causeClkf hf

/-- A voter whose clock fails leaves with reason CLOCK, and its reset is due 10 µs later. -/
theorem State.laneClockFail_voter {s : State} {l : LaneId} (hl : (s.lane l).rst.held = false) (hd : (s.lane l).rst.due = none)
    (hv : (s.lane l).inVote = true) (he : (s.lane l).easy = false) (pll : Bool) :
    ((s.laneClockFail l pll).lane l).inVote = false ∧ ((s.laneClockFail l pll).lane l).fget VOTE_LEAVE_REASON = 8 ∧
      ((s.laneClockFail l pll).lane l).rst.clkHold = true ∧ ((s.laneClockFail l pll).lane l).rst.due = some (false, 6, s.now + 10000) := by
  have hlane : (s.modLane l (·.clkStopped pll)).lane l = (s.lane l).clkStopped pll := State.lane_modLane _ _ _
  have hnow : (s.modLane l (·.clkStopped pll)).now = s.now := State.modLane_now _ _ _
  have hkept := (s.lane l).clkStopped_regs pll
  rw [State.laneClockFail_none hl hd, State.lane_modLane]
  generalize hu : s.modLane l (·.clkStopped pll) = u at *
  have heasy : (u.lane l).easy = false := by rw [hlane, hkept.easy (by decide)]; exact he
  have hvote : (u.lane l).inVote = true := by rw [hlane, hkept.inVote (by decide)]; exact hv
  have hleft : (u.lane l).LeavesFor ((u.lane l).leaveNow leaveClock 0 0 (u.now + tenMicros) causeClkf) leaveClock causeClkf false (u.now + tenMicros) :=
    ⟨Lane.leaveNow_inVote _ _ _ _ _ _, (Lane.leaveNow_rest _ _ _ _ _ _).1, Lane.leaveNow_reason _ _ _ _ _ _, Lane.leaveNow_rst _ _ _ _ _ _⟩
  obtain ⟨hout, -, hreason, hrst⟩ := Lane.leavesFor_easyOr hleft (State.leave_self heasy hvote leaveClock 0 0 (u.now + tenMicros) causeClkf)
  rw [State.leaveAtOnce]
  generalize (u.leave l leaveClock 0 0 (u.now + tenMicros) causeClkf).lane l = z at *
  refine ⟨hout, hreason, ?_, ?_⟩
  · show z.rst.clkHold = true
    rw [hrst, hlane, Lane.clkStopped_rst]
  · show some (false, causeClkf, u.now + tenMicros) = _
    rw [hnow]
    rfl

/-! ### CLOCK_MONITOR_WINDOW (R485, R486) -/

/-- The reset controller of a lane after a window of its crystal. -/
def RstInt.counted (r : RstInt) (good : Bool) : RstInt :=
  let g := if good then satInc 2 r.goodWin else 0
  { r with goodWin := g, badWin := if good then 0 else satInc 2 r.badWin, clkHold := r.clkHold && decide (g < 2) }

/-- A lane after a window of its crystal. -/
def Lane.clkWindow (x : Lane) (cnt : Nat) : Lane :=
  let y := { x.fset CLKC_STAT_XCNT (min 1023 cnt) with rst := x.rst.counted (xtalGood cnt) }
  if (if xtalGood cnt then satInc 2 x.rst.goodWin else 0) = 2 then y.fset CLKC_STAT_XOK 1 else y

theorem State.laneWindow_eq (s : State) (l : LaneId) (cnt : Nat) : s.laneWindow l cnt =
    if ((s.modLane l (·.clkWindow cnt)).lane l).rst.badWin = 2 then (s.modLane l (·.clkWindow cnt)).laneClockFail l false
    else s.modLane l (·.clkWindow cnt) := rfl

theorem Lane.clkWindow_spec (x : Lane) (cnt : Nat) :
    x.RegsKept (x.clkWindow cnt) [CLKC_STAT] ∧ (x.clkWindow cnt).fget CLKC_STAT_XCNT = min 1023 cnt ∧
      (x.clkWindow cnt).rst = x.rst.counted (xtalGood cnt) := by
  have hset : x.RegsKept (x.fset CLKC_STAT_XCNT (min 1023 cnt)) [CLKC_STAT] := x.regsKept_fset _ (List.mem_singleton_self _)
  have hcnt : (x.fset CLKC_STAT_XCNT (min 1023 cnt)).fget CLKC_STAT_XCNT = min 1023 cnt := by
    rw [Lane.fget_fset_same _ _ _ (by decide)]
    exact Nat.mod_eq_of_lt (by show min 1023 cnt < 1024; omega)
  unfold Lane.clkWindow
  generalize hy : x.fset CLKC_STAT_XCNT (min 1023 cnt) = y at *
  have hz : y.RegsKept { y with rst := x.rst.counted (xtalGood cnt) } [CLKC_STAT] := Lane.regsKept_of_reg_eq rfl _
  have hzc : ({ y with rst := x.rst.counted (xtalGood cnt) } : Lane).fget CLKC_STAT_XCNT = min 1023 cnt := hcnt
  have hzr : ({ y with rst := x.rst.counted (xtalGood cnt) } : Lane).rst = x.rst.counted (xtalGood cnt) := rfl
  dsimp only
  generalize ({ y with rst := x.rst.counted (xtalGood cnt) } : Lane) = z at *
  by_cases hg : (if xtalGood cnt then satInc 2 x.rst.goodWin else 0) = 2
  · rw [if_pos hg]
    refine ⟨(hset.trans hz).trans (z.regsKept_fset _ (List.mem_singleton_self _)), ?_, hzr⟩
    rw [Lane.fget_fset_bits _ _ (by rfl) (by decide) (by decide), hzc]
  · rw [if_neg hg]
    exact ⟨hset.trans hz, hzc, hzr⟩

theorem xtalGood_iff (cnt : Nat) : xtalGood cnt = true ↔ 461 ≤ cnt ∧ cnt ≤ 563 := by
  unfold xtalGood
  simp

theorem laneClocksAreWatched (s : State) (l : LaneId) (cnt xt tm : Nat) (hl : (s.lane l).rst.held = false) :
    ∃ t, exec (.clockMonitorWindow (.lane l) cnt xt tm) s = .next t ∧
      ((∃ y, y ≠ l ∧ (s.lane y).inVote = true) → ∀ k, k ≠ l → t.lane k = s.lane k) ∧
      (t.lane l).fget CLKC_STAT_XCNT = min 1023 cnt ∧
      (461 ≤ cnt → cnt ≤ 563 → t.hub = s.hub ∧ (s.lane l).RegsKept (t.lane l) [CLKC_STAT] ∧ (t.lane l).rst.badWin = 0) ∧
      ((cnt < 461 ∨ 563 < cnt) → (s.lane l).rst.badWin = 0 → t.hub = s.hub ∧ (s.lane l).RegsKept (t.lane l) [CLKC_STAT] ∧
        (t.lane l).rst.badWin = 1) ∧
      ((cnt < 461 ∨ 563 < cnt) → (s.lane l).rst.badWin = 1 → (s.lane l).rst.due = none → (s.lane l).inVote = true → (s.lane l).easy = false →
        (t.lane l).inVote = false ∧ (t.lane l).fget VOTE_LEAVE_REASON = 8 ∧ (t.lane l).on CLKC_STAT_XFAIL = true ∧
        (t.lane l).rst.clkHold = true ∧ (t.lane l).rst.due = some (false, 6, max s.now tm + 10000)) := by
  refine ⟨(s.at tm).laneWindow l cnt, rfl, ?_⟩
  rw [State.laneWindow_eq]
  have hlane : ((s.at tm).modLane l (·.clkWindow cnt)).lane l = (s.lane l).clkWindow cnt := (State.lane_modLane _ _ _).trans (by rw [State.at_lane])
  have hother (k : LaneId) (hk : k ≠ l) : ((s.at tm).modLane l (·.clkWindow cnt)).lane k = s.lane k :=
    (State.lane_modLane_ne _ _ hk).trans (s.at_lane tm k)
  have hhub : ((s.at tm).modLane l (·.clkWindow cnt)).hub = s.hub := (State.modLane_hub _ _ _).trans (s.at_hub tm)
  have hnow : ((s.at tm).modLane l (·.clkWindow cnt)).now = max s.now tm := State.modLane_now _ _ _
  obtain ⟨hregs, hcnt, hrst⟩ := (s.lane l).clkWindow_spec cnt
  generalize (s.at tm).modLane l (·.clkWindow cnt) = u at *
  have hheld : (u.lane l).rst.held = false := by rw [hlane, hrst]; exact hl
  have hbad : (u.lane l).rst.badWin = if xtalGood cnt then 0 else satInc 2 (s.lane l).rst.badWin := by rw [hlane, hrst]; rfl
  refine ⟨fun hv k hk => ?_, ?_, fun h1 h2 => ?_, fun hb h0 => ?_, fun hb h1 hd hv he => ?_⟩
  · split
    · obtain ⟨y, hy, hyv⟩ := hv
      exact (State.laneClockFail_alone hheld false ⟨y, hy, by rw [hother y hy]; exact hyv⟩ k hk).trans (hother k hk)
    · exact hother k hk
  · split
    · rw [State.laneClockFail_fget hheld false (by decide) (by decide), Lane.clkStopped_fget _ _ rfl (by decide) (by decide), hlane, hcnt]
    · rw [hlane, hcnt]
  · rw [if_pos ((xtalGood_iff cnt).mpr ⟨h1, h2⟩)] at hbad
    rw [if_neg (by rw [hbad]; decide)]
    exact ⟨hhub, by rw [hlane]; exact hregs, hbad⟩
  · rw [if_neg (by rw [xtalGood_iff]; omega), h0] at hbad
    rw [if_neg (by rw [hbad]; decide)]
    exact ⟨hhub, by rw [hlane]; exact hregs, hbad⟩
  · rw [if_neg (by rw [xtalGood_iff]; omega), h1] at hbad
    rw [if_pos (show (u.lane l).rst.badWin = 2 from hbad)]
    obtain ⟨hout, hreason, hhold, hdue⟩ := State.laneClockFail_voter (s := u) (l := l) hheld (by rw [hlane, hrst]; exact hd)
      (by rw [hlane, hregs.inVote (by decide)]; exact hv) (by rw [hlane, hregs.easy (by decide)]; exact he) false
    refine ⟨hout, hreason, ?_, hhold, by rw [hdue, hnow]⟩
    rw [Lane.on, State.laneClockFail_fget hheld false (by decide) (by decide), (u.lane l).clkStopped_shown.1]
    rfl

/-! ### CRYSTAL_STOP and PLL_UNLOCK (R486, R487, R496) -/

theorem laneClocksFail (s : State) (l : LaneId) (pll : Bool) (tm : Nat) (hl : (s.lane l).rst.held = false) (hd : (s.lane l).rst.due = none)
    (hv : (s.lane l).inVote = true) (he : (s.lane l).easy = false) :
    (∃ t, exec (.crystalStop (.lane l) false tm) s = .next t ∧ ((∃ y, y ≠ l ∧ (s.lane y).inVote = true) → ∀ k, k ≠ l → t.lane k = s.lane k) ∧
      (t.lane l).inVote = false ∧ (t.lane l).fget VOTE_LEAVE_REASON = 8 ∧ (t.lane l).on CLKC_STAT_XOK = false ∧
      (t.lane l).rst.due = some (false, 6, max s.now tm + 10000)) ∧
    (∃ t, exec (.pllUnlock (.lane l) false pll tm) s = .next t ∧ ((∃ y, y ≠ l ∧ (s.lane y).inVote = true) → ∀ k, k ≠ l → t.lane k = s.lane k) ∧
      (t.lane l).inVote = false ∧ (t.lane l).fget VOTE_LEAVE_REASON = 8 ∧ (t.lane l).on CLKC_STAT_UNLOCK = true ∧
      (t.lane l).rst.due = some (false, 6, max s.now tm + 10000)) := by
  have hlane (k : LaneId) : (s.at tm).lane k = s.lane k := s.at_lane tm k
  have hat : (s.at tm).now = max s.now tm := rfl
  have hcrystal : exec (.crystalStop (.lane l) false tm) s = .next ((s.at tm).laneClockFail l false) := rfl
  have hlock : exec (.pllUnlock (.lane l) false pll tm) s = .next ((s.at tm).laneClockFail l true) := rfl
  generalize s.at tm = u at *
  have hheld : (u.lane l).rst.held = false := by rw [hlane]; exact hl
  have hfail (p : Bool) := State.laneClockFail_voter (s := u) (l := l) hheld (by rw [hlane]; exact hd) (by rw [hlane]; exact hv)
    (by rw [hlane]; exact he) p
  have halone (p : Bool) (h : ∃ y, y ≠ l ∧ (s.lane y).inVote = true) (k : LaneId) (hk : k ≠ l) : (u.laneClockFail l p).lane k = s.lane k := by
    obtain ⟨y, hy, hyv⟩ := h
    exact (State.laneClockFail_alone hheld p ⟨y, hy, by rw [hlane]; exact hyv⟩ k hk).trans (hlane k)
  obtain ⟨-, hxok, hunlock⟩ := (u.lane l).clkStopped_shown
  refine ⟨⟨_, hcrystal, halone false, ?_⟩, ⟨_, hlock, halone true, ?_⟩⟩
  · obtain ⟨hout, hreason, -, hdue⟩ := hfail false
    refine ⟨hout, hreason, ?_, by rw [hdue, hat]⟩
    rw [Lane.on, State.laneClockFail_fget hheld false (by decide) (by decide), hxok]
    rfl
  · obtain ⟨hout, hreason, -, hdue⟩ := hfail true
    refine ⟨hout, hreason, ?_, by rw [hdue, hat]⟩
    rw [Lane.on, State.laneClockFail_fget hheld true (by decide) (by decide), hunlock]
    rfl

/-- XT, or its SerDes PLL, lost by a running hub. -/
theorem Hub.xtFail_spec {h : Hub} (hr : h.rst.held = false) (pll : Bool) (tm : Nat) :
    h.RegsKept (h.xtFail pll tm) [CLKC_HSTAT] ∧ (h.xtFail pll tm).ticks = false ∧ (h.xtFail pll tm).rst = { h.rst with badXt := 2, xtT := tm } ∧
      (h.xtFail pll tm).on (if pll then CLKC_HSTAT_SDLOCK else CLKC_HSTAT_XT_OK) = false := by
  have heq : h.xtFail pll tm = (({ h with ticks := false, rst := { h.rst with badXt := 2, xtT := tm } } : Hub).fset CLKC_HSTAT_XT_FAIL 1).fset
      (if pll then CLKC_HSTAT_SDLOCK else CLKC_HSTAT_XT_OK) 0 := by
    unfold Hub.xtFail
    exact if_neg (by simp [hr])
  rw [heq]
  generalize hy : ({ h with ticks := false, rst := { h.rst with badXt := 2, xtT := tm } } : Hub) = y
  have hreg : h.RegsKept y [CLKC_HSTAT] := Hub.regsKept_of_reg_eq (by rw [← hy]) _
  have hset := hreg.trans (y.regsKept_fset (f := CLKC_HSTAT_XT_FAIL) 1 (List.mem_singleton_self _))
  refine ⟨?_, by rw [← hy]; rfl, by rw [← hy]; rfl, ?_⟩
  · cases pll
    · exact hset.trans (Hub.regsKept_fset _ (f := CLKC_HSTAT_XT_OK) 0 (List.mem_singleton_self _))
    · exact hset.trans (Hub.regsKept_fset _ (f := CLKC_HSTAT_SDLOCK) 0 (List.mem_singleton_self _))
  · cases pll
    · exact congrArg (· == 1) (Hub.fget_fset_set _ CLKC_HSTAT_XT_OK 0 rfl)
    · exact congrArg (· == 1) (Hub.fget_fset_set _ CLKC_HSTAT_SDLOCK 0 rfl)

/-- XH, or the hub's main PLL, lost by a running hub. -/
theorem State.hubClockFail_spec {s : State} (hr : s.hub.rst.held = false) :
    s.hubClockFail.hub.rst.held = true ∧ s.hubClockFail.hub.rst.cold = false ∧ s.hubClockFail.hub.rst.clkHold = true ∧
      s.hubClockFail.hub.on HRST_CAUSE_CLKF = true ∧ s.hubClockFail.hub.sram = s.hub.sram := by
  have heq : s.hubClockFail = ((s.modHub (·.fset CLKC_HSTAT_XH_FAIL 1)).assertHub false [causeClkf]).modHub fun h =>
      { h with rst := { h.rst with clkHold := true, goodWin := 0 } } := by
    unfold State.hubClockFail
    rw [if_neg (by rw [hr]; decide)]
  have hhub : (s.modHub (·.fset CLKC_HSTAT_XH_FAIL 1)).hub = s.hub.fset CLKC_HSTAT_XH_FAIL 1 := State.modHub_hub _ _
  rw [heq]
  generalize s.modHub (·.fset CLKC_HSTAT_XH_FAIL 1) = u at *
  obtain ⟨hheld, hcold, hcause, hsram, -⟩ := State.assertHub_warm (s := u) (cause := causeClkf) (by rw [hhub]; exact hr) (by decide)
    (f := HRST_CAUSE_CLKF) rfl
  generalize u.assertHub false [causeClkf] = v at *
  rw [State.modHub_hub]
  refine ⟨hheld, hcold, rfl, hcause, hsram.trans ?_⟩
  rw [hhub]
  rfl

theorem hubClocksFail (s : State) (early : Bool) (tm : Nat) (hr : s.hub.rst.held = false) :
    (∃ t, exec (.crystalStop .hub true tm) s = .next t ∧ s.OnlyHub t ∧ s.hub.RegsKept t.hub [CLKC_HSTAT] ∧ t.hub.ticks = false ∧
      t.hub.rst = { s.hub.rst with badXt := 2, xtT := max s.now tm } ∧ t.hub.on CLKC_HSTAT_XT_OK = false) ∧
    (∃ t, exec (.pllUnlock .hub true early tm) s = .next t ∧ s.OnlyHub t ∧ s.hub.RegsKept t.hub [CLKC_HSTAT] ∧ t.hub.ticks = false ∧
      t.hub.rst = { s.hub.rst with badXt := 2, xtT := max s.now tm } ∧ t.hub.on CLKC_HSTAT_SDLOCK = false) ∧
    (∃ t, exec (.crystalStop .hub false tm) s = .next t ∧ t.hub.rst.held = true ∧ t.hub.rst.cold = false ∧
      t.hub.rst.clkHold = true ∧ t.hub.on HRST_CAUSE_CLKF = true ∧ t.hub.sram = s.hub.sram) ∧
    (∃ t, exec (.pllUnlock .hub false early tm) s = .next t ∧ t.hub.rst.held = true ∧ t.hub.rst.cold = false ∧
      t.hub.rst.clkHold = true ∧ t.hub.on HRST_CAUSE_CLKF = true ∧ t.hub.sram = s.hub.sram) := by
  have hxt (pll : Bool) := Hub.xtFail_spec hr pll (max s.now tm)
  refine ⟨⟨(s.at tm).modHub (·.xtFail false (max s.now tm)), rfl, rfl, ?_⟩, ⟨(s.at tm).modHub (·.xtFail true (max s.now tm)), rfl, rfl, ?_⟩,
    ⟨(s.at tm).hubClockFail, rfl, State.hubClockFail_spec (s := s.at tm) hr⟩, ⟨(s.at tm).hubClockFail, rfl, State.hubClockFail_spec (s := s.at tm) hr⟩⟩
  · rw [State.modHub_hub]
    exact hxt false
  · rw [State.modHub_hub]
    exact hxt true

/-! ### XT_RECOVERY (R487) -/

/-- Between `h` and `u` only the rings and their registers may have changed. -/
def Hub.RingsOnly (h u : Hub) : Prop := u = { h with reg := u.reg, rings := u.rings } ∧ u.rg CLKC_HSTAT = h.rg CLKC_HSTAT

theorem Hub.RingsOnly.refl (h : Hub) : h.RingsOnly h := ⟨rfl, rfl⟩

theorem Hub.RingsOnly.trans {h u v : Hub} (a : h.RingsOnly u) (b : u.RingsOnly v) : h.RingsOnly v :=
  ⟨by rw [b.1, a.1], b.2.trans a.2⟩

theorem Hub.ringsOnly_modRing (h : Hub) (k : Nat) (f : RingInt → RingInt) : h.RingsOnly (h.modRing k f) := ⟨rfl, rfl⟩

theorem Hub.ringsOnly_setRg (h : Hub) {a : Nat} (v : Word) (ha : CLKC_HSTAT ≠ a) : h.RingsOnly (h.setRg a v) := ⟨rfl, h.rg_setRg_ne v ha⟩

theorem Hub.ringsOnly_fset (h : Hub) {f : Fld} (v : Nat) (ha : CLKC_HSTAT ≠ f.addr) : h.RingsOnly (h.fset f v) := ⟨rfl, h.rg_fset_ne v ha⟩

section
variable {k : Nat} (hk : k < 6)
include hk

theorem clkcHstat_ne_ringStat : CLKC_HSTAT ≠ RING_STAT k := by unfold CLKC_HSTAT RING_STAT; omega

theorem Hub.ringsOnly_annBegin (h : Hub) (rating : Nat) (unwrap : Bool) : h.RingsOnly (h.annBegin k rating unwrap) :=
  (((h.ringsOnly_setRg (a := RING_ACKLO k) 0 (by unfold CLKC_HSTAT RING_ACKLO; omega)).trans
    (Hub.ringsOnly_setRg _ (a := RING_ACKHI k) 0 (by unfold CLKC_HSTAT RING_ACKHI; omega))).trans
    (Hub.ringsOnly_fset _ (f := RING_STAT_CHG_PEND k) 1 (clkcHstat_ne_ringStat hk))).trans (Hub.ringsOnly_modRing _ _ _)

theorem Hub.ringsOnly_unwrapAnnounce (h : Hub) : h.RingsOnly (h.unwrapAnnounce k) := by
  unfold Hub.unwrapAnnounce
  dsimp only
  split
  · split
    · split
      · exact .refl h
      · exact h.ringsOnly_modRing _ _
    · exact h.ringsOnly_annBegin hk _ _
  · exact .refl h

theorem Hub.ringsOnly_annAbandon (h : Hub) (reason : Nat) : h.RingsOnly (h.annAbandon k reason) := by
  have hstat := clkcHstat_ne_ringStat hk
  unfold Hub.annAbandon
  split
  · have h₁ : h.RingsOnly (h.chgAbn k reason) :=
      (h.ringsOnly_fset (f := RING_STAT_CHG_ABN k) 1 hstat).trans (Hub.ringsOnly_fset _ (f := RING_STAT_ABN k) reason hstat)
    generalize h.chgAbn k reason = u at *
    have h₂ : u.RingsOnly ((u.fset (RING_STAT_CHG_PEND k) 0).modRing k fun (r : RingInt) => { r with ann := none, unwrapWait := false }) :=
      (u.ringsOnly_fset (f := RING_STAT_CHG_PEND k) 0 hstat).trans (Hub.ringsOnly_modRing _ _ _)
    unfold Hub.annEnd
    dsimp only
    split
    · exact (h₁.trans h₂).trans (Hub.ringsOnly_unwrapAnnounce hk _)
    · exact h₁.trans h₂
  · exact .refl h

theorem Hub.ringsOnly_ringStart (h : Hub) (t : Nat) : h.RingsOnly (h.ringStart k t) := by
  have hstat := clkcHstat_ne_ringStat hk
  rw [Hub.ringStart_eq]
  exact ((h.ringsOnly_fset (f := RING_STAT_RATING k) _ hstat).trans (Hub.ringsOnly_fset _ (f := RING_STAT_STATE k) _ hstat)).trans
    (Hub.ringsOnly_modRing _ _ _)

end

theorem Hub.ringsOnly_ringsRestart (h : Hub) (t : Nat) : h.RingsOnly (h.ringsRestart t) := by
  have hfold (ks : List Nat) (hks : ∀ k ∈ ks, k < 6) (u : Hub) : u.RingsOnly (ks.foldl (fun (h : Hub) k =>
      if h.on (RING_CTRL_EN k) && h.rstate k != rsStop then (h.annAbandon k abnRingChanged).ringStart k t else h) u) := by
    induction ks generalizing u with
    | nil => exact .refl u
    | cons k ks ih =>
      refine Hub.RingsOnly.trans ?_ (ih (fun j hj => hks j (List.mem_cons_of_mem _ hj)) _)
      have hk := hks k List.mem_cons_self
      dsimp only
      split
      · exact (u.ringsOnly_annAbandon hk _).trans (Hub.ringsOnly_ringStart hk _ _)
      · exact .refl u
  exact hfold (upTo 6) (by decide) h

theorem Hub.RingsOnly.clock {v u : Hub} (h : v.RingsOnly u) : u.ticks = v.ticks ∧ u.tb = v.tb ∧ u.rst = v.rst ∧
    u.on CLKC_HSTAT_XT_OK = v.on CLKC_HSTAT_XT_OK := by
  obtain ⟨hframe, hreg⟩ := h
  exact ⟨(congrArg Hub.ticks hframe).trans rfl, (congrArg Hub.tb hframe).trans rfl, (congrArg Hub.rst hframe).trans rfl,
    congrArg (fun w => bvField w CLKC_HSTAT_XT_OK.lo CLKC_HSTAT_XT_OK.w == 1) hreg⟩

theorem ticksResume (s : State) (since : Nat) (hup : s.hub.up = true) (hl : s.hub.upd.loader = false) (ht : s.hub.ticks = false)
    (hb : s.hub.rst.badXt = 0) :
    ∃ t, exec (.xtRecovery since) s = .next t ∧ s.OnlyHub t ∧
      (s.hub.rst.xtT + 10000000 ≤ s.hub.published + since → t.hub.ticks = true ∧ t.hub.tb = s.hub.published + since ∧ t.hub.rst = s.hub.rst ∧
        t.hub.on CLKC_HSTAT_XT_OK = true) ∧
      (s.hub.published + since < s.hub.rst.xtT + 10000000 → t.hub = s.hub) := by
  refine ⟨(s.at (s.hub.published + since)).modHub (·.xtRecover (s.hub.published + since)), rfl, rfl, fun hle => ?_, fun hlt => ?_⟩ <;>
    rw [State.modHub_hub, State.at_hub]
  · have heq : s.hub.xtRecover (s.hub.published + since) =
        ({ (s.hub.fset CLKC_HSTAT_XT_OK 1).fset CLKC_HSTAT_SDLOCK 1 with ticks := true, tb := s.hub.published + since } : Hub).ringsRestart
          (s.hub.published + since) := if_pos (by simp [hup, hl, ht, hb, hle])
    have hxt : ((s.hub.fset CLKC_HSTAT_XT_OK 1).fset CLKC_HSTAT_SDLOCK 1).on CLKC_HSTAT_XT_OK = true := by
      rw [Hub.on, Hub.fget_fset_apart _ _ (by rfl) (by rfl) (by rfl)]
      exact s.hub.on_fset_set CLKC_HSTAT_XT_OK rfl rfl
    have hrst : ((s.hub.fset CLKC_HSTAT_XT_OK 1).fset CLKC_HSTAT_SDLOCK 1).rst = s.hub.rst := rfl
    rw [heq]
    generalize (s.hub.fset CLKC_HSTAT_XT_OK 1).fset CLKC_HSTAT_SDLOCK 1 = u at hxt hrst ⊢
    rw [← hrst]
    obtain ⟨hticks, htb, hrst', hxt'⟩ := (Hub.ringsOnly_ringsRestart { u with ticks := true, tb := s.hub.published + since }
      (s.hub.published + since)).clock
    exact ⟨hticks, htb, hrst', hxt'.trans hxt⟩
  · exact if_neg (by simp only [Bool.and_eq_true, decide_eq_true_eq]; omega)

/-! ### AON_CLOCK_FAIL (R488) -/

theorem rtcStandsStill (s : State) : ∃ t, exec (.aonClockFail) s = .next t ∧ t.hub.on CLKC_HSTAT_AON_FAIL = true ∧ t.hub.on CLKC_HSTAT_AON_OK = false ∧
    t.rtcNow = s.rtcNow ∧ (∀ n, ({ t with now := n } : State).rtcNow = s.rtcNow) ∧ ∀ l, t.lane l = s.lane l := by
  let stopped : State := { s with aon := { s.aon with rtc := s.rtcNow, rtcAt := s.now, rtcOk := false } }
  have hhub : (stopped.modHub fun h => (h.fset CLKC_HSTAT_AON_FAIL 1).fset CLKC_HSTAT_AON_OK 0).hub =
    (s.hub.fset CLKC_HSTAT_AON_FAIL 1).fset CLKC_HSTAT_AON_OK 0 := State.modHub_hub _ _
  have hsame := (stopped.modHub fun h => (h.fset CLKC_HSTAT_AON_FAIL 1).fset CLKC_HSTAT_AON_OK 0).recHub_same 9 0x0A 488 []
  have hfail : ((s.hub.fset CLKC_HSTAT_AON_FAIL 1).fset CLKC_HSTAT_AON_OK 0).on CLKC_HSTAT_AON_FAIL = true := by
    rw [Hub.on, Hub.fget_fset_apart _ _ (by rfl) (by rfl) (by rfl)]
    exact s.hub.on_fset_set CLKC_HSTAT_AON_FAIL rfl rfl
  have hok : ((s.hub.fset CLKC_HSTAT_AON_FAIL 1).fset CLKC_HSTAT_AON_OK 0).on CLKC_HSTAT_AON_OK = false :=
    congrArg (· == 1) (Hub.fget_fset_set _ CLKC_HSTAT_AON_OK 0 rfl)
  rw [hhub] at hsame
  refine ⟨_, rfl, ?_, ?_, rfl, fun _ => rfl, fun l => ?_⟩
  · exact (Hub.RegsKept.on hsame.2 (by decide)).trans hfail
  · exact (Hub.RegsKept.on hsame.2 (by decide)).trans hok
  · cases l <;> rfl

/-- Settles O57: a lane's clock through its one failure, the hub's through XT and XH. -/
theorem clockFailuresStopTheirDieAlone : Obligations.ClockFailuresStopTheirDieAlone :=
  ⟨laneClocksAreWatched, laneClocksFail, hubClocksFail, ticksResume, rtcStandsStill⟩

end Sys2Proof.Machine
end

section
/-! PROOFS. O56: the hold-up store, the write gate and the loader's frames (R473, R475 to R480). -/

namespace Sys2Proof.Machine

/-! ### HOLD_SENSE_SAMPLE (R476, R480) -/

/-- V_avg with one more sample. -/
def Hub.sampleMean (h : Hub) (v : Nat) : Nat := meanOf ((v :: h.upd.samples).take 2000)

/-- The registers of a sample and its mean. -/
def Hub.showSample (h : Hub) (code avg : Nat) : Hub := (h.fset NVW_VSENSE_CODE code).fset NVW_VSENSE_VAVG (min 65535 (avg / 10000))

/-- The hub with the sample `v` of `code` counted. -/
def Hub.sampled (h : Hub) (code v run : Nat) : Hub :=
  let u := { h.showSample code (h.sampleMean v) with
    upd := { h.upd with samples := (v :: h.upd.samples).take 2000, vavg := h.sampleMean v, lowRun := run } }
  u.fset NVW_STAT_RES_LOW (b2n (decide (u.eAvail < eRes)))

theorem Hub.sampled_spec (h : Hub) (code v run : Nat) :
    (h.sampled code v run).fget NVW_VSENSE_CODE = code % 4096 ∧ (h.sampled code v run).upd.vavg = h.sampleMean v ∧
      (h.sampled code v run).upd.lowRun = run ∧ (h.sampled code v run).on NVW_STAT_PF = h.on NVW_STAT_PF := by
  have hcode : (h.showSample code (h.sampleMean v)).fget NVW_VSENSE_CODE = code % 4096 := by
    rw [Hub.showSample, Hub.fget_fset_apart _ _ (by rfl) (by rfl) (by rfl), Hub.fget_fset_set _ _ _ (by rfl)]
    rfl
  have hpf : (h.showSample code (h.sampleMean v)).on NVW_STAT_PF = h.on NVW_STAT_PF :=
    congrArg (· == 1) ((Hub.fget_fset_addr _ _ (by decide)).trans (Hub.fget_fset_addr _ _ (by decide)))
  exact ⟨(Hub.fget_fset_addr _ _ (by decide)).trans hcode, rfl, rfl, (Hub.on_fset_apart _ _ (by rfl) (by rfl) (by rfl)).trans hpf⟩

/-- The flush writes the second flash and shows it in the recorder's registers. -/
theorem State.writeChunks_frame (s : State) (cs : List (Nat × Nat × Nat)) :
    cs.foldl State.writeChunk s = { s with flash1 := (cs.foldl State.writeChunk s).flash1, hub := (cs.foldl State.writeChunk s).hub } ∧
      (cs.foldl State.writeChunk s).hub = { s.hub with reg := (cs.foldl State.writeChunk s).hub.reg } ∧
      s.hub.RegsKept (cs.foldl State.writeChunk s).hub [REC_FLUSHED] := by
  induction cs generalizing s with
  | nil => exact ⟨rfl, rfl, .refl _ _⟩
  | cons c cs ih =>
    obtain ⟨hframe, hhub, hregs⟩ := ih (s.writeChunk c)
    rw [List.foldl_cons]
    generalize cs.foldl State.writeChunk (s.writeChunk c) = t at *
    exact ⟨hframe, hhub, (Hub.regsKept_setRg s.hub _ (List.mem_singleton_self _)).trans hregs⟩

/-- The recorder after its last flush, which began at `r`. -/
def Hub.recEnded (h : Hub) (r : RecInt) : Hub :=
  (({ h with rcd := { h.rcd with unflushed := [], fresh := true, page := r.page + b2n (!r.fresh) } }).showThrottle).fset REC_STAT_RUN 0

theorem State.recFlushAll_spec (s : State) :
    (∀ l, s.recFlushAll.lane l = s.lane l) ∧ s.recFlushAll.flash0 = s.flash0 ∧ s.recFlushAll.hub.upd = s.hub.upd ∧
      s.hub.RegsKept s.recFlushAll.hub [REC_FLUSHED, REC_STAT] ∧ s.recFlushAll.hub.on REC_STAT_RUN = false ∧
      s.recFlushAll.hub.rcd.unflushed = [] := by
  obtain ⟨hframe, hhub, hregs⟩ := s.writeChunks_frame
    (s.hub.rcd.unflushed ++ if s.hub.rcd.fresh then [] else [(s.hub.rcd.page, s.hub.rcd.first, (s.hub.rcd.next + 2 ^ 32 - 1) % 2 ^ 32)])
  have heq : s.recFlushAll = ((s.hub.rcd.unflushed ++ if s.hub.rcd.fresh then [] else
      [(s.hub.rcd.page, s.hub.rcd.first, (s.hub.rcd.next + 2 ^ 32 - 1) % 2 ^ 32)]).foldl State.writeChunk s).modHub (·.recEnded s.hub.rcd) := rfl
  rw [heq]
  generalize List.foldl State.writeChunk s _ = t at *
  refine ⟨fun l => ?_, (congrArg State.flash0 hframe).trans rfl, (congrArg Hub.upd hhub).trans rfl, ?_, ?_, rfl⟩
  · rw [State.modHub_lane, hframe]
    cases l <;> rfl
  · rw [State.modHub_hub]
    exact (hregs.mono (by simp)).trans (((Hub.regsKept_of_reg_eq rfl _).trans (Hub.regsKept_fset _ _ (by simp [REC_STAT_THROTTLE]))).trans
      (Hub.regsKept_fset _ _ (by simp [REC_STAT_RUN])))
  · rw [State.modHub_hub]
    exact Hub.on_fset_clear _ _ (by rfl)

/-- A sample counts, and the third low one in a row ends recording. -/
theorem State.holdSample_eq {s : State} (hup : s.hub.up = true) (hpf : s.hub.on NVW_STAT_PF = false) (code : Nat) {v run : Nat}
    (hv : v = storeVolts s.hub.set.huDiv (code % 4096))
    (hrun : run = if 100 * v < 95 * s.hub.sampleMean v ∨ v < s.hub.set.huVmin * 1000 then s.hub.upd.lowRun + 1 else 0) :
    s.holdSample code = if 3 ≤ run then ({ s with hub := s.hub.sampled code v run } : State).recFlushAll.modHub (·.fset NVW_STAT_PF 1)
      else { s with hub := s.hub.sampled code v run } := by
  have hlow : run = if (decide (100 * v < 95 * s.hub.sampleMean v) || decide (v < s.hub.set.huVmin * 1000)) = true then s.hub.upd.lowRun + 1
      else 0 := by rw [hrun]; simp only [Bool.or_eq_true, decide_eq_true_eq]
  unfold State.holdSample
  dsimp only
  rw [if_neg (by simp [hup]), if_neg (by simp [hpf]), ← hv, hlow]
  rfl

theorem holdStoreIsSampled (s : State) (code tm : Nat) (hup : s.hub.up = true) (hpf : s.hub.on NVW_STAT_PF = false) :
    let v := storeVolts s.hub.set.huDiv (code % 4096)
    let avg := meanOf ((v :: s.hub.upd.samples).take 2000)
    let low := 100 * v < 95 * avg ∨ v < s.hub.set.huVmin * 1000
    ∃ t, exec (.holdSenseSample code tm) s = .next t ∧ t.hub.fget NVW_VSENSE_CODE = code % 4096 ∧ t.hub.upd.vavg = avg ∧
      (∀ l, t.lane l = s.lane l) ∧ t.flash0 = s.flash0 ∧
      (¬ low → t.hub.upd.lowRun = 0 ∧ t.hub.on NVW_STAT_PF = false ∧ t.flash1 = s.flash1) ∧
      (low → s.hub.upd.lowRun < 2 → t.hub.upd.lowRun = s.hub.upd.lowRun + 1 ∧ t.hub.on NVW_STAT_PF = false ∧ t.flash1 = s.flash1) ∧
      (low → 2 ≤ s.hub.upd.lowRun → t.hub.on NVW_STAT_PF = true ∧ t.hub.on REC_STAT_RUN = false ∧ t.hub.rcd.unflushed = []) := by
  intro v avg low
  generalize hrun : (if 100 * v < 95 * s.hub.sampleMean v ∨ v < s.hub.set.huVmin * 1000 then s.hub.upd.lowRun + 1 else 0) = run
  have heq := (State.holdSample_eq (s := s.at tm) hup hpf code rfl hrun.symm)
  obtain ⟨hcode, havg, hlr, hpf'⟩ := s.hub.sampled_spec code v run
  have hhub : (s.at tm).hub = s.hub := rfl
  rw [hhub] at heq
  refine ⟨_, rfl, ?_⟩
  generalize s.hub.sampled code v run = u at *
  rw [heq]
  by_cases h3 : 3 ≤ run
  · obtain ⟨hlane, hf0, hupd, hregs, hstop, hun⟩ := ({ s.at tm with hub := u } : State).recFlushAll_spec
    rw [if_pos h3]
    generalize ({ s.at tm with hub := u } : State).recFlushAll = t at *
    have hlow : low := by by_contra hn; rw [if_neg (show ¬ (100 * v < 95 * s.hub.sampleMean v ∨ v < s.hub.set.huVmin * 1000) from hn)] at hrun; omega
    have h2 : 2 ≤ s.hub.upd.lowRun := by rw [if_pos (show 100 * v < 95 * s.hub.sampleMean v ∨ v < s.hub.set.huVmin * 1000 from hlow)] at hrun; omega
    rw [State.modHub_hub]
    refine ⟨?_, ?_, fun l => ?_, hf0, fun hn => absurd hlow hn, fun _ h => absurd h2 (by omega), fun _ _ => ⟨?_, ?_, hun⟩⟩
    · rw [Hub.fget_fset_addr _ _ (by decide), hregs.fget (by decide)]; exact hcode
    · exact (congrArg UpdInt.vavg hupd).trans havg
    · rw [State.modHub_lane, hlane]; cases l <;> rfl
    · exact Hub.on_fset_set _ _ (by rfl) rfl
    · exact (congrArg (· == 1) (Hub.fget_fset_addr _ _ (by decide))).trans hstop
  · rw [if_neg h3]
    refine ⟨hcode, havg, fun l => by cases l <;> rfl, rfl, fun hn => ?_, fun hlow h => ?_, fun hlow h => ?_⟩
    · rw [if_neg (show ¬ (100 * v < 95 * s.hub.sampleMean v ∨ v < s.hub.set.huVmin * 1000) from hn)] at hrun
      exact ⟨hlr.trans hrun.symm, hpf'.trans hpf, rfl⟩
    · rw [if_pos (show 100 * v < 95 * s.hub.sampleMean v ∨ v < s.hub.set.huVmin * 1000 from hlow)] at hrun
      exact ⟨hlr.trans hrun.symm, hpf'.trans hpf, rfl⟩
    · rw [if_pos (show 100 * v < 95 * s.hub.sampleMean v ∨ v < s.hub.set.huVmin * 1000 from hlow)] at hrun
      omega

/-! ### DROOP_CHECK (R477) -/

/-- The registers of a droop check of `c` µF. -/
def Hub.showDroop (h : Hub) (c : Nat) (ok : Bool) : Hub :=
  ((h.fset NVW_ENERGY_CMEAS (min 65535 c)).fset NVW_STAT_CVALID (b2n ok)).fset NVW_STAT_CFAIL (b2n (!ok))

theorem Hub.showDroop_spec (h : Hub) (c : Nat) (ok : Bool) :
    h.RegsKept (h.showDroop c ok) [NVW_ENERGY, NVW_STAT] ∧ (h.showDroop c ok).fget NVW_ENERGY_CMEAS = min 65535 c ∧
      (h.showDroop c ok).on NVW_STAT_CVALID = ok ∧ (h.showDroop c ok).on NVW_STAT_CFAIL = !ok := by
  unfold Hub.showDroop
  refine ⟨?_, ?_, ?_, ?_⟩
  · exact ((Hub.regsKept_fset _ _ (by simp [NVW_ENERGY_CMEAS])).trans (Hub.regsKept_fset _ _ (by simp [NVW_STAT_CVALID]))).trans
      (Hub.regsKept_fset _ _ (by simp [NVW_STAT_CFAIL]))
  · rw [Hub.fget_fset_addr _ _ (by decide), Hub.fget_fset_addr _ _ (by decide), Hub.fget_fset_set _ _ _ (by rfl)]
    exact Nat.mod_eq_of_lt (by change _ < 65536; omega)
  · rw [Hub.on_fset_apart _ _ (by rfl) (by rfl) (by rfl), Hub.on, Hub.fget_fset_set _ _ _ (by rfl)]
    cases ok <;> rfl
  · rw [Hub.on, Hub.fget_fset_set _ _ _ (by rfl)]
    cases ok <;> rfl

theorem Hub.droopCheck_eq {h : Hub} (hup : h.up = true) (hd : h.upd.droopRun = false) (us : Nat) :
    h.droopCheck us = { h.showDroop (h.set.huIchg * us / 2000) (decide (7 * h.set.huC ≤ 10 * (h.set.huIchg * us / 2000)) &&
      decide (10 * (h.set.huIchg * us / 2000) ≤ 13 * h.set.huC)) with upd := { h.upd with droopRun := true } } :=
  if_neg (by simp [hup, hd])

theorem droopIsCheckedOnce (s : State) (us : Nat) (hup : s.hub.up = true) :
    ∃ t, exec (.droopCheck us) s = .next t ∧ s.OnlyHub t ∧ s.hub.RegsKept t.hub [NVW_ENERGY, NVW_STAT] ∧
      (s.hub.upd.droopRun = true → t.hub = s.hub) ∧
      (s.hub.upd.droopRun = false →
        (let c := s.hub.set.huIchg * us / 2000
         t.hub.upd = { s.hub.upd with droopRun := true } ∧ t.hub.fget NVW_ENERGY_CMEAS = min 65535 c ∧
         (t.hub.on NVW_STAT_CVALID = true ↔ 7 * s.hub.set.huC ≤ 10 * c ∧ 10 * c ≤ 13 * s.hub.set.huC) ∧
         t.hub.on NVW_STAT_CFAIL = !t.hub.on NVW_STAT_CVALID)) := by
  refine ⟨_, rfl, rfl, ?_⟩
  rw [State.modHub_hub]
  generalize s.hub = h at *
  cases hd : h.upd.droopRun
  · rw [Hub.droopCheck_eq hup hd]
    obtain ⟨hregs, hmeas, hvalid, hfail⟩ := h.showDroop_spec (h.set.huIchg * us / 2000)
      (decide (7 * h.set.huC ≤ 10 * (h.set.huIchg * us / 2000)) && decide (10 * (h.set.huIchg * us / 2000) ≤ 13 * h.set.huC))
    generalize h.showDroop _ _ = u at *
    refine ⟨hregs, fun e => absurd e (by decide), fun _ => ⟨rfl, hmeas, ?_, hfail.trans (congrArg not hvalid.symm)⟩⟩
    exact (iff_of_eq (congrArg (· = true) hvalid)).trans (by simp)
  · rw [Hub.droopCheck, if_pos (by simp [hd])]
    exact ⟨.refl _ _, fun _ => rfl, fun e => absurd e (by decide)⟩

/-! ### GATED_WRITE_RETRY (R478, R479) -/

/-- What the energy is taken from: no display of it changes that. -/
theorem Hub.showEnergy_gateOpen (h : Hub) (pages : Nat) : h.showEnergy.gateOpen pages = h.gateOpen pages := by
  have hstat {f : Fld} (ha : f.addr = NVW_STAT) (hw : Nat.ble (f.lo + f.w) 32 = true)
      (hd : (Nat.ble (f.lo + f.w) NVW_STAT_RES_LOW.lo || Nat.ble (NVW_STAT_RES_LOW.lo + NVW_STAT_RES_LOW.w) f.lo) = true) :
      h.showEnergy.on f = h.on f :=
    congrArg (· == 1) ((Hub.fget_fset_addr _ _ (by rw [ha]; decide)).trans (Hub.fget_fset_apart _ _ ha hw hd))
  have hmeas : h.showEnergy.fget NVW_ENERGY_CMEAS = h.fget NVW_ENERGY_CMEAS :=
    (Hub.fget_fset_apart _ _ (by rfl) (by rfl) (by rfl)).trans (Hub.fget_fset_addr _ _ (by decide))
  have hc : h.showEnergy.cEff = h.cEff := by
    unfold Hub.cEff
    rw [hstat (f := NVW_STAT_CVALID) rfl (by rfl) (by rfl), hstat (f := NVW_STAT_CFAIL) rfl (by rfl) (by rfl), hmeas]
    rfl
  unfold Hub.gateOpen Hub.eAvail
  rw [hc]
  rfl

theorem State.endWith_kept (s : State) (r : CmdRef) (st detail : Nat) : (s.endWith r st detail).flash0 = s.flash0 ∧
    (s.endWith r st detail).flash1 = s.flash1 ∧ (s.endWith r st detail).hub.upd = s.hub.upd := by
  cases ho : s.hub.openCmd r.q r.slot with
  | none => rw [State.endWith, State.endRef, ho]; exact ⟨rfl, rfl, rfl⟩
  | some c =>
    rw [State.endWith, State.endRef_open ho]
    have hcmds := (Hub.endCmd_spec s.hub c st detail 0 []).1.1
    rw [State.modHub_flash0, State.modHub_flash1, State.modHub_hub]
    generalize s.hub.endCmd c st detail 0 [] = u at *
    exact ⟨rfl, rfl, (congrArg Hub.upd hcmds).trans rfl⟩

/-- The state with a block of 64 KiB written at `a`: its slot loses its verification. -/
def State.blockPut (s : State) (a : Nat) (bytes : List Byte) : State :=
  ({ s with flash0 := flashPutBytes (flashErase s.flash0 a 0x10000) a bytes } : State).modHub fun h =>
    { h with upd := { h.upd with verified := h.upd.verified.filter fun x => x != a / 0x2000000 } }

/-- A write of a block for a command ends it, as the block stands. -/
theorem State.performWrite_block {g : GatedWrite} {r : CmdRef} (hg : g.kind = .block) (hr : g.cmd = some r) (s : State) :
    s.performWrite g = (s.blockPut g.addr g.bytes).endWith r
      (if blockValid ((s.blockPut g.addr g.bytes).block (g.addr / 0x2000000) (g.addr % 0x2000000 / 0x10000)) (g.addr % 0x2000000 / 0x10000)
        ((s.blockPut g.addr g.bytes).slotBuild (g.addr / 0x2000000)) then stOk else stRefused) 0 := by
  unfold State.performWrite
  rw [hg, hr]
  rfl

/-- The hub at a retry, its waiting writes taken up. -/
def Hub.retrying (h : Hub) : Hub := { h.showEnergy with upd := { h.upd with gated := [] } }

/-- The retry of one write of a host command. -/
theorem State.gatedRetry_one {s : State} {g : GatedWrite} {r : CmdRef} {c : HostCmd} (hup : s.hub.up = true)
    (hpf : s.hub.on NVW_STAT_PF = false) (hg : s.hub.upd.gated = [g]) (hr : g.cmd = some r) (hc : s.hub.cmdAt r.q r.slot = some c) (tm : Nat) :
    s.gatedRetry tm =
      if (g.kind != .prepare && s.hub.gateOpen g.pages) = true then (s.modHub Hub.retrying).performWrite g
      else if g.t0 + s.hub.budgetOf c ≤ tm then (s.modHub Hub.retrying).endWith r stDeferred 0
      else (s.modHub Hub.retrying).modHub fun h => { h with upd := { h.upd with gated := h.upd.gated ++ [g] } } := by
  have hopen : (s.modHub Hub.retrying).hub.gateOpen g.pages = s.hub.gateOpen g.pages := s.hub.showEnergy_gateOpen g.pages
  have hcmd : (s.modHub Hub.retrying).hub.cmdAt r.q r.slot = some c := hc
  have hbudget : (s.modHub Hub.retrying).hub.budgetOf c = s.hub.budgetOf c := rfl
  unfold State.gatedRetry
  rw [if_neg (by simp [hup, hpf]), hg]
  change (let late : State → GatedWrite → Bool := fun s g =>
      match g.cmd with
      | some r => (match s.hub.cmdAt r.q r.slot with | some c => decide (g.t0 + s.hub.budgetOf c ≤ tm) | none => true)
      | none => false
    [g].foldl (fun (s : State) g =>
      if g.kind != .prepare && s.hub.gateOpen g.pages then s.performWrite g
      else if late s g then (match g.cmd with | some r => s.endWith r stDeferred 0 | none => s)
      else s.modHub fun h => { h with upd := { h.upd with gated := h.upd.gated ++ [g] } }) (s.modHub Hub.retrying)) = _
  generalize s.modHub Hub.retrying = t at *
  rw [List.foldl_cons, List.foldl_nil]
  simp only [hopen, hr, hcmd, hbudget, decide_eq_true_eq]

theorem gatedWritesAreRetried (s : State) (tm : Nat) (g : GatedWrite) (r : CmdRef) (c : HostCmd) (hup : s.hub.up = true)
    (hpf : s.hub.on NVW_STAT_PF = false) (hg : s.hub.upd.gated = [g]) (hr : g.cmd = some r) (hc : s.hub.cmdAt r.q r.slot = some c)
    (ho : s.hub.openCmd r.q r.slot = some c) :
    ∃ t, exec (.gatedWriteRetry tm) s = .next t ∧
      (s.hub.gateOpen g.pages = false → t.flash0 = s.flash0 ∧ t.flash1 = s.flash1 ∧
        (tm < g.t0 + s.hub.budgetOf c → t.hub.upd.gated = [g] ∧ t.hub.host = s.hub.host) ∧
        (g.t0 + s.hub.budgetOf c ≤ tm → t.hub.upd.gated = [] ∧ t.hub.Ended c 9 0 0 [])) ∧
      (s.hub.gateOpen g.pages = true → g.kind = .block → g.bytes.length = 65536 →
        t.hub.upd.gated = [] ∧ flashBytes t.flash0 g.addr 65536 = g.bytes ∧ t.flash1 = s.flash1) := by
  have hagain : (s.at tm).gateAgain tm = (s.at tm).gatedRetry tm := if_neg (by simp [Hub.migrating, hg, hr])
  have heq := State.gatedRetry_one (s := s.at tm) hup hpf hg hr hc tm
  have ho' : ((s.at tm).modHub Hub.retrying).hub.openCmd r.q r.slot = some c := ho
  have hhost : ((s.at tm).modHub Hub.retrying).hub.host = s.hub.host := rfl
  have hgated : ((s.at tm).modHub Hub.retrying).hub.upd.gated = [] := rfl
  have hf0 : ((s.at tm).modHub Hub.retrying).flash0 = s.flash0 := rfl
  have hf1 : ((s.at tm).modHub Hub.retrying).flash1 = s.flash1 := rfl
  have hbudget : (s.at tm).hub.budgetOf c = s.hub.budgetOf c := rfl
  have hgate : (s.at tm).hub.gateOpen g.pages = s.hub.gateOpen g.pages := rfl
  refine ⟨(s.at tm).gateAgain tm, rfl, ?_⟩
  rw [hagain, heq, hgate, hbudget]
  generalize (s.at tm).modHub Hub.retrying = u at *
  refine ⟨fun hclosed => ?_, fun hopen hblock hlen => ?_⟩
  · rw [if_neg (by simp [hclosed])]
    obtain ⟨he0, he1, heu⟩ := u.endWith_kept r stDeferred 0
    refine ⟨?_, ?_, fun hin => ?_, fun hlate => ?_⟩
    · split
      · exact he0.trans hf0
      · exact hf0
    · split
      · exact he1.trans hf1
      · exact hf1
    · rw [if_neg (by omega), State.modHub_hub]
      exact ⟨congrArg (· ++ [g]) hgated, hhost⟩
    · rw [if_pos hlate]
      exact ⟨(congrArg UpdInt.gated heu).trans hgated, (State.endWith_ends ho' stDeferred 0).2.2.1⟩
  · rw [if_pos (by simp [hopen, hblock]), State.performWrite_block hblock hr]
    generalize (if blockValid _ _ _ then stOk else stRefused) = st
    obtain ⟨he0, he1, heu⟩ := (u.blockPut g.addr g.bytes).endWith_kept r st 0
    refine ⟨(congrArg UpdInt.gated heu).trans hgated, ?_, he1.trans hf1⟩
    rw [he0, ← hlen]
    exact flashBytes_putBytes _ _ _

/-! ### LOADER_FRAME (R473) -/

theorem loaderTakesCheckedFrames (s : State) (uart : Bool) (tag : Half) (idx cnt : Nat) (bytes : List Byte) (crc : Word) :
    ((s.hub.upd.loader = false ∨ 1024 < bytes.length ∨ cnt ≤ idx ∨ crc32c (loaderContent tag.toNat idx cnt bytes) ≠ crc.toNat) →
      exec (.loaderFrame uart tag idx cnt bytes crc) s = .next s) ∧
    (s.hub.upd.loader = true → bytes.length ≤ 1024 → idx < 2 → cnt = 2 → crc32c (loaderContent tag.toNat idx cnt bytes) = crc.toNat →
      s.hub.upd.frags = [] →
      ∃ t, exec (.loaderFrame uart tag idx cnt bytes crc) s = .next t ∧ s.OnlyHub t ∧ t.hub.reg = s.hub.reg ∧
        t.hub.upd = { s.hub.upd with frags := [(tag.toNat, idx, bytes)] }) := by
  have hexec : exec (.loaderFrame uart tag idx cnt bytes crc) s = .next (s.loaderFrame tag.toNat idx cnt bytes crc) := rfl
  constructor
  · intro hbad
    have hs : s.loaderFrame tag.toNat idx cnt bytes crc = s := if_pos (by
      simp only [Bool.or_eq_true, Bool.not_eq_true', decide_eq_true_eq, bne_iff_ne]
      tauto)
    rw [hexec, hs]
  · intro hl hlen hidx hcnt hcrc hfrags
    subst hcnt
    have hs : s.loaderFrame tag.toNat idx 2 bytes crc = s.modHub fun h => { h with upd := { h.upd with frags := [(tag.toNat, idx, bytes)] } } := by
      unfold State.loaderFrame
      rw [if_neg (by simp [hl, hlen, hidx, hcrc]), hfrags]
      exact if_neg (by interval_cases idx <;> simp [upTo, List.range_succ])
    exact ⟨_, hexec.trans (congrArg _ hs), rfl, rfl, rfl⟩

/-- Settles O56: the samples, the droop check, the retry of the writes that wait, and the loader's frames. -/
theorem writesWaitForTheHoldUpStore : Obligations.WritesWaitForTheHoldUpStore :=
  ⟨holdStoreIsSampled, droopIsCheckedOnce, gatedWritesAreRetried, loaderTakesCheckedFrames⟩

end Sys2Proof.Machine
end

section
/-! PROOFS. O54: downloads, verification, forwarding and settings commits (R456 to R459, R470). -/

namespace Sys2Proof.Machine

/-! ### A gated write and its command (R478, R479) -/

theorem State.writeCmd_of_active {s : State} {r : CmdRef} {op : Nat} {c : HostCmd} (h : s.activeCmd r op = some c)
    (hw : (s.hub.upd.gated.any fun g => g.cmd == some r) = false) (f : State → State) : s.writeCmd r op f = f s :=
  (if_neg (by rw [hw]; decide)).trans (State.hCmd_of_active h f)

theorem State.gated_of_open {s : State} {g : GatedWrite} (hpf : s.hub.on NVW_STAT_PF = false) (ho : s.hub.gateOpen g.pages = true) :
    s.gated g = s.performWrite g := by
  rw [State.gated, if_neg (by rw [hpf]; decide), if_pos ho]

/-- The hub with a write that waits, counted as deferred. -/
def Hub.defer (h : Hub) (g : GatedWrite) : Hub := { h.fsat NVW_STAT_DEFCNT 1 with upd := { h.upd with gated := h.upd.gated ++ [g] } }

theorem State.gated_of_closed {s : State} {g : GatedWrite} (hpf : s.hub.on NVW_STAT_PF = false) (ho : s.hub.gateOpen g.pages = false) :
    s.gated g = s.modHub (·.defer g) := by
  rw [State.gated, if_neg (by rw [hpf]; decide), if_neg (by rw [ho]; decide)]
  rfl

theorem Hub.defer_spec (h : Hub) (g : GatedWrite) :
    (h.defer g).fget NVW_STAT_DEFCNT = satInc 65535 (h.fget NVW_STAT_DEFCNT) ∧ (h.defer g).host = h.host ∧
      (h.defer g).upd.gated = h.upd.gated ++ [g] :=
  ⟨h.fget_fsat_same NVW_STAT_DEFCNT (by decide), rfl, rfl⟩

/-! ### Blocks of a slot (R451) -/

/-- A part of what is read is what is read of the part. -/
theorem flashBytes_part (m : List Host.Cell) (a : Nat) {o n len : Nat} (h : o + n ≤ len) :
    flashBytes m (a + o) n = ((flashBytes m a len).drop o).take n := by
  unfold flashBytes upTo
  refine List.ext_getElem (by simp; omega) fun i h1 h2 => ?_
  simp [Nat.add_assoc]

theorem State.slotBuild_eq_hdrBuild (s : State) (k : Nat) {block : List Byte} (h : flashBytes s.flash0 (slotBase k) 65536 = block) :
    s.slotBuild k = hdrBuild block := by
  rw [State.slotBuild, hdrBuild, beAt, beAt, flashBytes_part s.flash0 (slotBase k) (len := 65536) (by omega), h, List.drop_zero, List.take_take,
    Nat.min_self]

/-- A block written stands in its place alone, and takes the slot's verification away. -/
theorem State.blockPut_spec (s : State) (a : Nat) {bytes : List Byte} (hlen : bytes.length = 65536) :
    flashBytes (s.blockPut a bytes).flash0 a 65536 = bytes ∧ (s.blockPut a bytes).flash1 = s.flash1 ∧
      (∀ o, (o < a ∨ a + 65536 ≤ o) → flashByte (s.blockPut a bytes).flash0 o = flashByte s.flash0 o) ∧
      (s.blockPut a bytes).hub.host = s.hub.host ∧
      (s.blockPut a bytes).hub.upd = { s.hub.upd with verified := s.hub.upd.verified.filter fun x => x != a / 0x2000000 } := by
  refine ⟨?_, rfl, fun o ho => ?_, rfl, rfl⟩
  · have := flashBytes_putBytes (flashErase s.flash0 a 0x10000) a bytes
    rwa [hlen] at this
  · refine (flashByte_putBytes_outside _ bytes (by omega)).trans ?_
    rw [flashByte_erase, if_neg (by omega)]

theorem slotBase_div {k i : Nat} (hi : i < 512) : (slotBase k + 0x10000 * i) / 0x2000000 = k := by
  unfold slotBase; omega

theorem slotBase_mod {k i : Nat} (hi : i < 512) : (slotBase k + 0x10000 * i) % 0x2000000 / 0x10000 = i := by
  unfold slotBase; omega

/-- A block of a slot written for a command: where it stands, and how the command ends. -/
theorem State.performBlock_spec {s : State} {r : CmdRef} {c : HostCmd} (ho : s.hub.openCmd r.q r.slot = some c) {k i : Nat} (hi : i < 512)
    {block : List Byte} (hlen : block.length = 65536) (tm : Nat) :
    let t := s.performWrite (blockWrite k i block (some r) tm)
    t.block k i = block ∧ t.flash1 = s.flash1 ∧
      (∀ o, (o < slotBase k + 65536 * i ∨ slotBase k + 65536 * i + 65536 ≤ o) → flashByte t.flash0 o = flashByte s.flash0 o) ∧
      t.hub.upd = { s.hub.upd with verified := s.hub.upd.verified.filter fun x => x != k } ∧
      t.hub.Ended c (if blockValid block i (t.slotBuild k) = true then 0 else 7) 0 0 [] := by
  intro t
  obtain ⟨hput, hf1, hout, hhost, hupd⟩ := s.blockPut_spec (slotBase k + 0x10000 * i) hlen
  have ht : t = (s.blockPut (slotBase k + 0x10000 * i) block).endWith r
      (if blockValid ((s.blockPut (slotBase k + 0x10000 * i) block).block k i) i
        ((s.blockPut (slotBase k + 0x10000 * i) block).slotBuild k) = true then stOk else stRefused) 0 := by
    have := State.performWrite_block (g := blockWrite k i block (some r) tm) rfl rfl s
    rwa [show (blockWrite k i block (some r) tm).addr = slotBase k + 0x10000 * i from rfl, slotBase_div hi, slotBase_mod hi] at this
  clear_value t
  generalize s.blockPut (slotBase k + 0x10000 * i) block = u at *
  have hblock : u.block k i = block := hput
  rw [hblock] at ht
  obtain ⟨he0, he1, heu⟩ := u.endWith_kept r (if blockValid block i (u.slotBuild k) = true then stOk else stRefused) 0
  have hends := State.endWith_ends (s := u) (r := r) ((Hub.openCmd_congr (congrArg HostInt.cmds hhost) r.q r.slot).trans ho)
    (if blockValid block i (u.slotBuild k) = true then stOk else stRefused) 0
  rw [← ht] at he0 he1 heu hends
  obtain ⟨-, -, hended, -⟩ := hends
  have hbuild : t.slotBuild k = u.slotBuild k := by rw [State.slotBuild, State.slotBuild, he0]
  refine ⟨?_, he1.trans hf1, fun o h => (congrArg (flashByte · o) he0).trans (hout o h), ?_, ?_⟩
  · rw [State.block, he0]
    exact hput
  · rw [heu, hupd, slotBase_div hi]
  · rw [hbuild]
    exact hended

/-! ### UPD_BEGIN and UPD_BLOCK (R456) -/

theorem downloadsBegin (s : State) (r : CmdRef) (k len : Nat) (block : List Byte) (c : HostCmd) (h : s.activeCmd r 0x0701 = some c)
    (hw : (s.hub.upd.gated.any fun g => g.cmd == some r) = false) :
    ∃ t, exec (.updBegin r k len block) s = .next t ∧
      ((2 ≤ k ∨ 0x2000000 < len) → s.Ends t c 3 0 0 []) ∧
      (k < 2 → len ≤ 0x2000000 → s.beginOk k block = false → s.Ends t c 7 0 0 []) ∧
      (k < 2 → len ≤ 0x2000000 → s.beginOk k block = true → block.length = 65536 → s.hub.on NVW_STAT_PF = false →
        (s.hub.gateOpen 256 = true → flashBytes t.flash0 (slotBase k) 65536 = block ∧ t.hub.upd.downSlot = some k ∧ t.flash1 = s.flash1 ∧
          (∀ o, (o < slotBase k ∨ slotBase k + 65536 ≤ o) → flashByte t.flash0 o = flashByte s.flash0 o) ∧
          t.hub.Ended c (if blockValid block 0 (hdrBuild block) = true then 0 else 7) 0 0 []) ∧
        (s.hub.gateOpen 256 = false → s.OnlyHub t ∧ t.hub.host = s.hub.host ∧
          t.hub.fget NVW_STAT_DEFCNT = satInc 65535 (s.hub.fget NVW_STAT_DEFCNT) ∧
          t.hub.upd.gated = s.hub.upd.gated ++ [{ kind := .block, pages := 256, addr := slotBase k, bytes := block, cmd := some r, t0 := s.now }])) := by
  have hopen := (State.activeCmd_some h).1
  refine ⟨s.updBegin r k len block, done_of_eq (State.writeCmd_of_active h hw _), fun hbad => ?_, fun hk hl hno => ?_, fun hk hl hok hlen hpf => ?_⟩
  · rw [State.updBegin, if_pos hbad]
    exact State.endWith_ends hopen stBadParam 0
  · rw [State.updBegin, if_neg (by omega), if_pos (by simp [hno])]
    exact State.endWith_ends hopen stRefused 0
  · rw [State.updBegin, if_neg (by omega), if_neg (by simp [hok, hlen])]
    have hbase : slotBase k + 65536 * 0 = slotBase k := by omega
    have hpf' : (s.setDownload k).hub.on NVW_STAT_PF = false := hpf
    have hgate : (s.setDownload k).hub.gateOpen 256 = s.hub.gateOpen 256 := rfl
    have hopen' : (s.setDownload k).hub.openCmd r.q r.slot = some c := hopen
    refine ⟨fun hg => ?_, fun hg => ?_⟩
    · rw [State.gated_of_open (g := blockWrite k 0 block (some r) s.now) hpf' (hgate.trans hg)]
      obtain ⟨hput, hf1, hout, hupd, hend⟩ := State.performBlock_spec hopen' (k := k) (i := 0) (by omega) hlen s.now
      generalize (s.setDownload k).performWrite _ = t at *
      rw [State.block, hbase] at hput
      rw [hbase] at hout
      rw [t.slotBuild_eq_hdrBuild k hput] at hend
      exact ⟨hput, (congrArg UpdInt.downSlot hupd).trans rfl, hf1, hout, hend⟩
    · rw [State.gated_of_closed (g := blockWrite k 0 block (some r) s.now) hpf' (hgate.trans hg)]
      exact ⟨rfl, rfl, (Hub.defer_spec _ _).1, rfl⟩

theorem State.updBlock_bad {s : State} {k : Nat} (hs : s.downloadSlot = some k) {i : Nat} {block : List Byte}
    (hbad : 512 ≤ i ∨ block.length ≠ 65536) (r : CmdRef) : s.updBlock r i block = s.endWith r stRefused 0 := by
  unfold State.updBlock
  rw [hs]
  exact if_pos hbad

/-- A block of the right length and place is written unless it stands there already. -/
theorem State.updBlock_good {s : State} {k : Nat} (hs : s.downloadSlot = some k) {i : Nat} {block : List Byte} (hi : i < 512)
    (hlen : block.length = 65536) (r : CmdRef) :
    s.updBlock r i block = if (blockValid (s.block k i) i (s.slotBuild k) && s.block k i == block) = true then s.endWith r stOk 0
      else s.gated (blockWrite k i block (some r) s.now) := by
  have hok : ¬ (512 ≤ i ∨ block.length ≠ 65536) := not_or.mpr ⟨Nat.not_le.mpr hi, not_not.mpr hlen⟩
  unfold State.updBlock
  rw [hs]
  exact if_neg hok

theorem blocksAreStored (s : State) (r : CmdRef) (i k : Nat) (block : List Byte) (c : HostCmd) (h : s.activeCmd r 0x0702 = some c)
    (hw : (s.hub.upd.gated.any fun g => g.cmd == some r) = false) (hs : s.downloadSlot = some k) :
    ∃ t, exec (.updBlock r i block) s = .next t ∧
      ((512 ≤ i ∨ block.length ≠ 65536) → s.Ends t c 7 0 0 []) ∧
      (i < 512 → block.length = 65536 → s.hub.on NVW_STAT_PF = false → s.hub.gateOpen 256 = true →
        t.block k i = block ∧ t.flash1 = s.flash1 ∧
        (∀ o, (o < slotBase k + 65536 * i ∨ slotBase k + 65536 * i + 65536 ≤ o) → flashByte t.flash0 o = flashByte s.flash0 o) ∧
        t.hub.upd.verified =
          (if blockValid block i (s.slotBuild k) && s.block k i == block then s.hub.upd.verified else s.hub.upd.verified.filter fun x => x != k) ∧
        t.hub.Ended c (if blockValid block i (t.slotBuild k) = true then 0 else 7) 0 0 []) := by
  have hopen := (State.activeCmd_some h).1
  refine ⟨s.updBlock r i block, done_of_eq (State.writeCmd_of_active h hw _), fun hbad => ?_, fun hi hlen hpf hg => ?_⟩
  · rw [State.updBlock_bad hs hbad]
    exact State.endWith_ends hopen stRefused 0
  · rw [State.updBlock_good hs hi hlen]
    by_cases hsame : s.block k i = block
    · cases hv : blockValid block i (s.slotBuild k)
      · rw [if_neg (by rw [hsame, hv]; simp), if_neg (by simp), State.gated_of_open (g := blockWrite k i block (some r) s.now) hpf hg]
        obtain ⟨hput, hf1, hout, hupd, hend⟩ := State.performBlock_spec hopen (k := k) hi hlen s.now
        exact ⟨hput, hf1, hout, congrArg UpdInt.verified hupd, hend⟩
      · rw [if_pos (by rw [hsame, hv]; simp), if_pos (by rw [hsame]; simp)]
        obtain ⟨he0, he1, heu⟩ := s.endWith_kept r stOk 0
        obtain ⟨-, -, hended, -⟩ := State.endWith_ends hopen stOk 0
        generalize s.endWith r stOk 0 = t at *
        refine ⟨by rw [State.block, he0]; exact hsame, he1, fun o _ => by rw [he0], congrArg UpdInt.verified heu, ?_⟩
        rw [State.slotBuild, he0, ← State.slotBuild, if_pos hv]
        exact hended
    · have hne : (s.block k i == block) = false := by simpa using hsame
      rw [if_neg (by rw [hne]; simp), if_neg (by rw [hne]; simp), State.gated_of_open (g := blockWrite k i block (some r) s.now) hpf hg]
      obtain ⟨hput, hf1, hout, hupd, hend⟩ := State.performBlock_spec hopen (k := k) hi hlen s.now
      exact ⟨hput, hf1, hout, congrArg UpdInt.verified hupd, hend⟩

/-! ### UPD_VERIFY and UPD_FORWARD (R458, R459) -/

theorem slotsAreVerified (s : State) (r : CmdRef) (k : Nat) (c : HostCmd) (h : s.activeCmd r 0x0703 = some c) :
    let ok : Bool := decide (k < 2) && s.slotVerifies k
    ∃ t, exec (.updVerify r k) s = .next t ∧ s.OnlyHub t ∧
      t.hub = { s.hub with reg := t.hub.reg, host := { s.hub.host with cmds := t.hub.host.cmds }, upd := t.hub.upd } ∧
      s.hub.RegsKept t.hub [HCMD_QCNT 0, HCMD_QCNT 1, HCMD_QCNT 2, HCMD_QCNT 3] ∧ t.hub.Ended c (if ok then 0 else 7) 0 0 [] ∧
      t.hub.upd = { s.hub.upd with verified := if ok then insertL k s.hub.upd.verified else s.hub.upd.verified } := by
  intro ok
  have hopen := (State.activeCmd_some h).1
  refine ⟨s.updVerify r k, done_of_eq (State.hCmd_of_active h _), ?_⟩
  cases hok : ok
  · have hver : s.verifySlot k = (false, s) := if_neg (by rw [show (decide (k < 2) && s.slotVerifies k) = false from hok]; decide)
    have heq : s.updVerify r k = s.endWith r stRefused 0 := by rw [State.updVerify, hver]; rfl
    obtain ⟨hhub, ⟨hcmds, hregs⟩, hended, -⟩ := State.endWith_ends hopen stRefused 0
    rw [heq]
    generalize s.endWith r stRefused 0 = t at *
    generalize t.hub = u at *
    exact ⟨hhub, hcmds.trans (by rw [hcmds]), hregs, hended, by rw [hcmds]; rfl⟩
  · have heq : s.updVerify r k = (s.modHub fun h => { h with upd := { h.upd with verified := insertL k h.upd.verified } }).endWith r stOk 0 := by
      have hver : s.verifySlot k = (true, s.modHub fun h => { h with upd := { h.upd with verified := insertL k h.upd.verified } }) :=
        if_pos (show (decide (k < 2) && s.slotVerifies k) = true from hok)
      rw [State.updVerify, hver]
      rfl
    obtain ⟨hhub, ⟨hcmds, hregs⟩, hended, -⟩ := State.endWith_ends
      (s := s.modHub fun h => { h with upd := { h.upd with verified := insertL k h.upd.verified } }) (r := r) hopen stOk 0
    rw [heq]
    generalize State.endWith _ r stOk 0 = t at *
    rw [State.modHub_hub] at hcmds hregs
    have hupd : t.hub.upd = { s.hub.upd with verified := insertL k s.hub.upd.verified } := congrArg Hub.upd hcmds
    refine ⟨(State.onlyHub_modHub _ _).trans hhub, ?_, hregs, hended, hupd⟩
    rw [hupd]
    exact hcmds

theorem slotsAreForwarded (s : State) (r : CmdRef) (link : Nat) (c : HostCmd) (h : s.activeCmd r 0x0707 = some c) :
    ∃ t, exec (.updForward r link) s = .next t ∧
      (s.linkOpen link = false → s.Ends t c 8 0 0 []) ∧
      (s.linkOpen link = true → t.hub.Ended c 0 0 0 [] ∧ s.OnlyHub t ∧ t.hub.ptnr.fwdOut = some link ∧ t.hub.ptnr.fwdSrc = s.forwardSlot) := by
  have hopen := (State.activeCmd_some h).1
  refine ⟨s.updForward r link, done_of_eq (State.hCmd_of_active h _), fun hl => ?_, fun hl => ?_⟩
  · rw [State.updForward, if_pos (by rw [hl]; decide)]
    exact State.endWith_ends hopen stNotReady 0
  · rw [State.updForward, if_neg (by rw [hl]; decide)]
    have hopen' : (s.startForward link s.forwardSlot 0).hub.openCmd r.q r.slot = some c := hopen
    have hhub : s.OnlyHub (s.startForward link s.forwardSlot 0) := rfl
    have hout : (s.startForward link s.forwardSlot 0).hub.ptnr.fwdOut = some link := rfl
    have hsrc : (s.startForward link s.forwardSlot 0).hub.ptnr.fwdSrc = s.forwardSlot := rfl
    generalize s.startForward link s.forwardSlot 0 = u at *
    obtain ⟨hends, ⟨hcmds, -⟩, hended, -⟩ := State.endWith_ends hopen' stOk 0
    generalize u.endWith r stOk 0 = t at *
    have hptnr : t.hub.ptnr = u.hub.ptnr := (congrArg Hub.ptnr hcmds).trans rfl
    exact ⟨hended, hhub.trans hends, by rw [hptnr, hout], by rw [hptnr, hsrc]⟩

/-! ### SETTINGS_COMMIT (R412, R450, R470) -/

/-- The journal's entries stand in the second flash, and the update controller counts them. -/
def State.Journaled (s t : State) : Prop :=
  t = { s with flash1 := t.flash1, hub := { s.hub with upd := { s.hub.upd with jNext := t.hub.upd.jNext, jSeq := t.hub.upd.jSeq } } }

theorem State.Journaled.refl (s : State) : s.Journaled s := rfl

theorem State.Journaled.trans {s t u : State} (a : s.Journaled t) (b : t.Journaled u) : s.Journaled u := by
  unfold State.Journaled at *
  rw [b, a]

theorem State.jPut_journaled (s : State) (ty : Nat) (data : List Byte) : s.Journaled (s.jPut ty data) := rfl

theorem State.journaled_flash (s : State) (m : List Host.Cell) : s.Journaled { s with flash1 := m } := rfl

theorem State.foldl_jPut_journaled (es : List (List Byte)) (s : State) :
    s.Journaled (es.foldl (fun (s : State) e => s.jPut (jType e) (jData e)) s) := by
  induction es generalizing s with
  | nil => exact .refl s
  | cons e es ih => exact (s.jPut_journaled _ _).trans (ih _)

theorem State.jAppend_journaled (s : State) (ty : Nat) (data : List Byte) : s.Journaled (s.jAppend ty data) := by
  unfold State.jAppend
  dsimp only
  split
  · exact .refl s
  · split
    · exact ((s.jPut_journaled ty data).trans (State.foldl_jPut_journaled _ _)).trans (State.journaled_flash _ _)
    · exact s.jPut_journaled ty data

theorem State.Journaled.kept {s t : State} (a : s.Journaled t) : t.flash0 = s.flash0 ∧ t.hub.host = s.hub.host ∧ t.hub.reg = s.hub.reg ∧
    (∀ l, t.lane l = s.lane l) ∧ t.hub.upd = { s.hub.upd with jNext := t.hub.upd.jNext, jSeq := t.hub.upd.jSeq } := by
  refine ⟨by rw [a], by rw [a], by rw [a], fun l => ?_, congrArg (·.hub.upd) a⟩
  rw [a]
  cases l <;> rfl

/-- The gateway's load changes its registers and its map. -/
def Hub.GatewayOnly (h k : Hub) : Prop := k = { h with reg := k.reg, sgw := k.sgw }

theorem Hub.GatewayOnly.trans {h k m : Hub} (a : h.GatewayOnly k) (b : k.GatewayOnly m) : h.GatewayOnly m := by
  unfold Hub.GatewayOnly at *
  rw [b, a]

theorem Hub.GatewayOnly.kept {h k : Hub} (a : h.GatewayOnly k) : k.host = h.host ∧ k.upd = h.upd := ⟨by rw [a], by rw [a]⟩

theorem Hub.gatewayOnly_fset (h : Hub) (f : Fld) (v : Nat) : h.GatewayOnly (h.fset f v) := rfl

theorem Hub.gatewayOnly_map (h : Hub) (g : SgwInt) : h.GatewayOnly { h with sgw := g } := rfl

theorem Hub.sgwLoad_gatewayOnly (h : Hub) (word : Nat → Word) : h.GatewayOnly (h.sgwLoad word) := by
  have hfail (kind : Nat) (x : Nat × Nat) : h.GatewayOnly
      { (((((h.fset SGW_STAT_LOADED 0).fset SGW_STAT_LOAD_ERR 1).fset SGW_STAT_ERRKIND kind).fset SGW_STAT_ERRCODE x.2).fset SGW_STAT_ERRIDX
        x.1) with sgw := sgwReset } :=
    (((((h.gatewayOnly_fset _ _).trans (Hub.gatewayOnly_fset _ _ _)).trans (Hub.gatewayOnly_fset _ _ _)).trans
      (Hub.gatewayOnly_fset _ _ _)).trans (Hub.gatewayOnly_fset _ _ _)).trans (Hub.gatewayOnly_map _ _)
  unfold Hub.sgwLoad
  dsimp only
  split
  · exact hfail 0 _
  · split
    · exact hfail 1 _
    · exact (h.gatewayOnly_fset _ _).trans (Hub.gatewayOnly_map _ _)

theorem Hub.sgwLoadSection_gatewayOnly (h : Hub) (area : List Byte) : h.GatewayOnly (h.sgwLoadSection area) := by
  unfold Hub.sgwLoadSection
  exact h.sgwLoad_gatewayOnly _

/-- The area of a commit and its record. -/
theorem State.commitArea_spec (s : State) (area fmt : Nat) (bytes : List Byte) :
    (s.commitArea area fmt bytes).flash0 = s.flash0 ∧ (s.commitArea area fmt bytes).hub.host = s.hub.host ∧
      (s.commitArea area fmt bytes).hub.upd.staged = [] ∧ (s.commitArea area fmt bytes).hub.upd.setCrc = BitVec.ofNat 32 (crc32c bytes) ∧
      (s.commitArea area fmt bytes).hub.upd.setLen = bytes.length ∧ (s.commitArea area fmt bytes).hub.upd.setSeq = s.hub.upd.setSeq + 1 ∧
      (s.commitArea area fmt bytes).hub.upd.setArea = area := by
  obtain ⟨hf0, hhost, -⟩ := (State.jAppend_journaled { s with flash1 := flashPutBytes (flashErase s.flash1 (areaBase area) 0x400000) (areaBase area) bytes }
    jSettings (beBytes 1 area ++ zeros 1 ++ beBytes 2 fmt ++ beBytes 4 bytes.length ++ beBytes 4 (crc32c bytes) ++
      beBytes 4 (s.hub.upd.setSeq + 1))).kept
  exact ⟨hf0, hhost, rfl, rfl, rfl, rfl, rfl⟩

/-- The write a commit asks for. -/
def settingsWriteOf (s : State) (r : CmdRef) : GatedWrite :=
  { kind := .settings, pages := (s.stagedBytes.length + 255) / 256 + 1, addr := if s.hub.upd.setArea = 0 then 1 else 0, bytes := s.stagedBytes,
    cmd := some r, t0 := s.now }

theorem settingsAreCommitted (s : State) (r : CmdRef) (crc : Word) (c : HostCmd) (h : s.activeCmd r 0x0303 = some c)
    (hw : (s.hub.upd.gated.any fun g => g.cmd == some r) = false) :
    ∃ t, exec (.settingsCommit r crc) s = .next t ∧
      ((s.pointer.trial ≠ 0xFF ∨ crc32c s.stagedBytes ≠ crc.toNat) → s.Ends t c 7 0 0 []) ∧
      (s.pointer.trial = 0xFF → crc32c s.stagedBytes = crc.toNat → s.hub.on NVW_STAT_PF = false →
        s.hub.gateOpen ((s.stagedBytes.length + 255) / 256 + 1) = true →
        t.hub.Ended c 0 0 0 [] ∧ t.hub.upd.staged = [] ∧ t.hub.upd.setCrc = crc ∧ t.hub.upd.setLen = s.stagedBytes.length ∧
        t.hub.upd.setSeq = s.hub.upd.setSeq + 1 ∧ t.hub.upd.setArea = (if s.hub.upd.setArea = 0 then 1 else 0) ∧ t.flash0 = s.flash0) := by
  have hopen := (State.activeCmd_some h).1
  refine ⟨s.settingsCommit r crc, done_of_eq (State.writeCmd_of_active h hw _), fun hbad => ?_, fun ht hcrc hpf hg => ?_⟩
  · rw [State.settingsCommit, if_pos hbad]
    exact State.endWith_ends hopen stRefused 0
  · have hcommit : s.settingsCommit r crc = s.gated (settingsWriteOf s r) := if_neg (by rw [ht, hcrc]; simp)
    rw [hcommit, State.gated_of_open (g := settingsWriteOf s r) hpf hg]
    have heq : s.performWrite (settingsWriteOf s r) =
        ((s.commitArea (if s.hub.upd.setArea = 0 then 1 else 0) s.hub.upd.setFmt s.stagedBytes).modHub (·.sgwLoadSection s.stagedBytes)).endWith
          r stOk 0 := rfl
    generalize (if s.hub.upd.setArea = 0 then 1 else 0) = area at *
    generalize s.stagedBytes = bs at *
    obtain ⟨hf0, hhost, hstaged, hsc, hlen, hseq, harea⟩ := s.commitArea_spec area s.hub.upd.setFmt bs
    rw [heq]
    generalize s.commitArea area s.hub.upd.setFmt bs = u at *
    obtain ⟨hload, hkept⟩ := (u.hub.sgwLoadSection_gatewayOnly bs).kept
    have hends := State.endWith_after (s := u) (f := (·.sgwLoadSection bs)) (r := r)
      ((Hub.openCmd_congr (congrArg HostInt.cmds hhost) r.q r.slot).trans hopen) (congrArg HostInt.cmds hload) stOk 0
    obtain ⟨he0, -, heu⟩ := (u.modHub (·.sgwLoadSection bs)).endWith_kept r stOk 0
    rw [State.modHub_hub] at heu
    generalize (u.modHub (·.sgwLoadSection bs)).endWith r stOk 0 = t at *
    have hupd : t.hub.upd = u.hub.upd := heu.trans hkept
    rw [hupd]
    exact ⟨hends.2.2.1, hstaged, hsc.trans (by rw [hcrc, BitVec.ofNat_toNat, BitVec.setWidth_eq]), hlen, hseq, harea, he0.trans ((State.modHub_flash0 _ _).trans hf0)⟩

/-- Settles O54: blocks, verification, forwarding and settings, each through its own write. -/
theorem downloadsWriteOnlyWhatTheyMay : Obligations.DownloadsWriteOnlyWhatTheyMay :=
  ⟨downloadsBegin, blocksAreStored, slotsAreVerified, slotsAreForwarded, settingsAreCommitted⟩

end Sys2Proof.Machine
end

section
/-! PROOFS. O55: activation, rolling steps, their timeouts and the confirmation of a trial (R460 to R468). -/

namespace Sys2Proof.Machine

/-! ### Pointer entries (R463) -/

theorem pointerOf_pointerTail (p : BootPtr) :
    (pointerOf (zeros 4 ++ pointerTail p)).active = p.active % 256 ∧ (pointerOf (zeros 4 ++ pointerTail p)).trial = p.trial % 256 ∧
      (pointerOf (zeros 4 ++ pointerTail p)).parts = p.parts % 256 ∧ (pointerOf (zeros 4 ++ pointerTail p)).tries = p.tries % 256 := by
  refine ⟨?_, ?_, ?_, ?_⟩ <;> simp [pointerOf, pointerTail, zeros, beAt, ofBe, ofLe, List.replicate]

theorem Hub.showPointer_regs (h : Hub) (p : BootPtr) : h.RegsKept (h.showPointer p) [UPD_STAT] := by
  have hset (u : Hub) {f : Fld} (hf : f.addr = UPD_STAT) (v : Nat) : u.RegsKept (u.fset f v) [UPD_STAT] :=
    Hub.regsKept_fset _ _ (by rw [hf]; exact List.mem_singleton_self _)
  exact (((hset _ (f := UPD_STAT_ACTIVE) rfl _).trans (hset _ (f := UPD_STAT_TRIAL) rfl _)).trans (hset _ (f := UPD_STAT_PARTS) rfl _)).trans
    (hset _ (f := UPD_STAT_TRIES) rfl _)

theorem Hub.showPointer_fields (h : Hub) (p : BootPtr) :
    (h.showPointer p).fget UPD_STAT_ACTIVE = p.active % 2 ∧ (h.showPointer p).fget UPD_STAT_TRIAL = (if p.trial = 0xFF then 3 else p.trial) % 4 ∧
      (h.showPointer p).fget UPD_STAT_PARTS = p.parts % 32 ∧ (h.showPointer p).fget UPD_STAT_TRIES = p.tries % 4 := by
  unfold Hub.showPointer
  generalize (if p.trial = 0xFF then 3 else p.trial) = trial
  refine ⟨?_, ?_, ?_, ?_⟩
  · rw [Hub.fget_fset_apart _ (f := UPD_STAT_TRIES) _ (by rfl) (by rfl) (by rfl),
      Hub.fget_fset_apart _ (f := UPD_STAT_PARTS) _ (by rfl) (by rfl) (by rfl),
      Hub.fget_fset_apart _ (f := UPD_STAT_TRIAL) _ (by rfl) (by rfl) (by rfl), Hub.fget_fset_set _ _ _ (by rfl)]
    exact congrArg (p.active % ·) (by rfl)
  · rw [Hub.fget_fset_apart _ (f := UPD_STAT_TRIES) _ (by rfl) (by rfl) (by rfl),
      Hub.fget_fset_apart _ (f := UPD_STAT_PARTS) _ (by rfl) (by rfl) (by rfl), Hub.fget_fset_set _ _ _ (by rfl)]
    exact congrArg (trial % ·) (by rfl)
  · rw [Hub.fget_fset_apart _ (f := UPD_STAT_TRIES) _ (by rfl) (by rfl) (by rfl), Hub.fget_fset_set _ _ _ (by rfl)]
    exact congrArg (p.parts % ·) (by rfl)
  · rw [Hub.fget_fset_set _ _ _ (by rfl)]
    exact congrArg (p.tries % ·) (by rfl)

theorem Hub.showPointer_host (h : Hub) (p : BootPtr) : (h.showPointer p).host = h.host := by
  simp only [Hub.showPointer, Hub.fset_host]

theorem Hub.showPointer_mbx (h : Hub) (p : BootPtr) (l : LaneId) : (h.showPointer p).mbx l = h.mbx l := by
  cases l <;> simp only [Hub.showPointer, Hub.mbx, Hub.fset_mbxA, Hub.fset_mbxB, Hub.fset_mbxC]

/-- The state with another second flash and another hub. -/
def State.putHubFlash (s : State) (m : List Host.Cell) (h : Hub) : State := { s with flash1 := m, hub := h }

theorem State.putHubFlash_hub (s : State) (m : List Host.Cell) (h : Hub) : (s.putHubFlash m h).hub = h := rfl
theorem State.putHubFlash_flash0 (s : State) (m : List Host.Cell) (h : Hub) : (s.putHubFlash m h).flash0 = s.flash0 := rfl
theorem State.putHubFlash_now (s : State) (m : List Host.Cell) (h : Hub) : (s.putHubFlash m h).now = s.now := rfl
theorem State.putHubFlash_lane (s : State) (m : List Host.Cell) (h : Hub) (l : LaneId) : (s.putHubFlash m h).lane l = s.lane l := by
  cases l <;> rfl

theorem State.putHubFlash_descCount (s : State) (m : List Host.Cell) {h : Hub} (hh : h.mbxA = s.hub.mbxA) :
    (s.putHubFlash m h).descCount = s.descCount := by
  unfold State.descCount
  rw [State.putHubFlash_hub, hh]
  rfl

/-- The state with a pointer entry written and shown. -/
def State.withPointer (s : State) (p : BootPtr) : State :=
  s.putHubFlash (pointerLog.write s.flash1 fun q => beBytes 4 q ++ pointerTail p) (s.hub.showPointer p)

theorem State.writePointer_powered {s : State} (hpf : s.hub.on NVW_STAT_PF = false) (p : BootPtr) : s.writePointer p = s.withPointer p :=
  if_neg (by rw [hpf]; decide)

theorem State.withPointer_hub (s : State) (p : BootPtr) : (s.withPointer p).hub = s.hub.showPointer p := s.putHubFlash_hub _ _
theorem State.withPointer_flash0 (s : State) (p : BootPtr) : (s.withPointer p).flash0 = s.flash0 := s.putHubFlash_flash0 _ _
theorem State.withPointer_now (s : State) (p : BootPtr) : (s.withPointer p).now = s.now := s.putHubFlash_now _ _
theorem State.withPointer_lane (s : State) (p : BootPtr) (l : LaneId) : (s.withPointer p).lane l = s.lane l := s.putHubFlash_lane _ _ l

theorem State.withPointer_descCount (s : State) (p : BootPtr) : (s.withPointer p).descCount = s.descCount :=
  s.putHubFlash_descCount _ (s.hub.showPointer_mbx p .a)

/-- What is carried to the lanes after a pointer entry is carried from before it too. -/
theorem State.committed_withPointer {s t : State} {p : BootPtr} {op : Nat} {args : List Nat} {data : List Byte}
    (h : (s.withPointer p).Committed t op args data) : s.Committed t op args data := by
  obtain ⟨hseq, hmbx⟩ := h
  rw [State.withPointer_hub] at hseq hmbx
  rw [s.hub.showPointer_regs p HCMD_SEQ (by decide)] at hseq hmbx
  refine ⟨hseq, fun l => ?_⟩
  have hl := hmbx l
  rwa [s.hub.showPointer_mbx p l, State.withPointer_now] at hl

theorem State.writePointer_lane (s : State) (p : BootPtr) (l : LaneId) : (s.writePointer p).lane l = s.lane l := by
  cases hpf : s.hub.on NVW_STAT_PF
  · rw [State.writePointer_powered hpf, State.withPointer_lane]
  · rw [State.writePointer, if_pos hpf]

theorem State.performWrite_pointer (s : State) (p : BootPtr) (r : CmdRef) (tm : Nat) :
    s.performWrite (pointerWrite p (some r) tm) = (s.writePointer (pointerOf (zeros 4 ++ pointerTail p))).endWith r stOk 0 := rfl

/-- A pointer entry a command asked for: shown, and the command ended. -/
theorem State.gated_pointer {s : State} {r : CmdRef} {c : HostCmd} (ho : s.hub.openCmd r.q r.slot = some c)
    (hpf : s.hub.on NVW_STAT_PF = false) (hg : s.hub.gateOpen 1 = true) (p : BootPtr) (tm : Nat) :
    let t := s.gated (pointerWrite p (some r) tm)
    t.hub.Ended c 0 0 0 [] ∧ t.hub.fget UPD_STAT_ACTIVE = p.active % 256 % 2 ∧
      t.hub.fget UPD_STAT_TRIAL = (if p.trial % 256 = 0xFF then 3 else p.trial % 256) % 4 ∧ t.hub.fget UPD_STAT_PARTS = p.parts % 256 % 32 ∧
      t.hub.fget UPD_STAT_TRIES = p.tries % 256 % 4 ∧ t.flash0 = s.flash0 := by
  intro t
  have ht : t = (s.writePointer (pointerOf (zeros 4 ++ pointerTail p))).endWith r stOk 0 :=
    (State.gated_of_open (g := pointerWrite p (some r) tm) hpf hg).trans (s.performWrite_pointer p r tm)
  clear_value t
  obtain ⟨hactive, htrial, hparts, htries⟩ := pointerOf_pointerTail p
  generalize pointerOf (zeros 4 ++ pointerTail p) = q at *
  obtain ⟨sactive, strial, sparts, stries⟩ := s.hub.showPointer_fields q
  rw [State.writePointer_powered hpf] at ht
  have hhub := s.withPointer_hub q
  have hopen : (s.withPointer q).hub.openCmd r.q r.slot = some c := by
    rw [hhub, Hub.openCmd_congr (congrArg HostInt.cmds (s.hub.showPointer_host q))]
    exact ho
  have hf0 := s.withPointer_flash0 q
  generalize s.withPointer q = u at *
  obtain ⟨-, ⟨-, hregs⟩, hended, -⟩ := State.endWith_ends hopen stOk 0
  obtain ⟨he0, -, -⟩ := u.endWith_kept r stOk 0
  rw [← ht] at hregs hended he0
  rw [hhub] at hregs
  refine ⟨hended, ?_, ?_, ?_, ?_, he0.trans hf0⟩
  · rw [hregs.fget (by decide), sactive, hactive]
  · rw [hregs.fget (by decide), strial, htrial]
  · rw [hregs.fget (by decide), sparts, hparts]
  · rw [hregs.fget (by decide), stries, htries]

/-! ### UPD_ACTIVATE and UPD_CONFIRM (R462, R465, R468) -/

/-- The pointer of a new trial. -/
def trialPointer (p : BootPtr) (k : Nat) (rolls : Bool) (build : Dword) : BootPtr :=
  { p with trial := k, parts := if rolls then 0 else 0x1F, tries := 0, tbuild := build }

theorem trialPointer_parts (p : BootPtr) (k : Nat) (rolls : Bool) (build : Dword) :
    (trialPointer p k rolls build).parts % 256 % 32 = if rolls = true then 0 else 0x1F := by cases rolls <;> rfl

theorem slotsAreActivated (s : State) (r : CmdRef) (k : Nat) (c : HostCmd) (h : s.activeCmd r 0x0704 = some c)
    (hw : (s.hub.upd.gated.any fun g => g.cmd == some r) = false) :
    ∃ t, exec (.updActivate r k) s = .next t ∧
      ((s.hub.isActive = true ∨ k ∉ s.hub.upd.verified) → s.Ends t c 7 0 0 []) ∧
      (s.hub.isActive = false → k ∈ s.hub.upd.verified → k < 2 → s.hub.on NVW_STAT_PF = false → s.hub.gateOpen 1 = true →
        t.hub.Ended c 0 0 0 [] ∧ t.hub.fget UPD_STAT_TRIAL = k ∧ t.hub.fget UPD_STAT_PARTS = (if s.rolling k = true then 0 else 0x1F) ∧
        t.hub.fget UPD_STAT_TRIES = 0 ∧ t.flash0 = s.flash0) := by
  have hopen := (State.activeCmd_some h).1
  refine ⟨s.updActivate r k, done_of_eq (State.writeCmd_of_active h hw _), fun hno => ?_, fun ha hv hk hpf hg => ?_⟩
  · rw [State.updActivate, if_pos (by simpa using hno)]
    exact State.endWith_ends hopen stRefused 0
  · let u := s.modHub fun h => { h with upd := { h.upd with stopped := false } }
    have heq : s.updActivate r k =
        u.gated (pointerWrite (trialPointer s.pointer k (s.rolling k) (BitVec.ofNat 64 (s.slotBuild k))) (some r) s.now) :=
      if_neg (by simp [ha, hv])
    obtain ⟨hended, -, htrial, hparts, htries, hf0⟩ := State.gated_pointer (s := u) (r := r) hopen hpf hg
      (trialPointer s.pointer k (s.rolling k) (BitVec.ofNat 64 (s.slotBuild k))) s.now
    rw [heq]
    refine ⟨hended, htrial.trans ?_, hparts.trans (trialPointer_parts _ _ _ _), htries, hf0⟩
    change (if k % 256 = 255 then 3 else k % 256) % 4 = k
    rw [if_neg (by omega)]
    omega

theorem trialsAreConfirmed (s : State) (r : CmdRef) (c : HostCmd) (h : s.activeCmd r 0x0705 = some c)
    (hw : (s.hub.upd.gated.any fun g => g.cmd == some r) = false) :
    ∃ t, exec (.updConfirm r) s = .next t ∧
      ((s.pointer.trial = 0xFF ∨ s.pointer.parts ≠ 0x1F ∨ s.voters.length < 2 ∨ s.hub.on UPD_STAT_SET_INCOMP = true) → s.Ends t c 7 0 0 []) ∧
      (s.pointer.trial < 2 → s.pointer.parts = 0x1F → 2 ≤ s.voters.length → s.hub.on UPD_STAT_SET_INCOMP = false →
        s.hub.on NVW_STAT_PF = false → s.hub.gateOpen 1 = true →
        t.hub.Ended c 0 0 0 [] ∧ t.hub.fget UPD_STAT_ACTIVE = s.pointer.trial ∧ t.hub.fget UPD_STAT_TRIAL = 3 ∧
        t.hub.fget UPD_STAT_PARTS = 0 ∧ t.hub.fget UPD_STAT_TRIES = 0) := by
  have hopen := (State.activeCmd_some h).1
  refine ⟨s.updConfirm r, done_of_eq (State.writeCmd_of_active h hw _), fun hno => ?_, fun ht hp hv hs hpf hg => ?_⟩
  · have heq : s.updConfirm r = s.endWith r stRefused 0 := if_neg (by
      rintro ⟨h1, h2, h3, h4⟩
      rcases hno with hno | hno | hno | hno
      · exact h1 hno
      · exact hno h2
      · omega
      · exact absurd (h4.symm.trans hno) (by decide))
    rw [heq]
    exact State.endWith_ends hopen stRefused 0
  · have heq : s.updConfirm r = s.gated (pointerWrite { s.pointer with active := s.pointer.trial, trial := 0xFF, parts := 0, tries := 0 } (some r)
      s.now) := if_pos ⟨by omega, hp, hv, hs⟩
    obtain ⟨hended, hactive, htrial, hparts, htries, -⟩ := State.gated_pointer hopen hpf hg
      { s.pointer with active := s.pointer.trial, trial := 0xFF, parts := 0, tries := 0 } s.now
    rw [heq]
    refine ⟨hended, hactive.trans ?_, htrial, hparts, htries⟩
    change s.pointer.trial % 256 % 2 = s.pointer.trial
    omega

/-! ### ROLLING_STEP (R460, R466) -/

theorem State.stepDone_idle {s : State} (h : s.hub.fget UPD_STAT_STEP = 0) : s.stepDone = false := by
  unfold State.stepDone
  dsimp only
  rw [h]
  rfl

section
variable {s : State} (hr : s.hub.ready = true) (hst : s.hub.upd.stopped = false) (hb : s.hub.blockOff 0x71 = false)
  (h0 : s.hub.fget UPD_STAT_STEP = 0) (ht : s.pointer.trial ≠ 0xFF) (hpf : s.hub.on NVW_STAT_PF = false)
include hr hst hb h0 ht hpf

theorem State.rollingStep_none (hn : s.pointer.nextPart = none) (t : Nat) : s.rollingStep t = s := by
  unfold State.rollingStep
  dsimp only
  rw [if_neg (by simp [hr, hst, hb]), State.stepDone_idle h0, if_neg (by decide : ¬ (false = true)), if_neg (by simp [h0, ht, hpf]), hn]

/-- The next part, when no step runs: what may start it. -/
theorem State.rollingStep_some {i : Nat} (hn : s.pointer.nextPart = some i) (t : Nat) :
    s.rollingStep t =
      if (!s.stepMay i) = true then s else if (!s.hub.gateOpen 1) = true then s.modHub (·.fsat NVW_STAT_DEFCNT 1)
      else if (decide (2 ≤ i) && (s.commitDesc opLaneStep [] []).isNone) = true then s
      else (s.withPointer { s.pointer with parts := setField s.pointer.parts i 1 1 }).stepAct i t := by
  unfold State.rollingStep
  dsimp only
  rw [if_neg (by simp [hr, hst, hb]), State.stepDone_idle h0, if_neg (by decide : ¬ (false = true)), if_neg (by simp [h0, ht, hpf]), hn]
  dsimp only
  rw [State.writePointer_powered hpf]

end

/-- A part's bit is set by its step. -/
theorem getField_setField_first (x : Nat) : getField (setField x 0 1 1 % 32) 0 1 = 1 := by
  simp only [getField, setField, Nat.shiftLeft_eq, Nat.shiftRight_eq_div_pow]
  omega

/-- The FIELD part's step (R466): the image starts over. -/
theorem State.stepAct_field (u : State) (t : Nat) :
    (u.stepAct 0 t).hub.fget UPD_STAT_STEP = 1 ∧ (u.stepAct 0 t).hub.fget UPD_STAT_PARTS = u.hub.fget UPD_STAT_PARTS ∧
      (u.stepAct 0 t).hub.upd.fieldDone = [] ∧ ∀ l, (u.stepAct 0 t).lane l = u.lane l := by
  have hreg : (u.stepAct 0 t).hub.reg = (u.hub.fset UPD_STAT_STEP 1).reg := rfl
  refine ⟨?_, ?_, rfl, fun l => by cases l <;> rfl⟩
  · rw [Hub.fget_of_reg_eq hreg, Hub.fget_fset_set _ _ _ (by rfl)]
    rfl
  · rw [Hub.fget_of_reg_eq hreg, Hub.fget_fset_apart _ _ (by rfl) (by rfl) (by rfl)]

/-- The hub's step (R466): its reset, which the AON domain watches. -/
theorem State.stepAct_hub (u : State) (t : Nat) : (u.stepAct 1 t).hub.rst.held = true ∧ (u.stepAct 1 t).aon.hubStep = some t := by
  obtain ⟨-, -, hheld, -⟩ := (u.modHub (·.fset UPD_STAT_STEP 2)).assertHub_spec false [causeSwr]
  exact ⟨hheld, rfl⟩

theorem stepLane_range {i : Nat} {l : LaneId} (hl : stepLane (i + 1) = some l) : 2 ≤ i ∧ i < 5 := by
  unfold stepLane at hl
  split at hl
  · omega
  · split at hl
    · omega
    · split at hl
      · omega
      · exact absurd hl (by simp)

/-- A lane's step (R466): its descriptor goes into the three mailboxes. -/
theorem State.stepAct_lane (u : State) {i : Nat} {l : LaneId} (hl : stepLane (i + 1) = some l) (hn : u.descCount < 16) (t : Nat) :
    (u.stepAct i t).hub.fget UPD_STAT_STEP = i + 1 ∧ u.Committed (u.stepAct i t) 0x07FF [l.idx] [] ∧ ∀ k, (u.stepAct i t).lane k = u.lane k := by
  obtain ⟨h2, h5⟩ := stepLane_range hl
  have heq : u.stepAct i t = ((u.modHub (·.descPut (u.descOf opLaneStep [l.idx] []))).modHub (·.fset UPD_STAT_STEP (i + 1))).modHub fun h =>
      { h with upd := { h.upd with stepSeq := some (u.hub.rg HCMD_SEQ + 1), stepT := none } } := by
    unfold State.stepAct
    dsimp only
    rw [if_neg (by omega), if_neg (by omega), hl]
    dsimp only
    rw [State.commitDesc_room hn opLaneStep [l.idx] []]
  have hput (k : LaneId) := u.hub.descPut_mbx (u.descOf opLaneStep [l.idx] []) k
  have hreg := u.hub.descPut_reg (u.descOf opLaneStep [l.idx] [])
  rw [heq]
  refine ⟨?_, ⟨?_, fun k => ?_⟩, fun k => by cases k <;> rfl⟩
  · refine (Hub.fget_fset_set (u.hub.descPut (u.descOf opLaneStep [l.idx] [])) UPD_STAT_STEP (i + 1) (by rfl)).trans (Nat.mod_eq_of_lt ?_)
    change i + 1 < 8
    omega
  · refine (Hub.regsKept_fset (u.hub.descPut (u.descOf opLaneStep [l.idx] [])) (f := UPD_STAT_STEP) (as := [UPD_STAT]) (i + 1)
      (List.mem_singleton_self _) HCMD_SEQ (by decide)).trans ?_
    exact (congrArg (sparseGet hubRegDefault · HCMD_SEQ) hreg).trans (Hub.rg_setRg_same _ _ _)
  · rw [State.modHub_hub, State.modHub_hub, State.modHub_hub]
    generalize u.hub.descPut (u.descOf opLaneStep [l.idx] []) = v at *
    exact (by cases k <;> rfl : Hub.mbx _ k = v.mbx k).trans (hput k)

theorem updatesGoPartByPart (s : State) (tm : Nat) (hr : s.hub.ready = true) (hst : s.hub.upd.stopped = false) (hb : s.hub.blockOff 0x71 = false)
    (h0 : s.hub.fget UPD_STAT_STEP = 0) (ht : s.pointer.trial ≠ 0xFF) (hpf : s.hub.on NVW_STAT_PF = false) :
    ∃ t, exec (.rollingStep tm) s = .next t ∧
      (s.pointer.nextPart = none → t = s.at tm) ∧
      (s.pointer.nextPart = some 0 → s.hub.gateOpen 1 = true →
        t.hub.fget UPD_STAT_STEP = 1 ∧ getField (t.hub.fget UPD_STAT_PARTS) 0 1 = 1 ∧ t.hub.upd.fieldDone = [] ∧ ∀ l, t.lane l = s.lane l) ∧
      (∀ i, s.pointer.nextPart = some i → 1 ≤ i → (s.anyEasy = true ∨ s.voters.length ≠ 3) → t = s.at tm) ∧
      (s.pointer.nextPart = some 1 → s.anyEasy = false → s.voters.length = 3 → s.hub.isActive = false → s.hub.gateOpen 1 = true →
        t.hub.rst.held = true ∧ t.aon.hubStep = some tm) ∧
      (s.pointer.nextPart = some 1 → s.hub.isActive = true → t = s.at tm) ∧
      (∀ i l, s.pointer.nextPart = some i → stepLane (i + 1) = some l → s.anyEasy = false → s.voters.length = 3 → s.hub.gateOpen 1 = true →
        (s.hub.mbxA.cmds.filter fun d => decide (s.lastCatch ≤ d.t)).length < 16 →
        t.hub.fget UPD_STAT_STEP = i + 1 ∧ (s.at tm).Committed t 0x07FF [l.idx] [] ∧ ∀ k, t.lane k = s.lane k) ∧
      (∀ i, s.pointer.nextPart = some i → s.stepMay i = true → s.hub.gateOpen 1 = false → s.OnlyHub t ∧ s.hub.OnlyRegs t.hub [NVW_STAT] ∧
        t.hub.fget NVW_STAT_DEFCNT = satInc 65535 (s.hub.fget NVW_STAT_DEFCNT)) := by
  have hsome {i : Nat} (hn : s.pointer.nextPart = some i) := State.rollingStep_some (s := s.at tm) hr hst hb h0 ht hpf hn tm
  have hptr : (s.at tm).pointer = s.pointer := rfl
  rw [hptr] at hsome
  have hmay (i : Nat) : (s.at tm).stepMay i = s.stepMay i := rfl
  have hgate : (s.at tm).hub.gateOpen 1 = s.hub.gateOpen 1 := rfl
  refine ⟨(s.at tm).rollingStep tm, rfl, fun hn => ?_, fun hn hg => ?_, fun i hn hi hno => ?_, fun hn he hv ha hg => ?_, fun hn ha => ?_,
    fun i l hn hl he hv hg hroom => ?_, fun i hn hm hg => ?_⟩
  · exact State.rollingStep_none (s := s.at tm) hr hst hb h0 ht hpf hn tm
  · rw [hsome hn, hmay, hgate, if_neg (by simp [State.stepMay]), if_neg (by simp [hg]), if_neg (by simp)]
    obtain ⟨hstep, hparts, hdone, hlanes⟩ := State.stepAct_field
      ((s.at tm).withPointer { s.pointer with parts := setField s.pointer.parts 0 1 1 }) tm
    refine ⟨hstep, ?_, hdone, fun l => (hlanes l).trans ((State.withPointer_lane _ _ l).trans (by cases l <;> rfl))⟩
    obtain ⟨-, -, hshown, -⟩ := Hub.showPointer_fields (s.at tm).hub { s.pointer with parts := setField s.pointer.parts 0 1 1 }
    rw [hparts, State.withPointer_hub, hshown]
    exact getField_setField_first _
  · have hm : s.stepMay i = false := by
      rw [State.stepMay, Bool.or_eq_false_iff]
      refine ⟨by simp; omega, ?_⟩
      rcases hno with hno | hno
      · simp [hno]
      · simp [hno]
    rw [hsome hn, hmay, hm]
    exact if_pos rfl
  · have hm : s.stepMay 1 = true := by simp [State.stepMay, he, hv, ha]
    rw [hsome hn, hmay, hm, hgate, if_neg (by decide), if_neg (by simp [hg]), if_neg (by simp)]
    exact State.stepAct_hub _ tm
  · have hm : s.stepMay 1 = false := by simp [State.stepMay, ha]
    rw [hsome hn, hmay, hm]
    exact if_pos rfl
  · have hi := (stepLane_range hl).1
    have hm : s.stepMay i = true := by simp [State.stepMay, he, hv]; omega
    have hcount : (s.at tm).descCount < 16 := hroom
    have hfits : ((s.at tm).commitDesc opLaneStep [] []).isNone = false := by rw [State.commitDesc_room hcount]; rfl
    rw [hsome hn, hmay, hm, hgate, if_neg (by decide), if_neg (by simp [hg]), if_neg (by rw [hfits, Bool.and_false]; decide)]
    obtain ⟨hstep, hcarried, hlanes⟩ := State.stepAct_lane
      ((s.at tm).withPointer { s.pointer with parts := setField s.pointer.parts i 1 1 }) hl ((State.withPointer_descCount _ _).trans_lt hcount) tm
    exact ⟨hstep, State.committed_withPointer hcarried, fun k => (hlanes k).trans ((State.withPointer_lane _ _ k).trans (by cases k <;> rfl))⟩
  · rw [hsome hn, hmay, hm, hgate, if_neg (by decide), if_pos (by rw [hg]; rfl)]
    exact ⟨rfl, Hub.onlyRegs_fsat s.hub _ (List.mem_singleton_self _), s.hub.fget_fsat_same NVW_STAT_DEFCNT (by decide)⟩

/-! ### ROLLING_STEP_TIMEOUT and HUB_READY_TIMEOUT (R467) -/

theorem lateStepsAreReverted (s : State) (l : LaneId) (tn : Nat) (hl : stepLane (s.hub.fget UPD_STAT_STEP) = some l)
    (ht : s.hub.upd.stepT = some tn) (hd : s.stepDone = false) :
    ∃ t, exec (.rollingStepTimeout) s = .next t ∧
      (s.lastCatch < tn + 64 * s.hub.set.period * 1000000 → (s.lane l).on VOTE_READM_FAILED = false → t = s) ∧
      ((tn + 64 * s.hub.set.period * 1000000 ≤ s.lastCatch ∨ (s.lane l).on VOTE_READM_FAILED = true) →
        t.hub.on UPD_STAT_REVERTED = true ∧ t.hub.fget UPD_STAT_STEP = 0 ∧ t.hub.upd.stopped = true ∧
          ((∃ y, y ≠ l ∧ (s.lane y).inVote = true) → ∀ k, k ≠ l → t.lane k = s.lane k)) := by
  let p : BootPtr := { s.pointer with parts := setField s.pointer.parts (s.hub.fget UPD_STAT_STEP - 1) 1 0 }
  have heq : s.stepTimeout =
      if (!(decide (tn + 64 * s.hub.set.period * 1000000 ≤ s.lastCatch) || (s.lane l).on VOTE_READM_FAILED) || s.stepDone) = true then s
      else (((s.writePointer p).requestReset l leaveFirmware causeSwr false).recUpd 467).modHub fun h =>
        { (h.fset UPD_STAT_REVERTED 1).fset UPD_STAT_STEP 0 with upd := { h.upd with stopped := true } } := by
    unfold State.stepTimeout
    dsimp only
    rw [hl, ht]
  refine ⟨s.stepTimeout, rfl, fun hc hf => ?_, fun hlate => ?_⟩
  · rw [heq]
    exact if_pos (by rw [hf, decide_eq_false (by omega)]; rfl)
  · rw [heq, if_neg (by rw [hd]; rcases hlate with h | h <;> simp [h])]
    have hlane (y : LaneId) : (s.writePointer p).lane y = s.lane y := s.writePointer_lane p y
    generalize s.writePointer p = u at *
    have hothers (hv : ∃ y, y ≠ l ∧ (s.lane y).inVote = true) (k : LaneId) (hk : k ≠ l) :
        ((u.requestReset l leaveFirmware causeSwr false).recUpd 467).lane k = s.lane k := by
      obtain ⟨y, hy, hyv⟩ := hv
      have := State.requestReset_alone (s := u) ⟨y, hy, by rw [hlane y]; exact hyv⟩ leaveFirmware causeSwr false k hk
      exact (by cases k <;> rfl : ((u.requestReset l leaveFirmware causeSwr false).recUpd 467).lane k = _).trans (this.trans (hlane k))
    generalize (u.requestReset l leaveFirmware causeSwr false).recUpd 467 = v at *
    rw [State.modHub_hub]
    refine ⟨?_, Hub.fget_fset_set _ UPD_STAT_STEP 0 (by rfl), rfl, fun hv k hk => ?_⟩
    · exact (Hub.on_fset_apart _ (f := UPD_STAT_STEP) _ (by rfl) (by rfl) (by rfl)).trans (Hub.on_fset_set _ UPD_STAT_REVERTED (by rfl) rfl)
    · rw [← hothers hv k hk]
      cases k <;> rfl

/-- A hub reset of either kind keeps the causes. -/
theorem hubRegAfter_causes (c : Bool) (v : Word) : hubRegAfter c HRST_CAUSE v = v &&& 0x1EFF#32 := by
  obtain ⟨d, hd, hk, hreset⟩ : ∃ d, descOf hubRegs HRST_CAUSE = some d ∧ d.keep = 0x1EFF ∧ d.reset = 0 := ⟨_, rfl, rfl, rfl⟩
  have hdef : hubRegDefault HRST_CAUSE = 0#32 := by unfold hubRegDefault; rw [hd]; simp [hreset]
  cases c
  · have hkeep : hubWarmKeep HRST_CAUSE = 0 := by decide
    simp only [hubRegAfter, Bool.false_eq_true, if_false, hkeep, warmReg, hd]
    rw [keep_none, regWarm, hk, hreset]
    simp
  · have hkeep : hubColdKeep HRST_CAUSE = 0x1EFF#32 := by decide
    simp only [hubRegAfter, if_true, hkeep, hdef]
    simp

/-- A reset of the hub without a cause of its own leaves the causes that stand. -/
theorem State.assertHub_causes (s : State) (cold : Bool) {i : Nat} (hi : i < 8) :
    ((s.assertHub cold []).hub.rg HRST_CAUSE).getLsbD i = (s.hub.rg HRST_CAUSE).getLsbD i := by
  have hlost : s.HubLost (if s.hub.rst.held then s else s.tellHubReset) := by
    split
    · exact .refl s
    · exact s.hubLost_tellHubReset
  rw [s.assertHub_eq cold []]
  generalize (if s.hub.rst.held then s else s.tellHubReset) = u at hlost ⊢
  obtain ⟨-, ⟨-, hregs⟩, -⟩ := hlost
  rw [State.modHub_hub, ← hregs HRST_CAUSE (by decide), Hub.assertReset_eq]
  generalize u.hub = h
  have hkept : (h.resetKept (h.coldNow cold) cold s.now).rg HRST_CAUSE = h.rg HRST_CAUSE &&& 0x1EFF#32 := by
    have hreg : (h.resetKept (h.coldNow cold) cold s.now).reg = sparseMap hubRegDefault (hubRegAfter (h.coldNow cold)) h.reg := by
      unfold Hub.resetKept
      dsimp only
      split <;> rfl
    have hdef : hubRegDefault HRST_CAUSE = 0#32 := by decide
    rw [Hub.rg, hreg, sparseGet_map _ _ _ _ (by rw [hubRegAfter_causes, hdef]; rfl), hubRegAfter_causes]
    rfl
  generalize h.resetKept (h.coldNow cold) cold s.now = k at *
  have hmark (again : Bool) : ((k.markReset (h.coldNow cold) again []).rg HRST_CAUSE).getLsbD i = (k.rg HRST_CAUSE).getLsbD i := by
    have hset : (((k.setRg HRST_CAUSE (k.rg HRST_CAUSE ||| causeWord [])).fset HRST_CAUSE_WARM (b2n (!h.coldNow cold))).rg HRST_CAUSE).getLsbD i =
        (k.rg HRST_CAUSE).getLsbD i := by
      rw [Hub.getLsbD_fset_below _ (f := HRST_CAUSE_WARM) (a := HRST_CAUSE) _ rfl hi (by omega), Hub.rg_setRg_same, causeWord, List.foldl_nil]
      simp
    unfold Hub.markReset
    dsimp only
    generalize (k.setRg HRST_CAUSE (k.rg HRST_CAUSE ||| causeWord [])).fset HRST_CAUSE_WARM (b2n (!h.coldNow cold)) = m at *
    cases again
    · exact (congrArg (·.getLsbD i) ((Hub.regsKept_fset (m.fsat HRSTC_STAT_NRST 1) (f := HCMD_STAT_EPOCH) (as := [HCMD_STAT]) _
        (List.mem_singleton_self _) HRST_CAUSE (by decide)).trans
        (Hub.regsKept_fsat m (f := HRSTC_STAT_NRST) (as := [HRSTC_STAT]) 1 (List.mem_singleton_self _) HRST_CAUSE (by decide)))).trans hset
    · exact hset
  refine (congrArg (·.getLsbD i) (Hub.regsKept_fset (k.markReset (h.coldNow cold) h.rst.held []) (f := HCMD_STAT_FAULT) (as := [HCMD_STAT])
    (b2n s.aon.faultN) (List.mem_singleton_self _) HRST_CAUSE (by decide))).trans ((hmark _).trans ?_)
  rw [hkept, BitVec.getLsbD_and]
  have : (0x1EFF#32).getLsbD i = true := by interval_cases i <;> rfl
  rw [this, Bool.and_true]

theorem lateHubIsReset (s : State) (t0 tm : Nat) (hs : s.aon.hubStep = some t0) :
    ∃ t, exec (.hubReadyTimeout tm) s = .next t ∧
      (tm < t0 + 2000000000 → t = s.at tm) ∧
      (t0 + 2000000000 ≤ tm → s.hub.ready = false → t.hub.rst.held = true ∧ t.aon = { s.aon with hubStep := none, hubRevert := true } ∧
        t.hub.rg HRST_CAUSE &&& 0xFF#32 = s.hub.rg HRST_CAUSE &&& 0xFF#32) := by
  have hs' : (s.at tm).aon.hubStep = some t0 := hs
  have heq : (s.at tm).hubReadyTimeout tm =
      if t0 + 2000000000 ≤ tm ∧ (s.at tm).hub.ready = false then
        { (s.at tm).assertHub false [] with aon := { (s.at tm).aon with hubStep := none, hubRevert := true } } else s.at tm := by
    unfold State.hubReadyTimeout
    rw [hs']
  refine ⟨(s.at tm).hubReadyTimeout tm, rfl, fun h => ?_, fun h hr => ?_⟩
  · rw [heq]
    exact if_neg (by omega)
  · rw [heq, if_pos ⟨h, hr⟩]
    obtain ⟨-, -, hheld, -⟩ := (s.at tm).assertHub_spec false []
    refine ⟨hheld, rfl, ?_⟩
    have hcause {i : Nat} (hi : i < 8) := (s.at tm).assertHub_causes false hi
    generalize (s.at tm).assertHub false [] = u at *
    refine BitVec.eq_of_getLsbD_eq fun i hi => ?_
    rw [BitVec.getLsbD_and, BitVec.getLsbD_and]
    by_cases h8 : i < 8
    · exact congrArg (· && _) (hcause h8)
    · have : (0xFF#32).getLsbD i = false := by
        have : 8 ≤ i := by omega
        interval_cases i <;> rfl
      rw [this, Bool.and_false, Bool.and_false]

/-- Settles O55: each command and each timer of a trial by the pointer it writes. -/
theorem trialsGoPartByPartAndRevert : Obligations.TrialsGoPartByPartAndRevert :=
  ⟨slotsAreActivated, trialsAreConfirmed, updatesGoPartByPart, lateStepsAreReverted, lateHubIsReset⟩

end Sys2Proof.Machine
end

section
/-! PROOFS. O59: trim loads and the release of lanes, hub and FIELD die (R473, R495, R497, R498). -/

namespace Sys2Proof.Machine

/-! ### TRIM_LOAD_DONE (R497, R498) -/

/-- A lane after a trim load. -/
def Lane.trimmed (x : Lane) (ok : Bool) : Lane :=
  { (x.fset RSTC_STAT_TRIMOK (b2n ok)).fset RSTC_STAT_TRIMERR (x.rst.trim ok).trimFails with rst := x.rst.trim ok }

theorem Lane.trimmed_shows (x : Lane) (ok : Bool) : (x.trimmed ok).on RSTC_STAT_TRIMOK = ok := by
  refine (Lane.on_fset_bits (x.fset RSTC_STAT_TRIMOK (b2n ok)) (f := RSTC_STAT_TRIMERR) (g := RSTC_STAT_TRIMOK) (x.rst.trim ok).trimFails rfl
    (by decide) (by decide)).trans ?_
  cases ok
  · exact x.on_fset_zero RSTC_STAT_TRIMOK (by decide)
  · exact x.on_fset_one RSTC_STAT_TRIMOK (by decide) rfl

/-- The third failure marks the die in `RSTC_TRIM`. -/
theorem State.trimFailed_lane (s : State) (l : LaneId) :
    (∀ k, (s.trimFailed (.lane l)).lane k = s.lane k) ∧ getField ((s.trimFailed (.lane l)).hub.fget RSTC_TRIM_TRIMFAIL) l.idx 1 = 1 := by
  refine ⟨fun k => by cases k <;> rfl, ?_⟩
  have hset : (s.trimFailed (.lane l)).hub.fget RSTC_TRIM_TRIMFAIL = setField (s.hub.fget RSTC_TRIM_TRIMFAIL) l.idx 1 1 % 2 ^ RSTC_TRIM_TRIMFAIL.w :=
    Hub.fget_fset_set _ _ _ (by rfl)
  rw [hset]
  generalize s.hub.fget RSTC_TRIM_TRIMFAIL = x
  have hw : 2 ^ RSTC_TRIM_TRIMFAIL.w = 32 := rfl
  rw [hw]
  cases l <;> simp only [LaneId.idx, getField, setField, Nat.shiftLeft_eq, Nat.shiftRight_eq_div_pow] <;> omega

theorem trimLoadsEnd (s : State) (l : LaneId) (ok : Bool) (hl : (s.lane l).rst.loading = true) :
    ∃ t, exec (.trimLoadDone (.lane l) ok) s = .next t ∧ (∀ k, k ≠ l → t.lane k = s.lane k) ∧ (t.lane l).rst.trimOk = ok ∧
      (t.lane l).on RSTC_STAT_TRIMOK = ok ∧
      (ok = true → t.hub = s.hub) ∧
      (ok = false → (t.lane l).rst.trimFails = satInc 3 (s.lane l).rst.trimFails ∧
        (2 ≤ (s.lane l).rst.trimFails → (t.lane l).rst.trimFail = true ∧ getField (t.hub.fget RSTC_TRIM_TRIMFAIL) l.idx 1 = 1) ∧
        ((s.lane l).rst.trimFails < 2 → (t.lane l).rst.trimFail = false ∧ t.hub = s.hub)) := by
  have heq : s.trimDone (.lane l) ok =
      if ((s.modLane l (·.trimmed ok)).lane l).rst.trimFail then (s.modLane l (·.trimmed ok)).trimFailed (.lane l) else s.modLane l (·.trimmed ok) :=
    if_neg (by rw [hl]; decide)
  have hlane : (s.modLane l (·.trimmed ok)).lane l = (s.lane l).trimmed ok := State.lane_modLane s l _
  have hother (k : LaneId) (hk : k ≠ l) : (s.modLane l (·.trimmed ok)).lane k = s.lane k := State.lane_modLane_ne s _ hk
  have hhub : (s.modLane l (·.trimmed ok)).hub = s.hub := State.modLane_hub s l _
  have hrst : ((s.lane l).trimmed ok).rst = (s.lane l).rst.trim ok := rfl
  have hshow := (s.lane l).trimmed_shows ok
  have hload : (s.lane l).rst.held = true ∧ (s.lane l).rst.trimOk = false ∧ (s.lane l).rst.trimFail = false := by
    simpa [RstInt.loading, and_assoc] using hl
  obtain ⟨-, htrim, hfail⟩ := hload
  refine ⟨s.trimDone (.lane l) ok, rfl, ?_⟩
  rw [heq, hlane, hrst]
  generalize s.modLane l (·.trimmed ok) = u at *
  obtain ⟨flanes, fbit⟩ := u.trimFailed_lane l
  cases ok with
  | true =>
    have hno : ((s.lane l).rst.trim true).trimFail = false := hfail
    rw [if_neg (by rw [hno]; decide), hlane, hrst]
    exact ⟨hother, rfl, hshow, fun _ => hhub, fun h => absurd h (by decide)⟩
  | false =>
    have hf : ((s.lane l).rst.trim false).trimFail = decide (2 ≤ (s.lane l).rst.trimFails) := rfl
    by_cases h2 : 2 ≤ (s.lane l).rst.trimFails
    · rw [if_pos (by rw [hf]; exact decide_eq_true h2), flanes l, hlane, hrst]
      exact ⟨fun k hk => (flanes k).trans (hother k hk), htrim, hshow, fun h => absurd h (by decide),
        fun _ => ⟨rfl, fun _ => ⟨by rw [hf]; exact decide_eq_true h2, fbit⟩, fun h => absurd h2 (by omega)⟩⟩
    · rw [if_neg (by rw [hf, decide_eq_false h2]; decide), hlane, hrst]
      exact ⟨hother, htrim, hshow, fun h => absurd h (by decide),
        fun _ => ⟨rfl, fun h => absurd h h2, fun _ => ⟨by rw [hf]; exact decide_eq_false h2, hhub⟩⟩⟩

/-! ### RESET_RELEASE of a lane (R495) -/

/-- What the load of an image leaves of a lane: its reset state, and every register but the stroke's and the self-test's. -/
def Lane.LoadKept (x y : Lane) : Prop := y.rst = x.rst ∧ x.RegsKept y [TMR_STROKE, BIST_STAT]

theorem Lane.LoadKept.trans {x y z : Lane} (a : x.LoadKept y) (b : y.LoadKept z) : x.LoadKept z := ⟨b.1.trans a.1, a.2.trans b.2⟩

theorem Lane.loadKept_fset (x : Lane) {f : Fld} (v : Nat) (hf : f.addr ∈ [TMR_STROKE, BIST_STAT]) : x.LoadKept (x.fset f v) :=
  ⟨rfl, x.regsKept_fset v hf⟩

theorem Lane.loadKept_of_eq {x y : Lane} (hr : y.rst = x.rst) (hg : y.reg = x.reg) : x.LoadKept y := ⟨hr, Lane.regsKept_of_reg_eq hg _⟩

theorem Lane.loadKept_loadProgram (x : Lane) (p : Program) : x.LoadKept (x.loadProgram p) :=
  Lane.loadKept_of_eq rfl rfl

theorem Lane.loadKept_showBist (x : Lane) (kind : Nat) (rs : List (List Byte)) (cov : Nat) (lfail unrep : Bool) :
    x.LoadKept (x.showBist kind rs cov lfail unrep) := by
  have hset (y : Lane) {f : Fld} (hf : f.addr = BIST_STAT) (v : Nat) : y.LoadKept (y.fset f v) := y.loadKept_fset v (by simp [hf])
  have hif {y a b : Lane} {p : Prop} [Decidable p] (ha : y.LoadKept a) (hb : y.LoadKept b) : y.LoadKept (if p then a else b) := by
    split
    · exact ha
    · exact hb
  have hrefl (y : Lane) : y.LoadKept y := ⟨rfl, .refl _ _⟩
  unfold Lane.showBist
  extract_lets a b c
  have ha : x.LoadKept a := ((hset x (f := BIST_STAT_VALID) rfl _).trans (hset _ (f := BIST_STAT_SKIPPED) rfl _)).trans
    (hset _ (f := BIST_STAT_NMEM) rfl _)
  have hb : x.LoadKept b := ha.trans (hif ((hset a (f := BIST_STAT_FULL) rfl _).trans (hset _ (f := BIST_STAT_QUICK) rfl _))
    ((hset a (f := BIST_STAT_FULL) rfl _).trans (hset _ (f := BIST_STAT_QUICK) rfl _)))
  have hc : x.LoadKept c := hb.trans (hif (hset b (f := BIST_STAT_LFAIL) rfl _) (hrefl b))
  refine hif ((hset x (f := BIST_STAT_SKIPPED) rfl _).trans (hset _ (f := BIST_STAT_VALID) rfl _)) ?_
  exact (hc.trans (hif (hset c (f := BIST_STAT_UNREP) rfl _) (hrefl c))).trans (hset _ (f := BIST_STAT_COV) rfl _)

/-- A lane's load changes that lane alone. -/
theorem State.laneLoad_spec (s : State) (l : LaneId) :
    (s.laneLoad l).hub = s.hub ∧ (s.laneLoad l).aon = s.aon ∧ (∀ k, k ≠ l → (s.laneLoad l).lane k = s.lane k) ∧
      (s.lane l).LoadKept ((s.laneLoad l).lane l) := by
  unfold State.laneLoad
  extract_lets x k hdr rec_ area crc set descs bytes ok g own x1 _st x2 x3 rs x4
  have h1 : x.LoadKept x1 := (x.loadKept_fset (f := TMR_STROKE_PERIOD) _ (by simp [TMR_STROKE_PERIOD])).trans
    (Lane.loadKept_fset _ (f := TMR_STROKE_CDL) _ (by simp [TMR_STROKE_CDL]))
  have h2 : x.LoadKept x2 := h1.trans (Lane.loadKept_of_eq rfl rfl)
  have h3 : x.LoadKept x3 := by
    unfold x3
    split
    · exact h2.trans (x2.loadKept_loadProgram g)
    · exact h2
  have h4 : x.LoadKept x4 := by
    unfold x4
    split
    · exact h3.trans (x3.loadKept_showBist _ _ _ _ _)
    · exact h3
  clear_value x4
  exact ⟨State.setLane_hub s l x4, State.setLane_aon s l x4, fun k hk => State.lane_setLane_ne s x4 hk, (State.lane_setLane s l x4).symm ▸ h4⟩

/-- The registers that a lane's release shows, once its strap is sampled. -/
def releaseRegs : List Nat := [BRG_STAT, LCTL_REPAIR, LCTL_MEMSTAT, VOTE_STAT, TMR_STAT]

/-- What the steps of a release leave of a lane: its reset state, and every register but the shown ones. -/
def Lane.ReleaseKept (x y : Lane) : Prop := y.rst = x.rst ∧ x.RegsKept y releaseRegs

theorem Lane.ReleaseKept.trans {x y z : Lane} (a : x.ReleaseKept y) (b : y.ReleaseKept z) : x.ReleaseKept z := ⟨b.1.trans a.1, a.2.trans b.2⟩

theorem Lane.releaseKept_fset (x : Lane) {f : Fld} (v : Nat) (hf : f.addr ∈ releaseRegs) : x.ReleaseKept (x.fset f v) := ⟨rfl, x.regsKept_fset v hf⟩

theorem Lane.releaseKept_repair (x : Lane) (rs : List (List Byte)) (cold : Bool) : x.ReleaseKept (x.repair rs cold) := by
  unfold Lane.repair
  extract_lets a excess b
  have ha : x.ReleaseKept a := ⟨rfl, x.regsKept_setRg (a := LCTL_REPAIR) _ (by decide)⟩
  have hb : x.ReleaseKept b := by
    unfold b
    split
    · exact ha
    · exact ha.trans (a.releaseKept_fset (f := LCTL_MEMSTAT_REP_FAIL) _ (by decide))
  split
  · exact ha
  · exact hb.trans ⟨rfl, Lane.regsKept_of_reg_eq rfl _⟩

theorem Lane.releaseKept_placeIn (x : Lane) (p : ModPhase) : x.ReleaseKept (x.placeIn p) := by
  have hshow (m : Nat) : x.ReleaseKept ((x.fset VOTE_STAT_MODE m).fset TMR_STAT_RUNNING 1) :=
    (x.releaseKept_fset (f := VOTE_STAT_MODE) _ (by decide)).trans (Lane.releaseKept_fset _ (f := TMR_STAT_RUNNING) _ (by decide))
  cases p with
  | sitReady | restarting => exact ⟨rfl, .refl _ _⟩
  | running | easy => exact hshow _

theorem Lane.liveRegs_rst (x : Lane) : x.liveRegs.rst = x.rst := by simp only [Lane.liveRegs, Lane.fset_rst]

/-- A lane with its clocks, supplies and strap shown. -/
def Lane.strapped (x : Lane) (strap split : Bool) : Lane := (x.liveRegs.fset LCTL_STAT_STRAP (b2n strap)).fset LCTL_STAT_SPLIT (b2n split)

theorem Lane.strapped_spec (x : Lane) (strap split : Bool) :
    (x.strapped strap split).rst = x.rst ∧ (x.strapped strap split).on LCTL_STAT_STRAP = strap ∧
      (x.strapped strap split).rg RST_CAUSE = x.rg RST_CAUSE := by
  refine ⟨by rw [Lane.strapped, Lane.fset_rst, Lane.fset_rst, Lane.liveRegs_rst], ?_, ?_⟩
  · unfold Lane.strapped
    generalize x.liveRegs = y
    refine ((y.fset LCTL_STAT_STRAP (b2n strap)).on_fset_bits (f := LCTL_STAT_SPLIT) (g := LCTL_STAT_STRAP) (b2n split) rfl (by decide)
      (by decide)).trans ?_
    cases strap
    · exact y.on_fset_zero LCTL_STAT_STRAP (by decide)
    · exact y.on_fset_one LCTL_STAT_STRAP (by decide) rfl
  · have hset (y : Lane) {f : Fld} (hf : f.addr ∈ [CLKC_STAT, RSTC_STAT, PWRC_STAT, LCTL_STAT]) (v : Nat) :
        y.RegsKept (y.fset f v) [CLKC_STAT, RSTC_STAT, PWRC_STAT, LCTL_STAT] := y.regsKept_fset v hf
    have hclk : x.RegsKept ((((x.fset CLKC_STAT_XOK 1).fset CLKC_STAT_LOCK 1).fset CLKC_STAT_ONRC 0).fset CLKC_STAT_SSC (1 - x.fget CLKC_CTRL_SSC_OFF))
        [CLKC_STAT, RSTC_STAT, PWRC_STAT, LCTL_STAT] :=
      (((hset x (by decide) 1).trans (hset _ (by decide) 1)).trans (hset _ (by decide) 0)).trans (hset _ (by decide) _)
    unfold Lane.strapped Lane.liveRegs
    dsimp only
    generalize (((x.fset CLKC_STAT_XOK 1).fset CLKC_STAT_LOCK 1).fset CLKC_STAT_ONRC 0).fset CLKC_STAT_SSC (1 - x.fget CLKC_CTRL_SSC_OFF) = y at *
    have hsup : y.RegsKept ((((y.fset RSTC_STAT_TRIMOK 1).fset PWRC_STAT_SUP_LX 1).fset PWRC_STAT_SUP_IO 1).fset PWRC_STAT_SUP_PLL 1)
        [CLKC_STAT, RSTC_STAT, PWRC_STAT, LCTL_STAT] :=
      (((hset y (by decide) 1).trans (hset _ (by decide) 1)).trans (hset _ (by decide) 1)).trans (hset _ (by decide) 1)
    exact ((hclk.trans hsup).trans ((hset _ (f := LCTL_STAT_STRAP) (by decide) _).trans (hset _ (f := LCTL_STAT_SPLIT) (by decide) _))) RST_CAUSE (by decide)

/-- A lane whose state starts anew at `t`. -/
def Lane.restarted (x : Lane) (p : ModPhase) (cold : Bool) (t : Nat) : Lane :=
  { x with rst := x.rst.release t, sig := { x.sig with openT := t, retT := t }, wdt := { last := t, key1 := false }, fol := { folReset with time := t },
           start := { startReset cold with release := t, retainOk := p.retainDecided cold, memOk := x.badBanks.isEmpty } }

theorem Lane.restarted_spec (x : Lane) (p : ModPhase) (cold : Bool) (t : Nat) :
    (x.restarted p cold t).rst = x.rst.release t ∧ (x.restarted p cold t).reg = x.reg := ⟨rfl, rfl⟩

/-- A lane out of its reset, before its load. -/
def State.releasedLane (s : State) (l : LaneId) (strap : Bool) (t : Nat) : Lane :=
  let cold := (s.lane l).rst.cold
  let x := (((s.lane l).strapped strap s.split).fset BRG_STAT_HUBUP (b2n s.hub.up)).repair
    (if s.hub.serves then s.hub.latestRecords (.lane l) else []) cold
  let x := if s.split then { x with core1 := { x.core1 with coreid := 1, status := bvSet x.core1.status 2 1 1 } } else x
  (x.restarted s.phase cold t).placeIn s.phase

theorem State.releasedLane_spec (s : State) (l : LaneId) (strap : Bool) (t : Nat) :
    (s.releasedLane l strap t).rst = (s.lane l).rst.release t ∧ (s.releasedLane l strap t).on LCTL_STAT_STRAP = strap ∧
      (s.releasedLane l strap t).rg RST_CAUSE = (s.lane l).rg RST_CAUSE := by
  obtain ⟨hrst, hstrap, hcause⟩ := (s.lane l).strapped_spec strap s.split
  unfold State.releasedLane
  extract_lets cold x _core y
  have hx : ((s.lane l).strapped strap s.split).ReleaseKept x :=
    (Lane.releaseKept_fset _ (f := BRG_STAT_HUBUP) _ (by decide)).trans (Lane.releaseKept_repair _ _ _)
  have hy : ((s.lane l).strapped strap s.split).ReleaseKept y := by
    unfold y
    split
    · exact hx.trans ⟨rfl, Lane.regsKept_of_reg_eq rfl _⟩
    · exact hx
  generalize (s.lane l).strapped strap s.split = z at *
  clear_value y
  obtain ⟨wrst, wreg⟩ := y.restarted_spec s.phase cold t
  generalize y.restarted s.phase cold t = w at *
  have hwk : z.RegsKept w releaseRegs := hy.2.trans (Lane.regsKept_of_reg_eq wreg _)
  obtain ⟨prst, pregs⟩ := w.releaseKept_placeIn s.phase
  have hregs := hwk.trans pregs
  exact ⟨by rw [prst, wrst, hy.1, hrst], (hregs.on (by decide)).trans hstrap, (hregs RST_CAUSE (by decide)).trans hcause⟩

/-- The state with a lane out of its reset and the strap that AON samples. -/
def State.laneStarts (s : State) (l : LaneId) (strap : Bool) (t : Nat) : State :=
  { s.setLane l (s.releasedLane l strap t) with aon := { s.aon with bench := strap } }

/-- A lane is released only when everything its release needs holds. -/
theorem State.releaseLane_eq (s : State) (l : LaneId) (strap : Bool) (t : Nat) :
    s.releaseLane l strap t = if (!((s.lane l).rst.mayRelease (.lane l) t && s.aon.laneEn l && s.aon.pwr.hubPowered && s.aon.resetNLow.isNone &&
      !s.hub.upd.loader)) = true then s
      else if (s.laneStarts l strap t).hub.serves = true then (s.laneStarts l strap t).laneLoad l else s.laneStarts l strap t := rfl

theorem State.laneStarts_spec (s : State) (l : LaneId) (strap : Bool) (t : Nat) :
    (s.laneStarts l strap t).hub = s.hub ∧ (s.laneStarts l strap t).aon.bench = strap ∧
      (∀ k, k ≠ l → (s.laneStarts l strap t).lane k = s.lane k) ∧ (s.laneStarts l strap t).lane l = s.releasedLane l strap t := by
  unfold State.laneStarts
  generalize s.releasedLane l strap t = x
  refine ⟨State.setLane_hub s l x, rfl, fun k hk => ?_, ?_⟩
  · exact (by cases k <;> rfl : _ = (s.setLane l x).lane k).trans (State.lane_setLane_ne s x hk)
  · exact (by cases l <;> rfl : _ = (s.setLane l x).lane l).trans (State.lane_setLane s l x)

theorem lanesAreReleased (s : State) (l : LaneId) (strap : Bool) (tm : Nat) :
    ∃ t, exec (.resetRelease (.lane l) strap tm) s = .next t ∧ (∀ k, k ≠ l → t.lane k = s.lane k) ∧ t.hub = s.hub ∧
      (((s.lane l).rst.held = false ∨ (s.lane l).rst.trimOk = false ∨ (s.lane l).rst.trimFail = true ∨ (s.lane l).rst.clkHold = true ∨
          (s.lane l).rst.supHold = true ∨ s.aon.resetNLow.isSome = true ∨ s.aon.laneEn l = false) → t = s.at tm) ∧
      ((s.lane l).rst.mayRelease (.lane l) tm = true → s.aon.laneEn l = true → s.aon.pwr.hubPowered = true → s.aon.resetNLow = none →
        s.hub.upd.loader = false →
        (t.lane l).rst.held = false ∧ (t.lane l).rst.relT = tm ∧ (t.lane l).on LCTL_STAT_STRAP = strap ∧ t.aon.bench = strap ∧
        (t.lane l).rg RST_CAUSE = (s.lane l).rg RST_CAUSE) := by
  have hat (k : LaneId) : (s.at tm).lane k = s.lane k := State.at_lane s tm k
  have heq := (s.at tm).releaseLane_eq l strap tm
  obtain ⟨uhub, ubench, uother, ulane⟩ := (s.at tm).laneStarts_spec l strap tm
  obtain ⟨rrst, rstrap, rcause⟩ := (s.at tm).releasedLane_spec l strap tm
  rw [hat l] at heq rrst rcause
  have haon : (s.at tm).aon = s.aon := rfl
  have hhub : (s.at tm).hub = s.hub := rfl
  rw [hhub, haon] at heq
  rw [hhub] at uhub
  refine ⟨(s.at tm).releaseLane l strap tm, rfl, ?_⟩
  rw [heq]
  generalize (s.at tm).releasedLane l strap tm = x at *
  generalize (s.at tm).laneStarts l strap tm = u at *
  obtain ⟨lhub, laon, lother, lrst, lregs⟩ := u.laneLoad_spec l
  have hloaded : ∀ v, v = (if u.hub.serves = true then u.laneLoad l else u) →
      v.hub = s.hub ∧ v.aon = u.aon ∧ (∀ k, k ≠ l → v.lane k = s.lane k) ∧ (v.lane l).rst = x.rst ∧ x.RegsKept (v.lane l) [TMR_STROKE, BIST_STAT] := by
    rintro v rfl
    split
    · exact ⟨lhub.trans uhub, laon, fun k hk => (lother k hk).trans ((uother k hk).trans (hat k)), lrst.trans (congrArg Lane.rst ulane), ulane ▸ lregs⟩
    · exact ⟨uhub, rfl, fun k hk => (uother k hk).trans (hat k), congrArg Lane.rst ulane, ulane ▸ .refl _ _⟩
  obtain ⟨vhub, vaon, vother, vrst, vregs⟩ := hloaded _ rfl
  generalize (if u.hub.serves = true then u.laneLoad l else u) = v at *
  refine ⟨fun k hk => ?_, ?_, fun hno => if_pos ?_, fun hmay hen hpow hlow hload => ?_⟩
  · split
    · exact hat k
    · exact vother k hk
  · split
    · rfl
    · exact vhub
  · rcases hno with h | h | h | h | h | h | h
    all_goals simp [RstInt.mayRelease, h]
  · rw [if_neg (by simp [hmay, hen, hpow, hlow, hload])]
    have hrel : (v.lane l).rst = (s.lane l).rst.release tm := vrst.trans rrst
    refine ⟨by rw [hrel]; rfl, by rw [hrel]; rfl, (vregs.on (by decide)).trans rstrap, by rw [vaon]; exact ubench, (vregs RST_CAUSE (by decide)).trans rcause⟩

/-! ### RESET_RELEASE of the hub: up to its firmware (R434, R463, R473, R495, R514) -/

/-- Whether a slot verifies depends on the first flash and the fuses alone. -/
theorem State.slotVerifies_congr {s t : State} (hf : t.flash0 = s.flash0) (hu : t.fuses = s.fuses) (k : Nat) :
    t.slotVerifies k = s.slotVerifies k := by
  unfold State.slotVerifies State.slotMessage State.keyCounts State.slotHdr State.block
  rw [hf, hu]

/-- What the release leaves of the hub before its firmware or the loader starts. -/
def Hub.PrepKept (h k : Hub) : Prop := k.upd = h.upd ∧ k.on HCMD_STAT_READY = h.on HCMD_STAT_READY

theorem Hub.PrepKept.trans {h k m : Hub} (a : h.PrepKept k) (b : k.PrepKept m) : h.PrepKept m := ⟨b.1.trans a.1, b.2.trans a.2⟩

theorem Hub.prepKept_fset (h : Hub) {f : Fld} (v : Nat) (hf : f.addr ≠ HCMD_STAT) : h.PrepKept (h.fset f v) :=
  ⟨rfl, congrArg (· == 1) (h.fget_fset_addr v (Ne.symm hf))⟩

theorem Hub.prepKept_of_eq {h k : Hub} (hu : k.upd = h.upd) (hr : k.reg = h.reg) : h.PrepKept k := ⟨hu, congrArg (· == 1) (Hub.fget_of_reg_eq hr _)⟩

theorem Hub.SameButRec.prepKept {h k : Hub} (a : h.SameButRec k) : h.PrepKept k ∧ k.rst = h.rst := by
  obtain ⟨hframe, hregs⟩ := a
  exact ⟨⟨(congrArg Hub.upd hframe).trans rfl, hregs.on (by decide)⟩, (congrArg Hub.rst hframe).trans rfl⟩

/-- The release so far: the hub and the AON domain alone. -/
def State.PrepKept (s t : State) : Prop := t = { s with now := t.now, hub := t.hub, aon := t.aon } ∧ s.hub.PrepKept t.hub

theorem State.PrepKept.trans {s t u : State} (a : s.PrepKept t) (b : t.PrepKept u) : s.PrepKept u := by
  refine ⟨?_, a.2.trans b.2⟩
  have hb := b.1
  rw [a.1] at hb
  exact hb

theorem State.OnlyHub.prepKept {s t : State} (a : s.OnlyHub t) (b : s.hub.PrepKept t.hub) : s.PrepKept t ∧ t.aon = s.aon := by
  unfold State.OnlyHub at a
  have haon : t.aon = s.aon := (congrArg State.aon a).trans rfl
  refine ⟨⟨?_, b⟩, haon⟩
  rw [haon]
  exact a

theorem State.PrepKept.rest {s t : State} (a : s.PrepKept t) : t.flash0 = s.flash0 ∧ t.fuses = s.fuses ∧ ∀ l, t.lane l = s.lane l := by
  obtain ⟨hframe, -⟩ := a
  refine ⟨(congrArg State.flash0 hframe).trans rfl, (congrArg State.fuses hframe).trans rfl, fun l => ?_⟩
  refine (congrArg (State.lane · l) hframe).trans ?_
  cases l <;> rfl

/-- The wake check marks the retained banks (R434). -/
theorem Hub.wakeBank_kept (h : Hub) (n : Nat) : h.PrepKept (h.wakeBank n) ∧ (h.wakeBank n).rst = h.rst := by
  have hmark (a b : Nat) : h.PrepKept ((h.fset HSRAM_STAT_RVALID a).fset HSRAM_STAT_RFAIL b) :=
    (h.prepKept_fset (f := HSRAM_STAT_RVALID) a (by decide)).trans (Hub.prepKept_fset _ (f := HSRAM_STAT_RFAIL) b (by decide))
  unfold Hub.wakeBank
  dsimp only
  split
  · exact ⟨hmark _ _, by simp only [Hub.fset_rst]⟩
  · have hkept := hmark (setField (h.fget HSRAM_STAT_RVALID) n 1 0) (setField (h.fget HSRAM_STAT_RFAIL) n 1 1)
    have hrst : ((h.fset HSRAM_STAT_RVALID (setField (h.fget HSRAM_STAT_RVALID) n 1 0)).fset HSRAM_STAT_RFAIL
      (setField (h.fget HSRAM_STAT_RFAIL) n 1 1)).rst = h.rst := by simp only [Hub.fset_rst]
    generalize (h.fset HSRAM_STAT_RVALID (setField (h.fget HSRAM_STAT_RVALID) n 1 0)).fset HSRAM_STAT_RFAIL
      (setField (h.fget HSRAM_STAT_RFAIL) n 1 1) = u at *
    exact ⟨hkept.trans (Hub.prepKept_of_eq rfl rfl), hrst⟩

theorem State.wakeCheck_spec (s : State) : s.OnlyHub s.wakeCheck ∧ s.hub.PrepKept s.wakeCheck.hub ∧ s.wakeCheck.hub.rst = s.hub.rst := by
  have hbanks (ns : List Nat) (h : Hub) : h.PrepKept (ns.foldl Hub.wakeBank h) ∧ (ns.foldl Hub.wakeBank h).rst = h.rst := by
    induction ns generalizing h with
    | nil => exact ⟨⟨rfl, rfl⟩, rfl⟩
    | cons n ns ih => exact ⟨(h.wakeBank_kept n).1.trans (ih _).1, (ih _).2.trans (h.wakeBank_kept n).2⟩
  have hrecs (ns : List Nat) (u : State) : ∀ v, v = (ns.foldl (fun (s : State) n =>
      if getField (s.hub.fget HSRAM_STAT_RFAIL) n 1 = 1 then s.recHub 0 0x0A 434 [] else s) u) →
      u.OnlyHub v ∧ u.hub.PrepKept v.hub ∧ v.hub.rst = u.hub.rst := by
    induction ns generalizing u with
    | nil => rintro v rfl; exact ⟨rfl, ⟨rfl, rfl⟩, rfl⟩
    | cons n ns ih =>
      rintro v rfl
      rw [List.foldl_cons]
      split
      · obtain ⟨hhub, hkept, hrst⟩ := ih (u.recHub 0 0x0A 434 []) _ rfl
        obtain ⟨rkept, rrst⟩ := (u.recHub_same 0 0x0A 434 []).prepKept
        exact ⟨(u.onlyHub_recHub 0 0x0A 434 []).trans hhub, rkept.trans hkept, hrst.trans rrst⟩
      · exact ih u _ rfl
  obtain ⟨hbkept, hbrst⟩ := hbanks (upTo 4) s.hub
  obtain ⟨hhub, hkept, hrst⟩ := hrecs (upTo 4) (s.modHub fun h => ((upTo 4).foldl Hub.wakeBank h).fset HSRAM_STAT_FROZEN 0) s.wakeCheck rfl
  rw [State.modHub_hub] at hkept hrst
  generalize (upTo 4).foldl Hub.wakeBank s.hub = u at *
  exact ⟨(s.onlyHub_modHub _).trans hhub, (hbkept.trans (Hub.prepKept_fset u (f := HSRAM_STAT_FROZEN) 0 (by decide))).trans hkept, hrst.trans hbrst⟩

theorem State.clearMailboxes_spec (s : State) : s.OnlyHub s.clearMailboxes ∧ s.hub.PrepKept s.clearMailboxes.hub ∧ s.clearMailboxes.hub.rst = s.hub.rst := by
  have hclear (ls : List LaneId) (u : State) : ∀ v, v = (ls.foldl (fun (s : State) l =>
      s.modHub (·.modMbx l fun _ => { mbxReset with admSeq := (s.lane l).prog.cmdSeq })) u) →
      u.OnlyHub v ∧ u.hub.PrepKept v.hub ∧ v.hub.rst = u.hub.rst := by
    induction ls generalizing u with
    | nil => rintro v rfl; exact ⟨rfl, ⟨rfl, rfl⟩, rfl⟩
    | cons l ls ih =>
      rintro v rfl
      rw [List.foldl_cons]
      obtain ⟨hhub, hkept, hrst⟩ := ih (u.modHub (·.modMbx l fun _ => { mbxReset with admSeq := (u.lane l).prog.cmdSeq })) _ rfl
      rw [State.modHub_hub] at hkept hrst
      have hm : u.hub.PrepKept (u.hub.modMbx l fun _ => { mbxReset with admSeq := (u.lane l).prog.cmdSeq }) ∧
          (u.hub.modMbx l fun _ => { mbxReset with admSeq := (u.lane l).prog.cmdSeq }).rst = u.hub.rst := by
        cases l <;> exact ⟨Hub.prepKept_of_eq rfl rfl, rfl⟩
      exact ⟨(u.onlyHub_modHub _).trans hhub, hm.1.trans hkept, hrst.trans hm.2⟩
  exact hclear allLanes s _ rfl

/-- The hub at its release, its clocks and strap shown. -/
def Hub.strapped (h : Hub) (rtcOk strap split : Bool) : Hub :=
  ((h.liveRegs rtcOk (!strap)).fset HCMD_STAT_HOSTSPI (b2n strap)).fset HCMD_ID_VAR (if split then 0x4E else 0x53)

theorem Hub.liveRegs_kept (h : Hub) (rtcOk pci : Bool) : h.PrepKept (h.liveRegs rtcOk pci) ∧ (h.liveRegs rtcOk pci).rst = h.rst := by
  unfold Hub.liveRegs
  extract_lets xt a b
  have ha : h.PrepKept a := (((h.prepKept_fset (f := CLKC_HSTAT_XH_OK) 1 (by decide)).trans (Hub.prepKept_fset _ (f := CLKC_HSTAT_LOCK) 1 (by decide))).trans
    (Hub.prepKept_fset _ (f := CLKC_HSTAT_ONRC) 0 (by decide))).trans (Hub.prepKept_fset _ (f := CLKC_HSTAT_SSC) _ (by decide))
  have har : a.rst = h.rst := by simp only [a, Hub.fset_rst]
  clear_value a
  have hb : a.PrepKept b := ((a.prepKept_fset (f := CLKC_HSTAT_XT_OK) _ (by decide)).trans (Hub.prepKept_fset _ (f := CLKC_HSTAT_SDLOCK) _ (by decide))).trans
    (Hub.prepKept_fset _ (f := CLKC_HSTAT_AON_OK) _ (by decide))
  have hbr : b.rst = a.rst := by simp only [b, Hub.fset_rst]
  clear_value b
  refine ⟨(ha.trans hb).trans (((b.prepKept_fset (f := CLKC_HSTAT_PREF_OK) _ (by decide)).trans
    (Hub.prepKept_fset _ (f := HRSTC_STAT_TRIMOK) 1 (by decide))).trans (Hub.prepKept_fset _ (f := PWRC_HSTAT_PGH) 1 (by decide))), ?_⟩
  simp only [Hub.fset_rst, hbr, har]

theorem Hub.repair_kept (h : Hub) : h.PrepKept h.repair := by
  unfold Hub.repair Hub.loseBanks
  split
  · split
    · exact ⟨rfl, rfl⟩
    · exact (h.prepKept_fset (f := HSRAM_STAT_UNREP) 1 (by decide)).trans (Hub.prepKept_of_eq rfl rfl)
  · exact ⟨rfl, rfl⟩

theorem Hub.strapped_kept (h : Hub) (rtcOk strap split : Bool) :
    h.PrepKept (h.strapped rtcOk strap split) ∧ (h.strapped rtcOk strap split).rst = h.rst := by
  obtain ⟨hkept, hrst⟩ := h.liveRegs_kept rtcOk (!strap)
  unfold Hub.strapped
  generalize h.liveRegs rtcOk (!strap) = u at *
  have hspi : u.PrepKept (u.fset HCMD_STAT_HOSTSPI (b2n strap)) := ⟨rfl, u.on_fset_apart (f := HCMD_STAT_HOSTSPI) _ (by rfl) (by rfl) (by rfl)⟩
  exact ⟨(hkept.trans hspi).trans (Hub.prepKept_fset _ (f := HCMD_ID_VAR) _ (by decide)), by simp only [Hub.fset_rst, hrst]⟩

/-- The hub out of its reset. -/
def Hub.released (h : Hub) (rtcOk strap split : Bool) (t : Nat) : Hub :=
  { (h.strapped rtcOk strap split).repair with rst := (h.strapped rtcOk strap split).rst.release t }

theorem Hub.released_spec (h : Hub) (rtcOk strap split : Bool) (t : Nat) :
    h.PrepKept (h.released rtcOk strap split t) ∧ (h.released rtcOk strap split t).rst = h.rst.release t := by
  obtain ⟨hkept, hrst⟩ := h.strapped_kept rtcOk strap split
  unfold Hub.released
  generalize h.strapped rtcOk strap split = u at *
  have hrep := hkept.trans u.repair_kept
  generalize u.repair = v at *
  exact ⟨hrep.trans (Hub.prepKept_of_eq rfl rfl), congrArg (RstInt.release · t) hrst⟩

/-- The state with the hub out of its reset, before a slot is chosen. -/
def State.hubOut (s : State) (strap : Bool) (t : Nat) : State :=
  let s := { s with aon := { s.aon with hostSel := strap } }
  let s := if s.hub.rst.cold then s.clearMailboxes else s
  let s := (s.modHub fun h => h.released s.aon.rtcOk strap s.split t).raiseRails
  if s.waking then s.wakeCheck else s

theorem State.releaseHub_eq (s : State) (strap : Bool) (t : Nat) :
    s.releaseHub strap t = if (!(s.hub.rst.mayRelease .hub t && s.aon.pwr.hubPowered && s.aon.resetNLow.isNone)) = true then s
      else if [0, 1].any (s.hubOut strap t).slotVerifies = true then ((s.hubOut strap t).startSlots).startFirmware t
      else (s.hubOut strap t).startLoader := rfl

theorem State.raiseRails_spec (s : State) : s.PrepKept s.raiseRails ∧ s.raiseRails.hub = s.hub ∧ s.raiseRails.aon.hostSel = s.aon.hostSel := by
  unfold State.raiseRails
  split <;> exact ⟨⟨rfl, rfl, rfl⟩, rfl, rfl⟩

theorem State.hubOut_spec (s : State) (strap : Bool) (t : Nat) :
    s.PrepKept (s.hubOut strap t) ∧ (s.hubOut strap t).hub.rst = s.hub.rst.release t ∧ (s.hubOut strap t).aon.hostSel = strap := by
  unfold State.hubOut
  extract_lets _a a b c
  have ha : s.PrepKept a ∧ a.hub.rst = s.hub.rst ∧ a.aon.hostSel = strap := ⟨⟨rfl, rfl, rfl⟩, rfl, rfl⟩
  clear_value a
  obtain ⟨akept, arst, astrap⟩ := ha
  have hb : a.OnlyHub b ∧ a.hub.PrepKept b.hub ∧ b.hub.rst = a.hub.rst := by
    unfold b
    split
    · exact a.clearMailboxes_spec
    · exact ⟨rfl, ⟨rfl, rfl⟩, rfl⟩
  clear_value b
  obtain ⟨bhub, bhkept, brst⟩ := hb
  obtain ⟨bkept, baon⟩ := bhub.prepKept bhkept
  have hc : b.PrepKept c ∧ c.hub.rst = b.hub.rst.release t ∧ c.aon.hostSel = b.aon.hostSel := by
    obtain ⟨rkept, rrst⟩ := b.hub.released_spec b.aon.rtcOk strap b.split t
    obtain ⟨mkept, maon⟩ := (b.onlyHub_modHub fun h => h.released b.aon.rtcOk strap b.split t).prepKept rkept
    obtain ⟨ckept, chub, cstrap⟩ := (b.modHub fun h => h.released b.aon.rtcOk strap b.split t).raiseRails_spec
    exact ⟨mkept.trans ckept, (congrArg Hub.rst (chub.trans (State.modHub_hub _ _))).trans rrst, cstrap.trans (congrArg AonInt.hostSel maon)⟩
  clear_value c
  obtain ⟨ckept, crst, cstrap⟩ := hc
  have hkept := (akept.trans bkept).trans ckept
  have hrst : c.hub.rst = s.hub.rst.release t := by rw [crst, brst, arst]
  have hstrap : c.aon.hostSel = strap := by rw [cstrap, baon, astrap]
  split
  · obtain ⟨whub, whkept, wrst⟩ := c.wakeCheck_spec
    obtain ⟨wkept, waon⟩ := whub.prepKept whkept
    exact ⟨hkept.trans wkept, wrst.trans hrst, (congrArg AonInt.hostSel waon).trans hstrap⟩
  · exact ⟨hkept, hrst, hstrap⟩

/-! ### RESET_RELEASE of the hub: its firmware (R361, R366, R412, R443, R464, R470 to R472) -/

/-- The start of the firmware leaves the hub out of reset, and out of the loader. -/
def Hub.StartKept (h k : Hub) : Prop := k.rst = h.rst ∧ k.upd.loader = h.upd.loader

theorem Hub.StartKept.trans {h k m : Hub} (a : h.StartKept k) (b : k.StartKept m) : h.StartKept m := ⟨b.1.trans a.1, b.2.trans a.2⟩

theorem Hub.startKept_fset (h : Hub) (f : Fld) (v : Nat) : h.StartKept (h.fset f v) := ⟨rfl, rfl⟩

theorem Hub.startKept_setRg (h : Hub) (a : Nat) (v : Word) : h.StartKept (h.setRg a v) := ⟨rfl, rfl⟩

theorem Hub.startKept_showPointer (h : Hub) (p : BootPtr) : h.StartKept (h.showPointer p) :=
  (((h.startKept_fset _ _).trans (Hub.startKept_fset _ _ _)).trans (Hub.startKept_fset _ _ _)).trans (Hub.startKept_fset _ _ _)

/-- The start of the firmware keeps the strap that AON sampled too. -/
def State.StartKept (s t : State) : Prop := s.hub.StartKept t.hub ∧ t.aon.hostSel = s.aon.hostSel

theorem State.StartKept.refl (s : State) : s.StartKept s := ⟨⟨rfl, rfl⟩, rfl⟩

theorem State.StartKept.trans {s t u : State} (a : s.StartKept t) (b : t.StartKept u) : s.StartKept u := ⟨a.1.trans b.1, b.2.trans a.2⟩

theorem State.startKept_modHub {s : State} {f : Hub → Hub} (h : s.hub.StartKept (f s.hub)) : s.StartKept (s.modHub f) := ⟨h, rfl⟩

theorem State.startKept_recHub (s : State) (blk cls rule : Nat) (data : List (Nat × Nat)) : s.StartKept (s.recHub blk cls rule data) := by
  obtain ⟨hkept, hrst⟩ := (s.recHub_same blk cls rule data).prepKept
  exact ⟨⟨hrst, congrArg UpdInt.loader hkept.1⟩, rfl⟩

theorem State.startKept_writePointer (s : State) (p : BootPtr) : s.StartKept (s.writePointer p) := by
  cases hpf : s.hub.on NVW_STAT_PF
  · rw [State.writePointer_powered hpf]
    exact ⟨(s.withPointer_hub p).symm ▸ s.hub.startKept_showPointer p, rfl⟩
  · rw [State.writePointer, if_pos hpf]
    exact .refl s

theorem State.startKept_startPointer (s : State) (p : BootPtr) : s.StartKept (s.startPointer p) := by
  unfold State.startPointer
  split
  · exact State.startKept_modHub (s.hub.startKept_showPointer p)
  · exact s.startKept_writePointer p

theorem State.startKept_startSlots (s : State) : s.StartKept s.startSlots := by
  unfold State.startSlots
  split
  · exact State.startKept_modHub ((s.hub.startKept_showPointer _).trans (Hub.startKept_fset _ _ _))
  · split
    · split
      · exact ((s.startKept_startPointer _).trans (State.startKept_modHub (Hub.startKept_fset _ _ _))).trans (State.startKept_recHub _ _ _ _ _)
      · exact s.startKept_startPointer _
    · exact State.startKept_modHub (s.hub.startKept_showPointer _)

theorem State.startKept_startJournal (s : State) : s.StartKept s.startJournal := by
  unfold State.startJournal
  split
  · exact .refl s
  · exact State.startKept_modHub ⟨rfl, rfl⟩

theorem Hub.startKept_sgwLoadSection (h : Hub) (area : List Byte) : h.StartKept (h.sgwLoadSection area) := by
  have hload := h.sgwLoadSection_gatewayOnly area
  exact ⟨(congrArg Hub.rst hload).trans rfl, congrArg UpdInt.loader hload.kept.2⟩

theorem State.startKept_commitArea (s : State) (area fmt : Nat) (bytes : List Byte) : s.StartKept (s.commitArea area fmt bytes) := by
  have hj := State.jAppend_journaled { s with flash1 := flashPutBytes (flashErase s.flash1 (areaBase area) 0x400000) (areaBase area) bytes }
    jSettings (beBytes 1 area ++ zeros 1 ++ beBytes 2 fmt ++ beBytes 4 bytes.length ++ beBytes 4 (crc32c bytes) ++ beBytes 4 (s.hub.upd.setSeq + 1))
  unfold State.commitArea
  dsimp only
  generalize State.jAppend _ jSettings _ = t at *
  have ht : s.StartKept t :=
    ⟨⟨(congrArg (·.hub.rst) hj).trans rfl, (congrArg (·.hub.upd.loader) hj).trans rfl⟩, (congrArg (·.aon.hostSel) hj).trans rfl⟩
  exact ht.trans (State.startKept_modHub ⟨rfl, rfl⟩)

/-- A write of settings that no command waits for. -/
theorem State.startKept_gated (s : State) {g : GatedWrite} (hk : g.kind = .settings) (hc : g.cmd = none) : s.StartKept (s.gated g) := by
  have hwrite : s.performWrite g = (s.commitArea g.addr s.hub.upd.setFmt g.bytes).modHub (·.sgwLoadSection g.bytes) := by
    unfold State.performWrite
    rw [hk, hc]
  unfold State.gated
  split
  · exact .refl s
  · split
    · rw [hwrite]
      exact (s.startKept_commitArea _ _ _).trans (State.startKept_modHub (Hub.startKept_sgwLoadSection _ _))
    · exact State.startKept_modHub ⟨rfl, rfl⟩

theorem State.startKept_startSettings (s : State) (fmt : Nat) : s.StartKept (s.startSettings fmt) := by
  have htake (bytes : List Byte) (area crc seq : Nat) : s.StartKept (s.modHub (·.takeSettings bytes area crc seq fmt)) :=
    State.startKept_modHub ⟨rfl, rfl⟩
  unfold State.startSettings
  split
  · exact htake _ _ _ _
  · split
    · exact (htake _ _ _ _).trans (State.startKept_gated _ rfl rfl)
    · split
      · exact ((State.startKept_modHub (s.hub.startKept_fset UPD_STAT_SET_INCOMP 1)).trans (State.startKept_recHub _ _ _ _ _)).trans
          (State.startKept_startPointer _ _)
      · exact State.startKept_modHub ⟨rfl, rfl⟩

theorem State.startKept_startClaim (s : State) : s.StartKept s.startClaim :=
  State.startKept_modHub (((s.hub.startKept_fset PTNR_STAT_CLAIM_LOST _).trans (Hub.startKept_setRg _ PTNR_CLAIM _)).trans ⟨rfl, rfl⟩)

theorem Hub.startKept_newRecord (h : Hub) (x : RecSub) (gap : Bool) : h.StartKept (h.newRecord x gap) := by
  have hframe := (h.newRecord_spec x gap).1
  exact ⟨(congrArg Hub.rst hframe).trans rfl, (congrArg (·.upd.loader) hframe).trans rfl⟩

theorem State.startKept_recStart (s : State) (tm : Nat) : s.StartKept (s.recStart tm) := by
  unfold State.recStart
  extract_lets fr rr fm head taken page missing gone
  refine State.startKept_modHub ?_
  extract_lets src r h₁ h₂ h₃
  have k₂ : s.hub.StartKept h₂ := Hub.StartKept.trans (k := h₁) ⟨rfl, rfl⟩ (h₁.startKept_newRecord _ _)
  have k₃ : s.hub.StartKept h₃ := by
    unfold h₃
    split
    · exact k₂.trans (h₂.startKept_newRecord _ _)
    · exact k₂
  clear_value missing h₃
  cases missing with
  | none => exact k₃
  | some q => exact k₃.trans ((h₃.startKept_newRecord _ _).trans (Hub.startKept_fset _ REC_STAT_TAIL_FAIL _))

theorem Hub.startKept_startPair (h : Hub) (t : Nat) : h.StartKept (h.startPair t) := by
  unfold Hub.startPair
  split <;> exact ⟨rfl, rfl⟩

/-- The hub with its gateway map loaded and its command interface ready. -/
def Hub.commandsReady (h : Hub) (area : List Byte) (t : Nat) : Hub :=
  (((h.sgwLoadSection area).startPair t).setRg HCMD_SEQ h.topSeq).fset HCMD_STAT_READY 1

theorem Hub.commandsReady_spec (h : Hub) (area : List Byte) (t : Nat) :
    h.StartKept (h.commandsReady area t) ∧ (h.commandsReady area t).on HCMD_STAT_READY = true := by
  have hkept := (h.startKept_sgwLoadSection area).trans (Hub.startKept_startPair _ t)
  unfold Hub.commandsReady
  generalize (h.sgwLoadSection area).startPair t = w at *
  exact ⟨(hkept.trans (w.startKept_setRg _ _)).trans (Hub.startKept_fset _ _ _), Hub.on_fset_set _ HCMD_STAT_READY (by rfl) rfl⟩

/-- The hub's firmware with its settings, records and gateway map, ready for commands. -/
def State.firmwareUp (s : State) (t : Nat) : State :=
  let u := ((s.startJournal.startSettings (hdrSetfmt (s.slotHdr (s.pointer.slotFor 1)))).startClaim).recStart t
  let v := u.modHub (·.commandsReady (u.areaBytes u.hub.upd.setArea u.hub.upd.setLen) t)
  { v with hub := { v.hub with up := true }, aon := { v.aon with hubStep := none, hubRevert := false } }

/-- The lanes out of reset learn that the hub is up. -/
def State.tellHubUp (s : State) : State := allLanes.foldl (fun (s : State) l => s.upLane l (·.fset BRG_STAT_HUBUP 1)) s

theorem State.startFirmware_eq (s : State) (t : Nat) : s.startFirmware t = (((s.firmwareUp t).faultPin 4 false).tellHubUp).loadLanes := rfl

theorem State.firmwareUp_spec (s : State) (t : Nat) :
    s.StartKept (s.firmwareUp t) ∧ (s.firmwareUp t).hub.up = true ∧ (s.firmwareUp t).hub.on HCMD_STAT_READY = true := by
  unfold State.firmwareUp
  extract_lets u v
  have hu : s.StartKept u := (((s.startKept_startJournal.trans (State.startKept_startSettings _ _)).trans (State.startKept_startClaim _))).trans
    (State.startKept_recStart _ _)
  clear_value u
  have hv : u.StartKept v ∧ v.hub.on HCMD_STAT_READY = true := by
    obtain ⟨hkept, hready⟩ := u.hub.commandsReady_spec (u.areaBytes u.hub.upd.setArea u.hub.upd.setLen) t
    exact ⟨State.startKept_modHub hkept, hready⟩
  clear_value v
  exact ⟨(hu.trans hv.1).trans ⟨⟨rfl, rfl⟩, rfl⟩, rfl, hv.2⟩

/-- What the hub's last steps of a start leave of it. -/
def State.HubStands (s t : State) : Prop :=
  s.StartKept t ∧ t.hub.up = s.hub.up ∧ t.hub.on HCMD_STAT_READY = s.hub.on HCMD_STAT_READY

theorem State.HubStands.trans {s t u : State} (a : s.HubStands t) (b : t.HubStands u) : s.HubStands u :=
  ⟨a.1.trans b.1, b.2.1.trans a.2.1, b.2.2.trans a.2.2⟩

theorem State.hubStands_faultPin (s : State) (k : Nat) (v : Bool) : s.HubStands (s.faultPin k v) := by
  unfold State.faultPin
  dsimp only
  generalize decide ((if v = true then s.aon.faultWhy ||| BitVec.ofNat 5 (2 ^ k) else s.aon.faultWhy &&& ~~~(BitVec.ofNat 5 (2 ^ k))) ≠ 0) = n
  have hready (h : Hub) : (h.fset HCMD_STAT_FAULT (b2n n)).on HCMD_STAT_READY = h.on HCMD_STAT_READY :=
    h.on_fset_apart (f := HCMD_STAT_FAULT) _ (by rfl) (by rfl) (by rfl)
  split
  · exact ⟨⟨⟨rfl, rfl⟩, rfl⟩, rfl, hready _⟩
  · exact ⟨⟨⟨rfl, rfl⟩, rfl⟩, rfl, hready _⟩

theorem State.HubLost.hubStands {s t : State} (a : s.HubLost t) : s.HubStands t := by
  obtain ⟨hframe, hsame, -⟩ := a
  obtain ⟨⟨hupd, hready⟩, hrst⟩ := hsame.prepKept
  exact ⟨⟨⟨hrst, congrArg UpdInt.loader hupd⟩, (congrArg (·.aon.hostSel) hframe).trans rfl⟩, (congrArg Hub.up hsame.1).trans rfl, hready⟩

theorem State.hubStands_tellHubUp (s : State) : s.HubStands s.tellHubUp := by
  have h (ls : List LaneId) (z : State) : z.HubLost (ls.foldl (fun (s : State) l => s.upLane l (·.fset BRG_STAT_HUBUP 1)) z) := by
    induction ls generalizing z with
    | nil => exact .refl z
    | cons l ls ih => exact (z.hubLost_upLane l fun x => x.bridgeOnly_fset (f := BRG_STAT_HUBUP) 1 (by decide)).trans (ih _)
  exact (h allLanes s).hubStands

theorem State.hubStands_loadLanes (s : State) : s.HubStands s.loadLanes := by
  have h (ls : List LaneId) (z : State) : ∀ v, v = ls.foldl (fun (s : State) l => if (s.lane l).toLoad then s.laneLoad l else s) z →
      v.hub = z.hub ∧ v.aon = z.aon := by
    induction ls generalizing z with
    | nil => rintro v rfl; exact ⟨rfl, rfl⟩
    | cons l ls ih =>
      rintro v rfl
      rw [List.foldl_cons]
      split
      · obtain ⟨lhub, laon, -⟩ := z.laneLoad_spec l
        obtain ⟨vhub, vaon⟩ := ih (z.laneLoad l) _ rfl
        exact ⟨vhub.trans lhub, vaon.trans laon⟩
      · exact ih z _ rfl
  unfold State.loadLanes
  split
  · obtain ⟨hhub, haon⟩ := h allLanes s _ rfl
    exact ⟨⟨⟨congrArg Hub.rst hhub, congrArg (·.upd.loader) hhub⟩, congrArg AonInt.hostSel haon⟩, congrArg Hub.up hhub,
      congrArg (·.on HCMD_STAT_READY) hhub⟩
  · exact ⟨.refl s, rfl, rfl⟩

theorem State.startFirmware_spec (s : State) (t : Nat) :
    s.StartKept (s.startFirmware t) ∧ (s.startFirmware t).hub.up = true ∧ (s.startFirmware t).hub.on HCMD_STAT_READY = true := by
  obtain ⟨hkept, hup, hready⟩ := s.firmwareUp_spec t
  rw [State.startFirmware_eq]
  generalize s.firmwareUp t = u at *
  obtain ⟨ukept, uup, uready⟩ := ((u.hubStands_faultPin 4 false).trans (State.hubStands_tellHubUp _)).trans (State.hubStands_loadLanes _)
  exact ⟨hkept.trans ukept, uup.trans hup, uready.trans hready⟩

/-- The recovery loader instead: the fault ball, and nothing in the lanes. -/
theorem State.startLoader_spec (s : State) :
    s.startLoader.hub.rst = s.hub.rst ∧ s.startLoader.hub.upd.loader = true ∧ s.startLoader.hub.up = true ∧
      s.startLoader.hub.on HCMD_STAT_READY = s.hub.on HCMD_STAT_READY ∧ s.startLoader.aon.hostSel = s.aon.hostSel ∧
      s.startLoader.aon.faultN = true ∧ ∀ l, s.startLoader.lane l = s.lane l := by
  let u := s.modHub fun h => { h with up := true, upd := { h.upd with loader := true } }
  obtain ⟨⟨⟨hrst, hload⟩, hsel⟩, hup, hready⟩ := u.hubStands_faultPin 4 true
  obtain ⟨hfault, -, -, -, hlanes⟩ := u.faultPin_set 4 (by decide)
  exact ⟨hrst, hload, hup, hready, hsel, hfault, fun l => (hlanes l).trans (State.modHub_lane s _ l)⟩

theorem hubIsReleased (s : State) (strap : Bool) (tm : Nat) :
    ∃ t, exec (.resetRelease .hub strap tm) s = .next t ∧
      (s.hub.rst.mayRelease .hub tm = false → t = s.at tm) ∧
      (s.hub.rst.mayRelease .hub tm = true → s.aon.pwr.hubPowered = true → s.aon.resetNLow = none →
        t.hub.rst.held = false ∧ t.aon.hostSel = strap ∧ t.hub.up = true ∧
        t.hub.upd.loader = (s.hub.upd.loader || !(s.slotVerifies 0 || s.slotVerifies 1)) ∧
        t.hub.on HCMD_STAT_READY = (s.hub.on HCMD_STAT_READY || s.slotVerifies 0 || s.slotVerifies 1) ∧
        (s.slotVerifies 0 = false → s.slotVerifies 1 = false → t.aon.faultN = true ∧ ∀ l, t.lane l = s.lane l)) := by
  have heq := (s.at tm).releaseHub_eq strap tm
  have hmay : (s.at tm).hub.rst.mayRelease .hub tm = s.hub.rst.mayRelease .hub tm := rfl
  have hpow : (s.at tm).aon.pwr.hubPowered = s.aon.pwr.hubPowered := rfl
  have hlow : (s.at tm).aon.resetNLow = s.aon.resetNLow := rfl
  refine ⟨(s.at tm).releaseHub strap tm, rfl, fun hno => ?_, fun hm hp hn => ?_⟩
  · rw [heq]
    exact if_pos (by rw [hmay, hno]; rfl)
  · rw [heq, if_neg (by rw [hmay, hpow, hlow, hm, hp, hn]; decide)]
    obtain ⟨ukept, urst, ustrap⟩ := (s.at tm).hubOut_spec strap tm
    obtain ⟨uflash, ufuses, ulanes⟩ := ukept.rest
    have hver (k : Nat) : ((s.at tm).hubOut strap tm).slotVerifies k = s.slotVerifies k := State.slotVerifies_congr uflash ufuses k
    have hany : [0, 1].any ((s.at tm).hubOut strap tm).slotVerifies = (s.slotVerifies 0 || s.slotVerifies 1) := by
      rw [List.any_cons, List.any_cons, List.any_nil, Bool.or_false, hver, hver]
    obtain ⟨-, uupd, uready⟩ := ukept
    have hload : ((s.at tm).hubOut strap tm).hub.upd.loader = s.hub.upd.loader := congrArg UpdInt.loader uupd
    have hready : ((s.at tm).hubOut strap tm).hub.on HCMD_STAT_READY = s.hub.on HCMD_STAT_READY := uready
    have hlanes (l : LaneId) : ((s.at tm).hubOut strap tm).lane l = s.lane l := (ulanes l).trans (State.at_lane s tm l)
    have hheld : ((s.at tm).hubOut strap tm).hub.rst.held = false := congrArg RstInt.held urst
    rw [hany]
    generalize (s.at tm).hubOut strap tm = u at *
    cases hv : (s.slotVerifies 0 || s.slotVerifies 1)
    · rw [if_neg (by decide)]
      obtain ⟨lrst, lload, lup, lready, lsel, lfault, llanes⟩ := u.startLoader_spec
      refine ⟨(congrArg RstInt.held lrst).trans hheld, lsel.trans ustrap, lup, ?_, ?_, fun _ _ => ⟨lfault, fun l => (llanes l).trans (hlanes l)⟩⟩
      · rw [lload, Bool.not_false, Bool.or_true]
      · rw [lready, hready, Bool.or_assoc, hv, Bool.or_false]
    · rw [if_pos rfl]
      obtain ⟨⟨⟨frst, fload⟩, fsel⟩, fup, fready⟩ := u.startSlots.startFirmware_spec tm
      obtain ⟨⟨srst, sload⟩, ssel⟩ := u.startKept_startSlots
      refine ⟨(congrArg RstInt.held (frst.trans srst)).trans hheld, (fsel.trans ssel).trans ustrap, fup, ?_, ?_, fun h0 h1 => ?_⟩
      · rw [fload, sload, hload, Bool.not_true, Bool.or_false]
      · rw [fready, Bool.or_assoc, hv, Bool.or_true]
      · rw [h0, h1] at hv
        exact absurd hv (by decide)

/-! ### RESET_RELEASE of the FIELD die (R239, R489) -/

theorem fieldIsReleased (s : State) (strap : Bool) (tm : Nat) (hm : s.fieldRst.mayRelease .field tm = true) (hp : s.field.powered = true)
    (hn : s.aon.resetNLow = none) :
    ∃ t, exec (.resetRelease .field strap tm) s = .next t ∧ t.fieldRst.held = false ∧ t.hub = s.hub ∧ ∀ l, t.lane l = s.lane l := by
  have heq : (s.at tm).releaseField tm =
      { s.at tm with fieldRst := s.fieldRst.release tm, field := { s.field with periodT := tm, lastCmd := tm } } :=
    if_pos (by simp [hm, hp, hn])
  exact ⟨_, done_of_eq heq, rfl, rfl, fun l => by cases l <;> rfl⟩

/-- Settles O59: the trim loads, and the release of each kind of die. -/
theorem diesAreReleasedWithValidTrim : Obligations.DiesAreReleasedWithValidTrim :=
  ⟨trimLoadsEnd, lanesAreReleased, hubIsReleased, fieldIsReleased⟩

end Sys2Proof.Machine
end

section
/-! PROOFS. What every command keeps, whatever it does: the canonical form of every store where that is promised, the fuses, the queue behind the
command, and a time that never goes back. First the promise itself (the charter) and its rule for stores, folds and the named updates of the module;
the sections after this one hold one rule for each function of the model that changes a lane, the hub or the module, in the model's order. A rule
unfolds its function alone: what it calls is cited by its own rule, each value named on the way keeps the charter, and so does each branch. -/

namespace Sys2Proof.Machine

/-! ### The promise -/

/-- What a command keeps: the canonical form of the stores, where `stores` asks for it, the fuses, the commands waiting, and no time before
`since`. -/
structure Charter where
  stores : Prop
  fuses : Fuses
  queue : List Instr
  since : Nat

/-- A sparse store keeps the charter. -/
def SparseKeeps {α : Type} [DecidableEq α] (κ : Charter) (d : Nat → α) (m : Sparse α) : Prop := κ.stores → sparseWf d m = true

/-- A RAM keeps the charter. -/
def RamKeeps (κ : Charter) (m : List Host.Cell) : Prop := κ.stores → Memory.wf m = true

/-- A flash keeps the charter. -/
def FlashKeeps (κ : Charter) (m : List Host.Cell) : Prop := κ.stores → sparseWf flashDefault m = true

/-- A mailbox keeps the charter: its bytes do. -/
def Mailbox.Keeps (κ : Charter) (m : Mailbox) : Prop := RamKeeps κ m.mem

/-- A lane keeps the charter: its registers, its SRAM and the windows of its route engine do. -/
def Lane.Keeps (κ : Charter) (x : Lane) : Prop :=
  SparseKeeps κ laneRegDefault x.reg ∧ RamKeeps κ x.sram ∧ SparseKeeps κ (fun _ => cellZero) x.cells ∧
    SparseKeeps κ (fun _ => (0 : Word)) x.ard ∧ SparseKeeps κ (fun _ => (0 : Word)) x.rstat ∧ SparseKeeps κ (fun _ => (0 : Word)) x.pstore

/-- The hub keeps the charter: its registers, its SRAM and the mailboxes do. -/
def Hub.Keeps (κ : Charter) (h : Hub) : Prop :=
  SparseKeeps κ hubRegDefault h.reg ∧ RamKeeps κ h.sram ∧ h.mbxA.Keeps κ ∧ h.mbxB.Keeps κ ∧ h.mbxC.Keeps κ

/-- The module keeps the charter. -/
def State.Keeps (κ : Charter) (s : State) : Prop :=
  s.fuses = κ.fuses ∧ s.pending = κ.queue ∧ κ.since ≤ s.now ∧ s.la.Keeps κ ∧ s.lb.Keeps κ ∧ s.lc.Keeps κ ∧ s.hub.Keeps κ ∧
    FlashKeeps κ s.flash0 ∧ FlashKeeps κ s.flash1

variable {κ : Charter}

/-! ### Parts -/

theorem Lane.Keeps.reg {x : Lane} (hk : x.Keeps κ) : SparseKeeps κ laneRegDefault x.reg := hk.1
theorem Lane.Keeps.sram {x : Lane} (hk : x.Keeps κ) : RamKeeps κ x.sram := hk.2.1
theorem Lane.Keeps.cells {x : Lane} (hk : x.Keeps κ) : SparseKeeps κ (fun _ => cellZero) x.cells := hk.2.2.1
theorem Lane.Keeps.ard {x : Lane} (hk : x.Keeps κ) : SparseKeeps κ (fun _ => (0 : Word)) x.ard := hk.2.2.2.1
theorem Lane.Keeps.rstat {x : Lane} (hk : x.Keeps κ) : SparseKeeps κ (fun _ => (0 : Word)) x.rstat := hk.2.2.2.2.1
theorem Lane.Keeps.pstore {x : Lane} (hk : x.Keeps κ) : SparseKeeps κ (fun _ => (0 : Word)) x.pstore := hk.2.2.2.2.2

theorem Hub.Keeps.reg {h : Hub} (hk : h.Keeps κ) : SparseKeeps κ hubRegDefault h.reg := hk.1
theorem Hub.Keeps.sram {h : Hub} (hk : h.Keeps κ) : RamKeeps κ h.sram := hk.2.1
theorem Hub.Keeps.mbxA {h : Hub} (hk : h.Keeps κ) : h.mbxA.Keeps κ := hk.2.2.1
theorem Hub.Keeps.mbxB {h : Hub} (hk : h.Keeps κ) : h.mbxB.Keeps κ := hk.2.2.2.1
theorem Hub.Keeps.mbxC {h : Hub} (hk : h.Keeps κ) : h.mbxC.Keeps κ := hk.2.2.2.2
theorem Mailbox.Keeps.mem {m : Mailbox} (hk : m.Keeps κ) : RamKeeps κ m.mem := hk

theorem Hub.Keeps.mbx {h : Hub} {l : LaneId} (hk : h.Keeps κ) : (h.mbx l).Keeps κ := by
  cases l
  exacts [hk.mbxA, hk.mbxB, hk.mbxC]

theorem State.Keeps.fuses {s : State} (hk : s.Keeps κ) : s.fuses = κ.fuses := hk.1
theorem State.Keeps.pending {s : State} (hk : s.Keeps κ) : s.pending = κ.queue := hk.2.1
theorem State.Keeps.now {s : State} (hk : s.Keeps κ) : κ.since ≤ s.now := hk.2.2.1
theorem State.Keeps.la {s : State} (hk : s.Keeps κ) : s.la.Keeps κ := hk.2.2.2.1
theorem State.Keeps.lb {s : State} (hk : s.Keeps κ) : s.lb.Keeps κ := hk.2.2.2.2.1
theorem State.Keeps.lc {s : State} (hk : s.Keeps κ) : s.lc.Keeps κ := hk.2.2.2.2.2.1
theorem State.Keeps.hub {s : State} (hk : s.Keeps κ) : s.hub.Keeps κ := hk.2.2.2.2.2.2.1
theorem State.Keeps.flash0 {s : State} (hk : s.Keeps κ) : FlashKeeps κ s.flash0 := hk.2.2.2.2.2.2.2.1
theorem State.Keeps.flash1 {s : State} (hk : s.Keeps κ) : FlashKeeps κ s.flash1 := hk.2.2.2.2.2.2.2.2

theorem State.Keeps.lane {s : State} {l : LaneId} (hk : s.Keeps κ) : (s.lane l).Keeps κ := by
  cases l
  exacts [hk.la, hk.lb, hk.lc]

/-! ### Stores -/

section
variable {α : Type} [DecidableEq α] {d : Nat → α} {m : Sparse α}

theorem SparseKeeps.nil : SparseKeeps κ d [] := fun _ => rfl
theorem SparseKeeps.set {k : Nat} {v : α} (hm : SparseKeeps κ d m) : SparseKeeps κ d (sparseSet d m k v) := fun hc => sparseWf_set _ _ (hm hc)
theorem SparseKeeps.map {f : Nat → α → α} : SparseKeeps κ d (sparseMap d f m) := fun _ => sparseWf_map d f m

end

section
variable {m : List Host.Cell} {a n v : Nat} {b : Byte} {bs : List Byte}

theorem RamKeeps.nil : RamKeeps κ [] := fun _ => rfl
theorem RamKeeps.put (hm : RamKeeps κ m) : RamKeeps κ (memPut m a b) := fun hc => Memory.wf_put a b (hm hc)
theorem RamKeeps.putBytes (hm : RamKeeps κ m) : RamKeeps κ (memPutBytes m a bs) := fun hc => Memory.wf_putBytes a bs (hm hc)
theorem RamKeeps.putNat (hm : RamKeeps κ m) : RamKeeps κ (memPutNat m a n v) := fun hc => Memory.wf_putNat a n v (hm hc)
theorem RamKeeps.clear (hm : RamKeeps κ m) : RamKeeps κ (memClear m a n) := fun hc => Memory.wf_clear a n (hm hc)
theorem RamKeeps.filter {p : Nat → Bool} (hm : RamKeeps κ m) : RamKeeps κ (sparseFilter p m) := fun hc => sparseWf_filter p (hm hc)
theorem FlashKeeps.putBytes (hm : FlashKeeps κ m) : FlashKeeps κ (flashPutBytes m a bs) := fun hc => sparseWf_flashPutBytes a bs (hm hc)
theorem FlashKeeps.erase (hm : FlashKeeps κ m) : FlashKeeps κ (flashErase m a n) := fun hc => sparseWf_flashErase a n (hm hc)
end

/-! ### Canonical form: keys that rise, and no default -/

section
variable {α : Type}

theorem sparseWfFrom_iff [DecidableEq α] {d : Nat → α} {m : Sparse α} {a : Nat} :
    sparseWfFrom d a m = true ↔ (∀ e ∈ m, a ≤ e.1) ∧ m.Pairwise (fun e f => e.1 < f.1) ∧ ∀ e ∈ m, e.2 ≠ d e.1 := by
  induction m generalizing a with
  | nil => simp [sparseWfFrom]
  | cons e m ih =>
    obtain ⟨j, v⟩ := e
    simp only [sparseWfFrom, Bool.and_eq_true, decide_eq_true_eq, ih, List.forall_mem_cons, List.pairwise_cons, Nat.succ_le_iff]
    constructor
    · rintro ⟨⟨haj, hv⟩, hlt, hp, hd⟩
      exact ⟨⟨haj, fun f hf => haj.trans (hlt f hf).le⟩, ⟨hlt, hp⟩, hv, hd⟩
    · rintro ⟨⟨haj, -⟩, ⟨hlt, hp⟩, hv, hd⟩
      exact ⟨⟨haj, hv⟩, hlt, hp, hd⟩

theorem sparseWf_iff [DecidableEq α] {d : Nat → α} {m : Sparse α} :
    sparseWf d m = true ↔ m.Pairwise (fun e f => e.1 < f.1) ∧ ∀ e ∈ m, e.2 ≠ d e.1 := by
  simp [sparseWf, sparseWfFrom_iff]

/-- Sorting by key, of entries whose keys differ, gives rising keys. -/
theorem insertBy_keys_rise {x : Nat × α} {ys : List (Nat × α)} (hy : ys.Pairwise fun e f => e.1 < f.1) (hx : ∀ e ∈ ys, e.1 ≠ x.1) :
    (insertBy (fun a b => decide (a.1 ≤ b.1)) x ys).Pairwise fun e f => e.1 < f.1 := by
  induction ys with
  | nil => simp [insertBy]
  | cons y ys ih =>
    obtain ⟨hlt, hp⟩ := List.pairwise_cons.1 hy
    obtain ⟨hne, hxs⟩ := List.forall_mem_cons.1 hx
    unfold insertBy
    by_cases hle : y.1 ≤ x.1
    · rw [if_pos (decide_eq_true hle)]
      refine List.pairwise_cons.2 ⟨fun z hz => ?_, ih hp hxs⟩
      obtain rfl | hz := List.mem_cons.1 ((insertBy_perm _ _ _).mem_iff.1 hz)
      exacts [lt_of_le_of_ne hle hne, hlt z hz]
    · rw [if_neg (by simpa using hle)]
      have hxy : x.1 < y.1 := not_le.1 hle
      exact List.pairwise_cons.2 ⟨List.forall_mem_cons.2 ⟨hxy, fun z hz => hxy.trans (hlt z hz)⟩, hy⟩

theorem sortBy_append_singleton (le : α → α → Bool) (xs : List α) (x : α) : sortBy le (xs ++ [x]) = insertBy le x (sortBy le xs) := by
  simp [sortBy, List.foldl_append]

theorem sortBy_keys_rise {xs : List (Nat × α)} (hx : xs.Pairwise fun e f => e.1 ≠ f.1) :
    (sortBy (fun a b => decide (a.1 ≤ b.1)) xs).Pairwise fun e f => e.1 < f.1 := by
  induction xs using List.reverseRecOn with
  | nil => exact .nil
  | append_singleton xs x ih =>
    obtain ⟨hxs, -, hne⟩ := List.pairwise_append.1 hx
    rw [sortBy_append_singleton]
    exact insertBy_keys_rise (ih hxs) fun e he => hne e ((sortBy_perm _ _).mem_iff.1 he) x (List.mem_singleton.2 rfl)

/-- Pages taken alternately from two canonical stores make a canonical store. -/
theorem sparseWf_pageMix [DecidableEq α] {d : Nat → α} {n : Nat} {even odd : Sparse α} (he : sparseWf d even = true)
    (ho : sparseWf d odd = true) : sparseWf d (pageMix n even odd) = true := by
  obtain ⟨hep, hed⟩ := sparseWf_iff.1 he
  obtain ⟨hop, hod⟩ := sparseWf_iff.1 ho
  refine sparseWf_iff.2 ⟨sortBy_keys_rise (List.pairwise_append.2 ⟨?_, ?_, fun e hx f hy => ?_⟩), fun e hx => ?_⟩
  · exact (hep.filter _).imp fun h => h.ne
  · exact (hop.filter _).imp fun h => h.ne
  · have h0 : e.1 / n % 2 = 0 := by simpa using (List.mem_filter.1 hx).2
    have h1 : f.1 / n % 2 = 1 := by simpa using (List.mem_filter.1 hy).2
    intro h
    rw [h, h1] at h0
    cases h0
  · obtain hx | hx := List.mem_append.1 ((sortBy_perm _ _).mem_iff.1 hx)
    exacts [hed e (List.mem_filter.1 hx).1, hod e (List.mem_filter.1 hx).1]

/-- A canonical store of low keys before one of high keys is canonical. -/
theorem sparseWf_append [DecidableEq α] {d : Nat → α} {lo hi : Sparse α} {b : Nat} (hl : sparseWf d lo = true) (hh : sparseWf d hi = true)
    (hlo : ∀ e ∈ lo, e.1 < b) (hhi : ∀ e ∈ hi, b ≤ e.1) : sparseWf d (lo ++ hi) = true := by
  obtain ⟨hlp, hld⟩ := sparseWf_iff.1 hl
  obtain ⟨hhp, hhd⟩ := sparseWf_iff.1 hh
  refine sparseWf_iff.2 ⟨List.pairwise_append.2 ⟨hlp, hhp, fun e he f hf => (hlo e he).trans_le (hhi f hf)⟩, fun e he => ?_⟩
  exact (List.mem_append.1 he).elim (hld e) (hhd e)

theorem SparseKeeps.pageMix [DecidableEq α] {d : Nat → α} {n : Nat} {even odd : Sparse α} (he : SparseKeeps κ d even)
    (ho : SparseKeeps κ d odd) : SparseKeeps κ d (pageMix n even odd) := fun hc => sparseWf_pageMix (he hc) (ho hc)
end

theorem mem_pageMix_key {α : Type} {n : Nat} {even odd : List (Nat × α)} {e : Nat × α} (h : e ∈ pageMix n even odd) : e ∈ even ∨ e ∈ odd :=
  (List.mem_append.1 ((sortBy_perm _ _).mem_iff.1 h)).imp (fun h => (List.mem_filter.1 h).1) fun h => (List.mem_filter.1 h).1

theorem RamKeeps.takeState {m even odd : List Host.Cell} (hm : RamKeeps κ m) (he : RamKeeps κ even) (ho : RamKeeps κ odd) :
    RamKeeps κ (sparseFilter (fun a => !outsideCode a) m ++ pageMix 4096 (sparseFilter outsideCode even) (sparseFilter outsideCode odd)) := by
  intro hc
  refine sparseWf_append (b := 0x08400000) (hm.filter hc) (sparseWf_pageMix (he.filter hc) (ho.filter hc)) (fun e h => ?_) fun e h => ?_
  · simpa [outsideCode] using (List.mem_filter.1 h).2
  · have hout : outsideCode e.1 = true := (mem_pageMix_key h).elim (fun h => (List.mem_filter.1 h).2) fun h => (List.mem_filter.1 h).2
    simpa [outsideCode] using hout

/-! ### Folds: what every step of a fold keeps, the fold keeps -/

/-- A property that each step keeps holds of the fold. -/
theorem foldl_keeps {α β : Type} (P : β → Prop) {f : β → α → β} (xs : List α) {b : β} (hb : P b) (hf : ∀ y a, P y → P (f y a)) :
    P (xs.foldl f b) := by
  induction xs generalizing b with
  | nil => exact hb
  | cons a xs ih => exact ih (hf b a hb)

section
variable {α : Type} {xs : List α}

theorem Lane.Keeps.foldl {x : Lane} {f : Lane → α → Lane} (hk : x.Keeps κ) (hf : ∀ (y : Lane) (a : α), y.Keeps κ → (f y a).Keeps κ) :
    (xs.foldl f x).Keeps κ := foldl_keeps (Lane.Keeps κ) xs hk hf
theorem Hub.Keeps.foldl {h : Hub} {f : Hub → α → Hub} (hk : h.Keeps κ) (hf : ∀ (y : Hub) (a : α), y.Keeps κ → (f y a).Keeps κ) :
    (xs.foldl f h).Keeps κ := foldl_keeps (Hub.Keeps κ) xs hk hf
theorem State.Keeps.foldl {s : State} {f : State → α → State} (hk : s.Keeps κ) (hf : ∀ (y : State) (a : α), y.Keeps κ → (f y a).Keeps κ) :
    (xs.foldl f s).Keeps κ := foldl_keeps (State.Keeps κ) xs hk hf
theorem RamKeeps.foldl {m : List Host.Cell} {f : List Host.Cell → α → List Host.Cell} (hm : RamKeeps κ m)
    (hf : ∀ (y : List Host.Cell) (a : α), RamKeeps κ y → RamKeeps κ (f y a)) : RamKeeps κ (xs.foldl f m) := foldl_keeps (RamKeeps κ) xs hm hf
theorem FlashKeeps.foldl {m : List Host.Cell} {f : List Host.Cell → α → List Host.Cell} (hm : FlashKeeps κ m)
    (hf : ∀ (y : List Host.Cell) (a : α), FlashKeeps κ y → FlashKeeps κ (f y a)) : FlashKeeps κ (xs.foldl f m) :=
  foldl_keeps (FlashKeeps κ) xs hm hf
theorem SparseKeeps.foldl {β : Type} [DecidableEq β] {d : Nat → β} {m : Sparse β} {f : Sparse β → α → Sparse β} (hm : SparseKeeps κ d m)
    (hf : ∀ (y : Sparse β) (a : α), SparseKeeps κ d y → SparseKeeps κ d (f y a)) : SparseKeeps κ d (xs.foldl f m) :=
  foldl_keeps (SparseKeeps κ d) xs hm hf
theorem Lane.Keeps.foldl_fst {γ : Type} {x : Lane × γ} {f : Lane × γ → α → Lane × γ} (hk : x.1.Keeps κ)
    (hf : ∀ (y : Lane × γ) (a : α), y.1.Keeps κ → (f y a).1.Keeps κ) : (xs.foldl f x).1.Keeps κ :=
  foldl_keeps (fun y : Lane × γ => y.1.Keeps κ) xs hk hf
theorem Hub.Keeps.foldl_fst {γ : Type} {x : Hub × γ} {f : Hub × γ → α → Hub × γ} (hk : x.1.Keeps κ)
    (hf : ∀ (y : Hub × γ) (a : α), y.1.Keeps κ → (f y a).1.Keeps κ) : (xs.foldl f x).1.Keeps κ :=
  foldl_keeps (fun y : Hub × γ => y.1.Keeps κ) xs hk hf
end

/-! ### The module's named updates -/

theorem State.Keeps.setLane {s : State} {l : LaneId} {x : Lane} (hk : s.Keeps κ) (hx : x.Keeps κ) : (s.setLane l x).Keeps κ := by
  obtain ⟨hf, hq, hn, ha, hb, hc, hr⟩ := hk
  cases l
  exacts [⟨hf, hq, hn, hx, hb, hc, hr⟩, ⟨hf, hq, hn, ha, hx, hc, hr⟩, ⟨hf, hq, hn, ha, hb, hx, hr⟩]

theorem State.Keeps.modLane {s : State} {l : LaneId} {f : Lane → Lane} (hk : s.Keeps κ) (hf : ∀ x : Lane, x.Keeps κ → (f x).Keeps κ) :
    (s.modLane l f).Keeps κ := hk.setLane (hf _ hk.lane)

theorem State.Keeps.modHub {s : State} {f : Hub → Hub} (hk : s.Keeps κ) (hf : ∀ h : Hub, h.Keeps κ → (f h).Keeps κ) :
    (s.modHub f).Keeps κ := by
  obtain ⟨hfu, hq, hn, ha, hb, hc, hh, hr⟩ := hk
  exact ⟨hfu, hq, hn, ha, hb, hc, hf _ hh, hr⟩

theorem State.Keeps.modField {s : State} {f : FieldDie → FieldDie} (hk : s.Keeps κ) : (s.modField f).Keeps κ := hk

theorem State.Keeps.at {s : State} {t : Nat} (hk : s.Keeps κ) : (s.at t).Keeps κ :=
  ⟨hk.fuses, hk.pending, le_trans hk.now (le_max_left _ _), hk.la, hk.lb, hk.lc, hk.hub, hk.flash0, hk.flash1⟩

theorem Lane.Keeps.setRg {x : Lane} {a : Nat} {v : Word} (hk : x.Keeps κ) : (x.setRg a v).Keeps κ := ⟨hk.reg.set, hk.2⟩
theorem Hub.Keeps.setRg {h : Hub} {a : Nat} {v : Word} (hk : h.Keeps κ) : (h.setRg a v).Keeps κ := ⟨hk.reg.set, hk.2⟩

theorem Hub.Keeps.modMbx {h : Hub} {l : LaneId} {f : Mailbox → Mailbox} (hk : h.Keeps κ) (hf : ∀ m : Mailbox, m.Keeps κ → (f m).Keeps κ) :
    (h.modMbx l f).Keeps κ := by
  obtain ⟨hr, hs, ha, hb, hc⟩ := hk
  cases l
  exacts [⟨hr, hs, hf _ ha, hb, hc⟩, ⟨hr, hs, ha, hf _ hb, hc⟩, ⟨hr, hs, ha, hb, hf _ hc⟩]

end Sys2Proof.Machine
end

section
/-! PROOFS. What every command keeps, function by function: registers, the host interface, flash, the gateway, rings and the write gate. -/

namespace Sys2Proof.Machine

variable {κ : Charter}

/-! ### Parts of pairs, and the values of a reset -/

theorem Lane.Keeps.of_fst {α : Type} {p : Lane × α} {x : Lane} {a : α} (hk : p.1.Keeps κ) (heq : p = (x, a)) : x.Keeps κ := by
  rw [heq] at hk
  exact hk

theorem Lane.Keeps.laneReset {l : LaneId} : (Machine.laneReset l).Keeps κ := ⟨fun _ => by cases l <;> decide, .nil, .nil, .nil, .nil, .nil⟩

theorem Hub.Keeps.hubReset : Machine.hubReset.Keeps κ := ⟨fun _ => by decide, .nil, .nil, .nil, .nil⟩

/-! ### Registers, notes and the bus -/

theorem Lane.Keeps.fset {l : Lane} {f v} (hk : l.Keeps κ) : (l.fset f v).Keeps κ := hk.setRg

theorem Lane.Keeps.fsat {l : Lane} {f n} (hk : l.Keeps κ) : (l.fsat f n).Keeps κ := hk.fset

theorem Hub.Keeps.fset {h : Hub} {f v} (hk : h.Keeps κ) : (h.fset f v).Keeps κ := hk.setRg

theorem Hub.Keeps.fsat {h : Hub} {f n} (hk : h.Keeps κ) : (h.fsat f n).Keeps κ := hk.fset

theorem Lane.Keeps.plainWrite {l : Lane} {a v} (hk : l.Keeps κ) : (l.plainWrite a v).Keeps κ := by
  unfold Lane.plainWrite
  split
  exacts [hk.setRg, hk]

theorem Hub.Keeps.plainWrite {h : Hub} {a v} (hk : h.Keeps κ) : (h.plainWrite a v).Keeps κ := by
  unfold Hub.plainWrite
  split
  exacts [hk.setRg, hk]

theorem Lane.Keeps.at {l : Lane} {t} (hk : l.Keeps κ) : (l.at t).Keeps κ := hk

theorem State.Keeps.laneAt {s : State} {l t} (hk : s.Keeps κ) : (s.laneAt l t).Keeps κ := hk.at.modLane fun _ hx => hx.at

theorem State.Keeps.busErr {s : State} (hk : s.Keeps κ) : s.busErr.Keeps κ := hk

theorem State.Keeps.busData {s : State} {w} (hk : s.Keeps κ) : (s.busData w).Keeps κ := hk

theorem State.Keeps.busOk {s : State} (hk : s.Keeps κ) : s.busOk.Keeps κ := hk

theorem State.Keeps.draw {s : State} (hk : s.Keeps κ) : s.draw.2.Keeps κ := hk

theorem Lane.Keeps.setInset {l : Lane} {ls} (hk : l.Keeps κ) : (l.setInset ls).Keeps κ := hk.fset

theorem Lane.Keeps.raise {l : Lane} {n} (hk : l.Keeps κ) : (l.raise n).Keeps κ := hk.setRg

theorem Lane.Keeps.voteFlag {l : Lane} {f} (hk : l.Keeps κ) : (l.voteFlag f).Keeps κ := hk.fset.raise

theorem Hub.Keeps.submit {h : Hub} {x} (hk : h.Keeps κ) : (h.submit x).Keeps κ := by
  unfold Hub.submit
  split
  · exact hk
  split
  exacts [hk, hk.fsat]

theorem State.Keeps.recLane {s : State} {l blk cls rule data} (hk : s.Keeps κ) : (s.recLane l blk cls rule data).Keeps κ :=
  hk.modHub fun _ hx => hx.submit

theorem Lane.Keeps.note {l : Lane} {blk cls rule data} (hk : l.Keeps κ) : (l.note blk cls rule data).Keeps κ := hk

theorem State.Keeps.flushNotes {s : State} {l} (hk : s.Keeps κ) : (s.flushNotes l).Keeps κ :=
  State.Keeps.modLane (hk.foldl fun _ _ hx => hx.recLane) fun _ hx => hx

theorem State.Keeps.upLane {s : State} {l f} (hk : s.Keeps κ) (hf : ∀ y : Lane, y.Keeps κ → (f y).Keeps κ) : (s.upLane l f).Keeps κ := by
  unfold State.upLane
  split
  exacts [hk, State.Keeps.flushNotes (hk.modLane fun _ hx => hf _ hx)]

theorem State.Keeps.recHub {s : State} {blk cls rule data} (hk : s.Keeps κ) : (s.recHub blk cls rule data).Keeps κ := hk.modHub fun _ hx => hx.submit

theorem State.Keeps.faultPin {s : State} {k v} (hk : s.Keeps κ) : (s.faultPin k v).Keeps κ := by
  unfold State.faultPin
  extract_lets +onlyGivenNames w n src
  have hsrc : src.Keeps κ := hk.hub
  extract_lets +onlyGivenNames src₁ y
  have hy : y.Keeps κ := by
    unfold y
    split
    exacts [hsrc, hk.hub]
  exact ⟨hk.fuses, hk.pending, hk.now, hk.la, hk.lb, hk.lc, hy.fset, hk.flash0, hk.flash1⟩

theorem Lane.Keeps.stopDyn {l : Lane} (hk : l.Keeps κ) : l.stopDyn.Keeps κ := hk.fset

theorem Lane.Keeps.sendNotice {l : Lane} {easy code} (hk : l.Keeps κ) : (l.sendNotice easy code).Keeps κ := hk

theorem Lane.Keeps.leaveNow {l : Lane} {reason ctx seg due cause} (hk : l.Keeps κ) : (l.leaveNow reason ctx seg due cause).Keeps κ := by
  unfold Lane.leaveNow
  extract_lets +onlyGivenNames l₁
  have hl₁ : l₁.Keeps κ := hk.stopDyn.fset.fset.sendNotice
  extract_lets +onlyGivenNames l₂
  have hl₂ : l₂.Keeps κ := hl₁.fset.setInset
  extract_lets +onlyGivenNames l₃
  have hl₃ : l₃.Keeps κ := hl₂.fset.fset.fset
  extract_lets +onlyGivenNames l₄
  have hl₄ : l₄.Keeps κ := hl₃.fsat.raise
  extract_lets +onlyGivenNames l₅
  have hl₅ : l₅.Keeps κ := by
    unfold l₅
    split
    exacts [hl₄.fset, hl₄]
  exact hl₅

theorem Lane.Keeps.abandonReadm {l : Lane} {r} (hk : l.Keeps κ) : (l.abandonReadm r).Keeps κ := by
  unfold Lane.abandonReadm
  split
  · exact hk
  extract_lets +onlyGivenNames n l₁
  have hl₁ : l₁.Keeps κ := hk.fset.fset.fset
  extract_lets +onlyGivenNames l₂
  have hl₂ : l₂.Keeps κ := by
    unfold l₂
    split
    exacts [hl₁.fset, hl₁]
  extract_lets +onlyGivenNames l₃
  have hl₃ : l₃.Keeps κ := by
    unfold l₃
    split
    exacts [hl₂, hl₂.fset]
  exact hl₃

theorem Lane.Keeps.enterEasy {l : Lane} {split cause peer} (hk : l.Keeps κ) : (l.enterEasy split cause peer).Keeps κ := by
  unfold Lane.enterEasy
  split
  · exact hk
  extract_lets +onlyGivenNames surv served l₁
  have hl₁ : l₁.Keeps κ := hk.abandonReadm.stopDyn.sendNotice
  clear_value l₁
  extract_lets +onlyGivenNames l₂
  have hl₂ : l₂.Keeps κ := hl₁.fset.fset.fset
  clear_value l₂
  extract_lets +onlyGivenNames l₃
  have hl₃ : l₃.Keeps κ := hl₂.fset
  clear_value l₃
  extract_lets +onlyGivenNames l₄
  have hl₄ : l₄.Keeps κ := hl₃.fset.fset.raise
  clear_value l₄
  extract_lets +onlyGivenNames l₅
  have hl₅ : l₅.Keeps κ := hl₄.fset
  clear_value l₅
  extract_lets +onlyGivenNames openC
  exact ⟨hl₅.reg, hl₅.sram, hl₅.cells, hl₅.ard, hl₅.rstat, hl₅.pstore⟩

theorem State.Keeps.markEasy {s : State} (hk : s.Keeps κ) : s.markEasy.Keeps κ := hk

theorem State.Keeps.enterEasy {s : State} {l cause peer} (hk : s.Keeps κ) : (s.enterEasy l cause peer).Keeps κ := by
  unfold State.enterEasy
  split
  exacts [State.Keeps.markEasy (hk.modLane fun _ hx => hx.enterEasy), hk]

theorem State.Keeps.noVoters {s : State} {l reason} (hk : s.Keeps κ) : (s.noVoters l reason).Keeps κ := by
  unfold State.noVoters
  split
  · exact hk
  extract_lets +onlyGivenNames cause
  exact State.Keeps.markEasy (hk.foldl fun _ _ hx => hx.enterEasy)

theorem State.Keeps.leave {s : State} {l reason ctx seg due cause} (hk : s.Keeps κ) : (s.leave l reason ctx seg due cause).Keeps κ := by
  unfold State.leave
  extract_lets +onlyGivenNames x
  have hx : x.Keeps κ := hk.lane
  split
  · split
    exacts [hk.setLane hx.fset, hk]
  split
  · extract_lets +onlyGivenNames s₁
    have hs₁ : s₁.Keeps κ := (hk.setLane hx.leaveNow).recLane
    exact hs₁.noVoters
  · exact hk

theorem State.Keeps.leaveAtOnce {s : State} {l reason cause} (hk : s.Keeps κ) : (s.leaveAtOnce l reason cause).Keeps κ := hk.leave

theorem Lane.Keeps.busTrap {l : Lane} {split write a} (hk : l.Keeps κ) : (l.busTrap split write a).Keeps κ := by
  unfold Lane.busTrap
  extract_lets +onlyGivenNames code l₁
  have hl₁ : l₁.Keeps κ := hk
  split
  exacts [hl₁, hl₁]

theorem State.Keeps.trapOnError {s : State} {l a write} (hk : s.Keeps κ) : (s.trapOnError l a write).Keeps κ := by
  unfold State.trapOnError
  split
  exacts [hk.modLane fun _ hx => hx.busTrap, hk]

theorem Lane.Keeps.corrected {l : Lane} {a} (hk : l.Keeps κ) : (l.corrected a).Keeps κ := hk.fsat.fset.setRg

theorem State.Keeps.laneUncorrectable {s : State} {l a} (hk : s.Keeps κ) : (s.laneUncorrectable l a).Keeps κ :=
  State.Keeps.leaveAtOnce (hk.modLane fun _ hx => hx.fset.setRg)

theorem State.Keeps.laneRead {s : State} {l a nerr w} (hk : s.Keeps κ) : (s.laneRead l a nerr w).Keeps κ := by
  unfold State.laneRead
  split
  · exact hk.busErr
  split
  · exact hk.busData
  split
  exacts [State.Keeps.busData (hk.modLane fun _ hx => hx.corrected), hk.laneUncorrectable.busErr]

theorem Lane.Keeps.modTask {l : Lane} {tnum f} (hk : l.Keeps κ) : (l.modTask tnum f).Keeps κ := by
  unfold Lane.modTask
  split
  exacts [hk, hk]

theorem Lane.Keeps.modCtx {l : Lane} {c f} (hk : l.Keeps κ) : (l.modCtx c f).Keeps κ := hk

theorem Lane.Keeps.putVars {l : Lane} {vs} (hk : l.Keeps κ) : (l.putVars vs).Keeps κ :=
  ⟨hk.reg, hk.sram.foldl fun _ _ hx => hx.putBytes, hk.cells, hk.ard, hk.rstat, hk.pstore⟩

theorem Lane.Keeps.modLink {l : Lane} {k f} (hk : l.Keeps κ) : (l.modLink k f).Keeps κ := by
  unfold Lane.modLink
  split
  exacts [hk, hk]

/-! ### The host interface -/

theorem Hub.Keeps.setCmd {h : Hub} {c} (hk : h.Keeps κ) : (h.setCmd c).Keeps κ := by
  unfold Hub.setCmd
  extract_lets +onlyGivenNames rest
  exact hk

theorem Hub.Keeps.countQueues {h : Hub} (hk : h.Keeps κ) : h.countQueues.Keeps κ := hk.foldl fun _ _ hx => hx.fset.fset

theorem Hub.Keeps.vector {h : Hub} {k} (hk : h.Keeps κ) : (h.vector k).Keeps κ := hk

theorem Hub.Keeps.hostFlag {h : Hub} {f v} (hk : h.Keeps κ) : (h.hostFlag f v).Keeps κ := by
  unfold Hub.hostFlag
  extract_lets +onlyGivenNames y
  have hy : y.Keeps κ := hk.fset
  split
  exacts [hy.vector, hy]

theorem Hub.Keeps.poison {h : Hub} {q cls v} (hk : h.Keeps κ) : (h.poison q cls v).Keeps κ := by
  unfold Hub.poison
  split
  exacts [hk, hk.setRg]

theorem Hub.Keeps.post {h : Hub} {c} (hk : h.Keeps κ) : (h.post c).Keeps κ := by
  unfold Hub.post
  extract_lets +onlyGivenNames w ph
  split
  · exact ⟨hk.reg, hk.sram, hk.mbxA, hk.mbxB, hk.mbxC⟩
  split
  · exact hk
  extract_lets +onlyGivenNames data mem
  have hmem : RamKeeps κ mem := by
    unfold mem
    split
    exacts [hk.sram.putBytes, hk.sram]
  extract_lets +onlyGivenNames mem₁
  have hmem₁ : RamKeeps κ mem₁ := hmem.putBytes
  extract_lets +onlyGivenNames phs src y
  have hy : y.Keeps κ := ⟨hk.reg, hmem₁, hk.mbxA, hk.mbxB, hk.mbxC⟩
  extract_lets +onlyGivenNames y₁
  have hy₁ : y₁.Keeps κ := by
    unfold y₁
    split
    exacts [hy.poison, hy]
  extract_lets +onlyGivenNames y₂
  have hy₂ : y₂.Keeps κ := hy₁.setCmd
  refine Hub.Keeps.countQueues ?_
  split
  exacts [hy₂, hy₂.vector]

theorem Hub.Keeps.endCmd {h : Hub} {c st detail result dout} (hk : h.Keeps κ) : (h.endCmd c st detail result dout).Keeps κ := hk.setCmd.countQueues

theorem State.Keeps.endRef {s : State} {r st detail result dout} (hk : s.Keeps κ) : (s.endRef r st detail result dout).Keeps κ := by
  unfold State.endRef
  split
  exacts [hk.modHub fun _ hx => hx.endCmd, hk]

theorem State.Keeps.endWith {s : State} {r st detail} (hk : s.Keeps κ) : (s.endWith r st detail).Keeps κ := hk.endRef

theorem State.Keeps.hCmd {s : State} {r op f} (hk : s.Keeps κ) (hf : ∀ y : State, y.Keeps κ → (f y).Keeps κ) : (s.hCmd r op f).Keeps κ := by
  unfold State.hCmd
  split
  exacts [hf _ hk, hk]

theorem Hub.Keeps.accept {h : Hub} {q slot t} (hk : h.Keeps κ) : (h.accept q slot t).Keeps κ := by
  unfold Hub.accept
  extract_lets +onlyGivenNames src y
  have hy : y.Keeps κ := hk
  exact hy.setCmd.countQueues

theorem Hub.Keeps.doorbell {h : Hub} {q slot t} (hk : h.Keeps κ) : (h.doorbell q slot t).Keeps κ := by
  unfold Hub.doorbell
  split
  · exact hk
  extract_lets +onlyGivenNames hdr gen fresh
  have hfresh : fresh.Keeps κ := by
    unfold fresh
    split
    exacts [hk.hostFlag, hk.accept]
  split
  · exact hfresh
  split
  · split
    · exact hk.hostFlag
    extract_lets +onlyGivenNames c₁
    split
    exacts [hk.post, hk.setCmd.countQueues]
  split
  exacts [hfresh, hk.hostFlag]

theorem Hub.Keeps.quietQueue {h : Hub} {q} (hk : h.Keeps κ) : (h.quietQueue q).Keeps κ := by
  unfold Hub.quietQueue
  split
  exacts [hk, hk]

theorem Hub.Keeps.headWrite {h : Hub} {q v} (hk : h.Keeps κ) : (h.headWrite q v).Keeps κ := by
  unfold Hub.headWrite
  split
  · exact hk
  extract_lets +onlyGivenNames head w dist
  split
  · exact hk.hostFlag
  extract_lets +onlyGivenNames free
  exact Hub.Keeps.countQueues (Hub.Keeps.quietQueue hk.fset)

theorem Hub.Keeps.take {h : Hub} {c t} (hk : h.Keeps κ) : (h.take c t).Keeps κ := by
  unfold Hub.take
  extract_lets +onlyGivenNames src y
  have hy : y.Keeps κ := hk
  split
  · exact hy.endCmd
  split
  · exact hy.endCmd
  split
  · exact hy.endCmd
  split
  exacts [hy.endCmd, hy.setCmd.countQueues]

theorem Hub.Keeps.dispatch {h : Hub} {t} (hk : h.Keeps κ) : (h.dispatch t).Keeps κ := by
  unfold Hub.dispatch
  split
  · exact hk
  split
  exacts [hk.take, hk]

theorem State.Keeps.commitDesc {s t : State} {op : Nat} {args : List Nat} {data : List Byte} {seq : Word} (hk : s.Keeps κ)
    (heq : s.commitDesc op args data = some (seq, t)) : t.Keeps κ := by
  unfold State.commitDesc at heq
  dsimp only at heq
  split at heq
  · cases heq
  · cases heq
    exact hk.modHub fun _ hx => Hub.Keeps.foldl hx.setRg fun _ _ hy => hy.modMbx fun _ hm => hm

theorem State.Keeps.toLanes {s : State} {r op args data} (hk : s.Keeps κ) : (s.toLanes r op args data).Keeps κ := by
  unfold State.toLanes
  split
  · exact hk
  split
  · exact hk
  split
  · exact hk.endWith
  split
  exacts [hk, (hk.commitDesc ‹_›).modHub fun _ hx => hx.setCmd]

theorem State.Keeps.collectResults {s : State} (hk : s.Keeps κ) : s.collectResults.Keeps κ := by
  unfold State.collectResults
  split
  · exact hk
  refine hk.foldl fun _ _ hx => ?_
  split
  · split
    · split
      exacts [hx.modHub fun _ hx1 => hx1.endCmd, hx]
    · exact hx
  · exact hx

theorem State.Keeps.complete {s : State} {r} (hk : s.Keeps κ) : (s.complete r).Keeps κ := by
  unfold State.complete
  split
  · exact hk
  extract_lets +onlyGivenNames s1
  have hs1 : s1.Keeps κ := by
    unfold s1
    split
    · split
      · split
        exacts [hk.modHub fun _ hx => hx.endCmd, hk]
      split
      · split
        exacts [hk.modHub fun _ hx => hx.endCmd, hk]
      · exact hk
    · exact hk
  split
  exacts [hs1.modHub fun _ hx => hx.post, hs1]

theorem State.Keeps.retryExhausted {s : State} {r t} (hk : s.Keeps κ) : (s.retryExhausted r t).Keeps κ := by
  unfold State.retryExhausted
  split
  · split
    exacts [hk.modHub fun _ hx => hx.endCmd, hk]
  · exact hk

/-! ### Flash, the boot pointer and the journal -/

theorem FlashKeeps.sectorAppend {m : List Host.Cell} {base : Nat} {e : List Byte} (hm : FlashKeeps κ m) :
    FlashKeeps κ (sectorAppend m base e) := by
  unfold Machine.sectorAppend
  extract_lets n
  split
  exacts [hm.putBytes, hm.erase.putBytes]

theorem FlashKeeps.twoCopyWrite {g : TwoCopy} {m : List Host.Cell} {f : Nat → List Byte} (hm : FlashKeeps κ m) :
    FlashKeeps κ (g.write m f) := by
  unfold TwoCopy.write
  extract_lets +onlyGivenNames sa sb to0 m' other
  have hm' : FlashKeeps κ m' := hm.sectorAppend
  split
  exacts [hm'.erase, hm']

theorem FlashKeeps.writeClaim {m : List Host.Cell} {c : Word} {serial : Dword} (hm : FlashKeeps κ m) :
    FlashKeeps κ (writeClaim m c serial) := hm.twoCopyWrite

theorem Hub.Keeps.showPointer {h : Hub} {p} (hk : h.Keeps κ) : (h.showPointer p).Keeps κ := hk.fset.fset.fset.fset

theorem State.Keeps.writePointer {s : State} {p : BootPtr} (hk : s.Keeps κ) : (s.writePointer p).Keeps κ := by
  unfold State.writePointer
  have hh := hk.hub.showPointer (p := p)
  have hw : FlashKeeps κ (pointerLog.write s.flash1 fun q => beBytes 4 q ++ pointerTail p) := hk.flash1.twoCopyWrite
  split
  exacts [hk, ⟨hk.fuses, hk.pending, hk.now, hk.la, hk.lb, hk.lc, hh, hk.flash0, hw⟩]

theorem State.Keeps.jPut {s : State} {ty data} (hk : s.Keeps κ) : (s.jPut ty data).Keeps κ := by
  unfold State.jPut
  extract_lets +onlyGivenNames u q e n
  exact ⟨hk.fuses, hk.pending, hk.now, hk.la, hk.lb, hk.lc, hk.hub, hk.flash0, hk.flash1.putBytes⟩

theorem State.Keeps.jAppend {s : State} {ty data} (hk : s.Keeps κ) : (s.jAppend ty data).Keeps κ := by
  unfold State.jAppend
  split
  · exact hk
  extract_lets +onlyGivenNames s₁
  have hs₁ : s₁.Keeps κ := hk.jPut
  clear_value s₁
  extract_lets +onlyGivenNames n
  split
  · extract_lets +onlyGivenNames next keep s₂
    have hs₂ : s₂.Keeps κ := hs₁.foldl fun _ _ hx => hx.jPut
    clear_value s₂
    exact ⟨hs₂.fuses, hs₂.pending, hs₂.now, hs₂.la, hs₂.lb, hs₂.lc, hs₂.hub, hs₂.flash0, hs₂.flash1.erase⟩
  · exact hs₁

theorem FlashKeeps.programBlocks {m : List Host.Cell} {k : Nat} {bs : List (Nat × List Byte)} (hm : FlashKeeps κ m) :
    FlashKeeps κ (programBlocks m k bs) := hm.foldl fun _ _ hx => hx.erase.putBytes

theorem Hub.Keeps.showEnergy {h : Hub} (hk : h.Keeps κ) : h.showEnergy.Keeps κ := hk.fset.fset

theorem State.Keeps.commitArea {s : State} {area fmt bytes} (hk : s.Keeps κ) : (s.commitArea area fmt bytes).Keeps κ := by
  unfold State.commitArea
  extract_lets +onlyGivenNames m crc q s₁
  have hs₁ : s₁.Keeps κ := State.Keeps.jAppend ⟨hk.fuses, hk.pending, hk.now, hk.la, hk.lb, hk.lc, hk.hub, hk.flash0, hk.flash1.erase.putBytes⟩
  exact hs₁.modHub fun _ hx => hx

/-! ### Frames of the hub -/

theorem Hub.Keeps.sendFrame {h : Hub} {ty content put} (hk : h.Keeps κ) : (h.sendFrame ty content put).Keeps κ := by
  unfold Hub.sendFrame
  split
  exacts [hk, hk]

/-! ### The safety gateway -/

theorem Hub.Keeps.sgwLoad {h : Hub} {word} (hk : h.Keeps κ) : (h.sgwLoad word).Keeps κ := by
  unfold Hub.sgwLoad
  extract_lets +onlyGivenNames entry dest es ds fail
  have hfail : ∀ (kind : ℕ) (x : ℕ × ℕ), (fail kind x).Keeps κ := by
    intro kind x
    unfold fail
    extract_lets +onlyGivenNames y
    have hy : y.Keeps κ := hk.fset.fset.fset
    clear_value y
    extract_lets +onlyGivenNames src
    have hsrc : src.Keeps κ := hy.fset.fset
    clear_value src
    exact ⟨hsrc.reg, hsrc.sram, hsrc.mbxA, hsrc.mbxB, hsrc.mbxC⟩
  split
  · exact hfail _ _
  split
  · exact hfail _ _
  extract_lets +onlyGivenNames src
  have hsrc : src.Keeps κ := hk.fset
  clear_value src
  exact ⟨hsrc.reg, hsrc.sram, hsrc.mbxA, hsrc.mbxB, hsrc.mbxC⟩

theorem Hub.Keeps.sgwLoadWrite {h : Hub} (hk : h.Keeps κ) : h.sgwLoadWrite.Keeps κ := by
  unfold Hub.sgwLoadWrite
  split
  exacts [hk.fset, hk.sgwLoad]

theorem Hub.Keeps.sgwLoadSection {h : Hub} {area} (hk : h.Keeps κ) : (h.sgwLoadSection area).Keeps κ := by
  unfold Hub.sgwLoadSection
  extract_lets +onlyGivenNames bs
  exact hk.sgwLoad

theorem Hub.Keeps.modDest {h : Hub} {d f} (hk : h.Keeps κ) : (h.modDest d f).Keeps κ := hk

theorem Hub.Keeps.sgwTake {h : Hub} {i e payload t} (hk : h.Keeps κ) : (h.sgwTake i e payload t).Keeps κ := by
  unfold Hub.sgwTake
  split
  · exact hk
  split
  · exact hk.fsat
  extract_lets +onlyGivenNames y
  have hy : y.Keeps κ := by
    unfold y
    split
    exacts [hk.fsat, hk]
  extract_lets +onlyGivenNames src y₁
  have hy₁ : y₁.Keeps κ := hy
  extract_lets +onlyGivenNames m
  exact hy₁.modDest

theorem Hub.Keeps.sgwSource {h : Hub} {names payload t} (hk : h.Keeps κ) : (h.sgwSource names payload t).Keeps κ := by
  unfold Hub.sgwSource
  split
  exacts [hk, hk.foldl fun _ _ hx => hx.sgwTake]

theorem Hub.Keeps.sgwTelegram {h : Hub} {kind conn bytes t} (hk : h.Keeps κ) : (h.sgwTelegram kind conn bytes t).Keeps κ := by
  unfold Hub.sgwTelegram
  split
  exacts [hk.sgwSource, hk]

theorem Hub.Keeps.canState {h : Hub} {port tec rec} (hk : h.Keeps κ) : (h.canState port tec rec).Keeps κ := by
  unfold Hub.canState
  extract_lets +onlyGivenNames y
  have hy : y.Keeps κ := hk.fset.fset
  split
  exacts [hy.fset.fsat, hy.fset]

theorem Hub.Keeps.canHeard {h : Hub} {port err} (hk : h.Keeps κ) : (h.canHeard port err).Keeps κ := by
  unfold Hub.canHeard
  extract_lets +onlyGivenNames r
  exact hk.canState

theorem Hub.Keeps.canTold {h : Hub} {port err} (hk : h.Keeps κ) : (h.canTold port err).Keeps κ := by
  unfold Hub.canTold
  extract_lets +onlyGivenNames n
  exact hk.canState

theorem Hub.Keeps.canFrame {h : Hub} {port ide ident remote data err t} (hk : h.Keeps κ) : (h.canFrame port ide ident remote data err t).Keeps κ := by
  unfold Hub.canFrame
  extract_lets +onlyGivenNames mapped
  split
  · exact hk
  extract_lets +onlyGivenNames y
  have hy : y.Keeps κ := hk.canHeard
  split
  · exact hy
  split
  exacts [hy.sgwSource, hy.fsat]

theorem Hub.Keeps.destSend {h : Hub} {d t} (hk : h.Keeps κ) : (h.destSend d t).Keeps κ := by
  unfold Hub.destSend
  split
  · exact hk
  extract_lets +onlyGivenNames x₁
  split
  · extract_lets +onlyGivenNames m
    exact hk.modDest
  · exact hk

theorem Hub.Keeps.destSilent {h : Hub} {d t} (hk : h.Keeps κ) : (h.destSilent d t).Keeps κ := by
  unfold Hub.destSilent
  split
  · exact hk
  extract_lets +onlyGivenNames tmo
  split
  exacts [hk.modDest, hk]

theorem Hub.Keeps.canSent {h : Hub} {port err} (hk : h.Keeps κ) : (h.canSent port err).Keeps κ := by
  unfold Hub.canSent
  split
  · exact hk
  extract_lets +onlyGivenNames ws
  split
  · split
    exacts [hk.canTold, hk.canTold.modDest]
  · exact hk

theorem Hub.Keeps.busOffRecovery {h : Hub} {port} (hk : h.Keeps κ) : (h.busOffRecovery port).Keeps κ := by
  unfold Hub.busOffRecovery
  split
  exacts [hk.fset.fset.fset, hk]

theorem State.Keeps.upHub {s : State} {f} (hk : s.Keeps κ) (hf : ∀ y : Hub, y.Keeps κ → (f y).Keeps κ) : (s.upHub f).Keeps κ := by
  unfold State.upHub
  split
  exacts [hk, hk.modHub fun _ hx => hf _ hx]

/-! ### The hub carries telegrams -/

theorem Hub.Keeps.intoMailboxes {h : Hub} {g} (hk : h.Keeps κ) : (h.intoMailboxes g).Keeps κ := hk.foldl fun _ _ hx => hx.modMbx fun _ hx1 => hx1

theorem Hub.Keeps.deliver {h : Hub} {conn bytes t} (hk : h.Keeps κ) : (h.deliver conn bytes t).Keeps κ := by
  unfold Hub.deliver
  extract_lets +onlyGivenNames g
  split
  · exact hk
  split
  · split
    exacts [hk, hk]
  · exact hk.intoMailboxes

theorem Hub.Keeps.received {h : Hub} {conn bytes t} (hk : h.Keeps κ) : (h.received conn bytes t).Keeps κ := hk.sgwTelegram.deliver

theorem State.Keeps.discardUnread {s : State} (hk : s.Keeps κ) : s.discardUnread.Keeps κ := by
  unfold State.discardUnread
  refine hk.foldl fun _ _ hx => ?_
  split
  exacts [hx.modHub fun _ hx1 => hx1.modMbx fun _ hx2 => hx2, hx]

theorem State.Keeps.carry {s : State} {f} (hk : s.Keeps κ) (hf : ∀ y : Hub, y.Keeps κ → (f y).Keeps κ) : (s.carry f).Keeps κ := by
  unfold State.carry
  split
  exacts [hk, State.Keeps.discardUnread (hk.modHub fun _ hx => hf _ hx)]

theorem Hub.Keeps.assembled {h : Hub} {conn bytes fin t} (hk : h.Keeps κ) : (h.assembled conn bytes fin t).Keeps κ := by
  unfold Hub.assembled
  extract_lets +onlyGivenNames y
  have hy : y.Keeps κ := hk.sgwTelegram
  extract_lets +onlyGivenNames a y₁
  have hy₁ : y₁.Keeps κ := hy
  extract_lets +onlyGivenNames d
  split
  · exact hy₁.sendFrame
  split
  · exact hy₁
  split
  exacts [hy₁, hy₁]

theorem Hub.Keeps.assemble {h : Hub} {t} (hk : h.Keeps κ) : (h.assemble t).Keeps κ := by
  unfold Hub.assemble
  split
  · exact hk
  extract_lets +onlyGivenNames due y
  have hy : y.Keeps κ := by
    unfold y
    refine hk.foldl fun _ _ hx => ?_
    split
    exacts [hx.assembled, hx]
  exact hy.foldl fun _ _ hx => hx.modMbx fun _ hx1 => hx1

theorem Hub.Keeps.ethernetFrame {h : Hub} {port bs t} (hk : h.Keeps κ) : (h.ethernetFrame port bs t).Keeps κ := by
  unfold Hub.ethernetFrame
  split
  · exact hk
  split
  · exact hk
  split
  exacts [hk.received, hk]

/-! ### Rings -/

theorem Hub.Keeps.recAt {h : Hub} {t blk cls rule data} (hk : h.Keeps κ) : (h.recAt t blk cls rule data).Keeps κ := hk.submit

theorem Hub.Keeps.modRing {h : Hub} {k f} (hk : h.Keeps κ) : (h.modRing k f).Keeps κ := hk

theorem Hub.Keeps.ratingCheck {h : Hub} (hk : h.Keeps κ) : h.ratingCheck.Keeps κ := hk.fset

theorem Hub.Keeps.ratingCheckDone {h : Hub} (hk : h.Keeps κ) : h.ratingCheckDone.Keeps κ := by
  unfold Hub.ratingCheckDone
  split
  · extract_lets +onlyGivenNames v
    exact hk.fset.fset
  · exact hk

theorem Hub.Keeps.setRstate {h : Hub} {k v} (hk : h.Keeps κ) : (h.setRstate k v).Keeps κ := hk.fset

theorem Hub.Keeps.setPresent {h : Hub} {k n v t} (hk : h.Keeps κ) : (h.setPresent k n v t).Keeps κ := hk.fset.recAt

theorem Hub.Keeps.chgAbn {h : Hub} {k r} (hk : h.Keeps κ) : (h.chgAbn k r).Keeps κ := hk.fset.fset

theorem Hub.Keeps.annBegin {h : Hub} {k rating unwrap} (hk : h.Keeps κ) : (h.annBegin k rating unwrap).Keeps κ := by
  unfold Hub.annBegin
  extract_lets +onlyGivenNames target y
  have hy : y.Keeps κ := hk.setRg.setRg.fset
  exact hy.modRing

theorem Hub.Keeps.unwrapAnnounce {h : Hub} {k} (hk : h.Keeps κ) : (h.unwrapAnnounce k).Keeps κ := by
  unfold Hub.unwrapAnnounce
  extract_lets +onlyGivenNames r
  split
  · split
    · split
      exacts [hk, hk.modRing]
    · exact hk.annBegin
  · exact hk

theorem Hub.Keeps.annEnd {h : Hub} {k} (hk : h.Keeps κ) : (h.annEnd k).Keeps κ := by
  unfold Hub.annEnd
  extract_lets +onlyGivenNames wait y
  have hy : y.Keeps κ := hk.fset.modRing
  split
  exacts [hy.unwrapAnnounce, hy]

theorem Hub.Keeps.annAbandon {h : Hub} {k reason} (hk : h.Keeps κ) : (h.annAbandon k reason).Keeps κ := by
  unfold Hub.annAbandon
  split
  exacts [hk.chgAbn.annEnd, hk]

theorem Hub.Keeps.ringAnnounce {h : Hub} {k rating} (hk : h.Keeps κ) : (h.ringAnnounce k rating).Keeps κ := by
  unfold Hub.ringAnnounce
  split
  · exact hk
  split
  · exact hk.chgAbn
  split
  exacts [hk.chgAbn, hk.annBegin]

theorem Hub.Keeps.unwrapped {h : Hub} {k} (hk : h.Keeps κ) : (h.unwrapped k).Keeps κ := by
  unfold Hub.unwrapped
  extract_lets +onlyGivenNames y
  have hy : y.Keeps κ := hk.fset.fset.setRg
  exact hy.modRing

theorem Hub.Keeps.annDecide {h : Hub} {k} (hk : h.Keeps κ) : (h.annDecide k).Keeps κ := by
  unfold Hub.annDecide
  split
  · exact hk
  split
  · split
    · extract_lets +onlyGivenNames y
      have hy : y.Keeps κ := hk.fset
      extract_lets +onlyGivenNames y₁
      have hy₁ : y₁.Keeps κ := by
        unfold y₁
        split
        exacts [hy.unwrapped, hy.fset]
      exact hy₁.annEnd
    · exact hk.annAbandon
  · exact hk

theorem Hub.Keeps.addBreak {h : Hub} {k e t} (hk : h.Keeps κ) : (h.addBreak k e t).Keeps κ := by
  unfold Hub.addBreak
  split
  · exact hk
  extract_lets +onlyGivenNames y
  have hy : y.Keeps κ := by
    unfold y
    split
    · split
      exacts [hk, hk.fset.fset.fset.fset]
    · exact hk.fset.fset.fset
  exact hy.fset.annAbandon.recAt

theorem Hub.Keeps.reportBreaks {h : Hub} {k t} (hk : h.Keeps κ) : (h.reportBreaks k t).Keeps κ := by
  unfold Hub.reportBreaks
  split
  exacts [hk.foldl fun _ _ hx => hx.addBreak, hk]

theorem Hub.Keeps.lossOfSignal {h : Hub} {k east} (hk : h.Keeps κ) : (h.lossOfSignal k east).Keeps κ := by
  unfold Hub.lossOfSignal
  split
  · exact hk
  extract_lets +onlyGivenNames y
  have hy : y.Keeps κ := hk.fset.fsat
  split
  · split
    exacts [hy.annAbandon, hy]
  · exact hy

theorem Hub.Keeps.ringWrap {h : Hub} {k east t} (hk : h.Keeps κ) : (h.ringWrap k east t).Keeps κ := by
  unfold Hub.ringWrap
  extract_lets +onlyGivenNames r
  split
  · split
    · extract_lets +onlyGivenNames y
      have hy : y.Keeps κ := hk.modRing
      exact hy.fset.annAbandon.reportBreaks
    · exact hk
  split
  · extract_lets +onlyGivenNames y
    have hy : y.Keeps κ := hk.modRing
    exact hy.fset.annAbandon.reportBreaks
  · exact hk

theorem Hub.Keeps.signalRestored {h : Hub} {k east} (hk : h.Keeps κ) : (h.signalRestored k east).Keeps κ := hk.fset

theorem Hub.Keeps.relay {h : Hub} {k east bs} (hk : h.Keeps κ) : (h.relay k east bs).Keeps κ := by
  unfold Hub.relay
  split
  exacts [hk.modRing, hk]

theorem Hub.Keeps.cycleStart {h : Hub} {k t} (hk : h.Keeps κ) : (h.cycleStart k t).Keeps κ := by
  unfold Hub.cycleStart
  extract_lets +onlyGivenNames r
  split
  · exact hk
  extract_lets +onlyGivenNames y
  have hy : y.Keeps κ := hk.annDecide
  extract_lets +onlyGivenNames rest n y₁
  have hy₁ : y₁.Keeps κ := hy.setRg
  extract_lets +onlyGivenNames y₂
  have hy₂ : y₂.Keeps κ := by
    unfold y₂
    split
    exacts [hy₁.setRg, hy₁]
  extract_lets +onlyGivenNames cyc y₃
  have hy₃ : y₃.Keeps κ := hy₂.modRing
  exact hy₃.modRing

theorem Hub.Keeps.ringListen {h : Hub} {k t} (hk : h.Keeps κ) : (h.ringListen k t).Keeps κ := hk.fset.setRstate.modRing

theorem Hub.Keeps.ringStart {h : Hub} {k t} (hk : h.Keeps κ) : (h.ringStart k t).Keeps κ := by
  unfold Hub.ringStart
  split
  exacts [hk.ringListen, hk.fset.setRstate.modRing]

theorem Hub.Keeps.ringEnable {h : Hub} {k v t} (hk : h.Keeps κ) : (h.ringEnable k v t).Keeps κ := by
  unfold Hub.ringEnable
  split
  · exact hk
  extract_lets +onlyGivenNames y
  have hy : y.Keeps κ := hk.setRg
  extract_lets +onlyGivenNames role
  split
  exacts [hy.fset.ringStart, hy]

theorem Hub.Keeps.listenTimeout {h : Hub} {k t} (hk : h.Keeps κ) : (h.listenTimeout k t).Keeps κ := by
  unfold Hub.listenTimeout
  extract_lets +onlyGivenNames r
  split
  · extract_lets +onlyGivenNames y
    have hy : y.Keeps κ := hk.setRstate.setRg
    exact hy.modRing
  · exact hk

theorem Hub.Keeps.ringRestart {h : Hub} {k t} (hk : h.Keeps κ) : (h.ringRestart k t).Keeps κ := by
  unfold Hub.ringRestart
  split
  exacts [hk.fset.ringStart, hk]

theorem Hub.Keeps.ringsRestart {h : Hub} {t} (hk : h.Keeps κ) : (h.ringsRestart t).Keeps κ := by
  unfold Hub.ringsRestart
  refine hk.foldl fun _ _ hx => ?_
  split
  exacts [hx.annAbandon.ringStart, hx]

theorem Hub.Keeps.ringTake {h : Hub} {k t} (hk : h.Keeps κ) : (h.ringTake k t).Keeps κ := by
  unfold Hub.ringTake
  split
  · extract_lets +onlyGivenNames r cyc
    split
    · extract_lets +onlyGivenNames n y
      have hy : y.Keeps κ := hk.setRstate.setRg
      exact hy.setRg.modRing
    · exact hk.ringListen
  · exact hk

theorem Hub.Keeps.follow {h : Hub} {k f t} (hk : h.Keeps κ) : (h.follow k f t).Keeps κ := by
  unfold Hub.follow
  extract_lets +onlyGivenNames r old cyc stale charge
  split
  · exact hk
  extract_lets +onlyGivenNames y
  have hy : y.Keeps κ := hk.setRg.setRg.fset
  extract_lets +onlyGivenNames y₁
  have hy₁ : y₁.Keeps κ := hy.fset
  extract_lets +onlyGivenNames ann
  exact hy₁.modRing

theorem Hub.Keeps.rival {h : Hub} {k east f out t} (hk : h.Keeps κ) : (h.rival k east f out t).Keeps κ := by
  unfold Hub.rival
  extract_lets +onlyGivenNames own h1
  have hh1 : h1.Keeps κ := hk.annAbandon
  split
  · exact hk
  split
  · extract_lets +onlyGivenNames y
    have hy : y.Keeps κ := hh1.setRstate.fset.modRing
    exact hy.relay.follow
  · exact hh1.setRstate.fset.recAt

theorem Hub.Keeps.cycleFrame {h : Hub} {k east bs t} (hk : h.Keeps κ) : (h.cycleFrame k east bs t).Keeps κ := by
  unfold Hub.cycleFrame
  split
  · exact hk
  extract_lets +onlyGivenNames r st out
  split
  · extract_lets +onlyGivenNames y
    have hy : y.Keeps κ := hk.relay.fsat
    exact hy.modRing
  split
  · exact hk.rival
  extract_lets +onlyGivenNames y
  have hy : y.Keeps κ := hk.relay
  split
  · split
    exacts [hy.fset, hy]
  split
  exacts [hy.follow, hy]

theorem Hub.Keeps.downlink {h : Hub} {k slot t} (hk : h.Keeps κ) : (h.downlink k slot t).Keeps κ := by
  unfold Hub.downlink
  extract_lets +onlyGivenNames r x
  split
  · extract_lets +onlyGivenNames p p₁ m
    exact hk.modRing
  · exact hk

theorem Hub.Keeps.takeAck {h : Hub} {k m} (hk : h.Keeps κ) : (h.takeAck k m).Keeps κ := by
  unfold Hub.takeAck
  split
  · split
    exacts [hk.fset, hk]
  · exact hk

theorem Hub.Keeps.uplinkTaken {h : Hub} {k m conn t} (hk : h.Keeps κ) : (h.uplinkTaken k m conn t).Keeps κ := by
  unfold Hub.uplinkTaken
  extract_lets +onlyGivenNames n y
  have hy : y.Keeps κ := by
    unfold y
    split
    exacts [hk, hk.setPresent]
  extract_lets +onlyGivenNames y₁
  have hy₁ : y₁.Keeps κ := hy.modRing
  extract_lets +onlyGivenNames y₂
  have hy₂ : y₂.Keeps κ := by
    unfold y₂
    split
    exacts [hy₁.fset, hy₁]
  extract_lets +onlyGivenNames y₃
  have hy₃ : y₃.Keeps κ := hy₂.takeAck.reportBreaks
  split
  exacts [hy₃, hy₃.received]

theorem Hub.Keeps.uplink {h : Hub} {k east pos bs t} (hk : h.Keeps κ) : (h.uplink k east pos bs t).Keeps κ := by
  unfold Hub.uplink
  split
  · exact hk
  extract_lets +onlyGivenNames y
  have hy : y.Keeps κ := hk.relay
  split
  · exact hy
  split
  · exact hy.fsat
  extract_lets +onlyGivenNames x₁
  split
  · exact hy
  split
  exacts [hy.uplinkTaken, hy.fsat]

theorem Hub.Keeps.nodeAbsent {h : Hub} {k n t} (hk : h.Keeps κ) : (h.nodeAbsent k n t).Keeps κ := by
  unfold Hub.nodeAbsent
  extract_lets +onlyGivenNames gone
  split
  exacts [hk.setPresent.modRing, hk]

theorem Hub.Keeps.delayMeasure {h : Hub} {k east rt} (hk : h.Keeps κ) : (h.delayMeasure k east rt).Keeps κ := hk.modRing

/-! ### The write gate -/

theorem State.Keeps.writeClaimRec {s : State} {c} (hk : s.Keeps κ) : (s.writeClaimRec c).Keeps κ := by
  unfold State.writeClaimRec
  split
  exacts [hk, ⟨hk.fuses, hk.pending, hk.now, hk.la, hk.lb, hk.lc, hk.hub, hk.flash0, hk.flash1.writeClaim⟩]

theorem State.Keeps.performWrite {s : State} {g} (hk : s.Keeps κ) : (s.performWrite g).Keeps κ := by
  unfold State.performWrite
  extract_lets +onlyGivenNames fin
  have hfin : ∀ (s : State) (st : ℕ), s.Keeps κ → (fin s st).Keeps κ := by
    intro s st hx
    unfold fin
    split
    exacts [hx.endWith, hx]
  split
  · extract_lets +onlyGivenNames s₁
    have hs₁ : s₁.Keeps κ := ⟨hk.fuses, hk.pending, hk.now, hk.la, hk.lb, hk.lc, hk.hub, hk.flash0.erase.putBytes, hk.flash1⟩
    extract_lets +onlyGivenNames k₁ i s₂
    have hs₂ : s₂.Keeps κ := hs₁.modHub fun _ hx => hx
    exact hfin _ _ hs₂
  · exact hfin _ _ hk.writePointer
  · exact hfin _ _ (hk.commitArea.modHub fun _ hx => hx.sgwLoadSection)
  · exact hk.jAppend
  · exact hk.writeClaimRec

theorem State.Keeps.gated {s : State} {g} (hk : s.Keeps κ) : (s.gated g).Keeps κ := by
  unfold State.gated
  split
  · exact hk
  split
  exacts [hk.performWrite, hk.modHub fun _ hx => hx.fsat]

theorem State.Keeps.retryPrepare {s : State} (hk : s.Keeps κ) : s.retryPrepare.Keeps κ := by
  unfold State.retryPrepare
  split
  · split
    exacts [State.Keeps.performWrite (hk.modHub fun _ hx => hx), hk]
  · exact hk

theorem State.Keeps.gatedRetry {s : State} {t} (hk : s.Keeps κ) : (s.gatedRetry t).Keeps κ := by
  unfold State.gatedRetry
  split
  · exact hk
  extract_lets +onlyGivenNames ws s₁
  have hs₁ : s₁.Keeps κ := hk.modHub fun _ hx => hx.showEnergy
  extract_lets +onlyGivenNames late
  refine hs₁.foldl fun _ _ hx => ?_
  split
  · exact hx.performWrite
  split
  · split
    exacts [hx.endWith, hx]
  · exact hx.modHub fun _ hx1 => hx1

end Sys2Proof.Machine
end

section
/-! PROOFS. What every command keeps, function by function: the FIELD die, connections and the route engine. -/

namespace Sys2Proof.Machine

variable {κ : Charter}

/-! ### Field ports and the FIELD die -/

theorem State.Keeps.upField {s : State} {f} (hk : s.Keeps κ) : (s.upField f).Keeps κ := by
  unfold State.upField
  split
  exacts [hk.modField, hk]

theorem State.Keeps.fieldSample {s : State} {m t} (hk : s.Keeps κ) : (s.fieldSample m t).Keeps κ := hk.upField

theorem Lane.Keeps.fldFlag {l : Lane} {f} (hk : l.Keeps κ) : (l.fldFlag f).Keeps κ := hk.fset.raise

theorem State.Keeps.upAll {s : State} {f} (hk : s.Keeps κ) (hf : ∀ y : Lane, y.Keeps κ → (f y).Keeps κ) : (s.upAll f).Keeps κ :=
  hk.foldl fun _ _ hx => hx.upLane fun _ hx1 => hf _ hx1

theorem State.Keeps.fieldConfigFrame {s : State} {port ws t} (hk : s.Keeps κ) : (s.fieldConfigFrame port ws t).Keeps κ := by
  unfold State.fieldConfigFrame
  split
  · exact hk
  extract_lets +onlyGivenNames s₁
  have hs₁ : s₁.Keeps κ := hk.modField
  extract_lets +onlyGivenNames agree
  split
  · exact hs₁
  split
  exacts [hs₁.modField, hs₁.upAll fun _ hx => hx.fldFlag]

theorem State.Keeps.calRequest {s : State} {l v t} (hk : s.Keeps κ) : (s.calRequest l v t).Keeps κ := by
  unfold State.calRequest
  extract_lets +onlyGivenNames x
  have hx : x.Keeps κ := hk.lane
  split
  · exact hk
  extract_lets +onlyGivenNames ch src s₁
  have hs₁ : s₁.Keeps κ := hk.setLane (Lane.Keeps.fset hx)
  split
  exacts [hs₁.upField, hs₁]

theorem Lane.Keeps.holdInput {l : Lane} {ch t} (hk : l.Keeps κ) : (l.holdInput ch t).Keeps κ := hk

theorem Lane.Keeps.agreeHolds {l : Lane} {tn} (hk : l.Keeps κ) : (l.agreeHolds tn).Keeps κ := hk

theorem State.Keeps.calStart {s : State} {ch t} (hk : s.Keeps κ) : (s.calStart ch t).Keeps κ := by
  unfold State.calStart
  extract_lets +onlyGivenNames reqs
  split
  · exact hk
  extract_lets +onlyGivenNames refused s₁
  have hs₁ : s₁.Keeps κ := hk.modField
  split
  · exact hs₁.upAll fun _ hx => hx.fldFlag
  split
  exacts [hs₁, hs₁.modField.upAll fun _ hx => hx.holdInput]

theorem State.Keeps.calEnd {s : State} {ok t} (hk : s.Keeps κ) : (s.calEnd ok t).Keeps κ := by
  unfold State.calEnd
  split
  · split
    exacts [hk, hk.modField.upAll fun _ hx => Lane.Keeps.setRg hx]
  · exact hk

theorem State.Keeps.offTestBegin {s : State} {k low t} (hk : s.Keeps κ) : (s.offTestBegin k low t).Keeps κ := by
  unfold State.offTestBegin
  extract_lets +onlyGivenNames f p pair
  split
  exacts [hk.upField, hk]

theorem State.Keeps.offTestEnd {s : State} {k rbOn dropped lsOn t} (hk : s.Keeps κ) : (s.offTestEnd k rbOn dropped lsOn t).Keeps κ := by
  unfold State.offTestEnd
  split
  · exact hk
  extract_lets +onlyGivenNames drv
  exact hk.upField

theorem State.Keeps.openLoad {s : State} {k} (hk : s.Keeps κ) : (s.openLoad k).Keeps κ := by
  unfold State.openLoad
  split
  exacts [hk.upField, hk]

theorem State.Keeps.overload {s : State} {k} (hk : s.Keeps κ) : (s.overload k).Keeps κ := by
  unfold State.overload
  split
  exacts [hk.upField, hk]

theorem State.Keeps.overloadRelease {s : State} {k t} (hk : s.Keeps κ) : (s.overloadRelease k t).Keeps κ := by
  unfold State.overloadRelease
  split
  exacts [hk.upField, hk]

theorem State.Keeps.shortVf {s : State} {k} (hk : s.Keeps κ) : (s.shortVf k).Keeps κ := by
  unfold State.shortVf
  split
  exacts [hk.upField, hk]

theorem State.Keeps.imageBlock {s : State} {port idx bytes} (hk : s.Keeps κ) : (s.imageBlock port idx bytes).Keeps κ := by
  unfold State.imageBlock
  extract_lets +onlyGivenNames s₁
  have hs₁ : s₁.Keeps κ := hk.upField
  split
  exacts [hs₁.modHub fun _ hx => hx, hs₁]

theorem Lane.Keeps.takeField {l : Lane} {bytes t} (hk : l.Keeps κ) : (l.takeField bytes t).Keeps κ := by
  unfold Lane.takeField
  extract_lets +onlyGivenNames seq missed src l₁
  have hl₁ : l₁.Keeps κ := hk
  extract_lets +onlyGivenNames rows vals disag wb unp src₁ src₂ l₂
  have hl₂ : l₂.Keeps κ := hl₁
  extract_lets +onlyGivenNames l₃
  have hl₃ : l₃.Keeps κ := hl₂.setRg
  extract_lets +onlyGivenNames l₄
  have hl₄ : l₄.Keeps κ := hl₃.fset
  extract_lets +onlyGivenNames l₅
  have hl₅ : l₅.Keeps κ := by
    unfold l₅
    split
    exacts [hl₄, hl₄.fsat.fldFlag]
  extract_lets +onlyGivenNames st l₆
  have hl₆ : l₆.Keeps κ := hl₅.fset.fset
  exact hl₆.fset.fset

theorem Lane.Keeps.fieldFrame {l : Lane} {bytes t} (hk : l.Keeps κ) : (l.fieldFrame bytes t).Keeps κ := by
  unfold Lane.fieldFrame
  split
  · exact hk
  extract_lets +onlyGivenNames src l₁
  have hl₁ : l₁.Keeps κ := hk
  split
  · exact hl₁.fsat.fldFlag
  split
  exacts [hl₁.fldFlag, hl₁.takeField]

theorem Lane.Keeps.fieldRate {l : Lane} {t} (hk : l.Keeps κ) : (l.fieldRate t).Keeps κ := by
  unfold Lane.fieldRate
  split
  · exact hk
  extract_lets +onlyGivenNames n src x
  have hx : x.Keeps κ := hk
  split
  exacts [hx.fset, hx]

theorem Lane.Keeps.noteUnproven {l : Lane} {img t} (hk : l.Keeps κ) : (l.noteUnproven img t).Keeps κ := by
  unfold Lane.noteUnproven
  extract_lets +onlyGivenNames us
  exact hk

theorem Lane.Keeps.commitField {l : Lane} {split c qon qlat} (hk : l.Keeps κ) : (l.commitField split c qon qlat).Keeps κ := by
  unfold Lane.commitField
  refine hk.foldl fun _ _ hx => ?_
  extract_lets +onlyGivenNames on lat l₁
  have hl₁ : l₁.Keeps κ := hx.fset
  exact hl₁

theorem Lane.Keeps.catchOutputs {l : Lane} {c a} (hk : l.Keeps κ) : (l.catchOutputs c a).Keeps κ := by
  unfold Lane.catchOutputs
  extract_lets +onlyGivenNames q keep
  exact hk

theorem Lane.Keeps.fldpCfgWrite {l : Lane} {off v} (hk : l.Keeps κ) : (l.fldpCfgWrite off v).Keeps κ := by
  unfold Lane.fldpCfgWrite
  split
  · split
    exacts [hk.plainWrite, hk.fldFlag]
  · exact hk

theorem Lane.Keeps.configSend {l : Lane} {t} (hk : l.Keeps κ) : (l.configSend t).Keeps κ := by
  unfold Lane.configSend
  split
  exacts [hk, hk]

/-! ### Safety blocks -/

theorem Lane.Keeps.runBlocks {l : Lane} {k} (hk : l.Keeps κ) : (l.runBlocks k).Keeps κ := by
  unfold Lane.runBlocks
  extract_lets +onlyGivenNames step1 bs resets step2
  exact hk

theorem Lane.Keeps.discTimeout {l : Lane} {blk tn} (hk : l.Keeps κ) : (l.discTimeout blk tn).Keeps κ := by
  unfold Lane.discTimeout
  extract_lets +onlyGivenNames step
  exact hk

/-! ### Connections -/

theorem Lane.Keeps.setConn {l : Lane} {k c} (hk : l.Keeps κ) : (l.setConn k c).Keeps κ := hk

theorem Lane.Keeps.modConn {l : Lane} {k f} (hk : l.Keeps κ) : (l.modConn k f).Keeps κ := hk.setConn

theorem Lane.Keeps.countTlg {l : Lane} {k v} (hk : l.Keeps κ) : (l.countTlg k v).Keeps κ := by
  unfold Lane.countTlg
  extract_lets +onlyGivenNames l₁
  have hl₁ : l₁.Keeps κ := hk.modConn
  split
  exacts [hl₁.note, hl₁]

theorem Lane.Keeps.takeTlg {l : Lane} {k t now} (hk : l.Keeps κ) : (l.takeTlg k t now).Keeps κ := by
  unfold Lane.takeTlg
  split
  exacts [hk.modConn, hk.countTlg.modConn]

theorem Lane.Keeps.takeAll {x : Lane} {now : Nat} {ts : List Tlg} {shut : List Nat} (hk : x.Keeps κ) : (x.takeAll now ts shut).Keeps κ := by
  induction ts generalizing x shut with
  | nil => exact hk
  | cons t ts ih =>
    unfold Lane.takeAll
    split
    · exact ih hk
    · split
      exacts [ih hk, ih hk.takeTlg]

theorem Lane.Keeps.supervise {l : Lane} {k now} (hk : l.Keeps κ) : (l.supervise k now).Keeps κ := by
  unfold Lane.supervise
  extract_lets +onlyGivenNames c
  split
  exacts [hk.modConn, hk]

theorem Lane.Keeps.corruptionClose {l : Lane} {k now} (hk : l.Keeps κ) : (l.corruptionClose k now).Keeps κ := by
  unfold Lane.corruptionClose
  extract_lets +onlyGivenNames c d
  split
  · extract_lets +onlyGivenNames c₁
    exact hk.setConn.note
  · exact hk

theorem Lane.Keeps.corruptionDecay {l : Lane} {k now} (hk : l.Keeps κ) : (l.corruptionDecay k now).Keeps κ := by
  unfold Lane.corruptionDecay
  split
  · extract_lets +onlyGivenNames c
    split
    exacts [hk.setConn, hk]
  · exact hk

theorem Lane.Keeps.holdoffExpiry {l : Lane} {k now} (hk : l.Keeps κ) : (l.holdoffExpiry k now).Keeps κ := by
  unfold Lane.holdoffExpiry
  extract_lets +onlyGivenNames c d
  split
  exacts [hk.setConn, hk]

theorem Lane.Keeps.respondedTimeout {l : Lane} {k now} (hk : l.Keeps κ) : (l.respondedTimeout k now).Keeps κ := by
  unfold Lane.respondedTimeout
  extract_lets +onlyGivenNames c
  split
  exacts [hk.setConn, hk]

theorem Lane.Keeps.sendAll_fst {l : Lane} {ctx fin payload send} (hk : l.Keeps κ) : (l.sendAll ctx fin payload send).1.Keeps κ := by
  unfold Lane.sendAll
  refine hk.foldl_fst fun _ _ hx => ?_
  split
  exacts [hx.setConn]

/-! ### Cells of the route engine -/

theorem Lane.Keeps.setCell {l : Lane} {c r} (hk : l.Keeps κ) : (l.setCell c r).Keeps κ :=
  ⟨hk.reg, hk.sram, hk.cells.set, hk.ard, hk.rstat, hk.pstore⟩

theorem Lane.Keeps.putC {l : Lane} {c f v} (hk : l.Keeps κ) : (l.putC c f v).Keeps κ := hk.setCell

theorem Lane.Keeps.setRw {l : Lane} {i w} (hk : l.Keeps κ) : (l.setRw i w).Keeps κ := ⟨hk.reg, hk.sram, hk.cells, hk.ard, hk.rstat.set, hk.pstore⟩

theorem Lane.Keeps.setRState {l : Lane} {i v} (hk : l.Keeps κ) : (l.setRState i v).Keeps κ := hk.setRw

theorem Lane.Keeps.writeSlot {l : Lane} {n es} (hk : l.Keeps κ) : (l.writeSlot n es).Keeps κ := by
  unfold Lane.writeSlot
  extract_lets +onlyGivenNames w
  exact ⟨hk.reg, hk.sram, hk.cells, hk.ard, hk.rstat, hk.pstore.foldl fun _ _ hx => hx.set⟩

theorem Lane.Keeps.putAreaWord {l : Lane} {a v} (hk : l.Keeps κ) : (l.putAreaWord a v).Keeps κ := by
  unfold Lane.putAreaWord
  split
  exacts [hk.setCell, ⟨hk.reg, hk.sram, hk.cells, hk.ard.set, hk.rstat, hk.pstore⟩, hk.setRw, ⟨hk.reg, hk.sram, hk.cells, hk.ard, hk.rstat,
    hk.pstore.set⟩, hk.setRg, hk.setRg, hk]

theorem Lane.Keeps.setRgs {ws : List Word} {x : Lane} {a : Nat} (hk : x.Keeps κ) : (x.setRgs a ws).Keeps κ := by
  induction ws generalizing x a with
  | nil => exact hk
  | cons w ws ih => exact ih hk.setRg

theorem Lane.Keeps.rleFlag {l : Lane} {f} (hk : l.Keeps κ) : (l.rleFlag f).Keeps κ := by
  unfold Lane.rleFlag
  extract_lets +onlyGivenNames l₁
  have hl₁ : l₁.Keeps κ := hk.fset
  split
  · split
    exacts [hl₁.raise, hl₁]
  split
  exacts [hl₁.raise, hl₁]

/-! ### Routes -/

theorem Lane.Keeps.dropFlank {l : Lane} {p} (hk : l.Keeps κ) : (l.dropFlank p).Keeps κ := by
  unfold Lane.dropFlank
  extract_lets +onlyGivenNames r n r₁
  exact hk.setCell

theorem Lane.Keeps.releaseCell {l : Lane} {c} (hk : l.Keeps κ) : (l.releaseCell c).Keeps κ := by
  unfold Lane.releaseCell
  extract_lets +onlyGivenNames r
  split
  · exact hk
  extract_lets +onlyGivenNames t fl r₁ r₂
  exact hk.setCell.foldl fun _ _ hx => hx.dropFlank

theorem Lane.Keeps.releaseCells {l : Lane} {i cs} (hk : l.Keeps κ) : (l.releaseCells i cs).Keeps κ := by
  unfold Lane.releaseCells
  extract_lets +onlyGivenNames l₁
  have hl₁ : l₁.Keeps κ := hk.foldl fun _ _ hx => hx.releaseCell
  extract_lets +onlyGivenNames x
  split
  exacts [hl₁.putC, hl₁]

theorem Lane.Keeps.closeCrossing {l : Lane} {c} (hk : l.Keeps κ) : (l.closeCrossing c).Keeps κ := by
  unfold Lane.closeCrossing
  extract_lets +onlyGivenNames r rest
  split
  · exact hk
  split
  exacts [hk, hk.setCell]

theorem Lane.Keeps.requireElem {l : Lane} {e} (hk : l.Keeps κ) : (l.requireElem e).Keeps κ := by
  unfold Lane.requireElem
  split
  · exact hk.setCell
  split
  exacts [hk.closeCrossing, hk]

theorem Lane.Keeps.applyFlank {l : Lane} {e} (hk : l.Keeps κ) : (l.applyFlank e).Keeps κ := hk.setCell.requireElem

theorem Lane.Keeps.lockCell {l : Lane} {i kind c} (hk : l.Keeps κ) : (l.lockCell i kind c).Keeps κ := hk.setCell

theorem Lane.Keeps.claimRoute {l : Lane} {i cls slot path ov} (hk : l.Keeps κ) : (l.claimRoute i cls slot path ov).Keeps κ := by
  unfold Lane.claimRoute
  extract_lets +onlyGivenNames body exit pathFl ovFl l₁
  have hl₁ : l₁.Keeps κ := hk.foldl fun _ _ hx => hx.lockCell
  extract_lets +onlyGivenNames l₂
  have hl₂ : l₂.Keeps κ := by
    unfold l₂
    split
    exacts [hl₁.putC, hl₁]
  extract_lets +onlyGivenNames l₃
  have hl₃ : l₃.Keeps κ := by
    unfold l₃
    refine hl₂.foldl fun _ _ hx => ?_
    refine Lane.Keeps.requireElem ?_
    split
    exacts [hx.putC, hx]
  extract_lets +onlyGivenNames l₄
  have hl₄ : l₄.Keeps κ := hl₃.foldl fun _ _ hx => hx.applyFlank
  extract_lets +onlyGivenNames l₅
  have hl₅ : l₅.Keeps κ := by
    unfold l₅
    split
    exacts [hl₄, hl₄.lockCell.foldl fun _ _ hx => hx.lockCell.requireElem]
  extract_lets +onlyGivenNames l₆
  have hl₆ : l₆.Keeps κ := hl₅.foldl fun _ _ hx => hx.applyFlank
  extract_lets +onlyGivenNames l₇
  have hl₇ : l₇.Keeps κ := hl₆.writeSlot
  exact hl₇.setRw

theorem Lane.Keeps.selectFrom_fst {x : Lane} {q : RleReq} {j : Nat} {f : Found} (hk : x.Keeps κ) : (x.selectFrom q j f).1.Keeps κ := by
  unfold Lane.selectFrom
  extract_lets +onlyGivenNames entry paths refused visits
  split
  · exact hk.rleFlag
  extract_lets +onlyGivenNames vs c1 n c2 c3 c4
  split
  · exact hk
  split
  · exact hk
  split
  · exact hk
  split
  · exact hk
  extract_lets best
  clear_value best
  split
  · exact hk
  · dsimp only
    split
    · exact hk.rleFlag
    split
    exacts [hk, hk.claimRoute]

theorem Lane.Keeps.selectSet_fst {l : Lane} {q j} (hk : l.Keeps κ) : (l.selectSet q j).1.Keeps κ := by
  unfold Lane.selectSet
  extract_lets +onlyGivenNames f r
  have hr : r.1.Keeps κ := hk.selectFrom_fst
  exact hr

theorem Lane.Keeps.markCorridor {l : Lane} {es v} (hk : l.Keeps κ) : (l.markCorridor es v).Keeps κ := hk.foldl fun _ _ hx => hx.putC

theorem Lane.Keeps.processSet_fst {x : Lane} {q : RleReq} (hk : x.Keeps κ) : (x.processSet q).1.Keeps κ := by
  unfold Lane.processSet
  split
  · exact hk
  split
  · exact hk
  split
  · exact hk
  split
  · exact hk
  exact hk.markCorridor.selectSet_fst.markCorridor

theorem Lane.Keeps.processCancel_fst {l : Lane} {q} (hk : l.Keeps κ) : (l.processCancel q).1.Keeps κ := by
  unfold Lane.processCancel
  split
  · exact hk
  extract_lets +onlyGivenNames st src ok
  split
  · exact hk
  split
  · exact hk
  split
  · extract_lets +onlyGivenNames l₁
    have hl₁ : l₁.Keeps κ := hk.putC
    exact hl₁.releaseCells
  · exact hk.putC.putC.setRState

theorem Lane.Keeps.processPrep_fst {l : Lane} {q} (hk : l.Keeps κ) : (l.processPrep q).1.Keeps κ := by
  unfold Lane.processPrep
  extract_lets +onlyGivenNames r
  split
  exacts [hk.putC, hk]

theorem Lane.Keeps.processKeyRelease_fst {l : Lane} {q} (hk : l.Keeps κ) : (l.processKeyRelease q).1.Keeps κ := by
  unfold Lane.processKeyRelease
  extract_lets +onlyGivenNames r gs bad
  split
  · exact hk
  split
  exacts [hk, hk.putC.foldl fun _ _ hx => hx.putC]

theorem Lane.Keeps.processKeyRestore_fst {l : Lane} {q} (hk : l.Keeps κ) : (l.processKeyRestore q).1.Keeps κ := by
  unfold Lane.processKeyRestore
  extract_lets +onlyGivenNames r
  split
  exacts [hk, hk.putC.putC.foldl fun _ _ hx => hx.putC]

theorem Lane.Keeps.ite_fst {α : Type} {x y : Lane × α} {p : Prop} [Decidable p] (hx : x.1.Keeps κ) (hy : y.1.Keeps κ) :
    (if p then x else y).1.Keeps κ := by
  split
  exacts [hx, hy]

theorem Lane.Keeps.processRequest_fst {x : Lane} {q : RleReq} (hk : x.Keeps κ) : (x.processRequest q).1.Keeps κ :=
  .ite_fst hk (.ite_fst hk (.ite_fst hk.processSet_fst (.ite_fst hk.processCancel_fst (.ite_fst hk.processPrep_fst
    (.ite_fst hk.processKeyRelease_fst hk.processKeyRestore_fst)))))

theorem Lane.Keeps.noteLimit {l : Lane} {n r} (hk : l.Keeps κ) : (l.noteLimit n r).Keeps κ := hk.note

theorem Lane.Keeps.requestStep {x : Lane} {n : Nat} (hk : x.Keeps κ) : (x.requestStep n).Keeps κ := by
  unfold Lane.requestStep
  dsimp only
  exact hk.processRequest_fst.setRgs.fset.foldl fun _ _ hy => hy.noteLimit

/-! ### Sweeps and the phases of a run -/

theorem Lane.Keeps.inputPhase {l : Lane} (hk : l.Keeps κ) : l.inputPhase.Keeps κ := by
  unfold Lane.inputPhase
  extract_lets +onlyGivenNames bound stale odd l₁
  have hl₁ : l₁.Keeps κ := ⟨hk.reg, hk.sram, SparseKeeps.map, hk.ard, hk.rstat, hk.pstore⟩
  extract_lets +onlyGivenNames wait
  exact Lane.Keeps.foldl hl₁ fun _ _ hx => hx.note

theorem Lane.Keeps.noteCrossing {l : Lane} {c} (hk : l.Keeps κ) : (l.noteCrossing c).Keeps κ := hk.note

theorem Lane.Keeps.freeRoute {l : Lane} {i} (hk : l.Keeps κ) : (l.freeRoute i).Keeps κ := hk.writeSlot.setRw

theorem Lane.Keeps.sweep {l : Lane} (hk : l.Keeps κ) : l.sweep.Keeps κ := by
  unfold Lane.sweep
  extract_lets +onlyGivenNames rs gone live l1
  have hl1 : l1.Keeps κ := ⟨hk.reg, hk.sram, SparseKeeps.map, hk.ard, hk.rstat, hk.pstore⟩
  extract_lets +onlyGivenNames l2
  have hl2 : l2.Keeps κ := by
    unfold l2
    refine hl1.foldl fun _ _ hx => ?_
    extract_lets +onlyGivenNames m
    have hm : m.Keeps κ := hx.setRState
    split
    exacts [hm.setRw, hm]
  extract_lets +onlyGivenNames l3
  have hl3 : l3.Keeps κ := hl2.foldl fun _ _ hx => hx.releaseCells
  exact Lane.Keeps.foldl (hl3.foldl fun _ _ hx => hx.freeRoute) fun _ _ hx => hx.noteCrossing

theorem Lane.Keeps.sweeps_fst {n k : Nat} {l : Lane} (hk : l.Keeps κ) : (Lane.sweeps n k l).1.Keeps κ := by
  induction n generalizing k l with
  | zero => exact hk
  | succ n ih =>
    unfold Lane.sweeps
    dsimp only
    split
    exacts [ih hk.sweep, hk.sweep]

theorem Lane.Keeps.fixLimit {l0 : Lane} {l : Lane} (hk : l0.Keeps κ) (hk1 : l.Keeps κ) : (l0.fixLimit l).Keeps κ := by
  unfold Lane.fixLimit
  extract_lets +onlyGivenNames lower l1
  have hl1 : l1.Keeps κ := ⟨hk1.reg, hk1.sram, SparseKeeps.map, hk1.ard, hk1.rstat, hk1.pstore⟩
  extract_lets +onlyGivenNames l2
  have hl2 : l2.Keeps κ := by
    unfold l2
    refine hl1.foldl fun _ _ hx => ?_
    split
    exacts [hx.setRState, hx]
  exact hl2.rleFlag.note

theorem RamKeeps.slotPut {m : List Host.Cell} {base k : Nat} {p : Option (List Byte)} (hm : RamKeeps κ m) : RamKeeps κ (slotPut m base k p) := by
  unfold Machine.slotPut
  split
  exacts [hm.putNat, hm.putNat.putBytes]

theorem Lane.Keeps.outputPhase {l : Lane} (hk : l.Keeps κ) : l.outputPhase.Keeps κ := by
  unfold Lane.outputPhase
  generalize upTo 512 = ks
  exact ⟨hk.reg, hk.sram.foldl fun _ _ hx => hx.slotPut, hk.cells, hk.ard, hk.rstat, hk.pstore⟩

theorem Lane.Keeps.rleRun {l0 : Lane} (hk : l0.Keeps κ) : l0.rleRun.Keeps κ := by
  unfold Lane.rleRun
  extract_lets +onlyGivenNames n l
  have hl : l.Keeps κ := hk.inputPhase
  extract_lets +onlyGivenNames l₁
  have hl₁ : l₁.Keeps κ := hl.foldl fun _ _ hx => hx.requestStep
  split
  extract_lets +onlyGivenNames l₂
  have hl₂ : l₂.Keeps κ := by
    unfold l₂
    split
    exacts [hk.fixLimit (hl₁.sweeps_fst.of_fst ‹_›), hl₁.sweeps_fst.of_fst ‹_›]
  extract_lets +onlyGivenNames l₃
  have hl₃ : l₃.Keeps κ := hl₂.outputPhase
  exact hl₃.fset.fset

end Sys2Proof.Machine
end

section
/-! PROOFS. What every command keeps, function by function: links, the vote, programs and readmission. -/

namespace Sys2Proof.Machine

variable {κ : Charter}

/-! ### Cross-lane links -/

theorem Lane.Keeps.takeLinkDown {l : Lane} {k} (hk : l.Keeps κ) : (l.takeLinkDown k).Keeps κ := by
  unfold Lane.takeLinkDown
  split
  · extract_lets +onlyGivenNames l₁
    have hl₁ : l₁.Keeps κ := hk.fset.fset.raise.abandonReadm
    exact hl₁.modLink
  · exact hk.modLink

theorem Lane.Keeps.idleSend {l : Lane} {k t} (hk : l.Keeps κ) : (l.idleSend k t).Keeps κ := by
  unfold Lane.idleSend
  extract_lets +onlyGivenNames e
  split
  exacts [hk.modLink, hk]

theorem Lane.Keeps.linkFrame {l : Lane} {k seq body crc again t} (hk : l.Keeps κ) : (l.linkFrame k seq body crc again t).Keeps κ := by
  unfold Lane.linkFrame
  extract_lets +onlyGivenNames e crcOk seqOk
  split
  · exact hk.modLink
  extract_lets +onlyGivenNames l₁
  have hl₁ : l₁.Keeps κ := by
    unfold l₁
    split
    exacts [hk.fsat, hk.fsat]
  split
  · exact hl₁.modLink
  split
  exacts [hl₁.takeLinkDown, hl₁.fsat.modLink]

theorem Lane.Keeps.linkTimeout {l : Lane} {k t} (hk : l.Keeps κ) : (l.linkTimeout k t).Keeps κ := by
  unfold Lane.linkTimeout
  split
  exacts [hk.takeLinkDown, hk]

theorem Lane.Keeps.retrainTimer {l : Lane} {k t} (hk : l.Keeps κ) : (l.retrainTimer k t).Keeps κ := by
  unfold Lane.retrainTimer
  extract_lets +onlyGivenNames e
  split
  exacts [hk.modLink, hk]

theorem Lane.Keeps.linkComesUp {l : Lane} {k} (hk : l.Keeps κ) : (l.linkComesUp k).Keeps κ := by
  unfold Lane.linkComesUp
  split
  exacts [hk, hk.fset]

theorem Lane.Keeps.takeLinks {l : Lane} (hk : l.Keeps κ) : l.takeLinks.Keeps κ := hk.modLink.modLink

theorem Lane.Keeps.retrainNow {l : Lane} {k now} (hk : l.Keeps κ) : (l.retrainNow k now).Keeps κ := hk.takeLinkDown.modLink

theorem State.Keeps.linksAfter {s : State} {s' : State} (hk : s.Keeps κ) (hk1 : s'.Keeps κ) : (s.linksAfter s').Keeps κ := by
  unfold State.linksAfter
  split
  exacts [hk1, hk1.foldl fun _ _ hx => hx.modLane fun _ hx1 => hx1.abandonReadm]

/-! ### The vote -/

theorem Lane.Keeps.setVoters {l : Lane} {set} (hk : l.Keeps κ) : (l.setVoters set).Keeps κ := hk.setInset.fset

theorem Lane.Keeps.dropGone {l : Lane} (hk : l.Keeps κ) : l.dropGone.Keeps κ := by
  unfold Lane.dropGone
  split
  exacts [hk.setVoters, hk]

theorem Lane.Keeps.countStray {l : Lane} (hk : l.Keeps κ) : l.countStray.Keeps κ := hk.fsat

theorem Lane.Keeps.beginVote {l : Lane} {c task tn v} (hk : l.Keeps κ) : (l.beginVote c task tn v).Keeps κ := by
  unfold Lane.beginVote
  extract_lets +onlyGivenNames img
  exact hk.modCtx

theorem Lane.Keeps.level1 {l : Lane} {src c ds t} (hk : l.Keeps κ) : (l.level1 src c ds t).Keeps κ := by
  unfold Lane.level1
  extract_lets +onlyGivenNames x
  split
  · exact hk
  split
  · exact hk.countStray
  split
  · exact hk
  split
  · exact hk.voteFlag
  split
  exacts [hk.modCtx, hk]

/-- What a step of the vote leaves of the lane keeps the charter. -/
def VoteResult.Keeps (κ : Charter) : VoteResult → Prop
  | .goes x => x.Keeps κ
  | .easyAll x _ => x.Keeps κ

/-- What the verdict leaves of the lane keeps the charter. -/
def VerdictEnd.Keeps (κ : Charter) : VerdictEnd → Prop
  | .stays x => x.Keeps κ
  | .leaves x _ _ => x.Keeps κ
  | .easyAll x => x.Keeps κ

theorem Lane.Keeps.level1Deadline {x : Lane} {c : Nat} (hk : x.Keeps κ) : (x.level1Deadline c).Keeps κ := by
  unfold Lane.level1Deadline
  extract_lets +onlyGivenNames ctx got late y diff excess z
  have hy : y.Keeps κ := by
    unfold y
    split
    exacts [hk.voteFlag, hk]
  have hz : z.Keeps κ := hy.modCtx
  split
  · exact hz
  split
  · exact hz
  split
  · exact hz.voteFlag
  split
  exacts [hz.voteFlag, hz]

theorem Lane.Keeps.takeHashes {l : Lane} {src c b hs t} (hk : l.Keeps κ) : (l.takeHashes src c b hs t).Keeps κ := by
  unfold Lane.takeHashes
  extract_lets +onlyGivenNames x
  split
  · exact hk.voteFlag
  split
  exacts [hk.modCtx, hk]

theorem Lane.Keeps.takeSegment {l : Lane} {src c s bytes t} (hk : l.Keeps κ) : (l.takeSegment src c s bytes t).Keeps κ := by
  unfold Lane.takeSegment
  extract_lets +onlyGivenNames x
  split
  · exact hk.voteFlag
  split
  exacts [hk.modCtx, hk]

theorem Lane.Keeps.answerDeadline {x : Lane} {c : Nat} (hk : x.Keeps κ) : (x.answerDeadline c).Keeps κ := by
  unfold Lane.answerDeadline
  extract_lets +onlyGivenNames ctx vs y js z
  have hy : y.Keeps κ := by
    unfold y
    split
    exacts [hk.voteFlag, hk]
  have hz : z.Keeps κ := by
    unfold z
    split
    exacts [hy.voteFlag, hy]
  split
  · exact hz
  split
  · exact hz
  split
  · exact hz
  extract_lets +onlyGivenNames mine thr u
  have hu : u.Keeps κ := by
    unfold u
    split
    exacts [hz, hz.voteFlag.fsat]
  exact hu.modCtx.modCtx

theorem Lane.Keeps.takeVerdict {l : Lane} {src c v t} (hk : l.Keeps κ) : (l.takeVerdict src c v t).Keeps κ := by
  unfold Lane.takeVerdict
  split
  · exact hk
  split
  · exact hk.countStray
  split
  · exact hk.voteFlag
  split
  exacts [hk, hk.modCtx]

theorem Lane.Keeps.adopt {l : Lane} {c} (hk : l.Keeps κ) : (l.adopt c).Keeps κ := hk.modCtx

theorem Lane.Keeps.adoptMemory {l : Lane} {c} (hk : l.Keeps κ) : (l.adoptMemory c).Keeps κ := by
  unfold Lane.adoptMemory
  refine hk.foldl fun _ _ hx => ?_
  split
  exacts [⟨hx.reg, hx.sram.putBytes, hx.cells, hx.ard, hx.rstat, hx.pstore⟩, hx]

theorem Lane.Keeps.shadowVerdict {l : Lane} {c} (hk : l.Keeps κ) : (l.shadowVerdict c).Keeps κ := by
  unfold Lane.shadowVerdict
  extract_lets +onlyGivenNames vs
  split
  exacts [hk, hk.abandonReadm]

theorem Lane.Keeps.shadowVote {l : Lane} {c passed} (hk : l.Keeps κ) : (l.shadowVote c passed).Keeps κ := hk

theorem Lane.Keeps.verdictDeadline {x : Lane} {c : Nat} (hk : x.Keeps κ) : (x.verdictDeadline c).Keeps κ := by
  unfold Lane.verdictDeadline
  extract_lets +onlyGivenNames ctx late y thr next z
  have hy : y.Keeps κ := by
    unfold y
    split
    exacts [hk.voteFlag, hk]
  have hz : z.Keeps κ := hy.modCtx
  split
  · split
    exacts [hz, hz]
  split
  · exact hz
  extract_lets +onlyGivenNames out kept passed u
  have hu : u.Keeps κ := by
    unfold u
    split
    exacts [hz.shadowVote, hz]
  refine Lane.Keeps.modCtx ?_
  split
  exacts [hu, Lane.Keeps.adopt hu]

theorem State.Keeps.voteResult {s : State} {l : LaneId} {r : VoteResult} (hk : s.Keeps κ) (hr : r.Keeps κ) : (s.voteResult l r).Keeps κ := by
  cases r with
  | goes x => exact hk.setLane hr
  | easyAll x cause => exact (hk.setLane (x := x) hr).enterEasy

theorem State.Keeps.level1Deadline {s : State} {l : LaneId} {c t : Nat} (hk : s.Keeps κ) : (s.level1Deadline l c t).Keeps κ := by
  unfold State.level1Deadline
  dsimp only
  split
  · exact hk
  split
  · exact hk.modLane fun _ hx => hx.modCtx
  split
  exacts [hk.voteResult hk.lane.level1Deadline, hk]

theorem State.Keeps.answerDeadline {s : State} {l : LaneId} {c t : Nat} (hk : s.Keeps κ) : (s.answerDeadline l c t).Keeps κ := by
  unfold State.answerDeadline
  dsimp only
  split
  · exact hk
  split
  · exact hk.modLane fun _ hx => hx.modCtx
  split
  exacts [hk.voteResult hk.lane.answerDeadline, hk]

theorem State.Keeps.verdictDeadline {s : State} {l : LaneId} {c t : Nat} (hk : s.Keeps κ) : (s.verdictDeadline l c t).Keeps κ := by
  have hv := (hk.lane (l := l)).verdictDeadline (c := c)
  unfold State.verdictDeadline
  dsimp only
  split
  · exact hk
  split
  · exact hk.modLane fun _ hx => hx.shadowVerdict.modCtx
  split
  · split
    next y he => rw [he] at hv; exact hk.setLane hv
    next y reason seg he => rw [he] at hv; exact (hk.setLane (x := y) hv).leave
    next y he => rw [he] at hv; exact (hk.setLane (x := y) hv).enterEasy
  · exact hk

theorem State.Keeps.leaveNotice {s : State} {dst src reason} (hk : s.Keeps κ) : (s.leaveNotice dst src reason).Keeps κ := by
  unfold State.leaveNotice
  extract_lets +onlyGivenNames x
  have hx : x.Keeps κ := hk.lane
  split
  · exact hk
  extract_lets +onlyGivenNames second kept x₁
  have hx₁ : x₁.Keeps κ := hx
  extract_lets +onlyGivenNames s₁
  have hs₁ : s₁.Keeps κ := hk.setLane hx₁
  split
  exacts [hs₁.enterEasy, hs₁]

theorem Lane.Keeps.restrictive_fst {l : Lane} {t} (hk : l.Keeps κ) : (l.restrictive t).1.Keeps κ := by
  unfold Lane.restrictive
  refine hk.foldl_fst fun _ _ hx => ?_
  extract_lets +onlyGivenNames c seq tl
  exact hx.setConn

theorem State.Keeps.restrictiveFinish {s : State} {l t} (hk : s.Keeps κ) : (s.restrictiveFinish l t).Keeps κ := by
  unfold State.restrictiveFinish
  extract_lets +onlyGivenNames x
  have hx : x.Keeps κ := hk.lane
  split
  · exact hk
  extract_lets +onlyGivenNames r
  have hr : r.1.Keeps κ := hx.restrictive_fst
  exact State.Keeps.modHub (hk.setLane hr) fun _ hx => hx.modMbx fun _ hx1 => hx1

theorem Lane.Keeps.ctxSummary {l : Lane} {c} (hk : l.Keeps κ) : (l.ctxSummary c).Keeps κ := hk.fset.fset

theorem Lane.Keeps.voteCfgWrite {l : Lane} {off v} (hk : l.Keeps κ) : (l.voteCfgWrite off v).Keeps κ := by
  unfold Lane.voteCfgWrite
  split
  · exact hk
  split
  · exact hk.voteFlag
  extract_lets +onlyGivenNames l₁
  have hl₁ : l₁.Keeps κ := hk.plainWrite
  split
  · exact hl₁
  split
  exacts [hl₁.ctxSummary, hk.voteFlag]

/-! ### Programs -/

theorem Lane.Keeps.loadProgram {l : Lane} {p} (hk : l.Keeps κ) : (l.loadProgram p).Keeps κ := by
  unfold Lane.loadProgram
  extract_lets +onlyGivenNames code mem src g
  exact ⟨hk.reg, hk.sram.putBytes.putBytes, hk.cells, hk.ard, hk.rstat, hk.pstore⟩

theorem Lane.Keeps.keepOwned {l : Lane} (hk : l.Keeps κ) : l.keepOwned.Keeps κ := hk

theorem Lane.Keeps.restoreTask {l : Lane} {k} (hk : l.Keeps κ) : (l.restoreTask k).Keeps κ := by
  unfold Lane.restoreTask
  extract_lets +onlyGivenNames l₁
  have hl₁ : l₁.Keeps κ := hk.putVars
  exact hl₁

theorem Lane.Keeps.taskRuns {x y : Lane} {tnum : Nat} (hk : x.Keeps κ) (heq : x.taskRuns tnum = some y) : y.Keeps κ := by
  unfold Lane.taskRuns at heq
  split at heq
  · split at heq
    · cases heq
      exact hk
    · cases heq
  · cases heq

theorem Lane.Keeps.applyForces {l : Lane} (hk : l.Keeps κ) : l.applyForces.Keeps κ := hk.putVars

theorem Lane.Keeps.storeForces {l : Lane} (hk : l.Keeps κ) : l.storeForces.Keeps κ := by
  unfold Lane.storeForces
  split
  exacts [⟨hk.reg, hk.sram.putBytes, hk.cells, hk.ard, hk.rstat, hk.pstore⟩, hk]

theorem Lane.Keeps.clearQon {l : Lane} {c chs} (hk : l.Keeps κ) : (l.clearQon c chs).Keeps κ := by
  unfold Lane.clearQon
  split
  exacts [⟨hk.reg, hk.sram.putNat, hk.cells, hk.ard, hk.rstat, hk.pstore⟩, hk]

theorem Lane.Keeps.writeQlat {l : Lane} {c} (hk : l.Keeps κ) : (l.writeQlat c).Keeps κ := by
  unfold Lane.writeQlat
  split
  exacts [⟨hk.reg, hk.sram.putNat, hk.cells, hk.ard, hk.rstat, hk.pstore⟩, hk]

theorem Lane.Keeps.cutTask {l : Lane} {tnum} (hk : l.Keeps κ) : (l.cutTask tnum).Keeps κ := by
  unfold Lane.cutTask
  split
  · exact hk
  extract_lets +onlyGivenNames outs l₁
  have hl₁ : l₁.Keeps κ := hk.restoreTask.putVars.modTask
  exact hl₁.clearQon

theorem Lane.Keeps.stoppedImage {l : Lane} {c} (hk : l.Keeps κ) : (l.stoppedImage c).Keeps κ := by
  unfold Lane.stoppedImage
  extract_lets +onlyGivenNames outs x
  have hx : x.Keeps κ := hk.foldl fun _ _ hx => hx.restoreTask
  exact hx.putVars.clearQon

theorem Lane.Keeps.setMode {l : Lane} {m fault} (hk : l.Keeps κ) : (l.setMode m fault).Keeps κ := by
  unfold Lane.setMode
  extract_lets +onlyGivenNames back src p
  exact hk

theorem Lane.Keeps.modeAtCatch {l : Lane} (hk : l.Keeps κ) : l.modeAtCatch.Keeps κ := by
  unfold Lane.modeAtCatch
  split
  exacts [hk.setMode, hk]

theorem Lane.Keeps.taskException {l : Lane} {tnum pc code} (hk : l.Keeps κ) : (l.taskException tnum pc code).Keeps κ := by
  unfold Lane.taskException
  split
  · extract_lets +onlyGivenNames l₁
    have hl₁ : l₁.Keeps κ := (hk.taskRuns ‹_›).cutTask.modTask
    exact Lane.Keeps.note hl₁
  · exact hk

theorem Lane.Keeps.reachBreak {l : Lane} {tnum pc} (hk : l.Keeps κ) : (l.reachBreak tnum pc).Keeps κ := by
  unfold Lane.reachBreak
  split
  · split
    exacts [(hk.taskRuns ‹_›).cutTask.modTask, hk]
  · exact hk

theorem Lane.Keeps.trigger {l : Lane} {t p} (hk : l.Keeps κ) : (l.trigger t p).Keeps κ := by
  unfold Lane.trigger
  split
  exacts [hk.foldl fun _ _ hx => hx.modTask, hk]

theorem Lane.Keeps.fieldTriggers {l : Lane} {t} (hk : l.Keeps κ) : (l.fieldTriggers t).Keeps κ := hk.trigger

theorem Lane.Keeps.releaseEvent {l : Lane} {tnum t} (hk : l.Keeps κ) : (l.releaseEvent tnum t).Keeps κ := by
  unfold Lane.releaseEvent
  split
  · split
    exacts [hk.modTask, hk]
  · exact hk

theorem Lane.Keeps.takeAsks {l : Lane} {k a} (hk : l.Keeps κ) : (l.takeAsks k a).Keeps κ := by
  unfold Lane.takeAsks
  split
  exacts [hk, hk]

theorem Lane.Keeps.timerExpiry {l : Lane} {timer t} (hk : l.Keeps κ) : (l.timerExpiry timer t).Keeps κ := by
  unfold Lane.timerExpiry
  split
  exacts [Lane.Keeps.trigger hk, hk]

theorem Lane.Keeps.writeRetain {l : Lane} (hk : l.Keeps κ) : l.writeRetain.Keeps κ := by
  unfold Lane.writeRetain
  split
  · exact hk
  extract_lets +onlyGivenNames one bs y
  exact ⟨hk.reg, hk.sram.putBytes.putBytes, hk.cells, hk.ard, hk.rstat, hk.pstore⟩

theorem Lane.Keeps.loadRetain {l : Lane} {one} (hk : l.Keeps κ) : (l.loadRetain one).Keeps κ := by
  unfold Lane.loadRetain
  extract_lets +onlyGivenNames bs step l₁
  have hl₁ : l₁.Keeps κ := hk.putVars.keepOwned
  exact hl₁

theorem Lane.Keeps.retainDone {l : Lane} {ok} (hk : l.Keeps κ) : (l.retainDone ok).Keeps κ := hk

theorem State.Keeps.copyRetain {s : State} {dst lists i} (hk : s.Keeps κ) : (s.copyRetain dst lists i).Keeps κ := by
  unfold State.copyRetain
  extract_lets +onlyGivenNames x
  have hx : x.Keeps κ := hk.lane
  extract_lets +onlyGivenNames y
  clear_value y
  split
  · extract_lets +onlyGivenNames a x₁
    have hx₁ : x₁.Keeps κ := ⟨hx.reg, hx.sram.putBytes, hx.cells, hx.ard, hx.rstat, hx.pstore⟩
    refine hk.setLane ?_
    split
    exacts [hx₁.loadRetain.retainDone, hx₁.retainDone]
  · exact hk.setLane hx.retainDone

theorem State.Keeps.retainList {s : State} {dst src items} (hk : s.Keeps κ) : (s.retainList dst src items).Keeps κ := by
  unfold State.retainList
  extract_lets +onlyGivenNames x
  have hx : x.Keeps κ := hk.lane
  split
  · exact hk
  extract_lets +onlyGivenNames known lists src₁ s₁
  have hs₁ : s₁.Keeps κ := hk.setLane hx
  extract_lets +onlyGivenNames x₁
  have hx₁ : x₁.Keeps κ := hs₁.lane
  split
  · exact hs₁
  split
  · exact (hs₁.setLane hx₁.retainDone.note).flushNotes
  split
  exacts [hs₁.setLane hx₁.loadRetain.retainDone, hs₁.copyRetain]

theorem Lane.Keeps.setForce {x y : Lane} {vid : Word} {val : List Byte} (hk : x.Keeps κ) (heq : x.setForce vid val = some y) : y.Keeps κ := by
  unfold Lane.setForce at heq
  split at heq
  · dsimp only at heq
    split at heq
    · cases heq
      exact hk
    · cases heq
  · cases heq

theorem Lane.Keeps.clearForce {l : Lane} {vid} (hk : l.Keeps κ) : (l.clearForce vid).Keeps κ := hk

theorem Lane.Keeps.setCommission {l : Lane} {mask conns} (hk : l.Keeps κ) : (l.setCommission mask conns).Keeps κ := by
  unfold Lane.setCommission
  extract_lets +onlyGivenNames new gone keep sums src l₁
  have hl₁ : l₁.Keeps κ := hk
  exact Lane.Keeps.note (hl₁.foldl fun _ _ hx => hx.note)

theorem Lane.Keeps.countForced {l : Lane} (hk : l.Keeps κ) : l.countForced.Keeps κ := by
  unfold Lane.countForced
  extract_lets +onlyGivenNames set hit old new
  exact hk

/-! ### Online change -/

theorem State.Keeps.admitChange {s : State} {l seq drop bytes sig} (hk : s.Keeps κ) : (s.admitChange l seq drop bytes sig).Keeps κ := by
  unfold State.admitChange
  extract_lets +onlyGivenNames x
  have hx : x.Keeps κ := hk.lane
  extract_lets +onlyGivenNames g r m code mem c
  exact hk.setLane ⟨hx.reg, hx.sram.putBytes, hx.cells, hx.ard, hx.rstat, hx.pstore⟩

theorem Lane.Keeps.endChange {l : Lane} {status detail} (hk : l.Keeps κ) : (l.endChange status detail).Keeps κ := hk

theorem State.Keeps.prepareChange {s : State} {l} (hk : s.Keeps κ) : (s.prepareChange l).Keeps κ := by
  unfold State.prepareChange
  extract_lets +onlyGivenNames x
  have hx : x.Keeps κ := hk.lane
  extract_lets +onlyGivenNames vs all asked
  split
  · extract_lets +onlyGivenNames k₁ a build s₁
    have hs₁ : s₁.Keeps κ := ⟨hk.fuses, hk.pending, hk.now, hk.la, hk.lb, hk.lc, hk.hub, hk.flash0.programBlocks, hk.flash1⟩
    extract_lets +onlyGivenNames s₂
    have hs₂ : s₂.Keeps κ := hs₁.modLane fun _ hx => hx
    extract_lets +onlyGivenNames s₃
    have hs₃ : s₃.Keeps κ := hs₂.modHub fun _ hx => hx
    exact hs₃.gated
  · exact hk

theorem State.Keeps.judgeCarry {s : State} {dst} (hk : s.Keeps κ) : (s.judgeCarry dst).Keeps κ := by
  unfold State.judgeCarry
  extract_lets +onlyGivenNames x
  have hx : x.Keeps κ := hk.lane
  extract_lets +onlyGivenNames c mine vals
  split
  · exact hk
  split
  · split
    exacts [hk.setLane hx.endChange, State.Keeps.prepareChange (hk.setLane hx)]
  split
  · exact hk.enterEasy
  clear_value vals
  split
  · split
    · exact hk.setLane hx
    split
    exacts [hk, hk.enterEasy]
  · exact hk

theorem State.Keeps.carryDigest {s : State} {dst src d r} (hk : s.Keeps κ) : (s.carryDigest dst src d r).Keeps κ := by
  unfold State.carryDigest
  extract_lets +onlyGivenNames x
  have hx : x.Keeps κ := hk.lane
  split
  · exact hk
  extract_lets +onlyGivenNames c ps
  exact State.Keeps.judgeCarry (hk.setLane hx)

theorem State.Keeps.prepareReadback {s : State} {l e} (hk : s.Keeps κ) : (s.prepareReadback l e).Keeps κ := by
  unfold State.prepareReadback
  extract_lets +onlyGivenNames x
  have hx : x.Keeps κ := hk.lane
  split
  · split
    exacts [hk.setLane hx, hk]
  · exact hk

theorem Lane.Keeps.takeReady {l : Lane} {src} (hk : l.Keeps κ) : (l.takeReady src).Keeps κ := by
  unfold Lane.takeReady
  split
  exacts [hk, hk]

theorem Lane.Keeps.switchProgram {l : Lane} {g} (hk : l.Keeps κ) : (l.switchProgram g).Keeps κ := by
  unfold Lane.switchProgram
  extract_lets +onlyGivenNames c half mem mem₁ fates kept lost tasks blocks src p src₁ src₂ start
  exact Lane.Keeps.foldl (Lane.Keeps.keepOwned ⟨hk.reg, hk.sram.putBytes.foldl fun _ _ hx => hx.putBytes, hk.cells, hk.ard, hk.rstat,
    hk.pstore⟩) fun _ _ hx => hx.note

theorem State.Keeps.commitChange {s : State} {l} (hk : s.Keeps κ) : (s.commitChange l).Keeps κ := by
  unfold State.commitChange
  extract_lets +onlyGivenNames all wrote
  split
  · extract_lets +onlyGivenNames k₁ s₁
    have hs₁ : s₁.Keeps κ := hk.modLane fun _ hx => hx
    exact hs₁.jAppend
  · exact hk

theorem State.Keeps.changeSwitch {s : State} {l t} (hk : s.Keeps κ) : (s.changeSwitch l t).Keeps κ := by
  unfold State.changeSwitch
  extract_lets +onlyGivenNames x
  have hx : x.Keeps κ := hk.lane
  split
  · split
    · exact hk
    split
    · exact hk.setLane hx.endChange
    split
    exacts [hk.setLane hx.endChange, (hk.setLane hx.switchProgram).flushNotes.commitChange]
  · exact hk

theorem State.Keeps.changeCatch {s : State} {l tn} (hk : s.Keeps κ) : (s.changeCatch l tn).Keeps κ := by
  unfold State.changeCatch
  extract_lets +onlyGivenNames c
  split
  · exact hk
  extract_lets +onlyGivenNames y s₁
  have hs₁ : s₁.Keeps κ := hk.modLane fun _ hx => hx
  split
  exacts [hs₁.judgeCarry, hs₁.prepareChange.retryPrepare, hs₁.commitChange, hs₁]

theorem State.Keeps.commitReadback {s : State} {l e} (hk : s.Keeps κ) : (s.commitReadback l e).Keeps κ := by
  unfold State.commitReadback
  extract_lets +onlyGivenNames x
  have hx : x.Keeps κ := hk.lane
  split
  · split
    exacts [hk.setLane hx.endChange, hk]
  · exact hk

theorem State.Keeps.commitTimeout {s : State} (hk : s.Keeps κ) : s.commitTimeout.Keeps κ := by
  unfold State.commitTimeout
  extract_lets +onlyGivenNames late
  split
  · exact hk
  extract_lets +onlyGivenNames waits res id s₁
  have hs₁ : s₁.Keeps κ := hk.foldl fun _ _ hx => hx.modLane fun _ hx1 => hx1.endChange
  extract_lets +onlyGivenNames s₂
  have hs₂ : s₂.Keeps κ := hs₁.modHub fun _ hx => hx
  split
  exacts [hs₂.jAppend, hs₂]

/-! ### Commands carried to the lanes -/

theorem State.Keeps.answers_fst {s : State} {st} (hk : s.Keeps κ) : (answers s st).1.Keeps κ := hk

theorem State.Keeps.ite {s u : State} {p : Prop} [Decidable p] (hs : s.Keeps κ) (hu : u.Keeps κ) : (if p then s else u).Keeps κ := by
  split
  exacts [hs, hu]

/-- What a command answers keeps the charter: the module it leaves does. -/
def CmdResult.Keeps (κ : Charter) (r : CmdResult) : Prop := State.Keeps κ r.1

theorem CmdResult.Keeps.ite {r q : CmdResult} {p : Prop} [Decidable p] (hr : r.Keeps κ) (hq : q.Keeps κ) :
    CmdResult.Keeps κ (if p then r else q) := by
  split
  exacts [hr, hq]

theorem CmdResult.Keeps.leaving {s : State} {o : Option (Nat × Nat)} (hs : s.Keeps κ) : CmdResult.Keeps κ (s, o) := hs

theorem CmdResult.Keeps.answers {s : State} {st : Nat} (hs : s.Keeps κ) : CmdResult.Keeps κ (answers s st) := hs

theorem State.Keeps.keyLoad_fst {s : State} {l conn} (hk : s.Keeps κ) : (s.keyLoad l conn).1.Keeps κ := by
  unfold State.keyLoad
  extract_lets +onlyGivenNames x
  have hx : x.Keeps κ := hk.lane
  extract_lets +onlyGivenNames u area sect ks ok named
  split
  · exact hk.answers_fst
  extract_lets +onlyGivenNames keys
  exact State.Keeps.answers_fst (hk.setLane hx)

theorem Lane.Keeps.keySwitch {x y : Lane} {k slot : Nat} (hk : x.Keeps κ) (heq : x.keySwitch k slot = some y) : y.Keeps κ := by
  unfold Lane.keySwitch at heq
  split at heq
  · cases heq
    exact hk.modConn
  · cases heq

theorem State.Keeps.modeCmd_fst {s : State} {l from_ to_ bad} (hk : s.Keeps κ) : (s.modeCmd l from_ to_ bad).1.Keeps κ := by
  unfold State.modeCmd
  extract_lets +onlyGivenNames x
  have hx : x.Keeps κ := hk.lane
  split
  · exact hk.answers_fst
  split
  exacts [(hk.setLane hx.setMode).answers_fst, hk.answers_fst]

theorem State.Keeps.refuseForce_fst {s : State} {l st} (hk : s.Keeps κ) : (s.refuseForce l st).1.Keeps κ :=
  State.Keeps.answers_fst (State.Keeps.flushNotes (hk.modLane fun _ hx => hx.note))

theorem State.Keeps.forceSetCmd_fst {s : State} {l vid val} (hk : s.Keeps κ) : (s.forceSetCmd l vid val).1.Keeps κ := by
  unfold State.forceSetCmd
  extract_lets +onlyGivenNames x
  have hx : x.Keeps κ := hk.lane
  split
  · exact hk.refuseForce_fst
  split
  · exact hk.refuseForce_fst
  split
  exacts [(hk.setLane (hx.setForce ‹_›)).answers_fst, hk.refuseForce_fst]

theorem State.Keeps.forceClearCmd_fst {s : State} {l vid} (hk : s.Keeps κ) : (s.forceClearCmd l vid).1.Keeps κ := by
  unfold State.forceClearCmd
  extract_lets +onlyGivenNames x
  have hx : x.Keeps κ := hk.lane
  split
  · exact State.Keeps.answers_fst (hk.setLane hx)
  split
  exacts [(hk.setLane hx.clearForce).answers_fst, hk.answers_fst]

theorem State.Keeps.commissionCmd_fst {s : State} {l mask conns} (hk : s.Keeps κ) : (s.commissionCmd l mask conns).1.Keeps κ := by
  unfold State.commissionCmd
  extract_lets +onlyGivenNames x
  have hx : x.Keeps κ := hk.lane
  split
  exacts [(hk.setLane hx.setCommission).flushNotes.answers_fst, hk.answers_fst]

theorem Lane.Keeps.setBreak {l : Lane} {task addr} (hk : l.Keeps κ) : (l.setBreak task addr).Keeps κ := hk

theorem State.Keeps.applyCmd_fst {s : State} {l : LaneId} {d : CmdDesc} {tn : Nat} (hk : s.Keeps κ) : (s.applyCmd l d tn).1.Keeps κ := by
  have hx := hk.lane (l := l)
  unfold State.applyCmd
  generalize s.lane l = x at hx ⊢
  extract_lets +onlyGivenNames x' a op
  clear_value op
  change CmdResult.Keeps κ (if _ then _ else _)
  refine .ite ?keySwitch (.ite hk.keyLoad_fst (.ite ?connClose (.ite hk.modeCmd_fst (.ite hk.modeCmd_fst (.ite hk.modeCmd_fst (.ite ?change
    (.ite hk.forceSetCmd_fst (.ite hk.forceClearCmd_fst (.ite hk.commissionCmd_fst (.ite ?breakSet (.ite ?breakClear (.ite ?yield (.ite ?cal
    (.ite ?step (.answers hk)))))))))))))))
  case keySwitch =>
    split
    exacts [hk.setLane (hx.keySwitch ‹_›), hk]
  case connClose => exact .ite (.answers (hk.setLane hx.modConn)) (.answers hk)
  case change => exact .ite (.leaving hk) (.leaving hk.admitChange)
  case breakSet => exact .ite (.answers (hk.setLane hx.setBreak)) (.answers hk)
  case breakClear => exact .answers (hk.setLane hx)
  case yield => exact .ite (.answers (hk.setLane hx)) (.answers hk)
  case cal =>
    dsimp only
    exact .ite (.answers hk) (.ite (.answers (hk.calRequest.upLane fun _ hy => hy.fldFlag)) (.answers hk.calRequest))
  case step => exact .answers (.ite (hk.setLane hx) hk)

theorem State.Keeps.takeCmd {s : State} {l : LaneId} {d : CmdDesc} {tn : Nat} (hk : s.Keeps κ) : (s.takeCmd l d tn).Keeps κ := by
  have hr := hk.applyCmd_fst (l := l) (d := d) (tn := tn)
  unfold State.takeCmd
  generalize s.applyCmd l d tn = r at hr
  extract_lets +onlyGivenNames r' done s'
  have hs' : s'.Keeps κ := State.Keeps.modLane hr fun _ hx => hx
  refine hs'.modHub fun h hh => ?_
  extract_lets h'
  have hh' : h'.Keeps κ := hh.modMbx fun _ hm => hm
  split
  exacts [hh', hh']

/-! ### Readmission -/

theorem State.Keeps.readmit {s : State} {l} (hk : s.Keeps κ) : (s.readmit l).Keeps κ := by
  unfold State.readmit
  extract_lets +onlyGivenNames x
  have hx : x.Keeps κ := hk.lane
  split
  exacts [hk.setLane hx.fset, hk]

theorem State.Keeps.readmRequest {s : State} {dst src v} (hk : s.Keeps κ) : (s.readmRequest dst src v).Keeps κ := by
  unfold State.readmRequest
  extract_lets +onlyGivenNames x
  have hx : x.Keeps κ := hk.lane
  clear_value x
  extract_lets +onlyGivenNames y
  have hy : y.Keeps κ := hk.lane
  clear_value y
  split
  · exact hk
  split
  · extract_lets +onlyGivenNames src₁ s₁
    have hs₁ : s₁.Keeps κ := hk.setLane ⟨hx.reg, hx.sram, hx.cells, hx.ard, hx.rstat, hx.pstore⟩
    clear_value s₁
    exact hs₁.modLane fun _ hx => ⟨hx.reg, hx.sram, hx.cells, hx.ard, hx.rstat, hx.pstore⟩
  refine hk.setLane ?_
  extract_lets +onlyGivenNames src₁
  have hsrc₁ : src₁.Keeps κ := hy.fset.fset
  clear_value src₁
  exact ⟨hsrc₁.reg, hsrc₁.sram, hsrc₁.cells, hsrc₁.ard, hsrc₁.rstat, hsrc₁.pstore⟩

theorem Lane.Keeps.putPage {l : Lane} {page bytes} (hk : l.Keeps κ) : (l.putPage page bytes).Keeps κ := by
  unfold Lane.putPage
  split
  · exact hk.foldl fun _ _ hx => hx.setCell
  extract_lets +onlyGivenNames a
  split
  exacts [⟨hk.reg, hk.sram.putBytes, hk.cells, hk.ard, hk.rstat, hk.pstore⟩, hk.foldl fun _ _ hx => hx.putAreaWord]

theorem State.Keeps.readmPage {s : State} {dst src page ctx bytes crc again t} (hk : s.Keeps κ) :
    (s.readmPage dst src page ctx bytes crc again t).Keeps κ := by
  unfold State.readmPage
  extract_lets +onlyGivenNames x
  have hx : x.Keeps κ := hk.lane
  extract_lets +onlyGivenNames step
  split
  · exact hk
  split
  · split
    exacts [hk.setLane hx.abandonReadm, hk.setLane hx]
  split
  · exact hk.setLane hx.abandonReadm
  extract_lets +onlyGivenNames x₁
  have hx₁ : x₁.Keeps κ := hx.putPage
  extract_lets +onlyGivenNames got src₁ r
  exact hk.setLane hx₁.fset

theorem Lane.Keeps.fullPassDone {l : Lane} (hk : l.Keeps κ) : l.fullPassDone.Keeps κ := by
  unfold Lane.fullPassDone
  split
  exacts [hk.fset, hk]

theorem Lane.Keeps.readmHoldoff {l : Lane} (hk : l.Keeps κ) : l.readmHoldoff.Keeps κ := by
  unfold Lane.readmHoldoff
  split
  exacts [hk.fset, hk]

theorem Lane.Keeps.takeState {l d e : Lane} (hl : l.Keeps κ) (hd : d.Keeps κ) (he : e.Keeps κ) : (l.takeState d e).Keeps κ := by
  unfold Lane.takeState
  have hy : ((l.setRg TMR_STROKE_NO (d.rg TMR_STROKE_NO)).setRg FLDP_QLATCH (d.rg FLDP_QLATCH)).Keeps κ := hl.setRg.setRg
  generalize (l.setRg TMR_STROKE_NO (d.rg TMR_STROKE_NO)).setRg FLDP_QLATCH (d.rg FLDP_QLATCH) = y at hy
  exact ⟨hy.reg, hl.sram.takeState hd.sram he.sram, hd.cells.pageMix he.cells, hy.ard, hd.rstat.pageMix he.rstat, hd.pstore.pageMix he.pstore⟩

theorem State.Keeps.readmFinish {s : State} {l task c t} (hk : s.Keeps κ) : (s.readmFinish l task c t).Keeps κ := by
  unfold State.readmFinish
  extract_lets +onlyGivenNames x
  have hx : x.Keeps κ := hk.lane
  clear_value x
  split
  · exact hk
  extract_lets +onlyGivenNames y
  have hy : y.Keeps κ := hk.lane
  clear_value y
  split
  · extract_lets +onlyGivenNames src₁ s₁
    have hs₁ : s₁.Keeps κ := hk.setLane ⟨hx.reg, hx.sram, hx.cells, hx.ard, hx.rstat, hx.pstore⟩
    clear_value s₁
    split
    · refine hs₁.setLane ?_
      extract_lets +onlyGivenNames src₂
      have hsrc₂ : src₂.Keeps κ := hy.fset.fset
      clear_value src₂
      exact ⟨hsrc₂.reg, hsrc₂.sram, hsrc₂.cells, hsrc₂.ard, hsrc₂.rstat, hsrc₂.pstore⟩
    · exact hs₁
  split
  · extract_lets +onlyGivenNames ps others done d2
    have hd2 : d2.Keeps κ := by
      unfold d2
      split
      exacts [hk.lane, hx]
    clear_value d2
    refine hk.setLane ?_
    extract_lets +onlyGivenNames src₁
    have hsrc₁ : src₁.Keeps κ := hy.takeState hx hd2
    clear_value src₁
    exact ⟨hsrc₁.reg, hsrc₁.sram, hsrc₁.cells, hsrc₁.ard, hsrc₁.rstat, hsrc₁.pstore⟩
  · exact hk

theorem State.Keeps.readmCatch {s : State} {l : LaneId} (hk : s.Keeps κ) : (s.readmCatch l).Keeps κ := by
  unfold State.readmCatch
  have hx := hk.lane (l := l)
  generalize s.lane l = x at hx
  dsimp only
  split
  · exact hk.setLane hx
  split
  · split
    · have hy := (hx.fset (f := VOTE_READM_RSTEP) (v := 5)).fset (f := VOTE_STAT_INVOTE) (v := 1) |>.setVoters (set := allLanes)
      generalize ((x.fset VOTE_READM_RSTEP 5).fset VOTE_STAT_INVOTE 1).setVoters allLanes = y at hy
      exact hk.setLane hy
    · exact hk.setLane hx.abandonReadm
  split
  · generalize hz : ({ x with readm := { x.readm with catches := x.readm.catches + 1 } } : Lane) = z
    have hz : z.Keeps κ := hz ▸ hx
    split
    · have hy := (hz.fset (f := VOTE_READM_RSTEP) (v := 4)).fset (f := VOTE_STAT_MODE) (v := modeShadow)
      generalize (z.fset VOTE_READM_RSTEP 4).fset VOTE_STAT_MODE modeShadow = y at hy
      exact hk.setLane hy
    split
    exacts [hk.setLane hz.abandonReadm, hk.setLane hz]
  · exact hk

theorem State.Keeps.donorCatch {s : State} {l} (hk : s.Keeps κ) : (s.donorCatch l).Keeps κ := by
  unfold State.donorCatch
  extract_lets +onlyGivenNames x
  have hx : x.Keeps κ := hk.lane
  split
  · exact hk
  extract_lets +onlyGivenNames y
  have hy : y.Keeps κ := hk.lane
  extract_lets +onlyGivenNames ystep
  split
  · exact hk.setLane hx
  split
  · split
    · extract_lets +onlyGivenNames z
      have hz : z.Keeps κ := hx.setVoters
      exact hk.setLane hz
    · exact hk.setLane hx
  split
  · exact hk.setLane hx
  split
  · split
    exacts [hk.setLane hx, hk]
  split
  exacts [hk.setLane hx, hk]

end Sys2Proof.Machine
end

section
/-! PROOFS. What every command keeps, function by function: the stroke cycle, memory, records and bridges. -/

namespace Sys2Proof.Machine

variable {κ : Charter}

/-! ### The stroke cycle -/

/-- What a lane has frozen keeps the charter: the lane does. -/
def Frozen.Keeps (κ : Charter) (f : Frozen) : Prop := f.lane.Keeps κ

theorem Frozen.Keeps.check {f : Frozen} {c tn : Nat} {g : InTlg} (hk : f.Keeps κ) : (f.check c tn g).Keeps κ := by
  unfold Frozen.check
  split
  · split
    · exact hk
    split
    · split
      · dsimp only
        split
        exacts [hk, hk]
      · exact hk
    · exact Lane.Keeps.countTlg hk
  · split
    exacts [hk, hk]

theorem Lane.Keeps.writeRequests {l : Lane} {ts} (hk : l.Keeps κ) : (l.writeRequests ts).Keeps κ := by
  unfold Lane.writeRequests
  extract_lets +onlyGivenNames rs l₁
  have hl₁ : l₁.Keeps κ := hk.foldl fun _ _ hx => hx.setRgs
  extract_lets +onlyGivenNames excess src
  have hsrc : src.Keeps κ := hl₁.fset
  extract_lets +onlyGivenNames src₁ l₂
  have hl₂ : l₂.Keeps κ := hsrc
  exact hl₂.foldl fun _ _ hx => hx.note

theorem Lane.Keeps.writeSlots {l : Lane} {tn : Nat} (hk : l.Keeps κ) : (l.writeSlots tn).Keeps κ := by
  unfold Lane.writeSlots
  generalize upTo 512 = ks
  exact ⟨hk.reg, hk.sram.foldl fun _ _ hx => hx.slotPut, hk.cells, hk.ard, hk.rstat, hk.pstore⟩

theorem State.Keeps.showReady {s : State} (hk : s.Keeps κ) : s.showReady.Keeps κ := by
  unfold State.showReady
  extract_lets +onlyGivenNames n
  split
  exacts [hk.modHub fun _ hx => hx.fset, hk]

theorem State.Keeps.startResync {s : State} (hk : s.Keeps κ) : s.startResync.Keeps κ := by
  unfold State.startResync
  split
  · refine hk.modHub fun _ hx => ?_
    extract_lets +onlyGivenNames y
    have hy : y.Keeps κ := hx.fset.fset.fsat
    exact Hub.Keeps.fset hy
  refine hk.recHub.modHub fun _ hx => ?_
  extract_lets +onlyGivenNames y
  have hy : y.Keeps κ := hx.fset.fset
  exact hy

theorem State.Keeps.compareCatch {s : State} {l ts} (hk : s.Keeps κ) : (s.compareCatch l ts).Keeps κ := by
  unfold State.compareCatch
  extract_lets +onlyGivenNames x
  have hx : x.Keeps κ := hk.lane
  split
  · exact hk
  extract_lets +onlyGivenNames r s₁
  have hs₁ : s₁.Keeps κ := hk.setLane hx
  extract_lets +onlyGivenNames s₂
  have hs₂ : s₂.Keeps κ := hs₁.modHub fun _ hx => hx.fset.fsat
  extract_lets +onlyGivenNames s₃
  have hs₃ : s₃.Keeps κ := by
    unfold s₃
    split
    · exact hs₁
    split
    exacts [hs₂.recHub.startResync, hs₂]
  exact hs₃.showReady

theorem State.Keeps.hubYields {s : State} (hk : s.Keeps κ) : s.hubYields.Keeps κ := by
  unfold State.hubYields
  split
  exacts [hk.modHub fun _ hx => hx.fset.fset.fsat, hk]

theorem State.Keeps.yieldAt {s : State} {l ts} (hk : s.Keeps κ) : (s.yieldAt l ts).Keeps κ := by
  unfold State.yieldAt
  extract_lets +onlyGivenNames x
  have hx : x.Keeps κ := hk.lane
  split
  exacts [State.Keeps.hubYields (hk.setLane hx), hk]

theorem Lane.Keeps.tlgTriggers {l : Lane} {ts at_} (hk : l.Keeps κ) : (l.tlgTriggers ts at_).Keeps κ := by
  unfold Lane.tlgTriggers
  refine hk.foldl fun _ _ hx => ?_
  split
  exacts [hx.trigger, hx]

theorem State.Keeps.runCmds {s : State} {l k tn} (hk : s.Keeps κ) : (s.runCmds l k tn).Keeps κ := by
  unfold State.runCmds
  refine hk.foldl fun _ _ hx => ?_
  split
  exacts [hx.takeCmd, hx]

theorem Lane.Keeps.forceViews {l : Lane} {task tn} (hk : l.Keeps κ) : (l.forceViews task tn).Keeps κ := hk

theorem Lane.Keeps.beginCompute {l : Lane} {task} (hk : l.Keeps κ) : (l.beginCompute task).Keeps κ := by
  unfold Lane.beginCompute
  split
  · extract_lets +onlyGivenNames k₁ l₁
    have hl₁ : l₁.Keeps κ := hk.modTask
    split
    exacts [hl₁.restoreTask.applyForces.runBlocks, hl₁]
  · exact hk

theorem State.Keeps.process {s : State} {l task} (hk : s.Keeps κ) : (s.process l task).Keeps κ := by
  unfold State.process
  split
  · exact hk
  extract_lets +onlyGivenNames tn ts c s₁
  have hs₁ : s₁.Keeps κ := hk.yieldAt
  extract_lets +onlyGivenNames s₂
  have hs₂ : s₂.Keeps κ := by
    unfold s₂
    refine hs₁.modLane fun _ hx => ?_
    extract_lets +onlyGivenNames x₁
    have hx₁ : x₁.Keeps κ := hx.takeAll.tlgTriggers.fieldTriggers
    split
    exacts [hx₁, hx₁]
  extract_lets +onlyGivenNames s₃
  have hs₃ : s₃.Keeps κ := by
    unfold s₃
    split
    exacts [hs₂.runCmds.compareCatch, hs₂]
  refine State.Keeps.flushNotes ?_
  refine hs₃.modLane fun _ hx => ?_
  extract_lets +onlyGivenNames x₁
  have hx₁ : x₁.Keeps κ := hx.catchOutputs.writeQlat
  extract_lets +onlyGivenNames x₂
  have hx₂ : x₂.Keeps κ := by
    unfold x₂
    split
    exacts [hx₁.writeSlots.writeRequests, hx₁]
  extract_lets +onlyGivenNames x₃
  have hx₃ : x₃.Keeps κ := hx₂.applyForces
  exact hx₃.forceViews.beginCompute

theorem State.Keeps.forwardAdmitted {s : State} {l tn es} (hk : s.Keeps κ) : (s.forwardAdmitted l tn es).Keeps κ := by
  unfold State.forwardAdmitted
  split
  · exact hk
  extract_lets +onlyGivenNames st es₁ held tlgs put
  refine hk.modHub fun _ hx => ?_
  extract_lets +onlyGivenNames src y
  have hy : y.Keeps κ := Hub.Keeps.sendFrame hx
  exact hy.foldl fun _ _ hx1 => hx1.sendFrame

theorem State.Keeps.decideTask {s : State} {l task} (hk : s.Keeps κ) : (s.decideTask l task).Keeps κ := by
  unfold State.decideTask
  extract_lets +onlyGivenNames x
  have hx : x.Keeps κ := hk.lane
  split
  · exact hk
  split
  · exact hk
  extract_lets +onlyGivenNames fs r own cmds lack keys x₁
  have hx₁ : x₁.Keeps κ := by
    unfold x₁
    refine hx.foldl fun _ _ hx => ?_
    split
    exacts [hx.modConn.note, hx]
  extract_lets +onlyGivenNames a src x₂
  have hx₂ : x₂.Keeps κ := Lane.Keeps.agreeHolds ⟨hx₁.reg, hx₁.sram, hx₁.cells, hx₁.ard, hx₁.rstat, hx₁.pstore⟩
  extract_lets +onlyGivenNames x₃
  have hx₃ : x₃.Keeps κ := hx₂.modTask
  extract_lets +onlyGivenNames gone s₁
  have hs₁ : s₁.Keeps κ := (hk.setLane hx₃).flushNotes
  extract_lets +onlyGivenNames s₂
  have hs₂ : s₂.Keeps κ := hs₁.modHub fun _ hx => hx.modMbx fun _ hx1 => hx1
  extract_lets +onlyGivenNames s₃
  have hs₃ : s₃.Keeps κ := by
    unfold s₃
    split
    exacts [hs₂.forwardAdmitted, hs₂]
  split
  exacts [hs₃.process, hs₃]

theorem State.Keeps.tryDecide {s : State} {l task} (hk : s.Keeps κ) : (s.tryDecide l task).Keeps κ := by
  unfold State.tryDecide
  extract_lets +onlyGivenNames x
  have hx : x.Keeps κ := hk.lane
  split
  · split
    exacts [hk.decideTask, hk]
  · exact hk

theorem State.Keeps.linkCatch {s : State} {l due} (hk : s.Keeps κ) : (s.linkCatch l due).Keeps κ := by
  unfold State.linkCatch
  extract_lets +onlyGivenNames s₁
  have hs₁ : s₁.Keeps κ := hk.modLane fun _ hx => hx.takeLinks
  extract_lets +onlyGivenNames x
  have hx : x.Keeps κ := hs₁.lane
  split
  · exact hs₁
  extract_lets +onlyGivenNames stay
  split
  · exact hs₁.enterEasy
  split
  · exact hs₁.leave
  extract_lets +onlyGivenNames out kept all
  exact hs₁.setLane (Lane.Keeps.dropGone hx)

theorem Lane.Keeps.holdCheck {l : Lane} {src f t} (hk : l.Keeps κ) : (l.holdCheck src f t).Keeps κ := by
  unfold Lane.holdCheck
  split
  · exact hk
  extract_lets +onlyGivenNames offs others src₁ l₁
  have hl₁ : l₁.Keeps κ := hk
  split
  · exact hl₁
  extract_lets +onlyGivenNames ref el lim step src₂ l₂
  have hl₂ : l₂.Keeps κ := hl₁
  split
  exacts [hl₂, hl₂.fset]

theorem State.Keeps.consFrame {s : State} {dst src task f t} (hk : s.Keeps κ) : (s.consFrame dst src task f t).Keeps κ := by
  unfold State.consFrame
  extract_lets +onlyGivenNames x
  have hx : x.Keeps κ := hk.lane
  split
  · exact hk
  split
  · split
    exacts [hk, hk.setLane hx.countStray]
  split
  · exact hk
  extract_lets +onlyGivenNames x₁
  have hx₁ : x₁.Keeps κ := hx.holdCheck
  extract_lets +onlyGivenNames k₁ late
  split
  · exact hk.setLane hx₁
  extract_lets +onlyGivenNames x₂
  have hx₂ : x₂.Keeps κ := hx₁.modTask
  exact (hk.setLane hx₂).tryDecide

theorem State.Keeps.consDeadline {s : State} {l task t} (hk : s.Keeps κ) : (s.consDeadline l task t).Keeps κ := by
  unfold State.consDeadline
  extract_lets +onlyGivenNames x
  have hx : x.Keeps κ := hk.lane
  split
  · split
    · exact hk
    extract_lets +onlyGivenNames missing s₁
    have hs₁ : s₁.Keeps κ := by
      unfold s₁
      refine hk.foldl fun _ _ hx => ?_
      refine hx.modLane fun _ hx1 => ?_
      split
      exacts [hx1, hx1]
    split
    exacts [hs₁.enterEasy, hs₁.decideTask]
  · exact hk

theorem State.Keeps.fetchTlg {s : State} {dst src task bs} (hk : s.Keeps κ) : (s.fetchTlg dst src task bs).Keeps κ := by
  unfold State.fetchTlg
  extract_lets +onlyGivenNames x
  have hx : x.Keeps κ := hk.lane
  split
  · split
    · exact hk
    split
    · extract_lets +onlyGivenNames ds src₁ x₁
      have hx₁ : x₁.Keeps κ := hx
      extract_lets +onlyGivenNames s₁
      have hs₁ : s₁.Keeps κ := hk.setLane hx₁.modTask
      split
      exacts [hs₁.process, hs₁]
    extract_lets +onlyGivenNames id
    split
    · exact hk
    extract_lets +onlyGivenNames good rest x₁
    have hx₁ : x₁.Keeps κ := hx.modTask
    extract_lets +onlyGivenNames x₂
    have hx₂ : x₂.Keeps κ := by
      unfold x₂
      split
      exacts [hx₁, hx₁]
    extract_lets +onlyGivenNames s₁
    have hs₁ : s₁.Keeps κ := hk.setLane hx₂
    split
    exacts [hs₁.process, hs₁]
  · exact hk

theorem Lane.Keeps.reasonFlag {l : Lane} {r} (hk : l.Keeps κ) : (l.reasonFlag r).Keeps κ := by
  unfold Lane.reasonFlag
  split
  · exact hk.fset
  split
  exacts [hk.voteFlag, hk]

theorem Lane.Keeps.noteOverrun {l : Lane} {task us} (hk : l.Keeps κ) : (l.noteOverrun task us).Keeps κ := hk.fset.note

theorem Lane.Keeps.readyImage {l : Lane} {k task c} (hk : l.Keeps κ) : (l.readyImage k task c).Keeps κ := by
  unfold Lane.readyImage
  extract_lets +onlyGivenNames l₁
  have hl₁ : l₁.Keeps κ := by
    unfold l₁
    split
    exacts [hk, hk.stoppedImage]
  extract_lets +onlyGivenNames l₂
  have hl₂ : l₂.Keeps κ := hl₁.applyForces
  extract_lets +onlyGivenNames l₃
  have hl₃ : l₃.Keeps κ := by
    unfold l₃
    split
    exacts [hl₂.storeForces, hl₂]
  split
  exacts [hl₃.clearQon, hl₃]

theorem Lane.Keeps.handOver {l : Lane} {k task c t asks} (hk : l.Keeps κ) : (l.handOver k task c t asks).Keeps κ := by
  unfold Lane.handOver
  extract_lets +onlyGivenNames l₁
  have hl₁ : l₁.Keeps κ := hk.takeAsks
  split
  exacts [hl₁.readyImage.beginVote, hl₁]

theorem Lane.Keeps.countCompute {l : Lane} {us} (hk : l.Keeps κ) : (l.countCompute us).Keeps κ := hk.fset.fset

theorem State.Keeps.voteInstant {s : State} {l task finished us asks t} (hk : s.Keeps κ) : (s.voteInstant l task finished us asks t).Keeps κ := by
  unfold State.voteInstant
  extract_lets +onlyGivenNames x
  have hx : x.Keeps κ := hk.lane
  split
  · exact hk
  extract_lets +onlyGivenNames c
  split
  · exact hk
  extract_lets +onlyGivenNames s₁
  have hs₁ : s₁.Keeps κ := hk.linkCatch
  extract_lets +onlyGivenNames x₁
  have hx₁ : x₁.Keeps κ := hs₁.lane.dropGone.modTask.raise
  extract_lets +onlyGivenNames x₂
  have hx₂ : x₂.Keeps κ := by
    unfold x₂
    split
    · split
      exacts [hx₁.countCompute, hx₁]
    · exact hx₁.noteOverrun
  extract_lets +onlyGivenNames s₂
  have hs₂ : s₂.Keeps κ := (hs₁.setLane hx₂).flushNotes
  extract_lets +onlyGivenNames x₃
  have hx₃ : x₃.Keeps κ := hs₂.lane
  split
  · split
    exacts [hs₂.setLane hx₃.handOver, hs₂]
  split
  · exact hs₂
  split
  exacts [(hs₂.setLane hx₃.reasonFlag).leave, hs₂.setLane hx₃.handOver]

theorem Lane.Keeps.commitImage_fst {l : Lane} {split c t} (hk : l.Keeps κ) : (l.commitImage split c t).1.Keeps κ := by
  unfold Lane.commitImage
  extract_lets +onlyGivenNames l₁
  have hl₁ : l₁.Keeps κ := hk.adoptMemory
  extract_lets +onlyGivenNames l₂
  have hl₂ : l₂.Keeps κ := by
    unfold l₂
    split
    exacts [hl₁, hl₁.fset.fset]
  extract_lets +onlyGivenNames l₃
  have hl₃ : l₃.Keeps κ := by
    unfold l₃
    split
    exacts [hl₂.commitField, hl₂]
  exact hl₃.sendAll_fst

theorem State.Keeps.sendPages {s : State} {l} (hk : s.Keeps κ) : (s.sendPages l).Keeps κ := by
  unfold State.sendPages
  extract_lets +onlyGivenNames p
  split
  · exact hk
  split
  · exact hk.modHub fun _ hx => ⟨hx.reg, hx.sram, hx.mbxA, hx.mbxB, hx.mbxC⟩
  extract_lets +onlyGivenNames now out
  exact hk.modHub fun _ hx => ⟨hx.reg, hx.sram, hx.mbxA, hx.mbxB, hx.mbxC⟩

theorem State.Keeps.strokeFinish {s : State} {l} (hk : s.Keeps κ) : (s.strokeFinish l).Keeps κ := by
  unfold State.strokeFinish
  extract_lets +onlyGivenNames x
  have hx : x.Keeps κ := hk.lane
  extract_lets +onlyGivenNames cmp src
  have hsrc : src.Keeps κ := hx.writeRetain.countForced
  extract_lets +onlyGivenNames x₁
  have hx₁ : x₁.Keeps κ := hsrc
  extract_lets +onlyGivenNames out step src₁ s₁
  have hs₁ : s₁.Keeps κ := hk.setLane hx₁
  extract_lets +onlyGivenNames s₂
  have hs₂ : s₂.Keeps κ := hs₁.modHub fun _ hx => hx.modMbx fun _ hx1 => hx1
  extract_lets +onlyGivenNames s₃
  have hs₃ : s₃.Keeps κ := by
    unfold s₃
    split
    exacts [hs₂.modHub fun _ hx => hx.sendFrame, hs₂]
  extract_lets +onlyGivenNames s₄
  have hs₄ : s₄.Keeps κ := hs₃.sendPages
  refine State.Keeps.collectResults ?_
  split
  exacts [hs₄.leaveAtOnce, hs₄]

theorem Lane.Keeps.endTask {l : Lane} {task c t} (hk : l.Keeps κ) : (l.endTask task c t).Keeps κ := by
  unfold Lane.endTask
  extract_lets +onlyGivenNames now ran broke l₁
  have hl₁ : l₁.Keeps κ := hk.modTask
  extract_lets +onlyGivenNames l₂
  have hl₂ : l₂.Keeps κ := by
    unfold l₂
    split
    exacts [hl₁, hl₁]
  extract_lets +onlyGivenNames l₃
  have hl₃ : l₃.Keeps κ := hl₂.modCtx
  extract_lets +onlyGivenNames l₄
  have hl₄ : l₄.Keeps κ := by
    unfold l₄
    split
    exacts [hl₃.setMode, hl₃]
  exact hl₄

theorem State.Keeps.finishTask {s : State} {l task t} (hk : s.Keeps κ) : (s.finishTask l task t).Keeps κ := by
  unfold State.finishTask
  extract_lets +onlyGivenNames x
  have hx : x.Keeps κ := hk.lane
  split
  · exact hk
  extract_lets +onlyGivenNames c
  split
  · exact hk
  extract_lets +onlyGivenNames r
  have hr : r.1.Keeps κ := hx.commitImage_fst
  extract_lets +onlyGivenNames s₁
  have hs₁ : s₁.Keeps κ := by
    unfold s₁
    split
    exacts [(hk.setLane hr).modHub fun _ hx => hx.modMbx fun _ hx1 => hx1, hk]
  extract_lets +onlyGivenNames s₂
  have hs₂ : s₂.Keeps κ := by
    unfold s₂
    split
    exacts [hs₁.readmFinish, hs₁]
  extract_lets +onlyGivenNames s₃
  have hs₃ : s₃.Keeps κ := by
    unfold s₃
    split
    exacts [hs₂.strokeFinish, hs₂]
  exact hs₃.modLane fun _ hx => hx.endTask

theorem State.Keeps.firstCatch {s : State} {l : LaneId} (hk : s.Keeps κ) : (s.firstCatch l).Keeps κ := by
  unfold State.firstCatch
  have hx := hk.lane (l := l)
  generalize s.lane l = x at hx
  extract_lets +onlyGivenNames x' ps y s'
  have hy : y.Keeps κ := hx.fset.fset.setVoters
  clear_value y
  have hs : State.Keeps κ { s with phase := .running } := hk
  have hs' : s'.Keeps κ := (hs.setLane (x := { y with gone := [] }) hy).modHub fun _ hz => hz.modMbx fun _ hm => hm
  refine hs'.foldl fun _ _ hu => hu.modLane fun _ hw => ?_
  split
  exacts [hw.fset.fset, hw]

theorem State.Keeps.freeze {s : State} {l : LaneId} {task tn : Nat} (hk : s.Keeps κ) : (s.freeze l task tn).Keeps κ := by
  unfold State.freeze
  extract_lets +onlyGivenNames x c box f cmds chosen x₁ img x₂ frame src x₃ x₄
  have hf : f.Keeps κ := foldl_keeps (Frozen.Keeps κ) _ hk.lane fun _ _ h => h.check
  have h₂ : x₂.Keeps κ := Lane.Keeps.noteUnproven hf
  have h₃ : x₃.Keeps κ := by
    refine Lane.Keeps.raise ?_
    split
    exacts [h₂, h₂]
  have h₄ : x₄.Keeps κ := h₃.modTask
  exact (hk.setLane h₄).flushNotes.modHub fun _ hy => hy.modMbx fun _ hm => hm

theorem State.Keeps.strokeCatch {s : State} {l tn} (hk : s.Keeps κ) : (s.strokeCatch l tn).Keeps κ := by
  unfold State.strokeCatch
  extract_lets +onlyGivenNames s₁
  have hs₁ : s₁.Keeps κ := by
    unfold s₁
    refine hk.modLane fun _ hx => ?_
    extract_lets +onlyGivenNames x₁
    have hx₁ : x₁.Keeps κ := hx.setRg
    exact hx₁
  extract_lets +onlyGivenNames s₂
  have hs₂ : s₂.Keeps κ := hs₁.donorCatch
  extract_lets +onlyGivenNames s₃
  have hs₃ : s₃.Keeps κ := State.Keeps.changeCatch (hs₂.modLane fun _ hx => hx.modeAtCatch)
  extract_lets +onlyGivenNames x
  have hx : x.Keeps κ := hs₃.lane
  split
  exacts [State.Keeps.hubYields (hs₃.setLane hx), hs₃]

theorem Lane.Keeps.startConns {l : Lane} {c} (hk : l.Keeps κ) : (l.startConns c).Keeps κ := hk.foldl fun _ _ hx => hx.modConn

theorem State.Keeps.finishesAt {s : State} {l tn} (hk : s.Keeps κ) : (s.finishesAt l tn).Keeps κ := by
  unfold State.finishesAt
  extract_lets +onlyGivenNames x
  have hx : x.Keeps κ := hk.lane
  exact hk.foldl fun _ _ hx => hx.finishTask

theorem State.Keeps.catchTask {s : State} {l task tn} (hk : s.Keeps κ) : (s.catchTask l task tn).Keeps κ := by
  unfold State.catchTask
  extract_lets +onlyGivenNames x
  have hx : x.Keeps κ := hk.lane
  split
  · exact hk
  split
  · split
    · extract_lets +onlyGivenNames s₁
      have hs₁ : s₁.Keeps κ := hk.firstCatch.linkCatch
      split
      exacts [State.Keeps.tryDecide (State.Keeps.freeze (hs₁.strokeCatch.modLane fun _ hx => hx.startConns)), hs₁]
    · exact hk
  extract_lets +onlyGivenNames s₁
  have hs₁ : s₁.Keeps κ := hk.finishesAt
  extract_lets +onlyGivenNames s₂
  have hs₂ : s₂.Keeps κ := hs₁.changeSwitch.modLane fun _ hx => hx
  extract_lets +onlyGivenNames x₁
  have hx₁ : x₁.Keeps κ := hs₂.lane
  extract_lets +onlyGivenNames s₃
  have hs₃ : s₃.Keeps κ := by
    unfold s₃
    split
    exacts [hs₂.readmCatch, hs₂]
  extract_lets +onlyGivenNames s₄
  have hs₄ : s₄.Keeps κ := by
    unfold s₄
    refine hs₃.modLane fun _ hx => ?_
    split
    exacts [hx, hx]
  extract_lets +onlyGivenNames x₂
  have hx₂ : x₂.Keeps κ := hs₄.lane
  split
  · exact hs₄
  extract_lets +onlyGivenNames s₅
  have hs₅ : s₅.Keeps κ := by
    unfold s₅
    split
    exacts [hs₄.linkCatch, hs₄.modLane fun _ hx => hx.dropGone]
  extract_lets +onlyGivenNames x₃
  have hx₃ : x₃.Keeps κ := hs₅.lane
  split
  · exact hs₅
  extract_lets +onlyGivenNames s₆
  have hs₆ : s₆.Keeps κ := by
    unfold s₆
    split
    exacts [hs₅.strokeCatch, hs₅]
  exact State.Keeps.tryDecide (State.Keeps.freeze (hs₆.modLane fun _ hx => hx.startConns))

/-! ### On-chip memory -/

theorem Lane.Keeps.sramWrite {x y : Lane} {a n : Nat} {v : Word} (hk : x.Keeps κ) (heq : x.sramWrite a n v = some y) : y.Keeps κ := by
  unfold Lane.sramWrite at heq
  split at heq
  · cases heq
    exact ⟨hk.reg, hk.sram.putNat, hk.cells, hk.ard, hk.rstat, hk.pstore⟩
  · cases heq

theorem Hub.Keeps.putSram {h : Hub} {a bs} (hk : h.Keeps κ) : (h.putSram a bs).Keeps κ := by
  unfold Hub.putSram
  split
  exacts [hk.fset, ⟨hk.reg, hk.sram.putBytes, hk.mbxA, hk.mbxB, hk.mbxC⟩]

theorem Hub.Keeps.sramWrite {x y : Hub} {a n : Nat} {v : Word} (hk : x.Keeps κ) (heq : x.sramWrite a n v = some y) : y.Keeps κ := by
  unfold Hub.sramWrite at heq
  split at heq
  · cases heq
    exact hk.putSram
  · cases heq

theorem Hub.Keeps.corrected {h : Hub} {a} (hk : h.Keeps κ) : (h.corrected a).Keeps κ := hk.fsat.fset.setRg

theorem Hub.Keeps.uncorrectable {h : Hub} {a} (hk : h.Keeps κ) : (h.uncorrectable a).Keeps κ := hk.fset.setRg

theorem Hub.Keeps.portUncorrectable {h : Hub} {a} (hk : h.Keeps κ) : (h.portUncorrectable a).Keeps κ := by
  unfold Hub.portUncorrectable
  extract_lets +onlyGivenNames y
  have hy : y.Keeps κ := hk.uncorrectable
  split
  exacts [hy.fsat, hy]

theorem State.Keeps.laneSram {s : State} {l a n nerr acc} (hk : s.Keeps κ) : (s.laneSram l a n nerr acc).Keeps κ := by
  unfold State.laneSram
  split
  · exact hk.laneRead
  split
  · exact hk.busErr
  split
  · exact (hk.setLane (hk.lane.sramWrite ‹_›)).busOk
  split
  exacts [(hk.setLane (hk.lane.sramWrite ‹_›).corrected).busOk, hk.laneUncorrectable.busErr]

theorem State.Keeps.hubSram {s : State} {a n nerr acc} (hk : s.Keeps κ) : (s.hubSram a n nerr acc).Keeps κ := by
  unfold State.hubSram
  split
  · split
    · exact hk.busErr
    split
    · exact hk.busData
    split
    exacts [State.Keeps.busData (hk.modHub fun _ hx => hx.corrected), State.Keeps.busErr (hk.modHub fun _ hx => hx.portUncorrectable)]
  split
  · exact hk.busErr
  split
  · exact State.Keeps.busOk ⟨hk.fuses, hk.pending, hk.now, hk.la, hk.lb, hk.lc, hk.hub.sramWrite ‹_›, hk.flash0, hk.flash1⟩
  split
  exacts [State.Keeps.busOk ⟨hk.fuses, hk.pending, hk.now, hk.la, hk.lb, hk.lc, (hk.hub.sramWrite ‹_›).corrected, hk.flash0, hk.flash1⟩,
    State.Keeps.busErr (hk.modHub fun _ hx => hx.portUncorrectable)]

theorem State.Keeps.scrubStep {s : State} {l : LaneId} (hk : s.Keeps κ) : (s.scrubStep l).Keeps κ := by
  cases l <;> exact hk

theorem State.Keeps.scrubRead {s : State} {m nerr} (hk : s.Keeps κ) : (s.scrubRead m nerr).Keeps κ := by
  unfold State.scrubRead
  split
  · extract_lets +onlyGivenNames a₁ s₁
    have hs₁ : s₁.Keeps κ := hk.scrubStep
    split
    · exact hs₁
    split
    exacts [hs₁.modLane fun _ hx => hx.corrected, hs₁.laneUncorrectable]
  · extract_lets +onlyGivenNames a
    refine hk.modHub fun _ hx => ?_
    extract_lets +onlyGivenNames y
    have hy : y.Keeps κ := hx
    split
    · exact hy
    split
    exacts [hy.corrected, hy.uncorrectable]
  · exact hk

theorem Mailbox.Keeps.put {m : Mailbox} {off n v} (hk : m.Keeps κ) : (m.put off n v).Keeps κ := hk.mem.putNat

theorem State.Keeps.countClash {s : State} {mbx byHub hit busy} (hk : s.Keeps κ) : (s.countClash mbx byHub hit busy).Keeps κ := by
  unfold State.countClash
  split
  · exact hk
  split
  · refine hk.modHub fun _ hx => ?_
    extract_lets +onlyGivenNames y
    have hy : y.Keeps κ := hx.fset
    split
    exacts [hy.fset, hy]
  refine hk.modLane fun _ hx => ?_
  extract_lets +onlyGivenNames x₁
  have hx₁ : x₁.Keeps κ := hx.fset
  split
  exacts [hx₁.fset, hx₁]

theorem State.Keeps.mailboxAccess {s : State} {mbx byHub off w acc clash nerr} (hk : s.Keeps κ) :
    (s.mailboxAccess mbx byHub off w acc clash nerr).Keeps κ := by
  unfold State.mailboxAccess
  extract_lets +onlyGivenNames off₁ gone
  split
  · exact hk
  split
  · exact hk.busErr
  extract_lets +onlyGivenNames c s₁
  have hs₁ : s₁.Keeps κ := hk.countClash
  extract_lets +onlyGivenNames m
  have hm : m.Keeps κ := hs₁.hub.mbx
  extract_lets +onlyGivenNames bad ue
  have hue : ∀ (s : State), s.Keeps κ → (ue s).Keeps κ := by
    intro s hx
    unfold ue
    extract_lets +onlyGivenNames s₂
    have hs₂ : s₂.Keeps κ := hx.modHub fun _ hx => hx.modMbx fun _ hx1 => hx1
    refine State.Keeps.busErr ?_
    split
    exacts [hs₂.modHub fun _ hx => hx.fsat, hs₂]
  split
  · split
    exacts [hue _ hs₁, State.Keeps.busOk (hs₁.modHub fun _ hx => hx.modMbx fun _ hx1 => hx1.put)]
  split
  · extract_lets +onlyGivenNames d
    have hd : d.2.Keeps κ := hs₁.draw
    exact hd.busData
  split
  exacts [hue _ hs₁, hs₁.busData]

theorem Hub.Keeps.hostClash {h : Hub} {hit busy t} (hk : h.Keeps κ) : (h.hostClash hit busy t).Keeps κ := by
  unfold Hub.hostClash
  split
  · exact hk
  extract_lets +onlyGivenNames y
  have hy : y.Keeps κ := hk.fset
  extract_lets +onlyGivenNames y₁
  have hy₁ : y₁.Keeps κ := by
    unfold y₁
    split
    exacts [hy.fset, hy]
  exact hy₁

theorem State.Keeps.hostWindow {s : State} {off w acc clash t} (hk : s.Keeps κ) : (s.hostWindow off w acc clash t).Keeps κ := by
  unfold State.hostWindow
  extract_lets +onlyGivenNames n
  split
  · exact hk.busErr
  split
  · extract_lets +onlyGivenNames s₁
    have hs₁ : s₁.Keeps κ := hk.modHub fun _ hx => hx.hostFlag
    split
    exacts [hs₁.busData, hs₁.busOk]
  extract_lets +onlyGivenNames c s₁
  have hs₁ : s₁.Keeps κ := hk.modHub fun _ hx => hx.hostClash
  extract_lets +onlyGivenNames a
  split
  · split
    exacts [State.Keeps.busOk ⟨hs₁.fuses, hs₁.pending, hs₁.now, hs₁.la, hs₁.lb, hs₁.lc, hs₁.hub.sramWrite ‹_›, hs₁.flash0, hs₁.flash1⟩, hs₁.busErr]
  split
  · extract_lets +onlyGivenNames d
    have hd : d.2.Keeps κ := hs₁.draw
    exact hd.busData
  split
  · exact hs₁.busData
  split
  exacts [hs₁.busData, hs₁.busErr]

theorem State.Keeps.hbusyRelease {s : State} {t} (hk : s.Keeps κ) : (s.hbusyRelease t).Keeps κ := by
  unfold State.hbusyRelease
  split
  exacts [hk.modHub fun _ hx => hx, hk]

theorem Hub.Keeps.testBank_fst {h : Hub} {upset n} (hk : h.Keeps κ) : (h.testBank upset n).1.Keeps κ := by
  unfold Hub.testBank
  extract_lets +onlyGivenNames inside copy wrong back
  split
  exacts [⟨hk.reg, RamKeeps.foldl (hk.sram.clear.foldl fun _ _ hx => hx.put) fun _ _ hx => hx.put, hk.mbxA, hk.mbxB, hk.mbxC⟩, ⟨hk.reg,
    RamKeeps.clear (RamKeeps.foldl (hk.sram.clear.foldl fun _ _ hx => hx.put) fun _ _ hx => hx.put), hk.mbxA, hk.mbxB, hk.mbxC⟩]

theorem Hub.Keeps.testRetained_fst {h : Hub} {upset} (hk : h.Keeps κ) : (h.testRetained upset).1.Keeps κ := by
  unfold Hub.testRetained
  refine hk.foldl_fst fun _ _ hx => ?_
  extract_lets +onlyGivenNames y₁
  have hy₁ : y₁.1.Keeps κ := hx.testBank_fst
  split
  exacts [hy₁.fset.fset, hy₁]

theorem Hub.Keeps.retainEntry {h : Hub} {lost : BitVec 4} (hk : h.Keeps κ) : (h.retainEntry lost).Keeps κ := by
  unfold Hub.retainEntry
  extract_lets +onlyGivenNames q canary src h'
  have hc : ∀ (m : List Host.Cell) (n : Nat), RamKeeps κ m → RamKeeps κ (canary m n) := by
    intro m n hm
    unfold canary
    split
    exacts [hm, hm.putNat.putNat]
  have hsrc : src.Keeps κ := hk.setRg
  have hh' : h'.Keeps κ := ⟨hsrc.reg, hk.sram.foldl hc, hsrc.mbxA, hsrc.mbxB, hsrc.mbxC⟩
  refine hh'.fset.foldl fun _ _ hx => ?_
  split
  exacts [hx, hx.setRg]

theorem Hub.Keeps.wakeBank {h : Hub} {n} (hk : h.Keeps κ) : (h.wakeBank n).Keeps κ := by
  unfold Hub.wakeBank
  extract_lets +onlyGivenNames rv rf
  split
  · exact hk.fset.fset
  extract_lets +onlyGivenNames src
  have hsrc : src.Keeps κ := hk.fset.fset
  clear_value src
  exact ⟨hsrc.reg, hk.sram.clear, hsrc.mbxA, hsrc.mbxB, hsrc.mbxC⟩

theorem State.Keeps.wakeCheck {s : State} (hk : s.Keeps κ) : s.wakeCheck.Keeps κ := by
  unfold State.wakeCheck
  extract_lets +onlyGivenNames s₁
  have hs₁ : s₁.Keeps κ := hk.modHub fun _ hx => Hub.Keeps.fset (hx.foldl fun _ _ hx1 => hx1.wakeBank)
  refine hs₁.foldl fun _ _ hx => ?_
  split
  exacts [hx.recHub, hx]

/-! ### Records and check units -/

theorem Hub.Keeps.showThrottle {h : Hub} (hk : h.Keeps κ) : h.showThrottle.Keeps κ := hk.fset

theorem Hub.Keeps.newRecord {h : Hub} {x gap} (hk : h.Keeps κ) : (h.newRecord x gap).Keeps κ := by
  unfold Hub.newRecord
  extract_lets +onlyGivenNames r s r₁ r₂
  exact Hub.Keeps.showThrottle (Hub.Keeps.setRg (Hub.Keeps.putSram hk))

theorem Hub.Keeps.takeRecord {h : Hub} {x} (hk : h.Keeps κ) : (h.takeRecord x).Keeps κ := by
  unfold Hub.takeRecord
  split
  · split
    · extract_lets +onlyGivenNames s v src y₁
      have hy₁ : y₁.Keeps κ := hk
      exact hy₁.putSram
    · exact hk.newRecord
  · exact hk.newRecord

theorem Hub.Keeps.recordNext {h : Hub} (hk : h.Keeps κ) : h.recordNext.Keeps κ := by
  unfold Hub.recordNext
  split
  · exact hk
  split
  exacts [hk, Hub.Keeps.takeRecord hk]

theorem Hub.Keeps.gapDropped {h : Hub} {t} (hk : h.Keeps κ) : (h.gapDropped t).Keeps κ := by
  unfold Hub.gapDropped
  split
  · exact hk
  extract_lets +onlyGivenNames x
  have hx : x.Keeps κ := hk.newRecord
  exact hx

theorem State.Keeps.writeChunk {s : State} {c} (hk : s.Keeps κ) : (s.writeChunk c).Keeps κ := by
  unfold State.writeChunk
  extract_lets +onlyGivenNames m
  have hm : FlashKeeps κ m := by
    unfold m
    split
    exacts [hk.flash1.erase, hk.flash1]
  extract_lets +onlyGivenNames m₁
  have hm₁ : FlashKeeps κ m₁ := hm.foldl fun _ _ hx => hx.putBytes
  exact State.Keeps.modHub ⟨hk.fuses, hk.pending, hk.now, hk.la, hk.lb, hk.lc, hk.hub, hk.flash0, hm₁⟩ fun _ hx => hx.setRg

theorem State.Keeps.chunkWritten {s : State} (hk : s.Keeps κ) : s.chunkWritten.Keeps κ := by
  unfold State.chunkWritten
  split
  · exact hk
  split
  exacts [hk, hk.writeChunk.modHub fun _ hx => Hub.Keeps.showThrottle hx]

theorem State.Keeps.recFlushAll {s : State} (hk : s.Keeps κ) : s.recFlushAll.Keeps κ := by
  unfold State.recFlushAll
  extract_lets +onlyGivenNames r opened s₁
  have hs₁ : s₁.Keeps κ := hk.foldl fun _ _ hx => hx.writeChunk
  exact hs₁.modHub fun _ hx => Hub.Keeps.fset (Hub.Keeps.showThrottle hx)

theorem State.Keeps.recStart {s : State} {t} (hk : s.Keeps κ) : (s.recStart t).Keeps κ := by
  unfold State.recStart
  extract_lets +onlyGivenNames fr rr fm head taken page missing gone
  refine hk.modHub fun _ hx => ?_
  extract_lets +onlyGivenNames src r y
  have hy : y.Keeps κ := Hub.Keeps.setRg (Hub.Keeps.fset hx)
  extract_lets +onlyGivenNames y₁
  have hy₁ : y₁.Keeps κ := hy.newRecord
  extract_lets +onlyGivenNames y₂
  have hy₂ : y₂.Keeps κ := by
    unfold y₂
    split
    exacts [hy₁.newRecord, hy₁]
  clear_value missing
  split
  exacts [hy₂.newRecord.fset, hy₂]

theorem Lane.Keeps.showCrc {l : Lane} (hk : l.Keeps κ) : l.showCrc.Keeps κ := by
  unfold Lane.showCrc
  extract_lets +onlyGivenNames r
  exact hk.setRg.setRg

theorem Lane.Keeps.crcStart {l : Lane} {v} (hk : l.Keeps κ) : (l.crcStart v).Keeps κ := by
  unfold Lane.crcStart
  extract_lets +onlyGivenNames l₁
  have hl₁ : l₁.Keeps κ := hk.setRg
  split
  · exact hl₁
  split
  exacts [hl₁.fset, Lane.Keeps.showCrc (Lane.Keeps.setRg hl₁)]

theorem Lane.Keeps.crcData {l : Lane} {w v} (hk : l.Keeps κ) : (l.crcData w v).Keeps κ := by
  unfold Lane.crcData
  split
  exacts [Lane.Keeps.showCrc hk, hk.fset.raise]

theorem Hub.Keeps.setCrc {h : Hub} {u c} (hk : h.Keeps κ) : (h.setCrc u c).Keeps κ := by
  unfold Hub.setCrc
  extract_lets +onlyGivenNames y
  have hy : y.Keeps κ := by
    unfold y
    split
    exacts [hk, hk]
  extract_lets +onlyGivenNames r
  exact hy.setRg.setRg

theorem Hub.Keeps.crcStart {h : Hub} {u req v} (hk : h.Keeps κ) : (h.crcStart u req v).Keeps κ := by
  unfold Hub.crcStart
  extract_lets +onlyGivenNames y
  have hy : y.Keeps κ := hk.setRg
  split
  · exact hy
  split
  exacts [hy.fset, hy.setRg.setCrc]

theorem Hub.Keeps.crcData {h : Hub} {u req w v} (hk : h.Keeps κ) : (h.crcData u req w v).Keeps κ := by
  unfold Hub.crcData
  split
  exacts [hk.setCrc, hk.fset]

theorem State.Keeps.crcStart {s : State} {m req v} (hk : s.Keeps κ) : (s.crcStart m req v).Keeps κ := by
  unfold State.crcStart
  split
  exacts [hk.upLane fun _ hx => hx.crcStart, hk.upHub fun _ hx => hx.crcStart, hk.upHub fun _ hx => hx.crcStart]

theorem State.Keeps.crcData {s : State} {m req w v} (hk : s.Keeps κ) : (s.crcData m req w v).Keeps κ := by
  unfold State.crcData
  split
  exacts [hk.upLane fun _ hx => hx.crcData, hk.upHub fun _ hx => hx.crcData, hk.upHub fun _ hx => hx.crcData]

/-! ### Bridges -/

theorem Lane.Keeps.brgShow {l : Lane} (hk : l.Keeps κ) : l.brgShow.Keeps κ := by
  unfold Lane.brgShow
  extract_lets +onlyGivenNames b l₁
  have hl₁ : l₁.Keeps κ := hk.fset.fset
  extract_lets +onlyGivenNames l₂
  have hl₂ : l₂.Keeps κ := hl₁.setRg
  extract_lets +onlyGivenNames l₃
  have hl₃ : l₃.Keeps κ := by
    unfold l₃
    split
    exacts [hl₂.setRg, hl₂.setRg]
  split
  · extract_lets +onlyGivenNames i
    exact hl₃.setRg.setRg
  · exact hl₃.setRg.setRg

theorem Lane.Keeps.brgErr {l : Lane} {e} (hk : l.Keeps κ) : (l.brgErr e).Keeps κ := by
  unfold Lane.brgErr
  refine Lane.Keeps.brgShow ?_
  split
  exacts [hk, hk.fset]

theorem Lane.Keeps.countDiscard {l : Lane} {w n} (hk : l.Keeps κ) : (l.countDiscard w n).Keeps κ := by
  unfold Lane.countDiscard
  extract_lets +onlyGivenNames hit i
  split
  exacts [Lane.Keeps.brgShow hk, hk]

theorem Lane.Keeps.issueRead {l : Lane} {r t} (hk : l.Keeps κ) : (l.issueRead r t).Keeps κ := by
  unfold Lane.issueRead
  split
  exacts [hk, hk]

theorem Lane.Keeps.issueWaiting {n : Nat} {x : Lane} {t : Nat} (hk : x.Keeps κ) : (x.issueWaiting t n).Keeps κ := by
  induction n generalizing x with
  | zero => exact hk.brgShow
  | succ n ih =>
    unfold Lane.issueWaiting
    split
    · split
      · exact ih (Lane.Keeps.issueRead hk)
      · exact hk.brgShow
    · exact hk.brgShow

theorem Lane.Keeps.dropRead {l : Lane} {k} (hk : l.Keeps κ) : (l.dropRead k).Keeps κ := hk

theorem Lane.Keeps.restTag {l : Lane} {k t} (hk : l.Keeps κ) : (l.restTag k t).Keeps κ := hk

theorem Lane.Keeps.forgetRead {l : Lane} {r} (hk : l.Keeps κ) : (l.forgetRead r).Keeps κ := hk

theorem State.Keeps.readFails {s : State} {l r code t} (hk : s.Keeps κ) : (s.readFails l r code t).Keeps κ :=
  State.Keeps.trapOnError (State.Keeps.busErr (hk.modLane fun _ hx => hx.forgetRead.brgErr.issueWaiting))

theorem State.Keeps.attemptFails {s : State} {l r code t} (hk : s.Keeps κ) : (s.attemptFails l r code t).Keeps κ := by
  unfold State.attemptFails
  extract_lets +onlyGivenNames n
  split
  exacts [hk.readFails, hk.modLane fun _ hx => hx.issueRead.forgetRead.brgShow]

theorem State.Keeps.brgUnaligned {s : State} {l a write} (hk : s.Keeps κ) : (s.brgUnaligned l a write).Keeps κ := by
  unfold State.brgUnaligned
  extract_lets +onlyGivenNames d
  have hd : d.2.Keeps κ := hk.draw
  exact State.Keeps.busErr (hd.modLane fun _ hx => hx.brgErr)

theorem State.Keeps.brgReadStart {s : State} {l a w t} (hk : s.Keeps κ) : (s.brgReadStart l a w t).Keeps κ := by
  unfold State.brgReadStart
  extract_lets +onlyGivenNames x
  have hx : x.Keeps κ := hk.lane
  extract_lets +onlyGivenNames k₁
  split
  · exact hk.busErr
  split
  · exact hk.brgUnaligned
  split
  · exact (hk.setLane hx.brgErr).busErr
  split
  · exact (hk.setLane hx.brgErr).busErr
  extract_lets +onlyGivenNames r
  exact State.Keeps.busOk (hk.setLane (Lane.Keeps.issueWaiting hx))

theorem State.Keeps.bridgeRead {s : State} {l a w t} (hk : s.Keeps κ) : (s.bridgeRead l a w t).Keeps κ := hk.brgReadStart.trapOnError

theorem State.Keeps.bridgeResponse {s : State} {l tag err t} (hk : s.Keeps κ) : (s.bridgeResponse l tag err t).Keeps κ := by
  unfold State.bridgeResponse
  extract_lets +onlyGivenNames x
  have hx : x.Keeps κ := hk.lane
  split
  · exact hk.setLane hx.fsat.fset
  extract_lets +onlyGivenNames a e e₁
  split
  · exact (hk.setLane hx.dropRead.issueWaiting).busData
  extract_lets +onlyGivenNames s₁
  have hs₁ : s₁.Keeps κ := by
    unfold s₁
    split
    exacts [hk.modHub fun _ hx => hx.portUncorrectable, hk]
  exact hs₁.attemptFails

theorem State.Keeps.bridgeTimeout {s : State} {l tag t} (hk : s.Keeps κ) : (s.bridgeTimeout l tag t).Keeps κ := by
  unfold State.bridgeTimeout
  split
  · split
    exacts [State.Keeps.attemptFails (hk.modLane fun _ hx => hx.restTag), hk]
  · exact hk

theorem State.Keeps.bridgeBudget {s : State} {l tag t} (hk : s.Keeps κ) : (s.bridgeBudget l tag t).Keeps κ := by
  unfold State.bridgeBudget
  extract_lets +onlyGivenNames x
  have hx : x.Keeps κ := hk.lane
  extract_lets +onlyGivenNames spent
  split
  · exact State.Keeps.readFails (hk.modLane fun _ hx => hx.restTag)
  split
  exacts [hk.readFails, hk]

theorem Lane.Keeps.quarEnd {l : Lane} {tag t} (hk : l.Keeps κ) : (l.quarEnd tag t).Keeps κ := Lane.Keeps.issueWaiting hk

theorem Lane.Keeps.yieldHeld {l : Lane} {t} (hk : l.Keeps κ) : (l.yieldHeld t).Keeps κ := by
  unfold Lane.yieldHeld
  split
  · split
    exacts [hk.dropRead.restTag.issueRead.fsat.brgShow, hk]
  · exact hk

theorem State.Keeps.hubExportRead {s : State} {l a} (hk : s.Keeps κ) : (s.hubExportRead l a).Keeps κ := by
  unfold State.hubExportRead
  extract_lets +onlyGivenNames x
  have hx : x.Keeps κ := hk.lane
  split
  · exact hk.busErr
  split
  exacts [(hk.setLane hx.yieldHeld).busData, (hk.setLane hx.fsat).busErr]

theorem Lane.Keeps.dropWrite {l : Lane} {i} (hk : l.Keeps κ) : (l.dropWrite i).Keeps κ := hk

theorem Lane.Keeps.dropStream {n : Nat} {x : Lane} {w : Nat} (hk : x.Keeps κ) : (x.dropStream w n).Keeps κ := by
  induction n generalizing x with
  | zero => exact hk
  | succ n ih =>
    unfold Lane.dropStream
    split
    exacts [ih hk.dropWrite, hk]

theorem State.Keeps.brgWriteStart {s : State} {l a w v t} (hk : s.Keeps κ) : (s.brgWriteStart l a w v t).Keeps κ := by
  unfold State.brgWriteStart
  extract_lets +onlyGivenNames x
  have hx : x.Keeps κ := hk.lane
  extract_lets +onlyGivenNames k₁
  split
  · exact hk.busErr
  split
  · exact hk.brgUnaligned
  split
  · exact (hk.setLane hx.brgErr).busErr
  split
  · exact (hk.setLane hx.countDiscard).busOk
  extract_lets +onlyGivenNames p
  exact State.Keeps.busOk (hk.setLane hx)

theorem State.Keeps.bridgeWrite {s : State} {l a w v t} (hk : s.Keeps κ) : (s.bridgeWrite l a w v t).Keeps κ := hk.brgWriteStart.trapOnError

theorem Lane.Keeps.writeFails {l : Lane} {p code} (hk : l.Keeps κ) : (l.writeFails p code).Keeps κ := by
  unfold Lane.writeFails
  extract_lets +onlyGivenNames n l₁
  have hl₁ : l₁.Keeps κ := hk.dropStream
  extract_lets +onlyGivenNames l₂
  have hl₂ : l₂.Keeps κ := hl₁.setRg
  exact hl₂.brgErr

theorem State.Keeps.bridgeAck {s : State} {l win err} (hk : s.Keeps κ) : (s.bridgeAck l win err).Keeps κ := by
  unfold State.bridgeAck
  extract_lets +onlyGivenNames x
  have hx : x.Keeps κ := hk.lane
  split
  · exact hk
  split
  · exact hk
  split
  · exact hk
  extract_lets +onlyGivenNames a e
  split
  · exact hk.setLane hx.writeFails
  split
  exacts [State.Keeps.setLane ⟨hk.fuses, hk.pending, hk.now, hk.la, hk.lb, hk.lc, hk.hub.sramWrite ‹_›, hk.flash0, hk.flash1⟩ hx.dropWrite,
    hk.setLane hx.writeFails]

theorem Lane.Keeps.writeTimeout {l : Lane} {win t} (hk : l.Keeps κ) : (l.writeTimeout win t).Keeps κ := by
  unfold Lane.writeTimeout
  split
  · split
    exacts [hk.writeFails, hk]
  · exact hk

theorem Lane.Keeps.brgResume {l : Lane} {v failing} (hk : l.Keeps κ) : (l.brgResume v failing).Keeps κ := by
  unfold Lane.brgResume
  extract_lets +onlyGivenNames now
  exact hk.fset

theorem Lane.Keeps.brgMsg {l : Lane} {v} (hk : l.Keeps κ) : (l.brgMsg v).Keeps κ := hk

theorem State.Keeps.messageDelivery {s : State} {l} (hk : s.Keeps κ) : (s.messageDelivery l).Keeps κ := by
  unfold State.messageDelivery
  extract_lets +onlyGivenNames x
  have hx : x.Keeps κ := hk.lane
  split
  · exact hk
  extract_lets +onlyGivenNames src y
  have hy : y.Keeps κ := hx
  split
  · exact hk
  split
  · extract_lets +onlyGivenNames d
    have hd : d.2.Keeps κ := hk.draw
    exact hd.setLane hy.brgErr
  extract_lets +onlyGivenNames s₁
  have hs₁ : s₁.Keeps κ := hk.setLane hy
  split
  exacts [hs₁.collectResults, hs₁]

theorem Lane.Keeps.hubMessage {l : Lane} {v} (hk : l.Keeps κ) : (l.hubMessage v).Keeps κ := by
  unfold Lane.hubMessage
  split
  · exact hk
  split
  exacts [Lane.Keeps.brgShow (Lane.Keeps.raise hk), hk.fset]

theorem Lane.Keeps.semTake {l : Lane} {n byLane byHub} (hk : l.Keeps κ) : (l.semTake n byLane byHub).Keeps κ := by
  unfold Lane.semTake
  split
  · exact hk
  split
  · exact hk.fset
  split
  exacts [hk.fset, hk]

theorem Lane.Keeps.semGive {l : Lane} {n byHub} (hk : l.Keeps κ) : (l.semGive n byHub).Keeps κ := by
  unfold Lane.semGive
  split
  · split
    · extract_lets +onlyGivenNames l₁
      have hl₁ : l₁.Keeps κ := hk.fset
      split
      exacts [hl₁, hl₁]
    · exact hk
  split
  · extract_lets +onlyGivenNames l₁
    have hl₁ : l₁.Keeps κ := hk.fset
    split
    exacts [hl₁, hl₁]
  · exact hk

theorem Lane.Keeps.exclTake {l : Lane} {k} (hk : l.Keeps κ) : (l.exclTake k).Keeps κ := by
  unfold Lane.exclTake
  extract_lets +onlyGivenNames l₁
  have hl₁ : l₁.Keeps κ := by
    unfold l₁
    split
    exacts [hk.semGive, hk]
  split
  exacts [hl₁.fset, hl₁]

theorem State.Keeps.exclLoadRead {s : State} {l a t} (hk : s.Keeps κ) : (s.exclLoadRead l a t).Keeps κ := by
  unfold State.exclLoadRead
  split
  · exact hk.busErr
  split
  · exact State.Keeps.brgReadStart (hk.modLane fun _ hx => hx.exclTake)
  split
  exacts [hk.busData, hk.busErr]

theorem State.Keeps.exclusiveLoad {s : State} {l a t} (hk : s.Keeps κ) : (s.exclusiveLoad l a t).Keeps κ := hk.exclLoadRead.trapOnError

theorem State.Keeps.exclStoreWrite {s : State} {l a v t} (hk : s.Keeps κ) : (s.exclStoreWrite l a v t).Keeps κ := by
  unfold State.exclStoreWrite
  extract_lets +onlyGivenNames x
  have hx : x.Keeps κ := hk.lane
  split
  · exact hk.busErr
  split
  · extract_lets +onlyGivenNames k₁
    split
    · extract_lets +onlyGivenNames s₁
      have hs₁ : s₁.Keeps κ := hk.brgWriteStart
      extract_lets +onlyGivenNames s₂
      have hs₂ : s₂.Keeps κ := hs₁.modLane fun _ hx => hx.semGive
      split
      exacts [hs₂, hs₂.busData]
    · exact hk.busData
  split
  · exact hk.busErr
  extract_lets +onlyGivenNames d
  have hd : d.2.Keeps κ := hk.draw
  split
  exacts [(hd.setLane (hx.sramWrite ‹_›)).busData, hd.busData]

theorem State.Keeps.exclusiveStore {s : State} {l a v t} (hk : s.Keeps κ) : (s.exclusiveStore l a v t).Keeps κ := hk.exclStoreWrite.trapOnError

theorem Lane.Keeps.brgAfterReset {old : Lane} {l : Lane} {t} (hk : old.Keeps κ) (hk1 : l.Keeps κ) : (old.brgAfterReset l t).Keeps κ := by
  unfold Lane.brgAfterReset
  extract_lets +onlyGivenNames rest src l₁
  have hl₁ : l₁.Keeps κ := hk1
  exact hl₁.foldl fun _ _ hx => hx.fset

theorem Lane.Keeps.hubReset {l : Lane} {split t} (hk : l.Keeps κ) : (l.hubReset split t).Keeps κ := by
  unfold Lane.hubReset
  extract_lets +onlyGivenNames rs wins src l₁
  have hl₁ : l₁.Keeps κ := hk
  extract_lets +onlyGivenNames l₂
  have hl₂ : l₂.Keeps κ := hl₁.foldl fun _ _ hx => hx.brgErr.busTrap
  extract_lets +onlyGivenNames l₃
  have hl₃ : l₃.Keeps κ := hl₂.foldl fun _ _ hx => hx.setRg
  extract_lets +onlyGivenNames l₄
  have hl₄ : l₄.Keeps κ := hl₃.foldl fun _ _ hx => hx.semGive
  exact hl₄.fset.fset.brgShow

theorem Lane.Keeps.brgCfgWrite {l : Lane} {off v} (hk : l.Keeps κ) : (l.brgCfgWrite off v).Keeps κ := by
  unfold Lane.brgCfgWrite
  split
  · exact hk
  split
  exacts [hk.fset, hk.plainWrite]

theorem State.Keeps.ifUp {s : State} {l f} (hk : s.Keeps κ) (hf : ∀ y : State, y.Keeps κ → (f y).Keeps κ) : (s.ifUp l f).Keeps κ := by
  unfold State.ifUp
  split
  exacts [hk, hf _ hk]

end Sys2Proof.Machine
end

section
/-! PROOFS. What every command keeps, function by function: resets, update and the partner module. -/

namespace Sys2Proof.Machine

variable {κ : Charter}

/-! ### Resets -/

theorem Lane.Keeps.markReset {l : Lane} {cold again causes} (hk : l.Keeps κ) : (l.markReset cold again causes).Keeps κ := by
  unfold Lane.markReset
  extract_lets +onlyGivenNames l₁
  have hl₁ : l₁.Keeps κ := hk.setRg
  extract_lets +onlyGivenNames l₂
  have hl₂ : l₂.Keeps κ := hl₁.fset
  split
  exacts [hl₂, hl₂.fsat]

theorem Lane.Keeps.assertReset {l : Lane} {cold causes t} (hk : l.Keeps κ) : (l.assertReset cold causes t).Keeps κ := by
  unfold Lane.assertReset
  extract_lets +onlyGivenNames again c src r src₁
  have hsrc₁ : src₁.Keeps κ := Lane.Keeps.laneReset
  extract_lets +onlyGivenNames base
  have hbase : base.Keeps κ := ⟨SparseKeeps.map, hsrc₁.sram, hsrc₁.cells, hsrc₁.ard, hsrc₁.rstat, hsrc₁.pstore⟩
  extract_lets +onlyGivenNames kept
  have hkept : kept.Keeps κ := by
    unfold kept
    split
    exacts [hbase, ⟨hbase.reg, hk.sram, hk.cells, hk.ard, hk.rstat, hk.pstore⟩]
  exact (hk.brgAfterReset hkept).markReset

theorem Lane.Keeps.powerReset {l : Lane} {t} (hk : l.Keeps κ) : (l.powerReset t).Keeps κ := by
  unfold Lane.powerReset
  extract_lets +onlyGivenNames x
  have hx : x.Keeps κ := Lane.Keeps.laneReset
  exact hx

theorem State.Keeps.assertLane {s : State} {l cold causes} (hk : s.Keeps κ) : (s.assertLane l cold causes).Keeps κ :=
  hk.modLane fun _ hx => hx.assertReset

theorem State.Keeps.requestReset {s : State} {l reason cause cold} (hk : s.Keeps κ) : (s.requestReset l reason cause cold).Keeps κ := by
  unfold State.requestReset
  extract_lets +onlyGivenNames x
  have hx : x.Keeps κ := hk.lane
  split
  · exact hk.assertLane
  split
  · exact hk.leaveAtOnce.modLane fun _ hx => hx
  extract_lets +onlyGivenNames more
  exact hk.leave.assertLane

theorem State.Keeps.settleRestart {s : State} (hk : s.Keeps κ) : s.settleRestart.Keeps κ := by
  unfold State.settleRestart
  split
  · split
    exacts [hk, hk]
  · exact hk

theorem State.Keeps.leaveReset {s : State} {l t} (hk : s.Keeps κ) : (s.leaveReset l t).Keeps κ := by
  unfold State.leaveReset
  split
  · split
    exacts [hk.assertLane.settleRestart, hk]
  · exact hk

theorem Hub.Keeps.markReset {h : Hub} {cold again causes} (hk : h.Keeps κ) : (h.markReset cold again causes).Keeps κ := by
  unfold Hub.markReset
  extract_lets +onlyGivenNames y
  have hy : y.Keeps κ := hk.setRg
  extract_lets +onlyGivenNames y₁
  have hy₁ : y₁.Keeps κ := hy.fset
  extract_lets +onlyGivenNames y₂
  have hy₂ : y₂.Keeps κ := by
    unfold y₂
    split
    exacts [hy₁, hy₁.fsat]
  split
  exacts [hy₂, hy₂.fset]

theorem Hub.Keeps.assertReset {h : Hub} {cold : Bool} {causes : List Nat} {t : Nat} (hk : h.Keeps κ) :
    (h.assertReset cold causes t).Keeps κ := by
  unfold Hub.assertReset
  extract_lets +onlyGivenNames again c src r src' base kept
  have hbase : base.Keeps κ := ⟨SparseKeeps.map, .nil, .nil, .nil, .nil⟩
  have hs : RamKeeps κ (sparseFilter (fun k => decide (retainedBase ≤ k)) h.sram) := hk.sram.filter
  have hkept : kept.Keeps κ := by
    unfold kept
    clear_value base
    split
    exacts [⟨hbase.reg, hs, hbase.mbxA, hbase.mbxB, hbase.mbxC⟩, ⟨hbase.reg, hk.sram, hk.mbxA, hk.mbxB, hk.mbxC⟩]
  exact hkept.markReset

theorem State.Keeps.assertHub {s : State} {cold causes} (hk : s.Keeps κ) : (s.assertHub cold causes).Keeps κ := by
  unfold State.assertHub
  extract_lets +onlyGivenNames tell
  have htell : ∀ (s : State) (l : LaneId), s.Keeps κ → (tell s l).Keeps κ := fun s l hx => hx.upLane fun _ hx => hx.hubReset
  extract_lets +onlyGivenNames s₁
  have hs₁ : s₁.Keeps κ := by
    unfold s₁
    split
    exacts [hk, hk.foldl fun _ _ hx => htell _ _ hx]
  exact hs₁.modHub fun _ hx => hx.assertReset.fset

theorem State.Keeps.assertField {s : State} (hk : s.Keeps κ) : s.assertField.Keeps κ := hk

theorem State.Keeps.assertModule {s : State} {cold causes} (hk : s.Keeps κ) : (s.assertModule cold causes).Keeps κ :=
  State.Keeps.assertField (State.Keeps.assertHub (State.Keeps.foldl hk fun _ _ hx => hx.assertLane))

theorem State.Keeps.requestModule {s : State} {cold} (hk : s.Keeps κ) : (s.requestModule cold).Keeps κ := by
  unfold State.requestModule
  extract_lets +onlyGivenNames lanes
  have hlanes : lanes.Keeps κ := State.Keeps.foldl hk fun _ _ hx => hx.requestReset
  exact hlanes.settleRestart.assertHub.assertField

theorem State.Keeps.aonPowerOn {s : State} {t : Nat} (hk : s.Keeps κ) : (s.aonPowerOn t).Keeps κ :=
  ⟨hk.fuses, hk.pending, hk.now, .laneReset, .laneReset, .laneReset, .hubReset, hk.flash0, hk.flash1⟩

theorem State.Keeps.powerOn {s : State} {d aon t} (hk : s.Keeps κ) : (s.powerOn d aon t).Keeps κ := by
  unfold State.powerOn
  split
  · exact hk.aonPowerOn
  split
  · exact State.Keeps.modHub (hk.modLane fun _ hx => hx.powerReset) fun _ hx => hx.fset
  · extract_lets +onlyGivenNames s₁
    have hs₁ : s₁.Keeps κ := hk.assertHub
    extract_lets +onlyGivenNames src s₂
    have hs₂ : s₂.Keeps κ := by
      unfold s₂
      refine hs₁.modHub fun _ hx => ?_
      extract_lets +onlyGivenNames y
      have hy : y.Keeps κ := hx.setRg.setRg.fset
      exact hy.fset
    exact hs₂.faultPin
  extract_lets +onlyGivenNames s₁
  have hs₁ : s₁.Keeps κ := hk.modHub fun _ hx => hx.fset
  exact hs₁

theorem State.Keeps.brownOut {s : State} {d rail} (hk : s.Keeps κ) : (s.brownOut d rail).Keeps κ := by
  unfold State.brownOut
  split
  exacts [hk.assertLane.modLane fun _ hx => hx.fset, hk.assertHub.modHub fun _ hx => hx.fset, hk]

theorem State.Keeps.swr {s : State} {m v} (hk : s.Keeps κ) : (s.swr m v).Keeps κ := by
  unfold State.swr
  extract_lets +onlyGivenNames cold
  split
  · exact hk
  split
  · split
    exacts [hk, hk.requestReset]
  · split
    · exact hk
    split
    · exact hk.assertHub
    split
    exacts [hk.requestModule, hk]
  · exact hk

/-! ### Update -/

theorem State.Keeps.setDownload {s : State} {k} (hk : s.Keeps κ) : (s.setDownload k).Keeps κ := hk.modHub fun _ hx => hx

theorem State.Keeps.updBegin {s : State} {r k len block} (hk : s.Keeps κ) : (s.updBegin r k len block).Keeps κ := by
  unfold State.updBegin
  split
  · exact hk.endWith
  split
  exacts [hk.endWith, hk.setDownload.gated]

theorem State.Keeps.updBlock {s : State} {r i block} (hk : s.Keeps κ) : (s.updBlock r i block).Keeps κ := by
  unfold State.updBlock
  split
  · exact hk.endWith
  split
  · exact hk.endWith
  split
  exacts [hk.endWith, hk.gated]

theorem State.Keeps.verifySlot_snd {s : State} {k} (hk : s.Keeps κ) : (s.verifySlot k).2.Keeps κ := by
  unfold State.verifySlot
  split
  exacts [hk.modHub fun _ hx => hx, hk]

theorem State.Keeps.updVerify {s : State} {r k} (hk : s.Keeps κ) : (s.updVerify r k).Keeps κ := by
  unfold State.updVerify
  extract_lets +onlyGivenNames x
  have hx : x.2.Keeps κ := hk.verifySlot_snd
  split
  exacts [hx.endWith, hk.endWith]

theorem State.Keeps.updStatus {s : State} {r k} (hk : s.Keeps κ) : (s.updStatus r k).Keeps κ := by
  unfold State.updStatus
  split
  exacts [hk.endWith, hk.endRef]

theorem State.Keeps.updActivate {s : State} {r k} (hk : s.Keeps κ) : (s.updActivate r k).Keeps κ := by
  unfold State.updActivate
  split
  · exact hk.endWith
  extract_lets +onlyGivenNames src p
  exact State.Keeps.gated (hk.modHub fun _ hx => hx)

theorem State.Keeps.updConfirm {s : State} {r} (hk : s.Keeps κ) : (s.updConfirm r).Keeps κ := by
  unfold State.updConfirm
  extract_lets +onlyGivenNames p
  split
  exacts [hk.gated, hk.endWith]

theorem State.Keeps.stepAct {s : State} {i t} (hk : s.Keeps κ) : (s.stepAct i t).Keeps κ := by
  unfold State.stepAct
  extract_lets +onlyGivenNames mark
  have hmark : ∀ (s : State), s.Keeps κ → (mark s).Keeps κ := fun s hx => hx.modHub fun _ hx => hx.fset
  split
  · exact (hmark _ hk).modHub fun _ hx => hx
  split
  · exact (hmark _ hk).assertHub
  split
  · exact hk
  split
  exacts [hk, (hmark _ (hk.commitDesc ‹_›)).modHub fun _ hx => hx]

theorem State.Keeps.endStep {s : State} (hk : s.Keeps κ) : s.endStep.Keeps κ := by
  unfold State.endStep
  extract_lets +onlyGivenNames src s₁
  have hs₁ : s₁.Keeps κ := by
    unfold s₁
    split
    exacts [hk, hk]
  exact hs₁.modHub fun _ hx => hx.fset

theorem State.Keeps.rollingStep {s : State} {t} (hk : s.Keeps κ) : (s.rollingStep t).Keeps κ := by
  unfold State.rollingStep
  split
  · exact hk
  extract_lets +onlyGivenNames s₁
  have hs₁ : s₁.Keeps κ := by
    unfold s₁
    split
    exacts [hk.endStep, hk]
  extract_lets +onlyGivenNames p
  split
  · exact hs₁
  split
  · exact hs₁
  split
  · exact hs₁
  split
  · exact hs₁.modHub fun _ hx => hx.fsat
  split
  exacts [hs₁, hs₁.writePointer.stepAct]

theorem State.Keeps.recUpd {s : State} {rule} (hk : s.Keeps κ) : (s.recUpd rule).Keeps κ := hk.recHub

theorem State.Keeps.stepTimeout {s : State} (hk : s.Keeps κ) : s.stepTimeout.Keeps κ := by
  unfold State.stepTimeout
  extract_lets +onlyGivenNames n
  split
  · extract_lets +onlyGivenNames late
    split
    · exact hk
    extract_lets +onlyGivenNames p s₁
    have hs₁ : s₁.Keeps κ := hk.writePointer
    extract_lets +onlyGivenNames s₂
    have hs₂ : s₂.Keeps κ := hs₁.requestReset.recUpd
    exact hs₂.modHub fun _ hx => hx.fset.fset
  · exact hk

theorem State.Keeps.hubReadyTimeout {s : State} {t} (hk : s.Keeps κ) : (s.hubReadyTimeout t).Keeps κ := by
  unfold State.hubReadyTimeout
  split
  · split
    exacts [hk.assertHub, hk]
  · exact hk

theorem State.Keeps.settingsRead {s : State} {r sect_ off} (hk : s.Keeps κ) : (s.settingsRead r sect_ off).Keeps κ := by
  unfold State.settingsRead
  extract_lets +onlyGivenNames u area
  split
  exacts [hk.endWith, hk.endRef]

theorem State.Keeps.settingsWrite {s : State} {r sect_ off bytes} (hk : s.Keeps κ) : (s.settingsWrite r sect_ off bytes).Keeps κ := by
  unfold State.settingsWrite
  split
  exacts [hk.endWith, State.Keeps.endWith (hk.modHub fun _ hx => hx)]

theorem State.Keeps.settingsCommit {s : State} {r crc} (hk : s.Keeps κ) : (s.settingsCommit r crc).Keeps κ := by
  unfold State.settingsCommit
  extract_lets +onlyGivenNames bs
  split
  exacts [hk.endWith, hk.gated]

theorem State.Keeps.startForward {s : State} {link k hop} (hk : s.Keeps κ) : (s.startForward link k hop).Keeps κ := hk.modHub fun _ hx => hx

theorem State.Keeps.updForward {s : State} {r link} (hk : s.Keeps κ) : (s.updForward r link).Keeps κ := by
  unfold State.updForward
  split
  exacts [hk.endWith, hk.startForward.endWith]

theorem State.Keeps.loaderWrite_snd {s : State} {k i block} (hk : s.Keeps κ) : (s.loaderWrite k i block).2.Keeps κ := by
  unfold State.loaderWrite
  extract_lets +onlyGivenNames s₁
  have hs₁ : s₁.Keeps κ := hk.performWrite
  exact hs₁

/-- What the loader answers keeps the charter: the module it leaves does. -/
def LoaderKeeps (κ : Charter) (r : Nat × List Byte × State) : Prop := r.2.2.Keeps κ

theorem LoaderKeeps.ite {r q : Nat × List Byte × State} {p : Prop} [Decidable p] (hr : LoaderKeeps κ r) (hq : LoaderKeeps κ q) :
    LoaderKeeps κ (if p then r else q) := by
  split
  exacts [hr, hq]

theorem LoaderKeeps.of {s : State} {n : Nat} {bs : List Byte} (hk : s.Keeps κ) : LoaderKeeps κ (n, bs, s) := hk

theorem State.Keeps.loaderRun {s : State} {op : Nat} {par data : List Byte} (hk : s.Keeps κ) : LoaderKeeps κ (s.loaderRun op par data) := by
  unfold State.loaderRun
  extract_lets +onlyGivenNames k
  refine .ite (.ite (.of hk) (.ite (.of hk) (.of hk.setDownload.loaderWrite_snd))) (.ite ?block (.ite (.of hk.verifySlot_snd)
    (.ite (.ite (.of hk) (.of hk.writePointer.requestModule)) (.ite (.ite (.of hk) (.of hk)) (.of hk)))))
  case block =>
    dsimp only
    split
    · exact .of hk
    · exact .ite (.of hk) (.ite (.of hk) (.of hk.loaderWrite_snd))

theorem State.Keeps.loaderMessage {s : State} {msg : List Byte} (hk : s.Keeps κ) : (s.loaderMessage msg).Keeps κ :=
  State.Keeps.modHub (LoaderKeeps.ite (q := s.loaderRun _ _ _) (.of hk) hk.loaderRun) fun _ hx => hx

theorem State.Keeps.loaderFrame {s : State} {tag idx cnt bytes crc} (hk : s.Keeps κ) : (s.loaderFrame tag idx cnt bytes crc).Keeps κ := by
  unfold State.loaderFrame
  split
  · exact hk
  extract_lets +onlyGivenNames fs part
  split
  · extract_lets +onlyGivenNames s₁
    have hs₁ : s₁.Keeps κ := hk.modHub fun _ hx => hx
    exact hs₁.loaderMessage
  · exact hk.modHub fun _ hx => hx

theorem State.Keeps.holdSample {s : State} {code} (hk : s.Keeps κ) : (s.holdSample code).Keeps κ := by
  unfold State.holdSample
  extract_lets +onlyGivenNames y
  have hy : y.Keeps κ := hk.hub
  extract_lets +onlyGivenNames v
  split
  · exact hk
  split
  · exact hk.modHub fun _ hx => hx.fset
  extract_lets +onlyGivenNames xs avg low run y₁
  have hy₁ : y₁.Keeps κ := hy.fset.fset
  extract_lets +onlyGivenNames src y₂
  have hy₂ : y₂.Keeps κ := ⟨hy₁.reg, hy₁.sram, hy₁.mbxA, hy₁.mbxB, hy₁.mbxC⟩
  extract_lets +onlyGivenNames y₃
  have hy₃ : y₃.Keeps κ := hy₂.fset
  extract_lets +onlyGivenNames s₁
  have hs₁ : s₁.Keeps κ := ⟨hk.fuses, hk.pending, hk.now, hk.la, hk.lb, hk.lc, hy₃, hk.flash0, hk.flash1⟩
  split
  exacts [hs₁.recFlushAll.modHub fun _ hx => hx.fset, hs₁]

theorem Hub.Keeps.droopCheck {h : Hub} {us} (hk : h.Keeps κ) : (h.droopCheck us).Keeps κ := by
  unfold Hub.droopCheck
  split
  · exact hk
  extract_lets +onlyGivenNames c ok y
  have hy : y.Keeps κ := hk.fset.fset.fset
  clear_value y
  exact ⟨hy.reg, hy.sram, hy.mbxA, hy.mbxB, hy.mbxC⟩

theorem State.Keeps.writeCmd {s : State} {r op f} (hk : s.Keeps κ) (hf : ∀ y : State, y.Keeps κ → (f y).Keeps κ) : (s.writeCmd r op f).Keeps κ := by
  unfold State.writeCmd
  split
  exacts [hk, hk.hCmd fun _ hx => hf _ hx]

/-! ### The partner module -/

theorem State.Keeps.recPtnr {s : State} {rule data} (hk : s.Keeps κ) : (s.recPtnr rule data).Keeps κ := hk.recHub

theorem State.Keeps.tellLanes {s : State} {f} (hk : s.Keeps κ) (hf : ∀ y : Lane, y.Keeps κ → (f y).Keeps κ) : (s.tellLanes f).Keeps κ :=
  hk.foldl fun _ _ hx => hx.upLane fun _ hx1 => hf _ hx1

theorem State.Keeps.firstCopy {s u : State} {ty link : Nat} {pseq : Word} (hk : s.Keeps κ) (heq : s.firstCopy ty link pseq = some u) : u.Keeps κ := by
  unfold State.firstCopy at heq
  dsimp only at heq
  split at heq
  · cases heq
  · cases heq
    exact ⟨hk.fuses, hk.pending, hk.now, hk.la, hk.lb, hk.lc, hk.hub.fset, hk.flash0, hk.flash1⟩

theorem State.Keeps.frameIn {s : State} {ty link : Nat} {frame : List Byte} {f : List Byte → State → State} (hk : s.Keeps κ)
    (hf : ∀ (c : List Byte) (u : State), u.Keeps κ → (f c u).Keeps κ) : (s.frameIn ty link frame f).Keeps κ := by
  unfold State.frameIn
  split
  · exact hk
  split
  · exact hk
  split
  · exact hf _ _ (hk.firstCopy ‹_›)
  · exact hk.modHub fun _ hx => hx.fset

theorem State.Keeps.becomeActive {s : State} {c} (hk : s.Keeps κ) : (s.becomeActive c).Keeps κ := by
  unfold State.becomeActive
  extract_lets +onlyGivenNames s₁
  have hs₁ : s₁.Keeps κ := hk.writeClaimRec
  extract_lets +onlyGivenNames s₂
  have hs₂ : s₂.Keeps κ := hs₁.modHub fun _ hx => hx.fset.fset.setRg
  exact hs₂.tellLanes fun _ hx => hx

theorem State.Keeps.becomeStandby {s : State} (hk : s.Keeps κ) : s.becomeStandby.Keeps κ := by
  unfold State.becomeStandby
  extract_lets +onlyGivenNames s₁
  have hs₁ : s₁.Keeps κ := hk.modHub fun _ hx => hx.fset.fset
  exact hs₁.tellLanes fun _ hx => hx

theorem State.Keeps.claimEnd {s : State} (hk : s.Keeps κ) : s.claimEnd.Keeps κ := State.Keeps.recPtnr (hk.modHub fun _ hx => hx.fset)

theorem Hub.Keeps.countMissed {h : Hub} {t} (hk : h.Keeps κ) : (h.countMissed t).Keeps κ := by
  unfold Hub.countMissed
  extract_lets +onlyGivenNames n
  exact hk.fsat

theorem State.Keeps.hbSend {s : State} {t} (hk : s.Keeps κ) : (s.hbSend t).Keeps κ := by
  unfold State.hbSend
  split
  · exact hk
  extract_lets +onlyGivenNames claim m
  exact hk.modHub fun _ hx => hx.sendFrame

theorem State.Keeps.hearClaim {s : State} {c} (hk : s.Keeps κ) : (s.hearClaim c).Keeps κ := by
  unfold State.hearClaim
  extract_lets +onlyGivenNames waits s₁
  have hs₁ : s₁.Keeps κ := hk.modHub fun _ hx => hx.setRg
  split
  exacts [hs₁.gated, hs₁]

theorem State.Keeps.heartbeat {s : State} {link frame vals ver t} (hk : s.Keeps κ) : (s.heartbeat link frame vals ver t).Keeps κ := by
  unfold State.heartbeat
  refine hk.frameIn fun _ _ hx => ?_
  split
  · exact hx
  extract_lets +onlyGivenNames s₁
  have hs₁ : s₁.Keeps κ := by
    unfold s₁
    refine hx.modHub fun _ hx1 => ?_
    extract_lets +onlyGivenNames y
    have hy : y.Keeps κ := hx1.countMissed.fset
    exact hy
  split
  · exact hs₁
  extract_lets +onlyGivenNames s₂
  have hs₂ : s₂.Keeps κ := by
    unfold s₂
    split
    exacts [hs₁.becomeStandby, hs₁]
  split
  · extract_lets +onlyGivenNames s₃
    have hs₃ : s₃.Keeps κ := State.Keeps.hearClaim (hs₂.modHub fun _ hx1 => hx1)
    split
    exacts [hs₃.startResync.tellLanes fun _ hx1 => hx1, hs₃]
  · exact hs₂

theorem State.Keeps.decideTakeover {s : State} {t} (hk : s.Keeps κ) : (s.decideTakeover t).Keeps κ := by
  unfold State.decideTakeover
  split
  · exact hk
  split
  · exact hk
  split
  exacts [hk.modHub fun _ hx => hx, hk.recPtnr]

theorem State.Keeps.yieldIn {s : State} {link frame t} (hk : s.Keeps κ) : (s.yieldIn link frame t).Keeps κ := by
  unfold State.yieldIn
  refine hk.frameIn fun _ _ hx => ?_
  split
  · exact hx
  extract_lets +onlyGivenNames claim s₁
  have hs₁ : s₁.Keeps κ := hx.modHub fun _ hx1 => hx1
  exact hs₁.hearClaim.decideTakeover

theorem State.Keeps.hbLoss {s : State} {t} (hk : s.Keeps κ) : (s.hbLoss t).Keeps κ := by
  unfold State.hbLoss
  split
  · exact hk
  extract_lets +onlyGivenNames s₁
  have hs₁ : s₁.Keeps κ := hk.modHub fun _ hx => hx.countMissed.fset.fset
  exact hs₁.decideTakeover

theorem State.Keeps.pairStart {s : State} {t} (hk : s.Keeps κ) : (s.pairStart t).Keeps κ := by
  unfold State.pairStart
  extract_lets +onlyGivenNames p
  split
  · exact hk
  extract_lets +onlyGivenNames own other both
  split
  · exact hk.becomeStandby
  extract_lets +onlyGivenNames c
  split
  exacts [hk.claimEnd, hk.becomeActive]

theorem State.Keeps.hubEasyNotice {s : State} {src} (hk : s.Keeps κ) : (s.hubEasyNotice src).Keeps κ := by
  unfold State.hubEasyNotice
  split
  · exact hk
  extract_lets +onlyGivenNames s₁
  have hs₁ : s₁.Keeps κ := hk.faultPin
  split
  · extract_lets +onlyGivenNames c
    exact hs₁.hubYields.modHub fun _ hx => hx.sendFrame
  · exact hs₁

theorem Lane.Keeps.applyTakeover {l : Lane} (hk : l.Keeps κ) : l.applyTakeover.Keeps κ := by
  unfold Lane.applyTakeover
  refine hk.foldl fun _ _ hx => ?_
  extract_lets +onlyGivenNames c
  split
  exacts [hx.putC.putC, hx]

theorem State.Keeps.takeover {s : State} {t} (hk : s.Keeps κ) : (s.takeover t).Keeps κ := by
  unfold State.takeover
  extract_lets +onlyGivenNames p
  split
  · exact hk
  split
  · exact hk
  split
  · exact hk.claimEnd
  extract_lets +onlyGivenNames held s₁
  have hs₁ : s₁.Keeps κ := hk.becomeActive
  extract_lets +onlyGivenNames s₂
  have hs₂ : s₂.Keeps κ := by
    unfold s₂
    refine hs₁.modHub fun _ hx => ?_
    extract_lets +onlyGivenNames y
    have hy : y.Keeps κ := hx.fsat
    extract_lets +onlyGivenNames src y₁
    have hy₁ : y₁.Keeps κ := Hub.Keeps.foldl hy fun _ _ hx1 => hx1.intoMailboxes
    exact hy₁.foldl fun _ _ hx1 => hx1.ringTake
  exact hs₂.tellLanes fun _ hx => hx.applyTakeover

theorem Lane.Keeps.takeForwarded {x : Lane} {list : List ConsEntry} {bs : List Byte} (hk : x.Keeps κ) :
    (x.takeForwarded list bs).Keeps κ := by
  unfold Lane.takeForwarded
  split
  · exact hk
  · split
    · exact hk
    · extract_lets f
      have hf : f.lane.Keeps κ := Frozen.Keeps.check hk
      split
      · split
        exacts [hf.modTask, hk]
      · exact hf

theorem State.Keeps.standbyTake {s : State} {tlgs} (hk : s.Keeps κ) : (s.standbyTake tlgs).Keeps κ := by
  unfold State.standbyTake
  split
  · exact hk
  refine hk.tellLanes fun _ hx => ?_
  split
  exacts [hx.foldl fun _ _ hx1 => hx1.takeForwarded, hx]

theorem State.Keeps.fwdList {s : State} {link frame} (hk : s.Keeps κ) : (s.fwdList link frame).Keeps κ := by
  unfold State.fwdList
  refine hk.frameIn fun _ _ hx => ?_
  split
  · exact hx
  split
  · exact hx
  extract_lets +onlyGivenNames src p
  exact State.Keeps.standbyTake (hx.modHub fun _ hx1 => hx1)

theorem State.Keeps.fwdTlg {s : State} {link frame} (hk : s.Keeps κ) : (s.fwdTlg link frame).Keeps κ := by
  unfold State.fwdTlg
  refine hk.frameIn fun _ _ hx => ?_
  split
  · exact hx
  extract_lets +onlyGivenNames i bs p p₁
  exact State.Keeps.standbyTake (hx.modHub fun _ hx1 => hx1)

theorem State.Keeps.partnerEst {s : State} {link frame t} (hk : s.Keeps κ) : (s.partnerEst link frame t).Keeps κ := by
  unfold State.partnerEst
  refine hk.frameIn fun _ _ hx => ?_
  refine State.Keeps.discardUnread ?_
  refine hx.modHub fun _ hx1 => ?_
  split
  · split
    exacts [hx1.sgwTelegram.intoMailboxes, hx1.received]
  · exact hx1

theorem State.Keeps.pageIn {s : State} {link frame} (hk : s.Keeps κ) : (s.pageIn link frame).Keeps κ := by
  unfold State.pageIn
  refine hk.frameIn fun _ _ hx => ?_
  extract_lets +onlyGivenNames i bytes
  split
  · exact hx
  split
  · split
    exacts [hx.startResync, hx.modHub fun _ hx1 => hx1]
  extract_lets +onlyGivenNames s₁
  have hs₁ : s₁.Keeps κ := hx.tellLanes fun _ hx1 => hx1.putPage
  extract_lets +onlyGivenNames got
  refine hs₁.modHub fun _ hx1 => ?_
  extract_lets +onlyGivenNames src y
  have hy : y.Keeps κ := hx1
  extract_lets +onlyGivenNames y₁
  have hy₁ : y₁.Keeps κ := hy.fset
  split
  exacts [hy₁.fset, hy₁]

theorem State.Keeps.forwards {s : State} {ty link : Nat} {frame : List Byte} {f : List Byte → State → State} (hk : s.Keeps κ)
    (hf : ∀ (c : List Byte) (u : State), u.Keeps κ → (f c u).Keeps κ) : (s.forwards ty link frame f).Keeps κ := by
  unfold State.forwards
  split
  · exact hk
  split
  · exact hk
  split
  exacts [hf _ _ (hk.firstCopy ‹_›), hk]

theorem State.Keeps.fwdWrite {s : State} {k i block} (hk : s.Keeps κ) : (s.fwdWrite k i block).Keeps κ := by
  unfold State.fwdWrite
  split
  exacts [hk, hk.gated]

theorem State.Keeps.fwdComplete {s : State} {link k hop} (hk : s.Keeps κ) : (s.fwdComplete link k hop).Keeps κ := by
  unfold State.fwdComplete
  split
  · extract_lets +onlyGivenNames x
    have hx : x.2.Keeps κ := hk.verifySlot_snd
    split
    exacts [hx.startForward, hx]
  · exact hk

theorem State.Keeps.fwdImg {s : State} {link frame} (hk : s.Keeps κ) : (s.fwdImg link frame).Keeps κ := by
  unfold State.fwdImg
  refine hk.forwards fun _ _ hx => ?_
  extract_lets +onlyGivenNames build hop i block p set
  have hset : ∀ (f : PtnrInt → PtnrInt) (s : State), s.Keeps κ → (set f s).Keeps κ := fun f s hx => hx.modHub fun _ hx1 => hx1
  split
  · exact hx
  split
  · split
    exacts [hx, State.Keeps.fwdComplete (hx.fwdWrite.modHub fun _ hx1 => hx1)]
  split
  · exact hx
  extract_lets +onlyGivenNames build0
  split
  · split
    exacts [hx.gated.modHub fun _ hx1 => hx1, hx.modHub fun _ hx1 => hx1]
  · exact hx.modHub fun _ hx1 => hx1

theorem State.Keeps.fwdAck {s : State} {link frame} (hk : s.Keeps κ) : (s.fwdAck link frame).Keeps κ := by
  unfold State.fwdAck
  refine hk.forwards fun _ _ hx => ?_
  extract_lets +onlyGivenNames p build status bitmap
  split
  · exact hx
  extract_lets +onlyGivenNames y lack
  exact hx.modHub fun _ hx1 => hx1

theorem State.Keeps.fwdAckSend {s : State} (hk : s.Keeps κ) : s.fwdAckSend.Keeps κ := by
  unfold State.fwdAckSend
  extract_lets +onlyGivenNames p
  split
  · exact hk
  extract_lets +onlyGivenNames send
  have hsend : ∀ (st : ℕ) (bm : List Byte), (send st bm).Keeps κ := fun st bm => hk.modHub fun _ hx => hx.sendFrame
  split
  · exact hsend _ _
  split
  exacts [hsend _ _, hk]

end Sys2Proof.Machine
end

section
/-! PROOFS. What every command keeps, function by function: clocks, power and the commands of the hub. -/

namespace Sys2Proof.Machine

variable {κ : Charter}

/-! ### The timebase -/

theorem Lane.Keeps.tick {l : Lane} {own frame} (hk : l.Keeps κ) : (l.tick own frame).Keeps κ := by
  unfold Lane.tick
  extract_lets +onlyGivenNames crcBad ok l₁
  have hl₁ : l₁.Keeps κ := by
    unfold l₁
    split
    exacts [hk.fset, hk]
  extract_lets +onlyGivenNames src l₂
  have hl₂ : l₂.Keeps κ := hl₁
  extract_lets +onlyGivenNames src₁ l₃
  have hl₃ : l₃.Keeps κ := by
    unfold l₃
    split
    · split
      exacts [hl₂, hl₂]
    · exact hl₂
  split
  · extract_lets +onlyGivenNames time
    split
    exacts [hl₃, hl₃]
  · exact hl₃

theorem State.Keeps.rateFails {s : State} {l} (hk : s.Keeps κ) : (s.rateFails l).Keeps κ := by
  unfold State.rateFails
  extract_lets +onlyGivenNames s₁
  have hs₁ : s₁.Keeps κ := hk.modLane fun _ hx => hx.fset
  split
  exacts [hs₁.leave, hs₁.modLane fun _ hx => hx]

theorem State.Keeps.rateWindow {s : State} {l n} (hk : s.Keeps κ) : (s.rateWindow l n).Keeps κ := by
  unfold State.rateWindow
  extract_lets +onlyGivenNames s₁
  have hs₁ : s₁.Keeps κ := by
    unfold s₁
    refine hk.modLane fun _ hx => ?_
    extract_lets +onlyGivenNames src
    have hsrc : src.Keeps κ := hx.fset.fset
    clear_value src
    exact ⟨hsrc.reg, hsrc.sram, hsrc.cells, hsrc.ard, hsrc.rstat, hsrc.pstore⟩
  clear_value s₁
  split
  · exact hs₁
  split
  exacts [hs₁.modLane fun _ hx => ⟨hx.reg, hx.sram, hx.cells, hx.ard, hx.rstat, hx.pstore⟩, hs₁.rateFails]

theorem Lane.Keeps.holdEntry {l : Lane} {off} (hk : l.Keeps κ) : (l.holdEntry off).Keeps κ := by
  unfold Lane.holdEntry
  split
  exacts [hk, hk.fset]

theorem Lane.Keeps.holdExit {l : Lane} (hk : l.Keeps κ) : l.holdExit.Keeps κ := by
  unfold Lane.holdExit
  split
  exacts [hk.fset, hk]

theorem State.Keeps.arm {s : State} {l} (hk : s.Keeps κ) : (s.arm l).Keeps κ := by
  unfold State.arm
  extract_lets +onlyGivenNames x
  have hx : x.Keeps κ := hk.lane
  split
  · exact hk
  split
  · exact hk.setLane hx.fset
  split
  · exact hk
  extract_lets +onlyGivenNames bench x₁
  have hx₁ : x₁.Keeps κ := hx.fset.fset
  exact (hk.setLane hx₁.note).flushNotes

theorem State.Keeps.pair {s : State} {dst src v t} (hk : s.Keeps κ) : (s.pair dst src v t).Keeps κ := by
  unfold State.pair
  extract_lets +onlyGivenNames x
  have hx : x.Keeps κ := hk.lane
  split
  · exact hk
  extract_lets +onlyGivenNames ps src₁ x₁
  have hx₁ : x₁.Keeps κ := hx
  split
  · extract_lets +onlyGivenNames src₂ x₂
    have hx₂ : x₂.Keeps κ := hx₁
    split
    exacts [hk.setLane hx₂, hk.setLane hx₂]
  · exact (hk.setLane hx₁.note).flushNotes

theorem State.Keeps.startTimeout {s : State} {t} (hk : s.Keeps κ) : (s.startTimeout t).Keeps κ := by
  unfold State.startTimeout
  extract_lets +onlyGivenNames due
  split
  exacts [hk, hk.foldl fun _ _ hx => hx.enterEasy]

theorem State.Keeps.startLanes {s : State} {t} (hk : s.Keeps κ) : (s.startLanes t).Keeps κ := by
  unfold State.startLanes
  refine hk.foldl fun _ _ hx => ?_
  extract_lets +onlyGivenNames x₁
  have hx₁ : x₁.Keeps κ := hx.lane
  split
  exacts [hx.setLane hx₁, hx]

theorem Lane.Keeps.strokeWrite {l : Lane} {v} (hk : l.Keeps κ) : (l.strokeWrite v).Keeps κ := by
  unfold Lane.strokeWrite
  extract_lets +onlyGivenNames p d
  split
  · exact hk
  split
  exacts [hk.fset.fset, hk.fset]

/-! ### Clocks and supplies -/

theorem State.Keeps.laneClockFail {s : State} {l pll} (hk : s.Keeps κ) : (s.laneClockFail l pll).Keeps κ := by
  unfold State.laneClockFail
  extract_lets +onlyGivenNames x
  have hx : x.Keeps κ := hk.lane
  extract_lets +onlyGivenNames hold
  have hhold : ∀ (x : Lane), x.Keeps κ → (hold x).Keeps κ := fun x hx => hx
  split
  · exact hk.modLane fun _ hx => hhold _ hx
  extract_lets +onlyGivenNames s₁
  have hs₁ : s₁.Keeps κ := by
    unfold s₁
    refine hk.modLane fun _ hx => ?_
    extract_lets +onlyGivenNames x₁
    have hx₁ : x₁.Keeps κ := hx.fset.fset.fset
    refine hhold _ ?_
    split
    exacts [hx₁, hx₁.fset]
  split
  exacts [hs₁.modLane fun _ hx => hx.setRg, hs₁.leaveAtOnce.modLane fun _ hx => hx]

theorem State.Keeps.hubClockFail {s : State} (hk : s.Keeps κ) : s.hubClockFail.Keeps κ := by
  unfold State.hubClockFail
  extract_lets +onlyGivenNames s₁
  have hs₁ : s₁.Keeps κ := by
    unfold s₁
    split
    exacts [hk, State.Keeps.assertHub (hk.modHub fun _ hx => hx.fset)]
  exact hs₁.modHub fun _ hx => hx

theorem Hub.Keeps.xtFail {h : Hub} {pll t} (hk : h.Keeps κ) : (h.xtFail pll t).Keeps κ := by
  unfold Hub.xtFail
  extract_lets +onlyGivenNames src y
  have hy : y.Keeps κ := hk
  split
  exacts [hy, hy.fset.fset]

theorem State.Keeps.laneWindow {s : State} {l cnt} (hk : s.Keeps κ) : (s.laneWindow l cnt).Keeps κ := by
  unfold State.laneWindow
  extract_lets +onlyGivenNames good s₁
  have hs₁ : s₁.Keeps κ := by
    unfold s₁
    refine hk.modLane fun _ hx => ?_
    extract_lets +onlyGivenNames g b src
    have hsrc : src.Keeps κ := hx.fset
    extract_lets +onlyGivenNames src₁ x₁
    have hx₁ : x₁.Keeps κ := hsrc
    split
    exacts [hx₁.fset, hx₁]
  split
  exacts [hs₁.laneClockFail, hs₁]

theorem State.Keeps.hubWindow {s : State} {cnt xt} (hk : s.Keeps κ) : (s.hubWindow cnt xt).Keeps κ := by
  unfold State.hubWindow
  extract_lets +onlyGivenNames good goodT s₁
  have hs₁ : s₁.Keeps κ := by
    unfold s₁
    refine hk.modHub fun _ hx => ?_
    extract_lets +onlyGivenNames src r r₁ y
    have hy : y.Keeps κ := hx
    split
    exacts [hy.fset, hy]
  extract_lets +onlyGivenNames s₂
  have hs₂ : s₂.Keeps κ := by
    unfold s₂
    split
    exacts [hs₁.modHub fun _ hx => hx.xtFail, hs₁]
  split
  exacts [hs₂.hubClockFail, hs₂]

theorem State.Keeps.clockLost {s : State} {m xt pll} (hk : s.Keeps κ) : (s.clockLost m xt pll).Keeps κ := by
  unfold State.clockLost
  split
  · split
    · split
      exacts [hk.linksAfter (hk.upLane fun _ hx => hx.takeLinkDown.takeLinkDown), hk]
    · exact hk.laneClockFail
  · split
    exacts [hk.modHub fun _ hx => hx.xtFail, hk.hubClockFail]
  · exact hk

theorem Hub.Keeps.xtRecover {h : Hub} {t} (hk : h.Keeps κ) : (h.xtRecover t).Keeps κ := by
  unfold Hub.xtRecover
  split
  · extract_lets +onlyGivenNames src
    have hsrc : src.Keeps κ := hk.fset.fset
    extract_lets +onlyGivenNames y
    have hy : y.Keeps κ := hsrc
    exact hy.ringsRestart
  · exact hk

theorem State.Keeps.aonClockFail {s : State} (hk : s.Keeps κ) : s.aonClockFail.Keeps κ := by
  unfold State.aonClockFail
  extract_lets +onlyGivenNames src s₁
  have hs₁ : s₁.Keeps κ := hk
  exact State.Keeps.recHub (hs₁.modHub fun _ hx => hx.fset.fset)

theorem State.Keeps.resetNAssert {s : State} {t} (hk : s.Keeps κ) : (s.resetNAssert t).Keeps κ := by
  unfold State.resetNAssert
  split
  · exact hk
  extract_lets +onlyGivenNames src
  have hsrc : src.Keeps κ := hk.assertModule
  extract_lets +onlyGivenNames src₁ s₁
  have hs₁ : s₁.Keeps κ := hsrc
  split
  exacts [State.Keeps.faultPin hs₁, hs₁]

theorem State.Keeps.resetNRelease {s : State} {t} (hk : s.Keeps κ) : (s.resetNRelease t).Keeps κ := by
  unfold State.resetNRelease
  split
  · exact hk
  extract_lets +onlyGivenNames src s₁
  have hs₁ : s₁.Keeps κ := hk
  split
  exacts [hs₁.assertModule, hs₁]

theorem State.Keeps.trimFailed {s : State} {d} (hk : s.Keeps κ) : (s.trimFailed d).Keeps κ := by
  unfold State.trimFailed
  extract_lets +onlyGivenNames s₁
  have hs₁ : s₁.Keeps κ := hk.modHub fun _ hx => hx.fset
  split
  exacts [hs₁.faultPin, hs₁]

theorem State.Keeps.trimDone {s : State} {d ok} (hk : s.Keeps κ) : (s.trimDone d ok).Keeps κ := by
  unfold State.trimDone
  split
  · split
    · exact hk
    extract_lets +onlyGivenNames s₁
    have hs₁ : s₁.Keeps κ := by
      unfold s₁
      refine hk.modLane fun _ hx => ?_
      extract_lets +onlyGivenNames r src
      have hsrc : src.Keeps κ := hx.fset.fset
      clear_value src
      exact ⟨hsrc.reg, hsrc.sram, hsrc.cells, hsrc.ard, hsrc.rstat, hsrc.pstore⟩
    clear_value s₁
    split
    exacts [hs₁.trimFailed, hs₁]
  · split
    · exact hk
    extract_lets +onlyGivenNames s₁
    have hs₁ : s₁.Keeps κ := by
      unfold s₁
      refine hk.modHub fun _ hx => ?_
      extract_lets +onlyGivenNames r src
      have hsrc : src.Keeps κ := hx.fset.fset
      clear_value src
      exact ⟨hsrc.reg, hsrc.sram, hsrc.mbxA, hsrc.mbxB, hsrc.mbxC⟩
    clear_value s₁
    split
    exacts [hs₁.trimFailed, hs₁]
  split
  · exact hk
  extract_lets +onlyGivenNames s₁
  have hs₁ : s₁.Keeps κ := ⟨hk.fuses, hk.pending, hk.now, hk.la, hk.lb, hk.lc, hk.hub, hk.flash0, hk.flash1⟩
  clear_value s₁
  split
  exacts [hs₁.trimFailed, hs₁]

/-! ### Power -/

theorem State.Keeps.laneSupply {s : State} {l rail} (hk : s.Keeps κ) : (s.laneSupply l rail).Keeps κ := by
  unfold State.laneSupply
  split
  · exact hk.modLane fun _ hx => hx
  extract_lets +onlyGivenNames s₁
  have hs₁ : s₁.Keeps κ := hk.modLane fun _ hx => hx.fset
  extract_lets +onlyGivenNames voter s₂
  have hs₂ : s₂.Keeps κ := hs₁.leaveAtOnce
  split
  exacts [hs₂.modLane fun _ hx => hx, hs₂]

theorem State.Keeps.hubSupply {s : State} {rail} (hk : s.Keeps κ) : (s.hubSupply rail).Keeps κ := by
  unfold State.hubSupply
  split
  · exact hk
  split
  exacts [hk.recHub.faultPin, hk.assertHub.modHub fun _ hx => hx.fset]

theorem Lane.Keeps.supplySettled {l : Lane} {t} (hk : l.Keeps κ) : (l.supplySettled t).Keeps κ := by
  unfold Lane.supplySettled
  split
  · exact hk
  extract_lets +onlyGivenNames l₁
  have hl₁ : l₁.Keeps κ := hk.fset.fset.fset
  exact hl₁

theorem Lane.Keeps.vsetWrite {l : Lane} {v} (hk : l.Keeps κ) : (l.vsetWrite v).Keeps κ := by
  unfold Lane.vsetWrite
  extract_lets +onlyGivenNames mv
  split
  exacts [hk.fset, hk]

theorem Lane.Keeps.pmbRequest {l : Lane} {t} (hk : l.Keeps κ) : (l.pmbRequest t).Keeps κ := by
  unfold Lane.pmbRequest
  extract_lets +onlyGivenNames v cs l₁
  have hl₁ : l₁.Keeps κ := hk.fset.fset
  exact hl₁

theorem Hub.Keeps.pmbRequest {h : Hub} {t} (hk : h.Keeps κ) : (h.pmbRequest t).Keeps κ := hk

theorem Lane.Keeps.pmbAck {l : Lane} {pg sw pec t} (hk : l.Keeps κ) : (l.pmbAck pg sw pec t).Keeps κ := by
  unfold Lane.pmbAck
  extract_lets +onlyGivenNames l₁
  have hl₁ : l₁.Keeps κ := hk.fset.fsat
  clear_value l₁
  split
  · extract_lets +onlyGivenNames l₂
    have hl₂ : l₂.Keeps κ := hl₁.fset.fset
    clear_value l₂
    exact ⟨hl₂.reg, hl₂.sram, hl₂.cells, hl₂.ard, hl₂.rstat, hl₂.pstore⟩
  · exact hl₁

theorem Hub.Keeps.pmbAck {h : Hub} {pg sw pec t} (hk : h.Keeps κ) : (h.pmbAck pg sw pec t).Keeps κ := by
  unfold Hub.pmbAck
  extract_lets +onlyGivenNames y
  have hy : y.Keeps κ := hk.fset
  split
  exacts [hy, hy]

theorem State.Keeps.gateHub {s : State} (hk : s.Keeps κ) : s.gateHub.Keeps κ := hk.assertHub

theorem State.Keeps.lanesOff {s : State} (hk : s.Keeps κ) : s.lanesOff.Keeps κ := hk.foldl fun _ _ hx => hx.modLane fun _ hx1 => hx1.powerReset

theorem Hub.Keeps.recordAll {h : Hub} (hk : h.Keeps κ) : h.recordAll.Keeps κ := hk.foldl fun _ _ hx => hx.recordNext

theorem State.Keeps.wakeFailed {s : State} (hk : s.Keeps κ) : s.wakeFailed.Keeps κ := by
  unfold State.wakeFailed
  extract_lets +onlyGivenNames s₁
  have hs₁ : s₁.Keeps κ := hk.recHub.modHub fun _ hx => hx.recordAll
  extract_lets +onlyGivenNames s₂
  have hs₂ : s₂.Keeps κ := hs₁.lanesOff
  extract_lets +onlyGivenNames src s₃
  have hs₃ : s₃.Keeps κ := hs₂
  exact State.Keeps.faultPin (hs₃.gateHub.modHub fun _ hx => hx.fset)

theorem State.Keeps.wakeRetry {s : State} {m : Master} {r : RstInt} {t : Nat} {put : State → RstInt → State} (hk : s.Keeps κ)
    (hput : ∀ (u : State) (r : RstInt), u.Keeps κ → (put u r).Keeps κ) : (s.wakeRetry m r t put).Keeps κ := by
  have hf : (s.modHub (·.fset PWRC_HSTAT_FAILRAIL (failRail m))).Keeps κ := hk.modHub fun _ hx => hx.fset
  unfold State.wakeRetry
  dsimp only
  split
  exacts [hf.wakeFailed, (hput _ _ hf).modHub fun _ hx => hx.fsat]

theorem State.Keeps.pmbTimeout {s : State} {m t} (hk : s.Keeps κ) : (s.pmbTimeout m t).Keeps κ := by
  unfold State.pmbTimeout
  split
  · extract_lets +onlyGivenNames r
    split
    · exact hk
    extract_lets +onlyGivenNames s₁
    have hs₁ : s₁.Keeps κ := hk.modLane fun _ hx => hx.fset
    split
    exacts [hs₁.wakeRetry fun _ _ hx => hx.modLane fun _ hx1 => hx1, hs₁.modLane fun _ hx => hx.fset]
  · extract_lets +onlyGivenNames r
    split
    · exact hk
    split
    exacts [hk.wakeRetry fun _ _ hx => hx.modHub fun _ hx1 => hx1, hk.modHub fun _ hx => hx.fset]
  · exact hk

theorem State.Keeps.enterHibernate {s : State} {mask t} (hk : s.Keeps κ) : (s.enterHibernate mask t).Keeps κ := by
  unfold State.enterHibernate
  extract_lets +onlyGivenNames s₁
  have hs₁ : s₁.Keeps κ := hk.modHub fun _ hx => hx.fset.fset
  extract_lets +onlyGivenNames s₂
  have hs₂ : s₂.Keeps κ := by
    unfold s₂
    refine hs₁.foldl fun _ _ hx => ?_
    extract_lets +onlyGivenNames d
    have hd : d.2.Keeps κ := hx.draw
    refine hd.upLane fun _ hx1 => ?_
    extract_lets +onlyGivenNames x₁
    have hx₁ : x₁.Keeps κ := hx1.hubMessage.stopDyn
    exact hx₁
  extract_lets +onlyGivenNames tests
  exact hs₂

theorem State.Keeps.hibernate {s : State} {r mask t} (hk : s.Keeps κ) : (s.hibernate r mask t).Keeps κ := by
  unfold State.hibernate
  refine hk.hCmd fun _ hx => ?_
  split
  · exact hx.endWith
  split
  exacts [hx.endWith, hx.enterHibernate.endWith]

theorem State.Keeps.startWake {s : State} {src t} (hk : s.Keeps κ) : (s.startWake src t).Keeps κ := by
  unfold State.startWake
  extract_lets +onlyGivenNames s₁
  have hs₁ : s₁.Keeps κ := hk.modHub fun _ hx => hx.fset
  extract_lets +onlyGivenNames s₂
  have hs₂ : s₂.Keeps κ := hs₁.foldl fun _ _ hx => hx.modLane fun _ hx1 => hx1
  exact hs₂

theorem State.Keeps.wakeEvent {s : State} {src t} (hk : s.Keeps κ) : (s.wakeEvent src t).Keeps κ := by
  unfold State.wakeEvent
  extract_lets +onlyGivenNames m
  split
  · exact hk
  split
  exacts [hk, hk.startWake, hk.startWake, hk]

theorem Hub.Keeps.stopPorts {h : Hub} (hk : h.Keeps κ) : h.stopPorts.Keeps κ := by
  unfold Hub.stopPorts
  extract_lets +onlyGivenNames y
  have hy : y.Keeps κ := hk
  exact hy.foldl fun _ _ hx => hx.fset.setRstate

theorem State.Keeps.entryStep {s : State} {pg t} (hk : s.Keeps κ) : (s.entryStep pg t).Keeps κ := by
  unfold State.entryStep
  extract_lets +onlyGivenNames due
  split
  · split
    · extract_lets +onlyGivenNames s₁
      have hs₁ : s₁.Keeps κ := hk.lanesOff.modHub fun _ hx => hx.stopPorts
      exact hs₁
    · exact hk
  · split
    exacts [hk.modHub fun _ hx => hx, hk]
  · split
    · extract_lets +onlyGivenNames s₁
      have hs₁ : s₁.Keeps κ := hk.modHub fun _ hx => hx.retainEntry
      exact hs₁
    · exact hk
  · split
    · extract_lets +onlyGivenNames s₁
      have hs₁ : s₁.Keeps κ := by
        unfold s₁
        refine hk.foldl fun _ _ hx => ?_
        split
        exacts [hx.recHub, hx]
      extract_lets +onlyGivenNames s₂
      have hs₂ : s₂.Keeps κ := hs₁.gateHub
      extract_lets +onlyGivenNames src s₃
      have hs₃ : s₃.Keeps κ := hs₂
      split
      exacts [hs₃, hs₃.startWake]
    · exact hk
  · exact hk

theorem State.Keeps.wakeDone {s : State} (hk : s.Keeps κ) : s.wakeDone.Keeps κ := by
  unfold State.wakeDone
  extract_lets +onlyGivenNames off s₁
  have hs₁ : s₁.Keeps κ := hk.modHub fun _ hx => hx.fset.fset
  exact State.Keeps.faultPin hs₁

theorem State.Keeps.wakeStep {s : State} {t} (hk : s.Keeps κ) : (s.wakeStep t).Keeps κ := by
  unfold State.wakeStep
  extract_lets +onlyGivenNames y later
  split
  · split
    exacts [hk, hk]
  · exact hk
  · split
    exacts [hk, hk]
  · split
    exacts [hk, hk]
  · split
    exacts [hk, hk]
  · extract_lets +onlyGivenNames released
    split
    exacts [hk.wakeDone, hk]
  · exact hk

theorem Hub.Keeps.loseBanks {h : Hub} {bs} (hk : h.Keeps κ) : (h.loseBanks bs).Keeps κ := by
  unfold Hub.loseBanks
  split
  exacts [hk, hk.fset]

theorem Lane.Keeps.showBist {l : Lane} {kind records cov lfail unrep} (hk : l.Keeps κ) : (l.showBist kind records cov lfail unrep).Keeps κ := by
  unfold Lane.showBist
  split
  · exact hk.fset.fset
  extract_lets +onlyGivenNames l₁
  have hl₁ : l₁.Keeps κ := hk.fset.fset.fset
  extract_lets +onlyGivenNames l₂
  have hl₂ : l₂.Keeps κ := by
    unfold l₂
    split
    exacts [hl₁.fset.fset, hl₁.fset.fset]
  extract_lets +onlyGivenNames l₃
  have hl₃ : l₃.Keeps κ := by
    unfold l₃
    split
    exacts [hl₂.fset, hl₂]
  refine Lane.Keeps.fset ?_
  split
  exacts [hl₃.fset, hl₃]

theorem State.Keeps.hubBist {s : State} {kind records upset put entry} (hk : s.Keeps κ) (hf : ∀ y : State, y.Keeps κ → (put y).Keeps κ) :
    (s.hubBist kind records upset put entry).Keeps κ := by
  unfold State.hubBist
  extract_lets +onlyGivenNames x
  have hx : x.1.Keeps κ := by
    unfold x
    split
    exacts [hk.hub, hk.hub.testRetained_fst]
  extract_lets +onlyGivenNames src s₁
  have hs₁ : s₁.Keeps κ := ⟨hk.fuses, hk.pending, hk.now, hk.la, hk.lb, hk.lc, hx, hk.flash0, hk.flash1⟩
  extract_lets +onlyGivenNames s₂
  have hs₂ : s₂.Keeps κ := by
    unfold s₂
    refine hs₁.foldl fun _ _ hx => ?_
    split
    exacts [hx.recHub, hx]
  exact (hf _ hs₂).modHub fun _ hx => hx.loseBanks

theorem State.Keeps.bistDone {s : State} {m kind records cov lfail unrep upset rtc} (hk : s.Keeps κ) :
    (s.bistDone m kind records cov lfail unrep upset rtc).Keeps κ := by
  unfold State.bistDone
  extract_lets +onlyGivenNames entry src s₁
  have hs₁ : s₁.Keeps κ := hk
  extract_lets +onlyGivenNames s₂
  have hs₂ : s₂.Keeps κ := by
    unfold s₂
    split
    exacts [hs₁, hs₁]
  extract_lets +onlyGivenNames q put
  have hput : ∀ (s : State), s.Keeps κ → (put s).Keeps κ := by
    intro s hx
    unfold put
    split
    exacts [hx, hx.modHub fun _ hx => hx.putSram]
  split
  · extract_lets +onlyGivenNames x₁
    have hx₁ : x₁.Keeps κ := hs₂.lane
    split
    · exact hs₂
    split
    · split
      · refine (hput _ hs₂).modLane fun _ hx => ?_
        split
        exacts [hx, hx]
      · exact hs₂
    split
    exacts [(hput _ hs₂).modLane fun _ hx => hx.showBist, hs₂]
  · split
    exacts [hs₂, hs₂.hubBist fun _ hx => hput _ hx]
  · exact hs₂

theorem State.Keeps.hubTemp {s : State} {high} (hk : s.Keeps κ) : (s.hubTemp high).Keeps κ := by
  unfold State.hubTemp
  split
  exacts [hk, State.Keeps.recHub (hk.modHub fun _ hx => hx)]

/-! ### Commands of the hub -/

theorem State.Keeps.resume {s : State} {r} (hk : s.Keeps κ) : (s.resume r).Keeps κ := by
  unfold State.resume
  split
  · split
    exacts [hk.endWith, State.Keeps.endWith (hk.modHub fun _ hx => hx.poison)]
  · exact hk

theorem State.Keeps.benchAuth {s : State} {r mask token} (hk : s.Keeps κ) : (s.benchAuth r mask token).Keeps κ := by
  unfold State.benchAuth
  extract_lets +onlyGivenNames key
  split
  exacts [State.Keeps.endWith (hk.modHub fun _ hx => hx), hk.endWith]

theorem State.Keeps.numberCmd {s : State} {r took} (hk : s.Keeps κ) : (s.numberCmd r took).Keeps κ := by
  unfold State.numberCmd
  split
  · exact hk
  extract_lets +onlyGivenNames q s₁
  have hs₁ : s₁.Keeps κ := hk.modHub fun _ hx => hx.setRg.setCmd
  exact hs₁.foldl fun _ _ hx => State.Keeps.modHub (hx.modLane fun _ hx1 => hx1) fun _ hx1 => hx1.modMbx fun _ hx2 => hx2

theorem State.Keeps.startCmd {s : State} {r} (hk : s.Keeps κ) : (s.startCmd r).Keeps κ := by
  unfold State.startCmd
  split
  · exact hk.endWith
  extract_lets +onlyGivenNames s₁
  have hs₁ : s₁.Keeps κ := hk.startLanes
  extract_lets +onlyGivenNames took
  split
  exacts [hs₁.numberCmd.endWith, hk.endWith]

theorem State.Keeps.laneStatus {s : State} {r l} (hk : s.Keeps κ) : (s.laneStatus r l).Keeps κ := by
  unfold State.laneStatus
  extract_lets +onlyGivenNames x
  have hx : x.Keeps κ := hk.lane
  split
  exacts [hk.endWith, hk.endRef]

theorem State.Keeps.laneResetCmd {s : State} {r l} (hk : s.Keeps κ) : (s.laneResetCmd r l).Keeps κ := by
  unfold State.laneResetCmd
  split
  exacts [hk.endWith, hk.requestReset.endWith]

theorem State.Keeps.stationInfo {s : State} {r} (hk : s.Keeps κ) : (s.stationInfo r).Keeps κ := hk.endRef

theorem State.Keeps.tlgSubmit {s : State} {r conn tlg} (hk : s.Keeps κ) : (s.tlgSubmit r conn tlg).Keeps κ := by
  unfold State.tlgSubmit
  split
  exacts [hk.endWith, State.Keeps.endWith (hk.carry fun _ hx => hx.received)]

theorem State.Keeps.tlgReceive {s : State} {r conn} (hk : s.Keeps κ) : (s.tlgReceive r conn).Keeps κ := by
  unfold State.tlgReceive
  split
  · exact hk
  extract_lets +onlyGivenNames mine f rest
  exact State.Keeps.endRef (hk.modHub fun _ hx => hx)

theorem State.Keeps.connStatus {s : State} {r conn} (hk : s.Keeps κ) : (s.connStatus r conn).Keeps κ := by
  unfold State.connStatus
  split
  · exact hk.endWith
  extract_lets +onlyGivenNames c
  exact hk.endRef

theorem State.Keeps.prgStatus {s : State} {r} (hk : s.Keeps κ) : (s.prgStatus r).Keeps κ := hk.endRef

theorem State.Keeps.prgChange {s : State} {r bytes sig} (hk : s.Keeps κ) : (s.prgChange r bytes sig).Keeps κ := by
  unfold State.prgChange
  split
  · exact hk
  split
  · exact hk.endWith
  split
  exacts [hk.endWith, hk.toLanes]

theorem State.Keeps.forceSetHub {s : State} {r vid val} (hk : s.Keeps κ) : (s.forceSetHub r vid val).Keeps κ := by
  unfold State.forceSetHub
  extract_lets +onlyGivenNames s₁
  have hs₁ : s₁.Keeps κ := hk.toLanes
  split
  · split
    exacts [hs₁.recHub, hs₁]
  · exact hs₁

theorem State.Keeps.recRead {s : State} {r first count} (hk : s.Keeps κ) : (s.recRead r first count).Keeps κ := by
  unfold State.recRead
  split
  · exact hk.endWith
  extract_lets +onlyGivenNames x
  exact hk.endRef

theorem State.Keeps.ringAnnounceCmd {s : State} {r k rating} (hk : s.Keeps κ) : (s.ringAnnounceCmd r k rating).Keeps κ := by
  unfold State.ringAnnounceCmd
  split
  · exact hk.endWith
  extract_lets +onlyGivenNames y
  have hy : y.Keeps κ := hk.hub
  extract_lets +onlyGivenNames abn s₁
  have hs₁ : s₁.Keeps κ := hk.modHub fun _ hx => hx.ringAnnounce
  split
  exacts [hs₁.endWith, hs₁.endWith]

theorem State.Keeps.ringCmd {s : State} {r k f} (hk : s.Keeps κ) (hf : ∀ y : Hub, y.Keeps κ → (f y).Keeps κ) : (s.ringCmd r k f).Keeps κ := by
  unfold State.ringCmd
  split
  exacts [hk.endWith, State.Keeps.endWith (hk.modHub fun _ hx => hf _ hx)]

theorem State.Keeps.ringStatus {s : State} {r k} (hk : s.Keeps κ) : (s.ringStatus r k).Keeps κ := by
  unfold State.ringStatus
  split
  · exact hk.endWith
  extract_lets +onlyGivenNames g
  exact hk.endRef

theorem State.Keeps.easyCmd {s : State} {r} (hk : s.Keeps κ) : (s.easyCmd r).Keeps κ := by
  unfold State.easyCmd
  split
  · exact hk
  split
  · exact hk.endWith
  split
  · exact hk.endWith
  split
  exacts [hk, hk.numberCmd.foldl fun _ _ hx => hx.enterEasy]

theorem State.Keeps.moduleReset {s : State} {r kind} (hk : s.Keeps κ) : (s.moduleReset r kind).Keeps κ := by
  unfold State.moduleReset
  split
  exacts [hk.endWith, State.Keeps.endWith (hk.modHub fun _ hx => hx)]

theorem State.Keeps.moduleResetAssert {s : State} {t} (hk : s.Keeps κ) : (s.moduleResetAssert t).Keeps κ := by
  unfold State.moduleResetAssert
  split
  · split
    exacts [hk.requestModule, hk]
  · exact hk

theorem State.Keeps.bistResults {s : State} {r} (hk : s.Keeps κ) : (s.bistResults r).Keeps κ := hk.endRef

theorem Hub.Keeps.ifReset {h : Hub} (hk : h.Keeps κ) : h.ifReset.Keeps κ := by
  unfold Hub.ifReset
  extract_lets +onlyGivenNames keep src y
  have hy : y.Keeps κ := hk
  extract_lets +onlyGivenNames zero
  have hzero : ∀ (h : Hub) (q : ℕ), h.Keeps κ → (zero h q).Keeps κ := fun h q hx => hx.setRg.setRg
  extract_lets +onlyGivenNames y₁
  have hy₁ : y₁.Keeps κ := Hub.Keeps.setRg (hy.foldl fun _ _ hx => hzero _ _ hx)
  extract_lets +onlyGivenNames y₂
  have hy₂ : y₂.Keeps κ := hy₁.fset.fset.fset.fset
  exact hy₂.fset.countQueues

theorem State.Keeps.hostIfReset {s : State} (hk : s.Keeps κ) : s.hostIfReset.Keeps κ := by
  unfold State.hostIfReset
  split
  exacts [hk, State.Keeps.recHub (hk.modHub fun _ hx => hx.ifReset)]

theorem State.Keeps.hcmdCtrl {s : State} {v t} (hk : s.Keeps κ) : (s.hcmdCtrl v t).Keeps κ := by
  unfold State.hcmdCtrl
  extract_lets +onlyGivenNames s₁
  have hs₁ : s₁.Keeps κ := hk.modHub fun _ hx => hx.fset
  split
  · exact hs₁
  split
  · exact hs₁.assertHub
  split
  exacts [hs₁, hs₁]

theorem State.Keeps.pwrcycEnd {s : State} {t} (hk : s.Keeps κ) : (s.pwrcycEnd t).Keeps κ := by
  unfold State.pwrcycEnd
  split
  exacts [hk, hk]

end Sys2Proof.Machine
end

section
/-! PROOFS. What every command keeps, function by function: the cell window, start, the core pair and accesses. -/

namespace Sys2Proof.Machine

variable {κ : Charter}

/-! ### The cell window and the timers of the route engine -/

theorem Lane.Keeps.rleWrite {l : Lane} {a v} (hk : l.Keeps κ) : (l.rleWrite a v).Keeps κ := by
  unfold Lane.rleWrite
  split
  · exact hk.putAreaWord
  · exact hk
  · exact hk
  · split
    · exact hk.putAreaWord
    split
    exacts [hk.putC, hk.rleFlag]
  split
  exacts [hk.rleFlag, hk.putAreaWord]

theorem State.Keeps.opCellWindow {s : State} {l : LaneId} {a nerr : Nat} {acc : Access} (hk : s.Keeps κ) :
    (opCellWindow l a acc nerr s).Keeps κ := by
  unfold Machine.opCellWindow
  extract_lets x
  split
  · exact hk
  split
  · exact hk.busErr
  split
  · exact (hk.upLane fun _ hx => hx.rleFlag).busErr
  split
  · split
    exacts [hk.laneRead, hk.busData]
  · exact (hk.setLane hk.lane.rleWrite).busOk

theorem State.Keeps.engineReads_fst {l : LaneId} {hs : EccHits} {s : State} (hk : s.Keeps κ) : (s.engineReads l hs).1.Keeps κ := by
  induction hs generalizing s with
  | nil => exact hk
  | cons h hs ih =>
    unfold State.engineReads
    split
    · exact ih hk
    split
    exacts [ih (hk.modLane fun _ hx => hx.corrected), hk.laneUncorrectable]

theorem State.Keeps.engine {s : State} {l ecc f} (hk : s.Keeps κ) (hf : ∀ y : Lane, y.Keeps κ → (f y).Keeps κ) : (s.engine l ecc f).Keeps κ := by
  unfold State.engine
  extract_lets +onlyGivenNames r
  have hr : r.1.Keeps κ := hk.engineReads_fst
  split
  exacts [hr.upLane fun _ hx => hf _ hx, hr]

theorem Lane.Keeps.startCheck {l : Lane} (hk : l.Keeps κ) : l.startCheck.Keeps κ := by
  unfold Lane.startCheck
  split
  · exact hk.rleFlag
  split
  · exact hk
  extract_lets +onlyGivenNames l₁
  have hl₁ : l₁.Keeps κ := hk.fset.fset
  exact hl₁

theorem Lane.Keeps.endCheck {l : Lane} (hk : l.Keeps κ) : l.endCheck.Keeps κ := by
  unfold Lane.endCheck
  split
  · extract_lets +onlyGivenNames l₁
    have hl₁ : l₁.Keeps κ := hk.fset.rleFlag
    clear_value l₁
    split
    · exact hl₁.fset.fset.fset.rleFlag
    extract_lets +onlyGivenNames l₂
    have hl₂ : l₂.Keeps κ := hl₁.fset.setRg
    clear_value l₂
    extract_lets +onlyGivenNames l₃
    have hl₃ : l₃.Keeps κ := hl₂.fset
    clear_value l₃
    extract_lets +onlyGivenNames l₄
    have hl₄ : l₄.Keeps κ := hl₃.fset
    clear_value l₄
    extract_lets +onlyGivenNames l₅
    have hl₅ : l₅.Keeps κ := hl₄.fset
    clear_value l₅
    extract_lets +onlyGivenNames d src
    have hsrc : src.Keeps κ := hl₅.setRg
    clear_value src
    exact ⟨hsrc.reg, hsrc.sram, hsrc.cells, hsrc.ard, hsrc.rstat, hsrc.pstore⟩
  · exact hk

theorem Lane.Keeps.rleCold {l : Lane} (hk : l.Keeps κ) : l.rleCold.Keeps κ :=
  ⟨hk.reg, hk.sram, SparseKeeps.map, hk.ard, SparseKeeps.nil, SparseKeeps.nil⟩

theorem Lane.Keeps.lockStation {l : Lane} (hk : l.Keeps κ) : l.lockStation.Keeps κ := by
  unfold Lane.lockStation
  split
  · extract_lets +onlyGivenNames l₁
    have hl₁ : l₁.Keeps κ := by
      unfold l₁
      split
      exacts [hk, hk.rleCold]
    exact hl₁.fset.fset
  · exact hk

theorem Lane.Keeps.startStroke {l : Lane} (hk : l.Keeps κ) : l.startStroke.Keeps κ := by
  unfold Lane.startStroke
  split
  · exact hk.rleFlag
  split
  · exact hk.rleFlag
  split
  · exact hk
  extract_lets +onlyGivenNames l₁
  have hl₁ : l₁.Keeps κ := hk.rleRun.fset
  clear_value l₁
  exact ⟨hl₁.reg, hl₁.sram, hl₁.cells, hl₁.ard, hl₁.rstat, hl₁.pstore⟩

theorem Lane.Keeps.clearConditions {l : Lane} (hk : l.Keeps κ) : l.clearConditions.Keeps κ :=
  ⟨hk.reg, hk.sram, SparseKeeps.map, hk.ard, hk.rstat, hk.pstore⟩

theorem Lane.Keeps.endStroke {l : Lane} {us} (hk : l.Keeps κ) : (l.endStroke us).Keeps κ := by
  unfold Lane.endStroke
  split
  · extract_lets +onlyGivenNames l₁
    have hl₁ : l₁.Keeps κ := hk.fset.fset.rleFlag
    split
    exacts [hl₁.clearConditions, hl₁]
  · exact hk

theorem Lane.Keeps.approachExpiry {l : Lane} {i} (hk : l.Keeps κ) : (l.approachExpiry i).Keeps κ := by
  unfold Lane.approachExpiry
  split
  · extract_lets +onlyGivenNames n
    exact hk.setRState.releaseCells
  · exact hk

theorem Lane.Keeps.overlapExpiry {l : Lane} {c} (hk : l.Keeps κ) : (l.overlapExpiry c).Keeps κ := by
  unfold Lane.overlapExpiry
  extract_lets +onlyGivenNames i
  split
  exacts [hk.releaseCells, hk]

theorem Lane.Keeps.sectionExpiry {l : Lane} {c} (hk : l.Keeps κ) : (l.sectionExpiry c).Keeps κ := by
  unfold Lane.sectionExpiry
  extract_lets +onlyGivenNames i
  split
  · extract_lets +onlyGivenNames n
    exact hk.setRw.releaseCells
  · exact hk

theorem Lane.Keeps.moveExpiry {l : Lane} {c} (hk : l.Keeps κ) : (l.moveExpiry c).Keeps κ := by
  unfold Lane.moveExpiry
  split
  exacts [hk.setCell, hk]

theorem Lane.Keeps.crossingExpiry {l : Lane} {c} (hk : l.Keeps κ) : (l.crossingExpiry c).Keeps κ := by
  unfold Lane.crossingExpiry
  split
  · extract_lets +onlyGivenNames src
    have hsrc : src.Keeps κ := hk.noteCrossing
    clear_value src
    exact ⟨hsrc.reg, hsrc.sram, hsrc.cells, hsrc.ard, hsrc.rstat, hsrc.pstore⟩
  · exact hk

theorem Lane.Keeps.writeNreq {l : Lane} {v} (hk : l.Keeps κ) : (l.writeNreq v).Keeps κ := by
  unfold Lane.writeNreq
  split
  exacts [hk.rleFlag, hk.fset]

theorem Lane.Keeps.writeBase {l : Lane} {out v} (hk : l.Keeps κ) : (l.writeBase out v).Keeps κ := by
  unfold Lane.writeBase
  extract_lets +onlyGivenNames b other
  split
  exacts [hk.rleFlag, hk.fset]

theorem Lane.Keeps.adjustKept {l : Lane} (hk : l.Keeps κ) : l.adjustKept.Keeps κ := by
  unfold Lane.adjustKept
  extract_lets +onlyGivenNames entries adj bound l₁
  have hl₁ : l₁.Keeps κ := hk.foldl fun _ _ hx => hx.setRState
  exact ⟨hl₁.reg, hl₁.sram, SparseKeeps.map, hl₁.ard, hl₁.rstat, hl₁.pstore⟩

theorem Lane.Keeps.takeDigest {l : Lane} {src crc} (hk : l.Keeps κ) : (l.takeDigest src crc).Keeps κ := by
  unfold Lane.takeDigest
  extract_lets +onlyGivenNames all
  split
  · exact hk
  extract_lets +onlyGivenNames ds src₁ l₁
  have hl₁ : l₁.Keeps κ := hk
  split
  · split
    · extract_lets +onlyGivenNames l₂
      have hl₂ : l₂.Keeps κ := hl₁.adjustKept
      exact hl₂
    · exact hl₁.rleCold
  · exact hl₁

/-! ### Start -/

theorem Lane.Keeps.repair {l : Lane} {rs cold} (hk : l.Keeps κ) : (l.repair rs cold).Keeps κ := by
  unfold Lane.repair
  extract_lets +onlyGivenNames l₁
  have hl₁ : l₁.Keeps κ := hk.setRg
  split
  · exact hl₁
  extract_lets +onlyGivenNames excess l₂
  have hl₂ : l₂.Keeps κ := by
    unfold l₂
    split
    exacts [hl₁, hl₁.fset]
  exact hl₂

theorem State.Keeps.laneLoad {s : State} {l} (hk : s.Keeps κ) : (s.laneLoad l).Keeps κ := by
  unfold State.laneLoad
  extract_lets +onlyGivenNames x
  have hx : x.Keeps κ := hk.lane
  extract_lets +onlyGivenNames k₁ hdr rec area crc set descs bytes ok g own x₁
  have hx₁ : x₁.Keeps κ := hx.fset.fset
  extract_lets +onlyGivenNames src x₂
  have hx₂ : x₂.Keeps κ := ⟨hx₁.reg, hx₁.sram, hx₁.cells, hx₁.ard, hx₁.rstat, hx₁.pstore⟩
  extract_lets +onlyGivenNames x₃
  have hx₃ : x₃.Keeps κ := by
    unfold x₃
    split
    exacts [hx₂.loadProgram, hx₂]
  extract_lets +onlyGivenNames rs x₄
  have hx₄ : x₄.Keeps κ := by
    unfold x₄
    split
    exacts [hx₃.showBist, hx₃]
  exact hk.setLane hx₄

theorem Lane.Keeps.liveRegs {l : Lane} (hk : l.Keeps κ) : l.liveRegs.Keeps κ := by
  unfold Lane.liveRegs
  extract_lets +onlyGivenNames l₁
  have hl₁ : l₁.Keeps κ := hk.fset.fset.fset.fset
  exact hl₁.fset.fset.fset.fset

theorem Lane.Keeps.placeIn {l : Lane} {p} (hk : l.Keeps κ) : (l.placeIn p).Keeps κ := by
  unfold Lane.placeIn
  split
  exacts [hk, hk, hk.fset.fset, hk.fset.fset]

theorem State.Keeps.releaseLane {s : State} {l strap t} (hk : s.Keeps κ) : (s.releaseLane l strap t).Keeps κ := by
  unfold State.releaseLane
  extract_lets +onlyGivenNames x
  have hx : x.Keeps κ := hk.lane
  split
  · exact hk
  extract_lets +onlyGivenNames cold x₁
  have hx₁ : x₁.Keeps κ := hx.liveRegs.fset.fset
  extract_lets +onlyGivenNames x₂
  have hx₂ : x₂.Keeps κ := hx₁.fset.repair
  extract_lets +onlyGivenNames src x₃
  have hx₃ : x₃.Keeps κ := by
    unfold x₃
    split
    exacts [hx₂, hx₂]
  extract_lets +onlyGivenNames src₁ src₂ src₃ x₄
  have hx₄ : x₄.Keeps κ := Lane.Keeps.placeIn hx₃
  extract_lets +onlyGivenNames src₄
  have hsrc₄ : src₄.Keeps κ := hk.setLane hx₄
  extract_lets +onlyGivenNames src₅ s₁
  have hs₁ : s₁.Keeps κ := hsrc₄
  split
  exacts [hs₁.laneLoad, hs₁]

theorem State.Keeps.startPointer {s : State} {p} (hk : s.Keeps κ) : (s.startPointer p).Keeps κ := by
  unfold State.startPointer
  split
  exacts [hk.modHub fun _ hx => hx.showPointer, hk.writePointer]

theorem State.Keeps.startSlots {s : State} (hk : s.Keeps κ) : s.startSlots.Keeps κ := by
  unfold State.startSlots
  split
  · extract_lets +onlyGivenNames k₁
    exact hk.modHub fun _ hx => hx.showPointer.fset
  split
  · split
    exacts [State.Keeps.recUpd (hk.startPointer.modHub fun _ hx => hx.fset), hk.startPointer]
  · exact hk.modHub fun _ hx => hx.showPointer

theorem State.Keeps.startJournal {s : State} (hk : s.Keeps κ) : s.startJournal.Keeps κ := by
  unfold State.startJournal
  split
  · exact hk
  extract_lets +onlyGivenNames sec last n
  exact hk.modHub fun _ hx => hx

theorem Hub.Keeps.takeSettings {h : Hub} {bytes area crc seq fmt} (hk : h.Keeps κ) : (h.takeSettings bytes area crc seq fmt).Keeps κ := hk

theorem State.Keeps.startSettings {s : State} {fmt} (hk : s.Keeps κ) : (s.startSettings fmt).Keeps κ := by
  unfold State.startSettings
  split
  · extract_lets +onlyGivenNames r
    exact hk.modHub fun _ hx => hx.takeSettings
  split
  · extract_lets +onlyGivenNames r bytes s₁
    have hs₁ : s₁.Keeps κ := hk.modHub fun _ hx => hx.takeSettings
    exact hs₁.gated
  split
  exacts [State.Keeps.startPointer (State.Keeps.recUpd (hk.modHub fun _ hx => hx.fset)), hk.modHub fun _ hx => hx]

theorem State.Keeps.startClaim {s : State} (hk : s.Keeps κ) : s.startClaim.Keeps κ := by
  unfold State.startClaim
  extract_lets +onlyGivenNames c
  refine hk.modHub fun _ hx => ?_
  extract_lets +onlyGivenNames y
  have hy : y.Keeps κ := hx.fset.setRg
  exact hy

theorem Hub.Keeps.startPair {h : Hub} {t} (hk : h.Keeps κ) : (h.startPair t).Keeps κ := by
  unfold Hub.startPair
  split
  exacts [hk.fset, hk]

theorem Hub.Keeps.liveRegs {h : Hub} {rtcOk pci} (hk : h.Keeps κ) : (h.liveRegs rtcOk pci).Keeps κ := by
  unfold Hub.liveRegs
  extract_lets +onlyGivenNames xt y
  have hy : y.Keeps κ := hk.fset.fset.fset.fset
  extract_lets +onlyGivenNames y₁
  have hy₁ : y₁.Keeps κ := hy.fset.fset.fset
  exact hy₁.fset.fset.fset

theorem Hub.Keeps.repair {h : Hub} (hk : h.Keeps κ) : h.repair.Keeps κ := by
  unfold Hub.repair
  split
  exacts [hk.loseBanks, hk]

theorem State.Keeps.clearMailboxes {s : State} (hk : s.Keeps κ) : s.clearMailboxes.Keeps κ :=
  hk.foldl fun _ _ hx => hx.modHub fun _ hy => hy.modMbx fun _ _ => RamKeeps.nil

theorem State.Keeps.raiseRails {s : State} (hk : s.Keeps κ) : s.raiseRails.Keeps κ := by
  unfold State.raiseRails
  split
  exacts [hk, hk]

theorem State.Keeps.startLoader {s : State} (hk : s.Keeps κ) : s.startLoader.Keeps κ := State.Keeps.faultPin (hk.modHub fun _ hx => hx)

theorem State.Keeps.loadLanes {s : State} (hk : s.Keeps κ) : s.loadLanes.Keeps κ := by
  unfold State.loadLanes
  split
  · refine hk.foldl fun _ _ hx => ?_
    split
    exacts [hx.laneLoad, hx]
  · exact hk

theorem State.Keeps.gateAgain {s : State} {t} (hk : s.Keeps κ) : (s.gateAgain t).Keeps κ := by
  unfold State.gateAgain
  extract_lets +onlyGivenNames x
  have hx : x.Keeps κ := hk.gatedRetry
  split
  exacts [hx.loadLanes, hx]

theorem State.Keeps.startFirmware {s : State} {t} (hk : s.Keeps κ) : (s.startFirmware t).Keeps κ := by
  unfold State.startFirmware
  extract_lets +onlyGivenNames k₁ s₁
  have hs₁ : s₁.Keeps κ := hk.startJournal.startSettings.startClaim.recStart
  clear_value s₁
  extract_lets +onlyGivenNames area s₂
  have hs₂ : s₂.Keeps κ := hs₁.modHub fun _ hx => hx.sgwLoadSection.startPair.setRg.fset
  clear_value s₂
  extract_lets +onlyGivenNames src
  have hsrc : src.Keeps κ := hs₂.hub
  clear_value src
  extract_lets +onlyGivenNames src₁ s₃
  have hs₃ : s₃.Keeps κ := ⟨hs₂.fuses, hs₂.pending, hs₂.now, hs₂.la, hs₂.lb, hs₂.lc, ⟨hsrc.reg, hsrc.sram, hsrc.mbxA, hsrc.mbxB, hsrc.mbxC⟩,
    hs₂.flash0, hs₂.flash1⟩
  clear_value s₃
  exact State.Keeps.loadLanes (hs₃.faultPin.foldl fun _ _ hx => hx.upLane fun _ hx1 => hx1.fset)

theorem State.Keeps.releaseHub {s : State} {strap t} (hk : s.Keeps κ) : (s.releaseHub strap t).Keeps κ := by
  unfold State.releaseHub
  split
  · exact hk
  extract_lets +onlyGivenNames src s₁
  have hs₁ : s₁.Keeps κ := hk
  extract_lets +onlyGivenNames s₂
  have hs₂ : s₂.Keeps κ := by
    unfold s₂
    split
    exacts [hs₁.clearMailboxes, hs₁]
  extract_lets +onlyGivenNames s₃
  have hs₃ : s₃.Keeps κ := by
    unfold s₃
    refine hs₂.modHub fun _ hx => ?_
    extract_lets +onlyGivenNames y
    have hy : y.Keeps κ := hx.liveRegs.fset.fset
    exact hy.repair
  extract_lets +onlyGivenNames s₄
  have hs₄ : s₄.Keeps κ := hs₃.raiseRails
  extract_lets +onlyGivenNames s₅
  have hs₅ : s₅.Keeps κ := by
    unfold s₅
    split
    exacts [hs₄.wakeCheck, hs₄]
  split
  exacts [hs₅.startSlots.startFirmware, hs₅.startLoader]

theorem State.Keeps.releaseField {s : State} {t} (hk : s.Keeps κ) : (s.releaseField t).Keeps κ := by
  unfold State.releaseField
  split
  exacts [hk, hk]

theorem Hub.Keeps.blockAsk {h : Hub} {c t} (hk : h.Keeps κ) : (h.blockAsk c t).Keeps κ := by
  unfold Hub.blockAsk
  split
  exacts [hk.fset, hk]

theorem State.Keeps.blockClear {s : State} {c t} (hk : s.Keeps κ) : (s.blockClear c t).Keeps κ := by
  unfold State.blockClear
  split
  · extract_lets +onlyGivenNames k₁
    refine hk.modHub fun _ hx => ?_
    extract_lets +onlyGivenNames regs unmanned y
    have hy : y.Keeps κ := Hub.Keeps.modRing (hx.foldl fun _ _ hx1 => hx1.setRg)
    clear_value y
    split
    · exact hy.fset
    split
    exacts [hy.ringStart, hy]
  split
  · refine hk.modHub fun _ hx => ?_
    extract_lets +onlyGivenNames src
    have hsrc : src.Keeps κ := hx.fset.fset
    clear_value src
    exact ⟨hsrc.reg, hsrc.sram, hsrc.mbxA, hsrc.mbxB, hsrc.mbxC⟩
  split
  · extract_lets +onlyGivenNames k₁
    refine hk.modHub fun _ hx => ?_
    extract_lets +onlyGivenNames y
    have hy : y.Keeps κ := hx.setRg.setRg
    clear_value y
    exact hy.foldl fun _ _ hx1 => hx1.modDest
  split
  · exact hk.modHub fun _ hx => ⟨hx.reg, hx.sram, hx.mbxA, hx.mbxB, hx.mbxC⟩
  split
  · refine State.Keeps.recStart ?_
    refine hk.modHub fun _ hx => ?_
    extract_lets +onlyGivenNames src
    have hsrc : src.Keeps κ := hx.setRg.setRg
    clear_value src
    exact ⟨hsrc.reg, hsrc.sram, hsrc.mbxA, hsrc.mbxB, hsrc.mbxC⟩
  split
  · exact hk.modHub fun _ hx => ⟨hx.reg, hx.sram, hx.mbxA, hx.mbxB, hx.mbxC⟩
  split
  exacts [hk.modHub fun _ hx => ⟨hx.reg, hx.sram, hx.mbxA, hx.mbxB, hx.mbxC⟩, hk]

theorem State.Keeps.blockFinish {s : State} {t forced} (hk : s.Keeps κ) : (s.blockFinish t forced).Keeps κ := by
  unfold State.blockFinish
  split
  · exact hk
  extract_lets +onlyGivenNames asked lost s₁
  have hs₁ : s₁.Keeps κ := hk.foldl fun _ _ hx => hx.modHub fun _ hx1 => hx1.endCmd
  extract_lets +onlyGivenNames s₂
  have hs₂ : s₂.Keeps κ := by
    unfold s₂
    refine hs₁.modHub fun _ hx => ?_
    extract_lets +onlyGivenNames y
    have hy : y.Keeps κ := hx.fset.fset
    extract_lets +onlyGivenNames y₁
    have hy₁ : y₁.Keeps κ := by
      unfold y₁
      split
      exacts [hy.fset, hy]
    exact hy₁
  exact hs₂.blockClear.foldl fun _ _ hx => hx.endWith

theorem State.Keeps.funcReinit {s : State} {r c t} (hk : s.Keeps κ) : (s.funcReinit r c t).Keeps κ := by
  unfold State.funcReinit
  extract_lets +onlyGivenNames join
  have hjoin : ∀ (s : State), s.Keeps κ → (join s).Keeps κ := fun s hx => hx.modHub fun _ hx => hx
  split
  · exact hk.endWith
  split
  · exact hjoin _ (hk.modHub fun _ hx => hx.blockAsk)
  split
  exacts [hjoin _ hk, hk]

theorem State.Keeps.blockTimeout {s : State} {t} (hk : s.Keeps κ) : (s.blockTimeout t).Keeps κ := by
  unfold State.blockTimeout
  split
  · split
    exacts [hk.blockFinish, hk]
  · exact hk

/-! ### The core pair -/

theorem Lane.Keeps.showCycles {l : Lane} {t} (hk : l.Keeps κ) : (l.showCycles t).Keeps κ := hk

theorem Lane.Keeps.onCores {l : Lane} {split n f} (hk : l.Keeps κ) : (l.onCores split n f).Keeps κ := by
  unfold Lane.onCores
  split
  · split
    exacts [hk, hk]
  · exact hk

theorem State.Keeps.coreOp {s : State} {l n f} (hk : s.Keeps κ) : (s.coreOp l n f).Keeps κ := hk.upLane fun _ hx => hx.onCores

theorem State.Keeps.interruptEntry {s : State} {l} (hk : s.Keeps κ) : (s.interruptEntry l).Keeps κ := by
  unfold State.interruptEntry
  extract_lets +onlyGivenNames x
  have hx : x.Keeps κ := hk.lane
  split
  · split
    · exact hk
    extract_lets +onlyGivenNames d
    have hd : d.2.Keeps κ := hk.draw
    extract_lets +onlyGivenNames take
    exact hd.modLane fun _ hx => hx
  · exact hk

theorem Lane.Keeps.injEnd {l : Lane} {good} (hk : l.Keeps κ) : (l.injEnd good).Keeps κ := by
  unfold Lane.injEnd
  extract_lets +onlyGivenNames l₁
  have hl₁ : l₁.Keeps κ := by
    unfold l₁
    split
    exacts [hk.fset, hk.fset]
  exact hl₁.fset.fset.raise

theorem Lane.Keeps.countRetired {l : Lane} {n0 n1} (hk : l.Keeps κ) : (l.countRetired n0 n1).Keeps κ := hk

theorem State.Keeps.windowClose {s : State} {l r0 r1 t} (hk : s.Keeps κ) : (s.windowClose l r0 r1 t).Keeps κ := by
  unfold State.windowClose
  split
  · exact hk
  extract_lets +onlyGivenNames x
  have hx : x.Keeps κ := hk.lane.countRetired.showCycles
  extract_lets +onlyGivenNames ph m0 m1 differ x₁
  have hx₁ : x₁.Keeps κ := hx.setRg
  extract_lets +onlyGivenNames x₂
  have hx₂ : x₂.Keeps κ := by
    unfold x₂
    split
    exacts [hx₁.setRg.setRg.setRg.setRg, hx₁]
  extract_lets +onlyGivenNames expected good ret x₃
  have hx₃ : x₃.Keeps κ := hx₂
  extract_lets +onlyGivenNames x₄
  have hx₄ : x₄.Keeps κ := by
    unfold x₄
    split
    exacts [hx₃.injEnd, hx₃]
  split
  · extract_lets +onlyGivenNames s₁
    have hs₁ : s₁.Keeps κ := hk.setLane hx₄.fset
    exact hs₁.leaveAtOnce
  · exact hk.setLane hx₄

theorem Lane.Keeps.injStart {l : Lane} (hk : l.Keeps κ) : l.injStart.Keeps κ := by
  unfold Lane.injStart
  split
  · extract_lets +onlyGivenNames src
    have hsrc : src.Keeps κ := hk.fset.fset
    clear_value src
    exact ⟨hsrc.reg, hsrc.sram, hsrc.cells, hsrc.ard, hsrc.rstat, hsrc.pstore⟩
  · exact hk.fset

theorem State.Keeps.debugHalt {s : State} {l} (hk : s.Keeps κ) : (s.debugHalt l).Keeps κ := by
  unfold State.debugHalt
  extract_lets +onlyGivenNames x
  have hx : x.Keeps κ := hk.lane
  split
  · exact hk
  extract_lets +onlyGivenNames bench s₁
  have hs₁ : s₁.Keeps κ := hk.setLane hx.fset
  extract_lets +onlyGivenNames s₂
  have hs₂ : s₂.Keeps κ := hs₁.recLane
  extract_lets +onlyGivenNames s₃
  have hs₃ : s₃.Keeps κ := hs₂.leaveAtOnce
  split
  exacts [hs₃, hs₃.enterEasy]

theorem Lane.Keeps.core1Start {l : Lane} {split v} (hk : l.Keeps κ) : (l.core1Start split v).Keeps κ := by
  unfold Lane.core1Start
  split
  · extract_lets +onlyGivenNames a
    exact hk.setRg
  · exact hk

theorem State.Keeps.wdtExpire {s : State} {l} (hk : s.Keeps κ) : (s.wdtExpire l).Keeps κ := hk.requestReset

theorem State.Keeps.wdtKick {s : State} {l v t} (hk : s.Keeps κ) : (s.wdtKick l v t).Keeps κ := by
  unfold State.wdtKick
  extract_lets +onlyGivenNames x
  have hx : x.Keeps κ := hk.lane
  extract_lets +onlyGivenNames u
  split
  · exact hk.setLane hx
  extract_lets +onlyGivenNames early late bad src y
  have hy : y.Keeps κ := hx
  extract_lets +onlyGivenNames y₁
  have hy₁ : y₁.Keeps κ := by
    unfold y₁
    split
    exacts [hy.fset, hy]
  extract_lets +onlyGivenNames y₂
  have hy₂ : y₂.Keeps κ := by
    unfold y₂
    split
    exacts [hy₁, hy₁]
  split
  exacts [(hk.setLane hy₂).wdtExpire, hk.setLane hy₂]

theorem Lane.Keeps.wdtWarn {l : Lane} {t} (hk : l.Keeps κ) : (l.wdtWarn t).Keeps κ := by
  unfold Lane.wdtWarn
  extract_lets +onlyGivenNames due
  split
  exacts [hk, hk.fset.raise]

theorem State.Keeps.wdtTimeout {s : State} {l t} (hk : s.Keeps κ) : (s.wdtTimeout l t).Keeps κ := by
  unfold State.wdtTimeout
  extract_lets +onlyGivenNames x
  have hx : x.Keeps κ := hk.lane
  split
  exacts [hk, hk.wdtExpire]

theorem Lane.Keeps.wdtCfgWrite {l : Lane} {v} (hk : l.Keeps κ) : (l.wdtCfgWrite v).Keeps κ := by
  unfold Lane.wdtCfgWrite
  split
  exacts [hk.fset, hk.setRg]

theorem State.Keeps.lockup {s : State} {l inTrap t} (hk : s.Keeps κ) : (s.lockup l inTrap t).Keeps κ := by
  unfold State.lockup
  extract_lets +onlyGivenNames x
  have hx : x.Keeps κ := hk.lane
  split
  exacts [hk.requestReset, hk]

theorem State.Keeps.benchGrant {s : State} {l} (hk : s.Keeps κ) : (s.benchGrant l).Keeps κ := by
  unfold State.benchGrant
  split
  exacts [State.Keeps.modHub (hk.upLane fun _ hx => hx.fset) fun _ hx => hx, hk]

/-! ### Fields hardware sets -/

theorem Lane.Keeps.hwSet {l : Lane} {a hw} (hk : l.Keeps κ) : (l.hwSet a hw).Keeps κ := by
  unfold Lane.hwSet
  split
  · split
    exacts [hk, hk.setRg]
  · exact hk

theorem Hub.Keeps.hwSet {h : Hub} {a hw} (hk : h.Keeps κ) : (h.hwSet a hw).Keeps κ := by
  unfold Hub.hwSet
  split
  · split
    exacts [hk, hk.setRg]
  · exact hk

theorem Lane.Keeps.latched {l : Lane} {a} (hk : l.Keeps κ) : (l.latched a).Keeps κ := by
  unfold Lane.latched
  split
  · exact hk
  split
  exacts [hk, hk]

theorem Hub.Keeps.statWrite {h : Hub} {v} (hk : h.Keeps κ) : (h.statWrite v).Keeps κ := by
  unfold Hub.statWrite
  extract_lets +onlyGivenNames y
  have hy : y.Keeps κ := hk.setRg
  split
  exacts [hy, hy]

/-! ### Accesses -/

theorem State.Keeps.tmrWrite {s : State} {l a v} (hk : s.Keeps κ) : (s.tmrWrite l a v).Keeps κ := by
  unfold State.tmrWrite
  split
  · exact hk.upLane fun _ hx => hx.strokeWrite
  split
  · extract_lets +onlyGivenNames s₁
    have hs₁ : s₁.Keeps κ := by
      unfold s₁
      split
      exacts [hk.upLane fun _ hx => hx.setRg, hk]
    split
    exacts [hs₁.arm, hs₁]
  · exact hk.upLane fun _ hx => hx.plainWrite

theorem State.Keeps.rleCtlWrite {s : State} {l a v} (hk : s.Keeps κ) : (s.rleCtlWrite l a v).Keeps κ := by
  unfold State.rleCtlWrite
  refine hk.upLane fun _ hx => ?_
  split
  · extract_lets +onlyGivenNames x₁
    have hx₁ : x₁.Keeps κ := hx.fset.fset
    split
    exacts [hx₁.lockStation, hx₁]
  split
  · split
    · exact hx.rleFlag
    split
    · exact hx.startCheck
    split
    · exact hx.startStroke
    split
    exacts [hx.rleFlag, hx]
  split
  · exact hx.writeNreq
  split
  · split
    exacts [hx.setRg, hx]
  split
  · exact hx.writeBase
  split
  exacts [hx.writeBase, hx.plainWrite]

theorem State.Keeps.voteWrite {s : State} {l a v} (hk : s.Keeps κ) : (s.voteWrite l a v).Keeps κ := by
  unfold State.voteWrite
  split
  · split
    · exact hk.enterEasy
    split
    · exact hk.leaveAtOnce
    split
    exacts [hk.readmit, hk]
  split
  exacts [hk.upLane fun _ hx => hx.voteCfgWrite, hk.upLane fun _ hx => hx.plainWrite]

theorem State.Keeps.xlWrite {s : State} {l a v} (hk : s.Keeps κ) : (s.xlWrite l a v).Keeps κ := by
  unfold State.xlWrite
  refine hk.linksAfter ?_
  refine hk.upLane fun _ hx => ?_
  split
  · extract_lets +onlyGivenNames x₁
    have hx₁ : x₁.Keeps κ := by
      unfold x₁
      split
      exacts [hx.setRg, hx]
    extract_lets +onlyGivenNames x₂
    have hx₂ : x₂.Keeps κ := by
      unfold x₂
      split
      exacts [hx₁.setRg, hx₁]
    extract_lets +onlyGivenNames x₃
    have hx₃ : x₃.Keeps κ := by
      unfold x₃
      split
      exacts [hx₂.retrainNow, hx₂]
    split
    exacts [hx₃.retrainNow, hx₃]
  · exact hx.plainWrite

theorem State.Keeps.lctlWrite {s : State} {l a v} (hk : s.Keeps κ) : (s.lctlWrite l a v).Keeps κ := by
  unfold State.lctlWrite
  refine hk.upLane fun _ hx => ?_
  split
  · split
    exacts [hx.raise, hx]
  split
  · exact hx.core1Start
  split
  exacts [hx.plainWrite.brgShow, hx.plainWrite]

theorem State.Keeps.laneCrcWrite {s : State} {l a v} (hk : s.Keeps κ) : (s.laneCrcWrite l a v).Keeps κ := by
  unfold State.laneCrcWrite
  refine hk.upLane fun _ hx => ?_
  split
  · exact hx.crcStart
  split
  exacts [hx.crcData, hx.plainWrite]

theorem State.Keeps.brgRegWrite {s : State} {l a v} (hk : s.Keeps κ) : (s.brgRegWrite l a v).Keeps κ := by
  unfold State.brgRegWrite
  refine hk.upLane fun _ hx => ?_
  split
  · exact hx.brgCfgWrite
  split
  · exact hx.brgResume
  split
  · split
    exacts [Lane.Keeps.brgShow hx, hx]
  split
  · split
    exacts [Lane.Keeps.brgShow hx, hx]
  split
  · exact hx.brgMsg
  split
  · exact hx.setRg
  split
  · extract_lets +onlyGivenNames n x₁
    have hx₁ : x₁.Keeps κ := by
      unfold x₁
      split
      exacts [hx.semGive, hx]
    split
    exacts [hx₁.semTake, hx₁]
  · exact hx.plainWrite

theorem State.Keeps.fldpWrite {s : State} {l a v} (hk : s.Keeps κ) : (s.fldpWrite l a v).Keeps κ := by
  unfold State.fldpWrite
  split
  · exact hk.calRequest
  split
  exacts [hk.upLane fun _ hx => hx.fldpCfgWrite, hk.upLane fun _ hx => hx.plainWrite]

theorem Lane.Keeps.spreadWrite {l : Lane} {v} (hk : l.Keeps κ) : (l.spreadWrite v).Keeps κ := by
  unfold Lane.spreadWrite
  split
  · extract_lets +onlyGivenNames x
    have hx : x.Keeps κ := hk.plainWrite
    exact hx.fset
  · exact hk

theorem Hub.Keeps.spreadWrite {h : Hub} {v} (hk : h.Keeps κ) : (h.spreadWrite v).Keeps κ := by
  unfold Hub.spreadWrite
  split
  · exact hk
  extract_lets +onlyGivenNames x
  have hx : x.Keeps κ := hk.plainWrite
  exact hx.fset

theorem State.Keeps.laneRegWrite {s : State} {l a v} (hk : s.Keeps κ) : (s.laneRegWrite l a v).Keeps κ := by
  unfold State.laneRegWrite
  split
  · exact hk.lctlWrite
  · exact hk.voteWrite
  · exact hk.xlWrite
  · exact hk.laneCrcWrite
  · exact hk.tmrWrite
  · split
    · exact hk.upLane fun _ hx => hx.wdtCfgWrite
    split
    exacts [hk.wdtKick, hk.upLane fun _ hx => hx.plainWrite]
  · split
    exacts [hk.swr, hk.upLane fun _ hx => hx.plainWrite]
  · split
    exacts [hk.upLane fun _ hx => hx.spreadWrite, hk.upLane fun _ hx => hx.plainWrite]
  · split
    exacts [hk.upLane fun _ hx => hx.vsetWrite, hk.upLane fun _ hx => hx.plainWrite]
  · split
    · refine hk.upLane fun _ hx => ?_
      split
      exacts [hx.injStart, hx]
    · exact hk.upLane fun _ hx => hx.plainWrite
  · exact hk.brgRegWrite
  · exact hk.fldpWrite
  · exact hk.upLane fun _ hx => hx.plainWrite

theorem State.Keeps.lanePeriph {s : State} {l a w acc hw} (hk : s.Keeps κ) : (s.lanePeriph l a w acc hw).Keeps κ := by
  unfold State.lanePeriph
  split
  · exact hk.busErr
  split
  · split
    · exact hk.busData
    extract_lets +onlyGivenNames s₁
    have hs₁ : s₁.Keeps κ := hk.laneAt
    exact State.Keeps.busData (hs₁.modLane fun _ hx => hx.latched)
  refine State.Keeps.busOk ?_
  split
  exacts [hk.laneRegWrite.upLane fun _ hx => hx.hwSet, hk.upLane fun _ hx => hx.crcData]

theorem State.Keeps.taskSram {s : State} {l k a n nerr acc} (hk : s.Keeps κ) : (s.taskSram l k a n nerr acc).Keeps κ := by
  unfold State.taskSram
  extract_lets +onlyGivenNames x
  have hx : x.Keeps κ := hk.lane
  split
  · exact hk.laneRead
  extract_lets +onlyGivenNames bs
  exact hk.laneSram

theorem State.Keeps.laneReach {s : State} {l a w acc env} (hk : s.Keeps κ) : (s.laneReach l a w acc env).Keeps κ := by
  unfold State.laneReach
  extract_lets +onlyGivenNames x
  have hx : x.Keeps κ := hk.lane
  extract_lets +onlyGivenNames n
  split
  · split
    · split
      exacts [hk.busData, hk.busErr]
    · exact hk.busErr
  split
  · split
    · split
      exacts [hk.taskSram, hk]
    · exact hk.laneSram
  split
  · split
    exacts [hk.opCellWindow, hk.busErr]
  split
  · split
    · exact hk.busErr
    split
    exacts [hk.busData, State.Keeps.busOk (hk.rleCtlWrite.upLane fun _ hx => hx.hwSet)]
  split
  · exact hk.mailboxAccess
  split
  · split
    exacts [hk.brgReadStart, hk.brgWriteStart]
  split
  exacts [hk.lanePeriph, hk.busErr]

theorem State.Keeps.laneAccess {s : State} {l a w acc env} (hk : s.Keeps κ) : (s.laneAccess l a w acc env).Keeps κ := by
  unfold State.laneAccess
  extract_lets +onlyGivenNames write core
  have hcore : ∀ (s : State), s.Keeps κ → (core s).Keeps κ := fun s hx => hx.laneReach.trapOnError
  split
  · exact hk
  split
  · exact hcore _ hk
  · split
    exacts [hcore _ (hk.setLane (hk.lane.taskRuns ‹_›)), hk]
  split
  exacts [hk.laneReach, hk.busErr]

theorem Hub.Keeps.ringRegWrite {h : Hub} {a v t} (hk : h.Keeps κ) : (h.ringRegWrite a v t).Keeps κ := by
  unfold Hub.ringRegWrite
  extract_lets +onlyGivenNames k₁
  split
  · split
    exacts [hk, hk.plainWrite]
  split
  · split
    exacts [hk.ratingCheck, hk]
  split
  · exact hk.plainWrite
  split
  · exact hk.ringEnable
  split
  · extract_lets +onlyGivenNames y
    have hy : y.Keeps κ := by
      unfold y
      split
      exacts [hk.ringRestart, hk]
    extract_lets +onlyGivenNames y₁
    have hy₁ : y₁.Keeps κ := by
      unfold y₁
      split
      exacts [hy.annAbandon, hy]
    split
    exacts [hy₁.ringAnnounce, hy₁]
  split
  exacts [hk.setRg, hk.plainWrite]

theorem Hub.Keeps.sgwRegWrite {h : Hub} {a v} (hk : h.Keeps κ) : (h.sgwRegWrite a v).Keeps κ := by
  unfold Hub.sgwRegWrite
  split
  · extract_lets +onlyGivenNames y
    have hy : y.Keeps κ := by
      unfold y
      split
      exacts [hk.sgwLoadWrite, hk]
    exact hy.plainWrite
  split
  · split
    exacts [hk, hk.plainWrite]
  split
  · split
    exacts [hk.plainWrite, hk.plainWrite]
  split
  exacts [hk.setRg, hk.plainWrite]

theorem Hub.Keeps.hubCrcWrite {h : Hub} {u a v} (hk : h.Keeps κ) : (h.hubCrcWrite u a v).Keeps κ := by
  unfold Hub.hubCrcWrite
  split
  · exact hk.crcStart
  split
  exacts [hk.crcData, hk.plainWrite]

theorem State.Keeps.hubRegWrite {s : State} {a v} (hk : s.Keeps κ) : (s.hubRegWrite a v).Keeps κ := by
  unfold State.hubRegWrite
  split
  · exact hk.upHub fun _ hx => hx.hubCrcWrite
  · exact hk.upHub fun _ hx => hx.hubCrcWrite
  · exact hk.upHub fun _ hx => hx.ringRegWrite
  · refine hk.upHub fun _ hx => ?_
    split
    exacts [hx.setRg, hx.plainWrite]
  · exact hk.upHub fun _ hx => hx.sgwRegWrite
  · split
    · exact hk.swr
    refine hk.upHub fun _ hx => ?_
    split
    exacts [hx.blockAsk, hx.plainWrite]
  · refine hk.upHub fun _ hx => ?_
    split
    exacts [hx.spreadWrite, hx.plainWrite]
  · exact hk.upHub fun _ hx => hx.plainWrite

theorem State.Keeps.barWrite {s : State} {off v} (hk : s.Keeps κ) : (s.barWrite off v).Keeps κ := by
  unfold State.barWrite
  extract_lets +onlyGivenNames a
  split
  · exact hk
  split
  · exact hk.modHub fun _ hx => hx
  split
  · exact hk.modHub fun _ hx => hx.statWrite
  split
  · exact hk.hcmdCtrl
  split
  · extract_lets +onlyGivenNames q slot
    split
    exacts [hk.modHub fun _ hx => hx.doorbell, hk.modHub fun _ hx => hx.headWrite]
  · exact hk.modHub fun _ hx => hx.plainWrite

theorem State.Keeps.barAccess {s : State} {off w acc} (hk : s.Keeps κ) : (s.barAccess off w acc).Keeps κ := by
  unfold State.barAccess
  split
  · exact hk.busErr
  split
  exacts [hk.busData, hk.barWrite.busOk]

theorem State.Keeps.hubPeriph {s : State} {a w acc hw} (hk : s.Keeps κ) : (s.hubPeriph a w acc hw).Keeps κ := by
  unfold State.hubPeriph
  extract_lets +onlyGivenNames data
  split
  · exact hk.busErr
  split
  · split
    exacts [hk.busData, hk.busData]
  refine State.Keeps.busOk ?_
  split
  exacts [hk.hubRegWrite.upHub fun _ hx => hx.hwSet, hk.upHub fun _ hx => hx.crcData]

theorem State.Keeps.hubAccess {s : State} {a w acc env} (hk : s.Keeps κ) : (s.hubAccess a w acc env).Keeps κ := by
  unfold State.hubAccess
  extract_lets +onlyGivenNames n
  split
  · exact hk
  split
  · split
    · split
      exacts [hk.busData, hk.busErr]
    · exact hk.busErr
  split
  · exact hk.hubSram
  split
  · exact hk.mailboxAccess
  split
  · split
    · split
      exacts [hk.busData, hk.busErr]
    · exact hk.busErr
  split
  · exact hk.hubPeriph
  split
  exacts [hk.barAccess, hk.busErr]

theorem State.Keeps.access {s : State} {m a w acc env} (hk : s.Keeps κ) : (s.access m a w acc env).Keeps κ := by
  unfold State.access
  split
  exacts [hk.laneAccess, hk.hubAccess, hk.barAccess]

theorem State.Keeps.spiWord_snd {s : State} {bar2 off acc} (hk : s.Keeps κ) : (s.spiWord bar2 off acc).2.Keeps κ := by
  unfold State.spiWord
  extract_lets +onlyGivenNames s₁
  have hs₁ : s₁.Keeps κ := by
    unfold s₁
    split
    · exact hk.hostWindow
    split
    exacts [hk.barAccess, hk.busData]
  split
  · exact hs₁
  split
  exacts [hs₁.draw, hs₁]

theorem State.Keeps.spiRead_snd {n : Nat} {s : State} {bar2 : Bool} {off : Nat} (hk : s.Keeps κ) : (s.spiRead bar2 off n).2.Keeps κ := by
  induction n generalizing s off with
  | zero => exact hk
  | succ n ih => exact ih hk.spiWord_snd

theorem State.Keeps.spiWrite {n : Nat} {s : State} {bar2 : Bool} {off : Nat} {bs : List Byte} (hk : s.Keeps κ) :
    (s.spiWrite bar2 off bs n).Keeps κ := by
  induction n generalizing s off bs with
  | zero => exact hk
  | succ n ih => exact ih hk.spiWord_snd

theorem State.Keeps.spiTransaction {s : State} {b} (hk : s.Keeps κ) : (s.spiTransaction b).Keeps κ := by
  unfold State.spiTransaction
  extract_lets +onlyGivenNames n off bar2
  split
  · exact hk
  split
  · exact hk
  split
  · split
    · extract_lets +onlyGivenNames r
      have hr : r.2.Keeps κ := hk.spiRead_snd
      extract_lets +onlyGivenNames out
      exact hr.modHub fun _ hx => hx
    · exact hk
  split
  exacts [hk.spiWrite, hk.modHub fun _ hx => hx.hostFlag]

end Sys2Proof.Machine
end

section
/-! PROOFS. O3 and O4: every command keeps the charter, so every step keeps the stores canonical, the fuses as they are, the queue's rest, and a
time that never goes back. -/

namespace Sys2Proof.Machine

variable {κ : Charter}

/-- Whatever next state an outcome answers keeps the charter. -/
def NextKeeps (κ : Charter) (o : Host.Outcome State Fault Refusal) : Prop := ∀ t, o = .next t → t.Keeps κ

theorem NextKeeps.next {t : State} (hk : t.Keeps κ) : NextKeeps κ (.next t) := fun _ h => by cases h; exact hk

theorem NextKeeps.fault {f : Fault} : NextKeeps κ (.fault f) := fun _ h => by cases h

theorem NextKeeps.access {s : State} {m : Master} {a : Nat} {w : Width} {acc : Access} {env : AccessEnv} (hk : s.Keeps κ) :
    NextKeeps κ (accessOutcome m a w acc env s) := by
  unfold accessOutcome
  split
  · split
    exacts [.next hk.access, .fault]
  · exact .next hk.access

theorem NextKeeps.signEngineCheck {s : State} {l : LaneId} {conn : Nat} {tlg : List Byte} (hk : s.Keeps κ) :
    NextKeeps κ (execSignEngineCheck l conn tlg s) := by
  unfold execSignEngineCheck
  extract_lets x e
  split
  · exact .next hk
  · split
    exacts [.next hk, .next hk]

theorem NextKeeps.fieldPowerOn {s : State} {t : Nat} (hk : s.Keeps κ) : NextKeeps κ (execFieldPowerOn t s) := by
  unfold execFieldPowerOn
  extract_lets s'
  have hs' : s'.Keeps κ := hk.at
  split
  exacts [.next hs', .next hs']

/-- Every command keeps the charter, whatever the state. -/
theorem exec_keeps {s : State} (c : Instr) (hk : s.Keeps κ) : NextKeeps κ (exec c s) := by
  cases c with
  | registerWrite m addr acc env => exact .access hk
  | badWidthAccess m addr w acc env => exact .access hk
  | unmappedAccess m addr acc => exact .access hk
  | fieldPowerOn t => exact .fieldPowerOn hk
  | signEngineCheck l conn tlg => exact .signEngineCheck hk
  | tickFrame l own frame => exact .next (hk.at.upLane fun _ hx => hx.tick)
  | rateCheckWindow l xcount =>
    refine .next ?_
    split
    exacts [hk, hk.rateWindow]
  | holdoverEntry l => exact .next (hk.upLane fun _ hx => hx.holdEntry)
  | holdoverExit l => exact .next (hk.upLane fun _ hx => hx.holdExit)
  | timebaseRestart since =>
    refine .next ?_
    split
    exacts [hk.at.modHub fun _ hx => hx, hk]
  | catchInputs l task tn => exact .next hk.laneAt.catchTask
  | consensusFrame dst src task frame t =>
    refine .next ?_
    split
    exacts [hk.laneAt.consFrame, hk.laneAt]
  | telegramFetch dst src task tlg => exact .next hk.fetchTlg
  | consensusDeadline l task t => exact .next hk.laneAt.consDeadline
  | voteInstant l task done us asks t => exact .next hk.laneAt.voteInstant
  | finish l task t => exact .next hk.laneAt.finishTask
  | idleExit l t => exact .next (hk.laneAt.upLane fun _ hx => hx)
  | arm l => exact .next hk.arm
  | cmaxClr l => exact .next (hk.upLane fun _ hx => hx.setRg)
  | tmrStrokeWrite l v => exact .next (hk.upLane fun _ hx => hx.strokeWrite)
  | pairing dst src v t => exact .next hk.laneAt.pair
  | startTimeout t => exact .next hk.at.startTimeout
  | eventTaskRelease l task t => exact .next (hk.laneAt.upLane fun _ hx => hx.releaseEvent)
  | programTimerExpiry l timer t => exact .next (hk.laneAt.upLane fun _ hx => hx.timerExpiry)
  | cellWindowWrite l addr acc nerr => exact .next hk.opCellWindow
  | rleCheck l ecc =>
    refine .next ?_
    split
    exacts [hk.engine fun _ hx => hx.startCheck, hk.upLane fun _ hx => hx.startCheck]
  | rleCheckDone l => exact .next (hk.upLane fun _ hx => hx.endCheck)
  | rleLock l => exact .next (hk.upLane fun _ hx => hx.lockStation)
  | rleStroke l ecc =>
    refine .next ?_
    split
    exacts [hk.engine fun _ hx => hx.startStroke, hk.upLane fun _ hx => hx.startStroke]
  | rleStrokeDone l us => exact .next (hk.upLane fun _ hx => hx.endStroke)
  | approachTimerExpiry l ard => exact .next (hk.upLane fun _ hx => hx.approachExpiry)
  | overlapTimerExpiry l cell => exact .next (hk.upLane fun _ hx => hx.overlapExpiry)
  | timedSectionRelease l cell => exact .next (hk.upLane fun _ hx => hx.sectionExpiry)
  | moveTimeout l cell => exact .next (hk.upLane fun _ hx => hx.moveExpiry)
  | crossingCloseTimeout l cell => exact .next (hk.upLane fun _ hx => hx.crossingExpiry)
  | rleNreqWrite l v => exact .next (hk.upLane fun _ hx => hx.writeNreq)
  | vmaxClr l => exact .next (hk.upLane fun _ hx => hx.setRg)
  | rleBaseWrite l out v => exact .next (hk.upLane fun _ hx => hx.writeBase)
  | retainedStateDigest dst src crc => exact .next (hk.upLane fun _ hx => hx.takeDigest)
  | level1Frame dst src ctx digests t => exact .next (hk.laneAt.upLane fun _ hx => hx.level1)
  | level1Deadline l ctx t => exact .next hk.laneAt.level1Deadline
  | segmentHashExchange dst src ctx block hashes t => exact .next (hk.laneAt.upLane fun _ hx => hx.takeHashes)
  | segmentFetch dst src ctx seg bytes t => exact .next (hk.laneAt.upLane fun _ hx => hx.takeSegment)
  | answerDeadline l ctx t => exact .next hk.laneAt.answerDeadline
  | verdictFrame dst src ctx v t => exact .next (hk.laneAt.upLane fun _ hx => hx.takeVerdict)
  | verdictDeadline l ctx t => exact .next hk.laneAt.verdictDeadline
  | leaveResetAssert l t => exact .next hk.at.leaveReset
  | leaveNotice dst src reason => exact .next hk.leaveNotice
  | easyAllNotice dst src cause =>
    refine .next ?_
    split
    exacts [hk, hk.enterEasy]
  | hubEasyAllNotice src t => exact .next hk.at.hubEasyNotice
  | restrictiveFinish l t => exact .next hk.laneAt.restrictiveFinish
  | voteCmdEasy l => exact .next hk.enterEasy
  | voteCmdReadmit l => exact .next hk.readmit
  | voteCmdLeave l =>
    refine .next ?_
    split
    exacts [hk, hk.leaveAtOnce]
  | readmitRequest dst src v => exact .next hk.readmRequest
  | readmitPage dst src page ctx bytes crc again t => exact .next hk.at.readmPage
  | readmitFullPassDone l => exact .next (hk.upLane fun _ hx => hx.fullPassDone)
  | readmitRetryHoldoff l => exact .next (hk.upLane fun _ hx => hx.readmHoldoff)
  | voteCfgWrite l off v => exact .next (hk.upLane fun _ hx => hx.voteCfgWrite)
  | xlIdleSend l link t => exact .next (hk.laneAt.upLane fun _ hx => hx.idleSend)
  | xlFrame l link seq body crc again t => exact .next (hk.linksAfter (hk.laneAt.upLane fun _ hx => hx.linkFrame))
  | xlLinkTimeout l link t => exact .next (hk.linksAfter (hk.laneAt.upLane fun _ hx => hx.linkTimeout))
  | xlRetrainTimer l link t => exact .next (hk.laneAt.upLane fun _ hx => hx.retrainTimer)
  | xlLinkUp l link => exact .next (hk.upLane fun _ hx => hx.linkComesUp)
  | xlRetrain l link => exact .next (hk.linksAfter (hk.upLane fun _ hx => hx.retrainNow))
  | xlErrClear l link => exact .next (hk.upLane fun _ hx => hx.setRg)
  | trap l core code tval => exact .next hk.coreOp
  | trapReturn l core => exact .next hk.coreOp
  | interruptEntry l => exact .next hk.interruptEntry
  | sysregWrite l core num acc rd insn =>
    refine .next ?_
    split
    exacts [hk.coreOp, State.Keeps.coreOp (hk.upLane fun _ hx => hx.showCycles)]
  | swiSet l => exact .next (hk.upLane fun _ hx => hx.raise)
  | signatureWindowClose l r0 r1 t => exact .next (hk.at.ifUp fun _ hx => hx.windowClose)
  | injectionTestStart l => exact .next (hk.upLane fun _ hx => hx.injStart)
  | debugHalt l => exact .next hk.debugHalt
  | debugResetRequest d =>
    refine .next ?_
    split
    exacts [hk.requestReset, hk.assertHub, hk]
  | benchGrant l => exact .next hk.benchGrant
  | core1Start l v => exact .next (hk.upLane fun _ hx => hx.core1Start)
  | wdtKick l v t => exact .next (hk.at.ifUp fun _ hx => hx.wdtKick)
  | wdtWarning l t => exact .next (hk.at.upLane fun _ hx => hx.wdtWarn)
  | wdtExpiry l t => exact .next (hk.at.ifUp fun _ hx => hx.wdtTimeout)
  | wdtCfgWrite l v => exact .next (hk.upLane fun _ hx => hx.wdtCfgWrite)
  | lockup l inTrap t => exact .next (hk.at.ifUp fun _ hx => hx.lockup)
  | exclusiveLoad l addr t => exact .next (hk.at.ifUp fun _ hx => hx.exclusiveLoad)
  | exclusiveStore l addr v t => exact .next (hk.at.ifUp fun _ hx => hx.exclusiveStore)
  | taskException l task pc code => exact .next (hk.upLane fun _ hx => hx.taskException)
  | programBreakpoint l task pc => exact .next (hk.upLane fun _ hx => hx.reachBreak)
  | retainList dst src items => exact .next hk.retainList
  | carryMapDigest dst src digest result => exact .next hk.carryDigest
  | prepareReadback l entry => exact .next hk.prepareReadback
  | readyNotice dst src => exact .next (hk.upLane fun _ hx => hx.takeReady)
  | onlineChangeSwitch l t => exact .next hk.laneAt.changeSwitch
  | commitReadback l entry => exact .next hk.commitReadback
  | commitTimeout  => exact .next hk.commitTimeout
  | fieldSample m t => exact .next hk.at.fieldSample
  | fieldFrame l bytes t => exact .next (hk.laneAt.upLane fun _ hx => hx.fieldFrame)
  | fieldRateWindow l t => exact .next (hk.laneAt.upLane fun _ hx => hx.fieldRate)
  | fieldConfigSend l t => exact .next (hk.laneAt.upLane fun _ hx => hx.configSend)
  | fieldConfigFrame port words t => exact .next hk.at.fieldConfigFrame
  | comparatorDebounce k cmpB on t => exact .next hk.at.upField
  | testPulseGap k t => exact .next hk.at.upField
  | testPulsePeriodEnd k o => exact .next hk.upField
  | calRequest l v t => exact .next hk.at.calRequest
  | calibrationStart ch t => exact .next hk.at.calStart
  | calibrationEnd ok t => exact .next hk.at.calEnd
  | outputOffTest k low t => exact .next hk.at.offTestBegin
  | openLoad k => exact .next hk.openLoad
  | overload k => exact .next hk.overload
  | shortVf k => exact .next hk.shortVf
  | offTestEnd k rbOn dropped lsOn t => exact .next hk.at.offTestEnd
  | fieldImageBlock port idx bytes => exact .next hk.imageBlock
  | fldpCfgWrite l off v => exact .next (hk.upLane fun _ hx => hx.fldpCfgWrite)
  | fieldUndervoltage  => exact .next hk.upField
  | fieldBrownOut  => exact .next hk
  | fieldOvertemp  => exact .next hk.upField
  | fieldSleep t =>
    refine .next ?_
    split
    exacts [hk.at.upField, hk.at]
  | discrepancyTimeout l blk tn => exact .next (hk.laneAt.upLane fun _ hx => hx.discTimeout)
  | cycleStart k t => exact .next (hk.at.upHub fun _ hx => hx.cycleStart)
  | cycleStartFrame k east frame t => exact .next (hk.at.upHub fun _ hx => hx.cycleFrame)
  | downlinkSlot k slot t => exact .next (hk.at.upHub fun _ hx => hx.downlink)
  | uplinkFrame k east pos frame t => exact .next (hk.at.carry fun _ hx => hx.uplink)
  | delayMeasurement k east roundTrip => exact .next (hk.upHub fun _ hx => hx.delayMeasure)
  | nodeAbsent k node => exact .next (hk.upHub fun _ hx => hx.nodeAbsent)
  | ringListenTimeout k t => exact .next (hk.at.upHub fun _ hx => hx.listenTimeout)
  | ringEnable k v t => exact .next (hk.at.upHub fun _ hx => hx.ringEnable)
  | ratingCheck  => exact .next (hk.upHub fun _ hx => hx.ratingCheck)
  | ratingCheckDone  => exact .next (hk.upHub fun _ hx => hx.ratingCheckDone)
  | ringCmdAnnounce k rating => exact .next (hk.upHub fun _ hx => hx.ringAnnounce)
  | ringCmdCancel k => exact .next (hk.upHub fun _ hx => hx.annAbandon)
  | ringCmdRestart k t => exact .next (hk.at.upHub fun _ hx => hx.ringRestart)
  | announceTarget k =>
    refine .next ?_
    refine hk.upHub ?_
    intro _ hx
    split
    exacts [hx.annDecide, hx]
  | lossOfSignal k east => exact .next (hk.upHub fun _ hx => hx.lossOfSignal)
  | remoteFault k east => exact .next (hk.upHub fun _ hx => hx.lossOfSignal)
  | ringWrap k east => exact .next (hk.upHub fun _ hx => hx.ringWrap)
  | unwrapAnnounce k => exact .next (hk.upHub fun _ hx => hx.unwrapAnnounce)
  | ringErrClear k v => exact .next (hk.upHub fun _ hx => hx.setRg)
  | supervisionTimeout l conn tn => exact .next (hk.at.upLane fun _ hx => hx.supervise)
  | corruptionClose l conn tn => exact .next (hk.at.upLane fun _ hx => hx.corruptionClose)
  | corruptionDecay l conn tn => exact .next (hk.at.upLane fun _ hx => hx.corruptionDecay)
  | holdoffExpiry l conn tn =>
    refine .next ?_
    refine hk.at.upLane ?_
    intro _ hx
    split
    exacts [hx, hx.holdoffExpiry]
  | respondedTimeout l conn tn => exact .next (hk.at.upLane fun _ hx => hx.respondedTimeout)
  | telegramAssembly t => exact .next (hk.at.upHub fun _ hx => hx.assemble)
  | ethernetFrame port bytes t => exact .next (hk.at.carry fun _ hx => hx.ethernetFrame)
  | heartbeatSend t => exact .next hk.at.hbSend
  | heartbeat link frame vals ver t => exact .next hk.at.heartbeat
  | yieldFrame link frame t => exact .next hk.at.yieldIn
  | fwdList link frame t => exact .next hk.at.fwdList
  | fwdTlg link frame t => exact .next hk.at.fwdTlg
  | partnerEst link frame t => exact .next hk.at.partnerEst
  | page link frame => exact .next hk.pageIn
  | fwdImg link frame => exact .next hk.fwdImg
  | fwdAck link frame => exact .next hk.fwdAck
  | pairStartTimeout t => exact .next hk.at.pairStart
  | heartbeatLoss t => exact .next hk.at.hbLoss
  | takeover t => exact .next hk.at.takeover
  | ptnrCntClear v => exact .next (hk.upHub fun _ hx => hx.setRg)
  | sqDoorbell q slot t => exact .next (hk.at.modHub fun _ hx => hx.doorbell)
  | cqHeadWrite q v =>
    refine .next ?_
    split
    exacts [hk, hk.modHub fun _ hx => hx.headWrite]
  | commandDispatch t => exact .next (hk.at.modHub fun _ hx => hx.dispatch)
  | commandCompletion r => exact .next hk.complete
  | hubRetryExhausted r t => exact .next hk.at.retryExhausted
  | hostInterfaceReset  => exact .next hk.hostIfReset
  | spiTransaction bytes => exact .next hk.spiTransaction
  | hostWindowAccess off w acc clash t => exact .next hk.at.hostWindow
  | hcmdDevrst v =>
    refine .next ?_
    split
    exacts [hk, hk.hcmdCtrl]
  | hcmdPwrcyc v t =>
    refine .next ?_
    split
    exacts [hk.at, hk.at.hcmdCtrl]
  | identify r => exact .next (hk.hCmd fun _ hx => hx.endRef)
  | status r => exact .next (hk.hCmd fun _ hx => hx.endRef)
  | resumeTarget r => exact .next (hk.hCmd fun _ hx => hx.resume)
  | benchAuth r mask token => exact .next (hk.hCmd fun _ hx => hx.benchAuth)
  | start r => exact .next (hk.hCmd fun _ hx => hx.startCmd)
  | laneStatus r l => exact .next (hk.hCmd fun _ hx => hx.laneStatus)
  | laneReset r l => exact .next (hk.hCmd fun _ hx => hx.laneResetCmd)
  | settingsRead r sect off => exact .next (hk.hCmd fun _ hx => hx.settingsRead)
  | settingsWrite r sect off bytes => exact .next (hk.hCmd fun _ hx => hx.settingsWrite)
  | settingsCommit r crc => exact .next (hk.writeCmd fun _ hx => hx.settingsCommit)
  | keySwitch r conn slot => exact .next hk.toLanes
  | stationInfo r => exact .next (hk.hCmd fun _ hx => hx.stationInfo)
  | keyLoad r conn => exact .next hk.toLanes
  | tlgSubmit r conn tlg t => exact .next (hk.at.hCmd fun _ hx => hx.tlgSubmit)
  | tlgReceive r conn => exact .next (hk.hCmd fun _ hx => hx.tlgReceive)
  | connClose r conn => exact .next hk.toLanes
  | connStatus r conn => exact .next (hk.hCmd fun _ hx => hx.connStatus)
  | prgStart r => exact .next hk.toLanes
  | prgStop r => exact .next hk.toLanes
  | prgContinue r => exact .next hk.toLanes
  | prgChange r section_ sig => exact .next hk.prgChange
  | forceSet r vid val => exact .next hk.forceSetHub
  | forceClear r vid => exact .next hk.toLanes
  | commissionSet r mask conns => exact .next hk.toLanes
  | breakSet r task addr => exact .next hk.toLanes
  | breakClear r task => exact .next hk.toLanes
  | prgStatus r => exact .next (hk.hCmd fun _ hx => hx.prgStatus)
  | recRead r first count => exact .next (hk.hCmd fun _ hx => hx.recRead)
  | recHead r => exact .next (hk.hCmd fun _ hx => hx.endRef)
  | updBegin r slot len block => exact .next (hk.writeCmd fun _ hx => hx.updBegin)
  | updBlock r idx block => exact .next (hk.writeCmd fun _ hx => hx.updBlock)
  | updVerify r slot => exact .next (hk.hCmd fun _ hx => hx.updVerify)
  | updActivate r slot => exact .next (hk.writeCmd fun _ hx => hx.updActivate)
  | updConfirm r => exact .next (hk.writeCmd fun _ hx => hx.updConfirm)
  | updStatus r slot => exact .next (hk.hCmd fun _ hx => hx.updStatus)
  | updForward r link => exact .next (hk.hCmd fun _ hx => hx.updForward)
  | ringAnnounce r k rating => exact .next (hk.hCmd fun _ hx => hx.ringAnnounceCmd)
  | ringCancel r k => exact .next (hk.hCmd fun _ hx => hx.ringCmd fun _ hx1 => hx1.annAbandon)
  | ringRestart r k t => exact .next (hk.at.hCmd fun _ hx => hx.ringCmd fun _ hx1 => hx1.ringRestart)
  | ringStatus r k => exact .next (hk.hCmd fun _ hx => hx.ringStatus)
  | pairYield r => exact .next hk.toLanes
  | pairStatus r => exact .next (hk.hCmd fun _ hx => hx.endRef)
  | fieldCal r ch => exact .next hk.toLanes
  | fieldSnapshot r => exact .next (hk.hCmd fun _ hx => hx.endRef)
  | easyAll r => exact .next hk.easyCmd
  | moduleReset r kind => exact .next (hk.hCmd fun _ hx => hx.moduleReset)
  | moduleResetAssert t => exact .next hk.at.moduleResetAssert
  | hibernate r mask t => exact .next hk.at.hibernate
  | funcReinit r block t => exact .next (hk.at.hCmd fun _ hx => hx.funcReinit)
  | bistResults r => exact .next (hk.hCmd fun _ hx => hx.bistResults)
  | bistFullNext r => exact .next (hk.hCmd fun _ hx => State.Keeps.endWith hx)
  | bridgeRead l addr w t => exact .next (hk.at.ifUp fun _ hx => hx.bridgeRead)
  | bridgeReadResponse l tag err t => exact .next (hk.at.ifUp fun _ hx => hx.bridgeResponse)
  | bridgeReadTimeout l tag t => exact .next (hk.at.ifUp fun _ hx => hx.bridgeTimeout)
  | bridgeReadBudget l tag t => exact .next (hk.at.ifUp fun _ hx => hx.bridgeBudget)
  | tagQuarantineEnd l tag t => exact .next (hk.at.upLane fun _ hx => hx.quarEnd)
  | bridgeWrite l addr w v t => exact .next (hk.at.ifUp fun _ hx => hx.bridgeWrite)
  | bridgeWriteAck l win err => exact .next (hk.ifUp fun _ hx => hx.bridgeAck)
  | bridgeWriteTimeout l win t => exact .next (hk.at.upLane fun _ hx => hx.writeTimeout)
  | hubExportRead l addr => exact .next hk.hubExportRead
  | hubLaneWrite l addr v => exact .next (State.Keeps.busErr (hk.upLane fun _ hx => hx.fsat))
  | brgResume l v failing => exact .next (hk.upLane fun _ hx => hx.brgResume)
  | brgEqPop l => exact .next (hk.upLane fun _ hx => Lane.Keeps.brgShow hx)
  | brgMsg l v => exact .next (hk.upLane fun _ hx => hx.brgMsg)
  | laneMessageDelivery l => exact .next (hk.ifUp fun _ hx => hx.messageDelivery)
  | hubMessage l v => exact .next (hk.upLane fun _ hx => hx.hubMessage)
  | brgHmsgPop l => exact .next (hk.upLane fun _ hx => Lane.Keeps.brgShow hx)
  | semTake l n byLane byHub => exact .next (hk.upLane fun _ hx => hx.semTake)
  | semGive l n byHub => exact .next (hk.upLane fun _ hx => hx.semGive)
  | brgCfgWrite l off v => exact .next (hk.upLane fun _ hx => hx.brgCfgWrite)
  | brgCntClear l v => exact .next (hk.upLane fun _ hx => hx.setRg)
  | sgwLoad  => exact .next (hk.upHub fun _ hx => hx.sgwLoadWrite)
  | canFrame port ide id remote data err => exact .next (hk.upHub fun _ hx => hx.canFrame)
  | sgwDestinationSend d t => exact .next (hk.at.upHub fun _ hx => hx.destSend)
  | sgwSilenceTimeout d t => exact .next (hk.at.upHub fun _ hx => hx.destSilent)
  | busOffRecovery port => exact .next (hk.upHub fun _ hx => hx.busOffRecovery)
  | sgwCancntClear port v => exact .next (hk.upHub fun _ hx => hx.setRg)
  | scrubRead m nerr =>
    refine .next ?_
    split
    · split
      exacts [hk, hk.scrubRead]
    · split
      exacts [hk, hk.scrubRead]
  | mailboxAccess mbx byHub off w acc clash nerr => exact .next hk.mailboxAccess
  | recordSubmission  => exact .next (hk.upHub fun _ hx => hx.recordNext)
  | gapDropped t => exact .next (hk.at.upHub fun _ hx => hx.gapDropped)
  | crcStart m req v => exact .next hk.crcStart
  | crcDataWrite m req w v => exact .next hk.crcData
  | loaderFrame uart tag idx cnt bytes crc => exact .next hk.loaderFrame
  | rollingStep t => exact .next hk.at.rollingStep
  | rollingStepTimeout  => exact .next hk.stepTimeout
  | hubReadyTimeout t => exact .next hk.at.hubReadyTimeout
  | holdSenseSample code t => exact .next hk.at.holdSample
  | droopCheck us => exact .next (hk.modHub fun _ hx => hx.droopCheck)
  | gatedWriteRetry t => exact .next hk.at.gateAgain
  | clockMonitorWindow m cnt xt t =>
    refine .next ?_
    split
    exacts [hk.at.laneWindow, hk.at.hubWindow, hk.at]
  | crystalStop m xt t => exact .next hk.at.clockLost
  | pllUnlock m sd early t => exact .next hk.at.clockLost
  | xtRecovery t => exact .next (hk.at.modHub fun _ hx => hx.xtRecover)
  | aonClockFail  => exact .next hk.aonClockFail
  | resetNAssert t => exact .next hk.at.resetNAssert
  | resetNRelease t => exact .next hk.at.resetNRelease
  | powerOnReset d aon t => exact .next hk.at.powerOn
  | brownOut d rail t => exact .next hk.at.brownOut
  | rstcSwr m v t => exact .next hk.at.swr
  | trimLoadDone d ok => exact .next hk.trimDone
  | resetRelease d strap t =>
    refine .next ?_
    split
    exacts [hk.at.releaseLane, hk.at.releaseHub, hk.at.releaseField]
  | blockReset v t => exact .next (hk.at.upHub fun _ hx => hx.blockAsk)
  | blockIdleAck t => exact .next hk.at.blockFinish
  | blockIdleTimeout t => exact .next hk.at.blockTimeout
  | supplyOutOfRange m rail t =>
    refine .next ?_
    split
    exacts [hk.at.laneSupply, hk.at.hubSupply, hk.at]
  | supplySettled l t => exact .next (hk.at.modLane fun _ hx => hx.supplySettled)
  | pmbusRequest m t =>
    refine .next ?_
    split
    exacts [hk.at.modLane fun _ hx => hx.pmbRequest, hk.at.upHub fun _ hx => hx.pmbRequest, hk.at]
  | pmbusAck m pg statusWord pec t =>
    refine .next ?_
    split
    exacts [hk.at.modLane fun _ hx => hx.pmbAck, hk.at.upHub fun _ hx => hx.pmbAck, hk.at]
  | pmbusAckTimeout m t => exact .next hk.at.pmbTimeout
  | pwrcVsetWrite l v => exact .next (hk.upLane fun _ hx => hx.vsetWrite)
  | hibernateEntryStep pg t => exact .next hk.at.entryStep
  | wakeEvent src t => exact .next hk.at.wakeEvent
  | wakeSequenceStep t => exact .next hk.at.wakeStep
  | bistDone m kind records cov lfail unrep upset rtc => exact .next hk.bistDone
  | hubTempAlarm high => exact .next hk.hubTemp
  | fwdAckSend t => exact .next hk.at.fwdAckSend
  | fieldUndervoltageEnd  => exact .next hk.upField
  | fieldOvertempEnd  => exact .next hk.upField
  | testPulseGapEnd k t => exact .next hk.at.upField
  | overloadRelease k t => exact .next hk.at.overloadRelease
  | hbusyNRelease t => exact .next hk.at.hbusyRelease
  | pwrcycPulseEnd t => exact .next hk.at.pwrcycEnd
  | hubWatchdogExpiry  => exact .next hk.assertHub
  | hubLockup  => exact .next hk.assertHub
  | recChunkWritten  => exact .next hk.chunkWritten
  | canFrameSent port err => exact .next (hk.upHub fun _ hx => hx.canSent)
  | hubVddioRestored  => exact .next hk.faultPin
  | signalRestored k east => exact .next (hk.upHub fun _ hx => hx.signalRestored)

/-! ### The two statements -/

theorem Lane.canon_iff {x : Lane} : x.canon = true ↔ sparseWf laneRegDefault x.reg = true ∧ Memory.wf x.sram = true ∧
    sparseWf (fun _ => cellZero) x.cells = true ∧ sparseWf (fun _ => (0 : Word)) x.ard = true ∧ sparseWf (fun _ => (0 : Word)) x.rstat = true ∧
      sparseWf (fun _ => (0 : Word)) x.pstore = true := by
  simp [Lane.canon, and_assoc]

theorem Hub.canon_iff {h : Hub} : h.canon = true ↔ sparseWf hubRegDefault h.reg = true ∧ Memory.wf h.sram = true ∧ Memory.wf h.mbxA.mem = true ∧
    Memory.wf h.mbxB.mem = true ∧ Memory.wf h.mbxC.mem = true := by
  simp [Hub.canon, and_assoc]

theorem State.canon_iff {s : State} : s.canon = true ↔ s.la.canon = true ∧ s.lb.canon = true ∧ s.lc.canon = true ∧ s.hub.canon = true ∧
    sparseWf flashDefault s.flash0 = true ∧ sparseWf flashDefault s.flash1 = true := by
  simp [State.canon, and_assoc]

/-- The charter of a step: canonical stores if they are so before it, the fuses, the queue's rest and the time before it. -/
def State.charter (s : State) : Charter := { stores := s.canon = true, fuses := s.fuses, queue := s.pending.tail, since := s.now }

theorem Lane.keeps_of_canon {x : Lane} (h : κ.stores → x.canon = true) : x.Keeps κ := by
  have hx := fun hc => Lane.canon_iff.1 (h hc)
  exact ⟨fun hc => (hx hc).1, fun hc => (hx hc).2.1, fun hc => (hx hc).2.2.1, fun hc => (hx hc).2.2.2.1, fun hc => (hx hc).2.2.2.2.1,
    fun hc => (hx hc).2.2.2.2.2⟩

theorem Hub.keeps_of_canon {h : Hub} (hh : κ.stores → h.canon = true) : h.Keeps κ := by
  have hx := fun hc => Hub.canon_iff.1 (hh hc)
  exact ⟨fun hc => (hx hc).1, fun hc => (hx hc).2.1, fun hc => (hx hc).2.2.1, fun hc => (hx hc).2.2.2.1, fun hc => (hx hc).2.2.2.2⟩

/-- Once the front command is taken, the state keeps the charter of its step. -/
theorem State.keeps_charter (s : State) : State.Keeps s.charter { s with pending := s.pending.tail } := by
  have hc := fun h : s.charter.stores => State.canon_iff.1 h
  exact ⟨rfl, rfl, le_refl _, Lane.keeps_of_canon fun h => (hc h).1, Lane.keeps_of_canon fun h => (hc h).2.1,
    Lane.keeps_of_canon fun h => (hc h).2.2.1, Hub.keeps_of_canon fun h => (hc h).2.2.2.1, fun h => (hc h).2.2.2.2.1, fun h => (hc h).2.2.2.2.2⟩

theorem Lane.Keeps.canon {x : Lane} (hk : x.Keeps κ) (hc : κ.stores) : x.canon = true :=
  Lane.canon_iff.2 ⟨hk.reg hc, hk.sram hc, hk.cells hc, hk.ard hc, hk.rstat hc, hk.pstore hc⟩

theorem Hub.Keeps.canon {h : Hub} (hk : h.Keeps κ) (hc : κ.stores) : h.canon = true :=
  Hub.canon_iff.2 ⟨hk.reg hc, hk.sram hc, hk.mbxA.mem hc, hk.mbxB.mem hc, hk.mbxC.mem hc⟩

theorem State.Keeps.canon {s : State} (hk : s.Keeps κ) (hc : κ.stores) : s.canon = true :=
  State.canon_iff.2 ⟨hk.la.canon hc, hk.lb.canon hc, hk.lc.canon hc, hk.hub.canon hc, hk.flash0 hc, hk.flash1 hc⟩

/-- Every step keeps its charter. -/
theorem step_keeps {s t : State} (h : step s = .next t) : t.Keeps s.charter := by
  have hs := s.keeps_charter
  unfold step at h
  split at h
  · rename_i hp
    cases h
    rwa [hp, List.tail_nil, ← hp] at hs
  · rename_i c rest hp
    rw [hp, List.tail_cons] at hs
    exact exec_keeps c hs t h

end Sys2Proof.Machine

namespace Sys2Proof

open Machine

/-- Settles O3: every step keeps its charter, whose stores are canonical where they were. -/
theorem everyStepKeepsStoresCanonical : Obligations.EveryStepKeepsStoresCanonical :=
  fun _ _ hs h => (step_keeps h).canon hs

/-- Settles O4: every step keeps its charter, with the fuses, the queue's rest and the time of the state before. -/
theorem everyStepKeepsFusesAndNeverTurnsTimeBack : Obligations.EveryStepKeepsFusesAndNeverTurnsTimeBack :=
  fun _ _ h => ⟨(step_keeps h).fuses, (step_keeps h).pending, (step_keeps h).now⟩

end Sys2Proof
end
